-- ==== Sys2Proof/Word.lean ====
section
/-! DEFINITION. The word types of the ST720 (R7): the 72-bit native word, the 64-bit half
that a host access carries, and the byte. -/

namespace Sys2Proof

/-- The native word of R7, bits [71:0]. -/
abbrev Word := BitVec 72

/-- One 8-byte host location of R60. -/
abbrev Half := BitVec 64

/-- One byte of memory. -/
abbrev Byte := BitVec 8

end Sys2Proof
end

