-- ==== Sys2Proof/Syntax.lean ====
section
/-! DEFINITION. The commands the ST720 takes: one constructor per row of the table of operations
and events. The table gives no operands; those here are what the spec says a command carries (the
data of a write, the channel concerned, what arrived at a pin or a port). Fixed indices are `Fin`.
A command that stands for a write to a register whose acknowledge or action field is written 1
carries as `data` the whole half that the write stores (R66, R68). Where a command reports something that happens
outside the block, `dt` is the number of nanoseconds that pass before it (log entry 6). -/

namespace Sys2Proof

/-- Where a request of the host goes (R54, R56, R57): BAR0, BAR4, no BAR of the endpoint, or its configuration space. -/
inductive Bar | bar0 | bar4 | none | config
  deriving DecidableEq, Repr

/-- A request of the host other than one to BAR2 (R57, R62): byte offset, 8 bytes or 4, write or read, data. -/
structure BarReq where
  off : BitVec 24
  eight : Bool
  wr : Bool
  data : Half
  bar : Bar := .bar0
  deriving DecidableEq, Repr

/-- A DMA descriptor as read from host memory (Table 2-7). -/
structure Desc where
  haddr : Half
  len : BitVec 32
  notify : Bool
  pack : Bool
  port : BitVec 6
  cls : BitVec 3
  rsv : Bool
  caddr : BitVec 29
  deriving DecidableEq, Repr

/-- Form A of Table 4-2: the 64 bits below the opcode, zero field included. -/
structure FormA where
  d : BitVec 6
  a : BitVec 6
  b : BitVec 6
  psel : BitVec 4
  mod : BitVec 10
  z : BitVec 32
  deriving DecidableEq, Repr

/-- Form B of Table 4-3. -/
structure FormB where
  d : BitVec 6
  a : BitVec 6
  psel : BitVec 4
  z : BitVec 1
  ofl : BitVec 3
  imm : BitVec 44
  deriving DecidableEq, Repr

/-- Form C of Table 4-4. -/
structure FormC where
  psel : BitVec 4
  cond : BitVec 4
  m : BitVec 24
  t : BitVec 32
  deriving DecidableEq, Repr

/-- Form D of Table 4-5. -/
structure FormD where
  psel : BitVec 4
  sf : BitVec 3
  z : BitVec 1
  ra : BitVec 6
  rb : BitVec 6
  sel : BitVec 12
  imm : BitVec 32
  deriving DecidableEq, Repr

/-- An upset met while an instruction runs (R167). -/
inductive Upset
  /-- No upset. -/
  | none
  /-- A single-bit error of the program or data store, corrected in flight. -/
  | storeOne
  /-- A two-bit store error. -/
  | storeTwo
  /-- A register parity error that does not recur on the retry. -/
  | regOnce
  /-- A register parity error that recurs on the retry. -/
  | regTwice
  deriving DecidableEq, Repr

/-- A cell error met while a frame is read from the Sump (R272, R273): its place, whether it is
uncorrectable, whether it is met before any byte of the frame has left, and how many frames that its egress fetches stand
before that frame (R279). -/
structure CellUpset where
  slice : Fin 4
  row : Fin 3584
  cell : Fin 16
  ue : Bool
  first : Bool
  ahead : Fin 64
  deriving DecidableEq, Repr

/-- A frame on the wire of a port (R305, R306): its bytes from DA on without FCS, whether the FCS is
good, whether the PCS saw an error in it, and the FEC codewords corrected and uncorrectable. -/
structure WireFrame where
  bytes : List Byte
  fcsOk : Bool
  code : Bool
  fecCorr : Nat
  fecBad : Nat
  deriving DecidableEq, Repr

/-- Which condition of R317 fails, of those that come from outside: local fault, remote fault, the PHY of MGMT. -/
inductive LinkFault | localFault | remoteFault | phy
  deriving DecidableEq, Repr


/-- A good capability message (Table 10-3). -/
structure CapMsg where
  role : BitVec 4
  lane : BitVec 2
  map : BitVec 4
  ssc : Bool
  ser : BitVec 32
  deriving DecidableEq, Repr

/-- What a returned scan frame shows (R261): nodes counted, round trip in ns, and per node its forward and
return stamps in 2^-3 ns of its own clock. -/
structure ScanRet where
  nodes : BitVec 9
  rtt : BitVec 20
  stamps : List (BitVec 32 × BitVec 32)
  deriving DecidableEq, Repr

/-! ### Blocks on the Rope (R498, R500, R502, R511, R515, R518) -/

/-- One journal input of Table 17-4 as it arrives from the partner. -/
inductive WireItem
  | write (r : BarReq)
  | sample (axis : Fin 16) (inst : Word) (faulty : Bool) (smp : Option (Word × Int)) (idx : Option Word) (last : Option Int)
  | engRetire (n : Fin 16)
  | cellRetire (c : Fin 8)
  | ringData (e : Fin 16) (word : BitVec 14) (value : Word) (cycle claim : Nat)
  | loadReport (n : Fin 16) (ok : Bool) (digest : Nat)
  | handover
  | withdraw
  | measure (d k : Fin 2) (ofs mpd : Int)
  | steer (freq : Int)
  | cmpState (st : Fin 5) (stage : Fin 4)
  | cmpCommit (phi : Int) (st : Fin 5) (stage : Fin 4)
  | encDly (e : Fin 4) (d : BitVec 16)
  | profReady (code : Fin 8)
  deriving DecidableEq, Repr

/-- One item of state transfer (Table 18-8 of R518): a register, a word of an engine's program or data
store, a word of an entry of either bank of the endpoint table, a word of an axis record, an axis estimator, an engine's registers. -/
inductive Xfer
  | reg (off : BitVec 24) (v : Word)
  | store (e : Fin 16) (data : Bool) (w : BitVec 15) (v : Word)
  | ept (edit : Bool) (i : BitVec 18) (hi : Bool) (v : Word)
  | cam (r : BitVec 18) (w : Fin 6) (v : Word)
  | axis (n : Fin 16) (p v a : Int) (s0 : Word) (base : Int) (applied : Nat)
  | engine (n : Fin 16) (g : List Word) (f : BitVec 8) (pc : BitVec 15) (sig : BitVec 8)
  | quiet
  deriving DecidableEq, Repr

/-- A control block: the sender's state with its claim, a journal gap (R503), a withdrawal, a PWR_FAIL
(R542), a GENRST (R494). -/
inductive RopeCtl
  | state (st : Fin 7) (claim : BitVec 16)
  | gap
  | withdrawn
  | pwrFail
  | genrst
  deriving DecidableEq, Repr

/-- The content of a block (Table 17-3). A digest names its cycle by the boundary that opened it; a
journal entry carries its journal time in ns of the time scale. A phase block shows the phase of this unit's clock against
the partner's, in fs, that its stamp and its arrival give (R349, R500). -/
inductive RopeMsg
  | journal (i : WireItem) (at_ : Nat)
  | digest (bound : Word) (dig : Word) (score : BitVec 8)
  | transfer (x : Xfer) (tag : Word)
  | control (c : RopeCtl)
  | idle
  | phase (d : Int)
  deriving DecidableEq, Repr

/-- A block from the Rope: its sequence number, its payload as it arrives, encrypted, its tag, and the content that the payload
holds where the tag verifies (R498, R499). -/
structure RopeBlock where
  seq : BitVec 48
  payload : List Byte
  tag : BitVec 128
  msg : RopeMsg
  deriving DecidableEq, Repr

/-- What the partner shows before the Rope links (R500): its name, PREF, its PAIR_CFG fields other than
UNIT, PAIR_DELAY, PAIR_AXSRC, PERIOD, pair state and claim, whether its blocks authenticate, ROPEDLY
as measured in ns, and its session count (R499). -/
structure RopePeer where
  unit : Bool
  cfg : BitVec 11
  delay : BitVec 8
  axsrc : BitVec 32
  period : BitVec 12
  state : Fin 7
  claim : BitVec 16
  auth : Bool
  dly : BitVec 20
  session : BitVec 31
  deriving DecidableEq, Repr

/-- One wake source detected (Table 18-5): its code, the lane, port or GPIO it comes from, and the level
of a GPIO. -/
structure WakeSrc where
  code : Fin 7
  idx : Fin 32
  level : Bool
  deriving DecidableEq, Repr

/-- What a calibration or self-test job measured (R462, R464, R469): for TAC the lowest and highest code
hit and whether a code is missing; for DLINE step and offset in the units of CAL_DLj and the largest
residual in ps; an ENCDLY job measures by its samples (R467); for tests whether they pass. -/
inductive CalResult
  | tac (cmin cmax : BitVec 12) (missing : Bool)
  | dline (step : BitVec 16) (ofs : Int) (resid : Nat)
  | encdly
  | test (pass : Bool)
  deriving DecidableEq, Repr
/-- The commands, one per row of the table of operations and events. -/
inductive Instr where
  /-- REGISTER_WRITE (R19). -/
  | registerWrite (r : BarReq)
  /-- COUNTER_ACK (R20). -/
  | counterAck (a : BitVec 24)
  /-- MASTER_SELECT (R377). -/
  | masterSelect (d : Fin 2) (data : Half)
  /-- SERVO_ENABLE (R374). -/
  | servoEnable (d : Fin 2) (data : Half)
  /-- DOMAIN_SWITCH_WRITE (R381). -/
  | domainSwitchWrite (data : Half)
  /-- LOOPBACK_GO (R387). -/
  | loopbackGo (n : Fin 32) (data : Half)
  /-- INPUT_ENABLE (R400). -/
  | inputEnable (k : Fin 8) (data : Half)
  /-- INPUT_RETIRE_CLEAR (R400). -/
  | inputRetireClear (k : Fin 8)
  /-- OUTPUT_ENABLE (R412). -/
  | outputEnable (j : Fin 6) (data : Half)
  /-- OUTPUT_STEP (R415). -/
  | outputStep (j : Fin 6) (data : Half)
  /-- OUTPUT_DROP_CLR (R420). -/
  | outputDropClr (j : Fin 6)
  /-- CLK_OUTEN_WRITE (R434). -/
  | clkOutenWrite (data : Half)
  /-- TIC_ARM (R449). -/
  | ticArm (data : Half)
  /-- CAL_REQUEST (R460). -/
  | calRequest (data : Half)
  /-- TRACE_CLR (R488). -/
  | traceClr (data : Half)
  /-- TRACE_LOAD (R489). -/
  | traceLoad (data : Half)
  /-- PERF_COUNTER_READ (R484). -/
  | perfCounterRead (a : BitVec 24)
  /-- PAIR_ENABLE (R496). -/
  | pairEnable (data : Half)
  /-- REQ_RUN (R528). -/
  | reqRun (data : Half)
  /-- REQ_DOZE (R528). -/
  | reqDoze (data : Half)
  /-- REQ_LINE_HOLD (R528). -/
  | reqLineHold (data : Half)
  /-- REQ_STANDBY (R528). -/
  | reqStandby (data : Half)
  /-- REQ_MAINT (R528). -/
  | reqMaint (data : Half)
  /-- CHALLENGE_GO (R553). -/
  | challengeGo (data : Half)
  /-- FUSE_PROG (R564). -/
  | fuseProg (data : Half)
  /-- FUSE_REVOKE (R564). -/
  | fuseRevoke (data : Half)
  /-- CAGE_OC_CLEAR (R580). -/
  | cageOcClear (mask : BitVec 9)
  /-- LINE_RESET (R596). -/
  | lineReset (data : Half)
  /-- MODULE_RESET (R596). -/
  | moduleReset (data : Half)
  /-- BOOT_UPDATE (R599). -/
  | bootUpdate (data : Half)
  /-- CYCLE_BOUNDARY (R24). -/
  | cycleBoundary
  /-- CYCLE_ARM (R27). -/
  | cycleArm (data : Half)
  /-- CYCLE_RUN_WRITE (R25). -/
  | cycleRunWrite (data : Half)
  /-- CYCLE_TRIGGER (R174). -/
  | cycleTrigger
  /-- LWM_CLR (R35). -/
  | lwmClr
  /-- MSLOT_WRITE (R33). -/
  | mslotWrite (data : Half)
  /-- SLOT_OPEN_LATEST (R32). -/
  | slotOpenLatest (scrub : List (Fin 16 × BitVec 16 × Bool))
  /-- IDLE_SLOT_OPEN (R461). -/
  | idleSlotOpen (scrub : List (Fin 16 × BitVec 16 × Bool))
  /-- MAINT_SLOT_CLOSE (R32). -/
  | maintSlotClose
  /-- PROFILE_GO (R38). -/
  | profileGo (data : Half)
  /-- PROFILE_SAMPLE (R38). -/
  | profileSample
  /-- PROFILE_SAMPLE_IDLE (R603). -/
  | profileSampleIdle
  /-- LEAN_DRAIN_DONE (R40). -/
  | leanDrainDone
  /-- REFUSED_DRAIN (R40). -/
  | refusedDrain
  /-- LEAN_EXIT_READY (R40). -/
  | leanExitReady
  /-- HOST_RESET (R55). -/
  | hostReset
  /-- PERST_RELEASE (R592). -/
  | perstRelease
  /-- CONFIG_READY (R592). -/
  | configReady
  /-- UNSUPPORTED_SIZE (R57). -/
  | unsupportedSize (off : BitVec 24)
  /-- UNMAPPED_ACCESS (R57). -/
  | unmappedAccess (r : BarReq)
  /-- POISONED_REQUEST (R94). -/
  | poisonedRequest (addr : Half)
  /-- DOMAIN_WAKE_ACCESS (R69). -/
  | domainWakeAccess (r : BarReq)
  /-- DOMAIN_READY (R69). -/
  | domainReady (d : Fin 12)
  /-- PROFILE_OFF_ACCESS (R71). -/
  | profileOffAccess (r : BarReq)
  /-- LOST_BANK_ACCESS (R72). -/
  | lostBankAccess (r : BarReq)
  /-- ACCESS_STALL_TIMEOUT (R440). -/
  | accessStallTimeout
  /-- JOURNAL_APPLY (R74). -/
  | journalApply
  /-- BAR2_READ (R83). -/
  | bar2Read (off : BitVec 28) (len : BitVec 13) (ups : List (Nat × Bool))
  /-- BAR2_WRITE (R83). -/
  | bar2Write (off : BitVec 28) (bytes : List (Option Byte)) (ups : List (Nat × Bool))
  /-- DMA_DESCRIPTOR (R89). -/
  | dmaDescriptor (n : Fin 4) (d : Desc) (data : List Byte) (ups : List (Nat × Bool))
  /-- DMA3_FRAME_DELIVER (R87). -/
  | dma3FrameDeliver (d : Desc) (ups : List CellUpset)
  /-- DMA_CPL_TIMEOUT (R91). -/
  | dmaCplTimeout (n : Fin 4) (addr : Half)
  /-- DMA_CPL_ERROR (R91). -/
  | dmaCplError (n : Fin 4) (err : Fin 3) (addr : Half)
  /-- DMA_DISABLE (R92). -/
  | dmaDisable (n : Fin 4) (prog : Option (Desc × List Byte)) (moved : Nat)
  /-- DMA_RESUME (R93). -/
  | dmaResume (n : Fin 4) (data : Half)
  /-- HOST_ERR_CLR (R93). -/
  | hostErrClr
  /-- HOST_STALL_CLR (R93). -/
  | hostStallClr
  /-- EVENT_OCCURRENCE (R96). -/
  | eventOccurrence (n : Fin 64)
  /-- EVT_PEND_CLEAR (R96). -/
  | evtPendClear (mask : Half)
  /-- EVT_EN_WRITE (R96). -/
  | evtEnWrite (data : Half)
  /-- EVT_SET (R95). -/
  | evtSet (mask : Half)
  /-- MSIX_UNMASK (R97). -/
  | msixUnmask (v : Fin 64)
  /-- LT_CAPTURE (R103). -/
  | ltCapture
  /-- TIME_STEP (R106). -/
  | timeStep
  /-- TIME_SLEW (R106). -/
  | timeSlew
  /-- TIME_SET (R106). -/
  | timeSet
  /-- SLEW_END (R106). -/
  | slewEnd
  /-- AXIS_SRC_WRITE (R606). -/
  | axisSrcWrite (n : Fin 16) (data : Half)
  /-- AXIS_RESTART (R111). -/
  | axisRestart (n : Fin 16) (data : Half)
  /-- AXIS_SAMPLE (R119). -/
  | axisSample (n : Fin 16)
  /-- ENCODER_EDGE (R114). -/
  | encoderEdge (e : Fin 4) (a b : Bool) (dt : Nat)
  /-- INDEX_PULSE (R115). -/
  | indexPulse (e : Fin 4) (dt : Nat)
  /-- SSI_FRAME_DONE (R116). -/
  | ssiFrameDone (n : Fin 16) (bits : BitVec 40) (par err high : Bool)
  /-- MAINS_ZERO_CROSSING (R117). -/
  | mainsZeroCrossing (dt : Nat)
  /-- ENC_STAT_CLR (R118). -/
  | encStatClr (e : Fin 4)
  /-- AXIS_FAULTS_CLR (R129). -/
  | axisFaultsClr (n : Fin 16)
  /-- KNOT_ARM (R113). -/
  | knotArm (n : Fin 16)
  /-- KNOT_EFFECT (R113). -/
  | knotEffect (n : Fin 16)
  /-- AXIS_CAPTURE (R129). -/
  | axisCapture (n : Fin 16)
  /-- HOST_P2T_GO (R128). -/
  | hostP2tGo (n : Fin 16) (data : Half)
  /-- HOST_P2T_DONE (R128). -/
  | hostP2tDone (n : Fin 16)
  /-- WAIT_RECOMPUTE (R127). -/
  | waitRecompute
  /-- AONTRIM_WINDOW (R131). -/
  | aontrimWindow (ticks : Nat)
  /-- NOP (R147). -/
  | nop (e : Fin 16) (f : FormA) (u : Upset)
  /-- HALT (R147). -/
  | halt (e : Fin 16) (f : FormA) (u : Upset)
  /-- CALSLOT (R32). -/
  | calslot (e : Fin 16) (f : FormA) (u : Upset) (scrub : List (Fin 16 × BitVec 16 × Bool))
  /-- RAISE (R147). -/
  | raise (e : Fin 16) (f : FormB) (u : Upset)
  /-- SIG (R156). -/
  | sig (e : Fin 16) (f : FormB) (u : Upset)
  /-- RDPRF (R164). -/
  | rdprf (e : Fin 16) (f : FormA) (u : Upset)
  /-- ADD (R145). -/
  | addG (e : Fin 16) (f : FormA) (u : Upset)
  /-- SUB (R145). -/
  | subG (e : Fin 16) (f : FormA) (u : Upset)
  /-- ADDS (R147). -/
  | adds (e : Fin 16) (f : FormA) (u : Upset)
  /-- SUBS (R147). -/
  | subs (e : Fin 16) (f : FormA) (u : Upset)
  /-- MUL (R145). -/
  | mulG (e : Fin 16) (f : FormA) (u : Upset)
  /-- MULS (R145). -/
  | muls (e : Fin 16) (f : FormA) (u : Upset)
  /-- MULU (R145). -/
  | mulu (e : Fin 16) (f : FormA) (u : Upset)
  /-- ABS (R147). -/
  | absG (e : Fin 16) (f : FormA) (u : Upset)
  /-- MIN (R147). -/
  | minG (e : Fin 16) (f : FormA) (u : Upset)
  /-- MAX (R147). -/
  | maxG (e : Fin 16) (f : FormA) (u : Upset)
  /-- MINU (R147). -/
  | minu (e : Fin 16) (f : FormA) (u : Upset)
  /-- MAXU (R147). -/
  | maxu (e : Fin 16) (f : FormA) (u : Upset)
  /-- SAT (R147). -/
  | sat (e : Fin 16) (f : FormA) (u : Upset)
  /-- SHL (R147). -/
  | shl (e : Fin 16) (f : FormA) (u : Upset)
  /-- SHR (R147). -/
  | shr (e : Fin 16) (f : FormA) (u : Upset)
  /-- SAR (R147). -/
  | sar (e : Fin 16) (f : FormA) (u : Upset)
  /-- ADDI (R147). -/
  | addi (e : Fin 16) (f : FormB) (u : Upset)
  /-- MOVI (R147). -/
  | movi (e : Fin 16) (f : FormB) (u : Upset)
  /-- LDIH (R147). -/
  | ldih (e : Fin 16) (f : FormB) (u : Upset)
  /-- SHLI (R147). -/
  | shli (e : Fin 16) (f : FormB) (u : Upset)
  /-- SHRI (R147). -/
  | shri (e : Fin 16) (f : FormB) (u : Upset)
  /-- SARI (R147). -/
  | sari (e : Fin 16) (f : FormB) (u : Upset)
  /-- EXT (R147). -/
  | ext (e : Fin 16) (f : FormB) (u : Upset)
  /-- INS (R147). -/
  | ins (e : Fin 16) (f : FormB) (u : Upset)
  /-- AND (R147). -/
  | andG (e : Fin 16) (f : FormA) (u : Upset)
  /-- OR (R147). -/
  | orG (e : Fin 16) (f : FormA) (u : Upset)
  /-- XOR (R147). -/
  | xorG (e : Fin 16) (f : FormA) (u : Upset)
  /-- ANDN (R147). -/
  | andn (e : Fin 16) (f : FormA) (u : Upset)
  /-- CMP (R143). -/
  | cmp (e : Fin 16) (f : FormA) (u : Upset)
  /-- FOP (R143). -/
  | fop (e : Fin 16) (f : FormA) (u : Upset)
  /-- ANDI (R147). -/
  | andi (e : Fin 16) (f : FormB) (u : Upset)
  /-- ORI (R147). -/
  | ori (e : Fin 16) (f : FormB) (u : Upset)
  /-- XORI (R147). -/
  | xori (e : Fin 16) (f : FormB) (u : Upset)
  /-- CMPI (R143). -/
  | cmpi (e : Fin 16) (f : FormB) (u : Upset)
  /-- LD (R147). -/
  | ld (e : Fin 16) (f : FormB) (u : Upset)
  /-- ST (R147). -/
  | st (e : Fin 16) (f : FormB) (u : Upset)
  /-- BR (R148). -/
  | br (e : Fin 16) (f : FormC) (u : Upset)
  /-- CALL (R148). -/
  | callG (e : Fin 16) (f : FormC) (u : Upset)
  /-- RET (R148). -/
  | ret (e : Fin 16) (f : FormC) (u : Upset)
  /-- LOOP (R148). -/
  | loopG (e : Fin 16) (f : FormC) (u : Upset)
  /-- RDLT (R153). -/
  | rdlt (e : Fin 16) (f : FormA) (u : Upset)
  /-- RDPOS (R124). -/
  | rdpos (e : Fin 16) (f : FormA) (u : Upset)
  /-- P2T (R125). -/
  | p2t (e : Fin 16) (f : FormA) (u : Upset)
  /-- WAITT (R151). -/
  | waitt (e : Fin 16) (f : FormC) (u : Upset)
  /-- WAITT_RELEASE (R151). -/
  | waittRelease (e : Fin 16)
  /-- WAITL (R152). -/
  | waitl (e : Fin 16) (f : FormC) (u : Upset)
  /-- WAITL_RELEASE (R127). -/
  | waitlRelease (e : Fin 16)
  /-- CAMQ (R155). -/
  | camq (e : Fin 16) (f : FormD) (u : Upset)
  /-- CAMW (R155). -/
  | camw (e : Fin 16) (f : FormC) (u : Upset)
  /-- CAMW_RELEASE (R155). -/
  | camwRelease (e : Fin 16)
  /-- WAITS (R156). -/
  | waits (e : Fin 16) (f : FormC) (u : Upset)
  /-- WAITS_RELEASE (R156). -/
  | waitsRelease (e : Fin 16)
  /-- BAR (R157). -/
  | bar (e : Fin 16) (f : FormC) (u : Upset)
  /-- BAR_RELEASE (R157). -/
  | barRelease (e : Fin 16)
  /-- WAIT_TIMEOUT (R149). -/
  | waitTimeout (e : Fin 16)
  /-- EMIT (R158). -/
  | emit (e : Fin 16) (f : FormD) (u : Upset)
  /-- PATCH (R159). -/
  | patch (e : Fin 16) (f : FormD) (u : Upset)
  /-- GATE (R161). -/
  | gate (e : Fin 16) (f : FormD) (u : Upset)
  /-- SNAP (R162). -/
  | snap (e : Fin 16) (f : FormD) (u : Upset)
  /-- CFGR (R163). -/
  | cfgr (e : Fin 16) (f : FormB) (u : Upset)
  /-- CFGW (R163). -/
  | cfgw (e : Fin 16) (f : FormB) (u : Upset)
  /-- EMISSION_PATH_MOVE (R158). -/
  | emissionPathMove (e : Fin 16)
  /-- ENGINE_LOAD (R187). -/
  | engineLoad (n : Fin 16) (en : Bool)
  /-- LOAD_COMPLETE (R187). -/
  | loadComplete (n : Fin 16) (ups : List (Nat × Bool)) (dt : Nat)
  /-- ENGINE_START (R179). -/
  | engineStart (n : Fin 16) (en : Bool)
  /-- ENGINE_START_EFFECT (R175). -/
  | engineStartEffect (n : Fin 16)
  /-- ENGINE_DISABLE (R190). -/
  | engineDisable (n : Fin 16)
  /-- SPARE_DESIGNATE (R172). -/
  | spareDesignate (en : Bool)
  /-- ENGINE_RETIRE_CLEAR (R194). -/
  | engineRetireClear (n : Fin 16)
  /-- DDATA_CAPTURE (R173). -/
  | ddataCapture (n : Fin 16) (data : Half)
  /-- DDATA_WRITE (R173). -/
  | ddataWrite (n : Fin 16) (hi : Bool) (data : Half)
  /-- GAL_HDISC_CLR (R171). -/
  | galHdiscClr (n : Fin 16)
  /-- GAL_RCODE_CLR (R171). -/
  | galRcodeClr (n : Fin 16)
  /-- GAL_SLACK_CLR (R171). -/
  | galSlackClr (n : Fin 16)
  /-- BATCH_DISPATCH (R208). -/
  | batchDispatch (chk : List Nat) (ups : List (Nat × Bool))
  /-- SEGMENT_FETCH_DONE (R211). -/
  | segmentFetchDone (ups : List (Nat × Bool))
  /-- BATCH_COMPLETE (R211). -/
  | batchComplete
  /-- SEEK_DONE (R205). -/
  | seekDone (ups : List (Nat × Bool))
  /-- FLOWSTONE_DISABLE (R221). -/
  | flowstoneDisable
  /-- SWITCH_GO (R216). -/
  | switchGo (data : Half)
  /-- RECORD_WRITE (R216). -/
  | recordWrite (win : Fin 17) (reg : Fin 5) (hi : Bool) (data : Half)
  /-- CELL_RETIRE_CLEAR (R218). -/
  | cellRetireClear (mask : BitVec 8)
  /-- RING_FRAME_SEND (R231). -/
  | ringFrameSend (n : Fin 32) (ups : List CellUpset)
  /-- RING_FRAME_RETURN (R234). -/
  | ringFrameReturn (n : Fin 32) (peer : Bool) (f : WireFrame) (dt : Nat)
  /-- MAILBOX_UP (R258). -/
  | mailboxUp (n : Fin 32) (peer : Bool) (bytes : List Byte) (dt : Nat)
  /-- MAILBOX_DOWN_SEND (R259). -/
  | mailboxDownSend (n : Fin 32) (ups : List CellUpset)
  /-- MAILBOX_ECHO (R259). -/
  | mailboxEcho (n : Fin 32) (peer : Bool) (bytes : List Byte) (dt : Nat)
  /-- EPT_SWAP (R248). -/
  | eptSwap
  /-- EPT_COPY_DONE (R248). -/
  | eptCopyDone
  /-- EPT_WRITE (R249). -/
  | eptWrite (data : Half)
  /-- EPT_READ (R249). -/
  | eptRead (data : Half)
  /-- RING_SCAN (R261). -/
  | ringScan (n : Fin 32) (data : Half)
  /-- SCAN_FRAME (R261). -/
  | scanFrame (n : Fin 32) (ret : Option ScanRet)
  /-- SCAN_COMPLETE (R261). -/
  | scanComplete (n : Fin 32)
  /-- SCAN_TIMEOUT (R261). -/
  | scanTimeout (n : Fin 32)
  /-- RING_DISABLE (R262). -/
  | ringDisable (n : Fin 32) (data : Half)
  /-- RING_STOP_DONE (R262). -/
  | ringStopDone (n : Fin 32)
  /-- KEEPALIVE_FRAME (R263). -/
  | keepaliveFrame (n : Fin 32)
  /-- WAKE_PATTERN (R264). -/
  | wakePattern (p : Fin 32) (dt : Nat)
  /-- NODE_RETIRE_CLEAR (R266). -/
  | nodeRetireClear (n : Fin 32) (j : Fin 4) (mask : Half)
  /-- WDOG_WRITE (R266). -/
  | wdogWrite (n : Fin 32) (data : Half)
  /-- FRAME_INGRESS (R275). -/
  | frameIngress (unwritable : Bool) (late : Nat)
  /-- FRAME_TRANSMIT (R282). -/
  | frameTransmit (p : Fin 34) (ups : List CellUpset)
  /-- HELD_COPY_ENQUEUE (R278). -/
  | heldCopyEnqueue
  /-- MC_HOLD_EXPIRE (R278). -/
  | mcHoldExpire
  /-- RESEQ_TIMEOUT (R280). -/
  | reseqTimeout (p : Fin 34) (c : Fin 9)
  /-- PORT_DISABLE (R291). -/
  | portDisable (p : Fin 34)
  /-- FDB_AGE (R276). -/
  | fdbAge
  /-- FDB_WRITE (R276). -/
  | fdbWrite
  /-- FDB_DELETE (R276). -/
  | fdbDelete
  /-- FDB_LOOKUP (R276). -/
  | fdbLookup
  /-- VLAN_WRITE (R296). -/
  | vlanWrite
  /-- VLAN_READ (R296). -/
  | vlanRead
  /-- STREAM_WRITE (R296). -/
  | streamWrite
  /-- STREAM_READ (R296). -/
  | streamRead
  /-- SLICE_RETURN (R293). -/
  | sliceReturn (mask : BitVec 4)
  /-- SPARE_ROW_CLEAR (R293). -/
  | spareRowClear (mask : BitVec 4)
  /-- RX_FRAME (R305). -/
  | rxFrame (n : Fin 33) (f : WireFrame) (dt : Nat)
  /-- PAUSE_RECEIVED (R315). -/
  | pauseReceived (n : Fin 33) (quanta : BitVec 16) (dt : Nat)
  /-- PFC_RECEIVED (R315). -/
  | pfcReceived (n : Fin 33) (en : BitVec 8) (times : List (BitVec 16)) (dt : Nat)
  /-- PAUSE_EXPIRE (R315). -/
  | pauseExpire (n : Fin 33)
  /-- PAUSE_RENEW (R314). -/
  | pauseRenew (n : Fin 33)
  /-- LINK_UP (R317). -/
  | linkUp (n : Fin 33) (dt : Nat)
  /-- LINK_DOWN (R317). -/
  | linkDown (n : Fin 33) (why : LinkFault) (dt : Nat)
  /-- MAC_ENABLE (R301). -/
  | macEnable (n : Fin 33)
  /-- MAC_DISABLE (R320). -/
  | macDisable (n : Fin 33) (receiving : Bool)
  /-- TS_POP (R321). -/
  | tsPop (n : Fin 32)
  /-- SIGNAL_DETECT (R333). -/
  | signalDetect (l : Fin 36) (dt : Nat)
  /-- TRAIN_DONE (R340). -/
  | trainDone (l : Fin 36) (foms : List (BitVec 12)) (dt : Nat)
  /-- LOCK_DONE (R333). -/
  | lockDone (l : Fin 36) (dt : Nat)
  /-- DESKEW_DONE (R336). -/
  | deskewDone (l : Fin 36) (skews : List (BitVec 20)) (dt : Nat)
  /-- CAPX_DONE (R338). -/
  | capxDone (l : Fin 36) (m : CapMsg) (dt : Nat)
  /-- STAGE_TIMEOUT (R333). -/
  | stageTimeout (l : Fin 36)
  /-- LANE_LOCK_LOSS (R343). -/
  | laneLockLoss (l : Fin 36) (errs : Nat) (dt : Nat)
  /-- LOSS_OF_SIGNAL (R343). -/
  | lossOfSignal (l : Fin 36) (dt : Nat)
  /-- RETRAIN (R344). -/
  | retrain (l : Fin 36)
  /-- ADAPT_MEASURE (R342). -/
  | adaptMeasure (l : Fin 36) (below at_ above : BitVec 12)
  /-- CAP_MESSAGE_RX (R339). -/
  | capMessageRx (l : Fin 4) (m : CapMsg) (dt : Nat)
  /-- LANE_RETIRE_CLEAR (R347). -/
  | laneRetireClear (l : Fin 36)
  /-- LANE_TEST_GO (R350). -/
  | laneTestGo (l : Fin 36) (data : Half)
  /-- LANE_TEST_DONE (R350). -/
  | laneTestDone (l : Fin 36) (h v : BitVec 6) (errs : BitVec 40) (dt : Nat)
  /-- SSC_WRITE (R348). -/
  | sscWrite (data : Half)
  /-- PTP_MESSAGE_RX (R358). -/
  | ptpMessageRx
  /-- SYNC_SEND (R363). -/
  | syncSend (n : Fin 32) (d : Fin 2)
  /-- DELAY_REQ_SEND (R371). -/
  | delayReqSend (d : Fin 2) (k : Fin 2)
  /-- PDELAY_REQ_SEND (R360). -/
  | pdelayReqSend (n : Fin 32)
  /-- MASTER_TIMEOUT (R372). -/
  | masterTimeout (d : Fin 2) (k : Fin 2)
  /-- STEERING_SWITCH_END (R382). -/
  | steeringSwitchEnd
  /-- LOOPBACK_DONE (R387). -/
  | loopbackDone (n : Fin 32) (mean : BitVec 32) (rms lost : Nat) (dt : Nat)
  /-- FREQ_UPDATE (R398). -/
  | freqUpdate (pps : Bool)
  /-- COMPARISON_EDGE (R401). -/
  | comparisonEdge (k : Fin 8) (stamp phase : Int) (dt : Nat)
  /-- INPUT_ABSENCE (R400). -/
  | inputAbsence (k : Fin 8) (dt : Nat)
  /-- INPUT_RETURN (R400). -/
  | inputReturn (k : Fin 8) (stamp phase : Int) (dt : Nat)
  /-- DROPOUT_EXPIRE (R400). -/
  | dropoutExpire (k : Fin 8)
  /-- INPUT_QUALIFY (R400). -/
  | inputQualify (k : Fin 8)
  /-- SELECTION_EVAL (R404). -/
  | selectionEval
  /-- SWITCH_COMMIT (R405). -/
  | switchCommit
  /-- ACQUIRE_TIMEOUT (R402). -/
  | acquireTimeout
  /-- STAGE_ADVANCE (R403). -/
  | stageAdvance
  /-- HOLDOVER_TIMEOUT (R402). -/
  | holdoverTimeout
  /-- FRTRIM_UPDATE (R410). -/
  | frtrimUpdate
  /-- ALIGN_ANCHOR (R413). -/
  | alignAnchor (src : Fin 6) (dt : Nat)
  /-- ALIGN_LOSS (R413). -/
  | alignLoss (j : Fin 6)
  /-- BAND_SELECT (R430). -/
  | bandSelect (p : Fin 3) (temp : Int) (dt : Nat)
  /-- NOBAND_RETRY (R427). -/
  | nobandRetry (p : Fin 3)
  /-- PLL_LOCK_ACHIEVED (R427). -/
  | pllLockAchieved (p : Fin 3) (dt : Nat)
  /-- PLL_LOCK_TIMEOUT (R427). -/
  | pllLockTimeout (p : Fin 3)
  /-- ALIGN_RELEASE (R429). -/
  | alignRelease (p : Fin 3) (trim : BitVec 8) (dt : Nat)
  /-- PLL_REFLOSS (R427). -/
  | pllRefloss (p : Fin 3) (dt : Nat)
  /-- PLL_UNLOCK (R427). -/
  | pllUnlock (p : Fin 3) (dt : Nat)
  /-- PLL_RELOCK (R440). -/
  | pllRelock
  /-- FULL_RELOCK (R440). -/
  | fullRelock
  /-- HOLD_RECOVER (R436). -/
  | holdRecover (p : Fin 3) (gathered : Int) (dt : Nat)
  /-- PLL_SLEW_END (R435). -/
  | pllSlewEnd
  /-- CLOCK_MONITOR (R438). -/
  | clockMonitor (bad : BitVec 11)
  /-- TIC_START_EDGE (R449). -/
  | ticStartEdge (src : Fin 12) (fall : Bool) (n : BitVec 48) (c : BitVec 12) (dt : Nat)
  /-- TIC_STOP_EDGE (R449). -/
  | ticStopEdge (src : Fin 11) (fall : Bool) (n : BitVec 48) (c : BitVec 12) (dt : Nat)
  /-- TIC_TIMEOUT (R449). -/
  | ticTimeout
  /-- TIC_DISABLE (R452). -/
  | ticDisable
  /-- TIC_POP (R451). -/
  | ticPop
  /-- TIC_STAT_CLR (R458). -/
  | ticStatClr
  /-- OCXO_WARM_CHANGE (R444). -/
  | ocxoWarmChange (warm : Bool) (dt : Nat)
  /-- CAL_JOB_END (R464). -/
  | calJobEnd (r : CalResult) (dt : Nat)
  /-- CAL_AUTO (R463). -/
  | calAuto
  /-- CAL_DISABLE (R466). -/
  | calDisable
  /-- SLICE_TEST_TIMEOUT (R469). -/
  | sliceTestTimeout
  /-- BIST_GO (R470). -/
  | bistGo
  /-- BIST_DONE (R470). -/
  | bistDone (areas : BitVec 8) (chans : List (Fin 8 × Nat)) (dt : Nat)
  /-- SNAP_ARM (R476). -/
  | snapArm
  /-- SNAP_NOW (R476). -/
  | snapNow
  /-- SNAP_CANCEL (R476). -/
  | snapCancel
  /-- SNAP_STROBE (R477). -/
  | snapStrobe
  /-- SNAP_TRANSFER_DONE (R478). -/
  | snapTransferDone
  /-- ROPE_LINK_UP (R500). -/
  | ropeLinkUp (c : RopePeer) (dt : Nat)
  /-- ROPE_BLOCK_RX (R498). -/
  | ropeBlockRx (m : RopeBlock) (dt : Nat)
  /-- IDLE_BLOCK_SEND (R498). -/
  | idleBlockSend
  /-- DIGEST_CLOSE (R511). -/
  | digestClose
  /-- PARTNER_SILENCE (R515). -/
  | partnerSilence
  /-- ROPE_LOSS (R516). -/
  | ropeLoss (dt : Nat)
  /-- ALIVE_SILENCE_SOLO (R496). -/
  | aliveSilenceSolo
  /-- SUPERVISOR_FENCE (R508). -/
  | supervisorFence (silent : Bool) (dt : Nat)
  /-- PAIR_SOLO (R496). -/
  | pairSolo
  /-- PAIR_RESYNC (R496). -/
  | pairResync
  /-- AUTO_RESYNC (R496). -/
  | autoResync
  /-- PAIR_WITHDRAW (R496). -/
  | pairWithdraw
  /-- PAIR_HANDOVER (R520). -/
  | pairHandover
  /-- PAIR_GENRST (R494). -/
  | pairGenrst
  /-- REVERT_REQUEST (R520). -/
  | revertRequest
  /-- BULK_PASS_DONE (R518). -/
  | bulkPassDone (dt : Nat)
  /-- QUIET_TEST (R519). -/
  | quietTest
  /-- RESYNC_TIMEOUT (R519). -/
  | resyncTimeout
  /-- BANK_CHECK (R540). -/
  | bankCheck (k : Fin 1538) (ok : Bool) (dt : Nat)
  /-- WAKE (R534). -/
  | wake (ws : List WakeSrc) (dt : Nat)
  /-- QUAD_IDLE_OFF (R532). -/
  | quadIdleOff (q : Fin 9)
  /-- PWR_FAIL (R542). -/
  | pwrFail (dt : Nat)
  /-- MAINS_RECOVER (R543). -/
  | mainsRecover (dt : Nat)
  /-- SHED (R544). -/
  | shed
  /-- CELL_SWITCHOVER (R545). -/
  | cellSwitchover (dt : Nat)
  /-- THERM (R546). -/
  | therm (die base : BitVec 8) (dt : Nat)
  /-- RETN_CLR (R548). -/
  | retnClr
  /-- KEY_WRITE (R551). -/
  | keyWrite
  /-- KEY_CLEAR (R551). -/
  | keyClear
  /-- MIRROR_REBUILD (R555). -/
  | mirrorRebuild (dt : Nat)
  /-- TAMPER (R556). -/
  | tamper (level : BitVec 7) (dt : Nat)
  /-- SEC_UNLOCK (R557). -/
  | secUnlock
  /-- SOFT_ERASE (R557). -/
  | softErase
  /-- BROWNOUT (R559). -/
  | brownout (dt : Nat)
  /-- LOG_CLR (R560). -/
  | logClr
  /-- FUSE_DONE (R564). -/
  | fuseDone (dt : Nat)
  /-- SMBUS_READ (R574). -/
  | smbusRead (dev : BitVec 7) (off : BitVec 8) (len : BitVec 9)
  /-- MODULE_INSERT (R579). -/
  | moduleInsert (q : Fin 9) (cls : Fin 8) (dt : Nat)
  /-- MODULE_REMOVE (R579). -/
  | moduleRemove (q : Fin 9) (dt : Nat)
  /-- CAGE_OVERCURRENT (R580). -/
  | cageOvercurrent (q : Fin 9) (dt : Nat)
  /-- ENC_SUPPLY_RETRY (R576). -/
  | encSupplyRetry (short : Bool)
  /-- CELL_MEASURE (R582). -/
  | cellMeasure (mv : BitVec 12)
  /-- THERMAL_SHUTDOWN (R585). -/
  | thermalShutdown (die base : BitVec 8) (dt : Nat)
  /-- THERMAL_RESTART (R585). -/
  | thermalRestart (die base : BitVec 8) (dfl fac : Fin 5) (refclk : Bool) (dt : Nat)
  /-- MAINS_ON (R590). -/
  | mainsOn (dfl fac : Fin 5) (sealed : BitVec 2) (refclk : Bool) (dt : Nat)
  /-- RESET_DONE (R596). -/
  | resetDone (dfl fac : Fin 5) (refclk : Bool) (dt : Nat)
  /-- BOOT_UPDATE_DONE (R599). -/
  | bootUpdateDone (dt : Nat)
  /-- HOLDOVER_PREDICTION_UPDATE (R409). -/
  | holdoverPredictionUpdate
  /-- PLL_TUNE_RAIL (R432). -/
  | pllTuneRail (p : Fin 3) (tune : BitVec 10) (dt : Nat)
  /-- PULSE_OUTPUT_EDGE (R415). -/
  | pulseOutputEdge (j : Fin 6)
  deriving DecidableEq, Repr

end Sys2Proof
end

