-- ==== Sys2Proof/Decode.lean ====
section
/-! DEFINITION. Words that spell commands. The rows of the table of operations and events give no
bits, so no word spells a command (log entry 1). The words of the Gallery, which do have an
encoding, are in Machine/Operands.lean. -/

namespace Sys2Proof

/-- The command that a table word spells: none, for the rows of the table give no bits. -/
def decodeTableWord (_nbits _w : Nat) : Option Instr := none

end Sys2Proof
end

