-- ==== Sys2Proof/Machine/Cipher.lean ====
section
/-! DEFINITION. AES-256-GCM, which R21 and R499 name by its standard: the block cipher, its counter mode, and the tag over additional
data and ciphertext. -/

namespace Sys2Proof.Machine

/-! ### The block cipher -/

/-- The substitution of bytes, 32 to a number, the substitute of the lowest byte in its highest bits. -/
def subTable : List (BitVec 256) :=
  [0x637C777BF26B6FC53001672BFED7AB76CA82C97DFA5947F0ADD4A2AF9CA472C0,
   0xB7FD9326363FF7CC34A5E5F171D8311504C723C31896059A071280E2EB27B275,
   0x09832C1A1B6E5AA0523BD6B329E32F8453D100ED20FCB15B6ACBBE394A4C58CF,
   0xD0EFAAFB434D338545F9027F503C9FA851A3408F929D38F5BCB6DA2110FFF3D2,
   0xCD0C13EC5F974417C4A77E3D645D197360814FDC222A908846EEB814DE5E0BDB,
   0xE0323A0A4906245CC2D3AC629195E479E7C8376D8DD54EA96C56F4EA657AAE08,
   0xBA78252E1CA6B4C6E8DD741F4BBD8B8A703EB5664803F60E613557B986C11D9E,
   0xE1F8981169D98E949B1E87E9CE5528DF8CA1890DBFE6426841992D0FB054BB16]

/-- The substitute of a byte. -/
def subByte (x : Byte) : Byte := (subTable.getD (x.toNat / 32) 0).extractLsb' (248 - 8 * (x.toNat % 32)) 8

/-- The double of a byte in the cipher's field. -/
def dbl (x : Byte) : Byte := if x.getLsbD 7 then x <<< 1 ^^^ 0x1B else x <<< 1

/-- Bytes added place by place. -/
def addBytes (l r : List Byte) : List Byte := List.zipWith (· ^^^ ·) l r

/-- The next word of the key schedule, number `i`, from the eight before it; `c` is the constant of its turn. -/
def keyWord (i : Nat) (c : Byte) (w : List (List Byte)) : List Byte :=
  let last := w.getD 7 []
  addBytes (w.getD 0 [])
    (if i % 8 = 0 then addBytes ((last.drop 1 ++ last.take 1).map subByte) [c, 0, 0, 0]
     else if i % 8 = 4 then last.map subByte else last)

/-- The words of the key schedule from number `i` on. -/
def keySchedule : Nat → Nat → Byte → List (List Byte) → List (List Byte)
  | 0, _, _, _ => []
  | n + 1, i, c, w =>
    let x := keyWord i c w
    x :: keySchedule n (i + 1) (if i % 8 = 0 then dbl c else c) (w.drop 1 ++ [x])

/-- Bytes in groups of four. -/
def fours : List Byte → List (List Byte)
  | p :: q :: r :: s :: l => [p, q, r, s] :: fours l
  | _ => []

/-- The fifteen round keys of a key of 32 bytes. -/
def roundKeys (key : List Byte) : List (List Byte) :=
  let w := fours key
  let all := w ++ keySchedule 52 8 1 w
  (List.range 15).map (fun i => ((all.drop (4 * i)).take 4).flatten)

/-- The bytes of a block, substituted and their rows turned: the byte at place `i` comes from place `5 i`. -/
def subTurn (l : List Byte) : List Byte := (List.range 16).map (fun i => subByte (l.getD (5 * i % 16) 0))

/-- The columns of a block mixed. -/
def mixColumn : List Byte → List Byte
  | [p, q, r, s] =>
    let t := p ^^^ q ^^^ r ^^^ s
    [p ^^^ t ^^^ dbl (p ^^^ q), q ^^^ t ^^^ dbl (q ^^^ r), r ^^^ t ^^^ dbl (r ^^^ s), s ^^^ t ^^^ dbl (s ^^^ p)]
  | l => l

/-- The rounds of a list of round keys; the last one mixes no columns. -/
def cipherRounds : List (List Byte) → List Byte → List Byte
  | [], l => l
  | [k], l => addBytes (subTurn l) k
  | k :: ks, l => cipherRounds ks (addBytes ((fours (subTurn l)).flatMap mixColumn) k)

/-- A block of 16 bytes under round keys. -/
def cipherBlock (ks : List (List Byte)) (l : List Byte) : List Byte := cipherRounds (ks.drop 1) (addBytes l (ks.headD []))

/-! ### The mode -/

/-- Sixteen bytes as a number, the first byte highest. -/
def num128 (l : List Byte) : BitVec 128 := l.foldl (fun n x => n <<< 8 ||| x.setWidth 128) 0

/-- A number as sixteen bytes. -/
def bytes128 (x : BitVec 128) : List Byte := (List.range 16).map (fun i => x.extractLsb' (120 - 8 * i) 8)

/-- The product in the field of the tag: bit `i` counted from the highest of `x` adds `y` divided `i` times. -/
def tagMul (x y : BitVec 128) : BitVec 128 :=
  ((List.range 128).foldl (fun (a : BitVec 128 × BitVec 128) i =>
    (if x.getLsbD (127 - i) then a.1 ^^^ a.2 else a.1,
      if a.2.getLsbD 0 then a.2 >>> 1 ^^^ (0xE1 : BitVec 128) <<< 120 else a.2 >>> 1)) (0, y)).1

/-- Bytes as numbers of 128 bits, the last one filled with zeros. -/
def blocks128 : Nat → List Byte → List (BitVec 128)
  | 0, _ => []
  | n + 1, l => num128 ((l ++ List.replicate (16 - l.length) 0).take 16) :: blocks128 n (l.drop 16)

/-- All the blocks of bytes. -/
def blocks16 (l : List Byte) : List (BitVec 128) := blocks128 ((l.length + 15) / 16) l

/-- The hash of the tag over additional data and ciphertext. -/
def tagHash (h : BitVec 128) (aad cipher : List Byte) : BitVec 128 :=
  (blocks16 aad ++ blocks16 cipher ++ [BitVec.ofNat 64 (8 * aad.length) ++ BitVec.ofNat 64 (8 * cipher.length)]).foldl
    (fun y x => tagMul (y ^^^ x) h) 0

/-- The key stream of `n` blocks, from counter `c` on, for a nonce of 96 bits. -/
def keyStream (ks : List (List Byte)) (nonce : BitVec 96) : Nat → Nat → List Byte
  | 0, _ => []
  | n + 1, c => cipherBlock ks (bytes128 (nonce ++ BitVec.ofNat 32 c)) ++ keyStream ks nonce n (c + 1)

/-- Encryption, and decryption, of a payload. -/
def gcmCrypt (key : List Byte) (nonce : BitVec 96) (l : List Byte) : List Byte :=
  addBytes l (keyStream (roundKeys key) nonce ((l.length + 15) / 16) 2)

/-- The tag of a ciphertext with additional data. -/
def gcmTag (key : List Byte) (nonce : BitVec 96) (aad cipher : List Byte) : BitVec 128 :=
  let ks := roundKeys key
  tagHash (num128 (cipherBlock ks (List.replicate 16 0))) aad cipher ^^^ num128 (keyStream ks nonce 1 1)

end Sys2Proof.Machine
end

