-- ==== Sys2Proof/Config.lean ====
section
/-! DEFINITION. What one module or implementation fixes, and the free values of the model.
Each constant is opaque: it has no body that a proof could use, so a statement about it holds
whatever its value is (log entry 3). -/

namespace Sys2Proof.Config

/-- Ordering-code variant of this module, SYS_IDENT.VAR (R4, R59). -/
opaque variant : BitVec 2
/-- Silicon stepping, SYS_IDENT.SIL (R59). -/
opaque stepping : BitVec 4
/-- Build level, SYS_IDENT.MOD (R59). -/
opaque buildLevel : BitVec 8
/-- Serial number, SYS_SERIAL (R59). -/
opaque serial : BitVec 64
/-- Running supervisor image version, SYS_FWVER (R59). -/
opaque fwVersion : BitVec 32
/-- Factory values: the reset value of the field whose register lies at BAR0 offset `addr`
and whose lowest bit is `lo`, where the register tables say Factory, Fuses, Kept or Start-up. -/
opaque factory (addr lo : Nat) : Nat
/-- Where configuration space holds the power-management state and the device control of the max payload: Table 2-1
names the functions and no place. -/
opaque pciPower : Nat
opaque pciDevice : Nat
/-- A double word of configuration space that Table 2-1 gives no value. -/
opaque pciOther (off : Nat) : BitVec 32
/-- The 48-bit module base address behind MACn_ADDR (Table 9-4). -/
opaque macBase : BitVec 48
/-- A free value: the spec gives the effect but not this value. The step applies it to a
counter of State that it advances. -/
opaque freeValue (n : Nat) : Word
/-- A free natural number below `bound` + 1, taken from `freeValue`. -/
def freeNat (n bound : Nat) : Nat := (freeValue n).toNat % (bound + 1)

/-- Where a slice looks for a free cell for cell number `i` of stored frame `id`: any free cell may be taken (R271). -/
opaque cellPick (id i : Nat) : Nat
/-- The FDB bucket of an address and VID: the spec gives four ways and no hash (R276). -/
opaque fdbBucket (mac vid : Nat) : Nat
/-- The calibrated receive delay of an equaliser step of a lane, in ps (Table 11-1). -/
opaque eqDelay (lane step : Nat) : Nat
/-- The IP and UDP headers before a PTP message of a port: the spec gives the destination group and the
UDP port only (R361). -/
opaque ipHeaders (port : Nat) (v6 : Bool) (udpPort length : Nat) : List (BitVec 8)
/-- The gains of a domain servo: the rate that bandwidth code, offset in 2^-16 ns and integrator give at
a Sync interval, and the integrator after it (R375 gives the shape of the loop and no formula). -/
opaque servoStep (bw : Nat) (l1s : Bool) (ofs integ : Int) : Int × Int
/-- The two bytes in which a digest takes the port, class and SCH of a frame (R511 gives their length only). -/
opaque digestHead (port cls : Nat) (sch : Bool) : List (BitVec 8)
/-- The bytes in which a digest takes a GATE: mask, OPEN, tick offset (R511 names the items only). -/
opaque digestGate (mask : Nat) (opn : Bool) (tick : Nat) : List (BitVec 8)
/-- The bytes in which a digest takes a result: record index, RES0, RES1 (R511 names the items only). -/
opaque digestResult (record : Nat) (r0 r1 : Word) : List (BitVec 8)
/-- The Compass loop of R403: from its bandwidth in units of 10^-6 Hz, the phase error in femtoseconds and the
integrator, the output frequency in 2^-40 and the integrator after it (R403 gives order, damping and
bandwidth, and no gains). -/
opaque loopStep (bandwidth : Nat) (phase integ : Int) : Int × Int
/-- Every pair that a mode of an encoder channel uses shows a valid level: the wiring of X2 (R576). -/
opaque encWired (channel mode : Nat) : Bool
/-- The bytes of a block's content on the Rope before encryption, where the spec names items only (R498, R502): those of the
block of a kind with a number in a session. -/
opaque ropeBytes (kind session seq : Nat) : List (BitVec 8)

end Sys2Proof.Config
end

