-- ==== Sys2Proof/Machine/Fields.lean ====
section
/-! DEFINITION. Where each field of the register tables of the spec lies: the BAR0 offset of
its register (R58), its lowest bit and its width (R16). Indexed registers take their indices
in the order in which the register name gives them. -/

namespace Sys2Proof.Machine

/-- A register field: BAR0 offset of its register, lowest bit, width. -/
structure Field where
  addr : Nat
  lo : Nat
  w : Nat
  deriving DecidableEq, Repr

/-- SYS_CYCLE at SYS offset. -/
abbrev SYS_CYCLE : Nat := 0x100
abbrev SYS_CYCLE_PERIOD : Field := ⟨SYS_CYCLE, 0, 12⟩
abbrev SYS_CYCLE_PHASE : Field := ⟨SYS_CYCLE, 12, 12⟩
abbrev SYS_CYCLE_ARM : Field := ⟨SYS_CYCLE, 24, 1⟩
abbrev SYS_CYCLE_RUN : Field := ⟨SYS_CYCLE, 25, 1⟩
abbrev SYS_CYCLE_TRANS : Field := ⟨SYS_CYCLE, 26, 1⟩
abbrev SYS_CYCLE_PERIN : Field := ⟨SYS_CYCLE, 27, 12⟩
abbrev SYS_CYCLE_PHIN : Field := ⟨SYS_CYCLE, 39, 12⟩
/-- SYS_MSLOT at SYS offset. -/
abbrev SYS_MSLOT : Nat := 0x110
abbrev SYS_MSLOT_LEN : Field := ⟨SYS_MSLOT, 0, 8⟩
abbrev SYS_MSLOT_ENG : Field := ⟨SYS_MSLOT, 8, 4⟩
abbrev SYS_MSLOT_LATEST : Field := ⟨SYS_MSLOT, 12, 12⟩
abbrev SYS_MSLOT_CLAMP : Field := ⟨SYS_MSLOT, 24, 1⟩
abbrev SYS_MSLOT_LENF : Field := ⟨SYS_MSLOT, 25, 8⟩
abbrev SYS_MSLOT_LATF : Field := ⟨SYS_MSLOT, 33, 12⟩
/-- SYS_LWM_CTL at SYS offset. -/
abbrev SYS_LWM_CTL : Nat := 0x200
abbrev SYS_LWM_CTL_CLR : Field := ⟨SYS_LWM_CTL, 0, 1⟩
/-- SYS_LWM_GAL at SYS offset. -/
abbrev SYS_LWM_GAL (i0 : Nat) : Nat := 0x210 + 0x10 * i0
abbrev SYS_LWM_GAL_MIN (i0 : Nat) : Field := ⟨(SYS_LWM_GAL i0), 0, 22⟩
abbrev SYS_LWM_GAL_OVR (i0 : Nat) : Field := ⟨(SYS_LWM_GAL i0), 22, 1⟩
/-- SYS_LWM_FLW at SYS offset. -/
abbrev SYS_LWM_FLW : Nat := 0x310
abbrev SYS_LWM_FLW_MIN : Field := ⟨SYS_LWM_FLW, 0, 22⟩
/-- SYS_LWM_RING at SYS offset. -/
abbrev SYS_LWM_RING : Nat := 0x320
abbrev SYS_LWM_RING_MIN : Field := ⟨SYS_LWM_RING, 0, 24⟩
abbrev SYS_LWM_RING_RING : Field := ⟨SYS_LWM_RING, 24, 5⟩
/-- SYS_LWM_CELL at SYS offset. -/
abbrev SYS_LWM_CELL : Nat := 0x330
abbrev SYS_LWM_CELL_MIN : Field := ⟨SYS_LWM_CELL, 0, 16⟩
/-- SYS_LWM_SLOT at SYS offset. -/
abbrev SYS_LWM_SLOT : Nat := 0x340
abbrev SYS_LWM_SLOT_MIN : Field := ⟨SYS_LWM_SLOT, 0, 16⟩
/-- SYS_PROFILE at SYS offset. -/
abbrev SYS_PROFILE : Nat := 0x120
abbrev SYS_PROFILE_SEL : Field := ⟨SYS_PROFILE, 0, 2⟩
abbrev SYS_PROFILE_GO : Field := ⟨SYS_PROFILE, 2, 1⟩
abbrev SYS_PROFILE_ACT : Field := ⟨SYS_PROFILE, 4, 2⟩
abbrev SYS_PROFILE_STAT : Field := ⟨SYS_PROFILE, 8, 3⟩
/-- SYS_STRIKES at SYS offset. -/
abbrev SYS_STRIKES (i0 : Nat) : Nat := 0x400 + 0x10 * i0
abbrev SYS_STRIKES_THRESH (i0 : Nat) : Field := ⟨(SYS_STRIKES i0), 0, 4⟩
abbrev SYS_STRIKES_WINDOW (i0 : Nat) : Field := ⟨(SYS_STRIKES i0), 4, 20⟩
abbrev SYS_STRIKES_UNIT (i0 : Nat) : Field := ⟨(SYS_STRIKES i0), 24, 1⟩
/-- SYS_IDENT at SYS offset. -/
abbrev SYS_IDENT : Nat := 0x0
abbrev SYS_IDENT_PART : Field := ⟨SYS_IDENT, 0, 16⟩
abbrev SYS_IDENT_VAR : Field := ⟨SYS_IDENT, 16, 2⟩
abbrev SYS_IDENT_SIL : Field := ⟨SYS_IDENT, 20, 4⟩
abbrev SYS_IDENT_MOD : Field := ⟨SYS_IDENT, 24, 8⟩
/-- SYS_SERIAL at SYS offset. -/
abbrev SYS_SERIAL : Nat := 0x10
abbrev SYS_SERIAL_SERIAL : Field := ⟨SYS_SERIAL, 0, 64⟩
/-- SYS_FWVER at SYS offset. -/
abbrev SYS_FWVER : Nat := 0x20
abbrev SYS_FWVER_MINOR : Field := ⟨SYS_FWVER, 0, 16⟩
abbrev SYS_FWVER_MAJOR : Field := ⟨SYS_FWVER, 16, 16⟩
/-- HOST_WIN at HOST offset. -/
abbrev HOST_WIN : Nat := 0x420000
abbrev HOST_WIN_BASE : Field := ⟨HOST_WIN, 0, 13⟩
/-- HOST_CAVBW at HOST offset. -/
abbrev HOST_CAVBW : Nat := 0x420010
abbrev HOST_CAVBW_SHARE : Field := ⟨HOST_CAVBW, 0, 4⟩
/-- HOST_ERRCAUSE at HOST offset. -/
abbrev HOST_ERRCAUSE : Nat := 0x420020
abbrev HOST_ERRCAUSE_CODE : Field := ⟨HOST_ERRCAUSE, 0, 4⟩
abbrev HOST_ERRCAUSE_CNT : Field := ⟨HOST_ERRCAUSE, 8, 8⟩
abbrev HOST_ERRCAUSE_CLR : Field := ⟨HOST_ERRCAUSE, 16, 1⟩
/-- HOST_ERRADDR at HOST offset. -/
abbrev HOST_ERRADDR : Nat := 0x420030
abbrev HOST_ERRADDR_ADDR : Field := ⟨HOST_ERRADDR, 0, 64⟩
/-- HOST_JSTAT at HOST offset. -/
abbrev HOST_JSTAT : Nat := 0x420040
abbrev HOST_JSTAT_PEND : Field := ⟨HOST_JSTAT, 0, 9⟩
/-- HOST_STALL at HOST offset. -/
abbrev HOST_STALL : Nat := 0x420050
abbrev HOST_STALL_MAX : Field := ⟨HOST_STALL, 0, 18⟩
abbrev HOST_STALL_CLR : Field := ⟨HOST_STALL, 18, 1⟩
/-- HOST_DBCAUSE at HOST offset. -/
abbrev HOST_DBCAUSE : Nat := 0x420060
abbrev HOST_DBCAUSE_DMA : Field := ⟨HOST_DBCAUSE, 0, 4⟩
/-- HOST_CTO at HOST offset. -/
abbrev HOST_CTO : Nat := 0x420070
abbrev HOST_CTO_MS : Field := ⟨HOST_CTO, 0, 4⟩
/-- DMA_CTL at HOST offset. -/
abbrev DMA_CTL (i0 : Nat) : Nat := 0x421000 + 0x100 * i0
abbrev DMA_CTL_EN (i0 : Nat) : Field := ⟨(DMA_CTL i0), 0, 1⟩
abbrev DMA_CTL_HALT (i0 : Nat) : Field := ⟨(DMA_CTL i0), 1, 1⟩
abbrev DMA_CTL_ERR (i0 : Nat) : Field := ⟨(DMA_CTL i0), 4, 4⟩
abbrev DMA_CTL_RESUME (i0 : Nat) : Field := ⟨(DMA_CTL i0), 8, 1⟩
/-- DMA_BASE at HOST offset. -/
abbrev DMA_BASE (i0 : Nat) : Nat := 0x421010 + 0x100 * i0
abbrev DMA_BASE_ADDR (i0 : Nat) : Field := ⟨(DMA_BASE i0), 12, 52⟩
/-- DMA_SIZE at HOST offset. -/
abbrev DMA_SIZE (i0 : Nat) : Nat := 0x421020 + 0x100 * i0
abbrev DMA_SIZE_LOG2 (i0 : Nat) : Field := ⟨(DMA_SIZE i0), 0, 5⟩
/-- DMA_TAIL at HOST offset. -/
abbrev DMA_TAIL (i0 : Nat) : Nat := 0x421030 + 0x100 * i0
abbrev DMA_TAIL_TAIL (i0 : Nat) : Field := ⟨(DMA_TAIL i0), 0, 16⟩
/-- DMA_HEAD at HOST offset. -/
abbrev DMA_HEAD (i0 : Nat) : Nat := 0x421040 + 0x100 * i0
abbrev DMA_HEAD_HEAD (i0 : Nat) : Field := ⟨(DMA_HEAD i0), 0, 16⟩
/-- EVT_PEND at EVT offset. -/
abbrev EVT_PEND : Nat := 0x10000
abbrev EVT_PEND_PEND : Field := ⟨EVT_PEND, 0, 64⟩
/-- EVT_EN at EVT offset. -/
abbrev EVT_EN : Nat := 0x10010
abbrev EVT_EN_EN : Field := ⟨EVT_EN, 0, 64⟩
/-- EVT_PIN at EVT offset. -/
abbrev EVT_PIN : Nat := 0x10020
abbrev EVT_PIN_PIN : Field := ⟨EVT_PIN, 0, 64⟩
/-- EVT_OVR at EVT offset. -/
abbrev EVT_OVR : Nat := 0x10030
abbrev EVT_OVR_OVR : Field := ⟨EVT_OVR, 0, 64⟩
/-- EVT_SET at EVT offset. -/
abbrev EVT_SET : Nat := 0x10040
abbrev EVT_SET_SET : Field := ⟨EVT_SET, 0, 64⟩
/-- EVT_CTL at EVT offset. -/
abbrev EVT_CTL : Nat := 0x10050
abbrev EVT_CTL_PINEN : Field := ⟨EVT_CTL, 0, 1⟩
/-- LAN_TCTL at LAN offset. -/
abbrev LAN_TCTL : Nat := 0x50000
abbrev LAN_TCTL_DOM : Field := ⟨LAN_TCTL, 0, 4⟩
/-- LAN_STAT at LAN offset. -/
abbrev LAN_STAT : Nat := 0x50010
abbrev LAN_STAT_DOM : Field := ⟨LAN_STAT, 0, 4⟩
abbrev LAN_STAT_QUAL : Field := ⟨LAN_STAT, 4, 4⟩
abbrev LAN_STAT_SLEW : Field := ⟨LAN_STAT, 8, 1⟩
/-- LAN_QCAUSE at LAN offset. -/
abbrev LAN_QCAUSE : Nat := 0x50020
abbrev LAN_QCAUSE_OLDQ : Field := ⟨LAN_QCAUSE, 0, 4⟩
abbrev LAN_QCAUSE_NEWQ : Field := ⟨LAN_QCAUSE, 4, 4⟩
abbrev LAN_QCAUSE_QCHG : Field := ⟨LAN_QCAUSE, 8, 1⟩
abbrev LAN_QCAUSE_AXCHG : Field := ⟨LAN_QCAUSE, 9, 16⟩
/-- LAN_RATE at LAN offset. -/
abbrev LAN_RATE : Nat := 0x50030
abbrev LAN_RATE_RATE : Field := ⟨LAN_RATE, 0, 32⟩
/-- LAN_ADJ at LAN offset. -/
abbrev LAN_ADJ : Nat := 0x50040
abbrev LAN_ADJ_OFFSET : Field := ⟨LAN_ADJ, 0, 64⟩
abbrev LAN_ADJ_MODE : Field := ⟨LAN_ADJ, 64, 2⟩
abbrev LAN_ADJ_ARM : Field := ⟨LAN_ADJ, 66, 1⟩
abbrev LAN_ADJ_BUSY : Field := ⟨LAN_ADJ, 67, 1⟩
abbrev LAN_ADJ_REFUSED : Field := ⟨LAN_ADJ, 68, 1⟩
/-- LAN_SLEW at LAN offset. -/
abbrev LAN_SLEW : Nat := 0x50050
abbrev LAN_SLEW_MAX : Field := ⟨LAN_SLEW, 0, 8⟩
/-- LAN_SETLT at LAN offset. -/
abbrev LAN_SETLT : Nat := 0x50080
abbrev LAN_SETLT_SEC : Field := ⟨LAN_SETLT, 8, 64⟩
abbrev LAN_SETLT_QUAL : Field := ⟨LAN_SETLT, 4, 4⟩
abbrev LAN_SETLT_DOM : Field := ⟨LAN_SETLT, 0, 4⟩
/-- LAN_SETLTL at LAN offset. -/
abbrev LAN_SETLTL : Nat := 0x50090
abbrev LAN_SETLTL_NS : Field := ⟨LAN_SETLTL, 42, 30⟩
abbrev LAN_SETLTL_FRAC : Field := ⟨LAN_SETLTL, 26, 16⟩
/-- LAN_CAP at LAN offset. -/
abbrev LAN_CAP : Nat := 0x500a0
abbrev LAN_CAP_NOW : Field := ⟨LAN_CAP, 0, 1⟩
abbrev LAN_CAP_SEQ : Field := ⟨LAN_CAP, 16, 16⟩
/-- LAN_CAPLT at LAN offset. -/
abbrev LAN_CAPLT : Nat := 0x500c0
abbrev LAN_CAPLT_SEC : Field := ⟨LAN_CAPLT, 8, 64⟩
abbrev LAN_CAPLT_QUAL : Field := ⟨LAN_CAPLT, 4, 4⟩
abbrev LAN_CAPLT_DOM : Field := ⟨LAN_CAPLT, 0, 4⟩
/-- LAN_CAPLTL at LAN offset. -/
abbrev LAN_CAPLTL : Nat := 0x500d0
abbrev LAN_CAPLTL_NS : Field := ⟨LAN_CAPLTL, 42, 30⟩
abbrev LAN_CAPLTL_FRAC : Field := ⟨LAN_CAPLTL, 26, 16⟩
/-- LAN_CAPSTW at LAN offset. -/
abbrev LAN_CAPSTW : Nat := 0x500e0
abbrev LAN_CAPSTW_STW : Field := ⟨LAN_CAPSTW, 0, 72⟩
/-- LAN_STEPM at LAN offset. -/
abbrev LAN_STEPM : Nat := 0x500f0
abbrev LAN_STEPM_STEP : Field := ⟨LAN_STEPM, 0, 32⟩
abbrev LAN_STEPM_CNT : Field := ⟨LAN_STEPM, 32, 16⟩
/-- LAN_EST_UNC at LAN offset. -/
abbrev LAN_EST_UNC : Nat := 0x50100
abbrev LAN_EST_UNC_UNC : Field := ⟨LAN_EST_UNC, 0, 48⟩
abbrev LAN_EST_UNC_VALID : Field := ⟨LAN_EST_UNC, 48, 1⟩
/-- LAN_AONTRIM at LAN offset. -/
abbrev LAN_AONTRIM : Nat := 0x50110
abbrev LAN_AONTRIM_TRIM : Field := ⟨LAN_AONTRIM, 0, 32⟩
abbrev LAN_AONTRIM_VALID : Field := ⟨LAN_AONTRIM, 32, 1⟩
/-- ENC_CFG at IO offset. -/
abbrev ENC_CFG (i0 : Nat) : Nat := 0x80000 + 0x100 * i0
abbrev ENC_CFG_MODE (i0 : Nat) : Field := ⟨(ENC_CFG i0), 0, 2⟩
abbrev ENC_CFG_GLITCH (i0 : Nat) : Field := ⟨(ENC_CFG i0), 2, 4⟩
/-- ENC_SSI at IO offset. -/
abbrev ENC_SSI (i0 : Nat) : Nat := 0x80010 + 0x100 * i0
abbrev ENC_SSI_BITS (i0 : Nat) : Field := ⟨(ENC_SSI i0), 0, 6⟩
abbrev ENC_SSI_CLK (i0 : Nat) : Field := ⟨(ENC_SSI i0), 6, 2⟩
abbrev ENC_SSI_GRAY (i0 : Nat) : Field := ⟨(ENC_SSI i0), 8, 1⟩
abbrev ENC_SSI_PAR (i0 : Nat) : Field := ⟨(ENC_SSI i0), 9, 1⟩
abbrev ENC_SSI_ERRB (i0 : Nat) : Field := ⟨(ENC_SSI i0), 10, 1⟩
abbrev ENC_SSI_MONO (i0 : Nat) : Field := ⟨(ENC_SSI i0), 11, 8⟩
/-- ENC_SDLY at IO offset. -/
abbrev ENC_SDLY (i0 : Nat) : Nat := 0x80020 + 0x100 * i0
abbrev ENC_SDLY_DLY (i0 : Nat) : Field := ⟨(ENC_SDLY i0), 0, 16⟩
/-- ENC_STAT at IO offset. -/
abbrev ENC_STAT (i0 : Nat) : Nat := 0x80030 + 0x100 * i0
abbrev ENC_STAT_LINE (i0 : Nat) : Field := ⟨(ENC_STAT i0), 0, 1⟩
abbrev ENC_STAT_ILLEGAL (i0 : Nat) : Field := ⟨(ENC_STAT i0), 8, 8⟩
abbrev ENC_STAT_SSIERR (i0 : Nat) : Field := ⟨(ENC_STAT i0), 16, 8⟩
abbrev ENC_STAT_CLR (i0 : Nat) : Field := ⟨(ENC_STAT i0), 24, 1⟩
/-- LAN_AXCFG at LAN offset. -/
abbrev LAN_AXCFG (i0 : Nat) : Nat := 0x51000 + 0x200 * i0
abbrev LAN_AXCFG_SRC (i0 : Nat) : Field := ⟨(LAN_AXCFG i0), 0, 3⟩
abbrev LAN_AXCFG_ENC (i0 : Nat) : Field := ⟨(LAN_AXCFG i0), 3, 2⟩
abbrev LAN_AXCFG_TS (i0 : Nat) : Field := ⟨(LAN_AXCFG i0), 5, 4⟩
abbrev LAN_AXCFG_GAIN (i0 : Nat) : Field := ⟨(LAN_AXCFG i0), 9, 2⟩
abbrev LAN_AXCFG_COAST (i0 : Nat) : Field := ⟨(LAN_AXCFG i0), 11, 4⟩
abbrev LAN_AXCFG_DIR (i0 : Nat) : Field := ⟨(LAN_AXCFG i0), 15, 1⟩
abbrev LAN_AXCFG_ZREF (i0 : Nat) : Field := ⟨(LAN_AXCFG i0), 16, 2⟩
abbrev LAN_AXCFG_RESTART (i0 : Nat) : Field := ⟨(LAN_AXCFG i0), 18, 1⟩
/-- LAN_AXSCALE at LAN offset. -/
abbrev LAN_AXSCALE (i0 : Nat) : Nat := 0x51010 + 0x200 * i0
abbrev LAN_AXSCALE_SCALE (i0 : Nat) : Field := ⟨(LAN_AXSCALE i0), 0, 72⟩
/-- LAN_AXMOD at LAN offset. -/
abbrev LAN_AXMOD (i0 : Nat) : Nat := 0x51020 + 0x200 * i0
abbrev LAN_AXMOD_MOD (i0 : Nat) : Field := ⟨(LAN_AXMOD i0), 0, 40⟩
/-- LAN_AXJMAX at LAN offset. -/
abbrev LAN_AXJMAX (i0 : Nat) : Nat := 0x51030 + 0x200 * i0
abbrev LAN_AXJMAX_JMAX (i0 : Nat) : Field := ⟨(LAN_AXJMAX i0), 0, 48⟩
/-- LAN_AXSTAT at LAN offset. -/
abbrev LAN_AXSTAT (i0 : Nat) : Nat := 0x51040 + 0x200 * i0
abbrev LAN_AXSTAT_STATE (i0 : Nat) : Field := ⟨(LAN_AXSTAT i0), 0, 3⟩
abbrev LAN_AXSTAT_NSAMP (i0 : Nat) : Field := ⟨(LAN_AXSTAT i0), 3, 9⟩
abbrev LAN_AXSTAT_FAULTS (i0 : Nat) : Field := ⟨(LAN_AXSTAT i0), 12, 8⟩
abbrev LAN_AXSTAT_CLR (i0 : Nat) : Field := ⟨(LAN_AXSTAT i0), 20, 1⟩
/-- LAN_AXZREF at LAN offset. -/
abbrev LAN_AXZREF (i0 : Nat) : Nat := 0x51050 + 0x200 * i0
abbrev LAN_AXZREF_ZPOS (i0 : Nat) : Field := ⟨(LAN_AXZREF i0), 0, 72⟩
/-- LAN_AXZCAP at LAN offset. -/
abbrev LAN_AXZCAP (i0 : Nat) : Nat := 0x51060 + 0x200 * i0
abbrev LAN_AXZCAP_ZCAP (i0 : Nat) : Field := ⟨(LAN_AXZCAP i0), 0, 72⟩
/-- LAN_AXEB at LAN offset. -/
abbrev LAN_AXEB (i0 : Nat) : Nat := 0x51070 + 0x200 * i0
abbrev LAN_AXEB_EB (i0 : Nat) : Field := ⟨(LAN_AXEB i0), 0, 32⟩
/-- LAN_AXKP at LAN offset. -/
abbrev LAN_AXKP (i0 : Nat) : Nat := 0x51080 + 0x200 * i0
abbrev LAN_AXKP_KP (i0 : Nat) : Field := ⟨(LAN_AXKP i0), 0, 72⟩
/-- LAN_AXKV at LAN offset. -/
abbrev LAN_AXKV (i0 : Nat) : Nat := 0x51090 + 0x200 * i0
abbrev LAN_AXKV_KV (i0 : Nat) : Field := ⟨(LAN_AXKV i0), 0, 72⟩
/-- LAN_AXKA at LAN offset. -/
abbrev LAN_AXKA (i0 : Nat) : Nat := 0x510a0 + 0x200 * i0
abbrev LAN_AXKA_KA (i0 : Nat) : Field := ⟨(LAN_AXKA i0), 0, 72⟩
/-- LAN_AXKT at LAN offset. -/
abbrev LAN_AXKT (i0 : Nat) : Nat := 0x510b0 + 0x200 * i0
abbrev LAN_AXKT_KT (i0 : Nat) : Field := ⟨(LAN_AXKT i0), 0, 72⟩
/-- LAN_AXKCTL at LAN offset. -/
abbrev LAN_AXKCTL (i0 : Nat) : Nat := 0x510c0 + 0x200 * i0
abbrev LAN_AXKCTL_ARM (i0 : Nat) : Field := ⟨(LAN_AXKCTL i0), 0, 1⟩
abbrev LAN_AXKCTL_FREE (i0 : Nat) : Field := ⟨(LAN_AXKCTL i0), 1, 3⟩
abbrev LAN_AXKCTL_LATE (i0 : Nat) : Field := ⟨(LAN_AXKCTL i0), 4, 1⟩
abbrev LAN_AXKCTL_OVF (i0 : Nat) : Field := ⟨(LAN_AXKCTL i0), 5, 1⟩
/-- LAN_AXCAP at LAN offset. -/
abbrev LAN_AXCAP (i0 : Nat) : Nat := 0x510d0 + 0x200 * i0
abbrev LAN_AXCAP_NOW (i0 : Nat) : Field := ⟨(LAN_AXCAP i0), 0, 1⟩
abbrev LAN_AXCAP_SEQ (i0 : Nat) : Field := ⟨(LAN_AXCAP i0), 16, 16⟩
/-- LAN_AXCAPT at LAN offset. -/
abbrev LAN_AXCAPT (i0 : Nat) : Nat := 0x510e0 + 0x200 * i0
abbrev LAN_AXCAPT_S0 (i0 : Nat) : Field := ⟨(LAN_AXCAPT i0), 0, 72⟩
/-- LAN_AXCAPP at LAN offset. -/
abbrev LAN_AXCAPP (i0 : Nat) : Nat := 0x510f0 + 0x200 * i0
abbrev LAN_AXCAPP_P (i0 : Nat) : Field := ⟨(LAN_AXCAPP i0), 0, 72⟩
/-- LAN_AXCAPV at LAN offset. -/
abbrev LAN_AXCAPV (i0 : Nat) : Nat := 0x51100 + 0x200 * i0
abbrev LAN_AXCAPV_V (i0 : Nat) : Field := ⟨(LAN_AXCAPV i0), 0, 72⟩
/-- LAN_AXCAPA at LAN offset. -/
abbrev LAN_AXCAPA (i0 : Nat) : Nat := 0x51110 + 0x200 * i0
abbrev LAN_AXCAPA_A (i0 : Nat) : Field := ⟨(LAN_AXCAPA i0), 0, 72⟩
/-- LAN_AXQPOS at LAN offset. -/
abbrev LAN_AXQPOS (i0 : Nat) : Nat := 0x51120 + 0x200 * i0
abbrev LAN_AXQPOS_TGT (i0 : Nat) : Field := ⟨(LAN_AXQPOS i0), 0, 72⟩
/-- LAN_AXQCTL at LAN offset. -/
abbrev LAN_AXQCTL (i0 : Nat) : Nat := 0x51130 + 0x200 * i0
abbrev LAN_AXQCTL_GO (i0 : Nat) : Field := ⟨(LAN_AXQCTL i0), 0, 1⟩
abbrev LAN_AXQCTL_DIR (i0 : Nat) : Field := ⟨(LAN_AXQCTL i0), 1, 2⟩
abbrev LAN_AXQCTL_DONE (i0 : Nat) : Field := ⟨(LAN_AXQCTL i0), 3, 1⟩
abbrev LAN_AXQCTL_STATUS (i0 : Nat) : Field := ⟨(LAN_AXQCTL i0), 4, 3⟩
/-- LAN_AXQRES at LAN offset. -/
abbrev LAN_AXQRES (i0 : Nat) : Nat := 0x51140 + 0x200 * i0
abbrev LAN_AXQRES_RES (i0 : Nat) : Field := ⟨(LAN_AXQRES i0), 0, 72⟩
/-- GAL_CTL at GAL offset. -/
abbrev GAL_CTL (i0 : Nat) : Nat := 0x200000 + 0x10000 * i0
abbrev GAL_CTL_EN (i0 : Nat) : Field := ⟨(GAL_CTL i0), 0, 1⟩
abbrev GAL_CTL_START (i0 : Nat) : Field := ⟨(GAL_CTL i0), 1, 1⟩
abbrev GAL_CTL_LOAD (i0 : Nat) : Field := ⟨(GAL_CTL i0), 2, 1⟩
/-- GAL_LADDR at GAL offset. -/
abbrev GAL_LADDR (i0 : Nat) : Nat := 0x200010 + 0x10000 * i0
abbrev GAL_LADDR_ADDR (i0 : Nat) : Field := ⟨(GAL_LADDR i0), 0, 29⟩
/-- GAL_STAT at GAL offset. -/
abbrev GAL_STAT (i0 : Nat) : Nat := 0x200020 + 0x10000 * i0
abbrev GAL_STAT_STATE (i0 : Nat) : Field := ⟨(GAL_STAT i0), 0, 3⟩
abbrev GAL_STAT_WAIT (i0 : Nat) : Field := ⟨(GAL_STAT i0), 3, 1⟩
abbrev GAL_STAT_PRIV (i0 : Nat) : Field := ⟨(GAL_STAT i0), 4, 1⟩
abbrev GAL_STAT_CORE15 (i0 : Nat) : Field := ⟨(GAL_STAT i0), 5, 1⟩
abbrev GAL_STAT_LOST (i0 : Nat) : Field := ⟨(GAL_STAT i0), 6, 1⟩
abbrev GAL_STAT_RETIRED (i0 : Nat) : Field := ⟨(GAL_STAT i0), 7, 1⟩
abbrev GAL_STAT_LCODE (i0 : Nat) : Field := ⟨(GAL_STAT i0), 8, 4⟩
abbrev GAL_STAT_HDISC (i0 : Nat) : Field := ⟨(GAL_STAT i0), 12, 8⟩
abbrev GAL_STAT_CLR (i0 : Nat) : Field := ⟨(GAL_STAT i0), 20, 1⟩
/-- GAL_CAUSE at GAL offset. -/
abbrev GAL_CAUSE (i0 : Nat) : Nat := 0x200030 + 0x10000 * i0
abbrev GAL_CAUSE_TRAP (i0 : Nat) : Field := ⟨(GAL_CAUSE i0), 0, 1⟩
abbrev GAL_CAUSE_RAISE (i0 : Nat) : Field := ⟨(GAL_CAUSE i0), 1, 1⟩
abbrev GAL_CAUSE_HELD (i0 : Nat) : Field := ⟨(GAL_CAUSE i0), 2, 1⟩
abbrev GAL_CAUSE_HALT (i0 : Nat) : Field := ⟨(GAL_CAUSE i0), 3, 1⟩
abbrev GAL_CAUSE_RELOC (i0 : Nat) : Field := ⟨(GAL_CAUSE i0), 4, 1⟩
abbrev GAL_CAUSE_NOSPARE (i0 : Nat) : Field := ⟨(GAL_CAUSE i0), 5, 1⟩
abbrev GAL_CAUSE_LOADED (i0 : Nat) : Field := ⟨(GAL_CAUSE i0), 6, 1⟩
abbrev GAL_CAUSE_LOADERR (i0 : Nat) : Field := ⟨(GAL_CAUSE i0), 7, 1⟩
abbrev GAL_CAUSE_CLAIM (i0 : Nat) : Field := ⟨(GAL_CAUSE i0), 8, 1⟩
abbrev GAL_CAUSE_RCODE (i0 : Nat) : Field := ⟨(GAL_CAUSE i0), 10, 16⟩
abbrev GAL_CAUSE_RCNT (i0 : Nat) : Field := ⟨(GAL_CAUSE i0), 26, 8⟩
abbrev GAL_CAUSE_HSLOT (i0 : Nat) : Field := ⟨(GAL_CAUSE i0), 34, 2⟩
abbrev GAL_CAUSE_CLR (i0 : Nat) : Field := ⟨(GAL_CAUSE i0), 36, 1⟩
/-- GAL_TRAP at GAL offset. -/
abbrev GAL_TRAP (i0 : Nat) : Nat := 0x200040 + 0x10000 * i0
abbrev GAL_TRAP_PC (i0 : Nat) : Field := ⟨(GAL_TRAP i0), 0, 15⟩
abbrev GAL_TRAP_CODE (i0 : Nat) : Field := ⟨(GAL_TRAP i0), 16, 4⟩
/-- GAL_TINSN at GAL offset. -/
abbrev GAL_TINSN (i0 : Nat) : Nat := 0x200050 + 0x10000 * i0
abbrev GAL_TINSN_INSN (i0 : Nat) : Field := ⟨(GAL_TINSN i0), 0, 72⟩
/-- GAL_PMASK at GAL offset. -/
abbrev GAL_PMASK (i0 : Nat) : Nat := 0x200060 + 0x10000 * i0
abbrev GAL_PMASK_MASK (i0 : Nat) : Field := ⟨(GAL_PMASK i0), 0, 32⟩
/-- GAL_IMGID at GAL offset. -/
abbrev GAL_IMGID (i0 : Nat) : Nat := 0x200070 + 0x10000 * i0
abbrev GAL_IMGID_ID (i0 : Nat) : Field := ⟨(GAL_IMGID i0), 0, 64⟩
/-- GAL_CLAIM at GAL offset. -/
abbrev GAL_CLAIM (i0 : Nat) : Nat := 0x200080 + 0x10000 * i0
abbrev GAL_CLAIM_TICKS (i0 : Nat) : Field := ⟨(GAL_CLAIM i0), 0, 22⟩
abbrev GAL_CLAIM_FINISH (i0 : Nat) : Field := ⟨(GAL_CLAIM i0), 22, 22⟩
/-- GAL_CLAIM2 at GAL offset. -/
abbrev GAL_CLAIM2 (i0 : Nat) : Nat := 0x200090 + 0x10000 * i0
abbrev GAL_CLAIM2_EVAL (i0 : Nat) : Field := ⟨(GAL_CLAIM2 i0), 0, 22⟩
abbrev GAL_CLAIM2_CELLS (i0 : Nat) : Field := ⟨(GAL_CLAIM2 i0), 22, 17⟩
/-- GAL_SLACK at GAL offset. -/
abbrev GAL_SLACK (i0 : Nat) : Nat := 0x2000a0 + 0x10000 * i0
abbrev GAL_SLACK_MIN (i0 : Nat) : Field := ⟨(GAL_SLACK i0), 0, 22⟩
abbrev GAL_SLACK_CLR (i0 : Nat) : Field := ⟨(GAL_SLACK i0), 22, 1⟩
/-- GAL_DADDR at GAL offset. -/
abbrev GAL_DADDR (i0 : Nat) : Nat := 0x2000b0 + 0x10000 * i0
abbrev GAL_DADDR_ADDR (i0 : Nat) : Field := ⟨(GAL_DADDR i0), 0, 14⟩
abbrev GAL_DADDR_CAP (i0 : Nat) : Field := ⟨(GAL_DADDR i0), 14, 1⟩
/-- GAL_DDATA at GAL offset. -/
abbrev GAL_DDATA (i0 : Nat) : Nat := 0x2000c0 + 0x10000 * i0
abbrev GAL_DDATA_DATA (i0 : Nat) : Field := ⟨(GAL_DDATA i0), 0, 72⟩
/-- GAL_SPARE at GAL offset. -/
abbrev GAL_SPARE : Nat := 0x208000
abbrev GAL_SPARE_EN : Field := ⟨GAL_SPARE, 0, 1⟩
abbrev GAL_SPARE_AVAIL : Field := ⟨GAL_SPARE, 1, 1⟩
abbrev GAL_SPARE_HOLDER : Field := ⟨GAL_SPARE, 2, 4⟩
abbrev GAL_SPARE_BUSY : Field := ⟨GAL_SPARE, 6, 1⟩
/-- FLW_CTL at FLW offset. -/
abbrev FLW_CTL : Nat := 0x300000
abbrev FLW_CTL_EN : Field := ⟨FLW_CTL, 0, 1⟩
abbrev FLW_CTL_PREF : Field := ⟨FLW_CTL, 1, 1⟩
abbrev FLW_CTL_FIXLAT : Field := ⟨FLW_CTL, 2, 1⟩
/-- FLW_STAT at FLW offset. -/
abbrev FLW_STAT : Nat := 0x300010
abbrev FLW_STAT_ACTIVE : Field := ⟨FLW_STAT, 0, 8⟩
abbrev FLW_STAT_RETIRED : Field := ⟨FLW_STAT, 8, 8⟩
abbrev FLW_STAT_QDEPTH : Field := ⟨FLW_STAT, 16, 5⟩
abbrev FLW_STAT_SEEKQ : Field := ⟨FLW_STAT, 21, 7⟩
/-- FLW_CAUSE at FLW offset. -/
abbrev FLW_CAUSE : Nat := 0x300020
abbrev FLW_CAUSE_CHK : Field := ⟨FLW_CAUSE, 0, 1⟩
abbrev FLW_CAUSE_UE : Field := ⟨FLW_CAUSE, 1, 1⟩
abbrev FLW_CAUSE_FMT : Field := ⟨FLW_CAUSE, 2, 1⟩
abbrev FLW_CAUSE_SHED : Field := ⟨FLW_CAUSE, 3, 1⟩
abbrev FLW_CAUSE_OVER : Field := ⟨FLW_CAUSE, 4, 1⟩
abbrev FLW_CAUSE_RETIRE : Field := ⟨FLW_CAUSE, 5, 1⟩
abbrev FLW_CAUSE_CELL : Field := ⟨FLW_CAUSE, 8, 3⟩
/-- FLW_CADDR at FLW offset. -/
abbrev FLW_CADDR : Nat := 0x300030
abbrev FLW_CADDR_ADDR : Field := ⟨FLW_CADDR, 0, 29⟩
abbrev FLW_CADDR_REC : Field := ⟨FLW_CADDR, 32, 18⟩
/-- FLW_SHED at FLW offset. -/
abbrev FLW_SHED : Nat := 0x300040
abbrev FLW_SHED_LEVEL : Field := ⟨FLW_SHED, 0, 4⟩
abbrev FLW_SHED_AUTO : Field := ⟨FLW_SHED, 4, 1⟩
/-- FLW_USE at FLW offset. -/
abbrev FLW_USE : Nat := 0x300050
abbrev FLW_USE_LAST : Field := ⟨FLW_USE, 0, 22⟩
abbrev FLW_USE_ALLOW : Field := ⟨FLW_USE, 22, 22⟩
/-- FLW_SWCTL at FLW offset. -/
abbrev FLW_SWCTL : Nat := 0x300060
abbrev FLW_SWCTL_FIRST : Field := ⟨FLW_SWCTL, 0, 18⟩
abbrev FLW_SWCTL_LAST : Field := ⟨FLW_SWCTL, 18, 18⟩
abbrev FLW_SWCTL_GO : Field := ⟨FLW_SWCTL, 36, 1⟩
/-- FLW_SWSTAT at FLW offset. -/
abbrev FLW_SWSTAT : Nat := 0x300070
abbrev FLW_SWSTAT_PEND : Field := ⟨FLW_SWSTAT, 0, 19⟩
/-- FLW_PRICNT at FLW offset. -/
abbrev FLW_PRICNT (i0 : Nat) : Nat := 0x300100 + 0x10 * i0
abbrev FLW_PRICNT_CNT (i0 : Nat) : Field := ⟨(FLW_PRICNT i0), 0, 22⟩
/-- FLW_TABA at FLW offset. -/
abbrev FLW_TABA (i0 : Nat) : Nat := 0x320000 + 0x40 * i0
abbrev FLW_TABA_ADDR (i0 : Nat) : Field := ⟨(FLW_TABA i0), 0, 29⟩
abbrev FLW_TABA_NSEG (i0 : Nat) : Field := ⟨(FLW_TABA i0), 29, 20⟩
abbrev FLW_TABA_CYC (i0 : Nat) : Field := ⟨(FLW_TABA i0), 49, 1⟩
abbrev FLW_TABA_VALID (i0 : Nat) : Field := ⟨(FLW_TABA i0), 50, 1⟩
/-- FLW_TABB at FLW offset. -/
abbrev FLW_TABB (i0 : Nat) : Nat := 0x320010 + 0x40 * i0
abbrev FLW_TABB_XS (i0 : Nat) : Field := ⟨(FLW_TABB i0), 0, 72⟩
/-- FLW_TABC at FLW offset. -/
abbrev FLW_TABC (i0 : Nat) : Nat := 0x320020 + 0x40 * i0
abbrev FLW_TABC_YMOD (i0 : Nat) : Field := ⟨(FLW_TABC i0), 0, 40⟩
/-- FLW_WIN_IDX at FLW offset. -/
abbrev FLW_WIN_IDX : Nat := 0x310000
abbrev FLW_WIN_IDX_REC : Field := ⟨FLW_WIN_IDX, 0, 18⟩
/-- FLW_WIN_W0 at FLW offset. -/
abbrev FLW_WIN_W0 : Nat := 0x310010
abbrev FLW_WIN_W0_Y0 : Field := ⟨FLW_WIN_W0, 0, 72⟩
/-- FLW_WIN_W1 at FLW offset. -/
abbrev FLW_WIN_W1 : Nat := 0x310020
abbrev FLW_WIN_W1_X0 : Field := ⟨FLW_WIN_W1, 0, 72⟩
/-- FLW_WIN_W2 at FLW offset. -/
abbrev FLW_WIN_W2 : Nat := 0x310030
abbrev FLW_WIN_W2_TAB : Field := ⟨FLW_WIN_W2, 0, 10⟩
abbrev FLW_WIN_W2_NTAB : Field := ⟨FLW_WIN_W2, 10, 10⟩
abbrev FLW_WIN_W2_SIDX : Field := ⟨FLW_WIN_W2, 20, 20⟩
abbrev FLW_WIN_W2_EN : Field := ⟨FLW_WIN_W2, 40, 1⟩
abbrev FLW_WIN_W2_SWP : Field := ⟨FLW_WIN_W2, 41, 1⟩
abbrev FLW_WIN_W2_STATE : Field := ⟨FLW_WIN_W2, 42, 2⟩
abbrev FLW_WIN_W2_PRI : Field := ⟨FLW_WIN_W2, 44, 3⟩
abbrev FLW_WIN_W2_COPY : Field := ⟨FLW_WIN_W2, 47, 1⟩
abbrev FLW_WIN_W2_DSW : Field := ⟨FLW_WIN_W2, 48, 14⟩
abbrev FLW_WIN_W2_HREQ : Field := ⟨FLW_WIN_W2, 62, 1⟩
/-- FLW_WIN_W3 at FLW offset. -/
abbrev FLW_WIN_W3 : Nat := 0x310040
abbrev FLW_WIN_W3_MOFS : Field := ⟨FLW_WIN_W3, 0, 72⟩
/-- FLW_WIN_RES0 at FLW offset. -/
abbrev FLW_WIN_RES0 : Nat := 0x310050
abbrev FLW_WIN_RES0_POS : Field := ⟨FLW_WIN_RES0, 0, 72⟩
/-- FLW_WIN_RES1 at FLW offset. -/
abbrev FLW_WIN_RES1 : Nat := 0x310060
abbrev FLW_WIN_RES1_ACC : Field := ⟨FLW_WIN_RES1, 0, 32⟩
abbrev FLW_WIN_RES1_VEL : Field := ⟨FLW_WIN_RES1, 32, 32⟩
abbrev FLW_WIN_RES1_HOLD : Field := ⟨FLW_WIN_RES1, 64, 1⟩
abbrev FLW_WIN_RES1_END : Field := ⟨FLW_WIN_RES1, 65, 1⟩
abbrev FLW_WIN_RES1_STEP : Field := ⟨FLW_WIN_RES1, 66, 1⟩
abbrev FLW_WIN_RES1_WHY : Field := ⟨FLW_WIN_RES1, 67, 3⟩
/-- ZRG_CFG at ZRG offset. -/
abbrev ZRG_CFG (i0 : Nat) : Nat := 0x1c0000 + 0x1000 * i0
abbrev ZRG_CFG_EN (i0 : Nat) : Field := ⟨(ZRG_CFG i0), 0, 1⟩
abbrev ZRG_CFG_TOPO (i0 : Nat) : Field := ⟨(ZRG_CFG i0), 1, 2⟩
abbrev ZRG_CFG_PORT (i0 : Nat) : Field := ⟨(ZRG_CFG i0), 3, 5⟩
abbrev ZRG_CFG_PEER (i0 : Nat) : Field := ⟨(ZRG_CFG i0), 8, 5⟩
abbrev ZRG_CFG_SCAN (i0 : Nat) : Field := ⟨(ZRG_CFG i0), 13, 1⟩
/-- ZRG_STAT at ZRG offset. -/
abbrev ZRG_STAT (i0 : Nat) : Nat := 0x1c0010 + 0x1000 * i0
abbrev ZRG_STAT_STATE (i0 : Nat) : Field := ⟨(ZRG_STAT i0), 0, 3⟩
abbrev ZRG_STAT_WRAPPED (i0 : Nat) : Field := ⟨(ZRG_STAT i0), 3, 1⟩
abbrev ZRG_STAT_NODES (i0 : Nat) : Field := ⟨(ZRG_STAT i0), 4, 9⟩
abbrev ZRG_STAT_FULLNEXT (i0 : Nat) : Field := ⟨(ZRG_STAT i0), 13, 1⟩
/-- ZRG_CAUSE at ZRG offset. -/
abbrev ZRG_CAUSE (i0 : Nat) : Nat := 0x1c0020 + 0x1000 * i0
abbrev ZRG_CAUSE_INVALID (i0 : Nat) : Field := ⟨(ZRG_CAUSE i0), 0, 1⟩
abbrev ZRG_CAUSE_WRAP (i0 : Nat) : Field := ⟨(ZRG_CAUSE i0), 1, 1⟩
abbrev ZRG_CAUSE_UNWRAP (i0 : Nat) : Field := ⟨(ZRG_CAUSE i0), 2, 1⟩
abbrev ZRG_CAUSE_LOST (i0 : Nat) : Field := ⟨(ZRG_CAUSE i0), 3, 1⟩
abbrev ZRG_CAUSE_BACK (i0 : Nat) : Field := ⟨(ZRG_CAUSE i0), 4, 1⟩
abbrev ZRG_CAUSE_CLAIMX (i0 : Nat) : Field := ⟨(ZRG_CAUSE i0), 5, 1⟩
abbrev ZRG_CAUSE_SRCCHG (i0 : Nat) : Field := ⟨(ZRG_CAUSE i0), 6, 1⟩
abbrev ZRG_CAUSE_SCANDONE (i0 : Nat) : Field := ⟨(ZRG_CAUSE i0), 7, 1⟩
abbrev ZRG_CAUSE_SCANERR (i0 : Nat) : Field := ⟨(ZRG_CAUSE i0), 8, 1⟩
abbrev ZRG_CAUSE_DISC (i0 : Nat) : Field := ⟨(ZRG_CAUSE i0), 9, 1⟩
abbrev ZRG_CAUSE_MBXUP (i0 : Nat) : Field := ⟨(ZRG_CAUSE i0), 10, 1⟩
abbrev ZRG_CAUSE_MBXDN (i0 : Nat) : Field := ⟨(ZRG_CAUSE i0), 11, 1⟩
abbrev ZRG_CAUSE_ICODE (i0 : Nat) : Field := ⟨(ZRG_CAUSE i0), 12, 4⟩
abbrev ZRG_CAUSE_NODE (i0 : Nat) : Field := ⟨(ZRG_CAUSE i0), 16, 9⟩
abbrev ZRG_CAUSE_SUBR (i0 : Nat) : Field := ⟨(ZRG_CAUSE i0), 25, 9⟩
/-- ZRG_TIMING at ZRG offset. -/
abbrev ZRG_TIMING (i0 : Nat) : Nat := 0x1c0030 + 0x1000 * i0
abbrev ZRG_TIMING_RTT (i0 : Nat) : Field := ⟨(ZRG_TIMING i0), 0, 20⟩
abbrev ZRG_TIMING_ONEWAY (i0 : Nat) : Field := ⟨(ZRG_TIMING i0), 20, 20⟩
/-- ZRG_ALLOW at ZRG offset. -/
abbrev ZRG_ALLOW (i0 : Nat) : Nat := 0x1c0040 + 0x1000 * i0
abbrev ZRG_ALLOW_BYTES (i0 : Nat) : Field := ⟨(ZRG_ALLOW i0), 0, 24⟩
abbrev ZRG_ALLOW_USED (i0 : Nat) : Field := ⟨(ZRG_ALLOW i0), 24, 24⟩
/-- ZRG_MBX at ZRG offset. -/
abbrev ZRG_MBX (i0 : Nat) : Nat := 0x1c0050 + 0x1000 * i0
abbrev ZRG_MBX_MAX (i0 : Nat) : Field := ⟨(ZRG_MBX i0), 0, 14⟩
abbrev ZRG_MBX_CLASS (i0 : Nat) : Field := ⟨(ZRG_MBX i0), 14, 3⟩
abbrev ZRG_MBX_GRANT (i0 : Nat) : Field := ⟨(ZRG_MBX i0), 17, 1⟩
abbrev ZRG_MBX_LASTG (i0 : Nat) : Field := ⟨(ZRG_MBX i0), 18, 9⟩
/-- ZRG_WDOG at ZRG offset. -/
abbrev ZRG_WDOG (i0 : Nat) : Nat := 0x1c0060 + 0x1000 * i0
abbrev ZRG_WDOG_CYC (i0 : Nat) : Field := ⟨(ZRG_WDOG i0), 0, 8⟩
/-- ZRG_LSEL at ZRG offset. -/
abbrev ZRG_LSEL (i0 : Nat) : Nat := 0x1c0070 + 0x1000 * i0
abbrev ZRG_LSEL_SUBR (i0 : Nat) : Field := ⟨(ZRG_LSEL i0), 0, 9⟩
/-- ZRG_PRES at ZRG offset. -/
abbrev ZRG_PRES (i0 : Nat) (i1 : Nat) : Nat := 0x1c0080 + 0x1000 * i0 + 0x10 * i1
abbrev ZRG_PRES_PRES (i0 : Nat) (i1 : Nat) : Field := ⟨(ZRG_PRES i0 i1), 0, 64⟩
/-- ZRG_LOST at ZRG offset. -/
abbrev ZRG_LOST (i0 : Nat) (i1 : Nat) : Nat := 0x1c00c0 + 0x1000 * i0 + 0x10 * i1
abbrev ZRG_LOST_LOST (i0 : Nat) (i1 : Nat) : Field := ⟨(ZRG_LOST i0 i1), 0, 64⟩
/-- ZRG_ETYPE at ZRG offset. -/
abbrev ZRG_ETYPE : Nat := 0x1e0000
abbrev ZRG_ETYPE_ETYPE : Field := ⟨ZRG_ETYPE, 0, 16⟩
/-- ZRG_EPT at ZRG offset. -/
abbrev ZRG_EPT : Nat := 0x1e0010
abbrev ZRG_EPT_BANKED : Field := ⟨ZRG_EPT, 0, 1⟩
abbrev ZRG_EPT_ACT : Field := ⟨ZRG_EPT, 1, 1⟩
abbrev ZRG_EPT_SWAP : Field := ⟨ZRG_EPT, 2, 1⟩
abbrev ZRG_EPT_SWPEND : Field := ⟨ZRG_EPT, 3, 1⟩
abbrev ZRG_EPT_COPY : Field := ⟨ZRG_EPT, 4, 1⟩
/-- ZRG_EWIDX at ZRG offset. -/
abbrev ZRG_EWIDX : Nat := 0x1e0020
abbrev ZRG_EWIDX_IDX : Field := ⟨ZRG_EWIDX, 0, 18⟩
/-- ZRG_EWE0 at ZRG offset. -/
abbrev ZRG_EWE0 : Nat := 0x1e0030
abbrev ZRG_EWE0_E0 : Field := ⟨ZRG_EWE0, 0, 72⟩
/-- ZRG_EWE1 at ZRG offset. -/
abbrev ZRG_EWE1 : Nat := 0x1e0040
abbrev ZRG_EWE1_E1 : Field := ⟨ZRG_EWE1, 0, 72⟩
/-- ZRG_EWCTL at ZRG offset. -/
abbrev ZRG_EWCTL : Nat := 0x1e0050
abbrev ZRG_EWCTL_WR : Field := ⟨ZRG_EWCTL, 0, 1⟩
abbrev ZRG_EWCTL_RD : Field := ⟨ZRG_EWCTL, 1, 1⟩
abbrev ZRG_EWCTL_ACTB : Field := ⟨ZRG_EWCTL, 2, 1⟩
/-- ZRG_EPCAUSE at ZRG offset. -/
abbrev ZRG_EPCAUSE : Nat := 0x1e0060
abbrev ZRG_EPCAUSE_SWAPPED : Field := ⟨ZRG_EPCAUSE, 0, 1⟩
abbrev ZRG_EPCAUSE_BADREF : Field := ⟨ZRG_EPCAUSE, 1, 1⟩
abbrev ZRG_EPCAUSE_EP : Field := ⟨ZRG_EPCAUSE, 4, 18⟩
abbrev ZRG_EPCAUSE_RING : Field := ⟨ZRG_EPCAUSE, 22, 5⟩
/-- SWC_STAT at SWC offset. -/
abbrev SWC_STAT : Nat := 0x180000
abbrev SWC_STAT_INSVC : Field := ⟨SWC_STAT, 0, 4⟩
abbrev SWC_STAT_RETS : Field := ⟨SWC_STAT, 4, 4⟩
abbrev SWC_STAT_SHARED : Field := ⟨SWC_STAT, 8, 18⟩
abbrev SWC_STAT_FREE : Field := ⟨SWC_STAT, 26, 18⟩
abbrev SWC_STAT_RFREE : Field := ⟨SWC_STAT, 44, 16⟩
/-- SWC_CAUSE at SWC offset. -/
abbrev SWC_CAUSE : Nat := 0x180010
abbrev SWC_CAUSE_CE : Field := ⟨SWC_CAUSE, 0, 1⟩
abbrev SWC_CAUSE_UE : Field := ⟨SWC_CAUSE, 1, 1⟩
abbrev SWC_CAUSE_SPARE : Field := ⟨SWC_CAUSE, 2, 1⟩
abbrev SWC_CAUSE_SLICE : Field := ⟨SWC_CAUSE, 3, 1⟩
abbrev SWC_CAUSE_LASTSLICE : Field := ⟨SWC_CAUSE, 4, 1⟩
abbrev SWC_CAUSE_XIG : Field := ⟨SWC_CAUSE, 5, 1⟩
abbrev SWC_CAUSE_XEQ : Field := ⟨SWC_CAUSE, 6, 1⟩
abbrev SWC_CAUSE_PIGN : Field := ⟨SWC_CAUSE, 7, 1⟩
abbrev SWC_CAUSE_MCP : Field := ⟨SWC_CAUSE, 8, 1⟩
abbrev SWC_CAUSE_STOMP : Field := ⟨SWC_CAUSE, 9, 1⟩
abbrev SWC_CAUSE_RESEQ : Field := ⟨SWC_CAUSE, 10, 1⟩
abbrev SWC_CAUSE_FLUSH : Field := ⟨SWC_CAUSE, 11, 1⟩
abbrev SWC_CAUSE_RSVX : Field := ⟨SWC_CAUSE, 12, 1⟩
abbrev SWC_CAUSE_STCODE : Field := ⟨SWC_CAUSE, 13, 3⟩
abbrev SWC_CAUSE_SRC : Field := ⟨SWC_CAUSE, 16, 6⟩
abbrev SWC_CAUSE_PORT : Field := ⟨SWC_CAUSE, 22, 6⟩
abbrev SWC_CAUSE_CLASS : Field := ⟨SWC_CAUSE, 28, 3⟩
/-- SWC_ECCADDR at SWC offset. -/
abbrev SWC_ECCADDR : Nat := 0x180020
abbrev SWC_ECCADDR_SLICE : Field := ⟨SWC_ECCADDR, 0, 2⟩
abbrev SWC_ECCADDR_ROW : Field := ⟨SWC_ECCADDR, 2, 12⟩
abbrev SWC_ECCADDR_CELL : Field := ⟨SWC_ECCADDR, 14, 4⟩
abbrev SWC_ECCADDR_UE : Field := ⟨SWC_ECCADDR, 18, 1⟩
/-- SWC_SPARE at SWC offset. -/
abbrev SWC_SPARE : Nat := 0x180030
abbrev SWC_SPARE_LEFT0 : Field := ⟨SWC_SPARE, 0, 5⟩
abbrev SWC_SPARE_LEFT1 : Field := ⟨SWC_SPARE, 5, 5⟩
abbrev SWC_SPARE_LEFT2 : Field := ⟨SWC_SPARE, 10, 5⟩
abbrev SWC_SPARE_LEFT3 : Field := ⟨SWC_SPARE, 15, 5⟩
abbrev SWC_SPARE_CLR : Field := ⟨SWC_SPARE, 20, 4⟩
/-- SWC_MC at SWC offset. -/
abbrev SWC_MC : Nat := 0x180040
abbrev SWC_MC_HOLD : Field := ⟨SWC_MC, 0, 16⟩
/-- SWC_RESEQ at SWC offset. -/
abbrev SWC_RESEQ : Nat := 0x180050
abbrev SWC_RESEQ_TMO : Field := ⟨SWC_RESEQ, 0, 10⟩
/-- SWC_AGE at SWC offset. -/
abbrev SWC_AGE : Nat := 0x180060
abbrev SWC_AGE_AGE : Field := ⟨SWC_AGE, 0, 16⟩
/-- SWC_PORT_CTL at SWC offset. -/
abbrev SWC_PORT_CTL (i0 : Nat) : Nat := 0x181000 + 0x100 * i0
abbrev SWC_PORT_CTL_EN (i0 : Nat) : Field := ⟨(SWC_PORT_CTL i0), 0, 1⟩
abbrev SWC_PORT_CTL_STP (i0 : Nat) : Field := ⟨(SWC_PORT_CTL i0), 1, 2⟩
abbrev SWC_PORT_CTL_EXCL (i0 : Nat) : Field := ⟨(SWC_PORT_CTL i0), 3, 1⟩
abbrev SWC_PORT_CTL_ELIM (i0 : Nat) : Field := ⟨(SWC_PORT_CTL i0), 4, 1⟩
abbrev SWC_PORT_CTL_DCLASS (i0 : Nat) : Field := ⟨(SWC_PORT_CTL i0), 5, 3⟩
/-- SWC_PORT_SCHED at SWC offset. -/
abbrev SWC_PORT_SCHED (i0 : Nat) : Nat := 0x181010 + 0x100 * i0
abbrev SWC_PORT_SCHED_SPN (i0 : Nat) : Field := ⟨(SWC_PORT_SCHED i0), 0, 4⟩
abbrev SWC_PORT_SCHED_WEIGHT0 (i0 : Nat) : Field := ⟨(SWC_PORT_SCHED i0), 4, 8⟩
abbrev SWC_PORT_SCHED_WEIGHT1 (i0 : Nat) : Field := ⟨(SWC_PORT_SCHED i0), 12, 8⟩
abbrev SWC_PORT_SCHED_WEIGHT2 (i0 : Nat) : Field := ⟨(SWC_PORT_SCHED i0), 20, 8⟩
abbrev SWC_PORT_SCHED_WEIGHT3 (i0 : Nat) : Field := ⟨(SWC_PORT_SCHED i0), 28, 8⟩
abbrev SWC_PORT_SCHED_WEIGHT4 (i0 : Nat) : Field := ⟨(SWC_PORT_SCHED i0), 36, 8⟩
abbrev SWC_PORT_SCHED_WEIGHT5 (i0 : Nat) : Field := ⟨(SWC_PORT_SCHED i0), 44, 8⟩
abbrev SWC_PORT_SCHED_WEIGHT6 (i0 : Nat) : Field := ⟨(SWC_PORT_SCHED i0), 52, 8⟩
abbrev SWC_PORT_SCHED_WEIGHT7 (i0 : Nat) : Field := ⟨(SWC_PORT_SCHED i0), 60, 8⟩
/-- SWC_PORT_PMAP at SWC offset. -/
abbrev SWC_PORT_PMAP (i0 : Nat) : Nat := 0x181020 + 0x100 * i0
abbrev SWC_PORT_PMAP_MAP (i0 : Nat) : Field := ⟨(SWC_PORT_PMAP i0), 0, 24⟩
/-- SWC_PORT_EQLIM at SWC offset. -/
abbrev SWC_PORT_EQLIM (i0 : Nat) : Nat := 0x181030 + 0x100 * i0
abbrev SWC_PORT_EQLIM_LIM (i0 : Nat) : Field := ⟨(SWC_PORT_EQLIM i0), 0, 18⟩
/-- SWC_PORT_STAT at SWC offset. -/
abbrev SWC_PORT_STAT (i0 : Nat) : Nat := 0x181040 + 0x100 * i0
abbrev SWC_PORT_STAT_EQX (i0 : Nat) : Field := ⟨(SWC_PORT_STAT i0), 0, 8⟩
abbrev SWC_PORT_STAT_GATE (i0 : Nat) : Field := ⟨(SWC_PORT_STAT i0), 8, 1⟩
abbrev SWC_PORT_STAT_UP (i0 : Nat) : Field := ⟨(SWC_PORT_STAT i0), 9, 1⟩
/-- SWC_IG_CFG at SWC offset. -/
abbrev SWC_IG_CFG (i0 : Nat) : Nat := 0x184000 + 0x100 * i0
abbrev SWC_IG_CFG_SHARE (i0 : Nat) : Field := ⟨(SWC_IG_CFG i0), 0, 18⟩
abbrev SWC_IG_CFG_HEAD (i0 : Nat) : Field := ⟨(SWC_IG_CFG i0), 18, 12⟩
abbrev SWC_IG_CFG_HYST (i0 : Nat) : Field := ⟨(SWC_IG_CFG i0), 30, 12⟩
/-- SWC_IG_STAT at SWC offset. -/
abbrev SWC_IG_STAT (i0 : Nat) : Nat := 0x184010 + 0x100 * i0
abbrev SWC_IG_STAT_OCC (i0 : Nat) : Field := ⟨(SWC_IG_STAT i0), 0, 18⟩
abbrev SWC_IG_STAT_EFF (i0 : Nat) : Field := ⟨(SWC_IG_STAT i0), 18, 18⟩
abbrev SWC_IG_STAT_XOFF (i0 : Nat) : Field := ⟨(SWC_IG_STAT i0), 36, 1⟩
/-- SWC_ESIDX at SWC offset. -/
abbrev SWC_ESIDX : Nat := 0x190000
abbrev SWC_ESIDX_IDX : Field := ⟨SWC_ESIDX, 0, 10⟩
/-- SWC_ESKEY at SWC offset. -/
abbrev SWC_ESKEY : Nat := 0x190010
abbrev SWC_ESKEY_DA : Field := ⟨SWC_ESKEY, 0, 48⟩
abbrev SWC_ESKEY_VID : Field := ⟨SWC_ESKEY, 48, 12⟩
abbrev SWC_ESKEY_VALID : Field := ⟨SWC_ESKEY, 60, 1⟩
/-- SWC_ESCFG at SWC offset. -/
abbrev SWC_ESCFG : Nat := 0x190020
abbrev SWC_ESCFG_HIST : Field := ⟨SWC_ESCFG, 0, 7⟩
abbrev SWC_ESCFG_RESET : Field := ⟨SWC_ESCFG, 7, 16⟩
abbrev SWC_ESCFG_STRIP : Field := ⟨SWC_ESCFG, 23, 1⟩
/-- SWC_ESCTL at SWC offset. -/
abbrev SWC_ESCTL : Nat := 0x190030
abbrev SWC_ESCTL_WR : Field := ⟨SWC_ESCTL, 0, 1⟩
abbrev SWC_ESCTL_RD : Field := ⟨SWC_ESCTL, 1, 1⟩
/-- SWC_FDBKEY at SWC offset. -/
abbrev SWC_FDBKEY : Nat := 0x1a0000
abbrev SWC_FDBKEY_MAC : Field := ⟨SWC_FDBKEY, 0, 48⟩
abbrev SWC_FDBKEY_VID : Field := ⟨SWC_FDBKEY, 48, 12⟩
/-- SWC_FDBDAT at SWC offset. -/
abbrev SWC_FDBDAT : Nat := 0x1a0010
abbrev SWC_FDBDAT_MASK : Field := ⟨SWC_FDBDAT, 0, 34⟩
abbrev SWC_FDBDAT_STATIC : Field := ⟨SWC_FDBDAT, 34, 1⟩
abbrev SWC_FDBDAT_VALID : Field := ⟨SWC_FDBDAT, 35, 1⟩
/-- SWC_FDBCTL at SWC offset. -/
abbrev SWC_FDBCTL : Nat := 0x1a0020
abbrev SWC_FDBCTL_WR : Field := ⟨SWC_FDBCTL, 0, 1⟩
abbrev SWC_FDBCTL_DEL : Field := ⟨SWC_FDBCTL, 1, 1⟩
abbrev SWC_FDBCTL_LOOKUP : Field := ⟨SWC_FDBCTL, 2, 1⟩
abbrev SWC_FDBCTL_DONE : Field := ⟨SWC_FDBCTL, 3, 1⟩
abbrev SWC_FDBCTL_FULL : Field := ⟨SWC_FDBCTL, 4, 1⟩
/-- SWC_VIDX at SWC offset. -/
abbrev SWC_VIDX : Nat := 0x1a0030
abbrev SWC_VIDX_VID : Field := ⟨SWC_VIDX, 0, 12⟩
/-- SWC_VMEM at SWC offset. -/
abbrev SWC_VMEM : Nat := 0x1a0040
abbrev SWC_VMEM_MASK : Field := ⟨SWC_VMEM, 0, 34⟩
/-- SWC_VCTL at SWC offset. -/
abbrev SWC_VCTL : Nat := 0x1a0050
abbrev SWC_VCTL_WR : Field := ⟨SWC_VCTL, 0, 1⟩
abbrev SWC_VCTL_RD : Field := ⟨SWC_VCTL, 1, 1⟩
/-- MAC_CTL at MAC offset. -/
abbrev MAC_CTL (i0 : Nat) : Nat := 0x140000 + 0x1000 * i0
abbrev MAC_CTL_EN (i0 : Nat) : Field := ⟨(MAC_CTL i0), 0, 1⟩
/-- MAC_CFG at MAC offset. -/
abbrev MAC_CFG (i0 : Nat) : Nat := 0x140010 + 0x1000 * i0
abbrev MAC_CFG_RATE (i0 : Nat) : Field := ⟨(MAC_CFG i0), 0, 2⟩
abbrev MAC_CFG_FEC (i0 : Nat) : Field := ⟨(MAC_CFG i0), 2, 2⟩
abbrev MAC_CFG_RING (i0 : Nat) : Field := ⟨(MAC_CFG i0), 4, 1⟩
abbrev MAC_CFG_DEGR (i0 : Nat) : Field := ⟨(MAC_CFG i0), 5, 1⟩
abbrev MAC_CFG_MAXLEN (i0 : Nat) : Field := ⟨(MAC_CFG i0), 6, 14⟩
/-- MAC_STAT at MAC offset. -/
abbrev MAC_STAT (i0 : Nat) : Nat := 0x140020 + 0x1000 * i0
abbrev MAC_STAT_LINK (i0 : Nat) : Field := ⟨(MAC_STAT i0), 0, 1⟩
abbrev MAC_STAT_LF (i0 : Nat) : Field := ⟨(MAC_STAT i0), 1, 1⟩
abbrev MAC_STAT_RF (i0 : Nat) : Field := ⟨(MAC_STAT i0), 2, 1⟩
abbrev MAC_STAT_DEGRADED (i0 : Nat) : Field := ⟨(MAC_STAT i0), 3, 1⟩
abbrev MAC_STAT_LANES (i0 : Nat) : Field := ⟨(MAC_STAT i0), 4, 4⟩
/-- MAC_CAUSE at MAC offset. -/
abbrev MAC_CAUSE (i0 : Nat) : Nat := 0x140030 + 0x1000 * i0
abbrev MAC_CAUSE_UP (i0 : Nat) : Field := ⟨(MAC_CAUSE i0), 0, 1⟩
abbrev MAC_CAUSE_DOWN (i0 : Nat) : Field := ⟨(MAC_CAUSE i0), 1, 1⟩
abbrev MAC_CAUSE_HALF (i0 : Nat) : Field := ⟨(MAC_CAUSE i0), 2, 1⟩
abbrev MAC_CAUSE_DCODE (i0 : Nat) : Field := ⟨(MAC_CAUSE i0), 4, 4⟩
/-- MAC_ADDR at MAC offset. -/
abbrev MAC_ADDR (i0 : Nat) : Nat := 0x140040 + 0x1000 * i0
abbrev MAC_ADDR_ADDR (i0 : Nat) : Field := ⟨(MAC_ADDR i0), 0, 48⟩
/-- MAC_VLAN at MAC offset. -/
abbrev MAC_VLAN (i0 : Nat) : Nat := 0x140050 + 0x1000 * i0
abbrev MAC_VLAN_PVID (i0 : Nat) : Field := ⟨(MAC_VLAN i0), 0, 12⟩
abbrev MAC_VLAN_ACCEPT (i0 : Nat) : Field := ⟨(MAC_VLAN i0), 12, 2⟩
abbrev MAC_VLAN_INFILT (i0 : Nat) : Field := ⟨(MAC_VLAN i0), 14, 1⟩
abbrev MAC_VLAN_TAGOUT (i0 : Nat) : Field := ⟨(MAC_VLAN i0), 15, 2⟩
abbrev MAC_VLAN_DPCP (i0 : Nat) : Field := ⟨(MAC_VLAN i0), 17, 3⟩
/-- MAC_FC at MAC offset. -/
abbrev MAC_FC (i0 : Nat) : Nat := 0x140060 + 0x1000 * i0
abbrev MAC_FC_MODE (i0 : Nat) : Field := ⟨(MAC_FC i0), 0, 2⟩
abbrev MAC_FC_QUANTA (i0 : Nat) : Field := ⟨(MAC_FC i0), 2, 16⟩
abbrev MAC_FC_RXIGN (i0 : Nat) : Field := ⟨(MAC_FC i0), 18, 1⟩
/-- MAC_PAUSED at MAC offset. -/
abbrev MAC_PAUSED (i0 : Nat) : Nat := 0x140070 + 0x1000 * i0
abbrev MAC_PAUSED_CLS (i0 : Nat) : Field := ⟨(MAC_PAUSED i0), 0, 8⟩
abbrev MAC_PAUSED_ALL (i0 : Nat) : Field := ⟨(MAC_PAUSED i0), 8, 1⟩
/-- MAC_LTAG at MAC offset. -/
abbrev MAC_LTAG (i0 : Nat) : Nat := 0x140080 + 0x1000 * i0
abbrev MAC_LTAG_INS (i0 : Nat) : Field := ⟨(MAC_LTAG i0), 0, 1⟩
abbrev MAC_LTAG_AXIS (i0 : Nat) : Field := ⟨(MAC_LTAG i0), 1, 4⟩
abbrev MAC_LTAG_RES (i0 : Nat) : Field := ⟨(MAC_LTAG i0), 5, 3⟩
abbrev MAC_LTAG_CLASS (i0 : Nat) : Field := ⟨(MAC_LTAG i0), 8, 9⟩
abbrev MAC_LTAG_STRIP (i0 : Nat) : Field := ⟨(MAC_LTAG i0), 17, 1⟩
/-- MAC_TSCNT at MAC offset. -/
abbrev MAC_TSCNT (i0 : Nat) : Nat := 0x140090 + 0x1000 * i0
abbrev MAC_TSCNT_CNT (i0 : Nat) : Field := ⟨(MAC_TSCNT i0), 0, 6⟩
abbrev MAC_TSCNT_POP (i0 : Nat) : Field := ⟨(MAC_TSCNT i0), 6, 1⟩
/-- MAC_TSREC0 at MAC offset. -/
abbrev MAC_TSREC0 (i0 : Nat) : Nat := 0x1400a0 + 0x1000 * i0
abbrev MAC_TSREC0_STW (i0 : Nat) : Field := ⟨(MAC_TSREC0 i0), 0, 72⟩
/-- MAC_TSREC1 at MAC offset. -/
abbrev MAC_TSREC1 (i0 : Nat) : Nat := 0x1400b0 + 0x1000 * i0
abbrev MAC_TSREC1_VALID (i0 : Nat) : Field := ⟨(MAC_TSREC1 i0), 0, 1⟩
abbrev MAC_TSREC1_OVF (i0 : Nat) : Field := ⟨(MAC_TSREC1 i0), 1, 1⟩
abbrev MAC_TSREC1_SEQID (i0 : Nat) : Field := ⟨(MAC_TSREC1 i0), 2, 16⟩
abbrev MAC_TSREC1_MSGT (i0 : Nat) : Field := ⟨(MAC_TSREC1 i0), 18, 4⟩
abbrev MAC_TSREC1_DOMN (i0 : Nat) : Field := ⟨(MAC_TSREC1 i0), 22, 8⟩
abbrev MAC_TSREC1_LOSTN (i0 : Nat) : Field := ⟨(MAC_TSREC1 i0), 30, 16⟩
abbrev MAC_TSREC1_LASTID (i0 : Nat) : Field := ⟨(MAC_TSREC1 i0), 46, 16⟩
/-- MAC_CAGE at MAC offset. -/
abbrev MAC_CAGE (i0 : Nat) : Nat := 0x1400c0 + 0x1000 * i0
abbrev MAC_CAGE_MODE (i0 : Nat) : Field := ⟨(MAC_CAGE i0), 0, 1⟩
/-- MAC_HALF at MAC offset. -/
abbrev MAC_HALF (i0 : Nat) : Nat := 0x1400d0 + 0x1000 * i0
abbrev MAC_HALF_BIT39 (i0 : Nat) : Field := ⟨(MAC_HALF i0), 0, 46⟩
/-- SDS_CTL at SDS offset. -/
abbrev SDS_CTL (i0 : Nat) : Nat := 0x100000 + 0x1000 * i0
abbrev SDS_CTL_RETRAIN (i0 : Nat) : Field := ⟨(SDS_CTL i0), 0, 1⟩
abbrev SDS_CTL_TXSQ (i0 : Nat) : Field := ⟨(SDS_CTL i0), 1, 1⟩
abbrev SDS_CTL_RXPOL (i0 : Nat) : Field := ⟨(SDS_CTL i0), 2, 1⟩
abbrev SDS_CTL_TXPOL (i0 : Nat) : Field := ⟨(SDS_CTL i0), 3, 1⟩
/-- SDS_CFG at SDS offset. -/
abbrev SDS_CFG (i0 : Nat) : Nat := 0x100010 + 0x1000 * i0
abbrev SDS_CFG_PEAKFIX (i0 : Nat) : Field := ⟨(SDS_CFG i0), 0, 4⟩
abbrev SDS_CFG_PEAKMODE (i0 : Nat) : Field := ⟨(SDS_CFG i0), 4, 1⟩
abbrev SDS_CFG_ADAPT (i0 : Nat) : Field := ⟨(SDS_CFG i0), 5, 1⟩
abbrev SDS_CFG_FOMMIN (i0 : Nat) : Field := ⟨(SDS_CFG i0), 6, 12⟩
abbrev SDS_CFG_HYST (i0 : Nat) : Field := ⟨(SDS_CFG i0), 18, 12⟩
abbrev SDS_CFG_TXPRE (i0 : Nat) : Field := ⟨(SDS_CFG i0), 30, 4⟩
abbrev SDS_CFG_TXPOST (i0 : Nat) : Field := ⟨(SDS_CFG i0), 34, 5⟩
abbrev SDS_CFG_TXAMP (i0 : Nat) : Field := ⟨(SDS_CFG i0), 39, 4⟩
/-- SDS_STAT at SDS offset. -/
abbrev SDS_STAT (i0 : Nat) : Nat := 0x100020 + 0x1000 * i0
abbrev SDS_STAT_STATE (i0 : Nat) : Field := ⟨(SDS_STAT i0), 0, 4⟩
abbrev SDS_STAT_PEAK (i0 : Nat) : Field := ⟨(SDS_STAT i0), 4, 4⟩
abbrev SDS_STAT_FOM (i0 : Nat) : Field := ⟨(SDS_STAT i0), 8, 12⟩
abbrev SDS_STAT_SD (i0 : Nat) : Field := ⟨(SDS_STAT i0), 20, 1⟩
abbrev SDS_STAT_RETIRED (i0 : Nat) : Field := ⟨(SDS_STAT i0), 21, 1⟩
abbrev SDS_STAT_PEERRET (i0 : Nat) : Field := ⟨(SDS_STAT i0), 22, 1⟩
abbrev SDS_STAT_PEER (i0 : Nat) : Field := ⟨(SDS_STAT i0), 23, 2⟩
abbrev SDS_STAT_RLANE (i0 : Nat) : Field := ⟨(SDS_STAT i0), 25, 2⟩
/-- SDS_CAUSE at SDS offset. -/
abbrev SDS_CAUSE (i0 : Nat) : Nat := 0x100030 + 0x1000 * i0
abbrev SDS_CAUSE_TRANS (i0 : Nat) : Field := ⟨(SDS_CAUSE i0), 0, 1⟩
abbrev SDS_CAUSE_RETIRE (i0 : Nat) : Field := ⟨(SDS_CAUSE i0), 1, 1⟩
abbrev SDS_CAUSE_TMO (i0 : Nat) : Field := ⟨(SDS_CAUSE i0), 2, 1⟩
abbrev SDS_CAUSE_CAPERR (i0 : Nat) : Field := ⟨(SDS_CAUSE i0), 3, 1⟩
abbrev SDS_CAUSE_ADAPT (i0 : Nat) : Field := ⟨(SDS_CAUSE i0), 4, 1⟩
abbrev SDS_CAUSE_STAGE (i0 : Nat) : Field := ⟨(SDS_CAUSE i0), 5, 3⟩
abbrev SDS_CAUSE_CAPCODE (i0 : Nat) : Field := ⟨(SDS_CAUSE i0), 8, 4⟩
/-- SDS_SKEW at SDS offset. -/
abbrev SDS_SKEW (i0 : Nat) : Nat := 0x100040 + 0x1000 * i0
abbrev SDS_SKEW_SKEW (i0 : Nat) : Field := ⟨(SDS_SKEW i0), 0, 20⟩
/-- SDS_TEST at SDS offset. -/
abbrev SDS_TEST (i0 : Nat) : Nat := 0x100050 + 0x1000 * i0
abbrev SDS_TEST_KIND (i0 : Nat) : Field := ⟨(SDS_TEST i0), 0, 2⟩
abbrev SDS_TEST_GO (i0 : Nat) : Field := ⟨(SDS_TEST i0), 2, 1⟩
abbrev SDS_TEST_STATUS (i0 : Nat) : Field := ⟨(SDS_TEST i0), 3, 3⟩
/-- SDS_TRES at SDS offset. -/
abbrev SDS_TRES (i0 : Nat) : Nat := 0x100060 + 0x1000 * i0
abbrev SDS_TRES_H (i0 : Nat) : Field := ⟨(SDS_TRES i0), 0, 6⟩
abbrev SDS_TRES_V (i0 : Nat) : Field := ⟨(SDS_TRES i0), 6, 6⟩
abbrev SDS_TRES_ERRS (i0 : Nat) : Field := ⟨(SDS_TRES i0), 12, 40⟩
/-- SDS_SSC at SDS offset. -/
abbrev SDS_SSC : Nat := 0x120070
abbrev SDS_SSC_EN : Field := ⟨SDS_SSC, 0, 1⟩
abbrev SDS_SSC_DEPTH : Field := ⟨SDS_SSC, 1, 4⟩
abbrev SDS_SSC_ACTIVE : Field := ⟨SDS_SSC, 5, 1⟩
/-- MAC_TSCAUSE at MAC offset. -/
abbrev MAC_TSCAUSE (i0 : Nat) : Nat := 0x1400e0 + 0x1000 * i0
abbrev MAC_TSCAUSE_RDY (i0 : Nat) : Field := ⟨(MAC_TSCAUSE i0), 0, 1⟩
abbrev MAC_TSCAUSE_OVF (i0 : Nat) : Field := ⟨(MAC_TSCAUSE i0), 1, 1⟩
abbrev MAC_TSCAUSE_HALF (i0 : Nat) : Field := ⟨(MAC_TSCAUSE i0), 2, 1⟩
/-- MAC_PTP at MAC offset. -/
abbrev MAC_PTP (i0 : Nat) : Nat := 0x140100 + 0x1000 * i0
abbrev MAC_PTP_ROLE (i0 : Nat) : Field := ⟨(MAC_PTP i0), 0, 3⟩
abbrev MAC_PTP_DOMA (i0 : Nat) : Field := ⟨(MAC_PTP i0), 3, 1⟩
abbrev MAC_PTP_DOMB (i0 : Nat) : Field := ⟨(MAC_PTP i0), 4, 1⟩
abbrev MAC_PTP_ONESTEP (i0 : Nat) : Field := ⟨(MAC_PTP i0), 5, 1⟩
abbrev MAC_PTP_TSQ (i0 : Nat) : Field := ⟨(MAC_PTP i0), 6, 1⟩
abbrev MAC_PTP_HCLASS (i0 : Nat) : Field := ⟨(MAC_PTP i0), 7, 3⟩
abbrev MAC_PTP_AUTHRX (i0 : Nat) : Field := ⟨(MAC_PTP i0), 10, 1⟩
abbrev MAC_PTP_AUTHTX (i0 : Nat) : Field := ⟨(MAC_PTP i0), 11, 1⟩
abbrev MAC_PTP_TXSPP (i0 : Nat) : Field := ⟨(MAC_PTP i0), 12, 2⟩
abbrev MAC_PTP_SYNCLOG (i0 : Nat) : Field := ⟨(MAC_PTP i0), 14, 4⟩
abbrev MAC_PTP_PDLOG (i0 : Nat) : Field := ⟨(MAC_PTP i0), 18, 4⟩
/-- MAC_PTPDLY at MAC offset. -/
abbrev MAC_PTPDLY (i0 : Nat) : Nat := 0x140110 + 0x1000 * i0
abbrev MAC_PTPDLY_TXEXT (i0 : Nat) : Field := ⟨(MAC_PTPDLY i0), 0, 20⟩
abbrev MAC_PTPDLY_RXEXT (i0 : Nat) : Field := ⟨(MAC_PTPDLY i0), 20, 20⟩
/-- MAC_ASYM at MAC offset. -/
abbrev MAC_ASYM (i0 : Nat) : Nat := 0x140120 + 0x1000 * i0
abbrev MAC_ASYM_ALPHA (i0 : Nat) : Field := ⟨(MAC_ASYM i0), 0, 32⟩
abbrev MAC_ASYM_CONST (i0 : Nat) : Field := ⟨(MAC_ASYM i0), 32, 32⟩
/-- MAC_PDLY at MAC offset. -/
abbrev MAC_PDLY (i0 : Nat) : Nat := 0x140130 + 0x1000 * i0
abbrev MAC_PDLY_MPD (i0 : Nat) : Field := ⟨(MAC_PDLY i0), 0, 48⟩
abbrev MAC_PDLY_VALID (i0 : Nat) : Field := ⟨(MAC_PDLY i0), 48, 1⟩
/-- MAC_PTPCAL at MAC offset. -/
abbrev MAC_PTPCAL (i0 : Nat) : Nat := 0x140140 + 0x1000 * i0
abbrev MAC_PTPCAL_TXCAL (i0 : Nat) : Field := ⟨(MAC_PTPCAL i0), 0, 20⟩
abbrev MAC_PTPCAL_RXCAL (i0 : Nat) : Field := ⟨(MAC_PTPCAL i0), 20, 20⟩
/-- MAC_LBK at MAC offset. -/
abbrev MAC_LBK (i0 : Nat) : Nat := 0x140150 + 0x1000 * i0
abbrev MAC_LBK_LOOPD (i0 : Nat) : Field := ⟨(MAC_LBK i0), 0, 24⟩
abbrev MAC_LBK_GO (i0 : Nat) : Field := ⟨(MAC_LBK i0), 24, 1⟩
abbrev MAC_LBK_STATUS (i0 : Nat) : Field := ⟨(MAC_LBK i0), 25, 3⟩
abbrev MAC_LBK_RESULT (i0 : Nat) : Field := ⟨(MAC_LBK i0), 28, 20⟩
/-- LAN_D_CFG at LAN offset. -/
abbrev LAN_D_CFG (i0 : Nat) : Nat := 0x50200 + 0x200 * i0
abbrev LAN_D_CFG_EN (i0 : Nat) : Field := ⟨(LAN_D_CFG i0), 0, 1⟩
abbrev LAN_D_CFG_DNUM (i0 : Nat) : Field := ⟨(LAN_D_CFG i0), 1, 8⟩
abbrev LAN_D_CFG_TRANS (i0 : Nat) : Field := ⟨(LAN_D_CFG i0), 9, 2⟩
abbrev LAN_D_CFG_DMECH (i0 : Nat) : Field := ⟨(LAN_D_CFG i0), 11, 1⟩
abbrev LAN_D_CFG_L1S (i0 : Nat) : Field := ⟨(LAN_D_CFG i0), 12, 1⟩
abbrev LAN_D_CFG_BW (i0 : Nat) : Field := ⟨(LAN_D_CFG i0), 13, 3⟩
abbrev LAN_D_CFG_DRLOG (i0 : Nat) : Field := ⟨(LAN_D_CFG i0), 16, 4⟩
/-- LAN_D_SEL at LAN offset. -/
abbrev LAN_D_SEL (i0 : Nat) : Nat := 0x50210 + 0x200 * i0
abbrev LAN_D_SEL_SEL (i0 : Nat) : Field := ⟨(LAN_D_SEL i0), 0, 2⟩
abbrev LAN_D_SEL_FB (i0 : Nat) : Field := ⟨(LAN_D_SEL i0), 2, 1⟩
/-- LAN_D_M0 at LAN offset. -/
abbrev LAN_D_M0 (i0 : Nat) (i1 : Nat) : Nat := 0x50220 + 0x200 * i0 + 0x20 * i1
abbrev LAN_D_M0_CLKID (i0 : Nat) (i1 : Nat) : Field := ⟨(LAN_D_M0 i0 i1), 0, 64⟩
/-- LAN_D_M1 at LAN offset. -/
abbrev LAN_D_M1 (i0 : Nat) (i1 : Nat) : Nat := 0x50230 + 0x200 * i0 + 0x20 * i1
abbrev LAN_D_M1_PORTNUM (i0 : Nat) (i1 : Nat) : Field := ⟨(LAN_D_M1 i0 i1), 0, 16⟩
abbrev LAN_D_M1_INPORT (i0 : Nat) (i1 : Nat) : Field := ⟨(LAN_D_M1 i0 i1), 16, 5⟩
abbrev LAN_D_M1_VALID (i0 : Nat) (i1 : Nat) : Field := ⟨(LAN_D_M1 i0 i1), 21, 1⟩
/-- LAN_D_STAT at LAN offset. -/
abbrev LAN_D_STAT (i0 : Nat) : Nat := 0x50260 + 0x200 * i0
abbrev LAN_D_STAT_STATE (i0 : Nat) : Field := ⟨(LAN_D_STAT i0), 0, 3⟩
abbrev LAN_D_STAT_USEA (i0 : Nat) : Field := ⟨(LAN_D_STAT i0), 3, 1⟩
abbrev LAN_D_STAT_USEB (i0 : Nat) : Field := ⟨(LAN_D_STAT i0), 4, 1⟩
abbrev LAN_D_STAT_L1OK (i0 : Nat) : Field := ⟨(LAN_D_STAT i0), 5, 1⟩
abbrev LAN_D_STAT_BWEFF (i0 : Nat) : Field := ⟨(LAN_D_STAT i0), 6, 3⟩
/-- LAN_D_LIM at LAN offset. -/
abbrev LAN_D_LIM (i0 : Nat) : Nat := 0x50270 + 0x200 * i0
abbrev LAN_D_LIM_STEPLIM (i0 : Nat) : Field := ⟨(LAN_D_LIM i0), 0, 24⟩
abbrev LAN_D_LIM_QLIM (i0 : Nat) : Field := ⟨(LAN_D_LIM i0), 24, 16⟩
abbrev LAN_D_LIM_TMO (i0 : Nat) : Field := ⟨(LAN_D_LIM i0), 40, 16⟩
/-- LAN_D_DOFF at LAN offset. -/
abbrev LAN_D_DOFF (i0 : Nat) : Nat := 0x50280 + 0x200 * i0
abbrev LAN_D_DOFF_DOFF (i0 : Nat) : Field := ⟨(LAN_D_DOFF i0), 0, 64⟩
/-- LAN_D_OFF at LAN offset. -/
abbrev LAN_D_OFF (i0 : Nat) (i1 : Nat) : Nat := 0x50290 + 0x200 * i0 + 0x10 * i1
abbrev LAN_D_OFF_OFS (i0 : Nat) (i1 : Nat) : Field := ⟨(LAN_D_OFF i0 i1), 0, 48⟩
/-- LAN_D_MPD at LAN offset. -/
abbrev LAN_D_MPD (i0 : Nat) : Nat := 0x502b0 + 0x200 * i0
abbrev LAN_D_MPD_MPD (i0 : Nat) : Field := ⟨(LAN_D_MPD i0), 0, 48⟩
/-- LAN_D_CAUSE at LAN offset. -/
abbrev LAN_D_CAUSE (i0 : Nat) : Nat := 0x502c0 + 0x200 * i0
abbrev LAN_D_CAUSE_STATE (i0 : Nat) : Field := ⟨(LAN_D_CAUSE i0), 0, 1⟩
abbrev LAN_D_CAUSE_USECHG (i0 : Nat) : Field := ⟨(LAN_D_CAUSE i0), 1, 1⟩
abbrev LAN_D_CAUSE_FBSW (i0 : Nat) : Field := ⟨(LAN_D_CAUSE i0), 2, 1⟩
abbrev LAN_D_CAUSE_L1ERR (i0 : Nat) : Field := ⟨(LAN_D_CAUSE i0), 3, 1⟩
abbrev LAN_D_CAUSE_AUTHF (i0 : Nat) : Field := ⟨(LAN_D_CAUSE i0), 4, 1⟩
/-- LAN_TSW at LAN offset. -/
abbrev LAN_TSW : Nat := 0x50180
abbrev LAN_TSW_LIM : Field := ⟨LAN_TSW, 0, 32⟩
abbrev LAN_TSW_AUTO : Field := ⟨LAN_TSW, 32, 1⟩
abbrev LAN_TSW_BUSY : Field := ⟨LAN_TSW, 33, 1⟩
abbrev LAN_TSW_REFUSED : Field := ⟨LAN_TSW, 34, 1⟩
abbrev LAN_TSW_RCODE : Field := ⟨LAN_TSW, 35, 3⟩
abbrev LAN_TSW_FROM : Field := ⟨LAN_TSW, 38, 4⟩
/-- LAN_CLKID at LAN offset. -/
abbrev LAN_CLKID : Nat := 0x50190
abbrev LAN_CLKID_ID : Field := ⟨LAN_CLKID, 0, 64⟩
/-- LAN_NTCAUSE at LAN offset. -/
abbrev LAN_NTCAUSE : Nat := 0x501a0
abbrev LAN_NTCAUSE_SWDONE : Field := ⟨LAN_NTCAUSE, 0, 1⟩
abbrev LAN_NTCAUSE_SWREF : Field := ⟨LAN_NTCAUSE, 1, 1⟩
abbrev LAN_NTCAUSE_AUTOSW : Field := ⟨LAN_NTCAUSE, 2, 1⟩
/-- LAN_SPP at LAN offset. -/
abbrev LAN_SPP (i0 : Nat) : Nat := 0x50600 + 0x10 * i0
abbrev LAN_SPP_SPP (i0 : Nat) : Field := ⟨(LAN_SPP i0), 0, 8⟩
abbrev LAN_SPP_KEYID (i0 : Nat) : Field := ⟨(LAN_SPP i0), 8, 32⟩
abbrev LAN_SPP_SLOT (i0 : Nat) : Field := ⟨(LAN_SPP i0), 40, 4⟩
abbrev LAN_SPP_EN (i0 : Nat) : Field := ⟨(LAN_SPP i0), 44, 1⟩
/-- CMP_CFG at CMP offset. -/
abbrev CMP_CFG : Nat := 0x40000
abbrev CMP_CFG_AGREE : Field := ⟨CMP_CFG, 0, 24⟩
abbrev CMP_CFG_QTIME : Field := ⟨CMP_CFG, 24, 12⟩
abbrev CMP_CFG_WTR : Field := ⟨CMP_CFG, 36, 12⟩
abbrev CMP_CFG_REVERT : Field := ⟨CMP_CFG, 48, 1⟩
/-- CMP_HCFG at CMP offset. -/
abbrev CMP_HCFG : Nat := 0x40010
abbrev CMP_HCFG_HAVG : Field := ⟨CMP_HCFG, 0, 16⟩
abbrev CMP_HCFG_DWIN : Field := ⟨CMP_HCFG, 16, 8⟩
abbrev CMP_HCFG_MAXT : Field := ⟨CMP_HCFG, 24, 24⟩
/-- CMP_STAT at CMP offset. -/
abbrev CMP_STAT : Nat := 0x40020
abbrev CMP_STAT_STATE : Field := ⟨CMP_STAT, 0, 3⟩
abbrev CMP_STAT_STAGE : Field := ⟨CMP_STAT, 3, 2⟩
abbrev CMP_STAT_SEL : Field := ⟨CMP_STAT, 5, 4⟩
abbrev CMP_STAT_TARGET : Field := ⟨CMP_STAT, 9, 4⟩
abbrev CMP_STAT_SWPEND : Field := ⟨CMP_STAT, 13, 1⟩
abbrev CMP_STAT_HVALID : Field := ⟨CMP_STAT, 14, 1⟩
abbrev CMP_STAT_DVALID : Field := ⟨CMP_STAT, 15, 1⟩
abbrev CMP_STAT_DISAG : Field := ⟨CMP_STAT, 16, 1⟩
/-- CMP_CAUSE at CMP offset. -/
abbrev CMP_CAUSE : Nat := 0x40030
abbrev CMP_CAUSE_STATE : Field := ⟨CMP_CAUSE, 0, 1⟩
abbrev CMP_CAUSE_COMMIT : Field := ⟨CMP_CAUSE, 1, 1⟩
abbrev CMP_CAUSE_ABORT : Field := ⟨CMP_CAUSE, 2, 1⟩
abbrev CMP_CAUSE_INCHG : Field := ⟨CMP_CAUSE, 3, 1⟩
abbrev CMP_CAUSE_STRIKE : Field := ⟨CMP_CAUSE, 4, 1⟩
abbrev CMP_CAUSE_RETIRE : Field := ⟨CMP_CAUSE, 5, 1⟩
abbrev CMP_CAUSE_DISAG : Field := ⟨CMP_CAUSE, 6, 1⟩
abbrev CMP_CAUSE_HOLDIN : Field := ⟨CMP_CAUSE, 7, 1⟩
abbrev CMP_CAUSE_HOLDOUT : Field := ⟨CMP_CAUSE, 8, 1⟩
abbrev CMP_CAUSE_INPUT : Field := ⟨CMP_CAUSE, 9, 4⟩
abbrev CMP_CAUSE_DISB : Field := ⟨CMP_CAUSE, 13, 4⟩
/-- CMP_OUTFREQ at CMP offset. -/
abbrev CMP_OUTFREQ : Nat := 0x40040
abbrev CMP_OUTFREQ_FREQ : Field := ⟨CMP_OUTFREQ, 0, 32⟩
/-- CMP_PRED at CMP offset. -/
abbrev CMP_PRED : Nat := 0x40050
abbrev CMP_PRED_YPRED : Field := ⟨CMP_PRED, 0, 32⟩
abbrev CMP_PRED_DRIFT : Field := ⟨CMP_PRED, 32, 32⟩
/-- CMP_PHERR at CMP offset. -/
abbrev CMP_PHERR : Nat := 0x40060
abbrev CMP_PHERR_PHERR : Field := ⟨CMP_PHERR, 0, 32⟩
/-- CMP_FRTRIM at CMP offset. -/
abbrev CMP_FRTRIM : Nat := 0x40070
abbrev CMP_FRTRIM_TRIM : Field := ⟨CMP_FRTRIM, 0, 32⟩
/-- CMP_HTIME at CMP offset. -/
abbrev CMP_HTIME : Nat := 0x40080
abbrev CMP_HTIME_SEC : Field := ⟨CMP_HTIME, 0, 32⟩
/-- CMP_IN_CFG at CMP offset. -/
abbrev CMP_IN_CFG (i0 : Nat) : Nat := 0x41000 + 0x100 * i0
abbrev CMP_IN_CFG_EN (i0 : Nat) : Field := ⟨(CMP_IN_CFG i0), 0, 1⟩
abbrev CMP_IN_CFG_SRC (i0 : Nat) : Field := ⟨(CMP_IN_CFG i0), 1, 2⟩
abbrev CMP_IN_CFG_LANE (i0 : Nat) : Field := ⟨(CMP_IN_CFG i0), 3, 5⟩
abbrev CMP_IN_CFG_RANK (i0 : Nat) : Field := ⟨(CMP_IN_CFG i0), 8, 4⟩
abbrev CMP_IN_CFG_PHIT (i0 : Nat) : Field := ⟨(CMP_IN_CFG i0), 12, 16⟩
/-- CMP_IN_LIM at CMP offset. -/
abbrev CMP_IN_LIM (i0 : Nat) : Nat := 0x41010 + 0x100 * i0
abbrev CMP_IN_LIM_LIM (i0 : Nat) : Field := ⟨(CMP_IN_LIM i0), 0, 24⟩
/-- CMP_IN_STAT at CMP offset. -/
abbrev CMP_IN_STAT (i0 : Nat) : Nat := 0x41020 + 0x100 * i0
abbrev CMP_IN_STAT_STATE (i0 : Nat) : Field := ⟨(CMP_IN_STAT i0), 0, 3⟩
abbrev CMP_IN_STAT_TLEFT (i0 : Nat) : Field := ⟨(CMP_IN_STAT i0), 3, 12⟩
abbrev CMP_IN_STAT_WTR (i0 : Nat) : Field := ⟨(CMP_IN_STAT i0), 15, 1⟩
abbrev CMP_IN_STAT_DCAUSE (i0 : Nat) : Field := ⟨(CMP_IN_STAT i0), 16, 3⟩
abbrev CMP_IN_STAT_RETIRED (i0 : Nat) : Field := ⟨(CMP_IN_STAT i0), 19, 1⟩
abbrev CMP_IN_STAT_DISAG (i0 : Nat) : Field := ⟨(CMP_IN_STAT i0), 20, 1⟩
/-- CMP_IN_FREQ at CMP offset. -/
abbrev CMP_IN_FREQ (i0 : Nat) : Nat := 0x41030 + 0x100 * i0
abbrev CMP_IN_FREQ_FREQ (i0 : Nat) : Field := ⟨(CMP_IN_FREQ i0), 0, 32⟩
abbrev CMP_IN_FREQ_VALID (i0 : Nat) : Field := ⟨(CMP_IN_FREQ i0), 32, 1⟩
/-- PIO_OUT_CTL at IO offset. -/
abbrev PIO_OUT_CTL (i0 : Nat) : Nat := 0x90000 + 0x100 * i0
abbrev PIO_OUT_CTL_EN (i0 : Nat) : Field := ⟨(PIO_OUT_CTL i0), 0, 1⟩
abbrev PIO_OUT_CTL_MODE (i0 : Nat) : Field := ⟨(PIO_OUT_CTL i0), 1, 1⟩
abbrev PIO_OUT_CTL_ASRC (i0 : Nat) : Field := ⟨(PIO_OUT_CTL i0), 2, 3⟩
abbrev PIO_OUT_CTL_TRACK (i0 : Nat) : Field := ⟨(PIO_OUT_CTL i0), 5, 1⟩
abbrev PIO_OUT_CTL_POL (i0 : Nat) : Field := ⟨(PIO_OUT_CTL i0), 6, 1⟩
/-- PIO_OUT_PER at IO offset. -/
abbrev PIO_OUT_PER (i0 : Nat) : Nat := 0x90010 + 0x100 * i0
abbrev PIO_OUT_PER_PER (i0 : Nat) : Field := ⟨(PIO_OUT_PER i0), 0, 32⟩
/-- PIO_OUT_WID at IO offset. -/
abbrev PIO_OUT_WID (i0 : Nat) : Nat := 0x90020 + 0x100 * i0
abbrev PIO_OUT_WID_WID (i0 : Nat) : Field := ⟨(PIO_OUT_WID i0), 0, 32⟩
/-- PIO_OUT_OFS at IO offset. -/
abbrev PIO_OUT_OFS (i0 : Nat) : Nat := 0x90030 + 0x100 * i0
abbrev PIO_OUT_OFS_OFS (i0 : Nat) : Field := ⟨(PIO_OUT_OFS i0), 0, 40⟩
/-- PIO_OUT_STEP at IO offset. -/
abbrev PIO_OUT_STEP (i0 : Nat) : Nat := 0x90040 + 0x100 * i0
abbrev PIO_OUT_STEP_AMT (i0 : Nat) : Field := ⟨(PIO_OUT_STEP i0), 0, 40⟩
abbrev PIO_OUT_STEP_AT (i0 : Nat) : Field := ⟨(PIO_OUT_STEP i0), 40, 1⟩
abbrev PIO_OUT_STEP_GO (i0 : Nat) : Field := ⟨(PIO_OUT_STEP i0), 41, 1⟩
abbrev PIO_OUT_STEP_PEND (i0 : Nat) : Field := ⟨(PIO_OUT_STEP i0), 42, 1⟩
/-- PIO_OUT_STAT at IO offset. -/
abbrev PIO_OUT_STAT (i0 : Nat) : Nat := 0x90050 + 0x100 * i0
abbrev PIO_OUT_STAT_RUN (i0 : Nat) : Field := ⟨(PIO_OUT_STAT i0), 0, 1⟩
abbrev PIO_OUT_STAT_ALIGNED (i0 : Nat) : Field := ⟨(PIO_OUT_STAT i0), 1, 1⟩
abbrev PIO_OUT_STAT_DROP (i0 : Nat) : Field := ⟨(PIO_OUT_STAT i0), 2, 8⟩
abbrev PIO_OUT_STAT_AERR (i0 : Nat) : Field := ⟨(PIO_OUT_STAT i0), 10, 32⟩
abbrev PIO_OUT_STAT_CLR (i0 : Nat) : Field := ⟨(PIO_OUT_STAT i0), 42, 1⟩
/-- CLK_MAINCTL at CLK offset. -/
abbrev CLK_MAINCTL : Nat := 0x30000
abbrev CLK_MAINCTL_RELOCK : Field := ⟨CLK_MAINCTL, 0, 1⟩
abbrev CLK_MAINCTL_FULL : Field := ⟨CLK_MAINCTL, 1, 1⟩
/-- CLK_MAINSTAT at CLK offset. -/
abbrev CLK_MAINSTAT : Nat := 0x30010
abbrev CLK_MAINSTAT_STATE : Field := ⟨CLK_MAINSTAT, 0, 3⟩
abbrev CLK_MAINSTAT_BAND : Field := ⟨CLK_MAINSTAT, 3, 4⟩
abbrev CLK_MAINSTAT_CODE : Field := ⟨CLK_MAINSTAT, 7, 6⟩
abbrev CLK_MAINSTAT_TUNE : Field := ⟨CLK_MAINSTAT, 13, 10⟩
abbrev CLK_MAINSTAT_ULCNT : Field := ⟨CLK_MAINSTAT, 23, 8⟩
abbrev CLK_MAINSTAT_REFUSED : Field := ⟨CLK_MAINSTAT, 31, 1⟩
abbrev CLK_MAINSTAT_SLEWING : Field := ⟨CLK_MAINSTAT, 32, 1⟩
abbrev CLK_MAINSTAT_SRES : Field := ⟨CLK_MAINSTAT, 33, 20⟩
abbrev CLK_MAINSTAT_TRIM : Field := ⟨CLK_MAINSTAT, 53, 8⟩
/-- CLK_TICSTAT at CLK offset. -/
abbrev CLK_TICSTAT : Nat := 0x30020
abbrev CLK_TICSTAT_STATE : Field := ⟨CLK_TICSTAT, 0, 3⟩
abbrev CLK_TICSTAT_BAND : Field := ⟨CLK_TICSTAT, 3, 4⟩
abbrev CLK_TICSTAT_CODE : Field := ⟨CLK_TICSTAT, 7, 6⟩
abbrev CLK_TICSTAT_TUNE : Field := ⟨CLK_TICSTAT, 13, 10⟩
abbrev CLK_TICSTAT_ULCNT : Field := ⟨CLK_TICSTAT, 23, 8⟩
/-- CLK_HOSTSTAT at CLK offset. -/
abbrev CLK_HOSTSTAT : Nat := 0x30030
abbrev CLK_HOSTSTAT_STATE : Field := ⟨CLK_HOSTSTAT, 0, 3⟩
abbrev CLK_HOSTSTAT_BAND : Field := ⟨CLK_HOSTSTAT, 3, 4⟩
abbrev CLK_HOSTSTAT_CODE : Field := ⟨CLK_HOSTSTAT, 7, 6⟩
abbrev CLK_HOSTSTAT_TUNE : Field := ⟨CLK_HOSTSTAT, 13, 10⟩
abbrev CLK_HOSTSTAT_ULCNT : Field := ⟨CLK_HOSTSTAT, 23, 8⟩
/-- CLK_OUTEN at CLK offset. -/
abbrev CLK_OUTEN : Nat := 0x30040
abbrev CLK_OUTEN_EN : Field := ⟨CLK_OUTEN, 0, 11⟩
/-- CLK_OUTSTAT at CLK offset. -/
abbrev CLK_OUTSTAT : Nat := 0x30050
abbrev CLK_OUTSTAT_RUN : Field := ⟨CLK_OUTSTAT, 0, 11⟩
/-- CLK_CAUSE at CLK offset. -/
abbrev CLK_CAUSE : Nat := 0x30060
abbrev CLK_CAUSE_REFLOSS : Field := ⟨CLK_CAUSE, 0, 1⟩
abbrev CLK_CAUSE_UNLOCK : Field := ⟨CLK_CAUSE, 1, 1⟩
abbrev CLK_CAUSE_NOBAND : Field := ⟨CLK_CAUSE, 2, 1⟩
abbrev CLK_CAUSE_RAIL : Field := ⟨CLK_CAUSE, 3, 1⟩
abbrev CLK_CAUSE_DOMFREQ : Field := ⟨CLK_CAUSE, 4, 1⟩
abbrev CLK_CAUSE_RELOCKED : Field := ⟨CLK_CAUSE, 5, 1⟩
abbrev CLK_CAUSE_PLL : Field := ⟨CLK_CAUSE, 6, 2⟩
abbrev CLK_CAUSE_DOM : Field := ⟨CLK_CAUSE, 8, 4⟩
/-- CLK_MON at CLK offset. -/
abbrev CLK_MON : Nat := 0x30070
abbrev CLK_MON_FAIL : Field := ⟨CLK_MON, 0, 11⟩
/-- CLK_BAND at CLK offset. -/
abbrev CLK_BAND (i0 : Nat) (i1 : Nat) : Nat := 0x31000 + 0x100 * i0 + 0x10 * i1
abbrev CLK_BAND_CODE (i0 : Nat) (i1 : Nat) : Field := ⟨(CLK_BAND i0 i1), 0, 6⟩
abbrev CLK_BAND_TMIN (i0 : Nat) (i1 : Nat) : Field := ⟨(CLK_BAND i0 i1), 6, 8⟩
abbrev CLK_BAND_TMAX (i0 : Nat) (i1 : Nat) : Field := ⟨(CLK_BAND i0 i1), 14, 8⟩
abbrev CLK_BAND_VALID (i0 : Nat) (i1 : Nat) : Field := ⟨(CLK_BAND i0 i1), 22, 1⟩
/-- TIC_CTL at TIC offset. -/
abbrev TIC_CTL : Nat := 0x60000
abbrev TIC_CTL_EN : Field := ⟨TIC_CTL, 0, 1⟩
abbrev TIC_CTL_ARM : Field := ⟨TIC_CTL, 1, 1⟩
abbrev TIC_CTL_REPEAT : Field := ⟨TIC_CTL, 2, 1⟩
abbrev TIC_CTL_SSRC : Field := ⟨TIC_CTL, 3, 4⟩
abbrev TIC_CTL_SFALL : Field := ⟨TIC_CTL, 7, 1⟩
abbrev TIC_CTL_STOPS : Field := ⟨TIC_CTL, 8, 11⟩
abbrev TIC_CTL_PFALL : Field := ⟨TIC_CTL, 19, 1⟩
abbrev TIC_CTL_NSTOP : Field := ⟨TIC_CTL, 20, 4⟩
abbrev TIC_CTL_TMO : Field := ⟨TIC_CTL, 24, 14⟩
/-- TIC_ARMAT at TIC offset. -/
abbrev TIC_ARMAT : Nat := 0x60010
abbrev TIC_ARMAT_STW : Field := ⟨TIC_ARMAT, 0, 72⟩
/-- TIC_STAT at TIC offset. -/
abbrev TIC_STAT : Nat := 0x60020
abbrev TIC_STAT_WARM : Field := ⟨TIC_STAT, 0, 1⟩
abbrev TIC_STAT_BUSY : Field := ⟨TIC_STAT, 1, 1⟩
abbrev TIC_STAT_RUNNING : Field := ⟨TIC_STAT, 2, 1⟩
abbrev TIC_STAT_RCNT : Field := ⟨TIC_STAT, 3, 3⟩
abbrev TIC_STAT_MISSED : Field := ⟨TIC_STAT, 6, 8⟩
abbrev TIC_STAT_CLOSE : Field := ⟨TIC_STAT, 14, 8⟩
abbrev TIC_STAT_CLR : Field := ⟨TIC_STAT, 22, 1⟩
/-- TIC_CAUSE at TIC offset. -/
abbrev TIC_CAUSE : Nat := 0x60030
abbrev TIC_CAUSE_DONE : Field := ⟨TIC_CAUSE, 0, 1⟩
abbrev TIC_CAUSE_WARMCHG : Field := ⟨TIC_CAUSE, 1, 1⟩
abbrev TIC_CAUSE_REF : Field := ⟨TIC_CAUSE, 2, 1⟩
/-- TIC_OCXO at TIC offset. -/
abbrev TIC_OCXO : Nat := 0x60040
abbrev TIC_OCXO_WSEC : Field := ⟨TIC_OCXO, 0, 16⟩
/-- TIC_RHDR at TIC offset. -/
abbrev TIC_RHDR : Nat := 0x60050
abbrev TIC_RHDR_VALID : Field := ⟨TIC_RHDR, 0, 1⟩
abbrev TIC_RHDR_STATUS : Field := ⟨TIC_RHDR, 1, 3⟩
abbrev TIC_RHDR_NGOT : Field := ⟨TIC_RHDR, 4, 4⟩
abbrev TIC_RHDR_COLD : Field := ⟨TIC_RHDR, 8, 1⟩
abbrev TIC_RHDR_PRESENT : Field := ⟨TIC_RHDR, 9, 1⟩
abbrev TIC_RHDR_SEQ : Field := ⟨TIC_RHDR, 16, 16⟩
abbrev TIC_RHDR_SRCk : Field := ⟨TIC_RHDR, 32, 32⟩
/-- TIC_RSTART at TIC offset. -/
abbrev TIC_RSTART : Nat := 0x60060
abbrev TIC_RSTART_STW : Field := ⟨TIC_RSTART, 0, 72⟩
/-- TIC_RSTOP at TIC offset. -/
abbrev TIC_RSTOP (i0 : Nat) : Nat := 0x60070 + 0x10 * i0
abbrev TIC_RSTOP_INT (i0 : Nat) : Field := ⟨(TIC_RSTOP i0), 0, 50⟩
/-- TIC_RPOP at TIC offset. -/
abbrev TIC_RPOP : Nat := 0x600f0
abbrev TIC_RPOP_POP : Field := ⟨TIC_RPOP, 0, 1⟩
/-- TIC_CHOFS at TIC offset. -/
abbrev TIC_CHOFS (i0 : Nat) : Nat := 0x60100 + 0x10 * i0
abbrev TIC_CHOFS_OFS (i0 : Nat) : Field := ⟨(TIC_CHOFS i0), 0, 16⟩
/-- CAL_CTL at CAL offset. -/
abbrev CAL_CTL : Nat := 0x70000
abbrev CAL_CTL_EN : Field := ⟨CAL_CTL, 0, 1⟩
abbrev CAL_CTL_AUTO : Field := ⟨CAL_CTL, 1, 1⟩
abbrev CAL_CTL_AINT : Field := ⟨CAL_CTL, 2, 16⟩
/-- CAL_REQ at CAL offset. -/
abbrev CAL_REQ : Nat := 0x70010
abbrev CAL_REQ_KIND : Field := ⟨CAL_REQ, 0, 4⟩
abbrev CAL_REQ_UNIT : Field := ⟨CAL_REQ, 4, 6⟩
abbrev CAL_REQ_GO : Field := ⟨CAL_REQ, 10, 1⟩
/-- CAL_STAT at CAL offset. -/
abbrev CAL_STAT : Nat := 0x70020
abbrev CAL_STAT_BUSY : Field := ⟨CAL_STAT, 0, 1⟩
abbrev CAL_STAT_KIND : Field := ⟨CAL_STAT, 1, 4⟩
abbrev CAL_STAT_UNIT : Field := ⟨CAL_STAT, 5, 6⟩
abbrev CAL_STAT_QDEPTH : Field := ⟨CAL_STAT, 11, 3⟩
abbrev CAL_STAT_SLOTS : Field := ⟨CAL_STAT, 14, 20⟩
/-- CAL_CAUSE at CAL offset. -/
abbrev CAL_CAUSE : Nat := 0x70030
abbrev CAL_CAUSE_DONE : Field := ⟨CAL_CAUSE, 0, 1⟩
abbrev CAL_CAUSE_FAIL : Field := ⟨CAL_CAUSE, 1, 1⟩
abbrev CAL_CAUSE_KIND : Field := ⟨CAL_CAUSE, 2, 4⟩
abbrev CAL_CAUSE_UNIT : Field := ⟨CAL_CAUSE, 6, 6⟩
abbrev CAL_CAUSE_CODE : Field := ⟨CAL_CAUSE, 12, 3⟩
/-- CAL_SPARE at CAL offset. -/
abbrev CAL_SPARE : Nat := 0x70040
abbrev CAL_SPARE_TACSP : Field := ⟨CAL_SPARE, 0, 16⟩
abbrev CAL_SPARE_TACBAD : Field := ⟨CAL_SPARE, 16, 16⟩
abbrev CAL_SPARE_DLBAD : Field := ⟨CAL_SPARE, 32, 12⟩
abbrev CAL_SPARE_DLACT : Field := ⟨CAL_SPARE, 44, 6⟩
/-- CAL_TAC at CAL offset. -/
abbrev CAL_TAC (i0 : Nat) : Nat := 0x70100 + 0x10 * i0
abbrev CAL_TAC_OFS (i0 : Nat) : Field := ⟨(CAL_TAC i0), 0, 24⟩
abbrev CAL_TAC_LSB (i0 : Nat) : Field := ⟨(CAL_TAC i0), 24, 24⟩
abbrev CAL_TAC_ROLE (i0 : Nat) : Field := ⟨(CAL_TAC i0), 48, 5⟩
/-- CAL_DL at CAL offset. -/
abbrev CAL_DL (i0 : Nat) : Nat := 0x70200 + 0x10 * i0
abbrev CAL_DL_STEP (i0 : Nat) : Field := ⟨(CAL_DL i0), 0, 16⟩
abbrev CAL_DL_OFS (i0 : Nat) : Field := ⟨(CAL_DL i0), 16, 20⟩
/-- CAL_ENCREF at CAL offset. -/
abbrev CAL_ENCREF : Nat := 0x70300
abbrev CAL_ENCREF_AXS : Field := ⟨CAL_ENCREF, 0, 4⟩
abbrev CAL_ENCREF_AXR : Field := ⟨CAL_ENCREF, 4, 4⟩
abbrev CAL_ENCREF_VMIN : Field := ⟨CAL_ENCREF, 8, 40⟩
/-- CAL_BIST at CAL offset. -/
abbrev CAL_BIST : Nat := 0x70400
abbrev CAL_BIST_GO : Field := ⟨CAL_BIST, 0, 1⟩
abbrev CAL_BIST_RUN : Field := ⟨CAL_BIST, 1, 1⟩
abbrev CAL_BIST_FAILAREA : Field := ⟨CAL_BIST, 2, 8⟩
/-- STS_SNAP_AT at STS offset. -/
abbrev STS_SNAP_AT : Nat := 0x380000
abbrev STS_SNAP_AT_STW : Field := ⟨STS_SNAP_AT, 0, 72⟩
/-- STS_SNAP_CTL at STS offset. -/
abbrev STS_SNAP_CTL : Nat := 0x380010
abbrev STS_SNAP_CTL_ARM : Field := ⟨STS_SNAP_CTL, 0, 1⟩
abbrev STS_SNAP_CTL_NOW : Field := ⟨STS_SNAP_CTL, 1, 1⟩
abbrev STS_SNAP_CTL_CANCEL : Field := ⟨STS_SNAP_CTL, 2, 1⟩
/-- STS_SNAPSTAT at STS offset. -/
abbrev STS_SNAPSTAT : Nat := 0x380020
abbrev STS_SNAPSTAT_ARMED : Field := ⟨STS_SNAPSTAT, 0, 1⟩
abbrev STS_SNAPSTAT_OWNER : Field := ⟨STS_SNAPSTAT, 1, 5⟩
abbrev STS_SNAPSTAT_CUR : Field := ⟨STS_SNAPSTAT, 6, 1⟩
abbrev STS_SNAPSTAT_REFUSED : Field := ⟨STS_SNAPSTAT, 7, 1⟩
abbrev STS_SNAPSTAT_SEQ : Field := ⟨STS_SNAPSTAT, 8, 32⟩
/-- STS_CAUSE at STS offset. -/
abbrev STS_CAUSE : Nat := 0x380030
abbrev STS_CAUSE_DONE : Field := ⟨STS_CAUSE, 0, 1⟩
abbrev STS_CAUSE_LATE : Field := ⟨STS_CAUSE, 1, 1⟩
/-- STS_HALFSUM at STS offset. -/
abbrev STS_HALFSUM : Nat := 0x380040
abbrev STS_HALFSUM_GROUP : Field := ⟨STS_HALFSUM, 0, 6⟩
/-- STS_BANK_HDR at STS offset. -/
abbrev STS_BANK_HDR (i0 : Nat) : Nat := 0x380080 + 0x20000 * i0
abbrev STS_BANK_HDR_SEQ (i0 : Nat) : Field := ⟨(STS_BANK_HDR i0), 0, 32⟩
abbrev STS_BANK_HDR_OWNER (i0 : Nat) : Field := ⟨(STS_BANK_HDR i0), 32, 5⟩
abbrev STS_BANK_HDR_LATE (i0 : Nat) : Field := ⟨(STS_BANK_HDR i0), 37, 1⟩
abbrev STS_BANK_HDR_OFFMASK (i0 : Nat) : Field := ⟨(STS_BANK_HDR i0), 38, 12⟩
abbrev STS_BANK_HDR_VALID (i0 : Nat) : Field := ⟨(STS_BANK_HDR i0), 50, 1⟩
/-- STS_BANK_LT at STS offset. -/
abbrev STS_BANK_LT (i0 : Nat) : Nat := 0x3800a0 + 0x20000 * i0
abbrev STS_BANK_LT_SEC (i0 : Nat) : Field := ⟨(STS_BANK_LT i0), 8, 64⟩
abbrev STS_BANK_LT_QUAL (i0 : Nat) : Field := ⟨(STS_BANK_LT i0), 4, 4⟩
abbrev STS_BANK_LT_DOM (i0 : Nat) : Field := ⟨(STS_BANK_LT i0), 0, 4⟩
/-- STS_BANK_LTL at STS offset. -/
abbrev STS_BANK_LTL (i0 : Nat) : Nat := 0x3800b0 + 0x20000 * i0
abbrev STS_BANK_LTL_NS (i0 : Nat) : Field := ⟨(STS_BANK_LTL i0), 42, 30⟩
abbrev STS_BANK_LTL_FRAC (i0 : Nat) : Field := ⟨(STS_BANK_LTL i0), 26, 16⟩
/-- PRF_CTL at PRF offset. -/
abbrev PRF_CTL : Nat := 0x3c0000
abbrev PRF_CTL_UREAD : Field := ⟨PRF_CTL, 0, 1⟩
abbrev PRF_CTL_FEN : Field := ⟨PRF_CTL, 1, 1⟩
/-- PRF_CAUSE at PRF offset. -/
abbrev PRF_CAUSE : Nat := 0x3c0010
abbrev PRF_CAUSE_ENG : Field := ⟨PRF_CAUSE, 0, 16⟩
abbrev PRF_CAUSE_FAB : Field := ⟨PRF_CAUSE, 16, 1⟩
/-- PRF_FABSEL at PRF offset. -/
abbrev PRF_FABSEL (i0 : Nat) : Nat := 0x3c0100 + 0x10 * i0
abbrev PRF_FABSEL_EVT (i0 : Nat) : Field := ⟨(PRF_FABSEL i0), 0, 5⟩
abbrev PRF_FABSEL_PRM (i0 : Nat) : Field := ⟨(PRF_FABSEL i0), 5, 6⟩
/-- PRF_FAB at PRF offset. -/
abbrev PRF_FAB (i0 : Nat) : Nat := 0x3c0200 + 0x10 * i0
abbrev PRF_FAB_COUNT (i0 : Nat) : Field := ⟨(PRF_FAB i0), 0, 40⟩
abbrev PRF_FAB_ACK (i0 : Nat) : Field := ⟨(PRF_FAB i0), 40, 1⟩
/-- PRF_ENG_SEL at PRF offset. -/
abbrev PRF_ENG_SEL (i0 : Nat) (i1 : Nat) : Nat := 0x3d0000 + 0x1000 * i0 + 0x10 * i1
abbrev PRF_ENG_SEL_EVT (i0 : Nat) (i1 : Nat) : Field := ⟨(PRF_ENG_SEL i0 i1), 0, 4⟩
/-- PRF_ENG_CNT at PRF offset. -/
abbrev PRF_ENG_CNT (i0 : Nat) (i1 : Nat) : Nat := 0x3d0100 + 0x1000 * i0 + 0x10 * i1
abbrev PRF_ENG_CNT_COUNT (i0 : Nat) (i1 : Nat) : Field := ⟨(PRF_ENG_CNT i0 i1), 0, 40⟩
abbrev PRF_ENG_CNT_ACK (i0 : Nat) (i1 : Nat) : Field := ⟨(PRF_ENG_CNT i0 i1), 40, 1⟩
/-- PRF_TRCTL at PRF offset. -/
abbrev PRF_TRCTL : Nat := 0x3e0000
abbrev PRF_TRCTL_EN : Field := ⟨PRF_TRCTL, 0, 1⟩
abbrev PRF_TRCTL_MODE : Field := ⟨PRF_TRCTL, 1, 1⟩
abbrev PRF_TRCTL_WRAP : Field := ⟨PRF_TRCTL, 2, 1⟩
abbrev PRF_TRCTL_ENGMASK : Field := ⟨PRF_TRCTL, 3, 16⟩
abbrev PRF_TRCTL_N : Field := ⟨PRF_TRCTL, 19, 20⟩
abbrev PRF_TRCTL_EVSEL : Field := ⟨PRF_TRCTL, 39, 4⟩
abbrev PRF_TRCTL_THRESH : Field := ⟨PRF_TRCTL, 43, 16⟩
abbrev PRF_TRCTL_CLR : Field := ⟨PRF_TRCTL, 59, 1⟩
/-- PRF_TRPC at PRF offset. -/
abbrev PRF_TRPC : Nat := 0x3e0010
abbrev PRF_TRPC_PC : Field := ⟨PRF_TRPC, 0, 15⟩
abbrev PRF_TRPC_ENG : Field := ⟨PRF_TRPC, 15, 4⟩
/-- PRF_TRSTAT at PRF offset. -/
abbrev PRF_TRSTAT : Nat := 0x3e0020
abbrev PRF_TRSTAT_COUNT : Field := ⟨PRF_TRSTAT, 0, 13⟩
abbrev PRF_TRSTAT_WPTR : Field := ⟨PRF_TRSTAT, 13, 12⟩
abbrev PRF_TRSTAT_FULL : Field := ⟨PRF_TRSTAT, 25, 1⟩
abbrev PRF_TRSTAT_LOST : Field := ⟨PRF_TRSTAT, 26, 32⟩
/-- PRF_TRIDX at PRF offset. -/
abbrev PRF_TRIDX : Nat := 0x3e0030
abbrev PRF_TRIDX_IDX : Field := ⟨PRF_TRIDX, 0, 12⟩
/-- PRF_TRW at PRF offset. -/
abbrev PRF_TRW (i0 : Nat) : Nat := 0x3e0040 + 0x10 * i0
abbrev PRF_TRW_W (i0 : Nat) : Field := ⟨(PRF_TRW i0), 0, 72⟩
/-- PAIR_CFG at PAIR offset. -/
abbrev PAIR_CFG : Nat := 0x400000
abbrev PAIR_CFG_EN : Field := ⟨PAIR_CFG, 0, 1⟩
abbrev PAIR_CFG_UNIT : Field := ⟨PAIR_CFG, 1, 1⟩
abbrev PAIR_CFG_PREF : Field := ⟨PAIR_CFG, 2, 1⟩
abbrev PAIR_CFG_REVERT : Field := ⟨PAIR_CFG, 3, 1⟩
abbrev PAIR_CFG_CHOLD : Field := ⟨PAIR_CFG, 4, 2⟩
abbrev PAIR_CFG_KSLOT : Field := ⟨PAIR_CFG, 6, 4⟩
abbrev PAIR_CFG_ARS : Field := ⟨PAIR_CFG, 10, 1⟩
/-- PAIR_DELAY at PAIR offset. -/
abbrev PAIR_DELAY : Nat := 0x400010
abbrev PAIR_DELAY_DELAY : Field := ⟨PAIR_DELAY, 0, 8⟩
/-- PAIR_WTR at PAIR offset. -/
abbrev PAIR_WTR : Nat := 0x400020
abbrev PAIR_WTR_WTR : Field := ⟨PAIR_WTR, 0, 16⟩
/-- PAIR_UPMASK at PAIR offset. -/
abbrev PAIR_UPMASK : Nat := 0x400030
abbrev PAIR_UPMASK_MASK : Field := ⟨PAIR_UPMASK, 0, 32⟩
/-- PAIR_AXSRC at PAIR offset. -/
abbrev PAIR_AXSRC : Nat := 0x400040
abbrev PAIR_AXSRC_SRC : Field := ⟨PAIR_AXSRC, 0, 32⟩
/-- PAIR_HCFG at PAIR offset. -/
abbrev PAIR_HCFG : Nat := 0x400050
abbrev PAIR_HCFG_HPEN : Field := ⟨PAIR_HCFG, 0, 8⟩
abbrev PAIR_HCFG_HDIFF : Field := ⟨PAIR_HCFG, 8, 8⟩
/-- PAIR_CTL at PAIR offset. -/
abbrev PAIR_CTL : Nat := 0x400060
abbrev PAIR_CTL_SOLO : Field := ⟨PAIR_CTL, 0, 1⟩
abbrev PAIR_CTL_RESYNC : Field := ⟨PAIR_CTL, 1, 1⟩
abbrev PAIR_CTL_WITHDRAW : Field := ⟨PAIR_CTL, 2, 1⟩
abbrev PAIR_CTL_HANDOVER : Field := ⟨PAIR_CTL, 3, 1⟩
abbrev PAIR_CTL_GENRST : Field := ⟨PAIR_CTL, 4, 1⟩
/-- PAIR_STAT at PAIR offset. -/
abbrev PAIR_STAT : Nat := 0x400070
abbrev PAIR_STAT_STATE : Field := ⟨PAIR_STAT, 0, 3⟩
abbrev PAIR_STAT_HOLDER : Field := ⟨PAIR_STAT, 3, 1⟩
abbrev PAIR_STAT_LANES : Field := ⟨PAIR_STAT, 4, 2⟩
abbrev PAIR_STAT_ALIVEIN : Field := ⟨PAIR_STAT, 6, 1⟩
abbrev PAIR_STAT_GENSAT : Field := ⟨PAIR_STAT, 7, 1⟩
abbrev PAIR_STAT_CLAIM : Field := ⟨PAIR_STAT, 8, 16⟩
abbrev PAIR_STAT_PCLAIM : Field := ⟨PAIR_STAT, 24, 16⟩
abbrev PAIR_STAT_HEALTH : Field := ⟨PAIR_STAT, 40, 8⟩
abbrev PAIR_STAT_PHEALTH : Field := ⟨PAIR_STAT, 48, 8⟩
/-- PAIR_CAUSE at PAIR offset. -/
abbrev PAIR_CAUSE : Nat := 0x400080
abbrev PAIR_CAUSE_STATE : Field := ⟨PAIR_CAUSE, 0, 1⟩
abbrev PAIR_CAUSE_DIVERGE : Field := ⟨PAIR_CAUSE, 1, 1⟩
abbrev PAIR_CAUSE_ROPEUP : Field := ⟨PAIR_CAUSE, 2, 1⟩
abbrev PAIR_CAUSE_ROPEDOWN : Field := ⟨PAIR_CAUSE, 3, 1⟩
abbrev PAIR_CAUSE_LANES2 : Field := ⟨PAIR_CAUSE, 4, 1⟩
abbrev PAIR_CAUSE_CLAIM : Field := ⟨PAIR_CAUSE, 5, 1⟩
abbrev PAIR_CAUSE_JGAP : Field := ⟨PAIR_CAUSE, 6, 1⟩
abbrev PAIR_CAUSE_SBFAULT : Field := ⟨PAIR_CAUSE, 7, 1⟩
abbrev PAIR_CAUSE_TAKEOVER : Field := ⟨PAIR_CAUSE, 8, 1⟩
abbrev PAIR_CAUSE_RFAIL : Field := ⟨PAIR_CAUSE, 9, 1⟩
abbrev PAIR_CAUSE_CODE : Field := ⟨PAIR_CAUSE, 10, 4⟩
/-- PAIR_ROPE at PAIR offset. -/
abbrev PAIR_ROPE : Nat := 0x400090
abbrev PAIR_ROPE_ROPEDLY : Field := ⟨PAIR_ROPE, 0, 20⟩
/-- PAIR_JSEQ at PAIR offset. -/
abbrev PAIR_JSEQ : Nat := 0x4000a0
abbrev PAIR_JSEQ_SEQ : Field := ⟨PAIR_JSEQ, 0, 48⟩
/-- PAIR_DIG at PAIR offset. -/
abbrev PAIR_DIG : Nat := 0x4000b0
abbrev PAIR_DIG_DIG : Field := ⟨PAIR_DIG, 0, 72⟩
/-- PAIR_PDIG at PAIR offset. -/
abbrev PAIR_PDIG : Nat := 0x4000c0
abbrev PAIR_PDIG_DIG : Field := ⟨PAIR_PDIG, 0, 72⟩
/-- PAIR_DSTW at PAIR offset. -/
abbrev PAIR_DSTW : Nat := 0x4000d0
abbrev PAIR_DSTW_STW : Field := ⟨PAIR_DSTW, 0, 72⟩
/-- PAIR_RSTAT at PAIR offset. -/
abbrev PAIR_RSTAT : Nat := 0x4000e0
abbrev PAIR_RSTAT_PHASE : Field := ⟨PAIR_RSTAT, 0, 2⟩
abbrev PAIR_RSTAT_WORDS : Field := ⟨PAIR_RSTAT, 2, 22⟩
abbrev PAIR_RSTAT_RESTARTS : Field := ⟨PAIR_RSTAT, 24, 8⟩
/-- PWR_CTL at PWR offset. -/
abbrev PWR_CTL : Nat := 0x20000
abbrev PWR_CTL_REQ : Field := ⟨PWR_CTL, 0, 3⟩
abbrev PWR_CTL_GO : Field := ⟨PWR_CTL, 3, 1⟩
abbrev PWR_CTL_HOLDENG : Field := ⟨PWR_CTL, 4, 4⟩
abbrev PWR_CTL_RETAIN : Field := ⟨PWR_CTL, 8, 1⟩
abbrev PWR_CTL_TIMEON : Field := ⟨PWR_CTL, 9, 1⟩
abbrev PWR_CTL_QGATE : Field := ⟨PWR_CTL, 10, 1⟩
/-- PWR_STAT at PWR offset. -/
abbrev PWR_STAT : Nat := 0x20010
abbrev PWR_STAT_STATE : Field := ⟨PWR_STAT, 0, 3⟩
abbrev PWR_STAT_RES : Field := ⟨PWR_STAT, 3, 3⟩
abbrev PWR_STAT_DOMON : Field := ⟨PWR_STAT, 6, 12⟩
abbrev PWR_STAT_QON : Field := ⟨PWR_STAT, 18, 9⟩
abbrev PWR_STAT_MAINS : Field := ⟨PWR_STAT, 27, 1⟩
/-- PWR_CAUSE at PWR offset. -/
abbrev PWR_CAUSE : Nat := 0x20020
abbrev PWR_CAUSE_STATE : Field := ⟨PWR_CAUSE, 0, 1⟩
abbrev PWR_CAUSE_FAIL : Field := ⟨PWR_CAUSE, 1, 1⟩
abbrev PWR_CAUSE_RECOVER : Field := ⟨PWR_CAUSE, 2, 1⟩
abbrev PWR_CAUSE_WAKE : Field := ⟨PWR_CAUSE, 3, 1⟩
abbrev PWR_CAUSE_WSRC : Field := ⟨PWR_CAUSE, 4, 3⟩
abbrev PWR_CAUSE_THERM : Field := ⟨PWR_CAUSE, 7, 1⟩
abbrev PWR_CAUSE_RETN : Field := ⟨PWR_CAUSE, 8, 1⟩
/-- PWR_WEN at PWR offset. -/
abbrev PWR_WEN : Nat := 0x20030
abbrev PWR_WEN_SRC : Field := ⟨PWR_WEN, 0, 6⟩
abbrev PWR_WEN_TARGET : Field := ⟨PWR_WEN, 6, 3⟩
/-- PWR_WLANE at PWR offset. -/
abbrev PWR_WLANE : Nat := 0x20040
abbrev PWR_WLANE_MASK : Field := ⟨PWR_WLANE, 0, 32⟩
/-- PWR_WRING at PWR offset. -/
abbrev PWR_WRING : Nat := 0x20050
abbrev PWR_WRING_PORTS : Field := ⟨PWR_WRING, 0, 32⟩
/-- PWR_WGPIO at PWR offset. -/
abbrev PWR_WGPIO : Nat := 0x20060
abbrev PWR_WGPIO_MASK : Field := ⟨PWR_WGPIO, 0, 24⟩
abbrev PWR_WGPIO_POL : Field := ⟨PWR_WGPIO, 24, 24⟩
/-- PWR_AONWK at PWR offset. -/
abbrev PWR_AONWK : Nat := 0x20070
abbrev PWR_AONWK_AT : Field := ⟨PWR_AONWK, 0, 48⟩
abbrev PWR_AONWK_EN : Field := ⟨PWR_AONWK, 48, 1⟩
/-- PWR_AON at PWR offset. -/
abbrev PWR_AON : Nat := 0x20080
abbrev PWR_AON_CNT : Field := ⟨PWR_AON, 0, 48⟩
/-- PWR_RETN at PWR offset. -/
abbrev PWR_RETN : Nat := 0x20090
abbrev PWR_RETN_BANK : Field := ⟨PWR_RETN, 0, 11⟩
abbrev PWR_RETN_NLOST : Field := ⟨PWR_RETN, 11, 11⟩
abbrev PWR_RETN_PEND : Field := ⟨PWR_RETN, 22, 11⟩
abbrev PWR_RETN_CLR : Field := ⟨PWR_RETN, 33, 1⟩
/-- PWR_HOLD at PWR offset. -/
abbrev PWR_HOLD : Nat := 0x200a0
abbrev PWR_HOLD_SHED : Field := ⟨PWR_HOLD, 0, 3⟩
/-- PWR_THERM at PWR offset. -/
abbrev PWR_THERM : Nat := 0x200b0
abbrev PWR_THERM_DIE : Field := ⟨PWR_THERM, 0, 8⟩
abbrev PWR_THERM_BASE : Field := ⟨PWR_THERM, 8, 8⟩
abbrev PWR_THERM_LIMIT : Field := ⟨PWR_THERM, 16, 8⟩
/-- PWR_LAST at PWR offset. -/
abbrev PWR_LAST : Nat := 0x200c0
abbrev PWR_LAST_STATE : Field := ⟨PWR_LAST, 0, 3⟩
abbrev PWR_LAST_BKUP : Field := ⟨PWR_LAST, 3, 1⟩
abbrev PWR_LAST_FAILS : Field := ⟨PWR_LAST, 4, 16⟩
/-- SEC_CTL at SEC offset. -/
abbrev SEC_CTL : Nat := 0x410000
abbrev SEC_CTL_UNLOCK : Field := ⟨SEC_CTL, 0, 1⟩
abbrev SEC_CTL_ERASE : Field := ⟨SEC_CTL, 1, 1⟩
/-- SEC_STAT at SEC offset. -/
abbrev SEC_STAT : Nat := 0x410010
abbrev SEC_STAT_LOCKED : Field := ⟨SEC_STAT, 0, 1⟩
abbrev SEC_STAT_ERASING : Field := ⟨SEC_STAT, 1, 1⟩
abbrev SEC_STAT_LEVEL : Field := ⟨SEC_STAT, 2, 7⟩
/-- SEC_TACT at SEC offset. -/
abbrev SEC_TACT : Nat := 0x410020
abbrev SEC_TACT_ACT : Field := ⟨SEC_TACT, 0, 14⟩
/-- SEC_CAUSE at SEC offset. -/
abbrev SEC_CAUSE : Nat := 0x410030
abbrev SEC_CAUSE_TAMPER : Field := ⟨SEC_CAUSE, 0, 1⟩
abbrev SEC_CAUSE_ERASED : Field := ⟨SEC_CAUSE, 1, 1⟩
abbrev SEC_CAUSE_SRC : Field := ⟨SEC_CAUSE, 2, 4⟩
/-- SEC_KSEL at SEC offset. -/
abbrev SEC_KSEL : Nat := 0x410040
abbrev SEC_KSEL_SLOT : Field := ⟨SEC_KSEL, 0, 4⟩
abbrev SEC_KSEL_USE : Field := ⟨SEC_KSEL, 4, 2⟩
/-- SEC_KDATA at SEC offset. -/
abbrev SEC_KDATA (i0 : Nat) : Nat := 0x410050 + 0x10 * i0
abbrev SEC_KDATA_KEY (i0 : Nat) : Field := ⟨(SEC_KDATA i0), 0, 64⟩
/-- SEC_KCTL at SEC offset. -/
abbrev SEC_KCTL : Nat := 0x410090
abbrev SEC_KCTL_WRITE : Field := ⟨SEC_KCTL, 0, 1⟩
abbrev SEC_KCTL_CLEAR : Field := ⟨SEC_KCTL, 1, 1⟩
abbrev SEC_KCTL_REFUSED : Field := ⟨SEC_KCTL, 2, 1⟩
/-- SEC_KSTAT at SEC offset. -/
abbrev SEC_KSTAT (i0 : Nat) : Nat := 0x410100 + 0x10 * i0
abbrev SEC_KSTAT_STATE (i0 : Nat) : Field := ⟨(SEC_KSTAT i0), 0, 2⟩
abbrev SEC_KSTAT_USE (i0 : Nat) : Field := ⟨(SEC_KSTAT i0), 2, 2⟩
abbrev SEC_KSTAT_KCV (i0 : Nat) : Field := ⟨(SEC_KSTAT i0), 4, 16⟩
abbrev SEC_KSTAT_WCNT (i0 : Nat) : Field := ⟨(SEC_KSTAT i0), 20, 16⟩
/-- SEC_CHAL at SEC offset. -/
abbrev SEC_CHAL (i0 : Nat) : Nat := 0x410200 + 0x10 * i0
abbrev SEC_CHAL_DATA (i0 : Nat) : Field := ⟨(SEC_CHAL i0), 0, 64⟩
/-- SEC_CHCTL at SEC offset. -/
abbrev SEC_CHCTL : Nat := 0x410240
abbrev SEC_CHCTL_SLOT : Field := ⟨SEC_CHCTL, 0, 4⟩
abbrev SEC_CHCTL_GO : Field := ⟨SEC_CHCTL, 4, 1⟩
abbrev SEC_CHCTL_DONE : Field := ⟨SEC_CHCTL, 5, 1⟩
abbrev SEC_CHCTL_FAIL : Field := ⟨SEC_CHCTL, 6, 1⟩
/-- SEC_RESP at SEC offset. -/
abbrev SEC_RESP (i0 : Nat) : Nat := 0x410250 + 0x10 * i0
abbrev SEC_RESP_RESP (i0 : Nat) : Field := ⟨(SEC_RESP i0), 0, 64⟩
/-- SEC_LOGCTL at SEC offset. -/
abbrev SEC_LOGCTL : Nat := 0x410300
abbrev SEC_LOGCTL_IDX : Field := ⟨SEC_LOGCTL, 0, 4⟩
abbrev SEC_LOGCTL_COUNT : Field := ⟨SEC_LOGCTL, 4, 5⟩
abbrev SEC_LOGCTL_NEXT : Field := ⟨SEC_LOGCTL, 9, 4⟩
abbrev SEC_LOGCTL_LOST : Field := ⟨SEC_LOGCTL, 13, 16⟩
abbrev SEC_LOGCTL_CLR : Field := ⟨SEC_LOGCTL, 29, 1⟩
/-- SEC_LOGINFO at SEC offset. -/
abbrev SEC_LOGINFO : Nat := 0x410310
abbrev SEC_LOGINFO_AON : Field := ⟨SEC_LOGINFO, 0, 48⟩
abbrev SEC_LOGINFO_SRC : Field := ⟨SEC_LOGINFO, 48, 4⟩
abbrev SEC_LOGINFO_ACT : Field := ⟨SEC_LOGINFO, 52, 2⟩
abbrev SEC_LOGINFO_PD2ON : Field := ⟨SEC_LOGINFO, 54, 1⟩
abbrev SEC_LOGINFO_BKUP : Field := ⟨SEC_LOGINFO, 55, 1⟩
/-- SEC_LOGLT at SEC offset. -/
abbrev SEC_LOGLT : Nat := 0x410320
abbrev SEC_LOGLT_SEC : Field := ⟨SEC_LOGLT, 8, 64⟩
abbrev SEC_LOGLT_QUAL : Field := ⟨SEC_LOGLT, 4, 4⟩
abbrev SEC_LOGLT_DOM : Field := ⟨SEC_LOGLT, 0, 4⟩
/-- SEC_LOGLTL at SEC offset. -/
abbrev SEC_LOGLTL : Nat := 0x410330
abbrev SEC_LOGLTL_NS : Field := ⟨SEC_LOGLTL, 42, 30⟩
abbrev SEC_LOGLTL_FRAC : Field := ⟨SEC_LOGLTL, 26, 16⟩
/-- SEC_PK at SEC offset. -/
abbrev SEC_PK (i0 : Nat) (i1 : Nat) : Nat := 0x410400 + 0x80 * i0 + 0x10 * i1
abbrev SEC_PK_PK (i0 : Nat) (i1 : Nat) : Field := ⟨(SEC_PK i0 i1), 0, 64⟩
/-- SEC_FUSE at SEC offset. -/
abbrev SEC_FUSE (i0 : Nat) : Nat := 0x410600 + 0x10 * i0
abbrev SEC_FUSE_STATE (i0 : Nat) : Field := ⟨(SEC_FUSE i0), 0, 2⟩
/-- SEC_FP at SEC offset. -/
abbrev SEC_FP (i0 : Nat) (i1 : Nat) : Nat := 0x410640 + 0x40 * i0 + 0x10 * i1
abbrev SEC_FP_FP (i0 : Nat) (i1 : Nat) : Field := ⟨(SEC_FP i0 i1), 0, 64⟩
/-- SEC_FPW at SEC offset. -/
abbrev SEC_FPW (i0 : Nat) : Nat := 0x410740 + 0x10 * i0
abbrev SEC_FPW_FP (i0 : Nat) : Field := ⟨(SEC_FPW i0), 0, 64⟩
/-- SEC_FCTL at SEC offset. -/
abbrev SEC_FCTL : Nat := 0x410780
abbrev SEC_FCTL_SLOT : Field := ⟨SEC_FCTL, 0, 2⟩
abbrev SEC_FCTL_PROG : Field := ⟨SEC_FCTL, 2, 1⟩
abbrev SEC_FCTL_REVOKE : Field := ⟨SEC_FCTL, 3, 1⟩
abbrev SEC_FCTL_CONFIRM : Field := ⟨SEC_FCTL, 4, 8⟩
abbrev SEC_FCTL_FSTAT : Field := ⟨SEC_FCTL, 12, 3⟩
/-- SEC_AUTH at SEC offset. -/
abbrev SEC_AUTH : Nat := 0x410790
abbrev SEC_AUTH_ENG : Field := ⟨SEC_AUTH, 0, 4⟩
abbrev SEC_AUTH_CODE : Field := ⟨SEC_AUTH, 4, 3⟩
abbrev SEC_AUTH_SLOT : Field := ⟨SEC_AUTH, 7, 2⟩
/-- SYS_IOCFG at SYS offset. -/
abbrev SYS_IOCFG : Nat := 0x500
abbrev SYS_IOCFG_TERM : Field := ⟨SYS_IOCFG, 0, 4⟩
abbrev SYS_IOCFG_ESUP : Field := ⟨SYS_IOCFG, 4, 1⟩
abbrev SYS_IOCFG_T50 : Field := ⟨SYS_IOCFG, 5, 4⟩
abbrev SYS_IOCFG_THR : Field := ⟨SYS_IOCFG, 9, 4⟩
/-- SYS_GPIO at SYS offset. -/
abbrev SYS_GPIO : Nat := 0x510
abbrev SYS_GPIO_DIR : Field := ⟨SYS_GPIO, 0, 24⟩
abbrev SYS_GPIO_OUT : Field := ⟨SYS_GPIO, 24, 24⟩
/-- SYS_GPIOIN at SYS offset. -/
abbrev SYS_GPIOIN : Nat := 0x520
abbrev SYS_GPIOIN_IN : Field := ⟨SYS_GPIOIN, 0, 24⟩
/-- SYS_HWSTAT at SYS offset. -/
abbrev SYS_HWSTAT : Nat := 0x530
abbrev SYS_HWSTAT_VCELL : Field := ⟨SYS_HWSTAT, 0, 12⟩
abbrev SYS_HWSTAT_TSHUT : Field := ⟨SYS_HWSTAT, 12, 8⟩
abbrev SYS_HWSTAT_QOC : Field := ⟨SYS_HWSTAT, 20, 9⟩
abbrev SYS_HWSTAT_QLOW : Field := ⟨SYS_HWSTAT, 29, 9⟩
abbrev SYS_HWSTAT_QPRES : Field := ⟨SYS_HWSTAT, 38, 9⟩
/-- SYS_RST at SYS offset. -/
abbrev SYS_RST : Nat := 0x180
abbrev SYS_RST_LINE : Field := ⟨SYS_RST, 0, 1⟩
abbrev SYS_RST_MODULE : Field := ⟨SYS_RST, 1, 1⟩
abbrev SYS_RST_BUSY : Field := ⟨SYS_RST, 2, 1⟩
abbrev SYS_RST_REFUSED : Field := ⟨SYS_RST, 3, 1⟩
abbrev SYS_RST_KEY : Field := ⟨SYS_RST, 8, 16⟩
/-- SYS_RSTCAUSE at SYS offset. -/
abbrev SYS_RSTCAUSE : Nat := 0x190
abbrev SYS_RSTCAUSE_KIND : Field := ⟨SYS_RSTCAUSE, 0, 3⟩
abbrev SYS_RSTCAUSE_WHY : Field := ⟨SYS_RSTCAUSE, 3, 3⟩
abbrev SYS_RSTCAUSE_RREC : Field := ⟨SYS_RSTCAUSE, 6, 1⟩
abbrev SYS_RSTCAUSE_NMOD : Field := ⟨SYS_RSTCAUSE, 16, 16⟩
abbrev SYS_RSTCAUSE_NLINE : Field := ⟨SYS_RSTCAUSE, 32, 16⟩
/-- SYS_BOOT at SYS offset. -/
abbrev SYS_BOOT : Nat := 0x1a0
abbrev SYS_BOOT_ADDR : Field := ⟨SYS_BOOT, 0, 29⟩
abbrev SYS_BOOT_UPDATE : Field := ⟨SYS_BOOT, 29, 1⟩
abbrev SYS_BOOT_STAT : Field := ⟨SYS_BOOT, 30, 3⟩
abbrev SYS_BOOT_RUNSRC : Field := ⟨SYS_BOOT, 33, 1⟩
abbrev SYS_BOOT_BCODE : Field := ⟨SYS_BOOT, 34, 3⟩
abbrev SYS_BOOT_SAFE : Field := ⟨SYS_BOOT, 37, 1⟩
/-- FLW_GWIN_IDX at FLW offset. -/
abbrev FLW_GWIN_IDX (i0 : Nat) : Nat := 0x311000 + 0x100 * i0
abbrev FLW_GWIN_IDX_REC (i0 : Nat) : Field := ⟨(FLW_GWIN_IDX i0), 0, 18⟩
/-- FLW_GWIN_W0 at FLW offset. -/
abbrev FLW_GWIN_W0 (i0 : Nat) : Nat := 0x311010 + 0x100 * i0
abbrev FLW_GWIN_W0_Y0 (i0 : Nat) : Field := ⟨(FLW_GWIN_W0 i0), 0, 72⟩
/-- FLW_GWIN_W1 at FLW offset. -/
abbrev FLW_GWIN_W1 (i0 : Nat) : Nat := 0x311020 + 0x100 * i0
abbrev FLW_GWIN_W1_X0 (i0 : Nat) : Field := ⟨(FLW_GWIN_W1 i0), 0, 72⟩
/-- FLW_GWIN_W2 at FLW offset. -/
abbrev FLW_GWIN_W2 (i0 : Nat) : Nat := 0x311030 + 0x100 * i0
abbrev FLW_GWIN_W2_TAB (i0 : Nat) : Field := ⟨(FLW_GWIN_W2 i0), 0, 10⟩
abbrev FLW_GWIN_W2_NTAB (i0 : Nat) : Field := ⟨(FLW_GWIN_W2 i0), 10, 10⟩
abbrev FLW_GWIN_W2_SIDX (i0 : Nat) : Field := ⟨(FLW_GWIN_W2 i0), 20, 20⟩
abbrev FLW_GWIN_W2_EN (i0 : Nat) : Field := ⟨(FLW_GWIN_W2 i0), 40, 1⟩
abbrev FLW_GWIN_W2_SWP (i0 : Nat) : Field := ⟨(FLW_GWIN_W2 i0), 41, 1⟩
abbrev FLW_GWIN_W2_STATE (i0 : Nat) : Field := ⟨(FLW_GWIN_W2 i0), 42, 2⟩
abbrev FLW_GWIN_W2_PRI (i0 : Nat) : Field := ⟨(FLW_GWIN_W2 i0), 44, 3⟩
abbrev FLW_GWIN_W2_COPY (i0 : Nat) : Field := ⟨(FLW_GWIN_W2 i0), 47, 1⟩
abbrev FLW_GWIN_W2_DSW (i0 : Nat) : Field := ⟨(FLW_GWIN_W2 i0), 48, 14⟩
abbrev FLW_GWIN_W2_HREQ (i0 : Nat) : Field := ⟨(FLW_GWIN_W2 i0), 62, 1⟩
/-- FLW_GWIN_W3 at FLW offset. -/
abbrev FLW_GWIN_W3 (i0 : Nat) : Nat := 0x311040 + 0x100 * i0
abbrev FLW_GWIN_W3_MOFS (i0 : Nat) : Field := ⟨(FLW_GWIN_W3 i0), 0, 72⟩
/-- FLW_GWIN_RES0 at FLW offset. -/
abbrev FLW_GWIN_RES0 (i0 : Nat) : Nat := 0x311050 + 0x100 * i0
abbrev FLW_GWIN_RES0_POS (i0 : Nat) : Field := ⟨(FLW_GWIN_RES0 i0), 0, 72⟩
/-- FLW_GWIN_RES1 at FLW offset. -/
abbrev FLW_GWIN_RES1 (i0 : Nat) : Nat := 0x311060 + 0x100 * i0
abbrev FLW_GWIN_RES1_ACC (i0 : Nat) : Field := ⟨(FLW_GWIN_RES1 i0), 0, 32⟩
abbrev FLW_GWIN_RES1_VEL (i0 : Nat) : Field := ⟨(FLW_GWIN_RES1 i0), 32, 32⟩
abbrev FLW_GWIN_RES1_HOLD (i0 : Nat) : Field := ⟨(FLW_GWIN_RES1 i0), 64, 1⟩
abbrev FLW_GWIN_RES1_END (i0 : Nat) : Field := ⟨(FLW_GWIN_RES1 i0), 65, 1⟩
abbrev FLW_GWIN_RES1_STEP (i0 : Nat) : Field := ⟨(FLW_GWIN_RES1 i0), 66, 1⟩
abbrev FLW_GWIN_RES1_WHY (i0 : Nat) : Field := ⟨(FLW_GWIN_RES1 i0), 67, 3⟩
/-- SYS_RETIRED at SYS offset. -/
abbrev SYS_RETIRED : Nat := 0x480
abbrev SYS_RETIRED_KIND : Field := ⟨SYS_RETIRED, 0, 8⟩
/-- MAC_TSSUM at MAC offset. -/
abbrev MAC_TSSUM : Nat := 0x140f00
abbrev MAC_TSSUM_RDY : Field := ⟨MAC_TSSUM, 0, 32⟩
abbrev MAC_TSSUM_OVF : Field := ⟨MAC_TSSUM, 32, 32⟩
/-- MAC_STAT_CNT at MAC offset. -/
abbrev MAC_STAT_CNT (i0 : Nat) (i1 : Nat) : Nat := 0x140400 + 0x1000 * i0 + 0x10 * i1
abbrev MAC_STAT_CNT_COUNT (i0 : Nat) (i1 : Nat) : Field := ⟨(MAC_STAT_CNT i0 i1), 0, 40⟩
abbrev MAC_STAT_CNT_ACK (i0 : Nat) (i1 : Nat) : Field := ⟨(MAC_STAT_CNT i0 i1), 40, 1⟩
/-- MAC_PTP_CNT at MAC offset. -/
abbrev MAC_PTP_CNT (i0 : Nat) (i1 : Nat) : Nat := 0x140800 + 0x1000 * i0 + 0x10 * i1
abbrev MAC_PTP_CNT_COUNT (i0 : Nat) (i1 : Nat) : Field := ⟨(MAC_PTP_CNT i0 i1), 0, 40⟩
abbrev MAC_PTP_CNT_ACK (i0 : Nat) (i1 : Nat) : Field := ⟨(MAC_PTP_CNT i0 i1), 40, 1⟩
/-- SDS_CNT at SDS offset. -/
abbrev SDS_CNT (i0 : Nat) (i1 : Nat) : Nat := 0x100400 + 0x1000 * i0 + 0x10 * i1
abbrev SDS_CNT_COUNT (i0 : Nat) (i1 : Nat) : Field := ⟨(SDS_CNT i0 i1), 0, 40⟩
abbrev SDS_CNT_ACK (i0 : Nat) (i1 : Nat) : Field := ⟨(SDS_CNT i0 i1), 40, 1⟩
/-- ZRG_CNT at ZRG offset. -/
abbrev ZRG_CNT (i0 : Nat) (i1 : Nat) : Nat := 0x1c0800 + 0x1000 * i0 + 0x10 * i1
abbrev ZRG_CNT_COUNT (i0 : Nat) (i1 : Nat) : Field := ⟨(ZRG_CNT i0 i1), 0, 40⟩
abbrev ZRG_CNT_ACK (i0 : Nat) (i1 : Nat) : Field := ⟨(ZRG_CNT i0 i1), 40, 1⟩
/-- CMP_IN_CNT at CMP offset. -/
abbrev CMP_IN_CNT (i0 : Nat) (i1 : Nat) : Nat := 0x41080 + 0x100 * i0 + 0x10 * i1
abbrev CMP_IN_CNT_COUNT (i0 : Nat) (i1 : Nat) : Field := ⟨(CMP_IN_CNT i0 i1), 0, 40⟩
abbrev CMP_IN_CNT_ACK (i0 : Nat) (i1 : Nat) : Field := ⟨(CMP_IN_CNT i0 i1), 40, 1⟩
/-- FLW_CNT at FLW offset. -/
abbrev FLW_CNT (i0 : Nat) : Nat := 0x300800 + 0x10 * i0
abbrev FLW_CNT_COUNT (i0 : Nat) : Field := ⟨(FLW_CNT i0), 0, 40⟩
abbrev FLW_CNT_ACK (i0 : Nat) : Field := ⟨(FLW_CNT i0), 40, 1⟩
/-- SWC_EC_CNT at SWC offset. -/
abbrev SWC_EC_CNT (i0 : Nat) (i1 : Nat) (i2 : Nat) : Nat := 0x1b0000 + 0x600 * i0 + 0x80 * i1 + 0x10 * i2
abbrev SWC_EC_CNT_COUNT (i0 : Nat) (i1 : Nat) (i2 : Nat) : Field := ⟨(SWC_EC_CNT i0 i1 i2), 0, 40⟩
abbrev SWC_EC_CNT_ACK (i0 : Nat) (i1 : Nat) (i2 : Nat) : Field := ⟨(SWC_EC_CNT i0 i1 i2), 40, 1⟩
/-- SWC_E_CNT at SWC offset. -/
abbrev SWC_E_CNT (i0 : Nat) (i1 : Nat) : Nat := 0x1b0500 + 0x600 * i0 + 0x10 * i1
abbrev SWC_E_CNT_COUNT (i0 : Nat) (i1 : Nat) : Field := ⟨(SWC_E_CNT i0 i1), 0, 40⟩
abbrev SWC_E_CNT_ACK (i0 : Nat) (i1 : Nat) : Field := ⟨(SWC_E_CNT i0 i1), 40, 1⟩
/-- SWC_S_CNT at SWC offset. -/
abbrev SWC_S_CNT (i0 : Nat) (i1 : Nat) : Nat := 0x1bd000 + 0x80 * i0 + 0x10 * i1
abbrev SWC_S_CNT_COUNT (i0 : Nat) (i1 : Nat) : Field := ⟨(SWC_S_CNT i0 i1), 0, 40⟩
abbrev SWC_S_CNT_ACK (i0 : Nat) (i1 : Nat) : Field := ⟨(SWC_S_CNT i0 i1), 40, 1⟩
/-- SWC_G_CNT at SWC offset. -/
abbrev SWC_G_CNT (i0 : Nat) : Nat := 0x1bf000 + 0x10 * i0
abbrev SWC_G_CNT_COUNT (i0 : Nat) : Field := ⟨(SWC_G_CNT i0), 0, 40⟩
abbrev SWC_G_CNT_ACK (i0 : Nat) : Field := ⟨(SWC_G_CNT i0), 40, 1⟩
/-- PAIR_CNT at PAIR offset. -/
abbrev PAIR_CNT (i0 : Nat) : Nat := 0x400400 + 0x10 * i0
abbrev PAIR_CNT_COUNT (i0 : Nat) : Field := ⟨(PAIR_CNT i0), 0, 40⟩
abbrev PAIR_CNT_ACK (i0 : Nat) : Field := ⟨(PAIR_CNT i0), 40, 1⟩
/-- CAL_REC at CAL offset. -/
abbrev CAL_REC (i0 : Nat) : Nat := 0x71000 + 0x20 * i0
abbrev CAL_REC_COUNT (i0 : Nat) : Field := ⟨(CAL_REC i0), 0, 16⟩
abbrev CAL_REC_FAILS (i0 : Nat) : Field := ⟨(CAL_REC i0), 16, 16⟩
/-- CAL_LAST at CAL offset. -/
abbrev CAL_LAST (i0 : Nat) : Nat := 0x71010 + 0x20 * i0
abbrev CAL_LAST_LAST (i0 : Nat) : Field := ⟨(CAL_LAST i0), 0, 72⟩
/-- STS_SH_PORT at STS offset. -/
abbrev STS_SH_PORT (i0 : Nat) (i1 : Nat) (i2 : Nat) : Nat := 0x381000 + 0x20000 * i0 + 0x400 * i1 + 0x10 * i2
abbrev STS_SH_PORT_VALUE (i0 : Nat) (i1 : Nat) (i2 : Nat) : Field := ⟨(STS_SH_PORT i0 i1 i2), 0, 40⟩
abbrev STS_SH_PORT_ACKN (i0 : Nat) (i1 : Nat) (i2 : Nat) : Field := ⟨(STS_SH_PORT i0 i1 i2), 40, 8⟩
/-- STS_SH_PTP at STS offset. -/
abbrev STS_SH_PTP (i0 : Nat) (i1 : Nat) (i2 : Nat) : Nat := 0x381300 + 0x20000 * i0 + 0x400 * i1 + 0x10 * i2
abbrev STS_SH_PTP_VALUE (i0 : Nat) (i1 : Nat) (i2 : Nat) : Field := ⟨(STS_SH_PTP i0 i1 i2), 0, 40⟩
abbrev STS_SH_PTP_ACKN (i0 : Nat) (i1 : Nat) (i2 : Nat) : Field := ⟨(STS_SH_PTP i0 i1 i2), 40, 8⟩
/-- STS_SH_LANE at STS offset. -/
abbrev STS_SH_LANE (i0 : Nat) (i1 : Nat) (i2 : Nat) : Nat := 0x38a000 + 0x20000 * i0 + 0x80 * i1 + 0x10 * i2
abbrev STS_SH_LANE_VALUE (i0 : Nat) (i1 : Nat) (i2 : Nat) : Field := ⟨(STS_SH_LANE i0 i1 i2), 0, 40⟩
abbrev STS_SH_LANE_ACKN (i0 : Nat) (i1 : Nat) (i2 : Nat) : Field := ⟨(STS_SH_LANE i0 i1 i2), 40, 8⟩
/-- STS_SH_RING at STS offset. -/
abbrev STS_SH_RING (i0 : Nat) (i1 : Nat) (i2 : Nat) : Nat := 0x38c000 + 0x20000 * i0 + 0x100 * i1 + 0x10 * i2
abbrev STS_SH_RING_VALUE (i0 : Nat) (i1 : Nat) (i2 : Nat) : Field := ⟨(STS_SH_RING i0 i1 i2), 0, 40⟩
abbrev STS_SH_RING_ACKN (i0 : Nat) (i1 : Nat) (i2 : Nat) : Field := ⟨(STS_SH_RING i0 i1 i2), 40, 8⟩
/-- STS_SH_CMP at STS offset. -/
abbrev STS_SH_CMP (i0 : Nat) (i1 : Nat) (i2 : Nat) : Nat := 0x38e000 + 0x20000 * i0 + 0x80 * i1 + 0x10 * i2
abbrev STS_SH_CMP_VALUE (i0 : Nat) (i1 : Nat) (i2 : Nat) : Field := ⟨(STS_SH_CMP i0 i1 i2), 0, 40⟩
abbrev STS_SH_CMP_ACKN (i0 : Nat) (i1 : Nat) (i2 : Nat) : Field := ⟨(STS_SH_CMP i0 i1 i2), 40, 8⟩
/-- STS_SH_FLW at STS offset. -/
abbrev STS_SH_FLW (i0 : Nat) (i1 : Nat) : Nat := 0x38e800 + 0x20000 * i0 + 0x10 * i1
abbrev STS_SH_FLW_VALUE (i0 : Nat) (i1 : Nat) : Field := ⟨(STS_SH_FLW i0 i1), 0, 40⟩
abbrev STS_SH_FLW_ACKN (i0 : Nat) (i1 : Nat) : Field := ⟨(STS_SH_FLW i0 i1), 40, 8⟩
/-- STS_SH_SWG at STS offset. -/
abbrev STS_SH_SWG (i0 : Nat) (i1 : Nat) : Nat := 0x38f000 + 0x20000 * i0 + 0x10 * i1
abbrev STS_SH_SWG_VALUE (i0 : Nat) (i1 : Nat) : Field := ⟨(STS_SH_SWG i0 i1), 0, 40⟩
abbrev STS_SH_SWG_ACKN (i0 : Nat) (i1 : Nat) : Field := ⟨(STS_SH_SWG i0 i1), 40, 8⟩
/-- STS_SH_SWS at STS offset. -/
abbrev STS_SH_SWS (i0 : Nat) (i1 : Nat) (i2 : Nat) : Nat := 0x390000 + 0x20000 * i0 + 0x80 * i1 + 0x10 * i2
abbrev STS_SH_SWS_VALUE (i0 : Nat) (i1 : Nat) (i2 : Nat) : Field := ⟨(STS_SH_SWS i0 i1 i2), 0, 40⟩
abbrev STS_SH_SWS_ACKN (i0 : Nat) (i1 : Nat) (i2 : Nat) : Field := ⟨(STS_SH_SWS i0 i1 i2), 40, 8⟩
/-- STS_SH_SWEC at STS offset. -/
abbrev STS_SH_SWEC (i0 : Nat) (i1 : Nat) (i2 : Nat) (i3 : Nat) : Nat := 0x392000 + 0x20000 * i0 + 0x600 * i1 + 0x80 * i2 + 0x10 * i3
abbrev STS_SH_SWEC_VALUE (i0 : Nat) (i1 : Nat) (i2 : Nat) (i3 : Nat) : Field := ⟨(STS_SH_SWEC i0 i1 i2 i3), 0, 40⟩
abbrev STS_SH_SWEC_ACKN (i0 : Nat) (i1 : Nat) (i2 : Nat) (i3 : Nat) : Field := ⟨(STS_SH_SWEC i0 i1 i2 i3), 40, 8⟩
/-- STS_SH_SWE at STS offset. -/
abbrev STS_SH_SWE (i0 : Nat) (i1 : Nat) (i2 : Nat) : Nat := 0x392500 + 0x20000 * i0 + 0x600 * i1 + 0x10 * i2
abbrev STS_SH_SWE_VALUE (i0 : Nat) (i1 : Nat) (i2 : Nat) : Field := ⟨(STS_SH_SWE i0 i1 i2), 0, 40⟩
abbrev STS_SH_SWE_ACKN (i0 : Nat) (i1 : Nat) (i2 : Nat) : Field := ⟨(STS_SH_SWE i0 i1 i2), 40, 8⟩

end Sys2Proof.Machine
end

