-- ==== Sys2Proof/Machine/RegMap.lean ====
section
/-! DEFINITION. The register tables of the spec as data (R16 to R18, R58): for every register
its place, and for every field its access code, its reset value and its reserved values. The
reset value of a register that no table names is zero, and its offset is unmapped (R57). -/

namespace Sys2Proof.Machine

/-- The access codes of Table 0-4. -/
inductive Access | rw | ro | wo | w1c | w1s | wa
  deriving DecidableEq, Repr

/-- The reserved-value rule of a field (R18). `range` lists the values allowed, `smag` bounds a
signed magnitude, `whileClear d` allows a write only while bit 0 of the register `d` bytes
below is 0 (R419, R420), and the named rules are those of Tables 1-2, 1-5 and 12-10. -/
inductive Chk
  | range (lo hi : Nat)
  | smag (w bound : Nat)
  | oneOf (vs : List Nat)
  | whileClear (delta : Nat)
  | period | width
  | period4000 | phase | slotLen | slotLatest
  deriving DecidableEq, Repr

/-- One field of a register table. -/
structure FieldD where
  lo : Nat
  w : Nat
  acc : Access
  reset : Nat
  chk : List Chk
  deriving DecidableEq, Repr

/-- One register of a table, with its indices as (stride, count), outermost first. -/
structure RegD where
  off : Nat
  dims : List (Nat × Nat)
  fields : List FieldD
  deriving DecidableEq, Repr

/-- One row of Table 2-3. -/
structure BlockD where
  base : Nat
  size : Nat
  regs : List RegD
  deriving DecidableEq, Repr

/-- Registers of block SYS, part 0. -/
def regsSYS0 : List RegD := [
  ⟨0x100, [], [
    ⟨0, 12, .rw, 125, [.period4000]⟩,
    ⟨12, 12, .rw, 0, [.phase]⟩,
    ⟨24, 1, .wa, 0, []⟩,
    ⟨25, 1, .rw, 0, []⟩,
    ⟨26, 1, .ro, 0, []⟩,
    ⟨27, 12, .ro, 125, []⟩,
    ⟨39, 12, .ro, 0, []⟩]⟩,
  ⟨0x110, [], [
    ⟨0, 8, .rw, 2, [.slotLen]⟩,
    ⟨8, 4, .rw, 0, []⟩,
    ⟨12, 12, .rw, 0, [.slotLatest]⟩,
    ⟨24, 1, .ro, 0, []⟩,
    ⟨25, 8, .ro, 2, []⟩,
    ⟨33, 12, .ro, 0, []⟩]⟩,
  ⟨0x200, [], [
    ⟨0, 1, .wa, 0, []⟩]⟩,
  ⟨0x210, [(0x10, 16)], [
    ⟨0, 22, .ro, 4194303, []⟩,
    ⟨22, 1, .ro, 0, []⟩]⟩,
  ⟨0x310, [], [
    ⟨0, 22, .ro, 4194303, []⟩]⟩,
  ⟨0x320, [], [
    ⟨0, 24, .ro, 16777215, []⟩,
    ⟨24, 5, .ro, 0, []⟩]⟩,
  ⟨0x330, [], [
    ⟨0, 16, .ro, 65535, []⟩]⟩,
  ⟨0x340, [], [
    ⟨0, 16, .ro, 65535, []⟩]⟩,
  ⟨0x120, [], [
    ⟨0, 2, .rw, 1, []⟩,
    ⟨2, 1, .wa, 0, []⟩,
    ⟨4, 2, .ro, 1, []⟩,
    ⟨8, 3, .ro, 0, []⟩]⟩,
  ⟨0x400, [(0x10, 5)], [
    ⟨0, 4, .rw, 3, [.range 1 15]⟩,
    ⟨4, 20, .rw, 10000, [.range 1 1048575]⟩,
    ⟨24, 1, .rw, 0, []⟩]⟩,
  ⟨0x450, [(0x10, 1)], [
    ⟨0, 4, .rw, 3, [.range 1 15]⟩,
    ⟨4, 20, .rw, 3, [.range 1 1048575]⟩,
    ⟨24, 1, .rw, 1, []⟩]⟩,
  ⟨0x460, [(0x10, 2)], [
    ⟨0, 4, .rw, 3, [.range 1 15]⟩,
    ⟨4, 20, .rw, 10000, [.range 1 1048575]⟩,
    ⟨24, 1, .rw, 0, []⟩]⟩]

/-- Registers of block SYS, part 1. -/
def regsSYS1 : List RegD := [
  ⟨0x0, [], [
    ⟨0, 16, .ro, 1824, []⟩,
    ⟨16, 2, .ro, Config.variant.toNat, []⟩,
    ⟨20, 4, .ro, Config.stepping.toNat, []⟩,
    ⟨24, 8, .ro, Config.buildLevel.toNat, []⟩]⟩,
  ⟨0x10, [], [
    ⟨0, 64, .ro, Config.serial.toNat, []⟩]⟩,
  ⟨0x20, [], [
    ⟨0, 16, .ro, (Config.fwVersion.toNat % 65536), []⟩,
    ⟨16, 16, .ro, (Config.fwVersion.toNat / 65536), []⟩]⟩,
  ⟨0x500, [], [
    ⟨0, 4, .rw, 15, []⟩,
    ⟨4, 1, .rw, 1, []⟩,
    ⟨5, 4, .rw, 0, []⟩,
    ⟨9, 4, .rw, 0, []⟩]⟩,
  ⟨0x510, [], [
    ⟨0, 24, .rw, 0, []⟩,
    ⟨24, 24, .rw, 0, []⟩]⟩,
  ⟨0x520, [], [
    ⟨0, 24, .ro, 0, []⟩]⟩,
  ⟨0x530, [], [
    ⟨0, 12, .ro, 0, []⟩,
    ⟨12, 8, .ro, 0, []⟩,
    ⟨20, 9, .w1c, 0, []⟩,
    ⟨29, 9, .ro, 0, []⟩,
    ⟨38, 9, .ro, 0, []⟩]⟩,
  ⟨0x180, [], [
    ⟨0, 1, .wa, 0, []⟩,
    ⟨1, 1, .wa, 0, []⟩,
    ⟨2, 1, .ro, 0, []⟩,
    ⟨3, 1, .ro, 0, []⟩,
    ⟨8, 16, .rw, 0, []⟩]⟩,
  ⟨0x190, [], [
    ⟨0, 3, .ro, 0, []⟩,
    ⟨3, 3, .ro, 0, []⟩,
    ⟨6, 1, .ro, 0, []⟩,
    ⟨16, 16, .ro, 0, []⟩,
    ⟨32, 16, .ro, 0, []⟩]⟩,
  ⟨0x1a0, [], [
    ⟨0, 29, .rw, 0, []⟩,
    ⟨29, 1, .wa, 0, []⟩,
    ⟨30, 3, .ro, 0, []⟩,
    ⟨33, 1, .ro, 0, []⟩,
    ⟨34, 3, .ro, 0, []⟩,
    ⟨37, 1, .ro, 0, []⟩]⟩,
  ⟨0x480, [], [
    ⟨0, 8, .ro, 0, []⟩]⟩]

/-- Block SYS of Table 2-3. -/
def blockSYS : BlockD := ⟨0x0, 0x10000, regsSYS0 ++ regsSYS1⟩

/-- Registers of block EVT, part 0. -/
def regsEVT0 : List RegD := [
  ⟨0x0, [], [
    ⟨0, 64, .w1c, 0, []⟩]⟩,
  ⟨0x10, [], [
    ⟨0, 64, .rw, 0, []⟩]⟩,
  ⟨0x20, [], [
    ⟨0, 64, .rw, 0, []⟩]⟩,
  ⟨0x30, [], [
    ⟨0, 64, .w1c, 0, []⟩]⟩,
  ⟨0x40, [], [
    ⟨0, 64, .w1s, 0, []⟩]⟩,
  ⟨0x50, [], [
    ⟨0, 1, .rw, 0, []⟩]⟩]

/-- Block EVT of Table 2-3. -/
def blockEVT : BlockD := ⟨0x10000, 0x10000, regsEVT0⟩

/-- Registers of block PWR, part 0. -/
def regsPWR0 : List RegD := [
  ⟨0x0, [], [
    ⟨0, 3, .rw, 0, []⟩,
    ⟨3, 1, .wa, 0, []⟩,
    ⟨4, 4, .rw, 0, []⟩,
    ⟨8, 1, .rw, 1, []⟩,
    ⟨9, 1, .rw, 1, []⟩,
    ⟨10, 1, .rw, 1, []⟩]⟩,
  ⟨0x10, [], [
    ⟨0, 3, .ro, 0, []⟩,
    ⟨3, 3, .ro, 0, []⟩,
    ⟨6, 12, .ro, 4095, []⟩,
    ⟨18, 9, .ro, 0, []⟩,
    ⟨27, 1, .ro, 1, []⟩]⟩,
  ⟨0x20, [], [
    ⟨0, 1, .w1c, 0, []⟩,
    ⟨1, 1, .w1c, 0, []⟩,
    ⟨2, 1, .w1c, 0, []⟩,
    ⟨3, 1, .w1c, 0, []⟩,
    ⟨4, 3, .ro, 0, []⟩,
    ⟨7, 1, .w1c, 0, []⟩,
    ⟨8, 1, .w1c, 0, []⟩]⟩,
  ⟨0x30, [], [
    ⟨0, 6, .rw, 47, []⟩,
    ⟨6, 3, .rw, 0, [.oneOf [0, 2]]⟩]⟩,
  ⟨0x40, [], [
    ⟨0, 32, .rw, 4294967295, []⟩]⟩,
  ⟨0x50, [], [
    ⟨0, 32, .rw, 0, []⟩]⟩,
  ⟨0x60, [], [
    ⟨0, 24, .rw, 0, []⟩,
    ⟨24, 24, .rw, 0, []⟩]⟩,
  ⟨0x70, [], [
    ⟨0, 48, .rw, 0, []⟩,
    ⟨48, 1, .rw, 0, []⟩]⟩,
  ⟨0x80, [], [
    ⟨0, 48, .ro, 0, []⟩]⟩,
  ⟨0x90, [], [
    ⟨0, 11, .ro, 0, []⟩,
    ⟨11, 11, .ro, 0, []⟩,
    ⟨22, 11, .ro, 0, []⟩,
    ⟨33, 1, .wa, 0, []⟩]⟩,
  ⟨0xa0, [], [
    ⟨0, 3, .rw, 6, [.range 1 7]⟩]⟩,
  ⟨0xb0, [], [
    ⟨0, 8, .ro, 0, []⟩,
    ⟨8, 8, .ro, 0, []⟩,
    ⟨16, 8, .rw, 105, []⟩]⟩]

/-- Registers of block PWR, part 1. -/
def regsPWR1 : List RegD := [
  ⟨0xc0, [], [
    ⟨0, 3, .ro, 0, []⟩,
    ⟨3, 1, .ro, 0, []⟩,
    ⟨4, 16, .ro, 0, []⟩]⟩]

/-- Block PWR of Table 2-3. -/
def blockPWR : BlockD := ⟨0x20000, 0x10000, regsPWR0 ++ regsPWR1⟩

/-- Registers of block CLK, part 0. -/
def regsCLK0 : List RegD := [
  ⟨0x0, [], [
    ⟨0, 1, .wa, 0, []⟩,
    ⟨1, 1, .wa, 0, []⟩]⟩,
  ⟨0x10, [], [
    ⟨0, 3, .ro, 0, []⟩,
    ⟨3, 4, .ro, 15, []⟩,
    ⟨7, 6, .ro, Config.factory 0x310f0 0, []⟩,
    ⟨13, 10, .ro, 512, []⟩,
    ⟨23, 8, .ro, 0, []⟩,
    ⟨31, 1, .ro, 0, []⟩,
    ⟨32, 1, .ro, 0, []⟩,
    ⟨33, 20, .ro, 0, []⟩,
    ⟨53, 8, .ro, 0, []⟩]⟩,
  ⟨0x20, [], [
    ⟨0, 3, .ro, 0, []⟩,
    ⟨3, 4, .ro, 15, []⟩,
    ⟨7, 6, .ro, Config.factory 0x311f0 0, []⟩,
    ⟨13, 10, .ro, 512, []⟩,
    ⟨23, 8, .ro, 0, []⟩]⟩,
  ⟨0x30, [], [
    ⟨0, 3, .ro, 0, []⟩,
    ⟨3, 4, .ro, 15, []⟩,
    ⟨7, 6, .ro, Config.factory 0x312f0 0, []⟩,
    ⟨13, 10, .ro, 512, []⟩,
    ⟨23, 8, .ro, 0, []⟩]⟩,
  ⟨0x40, [], [
    ⟨0, 11, .rw, 2047, []⟩]⟩,
  ⟨0x50, [], [
    ⟨0, 11, .ro, 0, []⟩]⟩,
  ⟨0x60, [], [
    ⟨0, 1, .w1c, 0, []⟩,
    ⟨1, 1, .w1c, 0, []⟩,
    ⟨2, 1, .w1c, 0, []⟩,
    ⟨3, 1, .w1c, 0, []⟩,
    ⟨4, 1, .w1c, 0, []⟩,
    ⟨5, 1, .w1c, 0, []⟩,
    ⟨6, 2, .ro, 0, []⟩,
    ⟨8, 4, .ro, 0, []⟩]⟩,
  ⟨0x70, [], [
    ⟨0, 11, .w1c, 0, []⟩]⟩,
  ⟨0x1000, [(0x10, 15)], [
    ⟨0, 6, .rw, 0, []⟩,
    ⟨6, 8, .rw, 0, []⟩,
    ⟨14, 8, .rw, 0, []⟩,
    ⟨22, 1, .rw, 0, []⟩]⟩,
  ⟨0x10f0, [], [
    ⟨0, 6, .ro, Config.factory 0x310f0 0, []⟩,
    ⟨6, 8, .ro, 216, []⟩,
    ⟨14, 8, .ro, 125, []⟩,
    ⟨22, 1, .ro, 1, []⟩]⟩,
  ⟨0x1100, [(0x10, 15)], [
    ⟨0, 6, .rw, 0, []⟩,
    ⟨6, 8, .rw, 0, []⟩,
    ⟨14, 8, .rw, 0, []⟩,
    ⟨22, 1, .rw, 0, []⟩]⟩,
  ⟨0x11f0, [], [
    ⟨0, 6, .ro, Config.factory 0x311f0 0, []⟩,
    ⟨6, 8, .ro, 216, []⟩,
    ⟨14, 8, .ro, 125, []⟩,
    ⟨22, 1, .ro, 1, []⟩]⟩]

/-- Registers of block CLK, part 1. -/
def regsCLK1 : List RegD := [
  ⟨0x1200, [(0x10, 15)], [
    ⟨0, 6, .rw, 0, []⟩,
    ⟨6, 8, .rw, 0, []⟩,
    ⟨14, 8, .rw, 0, []⟩,
    ⟨22, 1, .rw, 0, []⟩]⟩,
  ⟨0x12f0, [], [
    ⟨0, 6, .ro, Config.factory 0x312f0 0, []⟩,
    ⟨6, 8, .ro, 216, []⟩,
    ⟨14, 8, .ro, 125, []⟩,
    ⟨22, 1, .ro, 1, []⟩]⟩]

/-- Block CLK of Table 2-3. -/
def blockCLK : BlockD := ⟨0x30000, 0x10000, regsCLK0 ++ regsCLK1⟩

/-- Registers of block CMP, part 0. -/
def regsCMP0 : List RegD := [
  ⟨0x0, [], [
    ⟨0, 24, .rw, 21990, [.range 1 16777215]⟩,
    ⟨24, 12, .rw, 5, [.range 1 4095]⟩,
    ⟨36, 12, .rw, 10, []⟩,
    ⟨48, 1, .rw, 1, []⟩]⟩,
  ⟨0x10, [], [
    ⟨0, 16, .rw, 1000, [.range 60 65535]⟩,
    ⟨16, 8, .rw, 24, [.range 1 255]⟩,
    ⟨24, 24, .rw, 86400, []⟩]⟩,
  ⟨0x20, [], [
    ⟨0, 3, .ro, 0, []⟩,
    ⟨3, 2, .ro, 0, []⟩,
    ⟨5, 4, .ro, 15, []⟩,
    ⟨9, 4, .ro, 15, []⟩,
    ⟨13, 1, .ro, 0, []⟩,
    ⟨14, 1, .ro, 0, []⟩,
    ⟨15, 1, .ro, 0, []⟩,
    ⟨16, 1, .ro, 0, []⟩]⟩,
  ⟨0x30, [], [
    ⟨0, 1, .w1c, 0, []⟩,
    ⟨1, 1, .w1c, 0, []⟩,
    ⟨2, 1, .w1c, 0, []⟩,
    ⟨3, 1, .w1c, 0, []⟩,
    ⟨4, 1, .w1c, 0, []⟩,
    ⟨5, 1, .w1c, 0, []⟩,
    ⟨6, 1, .w1c, 0, []⟩,
    ⟨7, 1, .w1c, 0, []⟩,
    ⟨8, 1, .w1c, 0, []⟩,
    ⟨9, 4, .ro, 0, []⟩,
    ⟨13, 4, .ro, 0, []⟩]⟩,
  ⟨0x40, [], [
    ⟨0, 32, .ro, 0, []⟩]⟩,
  ⟨0x50, [], [
    ⟨0, 32, .ro, 0, []⟩,
    ⟨32, 32, .ro, 0, []⟩]⟩,
  ⟨0x60, [], [
    ⟨0, 32, .ro, 0, []⟩]⟩,
  ⟨0x70, [], [
    ⟨0, 32, .rw, Config.factory 0x40070 0, []⟩]⟩,
  ⟨0x80, [], [
    ⟨0, 32, .ro, 0, []⟩]⟩,
  ⟨0x1000, [(0x100, 8)], [
    ⟨0, 1, .rw, 0, []⟩,
    ⟨1, 2, .rw, 0, [.range 0 2, .whileClear 0]⟩,
    ⟨3, 5, .rw, 0, [.whileClear 0]⟩,
    ⟨8, 4, .rw, 15, []⟩,
    ⟨12, 16, .rw, 50, [.range 1 65535]⟩]⟩,
  ⟨0x1010, [(0x100, 8)], [
    ⟨0, 24, .rw, 5057753, []⟩]⟩,
  ⟨0x1020, [(0x100, 8)], [
    ⟨0, 3, .ro, 0, []⟩,
    ⟨3, 12, .ro, 0, []⟩,
    ⟨15, 1, .ro, 0, []⟩,
    ⟨16, 3, .ro, 0, []⟩,
    ⟨19, 1, .w1c, 0, []⟩,
    ⟨20, 1, .ro, 0, []⟩]⟩]

/-- Registers of block CMP, part 1. -/
def regsCMP1 : List RegD := [
  ⟨0x1030, [(0x100, 8)], [
    ⟨0, 32, .ro, 0, []⟩,
    ⟨32, 1, .ro, 0, []⟩]⟩,
  ⟨0x1080, [(0x100, 8), (0x10, 5)], [
    ⟨0, 40, .ro, 0, []⟩,
    ⟨40, 1, .wa, 0, []⟩]⟩]

/-- Block CMP of Table 2-3. -/
def blockCMP : BlockD := ⟨0x40000, 0x10000, regsCMP0 ++ regsCMP1⟩

/-- Registers of block LAN, part 0. -/
def regsLAN0 : List RegD := [
  ⟨0x0, [], [
    ⟨0, 4, .rw, 0, [.range 0 2]⟩]⟩,
  ⟨0x10, [], [
    ⟨0, 4, .ro, 0, []⟩,
    ⟨4, 4, .ro, 15, []⟩,
    ⟨8, 1, .ro, 0, []⟩]⟩,
  ⟨0x20, [], [
    ⟨0, 4, .ro, 15, []⟩,
    ⟨4, 4, .ro, 15, []⟩,
    ⟨8, 1, .w1c, 0, []⟩,
    ⟨9, 16, .w1c, 0, []⟩]⟩,
  ⟨0x30, [], [
    ⟨0, 32, .rw, 0, [.smag 32 1099511627]⟩]⟩,
  ⟨0x40, [], [
    ⟨0, 64, .rw, 0, []⟩,
    ⟨64, 2, .rw, 0, [.range 0 2]⟩,
    ⟨66, 1, .wa, 0, []⟩,
    ⟨67, 1, .ro, 0, []⟩,
    ⟨68, 1, .ro, 0, []⟩]⟩,
  ⟨0x50, [], [
    ⟨0, 8, .rw, 100, [.range 1 200]⟩]⟩,
  ⟨0x80, [], [
    ⟨8, 64, .rw, 0, []⟩,
    ⟨4, 4, .rw, 0, []⟩,
    ⟨0, 4, .rw, 0, []⟩]⟩,
  ⟨0x90, [], [
    ⟨42, 30, .rw, 0, []⟩,
    ⟨26, 16, .rw, 0, []⟩]⟩,
  ⟨0xa0, [], [
    ⟨0, 1, .wa, 0, []⟩,
    ⟨16, 16, .ro, 0, []⟩]⟩,
  ⟨0xc0, [], [
    ⟨8, 64, .ro, 0, []⟩,
    ⟨4, 4, .ro, 15, []⟩,
    ⟨0, 4, .ro, 0, []⟩]⟩,
  ⟨0xd0, [], [
    ⟨42, 30, .ro, 0, []⟩,
    ⟨26, 16, .ro, 0, []⟩]⟩,
  ⟨0xe0, [], [
    ⟨0, 72, .ro, 0, []⟩]⟩]

/-- Registers of block LAN, part 1. -/
def regsLAN1 : List RegD := [
  ⟨0xf0, [], [
    ⟨0, 32, .ro, 0, []⟩,
    ⟨32, 16, .ro, 0, []⟩]⟩,
  ⟨0x100, [], [
    ⟨0, 48, .ro, 0, []⟩,
    ⟨48, 1, .ro, 0, []⟩]⟩,
  ⟨0x110, [], [
    ⟨0, 32, .ro, 0, []⟩,
    ⟨32, 1, .ro, 0, []⟩]⟩,
  ⟨0x1000, [(0x200, 16)], [
    ⟨0, 3, .rw, 0, [.range 0 4]⟩,
    ⟨3, 2, .rw, 0, []⟩,
    ⟨5, 4, .rw, 4, [.range 0 10]⟩,
    ⟨9, 2, .rw, 1, []⟩,
    ⟨11, 4, .rw, 4, [.range 1 15]⟩,
    ⟨15, 1, .rw, 0, []⟩,
    ⟨16, 2, .rw, 0, [.range 0 2]⟩,
    ⟨18, 1, .wa, 0, []⟩]⟩,
  ⟨0x1010, [(0x200, 16)], [
    ⟨0, 72, .rw, 4294967296, [.range 1 4722366482869645213695]⟩]⟩,
  ⟨0x1020, [(0x200, 16)], [
    ⟨0, 40, .rw, 0, []⟩]⟩,
  ⟨0x1030, [(0x200, 16)], [
    ⟨0, 48, .rw, 0, []⟩]⟩,
  ⟨0x1040, [(0x200, 16)], [
    ⟨0, 3, .ro, 0, []⟩,
    ⟨3, 9, .ro, 0, []⟩,
    ⟨12, 8, .ro, 0, []⟩,
    ⟨20, 1, .wa, 0, []⟩]⟩,
  ⟨0x1050, [(0x200, 16)], [
    ⟨0, 72, .rw, 0, []⟩]⟩,
  ⟨0x1060, [(0x200, 16)], [
    ⟨0, 72, .ro, 0, []⟩]⟩,
  ⟨0x1070, [(0x200, 16)], [
    ⟨0, 32, .ro, 4294967295, []⟩]⟩,
  ⟨0x1080, [(0x200, 16)], [
    ⟨0, 72, .rw, 0, []⟩]⟩]

/-- Registers of block LAN, part 2. -/
def regsLAN2 : List RegD := [
  ⟨0x1090, [(0x200, 16)], [
    ⟨0, 72, .rw, 0, []⟩]⟩,
  ⟨0x10a0, [(0x200, 16)], [
    ⟨0, 72, .rw, 0, []⟩]⟩,
  ⟨0x10b0, [(0x200, 16)], [
    ⟨0, 72, .rw, 0, []⟩]⟩,
  ⟨0x10c0, [(0x200, 16)], [
    ⟨0, 1, .wa, 0, []⟩,
    ⟨1, 3, .ro, 4, []⟩,
    ⟨4, 1, .w1c, 0, []⟩,
    ⟨5, 1, .w1c, 0, []⟩]⟩,
  ⟨0x10d0, [(0x200, 16)], [
    ⟨0, 1, .wa, 0, []⟩,
    ⟨16, 16, .ro, 0, []⟩]⟩,
  ⟨0x10e0, [(0x200, 16)], [
    ⟨0, 72, .ro, 0, []⟩]⟩,
  ⟨0x10f0, [(0x200, 16)], [
    ⟨0, 72, .ro, 0, []⟩]⟩,
  ⟨0x1100, [(0x200, 16)], [
    ⟨0, 72, .ro, 0, []⟩]⟩,
  ⟨0x1110, [(0x200, 16)], [
    ⟨0, 72, .ro, 0, []⟩]⟩,
  ⟨0x1120, [(0x200, 16)], [
    ⟨0, 72, .rw, 0, []⟩]⟩,
  ⟨0x1130, [(0x200, 16)], [
    ⟨0, 1, .wa, 0, []⟩,
    ⟨1, 2, .rw, 0, [.range 0 2]⟩,
    ⟨3, 1, .ro, 0, []⟩,
    ⟨4, 3, .ro, 0, []⟩]⟩,
  ⟨0x1140, [(0x200, 16)], [
    ⟨0, 72, .ro, 0, []⟩]⟩]

/-- Registers of block LAN, part 3. -/
def regsLAN3 : List RegD := [
  ⟨0x200, [(0x200, 2)], [
    ⟨0, 1, .rw, 0, []⟩,
    ⟨1, 8, .rw, 0, []⟩,
    ⟨9, 2, .rw, 0, [.range 0 2]⟩,
    ⟨11, 1, .rw, 0, []⟩,
    ⟨12, 1, .rw, 0, []⟩,
    ⟨13, 3, .rw, 3, []⟩,
    ⟨16, 4, .rw, 0, []⟩]⟩,
  ⟨0x210, [(0x200, 2)], [
    ⟨0, 2, .rw, 0, [.range 0 2]⟩,
    ⟨2, 1, .rw, 0, []⟩]⟩,
  ⟨0x220, [(0x200, 2), (0x20, 2)], [
    ⟨0, 64, .rw, 0, []⟩]⟩,
  ⟨0x230, [(0x200, 2), (0x20, 2)], [
    ⟨0, 16, .rw, 0, []⟩,
    ⟨16, 5, .rw, 0, []⟩,
    ⟨21, 1, .rw, 0, []⟩]⟩,
  ⟨0x260, [(0x200, 2)], [
    ⟨0, 3, .ro, 0, []⟩,
    ⟨3, 1, .ro, 0, []⟩,
    ⟨4, 1, .ro, 0, []⟩,
    ⟨5, 1, .ro, 0, []⟩,
    ⟨6, 3, .ro, 3, []⟩]⟩,
  ⟨0x270, [(0x200, 2)], [
    ⟨0, 24, .rw, 1000, []⟩,
    ⟨24, 16, .rw, 1000, []⟩,
    ⟨40, 16, .rw, 3000, [.range 1 65535]⟩]⟩,
  ⟨0x280, [(0x200, 2)], [
    ⟨0, 64, .ro, 0, []⟩]⟩,
  ⟨0x290, [(0x200, 2), (0x10, 2)], [
    ⟨0, 48, .ro, 0, []⟩]⟩,
  ⟨0x2b0, [(0x200, 2)], [
    ⟨0, 48, .ro, 0, []⟩]⟩,
  ⟨0x2c0, [(0x200, 2)], [
    ⟨0, 1, .w1c, 0, []⟩,
    ⟨1, 1, .w1c, 0, []⟩,
    ⟨2, 1, .w1c, 0, []⟩,
    ⟨3, 1, .w1c, 0, []⟩,
    ⟨4, 1, .w1c, 0, []⟩]⟩,
  ⟨0x180, [], [
    ⟨0, 32, .rw, 1000000, []⟩,
    ⟨32, 1, .rw, 0, []⟩,
    ⟨33, 1, .ro, 0, []⟩,
    ⟨34, 1, .ro, 0, []⟩,
    ⟨35, 3, .ro, 0, []⟩,
    ⟨38, 4, .ro, 0, []⟩]⟩,
  ⟨0x190, [], [
    ⟨0, 64, .rw, 0, []⟩]⟩]

/-- Registers of block LAN, part 4. -/
def regsLAN4 : List RegD := [
  ⟨0x1a0, [], [
    ⟨0, 1, .w1c, 0, []⟩,
    ⟨1, 1, .w1c, 0, []⟩,
    ⟨2, 1, .w1c, 0, []⟩]⟩,
  ⟨0x600, [(0x10, 4)], [
    ⟨0, 8, .rw, 0, []⟩,
    ⟨8, 32, .rw, 0, []⟩,
    ⟨40, 4, .rw, 0, []⟩,
    ⟨44, 1, .rw, 0, []⟩]⟩]

/-- Block LAN of Table 2-3. -/
def blockLAN : BlockD := ⟨0x50000, 0x10000, regsLAN0 ++ regsLAN1 ++ regsLAN2 ++ regsLAN3 ++ regsLAN4⟩

/-- Registers of block TIC, part 0. -/
def regsTIC0 : List RegD := [
  ⟨0x0, [], [
    ⟨0, 1, .rw, 0, []⟩,
    ⟨1, 1, .wa, 0, []⟩,
    ⟨2, 1, .rw, 0, []⟩,
    ⟨3, 4, .rw, 0, []⟩,
    ⟨7, 1, .rw, 0, []⟩,
    ⟨8, 11, .rw, 0, []⟩,
    ⟨19, 1, .rw, 0, []⟩,
    ⟨20, 4, .rw, 1, [.range 1 8]⟩,
    ⟨24, 14, .rw, 10000, [.range 1 10000]⟩]⟩,
  ⟨0x10, [], [
    ⟨0, 72, .rw, 0, []⟩]⟩,
  ⟨0x20, [], [
    ⟨0, 1, .ro, 0, []⟩,
    ⟨1, 1, .ro, 0, []⟩,
    ⟨2, 1, .ro, 0, []⟩,
    ⟨3, 3, .ro, 0, []⟩,
    ⟨6, 8, .ro, 0, []⟩,
    ⟨14, 8, .ro, 0, []⟩,
    ⟨22, 1, .wa, 0, []⟩]⟩,
  ⟨0x30, [], [
    ⟨0, 1, .w1c, 0, []⟩,
    ⟨1, 1, .w1c, 0, []⟩,
    ⟨2, 1, .w1c, 0, []⟩]⟩,
  ⟨0x40, [], [
    ⟨0, 16, .ro, 0, []⟩]⟩,
  ⟨0x50, [], [
    ⟨0, 1, .ro, 0, []⟩,
    ⟨1, 3, .ro, 0, []⟩,
    ⟨4, 4, .ro, 0, []⟩,
    ⟨8, 1, .ro, 0, []⟩,
    ⟨9, 1, .ro, 0, []⟩,
    ⟨16, 16, .ro, 0, []⟩,
    ⟨32, 32, .ro, 0, []⟩]⟩,
  ⟨0x60, [], [
    ⟨0, 72, .ro, 0, []⟩]⟩,
  ⟨0x70, [(0x10, 8)], [
    ⟨0, 50, .ro, 0, []⟩]⟩,
  ⟨0xf0, [], [
    ⟨0, 1, .wa, 0, []⟩]⟩,
  ⟨0x100, [(0x10, 11)], [
    ⟨0, 16, .rw, 0, []⟩]⟩]

/-- Block TIC of Table 2-3. -/
def blockTIC : BlockD := ⟨0x60000, 0x10000, regsTIC0⟩

/-- Registers of block CAL, part 0. -/
def regsCAL0 : List RegD := [
  ⟨0x0, [], [
    ⟨0, 1, .rw, 1, []⟩,
    ⟨1, 1, .rw, 1, []⟩,
    ⟨2, 16, .rw, 60, [.range 1 65535]⟩]⟩,
  ⟨0x10, [], [
    ⟨0, 4, .rw, 0, [.range 0 5]⟩,
    ⟨4, 6, .rw, 0, []⟩,
    ⟨10, 1, .wa, 0, []⟩]⟩,
  ⟨0x20, [], [
    ⟨0, 1, .ro, 0, []⟩,
    ⟨1, 4, .ro, 0, []⟩,
    ⟨5, 6, .ro, 0, []⟩,
    ⟨11, 3, .ro, 0, []⟩,
    ⟨14, 20, .ro, 0, []⟩]⟩,
  ⟨0x30, [], [
    ⟨0, 1, .w1c, 0, []⟩,
    ⟨1, 1, .w1c, 0, []⟩,
    ⟨2, 4, .ro, 0, []⟩,
    ⟨6, 6, .ro, 0, []⟩,
    ⟨12, 3, .ro, 0, []⟩]⟩,
  ⟨0x40, [], [
    ⟨0, 16, .ro, 49152, []⟩,
    ⟨16, 16, .w1c, 0, []⟩,
    ⟨32, 12, .w1c, 0, []⟩,
    ⟨44, 6, .ro, 0, []⟩]⟩,
  ⟨0x100, [], [
    ⟨0, 24, .ro, 0, []⟩,
    ⟨24, 24, .ro, 0, []⟩,
    ⟨48, 5, .ro, 0, []⟩]⟩,
  ⟨0x110, [], [
    ⟨0, 24, .ro, 0, []⟩,
    ⟨24, 24, .ro, 0, []⟩,
    ⟨48, 5, .ro, 1, []⟩]⟩,
  ⟨0x120, [], [
    ⟨0, 24, .ro, 0, []⟩,
    ⟨24, 24, .ro, 0, []⟩,
    ⟨48, 5, .ro, 2, []⟩]⟩,
  ⟨0x130, [], [
    ⟨0, 24, .ro, 0, []⟩,
    ⟨24, 24, .ro, 0, []⟩,
    ⟨48, 5, .ro, 3, []⟩]⟩,
  ⟨0x140, [], [
    ⟨0, 24, .ro, 0, []⟩,
    ⟨24, 24, .ro, 0, []⟩,
    ⟨48, 5, .ro, 4, []⟩]⟩,
  ⟨0x150, [], [
    ⟨0, 24, .ro, 0, []⟩,
    ⟨24, 24, .ro, 0, []⟩,
    ⟨48, 5, .ro, 5, []⟩]⟩,
  ⟨0x160, [], [
    ⟨0, 24, .ro, 0, []⟩,
    ⟨24, 24, .ro, 0, []⟩,
    ⟨48, 5, .ro, 6, []⟩]⟩]

/-- Registers of block CAL, part 1. -/
def regsCAL1 : List RegD := [
  ⟨0x170, [], [
    ⟨0, 24, .ro, 0, []⟩,
    ⟨24, 24, .ro, 0, []⟩,
    ⟨48, 5, .ro, 7, []⟩]⟩,
  ⟨0x180, [], [
    ⟨0, 24, .ro, 0, []⟩,
    ⟨24, 24, .ro, 0, []⟩,
    ⟨48, 5, .ro, 8, []⟩]⟩,
  ⟨0x190, [], [
    ⟨0, 24, .ro, 0, []⟩,
    ⟨24, 24, .ro, 0, []⟩,
    ⟨48, 5, .ro, 9, []⟩]⟩,
  ⟨0x1a0, [], [
    ⟨0, 24, .ro, 0, []⟩,
    ⟨24, 24, .ro, 0, []⟩,
    ⟨48, 5, .ro, 10, []⟩]⟩,
  ⟨0x1b0, [], [
    ⟨0, 24, .ro, 0, []⟩,
    ⟨24, 24, .ro, 0, []⟩,
    ⟨48, 5, .ro, 11, []⟩]⟩,
  ⟨0x1c0, [], [
    ⟨0, 24, .ro, 0, []⟩,
    ⟨24, 24, .ro, 0, []⟩,
    ⟨48, 5, .ro, 12, []⟩]⟩,
  ⟨0x1d0, [], [
    ⟨0, 24, .ro, 0, []⟩,
    ⟨24, 24, .ro, 0, []⟩,
    ⟨48, 5, .ro, 13, []⟩]⟩,
  ⟨0x1e0, [(0x10, 2)], [
    ⟨0, 24, .ro, 0, []⟩,
    ⟨24, 24, .ro, 0, []⟩,
    ⟨48, 5, .ro, 31, []⟩]⟩,
  ⟨0x200, [(0x10, 12)], [
    ⟨0, 16, .ro, 0, []⟩,
    ⟨16, 20, .ro, 0, []⟩]⟩,
  ⟨0x300, [], [
    ⟨0, 4, .rw, 0, []⟩,
    ⟨4, 4, .rw, 0, []⟩,
    ⟨8, 40, .rw, 1000, []⟩]⟩,
  ⟨0x400, [], [
    ⟨0, 1, .wa, 0, []⟩,
    ⟨1, 1, .ro, 0, []⟩,
    ⟨2, 8, .ro, 0, []⟩]⟩,
  ⟨0x1000, [(0x20, 64)], [
    ⟨0, 16, .ro, 0, []⟩,
    ⟨16, 16, .ro, 0, []⟩]⟩]

/-- Registers of block CAL, part 2. -/
def regsCAL2 : List RegD := [
  ⟨0x1010, [(0x20, 64)], [
    ⟨0, 72, .ro, 0, []⟩]⟩]

/-- Block CAL of Table 2-3. -/
def blockCAL : BlockD := ⟨0x70000, 0x10000, regsCAL0 ++ regsCAL1 ++ regsCAL2⟩

/-- Registers of block IO, part 0. -/
def regsIO0 : List RegD := [
  ⟨0x0, [(0x100, 4)], [
    ⟨0, 2, .rw, 0, []⟩,
    ⟨2, 4, .rw, 2, []⟩]⟩,
  ⟨0x10, [(0x100, 4)], [
    ⟨0, 6, .rw, 25, [.range 8 40]⟩,
    ⟨6, 2, .rw, 3, []⟩,
    ⟨8, 1, .rw, 0, []⟩,
    ⟨9, 1, .rw, 0, []⟩,
    ⟨10, 1, .rw, 0, []⟩,
    ⟨11, 8, .rw, 20, [.range 1 255]⟩]⟩,
  ⟨0x20, [(0x100, 4)], [
    ⟨0, 16, .rw, 0, []⟩]⟩,
  ⟨0x30, [(0x100, 4)], [
    ⟨0, 1, .ro, 0, []⟩,
    ⟨8, 8, .ro, 0, []⟩,
    ⟨16, 8, .ro, 0, []⟩,
    ⟨24, 1, .wa, 0, []⟩]⟩,
  ⟨0x10000, [(0x100, 5)], [
    ⟨0, 1, .rw, 0, []⟩,
    ⟨1, 1, .rw, 0, [.whileClear 0]⟩,
    ⟨2, 3, .rw, 0, [.range 0 5, .whileClear 0]⟩,
    ⟨5, 1, .rw, 1, []⟩,
    ⟨6, 1, .rw, 0, []⟩]⟩,
  ⟨0x10500, [], [
    ⟨0, 1, .rw, 0, []⟩,
    ⟨1, 1, .rw, 0, [.whileClear 0]⟩,
    ⟨2, 3, .rw, 0, [.range 0 5, .whileClear 0]⟩,
    ⟨5, 1, .ro, 0, []⟩,
    ⟨6, 1, .rw, 0, []⟩]⟩,
  ⟨0x10010, [(0x100, 4)], [
    ⟨0, 32, .rw, 1000000000, [.period, .whileClear 0x10]⟩]⟩,
  ⟨0x10410, [], [
    ⟨0, 32, .ro, 1000000000, [.period, .whileClear 0x10]⟩]⟩,
  ⟨0x10510, [], [
    ⟨0, 32, .ro, 100, [.period, .whileClear 0x10]⟩]⟩,
  ⟨0x10020, [(0x100, 4)], [
    ⟨0, 32, .rw, 1000, [.width, .whileClear 0x20]⟩]⟩,
  ⟨0x10420, [], [
    ⟨0, 32, .rw, 100000, [.width, .whileClear 0x20]⟩]⟩,
  ⟨0x10520, [], [
    ⟨0, 32, .ro, 50, [.width, .whileClear 0x20]⟩]⟩]

/-- Registers of block IO, part 1. -/
def regsIO1 : List RegD := [
  ⟨0x10030, [(0x100, 6)], [
    ⟨0, 40, .rw, 0, []⟩]⟩,
  ⟨0x10040, [(0x100, 6)], [
    ⟨0, 40, .rw, 0, []⟩,
    ⟨40, 1, .rw, 0, []⟩,
    ⟨41, 1, .wa, 0, []⟩,
    ⟨42, 1, .ro, 0, []⟩]⟩,
  ⟨0x10050, [(0x100, 6)], [
    ⟨0, 1, .ro, 0, []⟩,
    ⟨1, 1, .ro, 0, []⟩,
    ⟨2, 8, .ro, 0, []⟩,
    ⟨10, 32, .ro, 0, []⟩,
    ⟨42, 1, .wa, 0, []⟩]⟩]

/-- Block IO of Table 2-3. -/
def blockIO : BlockD := ⟨0x80000, 0x80000, regsIO0 ++ regsIO1⟩

/-- Registers of block SDS, part 0. -/
def regsSDS0 : List RegD := [
  ⟨0x0, [(0x1000, 36)], [
    ⟨0, 1, .wa, 0, []⟩,
    ⟨1, 1, .rw, 0, []⟩,
    ⟨2, 1, .rw, 0, []⟩,
    ⟨3, 1, .rw, 0, []⟩]⟩,
  ⟨0x10, [(0x1000, 36)], [
    ⟨0, 4, .rw, 6, []⟩,
    ⟨4, 1, .rw, 0, []⟩,
    ⟨5, 1, .rw, 1, []⟩,
    ⟨6, 12, .rw, 400, []⟩,
    ⟨18, 12, .rw, 64, []⟩,
    ⟨30, 4, .rw, 2, []⟩,
    ⟨34, 5, .rw, 6, []⟩,
    ⟨39, 4, .rw, 10, []⟩]⟩,
  ⟨0x20, [(0x1000, 36)], [
    ⟨0, 4, .ro, 0, []⟩,
    ⟨4, 4, .ro, 6, []⟩,
    ⟨8, 12, .ro, 0, []⟩,
    ⟨20, 1, .ro, 0, []⟩,
    ⟨21, 1, .w1c, 0, []⟩,
    ⟨22, 1, .ro, 0, []⟩,
    ⟨23, 2, .ro, 0, []⟩,
    ⟨25, 2, .ro, 0, []⟩]⟩,
  ⟨0x30, [(0x1000, 36)], [
    ⟨0, 1, .w1c, 0, []⟩,
    ⟨1, 1, .w1c, 0, []⟩,
    ⟨2, 1, .w1c, 0, []⟩,
    ⟨3, 1, .w1c, 0, []⟩,
    ⟨4, 1, .w1c, 0, []⟩,
    ⟨5, 3, .ro, 0, []⟩,
    ⟨8, 4, .ro, 0, []⟩]⟩,
  ⟨0x40, [(0x1000, 36)], [
    ⟨0, 20, .ro, 0, []⟩]⟩,
  ⟨0x50, [(0x1000, 36)], [
    ⟨0, 2, .rw, 0, [.range 0 2]⟩,
    ⟨2, 1, .wa, 0, []⟩,
    ⟨3, 3, .ro, 0, []⟩]⟩,
  ⟨0x60, [(0x1000, 36)], [
    ⟨0, 6, .ro, 0, []⟩,
    ⟨6, 6, .ro, 0, []⟩,
    ⟨12, 40, .ro, 0, []⟩]⟩,
  ⟨0x20070, [], [
    ⟨0, 1, .rw, 0, []⟩,
    ⟨1, 4, .rw, 10, [.range 1 10]⟩,
    ⟨5, 1, .ro, 0, []⟩]⟩,
  ⟨0x400, [(0x1000, 36), (0x10, 5)], [
    ⟨0, 40, .ro, 0, []⟩,
    ⟨40, 1, .wa, 0, []⟩]⟩]

/-- Block SDS of Table 2-3. -/
def blockSDS : BlockD := ⟨0x100000, 0x24000, regsSDS0⟩

/-- Registers of block MAC, part 0. -/
def regsMAC0 : List RegD := [
  ⟨0x0, [(0x1000, 33)], [
    ⟨0, 1, .rw, 0, []⟩]⟩,
  ⟨0x10, [(0x1000, 33)], [
    ⟨0, 2, .rw, 2, [.range 0 2]⟩,
    ⟨2, 2, .rw, 0, [.range 0 2]⟩,
    ⟨4, 1, .rw, 0, []⟩,
    ⟨5, 1, .rw, 0, []⟩,
    ⟨6, 14, .rw, 1522, [.range 64 9216]⟩]⟩,
  ⟨0x20, [(0x1000, 33)], [
    ⟨0, 1, .ro, 0, []⟩,
    ⟨1, 1, .ro, 0, []⟩,
    ⟨2, 1, .ro, 0, []⟩,
    ⟨3, 1, .ro, 0, []⟩,
    ⟨4, 4, .ro, 0, []⟩]⟩,
  ⟨0x30, [(0x1000, 33)], [
    ⟨0, 1, .w1c, 0, []⟩,
    ⟨1, 1, .w1c, 0, []⟩,
    ⟨2, 1, .w1c, 0, []⟩,
    ⟨4, 4, .ro, 0, []⟩]⟩,
  ⟨0x40, [(0x1000, 32)], [
    ⟨0, 48, .rw, 0, []⟩]⟩,
  ⟨0x20040, [], [
    ⟨0, 48, .rw, 0, []⟩]⟩,
  ⟨0x50, [(0x1000, 33)], [
    ⟨0, 12, .rw, 1, [.range 1 4094]⟩,
    ⟨12, 2, .rw, 0, [.range 0 2]⟩,
    ⟨14, 1, .rw, 0, []⟩,
    ⟨15, 2, .rw, 1, []⟩,
    ⟨17, 3, .rw, 0, []⟩]⟩,
  ⟨0x60, [(0x1000, 33)], [
    ⟨0, 2, .rw, 1, [.range 0 2]⟩,
    ⟨2, 16, .rw, 65535, [.range 1 65535]⟩,
    ⟨18, 1, .rw, 0, []⟩]⟩,
  ⟨0x70, [(0x1000, 33)], [
    ⟨0, 8, .ro, 0, []⟩,
    ⟨8, 1, .ro, 0, []⟩]⟩,
  ⟨0x80, [(0x1000, 33)], [
    ⟨0, 1, .rw, 0, []⟩,
    ⟨1, 4, .rw, 0, []⟩,
    ⟨5, 3, .rw, 0, []⟩,
    ⟨8, 9, .rw, 0, []⟩,
    ⟨17, 1, .rw, 0, []⟩]⟩,
  ⟨0x90, [(0x1000, 33)], [
    ⟨0, 6, .ro, 0, []⟩,
    ⟨6, 1, .wa, 0, []⟩]⟩,
  ⟨0xa0, [(0x1000, 33)], [
    ⟨0, 72, .ro, 0, []⟩]⟩]

/-- Registers of block MAC, part 1. -/
def regsMAC1 : List RegD := [
  ⟨0xb0, [(0x1000, 33)], [
    ⟨0, 1, .ro, 0, []⟩,
    ⟨1, 1, .ro, 0, []⟩,
    ⟨2, 16, .ro, 0, []⟩,
    ⟨18, 4, .ro, 0, []⟩,
    ⟨22, 8, .ro, 0, []⟩,
    ⟨30, 16, .ro, 0, []⟩,
    ⟨46, 16, .ro, 0, []⟩]⟩,
  ⟨0xc0, [(0x1000, 33)], [
    ⟨0, 1, .rw, 0, []⟩]⟩,
  ⟨0xd0, [(0x1000, 33)], [
    ⟨0, 46, .ro, 0, []⟩]⟩,
  ⟨0xe0, [(0x1000, 32)], [
    ⟨0, 1, .w1c, 0, []⟩,
    ⟨1, 1, .w1c, 0, []⟩,
    ⟨2, 1, .w1c, 0, []⟩]⟩,
  ⟨0x100, [(0x1000, 32)], [
    ⟨0, 3, .rw, 0, [.range 0 4]⟩,
    ⟨3, 1, .rw, 0, []⟩,
    ⟨4, 1, .rw, 0, []⟩,
    ⟨5, 1, .rw, 1, []⟩,
    ⟨6, 1, .rw, 0, []⟩,
    ⟨7, 3, .rw, 6, []⟩,
    ⟨10, 1, .rw, 0, []⟩,
    ⟨11, 1, .rw, 0, []⟩,
    ⟨12, 2, .rw, 0, []⟩,
    ⟨14, 4, .rw, 0, [.oneOf [0, 1, 2, 3, 4, 9, 10, 11, 12, 13, 14, 15]]⟩,
    ⟨18, 4, .rw, 0, [.oneOf [0, 1, 2, 3, 4, 9, 10, 11, 12, 13, 14, 15]]⟩]⟩,
  ⟨0x110, [(0x1000, 32)], [
    ⟨0, 20, .rw, 0, []⟩,
    ⟨20, 20, .rw, 0, []⟩]⟩,
  ⟨0x120, [(0x1000, 32)], [
    ⟨0, 32, .rw, 0, []⟩,
    ⟨32, 32, .rw, 0, []⟩]⟩,
  ⟨0x130, [(0x1000, 32)], [
    ⟨0, 48, .ro, 0, []⟩,
    ⟨48, 1, .ro, 0, []⟩]⟩,
  ⟨0x140, [(0x1000, 32)], [
    ⟨0, 20, .ro, 0, []⟩,
    ⟨20, 20, .ro, 0, []⟩]⟩,
  ⟨0x150, [(0x1000, 32)], [
    ⟨0, 24, .rw, 0, []⟩,
    ⟨24, 1, .wa, 0, []⟩,
    ⟨25, 3, .ro, 0, []⟩,
    ⟨28, 20, .ro, 0, []⟩]⟩,
  ⟨0xf00, [], [
    ⟨0, 32, .ro, 0, []⟩,
    ⟨32, 32, .ro, 0, []⟩]⟩,
  ⟨0x400, [(0x1000, 33), (0x10, 46)], [
    ⟨0, 40, .ro, 0, []⟩,
    ⟨40, 1, .wa, 0, []⟩]⟩]

/-- Registers of block MAC, part 2. -/
def regsMAC2 : List RegD := [
  ⟨0x800, [(0x1000, 32), (0x10, 5)], [
    ⟨0, 40, .ro, 0, []⟩,
    ⟨40, 1, .wa, 0, []⟩]⟩]

/-- Block MAC of Table 2-3. -/
def blockMAC : BlockD := ⟨0x140000, 0x21000, regsMAC0 ++ regsMAC1 ++ regsMAC2⟩

/-- Registers of block SWC, part 0. -/
def regsSWC0 : List RegD := [
  ⟨0x0, [], [
    ⟨0, 4, .ro, 15, []⟩,
    ⟨4, 4, .w1c, 0, []⟩,
    ⟨8, 18, .ro, 212992, []⟩,
    ⟨26, 18, .ro, 212992, []⟩,
    ⟨44, 16, .ro, 16384, []⟩]⟩,
  ⟨0x10, [], [
    ⟨0, 1, .w1c, 0, []⟩,
    ⟨1, 1, .w1c, 0, []⟩,
    ⟨2, 1, .w1c, 0, []⟩,
    ⟨3, 1, .w1c, 0, []⟩,
    ⟨4, 1, .w1c, 0, []⟩,
    ⟨5, 1, .w1c, 0, []⟩,
    ⟨6, 1, .w1c, 0, []⟩,
    ⟨7, 1, .w1c, 0, []⟩,
    ⟨8, 1, .w1c, 0, []⟩,
    ⟨9, 1, .w1c, 0, []⟩,
    ⟨10, 1, .w1c, 0, []⟩,
    ⟨11, 1, .w1c, 0, []⟩,
    ⟨12, 1, .w1c, 0, []⟩,
    ⟨13, 3, .ro, 0, []⟩,
    ⟨16, 6, .ro, 0, []⟩,
    ⟨22, 6, .ro, 0, []⟩,
    ⟨28, 3, .ro, 0, []⟩]⟩,
  ⟨0x20, [], [
    ⟨0, 2, .ro, 0, []⟩,
    ⟨2, 12, .ro, 0, []⟩,
    ⟨14, 4, .ro, 0, []⟩,
    ⟨18, 1, .ro, 0, []⟩]⟩,
  ⟨0x30, [], [
    ⟨0, 5, .ro, 16, []⟩,
    ⟨5, 5, .ro, 16, []⟩,
    ⟨10, 5, .ro, 16, []⟩,
    ⟨15, 5, .ro, 16, []⟩,
    ⟨20, 4, .wa, 0, []⟩]⟩,
  ⟨0x40, [], [
    ⟨0, 16, .rw, 50, [.range 1 65535]⟩]⟩,
  ⟨0x50, [], [
    ⟨0, 10, .rw, 20, [.range 1 1023]⟩]⟩,
  ⟨0x60, [], [
    ⟨0, 16, .rw, 300, []⟩]⟩,
  ⟨0x1000, [(0x100, 32)], [
    ⟨0, 1, .rw, 0, []⟩,
    ⟨1, 2, .rw, 0, [.range 0 2]⟩,
    ⟨3, 1, .rw, 1, []⟩,
    ⟨4, 1, .rw, 0, []⟩,
    ⟨5, 3, .rw, 0, []⟩]⟩,
  ⟨0x3000, [(0x100, 2)], [
    ⟨0, 1, .rw, 0, []⟩,
    ⟨1, 2, .rw, 0, [.range 0 2]⟩,
    ⟨4, 1, .rw, 0, []⟩,
    ⟨5, 3, .rw, 0, []⟩]⟩,
  ⟨0x1010, [(0x100, 34)], [
    ⟨0, 4, .rw, 8, [.range 0 8]⟩,
    ⟨4, 8, .rw, 1, [.range 1 255]⟩,
    ⟨12, 8, .rw, 1, [.range 1 255]⟩,
    ⟨20, 8, .rw, 1, [.range 1 255]⟩,
    ⟨28, 8, .rw, 1, [.range 1 255]⟩,
    ⟨36, 8, .rw, 1, [.range 1 255]⟩,
    ⟨44, 8, .rw, 1, [.range 1 255]⟩,
    ⟨52, 8, .rw, 1, [.range 1 255]⟩,
    ⟨60, 8, .rw, 1, [.range 1 255]⟩]⟩,
  ⟨0x1020, [(0x100, 34)], [
    ⟨0, 24, .rw, 16434824, []⟩]⟩,
  ⟨0x1030, [(0x100, 34)], [
    ⟨0, 18, .rw, 8192, []⟩]⟩]

/-- Registers of block SWC, part 1. -/
def regsSWC1 : List RegD := [
  ⟨0x1040, [(0x100, 34)], [
    ⟨0, 8, .ro, 0, []⟩,
    ⟨8, 1, .ro, 0, []⟩,
    ⟨9, 1, .ro, 0, []⟩]⟩,
  ⟨0x4000, [(0x100, 32)], [
    ⟨0, 18, .rw, 6144, []⟩,
    ⟨18, 12, .rw, 256, []⟩,
    ⟨30, 12, .rw, 512, []⟩]⟩,
  ⟨0x6000, [(0x100, 1)], [
    ⟨0, 18, .rw, 4096, []⟩,
    ⟨18, 12, .rw, 256, []⟩,
    ⟨30, 12, .rw, 512, []⟩]⟩,
  ⟨0x6100, [(0x100, 2)], [
    ⟨0, 18, .rw, 2048, []⟩,
    ⟨18, 12, .rw, 256, []⟩,
    ⟨30, 12, .rw, 512, []⟩]⟩,
  ⟨0x4010, [(0x100, 32)], [
    ⟨0, 18, .ro, 0, []⟩,
    ⟨18, 18, .ro, 6144, []⟩,
    ⟨36, 1, .ro, 0, []⟩]⟩,
  ⟨0x6010, [(0x100, 1)], [
    ⟨0, 18, .ro, 0, []⟩,
    ⟨18, 18, .ro, 4096, []⟩,
    ⟨36, 1, .ro, 0, []⟩]⟩,
  ⟨0x6110, [(0x100, 2)], [
    ⟨0, 18, .ro, 0, []⟩,
    ⟨18, 18, .ro, 2048, []⟩,
    ⟨36, 1, .ro, 0, []⟩]⟩,
  ⟨0x10000, [], [
    ⟨0, 10, .rw, 0, []⟩]⟩,
  ⟨0x10010, [], [
    ⟨0, 48, .rw, 0, []⟩,
    ⟨48, 12, .rw, 0, []⟩,
    ⟨60, 1, .rw, 0, []⟩]⟩,
  ⟨0x10020, [], [
    ⟨0, 7, .rw, 32, [.range 2 64]⟩,
    ⟨7, 16, .rw, 100, [.range 1 65535]⟩,
    ⟨23, 1, .rw, 0, []⟩]⟩,
  ⟨0x10030, [], [
    ⟨0, 1, .wa, 0, []⟩,
    ⟨1, 1, .wa, 0, []⟩]⟩,
  ⟨0x20000, [], [
    ⟨0, 48, .rw, 0, []⟩,
    ⟨48, 12, .rw, 0, []⟩]⟩]

/-- Registers of block SWC, part 2. -/
def regsSWC2 : List RegD := [
  ⟨0x20010, [], [
    ⟨0, 34, .rw, 0, []⟩,
    ⟨34, 1, .rw, 0, []⟩,
    ⟨35, 1, .rw, 0, []⟩]⟩,
  ⟨0x20020, [], [
    ⟨0, 1, .wa, 0, []⟩,
    ⟨1, 1, .wa, 0, []⟩,
    ⟨2, 1, .wa, 0, []⟩,
    ⟨3, 1, .ro, 0, []⟩,
    ⟨4, 1, .ro, 0, []⟩]⟩,
  ⟨0x20030, [], [
    ⟨0, 12, .rw, 0, []⟩]⟩,
  ⟨0x20040, [], [
    ⟨0, 34, .rw, 0, []⟩]⟩,
  ⟨0x20050, [], [
    ⟨0, 1, .wa, 0, []⟩,
    ⟨1, 1, .wa, 0, []⟩]⟩,
  ⟨0x30000, [(0x600, 34), (0x80, 8), (0x10, 7)], [
    ⟨0, 40, .ro, 0, []⟩,
    ⟨40, 1, .wa, 0, []⟩]⟩,
  ⟨0x30400, [(0x600, 32), (0x10, 7)], [
    ⟨0, 40, .ro, 0, []⟩,
    ⟨40, 1, .wa, 0, []⟩]⟩,
  ⟨0x30500, [(0x600, 34), (0x10, 2)], [
    ⟨0, 40, .ro, 0, []⟩,
    ⟨40, 1, .wa, 0, []⟩]⟩,
  ⟨0x3d000, [(0x80, 35), (0x10, 7)], [
    ⟨0, 40, .ro, 0, []⟩,
    ⟨40, 1, .wa, 0, []⟩]⟩,
  ⟨0x3f000, [(0x10, 4)], [
    ⟨0, 40, .ro, 0, []⟩,
    ⟨40, 1, .wa, 0, []⟩]⟩]

/-- Block SWC of Table 2-3. -/
def blockSWC : BlockD := ⟨0x180000, 0x40000, regsSWC0 ++ regsSWC1 ++ regsSWC2⟩

/-- Registers of block ZRG, part 0. -/
def regsZRG0 : List RegD := [
  ⟨0x0, [(0x1000, 32)], [
    ⟨0, 1, .rw, 0, []⟩,
    ⟨1, 2, .rw, 0, [.range 0 2]⟩,
    ⟨3, 5, .rw, 0, []⟩,
    ⟨8, 5, .rw, 0, []⟩,
    ⟨13, 1, .wa, 0, []⟩]⟩,
  ⟨0x10, [(0x1000, 32)], [
    ⟨0, 3, .ro, 0, []⟩,
    ⟨3, 1, .ro, 0, []⟩,
    ⟨4, 9, .ro, 0, []⟩,
    ⟨13, 1, .ro, 0, []⟩]⟩,
  ⟨0x20, [(0x1000, 32)], [
    ⟨0, 1, .w1c, 0, []⟩,
    ⟨1, 1, .w1c, 0, []⟩,
    ⟨2, 1, .w1c, 0, []⟩,
    ⟨3, 1, .w1c, 0, []⟩,
    ⟨4, 1, .w1c, 0, []⟩,
    ⟨5, 1, .w1c, 0, []⟩,
    ⟨6, 1, .w1c, 0, []⟩,
    ⟨7, 1, .w1c, 0, []⟩,
    ⟨8, 1, .w1c, 0, []⟩,
    ⟨9, 1, .w1c, 0, []⟩,
    ⟨10, 1, .w1c, 0, []⟩,
    ⟨11, 1, .w1c, 0, []⟩,
    ⟨12, 4, .ro, 0, []⟩,
    ⟨16, 9, .ro, 0, []⟩,
    ⟨25, 9, .ro, 0, []⟩]⟩,
  ⟨0x30, [(0x1000, 32)], [
    ⟨0, 20, .ro, 0, []⟩,
    ⟨20, 20, .ro, 0, []⟩]⟩,
  ⟨0x40, [(0x1000, 32)], [
    ⟨0, 24, .ro, 0, []⟩,
    ⟨24, 24, .ro, 0, []⟩]⟩,
  ⟨0x50, [(0x1000, 32)], [
    ⟨0, 14, .rw, 256, [.range 64 1518]⟩,
    ⟨14, 3, .rw, 0, []⟩,
    ⟨17, 1, .rw, 1, []⟩,
    ⟨18, 9, .ro, 511, []⟩]⟩,
  ⟨0x60, [(0x1000, 32)], [
    ⟨0, 8, .rw, 3, [.range 1 255]⟩]⟩,
  ⟨0x70, [(0x1000, 32)], [
    ⟨0, 9, .rw, 0, []⟩]⟩,
  ⟨0x80, [(0x1000, 32), (0x10, 4)], [
    ⟨0, 64, .ro, 0, []⟩]⟩,
  ⟨0xc0, [(0x1000, 32), (0x10, 4)], [
    ⟨0, 64, .w1c, 0, []⟩]⟩,
  ⟨0x20000, [], [
    ⟨0, 16, .rw, 34997, []⟩]⟩,
  ⟨0x20010, [], [
    ⟨0, 1, .ro, 1, []⟩,
    ⟨1, 1, .ro, 0, []⟩,
    ⟨2, 1, .wa, 0, []⟩,
    ⟨3, 1, .ro, 0, []⟩,
    ⟨4, 1, .ro, 0, []⟩]⟩]

/-- Registers of block ZRG, part 1. -/
def regsZRG1 : List RegD := [
  ⟨0x20020, [], [
    ⟨0, 18, .rw, 0, []⟩]⟩,
  ⟨0x20030, [], [
    ⟨0, 72, .rw, 0, []⟩]⟩,
  ⟨0x20040, [], [
    ⟨0, 72, .rw, 0, []⟩]⟩,
  ⟨0x20050, [], [
    ⟨0, 1, .wa, 0, []⟩,
    ⟨1, 1, .wa, 0, []⟩,
    ⟨2, 1, .rw, 0, []⟩]⟩,
  ⟨0x20060, [], [
    ⟨0, 1, .w1c, 0, []⟩,
    ⟨1, 1, .w1c, 0, []⟩,
    ⟨4, 18, .ro, 0, []⟩,
    ⟨22, 5, .ro, 0, []⟩]⟩,
  ⟨0x800, [(0x1000, 32), (0x10, 9)], [
    ⟨0, 40, .ro, 0, []⟩,
    ⟨40, 1, .wa, 0, []⟩]⟩]

/-- Block ZRG of Table 2-3. -/
def blockZRG : BlockD := ⟨0x1c0000, 0x40000, regsZRG0 ++ regsZRG1⟩

/-- Registers of block GAL, part 0. -/
def regsGAL0 : List RegD := [
  ⟨0x0, [(0x10000, 16)], [
    ⟨0, 1, .rw, 1, []⟩,
    ⟨1, 1, .wa, 0, []⟩,
    ⟨2, 1, .wa, 0, []⟩]⟩,
  ⟨0x10, [(0x10000, 16)], [
    ⟨0, 29, .rw, 0, []⟩]⟩,
  ⟨0x20, [(0x10000, 16)], [
    ⟨0, 3, .ro, 0, []⟩,
    ⟨3, 1, .ro, 0, []⟩,
    ⟨4, 1, .ro, 0, []⟩,
    ⟨5, 1, .ro, 0, []⟩,
    ⟨6, 1, .ro, 0, []⟩,
    ⟨7, 1, .w1c, 0, []⟩,
    ⟨8, 4, .ro, 0, []⟩,
    ⟨12, 8, .ro, 0, []⟩,
    ⟨20, 1, .wa, 0, []⟩]⟩,
  ⟨0x30, [(0x10000, 16)], [
    ⟨0, 1, .w1c, 0, []⟩,
    ⟨1, 1, .w1c, 0, []⟩,
    ⟨2, 1, .w1c, 0, []⟩,
    ⟨3, 1, .w1c, 0, []⟩,
    ⟨4, 1, .w1c, 0, []⟩,
    ⟨5, 1, .w1c, 0, []⟩,
    ⟨6, 1, .w1c, 0, []⟩,
    ⟨7, 1, .w1c, 0, []⟩,
    ⟨8, 1, .w1c, 0, []⟩,
    ⟨10, 16, .ro, 0, []⟩,
    ⟨26, 8, .ro, 0, []⟩,
    ⟨34, 2, .ro, 0, []⟩,
    ⟨36, 1, .wa, 0, []⟩]⟩,
  ⟨0x40, [(0x10000, 16)], [
    ⟨0, 15, .ro, 0, []⟩,
    ⟨16, 4, .ro, 0, []⟩]⟩,
  ⟨0x50, [(0x10000, 16)], [
    ⟨0, 72, .ro, 0, []⟩]⟩,
  ⟨0x60, [(0x10000, 16)], [
    ⟨0, 32, .rw, 0, []⟩]⟩,
  ⟨0x70, [(0x10000, 16)], [
    ⟨0, 64, .ro, 0, []⟩]⟩,
  ⟨0x80, [(0x10000, 16)], [
    ⟨0, 22, .ro, 0, []⟩,
    ⟨22, 22, .ro, 0, []⟩]⟩,
  ⟨0x90, [(0x10000, 16)], [
    ⟨0, 22, .ro, 0, []⟩,
    ⟨22, 17, .ro, 0, []⟩]⟩,
  ⟨0xa0, [(0x10000, 16)], [
    ⟨0, 22, .ro, 4194303, []⟩,
    ⟨22, 1, .wa, 0, []⟩]⟩,
  ⟨0xb0, [(0x10000, 16)], [
    ⟨0, 14, .rw, 0, []⟩,
    ⟨14, 1, .wa, 0, []⟩]⟩]

/-- Registers of block GAL, part 1. -/
def regsGAL1 : List RegD := [
  ⟨0xc0, [(0x10000, 16)], [
    ⟨0, 72, .rw, 0, []⟩]⟩,
  ⟨0x8000, [], [
    ⟨0, 1, .rw, 0, []⟩,
    ⟨1, 1, .ro, 0, []⟩,
    ⟨2, 4, .ro, 0, []⟩,
    ⟨6, 1, .ro, 0, []⟩]⟩]

/-- Block GAL of Table 2-3. -/
def blockGAL : BlockD := ⟨0x200000, 0x100000, regsGAL0 ++ regsGAL1⟩

/-- Registers of block FLW, part 0. -/
def regsFLW0 : List RegD := [
  ⟨0x0, [], [
    ⟨0, 1, .rw, 1, []⟩,
    ⟨1, 1, .rw, 1, []⟩,
    ⟨2, 1, .ro, 0, []⟩]⟩,
  ⟨0x10, [], [
    ⟨0, 8, .ro, 255, []⟩,
    ⟨8, 8, .w1c, 0, []⟩,
    ⟨16, 5, .ro, 0, []⟩,
    ⟨21, 7, .ro, 0, []⟩]⟩,
  ⟨0x20, [], [
    ⟨0, 1, .w1c, 0, []⟩,
    ⟨1, 1, .w1c, 0, []⟩,
    ⟨2, 1, .w1c, 0, []⟩,
    ⟨3, 1, .w1c, 0, []⟩,
    ⟨4, 1, .w1c, 0, []⟩,
    ⟨5, 1, .w1c, 0, []⟩,
    ⟨8, 3, .ro, 0, []⟩]⟩,
  ⟨0x30, [], [
    ⟨0, 29, .ro, 0, []⟩,
    ⟨32, 18, .ro, 0, []⟩]⟩,
  ⟨0x40, [], [
    ⟨0, 4, .rw, 8, [.range 0 8]⟩,
    ⟨4, 1, .rw, 1, []⟩]⟩,
  ⟨0x50, [], [
    ⟨0, 22, .ro, 0, []⟩,
    ⟨22, 22, .ro, 0, []⟩]⟩,
  ⟨0x60, [], [
    ⟨0, 18, .rw, 0, []⟩,
    ⟨18, 18, .rw, 0, []⟩,
    ⟨36, 1, .wa, 0, []⟩]⟩,
  ⟨0x70, [], [
    ⟨0, 19, .ro, 0, []⟩]⟩,
  ⟨0x100, [(0x10, 8)], [
    ⟨0, 22, .ro, 0, []⟩]⟩,
  ⟨0x20000, [(0x40, 1024)], [
    ⟨0, 29, .rw, 0, []⟩,
    ⟨29, 20, .rw, 0, [.range 1 1048575]⟩,
    ⟨49, 1, .rw, 0, []⟩,
    ⟨50, 1, .rw, 0, []⟩]⟩,
  ⟨0x20010, [(0x40, 1024)], [
    ⟨0, 72, .rw, 0, []⟩]⟩,
  ⟨0x20020, [(0x40, 1024)], [
    ⟨0, 40, .rw, 0, []⟩]⟩]

/-- Registers of block FLW, part 1. -/
def regsFLW1 : List RegD := [
  ⟨0x10000, [], [
    ⟨0, 18, .rw, 0, []⟩]⟩,
  ⟨0x10010, [], [
    ⟨0, 72, .ro, 0, []⟩]⟩,
  ⟨0x10020, [], [
    ⟨0, 72, .ro, 0, []⟩]⟩,
  ⟨0x10030, [], [
    ⟨0, 10, .rw, 0, []⟩,
    ⟨10, 10, .rw, 0, []⟩,
    ⟨20, 20, .ro, 0, []⟩,
    ⟨40, 1, .rw, 0, []⟩,
    ⟨41, 1, .rw, 0, []⟩,
    ⟨42, 2, .ro, 0, []⟩,
    ⟨44, 3, .rw, 0, []⟩,
    ⟨47, 1, .rw, 0, []⟩,
    ⟨48, 14, .rw, 0, []⟩,
    ⟨62, 1, .rw, 0, []⟩]⟩,
  ⟨0x10040, [], [
    ⟨0, 72, .rw, 0, []⟩]⟩,
  ⟨0x10050, [], [
    ⟨0, 72, .ro, 0, []⟩]⟩,
  ⟨0x10060, [], [
    ⟨0, 32, .ro, 0, []⟩,
    ⟨32, 32, .ro, 0, []⟩,
    ⟨64, 1, .ro, 1, []⟩,
    ⟨65, 1, .ro, 0, []⟩,
    ⟨66, 1, .ro, 0, []⟩,
    ⟨67, 3, .ro, 1, []⟩]⟩,
  ⟨0x11000, [(0x100, 16)], [
    ⟨0, 18, .rw, 0, []⟩]⟩,
  ⟨0x11010, [(0x100, 16)], [
    ⟨0, 72, .ro, 0, []⟩]⟩,
  ⟨0x11020, [(0x100, 16)], [
    ⟨0, 72, .ro, 0, []⟩]⟩,
  ⟨0x11030, [(0x100, 16)], [
    ⟨0, 10, .rw, 0, []⟩,
    ⟨10, 10, .rw, 0, []⟩,
    ⟨20, 20, .ro, 0, []⟩,
    ⟨40, 1, .rw, 0, []⟩,
    ⟨41, 1, .rw, 0, []⟩,
    ⟨42, 2, .ro, 0, []⟩,
    ⟨44, 3, .rw, 0, []⟩,
    ⟨47, 1, .rw, 0, []⟩,
    ⟨48, 14, .rw, 0, []⟩,
    ⟨62, 1, .rw, 0, []⟩]⟩,
  ⟨0x11040, [(0x100, 16)], [
    ⟨0, 72, .rw, 0, []⟩]⟩]

/-- Registers of block FLW, part 2. -/
def regsFLW2 : List RegD := [
  ⟨0x11050, [(0x100, 16)], [
    ⟨0, 72, .ro, 0, []⟩]⟩,
  ⟨0x11060, [(0x100, 16)], [
    ⟨0, 32, .ro, 0, []⟩,
    ⟨32, 32, .ro, 0, []⟩,
    ⟨64, 1, .ro, 1, []⟩,
    ⟨65, 1, .ro, 0, []⟩,
    ⟨66, 1, .ro, 0, []⟩,
    ⟨67, 3, .ro, 1, []⟩]⟩,
  ⟨0x800, [(0x10, 8)], [
    ⟨0, 40, .ro, 0, []⟩,
    ⟨40, 1, .wa, 0, []⟩]⟩]

/-- Block FLW of Table 2-3. -/
def blockFLW : BlockD := ⟨0x300000, 0x80000, regsFLW0 ++ regsFLW1 ++ regsFLW2⟩

/-- Registers of block STS, part 0. -/
def regsSTS0 : List RegD := [
  ⟨0x0, [], [
    ⟨0, 72, .rw, 0, []⟩]⟩,
  ⟨0x10, [], [
    ⟨0, 1, .wa, 0, []⟩,
    ⟨1, 1, .wa, 0, []⟩,
    ⟨2, 1, .wa, 0, []⟩]⟩,
  ⟨0x20, [], [
    ⟨0, 1, .ro, 0, []⟩,
    ⟨1, 5, .ro, 0, []⟩,
    ⟨6, 1, .ro, 0, []⟩,
    ⟨7, 1, .ro, 0, []⟩,
    ⟨8, 32, .ro, 0, []⟩]⟩,
  ⟨0x30, [], [
    ⟨0, 1, .w1c, 0, []⟩,
    ⟨1, 1, .w1c, 0, []⟩]⟩,
  ⟨0x40, [], [
    ⟨0, 6, .ro, 0, []⟩]⟩,
  ⟨0x80, [(0x20000, 2)], [
    ⟨0, 32, .ro, 0, []⟩,
    ⟨32, 5, .ro, 0, []⟩,
    ⟨37, 1, .ro, 0, []⟩,
    ⟨38, 12, .ro, 0, []⟩,
    ⟨50, 1, .ro, 0, []⟩]⟩,
  ⟨0xa0, [(0x20000, 2)], [
    ⟨8, 64, .ro, 0, []⟩,
    ⟨4, 4, .ro, 15, []⟩,
    ⟨0, 4, .ro, 0, []⟩]⟩,
  ⟨0xb0, [(0x20000, 2)], [
    ⟨42, 30, .ro, 0, []⟩,
    ⟨26, 16, .ro, 0, []⟩]⟩,
  ⟨0x1000, [(0x20000, 2), (0x400, 33), (0x10, 46)], [
    ⟨0, 40, .ro, 0, []⟩,
    ⟨40, 8, .ro, 0, []⟩]⟩,
  ⟨0x1300, [(0x20000, 2), (0x400, 33), (0x10, 5)], [
    ⟨0, 40, .ro, 0, []⟩,
    ⟨40, 8, .ro, 0, []⟩]⟩,
  ⟨0xa000, [(0x20000, 2), (0x80, 36), (0x10, 5)], [
    ⟨0, 40, .ro, 0, []⟩,
    ⟨40, 8, .ro, 0, []⟩]⟩,
  ⟨0xc000, [(0x20000, 2), (0x100, 32), (0x10, 9)], [
    ⟨0, 40, .ro, 0, []⟩,
    ⟨40, 8, .ro, 0, []⟩]⟩]

/-- Registers of block STS, part 1. -/
def regsSTS1 : List RegD := [
  ⟨0xe000, [(0x20000, 2), (0x80, 8), (0x10, 5)], [
    ⟨0, 40, .ro, 0, []⟩,
    ⟨40, 8, .ro, 0, []⟩]⟩,
  ⟨0xe800, [(0x20000, 2), (0x10, 8)], [
    ⟨0, 40, .ro, 0, []⟩,
    ⟨40, 8, .ro, 0, []⟩]⟩,
  ⟨0xf000, [(0x20000, 2), (0x10, 4)], [
    ⟨0, 40, .ro, 0, []⟩,
    ⟨40, 8, .ro, 0, []⟩]⟩,
  ⟨0x10000, [(0x20000, 2), (0x80, 35), (0x10, 7)], [
    ⟨0, 40, .ro, 0, []⟩,
    ⟨40, 8, .ro, 0, []⟩]⟩,
  ⟨0x12000, [(0x20000, 2), (0x600, 34), (0x80, 9), (0x10, 7)], [
    ⟨0, 40, .ro, 0, []⟩,
    ⟨40, 8, .ro, 0, []⟩]⟩,
  ⟨0x12500, [(0x20000, 2), (0x600, 34), (0x10, 2)], [
    ⟨0, 40, .ro, 0, []⟩,
    ⟨40, 8, .ro, 0, []⟩]⟩]

/-- Block STS of Table 2-3. -/
def blockSTS : BlockD := ⟨0x380000, 0x40000, regsSTS0 ++ regsSTS1⟩

/-- Registers of block PRF, part 0. -/
def regsPRF0 : List RegD := [
  ⟨0x0, [], [
    ⟨0, 1, .rw, 0, []⟩,
    ⟨1, 1, .rw, 1, []⟩]⟩,
  ⟨0x10, [], [
    ⟨0, 16, .w1c, 0, []⟩,
    ⟨16, 1, .w1c, 0, []⟩]⟩,
  ⟨0x100, [(0x10, 16)], [
    ⟨0, 5, .rw, 0, [.range 0 16]⟩,
    ⟨5, 6, .rw, 0, []⟩]⟩,
  ⟨0x200, [(0x10, 16)], [
    ⟨0, 40, .ro, 0, []⟩,
    ⟨40, 1, .wa, 0, []⟩]⟩,
  ⟨0x10000, [(0x1000, 16), (0x10, 8)], [
    ⟨0, 4, .rw, 0, [.range 0 14]⟩]⟩,
  ⟨0x10100, [(0x1000, 16), (0x10, 8)], [
    ⟨0, 40, .ro, 0, []⟩,
    ⟨40, 1, .wa, 0, []⟩]⟩,
  ⟨0x20000, [], [
    ⟨0, 1, .rw, 0, []⟩,
    ⟨1, 1, .rw, 0, []⟩,
    ⟨2, 1, .rw, 0, []⟩,
    ⟨3, 16, .rw, 65535, []⟩,
    ⟨19, 20, .rw, 1024, [.range 1 1048575]⟩,
    ⟨39, 4, .rw, 0, [.range 0 6]⟩,
    ⟨43, 16, .rw, 1000, []⟩,
    ⟨59, 1, .wa, 0, []⟩]⟩,
  ⟨0x20010, [], [
    ⟨0, 15, .rw, 0, []⟩,
    ⟨15, 4, .rw, 0, []⟩]⟩,
  ⟨0x20020, [], [
    ⟨0, 13, .ro, 0, []⟩,
    ⟨13, 12, .ro, 0, []⟩,
    ⟨25, 1, .ro, 0, []⟩,
    ⟨26, 32, .ro, 0, []⟩]⟩,
  ⟨0x20030, [], [
    ⟨0, 12, .rw, 0, []⟩]⟩,
  ⟨0x20040, [(0x10, 4)], [
    ⟨0, 72, .ro, 0, []⟩]⟩]

/-- Block PRF of Table 2-3. -/
def blockPRF : BlockD := ⟨0x3c0000, 0x40000, regsPRF0⟩

/-- Registers of block PAIR, part 0. -/
def regsPAIR0 : List RegD := [
  ⟨0x0, [], [
    ⟨0, 1, .rw, 0, []⟩,
    ⟨1, 1, .rw, 0, []⟩,
    ⟨2, 1, .rw, 0, []⟩,
    ⟨3, 1, .rw, 1, []⟩,
    ⟨4, 2, .rw, 0, [.range 0 2]⟩,
    ⟨6, 4, .rw, 0, []⟩,
    ⟨10, 1, .rw, 1, []⟩]⟩,
  ⟨0x10, [], [
    ⟨0, 8, .rw, 14, [.range 3 200]⟩]⟩,
  ⟨0x20, [], [
    ⟨0, 16, .rw, 60, []⟩]⟩,
  ⟨0x30, [], [
    ⟨0, 32, .rw, 0, []⟩]⟩,
  ⟨0x40, [], [
    ⟨0, 32, .rw, 0, []⟩]⟩,
  ⟨0x50, [], [
    ⟨0, 8, .rw, 0, []⟩,
    ⟨8, 8, .rw, 32, []⟩]⟩,
  ⟨0x60, [], [
    ⟨0, 1, .wa, 0, []⟩,
    ⟨1, 1, .wa, 0, []⟩,
    ⟨2, 1, .wa, 0, []⟩,
    ⟨3, 1, .wa, 0, []⟩,
    ⟨4, 1, .wa, 0, []⟩]⟩,
  ⟨0x70, [], [
    ⟨0, 3, .ro, 0, []⟩,
    ⟨3, 1, .ro, 0, []⟩,
    ⟨4, 2, .ro, 0, []⟩,
    ⟨6, 1, .ro, 0, []⟩,
    ⟨7, 1, .ro, 0, []⟩,
    ⟨8, 16, .ro, 0, []⟩,
    ⟨24, 16, .ro, 0, []⟩,
    ⟨40, 8, .ro, 255, []⟩,
    ⟨48, 8, .ro, 0, []⟩]⟩,
  ⟨0x80, [], [
    ⟨0, 1, .w1c, 0, []⟩,
    ⟨1, 1, .w1c, 0, []⟩,
    ⟨2, 1, .w1c, 0, []⟩,
    ⟨3, 1, .w1c, 0, []⟩,
    ⟨4, 1, .w1c, 0, []⟩,
    ⟨5, 1, .w1c, 0, []⟩,
    ⟨6, 1, .w1c, 0, []⟩,
    ⟨7, 1, .w1c, 0, []⟩,
    ⟨8, 1, .w1c, 0, []⟩,
    ⟨9, 1, .w1c, 0, []⟩,
    ⟨10, 4, .ro, 0, []⟩]⟩,
  ⟨0x90, [], [
    ⟨0, 20, .ro, 0, []⟩]⟩,
  ⟨0xa0, [], [
    ⟨0, 48, .ro, 0, []⟩]⟩,
  ⟨0xb0, [], [
    ⟨0, 72, .ro, 0, []⟩]⟩]

/-- Registers of block PAIR, part 1. -/
def regsPAIR1 : List RegD := [
  ⟨0xc0, [], [
    ⟨0, 72, .ro, 0, []⟩]⟩,
  ⟨0xd0, [], [
    ⟨0, 72, .ro, 0, []⟩]⟩,
  ⟨0xe0, [], [
    ⟨0, 2, .ro, 0, []⟩,
    ⟨2, 22, .ro, 0, []⟩,
    ⟨24, 8, .ro, 0, []⟩]⟩,
  ⟨0x400, [(0x10, 7)], [
    ⟨0, 40, .ro, 0, []⟩,
    ⟨40, 1, .wa, 0, []⟩]⟩]

/-- Block PAIR of Table 2-3. -/
def blockPAIR : BlockD := ⟨0x400000, 0x10000, regsPAIR0 ++ regsPAIR1⟩

/-- Registers of block SEC, part 0. -/
def regsSEC0 : List RegD := [
  ⟨0x0, [], [
    ⟨0, 1, .wa, 0, []⟩,
    ⟨1, 1, .wa, 0, []⟩]⟩,
  ⟨0x10, [], [
    ⟨0, 1, .ro, 0, []⟩,
    ⟨1, 1, .ro, 0, []⟩,
    ⟨2, 7, .ro, 0, []⟩]⟩,
  ⟨0x20, [], [
    ⟨0, 14, .rw, 9289, []⟩]⟩,
  ⟨0x30, [], [
    ⟨0, 1, .w1c, 0, []⟩,
    ⟨1, 1, .w1c, 0, []⟩,
    ⟨2, 4, .ro, 0, []⟩]⟩,
  ⟨0x40, [], [
    ⟨0, 4, .rw, 0, []⟩,
    ⟨4, 2, .rw, 0, [.range 0 2]⟩]⟩,
  ⟨0x50, [(0x10, 4)], [
    ⟨0, 64, .wo, 0, []⟩]⟩,
  ⟨0x90, [], [
    ⟨0, 1, .wa, 0, []⟩,
    ⟨1, 1, .wa, 0, []⟩,
    ⟨2, 1, .ro, 0, []⟩]⟩,
  ⟨0x100, [(0x10, 16)], [
    ⟨0, 2, .ro, 0, []⟩,
    ⟨2, 2, .ro, 0, []⟩,
    ⟨4, 16, .ro, 0, []⟩,
    ⟨20, 16, .ro, 0, []⟩]⟩,
  ⟨0x200, [(0x10, 4)], [
    ⟨0, 64, .rw, 0, []⟩]⟩,
  ⟨0x240, [], [
    ⟨0, 4, .rw, 0, []⟩,
    ⟨4, 1, .wa, 0, []⟩,
    ⟨5, 1, .ro, 0, []⟩,
    ⟨6, 1, .ro, 0, []⟩]⟩,
  ⟨0x250, [(0x10, 2)], [
    ⟨0, 64, .ro, 0, []⟩]⟩,
  ⟨0x300, [], [
    ⟨0, 4, .rw, 0, []⟩,
    ⟨4, 5, .ro, 0, []⟩,
    ⟨9, 4, .ro, 0, []⟩,
    ⟨13, 16, .ro, 0, []⟩,
    ⟨29, 1, .wa, 0, []⟩]⟩]

/-- Registers of block SEC, part 1. -/
def regsSEC1 : List RegD := [
  ⟨0x310, [], [
    ⟨0, 48, .ro, 0, []⟩,
    ⟨48, 4, .ro, 0, []⟩,
    ⟨52, 2, .ro, 0, []⟩,
    ⟨54, 1, .ro, 0, []⟩,
    ⟨55, 1, .ro, 0, []⟩]⟩,
  ⟨0x320, [], [
    ⟨8, 64, .ro, 0, []⟩,
    ⟨4, 4, .ro, 15, []⟩,
    ⟨0, 4, .ro, 0, []⟩]⟩,
  ⟨0x330, [], [
    ⟨42, 30, .ro, 0, []⟩,
    ⟨26, 16, .ro, 0, []⟩]⟩,
  ⟨0x400, [(0x80, 4), (0x10, 8)], [
    ⟨0, 64, .rw, 0, []⟩]⟩,
  ⟨0x600, [(0x10, 4)], [
    ⟨0, 2, .ro, 0, []⟩]⟩,
  ⟨0x640, [(0x40, 4), (0x10, 4)], [
    ⟨0, 64, .ro, 0, []⟩]⟩,
  ⟨0x740, [(0x10, 4)], [
    ⟨0, 64, .rw, 0, []⟩]⟩,
  ⟨0x780, [], [
    ⟨0, 2, .rw, 0, []⟩,
    ⟨2, 1, .wa, 0, []⟩,
    ⟨3, 1, .wa, 0, []⟩,
    ⟨4, 8, .rw, 0, []⟩,
    ⟨12, 3, .ro, 0, []⟩]⟩,
  ⟨0x790, [], [
    ⟨0, 4, .ro, 0, []⟩,
    ⟨4, 3, .ro, 0, []⟩,
    ⟨7, 2, .ro, 0, []⟩]⟩]

/-- Block SEC of Table 2-3. -/
def blockSEC : BlockD := ⟨0x410000, 0x10000, regsSEC0 ++ regsSEC1⟩

/-- Registers of block HOST, part 0. -/
def regsHOST0 : List RegD := [
  ⟨0x0, [], [
    ⟨0, 13, .rw, 0, []⟩]⟩,
  ⟨0x10, [], [
    ⟨0, 4, .rw, 4, [.range 1 15]⟩]⟩,
  ⟨0x20, [], [
    ⟨0, 4, .ro, 0, []⟩,
    ⟨8, 8, .ro, 0, []⟩,
    ⟨16, 1, .wa, 0, []⟩]⟩,
  ⟨0x30, [], [
    ⟨0, 64, .ro, 0, []⟩]⟩,
  ⟨0x40, [], [
    ⟨0, 9, .ro, 0, []⟩]⟩,
  ⟨0x50, [], [
    ⟨0, 18, .ro, 0, []⟩,
    ⟨18, 1, .wa, 0, []⟩]⟩,
  ⟨0x60, [], [
    ⟨0, 4, .w1c, 0, []⟩]⟩,
  ⟨0x70, [], [
    ⟨0, 4, .rw, 10, [.range 1 15]⟩]⟩,
  ⟨0x1000, [(0x100, 4)], [
    ⟨0, 1, .rw, 0, []⟩,
    ⟨1, 1, .ro, 0, []⟩,
    ⟨4, 4, .ro, 0, []⟩,
    ⟨8, 1, .wa, 0, []⟩]⟩,
  ⟨0x1010, [(0x100, 4)], [
    ⟨12, 52, .rw, 0, []⟩]⟩,
  ⟨0x1020, [(0x100, 4)], [
    ⟨0, 5, .rw, 4, [.range 4 16]⟩]⟩,
  ⟨0x1030, [(0x100, 4)], [
    ⟨0, 16, .rw, 0, []⟩]⟩]

/-- Registers of block HOST, part 1. -/
def regsHOST1 : List RegD := [
  ⟨0x1040, [(0x100, 4)], [
    ⟨0, 16, .ro, 0, []⟩]⟩]

/-- Block HOST of Table 2-3. -/
def blockHOST : BlockD := ⟨0x420000, 0x10000, regsHOST0 ++ regsHOST1⟩

/-- Table 2-3. -/
def blocks : List BlockD := [blockSYS, blockEVT, blockPWR, blockCLK, blockCMP, blockLAN, blockTIC, blockCAL, blockIO, blockSDS, blockMAC, blockSWC, blockZRG, blockGAL, blockFLW, blockSTS, blockPRF, blockPAIR, blockSEC, blockHOST]

/-- The indices of an offset within a register array: outermost stride first (R58). -/
def dimsMatch : List (Nat × Nat) → Nat → Bool
  | [], rest => rest == 0
  | (st, n) :: ds, rest => if rest / st < n then dimsMatch ds (rest % st) else false

/-- The register of a block at block offset `rel`. -/
def findReg (rel : Nat) : List RegD → Option RegD
  | [] => none
  | r :: rs => if r.off ≤ rel && dimsMatch r.dims (rel - r.off) then some r else findReg rel rs

/-- The block that holds a BAR0 offset. -/
def findBlock (a : Nat) : List BlockD → Option BlockD
  | [] => none
  | b :: bs => if b.base ≤ a && a < b.base + b.size then some b else findBlock a bs

/-- The register at BAR0 offset `a` (the 16-byte slot of R58), if the tables give one. -/
def regAt (a : Nat) : Option RegD :=
  match findBlock a blocks with
  | none => none
  | some b => findReg (a - b.base) b.regs

/-- The value that a list of fields has at reset, before the values that the tables take from
the module. -/
def fieldsReset : List FieldD → Nat
  | [] => 0
  | f :: fs => (f.reset % 2 ^ f.w) * 2 ^ f.lo + fieldsReset fs

/-- The reset values that depend on a register's place or on factory data: MACn_ADDR (Table 9-4),
CAL_TACi, CAL_DLj, MACn_PTPCAL, SEC_FUSEk and SEC_FPk_j. -/
def moduleReset (a : Nat) : Nat :=
  if 0x140000 ≤ a && a < 0x161000 && a % 0x1000 == 0x40 then
    (Config.macBase.toNat + (a - 0x140000) / 0x1000) % 2 ^ 48
  else if 0x140000 ≤ a && a < 0x160000 && a % 0x1000 == 0x140 then
    Config.factory a 0 % 2 ^ 20 + (Config.factory a 20 % 2 ^ 20) * 2 ^ 20
  else if 0x7_0100 ≤ a && a < 0x7_0200 && a % 16 == 0 then
    Config.factory a 0 % 2 ^ 24 + (Config.factory a 24 % 2 ^ 24) * 2 ^ 24
  else if 0x7_0200 ≤ a && a < 0x7_02C0 && a % 16 == 0 then
    Config.factory a 0 % 2 ^ 16 + (Config.factory a 16 % 2 ^ 20) * 2 ^ 16
  else if 0x410600 ≤ a && a < 0x410640 && a % 16 == 0 then Config.factory a 0 % 3
  else if 0x410640 ≤ a && a < 0x410740 && a % 16 == 0 then Config.factory a 0 % 2 ^ 64
  else 0

/-- The value a register has after power-on reset (R16). -/
def regReset (a : Nat) : Word :=
  match regAt a with
  | none => 0
  | some r => BitVec.ofNat 72 (fieldsReset r.fields ||| moduleReset a)

end Sys2Proof.Machine
end

