-- ==== Sys2Proof/Machine/State.lean ====
section
/-! DEFINITION. The state of the ST720 as plain data: its registers, and per block everything
else that the spec gives the machine. `State.reset` is the module right after power-on reset. -/

namespace Sys2Proof.Machine

/-- Why a command stops the machine. The spec gives every command an effect or lets it be an
event that cannot occur, so the one reason is a guard of the model. -/
inductive Fault
  /-- Raised by no meaning of this model: kept so that the outcome type has a fault. Safe. -/
  | unreachable
  deriving DecidableEq, Repr

/-- Why a command has no meaning. -/
inductive Refusal
  /-- Raised by an arm of `exec` whose command has no meaning yet. Safe: nothing is computed. -/
  | notModelled (mnemonic : String)
  deriving DecidableEq, Repr

/-- A sparse table: entries by rising key, no entry equal to the table's default. -/
abbrev SMap (α : Type) := List (Nat × α)

/-! ### Time -/

/-- The record the Lantern leaves in PD0 (R130): LT in 2^-40 ns, AON count, TRIM. -/
structure TimeRecord where
  lt : Nat
  aon : Nat
  trim : Int
  deriving DecidableEq, Repr

/-- What a slew of the time scale carries out: a host ADJ, a servo's step, a steering switch. -/
inductive SlewKind | none | host | servo | steer
  deriving DecidableEq, Repr

/-- A stamp of the LANT channel (R455): an edge of the LANT clock in `TimeSt.phys`, the time scale at it in 2^-40 ns, and its
OCXO time in 2^-20 ps. -/
structure LantStamp where
  at_ : Nat
  lt : Nat
  ocxo : Int
  deriving DecidableEq, Repr

/-- The clocks. `lt` is the time scale since the PTP epoch and `phys` the time since power-on,
both in 2^-40 ns (R101). `jump` sums the steps of the
time scale (R412); `aonZero` is when the AON counter stood at zero and `aonWin` when the window of its trim began (R131), in `phys`;
`record` is the record in PD0 (R130), `lant` the latest stamp of the LANT channel. -/
structure TimeSt where
  lt : Nat
  phys : Nat
  everSet : Bool
  restored : Bool
  slewRem : Int
  slewRate : Nat
  slewKind : SlewKind
  aonZero : Nat
  aonWin : Nat
  record : Option TimeRecord
  jump : Int
  lant : LantStamp
  deriving DecidableEq, Repr

/-! ### Cycles -/

/-- The cycle sequencer (R24 to R42): instants in whole ns of the time scale. `budgetUs` is the
PERIOD that the allowances of the cycle in progress come from; `rdyOwn` and `rdyPeer` the profile readiness that the
units of a pair have reported (R42), 0 ready or the refusal code. -/
structure CycleSt where
  inProg : Bool
  start : Nat
  next : Nat
  trans : Bool
  firstAt : Option Nat
  armPend : Bool
  triggerAt : Option Nat
  slotDone : Bool
  slotClose : Option Nat
  count : Nat
  lastEval : Option Nat
  slotUsed : Nat
  goAt : Option Nat
  drainTo : Option Nat
  leanExit : Option Nat
  sampled : Option Nat
  rdyOwn : Option Nat
  rdyPeer : Option Nat
  budgetUs : Nat
  deriving DecidableEq, Repr

/-- One strike that counted (R48): instant in ns and cycle number. -/
structure Strike where
  ns : Nat
  cycle : Nat
  deriving DecidableEq, Repr

/-- A channel of R50: kind, index (and for ring nodes the ring number within the index). -/
structure Channel where
  kind : Nat
  idx : Nat
  deriving DecidableEq, Repr

/-! ### Host interface -/

/-- What one axis receives at a sample instant (R114 to R117, R122): the instant, whether the
interval is faulty, the sample as stamp and raw value, the latest index stamp, and for an
incremental encoder the count of the last edge. -/
structure SampleIn where
  inst : Word
  faulty : Bool
  sample : Option (Word × Int)
  idx : Option Word
  last : Option Int
  deriving DecidableEq, Repr

/-- A journal input (R74, R122, R193, R223, R502): a host write, an axis sample, the retirement of
an engine's core or of a Flowstone cell, a ring return, a handover, a withdrawal, a measurement of a
network-time master with its mean path delay (R388), the Compass's steering, state and commit (R509; the
target is the holder's own), a latch delay measured (R468), a profile readiness (R42). -/
inductive JItem
  | cmd (i : Instr)
  | sample (axis : Nat) (x : SampleIn)
  | engRetire (n : Nat)
  | cellRetire (c : Nat)
  | ringData (engine word : Nat) (value : Word) (cycle claim : Nat)
  | loadReport (n : Nat) (ok : Bool) (digest : Nat)
  | handover
  | measure (d k : Nat) (ofs mpd : Int)
  | withdraw
  | steer (freq : Int)
  | cmpState (st stage : Nat)
  | cmpCommit (target : Nat) (phi : Int) (st stage : Nat)
  | encDly (e d : Nat)
  | profReady (code : Nat)
  deriving DecidableEq, Repr

/-- One journal entry waiting for its journal time (R74): the instant in ns of the time scale,
whether it is this unit's own, which unit wrote it, and the sequence number of the block that brought it. -/
structure JEntry where
  item : JItem
  at_ : Nat
  own : Bool
  unitB : Bool
  seq : Nat
  deriving DecidableEq, Repr

/-- A request of the host that waits in the order of R67, as the command that stands for it: it stalls on a domain or a
bank (R69), or behind one that does. -/
structure Stall where
  cmd : Instr
  dom : Nat
  since : Nat
  deriving DecidableEq, Repr

/-- The endpoint's configuration space as far as Table 2-1 gives it a state (R54): the power state D3hot, the max payload of
256 bytes, the uncorrectable error status of Advanced Error Reporting, and the MSI-X table of R56 beside its mask bits:
address and data by vector. -/
structure PciSt where
  d3hot : Bool
  payload256 : Bool
  errors : BitVec 32
  vectors : SMap (BitVec 96)
  deriving DecidableEq, Repr

/-- PCIe endpoint state (R592). -/
inductive PcieState | reset | retry | ready
  deriving DecidableEq, Repr

/-- The host interface (R54 to R100). `held` are events raised while PD3 is off; `stalls` is the queue of requests that wait
(at most 64 of them posted writes, R73), `backlog` what waits outside for flow-control credits. -/
structure HostSt where
  pci : PciSt
  backlog : List Instr
  pcie : PcieState
  perst : Bool
  journal : List JEntry
  stalls : List Stall
  mask : BitVec 64
  pba : BitVec 64
  held : List Nat
  waking : BitVec 12
  deriving DecidableEq, Repr

/-- Cavern (R82, R604): bytes by key 16 × word + byte as in R83, the words that hold a
correctable or an uncorrectable upset, and the page remap in force. -/
structure CavSt where
  mem : List Host.Cell
  corr : List Nat
  uncorr : List Nat
  remap : SMap Nat
  sparesUsed : Nat
  copying : List Nat
  deriving DecidableEq, Repr

/-! ### Lantern axes and encoders -/

/-- A knot (R113): position, velocity, acceleration and STW. -/
structure Knot where
  p : Word
  v : Word
  a : Word
  t : Word
  deriving DecidableEq, Repr

/-- One line axis: estimator in the fixed point of R122 (p in 2^-56, v and a in 2^-48), base in
2^-32, and what its source needs. -/
structure Axis where
  p : Int
  v : Int
  a : Int
  s0 : Word
  base : Int
  applied : Nat
  faultRun : Nat
  zArmed : Bool
  past : List Knot
  knot : Option Knot
  queue : List Knot
  lastKT : Option Word
  raw : Int
  ssiPrev : Option Nat
  ssiBusy : Bool
  lastInst : Word
  faultsSeen : Nat
  edgeSeen : Nat
  idxSeen : Nat
  p2t : Bool
  deriving DecidableEq, Repr

/-- One encoder input (R114, R115): levels, count, latest edge and index. -/
structure Enc where
  a : Bool
  b : Bool
  count : Int
  edge : Word
  edgeNew : Nat
  faults : Nat
  idx : Word
  idxNew : Nat
  ssiAt : Option Nat
  ssiStamp : Word
  deriving DecidableEq, Repr

/-- A wait slot of the Lantern (R127, R128, R605): axis, level and position at the start of the
wait in 2^-56, and direction. -/
structure WaitSlot where
  axis : Nat
  level : Int
  dir : Nat
  start : Int
  deriving DecidableEq, Repr

/-! ### Gallery engines -/

/-- A trace record (Table 16-6). -/
structure TraceRec where
  w0 : Word
  w1 : Word
  w2 : Word
  w3 : Word
  deriving DecidableEq, Repr

/-- What an engine waits for (R149, R151 to R157). `rel` is the status with which a position wait
releases once its sample, fault or past crossing has been seen. `deadline` is an instant of `TimeSt.phys`. -/
inductive Wait
  | none
  | time (target : Word) (gr tf : Nat)
  | boundary (gr tf : Nat)
  | line (slot : WaitSlot) (rel : Option Nat) (gs tf : Nat) (deadline : Option Nat)
  | camw (tag gs tf : Nat) (deadline : Option Nat)
  | sigs (all : Bool) (mask : BitVec 8) (gs tf : Nat) (deadline : Option Nat)
  | bar (mask : BitVec 16) (tf : Nat) (deadline : Option Nat)
  deriving DecidableEq, Repr

/-- A batch tag (R155): free, outstanding, or completed with its status word. -/
inductive Tag
  | free
  | outstanding
  | done (status : Word)
  deriving DecidableEq, Repr

/-- A frame in an emission buffer (R158): bytes without FCS, destination, and its hold slot
while it is held, the number of the cycle in which it was emitted, how many of its cells the
emission path has moved, and from when on it may (`TimeSt.phys`). `src` is the first data-store word of its template and
`copyAt` the first tick of the copy, in which EMIT reads two words a tick; `old` marks a frame released in a former run of its
engine, which is still sent but no longer fills the buffer (R134, R182). -/
structure EFrame where
  bytes : List Byte
  port : Nat
  cls : Nat
  sch : Bool
  hold : Option Nat
  cycle : Nat
  moved : Nat
  rel : Nat
  src : Nat
  copyAt : Nat
  old : Bool
  deriving DecidableEq, Repr

/-- One engine (Table 4-1) with its load, start and measurement state. `readyAt` is the instant
of `TimeSt.phys` at which its next instruction begins. `waitSince` is the instant at which it
entered the wait part of its wait. `opened` is true from a trigger delivery that began a cycle of
its measurements (R176); `coreRet` while a retirement of its core waits for a boundary (R191);
`sigPend` holds signals with the instant at which they become visible (R156); `tagRun` numbers its
runs, so that a batch of a former run finds its tag cleared (R190); `insnAt`,
`insnStw` and `insnRetry` describe the instruction whose wait is in progress: its first tick, the STW
of it, and whether it was retried. `lastRec` is the trace record of its latest instruction; `ownReport` and `peerReport` the reports of a load
in a pair (R189); `stOld` is the latest data-store word written by ST, with the instant at which it holds its new value
and the value that it holds until then (R135); `scrubAt` is where the next slot goes on with the check of the stores (R183);
`seen` and `seenWait` count the
ticks, and of them those of the wait part, of the instruction in progress that the performance counters already hold; `doneAt` is the
instant at which the batch of each tag completed, `laddr` the Cavern word of the image being loaded. -/
structure Engine where
  g : Vector Word 64
  f : BitVec 8
  pc : Nat
  sig : BitVec 8
  prog : SMap Word
  data : SMap Word
  dir : List Word
  rings : List (Nat × Nat)
  plen : Nat
  entry : Nat
  emis : List EFrame
  tags : Vector Tag 4
  wait : Wait
  trig : Option Word
  startAt : Option Nat
  startPend : Bool
  reloc : Bool
  readyAt : Nat
  use : Nat
  seen : Nat
  seenWait : Nat
  waitSince : Option Nat
  overrun : Bool
  lastRec : Option TraceRec
  insnAt : Nat
  insnStw : Word
  insnRetry : Bool
  ownReport : Option (Bool × Nat)
  peerReport : Option (Bool × Nat)
  digest : Nat
  opened : Bool
  coreRet : Bool
  laddr : Nat
  sigPend : List (Nat × BitVec 8)
  tagRun : Nat
  doneAt : Vector Nat 4
  stOld : Option (Nat × Nat × Word)
  scrubAt : Nat
  deriving DecidableEq, Repr

/-! ### Flowstone -/

/-- One axis record and its result entry (R196, Tables 6-5 and 6-8). `u` is its latest requested
master coordinate, `cyc` the evaluation cycle of its latest evaluation. -/
structure Rec where
  w0 : Word
  w1 : Word
  w2 : Word
  w3 : Word
  r0 : Word
  r1 : Word
  u : Option Int
  cyc : Option Nat
  deriving DecidableEq, Repr

/-- A batch in the request queue (R208): engine with the number of its run, tag, records, master
position and velocity, and the instant of `TimeSt.phys` at which it entered. -/
structure Batch where
  eng : Nat
  run : Nat
  tag : Nat
  first : Nat
  count : Nat
  pm : Word
  vm : Word
  at_ : Nat
  deriving DecidableEq, Repr

/-- A record of a batch whose segment is being fetched (R211): its state at dispatch, the Cavern word of the segment, and
the cell that evaluates it when it arrives. -/
structure Miss where
  rec_ : Nat
  r : Rec
  key : Nat
  cell : Nat
  deriving DecidableEq, Repr

/-- What an evaluated record receives at the end of its slot (R212, R216): segment, X0 and Y0 where
they change, whether a switch was made, a new STATE, the position where there is one, RES1, and
the data-store word of COPY. -/
structure SlotResult where
  rec_ : Nat
  place : Option (Nat × Int × Int)
  sw : Option Nat
  state : Option Nat
  pos : Option Word
  r1 : Word
  copy : Option Nat
  deriving DecidableEq, Repr

/-- The result of an evaluation whose slot has not ended (R212): the cell and the end of its slot (`TimeSt.phys`). -/
structure Slot where
  res : SlotResult
  cell : Nat
  due : Nat
  deriving DecidableEq, Repr

/-- A batch whose dispatch has begun and that is not complete (R208, R211, R212): the records still to be dispatched with
the place of the first of them in the batch, the places that check errors strike, LEVEL and whether the allowance was reached
when dispatch began, records evaluated and held so far, those held for OVER, misses, the results whose slots have not
ended, and whether the batch has completed with NAK_OFF (R221). -/
structure Flight where
  b : Batch
  start : Nat
  todo : List Nat
  place : Nat
  chk : List Nat
  level : Nat
  evald : Nat
  held : Nat
  shed : Nat
  seek : Nat
  extra : Nat
  rep : Nat
  misses : Nat
  overN : Nat
  nak : Bool
  waiting : List Miss
  results : List Slot
  off : Bool
  deriving DecidableEq, Repr

/-- Flowstone (R196): records that differ from their reset state, request queue (a batch keeps its entry until its dispatch
ends), batches in flight, seek queue, the segment cache with the latest used entry first (by the Cavern word of the segment:
an entry shows what Cavern holds, so that no result depends on it, R202), per cycle the count, the demand by priority and whether OVER was met (`atCap`),
the number of the evaluation cycle, the cells that return or leave at the next boundary, when the
cells are free, and whether a seek in progress may finish while EN is 0 (R221). -/
structure FlwSt where
  recs : SMap Rec
  queue : List Batch
  flight : List Flight
  seekQ : List Nat
  cache : List Nat
  count : Nat
  demand : Vector Nat 8
  atCap : Bool
  cyc : Nat
  restore : BitVec 8
  retirePend : BitVec 8
  freeAt : Nat
  seekFin : Bool
  deriving DecidableEq, Repr

/-! ### Switch core -/

/-- A frame on its way into the Sump: source (R274), bytes without FCS, VID and PCP (R275),
class, named egress or 63 for a bridge lookup, whether it is of the scheduled class, the cycle in
which it was emitted, what is wrong with it (0 nothing, 1 FCS, 2 RUNT), the STW at its start of
frame delimiter, and when its reception ends (`TimeSt.phys`). -/
structure InFrame where
  src : Nat
  bytes : List Byte
  vid : Nat
  pcp : Option Nat
  cls : Nat
  port : Nat
  sch : Bool
  cycle : Nat
  bad : Nat
  stamp : Word
  rxEnd : Nat
  deriving DecidableEq, Repr

/-- A frame in the Sump (R277), with its descriptor: what came in, its cells as slice and place (16 × row + cell), how many of
them are of the reserved pool, its reference count, when its last cell is written (`TimeSt.phys`), and the check errors that
reads of its cells have met. -/
structure SFrame where
  id : Nat
  f : InFrame
  cells : List (Nat × Nat)
  resv : Nat
  refs : Nat
  whole : Nat
  errs : List CellUpset
  deriving DecidableEq, Repr

/-- A copy of a frame: queued at an egress and class (8: scheduled) under a flow number (R279), or
held for it (R278). `opened` is true once the window of a scheduled copy has begun (R283), `fetched` once its egress has
fetched its cells (R279), `passed` once the Siphon has passed over its number (R280); `behind` is when the copies of its flow before it are all whole. -/
structure Copy where
  fid : Nat
  port : Nat
  cls : Nat
  seq : Nat
  cut : Bool
  opened : Bool
  multi : Bool
  since : Nat
  fetched : Bool
  passed : Bool
  behind : Nat
  deriving DecidableEq, Repr

/-- An FDB entry (R276): address, VID, targets, STATIC, and when its address was last seen. -/
structure Fdb where
  mac : Nat
  vid : Nat
  mask : Nat
  stat : Bool
  seen : Nat
  deriving DecidableEq, Repr

/-- A stream table entry (R281) with its recovery state: latest number accepted, which of the
numbers behind it were accepted (bit 0 the latest), and when a frame was last accepted. -/
structure Stream where
  da : Nat
  vid : Nat
  valid : Bool
  hist : Nat
  reset : Nat
  strip : Bool
  last : Option Nat
  seen : Nat
  lastAt : Nat
  deriving DecidableEq, Repr

/-- A transmission in progress: its copy, the bytes on the wire, why it will be stomped (0: it will
not), the stamp of its delimiter, whether a line tag was written and whether R365 handled it, and
when it ends (`TimeSt.phys`). -/
structure TxNow where
  x : Copy
  bytes : List Byte
  code : Nat
  w : Word
  ltag : Bool
  one : Bool
  ends : Nat
  deriving DecidableEq, Repr

/-- The switch core (R270 to R297). `copies` are the queued copies in order of arrival; `tx` the
transmissions in progress; `credit` and `turn` the round robin of each egress; `rowPend` the retired
rows whose spare has not joined, with the instant at which it joins while no cycle runs, `sliceBack` and `spareBack` what returns at the next boundary,
`minFree` the smallest count of free reserved cells in the cycle, `emAt` when the emission path moved its latest cell
(`TimeSt.phys`) and `emLast` from which engine. -/
structure SwSt where
  frames : List SFrame
  nextId : Nat
  copies : List Copy
  held : List Copy
  ingress : List InFrame
  seqs : SMap Nat
  lastSlice : SMap Nat
  fdb : List Fdb
  vlan : SMap Nat
  streams : SMap Stream
  credit : SMap Int
  turn : SMap Nat
  tx : List TxNow
  rowPend : List (Nat × Nat × Option Nat)
  rows : List (Nat × Nat)
  sliceBack : BitVec 4
  spareBack : BitVec 4
  minFree : Nat
  emAt : Nat
  emLast : Nat
  deriving DecidableEq, Repr

/-! ### Ports -/

/-- A transmit stamp record (R321, Table 9-4). -/
structure TsRec where
  stw : Word
  ovf : Bool
  seqid : Nat
  msgt : Nat
  domn : Nat
  lostn : Nat
  lastid : Nat
  deriving DecidableEq, Repr

/-- One MAC: when a received PAUSE and the PFC times of the classes run out (`TimeSt.phys`, R315),
what it has paused itself (priorities 0 to 7, bit 8 for PAUSE) and when that is renewed (R314), and
its stamp queue (R321) behind the head record. -/
structure MacSt where
  allUntil : Nat
  clsUntil : Vector Nat 8
  sent : Nat
  renewAt : Nat
  ts : List TsRec
  deriving DecidableEq, Repr

/-! ### Lanes (R328 to R353) -/

/-- One lane: whether a retrain tries its step first (R341), when it entered its state (`TimeSt.phys`),
how often in a row a neighbour step was better (R342), when its latest counted lock loss came and
whether that retired it (R343), the running test, the partner's serial, when the next adaptation is due, and when its quad's
wake ends that takes it to DETECT (R332). -/
structure LaneSt where
  keep : Bool
  since : Nat
  up : Nat
  down : Nat
  lossAt : Option Nat
  lossOut : Bool
  test : Option Nat
  ser : Nat
  adaptAt : Nat
  wakeAt : Option Nat
  deriving DecidableEq, Repr

/-- The Rope phase measurement (R349): when it began (`TimeSt.phys`), the sum of the phases of its blocks in fs and how many they
are, the latest result, and the frequency and integrator with which a follower's main PLL tracks its holder's (R509). -/
structure RopePhase where
  start : Nat
  sum : Int
  num : Nat
  last : Option Int
  freq : Int
  integ : Int
  deriving DecidableEq, Repr

/-- The lanes, the Rope lanes in use by bit, whether the far end spreads, and the Rope phase measurement. -/
structure LanesSt where
  lane : Vector LaneSt 36
  use : BitVec 4
  farSsc : Bool
  phase : RopePhase
  deriving DecidableEq, Repr

/-! ### The Zalnus ring (R227 to R269) -/

/-- A frame of a ring's train: its number in the Sump, its bytes (as filled once it has left), the cycle in
which it was emitted, the sends of it as (port, TXS), the TXS of those that have returned, and the copy that returned first. -/
structure TrainFrame where
  fid : Nat
  bytes : List Byte
  cycle : Nat
  sent : List (Nat × Nat)
  got : List Nat
  ret : Option (List Byte)
  deriving DecidableEq, Repr

/-- A scan in progress (R261): when it began (`TimeSt.phys`), scan frames sent, whether one has
returned, how many in a row were consistent, and the latest nodes, round trip and stamps. -/
structure ScanSt where
  startAt : Nat
  frames : Nat
  any : Bool
  run : Nat
  nodes : Nat
  rtt : Nat
  stamps : List (BitVec 32 × BitVec 32)
  deriving DecidableEq, Repr

/-- One ring: the train of the cycle and whether its LASTF frame has been emitted, the ring cycle count,
whether the cycle is already invalid, ring bytes used, FULLC of the cycle, request bits of the last good
return, the position granted in the cycle and whether it is granted again (R230), the claim sent last, presence and retirement
bits (by 4 × SUBR + j), whether a mailbox frame has gone this cycle, the MSEQ and ADDR that the echo of the host's will bear,
whether the ring unwraps at the boundary, the scan, when the next keep-alive frame is due and when the port is free
(`TimeSt.phys`), frames of the last cycle that are not back, mailbox frames of the controller's own that wait for a LASTF
frame (R259), and whether the module has left STANDBY since the ring last entered RUN (R264). -/
structure RingSt where
  train : List TrainFrame
  lastF : Bool
  count : Nat
  bad : Bool
  used : Nat
  fullC : Bool
  reqs : List Nat
  grant : Nat
  again : Bool
  claim : Nat
  pres : SMap Nat
  lost : SMap Nat
  dn : Bool
  dnSeq : Option (Nat × Nat)
  unwrap : Bool
  scan : Option ScanSt
  kaAt : Nat
  sendEnd : Nat
  old : List TrainFrame
  mail : List (List Byte)
  wake : Bool
  deriving DecidableEq, Repr

/-- The ring controllers: the rings, the active and the edit bank of the endpoint table as (E0, E1), the
entries written in this and in the last cycle, Pl by endpoint (R242), when the bank copy ends, whether a swap
waits for it, and which cycle and claim last wrote a returned word (R505). -/
structure RingsSt where
  ring : Vector RingSt 32
  ept : SMap (Word × Word)
  edit : SMap (Word × Word)
  wrote : List Nat
  wroteLast : List Nat
  pl : SMap Int
  copyEnd : Nat
  slotBy : SMap (Nat × Nat)
  deriving DecidableEq, Repr

/-! ### Network time (R354 to R395) -/

/-- A Sync received from a master: sequenceId, twoStepFlag, t2 in the domain's time (2^-16 ns), the
timestamp and correctionField it carries, when it came. -/
structure SyncIn where
  seq : Nat
  two : Bool
  t2 : Int
  t1 : Int
  corr : Int
  at_ : Nat
  deriving DecidableEq, Repr

/-- The measurement of one master (R369 to R372): the Sync that waits for its Follow_Up, the latest
ms, the latest Delay_Req with its t3, the latest exchanges of the mean path delay, when it last
gave a valid measurement (`TimeSt.phys`), and the time between its latest Syncs in ns. -/
structure MasterSt where
  sync : Option SyncIn
  ms : Option Int
  dreq : Option (Nat × Int)
  mpds : List Int
  lastValid : Option Nat
  ival : Nat
  deriving DecidableEq, Repr

/-- One domain (R373 to R378): its masters, its offset in 2^-40 ns as of `doffAt`, the rate
at which that offset moves and the latest outputs of its servo, its integrator, and the
measurements counted toward the next state. -/
structure DomSt where
  mA : MasterSt
  mB : MasterSt
  doff : Int
  doffAt : Nat
  rate : Int
  outs : List Int
  integ : Int
  within : Nat
  beyond : Nat
  deriving DecidableEq, Repr

/-- Network time of one port: sequence numbers by kind and domain (R361), the Pdelay exchange in
progress with t1, t2, t3 and its correction, the latest exchanges, whether a loopback runs and how many probes it has sent (R387), and by
kind and domain when a message is due again (`TimeSt.phys`). -/
structure PortTime where
  seqs : SMap Nat
  pdT1 : Option (Nat × Int)
  pdT4 : Option (Nat × Int × Int × Int)
  pdMean : List Int
  lbk : Bool
  probes : Nat
  due : SMap Nat
  deriving DecidableEq, Repr

/-- The network time unit: domains TDA and TDB, the ports, received messages that wait to be
handled, and the domain that a steering switch moves toward. -/
structure PtpSt where
  doms : Vector DomSt 2
  ports : Vector PortTime 32
  rx : List InFrame
  swTo : Nat
  slewSeen : Int
  deriving DecidableEq, Repr

/-! ### Security (R550 to R567) -/

/-- An entry of the alarm log (R560): AON count, source, action, whether PD2 was on, whether it was
made on the cell, and its LT. -/
structure LogEnt where
  aon : Nat
  src : Nat
  act : Nat
  pd2 : Bool
  bkup : Bool
  ltH : Word
  ltL : Word
  deriving DecidableEq, Repr

/-- The security block: the keys, whether the mirror is being rebuilt, the Rope cipher's copy, the alarm
log by place, the tamper sources that have acted and not yet gone, and the fuse operation in
progress (slot and whether it programs). -/
structure SecSt where
  keys : Vector Nat 16
  mirrorBad : Bool
  ropeKey : Option Nat
  log : SMap LogEnt
  acted : BitVec 7
  fuse : Option (Nat × Bool)
  deriving DecidableEq, Repr

/-! ### Compass, outputs, clocks, interval counter and calibration -/

/-- One Compass input (R398 to R401): the stamps of its comparison edges in the measuring window, newest
first, in femtoseconds of the OCXO time base; whether its signal is absent and since when; since when it
qualifies or is QUALIFIED; its latest phase against the output in femtoseconds. Instants are `TimeSt.phys`. -/
structure InputSt where
  stamps : List Int
  absent : Bool
  absentAt : Nat
  qualAt : Nat
  phase : Int
  deriving DecidableEq, Repr

/-- The Compass (R402 to R410): the inputs; when the pending switch was decided, none once its commit is
under way, and whether it was of kind (a); the loop's integrator and whether it is bridged; the window
of the mean fixed at a decision with its middle in s; since when the loop is at stage 3, when the hour
of R410 began, when ACQUIRING, HOLDOVER and the dwell of a stage began; per second at stage 3 the mean output
frequency; the mean of the latest second, and the sum and number of the values of this one; and since
when the OCXO is lost (R437). -/
structure CmpSt where
  ins : Vector InputSt 8
  decideAt : Option Nat
  kindA : Bool
  integ : Int
  bridge : Bool
  frozen : Option (Int × Nat)
  stage3At : Option Nat
  hourAt : Nat
  acqAt : Nat
  holdAt : Nat
  dwellAt : Option Nat
  hist : List (Nat × Int)
  lastSec : Int
  sum : Int
  num : Nat
  haltAt : Option Nat
  deriving DecidableEq, Repr

/-- One pulse output (R412 to R415): its next and its latest active edge in its timebase (2^-40 ns), its
latest anchor (`TimeSt.phys`) with the last two input intervals in ns, whether it stops after the pulse in
progress, and the amount of its latest step in 5 ps. -/
structure OutSt where
  next : Option Int
  last : Option Int
  anchorAt : Option Nat
  iv1 : Nat
  iv2 : Nat
  ending : Bool
  amt : Int
  deriving DecidableEq, Repr

/-- One PLL (R427, R430, R436): the entries that failed in the current attempt, when it entered its state,
whether BANDSEL waits after NOBAND, and why it is in HOLD (0 REFLOSS, 1 UNLOCK, 2 RELOCK). -/
structure PllSt where
  failed : BitVec 16
  since : Nat
  noband : Bool
  why : Nat
  deriving DecidableEq, Repr

/-- The PLLs, and the phase that the main PLL still slews, in fs as of an instant (R435). -/
structure ClkSt where
  plls : Vector PllSt 3
  res : Int
  resAt : Nat
  deriving DecidableEq, Repr

/-- A record of the interval counter (R451). -/
structure TicRec where
  status : Nat
  cold : Bool
  seq : Nat
  start : Word
  srcs : List Nat
  ints : List Nat
  deriving DecidableEq, Repr

/-- The measurement unit (R449 to R452): the start in OCXO time (2^-20 ps) and its STW, the latest
accepted edge, the stops as source and interval, which interpolator takes the next edge, the records, a record that
waits for an entry, whether REPEAT waits to re-arm, the number of records, COLD, the start in
`TimeSt.phys`, and when the oven was powered. -/
structure TicSt where
  start : Option Int
  startW : Word
  prev : Int
  stops : List (Nat × Int)
  turn : Bool
  queue : List TicRec
  held : Option TicRec
  rearm : Bool
  seq : Nat
  cold : Bool
  startAt : Nat
  ovenAt : Nat
  deriving DecidableEq, Repr

/-- A calibration job (R460): its KIND and UNIT. -/
structure CalJob where
  kind : Nat
  unit : Nat
  deriving DecidableEq, Repr

/-- Calibration (R459 to R470): the queue, the running job with the element it works on and when it
began, since when a SLICE job at the head waits for its slice to empty, when the last job ended, the next AUTO target, per element
how many jobs in a row failed it, the calibrated elements that wait for their swaps (job, element, its two values), a DLY that waits
for the boundary, and of the values of an ENCDLY job their count, sum and sum of squares, in 2^-16 ns (R467). -/
structure CalSt where
  queue : List CalJob
  run : Option CalJob
  elem : Nat
  began : Nat
  waitAt : Option Nat
  lastEnd : Nat
  auto : Nat
  fails : Vector Nat 28
  swap : List (CalJob × Nat × Nat × Nat)
  dly : Option (Nat × Nat)
  dlyN : Nat
  dlySum : Int
  dlySq : Nat
  deriving DecidableEq, Repr

/-! ### Pair -/

/-- The digest of one cycle of one unit (R511): the boundary that opened it, the digest, the score,
and the boundary that closed it in ns of the time scale. -/
structure DigRec where
  bound : Word
  dig : Word
  score : Nat
  close : Nat
  deriving DecidableEq, Repr

/-- What a boundary carries out for the pair: a withdrawal or a handover (R496, R520). -/
inductive PairAct | withdraw | handover
  deriving DecidableEq, Repr

/-- The pair (R493 to R523). Instants are `TimeSt.phys` but for `acts`, in ns of the time scale: entry to
the pair state, session counts of this unit and of the partner, whether the Rope is linked, sequence numbers sent and expected, the latest blocks
sent and received, the latest change of PAIR_ALIVE_IN, the supervisor's fence and PAIR_ALIVE_OUT, the
partner's state, GEN, actions due at a boundary, a claim that rises at the next boundary, own and
partner's digests that have met no counterpart, the bytes and the opening boundary of the cycle in progress and its trigger delivery, the bytes
of a cycle that has closed and its boundary, the
exchanges of R513, PWR_FAIL since power-on, and of a resync its begin, whether the quiet condition ever held, the
mirror queue, the tag of each word received, and the boundary at which the joiner joins. -/
structure PairSt where
  since : Nat
  session : Nat
  peerSession : Nat
  linked : Bool
  txSeq : Nat
  rxSeq : Nat
  lastTx : Nat
  lastRx : Nat
  aliveAt : Nat
  fence : Bool
  alive : Bool
  pState : Nat
  gen : Nat
  acts : List (PairAct × Nat)
  raise_ : Bool
  own : List DigRec
  peer : List DigRec
  digE : Vector (List Byte) 16
  digF : List Byte
  digAt : Word
  trigAt : Nat
  shut : Option (Word × List Byte)
  low : Nat
  failSeen : Bool
  resyncAt : Nat
  quietSeen : Bool
  mirror : Nat
  overflow : Bool
  tags : SMap Word
  joinAt : Option Nat
  axSeen : BitVec 16
  axFrom : Vector Nat 16
  deriving DecidableEq, Repr

/-! ### Power, reset and module hardware -/

/-- Power, resets and hardware (R524 to R600). Instants are `TimeSt.phys`: a change of state that waits for a
boundary (target, earliest instant in ns of the time scale), banks sealed and in retention, sealed and
unchecked, and LOST, per quad the last access and whether an access powers it, when PWR_FAIL
was raised, whether the module is shed, by heat, on the cell, the levels of die and baseplate that raised
THERM while it waits for them to fall, INT_N held low after a wake, the power cut below 1.9 V, the kind of the reset in
progress, the power class of each cage's module, and whether ENC_5V is on. -/
structure PwSt where
  pend : Option (Nat × Nat)
  sealed : BitVec 1538
  unchecked : BitVec 1538
  lost : BitVec 1538
  quadAt : Vector Nat 9
  quadAcc : BitVec 9
  failAt : Option Nat
  shed : Bool
  heat : Bool
  cell : Bool
  dieLevel : Option Int
  baseLevel : Option Int
  intLow : Bool
  brown : Bool
  kind : Option Nat
  cls : Vector Nat 9
  enc5v : Bool
  deriving DecidableEq, Repr

/-! ### Snapshots and trace -/

/-- The instruction trace (R486 to R489): buffer by index, queue occupancy at instant `qAt`,
sample counts per engine, and whether TRACE_FULL was raised since EN or CLR; of the fabric counters (R164, R483) the 64 ns in which
they were last copied, the copy, and the instant up to which they count clocks. -/
structure TraceSt where
  buf : SMap TraceRec
  qLen : Nat
  qAt : Nat
  counts : Vector Nat 16
  fullRaised : Bool
  fabWin : Nat
  fabCopy : Vector Nat 16
  fabAt : Nat
  deriving DecidableEq, Repr

/-- A snapshot between arming and SNAP_DONE (R476 to R478): strobe STW and instant, LATE, and once
struck the two LT words of the strobe and the latched (shadow offset, entry) pairs. `acks` counts the
acknowledges of every counter modulo 256 (R475), by offset. -/
structure SnapSt where
  strobe : Option Word
  late : Bool
  struck : Bool
  ltH : Word
  ltL : Word
  latched : List (Nat × Word)
  offMask : BitVec 12
  acks : SMap Nat
  deriving DecidableEq, Repr

/-! ### Output -/

/-- The content of a block that leaves on the Rope (Table 17-3): a journal input with its journal time, a
digest, state transfer with its tag, control, idle. -/
inductive RopeOut
  | journal (i : JItem) (at_ : Nat)
  | digest (d : DigRec)
  | transfer (x : Xfer) (tag : Word)
  | control (c : RopeCtl)
  | idle
  deriving DecidableEq, Repr

/-- What leaves the block, newest first in `Block.out`. -/
inductive Out
  /-- MSI-X message of a vector (R96). -/
  | msix (vector : Nat)
  /-- Completion of a host read with data (R57, R60, R83); `poison` marks poisoned data (R85). -/
  | readData (off : Nat) (data : List Byte) (poison : Bool)
  /-- Completion of a host write or read as Unsupported Request (R57). -/
  | unsupported (off : Nat)
  /-- Completer Abort (R72). -/
  | completerAbort (off : Nat)
  /-- Completion of a configuration request with retry status (R592). -/
  | configRetry
  /-- Bytes a DMA engine writes into host memory (R87); `poison` marks poisoned data (R85). -/
  | hostWrite (addr : Nat) (data : List Byte) (poison : Bool)
  /-- A frame leaves egress `port` in `cls` (8: scheduled class), with its bytes and stomped flag. -/
  | frame (port cls : Nat) (bytes : List Byte) (stomped : Bool)
  /-- The frame in transmission at egress `port` ends with a complemented FCS (R290, R291). -/
  | stomp (port : Nat) (eChar : Bool)
  /-- A MAC control frame leaves a port (R314). -/
  | control (port : Nat) (bytes : List Byte)
  /-- A PTP message of the network time unit leaves a port (R361), as its frame. -/
  | ptp (port : Nat) (bytes : List Byte)
  /-- A Rope or ring-port lane sends this capability message, in CAPX over and over, on the Rope after each marker (R337,
  R339). -/
  | cap (lane : Nat) (bytes : List Byte)
  /-- A ring frame leaves a port (R231). -/
  | ringFrame (port : Nat) (bytes : List Byte)
  /-- A block leaves on the Rope (R498): its sequence number and content, and its bytes as encrypted, where the cipher has a
  key (R499). -/
  | rope (seq : Nat) (msg : RopeOut) (wire : Option (List Byte))
  /-- Bytes returned on the SMBus (R574). -/
  | smbus (data : List Byte)
  /-- A pulse of an output begins (R412 to R414): output, its active level, and for how many ns it lasts. -/
  | pulse (j : Nat) (level : Bool) (width : Nat)
  deriving DecidableEq, Repr

/-! ### The block -/

/-- Everything the spec gives the ST720 but the queue of commands. `regs` holds every BAR0
register of the tables by offset, `utags` their update tags (R61). `free` counts the free values
taken (log entry 2). -/
structure Block where
  regs : SMap Word
  utags : SMap (BitVec 8)
  tm : TimeSt
  cyc : CycleSt
  host : HostSt
  cav : CavSt
  axes : Vector Axis 16
  encs : Vector Enc 4
  mainsLast : Nat
  mainsGap : Nat
  eng : Vector Engine 16
  trc : TraceSt
  snap : SnapSt
  flw : FlwSt
  sw : SwSt
  macs : Vector MacSt 33
  lanes : LanesSt
  rings : RingsSt
  ptp : PtpSt
  sec : SecSt
  cps : CmpSt
  outs : Vector OutSt 6
  clk : ClkSt
  tic : TicSt
  cal : CalSt
  pair : PairSt
  pw : PwSt
  strikes : List (Channel × List Strike)
  retired : List Channel
  retRec : List Channel
  free : Nat
  out : List Out
  deriving DecidableEq, Repr

/-- The machine: the block and the commands waiting, first in first out. -/
structure State where
  blk : Block
  pending : List Instr
  deriving DecidableEq, Repr

/-! ### Reset -/

/-- The clocks at power-on: the scale is INVALID (R104 row 1) and starts at the PTP epoch. -/
def TimeSt.reset : TimeSt :=
  { lt := 0, phys := 0, everSet := false, restored := false, slewRem := 0, slewRate := 100,
    slewKind := .none, aonZero := 0, aonWin := 0, record := none, jump := 0, lant := ⟨0, 0, 0⟩ }

/-- No cycle in progress (R27). -/
def CycleSt.reset : CycleSt :=
  { inProg := false, start := 0, next := 0, trans := false, firstAt := none, armPend := false,
    triggerAt := none, slotDone := false, slotClose := none, count := 0, lastEval := none, slotUsed := 0, goAt := none, drainTo := none,
    leanExit := none, sampled := none, rdyOwn := none, rdyPeer := none, budgetUs := 125 }

/-- The configuration space at power-on: D0, 128 bytes of payload, no error, an MSI-X table of zeros. -/
def PciSt.reset : PciSt := { d3hot := false, payload256 := false, errors := 0, vectors := [] }

/-- The host interface at power-on: nothing queued, every vector masked. -/
def HostSt.reset : HostSt :=
  { pci := .reset, backlog := [], pcie := .reset, perst := true, journal := [], stalls := [], mask := BitVec.allOnes 64,
    pba := 0, held := [], waking := 0 }

/-- Cavern holds zero (R604). -/
def CavSt.reset : CavSt :=
  { mem := [], corr := [], uncorr := [], remap := [], sparesUsed := 0, copying := [] }

/-- An axis in OFF (R606). -/
def Axis.reset : Axis :=
  { p := 0, v := 0, a := 0, s0 := 0, base := 0, applied := 0, faultRun := 0, zArmed := true,
    past := [], knot := none, queue := [], lastKT := none, raw := 0, ssiPrev := none, ssiBusy := false,
    lastInst := 0, faultsSeen := 0, edgeSeen := 0, idxSeen := 0, p2t := false }

/-- An encoder input with both levels low and count 0. -/
def Enc.reset : Enc :=
  { a := false, b := false, count := 0, edge := 0, edgeNew := 0, faults := 0, idx := 0, idxNew := 0, ssiAt := none, ssiStamp := 0 }

/-- An engine in EMPTY, its stores zero (R134, R187). -/
def Engine.reset : Engine :=
  { g := Vector.replicate 64 0, f := 0, pc := 0, sig := 0, prog := [], data := [], dir := [],
    rings := [], plen := 0, entry := 0, emis := [], tags := Vector.replicate 4 .free,
    wait := .none, trig := none, startAt := none, startPend := false, reloc := false, readyAt := 0,
    use := 0, seen := 0, seenWait := 0, waitSince := none, overrun := false, lastRec := none, insnAt := 0, insnStw := 0, insnRetry := false, ownReport := none, peerReport := none, digest := 0, opened := false,
    coreRet := false, laddr := 0, sigPend := [], tagRun := 0, doneAt := Vector.replicate 4 0, stOld := none, scrubAt := 0 }

/-- An empty trace. -/
def TraceSt.reset : TraceSt :=
  { buf := [], qLen := 0, qAt := 0, counts := Vector.replicate 16 0, fullRaised := false, fabWin := 0, fabCopy := Vector.replicate 16 0,
    fabAt := 0 }

/-- No snapshot armed. -/
def SnapSt.reset : SnapSt :=
  { strobe := none, late := false, struck := false, ltH := 0, ltL := 0, latched := [], offMask := 0, acks := [] }

/-- Flowstone with every record at reset and nothing queued. -/
def FlwSt.reset : FlwSt :=
  { recs := [], queue := [], flight := [], seekQ := [], cache := [], count := 0,
    demand := Vector.replicate 8 0, atCap := false, cyc := 0, restore := 0, retirePend := 0, freeAt := 0, seekFin := false }

/-- An empty switch core. -/
def SwSt.reset : SwSt :=
  { frames := [], nextId := 0, copies := [], held := [], ingress := [], seqs := [], lastSlice := [],
    fdb := [], vlan := [], streams := [], credit := [], turn := [], tx := [], rowPend := [],
    rows := [], sliceBack := 0, spareBack := 0, minFree := 16384, emAt := 0, emLast := 15 }

/-- A MAC that neither pauses nor is paused. -/
def MacSt.reset : MacSt :=
  { allUntil := 0, clsUntil := Vector.replicate 8 0, sent := 0, renewAt := 0, ts := [] }

/-- A master that has given nothing. -/
def MasterSt.reset : MasterSt := { sync := none, ms := none, dreq := none, mpds := [], lastValid := none, ival := 0 }

/-- A servo in OFF. -/
def DomSt.reset : DomSt :=
  { mA := .reset, mB := .reset, doff := 0, doffAt := 0, rate := 0, outs := [], integ := 0, within := 0,
    beyond := 0 }

/-- A port that has sent no message. -/
def PortTime.reset : PortTime :=
  { seqs := [], pdT1 := none, pdT4 := none, pdMean := [], lbk := false, probes := 0, due := [] }

/-- The network time unit with both servos off. -/
def PtpSt.reset : PtpSt :=
  { doms := Vector.replicate 2 .reset, ports := Vector.replicate 32 .reset, rx := [], swTo := 0, slewSeen := 0 }

/-- Every key slot empty, the log empty. -/
def SecSt.reset : SecSt :=
  { keys := Vector.replicate 16 0, mirrorBad := false, ropeKey := none, log := [], acted := 0, fuse := none }


/-- A lane in OFF. -/
def LaneSt.reset : LaneSt :=
  { keep := false, since := 0, up := 0, down := 0, lossAt := none, lossOut := false, test := none, ser := 0, adaptAt := 0,
    wakeAt := none }

/-- Every lane in OFF. -/
def LanesSt.reset : LanesSt :=
  { lane := Vector.replicate 36 .reset, use := 0, farSsc := false, phase := ⟨0, 0, 0, none, 0, 0⟩ }

/-- A ring in OFF. -/
def RingSt.reset : RingSt :=
  { train := [], lastF := false, count := 0, bad := false, used := 0, fullC := false, reqs := [], grant := 0x1FF, again := false, claim := 0,
    pres := [], lost := [], dn := false, dnSeq := none, unwrap := false, scan := none, kaAt := 0, sendEnd := 0, old := [], mail := [], wake := false }

/-- Every ring in OFF, the endpoint table empty. -/
def RingsSt.reset : RingsSt :=
  { ring := Vector.replicate 32 .reset, ept := [], edit := [], wrote := [], wroteLast := [], pl := [], copyEnd := 0, slotBy := [] }

/-- An input whose signal has not come. -/
def InputSt.reset : InputSt := { stamps := [], absent := true, absentAt := 0, qualAt := 0, phase := 0 }

/-- The Compass in FREE_RUN. -/
def CmpSt.reset : CmpSt :=
  { ins := Vector.replicate 8 .reset, decideAt := none, kindA := false, integ := 0, bridge := false, frozen := none,
    stage3At := none, hourAt := 0, acqAt := 0, holdAt := 0, dwellAt := none, hist := [], lastSec := 0, sum := 0,
    num := 0, haltAt := none }

/-- An output that is stopped. -/
def OutSt.reset : OutSt := { next := none, last := none, anchorAt := none, iv1 := 0, iv2 := 0, ending := false, amt := 0 }

/-- A PLL in OFF. -/
def PllSt.reset : PllSt := { failed := 0, since := 0, noband := false, why := 0 }

/-- The PLLs in OFF. -/
def ClkSt.reset : ClkSt := { plls := Vector.replicate 3 .reset, res := 0, resAt := 0 }

/-- The measurement unit idle, its queue empty. -/
def TicSt.reset : TicSt :=
  { start := none, startW := 0, prev := 0, stops := [], turn := false, queue := [], held := none, rearm := false,
    seq := 0, cold := false, startAt := 0, ovenAt := 0 }

/-- No job. -/
def CalSt.reset : CalSt :=
  { queue := [], run := none, elem := 0, began := 0, waitAt := none, lastEnd := 0, auto := 0, fails := Vector.replicate 28 0,
    swap := [], dly := none, dlyN := 0, dlySum := 0, dlySq := 0 }

/-- A unit outside a pair. -/
def PairSt.reset : PairSt :=
  { since := 0, session := 0, peerSession := 0, linked := false, txSeq := 0, rxSeq := 0, lastTx := 0, lastRx := 0, aliveAt := 0,
    fence := false, alive := true, pState := 0, gen := 0, acts := [], raise_ := false, own := [], peer := [],
    digE := Vector.replicate 16 [], digF := [], digAt := 0, trigAt := 0, shut := none, low := 0, failSeen := false, resyncAt := 0,
    quietSeen := false, mirror := 0, overflow := false, tags := [], joinAt := none, axSeen := 0, axFrom := Vector.replicate 16 0 }

/-- Mains present, no bank sealed, no module in a cage. -/
def PwSt.reset : PwSt :=
  { pend := none, sealed := 0, unchecked := 0, lost := 0, quadAt := Vector.replicate 9 0, quadAcc := 0,
    failAt := none, shed := false, heat := false, cell := false, dieLevel := none, baseLevel := none,
    intLow := false, brown := false, kind := none, cls := Vector.replicate 9 0, enc5v := true }
/-- The block right after power-on reset: every register at the reset value of its table. -/
def Block.reset : Block :=
  { regs := [], utags := [], tm := .reset, cyc := .reset, host := .reset, cav := .reset,
    axes := Vector.replicate 16 .reset, encs := Vector.replicate 4 .reset, mainsLast := 0, mainsGap := 20000000,
    eng := Vector.replicate 16 .reset, trc := .reset, snap := .reset,
    flw := .reset, sw := .reset,
    macs := Vector.replicate 33 .reset,
    lanes := .reset, rings := .reset, ptp := .reset, sec := .reset,
    cps := .reset, outs := Vector.replicate 6 .reset, clk := .reset, tic := .reset, cal := .reset,
    pair := .reset, pw := .reset,
    strikes := [], retired := [], retRec := [], free := 0, out := [] }

/-- The machine right after reset: no command waits. -/
def State.reset : State := { blk := .reset, pending := [] }

end Sys2Proof.Machine
end

