-- ==== Sys2Proof/Machine/Ops.lean ====
section
/-! DEFINITION. The shared operations: sparse tables, registers and their fields, update tags,
events, counters, strikes, the clocks, power domains, and how a command's effect becomes the
outcome of `exec`. -/

namespace Sys2Proof.Machine

/-! ### Sparse tables -/

/-- The entry of a sparse table at a key; `d` gives the entries that the table does not list. -/
def sget {α : Type} (d : Nat → α) : SMap α → Nat → α
  | [], k => d k
  | (j, v) :: r, k => if j = k then v else sget d r k

/-- Insert or replace an entry, by rising key. -/
def sins {α : Type} : SMap α → Nat → α → SMap α
  | [], k, v => [(k, v)]
  | (j, w) :: r, k, v =>
    if k < j then (k, v) :: (j, w) :: r else if k = j then (k, v) :: r else (j, w) :: sins r k v

/-- Write an entry; an entry equal to the default is removed, so that the table stays canonical. -/
def sput {α : Type} [DecidableEq α] (d : Nat → α) (m : SMap α) (k : Nat) (v : α) : SMap α :=
  if v = d k then m.filter (fun p => p.1 ≠ k) else sins m k v

/-- Keys strictly rising. -/
def srising {α : Type} : SMap α → Bool
  | [] => true
  | [_] => true
  | (j, _) :: (k, w) :: r => decide (j < k) && srising ((k, w) :: r)

/-- The canonical form of a sparse table: keys strictly rising, no entry equal to the default. -/
def swf {α : Type} [DecidableEq α] (d : Nat → α) (m : SMap α) : Bool :=
  srising m && m.all (fun p => decide (p.2 ≠ d p.1))

/-- Write a list of entries. -/
def sputs {α : Type} [DecidableEq α] (d : Nat → α) (m : SMap α) : List (Nat × α) → SMap α
  | [] => m
  | (k, v) :: r => sputs d (sput d m k v) r

/-- Change one element of a vector; an index out of range changes nothing. -/
def vmod {α : Type} {n : Nat} (v : Vector α n) (i : Nat) (f : α → α) : Vector α n :=
  if h : i < n then v.set i (f v[i]) else v

/-! ### Words and fields -/

/-- All ones in the low `w` bits. -/
def lowMask (w : Nat) : Word := BitVec.ofNat 72 (2 ^ w - 1)

/-- The field of a word, right-aligned. -/
def fieldOf (x : Word) (lo w : Nat) : Nat := x.toNat / 2 ^ lo % 2 ^ w

/-- A word with one field replaced, the value taken modulo 2^w. -/
def withField (x : Word) (lo w v : Nat) : Word :=
  (x &&& ~~~(lowMask w <<< lo)) ||| (BitVec.ofNat 72 (v % 2 ^ w) <<< lo)

/-- A natural number read as a two's complement number of `w` bits. -/
def toSigned (w v : Nat) : Int :=
  if v % 2 ^ w < 2 ^ (w - 1) then (v % 2 ^ w : Nat) else ((v % 2 ^ w : Nat) : Int) - (2 ^ w : Nat)

/-- An integer as a two's complement number of `w` bits. -/
def ofSigned (w : Nat) (v : Int) : Nat := (v % ((2 ^ w : Nat) : Int)).toNat

/-- A number limited to `m`. -/
def sat (m v : Nat) : Nat := if v ≤ m then v else m

/-- A signed number limited to `w` bits. -/
def satSigned (w : Nat) (v : Int) : Int :=
  let m : Int := ((2 ^ (w - 1) : Nat) : Int)
  if v < -m then -m else if v ≥ m then m - 1 else v

/-- True as 1. -/
def b2n (b : Bool) : Nat := if b then 1 else 0

/-- Bit `i` of a number. -/
def bitAt (v i : Nat) : Bool := v / 2 ^ i % 2 == 1

/-- A number with bit `i` set. -/
def setBitN (v i : Nat) : Nat := if bitAt v i then v else v + 2 ^ i

/-- A number with bit `i` cleared. -/
def clrBitN (v i : Nat) : Nat := if bitAt v i then v - 2 ^ i else v

/-- A number with the bits of a mask (64 bits) cleared. -/
def clrMaskN (v m : Nat) : Nat := v - Nat.land v m

/-- How many of the low `n` bits are set. -/
def popcount (v : Nat) : Nat → Nat
  | 0 => 0
  | n + 1 => b2n (bitAt v n) + popcount v n

/-- Quotient rounded up. -/
def ceilDiv (a b : Nat) : Nat := (a + b - 1) / b

/-! ### Registers (R16 to R18, R60) -/

/-- The register at BAR0 offset `a`. -/
def Block.reg (b : Block) (a : Nat) : Word := sget regReset b.regs a

/-- Replace the register at BAR0 offset `a`. -/
def Block.setReg (b : Block) (a : Nat) (v : Word) : Block :=
  { b with regs := sput regReset b.regs a v }

/-- A field of a register. -/
def Block.get (b : Block) (f : Field) : Nat := fieldOf (b.reg f.addr) f.lo f.w

/-- A one-bit field as a Bool. -/
def Block.flag (b : Block) (f : Field) : Bool := b.get f == 1

/-- A field read as a signed number. -/
def Block.geti (b : Block) (f : Field) : Int := toSigned f.w (b.get f)

/-- Write a field of a register. -/
def Block.put (b : Block) (f : Field) (v : Nat) : Block :=
  b.setReg f.addr (withField (b.reg f.addr) f.lo f.w v)

/-- Write a one-bit field. -/
def Block.putB (b : Block) (f : Field) (v : Bool) : Block := b.put f (b2n v)

/-- Write a signed field, modulo its width. -/
def Block.puti (b : Block) (f : Field) (v : Int) : Block := b.put f (ofSigned f.w v)

/-- Add to a field that saturates at all ones. -/
def Block.incSat (b : Block) (f : Field) (n : Nat) : Block := b.put f (sat (2 ^ f.w - 1) (b.get f + n))

/-- Add to a field modulo its width. -/
def Block.incMod (b : Block) (f : Field) (n : Nat) : Block := b.put f (b.get f + n)

/-- Set bit `i` of a field. -/
def Block.setBit (b : Block) (f : Field) (i : Nat) : Block := b.put f (setBitN (b.get f) i)

/-- Clear bit `i` of a field. -/
def Block.clrBit (b : Block) (f : Field) (i : Nat) : Block := b.put f (clrBitN (b.get f) i)

/-- Return registers to their reset values: those whose offset satisfies `p` (R526, R593). -/
def Block.resetRegs (b : Block) (p : Nat → Bool) : Block :=
  { b with regs := b.regs.filter (fun e => ! p e.1) }

/-! ### Update tags (R61) -/

/-- The high words of LT values, whose tag also counts changes of the low word. -/
def isLtHigh (a : Nat) : Bool :=
  a == 0x50080 || a == 0x500C0 || a == 0x3800A0 || a == 0x3A00A0 || a == 0x410320

/-- The registers in which two register files differ, among a list of offsets. -/
def changedRegs (old new : SMap Word) : List (Nat × Word) → List Nat
  | [] => []
  | (a, _) :: r =>
    if sget regReset old a = sget regReset new a then changedRegs old new r
    else a :: changedRegs old new r

/-- The offsets to compare: every register that either file lists. -/
def touchedRegs (old new : SMap Word) : List Nat :=
  let ch := changedRegs old new new
  ch ++ (changedRegs old new old).filter (fun a => !(ch.contains a))

/-- The registers whose tag a change of register file counts, each once: those changed, and the high word of each LT value
whose low word changed. -/
def tagged (old new : SMap Word) : List Nat :=
  let ch := touchedRegs old new
  (ch ++ (ch.filter (fun a => 16 ≤ a && isLtHigh (a - 16))).map (fun a => a - 16)).dedup

/-- Count one change of each register listed. -/
def bumpTags : List Nat → SMap (BitVec 8) → SMap (BitVec 8)
  | [], t => t
  | a :: r, t => bumpTags r (sput (fun _ => 0) t a (sget (fun _ => 0) t a + 1))

/-- The tags after a command that took `old` to `new`: those that `new` bears, with the changes from `old` counted. -/
def tagsAfter (old new : Block) : SMap (BitVec 8) := bumpTags (tagged old.regs new.regs) new.utags

/-- Two changes at two instants within one command: each counts (R61). What the whole shows as changed counts at the end of
the command, so the rest is counted here. -/
def Block.inTurn (f g : Block → Block) (b : Block) : Block :=
  let b1 := f b
  let b2 := g b1
  { b2 with utags := bumpTags ((tagged b.regs b1.regs ++ tagged b1.regs b2.regs).diff (tagged b.regs b2.regs)) b2.utags }

/-- The outcome of a command whose effect on the block is `f`: the block changed, every update
tag counted, and the queue as it was. -/
def done (s : State) (f : Block → Block) : Host.Outcome State Fault Refusal :=
  .next { s with blk := { f s.blk with utags := tagsAfter s.blk (f s.blk) } }

/-- The outcome of a command that restarts power domains: the tags of the registers that `p`
names read 0 (R61). -/
def doneRestart (s : State) (p : Nat → Bool) (f : Block → Block) : Host.Outcome State Fault Refusal :=
  .next { s with blk := { f s.blk with
    utags := (tagsAfter s.blk (f s.blk)).filter (fun e => ! p e.1) } }

/-! ### Output and free values -/

/-- Something leaves the block. -/
def Block.emit (b : Block) (o : Out) : Block := { b with out := o :: b.out }

/-- The next free value: a number of at most `bound` that nothing constrains (log entry 2). -/
def Block.freeNext (b : Block) (bound : Nat) : Nat := Config.freeNat b.free bound

/-- Advance to the next free value. -/
def Block.freeStep (b : Block) : Block := { b with free := b.free + 1 }

/-! ### Power domains (R47, R58) -/

/-- The power domain of the register at a BAR0 offset (Table 2-3, R485). -/
def domainOf (a : Nat) : Nat :=
  if a < 0x20000 then 3
  else if a < 0x30000 then 1
  else if a < 0x80000 then 2
  else if a < 0x100000 then 11
  else if a < 0x110000 then 9
  else if a < 0x140000 then 10
  else if a < 0x150000 then 9
  else if a < 0x160000 then 10
  else if a < 0x180000 then 3
  else if a < 0x200000 then 4
  else if a < 0x300000 then 7
  else if a < 0x380000 then 8
  else if a < 0x3C0000 then 4
  else if a < 0x3D0000 then 4
  else if a < 0x400000 then 7
  else if a < 0x410000 then 10
  else if a < 0x420000 then 0
  else 3

/-- The lane quad behind a register of SDS or of a line port's MAC: 0 to 7, or 8 for QR (R532). -/
def quadOf (a : Nat) : Option Nat :=
  if 0x100000 ≤ a && a < 0x124000 then some ((a - 0x100000) / 0x4000)
  else if 0x140000 ≤ a && a < 0x160000 then some ((a - 0x140000) / 0x4000)
  else none

/-- Power domain `d` is on (PWR_STAT.DOMON). -/
def Block.domOn (b : Block) (d : Nat) : Bool := bitAt (b.get PWR_STAT_DOMON) d

/-- Lane quad `q` is on (PWR_STAT.QON). -/
def Block.quadOn (b : Block) (q : Nat) : Bool := bitAt (b.get PWR_STAT_QON) q

/-- The register at offset `a` answers without a wake: its domain is on, and its quad where it
has one. -/
def Block.regOn (b : Block) (a : Nat) : Bool :=
  b.domOn (domainOf a) && (match quadOf a with | none => true | some q => b.quadOn q)

/-- The registers that lie in domain `d`. -/
def inDomain (d : Nat) (a : Nat) : Bool := domainOf a == d

/-! ### Retained banks (R538 to R541) -/

/-- The banks of engine `n` (R538). -/
def bankMask (n : Nat) : BitVec 1538 := BitVec.ofNat 1538 ((2 ^ 96 - 1) * 2 ^ (96 * n))

/-- Banks of engine `n` are in retention or unchecked (R540). -/
def Block.banksPending (b : Block) (n : Nat) : Bool := (b.pw.sealed ||| b.pw.unchecked) &&& bankMask n != 0

/-- PWR_RETN.PEND counts the banks unchecked (R540). -/
def Block.pendShow (b : Block) : Block := b.put PWR_RETN_PEND (popcount b.pw.unchecked.toNat 1538)

/-- A LOAD marks the banks of its engine checked (R540). -/
def Block.banksTaken (b : Block) (n : Nat) : Block :=
  Block.pendShow { b with pw := { b.pw with
    sealed := b.pw.sealed &&& ~~~bankMask n, unchecked := b.pw.unchecked &&& ~~~bankMask n } }

/-! ### Events (R95 to R98) -/

/-- Issue the MSI-X message of event `n`: at once, or into the Pending Bit Array while masked. -/
def Block.message (b : Block) (n : Nat) : Block :=
  if b.host.mask.getLsbD n then
    { b with host := { b.host with pba := b.host.pba ||| BitVec.ofNat 64 (2 ^ n) } }
  else b.emit (.msix n)

/-- An occurrence of event `n` while PD3 is on (R96): PEND, or OVR where PEND is set, and the
message when PEND and EN rise together. An occurrence in the SYS clock of a W1C of PEND[n] comes after it, so that PEND stays 1
and the message is issued again; R96 does not name OVR there, and it is not set (DESIGN CHOICE, log entry 71). -/
def Block.occur (b : Block) (n : Nat) : Block :=
  if bitAt (b.get EVT_PEND_PEND) n then b.setBit EVT_OVR_OVR n
  else
    let b1 := b.setBit EVT_PEND_PEND n
    if bitAt (b.get EVT_EN_EN) n then b1.message n else b1

/-- An event is raised; while PD3 is off its source holds it (end of R100). -/
def Block.raise (b : Block) (n : Nat) : Block :=
  if b.domOn 3 then b.occur n
  else if b.host.held.contains n then b
  else { b with host := { b.host with held := b.host.held ++ [n] } }

/-- Occurrences of every event of a list. -/
def Block.occurAll (b : Block) : List Nat → Block
  | [] => b
  | n :: ns => (b.occur n).occurAll ns

/-- The level of INT_N: driven low (false) while some event is pending, enabled and routed with
PINEN set (R98), and from a wake to the first access (R536). -/
def Block.intN (b : Block) : Bool :=
  !(b.pw.intLow || b.flag EVT_CTL_PINEN &&
    Nat.land (Nat.land (b.get EVT_PEND_PEND) (b.get EVT_EN_EN)) (b.get EVT_PIN_PIN) != 0)

/-! The event numbers of Table 2-11. -/
def evAlarm : Nat := 0
def evPwrFail : Nat := 1
def evPwrState : Nat := 2
def evRetnLost : Nat := 3
def evTherm : Nat := 4
def evClkFault : Nat := 5
def evCompassState : Nat := 6
def evRefDisagree : Nat := 7
def evHoldover : Nat := 8
def evOcxoWarm : Nat := 9
def evLanternQual : Nat := 10
def evDomainSwitch : Nat := 11
def evTsOvf : Nat := 12
def evTsReady : Nat := 13
def evTicDone : Nat := 14
def evCalDone : Nat := 15
def evCalFail : Nat := 16
def evLaneTransient : Nat := 17
def evLaneRetired : Nat := 18
def evLinkState : Nat := 19
def evPortFlush : Nat := 20
def evStatHalf : Nat := 21
def evSnapDone : Nat := 22
def evPerfHalf : Nat := 23
def evTraceFull : Nat := 24
def evSumpCe : Nat := 25
def evSumpUe : Nat := 26
def evSpareUsed : Nat := 27
def evXoff : Nat := 28
def evPauseIgnored : Nat := 29
def evMcPartial : Nat := 30
def evStomp : Nat := 31
def evReseqTimeout : Nat := 32
def evRingCycleErr : Nat := 33
def evRingNodeLost : Nat := 34
def evRingWrap : Nat := 35
def evMailbox : Nat := 36
def evEndpointTable : Nat := 37
def evGalEng (n : Nat) : Nat := 38 + n
def evBudgetOvr : Nat := 54
def evCamShed : Nat := 55
def evCamFault : Nat := 56
def evPairState : Nat := 57
def evDiverge : Nat := 58
def evRopeLink : Nat := 59
def evClaimChange : Nat := 60
def evImageAuth : Nat := 61
def evHostErr : Nat := 62
def evSwDoorbell : Nat := 63

/-- Advanced Error Reporting records an uncorrectable error by its bit (R54; the bits are those of PCI Express, log
entry 9): 12 poisoned, 14 completion timeout, 15 Completer Abort, 20 Unsupported Request. -/
def Block.pciError (b : Block) (bit : Nat) : Block :=
  { b with host := { b.host with pci := { b.host.pci with errors := b.host.pci.errors ||| BitVec.ofNat 32 (2 ^ bit) } } }

/-- HOST_ERR with a cause of Table 2-9 and the address concerned (R93, R94). -/
def Block.hostErr (b : Block) (code addr : Nat) : Block :=
  (((b.put HOST_ERRCAUSE_CODE code).incSat HOST_ERRCAUSE_CNT 1).put HOST_ERRADDR_ADDR addr).raise evHostErr

/-! ### Counters (R20, R474) -/

/-- The statistics group of a counter's register, as STS_HALFSUM numbers them (Table 16-2): ports,
lanes, rings, switch core, Compass, Flowstone. Performance counters have none. -/
def statGroup (a : Nat) : Option Nat :=
  if 0x140000 ≤ a && a < 0x161000 then some 0
  else if 0x100000 ≤ a && a < 0x124000 then some 1
  else if 0x1C0000 ≤ a && a < 0x1E0000 then some 2
  else if 0x180000 ≤ a && a < 0x1C0000 then some 3
  else if 0x40000 ≤ a && a < 0x50000 then some 4
  else if 0x300000 ≤ a && a < 0x310000 then some 5
  else none

/-- The count of a 40-bit counter register. -/
def Block.count (b : Block) (a : Nat) : Nat := fieldOf (b.reg a) 0 40

/-- What bit 39 becoming set raises: the cause registers of the counter's block and STAT_HALF or
PERF_HALF (R20, R325, R390, R474, R483). -/
def Block.halfEvent (b : Block) (a : Nat) : Block :=
  if 0x3C0000 ≤ a && a < 0x3D0000 then (b.putB PRF_CAUSE_FAB true).raise evPerfHalf
  else if 0x3D0000 ≤ a && a < 0x3E0000 then
    (b.setBit PRF_CAUSE_ENG ((a - 0x3D0000) / 0x1000)).raise evPerfHalf
  else
    let b1 := match statGroup a with | some g => b.setBit STS_HALFSUM_GROUP g | none => b
    let b2 :=
      if 0x140000 ≤ a && a < 0x161000 then
        let n := (a - 0x140000) / 0x1000
        let o := (a - 0x140000) % 0x1000
        if o < 0x800 then ((b1.setBit (MAC_HALF_BIT39 n) ((o - 0x400) / 16)).putB (MAC_CAUSE_HALF n) true)
        else b1.putB (MAC_TSCAUSE_HALF n) true
      else b1
    b2.raise evStatHalf

/-- Add `n` to a counter: it holds at 2^40 − 1, and raises when bit 39 becomes set (R20). -/
def Block.countUp (b : Block) (a n : Nat) : Block :=
  let old := b.count a
  let new := sat (2 ^ 40 - 1) (old + n)
  let b1 := b.setReg a (withField (b.reg a) 0 40 new)
  if old < 2 ^ 39 && 2 ^ 39 ≤ new then b1.halfEvent a else b1

/-! ### The clocks (R10, R13, R101) -/

/-- One nanosecond in the resolution of the time scale. -/
def nsUnit : Nat := 2 ^ 40

/-- The STW of an instant of the time scale (R13). -/
def stwOf (lt : Nat) : Word := BitVec.ofNat 72 (lt / 2 ^ 24)

/-- Whole nanoseconds of the time scale. -/
def Block.nowNs (b : Block) : Nat := b.tm.lt / nsUnit

/-- Whole nanoseconds since power-on. -/
def Block.physNs (b : Block) : Nat := b.tm.phys / nsUnit

/-- The present STW. -/
def Block.stw (b : Block) : Word := stwOf b.tm.lt

/-- The stamp that a clock domain of a period of `ns` ns takes at present: that of its latest clock edge (R23). The edges of
every domain lie at whole periods since power-on (DESIGN CHOICE, log entry 72). -/
def Block.clockStamp (b : Block) (ns : Nat) : Word := stwOf (b.tm.lt - b.tm.phys % (ns * nsUnit))

/-- a is before b (R14). -/
def before (a b : Word) : Bool :=
  let d := (b - a).toNat
  1 ≤ d && d ≤ 2 ^ 71 - 1

/-- The high word of an LT value (Table 0-2). -/
def ltHigh (lt qual dom : Nat) : Word :=
  BitVec.ofNat 72 (lt / (10 ^ 9 * nsUnit) * 256 + qual % 16 * 16 + dom % 16)

/-- The low word of an LT value (Table 0-2). -/
def ltLow (lt : Nat) : Word :=
  BitVec.ofNat 72 (lt / nsUnit % 10 ^ 9 * 2 ^ 42 + lt / 2 ^ 24 % 2 ^ 16 * 2 ^ 26)

/-- The instant of an LT value, from its SEC, NS and FRAC. -/
def ltOf (sec ns frac : Nat) : Nat := (sec * 10 ^ 9 + ns) * nsUnit + frac * 2 ^ 24

/-- The signed correction of RATE over a span of the LANT clock, truncated (R101). -/
def rateShare (rate : Int) (d : Nat) : Int := (d : Int) * rate / (2 ^ 40 : Int)

/-- What a slew adds to the time scale over a span: MAX × 10^-6 of it, at most what remains (R106). -/
def slewShare (t : TimeSt) (d : Nat) : Int :=
  let m : Nat := d * t.slewRate / 10 ^ 6
  if t.slewRem ≥ 0 then (min m t.slewRem.toNat : Nat) else -((min m (-t.slewRem).toNat : Nat) : Int)

/-- The time scale `d` units of the LANT clock from now. -/
def Block.ltAfter (b : Block) (d : Nat) : Nat :=
  ((b.tm.lt : Int) + d + rateShare (b.geti LAN_RATE_RATE) d + slewShare b.tm d).toNat

/-- The LANT edges that the TIC stamps lie at whole multiples of this since power-on: 64 ns in ALIGN, 20.48 µs otherwise
(Table 14-3). -/
def Block.lantGrid (b : Block) : Nat := (if b.get CLK_MAINSTAT_STATE == 3 then 64 else 20480) * nsUnit

/-- The latest LANT stamp when the clocks have moved on by `d`: the OCXO counts a span of the LANT clock less what the Compass
output frequency adds to it (R455). -/
def Block.lantAfter (b : Block) (d : Nat) : LantStamp :=
  let e := (b.tm.phys + d) / b.lantGrid * b.lantGrid
  if e ≤ b.tm.phys then b.tm.lant
  else
    { at_ := e, lt := b.ltAfter (e - b.tm.phys)
      ocxo := b.tm.lant.ocxo + ((e - b.tm.lant.at_ : Nat) : Int) * 1000 * 2 ^ 20 / (2 ^ 40 + b.geti CMP_OUTFREQ_FREQ) }

/-- The clocks move on by `d` units of 2^-40 ns of the LANT clock. -/
def Block.advance (b : Block) (d : Nat) : Block :=
  { b with tm := { b.tm with
    lt := b.ltAfter d, phys := b.tm.phys + d, slewRem := b.tm.slewRem - slewShare b.tm d, lant := b.lantAfter d } }

/-- The clocks move on by `n` nanoseconds. -/
def Block.advanceNs (b : Block) (n : Nat) : Block := b.advance (n * nsUnit)

/-- What the LANT clock counts while the time scale, at the rate `num` / `den` of that clock, moves on by `d`. -/
def clockShare (num den : Int) (d : Int) : Nat := (-(-(d * den) / num)).toNat

/-- The span of the LANT clock in which the time scale moves on by `d` (R101): at 1 + RATE_EFF, with the slew in progress
part of it until its offset is used up. -/
def Block.lantSpan (b : Block) (d : Nat) : Nat :=
  let t := b.tm
  let one : Int := 2 ^ 40 * 10 ^ 6
  let base := one + b.geti LAN_RATE_RATE * 10 ^ 6
  let slew : Int := if t.slewRem ≥ 0 then t.slewRate * 2 ^ 40 else -(t.slewRate * 2 ^ 40 : Int)
  let n := clockShare (base + slew) one d
  if t.slewRem ≠ 0 ∧ n * t.slewRate / 10 ^ 6 < t.slewRem.natAbs then n else clockShare base one (d - t.slewRem)

/-- The clocks reach an instant of the time scale, if it lies ahead. -/
def Block.reach (b : Block) (lt : Nat) : Block :=
  if lt ≤ b.tm.lt then b
  else
    let n := b.lantSpan (lt - b.tm.lt)
    { b with tm := { b.tm with lt := lt, phys := b.tm.phys + n, slewRem := b.tm.slewRem - slewShare b.tm n, lant := b.lantAfter n } }

/-- The clocks reach an instant given in whole nanoseconds of the time scale. -/
def Block.reachNs (b : Block) (ns : Nat) : Block := b.reach (ns * nsUnit)

/-- The clocks reach an instant since power-on, if it lies ahead. -/
def Block.reachPhys (b : Block) (p : Nat) : Block :=
  if p ≤ b.tm.phys then b else b.advance (p - b.tm.phys)

/-- The clocks as they stand at an instant since power-on: ahead of the present they run on to it, behind it they are those of
that instant. An engine keeps its own ticks whichever command comes first (R135). -/
def Block.clockAt (b : Block) (p : Nat) : Block :=
  if b.tm.phys ≤ p then b.reachPhys p
  else { b with tm := { b.tm with phys := p, lt := b.tm.lt - (b.tm.phys - p) } }

/-- The clocks return from an earlier instant to the present, `d` later. -/
def Block.toPresent (b : Block) (d : Nat) : Block := { b with tm := { b.tm with phys := b.tm.phys + d, lt := b.tm.lt + d } }

/-- The instant since power-on at which the STW is first not before `w`: ahead, or in the past. -/
def Block.instantOf (b : Block) (w : Word) : Nat :=
  if before b.stw w then b.tm.phys + b.lantSpan (b.tm.lt / 2 ^ 24 * 2 ^ 24 + (w - b.stw).toNat * 2 ^ 24 - b.tm.lt)
  else b.tm.phys - (b.tm.lt % 2 ^ 24 + (b.stw - w).toNat * 2 ^ 24)

/-- The clocks reach the first instant at which the STW is not before `w`. -/
def Block.reachStw (b : Block) (w : Word) : Block :=
  if before b.stw w then b.reach (b.tm.lt / 2 ^ 24 * 2 ^ 24 + (w - b.stw).toNat * 2 ^ 24) else b

/-- The AON count: 32,768 ticks per second since its zero (Table 18-9). -/
def Block.aon (b : Block) : Nat := (b.tm.phys - b.tm.aonZero) / nsUnit * 32768 / 10 ^ 9 % 2 ^ 48

/-! ### Time quality (R104, R105) -/

/-- The servo state of a steering domain (1 TDA, 2 TDB), Table 11-3. -/
def Block.servoState (b : Block) (dom : Nat) : Nat := b.get (LAN_D_STAT_STATE (dom - 1))

/-- QUAL by the first row of Table 3-1 that holds, with the condition of row 6. -/
def Block.qualRow6 (b : Block) : Bool :=
  b.get CMP_STAT_STATE == 2 && b.get CMP_STAT_STAGE == 3 &&
    (b.get LAN_TCTL_DOM == 0 || b.servoState (b.get LAN_TCTL_DOM) == 4)

/-- QUAL by Table 3-1. -/
def Block.qualNow (b : Block) : Nat :=
  let c := b.get CMP_STAT_STATE
  let d := b.get LAN_TCTL_DOM
  if !b.tm.everSet then 0xF
  else if b.tm.restored && !b.qualRow6 then 3
  else if c == 0 || c == 4 then 4
  else if c == 3 || (d != 0 && b.servoState d ≤ 1) then 2
  else if b.qualRow6 then 0
  else 1

/-- Bring LAN_STAT.QUAL up to date; a change sets QCHG, records both codes, raises LANTERN_QUAL,
ends ESTIMATED at row 6 and clears LAN_EST_UNC.VALID at the first QUALIFIED (R104, R105, R131). -/
def Block.requal (b : Block) : Block :=
  let old := b.get LAN_STAT_QUAL
  let q := b.qualNow
  let b0 := if b.qualRow6 then { b with tm := { b.tm with restored := false } } else b
  if q == old then b0
  else
    let b1 := (((b0.put LAN_STAT_QUAL q).put LAN_QCAUSE_OLDQ old).put LAN_QCAUSE_NEWQ q).putB LAN_QCAUSE_QCHG true
    let b2 := if q == 0 then b1.putB LAN_EST_UNC_VALID false else b1
    b2.raise evLanternQual

/-- The LT high word of the present (R10, R104). -/
def Block.ltHighNow (b : Block) : Word := ltHigh b.tm.lt (b.get LAN_STAT_QUAL) (b.get LAN_TCTL_DOM)

/-! ### Strikes and retirement (R48 to R52, R595) -/

/-- The strikes held for a channel, newest first. -/
def strikesOf (c : Channel) : List (Channel × List Strike) → List Strike
  | [] => []
  | (d, l) :: r => if d = c then l else strikesOf c r

/-- Replace the strikes held for a channel. -/
def setStrikes (c : Channel) (l : List Strike) : List (Channel × List Strike) → List (Channel × List Strike)
  | [] => [(c, l)]
  | (d, m) :: r => if d = c then (c, l) :: r else (d, m) :: setStrikes c l r

/-- The strikes that fall in the window ending at strike `s` (R49), `s` included. -/
def strikesIn (unitCycles : Bool) (window : Nat) (s : Strike) (l : List Strike) : Nat :=
  (l.filter (fun t =>
    if unitCycles then s.cycle < t.cycle + window
    else s.ns < t.ns + window * 10 ^ 6)).length

/-- An upset on a channel merges into the last counted strike: less than 1 µs after it, or, for a
ring node, in the same cycle (R48). -/
def merges (c : Channel) (s : Strike) : List Strike → Bool
  | [] => false
  | t :: _ => s.ns < t.ns + 1000 || (c.kind == 5 && s.cycle == t.cycle)

/-- A channel is retired. -/
def Block.isRetired (b : Block) (c : Channel) : Bool := b.retired.contains c

/-- SYS_RETIRED.KIND from the channels retired (R52). -/
def Block.retireBits (b : Block) : Nat :=
  (List.range 8).foldl (fun v k => if b.retired.any (fun c => c.kind == k) then setBitN v k else v) 0

/-- Retire a channel: SYS_RETIRED shows its kind and the retirement record takes it (R52, R595). -/
def Block.retire (b : Block) (c : Channel) : Block :=
  if b.isRetired c then b
  else
    let b1 := { b with retired := b.retired ++ [c], retRec := b.retRec ++ [c] }
    b1.put SYS_RETIRED_KIND b1.retireBits

/-- Clear a retirement: the history and the record's entry go with it (R49, R595). -/
def Block.unretire (b : Block) (c : Channel) : Block :=
  let b1 := { b with
    retired := b.retired.filter (fun d => d ≠ c)
    retRec := b.retRec.filter (fun d => d ≠ c)
    strikes := b.strikes.filter (fun e => e.1 ≠ c) }
  b1.put SYS_RETIRED_KIND b1.retireBits

/-- The strike that an upset makes at the present. -/
def Block.strikeNow (b : Block) : Strike := { ns := b.physNs, cycle := b.cyc.count }

/-- An upset on a channel counts as a strike (R48). -/
def Block.strikeCounts (b : Block) (c : Channel) : Bool :=
  !merges c b.strikeNow (strikesOf c b.strikes)

/-- Count an upset on a channel (R48). -/
def Block.strike (b : Block) (c : Channel) : Block :=
  if b.strikeCounts c then
    { b with strikes := setStrikes c (b.strikeNow :: strikesOf c b.strikes) b.strikes }
  else b

/-- The upset at the present, once counted, retires its channel (R49): THRESH strikes of its kind
lie in WINDOW. To be asked before the count. -/
def Block.retires (b : Block) (c : Channel) : Bool :=
  b.strikeCounts c && !b.isRetired c &&
    decide (b.get (SYS_STRIKES_THRESH c.kind) ≤
      strikesIn (b.flag (SYS_STRIKES_UNIT c.kind)) (b.get (SYS_STRIKES_WINDOW c.kind)) b.strikeNow
        (b.strikeNow :: strikesOf c b.strikes))

/-! ### The fabric's performance counters (R164, R483, R485) -/

/-- The 64 ns in which the present lies; the copy of the fabric counters is refreshed as each begins (R164). They are counted
from power-on (DESIGN CHOICE, log entry 72). -/
def Block.fabSpan (b : Block) : Nat := b.tm.phys / (64 * nsUnit)

/-- Count a fabric event in the counters from `k` down whose selection names it. -/
def Block.fabEventFrom (b : Block) (evt n : Nat) (ok : Nat → Bool) : Nat → Block
  | 0 => b
  | k + 1 =>
    (if b.get (PRF_FABSEL_EVT k) == evt && ok (b.get (PRF_FABSEL_PRM k)) then b.countUp (PRF_FAB k) n
      else b).fabEventFrom evt n ok k

/-- Count a fabric event `n` times; FEN 0 stops every fabric counter (R485). -/
def Block.fabAdd (b : Block) (evt n : Nat) (ok : Nat → Bool) : Block :=
  if n = 0 || !b.flag PRF_CTL_FEN then b else b.fabEventFrom evt n ok 16

/-- CORE clocks of 0.8 ns from power-on to an instant of `TimeSt.phys`. -/
def coreClocks (t : Nat) : Nat := t * 5 / (4 * nsUnit)

/-- SYS clocks of 4 ns from power-on to an instant of `TimeSt.phys`. -/
def sysClocks (t : Nat) : Nat := t / (4 * nsUnit)

/-- Some source is in XOFF. -/
def Block.anyXoff (b : Block) : Bool := (List.range 35).any (fun s => b.flag (SWC_IG_STAT_XOFF s))

/-- The counters of events 1, 6 and 16 of Table 16-4, which count clocks, are brought up to instant `t`. -/
def Block.fabTo (b : Block) (t : Nat) : Block :=
  if t ≤ b.trc.fabAt then b
  else
    let n := if bitAt (b.get CLK_OUTSTAT_RUN) 0 then coreClocks t - coreClocks b.trc.fabAt else 0
    let m := if bitAt (b.get CLK_OUTSTAT_RUN) 4 then sysClocks t - sysClocks b.trc.fabAt else 0
    let b1 := ((b.fabAdd 1 n (fun _ => true)).fabAdd 6 (if b.anyXoff then n else 0) (fun _ => true)).fabAdd 16
      (if b.host.stalls.isEmpty then 0 else m) (fun _ => true)
    { b1 with trc := { b1.trc with fabAt := t } }

/-- The fabric counters are about to change: the copy of the present 64 ns keeps what they held as these began. -/
def Block.fabKeep (b : Block) : Block :=
  if b.trc.fabWin = b.fabSpan then b
  else
    let b1 := b.fabTo (b.fabSpan * (64 * nsUnit))
    { b1 with trc := { b1.trc with fabWin := b.fabSpan, fabCopy := Vector.ofFn (fun k => b1.count (PRF_FAB k)) } }

/-- What the clock counts depend on is about to change, or a counter is read: they are brought up to the present. -/
def Block.fabTouch (b : Block) : Block := b.fabKeep.fabTo b.tm.phys

/-- A fabric counter as the copy for the Gallery holds it. -/
def Block.fabRead (b : Block) (k : Nat) : Nat := b.fabKeep.trc.fabCopy[k]?.getD 0

/-- A fabric event of Table 16-4 occurs `n` times, for the PRM values that `ok` accepts. -/
def Block.fabEvent (b : Block) (evt n : Nat) (ok : Nat → Bool) : Block :=
  if n = 0 then b else b.fabKeep.fabAdd evt n ok

/-- A fabric event that has no PRM. -/
def Block.fabCount (b : Block) (evt n : Nat) : Block := b.fabEvent evt n (fun _ => true)

/-! ### Pairs (R74, R497) -/

/-- This unit is a member of a synchronised pair: SOLO, STANDBY or ACTIVE (R497). -/
def Block.synced (b : Block) : Bool :=
  let st := b.get PAIR_STAT_STATE
  st == 2 || st == 4 || st == 5

/-- Port `p` is fenced (R507, R508): an uplink in a pair state that fences, or under the supervisor's fence. -/
def Block.fenced (b : Block) (p : Nat) : Bool :=
  let st := b.get PAIR_STAT_STATE
  decide (p < 32) && bitAt (b.get PAIR_UPMASK_MASK) p &&
    (st == 1 || st == 3 || st == 4 || st == 6 || b.pair.fence)

/-- This unit runs the Compass: it is no follower of a synchronised pair (R417, R509). -/
def Block.holder (b : Block) : Bool := !b.synced || b.flag PAIR_STAT_HOLDER

/-- Bytes that engine `n` gives to the digest of the cycle in progress (R511). -/
def Block.digEngine (b : Block) (n : Nat) (l : List Byte) : Block :=
  if b.synced then { b with pair := { b.pair with digE := vmod b.pair.digE n (fun d => d ++ l) } } else b

/-- Bytes that Flowstone gives to the digest of the cycle in progress (R511). -/
def Block.digFlow (b : Block) (l : List Byte) : Block :=
  if b.synced then { b with pair := { b.pair with digF := b.pair.digF ++ l } } else b

/-- This unit's own entries that wait for their journal time (R79). -/
def Block.journalOwn (b : Block) : Nat := (b.host.journal.filter (·.own)).length

/-- The writes of this unit's host among them: at most 256 (R79). -/
def Block.journalWrites (b : Block) : Nat :=
  (b.host.journal.filter (fun e => e.own && (match e.item with | .cmd _ => true | _ => false))).length

/-- KIND of a block's content (Table 17-3). -/
def RopeOut.kind : RopeOut → Nat
  | .journal _ _ => 1
  | .digest _ => 2
  | .transfer _ _ => 3
  | .control _ => 4
  | .idle => 5

/-- The header of a Rope block: bytes 0 to 15 of Table 17-3. -/
def ropeHeader (seq kind len : Nat) : List Byte :=
  bytes128 (BitVec.ofNat 48 seq ++ BitVec.ofNat 8 kind ++ (0 : Byte) ++ BitVec.ofNat 16 len ++ (0 : BitVec 48))

/-- The nonce of R499: the sender's UNIT, its session count and SEQ. -/
def ropeNonce (unit : Bool) (session seq : Nat) : BitVec 96 :=
  BitVec.ofBool unit ++ BitVec.ofNat 31 session ++ BitVec.ofNat 64 seq

/-- The key of the Rope as bytes. -/
def ropeKeyBytes (k : Nat) : List Byte := (List.range 32).map (fun i => BitVec.ofNat 8 (k / 2 ^ (248 - 8 * i)))

/-- The key that the Rope's cipher works with: its copy, and none while LOCKED is 1 (R554, R557, R565; DEDUCED, log entry 77). -/
def Block.ropeCipher (b : Block) : Option Nat := if b.flag SEC_STAT_LOCKED then none else b.sec.ropeKey

/-- The bytes of a block that leaves: header, payload under AES-256-GCM, tag (R498, R499). -/
def Block.ropeWire (b : Block) (m : RopeOut) : Option (List Byte) :=
  b.ropeCipher.map (fun k =>
    let key := ropeKeyBytes k
    let nonce := ropeNonce (b.flag PAIR_CFG_UNIT) b.pair.session b.pair.txSeq
    let cipher := gcmCrypt key nonce ((Config.ropeBytes m.kind b.pair.session b.pair.txSeq).take 512)
    let head := ropeHeader b.pair.txSeq m.kind cipher.length
    head ++ cipher ++ bytes128 (gcmTag key nonce head cipher))

/-- A block leaves on the Rope while it is linked (R498, R522). -/
def Block.sendRope (b : Block) (m : RopeOut) : Block :=
  if b.pair.linked then
    let b1 := (b.emit (.rope b.pair.txSeq m (b.ropeWire m))).countUp (PAIR_CNT 0) 1
    { b1 with pair := { b1.pair with txSeq := b1.pair.txSeq + 1, lastTx := b1.tm.phys } }
  else b

/-- A journal input of this unit: it waits for its journal time and is sent to the partner (R502). -/
def Block.journalItem (b : Block) (i : JItem) : Block :=
  let at_ := b.nowNs + b.get PAIR_DELAY_DELAY * 1000
  Block.fabCount (Block.sendRope { b with host := { b.host with journal := b.host.journal ++
      [⟨i, at_, true, b.flag PAIR_CFG_UNIT, 0⟩] } } (.journal i at_)) 15 1

/-- A journaled write of this unit's host (R74): in a synchronised pair it waits for its journal
time, input time plus PAIR_DELAY, and HOST_JSTAT counts it. Otherwise it acts at once (R78). -/
def journalWrite (cmd : Instr) (act : Block → Block) (b : Block) : Block :=
  if b.synced then
    (b.journalItem (.cmd cmd)).incSat HOST_JSTAT_PEND 1
  else act b

/-! ### The order of the host's requests (R67, R69, R73, R79) -/

/-- A command that stands for a posted write: every one that can wait but a read. -/
def posted : Instr → Bool
  | .registerWrite r => r.wr
  | .bar2Read _ _ _ => false
  | .perfCounterRead _ => false
  | .unsupportedSize _ => false
  | _ => true

/-- The posted-write queue is full: it holds 64 writes, or the journal queue holds 256 (R73, R79). -/
def Block.queueFull (b : Block) : Bool :=
  decide (64 ≤ (b.host.stalls.filter (fun x => posted x.cmd)).length) || decide (256 ≤ b.journalWrites)

/-- A request is answered as it arrives: no other waits, and a write finds room. -/
def Block.hostMay (b : Block) (i : Instr) : Bool :=
  b.host.stalls.isEmpty && b.host.backlog.isEmpty && !(posted i && b.queueFull)

/-- Every request is answered as it arrives. -/
def Block.hostFree (b : Block) : Bool := b.host.stalls.isEmpty && b.host.backlog.isEmpty && !b.queueFull

/-- A request enters the queue, for a domain whose wake starts with it where `wakes` says so (R69); without a credit it
waits outside (R73). -/
def Block.enqueueReq (b : Block) (i : Instr) (dom : Nat) (wakes : Bool) : Block :=
  if !b.host.backlog.isEmpty || (posted i && b.queueFull) then { b with host := { b.host with backlog := b.host.backlog ++ [i] } }
  else
    let b1 := b.fabTouch
    { b1 with host := { b1.host with
      stalls := b1.host.stalls ++ [⟨i, dom, b.tm.phys⟩]
      waking := if wakes then b1.host.waking ||| BitVec.ofNat 12 (2 ^ dom) else b1.host.waking } }

/-- A write of the host that a command names: it acts as it arrives, or waits behind the requests that stall (R67). -/
def byHost (cmd : Instr) (act : Block → Block) (b : Block) : Block :=
  if b.hostMay cmd then act b else b.enqueueReq cmd 3 false

/-- A write of the host to a journaled register that a command names. -/
def journaled (cmd : Instr) (act : Block → Block) : Block → Block := byHost cmd (journalWrite cmd act)

/-! ### Profiles (Table 1-7) -/

/-- Profile in force: 0 TIGHT, 1 BALANCED, 2 WIDE, 3 LEAN. -/
def Block.profile (b : Block) : Nat := b.get SYS_PROFILE_ACT

/-- Smallest PERIOD of a profile, in µs. -/
def minPeriod (p : Nat) : Nat := if p == 0 then 31 else if p == 1 then 62 else 125

/-- Reserved pool of a profile, in cells. -/
def reservedPool (p : Nat) : Nat := if p == 2 then 32768 else 16384

/-- Flowstone cells of a profile. -/
def profileCells (p : Nat) : Nat := if p == 3 then 4 else 8

/-- The period in force, in ns. -/
def Block.periodNs (b : Block) : Nat := b.get SYS_CYCLE_PERIN * 1000

end Sys2Proof.Machine
end

