-- ==== Sys2Proof/Machine/Cavern.lean ====
section
/-! DEFINITION. Cavern: words kept as bytes (R82, R83), check errors and their correction (R85,
R604), page strikes and the remap to spare pages (R50 kind 7). -/

namespace Sys2Proof.Machine

/-- Last addressable word of Cavern (R82). -/
def lastWord : Nat := 0x1FF7FFFF

/-- First word of the spare pages (R82). -/
def spareBase : Nat := 0x1FF80000

/-- Number of spare pages (R82). -/
def sparePages : Nat := 1024

/-- The byte of Cavern at key 16 × word + k; a byte that nothing has written is zero (R604). -/
def cavByte (m : List Host.Cell) (key : Nat) : Byte := sget (fun _ => 0) m key

/-- Write one byte of Cavern. -/
def cavPut (m : List Host.Cell) (key : Nat) (v : Byte) : List Host.Cell := sput (fun _ => 0) m key v

/-- Memory in its one canonical form: keys rising, no listed byte zero. -/
def Memory.wf (m : List Host.Cell) : Bool := swf (fun _ => (0 : Byte)) m

/-- The physical word behind a word: its page's spare page once remapped (R82, R604). -/
def Block.physWord (b : Block) (w : Nat) : Nat :=
  let sp := sget (fun _ => 0) b.cav.remap (w / 512)
  if sp = 0 then w else spareBase + 512 * (sp - 1) + w % 512

/-- Bytes of a word, least significant first: the first `n` from byte `k`. -/
def bytesOf (x : Nat) (k : Nat) : Nat → List Byte
  | 0 => []
  | n + 1 => BitVec.ofNat 8 (x / 2 ^ (8 * k)) :: bytesOf x (k + 1) n

/-- The number that bytes spell, least significant first. -/
def natOfBytes : List Byte → Nat
  | [] => 0
  | v :: r => v.toNat + 256 * natOfBytes r

/-- The number that bytes spell, most significant first. -/
def natOfBytesBE (l : List Byte) : Nat := l.foldl (fun n v => n * 256 + v.toNat) 0

/-- The low `n` bytes of a number, most significant first. -/
def bytesBE (x n : Nat) : List Byte := (bytesOf x 0 n).reverse

/-- The nine bytes of a physical word. -/
def cavBytes (m : List Host.Cell) (w : Nat) : List Byte :=
  (List.range 9).map (fun k => cavByte m (16 * w + k))

/-- The 72-bit word at a physical address. -/
def cavWord (m : List Host.Cell) (w : Nat) : Word := BitVec.ofNat 72 (natOfBytes (cavBytes m w))

/-- Store bytes from byte `k` of a physical word on; `none` leaves its byte. -/
def cavStore (m : List Host.Cell) (w : Nat) : Nat → List (Option Byte) → List Host.Cell
  | _, [] => m
  | k, none :: r => cavStore m w (k + 1) r
  | k, some v :: r => cavStore (cavPut m (16 * w + k) v) w (k + 1) r

/-- Replace a physical word whole. -/
def cavStoreWord (m : List Host.Cell) (w : Nat) (x : Word) : List Host.Cell :=
  cavStore m w 0 ((bytesOf x.toNat 0 9).map some)

/-- Copy `n` words of Cavern, from one physical place to another. -/
def cavCopy (m : List Host.Cell) (src dst : Nat) : Nat → List Host.Cell
  | 0 => m
  | n + 1 => cavCopy (cavStoreWord m dst (cavWord m src)) (src + 1) (dst + 1) n

/-- Upsets that struck stored words before an access: (word, two bits). A second upset of a word
makes its error uncorrectable. -/
def addUpset (c : CavSt) (w : Nat) (two : Bool) : CavSt :=
  if c.uncorr.contains w then c
  else if two || c.corr.contains w then
    { c with corr := c.corr.filter (· ≠ w), uncorr := c.uncorr ++ [w] }
  else { c with corr := c.corr ++ [w] }

/-- All upsets of a list, given by addressable word. -/
def Block.upsets (b : Block) : List (Nat × Bool) → Block
  | [] => b
  | (w, two) :: r => Block.upsets { b with cav := addUpset b.cav (b.physWord w) two } r

/-- The channel of the page that holds a word (R50 kind 7). -/
def pageChan (w : Nat) : Channel := { kind := 7, idx := w / 512 }

/-- A page is retired: it is queued for its copy in the maintenance slot, or ALARM is raised where no spare
page is left (R50 kind 7). -/
def Block.pageOut (b : Block) (page : Nat) : Block :=
  let b1 := b.retire ⟨7, page⟩
  if b1.cav.sparesUsed + b1.cav.copying.length < sparePages then
    { b1 with cav := { b1.cav with copying := b1.cav.copying ++ [page] } }
  else b1.raise evAlarm

/-- A detected check error on a page (R50 kind 7): a strike, and at the threshold the page's retirement. -/
def Block.pageStrike (b : Block) (w : Nat) : Block :=
  if b.retires (pageChan w) then (b.strike (pageChan w)).pageOut (w / 512) else b.strike (pageChan w)

/-- A read meets word `w`: a correctable error is corrected, written back and counted (R604); an
uncorrectable one is counted (R85). -/
def Block.cavTouch (b : Block) (w : Nat) : Block :=
  let p := b.physWord w
  if b.cav.corr.contains p then
    Block.pageStrike { b with cav := { b.cav with corr := b.cav.corr.filter (· ≠ p) } } w
  else if b.cav.uncorr.contains p then b.pageStrike w
  else b

/-- Word `w` holds an uncorrectable error. -/
def Block.cavBad (b : Block) (w : Nat) : Bool := b.cav.uncorr.contains (b.physWord w)

/-- Word `w` as it reads. -/
def Block.cavGet (b : Block) (w : Nat) : Word := cavWord b.cav.mem (b.physWord w)

/-- Replace word `w` with a fresh check code (R83). -/
def Block.cavSet (b : Block) (w : Nat) (x : Word) : Block :=
  let p := b.physWord w
  { b with cav := { b.cav with
      mem := cavStoreWord b.cav.mem p x
      corr := b.cav.corr.filter (· ≠ p)
      uncorr := b.cav.uncorr.filter (· ≠ p) } }

/-- Remap one page (R50 kind 7, R604): its words are copied to the next spare page as they read,
uncorrectable errors staying detectable, and SPARE_USED is raised. -/
def Block.remapPage (b : Block) (page : Nat) : Block :=
  let src := b.physWord (page * 512)
  let dst := spareBase + 512 * b.cav.sparesUsed
  let bad := b.cav.uncorr.filter (fun w => src ≤ w && w < src + 512)
  let moved := bad.map (fun w => w - src + dst)
  Block.raise { b with cav := { b.cav with
      mem := cavCopy b.cav.mem src dst 512
      corr := b.cav.corr.filter (fun w => !(src ≤ w && w < src + 512))
      uncorr := b.cav.uncorr.filter (fun w => !(src ≤ w && w < src + 512)) ++ moved
      remap := sput (fun _ => 0) b.cav.remap page (b.cav.sparesUsed + 1)
      sparesUsed := b.cav.sparesUsed + 1
      copying := b.cav.copying.filter (· ≠ page) } } evSpareUsed

/-- The page remapping of one maintenance slot: the first page waiting. -/
def Block.remapStep (b : Block) : Block :=
  match b.cav.copying with
  | [] => b
  | p :: _ => b.remapPage p

/-- Cavern after a start that loses it, or after BIST: every word zero, the remap kept (R604). -/
def CavSt.cleared (c : CavSt) : CavSt := { c with mem := [], corr := [], uncorr := [] }

/-! ### Host access through BAR2 (R83 to R85) -/

/-- First word of the BAR2 window (R83). -/
def Block.winBase (b : Block) : Nat := b.get HOST_WIN_BASE * 2 ^ 16

/-- The words that `len` bytes from BAR2 offset `off` touch, as window indices. -/
def touchedWords (off len : Nat) : List Nat :=
  if len = 0 then [] else (List.range ((off + len - 1) / 16 - off / 16 + 1)).map (· + off / 16)

/-- One word of a BAR2 read: an uncorrectable word raises HOST_ERR (R85). HOST_ERRADDR holds the offset of the request, also where
a later word of it fails (DESIGN CHOICE, log entry 73). -/
def Block.bar2Touch (b : Block) (off w : Nat) : Block :=
  if lastWord < w then b
  else
    let bad := b.cavBad w
    let b1 := b.cavTouch w
    if bad then b1.hostErr 6 off else b1

/-- The words of a BAR2 read, in order. -/
def Block.bar2Touches (b : Block) (off : Nat) : List Nat → Block
  | [] => b
  | w :: r => (b.bar2Touch off w).bar2Touches off r

/-- The byte at BAR2 offset `o` (R83, R84). -/
def Block.bar2Byte (b : Block) (o : Nat) : Byte :=
  let w := b.winBase + o / 16
  if lastWord < w || 9 ≤ o % 16 then 0 else cavByte b.cav.mem (16 * b.physWord w + o % 16)

/-- A BAR2 read of `len` bytes: the data and its poison leave, errors are raised (R83 to R85). Event 13 of Table 16-4 counts the
words at host priority. -/
def Block.bar2Read (b : Block) (off len : Nat) : Block :=
  let ws := (touchedWords off len).map (· + b.winBase)
  let poison := ws.any (fun w => w ≤ lastWord && b.cavBad w)
  let data := (List.range len).map (fun i => b.bar2Byte (off + i))
  let b1 := ((b.bar2Touches off ws).fabCount 13 (ws.filter (fun w => decide (w ≤ lastWord))).length).emit (.readData off data poison)
  if ws.any (fun w => lastWord < w) then b1.hostErr 5 off else b1

/-- The enabled bytes among bytes 0 to 8 of window word `i` in a write from `off`. -/
def bar2Enables (off : Nat) (bytes : List (Option Byte)) (i : Nat) : List (Option Byte) :=
  (List.range 9).map (fun k =>
    if off ≤ 16 * i + k then (bytes[16 * i + k - off]?).getD none else none)

/-- One word of a BAR2 write: a whole word is replaced; a partial one is read, corrected and
rewritten, or discarded where it reads uncorrectable (R83, R85, R604). -/
def Block.bar2WriteWord (b : Block) (off w : Nat) (en : List (Option Byte)) : Block :=
  if lastWord < w || en.all (·.isNone) then b
  else
    let p := b.physWord w
    if en.all (·.isSome) then
      { b with cav := { b.cav with
          mem := cavStore b.cav.mem p 0 en
          corr := b.cav.corr.filter (· ≠ p)
          uncorr := b.cav.uncorr.filter (· ≠ p) } }
    else if b.cav.uncorr.contains p then (b.cavTouch w).hostErr 6 off
    else
      let b1 := b.cavTouch w
      { b1 with cav := { b1.cav with mem := cavStore b1.cav.mem p 0 en } }

/-- The words of a BAR2 write, in order. -/
def Block.bar2Writes (b : Block) (off : Nat) (bytes : List (Option Byte)) : List Nat → Block
  | [] => b
  | i :: r => (b.bar2WriteWord off (b.winBase + i) (bar2Enables off bytes i)).bar2Writes off bytes r

/-- A BAR2 write (R83 to R85). -/
def Block.bar2Write (b : Block) (off : Nat) (bytes : List (Option Byte)) : Block :=
  let is := touchedWords off bytes.length
  let n := (is.filter (fun i => decide (b.winBase + i ≤ lastWord) && (bar2Enables off bytes i).any (·.isSome))).length
  let b1 := (b.bar2Writes off bytes is).fabCount 13 n
  if is.any (fun i => lastWord < b.winBase + i) then b1.hostErr 5 off else b1

end Sys2Proof.Machine
end

