-- ==== Sys2Proof/Machine/Axis.lean ====
section
/-! DEFINITION. The arithmetic of line axes: the tracking estimator in the fixed point of R122,
position queries, position-to-time and the error bound EB (R111 to R126, R605). Positions are
integers in 2^-56 line unit, velocities and accelerations in 2^-48, times in 2^-16 ns. -/

namespace Sys2Proof.Machine

/-- Units of 2^-16 ns in one second. -/
def secUnits : Int := 65536000000000

/-- Signed difference of two STW values, in 2^-16 ns. -/
def stwDiff (t s : Word) : Int := toSigned 72 (t - s).toNat

/-- A second-order motion about an instant `s0` (R113, R119). -/
structure Poly where
  p : Int
  v : Int
  a : Int
  s0 : Word
  deriving DecidableEq, Repr

/-- The motion of an axis in the tracking estimator. -/
def Axis.poly (x : Axis) : Poly := { p := x.p, v := x.v, a := x.a, s0 := x.s0 }

/-- The motion of a knot (R113). -/
def Knot.poly (k : Knot) : Poly :=
  { p := toSigned 72 k.p.toNat * 2 ^ 24, v := toSigned 72 k.v.toNat * 2 ^ 16,
    a := toSigned 72 k.a.toNat * 2 ^ 16, s0 := k.t }

/-- v·d, truncated to 2^-56 (R122). -/
def velTerm (v d : Int) : Int := v * 2 ^ 8 * d / secUnits

/-- a·d·d/2, truncated to 2^-56 (R122). -/
def accTerm (a d : Int) : Int := a * 2 ^ 8 * d * d / (2 * secUnits * secUnits)

/-- The position predicted `d` after `s0`, with the estimator's truncations (R119, R122). -/
def predictP (x : Axis) (d : Int) : Int := x.p + velTerm x.v d + accTerm x.a d

/-- The velocity predicted `d` after `s0`. -/
def predictV (x : Axis) (d : Int) : Int := x.v + x.a * d / secUnits

/-- α × 2^(3k) of gain set `k` (R120). -/
def alphaNum (k : Nat) : Int := 2 ^ (3 * k) - (2 ^ k - 1) ^ 3

/-- β × 2^(3k+1) of gain set `k` (R120). -/
def betaNum (k : Nat) : Int := 3 * (2 ^ (k + 1) - 1)

/-- The samples of ACQ for gain set `k` (Table 3-6). -/
def acqSamples (k : Nat) : Nat := 8 * 2 ^ k

/-- Apply a sample of position `z` (2^-56) with stamp `s` and gain set `k` (R119). The first
sample sets the state; a sample not later than s0 leaves it. R122 does not say what a step is: each of the two terms of a
prediction and each product with a gain is truncated once (DESIGN CHOICE, log entry 72). -/
def applySample (x : Axis) (z : Int) (s : Word) (k : Nat) : Axis :=
  if x.applied = 0 then { x with p := z, v := 0, a := 0, s0 := s, applied := 1 }
  else
    let d := stwDiff s x.s0
    if d ≤ 0 then x
    else
      let pp := predictP x d
      let vp := predictV x d
      let r := z - pp
      { x with
        p := pp + alphaNum k * r / 2 ^ (3 * k)
        v := vp + betaNum k * r * secUnits / (2 ^ (3 * k + 1) * d * 2 ^ 8)
        a := x.a + r * secUnits * secUnits / (2 ^ (3 * k) * d * d * 2 ^ 8)
        s0 := s, applied := x.applied + 1 }

/-- A sample counts: it is the first, or its stamp is later than s0 (R119). -/
def sampleCounts (x : Axis) (s : Word) : Bool :=
  x.applied == 0 || decide (0 < stwDiff s x.s0)

/-! ### Exact evaluation -/

/-- Twice secUnits squared times the position at `d`, an integer (R113, R124). -/
def Poly.num (q : Poly) (d : Int) : Int :=
  q.p * (2 * secUnits * secUnits) + q.v * 2 ^ 9 * secUnits * d + q.a * 2 ^ 8 * d * d

/-- The position at `d` in Q40.32, truncated (R9). -/
def Poly.at (q : Poly) (d : Int) : Int := q.num d / (2 * secUnits * secUnits * 2 ^ 24)

/-- The limit of a query or a P2T: 2^26 ns (R124, R125). -/
def spanLimit : Int := 2 ^ 42

/-- Reduction modulo MOD (R111): `m` whole line units, 0 for a linear axis; position in Q40.32. -/
def modPos (m : Nat) (p : Int) : Int := if m = 0 then p else p % ((m : Int) * 2 ^ 32)

/-- A Q40.32 position as a word. -/
def posWord (p : Int) : Word := BitVec.ofNat 72 (ofSigned 72 p)

/-- The motion in force at `t` on knots, and none before the first (R124). -/
def knotAt (ks : List Knot) (t : Word) : Option Poly :=
  ks.foldl (fun acc k => if before t k.t then acc else some k.poly) none

/-- The motion that gives the position at `t`: the estimator, or the knots on SRC 3 and 4. -/
def motionAt (src : Nat) (x : Axis) (t : Word) : Option Poly :=
  if src ≥ 3 then knotAt (x.past ++ x.knot.toList ++ x.queue) t else some x.poly

/-- s0 of R124: of the estimator, of the knot in force, of the first queued knot, or the present. R124 gives p, v and a of an
axis on SRC 1 or 2 before its first sample but no s0; it stays 0 (DESIGN CHOICE, log entry 72). -/
def axisS0 (src : Nat) (x : Axis) (now : Word) : Word :=
  if src ≥ 3 then
    match x.knot, x.queue with
    | some k, _ => k.t
    | none, k :: _ => k.t
    | none, [] => now
  else x.s0

/-- The knots of the past that a query can still reach: back to the one in force at the limit of R124. -/
def keptKnots (lim : Word) : List Knot → List Knot
  | k :: l :: r => if before lim l.t then k :: l :: r else keptKnots lim (l :: r)
  | r => r

/-- The statuses of Table 3-8 that stand in for OK: ACQ and COAST (R126). -/
def okStatus (state : Nat) : Nat := if state == 1 then 3 else if state == 3 then 4 else 0

/-- A position query (R124, R126): position in Q40.32 and status. -/
def posQuery (src state mod : Nat) (x : Axis) (now t : Word) : Int × Nat :=
  if state == 0 || state == 4 then (0, 5)
  else
    let s0 := axisS0 src x now
    let d := stwDiff t s0
    let dc := if spanLimit < d then spanLimit else if d < -spanLimit then -spanLimit else d
    let tc : Word := s0 + BitVec.ofNat 72 (ofSigned 72 dc)
    let p := match motionAt src x tc with
      | none => 0
      | some q => q.at (stwDiff tc q.s0)
    (modPos mod p, if d = dc then okStatus state else 6)

/-! ### Crossings -/

/-- Integer square root by bits: the largest r below 2^`k` with r² ≤ n. -/
def isqrtBits (n : Nat) : Nat → Nat → Nat
  | 0, r => r
  | k + 1, r => isqrtBits n k (if (r + 2 ^ k) * (r + 2 ^ k) ≤ n then r + 2 ^ k else r)

/-- Integer square root of numbers below 2^512. -/
def isqrt (n : Nat) : Nat := isqrtBits n 256 0

/-- The quadratic whose sign says whether the motion is at or beyond a level (2^-56) in a
direction (`up`): coefficients of d², d and 1. -/
def crossCoef (q : Poly) (level : Int) (up : Bool) : Int × Int × Int :=
  let s : Int := if up then 1 else -1
  (s * q.a * 2 ^ 8, s * q.v * 2 ^ 9 * secUnits, s * (q.p - level) * (2 * secUnits * secUnits))

/-- The value of a quadratic. -/
def quad (c : Int × Int × Int) (d : Int) : Int := c.1 * d * d + c.2.1 * d + c.2.2

/-- An instant is no later than the rising root of a quadratic that is negative before it. -/
def upTo (c : Int × Int × Int) (d : Int) : Bool :=
  decide (quad c d ≤ 0) && (decide (0 ≤ c.1) || decide (0 ≤ 2 * c.1 * d + c.2.1))

/-- The largest of h + 1, h, h − 1 that is no later than the rising root, else h − 2. -/
def settle (c : Int × Int × Int) (h : Int) : Int :=
  if upTo c (h + 1) then h + 1 else if upTo c h then h
  else if upTo c (h - 1) then h - 1 else h - 2

/-- The instant, truncated to 2^-16 ns, at which a quadratic that is negative at `d0` first
becomes non-negative after `d0` (R125). -/
def risingRoot (c : Int × Int × Int) (d0 : Int) : Option Int :=
  let disc := c.2.1 * c.2.1 - 4 * c.1 * c.2.2
  if c.1 = 0 then
    if 0 < c.2.1 then some (settle c (-c.2.2 / c.2.1)) else none
  else if disc < 0 then none
  else
    let h := settle c ((-c.2.1 + isqrt disc.toNat) / (2 * c.1))
    if c.1 < 0 && h < d0 then none else some (if h < d0 then d0 else h)

/-- The first instant in [d0, d1] of one motion at or beyond a level in a direction. -/
def crossIn (q : Poly) (level : Int) (up : Bool) (d0 d1 : Int) : Option Int :=
  let c := crossCoef q level up
  if 0 ≤ quad c d0 then some d0
  else match risingRoot c d0 with
    | none => none
    | some h => if h ≤ d1 then some h else none

/-- The motions of an axis from the present on, each with its start and end as offsets from the
present: the estimator's, or the knot in force and every queued knot (R125). -/
def motionsFrom (now : Word) (lim : Int) : Poly → Int → List Knot → List (Poly × Int × Int)
  | q, o, [] => [(q, o, lim)]
  | q, o, k :: ks =>
    let e := stwDiff k.t now
    if e ≤ o then motionsFrom now lim k.poly o ks
    else (q, o, if e < lim then e else lim) :: motionsFrom now lim k.poly e ks

/-- The resting motion before any knot is in force (R124). -/
def restPoly (now : Word) : Poly := { p := 0, v := 0, a := 0, s0 := now }

/-- The motions of an axis from the present to the limit of R125. -/
def axisMotions (src : Nat) (x : Axis) (now : Word) : List (Poly × Int × Int) :=
  let lim := spanLimit - stwDiff now (axisS0 src x now)
  if src ≥ 3 then
    match x.knot with
    | some k => motionsFrom now lim k.poly 0 x.queue
    | none => motionsFrom now lim (restPoly now) 0 x.queue
  else [(x.poly, 0, lim)]

/-- The earliest offset from the present at which some motion is at or beyond a level. -/
def firstCross (now : Word) (level : Int) (up : Bool) : List (Poly × Int × Int) → Option Int
  | [] => none
  | (q, o, e) :: r =>
    let sh := stwDiff now q.s0
    match (if o ≤ e then crossIn q level up (o + sh) (e + sh) else none) with
    | some d => some (d - sh)
    | none => firstCross now level up r

/-- The present motion of an axis. -/
def motionNow (src : Nat) (x : Axis) (now : Word) : Poly :=
  match motionAt src x now with | some q => q | none => restPoly now

/-- The position at the present, as a numerator over 2·secUnits². -/
def nowNum (src : Nat) (x : Axis) (now : Word) : Int :=
  let q := motionNow src x now
  q.num (stwDiff now q.s0)

/-- A level in 2^-56 as such a numerator. -/
def levelNum (level : Int) : Int := level * (2 * secUnits * secUnits)

/-- The level above (or below) the present position at P modulo MOD (R605), in 2^-56. -/
def levelFor (src mod : Nat) (x : Axis) (now : Word) (target : Int) (up : Bool) : Int :=
  if mod = 0 then target
  else
    let m : Int := (mod : Int) * 2 ^ 56
    let d := nowNum src x now - levelNum target
    if up then target + m * (d / levelNum m + 1)
    else target + m * (-((-d) / levelNum m) - 1)

/-- The crossing of one level in one direction: offset from the present. -/
def crossing (src : Nat) (x : Axis) (now : Word) (level : Int) (up : Bool) : Option Int :=
  firstCross now level up (axisMotions src x now)

/-- The earlier of two crossings. -/
def earlier : Option Int → Option Int → Option Int
  | some a, some b => some (if a ≤ b then a else b)
  | some a, none => some a
  | none, o => o

/-- A linear axis is already at or beyond P in FWD (0) or REV (1) (Table 3-8). -/
def alreadyPast (src : Nat) (x : Axis) (now : Word) (level : Int) (dir : Nat) : Bool :=
  let d := nowNum src x now - levelNum level
  (dir == 0 && decide (0 ≤ d)) || (dir == 1 && decide (d ≤ 0))

/-- The crossing that a P2T looks for (R125): direction 0 FWD, 1 REV, 2 ANY. -/
def p2tCross (src mod : Nat) (x : Axis) (now : Word) (target : Int) (dir : Nat) : Option Int :=
  if dir == 0 then crossing src x now (levelFor src mod x now target true) true
  else if dir == 1 then crossing src x now (levelFor src mod x now target false) false
  else if mod = 0 then
    crossing src x now target (decide (nowNum src x now ≤ levelNum target))
  else
    earlier (crossing src x now (levelFor src mod x now target true) true)
      (crossing src x now (levelFor src mod x now target false) false)

/-- A position-to-time request (R125, R126): result STW and status. `target` in 2^-56. -/
def p2t (src state mod : Nat) (x : Axis) (now : Word) (target : Int) (dir : Nat) : Word × Nat :=
  if state == 0 || state == 4 then (now, 5)
  else if mod = 0 && alreadyPast src x now target dir then (now, 1)
  else match p2tCross src mod x now target dir with
    | some d => (now + BitVec.ofNat 72 (ofSigned 72 d), okStatus state)
    | none => (axisS0 src x now + BitVec.ofNat 72 (ofSigned 72 spanLimit), 2)

/-- The level of a position wait, chosen once (R605), in 2^-56. -/
def waitLevel (src mod : Nat) (x : Axis) (now : Word) (target : Int) (dir : Nat) : Int :=
  if mod = 0 then target
  else
    let up := levelFor src mod x now target true
    let dn := levelFor src mod x now target false
    if dir == 0 then up else if dir == 1 then dn
    else match crossing src x now up true, crossing src x now dn false with
      | some a, some c => if a ≤ c then up else dn
      | some _, none => up
      | none, some _ => dn
      | none, none =>
        let n := nowNum src x now
        if levelNum up - n ≤ n - levelNum dn then up else dn

/-- A position is at or beyond the level of a wait in its direction (R127 b, R605): `pos`, the
level and the start position in 2^-56. -/
def beyondLevel (w : WaitSlot) (pos : Int) : Bool :=
  if w.dir == 0 then decide (w.level ≤ pos)
  else if w.dir == 1 then decide (pos ≤ w.level)
  else if w.start ≤ w.level then decide (w.level ≤ pos) else decide (pos ≤ w.level)

/-- The predicted crossing of a wait's level: offset from the present, none for NOCROSS. -/
def waitCross (src : Nat) (x : Axis) (now : Word) (w : WaitSlot) : Option Int :=
  let d := nowNum src x now - levelNum w.level
  if w.dir == 0 then if 0 ≤ d then some 0 else crossing src x now w.level true
  else if w.dir == 1 then if d ≤ 0 then some 0 else crossing src x now w.level false
  else crossing src x now w.level (decide (w.start ≤ w.level))

/-! ### The error bound (R120, R123) -/

/-- c0 of Table 3-6. -/
def c0Of (k : Nat) : ℚ := ((2 ^ k - 1 : ℚ)) ^ 3

/-- c2 of Table 3-6. -/
def c2Of (k : Nat) : ℚ := 3 * 2 ^ (k - 1) - 1

/-- c1 of Table 3-6. -/
def c1Of (k : Nat) : ℚ := 2 ^ (3 * k) - c0Of k - c2Of k - 1 / 6

/-- n0 of Table 3-6. -/
def n0Of (k : Nat) : ℚ := if k == 1 then 7 / 2 else if k == 2 then 12 / 5 else if k == 3 then 2 else 9 / 5

/-- n1 of Table 3-6. -/
def n1Of (k : Nat) : ℚ := if k == 1 then 13 / 5 else if k == 2 then 9 / 10 else if k == 3 then 2 / 5 else 1 / 5

/-- EB of R123 in picoseconds, rounded up and saturating at 0xFFFF_FFFE. Times in seconds; `v` is
the magnitude of the velocity and is not zero. -/
def ebPs (k : Nat) (jmax t l u v : ℚ) : Nat :=
  let h := t + l
  let epos := jmax * (c0Of k * t * t * t + c1Of k * t * t * h + c2Of k * t * h * h + h * h * h / 6)
    + v * u * (n0Of k + n1Of k * h / t)
  sat 0xFFFFFFFE ((epos / v + 5 / 10 ^ 9) * 10 ^ 12).ceil.toNat

end Sys2Proof.Machine
end

