-- ==== Sys2Proof/Machine/Lantern.lean ====
section
/-! DEFINITION. The Lantern's commands: capture, steps, slews and setting of the time scale, the
line axes with their encoders, knots and queries, and the AON trim (R101 to R131, R606). -/

namespace Sys2Proof.Machine

/-! ### The time scale (R103, R106, R107) -/

/-- A write of LAN_CAP.NOW (R103). -/
def Block.ltCapture (b : Block) : Block :=
  (((b.setReg LAN_CAPLT b.ltHighNow).setReg LAN_CAPLTL (ltLow b.tm.lt)).setReg LAN_CAPSTW b.stw).incMod LAN_CAP_SEQ 1

/-- LT_CAPTURE. -/
def execLtCapture (s : State) : Host.Outcome State Fault Refusal :=
  done s (journaled .ltCapture Block.ltCapture)

/-- A slew of the time scale begins, at the rate that LAN_SLEW.MAX has now (R106). -/
def Block.startSlew (b : Block) (rem : Int) (kind : SlewKind) : Block :=
  if rem = 0 then b
  else
    let b1 := { b with tm := { b.tm with slewRem := rem, slewRate := b.get LAN_SLEW_MAX, slewKind := kind } }
    (b1.putB LAN_ADJ_BUSY true).putB LAN_STAT_SLEW true

/-- Add to the time scale at once. -/
def Block.stepLt (b : Block) (d : Int) : Block :=
  { b with tm := { b.tm with lt := ((b.tm.lt : Int) + d).toNat } }

/-- A step from any source (R107): a slew while SYS_CYCLE.RUN is 1. `d` in 2^-40 ns. -/
def Block.scaleStep (b : Block) (d : Int) (kind : SlewKind) : Block :=
  if b.flag SYS_CYCLE_RUN then b.startSlew d kind
  else
    let b1 := b.stepLt d
    { b1 with tm := { b1.tm with jump := b1.tm.jump + d } }

/-- OFFSET of LAN_ADJ in 2^-40 ns. -/
def Block.adjOffset (b : Block) : Int := b.geti LAN_ADJ_OFFSET * 2 ^ 24

/-- A write of LAN_ADJ.ARM with MODE 0 (R106, R107). -/
def Block.timeStep (b : Block) : Block :=
  let b1 := b.put LAN_ADJ_MODE 0
  if b.flag LAN_ADJ_BUSY then b1.putB LAN_ADJ_REFUSED true
  else (b1.putB LAN_ADJ_REFUSED false).scaleStep b.adjOffset .host

/-- TIME_STEP. -/
def execTimeStep (s : State) : Host.Outcome State Fault Refusal :=
  done s (journaled .timeStep Block.timeStep)

/-- A write of LAN_ADJ.ARM with MODE 1 (R106, R107). -/
def Block.timeSlew (b : Block) : Block :=
  let b1 := b.put LAN_ADJ_MODE 1
  if b.flag LAN_ADJ_BUSY then b1.putB LAN_ADJ_REFUSED true
  else (b1.putB LAN_ADJ_REFUSED false).startSlew b.adjOffset .host

/-- TIME_SLEW. -/
def execTimeSlew (s : State) : Host.Outcome State Fault Refusal :=
  done s (journaled .timeSlew Block.timeSlew)

/-- A write of LAN_ADJ.ARM with MODE 2 (R106, R107): refused while cycles run, while a slew is in
progress and for an NS above 999,999,999. -/
def Block.timeSet (b : Block) : Block :=
  let b1 := b.put LAN_ADJ_MODE 2
  if b.flag SYS_CYCLE_RUN || b.flag LAN_ADJ_BUSY || decide (10 ^ 9 ≤ b.get LAN_SETLTL_NS) then
    b1.putB LAN_ADJ_REFUSED true
  else
    let b2 := b1.putB LAN_ADJ_REFUSED false
    let lt := ltOf (b.get LAN_SETLT_SEC) (b.get LAN_SETLTL_NS) (b.get LAN_SETLTL_FRAC)
    Block.requal { b2 with tm := { b2.tm with
      lt := lt, everSet := true, jump := b2.tm.jump + ((lt : Int) - b2.tm.lt) } }

/-- TIME_SET. -/
def execTimeSet (s : State) : Host.Outcome State Fault Refusal :=
  done s (journaled .timeSet Block.timeSet)

/-- The slew in progress uses up its offset: the clocks reach its end and BUSY clears (R106). -/
def Block.endSlew (b : Block) : Block :=
  let m := b.tm.slewRem.natAbs
  let b1 := b.advance (ceilDiv (m * 10 ^ 6) b.tm.slewRate)
  let b2 := b1.stepLt b1.tm.slewRem
  let b3 := { b2 with tm := { b2.tm with slewRem := 0, slewKind := .none } }
  (b3.putB LAN_ADJ_BUSY false).putB LAN_STAT_SLEW false

/-- SLEW_END: of a slew that is not a steering switch's (that one ends as STEERING_SWITCH_END). -/
def execSlewEnd (s : State) : Host.Outcome State Fault Refusal :=
  done s fun b =>
    match b.tm.slewKind with
    | .host => b.endSlew
    | .servo => b.endSlew
    | .none => b
    | .steer => b

/-! ### Axis state (R111, R112, R606) -/

/-- The state of axis `n` (Table 3-4). -/
def Block.axState (b : Block) (n : Nat) : Nat := b.get (LAN_AXSTAT_STATE n)

/-- Mark the position waits on axis `n` whose slot satisfies `p` as released with a status (R127). -/
def releaseWaits (n status : Nat) (p : WaitSlot → Bool) (e : Engine) : Engine :=
  match e.wait with
  | .line w none gs tf dl =>
    if w.axis == n && p w then { e with wait := .line w (some status) gs tf dl } else e
  | _ => e

/-- Mark waits on axis `n` in every engine. -/
def Block.markWaits (b : Block) (n status : Nat) (p : WaitSlot → Bool) : Block :=
  { b with eng := b.eng.map (releaseWaits n status p) }

/-- The axis enters a state: a change sets its AXCHG bit and raises LANTERN_QUAL (R105); entry to
FAULT or OFF ends its position waits (R127 c). -/
def Block.setAxState (b : Block) (n st : Nat) : Block :=
  if b.axState n == st then b
  else
    let b1 := ((b.put (LAN_AXSTAT_STATE n) st).setBit LAN_QCAUSE_AXCHG n).raise evLanternQual
    if st == 0 || st == 4 then b1.markWaits n 5 (fun _ => true) else b1

/-- Replace axis `n`. -/
def Block.setAxis (b : Block) (n : Fin 16) (x : Axis) : Block := { b with axes := b.axes.set n x }

/-- LAN_AXEB where R123 gives no bound: 5,000 on SRC 3 and 4, else 0xFFFF_FFFF. -/
def idleEb (src : Nat) : Nat := if src == 3 || src == 4 then 5000 else 0xFFFFFFFF

/-- Entry to OFF discards the axis's state (R606); LATE, OVF, FAULTS and ZCAP are kept. -/
def Block.axisOff (b : Block) (n : Fin 16) : Block :=
  let b1 := b.setAxis n { Axis.reset with
    faultsSeen := (b.axes[n]).faultsSeen, edgeSeen := (b.axes[n]).edgeSeen, idxSeen := (b.axes[n]).idxSeen
    p2t := (b.axes[n]).p2t }
  (((b1.put (LAN_AXSTAT_NSAMP n) 0).put (LAN_AXKCTL_FREE n) 4).put (LAN_AXEB_EB n) 0xFFFFFFFF).setAxState n 0

/-- From OFF to ACQUIRING: sampling starts at the present. R110 gives no phase for the grid of 2^TS µs: sample instants are
counted from here (DESIGN CHOICE, log entry 72). -/
def Block.axisAcquire (b : Block) (n : Fin 16) (src : Nat) : Block :=
  let x := b.axes[n]
  let enc := b.encs[b.get (LAN_AXCFG_ENC n) % 4]?.getD Enc.reset
  let b1 := b.setAxis n { x with lastInst := b.stw, faultsSeen := enc.faults, edgeSeen := enc.edgeNew, idxSeen := enc.idxNew }
  (b1.put (LAN_AXEB_EB n) (idleEb src)).setAxState n 1

/-- The fields of LAN_AXCFG beside SRC and RESTART, as a write stores them. -/
def Block.storeAxCfg (b : Block) (n : Nat) (d : Nat) : Block :=
  let b1 := b.put (LAN_AXCFG_ENC n) (d / 2 ^ 3)
  let b2 := if d / 2 ^ 5 % 16 ≤ 10 then b1.put (LAN_AXCFG_TS n) (d / 2 ^ 5) else b1
  let b3 := b2.put (LAN_AXCFG_GAIN n) (d / 2 ^ 9)
  let b4 := if 1 ≤ d / 2 ^ 11 % 16 then b3.put (LAN_AXCFG_COAST n) (d / 2 ^ 11) else b3
  let b5 := b4.put (LAN_AXCFG_DIR n) (d / 2 ^ 15)
  if d / 2 ^ 16 % 4 ≤ 2 then b5.put (LAN_AXCFG_ZREF n) (d / 2 ^ 16) else b5

/-- A write of LAN_AXCFG.SRC (R606): a reserved value or the value in force changes nothing. -/
def Block.axisSrc (b : Block) (n : Fin 16) (src : Nat) : Block :=
  if src > 4 || src == b.get (LAN_AXCFG_SRC n) then b
  else
    let b1 := (b.axisOff n).put (LAN_AXCFG_SRC n) src
    if src == 0 then b1 else b1.axisAcquire n src

/-- A write of LAN_AXCFG without RESTART. -/
def Block.axisSrcWrite (n : Fin 16) (data : Half) (b : Block) : Block :=
  let b1 := b.storeAxCfg n data.toNat
  let b2 := if b1.get (LAN_AXCFG_ENC n) = b.get (LAN_AXCFG_ENC n) then b1
    else b1.setAxis n { b1.axes[n] with ssiBusy := false }
  b2.axisSrc n (data.toNat % 8)

/-- AXIS_SRC_WRITE. -/
def execAxisSrcWrite (n : Fin 16) (data : Half) (s : State) : Host.Outcome State Fault Refusal :=
  done s (journaled (.axisSrcWrite n data) (Block.axisSrcWrite n data))

/-- The encoder of axis `n`. -/
def Block.encOf (b : Block) (n : Nat) : Enc := b.encs[b.get (LAN_AXCFG_ENC n) % 4]?.getD Enc.reset

/-- The source of axis `n` shows a line fault (R112, R576): an encoder whose LINE reads 0, to which isolation clamps it while
PD11 is off (Table 18-6). -/
def Block.lineFault (b : Block) (n : Nat) : Bool :=
  b.get (LAN_AXCFG_SRC n) == 1 && !(b.domOn 11 && b.flag (ENC_STAT_LINE (b.get (LAN_AXCFG_ENC n))))

/-- A write of LAN_AXCFG.RESTART (R111, Table 3-4): the base goes to 0 and the estimator shifts
with it, ZREF 1 is armed again, and a faultless FAULT becomes ACQUIRING. -/
def Block.axisRestart (n : Fin 16) (data : Half) (b : Block) : Block :=
  let b1 := Block.axisSrcWrite n data b
  let x := b1.axes[n]
  let b2 := b1.setAxis n { x with p := x.p - x.base * 2 ^ 24, base := 0, zArmed := true }
  if b2.axState n == 4 && !b2.lineFault n then
    let b3 := b2.setAxis n { b2.axes[n] with applied := 0, faultRun := 0, lastInst := b2.stw,
                                             faultsSeen := (b2.encOf n).faults }
    (b3.put (LAN_AXSTAT_NSAMP n) 0).setAxState n 1
  else b2

/-- AXIS_RESTART. -/
def execAxisRestart (n : Fin 16) (data : Half) (s : State) : Host.Outcome State Fault Refusal :=
  done s (journaled (.axisRestart n data) (Block.axisRestart n data))

/-! ### Samples (R112, R115, R119, R121, R123) -/

/-- SCALE of axis `n`, signed Q40.32. -/
def Block.axScale (b : Block) (n : Nat) : Int := b.geti (LAN_AXSCALE_SCALE n)

/-- The sample position of a raw value in 2^-32: SCALE × raw + base, raw negated by DIR (R111). -/
def Block.samplePos (b : Block) (n : Fin 16) (raw : Int) : Int :=
  b.axScale n * (if b.flag (LAN_AXCFG_DIR n) then -raw else raw) + (b.axes[n]).base

/-- The gain set in force: set 1 for the first 8 samples, then GAIN + 1 (R119). -/
def Block.gainSet (b : Block) (n : Fin 16) : Nat :=
  if (b.axes[n]).applied < 8 then 1 else b.get (LAN_AXCFG_GAIN n) + 1

/-- The sample interval T in seconds (R123). -/
def Block.axT (b : Block) (n : Nat) : ℚ :=
  if b.get (LAN_AXCFG_SRC n) == 2 then (b.mainsGap : ℚ) / 10 ^ 9
  else (2 ^ b.get (LAN_AXCFG_TS n) : ℚ) / 10 ^ 6

/-- The SSI frame's length in clock periods (R116). -/
def Block.ssiPeriods (b : Block) (e : Nat) : Nat :=
  1 + b.get (ENC_SSI_BITS e) + b.get (ENC_SSI_PAR e) + b.get (ENC_SSI_ERRB e)

/-- The SSI clock in Hz (Table 3-5). -/
def Block.ssiHz (b : Block) (e : Nat) : Nat := 250000 * 2 ^ b.get (ENC_SSI_CLK e)

/-- LAN_AXEB after an update (R123, Table 3-7). At v = 0 the spec states no value where JMAX is 0
too (a free value); otherwise the bound saturates. -/
def Block.updateEb (b : Block) (n : Fin 16) : Block :=
  let src := b.get (LAN_AXCFG_SRC n)
  if src ≥ 3 || src == 0 || b.axState n != 2 then b.put (LAN_AXEB_EB n) (idleEb src)
  else
    let v : ℚ := ((b.axes[n]).v.natAbs : ℚ) / 2 ^ 48
    let sc : ℚ := ((b.axScale n).natAbs : ℚ) / 2 ^ 32
    let e := b.get (LAN_AXCFG_ENC n)
    let ssi := src == 1 && b.get (ENC_CFG_MODE e) == 3
    let pd : ℚ := if b.synced then (b.get PAIR_DELAY_DELAY : ℚ) / 10 ^ 6 else 0
    if v = 0 then
      if b.get (LAN_AXJMAX_JMAX n) = 0 then
        (b.put (LAN_AXEB_EB n) (b.freeNext 0xFFFFFFFE)).freeStep
      else b.put (LAN_AXEB_EB n) 0xFFFFFFFE
    else
      let l : ℚ := if src == 2 then 2 / 10 ^ 6
        else if ssi then (b.ssiPeriods e : ℚ) / b.ssiHz e + 2 / 10 ^ 7
        else 2 / 10 ^ 7 + sc / v
      let u : ℚ := if src == 2 then 2 / 10 ^ 7 else if ssi then 5 / 10 ^ 9 + sc / v else 5 / 10 ^ 9
      b.put (LAN_AXEB_EB n) (ebPs (b.get (LAN_AXCFG_GAIN n) + 1) (b.get (LAN_AXJMAX_JMAX n)) (b.axT n) (l + pd) u v)

/-- A faulty interval (R112, Table 3-4): counted; ACQUIRING restarts its count, TRACKING coasts,
and COAST in a row make FAULT. The restart also starts the estimator again: the next sample is a first one of R119 (DESIGN
CHOICE, log entry 72). -/
def Block.faultyInterval (b : Block) (n : Fin 16) : Block :=
  let x := b.axes[n]
  let st := b.axState n
  let b1 := b.incSat (LAN_AXSTAT_FAULTS n) 1
  let run := x.faultRun + 1
  let b2 := if st == 1 then
      (b1.setAxis n { x with faultRun := run, applied := 0 }).put (LAN_AXSTAT_NSAMP n) 0
    else b1.setAxis n { x with faultRun := run }
  let b3 := if st == 2 then b2.setAxState n 3 else b2
  let b4 := if b.get (LAN_AXCFG_COAST n) ≤ run then b3.setAxState n 4 else b3
  b4.updateEb n

/-- After a sample has been applied: NSAMP counts, and ACQUIRING or COASTING becomes TRACKING. -/
def Block.afterSample (b : Block) (n : Fin 16) : Block :=
  let x := b.axes[n]
  let b1 := (b.setAxis n { x with faultRun := 0 }).incSat (LAN_AXSTAT_NSAMP n) 1
  let st := b.axState n
  let b2 :=
    if st == 3 || (st == 1 && decide (acqSamples (b.get (LAN_AXCFG_GAIN n) + 1) ≤ x.applied))
    then b1.setAxState n 2 else b1
  b2.updateEb n

/-- Recompute one engine's position wait: a crossing that lies in the past releases it (R127).
On an ACQUIRING axis only a sample or a fault does. -/
def Block.recomputeOne (b : Block) (e : Engine) : Engine :=
  match e.wait with
  | .line w none gs tf dl =>
    let src := b.get (LAN_AXCFG_SRC w.axis)
    let x := b.axes[w.axis % 16]?.getD Axis.reset
    if b.axState w.axis == 1 then e
    else match waitCross src x b.stw w with
      | some d => if d ≤ 0 then { e with wait := .line w (some 0) gs tf dl } else e
      | none => e
  | _ => e

/-- An engine waits for a position of axis `n`. -/
def Engine.waitsOn (e : Engine) (n : Nat) : Bool := match e.wait with | .line w none _ _ _ => w.axis == n | _ => false

/-- The waits on axis `n` are recomputed after an update of its estimator (R127). -/
def Block.recompute (b : Block) (n : Nat) : Block :=
  { b with eng := b.eng.map (fun e => if e.waitsOn n then b.recomputeOne e else e) }

/-- Apply a sample of raw value `raw` with stamp `s` to axis `n`, release the waits whose level it has reached, and
recompute the others (R119, R127). A sample that is not later than s0 changes nothing. -/
def Block.applyRaw (b : Block) (n : Fin 16) (raw : Int) (s : Word) : Block :=
  let z := b.samplePos n raw * 2 ^ 24
  if sampleCounts (b.axes[n]) s then
    (((b.setAxis n (applySample (b.axes[n]) z s (b.gainSet n))).afterSample n).markWaits n 0
      (fun w => beyondLevel w z)).recompute n
  else b

/-- Act on the latest index of a faultless interval (R115): store ZCAP and re-base where ZREF asks. The position at the index
that ZPOS replaces is the unwrapped estimate, also on a modulo axis (DESIGN CHOICE, log entry 72). -/
def Block.indexRebase (b : Block) (n : Fin 16) (stamp : Word) : Block :=
  let x := b.axes[n]
  let pos := predictP x (stwDiff stamp x.s0)
  let b1 := b.setReg (LAN_AXZCAP n) (posWord (modPos (b.get (LAN_AXMOD_MOD n)) (pos / 2 ^ 24)))
  let zr := b.get (LAN_AXCFG_ZREF n)
  if zr == 2 || (zr == 1 && x.zArmed) then
    let d := toSigned 72 (b.reg (LAN_AXZREF n)).toNat - pos / 2 ^ 24
    b1.setAxis n { x with base := x.base + d, p := x.p + d * 2 ^ 24, zArmed := false }
  else b1

/-- The edge-less sample of R121: when the position predicted for the end of the interval lies more
than one count beyond the last edge in the predicted direction, the count after the last edge is
applied at the end of the interval. `last` is the count of the last edge, also of one in a discarded interval. -/
def Block.edgeless (b : Block) (n : Fin 16) (inst : Word) (last : Int) : Block :=
  let x := b.axes[n]
  if x.applied = 0 then b
  else
    let d := stwDiff inst x.s0
    let vp := predictV x d
    let pp := predictP x d
    let sc := b.axScale n * (if b.flag (LAN_AXCFG_DIR n) then -1 else 1)
    let step : Int := if (0 ≤ vp) = (0 ≤ sc) then 1 else -1
    let z := b.samplePos n (last + step) * 2 ^ 24
    if (if 0 ≤ vp then z < pp else pp < z) then b.applyRaw n (last + step) inst else b

/-- Apply what an axis received at a sample instant, in the order of R115. -/
def Block.applyInput (b : Block) (n : Fin 16) (x : SampleIn) : Block :=
  if b.axState n == 0 || b.axState n == 4 then b
  else if x.faulty then b.faultyInterval n
  else
    let b0 := b.setAxis n { b.axes[n] with faultRun := 0 }
    let b1 := match x.idx with
      | some st => (b0.indexRebase n st).recompute n
      | none => b0
    match x.sample, x.last with
    | some (st, raw), _ => (b1.setAxis n { b1.axes[n] with raw := raw }).applyRaw n raw st
    | none, some c => b1.edgeless n x.inst c
    | none, none => b1

/-- A sample reaches the estimator at once, or in a synchronised pair at its input time plus
PAIR_DELAY (R122). -/
def Block.sampleIn (b : Block) (n : Fin 16) (x : SampleIn) : Block :=
  if b.synced then b.journalItem (.sample n x) else b.applyInput n x

/-- The sample of an incremental encoder at a sample instant (R114). -/
def Block.incrSample (b : Block) (n : Fin 16) : SampleIn :=
  let x := b.axes[n]
  let e := b.encOf n
  { inst := b.stw
    faulty := b.lineFault n || e.faults != x.faultsSeen
    sample := if e.edgeNew != x.edgeSeen then some (e.edge, e.count) else none
    idx := if e.idxNew != x.idxSeen then some e.idx else none
    last := some e.count }

/-- AXIS_SAMPLE: the interval of 2^TS µs ends (R110). An incremental encoder gives its latest edge;
an SSI encoder starts its next frame unless one is in progress (R116): an axis whose sample instant is that of the frame's
start shares it. A line fault makes its interval faulty. The axis must run on SRC 1. -/
def execAxisSample (n : Fin 16) (s : State) : Host.Outcome State Fault Refusal :=
  done s fun b0 =>
    if b0.get (LAN_AXCFG_SRC n) != 1 then b0
    else
      let b := b0.reachStw ((b0.axes[n]).lastInst + BitVec.ofNat 72 (1000 * 2 ^ b0.get (LAN_AXCFG_TS n) * 2 ^ 16))
      let e := b.encOf n
      let b1 := b.setAxis n { b.axes[n] with
        lastInst := b.stw, faultsSeen := e.faults, edgeSeen := e.edgeNew, idxSeen := e.idxNew }
      if b.get (ENC_CFG_MODE (b.get (LAN_AXCFG_ENC n))) == 3 then
        if b.lineFault n || e.faults != (b.axes[n]).faultsSeen then b1.sampleIn n ⟨b.stw, true, none, none, none⟩
        else
          match e.ssiAt with
          | some t => if t = b.tm.phys then b1.setAxis n { b1.axes[n] with ssiBusy := true } else b1
          | none =>
            let dly := b.get (ENC_SDLY_DLY (b.get (LAN_AXCFG_ENC n)))
            { (b1.setAxis n { b1.axes[n] with ssiBusy := true }) with
              encs := vmod b1.encs (b.get (LAN_AXCFG_ENC n)) (fun y =>
                { y with ssiAt := some b.tm.phys, ssiStamp := b.clockStamp 5 - BitVec.ofNat 72 (dly * 2 ^ 16) }) }
      else b1.sampleIn n (b.incrSample n)

/-- Gray code to binary, over the low `k` bits (R116). -/
def grayDecode (v : Nat) : Nat → Nat
  | 0 => 0
  | k + 1 => grayDecode v k + (if popcount (v / 2 ^ k) 40 % 2 = 1 then 2 ^ k else 0)

/-- The difference of least magnitude modulo 2^bits (R116). -/
def leastDiff (bits : Nat) (new old : Nat) : Int := toSigned bits ((new + 2 ^ bits - old % 2 ^ bits) % 2 ^ bits)

/-- The SSI axis and the reference of an ENCDLY job on encoder `e` are as R467 requires. The line unit is the user's own: no
register holds it. -/
def Block.dlyReady (b : Block) (e : Nat) : Bool :=
  let s := b.get CAL_ENCREF_AXS
  let r := b.get CAL_ENCREF_AXR
  let m := b.get (ENC_CFG_MODE (b.get (LAN_AXCFG_ENC r)))
  b.get (LAN_AXCFG_SRC s) == 1 && b.get (LAN_AXCFG_ENC s) == e && b.get (ENC_CFG_MODE e) == 3 && b.get (LAN_AXCFG_SRC r) == 1 &&
    (m == 1 || m == 2) && b.axState s == 2 && b.axState r == 2

/-- Reduction modulo a modulus to the value of least magnitude; 0 leaves it as it is. -/
def leastMod (m x : Int) : Int := if m = 0 then x else (x + m / 2) % m - m / 2

/-- The value d of one SSI sample of an ENCDLY job (R467), in 2^-16 ns: `ps` is the AXS position and `t` its stamp, with DLY taken
as 0; none where |v| lies below VMIN. On a modular axis it is reduced to the value of least magnitude, and d is cut to 2^-16 ns
(DESIGN CHOICE, log entry 77). -/
def Block.dlyValue (b : Block) (ps : Int) (t : Word) : Option Int :=
  let r := Fin.ofNat 16 (b.get CAL_ENCREF_AXR)
  let x := b.axes[r]
  let mod := b.get (LAN_AXMOD_MOD r)
  let pr := (posQuery (b.get (LAN_AXCFG_SRC r)) (b.axState r) mod x b.stw t).1
  let v := predictV x (stwDiff t x.s0)
  if v.natAbs < b.get CAL_ENCREF_VMIN * 2 ^ 48 ∨ v = 0 then none
  else some (leastMod (mod * 2 ^ 32) (pr - modPos mod ps) * 2 ^ 16 * secUnits / v)

/-- A sample of axis `m` counts for a running ENCDLY job on encoder `e`, up to the 4,096th (R467). -/
def Block.dlyTake (b : Block) (e : Nat) (m : Fin 16) (raw : Int) (stamp : Word) : Block :=
  if b.cal.run ≠ some ⟨2, e⟩ ∨ b.get CAL_ENCREF_AXS ≠ m.val ∨ b.dlyReady e = false ∨ 4096 ≤ b.cal.dlyN then b
  else
    match b.dlyValue (b.samplePos m raw) (stamp + BitVec.ofNat 72 (b.get (ENC_SDLY_DLY e) * 2 ^ 16)) with
    | none => b
    | some d => { b with
        cal := { b.cal with dlyN := b.cal.dlyN + 1, dlySum := b.cal.dlySum + d, dlySq := b.cal.dlySq + (d * d).toNat } }

/-- The value of a frame of encoder `e`, or none where it failed, reaches axis `m` if it awaits that frame: unwrapped, with
the stamp of its latch (R116). -/
def Block.ssiTake (b : Block) (e : Nat) (v : Option Nat) (stamp : Word) (m : Fin 16) : Block :=
  let x := b.axes[m]
  if !x.ssiBusy || b.get (LAN_AXCFG_ENC m) != e then b
  else
    match v with
    | none => (b.setAxis m { x with ssiBusy := false }).sampleIn m ⟨b.stw, true, none, none, none⟩
    | some v =>
      let un : Int := match x.ssiPrev with
        | none => v
        | some p => x.raw + leastDiff (b.get (ENC_SSI_BITS e)) v p
      ((b.setAxis m { x with ssiBusy := false, ssiPrev := some v, raw := un }).sampleIn m
        ⟨b.stw, false, some (stamp, un), none, none⟩).dlyTake e m un stamp

/-- SSI_FRAME_DONE: the frame that axis `n` awaits ends, with the monoflop time after it. It is decoded and checked (R116),
and every axis on its encoder that awaits it takes it. -/
def execSsiFrameDone (n : Fin 16) (bits : BitVec 40) (par err high : Bool) (s : State) :
    Host.Outcome State Fault Refusal :=
  done s fun b =>
    let x := b.axes[n]
    if !x.ssiBusy then b
    else
      let e := b.get (LAN_AXCFG_ENC n)
      let w := b.get (ENC_SSI_BITS e)
      let raw := bits.toNat % 2 ^ w
      let parBad := b.flag (ENC_SSI_PAR e) && (popcount raw 40 + b2n par) % 2 == 1
      let bad := parBad || (b.flag (ENC_SSI_ERRB e) && err) || !high
      let enc := b.encOf n
      let b1 := b.reachPhys (enc.ssiAt.getD b.tm.phys + b.ssiPeriods e * (10 ^ 9 * nsUnit / b.ssiHz e) +
        b.get (ENC_SSI_MONO e) * 1000 * nsUnit)
      let b2 := { b1 with encs := vmod b1.encs e (fun y => { y with ssiAt := none }) }
      let b3 := if bad then b2.incSat (ENC_STAT_SSIERR e) 1 else b2
      let v := if bad then none else some (if b.flag (ENC_SSI_GRAY e) then grayDecode raw w else raw)
      (List.finRange 16).foldl (fun c m => c.ssiTake e v enc.ssiStamp m) b3

/-- One axis at a mains zero crossing (R117), with the stamp of the PSU clock: one raw unit more; an interval outside 15.87 ms to
21.28 ms is faulty (R112). -/
def Block.mainsSample (b : Block) (faulty : Bool) (n : Fin 16) : Block :=
  if b.get (LAN_AXCFG_SRC n) != 2 then b
  else
    let x := b.axes[n]
    (b.setAxis n { x with raw := x.raw + 1 }).sampleIn n
      ⟨b.stw, faulty, if faulty then none else some (b.clockStamp 20, x.raw + 1), none, none⟩

/-- MAINS_ZERO_CROSSING: every axis on SRC 2 takes its sample. -/
def execMainsZeroCrossing (dt : Nat) (s : State) : Host.Outcome State Fault Refusal :=
  done s fun b0 =>
    let b := b0.advanceNs dt
    let gap := b.physNs - b.mainsLast
    let faulty := decide (b.mainsLast ≠ 0) && (decide (gap < 15870000) || decide (21280000 < gap))
    let b1 := { b with
      mainsLast := b.physNs, mainsGap := if b.mainsLast = 0 || faulty then b.mainsGap else gap }
    (List.finRange 16).foldl (fun c n => c.mainsSample faulty n) b1

/-! ### Encoders (R114, R115, R118) -/

/-- The quadrature step from one pair of levels to another, one of them changed: A leading B counts
up (log entry 12). -/
def quadStep (a b a2 b2 : Bool) : Int :=
  if a != a2 then (if a2 != b then 1 else -1) else if b != b2 then (if b2 == a then 1 else -1) else 0

/-- ENCODER_EDGE: A and B reach new levels, held for GLITCH × 5 ns (R114). Both at once is an
illegal transition. -/
def execEncoderEdge (e : Fin 4) (a b : Bool) (dt : Nat) (s : State) : Host.Outcome State Fault Refusal :=
  done s fun b0 =>
    let bl := b0.advanceNs dt
    let x := bl.encs[e]
    let mode := bl.get (ENC_CFG_MODE e)
    if mode == 0 || mode == 3 then { bl with encs := bl.encs.set e { x with a := a, b := b } }
    else if x.a != a && x.b != b then
      Block.incSat { bl with encs := bl.encs.set e { x with a := a, b := b, faults := x.faults + 1 } }
        (ENC_STAT_ILLEGAL e) 1
    else if x.a == a && x.b == b then bl
    else
      { bl with encs := bl.encs.set e { x with
          a := a, b := b, count := x.count + quadStep x.a x.b a b, edgeNew := x.edgeNew + 1
          edge := bl.clockStamp 5 - BitVec.ofNat 72 (bl.get (ENC_CFG_GLITCH e) * 5 * 2 ^ 16) } }

/-- INDEX_PULSE: an accepted rising edge of Z is stamped (R115). MODE must be 2. -/
def execIndexPulse (e : Fin 4) (dt : Nat) (s : State) : Host.Outcome State Fault Refusal :=
  done s fun b0 =>
    let bl := b0.advanceNs dt
    let x := bl.encs[e]
    if bl.get (ENC_CFG_MODE e) == 2 then
      { bl with encs := bl.encs.set e { x with
          idxNew := x.idxNew + 1
          idx := bl.clockStamp 5 - BitVec.ofNat 72 (bl.get (ENC_CFG_GLITCH e) * 5 * 2 ^ 16) } }
    else bl

/-- A write of ENCn_STAT.CLR. -/
def Block.encClr (e : Nat) (b : Block) : Block := (b.put (ENC_STAT_ILLEGAL e) 0).put (ENC_STAT_SSIERR e) 0

/-- ENC_STAT_CLR. -/
def execEncStatClr (e : Fin 4) (s : State) : Host.Outcome State Fault Refusal :=
  done s (journaled (.encStatClr e) (Block.encClr e))

/-- AXIS_FAULTS_CLR: clears FAULTS. -/
def execAxisFaultsClr (n : Fin 16) (s : State) : Host.Outcome State Fault Refusal :=
  done s (journaled (.axisFaultsClr n) (fun b => b.put (LAN_AXSTAT_FAULTS n) 0))

/-! ### Knots (R113) -/

/-- A knot comes into force on axis `n`; those before it stay within reach of queries. The first makes ACQUIRING TRACKING. -/
def Block.knotForce (b : Block) (n : Fin 16) (k : Knot) : Block :=
  let x := b.axes[n]
  let b1 := b.setAxis n { x with
    knot := some k, past := keptKnots (k.t - BitVec.ofNat 72 (2 ^ 42)) (x.past ++ x.knot.toList) }
  let b2 := if b1.axState n == 1 then b1.setAxState n 2 else b1
  b2.put (LAN_AXEB_EB n) 5000

/-- A write of LAN_AXKCTL.ARM on an axis on SRC 3 or 4 (R113). On SRC 3 the acceleration of a knot is 0. -/
def Block.knotArm (n : Fin 16) (b : Block) : Block :=
  let src := b.get (LAN_AXCFG_SRC n)
  let x := b.axes[n]
  let k : Knot := { p := b.reg (LAN_AXKP n), v := b.reg (LAN_AXKV n), a := if src = 3 then 0 else b.reg (LAN_AXKA n), t := b.reg (LAN_AXKT n) }
  let stale := match x.lastKT with | none => false | some t => !before t k.t
  if src < 3 then b
  else if 4 ≤ x.queue.length || stale then b.putB (LAN_AXKCTL_OVF n) true
  else if before k.t b.stw then
    ((b.setAxis n { x with lastKT := some k.t }).knotForce n k).putB (LAN_AXKCTL_LATE n) true
  else
    (b.setAxis n { x with lastKT := some k.t, queue := x.queue ++ [k] }).put (LAN_AXKCTL_FREE n) (3 - x.queue.length)

/-- KNOT_ARM. -/
def execKnotArm (n : Fin 16) (s : State) : Host.Outcome State Fault Refusal :=
  done s (journaled (.knotArm n) (Block.knotArm n))

/-- KNOT_EFFECT: the clocks reach KT of the first queued knot and it comes into force (R113). -/
def execKnotEffect (n : Fin 16) (s : State) : Host.Outcome State Fault Refusal :=
  done s fun b =>
    match (b.axes[n]).queue with
    | [] => b
    | k :: r =>
      let b1 := b.reachStw k.t
      ((b1.setAxis n { b1.axes[n] with queue := r }).put (LAN_AXKCTL_FREE n) (4 - r.length)).knotForce n k

/-! ### Captures and queries (R124, R125, R128, R129) -/

/-- The position query of axis `n` at `t` (R124): Q40.32 position and status. -/
def Block.query (b : Block) (n : Fin 16) (t : Word) : Int × Nat :=
  posQuery (b.get (LAN_AXCFG_SRC n)) (b.axState n) (b.get (LAN_AXMOD_MOD n)) (b.axes[n]) b.stw t

/-- The P2T of axis `n` (R125): target in Q40.32. -/
def Block.p2tOf (b : Block) (n : Fin 16) (target : Word) (dir : Nat) : Word × Nat :=
  p2t (b.get (LAN_AXCFG_SRC n)) (b.axState n) (b.get (LAN_AXMOD_MOD n)) (b.axes[n]) b.stw
    (toSigned 72 target.toNat * 2 ^ 24) dir

/-- A write of LAN_AXCAP.NOW (R129): s0, p, v and a of the latest state. -/
def Block.axisCapture (n : Fin 16) (b : Block) : Block :=
  let x := b.axes[n]
  let src := b.get (LAN_AXCFG_SRC n)
  let q := if src ≥ 3 then (match x.knot with | some k => k.poly | none => restPoly (axisS0 src x b.stw)) else x.poly
  let mod := b.get (LAN_AXMOD_MOD n)
  ((((b.setReg (LAN_AXCAPT n) (axisS0 src x b.stw)).setReg (LAN_AXCAPP n) (posWord (modPos mod (q.p / 2 ^ 24)))).setReg
    (LAN_AXCAPV n) (posWord (q.v / 2 ^ 16))).setReg (LAN_AXCAPA n) (posWord (q.a / 2 ^ 16))).incMod (LAN_AXCAP_SEQ n) 1

/-- AXIS_CAPTURE. -/
def execAxisCapture (n : Fin 16) (s : State) : Host.Outcome State Fault Refusal :=
  done s (journaled (.axisCapture n) (Block.axisCapture n))

/-- A write of LAN_AXQCTL.GO (R128): DIR is stored unless reserved, DONE clears, and an earlier
request is abandoned. -/
def Block.hostP2tGo (n : Fin 16) (data : Half) (b : Block) : Block :=
  let d := data.toNat / 2 % 4
  let b1 := if d ≤ 2 then b.put (LAN_AXQCTL_DIR n) d else b
  (b1.putB (LAN_AXQCTL_DONE n) false).setAxis n { b.axes[n] with p2t := true }

/-- HOST_P2T_GO. -/
def execHostP2tGo (n : Fin 16) (data : Half) (s : State) : Host.Outcome State Fault Refusal :=
  done s (journaled (.hostP2tGo n data) (Block.hostP2tGo n data))

/-- HOST_P2T_DONE: the request completes with its result and status (R128). -/
def execHostP2tDone (n : Fin 16) (s : State) : Host.Outcome State Fault Refusal :=
  done s fun b =>
    if (b.axes[n]).p2t then
      let r := b.p2tOf n (b.reg (LAN_AXQPOS n)) (b.get (LAN_AXQCTL_DIR n))
      (((b.setAxis n { b.axes[n] with p2t := false }).setReg (LAN_AXQRES n) r.1).put
        (LAN_AXQCTL_STATUS n) r.2).putB (LAN_AXQCTL_DONE n) true
    else b

/-- WAIT_RECOMPUTE: at the next microsecond of wall time the crossing of every position wait is
recomputed, and one that lies in the past releases its engine (R127, R128). -/
def execWaitRecompute (s : State) : Host.Outcome State Fault Refusal :=
  done s fun b0 =>
    let b := b0.reachNs ((b0.nowNs / 1000 + 1) * 1000)
    { b with eng := b.eng.map b.recomputeOne }

/-! ### The AON trim (R131) -/

/-- AONTRIM_WINDOW: the window of 16 s in progress ends in which the AON crystal gave `ticks`, and the next begins; TRIM
takes the correction that R130 applies, and VALID is set in TRACKING or QUALIFIED. It is measured while PD2 is on. The windows
are counted in the LANT clock, the first from the instant at which PD2 comes on (DESIGN CHOICE, log entry 72). -/
def execAontrimWindow (ticks : Nat) (s : State) : Host.Outcome State Fault Refusal :=
  done s fun b0 =>
    let t := b0.tm.aonWin + 16000000000 * nsUnit
    let b1 := b0.reachPhys t
    let b := { b1 with tm := { b1.tm with aonWin := t } }
    if !bitAt (b0.get PWR_STAT_DOMON) 2 then b0
    else if ticks = 0 then b
    else
      let trim : Int := (524288 * 2 ^ 40 : Int) / ticks - 2 ^ 40
      let b1 := b.puti LAN_AONTRIM_TRIM trim
      if b.get LAN_STAT_QUAL ≤ 1 then b1.putB LAN_AONTRIM_VALID true else b1

end Sys2Proof.Machine
end

