-- ==== Sys2Proof/Machine/Crypto.lean ====
section
/-! DEFINITION. The algorithms that the spec names by their standards: SHA-256, HMAC-SHA256 and the
verification of an ECDSA P-256 signature (R186, R384, R551, R553, R562, R563). -/

namespace Sys2Proof.Machine

/-! ### SHA-256 -/

/-- The round constants, eight to a number, the earliest in its highest bits. -/
def shaTable : List (BitVec 256) :=
  [0x428A2F9871374491B5C0FBCFE9B5DBA53956C25B59F111F1923F82A4AB1C5ED5,
   0xD807AA9812835B01243185BE550C7DC372BE5D7480DEB1FE9BDC06A7C19BF174,
   0xE49B69C1EFBE47860FC19DC6240CA1CC2DE92C6F4A7484AA5CB0A9DC76F988DA,
   0x983E5152A831C66DB00327C8BF597FC7C6E00BF3D5A7914706CA635114292967,
   0x27B70A852E1B21384D2C6DFC53380D13650A7354766A0ABB81C2C92E92722C85,
   0xA2BFE8A1A81A664BC24B8B70C76C51A3D192E819D6990624F40E3585106AA070,
   0x19A4C1161E376C082748774C34B0BCB5391C0CB34ED8AA4A5B9CCA4F682E6FF3,
   0x748F82EE78A5636F84C878148CC7020890BEFFFAA4506CEBBEF9A3F7C67178F2]

/-- A number of 256 bits as eight words, the highest first. -/
def octet (x : BitVec 256) : List (BitVec 32) := (List.range 8).map (fun i => x.extractLsb' (224 - 32 * i) 32)

/-- The hash value before the first block. -/
def shaSeed : List (BitVec 32) := octet 0x6A09E667BB67AE853C6EF372A54FF53A510E527F9B05688C1F83D9AB5BE0CD19

/-- The sum modulo 2 of a word turned right by three distances. -/
def turned (x : BitVec 32) (i j k : Nat) : BitVec 32 := x.rotateRight i ^^^ (x.rotateRight j ^^^ x.rotateRight k)

/-- Bit by bit: `y` where `x` is 1 and `z` where it is 0. -/
def choose (x y z : BitVec 32) : BitVec 32 := z ^^^ (x &&& (y ^^^ z))

/-- One round on the eight words, with the sum of its constant and its message word. -/
def shaStep (kw : BitVec 32) : List (BitVec 32) → List (BitVec 32)
  | [a, b, c, d, e, f, g, h] =>
    let u := h + kw + turned e 6 11 25 + choose e f g
    [u + turned a 2 13 22 + choose (a ^^^ b) c a, a, b, c, d + u, e, f, g]
  | l => l

/-- The message word sixteen places after the first of a window of sixteen. -/
def shaWord (w : List (BitVec 32)) : BitVec 32 :=
  let at_ := fun (i : Nat) => w.getD i 0
  let mix := fun (x : BitVec 32) (i j s : Nat) => x >>> s ^^^ (x.rotateRight i ^^^ x.rotateRight j)
  at_ 0 + mix (at_ 1) 7 18 3 + at_ 9 + mix (at_ 14) 17 19 10

/-- The rounds of a list of constants, over the window of message words. -/
def shaRun (s : List (BitVec 32)) : List (BitVec 32) → List (BitVec 32) → List (BitVec 32)
  | _, [] => s
  | w, k :: ks => shaRun (shaStep (k + w.headD 0) s) (w.tail ++ [shaWord w]) ks

/-- Bytes as words, the first byte highest. -/
def shaWords : List Byte → List (BitVec 32)
  | p :: q :: r :: s :: l => (p ++ q ++ r ++ s) :: shaWords l
  | _ => []

/-- The hash value after blocks of sixteen words, at most `n` of them. -/
def shaBlocks : Nat → List (BitVec 32) → List (BitVec 32) → List (BitVec 32)
  | 0, _, s => s
  | n + 1, m, s => shaBlocks n (m.drop 16) (List.zipWith (· + ·) s (shaRun s (m.take 16) (shaTable.flatMap octet)))

/-- The bytes that fill a message of `n` bytes to whole blocks: a one bit, zeros, and its length in bits. -/
def shaFill (n : Nat) : List Byte := 0x80 :: List.replicate ((119 - n % 64) % 64) 0 ++ bytesBE (8 * n) 8

/-- SHA-256 of a message. -/
def sha256 (l : List Byte) : List Byte :=
  let m := shaWords (l ++ shaFill l.length)
  (shaBlocks (m.length / 16) m shaSeed).flatMap (fun x => bytesBE x.toNat 4)

/-- HMAC-SHA256 with a key of at most 64 bytes. -/
def hmac256 (key msg : List Byte) : List Byte :=
  let k := key ++ List.replicate (64 - key.length) 0
  sha256 (k.map (· ^^^ 0x5C) ++ sha256 (k.map (· ^^^ 0x36) ++ msg))

/-! ### ECDSA P-256 -/

/-- The prime of the field. -/
def p256P : Nat := 0xFFFFFFFF00000001000000000000000000000000FFFFFFFFFFFFFFFFFFFFFFFF
/-- The order of the group. -/
def p256N : Nat := 0xFFFFFFFF00000000FFFFFFFFFFFFFFFFBCE6FAADA7179E84F3B9CAC2FC632551
/-- The coefficient b. -/
def p256B : Nat := 0x5AC635D8AA3A93E7B3EBBD55769886BC651D06B0CC53B0F63BCE3C3E27D2604B
/-- The generator. -/
def p256G : Nat × Nat :=
  (0x6B17D1F2E12C4247F8BCE6E563A440F277037D812DEB33A0F4A13945D898C296,
   0x4FE342E2FE1A7F9B8EE7EB4A7C0F9E162BCE33576B315ECECBB6406837BF51F5)

/-- x^k modulo m, by the low `n` bits of k from the top. -/
def powMod (x m k : Nat) : Nat → Nat → Nat
  | 0, acc => acc
  | n + 1, acc =>
    let sq := acc * acc % m
    powMod x m k n (if bitAt k n then sq * x % m else sq)

/-- The inverse modulo a prime below 2^256. -/
def invMod (x m : Nat) : Nat := powMod (x % m) m (m - 2) 256 1

/-- A point in Jacobian coordinates; Z = 0 is the point at infinity. -/
abbrev JPoint := Nat × Nat × Nat

/-- Twice a point. -/
def jDouble (q : JPoint) : JPoint :=
  let p := p256P
  let (x, y, z) := q
  let yy := y * y % p
  let s := 4 * x * yy % p
  let zz := z * z % p
  let m := 3 * ((x + (p - zz)) * (x + zz)) % p
  let x3 := (m * m + 2 * (p - s)) % p
  let y3 := (m * (s + (p - x3)) + 8 * (p - yy * yy % p)) % p
  (x3, y3, 2 * y * z % p)

/-- The sum of two points. -/
def jAdd (q r : JPoint) : JPoint :=
  let p := p256P
  let (x1, y1, z1) := q
  let (x2, y2, z2) := r
  if z1 = 0 then r
  else if z2 = 0 then q
  else
    let zz1 := z1 * z1 % p
    let zz2 := z2 * z2 % p
    let u1 := x1 * zz2 % p
    let u2 := x2 * zz1 % p
    let s1 := y1 * zz2 % p * z2 % p
    let s2 := y2 * zz1 % p * z1 % p
    if u1 = u2 then (if s1 = s2 then jDouble q else (1, 1, 0))
    else
      let h := (u2 + (p - u1)) % p
      let v := (s2 + (p - s1)) % p
      let hh := h * h % p
      let hhh := h * hh % p
      let w := u1 * hh % p
      let x3 := (v * v + (p - hhh) + 2 * (p - w)) % p
      let y3 := (v * (w + (p - x3)) + s1 * (p - hhh)) % p
      (x3, y3, z1 * z2 % p * h % p)

/-- k × q, by the low `n` bits of k from the top. -/
def jMul (k : Nat) (q : JPoint) : Nat → JPoint → JPoint
  | 0, acc => acc
  | n + 1, acc =>
    let d := jDouble acc
    jMul k q n (if bitAt k n then jAdd d q else d)

/-- The affine x of a point not at infinity. -/
def jX (q : JPoint) : Nat := q.1 * invMod (q.2.2 * q.2.2) p256P % p256P

/-- A point of the curve, not at infinity. -/
def onCurve (x y : Nat) : Bool :=
  decide (x < p256P) && decide (y < p256P) &&
    y * y % p256P == (x * x * x + (p256P - 3) * x + p256B) % p256P

/-- The signature (r, s) over a digest verifies with the public key (x, y). -/
def ecdsaOk (x y r s : Nat) (digest : List Byte) : Bool :=
  let e := natOfBytesBE digest
  if onCurve x y && decide (0 < r) && decide (r < p256N) && decide (0 < s) && decide (s < p256N) then
    let w := invMod s p256N
    let u := jMul (e * w % p256N) (p256G.1, p256G.2, 1) 256 (1, 1, 0)
    let v := jMul (r * w % p256N) (x, y, 1) 256 (1, 1, 0)
    let q := jAdd u v
    q.2.2 != 0 && jX q % p256N == r
  else false

end Sys2Proof.Machine
end

