-- ==== Sys2Proof/Machine/KeyStore.lean ====
section
/-! DEFINITION. What the consumers of keys read from the key store (R550, R554, R555, R557). -/

namespace Sys2Proof.Machine

/-- Replace the security block's state. -/
def Block.mapSec (b : Block) (f : SecSt → SecSt) : Block := { b with sec := f b.sec }

/-- The key of a slot for a consumer with a use: the slot is LOADED with that use and LOCKED is 0; a
consumer outside PD0 also needs a good mirror (R550, R555, R557). -/
def Block.keyFor (b : Block) (slot use : Nat) (outside : Bool) : Option Nat :=
  if b.get (SEC_KSTAT_STATE slot) == 1 && b.get (SEC_KSTAT_USE slot) == use && !b.flag SEC_STAT_LOCKED &&
      !(outside && b.sec.mirrorBad) then
    some (b.sec.keys[slot]?.getD 0)
  else none

/-- A key as the bytes that the algorithms take: most significant first. -/
def keyBytes (k : Nat) : List Byte := bytesBE k 32

end Sys2Proof.Machine
end

