-- ==== Sys2Proof/Machine/Perf.lean ====
section
/-! DEFINITION. Performance counters and the instruction trace as the blocks feed them (R483 to
R489). -/

namespace Sys2Proof.Machine

/-- Replace engine `n`. -/
def Block.mapEng (b : Block) (n : Nat) (f : Engine → Engine) : Block := { b with eng := vmod b.eng n f }

/-- Engine `n`. -/
def Block.engine (b : Block) (n : Nat) : Engine := b.eng[n]?.getD Engine.reset

/-- Engine `n` is RUNNING (Table 5-1). -/
def Block.running (b : Block) (n : Nat) : Bool := b.get (GAL_STAT_STATE n) == 3

/-- One tick of the GAL clock, in the unit of `TimeSt.phys`. -/
def tick : Nat := nsUnit

/-- The engine event that counts the wait ticks of a wait (Table 16-3). -/
def waitEvent : Wait → Nat
  | .none => 0
  | .time .. | .boundary .. => 4
  | .line .. => 5
  | .camw .. => 6
  | .sigs .. | .bar .. => 7

/-- Count an engine event in the counters from `k` down whose selection names it (R483). -/
def Block.engEventFrom (b : Block) (e evt n : Nat) : Nat → Block
  | 0 => b
  | k + 1 =>
    (if b.get (PRF_ENG_SEL_EVT e k) == evt then b.countUp (PRF_ENG_CNT e k) n else b).engEventFrom e evt n k

/-- An engine event of Table 16-3 occurs `n` times. -/
def Block.engEvent (b : Block) (e evt n : Nat) : Block := if n = 0 then b else b.engEventFrom e evt n 8

/-- The ticks of a wait in progress are counted up to the present (Table 16-3): the performance counters sample them as they are
read (R484). -/
def Block.waitTouch (b : Block) (n : Nat) : Block :=
  let x := b.engine n
  match x.waitSince with
  | none => b
  | some t =>
    let c := (b.tm.phys - x.insnAt) / tick
    let w := (b.tm.phys - t) / tick
    if c ≤ x.seen ∨ !b.running n then b
    else ((b.engEvent n 1 (c - x.seen)).engEvent n (waitEvent x.wait) (w - x.seenWait)).mapEng n
      (fun y => { y with seen := c, seenWait := w })

/-- The performance counters are brought up to the present: one is read, or what they count changes. -/
def Block.prfTouch (b : Block) : Block := (List.range 16).foldl Block.waitTouch b.fabTouch

/-! ### The trace -/

/-- What the trace may select about a completed instruction (Table 16-5): its record, latency in
ticks, and whether it was refused, timed out, retried, trapped, or met a discarded trigger. -/
structure TraceInfo where
  rec_ : TraceRec
  lat : Nat
  refused : Bool
  timeout : Bool
  retry : Bool
  trap : Bool
  late : Bool

/-- A record of Table 16-6. -/
def traceRec (stw insn : Word) (pc e lat : Nat) (skip core15 evt : Bool) (trap : Nat) (res : Word) : TraceRec :=
  { w0 := stw
    w1 := insn
    w2 := BitVec.ofNat 72 (pc % 2 ^ 15 + e % 16 * 2 ^ 15 + sat 65535 lat * 2 ^ 19 + b2n skip * 2 ^ 35
      + b2n core15 * 2 ^ 36 + b2n evt * 2 ^ 37 + trap % 16 * 2 ^ 38)
    w3 := res }

/-- An empty record. -/
def TraceRec.zero : TraceRec := { w0 := 0, w1 := 0, w2 := 0, w3 := 0 }

/-- TRACE_FULL once since EN or CLR (R488). -/
def Block.traceFull (b : Block) : Block :=
  if b.trc.fullRaised then b else (Block.raise { b with trc := { b.trc with fullRaised := true } } evTraceFull)

/-- A record reaches the trace at instant `at_` of `TimeSt.phys` (R488): through the queue of 16,
which one record leaves each GAL clock, into the buffer, or it counts in LOST. -/
def Block.tracePut (b : Block) (e at_ : Nat) (r : TraceRec) : Block :=
  let left := b.trc.qLen - (at_ - b.trc.qAt) / nsUnit
  let cnt := b.get PRF_TRSTAT_COUNT
  if 16 ≤ left || (!b.flag PRF_TRCTL_WRAP && cnt == 4096) then b.incSat PRF_TRSTAT_LOST 1
  else
    let p := b.get PRF_TRSTAT_WPTR
    let b1 := { b with trc := { b.trc with
      buf := sput (fun _ => TraceRec.zero) b.trc.buf p r, qLen := left + 1, qAt := at_ } }
    let b2 := (b1.put PRF_TRSTAT_WPTR ((p + 1) % 4096)).engEvent e 13 1
    if cnt == 4096 then b2.traceFull
    else
      let b3 := b2.put PRF_TRSTAT_COUNT (cnt + 1)
      if cnt + 1 == 4096 then
        let b4 := b3.putB PRF_TRSTAT_FULL true
        if b.flag PRF_TRCTL_WRAP then b4 else b4.traceFull
      else b3

/-- The selection of Table 16-5. -/
def Block.traceSelects (b : Block) (e pc : Nat) (i : TraceInfo) : Bool :=
  let s := b.get PRF_TRCTL_EVSEL
  if s == 0 then decide (b.get PRF_TRCTL_THRESH ≤ i.lat)
  else if s == 1 then i.refused
  else if s == 2 then i.timeout
  else if s == 3 then i.retry
  else if s == 4 then i.trap
  else if s == 5 then b.get PRF_TRPC_PC == pc && b.get PRF_TRPC_ENG == e
  else if s == 6 then i.late
  else false

/-- A completed instruction passes the trace (R486): every N-th of its engine, or a selected one. -/
def Block.trace (b : Block) (e pc at_ : Nat) (i : TraceInfo) : Block :=
  if !(b.flag PRF_TRCTL_EN && bitAt (b.get PRF_TRCTL_ENGMASK) e) then b
  else if b.flag PRF_TRCTL_MODE then
    if b.traceSelects e pc i then b.tracePut e at_ { i.rec_ with w2 := i.rec_.w2 ||| BitVec.ofNat 72 (2 ^ 37) }
    else b
  else
    let n := (b.trc.counts[e]?.getD 0) + 1
    let full := decide (b.get PRF_TRCTL_N ≤ n)
    let b1 := { b with trc := { b.trc with counts := vmod b.trc.counts e (fun _ => if full then 0 else n) } }
    if full then b1.tracePut e at_ i.rec_ else b1

end Sys2Proof.Machine
end

