-- ==== Sys2Proof/Machine/Cycle.lean ====
section
/-! DEFINITION. The cycle sequencer: grid, periods in force, slot fit, low-water registers, the
claims of images against the cycle (R24 to R35, R179, R180). -/

namespace Sys2Proof.Machine

/-! ### Claims (R178 to R180) -/

/-- Raise GAL_ENGn with a cause bit of GALn_CAUSE set (end of R171). -/
def Block.galCause (b : Block) (f : Field) (n : Nat) : Block := (b.putB f true).raise (evGalEng n)

/-- The engines that are RUNNING. -/
def Block.runningEngines (b : Block) : List Nat := (List.range 16).filter b.running

/-- Rate of the primary port of ring `n` in Gb/s: 10 or 25 (R235). -/
def Block.ringRate (b : Block) (n : Nat) : Nat :=
  if b.get (MAC_CFG_RATE (b.get (ZRG_CFG_PORT n))) == 2 then 25 else 10

/-- The ring byte allowance A of R235, zero where it would be negative. -/
def Block.ringAllow (b : Block) (n : Nat) : Nat :=
  (b.periodNs - b.get (ZRG_TIMING_RTT n) - 2000) * b.ringRate n / 8 - 2 * (b.get (ZRG_MBX_MAX n) + 24)

/-- The active Flowstone cells. -/
def Block.activeCells (b : Block) : Nat := popcount (b.get FLW_STAT_ACTIVE) 8

/-- The Flowstone allowance of a cycle (R29, R210). -/
def Block.evalAllow (b : Block) : Nat := b.activeCells * b.periodNs / 8

/-- The ring bytes that engine `n` claims on a port (R178). -/
def Block.ringClaim (b : Block) (n port : Nat) : Nat :=
  if h : n < 16 then (((b.eng[n]'h).rings.filter (fun r => r.1 == port)).map (·.2)).sum else 0

/-- Some ring's allowance is exceeded by the claims of a set of engines. -/
def Block.ringOver (b : Block) (set : List Nat) : Bool :=
  (List.range 32).any (fun r =>
    b.flag (ZRG_CFG_EN r) &&
      decide (b.ringAllow r < (set.map (fun n => b.ringClaim n (b.get (ZRG_CFG_PORT r)))).sum))

/-- The admission checks of R179 for engine `n` among a set of engines: 0, or the LCODE of the
first that fails, LOST before the claims (Table 5-2). -/
def Block.admission (b : Block) (n : Nat) (set : List Nat) : Nat :=
  if b.flag (GAL_STAT_LOST n) then 8
  else if (b.get SYS_CYCLE_PERIN - 1) * 1000 < b.get (GAL_CLAIM_FINISH n) then 10
  else if b.evalAllow < (set.map (fun m => b.get (GAL_CLAIM2_EVAL m))).sum then 11
  else if reservedPool b.profile < (set.map (fun m => b.get (GAL_CLAIM2_CELLS m))).sum then 12
  else if b.ringOver set then 13
  else 0

/-- Recheck the claims of a list of running engines in engine order (R180). -/
def Block.claimChecks (b : Block) (set : List Nat) : List Nat → Block
  | [] => b
  | n :: r =>
    (if b.admission n set = 0 then b else b.galCause (GAL_CAUSE_CLAIM n) n).claimChecks set r

/-- The checks of R180 at an instant at which a new PERIOD or profile takes effect. -/
def Block.claimCheck (b : Block) : Block := b.claimChecks b.runningEngines b.runningEngines

/-! ### The grid and the periods in force -/

/-- The earliest instant of the grid of R24 that is not before `from_`, in ns. -/
def gridAt (period phase from_ : Nat) : Nat :=
  let p : Int := period * 1000
  let d : Int := (phase * 1000 - from_) % p
  from_ + d.toNat

/-- Fit the slot to the PERIOD in force (R33). -/
def Block.fitSlot (b : Block) : Block :=
  let per := b.get SYS_CYCLE_PERIN
  let len := b.get SYS_MSLOT_LEN
  let lat := b.get SYS_MSLOT_LATEST
  let lenF := if per / 4 < len then per / 4 else len
  let latF := if per - lenF < lat then 0 else lat
  let clamp := decide (per / 4 < len) || decide (per - lenF < lat)
  ((b.putB SYS_MSLOT_CLAMP clamp).put SYS_MSLOT_LENF lenF).put SYS_MSLOT_LATF latF

/-- FLW_USE.ALLOW shows the Flowstone allowance (R210). -/
def Block.allowShow (b : Block) : Block := b.put FLW_USE_ALLOW (sat 0x3FFFFF b.evalAllow)

/-- The stored PERIOD and PHASE come into force: PERIN and PHIN show them and the slot is fitted
(R27, R33). -/
def Block.putInForce (b : Block) : Block :=
  ((b.put SYS_CYCLE_PERIN (b.get SYS_CYCLE_PERIOD)).put SYS_CYCLE_PHIN (b.get SYS_CYCLE_PHASE)).fitSlot.allowShow

/-- As `putInForce`, at an instant of R27 that is no boundary: the checks of R180 follow. -/
def Block.putInForceNow (b : Block) : Block := b.putInForce.claimCheck

/-- PERIOD accepts a value (Table 1-2): from the minimum of the active profile to 4,000, to 500 in
a pair. -/
def Block.periodOk (b : Block) (v : Nat) : Bool :=
  decide (minPeriod b.profile ≤ v) && decide (v ≤ if b.flag PAIR_CFG_EN then 500 else 4000)

/-- Store PERIOD and PHASE of a write, a reserved value leaving its field (R18, R27). -/
def Block.storePeriod (b : Block) (data : Half) : Block :=
  let per := data.toNat % 2 ^ 12
  let ph := data.toNat / 2 ^ 12 % 2 ^ 12
  let b1 := if b.periodOk per then b.put SYS_CYCLE_PERIOD per else b
  if ph < b1.get SYS_CYCLE_PERIOD then b1.put SYS_CYCLE_PHASE ph else b1

/-- Cycles run or a stopping cycle is still in progress. -/
def Block.cycling (b : Block) : Bool := b.flag SYS_CYCLE_RUN || b.cyc.inProg

/-- Cycles start on the stored values: the first boundary is the earliest grid instant at least
2 µs ahead (R25, R27). No ARM waits then. -/
def Block.startCycles (b : Block) : Block :=
  let b1 := (b.putB SYS_CYCLE_RUN true).putInForceNow
  { b1 with cyc := { b1.cyc with
      armPend := false, firstAt := some (gridAt (b1.get SYS_CYCLE_PERIN) (b1.get SYS_CYCLE_PHIN)
        (ceilDiv b1.tm.lt nsUnit + 2000)) } }

/-- A write of the low half of SYS_CYCLE with its ARM and RUN (R25 to R27). Where RUN 0 comes before the first boundary no cycle is
in progress, and an ARM that waits for that boundary puts the values in force at once (DEDUCED, log entry 70). -/
def Block.cycleWrite (data : Half) (arm : Bool) (b : Block) : Block :=
  let b1 := b.storePeriod data
  let run := data.getLsbD 25
  if !b.cycling then
    if run then b1.startCycles else if arm then b1.putInForceNow else b1
  else if run then
    let b2 := b1.putB SYS_CYCLE_RUN true
    if arm then { b2 with cyc := { b2.cyc with armPend := true } } else b2
  else
    let b2 := b1.putB SYS_CYCLE_RUN false
    if b.cyc.inProg then
      if arm then { b2 with cyc := { b2.cyc with armPend := true } } else b2
    else
      let b3 := { b2 with cyc := { b2.cyc with firstAt := none, armPend := false } }
      if arm || b.cyc.armPend then b3.putInForceNow else b3

/-- CYCLE_ARM: a write of SYS_CYCLE with ARM 1; RUN is as the half carries it (R68). -/
def execCycleArm (data : Half) (s : State) : Host.Outcome State Fault Refusal :=
  done s (journaled (.cycleArm data) (Block.cycleWrite data true))

/-- CYCLE_RUN_WRITE: a write of SYS_CYCLE, ARM as the half carries it. -/
def execCycleRunWrite (data : Half) (s : State) : Host.Outcome State Fault Refusal :=
  done s (journaled (.cycleRunWrite data) (Block.cycleWrite data (data.getLsbD 24)))

/-! ### The maintenance slot register and the low-water registers -/

/-- LEN accepts a value (Table 1-5, with R27: against the PERIOD in force). -/
def Block.slotLenOk (b : Block) (v : Nat) : Bool :=
  decide (1 ≤ v) && decide (v ≤ 64) && decide (v ≤ b.get SYS_CYCLE_PERIN / 4)

/-- A write of SYS_MSLOT: the fields are stored and the slot is fitted (R31, R33). -/
def Block.mslotWrite (data : Half) (b : Block) : Block :=
  let len := data.toNat % 2 ^ 8
  let lat := data.toNat / 2 ^ 12 % 2 ^ 12
  let b1 := if b.slotLenOk len then b.put SYS_MSLOT_LEN len else b
  let b2 := b1.put SYS_MSLOT_ENG (data.toNat / 2 ^ 8)
  let b3 := if lat ≤ b2.get SYS_CYCLE_PERIN - b2.get SYS_MSLOT_LEN then b2.put SYS_MSLOT_LATEST lat else b2
  b3.fitSlot

/-- MSLOT_WRITE. -/
def execMslotWrite (data : Half) (s : State) : Host.Outcome State Fault Refusal :=
  done s (journaled (.mslotWrite data) (Block.mslotWrite data))

/-- Reset the low-water registers of a list of engines, GALn_SLACK.MIN with them (R35, R176). -/
def Block.lwmClrEngines (b : Block) : List Nat → Block
  | [] => b
  | n :: r =>
    (((b.put (SYS_LWM_GAL_MIN n) 0x3FFFFF).putB (SYS_LWM_GAL_OVR n) false).put (GAL_SLACK_MIN n) 0x3FFFFF).lwmClrEngines r

/-- A write of SYS_LWM_CTL.CLR: every MIN to its reset value, every OVR cleared (Table 1-6). -/
def Block.lwmClr (b : Block) : Block :=
  ((((b.lwmClrEngines (List.range 16)).put SYS_LWM_FLW_MIN 0x3FFFFF).put SYS_LWM_RING_MIN 0xFFFFFF).put
    SYS_LWM_CELL_MIN 0xFFFF).put SYS_LWM_SLOT_MIN 0xFFFF

/-- LWM_CLR. -/
def execLwmClr (s : State) : Host.Outcome State Fault Refusal :=
  done s (byHost .lwmClr Block.lwmClr)

/-- Record a margin in a low-water field: the smaller of the two (R35). -/
def Block.lowWater (b : Block) (f : Field) (margin : Nat) : Block :=
  if margin < b.get f then b.put f margin else b

/-- The offset at which the slot opens by itself, in µs (R31 to R33). -/
def Block.slotOffset (b : Block) : Nat :=
  if b.get SYS_MSLOT_LATF = 0 then b.get SYS_CYCLE_PERIN - b.get SYS_MSLOT_LENF else b.get SYS_MSLOT_LATF

/-- MAINT_SLOT_CLOSE: the slot closes when its length in force has elapsed (R32). -/
def execMaintSlotClose (s : State) : Host.Outcome State Fault Refusal :=
  done s fun b =>
    match b.cyc.slotClose with
    | none => b
    | some t => let b1 := b.reachNs t; { b1 with cyc := { b1.cyc with slotClose := none } }

end Sys2Proof.Machine
end

