-- ==== Sys2Proof/Machine/Sump.lean ====
section
/-! DEFINITION. The Sump: cells and shares, the queues of every egress, back-pressure, copies held
and dropped, and the gates of the scheduled class (R270 to R288, R314). -/

namespace Sys2Proof.Machine

/-- Replace the switch core's state. -/
def Block.mapSw (b : Block) (f : SwSt → SwSt) : Block := { b with sw := f b.sw }

/-! ### Cells (R270, R271, R284, R286) -/

/-- Bytes of a frame in the Sump: its bytes and the FCS (R270). -/
def InFrame.size (f : InFrame) : Nat := f.bytes.length + 4

/-- Cells that `n` bytes occupy. -/
def cellsFor (n : Nat) : Nat := ceilDiv n 144

/-- All cells of a stored frame. -/
def SFrame.total (f : SFrame) : Nat := f.cells.length

/-- The cells of a stored frame in a slice. -/
def SFrame.inSlice (f : SFrame) (k : Nat) : Nat := (f.cells.filter (fun c => c.1 == k)).length

/-- The cells of a stored frame that are charged to its source (R287). -/
def SFrame.charged (f : SFrame) : Nat := f.total - f.resv

/-- Reserved cells in use. -/
def Block.resvUsed (b : Block) : Nat := (b.sw.frames.map (·.resv)).sum

/-- Shared cells in use. -/
def Block.sharedUsed (b : Block) : Nat := (b.sw.frames.map SFrame.charged).sum

/-- S of R286: cells in service less the reserved pool. -/
def Block.sharedPool (b : Block) : Nat :=
  57344 * popcount (b.get SWC_STAT_INSVC) 4 - reservedPool b.profile

/-- Occupancy of a source (R287). -/
def Block.occOf (b : Block) (s : Nat) : Nat :=
  ((b.sw.frames.filter (fun f => f.f.src == s)).map SFrame.charged).sum

/-- The next slice in service after slice `k`, in ascending order with wrap (R271). -/
def nextSlice (inServ k : Nat) : Nat :=
  if bitAt inServ ((k + 1) % 4) then (k + 1) % 4
  else if bitAt inServ ((k + 2) % 4) then (k + 2) % 4
  else if bitAt inServ ((k + 3) % 4) then (k + 3) % 4
  else k

/-- The slices of `n` cells written after slice `k` (R271). -/
def spray (inServ : Nat) : Nat → Nat → List Nat
  | _, 0 => []
  | k, n + 1 => nextSlice inServ k :: spray inServ (nextSlice inServ k) n

/-- Places of a slice (Table 8-1). -/
def slicePlaces : Nat := 57344

/-- A cell is on the free list of its slice: no frame holds it, and its row is not retired without a spare in its place
(R277, R292). -/
def Block.cellFree (b : Block) (used : List (Nat × Nat)) (c : Nat × Nat) : Bool :=
  !used.contains c && !b.sw.rowPend.any (fun p => p.1 == c.1 && p.2.1 == c.2 / 16)

/-- The first free place of slice `k` from place `at_` on, round. -/
def Block.freePlace (b : Block) (used : List (Nat × Nat)) (k : Nat) : Nat → Nat → Nat
  | 0, at_ => at_ % slicePlaces
  | fuel + 1, at_ => if b.cellFree used (k, at_ % slicePlaces) then at_ % slicePlaces else b.freePlace used k fuel (at_ + 1)

/-- Cells for the slices of a list, each any free cell of its slice (R271). -/
def Block.takeCells (b : Block) (used : List (Nat × Nat)) (id : Nat) : Nat → List Nat → List (Nat × Nat)
  | _, [] => []
  | i, k :: r =>
    let c := (k, b.freePlace used k (used.length + 16 * b.sw.rowPend.length) (Config.cellPick id i))
    c :: b.takeCells (c :: used) id (i + 1) r

/-- Count the cells that a frame has written (event 2) or read (event 3), per slice (Table 16-4). -/
def Block.cellEvents (b : Block) (evt : Nat) (f : SFrame) : Block :=
  let b1 := b.fabEvent evt f.total (fun q => q == 4)
  (((b1.fabEvent evt (f.inSlice 0) (fun q => q == 0)).fabEvent evt (f.inSlice 1) (fun q => q == 1)).fabEvent evt (f.inSlice 2)
    (fun q => q == 2)).fabEvent evt (f.inSlice 3) (fun q => q == 3)

/-! ### Flow control (R314) -/

/-- The MAC of source or egress `s`: MGMT is MAC 32; HOST and GALLERY have none. -/
def macOf (s : Nat) : Option Nat := if s < 32 then some s else if s == 33 then some 32 else none

/-- Replace MAC `n`. -/
def Block.mapMac (b : Block) (n : Nat) (f : MacSt → MacSt) : Block :=
  { b with macs := vmod b.macs n f }

/-- MAC `n`'s state. -/
def Block.mac (b : Block) (n : Nat) : MacSt := b.macs[n]?.getD MacSt.reset

/-- The four bits of a 512-bit time at the port's rate, in units of 2^-40 ns: one quantum (R315).
Rates are 1, 10, 25 and 100 Gb/s. -/
def Block.gbps (b : Block) (n : Nat) : Nat :=
  if n == 32 then 1
  else if b.flag (MAC_CAGE_MODE (n / 4 * 4)) then (if b.flag (MAC_STAT_DEGRADED n) then 25 else 100)
  else if b.get (MAC_CFG_RATE n) == 0 then 1
  else if b.get (MAC_CFG_RATE n) == 1 then 10 else 25

/-- One pause quantum of 512 bit times. -/
def Block.quantum (b : Block) (n : Nat) : Nat := 512 * nsUnit / b.gbps n

/-- Time on the wire of `bytes` bytes with preamble and gap, in units of 2^-40 ns. -/
def Block.wireTime (b : Block) (n bytes : Nat) : Nat := (bytes + 20) * 8 * nsUnit / b.gbps n

/-- A MAC control frame without FCS, padded to 60 bytes. -/
def controlFrame (sa : Nat) (body : List Byte) : List Byte :=
  let l := bytesBE 0x0180C2000001 6 ++ bytesBE sa 6 ++ bytesBE 0x8808 2 ++ body
  l ++ List.replicate (60 - l.length) 0

/-- Send PAUSE with a quanta value. -/
def Block.sendPause (b : Block) (n q : Nat) : Block :=
  (b.countUp (MAC_STAT_CNT n 40) 1).emit
    (.control n (controlFrame (b.get (MAC_ADDR_ADDR n)) (bytesBE 1 2 ++ bytesBE q 2)))

/-- Send PFC that gives quanta `q` to every priority of a mask. -/
def Block.sendPfc (b : Block) (n mask q : Nat) : Block :=
  (b.countUp (MAC_STAT_CNT n 41) 1).emit
    (.control n (controlFrame (b.get (MAC_ADDR_ADDR n))
      (bytesBE 0x0101 2 ++ bytesBE mask 2 ++
        (List.range 8).flatMap (fun p => bytesBE (if bitAt mask p then q else 0) 2))))

/-- The class that a port's map gives a priority. -/
def Block.classOfPcp (b : Block) (s p : Nat) : Nat := b.get (SWC_PORT_PMAP_MAP s) / 2 ^ (3 * p) % 8

/-- The classes in which a source holds cells. -/
def Block.srcClasses (b : Block) (s : Nat) : List Nat :=
  (b.sw.frames.filter (fun f => f.f.src == s)).map (·.f.cls)

/-- The priorities whose class has cells of a source (R314). -/
def Block.busyPrios (b : Block) (s : Nat) : Nat :=
  (List.range 8).foldl (fun v p =>
    if (b.srcClasses s).contains (b.classOfPcp s p) then setBitN v p else v) 0

/-- MAC `n` of source `s` sends or renews its flow control while the source is in XOFF (R314). -/
def Block.pauseSource (b : Block) (s n : Nat) : Block :=
  let mode := b.get (MAC_FC_MODE n)
  let q := b.get (MAC_FC_QUANTA n)
  let again := b.tm.phys + q * b.quantum n / 2
  if b.flag (MAC_CFG_RING n) then b
  else if mode == 1 then (b.sendPause n q).mapMac n (fun m => { m with sent := 256, renewAt := again })
  else if mode == 2 then
    let mask := b.busyPrios s
    if mask == 0 then b
    else (b.sendPfc n mask q).mapMac n (fun m => { m with sent := mask, renewAt := again })
  else b

/-- MAC `n` ends what it has paused, on XON (R314). -/
def Block.unpauseSource (b : Block) (n : Nat) : Block :=
  let m := b.mac n
  if m.sent == 0 || (decide (n < 32) && b.flag (MAC_CFG_RING n)) then b
  else
    (if m.sent == 256 then b.sendPause n 0 else b.sendPfc n m.sent 0).mapMac n
      (fun m => { m with sent := 0 })

/-! ### Shares (R286, R287) -/

/-- EFF of a source (R286). -/
def Block.effOf (b : Block) (s : Nat) : Nat := b.get (SWC_IG_CFG_SHARE s) * b.sharedPool / 212992

/-- The headroom and hysteresis in force for a source (R287). -/
def Block.headHyst (b : Block) (s : Nat) : Nat × Nat :=
  let e := b.effOf s
  if e ≤ b.get (SWC_IG_CFG_HEAD s) + b.get (SWC_IG_CFG_HYST s) then (e / 4, e / 4)
  else (b.get (SWC_IG_CFG_HEAD s), b.get (SWC_IG_CFG_HYST s))

/-- Bring a source's status up to date: OCC, EFF, and its entry to or exit from XOFF (R287). -/
def Block.sourceUpdate (b : Block) (s : Nat) : Block :=
  let occ := b.occOf s
  let b1 := (b.put (SWC_IG_STAT_OCC s) occ).put (SWC_IG_STAT_EFF s) (b.effOf s)
  let (h, y) := b.headHyst s
  let e := b.effOf s
  if b1.flag (SWC_IG_STAT_XOFF s) then
    if occ ≤ e - h - y then
      let b2 := b1.fabTouch.putB (SWC_IG_STAT_XOFF s) false
      match macOf s with
      | some n => b2.unpauseSource n
      | none => b2
    else
      match macOf s with
      | some n =>
        if b1.get (MAC_FC_MODE n) == 2 && Nat.land (b1.busyPrios s) (255 - (b1.mac n).sent % 256) != 0
        then b1.pauseSource s n else b1
      | none => b1
  else if e - h ≤ occ then
    let b2 := ((((b1.fabTouch.putB (SWC_IG_STAT_XOFF s) true).putB SWC_CAUSE_XIG true).put SWC_CAUSE_SRC s).countUp
      (SWC_S_CNT s 3) 1).raise evXoff
    match macOf s with
    | some n => b2.pauseSource s n
    | none => b2
  else b1

/-- SWC_STAT after a change of cells: S, free shared and free reserved cells. -/
def Block.cellUpdate (b : Block) : Block :=
  ((b.put SWC_STAT_SHARED b.sharedPool).put SWC_STAT_FREE (b.sharedPool - b.sharedUsed)).put
    SWC_STAT_RFREE (reservedPool b.profile - b.resvUsed)

/-- Update sources from a list. -/
def Block.sourceUpdates (b : Block) : List Nat → Block
  | [] => b
  | s :: r => (b.sourceUpdate s).sourceUpdates r

/-- S or a share changes: every EFF is computed again at once (R286). -/
def Block.shareUpdate (b : Block) : Block := b.cellUpdate.sourceUpdates (List.range 35)

/-! ### Storing and freeing (R271, R277, R284) -/

/-- Store a frame with `n` cells, from the reserved pool where `resv`; what the pool lacks comes
from the shared cells and is charged to source 34 (R284). Its reference count starts at 0. A frame of a port is whole when its reception ends. -/
def Block.store (b : Block) (f : InFrame) (resv : Bool) : Block × Nat :=
  let n := cellsFor f.size
  let free := reservedPool b.profile - b.resvUsed
  let r := if resv then min n free else 0
  let short := if resv then n - r else 0
  let inServ := if b.cyc.drainTo.isSome then b.get SWC_STAT_INSVC % 4 else b.get SWC_STAT_INSVC
  let from_ := sget (fun _ => 3) b.sw.lastSlice f.src
  let ks := spray inServ from_ n
  let k := ks.getLast?.getD from_
  let id := b.sw.nextId
  let sf : SFrame := { id := id, f := f, cells := b.takeCells (b.sw.frames.flatMap (·.cells)) id 0 ks, resv := r, refs := 0
                       whole := f.rxEnd, errs := [] }
  let b1 := b.mapSw (fun w => { w with
    frames := w.frames ++ [sf], nextId := id + 1
    lastSlice := sput (fun _ => 3) w.lastSlice f.src k })
  let b2 := if short = 0 then b1 else (b1.putB SWC_CAUSE_RSVX true).countUp (SWC_G_CNT 0) short
  let b3 := (b2.cellEvents 2 sf).cellUpdate.mapSw (fun w => { w with minFree := min w.minFree (reservedPool b2.profile - b2.resvUsed) })
  (b3.sourceUpdate f.src, id)

/-- A stored frame by number. -/
def Block.frameOf (b : Block) (id : Nat) : Option SFrame := b.sw.frames.find? (fun f => f.id == id)

/-- Free the cells of a frame. -/
def Block.freeFrame (b : Block) (id : Nat) : Block :=
  match b.frameOf id with
  | none => b
  | some sf =>
    (b.mapSw (fun w => { w with frames := w.frames.filter (fun f => f.id ≠ id) })).cellUpdate.sourceUpdate sf.f.src

/-- Change the reference count of a frame. -/
def Block.setRefs (b : Block) (id : Nat) (g : Nat → Nat) : Block :=
  b.mapSw (fun w => { w with frames := w.frames.map (fun f => if f.id = id then { f with refs := g f.refs } else f) })

/-- A copy ends (transmitted, flushed or dropped): the count falls, and at zero the cells are free
(R277). -/
def Block.release (b : Block) (id : Nat) : Block :=
  match b.frameOf id with
  | none => b
  | some sf => if sf.refs ≤ 1 then b.freeFrame id else b.setRefs id (· - 1)

/-! ### Queues (R279, R285) -/

/-- Cells that a class queue holds. -/
def Block.queueCells (b : Block) (p c : Nat) : Nat :=
  ((b.sw.copies.filter (fun x => x.port == p && x.cls == c)).map
    (fun x => ((b.frameOf x.fid).map SFrame.total).getD 0)).sum

/-- The XOFF state of a class queue after a change (R285). The scheduled class has no limit. -/
def Block.queueUpdate (b : Block) (p c : Nat) : Block :=
  if 8 ≤ c then b
  else
    let full := decide (b.get (SWC_PORT_EQLIM_LIM p) ≤ b.queueCells p c)
    let was := bitAt (b.get (SWC_PORT_STAT_EQX p)) c
    if full && !was then
      ((((b.setBit (SWC_PORT_STAT_EQX p) c).putB SWC_CAUSE_XEQ true).put SWC_CAUSE_PORT p).put
        SWC_CAUSE_CLASS c).raise evXoff
    else if !full && was then b.clrBit (SWC_PORT_STAT_EQX p) c
    else b

/-- The number of a flow (R279). -/
def flowKey (p c s : Nat) : Nat := (p * 9 + c) * 36 + s

/-- The XOFF states of an egress after its limit has changed (R285). -/
def Block.queueUpdates (b : Block) (p : Nat) : Block := (List.range 8).foldl (fun x c => x.queueUpdate p c) b

/-- When the last cell of a copy's frame is written. -/
def Block.wholeAt (b : Block) (x : Copy) : Nat := ((b.frameOf x.fid).map (·.whole)).getD 0

/-- When every copy that a flow has queued, and that has not been passed over, is whole. -/
def Block.behind (b : Block) (p c src : Nat) : Nat :=
  ((b.sw.copies.filter (fun y => y.port == p && y.cls == c && !y.passed &&
    ((b.frameOf y.fid).map (·.f.src)).getD 0 == src)).map b.wholeAt).foldl max 0

/-- Enqueue a copy under the next number of its flow (R279); the reference count has been set. -/
def Block.enqueue (b : Block) (x : Copy) (src : Nat) : Block :=
  let k := flowKey x.port x.cls src
  let n := sget (fun _ => 0) b.sw.seqs k
  let b1 := b.mapSw (fun w => { w with
    copies := w.copies ++ [{ x with seq := n, behind := b.behind x.port x.cls src }]
    seqs := sput (fun _ => 0) w.seqs k ((n + 1) % 2 ^ 16) })
  (b1.countUp (SWC_EC_CNT x.port x.cls 0) 1).queueUpdate x.port x.cls

/-- Two copies are the same queued copy. -/
def sameCopy (x y : Copy) : Bool := x.fid == y.fid && x.port == y.port && x.cls == y.cls

/-- Take a copy out of the queues and the held copies; its frame's count falls. -/
def Block.dropCopy (b : Block) (x : Copy) : Block :=
  ((b.mapSw (fun w => { w with
    copies := w.copies.filter (fun y => ! sameCopy x y)
    held := w.held.filter (fun y => ! sameCopy x y) })).release x.fid).queueUpdate x.port x.cls

/-- Drop copies, each counted in counter `i` of its egress and class (R297). -/
def Block.dropCounted (b : Block) (i : Nat) : List Copy → Block
  | [] => b
  | x :: r => ((b.dropCopy x).countUp (SWC_EC_CNT x.port x.cls i) 1).dropCounted i r

/-! ### Gates (R161, R283) -/

/-- Open the gate of an egress: the windows of its scheduled copies begin. -/
def Block.openGate (b : Block) (p : Nat) : Block :=
  (b.putB (SWC_PORT_STAT_GATE p) true).mapSw (fun w => { w with
    copies := w.copies.map (fun x => if x.port == p && x.cls == 8 then { x with opened := true } else x) })

/-- Close the gate of an egress: scheduled copies whose window ends are dropped as LATE (R283). -/
def Block.closeGate (b : Block) (p : Nat) : Block :=
  if b.flag (SWC_PORT_STAT_GATE p) then
    (b.putB (SWC_PORT_STAT_GATE p) false).dropCounted 3
      (b.sw.copies.filter (fun x => x.port == p && x.cls == 8 && x.opened))
  else b

/-- Open or close the gates of a port mask. -/
def Block.setGates (b : Block) (opn : Bool) (mask : Nat) : List Nat → Block
  | [] => b
  | p :: r => (if bitAt mask p then (if opn then b.openGate p else b.closeGate p) else b).setGates opn mask r

/-- A GATE over a mask (R161, R181). -/
def Block.gates (b : Block) (opn : Bool) (mask : Nat) : Block := b.setGates opn mask (List.range 32)

/-- Scheduled copies of an ended cycle are dropped as LATE at its boundary (R283). -/
def Block.lateAtBoundary (b : Block) (cycle : Nat) : Block :=
  b.dropCounted 3 (b.sw.copies.filter (fun x => x.cls == 8 &&
    ((b.frameOf x.fid).map (fun f => decide (f.f.cycle ≤ cycle))).getD false))

end Sys2Proof.Machine
end

