-- ==== Sys2Proof/Machine/PtpMsg.lean ====
section
/-! DEFINITION. PTP messages as frames carry them: where the header lies, its fields, the stamps, the
changes that an egress makes and the AUTHENTICATION TLV (R354, R355, R358, R359, R362 to R366,
R384, R385). The layout of the header and of the TLV is that of IEEE 1588-2019. -/

namespace Sys2Proof.Machine

/-! ### Bytes of frames -/

/-- `n` bytes from position `k` on, most significant first. -/
def beAt (l : List Byte) (k n : Nat) : Nat := natOfBytesBE ((l.drop k).take n)

/-- Replace `v.length` bytes from position `k` on. -/
def splice (l : List Byte) (k : Nat) (v : List Byte) : List Byte := l.take k ++ v ++ l.drop (k + v.length)

/-- The EtherType of ring frames and line tags in force (R22). -/
def Block.etype (b : Block) : Nat := b.get ZRG_ETYPE_ETYPE

/-- A frame carries an 802.1Q tag directly after SA (R308). -/
def hasTag (l : List Byte) : Bool := beAt l 12 2 == 0x8100

/-- Where the line tag or the EtherType stands: past one 802.1Q tag. -/
def typePos (l : List Byte) : Nat := if hasTag l then 16 else 12

/-- A line tag stands in tag position (R241, R312). -/
def hasLineTag (et : Nat) (l : List Byte) : Bool :=
  let o := typePos l
  beAt l o 2 == et && beAt l (o + 2) 1 == 2

/-! ### The PTP header (R358) -/

/-- Where a PTP message lies: its first byte, transport (0 Layer 2, 1 IPv4, 2 IPv6), and the position of
the UDP checksum. -/
structure PtpAt where
  off : Nat
  trans : Nat
  ck : Option Nat
  deriving DecidableEq, Repr

/-- UDP destination ports of PTP. -/
def ptpPort (p : Nat) : Bool := p == 319 || p == 320

/-- The PTP message of a frame (R358). -/
def ptpOf (et : Nat) (l : List Byte) : Option PtpAt :=
  let o := typePos l + (if hasLineTag et l then 8 else 0)
  let t := beAt l o 2
  let r : Option PtpAt :=
    if t == 0x88F7 then some ⟨o + 2, 0, none⟩
    else if t == 0x0800 && beAt l (o + 2) 1 == 0x45 && beAt l (o + 11) 1 == 17 &&
        beAt l (o + 8) 2 % 2 ^ 14 == 0 && ptpPort (beAt l (o + 24) 2) then
      some ⟨o + 30, 1, some (o + 28)⟩
    else if t == 0x86DD && beAt l (o + 8) 1 == 17 && ptpPort (beAt l (o + 44) 2) then
      some ⟨o + 50, 2, some (o + 48)⟩
    else none
  match r with
  | some p => if beAt l (p.off + 1) 1 % 16 == 2 && decide (p.off + 34 ≤ l.length) then some p else none
  | none => none

/-- messageType. -/
def ptpType (l : List Byte) (p : PtpAt) : Nat := beAt l p.off 1 % 16
/-- messageLength. -/
def ptpLen (l : List Byte) (p : PtpAt) : Nat := beAt l (p.off + 2) 2
/-- domainNumber. -/
def ptpDom (l : List Byte) (p : PtpAt) : Nat := beAt l (p.off + 4) 1
/-- twoStepFlag. -/
def ptpTwo (l : List Byte) (p : PtpAt) : Bool := bitAt (beAt l (p.off + 6) 1) 1
/-- correctionField, in 2^-16 ns. -/
def ptpCorr (l : List Byte) (p : PtpAt) : Int := toSigned 64 (beAt l (p.off + 8) 8)
/-- clockIdentity and portNumber of sourcePortIdentity. -/
def ptpSrc (l : List Byte) (p : PtpAt) : Nat × Nat := (beAt l (p.off + 20) 8, beAt l (p.off + 28) 2)
/-- sequenceId. -/
def ptpSeq (l : List Byte) (p : PtpAt) : Nat := beAt l (p.off + 30) 2
/-- The timestamp after the header, in 2^-16 ns. -/
def ptpTime (l : List Byte) (p : PtpAt) : Int :=
  ((beAt l (p.off + 34) 6 * 10 ^ 9 + beAt l (p.off + 40) 4) * 65536 : Nat)
/-- requestingPortIdentity, after that timestamp. -/
def ptpReq (l : List Byte) (p : PtpAt) : Nat × Nat := (beAt l (p.off + 44) 8, beAt l (p.off + 52) 2)
/-- An event message (R358). -/
def ptpEvent (t : Nat) : Bool := decide (t < 4)
/-- A message of the peer delay mechanism: Pdelay_Req, Pdelay_Resp, Pdelay_Resp_Follow_Up. -/
def ptpPdelay (t : Nat) : Bool := t == 2 || t == 3 || t == 10

/-- The domain that a message belongs to on port `n` (R359): 1 TDA, 2 TDB. -/
def Block.ptpDomain (b : Block) (n : Nat) (l : List Byte) (p : PtpAt) : Option Nat :=
  [1, 2].find? (fun d =>
    b.flag (LAN_D_CFG_EN (d - 1)) && b.get (LAN_D_CFG_DNUM (d - 1)) == ptpDom l p &&
      b.get (LAN_D_CFG_TRANS (d - 1)) == p.trans &&
      (if d = 1 then b.flag (MAC_PTP_DOMA n) else b.flag (MAC_PTP_DOMB n)))

/-! ### Stamps (R354, R355) -/

/-- Picoseconds in the unit of stamps, 2^-16 ns, rounded down. -/
def psUnits (ps : Int) : Int := ps * 65536 / 1000

/-- The terms of Table 11-1 on the receive side of a line port, in ps. -/
def Block.rxTerms (b : Block) (n : Nat) : Nat :=
  b.get (MAC_PTPCAL_RXCAL n) + b.get (MAC_PTPDLY_RXEXT n) + Config.eqDelay n (b.get (SDS_STAT_PEAK n)) +
    (if b.flag (MAC_CAGE_MODE (n / 4 * 4)) then b.get (SDS_SKEW_SKEW n) else 0)

/-- The ingress stamp of a frame whose delimiter passes the PCS now. -/
def Block.rxStamp (b : Block) (n : Nat) : Word :=
  if 32 ≤ n then b.stw else b.stw - BitVec.ofNat 72 (psUnits (b.rxTerms n)).toNat

/-- The egress stamp of a frame whose delimiter passes the PCS now. -/
def Block.txStamp (b : Block) (n : Nat) : Word :=
  if 32 ≤ n then b.stw
  else b.stw + BitVec.ofNat 72 (psUnits (b.get (MAC_PTPCAL_TXCAL n) + b.get (MAC_PTPDLY_TXEXT n))).toNat

/-- A stamp in the time of domain `d`, in 2^-16 ns since the epoch (R373); 0 is the time scale. -/
def Block.domTime (b : Block) (d : Nat) (w : Word) : Int :=
  let lt : Int := b.tm.lt / 2 ^ 24
  lt + stwSpan w b.stw + (if d = 0 then 0 else b.geti (LAN_D_DOFF_DOFF (d - 1)))
where
  /-- w − t as a signed number. -/
  stwSpan (w t : Word) : Int := toSigned 72 (w - t).toNat

/-! ### Changing a message -/

/-- The sum of the 16-bit words of a byte string. -/
def sum16 : List Byte → Nat
  | a :: c :: r => a.toNat * 256 + c.toNat + sum16 r
  | [a] => a.toNat * 256
  | [] => 0

/-- Bring the UDP checksum up to date after bytes from `off` on have changed from those of `old`; an
IPv4 checksum of zero stays zero (R365). -/
def fixChecksum (old new : List Byte) (p : PtpAt) : List Byte :=
  match p.ck with
  | none => new
  | some k =>
    let hc := beAt old k 2
    if hc = 0 ∧ p.trans = 1 then new
    else
      let a := sum16 (old.drop p.off)
      let c := sum16 (new.drop p.off)
      splice new k (bytesBE (65535 - ((65535 - hc) + c + 65535 * old.length - a) % 65535) 2)

/-- Replace the correctionField. -/
def setCorr (l : List Byte) (p : PtpAt) (c : Int) : List Byte := splice l (p.off + 8) (bytesBE (ofSigned 64 c) 8)

/-- The timestamp bytes of an instant in 2^-16 ns: seconds and nanoseconds. -/
def timeBytes (t : Int) : List Byte :=
  let ns := (t / 65536).toNat
  bytesBE (ns / 10 ^ 9) 6 ++ bytesBE (ns % 10 ^ 9) 4

/-- A timestamp and the correctionField that its fraction gives (R363). -/
def setTime (l : List Byte) (p : PtpAt) (t : Int) : List Byte :=
  setCorr (splice l (p.off + 34) (timeBytes t)) p (t % 65536)

/-! ### AUTHENTICATION TLV (R384, R385) -/

/-- Bytes of the TLV: type, length, SPP, secParamIndicator, keyID, ICV. -/
def authLen : Nat := 26

/-- Where the last TLV would begin if it is an AUTHENTICATION TLV. -/
def authPos (l : List Byte) (p : PtpAt) : Nat := p.off + ptpLen l p - authLen

/-- The entry of LAN_SPPk that the message's last TLV names, with EN 1 (R384). -/
def Block.authEntry (b : Block) (l : List Byte) (p : PtpAt) : Option Nat :=
  let k := authPos l p
  if decide (34 + authLen ≤ ptpLen l p) && beAt l k 2 == 0x8009 && beAt l (k + 2) 2 == authLen - 4 &&
      beAt l (k + 5) 1 == 0 then
    (List.range 4).find? (fun i => b.flag (LAN_SPP_EN i) && b.get (LAN_SPP_SPP i) == beAt l (k + 4) 1 &&
      b.get (LAN_SPP_KEYID i) == beAt l (k + 6) 4)
  else none

/-- The ICV of a message with the key of an entry: none where its slot has no key (R386). -/
def Block.icvOf (b : Block) (l : List Byte) (p : PtpAt) (entry : Nat) : Option (List Byte) :=
  (b.keyFor (b.get (LAN_SPP_SLOT entry)) 1 true).map (fun key =>
    let z := setCorr l p 0
    (hmac256 (keyBytes key) ((z.drop p.off).take (ptpLen l p - 16))).take 16)

/-- A received message passes R384. -/
def Block.authOk (b : Block) (l : List Byte) (p : PtpAt) : Bool :=
  match b.authEntry l p with
  | none => false
  | some i =>
    match b.icvOf l p i with
    | none => false
    | some v => v == (l.drop (authPos l p + authLen - 16)).take 16

/-- Write the ICV of a changed message whose TLV names an enabled entry (R385). -/
def Block.renewIcv (b : Block) (l : List Byte) (p : PtpAt) : List Byte :=
  match b.authEntry l p with
  | none => l
  | some i =>
    match b.icvOf l p i with
    | none => l
    | some v => splice l (authPos l p + authLen - 16) v

/-- The AUTHENTICATION TLV of entry `k`, its ICV still zero. -/
def Block.authTlv (b : Block) (k : Nat) : List Byte :=
  bytesBE 0x8009 2 ++ bytesBE (authLen - 4) 2 ++ bytesBE (b.get (LAN_SPP_SPP k)) 1 ++ [0] ++
    bytesBE (b.get (LAN_SPP_KEYID k)) 4 ++ List.replicate 16 0

end Sys2Proof.Machine
end

