-- ==== Sys2Proof/Machine/Mac.lean ====
section
/-! DEFINITION. The MACs: classification and counting of frames, VLAN and line tags, flow control
received, the transmit stamp queue (R303 to R316, R321, R325, R326, R364 to R368). -/

namespace Sys2Proof.Machine

/-! ### Framing -/

/-- One bit of the CRC-32 of IEEE 802.3. -/
def crcBit (c : BitVec 32) : BitVec 32 := if c.getLsbD 0 then (c >>> 1) ^^^ 0xEDB88320 else c >>> 1

/-- One byte of the CRC-32. -/
def crcByte (c : BitVec 32) (x : Byte) : BitVec 32 :=
  crcBit (crcBit (crcBit (crcBit (crcBit (crcBit (crcBit (crcBit (c ^^^ x.setWidth 32))))))))

/-- The FCS of a frame, as its four bytes on the wire. -/
def fcsOf (l : List Byte) : List Byte := bytesOf (~~~(l.foldl crcByte 0xFFFFFFFF)).toNat 0 4

/-! ### Counters (R325, R326) -/

/-- A port that R4 mode makes absent (R300). -/
def Block.absent (b : Block) (n : Nat) : Bool := decide (n < 32) && b.flag (MAC_CAGE_MODE (n / 4 * 4)) && n % 4 != 0

/-- Add to counter `i` of MAC `n`. -/
def Block.macCount (b : Block) (n i k : Nat) : Block :=
  if k = 0 || b.absent n then b else b.countUp (MAC_STAT_CNT n i) k

/-- Add to the network-time counter `i` of a line port (R394). -/
def Block.ptpCount (b : Block) (n i : Nat) : Block :=
  if 32 ≤ n || b.absent n then b else b.countUp (MAC_PTP_CNT n i) 1

/-- The size bin of a frame of `len` bytes, counted from the 64-byte bin. -/
def sizeBin (len : Nat) : Nat :=
  if len ≤ 64 then 0 else if len ≤ 127 then 1 else if len ≤ 255 then 2 else if len ≤ 511 then 3
  else if len ≤ 1023 then 4 else if len ≤ 1518 then 5 else if len ≤ 2047 then 6 else if len ≤ 4095 then 7 else 8

/-- Unicast, multicast or broadcast destination: 0, 1, 2. -/
def destKind (l : List Byte) : Nat :=
  if beAt l 0 6 == 0xFFFFFFFFFFFF then 2 else if beAt l 0 1 % 2 == 1 then 1 else 0

/-- Count a good received frame. -/
def Block.countRx (b : Block) (n : Nat) (l : List Byte) : Block :=
  let len := l.length + 4
  (((((b.macCount n 0 len).macCount n 1 1).macCount n (2 + destKind l) 1).macCount n (5 + sizeBin len) 1).macCount n 24
    (b2n (hasTag l))).macCount n 25 (b2n (hasLineTag b.etype l))

/-- Count a frame sent complete and unstomped, as it was on the wire. -/
def Block.countTx (b : Block) (n : Nat) (l : List Byte) : Block :=
  let len := l.length + 4
  (((b.macCount n 26 len).macCount n 27 1).macCount n (28 + destKind l) 1).macCount n (31 + sizeBin len) 1

/-! ### Flow control received (R313, R315, R316) -/

/-- MACn_PAUSED after a change. -/
def Block.pausedShow (b : Block) (n : Nat) : Block :=
  let m := b.mac n
  let cls := (List.range 8).foldl (fun v c => if b.tm.phys < m.clsUntil[c]?.getD 0 then setBitN v c else v) 0
  (b.putB (MAC_PAUSED_ALL n) (decide (b.tm.phys < m.allUntil))).put (MAC_PAUSED_CLS n) cls

/-- The MAC answers flow control: RXIGN 0, a mode of its own, and not in ring mode. -/
def Block.fcObeys (b : Block) (n mode : Nat) : Bool :=
  !b.flag (MAC_FC_RXIGN n) && b.get (MAC_FC_MODE n) == mode && !(b.flag (MAC_CFG_RING n) && decide (n < 32))

/-- When a frame of `len` bytes with FCS ends whose delimiter passes now. -/
def Block.rxEndAt (b : Block) (n len : Nat) : Nat := b.tm.phys + len * 8 * nsUnit / b.gbps n

/-- A PAUSE with quanta `q`: the time runs from the end of its 64 bytes (R315). -/
def Block.pauseRx (b : Block) (n q : Nat) : Block :=
  let b1 := b.macCount n 21 1
  if b.fcObeys n 1 then
    (b1.mapMac n (fun m => { m with allUntil := if q = 0 then b.tm.phys else b.rxEndAt n 64 + q * b.quantum n })).pausedShow n
  else b1

/-- The classes that a PFC stops or frees, by the priorities it enables; the times run from its end. -/
def Block.pfcTimes (b : Block) (n s en : Nat) (times : List Nat) : List Nat → Vector Nat 8 → Vector Nat 8
  | [], v => v
  | p :: r, v =>
    b.pfcTimes n s en times r
      (if bitAt en p then vmod v (b.classOfPcp s p) (fun _ =>
        let q := times[p]?.getD 0
        if q = 0 then b.tm.phys else b.rxEndAt n 64 + q * b.quantum n) else v)

/-- The source that a MAC is (Table 8-2). -/
def srcOfMac (n : Nat) : Nat := if n = 32 then 33 else n

/-- A PFC has ended (R315). -/
def Block.pfcRx (b : Block) (n en : Nat) (times : List Nat) : Block :=
  let b1 := b.macCount n 22 1
  if b.fcObeys n 2 then
    (b1.mapMac n (fun m => { m with
      clsUntil := b.pfcTimes n (srcOfMac n) en times (List.range 8) m.clsUntil })).pausedShow n
  else b1

/-- A control frame whose EtherType is 0x8808 (R313). -/
def Block.controlRx (b : Block) (n : Nat) (l : List Byte) : Block :=
  let da := beAt l 0 6
  let op := beAt l 14 2
  if da == 0x0180C2000001 || da == b.get (MAC_ADDR_ADDR n) then
    if op == 0x0001 then b.pauseRx n (beAt l 16 2)
    else if op == 0x0101 then
      b.pfcRx n (beAt l 16 2 % 256) ((List.range 8).map (fun p => beAt l (18 + 2 * p) 2))
    else b.macCount n 23 1
  else b.macCount n 23 1

/-! ### Reception (R305, R306, R308, R309, R358) -/

/-- How a frame is classified: 0 good, else its counter of Table 9-5. -/
def rxClass (maxLen len : Nat) (ok : Bool) : Nat :=
  if len < 64 then (if ok then 15 else 16)
  else if len ≤ maxLen then (if ok then 0 else 14)
  else if ok then 17 else 18

/-- VID and PCP of a received frame (R308): a VID of 4095 discards it. -/
def Block.rxTag (b : Block) (n : Nat) (l : List Byte) : Nat × Option Nat :=
  if hasTag l then
    let t := beAt l 14 2
    let vid := t % 2 ^ 12
    (if vid = 0 then b.get (MAC_VLAN_PVID n) else vid, some (t / 2 ^ 13))
  else (b.get (MAC_VLAN_PVID n), none)

/-- The member mask of a VID (R275, R296). -/
def Block.vlanMask (b : Block) (vid : Nat) : Nat :=
  sget (fun v => if v = 1 then 0x3FFFFFFFF else 0) b.sw.vlan vid

/-- R309 discards a received frame. -/
def Block.vlanDrop (b : Block) (n : Nat) (l : List Byte) : Bool :=
  let stored := if hasTag l then beAt l 14 2 % 2 ^ 12 else 0
  let vid := (b.rxTag n l).1
  let acc := b.get (MAC_VLAN_ACCEPT n)
  (acc == 1 && stored == 0) || (acc == 2 && stored != 0) || stored == 4095 ||
    (b.flag (MAC_VLAN_INFILT n) && !bitAt (b.vlanMask vid) (srcOfMac n))

/-- A frame enters the queue before the Sump. -/
def Block.toCore (b : Block) (f : InFrame) : Block := b.mapSw (fun w => { w with ingress := w.ingress ++ [f] })

/-- A received frame as the core gets it; `bad` is 1 for a bad FCS, 2 for a short frame. -/
def Block.rxIn (b : Block) (n bad : Nat) (l : List Byte) : InFrame :=
  let (vid, pcp) := b.rxTag n l
  let s := srcOfMac n
  { src := s, bytes := l, vid := vid, pcp := pcp
    cls := match pcp with | some p => b.classOfPcp s p | none => b.get (SWC_PORT_CTL_DCLASS s)
    port := 63, sch := false, cycle := b.cyc.count, bad := bad, stamp := b.rxStamp n, rxEnd := b.rxEndAt n (l.length + 4) }

/-- The line tag and the 802.1Q tag passed over, the EtherType of an ESMC frame: 0x8809 with subtype 0x0A (R397). -/
def isEsmc (etype : Nat) (l : List Byte) : Bool :=
  let o := typePos l + (if hasLineTag etype l then 8 else 0)
  beAt l o 2 == 0x8809 && beAt l (o + 2) 1 == 0x0A

/-- An ESMC frame goes to HOST in class 7, past the forwarding database (R397) and, DESIGN CHOICE (log entry 74), the VLAN
rules of its port. -/
def esmcIn (f : InFrame) : InFrame := { f with port := 32, cls := 7 }

/-- A good frame of a port that is not in ring mode. -/
def Block.rxGood (b : Block) (n : Nat) (l : List Byte) : Block :=
  if beAt l 12 2 == 0x8808 then b.controlRx n l
  else if isEsmc b.etype l then b.toCore (esmcIn (b.rxIn n 0 l))
  else if b.vlanDrop n l then b.macCount n 20 1
  else
    let f := b.rxIn n 0 l
    match (if n < 32 then ptpOf b.etype l else none) with
    | some p =>
      let b1 := if ptpEvent (ptpType l p) then b.ptpCount n 0 else b
      if (b.ptpDomain n l p).isSome then { b1 with ptp := { b1.ptp with rx := b1.ptp.rx ++ [f] } }
      else b1.toCore f
    | none => b.toCore f

/-- Ring `r` names a port as its primary port, or in RING as its peer port. -/
def Block.ringNames (b : Block) (p r : Nat) : Bool :=
  b.get (ZRG_CFG_PORT r) == p || (b.get (ZRG_CFG_TOPO r) == 1 && b.get (ZRG_CFG_PEER r) == p)

/-- The ring that a port belongs to (R227): an enabled one, else one that still stops, else the first whose fields name the
port, whose counter then takes what the port discards (DESIGN CHOICE, log entry 74). -/
def Block.ringOf (b : Block) (p : Nat) : Option Nat :=
  let rs := (List.range 32).filter (b.ringNames p)
  ((rs.find? (fun r => b.flag (ZRG_CFG_EN r))).or (rs.find? (fun r => b.get (ZRG_STAT_STATE r) != 0))).or rs.head?

/-- Ring `r` discards a frame (RING_DISC). -/
def Block.ringDisc (b : Block) (r : Nat) : Block := (b.putB (ZRG_CAUSE_DISC r) true).countUp (ZRG_CNT r 4) 1

/-- A good frame of a ring port that is no MAC control frame: discarded unless it is a ring frame (R227). -/
def Block.ringRx (b : Block) (p : Nat) (l : List Byte) : Block :=
  let sub := beAt l 14 1
  if beAt l 12 2 == b.etype && (sub == 1 || sub == 3 || sub == 4) then b
  else match b.ringOf p with
    | some r => b.ringDisc r
    | none => b

/-- Port `n` uses forward error correction. -/
def Block.fecOn (b : Block) (n : Nat) : Bool := decide (n < 32) && (b.get (MAC_CFG_FEC n) != 0 || b.flag (MAC_STAT_DEGRADED n))

/-- The PCS saw an /E/, an invalid block or an uncorrectable codeword in a frame (R306). -/
def Block.rxCode (b : Block) (n : Nat) (f : WireFrame) : Bool := f.code || (b.fecOn n && decide (0 < f.fecBad))

/-- The counter of Table 9-5 of a frame that is not good, 0 for a good one (R305, R306). -/
def Block.rxKind (b : Block) (n : Nat) (f : WireFrame) : Nat :=
  rxClass (b.get (MAC_CFG_MAXLEN n)) (f.bytes.length + 4) (f.fcsOk && !b.rxCode n f)

/-- The counters of a received frame: code words, RX_CODE, and its kind. -/
def Block.rxCounts (b : Block) (n : Nat) (f : WireFrame) : Block :=
  let b1 := (if b.fecOn n then (b.macCount n 43 f.fecCorr).macCount n 44 f.fecBad else b).macCount n 19 (b2n (b.rxCode n f))
  if b.rxKind n f = 0 then b1.countRx n f.bytes else b1.macCount n (b.rxKind n f) 1

/-- A frame has been received (R305, R306). A ring port counts MAC control frames and discards them as every frame that is no
ring frame (R227, R303). One that the VLAN rules discard takes no cell, whatever its FCS (R309). -/
def Block.rxFrame (b : Block) (n : Nat) (f : WireFrame) : Block :=
  let c := b.rxKind n f
  let b1 := b.rxCounts n f
  if n < 32 && b.flag (MAC_CFG_RING n) then
    (if c ≠ 0 then b1 else (if beAt f.bytes 12 2 == 0x8808 then b1.controlRx n f.bytes else b1).ringRx n f.bytes)
  else if c = 0 then b1.rxGood n f.bytes
  else if c = 14 || c = 16 || c = 18 then
    let l := f.bytes.take (b.get (MAC_CFG_MAXLEN n))
    let g := b1.rxIn n (if c = 16 then 2 else 1) l
    if beAt l 12 2 == 0x8808 then b1
    else if isEsmc b.etype l then b1.toCore (esmcIn g)
    else if b.vlanDrop n l then b1 else b1.toCore g
  else b1

/-- RX_FRAME: a port whose link is up receives a frame. -/
def execRxFrame (n : Fin 33) (f : WireFrame) (dt : Nat) (s : State) : Host.Outcome State Fault Refusal :=
  done s fun b0 =>
    let b := b0.advanceNs dt
    if b.flag (MAC_STAT_LINK n) then b.rxFrame n f else b

/-- PAUSE_RECEIVED: a PAUSE frame with quanta is received. -/
def execPauseReceived (n : Fin 33) (quanta : BitVec 16) (dt : Nat) (s : State) : Host.Outcome State Fault Refusal :=
  done s fun b0 =>
    let b := b0.advanceNs dt
    if b.flag (MAC_STAT_LINK n) then
      b.rxFrame n ⟨controlFrame 0 (bytesBE 1 2 ++ bytesBE quanta.toNat 2), true, false, 0, 0⟩
    else b

/-- PFC_RECEIVED: a PFC frame with its enable bits and times is received. -/
def execPfcReceived (n : Fin 33) (en : BitVec 8) (times : List (BitVec 16)) (dt : Nat) (s : State) :
    Host.Outcome State Fault Refusal :=
  done s fun b0 =>
    let b := b0.advanceNs dt
    if b.flag (MAC_STAT_LINK n) then
      b.rxFrame n ⟨controlFrame 0 (bytesBE 0x0101 2 ++ bytesBE en.toNat 2 ++
        (List.range 8).flatMap (fun p => bytesBE (((times[p]?).getD 0).toNat) 2)), true, false, 0, 0⟩
    else b

/-- PAUSE_EXPIRE: the earliest pause time still running at a MAC runs out (R315). -/
def execPauseExpire (n : Fin 33) (s : State) : Host.Outcome State Fault Refusal :=
  done s fun b =>
    let m := b.mac n
    let ts := (m.allUntil :: m.clsUntil.toList).filter (fun t =>
      decide (b.tm.phys < t) || b.flag (MAC_PAUSED_ALL n) || b.get (MAC_PAUSED_CLS n) != 0)
    match ts.filter (fun t => decide (b.tm.phys < t)) with
    | [] => if ts.isEmpty then b else b.pausedShow n
    | t :: r => (b.reachPhys (r.foldl min t)).pausedShow n

/-- PAUSE_RENEW: half of the pause time has elapsed in XOFF, and it is sent again (R314). -/
def execPauseRenew (n : Fin 33) (s : State) : Host.Outcome State Fault Refusal :=
  done s fun b =>
    if b.flag (SWC_IG_STAT_XOFF (srcOfMac n)) && (b.mac n).sent != 0 then
      (b.reachPhys (b.mac n).renewAt).pauseSource (srcOfMac n) n
    else b

/-! ### Egress changes (R310 to R312, R364, R365) -/

/-- The 802.1Q rules of an egress (R310). -/
def Block.tagOut (b : Block) (n : Nat) (f : InFrame) : List Byte :=
  let l := f.bytes
  let mode := b.get (MAC_VLAN_TAGOUT n)
  let rest := l.drop (if hasTag l then 16 else 12)
  let tagged :=
    if hasTag l then splice l 14 (bytesBE (beAt l 14 2 / 2 ^ 12 * 2 ^ 12 + f.vid) 2)
    else
      let pcp := f.pcp.getD (b.get (MAC_VLAN_DPCP n))
      l.take 12 ++ bytesBE 0x8100 2 ++ bytesBE (pcp * 2 ^ 13 + f.vid) 2 ++ rest
  let bare := l.take 12 ++ rest
  if mode == 0 then l
  else if mode == 1 then (if f.vid == b.get (MAC_VLAN_PVID n) then bare else tagged)
  else if mode == 2 then tagged
  else bare

/-- The line tag of a port at a stamp (R241, R311). -/
def Block.lineTag (b : Block) (n : Nat) (w : Word) : List Byte :=
  let ax := b.get (MAC_LTAG_AXIS n)
  let r := b.get (MAC_LTAG_RES n)
  let (p, st) := b.query ⟨ax % 16, Nat.mod_lt _ (by decide)⟩ w
  bytesBE b.etype 2 ++ [0x02] ++ bytesBE (ax * 16 + b2n (st == 0) * 8 + r) 1 ++
    bytesBE (ofSigned 32 (p / 2 ^ (24 + 2 * r))) 4

/-- Line tags of an egress (R311, R312): the bytes, and whether a tag was written. -/
def Block.lineTagOut (b : Block) (n cls : Nat) (w : Word) (l : List Byte) : List Byte × Bool :=
  let o := typePos l
  if 32 ≤ n then (l, false)
  else if b.flag (MAC_LTAG_INS n) then
    if bitAt (b.get (MAC_LTAG_CLASS n)) cls then
      if hasLineTag b.etype l then (splice l o (b.lineTag n w), true) else (l.take o ++ b.lineTag n w ++ l.drop o, true)
    else (l, false)
  else if b.flag (MAC_LTAG_STRIP n) && hasLineTag b.etype l then (l.take o ++ l.drop (o + 8), false)
  else (l, false)

/-- The delay asymmetry of a port for a path delay, in 2^-16 ns (R370). -/
def Block.asymOf (b : Block) (n : Nat) (mpd : Int) : Int :=
  let a := b.geti (MAC_ASYM_ALPHA n)
  mpd * a / (2 ^ 33 + a) + psUnits (b.geti (MAC_ASYM_CONST n))

/-- The role of a port is that of a transparent clock. -/
def tcRole (r : Nat) : Bool := r == 3 || r == 4

/-- What an egress does to a message that the network time unit did not generate (R364, R365): the
bytes, and whether R365 handled it. -/
def Block.ptpOut (b : Block) (n : Nat) (f : InFrame) (w : Word) (l : List Byte) : List Byte × Bool :=
  match ptpOf b.etype l with
  | none => (l, false)
  | some p =>
    let t := ptpType l p
    let d := b.ptpDomain n l p
    if !ptpEvent t then (l, false)
    else
      let role := b.get (MAC_PTP_ROLE n)
      let res : Int := toSigned 72 (w - f.stamp).toNat
      let link : Int := if role == 4 && t == 0 then
          b.get (MAC_PDLY_MPD f.src) + b.asymOf f.src (b.get (MAC_PDLY_MPD f.src)) else 0
      let l1 := if tcRole role && d.isSome && decide (f.src < 32) then setCorr l p (ptpCorr l p + res + link) else l
      let one := b.flag (MAC_PTP_ONESTEP n) && t == 0 && !ptpTwo l p
      let l2 := if one then setTime l1 p (b.domTime (d.getD 0) w) else l1
      (if l2 = l then l else fixChecksum l (b.renewIcv l2 p) p, one)

/-! ### The transmit stamp queue (R321, R366, R367) -/

/-- MACn_TSCAUSE and MAC_TSSUM agree (R391). -/
def Block.tsSumShow (b : Block) (n : Nat) : Block :=
  let r := b.get MAC_TSSUM_RDY
  let o := b.get MAC_TSSUM_OVF
  (b.put MAC_TSSUM_RDY (if b.flag (MAC_TSCAUSE_RDY n) then setBitN r n else clrBitN r n)).put MAC_TSSUM_OVF
    (if b.flag (MAC_TSCAUSE_OVF n) then setBitN o n else clrBitN o n)

/-- The record registers show the head of the queue. -/
def Block.tsShow (b : Block) (n : Nat) : Block :=
  let q := (b.mac n).ts
  let b1 := b.put (MAC_TSCNT_CNT n) q.length
  match q with
  | [] => (b1.setReg (MAC_TSREC0 n) 0).setReg (MAC_TSREC1 n) 0
  | r :: _ => (b1.setReg (MAC_TSREC0 n) r.stw).setReg (MAC_TSREC1 n) (BitVec.ofNat 72
      (1 + b2n r.ovf * 2 + r.seqid * 2 ^ 2 + r.msgt * 2 ^ 18 + r.domn * 2 ^ 22 + r.lostn * 2 ^ 30 + r.lastid * 2 ^ 46))

/-- A record is due (R366, R367). -/
def Block.tsPush (b : Block) (n : Nat) (r : TsRec) : Block :=
  let q := (b.mac n).ts
  if q.any (·.ovf) then
    ((b.mapMac n (fun m => { m with ts := m.ts.map (fun x =>
      if x.ovf then { x with lostn := sat 65535 (x.lostn + 1), lastid := r.seqid } else x) })).ptpCount n 4).tsShow n
  else if 31 ≤ q.length then
    let o : TsRec := { stw := 0, ovf := true, seqid := r.seqid, msgt := 0, domn := 0, lostn := 1, lastid := r.seqid }
    ((((b.mapMac n (fun m => { m with ts := m.ts ++ [o] })).ptpCount n 4).putB (MAC_TSCAUSE_OVF n) true).tsSumShow n
      |>.tsShow n).raise evTsOvf
  else
    let b1 := (b.mapMac n (fun m => { m with ts := m.ts ++ [r] })).tsShow n
    if q.isEmpty then ((b1.putB (MAC_TSCAUSE_RDY n) true).tsSumShow n).raise evTsReady else b1

/-- A write of MACn_TSCNT.POP (R321). -/
def Block.tsPop (n : Nat) (b : Block) : Block := (b.mapMac n (fun m => { m with ts := m.ts.drop 1 })).tsShow n

/-- TS_POP. -/
def execTsPop (n : Fin 32) (s : State) : Host.Outcome State Fault Refusal :=
  done s (byHost (.tsPop n) (Block.tsPop n))

/-- The record of an event message that a port has sent complete (R366). -/
def Block.tsRecord (b : Block) (n : Nat) (w : Word) (l : List Byte) : Block :=
  match ptpOf b.etype l with
  | none => b
  | some p =>
    if !ptpEvent (ptpType l p) then b
    else
      let b1 := b.ptpCount n 1
      if b.flag (MAC_PTP_TSQ n) then
        b1.tsPush n { stw := w, ovf := false, seqid := ptpSeq l p, msgt := ptpType l p, domn := ptpDom l p, lostn := 0, lastid := 0 }
      else b1

end Sys2Proof.Machine
end

