-- ==== Sys2Proof/Machine/SwitchCore.lean ====
section
/-! DEFINITION. The switch core: elimination of duplicates, the forwarding decision, queues and
copies, transmission, cell errors, row and slice retirement, and the table windows (R270 to R297). -/

namespace Sys2Proof.Machine

/-! ### Small helpers -/

/-- A port whose encoding is 64b/66b: 10GBASE-R, 25GBASE-R or 100GBASE-R4. -/
def Block.blockCoded (b : Block) (p : Nat) : Bool := decide (p < 32) && b.gbps p != 1

/-- The STOMP registers and event of a stomp at egress `p` with a cause. The frame ends with the complement of its FCS, on a
block-coded port also with an /E/ (R290). -/
def Block.stompShow (b : Block) (p code : Nat) : Block :=
  (((((b.countUp (SWC_E_CNT p 0) 1).putB SWC_CAUSE_STOMP true).put SWC_CAUSE_STCODE code).put
    SWC_CAUSE_PORT p).emit (.stomp p (b.blockCoded p))).raise evStomp

/-- Egress `p` is up: SWC_PORTn_CTL.EN is 1 and its link is up; HOST has no link (R291). -/
def Block.egressUp (b : Block) (p : Nat) : Bool :=
  b.flag (SWC_PORT_CTL_EN p) && (match macOf p with | some n => b.flag (MAC_STAT_LINK n) | none => true)

/-- Line lanes enabled in the module (R301). -/
def Block.lanesEnabled (b : Block) : Nat :=
  ((List.range 32).map (fun n =>
    if !b.flag (MAC_CTL_EN n) || b.absent n then 0 else if b.flag (MAC_CAGE_MODE (n / 4 * 4)) then 4 else 1)).sum

/-- One slice in service carries more than 16 lanes (R294). -/
def Block.sliceShort (b : Block) : Bool :=
  decide (popcount (b.get SWC_STAT_INSVC) 4 ≤ 1) && decide (16 < b.lanesEnabled)

/-- The condition of R294 has come to hold. -/
def Block.lastSlice (b : Block) : Block := (b.putB SWC_CAUSE_LASTSLICE true).raise evSpareUsed

/-! ### Row and slice retirement (R272, R273, R292 to R294) -/

/-- The channel of a row (R50 kind 2). -/
def rowChan (slice row : Nat) : Channel := { kind := 2, idx := slice * 3584 + row }

/-- The spare rows left in a slice. -/
def spareLeft (k : Nat) : Field := if k = 0 then SWC_SPARE_LEFT0 else if k = 1 then SWC_SPARE_LEFT1
  else if k = 2 then SWC_SPARE_LEFT2 else SWC_SPARE_LEFT3

/-- A slice leaves service (R293). -/
def Block.sliceRetire (b : Block) (k : Nat) : Block :=
  let b1 := (((b.clrBit SWC_STAT_INSVC k).setBit SWC_STAT_RETS k).shareUpdate.putB SWC_CAUSE_SLICE true).raise evSpareUsed
  if b1.sliceShort then b1.lastSlice else b1

/-- A spare row joins in place of a retired row (R292). -/
def Block.rowJoin (b : Block) (p : Nat × Nat × Option Nat) : Block :=
  let b1 := (b.put (spareLeft p.1) (b.get (spareLeft p.1) - 1)).putB SWC_CAUSE_SPARE true
  (((b1.put SWC_ECCADDR_SLICE p.1).put SWC_ECCADDR_ROW p.2.1)).raise evSpareUsed

/-- Spare rows join for a list of retired rows. -/
def Block.rowJoins (b : Block) : List (Nat × Nat × Option Nat) → Block
  | [] => b
  | p :: r => (b.rowJoin p).rowJoins r

/-- The spare rows whose time has come outside cycles join (R292). -/
def Block.rowSettle (b : Block) : Block :=
  let due := fun (p : Nat × Nat × Option Nat) => (p.2.2.map (fun t => decide (t ≤ b.tm.phys))).getD false
  (b.mapSw (fun w => { w with rowPend := w.rowPend.filter (fun p => !due p) })).rowJoins (b.sw.rowPend.filter due)

/-- A row is retired: its free cells are no longer taken. A spare row joins at the next boundary, while RUN is 0 after 1 µs, and
without one its slice leaves (R292, R293). -/
def Block.rowOut (b : Block) (k row : Nat) : Block :=
  let b1 := (b.retire (rowChan k row)).mapSw (fun w => { w with rows := w.rows ++ [(k, row)] })
  let waiting := (b1.sw.rowPend.filter (fun p => p.1 == k)).length
  if b1.get (spareLeft k) ≤ waiting then (if bitAt (b1.get SWC_STAT_INSVC) k then b1.sliceRetire k else b1)
  else b1.mapSw (fun w => { w with rowPend := w.rowPend ++
    [(k, row, if b1.cycling then none else some (b1.tm.phys + 1000 * nsUnit))] })

/-- An upset of a row: a strike, and at the threshold the row's retirement (R292, R293). -/
def Block.rowStrike (b : Block) (k row : Nat) : Block :=
  let c := rowChan k row
  if b.retires c then (b.strike c).rowOut k row else b.strike c

/-- A cell error met on a read (R272, R273). -/
def Block.cellUpset (b : Block) (u : CellUpset) : Block :=
  let b1 := (((b.put SWC_ECCADDR_SLICE u.slice).put SWC_ECCADDR_ROW u.row).put SWC_ECCADDR_CELL u.cell).putB SWC_ECCADDR_UE u.ue
  let b2 := if u.ue then ((b1.putB SWC_CAUSE_UE true).countUp (SWC_G_CNT 3) 1).raise evSumpUe
    else ((b1.putB SWC_CAUSE_CE true).countUp (SWC_G_CNT 2) 1).raise evSumpCe
  b2.rowStrike u.slice u.row

/-- The cell errors of a list. -/
def Block.cellUpsets (b : Block) : List CellUpset → Block
  | [] => b
  | u :: r => (b.cellUpset u).cellUpsets r

/-- The cell of an error is one of a frame's. -/
def SFrame.hit (f : SFrame) (u : CellUpset) : Bool := f.cells.contains (u.slice.val, 16 * u.row.val + u.cell.val)

/-- The cells of a frame are read (R272, R273): the errors of a list that strike them, and those that an earlier read of them
has met, as a cell keeps its error until it is freed. What becomes of the copy: 0 sent, 1 discarded, as an uncorrectable
error came before its first byte, 2 stomped. -/
def Block.readCells (b : Block) (id : Nat) (ups : List CellUpset) : Block × Nat :=
  match b.frameOf id with
  | none => (b, 0)
  | some sf =>
    let errs := sf.errs ++ ups.filter (fun u => sf.hit u && !sf.errs.contains u)
    let b1 := b.mapSw (fun w => { w with frames := w.frames.map (fun f => if f.id = id then { f with errs := errs } else f) })
    ((b1.cellEvents 3 sf).cellUpsets errs, if errs.any (fun u => u.ue && u.first) then 1 else if errs.any (·.ue) then 2 else 0)

/-- Clear the strikes of the rows of a slice (R293). -/
def Block.clearRowHistory (b : Block) (k : Nat) : Block :=
  { b with strikes := b.strikes.filter (fun e => !(e.1.kind == 2 && e.1.idx / 3584 == k)) }

/-- Slices return to service (R293); in LEAN only slices 0 and 1 can. -/
def Block.slicesIn (b : Block) (mask : BitVec 4) : Block :=
  let m := if b.profile == 3 then mask.toNat % 4 else mask.toNat
  (b.put SWC_STAT_INSVC (Nat.lor (b.get SWC_STAT_INSVC) m)).shareUpdate

/-- The retired rows of a slice return, with all 16 spares (R293). -/
def Block.rowsBack (b : Block) (k : Nat) : Block :=
  let b1 := { b with
    retired := b.retired.filter (fun c => !(c.kind == 2 && c.idx / 3584 == k))
    retRec := b.retRec.filter (fun c => !(c.kind == 2 && c.idx / 3584 == k)) }
  let b2 := (b1.clearRowHistory k).mapSw (fun w => { w with
    rows := w.rows.filter (fun p => p.1 ≠ k), rowPend := w.rowPend.filter (fun p => p.1 ≠ k) })
  (b2.put (spareLeft k) 16).put SYS_RETIRED_KIND b2.retireBits

/-- The rows of several slices return. -/
def Block.rowsBackAll (b : Block) (mask : BitVec 4) : List Nat → Block
  | [] => b
  | k :: r => (if mask.getLsbD k then b.rowsBack k else b).rowsBackAll mask r

/-- Write 1 to bits of SWC_STAT.RETS (R293). -/
def Block.sliceReturn (mask : BitVec 4) (b : Block) : Block :=
  let m := mask &&& BitVec.ofNat 4 (b.get SWC_STAT_RETS)
  let b1 := (List.range 4).foldl (fun x k => if m.getLsbD k then x.clearRowHistory k else x)
    (b.put SWC_STAT_RETS (clrMaskN (b.get SWC_STAT_RETS) m.toNat))
  if b1.cycling then b1.mapSw (fun w => { w with sliceBack := w.sliceBack ||| m }) else b1.slicesIn m

/-- SLICE_RETURN. -/
def execSliceReturn (mask : BitVec 4) (s : State) : Host.Outcome State Fault Refusal :=
  done s (byHost (.sliceReturn mask) (Block.sliceReturn mask))

/-- Write SWC_SPARE.CLR (R293). -/
def Block.spareClear (mask : BitVec 4) (b : Block) : Block :=
  if b.cycling then b.mapSw (fun w => { w with spareBack := w.spareBack ||| mask })
  else b.rowsBackAll mask (List.range 4)

/-- SPARE_ROW_CLEAR. -/
def execSpareRowClear (mask : BitVec 4) (s : State) : Host.Outcome State Fault Refusal :=
  done s (byHost (.spareRowClear mask) (Block.spareClear mask))

/-- What the switch core does at every cycle boundary: rows join, slices and rows return (R292, R293). -/
def Block.swTurn (b1 : Block) : Block :=
  let b2 := (b1.mapSw (fun w => { w with rowPend := [] })).rowJoins b1.sw.rowPend
  let b3 := if b2.sw.sliceBack = 0 then b2
    else Block.slicesIn (b2.mapSw (fun w => { w with sliceBack := 0 })) b2.sw.sliceBack
  Block.rowsBackAll (b3.mapSw (fun w => { w with spareBack := 0, minFree := reservedPool b3.profile - b3.resvUsed }))
    b3.sw.spareBack (List.range 4)

/-! ### Elimination of duplicates (R281) -/

/-- A stream table entry that nothing has written. -/
def Stream.empty : Stream :=
  { da := 0, vid := 0, valid := false, hist := 32, reset := 100, strip := false, last := none, seen := 0, lastAt := 0 }

/-- The R-TAG of IEEE 802.1CB stands after the 802.1Q tag: EtherType, two reserved bytes, number. -/
def rTag (l : List Byte) : Option Nat :=
  let o := typePos l
  if beAt l o 2 == 0xF1C1 then some (beAt l (o + 4) 2) else none

/-- What vector recovery says of a sequence number: 0 accepted, 1 duplicate, 2 rogue; and the entry after. -/
def recover (t : Stream) (now q : Nat) : Nat × Stream :=
  let fresh : Stream := { t with last := some q, seen := 1, lastAt := now }
  match t.last with
  | none => (0, fresh)
  | some p =>
    if t.lastAt + t.reset * 1000000 * nsUnit ≤ now then (0, fresh)
    else
      let d := toSigned 16 (q + 2 ^ 16 - p)
      if 0 < d then
        (0, { t with last := some q, seen := (t.seen * 2 ^ d.toNat + 1) % 2 ^ t.hist, lastAt := now })
      else
        let k := (-d).toNat
        if t.hist < k then (2, t)
        else if k < t.hist && bitAt t.seen k then (1, t)
        else (0, { t with seen := (if k < t.hist then setBitN t.seen k else t.seen), lastAt := now })

/-- Elimination on a received frame: the frame that goes on, if it does. -/
def Block.eliminate (b : Block) (f : InFrame) : Block × Option InFrame :=
  if f.src ≠ 34 ∧ f.src ≠ 32 ∧ b.flag (SWC_PORT_CTL_ELIM f.src) then
    match b.sw.streams.find? (fun e => e.2.valid && e.2.da == beAt f.bytes 0 6 && e.2.vid == f.vid) with
    | none => (b, some f)
    | some (i, t) =>
      match rTag f.bytes with
      | none => (b.countUp (SWC_S_CNT f.src 6) 1, some f)
      | some q =>
        let (r, t1) := recover t b.tm.phys q
        let b1 := b.mapSw (fun w => { w with streams := sput (fun _ => Stream.empty) w.streams i t1 })
        if r = 1 then (b1.countUp (SWC_S_CNT f.src 4) 1, none)
        else if r = 2 then (b1.countUp (SWC_S_CNT f.src 5) 1, none)
        else
          let o := typePos f.bytes
          (b1, some (if t.strip then { f with bytes := f.bytes.take o ++ f.bytes.drop (o + 6) } else f))
  else (b, some f)

/-! ### The FDB (R275, R276) -/

/-- The entry of an address and VID. -/
def Block.fdbFind (b : Block) (mac vid : Nat) : Option Fdb := b.sw.fdb.find? (fun e => e.mac == mac && e.vid == vid)

/-- The bucket of an address and VID, of 16,384. -/
def bucketOf (mac vid : Nat) : Nat := Config.fdbBucket mac vid % 16384

/-- The bucket of a key holds four entries. -/
def Block.fdbFull (b : Block) (mac vid : Nat) : Bool :=
  decide (4 ≤ (b.sw.fdb.filter (fun e => bucketOf e.mac e.vid == bucketOf mac vid)).length)

/-- Remove the entry of a key. -/
def Block.fdbDrop (b : Block) (mac vid : Nat) : Block :=
  b.mapSw (fun w => { w with fdb := w.fdb.filter (fun e => !(e.mac == mac && e.vid == vid)) })

/-- Add an entry in place of that of its key. -/
def Block.fdbPut (b : Block) (e : Fdb) : Block := (b.fdbDrop e.mac e.vid).mapSw (fun w => { w with fdb := w.fdb ++ [e] })

/-- Learn a source address against source `s`. -/
def Block.learn (b : Block) (s : Nat) (f : InFrame) : Block :=
  let sa := beAt f.bytes 6 6
  if bitAt sa 40 then b
  else
    match b.fdbFind sa f.vid with
    | some e => if e.stat then b else b.fdbPut { e with mask := 2 ^ s, seen := b.tm.phys }
    | none =>
      if b.fdbFull sa f.vid then b.countUp (SWC_G_CNT 1) 1
      else b.fdbPut { mac := sa, vid := f.vid, mask := 2 ^ s, stat := false, seen := b.tm.phys }

/-- A port forwards: SWC_PORTn_CTL.STP is FORWARD and it is not in ring mode. -/
def Block.forwards (b : Block) (p : Nat) : Bool :=
  b.get (SWC_PORT_CTL_STP p) == 2 && !(decide (p < 32) && b.flag (MAC_CFG_RING p))

/-- The target egresses of a frame by R275, steps 4 to 6. GALLERY is no port and has no state. -/
def Block.targets (b : Block) (f : InFrame) : List Nat :=
  if f.src < 34 && !(b.forwards f.src && b.flag (SWC_PORT_CTL_EN f.src)) then []
  else
    let mask := if f.port < 34 then 2 ^ f.port else
      match b.fdbFind (beAt f.bytes 0 6) f.vid with
      | some e => e.mask
      | none => b.vlanMask f.vid
    (List.range 34).filter (fun p => bitAt mask p && p ≠ f.src && b.forwards p)

/-! ### Copies (R277, R278, R289) -/

/-- Table 1-7 forwards frames of a kind in cut-through. -/
def Block.cutKind (b : Block) (sch : Bool) : Bool := b.profile == 0 || (b.profile == 1 && sch)

/-- Class `c` of MAC `n` is paused by the neighbour (R315). -/
def Block.pausedClass (b : Block) (n c : Nat) : Bool :=
  decide (b.tm.phys < (b.mac n).allUntil) || (c < 8 && decide (b.tm.phys < (b.mac n).clsUntil[c]?.getD 0))

/-- The queue that a frame enters at an egress. -/
def queueOf (f : InFrame) (p : Nat) : Nat := if f.sch && p < 32 then 8 else f.cls

/-- A frame is cut through to egress `p` (R289). -/
def Block.cutsTo (b : Block) (f : InFrame) (p : Nat) : Bool :=
  match macOf p with
  | none => false
  | some n =>
    b.cutKind f.sch && (match macOf f.src with | some m => decide (b.gbps n ≤ b.gbps m) | none => true) &&
      b.queueCells p (queueOf f p) == 0 && !b.pausedClass n (queueOf f p)

/-- A copy is held: its queue is at its limit, or an earlier copy waits for it (R278). -/
def Block.mustHold (b : Block) (p c : Nat) : Bool :=
  c < 8 && (bitAt (b.get (SWC_PORT_STAT_EQX p)) c || b.sw.held.any (fun x => x.port == p && x.cls == c))

/-- Place one copy of a stored frame at each egress of a list. -/
def Block.placeCopies (b : Block) (f : InFrame) (id : Nat) (multi : Bool) : List Nat → Block
  | [] => b
  | p :: r =>
    let c := queueOf f p
    let cut := b.cutsTo f p
    let x : Copy := { fid := id, port := p, cls := c, seq := 0, cut := cut
                      opened := decide (p < 32) && c == 8 && b.flag (SWC_PORT_STAT_GATE p)
                      multi := multi, since := b.tm.phys, fetched := false, passed := false, behind := 0 }
    let b1 := b.fabEvent (if cut then 4 else 5) 1 (fun q => q == p || q == 63)
    (if b.mustHold p c then b1.mapSw (fun w => { w with held := w.held ++ [x] }) else b1.enqueue x f.src).placeCopies
      f id multi r

/-- Count the excluded targets (R278). -/
def Block.countExcl (b : Block) (f : InFrame) : List Nat → Block
  | [] => b
  | p :: r => (b.countUp (SWC_EC_CNT p (queueOf f p) 5) 1).countExcl f r

/-- Count the frames discarded at fenced ports (R507). -/
def Block.countFenced (b : Block) (f : InFrame) : List Nat → Block
  | [] => b
  | p :: r => (b.countUp (SWC_EC_CNT p (queueOf f p) 2) 1).countFenced f r

/-- A frame goes to its targets: exclusions, fenced ports, cells and copies (R277, R278, R507). -/
def Block.place (b : Block) (f : InFrame) (ts : List Nat) : Block :=
  let (up0, down) := ts.partition b.egressUp
  let (shut, up) := up0.partition b.fenced
  let b1 := (b.countExcl f down).countFenced f shut
  let go := if f.bad = 0 then up else up.filter (b.cutsTo f)
  if go.isEmpty then (if f.bad = 0 && f.src < 35 && shut.isEmpty then b1.countUp (SWC_S_CNT f.src 0) 1 else b1)
  else
    let (b2, id) := b1.store f f.sch
    (b2.setRefs id (fun _ => go.length)).placeCopies f id (decide (1 < go.length)) go

/-- The forwarding decision and what follows from it (R275). -/
def Block.forward (b : Block) (f : InFrame) : Block := b.place f (b.targets f)

/-- The cells of a frame would raise its source above its share (R288). -/
def Block.overShare (b : Block) (f : InFrame) : Bool := decide (b.effOf f.src < b.occOf f.src + cellsFor f.size)

/-- A frame is refused whole (R288). -/
def Block.refuse (b : Block) (s : Nat) : Block :=
  (((b.countUp (SWC_S_CNT s 1) 1).putB SWC_CAUSE_PIGN true).put SWC_CAUSE_SRC s).raise evPauseIgnored

/-- A received frame that another unit directs to HOST. -/
def Block.deliverHost (b : Block) (f : InFrame) : Block := if b.overShare f then b.refuse f.src else b.place f [32]

/-- A mailbox frame of ring `r` in one direction (R240, Table 7-6): its EtherType, subtype 0x03, DIR, and no longer than MAX. -/
def Block.isMail (b : Block) (r : Nat) (up : Bool) (l : List Byte) : Bool :=
  beAt l 12 2 == b.etype && beAt l 14 1 == 3 && bitAt (beAt l 15 1) 5 == up && decide (l.length ≤ b.get (ZRG_MBX_MAX r))

/-- A DMA2 frame to a ring's port (R259): a mailbox frame waits in its class queue, any other is discarded. -/
def Block.mailIn (b : Block) (f : InFrame) (r : Nat) : Block :=
  if b.isMail r false f.bytes && b.get (ZRG_CFG_PORT r) == f.port then
    let (b1, id) := b.store f false
    (b1.setRefs id (fun _ => 1)).placeCopies f id false [f.port]
  else b.ringDisc r

/-- A frame at the Sump: elimination, the refusals of R288 and R294, learning, and the decision. A bad frame that is not cut
through is discarded before any of these (R289); an ESMC frame goes to HOST (R397). -/
def Block.takeIn (b : Block) (f0 : InFrame) (unwritable : Bool) : Block :=
  if f0.bad ≠ 0 && !b.cutKind false then b
  else if f0.src ≠ 32 && f0.port = 32 then (if f0.bad = 0 then b.deliverHost f0 else b)
  else match b.eliminate f0 with
  | (b1, none) => b1
  | (b1, some f) =>
    let s := f.src
    let received := s < 32 || s == 33
    let rg := if s == 32 && f.port < 32 && b1.flag (MAC_CFG_RING f.port) then b1.ringOf f.port else none
    if rg.isSome then b1.mailIn f (rg.getD 0)
    else if received && b1.overShare f then b1.refuse s
    else if unwritable && s < 32 && b1.sliceShort then b1.countUp (SWC_S_CNT s 2) 1
    else
      let learns := s < 34 && b1.get (SWC_PORT_CTL_STP s) != 0 && b1.flag (SWC_PORT_CTL_EN s)
      (if learns then b1.learn s f else b1).forward f

/-- FRAME_INGRESS: the frame at the head of the queue before the Sump. `unwritable` says that a cell of
it could not be written in its CORE clock, which only R294 lets happen; `late` by how many ns a fault of the core delays its
last cell (R280; 0 without a fault). -/
def execFrameIngress (unwritable : Bool) (late : Nat) (s : State) : Host.Outcome State Fault Refusal :=
  done s fun b0 =>
    let b := b0.rowSettle
    match b.sw.ingress with
    | [] => b
    | f :: r =>
      let b1 := b.mapSw (fun w => { w with ingress := r })
      Block.takeIn b1 { f with rxEnd := if late = 0 then f.rxEnd else max f.rxEnd b.tm.phys + late * nsUnit } unwritable

/-! ### Held copies (R278) -/

/-- The first held copy whose queue accepts it. -/
def Block.heldReady (b : Block) : Option Copy :=
  b.sw.held.find? (fun x =>
    !bitAt (b.get (SWC_PORT_STAT_EQX x.port)) x.cls &&
      (match b.sw.held.find? (fun y => y.port == x.port && y.cls == x.cls) with | some y => y == x | none => false))

/-- HELD_COPY_ENQUEUE. -/
def execHeldCopyEnqueue (s : State) : Host.Outcome State Fault Refusal :=
  done s fun b =>
    match b.heldReady with
    | none => b
    | some x =>
      match b.frameOf x.fid with
      | none => b
      | some sf =>
        if b.fenced x.port then (b.dropCopy x).countUp (SWC_EC_CNT x.port x.cls 2) 1
        else (b.mapSw (fun w => { w with held := w.held.filter (fun y => ! sameCopy x y) })).enqueue x sf.f.src

/-- MC_HOLD_EXPIRE: the multicast copy held longest has been held for SWC_MC.HOLD µs. -/
def execMcHoldExpire (s : State) : Host.Outcome State Fault Refusal :=
  done s fun b =>
    match b.sw.held.find? (·.multi) with
    | none => b
    | some x =>
      let b1 := b.reachPhys (x.since + b.get SWC_MC_HOLD * 1000 * nsUnit)
      (((((b1.dropCopy x).countUp (SWC_EC_CNT x.port x.cls 4) 1).putB SWC_CAUSE_MCP true).put SWC_CAUSE_PORT x.port)).raise
        evMcPartial

/-! ### Transmission (R282, R283, R289, R290) -/

/-- A copy may begin to leave: it is cut through, or its frame is whole (R289). -/
def Block.mayLeave (b : Block) (x : Copy) : Bool := x.cut || decide (b.wholeAt x ≤ b.tm.phys)

/-- The source of a copy's frame. -/
def Block.srcOf (b : Block) (x : Copy) : Option Nat := (b.frameOf x.fid).map (fun sf => sf.f.src)

/-- The first copy that may leave and has no earlier one of its flow before it that has not been passed over (R279). -/
def Block.headIn (b : Block) : List (Option Nat) → List Copy → Option Copy
  | _, [] => none
  | late, x :: r =>
    if x.passed then b.headIn late r
    else if b.mayLeave x && !late.contains (b.srcOf x) then some x
    else b.headIn (b.srcOf x :: late) r

/-- The copies queued in a class of an egress. -/
def Block.queue (b : Block) (p c : Nat) : List Copy := b.sw.copies.filter (fun x => x.port == p && x.cls == c)

/-- The next copy of a queue. -/
def Block.headOf (b : Block) (p c : Nat) : Option Copy := b.headIn [] (b.queue p c)

/-- The first copy in a queue that flow control lets go. -/
def Block.headFree (b : Block) (p n c : Nat) : Option Copy := if b.pausedClass n c then none else b.headOf p c

/-- The strict classes, from 7 down. -/
def Block.strictHead (b : Block) (p n : Nat) : Option Copy :=
  ((List.range (b.get (SWC_PORT_SCHED_SPN p))).map (7 - ·)).findSome? (b.headFree p n)

/-- WEIGHTc of an egress. -/
def weightOf (p c : Nat) : Field := { SWC_PORT_SCHED_WEIGHT0 p with lo := 4 + 8 * c }

/-- Bytes of a copy's frame. -/
def Block.copyBytes (b : Block) (x : Copy) : Nat := ((b.frameOf x.fid).map (fun sf => sf.f.size)).getD 0

/-- Weighted round robin from the class whose turn it is: a class with credit sends; when none has
credit, every class receives that of a round (R282). `fuel` bounds the rounds. -/
def Block.wrr (b : Block) (p n k : Nat) : Nat → Block × Option Copy
  | 0 => (b, none)
  | fuel + 1 =>
    let t := sget (fun _ => 0) b.sw.turn p
    let order := (List.range k).map (fun i => (t + i) % k)
    match order.find? (fun c => (b.headFree p n c).isSome && decide (0 < sget (fun _ => (0 : Int)) b.sw.credit (p * 8 + c))) with
    | some c =>
      match b.headFree p n c with
      | some x =>
        let cr := sget (fun _ => (0 : Int)) b.sw.credit (p * 8 + c) - b.copyBytes x
        (b.mapSw (fun w => { w with
          credit := sput (fun _ => 0) w.credit (p * 8 + c) cr
          turn := sput (fun _ => 0) w.turn p (if 0 < cr then c else (c + 1) % k) }), some x)
      | none => (b, none)
    | none =>
      Block.wrr (b.mapSw (fun w => { w with
        credit := (List.range k).foldl (fun m c => sput (fun _ => (0 : Int)) m (p * 8 + c)
          (if (b.headOf p c).isSome then sget (fun _ => (0 : Int)) m (p * 8 + c) + b.get (weightOf p c) * 256
            else 0)) w.credit })) p n k fuel

/-- The round robin, where some of its classes may send. -/
def Block.wrrHead (b : Block) (p n : Nat) : Block × Option Copy :=
  let k := 8 - b.get (SWC_PORT_SCHED_SPN p)
  if (List.range k).any (fun c => (b.headFree p n c).isSome) then b.wrr p n k 64 else (b, none)

/-- The next frame of an egress (R282). -/
def Block.nextCopy (b : Block) (p n : Nat) : Block × Option Copy :=
  let gate := decide (p < 32) && b.flag (SWC_PORT_STAT_GATE p)
  match (if gate then b.headFree p n 8 else none) with
  | some x => (b, some x)
  | none =>
    if gate && b.flag (SWC_PORT_CTL_EXCL p) then (b, none)
    else match b.strictHead p n with
      | some x => (b, some x)
      | none => b.wrrHead p n

/-- A transmission ends complete or stomped: its counters, its stamp record, its copy's end. -/
def Block.txFinish (b : Block) (n : Nat) (t : TxNow) : Block :=
  let p := t.x.port
  let b1 := Block.release (b.mapSw (fun w => { w with tx := w.tx.filter (fun y => y ≠ t) })) t.x.fid
  if t.code ≠ 0 then b1.stompShow p t.code
  else
    let b2 := ((b1.countUp (SWC_EC_CNT p t.x.cls 1) 1).countTx n t.bytes).macCount n 42 (b2n t.ltag)
    if 32 ≤ n then b2 else if t.one then b2.ptpCount n 1 else b2.tsRecord n t.w t.bytes

/-- Begin to transmit a copy that has left its queue. -/
def Block.txBegin (b : Block) (n : Nat) (x : Copy) (sf : SFrame) (ue : Bool) : Block :=
  let w := b.txStamp n
  let (l, lt) := b.lineTagOut n x.cls w (b.tagOut n sf.f)
  let (m, one) := if n < 32 then b.ptpOut n sf.f w l else (l, false)
  let code := if ue then 3 else sf.f.bad
  let t : TxNow := { x := x, bytes := m, code := code, w := w, ltag := lt, one := one
                     ends := b.tm.phys + b.wireTime n (m.length + 4) }
  (b.emit (.frame x.port x.cls m (code != 0))).mapSw (fun w => { w with tx := w.tx ++ [t] })

/-- The transmission in progress at an egress. -/
def Block.txOf (b : Block) (p : Nat) : Option TxNow := b.sw.tx.find? (fun t => t.x.port == p)

/-- A copy leaves its queue; its frame's count stays. -/
def Block.unqueue (b : Block) (x : Copy) : Block :=
  (b.mapSw (fun w => { w with copies := w.copies.filter (fun y => ! sameCopy x y) })).queueUpdate x.port x.cls

/-- Count a copy that an uncorrectable error has discarded (R273). -/
def Block.ueDrop (b : Block) (p c : Nat) : Block := b.countUp (SWC_EC_CNT p c 6) 1

/-- An egress fetches the cells of its first queued frames ahead of transmission (R279), `k` of them having gone before: each copy
that has not been fetched is read, with the errors of `ups` that name its place. One that meets an uncorrectable error before
its first byte is dropped. -/
def Block.fetchAhead (b : Block) (p : Nat) (ups : List CellUpset) : Nat → List Copy → Block
  | _, [] => b
  | k, x :: r =>
    if 64 ≤ k then b
    else if x.fetched || !b.mayLeave x then b.fetchAhead p ups (k + 1) r
    else
      let (b1, st) := b.readCells x.fid (ups.filter (fun u => u.ahead.val == k))
      let b2 := b1.mapSw (fun w => { w with copies := w.copies.map (fun y => if sameCopy x y then { y with fetched := true } else y) })
      (if st = 1 then (b2.dropCopy x).ueDrop p x.cls else b2).fetchAhead p ups (k + 1) r

/-- A copy that leaves has waited on resequencing: it was queued and whole while one of its flow before it was not (event 7 of
Table 16-4). -/
def Block.resequenced (b : Block) (x : Copy) : Block :=
  b.fabEvent 7 (b2n (decide (max x.since (b.wholeAt x) < x.behind))) (fun q => q == x.port || q == 63)

/-- An egress takes its next frame (R282), with the errors that its fetches have met (R272, R273). -/
def Block.transmit (b0 : Block) (p n : Nat) (ups : List CellUpset) : Block :=
  let b := b0.fetchAhead p ups 0 (b0.sw.copies.filter (fun x => x.port == p))
  match b.nextCopy p n with
  | (b1, none) => b1
  | (b1, some x) =>
    match b1.frameOf x.fid with
    | none => b1
    | some sf => ((b1.unqueue x).resequenced x).txBegin n x sf (sf.errs.any (·.ue))

/-- A frame that completes after its number was passed over is discarded and counted as the skip was (R280). -/
def Block.passedDone (b : Block) : List Copy → Block
  | [] => b
  | x :: r => ((b.dropCopy x).countUp (SWC_E_CNT x.port 1) 1).passedDone r

/-- The passed copies of an egress that have completed by now. -/
def Block.passedSettle (b : Block) (p : Nat) : Block :=
  b.passedDone (b.sw.copies.filter (fun x => x.port == p && x.passed && decide (b.wholeAt x ≤ b.tm.phys)))

/-- The instant at which an egress has a copy that may leave: now, or when the first of its queued frames is whole. -/
def Block.leaveAt (b : Block) (p : Nat) : Nat :=
  let q := b.sw.copies.filter (fun x => x.port == p && !x.passed)
  if q.any b.mayLeave then b.tm.phys else ((q.map b.wholeAt).min?).getD b.tm.phys

/-- FRAME_TRANSMIT: the transmission in progress at an egress ends, and the next one begins. -/
def execFrameTransmit (p : Fin 34) (ups : List CellUpset) (s : State) : Host.Outcome State Fault Refusal :=
  done s fun b =>
    match macOf p with
    | none => b
    | some n =>
      let b0 := match b.txOf p with | some t => (b.reachPhys t.ends).txFinish n t | none => b
      let b1 := ((b0.reachPhys (b0.leaveAt p)).rowSettle).passedSettle p
      if b1.egressUp p && !(n < 32 && b1.flag (MAC_CFG_RING n)) && !b1.fenced p then b1.transmit p n ups else b1

/-! ### The Siphon (R280) -/

/-- The copy that a later copy of its flow waits for, and when that one became ready: the first that will not be complete
SWC_RESEQ.TMO µs after it (R280). -/
def Block.missing (b : Block) (p c : Nat) : Option (Copy × Nat) :=
  let q := (b.queue p c).filter (fun x => !x.passed)
  q.findSome? (fun x =>
    let later := (q.dropWhile (fun y => y ≠ x)).filter (fun y => b.srcOf y == b.srcOf x && y ≠ x)
    ((later.map (fun y => max y.since (b.wholeAt y))).min?).bind (fun t =>
      if t + b.get SWC_RESEQ_TMO * 1000 * nsUnit < b.wholeAt x && !x.cut then some (x, t) else none))

/-- RESEQ_TIMEOUT: the next frame of a flow has not completed in SWC_RESEQ.TMO µs, after a fault of the
core; its number is passed over. -/
def execReseqTimeout (p : Fin 34) (c : Fin 9) (s : State) : Host.Outcome State Fault Refusal :=
  done s fun b0 =>
    let b := b0.passedSettle p
    match b.missing p c with
    | none => b
    | some (x, t) =>
      let b1 := b.reachPhys (t + b.get SWC_RESEQ_TMO * 1000 * nsUnit)
      let b2 := b1.mapSw (fun w => { w with copies := w.copies.map (fun y => if sameCopy x y then { y with passed := true } else y) })
      (((b2.countUp (SWC_E_CNT p 1) 1).putB SWC_CAUSE_RESEQ true).put SWC_CAUSE_PORT p).raise evReseqTimeout

/-! ### Ports up and down (R291, R319) -/

/-- Release every copy queued at or held for an egress, as FLUSHED. -/
def Block.flushCopies (b : Block) (p : Nat) : Block :=
  b.dropCounted 2 ((b.sw.copies ++ b.sw.held).filter (fun x => x.port == p))

/-- The frame in reception at a port is discarded: its copies that have begun to leave are stomped with cause RUNT, the others
released (R291). -/
def Block.rxAbort (b : Block) (s : Nat) : Block :=
  let mine := fun (b : Block) (id : Nat) =>
    ((b.frameOf id).map (fun sf => sf.f.src == s && decide (b.tm.phys < sf.f.rxEnd))).getD false
  let b1 := b.mapSw (fun w => { w with ingress := w.ingress.filter (fun f => !(f.src == s && decide (b.tm.phys < f.rxEnd))) })
  let b2 := (b1.sw.tx.filter (fun t => mine b t.x.fid)).foldl (fun x t => x.txFinish ((macOf t.x.port).getD 0) { t with code := 2 }) b1
  ((b2.sw.copies ++ b2.sw.held).filter (fun x => mine b x.fid)).foldl (fun x y => x.dropCopy y) b2

/-- An egress has become disabled: R291, with the link up or down. -/
def Block.portFlush (b : Block) (p : Nat) (linkUp : Bool) : Block :=
  if decide (p < 32) && b.flag (MAC_CFG_RING p) then b
  else
    let b := b.rxAbort p
    let b1 := match b.txOf p with
      | none => b
      | some t =>
        if t.ends ≤ b.tm.phys then b.txFinish (if p = 33 then 32 else p) t
        else if linkUp then b.txFinish 0 { t with code := 4 }
        else Block.release (b.mapSw (fun w => { w with tx := w.tx.filter (fun y => y ≠ t) })) t.x.fid
    let b2 := (b1.mapSw (fun w => { w with
      tx := w.tx.filter (fun y => y.x.port ≠ p)
      fdb := w.fdb.filter (fun e => e.stat || !bitAt e.mask p) })).flushCopies p
    ((b2.putB SWC_CAUSE_FLUSH true).put SWC_CAUSE_PORT p).raise evPortFlush

/-- SWC_PORTn_STAT.UP after a change of EN or of the link; a fall is a disable (R291). -/
def Block.upShow (b : Block) (p : Nat) (linkUp : Bool) : Block :=
  let up := b.egressUp p
  let was := b.flag (SWC_PORT_STAT_UP p)
  let b1 := b.putB (SWC_PORT_STAT_UP p) up
  if was && !up then b1.portFlush p linkUp else b1

/-- Write SWC_PORTn_CTL.EN. -/
def Block.portEn (p : Nat) (en : Bool) (b : Block) : Block := (b.putB (SWC_PORT_CTL_EN p) en).upShow p true

/-- PORT_DISABLE: SWC_PORTn_CTL.EN is written 0. -/
def execPortDisable (p : Fin 34) (s : State) : Host.Outcome State Fault Refusal := done s (Block.portEn p false)

/-! ### Table windows (R276, R296) -/

/-- FDB_AGE: the dynamic entry unused longest reaches AGE seconds (R276). -/
def execFdbAge (s : State) : Host.Outcome State Fault Refusal :=
  done s fun b =>
    match b.sw.fdb.filter (fun e => !e.stat) with
    | [] => b
    | e :: r =>
      if b.get SWC_AGE_AGE = 0 then b
      else
        let o := r.foldl (fun m x => if x.seen < m.seen then x else m) e
        (b.reachPhys (o.seen + b.get SWC_AGE_AGE * 10 ^ 9 * nsUnit)).fdbDrop o.mac o.vid

/-- The address and VID of the FDB window. -/
def Block.fdbKey (b : Block) : Nat × Nat := (b.get SWC_FDBKEY_MAC, b.get SWC_FDBKEY_VID)

/-- Write SWC_FDBCTL.WR. -/
def Block.fdbWrite (b : Block) : Block :=
  let (m, v) := b.fdbKey
  let full := (b.fdbFind m v).isNone && b.fdbFull m v && b.flag SWC_FDBDAT_VALID
  let b1 := if !b.flag SWC_FDBDAT_VALID then b.fdbDrop m v
    else if full then b
    else b.fdbPut { mac := m, vid := v, mask := b.get SWC_FDBDAT_MASK, stat := b.flag SWC_FDBDAT_STATIC, seen := b.tm.phys }
  (b1.putB SWC_FDBCTL_FULL full).putB SWC_FDBCTL_DONE true

/-- FDB_WRITE. -/
def execFdbWrite (s : State) : Host.Outcome State Fault Refusal :=
  done s (byHost .fdbWrite Block.fdbWrite)

/-- Write SWC_FDBCTL.DEL. -/
def Block.fdbDelete (b : Block) : Block := (b.fdbDrop b.fdbKey.1 b.fdbKey.2).putB SWC_FDBCTL_DONE true

/-- FDB_DELETE. -/
def execFdbDelete (s : State) : Host.Outcome State Fault Refusal :=
  done s (byHost .fdbDelete Block.fdbDelete)

/-- Write SWC_FDBCTL.LOOKUP. -/
def Block.fdbLookup (b : Block) : Block :=
  let e := b.fdbFind b.fdbKey.1 b.fdbKey.2
  let b1 := b.put SWC_FDBDAT_MASK ((e.map (·.mask)).getD 0)
  ((b1.putB SWC_FDBDAT_STATIC ((e.map (·.stat)).getD false)).putB SWC_FDBDAT_VALID e.isSome).putB SWC_FDBCTL_DONE true

/-- FDB_LOOKUP. -/
def execFdbLookup (s : State) : Host.Outcome State Fault Refusal :=
  done s (byHost .fdbLookup Block.fdbLookup)

/-- The member mask of a VID that nothing has written (R296). -/
def vlanReset (v : Nat) : Nat := if v = 1 then 0x3FFFFFFFF else 0

/-- Write SWC_VCTL.WR. -/
def Block.vlanWrite (b : Block) : Block :=
  b.mapSw (fun w => { w with vlan := sput vlanReset w.vlan (b.get SWC_VIDX_VID) (b.get SWC_VMEM_MASK) })

/-- VLAN_WRITE. -/
def execVlanWrite (s : State) : Host.Outcome State Fault Refusal :=
  done s (byHost .vlanWrite Block.vlanWrite)

/-- Write SWC_VCTL.RD. -/
def Block.vlanRead (b : Block) : Block := b.put SWC_VMEM_MASK (b.vlanMask (b.get SWC_VIDX_VID))

/-- VLAN_READ. -/
def execVlanRead (s : State) : Host.Outcome State Fault Refusal :=
  done s (byHost .vlanRead Block.vlanRead)

/-- Write SWC_ESCTL.WR: the entry with its recovery state at its start. -/
def Block.streamWrite (b : Block) : Block :=
  let t : Stream := { da := b.get SWC_ESKEY_DA, vid := b.get SWC_ESKEY_VID, valid := b.flag SWC_ESKEY_VALID
                      hist := b.get SWC_ESCFG_HIST, reset := b.get SWC_ESCFG_RESET, strip := b.flag SWC_ESCFG_STRIP
                      last := none, seen := 0, lastAt := 0 }
  b.mapSw (fun w => { w with streams := sput (fun _ => Stream.empty) w.streams (b.get SWC_ESIDX_IDX) t })

/-- STREAM_WRITE. -/
def execStreamWrite (s : State) : Host.Outcome State Fault Refusal :=
  done s (byHost .streamWrite Block.streamWrite)

/-- Write SWC_ESCTL.RD. -/
def Block.streamRead (b : Block) : Block :=
  let t := sget (fun _ => Stream.empty) b.sw.streams (b.get SWC_ESIDX_IDX)
  (((((b.put SWC_ESKEY_DA t.da).put SWC_ESKEY_VID t.vid).putB SWC_ESKEY_VALID t.valid).put SWC_ESCFG_HIST t.hist).put
    SWC_ESCFG_RESET t.reset).putB SWC_ESCFG_STRIP t.strip

/-- STREAM_READ. -/
def execStreamRead (s : State) : Host.Outcome State Fault Refusal :=
  done s (byHost .streamRead Block.streamRead)

end Sys2Proof.Machine
end

