-- ==== Sys2Proof/Machine/Dma.lean ====
section
/-! DEFINITION. The DMA engines (R87 to R93). The host's memory lies outside: a descriptor and the data read from it come
as operands, and what an engine writes leaves the block. -/

namespace Sys2Proof.Machine

/-! ### Descriptors (R88, R89, R91) -/

/-- The engine has a descriptor to work on: EN, no HALT, HEAD not at TAIL. -/
def Block.dmaReady (b : Block) (n : Nat) : Bool :=
  let size := 2 ^ b.get (DMA_SIZE_LOG2 n)
  b.flag (DMA_CTL_EN n) && !b.flag (DMA_CTL_HALT n) && b.get (DMA_HEAD_HEAD n) % size != b.get (DMA_TAIL_TAIL n) % size

/-- The host address of the descriptor at HEAD. -/
def Block.dmaAt (b : Block) (n : Nat) : Nat := b.get (DMA_BASE_ADDR n) * 4096 + b.get (DMA_HEAD_HEAD n) * 32

/-- A descriptor completes (R89, R100): STATUS last, HEAD advances, NOTIFY rings the doorbell. -/
def Block.dmaEnd (b : Block) (n : Nat) (notify : Bool) (status : Nat) : Block :=
  let b1 := b.emit (.hostWrite (b.dmaAt n + 24) (bytesOf status 0 8) false)
  let b2 := b1.put (DMA_HEAD_HEAD n) ((b.get (DMA_HEAD_HEAD n) + 1) % 2 ^ b.get (DMA_SIZE_LOG2 n))
  if notify then (b2.setBit HOST_DBCAUSE_DMA n).raise evSwDoorbell else b2

/-- STATUS with DONE and a CODE. -/
def dmaStatus (code : Nat) : Nat := 1 + code * 16

/-- The CODE of an invalid field, or 0 (R91): 3 RANGE, 4 LEN, 5 FIELD. Where several fields are invalid the smallest
code is given. -/
def descCode (n : Nat) (d : Desc) : Nat :=
  let len := d.len.toNat
  let badLen := if n ≤ 1 then len = 0 ∨ 1048576 < len else if n = 2 then len < 60 ∨ 9212 < len else len < 9216
  let badField := d.rsv || d.haddr.toNat % (if n = 3 then 64 else 8) != 0 ||
    (decide (2 ≤ n) && d.caddr != 0) || (n == 2 && decide (32 ≤ d.port.toNat) && d.port != 63)
  if n ≤ 1 ∧ lastWord < d.caddr.toNat + len - 1 then 3 else if badLen then 4 else if badField then 5 else 0

/-! ### Cavern transfers (R83, R85, R89) -/

/-- Bytes of a word in host memory: 16 in word format, 9 in packed format. -/
def dmaUnit (d : Desc) : Nat := if d.pack then 9 else 16

/-- DMA0: `k` words into Cavern from data read from the host. -/
def Block.dmaIn (b : Block) (w unit : Nat) (data : List Byte) : Nat → Block
  | 0 => b
  | k + 1 => ((b.cavSet w (BitVec.ofNat 72 (natOfBytes (data.take 9)))).fabCount 13 1).dmaIn (w + 1) unit (data.drop unit) k

/-- DMA1: `k` words from Cavern into host memory; a word with an uncorrectable error is poisoned, raises HOST_ERR and
counts on its page (R85). The result says whether there was one. -/
def Block.dmaOut (b : Block) (w unit addr : Nat) (bad : Bool) : Nat → Block × Bool
  | 0 => (b, bad)
  | k + 1 =>
    let ue := b.cavBad w
    let v := b.cavGet w
    let b1 := ((b.cavTouch w).fabCount 13 1).emit (.hostWrite addr (bytesOf v.toNat 0 unit) ue)
    (if ue then b1.hostErr 6 addr else b1).dmaOut (w + 1) unit (addr + unit) (bad || ue) k

/-! ### Frames (R90, R275) -/

/-- VID and PCP of a frame that a template or a host buffer holds (R275 step 1). -/
def ownTag (l : List Byte) : Nat × Option Nat :=
  if hasTag l then (beAt l 14 2 % 2 ^ 12, some (beAt l 14 2 / 2 ^ 13)) else (1, none)

/-- A frame of HOST or GALLERY on its way into the Sump. -/
def Block.ownFrame (b : Block) (src port cls : Nat) (sch : Bool) (cycle bad : Nat) (l : List Byte) : InFrame :=
  { src := src, bytes := l, vid := (ownTag l).1, pcp := (ownTag l).2, cls := cls, port := if port < 32 then port else 63
    sch := sch, cycle := cycle, bad := bad, stamp := b.stw, rxEnd := 0 }

/-- DMA2 puts a frame into the queue before the Sump; the FCS is appended there (R90, R270). -/
def Block.dmaFrame (b : Block) (d : Desc) (bad : Nat) (l : List Byte) : Block :=
  b.toCore (b.ownFrame 32 d.port.toNat d.cls.toNat false b.cyc.count bad l)

/-! ### DMA_DESCRIPTOR -/

/-- The descriptor at HEAD is carried out (R87 to R91). DMA2 waits while its source is in XOFF; a valid descriptor of DMA3
waits for a frame. -/
def Block.dmaRun (b : Block) (n : Nat) (d : Desc) (data : List Byte) : Block :=
  let code := descCode n d
  if code ≠ 0 then b.dmaEnd n d.notify (dmaStatus code)
  else if n = 0 then (b.dmaIn d.caddr.toNat (dmaUnit d) data d.len.toNat).dmaEnd n d.notify (dmaStatus 0)
  else if n = 1 then
    let (b1, bad) := b.dmaOut d.caddr.toNat (dmaUnit d) d.haddr.toNat false d.len.toNat
    b1.dmaEnd n d.notify (dmaStatus (if bad then 2 else 0))
  else if n = 2 then
    (if b.flag (SWC_IG_STAT_XOFF 32) then b else (b.dmaFrame d 0 (data.take d.len.toNat)).dmaEnd n d.notify (dmaStatus 0))
  else b

/-- DMA_DESCRIPTOR. -/
def execDmaDescriptor (n : Fin 4) (d : Desc) (data : List Byte) (ups : List (Nat × Bool)) (s : State) :
    Host.Outcome State Fault Refusal :=
  done s fun b => if b.dmaReady n then (b.upsets ups).dmaRun n d data else b

/-! ### DMA3 (R87, R89, R362) -/

/-- A frame as DMA3 delivers it: an event message received at a port carries bits [47:16] of its ingress STW (R362). -/
def Block.hostBytes (b : Block) (f : InFrame) : List Byte :=
  match (if f.src < 32 then ptpOf b.etype f.bytes else none) with
  | some p =>
    if ptpEvent (ptpType f.bytes p) then
      fixChecksum f.bytes (splice f.bytes (p.off + 16) (bytesBE (f.stamp.toNat / 2 ^ 16 % 2 ^ 32) 4)) p
    else f.bytes
  | none => f.bytes

/-- The next frame of egress HOST goes into a buffer (R87, R89), one that an uncorrectable error has met behind its first byte
with the complement of its FCS, as a stomped frame ends (R273, R290). RXPORT of a frame from no port 0 to 31 is a free value
(log entry 2). -/
def Block.dmaDeliver (b0 : Block) (d : Desc) (ups : List CellUpset) : Block :=
  let b := (b0.reachPhys (b0.leaveAt 32)).fetchAhead 32 ups 0 (b0.sw.copies.filter (fun x => x.port == 32))
  match b.nextCopy 32 40 with
  | (_, none) => b
  | (b1, some x) =>
    match b1.frameOf x.fid with
    | none => b1
    | some sf =>
      let l := b1.hostBytes sf.f
      let port := if sf.f.src < 32 then sf.f.src else b1.freeNext 31
      let b2 := ((if sf.f.src < 32 then b1 else b1.freeStep).unqueue x).resequenced x
      let ue := sf.errs.any (·.ue)
      let fcs := if ue then (fcsOf l).map (~~~ ·) else fcsOf l
      let b3 := (b2.emit (.hostWrite d.haddr.toNat (l ++ fcs) false)).release x.fid
      (if ue then b3.stompShow 32 3 else b3.countUp (SWC_EC_CNT 32 x.cls 1) 1).dmaEnd 3 d.notify
        (dmaStatus 0 + (l.length + 4) % 2 ^ 14 * 2 ^ 16 + port * 2 ^ 32 + sf.f.cls % 8 * 2 ^ 38)

/-- DMA3_FRAME_DELIVER. -/
def execDma3FrameDeliver (d : Desc) (ups : List CellUpset) (s : State) : Host.Outcome State Fault Refusal :=
  done s fun b => if b.dmaReady 3 && descCode 3 d == 0 && b.flag (SWC_PORT_CTL_EN 32) then b.dmaDeliver d ups else b

/-! ### Errors, disable and resume (R91 to R93) -/

/-- The engine stops without writing STATUS (R91). -/
def Block.dmaHalt (b : Block) (n err cause addr : Nat) : Block :=
  ((b.putB (DMA_CTL_HALT n) true).put (DMA_CTL_ERR n) err).hostErr cause addr

/-- DMA_CPL_TIMEOUT: HOST_CTO ms after the engine sent a read of host address `addr`. -/
def execDmaCplTimeout (n : Fin 4) (addr : Half) (s : State) : Host.Outcome State Fault Refusal :=
  done s fun b =>
    if b.dmaReady n then ((b.advanceNs (b.get HOST_CTO_MS * 1000000)).pciError 14).dmaHalt n 1 7 addr.toNat else b

/-- DMA_CPL_ERROR: the host answers with Unsupported Request, Completer Abort or a poisoned completion. -/
def execDmaCplError (n : Fin 4) (err : Fin 3) (addr : Half) (s : State) : Host.Outcome State Fault Refusal :=
  done s fun b => if b.dmaReady n then b.dmaHalt n (2 + err.val) 8 addr.toNat else b

/-- DMA0 stops within a word (R92): its first `k` bytes have arrived and replace those of the word (DESIGN CHOICE, log entry 73). -/
def Block.dmaInPart (b : Block) (w : Nat) (data : List Byte) (k : Nat) : Block :=
  if k = 0 then b
  else Block.fabCount (b.cavSet w (BitVec.ofNat 72 ((b.cavGet w).toNat / 256 ^ k * 256 ^ k + natOfBytes (data.take k)))) 13 1

/-- The bytes that DMA3 has written of the frame that it delivers, `moved` units of 64 (R92). The frame stays queued (DESIGN
CHOICE, log entry 73). -/
def Block.dmaOutPart (b : Block) (d : Desc) (moved : Nat) : Block :=
  match (b.nextCopy 32 40).2.bind (fun x => b.frameOf x.fid) with
  | some sf =>
    let l := b.hostBytes sf.f
    if moved = 0 then b else b.emit (.hostWrite d.haddr.toNat ((l ++ fcsOf l).take (64 * moved)) false)
  | none => b

/-- A descriptor is aborted with `moved` units of 64 bytes of its data moved (R92): what lies in them stays written, and a
part of a frame goes into the core as a runt. -/
def Block.dmaAbort (b : Block) (n : Nat) (d : Desc) (data : List Byte) (moved : Nat) : Block :=
  let u := dmaUnit d
  let bytes := min (d.len.toNat * u) (64 * moved)
  let words := bytes / u
  let part := bytes % u
  let b1 :=
    if descCode n d ≠ 0 then b
    else if n = 0 then
      (b.dmaIn d.caddr.toNat u data words).dmaInPart (d.caddr.toNat + words) (data.drop (words * u)) (min 9 part)
    else if n = 1 then
      let b2 := (b.dmaOut d.caddr.toNat u d.haddr.toNat false words).1
      if part = 0 then b2 else (b2.dmaOut (d.caddr.toNat + words) part (d.haddr.toNat + words * u) false 1).1
    else if n = 2 then (if moved = 0 then b else b.dmaFrame d 2 (data.take (min d.len.toNat (64 * moved))))
    else b.dmaOutPart d moved
  b1.dmaEnd n false (dmaStatus 1)

/-- A write of the low half of DMAn_CTL (R92, R93). An engine with a descriptor at HEAD works on it, so that clearing EN
ends that descriptor; of its data nothing has moved yet (DESIGN CHOICE, log entry 73: DMA_DISABLE is the case in which some
has). -/
def Block.dmaCtl (n : Nat) (data : Half) (b : Block) : Block :=
  let b0 := if b.dmaReady n && !data.getLsbD 0 then b.dmaEnd n false (dmaStatus 1) else b
  let b1 := b0.putB (DMA_CTL_EN n) (data.getLsbD 0)
  if data.getLsbD 8 then (b1.putB (DMA_CTL_HALT n) false).put (DMA_CTL_ERR n) 0 else b1

/-- DMA_DISABLE: EN is cleared; a descriptor in progress ends with ABORT. -/
def Block.dmaDisableAct (n : Fin 4) (prog : Option (Desc × List Byte)) (moved : Nat) (b : Block) : Block :=
    let b1 := match prog with
      | some (d, data) => if b.dmaReady n then b.dmaAbort n d data moved else b
      | none => b
    b1.putB (DMA_CTL_EN n) false

/-- DMA_DISABLE. -/
def execDmaDisable (n : Fin 4) (prog : Option (Desc × List Byte)) (moved : Nat) (s : State) : Host.Outcome State Fault Refusal :=
  done s (byHost (.dmaDisable n prog moved) (Block.dmaDisableAct n prog moved))

/-- DMA_RESUME: a write of DMAn_CTL with RESUME 1. -/
def execDmaResume (n : Fin 4) (data : Half) (s : State) : Host.Outcome State Fault Refusal :=
  done s (byHost (.dmaResume n data) (Block.dmaCtl n (data ||| 256)))

end Sys2Proof.Machine
end

