-- ==== Sys2Proof/Machine/Float.lean ====
section
/-! DEFINITION. Conversion of exact dyadic numbers n × 2^k to IEEE 754 binary32 (R201) and to
binary16 (R602). -/

namespace Sys2Proof.Machine

/-- The quotient n / 2^s rounded to nearest, ties to even. -/
def divPow (n s : Nat) : Nat :=
  let q := n / 2 ^ s
  let r := n % 2 ^ s
  let up := decide (2 ^ s < 2 * r) || (2 * r == 2 ^ s && q % 2 == 1)
  if s = 0 then n else if up then q + 1 else q

/-- A magnitude n × 2^k (n > 0) rounded to `p` significant bits, to nearest even: mantissa in
[2^(p−1), 2^p) and the exponent of its last bit. -/
def roundSig (p n : Nat) (k : Int) : Nat × Int :=
  let len := Nat.log2 n + 1
  if len ≤ p then (n * 2 ^ (p - len), k - ((p - len : Nat) : Int))
  else
    let s := len - p
    let q := divPow n s
    if q = 2 ^ p then (2 ^ (p - 1), k + (s : Int) + 1) else (q, k + (s : Int))

/-- binary32 of a magnitude n × 2^k, without its sign: a magnitude above the largest finite value
gives that value (R201). -/
def f32Mag (n : Nat) (k : Int) : Nat :=
  if n = 0 then 0
  else
    let (m, e) := roundSig 24 n k
    if 104 < e then 0x7F7FFFFF
    else if -149 ≤ e then ((e + 149).toNat + 1) * 2 ^ 23 + (m - 2 ^ 23)
    else if -149 ≤ k then n * 2 ^ (k + 149).toNat
    else divPow n (-149 - k).toNat

/-- binary32 of n × 2^k. -/
def toF32 (n : Int) (k : Int) : Nat := f32Mag n.natAbs k + (if n < 0 then 2 ^ 31 else 0)

/-- binary16 of a magnitude n × 2^k by R602: saturating at 65,504, zero below 2^-14. -/
def f16Mag (n : Nat) (k : Int) : Nat :=
  if n = 0 then 0
  else
    let (m, e) := roundSig 11 n k
    if 5 < e then 0x7BFF
    else if e < -24 then 0
    else ((e + 24).toNat + 1) * 2 ^ 10 + (m - 2 ^ 10)

/-- binary16 of n × 2^k with its sign; an exact zero takes the sign `neg0`. -/
def toF16 (n : Int) (k : Int) (neg0 : Bool) : Nat :=
  f16Mag n.natAbs k + (if n < 0 || (n = 0 && neg0) then 2 ^ 15 else 0)

/-- A binary32 value as n × 2^k: its signed mantissa and exponent. Infinities and NaN are read as
their bits spell. -/
def ofF32 (x : Nat) : Int × Int :=
  let e : Nat := x / 2 ^ 23 % 256
  let m : Nat := x % 2 ^ 23 + (if e = 0 then 0 else 2 ^ 23)
  let k : Int := (if e = 0 then 1 else (e : Int)) - 150
  (if x / 2 ^ 31 % 2 = 1 then -(m : Int) else (m : Int), k)

end Sys2Proof.Machine
end

