-- ==== Sys2Proof/Machine/Operands.lean ====
section
/-! DEFINITION. The instruction words of the Gallery: opcodes, the four forms (R137 to R142), the
checks of an instruction word, and the operands of an engine (R133, R138). -/

namespace Sys2Proof.Machine

/-- The mnemonics of Table 4-7. -/
inductive Op
  | nop | halt | calslot | raise_ | sig | rdprf | add | sub | adds | subs | mul | muls | mulu | abs
  | min | max | minu | maxu | sat | shl | shr | sar | addi | movi | ldih | shli | shri | sari | ext
  | ins | and_ | or_ | xor_ | andn | cmp | fop | andi | ori | xori | cmpi | ld | st | br | call | ret
  | loop | rdlt | rdpos | p2t | waitt | waitl | camq | camw | waits | bar | emit | patch | gate
  | snap | cfgr | cfgw
  deriving DecidableEq, Repr

/-- The code of an opcode (Table 4-7). -/
def Op.code : Op → BitVec 8
  | .nop => 0x00
  | .halt => 0x01
  | .calslot => 0x02
  | .raise_ => 0x03
  | .sig => 0x04
  | .rdprf => 0x05
  | .add => 0x10
  | .sub => 0x11
  | .adds => 0x12
  | .subs => 0x13
  | .mul => 0x14
  | .muls => 0x15
  | .mulu => 0x16
  | .abs => 0x17
  | .min => 0x18
  | .max => 0x19
  | .minu => 0x1A
  | .maxu => 0x1B
  | .sat => 0x1C
  | .shl => 0x1D
  | .shr => 0x1E
  | .sar => 0x1F
  | .addi => 0x20
  | .movi => 0x21
  | .ldih => 0x22
  | .shli => 0x23
  | .shri => 0x24
  | .sari => 0x25
  | .ext => 0x26
  | .ins => 0x27
  | .and_ => 0x30
  | .or_ => 0x31
  | .xor_ => 0x32
  | .andn => 0x33
  | .cmp => 0x34
  | .fop => 0x35
  | .andi => 0x38
  | .ori => 0x39
  | .xori => 0x3A
  | .cmpi => 0x3B
  | .ld => 0x40
  | .st => 0x41
  | .br => 0x50
  | .call => 0x51
  | .ret => 0x52
  | .loop => 0x53
  | .rdlt => 0x60
  | .rdpos => 0x61
  | .p2t => 0x62
  | .waitt => 0x68
  | .waitl => 0x69
  | .camq => 0x70
  | .camw => 0x78
  | .waits => 0x79
  | .bar => 0x7A
  | .emit => 0x80
  | .patch => 0x81
  | .gate => 0x82
  | .snap => 0x83
  | .cfgr => 0xF0
  | .cfgw => 0xF1

/-- The opcode with a code; a code that Table 4-7 does not list is reserved (R137). -/
def opOfNat : Nat → Option Op
  | 0x00 => some .nop
  | 0x01 => some .halt
  | 0x02 => some .calslot
  | 0x03 => some .raise_
  | 0x04 => some .sig
  | 0x05 => some .rdprf
  | 0x10 => some .add
  | 0x11 => some .sub
  | 0x12 => some .adds
  | 0x13 => some .subs
  | 0x14 => some .mul
  | 0x15 => some .muls
  | 0x16 => some .mulu
  | 0x17 => some .abs
  | 0x18 => some .min
  | 0x19 => some .max
  | 0x1A => some .minu
  | 0x1B => some .maxu
  | 0x1C => some .sat
  | 0x1D => some .shl
  | 0x1E => some .shr
  | 0x1F => some .sar
  | 0x20 => some .addi
  | 0x21 => some .movi
  | 0x22 => some .ldih
  | 0x23 => some .shli
  | 0x24 => some .shri
  | 0x25 => some .sari
  | 0x26 => some .ext
  | 0x27 => some .ins
  | 0x30 => some .and_
  | 0x31 => some .or_
  | 0x32 => some .xor_
  | 0x33 => some .andn
  | 0x34 => some .cmp
  | 0x35 => some .fop
  | 0x38 => some .andi
  | 0x39 => some .ori
  | 0x3A => some .xori
  | 0x3B => some .cmpi
  | 0x40 => some .ld
  | 0x41 => some .st
  | 0x50 => some .br
  | 0x51 => some .call
  | 0x52 => some .ret
  | 0x53 => some .loop
  | 0x60 => some .rdlt
  | 0x61 => some .rdpos
  | 0x62 => some .p2t
  | 0x68 => some .waitt
  | 0x69 => some .waitl
  | 0x70 => some .camq
  | 0x78 => some .camw
  | 0x79 => some .waits
  | 0x7A => some .bar
  | 0x80 => some .emit
  | 0x81 => some .patch
  | 0x82 => some .gate
  | 0x83 => some .snap
  | 0xF0 => some .cfgr
  | 0xF1 => some .cfgw
  | _ => none

/-- The opcode with a code. -/
def Op.ofCode (c : BitVec 8) : Option Op := opOfNat c.toNat

/-- The four instruction forms. -/
inductive Form | a | b | c | d
  deriving DecidableEq, Repr

/-- The form that an opcode fixes (Table 4-7). -/
def Op.form : Op → Form
  | .raise_ | .sig | .addi | .movi | .ldih | .shli | .shri | .sari | .ext | .ins | .andi | .ori
  | .xori | .cmpi | .ld | .st | .cfgr | .cfgw => .b
  | .br | .call | .ret | .loop | .waitt | .waitl | .camw | .waits | .bar => .c
  | .camq | .emit | .patch | .gate | .snap => .d
  | _ => .a

/-! ### Fields of a word (Tables 4-2 to 4-5) -/

/-- The word of a Form A instruction. -/
def encodeA (o : BitVec 8) (f : FormA) : Word := o ++ f.d ++ f.a ++ f.b ++ f.psel ++ f.mod ++ f.z

/-- The word of a Form B instruction. -/
def encodeB (o : BitVec 8) (f : FormB) : Word := o ++ f.d ++ f.a ++ f.psel ++ f.z ++ f.ofl ++ f.imm

/-- The word of a Form C instruction. -/
def encodeC (o : BitVec 8) (f : FormC) : Word := o ++ f.psel ++ f.cond ++ f.m ++ f.t

/-- The word of a Form D instruction. -/
def encodeD (o : BitVec 8) (f : FormD) : Word :=
  o ++ f.psel ++ f.sf ++ f.z ++ f.ra ++ f.rb ++ f.sel ++ f.imm

/-- The opcode bits of a word. -/
def opBits (w : Word) : BitVec 8 := w.extractLsb' 64 8

/-- The Form A fields of a word. -/
def decodeA (w : Word) : FormA :=
  { d := w.extractLsb' 58 6, a := w.extractLsb' 52 6, b := w.extractLsb' 46 6,
    psel := w.extractLsb' 42 4, mod := w.extractLsb' 32 10, z := w.extractLsb' 0 32 }

/-- The Form B fields of a word. -/
def decodeB (w : Word) : FormB :=
  { d := w.extractLsb' 58 6, a := w.extractLsb' 52 6, psel := w.extractLsb' 48 4,
    z := w.extractLsb' 47 1, ofl := w.extractLsb' 44 3, imm := w.extractLsb' 0 44 }

/-- The Form C fields of a word. -/
def decodeC (w : Word) : FormC :=
  { psel := w.extractLsb' 60 4, cond := w.extractLsb' 56 4, m := w.extractLsb' 32 24,
    t := w.extractLsb' 0 32 }

/-- The Form D fields of a word. -/
def decodeD (w : Word) : FormD :=
  { psel := w.extractLsb' 60 4, sf := w.extractLsb' 57 3, z := w.extractLsb' 56 1,
    ra := w.extractLsb' 50 6, rb := w.extractLsb' 44 6, sel := w.extractLsb' 32 12,
    imm := w.extractLsb' 0 32 }

/-- The fields of an instruction, by form. -/
inductive Fields
  | a (f : FormA)
  | b (f : FormB)
  | c (f : FormC)
  | d (f : FormD)
  deriving DecidableEq, Repr

/-- A decoded instruction word. -/
structure Insn where
  op : Op
  fields : Fields
  deriving DecidableEq, Repr

/-- The form of the fields. -/
def Fields.form : Fields → Form
  | .a _ => .a
  | .b _ => .b
  | .c _ => .c
  | .d _ => .d

/-- Decode an instruction word (R137); none for a reserved opcode. -/
def decodeInsn (w : Word) : Option Insn :=
  match Op.ofCode (opBits w) with
  | none => none
  | some o =>
    match o.form with
    | .a => some { op := o, fields := .a (decodeA w) }
    | .b => some { op := o, fields := .b (decodeB w) }
    | .c => some { op := o, fields := .c (decodeC w) }
    | .d => some { op := o, fields := .d (decodeD w) }

/-- The word of an instruction. -/
def encodeInsn (i : Insn) : Word :=
  match i.fields with
  | .a f => encodeA i.op.code f
  | .b f => encodeB i.op.code f
  | .c f => encodeC i.op.code f
  | .d f => encodeD i.op.code f

/-- An instruction is well formed when its fields are of the form that its opcode fixes. -/
def Insn.wf (i : Insn) : Bool := decide (i.op.form = i.fields.form)

/-! ### Checks of the instruction word (R137, R144)

0 when the word passes, else the trap code of Table 4-10: 1 RESV, 5 PAIR. -/

/-- Opcodes of Form A whose Flag column names a condition (R146). -/
def Op.flagA : Op → Bool
  | .add | .sub | .adds | .subs | .mul | .muls | .mulu | .abs | .sat | .shl => true
  | _ => false

/-- The bits of MOD[6:0] that an opcode uses (Table 4-7). -/
def Op.modMask : Op → Nat
  | .mul | .muls | .mulu | .sat => 0x7F
  | .rdprf | .fop | .rdpos => 0x1F
  | .cmp => 0x7
  | .rdlt => 0x1
  | .p2t => 0x3F
  | _ => 0

/-- The registers of Form A that an opcode leaves unused are zero. -/
def unusedA (o : Op) (f : FormA) : Bool :=
  match o with
  | .nop | .halt | .calslot => f.d == 0 && f.a == 0 && f.b == 0
  | .rdprf | .rdlt => f.a == 0 && f.b == 0
  | .abs | .sat | .rdpos | .p2t => f.b == 0
  | .fop => f.a == 0 && f.b == 0
  | _ => true

/-- The D field of CMP, CMPI and FOP is legal (R143). -/
def combOk (d : BitVec 6) : Bool := d.toNat < 32 && d.toNat / 8 != 3

/-- The values of MOD that an opcode accepts. -/
def modOk (o : Op) (f : FormA) : Bool :=
  let s := f.mod.toNat % 128
  match o with
  | .mul | .muls | .mulu => decide (s ≤ 71)
  | .sat => decide (1 ≤ s) && decide (s ≤ 72)
  | .rdprf => decide (f.mod.toNat ≤ 23)
  | .cmp => combOk f.d
  | .fop => combOk f.d && (s % 4 == 3 || s / 4 == 0)
  | .rdpos => s < 16 || f.a == 0
  | .p2t => s / 16 != 3
  | _ => true

/-- A pair destination (R144). -/
def pairA (o : Op) (f : FormA) : Bool :=
  match o with
  | .rdlt => f.mod.toNat % 2 == 0
  | .rdpos | .p2t => true
  | _ => false

/-- The check of a Form A word. R137 gives no order of RESV and PAIR where a word fails both: RESV comes first (DESIGN CHOICE,
log entry 71). -/
def checkA (o : Op) (f : FormA) : Nat :=
  let used := o.modMask + (if o.flagA then 0x380 else 0)
  if !(f.z == 0 && Nat.land f.mod.toNat (1023 - used) == 0 && unusedA o f && modOk o f) then 1
  else if pairA o f && f.d.toNat % 2 == 1 then 5
  else 0

/-- The immediate of Form B is legal for its opcode. -/
def immOk (o : Op) (f : FormB) : Bool :=
  let i := f.imm.toNat
  let w := i / 128 % 128
  match o with
  | .raise_ => f.d == 0 && f.a == 0 && i < 2 ^ 16
  | .sig => f.d == 0 && f.a == 0 && i < 2 ^ 24
  | .movi => f.a == 0
  | .ldih => f.a == 0 && i < 2 ^ 28
  | .shli => i < 72
  | .shri | .sari => i < 128
  | .ext => 1 ≤ w && i % 128 + w ≤ 72 && i < 2 ^ 15
  | .ins => 1 ≤ w && i % 128 + w ≤ 72 && i < 2 ^ 14
  | .cmpi => combOk f.d
  | _ => true

/-- The check of a Form B word: OFL names a flag only where Table 4-7 gives a condition (R146). -/
def checkB (o : Op) (f : FormB) : Nat :=
  let flag := o == .addi || o == .shli || o == .cfgr || o == .cfgw || o == .cmpi
  if f.z == 0 && (flag || f.ofl == 0) && immOk o f then 0 else 1

/-- The values of COND, and the bits of M, that Table 4-8 names for an opcode. -/
def formC (o : Op) : Nat × Nat :=
  match o with
  | .br => (1, 0)
  | .call => (1, 0x3F)
  | .ret => (0, 0x3F)
  | .loop => (1, 0x3F)
  | .waitt => (1, 0xE00FFF)
  | .waitl => (2, 0xE0FFFF)
  | .camw => (0, 0xE03F03)
  | .waits => (1, 0xE03FFF)
  | .bar => (0, 0xE0FFFF)
  | _ => (0, 0)

/-- The T field of Form C is legal for its opcode. -/
def tOk (o : Op) (f : FormC) : Bool :=
  match o with
  | .br | .call | .loop => f.cond == 1 || f.t.toNat < 2 ^ 15
  | .ret => f.t == 0
  | .waitt => f.cond == 0 || (f.t == 0 && f.m.toNat % 64 == 0)
  | _ => true

/-- The check of a Form C word; BAR must name its own engine (R157). -/
def checkC (o : Op) (e : Nat) (f : FormC) : Nat :=
  let (c, m) := formC o
  if f.cond.toNat ≤ c && Nat.land f.m.toNat (0xFFFFFF - m) == 0 && tOk o f &&
    (o != .bar || f.m.getLsbD e) then 0 else 1

/-- The IMM and SEL fields of Form D are legal for their opcode (Table 4-9, R158, R159). -/
def selOk (o : Op) (f : FormD) : Bool :=
  let i := f.imm.toNat
  let s := f.sel.toNat
  match o with
  | .camq => s < 4 && i % 4 == 0
  | .emit => f.ra == 0 && f.rb == 0 && i < 2 ^ 13 && (i % 64 < 32 || i % 64 == 63)
  | .patch =>
    let w := i / 2 ^ 14 % 16
    let k := i / 2 ^ 18 % 4
    f.rb == 0 && s == 0 && i < 2 ^ 23 && w ≤ 9 && (k == 0 || (k == 1 && w == 4) || (k == 2 && w == 2))
  | .gate => f.sf == 0 && f.rb == 0 && s < 4 && (if s / 2 == 1 then i == 0 else f.ra == 0)
  | .snap => f.rb == 0 && s < 2 && i == 0 && (s == 0 || f.ra == 0)
  | _ => true

/-- The check of a Form D word. -/
def checkD (o : Op) (f : FormD) : Nat := if f.z == 0 && selOk o f then 0 else 1

/-! ### Operands of an engine -/

/-- Register Gn: G0 reads zero (Table 4-1). -/
def Engine.rd (x : Engine) (i : BitVec 6) : Word := if i = 0 then 0 else x.g[i.toNat]

/-- Write register Gn; a write to G0 is discarded. -/
def Engine.wr (x : Engine) (i : BitVec 6) (v : Word) : Engine :=
  if i = 0 then x else { x with g := x.g.set i.toNat v }

/-- Flag Fn: F0 reads one. -/
def Engine.fl (x : Engine) (i : BitVec 3) : Bool := i == 0 || x.f.getLsbD i.toNat

/-- A flag byte with one flag written. -/
def setFlag (f : BitVec 8) (i : BitVec 3) (v : Bool) : BitVec 8 :=
  if v then f ||| BitVec.ofNat 8 (2 ^ i.toNat) else f &&& ~~~ BitVec.ofNat 8 (2 ^ i.toNat)

/-- Write flag Fn; a write to F0 is discarded. -/
def Engine.wf (x : Engine) (i : BitVec 3) (v : Bool) : Engine :=
  if i = 0 then x else { x with f := setFlag x.f i v }

/-- The predicate of an instruction holds (R138). -/
def Engine.pred (x : Engine) (p : BitVec 4) : Bool := x.fl (p.extractLsb' 0 3) != p.getLsbD 3

/-- The program-store word at an index. -/
def Engine.word (x : Engine) (pc : Nat) : Word := sget (fun _ => 0) x.prog pc

/-- A data-store word. -/
def Engine.load (x : Engine) (k : Nat) : Word := sget (fun _ => 0) x.data k

/-- Write a data-store word. -/
def Engine.store (x : Engine) (k : Nat) (v : Word) : Engine :=
  { x with data := sput (fun _ => 0) x.data k v }

/-- sext of a 44-bit immediate. -/
def sext44 (i : BitVec 44) : Word := i.signExtend 72

/-- zext of a 44-bit immediate. -/
def zext44 (i : BitVec 44) : Word := i.zeroExtend 72

/-- A field of M: `w` bits from bit `lo`. -/
def mBits (m : BitVec 24) (lo w : Nat) : Nat := m.toNat / 2 ^ lo % 2 ^ w

/-- A register number in M. -/
def mReg (m : BitVec 24) (lo : Nat) : BitVec 6 := m.extractLsb' lo 6

/-- The TF field of M. -/
def mTf (m : BitVec 24) : Nat := mBits m 21 3

end Sys2Proof.Machine
end

