-- ==== Sys2Proof/Machine/Flags.lean ====
section
/-! DEFINITION. The conditions that Gallery instructions write to flags, and the relations of CMP
and CMPI (R143, R145 to R147). -/

namespace Sys2Proof.Machine

/-- The signed value of a word. -/
def sval (w : Word) : Int := toSigned 72 w.toNat

/-- A signed number as a word, modulo 2^72. -/
def ofInt (v : Int) : Word := BitVec.ofNat 72 (ofSigned 72 v)

/-- A number lies in the signed range of `w` bits. -/
def fits (w : Nat) (v : Int) : Bool := decide (-(2 ^ (w - 1) : Int) ≤ v) && decide (v < (2 ^ (w - 1) : Int))

/-- A number replaced by the nearer end of the signed range of `w` bits where it lies outside. -/
def clamp (w : Nat) (v : Int) : Int :=
  if v < -(2 ^ (w - 1) : Int) then -(2 ^ (w - 1) : Int)
  else if (2 ^ (w - 1) : Int) ≤ v then (2 ^ (w - 1) : Int) - 1 else v

/-- Relation `r` of CMP and CMPI: 0 EQ, 1 NE, 2 LT, 3 GE, 4 LTU, 5 GEU, 6 BEFORE, 7 NOTBEFORE. -/
def relation (r : Nat) (x y : Word) : Bool :=
  match r with
  | 0 => x == y
  | 1 => x != y
  | 2 => decide (sval x < sval y)
  | 3 => decide (sval y ≤ sval x)
  | 4 => decide (x.toNat < y.toNat)
  | 5 => decide (y.toNat ≤ x.toNat)
  | 6 => before x y
  | _ => !before x y

/-- Combine a result into a flag by COMB (R143): 0 replaces, 1 AND, 2 OR. -/
def combine (k : Nat) (old c : Bool) : Bool := if k == 0 then c else if k == 1 then old && c else old || c

/-- Write a compare result to the flag that a D field names (R143). -/
def Engine.comb (x : Engine) (d : BitVec 6) (c : Bool) : Engine :=
  let n : BitVec 3 := d.extractLsb' 0 3
  x.wf n (combine (d.toNat / 8 % 4) (x.fl n) c)

end Sys2Proof.Machine
end

