-- ==== Sys2Proof/Machine/Gallery.lean ====
section
/-! DEFINITION. How an engine runs: leaving RUNNING, traps, strikes on its core, the start of a
program, and the one operation that runs an instruction word (R133 to R138, R149, R150, R166, R167,
R175, R181, R182, R191). -/

namespace Sys2Proof.Machine

/-- The engine's instance of the block, for a fixed number. -/
def Block.mapE (b : Block) (e : Fin 16) (f : Engine → Engine) : Block :=
  { b with eng := b.eng.set e (f b.eng[e]) }

/-! ### The data store as hardware sees it (R135, R136, R158) -/

/-- A data-store word as hardware finds it at an instant: one that ST writes holds its former value until the first tick of the
next instruction (R135). -/
def Engine.hwLoad (x : Engine) (t k : Nat) : Word :=
  match x.stOld with
  | some (at_, j, v) => if j = k ∧ t < at_ then v else x.load k
  | none => x.load k

/-- A word that hardware writes at an instant reaches a frame whose copy has yet to read it (R158). -/
def EFrame.hwWord (f : EFrame) (t k : Nat) (v : Word) : EFrame :=
  let i := k - f.src
  if f.src ≤ k ∧ 8 * i < f.bytes.length ∧ t ≤ f.copyAt + i / 2 * nsUnit then
    { f with bytes := (f.bytes.take (8 * i) ++ bytesBE (v.toNat % 2 ^ 64) 8 ++ f.bytes.drop (8 * i + 8)).take f.bytes.length }
  else f

/-- Hardware writes a data-store word at an instant (R136). An ST that ends later overwrites it. -/
def Engine.hwStore (x : Engine) (t k : Nat) (v : Word) : Engine :=
  let x1 := { x with emis := x.emis.map (fun (f : EFrame) => f.hwWord t k v) }
  match x.stOld with
  | some (at_, j, _) => if j = k ∧ t < at_ then { x1 with stOld := some (at_, j, v) } else x1.store k v
  | none => x1.store k v

/-- ST writes a data-store word; it holds its new value from instant `at_` on. -/
def Engine.stWord (x : Engine) (at_ k : Nat) (v : Word) : Engine := { x.store k v with stOld := some (at_, k, x.load k) }

/-! ### Signals (R156) -/

/-- The signals of an engine that are visible at an instant. -/
def Engine.sigAt (x : Engine) (t : Nat) : BitVec 8 :=
  (x.sigPend.filter (fun p => p.1 ≤ t)).foldl (fun v p => v ||| p.2) x.sig

/-- Signals that have become visible move into S0 to S7. -/
def Engine.settleSig (x : Engine) (t : Nat) : Engine :=
  { x with sig := x.sigAt t, sigPend := x.sigPend.filter (fun p => t < p.1) }

/-! ### Leaving RUNNING (R181, R182, R190) -/

/-- Held frames are discarded: what is left of an emission buffer. -/
def dropHeld (l : List EFrame) : List EFrame := l.filter (fun f => f.hold.isNone)

/-- How many frames are held. -/
def heldCount (l : List EFrame) : Nat := (l.filter (fun f => f.hold.isSome)).length

/-- The engine leaves RUNNING for a state: its wait ends, its gates close, its held frames are
discarded and counted in HDISC (R150, R181, R182). -/
def Block.leave (b : Block) (n st : Nat) : Block :=
  let held := heldCount (b.engine n).emis
  let b1 := ((b.put (GAL_STAT_STATE n) st).putB (GAL_STAT_WAIT n) false).incSat (GAL_STAT_HDISC n) held
  (b1.mapEng n (fun x => { x with wait := .none, emis := dropHeld x.emis, waitSince := none,
                                  opened := false })).gates false (b.get (GAL_PMASK_MASK n))

/-! ### The spare and strikes on a core (R167, R172, R191, R192) -/

/-- GAL_SPARE.AVAIL (Table 5-4). -/
def Block.spareUpdate (b : Block) : Block :=
  b.putB GAL_SPARE_AVAIL (b.flag GAL_SPARE_EN && !b.isRetired ⟨4, 15⟩ && !b.flag GAL_SPARE_BUSY)

/-- The core that engine `n` runs on. -/
def Block.coreOf (b : Block) (n : Nat) : Nat := if b.flag (GAL_STAT_CORE15 n) then 15 else n

/-- A retirement of engine `n`'s core waits for the next boundary (R191); in a pair it is carried
through the journal first (R193). -/
def Block.coreRetired (b : Block) (n : Nat) : Block :=
  if b.running n || b.get (GAL_STAT_STATE n) == 5 then
    if b.synced then b.journalItem (.engRetire n) else b.mapEng n (fun x => { x with coreRet := true })
  else b

/-- A detected parity or store error of engine `n`: one strike on its core (R167, R191). -/
def Block.coreStrike (b : Block) (n : Nat) : Block :=
  let k := b.coreOf n
  let c : Channel := ⟨4, k⟩
  if b.retires c then
    ((((b.strike c).retire c).putB (GAL_STAT_RETIRED k) true).spareUpdate).coreRetired n
  else b.strike c

/-! ### Starts (R134, R175) -/

/-- The state of R134 at a start of a program: registers, flags, signals and tags zero, PC at ENTRY, the emission buffer empty.
Frames already released to the emission path are still sent (R182). A signal on its way that is not yet visible is dropped with
the others (DESIGN CHOICE, log entry 71). -/
def Engine.begin_ (x : Engine) (trig : Option Word) (now : Nat) : Engine :=
  { x with g := Vector.replicate 64 0, f := 0, sig := 0, sigPend := [], pc := x.entry, stOld := none
           tags := Vector.replicate 4 .free, tagRun := x.tagRun + 1, emis := (dropHeld x.emis).map (fun f => { f with old := true })
           wait := .none, trig := trig, startAt := none, startPend := false, reloc := false
           readyAt := now, use := 0, seen := 0, seenWait := 0, waitSince := none, overrun := false, opened := trig.isSome }

/-- Engine `n` begins at ENTRY now, with the trigger pending for it or none (R175). -/
def Block.begin_ (b : Block) (n : Nat) (trig : Option Word) : Block :=
  (b.mapEng n (fun x => x.begin_ trig b.tm.phys)).put (GAL_STAT_STATE n) 3

/-- Engine `n` runs again on its own core: GE15's core carries no program (R194). -/
def Block.homeCore (b : Block) (n : Nat) : Block :=
  if b.flag (GAL_STAT_CORE15 n) then
    ((b.putB (GAL_STAT_CORE15 n) false).putB GAL_SPARE_BUSY false).spareUpdate
  else b

/-! ### Running an instruction -/

/-- What an instruction does when it executes. -/
inductive Act
  /-- A trap of Table 4-10. -/
  | trap (code : Nat)
  /-- An effect with its cost in ticks; the next instruction is at PC + 1. `res` is the value written
  to Gd, `refused` whether SF was written 0. -/
  | go (b : Block) (cost : Nat) (res : Word) (refused : Bool)
  /-- An effect that sets PC. -/
  | jump (b : Block) (cost pc : Nat)
  /-- HALT. -/
  | halt
  /-- The engine enters the wait part of a wait after the fixed ticks (R149). -/
  | wait (b : Block) (cost : Nat) (w : Wait)

/-- An instruction of engine `e` has completed after `lat` ticks that began at `first`: the trace
and the performance counters see it (R483, R486). -/
def Block.completed (b : Block) (e : Fin 16) (first : Nat) (stw insn : Word) (pc lat : Nat)
    (skip refused timeout retry : Bool) (trap : Nat) (res : Word) : Block :=
  let r := traceRec stw insn pc e.val lat skip (b.flag (GAL_STAT_CORE15 e)) false trap res
  let i : TraceInfo := ⟨r, lat, refused, timeout, retry, trap != 0, b.eng[e].overrun⟩
  let b1 := b.mapE e (fun x => { x with overrun := false, lastRec := some r, seen := 0, seenWait := 0 })
  let b2 := if trap = 0 then ((b1.engEvent e 2 1).engEvent e 3 (b2n skip)).engEvent e 9 (b2n refused) else b1
  ((b2.engEvent e 1 (lat - b.eng[e].seen)).engEvent e 10 (b2n timeout)).trace e pc (first + lat * tick) i

/-- A trap stops the engine at the instruction (R166): cause, PC and word recorded, 1 tick, after the ticks of a retry
(R167). -/
def Block.trapAt (b : Block) (e : Fin 16) (first : Nat) (stw insn : Word) (pc pen code : Nat) : Block :=
  let b1 := b.completed e first stw insn pc (pen + 1) false false false (pen != 0) code 0
  let b2 := ((b1.put (GAL_TRAP_PC e) pc).put (GAL_TRAP_CODE e) code).setReg (GAL_TINSN e) insn
  ((b2.mapE e (fun x => { x with use := x.use + pen + 1, readyAt := first + (pen + 1) * tick })).leave e 5).galCause (GAL_CAUSE_TRAP e) e

/-- The engine's next instruction begins `cost` ticks after `first`, at `pc`. -/
def Engine.after (x : Engine) (first cost pc : Nat) : Engine :=
  { x with pc := pc, readyAt := first + cost * tick, use := x.use + cost }

/-- Carry out what an instruction does; `pen` is the cost of a parity retry (R167). A PC that steps
past 32,767 traps (R148). -/
def Block.carry (b : Block) (e : Fin 16) (first : Nat) (stw insn : Word) (pen : Nat) (a : Act) : Block :=
  let pc := b.eng[e].pc
  match a with
  | .trap c => b.trapAt e first stw insn pc pen c
  | .halt =>
    let b1 := b.completed e first stw insn pc (pen + 1) false false false (pen != 0) 0 0
    ((b1.mapE e (fun x => x.after first (pen + 1) pc)).leave e 4).galCause (GAL_CAUSE_HALT e) e
  | .jump b1 cost t =>
    if 32767 < t then b.trapAt e first stw insn pc pen 3
    else
      (b1.mapE e (fun x => x.after first (pen + cost) t)).completed e first stw insn pc (pen + cost)
        false false false (pen != 0) 0 0
  | .go b1 cost res refused =>
    if pc = 32767 then b.trapAt e first stw insn pc pen 3
    else
      (b1.mapE e (fun x => x.after first (pen + cost) (pc + 1))).completed e first stw insn pc (pen + cost)
        false refused false (pen != 0) 0 res
  | .wait b1 cost w =>
    if pc = 32767 then b.trapAt e first stw insn pc pen 3
    else
      (b1.mapE e (fun x => { x.after first (pen + cost) pc with
        wait := w, waitSince := some (first + (pen + cost) * tick), insnAt := first, insnStw := stw
        insnRetry := pen != 0 })).putB (GAL_STAT_WAIT e) true

/-- The engine stands ready to execute: RUNNING, in no wait, and not about to restart at a trigger. -/
def Block.ready (b : Block) (e : Fin 16) : Bool :=
  b.running e && decide (b.eng[e].wait = .none) && !b.eng[e].reloc

/-- Run the instruction word at the PC of engine `e` (R135 to R138, R167): its checks, its
predicate, its effect. `chk` is the check of the word, `act` its effect at the first tick of its execution, which after a
parity retry comes 4 ticks later. The engine's ticks are its own: the clocks stand at them while it executes. Where the
predicate fails, an uncorrectable word and a PC that steps past 32,767 still trap: the word cannot be read, and no next
instruction exists (DESIGN CHOICE, log entry 71; R137 limits the other traps to instructions that execute). -/
def Block.runWord (b0 : Block) (e : Fin 16) (insn : Word) (chk : Nat) (psel : BitVec 4) (u : Upset)
    (act : Block → Act) : Block :=
  let first := b0.eng[e].readyAt
  let b1 := b0.clockAt first
  let stw := b1.stw
  let pc := b1.eng[e].pc
  let b := match u with
    | .none => b1
    | .storeOne => (b1.coreStrike e).engEvent e 12 1
    | .storeTwo => b1.coreStrike e
    | .regOnce | .regTwice => if b1.eng[e].pred psel then b1.coreStrike e else b1
  let r :=
    if u == .storeTwo then b.trapAt e first stw insn pc 0 8
    else if chk ≠ 0 then b.trapAt e first stw insn pc 0 chk
    else if b.eng[e].pred psel then
      if u == .regTwice then (b.engEvent e 11 1).trapAt e first stw insn pc 4 8
      else if u == .regOnce then
        let b2 := (b.engEvent e 11 1).clockAt (first + 4 * tick)
        b2.carry e first stw insn 4 (act b2)
      else b.carry e first stw insn 0 (act b)
    else if pc = 32767 then b.trapAt e first stw insn pc 0 3
    else
      (b.mapE e (fun x => x.after first 1 (pc + 1))).completed e first stw insn pc 1 true false false false 0 0
  r.toPresent (b0.tm.phys - r.tm.phys)

/-- Run an instruction if engine `e` is ready and its PC stands at that word. -/
def Block.runIf (b : Block) (e : Fin 16) (insn : Word) (chk : Nat) (psel : BitVec 4) (u : Upset)
    (act : Block → Act) : Block :=
  if b.ready e && b.eng[e].word b.eng[e].pc == insn then b.runWord e insn chk psel u act else b

/-- A Form A command. -/
def runA (o : Op) (e : Fin 16) (f : FormA) (u : Upset) (act : Block → Act) (s : State) :
    Host.Outcome State Fault Refusal :=
  done s fun b => b.runIf e (encodeA o.code f) (checkA o f) f.psel u act

/-- A Form B command. -/
def runB (o : Op) (e : Fin 16) (f : FormB) (u : Upset) (act : Block → Act) (s : State) :
    Host.Outcome State Fault Refusal :=
  done s fun b => b.runIf e (encodeB o.code f) (checkB o f) f.psel u act

/-- A Form C command. -/
def runC (o : Op) (e : Fin 16) (f : FormC) (u : Upset) (act : Block → Act) (s : State) :
    Host.Outcome State Fault Refusal :=
  done s fun b => b.runIf e (encodeC o.code f) (checkC o e f) f.psel u act

/-- A Form D command. -/
def runD (o : Op) (e : Fin 16) (f : FormD) (u : Upset) (act : Block → Act) (s : State) :
    Host.Outcome State Fault Refusal :=
  done s fun b => b.runIf e (encodeD o.code f) (checkD o f) f.psel u act

/-- The digest of a frame that changes while it is copied: it is the latest that its engine gave (R158, R511). -/
def reDigest (d old new : List Byte) : List Byte :=
  if d.drop (d.length - old.length) = old then d.take (d.length - old.length) ++ new else d

/-- Hardware writes a word of the data store of engine `n` now (R136). -/
def Block.hwStore (b : Block) (n k : Nat) (v : Word) : Block :=
  let x := b.engine n
  let y := x.hwStore b.tm.phys k v
  let b1 := b.mapEng n (fun _ => y)
  match x.emis.getLast?, y.emis.getLast? with
  | some f, some g =>
    if f.bytes = g.bytes ∨ f.hold.isSome then b1
    else { b1 with pair := { b1.pair with digE := vmod b1.pair.digE n (fun d => reDigest d f.bytes g.bytes) } }
  | _, _ => b1

/-- Write one register and go on. -/
def putReg (e : Fin 16) (d : BitVec 6) (v : Word) (cost : Nat) (b : Block) : Act :=
  .go (b.mapE e (fun x => x.wr d v)) cost v false

/-- Write one register and a flag: the condition of R146. -/
def putFlag (e : Fin 16) (d : BitVec 6) (v : Word) (fl : BitVec 3) (c : Bool) (cost : Nat) (b : Block) : Act :=
  .go (b.mapE e (fun x => (x.wr d v).wf fl c)) cost v false

/-- Write a register pair (R144). -/
def putPair (e : Fin 16) (d : BitVec 6) (v1 v2 : Word) (cost : Nat) (b : Block) : Act :=
  .go (b.mapE e (fun x => (x.wr d v1).wr (d + 1) v2)) cost v1 false

end Sys2Proof.Machine
end

