-- ==== Sys2Proof/Machine/GalleryAlu.lean ====
section
/-! DEFINITION. The arithmetic, logic and compare instructions of the Gallery (R143, R145 to R147):
0x10 to 0x3B of Table 4-7. -/

namespace Sys2Proof.Machine

/-- The flag field of Form A: MOD[9:7]. -/
def flA (f : FormA) : BitVec 3 := f.mod.extractLsb' 7 3

/-- MOD[6:0]. -/
def modLow (f : FormA) : Nat := f.mod.toNat % 128

/-- Ga of a Form A instruction. -/
def gaA (b : Block) (e : Fin 16) (f : FormA) : Word := b.eng[e].rd f.a

/-- Gb of a Form A instruction. -/
def gbA (b : Block) (e : Fin 16) (f : FormA) : Word := b.eng[e].rd f.b

/-- Ga of a Form B instruction. -/
def gaB (b : Block) (e : Fin 16) (f : FormB) : Word := b.eng[e].rd f.a

/-- Gd of a Form B instruction, as it stands. -/
def gdB (b : Block) (e : Fin 16) (f : FormB) : Word := b.eng[e].rd f.d

/-- An exact signed result written modulo 2^72, with the flag for a result that does not fit. -/
def wrapA (e : Fin 16) (f : FormA) (v : Int) (cost : Nat) (b : Block) : Act :=
  putFlag e f.d (ofInt v) (flA f) (!fits 72 v) cost b

/-- An exact signed result saturated to the signed range, with the flag for saturation. -/
def satA (e : Fin 16) (f : FormA) (v : Int) (cost : Nat) (b : Block) : Act :=
  putFlag e f.d (ofInt (clamp 72 v)) (flA f) (!fits 72 v) cost b

/-- ADD (0x10). -/
def execAddG (e : Fin 16) (f : FormA) (u : Upset) (s : State) : Host.Outcome State Fault Refusal :=
  runA .add e f u (fun b => wrapA e f (sval (gaA b e f) + sval (gbA b e f)) 1 b) s

/-- SUB (0x11). -/
def execSubG (e : Fin 16) (f : FormA) (u : Upset) (s : State) : Host.Outcome State Fault Refusal :=
  runA .sub e f u (fun b => wrapA e f (sval (gaA b e f) - sval (gbA b e f)) 1 b) s

/-- ADDS (0x12). -/
def execAdds (e : Fin 16) (f : FormA) (u : Upset) (s : State) : Host.Outcome State Fault Refusal :=
  runA .adds e f u (fun b => satA e f (sval (gaA b e f) + sval (gbA b e f)) 2 b) s

/-- SUBS (0x13). -/
def execSubs (e : Fin 16) (f : FormA) (u : Upset) (s : State) : Host.Outcome State Fault Refusal :=
  runA .subs e f u (fun b => satA e f (sval (gaA b e f) - sval (gbA b e f)) 2 b) s

/-- The signed product shifted right arithmetically by S (R145). -/
def mulShift (b : Block) (e : Fin 16) (f : FormA) : Int :=
  sval (gaA b e f) * sval (gbA b e f) / (2 ^ modLow f : Int)

/-- MUL (0x14). -/
def execMulG (e : Fin 16) (f : FormA) (u : Upset) (s : State) : Host.Outcome State Fault Refusal :=
  runA .mul e f u (fun b => wrapA e f (mulShift b e f) 4 b) s

/-- MULS (0x15). -/
def execMuls (e : Fin 16) (f : FormA) (u : Upset) (s : State) : Host.Outcome State Fault Refusal :=
  runA .muls e f u (fun b => satA e f (mulShift b e f) 4 b) s

/-- MULU (0x16). -/
def execMulu (e : Fin 16) (f : FormA) (u : Upset) (s : State) : Host.Outcome State Fault Refusal :=
  runA .mulu e f u (fun b =>
    let p := (gaA b e f).toNat * (gbA b e f).toNat / 2 ^ modLow f
    putFlag e f.d (BitVec.ofNat 72 p) (flA f) (decide (2 ^ 72 ≤ p)) 4 b) s

/-- ABS (0x17). -/
def execAbsG (e : Fin 16) (f : FormA) (u : Upset) (s : State) : Host.Outcome State Fault Refusal :=
  runA .abs e f u (fun b => wrapA e f ((sval (gaA b e f)).natAbs : Int) 1 b) s

/-- MIN (0x18). -/
def execMinG (e : Fin 16) (f : FormA) (u : Upset) (s : State) : Host.Outcome State Fault Refusal :=
  runA .min e f u (fun b => putReg e f.d
    (if sval (gaA b e f) ≤ sval (gbA b e f) then gaA b e f else gbA b e f) 1 b) s

/-- MAX (0x19). -/
def execMaxG (e : Fin 16) (f : FormA) (u : Upset) (s : State) : Host.Outcome State Fault Refusal :=
  runA .max e f u (fun b => putReg e f.d
    (if sval (gaA b e f) ≤ sval (gbA b e f) then gbA b e f else gaA b e f) 1 b) s

/-- MINU (0x1A). -/
def execMinu (e : Fin 16) (f : FormA) (u : Upset) (s : State) : Host.Outcome State Fault Refusal :=
  runA .minu e f u (fun b => putReg e f.d
    (if (gaA b e f).toNat ≤ (gbA b e f).toNat then gaA b e f else gbA b e f) 1 b) s

/-- MAXU (0x1B). -/
def execMaxu (e : Fin 16) (f : FormA) (u : Upset) (s : State) : Host.Outcome State Fault Refusal :=
  runA .maxu e f u (fun b => putReg e f.d
    (if (gaA b e f).toNat ≤ (gbA b e f).toNat then gbA b e f else gaA b e f) 1 b) s

/-- SAT (0x1C). -/
def execSat (e : Fin 16) (f : FormA) (u : Upset) (s : State) : Host.Outcome State Fault Refusal :=
  runA .sat e f u (fun b =>
    let v := sval (gaA b e f)
    putFlag e f.d (ofInt (clamp (modLow f) v)) (flA f) (!fits (modLow f) v) 2 b) s

/-- A word shifted left by `n` with its overflow flag: 72 and more give 0 (R145, R147). -/
def shlTo (e : Fin 16) (d : BitVec 6) (fl : BitVec 3) (x : Word) (n : Nat) (b : Block) : Act :=
  if 72 ≤ n then putFlag e d 0 fl (x != 0) 1 b
  else putFlag e d (x <<< n) fl (!fits 72 (sval x * 2 ^ n)) 1 b

/-- A word shifted right logically by `n`: 72 and more give 0. -/
def shrWord (x : Word) (n : Nat) : Word := if 72 ≤ n then 0 else x >>> n

/-- A word shifted right arithmetically by `n`: 72 and more give 0 or −1. -/
def sarWord (x : Word) (n : Nat) : Word := x.sshiftRight (min n 71)

/-- SHL (0x1D). -/
def execShl (e : Fin 16) (f : FormA) (u : Upset) (s : State) : Host.Outcome State Fault Refusal :=
  runA .shl e f u (fun b => shlTo e f.d (flA f) (gaA b e f) (gbA b e f).toNat b) s

/-- SHR (0x1E). -/
def execShr (e : Fin 16) (f : FormA) (u : Upset) (s : State) : Host.Outcome State Fault Refusal :=
  runA .shr e f u (fun b => putReg e f.d (shrWord (gaA b e f) (gbA b e f).toNat) 1 b) s

/-- SAR (0x1F). -/
def execSar (e : Fin 16) (f : FormA) (u : Upset) (s : State) : Host.Outcome State Fault Refusal :=
  runA .sar e f u (fun b => putReg e f.d (sarWord (gaA b e f) (gbA b e f).toNat) 1 b) s

/-- ADDI (0x20). -/
def execAddi (e : Fin 16) (f : FormB) (u : Upset) (s : State) : Host.Outcome State Fault Refusal :=
  runB .addi e f u (fun b =>
    let v := sval (gaB b e f) + sval (sext44 f.imm)
    putFlag e f.d (ofInt v) f.ofl (!fits 72 v) 1 b) s

/-- MOVI (0x21). -/
def execMovi (e : Fin 16) (f : FormB) (u : Upset) (s : State) : Host.Outcome State Fault Refusal :=
  runB .movi e f u (fun b => putReg e f.d (sext44 f.imm) 1 b) s

/-- LDIH (0x22): Gd[71:44] from IMM[27:0], Gd[43:0] unchanged. -/
def execLdih (e : Fin 16) (f : FormB) (u : Upset) (s : State) : Host.Outcome State Fault Refusal :=
  runB .ldih e f u (fun b =>
    putReg e f.d (f.imm.extractLsb' 0 28 ++ (gdB b e f).extractLsb' 0 44 : BitVec 72) 1 b) s

/-- SHLI (0x23). -/
def execShli (e : Fin 16) (f : FormB) (u : Upset) (s : State) : Host.Outcome State Fault Refusal :=
  runB .shli e f u (fun b => shlTo e f.d f.ofl (gaB b e f) (f.imm.toNat % 128) b) s

/-- SHRI (0x24). -/
def execShri (e : Fin 16) (f : FormB) (u : Upset) (s : State) : Host.Outcome State Fault Refusal :=
  runB .shri e f u (fun b => putReg e f.d (shrWord (gaB b e f) (f.imm.toNat % 128)) 1 b) s

/-- SARI (0x25). -/
def execSari (e : Fin 16) (f : FormB) (u : Upset) (s : State) : Host.Outcome State Fault Refusal :=
  runB .sari e f u (fun b => putReg e f.d (sarWord (gaB b e f) (f.imm.toNat % 128)) 1 b) s

/-- P of EXT and INS: IMM[6:0]. -/
def immP (f : FormB) : Nat := f.imm.toNat % 128

/-- W of EXT and INS: IMM[13:7]. -/
def immW (f : FormB) : Nat := f.imm.toNat / 128 % 128

/-- EXT (0x26): a field of Ga, zero- or sign-extended by IMM[14]. -/
def execExt (e : Fin 16) (f : FormB) (u : Upset) (s : State) : Host.Outcome State Fault Refusal :=
  runB .ext e f u (fun b =>
    let v := fieldOf (gaB b e f) (immP f) (immW f)
    putReg e f.d (if f.imm.getLsbD 14 then ofInt (toSigned (immW f) v) else BitVec.ofNat 72 v) 1 b) s

/-- INS (0x27): the low bits of Ga into a field of Gd. -/
def execIns (e : Fin 16) (f : FormB) (u : Upset) (s : State) : Host.Outcome State Fault Refusal :=
  runB .ins e f u (fun b =>
    putReg e f.d (withField (gdB b e f) (immP f) (immW f) (gaB b e f).toNat) 1 b) s

/-- AND (0x30). -/
def execAndG (e : Fin 16) (f : FormA) (u : Upset) (s : State) : Host.Outcome State Fault Refusal :=
  runA .and_ e f u (fun b => putReg e f.d (gaA b e f &&& gbA b e f) 1 b) s

/-- OR (0x31). -/
def execOrG (e : Fin 16) (f : FormA) (u : Upset) (s : State) : Host.Outcome State Fault Refusal :=
  runA .or_ e f u (fun b => putReg e f.d (gaA b e f ||| gbA b e f) 1 b) s

/-- XOR (0x32). -/
def execXorG (e : Fin 16) (f : FormA) (u : Upset) (s : State) : Host.Outcome State Fault Refusal :=
  runA .xor_ e f u (fun b => putReg e f.d (gaA b e f ^^^ gbA b e f) 1 b) s

/-- ANDN (0x33). -/
def execAndn (e : Fin 16) (f : FormA) (u : Upset) (s : State) : Host.Outcome State Fault Refusal :=
  runA .andn e f u (fun b => putReg e f.d (gaA b e f &&& ~~~ gbA b e f) 1 b) s

/-- Combine a result into the flag of a D field (R143). -/
def putComb (e : Fin 16) (d : BitVec 6) (c : Bool) (b : Block) : Act :=
  .go (b.mapE e (fun x => x.comb d c)) 1 0 false

/-- CMP (0x34). -/
def execCmp (e : Fin 16) (f : FormA) (u : Upset) (s : State) : Host.Outcome State Fault Refusal :=
  runA .cmp e f u (fun b => putComb e f.d (relation (f.mod.toNat % 8) (gaA b e f) (gbA b e f)) b) s

/-- The result of FOP: 0, 1, NOT Fn or Fm. -/
def fopResult (x : Engine) (f : FormA) : Bool :=
  match f.mod.toNat % 4 with
  | 0 => false
  | 1 => true
  | 2 => !x.fl (f.d.extractLsb' 0 3)
  | _ => x.fl (f.mod.extractLsb' 2 3)

/-- FOP (0x35). -/
def execFop (e : Fin 16) (f : FormA) (u : Upset) (s : State) : Host.Outcome State Fault Refusal :=
  runA .fop e f u (fun b => putComb e f.d (fopResult b.eng[e] f) b) s

/-- ANDI (0x38). -/
def execAndi (e : Fin 16) (f : FormB) (u : Upset) (s : State) : Host.Outcome State Fault Refusal :=
  runB .andi e f u (fun b => putReg e f.d (gaB b e f &&& zext44 f.imm) 1 b) s

/-- ORI (0x39). -/
def execOri (e : Fin 16) (f : FormB) (u : Upset) (s : State) : Host.Outcome State Fault Refusal :=
  runB .ori e f u (fun b => putReg e f.d (gaB b e f ||| zext44 f.imm) 1 b) s

/-- XORI (0x3A). -/
def execXori (e : Fin 16) (f : FormB) (u : Upset) (s : State) : Host.Outcome State Fault Refusal :=
  runB .xori e f u (fun b => putReg e f.d (gaB b e f ^^^ zext44 f.imm) 1 b) s

/-- CMPI (0x3B): the relation is OFL. -/
def execCmpi (e : Fin 16) (f : FormB) (u : Upset) (s : State) : Host.Outcome State Fault Refusal :=
  runB .cmpi e f u (fun b => putComb e f.d (relation f.ofl.toNat (gaB b e f) (sext44 f.imm)) b) s

end Sys2Proof.Machine
end

