-- ==== Sys2Proof/Machine/GalleryFlow.lean ====
section
/-! DEFINITION. The Gallery's load and store, control flow, time, position, signal and counter
instructions (R124, R125, R147, R148, R153, R156, R164, R165). -/

namespace Sys2Proof.Machine

/-- NOP (0x00). At a word whose opcode is reserved the engine takes trap RESV (R137). -/
def execNop (e : Fin 16) (f : FormA) (u : Upset) (s : State) : Host.Outcome State Fault Refusal :=
  done s fun b =>
    let w := b.eng[e].word b.eng[e].pc
    if b.ready e && (Op.ofCode (opBits w)).isNone then b.runWord e w 1 0 u (fun _ => .trap 1)
    else b.runIf e (encodeA Op.nop.code f) (checkA .nop f) f.psel u (fun c => .go c 1 0 false)

/-- HALT (0x01). -/
def execHalt (e : Fin 16) (f : FormA) (u : Upset) (s : State) : Host.Outcome State Fault Refusal :=
  runA .halt e f u (fun _ => .halt) s

/-- The effect of RAISE: RCODE, RCNT and the cause (Table 5-3). -/
def Block.raiseCode (b : Block) (n code : Nat) : Block :=
  ((b.put (GAL_CAUSE_RCODE n) code).incSat (GAL_CAUSE_RCNT n) 1).galCause (GAL_CAUSE_RAISE n) n

/-- RAISE (0x03). -/
def execRaise (e : Fin 16) (f : FormB) (u : Upset) (s : State) : Host.Outcome State Fault Refusal :=
  runB .raise_ e f u (fun b => .go (b.raiseCode e (f.imm.toNat % 2 ^ 16)) 2 0 false) s

/-- Send signals to the engines of a mask, visible at an instant (R156). -/
def Block.sendSig (b : Block) (mask : Nat) (bits : BitVec 8) (at_ : Nat) : Block :=
  { b with eng := b.eng.mapIdx (fun k x =>
      if bitAt mask k then { x with sigPend := x.sigPend ++ [(at_, bits)] } else x) }

/-- SIG (0x04): visible 2 ticks after its last tick, that is 3 ticks after its first. -/
def execSig (e : Fin 16) (f : FormB) (u : Upset) (s : State) : Host.Outcome State Fault Refusal :=
  runB .sig e f u (fun b =>
    .go (b.sendSig (f.imm.toNat % 2 ^ 16) (f.imm.extractLsb' 16 8) (b.tm.phys + 3 * tick)) 2 0 false) s

/-- Engine `e` runs a supervisor image (R165). -/
def Block.priv (b : Block) (e : Fin 16) : Bool := b.flag (GAL_STAT_PRIV e)

/-- The counter that RDPRF names: 0 to 7 of the engine, 8 to 23 of the copy of the fabric's (R164). -/
def Block.prfValue (b : Block) (e : Fin 16) (k : Nat) : Word :=
  if k < 8 then BitVec.ofNat 72 (b.count (PRF_ENG_CNT e k)) else BitVec.ofNat 72 (b.fabRead (k - 8))

/-- RDPRF (0x05). -/
def execRdprf (e : Fin 16) (f : FormA) (u : Upset) (s : State) : Host.Outcome State Fault Refusal :=
  runA .rdprf e f u (fun b =>
    if !b.priv e && !b.flag PRF_CTL_UREAD then .trap 2
    else putReg e f.d (b.prfValue e (f.mod.toNat % 32)) 8 b) s

/-- The data-store address of LD and ST: Ga + sext(IMM) modulo 2^72. -/
def dataAddr (b : Block) (e : Fin 16) (f : FormB) : Nat := (gaB b e f + sext44 f.imm).toNat

/-- LD (0x40). -/
def execLd (e : Fin 16) (f : FormB) (u : Upset) (s : State) : Host.Outcome State Fault Refusal :=
  runB .ld e f u (fun b =>
    let a := dataAddr b e f
    if 16384 ≤ a then .trap 4 else putReg e f.d (b.eng[e].load a) 2 b) s

/-- ST (0x41). -/
def execSt (e : Fin 16) (f : FormB) (u : Upset) (s : State) : Host.Outcome State Fault Refusal :=
  runB .st e f u (fun b =>
    let a := dataAddr b e f
    if 16384 ≤ a then .trap 4 else .go (b.mapE e (fun x => x.stWord (b.tm.phys + 2 * tick) a (x.rd f.d))) 2 0 false) s

/-! ### Branches (R148) -/

/-- The target of a branch: absolute or relative to PC; 32,768 where it lies below 0. -/
def branchTarget (pc : Nat) (f : FormC) : Nat :=
  if f.cond = 0 then f.t.toNat
  else
    let v : Int := (pc : Int) + toSigned 32 f.t.toNat
    if v < 0 then 32768 else v.toNat

/-- BR (0x50). -/
def execBr (e : Fin 16) (f : FormC) (u : Upset) (s : State) : Host.Outcome State Fault Refusal :=
  runC .br e f u (fun b => .jump b 2 (branchTarget b.eng[e].pc f)) s

/-- CALL (0x51). -/
def execCallG (e : Fin 16) (f : FormC) (u : Upset) (s : State) : Host.Outcome State Fault Refusal :=
  runC .call e f u (fun b =>
    let pc := b.eng[e].pc
    .jump (b.mapE e (fun x => x.wr (mReg f.m 0) (BitVec.ofNat 72 (pc + 1)))) 2 (branchTarget pc f)) s

/-- RET (0x52). -/
def execRet (e : Fin 16) (f : FormC) (u : Upset) (s : State) : Host.Outcome State Fault Refusal :=
  runC .ret e f u (fun b => .jump b 2 (b.eng[e].rd (mReg f.m 0)).toNat) s

/-- LOOP (0x53). -/
def execLoopG (e : Fin 16) (f : FormC) (u : Upset) (s : State) : Host.Outcome State Fault Refusal :=
  runC .loop e f u (fun b =>
    let x := b.eng[e]
    let r := mReg f.m 0
    let v := x.rd r - 1
    let b1 := b.mapE e (fun y => y.wr r v)
    if v = 0 then .jump b1 1 (x.pc + 1) else .jump b1 2 (branchTarget x.pc f)) s

/-! ### Time and position (R124, R125, R153) -/

/-- RDLT (0x60). -/
def execRdlt (e : Fin 16) (f : FormA) (u : Upset) (s : State) : Host.Outcome State Fault Refusal :=
  runA .rdlt e f u (fun b =>
    if f.mod.toNat % 2 = 0 then putPair e f.d b.ltHighNow (ltLow b.tm.lt) 6 b
    else putReg e f.d b.stw 6 b) s

/-- The axis that MOD[3:0] names. -/
def axisA (f : FormA) : Fin 16 := ⟨f.mod.toNat % 16, Nat.mod_lt _ (by decide)⟩

/-- RDPOS (0x61). -/
def execRdpos (e : Fin 16) (f : FormA) (u : Upset) (s : State) : Host.Outcome State Fault Refusal :=
  runA .rdpos e f u (fun b =>
    let t := if f.mod.getLsbD 4 then b.stw else gaA b e f
    let r := b.query (axisA f) t
    putPair e f.d (posWord r.1) (BitVec.ofNat 72 r.2) 6 b) s

/-- P2T (0x62). -/
def execP2t (e : Fin 16) (f : FormA) (u : Upset) (s : State) : Host.Outcome State Fault Refusal :=
  runA .p2t e f u (fun b =>
    let r := b.p2tOf (axisA f) (gaA b e f) (f.mod.toNat / 16 % 4)
    putPair e f.d r.1 (BitVec.ofNat 72 r.2) 40 b) s

end Sys2Proof.Machine
end

