-- ==== Sys2Proof/Machine/GalleryWait.lean ====
section
/-! DEFINITION. The waits of the Gallery and what ends them (R127, R149 to R152, R155 to R157,
R605). -/

namespace Sys2Proof.Machine

/-- The instant at which a timeout of T ns that begins at `t` elapses; 0 means none (R149). -/
def deadlineOf (t ns : Nat) : Option Nat := if ns = 0 then none else some (t + ns * tick)

/-- WAITT (0x68): TIME waits for Ga + T × 2^16, BOUNDARY for the cycle trigger. -/
def execWaitt (e : Fin 16) (f : FormC) (u : Upset) (s : State) : Host.Outcome State Fault Refusal :=
  runC .waitt e f u (fun b =>
    if f.cond = 0 then
      .wait b 3 (.time (b.eng[e].rd (mReg f.m 0) + BitVec.ofNat 72 (f.t.toNat * 2 ^ 16)) (mBits f.m 6 6) (mTf f.m))
    else .wait b 3 (.boundary (mBits f.m 6 6) (mTf f.m))) s

/-- How a position wait begins (R127, R152, R605): its slot, and the status with which it releases
at once. -/
def Block.beginLine (b : Block) (n : Fin 16) (target : Word) (dir : Nat) : WaitSlot × Option Nat :=
  let src := b.get (LAN_AXCFG_SRC n)
  let m := b.get (LAN_AXMOD_MOD n)
  let x := b.axes[n]
  let now := b.stw
  let level := waitLevel src m x now (sval target * 2 ^ 24) dir
  let st := b.axState n
  let rel : Option Nat :=
    if st == 0 || st == 4 then some 5
    else if m = 0 && alreadyPast src x now level dir then some 1 else none
  (⟨n, level, dir, nowNum src x now / (2 * secUnits * secUnits)⟩, rel)

/-- WAITL (0x69). -/
def execWaitl (e : Fin 16) (f : FormC) (u : Upset) (s : State) : Host.Outcome State Fault Refusal :=
  runC .waitl e f u (fun b =>
    let n : Fin 16 := ⟨mBits f.m 0 4, Nat.mod_lt _ (by decide)⟩
    let r := b.beginLine n (b.eng[e].rd (mReg f.m 4)) f.cond.toNat
    .wait b 3 (.line r.1 r.2 (mBits f.m 10 6) (mTf f.m) (deadlineOf b.tm.phys f.t.toNat))) s

/-- CAMW (0x78). -/
def execCamw (e : Fin 16) (f : FormC) (u : Upset) (s : State) : Host.Outcome State Fault Refusal :=
  runC .camw e f u (fun b =>
    .wait b 2 (.camw (mBits f.m 0 2) (mBits f.m 8 6) (mTf f.m) (deadlineOf b.tm.phys f.t.toNat))) s

/-- WAITS (0x79). -/
def execWaits (e : Fin 16) (f : FormC) (u : Upset) (s : State) : Host.Outcome State Fault Refusal :=
  runC .waits e f u (fun b =>
    .wait b 3 (.sigs (f.cond == 1) (f.m.extractLsb' 0 8) (mBits f.m 8 6) (mTf f.m) (deadlineOf b.tm.phys f.t.toNat))) s

/-- BAR (0x7A). -/
def execBar (e : Fin 16) (f : FormC) (u : Upset) (s : State) : Host.Outcome State Fault Refusal :=
  runC .bar e f u (fun b =>
    .wait b 3 (.bar (f.m.extractLsb' 0 16) (mTf f.m) (deadlineOf b.tm.phys f.t.toNat))) s

/-! ### The end of a wait -/

/-- The TF field of a wait. -/
def waitTf : Wait → Nat
  | .none => 0
  | .time _ _ tf | .boundary _ tf | .line _ _ _ tf _ | .camw _ _ tf _ | .sigs _ _ _ tf _ | .bar _ tf _ => tf

/-- The instant at which the wait part of the wait of engine `x` began. -/
def Engine.waitFrom (x : Engine) : Nat := x.waitSince.getD 0

/-- The instant of TimeSt.phys of a GAL tick not before `t`. -/
def tickUp (t : Nat) : Nat := ceilDiv t tick * tick

/-- The wait of engine `n` ends at instant `t` (R149): `upd` writes its registers, TF is written,
and the next instruction begins in that tick, also where the command comes later. A disabled engine writes nothing (R150). -/
def Block.endWait (b0 : Block) (n : Nat) (t : Nat) (timeout : Bool) (res : Word) (upd : Engine → Engine) : Block :=
  let b := b0.reachPhys t
  let x := b.engine n
  if h : n < 16 then
    let e : Fin 16 := ⟨n, h⟩
    let lat := (t - x.insnAt) / tick
    let b1 := b.mapE e (fun y =>
      { (upd y).wf (BitVec.ofNat 3 (waitTf x.wait)) timeout with
        wait := .none, waitSince := none, pc := x.pc + 1, readyAt := t })
    let b2 := (b1.putB (GAL_STAT_WAIT n) false).engEvent n (waitEvent x.wait) ((t - x.waitFrom) / tick - x.seenWait)
    b2.completed e x.insnAt x.insnStw (x.word x.pc) x.pc lat false false timeout x.insnRetry 0 res
  else b

/-- Release by the condition, one register written. -/
def Block.releaseReg (b : Block) (n t reg : Nat) (v : Word) : Block :=
  b.endWait n t false v (fun x => x.wr (BitVec.ofNat 6 reg) v)

/-- WAITT_RELEASE: the STW reaches the target, which Gr receives, or a pending trigger releases a
boundary wait at once (R151, R175). -/
def execWaittRelease (e : Fin 16) (s : State) : Host.Outcome State Fault Refusal :=
  done s fun b =>
    let x := b.eng[e]
    match x.wait with
    | .time target gr _ =>
      b.releaseReg e (max x.waitFrom (tickUp (b.instantOf target))) gr target
    | .boundary gr _ =>
      match x.trig with
      | some w => (b.mapE e (fun y => { y with trig := none })).releaseReg e x.waitFrom gr w
      | none => b
    | _ => b

/-- Where the predicted crossing of a position wait lies: the STW (R127 a); none on an ACQUIRING
axis and while the status is NOCROSS. -/
def Block.lineCross (b : Block) (w : WaitSlot) : Option Word :=
  let src := b.get (LAN_AXCFG_SRC w.axis)
  let x := b.axes[w.axis]?.getD Axis.reset
  if b.axState w.axis == 1 then none
  else (waitCross src x b.stw w).map (fun d => b.stw + BitVec.ofNat 72 (ofSigned 72 d))

/-- The deadline of a wait has passed at an instant. -/
def pastDeadline (dl : Option Nat) (t : Nat) : Bool :=
  match dl with
  | some d => decide (d < t)
  | none => false

/-- WAITL_RELEASE: a position wait releases by R127 and writes its status (R152). -/
def execWaitlRelease (e : Fin 16) (s : State) : Host.Outcome State Fault Refusal :=
  done s fun b0 =>
    let x := b0.eng[e]
    match x.wait with
    | .line _ (some st) gs _ _ =>
      b0.releaseReg e (tickUp (max x.waitFrom b0.tm.phys)) gs (BitVec.ofNat 72 st)
    | .line w none gs _ dl =>
      let b := b0.reachPhys x.waitFrom
      match b.lineCross w with
      | some c =>
        let b1 := b.reachStw c
        if pastDeadline dl b1.tm.phys then b0 else b1.releaseReg e (tickUp b1.tm.phys) gs 0
      | none => b0
    | _ => b0

/-- CAMW_RELEASE: the batch of the tag has completed, or none is outstanding under it (R155). -/
def execCamwRelease (e : Fin 16) (s : State) : Host.Outcome State Fault Refusal :=
  done s fun b =>
    let x := b.eng[e]
    match x.wait with
    | .camw tag gs _ dl =>
      match x.tags[tag]?.getD .free with
      | .free => b.releaseReg e x.waitFrom gs 14
      | .done st =>
        let t := max x.waitFrom (x.doneAt[tag]?.getD 0 + tick)
        if pastDeadline dl t then b
        else (b.mapE e (fun y => { y with tags := vmod y.tags tag (fun _ => .free) })).releaseReg e t gs st
      | .outstanding => b
    | _ => b

/-- The signals among `v` that end a WAITS: any or all of its mask. -/
def sigMatch (all : Bool) (mask v : BitVec 8) : Bool :=
  if all then v &&& mask == mask else v &&& mask != 0

/-- The signals of an engine that were visible before an instant. -/
def Engine.sigBefore (x : Engine) (t : Nat) : BitVec 8 :=
  (x.sigPend.filter (fun p => p.1 < t)).foldl (fun v p => v ||| p.2) x.sig

/-- The first instant from `t` on at which a WAITS may be released, among the instants at which
signals become visible. -/
def Engine.sigWhen (x : Engine) (all : Bool) (mask : BitVec 8) (t : Nat) : Option Nat :=
  let ts := (x.sigPend.map (·.1)).filter (fun p => t < p && sigMatch all mask (x.sigAt p))
  if sigMatch all mask (x.sigAt t) then some t
  else ts.foldl (fun o p => match o with | none => some p | some q => some (min p q)) none

/-- What a WAITS takes at an instant: the bits that were set before it, or, where these do not
release it, those that become visible in that tick. A signal that arrives in the tick of the
clear is applied after it (R156). -/
def Engine.sigTake (x : Engine) (all : Bool) (mask : BitVec 8) (t : Nat) : BitVec 8 × Engine :=
  if sigMatch all mask (x.sigBefore t) then
    let got := x.sigBefore t &&& mask
    (got, { x with sig := x.sigBefore t &&& ~~~ got, sigPend := x.sigPend.filter (fun p => t ≤ p.1) })
  else
    let got := x.sigAt t &&& mask
    (got, { x with sig := x.sigAt t &&& ~~~ got, sigPend := x.sigPend.filter (fun p => t < p.1) })

/-- WAITS_RELEASE: any or all of the mask's signals are set; they go to Gs and are cleared. -/
def execWaitsRelease (e : Fin 16) (s : State) : Host.Outcome State Fault Refusal :=
  done s fun b =>
    let x := b.eng[e]
    match x.wait with
    | .sigs all mask gs _ dl =>
      match x.sigWhen all mask x.waitFrom with
      | some t =>
        if pastDeadline dl t then b
        else
          let r := x.sigTake all mask t
          (b.mapE e (fun _ => r.2)).releaseReg e t gs (r.1.zeroExtend 72)
      | none => b
    | _ => b

/-- Engine `m` waits in a BAR with a mask. -/
def Block.inBar (b : Block) (mask : BitVec 16) (m : Nat) : Bool :=
  match (b.engine m).wait with
  | .bar k _ _ => k == mask
  | _ => false

/-- The engines of a mask. -/
def members (mask : BitVec 16) : List Nat := (List.range 16).filter (fun k => mask.getLsbD k)

/-- Release a list of engines in one tick. -/
def Block.releaseAll (b : Block) (t : Nat) : List Nat → Block
  | [] => b
  | m :: r => (b.endWait m t false 0 id).releaseAll t r

/-- The tick after the last engine of a mask arrived at its BAR (R157). -/
def Block.barTick (b : Block) (mask : BitVec 16) : Nat :=
  ((members mask).map (fun m => (b.engine m).waitFrom)).foldl max 0 + tick

/-- BAR_RELEASE: every engine of the mask waits in a BAR with that mask; all are released in the tick
after the last one arrived (R157). -/
def execBarRelease (e : Fin 16) (s : State) : Host.Outcome State Fault Refusal :=
  done s fun b =>
    match b.eng[e].wait with
    | .bar mask _ dl =>
      if (members mask).all (b.inBar mask) && !pastDeadline dl (b.barTick mask) then
        b.releaseAll (b.barTick mask) (members mask)
      else b
    | _ => b

/-- A wait would release by its condition not later than instant `d`. A release and a timeout in one tick are no case that R149
orders: the release wins (DESIGN CHOICE, log entry 71). -/
def Block.releasesBy (b : Block) (x : Engine) (d : Nat) : Bool :=
  match x.wait with
  | .line _ (some _) _ _ _ => decide (b.tm.phys ≤ d)
  | .line w none _ _ _ =>
    match b.lineCross w with
    | some c => decide ((b.reachStw c).tm.phys ≤ d)
    | none => false
  | .camw tag _ _ _ =>
    match x.tags[tag]?.getD .free with
    | .free => true
    | .done _ => decide (x.doneAt[tag]?.getD 0 + tick ≤ d)
    | .outstanding => false
  | .sigs all mask _ _ _ =>
    match x.sigWhen all mask x.waitFrom with
    | some t => decide (t ≤ d)
    | none => false
  | .bar mask _ _ => (members mask).all (b.inBar mask) && decide (b.barTick mask ≤ d)
  | _ => false

/-- The timeout of a wait and the status it writes (R152, R155): register and value. -/
def waitDeadline : Wait → Option (Nat × Option (Nat × Nat))
  | .line _ _ gs _ (some d) => some (d, some (gs, 7))
  | .camw _ gs _ (some d) => some (d, some (gs, 15))
  | .sigs _ _ _ _ (some d) => some (d, none)
  | .bar _ _ (some d) => some (d, none)
  | _ => none

/-- WAIT_TIMEOUT: the timeout of a wait elapses before its condition holds (R149). -/
def execWaitTimeout (e : Fin 16) (s : State) : Host.Outcome State Fault Refusal :=
  done s fun b =>
    let x := b.eng[e]
    match waitDeadline x.wait with
    | some (d, wr) =>
      let t := max d x.waitFrom
      if b.releasesBy x d then b
      else match wr with
        | some (gs, v) => b.endWait e t true (BitVec.ofNat 72 v) (fun y => y.wr (BitVec.ofNat 6 gs) (BitVec.ofNat 72 v))
        | none => b.endWait e t true 0 id
    | none => b

end Sys2Proof.Machine
end

