-- ==== Sys2Proof/Machine/Snapshot.lean ====
section
/-! DEFINITION. Counter acknowledges, snapshots of the statistics counters, and the host's side of
the trace and the performance counters (R20, R474 to R489). -/

namespace Sys2Proof.Machine

/-! ### Counters -/

/-- The register at an offset is a counter: COUNT in [39:0] and ACK in [40]. -/
def isCounter (a : Nat) : Bool :=
  match regAt a with
  | none => false
  | some r => r.fields.map (fun f => (f.lo, f.w)) == [(0, 40), (40, 1)]

/-- All pairs of two lists. -/
def grid (xs ys : List Nat) : List (Nat × Nat) := xs.flatMap (fun x => ys.map (fun y => (x, y)))

/-- The statistics counters of Table 16-1: (live offset, shadow offset within a bank). -/
def snapMap : List (Nat × Nat) :=
  (grid (List.range 33) (List.range 46)).map (fun p => (MAC_STAT_CNT p.1 p.2, 0x1000 + 0x400 * p.1 + 16 * p.2)) ++
  (grid (List.range 32) (List.range 5)).map (fun p => (MAC_PTP_CNT p.1 p.2, 0x1300 + 0x400 * p.1 + 16 * p.2)) ++
  (grid (List.range 36) (List.range 5)).map (fun p => (SDS_CNT p.1 p.2, 0xA000 + 0x80 * p.1 + 16 * p.2)) ++
  (grid (List.range 32) (List.range 9)).map (fun p => (ZRG_CNT p.1 p.2, 0xC000 + 0x100 * p.1 + 16 * p.2)) ++
  (grid (List.range 8) (List.range 5)).map (fun p => (CMP_IN_CNT p.1 p.2, 0xE000 + 0x80 * p.1 + 16 * p.2)) ++
  (List.range 8).map (fun i => (FLW_CNT i, 0xE800 + 16 * i)) ++
  (List.range 4).map (fun i => (SWC_G_CNT i, 0xF000 + 16 * i)) ++
  (grid (List.range 35) (List.range 7)).map (fun p => (SWC_S_CNT p.1 p.2, 0x10000 + 0x80 * p.1 + 16 * p.2)) ++
  (grid (List.range 34) (grid (List.range 9) (List.range 7) |>.map (fun p => p.1 * 8 + p.2))).flatMap
    (fun p => if p.1 < 32 || p.2 / 8 < 8 then
      [(SWC_EC_CNT p.1 (p.2 / 8) (p.2 % 8), 0x12000 + 0x600 * p.1 + 0x80 * (p.2 / 8) + 16 * (p.2 % 8))] else []) ++
  (grid (List.range 34) (List.range 2)).map (fun p => (SWC_E_CNT p.1 p.2, 0x12000 + 0x600 * p.1 + 0x500 + 16 * p.2))

/-- STS_HALFSUM of one group after an acknowledge: set while some counter of it has bit 39. -/
def Block.halfSum (b : Block) (g : Nat) : Block :=
  if snapMap.any (fun p => statGroup p.1 == some g && decide (2 ^ 39 ≤ b.count p.1)) then
    b.setBit STS_HALFSUM_GROUP g
  else b.clrBit STS_HALFSUM_GROUP g

/-- An acknowledge of the counter at offset `a` (R20, R475). -/
def Block.ackCounter (b0 : Block) (a : Nat) : Block :=
  let b := if 0x3C0000 ≤ a ∧ a < 0x3E0000 then b0.prfTouch else b0
  if isCounter a && decide (2 ^ 39 ≤ b.count a) then
    let b1 := b.setReg a (withField (b.reg a) 0 40 (b.count a - 2 ^ 39))
    let b2 := { b1 with snap := { b1.snap with
      acks := sput (fun _ => 0) b1.snap.acks a ((sget (fun _ => 0) b1.snap.acks a + 1) % 256) } }
    let b3 :=
      if 0x140000 ≤ a && a < 0x161000 && (a - 0x140000) % 0x1000 < 0x800 then
        b2.clrBit (MAC_HALF_BIT39 ((a - 0x140000) / 0x1000)) (((a - 0x140000) % 0x1000 - 0x400) / 16)
      else b2
    match statGroup a with
    | some g => b3.halfSum g
    | none => b3
  else b

/-- COUNTER_ACK: a write of 1 to the acknowledge field of the counter at BAR0 offset `a`. -/
def Block.counterAckAct (a : BitVec 24) (b : Block) : Block := b.ackCounter a.toNat

/-- COUNTER_ACK. -/
def execCounterAck (a : BitVec 24) (s : State) : Host.Outcome State Fault Refusal :=
  done s (byHost (.counterAck a) (Block.counterAckAct a))

/-! ### Snapshots (R476 to R480) -/

/-- Arm a snapshot (R476, R477): for an STW, or for the present. False when one is armed. -/
def Block.armSnap (b : Block) (at_ : Option Word) (owner : Nat) : Block × Bool :=
  if b.flag STS_SNAPSTAT_ARMED then (b, false)
  else
    let now := b.stw
    let late := match at_ with | some w => !before now w | none => false
    let strobe := match at_ with | some w => if late then now else w | none => now
    let b1 := (b.putB STS_SNAPSTAT_ARMED true).put STS_SNAPSTAT_OWNER owner
    let b2 := if late then b1.putB STS_CAUSE_LATE true else b1
    ({ b2 with snap := { b2.snap with strobe := some strobe, late := late, struck := false } }, true)

/-- A host arming: REFUSED shows whether it was refused (R476). -/
def Block.hostSnap (b : Block) (at_ : Option Word) : Block :=
  let (b1, ok) := b.armSnap at_ 16
  b1.putB STS_SNAPSTAT_REFUSED (!ok)

/-- SNAP_ARM: a write of STS_SNAP_CTL.ARM. -/
def Block.snapArmAct (b : Block) : Block := b.hostSnap (some (b.reg STS_SNAP_AT))

/-- SNAP_ARM. -/
def execSnapArm (s : State) : Host.Outcome State Fault Refusal :=
  done s (byHost .snapArm Block.snapArmAct)

/-- SNAP_NOW: a write of STS_SNAP_CTL.NOW. -/
def Block.snapNowAct (b : Block) : Block := b.hostSnap none

/-- SNAP_NOW. -/
def execSnapNow (s : State) : Host.Outcome State Fault Refusal :=
  done s (byHost .snapNow Block.snapNowAct)

/-- Disarm a snapshot whose strobe has not occurred (R476). -/
def Block.snapCancel (b : Block) : Block :=
  if b.flag STS_SNAPSTAT_ARMED && !b.snap.struck then
    { b.putB STS_SNAPSTAT_ARMED false with snap := { b.snap with strobe := none } }
  else b

/-- SNAP_CANCEL: a write of STS_SNAP_CTL.CANCEL. -/
def execSnapCancel (s : State) : Host.Outcome State Fault Refusal :=
  done s (byHost .snapCancel Block.snapCancel)

/-- The shadow entry of one counter at the strobe (R475, R480). -/
def Block.snapEntry (b : Block) (p : Nat × Nat) : Nat × Word :=
  (p.2, if b.regOn p.1 then
    BitVec.ofNat 72 (b.count p.1 + sget (fun _ => 0) b.snap.acks p.1 * 2 ^ 40) else 0)

/-- OFFMASK: the domains that are off (R480). -/
def Block.offMask (b : Block) : BitVec 12 := BitVec.ofNat 12 (4095 - b.get PWR_STAT_DOMON % 4096)

/-- SNAP_STROBE: at the strobe instant every block latches its counters (R477). -/
def execSnapStrobe (s : State) : Host.Outcome State Fault Refusal :=
  done s fun b0 =>
    match b0.snap.strobe with
    | some w =>
      if b0.flag STS_SNAPSTAT_ARMED && !b0.snap.struck then
        let b := b0.reachStw w
        { b with snap := { b.snap with
          struck := true, ltH := b.ltHighNow, ltL := ltLow b.tm.lt, offMask := b.offMask
          latched := snapMap.map b.snapEntry } }
      else b0
    | none => b0

/-- Write a list of registers. -/
def Block.setRegs (b : Block) : List (Nat × Word) → Block
  | [] => b
  | (a, v) :: r => (b.setReg a v).setRegs r

/-- SNAP_TRANSFER_DONE: the copies stand in the idle bank, at most 2 µs after the strobe (R478). -/
def execSnapTransferDone (s : State) : Host.Outcome State Fault Refusal :=
  done s fun b0 =>
    if b0.flag STS_SNAPSTAT_ARMED && b0.snap.struck then
      let b := match b0.snap.strobe with | some w => b0.reachStw (w + BitVec.ofNat 72 (2000 * 2 ^ 16)) | none => b0
      let k := 1 - b.get STS_SNAPSTAT_CUR
      let seq := (b.get STS_SNAPSTAT_SEQ + 1) % 2 ^ 32
      let b1 := b.setRegs (b.snap.latched.map (fun p => (0x380000 + 0x20000 * k + p.1, p.2)))
      let b2 := ((((b1.put (STS_BANK_HDR_SEQ k) seq).put (STS_BANK_HDR_OWNER k) (b.get STS_SNAPSTAT_OWNER)).putB
        (STS_BANK_HDR_LATE k) b.snap.late).put (STS_BANK_HDR_OFFMASK k) b.snap.offMask.toNat).putB
        (STS_BANK_HDR_VALID k) true
      let b3 := (b2.setReg (STS_BANK_LT k) b.snap.ltH).setReg (STS_BANK_LTL k) b.snap.ltL
      let b4 := (((b3.put STS_SNAPSTAT_SEQ seq).put STS_SNAPSTAT_CUR k).putB STS_SNAPSTAT_ARMED false).putB STS_CAUSE_DONE true
      Block.raise { b4 with snap := { b4.snap with strobe := none, struck := false, latched := [] } } evSnapDone
    else b0

/-! ### Trace and performance counters (R484, R488, R489) -/

/-- Store the RW fields of PRF_TRCTL; N 0 and EVSEL 7 to 15 are reserved values. An EN that becomes 1 starts every count of MODE 0
(R486). -/
def Block.trctlStore (b : Block) (data : Half) : Block :=
  let w := data.toNat
  let n := w / 2 ^ 19 % 2 ^ 20
  let start := !b.flag PRF_TRCTL_EN && w % 2 == 1
  let e := w / 2 ^ 39 % 2 ^ 4
  let v : Nat := w % 2 ^ 19 + (if n = 0 then b.get PRF_TRCTL_N else n) * 2 ^ 19 +
    (if 6 < e then b.get PRF_TRCTL_EVSEL else e) * 2 ^ 39 + w / 2 ^ 43 % 2 ^ 16 * 2 ^ 43
  let b1 := b.setReg PRF_TRCTL (BitVec.ofNat 72 v)
  if start then
    { b1 with trc := { b1.trc with counts := Vector.replicate 16 0, fullRaised := false } }
  else b1

/-- A write of PRF_TRCTL.CLR: the buffer empties; COUNT, WPTR and LOST are zero (R488). -/
def Block.traceClr (b : Block) (data : Half) : Block :=
  let b1 := b.trctlStore data
  { b1.setReg PRF_TRSTAT 0 with trc := { b1.trc with buf := [], qLen := 0, fullRaised := false } }

/-- TRACE_CLR. -/
def Block.traceClrAct (data : Half) (b : Block) : Block := b.traceClr data

/-- TRACE_CLR. -/
def execTraceClr (data : Half) (s : State) : Host.Outcome State Fault Refusal :=
  done s (byHost (.traceClr data) (Block.traceClrAct data))

/-- A write of PRF_TRIDX loads a record (R489). -/
def Block.traceLoad (b : Block) (data : Half) : Block :=
  let b1 := b.put PRF_TRIDX_IDX data.toNat
  let r := sget (fun _ => TraceRec.zero) b1.trc.buf (b1.get PRF_TRIDX_IDX)
  (((b1.setReg (PRF_TRW 0) r.w0).setReg (PRF_TRW 1) r.w1).setReg (PRF_TRW 2) r.w2).setReg (PRF_TRW 3) r.w3

/-- TRACE_LOAD. -/
def Block.traceLoadAct (data : Half) (b : Block) : Block := b.traceLoad data

/-- TRACE_LOAD. -/
def execTraceLoad (data : Half) (s : State) : Host.Outcome State Fault Refusal :=
  done s (byHost (.traceLoad data) (Block.traceLoadAct data))

/-- The eight bytes of the low half of a register, lowest first (R60). -/
def Block.lowHalf (b : Block) (a : Nat) : List Byte :=
  (List.range 8).map (fun k => BitVec.ofNat 8 ((b.reg a).toNat / 2 ^ (8 * k)))

/-- PERF_COUNTER_READ: a host read of a performance counter samples it when it is served (R484). -/
def Block.perfCounterReadAct (a : BitVec 24) (b : Block) : Block :=
  if isCounter a.toNat && 0x3C0000 ≤ a.toNat && a.toNat < 0x3E0000 && b.regOn a.toNat then
    b.prfTouch.emit (.readData a.toNat (b.prfTouch.lowHalf a.toNat) false)
  else b

/-- PERF_COUNTER_READ. -/
def execPerfCounterRead (a : BitVec 24) (s : State) : Host.Outcome State Fault Refusal :=
  done s (byHost (.perfCounterRead a) (Block.perfCounterReadAct a))

end Sys2Proof.Machine
end

