-- ==== Sys2Proof/Machine/GalleryFrames.lean ====
section
/-! DEFINITION. Frames, gates and snapshots from the Gallery: EMIT, PATCH, GATE and SNAP (R158 to
R162). -/

namespace Sys2Proof.Machine

/-- Size of an emission buffer in bytes (Table 4-1). -/
def emissionSize : Nat := 36864

/-- Bytes in an emission buffer: those of cells that the emission path has moved are free again, and a frame of a former run
takes none (R134). -/
def emisUsed (l : List EFrame) : Nat := (l.map (fun f => if f.old then 0 else f.bytes.length - 144 * f.moved)).sum

/-- First data-store word and LEN of a directory entry (Table 5-7). -/
def dirFirst (w : Word) : Nat := fieldOf w 0 14

/-- LEN of a directory entry. -/
def dirLen (w : Word) : Nat := fieldOf w 14 14

/-- The frame bytes of a template: eight per word in bits [63:0], the first in [63:56] (R158). -/
def Engine.template (x : Engine) (first len : Nat) : List Byte :=
  ((List.range (ceilDiv len 8)).flatMap (fun k => bytesBE ((x.load (first + k)).toNat % 2 ^ 64) 8)).take len

/-- Write a flag SF (R142) and go on. -/
def putSf (e : Fin 16) (sf : BitVec 3) (ok : Bool) (cost : Nat) (b : Block) : Act :=
  .go (b.mapE e (fun x => x.wf sf ok)) cost 0 (!ok)

/-- A frame released to the emission path joins the digest (R511). -/
def Block.digFrame (b : Block) (n : Nat) (fr : EFrame) : Block :=
  b.digEngine n (Config.digestHead fr.port fr.cls fr.sch ++ fr.bytes)

/-- EMIT (0x80). The copy begins after 8 ticks; a word that hardware writes before it is read joins the frame
(`Engine.hwStore`). -/
def execEmit (e : Fin 16) (f : FormD) (u : Upset) (s : State) : Host.Outcome State Fault Refusal :=
  runD .emit e f u (fun b =>
    let x := b.eng[e]
    match x.dir[f.sel.toNat]? with
    | none => .trap 7
    | some w =>
      let len := dirLen w
      let i := f.imm.toNat
      let hold := i / 2 ^ 10 % 2 == 1
      let slot := i / 2 ^ 11 % 4
      let ok := decide (emisUsed x.emis + len ≤ emissionSize) &&
        !(hold && x.emis.any (fun g => g.hold == some slot))
      let fr : EFrame := { bytes := x.template (dirFirst w) len, port := i % 64, cls := i / 64 % 8
                           sch := i / 2 ^ 9 % 2 == 1, hold := if hold then some slot else none
                           cycle := b.cyc.count, moved := 0, rel := b.tm.phys + (8 + ceilDiv len 16) * tick
                           src := dirFirst w, copyAt := b.tm.phys + 8 * tick, old := false }
      let b1 := if ok then (b.mapE e (fun y => { y with emis := y.emis ++ [fr] })).engEvent e 8 len else b
      let b1 := if ok && !hold then b1.digFrame e fr else b1
      putSf e f.sf ok (8 + ceilDiv len 16) b1) s

/-- Overwrite bytes of a list from position `k` on. -/
def overwrite : List Byte → Nat → List Byte → List Byte
  | l, _, [] => l
  | l, k, v :: r => overwrite (l.set k v) (k + 1) r

/-- The bytes that PATCH writes (R159): FMT 0 the low bytes of RA, FMT 1 binary32, FMT 2 binary16. -/
def patchBytes (fmt width : Nat) (v : Word) : List Byte :=
  if fmt == 0 then bytesBE v.toNat width
  else if fmt == 1 then bytesBE (toF32 (sval v) (-32)) 4
  else bytesBE (toF16 (sval v) (-32) false) 2

/-- The next cycle boundary that is due, in ns of the time scale. -/
def Block.nextBoundary (b : Block) : Option Nat :=
  if b.cyc.inProg then some b.cyc.next else b.cyc.firstAt

/-- A cycle boundary falls before the end of an instruction of `ticks` ticks that begins now. -/
def Block.boundaryWithin (b : Block) (ticks : Nat) : Bool :=
  match b.nextBoundary with
  | some t => decide (t * nsUnit < b.tm.lt + ticks * nsUnit)
  | none => false

/-- PATCH (0x81). -/
def execPatch (e : Fin 16) (f : FormD) (u : Upset) (s : State) : Host.Outcome State Fault Refusal :=
  runD .patch e f u (fun b =>
    let x := b.eng[e]
    let i := f.imm.toNat
    let off := i % 2 ^ 14
    let width := i / 2 ^ 14 % 16
    let rel := i / 2 ^ 20 % 2 == 1
    let slot := i / 2 ^ 21 % 4
    match x.emis.find? (fun g => g.hold == some slot) with
    | none => putSf e f.sf false 3 b
    | some g =>
      if width ≠ 0 ∧ g.bytes.length < off + width then .trap 7
      else if b.boundaryWithin 3 then putSf e f.sf false 3 b
      else
        let v := patchBytes (i / 2 ^ 18 % 4) width (x.rd f.ra)
        let upd := fun (y : EFrame) =>
          if y.hold == some slot then
            { y with bytes := overwrite y.bytes off v, hold := if rel then none else y.hold, rel := b.tm.phys + 3 * tick }
          else y
        let after := if rel then x.emis.filter (fun z => z.hold != some slot) ++ [upd g] else x.emis.map upd
        let b1 := b.mapE e (fun y => { y with emis := after })
        putSf e f.sf true 3 (if rel then b1.digFrame e (upd g) else b1)) s

/-- GATE (0x82): the mask is IMM, or RA[31:0] with REG; a user image must stay in its port mask. -/
def execGate (e : Fin 16) (f : FormD) (u : Upset) (s : State) : Host.Outcome State Fault Refusal :=
  runD .gate e f u (fun b =>
    let mask := if f.sel.getLsbD 1 then (b.eng[e].rd f.ra).toNat % 2 ^ 32 else f.imm.toNat
    if !b.priv e && Nat.land mask (2 ^ 32 - 1 - b.get (GAL_PMASK_MASK e)) != 0 then .trap 2
    else
      let tick := (b.tm.phys - b.pair.trigAt) / nsUnit
      .go ((b.gates (f.sel.getLsbD 0) mask).digEngine e (Config.digestGate mask (f.sel.getLsbD 0) tick)) 2 0 false) s

/-- SNAP (0x83). -/
def execSnap (e : Fin 16) (f : FormD) (u : Upset) (s : State) : Host.Outcome State Fault Refusal :=
  runD .snap e f u (fun b =>
    let r := b.armSnap (if f.sel.getLsbD 0 then none else some (b.eng[e].rd f.ra)) e
    putSf e f.sf r.2 4 r.1) s

end Sys2Proof.Machine
end

