-- ==== Sys2Proof/Machine/CamTable.lean ====
section
/-! DEFINITION. Cam tables and the arithmetic of an evaluation: segments, the quintic, crossings
and the seek (R198 to R205). Coordinates and positions are integers in units of 2^-32. -/

namespace Sys2Proof.Machine

/-- A table descriptor as an evaluation uses it (R200, Table 6-7); `ymod` in units of 2^-32. -/
structure CamTab where
  addr : Nat
  nseg : Nat
  cyc : Bool
  xs : Int
  ymod : Int

/-- Descriptor `t`, where its VALID is set and it is no invalid table of R200. -/
def Block.camTab (b : Block) (t : Nat) : CamTab :=
  { addr := b.get (FLW_TABA_ADDR t), nseg := b.get (FLW_TABA_NSEG t), cyc := b.flag (FLW_TABA_CYC t)
    xs := b.geti (FLW_TABB_XS t), ymod := b.get (FLW_TABC_YMOD t) * 2 ^ 32 }

/-- Number of blocks of a table (R198). -/
def CamTab.blocks (t : CamTab) : Nat := ceilDiv t.nseg 63

/-- None of the cases of R200 makes the descriptor an invalid table. -/
def CamTab.ok (t : CamTab) : Bool :=
  t.addr % 128 == 0 && t.nseg != 0 && decide (t.addr + 128 * t.blocks ≤ lastWord + 1) &&
    !(t.cyc && decide (t.xs ≤ 0))

/-- Table `t` may be used. -/
def Block.tabUsable (b : Block) (t : Nat) : Bool := b.flag (FLW_TABA_VALID t) && (b.camTab t).ok

/-- Cavern word of segment `i` (R198). -/
def CamTab.segKey (t : CamTab) (i : Nat) : Nat := t.addr + 128 * (i / 63) + 2 + 2 * (i % 63)

/-- A sum kept in 72 bits: formed exactly, reduced once (R201). -/
def s72 (x : Int) : Int := sval (ofInt x)

/-- The table coordinate of a master coordinate (R200). -/
def CamTab.coord (t : CamTab) (u : Int) : Int := if t.cyc then u % t.xs else s72 (u - t.xs)

/-- d modulo XP in [−XP/2, XP/2) (R201). -/
def reduceD (d xp : Int) : Int := let r := d % xp; if xp ≤ 2 * r then r - xp else r

/-! ### Segments (R199, R201) -/

/-- A segment: its two words. -/
abbrev Seg := Word × Word

/-- An entry of the segment cache: a segment and the word before it, which is the anchor value where the segment starts a
block (R198, R214). A miss of such a segment reads three words, of another two (R226). -/
abbrev Entry := Seg × Word

/-- x of SPAN. -/
def segX (p : Seg) : Nat := fieldOf p.1 66 6
/-- m of SPAN. -/
def segM (p : Seg) : Nat := fieldOf p.1 56 10
/-- EXP. -/
def segE (p : Seg) : Int := toSigned 8 (fieldOf p.1 48 8)
/-- The mantissas c1 to c5. -/
def segC (p : Seg) : List Int :=
  [toSigned 24 (fieldOf p.1 24 24), toSigned 24 (fieldOf p.1 0 24), toSigned 24 (fieldOf p.2 48 24),
   toSigned 24 (fieldOf p.2 24 24), toSigned 24 (fieldOf p.2 0 24)]

/-- A reserved SPAN or EXP (R199). -/
def segBad (p : Seg) : Bool := decide (52 < segX p) || decide (segE p < -40) || decide (38 < segE p)

/-- L: the span of a segment (R199). -/
def segLen (p : Seg) : Int := ((1024 + segM p) * 2 ^ segX p : Nat)

/-- floor(n × 2^k). -/
def scaleFloor (n k : Int) : Int := if 0 ≤ k then n * 2 ^ k.toNat else n / 2 ^ (-k).toNat

/-- D: the end increment of a segment (R201). -/
def segEnd (p : Seg) : Int := scaleFloor (segC p).sum (segE p + 8)

/-- floor(2^50 / (1024 + m)). -/
def segRcp (p : Seg) : Nat := 2 ^ 50 / (1024 + segM p)

/-- t32 of an offset d (R201). -/
def segT (p : Seg) (d : Int) : Int := min (d * segRcp p / 2 ^ (18 + segX p)) (2 ^ 32 - 1)

/-- Σ g(k) × c_k × t^(k−j) × 2^(32(5−k)) over the mantissas from number k on. -/
def polySum (g : Nat → Int) (j : Nat) (t : Int) : Nat → List Int → Int
  | _, [] => 0
  | k, c :: r => (if k < j then 0 else g k * c * t ^ (k - j) * 2 ^ (32 * (5 - k))) + polySum g j t (k + 1) r

/-- p of R201. -/
def segP (p : Seg) (t : Int) : Int := scaleFloor (polySum (fun _ => 1) 0 t 1 (segC p)) (segE p - 152)

/-- vel of R201 as binary32; vm in units of 2^-32 line units per second. -/
def segVel (p : Seg) (t vm : Int) : Nat :=
  toF32 (polySum (fun k => k) 1 t 1 (segC p) * vm * segRcp p) (segE p - 202 - segX p)

/-- acc of R201 as binary32. -/
def segAcc (p : Seg) (t vm : Int) : Nat :=
  toF32 (polySum (fun k => k * (k - 1)) 2 t 1 (segC p) * vm * vm * segRcp p * segRcp p)
    (segE p - 220 - 2 * segX p)

/-! ### Crossings (R203, R204) -/

/-- An evaluation under way: table, segment, d, X0, Y0, crossings made, STEP, whether a switch is
pending, the place at which a switch made stands, and the cache entries used, latest first. -/
structure WalkSt where
  t : CamTab
  s : Nat
  d : Int
  x0 : Int
  y0 : Int
  n : Nat
  step : Bool
  swp : Bool
  mark : Option (Nat × Int × Int)
  keys : List Nat

/-- How the crossings end: in the segment, at the upper or lower end of a linear table, in a seek
(of the present table or of the linear table switched to), at a bad segment or an invalid NTAB, or
at a segment that the cache does not hold. -/
inductive WalkEnd
  | inside (w : WalkSt) (p : Seg)
  | upper (w : WalkSt) (p : Seg)
  | lower (w : WalkSt)
  | seek (w : WalkSt)
  | switchSeek (w : WalkSt)
  | bad (w : WalkSt) (addr : Nat)
  | badNtab (w : WalkSt)
  | miss (w : WalkSt) (key : Nat)

/-- One crossing forward from segment `w.s`, whose words are `p` (R203, R204). -/
def crossForward (look : Nat → Option Entry) (nt : Option CamTab) (u : Int) (w : WalkSt) (p : Seg) :
    WalkSt ⊕ WalkEnd :=
  let other := s72 (w.y0 + segEnd p)
  if w.s + 1 < w.t.nseg then
    let w1 := { w with x0 := s72 (w.x0 + segLen p), d := w.d - segLen p, s := w.s + 1, n := w.n + 1 }
    if (w.s + 1) % 63 = 0 then
      let k := w.t.segKey (w.s + 1)
      match look k with
      | none => .inr (.miss w k)
      | some (_, a) => .inl { w1 with y0 := sval a, step := w.step || sval a != other, keys := k :: w.keys }
    else .inl { w1 with y0 := other }
  else if w.swp then
    match nt with
    | none => .inr (.badNtab w)
    | some t2 =>
      if !t2.cyc then .inr (.switchSeek w)
      else if !t2.ok then .inr (.badNtab w)
      else
        let k := t2.segKey 0
        match look k with
        | none => .inr (.miss w k)
        | some (_, a) => .inl { w with
            t := t2, s := 0, d := reduceD (t2.coord u) t2.xs, x0 := 0, y0 := sval a, n := w.n + 1
            step := w.step || sval a != s72 (w.y0 + segEnd p - w.t.ymod), swp := false
            mark := some (0, 0, sval a), keys := k :: w.keys }
  else
    let k := w.t.segKey 0
    match look k with
    | none => .inr (.miss w k)
    | some (_, a) => .inl { w with
        s := 0, d := w.d - segLen p, x0 := 0, y0 := sval a, n := w.n + 1
        step := w.step || sval a != s72 (w.y0 + segEnd p - w.t.ymod), keys := k :: w.keys }

/-- One crossing backward from segment `w.s` (R203, R204). -/
def crossBack (look : Nat → Option Entry) (w : WalkSt) : WalkSt ⊕ WalkEnd :=
  let q := if w.s = 0 then w.t.nseg - 1 else w.s - 1
  let k := w.t.segKey q
  match look k with
  | none => .inr (.miss w k)
  | some (p, anc) =>
    if segBad p then .inr (.bad w k)
    else
      let x := if w.s = 0 then w.t.xs - segLen p else s72 (w.x0 - segLen p)
      let w1 := { w with s := q, x0 := x, d := w.d + segLen p, n := w.n + 1, keys := k :: w.keys }
      let other := s72 (if w.s = 0 then w.y0 + w.t.ymod - segEnd p else w.y0 - segEnd p)
      if q % 63 = 0 then .inl { w1 with y0 := sval anc, step := w.step || sval anc != other }
      else if w.s = 0 then
        let ka := w.t.segKey 0
        match look ka with
        | none => .inr (.miss w ka)
        | some (_, a) =>
          let y := s72 (sval a + w.t.ymod - segEnd p)
          .inl { w1 with y0 := y, step := w.step || y != other, keys := ka :: w1.keys }
      else .inl { w1 with y0 := other }

/-- Bring d into the span of a segment, with at most four crossings (R203, R204). -/
def camWalk (look : Nat → Option Entry) (nt : Option CamTab) (u : Int) : Nat → WalkSt → WalkEnd
  | 0, w => .seek w
  | fuel + 1, w =>
    let k := w.t.segKey w.s
    match look k with
    | none => .miss w k
    | some (p, _) =>
      let w1 := { w with keys := k :: w.keys }
      if segBad p then .bad w k
      else if 0 ≤ w.d ∧ w.d < segLen p then .inside w1 p
      else if !w.t.cyc ∧ segLen p ≤ w.d ∧ w.s + 1 = w.t.nseg then
        if w.swp then .switchSeek w1 else .upper w1 p
      else if !w.t.cyc ∧ w.d < 0 ∧ w.s = 0 then .lower w1
      else if w.n = 4 then .seek w1
      else
        match (if segLen p ≤ w.d then crossForward look nt u w1 p else crossBack look w1) with
        | .inl w2 => camWalk look nt u fuel w2
        | .inr e => e

/-- Where an evaluation starts: the record's segment, with d reduced in a cyclic table (R201). -/
def walkStart (t : CamTab) (s : Nat) (x0 y0 u : Int) (swp : Bool) : WalkSt :=
  let d := t.coord u - x0
  { t := t, s := s, d := if t.cyc then reduceD d t.xs else s72 d, x0 := x0, y0 := y0, n := 0, step := false
    swp := swp, mark := none, keys := [] }

/-! ### The seek (R205) -/

/-- How a seek ends: the segment found, an uncorrectable word, or a bad segment. -/
inductive SeekEnd
  | found (s : Nat) (x0 y0 : Int)
  | ue (addr : Nat)
  | bad (addr : Nat)

/-- A word of Cavern, unless it reads uncorrectable. -/
def Block.seekWord (b : Block) (a : Nat) : Option Int := if b.cavBad a then none else some (sval (b.cavGet a))

/-- The last block whose XB is not above the coordinate, by binary search between `lo` and `hi`; the
words read go in front of `ks`. -/
def Block.seekBlock (b : Block) (t : CamTab) (x : Int) : Nat → Nat → Nat → List Nat → List Nat × (Nat ⊕ Nat)
  | 0, lo, _, ks => (ks, .inl lo)
  | fuel + 1, lo, hi, ks =>
    if hi ≤ lo then (ks, .inl lo)
    else
      let mid := (lo + hi + 1) / 2
      let k := t.addr + 128 * mid
      match b.seekWord k with
      | none => (k :: ks, .inr k)
      | some xb =>
        if xb ≤ x then b.seekBlock t x fuel mid hi (k :: ks) else b.seekBlock t x fuel lo (mid - 1) (k :: ks)

/-- Accumulate forward from segment `s` of a block to the segment that contains the coordinate. -/
def Block.seekSeg (b : Block) (t : CamTab) (x : Int) (last : Nat) :
    Nat → Nat → Int → Int → List Nat → List Nat × SeekEnd
  | 0, s, x0, y0, ks => (ks, .found s x0 y0)
  | fuel + 1, s, x0, y0, ks =>
    let k := t.segKey s
    if b.cavBad k then (k :: ks, .ue k)
    else if b.cavBad (k + 1) then ((k + 1) :: k :: ks, .ue (k + 1))
    else
      let p : Seg := (b.cavGet k, b.cavGet (k + 1))
      let ks1 := (k + 1) :: k :: ks
      if segBad p then (ks1, .bad k)
      else if last ≤ s ∨ x < x0 + segLen p then (ks1, .found s x0 y0)
      else b.seekSeg t x last fuel (s + 1) (s72 (x0 + segLen p)) (s72 (y0 + segEnd p)) ks1

/-- The seek of master coordinate `u` in a table: the words read, latest first, and its end. -/
def Block.seekTab (b : Block) (t : CamTab) (u : Int) : List Nat × SeekEnd :=
  let x := t.coord u
  match b.seekBlock t x 20 0 (t.blocks - 1) [] with
  | (ks, .inr k) => (ks, .ue k)
  | (ks, .inl blk) =>
    let kx := t.addr + 128 * blk
    match b.seekWord kx, b.seekWord (kx + 1) with
    | none, _ => (kx :: ks, .ue kx)
    | some _, none => ((kx + 1) :: kx :: ks, .ue (kx + 1))
    | some xb, some a =>
      b.seekSeg t x (min (63 * blk + 62) (t.nseg - 1)) 63 (63 * blk) xb a ((kx + 1) :: kx :: ks)

end Sys2Proof.Machine
end

