-- ==== Sys2Proof/Machine/GalleryControl.lean ====
section
/-! DEFINITION. Control of the engines: triggers, starts, loads requested, disable, the spare,
data-store access and the clears (R170 to R176, R179, R187, R190 to R194, R34). -/

namespace Sys2Proof.Machine

/-! ### Triggers (R34, R174 to R176) -/

/-- The margin of a cycle's use: the ticks of the period of that cycle less 1 µs, less the use (R29, R35). -/
def Block.galMargin (b : Block) (n : Nat) : Nat := (b.cyc.budgetUs - 1) * 1000 - (b.engine n).use

/-- An engine stands in the wait part of a boundary wait at an instant. -/
def Engine.inBoundary (x : Engine) (t : Nat) : Bool :=
  match x.wait with
  | .boundary _ _ => decide (x.waitFrom ≤ t)
  | _ => false

/-- The Gr of a boundary wait. -/
def boundaryReg : Wait → Nat
  | .boundary gr _ => gr
  | _ => 0

/-- The margin of an engine that has finished a cycle opened by a trigger: its use is final in its boundary wait (R35, R176). -/
def Block.recordMargin (b : Block) (n : Nat) : Block :=
  let x := b.engine n
  if b.running n && x.opened && x.inBoundary b.tm.phys then b.lowWater (SYS_LWM_GAL_MIN n) (b.galMargin n) else b

/-- The margins of a list of engines, at the boundary that ends the cycle. -/
def Block.galMargins (b : Block) : List Nat → Block
  | [] => b
  | n :: r => (b.recordMargin n).galMargins r

/-- The cycle's figures of an engine in its boundary wait at the trigger (R35, R176). -/
def Block.recordCycle (b : Block) (n : Nat) : Block :=
  let x := b.engine n
  if x.opened then (b.recordMargin n).lowWater (GAL_SLACK_MIN n) ((b.tm.phys - x.waitFrom) / nsUnit) else b

/-- A trigger reaches an engine that has not entered its wait for it (R34): it is discarded and the cycle records slack 0;
its use goes on to the wait that ends it (R176). An
instruction in progress carries it into the trace (Table 16-5, EVSEL 6). -/
def Block.discardTrigger (b : Block) (n : Nat) : Block :=
  let x := b.engine n
  let b1 := (b.putB (SYS_LWM_GAL_OVR n) true).lowWater (GAL_SLACK_MIN n) 0
  let b2 := (b1.mapEng n (fun y => { y with trig := none })).raise evBudgetOvr
  if b.tm.phys < x.readyAt then
    match x.lastRec with
    | some r => b2.trace n (fieldOf r.w2 0 15) x.readyAt
        ⟨r, fieldOf r.w2 19 16, false, false, false, decide (fieldOf r.w2 38 4 ≠ 0), true⟩
    | none => b2
  else b2.mapEng n (fun y => { y with overrun := true })

/-- The trigger reaches a RUNNING engine (R34, R174). -/
def Block.triggerRunning (b : Block) (n : Nat) (w : Word) : Block :=
  let x := b.engine n
  if x.inBoundary b.tm.phys then
    ((b.recordCycle n).releaseReg n b.tm.phys (boundaryReg x.wait) w).mapEng n
      (fun y => { y with use := 0, opened := true })
  else b.discardTrigger n

/-- A relocated program restarts at the trigger (R175, R191). -/
def Block.restartMoved (b : Block) (n : Nat) (trig : Option Word) : Block :=
  (Block.begin_ { b with trc := { b.trc with counts := vmod b.trc.counts n (fun _ => 0) } } n trig).galCause (GAL_CAUSE_RELOC n) n

/-- The trigger reaches engine `n`: a relocation and a start take effect, a RUNNING engine is
released or loses the trigger, any other engine ignores it (R174, R175). A start waits for the checks of the
engine's banks (R540). -/
def Block.triggerOne (b : Block) (n : Nat) (w : Word) : Block :=
  let x := b.engine n
  if x.reloc then b.restartMoved n (some w)
  else if b.running n then b.triggerRunning n w
  else if x.startPend && !b.banksPending n then
    b.mapEng n (fun y => { y with startPend := false, startAt := some b.tm.phys, trig := some w })
  else b

/-- The trigger reaches a list of engines. -/
def Block.triggerAll (b : Block) (w : Word) : List Nat → Block
  | [] => b
  | n :: r => (b.triggerOne n w).triggerAll w r

/-- At trigger delivery one cycle of the digest closes and the next opens (R511). -/
def Block.digTurn (b : Block) (bound : Word) : Block :=
  let l := b.pair.digE.toList.flatten ++ b.pair.digF
  { b with pair := { b.pair with
    shut := if b.synced then some (b.pair.digAt, l) else none
    digE := Vector.replicate 16 [], digF := [], digAt := bound, trigAt := b.tm.phys } }

/-- CYCLE_TRIGGER: 10 ns after a boundary the trigger reaches the engines (R174). -/
def execCycleTrigger (s : State) : Host.Outcome State Fault Refusal :=
  done s fun b =>
    match b.cyc.triggerAt with
    | none => b
    | some t =>
      let b1 := b.reachNs t
      let w := stwOf (b.cyc.start * nsUnit)
      let b2 := (b1.digTurn w).triggerAll w (List.range 16)
      { b2 with cyc := { b2.cyc with triggerAt := none, budgetUs := b2.get SYS_CYCLE_PERIN } }

/-! ### GALn_CTL (R170, R175, R179, R187, R190) -/

/-- Set LCODE. -/
def Block.lcode (b : Block) (n code : Nat) : Block := b.put (GAL_STAT_LCODE n) code

/-- The state allows LOAD. -/
def loadable (st : Nat) : Bool := st == 0 || st == 2 || st == 4 || st == 5

/-- The state allows START. -/
def startable (st : Nat) : Bool := st == 2 || st == 4 || st == 5

/-- A load fails: EMPTY, LOADERR, LCODE, stores zero; AUTH raises IMAGE_AUTH (R187). -/
def Block.loadFail (b : Block) (n code : Nat) : Block :=
  let b1 := ((b.put (GAL_STAT_STATE n) 0).lcode n code).mapEng n (fun x =>
    { x with prog := [], data := [], dir := [], rings := [], plen := 0, entry := 0
             ownReport := none, peerReport := none, startPend := false, startAt := none })
  let b2 := b1.galCause (GAL_CAUSE_LOADERR n) n
  if code = 3 then b2.raise evImageAuth else b2

/-- A write of LOAD = 1 (R170, R187). -/
def Block.loadReq (b : Block) (n : Nat) : Block :=
  let st := b.get (GAL_STAT_STATE n)
  if st == 7 then b.lcode n 9
  else if !(loadable st && b.flag (GAL_CTL_EN n)) then b.lcode n 1
  else (((b.banksTaken n).homeCore n).put (GAL_STAT_STATE n) 1).mapEng n (fun x =>
    { x with laddr := b.get (GAL_LADDR_ADDR n), ownReport := none, peerReport := none
             startPend := false, startAt := none, trig := none, reloc := false })

/-- A write of START = 1 (R170, R175): it waits for the trigger, or for 1 µs while RUN is 0. With a LOST bank every START fails
with LOST (Table 5-2): at once where the state allows none, else when it takes effect. -/
def Block.startReq (b : Block) (n : Nat) : Block :=
  let st := b.get (GAL_STAT_STATE n)
  if st == 7 then b.lcode n 9
  else if !(startable st && b.flag (GAL_CTL_EN n)) then b.lcode n (if b.flag (GAL_STAT_LOST n) then 8 else 1)
  else if (b.engine n).startPend || (b.engine n).startAt.isSome then b
  else if b.flag SYS_CYCLE_RUN then b.mapEng n (fun x => { x with startPend := true })
  else b.mapEng n (fun x => { x with startAt := some (b.tm.phys + 1000 * nsUnit) })

/-- A write of EN = 0 (R170, R190): a load is aborted, a RUNNING engine halts. -/
def Block.disable (b : Block) (n : Nat) : Block :=
  let b1 := b.putB (GAL_CTL_EN n) false
  let st := b.get (GAL_STAT_STATE n)
  if st == 1 then b1.loadFail n 6
  else if st == 3 then (b1.leave n 4).mapEng n (fun x => { x with reloc := false, coreRet := false })
  else b1

/-- A write of GALn_CTL: EN, then LOAD, then START. -/
def Block.galCtl (n : Nat) (en start load : Bool) (b : Block) : Block :=
  let b1 := if en then b.putB (GAL_CTL_EN n) true else b.disable n
  let b2 := if load then b1.loadReq n else b1
  if start then b2.startReq n else b2

/-- ENGINE_LOAD: a write of GALn_CTL with LOAD 1 and EN as given. -/
def execEngineLoad (n : Fin 16) (en : Bool) (s : State) : Host.Outcome State Fault Refusal :=
  done s (journaled (.engineLoad n en) (Block.galCtl n en false true))

/-- ENGINE_START: a write of GALn_CTL with START 1 and EN as given. -/
def execEngineStart (n : Fin 16) (en : Bool) (s : State) : Host.Outcome State Fault Refusal :=
  done s (journaled (.engineStart n en) (Block.galCtl n en true false))

/-- ENGINE_DISABLE: a write of GALn_CTL with EN 0. -/
def execEngineDisable (n : Fin 16) (s : State) : Host.Outcome State Fault Refusal :=
  done s (journaled (.engineDisable n) (Block.galCtl n false false false))

/-- The start of engine `n` takes effect, or fails a check of R179. -/
def Block.startEffect (b : Block) (n : Nat) : Block :=
  let trig := (b.engine n).trig
  let b1 := b.mapEng n (fun x => { x with startPend := false, startAt := none, trig := none })
  if !(startable (b.get (GAL_STAT_STATE n)) && b.flag (GAL_CTL_EN n)) then b1.lcode n 1
  else
    let code := b1.admission n (b1.runningEngines ++ [n])
    if code ≠ 0 then b1.lcode n code
    else ((b1.homeCore n).begin_ n trig).lcode n 0

/-- ENGINE_START_EFFECT: at the trigger that START waited for, or 1 µs after it while no cycles
run; a start left over when cycles stop takes effect 1 µs later without a trigger (R175). -/
def execEngineStartEffect (n : Fin 16) (s : State) : Host.Outcome State Fault Refusal :=
  done s fun b =>
    let x := b.eng[n]
    if b.banksPending n then b else
    match x.startAt with
    | some t => (b.reachPhys t).startEffect n
    | none =>
      if !b.cycling && x.startPend then (b.advanceNs 1000).startEffect n
      else if !b.cycling && x.reloc then (b.advanceNs 1000).restartMoved n none
      else b

/-! ### The spare and cleared retirements (R172, R194) -/

/-- A write of GAL_SPARE.EN (R172). -/
def Block.spareWrite (en : Bool) (b : Block) : Block :=
  let st := b.get (GAL_STAT_STATE 15)
  if en then
    if st == 7 then b
    else if loadable st then
      ((b.putB GAL_SPARE_EN true).put (GAL_STAT_STATE 15) 7).spareUpdate.mapEng 15
        (fun x => { x with startPend := false, startAt := none, trig := none })
    else b.lcode 15 1
  else if b.flag GAL_SPARE_BUSY then b
  else if st == 7 then ((b.putB GAL_SPARE_EN false).put (GAL_STAT_STATE 15) 0).spareUpdate
  else b.putB GAL_SPARE_EN false

/-- SPARE_DESIGNATE. -/
def execSpareDesignate (en : Bool) (s : State) : Host.Outcome State Fault Refusal :=
  done s (journaled (.spareDesignate en) (Block.spareWrite en))

/-- Writing 1 to GALn_STAT.RETIRED (R194): the core's retirement and its history are cleared, a
relocation it waits for is dropped, and an engine in RETIRED becomes HALTED. -/
def Block.engRetireClear (n : Nat) (b : Block) : Block :=
  let b1 := ((b.unretire ⟨4, n⟩).putB (GAL_STAT_RETIRED n) false).spareUpdate
  let b2 := b1.mapEng n (fun x => if b.coreOf n = n then { x with coreRet := false } else x)
  if b2.get (GAL_STAT_STATE n) == 6 then b2.put (GAL_STAT_STATE n) 4 else b2

/-- ENGINE_RETIRE_CLEAR. -/
def execEngineRetireClear (n : Fin 16) (s : State) : Host.Outcome State Fault Refusal :=
  done s (byHost (.engineRetireClear n) (Block.engRetireClear n))

/-! ### Data store and clears (R171, R173) -/

/-- A write of GALn_DADDR: ADDR is stored and its word captured (R173). -/
def Block.ddataCapture (n : Nat) (data : Half) (b : Block) : Block :=
  let b1 := b.put (GAL_DADDR_ADDR n) data.toNat
  b1.setReg (GAL_DDATA n) ((b1.engine n).hwLoad b1.tm.phys (b1.get (GAL_DADDR_ADDR n)))

/-- One half of a word replaced: bits [63:0], or bits [71:64] (R60). -/
def putHalf (w : Word) (hi : Bool) (data : Half) : Word :=
  if hi then withField w 64 8 data.toNat else withField w 0 64 data.toNat

/-- A write of one half of GALn_DDATA: the data-store word and the copy (R173). -/
def Block.ddataWrite (n : Nat) (hi : Bool) (data : Half) (b : Block) : Block :=
  let k := b.get (GAL_DADDR_ADDR n)
  (b.hwStore n k (putHalf ((b.engine n).hwLoad b.tm.phys k) hi data)).setReg (GAL_DDATA n)
    (putHalf (b.reg (GAL_DDATA n)) hi data)

/-- GALn_STAT.CLR. -/
def Block.hdiscClr (n : Nat) (b : Block) : Block := b.put (GAL_STAT_HDISC n) 0

/-- GAL_HDISC_CLR: a local field (R76). -/
def execGalHdiscClr (n : Fin 16) (s : State) : Host.Outcome State Fault Refusal :=
  done s (byHost (.galHdiscClr n) (Block.hdiscClr n))

/-- GALn_CAUSE.CLR. -/
def Block.rcodeClr (n : Nat) (b : Block) : Block := (b.put (GAL_CAUSE_RCODE n) 0).put (GAL_CAUSE_RCNT n) 0

/-- GAL_RCODE_CLR. -/
def execGalRcodeClr (n : Fin 16) (s : State) : Host.Outcome State Fault Refusal :=
  done s (journaled (.galRcodeClr n) (Block.rcodeClr n))

/-- GALn_SLACK.CLR. -/
def Block.slackClr (n : Nat) (b : Block) : Block := b.put (GAL_SLACK_MIN n) 0x3FFFFF

/-- GAL_SLACK_CLR: a local register (R76). -/
def execGalSlackClr (n : Fin 16) (s : State) : Host.Outcome State Fault Refusal :=
  done s (byHost (.galSlackClr n) (Block.slackClr n))

end Sys2Proof.Machine
end

