-- ==== Sys2Proof/Machine/Flowstone.lean ====
section
/-! DEFINITION. Flowstone: batches, holds, evaluations, the segment cache, results, the seek
engine, cells and shedding (R155, R196, R197, R208 to R225). -/

namespace Sys2Proof.Machine

/-- Replace Flowstone's state. -/
def Block.mapFlw (b : Block) (f : FlwSt → FlwSt) : Block := { b with flw := f b.flw }

/-- Count in Flowstone counter `i` (Table 16-1). -/
def Block.flwCount (b : Block) (i n : Nat) : Block := if n = 0 then b else b.countUp (FLW_CNT i) n

/-! ### Records (R216, R225) -/

/-- A record at reset: IDLE, its result held (Table 6-8). -/
def Rec.reset : Rec :=
  { w0 := 0, w1 := 0, w2 := 0, w3 := 0, r0 := 0, r1 := BitVec.ofNat 72 (2 ^ 64 + 2 ^ 67), u := none, cyc := none }

/-- Record `i`. -/
def Block.rec_ (b : Block) (i : Nat) : Rec := sget (fun _ => Rec.reset) b.flw.recs i

/-- Replace record `i`. -/
def Block.setRec (b : Block) (i : Nat) (r : Rec) : Block :=
  b.mapFlw (fun w => { w with recs := sput (fun _ => Rec.reset) w.recs i r })

/-- A field of W2 (Table 6-8), by the field of the host window. -/
def Rec.w2f (r : Rec) (f : Field) : Nat := fieldOf r.w2 f.lo f.w

/-- W2 with a field replaced. -/
def Rec.setW2 (r : Rec) (f : Field) (v : Nat) : Rec := { r with w2 := withField r.w2 f.lo f.w v }

/-- RES1 of a held record (Table 6-5). -/
def heldRes (why : Nat) : Word := BitVec.ofNat 72 (2 ^ 64 + why * 2 ^ 67)

/-- Offset of record window `k`: the host's, then the engines' (R225). -/
def recWin (k : Nat) : Nat := if k = 0 then FLW_WIN_IDX else 0x311000 + 0x100 * (k - 1)

/-- The registers of window `k` show the record of its IDX. -/
def Block.winShow (b : Block) (k : Nat) : Block :=
  let a := recWin k
  let r := b.rec_ (fieldOf (b.reg a) 0 18)
  (((((b.setReg (a + 0x10) r.w0).setReg (a + 0x20) r.w1).setReg (a + 0x30) r.w2).setReg
    (a + 0x40) r.w3).setReg (a + 0x50) r.r0).setReg (a + 0x60) r.r1

/-- Show windows of a list. -/
def Block.winShows (b : Block) : List Nat → Block
  | [] => b
  | k :: r => (b.winShow k).winShows r

/-- Cells that FLW_STAT shows as active (R197): one whose retirement has been cleared returns at the next boundary (R218). -/
def Block.cellMask (b : Block) : Nat :=
  let ok := (List.range 8).filter (fun c => !bitAt (b.get FLW_STAT_RETIRED) c && !b.flw.restore.getLsbD c)
  ((if b.profile == 3 then ok.take 4 else ok).map (2 ^ ·)).sum

/-- The active cells, ascending. -/
def Block.cellList (b : Block) : List Nat := (List.range 8).filter (bitAt b.cellMask)

/-- Bring the status registers and windows of Flowstone up to date. -/
def Block.flwShow (b : Block) : Block :=
  ((((((b.put FLW_STAT_ACTIVE b.cellMask).put FLW_STAT_QDEPTH b.flw.queue.length).put FLW_STAT_SEEKQ
    b.flw.seekQ.length).putB FLW_CTL_FIXLAT b.synced).put FLW_SWSTAT_PEND
    (b.flw.recs.filter (fun e => e.2.w2f FLW_WIN_W2_SWP == 1)).length).allowShow).winShows (List.range 17)

/-! ### Shedding (R219) -/

/-- The largest level from `p` down whose demand fits the allowance; 1 where none does. -/
def Block.fitLevel (b : Block) : Nat → Nat
  | 0 => 1
  | p + 1 =>
    if ((List.range (p + 1)).map (fun q => b.get (FLW_PRICNT_CNT q))).sum ≤ b.evalAllow then p + 1
    else b.fitLevel p

/-- LEVEL has become less than `was`: FLW_CAUSE.SHED and CAM_SHED (R219), whoever lowered it. -/
def Block.levelDrop (b : Block) (was : Nat) : Block :=
  if b.get FLW_SHED_LEVEL < was then (b.putB FLW_CAUSE_SHED true).raise evCamShed else b

/-- LEVEL with AUTO 1 (R219). -/
def Block.relevel (b : Block) : Block :=
  if b.flag FLW_SHED_AUTO then (b.put FLW_SHED_LEVEL (b.fitLevel 8)).levelDrop (b.get FLW_SHED_LEVEL) else b

/-! ### The segment cache (R202, R211, R214) -/

/-- The segment at Cavern word `k` with the word before it, where the cache holds it. -/
def Block.cached (b : Block) (k : Nat) : Option Entry :=
  if b.flw.cache.contains k then some ((b.cavGet k, b.cavGet (k + 1)), b.cavGet (k - 1)) else none

/-- Entries become the latest used, the last of the list last. -/
def Block.touchKeys (b : Block) (ks : List Nat) : Block :=
  b.mapFlw (fun w => { w with cache := ks.foldl (fun c k => if c.contains k then k :: c.filter (· ≠ k) else c) w.cache })

/-- The words that a miss of a segment reads: three where it starts a block, else two (R226). -/
def keyWords (k : Nat) : List Nat := if k % 128 = 2 then [k - 1, k, k + 1] else [k, k + 1]

/-- Cavern words met by a read. -/
def Block.cavTouches (b : Block) : List Nat → Block
  | [] => b
  | k :: r => (b.cavTouch k).cavTouches r

/-- Segments for which a dispatched record waits: the cache never replaces them (R214). -/
def Block.awaited (b : Block) (k : Nat) : Bool := b.flw.flight.any (fun fl => fl.waiting.any (fun m => m.key == k))

/-- The cache without its least recently used entries above its size, those awaited apart (R214). -/
def Block.replace (b : Block) (l : List Nat) : List Nat :=
  if l.length ≤ 65536 then l
  else match l.reverse.find? (fun k => !b.awaited k) with
    | some k => l.filter (· ≠ k)
    | none => l

/-- Fetch a segment into the cache, in place of the least recently used (R214); the first word of it that reads
uncorrectable, where one does. -/
def Block.fetchKey (b : Block) (k : Nat) : Block × Option Nat :=
  let ws := keyWords k
  let b1 := (b.cavTouches ws).fabCount 11 ws.length
  match ws.find? b.cavBad with
  | some a => (b1, some a)
  | none => (b1.mapFlw (fun w => { w with cache := b1.replace (k :: w.cache.filter (· ≠ k)) }), none)

/-! ### Faults and seeks (R205, R220) -/

/-- CAM_FAULT with FLW_CAUSE.UE or FMT and FLW_CADDR (R220). -/
def Block.camFault (b : Block) (f : Field) (addr i : Nat) : Block :=
  (((b.putB f true).put FLW_CADDR_ADDR addr).put FLW_CADDR_REC i).raise evCamFault

/-- A record enters the seek queue if there is room (R205). -/
def Block.queueSeek (b : Block) (i : Nat) : Block :=
  if b.flw.seekQ.contains i || 64 ≤ b.flw.seekQ.length then b
  else b.mapFlw (fun w => { w with seekQ := w.seekQ ++ [i] })

/-- A record enters SEEK (R205). -/
def Block.enterSeek (b : Block) (i : Nat) : Block :=
  (b.setRec i ((b.rec_ i).setW2 FLW_WIN_W2_STATE 1)).queueSeek i

/-! ### Holds (R209) -/

/-- The first OVER of a cycle (R219). -/
def Block.noteOver (b : Block) : Block :=
  if b.flw.atCap then b
  else ((b.mapFlw (fun w => { w with atCap := true })).putB FLW_CAUSE_OVER true).raise evCamShed

/-- Hold a record with its reason (R209). -/
def Block.hold (b : Block) (fl : Flight) (i why : Nat) : Block × Flight :=
  let b1 := (b.setRec i { b.rec_ i with r1 := heldRes why }).flwCount 1 1
  let shed := why == 3 || why == 4
  let b2 := if shed then b1.flwCount 2 1 else b1
  let b3 := if why = 4 then b2.noteOver else b2
  let b4 := if why = 2 then b3.queueSeek i else b3
  (b4, { fl with held := fl.held + 1, shed := fl.shed + b2n shed, overN := fl.overN + b2n (why == 4), seek := fl.seek + b2n (why == 2) })

/-! ### Cells (R217, R218, R223) -/

/-- The next active cell after `c`, in ascending order and round. -/
def Block.nextCell (b : Block) (c : Nat) : Option Nat :=
  match b.cellList with
  | [] => none
  | a :: l => some (((a :: l).find? (fun x => c < x)).getD a)

/-- One evaluation counts (R210). -/
def Block.evalCount (b : Block) (n : Nat) : Block :=
  ((b.mapFlw (fun w => { w with count := w.count + n })).flwCount 0 n).fabCount 8 n

/-- The results of a flight that are in flight on cell `c` at a retirement are evaluated again on the next active cell, each at
the cost of one evaluation; where no cell remains they are held with reason OVER (R217, R218). -/
def Block.retryIn (b : Block) (c : Nat) (fl : Flight) : List Slot → Block × Flight
  | [] => (b, fl)
  | x :: r =>
    if x.cell = c ∧ b.tm.phys < x.due then
      match b.nextCell c with
      | some d => (b.evalCount 1).retryIn c { fl with results := fl.results ++ [{ x with cell := d, due := x.due + 8 * tick }] } r
      | none => let (b1, fl1) := b.hold fl x.res.rec_ 4; b1.retryIn c fl1 r
    else b.retryIn c { fl with results := fl.results ++ [x] } r

/-- The same for the records that wait for their segments. -/
def Block.retryMiss (b : Block) (c : Nat) (fl : Flight) : List Miss → Block × Flight
  | [] => (b, fl)
  | m :: r =>
    if m.cell = c then
      match b.nextCell c with
      | some d => (b.evalCount 1).retryMiss c { fl with waiting := fl.waiting ++ [{ m with cell := d }] } r
      | none => let (b1, fl1) := b.hold fl m.rec_ 4; b1.retryMiss c fl1 r
    else b.retryMiss c { fl with waiting := fl.waiting ++ [m] } r

/-- The records of a list of flights that are in flight on a cell that has left the active set. -/
def Block.retryFlights (b : Block) (c : Nat) : List Flight → List Flight → Block
  | done, [] => b.mapFlw (fun w => { w with flight := done })
  | done, fl :: r =>
    let (b1, f1) := b.retryIn c { fl with results := [] } fl.results
    let (b2, f2) := b1.retryMiss c { f1 with waiting := [] } f1.waiting
    b2.retryFlights c (done ++ [f2]) r

/-- A cell leaves the active set (R218). -/
def Block.cellRetire (b : Block) (c : Nat) : Block :=
  let b1 := b.setBit FLW_STAT_RETIRED c
  let b2 := ((b1.put FLW_STAT_ACTIVE b1.cellMask).allowShow.putB FLW_CAUSE_RETIRE true).raise evCamShed
  (b2.retryFlights c [] b2.flw.flight).relevel

/-- A cell's check error (R217): a strike; a retirement acts at once, or goes through the journal in
a pair (R223). -/
def Block.cellError (b : Block) (c : Nat) : Block :=
  let b1 := (((b.putB FLW_CAUSE_CHK true).put FLW_CAUSE_CELL c).flwCount 6 1).raise evCamFault
  let ch : Channel := ⟨3, c⟩
  if b1.retires ch then
    let b2 := (b1.strike ch).retire ch
    if b2.synced then b2.journalItem (.cellRetire c) else b2.cellRetire c
  else b1.strike ch

/-- This unit has retired a cell that is still active, as the boundary at which both units of a pair apply it has not come
(R223). -/
def Block.retiring (b : Block) (c : Nat) : Bool := b.isRetired ⟨3, c⟩ && !bitAt (b.get FLW_STAT_RETIRED) c

/-- The cells named return at the next boundary (R218); FLW_STAT.RETIRED reads 0 for them at once (R224). -/
def Block.cellClear (mask : BitVec 8) (b : Block) : Block :=
  let m := mask &&& BitVec.ofNat 8 (b.get FLW_STAT_RETIRED)
  (b.mapFlw (fun w => { w with restore := w.restore ||| m })).put FLW_STAT_RETIRED
    (BitVec.ofNat 8 (b.get FLW_STAT_RETIRED) &&& ~~~m).toNat

/-- CELL_RETIRE_CLEAR. -/
def execCellRetireClear (mask : BitVec 8) (s : State) : Host.Outcome State Fault Refusal :=
  done s (journaled (.cellRetireClear mask) (Block.cellClear mask))

/-! ### Evaluations (R201 to R204, R209, R212) -/

/-- What an evaluation gives: cache entries used, the result, extra slots, hold reason (0 none), and
what fault it met: 0 none, 1 UE, 2 FMT, with the address. -/
structure EvalOut where
  keys : List Nat
  res : SlotResult
  extra : Nat
  why : Nat
  fault : Nat
  addr : Nat

/-- A held result of an evaluation. -/
def heldOut (i : Nat) (r : Rec) (mark : Option (Nat × Int × Int)) (state : Option Nat) (keys : List Nat)
    (extra why fault addr : Nat) : EvalOut :=
  { keys := keys
    res := { rec_ := i, place := mark, sw := if mark.isSome then some (r.w2f FLW_WIN_W2_NTAB) else none
             state := state, pos := none, r1 := heldRes why, copy := none }
    extra := extra, why := why, fault := fault, addr := addr }

/-- A computed result (R201, R212, R213). -/
def goodOut (i : Nat) (r : Rec) (w : WalkSt) (y : Int) (vel acc : Nat) (atEnd : Bool) : EvalOut :=
  let pos := ofInt (if w.t.ymod = 0 then y else s72 y % w.t.ymod)
  { keys := w.keys.reverse
    res := { rec_ := i, place := some (w.s, w.x0, w.y0)
             sw := if w.mark.isSome then some (r.w2f FLW_WIN_W2_NTAB) else none
             state := some 2, pos := some pos
             r1 := BitVec.ofNat 72 (acc + vel * 2 ^ 32 + b2n atEnd * 2 ^ 65 + b2n w.step * 2 ^ 66)
             copy := if r.w2f FLW_WIN_W2_COPY = 1 then some (r.w2f FLW_WIN_W2_DSW) else none }
    extra := w.n - 1, why := 0, fault := 0, addr := 0 }

/-- The result of a walk's end, or the segment that is missing and the walk so far. Crossings already made keep the slots they
took, however the evaluation ends (R204). -/
def outOf (i : Nat) (r : Rec) (vm : Int) (ntabAddr : Nat) : WalkEnd → EvalOut ⊕ (Nat × WalkSt)
  | .inside w p =>
    let t := segT p w.d
    .inl (goodOut i r w (w.y0 + segP p t) (segVel p t vm) (segAcc p t vm) false)
  | .upper w p => .inl (goodOut i r w (w.y0 + segEnd p) 0 0 true)
  | .lower w => .inl (goodOut i r w w.y0 0 0 true)
  | .seek w => .inl (heldOut i r w.mark (some 1) w.keys.reverse 3 2 0 0)
  | .switchSeek w => .inl (heldOut i r (some (w.s, w.x0, w.y0)) (some 1) w.keys.reverse (w.n - 1) 2 0 0)
  | .bad w a => .inl (heldOut i r w.mark (some 3) w.keys.reverse (w.n - 1) 5 2 a)
  | .badNtab w => .inl (heldOut i r (some (w.s, w.x0, w.y0)) (some 3) w.keys.reverse (w.n - 1) 5 2 ntabAddr)
  | .miss w k => .inr (k, w)

/-- Evaluate record `i`, in the state `r` of its dispatch, for master position and velocity (R201,
R203, R220). -/
def Block.evaluate (b : Block) (i : Nat) (r : Rec) (pm vm : Word) : EvalOut ⊕ (Nat × WalkSt) :=
  let tn := r.w2f FLW_WIN_W2_TAB
  let nn := r.w2f FLW_WIN_W2_NTAB
  let t := b.camTab tn
  let u := sval (pm + r.w3)
  let s := r.w2f FLW_WIN_W2_SIDX
  let swp := r.w2f FLW_WIN_W2_SWP == 1
  let nt := if b.flag (FLW_TABA_VALID nn) then some (b.camTab nn) else none
  if !b.tabUsable tn || decide (t.nseg ≤ s) then .inl (heldOut i r none (some 3) [] 0 5 2 t.addr)
  else outOf i r (sval vm) (b.camTab nn).addr
    (camWalk b.cached nt u 6 (walkStart t s (sval r.w1) (sval r.w0) u swp))

/-- The neighbour of a record's segment, as its cache entry (R214). -/
def Block.neighbour (b : Block) (o : EvalOut) (r : Rec) (vm : Word) : Option Nat :=
  match o.res.place, o.res.pos with
  | some (s, _, _), some _ =>
    let t := b.camTab (o.res.sw.getD (r.w2f FLW_WIN_W2_TAB))
    if 0 ≤ sval vm then
      if s + 1 < t.nseg then some (t.segKey (s + 1)) else if t.cyc then some (t.segKey 0) else none
    else if 0 < s then some (t.segKey (s - 1)) else if t.cyc then some (t.segKey (t.nseg - 1)) else none
  | _, _ => none

/-- Fetch the neighbouring segment (R214). An uncorrectable word of it is reported as at any fetch, and no record is held (R220). -/
def Block.prefetch (b : Block) (o : EvalOut) (r : Rec) (vm : Word) : Block :=
  if !b.flag FLW_CTL_PREF then b
  else match b.neighbour o r vm with
    | some k =>
      if (b.cached k).isSome then b.touchKeys [k]
      else match b.fetchKey k with
        | (b1, some a) => (b1.flwCount 7 1).camFault FLW_CAUSE_UE a o.res.rec_
        | (b1, none) => b1
    | none => b

/-- An evaluation is complete: counts, fault, cache use; the result joins its batch, to be written at the end of its slot, which
begins at `at_` on a cell. -/
def Block.evalDone (b : Block) (fl : Flight) (r : Rec) (cell at_ : Nat) (o : EvalOut) : Block × Flight :=
  let b1 := ((b.touchKeys o.keys).evalCount o.extra).flwCount 3 o.extra
  let b2 := b1.fabCount 9 o.keys.length
  let b3 := if o.fault = 0 then b2 else if o.fault = 1 then (b2.flwCount 7 1).camFault FLW_CAUSE_UE o.addr o.res.rec_
    else b2.camFault FLW_CAUSE_FMT o.addr o.res.rec_
  let b4 := if o.why = 0 then b3.prefetch o r fl.b.vm else b3.flwCount 1 1
  (b4, { fl with results := fl.results ++ [⟨o.res, cell, at_ + 8 * (1 + o.extra) * tick⟩], extra := fl.extra + o.extra
                 held := fl.held + b2n (o.why != 0), seek := fl.seek + b2n (o.why == 2) })

/-- Why a record is not evaluated (R209): 8 for REPEAT. -/
def Block.holdReason (b : Block) (r : Rec) (level : Nat) : Option Nat :=
  let st := r.w2f FLW_WIN_W2_STATE
  if r.w2f FLW_WIN_W2_EN = 0 ∨ r.w2f FLW_WIN_W2_HREQ = 1 then some 1
  else if r.cyc = some b.flw.cyc then some 8
  else if st = 1 then some 2
  else if st = 3 then some 5
  else if level ≤ r.w2f FLW_WIN_W2_PRI then some 3
  else if b.evalAllow ≤ b.flw.count ∨ b.activeCells = 0 then some 4
  else none

/-- A record is requested (R205, R219): its u and the demand at its priority. -/
def Block.request (b : Block) (i : Nat) (pm : Word) (why : Option Nat) : Block :=
  let r := b.rec_ i
  if why = some 1 then b
  else
    let b1 := b.setRec i { r with u := some (sval (pm + r.w3)) }
    if why = some 8 then b1
    else b1.mapFlw (fun w => { w with demand := vmod w.demand (r.w2f FLW_WIN_W2_PRI) (· + 1) })

/-- Check errors of an evaluation on cell `c`: each retires or strikes the cell and moves the record to
the next active cell at the cost of one evaluation (R217); so does, without an error, a cell whose retirement waits for its
boundary (R223). The cell that evaluates the record in the end, or none where no cell remains. -/
def Block.retries (b : Block) : Nat → Nat → Nat → Block × Option Nat
  | 0, c, _ => (b, some c)
  | fuel + 1, c, n =>
    if n == 0 && (!b.retiring c || b.cellList.all b.retiring) then (b, some c)
    else
      let b1 := if n = 0 then b else b.cellError c
      match b1.nextCell c with
      | none => (b1, none)
      | some d => (b1.evalCount 1).retries fuel d (n - 1)

/-- When the slot begins in which the next record of a batch is dispatched (R208, R211): the active cells take one record
each, and a slot for each further crossing. -/
def Block.slotAt (b : Block) (fl : Flight) : Nat := fl.start + 8 * (fl.evald / b.activeCells + fl.extra) * tick

/-- When the dispatch of a batch ends. -/
def Block.slotEnd (b : Block) (fl : Flight) : Nat := fl.start + 8 * (ceilDiv fl.evald b.activeCells + fl.extra) * tick

/-- Dispatch record `i` of a batch (R208, R209, R217). -/
def Block.dispatchRec (b : Block) (fl : Flight) (i : Nat) : Block × Flight :=
  let why := b.holdReason (b.rec_ i) fl.level
  let b1 := b.request i fl.b.pm why
  match why with
  | some 8 => (b1, { fl with rep := fl.rep + 1 })
  | some w => b1.hold fl i w
  | none =>
    let at_ := b1.slotAt fl
    let cells := b1.cellList
    let c := (cells[fl.evald % cells.length]?).getD 0
    let r := b1.rec_ i
    let errs := fl.chk.count fl.place
    match ((b1.setRec i { r with cyc := some b1.flw.cyc }).evalCount 1).retries (errs + 8) c errs with
    | (b2, none) => b2.hold fl i 4
    | (b2, some d) =>
      let fl1 := { fl with evald := fl.evald + 1 }
      match b2.evaluate i r fl.b.pm fl.b.vm with
      | .inl o => b2.evalDone fl1 r d at_ o
      | .inr (k, _) =>
        ((b2.flwCount 4 1).fabCount 10 1, { fl1 with misses := fl1.misses + 1, waiting := fl1.waiting ++ [⟨i, r, k, d⟩] })

/-- Dispatch records of a batch, each when its slot begins: up to an instant, or all where none is given. -/
def Block.dispatchRecs (b : Block) (fl : Flight) (limit : Option Nat) : List Nat → Block × Flight
  | [] => (b, { fl with todo := [] })
  | i :: r =>
    if (limit.map (fun t => decide (t < b.slotAt fl))).getD false then (b, { fl with todo := i :: r })
    else
      let (b1, fl1) := b.dispatchRec fl i
      b1.dispatchRecs { fl1 with place := fl1.place + 1 } limit r

/-- A batch as it begins dispatch. -/
def Batch.flight (x : Batch) (start level : Nat) (chk : List Nat) (nak : Bool) : Flight :=
  { b := x, start := start, todo := (List.range x.count).map (· + x.first), place := 0, chk := chk, level := level
    evald := 0, held := 0, shed := 0, seek := 0, extra := 0, rep := 0, misses := 0, overN := 0
    nak := nak, waiting := [], results := [], off := false }

/-- The batch is being dispatched. -/
def Flight.busy (fl : Flight) : Bool := !fl.todo.isEmpty

/-- Change the batch that is being dispatched, if there is one: it is the latest. -/
def Block.mapBusy (b : Block) (f : Block → Flight → Block × Flight) : Block :=
  match b.flw.flight.reverse with
  | fl :: r =>
    if fl.busy then let (b1, f1) := f b fl; b1.mapFlw (fun w => { w with flight := r.reverse ++ [f1] }) else b
  | [] => b

/-- Dispatch goes on up to an instant, or to its end (R208). Its queue entry is then free (R226). -/
def Block.dispatchTo (b : Block) (limit : Option Nat) : Block :=
  b.mapBusy fun c fl =>
    let (b1, f1) := c.dispatchRecs fl limit fl.todo
    if f1.busy then (b1, f1)
    else (b1.mapFlw (fun w => { w with queue := w.queue.drop 1, freeAt := b1.slotEnd f1 }), f1)

/-- The results of one record are written together, at an instant (R212, R216). -/
def Block.writeResult (b : Block) (eng at_ : Nat) (x : SlotResult) : Block :=
  let r := b.rec_ x.rec_
  let r1 := match x.place with
    | some (s, x0, y0) => { r.setW2 FLW_WIN_W2_SIDX s with w0 := ofInt y0, w1 := ofInt x0 }
    | none => r
  let r2 := match x.sw with
    | some t => (r1.setW2 FLW_WIN_W2_TAB t).setW2 FLW_WIN_W2_SWP 0
    | none => r1
  let en := decide (r.w2f FLW_WIN_W2_EN = 1)
  let r3 := match x.state with
    | some st => if en then r2.setW2 FLW_WIN_W2_STATE st else r2
    | none => r2
  let b1 := (b.setRec x.rec_ { r3 with r0 := x.pos.getD r3.r0, r1 := x.r1 }).digFlow
    (Config.digestResult x.rec_ (x.pos.getD r3.r0) x.r1)
  let b2 := if x.state = some 1 ∧ en then b1.queueSeek x.rec_ else b1
  match x.copy, x.pos with
  | some k, some p =>
    let c := (b2.clockAt at_).hwStore eng k p
    c.toPresent (b2.tm.phys - c.tm.phys)
  | _, _ => b2

/-- The results of a list of slots, in order. -/
def Block.writeSlots (b : Block) (eng : Nat) : List Slot → Block
  | [] => b
  | x :: r => (b.writeResult eng (min x.due b.tm.phys) x.res).writeSlots eng r

/-- The results whose slots have ended are written (R212); those of a synchronised pair wait for the completion of their
batch (R222). -/
def Block.writeDue (b : Block) : List Flight → List Flight → Block
  | done, [] => b.mapFlw (fun w => { w with flight := done })
  | done, fl :: r =>
    (b.writeSlots fl.b.eng (fl.results.filter (fun x => x.due ≤ b.tm.phys))).writeDue
      (done ++ [{ fl with results := fl.results.filter (fun x => b.tm.phys < x.due) }]) r

/-- A batch that completed with NAK_OFF goes when its last result has been written. -/
def Flight.over_ (fl : Flight) : Bool := fl.off && fl.waiting.isEmpty && fl.results.isEmpty

/-- Flowstone up to the present: the records whose slots have begun are dispatched, and the results whose slots have ended are
written. -/
def Block.flwRun (b0 : Block) : Block :=
  if b0.flw.flight.isEmpty then b0
  else
    let b := b0.dispatchTo (some b0.tm.phys)
    let b1 := if b.synced then b else b.writeDue [] b.flw.flight
    b1.mapFlw (fun w => { w with flight := w.flight.filter (fun fl => !fl.over_) })

/-- BATCH_DISPATCH: the dispatch of the batch before ends, and that of the batch at the front begins (R208). `chk` names, once
per check error, the place in the batch of the record it strikes; `ups` the Cavern upsets before it. -/
def execBatchDispatch (chk : List Nat) (ups : List (Nat × Bool)) (s : State) : Host.Outcome State Fault Refusal :=
  done s fun b =>
    let b0 := b.dispatchTo none
    match b0.flw.queue with
    | [] => b0.flwRun.flwShow
    | x :: _ =>
      if !b0.flag FLW_CTL_EN then b0
      else
        let b1 := ((b0.upsets ups).reachPhys (max x.at_ b0.flw.freeAt)).flwRun
        let fl := x.flight b1.tm.phys (b1.get FLW_SHED_LEVEL) chk (decide (b1.evalAllow ≤ b1.flw.count))
        (b1.mapFlw (fun w => { w with flight := w.flight ++ [fl] })).flwRun.flwShow

/-- Change the flights from the first with a waiting record on. -/
def mapWaiting (f : Flight → Flight) : List Flight → List Flight
  | [] => []
  | x :: r => if x.waiting.isEmpty then x :: mapWaiting f r else f x :: r

/-- SEGMENT_FETCH_DONE: the segment the oldest missed record waits for arrives; the record is evaluated in a slot of its cell,
or waits for its next one (R211, R220). -/
def execSegmentFetchDone (ups : List (Nat × Bool)) (s : State) : Host.Outcome State Fault Refusal :=
  done s fun b =>
    let b0 := b.flwRun
    match b0.flw.flight.find? (fun x => !x.waiting.isEmpty) with
    | none => b0.flwShow
    | some fl =>
      match fl.waiting with
      | [] => b0
      | m :: rest =>
        let (b1, bad) := (b0.upsets ups).fetchKey m.key
        let fl0 := { fl with waiting := rest }
        let now := b1.tm.phys
        let (b2, fl2) :=
          match b1.evaluate m.rec_ m.r fl.b.pm fl.b.vm, bad with
          | .inr (_, w), some a => b1.evalDone fl0 m.r m.cell now (heldOut m.rec_ m.r w.mark none [] (w.n - 1) 6 1 a)
          | .inl _, some a => b1.evalDone fl0 m.r m.cell now (heldOut m.rec_ m.r none none [] 0 6 1 a)
          | .inl o, none => b1.evalDone fl0 m.r m.cell now o
          | .inr (k, _), none =>
            ((b1.flwCount 4 1).fabCount 10 1, { fl0 with misses := fl0.misses + 1, waiting := ⟨m.rec_, m.r, k, m.cell⟩ :: rest })
        (b2.mapFlw (fun w => { w with flight := mapWaiting (fun _ => fl2) w.flight })).flwShow

/-! ### Completion (R211, R212, R222) -/

/-- When a batch completes: the bound of R211 and in a pair the 32 ns of R222. -/
def Block.doneTime (b : Block) (fl : Flight) : Nat :=
  fl.start + (8 * (ceilDiv fl.evald b.activeCells + fl.extra) + 23 + 700 * ceilDiv fl.misses 64
    + (if b.synced then 32 else 0)) * tick

/-- The status word of a batch (Table 6-4). NAK_ALLOW tells that records were held because the allowance had been reached when
dispatch began, and none was evaluated. -/
def Block.batchStatus (b : Block) (fl : Flight) (off : Bool) : Word :=
  let code := if off then 1 else if fl.nak && fl.evald == 0 && fl.overN != 0 then 3 else if fl.held ≠ 0 then 2 else 0
  BitVec.ofNat 72 (code + sat 4096 fl.held * 2 ^ 4 + sat 4096 fl.shed * 2 ^ 17 + sat 4096 fl.seek * 2 ^ 30
    + sat 4095 fl.extra * 2 ^ 43 + sat 4096 fl.rep * 2 ^ 55 + b.activeCells * 2 ^ 68)

/-- A tag completes with its status at an instant, unless its engine has been started since. -/
def Block.tagDone (b : Block) (x : Batch) (st : Word) (t : Nat) : Block :=
  b.mapEng x.eng (fun e => if e.tagRun = x.run then
    { e with tags := vmod e.tags x.tag (fun _ => .done st), doneAt := vmod e.doneAt x.tag (fun _ => t) } else e)

/-- Remove the first flight without a waiting record. -/
def dropDone : List Flight → List Flight
  | [] => []
  | x :: r => if x.waiting.isEmpty then r else x :: dropDone r

/-- BATCH_COMPLETE: the dispatch of a batch ends, and the oldest batch that waits for no segment completes (R211, R212). -/
def execBatchComplete (s : State) : Host.Outcome State Fault Refusal :=
  done s fun b0 =>
    let b := b0.dispatchTo none
    match b.flw.flight.find? (fun x => x.waiting.isEmpty) with
    | none => b.flwShow
    | some fl =>
      let b1 := b.reachPhys (b.doneTime fl)
      let b2 := (b1.mapFlw (fun w => { w with flight := dropDone w.flight })).writeSlots fl.b.eng fl.results
      (if fl.off then b2 else b2.tagDone fl.b (b2.batchStatus fl false) b2.tm.phys).flwRun.flwShow

/-! ### CAMQ (R155, R208, R221) -/

/-- The queue with a batch in its place: by the tick it enters, then by engine (R208). -/
def enqueueBatch (x : Batch) : List Batch → List Batch
  | [] => [x]
  | y :: r => if x.at_ < y.at_ ∨ (x.at_ = y.at_ ∧ x.eng < y.eng) then x :: y :: r else y :: enqueueBatch x r

/-- The queue with a batch in its place; the one being dispatched stays in front. -/
def Block.enqueueIn (b : Block) (x : Batch) : Block :=
  let n := if b.flw.flight.any Flight.busy then 1 else 0
  b.mapFlw (fun w => { w with queue := w.queue.take n ++ enqueueBatch x (w.queue.drop n) })

/-- Hold every record of a list with reason OFF (R221). -/
def Block.holdOff (b : Block) (fl : Flight) : List Nat → Block × Flight
  | [] => (b, fl)
  | i :: r => let (b1, f1) := b.hold fl i 7; b1.holdOff f1 r

/-- A batch completes at an instant with NAK_OFF, the records not dispatched held (R221). -/
def Block.nakFlight (b : Block) (fl : Flight) (t : Nat) : Block × Flight :=
  let (b1, f1) := b.holdOff fl fl.todo
  (b1.tagDone fl.b (b1.batchStatus f1 true) t, { f1 with todo := [], off := true })

/-- A batch of which nothing has been dispatched completes with NAK_OFF. -/
def Block.nakOff (b : Block) (x : Batch) (t : Nat) : Block := (b.nakFlight (x.flight t 0 [] false) t).1

/-- No cell evaluates: EN is 0, or the module is in LINE-HOLD (R221, R531). -/
def Block.flwStopped (b : Block) : Bool := !b.flag FLW_CTL_EN || b.get PWR_STAT_STATE == 2

/-- CAMQ (0x70). -/
def execCamq (e : Fin 16) (f : FormD) (u : Upset) (s : State) : Host.Outcome State Fault Refusal :=
  runD .camq e f u (fun b =>
    let x := b.eng[e]
    let tag := f.sel.toNat % 4
    let first := f.imm.toNat / 2 ^ 14 % 2 ^ 18
    let count := f.imm.toNat / 4 % 2 ^ 12 + 1
    let q : Batch := { eng := e, run := x.tagRun, tag := tag, first := first, count := count
                       pm := x.rd f.ra, vm := x.rd f.rb, at_ := b.tm.phys + 12 * tick }
    if 262144 < first + count then .trap 7
    else if x.tags[tag]?.getD .free ≠ .free then putSf e f.sf false 12 b
    else if b.flwStopped then
      let b1 := b.mapE e (fun y => { y with tags := vmod y.tags tag (fun _ => .outstanding) })
      putSf e f.sf true 12 ((b1.nakOff q (b.tm.phys + 12 * tick)).flwShow)
    else
      let b0 := b.dispatchTo (some q.at_)
      if 16 ≤ b0.flw.queue.length then putSf e f.sf false 12 b0
      else putSf e f.sf true 12
        (((b0.mapE e (fun y => { y with tags := vmod y.tags tag (fun _ => .outstanding) })).enqueueIn q).flwShow)) s

/-- The batches of a list complete with NAK_OFF. -/
def Block.nakAll (b : Block) : List Batch → Block
  | [] => b
  | x :: r => (b.nakOff x b.tm.phys).nakAll r

/-- Dispatch stops now (R221): the batch that was being dispatched completes with NAK_OFF, while what it has in cells still
completes and is written; the batches behind it complete with NAK_OFF; a seek in progress may finish. -/
def Block.flwStop (b0 : Block) : Block :=
  let b := b0.flwRun
  let rest := if b.flw.flight.any Flight.busy then b.flw.queue.drop 1 else b.flw.queue
  let b1 := b.mapBusy (fun c fl => c.nakFlight fl c.tm.phys)
  let b2 := b1.mapFlw (fun w => { w with queue := [], seekFin := !w.seekQ.isEmpty, freeAt := min w.freeAt b.tm.phys })
  (b2.nakAll rest).flwShow

/-- A write of FLW_CTL.EN = 0 (R221). -/
def Block.flwDisable (b : Block) : Block :=
  if !b.flag FLW_CTL_EN then b else (b.putB FLW_CTL_EN false).flwStop

/-- FLOWSTONE_DISABLE. -/
def execFlowstoneDisable (s : State) : Host.Outcome State Fault Refusal :=
  done s (journaled .flowstoneDisable Block.flwDisable)

/-! ### The seek engine (R205) -/

/-- The seek of record `i` ends. -/
def Block.seekOne (b : Block) (i : Nat) : Block :=
  let r := b.rec_ i
  let tn := r.w2f FLW_WIN_W2_TAB
  let t := b.camTab tn
  if r.w2f FLW_WIN_W2_STATE ≠ 1 ∨ r.w2f FLW_WIN_W2_EN = 0 then b
  else if !b.tabUsable tn then
    (b.setRec i (r.setW2 FLW_WIN_W2_STATE 3)).camFault FLW_CAUSE_FMT t.addr i
  else
    let (ks, e) := b.seekTab t (r.u.getD (sval r.w3))
    let b1 := (b.cavTouches ks.reverse).fabCount 11 ks.length
    match e with
    | .ue a => (b1.flwCount 7 1).camFault FLW_CAUSE_UE a i
    | .bad a => (b1.setRec i (r.setW2 FLW_WIN_W2_STATE 3)).camFault FLW_CAUSE_FMT a i
    | .found s x0 y0 =>
      (b1.setRec i { (r.setW2 FLW_WIN_W2_SIDX s).setW2 FLW_WIN_W2_STATE 2 with w0 := ofInt y0, w1 := ofInt x0 }).flwCount 5 1

/-- SEEK_DONE: the seek at the head of the queue ends. While EN is 0 only one in progress finishes (R221). -/
def execSeekDone (ups : List (Nat × Bool)) (s : State) : Host.Outcome State Fault Refusal :=
  done s fun b =>
    let b0 := b.flwRun
    match b0.flw.seekQ with
    | [] => b0
    | i :: rest =>
      if !b0.flag FLW_CTL_EN && !b0.flw.seekFin then b0
      else (((b0.upsets ups).mapFlw (fun w => { w with seekQ := rest, seekFin := false })).seekOne i).flwShow

/-! ### Host and engine writes (R216, R225) -/

/-- The writable bits of W2 (Table 6-8). -/
def w2Mask : Nat := (2 ^ 20 - 1) + 3 * 2 ^ 40 + (2 ^ 19 - 1) * 2 ^ 44

/-- A write of W2 by the mask of its writable bits in the half written. -/
def Block.w2Write (b : Block) (i : Nat) (v : Word) : Block :=
  let r := b.rec_ i
  let m := BitVec.ofNat 72 w2Mask
  let r1 := { r with w2 := (r.w2 &&& ~~~m) ||| (v &&& m) }
  let was := r.w2f FLW_WIN_W2_EN
  let now := r1.w2f FLW_WIN_W2_EN
  if was = 0 ∧ now = 1 then (b.setRec i r1).enterSeek i
  else if was = 1 ∧ now = 0 then b.setRec i { r1.setW2 FLW_WIN_W2_STATE 0 with r1 := heldRes 1 }
  else b.setRec i r1

/-- A write of a whole register of a record window: IDX, W2 and W3 take it, W0 and W1 are read-only. -/
def Block.windowWrite (b0 : Block) (win reg : Nat) (v : Word) : Block :=
  let b := b0.flwRun
  let a := recWin win
  let i := fieldOf (b.reg a) 0 18
  let b1 :=
    if reg = 0 then b.setReg a (BitVec.ofNat 72 (fieldOf v 0 18))
    else if reg = 3 then b.w2Write i v
    else if reg = 4 then b.setRec i { b.rec_ i with w3 := v }
    else b
  b1.flwShow

/-- A host write of one half of a window register. -/
def Block.recordWrite (win reg : Nat) (hi : Bool) (data : Half) (b : Block) : Block :=
  b.windowWrite win reg (putHalf (b.reg (recWin win + 0x10 * reg)) hi data)

/-- RECORD_WRITE. -/
def execRecordWrite (win : Fin 17) (reg : Fin 5) (hi : Bool) (data : Half) (s : State) :
    Host.Outcome State Fault Refusal :=
  done s (journaled (.recordWrite win reg hi data) (Block.recordWrite win reg hi data))

/-- SWP set in the enabled records of a range (R216). -/
def setSwp (lo hi : Nat) (m : SMap Rec) : SMap Rec :=
  m.map (fun e => if lo ≤ e.1 ∧ e.1 ≤ hi ∧ e.2.w2f FLW_WIN_W2_EN = 1 then (e.1, e.2.setW2 FLW_WIN_W2_SWP 1) else e)

/-- A write of the low half of FLW_SWCTL. -/
def Block.switchCtl (data : Half) (go : Bool) (b : Block) : Block :=
  let b1 := (b.flwRun.put FLW_SWCTL_FIRST data.toNat).put FLW_SWCTL_LAST (data.toNat / 2 ^ 18)
  if go then
    (b1.mapFlw (fun w => { w with recs := setSwp (b1.get FLW_SWCTL_FIRST) (b1.get FLW_SWCTL_LAST) w.recs })).flwShow
  else b1

/-- SWITCH_GO: a write of FLW_SWCTL with GO 1. -/
def execSwitchGo (data : Half) (s : State) : Host.Outcome State Fault Refusal :=
  done s (journaled (.switchGo data) (Block.switchCtl data true))

/-! ### The boundary (R210, R218, R219) -/

/-- Cells of a mask return: history and record entry go (R49, R218). -/
def Block.cellReturns (b : Block) (m : BitVec 8) : List Nat → Block
  | [] => b
  | c :: r => (if m.getLsbD c then b.unretire ⟨3, c⟩ else b).cellReturns m r

/-- Cells of a mask retire at a boundary (R223). -/
def Block.cellLeaves (b : Block) (m : BitVec 8) : List Nat → Block
  | [] => b
  | c :: r => (if m.getLsbD c then b.cellRetire c else b).cellLeaves m r

/-- PRICNT from the demand of the cycle. -/
def Block.priShow (b : Block) : List Nat → Block
  | [] => b
  | q :: r => (b.put (FLW_PRICNT_CNT q) (sat 0x3FFFFF (b.flw.demand[q]?.getD 0))).priShow r

/-- A boundary: where it ends a cycle, LAST, the low-water margin and PRICNT; the count restarts (R210,
R35). Cells return or leave, and LEVEL is set once the period and the profile have changed. -/
def Block.flwCycleEnd (b0 : Block) (completed : Bool) : Block :=
  let b := b0.flwRun
  let b1 := if completed then
      ((b.put FLW_USE_LAST (sat 0x3FFFFF b.flw.count)).lowWater SYS_LWM_FLW_MIN (b.evalAllow - b.flw.count)).priShow (List.range 8)
    else b
  b1.mapFlw (fun w => { w with count := 0, demand := Vector.replicate 8 0, atCap := false, cyc := w.cyc + 1 })

/-- What a boundary does to the cells and LEVEL. -/
def Block.flwBoundary (b : Block) : Block :=
  let b1 := (b.cellReturns b.flw.restore (List.range 8)).cellLeaves b.flw.retirePend (List.range 8)
  ((b1.mapFlw (fun w => { w with restore := 0, retirePend := 0 })).flwShow).relevel

end Sys2Proof.Machine
end

