-- ==== Sys2Proof/Machine/CalReport.lean ====
section
/-! DEFINITION. How calibrations and tests report their results (R464, R471, Table 15-6). -/

namespace Sys2Proof.Machine

/-- Report a result in CAL_CAUSE: code 0 is CAL_DONE, any other CAL_FAIL. -/
def Block.calReport (b : Block) (kind unit code : Nat) : Block :=
  let b1 := ((b.put CAL_CAUSE_KIND kind).put CAL_CAUSE_UNIT unit).put CAL_CAUSE_CODE code
  if code = 0 then (b1.putB CAL_CAUSE_DONE true).raise evCalDone
  else (b1.putB CAL_CAUSE_FAIL true).raise evCalFail

end Sys2Proof.Machine
end

