-- ==== Sys2Proof/Machine/Lanes.lean ====
section
/-! DEFINITION. The serial lanes and the links of the ports: bring-up, capability exchange, lock
loss, retirement, adaptation, self-tests, link state, enabling and disabling (R317 to R320, R328 to
R353). -/

namespace Sys2Proof.Machine

/-! ### Lanes and their users -/

/-- Replace a lane's state. -/
def Block.mapLane (b : Block) (l : Nat) (f : LaneSt → LaneSt) : Block :=
  { b with lanes := { b.lanes with lane := vmod b.lanes.lane l f } }

/-- A lane's state. -/
def Block.lane (b : Block) (l : Nat) : LaneSt := b.lanes.lane[l]?.getD LaneSt.reset

/-- State code of a lane (Table 10-1). -/
def Block.laneState (b : Block) (l : Nat) : Nat := b.get (SDS_STAT_STATE l)

/-- A lane is retired. -/
def Block.laneOut (b : Block) (l : Nat) : Bool := b.flag (SDS_STAT_RETIRED l)

/-- The cage of a port or lane is in R4 mode. -/
def Block.isR4 (b : Block) (n : Nat) : Bool := decide (n < 32) && b.flag (MAC_CAGE_MODE (n / 4 * 4))

/-- The port that a line lane serves (R299). -/
def Block.portOf (b : Block) (l : Nat) : Nat := if b.isR4 l then l / 4 * 4 else l

/-- The lane that a degraded R4 port uses: the lowest not retired (R319). -/
def Block.degradedLane (b : Block) (n : Nat) : Option Nat :=
  ((List.range 4).map (n + ·)).find? (fun l => !b.laneOut l)

/-- The lanes of a port. -/
def Block.portLanes (b : Block) (n : Nat) : List Nat :=
  if b.isR4 n then
    (if b.flag (MAC_STAT_DEGRADED n) then (b.degradedLane n).toList else (List.range 4).map (n + ·))
  else [n]

/-- The Rope lanes in use. -/
def Block.ropeLanes (b : Block) : List Nat := ((List.range 4).filter (fun i => b.lanes.use.getLsbD i)).map (32 + ·)

/-- The group of a lane (R335). -/
def Block.groupOf (b : Block) (l : Nat) : List Nat :=
  if 32 ≤ l then b.ropeLanes
  else if b.isR4 l && !b.flag (MAC_STAT_DEGRADED (l / 4 * 4)) then (List.range 4).map (l / 4 * 4 + ·)
  else [l]

/-- A lane belongs to a group. -/
def Block.grouped (b : Block) (l : Nat) : Bool := decide (32 ≤ l) || decide (1 < (b.groupOf l).length)

/-- A lane carries a ring port. -/
def Block.ringLane (b : Block) (l : Nat) : Bool := decide (l < 32) && b.flag (MAC_CFG_RING (b.portOf l))

/-- The lane's user is enabled: its port, or the pair. -/
def Block.laneWanted (b : Block) (l : Nat) : Bool :=
  if 32 ≤ l then b.flag PAIR_CFG_EN else b.flag (MAC_CTL_EN (b.portOf l))

/-- The module is in MAINT (Table 18-1). -/
def Block.inMaint (b : Block) : Bool := b.get PWR_STAT_STATE == 4

/-! ### The rings of the ports (R227, R260) -/

/-- State code of a ring (Table 7-12). -/
def Block.ringState (b : Block) (n : Nat) : Nat := b.get (ZRG_STAT_STATE n)

/-- Primary and peer port of a ring. -/
def Block.ringPort (b : Block) (n : Nat) (peer : Bool) : Nat := if peer then b.get (ZRG_CFG_PEER n) else b.get (ZRG_CFG_PORT n)

/-- The ring is of topology RING. -/
def Block.isRing (b : Block) (n : Nat) : Bool := b.get (ZRG_CFG_TOPO n) == 1

/-- A ring in RUN is LOST once its lanes are retired: LINE its port's, RING both (Table 7-12). -/
def Block.lostCheck (b : Block) (n : Nat) : Block :=
  let lost := if b.isRing n then b.laneOut (b.ringPort n false) && b.laneOut (b.ringPort n true)
    else b.get (ZRG_CFG_TOPO n) == 0 && b.laneOut (b.ringPort n false)
  if b.ringState n = 3 && lost then b.put (ZRG_STAT_STATE n) 6 else b

/-- Every ring after the retirement of a lane. -/
def Block.lostChecks (b : Block) : Block := (List.range 32).foldl Block.lostCheck b

/-! ### Links (R317, R319) -/

/-- The egress index of MAC `n`. -/
def egressOf (n : Nat) : Nat := if n = 32 then 33 else n

/-- Replace a port's time state. -/
def Block.mapPt (b : Block) (n : Nat) (f : PortTime → PortTime) : Block :=
  { b with ptp := { b.ptp with ports := vmod b.ptp.ports n f } }

/-- A port's time state. -/
def Block.pt (b : Block) (n : Nat) : PortTime := b.ptp.ports[n]?.getD PortTime.reset

/-- A run ends: its status, and the record of its target (R472). -/
def Block.loopEnd (b : Block) (n status code : Nat) : Block :=
  let b1 := (b.put (MAC_LBK_STATUS n) status).mapPt n (fun x => { x with lbk := false })
  let b2 := if code = 0 then (b1.incSat (CAL_REC_COUNT (28 + n)) 1).setReg (CAL_LAST (28 + n)) b1.stw
    else b1.incSat (CAL_REC_FAILS (28 + n)) 1
  b2.calReport 8 n code

/-- LINK becomes 0 with a cause; a running loopback ends with ABORT (R387). -/
def Block.linkLost (b : Block) (n code : Nat) : Block :=
  let b1 := b.put (MAC_CAUSE_DCODE n) code
  if b.flag (MAC_STAT_LINK n) then
    let b2 := ((((b1.putB (MAC_STAT_LINK n) false).putB (MAC_CAUSE_DOWN n) true).macCount n 45 1).upShow (egressOf n) false).raise
      evLinkState
    if n < 32 && (b2.pt n).lbk then b2.loopEnd n 5 3 else b2
  else b1

/-- MACn_STAT.LANES after a change of a lane, and the fall of LINK while a lane is not ACTIVE. -/
def Block.portShow (b : Block) (n : Nat) : Block :=
  let ls := b.portLanes n
  let act := ls.filter (fun l => b.laneState l == 6)
  let b1 := b.put (MAC_STAT_LANES n) act.length
  if b.flag (MAC_STAT_LINK n) && act.length ≠ ls.length then b1.linkLost n 5 else b1

/-! ### Self-tests (R350) -/

/-- A lane test ends with a status. -/
def Block.testEnd (b : Block) (l status : Nat) : Block :=
  ((b.put (SDS_TEST_STATUS l) status).mapLane l (fun x => { x with test := none })).calReport 9 l
    (if status = 2 then 0 else if status = 5 then 3 else 1)

/-- A test of a kind is allowed in the lane's state (Table 10-5). -/
def Block.testAllowed (b : Block) (l kind st : Nat) : Bool :=
  if kind = 0 then st == 6 else (st == 0 && !b.laneWanted l) || st == 7 || b.inMaint

/-- A running test ends with ABORT once its state is left. -/
def Block.testCheck (b : Block) (l : Nat) : Block :=
  match (b.lane l).test with
  | none => b
  | some k => if b.testAllowed l k (b.laneState l) then b else b.testEnd l 5

/-! ### State changes -/

/-- The logical number of a Rope lane: the one received, or its own place until the exchange has ended (R336). -/
def Block.logical (b : Block) (l : Nat) : Nat := if b.get (SDS_STAT_PEER l) = 1 then b.get (SDS_STAT_RLANE l) else l - 32

/-- The capability message that a lane sends (Table 10-3). -/
def Block.capBytes (b : Block) (l : Nat) (ack : Bool) : List Byte :=
  let rope := decide (32 ≤ l)
  let map := (List.range 4).foldl (fun m i => if b.laneOut (32 + i) then m else m + 2 ^ i) 0
  let b0 := (if rope then 1 else 2) * 16 + 1
  let b1 := (if rope then (l - 32) * 64 + map * 4 + b2n (b.flag SDS_SSC_EN) * 2 else 0) + b2n ack
  let m := bytesBE b0 1 ++ bytesBE b1 1 ++ bytesBE (b.get SYS_SERIAL_SERIAL % 2 ^ 32) 4 ++ [0]
  m ++ [m.foldl (· ^^^ ·) 0]

/-- A lane sends its capability message. -/
def Block.capSend (b : Block) (l : Nat) (ack : Bool) : Block := b.emit (.cap l (b.capBytes l ack))

/-- What the message says has changed: every Rope lane in ACTIVE sends the new one after its next marker (R339). -/
def Block.capTell (b : Block) : Block :=
  ([32, 33, 34, 35].filter (fun l => b.laneState l == 6)).foldl (fun x l => x.capSend l true) b

/-- A lane enters a state; nobody else changes. In CAPX it sends its capability message. -/
def Block.laneGo (b : Block) (l st : Nat) : Block :=
  let b1 := ((b.put (SDS_STAT_STATE l) st).mapLane l (fun x => { x with
    since := b.tm.phys, up := 0, down := 0, adaptAt := b.tm.phys + 10000000 * nsUnit, wakeAt := none })).testCheck l
  let b2 := if st = 5 then b1.capSend l false else b1
  if l < 32 then b2.portShow (b2.portOf l) else b2

/-- A lane leaves OFF for DETECT; where its quad was off, once that has woken, within 220 µs, a free value (R332, log entry 2). -/
def Block.laneStart (b : Block) (l : Nat) (awake : Bool) : Block :=
  if awake then b.laneGo l 1
  else (b.mapLane l (fun x => { x with wakeAt := some (b.tm.phys + (1 + b.freeNext 219999) * nsUnit) })).freeStep

/-- Lanes of a list leave OFF. -/
def Block.lanesStart (b : Block) (awake : Bool) : List Nat → Block
  | [] => b
  | l :: r => (b.laneStart l awake).lanesStart awake r

/-- A lane whose quad has woken enters DETECT. -/
def Block.laneWoken (b : Block) (l : Nat) : Block :=
  match (b.lane l).wakeAt with
  | some t => if t ≤ b.tm.phys then (b.laneGo l 1).mapLane l (fun x => { x with since := t }) else b
  | none => b

/-- Lanes of a list enter OFF as their enable is written 0; a self-test that runs on one of them ends with ABORT (R332). -/
def Block.lanesOff (b : Block) : List Nat → Block
  | [] => b
  | l :: r =>
    (if b.laneState l == 7 then b
     else
       let b1 := if (b.lane l).test.isSome && b.laneState l != 0 then b.testEnd l 5 else b
       b1.laneGo l 0).lanesOff r

/-- The other lanes of a group return to DESKEW (R335). -/
def Block.groupWait (b : Block) (l : Nat) : List Nat → Block
  | [] => b
  | m :: r => (if m ≠ l ∧ 4 ≤ b.laneState m ∧ b.laneState m ≤ 6 then b.laneGo m 4 else b).groupWait l r

/-- A lane enters a state; where it leaves DESKEW, CAPX or ACTIVE backward its group waits for it. -/
def Block.laneTo (b : Block) (l st : Nat) : Block :=
  let old := b.laneState l
  let b1 := b.laneGo l st
  if 4 ≤ old ∧ old ≤ 6 ∧ (st < 4 ∨ st = 7) then b1.groupWait l (b.groupOf l) else b1

/-- Lanes of a list enter a state, but for retired ones. -/
def Block.lanesGo (b : Block) (st : Nat) : List Nat → Block
  | [] => b
  | l :: r => (if b.laneState l == 7 then b else b.laneGo l st).lanesGo st r

/-! ### The Rope's lanes (R339, R346) -/

/-- The Rope lanes that both ends can use, by rising logical number. -/
def Block.ropeUsable (b : Block) : List Nat :=
  (List.range 4).flatMap (fun k => ((List.range 4).map (32 + ·)).filter (fun l =>
    b.logical l == k && !b.laneOut l && !b.flag (SDS_STAT_PEERRET l)))

/-- Rope lanes as a mask. -/
def ropeMask (ls : List Nat) : BitVec 4 := ls.foldl (fun m l => m ||| BitVec.ofNat 4 (2 ^ (l - 32))) 0

/-- The lanes on which the Rope may form again: of four in use those that both ends can use, of two the other two (R346,
Table 10-4). -/
def Block.ropeSpare (b : Block) : List Nat :=
  if b.ropeLanes.length = 4 then b.ropeUsable else b.ropeUsable.filter (fun l => !b.ropeLanes.contains l)

/-- A lane in use has been retired at either end: the Rope forms again on two lanes or is down (R346,
R501). -/
def Block.ropeReform (b : Block) : Block :=
  match b.ropeSpare with
  | l1 :: l2 :: _ =>
    let b1 := { b with lanes := { b.lanes with use := ropeMask [l1, l2] } }
    let b2 := b1.lanesGo 4 ([l1, l2].filter (fun l => 4 ≤ b1.laneState l))
    ((b2.put PAIR_STAT_LANES (if b.get PAIR_STAT_LANES = 0 then 0 else 1)).putB PAIR_CAUSE_LANES2 true).raise evRopeLink
  | _ =>
    (Block.putB (Block.put { b with lanes := { b.lanes with use := 0 }, pair := { b.pair with linked := false } } PAIR_STAT_LANES 0)
      PAIR_CAUSE_ROPEDOWN true).raise evRopeLink

/-- Form the Rope again if a lane in use has become unusable. -/
def Block.ropeCheck (b : Block) : Block :=
  if b.ropeLanes.any (fun l => b.laneOut l || b.flag (SDS_STAT_PEERRET l)) then b.ropeReform else b

/-! ### The Rope phase measurement (R349) -/

/-- Replace the measurement. -/
def Block.mapPhase (b : Block) (f : RopePhase → RopePhase) : Block := { b with lanes := { b.lanes with phase := f b.lanes.phase } }

/-- The measurement in progress is discarded: a new one begins with the modulation period in progress. -/
def Block.phaseRestart (b : Block) : Block :=
  b.mapPhase (fun x => { x with start := b.tm.phys / (32000 * nsUnit) * (32000 * nsUnit), sum := 0, num := 0 })

/-- How long one measurement lasts: 32 µs, or 32 modulation periods while either end spreads. -/
def Block.phaseSpan (b : Block) : Nat := (if b.flag SDS_SSC_ACTIVE || b.lanes.farSsc then 1024000 else 32000) * nsUnit

/-- A measurement has ended with a mean phase in fs: a follower's main PLL tracks its holder's with a loop of 1 Hz (R509). -/
def Block.phaseResult (b : Block) (m : Int) : Block :=
  if b.holder then b.mapPhase (fun x => { x with last := some m })
  else
    let (f, i) := Config.loopStep 1000000 m b.lanes.phase.integ
    b.mapPhase (fun x => { x with last := some m, freq := f, integ := i })

/-- A phase block shows a phase in fs. The first one after the end of a measurement ends it and belongs to the next. -/
def Block.phaseIn (b : Block) (d : Int) : Block :=
  let x := b.lanes.phase
  let b1 := if x.start + b.phaseSpan ≤ b.tm.phys then
      (if x.num = 0 then b else b.phaseResult (x.sum / x.num)).phaseRestart
    else b
  b1.mapPhase (fun y => { y with sum := y.sum + d, num := y.num + 1 })

/-- The partner's LANEMAP: SDS_STAT.PEERRET of every lane (R339). -/
def Block.farMap (b : Block) (m : CapMsg) : Block :=
  let b1 := (List.range 4).foldl (fun x i =>
    x.putB (SDS_STAT_PEERRET (32 + i)) (!m.map.getLsbD (x.logical (32 + i)))) b
  let b2 := if b1.lanes.farSsc = m.ssc then b1 else b1.phaseRestart
  Block.ropeCheck { b2 with lanes := { b2.lanes with farSsc := m.ssc } }

/-- The Rope is brought up: its lanes leave OFF, four or, where one is retired, two of them (R332, R346). -/
def Block.ropeStart (b : Block) (awake : Bool) : Block :=
  let b1 := (List.range 4).foldl (fun x i => (x.putB (SDS_STAT_PEERRET (32 + i)) false).put (SDS_STAT_PEER (32 + i)) 0) b
  let us := b1.ropeUsable
  let ls := if us.length = 4 then us else if 2 ≤ us.length then us.take 2 else []
  Block.lanesStart { b1 with lanes := { b1.lanes with use := ropeMask ls } } awake
    ((us.filter (fun l => b1.laneState l == 0)))

/-- The Rope is disabled: its lanes enter OFF (R332). -/
def Block.ropeStop (b : Block) : Block :=
  Block.lanesOff { b with lanes := { b.lanes with use := 0 } } [32, 33, 34, 35]

/-! ### Bring-up (R333 to R341) -/

/-- An event of lane `l` after `dt` ns, while the lane is in a state that `ok` accepts. -/
def laneEvent (l : Fin 36) (dt : Nat) (ok : Nat → Bool) (f : Block → Block) (s : State) :
    Host.Outcome State Fault Refusal :=
  done s fun b0 =>
    let b := (b0.advanceNs dt).laneWoken l
    if ok (b.laneState l) then f b else b

/-- SIGNAL_DETECT: signal detect has held for 100 µs in DETECT. -/
def execSignalDetect (l : Fin 36) (dt : Nat) (s : State) : Host.Outcome State Fault Refusal :=
  laneEvent l dt (· == 1) (fun b0 =>
    let b := b0.reachPhys ((b0.lane l).since + 100000 * nsUnit)
    ((b.putB (SDS_STAT_SD l) true).mapLane l (fun x => { x with keep := false })).laneTo l 2) s

/-- The largest of the figures of merit, at the lowest step (R340). -/
def bestStep (foms : List (BitVec 12)) : Nat × Nat :=
  (List.range 16).foldl (fun (m : Nat × Nat) i =>
    let v := ((foms[i]?).getD 0).toNat
    if m.2 < v then (i, v) else m) (0, ((foms[0]?).getD 0).toNat)

/-- The lane runs at 1.25 Gb/s (R328). -/
def Block.slowLane (b : Block) (l : Nat) : Bool :=
  decide (l < 32) && !b.isR4 l && b.get (MAC_CFG_RATE l) == 0

/-- Clock recovery has locked: the step chosen, and its FOM where one was measured. -/
def Block.chooseStep (b : Block) (l : Nat) (foms : List (BitVec 12)) : Option (Nat × Option Nat) :=
  let p := b.get (SDS_STAT_PEAK l)
  let here := ((foms[p]?).getD 0).toNat
  let best := bestStep foms
  if b.slowLane l || b.flag (SDS_CFG_PEAKMODE l) then some (b.get (SDS_CFG_PEAKFIX l), none)
  else if (b.lane l).keep && decide (b.get (SDS_CFG_FOMMIN l) ≤ here) then some (p, some here)
  else if best.2 < b.get (SDS_CFG_FOMMIN l) then none
  else some (best.1, some best.2)

/-- TRAIN_DONE: clock recovery has locked and the figures of merit of the 16 steps are known. Where
none reaches FOMMIN, TRAIN goes on (R340). -/
def execTrainDone (l : Fin 36) (foms : List (BitVec 12)) (dt : Nat) (s : State) : Host.Outcome State Fault Refusal :=
  laneEvent l dt (· == 2) (fun b =>
    match b.chooseStep l foms with
    | none => b
    | some (p, f) =>
      let b1 := b.put (SDS_STAT_PEAK l) p
      (match f with | some v => b1.put (SDS_STAT_FOM l) v | none => b1).laneTo l 3) s

/-- LOCK_DONE: on to DESKEW, CAPX or ACTIVE (R333). -/
def execLockDone (l : Fin 36) (dt : Nat) (s : State) : Host.Outcome State Fault Refusal :=
  laneEvent l dt (· == 3) (fun b => b.laneTo l (if b.grouped l then 4 else if b.ringLane l then 5 else 6)) s

/-- Skews of a group's lanes. -/
def Block.putSkews (b : Block) : List (Nat × BitVec 20) → Block
  | [] => b
  | (l, v) :: r => (b.put (SDS_SKEW_SKEW l) v.toNat).putSkews r

/-- DESKEW_DONE: every lane of the group is aligned, each so many ps behind the earliest (R336). Beyond
the limit DESKEW goes on. -/
def execDeskewDone (l : Fin 36) (skews : List (BitVec 20)) (dt : Nat) (s : State) : Host.Outcome State Fault Refusal :=
  laneEvent l dt (· == 4) (fun b =>
    let g := b.groupOf l
    let limit := if l.val < 32 then 180000 else 600000
    if g.all (fun m => b.laneState m == 4) && g.contains l.val && skews.all (fun v => decide (v.toNat ≤ limit)) then
      (b.putSkews (g.zip skews)).lanesGo (if l.val < 32 then 6 else 5) g
    else b) s

/-- A capability exchange fails (R338). -/
def Block.capFail (b : Block) (l code : Nat) : Block :=
  ((b.putB (SDS_CAUSE_CAPERR l) true).put (SDS_CAUSE_CAPCODE l) code).laneTo l 1

/-- The lanes of the Rope past CAPX, but for one. -/
def Block.pastCapx (b : Block) (l : Nat) : List Nat := b.ropeLanes.filter (fun m => m ≠ l && b.laneState m == 6)

/-- What a Rope lane's message is refused for: 0 for nothing. -/
def Block.capCode (b : Block) (l : Nat) (m : CapMsg) : Nat :=
  if m.role ≠ 1 then 2
  else if m.ser.toNat = b.get SYS_SERIAL_SERIAL % 2 ^ 32 ∨ (b.pastCapx l).any (fun k => (b.lane k).ser ≠ m.ser.toNat) then 3
  else if (b.pastCapx l).any (fun k => b.logical k == m.lane.toNat) then 4
  else 0

/-- CAPX_DONE: three good messages with ACK have come (R338). -/
def execCapxDone (l : Fin 36) (m : CapMsg) (dt : Nat) (s : State) : Host.Outcome State Fault Refusal :=
  laneEvent l dt (· == 5) (fun b =>
    if l.val < 32 then
      (if m.role = 3 then ((b.capSend l true).put (SDS_STAT_PEER l) 2).laneTo l 6 else b.capFail l 2)
    else
      let c := b.capCode l m
      if c ≠ 0 then b.capFail l c
      else
        (((((b.capSend l true).put (SDS_STAT_PEER l) 1).put (SDS_STAT_RLANE l) m.lane.toNat).mapLane l
          (fun x => { x with ser := m.ser.toNat })).laneTo l 6).farMap m) s

/-- The timeout of a lane's stage, in µs (Table 10-2). -/
def Block.stageLimit (b : Block) (l : Nat) : Nat :=
  match b.laneState l with
  | 2 => if b.slowLane l then 1000 else 5000
  | 4 => if l < 32 then 1000 else 200
  | _ => 1000

/-- A lane's stage has timed out. -/
def Block.timedOut (b : Block) (l : Nat) : Block :=
  ((b.putB (SDS_CAUSE_TMO l) true).put (SDS_CAUSE_STAGE l) (b.laneState l)).countUp (SDS_CNT l 4) 1

/-- The lanes of a list time out in DESKEW. -/
def Block.deskewOut (b : Block) : List Nat → Block
  | [] => b
  | m :: r => ((b.timedOut m).laneGo m 1).deskewOut r

/-- STAGE_TIMEOUT: the stage of a lane reaches its timeout (R333). DESKEW runs once every lane of the group
is in it. -/
def execStageTimeout (l : Fin 36) (s : State) : Host.Outcome State Fault Refusal :=
  laneEvent l 0 (fun st => 2 ≤ st && st ≤ 5) (fun b0 =>
    let st := b0.laneState l
    let g := b0.groupOf l
    let since := if st = 4 then (g.map (fun m => (b0.lane m).since)).foldl max 0 else (b0.lane l).since
    let b := b0.reachPhys (since + b0.stageLimit l * 1000 * nsUnit)
    if st = 4 then (if g.all (fun m => b.laneState m == 4) then b.deskewOut g else b0)
    else if st = 5 ∧ l.val < 32 then ((b.timedOut l).put (SDS_STAT_PEER l) 0).laneTo l 6
    else if st = 5 then ((b.timedOut l).put (SDS_CAUSE_CAPCODE l) 1).laneTo l 1
    else (b.timedOut l).laneTo l 1) s

/-! ### Lock loss and retirement (R343 to R347) -/

/-- The channel of a lane (R50 kinds 0 and 1). -/
def laneChan (l : Nat) : Channel := { kind := if l < 32 then 0 else 1, idx := l }

/-- An R4 port restarts on one lane as 25GBASE-R with RS-FEC, or stays down (R319). -/
def Block.degrade (b : Block) (n : Nat) : Block :=
  if b.flag (MAC_CFG_DEGR n) then
    let b1 := b.putB (MAC_STAT_DEGRADED n) true
    match b1.degradedLane n with
    | none => b1.put (MAC_CAUSE_DCODE n) 6
    | some m => ((b1.lanesGo 0 (((List.range 4).map (n + ·)).filter (· ≠ m))).laneGo m 1).put (MAC_CAUSE_DCODE n) 6
  else b.put (MAC_CAUSE_DCODE n) 6

/-- A lane enters RETIRED (R345, Table 10-4). -/
def Block.laneRetire (b : Block) (l : Nat) : Block :=
  let b1 := (((b.retire (laneChan l)).putB (SDS_STAT_RETIRED l) true).putB (SDS_CAUSE_RETIRE l) true).laneTo l 7
  let b2 := b1.raise evLaneRetired
  if l < 32 then
    let n := b2.portOf l
    (if b2.isR4 l then (b2.linkLost n 6).degrade n else b2.linkLost n 6).lostChecks
  else b2.capTell.ropeCheck

/-- A lock loss with signal present (R343). -/
def Block.lockLoss (b : Block) (l : Nat) : Block :=
  let c := laneChan l
  let out := b.retires c
  let counts := b.strikeCounts c
  let b1 := ((((b.strike c).putB (SDS_CAUSE_TRANS l) true).countUp (SDS_CNT l 1) 1).raise evLaneTransient).mapLane l
    (fun x => { x with keep := true, lossAt := if counts then some b.tm.phys else none, lossOut := out })
  if out then b1.laneRetire l
  else (if b.laneState l == 6 then b1.countUp (SDS_CNT l 2) 1 else b1).laneTo l 2

/-- LANE_LOCK_LOSS: lock, markers or the error ratio fail; `errs` invalid headers were seen. -/
def execLaneLockLoss (l : Fin 36) (errs : Nat) (dt : Nat) (s : State) : Host.Outcome State Fault Refusal :=
  laneEvent l dt (fun st => 3 ≤ st && st ≤ 6) (fun b =>
    if b.flag (SDS_STAT_SD l) then (b.countUp (SDS_CNT l 0) errs).lockLoss l else b) s

/-- Withdraw the latest strike of a lane, and the retirement it made (R343). -/
def Block.strikeBack (b : Block) (l : Nat) : Block :=
  let c := laneChan l
  let b1 := { b with strikes := setStrikes c ((strikesOf c b.strikes).drop 1) b.strikes }
  if (b.lane l).lossOut then
    let b2 := { b1 with retired := b1.retired.filter (fun d => d ≠ c), retRec := b1.retRec.filter (fun d => d ≠ c) }
    (b2.put SYS_RETIRED_KIND b2.retireBits).putB (SDS_STAT_RETIRED l) false
  else b1

/-- LOSS_OF_SIGNAL: signal detect falls. Within 1 µs of a lock loss that strike is withdrawn (R343). -/
def execLossOfSignal (l : Fin 36) (dt : Nat) (s : State) : Host.Outcome State Fault Refusal :=
  laneEvent l dt (fun _ => true) (fun b =>
    let st := b.laneState l
    let b1 := b.putB (SDS_STAT_SD l) false
    let recent := match (b.lane l).lossAt with
      | some t => decide (b.tm.phys ≤ t + 1000 * nsUnit) && (st == 2 || st == 7)
      | none => false
    if recent then
      ((b1.strikeBack l).mapLane l (fun x => { x with lossAt := none, lossOut := false })).laneTo l
        (if b.laneWanted l then 1 else 0)
    else if 3 ≤ st && st ≤ 6 then b1.laneTo l 1
    else b1) s

/-- Write SDS_CTL.RETRAIN (R344). -/
def Block.retrain (l : Nat) (b : Block) : Block :=
  if b.laneState l == 6 then
    let b1 := if (b.lane l).test.isSome then b.testEnd l 5 else b
    ((b1.countUp (SDS_CNT l 2) 1).mapLane l (fun x => { x with keep := false })).laneTo l 2
  else if (b.lane l).test.isSome then b.testEnd l 5
  else b

/-- RETRAIN. -/
def execRetrain (l : Fin 36) (s : State) : Host.Outcome State Fault Refusal :=
  done s (byHost (.retrain l) (Block.retrain l))

/-- Write 1 to SDS_STAT.RETIRED (R347). -/
def Block.laneUnretire (l : Nat) (b : Block) : Block :=
  if b.laneOut l then
    (((b.unretire (laneChan l)).putB (SDS_STAT_RETIRED l) false).mapLane l
      (fun x => { x with lossAt := none, lossOut := false })).laneGo l 0 |>.capTell
  else b

/-- LANE_RETIRE_CLEAR. -/
def execLaneRetireClear (l : Fin 36) (s : State) : Host.Outcome State Fault Refusal :=
  done s (byHost (.laneRetireClear l) (Block.laneUnretire l))

/-! ### Adaptation and capability messages in ACTIVE (R339, R342) -/

/-- Move the equaliser one step. -/
def Block.adaptTo (b : Block) (l p : Nat) : Block :=
  (((b.put (SDS_STAT_PEAK l) p).putB (SDS_CAUSE_ADAPT l) true).countUp (SDS_CNT l 3) 1).mapLane l
    (fun x => { x with up := 0, down := 0 })

/-- ADAPT_MEASURE: the figures of merit one step below, at, and one step above PEAK. -/
def execAdaptMeasure (l : Fin 36) (below at_ above : BitVec 12) (s : State) : Host.Outcome State Fault Refusal :=
  laneEvent l 0 (· == 6) (fun b0 =>
    if b0.flag (SDS_CFG_ADAPT l) && (b0.lane l).test.isNone then
      let b := b0.reachPhys (b0.lane l).adaptAt
      let p := b.get (SDS_STAT_PEAK l)
      let h := b.get (SDS_CFG_HYST l)
      let dn := if 0 < p ∧ at_.toNat + h ≤ below.toNat then (b.lane l).down + 1 else 0
      let up := if p < 15 ∧ at_.toNat + h ≤ above.toNat then (b.lane l).up + 1 else 0
      let b1 := (b.put (SDS_STAT_FOM l) at_.toNat).mapLane l
        (fun x => { x with up := up, down := dn, adaptAt := x.adaptAt + 10000000 * nsUnit })
      if 3 ≤ dn then b1.adaptTo l (p - 1) else if 3 ≤ up then b1.adaptTo l (p + 1) else b1
    else b0) s

/-- CAP_MESSAGE_RX: a Rope lane in ACTIVE receives the capability message after a marker. -/
def execCapMessageRx (l : Fin 4) (m : CapMsg) (dt : Nat) (s : State) : Host.Outcome State Fault Refusal :=
  done s fun b0 =>
    let b := b0.advanceNs dt
    if b.laneState (32 + l.val) == 6 then b.farMap m else b

/-! ### Tests and spreading (R348, R350) -/

/-- Write SDS_TEST with GO. -/
def Block.laneTestGo (l : Nat) (data : Half) (b : Block) : Block :=
  let k := data.toNat % 4
  let b1 := if k < 3 then b.put (SDS_TEST_KIND l) k else b
  let kind := b1.get (SDS_TEST_KIND l)
  if (b1.lane l).test.isSome || !b1.testAllowed l kind (b1.laneState l) then b1.put (SDS_TEST_STATUS l) 4
  else (b1.put (SDS_TEST_STATUS l) 1).mapLane l (fun x => { x with test := some kind })

/-- LANE_TEST_GO. -/
def execLaneTestGo (l : Fin 36) (data : Half) (s : State) : Host.Outcome State Fault Refusal :=
  done s (byHost (.laneTestGo l data) (Block.laneTestGo l data))

/-- The maintenance slot is open. -/
def Block.slotRuns (b : Block) : Bool := match b.cyc.slotClose with | some t => decide (b.nowNs ≤ t) | none => false

/-- LANE_TEST_DONE: the running test has measured its eye, which it does only while the slot is open, or counted its errors. -/
def execLaneTestDone (l : Fin 36) (h v : BitVec 6) (errs : BitVec 40) (dt : Nat) (s : State) :
    Host.Outcome State Fault Refusal :=
  done s fun b0 =>
    let b := b0.advanceNs dt
    match (b.lane l).test with
    | none => b
    | some k =>
      if k = 0 then
        if !b.slotRuns then b else
        ((b.put (SDS_TRES_H l) h.toNat).put (SDS_TRES_V l) v.toNat).testEnd l (if 19 ≤ h.toNat ∧ 10 ≤ v.toNat then 2 else 3)
      else (b.put (SDS_TRES_ERRS l) errs.toNat).testEnd l (if errs = 0 then 2 else 3)

/-- The next start of a modulation period of 32 µs, in `TimeSt.phys` (R348). -/
def Block.nextModulation (b : Block) : Nat := ceilDiv b.tm.phys (32000 * nsUnit) * (32000 * nsUnit)

/-- Write SDS_SSC: EN and DEPTH as stored. A change of either discards the phase measurement in progress (R349). -/
def Block.sscStore (data : Half) (b : Block) : Block :=
  let d := data.toNat / 2 % 16
  let b1 := b.put SDS_SSC_EN (data.toNat % 2)
  let b2 := if 1 ≤ d ∧ d ≤ 10 then b1.put SDS_SSC_DEPTH d else b1
  if b2.get SDS_SSC_EN = b.get SDS_SSC_EN ∧ b2.get SDS_SSC_DEPTH = b.get SDS_SSC_DEPTH then b2 else b2.phaseRestart.capTell

/-- SSC_WRITE: EN and DEPTH are stored and take effect at the start of the next modulation period. -/
def Block.sscWriteAct (data : Half) (b : Block) : Block :=
    let b1 := b.sscStore data
    (b1.reachPhys b1.nextModulation).putB SDS_SSC_ACTIVE (b1.flag SDS_SSC_EN)

/-- SSC_WRITE. -/
def execSscWrite (data : Half) (s : State) : Host.Outcome State Fault Refusal :=
  done s (byHost (.sscWrite data) (Block.sscWriteAct data))

/-! ### Ports (R300, R301, R317 to R320) -/

/-- LINK_UP: the conditions of R317 have held for 1 ms; `dt` ns pass first. A port whose module is held in low-power mode
never reaches it (R579). -/
def execLinkUp (n : Fin 33) (dt : Nat) (s : State) : Host.Outcome State Fault Refusal :=
  done s fun b0 =>
    let b := b0.advanceNs dt
    let ls := if n.val < 32 then b.portLanes n else []
    if b.flag (MAC_CTL_EN n) && !b.absent n && !b.flag (MAC_STAT_LINK n) && ls.all (fun l => b.laneState l == 6) &&
        !(decide (n.val < 32) && bitAt (b.get SYS_HWSTAT_QLOW) (n / 4)) &&
        (n.val == 32 || !ls.isEmpty) then
      let b1 := b.reachPhys ((ls.map (fun l => (b.lane l).since + 1000000 * nsUnit)).foldl max 0)
      (((((b1.putB (MAC_STAT_LF n) false).putB (MAC_STAT_RF n) false).putB (MAC_STAT_LINK n) true).putB (MAC_CAUSE_UP n) true).upShow
        (egressOf n) true).raise evLinkState
    else b

/-- LINK_DOWN: a local fault, a received remote fault or the PHY of MGMT takes the link down. -/
def execLinkDown (n : Fin 33) (why : LinkFault) (dt : Nat) (s : State) : Host.Outcome State Fault Refusal :=
  done s fun b0 =>
    let b := b0.advanceNs dt
    if !b.flag (MAC_CTL_EN n) || b.absent n then b
    else
      match why with
      | .localFault =>
        let b1 := b.putB (MAC_STAT_LF n) true
        if b.flag (MAC_STAT_LINK n) then b1.linkLost n 3 else b1
      | .remoteFault =>
        if n.val == 32 || b.slowLane n then b
        else
          let b1 := b.putB (MAC_STAT_RF n) true
          if b.flag (MAC_STAT_LINK n) then b1.linkLost n 4 else b1
      | .phy => if n.val == 32 && b.flag (MAC_STAT_LINK n) then b.linkLost n 5 else b

/-- Quad `q` is to be on (R525, R532): all in MAINT, the quads of PWR_WRING in STANDBY; otherwise all with QGATE 0, and
with QGATE 1 those with an enabled port, QR with the pair, and those that an access has powered. -/
def Block.quadWanted (b : Block) (q : Nat) : Bool :=
  let st := b.get PWR_STAT_STATE
  if st == 4 then true
  else if st == 3 then b.get PWR_WRING_PORTS / 16 ^ q % 16 != 0
  else if st == 5 then false
  else if !b.flag PWR_CTL_QGATE then true
  else if q = 8 then b.flag PAIR_CFG_EN || b.pw.quadAcc.getLsbD 8
  else (List.range 4).any (fun i => b.flag (MAC_CTL_EN (4 * q + i))) || b.pw.quadAcc.getLsbD q

/-- PWR_STAT.QON follows R532 for quad `q`. -/
def Block.quadShow (b : Block) (q : Nat) : Block :=
  if b.quadWanted q then b.setBit PWR_STAT_QON q else b.clrBit PWR_STAT_QON q

/-- PWR_STAT.QON follows R532. -/
def Block.quadShows (b : Block) : Block := (List.range 9).foldl Block.quadShow b

/-- The lanes of a port leave OFF. -/
def Block.portStart (b : Block) (n : Nat) (awake : Bool) : Block :=
  let all := (List.range 4).map (n + ·)
  let b1 := if b.isR4 n && all.all (fun l => !b.laneOut l) then b.putB (MAC_STAT_DEGRADED n) false else b
  if b1.isR4 n && all.any b1.laneOut then
    (if b1.flag (MAC_CFG_DEGR n) then
      let b2 := b1.putB (MAC_STAT_DEGRADED n) true
      match b2.degradedLane n with
      | some l => if b2.laneState l == 0 then b2.laneStart l awake else b2
      | none => b2.put (MAC_CAUSE_DCODE n) 6
    else b1.put (MAC_CAUSE_DCODE n) 6)
  else if !b1.isR4 n && b1.laneOut n then b1.put (MAC_CAUSE_DCODE n) 6
  else b1.lanesStart awake ((b1.portLanes n).filter (fun l => b1.laneState l == 0))

/-- Write MACn_CTL.EN = 1 (R301, R320). -/
def Block.macEnable (n : Nat) (b : Block) : Block :=
  if b.absent n then b
  else if n = 32 then b.putB (MAC_CTL_EN n) true
  else
    let add := if b.flag (MAC_CTL_EN n) then 0 else if b.isR4 n then 4 else 1
    if b.profile == 3 && decide (16 < b.lanesEnabled + add) then b.put (MAC_CAUSE_DCODE n) 7
    else
      let was := b.sliceShort
      let b1 := ((b.putB (MAC_CTL_EN n) true).quadShow (n / 4)).portStart n (b.quadOn (n / 4))
      if b1.sliceShort && !was then b1.lastSlice else b1

/-- MAC_ENABLE. -/
def execMacEnable (n : Fin 33) (s : State) : Host.Outcome State Fault Refusal :=
  done s (byHost (.macEnable n) (Block.macEnable n))

/-- Write MACn_CTL.EN = 0 (R320). A frame in reception is counted as a fragment. -/
def Block.macDisable (n : Nat) (receiving : Bool) (b : Block) : Block :=
  if b.absent n then b
  else
    let was := b.flag (MAC_CTL_EN n)
    let b1 := (b.putB (MAC_CTL_EN n) false).linkLost n 1
    let b2 := if receiving && was then b1.macCount n 16 1 else b1
    if n < 32 then (b2.lanesOff (if b2.isR4 n then (List.range 4).map (n + ·) else [n])).quadShow (n / 4) else b2

/-- MAC_DISABLE. -/
def execMacDisable (n : Fin 33) (receiving : Bool) (s : State) : Host.Outcome State Fault Refusal :=
  done s (byHost (.macDisable n receiving) (Block.macDisable n receiving))

end Sys2Proof.Machine
end

