-- ==== Sys2Proof/Machine/Ring.lean ====
section
/-! DEFINITION. The Zalnus ring: the train of a cycle, how frames are filled, returns and presence, wrap,
mailbox, endpoint table, scan and the ring states (R227 to R269). -/

namespace Sys2Proof.Machine

/-! ### State -/

/-- Replace a ring's state. -/
def Block.mapRing (b : Block) (n : Nat) (f : RingSt → RingSt) : Block :=
  { b with rings := { b.rings with ring := vmod b.rings.ring n f } }

/-- A ring's state. -/
def Block.ring (b : Block) (n : Nat) : RingSt := b.rings.ring[n]?.getD RingSt.reset

/-- Replace what the rings share. -/
def Block.mapRings (b : Block) (f : RingsSt → RingsSt) : Block := { b with rings := f b.rings }

/-- FULLC will be set in the next cycle (R243). -/
def Block.fullNext (b : Block) (n : Nat) : Block := b.putB (ZRG_STAT_FULLNEXT n) true

/-- The unit sends no trains: it is in a pair's state that is no member (R506). -/
def Block.ringMute (b : Block) : Bool := b.get PAIR_STAT_STATE != 0 && !b.synced

/-- The claim that frames carry (R251). -/
def Block.claimNow (b : Block) : Nat := if b.synced then b.get PAIR_STAT_CLAIM else 0

/-- A cycle of a ring is invalid, once (R254). -/
def Block.ringInvalid (b : Block) (n code : Nat) : Block :=
  if (b.ring n).bad then b
  else
    let b1 := (((b.mapRing n (fun r => { r with bad := true })).putB (ZRG_CAUSE_INVALID n) true).put (ZRG_CAUSE_ICODE n) code)
    ((b1.countUp (ZRG_CNT n 1) 1).fullNext n).raise evRingCycleErr

/-- The ring becomes WRAPPED (R256). -/
def Block.wrapEnter (b : Block) (n : Nat) : Block :=
  if b.flag (ZRG_STAT_WRAPPED n) then b.mapRing n (fun r => { r with unwrap := false })
  else
    ((((b.putB (ZRG_STAT_WRAPPED n) true).putB (ZRG_CAUSE_WRAP n) true).countUp (ZRG_CNT n 3) 1).fullNext n).raise evRingWrap

/-- The bitmaps of the ring that LSEL selects (Table 7-14). -/
def Block.ringView (b : Block) (n : Nat) : Block :=
  let s := b.get (ZRG_LSEL_SUBR n)
  let r := b.ring n
  (List.range 4).foldl (fun x j =>
    (x.put (ZRG_PRES_PRES n j) (sget (fun _ => 0) r.pres (4 * s + j))).put (ZRG_LOST_LOST n j)
      (sget (fun _ => 0) r.lost (4 * s + j))) b

/-! ### Frames of the controller's own (R236, R240, R261) -/

/-- DA, SA and EtherType of ring `n`. -/
def Block.ringHead (b : Block) (n : Nat) : List Byte :=
  bytesBE (0x015A4C000000 + n) 6 ++ bytesBE (b.get (MAC_ADDR_ADDR (b.ringPort n false))) 6 ++ bytesBE b.etype 2

/-- A frame leaves a ring port with its FCS, if its link is up (R231). -/
def Block.ringOut (b : Block) (p : Nat) (l : List Byte) : Block :=
  if b.flag (MAC_STAT_LINK p) then (b.countTx p l).emit (.ringFrame p (l ++ fcsOf l)) else b

/-- A frame leaves a ring port stomped after an uncorrectable cell error: with the complement of its FCS (R273, R290). -/
def Block.ringStomp (b : Block) (p : Nat) (l : List Byte) : Block :=
  if b.flag (MAC_STAT_LINK p) then (b.emit (.ringFrame p (l ++ (fcsOf l).map (~~~·)))).stompShow p 3 else b

/-- A frame leaves on every port of a list. -/
def Block.ringOuts (b : Block) (l : List Byte) (stomp : Bool) : List Nat → Block
  | [] => b
  | p :: r => (if stomp then b.ringStomp p l else b.ringOut p l).ringOuts l stomp r

/-- The ports on which a frame leaves; a fallen link of a RING wraps it (R256). -/
def Block.sendPorts (b : Block) (n : Nat) : Block × List Nat :=
  let p := b.ringPort n false
  let q := b.ringPort n true
  let up := fun (k : Nat) => b.flag (MAC_STAT_LINK k)
  if b.isRing n then
    let b1 := if up p && up q then b else b.wrapEnter n
    (b1, if b1.flag (ZRG_STAT_WRAPPED n) then [p, q].filter up else [p])
  else (b, [p].filter up)

/-- A mailbox frame of the controller to a node of the main ring (Table 7-6, Table 7-11). -/
def Block.mailFrame (b : Block) (n pos svc : Nat) (payload : List Byte) : List Byte :=
  let l := b.ringHead n ++ [3, 0x40] ++ bytesBE n 1 ++ [0] ++ bytesBE pos 4 ++ bytesBE 0 2 ++ bytesBE (1 + payload.length) 2 ++
    bytesBE svc 1 ++ payload
  l ++ List.replicate (60 - l.length) 0

/-- A mailbox frame of the controller leaves; before the ring runs the last node's loop is closed, and the primary port reaches
every node (R261). -/
def Block.nodeMail (b : Block) (n pos svc : Nat) (payload : List Byte) : Block :=
  let l := b.mailFrame n pos svc payload
  if b.ringState n = 3 ∨ b.ringState n = 4 then (b.sendPorts n).1.ringOuts l false (b.sendPorts n).2
  else b.ringOut (b.ringPort n false) l

/-- Mail of one service to nodes from a list, with each node's payload. -/
def Block.nodeMails (b : Block) (n svc : Nat) (pay : Nat → List Byte) : List Nat → Block
  | [] => b
  | k :: r => (b.nodeMail n k svc (pay k)).nodeMails n svc pay r

/-! ### Endpoints (R246 to R249) -/

/-- An entry that nothing has written: KIND OFF. -/
def epOff : Word × Word := (0, 0)

/-- The entry that the controllers read. -/
def Block.epEntry (b : Block) (ep : Nat) : Word × Word :=
  if b.flag ZRG_EPT_BANKED && decide (131071 < ep) then epOff else sget (fun _ => epOff) b.rings.ept ep

/-- KIND of an entry. -/
def epKind (e : Word × Word) : Nat := fieldOf e.1 18 2

/-- A datagram of ring `n` names an endpoint that is OFF (R246). -/
def Block.badRef (b : Block) (n ep : Nat) : Block :=
  (((b.putB ZRG_EPCAUSE_BADREF true).put ZRG_EPCAUSE_EP ep).put ZRG_EPCAUSE_RING n).raise evEndpointTable

/-- Pl of an endpoint (R242). -/
def Block.plOf (b : Block) (ep : Nat) : Int := sget (fun _ => (0 : Int)) b.rings.pl ep

/-- Write a word of an engine's data store by hardware (R136, R247). -/
def Block.storeWord (b : Block) (e a : Nat) (v : Word) : Block :=
  b.hwStore e (a % 2 ^ 14) v

/-! ### Filling (R231, R238 to R244) -/

/-- What one AXIS slot carries: CTL, Pt, Pl, POSFRAC shift, VEL, ACC, TRQ, HOLD. -/
structure SlotOut where
  ep : Nat
  ctl : Nat
  pt : Int
  pl : Int
  sh : Nat
  vel : Nat
  acc : Nat
  trq : Nat
  hold : Bool

/-- The torque of R244 for an ACC and a KTRQ in binary32. -/
def torque (acc k : Nat) : Nat :=
  let (m, e) := ofF32 acc
  let (m2, e2) := ofF32 k
  toF16 (m * m2) (e + e2) (bitAt acc 31 != bitAt k 31)

/-- The slot of an endpoint (R239, R242, R244, R246). -/
def Block.slotOut (b : Block) (ep : Nat) : SlotOut :=
  let e := b.epEntry ep
  let pl := b.plOf ep
  let sh := 32 - fieldOf e.1 39 6
  if epKind e ≠ 1 then { ep := ep, ctl := 0x9C, pt := pl, pl := pl, sh := sh, vel := 0, acc := 0, trq := 0, hold := true }
  else
    let r := b.rec_ (fieldOf e.1 0 18)
    let hold := r.r1.getLsbD 64
    let pt := toSigned 72 r.r0.toNat / (2 ^ sh : Nat) * (2 ^ sh : Nat)
    { ep := ep
      ctl := b2n hold * 128 + b2n (r.r1.getLsbD 65) * 64 + b2n (r.r1.getLsbD 66) * 32 + fieldOf r.r1 67 3 * 4
      pt := if hold then pl else pt, pl := pl, sh := sh
      vel := fieldOf r.r1 32 32, acc := fieldOf r.r1 0 32
      trq := if e.1.getLsbD 45 then torque (fieldOf r.r1 0 32) (fieldOf e.2 0 32) else 0
      hold := hold }

/-- DPOS of a slot (R242). -/
def SlotOut.dpos (x : SlotOut) : Int := (x.pt - x.pl) / (2 ^ x.sh : Nat)

/-- DPOS does not fit 32 bits (R243). -/
def SlotOut.wide (x : SlotOut) : Bool := decide (x.dpos < -(2 ^ 31)) || decide (2 ^ 31 ≤ x.dpos)

/-- The bytes of a slot, its last four zero (Table 7-4). -/
def SlotOut.bytes (x : SlotOut) (full : Bool) : List Byte :=
  bytesBE x.ctl 1 ++ (if full then bytesBE (ofSigned 72 x.pt) 9 else bytesBE (ofSigned 32 x.dpos) 4) ++ bytesBE x.vel 4 ++
    bytesBE x.acc 4 ++ bytesBE x.trq 2 ++ List.replicate 4 0

/-- The effects of the slots of a datagram on Pl and on BADREF. -/
def Block.slotsSent (b : Block) (n : Nat) : List SlotOut → Block
  | [] => b
  | x :: r =>
    let b1 := if epKind (b.epEntry x.ep) = 0 then b.badRef n x.ep else b
    Block.slotsSent (if x.hold then b1
      else b1.mapRings (fun w => { w with pl := sput (fun _ => (0 : Int)) w.pl x.ep x.pt })) n r

/-- Data-store words as they stand at an instant, as bytes, eight per word (R247). -/
def storeBytes (x : Engine) (t a n : Nat) : List Byte :=
  ((List.range (ceilDiv n 8)).flatMap (fun k => bytesBE ((x.hwLoad t ((a + k) % 2 ^ 14)).toNat % 2 ^ 64) 8)).take n

/-- The output of a DATA slot: the template's, or data-store words (R246, R247). -/
def Block.dataOut (b : Block) (ep : Nat) (tmpl : List Byte) : List Byte :=
  let e := b.epEntry ep
  let out := fieldOf e.1 47 8
  if epKind e = 2 ∧ e.1.getLsbD 46 then
    storeBytes (b.engine (fieldOf e.1 20 4)) b.tm.phys (fieldOf e.1 0 14) (min out tmpl.length) ++ tmpl.drop out
  else tmpl

/-- The slots of a DATA datagram. -/
def Block.dataSlots (b : Block) (slot : Nat) : Nat → Nat → List Byte → List Byte
  | _, 0, _ => []
  | ep, k + 1, l => b.dataOut ep (l.take slot) ++ b.dataSlots slot (ep + 1) k (l.drop slot)

/-- The endpoints of a DATA datagram that are OFF. -/
def Block.dataRefs (b : Block) (n : Nat) : List Nat → Block
  | [] => b
  | ep :: r => (if epKind (b.epEntry ep) = 0 then b.badRef n ep else b).dataRefs n r

/-- Length of a PRES payload for `k` nodes (R238). -/
def presLen (k : Nat) : Nat := ceilDiv (2 * k) 64 * 8

/-- Fill the datagrams of a frame (R231, R238): the bytes, whether the format holds, and how many PRES
datagrams of the main ring there are. -/
def Block.fillData (b : Block) (n grant : Nat) : Nat → List Byte → Block × List Byte × Bool × Nat
  | 0, l => (b, l, false, 0)
  | fuel + 1, l =>
    let cmd := beAt l 0 1
    let lastD := bitAt (beAt l 1 1) 7
    let ep := beAt l 2 3 % 2 ^ 18
    let slot := beAt l 5 1
    let cnt := beAt l 6 2 % 2 ^ 12 + 1
    let h := l.take 8
    if l.length < 8 then (b, l, false, 0)
    else if cmd = 1 then
      let k := presLen cnt
      let main := ep / 512 = 0
      let h1 := if main then splice h 2 (bytesBE grant 3) else h
      let rest := l.drop (8 + k)
      let (b1, t, ok, m) := if lastD then (b, rest, true, 0) else b.fillData n grant fuel rest
      (b1, h1 ++ List.replicate k 0 ++ t, ok, m + b2n (decide main))
    else if cmd = 2 then
      if slot ≠ 24 then (b, l, false, 0)
      else
        let xs := (List.range cnt).map (fun i => b.slotOut (ep + i))
        let full := (b.ring n).fullC || xs.any (·.wide) ||
          xs.any (fun x => b.rings.wrote.contains x.ep || b.rings.wroteLast.contains x.ep)
        let b0 := (b.slotsSent n xs).countUp (ZRG_CNT n (if full then 7 else 8)) 1
        let h1 := splice (splice h 1 (bytesBE (b2n lastD * 128 + b2n full * 64) 1)) 5 (bytesBE (if full then 24 else 19) 1)
        let rest := l.drop (8 + 24 * cnt)
        let (b1, t, ok, m) := if lastD then (b0, rest, true, 0) else b0.fillData n grant fuel rest
        (b1, h1 ++ xs.flatMap (fun x => x.bytes full) ++ t, ok, m)
    else if cmd = 3 then
      let b0 := b.dataRefs n ((List.range cnt).map (ep + ·))
      let body := b.dataSlots slot ep cnt ((l.drop 8).take (slot * cnt))
      let rest := l.drop (8 + slot * cnt)
      let (b1, t, ok, m) := if lastD then (b0, rest, true, 0) else b0.fillData n grant fuel rest
      (b1, h ++ body ++ t, ok, m)
    else (b, l, false, 0)

/-- The grant of a cycle (R257, R258): after a cycle whose train had no LASTF frame the same node again (R230), else the next
direct node that requested, or 0x1FF. -/
def Block.grantNext (b : Block) (n : Nat) : Nat :=
  let c := b.get (ZRG_MBX_CLASS n)
  let r := b.ring n
  if !b.flag (ZRG_MBX_GRANT n) || bitAt (b.get (SWC_PORT_STAT_EQX 32)) c || b.flag (SWC_IG_STAT_XOFF (b.ringPort n false)) then 0x1FF
  else if r.again && r.grant ≠ 0x1FF then r.grant
  else
    let g := b.get (ZRG_MBX_LASTG n)
    let from_ := if g = 0x1FF then 0 else g + 1
    (((List.range 256).map (fun i => (from_ + i) % 256)).find? (fun k => r.reqs.contains k)).getD 0x1FF

/-- The flags, CLAIM and datagrams of a train frame; `first` says that it is FIDX 0. -/
def Block.fillFrame (b' : Block) (n : Nat) (first : Bool) (l : List Byte) : Block × List Byte × Bool :=
  let b := b'.flwRun
  let grant := if first then b.grantNext n else 0x1FF
  let b0 := if first then
      (if grant = 0x1FF then b else b.put (ZRG_MBX_LASTG n) grant).mapRing n (fun r => { r with
        grant := grant, again := false, claim := b.claimNow })
    else b
  let fl := beAt l 15 1
  let fl1 := fl / 32 * 32 + b2n (b.ring n).fullC * 16 + b2n b.synced * 8
  let h := splice (splice (l.take 32) 15 (bytesBE fl1 1)) 22 (bytesBE b.claimNow 2)
  let (b1, t, ok, m) := b0.fillData n grant l.length (l.drop 32)
  (b1, h ++ t, ok && (!first || m == 1))

/-- The STW that NEXT of a frame sent now at stamp `w` leads to: the boundary that ends the cycle (R231), in KEEPALIVE the
following keep-alive instant (R263), and `w` itself while no cycle is in progress (DESIGN CHOICE, log entry 74). -/
def Block.applyAt (b : Block) (n : Nat) (w : Word) : Word :=
  if b.ringState n = 4 then b.stw + BitVec.ofNat 72 (((b.ring n).kaAt - b.tm.phys) / 2 ^ 24)
  else if b.cyc.inProg then BitVec.ofNat 72 (b.cyc.next * 2 ^ 16) else w

/-- NEXT and TXS for a send at stamp `w` (R231). -/
def Block.stampFrame (b : Block) (n : Nat) (w : Word) (l : List Byte) : List Byte :=
  let left := (b.applyAt n w - w).toNat / 2 ^ 13
  splice (splice l 18 (bytesBE (left % 2 ^ 32) 4)) 24 (bytesBE (w.toNat % 2 ^ 64) 8)

/-! ### The train (R229, R230, R232, R256) -/

/-- Ring bytes of a frame (R235). -/
def ringBytes (len : Nat) : Nat := len + 24

/-- Every send of a frame has come back (R232). -/
def TrainFrame.back (t : TrainFrame) : Bool := !t.sent.isEmpty && decide (t.sent.length ≤ t.got.length)

/-- An emitted frame is a cycle frame of the ring protocol: a ring port sends no other (R227). -/
def Block.isCycleFrame (b : Block) (l : List Byte) : Bool := beAt l 12 2 == b.etype && beAt l 14 1 == 1

/-- An emitted frame reaches its ring (R229): into the train, or discarded. -/
def Block.ringEmit (b : Block) (n : Nat) (f : InFrame) : Block :=
  let st := b.ringState n
  if (st ≠ 2 ∧ st ≠ 3) ∨ (b.ring n).lastF ∨ b.ringMute ∨ !b.isCycleFrame f.bytes then b.ringDisc n
  else
    let (b1, id) := b.store f true
    (b1.setRefs id (fun _ => 1)).mapRing n (fun r => { r with
      train := r.train ++ [{ fid := id, bytes := f.bytes, cycle := f.cycle, sent := [], got := [], ret := none }]
      lastF := bitAt (beAt f.bytes 15 1) 5 })

/-- The stamp of a send on port `p`. The copies of one frame bear stamps of their own, by which they are told apart: where the
ports' stamps would be equal the later copy's is one unit more (DESIGN CHOICE, log entry 74). -/
def Block.sendStamp (b : Block) (p : Nat) (used : List (Nat × Nat)) : Word :=
  let w := b.txStamp p
  if used.any (fun x => x.2 == w.toNat % 2 ^ 64) then w + 1 else w

/-- Send a filled frame on ports, each with its own stamp; `used` are the sends made before. -/
def Block.sendOn (b : Block) (n : Nat) (stomp : Bool) (l : List Byte) (used : List (Nat × Nat)) : List Nat → Block × List (Nat × Nat)
  | [] => (b, used)
  | p :: r =>
    let w := b.sendStamp p used
    (b.ringOuts (b.stampFrame n w l) stomp [p]).sendOn n stomp l (used ++ [(p, w.toNat % 2 ^ 64)]) r

/-- Replace one frame of a train. -/
def putTrain (fid : Nat) (f : TrainFrame → TrainFrame) (l : List TrainFrame) : List TrainFrame :=
  l.map (fun t => if t.fid = fid then f t else t)

/-- The queue whose counters a frame of the train uses. -/
def Block.trainClass (b : Block) (n fid : Nat) : Nat :=
  match b.frameOf fid with | some sf => queueOf sf.f (b.ringPort n false) | none => 8

/-- A frame leaves the train and its cells are free. -/
def Block.trainDrop (b : Block) (n fid : Nat) : Block :=
  (b.release fid).mapRing n (fun r => { r with train := r.train.filter (fun x => x.fid ≠ fid) })

/-- The LASTF frame of the cycle has left. -/
def Block.lastSent (b : Block) (n : Nat) : Bool :=
  (b.ring n).train.any (fun t => bitAt (beAt t.bytes 15 1) 5 && !t.sent.isEmpty)

/-- A mailbox frame of the controller's own that waits leaves once its cycle's LASTF frame has, one in a cycle (R259). -/
def Block.mailFlush (b : Block) (n : Nat) : Block :=
  match (b.ring n).mail with
  | [] => b
  | l :: r =>
    if b.ringState n = 3 && !(b.ring n).dn && b.lastSent n then
      ((b.sendPorts n).1.ringOuts l false (b.sendPorts n).2).mapRing n (fun x => { x with mail := r, dn := true })
    else b

/-- The wake pattern (R264): its word in 16 consecutive blocks. -/
def wakePattern : List Byte := (List.replicate 16 (bytesBE 0xC7A15E39B2640D8F 8)).flatten

/-- The wake pattern leaves on the ports of a ring. -/
def Block.wakeSend (b : Block) (n : Nat) : Block :=
  ([b.ringPort n false] ++ (if b.isRing n then [b.ringPort n true] else [])).foldl (fun z p => z.emit (.control p wakePattern)) b

/-- A ring in READY enters RUN with its first train frame, after STANDBY with the wake pattern (R264, Table 7-12). -/
def Block.ringRun (b : Block) (n : Nat) : Block :=
  if b.ringState n = 2 then
    (if (b.ring n).wake then (b.wakeSend n).mapRing n (fun r => { r with wake := false }) else b).put (ZRG_STAT_STATE n) 3
  else b

/-- The first frame of the train that has not left. Its cells are read with the errors of `ups` (R272, R273). -/
def Block.sendFirst (b0 : Block) (n : Nat) (t : TrainFrame) (ups : List CellUpset) : Block :=
  let b := b0.reachPhys (b0.ring n).sendEnd
  let first := ((b.ring n).train.head?.map (·.fid)) == some t.fid
  let (b1, ports) := b.sendPorts n
  if ports.isEmpty then ((b1.ringInvalid n 3).trainDrop n t.fid).lostCheck n
  else
    let (b2, st) := b1.readCells t.fid ups
    if st = 1 then (b2.ueDrop (b2.ringPort n false) (b2.trainClass n t.fid)).trainDrop n t.fid
    else
      let (b3, l, ok) := (b2.ringRun n).fillFrame n first t.bytes
      let b4 := if ok then b3 else b3.ringInvalid n 4
      let (b5, sent) := b4.sendOn n (st == 2) l [] ports
      (b5.mapRing n (fun r => { r with
        train := putTrain t.fid (fun x => { x with bytes := l, sent := sent }) r.train
        used := r.used + ringBytes t.bytes.length
        sendEnd := b5.tm.phys + b5.wireTime (b5.ringPort n false) (l.length + 4) })).mailFlush n

/-- RING_FRAME_SEND: the next frame of a ring's train leaves. -/
def execRingFrameSend (n : Fin 32) (ups : List CellUpset) (s : State) : Host.Outcome State Fault Refusal :=
  done s fun b =>
    if b.ringState n = 2 ∨ b.ringState n = 3 then
      match (b.ring n).train.find? (fun t => t.sent.isEmpty) with
      | none => b
      | some t => b.sendFirst n t ups
    else b

/-! ### Returns (R234, R247, R254 to R256, R505) -/

/-- The channel of a node (R50 kind 5). -/
def nodeChan (n subr pos : Nat) : Channel := { kind := 5, idx := (n * 257 + subr) * 256 + pos }

/-- A node is retired (R255). -/
def Block.nodeRetire (b : Block) (n subr pos : Nat) : Block :=
  let k := 4 * subr + pos / 64
  let b1 := (b.retire (nodeChan n subr pos)).mapRing n (fun r => { r with
    lost := sput (fun _ => 0) r.lost k (setBitN (sget (fun _ => 0) r.lost k) (pos % 64)) })
  let b2 := ((((b1.putB (ZRG_CAUSE_LOST n) true).put (ZRG_CAUSE_NODE n) pos).put (ZRG_CAUSE_SUBR n) subr)).raise evRingNodeLost
  if b.isRing n && subr == 0 then b2.wrapEnter n else b2

/-- The presence of one node in a good frame (R255). -/
def Block.nodePresence (b : Block) (n subr pos : Nat) (here : Bool) : Block :=
  let c := nodeChan n subr pos
  let k := 4 * subr + pos / 64
  let was := bitAt (sget (fun _ => 0) (b.ring n).pres k) (pos % 64)
  let b1 := b.mapRing n (fun r => { r with
    pres := sput (fun _ => 0) r.pres k ((if here then setBitN else clrBitN) (sget (fun _ => 0) r.pres k) (pos % 64)) })
  if here then
    (if b.isRetired c && !was then
      (((b1.putB (ZRG_CAUSE_BACK n) true).put (ZRG_CAUSE_NODE n) pos).put (ZRG_CAUSE_SUBR n) subr) else b1)
  else if b1.retires c then (b1.strike c).nodeRetire n subr pos
  else b1.strike c

/-- The nodes of a PRES payload, from position `pos` on. -/
def Block.presNodes (b : Block) (n subr : Nat) (l : List Byte) : Nat → Nat → Block
  | _, 0 => b
  | pos, k + 1 => (b.nodePresence n subr pos (bitAt (beAt l (pos / 4) 1) (2 * pos % 8))).presNodes n subr l (pos + 1) k

/-- Write one returned word: at once, or in a synchronised pair as a journal input (R505). -/
def Block.returnWord (b : Block) (e a : Nat) (v : Word) (cycle claim : Nat) : Block :=
  if b.synced then b.journalItem (.ringData e (a % 2 ^ 14) v cycle claim) else b.storeWord e a v

/-- A journaled return takes effect: of two copies for one word the one under the higher claim stays. -/
def Block.returnApply (b : Block) (e a : Nat) (v : Word) (cycle claim : Nat) : Block :=
  let k := e * 2 ^ 14 + a
  let (c, m) := sget (fun _ => (0, 0)) b.rings.slotBy k
  if c = cycle ∧ claim < m then b
  else (b.mapRings (fun w => { w with slotBy := sput (fun _ => (0, 0)) w.slotBy k (cycle, claim) })).storeWord e a v

/-- A word of input bytes: the first in [63:56], bit 63 copied above (R247). -/
def inputWord (l : List Byte) : Word :=
  BitVec.ofNat 72 (ofSigned 72 (toSigned 64 (natOfBytesBE ((l ++ List.replicate 8 0).take 8))))

/-- Input bytes as words from word `a` on. -/
def Block.inputWords (b : Block) (e cycle claim : Nat) : Nat → Nat → List Byte → Block
  | 0, _, _ => b
  | k + 1, a, l => (b.returnWord e a (inputWord (l.take 8)) cycle claim).inputWords e cycle claim k (a + 1) (l.drop 8)

/-- The return of one slot (R247) and its CLAIMX and SRCCHG (R253, R495). -/
def Block.slotReturn (b : Block) (n ep cycle claim : Nat) (slot : List Byte) : Block :=
  let e := b.epEntry ep
  let k := slot.length - 4
  let st := beAt slot k 4
  let eng := fieldOf e.1 20 4
  let iw := fieldOf e.1 25 14
  let cx := bitAt st 27
  let sc := bitAt st 26
  let b0 := if cx || sc then
      ((if cx then b.putB (ZRG_CAUSE_CLAIMX n) true else b) |> fun x =>
        if sc then x.putB (ZRG_CAUSE_SRCCHG n) true else x).raise evClaimChange
    else b
  if !bitAt st 31 || !e.1.getLsbD 24 then b0
  else if epKind e = 1 then b0.returnWord eng iw (BitVec.ofNat 72 st) cycle claim
  else if epKind e = 2 then
    let inp := (slot.take k).drop (fieldOf e.1 47 8)
    let ws := ceilDiv inp.length 8
    (b0.inputWords eng cycle claim ws iw inp).returnWord eng (iw + ws) (BitVec.ofNat 72 st) cycle claim
  else b0

/-- The slots of a datagram. -/
def Block.slotReturns (b : Block) (n cycle claim slot : Nat) : Nat → Nat → List Byte → Block
  | _, 0, _ => b
  | ep, k + 1, l => (b.slotReturn n ep cycle claim (l.take slot)).slotReturns n cycle claim slot (ep + 1) k (l.drop slot)

/-- The request bits of a PRES payload. -/
def requestsOf (l : List Byte) (cnt : Nat) : List Nat :=
  (List.range cnt).filter (fun k => bitAt (beAt l (k / 4) 1) ((2 * k + 1) % 8))

/-- A datagram as it stands in a frame (Table 7-3). -/
structure Dgram where
  cmd : Nat
  ep : Nat
  slot : Nat
  cnt : Nat
  body : List Byte
  deriving DecidableEq, Repr

/-- The datagrams of bytes, up to the one marked LASTD. -/
def dgrams : Nat → List Byte → List Dgram
  | 0, _ => []
  | fuel + 1, l =>
    let cmd := beAt l 0 1
    let slot := beAt l 5 1
    let cnt := beAt l 6 2 % 2 ^ 12 + 1
    let k := if cmd = 1 then presLen cnt else slot * cnt
    if l.length < 8 ∨ cmd = 0 ∨ 3 < cmd then []
    else
      { cmd := cmd, ep := beAt l 2 3 % 2 ^ 18, slot := slot, cnt := cnt, body := (l.drop 8).take k } ::
        (if bitAt (beAt l 1 1) 7 then [] else dgrams fuel (l.drop (8 + k)))

/-- The datagrams of a cycle frame. -/
def frameData (l : List Byte) : List Dgram := dgrams l.length (l.drop 32)

/-- The slots of the datagrams of a good returned frame (R247). -/
def Block.returnSlots (b : Block) (n cycle claim : Nat) : List Dgram → Block
  | [] => b
  | d :: r => (if d.cmd = 1 then b else b.slotReturns n cycle claim d.slot d.ep d.cnt d.body).returnSlots n cycle claim r

/-- The PRES datagrams of a good return: presence (R255), and the request bits of the main ring, which take the place of those
of the last good return (R257). -/
def Block.returnPres (b : Block) (n : Nat) : List Dgram → Block
  | [] => b
  | d :: r =>
    (if d.cmd = 1 then
      (let b1 := b.presNodes n (d.ep / 512) d.body 0 d.cnt
       if d.ep / 512 = 0 then b1.mapRing n (fun x => { x with reqs := requestsOf d.body d.cnt }) else b1)
    else b).returnPres n r

/-- The PRES bits of two copies of one frame together, datagram by datagram (R256): each half of a WRAPPED ring sets its own. -/
def mergePres (a c : List Dgram) : List Dgram :=
  (a.zip c).map (fun x => if x.1.cmd = 1 then { x.1 with body := (x.1.body.zip x.2.body).map (fun p => p.1 ||| p.2) } else x.1)

/-- Replace a frame of the train, or one of the last cycle that is not back yet. -/
def Block.mapTrain (b : Block) (n fid : Nat) (f : TrainFrame → TrainFrame) : Block :=
  b.mapRing n (fun r => { r with train := putTrain fid f r.train, old := putTrain fid f r.old })

/-- A looped frame is sent again on the other port, where it can return by the boundary (R256). -/
def Block.resend (b : Block) (n p : Nat) (t : TrainFrame) : Block :=
  let q := if p = b.ringPort n false then b.ringPort n true else b.ringPort n false
  if b.flag (MAC_STAT_LINK q) &&
      (b.ringState n == 4 || decide (b.tm.lt + b.get (ZRG_TIMING_RTT n) * nsUnit ≤ b.cyc.next * nsUnit)) then
    let (b1, sent) := b.sendOn n false t.bytes t.sent [q]
    b1.mapTrain n t.fid (fun x => { x with sent := sent })
  else b

/-- A frame sent on a port has arrived whole at the other: ONEWAY, and the end of WRAPPED at the next boundary (R256). -/
def Block.passedRing (b : Block) (n out txs : Nat) : Block :=
  let ow := ((b.stw.toNat % 2 ^ 64 + 2 ^ 64 - txs) % 2 ^ 64) / 2 ^ 16
  let b1 := if out == b.ringPort n false then b.put (ZRG_TIMING_ONEWAY n) (sat (2 ^ 20 - 1) ow) else b
  if b1.flag (ZRG_STAT_WRAPPED n) then b1.mapRing n (fun r => { r with unwrap := true }) else b1

/-- A good frame that this unit has sent has returned on port `p`, having left port `out` with `txs`. Its slots are written at
once. Once every copy is back its cells are free and the presence bits of its copies together are judged (R232, R255, R269). -/
def Block.trainBack (b : Block) (n p out txs : Nat) (t : TrainFrame) (l : List Byte) : Block :=
  let live := (b.ring n).train.any (fun x => x.fid == t.fid)
  let looped := decide (p = out) && b.isRing n
  let b1 := b.mapTrain n t.fid (fun x => { x with got := x.got ++ [txs], ret := some (x.ret.getD l) })
  let b2 := if looped then b1.wrapEnter n else if b1.isRing n then b1.passedRing n out txs else b1
  let b3 := if looped && live && t.sent.length == 1 then b2.resend n p t else b2
  let b4 := b3.returnSlots n t.cycle b.claimNow (frameData l)
  if ((b4.ring n).train ++ (b4.ring n).old).any (fun x => x.fid == t.fid && x.back) then
    (if live && b.ringState n ≠ 4 then b4.release t.fid else b4).returnPres n
      (match t.ret with | some a => mergePres (frameData a) (frameData l) | none => frameData l)
  else b4

/-- The frame that a returned frame is, by its TXS, with the port that it left and its stamp: one of the train, or one that the
last boundary found not back (R234). -/
def Block.trainOf (b : Block) (n : Nat) (l : List Byte) : Option (TrainFrame × Nat × Nat) :=
  ((b.ring n).train ++ (b.ring n).old).findSome? (fun t =>
    (t.sent.find? (fun x => x.2 == beAt l 24 8)).map (fun x => (t, x.1, x.2)))

/-- A frame's tail has arrived at a port of a ring in RUN, STOPPING or KEEPALIVE. A bad one makes the cycle invalid (R254), on a
DUAL ring only where it is known for this unit's own. There a good frame that is not this unit's is the partner's. -/
def Block.ringBack (b : Block) (n p : Nat) (f : WireFrame) : Block :=
  let own := b.trainOf n f.bytes
  let mine := match own with
    | some (t, _, _) => (b.ring n).train.any (fun x => x.fid == t.fid)
    | none => b.get (ZRG_CFG_TOPO n) != 2
  if !(f.fcsOk && !b.rxCode p f && decide (60 ≤ f.bytes.length)) then
    (if mine && b.ringState n ≠ 4 then b.ringInvalid n (if f.bytes.length < 60 then 2 else 1) else b)
  else
    match own with
    | some (t, out, txs) => b.trainBack n p out txs t f.bytes
    | none =>
      if b.get (ZRG_CFG_TOPO n) == 2 && b.synced then
        (b.returnSlots n b.cyc.count (beAt f.bytes 22 2) (frameData f.bytes)).returnPres n (frameData f.bytes)
      else b

/-- The bitmaps after a return. -/
def Block.ringBackShow (b : Block) (n p : Nat) (f : WireFrame) : Block := (b.ringBack n p f).ringView n

/-- A frame goes back out of the port on which it came, unchanged (R506). -/
def Block.ringEcho (b : Block) (p : Nat) (f : WireFrame) : Block :=
  if f.fcsOk then b.ringOut p f.bytes else b.emit (.ringFrame p (f.bytes ++ (fcsOf f.bytes).map (~~~·)))

/-- RING_FRAME_RETURN: the tail of a cycle frame arrives on the primary or the peer port of a ring. On a DUAL ring a unit
that is no member of its pair sends it back (R506). -/
def execRingFrameReturn (n : Fin 32) (peer : Bool) (f : WireFrame) (dt : Nat) (s : State) :
    Host.Outcome State Fault Refusal :=
  done s fun b0 =>
    let b := b0.advanceNs dt
    let p := b.ringPort n peer
    if !b.flag (MAC_STAT_LINK p) then b
    else
      let b1 := b.rxCounts p f
      let st := b.ringState n
      if b.ringMute && b.get (ZRG_CFG_TOPO n) == 2 then b1.ringEcho p f
      else if b.rxKind p f = 0 && !b.isCycleFrame f.bytes then
        (if beAt f.bytes 12 2 == 0x8808 then b1.controlRx p f.bytes else b1).ringRx p f.bytes
      else if st = 3 ∨ st = 4 ∨ st = 5 then b1.ringBackShow n p f
      else b1

/-! ### Mailbox (R257 to R259) -/

/-- MAILBOX_UP: a good upward mailbox frame arrives and goes to the host port (R258). A frame that is no upward mailbox frame
of Table 7-6 is discarded. -/
def execMailboxUp (n : Fin 32) (peer : Bool) (bytes : List Byte) (dt : Nat) (s : State) :
    Host.Outcome State Fault Refusal :=
  done s fun b0 =>
    let b := b0.advanceNs dt
    let p := b.ringPort n peer
    let w : WireFrame := ⟨bytes, true, false, 0, 0⟩
    if b.ringState n = 0 ∨ !b.flag (MAC_STAT_LINK p) then b
    else if b.rxKind p w ≠ 0 then b.rxCounts p w
    else if b.isMail n true bytes then
      let f : InFrame := { src := b.ringPort n false, bytes := bytes, vid := 1, pcp := none, cls := b.get (ZRG_MBX_CLASS n)
                           port := 32, sch := false, cycle := b.cyc.count, bad := 0, stamp := b.rxStamp p, rxEnd := b.tm.phys }
      ((((b.rxCounts p w).place f [32]).putB (ZRG_CAUSE_MBXUP n) true).countUp (ZRG_CNT n 5) 1).raise evMailbox
    else (b.rxCounts p w).ringDisc n

/-- MAILBOX_DOWN_SEND: after the LASTF frame one host mailbox frame leaves (R259), on both ports of a WRAPPED ring (R256). Its
cells are read with the errors of `ups` (R272, R273). -/
def execMailboxDownSend (n : Fin 32) (ups : List CellUpset) (s : State) : Host.Outcome State Fault Refusal :=
  done s fun b =>
    let p := b.ringPort n false
    let head := ((List.range 8).map (7 - ·)).findSome? (b.headOf p)
    if b.ringState n = 3 && b.lastSent n && !(b.ring n).dn && !(b.sendPorts n).2.isEmpty then
      match head with
      | none => b
      | some x =>
        match b.frameOf x.fid with
        | none => b
        | some sf =>
          let (b1, ports) := b.sendPorts n
          let (b2, st) := b1.readCells x.fid ups
          if st = 1 then (b2.dropCopy x).ueDrop p x.cls
          else
            let b3 := ((b2.unqueue x).ringOuts sf.f.bytes (st == 2) ports).release x.fid
            (if st = 2 then b3 else b3.countUp (SWC_EC_CNT p x.cls 1) 1).mapRing n (fun r => { r with
              dn := true, dnSeq := some (beAt sf.f.bytes 22 2, beAt sf.f.bytes 18 4) })
    else b

/-- MAILBOX_ECHO: the addressed node's echo arrives with DIR 1 and a good FCS (R259): its MSEQ and ADDR are those sent. -/
def execMailboxEcho (n : Fin 32) (peer : Bool) (bytes : List Byte) (dt : Nat) (s : State) :
    Host.Outcome State Fault Refusal :=
  done s fun b0 =>
    let b := b0.advanceNs dt
    let p := b.ringPort n peer
    if b.flag (MAC_STAT_LINK p) && b.isMail n true bytes && (b.ring n).dnSeq == some (beAt bytes 22 2, beAt bytes 18 4) then
      ((((b.rxCounts p ⟨bytes, true, false, 0, 0⟩).mapRing n (fun r => { r with dnSeq := none })).putB (ZRG_CAUSE_MBXDN n)
        true).countUp (ZRG_CNT n 6) 1).raise evMailbox
    else b

/-! ### The endpoint table (R248, R249) -/

/-- A write of ZRG_EPT.SWAP: at the next boundary, at once where no cycles run. -/
def Block.eptSwapNow (b : Block) : Block :=
  let act := b.get ZRG_EPT_ACT
  let b1 := b.mapRings (fun w => { w with ept := w.edit, edit := w.ept, copyEnd := b.tm.phys + 105000 * nsUnit
                                          ring := w.ring.map (fun r => { r with fullC := true }) })
  (((((b1.put ZRG_EPT_ACT (1 - act)).putB ZRG_EPT_SWPEND false).putB ZRG_EPT_COPY true).putB ZRG_EPCAUSE_SWAPPED true)).raise
    evEndpointTable

/-- A write of ZRG_EPT.SWAP (R248). In WIDE and LEAN there is one table and nothing to exchange. -/
def Block.eptSwap (b : Block) : Block :=
  if !b.flag ZRG_EPT_BANKED then b
  else if b.cycling || b.flag ZRG_EPT_COPY then b.putB ZRG_EPT_SWPEND true
  else b.eptSwapNow

/-- EPT_SWAP. -/
def execEptSwap (s : State) : Host.Outcome State Fault Refusal := done s (journaled .eptSwap Block.eptSwap)

/-- The copy into the edit bank ends. -/
def Block.eptCopied (b : Block) : Block :=
  if b.flag ZRG_EPT_COPY then
    ((b.reachPhys b.rings.copyEnd).mapRings (fun w => { w with edit := w.ept })).putB ZRG_EPT_COPY false
  else b

/-- EPT_COPY_DONE: a swap held while the copy ran takes place then if no cycles run. -/
def execEptCopyDone (s : State) : Host.Outcome State Fault Refusal :=
  done s fun b =>
    let b1 := b.eptCopied
    if b.flag ZRG_EPT_COPY && b1.flag ZRG_EPT_SWPEND && !b1.cycling then b1.eptSwapNow else b1

/-- The exchange that a cycle boundary carries out (R248). -/
def Block.eptBoundary (b : Block) : Block :=
  if b.flag ZRG_EPT_BANKED && b.flag ZRG_EPT_SWPEND && !b.flag ZRG_EPT_COPY then b.eptSwapNow else b

/-- A write of ZRG_EWCTL.WR; a copy in progress ends first (R248, R249). -/
def Block.eptWrite (data : Half) (b0 : Block) : Block :=
  let b := (b0.put ZRG_EWCTL_ACTB (data.toNat / 4 % 2)).eptCopied
  let i := b.get ZRG_EWIDX_IDX
  let v := (b.reg ZRG_EWE0, b.reg ZRG_EWE1)
  if b.flag ZRG_EPT_BANKED then
    if 131071 < i then ((b.putB ZRG_EPCAUSE_BADREF true).put ZRG_EPCAUSE_EP i).raise evEndpointTable
    else b.mapRings (fun w => { w with edit := sput (fun _ => epOff) w.edit i v })
  else b.mapRings (fun w => { w with ept := sput (fun _ => epOff) w.ept i v, wrote := w.wrote ++ [i] })

/-- EPT_WRITE. -/
def execEptWrite (data : Half) (s : State) : Host.Outcome State Fault Refusal :=
  done s (journaled (.eptWrite data) (Block.eptWrite data))

/-- A write of ZRG_EWCTL.RD. -/
def Block.eptRead (data : Half) (b0 : Block) : Block :=
  let b := (b0.put ZRG_EWCTL_ACTB (data.toNat / 4 % 2)).eptCopied
  let i := b.get ZRG_EWIDX_IDX
  let v := if b.flag ZRG_EPT_BANKED then
      (if 131071 < i then epOff else sget (fun _ => epOff) (if b.flag ZRG_EWCTL_ACTB then b.rings.ept else b.rings.edit) i)
    else sget (fun _ => epOff) b.rings.ept i
  (b.setReg ZRG_EWE0 v.1).setReg ZRG_EWE1 v.2

/-- EPT_READ. -/
def execEptRead (data : Half) (s : State) : Host.Outcome State Fault Refusal :=
  done s (journaled (.eptRead data) (Block.eptRead data))

/-- The table after a change of profile (R248). With the banks an exchange or a copy that waits ends. -/
def Block.eptProfile (b : Block) (banked : Bool) : Block :=
  let low := b.rings.ept.filter (fun e => e.1 ≤ 131071)
  (((b.mapRings (fun w => { w with ept := low, edit := if banked then low else [] })).putB ZRG_EPT_BANKED banked).putB
    ZRG_EPT_SWPEND false).putB ZRG_EPT_COPY false

/-! ### Scan and ring states (R260 to R263) -/

/-- Show A of a ring (R235). -/
def Block.ringAllowShow (b : Block) (n : Nat) : Block := b.put (ZRG_ALLOW_BYTES n) (sat 0xFFFFFF (b.ringAllow n))

/-- Store the fields of ZRGn_CFG. -/
def Block.zrgStore (n : Nat) (data : Half) (b : Block) : Block :=
  let v := data.toNat
  let b1 := b.put (ZRG_CFG_EN n) v
  let b2 := if v / 2 % 4 < 3 then b1.put (ZRG_CFG_TOPO n) (v / 2) else b1
  (b2.put (ZRG_CFG_PORT n) (v / 8)).put (ZRG_CFG_PEER n) (v / 2 ^ 8)

/-- The train of a ring is given up: its cells are free, but those of a keep-alive frame, which has none. -/
def Block.trainFree (b : Block) (n : Nat) : Block :=
  let b1 := if b.ringState n = 4 then b else (b.ring n).train.foldl (fun x t => if t.back then x else x.release t.fid) b
  b1.mapRing n (fun r => { r with train := [] })

/-- A ring enters OFF. A cycle that had a train counts (R268). -/
def Block.ringOff (b : Block) (n : Nat) : Block :=
  let b0 := if (b.ring n).train.isEmpty || b.ringState n == 4 then b else b.countUp (ZRG_CNT n 0) 1
  (((b0.trainFree n).mapRing n (fun r => { RingSt.reset with pres := r.pres, lost := r.lost, wake := r.wake })).put (ZRG_STAT_STATE n)
    0).putB (ZRG_STAT_WRAPPED n) false

/-- EN has been written 0 (R262). -/
def Block.ringStop (b : Block) (n : Nat) : Block :=
  if b.ringState n = 3 then
    let b1 := (b.ring n).train.foldl (fun x t => if t.sent.isEmpty then (x.release t.fid).ringDisc n else x) b
    (b1.mapRing n (fun r => { r with train := r.train.filter (fun t => !t.sent.isEmpty) })).put (ZRG_STAT_STATE n) 5
  else if b.ringState n = 5 then b
  else b.ringOff n

/-- A scan begins (R261); a member of a pair scans DUAL rings only (R505). -/
def Block.scanStart (b : Block) (n : Nat) : Block :=
  if b.synced && b.get (ZRG_CFG_TOPO n) != 2 then b.putB (ZRG_CAUSE_SCANERR n) true
  else
    let b1 := if b.get (ZRG_CFG_TOPO n) = 0 then b else b.nodeMail n 0x1FF 5 [1]
    (b1.mapRing n (fun r => { r with scan := some ⟨b.tm.phys, 0, false, 0, 0, 0, []⟩ })).put (ZRG_STAT_STATE n) 1

/-- A write of ZRGn_CFG, with or without SCAN (R260 to R262). -/
def Block.zrgCfg (n : Nat) (data : Half) (b : Block) : Block :=
  let was := b.flag (ZRG_CFG_EN n)
  let b1 := b.zrgStore n data
  let en := b1.flag (ZRG_CFG_EN n)
  let b2 := if was && !en then b1.ringStop n else b1
  if en && data.getLsbD 13 && b2.ringState n == 0 then b2.scanStart n else b2

/-- RING_SCAN: a write of ZRGn_CFG with SCAN 1. -/
def execRingScan (n : Fin 32) (data : Half) (s : State) : Host.Outcome State Fault Refusal :=
  let d := data ||| BitVec.ofNat 64 (2 ^ 13)
  done s (journaled (.ringScan n d) (Block.zrgCfg n d))

/-- The scan frame of ring `n`: the header of Table 7-2, its NEXT and TXS still zero, and 256 empty slots. -/
def Block.scanFrame (b : Block) (n : Nat) : List Byte :=
  b.ringHead n ++ [4, BitVec.ofNat 8 (0x40 + b2n b.synced * 8)] ++ bytesBE n 1 ++ [0] ++ bytesBE 0 4 ++ bytesBE b.claimNow 2 ++
    List.replicate (4096 + 8) 0

/-- SCAN_FRAME: the next scan frame leaves, 100 µs after the one before, and its result is taken. -/
def execScanFrame (n : Fin 32) (ret : Option ScanRet) (s : State) : Host.Outcome State Fault Refusal :=
  done s fun b0 =>
    match (b0.ring n).scan with
    | none => b0
    | some x =>
      let b := b0.reachPhys (x.startAt + x.frames * 100000 * nsUnit)
      let up := b.flag (MAC_STAT_LINK (b.ringPort n false))
      let y := match (if up then ret else none) with
        | none => { x with frames := x.frames + 1, run := 0 }
        | some r => { x with
            frames := x.frames + 1, any := true
            run := if 0 < x.run ∧ x.nodes = r.nodes.toNat then x.run + 1 else 1
            nodes := r.nodes.toNat, rtt := r.rtt.toNat, stamps := r.stamps }
      (b.sendOn n false (b.scanFrame n) [] [b.ringPort n false]).1.mapRing n (fun r => { r with scan := some y })

/-- The delay of node `k` from this end, in 2^-3 ns (R261). -/
def ScanSt.delay (x : ScanSt) (k : Nat) : Nat :=
  match x.stamps[k]? with
  | none => 0
  | some (f, r) => (x.rtt * 8 - (r - f).toNat) / 2

/-- SCAN_COMPLETE: four consistent scans (R261). -/
def execScanComplete (n : Fin 32) (s : State) : Host.Outcome State Fault Refusal :=
  done s fun b =>
    match (b.ring n).scan with
    | none => b
    | some x =>
      if x.run < 4 then b
      else
        let ks := List.range (min x.nodes 256)
        let b1 := (b.put (ZRG_STAT_NODES n) (min x.nodes 256)).put (ZRG_TIMING_RTT n) x.rtt
        let b2 := (b1.nodeMails n 2 (fun k => bytesBE (x.delay k) 4) ks).nodeMails n 4 (fun _ => bytesBE (b1.get (ZRG_WDOG_CYC n)) 1) ks
        let b3 := if b2.get (ZRG_CFG_TOPO n) = 0 then b2 else b2.nodeMail n (x.nodes - 1) 5 [0]
        let b4 := (b3.mapRing n (fun r => { RingSt.reset with pres := r.pres, lost := r.lost, wake := r.wake, fullC := true })).put (ZRG_STAT_STATE n) 2
        ((b4.fullNext n).putB (ZRG_CAUSE_SCANDONE n) true).ringAllowShow n

/-- SCAN_TIMEOUT: no return within 1 ms, or no four consistent scans within 10 ms (R261). -/
def execScanTimeout (n : Fin 32) (s : State) : Host.Outcome State Fault Refusal :=
  done s fun b =>
    match (b.ring n).scan with
    | none => b
    | some x =>
      let b1 := b.reachPhys (x.startAt + (if x.any then 10000000 else 1000000) * nsUnit)
      (b1.ringOff n).putB (ZRG_CAUSE_SCANERR n) true

/-- RING_DISABLE: a write of ZRGn_CFG with EN 0. -/
def execRingDisable (n : Fin 32) (data : Half) (s : State) : Host.Outcome State Fault Refusal :=
  let d := data &&& ~~~(1 : Half)
  done s (journaled (.ringDisable n d) (Block.zrgCfg n d))

/-- RING_STOP_DONE: in STOPPING every frame that has left is back, or no cycle is in progress (R262). -/
def execRingStopDone (n : Fin 32) (s : State) : Host.Outcome State Fault Refusal :=
  done s fun b =>
    if b.ringState n = 5 && ((b.ring n).train.all (·.back) || !b.cyc.inProg) then b.ringOff n else b

/-- The keep-alive frame: a PRES datagram for the main ring, its NEXT and TXS still zero (R263). -/
def Block.keepFrame (b : Block) (n : Nat) : List Byte :=
  let nodes := max 1 (b.get (ZRG_STAT_NODES n))
  let l := b.ringHead n ++ [1, BitVec.ofNat 8 (0x60 + b2n b.synced * 8)] ++ bytesBE n 1 ++ [0] ++ bytesBE 0 4 ++
    bytesBE b.claimNow 2 ++ bytesBE 0 8 ++ [1, 0x80] ++ bytesBE 0x1FF 3 ++ [0] ++ bytesBE (nodes - 1) 2 ++
    List.replicate (presLen nodes) 0
  l ++ List.replicate (60 - l.length) 0

/-- KEEPALIVE_FRAME: every 1 ms in KEEPALIVE, NEXT set to the following instant. Its copies return as those of a train's frame;
it takes no cells. -/
def execKeepaliveFrame (n : Fin 32) (s : State) : Host.Outcome State Fault Refusal :=
  done s fun b0 =>
    if b0.ringState n = 4 then
      let b := b0.reachPhys (b0.ring n).kaAt
      let (b1, ports) := (b.mapRing n (fun r => { r with kaAt := b.tm.phys + 1000000 * nsUnit, bad := false })).sendPorts n
      let l := b1.keepFrame n
      let (b2, sent) := b1.sendOn n false l [] ports
      b2.mapRing n (fun r => { r with
        train := [{ fid := b2.sw.nextId, bytes := l, cycle := b2.cyc.count, sent := sent, got := [], ret := none }] })
    else b0

/-- Write 1 to bits of ZRGn_LOSTj (R266): the nodes return to service. -/
def Block.nodesBack (n subr : Nat) : List Nat → Block → Block
  | [], b => b
  | pos :: r, b => Block.nodesBack n subr r (b.unretire (nodeChan n subr pos))

/-- The bits cleared are those that read 1. -/
def Block.lostClear (n j : Nat) (mask : Half) (b : Block) : Block :=
  let s := b.get (ZRG_LSEL_SUBR n)
  let k := 4 * s + j
  let old := sget (fun _ => 0) (b.ring n).lost k
  let hit := (List.range 64).filter (fun i => bitAt old i && mask.getLsbD i)
  let b1 := Block.nodesBack n s (hit.map (64 * j + ·)) b
  (b1.mapRing n (fun r => { r with lost := sput (fun _ => 0) r.lost k (clrMaskN old mask.toNat) })).ringView n

/-- NODE_RETIRE_CLEAR. -/
def execNodeRetireClear (n : Fin 32) (j : Fin 4) (mask : Half) (s : State) : Host.Outcome State Fault Refusal :=
  done s (byHost (.nodeRetireClear n j mask) (Block.lostClear n j mask))

/-- A write of ZRGn_WDOG: SETWDOG to the nodes of a ring in READY, RUN or KEEPALIVE. In a cycle of RUN they wait, one for each
cycle, for its LASTF frame (R259). -/
def Block.wdogWrite (n : Nat) (data : Half) (b : Block) : Block :=
  let v := data.toNat % 256
  let b1 := if v = 0 then b else b.put (ZRG_WDOG_CYC n) v
  let st := b1.ringState n
  let nodes := List.range (b1.get (ZRG_STAT_NODES n))
  if v = 0 then b1
  else if st = 3 && b1.cyc.inProg then
    (b1.mapRing n (fun r => { r with mail := r.mail ++ nodes.map (fun k => b1.mailFrame n k 4 (bytesBE v 1)) })).mailFlush n
  else if st = 2 ∨ st = 3 ∨ st = 4 then b1.nodeMails n 4 (fun _ => bytesBE v 1) nodes
  else b1

/-- WDOG_WRITE. -/
def execWdogWrite (n : Fin 32) (data : Half) (s : State) : Host.Outcome State Fault Refusal :=
  done s (journaled (.wdogWrite n data) (Block.wdogWrite n data))

/-- A write of ZRGn_LSEL. -/
def Block.lselWrite (n : Nat) (v : Nat) (b : Block) : Block := (b.put (ZRG_LSEL_SUBR n) v).ringView n

/-! ### The cycle boundary (R229, R230, R235, R254, R256, R262) -/

/-- Frames that have not left at the end of their cycle are LATE (R229). -/
def Block.trainLate (b : Block) (n : Nat) : List TrainFrame → Block
  | [] => b
  | t :: r =>
    let b1 := if t.back then b
      else if t.sent.isEmpty then (b.release t.fid).countUp (SWC_EC_CNT (b.ringPort n false) (b.trainClass n t.fid) 3) 1
      else b.release t.fid
    b1.trainLate n r

/-- The counters of the cycle that ends on a ring, and whether it is invalid: a train without a LASTF frame sent (R230), or a frame
that is not back (R254). On a DUAL ring of a synchronised pair the unit's own frames arrive at its partner, and their absence says
nothing (DESIGN CHOICE, log entry 74). -/
def Block.ringJudge (b : Block) (n : Nat) : Block :=
  let r := b.ring n
  let sent := r.train.filter (fun t => !t.sent.isEmpty)
  if r.train.isEmpty && !r.bad then (if b.ringState n = 3 then b.countUp (ZRG_CNT n 2) 1 else b)
  else
    let b1 := b.countUp (ZRG_CNT n 0) 1
    if !sent.isEmpty && !b.lastSent n then b1.ringInvalid n 4
    else if !(b.get (ZRG_CFG_TOPO n) == 2 && b.synced) && sent.any (fun t => !t.back) then b1.ringInvalid n 3
    else b1

/-- The ring bytes left over in the cycle that ends (R35, R235). -/
def Block.ringMargin (b : Block) (n : Nat) : Block :=
  let margin := b.ringAllow n - (b.ring n).used
  let b1 := b.put (ZRG_ALLOW_USED n) (sat 0xFFFFFF (b.ring n).used)
  if b.ringState n ≠ 2 && decide (margin < b1.get SYS_LWM_RING_MIN) then
    (b1.put SYS_LWM_RING_MIN margin).put SYS_LWM_RING_RING n else b1

/-- The ring leaves WRAPPED at the boundary after a frame has passed whole (R256). -/
def Block.ringUnwrap (b : Block) (n : Nat) : Block :=
  if (b.ring n).unwrap && b.flag (ZRG_STAT_WRAPPED n) then
    (((b.putB (ZRG_STAT_WRAPPED n) false).putB (ZRG_CAUSE_UNWRAP n) true).fullNext n).raise evRingWrap
  else b

/-- The ring's next cycle begins: its count, FULLC and FULLNEXT (R243). A ring in READY has run no cycle. -/
def Block.ringNext (b : Block) (n : Nat) : Block :=
  let r := b.ring n
  let sent := r.train.filter (fun t => !t.sent.isEmpty)
  let ready := b.ringState n == 2
  let count := if ready then r.count else r.count + 1
  let full := ready || b.flag (ZRG_STAT_FULLNEXT n) || b.claimNow != r.claim || count % 16 == 0
  (b.mapRing n (fun x => { x with
    train := [], lastF := false, bad := false, used := 0, dn := false, unwrap := false
    count := count, fullC := full, claim := b.claimNow
    again := !sent.isEmpty && !b.lastSent n, old := sent.filter (fun t => !t.back) })).putB (ZRG_STAT_FULLNEXT n)
      (ready || (count + 1) % 16 == 0)

/-- One ring at a cycle boundary. -/
def Block.ringEnd (b : Block) (n : Nat) : Block :=
  let st := b.ringState n
  if st ≠ 2 ∧ st ≠ 3 ∧ st ≠ 5 ∧ st ≠ 6 then b
  else
    let b1 := (((b.ringJudge n).trainLate n (b.ring n).train).ringMargin n).ringUnwrap n
    let b2 := (b1.ringNext n).ringAllowShow n
    if st = 5 then b2.ringOff n else b2.lostCheck n

/-- Rings of a list at a cycle boundary. -/
def Block.ringEnds (b : Block) : List Nat → Block
  | [] => b
  | n :: r => (b.ringEnd n).ringEnds r

/-- The rings and the endpoint table at a cycle boundary. -/
def Block.ringBoundary (b : Block) : Block :=
  let b1 := b.ringEnds (List.range 32)
  (b1.mapRings (fun w => { w with wroteLast := w.wrote, wrote := [] })).eptBoundary

end Sys2Proof.Machine
end

