-- ==== Sys2Proof/Machine/Emission.lean ====
section
/-! DEFINITION. The emission path (R158, R229, R283, R284): released frames leave the emission buffers cell by cell. -/

namespace Sys2Proof.Machine

/-- An emitted frame goes to a port in ring mode. -/
def Block.toRing (b : Block) (fr : EFrame) : Bool := decide (fr.port < 32) && b.flag (MAC_CFG_RING fr.port)

/-- The emission path may take a frame: it is released, and not of a class that the back-pressure of source 34 holds
(R158, R284, R287). -/
def Block.movable (b : Block) (fr : EFrame) : Bool :=
  fr.hold.isNone && (fr.sch || b.toRing fr || !b.flag (SWC_IG_STAT_XOFF 34))

/-- The place of the frame that an engine's buffer gives next: one that is under way, or the first that may go. -/
def Block.nextFrame (b : Block) (e : Fin 16) : Option Nat :=
  let l := b.eng[e].emis
  match l.findIdx? (fun fr => decide (0 < fr.moved)) with
  | some i => some i
  | none => l.findIdx? b.movable

/-- A frame of an ended cycle is LATE at each of its egresses (R229, R283). -/
def Block.lateFrame (b : Block) (f : InFrame) (ts : List Nat) : Block :=
  ts.foldl (fun x p => x.countUp (SWC_EC_CNT p (queueOf f p) 3) 1) b

/-- A frame has left its emission buffer whole. -/
def Block.emitted (b : Block) (fr : EFrame) : Block :=
  let f := b.ownFrame 34 fr.port fr.cls fr.sch fr.cycle 0 fr.bytes
  let late := decide (fr.cycle < b.cyc.count)
  if b.toRing fr then
    match b.ringOf fr.port with
    | none => b
    | some r =>
      if b.get (ZRG_CFG_PORT r) ≠ fr.port then b.ringDisc r
      else if late then b.lateFrame f [fr.port]
      else b.ringEmit r f
  else if !fr.sch then b.toCore f
  else if late then b.lateFrame f (b.targets f)
  else b.forward f

/-- The instant from which on the next frame of an engine may move, the copy complete. -/
def Block.movesFrom (b : Block) (e : Fin 16) : Option Nat := (b.nextFrame e).bind (fun i => (b.eng[e].emis[i]?).map (·.rel))

/-- The instant of the next move of the emission path: 4 ns after the one before it, once some engine has a cell to move. -/
def Block.moveAt (b : Block) : Nat :=
  max (max b.tm.phys (b.sw.emAt + 4 * nsUnit))
    ((((List.finRange 16).filterMap b.movesFrom).min?).getD 0)

/-- It is the turn of engine `e`: of those with a cell to move at that instant it is the first after the engine whose cell moved
before (R158). -/
def Block.movesNext (b : Block) (e : Fin 16) : Bool :=
  let t := b.moveAt
  ((List.finRange 16).map (fun k => Fin.ofNat 16 (b.sw.emLast + 1 + k))).find? (fun k =>
    match b.movesFrom k with | some u => decide (u ≤ t) | none => false) == some e

/-- One cell of a frame of engine `e` moves: not before the frame's copy is complete, nor less than 4 ns after the cell
before it (event 14 of Table 16-4). -/
def Block.moveCell (b0 : Block) (e : Fin 16) (i : Nat) (fr : EFrame) : Block :=
  let b1 := (b0.reachPhys (max fr.rel (b0.sw.emAt + 4 * nsUnit))).fabCount 14 1
  let b := b1.mapSw (fun w => { w with emAt := b1.tm.phys, emLast := e })
  if fr.moved + 1 < cellsFor (fr.bytes.length + 4) then
    b.mapE e (fun x => { x with emis := x.emis.set i { fr with moved := fr.moved + 1 } })
  else (b.mapE e (fun x => { x with emis := x.emis.eraseIdx i })).emitted fr

/-- EMISSION_PATH_MOVE: one cell of engine `e`, whose turn it is. -/
def execEmissionPathMove (e : Fin 16) (s : State) : Host.Outcome State Fault Refusal :=
  done s fun b =>
    if !b.movesNext e then b else
    match b.nextFrame e with
    | none => b
    | some i =>
      match b.eng[e].emis[i]? with
      | none => b
      | some fr => b.moveCell e i fr

end Sys2Proof.Machine
end

