-- ==== Sys2Proof/Machine/Pulse.lean ====
section
/-! DEFINITION. The pulse and clock outputs: anchors, steps and edges (R412 to R417, R420), and the share of a
phase slew that reaches them (R413, R435). -/

namespace Sys2Proof.Machine

/-- Femtoseconds in units of 2^-40 ns. -/
def unitsOfFs (x : Int) : Int := x * 2 ^ 40 / 10 ^ 6

/-- A count of 5 ps steps in units of 2^-40 ns. -/
def unitsOf5ps (x : Int) : Int := x * 5 * 2 ^ 40 / 1000

/-- Replace output `j`. -/
def Block.mapOut (b : Block) (j : Nat) (f : OutSt → OutSt) : Block := { b with outs := vmod b.outs j f }

/-- Output `j`. -/
def Block.outp (b : Block) (j : Nat) : OutSt := b.outs[j]?.getD OutSt.reset

/-- The reading of an output's timebase (R412): with TRACK 1 the time scale without its steps, else the
Compass clock. -/
def Block.outNow (b : Block) (j : Nat) : Int :=
  if b.flag (PIO_OUT_CTL_TRACK j) then (b.tm.lt : Int) - b.tm.jump else b.tm.phys

/-- PER and WID in units of the timebase. -/
def Block.outPer (b : Block) (j : Nat) : Int := (b.get (PIO_OUT_PER_PER j) * nsUnit : Nat)

/-- WID. -/
def Block.outWid (b : Block) (j : Nat) : Int := (b.get (PIO_OUT_WID_WID j) * nsUnit : Nat)

/-- The end of the pulse in progress, if one is. -/
def Block.pulseEnd (b : Block) (j : Nat) : Option Int :=
  match (b.outp j).last with
  | some l => if b.outNow j < l + b.outWid j then some (l + b.outWid j) else none
  | none => none

/-- An output written 0 has ended its pulse: RUN clears (R414). -/
def Block.outSettle (b : Block) (j : Nat) : Block :=
  if (b.outp j).ending && (b.pulseEnd j).isNone then
    (b.putB (PIO_OUT_STAT_RUN j) false).mapOut j (fun x => { x with ending := false, next := none })
  else b

/-- Every output is brought up to date. -/
def Block.outSettles (b : Block) : Block := (List.range 6).foldl Block.outSettle b

/-- A pulse is omitted: DROP counts. -/
def Block.outDrop (b : Block) (j : Nat) : Block := b.incSat (PIO_OUT_STAT_DROP j) 1

/-- Move an output's schedule by `d` (R414): the change takes effect at the inactive level; a pulse that it
leaves less than the smaller of WID and 10 ns is omitted. -/
def Block.outShift (b : Block) (j : Nat) (d : Int) : Block :=
  match (b.outp j).next with
  | none => b
  | some n =>
    let eff := (b.pulseEnd j).getD (b.outNow j)
    let margin := min (b.outWid j) (10 * nsUnit)
    let p := b.outPer j
    if p = 0 then
      if n + d < eff + margin then (b.outDrop j).mapOut j (fun x => { x with next := none })
      else b.mapOut j (fun x => { x with next := some (n + d) })
    else
      let e := eff + (n + d - eff) % p
      if e < eff + margin then (b.outDrop j).mapOut j (fun x => { x with next := some (e + p) })
      else b.mapOut j (fun x => { x with next := some e })

/-- An output takes the parts of a phase step: it is in COMPASS mode, or in ALIGN without an anchor (R413). -/
def Block.takesStep (b : Block) (j : Nat) : Bool :=
  !(b.flag (PIO_OUT_CTL_MODE j) && b.flag (PIO_OUT_STAT_ALIGNED j))

/-- A whole multiple of a phase step reaches the timebases: they advance, and their edges come earlier
(R408, R435). -/
def Block.outsStep (b : Block) (d : Int) : Block :=
  (List.range 6).foldl (fun c j => if c.takesStep j then c.outShift j (-d) else c) b

/-- The main PLL is in HOLD: its tuning is frozen, and its slew stands still (R436). -/
def Block.mainHeld (b : Block) : Bool := b.get CLK_MAINSTAT_STATE == 5

/-- What has arrived of the phase that the main PLL slews, in fs: 10 fs per ns, at most the residual (R435). -/
def Block.slewArrived (b : Block) : Int :=
  let m : Int := if b.mainHeld then 0 else ((b.tm.phys - b.clk.resAt) * 10 / nsUnit : Nat)
  if 0 ≤ b.clk.res then min m b.clk.res else -(min m (-b.clk.res))

/-- Show the slew in CLK_MAINSTAT (R435). -/
def Block.slewShow (b : Block) : Block :=
  (b.putB CLK_MAINSTAT_SLEWING (b.clk.res ≠ 0)).puti CLK_MAINSTAT_SRES (satSigned 20 (b.clk.res / 1000))

/-- Bring the slew up to date: what has arrived leaves the residual and moves the timebases. -/
def Block.slewTouch (b : Block) : Block :=
  let a := b.slewArrived
  let b1 := { b with
    clk := { b.clk with res := b.clk.res - a, resAt := b.tm.phys }
    outs := Vector.ofFn (fun (j : Fin 6) =>
      let x := b.outs[j]
      if b.takesStep j then { x with next := x.next.map (· - unitsOfFs a) } else x) }
  b1.slewShow

/-- A remainder joins what the main PLL slews (R435). -/
def Block.slewAdd (b : Block) (r : Int) : Block :=
  let b1 := b.slewTouch
  Block.slewShow { b1 with clk := { b1.clk with res := b1.clk.res + r } }

/-- Every output stops at its inactive level: its clock has stopped (R434). -/
def Block.outsStop (b : Block) : Block :=
  (List.range 6).foldl (fun c j => (c.putB (PIO_OUT_STAT_RUN j) false).mapOut j (fun x =>
    { x with next := none, ending := false })) b

/-- Start output `j` (R412): its first active edge is the first instant of LT at which t − OFS is a multiple of
PER, 1 µs from now or later. With PER 0 it waits for an edge of its source. -/
def Block.outStart (b : Block) (j : Nat) : Block :=
  let p := b.outPer j
  if p = 0 then b.mapOut j (fun x => { OutSt.reset with amt := x.amt })
  else
    let from_ : Int := (b.tm.lt : Int) + 1000 * nsUnit
    let t := from_ + (unitsOf5ps (b.geti (PIO_OUT_OFS_OFS j)) - from_) % p
    b.mapOut j (fun x => { OutSt.reset with next := some (b.outNow j + (t - b.tm.lt)), amt := x.amt })

/-- Stop output `j`: the pulse in progress ends, then the output stays inactive (R414). -/
def Block.outStop (b : Block) (j : Nat) : Block :=
  Block.outSettle ((b.putB (PIO_OUT_STAT_ALIGNED j) false).mapOut j (fun x =>
    { x with next := none, ending := true, anchorAt := none })) j

/-- A write of PIO_OUTj_CTL (R412, R414, R420): MODE and ASRC only while EN is 0; a change of TRACK keeps
the next edge where it is. -/
def Block.outCtl (j : Nat) (data : Half) (b0 : Block) : Block :=
  let b := b0.slewTouch.outSettle j
  let d := data.toNat
  let en := b.flag (PIO_OUT_CTL_EN j)
  let b1 := if en then b else
    let b' := b.put (PIO_OUT_CTL_MODE j) (d / 2)
    if d / 4 % 8 ≤ 5 then b'.put (PIO_OUT_CTL_ASRC j) (d / 4) else b'
  let was := b1.outNow j
  let b2 := if j = 5 then b1 else b1.put (PIO_OUT_CTL_TRACK j) (d / 32)
  let mv := b2.outNow j - was
  let b3 := (b2.mapOut j (fun x => { x with next := x.next.map (· + mv), last := x.last.map (· + mv) })).put
    (PIO_OUT_CTL_POL j) (d / 64)
  let b4 := b3.put (PIO_OUT_CTL_EN j) d
  if !en && bitAt d 0 then b4.outStart j else if en && !bitAt d 0 then b4.outStop j else b4

/-- OUTPUT_ENABLE. -/
def execOutputEnable (j : Fin 6) (data : Half) (s : State) : Host.Outcome State Fault Refusal :=
  done s (journaled (.outputEnable j data) (Block.outCtl j data))

/-- The departure of a wanted edge from the schedule in force, in units: of least magnitude modulo PER. -/
def departure (want next p : Int) : Int :=
  if p = 0 then 0 else (want - next + p / 2) % p - p / 2

/-- An accepted edge of its source anchors output `j` (R413). -/
def Block.outAnchor (b : Block) (j : Nat) : Block :=
  let now := b.outNow j
  let want := now + unitsOf5ps (b.geti (PIO_OUT_OFS_OFS j))
  let x := b.outp j
  if b.outPer j = 0 then
    if x.next.isSome || (b.pulseEnd j).isSome then b.outDrop j else b.mapOut j (fun y => { y with next := some want })
  else
    let dep := departure want (x.next.getD want) (b.outPer j)
    let gap := match x.anchorAt with | some t => (b.tm.phys - t) / nsUnit | none => 0
    let b1 := (b.puti (PIO_OUT_STAT_AERR j) (satSigned 32 (dep * 1000 / 2 ^ 40))).putB (PIO_OUT_STAT_ALIGNED j) true
    let b2 := b1.mapOut j (fun y => { y with
      anchorAt := some b.tm.phys, iv1 := gap, iv2 := y.iv1, next := some (y.next.getD want) })
    b2.outShift j (want - x.next.getD want)

/-- Anchor every output in ALIGN mode whose ASRC is `src`. -/
def Block.outsAnchor (b : Block) (src : Nat) : Block :=
  (List.range 6).foldl (fun c j =>
    if c.flag (PIO_OUT_CTL_EN j) && c.flag (PIO_OUT_CTL_MODE j) && c.get (PIO_OUT_CTL_ASRC j) == src then
      c.outAnchor j else c) b

/-- ALIGN_ANCHOR: an edge of source `src` is accepted; an encoder's channel must be in MODE 2 (R413). -/
def execAlignAnchor (src : Fin 6) (dt : Nat) (s : State) : Host.Outcome State Fault Refusal :=
  done s fun b0 =>
    if 1 ≤ src.val && src.val ≤ 4 && b0.get (ENC_CFG_MODE (src.val - 1)) != 2 then b0.advanceNs dt
    else (b0.advanceNs dt).slewTouch.outsAnchor src

/-- ALIGN_LOSS: no edge for 2 s, or twice the longer of the last two intervals (R413). -/
def execAlignLoss (j : Fin 6) (s : State) : Host.Outcome State Fault Refusal :=
  done s fun b =>
    let x := b.outp j
    match x.anchorAt with
    | some t =>
      if b.flag (PIO_OUT_STAT_ALIGNED j) then
        let b1 := b.reachPhys (t + max 2000000000 (2 * max x.iv1 x.iv2) * nsUnit)
        b1.slewTouch.putB (PIO_OUT_STAT_ALIGNED j) false
      else b
    | none => b

/-- Apply the amount that the latest GO of output `j` took (R415). -/
def Block.outAmt (b : Block) (j : Nat) : Block :=
  let amt := (b.outp j).amt
  let b1 := (b.outShift j (unitsOf5ps amt)).putB (PIO_OUT_STEP_PEND j) false
  if b1.flag (PIO_OUT_CTL_MODE j) then b1.puti (PIO_OUT_OFS_OFS j) (b1.geti (PIO_OUT_OFS_OFS j) + amt) else b1

/-- A write of PIO_OUTj_STEP (R415): a GO while PEND is 1 is ignored. -/
def Block.outStep (j : Nat) (data : Half) (b0 : Block) : Block :=
  let b := b0.slewTouch.outSettle j
  let d := data.toNat
  let b1 := (b.put (PIO_OUT_STEP_AMT j) d).put (PIO_OUT_STEP_AT j) (d / 2 ^ 40)
  if !bitAt d 41 || b.flag (PIO_OUT_STEP_PEND j) then b1
  else
    let b2 := b1.mapOut j (fun x => { x with amt := b1.geti (PIO_OUT_STEP_AMT j) })
    if bitAt d 40 then b2.putB (PIO_OUT_STEP_PEND j) true else b2.outAmt j

/-- OUTPUT_STEP. -/
def execOutputStep (j : Fin 6) (data : Half) (s : State) : Host.Outcome State Fault Refusal :=
  done s (journaled (.outputStep j data) (Block.outStep j data))

/-- A write of PIO_OUTj_STAT.CLR. -/
def Block.outClr (j : Nat) (b : Block) : Block := b.put (PIO_OUT_STAT_DROP j) 0

/-- OUTPUT_DROP_CLR. -/
def execOutputDropClr (j : Fin 6) (s : State) : Host.Outcome State Fault Refusal :=
  done s (journaled (.outputDropClr j) (Block.outClr j))

/-- The clocks reach an instant of an output's timebase, if it lies ahead. -/
def Block.reachOut (b : Block) (j : Nat) (t : Int) : Block :=
  if b.flag (PIO_OUT_CTL_TRACK j) then b.reach (t + b.tm.jump).toNat else b.reachPhys t.toNat

/-- The steps that wait for PPS_OUT are applied. -/
def Block.outPends (b : Block) : Block :=
  (List.range 6).foldl (fun c j => if c.flag (PIO_OUT_STEP_PEND j) then c.outAmt j else c) b

/-- An active edge of output `j`: RUN, the pulse, and the next edge one PER later. -/
def Block.outEdge (b : Block) (j : Nat) : Block :=
  let p := b.outPer j
  let b1 := (b.putB (PIO_OUT_STAT_RUN j) true).mapOut j (fun x =>
    { x with last := some (b.outNow j), next := if p = 0 then none else x.next.map (· + p) })
  let b2 := b1.emit (.pulse j (!b1.flag (PIO_OUT_CTL_POL j)) (b1.get (PIO_OUT_WID_WID j)))
  if j = 4 then b2.outPends else b2

/-- PULSE_OUTPUT_EDGE: the next active edge of output `j` comes; a slew in progress moves it by what arrives
until then. -/
def execPulseOutputEdge (j : Fin 6) (s : State) : Host.Outcome State Fault Refusal :=
  done s fun b0 =>
    let b := (b0.slewTouch).outSettle j
    match (b.outp j).next with
    | none => b
    | some n =>
      let ahead : Int := if b.takesStep j && !b.mainHeld then min ((n - b.outNow j) * 10 / 2 ^ 40) b.clk.res.natAbs else 0
      let mv := if 0 ≤ b.clk.res then unitsOfFs ahead else -unitsOfFs ahead
      ((b.reachOut j (n - mv)).slewTouch).outEdge j

end Sys2Proof.Machine
end

