-- ==== Sys2Proof/Machine/Clock.lean ====
section
/-! DEFINITION. Clock synthesis: the three PLLs, their outputs, phase slews and the clock monitor (R422 to
R441). -/

namespace Sys2Proof.Machine

/-- Replace PLL `p`. -/
def Block.mapPll (b : Block) (p : Nat) (f : PllSt → PllSt) : Block :=
  { b with clk := { b.clk with plls := vmod b.clk.plls p f } }

/-- PLL `p` (0 main, 1 TIC, 2 host). -/
def Block.pll (b : Block) (p : Nat) : PllSt := b.clk.plls[p]?.getD PllSt.reset

/-- A field of the status register of PLL `p`: the three share their layout (R441). -/
def pllField (p lo w : Nat) : Field := ⟨CLK_MAINSTAT + 16 * p, lo, w⟩

/-- State of PLL `p` (Table 13-3). -/
def Block.pllState (b : Block) (p : Nat) : Nat := b.get (pllField p 0 3)

/-- The outputs of PLL `p`, as bits of CLK_OUTEN (Table 13-1). -/
def pllOuts (p : Nat) : List Nat := if p = 0 then [0, 1, 2, 3, 4, 5, 6, 7] else if p = 1 then [8] else [9, 10]

/-- The PLL of an output. -/
def pllOf (i : Nat) : Nat := if i ≤ 7 then 0 else if i = 8 then 1 else 2

/-- A cause in CLK_CAUSE with its PLL; every one but RELOCKED is an occurrence of CLK_FAULT (R439). -/
def Block.clkCause (b : Block) (f : Field) (p : Nat) : Block := ((b.putB f true).put CLK_CAUSE_PLL p).raise evClkFault

/-- PLL `p` enters a state. -/
def Block.pllGo (b : Block) (p st : Nat) : Block :=
  (b.put (pllField p 0 3) st).mapPll p (fun x => { x with since := b.tm.phys, noband := false })

/-- ENCn_STAT.LINE of one channel (R434, R576): valid levels while MODE uses pairs and ENC runs. Where they end, the interval
in progress of an axis has met a line fault (R112). -/
def Block.encLine (b : Block) (e : Nat) : Block :=
  let ok := b.get (ENC_CFG_MODE e) != 0 && bitAt (b.get CLK_OUTSTAT_RUN) 5 && Config.encWired e (b.get (ENC_CFG_MODE e))
  let b1 := if b.flag (ENC_STAT_LINE e) && !ok then
    { b with encs := vmod b.encs e (fun x => { x with faults := x.faults + 1 }) } else b
  b1.putB (ENC_STAT_LINE e) ok

/-- ENCn_STAT.LINE of every channel. -/
def Block.encLines (b : Block) : Block := (List.range 4).foldl Block.encLine b

/-- Outputs of a list start, where CLK_OUTEN enables them. -/
def Block.outsOn (b : Block) : List Nat → Block
  | [] => b
  | i :: r => (if bitAt (b.get CLK_OUTEN_EN) i then b.setBit CLK_OUTSTAT_RUN i else b).outsOn r

/-- Outputs of a list stop. -/
def Block.outsOff (b : Block) : List Nat → Block
  | [] => b
  | i :: r => (b.clrBit CLK_OUTSTAT_RUN i).outsOff r

/-- What the stop of running outputs entails: without ENC the encoders and pulse outputs stop, without MGMT its
link falls (R434). -/
def Block.outsFall (b : Block) (ls : List Nat) : Block :=
  let had := fun i => bitAt (b.get CLK_OUTSTAT_RUN) i && ls.contains i
  let b1 := (b.fabTouch.outsOff ls).encLines
  let b2 := if had 5 then b1.outsStop else b1
  if had 10 then b2.linkLost 32 5 else b2

/-- PLL `p` begins BANDSEL from OFF: a new lock attempt. -/
def Block.pllStart (b : Block) (p : Nat) : Block := (b.pllGo p 1).mapPll p (fun x => { x with failed := 0 })

/-- PLL `p` enters HOLD (R427, R436). -/
def Block.pllHold (b : Block) (p why : Nat) : Block :=
  (((if p = 0 then b.slewTouch else b).pllGo p 5).incSat (pllField p 23 8) 1).mapPll p (fun x => { x with why := why })

/-- Entry `k` of PLL `p` may be chosen at a die temperature (R430). -/
def Block.bandOk (b : Block) (p : Nat) (temp : Int) (k : Nat) : Bool :=
  b.flag (CLK_BAND_VALID p k) && !(b.pll p).failed.getLsbD k && decide (b.geti (CLK_BAND_TMIN p k) ≤ temp) &&
    decide (temp ≤ b.geti (CLK_BAND_TMAX p k))

/-- BAND_SELECT: the lowest entry that fits the die temperature measured is chosen, or none is left (R427, R430). -/
def execBandSelect (p : Fin 3) (temp : Int) (dt : Nat) (s : State) : Host.Outcome State Fault Refusal :=
  done s fun b0 =>
    if b0.pllState p ≠ 1 || (b0.pll p).noband then b0
    else
      let b := b0.advanceNs dt
      match (List.range 16).find? (b.bandOk p temp) with
      | some k => ((b.pllGo p 2).put (pllField p 3 4) k).put (pllField p 7 6) (b.get (CLK_BAND_CODE p k))
      | none => (b.clkCause CLK_CAUSE_NOBAND p).mapPll p (fun x => { x with noband := true, since := b.tm.phys })

/-- NOBAND_RETRY: 1 ms after NOBAND a new attempt begins. -/
def execNobandRetry (p : Fin 3) (s : State) : Host.Outcome State Fault Refusal :=
  done s fun b =>
    if (b.pll p).noband then (b.reachPhys ((b.pll p).since + 1000000 * nsUnit)).pllStart p else b

/-- PLL_LOCK_ACHIEVED: LOCKING becomes ALIGN. -/
def execPllLockAchieved (p : Fin 3) (dt : Nat) (s : State) : Host.Outcome State Fault Refusal :=
  done s fun b => if b.pllState p = 2 then (b.advanceNs dt).pllGo p 3 else b

/-- PLL_LOCK_TIMEOUT: 180 µs of LOCKING have passed; the entry has failed. -/
def execPllLockTimeout (p : Fin 3) (s : State) : Host.Outcome State Fault Refusal :=
  done s fun b =>
    if b.pllState p ≠ 2 then b
    else
      let k := b.get (pllField p 3 4)
      ((b.reachPhys ((b.pll p).since + 180000 * nsUnit)).pllGo p 1).mapPll p (fun x =>
        { x with failed := x.failed ||| BitVec.ofNat 16 (2 ^ k) })

/-- ALIGN ends (R427, R429): the outputs are released, TRIM is set, RELOCKED. -/
def Block.pllRelease (b : Block) (p : Nat) (trim : BitVec 8) : Block :=
  let b1 := if p = 0 then b.fabTouch.put CLK_MAINSTAT_TRIM trim.toNat else b
  let b2 := (((b1.pllGo p 4).outsOn (pllOuts p)).putB CLK_CAUSE_RELOCKED true).put CLK_CAUSE_PLL p
  if p = 0 then b2.encLines else b2

/-- ALIGN_RELEASE. -/
def execAlignRelease (p : Fin 3) (trim : BitVec 8) (dt : Nat) (s : State) : Host.Outcome State Fault Refusal :=
  done s fun b => if b.pllState p = 3 then (b.advanceNs dt).pllRelease p trim else b

/-- The OCXO is lost to the Compass (R437): it stands still. -/
def Block.cmpHalt (b : Block) : Block := { b with cps := { b.cps with haltAt := some b.tm.phys } }

/-- The Compass resumes: its timers have stood still (R437). -/
def Block.cmpResume (b : Block) : Block :=
  match b.cps.haltAt with
  | none => b
  | some t =>
    let d := b.tm.phys - t
    let c := b.cps
    { b with cps := { c with
      ins := c.ins.map (fun x => { x with absentAt := x.absentAt + d, qualAt := x.qualAt + d })
      decideAt := c.decideAt.map (· + d), stage3At := c.stage3At.map (· + d), hourAt := c.hourAt + d
      acqAt := c.acqAt + d, holdAt := c.holdAt + d, dwellAt := c.dwellAt.map (· + d), haltAt := none } }

/-- A write of CLK_MAINCTL.RELOCK (R427, R440). -/
def Block.pllRelock (b : Block) : Block := if b.pllState 0 = 4 then b.pllHold 0 2 else b

/-- PLL_RELOCK. -/
def execPllRelock (s : State) : Host.Outcome State Fault Refusal :=
  done s (byHost .pllRelock Block.pllRelock)

/-- The conditions of a full relock (R440). -/
def Block.fullAllowed (b : Block) : Bool :=
  !b.flag SYS_CYCLE_RUN && b.runningEngines.isEmpty &&
    (List.range 36).all (fun l => b.laneState l == 0 || b.laneOut l)

/-- A write of CLK_MAINCTL.FULL (R440): every main output stops, and the PLL passes through OFF. -/
def Block.fullRelock (b : Block) : Block :=
  if b.fullAllowed then ((b.putB CLK_MAINSTAT_REFUSED false).outsFall (pllOuts 0)).pllStart 0
  else b.putB CLK_MAINSTAT_REFUSED true

/-- FULL_RELOCK. -/
def execFullRelock (s : State) : Host.Outcome State Fault Refusal :=
  done s (byHost .fullRelock Block.fullRelock)

/-- HOLD_RECOVER: a PLL returns to LOCKED in the same band; the main PLL slews back the phase gathered, in
fs, and the Compass resumes; after REFLOSS the reference must have been present for 10 ms (R436, R437). -/
def execHoldRecover (p : Fin 3) (gathered : Int) (dt : Nat) (s : State) : Host.Outcome State Fault Refusal :=
  done s fun b0 =>
    if b0.pllState p ≠ 5 then b0
    else
      let b1 := b0.advanceNs dt
      let b := if (b0.pll p).why = 0 then b1.reachPhys ((b0.pll p).since + 10000000 * nsUnit) else b1
      if p = 0 then ((b.slewTouch.pllGo p 4).slewAdd gathered).cmpResume else b.pllGo p 4

/-- PLL_SLEW_END: the residual of the main PLL's phase slew reaches zero (R435). -/
def execPllSlewEnd (s : State) : Host.Outcome State Fault Refusal :=
  done s fun b =>
    if b.clk.res = 0 || b.mainHeld then b
    else (b.reachPhys (b.clk.resAt + ceilDiv (b.clk.res.natAbs * nsUnit) 10)).slewTouch

/-- Outputs found bad in one window (R438). -/
def Block.monFails (b : Block) : List Nat → Block
  | [] => b
  | i :: r => (((b.setBit CLK_MON_FAIL i).put CLK_CAUSE_DOM i).clkCause CLK_CAUSE_DOMFREQ (pllOf i)).monFails r

/-- CLOCK_MONITOR: a window of 10.24 µs ends; `bad` are the outputs that departed from their frequency or
did not run; those that CLK_OUTSTAT shows running count (R438). -/
def execClockMonitor (bad : BitVec 11) (s : State) : Host.Outcome State Fault Refusal :=
  done s fun b0 =>
    let b := b0.reachPhys ((b0.tm.phys / (10240 * nsUnit) + 1) * (10240 * nsUnit))
    b.monFails ((List.range 11).filter (fun i => bad.getLsbD i && bitAt (b.get CLK_OUTSTAT_RUN) i))

/-- Software may stop output `i` (Table 13-6). -/
def Block.mayStop (b : Block) (i : Nat) : Bool := i == 5 || i == 10 || (i == 7 && !b.flag PAIR_CFG_EN)

/-- The power domain of an output's PLL (Table 13-1). -/
def outDomain (i : Nat) : Nat := if 9 ≤ i then 3 else 2

/-- A write of CLK_OUTEN (R433, R434): a 0 for a fixed output whose domain is on is a reserved value, so its bit stays. -/
def Block.outEnWrite (data : Half) (b : Block) : Block :=
  let new := (List.range 11).foldl (fun v i =>
    if bitAt data.toNat i || (!b.mayStop i && b.domOn (outDomain i) && bitAt (b.get CLK_OUTEN_EN) i) then setBitN v i else v) 0
  let stops := (List.range 11).filter (fun i => bitAt (b.get CLK_OUTEN_EN) i && !bitAt new i)
  let b1 := (b.outsFall stops).put CLK_OUTEN_EN new
  let up := fun i => 4 ≤ b1.pllState (pllOf i) && b1.pllState (pllOf i) ≤ 5
  (b1.outsOn ((List.range 11).filter up)).encLines

/-- CLK_OUTEN_WRITE. -/
def execClkOutenWrite (data : Half) (s : State) : Host.Outcome State Fault Refusal :=
  done s (byHost (.clkOutenWrite data) (Block.outEnWrite data))

/-- PLL_TUNE_RAIL: TUNE of a LOCKED PLL comes within 32 codes of an end of its range (R432). -/
def execPllTuneRail (p : Fin 3) (tune : BitVec 10) (dt : Nat) (s : State) : Host.Outcome State Fault Refusal :=
  done s fun b0 =>
    let t := tune.toNat
    if b0.pllState p ≠ 4 || (32 < t && t < 991) then b0
    else ((b0.advanceNs dt).put (pllField p 13 10) t).clkCause CLK_CAUSE_RAIL p

end Sys2Proof.Machine
end

