-- ==== Sys2Proof/Machine/Tic.lean ====
section
/-! DEFINITION. The time-interval counter: interpolation, the measurement unit, its record queue and the oven's
WARM (R443 to R458). OCXO instants are in units of 2^-20 ps. -/

namespace Sys2Proof.Machine

/-- Change the counter's own state. -/
def Block.mapTic (b : Block) (f : TicSt → TicSt) : Block := { b with tic := f b.tic }

/-- The TIC PLL is in HOLD: comparisons are invalid (R453). -/
def Block.ticRefLost (b : Block) : Bool := b.pllState 1 == 5

/-- One coarse period of 2.5 ns. -/
def coarse : Int := 2500 * 2 ^ 20

/-- The interpolator that holds a role (R459). -/
def Block.roleOf (b : Block) (role : Nat) : Nat :=
  ((List.range 16).find? (fun i => b.get (CAL_TAC_ROLE i) == role)).getD role

/-- The instant of an edge from its coarse edge and its code on the working interpolator whose turn it is
(R445, R446): n × 2.5 ns − (OFS + c × LSB). -/
def Block.edgeTime (b : Block) (n : BitVec 48) (c : BitVec 12) : Int :=
  let i := b.roleOf (if b.tic.turn then 1 else 0)
  (n.toNat : Int) * coarse - (b.get (CAL_TAC_OFS i) * 2 ^ 10 + c.toNat * b.get (CAL_TAC_LSB i) : Nat)

/-- The difference of two OCXO instants; the coarse counter has 48 bits (R443). -/
def ocxoDiff (x y : Int) : Int := (x - y) % (2 ^ 48 * coarse)

/-- An instant in OCXO time as STW: from the latest LANT stamp, scaled by the Compass output frequency (R455). -/
def Block.stwOfOcxo (b : Block) (t : Int) : Word :=
  let d := (t - b.tm.lant.ocxo + 2 ^ 47 * coarse) % (2 ^ 48 * coarse) - 2 ^ 47 * coarse
  stwOf b.tm.lant.lt + BitVec.ofInt 72 (d * (2 ^ 40 + b.geti CMP_OUTFREQ_FREQ) / (2 ^ 40 * 16000))

/-- An STW in OCXO time (R448, R455). -/
def Block.ocxoOfStw (b : Block) (w : Word) : Int :=
  b.tm.lant.ocxo + toSigned 72 (w - stwOf b.tm.lant.lt).toNat * 16000 * 2 ^ 40 / (2 ^ 40 + b.geti CMP_OUTFREQ_FREQ)

/-- TIC_CHOFS of a source in 2^-20 ps. -/
def Block.chOfs (b : Block) (src : Nat) : Int := if src < 11 then b.geti (TIC_CHOFS_OFS src) * 2 ^ 20 else 0

/-- An interval in 2^-20 ps in units of 2^-16 ns, truncated toward negative infinity (R451). -/
def intervalOut (x : Int) : Nat := ofSigned 50 (x / 16000)

/-! ### Records (R450, R451) -/

/-- The registers of the record at the head of the queue (Table 14-4). -/
def Block.recShow (b : Block) : Block :=
  let b0 := b.put TIC_STAT_RCNT b.tic.queue.length
  match b.tic.queue with
  | [] =>
    (List.range 8).foldl (fun c k => c.setReg (TIC_RSTOP k) 0) ((b0.setReg TIC_RHDR 0).setReg TIC_RSTART 0)
  | r :: _ =>
    let srcs := (r.srcs.zipIdx.map (fun p => p.1 * 16 ^ p.2)).sum
    let h := b2n (r.status ≤ 1) + r.status * 2 + r.srcs.length * 16 + b2n r.cold * 2 ^ 8 + 2 ^ 9 + r.seq * 2 ^ 16 + srcs * 2 ^ 32
    (List.range 8).foldl (fun c k => c.setReg (TIC_RSTOP k) (BitVec.ofNat 72 (r.ints[k]?.getD 0)))
      ((b0.setReg TIC_RHDR (BitVec.ofNat 72 h)).setReg TIC_RSTART r.start)

/-- The unit is armed: BUSY. -/
def Block.ticArmed (b : Block) : Block :=
  ((b.putB TIC_STAT_BUSY true).putB TIC_STAT_RUNNING false).mapTic (fun t => { t with
    start := none, stops := [], rearm := false })

/-- Under REPEAT the unit re-arms at once, or once an entry is free (R449, R450). -/
def Block.ticRepeat (b : Block) : Block :=
  if b.flag TIC_CTL_REPEAT && b.flag TIC_CTL_EN then
    if b.tic.queue.length < 4 then b.ticArmed else b.mapTic (fun t => { t with rearm := true })
  else b

/-- A record enters the queue: DONE, TIC_DONE, and BUSY clears (R449). -/
def Block.recWrite (b : Block) (r : TicRec) : Block :=
  let b1 := b.mapTic (fun t => { t with
    queue := t.queue ++ [{ r with seq := t.seq }], seq := (t.seq + 1) % 2 ^ 16, held := none })
  Block.ticRepeat (((((b1.putB TIC_CAUSE_DONE true).raise evTicDone).putB TIC_STAT_BUSY false).putB TIC_STAT_RUNNING false).recShow)

/-- The measurement ends with a status: its record is written, or waits for an entry (R449 to R453). -/
def Block.ticEnd (b : Block) (status : Nat) : Block :=
  let t := b.tic
  let good := decide (status ≤ 1)
  let r : TicRec := { status := status, cold := t.cold, seq := 0, start := t.startW
                      srcs := if good then t.stops.map (·.1) else []
                      ints := if good then t.stops.map (fun s => intervalOut s.2) else [] }
  let b1 := b.mapTic (fun x => { x with start := none, stops := [] })
  if t.queue.length < 4 then b1.recWrite r else b1.mapTic (fun x => { x with held := some r })

/-! ### Control (R449, R452, R458) -/

/-- The start of a measurement (R449, R451): its OCXO instant and its STW. -/
def Block.ticStart (b : Block) (t : Int) (w : Word) : Block :=
  if b.ticRefLost then
    (b.mapTic (fun x => { x with start := some t, startW := w, cold := !b.flag TIC_STAT_WARM, stops := [] })).ticEnd 3
  else
    (b.putB TIC_STAT_RUNNING true).mapTic (fun x => { x with
      start := some t, startW := w, prev := t, stops := [], cold := !b.flag TIC_STAT_WARM, startAt := b.tm.phys })

/-- A write of EN = 0 (R452). -/
def Block.ticDisable (b0 : Block) : Block :=
  let b := (b0.putB TIC_CTL_EN false).mapTic (fun t => { t with rearm := false })
  if b.tic.start.isSome then b.ticEnd 2
  else if b.tic.held.isSome then b
  else (b.putB TIC_STAT_BUSY false).putB TIC_STAT_RUNNING false

/-- A write of TIC_CTL (R449, R452, R458). REPEAT 1 with SSRC 11, a reserved value, leaves both fields as they are. -/
def Block.ticCtl (data : Half) (b : Block) : Block :=
  let d := data.toNat
  let b1 := if b.flag TIC_STAT_BUSY then b
    else
      let ss := d / 8 % 16
      let soft := bitAt d 2 && (ss == 11 || (decide (11 < ss) && b.get TIC_CTL_SSRC == 11))
      let x1 := if ss ≤ 11 && !soft then b.put TIC_CTL_SSRC ss else b
      let x2 := if soft then x1 else x1.put TIC_CTL_REPEAT (d / 4)
      let x3 := ((x2.put TIC_CTL_SFALL (d / 2 ^ 7)).put TIC_CTL_STOPS (d / 2 ^ 8)).put TIC_CTL_PFALL (d / 2 ^ 19)
      let ns := d / 2 ^ 20 % 16
      let x4 := if 1 ≤ ns ∧ ns ≤ 8 then x3.put TIC_CTL_NSTOP ns else x3
      let tm := d / 2 ^ 24 % 2 ^ 14
      if 1 ≤ tm ∧ tm ≤ 10000 then x4.put TIC_CTL_TMO tm else x4
  if !bitAt d 0 then (if b.flag TIC_CTL_EN then b1.ticDisable else b1)
  else
    let b2 := b1.putB TIC_CTL_EN true
    if !bitAt d 1 || b2.flag TIC_STAT_BUSY then b2
    else
      let b3 := b2.ticArmed
      if b3.get TIC_CTL_SSRC = 11 ∧ !before b3.stw (b3.reg TIC_ARMAT) then b3.ticStart (b3.ocxoOfStw b3.stw) b3.stw else b3

/-- TIC_ARM. -/
def execTicArm (data : Half) (s : State) : Host.Outcome State Fault Refusal :=
  done s (byHost (.ticArm data) (Block.ticCtl data))

/-- TIC_DISABLE: EN is written 0. -/
def Block.ticDisableAct (b : Block) : Block := if b.flag TIC_CTL_EN then b.ticDisable else b

/-- TIC_DISABLE. -/
def execTicDisable (s : State) : Host.Outcome State Fault Refusal :=
  done s (byHost .ticDisable Block.ticDisableAct)

/-- TIC_START_EDGE: an edge of the start source, or the instant ARMAT, starts an armed measurement; while no entry is
free for REPEAT it is MISSED (R449, R450). `n` and `c` are the coarse edge and the code of an edge. -/
def execTicStartEdge (src : Fin 12) (fall : Bool) (n : BitVec 48) (c : BitVec 12) (dt : Nat) (s : State) :
    Host.Outcome State Fault Refusal :=
  done s fun b0 =>
    let b := b0.advanceNs dt
    if b.get TIC_CTL_SSRC ≠ src || (src ≠ 11 && b.flag TIC_CTL_SFALL != fall) then b
    else if b.tic.rearm then b.incSat TIC_STAT_MISSED 1
    else if !b.flag TIC_STAT_BUSY || b.tic.start.isSome || b.tic.held.isSome then b
    else if src = 11 then
      let b1 := b.reachStw (b.reg TIC_ARMAT)
      b1.ticStart (b1.ocxoOfStw (b1.reg TIC_ARMAT)) (b1.reg TIC_ARMAT)
    else
      let t := b.edgeTime n c - b.chOfs src
      let b1 := b.ticStart t (b.stwOfOcxo t)
      b1.mapTic (fun t => { t with turn := !t.turn })

/-- TIC_STOP_EDGE: an edge of a source in STOPS after the start; one less than 5 ns after the latest accepted
edge is not taken (R449). -/
def execTicStopEdge (src : Fin 11) (fall : Bool) (n : BitVec 48) (c : BitVec 12) (dt : Nat) (s : State) :
    Host.Outcome State Fault Refusal :=
  done s fun b0 =>
    let b := b0.advanceNs dt
    match b.tic.start with
    | none => b
    | some t0 =>
      if !bitAt (b.get TIC_CTL_STOPS) src || b.flag TIC_CTL_PFALL != fall then b
      else
        let t := b.edgeTime n c - b.chOfs src
        if ocxoDiff t b.tic.prev < 2 * coarse then b.incSat TIC_STAT_CLOSE 1
        else if b.ticRefLost then b.ticEnd 3
        else
          let b1 := b.mapTic (fun x => { x with
            stops := x.stops ++ [(src.val, ocxoDiff t t0)], prev := t, turn := !x.turn })
          if b1.tic.stops.length = b1.get TIC_CTL_NSTOP then b1.ticEnd 0 else b1

/-- TIC_TIMEOUT: TMO ms have passed since the start (R449). -/
def execTicTimeout (s : State) : Host.Outcome State Fault Refusal :=
  done s fun b =>
    if b.tic.start.isSome then (b.reachPhys (b.tic.startAt + b.get TIC_CTL_TMO * 1000000 * nsUnit)).ticEnd 1 else b

/-- A write of TIC_RPOP.POP (R450, R451): the head record goes; a record that waits is written, and a unit that
waits re-arms. -/
def Block.ticPop (b : Block) : Block :=
  let b1 := Block.recShow (b.mapTic (fun t => { t with queue := t.queue.drop 1 }))
  match b1.tic.held with
  | some r => if b1.tic.queue.length < 4 then b1.recWrite r else b1
  | none => if b1.tic.rearm && decide (b1.tic.queue.length < 4) then b1.ticArmed else b1

/-- TIC_POP. -/
def execTicPop (s : State) : Host.Outcome State Fault Refusal :=
  done s (byHost .ticPop Block.ticPop)

/-- A write of TIC_STAT.CLR. -/
def Block.ticClr (b : Block) : Block := (b.put TIC_STAT_MISSED 0).put TIC_STAT_CLOSE 0

/-- TIC_STAT_CLR. -/
def execTicStatClr (s : State) : Host.Outcome State Fault Refusal :=
  done s (byHost .ticStatClr Block.ticClr)

/-- OCXO_WARM_CHANGE: the oven has held its setpoint for 30 s, or leaves regulation (R444). Stage 3 counts for
HVALID from WARM on (R409). -/
def execOcxoWarmChange (warm : Bool) (dt : Nat) (s : State) : Host.Outcome State Fault Refusal :=
  done s fun b0 =>
    let b := b0.advanceNs dt
    if b.flag TIC_STAT_WARM == warm then b
    else
      let b1 := (((b.putB TIC_STAT_WARM warm).putB TIC_CAUSE_WARMCHG true).raise evOcxoWarm)
      if warm then
        { b1.put TIC_OCXO_WSEC ((b.tm.phys - b.tic.ovenAt) / (10 ^ 9 * nsUnit)) with
          cps := { b1.cps with stage3At := b1.cps.stage3At.map (fun _ => b.tm.phys) } }
      else b1

end Sys2Proof.Machine
end

