-- ==== Sys2Proof/Machine/Calib.lean ====
section
/-! DEFINITION. Calibration jobs and built-in self-test (R459 to R472). -/

namespace Sys2Proof.Machine

/-- Change calibration's own state. -/
def Block.mapCal (b : Block) (f : CalSt → CalSt) : Block := { b with cal := f b.cal }

/-- QDEPTH, BUSY and the running job in CAL_STAT. -/
def Block.calShow (b : Block) : Block :=
  let b1 := (b.put CAL_STAT_QDEPTH b.cal.queue.length).putB CAL_STAT_BUSY b.cal.run.isSome
  match b.cal.run with
  | some j => (b1.put CAL_STAT_KIND j.kind).put CAL_STAT_UNIT j.unit
  | none => b1

/-- The spare element of a job: interpolator 0 to 15, or 16 + line; none where every spare is BAD (R462, R465). -/
def Block.spareOf (b : Block) (j : CalJob) : Option Nat :=
  if j.kind = 0 then
    (List.range 16).find? (fun i => bitAt (b.get CAL_SPARE_TACSP) i && !bitAt (b.get CAL_SPARE_TACBAD) i)
  else if j.kind = 1 then
    let l := if bitAt (b.get CAL_SPARE_DLACT) j.unit then 2 * j.unit else 2 * j.unit + 1
    if bitAt (b.get CAL_SPARE_DLBAD) l then none else some (16 + l)
  else some 0

/-- The profile in force is LEAN. -/
def Block.lean (b : Block) : Bool := b.profile == 3

/-- PD6 is powered for a SLICE job on slice 2 or 3 in LEAN (Table 15-4). -/
def Block.slicePower (b : Block) (j : CalJob) (on_ : Bool) : Block :=
  if j.kind = 3 && b.lean && decide (2 ≤ j.unit) then (if on_ then b.setBit PWR_STAT_DOMON 6 else b.clrBit PWR_STAT_DOMON 6)
  else b

/-- Cells held in a slice. -/
def Block.sliceCells (b : Block) (k : Nat) : Nat := (b.sw.frames.map (fun f => f.inSlice k)).sum

/-- A job waits for its slice to empty (R469). -/
def Block.sliceWaits (b : Block) (j : CalJob) : Bool := j.kind == 3 && decide (0 < b.sliceCells j.unit)

/-- A job waits until the element that the job before it calibrated in the same set has been swapped in: its spare is the one of
the set after that swap (R462; DEDUCED, log entry 77). -/
def Block.swapWaits (b : Block) (j : CalJob) : Bool :=
  b.cal.swap.any (fun (q, _) => q.kind == j.kind && (j.kind == 0 || q.unit == j.unit))

/-- The next queued job starts; one whose set has no spare fails with NOSPARE and the next is tried (R460, R465). A SLICE job waits
at the head until its slice is empty (R469). `fuel` bounds the queue. -/
def Block.calNext (b : Block) : Nat → Block
  | 0 => b.calShow
  | fuel + 1 =>
    match b.cal.run, b.cal.queue with
    | none, j :: r =>
      if b.swapWaits j then b.calShow
      else if b.sliceWaits j then
        Block.calShow (b.mapCal (fun c => { c with waitAt := some (c.waitAt.getD b.tm.phys) }))
      else
      let b1 := b.mapCal (fun c => { c with queue := r, waitAt := none })
      match b1.spareOf j with
      | none => Block.calNext ((b1.mapCal (fun c => { c with lastEnd := b1.tm.phys })).calReport j.kind j.unit 7) fuel
      | some e =>
        Block.calShow (((b1.mapCal (fun c => { c with
          run := some j, elem := e, began := b1.tm.phys, dlyN := 0, dlySum := 0, dlySq := 0 })).put CAL_STAT_SLOTS 0).slicePower
          j true)
    | _, _ => b.calShow

/-- A job is one of Table 15-1 or 15-4 and its unit exists. -/
def unitOk (j : CalJob) : Bool :=
  if j.kind = 0 then j.unit < 14 else if j.kind = 1 then j.unit < 6 else if j.kind = 2 ∨ j.kind = 3 then j.unit < 4
  else if j.kind = 4 then j.unit < 8 else j.kind == 5 && j.unit < 16

/-- A destructive test is allowed (Table 15-4). -/
def Block.testOk (b : Block) (j : CalJob) : Bool :=
  if j.kind = 3 then bitAt (b.get SWC_STAT_RETS) j.unit || (b.lean && decide (2 ≤ j.unit))
  else if j.kind = 4 then bitAt (b.get FLW_STAT_RETIRED) j.unit || (b.lean && !bitAt (b.get FLW_STAT_ACTIVE) j.unit)
  else if j.kind = 5 then
    b.flag (GAL_STAT_RETIRED j.unit) || b.get (GAL_STAT_STATE j.unit) == 0 || b.get (GAL_STAT_STATE j.unit) == 4
  else true

/-- Queue a job, or refuse it with BUSY (R460, R469). -/
def Block.calQueue (b : Block) (j : CalJob) : Block :=
  let c := b.cal
  if !b.flag CAL_CTL_EN || decide (4 ≤ c.queue.length) || c.queue.contains j || c.run == some j || !unitOk j || !b.testOk j then
    b.calReport j.kind j.unit 4
  else (b.mapCal (fun c => { c with queue := c.queue ++ [j] })).calNext 5

/-- A write of CAL_REQ (R460): a reserved KIND is not stored. -/
def Block.calReq (data : Half) (b : Block) : Block :=
  let d := data.toNat
  let b1 := (if d % 16 ≤ 5 then b.put CAL_REQ_KIND d else b).put CAL_REQ_UNIT (d / 16)
  if bitAt d 10 then b1.calQueue ⟨b1.get CAL_REQ_KIND, b1.get CAL_REQ_UNIT⟩ else b1

/-- CAL_REQUEST. -/
def execCalRequest (data : Half) (s : State) : Host.Outcome State Fault Refusal :=
  done s (byHost (.calRequest data) (Block.calReq data))

/-! ### Results (R462, R464, R465) -/

/-- LSB and OFS of an interpolator from the extreme codes hit, in the units of CAL_TACi: the code range spans
2.5 ns from 1.25 ns (R445). Each is the exact quotient cut to its unit, as the example of the chapter has them. -/
def tacValues (cmin cmax : Nat) : Nat × Int :=
  let n := cmax + 1 - cmin
  (2500 * 2 ^ 20 / n, (1250 * 2 ^ 10 * (n : Int) - 2500 * 2 ^ 10 * cmin) / n)

/-- DLY of an ENCDLY job: the mean of its values, rounded to 1 ns, a half upward (R467). -/
def Block.dlyMean (b : Block) : Int := (2 * b.cal.dlySum + 2 ^ 16 * b.cal.dlyN) / (2 ^ 17 * b.cal.dlyN)

/-- The first check of Table 15-2 that fails, as a CODE, or 0. The rms of an ENCDLY job's values is about their mean; with fewer
than 4,096 of them there is no DLY to check. -/
def Block.calCheck (b : Block) : CalResult → Nat
  | .tac cmin cmax missing =>
    let (lsb, ofs) := tacValues cmin.toNat cmax.toNat
    if 10 * lsb < 11 * 2 ^ 20 ∨ 13 * 2 ^ 20 < 10 * lsb ∨ cmax < cmin then 1
    else if ofs < 150 * 2 ^ 10 ∨ 300 * 2 ^ 10 < ofs then 1
    else if missing then 2 else 0
  | .dline step ofs resid =>
    let fac := toSigned 20 (fieldOf (regReset (CAL_DL (b.cal.elem - 16))) 16 20)
    if 10 * step.toNat < 46 * 4096 ∨ 54 * 4096 < 10 * step.toNat then 1
    else if 6 < resid then 2
    else if 1600 < (ofs - fac).natAbs then 1 else 0
  | .encdly =>
    let c := b.cal
    if c.dlyN < 4096 then 6 else if b.dlyMean < 0 ∨ 65535 < b.dlyMean then 1
    else if (200 * 2 ^ 16 * (c.dlyN : Int)) ^ 2 < c.dlyN * c.dlySq - c.dlySum * c.dlySum then 2 else 0
  | .test pass => if pass then 0 else 1

/-- A result is of the kind of a job. -/
def resultOf (j : CalJob) : CalResult → Bool
  | .tac .. => j.kind == 0
  | .dline .. => j.kind == 1
  | .encdly => j.kind == 2
  | .test _ => decide (3 ≤ j.kind)

/-- The record of a job's target (R472). -/
def recOf (j : CalJob) (elem : Nat) : Nat := if j.kind ≤ 1 then elem else 60 + j.unit

/-- The running job ends with a code and the next one starts; a failing spare is marked BAD after its second
LIMIT or NOISE in a row (R464, R465). FAILS counts a failed check of Table 15-2, no ABORT or REF. -/
def Block.calFailed (b : Block) (j : CalJob) (code : Nat) : Block :=
  let e := b.cal.elem
  let two := j.kind ≤ 1 && (code == 1 || code == 2)
  let n := (b.cal.fails[e]?.getD 0) + 1
  let b1 := b.mapCal (fun c => { c with run := none, lastEnd := b.tm.phys, fails := if two then vmod c.fails e (· + 1) else c.fails })
  let b2 := if two && decide (2 ≤ n) then
      (if e < 16 then b1.setBit CAL_SPARE_TACBAD e else b1.setBit CAL_SPARE_DLBAD (e - 16)) else b1
  let b3 := if j.kind ≤ 2 && (code == 1 || code == 2 || code == 6) then b2.incSat (CAL_REC_FAILS (recOf j e)) 1 else b2
  (b3.slicePower j false).calReport j.kind j.unit code

/-- A success: COUNT, LAST and CAL_DONE (R462, R472). -/
def Block.calDone (b : Block) (j : CalJob) (elem : Nat) : Block :=
  let k := recOf j elem
  Block.calReport ((b.incSat (CAL_REC_COUNT k) 1).setReg (CAL_LAST k) b.stw) j.kind j.unit 0

/-- Swap a calibrated element in (R462): it takes the role or the output, and what it replaces is spare. -/
def Block.swapIn (b : Block) (j : CalJob) (e v w : Nat) : Block :=
  let b1 := if j.kind = 0 then
      let old := b.roleOf j.unit
      let x := ((b.put (CAL_TAC_ROLE old) 31).put (CAL_TAC_ROLE e) j.unit).put CAL_SPARE_TACSP
        (setBitN (clrBitN (b.get CAL_SPARE_TACSP) e) old)
      (x.put (CAL_TAC_OFS e) w).put (CAL_TAC_LSB e) v
    else
      let x := if (e - 16) % 2 = 1 then b.setBit CAL_SPARE_DLACT j.unit else b.clrBit CAL_SPARE_DLACT j.unit
      (x.put (CAL_DL_STEP (e - 16)) v).put (CAL_DL_OFS (e - 16)) w
  b1.calDone j e

/-- A swap may take place now: a delay line's only while its output is at its inactive level (R414, R462). -/
def Block.swapOk (b : Block) (j : CalJob) : Bool := j.kind == 0 || (b.pulseEnd j.unit).isNone

/-- The swaps of a list that may take place do; the others wait on. -/
def Block.swapsIn (b : Block) : List (CalJob × Nat × Nat × Nat) → Block
  | [] => b
  | (j, e, v, w) :: r =>
    (if b.swapOk j then b.swapIn j e v w else b.mapCal (fun c => { c with swap := c.swap ++ [(j, e, v, w)] })).swapsIn r

/-- Swap the calibrated elements in, and start what waited for that. -/
def Block.calSwap (b : Block) : Block :=
  if b.cal.swap.isEmpty then b else ((b.mapCal (fun c => { c with swap := [] })).swapsIn b.cal.swap).calNext 5

/-- ENCn_SDLY takes a measured latch delay (R467). -/
def Block.dlyStore (b : Block) (e d : Nat) : Block := b.put (ENC_SDLY_DLY e) d

/-- A measured latch delay takes effect: at once, or in a synchronised pair as a journal input (R468). -/
def Block.calDly (b : Block) : Block :=
  match b.cal.dly with
  | none => b
  | some (e, d) =>
    let b1 := b.mapCal (fun c => { c with dly := none })
    (if b1.synced then b1.journalItem (.encDly e d) else b1.dlyStore e d).calDone ⟨2, e⟩ 0

/-- What calibration does at a cycle boundary (R28, R462, R467). -/
def Block.calBoundary (b : Block) : Block := b.calSwap.calDly

/-- A destructive test of a core leaves its registers and flags with values that the spec does not give. -/
def Block.coreTested (b : Block) (n : Nat) : Block :=
  let b1 := b.mapEng n (fun x => { x with
    g := Vector.ofFn (fun (i : Fin 64) => Config.freeValue (b.free + i))
    f := BitVec.ofNat 8 (Config.freeNat (b.free + 64) 255) })
  { b1 with free := b.free + 65 }

/-- A job has measured: its checks decide what follows (R464). -/
def Block.calResult (b : Block) (j : CalJob) (r : CalResult) : Block :=
  let code := if j.kind ≤ 1 && b.ticRefLost then 5 else b.calCheck r
  if code ≠ 0 then b.calFailed j code
  else
    let e := b.cal.elem
    let b1 := (b.mapCal (fun c => { c with run := none, lastEnd := b.tm.phys, fails := if j.kind ≤ 1 then vmod c.fails e (fun _ => 0) else c.fails })).slicePower
      j false
    match r with
    | .tac cmin cmax _ =>
      let (lsb, ofs) := tacValues cmin.toNat cmax.toNat
      b1.mapCal (fun c => { c with swap := c.swap ++ [(j, e, lsb, ofs.toNat)] })
    | .dline step ofs _ => b1.mapCal (fun c => { c with swap := c.swap ++ [(j, e, step.toNat, ofSigned 20 ofs)] })
    | .encdly => b1.mapCal (fun c => { c with dly := some (j.unit, b.dlyMean.toNat) })
    | .test _ => (if j.kind = 5 then b1.coreTested j.unit else b1).calReport j.kind j.unit 0

/-- The instant at which a job ends: an ENCDLY job short of its samples 10 s after it began (Table 15-2). -/
def Block.jobEnds (b : Block) (r : CalResult) (dt : Nat) : Block :=
  if r = .encdly ∧ b.cal.dlyN < 4096 then b.reachPhys (b.cal.began + 10 ^ 10 * nsUnit) else b.advanceNs dt

/-- The output of a job's delay line reaches its inactive level. -/
def Block.swapLevel (b : Block) (j : CalJob) : Block :=
  if j.kind = 1 then (match b.pulseEnd j.unit with | some t => b.reachOut j.unit t | none => b) else b

/-- CAL_JOB_END: the running job ends with what it measured. While RUN is 0 its swap follows 1 µs later, a delay line's once its
output is inactive (R462). -/
def execCalJobEnd (r : CalResult) (dt : Nat) (s : State) : Host.Outcome State Fault Refusal :=
  done s fun b0 =>
    match b0.cal.run with
    | none => b0
    | some j =>
      if !resultOf j r then b0
      else
        let b := ((b0.jobEnds r dt).calResult j r).calNext 5
        if b.flag SYS_CYCLE_RUN || (b.cal.swap.isEmpty && b.cal.dly.isNone) then b
        else ((b.advanceNs 1000).swapLevel j).calBoundary

/-- AUTO target `i` (R463): the 14 roles, then the six outputs. -/
def autoJob (i : Nat) : CalJob := if i < 14 then ⟨0, i⟩ else ⟨1, i - 14⟩

/-- CAL_AUTO: AINT s after the last job ended, with the queue empty (R463). -/
def execCalAuto (s : State) : Host.Outcome State Fault Refusal :=
  done s fun b0 =>
    if !b0.flag CAL_CTL_AUTO || !b0.flag CAL_CTL_EN || b0.cal.run.isSome || !b0.cal.queue.isEmpty then b0
    else
      let b := b0.reachPhys (b0.cal.lastEnd + b0.get CAL_CTL_AINT * 10 ^ 9 * nsUnit)
      (b.mapCal (fun c => { c with auto := (c.auto + 1) % 20 })).calQueue (autoJob b.cal.auto)

/-- Queued jobs end with ABORT, each with its own CAL_FAIL (R466). -/
def Block.calAborts (b : Block) : List CalJob → Block
  | [] => b
  | j :: r => Block.calAborts ((b.calReport j.kind j.unit 3)) r

/-- A write of CAL_CTL.EN = 0 (R466). -/
def Block.calDisable (b : Block) : Block :=
  let b0 := b.putB CAL_CTL_EN false
  let b1 := match b0.cal.run with | some j => b0.calFailed j 3 | none => b0
  Block.calShow ((b1.mapCal (fun c => { c with queue := [], waitAt := none })).calAborts b1.cal.queue)

/-- CAL_DISABLE. -/
def execCalDisable (s : State) : Host.Outcome State Fault Refusal :=
  done s (byHost .calDisable Block.calDisable)

/-- The running job on a target ends with ABORT: its value register has been written (R466). -/
def Block.calOverwritten (b : Block) (j : CalJob) : Block :=
  if b.cal.run = some j then (b.calFailed j 3).calNext 5 else b

/-- SLICE_TEST_TIMEOUT: 100 ms after it began to wait, the slice still holds cells (R469). -/
def execSliceTestTimeout (s : State) : Host.Outcome State Fault Refusal :=
  done s fun b =>
    match b.cal.waitAt, b.cal.queue with
    | some t, j :: r =>
      if b.sliceWaits j then
        (((b.reachPhys (t + 100000000 * nsUnit)).mapCal (fun c => { c with
          queue := r, waitAt := none, lastEnd := max b.tm.phys (t + 100000000 * nsUnit) })).calReport j.kind j.unit 6).calNext 5
      else b
    | _, _ => b

/-! ### Loss of the reference (R437, R453, R466) -/

/-- The TIC PLL enters HOLD: comparisons are invalid, and a running job on an interpolator or a delay line ends with REF
(R453, R466). -/
def Block.ticRefLoss (b0 : Block) : Block :=
  let b := b0.putB TIC_CAUSE_REF true
  match b.cal.run with
  | some j => if j.kind ≤ 1 then (b.calFailed j 5).calNext 5 else b
  | none => b

/-- The OCXO is absent: the TIC PLL, which it feeds as well, is in HOLD too (R437). -/
def Block.ticHold (b : Block) : Block :=
  if b.pllState 1 = 4 then ((b.pllHold 1 0).clkCause CLK_CAUSE_REFLOSS 1).ticRefLoss else b

/-- PLL_REFLOSS: the reference of a LOCKED PLL is absent; the TIC marks its comparisons invalid (R427, R437, R453). -/
def execPllRefloss (p : Fin 3) (dt : Nat) (s : State) : Host.Outcome State Fault Refusal :=
  done s fun b0 =>
    if b0.pllState p ≠ 4 then b0
    else
      let b := ((b0.advanceNs dt).pllHold p 0).clkCause CLK_CAUSE_REFLOSS p
      if p = 0 then b.cmpHalt.ticHold else if p = 1 then b.ticRefLoss else b

/-- PLL_UNLOCK: the loop phase error of a LOCKED PLL exceeds 100 ps. -/
def execPllUnlock (p : Fin 3) (dt : Nat) (s : State) : Host.Outcome State Fault Refusal :=
  done s fun b0 =>
    if b0.pllState p ≠ 4 then b0
    else
      let b := ((b0.advanceNs dt).pllHold p 1).clkCause CLK_CAUSE_UNLOCK p
      if p = 1 then b.ticRefLoss else b

/-- One maintenance slot counts for the running job (R461). A job that waited starts if it now can; while RUN is 0 a swap that
waited for a boundary takes place. -/
def Block.calSlot (b : Block) : Block :=
  let b1 := (if b.flag SYS_CYCLE_RUN then b else b.calBoundary).calNext 5
  if b1.cal.run.isSome then b1.incSat CAL_STAT_SLOTS 1 else b1

/-! ### Built-in self-test (R470) -/

/-- A write of CAL_BIST.GO. -/
def Block.bistGo (b : Block) : Block :=
  if b.inMaint then (if b.flag CAL_BIST_RUN then b else b.putB CAL_BIST_RUN true) else b.calReport 6 0 4

/-- BIST_GO. -/
def execBistGo (s : State) : Host.Outcome State Fault Refusal :=
  done s (byHost .bistGo Block.bistGo)

/-- A channel that fails is retired as if its strikes had reached THRESH (R470). -/
def Block.bistRetire (b : Block) (kind idx : Nat) : Block :=
  let c : Channel := ⟨kind, idx⟩
  if b.isRetired c then b
  else if kind ≤ 1 ∧ idx < 36 then b.laneRetire idx
  else if kind = 2 ∧ idx < 4 * 3584 then b.rowOut (idx / 3584) (idx % 3584)
  else if kind = 3 ∧ idx < 8 then (b.retire c).cellRetire idx
  else if kind = 4 ∧ idx < 16 then ((b.retire c).putB (GAL_STAT_RETIRED idx) true).spareUpdate
  else if kind = 7 then b.pageOut idx
  else b

/-- Retire the failing channels. -/
def Block.bistRetires (b : Block) : List (Fin 8 × Nat) → Block
  | [] => b
  | (k, i) :: r => (b.bistRetire k i).bistRetires r

/-- Every engine is EMPTY. -/
def Block.enginesEmpty (b : Block) : Block :=
  { (List.range 16).foldl (fun c n => c.put (GAL_STAT_STATE n) 0) b with eng := Vector.replicate 16 Engine.reset }

/-- What BIST destroys (R470): Sump, engine stores, the axis store and Cavern, whose words are zero (R604). -/
def Block.bistWipe (b : Block) : Block :=
  let b1 := b.enginesEmpty
  { b1 with
    sw := { b1.sw with frames := [], copies := [], held := [], ingress := [], tx := [] }
    flw := { b1.flw with recs := [], queue := [], flight := [], seekQ := [], cache := [] }
    cav := b1.cav.cleared }

/-- BIST_DONE: it completes with the failing areas and channels. -/
def execBistDone (areas : BitVec 8) (chans : List (Fin 8 × Nat)) (dt : Nat) (s : State) : Host.Outcome State Fault Refusal :=
  done s fun b0 =>
    if !b0.flag CAL_BIST_RUN then b0
    else
      let b1 := (((b0.advanceNs dt).bistWipe).putB CAL_BIST_RUN false).put CAL_BIST_FAILAREA areas.toNat
      (b1.bistRetires chans).calReport 6 0 (if areas = 0 then 0 else 1)

/-- Leaving MAINT ends BIST with ABORT; what it has destroyed stays so. -/
def Block.bistAbort (b : Block) : Block :=
  if b.flag CAL_BIST_RUN then (b.bistWipe.putB CAL_BIST_RUN false).calReport 6 0 3 else b

end Sys2Proof.Machine
end

