-- ==== Sys2Proof/Machine/Ptp.lean ====
section
/-! DEFINITION. The network time unit: messages it sends and handles, the measurement of masters, the
domain servos, steering switches and the loopback calibration (R354 to R395). -/

namespace Sys2Proof.Machine

/-! ### State -/

/-- Replace a domain's state; `d` is 0 for TDA, 1 for TDB. -/
def Block.mapDom (b : Block) (d : Nat) (f : DomSt → DomSt) : Block :=
  { b with ptp := { b.ptp with doms := vmod b.ptp.doms d f } }

/-- A domain's state. -/
def Block.dom (b : Block) (d : Nat) : DomSt := b.ptp.doms[d]?.getD DomSt.reset

/-- Master `k` of a domain: 0 A, 1 B. -/
def DomSt.master (x : DomSt) (k : Nat) : MasterSt := if k = 0 then x.mA else x.mB

/-- Replace a master of a domain. -/
def Block.mapMaster (b : Block) (d k : Nat) (f : MasterSt → MasterSt) : Block :=
  b.mapDom d (fun x => if k = 0 then { x with mA := f x.mA } else { x with mB := f x.mB })

/-- Domain `d` steers the time scale (R373). -/
def Block.steers (b : Block) (d : Nat) : Bool := b.get LAN_TCTL_DOM == d + 1

/-- A cause of a domain or of the unit is set, with DOMAIN_SWITCH (end of R393). -/
def Block.domCause (b : Block) (f : Field) : Block := (b.putB f true).raise evDomainSwitch

/-! ### Offsets of the domains (R373, R382) -/

/-- Bring one DOFF up to date, `moved` being what a steering switch has moved the scale by. -/
def Block.doffSync (b : Block) (d : Nat) (moved : Int) : Block :=
  let x := b.dom d
  let own := if b.steers d then 0 else rateShare x.rate (b.tm.phys - x.doffAt)
  let v := x.doff + own - moved
  (b.mapDom d (fun y => { y with doff := v, doffAt := b.tm.phys })).puti (LAN_D_DOFF_DOFF d) (v / 2 ^ 24)

/-- Bring both DOFF up to date. -/
def Block.domSync (b : Block) : Block :=
  let moved := if b.tm.slewKind = .steer then b.ptp.slewSeen - b.tm.slewRem else 0
  let b1 := { b with ptp := { b.ptp with slewSeen := b.tm.slewRem } }
  (b1.doffSync 0 moved).doffSync 1 moved

/-! ### Sending messages (R361, R363, R371, R385) -/

/-- 2^log seconds, in ns. -/
def logNs (log : Int) : Nat := if 0 ≤ log then 10 ^ 9 * 2 ^ log.toNat else 10 ^ 9 / 2 ^ (-log).toNat

/-- The domain number of a domain. -/
def Block.dnum (b : Block) (d : Nat) : Nat := b.get (LAN_D_CFG_DNUM d)

/-- A message of this unit (R361): type, twoStepFlag, correctionField, sequenceId, controlField, interval, body. -/
def Block.ptpMsg (b : Block) (n t dn : Nat) (two : Bool) (corr : Int) (seq ctrl : Nat) (log : Int) (body : List Byte) :
    List Byte :=
  bytesBE t 1 ++ [2] ++ bytesBE (34 + body.length) 2 ++ bytesBE dn 1 ++ [0] ++ bytesBE (if two then 0x200 else 0) 2 ++
    bytesBE (ofSigned 64 corr) 8 ++ List.replicate 4 0 ++ bytesBE (b.get LAN_CLKID_ID) 8 ++ bytesBE (n + 1) 2 ++
    bytesBE seq 2 ++ bytesBE ctrl 1 ++ bytesBE (ofSigned 8 log) 1 ++ body

/-- The AUTHENTICATION TLV of a message of this unit, where AUTHTX is 1 (R385); without a key its ICV stays zero (R386). -/
def Block.ptpAuth (b : Block) (n : Nat) (m : List Byte) : List Byte :=
  if b.flag (MAC_PTP_AUTHTX n) then
    let k := b.get (MAC_PTP_TXSPP n)
    let v := splice m 2 (bytesBE (m.length + authLen) 2) ++ b.authTlv k
    match b.icvOf v ⟨0, 0, none⟩ k with
    | some c => splice v (v.length - 16) c
    | none => v
  else m

/-- The frame of a message in the transport of domain `d`. -/
def Block.ptpFrame (b : Block) (n d : Nat) (pdelay event : Bool) (m : List Byte) : List Byte :=
  let tr := b.get (LAN_D_CFG_TRANS d)
  let sa := bytesBE (b.get (MAC_ADDR_ADDR n)) 6
  if tr = 0 then
    let l := bytesBE (if pdelay then 0x0180C200000E else 0x011B19000000) 6 ++ sa ++ bytesBE 0x88F7 2 ++ m
    l ++ List.replicate (60 - l.length) 0
  else
    let da := if tr = 1 then (if pdelay then 0x01005E00006B else 0x01005E000181)
      else (if pdelay then 0x33330000006B else 0x333300000181)
    let l := bytesBE da 6 ++ sa ++ Config.ipHeaders n (tr == 2) (if event then 319 else 320) m.length ++ m
    l ++ List.replicate (60 - l.length) 0

/-- Send a message on a port. -/
def Block.sendPtp (b : Block) (n d : Nat) (pdelay event : Bool) (m : List Byte) : Block :=
  let l := b.ptpFrame n d pdelay event (b.ptpAuth n m)
  let b1 := (b.countTx n l).emit (.ptp n l)
  if event then b1.ptpCount n 1 else b1

/-- The next sequenceId of a kind in a domain (R361). -/
def Block.nextSeq (b : Block) (n key : Nat) : Nat := sget (fun _ => 0) (b.pt n).seqs key

/-- Count a message sent under its sequence `key`, and say when the next one of `timer` is due. -/
def Block.sent (b : Block) (n key timer ns : Nat) : Block :=
  b.mapPt n (fun x => { x with
    seqs := sput (fun _ => 0) x.seqs key ((sget (fun _ => 0) x.seqs key + 1) % 2 ^ 16)
    due := sput (fun _ => 0) x.due timer (b.tm.phys + ns * nsUnit) })

/-- The instant at which a message of a kind is due. -/
def Block.dueAt (b : Block) (n key : Nat) : Nat := sget (fun _ => 0) (b.pt n).due key

/-- The port serves domain `d`, which is enabled. -/
def Block.serves (b : Block) (n d : Nat) : Bool :=
  b.flag (LAN_D_CFG_EN d) && (if d = 0 then b.flag (MAC_PTP_DOMA n) else b.flag (MAC_PTP_DOMB n))

/-- Requesting port identity and zero timestamp. -/
def zeroTime : List Byte := List.replicate 10 0

/-- Send Sync, and Follow_Up in two-step (R363). -/
def Block.syncSend (b0 : Block) (n d : Nat) : Block :=
  let b := (b0.reachPhys (b0.dueAt n d)).domSync
  let log := b.geti (MAC_PTP_SYNCLOG n)
  let q := b.nextSeq n d
  let t := b.domTime (d + 1) (b.txStamp n)
  let b1 := if b.flag (MAC_PTP_ONESTEP n) then
      b.sendPtp n d false true (b.ptpMsg n 0 (b.dnum d) false (t % 65536) q 0 log (timeBytes t))
    else
      (b.sendPtp n d false true (b.ptpMsg n 0 (b.dnum d) true 0 q 0 log zeroTime)).sendPtp n d false false
        (b.ptpMsg n 8 (b.dnum d) false (t % 65536) q 2 log (timeBytes t))
  b1.sent n d d (logNs log)

/-- SYNC_SEND: a MASTER port sends Sync of a domain it serves. -/
def execSyncSend (n : Fin 32) (d : Fin 2) (s : State) : Host.Outcome State Fault Refusal :=
  done s fun b =>
    if b.get (MAC_PTP_ROLE n) == 2 && b.serves n d && b.flag (MAC_STAT_LINK n) && !b.flag (MAC_CFG_RING n) then
      b.syncSend n d
    else b

/-- Send a Delay_Req to a master: the sequence is that of the port and domain, the interval each master's own (R361, R371). -/
def Block.delayReqSend (b0 : Block) (n d k : Nat) : Block :=
  let key := 4 + 2 * d + k
  let b := (b0.reachPhys (b0.dueAt n key)).domSync
  let log := b.geti (LAN_D_CFG_DRLOG d)
  let q := b.nextSeq n (4 + 2 * d)
  let t := b.domTime (d + 1) (b.txStamp n)
  ((b.sendPtp n d false true (b.ptpMsg n 1 (b.dnum d) false 0 q 1 log zeroTime)).mapMaster d k
    (fun m => { m with dreq := some (q, t) })).sent n (4 + 2 * d) key (logNs log)

/-- DELAY_REQ_SEND: to a configured master, on its ingress port (R371). -/
def execDelayReqSend (d k : Fin 2) (s : State) : Host.Outcome State Fault Refusal :=
  done s fun b =>
    let n := b.get (LAN_D_M1_INPORT d k)
    if b.flag (LAN_D_M1_VALID d k) && b.get (LAN_D_CFG_DMECH d) == 0 && b.get (MAC_PTP_ROLE n) == 1 && b.serves n d &&
        b.flag (MAC_STAT_LINK n) && !b.flag (MAC_CFG_RING n) then
      b.delayReqSend n d k
    else b

/-- The domain in which a port exchanges Pdelay messages (R359): TDA where it serves both. -/
def Block.pdDomain (b : Block) (n : Nat) : Option Nat :=
  [0, 1].find? (fun d => b.serves n d && (b.get (MAC_PTP_ROLE n) == 4 || b.get (LAN_D_CFG_DMECH d) == 1))

/-- Send a Pdelay_Req. -/
def Block.pdelayReqSend (b0 : Block) (n d : Nat) : Block :=
  let b := (b0.reachPhys (b0.dueAt n 8)).domSync
  let log := b.geti (MAC_PTP_PDLOG n)
  let q := b.nextSeq n (8 + d)
  ((b.sendPtp n d true true (b.ptpMsg n 2 (b.dnum d) false 0 q 5 log (zeroTime ++ zeroTime))).mapPt n
    (fun x => { x with pdT1 := some (q, b.domTime 0 (b.txStamp n)), pdT4 := none })).sent n (8 + d) 8 (logNs log)

/-- PDELAY_REQ_SEND: a port of a peer-to-peer domain or of a P2P transparent clock. -/
def execPdelayReqSend (n : Fin 32) (s : State) : Host.Outcome State Fault Refusal :=
  done s fun b =>
    let r := b.get (MAC_PTP_ROLE n)
    match b.pdDomain n with
    | none => b
    | some d =>
      if (r == 1 || r == 2 || r == 4) && b.flag (MAC_STAT_LINK n) && !b.flag (MAC_CFG_RING n) then b.pdelayReqSend n d
      else b

/-! ### Servos (R373 to R379) -/

/-- A servo enters a state (R374). -/
def Block.servoTo (b : Block) (d st : Nat) : Block :=
  if b.get (LAN_D_STAT_STATE d) = st then b
  else (((b.put (LAN_D_STAT_STATE d) st).mapDom d (fun x => { x with within := 0, beyond := 0 })).domCause
    (LAN_D_CAUSE_STATE d)).requal

/-- The conditions of R379 hold for domain `d`. -/
def Block.l1Holds (b : Block) (d : Nat) : Bool :=
  let sel := b.get (LAN_D_SEL_SEL d)
  let k := b.get CMP_STAT_SEL
  let port := b.get (LAN_D_M1_INPORT d (sel - 1))
  b.flag (LAN_D_CFG_L1S d) && sel != 0 && b.get CMP_STAT_STATE == 2 && decide (k < 8) && b.get (CMP_IN_CFG_SRC k) == 2 &&
    (b.portLanes port).contains (b.get (CMP_IN_CFG_LANE k)) && b.steers d

/-- LAN_Dd_STAT.L1OK, with L1ERR where a domain with L1S 1 lacks a condition. -/
def Block.l1Show (b : Block) (d : Nat) : Block :=
  let ok := b.l1Holds d
  let b1 := b.putB (LAN_D_STAT_L1OK d) ok
  if b.flag (LAN_D_CFG_L1S d) && !ok && !b.flag (LAN_D_CAUSE_L1ERR d) then b1.domCause (LAN_D_CAUSE_L1ERR d) else b1

/-- Both domains after a change of the Compass or of the steering domain. -/
def Block.l1Shows (b : Block) : Block := (b.l1Show 0).l1Show 1

/-- The bandwidths of LAN_Dd_CFG.BW, in mHz. -/
def bwMilli (c : Nat) : Nat := [10, 20, 50, 100, 200, 500, 1000, 2000].getD c 2000

/-- The code in force for a time between Syncs in ns (R375). -/
def bwEff (c ival : Nat) : Nat :=
  match ((List.range (c + 1)).map (c - ·)).find? (fun i => decide (20 * bwMilli i * ival ≤ 10 ^ 12)) with
  | some i => i
  | none => 0

/-- The mean of a list. -/
def meanInt (l : List Int) : Int := if l.isEmpty then 0 else l.sum / l.length

/-- The last 16 of a list with one more. -/
def last16 (l : List Int) (v : Int) : List Int := (l ++ [v]).drop (l.length + 1 - 16)

/-- A rate correction in the range of LAN_RATE (Table 3-2). -/
def clampRate (r : Int) : Int := max (-1099511627) (min 1099511627 r)

/-- A rate correction of a servo takes effect (R373). -/
def Block.servoRate (b : Block) (d : Nat) (r : Int) : Block :=
  let b1 := b.mapDom d (fun x => { x with rate := clampRate r })
  if b.steers d then b1.puti LAN_RATE_RATE (clampRate r) else b1

/-- The servo of the steering domain has corrected the time scale: QUAL is no longer INVALID for want of it (Table 3-1). -/
def Block.corrected (b : Block) : Block := Block.requal { b with tm := { b.tm with everSet := true } }

/-- The phase of a domain moves by `v`, in 2^-40 ns: of the time scale, where the domain steers, or of its virtual clock. -/
def Block.phaseBy (b : Block) (d : Nat) (v : Int) : Block :=
  if b.steers d then (if b.flag LAN_ADJ_BUSY then b else (b.scaleStep v .servo).corrected)
  else (b.mapDom d (fun x => { x with doff := x.doff + v })).doffSync d 0

/-- One update of the loop (R375, R379). With L1S in force only the phase is corrected. -/
def Block.servoLoop (b : Block) (d k : Nat) (ofs : Int) : Block :=
  let b0 := b.l1Show d
  let l1 := b0.flag (LAN_D_STAT_L1OK d)
  let bw := bwEff (b.get (LAN_D_CFG_BW d)) ((b.dom d).master k).ival
  let (v, i) := Config.servoStep bw l1 ofs (b.dom d).integ
  let b1 := b0.put (LAN_D_STAT_BWEFF d) bw
  if l1 then ((b1.mapDom d (fun x => { x with outs := last16 x.outs 0 })).servoRate d 0).phaseBy d v
  else
    let b2 := (b1.mapDom d (fun x => { x with integ := i, outs := last16 x.outs (clampRate v) })).servoRate d v
    if b.steers d then b2.corrected else b2

/-- Correct by −ofs once (R374). -/
def Block.servoStepBy (b : Block) (d : Nat) (ofs : Int) : Block := b.phaseBy d (-ofs * 2 ^ 24)

/-- Consecutive measurements within and beyond a limit. -/
def Block.tally (b : Block) (d : Nat) (ok : Bool) : Block :=
  b.mapDom d (fun x => if ok then { x with within := x.within + 1, beyond := 0 } else { x with within := 0, beyond := x.beyond + 1 })

/-- One measurement of the selected master reaches the servo (R374 to R378). -/
def Block.servo (b : Block) (d k : Nat) (ofs : Int) : Block :=
  let lim : Int := b.get (LAN_D_LIM_STEPLIM d) * 65536
  let q : Int := psUnits (b.get (LAN_D_LIM_QLIM d))
  let moving := b.tm.slewKind = .steer ∧ b.ptp.swTo = d + 1
  if b.get (LAN_D_STAT_STATE d) = 0 ∨ (b.steers d ∧ b.tm.slewKind = .servo) then b
  else
    let b1 := if b.get (LAN_D_STAT_STATE d) = 1 then b.servoTo d 2 else b
    if lim < ofs.natAbs then
      if moving then b1
      else ((b1.servoTo d 2).mapDom d (fun x => { x with within := 0, beyond := 0 })).servoStepBy d ofs
    else
      let st := b1.get (LAN_D_STAT_STATE d)
      let b2 := (b1.tally d (if st = 2 then true else decide ((ofs.natAbs : Int) ≤ q))).servoLoop d k ofs
      let x := b2.dom d
      if st = 2 ∧ 8 ≤ x.within ∧ ¬ moving then b2.servoTo d 3
      else if st = 3 ∧ 16 ≤ x.within then b2.servoTo d 4
      else if st = 4 ∧ 4 ≤ x.beyond then b2.servoTo d 3
      else b2

/-- The usability of a master. -/
def useField (d k : Nat) : Field := if k = 0 then LAN_D_STAT_USEA d else LAN_D_STAT_USEB d

/-- A valid measurement of master `k` takes effect (R370, R372). -/
def Block.measured (b : Block) (d k : Nat) (ofs mpd : Int) : Block :=
  let b1 := (b.puti (LAN_D_OFF_OFS d k) ofs).mapMaster d k (fun m => { m with lastValid := some b.tm.phys })
  let b2 := if b.flag (useField d k) then b1 else (b1.putB (useField d k) true).domCause (LAN_D_CAUSE_USECHG d)
  if b.get (LAN_D_SEL_SEL d) = k + 1 then (b2.puti (LAN_D_MPD_MPD d) mpd).servo d k ofs else b2

/-- A measurement of this unit: in a synchronised pair the holder's become journal inputs (R388). -/
def Block.measure (b : Block) (d k : Nat) (ofs mpd : Int) : Block :=
  if b.synced then (if b.flag PAIR_STAT_HOLDER then b.journalItem (.measure d k ofs mpd) else b)
  else b.measured d k ofs mpd

/-- The mean path delay that applies to a master (R370). -/
def Block.mpdOf (b : Block) (d k : Nat) : Option Int :=
  let n := b.get (LAN_D_M1_INPORT d k)
  if b.get (LAN_D_CFG_DMECH d) = 1 then (if b.flag (MAC_PDLY_VALID n) then some (b.geti (MAC_PDLY_MPD n)) else none)
  else
    let l := ((b.dom d).master k).mpds
    if l.isEmpty then none else some (meanInt l)

/-- A complete Sync of a master: ms is known (R370). -/
def Block.syncMeasured (b : Block) (d k : Nat) (ms : Int) : Block :=
  let b1 := b.mapMaster d k (fun m => { m with ms := some ms })
  match b1.mpdOf d k with
  | none => b1
  | some mpd => b1.measure d k (ms - mpd - b1.asymOf (b1.get (LAN_D_M1_INPORT d k)) mpd) mpd

/-! ### Received messages (R358 to R363, R369, R370, R384) -/

/-- The configured master that a message comes from (R369). -/
def Block.masterOf (b : Block) (n d : Nat) (l : List Byte) (p : PtpAt) : Option Nat :=
  [0, 1].find? (fun k => b.flag (LAN_D_M1_VALID d k) && b.get (LAN_D_M1_INPORT d k) == n &&
    ptpSrc l p == (b.get (LAN_D_M0_CLKID d k), b.get (LAN_D_M1_PORTNUM d k)))

/-- A Sync of a master. -/
def Block.syncRx (b : Block) (d k : Nat) (f : InFrame) (p : PtpAt) : Block :=
  let l := f.bytes
  let t2 := b.domTime (d + 1) f.stamp
  let iv := match ((b.dom d).master k).sync with
    | some o => (b.tm.phys - o.at_) / nsUnit
    | none => ((b.dom d).master k).ival
  let x : SyncIn := { seq := ptpSeq l p, two := ptpTwo l p, t2 := t2, t1 := ptpTime l p, corr := ptpCorr l p, at_ := b.tm.phys }
  let b1 := b.mapMaster d k (fun m => { m with sync := some x, ival := iv })
  if x.two then b1 else b1.syncMeasured d k (t2 - x.t1 - x.corr)

/-- A Follow_Up of a master: within 100 ms of its Sync and before the next. -/
def Block.followRx (b : Block) (d k : Nat) (f : InFrame) (p : PtpAt) : Block :=
  match ((b.dom d).master k).sync with
  | none => b
  | some x =>
    if x.two && x.seq == ptpSeq f.bytes p && decide (b.tm.phys ≤ x.at_ + 100000000 * nsUnit) then
      (b.mapMaster d k (fun m => { m with sync := some { x with two := false } })).syncMeasured d k
        (x.t2 - ptpTime f.bytes p - (x.corr + ptpCorr f.bytes p))
    else b

/-- A Delay_Resp of a master (R369, R370). -/
def Block.delayRespRx (b : Block) (n d k : Nat) (f : InFrame) (p : PtpAt) : Block :=
  let l := f.bytes
  match ((b.dom d).master k).dreq, ((b.dom d).master k).ms with
  | some (q, t3), some ms =>
    if q == ptpSeq l p && ptpReq l p == (b.get LAN_CLKID_ID, n + 1) then
      let sm := ptpTime l p - t3 - ptpCorr l p
      b.mapMaster d k (fun m => { m with dreq := none, mpds := last16 m.mpds ((ms + sm) / 2) })
    else b
  | _, _ => b

/-- One exchange of the peer delay of a port is complete. -/
def Block.pdDone (b : Block) (n : Nat) (v : Int) : Block :=
  let l := last16 (b.pt n).pdMean v
  (((b.mapPt n (fun x => { x with pdMean := l, pdT1 := none, pdT4 := none })).puti (MAC_PDLY_MPD n) (meanInt l)).putB
    (MAC_PDLY_VALID n) true)

/-- A Pdelay_Resp or Pdelay_Resp_Follow_Up that answers this port (R363, R370). -/
def Block.pdelayRx (b : Block) (n : Nat) (f : InFrame) (p : PtpAt) : Block :=
  let l := f.bytes
  if ptpReq l p != (b.get LAN_CLKID_ID, n + 1) then b
  else if ptpType l p == 3 then
    match (b.pt n).pdT1 with
    | some (q, t1) =>
      if q == ptpSeq l p then
        let d := b.domTime 0 f.stamp - t1
        if ptpTwo l p then b.mapPt n (fun x => { x with pdT4 := some (q, d, ptpTime l p, ptpCorr l p) })
        else b.pdDone n ((d - ptpCorr l p) / 2)
      else b
    | none => b
  else
    match (b.pt n).pdT4 with
    | some (q, d, t2, c) =>
      if q == ptpSeq l p then b.pdDone n ((d - (ptpTime l p - t2) - c - ptpCorr l p) / 2) else b
    | none => b

/-- The identity of a message's sender, as ten bytes. -/
def senderBytes (l : List Byte) (p : PtpAt) : List Byte := (l.drop (p.off + 20)).take 10

/-- Answer a Pdelay_Req (R363). -/
def Block.pdelayAnswer (b : Block) (n d : Nat) (f : InFrame) (p : PtpAt) : Block :=
  let l := f.bytes
  let log := b.geti (MAC_PTP_PDLOG n)
  let turn := ptpCorr l p + (b.domTime 0 (b.txStamp n) - b.domTime 0 f.stamp)
  let body := zeroTime ++ senderBytes l p
  if b.flag (MAC_PTP_ONESTEP n) then
    b.sendPtp n d true true (b.ptpMsg n 3 (ptpDom l p) false turn (ptpSeq l p) 5 log body)
  else
    (b.sendPtp n d true true (b.ptpMsg n 3 (ptpDom l p) true 0 (ptpSeq l p) 5 log body)).sendPtp n d true false
      (b.ptpMsg n 10 (ptpDom l p) false turn (ptpSeq l p) 5 log body)

/-- Answer a Delay_Req with Delay_Resp (Table 11-2). -/
def Block.delayAnswer (b : Block) (n d : Nat) (f : InFrame) (p : PtpAt) : Block :=
  let l := f.bytes
  let t := b.domTime (d + 1) f.stamp
  b.sendPtp n d false false (b.ptpMsg n 9 (ptpDom l p) false (ptpCorr l p - t % 65536) (ptpSeq l p) 3
    (b.geti (LAN_D_CFG_DRLOG d)) (timeBytes t ++ senderBytes l p))

/-- A message of a domain served by a SLAVE port. -/
def Block.slaveRx (b : Block) (n d : Nat) (f : InFrame) (p : PtpAt) : Block :=
  let t := ptpType f.bytes p
  match b.masterOf n d f.bytes p with
  | none => b.ptpCount n 3
  | some k =>
    if t = 0 then b.syncRx d k f p
    else if t = 8 then b.followRx d k f p
    else if t = 9 then b.delayRespRx n d k f p
    else if t = 3 ∨ t = 10 then b.pdelayRx n f p
    else if ptpEvent t then b
    else b.ptpCount n 3

/-- A message of a domain served by the port, by the port's role (Table 11-2). -/
def Block.roleRx (b : Block) (n d role : Nat) (f : InFrame) (p : PtpAt) : Block :=
  let t := ptpType f.bytes p
  if t = 2 then b.pdelayAnswer n d f p
  else if role = 4 then b.pdelayRx n f p
  else if t = 11 ∨ t = 12 ∨ t = 13 then b.deliverHost { f with cls := b.get (MAC_PTP_HCLASS n) }
  else if role = 1 then b.slaveRx n d f p
  else if t = 1 then b.delayAnswer n d f p
  else if t = 3 ∨ t = 10 then b.pdelayRx n f p
  else b.ptpCount n 3

/-- A PTP message of a served domain has been received. -/
def Block.ptpRx (b : Block) (f : InFrame) : Block :=
  let n := f.src
  match ptpOf b.etype f.bytes with
  | none => b.toCore f
  | some p =>
    match b.ptpDomain n f.bytes p with
    | none => b.toCore f
    | some d =>
      let role := b.get (MAC_PTP_ROLE n)
      if role = 1 ∨ role = 2 ∨ (role = 4 ∧ ptpPdelay (ptpType f.bytes p)) then
        if b.flag (MAC_PTP_AUTHRX n) && !b.authOk f.bytes p then
          (b.ptpCount n 2).domCause (LAN_D_CAUSE_AUTHF (d - 1))
        else b.roleRx n (d - 1) role f p
      else b.toCore f

/-- PTP_MESSAGE_RX: the message at the head of the network time unit's queue. -/
def execPtpMessageRx (s : State) : Host.Outcome State Fault Refusal :=
  done s fun b =>
    match b.ptp.rx with
    | [] => b
    | f :: r => Block.ptpRx ({ b with ptp := { b.ptp with rx := r } }).domSync f

/-! ### Steering switches (R381 to R383) -/

/-- DOM takes effect: LAN_STAT.DOM shows it. -/
def Block.steerBy (b : Block) (D : Nat) : Block := ((b.put LAN_TCTL_DOM D).put LAN_STAT_DOM D).l1Shows

/-- A steering switch to domain `D` (1 or 2) is accepted. -/
def Block.steerTo (b : Block) (D : Nat) : Block :=
  let move := (b.dom (D - 1)).doff
  let b1 := (b.put LAN_TSW_FROM (b.get LAN_TCTL_DOM)).putB LAN_TSW_REFUSED false
  let b2 := (b1.steerBy D).servoTo (D - 1) 2
  let b3 := Block.putB { b2 with ptp := { b2.ptp with swTo := D, slewSeen := move } } LAN_TSW_BUSY true
  Block.requal (if b.flag SYS_CYCLE_RUN && move != 0 then b3.startSlew move .steer
    else
      let b4 := b3.stepLt move
      let b5 := { b4 with tm := { b4.tm with slewKind := .steer, jump := b4.tm.jump + move } }
      (b5.doffSync 0 move).doffSync 1 move)

/-- A steering switch is refused with a cause (R381). -/
def Block.steerRefuse (b : Block) (code : Nat) : Block :=
  ((b.putB LAN_TSW_REFUSED true).put LAN_TSW_RCODE code).domCause LAN_NTCAUSE_SWREF

/-- The switch of R381 to domain `D`. -/
def Block.steerSwitch (b0 : Block) (D : Nat) : Block :=
  let b := b0.domSync
  let cur := b.get LAN_TCTL_DOM
  if D = cur then b
  else if D = 0 then
    let b1 := ((b.put LAN_TSW_FROM cur).putB LAN_TSW_REFUSED false).steerBy 0
    (b1.mapDom (cur - 1) (fun x => { x with doff := 0, rate := 0, doffAt := b.tm.phys })).requal
  else
    let st := b.get (LAN_D_STAT_STATE (D - 1))
    if st ≠ 3 ∧ st ≠ 4 then b.steerRefuse 1
    else if b.flag LAN_ADJ_BUSY then b.steerRefuse 3
    else if b.flag SYS_CYCLE_RUN && decide (b.get LAN_TSW_LIM * nsUnit < (b.dom (D - 1)).doff.natAbs) then b.steerRefuse 2
    else b.steerTo D

/-- A write of LAN_TCTL.DOM. -/
def Block.domWrite (data : Half) (b : Block) : Block :=
  let D := data.toNat % 16
  if D ≤ 2 then b.steerSwitch D else b

/-- DOMAIN_SWITCH_WRITE. -/
def execDomainSwitchWrite (data : Half) (s : State) : Host.Outcome State Fault Refusal :=
  done s (journaled (.domainSwitchWrite data) (Block.domWrite data))

/-- STEERING_SWITCH_END: the move of a steering switch ends (R382). -/
def execSteeringSwitchEnd (s : State) : Host.Outcome State Fault Refusal :=
  done s fun b0 =>
    if b0.tm.slewKind = .steer then
      let D := b0.ptp.swTo
      let b1 := b0.domSync
      let rem := b1.tm.slewRem
      let b2 := b1.endSlew
      let b3 := Block.doffSync (b2.doffSync 0 rem) 1 rem
      let b4 := { b3 with ptp := { b3.ptp with swTo := 0, slewSeen := 0 } }
      let b5 := (b4.mapDom (D - 1) (fun x => { x with doff := 0 })).doffSync (D - 1) 0
      (((b5.putB LAN_TSW_BUSY false).servoTo (D - 1) 3).domCause LAN_NTCAUSE_SWDONE).requal
    else b0

/-! ### Masters and enables (R372, R374, R376, R377) -/

/-- The steering servo has lost its master while the other is LOCKED (R383). -/
def Block.autoSwitch (b : Block) (d : Nat) : Block :=
  if b.flag LAN_TSW_AUTO && b.steers d && b.get (LAN_D_STAT_STATE (1 - d)) == 4 then
    let b1 := b.steerSwitch (2 - d)
    if b1.steers (1 - d) then b1.domCause LAN_NTCAUSE_AUTOSW else b1
  else b

/-- The selected master of a domain has become unusable without a fallback (R374, R376). -/
def Block.noMaster (b : Block) (d : Nat) : Block :=
  if b.get (LAN_D_STAT_STATE d) ≤ 1 then b
  else ((b.servoRate d (meanInt (b.dom d).outs)).servoTo d 1).autoSwitch d

/-- The selected master of a domain is not usable, or none is selected: the fallback of R377, else NOMASTER (R374). -/
def Block.masterGone (b : Block) (d : Nat) : Block :=
  let v := b.get (LAN_D_SEL_SEL d)
  if v ≠ 0 && b.flag (LAN_D_SEL_FB d) && b.flag (useField d (2 - v)) then
    (b.put (LAN_D_SEL_SEL d) (3 - v)).domCause (LAN_D_CAUSE_FBSW d)
  else b.noMaster d

/-- MASTER_TIMEOUT: TMO ms have passed without a valid measurement of a master. -/
def execMasterTimeout (d k : Fin 2) (s : State) : Host.Outcome State Fault Refusal :=
  done s fun b0 =>
    match ((b0.dom d).master k).lastValid with
    | none => b0
    | some t =>
      if b0.flag (useField d k) then
        let b := (b0.reachPhys (t + b0.get (LAN_D_LIM_TMO d) * 1000000 * nsUnit)).domSync
        let b1 := (b.putB (useField d k) false).domCause (LAN_D_CAUSE_USECHG d)
        if b1.get (LAN_D_SEL_SEL d) = k + 1 then b1.masterGone d else b1
      else b0

/-- A write of LAN_Dd_SEL (R377). -/
def Block.selWrite (d : Nat) (data : Half) (b : Block) : Block :=
  let v := data.toNat % 4
  let b1 := (if v < 3 then b.put (LAN_D_SEL_SEL d) v else b).put (LAN_D_SEL_FB d) (data.toNat / 4 % 2)
  let sel := b1.get (LAN_D_SEL_SEL d)
  (if sel ≠ 0 && b1.flag (useField d (sel - 1)) then b1 else b1.masterGone d).l1Show d

/-- MASTER_SELECT. -/
def execMasterSelect (d : Fin 2) (data : Half) (s : State) : Host.Outcome State Fault Refusal :=
  done s (journaled (.masterSelect d data) (Block.selWrite d data))

/-- The four bits of an interval that lies in −7 to 4 (Tables 11-7 and 11-8). -/
def logOk (v : Nat) : Bool := decide (v ≤ 4) || decide (9 ≤ v)

/-- A write of LAN_Dd_CFG (R374). -/
def Block.servoWrite (d : Nat) (data : Half) (b0 : Block) : Block :=
  let b := b0.domSync
  let v := data.toNat
  let was := b.flag (LAN_D_CFG_EN d)
  let tr := v / 2 ^ 9 % 4
  let b1 := ((b.put (LAN_D_CFG_EN d) v).put (LAN_D_CFG_DNUM d) (v / 2)).put (LAN_D_CFG_TRANS d)
    (if tr < 3 then tr else b.get (LAN_D_CFG_TRANS d))
  let b2 := (((b1.put (LAN_D_CFG_DMECH d) (v / 2 ^ 11)).put (LAN_D_CFG_L1S d) (v / 2 ^ 12)).put (LAN_D_CFG_BW d)
    (v / 2 ^ 13)).put (LAN_D_CFG_DRLOG d) (if logOk (v / 2 ^ 16 % 16) then v / 2 ^ 16 else b.get (LAN_D_CFG_DRLOG d))
  let en := b2.flag (LAN_D_CFG_EN d)
  (if en && !was then b2.servoTo d 1
  else if !en && was then (b2.mapDom d (fun x => { x with rate := 0 })).servoTo d 0
  else b2).l1Show d

/-- SERVO_ENABLE. -/
def execServoEnable (d : Fin 2) (data : Half) (s : State) : Host.Outcome State Fault Refusal :=
  done s (journaled (.servoEnable d data) (Block.servoWrite d data))

/-! ### Loopback calibration (R387, R464, R472) -/

/-- Write MACn_LBK with GO. -/
def Block.loopGo (n : Nat) (data : Half) (b : Block) : Block :=
  let b1 := b.put (MAC_LBK_LOOPD n) data.toNat
  if (b.pt n).lbk || !(b.flag (MAC_CTL_EN n) && b.flag (MAC_STAT_LINK n) && !b.flag (SWC_PORT_CTL_EN n)) then
    b1.put (MAC_LBK_STATUS n) 4
  else (b1.put (MAC_LBK_STATUS n) 1).mapPt n (fun x => { x with lbk := true, probes := 0 })

/-- LOOPBACK_GO. -/
def execLoopbackGo (n : Fin 32) (data : Half) (s : State) : Host.Outcome State Fault Refusal :=
  done s (byHost (.loopbackGo n data) (Block.loopGo n data))

/-- The factory values of a port's stamp corrections. -/
def factoryCal (n : Nat) : Nat × Nat :=
  let w := (regReset (MAC_PTPCAL n)).toNat
  (w % 2 ^ 20, w / 2 ^ 20 % 2 ^ 20)

/-- LOOPBACK_DONE: the 1,024 probes of a run are through: the mean of ingress minus egress in ps, the rms of
the probes in ps, and how many were lost (R387, Table 15-2). -/
def execLoopbackDone (n : Fin 32) (mean : BitVec 32) (rms lost : Nat) (dt : Nat) (s : State) :
    Host.Outcome State Fault Refusal :=
  done s fun b0 =>
    let b := b0.advanceNs dt
    if !(b.pt n).lbk || decide ((b.pt n).probes < 1024) then b
    else
      let r : Int := (mean.toNat : Int) - b.get (MAC_LBK_LOOPD n)
      let (ft, fr) := factoryCal n
      let half := (r - ((ft + fr : Nat) : Int)) / 2
      let b1 := b.puti (MAC_LBK_RESULT n) r
      if 500 < (r - ((ft + fr : Nat) : Int)).natAbs then b1.loopEnd n 3 1
      else if 25 < rms ∨ 16 < lost then b1.loopEnd n 3 2
      else ((b1.puti (MAC_PTPCAL_TXCAL n) (ft + half)).puti (MAC_PTPCAL_RXCAL n) (fr + half)).loopEnd n 2 0

end Sys2Proof.Machine
end

