-- ==== Sys2Proof/Machine/Compass.lean ====
section
/-! DEFINITION. The Compass: inputs, selection, switches, the loop and holdover (R396 to R410, R417 to R419). Stamps
and phases are in femtoseconds, frequencies in 2^-40. -/

namespace Sys2Proof.Machine

/-- Change the Compass's own state. -/
def Block.mapCmp (b : Block) (f : CmpSt → CmpSt) : Block := { b with cps := f b.cps }

/-- Replace input `k`. -/
def Block.mapIn (b : Block) (k : Nat) (f : InputSt → InputSt) : Block :=
  b.mapCmp (fun c => { c with ins := vmod c.ins k f })

/-- Input `k`. -/
def Block.inp (b : Block) (k : Nat) : InputSt := b.cps.ins[k]?.getD InputSt.reset

/-- State of input `k` (Table 12-2). -/
def Block.inState (b : Block) (k : Nat) : Nat := b.get (CMP_IN_STAT_STATE k)

/-- FREQ of input `k`. -/
def Block.inFreq (b : Block) (k : Nat) : Int := b.geti (CMP_IN_FREQ_FREQ k)

/-- Nominal time between comparisons of a source, in fs (Table 12-1). -/
def compPeriod (src : Nat) : Int := if src = 1 then 10 ^ 15 else 12800000000

/-- Phase period P of a source, in fs (Table 12-1). -/
def phasePeriod (src : Nat) : Int := if src = 0 then 100000000 else if src = 1 then 10 ^ 15 else 6400000

/-- The measuring window of FREQ in fs (R398). -/
def freqWindow (src : Nat) : Int := if src = 1 then 16 * 10 ^ 15 else 10 ^ 15

/-- The slope of the least-squares line through points, in units of 1/`unit`, truncated (R398, R409). -/
def leastSquares (pts : List (Int × Int)) (unit : Int) : Option Int :=
  let n : Int := pts.length
  let sx := (pts.map (·.1)).sum
  let sy := (pts.map (·.2)).sum
  let sxx := (pts.map (fun p => p.1 * p.1)).sum
  let sxy := (pts.map (fun p => p.1 * p.2)).sum
  let den := n * sxx - sx * sx
  if den = 0 then none else some ((n * sxy - sx * sy) * unit / den)

/-- Number the comparisons of a window: nominal time against the lead of the stamp. -/
def leadPoints (t : Int) : List Int → Int → List (Int × Int)
  | [], _ => []
  | s :: r, n => (n * t, n * t - s) :: leadPoints t r (n - 1)

/-- FREQ from the stamps of a full window, newest first (R398): positive when the input is fast. -/
def freqOf (src : Nat) (stamps : List Int) : Option Int :=
  match stamps, stamps.getLast? with
  | s :: _, some o =>
    if freqWindow src ≤ s - o + compPeriod src then
      leastSquares (leadPoints (compPeriod src) stamps stamps.length) (2 ^ 40)
    else none
  | _, _ => none

/-- Keep the stamps of the latest window. -/
def trimStamps (src : Nat) (l : List Int) : List Int :=
  match l with
  | [] => []
  | s :: _ => l.takeWhile (fun x => s - x < freqWindow src)

/-- The phase departure of a stamp from the one that the previous stamp and FREQ predict, over `n` = 1
comparison (R401). -/
def hitStep (src : Nat) (freq prev stamp : Int) : Int :=
  stamp - prev - compPeriod src * 2 ^ 40 / (2 ^ 40 + freq)

/-- The phase departure on return, modulo P (R401). -/
def hitReturn (src : Nat) (freq prev stamp : Int) : Int :=
  let p := phasePeriod src
  let e := stamp - prev
  (e + e * freq / 2 ^ 40 + p / 2) % p - p / 2

/-- A departure is a phase hit on input `k`. -/
def Block.isHit (b : Block) (k : Nat) (d : Int) : Bool :=
  decide ((b.get (CMP_IN_CFG_PHIT k) * 10 ^ 6 : Nat) < d.natAbs)

/-! ### The prediction (R409) -/

/-- Whole seconds since power-on. -/
def Block.nowSec (b : Block) : Nat := b.physNs / 10 ^ 9

/-- The mean of a list, truncated. -/
def meanOf (l : List Int) : Option Int := if l = [] then none else some (l.sum / l.length)

/-- The window of ȳ that ends 10 s before the present: its mean and its middle (R409). -/
def Block.window (b : Block) : Int × Nat :=
  let h := b.get CMP_HCFG_HAVG
  let e := b.nowSec - 10
  let m := meanOf ((b.cps.hist.filter (fun p => p.1 < e && e ≤ p.1 + h)).map (·.2))
  (m.getD (b.geti CMP_OUTFREQ_FREQ), e - h / 2)

/-- D in 2^-40 per day (R409). -/
def Block.drift (b : Block) : Int :=
  if b.flag CMP_STAT_DVALID then
    let from_ := b.nowSec - b.get CMP_HCFG_DWIN * 3600
    let pts := (b.cps.hist.filter (fun p => from_ ≤ p.1)).map (fun p => ((p.1 : Int), p.2))
    (leastSquares pts 86400).getD 0
  else 0

/-- y_pred (R409). -/
def Block.yPred (b : Block) : Int :=
  let st := b.get CMP_STAT_STATE
  if b.flag CMP_STAT_HVALID then
    let (y, m) := b.cps.frozen.getD b.window
    y + b.drift * ((b.nowSec : Int) - m) / 86400
  else if st = 1 ∨ st = 2 then b.cps.lastSec
  else b.geti CMP_FRTRIM_TRIM

/-- CMP_PRED shows y_pred and D. -/
def Block.predShow (b : Block) : Block := (b.puti CMP_PRED_YPRED b.yPred).puti CMP_PRED_DRIFT b.drift

/-! ### States of the Compass and of its inputs (R400, R402) -/

/-- The Compass takes a state: CAUSE, COMPASS_STATE, HOLDOVER at its entry and exit, and QUAL. -/
def Block.cmpGo (b : Block) (st : Nat) : Block :=
  let old := b.get CMP_STAT_STATE
  if old = st then b
  else
    let b1 := ((b.put CMP_STAT_STATE st).putB CMP_CAUSE_STATE true).raise evCompassState
    let b2 := if st = 3 then
        Block.raise ((((b1.putB CMP_CAUSE_HOLDIN true).put CMP_HTIME_SEC 0).mapCmp (fun c => { c with holdAt := b.tm.phys }))) evHoldover
      else if old = 3 then (b1.putB CMP_CAUSE_HOLDOUT true).raise evHoldover
      else b1
    let b3 := if st = 1 then b2.mapCmp (fun c => { c with acqAt := b.tm.phys }) else b2
    b3.predShow.requal.l1Shows

/-- The loop takes a stage; leaving stage 3 ends HVALID and DVALID, entering it starts them (R403, R409). -/
def Block.stageGo (b : Block) (n : Nat) : Block :=
  let b1 := b.put CMP_STAT_STAGE n
  if n = 3 then
    if b1.cps.stage3At.isSome then b1
    else b1.mapCmp (fun c => { c with stage3At := some b.tm.phys, hourAt := b.tm.phys })
  else
    ((b1.putB CMP_STAT_HVALID false).putB CMP_STAT_DVALID false).mapCmp (fun c => { c with stage3At := none })

/-- The state and stage of the Compass change: at once, or in a synchronised pair at the journal time (R509). -/
def Block.cmpTo (b : Block) (st n : Nat) : Block :=
  if b.synced then b.journalItem (.cmpState st n) else ((b.stageGo n).cmpGo st).requal

/-- Steering (R402, R409): at once, or in a synchronised pair at the journal time. -/
def Block.steer (b : Block) (f : Int) : Block :=
  if b.synced then b.journalItem (.steer f) else b.puti CMP_OUTFREQ_FREQ f

/-- Input `k` takes a state: CAUSE, INPUT and COMPASS_STATE; qualification and WTR count from now (R400). -/
def Block.inGo (b : Block) (k st : Nat) : Block :=
  if b.inState k = st then b
  else
    ((((b.put (CMP_IN_STAT_STATE k) st).putB CMP_CAUSE_INCHG true).put CMP_CAUSE_INPUT k).mapIn k (fun x =>
      { x with qualAt := b.tm.phys })).raise evCompassState

/-- The channel of an input (R50 kind 6). -/
def inChan (k : Nat) : Channel := { kind := 6, idx := k }

/-- A strike on input `k`; at its threshold the input is retired, else it goes to `st` (R400, R401). -/
def Block.inStrike (b : Block) (k st : Nat) : Block :=
  let c := inChan k
  let ret := b.retires c
  let b1 := if b.strikeCounts c then ((b.strike c).putB CMP_CAUSE_STRIKE true).put CMP_CAUSE_INPUT k else b
  if ret then
    ((((b1.retire c).putB CMP_CAUSE_RETIRE true).putB (CMP_IN_STAT_RETIRED k) true).raise evCompassState).inGo k 6
  else b1.inGo k st

/-- Restart the qualification of input `k`. -/
def Block.requalify (b : Block) (k : Nat) : Block := b.mapIn k (fun x => { x with qualAt := b.tm.phys })

/-! ### Selection (R404, R405, R407) -/

/-- The Compass decides: it is no follower, and the OCXO is there (R437, R509). -/
def Block.decides (b : Block) : Bool := b.holder && b.cps.haltAt.isNone

/-- The candidates: QUALIFIED inputs of RANK 0 to 14. -/
def Block.candidates (b : Block) : List Nat :=
  (List.range 8).filter (fun k => b.inState k == 4 && decide (b.get (CMP_IN_CFG_RANK k) ≤ 14))

/-- Two frequencies differ by more than AGREE. -/
def Block.disagree (b : Block) (x y : Int) : Bool := decide (b.get CMP_CFG_AGREE < (x - y).natAbs)

/-- The candidates of the most preferred rank. -/
def Block.topRank (b : Block) (c : List Nat) : List Nat :=
  c.filter (fun k => c.all (fun m => decide (b.get (CMP_IN_CFG_RANK k) ≤ b.get (CMP_IN_CFG_RANK m))))

/-- Those of a list that disagree with another of it. -/
def Block.concerned (b : Block) (t : List Nat) : List Nat :=
  t.filter (fun k => t.any (fun m => b.disagree (b.inFreq k) (b.inFreq m)))

/-- Show a disagreement; at its onset DISAG, REF_DISAGREE and the counters (R407). -/
def Block.disagShow (b : Block) (conc : List Nat) : Block :=
  let fresh := conc.filter (fun k => !b.flag (CMP_IN_STAT_DISAG k))
  let b1 := (List.range 8).foldl (fun c k => c.putB (CMP_IN_STAT_DISAG k) (conc.contains k))
    (b.putB CMP_STAT_DISAG !conc.isEmpty)
  match fresh with
  | [] => b1
  | k :: _ =>
    let other := (conc.find? (fun m => b.disagree (b.inFreq k) (b.inFreq m))).getD k
    let b2 := fresh.foldl (fun c m => c.countUp (CMP_IN_CNT m 4) 1) b1
    (((b2.putB CMP_CAUSE_DISAG true).put CMP_CAUSE_INPUT k).put CMP_CAUSE_DISB other).raise evRefDisagree

/-- The input of a list nearest to a frequency, the lower number first. -/
def Block.nearest (b : Block) (y : Int) : List Nat → Option Nat
  | [] => none
  | k :: r =>
    match b.nearest y r with
    | some m => if (b.inFreq k - y).natAbs ≤ (b.inFreq m - y).natAbs then some k else some m
    | none => some k

/-- The most preferred of a list, `sel` before its equals. -/
def Block.preferred (b : Block) (sel : Option Nat) (c : List Nat) : Option Nat :=
  let t := b.topRank c
  match sel with
  | some k => if t.contains k then some k else t.head?
  | none => t.head?

/-- One evaluation of the candidates (R404, R407): the eligible targets. Where a disagreement disqualifies inputs,
it is made again; `fuel` bounds that. -/
def Block.eligible (b : Block) (sel : Option Nat) : Nat → Block × List Nat
  | 0 => (b, [])
  | fuel + 1 =>
    let c := b.candidates
    let t := b.topRank c
    let conc := b.concerned t
    let b1 := b.disagShow conc
    if conc.isEmpty then (b1, c)
    else match sel.filter t.contains with
      | some k => (b1, c.filter (fun m => m == k || !t.contains m))
      | none =>
        match b1.nearest b1.yPred t with
        | none => (b1, [])
        | some k =>
          if b1.disagree (b1.inFreq k) b1.yPred then
            Block.eligible (conc.foldl (fun x m => (x.inGo m 5).put (CMP_IN_STAT_DCAUSE m) 4) b1) sel fuel
          else (b1, k :: c.filter (fun m => !t.contains m))

/-- The selected input. -/
def Block.selected (b : Block) : Option Nat :=
  if b.get CMP_STAT_SEL < 8 then some (b.get CMP_STAT_SEL) else none

/-- A switch is decided (R405). -/
def Block.decideTo (b : Block) (target : Option Nat) (kindA : Bool) : Block :=
  let b1 := ((b.putB CMP_STAT_SWPEND true).put CMP_STAT_TARGET (target.getD 0xE)).raise evCompassState
  let b2 := b1.mapCmp (fun c => { c with
    decideAt := some b.tm.phys, kindA := kindA, bridge := c.bridge || kindA
    frozen := if kindA then some b.window else c.frozen })
  if kindA then (b2.predShow).steer b2.yPred else b2

/-- The inputs of lower RANK than the selected one that have been QUALIFIED for WTR s (R404 c). -/
def Block.restorable (b : Block) (sel : Nat) (l : List Nat) : List Nat :=
  l.filter (fun k => decide (b.get (CMP_IN_CFG_RANK k) < b.get (CMP_IN_CFG_RANK sel)) &&
    decide ((b.inp k).qualAt + b.get CMP_CFG_WTR * 10 ^ 9 * nsUnit ≤ b.tm.phys))

/-- Seconds left until an instant, rounded up. -/
def Block.secsLeft (b : Block) (t : Nat) : Nat := ceilDiv (t - b.tm.phys) (10 ^ 9 * nsUnit)

/-- TLEFT and WTR of one input (Table 12-9). -/
def Block.timerShow (b : Block) (k : Nat) : Block :=
  let x := b.inp k
  let wtr := b.flag CMP_CFG_REVERT && b.inState k == 4 &&
    (match b.selected with
      | some s => decide (b.get (CMP_IN_CFG_RANK k) < b.get (CMP_IN_CFG_RANK s)) &&
          decide (b.tm.phys < x.qualAt + b.get CMP_CFG_WTR * 10 ^ 9 * nsUnit)
      | none => false)
  let left := if b.inState k = 3 then b.secsLeft (x.qualAt + b.get CMP_CFG_QTIME * 10 ^ 9 * nsUnit)
    else if wtr then b.secsLeft (x.qualAt + b.get CMP_CFG_WTR * 10 ^ 9 * nsUnit) else 0
  (b.putB (CMP_IN_STAT_WTR k) wtr).put (CMP_IN_STAT_TLEFT k) left

/-- One evaluation of selection (R404, R405): a pending target is chosen again, or a switch is decided; the loss of the selected
input under (a) also while a switch of another kind is pending. -/
def Block.cmpEval (b : Block) : Block :=
  let b0 := (List.range 8).foldl Block.timerShow b
  if !b0.decides then b0
  else if b0.flag CMP_STAT_SWPEND then
    if b0.cps.decideAt.isNone then b0
    else
      let (b1, l) := b0.eligible none 9
      let t := (b1.preferred none l).getD 0xE
      if !b1.cps.kindA && (match b1.selected with | some s => b1.inState s != 4 | none => false) then
        b1.decideTo (b1.preferred none l) true
      else if t = b1.get CMP_STAT_TARGET then b1
      else (b1.put CMP_STAT_TARGET t).mapCmp (fun c => { c with decideAt := some b1.tm.phys })
  else
    let sel := b0.selected
    let (b1, l) := b0.eligible sel 9
    match sel with
    | none => match b1.preferred none l with
      | some t => b1.decideTo (some t) false
      | none => b1
    | some s =>
      if b1.inState s ≠ 4 then b1.decideTo (b1.preferred none l) true
      else if b1.flag CMP_CFG_REVERT then
        match b1.preferred none (b1.restorable s l) with
        | some t => b1.decideTo (some t) false
        | none => b1
      else b1

/-- SELECTION_EVAL: the next millisecond (R404). -/
def execSelectionEval (s : State) : Host.Outcome State Fault Refusal :=
  done s fun b => (b.reachPhys ((b.tm.phys / (1000000 * nsUnit) + 1) * (1000000 * nsUnit))).cmpEval

/-! ### Inputs (R398, R400, R401) -/

/-- FREQ of one input is measured again, and its state follows its limits (R398, R400). -/
def Block.freqUpdate (b : Block) (k : Nat) : Block :=
  match freqOf (b.get (CMP_IN_CFG_SRC k)) (b.inp k).stamps with
  | none => b
  | some f =>
    let b1 := (b.puti (CMP_IN_FREQ_FREQ k) (satSigned 32 f)).putB (CMP_IN_FREQ_VALID k) true
    let over_ := decide (b1.get (CMP_IN_LIM_LIM k) < (b1.inFreq k).natAbs)
    let st := b1.inState k
    if (st = 3 ∨ st = 4) ∧ over_ then (b1.inGo k 1).put (CMP_IN_STAT_DCAUSE k) 3
    else if st = 1 ∧ !over_ ∧ !(b1.inp k).absent then b1.inGo k 3
    else if st = 5 ∧ !b1.disagree (b1.inFreq k) b1.yPred then b1.inGo k 3
    else b1

/-- FREQ_UPDATE: the next millisecond for the clock inputs; with `pps`, after a pulse, for the inputs on PPS_IN. -/
def execFreqUpdate (pps : Bool) (s : State) : Host.Outcome State Fault Refusal :=
  done s fun b0 =>
    if b0.cps.haltAt.isSome then b0
    else
      let b := if pps then b0 else b0.reachPhys ((b0.tm.phys / (1000000 * nsUnit) + 1) * (1000000 * nsUnit))
      let ks := (List.range 8).filter (fun k => b.flag (CMP_IN_CFG_EN k) && (b.get (CMP_IN_CFG_SRC k) == 1) == pps)
      (ks.foldl Block.freqUpdate b).cmpEval

/-- A phase hit on input `k` (R400, R401). -/
def Block.phaseHit (b : Block) (k : Nat) : Block :=
  let b1 := b.countUp (CMP_IN_CNT k 2) 1
  let b2 := if b.inState k = 3 then b1.requalify k else b1.put (CMP_IN_STAT_DCAUSE k) 2
  b2.inStrike k 3

/-- The bandwidth of the loop in 10^-6 Hz (R403, Table 12-4). -/
def Block.bandwidth (b : Block) (src : Nat) : Nat :=
  let st := b.get CMP_STAT_STAGE
  let w := if st = 0 then 200000000 else if st = 1 then 20000000 else if st = 2 then 2000000
    else if Config.variant.getLsbD 0 then 10000 else 100000
  min w (if src = 1 then 50000 else 3906250000)

/-- The largest phase error of a stage's dwell, in fs (Tables 12-3 and 12-4). -/
def dwellLimit (stage : Nat) : Nat := if stage = 0 then 50000000 else if stage = 1 then 20000000 else 5000000

/-- The dwell of a stage, in ns. -/
def dwellTime (stage : Nat) : Nat := if stage = 0 then 500000000 else if stage = 1 then 2000000000 else 20000000000

/-- The loop takes one comparison of the selected input (R402, R403). -/
def Block.loopTake (b : Block) (k : Nat) (phase : Int) : Block :=
  let b1 := b.puti CMP_PHERR_PHERR (satSigned 32 (phase / 1000))
  let within := decide (phase.natAbs ≤ dwellLimit (b.get CMP_STAT_STAGE))
  let (f, i) := Config.loopStep (b.bandwidth (b.get (CMP_IN_CFG_SRC k))) phase b.cps.integ
  let b2 := (b1.mapCmp (fun c => { c with
    integ := i, sum := c.sum + f, num := c.num + 1
    dwellAt := if within then some (c.dwellAt.getD b.tm.phys) else none })).steer f
  if b2.get CMP_STAT_STATE = 2 ∧ 1000000000 < phase.natAbs then
    (b2.mapCmp (fun c => { c with dwellAt := none })).cmpTo 1 0
  else b2

/-- COMPARISON_EDGE: an edge of input `k` is stamped at `stamp` on the OCXO time base, with its phase against
the output (R398, R401, R408). While the TIC PLL is in HOLD the comparison is invalid (R453). -/
def execComparisonEdge (k : Fin 8) (stamp phase : Int) (dt : Nat) (s : State) : Host.Outcome State Fault Refusal :=
  done s fun b0 =>
    let b := b0.advanceNs dt
    let st := b.inState k
    let x := b.inp k
    if !b.flag (CMP_IN_CFG_EN k) || b.pllState 1 == 5 || b.cps.haltAt.isSome || (x.absent && (st == 2 || st == 3)) then b
    else
      let src := b.get (CMP_IN_CFG_SRC k)
      let hit := (st == 3 || st == 4) && (match x.stamps with
        | p :: _ => b.isHit k (hitStep src (b.inFreq k) p stamp)
        | [] => false)
      let b1 := b.mapIn k (fun y => { y with absent := false, stamps := trimStamps src (stamp :: y.stamps), phase := phase })
      let b2 := if hit then (b1.phaseHit k).cmpEval else b1
      if b2.decides && b2.selected == some k.val && !b2.cps.bridge && (b2.get CMP_STAT_STATE == 1 || b2.get CMP_STAT_STATE == 2)
      then b2.loopTake k phase else b2

/-- INPUT_ABSENCE: the absence of input `k` is detected (R400, Table 12-1). -/
def execInputAbsence (k : Fin 8) (dt : Nat) (s : State) : Host.Outcome State Fault Refusal :=
  done s fun b0 =>
    let b := b0.advanceNs dt
    if !b.flag (CMP_IN_CFG_EN k) || (b.inp k).absent then b
    else
      let b1 := b.mapIn k (fun x => { x with absent := true, absentAt := b.tm.phys })
      if b1.inState k = 4 then Block.cmpEval ((b1.countUp (CMP_IN_CNT k 0) 1).inGo k 2)
      else if b1.inState k = 3 then b1.requalify k
      else b1.mapIn k (fun x => { x with stamps := [] })

/-- The pending switch is aborted (R406). -/
def Block.switchAbort (b : Block) : Block :=
  Block.raise ((((b.putB CMP_STAT_SWPEND false).put CMP_STAT_TARGET 0xF).putB CMP_CAUSE_ABORT true).mapCmp (fun c =>
    { c with decideAt := none, bridge := false, frozen := none, integ := b.geti CMP_OUTFREQ_FREQ })) evCompassState

/-- INPUT_RETURN: the signal of input `k` returns within 1 ms (R400, R401, R406). -/
def execInputReturn (k : Fin 8) (stamp phase : Int) (dt : Nat) (s : State) : Host.Outcome State Fault Refusal :=
  done s fun b0 =>
    let b := b0.advanceNs dt
    let x := b.inp k
    let st := b.inState k
    if !x.absent || x.absentAt + 1000000 * nsUnit ≤ b.tm.phys || !(st == 2 || st == 3) then b
    else
      let hit := st == 2 && (match x.stamps with
        | p :: _ => b.isHit k (hitReturn (b.get (CMP_IN_CFG_SRC k)) (b.inFreq k) p stamp)
        | [] => false)
      let b1 := b.mapIn k (fun y => { y with absent := false, stamps := [stamp], phase := phase })
      if st == 3 then b1.requalify k
      else if hit then (b1.phaseHit k).cmpEval
      else
        let b2 := b1.inGo k 4
        (if b2.decides && b2.flag CMP_STAT_SWPEND && b2.cps.decideAt.isSome && b2.cps.kindA && b2.selected == some k.val
          then b2.switchAbort else b2).cmpEval

/-- DROPOUT_EXPIRE: the absence of input `k` reaches 1 ms: LOS, a strike (R400). -/
def execDropoutExpire (k : Fin 8) (s : State) : Host.Outcome State Fault Refusal :=
  done s fun b0 =>
    let x := b0.inp k
    if !x.absent || !(b0.inState k == 2 || b0.inState k == 3) then b0
    else
      let b := b0.reachPhys (x.absentAt + 1000000 * nsUnit)
      let b1 := ((b.countUp (CMP_IN_CNT k 1) 1).put (CMP_IN_STAT_DCAUSE k) 1).mapIn k (fun y => { y with stamps := [] })
      ((b1.putB (CMP_IN_FREQ_VALID k) false).inStrike k 1).cmpEval

/-- INPUT_QUALIFY: QTIME s of qualification have passed cleanly (R400). -/
def execInputQualify (k : Fin 8) (s : State) : Host.Outcome State Fault Refusal :=
  done s fun b0 =>
    let x := b0.inp k
    if b0.inState k ≠ 3 || x.absent then b0
    else
      let b := b0.reachPhys (x.qualAt + b0.get CMP_CFG_QTIME * 10 ^ 9 * nsUnit)
      if (b.inFreq k).natAbs ≤ b.get (CMP_IN_LIM_LIM k) then (b.inGo k 4).cmpEval else b

/-- A write of CMP_INk_CFG (R400, R419): SRC and LANE only while EN is 0; SRC 3 and PHIT 0 are reserved. -/
def Block.inCfg (k : Nat) (data : Half) (b : Block) : Block :=
  let d := data.toNat
  let en := b.flag (CMP_IN_CFG_EN k)
  let b1 := if en then b else
    let b' := if d / 2 % 4 ≤ 2 then b.put (CMP_IN_CFG_SRC k) (d / 2) else b
    b'.put (CMP_IN_CFG_LANE k) (d / 8)
  let b2 := b1.put (CMP_IN_CFG_RANK k) (d / 2 ^ 8)
  let b3 := (if d / 2 ^ 12 % 2 ^ 16 = 0 then b2 else b2.put (CMP_IN_CFG_PHIT k) (d / 2 ^ 12)).put (CMP_IN_CFG_EN k) d
  let b4 := if !en && bitAt d 0 then
      (b3.mapIn k (fun _ => InputSt.reset)).inGo k (if b3.flag (CMP_IN_STAT_RETIRED k) then 6 else 1)
    else if en && !bitAt d 0 then ((b3.mapIn k (fun _ => InputSt.reset)).putB (CMP_IN_FREQ_VALID k) false).inGo k 0
    else b3
  b4.cmpEval

/-- INPUT_ENABLE. -/
def execInputEnable (k : Fin 8) (data : Half) (s : State) : Host.Outcome State Fault Refusal :=
  done s (byHost (.inputEnable k data) (Block.inCfg k data))

/-- Writing 1 to CMP_INk_STAT.RETIRED (R49, R400). -/
def Block.inUnretire (k : Nat) (b : Block) : Block :=
  if b.flag (CMP_IN_STAT_RETIRED k) then
    let b1 := (b.putB (CMP_IN_STAT_RETIRED k) false).unretire (inChan k)
    if b1.inState k = 6 then (b1.inGo k 1).cmpEval else b1
  else b

/-- INPUT_RETIRE_CLEAR. -/
def execInputRetireClear (k : Fin 8) (s : State) : Host.Outcome State Fault Refusal :=
  done s (byHost (.inputRetireClear k) (Block.inUnretire k))

/-! ### Switches (R402, R405, R408) -/

/-- A phase reduced into [−P/2, P/2). -/
def reducePhase (p x : Int) : Int := (x + p / 2) % p - p / 2

/-- A phase step of `phi` fs (R108, R435): its whole multiple of 320 ns reaches the timebases at once, the
remainder is slewed; the time scale takes the opposite of each part and so runs on. -/
def Block.phaseStep (b : Block) (phi : Int) : Block :=
  let r := reducePhase 320000000 phi
  let b1 := b.slewTouch.outsStep (unitsOfFs (phi - r))
  let b2 := b1.slewAdd r
  (b2.puti LAN_STEPM_STEP (satSigned 32 (phi * 65536 / 10 ^ 6))).incMod LAN_STEPM_CNT 1

/-- A commit takes effect (R405): SEL takes the target (0xE holdover), the loop is retargeted, state and stage
follow Table 12-3. -/
def Block.commitNow (b : Block) (target : Nat) (phi : Int) (st stage : Nat) : Block :=
  let b1 := ((b.put CMP_STAT_SEL (if target < 8 then target else 0xF)).putB CMP_STAT_SWPEND false).put CMP_STAT_TARGET 0xF
  let b2 := (b1.putB CMP_CAUSE_COMMIT true).raise evCompassState
  let b3 := b2.mapCmp (fun c => { c with
    decideAt := none, bridge := false, dwellAt := none, integ := b.geti CMP_OUTFREQ_FREQ
    frozen := if target < 8 then none else c.frozen })
  let b4 := if target < 8 then (b3.countUp (CMP_IN_CNT target 3) 1).phaseStep phi else b3
  ((b4.stageGo stage).cmpGo st).requal.l1Shows

/-- State and stage after a commit to a target (Table 12-3). -/
def Block.commitState (b : Block) (target : Nat) : Nat × Nat :=
  let st := b.get CMP_STAT_STATE
  let n := b.get CMP_STAT_STAGE
  if target < 8 then
    if (st = 2 ∨ st = 3) ∧ !b.disagree (b.inFreq target) b.yPred then (2, n) else (1, 0)
  else if b.flag CMP_STAT_HVALID then (3, n) else (4, 0)

/-- SWITCH_COMMIT: 1 ms after the decision; in a synchronised pair it acts at its journal time (R405, R509). -/
def execSwitchCommit (s : State) : Host.Outcome State Fault Refusal :=
  done s fun b0 =>
    match b0.cps.decideAt with
    | none => b0
    | some t =>
      if !b0.flag CMP_STAT_SWPEND || !b0.decides then b0
      else
        let b := b0.reachPhys (t + 1000000 * nsUnit)
        let k := b.get CMP_STAT_TARGET
        let phi := if k < 8 then reducePhase (phasePeriod (b.get (CMP_IN_CFG_SRC k))) (b.inp k).phase else 0
        let (st, n) := b.commitState k
        if b.synced then (b.mapCmp (fun c => { c with decideAt := none })).journalItem (.cmpCommit k phi st n)
        else b.commitNow k phi st n

/-- ACQUIRE_TIMEOUT: ACQUIRING has lasted 60 s (R402). -/
def execAcquireTimeout (s : State) : Host.Outcome State Fault Refusal :=
  done s fun b0 =>
    if b0.get CMP_STAT_STATE ≠ 1 || !b0.decides then b0
    else
      let b := b0.reachPhys (b0.cps.acqAt + 60 * 10 ^ 9 * nsUnit)
      match b.selected with
      | some k => if b.inState k = 4 then ((b.inGo k 3).put (CMP_IN_STAT_DCAUSE k) 5).cmpEval else b
      | none => b

/-- STAGE_ADVANCE: the dwell of the stage is met (R403): stage 0 leads to LOCKED; stage 2 waits for WARM. -/
def execStageAdvance (s : State) : Host.Outcome State Fault Refusal :=
  done s fun b0 =>
    let n := b0.get CMP_STAT_STAGE
    let st := b0.get CMP_STAT_STATE
    match b0.cps.dwellAt with
    | none => b0
    | some t =>
      if !b0.decides || b0.cps.bridge || !((st == 1 && n == 0) || (st == 2 && (n == 1 || (n == 2 && b0.flag TIC_STAT_WARM)))) then b0
      else ((b0.reachPhys (t + dwellTime n * nsUnit)).mapCmp (fun c => { c with dwellAt := none })).cmpTo 2 (n + 1)

/-- HOLDOVER_TIMEOUT: HOLDOVER has lasted MAXT s (R402). -/
def execHoldoverTimeout (s : State) : Host.Outcome State Fault Refusal :=
  done s fun b =>
    if b.get CMP_STAT_STATE ≠ 3 || b.get CMP_HCFG_MAXT = 0 || !b.decides then b
    else (b.reachPhys (b.cps.holdAt + b.get CMP_HCFG_MAXT * 10 ^ 9 * nsUnit)).cmpTo 4 0

/-! ### Holdover (R409, R410) -/

/-- FRTRIM_UPDATE: an hour at stage 3 has passed (R410). -/
def execFrtrimUpdate (s : State) : Host.Outcome State Fault Refusal :=
  done s fun b0 =>
    if b0.cps.stage3At.isNone || b0.get CMP_STAT_STATE ≠ 2 then b0
    else
      let b := b0.reachPhys (b0.cps.hourAt + 3600 * 10 ^ 9 * nsUnit)
      let l := (b.cps.hist.filter (fun p => b.nowSec ≤ p.1 + 3600)).map (·.2)
      (b.puti CMP_FRTRIM_TRIM ((meanOf l).getD (b.geti CMP_OUTFREQ_FREQ))).mapCmp (fun c => { c with hourAt := b.tm.phys })

/-- HVALID and DVALID follow the time at stage 3 (R409). -/
def Block.validShow (b : Block) : Block :=
  match b.cps.stage3At with
  | none => b
  | some t =>
    let b1 := if b.flag TIC_STAT_WARM && decide (t + b.get CMP_HCFG_HAVG * 10 ^ 9 * nsUnit ≤ b.tm.phys) then
      b.putB CMP_STAT_HVALID true else b
    if t + b.get CMP_HCFG_DWIN * 3600 * 10 ^ 9 * nsUnit ≤ b.tm.phys then b1.putB CMP_STAT_DVALID true else b1

/-- HOLDOVER_PREDICTION_UPDATE: a second ends. The mean of its output frequency joins the windows at stage 3,
y_pred is computed again, and the output follows it in HOLDOVER or CMP_FRTRIM in FREE_RUN (R402, R409). -/
def execHoldoverPredictionUpdate (s : State) : Host.Outcome State Fault Refusal :=
  done s fun b0 =>
    if b0.cps.haltAt.isSome then b0
    else
      let b := b0.reachPhys ((b0.tm.phys / (10 ^ 9 * nsUnit) + 1) * (10 ^ 9 * nsUnit))
      let m := if b.cps.num = 0 then b.geti CMP_OUTFREQ_FREQ else b.cps.sum / b.cps.num
      let st := b.get CMP_STAT_STATE
      let keep := b.get CMP_HCFG_DWIN * 3600 + b.get CMP_HCFG_HAVG + 11
      let b1 := b.mapCmp (fun c => { c with
        lastSec := m, sum := 0, num := 0
        hist := if st = 2 ∧ c.stage3At.isSome then ((b.nowSec, m) :: c.hist).filter (fun p => b.nowSec ≤ p.1 + keep) else c.hist })
      let b2 := b1.validShow.predShow
      if st = 3 then
        let b3 := b2.incSat CMP_HTIME_SEC 1
        if b3.decides then b3.steer b3.yPred else b3
      else if st = 0 ∧ b2.decides then b2.steer (b2.geti CMP_FRTRIM_TRIM)
      else b2

/-! ### Holder and journal (R509, R510) -/

/-- This unit becomes Compass holder (R510): HOLDOVER at the holder's last stage, y_pred the frequency followed. -/
def Block.cmpHolder (b : Block) : Block :=
  let b1 := ((b.putB PAIR_STAT_HOLDER true).put CMP_STAT_SEL 0xF).putB CMP_STAT_HVALID true
  let b2 := b1.mapCmp (fun c => { c with
    frozen := some (b.geti CMP_OUTFREQ_FREQ, b.nowSec), bridge := false, decideAt := none })
  (((b2.putB CMP_STAT_SWPEND false).put CMP_STAT_TARGET 0xF).cmpGo 3).requal

/-- This unit stops being holder: it selects nothing, and shows the holder's state and stage (R509). -/
def Block.cmpFollow (b : Block) : Block :=
  let b1 := (((b.putB PAIR_STAT_HOLDER false).put CMP_STAT_SEL 0xF).putB CMP_STAT_SWPEND false).put CMP_STAT_TARGET 0xF
  b1.mapCmp (fun c => { c with decideAt := none, bridge := false })

end Sys2Proof.Machine
end

