-- ==== Sys2Proof/Machine/Pair.lean ====
section
/-! DEFINITION. The ST720 pair: claims, pair states, the Rope and its blocks, digests and health, failover,
resynchronisation and handover (R493 to R523). -/

namespace Sys2Proof.Machine

/-- Replace the pair's state. -/
def Block.mapPair (b : Block) (f : PairSt → PairSt) : Block := { b with pair := f b.pair }

/-- The pair state (Table 17-2). -/
def Block.pairState (b : Block) : Nat := b.get PAIR_STAT_STATE

/-- A state of a member of a synchronised pair (R497). -/
def memberState (st : Nat) : Bool := st == 2 || st == 4 || st == 5

/-- A state in which the uplinks are fenced (Table 17-2). -/
def fencedState (st : Nat) : Bool := st == 1 || st == 3 || st == 4 || st == 6

/-- This unit is the preferred one. PAIR_CFG is alike in both units but for UNIT (R500), so PREF names a unit. -/
def Block.isPref (b : Block) : Bool := b.get PAIR_CFG_PREF == b.get PAIR_CFG_UNIT

/-! ### Claims (R494, R495) -/

/-- A claim (Table 17-1). -/
def claimOf (act : Bool) (gen unit : Nat) : Nat := b2n act * 2 ^ 15 + gen % 2 ^ 14 * 2 + unit % 2

/-- The unit's claim follows its state, GEN and UNIT; a change raises CLAIM_CHANGE (R495). -/
def Block.claimShow (b : Block) : Block :=
  let c := claimOf (b.pairState == 2 || b.pairState == 5) b.pair.gen (b.get PAIR_CFG_UNIT)
  let b1 := b.putB PAIR_STAT_GENSAT (b.pair.gen == 0x3FFF)
  if c = b.get PAIR_STAT_CLAIM then b1
  else ((b1.put PAIR_STAT_CLAIM c).putB PAIR_CAUSE_CLAIM true).raise evClaimChange

/-- GEN increments, at most to 0x3FFF. -/
def Block.genUp (b : Block) : Block := b.mapPair (fun p => { p with gen := min 0x3FFF (p.gen + 1) })

/-! ### States (R496, R497, R507 to R510) -/

/-- Whether this unit is the Compass holder in a pair state, its partner being in another (R509). -/
def Block.holdsIn (b : Block) (st : Nat) : Bool :=
  let ch := b.get PAIR_CFG_CHOLD
  if ch = 0 then st == 2 || st == 5
  else if ch = b.get PAIR_CFG_UNIT + 1 then memberState st
  else st == 2

/-- The Compass follows a change of holder (R509, R510): a unit that becomes holder takes over in HOLDOVER, unless
it runs its own Compass into SOLO from LINKING. -/
def Block.holderShow (b : Block) (old : Nat) : Block :=
  let now := b.holdsIn b.pairState
  if now && !b.flag PAIR_STAT_HOLDER then
    if old = 1 then b.putB PAIR_STAT_HOLDER true else b.cmpHolder
  else if !now && memberState b.pairState then b.cmpFollow
  else if !now then b.putB PAIR_STAT_HOLDER false
  else b

/-- The supervisor's fence and PAIR_ALIVE_OUT where the unit enters a state (R507, R508): the fence lifts on entry to
SOLO, ACTIVE or OFF unless PWR_FAIL holds it. -/
def Block.fenceShow (b : Block) : Block :=
  if fencedState b.pairState then b
  else b.mapPair (fun p => { p with fence := b.pw.failAt.isSome, alive := b.pw.failAt.isNone })

/-- Enter a pair state (R496): the cause, the event, the holder, the fence, and a control block to the partner. -/
def Block.pairGo (b : Block) (st : Nat) : Block :=
  let old := b.pairState
  if old = st then b
  else
    let b1 := (((b.put PAIR_STAT_STATE st).putB PAIR_CAUSE_STATE true).raise evPairState).mapPair
      (fun p => { p with since := b.tm.phys, low := 0 })
    ((b1.holderShow old).fenceShow).putB FLW_CTL_FIXLAT b1.synced

/-- The partner learns the state and the claim. -/
def Block.tellState (b : Block) : Block :=
  b.sendRope (.control (.state (Fin.ofNat 7 b.pairState) (BitVec.ofNat 16 (b.get PAIR_STAT_CLAIM))))

/-- Enter a state with its claim at once. -/
def Block.pairTo (b : Block) (st : Nat) : Block := if b.pairState = st then b else (b.pairGo st).claimShow.tellState

/-- Enter LINKING: the session count rises (R499). -/
def Block.toLinking (b : Block) : Block := (b.mapPair (fun p => { p with session := (p.session + 1) % 2 ^ 31 })).pairTo 1

/-- Enter SOLO from LINKING: GEN 1 (Table 17-1). -/
def Block.toSolo (b : Block) : Block := (b.mapPair (fun p => { p with gen := 1 })).pairTo 2

/-- Enter RESYNC (R496, R518). -/
def Block.toResync (b : Block) : Block :=
  let b1 := b.mapPair (fun p => { p with resyncAt := b.tm.phys, quietSeen := false, overflow := false, mirror := 0, tags := [], joinAt := none })
  (b1.setReg PAIR_RSTAT 1).pairTo 3

/-- Enter WITHDRAWN. -/
def Block.toWithdrawn (b : Block) : Block := (b.mapPair (fun p => { p with acts := [], raise_ := false })).pairTo 6

/-- The claim of a takeover rises with GEN + 1 (R515). -/
def Block.raiseClaim (b : Block) : Block := ((b.mapPair (fun p => { p with raise_ := false })).genUp).claimShow.tellState

/-- A STANDBY unit takes over (R515): SOLO at once, the claim at the next boundary, or at once while no cycle runs. -/
def Block.takeover (b : Block) : Block :=
  let b1 := (b.pairGo 2).putB PAIR_CAUSE_TAKEOVER true
  let b2 := b1.mapPair (fun p => { p with raise_ := true, acts := [] })
  if b2.cycling then b2 else b2.raiseClaim

/-- A handover at its boundary (R520): the roles swap, and GEN increments. -/
def Block.handoverNow (b : Block) : Block :=
  if b.pairState = 5 then ((b.pairGo 4).genUp).claimShow.tellState
  else if b.pairState = 4 then ((b.pairGo 5).genUp).claimShow.tellState
  else b

/-- This unit's withdrawal at its boundary (R496): from ACTIVE it is a handover to the partner. -/
def Block.withdrawNow (b : Block) : Block :=
  if b.pairState = 5 then b.genUp.toWithdrawn
  else if b.pairState = 4 then (b.sendRope (.control .withdrawn)).toWithdrawn
  else b

/-- Carry out an action of the pair. -/
def Block.pairAct (b : Block) : PairAct → Block
  | .withdraw => b.withdrawNow
  | .handover => b.handoverNow

/-- An action is due at the first boundary at or after an instant in ns; without cycles it acts then. -/
def Block.actAt (b : Block) (a : PairAct) (at_ : Nat) : Block :=
  if b.cycling || decide (b.nowNs < at_) then b.mapPair (fun p => { p with acts := p.acts ++ [(a, at_)] }) else b.pairAct a

/-- Carry out a list of actions. -/
def Block.pairActs (b : Block) : List PairAct → Block
  | [] => b
  | a :: r => (b.pairAct a).pairActs r

/-- This unit decides to leave the pair (R496): at once from STANDBY, by a journaled handover from ACTIVE. -/
def Block.withdraw (b : Block) : Block :=
  if b.pairState = 5 then b.journalItem .withdraw
  else if b.pairState = 4 then b.withdrawNow
  else if b.pairState = 3 then b.toWithdrawn
  else b

/-- A journal input that this unit misses (R503). -/
def Block.journalGap (b : Block) : Block :=
  (((b.putB PAIR_CAUSE_JGAP true).countUp (PAIR_CNT 4) 1).sendRope (.control .gap)).withdraw

/-! ### Enabling (R493, R496 to R500) -/

/-- PAIR_CFG as a write leaves it: a write to a field other than EN takes only in OFF (R521). -/
def Block.pairStore (b : Block) (d : Nat) : Block :=
  if b.pairState = 0 then
    let keep := if d / 16 % 4 = 3 then b.get PAIR_CFG_CHOLD else d / 16 % 4
    (b.put ⟨PAIR_CFG, 1, 3⟩ (d / 2)).put ⟨PAIR_CFG, 4, 7⟩ (keep + d / 64 % 32 * 4)
  else b

/-- The pair is left: the Rope's lanes enter OFF, and the unit acts as a single module (R78, R332). -/
def Block.pairOff (b : Block) : Block :=
  let b1 := (b.putB PAIR_CFG_EN false).ropeStop.put PAIR_STAT_LANES 0
  let b2 := { b1 with sec := { b1.sec with ropeKey := none } }
  let b3 := b2.mapPair (fun p => { p with linked := false, acts := [], raise_ := false, own := [], peer := [], shut := none
                                          pState := 0, tags := [], joinAt := none, axFrom := Vector.replicate 16 0 })
  (((b3.setReg PAIR_RSTAT 0).putB PAIR_STAT_ALIVEIN false).pairTo 0).quadShow 8

/-- A write of PAIR_CFG. -/
def Block.pairEnable (data : Half) (b : Block) : Block :=
  let b1 := b.pairStore data.toNat
  if data.getLsbD 0 then
    if b1.pairState = 0 then
      let b2 := (b1.putB PAIR_CFG_EN true).quadShow 8
      let b3 := b2.mapPair (fun p => { p with linked := false, txSeq := 0, rxSeq := 0, own := [], peer := [], low := 0 })
      ((b3.put PAIR_CAUSE_CODE 0).toLinking).ropeStart (b.quadOn 8)
    else b1
  else if b1.pairState = 0 then b1.claimShow
  else b1.pairOff

/-- PAIR_ENABLE. -/
def execPairEnable (data : Half) (s : State) : Host.Outcome State Fault Refusal :=
  done s (byHost (.pairEnable data) (Block.pairEnable data))

/-- What the partner's state makes this unit do (Table 17-2, R515, R516, R518). -/
def Block.pairDecide (b : Block) : Block :=
  let q := b.pair.pState
  let st := b.pairState
  if st = 1 then
    if q = 1 ∧ b.isPref then b.toSolo
    else if q = 2 ∨ q = 5 then b.toResync
    else b
  else if st = 2 then
    if q = 2 ∧ !b.isPref then b.toWithdrawn
    else if q = 3 ∧ b.get PAIR_RSTAT_PHASE = 0 then b.setReg PAIR_RSTAT 1
    else if q ≠ 3 ∧ q ≠ 4 then b.setReg PAIR_RSTAT 0
    else b
  else if st = 4 then (if q = 6 ∨ q = 0 ∨ q = 1 ∨ q = 3 then b.takeover else b)
  else if st = 5 then (if q ≠ 4 ∧ q ≠ 5 then b.pairTo 2 else b)
  else b

/-- The partner has shown its state and claim; PAIR_ALIVE_IN toggles while its uplinks are open (R508). -/
def Block.partnerState (b : Block) (st claim : Nat) : Block :=
  let b1 := (b.put PAIR_STAT_PCLAIM claim).putB PAIR_STAT_ALIVEIN (!fencedState st)
  (b1.mapPair (fun p => { p with pState := st, aliveAt := b.tm.phys })).pairDecide

/-- The CODE of the first condition of R500 that fails, 0 where all hold. -/
def Block.linkCode (b : Block) (c : RopePeer) : Nat :=
  if c.unit == b.flag PAIR_CFG_UNIT then 1
  else if !(c.auth && (b.keyFor (b.get PAIR_CFG_KSLOT) 0 true).isSome) then 2
  else if c.cfg.toNat / 4 ≠ (b.reg PAIR_CFG).toNat / 4 % 2 ^ 9 ∨ c.delay.toNat ≠ b.get PAIR_DELAY_DELAY ∨
      c.axsrc.toNat ≠ b.get PAIR_AXSRC_SRC then 3
  else if b.get PAIR_DELAY_DELAY * 1000 < c.dly.toNat + 2000 then 4
  else if 500 < b.get SYS_CYCLE_PERIOD ∨ 500 < c.period.toNat then 5
  else 0

/-- The Rope links (R500): the cipher copies its key (R554). -/
def Block.ropeLinked (b0 : Block) (c : RopePeer) : Block :=
  let b := if b0.pairState = 6 then b0.toLinking else b0
  let b1 := { b.phaseRestart with sec := { b.sec with ropeKey := b.keyFor (b.get PAIR_CFG_KSLOT) 0 true } }
  let b2 := b1.mapPair (fun p => { p with linked := true, peerSession := c.session.toNat, txSeq := 0, rxSeq := 0, lastTx := b.tm.phys, lastRx := b.tm.phys })
  let b3 := ((b2.put PAIR_STAT_LANES (if b.ropeLanes.length = 4 then 2 else 1)).putB PAIR_CAUSE_ROPEUP true).raise evRopeLink
  b3.partnerState c.state.val c.claim.toNat

/-- ROPE_LINK_UP: the lanes are ACTIVE, and the checks of R500 are made. -/
def execRopeLinkUp (c : RopePeer) (dt : Nat) (s : State) : Host.Outcome State Fault Refusal :=
  done s fun b0 =>
    let b := b0.advanceNs dt
    if b.pairState = 0 ∨ b.pair.linked ∨ b.ropeLanes = [] ∨ ¬ b.ropeLanes.all (fun l => b.laneState l == 6) then b
    else
      let b1 := b.put PAIR_ROPE_ROPEDLY c.dly.toNat
      let code := b1.linkCode c
      if code = 0 then (b1.put PAIR_CAUSE_CODE 0).ropeLinked c else b1.put PAIR_CAUSE_CODE code

/-! ### Digests and health (R511 to R513) -/

/-- An engine is TRAPPED or without a core (Table 17-5). -/
def Block.engineSick (b : Block) (n : Nat) : Bool :=
  b.get (GAL_STAT_STATE n) == 5 || b.get (GAL_STAT_STATE n) == 6

/-- How many of the sick engines are RUNNING in the partner: the Rope does not say, so it is a free value. -/
def Block.sickPeers (b : Block) : Nat := b.freeNext ((List.range 16).filter b.engineSick).length

/-- Ports of rings in RUN whose LINK is 0. -/
def Block.ringPortsDown (b : Block) : Nat :=
  (((List.range 32).filter (fun n => b.ringState n == 3)).map (fun n =>
    (([b.ringPort n false] ++ (if b.isRing n then [b.ringPort n true] else [])).filter
      (fun p => !b.flag (MAC_STAT_LINK p))).length)).sum

/-- The health score (R512). -/
def Block.health (b : Block) : Nat :=
  let up := (List.range 32).filter (fun p => bitAt (b.get PAIR_UPMASK_MASK) p && !b.flag (MAC_STAT_LINK p))
  255 - ((if b.pair.failSeen then 255 else 0) + 128 * b.sickPeers + (if b.pw.lost = 0 then 0 else 128) +
    32 * b.ringPortsDown + (if b.flag PWR_CAUSE_THERM then 32 else 0) + 16 * up.length +
    16 * popcount (b.get SWC_STAT_RETS) 4 +
    (if b.flag PAIR_STAT_HOLDER && !(b.get CMP_STAT_STATE == 2 && b.get CMP_STAT_STAGE == 3) then 8 else 0) +
    4 * (b.retired.filter (fun c => c.kind == 0)).length + b.get PAIR_HCFG_HPEN)

/-- Two digests of one cycle meet (R511): a difference is recorded, and the unit with the lower score withdraws, the
standby where the scores are equal. -/
def Block.compareDigests (b : Block) (o p : DigRec) : Block :=
  let b1 := b.countUp (PAIR_CNT 5) 1
  let b2 :=
    if o.dig = p.dig then b1
    else
      let d := ((((b1.setReg PAIR_DIG o.dig).setReg PAIR_PDIG p.dig).setReg PAIR_DSTW o.bound).putB PAIR_CAUSE_DIVERGE true).countUp (PAIR_CNT 6) 1
      let at_ := o.close + b.get PAIR_DELAY_DELAY * 1000
      let lose := o.score < p.score || (o.score == p.score && b.pairState == 4)
      let d1 := d.raise evDiverge
      if lose then d1.actAt .withdraw at_ else if b.pairState = 4 then d1.actAt .handover at_ else d1
  if b2.pairState = 5 ∧ b.get PAIR_HCFG_HDIFF ≠ 0 ∧ o.score + b.get PAIR_HCFG_HDIFF ≤ p.score then
    (if b2.pair.low = 2 then (b2.mapPair (fun x => { x with low := 0 })).journalItem .handover
     else b2.mapPair (fun x => { x with low := x.low + 1 }))
  else b2.mapPair (fun x => { x with low := 0 })

/-- Compare where both digests of a cycle are held. -/
def Block.meetDigests (b : Block) (bound : Word) : Block :=
  match b.pair.own.find? (fun d => d.bound == bound), b.pair.peer.find? (fun d => d.bound == bound) with
  | some o, some p =>
    (b.mapPair (fun x => { x with own := x.own.filter (fun d => d.bound ≠ bound), peer := x.peer.filter (fun d => d.bound ≠ bound) })).compareDigests o p
  | _, _ => b

/-- Keep the latest digests that have met no counterpart. -/
def keepDigests (l : List DigRec) (d : DigRec) : List DigRec := (d :: l).take 16

/-- DIGEST_CLOSE: the digest of the cycle that has closed goes to the partner with the score (R511). -/
def execDigestClose (s : State) : Host.Outcome State Fault Refusal :=
  done s fun b =>
    match b.pair.shut with
    | none => b
    | some (bound, l) =>
      let b0 := b.mapPair (fun p => { p with shut := none })
      if !b.synced then b0
      else
        let sc := b0.health
        let d : DigRec := ⟨bound, BitVec.ofNat 72 (natOfBytesBE ((sha256 l).take 9)), sc, b.cyc.start⟩
        let b1 := (b0.freeStep.put PAIR_STAT_HEALTH sc).mapPair (fun p => { p with own := keepDigests p.own d })
        (b1.sendRope (.digest d)).meetDigests bound

/-! ### State transfer (R518, R519) -/

/-- The key of a transferred item among the tags of R518. -/
def xferKey : Xfer → Nat
  | .reg off _ => off.toNat
  | .store e data w _ => 2 ^ 24 + (e.val * 2 + b2n data) * 2 ^ 15 + w.toNat
  | .ept edit i hi _ => 2 ^ 25 + ((b2n edit * 2 ^ 18 + i.toNat) * 2 + b2n hi)
  | .cam r w _ => 2 ^ 26 + r.toNat * 8 + w.val
  | .axis n _ _ _ _ _ _ => 2 ^ 30 + n.val
  | .engine n _ _ _ _ => 2 ^ 30 + 16 + n.val
  | .quiet => 2 ^ 30 + 32

/-- One word of an axis record. -/
def Rec.setWord (r : Rec) (w : Nat) (v : Word) : Rec :=
  if w = 0 then { r with w0 := v } else if w = 1 then { r with w1 := v } else if w = 2 then { r with w2 := v }
  else if w = 3 then { r with w3 := v } else if w = 4 then { r with r0 := v } else { r with r1 := v }

/-- A register list as the file of an engine. -/
def regFile (g : List Word) : Vector Word 64 := (List.range 64).foldl (fun v i => vmod v i (fun _ => g.getD i 0)) (Vector.replicate 64 0)

/-- One word of one entry of the endpoint table. -/
def setEptWord (m : SMap (Word × Word)) (i : Nat) (hi : Bool) (v : Word) : SMap (Word × Word) :=
  let e := sget (fun _ => epOff) m i
  sput (fun _ => epOff) m i (if hi then (e.1, v) else (v, e.2))

/-- The joiner stores a transferred item (R518). -/
def Block.xferStore (b : Block) : Xfer → Block
  | .reg off v => if (regAt off.toNat).isSome then b.setReg off.toNat v else b
  | .store e data w v => b.mapEng e.val (fun x =>
      if data then { x with data := sput (fun _ => 0) x.data (w.toNat % 2 ^ 14) v } else { x with prog := sput (fun _ => 0) x.prog w.toNat v })
  | .ept edit i hi v => b.mapRings (fun x =>
      if edit then { x with edit := setEptWord x.edit i.toNat hi v } else { x with ept := setEptWord x.ept i.toNat hi v })
  | .cam r w v => b.setRec r.toNat ((b.rec_ r.toNat).setWord w.val v)
  | .axis n p v a s0 base applied => b.setAxis n { b.axes[n] with p := p, v := v, a := a, s0 := s0, base := base, applied := applied }
  | .engine n g f pc sig => b.mapEng n.val (fun x => { x with g := regFile g, f := f, pc := pc.toNat, sig := sig })
  | .quiet => (b.put PAIR_RSTAT_PHASE 3).mapPair (fun p => { p with quietSeen := true, joinAt := some b.cyc.next })

/-- A transferred item reaches the joiner: each word keeps the latest value received (R518). -/
def Block.xferIn (b : Block) (x : Xfer) (tag : Word) : Block :=
  if b.pairState ≠ 3 then b
  else
    let old := sget (fun _ => (0 : Word)) b.pair.tags (xferKey x)
    let b1 := b.put PAIR_RSTAT_WORDS (b.get PAIR_RSTAT_WORDS + 1)
    if before tag old then b1
    else (b1.mapPair (fun p => { p with tags := sput (fun _ => 0) p.tags (xferKey x) tag })).xferStore x

/-- The state of an engine as the source sends it (R519). -/
def Block.engineXfer (b : Block) (n : Fin 16) : Xfer :=
  let x := b.eng[n]
  .engine n x.g.toList x.f (BitVec.ofNat 15 x.pc) x.sig

/-- A source or a joiner has finished the bulk pass (R518): 3,080,192 words in full tables. -/
def execBulkPassDone (dt : Nat) (s : State) : Host.Outcome State Fault Refusal :=
  done s fun b0 =>
    let b := b0.advanceNs dt
    if b.get PAIR_RSTAT_PHASE ≠ 1 then b
    else if b.pairState = 2 then (b.put PAIR_RSTAT_PHASE 2).put PAIR_RSTAT_WORDS 3080192
    else if b.pairState = 3 then b.put PAIR_RSTAT_PHASE 2
    else b

/-- The quiet condition (R519). -/
def Block.quiet (b : Block) : Bool :=
  b.runningEngines.all (fun n =>
    match (b.engine n).wait with
    | .boundary _ _ => decide ((b.engine n).waitFrom ≤ b.tm.phys)
    | _ => false) &&
  b.flw.queue.isEmpty && b.flw.flight.isEmpty && decide (b.pair.mirror ≤ 256)

/-- QUIET_TEST: Q before a boundary the source tests the condition; where it holds, it sends the engine state (R519). -/
def execQuietTest (s : State) : Host.Outcome State Fault Refusal :=
  done s fun b0 =>
    if b0.pairState ≠ 2 ∨ b0.get PAIR_RSTAT_PHASE ≠ 2 ∨ !b0.pair.linked ∨ !b0.cyc.inProg then b0
    else
      let q := b0.get PAIR_ROPE_ROPEDLY + (if b0.get PAIR_STAT_LANES = 2 then 3000 else 6000)
      let b := b0.reachNs (b0.cyc.next - q)
      if b.quiet then
        let b1 := (List.finRange 16).foldl (fun x n => x.sendRope (.transfer (x.engineXfer n) x.stw)) b
        (b1.sendRope (.transfer .quiet b1.stw)).mapPair (fun p => { p with quietSeen := true, joinAt := some b.cyc.next })
      else b

/-- At its boundary the joiner enters STANDBY and the source ACTIVE; the joiner copies GEN (R494, R519). -/
def Block.joinNow (b : Block) : Block :=
  match b.pair.joinAt with
  | none => b
  | some _ =>
    let b1 := b.mapPair (fun p => { p with joinAt := none, tags := [], own := [], peer := [] })
    if b.pairState = 3 then
      let b2 := b1.mapPair (fun p => { p with gen := b.get PAIR_STAT_PCLAIM / 2 % 2 ^ 14, pState := 5 })
      (b2.pairTo 4).put PAIR_RSTAT_PHASE 3
    else if b.pairState = 2 then ((b1.mapPair (fun p => { p with pState := 4 })).pairTo 5).put PAIR_RSTAT_PHASE 3
    else b1

/-- What a cycle boundary does for the pair, last of R28: joins, actions due, a claim that rises (R515, R519, R520). -/
def Block.pairBoundary (b : Block) : Block :=
  let b1 := b.joinNow
  let due := (b1.pair.acts.filter (fun p => p.2 ≤ b1.cyc.start)).map (·.1)
  let b2 := (b1.mapPair (fun p => { p with acts := p.acts.filter (fun x => b1.cyc.start < x.2) })).pairActs due
  if b2.pair.raise_ then b2.raiseClaim else b2

/-- RESYNC_TIMEOUT: a joiner that is not in STANDBY 1 s after RESYNC began withdraws (R519). -/
def execResyncTimeout (s : State) : Host.Outcome State Fault Refusal :=
  done s fun b0 =>
    if b0.pairState ≠ 3 then b0
    else
      let b := b0.reachPhys (b0.pair.resyncAt + 10 ^ 9 * nsUnit)
      let code := if !b.pair.quietSeen then 6 else if b.pair.overflow then 7 else 8
      (((b.putB PAIR_CAUSE_RFAIL true).put PAIR_CAUSE_CODE code).put PAIR_RSTAT_PHASE 0).toWithdrawn

/-! ### Blocks received (R498, R499, R502, R503) -/

/-- A journal input as this unit holds it. -/
def wireItem : WireItem → JItem
  | .write r => .cmd (.registerWrite r)
  | .sample n inst faulty smp idx last => .sample n.val ⟨inst, faulty, smp, idx, last⟩
  | .engRetire n => .engRetire n.val
  | .cellRetire c => .cellRetire c.val
  | .ringData e w v cycle claim => .ringData e.val w.toNat v cycle claim
  | .loadReport n ok digest => .loadReport n.val ok digest
  | .handover => .handover
  | .withdraw => .withdraw
  | .measure d k ofs mpd => .measure d.val k.val ofs mpd
  | .steer f => .steer f
  | .cmpState st stage => .cmpState st.val stage.val
  | .cmpCommit phi st stage => .cmpCommit 15 phi st.val stage.val
  | .encDly e d => .encDly e.val d.toNat
  | .profReady c => .profReady c.val

/-- A journal entry from the partner: it waits for its journal time, or is lost where it arrives after it (R503). -/
def Block.journalIn (b : Block) (i : WireItem) (at_ seq : Nat) : Block :=
  if !(b.synced || b.pairState == 3) then b
  else if at_ < b.nowNs then b.journalGap
  else
    Block.countUp { b with host := { b.host with journal := b.host.journal ++ [⟨wireItem i, at_, false, !b.flag PAIR_CFG_UNIT, seq⟩] } }
      (PAIR_CNT 3) 1

/-- The partner's digest (R511). -/
def Block.digestIn (b : Block) (d : DigRec) : Block :=
  let b1 := (b.put PAIR_STAT_PHEALTH d.score).mapPair (fun p => { p with peer := keepDigests p.peer d })
  if b.synced then b1.meetDigests d.bound else b1

/-- A control block. -/
def Block.controlIn (b : Block) : RopeCtl → Block
  | .state st claim => b.partnerState st.val claim.toNat
  | .gap => if b.pairState = 5 then (b.mapPair (fun p => { p with pState := 6 })).pairTo 2 else b
  | .withdrawn => (b.mapPair (fun p => { p with pState := 6 })).pairDecide
  | .pwrFail => if b.pairState = 4 then b.takeover else b
  | .genrst => if (List.range 32).all (fun n => b.ringState n != 3) then (b.mapPair (fun p => { p with gen := 1 })).claimShow else b

/-- A good block acts by its kind. -/
def Block.ropeIn (b : Block) (seq : Nat) : RopeMsg → Block
  | .journal i at_ => b.journalIn i at_ seq
  | .digest bound dig score => b.digestIn ⟨bound, dig, score.toNat, 0⟩
  | .transfer x tag => b.xferIn x tag
  | .control c => b.controlIn c
  | .idle => b
  | .phase d => b.phaseIn d

/-- A block whose tag fails: discarded and counted; a journal entry in it is lost (R499, R503). -/
def Block.ropeBad (b : Block) (m : RopeMsg) : Block :=
  let b1 := b.countUp (PAIR_CNT 2) 1
  match m with
  | .journal _ _ => if b.synced || b.pairState == 3 then b1.journalGap else b1
  | _ => b1

/-- KIND of a received block. -/
def ropeKind : RopeMsg → Nat
  | .journal _ _ => 1
  | .digest _ _ _ => 2
  | .transfer _ _ => 3
  | .control _ => 4
  | .idle => 5
  | .phase _ => 6

/-- The tag that a block of the partner must bear under a key: its nonce is of the other UNIT and the partner's session (R499). -/
def Block.ropeTag (b : Block) (k : Nat) (m : RopeBlock) : BitVec 128 :=
  gcmTag (ropeKeyBytes k) (ropeNonce (!b.flag PAIR_CFG_UNIT) b.pair.peerSession m.seq.toNat)
    (ropeHeader m.seq.toNat (ropeKind m.msg) m.payload.length) m.payload

/-- A block's tag verifies; none does while the cipher has no key (R499, R554). -/
def Block.ropeGood (b : Block) (m : RopeBlock) : Bool :=
  match b.ropeCipher with
  | some k => m.tag == b.ropeTag k m
  | none => false

/-- ROPE_BLOCK_RX. -/
def execRopeBlockRx (m : RopeBlock) (dt : Nat) (s : State) : Host.Outcome State Fault Refusal :=
  done s fun b0 =>
    let b := b0.advanceNs dt
    if !b.pair.linked then b
    else
      let b1 := (b.countUp (PAIR_CNT 1) 1).mapPair (fun p => { p with lastRx := b.tm.phys, rxSeq := m.seq.toNat + 1 })
      if b.ropeGood m then b1.ropeIn m.seq.toNat m.msg else b1.ropeBad m.msg

/-- IDLE_BLOCK_SEND: 1 µs without any other block (R498). -/
def execIdleBlockSend (s : State) : Host.Outcome State Fault Refusal :=
  done s fun b => if b.pair.linked then (b.reachPhys (b.pair.lastTx + 1000 * nsUnit)).sendRope .idle else b

/-! ### Failover (R508, R515, R516) -/

/-- PARTNER_SILENCE: no block has arrived and PAIR_ALIVE_IN has not changed for 4 µs. -/
def execPartnerSilence (s : State) : Host.Outcome State Fault Refusal :=
  done s fun b0 =>
    if b0.pairState ≠ 4 then b0
    else
      let b := b0.reachPhys (max b0.pair.lastRx b0.pair.aliveAt + 4000 * nsUnit)
      (b.putB PAIR_STAT_ALIVEIN false).takeover

/-- The Rope is down (R501). -/
def Block.ropeDown (b : Block) : Block :=
  let b1 := b.mapPair (fun p => { p with linked := false })
  if b.pair.linked && b.get PAIR_STAT_LANES != 0 then ((b1.put PAIR_STAT_LANES 0).putB PAIR_CAUSE_ROPEDOWN true).raise evRopeLink
  else b1

/-- ROPE_LOSS: the Rope fails while PAIR_ALIVE_IN toggles (R516). -/
def execRopeLoss (dt : Nat) (s : State) : Host.Outcome State Fault Refusal :=
  done s fun b0 =>
    let b := (b0.advanceNs dt).ropeDown
    if b.pairState = 4 then b.toWithdrawn
    else if b.pairState = 5 then b.pairTo 2
    else if b.pairState = 2 then b.setReg PAIR_RSTAT 0
    else b

/-- ALIVE_SILENCE_SOLO: PAIR_ALIVE_IN silent. In LINKING 1 s of it enters SOLO; in a member with the Rope alive it sets
SBFAULT and nothing else (R496, R515). -/
def execAliveSilenceSolo (s : State) : Host.Outcome State Fault Refusal :=
  done s fun b0 =>
    if b0.pairState = 1 then
      let b := b0.reachPhys (max b0.pair.since b0.pair.aliveAt + 10 ^ 9 * nsUnit)
      (b.putB PAIR_STAT_ALIVEIN false).toSolo
    else if b0.synced && b0.pair.linked then (b0.putB PAIR_STAT_ALIVEIN false).putB PAIR_CAUSE_SBFAULT true
    else b0

/-- SUPERVISOR_FENCE: the supervisor acts on its causes (R508); `silent` where Lantern or journal sender are. After PWR_FAIL a
pair's fence stays until the unit leaves its state (R543). -/
def execSupervisorFence (silent : Bool) (dt : Nat) (s : State) : Host.Outcome State Fault Refusal :=
  done s fun b0 =>
    let b := b0.advanceNs dt
    let cause := silent || fencedState b.pairState || b.pw.failAt.isSome ||
      (b.pair.fence && b.pair.failSeen && b.flag PAIR_CFG_EN)
    b.mapPair (fun p => { p with fence := cause, alive := !cause })

/-! ### PAIR_CTL and return of control (R494, R496, R520) -/

/-- PAIR_SOLO: from LINKING only. -/
def Block.pairSoloAct (b : Block) : Block := if b.pairState = 1 then b.toSolo else b

/-- PAIR_SOLO. -/
def execPairSolo (s : State) : Host.Outcome State Fault Refusal :=
  done s (byHost .pairSolo Block.pairSoloAct)

/-- PAIR_RESYNC: from WITHDRAWN only. -/
def Block.pairResyncAct (b : Block) : Block := if b.pairState = 6 then b.toResync else b

/-- PAIR_RESYNC. -/
def execPairResync (s : State) : Host.Outcome State Fault Refusal :=
  done s (byHost .pairResync Block.pairResyncAct)

/-- AUTO_RESYNC: 1 s after entry to WITHDRAWN with ARS 1. -/
def execAutoResync (s : State) : Host.Outcome State Fault Refusal :=
  done s fun b =>
    if b.pairState = 6 ∧ b.flag PAIR_CFG_ARS then (b.reachPhys (b.pair.since + 10 ^ 9 * nsUnit)).toResync else b

/-- PAIR_WITHDRAW: from STANDBY, or from ACTIVE by handover. -/
def Block.pairWithdrawAct (b : Block) : Block := if b.pairState = 4 ∨ b.pairState = 5 then b.withdraw else b

/-- PAIR_WITHDRAW. -/
def execPairWithdraw (s : State) : Host.Outcome State Fault Refusal :=
  done s (byHost .pairWithdraw Block.pairWithdrawAct)

/-- PAIR_HANDOVER: the request becomes a journal entry. -/
def Block.pairHandoverAct (b : Block) : Block := if b.pairState = 4 ∨ b.pairState = 5 then b.journalItem .handover else b

/-- PAIR_HANDOVER. -/
def execPairHandover (s : State) : Host.Outcome State Fault Refusal :=
  done s (byHost .pairHandover Block.pairHandoverAct)

/-- PAIR_GENRST: accepted while no ring is in RUN; the partner's rings run with this unit's (R505). -/
def Block.pairGenrstAct (b : Block) : Block :=
    if (List.range 32).all (fun n => b.ringState n != 3) then
      ((b.mapPair (fun p => { p with gen := 1 })).sendRope (.control .genrst)).claimShow
    else b

/-- PAIR_GENRST. -/
def execPairGenrst (s : State) : Host.Outcome State Fault Refusal :=
  done s (byHost .pairGenrst Block.pairGenrstAct)

/-- REVERT_REQUEST: the preferred unit asks for the line after PAIR_WTR s in STANDBY with a score not below its partner's. -/
def execRevertRequest (s : State) : Host.Outcome State Fault Refusal :=
  done s fun b0 =>
    if b0.pairState = 4 ∧ b0.isPref ∧ b0.flag PAIR_CFG_REVERT ∧ b0.get PAIR_STAT_PHEALTH ≤ b0.get PAIR_STAT_HEALTH then
      (b0.reachPhys (b0.pair.since + b0.get PAIR_WTR_WTR * 10 ^ 9 * nsUnit)).journalItem .handover
    else b0

end Sys2Proof.Machine
end

