-- ==== Sys2Proof/Machine/Domains.lean ====
section
/-! DEFINITION. What a power domain loses and how it starts again: contents, retained banks, the time record,
the PLLs, retirements reapplied (R130, R525, R526, R538 to R541, R590, R594, R595). -/

namespace Sys2Proof.Machine

/-- Replace the power state. -/
def Block.mapPw (b : Block) (f : PwSt → PwSt) : Block := { b with pw := f b.pw }

/-! ### What a domain loses (R526, R594) -/

/-- Registers that outlast their domain: what start-up writes, and the GPIO levels held in PD1 (R582, R594). -/
def outlasts (a : Nat) : Bool := a == SYS_RSTCAUSE || a == SYS_BOOT || a == SYS_GPIO

/-- The registers that go with a set of domains; with PD7 retained, the GAL registers stay (R533). -/
def lostReg (ds : List Nat) (retain : Bool) (a : Nat) : Bool :=
  ds.contains (domainOf a) && !outlasts a && !(retain && 0x200000 ≤ a && a < 0x300000)

/-- What an engine keeps while its banks are retained: stores, directory and claims. -/
def Engine.retained (x : Engine) : Engine :=
  { Engine.reset with prog := x.prog, data := x.data, dir := x.dir, rings := x.rings, plen := x.plen, entry := x.entry, digest := x.digest }

/-- The domain of the strikes of a channel kind (R50). -/
def strikeDomain (c : Channel) : Nat :=
  if c.kind = 0 then (if c.idx < 16 then 9 else 10) else if c.kind = 1 then 10 else if c.kind = 2 then 5
  else if c.kind = 3 then 8 else if c.kind = 4 then 7 else if c.kind = 5 then 4 else if c.kind = 6 then 2 else 11

/-- What domain `d` holds beside registers goes to its reset state. -/
def Block.loseCore (b : Block) (retain : Bool) (d : Nat) : Block :=
  if d = 2 then
    { b with
      tm := { TimeSt.reset with phys := b.tm.phys, aonZero := b.tm.aonZero, record := b.tm.record, lant := ⟨b.tm.phys, 0, 0⟩ }
      axes := Vector.replicate 16 .reset, cps := .reset, clk := .reset, tic := .reset, cal := .reset, cyc := .reset
      ptp := { PtpSt.reset with ports := b.ptp.ports } }
  else if d = 3 then
    { b with
      host := { HostSt.reset with held := b.host.held, perst := b.host.perst }
      cyc := .reset, macs := vmod b.macs 32 (fun _ => .reset) }
  else if d = 4 then
    { b with sw := { SwSt.reset with rows := b.sw.rows }, rings := .reset, snap := .reset, trc := .reset
             ptp := { b.ptp with ports := PtpSt.reset.ports, rx := [] } }
  else if d = 5 ∨ d = 6 then
    { b with sw := { b.sw with frames := [], copies := [], held := [], tx := [] } }
  else if d = 7 then { b with eng := if retain then b.eng.map Engine.retained else Vector.replicate 16 .reset }
  else if d = 8 then { b with flw := .reset }
  else if d = 9 then
    { b with
      lanes := { b.lanes with lane := (List.range 16).foldl (fun v i => vmod v i (fun _ => .reset)) b.lanes.lane }
      macs := (List.range 16).foldl (fun v i => vmod v i (fun _ => .reset)) b.macs }
  else if d = 10 then
    { b with
      lanes := { LanesSt.reset with lane := (List.range 20).foldl (fun v i => vmod v (16 + i) (fun _ => .reset)) b.lanes.lane }
      macs := (List.range 16).foldl (fun v i => vmod v (16 + i) (fun _ => .reset)) b.macs
      pair := { PairSt.reset with failSeen := b.pair.failSeen, session := b.pair.session, since := b.tm.phys } }
  else if d = 11 then { b with encs := Vector.replicate 4 .reset, outs := Vector.replicate 6 .reset }
  else b

/-- A set of domains loses its contents: registers, their tables and queues, and strike histories. -/
def Block.lose (b : Block) (ds : List Nat) (retain : Bool) : Block :=
  let b1 := ds.foldl (fun x d => x.loseCore retain d) (b.resetRegs (lostReg ds retain))
  let b2 := { b1 with strikes := b1.strikes.filter (fun e => !ds.contains (strikeDomain e.1)) }
  let b3 := if ds.contains 3 then
      (((b2.put SYS_RETIRED_KIND b2.retireBits).put SYS_HWSTAT_QPRES (b.get SYS_HWSTAT_QPRES)).put SYS_HWSTAT_QLOW
        (b.get SYS_HWSTAT_QLOW)).put SYS_HWSTAT_TSHUT (b.get SYS_HWSTAT_TSHUT)
    else b2
  if ds.contains 7 && retain then
    (List.range 16).foldl (fun x n => (x.putB (GAL_STAT_WAIT n) false).put (GAL_STAT_STATE n)
      (if x.get (GAL_STAT_STATE n) = 1 then 0 else x.get (GAL_STAT_STATE n))) b3
  else b3

/-! ### The time record (R130) -/

/-- PD2 powers down: with QUAL not INVALID the Lantern writes LT_entry, the AON count and TRIM into PD0. -/
def Block.timeRecord (b : Block) : Block :=
  if b.domOn 2 && b.get LAN_STAT_QUAL != 0xF then
    { b with tm := { b.tm with record := some ⟨b.tm.lt, b.aon, if b.flag LAN_AONTRIM_VALID then b.geti LAN_AONTRIM_TRIM else 0⟩ } }
  else b

/-- The time that `n` AON ticks stand for, in 2^-40 ns (R130). -/
def aonTime (n : Nat) (trim : Int) : Nat :=
  (((n : Int) * 10 ^ 9 * (2 ^ 40 + trim)) / 32768).toNat

/-- The LT of an AON count by the record. -/
def recordLt (r : TimeRecord) (count : Nat) : Nat := r.lt + aonTime ((count + 2 ^ 48 - r.aon) % 2 ^ 48) r.trim

/-- An entry of the alarm log that holds no LT receives one from its AON count, QUAL ESTIMATED (R561). An entry made
before the record keeps none. -/
def logConvert (r : TimeRecord) (e : LogEnt) : LogEnt :=
  if e.pd2 || e.aon < r.aon then e
  else { e with ltH := ltHigh (recordLt r e.aon) 3 0, ltL := ltLow (recordLt r e.aon) }

/-- PD2 has powered up: the time scale returns from the record as ESTIMATED, or is left INVALID (R130, R561). -/
def Block.timeRestore (b : Block) : Block :=
  match b.tm.record with
  | none => b
  | some r =>
    let lt := recordLt r b.aon
    let unc := ceilDiv ((lt - r.lt) * 50 + 31000 * 10 ^ 6 * nsUnit) (10 ^ 6 * nsUnit)
    let b1 := { b with
      tm := { b.tm with lt := lt, everSet := true, restored := true, record := none }
      sec := { b.sec with log := b.sec.log.map (fun (e : Nat × LogEnt) => (e.1, logConvert r e.2)) } }
    ((b1.put LAN_EST_UNC_UNC (sat (2 ^ 48 - 1) unc)).putB LAN_EST_UNC_VALID true).requal

/-! ### Retained banks (R539 to R541) -/

/-- The banks of a list of engines. -/
def banksOf (ns : List Nat) : BitVec 1538 := ns.foldl (fun m n => m ||| bankMask n) 0

/-- Banks enter retention: they are sealed (R539). -/
def Block.seal (b : Block) (m : BitVec 1538) : Block :=
  Block.pendShow (b.mapPw (fun p => { p with sealed := p.sealed ||| m, unchecked := p.unchecked &&& ~~~m }))

/-- Retention of banks ends: each is to be checked (R540). -/
def Block.unseal (b : Block) (m : BitVec 1538) : Block :=
  Block.pendShow (b.mapPw (fun p => { p with sealed := p.sealed &&& ~~~m, unchecked := p.unchecked ||| (p.sealed &&& m) }))

/-- Words of a sparse store outside one bank. -/
def zeroBank (m : SMap Word) (k : Nat) : SMap Word := m.filter (fun e => e.1 / 512 ≠ k)

/-- A bank fails its check (R541): zero-filled, LOST, RETN_LOST. -/
def Block.bankLost (b : Block) (k : Nat) : Block :=
  let b1 := b.mapPw (fun p => { p with lost := p.lost ||| BitVec.ofNat 1538 (2 ^ k) })
  let b2 :=
    if k < 1536 then
      (b1.mapEng (k / 96) (fun x =>
        if k % 96 < 64 then { x with prog := zeroBank x.prog (k % 96) } else { x with data := zeroBank x.data (k % 96 - 64) })).putB
        (GAL_STAT_LOST (k / 96)) true
    else if k = 1536 then b1.mapSec (fun x => { x with mirrorBad := true })
    else (b1.mapSec (fun x => { x with log := [] })).put ⟨SEC_LOGCTL, 4, 25⟩ 0
  (((b2.put PWR_RETN_BANK k).incSat PWR_RETN_NLOST 1).putB PWR_CAUSE_RETN true).raise evRetnLost

/-- A sealed bank is checked (R540). -/
def Block.bankCheck (b : Block) (k : Nat) (ok : Bool) : Block :=
  if b.pw.unchecked.getLsbD k then
    let b1 := Block.pendShow (b.mapPw (fun p => { p with unchecked := p.unchecked &&& ~~~BitVec.ofNat 1538 (2 ^ k) }))
    if ok then b1 else b1.bankLost k
  else b

/-! ### Starting again -/

/-- A PLL locks on its factory band, entry 15 (R431, R590). -/
def Block.pllUp (b : Block) (p : Nat) : Block :=
  let b1 := ((b.pllStart p).put (pllField p 3 4) 15).put (pllField p 7 6) (b.get (CLK_BAND_CODE p 15))
  b1.pllRelease p (BitVec.ofNat 8 (b.get CLK_MAINSTAT_TRIM))

/-- PD2 is on: the OCXO is powered, the main and TIC PLLs lock, the time scale is restored (R590 steps 4 and 5). -/
def Block.timeUp (b : Block) : Block :=
  let b0 := { b with tm := { b.tm with aonWin := b.tm.phys } }
  let b1 := b0.mapTic (fun t => { t with ovenAt := b.tm.phys })
  ((b1.pllUp 0).pllUp 1).timeRestore

/-- PD3 is on: the host PLL locks, or waits in BANDSEL where REFCLK is absent (R590 step 6, R592). -/
def Block.hostUp (b : Block) (refclk : Bool) : Block :=
  let b1 := if refclk then b.pllUp 2 else (b.pllStart 2).clkCause CLK_CAUSE_REFLOSS 2
  if b1.host.perst then b1 else { b1 with host := { b1.host with pcie := .retry } }

/-- The retired rows of a slice show in its spares, and without one its slice is out of service (R292, R293). -/
def Block.rowsShow (b : Block) (k : Nat) : Block :=
  let n := (b.sw.rows.filter (fun p => p.1 == k)).length
  if n ≤ 16 then b.put (spareLeft k) (16 - n)
  else ((b.put (spareLeft k) 0).clrBit SWC_STAT_INSVC k).setBit SWC_STAT_RETS k

/-- A channel of the retirement record is retired again, without an event (R595). -/
def Block.reapply (b : Block) (c : Channel) : Block :=
  if c.kind ≤ 1 then (b.putB (SDS_STAT_RETIRED c.idx) true).put (SDS_STAT_STATE c.idx) 7
  else if c.kind = 3 then b.setBit FLW_STAT_RETIRED c.idx
  else if c.kind = 4 then b.putB (GAL_STAT_RETIRED c.idx) true
  else if c.kind = 5 then
    let n := c.idx / 256 / 257
    let k := 4 * (c.idx / 256 % 257) + c.idx % 256 / 64
    (b.mapRing n (fun r => { r with lost := sput (fun _ => 0) r.lost k (setBitN (sget (fun _ => 0) r.lost k) (c.idx % 64)) })).ringView n
  else if c.kind = 6 then (b.putB (CMP_IN_STAT_RETIRED c.idx) true).put (CMP_IN_STAT_STATE c.idx) 6
  else b

/-- The retirement record is applied (R595). -/
def Block.reapplyAll (b : Block) : Block :=
  let b1 := b.retRec.foldl Block.reapply { b with retired := b.retRec }
  let b2 := (List.range 4).foldl Block.rowsShow b1
  ((b2.put SYS_RETIRED_KIND b2.retireBits).spareUpdate.shareUpdate).flwShow

/-- The domains on in RUN in the profile in force (R47, Table 18-2). -/
def Block.runDomains (b : Block) : Nat := if b.profile = 3 then 0xFFF - 2 ^ 6 else 0xFFF

end Sys2Proof.Machine
end

