-- ==== Sys2Proof/Machine/Power.lean ====
section
/-! DEFINITION. Power states and their changes, banks in retention, wakes, mains failure and temperature
(R524 to R549). -/

namespace Sys2Proof.Machine

/-- The power state (Table 18-1). -/
def Block.pwrState (b : Block) : Nat := b.get PWR_STAT_STATE

/-- A change of state has completed (R527): STATE, DONE, the cause and the event. -/
def Block.pwrTo (b : Block) (st : Nat) : Block :=
  let b1 := ((b.put PWR_STAT_STATE st).put PWR_STAT_RES 0).putB PWR_CAUSE_STATE true
  ((b1.mapPw (fun p => { p with pend := none })).quadShows).raise evPwrState

/-- Switch on the domains of a mask. -/
def Block.setDomains (b : Block) (m : Nat) : Block := b.put PWR_STAT_DOMON m

/-! ### LINE-HOLD (R531) -/

/-- The engines whose cores LINE-HOLD powers down. -/
def Block.heldEngines (b : Block) : List Nat := (List.range 16).filter (fun n => n ≠ b.get PWR_CTL_HOLDENG)

/-- Every ring in RUN enters KEEPALIVE (R260, R263). -/
def Block.ringsKeep (b : Block) : Block :=
  (List.range 32).foldl (fun x n =>
    if x.ringState n = 3 then
      ((x.trainFree n).put (ZRG_STAT_STATE n) 4).mapRing n (fun r => { r with kaAt := x.tm.phys, lastF := false })
    else x) b

/-- Every ring in KEEPALIVE returns to RUN and sends the wake pattern on its ports (R264, R531). -/
def Block.ringsWake (b : Block) : Block :=
  (List.range 32).foldl (fun x n =>
    if x.ringState n = 4 then
      ((x.put (ZRG_STAT_STATE n) 3).mapRing n (fun r => { r with train := [], bad := false })).wakeSend n
    else x) b

/-- LINE-HOLD takes effect (R531). -/
def Block.enterHold (b : Block) : Block :=
  let b1 := (b.ringsKeep.seal (banksOf b.heldEngines)).put PWR_STAT_STATE 2
  (b1.flwStop).pwrTo 2

/-- LINE-HOLD ends (R531): the banks are to be checked, the rings run again. -/
def Block.leaveHold (b : Block) (st : Nat) : Block := ((b.unseal (banksOf b.heldEngines)).ringsWake).pwrTo st

/-! ### STANDBY, MAINT (R525, R526, R528) -/

/-- The domains that STANDBY leaves on: PD0, PD1, PD2 by TIMEON, PD9 and PD10 while a quad of theirs listens. -/
def Block.standbyDomains (b : Block) : Nat :=
  3 + (if b.flag PWR_CTL_TIMEON then 4 else 0) + (if b.get PWR_WRING_PORTS % 2 ^ 16 = 0 then 0 else 2 ^ 9) +
    (if b.get PWR_WRING_PORTS / 2 ^ 16 = 0 then 0 else 2 ^ 10)

/-- The domains of a list of numbers that a mask leaves off. -/
def offDomains (m : Nat) : List Nat := (List.range 12).filter (fun d => !bitAt m d)

/-- STANDBY is entered (R525, R539): banks sealed under RETAIN, the time record where PD2 goes off, the rest lost. -/
def Block.enterStandby (b : Block) : Block :=
  let m := b.standbyDomains
  let keep := b.flag PWR_CTL_RETAIN
  let b1 := if keep then b.seal (banksOf (List.range 16)) else b.mapPw (fun p => { p with sealed := 0, unchecked := 0 })
  let b2 := if bitAt m 2 then b1 else b1.timeRecord
  ((b2.lose (offDomains m) keep).setDomains m).pwrTo 3

/-! ### Requests (R527 to R529) -/

/-- A request is refused with a code. -/
def Block.pwrRefuse (b : Block) (code : Nat) : Block := b.put PWR_STAT_RES code

/-- A change is pending from an instant in ns on. -/
def Block.pwrPend (b : Block) (st after : Nat) : Block :=
  (b.mapPw (fun p => { p with pend := some (st, b.nowNs + after) })).put PWR_STAT_RES 1

/-- The pending change takes effect. -/
def Block.pwrEffect (b : Block) (st : Nat) : Block :=
  if st = 2 then b.enterHold
  else if b.pwrState = 2 then b.leaveHold st
  else b.pwrTo st

/-- A change that Table 18-3 places at a boundary; without cycles it takes effect when its least time has passed. -/
def Block.pwrBoundaryOr (b : Block) (st after : Nat) : Block :=
  if b.flag SYS_CYCLE_RUN then b.pwrPend st after else (b.advanceNs after).pwrEffect st

/-- The conditions that STANDBY and MAINT share: the refusal code, or 0 (R528). -/
def Block.stopCode (b : Block) : Nat :=
  if b.flag SYS_CYCLE_RUN then 2 else if b.runningEngines.isEmpty then 0 else 3

/-- A request for a state (R527 to R529, Table 18-3). -/
def Block.pwrRequest (b : Block) (r : Nat) : Block :=
  let st := b.pwrState
  if b.pw.pend.isSome then b.pwrRefuse 5
  else if r = st then b.put PWR_STAT_RES 0
  else if b.flag PAIR_CFG_EN ∧ (r = 2 ∨ r = 3 ∨ r = 4) then b.pwrRefuse 4
  else if (st = 0 ∧ r = 1) ∨ (st = 1 ∧ r = 0) then b.pwrBoundaryOr r 0
  else if st ≤ 1 ∧ r = 2 then
    if b.runningEngines.any (fun n => n ≠ b.get PWR_CTL_HOLDENG) then b.pwrRefuse 3 else b.pwrBoundaryOr 2 1000
  else if st = 2 ∧ r ≤ 1 then b.pwrBoundaryOr r 40000
  else if st ≤ 2 ∧ r = 3 then (if b.stopCode = 0 then b.enterStandby else b.pwrRefuse b.stopCode)
  else if st ≤ 1 ∧ r = 4 then (if b.stopCode = 0 then (b.setDomains 0xFFF).pwrTo 4 else b.pwrRefuse b.stopCode)
  else if st = 4 ∧ r = 0 then
    (if b.flag CAL_BIST_RUN then b.pwrRefuse 5 else (b.setDomains b.runDomains).pwrTo 0)
  else b.pwrRefuse 5

/-- A write of the low half of PWR_CTL: REQ 5 to 7 are reserved values; with GO the request that REQ holds is made. -/
def Block.pwrCtl (data : Half) (b : Block) : Block :=
  let d := data.toNat
  let b1 := if d % 8 ≤ 4 then b.put PWR_CTL_REQ d else b
  let b2 := ((((b1.put PWR_CTL_HOLDENG (d / 16)).put PWR_CTL_RETAIN (d / 2 ^ 8)).put PWR_CTL_TIMEON (d / 2 ^ 9)).put
    PWR_CTL_QGATE (d / 2 ^ 10)).quadShows
  if bitAt d 3 then b2.pwrRequest (b2.get PWR_CTL_REQ) else b2

/-- A write of PWR_CTL with GO 1 and REQ `r`. -/
def reqWrite (r : Nat) (data : Half) : Half := (data &&& ~~~(7 : Half)) ||| BitVec.ofNat 64 (8 + r)

/-- The domains that a change from one block to another restarts or powers down (R61). -/
def powered (old new : Block) (a : Nat) : Bool := old.domOn (domainOf a) != new.domOn (domainOf a)

/-- The outcome of a change of power state: the tags of domains that lose or gain power read 0 (R61). -/
def donePower (s : State) (f : Block → Block) : Host.Outcome State Fault Refusal :=
  doneRestart s (powered s.blk (f s.blk)) f

/-- REQ_RUN. -/
def execReqRun (data : Half) (s : State) : Host.Outcome State Fault Refusal :=
  donePower s (byHost (.reqRun data) (Block.pwrCtl (reqWrite 0 data)))

/-- REQ_DOZE. -/
def execReqDoze (data : Half) (s : State) : Host.Outcome State Fault Refusal :=
  donePower s (byHost (.reqDoze data) (Block.pwrCtl (reqWrite 1 data)))

/-- REQ_LINE_HOLD. -/
def execReqLineHold (data : Half) (s : State) : Host.Outcome State Fault Refusal :=
  donePower s (byHost (.reqLineHold data) (Block.pwrCtl (reqWrite 2 data)))

/-- REQ_STANDBY. -/
def execReqStandby (data : Half) (s : State) : Host.Outcome State Fault Refusal :=
  donePower s (byHost (.reqStandby data) (Block.pwrCtl (reqWrite 3 data)))

/-- REQ_MAINT. -/
def execReqMaint (data : Half) (s : State) : Host.Outcome State Fault Refusal :=
  donePower s (byHost (.reqMaint data) (Block.pwrCtl (reqWrite 4 data)))

/-- A change of state due at a boundary (R527): at the first one that is not before its instant. -/
def Block.pwrBoundary (b : Block) : Block :=
  match b.pw.pend with
  | none => b
  | some (st, t) => if t ≤ b.cyc.start then b.pwrEffect st else b

/-! ### Banks and quads (R532, R540) -/

/-- QUAD_IDLE_OFF: 10 ms after the last access that powered the quad. -/
def execQuadIdleOff (q : Fin 9) (s : State) : Host.Outcome State Fault Refusal :=
  done s fun b =>
    if b.pw.quadAcc.getLsbD q then
      let b1 := b.reachPhys ((b.pw.quadAt[q]) + 10000000 * nsUnit)
      (b1.mapPw (fun p => { p with quadAcc := p.quadAcc &&& ~~~BitVec.ofNat 9 (2 ^ q.val) })).quadShow q
    else b

/-! ### Waking (R534 to R536) -/

/-- A source wakes the module: its enable bit is set, and so is what Table 18-5 asks of it. -/
def Block.wakes (b : Block) (w : WakeSrc) : Bool :=
  let c := w.code.val
  decide (1 ≤ c) && bitAt (b.get PWR_WEN_SRC) (c - 1) &&
    (if c = 1 then bitAt (b.get PWR_WLANE_MASK) w.idx
     else if c = 3 then bitAt (b.get PWR_WRING_PORTS) w.idx
     else if c = 5 then decide (w.idx.val < 24) && bitAt (b.get PWR_WGPIO_MASK) w.idx && (w.level != bitAt (b.get PWR_WGPIO_POL) w.idx)
     else if c = 6 then b.flag PWR_AONWK_EN && decide (b.get PWR_AONWK_AT ≤ b.aon)
     else true)

/-- The module wakes to PWR_WEN.TARGET (R534 to R536): domains on at their reset values, banks to be checked, wall time
restored where PD2 was off, INT_N low until the first access. -/
def Block.wakeUp (b : Block) (code : Nat) : Block :=
  let timeOff := !b.domOn 2
  let target := b.get PWR_WEN_TARGET
  let b1 := (b.put PWR_CAUSE_WSRC code).putB PWR_CAUSE_WAKE true
  let b2 := (b1.setDomains b1.runDomains).mapRings (fun w => { w with ring := w.ring.map (fun r => { r with wake := true }) })
  let b3 := if timeOff then b2.timeUp else b2
  let b4 := (b3.hostUp true).reapplyAll
  let b5 := if target = 2 then b4.unseal (banksOf [b4.get PWR_CTL_HOLDENG]) else b4.unseal (banksOf (List.range 16))
  let b6 := (b5.mapPw (fun p => { p with intLow := true })).pwrTo target
  let held := b6.host.held
  Block.occurAll { b6 with host := { b6.host with held := [] } } held

/-- WAKE: of the sources detected together the lowest enabled code counts (R535). -/
def execWake (ws : List WakeSrc) (dt : Nat) (s : State) : Host.Outcome State Fault Refusal :=
  donePower s fun b0 =>
    let b := b0.advanceNs dt
    if b.pwrState = 3 then
      match ((ws.filter b.wakes).map (·.code.val)).min? with
      | some c => b.wakeUp c
      | none => b
    else b

/-- WAKE_PATTERN: the pattern arrives at a ring port whose detector is powered (R264). -/
def execWakePattern (p : Fin 32) (dt : Nat) (s : State) : Host.Outcome State Fault Refusal :=
  donePower s fun b0 =>
    let b := b0.advanceNs dt
    if b.pwrState = 3 && b.wakes ⟨3, p, true⟩ then b.wakeUp 3 else b

/-! ### Mains failure (R542 to R545, R585) -/

/-- The supervisor sheds (R544): the time record, PWR_LAST, then every domain but PD0 and PD1. -/
def Block.shedNow (b : Block) (heat : Bool) : Block :=
  let b1 := (b.mapPw (fun p => { p with pend := none, kind := none, shed := true, heat := heat, sealed := 0, unchecked := 0, lost := 0 })).timeRecord
  let b2 := (b1.put PWR_LAST_STATE b.pwrState).incSat PWR_LAST_FAILS 1
  let b3 := b2.lose [2, 3, 4, 5, 6, 7, 8, 9, 10, 11] false
  let b4 := Block.setDomains { b3 with cav := { b3.cav.cleared with copying := [] } } 3
  ((b4.put PWR_STAT_QON 0).put PWR_STAT_RES 0).pendShow

/-- PWR_FAIL: raised, the uplinks fenced, and in a pair told to the partner (R508, R542). After a thermal shutdown the
mains failure governs and nothing is shed again (R585). -/
def execPwrFail (dt : Nat) (s : State) : Host.Outcome State Fault Refusal :=
  done s fun b0 =>
    let b := b0.advanceNs dt
    if b.pw.failAt.isSome ∨ (b.pw.shed && !b.pw.heat) ∨ b.pwrState = 5 then b
    else
      let b1 := ((b.putB PWR_STAT_MAINS false).putB PWR_CAUSE_FAIL true).raise evPwrFail
      let b2 := b1.mapPw (fun p => { p with failAt := some b.tm.phys, kind := none, heat := false })
      let b3 := (b2.putB SYS_RST_BUSY false).mapPair (fun p => { p with fence := true, alive := false, failSeen := true })
      b3.sendRope (.control .pwrFail)

/-- The instant of PWR_FAIL + SHED ms. -/
def Block.shedAt (b : Block) (t : Nat) : Nat := t + b.get PWR_HOLD_SHED * 1000000 * nsUnit

/-- MAINS_RECOVER: before PWR_FAIL + SHED ms nothing is switched off (R543). -/
def execMainsRecover (dt : Nat) (s : State) : Host.Outcome State Fault Refusal :=
  done s fun b0 =>
    let b := b0.advanceNs dt
    match b.pw.failAt with
    | none => b
    | some t =>
      if b.pw.shed ∨ b.shedAt t ≤ b.tm.phys then b
      else
        let b1 := ((b.putB PWR_STAT_MAINS true).putB PWR_CAUSE_RECOVER true).mapPw (fun p => { p with failAt := none })
        let b2 := if b.flag PAIR_CFG_EN then b1 else b1.mapPair (fun p => { p with fence := false, alive := true })
        b2.raise evPwrState

/-- SHED: at PWR_FAIL + SHED ms without recovery. -/
def execShed (s : State) : Host.Outcome State Fault Refusal :=
  donePower s fun b =>
    match b.pw.failAt with
    | none => b
    | some t => if b.pw.shed then b else (b.reachPhys (b.shedAt t)).shedNow false

/-- CELL_SWITCHOVER: PD0 seals its banks and passes to the cell: BACKUP (R545). -/
def execCellSwitchover (dt : Nat) (s : State) : Host.Outcome State Fault Refusal :=
  donePower s fun b0 =>
    let b := b0.advanceNs dt
    if b.pwrState = 5 then b
    else
      let b1 := if b.pw.shed then b else b.shedNow false
      let b2 := (b1.mapPw (fun p => { p with cell := true, failAt := none })).seal (BitVec.ofNat 1538 (3 * 2 ^ 1536))
      ((b2.putB PWR_LAST_BKUP true).put PWR_STAT_STATE 5).setDomains 1

/-! ### Temperature (R546), PWR_RETN (R548) -/

/-- The level that raised THERM, after a measurement, and whether THERM is raised: above `lim` where armed, armed again
5 K below. -/
def thermArm (level : Option Int) (t lim : Int) : Option Int × Bool :=
  match level with
  | none => if lim < t then (some lim, true) else (none, false)
  | some l => if t ≤ l - 5 then (none, false) else (some l, false)

/-- New temperatures are measured (R546). -/
def Block.thermNow (b : Block) (die base : BitVec 8) : Block :=
  let (dl, d) := thermArm b.pw.dieLevel die.toInt (b.geti PWR_THERM_LIMIT)
  let (bl, h) := thermArm b.pw.baseLevel base.toInt 70
  let b1 := ((b.put PWR_THERM_DIE die.toNat).put PWR_THERM_BASE base.toNat).mapPw (fun p => { p with dieLevel := dl, baseLevel := bl })
  if d || h then (b1.putB PWR_CAUSE_THERM true).raise evTherm else b1

/-- THERM. -/
def execTherm (die base : BitVec 8) (dt : Nat) (s : State) : Host.Outcome State Fault Refusal :=
  done s fun b => (b.advanceNs dt).thermNow die base

/-- RETN_CLR. -/
def Block.retnClrAct (b : Block) : Block := (b.put PWR_RETN_BANK 0).put PWR_RETN_NLOST 0

/-- RETN_CLR. -/
def execRetnClr (s : State) : Host.Outcome State Fault Refusal :=
  done s (byHost .retnClr Block.retnClrAct)

end Sys2Proof.Machine
end

