-- ==== Sys2Proof/Machine/Hardware.lean ====
section
/-! DEFINITION. Module hardware: the SMBus identity memory, the cages, the encoder supply, the cell and the
thermal shutdown (R574 to R586). -/

namespace Sys2Proof.Machine

/-! ### The identity memory (R574) -/

/-- Byte `k` of the identity memory. -/
def identByte (k : Nat) : Byte :=
  if k = 0 then 0x07
  else if k = 1 then 0x20
  else if k = 2 then BitVec.ofNat 8 Config.variant.toNat
  else if k = 3 then Config.buildLevel
  else if 8 ≤ k ∧ k < 16 then BitVec.ofNat 8 (Config.serial.toNat / 256 ^ (15 - k))
  else 0

/-- The bytes of a read from byte `off` on. R574 gives 256 bytes and no rule past the last: such a byte is a free value
(log entry 2). -/
def Block.identBytes (b : Block) (off : Nat) : Nat → List Byte
  | 0 => []
  | n + 1 =>
    if off < 256 then identByte off :: b.identBytes (off + 1) n
    else BitVec.ofNat 8 (b.freeNext 255) :: b.freeStep.identBytes (off + 1) n

/-- SMBUS_READ: the target answers at 0x50 in every state but BACKUP (R573, R574). -/
def execSmbusRead (dev : BitVec 7) (off : BitVec 8) (len : BitVec 9) (s : State) : Host.Outcome State Fault Refusal :=
  done s fun b =>
    if dev = 0x50 ∧ b.domOn 1 then
      let b1 := b.emit (.smbus (b.identBytes off.toNat len.toNat))
      { b1 with free := b.free + (off.toNat + len.toNat - 256) }
    else b

/-! ### Cages (R579, R580) -/

/-- The ports of cage `q`; QR has none. -/
def cagePorts (q : Nat) : List Nat := if q < 8 then (List.range 4).map (4 * q + ·) else []

/-- LINK of a cage's ports becomes 0 with a cause. -/
def Block.cageDown (b : Block) (q code : Nat) : Block :=
  (cagePorts q).foldl (fun x n => if x.flag (MAC_CTL_EN n) && !x.absent n then x.linkLost n code else x) b

/-- MODULE_INSERT: LPMODE is released for class 1 to 4 and held for class 5 to 7 (R579). -/
def execModuleInsert (q : Fin 9) (cls : Fin 8) (dt : Nat) (s : State) : Host.Outcome State Fault Refusal :=
  done s fun b0 =>
    let b := b0.advanceNs dt
    if bitAt (b.get SYS_HWSTAT_QPRES) q then b
    else
      let b1 := (b.setBit SYS_HWSTAT_QPRES q).mapPw (fun p => { p with cls := vmod p.cls q (fun _ => cls.val) })
      if 5 ≤ cls.val then b1.setBit SYS_HWSTAT_QLOW q else b1.clrBit SYS_HWSTAT_QLOW q

/-- MODULE_REMOVE: the ports go down with ABSENT and a switched-off supply is enabled again (R579, R580). -/
def execModuleRemove (q : Fin 9) (dt : Nat) (s : State) : Host.Outcome State Fault Refusal :=
  done s fun b0 =>
    let b := b0.advanceNs dt
    let b1 := ((b.clrBit SYS_HWSTAT_QPRES q).clrBit SYS_HWSTAT_QLOW q).clrBit SYS_HWSTAT_QOC q
    (b1.mapPw (fun p => { p with cls := vmod p.cls q (fun _ => 0) })).cageDown q 2

/-- CAGE_OVERCURRENT: the supply of the cage is off, ALARM without a SEC cause, the ports go down with LANE (R580). -/
def execCageOvercurrent (q : Fin 9) (dt : Nat) (s : State) : Host.Outcome State Fault Refusal :=
  done s fun b0 =>
    let b := b0.advanceNs dt
    ((b.setBit SYS_HWSTAT_QOC q).raise evAlarm).cageDown q 5

/-- The QOC bits of a mask are cleared. -/
def Block.ocClear (mask : Nat) (b : Block) : Block := b.put SYS_HWSTAT_QOC (clrMaskN (b.get SYS_HWSTAT_QOC) mask)

/-- CAGE_OC_CLEAR. -/
def execCageOcClear (mask : BitVec 9) (s : State) : Host.Outcome State Fault Refusal :=
  done s (byHost (.cageOcClear mask) (Block.ocClear mask.toNat))

/-! ### Encoder supply and cell (R576, R582, R586) -/

/-- ENC_SUPPLY_RETRY: 100 ms later ENC_5V is on again unless the short is still there. -/
def execEncSupplyRetry (short : Bool) (s : State) : Host.Outcome State Fault Refusal :=
  done s fun b => (b.advanceNs 100000000).mapPw (fun p => { p with enc5v := b.flag SYS_IOCFG_ESUP && !short })

/-- CELL_MEASURE: every 10 s the cell voltage is measured. The grid is taken from power-on. -/
def execCellMeasure (mv : BitVec 12) (s : State) : Host.Outcome State Fault Refusal :=
  done s fun b =>
    let g := 10 ^ 10 * nsUnit
    (b.reachPhys ((b.tm.phys / g + 1) * g)).put SYS_HWSTAT_VCELL mv.toNat

/-! ### Thermal shutdown (R585) -/

/-- THERMAL_SHUTDOWN: baseplate at 80 °C or die at 120 °C for 1 s; the module sheds once. -/
def execThermalShutdown (die base : BitVec 8) (dt : Nat) (s : State) : Host.Outcome State Fault Refusal :=
  donePower s fun b0 =>
    let b := (b0.advanceNs dt).thermNow die base
    if (80 ≤ base.toInt ∨ 120 ≤ die.toInt) ∧ !b.pw.shed ∧ b.pwrState ≠ 5 then
      ((b.incSat SYS_HWSTAT_TSHUT 1).putB SYS_RST_BUSY false).shedNow b.pw.failAt.isNone
    else b

end Sys2Proof.Machine
end

