-- ==== Sys2Proof/Machine/Host.lean ====
section
/-! DEFINITION. The host interface: completions, HOST_ERR and its causes, events and MSI-X, the
host resets of R55 and the PCIe start of R592. -/

namespace Sys2Proof.Machine

/-- The first eight-byte location of the register slot that holds a BAR0 offset (R58, R60). -/
def slotOf (off : Nat) : Nat := off / 16 * 16

/-- A BAR0 request of 4 or 8 naturally aligned bytes (R57). -/
def sizeOk (r : BarReq) : Bool := if r.eight then r.off.toNat % 8 == 0 else r.off.toNat % 4 == 0

/-- The 64 bits at a BAR0 location: bits [63:0], or bits [71:64] with UTAG (R60). A WO field reads
zero (R17), and EVT_SET reads as EVT_PEND (Table 2-10). -/
def Block.location (b : Block) (off : Nat) : Nat :=
  let a := slotOf off
  let v := if a == EVT_SET then (b.reg EVT_PEND).toNat
    else if 0x410050 ≤ a && a < 0x410090 then 0 else (b.reg a).toNat
  if off % 16 < 8 then v % 2 ^ 64 else v / 2 ^ 64 + (sget (fun _ => 0) b.utags a).toNat * 256

/-- The bytes a BAR0 read returns (R60, R62). -/
def Block.readBytes (b : Block) (off : Nat) (eight : Bool) : List Byte :=
  let v := b.location (off / 8 * 8)
  (List.range (if eight then 8 else 4)).map (fun k => BitVec.ofNat 8 (v / 2 ^ (8 * (off % 8 + k))))

/-- A read that completes with zero, or a write that is discarded (R57, R71). -/
def Block.zeroCompletion (b : Block) (r : BarReq) : Block :=
  if r.wr then b else b.emit (.readData r.off.toNat (List.replicate (if r.eight then 8 else 4) 0) false)

/-- A request completes as Unsupported Request (R57). -/
def Block.unclaimed (b : Block) (off : Nat) : Block := (b.pciError 20).emit (.unsupported off)

/-- A BAR0 request of another size or alignment (R57). -/
def Block.badSize (b : Block) (off : Nat) : Block := (b.unclaimed off).hostErr 2 off

/-- UNSUPPORTED_SIZE: Unsupported Request with cause SIZE (R57). -/
def execUnsupportedSize (off : BitVec 24) (s : State) : Host.Outcome State Fault Refusal :=
  done s (byHost (.unsupportedSize off) fun b => b.badSize off.toNat)

/-- A BAR0 access to an offset that no register occupies (R57). -/
def Block.unmapped (b : Block) (r : BarReq) : Block := (b.zeroCompletion r).hostErr 1 r.off.toNat

/-- POISONED_REQUEST: discarded with cause POISONED (R94). -/
def execPoisonedRequest (addr : Half) (s : State) : Host.Outcome State Fault Refusal :=
  done s fun b => (b.pciError 12).hostErr 9 addr.toNat

/-- A write of HOST_ERRCAUSE.CLR clears CODE and CNT (Table 2-8). -/
def Block.errClr (b : Block) : Block := (b.put HOST_ERRCAUSE_CODE 0).put HOST_ERRCAUSE_CNT 0

/-- HOST_ERR_CLR. -/
def execHostErrClr (s : State) : Host.Outcome State Fault Refusal := done s (byHost .hostErrClr Block.errClr)

/-- A write of HOST_STALL.CLR clears MAX (Table 2-8). -/
def Block.stallClr (b : Block) : Block := b.put HOST_STALL_MAX 0

/-- HOST_STALL_CLR. -/
def execHostStallClr (s : State) : Host.Outcome State Fault Refusal := done s (byHost .hostStallClr Block.stallClr)

/-! ### Events (R95 to R99) -/

/-- EVENT_OCCURRENCE: event `n` occurs (R96), or is held while PD3 is off. -/
def execEventOccurrence (n : Fin 64) (s : State) : Host.Outcome State Fault Refusal :=
  done s fun b => b.raise n.val

/-- The bits of a mask, as event numbers. -/
def maskBits (m : Nat) : List Nat := (List.range 64).filter (fun i => bitAt m i)

/-- Clear pending bits, and their Pending Bit Array bits where the vector is masked (R96, R97). -/
def Block.pendClear (b : Block) (mask : Half) : Block :=
  let b1 := b.put EVT_PEND_PEND (clrMaskN (b.get EVT_PEND_PEND) mask.toNat)
  { b1 with host := { b1.host with pba := b1.host.pba &&& ~~~(mask &&& b1.host.mask) } }

/-- EVT_PEND_CLEAR. -/
def execEvtPendClear (mask : Half) (s : State) : Host.Outcome State Fault Refusal :=
  done s (byHost (.evtPendClear mask) fun b => b.pendClear mask)

/-- Messages for a list of events. -/
def Block.messages (b : Block) : List Nat → Block
  | [] => b
  | n :: ns => (b.message n).messages ns

/-- Write EVT_EN: a message for each pending event newly enabled (R96). -/
def Block.enWrite (b : Block) (data : Half) : Block :=
  let old := b.get EVT_EN_EN
  let pend := b.get EVT_PEND_PEND
  (b.put EVT_EN_EN data.toNat).messages
    ((maskBits data.toNat).filter (fun i => !bitAt old i && bitAt pend i))

/-- EVT_EN_WRITE. -/
def execEvtEnWrite (data : Half) (s : State) : Host.Outcome State Fault Refusal :=
  done s (byHost (.evtEnWrite data) fun b => b.enWrite data)

/-- EVT_SET: each 1 acts as an occurrence of its event (Table 2-10). -/
def execEvtSet (mask : Half) (s : State) : Host.Outcome State Fault Refusal :=
  done s (byHost (.evtSet mask) fun b => b.occurAll (maskBits mask.toNat))

/-- A vector is unmasked, and a message waiting in the Pending Bit Array leaves (R97). -/
def Block.unmask (b : Block) (v : Nat) : Block :=
  let bit : BitVec 64 := BitVec.ofNat 64 (2 ^ v)
  let b1 := { b with host := { b.host with mask := b.host.mask &&& ~~~bit, pba := b.host.pba &&& ~~~bit } }
  if b.host.pba.getLsbD v then b1.emit (.msix v) else b1

/-- MSIX_UNMASK. -/
def execMsixUnmask (v : Fin 64) (s : State) : Host.Outcome State Fault Refusal := done s fun b => b.unmask v.val

/-! ### BAR4 and configuration space (R54, R56, R97, Tables 2-1 and 2-2; log entry 9) -/

/-- An entry of the MSI-X table as its 16 bytes: address, data, and the mask as bit 0 of the vector control. -/
def Block.vector (b : Block) (v : Nat) : Nat :=
  (sget (fun _ => (0 : BitVec 96)) b.host.pci.vectors v).toNat + b2n (b.host.mask.getLsbD v) * 2 ^ 96

/-- Replace an entry of the MSI-X table; one that becomes unmasked sends what waits. -/
def Block.setVector (b : Block) (v x : Nat) : Block :=
  let b1 := { b with host := { b.host with pci := { b.host.pci with
    vectors := sput (fun _ => 0) b.host.pci.vectors v (BitVec.ofNat 96 x) } } }
  if bitAt x 96 then { b1 with host := { b1.host with mask := b1.host.mask ||| BitVec.ofNat 64 (2 ^ v) } } else b1.unmask v

/-- The 16 bytes of a place of BAR4: an entry of the table, or the Pending Bit Array at 0x800. -/
def Block.bar4Place (b : Block) (p : Nat) : Nat :=
  if p < 64 then b.vector p else if p = 128 then b.host.pba.toNat else 0

/-- A request to BAR4. -/
def Block.bar4 (b : Block) (r : BarReq) : Block :=
  let o := r.off.toNat % 0x1000
  let n := if r.eight then 8 else 4
  let at_ := 8 * (o % 16)
  let x := b.bar4Place (o / 16)
  if !r.wr then b.emit (.readData r.off.toNat ((List.range n).map (fun k => BitVec.ofNat 8 (x / 2 ^ (at_ + 8 * k)))) false)
  else if 64 ≤ o / 16 then b
  else b.setVector (o / 16) (x - x / 2 ^ at_ % 2 ^ (8 * n) * 2 ^ at_ + r.data.toNat % 2 ^ (8 * n) * 2 ^ at_)

/-- A double word of configuration space. -/
def Block.pciWord (b : Block) (off : Nat) : Nat :=
  if off = 0 then 0x07201FD4
  else if off = 8 then 0x118000 * 256 + (Config.pciOther 8).toNat % 256
  else if off = 0x3C then (Config.pciOther 0x3C).toNat / 65536 * 65536 + (Config.pciOther 0x3C).toNat % 256
  else if off = Config.pciPower then b2n b.host.pci.d3hot * 3
  else if off = Config.pciDevice then b2n b.host.pci.payload256 * 32
  else (Config.pciOther off).toNat

/-- A configuration request: retry status until the endpoint is ready (R592); writes reach the power state and the max payload. -/
def Block.configReq (b : Block) (r : BarReq) : Block :=
  let o := slotOf r.off.toNat + r.off.toNat % 16 / 4 * 4
  if b.host.pcie = .reset then b
  else if b.host.pcie = .retry then b.emit .configRetry
  else if !r.wr then b.emit (.readData r.off.toNat (List.ofFn (fun k : Fin 4 => BitVec.ofNat 8 (b.pciWord o / 2 ^ (8 * k.val)))) false)
  else if o = Config.pciPower then
    { b with host := { b.host with pci := { b.host.pci with d3hot := decide (r.data.toNat % 4 = 3) } } }
  else if o = Config.pciDevice then
    { b with host := { b.host with pci := { b.host.pci with payload256 := decide (r.data.toNat / 32 % 8 ≠ 0) } } }
  else b

/-- PD3 is ready: the events its sources held set PEND (end of R100). -/
def Block.releaseHeld (b : Block) : Block :=
  Block.occurAll { b with host := { b.host with held := [] } } b.host.held

/-! ### Host resets (R55, R592) -/

/-- The registers that a host reset returns to their reset values (R55). -/
def hostResetReg (a : Nat) : Bool :=
  a == HOST_WIN || a == EVT_EN || a == EVT_PIN || a == EVT_CTL || (0x421000 ≤ a && a < 0x421400)

/-- A host reset: the PCIe core, the DMA engines and the registers of R55, nothing else. -/
def Block.hostReset (b : Block) : Block :=
  let b1 := b.resetRegs hostResetReg
  { b1 with host := { b1.host with
      pci := .reset, backlog := [], pcie := .reset, perst := true, stalls := [], mask := BitVec.allOnes 64, pba := 0 } }

/-- HOST_RESET. -/
def execHostReset (s : State) : Host.Outcome State Fault Refusal := done s Block.hostReset

/-- PERST_RELEASE: the PCIe core leaves reset and answers with retry status (R592). -/
def execPerstRelease (s : State) : Host.Outcome State Fault Refusal :=
  done s fun b =>
    if b.domOn 3 then { b with host := { b.host with perst := false, pcie := .retry } }
    else { b with host := { b.host with perst := false } }

/-- CONFIG_READY: the endpoint answers configuration requests normally (R592). -/
def execConfigReady (s : State) : Host.Outcome State Fault Refusal :=
  done s fun b =>
    if b.host.pcie = .retry then
      Block.advanceNs { b with host := { b.host with pcie := .ready } } 20000000
    else b

end Sys2Proof.Machine
end

