-- ==== Sys2Proof/Machine/Security.lean ====
section
/-! DEFINITION. The key store, tamper sources, the alarm log, the challenge function and the fuses (R550 to R567). -/

namespace Sys2Proof.Machine

/-! ### The alarm log (R560, R561) -/

/-- What an empty place of the log shows. -/
def LogEnt.blank : LogEnt := { aon := 0, src := 0, act := 0, pd2 := false, bkup := false, ltH := 0xF0, ltL := 0 }

/-- SEC_LOGINFO and SEC_LOGLT show the entry that IDX selects. -/
def Block.logShow (b : Block) : Block :=
  let e := sget (fun _ => LogEnt.blank) b.sec.log (b.get SEC_LOGCTL_IDX)
  let info := e.aon % 2 ^ 48 + e.src % 16 * 2 ^ 48 + e.act % 4 * 2 ^ 52 + b2n e.pd2 * 2 ^ 54 + b2n e.bkup * 2 ^ 55
  ((b.setReg SEC_LOGINFO (BitVec.ofNat 72 info)).setReg SEC_LOGLT e.ltH).setReg SEC_LOGLTL e.ltL

/-- An entry of the log at the present (R560, R561). -/
def Block.logEntry (b : Block) (src act : Nat) : LogEnt :=
  let live := b.domOn 2
  { aon := b.aon, src := src, act := act, pd2 := live, bkup := b.pwrState == 5
    ltH := if live then b.ltHighNow else 0xF0, ltL := if live then ltLow b.tm.lt else 0 }

/-- Write an entry at NEXT; a full log overwrites its oldest and counts it in LOST (R560). -/
def Block.logWrite (b : Block) (src act : Nat) : Block :=
  let k := b.get SEC_LOGCTL_NEXT
  let b1 := b.mapSec (fun x => { x with log := sput (fun _ => LogEnt.blank) x.log k (b.logEntry src act) })
  let b2 := if b.get SEC_LOGCTL_COUNT = 16 then b1.incSat SEC_LOGCTL_LOST 1 else b1.incSat SEC_LOGCTL_COUNT 1
  (b2.put SEC_LOGCTL_NEXT (k + 1)).logShow

/-- A write of SEC_LOGCTL.IDX. -/
def Block.logSelect (k : Nat) (b : Block) : Block := (b.put SEC_LOGCTL_IDX k).logShow

/-- LOG_CLR: the log is empty; COUNT, NEXT and LOST are zero. -/
def Block.logClear (b : Block) : Block :=
  Block.logShow ((((b.mapSec (fun x => { x with log := [] })).put SEC_LOGCTL_COUNT 0).put SEC_LOGCTL_NEXT 0).put SEC_LOGCTL_LOST 0)

/-- LOG_CLR. -/
def execLogClr (s : State) : Host.Outcome State Fault Refusal :=
  done s (byHost .logClr Block.logClear)

/-! ### Keys (R551, R555) -/

/-- The key in SEC_KDATA0 to SEC_KDATA3. -/
def Block.keyData (b : Block) : Nat :=
  b.get (SEC_KDATA_KEY 0) + b.get (SEC_KDATA_KEY 1) * 2 ^ 64 + b.get (SEC_KDATA_KEY 2) * 2 ^ 128 + b.get (SEC_KDATA_KEY 3) * 2 ^ 192

/-- SEC_KDATA0 to 3 return to zero. -/
def Block.keyDataZero (b : Block) : Block := (List.range 4).foldl (fun x j => x.setReg (SEC_KDATA j) 0) b

/-- SEC_KCTL.WRITE: the selected slot becomes LOADED; refused while LOCKED or while an erase is in progress (R551). -/
def Block.keyWrite (b : Block) : Block :=
  if b.flag SEC_STAT_LOCKED || b.flag SEC_STAT_ERASING then b.putB SEC_KCTL_REFUSED true
  else
    let k := b.get SEC_KSEL_SLOT
    let key := b.keyData
    let b1 := b.mapSec (fun x => { x with keys := vmod x.keys k (fun _ => key) })
    let b2 := ((b1.put (SEC_KSTAT_STATE k) 1).put (SEC_KSTAT_USE k) (b.get SEC_KSEL_USE)).put (SEC_KSTAT_KCV k)
      (natOfBytesBE ((sha256 (keyBytes key)).take 2))
    ((b2.incSat (SEC_KSTAT_WCNT k) 1).putB SEC_KCTL_REFUSED false).keyDataZero

/-- KEY_WRITE. -/
def execKeyWrite (s : State) : Host.Outcome State Fault Refusal :=
  done s (byHost .keyWrite Block.keyWrite)

/-- SEC_KCTL.CLEAR: the selected slot becomes EMPTY and its key zero, or the request is refused (R551). -/
def Block.keyClear (b : Block) : Block :=
  if b.flag SEC_STAT_LOCKED || b.flag SEC_STAT_ERASING then b.putB SEC_KCTL_REFUSED true
  else
    let k := b.get SEC_KSEL_SLOT
    ((b.mapSec (fun x => { x with keys := vmod x.keys k (fun _ => 0) })).put (SEC_KSTAT_STATE k) 0).putB SEC_KCTL_REFUSED false

/-- KEY_CLEAR. -/
def execKeyClear (s : State) : Host.Outcome State Fault Refusal :=
  done s (byHost .keyClear Block.keyClear)

/-- MIRROR_REBUILD: the mirror holds the keys again (R555). -/
def execMirrorRebuild (dt : Nat) (s : State) : Host.Outcome State Fault Refusal :=
  done s fun b => (b.advanceNs dt).mapSec (fun x => { x with mirrorBad := false })

/-! ### Challenge (R553) -/

/-- A write of SEC_CHCTL with GO: the HMAC of the challenge, or FAIL and zero. -/
def Block.challenge (data : Half) (b0 : Block) : Block :=
  let b := ((b0.put SEC_CHCTL_SLOT data.toNat).putB SEC_CHCTL_DONE true).putB SEC_CHCTL_FAIL false
  match b.keyFor (b.get SEC_CHCTL_SLOT) 2 true with
  | some key =>
    let msg := (List.range 4).flatMap (fun j => bytesBE (b.get (SEC_CHAL_DATA j)) 8)
    let m := hmac256 (keyBytes key) msg
    (b.put (SEC_RESP_RESP 0) (natOfBytesBE (m.take 8))).put (SEC_RESP_RESP 1) (natOfBytesBE ((m.drop 8).take 8))
  | none => ((b.putB SEC_CHCTL_FAIL true).put (SEC_RESP_RESP 0) 0).put (SEC_RESP_RESP 1) 0

/-- CHALLENGE_GO. -/
def execChallengeGo (data : Half) (s : State) : Host.Outcome State Fault Refusal :=
  done s (byHost (.challengeGo data) (Block.challenge data))

/-! ### Tamper (R556 to R559) -/

/-- Every slot, the mirror and every copy becomes zero, every slot ERASED (R557). -/
def Block.eraseKeys (b : Block) : Block :=
  let b1 := b.mapSec (fun x => { x with keys := Vector.replicate 16 0, ropeKey := none })
  ((List.range 16).foldl (fun x k => x.put (SEC_KSTAT_STATE k) 2) b1).putB SEC_CAUSE_ERASED true

/-- The action of a source: 0 LOG, 1 LOCK, 2 ERASE. -/
def Block.tamperAct (b : Block) (src : Nat) : Nat := b.get SEC_TACT_ACT / 4 ^ src % 4

/-- Log a list of sources that have acted. -/
def Block.tamperLog (b : Block) : List Nat → Block
  | [] => b
  | s :: r => ((b.logWrite s (b.tamperAct s)).put SEC_CAUSE_SRC s).tamperLog r

/-- The sources watched: all but the mains-only ones in BACKUP (Table 19-2). -/
def Block.watched (b : Block) (level : BitVec 7) : BitVec 7 := if b.pwrState = 5 then level &&& 0x0F else level

/-- The levels of the sources: those newly present act, each once, the strongest of their actions together (R557, R558). -/
def Block.tamperNow (b : Block) (level : BitVec 7) : Block :=
  let lv := b.watched level
  let fresh := (List.range 7).filter (fun s => lv.getLsbD s && !b.sec.acted.getLsbD s)
  let b1 := (b.put SEC_STAT_LEVEL lv.toNat).mapSec (fun x => { x with acted := lv })
  if fresh = [] then b1
  else
    let b2 := ((b1.tamperLog fresh).putB SEC_CAUSE_TAMPER true).raise evAlarm
    if fresh.any (fun s => b.tamperAct s == 2) then b2.eraseKeys
    else if fresh.any (fun s => b.tamperAct s == 1) then b2.putB SEC_STAT_LOCKED true
    else b2

/-- TAMPER: the levels of the sources after their detection times. -/
def execTamper (level : BitVec 7) (dt : Nat) (s : State) : Host.Outcome State Fault Refusal :=
  done s fun b => (b.advanceNs dt).tamperNow level

/-- SEC_UNLOCK: LOCKED clears while no source with action LOCK or ERASE is present (R557). -/
def Block.secUnlockAct (b : Block) : Block :=
    if (List.range 7).any (fun s => bitAt (b.get SEC_STAT_LEVEL) s && b.tamperAct s != 0) then b
    else b.putB SEC_STAT_LOCKED false

/-- SEC_UNLOCK. -/
def execSecUnlock (s : State) : Host.Outcome State Fault Refusal :=
  done s (byHost .secUnlock Block.secUnlockAct)

/-- SOFT_ERASE: an ERASE, logged as source 7 (R557). -/
def Block.softEraseAct (b : Block) : Block :=
    ((((b.logWrite 7 2).put SEC_CAUSE_SRC 7).putB SEC_CAUSE_TAMPER true).raise evAlarm).eraseKeys

/-- SOFT_ERASE. -/
def execSoftErase (s : State) : Host.Outcome State Fault Refusal :=
  done s (byHost .softErase Block.softEraseAct)

/-- The fuse registers outlast every reset (R594). -/
def fuseReg (a : Nat) : Bool := 0x410600 ≤ a && a < 0x410740

/-- The SEC registers but the fuses. -/
def secReg (a : Nat) : Bool := 0x410000 ≤ a && a < 0x420000 && !fuseReg a

/-- PD0 has lost its contents: SEC registers, keys, log, AON counter and time record (R594). -/
def Block.pd0Lost (b : Block) : Block :=
  let b1 := b.resetRegs secReg
  { b1 with
    sec := { SecSt.reset with acted := b.sec.acted }
    tm := { b1.tm with aonZero := b1.tm.phys, record := none }
    pw := { b1.pw with sealed := b1.pw.sealed &&& ~~~BitVec.ofNat 1538 (3 * 2 ^ 1536) } }

/-- BROWNOUT: PD0's supply rises above 2.0 V after it fell below 1.9 V on the cell: every slot reads ERASED, and the entry
is logged (R559). -/
def execBrownout (dt : Nat) (s : State) : Host.Outcome State Fault Refusal :=
  doneRestart s (fun a => secReg a && s.blk.pwrState == 5) fun b0 =>
    let b := b0.advanceNs dt
    if b.pwrState = 5 then
      let b1 := b.pd0Lost.mapPw (fun p => { p with brown := true })
      ((List.range 16).foldl (fun x k => x.put (SEC_KSTAT_STATE k) 2) b1).logWrite 8 2
    else b

/-! ### Fuses (R564) -/

/-- The slots that are ACTIVE but `k`. -/
def Block.activeBut (b : Block) (k : Nat) : List Nat := (List.range 4).filter (fun j => j ≠ k && b.get (SEC_FUSE_STATE j) == 1)

/-- A write of the low half of SEC_FCTL (R564). -/
def Block.fuseCtl (data : Half) (b : Block) : Block :=
  let d := data.toNat
  let b1 := (b.put SEC_FCTL_SLOT d).put SEC_FCTL_CONFIRM (d / 16)
  let k := d % 4
  let prog := bitAt d 2
  let rev := bitAt d 3
  if b.get SEC_FCTL_FSTAT = 1 ∨ !(prog || rev) then b1
  else if (prog && rev) || b1.get SEC_FCTL_CONFIRM != 0xA5 || b.flag SYS_CYCLE_RUN || (prog && b.get (SEC_FUSE_STATE k) != 0) ||
      (rev && (b.get (SEC_FUSE_STATE k) != 1 || (b.activeBut k).isEmpty)) then b1.put SEC_FCTL_FSTAT 3
  else (b1.put SEC_FCTL_FSTAT 1).mapSec (fun x => { x with fuse := some (k, prog) })

/-- FUSE_PROG: a write of SEC_FCTL with PROG 1. -/
def execFuseProg (data : Half) (s : State) : Host.Outcome State Fault Refusal :=
  done s (byHost (.fuseProg data) (Block.fuseCtl (data ||| 4)))

/-- FUSE_REVOKE: a write of SEC_FCTL with REVOKE 1. -/
def execFuseRevoke (data : Half) (s : State) : Host.Outcome State Fault Refusal :=
  done s (byHost (.fuseRevoke data) (Block.fuseCtl (data ||| 8)))

/-- FUSE_DONE. -/
def execFuseDone (dt : Nat) (s : State) : Host.Outcome State Fault Refusal :=
  done s fun b0 =>
    match b0.sec.fuse with
    | none => b0
    | some (k, prog) =>
      let b := ((b0.advanceNs dt).put SEC_FCTL_FSTAT 2).mapSec (fun x => { x with fuse := none })
      if prog then
        ((List.range 4).foldl (fun x j => x.put (SEC_FP_FP k j) (b.get (SEC_FPW_FP j))) b).put (SEC_FUSE_STATE k) 1
      else b.put (SEC_FUSE_STATE k) 2

/-! ### Image authentication (R563) -/

/-- The 64 bytes of the public key of a fuse slot: x, then y, most significant byte first (R562, R563). -/
def Block.publicKey (b : Block) (k : Nat) : Nat × Nat :=
  let w := fun j => b.get (SEC_PK_PK k j)
  (w 0 + w 1 * 2 ^ 64 + w 2 * 2 ^ 128 + w 3 * 2 ^ 192, w 4 + w 5 * 2 ^ 64 + w 6 * 2 ^ 128 + w 7 * 2 ^ 192)

/-- The fingerprint in a fuse slot. -/
def Block.fingerprint (b : Block) (k : Nat) : Nat :=
  b.get (SEC_FP_FP k 0) + b.get (SEC_FP_FP k 1) * 2 ^ 64 + b.get (SEC_FP_FP k 2) * 2 ^ 128 + b.get (SEC_FP_FP k 3) * 2 ^ 192

/-- The check of R563: 0, or the CODE of the first failure (1 SIG, 2 REVOKED, 3 BLANK, 4 PKMIS). -/
def Block.authCode (b : Block) (k r s : Nat) (digest : List Byte) : Nat :=
  let st := b.get (SEC_FUSE_STATE k)
  let (x, y) := b.publicKey k
  if st = 2 then 2
  else if st ≠ 1 then 3
  else if natOfBytesBE (sha256 (bytesBE x 32 ++ bytesBE y 32)) ≠ b.fingerprint k then 4
  else if ecdsaOk x y r s digest then 0 else 1

end Sys2Proof.Machine
end

