-- ==== Sys2Proof/Machine/Startup.lean ====
section
/-! DEFINITION. Start-up and the reset kinds (R590 to R598). -/

namespace Sys2Proof.Machine

/-! ### The supervisor image at start-up (R590 step 3, R591) -/

/-- A supervisor image fails a check of R563: SEC_AUTH and IMAGE_AUTH. The slot is the image's own, which is not known
here: a free value (log entry 2). -/
def Block.bootFail (b : Block) (code : Nat) : Block :=
  (((b.put SEC_AUTH_CODE code).put SEC_AUTH_SLOT (b.freeNext 3)).freeStep).raise evImageAuth

/-- The images of the flash are verified: `dfl` and `fac` are 0 or the CODE of the failing check. SYS_BOOT shows which
image runs. -/
def Block.bootImage (b : Block) (dfl fac : Nat) : Block :=
  if dfl = 0 then ((b.putB SYS_BOOT_RUNSRC false).put SYS_BOOT_BCODE 0).putB SYS_BOOT_SAFE false
  else
    let b1 := ((b.bootFail dfl).putB SYS_BOOT_RUNSRC true).put SYS_BOOT_BCODE dfl
    if fac = 0 then b1.putB SYS_BOOT_SAFE false else (b1.bootFail fac).putB SYS_BOOT_SAFE true

/-! ### The steps of Table 21-1 -/

/-- PD0, PD1, PD2, PD3, PD7 and PD11 (R591). -/
def safeDomains : Nat := 1 + 2 + 4 + 8 + 2 ^ 7 + 2 ^ 11

/-- SYS_RSTCAUSE of a start (R593, Table 21-4). -/
def Block.rstCause (b : Block) (kind why : Nat) : Block :=
  let b1 := ((b.put SYS_RSTCAUSE_KIND kind).put SYS_RSTCAUSE_WHY why).putB SYS_RSTCAUSE_RREC (!b.retRec.isEmpty)
  if kind = 2 then b1.incSat SYS_RSTCAUSE_NMOD 1 else if kind = 3 then b1.incSat SYS_RSTCAUSE_NLINE 1 else b1

/-- Every power record of a module that is on. -/
def PwSt.started (p : PwSt) : PwSt :=
  { p with pend := none, failAt := none, shed := false, heat := false, cell := false, brown := false, kind := none, enc5v := true, intLow := false,
           quadAcc := 0 }

/-- Steps 3 to 8 (R590, R591), from PD0 and PD1 on and everything else at its reset state. -/
def Block.startSteps (b : Block) (kind why dfl fac : Nat) (refclk : Bool) : Block :=
  let b1 := (b.bootImage dfl fac).mapPw PwSt.started
  let b2 := (b1.setDomains 7).timeUp
  let b3 := (b2.setDomains 15).hostUp refclk
  let b4 := b3.setDomains (if b3.flag SYS_BOOT_SAFE then safeDomains else b3.runDomains)
  let b5 := Block.reapplyAll { b4 with cav := { b4.cav.cleared with copying := [] } }
  let b6 := ((b5.putB PWR_STAT_MAINS true).rstCause kind why).mapPair (fun p => { p with alive := true, fence := false })
  (b6.pwrTo 0).releaseHeld

/-- The registers that a start from mains resets in PD1 and beyond (R594): those of PWR but for PWR_LAST, the GPIO levels,
and at COLD also PWR_LAST and the counts of SYS_RSTCAUSE. -/
def powerOnReg (cold : Bool) (a : Nat) : Bool :=
  (inDomain 1 a && (cold || a != PWR_LAST)) || a == SYS_GPIO || (cold && a == SYS_RSTCAUSE)

/-- Step 2: banks 1,536 and 1,537 are checked (R540). -/
def Block.startBanks (b : Block) (sealed : BitVec 2) : Block :=
  ((b.unseal (BitVec.ofNat 1538 (3 * 2 ^ 1536))).bankCheck 1536 (sealed.getLsbD 0)).bankCheck 1537 (sealed.getLsbD 1)

/-- A start from BACKUP: COLD where PD0 lost its supply, else POWER-ON (R593). -/
def Block.powerOn (b : Block) (dfl fac : Nat) (sealed : BitVec 2) (refclk : Bool) : Block :=
  let cold := b.pw.brown
  let b1 := (b.resetRegs (powerOnReg cold)).put SYS_HWSTAT_TSHUT 0
  let b2 := ((b1.mapPw (fun p => { p with dieLevel := none, baseLevel := none })).setDomains 3).startBanks sealed
  b2.startSteps (if cold then 0 else 1) (if cold then 4 else 0) dfl fac refclk

/-- MAINS_ON: mains applied to a module in BACKUP, or returning after it has shed (R544, R590, R593). -/
def execMainsOn (dfl fac : Fin 5) (sealed : BitVec 2) (refclk : Bool) (dt : Nat) (s : State) : Host.Outcome State Fault Refusal :=
  donePower s fun b0 =>
    let b := b0.advanceNs dt
    if b.pwrState = 5 then b.powerOn dfl fac sealed refclk
    else if b.pw.shed && b.pw.failAt.isSome then b.startSteps 2 1 dfl fac refclk
    else b

/-- THERMAL_RESTART: after a thermal shutdown, cooled to 65 °C and 105 °C (R585). -/
def execThermalRestart (die base : BitVec 8) (dfl fac : Fin 5) (refclk : Bool) (dt : Nat) (s : State) :
    Host.Outcome State Fault Refusal :=
  donePower s fun b0 =>
    let b := (b0.advanceNs dt).thermNow die base
    if b.pw.shed && b.pw.heat && decide (base.toInt ≤ 65) && decide (die.toInt ≤ 105) then b.startSteps 2 3 dfl fac refclk else b

/-! ### Resets by the host (R593, R596 to R598) -/

/-- Banks of the engines are neither sealed nor LOST. -/
def PwSt.banksFresh (p : PwSt) : PwSt :=
  let m := ~~~BitVec.ofNat 1538 (2 ^ 1536 - 1)
  { p with sealed := p.sealed &&& m, unchecked := p.unchecked &&& m, lost := p.lost &&& m }

/-- A MODULE reset begins: the time record is written, every domain but PD0 and PD1 restarts. -/
def Block.moduleStart (b : Block) : Block :=
  let b1 := b.timeRecord.lose [2, 3, 4, 5, 6, 7, 8, 9, 10, 11] false
  let b2 := Block.setDomains { b1 with cav := { b1.cav.cleared with copying := [] } } 3
  let b3 := b2.mapPw (fun p => { p.banksFresh with kind := some 2, pend := none })
  ((((b3.put PWR_STAT_QON 0).put PWR_STAT_RES 0).pendShow).mapPair (fun p => { p with alive := false })).putB SYS_RST_BUSY true

/-- The low-water registers of SYS. -/
def lwmReg (a : Nat) : Bool := decide (0x200 ≤ a ∧ a < 0x350)

/-- A LINE reset begins: PD4 to PD10 restart, cycles end, every ring stops at once. -/
def Block.lineStart (b : Block) : Block :=
  let b1 := (b.lose [4, 5, 6, 7, 8, 9, 10] false).resetRegs lwmReg
  let b2 := (b1.putB SYS_CYCLE_RUN false).putB SYS_CYCLE_TRANS false
  let b3 := { b2 with cyc := { CycleSt.reset with
    count := b.cyc.count, goAt := b.cyc.goAt, drainTo := b.cyc.drainTo, leanExit := b.cyc.leanExit, budgetUs := b.cyc.budgetUs
    sampled := b.cyc.sampled, rdyOwn := b.cyc.rdyOwn, rdyPeer := b.cyc.rdyPeer, lastEval := b.cyc.lastEval } }
  let b4 := (b3.setDomains (Nat.land (b.get PWR_STAT_DOMON) 0x80F)).mapPw (fun p => { p.banksFresh with kind := some 3 })
  (((b4.put PWR_STAT_QON 0).pendShow).mapPair (fun p => { p with alive := false })).putB SYS_RST_BUSY true

/-- A write of SYS_RST (R596, R597). Of LINE and MODULE written together, MODULE counts. -/
def Block.rstWrite (data : Half) (b : Block) : Block :=
  let d := data.toNat
  if d / 2 ^ 8 % 2 ^ 16 ≠ 0xA5C3 then b.putB SYS_RST_REFUSED true
  else if d % 4 = 0 then b.put SYS_RST_KEY 0xA5C3
  else if b.flag SYS_RST_BUSY || b.get SEC_FCTL_FSTAT == 1 || b.get SYS_BOOT_STAT == 1 then
    (b.put SYS_RST_KEY 0xA5C3).putB SYS_RST_REFUSED true
  else
    let b1 := (b.put SYS_RST_KEY 0xA5C3).putB SYS_RST_REFUSED false
    if bitAt d 1 then b1.moduleStart else b1.lineStart

/-- A write of SYS_RST with one of its bits. -/
def rstData (bit : Nat) (data : Half) : Half := (data &&& ~~~(3 : Half)) ||| BitVec.ofNat 64 bit

/-- LINE_RESET. -/
def execLineReset (data : Half) (s : State) : Host.Outcome State Fault Refusal :=
  donePower s (byHost (.lineReset data) (Block.rstWrite (rstData 1 data)))

/-- MODULE_RESET. -/
def execModuleReset (data : Half) (s : State) : Host.Outcome State Fault Refusal :=
  donePower s (byHost (.moduleReset data) (Block.rstWrite (rstData 2 data)))

/-- A LINE reset ends: PD4 to PD10 are ready, retirements reapplied. -/
def Block.lineDone (b : Block) : Block :=
  let b1 := b.setDomains (if b.pwrState = 4 then 0xFFF else b.runDomains)
  let b2 := (b1.mapPw (fun p => { p with kind := none })).reapplyAll
  let b3 := ((b2.rstCause 3 2).putB SYS_RST_BUSY false).mapPair (fun p => { p with alive := b.pw.failAt.isNone })
  b3.quadShows

/-- RESET_DONE: the last restarted domain is ready. -/
def execResetDone (dfl fac : Fin 5) (refclk : Bool) (dt : Nat) (s : State) : Host.Outcome State Fault Refusal :=
  donePower s fun b0 =>
    let b := b0.advanceNs dt
    match b.pw.kind with
    | none => b
    | some k => if k = 3 then b.lineDone else (b.startSteps 2 2 dfl fac refclk).putB SYS_RST_BUSY false

end Sys2Proof.Machine
end

