-- ==== Sys2Proof/Machine/Load.lean ====
section
/-! DEFINITION. Images: their format, their checks and the end of a load (R184 to R189, R563), and the update of the
supervisor image (R599). -/

namespace Sys2Proof.Machine

/-! ### Reading -/

/-- Words of Cavern from `w` on, and whether one of them holds an uncorrectable error. Correctable ones are corrected.
Event 12 of Table 16-4 counts the words. -/
def Block.readWords (b : Block) (w : Nat) : Nat → Block × List Word × Bool
  | 0 => (b, [], false)
  | n + 1 =>
    let (b1, l, bad) := ((b.cavTouch w).fabCount 12 1).readWords (w + 1) n
    (b1, b.cavGet w :: l, bad || b.cavBad w)

/-- The packed encoding of words (R89): 9 bytes each, bits [7:0] first. -/
def packWords : List Word → List Byte
  | [] => []
  | x :: r => bytesOf x.toNat 0 9 ++ packWords r

/-! ### Format (R184, R185) -/

/-- The fields of an image header (Table 5-8). -/
structure Header where
  magic : Nat
  format : Nat
  priv : Bool
  slot : Nat
  entry : Nat
  plen : Nat
  dlen : Nat
  dbase : Nat
  tcnt : Nat
  rcnt : Nat
  id : Nat
  ticks : Nat
  finish : Nat
  eval : Nat
  cells : Nat
  zeros : Bool
  deriving DecidableEq, Repr

/-- Word `k` of a list. -/
def wordAt (l : List Word) (k : Nat) : Word := (l[k]?).getD 0

/-- The header in the first 8 words of an image. -/
def headerOf (l : List Word) : Header :=
  let h := wordAt l
  { magic := fieldOf (h 0) 56 16, format := fieldOf (h 0) 48 8, priv := fieldOf (h 0) 47 1 == 1, slot := fieldOf (h 0) 45 2
    entry := fieldOf (h 0) 30 15, plen := fieldOf (h 1) 0 16, dlen := fieldOf (h 1) 16 15, dbase := fieldOf (h 1) 31 14
    tcnt := fieldOf (h 1) 45 13, rcnt := fieldOf (h 1) 58 6, id := fieldOf (h 2) 0 64, ticks := fieldOf (h 3) 0 22
    finish := fieldOf (h 3) 22 22, eval := fieldOf (h 4) 0 22, cells := fieldOf (h 4) 22 17
    zeros := fieldOf (h 0) 0 30 == 0 && fieldOf (h 1) 64 8 == 0 && fieldOf (h 2) 64 8 == 0 && fieldOf (h 3) 44 28 == 0 &&
      fieldOf (h 4) 39 33 == 0 && h 5 == 0 && h 6 == 0 && h 7 == 0 }

/-- The words of an image after its header: directory, claims, program, data, signature. -/
def Header.rest (h : Header) : Nat := h.tcnt + h.rcnt + h.plen + h.dlen + 8

/-- The ranges of Table 5-8, under a MAGIC. -/
def Header.ok (h : Header) (magic : Nat) : Bool :=
  h.magic == magic && h.format == 1 && h.zeros && decide (1 ≤ h.plen) && decide (h.plen ≤ 32768) && decide (h.entry < h.plen) &&
    decide (h.dlen ≤ 16384) && decide (h.dbase + h.dlen ≤ 16384) && decide (h.tcnt ≤ 4096) && decide (h.rcnt ≤ 32)

/-- A directory entry (Table 5-7, R187 step 3). -/
def dirOk (w : Word) : Bool :=
  let len := fieldOf w 14 14
  decide (60 ≤ len) && decide (len ≤ 9212) && fieldOf w 28 44 == 0 && decide (fieldOf w 0 14 + ceilDiv len 8 ≤ 16384)

/-- The ring claims of an image as (port, bytes). -/
def claimsOf (l : List Word) : List (Nat × Nat) := l.map (fun w => (fieldOf w 24 6, fieldOf w 0 24))

/-- A ring claim names a port, and no port twice. -/
def claimsOk (l : List Word) : Bool :=
  l.all (fun w => decide (fieldOf w 24 6 < 32) && fieldOf w 30 42 == 0) && decide ((claimsOf l).map (·.1)).Nodup

/-- The signature words: bits [71:64] are zero. -/
def sigOk (l : List Word) : Bool := l.all (fun w => fieldOf w 64 8 == 0)

/-- A 256-bit number of four 64-bit pieces, least significant first. -/
def sigNat (l : List Word) : Nat := l.foldr (fun w n => fieldOf w 0 64 + n * 2 ^ 64) 0

/-- The words of a list as a store from word `first` on. -/
def storeOf : List Word → Nat → SMap Word
  | [], _ => []
  | w :: r, k => if w = 0 then storeOf r (k + 1) else (k, w) :: storeOf r (k + 1)

/-- An image read from Cavern, under a MAGIC: the words after its header, or the LCODE of the failure (R187 steps 2 and 3). -/
def Block.readImage (b : Block) (addr magic : Nat) : Block × Header × List Word × List Word × Nat :=
  if lastWord < addr + 7 then (b, headerOf [], [], [], 5)
  else
    let (b1, hw, bad) := b.readWords addr 8
    let h := headerOf hw
    if bad then (b1, h, hw, [], 4)
    else if !h.ok magic then (b1, h, hw, [], 2)
    else if lastWord < addr + 8 + h.rest - 1 then (b1, h, hw, [], 5)
    else
      let (b2, l, bad2) := b1.readWords (addr + 8) h.rest
      if bad2 then (b2, h, hw, l, 4)
      else if (l.take h.tcnt).all dirOk && claimsOk ((l.drop h.tcnt).take h.rcnt) && sigOk (l.drop (h.rest - 8)) then (b2, h, hw, l, 0)
      else (b2, h, hw, l, 2)

/-- The digest of an image (R186). -/
def imageDigest (h : Header) (hw l : List Word) : List Byte := sha256 (packWords (hw ++ l.take (h.rest - 8)))

/-- The check of an image's signature (R563): 0 or the CODE of the failure. -/
def Block.imageAuth (b : Block) (h : Header) (hw l : List Word) : Nat :=
  let sig := l.drop (h.rest - 8)
  b.authCode h.slot (sigNat (sig.take 4)) (sigNat (sig.drop 4)) (imageDigest h hw l)

/-- SEC_AUTH records a failed check of an engine's image. -/
def Block.authRecord (b : Block) (n code slot : Nat) : Block :=
  ((b.put SEC_AUTH_ENG n).put SEC_AUTH_CODE code).put SEC_AUTH_SLOT slot

/-! ### The end of a load (R187, R189) -/

/-- Steps 5 and 6: stores, directory and claim. -/
def Block.loadWrite (b : Block) (n : Nat) (h : Header) (l : List Word) (digest : Nat) : Block :=
  let b1 := b.mapEng n (fun x => { x with
    dir := l.take h.tcnt, rings := claimsOf ((l.drop h.tcnt).take h.rcnt), plen := h.plen, entry := h.entry, digest := digest
    prog := storeOf ((l.drop (h.tcnt + h.rcnt)).take h.plen) 0
    data := storeOf ((l.drop (h.tcnt + h.rcnt + h.plen)).take h.dlen) h.dbase })
  let b2 := ((b1.put (GAL_CLAIM_TICKS n) h.ticks).put (GAL_CLAIM_FINISH n) h.finish).put (GAL_CLAIM2_EVAL n) h.eval
  ((b2.put (GAL_CLAIM2_CELLS n) h.cells).put (GAL_IMGID_ID n) h.id).putB (GAL_STAT_PRIV n) h.priv

/-- Step 7: LOADED. -/
def Block.loaded (b : Block) (n : Nat) : Block :=
  let b1 := (((b.putB (GAL_STAT_LOST n) false).put (GAL_STAT_STATE n) 2).lcode n 0).mapPw (fun p =>
    { p with lost := p.lost &&& ~~~bankMask n })
  (b1.mapEng n (fun x => { x with ownReport := none, peerReport := none })).galCause (GAL_CAUSE_LOADED n) n

/-- The unit's partner is a member too, so that a load needs both reports (R189). -/
def Block.paired (b : Block) : Bool := b.get PAIR_STAT_STATE == 4 || b.get PAIR_STAT_STATE == 5

/-- A load ends with the reports known (R189): at the later one LOADED, or MISMATCH. -/
def Block.loadDecide (b : Block) (n : Nat) : Block :=
  let x := b.engine n
  if b.get (GAL_STAT_STATE n) ≠ 1 then b
  else
    match x.ownReport, x.peerReport with
    | some o, some p => if o.1 && p.1 && o.2 == p.2 then b.loaded n else b.loadFail n 7
    | some _, none => if b.paired then b else b.loaded n
    | none, _ => b

/-- A report of a load reaches its journal time (R189). -/
def Block.loadReport (b : Block) (own : Bool) (n : Nat) (ok : Bool) (digest : Nat) : Block :=
  (b.mapEng n (fun x => if own then { x with ownReport := some (ok, digest) } else { x with peerReport := some (ok, digest) })).loadDecide n

/-- The unit has ended the load of engine `n` and its report waits. -/
def Block.reportWaits (b : Block) (n : Nat) : Bool :=
  (b.engine n).ownReport.isSome || b.host.journal.any (fun e => e.own && (match e.item with
    | .loadReport m _ _ => m == n
    | _ => false))

/-- This unit's own load fails. -/
def Block.loadFailed (b : Block) (n code : Nat) : Block :=
  let b1 := b.loadFail n code
  if b.synced then b1.journalItem (.loadReport n false 0) else b1

/-- A load comes to its end (R187 steps 2 to 7). -/
def Block.loadEnd (b : Block) (n : Nat) : Block :=
  let (b1, h, hw, l, code) := b.readImage (b.engine n).laddr 0x5947
  if code ≠ 0 then b1.loadFailed n code
  else
    let auth := b1.imageAuth h hw l
    if auth ≠ 0 then (b1.authRecord n auth h.slot).loadFailed n 3
    else
      let d := natOfBytesBE (imageDigest h hw l)
      let b2 := b1.loadWrite n h l d
      if b2.synced then b2.journalItem (.loadReport n true d) else b2.loaded n

/-- LOAD_COMPLETE: `ups` are the upsets that Cavern has suffered. A unit that leaves its pair while it waits for the other
report completes alone. -/
def execLoadComplete (n : Fin 16) (ups : List (Nat × Bool)) (dt : Nat) (s : State) : Host.Outcome State Fault Refusal :=
  done s fun b0 =>
    let b := (b0.advanceNs dt).upsets ups
    if b.get (GAL_STAT_STATE n) ≠ 1 then b
    else if b.reportWaits n then b.loadDecide n
    else b.loadEnd n

/-! ### The supervisor image (R599) -/

/-- The fields that a supervisor image must hold zero (R599). -/
def Header.bare (h : Header) : Bool :=
  h.priv && h.tcnt == 0 && h.rcnt == 0 && h.ticks == 0 && h.finish == 0 && h.eval == 0 && h.cells == 0

/-- A write of SYS_BOOT (R599). R599 gives the code of a failed verification by R563 and none for an image that is no
container of R184: that code is a free value (log entry 2). -/
def Block.bootWrite (data : Half) (b : Block) : Block :=
  let d := data.toNat
  let b1 := b.put SYS_BOOT_ADDR d
  if !bitAt d 29 || b.get SYS_BOOT_STAT == 1 then b1
  else if b.flag SYS_CYCLE_RUN then b1.put SYS_BOOT_STAT 4
  else
    let (b2, h, hw, l, code) := b1.readImage (b1.get SYS_BOOT_ADDR) 0x5953
    if code ≠ 0 || !h.bare then
      (((b2.put SYS_BOOT_STAT 3).put SYS_BOOT_BCODE (b2.freeNext 7)).freeStep).raise evImageAuth
    else
      let auth := b2.imageAuth h hw l
      if auth = 0 then b2.put SYS_BOOT_STAT 1
      else (((b2.put SYS_BOOT_STAT 3).put SYS_BOOT_BCODE auth).authRecord (b2.get SEC_AUTH_ENG) auth h.slot).raise evImageAuth

/-- BOOT_UPDATE: a write of SYS_BOOT with UPDATE 1. -/
def execBootUpdate (data : Half) (s : State) : Host.Outcome State Fault Refusal :=
  done s (byHost (.bootUpdate data) (Block.bootWrite (data ||| BitVec.ofNat 64 (2 ^ 29))))

/-- BOOT_UPDATE_DONE: the default region is programmed; the image runs from the next start (R599). -/
def execBootUpdateDone (dt : Nat) (s : State) : Host.Outcome State Fault Refusal :=
  done s fun b0 => if b0.get SYS_BOOT_STAT = 1 then (b0.advanceNs dt).put SYS_BOOT_STAT 2 else b0

end Sys2Proof.Machine
end

