-- ==== Sys2Proof/Machine/Profile.lean ====
section
/-! DEFINITION. Profiles: requests, sampling, the drain into LEAN and the way out of it (R36 to R42, R603). -/

namespace Sys2Proof.Machine

/-- Replace the cycle state. -/
def Block.mapCyc (b : Block) (f : CycleSt → CycleSt) : Block := { b with cyc := f b.cyc }

/-- No request is open any more. -/
def CycleSt.closed (c : CycleSt) : CycleSt :=
  { c with goAt := none, drainTo := none, leanExit := none, sampled := none, rdyOwn := none, rdyPeer := none }

/-- A request ends refused: ACT stays, STAT shows the code, PD6 goes off again where it had been switched on, and spraying
returns to all slices in service. -/
def Block.profRefuse (b : Block) (code : Nat) : Block :=
  let b1 := if b.cyc.leanExit.isSome then b.clrBit PWR_STAT_DOMON 6 else b
  (b1.mapCyc CycleSt.closed).put SYS_PROFILE_STAT code

/-- The slices that a profile puts in service: those not retired, in LEAN 0 and 1 only (Table 1-7). -/
def Block.profSlices (b : Block) (p : Nat) : Nat :=
  let m := 15 - Nat.land 15 (b.get SWC_STAT_RETS)
  if p = 3 then m % 4 else m

/-- A profile takes effect (R38, R40, R248): pools, slices, endpoint table, Flowstone cells, PD6. -/
def Block.profApply (b : Block) (p : Nat) : Block :=
  let old := b.profile
  let b1 := (((b.mapCyc CycleSt.closed).put SYS_PROFILE_ACT p).put SYS_PROFILE_STAT 0)
  let b2 := if old ≤ 1 ∧ 2 ≤ p then b1.eptProfile false else if 2 ≤ old ∧ p ≤ 1 then b1.eptProfile true else b1
  let b3 := ((b2.put SWC_STAT_INSVC (b2.profSlices p)).shareUpdate).flwShow
  if p = 3 ∧ old ≠ 3 then (b3.clrBit PWR_STAT_DOMON 6).raise evPwrState else b3

/-- As `profApply`, at an instant that is no boundary: the checks of R180 follow. -/
def Block.profApplyNow (b : Block) (p : Nat) : Block := (b.profApply p).claimCheck

/-- No cycle is in progress and none is about to start (R27). -/
def Block.noCycle (b : Block) : Bool := !b.cyc.inProg && b.cyc.firstAt.isNone

/-- The change of a profile journaled readiness in a pair, or at once outside one (R42). -/
def Block.profReadyNow (b : Block) (p : Nat) : Block :=
  let b1 := b.mapCyc (fun c => { c with sampled := some p })
  if b.paired then b1.journalItem (.profReady 0) else if b.noCycle then b1.profApplyNow p else b1

/-- A refusal; in a pair the partner learns it through the journal (R42). -/
def Block.profRefused (b : Block) (code : Nat) : Block :=
  let b1 := b.profRefuse code
  if b.paired then b1.journalItem (.profReady code) else b1

/-- Both units of a pair have reported that they are ready. -/
def Block.bothReady (b : Block) : Bool := b.cyc.rdyOwn == some 0 && b.cyc.rdyPeer == some 0

/-- The drain into LEAN has had its 100 ms (R40). -/
def Block.drainLate (b : Block) : Bool := match b.cyc.drainTo with | some t => decide (t < b.tm.phys) | none => false

/-- A change that is ready takes effect, but a drain whose 100 ms have passed is refused (R40). -/
def Block.profDue (p : Nat) (b : Block) : Block := if b.drainLate then b.profRefused 7 else b.profApply p

/-- As `profDue`, at an instant that is no boundary. -/
def Block.profDueNow (p : Nat) (b : Block) : Block := if b.drainLate then b.profRefused 7 else b.profApplyNow p

/-! ### The request (R37, R38, R41) -/

/-- A write of SYS_PROFILE. -/
def Block.profWrite (data : Half) (b : Block) : Block :=
  let sel := data.toNat % 4
  let b1 := b.put SYS_PROFILE_SEL sel
  let st := b.get SYS_PROFILE_STAT
  if !data.getLsbD 2 || st == 1 || (st == 2 && sel == 3) then b1
  else (b1.mapCyc (fun c => { c.closed with goAt := some b.tm.phys })).put SYS_PROFILE_STAT 1

/-- PROFILE_GO. -/
def execProfileGo (data : Half) (s : State) : Host.Outcome State Fault Refusal :=
  done s (journaled (.profileGo (data ||| 4)) (Block.profWrite (data ||| 4)))

/-- Some enabled endpoint has an index above 131,071. -/
def Block.highEndpoint (b : Block) : Bool := b.rings.ept.any (fun e => decide (131071 < e.1) && epKind e.2 != 0)

/-- The STAT code with which R38 refuses a profile, or 0. PERIOD is both the stored one and the one in force. -/
def Block.profCode (b : Block) (p : Nat) : Nat :=
  if b.get SYS_CYCLE_PERIOD < minPeriod p ∨ b.get SYS_CYCLE_PERIN < minPeriod p then 3
  else if p = 3 ∧ 16 < b.lanesEnabled then 4
  else if profileCells p * b.periodNs / 8 < b.cyc.lastEval.getD 0 then 5
  else if p ≤ 1 ∧ b.highEndpoint then 6
  else 0

/-- SEL is sampled and checked (R38, R40). -/
def Block.profSample (b : Block) : Block :=
  let p := b.get SYS_PROFILE_SEL
  let code := b.profCode p
  if code ≠ 0 then b.profRefused code
  else if p = 3 ∧ b.profile ≠ 3 then
    (b.mapCyc (fun c => { c with goAt := none, drainTo := some (b.tm.phys + 100000000 * nsUnit) })).put SYS_PROFILE_STAT 2
  else if p ≠ 3 ∧ b.profile = 3 then (b.mapCyc (fun c => { c with goAt := none, leanExit := some p })).setBit PWR_STAT_DOMON 6
  else (b.mapCyc (fun c => { c with goAt := none })).profReadyNow p

/-- PROFILE_SAMPLE: 1 µs before the next boundary, for a GO that is not later (R38). -/
def execProfileSample (s : State) : Host.Outcome State Fault Refusal :=
  done s fun b =>
    match b.cyc.goAt, (if b.cyc.inProg then some b.cyc.next else b.cyc.firstAt) with
    | some _, some t => if b.nowNs ≤ t - 1000 then (b.reachNs (t - 1000)).profSample else b
    | _, _ => b

/-- PROFILE_SAMPLE_IDLE: 1 µs after GO with no cycle in progress (R603). A change that passed before cycles stopped takes
effect then too. -/
def execProfileSampleIdle (s : State) : Host.Outcome State Fault Refusal :=
  done s fun b =>
    if !b.noCycle then b
    else
      match b.cyc.goAt, b.cyc.sampled with
      | some t, _ => (b.reachPhys (t + 1000 * nsUnit)).profSample
      | none, some p => if b.paired || (p == 3 && b.profile != 3) then b else b.profDueNow p
      | none, none => b

/-! ### Into and out of LEAN (R40) -/

/-- Slices 2 and 3 hold no cells. -/
def Block.drained (b : Block) : Bool := (b.sw.frames.map (fun f => f.inSlice 2 + f.inSlice 3)).sum == 0

/-- LEAN_DRAIN_DONE: at once while no cycle is in progress, else at the next boundary; in a pair once both are ready. -/
def execLeanDrainDone (s : State) : Host.Outcome State Fault Refusal :=
  done s fun b =>
    if b.cyc.drainTo.isSome && b.cyc.sampled.isNone && b.drained then b.profReadyNow 3
    else if b.cyc.drainTo.isSome && b.drained && b.noCycle && !b.paired then b.profDueNow 3
    else b

/-- The change into LEAN takes effect before `t`, at the boundary that ends the cycle in progress. -/
def Block.drainMakesIt (b : Block) (t : Nat) : Bool :=
  b.cyc.sampled.isSome && b.drained && (!b.paired || b.bothReady) && b.cyc.inProg &&
    decide (b.tm.phys + (b.cyc.next * nsUnit - b.tm.lt) ≤ t)

/-- REFUSED_DRAIN: the change has not taken effect within 100 ms. -/
def execRefusedDrain (s : State) : Host.Outcome State Fault Refusal :=
  done s fun b =>
    match b.cyc.drainTo with
    | none => b
    | some t => if b.drainMakesIt t then b else (b.reachPhys t).profRefused 7

/-- LEAN_EXIT_READY: PD6 reports ready. -/
def execLeanExitReady (s : State) : Host.Outcome State Fault Refusal :=
  done s fun b =>
    match b.cyc.leanExit with
    | none => b
    | some p => if b.cyc.sampled.isSome then b else b.profReadyNow p

/-! ### Pairs and boundaries (R42) -/

/-- A readiness report reaches its journal time. -/
def Block.profReport (b : Block) (own : Bool) (code : Nat) : Block :=
  let st := b.get SYS_PROFILE_STAT
  if code ≠ 0 then (if st = 1 ∨ st = 2 then b.profRefuse code else b.put SYS_PROFILE_STAT code)
  else
    let b1 := b.mapCyc (fun c => if own then { c with rdyOwn := some 0 } else { c with rdyPeer := some 0 })
    match b1.cyc.sampled with
    | some p => if b1.noCycle && b1.bothReady then b1.profDueNow p else b1
    | none => b1

/-- The change of profile that a boundary carries out. -/
def Block.profBoundary (b : Block) : Block :=
  match b.cyc.sampled with
  | none => b
  | some p =>
    if (b.paired && !b.bothReady) || (p == 3 && b.profile != 3 && !b.drained) then b else b.profDue p

end Sys2Proof.Machine
end

