-- ==== Sys2Proof/Machine/Boundary.lean ====
section
/-! DEFINITION. The cycle boundary (R24 to R28, R35, R160, R180, R191 to R193, R514). -/

namespace Sys2Proof.Machine

/-! ### What ends with a cycle -/

/-- Frames still held by engine `n` are discarded, with HELD, HSLOT and GAL_ENGn for each (R160, R182). -/
def Block.heldOut (b : Block) (n : Nat) : Block :=
  ((b.engine n).emis.filterMap (·.hold)).foldl (fun c slot => (c.put (GAL_CAUSE_HSLOT n) slot).galCause (GAL_CAUSE_HELD n) n)
    (b.mapEng n (fun x => { x with emis := dropHeld x.emis }))

/-- Held frames of a list of engines. -/
def Block.heldOuts (b : Block) : List Nat → Block
  | [] => b
  | n :: r => (b.heldOut n).heldOuts r

/-- The cycle in progress ends: TRANS, the low-water registers, its evaluations, held and late frames, the rings (R26, R35). -/
def Block.cycleEnd (b0 : Block) : Block :=
  let b := b0.flwRun
  let b1 := ((b.putB SYS_CYCLE_TRANS b.cyc.trans).lowWater SYS_LWM_CELL_MIN b.sw.minFree).lowWater SYS_LWM_SLOT_MIN
    (b.get SYS_MSLOT_LENF * 1000 - b.cyc.slotUsed)
  let b2 := (b1.galMargins (List.range 16)).mapCyc (fun c => { c with lastEval := some b.flw.count, count := c.count + 1 })
  let b2 := b2.flwCycleEnd true
  ((b2.heldOuts (List.range 16)).lateAtBoundary b.cyc.count).ringBoundary

/-- At the first boundary after cycles start no cycle ends; what waits for a boundary takes place, and a frame that an engine
has held since before it is discarded (R160). -/
def Block.cycleFirst (b : Block) : Block :=
  (((b.heldOuts (List.range 16)).flwCycleEnd false).mapRings (fun w => { w with wroteLast := w.wrote, wrote := [] })).eptBoundary

/-! ### Relocation (R53, R191 to R193, R514) -/

/-- Engine `n` finds no core: RETIRED with NOSPARE; in a pair the unit withdraws, by handover if it is ACTIVE (R514). -/
def Block.noSpare (b : Block) (n : Nat) : Block :=
  let b1 := (b.leave n 6).galCause (GAL_CAUSE_NOSPARE n) n
  if b.paired then (b1.sendRope (.control .withdrawn)).withdrawNow else b1

/-- GE15's core takes over engine `n`: its program restarts at the trigger. -/
def Block.moveCore (b : Block) (n : Nat) : Block :=
  (((b.putB (GAL_STAT_CORE15 n) true).putB GAL_SPARE_BUSY true).put GAL_SPARE_HOLDER n).spareUpdate

/-- Engine `n` waits for the trigger that restarts it. One that has not reached its boundary wait is stopped as by R190. -/
def Block.restartAtTrigger (b : Block) (n : Nat) : Block :=
  let b1 := if b.running n && !(b.engine n).inBoundary b.tm.phys then b.leave n 4 else b.putB (GAL_STAT_WAIT n) false
  b1.mapEng n (fun x => { x with wait := .none, waitSince := none, opened := false, reloc := true })

/-- The retirement of the core of engine `n` takes effect. A unit whose partner's core failed restarts the engine on its
own core (R193). -/
def Block.relocate (b : Block) (n : Nat) : Block :=
  let st := b.get (GAL_STAT_STATE n)
  let b1 := b.mapEng n (fun x => { x with coreRet := false })
  if st ≠ 3 ∧ st ≠ 5 then b1
  else if !b.isRetired ⟨4, b.coreOf n⟩ then b1.restartAtTrigger n
  else if b.flag GAL_SPARE_AVAIL && b.coreOf n != 15 then (b1.restartAtTrigger n).moveCore n
  else b1.noSpare n

/-- Outside a pair a RUNNING engine that can move runs on until it is in its boundary wait (R191); where it cannot, R53 applies at
the boundary. -/
def Block.mayMove (b : Block) (n : Nat) : Bool :=
  (b.engine n).coreRet && (b.paired || !b.running n || (b.engine n).inBoundary b.tm.phys ||
    !(b.flag GAL_SPARE_AVAIL && b.coreOf n != 15))

/-- Relocations of a list of engines, the lower number first (R53). -/
def Block.relocations (b : Block) : List Nat → Block
  | [] => b
  | n :: r => (if b.mayMove n then b.relocate n else b).relocations r

/-! ### The boundary -/

/-- New values of a claim or a period reach the rings' next cycle (R235, R254). -/
def Block.ringRefresh (b : Block) : Block :=
  (List.range 32).foldl (fun x n =>
    let y := if x.claimNow = (x.ring n).claim then x
      else x.mapRing n (fun r => { r with fullC := true, claim := x.claimNow })
    y.ringAllowShow n) b

/-- The changes due at a boundary, in the order of R28: period and phase, profile, claims checked (R180), relocation, spare
elements, pair claim; then the power state (R527). -/
def Block.boundaryChanges (b : Block) : Block :=
  let armed := b.cyc.armPend
  let prof := b.profile
  let b1 := (if armed then b.putInForce else b).mapCyc (fun c => { c with armPend := false })
  let b2 := (b1.profBoundary.swTurn).flwBoundary
  let b3 := if armed || b2.profile != prof then b2.claimCheck else b2
  let b4 := (b3.relocations (List.range 16)).calBoundary
  (b4.pairBoundary.pwrBoundary).ringRefresh

/-- The next cycle begins at `t`, or cycles have stopped (R25 to R27). After an ARM it lasts at least one new PERIOD and
TRANS is set for it (R26). The same holds, DEDUCED (log entry 70), after an ARM that was written between RUN = 1 and the
first boundary: RUN is 1, so it acts as written while cycles run, and is in force from that boundary on. -/
def Block.cycleBegin (b : Block) (t : Nat) (armed : Bool) : Block :=
  if b.flag SYS_CYCLE_RUN then
    let p := b.get SYS_CYCLE_PERIN
    let from_ := if armed then t + p * 1000 else t + 1
    b.mapCyc (fun c => { c with
      inProg := true, start := t, next := gridAt p (b.get SYS_CYCLE_PHIN) from_, trans := armed, firstAt := none
      triggerAt := some (t + 10), slotDone := false, slotUsed := 0 })
  else b.mapCyc (fun c => { c with inProg := false, firstAt := none, trans := false, triggerAt := none, slotUsed := 0 })

/-- CYCLE_BOUNDARY: the boundary due is reached. -/
def Block.boundary (b0 : Block) : Block :=
  match (if b0.cyc.inProg then some b0.cyc.next else b0.cyc.firstAt) with
  | none => b0
  | some t =>
    let first := !b0.cyc.inProg
    let b := b0.reachNs t
    let b1 := (if first then b.cycleFirst else b.cycleEnd).mapCyc (fun c => { c with start := t })
    let armed := b1.cyc.armPend
    (b1.boundaryChanges).cycleBegin t armed

/-- CYCLE_BOUNDARY. -/
def execCycleBoundary (s : State) : Host.Outcome State Fault Refusal := donePower s Block.boundary

end Sys2Proof.Machine
end

