-- ==== Sys2Proof/Machine/Slot.lean ====
section
/-! DEFINITION. The maintenance slot opens: by CALSLOT, at LATEST, or on the grid of R461 (R30 to R33, R183, R387, R461, R604). -/

namespace Sys2Proof.Machine

/-- The words of an engine's stores: the program store, then the data store. -/
def storeWords : Nat := 49152

/-- The slot of `us` µs reads word `k` of the stores of an engine: 64 words per µs in address order, from where the slot before
left off (R183). -/
def Engine.scrubs (x : Engine) (us k : Nat) : Bool :=
  decide (k < storeWords) && decide ((k + storeWords - x.scrubAt) % storeWords < 64 * us)

/-- The errors in the words that the slot reads: engine, word, and whether it is uncorrectable. A corrected word is written back,
so that it reads as before. -/
def Block.scrubErrors (b : Block) (us : Nat) : List (Fin 16 × BitVec 16 × Bool) → Block
  | [] => b
  | (e, k, two) :: r =>
    (if b.banksPending e || !b.eng[e].scrubs us k.toNat then b
     else
       let b1 := b.coreStrike e
       if two then b1 else b1.engEvent e 12 1).scrubErrors us r

/-- The check of the stores in a slot of `us` µs (R183). An engine with unchecked banks is not scrubbed (R540). -/
def Block.scrub (b : Block) (us : Nat) (l : List (Fin 16 × BitVec 16 × Bool)) : Block :=
  let b1 := b.scrubErrors us l
  { b1 with eng := b1.eng.mapIdx (fun n x =>
      if b.banksPending n then x else { x with scrubAt := (x.scrubAt + 64 * us) % storeWords }) }

/-- A loopback probe of 64 bytes: EtherType ZRG_ETYPE, subtype 0x05. R387 gives no address and no further content: free
values (log entry 2). -/
def Block.probe (b : Block) : List Byte :=
  (bytesOf (b.freeNext (2 ^ 48 - 1)) 0 6) ++ (bytesOf (b.freeStep.freeNext (2 ^ 48 - 1)) 0 6) ++ bytesBE b.etype 2 ++ [0x05] ++
    List.replicate 45 (BitVec.ofNat 8 (b.freeStep.freeStep.freeNext 255))

/-- Every port with a loopback run sends a probe, up to 1,024 (R387). -/
def Block.probes (b : Block) : Block :=
  (List.range 32).foldl (fun x n =>
    if (x.pt n).lbk && decide ((x.pt n).probes < 1024) then
      let y := ((x.emit (.control n x.probe)).countTx n x.probe).mapPt n (fun p => { p with probes := p.probes + 1 })
      { y with free := y.free + 3 }
    else x) b

/-- What the slot serves (R461). R461 gives no length of a job's step: what a running job uses is a free value. -/
def Block.slotWork (b : Block) (scrub : List (Fin 16 × BitVec 16 × Bool)) (ns : Nat) : Block :=
  let b1 := ((b.scrub (ns / 1000) scrub).remapStep.probes).calSlot
  let used := if b1.cal.run.isSome then b1.freeNext ns else 0
  let b2 := if b1.cal.run.isSome then b1.freeStep else b1
  { b2 with cyc := { b2.cyc with slotUsed := used } }

/-- The slot of the cycle in progress opens now (R32). -/
def Block.slotOpen (b : Block) (scrub : List (Fin 16 × BitVec 16 × Bool)) : Block :=
  let ns := b.get SYS_MSLOT_LENF * 1000
  let b1 := b.slotWork scrub ns
  { b1 with cyc := { b1.cyc with slotDone := true, slotClose := some (b1.nowNs + ns) } }

/-- SLOT_OPEN_LATEST: the offset LATEST in force is reached and no CALSLOT of ENG has opened the slot. -/
def execSlotOpenLatest (scrub : List (Fin 16 × BitVec 16 × Bool)) (s : State) : Host.Outcome State Fault Refusal :=
  done s fun b =>
    if b.cyc.inProg && !b.cyc.slotDone then (b.reachNs (b.cyc.start + b.slotOffset * 1000)).slotOpen scrub else b

/-- IDLE_SLOT_OPEN: a slot on the 125 µs grid of wall time while no cycle is in progress (R461). -/
def execIdleSlotOpen (scrub : List (Fin 16 × BitVec 16 × Bool)) (s : State) : Host.Outcome State Fault Refusal :=
  done s fun b =>
    if b.cyc.inProg then b
    else
      let b1 := b.reachNs ((b.nowNs / 125000 + 1) * 125000)
      let ns := min 31 (b1.get SYS_MSLOT_LENF) * 1000
      let b2 := b1.slotWork scrub ns
      { b2 with cyc := { b2.cyc with slotUsed := 0, slotClose := some (b2.nowNs + ns) } }

/-- CALSLOT (0x02): it opens the slot for the engine that SYS_MSLOT names (R32). -/
def execCalslot (e : Fin 16) (f : FormA) (u : Upset) (scrub : List (Fin 16 × BitVec 16 × Bool)) (s : State) :
    Host.Outcome State Fault Refusal :=
  runA .calslot e f u (fun b =>
    .go (if b.get SYS_MSLOT_ENG = e.val && b.cyc.inProg && !b.cyc.slotDone then b.slotOpen scrub else b) 2 0 false) s

end Sys2Proof.Machine
end

