-- ==== Sys2Proof/Machine/RegWrite.lean ====
section
/-! DEFINITION. What a write of a register does: the stored fields by their access codes and reserved
values (R17 to R19, R66, R68), and for each register whose write has an effect of its own, that effect. The
host's writes, CFGW and the journal share it. -/

namespace Sys2Proof.Machine

/-! ### A write as a register sees it (R60, R62, R66) -/

/-- The bits of a register that a write carries, and their values; `bits` lies within `mask`. -/
structure RegW where
  mask : Word
  bits : Word
  deriving DecidableEq, Repr

/-- A BAR0 write as its register sees it (R60, R62, R66): at A the bits [63:0] or a half of them, at A + 8
the bits [71:64]; the UTAG position and the zeros above are ignored. -/
def regW (r : BarReq) : RegW :=
  let o := r.off.toNat
  let m : Nat := if r.eight then 2 ^ 64 - 1 else if o % 8 < 4 then 2 ^ 32 - 1 else (2 ^ 32 - 1) * 2 ^ 32
  let v : Nat := if r.eight then r.data.toNat else if o % 8 < 4 then r.data.toNat % 2 ^ 32 else r.data.toNat % 2 ^ 32 * 2 ^ 32
  if o % 16 < 8 then ⟨BitVec.ofNat 72 m, BitVec.ofNat 72 v⟩
  else ⟨BitVec.ofNat 72 (m % 2 ^ 8 * 2 ^ 64), BitVec.ofNat 72 (v % 2 ^ 8 * 2 ^ 64)⟩

/-- A write of all 72 bits at once (R163). -/
def wholeW (x : Word) : RegW := ⟨BitVec.allOnes 72, x⟩

/-- A write of one 64-bit half (R66). -/
def halfW (hi : Bool) (d : Half) : RegW :=
  if hi then ⟨lowMask 8 <<< 64, BitVec.ofNat 72 (d.toNat % 2 ^ 8) <<< 64⟩ else ⟨lowMask 64, BitVec.ofNat 72 d.toNat⟩

/-- A write without the bits of a mask. -/
def RegW.without (w : RegW) (m : Word) : RegW := ⟨w.mask &&& ~~~m, w.bits &&& ~~~m⟩

/-- A write limited to the bits of a mask. -/
def RegW.within (w : RegW) (m : Word) : RegW := ⟨w.mask &&& m, w.bits &&& m⟩

/-- The value `x` with the written bits replaced. -/
def RegW.over_ (w : RegW) (x : Word) : Word := (x &&& ~~~w.mask) ||| w.bits

/-- Bit `i` is written as 1. -/
def RegW.one (w : RegW) (i : Nat) : Bool := w.bits.getLsbD i

/-- The write carries a bit of a field. -/
def RegW.hits (w : RegW) (lo n : Nat) : Bool := fieldOf w.mask lo n != 0

/-- The bits of a field that the write carries as 1. -/
def RegW.ones (w : RegW) (lo n : Nat) : Nat := fieldOf w.bits lo n

/-! ### Stored fields (R17, R18) -/

/-- A value that a field accepts (R18). -/
def Block.chkOk (b : Block) (a v : Nat) : Chk → Bool
  | .range lo hi => decide (lo ≤ v) && decide (v ≤ hi)
  | .smag w bound => decide ((toSigned w v).natAbs ≤ bound)
  | .oneOf vs => vs.contains v
  | .whileClear d => !(b.reg (a - d)).getLsbD 0
  | .period =>
    if v = 0 then decide (a < PIO_OUT_PER 4) && b.flag ⟨a - 0x10, 1, 1⟩ else decide (20 ≤ v) && decide (v ≤ 4000000000)
  | .width =>
    let per := b.get ⟨a - 0x10, 0, 32⟩
    decide (10 ≤ v) && (decide (v < per) || per == 0)
  | .period4000 => decide (v ≤ 4000)
  | .phase => true
  | .slotLen => true
  | .slotLatest => true

/-- One field of a register after a write. -/
def Block.fieldStore (b : Block) (a : Nat) (w : RegW) (x : Word) (f : FieldD) : Word :=
  if !w.hits f.lo f.w then x
  else
    match f.acc with
    | .rw | .wo =>
      let v := fieldOf (w.over_ x) f.lo f.w
      if f.chk.all (b.chkOk a v) then withField x f.lo f.w v else x
    | .w1c => withField x f.lo f.w (clrMaskN (fieldOf x f.lo f.w) (w.ones f.lo f.w))
    | .w1s => withField x f.lo f.w (Nat.lor (fieldOf x f.lo f.w) (w.ones f.lo f.w))
    | .ro | .wa => x

/-- The fields of the register at `a`. -/
def regFields (a : Nat) : List FieldD := match regAt a with
  | some r => r.fields
  | none => []

/-- The bits of a register that are RW. -/
def rwBits (a : Nat) : Word :=
  (regFields a).foldl (fun m f => if f.acc = .rw then m ||| (lowMask f.w <<< f.lo) else m) 0

/-- The stored fields of a register take a write. -/
def Block.storeW (a : Nat) (w : RegW) (b : Block) : Block :=
  b.setReg a ((regFields a).foldl (b.fieldStore a w) (b.reg a))

/-- Bits [63:0] that a write presents to an effect: the RW fields it does not carry as they stand, and the other
fields only as it carries them. -/
def Block.lowData (b : Block) (a : Nat) (w : RegW) : Half :=
  (w.over_ (b.reg a &&& rwBits a)).extractLsb' 0 64

/-! ### Effects of writes, block by block -/

/-- SYS (R25, R31, R37, R596, R599, Tables 1-6 and 20-8). -/
def Block.wrSys (a : Nat) (w : RegW) (b : Block) : Block :=
  let d := b.lowData a w
  if a = SYS_CYCLE then b.cycleWrite d (w.one 24)
  else if a = SYS_MSLOT then b.mslotWrite d
  else if a = SYS_PROFILE then b.profWrite d
  else if a = SYS_LWM_CTL then (if w.one 0 then b.lwmClr else b)
  else if a = SYS_RST then b.rstWrite (w.bits.extractLsb' 0 64)
  else if a = SYS_BOOT then b.bootWrite d
  else if a = SYS_IOCFG then
    let b1 := b.storeW a w
    b1.mapPw (fun p => { p with enc5v := b1.flag SYS_IOCFG_ESUP })
  else b.storeW a w

/-- EVT (R95, R96). -/
def Block.wrEvt (a : Nat) (w : RegW) (b : Block) : Block :=
  if a = EVT_PEND then b.pendClear (w.bits.extractLsb' 0 64)
  else if a = EVT_EN then b.enWrite (b.lowData a w)
  else if a = EVT_SET then b.occurAll (maskBits (w.ones 0 64))
  else b.storeW a w

/-- PWR (R527, R541). -/
def Block.wrPwr (a : Nat) (w : RegW) (b : Block) : Block :=
  if a = PWR_CTL then b.pwrCtl (b.lowData a w)
  else if a = PWR_RETN then (if w.one 33 then (b.put PWR_RETN_BANK 0).put PWR_RETN_NLOST 0 else b)
  else b.storeW a w

/-- CLK (R433, R440): of RELOCK and FULL together, FULL acts last. -/
def Block.wrClk (a : Nat) (w : RegW) (b : Block) : Block :=
  if a = CLK_MAINCTL then
    let b1 := if w.one 0 then b.pllRelock else b
    if w.one 1 then b1.fullRelock else b1
  else if a = CLK_OUTEN then b.outEnWrite (b.lowData a w)
  else b.storeW a w

/-- CMP (R400, R419). -/
def Block.wrCmp (a : Nat) (w : RegW) (b : Block) : Block :=
  let k := (a - 0x41000) / 0x100
  if a < 0x41000 then b.storeW a w
  else if a = CMP_IN_CFG k then b.inCfg k (b.lowData a w)
  else if a = CMP_IN_STAT k then (if w.one 19 then b.inUnretire k else b)
  else b.storeW a w

/-- LAN_ADJ: the fields are stored, and ARM performs the MODE then stored (R68, R106). -/
def Block.wrAdj (w : RegW) (b : Block) : Block :=
  let b1 := b.storeW LAN_ADJ w
  if !w.one 66 then b1
  else if b1.get LAN_ADJ_MODE = 0 then b1.timeStep
  else if b1.get LAN_ADJ_MODE = 1 then b1.timeSlew
  else b1.timeSet

/-- The registers of one axis (Table 3-4). -/
def Block.wrAxis (a : Nat) (w : RegW) (b : Block) : Block :=
  let n : Fin 16 := Fin.ofNat 16 ((a - 0x51000) / 0x200)
  let d := b.lowData a w
  if a = LAN_AXCFG n then (if w.one 18 then b.axisRestart n d else b.axisSrcWrite n d)
  else if a = LAN_AXSTAT n then (if w.one 20 then b.put (LAN_AXSTAT_FAULTS n) 0 else b)
  else if a = LAN_AXKCTL n then (if w.one 0 then (b.storeW a w).knotArm n else b.storeW a w)
  else if a = LAN_AXCAP n then (if w.one 0 then b.axisCapture n else b)
  else if a = LAN_AXQCTL n then (if w.one 0 then b.hostP2tGo n d else b.storeW a w)
  else b.storeW a w

/-- LAN (R103, R106, R374, R377, R380, Table 3-4). -/
def Block.wrLan (a : Nat) (w : RegW) (b : Block) : Block :=
  let k := (a - 0x50200) / 0x200
  if 0x51000 ≤ a then b.wrAxis a w
  else if a = LAN_TCTL then b.domWrite (b.lowData a w)
  else if a = LAN_ADJ then b.wrAdj w
  else if a = LAN_CAP then (if w.one 0 then b.ltCapture else b)
  else if a = LAN_D_CFG k then b.servoWrite k (b.lowData a w)
  else if a = LAN_D_SEL k then b.selWrite k (b.lowData a w)
  else b.storeW a w

/-- TIC (R449 to R452). -/
def Block.wrTic (a : Nat) (w : RegW) (b : Block) : Block :=
  if a = TIC_CTL then b.ticCtl (b.lowData a w)
  else if a = TIC_STAT then (if w.one 22 then b.ticClr else b)
  else if a = TIC_RPOP then (if w.one 0 then b.ticPop else b)
  else b.storeW a w

/-- CAL (R460, R466, R470). -/
def Block.wrCal (a : Nat) (w : RegW) (b : Block) : Block :=
  if a = CAL_CTL then
    let b1 := b.storeW a w
    if b.flag CAL_CTL_EN && !b1.flag CAL_CTL_EN then b1.calDisable else b1
  else if a = CAL_REQ then b.calReq (b.lowData a w)
  else if a = CAL_BIST then (if w.one 0 then b.bistGo else b)
  else b.storeW a w

/-- Encoders (R118, R466): a write of ENCn_SDLY ends a calibration of that line. -/
def Block.wrEnc (a : Nat) (w : RegW) (b : Block) : Block :=
  let e := (a - 0x80000) / 0x100
  if a = ENC_STAT e then (if w.one 24 then b.encClr e else b)
  else if a = ENC_SDLY e then (b.storeW a w).calOverwritten ⟨2, e⟩
  else if a = ENC_CFG e then (b.storeW a w).encLines
  else b.storeW a w

/-- Pulse outputs (R412 to R415, R420). Under PER 0 an OFS below 200 ns is a reserved value (R413). -/
def Block.wrOut (a : Nat) (w : RegW) (b : Block) : Block :=
  let j := (a - 0x90000) / 0x100
  let d := b.lowData a w
  if a = PIO_OUT_CTL j then b.outCtl j d
  else if a = PIO_OUT_STEP j then b.outStep j d
  else if a = PIO_OUT_STAT j then (if w.one 42 then b.outClr j else b)
  else if a = PIO_OUT_OFS j then
    let b1 := b.storeW a w
    if b.flag (PIO_OUT_CTL_MODE j) && b.get (PIO_OUT_PER_PER j) == 0 && decide (b1.geti (PIO_OUT_OFS_OFS j) < 40000) then b
    else b1
  else b.storeW a w

/-- SDS (R344, R347, R348, R350): SDS_SSC takes effect at the next modulation period. -/
def Block.wrSds (a : Nat) (w : RegW) (b : Block) : Block :=
  let l := (a - 0x100000) / 0x1000
  if a = SDS_CTL l then (if w.one 0 then (b.storeW a w).retrain l else b.storeW a w)
  else if a = SDS_STAT l then (if w.one 21 then b.laneUnretire l else b)
  else if a = SDS_TEST l then (if w.one 2 then b.laneTestGo l (b.lowData a w) else b.storeW a w)
  else if a = SDS_SSC then
    let b1 := b.sscStore (b.lowData a w)
    (b1.reachPhys b1.nextModulation).putB SDS_SSC_ACTIVE (b1.flag SDS_SSC_EN)
  else b.storeW a w

/-- The FEC modes of Table 9-2 for a port. -/
def Block.fecOk (b : Block) (n : Nat) : Bool :=
  let fec := b.get (MAC_CFG_FEC n)
  if b.isR4 n then fec == 0 || fec == 2
  else decide (fec ≤ b.get (MAC_CFG_RATE n))

/-- Ring mode only with 10GBASE-R or 25GBASE-R in a QUAD cage (R303). -/
def Block.ringOk (b : Block) (n : Nat) : Bool := !b.flag (MAC_CFG_RING n) || (!b.isR4 n && b.get (MAC_CFG_RATE n) != 0)

/-- MACn_CFG (R300, R302, R303): RATE, FEC and RING only while EN is 0, and no combination that Table 9-2 or R303 excludes: the
fields that would make it stay as they are. -/
def Block.macCfg (n : Nat) (w : RegW) (b : Block) : Block :=
  let rates : Word := lowMask 5
  let ring : Word := lowMask 1 <<< 4
  if b.flag (MAC_CTL_EN n) then b.storeW (MAC_CFG n) (w.without rates)
  else
    let b1 := b.storeW (MAC_CFG n) w
    let b2 := b.storeW (MAC_CFG n) (w.without ring)
    if b1.fecOk n && b1.ringOk n then b1
    else if b2.fecOk n && b2.ringOk n then b2
    else b.storeW (MAC_CFG n) (w.without rates)

/-- MACn_CAGE.MODE, one register seen in all four blocks of the cage (R299): stored while no port of the cage has EN 1, and only
where it makes no combination that Table 9-2 or R303 excludes. In R4 the other three ports are UNUSED (R300). -/
def Block.cageWrite (n : Nat) (w : RegW) (b : Block) : Block :=
  let k := n / 4 * 4
  let ps := [k, k + 1, k + 2, k + 3]
  let b1 := ps.foldl (fun x p => x.storeW (MAC_CAGE p) w) b
  let used := if b1.isR4 k then [k] else ps
  if ps.any (fun p => b.flag (MAC_CTL_EN p)) || !used.all (fun p => b1.fecOk p && b1.ringOk p) then b
  else if b1.isR4 k && !b.isR4 k then [k + 1, k + 2, k + 3].foldl (fun x p => x.put (MAC_CAUSE_DCODE p) 8) b1
  else b1

/-- MAC (R300, R320, R321, R387). Whether a frame is in reception as EN is cleared is a free value (log entry 2). -/
def Block.wrMac (a : Nat) (w : RegW) (b : Block) : Block :=
  let n := (a - 0x140000) / 0x1000
  let d := b.lowData a w
  if a = MAC_CTL n then (if d.getLsbD 0 then b.macEnable n else b.freeStep.macDisable n (b.freeNext 1 == 1))
  else if a = MAC_CFG n then b.macCfg n w
  else if a = MAC_CAGE n then (if n < 32 then b.cageWrite n w else b)
  else if a = MAC_TSCNT n then (if w.one 6 then b.tsPop n else b)
  else if a = MAC_LBK n then (if w.one 24 then b.loopGo n d else b.storeW a w)
  else b.storeW a w

/-- The windows and switches of SWC (R276, R281, R293, R296). -/
def Block.wrSwcWin (a : Nat) (w : RegW) (b : Block) : Block :=
  if a = SWC_STAT then b.sliceReturn (BitVec.ofNat 4 (w.ones 4 4))
  else if a = SWC_SPARE then b.spareClear (BitVec.ofNat 4 (w.ones 20 4))
  else if a = SWC_ESCTL then
    let b1 := if w.one 0 then b.streamWrite else b
    if w.one 1 then b1.streamRead else b1
  else if a = SWC_FDBCTL then
    let b1 := if w.one 0 then b.fdbWrite else b
    let b2 := if w.one 1 then b1.fdbDelete else b1
    if w.one 2 then b2.fdbLookup else b2
  else if a = SWC_VCTL then
    let b1 := if w.one 0 then b.vlanWrite else b
    if w.one 1 then b1.vlanRead else b1
  else b.storeW a w

/-- SWC: EN of an egress acts by R291, and a share is computed again at once (R286). -/
def Block.wrSwc (a : Nat) (w : RegW) (b : Block) : Block :=
  let p := (a - 0x181000) / 0x100
  if 0x181000 ≤ a && a < 0x184000 && a = SWC_PORT_CTL p then
    let b1 := b.storeW a (w.without 1)
    if w.hits 0 1 && w.one 0 != b.flag (SWC_PORT_CTL_EN p) then b1.portEn p (w.one 0) else b1
  else if 0x184000 ≤ a && a < 0x190000 then (b.storeW a w).shareUpdate
  else if 0x181000 ≤ a && a < 0x184000 && a = SWC_PORT_EQLIM p then (b.storeW a w).queueUpdates p
  else b.wrSwcWin a w

/-- ZRG (R22, R248, R249, R260 to R267). -/
def Block.wrZrg (a : Nat) (w : RegW) (b : Block) : Block :=
  let n := (a - 0x1C0000) / 0x1000
  let rel := (a - 0x1C0000) % 0x1000
  let d := b.lowData a w
  if a < 0x1E0000 then
    if rel = 0 then b.zrgCfg n d
    else if rel = 0x60 then b.wdogWrite n d
    else if rel = 0x70 then b.lselWrite n (d.toNat % 2 ^ 9)
    else if 0xC0 ≤ rel && rel < 0x100 then b.lostClear n ((rel - 0xC0) / 0x10) (w.bits.extractLsb' 0 64)
    else b.storeW a w
  else if a = ZRG_EPT then (if w.one 2 then b.eptSwap else b)
  else if a = ZRG_EWCTL then
    let b1 := b.storeW a w
    let b2 := if w.one 0 then b1.eptWrite d else b1
    if w.one 1 then b2.eptRead d else b2
  else b.storeW a w

/-- GAL (R170 to R173, R194, Table 5-3). -/
def Block.wrGal (a : Nat) (w : RegW) (b : Block) : Block :=
  let n := (a - 0x200000) / 0x10000
  let d := b.lowData a w
  if a = GAL_SPARE then (if w.hits 0 1 then b.spareWrite (w.one 0) else b)
  else if a = GAL_CTL n then b.galCtl n (d.getLsbD 0) (w.one 1) (w.one 2)
  else if a = GAL_STAT n then
    let b1 := if w.one 7 then b.engRetireClear n else b
    if w.one 20 then b1.hdiscClr n else b1
  else if a = GAL_CAUSE n then (if w.one 36 then (b.storeW a w).rcodeClr n else b.storeW a w)
  else if a = GAL_SLACK n then (if w.one 22 then b.slackClr n else b)
  else if a = GAL_DADDR n then b.ddataCapture n d
  else if a = GAL_DDATA n then
    let x := w.over_ (b.reg a)
    let b1 := if w.hits 0 64 then b.ddataWrite n false (x.extractLsb' 0 64) else b
    if w.hits 64 8 then b1.ddataWrite n true (x.extractLsb' 64 8 |>.zeroExtend 64) else b1
  else b.storeW a w

/-- FLW (R216, R218, R221, R224, R225). -/
def Block.wrFlw (a : Nat) (w : RegW) (b : Block) : Block :=
  let k := if a < 0x311000 then 0 else 1 + (a - 0x311000) / 0x100
  if 0x310000 ≤ a && a < 0x320000 then b.windowWrite k ((a - recWin k) / 0x10) (w.over_ (b.reg a))
  else if a = FLW_CTL then ((if w.hits 0 1 && !w.one 0 then b.flwDisable else b).storeW a w).flwShow
  else if a = FLW_STAT then b.cellClear (BitVec.ofNat 8 (w.ones 8 8))
  else if a = FLW_SWCTL then b.switchCtl (b.lowData a w) (w.one 36)
  else if a = FLW_SHED then (b.storeW a w).levelDrop (b.get FLW_SHED_LEVEL)
  else b.storeW a w

/-- STS (R476): ARM and NOW together are refused whole; CANCEL acts before the other. -/
def Block.wrSts (a : Nat) (w : RegW) (b : Block) : Block :=
  if a = STS_SNAP_CTL then
    if w.one 0 && w.one 1 then b.putB STS_SNAPSTAT_REFUSED true
    else
      let b1 := if w.one 2 then b.snapCancel else b
      if w.one 0 then b1.hostSnap (some (b1.reg STS_SNAP_AT)) else if w.one 1 then b1.hostSnap none else b1
  else b.storeW a w

/-- PRF (R486 to R489). -/
def Block.wrPrf (a : Nat) (w : RegW) (b : Block) : Block :=
  if a = PRF_TRCTL then (if w.one 59 then b.traceClr (b.lowData a w) else b.trctlStore (b.lowData a w))
  else if a = PRF_TRIDX then b.traceLoad (b.lowData a w)
  else b.prfTouch.storeW a w

/-- PAIR_CTL (R494, R496, R520), its bits from the lowest. -/
def Block.pairCtl (w : RegW) (b : Block) : Block :=
  let b1 := if w.one 0 && b.pairState == 1 then b.toSolo else b
  let b2 := if w.one 1 && b1.pairState == 6 then b1.toResync else b1
  let b3 := if w.one 2 && (b2.pairState == 4 || b2.pairState == 5) then b2.withdraw else b2
  let b4 := if w.one 3 && (b3.pairState == 4 || b3.pairState == 5) then b3.journalItem .handover else b3
  if w.one 4 && (List.range 32).all (fun n => b4.ringState n != 3) then
    ((b4.mapPair (fun p => { p with gen := 1 })).sendRope (.control .genrst)).claimShow
  else b4

/-- PAIR (R521). -/
def Block.wrPair (a : Nat) (w : RegW) (b : Block) : Block :=
  if a = PAIR_CFG then b.pairEnable (b.lowData a w)
  else if a = PAIR_CTL then b.pairCtl w
  else if (a = PAIR_DELAY || a = PAIR_AXSRC) && b.pairState != 0 then b
  else b.storeW a w

/-- SEC_CTL (R557). -/
def Block.secCtl (w : RegW) (b : Block) : Block :=
  let held := (List.range 7).any (fun s => bitAt (b.get SEC_STAT_LEVEL) s && b.tamperAct s != 0)
  let b1 := if w.one 0 && !held then b.putB SEC_STAT_LOCKED false else b
  if w.one 1 then ((((b1.logWrite 7 2).put SEC_CAUSE_SRC 7).putB SEC_CAUSE_TAMPER true).raise evAlarm).eraseKeys else b1

/-- SEC_TACT (R556): MESH is fixed, and the value 3 is reserved for each source. -/
def Block.tactStore (w : RegW) (b : Block) : Block :=
  b.put SEC_TACT_ACT ((List.range 7).foldl (fun v s =>
    let n := fieldOf (w.over_ (b.reg SEC_TACT)) (2 * s) 2
    if s = 1 || n = 3 then v else v - v / 2 ^ (2 * s) % 4 * 2 ^ (2 * s) + n * 2 ^ (2 * s)) (b.get SEC_TACT_ACT))

/-- SEC (R551, R553, R556, R557, R560, R564). -/
def Block.wrSec (a : Nat) (w : RegW) (b : Block) : Block :=
  let d := b.lowData a w
  if a = SEC_CTL then b.secCtl w
  else if a = SEC_TACT then b.tactStore w
  else if a = SEC_KCTL then
    let b1 := if w.one 0 then b.keyWrite else b
    if w.one 1 then b1.keyClear else b1
  else if a = SEC_CHCTL then (if w.one 4 then b.challenge d else b.storeW a w)
  else if a = SEC_LOGCTL then
    let b1 := b.logSelect (d.toNat % 16)
    if w.one 29 then b1.logClear else b1
  else if a = SEC_FCTL then b.fuseCtl d
  else b.storeW a w

/-- HOST (Table 2-8). -/
def Block.wrHost (a : Nat) (w : RegW) (b : Block) : Block :=
  if a = HOST_ERRCAUSE then (if w.one 16 then (b.put HOST_ERRCAUSE_CODE 0).put HOST_ERRCAUSE_CNT 0 else b)
  else if a = HOST_STALL then (if w.one 18 then b.put HOST_STALL_MAX 0 else b)
  else if 0x421000 ≤ a && a % 0x100 = 0 then b.dmaCtl ((a - 0x421000) / 0x100) (b.lowData a w)
  else b.storeW a w

/-- A write takes effect in the register at slot `a` (R19). A counter takes its acknowledge only (R20). -/
def Block.regWrite (a : Nat) (w : RegW) (b : Block) : Block :=
  if w.mask = 0 || (regAt a).isNone then b
  else if isCounter a then (if w.one 40 then b.ackCounter a else b)
  else if a < 0x10000 then b.wrSys a w
  else if a < 0x20000 then b.wrEvt a w
  else if a < 0x30000 then b.wrPwr a w
  else if a < 0x40000 then b.wrClk a w
  else if a < 0x50000 then b.wrCmp a w
  else if a < 0x60000 then b.wrLan a w
  else if a < 0x70000 then b.wrTic a w
  else if a < 0x80000 then b.wrCal a w
  else if a < 0x90000 then b.wrEnc a w
  else if a < 0x100000 then b.wrOut a w
  else if a < 0x140000 then b.wrSds a w
  else if a < 0x180000 then b.wrMac a w
  else if a < 0x1C0000 then b.wrSwc a w
  else if a < 0x200000 then b.wrZrg a w
  else if a < 0x300000 then b.wrGal a w
  else if a < 0x380000 then b.wrFlw a w
  else if a < 0x3C0000 then b.wrSts a w
  else if a < 0x400000 then b.wrPrf a w
  else if a < 0x410000 then b.wrPair a w
  else if a < 0x420000 then b.wrSec a w
  else b.wrHost a w

end Sys2Proof.Machine
end

