-- ==== Sys2Proof/Machine/Journal.lean ====
section
/-! DEFINITION. The journal of a pair (R74 to R79, R502 to R505): which registers it carries, what each
entry does at its journal time, and JOURNAL_APPLY. -/

namespace Sys2Proof.Machine

/-! ### Journaled and local registers (R76, Table 2-3) -/

/-- A register that Table 2-3 marks journaled. -/
def journaledReg (a : Nat) : Bool :=
  a == SYS_CYCLE || a == SYS_MSLOT || a == SYS_PROFILE || a == 0x3C0000 ||
    (0x50000 ≤ a && a < 0x60000) || (0x80000 ≤ a && a < 0x100000) || (0x1C0000 ≤ a && a < 0x380000)

/-- The bits of a journaled register that R76 makes local, of those a write can act on. -/
def localBits (a : Nat) : Word :=
  if 0x1C0000 ≤ a && a < 0x1E0000 then
    let r := a % 0x1000
    if r = 0x20 || (0xC0 ≤ r && r < 0x100) || 0x800 ≤ r then BitVec.allOnes 72 else 0
  else if a = ZRG_EPCAUSE then BitVec.allOnes 72
  else if 0x200000 ≤ a && a < 0x300000 then
    let r := a % 0x10000
    if r = 0x20 || r = 0xA0 then BitVec.allOnes 72 else if r = 0x30 then 1 else 0
  else if a = FLW_CAUSE then 3
  else if 0x300800 ≤ a && a < 0x300900 then BitVec.allOnes 72
  else 0

/-- The part of a host write that the journal carries. -/
def journalPart (r : BarReq) : RegW := (regW r).without (localBits (slotOf r.off.toNat))

/-! ### Commands that write journaled registers -/

/-- The registers that a journaled command stores, with what it writes in each. -/
def cmdStores : Instr → List (Nat × RegW)
  | .registerWrite r => [(slotOf r.off.toNat, journalPart r)]
  | .cycleArm d => [(SYS_CYCLE, halfW false d)]
  | .cycleRunWrite d => [(SYS_CYCLE, halfW false d)]
  | .mslotWrite d => [(SYS_MSLOT, halfW false d)]
  | .profileGo d => [(SYS_PROFILE, halfW false d)]
  | .flowstoneDisable => [(FLW_CTL, ⟨1, 0⟩)]
  | .recordWrite win reg hi d => [(recWin win + 0x10 * reg, halfW hi d)]
  | .switchGo d => [(FLW_SWCTL, halfW false d)]
  | .engineLoad n en => [(GAL_CTL n, ⟨1, BitVec.ofNat 72 (b2n en)⟩)]
  | .engineStart n en => [(GAL_CTL n, ⟨1, BitVec.ofNat 72 (b2n en)⟩)]
  | .engineDisable n => [(GAL_CTL n, ⟨1, 0⟩)]
  | .spareDesignate en => [(GAL_SPARE, ⟨1, BitVec.ofNat 72 (b2n en)⟩)]
  | .ddataCapture n d => [(GAL_DADDR n, halfW false d)]
  | .ddataWrite n hi d => [(GAL_DDATA n, halfW hi d)]
  | .timeStep => [(LAN_ADJ, ⟨3 <<< 64, 0⟩)]
  | .timeSlew => [(LAN_ADJ, ⟨3 <<< 64, 1 <<< 64⟩)]
  | .timeSet => [(LAN_ADJ, ⟨3 <<< 64, 2 <<< 64⟩)]
  | .axisSrcWrite n d => [(LAN_AXCFG n, halfW false d)]
  | .axisRestart n d => [(LAN_AXCFG n, halfW false d)]
  | .hostP2tGo n d => [(LAN_AXQCTL n, halfW false d)]
  | .domainSwitchWrite d => [(LAN_TCTL, halfW false d)]
  | .masterSelect d x => [(LAN_D_SEL d, halfW false x)]
  | .servoEnable d x => [(LAN_D_CFG d, halfW false x)]
  | .outputEnable j d => [(PIO_OUT_CTL j, halfW false d)]
  | .outputStep j d => [(PIO_OUT_STEP j, halfW false d)]
  | .eptWrite d => [(ZRG_EWCTL, halfW false d)]
  | .eptRead d => [(ZRG_EWCTL, halfW false d)]
  | .ringScan n d => [(ZRG_CFG n, halfW false d)]
  | .ringDisable n d => [(ZRG_CFG n, halfW false d)]
  | .wdogWrite n d => [(ZRG_WDOG n, halfW false d)]
  | _ => []

/-- The effect of a journaled command at its journal time. -/
def applyCmd : Instr → Block → Block
  | .registerWrite r => Block.regWrite (slotOf r.off.toNat) (journalPart r)
  | .cycleArm d => Block.cycleWrite d true
  | .cycleRunWrite d => Block.cycleWrite d (d.getLsbD 24)
  | .mslotWrite d => Block.mslotWrite d
  | .profileGo d => Block.profWrite d
  | .cellRetireClear m => Block.cellClear m
  | .flowstoneDisable => Block.flwDisable
  | .recordWrite win reg hi d => Block.recordWrite win reg hi d
  | .switchGo d => Block.switchCtl d true
  | .engineLoad n en => Block.galCtl n en false true
  | .engineStart n en => Block.galCtl n en true false
  | .engineDisable n => Block.galCtl n false false false
  | .spareDesignate en => Block.spareWrite en
  | .ddataCapture n d => Block.ddataCapture n d
  | .ddataWrite n hi d => Block.ddataWrite n hi d
  | .galRcodeClr n => Block.rcodeClr n
  | .ltCapture => Block.ltCapture
  | .timeStep => Block.timeStep
  | .timeSlew => Block.timeSlew
  | .timeSet => Block.timeSet
  | .axisSrcWrite n d => Block.axisSrcWrite n d
  | .axisRestart n d => Block.axisRestart n d
  | .encStatClr e => Block.encClr e
  | .axisFaultsClr n => fun b => b.put (LAN_AXSTAT_FAULTS n) 0
  | .knotArm n => Block.knotArm n
  | .axisCapture n => Block.axisCapture n
  | .hostP2tGo n d => Block.hostP2tGo n d
  | .domainSwitchWrite d => Block.domWrite d
  | .masterSelect d x => Block.selWrite d x
  | .servoEnable d x => Block.servoWrite d x
  | .outputEnable j d => Block.outCtl j d
  | .outputStep j d => Block.outStep j d
  | .outputDropClr j => Block.outClr j
  | .eptSwap => Block.eptSwap
  | .eptWrite d => Block.eptWrite d
  | .eptRead d => Block.eptRead d
  | .ringScan n d => Block.zrgCfg n d
  | .ringDisable n d => Block.zrgCfg n d
  | .wdogWrite n d => Block.wdogWrite n d
  | _ => fun b => b

/-! ### Axis samples (R504) -/

/-- The unit whose encoder feeds axis `n`, true for unit B: value 2 of PAIR_AXSRC names the ACTIVE or SOLO unit, which
this unit is in states 2 and 5. -/
def Block.axisUnitB (b : Block) (n : Nat) : Bool :=
  let v := b.get PAIR_AXSRC_SRC / 2 ^ (2 * n) % 4
  if v = 0 then false
  else if v = 1 then true
  else if b.pairState = 2 || b.pairState = 5 then b.flag PAIR_CFG_UNIT else !b.flag PAIR_CFG_UNIT

/-- The first sample of a new source re-bases the axis to the estimator's prediction at its stamp (R504). -/
def Block.axisResource (b : Block) (n : Fin 16) (x : SampleIn) : Block :=
  match x.sample with
  | none => b
  | some (st, raw) =>
    let y := b.axes[n]
    b.setAxis n { y with base := y.base + predictP y (stwDiff st y.s0) / 2 ^ 24 - b.samplePos n raw }

/-- A journaled sample takes effect where its unit is the axis's source; the record of the other unit marks the end of an
interval, which is a faulty one where the source's record of it is missing (R504). -/
def Block.sampleApply (b : Block) (e : JEntry) (n : Fin 16) (x : SampleIn) : Block :=
  let src := if b.axisUnitB n then 2 else 1
  if e.unitB == b.axisUnitB n then
    let old := b.pair.axFrom[n]
    let b1 := if old ≠ 0 && old ≠ src && !x.faulty then b.axisResource n x else b
    let from_ := if x.sample.isSome && !x.faulty then src else old
    (b1.applyInput n x).mapPair (fun p => { p with
      axFrom := vmod p.axFrom n (fun _ => from_), axSeen := p.axSeen ||| BitVec.ofNat 16 (2 ^ n.val) })
  else
    let coming := b.host.journal.any (fun f => decide (f.at_ ≤ e.at_) && f.unitB != e.unitB &&
      (match f.item with | .sample m _ => m == n.val | _ => false))
    let missing := !b.pair.axSeen.getLsbD n && !coming
    (if missing && b.axState n != 0 && b.axState n != 4 then b.faultyInterval n else b).mapPair (fun p => { p with
      axSeen := p.axSeen &&& ~~~BitVec.ofNat 16 (2 ^ n.val) })

/-! ### Entries (R77, R502) -/

/-- A Compass commit of the partner: this unit's PLL takes the step, and STATE and STAGE show the holder's (R509). -/
def Block.commitFollow (b : Block) (phi : Int) (st stage : Nat) : Block :=
  (((b.phaseStep phi).stageGo stage).cmpGo st).requal

/-- What an entry does at its journal time (Table 17-4). -/
def Block.entryApply (b : Block) (e : JEntry) : Block :=
  match e.item with
  | .cmd i =>
    let b1 := applyCmd i b
    if e.own then b1.put HOST_JSTAT_PEND (b1.get HOST_JSTAT_PEND - 1) else b1
  | .sample n x => b.sampleApply e (Fin.ofNat 16 n) x
  | .engRetire n => b.mapEng n (fun x => { x with coreRet := true })
  | .cellRetire c =>
    if b.cycling then b.mapFlw (fun w => { w with retirePend := w.retirePend ||| BitVec.ofNat 8 (2 ^ c) }) else b.cellRetire c
  | .ringData g w v cycle claim => b.returnApply g w v cycle claim
  | .loadReport n ok d => b.loadReport e.own n ok d
  | .handover => b.actAt .handover e.at_
  | .withdraw => b.actAt (if e.own then .withdraw else .handover) e.at_
  | .measure d k ofs mpd => b.measured d k ofs mpd
  | .steer f => b.puti CMP_OUTFREQ_FREQ f
  | .cmpState st stage => ((b.stageGo stage).cmpGo st).requal
  | .cmpCommit target phi st stage => if e.own then b.commitNow target phi st stage else b.commitFollow phi st stage
  | .encDly g d => b.dlyStore g d
  | .profReady code => b.profReport e.own code

/-- Entry `e` comes before `f`: by journal time, then unit A before unit B (R77). -/
def JEntry.before (e f : JEntry) : Bool := decide (e.at_ < f.at_) || (e.at_ == f.at_ && !e.unitB && f.unitB)

/-- The entry due first, of equal ones the earlier in the list, and the rest. -/
def nextEntry : List JEntry → Option (JEntry × List JEntry)
  | [] => none
  | e :: r =>
    match nextEntry r with
    | none => some (e, [])
    | some (f, rest) => if f.before e then some (f, e :: rest) else some (e, r)

/-! ### What an entry changes in a joiner (R518) -/

/-- The keys, under a base, at which two sparse tables differ. -/
def diffKeys {α : Type} [DecidableEq α] (d : Nat → α) (old new : SMap α) (key : Nat → Nat) : List Nat :=
  let ne := fun (p : Nat × α) => decide (sget d old p.1 ≠ sget d new p.1)
  ((new.filter ne).map (fun p => key p.1)) ++ ((old.filter ne).map (fun p => key p.1))

/-- The keys of `xferKey` whose items an entry has changed: registers, data stores, both endpoint tables, cam records, axes. -/
def changedItems (old new : Block) : List Nat :=
  touchedRegs old.regs new.regs ++
  (List.range 16).flatMap (fun e => diffKeys (fun _ => (0 : Word)) (old.engine e).data (new.engine e).data
    (fun w => 2 ^ 24 + (e * 2 + 1) * 2 ^ 15 + w)) ++
  (diffKeys (fun _ => epOff) old.rings.ept new.rings.ept (fun i => i)).flatMap (fun i => [2 ^ 25 + i * 2, 2 ^ 25 + i * 2 + 1]) ++
  (diffKeys (fun _ => epOff) old.rings.edit new.rings.edit (fun i => i)).flatMap
    (fun i => [2 ^ 25 + (2 ^ 18 + i) * 2, 2 ^ 25 + (2 ^ 18 + i) * 2 + 1]) ++
  (diffKeys (fun _ => Rec.reset) old.flw.recs new.flw.recs (fun i => i)).flatMap
    (fun i => (List.range 6).map (fun w => 2 ^ 26 + i * 8 + w)) ++
  ((List.finRange 16).filter (fun n => decide (old.axes[n] ≠ new.axes[n]))).map (fun n => 2 ^ 30 + n.val)

/-- In RESYNC, what an entry has changed is later than any transferred item with an earlier tag (R518). -/
def Block.tagEntry (b new : Block) : Block :=
  if b.pairState ≠ 3 then new
  else
    let t := new.stw
    new.mapPair (fun p => { p with tags := (changedItems b new).foldl (fun m k => sput (fun _ => 0) m k t) p.tags })

/-- JOURNAL_APPLY: the entry whose journal time comes first is reached and acted on. -/
def Block.journalApply (b0 : Block) : Block :=
  match nextEntry b0.host.journal with
  | none => b0
  | some (e, rest) =>
    let b := b0.reachNs e.at_
    let b1 := { b with host := { b.host with journal := rest } }
    let b2 := b1.tagEntry (b1.entryApply e)
    if e.own then b2 else b2.put PAIR_JSEQ_SEQ e.seq

end Sys2Proof.Machine
end

