-- ==== Sys2Proof/Machine/Access.lean ====
section
/-! DEFINITION. The host's requests in their order (R67, R69, R73, R79): reads and writes of registers (R57, R60 to R67, R74 to R78), accesses
that meet a sleeping domain or an unchecked bank (R69, R532, R533, R540), one that the profile or a reset holds off (R71,
R591, R596), a LOST bank (R72) and a full relock (R440). -/

namespace Sys2Proof.Machine

/-! ### Reads -/

/-- Registers that show a running value are brought up to date before a read: pulse outputs, Flowstone, the AON count, and the GPIO
contacts, of which an output shows its level and an input a free value (log entry 2). -/
def Block.freshen (a : Nat) (b : Block) : Block :=
  if 0x100000 ≤ a && a < 0x124000 then b.laneWoken ((a - 0x100000) / 0x1000)
  else if 0x90000 ≤ a && a < 0x91000 then b.outSettles
  else if 0x180000 ≤ a && a < 0x1C0000 then b.rowSettle
  else if 0x300000 ≤ a && a < 0x380000 && !b.flw.flight.isEmpty then b.flwRun.flwShow
  else if 0x3C0000 ≤ a && a < 0x3E0000 then b.prfTouch
  else if a = PWR_AON then b.put PWR_AON_CNT b.aon
  else if a = SYS_GPIOIN then
    let dir := b.get SYS_GPIO_DIR
    let lv := Nat.land dir (b.get SYS_GPIO_OUT) + Nat.land (2 ^ 24 - 1 - dir) (b.freeNext (2 ^ 24 - 1))
    (b.put SYS_GPIOIN_IN lv).freeStep
  else b

/-- What a read leaves: PWR_LAST.BKUP tells of BACKUP since the last read (Table 18-9). -/
def Block.afterRead (a : Nat) (b : Block) : Block := if a = PWR_LAST then b.putB PWR_LAST_BKUP false else b

/-- A register with the RW fields that a pending write of this unit's host has stored (R75). -/
def Block.overlay (b : Block) (a : Nat) (x : Word) (w : RegW) : Word :=
  (regFields a).foldl (fun y f => if f.acc = .rw then b.fieldStore a w y f else y) x

/-- The value a host read returns (R75): the value in force under this unit's own journaled writes that wait. -/
def Block.hostValue (b : Block) (a : Nat) : Word :=
  ((b.host.journal.filter (·.own)).flatMap (fun e => match e.item with
    | .cmd i => (cmdStores i).filter (fun p => p.1 == a)
    | _ => [])).foldl (fun x p => b.overlay a x p.2) (b.reg a)

/-- A host read of a register: its bytes leave as the completion (R60, R62). -/
def Block.hostRead (r : BarReq) (b0 : Block) : Block :=
  let a := slotOf r.off.toNat
  let b := b0.freshen a
  (b.emit (.readData r.off.toNat ((b.setReg a (b.hostValue a)).readBytes r.off.toNat r.eight) false)).afterRead a

/-! ### Writes -/

/-- The bits that the fields of a register occupy. -/
def fieldBits (a : Nat) : Word := (regFields a).foldl (fun m f => m ||| (lowMask f.w <<< f.lo)) 0

/-- A host write of a register: at once, or where it is journaled and this unit a member, the journal's part at its journal
time (R74, R76, R78). A write that carries no bit of a field has no effect. -/
def Block.hostWrite (r : BarReq) (b : Block) : Block :=
  let a := slotOf r.off.toNat
  let w := (regW r).within (fieldBits a)
  if w.mask = 0 then b
  else if b.synced && journaledReg a then
    let b1 := b.regWrite a (w.within (localBits a))
    if (w.without (localBits a)).mask = 0 then b1
    else (b1.journalItem (.cmd (.registerWrite r))).incSat HOST_JSTAT_PEND 1
  else b.regWrite a w

/-! ### What an access meets -/

/-- The retained bank that an access reaches: the data-store word of GALn_DADDR, at a write of GALn_DADDR or GALn_DDATA
(R173, R538). -/
def Block.bankOf (b : Block) (r : BarReq) : Option Nat :=
  let a := slotOf r.off.toNat
  let n := (a - 0x200000) / 0x10000
  if !r.wr || a < 0x200000 || 0x300000 ≤ a then none
  else if a = GAL_DADDR n then some (96 * n + 64 + fieldOf ((regW r).over_ (b.reg a)) 0 14 / 512)
  else if a = GAL_DDATA n then some (96 * n + 64 + b.get (GAL_DADDR_ADDR n) / 512)
  else none

/-- A main-PLL domain while a full relock keeps the outputs stopped (R440, Table 1-11): PD2 and PD4 to PD11. -/
def Block.relockStops (b : Block) (a : Nat) : Bool :=
  let d := domainOf a
  (d == 2 || decide (4 ≤ d)) && decide (1 ≤ b.pllState 0) && decide (b.pllState 0 ≤ 3)

/-- What a request meets. -/
inductive Meets | unclaimed | core | size | unmapped | off | lost | wakes | ready
  deriving DecidableEq, Repr

/-- The retained bank of a request is marked LOST (R72). -/
def Block.bankLostAt (b : Block) (r : BarReq) : Bool :=
  match b.bankOf r with | some k => b.pw.lost.getLsbD k | none => false

/-- The retained bank of a request is in retention or not yet checked (R540). -/
def Block.bankWaits (b : Block) (r : BarReq) : Bool :=
  match b.bankOf r with | some k => b.pw.unchecked.getLsbD k || b.pw.sealed.getLsbD k | none => false

/-- What a request meets at present (R56, R57, R69 to R72, R440, R533). A register of a domain that is off with PD3 on is
held off: by the profile, in SAFE, or by a reset. -/
def Block.meets (b : Block) (r : BarReq) : Meets :=
  let a := slotOf r.off.toNat
  if r.bar = .none then .unclaimed
  else if r.bar ≠ .bar0 then .core
  else if !sizeOk r then .size
  else if (regAt a).isNone then .unmapped
  else if !b.domOn (domainOf a) then .off
  else if b.bankLostAt r then .lost
  else if !b.regOn a || b.relockStops a || (b.pwrState == 2 && domainOf a == 8) || b.bankWaits r then .wakes
  else .ready

/-- A quad that an access has powered stays on for 10 ms from its latest access (R532). -/
def Block.quadTouch (b : Block) (a : Nat) : Block :=
  match quadOf a with
  | some q => if (b.pw.quadAcc.getLsbD q) then b.mapPw (fun p => { p with quadAt := vmod p.quadAt q (fun _ => b.tm.phys) }) else b
  | none => b

/-! ### Answers -/

/-- A request is answered as what it meets demands; one that stalled is carried out with what it waited for ready, a
Flowstone register in LINE-HOLD with its clocks running for this access (R533). -/
def Block.answerReq (r : BarReq) (b : Block) : Block :=
  let o := r.off.toNat
  match b.meets r with
  | .unclaimed => b.unclaimed o
  | .core => if r.bar = .bar4 then b.bar4 r else b.configReq r
  | .size => b.badSize o
  | .unmapped => b.unmapped r
  | .off => (b.zeroCompletion r).hostErr 3 o
  | .lost => ((b.pciError 15).emit (.completerAbort o)).hostErr 4 o
  | .wakes | .ready => (if r.wr then b.hostWrite r else b.hostRead r).quadTouch (slotOf o)

/-- The Cavern controller and its PHY, PD7 and PD11, are on (Table 1-1). -/
def Block.cavernOn (b : Block) : Bool := b.domOn 7 && b.domOn 11

/-- A BAR2 read is answered; with Cavern's domains held off it reads zero (R71, R83). -/
def Block.answerBar2Read (off : BitVec 28) (len : BitVec 13) (ups : List (Nat × Bool)) (b : Block) : Block :=
  if b.cavernOn then (b.upsets ups).bar2Read off.toNat len.toNat
  else (b.emit (.readData off.toNat (List.replicate len.toNat 0) false)).hostErr 3 off.toNat

/-- A BAR2 write is answered; with Cavern's domains held off it is discarded (R71, R83). -/
def Block.answerBar2Write (off : BitVec 28) (bytes : List (Option Byte)) (ups : List (Nat × Bool)) (b : Block) : Block :=
  if b.cavernOn then (b.upsets ups).bar2Write off.toNat bytes else b.hostErr 3 off.toNat

/-- The request that a write of GALn_DADDR or GALn_DDATA is (R173). -/
def ddataReq : Instr → Option BarReq
  | .ddataCapture n d => some { off := BitVec.ofNat 24 (GAL_DADDR n), eight := true, wr := true, data := d }
  | .ddataWrite n hi d => some { off := BitVec.ofNat 24 (GAL_DDATA n + if hi then 8 else 0), eight := true, wr := true, data := d }
  | _ => none

/-- A write that a command names and that has waited takes effect. -/
def namedWrite : Instr → Block → Block
  | .calRequest data => Block.calReq data
  | .calDisable => Block.calDisable
  | .bistGo => Block.bistGo
  | .pllRelock => Block.pllRelock
  | .fullRelock => Block.fullRelock
  | .clkOutenWrite data => Block.outEnWrite data
  | .inputEnable k data => Block.inCfg k data
  | .inputRetireClear k => Block.inUnretire k
  | .lwmClr => Block.lwmClr
  | .dmaDisable n prog moved => Block.dmaDisableAct n prog moved
  | .dmaResume n data => Block.dmaCtl n (data ||| 256)
  | .engineRetireClear n => Block.engRetireClear n
  | .galHdiscClr n => Block.hdiscClr n
  | .galSlackClr n => Block.slackClr n
  | .cageOcClear mask => Block.ocClear mask.toNat
  | .macEnable n => Block.macEnable n
  | .macDisable n receiving => Block.macDisable n receiving
  | .retrain l => Block.retrain l
  | .laneRetireClear l => Block.laneUnretire l
  | .laneTestGo l data => Block.laneTestGo l data
  | .sscWrite data => Block.sscWriteAct data
  | .bootUpdate data => Block.bootWrite (data ||| BitVec.ofNat 64 (2 ^ 29))
  | .tsPop n => Block.tsPop n
  | .pairEnable data => Block.pairEnable data
  | .pairSolo => Block.pairSoloAct
  | .pairResync => Block.pairResyncAct
  | .pairWithdraw => Block.pairWithdrawAct
  | .pairHandover => Block.pairHandoverAct
  | .pairGenrst => Block.pairGenrstAct
  | .reqRun data => Block.pwrCtl (reqWrite 0 data)
  | .reqDoze data => Block.pwrCtl (reqWrite 1 data)
  | .reqLineHold data => Block.pwrCtl (reqWrite 2 data)
  | .reqStandby data => Block.pwrCtl (reqWrite 3 data)
  | .reqMaint data => Block.pwrCtl (reqWrite 4 data)
  | .retnClr => Block.retnClrAct
  | .loopbackGo n data => Block.loopGo n data
  | .nodeRetireClear n j mask => Block.lostClear n j mask
  | .keyWrite => Block.keyWrite
  | .keyClear => Block.keyClear
  | .challengeGo data => Block.challenge data
  | .secUnlock => Block.secUnlockAct
  | .softErase => Block.softEraseAct
  | .logClr => Block.logClear
  | .fuseProg data => Block.fuseCtl (data ||| 4)
  | .fuseRevoke data => Block.fuseCtl (data ||| 8)
  | .counterAck a => Block.counterAckAct a
  | .snapArm => Block.snapArmAct
  | .snapNow => Block.snapNowAct
  | .snapCancel => Block.snapCancel
  | .traceClr data => Block.traceClrAct data
  | .traceLoad data => Block.traceLoadAct data
  | .perfCounterRead a => Block.perfCounterReadAct a
  | .lineReset data => Block.rstWrite (rstData 1 data)
  | .moduleReset data => Block.rstWrite (rstData 2 data)
  | .fdbWrite => Block.fdbWrite
  | .fdbDelete => Block.fdbDelete
  | .fdbLookup => Block.fdbLookup
  | .vlanWrite => Block.vlanWrite
  | .vlanRead => Block.vlanRead
  | .streamWrite => Block.streamWrite
  | .streamRead => Block.streamRead
  | .sliceReturn mask => Block.sliceReturn mask
  | .spareRowClear mask => Block.spareClear mask
  | .ticArm data => Block.ticCtl data
  | .ticDisable => Block.ticDisableAct
  | .ticPop => Block.ticPop
  | .ticStatClr => Block.ticClr
  | .hostErrClr => Block.errClr
  | .hostStallClr => Block.stallClr
  | .evtPendClear mask => fun b => b.pendClear mask
  | .evtEnWrite data => fun b => b.enWrite data
  | .evtSet mask => fun b => b.occurAll (maskBits mask.toNat)
  | .unsupportedSize off => fun b => b.badSize off.toNat
  | i => journalWrite i (applyCmd i)

/-- A request that waited is answered. -/
def Block.answer (i : Instr) (b : Block) : Block :=
  match i with
  | .registerWrite r => b.answerReq r
  | .bar2Read off len ups => b.answerBar2Read off len ups
  | .bar2Write off bytes ups => b.answerBar2Write off bytes ups
  | _ =>
    match ddataReq i with
    | some r => if b.bankLostAt r then b.answerReq r else namedWrite i b
    | none => namedWrite i b

/-- A request still waits: for its quad, its bank, Flowstone's clocks or the main outputs. -/
def Block.mustWait (b : Block) : Instr → Bool
  | .registerWrite r => b.meets r == .wakes
  | .bar2Read _ _ _ => b.cavernOn && b.relockStops 0x200000
  | .bar2Write _ _ _ => b.cavernOn && b.relockStops 0x200000
  | i => match ddataReq i with | some r => !b.bankLostAt r && b.bankWaits r | none => false

/-- The domain that a request waits for. -/
def waitDomain : Instr → Nat
  | .registerWrite r => domainOf (slotOf r.off.toNat)
  | .bar2Read _ _ _ => 7
  | .bar2Write _ _ _ => 7
  | i => if (ddataReq i).isSome then 7 else 3

/-- The seal check of the bank that a request waits for begins with it (R69, R533). -/
def Block.bankBegins (b : Block) (i : Instr) : Block :=
  match (match i with | .registerWrite r => b.bankOf r | j => (ddataReq j).bind b.bankOf) with
  | some k => if b.pw.sealed.getLsbD k then b.unseal (BitVec.ofNat 1538 (2 ^ k)) else b
  | none => b

/-- A request arrives: it is answered, or it waits, behind the requests that wait already, and its wake starts at once
(R67, R69). -/
def Block.arrive (i : Instr) (b : Block) : Block :=
  if !b.mustWait i && b.hostMay i then b.answer i
  else if b.mustWait i then (b.bankBegins i).enqueueReq i (waitDomain i) true
  else b.enqueueReq i (waitDomain i) false

/-- A BAR0 request arrives. The first access ends the hold of INT_N (R536). -/
def Block.request_ (r : BarReq) (b : Block) : Block := (b.mapPw (fun p => { p with intLow := false })).arrive (.registerWrite r)

/-- REGISTER_WRITE: a request at a register. With `wr` false it is the host's read (log entry 20). -/
def execRegisterWrite (r : BarReq) (s : State) : Host.Outcome State Fault Refusal := donePower s (Block.request_ r)

/-- UNMAPPED_ACCESS: it occurs only where no register answers: at an offset without one, with a bad size, or outside every BAR. -/
def execUnmappedAccess (r : BarReq) (s : State) : Host.Outcome State Fault Refusal :=
  donePower s fun b => if b.meets r = .unmapped ∨ b.meets r = .size ∨ b.meets r = .unclaimed then b.request_ r else b

/-- DOMAIN_WAKE_ACCESS: it occurs only where the request must wait. -/
def execDomainWakeAccess (r : BarReq) (s : State) : Host.Outcome State Fault Refusal :=
  donePower s fun b => if b.meets r = .wakes then b.request_ r else b

/-- PROFILE_OFF_ACCESS: it occurs only at a register whose domain is held off. -/
def execProfileOffAccess (r : BarReq) (s : State) : Host.Outcome State Fault Refusal :=
  donePower s fun b => if b.meets r = .off then b.request_ r else b

/-- LOST_BANK_ACCESS: it occurs only at a bank marked LOST. -/
def execLostBankAccess (r : BarReq) (s : State) : Host.Outcome State Fault Refusal :=
  donePower s fun b => if b.meets r = .lost then b.request_ r else b

/-- BAR2_READ. -/
def execBar2Read (off : BitVec 28) (len : BitVec 13) (ups : List (Nat × Bool)) (s : State) : Host.Outcome State Fault Refusal :=
  done s (Block.arrive (.bar2Read off len ups))

/-- BAR2_WRITE. -/
def execBar2Write (off : BitVec 28) (bytes : List (Option Byte)) (ups : List (Nat × Bool)) (s : State) :
    Host.Outcome State Fault Refusal :=
  done s (Block.arrive (.bar2Write off bytes ups))

/-- DDATA_CAPTURE (R173): at a LOST bank a Completer Abort (R72), at one in retention it waits for the check. -/
def execDdataCapture (n : Fin 16) (data : Half) (s : State) : Host.Outcome State Fault Refusal :=
  done s (Block.arrive (.ddataCapture n data))

/-- DDATA_WRITE (R173), as DDATA_CAPTURE. -/
def execDdataWrite (n : Fin 16) (hi : Bool) (data : Half) (s : State) : Host.Outcome State Fault Refusal :=
  done s (Block.arrive (.ddataWrite n hi data))

/-! ### Stalls (R69, R440, Table 18-4) -/

/-- HOST_STALL keeps the longest stall, in ns. -/
def Block.stallEnds (b : Block) (x : Stall) : Block :=
  b.put HOST_STALL_MAX (max (b.get HOST_STALL_MAX) (sat (2 ^ 18 - 1) ((b.tm.phys - x.since) / nsUnit)))

/-- The register slot that a request addresses. -/
def cmdSlot : Instr → Nat
  | .registerWrite r => slotOf r.off.toNat
  | .bar2Read _ _ _ => 0x200000
  | .bar2Write _ _ _ => 0x200000
  | i => match ddataReq i with | some r => slotOf r.off.toNat | none => 0

/-- The longest stall of Table 18-4 for a request, in ns. -/
def Block.wakeBound (b : Block) (i : Instr) : Nat :=
  let a := cmdSlot i
  let bank := match i with | .registerWrite r => (b.bankOf r).isSome | j => (ddataReq j).isSome
  if !b.regOn a then 220000 else if b.relockStops a then 202000 else if bank then 4000 else 1000

/-- The lane quad of a request is powered by it (R532). -/
def Block.quadWake (b : Block) (a : Nat) : Block :=
  match quadOf a with
  | some q => (b.mapPw (fun p => { p with
      quadAcc := p.quadAcc ||| BitVec.ofNat 9 (2 ^ q), quadAt := vmod p.quadAt q (fun _ => b.tm.phys) })).quadShow q
  | none => b

/-- A stalled request completes once nothing holds it. -/
def Block.stallAnswer (x : Stall) (b : Block) : Block := (b.stallEnds x).answer x.cmd

/-- A stalled request still waits, a write also while the journal is full (R79); a Flowstone register in LINE-HOLD has its
clocks running for this access. -/
def Block.stillWaits (b : Block) (x : Stall) : Bool :=
  let a := cmdSlot x.cmd
  (b.mustWait x.cmd && !(b.pwrState == 2 && domainOf a == 8 && b.regOn a && !b.relockStops a)) ||
    (posted x.cmd && decide (256 ≤ b.journalWrites))

/-- The requests at the front of the queue that need wait no longer complete in order, each at an instant of its own (R67). -/
def Block.stallDrain : List Stall → Block → Block
  | [], b => { b with host := { b.host with stalls := [] } }
  | x :: r, b =>
    if b.stillWaits x then { b with host := { b.host with stalls := x :: r } }
    else Block.inTurn (Block.stallAnswer x) (Block.stallDrain r) b

/-- Requests that waited for credits arrive, in order, as far as there is room (R73). -/
def Block.creditDrain : List Instr → Block → Block
  | [], b => b
  | i :: r, b =>
    if posted i && b.queueFull then { b with host := { b.host with backlog := i :: r } }
    else Block.inTurn (Block.arrive i) (Block.creditDrain r) b

/-- Requests go on as far as they can: those that stall, then those that waited for credits. -/
def Block.hostGoesOn (b : Block) : Block :=
  let b1 := Block.stallDrain b.host.stalls b.fabTouch
  Block.creditDrain b1.host.backlog { b1 with host := { b1.host with backlog := [] } }

/-- DOMAIN_READY: domain `d` reports ready, at a time within the bound of Table 18-4, a free value (log entry 2). -/
def Block.domainReady (d : Nat) (b : Block) : Block :=
  match b.host.stalls.find? (fun x => x.dom == d) with
  | none => b
  | some x =>
    let b1 := (b.reachPhys (x.since + (1 + b.freeNext (b.wakeBound x.cmd - 1)) * nsUnit)).freeStep
    let b2 := (b1.host.stalls.filter (fun y => y.dom == d)).foldl (fun c y =>
      if c.regOn (cmdSlot y.cmd) then c else c.quadWake (cmdSlot y.cmd)) b1
    Block.hostGoesOn { b2 with host := { b2.host with waking := b2.host.waking &&& ~~~BitVec.ofNat 12 (2 ^ d) } }

/-- DOMAIN_READY. -/
def execDomainReady (d : Fin 12) (s : State) : Host.Outcome State Fault Refusal := donePower s (Block.domainReady d)

/-- A request that fails after a full relock has stalled it: a read of zeros, a write discarded (R440). -/
def Block.relockFails (b : Block) : Instr → Block
  | .registerWrite r => (b.zeroCompletion r).hostErr 10 r.off.toNat
  | .bar2Read off len _ => (b.emit (.readData off.toNat (List.replicate len.toNat 0) false)).hostErr 10 off.toNat
  | .bar2Write off _ _ => b.hostErr 10 off.toNat
  | i => b.hostErr 10 (cmdSlot i)

/-- ACCESS_STALL_TIMEOUT: the first request that a full relock stalls has waited 202 µs (R440). -/
def Block.stallTimeout (b : Block) : Block :=
  match b.host.stalls with
  | [] => b
  | x :: r =>
    if !b.relockStops (cmdSlot x.cmd) then b
    else
      let b1 := (b.reachPhys (x.since + 202000 * nsUnit)).fabTouch.stallEnds x
      let b2 := b1.relockFails x.cmd
      Block.hostGoesOn { b2 with host := { b2.host with stalls := r } }

/-- ACCESS_STALL_TIMEOUT. -/
def execAccessStallTimeout (s : State) : Host.Outcome State Fault Refusal := donePower s Block.stallTimeout

/-- BANK_CHECK: a bank is checked, and a request that waited for it goes on (R69, R540). -/
def execBankCheck (k : Fin 1538) (ok : Bool) (dt : Nat) (s : State) : Host.Outcome State Fault Refusal :=
  donePower s fun b => ((b.advanceNs dt).bankCheck k ok).hostGoesOn

/-- JOURNAL_APPLY: an own entry that has gone makes room for a write (R79). -/
def execJournalApply (s : State) : Host.Outcome State Fault Refusal := donePower s fun b => b.journalApply.hostGoesOn

end Sys2Proof.Machine
end

