-- ==== Sys2Proof/Machine/CfgAccess.lean ====
section
/-! DEFINITION. CFGR and CFGW (R163, R165, R552): a Gallery engine reads or writes a whole register. -/

namespace Sys2Proof.Machine

/-- The BAR0 offset of CFGR and CFGW. -/
def cfgAddr (b : Block) (e : Fin 16) (f : FormB) : Nat := (gaB b e f + sext44 f.imm).toNat

/-- The trap of CFGR and CFGW, 0 where there is none: PRIV in a user image, CFGADDR for an offset that is no multiple of
0x10 below 0x0100_0000. -/
def cfgTrap (b : Block) (e : Fin 16) (a : Nat) : Nat :=
  if !b.priv e then 2 else if a % 16 ≠ 0 || 2 ^ 24 ≤ a then 6 else 0

/-- The registers of the key store that CFGR and CFGW do not reach (R552). -/
def keyReg (a : Nat) : Bool :=
  (0x410050 ≤ a && a < 0x4100A0) || (0x410200 ≤ a && a < 0x410240) || a == SEC_CHCTL || a == SEC_RESP 0 || a == SEC_RESP 1

/-- The data-store bank behind a CFGW of GALn_DADDR or GALn_DDATA, not yet checked or LOST: never woken (R533). -/
def Block.cfgBank (b : Block) (a : Nat) (x : Word) : Bool :=
  let n := (a - 0x200000) / 0x10000
  let at_ := fun (k : Nat) => b.pw.lost.getLsbD k || b.pw.unchecked.getLsbD k || b.pw.sealed.getLsbD k
  if a < 0x200000 || 0x300000 ≤ a then false
  else if a = GAL_DADDR n then at_ (96 * n + 64 + fieldOf x 0 14 / 512)
  else if a = GAL_DDATA n then at_ (96 * n + 64 + b.get (GAL_DADDR_ADDR n) / 512)
  else false

/-- The register answers a CFGR or CFGW: mapped, outside the key store, in a domain that is on, and not in Flowstone while its
clocks are gated in LINE-HOLD (R533). -/
def Block.cfgReaches (b : Block) (a : Nat) : Bool :=
  (regAt a).isSome && !keyReg a && b.regOn a && !b.relockStops a && !(b.pwrState == 2 && domainOf a == 8)

/-- The value CFGR returns: no UTAG; EVT_SET reads as EVT_PEND. -/
def Block.cfgValue (b : Block) (a : Nat) : Word := if a = EVT_SET then b.reg EVT_PEND else b.reg a

/-- CFGR (0xF0). -/
def execCfgr (e : Fin 16) (f : FormB) (u : Upset) (s : State) : Host.Outcome State Fault Refusal :=
  runB .cfgr e f u (fun b =>
    let a := cfgAddr b e f
    let t := cfgTrap b e a
    let b0 := b.engEvent e 14 1
    if t ≠ 0 then .trap t
    else if b.cfgReaches a then
      let b1 := b0.freshen a
      putFlag e f.d (b1.cfgValue a) f.ofl false 30 (b1.afterRead a)
    else putFlag e f.d 0 f.ofl true 30 b0) s

/-- What CFGW does at its tick. -/
def cfgwAct (e : Fin 16) (f : FormB) (b : Block) : Act :=
  let a := cfgAddr b e f
  let t := cfgTrap b e a
  let b0 := b.engEvent e 14 1
  let x := gdB b e f
  if t ≠ 0 then .trap t
  else if b.cfgReaches a && !b.cfgBank a x then
    .go ((b0.regWrite a (wholeW x)).mapE e (fun y => y.wf f.ofl false)) 30 0 false
  else .go (b0.mapE e (fun y => y.wf f.ofl true)) 30 0 false

/-- CFGW (0xF1): all 72 bits, never journaled (R80). It may write SYS_RST or PWR_CTL, so domains may lose power. -/
def execCfgw (e : Fin 16) (f : FormB) (u : Upset) (s : State) : Host.Outcome State Fault Refusal :=
  donePower s fun b => b.runIf e (encodeB Op.cfgw.code f) (checkB .cfgw f) f.psel u (cfgwAct e f)

end Sys2Proof.Machine
end

