-- ==== Sys2Proof/Machine/Dispatch.lean ====
section
/-! DEFINITION. The dispatch: one arm per command of the table, each a direct call of its meaning. -/

namespace Sys2Proof.Machine

/-- The effect of a command on everything but the queue of waiting commands. -/
def exec (i : Instr) (s : State) : Host.Outcome State Fault Refusal :=
  match i with
  | .registerWrite r => Sys2Proof.Machine.execRegisterWrite r s
  | .counterAck a => Sys2Proof.Machine.execCounterAck a s
  | .cycleBoundary => Sys2Proof.Machine.execCycleBoundary s
  | .cycleArm data => Sys2Proof.Machine.execCycleArm data s
  | .cycleRunWrite data => Sys2Proof.Machine.execCycleRunWrite data s
  | .cycleTrigger => Sys2Proof.Machine.execCycleTrigger s
  | .lwmClr => Sys2Proof.Machine.execLwmClr s
  | .mslotWrite data => Sys2Proof.Machine.execMslotWrite data s
  | .slotOpenLatest scrub => Sys2Proof.Machine.execSlotOpenLatest scrub s
  | .idleSlotOpen scrub => Sys2Proof.Machine.execIdleSlotOpen scrub s
  | .maintSlotClose => Sys2Proof.Machine.execMaintSlotClose s
  | .profileGo data => Sys2Proof.Machine.execProfileGo data s
  | .profileSample => Sys2Proof.Machine.execProfileSample s
  | .profileSampleIdle => Sys2Proof.Machine.execProfileSampleIdle s
  | .leanDrainDone => Sys2Proof.Machine.execLeanDrainDone s
  | .refusedDrain => Sys2Proof.Machine.execRefusedDrain s
  | .leanExitReady => Sys2Proof.Machine.execLeanExitReady s
  | .hostReset => Sys2Proof.Machine.execHostReset s
  | .perstRelease => Sys2Proof.Machine.execPerstRelease s
  | .configReady => Sys2Proof.Machine.execConfigReady s
  | .unsupportedSize off => Sys2Proof.Machine.execUnsupportedSize off s
  | .unmappedAccess r => Sys2Proof.Machine.execUnmappedAccess r s
  | .poisonedRequest addr => Sys2Proof.Machine.execPoisonedRequest addr s
  | .domainWakeAccess r => Sys2Proof.Machine.execDomainWakeAccess r s
  | .domainReady d => Sys2Proof.Machine.execDomainReady d s
  | .profileOffAccess r => Sys2Proof.Machine.execProfileOffAccess r s
  | .lostBankAccess r => Sys2Proof.Machine.execLostBankAccess r s
  | .accessStallTimeout => Sys2Proof.Machine.execAccessStallTimeout s
  | .journalApply => Sys2Proof.Machine.execJournalApply s
  | .bar2Read off len ups => Sys2Proof.Machine.execBar2Read off len ups s
  | .bar2Write off bytes ups => Sys2Proof.Machine.execBar2Write off bytes ups s
  | .dmaDescriptor n d data ups => Sys2Proof.Machine.execDmaDescriptor n d data ups s
  | .dma3FrameDeliver d ups => Sys2Proof.Machine.execDma3FrameDeliver d ups s
  | .dmaCplTimeout n addr => Sys2Proof.Machine.execDmaCplTimeout n addr s
  | .dmaCplError n err addr => Sys2Proof.Machine.execDmaCplError n err addr s
  | .dmaDisable n prog moved => Sys2Proof.Machine.execDmaDisable n prog moved s
  | .dmaResume n data => Sys2Proof.Machine.execDmaResume n data s
  | .hostErrClr => Sys2Proof.Machine.execHostErrClr s
  | .hostStallClr => Sys2Proof.Machine.execHostStallClr s
  | .eventOccurrence n => Sys2Proof.Machine.execEventOccurrence n s
  | .evtPendClear mask => Sys2Proof.Machine.execEvtPendClear mask s
  | .evtEnWrite data => Sys2Proof.Machine.execEvtEnWrite data s
  | .evtSet mask => Sys2Proof.Machine.execEvtSet mask s
  | .msixUnmask v => Sys2Proof.Machine.execMsixUnmask v s
  | .ltCapture => Sys2Proof.Machine.execLtCapture s
  | .timeStep => Sys2Proof.Machine.execTimeStep s
  | .timeSlew => Sys2Proof.Machine.execTimeSlew s
  | .timeSet => Sys2Proof.Machine.execTimeSet s
  | .slewEnd => Sys2Proof.Machine.execSlewEnd s
  | .axisSrcWrite n data => Sys2Proof.Machine.execAxisSrcWrite n data s
  | .axisRestart n data => Sys2Proof.Machine.execAxisRestart n data s
  | .axisSample n => Sys2Proof.Machine.execAxisSample n s
  | .encoderEdge e a b dt => Sys2Proof.Machine.execEncoderEdge e a b dt s
  | .indexPulse e dt => Sys2Proof.Machine.execIndexPulse e dt s
  | .ssiFrameDone n bits par err high => Sys2Proof.Machine.execSsiFrameDone n bits par err high s
  | .mainsZeroCrossing dt => Sys2Proof.Machine.execMainsZeroCrossing dt s
  | .encStatClr e => Sys2Proof.Machine.execEncStatClr e s
  | .axisFaultsClr n => Sys2Proof.Machine.execAxisFaultsClr n s
  | .knotArm n => Sys2Proof.Machine.execKnotArm n s
  | .knotEffect n => Sys2Proof.Machine.execKnotEffect n s
  | .axisCapture n => Sys2Proof.Machine.execAxisCapture n s
  | .hostP2tGo n data => Sys2Proof.Machine.execHostP2tGo n data s
  | .hostP2tDone n => Sys2Proof.Machine.execHostP2tDone n s
  | .waitRecompute => Sys2Proof.Machine.execWaitRecompute s
  | .aontrimWindow ticks => Sys2Proof.Machine.execAontrimWindow ticks s
  | .nop e f u => Sys2Proof.Machine.execNop e f u s
  | .halt e f u => Sys2Proof.Machine.execHalt e f u s
  | .calslot e f u scrub => Sys2Proof.Machine.execCalslot e f u scrub s
  | .raise e f u => Sys2Proof.Machine.execRaise e f u s
  | .sig e f u => Sys2Proof.Machine.execSig e f u s
  | .rdprf e f u => Sys2Proof.Machine.execRdprf e f u s
  | .addG e f u => Sys2Proof.Machine.execAddG e f u s
  | .subG e f u => Sys2Proof.Machine.execSubG e f u s
  | .adds e f u => Sys2Proof.Machine.execAdds e f u s
  | .subs e f u => Sys2Proof.Machine.execSubs e f u s
  | .mulG e f u => Sys2Proof.Machine.execMulG e f u s
  | .muls e f u => Sys2Proof.Machine.execMuls e f u s
  | .mulu e f u => Sys2Proof.Machine.execMulu e f u s
  | .absG e f u => Sys2Proof.Machine.execAbsG e f u s
  | .minG e f u => Sys2Proof.Machine.execMinG e f u s
  | .maxG e f u => Sys2Proof.Machine.execMaxG e f u s
  | .minu e f u => Sys2Proof.Machine.execMinu e f u s
  | .maxu e f u => Sys2Proof.Machine.execMaxu e f u s
  | .sat e f u => Sys2Proof.Machine.execSat e f u s
  | .shl e f u => Sys2Proof.Machine.execShl e f u s
  | .shr e f u => Sys2Proof.Machine.execShr e f u s
  | .sar e f u => Sys2Proof.Machine.execSar e f u s
  | .addi e f u => Sys2Proof.Machine.execAddi e f u s
  | .movi e f u => Sys2Proof.Machine.execMovi e f u s
  | .ldih e f u => Sys2Proof.Machine.execLdih e f u s
  | .shli e f u => Sys2Proof.Machine.execShli e f u s
  | .shri e f u => Sys2Proof.Machine.execShri e f u s
  | .sari e f u => Sys2Proof.Machine.execSari e f u s
  | .ext e f u => Sys2Proof.Machine.execExt e f u s
  | .ins e f u => Sys2Proof.Machine.execIns e f u s
  | .andG e f u => Sys2Proof.Machine.execAndG e f u s
  | .orG e f u => Sys2Proof.Machine.execOrG e f u s
  | .xorG e f u => Sys2Proof.Machine.execXorG e f u s
  | .andn e f u => Sys2Proof.Machine.execAndn e f u s
  | .cmp e f u => Sys2Proof.Machine.execCmp e f u s
  | .fop e f u => Sys2Proof.Machine.execFop e f u s
  | .andi e f u => Sys2Proof.Machine.execAndi e f u s
  | .ori e f u => Sys2Proof.Machine.execOri e f u s
  | .xori e f u => Sys2Proof.Machine.execXori e f u s
  | .cmpi e f u => Sys2Proof.Machine.execCmpi e f u s
  | .ld e f u => Sys2Proof.Machine.execLd e f u s
  | .st e f u => Sys2Proof.Machine.execSt e f u s
  | .br e f u => Sys2Proof.Machine.execBr e f u s
  | .callG e f u => Sys2Proof.Machine.execCallG e f u s
  | .ret e f u => Sys2Proof.Machine.execRet e f u s
  | .loopG e f u => Sys2Proof.Machine.execLoopG e f u s
  | .rdlt e f u => Sys2Proof.Machine.execRdlt e f u s
  | .rdpos e f u => Sys2Proof.Machine.execRdpos e f u s
  | .p2t e f u => Sys2Proof.Machine.execP2t e f u s
  | .waitt e f u => Sys2Proof.Machine.execWaitt e f u s
  | .waittRelease e => Sys2Proof.Machine.execWaittRelease e s
  | .waitl e f u => Sys2Proof.Machine.execWaitl e f u s
  | .waitlRelease e => Sys2Proof.Machine.execWaitlRelease e s
  | .camq e f u => Sys2Proof.Machine.execCamq e f u s
  | .camw e f u => Sys2Proof.Machine.execCamw e f u s
  | .camwRelease e => Sys2Proof.Machine.execCamwRelease e s
  | .waits e f u => Sys2Proof.Machine.execWaits e f u s
  | .waitsRelease e => Sys2Proof.Machine.execWaitsRelease e s
  | .bar e f u => Sys2Proof.Machine.execBar e f u s
  | .barRelease e => Sys2Proof.Machine.execBarRelease e s
  | .waitTimeout e => Sys2Proof.Machine.execWaitTimeout e s
  | .emit e f u => Sys2Proof.Machine.execEmit e f u s
  | .patch e f u => Sys2Proof.Machine.execPatch e f u s
  | .gate e f u => Sys2Proof.Machine.execGate e f u s
  | .snap e f u => Sys2Proof.Machine.execSnap e f u s
  | .cfgr e f u => Sys2Proof.Machine.execCfgr e f u s
  | .cfgw e f u => Sys2Proof.Machine.execCfgw e f u s
  | .emissionPathMove e => Sys2Proof.Machine.execEmissionPathMove e s
  | .engineLoad n en => Sys2Proof.Machine.execEngineLoad n en s
  | .loadComplete n ups dt => Sys2Proof.Machine.execLoadComplete n ups dt s
  | .engineStart n en => Sys2Proof.Machine.execEngineStart n en s
  | .engineStartEffect n => Sys2Proof.Machine.execEngineStartEffect n s
  | .engineDisable n => Sys2Proof.Machine.execEngineDisable n s
  | .spareDesignate en => Sys2Proof.Machine.execSpareDesignate en s
  | .engineRetireClear n => Sys2Proof.Machine.execEngineRetireClear n s
  | .ddataCapture n data => Sys2Proof.Machine.execDdataCapture n data s
  | .ddataWrite n hi data => Sys2Proof.Machine.execDdataWrite n hi data s
  | .galHdiscClr n => Sys2Proof.Machine.execGalHdiscClr n s
  | .galRcodeClr n => Sys2Proof.Machine.execGalRcodeClr n s
  | .galSlackClr n => Sys2Proof.Machine.execGalSlackClr n s
  | .batchDispatch chk ups => Sys2Proof.Machine.execBatchDispatch chk ups s
  | .segmentFetchDone ups => Sys2Proof.Machine.execSegmentFetchDone ups s
  | .batchComplete => Sys2Proof.Machine.execBatchComplete s
  | .seekDone ups => Sys2Proof.Machine.execSeekDone ups s
  | .flowstoneDisable => Sys2Proof.Machine.execFlowstoneDisable s
  | .switchGo data => Sys2Proof.Machine.execSwitchGo data s
  | .recordWrite win reg hi data => Sys2Proof.Machine.execRecordWrite win reg hi data s
  | .cellRetireClear mask => Sys2Proof.Machine.execCellRetireClear mask s
  | .ringFrameSend n ups => Sys2Proof.Machine.execRingFrameSend n ups s
  | .ringFrameReturn n peer f dt => Sys2Proof.Machine.execRingFrameReturn n peer f dt s
  | .mailboxUp n peer bytes dt => Sys2Proof.Machine.execMailboxUp n peer bytes dt s
  | .mailboxDownSend n ups => Sys2Proof.Machine.execMailboxDownSend n ups s
  | .mailboxEcho n peer bytes dt => Sys2Proof.Machine.execMailboxEcho n peer bytes dt s
  | .eptSwap => Sys2Proof.Machine.execEptSwap s
  | .eptCopyDone => Sys2Proof.Machine.execEptCopyDone s
  | .eptWrite data => Sys2Proof.Machine.execEptWrite data s
  | .eptRead data => Sys2Proof.Machine.execEptRead data s
  | .ringScan n data => Sys2Proof.Machine.execRingScan n data s
  | .scanFrame n ret => Sys2Proof.Machine.execScanFrame n ret s
  | .scanComplete n => Sys2Proof.Machine.execScanComplete n s
  | .scanTimeout n => Sys2Proof.Machine.execScanTimeout n s
  | .ringDisable n data => Sys2Proof.Machine.execRingDisable n data s
  | .ringStopDone n => Sys2Proof.Machine.execRingStopDone n s
  | .keepaliveFrame n => Sys2Proof.Machine.execKeepaliveFrame n s
  | .wakePattern p dt => Sys2Proof.Machine.execWakePattern p dt s
  | .nodeRetireClear n j mask => Sys2Proof.Machine.execNodeRetireClear n j mask s
  | .wdogWrite n data => Sys2Proof.Machine.execWdogWrite n data s
  | .frameIngress unwritable late => Sys2Proof.Machine.execFrameIngress unwritable late s
  | .frameTransmit p ups => Sys2Proof.Machine.execFrameTransmit p ups s
  | .heldCopyEnqueue => Sys2Proof.Machine.execHeldCopyEnqueue s
  | .mcHoldExpire => Sys2Proof.Machine.execMcHoldExpire s
  | .reseqTimeout p c => Sys2Proof.Machine.execReseqTimeout p c s
  | .portDisable p => Sys2Proof.Machine.execPortDisable p s
  | .fdbAge => Sys2Proof.Machine.execFdbAge s
  | .fdbWrite => Sys2Proof.Machine.execFdbWrite s
  | .fdbDelete => Sys2Proof.Machine.execFdbDelete s
  | .fdbLookup => Sys2Proof.Machine.execFdbLookup s
  | .vlanWrite => Sys2Proof.Machine.execVlanWrite s
  | .vlanRead => Sys2Proof.Machine.execVlanRead s
  | .streamWrite => Sys2Proof.Machine.execStreamWrite s
  | .streamRead => Sys2Proof.Machine.execStreamRead s
  | .sliceReturn mask => Sys2Proof.Machine.execSliceReturn mask s
  | .spareRowClear mask => Sys2Proof.Machine.execSpareRowClear mask s
  | .rxFrame n f dt => Sys2Proof.Machine.execRxFrame n f dt s
  | .pauseReceived n quanta dt => Sys2Proof.Machine.execPauseReceived n quanta dt s
  | .pfcReceived n en times dt => Sys2Proof.Machine.execPfcReceived n en times dt s
  | .pauseExpire n => Sys2Proof.Machine.execPauseExpire n s
  | .pauseRenew n => Sys2Proof.Machine.execPauseRenew n s
  | .linkUp n dt => Sys2Proof.Machine.execLinkUp n dt s
  | .linkDown n why dt => Sys2Proof.Machine.execLinkDown n why dt s
  | .macEnable n => Sys2Proof.Machine.execMacEnable n s
  | .macDisable n receiving => Sys2Proof.Machine.execMacDisable n receiving s
  | .tsPop n => Sys2Proof.Machine.execTsPop n s
  | .signalDetect l dt => Sys2Proof.Machine.execSignalDetect l dt s
  | .trainDone l foms dt => Sys2Proof.Machine.execTrainDone l foms dt s
  | .lockDone l dt => Sys2Proof.Machine.execLockDone l dt s
  | .deskewDone l skews dt => Sys2Proof.Machine.execDeskewDone l skews dt s
  | .capxDone l m dt => Sys2Proof.Machine.execCapxDone l m dt s
  | .stageTimeout l => Sys2Proof.Machine.execStageTimeout l s
  | .laneLockLoss l errs dt => Sys2Proof.Machine.execLaneLockLoss l errs dt s
  | .lossOfSignal l dt => Sys2Proof.Machine.execLossOfSignal l dt s
  | .retrain l => Sys2Proof.Machine.execRetrain l s
  | .adaptMeasure l below at_ above => Sys2Proof.Machine.execAdaptMeasure l below at_ above s
  | .capMessageRx l m dt => Sys2Proof.Machine.execCapMessageRx l m dt s
  | .laneRetireClear l => Sys2Proof.Machine.execLaneRetireClear l s
  | .laneTestGo l data => Sys2Proof.Machine.execLaneTestGo l data s
  | .laneTestDone l h v errs dt => Sys2Proof.Machine.execLaneTestDone l h v errs dt s
  | .sscWrite data => Sys2Proof.Machine.execSscWrite data s
  | .ptpMessageRx => Sys2Proof.Machine.execPtpMessageRx s
  | .syncSend n d => Sys2Proof.Machine.execSyncSend n d s
  | .delayReqSend d k => Sys2Proof.Machine.execDelayReqSend d k s
  | .pdelayReqSend n => Sys2Proof.Machine.execPdelayReqSend n s
  | .masterTimeout d k => Sys2Proof.Machine.execMasterTimeout d k s
  | .masterSelect d data => Sys2Proof.Machine.execMasterSelect d data s
  | .servoEnable d data => Sys2Proof.Machine.execServoEnable d data s
  | .domainSwitchWrite data => Sys2Proof.Machine.execDomainSwitchWrite data s
  | .steeringSwitchEnd => Sys2Proof.Machine.execSteeringSwitchEnd s
  | .loopbackGo n data => Sys2Proof.Machine.execLoopbackGo n data s
  | .loopbackDone n mean rms lost dt => Sys2Proof.Machine.execLoopbackDone n mean rms lost dt s
  | .freqUpdate pps => Sys2Proof.Machine.execFreqUpdate pps s
  | .comparisonEdge k stamp phase dt => Sys2Proof.Machine.execComparisonEdge k stamp phase dt s
  | .inputAbsence k dt => Sys2Proof.Machine.execInputAbsence k dt s
  | .inputReturn k stamp phase dt => Sys2Proof.Machine.execInputReturn k stamp phase dt s
  | .dropoutExpire k => Sys2Proof.Machine.execDropoutExpire k s
  | .inputQualify k => Sys2Proof.Machine.execInputQualify k s
  | .inputEnable k data => Sys2Proof.Machine.execInputEnable k data s
  | .inputRetireClear k => Sys2Proof.Machine.execInputRetireClear k s
  | .selectionEval => Sys2Proof.Machine.execSelectionEval s
  | .switchCommit => Sys2Proof.Machine.execSwitchCommit s
  | .acquireTimeout => Sys2Proof.Machine.execAcquireTimeout s
  | .stageAdvance => Sys2Proof.Machine.execStageAdvance s
  | .holdoverTimeout => Sys2Proof.Machine.execHoldoverTimeout s
  | .frtrimUpdate => Sys2Proof.Machine.execFrtrimUpdate s
  | .outputEnable j data => Sys2Proof.Machine.execOutputEnable j data s
  | .alignAnchor src dt => Sys2Proof.Machine.execAlignAnchor src dt s
  | .alignLoss j => Sys2Proof.Machine.execAlignLoss j s
  | .outputStep j data => Sys2Proof.Machine.execOutputStep j data s
  | .outputDropClr j => Sys2Proof.Machine.execOutputDropClr j s
  | .bandSelect p temp dt => Sys2Proof.Machine.execBandSelect p temp dt s
  | .nobandRetry p => Sys2Proof.Machine.execNobandRetry p s
  | .pllLockAchieved p dt => Sys2Proof.Machine.execPllLockAchieved p dt s
  | .pllLockTimeout p => Sys2Proof.Machine.execPllLockTimeout p s
  | .alignRelease p trim dt => Sys2Proof.Machine.execAlignRelease p trim dt s
  | .pllRefloss p dt => Sys2Proof.Machine.execPllRefloss p dt s
  | .pllUnlock p dt => Sys2Proof.Machine.execPllUnlock p dt s
  | .pllRelock => Sys2Proof.Machine.execPllRelock s
  | .fullRelock => Sys2Proof.Machine.execFullRelock s
  | .holdRecover p gathered dt => Sys2Proof.Machine.execHoldRecover p gathered dt s
  | .pllSlewEnd => Sys2Proof.Machine.execPllSlewEnd s
  | .clockMonitor bad => Sys2Proof.Machine.execClockMonitor bad s
  | .clkOutenWrite data => Sys2Proof.Machine.execClkOutenWrite data s
  | .ticArm data => Sys2Proof.Machine.execTicArm data s
  | .ticStartEdge src fall n c dt => Sys2Proof.Machine.execTicStartEdge src fall n c dt s
  | .ticStopEdge src fall n c dt => Sys2Proof.Machine.execTicStopEdge src fall n c dt s
  | .ticTimeout => Sys2Proof.Machine.execTicTimeout s
  | .ticDisable => Sys2Proof.Machine.execTicDisable s
  | .ticPop => Sys2Proof.Machine.execTicPop s
  | .ticStatClr => Sys2Proof.Machine.execTicStatClr s
  | .ocxoWarmChange warm dt => Sys2Proof.Machine.execOcxoWarmChange warm dt s
  | .calRequest data => Sys2Proof.Machine.execCalRequest data s
  | .calJobEnd r dt => Sys2Proof.Machine.execCalJobEnd r dt s
  | .calAuto => Sys2Proof.Machine.execCalAuto s
  | .calDisable => Sys2Proof.Machine.execCalDisable s
  | .sliceTestTimeout => Sys2Proof.Machine.execSliceTestTimeout s
  | .bistGo => Sys2Proof.Machine.execBistGo s
  | .bistDone areas chans dt => Sys2Proof.Machine.execBistDone areas chans dt s
  | .snapArm => Sys2Proof.Machine.execSnapArm s
  | .snapNow => Sys2Proof.Machine.execSnapNow s
  | .snapCancel => Sys2Proof.Machine.execSnapCancel s
  | .snapStrobe => Sys2Proof.Machine.execSnapStrobe s
  | .snapTransferDone => Sys2Proof.Machine.execSnapTransferDone s
  | .traceClr data => Sys2Proof.Machine.execTraceClr data s
  | .traceLoad data => Sys2Proof.Machine.execTraceLoad data s
  | .perfCounterRead a => Sys2Proof.Machine.execPerfCounterRead a s
  | .pairEnable data => Sys2Proof.Machine.execPairEnable data s
  | .ropeLinkUp c dt => Sys2Proof.Machine.execRopeLinkUp c dt s
  | .ropeBlockRx m dt => Sys2Proof.Machine.execRopeBlockRx m dt s
  | .idleBlockSend => Sys2Proof.Machine.execIdleBlockSend s
  | .digestClose => Sys2Proof.Machine.execDigestClose s
  | .partnerSilence => Sys2Proof.Machine.execPartnerSilence s
  | .ropeLoss dt => Sys2Proof.Machine.execRopeLoss dt s
  | .aliveSilenceSolo => Sys2Proof.Machine.execAliveSilenceSolo s
  | .supervisorFence silent dt => Sys2Proof.Machine.execSupervisorFence silent dt s
  | .pairSolo => Sys2Proof.Machine.execPairSolo s
  | .pairResync => Sys2Proof.Machine.execPairResync s
  | .autoResync => Sys2Proof.Machine.execAutoResync s
  | .pairWithdraw => Sys2Proof.Machine.execPairWithdraw s
  | .pairHandover => Sys2Proof.Machine.execPairHandover s
  | .pairGenrst => Sys2Proof.Machine.execPairGenrst s
  | .revertRequest => Sys2Proof.Machine.execRevertRequest s
  | .bulkPassDone dt => Sys2Proof.Machine.execBulkPassDone dt s
  | .quietTest => Sys2Proof.Machine.execQuietTest s
  | .resyncTimeout => Sys2Proof.Machine.execResyncTimeout s
  | .reqRun data => Sys2Proof.Machine.execReqRun data s
  | .reqDoze data => Sys2Proof.Machine.execReqDoze data s
  | .reqLineHold data => Sys2Proof.Machine.execReqLineHold data s
  | .reqStandby data => Sys2Proof.Machine.execReqStandby data s
  | .reqMaint data => Sys2Proof.Machine.execReqMaint data s
  | .bankCheck k ok dt => Sys2Proof.Machine.execBankCheck k ok dt s
  | .wake ws dt => Sys2Proof.Machine.execWake ws dt s
  | .quadIdleOff q => Sys2Proof.Machine.execQuadIdleOff q s
  | .pwrFail dt => Sys2Proof.Machine.execPwrFail dt s
  | .mainsRecover dt => Sys2Proof.Machine.execMainsRecover dt s
  | .shed => Sys2Proof.Machine.execShed s
  | .cellSwitchover dt => Sys2Proof.Machine.execCellSwitchover dt s
  | .therm die base dt => Sys2Proof.Machine.execTherm die base dt s
  | .retnClr => Sys2Proof.Machine.execRetnClr s
  | .keyWrite => Sys2Proof.Machine.execKeyWrite s
  | .keyClear => Sys2Proof.Machine.execKeyClear s
  | .challengeGo data => Sys2Proof.Machine.execChallengeGo data s
  | .mirrorRebuild dt => Sys2Proof.Machine.execMirrorRebuild dt s
  | .tamper level dt => Sys2Proof.Machine.execTamper level dt s
  | .secUnlock => Sys2Proof.Machine.execSecUnlock s
  | .softErase => Sys2Proof.Machine.execSoftErase s
  | .brownout dt => Sys2Proof.Machine.execBrownout dt s
  | .logClr => Sys2Proof.Machine.execLogClr s
  | .fuseProg data => Sys2Proof.Machine.execFuseProg data s
  | .fuseRevoke data => Sys2Proof.Machine.execFuseRevoke data s
  | .fuseDone dt => Sys2Proof.Machine.execFuseDone dt s
  | .smbusRead dev off len => Sys2Proof.Machine.execSmbusRead dev off len s
  | .moduleInsert q cls dt => Sys2Proof.Machine.execModuleInsert q cls dt s
  | .moduleRemove q dt => Sys2Proof.Machine.execModuleRemove q dt s
  | .cageOvercurrent q dt => Sys2Proof.Machine.execCageOvercurrent q dt s
  | .cageOcClear mask => Sys2Proof.Machine.execCageOcClear mask s
  | .encSupplyRetry short => Sys2Proof.Machine.execEncSupplyRetry short s
  | .cellMeasure mv => Sys2Proof.Machine.execCellMeasure mv s
  | .thermalShutdown die base dt => Sys2Proof.Machine.execThermalShutdown die base dt s
  | .thermalRestart die base dfl fac refclk dt => Sys2Proof.Machine.execThermalRestart die base dfl fac refclk dt s
  | .mainsOn dfl fac sealed refclk dt => Sys2Proof.Machine.execMainsOn dfl fac sealed refclk dt s
  | .lineReset data => Sys2Proof.Machine.execLineReset data s
  | .moduleReset data => Sys2Proof.Machine.execModuleReset data s
  | .resetDone dfl fac refclk dt => Sys2Proof.Machine.execResetDone dfl fac refclk dt s
  | .bootUpdate data => Sys2Proof.Machine.execBootUpdate data s
  | .bootUpdateDone dt => Sys2Proof.Machine.execBootUpdateDone dt s
  | .holdoverPredictionUpdate => Sys2Proof.Machine.execHoldoverPredictionUpdate s
  | .pllTuneRail p tune dt => Sys2Proof.Machine.execPllTuneRail p tune dt s
  | .pulseOutputEdge j => Sys2Proof.Machine.execPulseOutputEdge j s

end Sys2Proof.Machine
end

