-- ==== Sys2Proof/Machine/Idle.lean ====
section
/-! DEFINITION. What happens while no command waits: one tick of the LANT clock passes (log entry 5). -/

namespace Sys2Proof.Machine

/-- One tick of the LANT clock, 2 ns (R8): the clocks move on and pulse outputs reach their edges. -/
def idleTick (s : State) : Host.Outcome State Fault Refusal :=
  done s fun b => (b.advanceNs 2).outSettles

end Sys2Proof.Machine
end

