-- ==== Sys2Proof/Safety.lean ====
section
/-! DEFINITION. What a safe run is: the sparse tables of the state keep their canonical form; and how
statements say what a command leaves alone. -/

namespace Sys2Proof.Machine

/-- Cavern is in canonical form: keys rising, no listed byte zero. -/
def State.cavernWf (s : State) : Prop := Memory.wf s.blk.cav.mem = true

/-- The update tags are in canonical form (R61: a register that never changed has tag 0). -/
def State.tagsWf (s : State) : Prop := swf (fun _ => (0 : BitVec 8)) s.blk.utags = true

/-! ### Frames -/

/-- The parts of the block beside its registers and their update tags. -/
inductive Part
  | tm | cyc | host | cav | axes | encs | mainsLast | mainsGap | eng | trc | snap | flw | sw | macs | lanes | rings | ptp | sec | cps | outs | clk | tic | cal | pair | pw | strikes | retired | retRec | free | out
  deriving DecidableEq, Repr

/-- Two fields share no bit. -/
def apart (f g : Field) : Prop := f.addr ≠ g.addr ∨ f.lo + f.w ≤ g.lo ∨ g.lo + g.w ≤ f.lo

/-- Every register field that shares no bit with a listed field keeps its value, and so does every register
that no listed field lies in. -/
def Block.keeps (l : List Field) (b b' : Block) : Prop :=
  (∀ g : Field, (∀ f ∈ l, apart f g) → b'.get g = b.get g) ∧ (∀ a : Nat, (∀ f ∈ l, a ≠ f.addr) → b'.reg a = b.reg a)

/-- Every part of the block that is not listed is as it was. -/
def Block.only (l : List Part) (b b' : Block) : Prop :=
  (.tm ∉ l → b'.tm = b.tm) ∧
  (.cyc ∉ l → b'.cyc = b.cyc) ∧
  (.host ∉ l → b'.host = b.host) ∧
  (.cav ∉ l → b'.cav = b.cav) ∧
  (.axes ∉ l → b'.axes = b.axes) ∧
  (.encs ∉ l → b'.encs = b.encs) ∧
  (.mainsLast ∉ l → b'.mainsLast = b.mainsLast) ∧
  (.mainsGap ∉ l → b'.mainsGap = b.mainsGap) ∧
  (.eng ∉ l → b'.eng = b.eng) ∧
  (.trc ∉ l → b'.trc = b.trc) ∧
  (.snap ∉ l → b'.snap = b.snap) ∧
  (.flw ∉ l → b'.flw = b.flw) ∧
  (.sw ∉ l → b'.sw = b.sw) ∧
  (.macs ∉ l → b'.macs = b.macs) ∧
  (.lanes ∉ l → b'.lanes = b.lanes) ∧
  (.rings ∉ l → b'.rings = b.rings) ∧
  (.ptp ∉ l → b'.ptp = b.ptp) ∧
  (.sec ∉ l → b'.sec = b.sec) ∧
  (.cps ∉ l → b'.cps = b.cps) ∧
  (.outs ∉ l → b'.outs = b.outs) ∧
  (.clk ∉ l → b'.clk = b.clk) ∧
  (.tic ∉ l → b'.tic = b.tic) ∧
  (.cal ∉ l → b'.cal = b.cal) ∧
  (.pair ∉ l → b'.pair = b.pair) ∧
  (.pw ∉ l → b'.pw = b.pw) ∧
  (.strikes ∉ l → b'.strikes = b.strikes) ∧
  (.retired ∉ l → b'.retired = b.retired) ∧
  (.retRec ∉ l → b'.retRec = b.retRec) ∧
  (.free ∉ l → b'.free = b.free) ∧
  (.out ∉ l → b'.out = b.out)

/-- A command went from `s` to `t` and changed nothing but the register fields and the parts listed (and the
update tags, R61). The queue is as it was. -/
def Frame (fs : List Field) (ps : List Part) (s t : State) : Prop :=
  s.blk.keeps fs t.blk ∧ s.blk.only ps t.blk ∧ t.pending = s.pending

/-- The same with the registers that may change given by their BAR0 offsets. -/
def FrameOn (touch : Nat → Bool) (ps : List Part) (s t : State) : Prop :=
  (∀ a, touch a = false → t.blk.reg a = s.blk.reg a) ∧ s.blk.only ps t.blk ∧ t.pending = s.pending

/-- The registers from one BAR0 offset up to another. -/
def within (lo hi a : Nat) : Bool := decide (lo ≤ a) && decide (a < hi)

/-! ### How statements speak of engines -/

/-- Engine `e` is RUNNING and in no wait, stands at the word `insn`, which passes the checks of R137 (`chk` is 0), and the
predicate holds (R138). PC 32,767 is left out where the next instruction is at PC + 1 (R148). -/
def Block.stands (b : Block) (e : Fin 16) (insn : Word) (chk : Nat) (psel : BitVec 4) : Prop :=
  b.ready e = true ∧ b.eng[e].word b.eng[e].pc = insn ∧ chk = 0 ∧ b.eng[e].pred psel = true ∧ b.eng[e].pc < 32767

/-- The instant at which the instruction of engine `e` begins: the tick after its last one (R135). -/
def Block.firstTick (b : Block) (e : Fin 16) : Nat := b.eng[e].readyAt

/-- What every instruction may touch beside its engine: the performance counters, the trace and the event registers. -/
def galTouch (a : Nat) : Bool := within 0x3C0000 0x400000 a || a == EVT_PEND || a == EVT_OVR

/-- A frame of a command that the performance counters see (R485): their registers, the event registers and the trace state
may change beside the fields and parts listed. -/
def FrameF (fs : List Field) (ps : List Part) (s t : State) : Prop :=
  (∀ g : Field, galTouch g.addr = false → (∀ f ∈ fs, apart f g) → t.blk.get g = s.blk.get g) ∧
  (∀ a : Nat, galTouch a = false → (∀ f ∈ fs, a ≠ f.addr) → t.blk.reg a = s.blk.reg a) ∧
  s.blk.only ([.trc, .host, .out] ++ ps) t.blk ∧ t.pending = s.pending

/-- Engine `e` executed: its registers, flags, stores and buffers are `f` of what they were, its next instruction is at
`pc`, `cost` ticks after the first, and no other engine changed. Further registers and parts are given. -/
def Executed (e : Fin 16) (f : Engine → Engine) (cost pc : Nat) (regs : Nat → Bool) (ps : List Part) (s t : State) : Prop :=
  (∃ r : Option TraceRec, t.blk.eng[e] =
    { f s.blk.eng[e] with pc := pc, readyAt := s.blk.firstTick e + cost * tick, use := (s.blk.eng[e]).use + cost,
                          overrun := false, lastRec := r, seen := 0, seenWait := 0 }) ∧
  (∀ m : Fin 16, m ≠ e → t.blk.eng[m] = s.blk.eng[m]) ∧
  FrameOn (fun a => galTouch a || regs a) ([.eng, .tm, .trc, .host, .out] ++ ps) s t

/-- An instruction that changes its engine alone and goes on to PC + 1. -/
def Computes (e : Fin 16) (f : Engine → Engine) (cost : Nat) (s t : State) : Prop :=
  Executed e f cost ((s.blk.eng[e]).pc + 1) (fun _ => false) [] s t

/-- The block at the first tick of the instruction of engine `e`. -/
def Block.atFirst (b : Block) (e : Fin 16) : Block := b.clockAt (b.firstTick e)

/-- The GAL registers of engine `e`. -/
def galRegs (e : Fin 16) (a : Nat) : Bool := within (0x200000 + 0x10000 * e) (0x210000 + 0x10000 * e) a

/-- What the switch core may touch when cells are freed or taken: its own registers, those of the MACs that pause for it,
and counters. -/
def coreTouch (a : Nat) : Bool := within 0x140000 0x1C0000 a || a == STS_HALFSUM || galTouch a

/-- A frame names a source of R274 and a class of R275. -/
def InFrame.ok (f : InFrame) : Bool := decide (f.src < 35) && decide (f.cls < 8)

/-- A copy names an egress and a queue (R279). -/
def Copy.ok (x : Copy) : Bool := decide (x.port < 34) && decide (x.cls < 9)

/-- The switch core and the emission buffers name only sources, egresses and classes that exist. -/
def Block.coreOk (b : Block) : Bool :=
  b.sw.ingress.all InFrame.ok && b.sw.frames.all (fun f => f.f.ok) && b.sw.copies.all Copy.ok && b.sw.held.all Copy.ok &&
    b.sw.tx.all (fun y => y.x.ok) && b.eng.toList.all (fun x => x.emis.all (fun f => decide (f.cls < 8)))

/-- What an engine touches when it leaves RUNNING: its own registers, the gates of its ports, and what every instruction may. -/
def leaveTouch (e : Fin 16) (a : Nat) : Bool := galRegs e a || coreTouch a

/-- The registers of the rings, and what the switch core may touch. -/
def zrgTouch (a : Nat) : Bool := within 0x1C0000 0x200000 a || coreTouch a

/-- The registers of Flowstone, and counters. -/
def flwTouch (a : Nat) : Bool := within 0x300000 0x380000 a || a == STS_HALFSUM || galTouch a

/-- Engine `e` was stopped by trap `code` at the instruction it stands at, `ticks` ticks after its first: nothing of the
instruction took effect. -/
def TrappedIn (e : Fin 16) (code ticks : Nat) (s t : State) : Prop :=
  t.blk.get (GAL_STAT_STATE e) = 5 ∧ t.blk.get (GAL_TRAP_CODE e) = code ∧ t.blk.get (GAL_TRAP_PC e) = (s.blk.eng[e]).pc ∧
  t.blk.reg (GAL_TINSN e) = (s.blk.eng[e]).word (s.blk.eng[e]).pc ∧ t.blk.flag (GAL_CAUSE_TRAP e) = true ∧
  (t.blk.eng[e]).g = (s.blk.eng[e]).g ∧ (t.blk.eng[e]).f = (s.blk.eng[e]).f ∧ (t.blk.eng[e]).pc = (s.blk.eng[e]).pc ∧
  (t.blk.eng[e]).data = (s.blk.eng[e]).data ∧ (t.blk.eng[e]).prog = (s.blk.eng[e]).prog ∧
  (t.blk.eng[e]).readyAt = s.blk.firstTick e + ticks * tick ∧ (∀ m : Fin 16, m ≠ e → t.blk.eng[m] = s.blk.eng[m]) ∧
  (s.blk.coreOk = true → FrameOn (leaveTouch e) [.eng, .tm, .trc, .host, .out, .sw, .macs, .strikes] s t)

/-- A trap takes one tick (R166). -/
def Trapped (e : Fin 16) (code : Nat) (s t : State) : Prop := TrappedIn e code 1 s t

/-- Engine `e` entered the wait part of a wait after its fixed ticks (R149). -/
def Enters (e : Fin 16) (w : Wait) (cost : Nat) (s t : State) : Prop :=
  t.blk.eng[e] = { s.blk.eng[e] with
    wait := w, readyAt := s.blk.firstTick e + cost * tick, waitSince := some (s.blk.firstTick e + cost * tick),
    use := (s.blk.eng[e]).use + cost, insnAt := s.blk.firstTick e, insnStw := (s.blk.atFirst e).stw, insnRetry := false } ∧
  (∀ m : Fin 16, m ≠ e → t.blk.eng[m] = s.blk.eng[m]) ∧ t.blk.flag (GAL_STAT_WAIT e) = true ∧
  Frame [GAL_STAT_WAIT e] [.eng, .tm] s t

/-- The wait of engine `e` ended at an instant: `f` is what it wrote to the engine, and the next instruction is at PC + 1. -/
def Resumes (e : Fin 16) (f : Engine → Engine) (at_ : Nat) (s t : State) : Prop :=
  (∃ r : Option TraceRec, t.blk.eng[e] =
    { f s.blk.eng[e] with wait := .none, waitSince := none, pc := (s.blk.eng[e]).pc + 1, readyAt := at_, overrun := false,
                          lastRec := r, seen := 0, seenWait := 0 }) ∧
  (∀ m : Fin 16, m ≠ e → t.blk.eng[m] = s.blk.eng[m]) ∧
  t.blk.reg (GAL_STAT e) = (s.blk.putB (GAL_STAT_WAIT e) false).reg (GAL_STAT e) ∧
  FrameOn (fun a => galTouch a || a == GAL_STAT e) [.eng, .tm, .trc, .host, .out] s t

/-- The event registers. -/
def evTouch (a : Nat) : Bool := a == EVT_PEND || a == EVT_OVR

/-- What a MAC touches that counts a frame: its own registers, and what its counters raise. -/
def macTouch (n a : Nat) : Bool := within (0x140000 + 0x1000 * n) (0x141000 + 0x1000 * n) a || a == STS_HALFSUM || evTouch a

/-- What a change of a lane may touch: the lanes and the calibration reports of a test that it ends, the ports and the switch
core where a link falls, the rings that lose their lanes, the Rope's lanes in PAIR_STAT and PAIR_CAUSE, and SYS_RETIRED. -/
def laneTouch (a : Nat) : Bool :=
  within 0x100000 0x124000 a || within 0x70000 0x80000 a || within 0x1C0000 0x200000 a || coreTouch a || a == PAIR_STAT ||
    a == PAIR_CAUSE || a == SYS_RETIRED

/-- The parts of the block that a change of a lane may change. -/
def laneParts : List Part := [.tm, .lanes, .sw, .macs, .ptp, .pair, .trc, .strikes, .retired, .retRec, .host, .out]

/-- What the Compass may touch while its unit is in no pair: its registers, the quality of the time scale, L1OK of the time
domains (R379), SYS_RETIRED and what its counters raise. -/
def cmpTouch (a : Nat) : Bool :=
  within 0x40000 0x50000 a || a == LAN_STAT || a == LAN_QCAUSE || a == LAN_EST_UNC || a == SYS_RETIRED || a == STS_HALFSUM ||
    (List.range 2).any (fun d => a == LAN_D_STAT d || a == LAN_D_CAUSE d) || evTouch a

/-- The parts of the block that the Compass may change without a commit. -/
def cmpParts : List Part := [.tm, .cps, .strikes, .retired, .retRec, .host, .out]

/-- What a pair state may touch: the pair's registers, the Compass where the holder changes, FLW_CTL.FIXLAT (R222), and what
counters raise. -/
def pairTouch (a : Nat) : Bool := within 0x400000 0x410000 a || a == FLW_CTL || cmpTouch a

/-- The parts of the block that a change of the pair may change. -/
def pairParts : List Part := [.pair, .tm, .cps, .strikes, .retired, .retRec, .host, .out]

/-- The power registers and the event registers. -/
def pwrTouch (a : Nat) : Bool := within 0x20000 0x20100 a || evTouch a

/-- What putting a PERIOD in force may touch (R27): SYS_CYCLE, SYS_MSLOT, FLW_USE, the causes of the engines and the event
registers. -/
def periodTouch (a : Nat) : Bool :=
  a == SYS_CYCLE || a == SYS_MSLOT || a == FLW_USE || (List.range 16).any (fun n => a == (GAL_CAUSE_CLAIM n).addr) || evTouch a

/-- The registers of the alarm log. -/
def logTouch (a : Nat) : Bool := within 0x410300 0x410340 a

/-- The commands after which a power domain may have restarted. -/
def powers : Instr → Bool
  | .registerWrite _ | .unmappedAccess _ | .bankCheck _ _ _ | .cycleBoundary | .domainWakeAccess _ | .domainReady _ | .profileOffAccess _ | .lostBankAccess _
  | .accessStallTimeout | .journalApply | .cfgw _ _ _ | .wakePattern _ _ | .reqRun _ | .reqDoze _ | .reqLineHold _
  | .reqStandby _ | .reqMaint _ | .wake _ _ | .shed | .cellSwitchover _ | .brownout _ | .thermalShutdown _ _ _
  | .thermalRestart _ _ _ _ _ _ | .mainsOn _ _ _ _ _ | .lineReset _ | .moduleReset _ | .resetDone _ _ _ _ => true
  | _ => false

/-- The commands after which requests that wait may go on, each of them at an instant of its own. -/
def drains : Instr → Bool
  | .domainReady _ | .accessStallTimeout | .bankCheck _ _ _ | .journalApply => true
  | _ => false

/-- The writes of the host that a command of their own names: they take their turn behind the requests that wait (R67). -/
def hostNamed : Instr → Bool
  | .axisCapture _ | .axisFaultsClr _ | .axisRestart _ _ | .axisSrcWrite _ _ | .bistGo | .bootUpdate _ | .cageOcClear _
  | .calDisable | .calRequest _ | .cellRetireClear _ | .challengeGo _ | .clkOutenWrite _ | .counterAck _ | .cycleArm _
  | .cycleRunWrite _ | .dmaDisable _ _ _ | .dmaResume _ _ | .domainSwitchWrite _ | .encStatClr _ | .engineDisable _
  | .engineLoad _ _ | .engineRetireClear _ | .engineStart _ _ | .eptRead _ | .eptSwap | .eptWrite _ | .evtEnWrite _
  | .evtPendClear _ | .evtSet _ | .fdbDelete | .fdbLookup | .fdbWrite | .flowstoneDisable | .fullRelock | .fuseProg _
  | .fuseRevoke _ | .galHdiscClr _ | .galRcodeClr _ | .galSlackClr _ | .hostErrClr | .hostP2tGo _ _ | .hostStallClr
  | .inputEnable _ _ | .inputRetireClear _ | .keyClear | .keyWrite | .knotArm _ | .laneRetireClear _ | .laneTestGo _ _
  | .lineReset _ | .logClr | .loopbackGo _ _ | .ltCapture | .lwmClr | .macDisable _ _ | .macEnable _ | .masterSelect _ _
  | .moduleReset _ | .mslotWrite _ | .nodeRetireClear _ _ _ | .outputDropClr _ | .outputEnable _ _ | .outputStep _ _
  | .pairEnable _ | .pairGenrst | .pairHandover | .pairResync | .pairSolo | .pairWithdraw | .perfCounterRead _ | .pllRelock
  | .profileGo _ | .recordWrite _ _ _ _ | .reqDoze _ | .reqLineHold _ | .reqMaint _ | .reqRun _ | .reqStandby _ | .retnClr
  | .retrain _ | .ringDisable _ _ | .ringScan _ _ | .secUnlock | .servoEnable _ _ | .sliceReturn _ | .snapArm | .snapCancel
  | .snapNow | .softErase | .spareDesignate _ | .spareRowClear _ | .sscWrite _ | .streamRead | .streamWrite | .switchGo _
  | .ticArm _ | .ticDisable | .ticPop | .ticStatClr | .timeSet | .timeSlew | .timeStep | .traceClr _ | .traceLoad _
  | .tsPop _ | .unsupportedSize _ | .vlanRead | .vlanWrite | .wdogWrite _ _ => true
  | _ => false

/-- Register `a` changed, or it is the high word of an LT value whose low word changed (R61). -/
def Block.tagCounts (b b' : Block) (a : Nat) : Bool := b'.reg a != b.reg a || (isLtHigh a && b'.reg (a + 16) != b.reg (a + 16))

/-- Between two states the power domain of register `a` was powered up, powered down or, by a brownout of PD0, restarted. -/
def restarted (c : Instr) (b b' : Block) (a : Nat) : Bool :=
  match c with
  | .brownout _ => secReg a && b.pwrState == 5
  | _ => b.domOn (domainOf a) != b'.domOn (domainOf a)

/-- An exact result outside the signed 72-bit range. -/
def overflows (v : Int) : Bool := decide (v < -2 ^ 71) || decide (2 ^ 71 ≤ v)

/-- The nearer end of the signed range of `w` bits for a result outside it. -/
def nearest (w : Nat) (v : Int) : Int := max (-2 ^ (w - 1)) (min v (2 ^ (w - 1) - 1))

/-- PERIOD after a write of SYS_CYCLE: a reserved value leaves it (R18, R27). -/
def Block.periodAfter (b : Block) (data : Half) : Nat :=
  if b.periodOk (data.toNat % 2 ^ 12) then data.toNat % 2 ^ 12 else b.get SYS_CYCLE_PERIOD

/-- PHASE after a write of SYS_CYCLE: a value that is not below PERIOD leaves it. -/
def Block.phaseAfter (b : Block) (data : Half) : Nat :=
  if data.toNat / 2 ^ 12 % 2 ^ 12 < b.periodAfter data then data.toNat / 2 ^ 12 % 2 ^ 12 else b.get SYS_CYCLE_PHASE

/-- The state shows the PERIOD and PHASE of a write. -/
def Block.storedFrom (b b' : Block) (data : Half) : Prop :=
  b'.get SYS_CYCLE_PERIOD = b.periodAfter data ∧ b'.get SYS_CYCLE_PHASE = b.phaseAfter data

/-- The PERIOD and PHASE of a write are in force. -/
def Block.forceFrom (b b' : Block) (data : Half) : Prop :=
  b'.get SYS_CYCLE_PERIN = b.periodAfter data ∧ b'.get SYS_CYCLE_PHIN = b.phaseAfter data

/-! ### Conditions that several statements share -/

/-- No engine is RUNNING. -/
def Block.enginesRest (b : Block) : Prop := ∀ n < 16, b.get (GAL_STAT_STATE n) ≠ 3

end Sys2Proof.Machine
end

