-- ==== Sys2Proof/WellFormed.lean ====
section
/-! DEFINITION. Well-formed commands: the operands that a command can carry, where its type alone
does not say so. -/

namespace Sys2Proof.Machine

/-- Four bytes of data stand in the low half (R57). -/
def wfData (r : BarReq) : Bool := r.eight || decide (r.data.toNat < 2 ^ 32)

/-- The offset is that of a register of the tables. -/
def named (r : BarReq) : Bool := (regAt (r.off.toNat / 16 * 16)).isSome

/-- A BAR0 request of 4 or 8 naturally aligned bytes to a register of the tables (R57). -/
def wfReg (r : BarReq) : Bool := r.bar == .bar0 && sizeOk r && wfData r && named r

/-- A request that the endpoint carries out: to a register, to the MSI-X table, or to its configuration space (R54, R56, R57). -/
def wfHost (r : BarReq) : Bool := wfReg r || ((r.bar == .bar4 || r.bar == .config) && sizeOk r && wfData r)

/-- A request at which nothing answers: in no BAR, of another size than R57 allows, or where the tables have no register. -/
def wfNone (r : BarReq) : Bool := wfData r && (r.bar == .none || (r.bar == .bar0 && !(sizeOk r && named r)))

/-- Upsets name words of Cavern (R82). -/
def wfUps (l : List (Nat × Bool)) : Bool := l.all (fun p => decide (p.1 < 0x20000000))

/-- A frame on the wire of a line port or MGMT: at least the two addresses and the EtherType, and a good FCS excludes a code
error (R305, R306). -/
def wfFrame (f : WireFrame) : Bool := decide (14 ≤ f.bytes.length) && !(f.fcsOk && f.code)

/-- The byte enables of a BAR2 write: at least one byte, no more than the window (R83). -/
def wfWin (off len : Nat) : Bool := decide (1 ≤ len) && decide (off + len ≤ 2 ^ 28)

end Sys2Proof.Machine

namespace Sys2Proof

open Machine

/-- The operands of a command are such as it can carry. A command with no line of its own is well formed whatever its
operands are. -/
def Instr.wf : Instr → Bool
  | .registerWrite r => wfHost r
  | .counterAck a => isCounter a.toNat
  | .unmappedAccess r => wfNone r
  | .domainWakeAccess r => wfReg r
  | .profileOffAccess r => wfReg r
  | .lostBankAccess r => wfReg r
  | .perfCounterRead a => isCounter a.toNat && decide (0x3C0000 ≤ a.toNat) && decide (a.toNat < 0x3E0000)
  | .bar2Read off len ups => wfWin off.toNat len.toNat && wfUps ups
  | .bar2Write off bytes ups => wfWin off.toNat bytes.length && wfUps ups
  | .dmaDescriptor _ d data ups => decide (data.length ≤ d.len.toNat) && wfUps ups
  | .loadComplete _ ups _ => wfUps ups
  | .dmaDisable _ prog _ => prog.all (fun p => decide (p.2.length ≤ p.1.len.toNat))
  | .batchDispatch chk ups => chk.all (fun k => decide (k < 4096)) && wfUps ups
  | .segmentFetchDone ups => wfUps ups
  | .seekDone ups => wfUps ups
  | .ringFrameReturn _ _ f _ => decide (14 ≤ f.bytes.length)
  | .rxFrame _ f _ => wfFrame f
  | .pfcReceived _ _ times _ => times.length == 8
  | .smbusRead _ _ len => decide (1 ≤ len.toNat)
  | _ => true

end Sys2Proof
end

