-- ==== Sys2Proof/Certificates/Slice0/Obligations.lean ====
section
/-! DEFINITION. The statements about the model, for the provers. A statement about a command says, for every
state and operands that meet its hypotheses, that the command answers a next state, what that state holds,
and (as `Frame`) that nothing else changed. -/

namespace Sys2Proof.Machine

/-- The registers of axis `n`, the quality cause register and the event registers. -/
def axisRegs (n a : Nat) : Bool :=
  within (LAN_AXCFG n) (LAN_AXCFG n + 0x200) a || a == LAN_QCAUSE || a == EVT_PEND || a == EVT_OVR

/-- The frame that EMIT puts into the emission buffer: a copy of template `w` (R158). -/
def emitFrame (b : Block) (e : Fin 16) (f : FormD) (w : Word) : EFrame :=
  { bytes := (b.eng[e]).template (dirFirst w) (dirLen w), port := f.imm.toNat % 64, cls := f.imm.toNat / 64 % 8,
    sch := f.imm.getLsbD 9, hold := if f.imm.getLsbD 10 then some (f.imm.toNat / 2 ^ 11 % 4) else none, cycle := b.cyc.count,
    moved := 0, rel := b.firstTick e + (8 + ceilDiv (dirLen w) 16) * tick, src := dirFirst w,
    copyAt := b.firstTick e + 8 * tick, old := false }

/-- EMIT finds room in the buffer and its hold slot free (R158). -/
def emitRoom (b : Block) (e : Fin 16) (f : FormD) (w : Word) : Bool :=
  decide (emisUsed (b.eng[e]).emis + dirLen w ≤ 36864) &&
    !(f.imm.getLsbD 10 && (b.eng[e]).emis.any (fun g => g.hold == some (f.imm.toNat / 2 ^ 11 % 4)))

/-- No engine but `e` runs, waits for a start or moves. -/
def aloneRuns (b : Block) (e : Fin 16) : Prop :=
  ∀ m : Fin 16, m ≠ e → b.running m = false ∧ (b.eng[m]).startPend = false ∧ (b.eng[m]).reloc = false

/-- What a trigger may touch: the GAL registers of an engine, its low-water register and counters. -/
def triggerTouch (e : Fin 16) (a : Nat) : Bool := galTouch a || galRegs e a || a == SYS_LWM_GAL e

/-- A register whose reading changes nothing in the block, and that shows what it holds. -/
def plainReg (a : Nat) : Bool :=
  !(galTouch a || a == EVT_SET || a == PWR_AON || a == PWR_LAST || a == SYS_GPIOIN || within 0x90000 0x91000 a ||
    within 0x100000 0x124000 a || within 0x180000 0x1C0000 a || within 0x300000 0x380000 a)

/-- A retained bank is neither LOST nor yet to be checked (R540, R541). -/
def bankGood (b : Block) (k : Nat) : Bool := !(b.pw.lost.getLsbD k || b.pw.unchecked.getLsbD k || b.pw.sealed.getLsbD k)

/-- The knot that LAN_AXKP, LAN_AXKV, LAN_AXKA and LAN_AXKT hold; on SRC 3 its acceleration is 0 (R113). -/
def knotOf (b : Block) (n : Nat) : Knot :=
  { p := b.reg (LAN_AXKP n), v := b.reg (LAN_AXKV n), a := if b.get (LAN_AXCFG_SRC n) = 3 then 0 else b.reg (LAN_AXKA n),
    t := b.reg (LAN_AXKT n) }

/-- No page waits for its copy, no calibration job is queued or runs, no swap waits and no loopback runs: a maintenance slot serves
nothing but the check of the stores. -/
def nothingServed (b : Block) : Prop :=
  b.cav.copying = [] ∧ b.cal.run = none ∧ b.cal.queue = [] ∧ b.cal.swap = [] ∧ b.cal.dly = none ∧ (∀ n < 32, (b.pt n).lbk = false)

/-- Engine `e` after the check of its stores in a slot of `us` µs: 64 words per µs further in address order (R183). -/
def scrubbed (b : Block) (e : Fin 16) (us : Nat) : Engine :=
  { b.eng[e] with scrubAt := if b.banksPending e then (b.eng[e]).scrubAt else ((b.eng[e]).scrubAt + 64 * us) % storeWords }

/-- The batch that a CAMQ puts into the queue (R155). -/
def camqBatch (b : Block) (e : Fin 16) (f : FormD) : Batch :=
  { eng := e, run := (b.eng[e]).tagRun, tag := f.sel.toNat % 4, first := f.imm.toNat / 2 ^ 14 % 2 ^ 18,
    count := f.imm.toNat / 4 % 2 ^ 12 + 1, pm := (b.eng[e]).rd f.ra, vm := (b.eng[e]).rd f.rb,
    at_ := b.firstTick e + 12 * tick }

/-- Nothing of Flowstone's is due: no batch is being dispatched, none waits to go, and no result's slot has ended. -/
def Block.flwQuiet (b : Block) : Prop :=
  ∀ fl ∈ b.flw.flight, fl.todo = [] ∧ fl.off = false ∧ ∀ x ∈ fl.results, b.tm.phys < x.due

/-- The block as egress `p` finds it when it takes its next frame: a first frame is whole, the spare rows that are due have
joined, copies that were passed over and are whole now are gone, and the first queued frames are fetched (R279, R280, R292). -/
def Block.fetchedFor (b : Block) (p : Nat) (ups : List CellUpset) : Block :=
  let b1 := ((b.reachPhys (b.leaveAt p)).rowSettle).passedSettle p
  b1.fetchAhead p ups 0 (b1.sw.copies.filter (fun x => x.port == p))

end Sys2Proof.Machine

section Statements

open Sys2Proof Sys2Proof.Machine

/-! ### The host interface -/

/-- R93, R94, Table 2-8: the requests that end as host errors, and the clears of HOST_ERRCAUSE and HOST_STALL. A
request answered with an error records its cause and address, counts it, and raises HOST_ERR; an access to an
unmapped offset writes nothing, and one that lies in no BAR is an Unsupported Request without HOST_ERR.
Choices and readings of the model: log entries 9, 20, 22 and 73. -/
def Obligations.HostErrors : Prop :=
  (∀ s : State, s.blk.hostFree = true → ∃ t, exec .hostErrClr s = .next t ∧
    t.blk.get HOST_ERRCAUSE_CODE = 0 ∧ t.blk.get HOST_ERRCAUSE_CNT = 0 ∧
    Frame [HOST_ERRCAUSE_CODE, HOST_ERRCAUSE_CNT] [] s t) ∧
  (∀ s : State, s.blk.hostFree = true → ∃ t, exec .hostStallClr s = .next t ∧
    t.blk.get HOST_STALL_MAX = 0 ∧ Frame [HOST_STALL_MAX] [] s t) ∧
  (∀ (s : State) (addr : Half), ∃ t, exec (.poisonedRequest addr) s = .next t ∧
    t.blk.get HOST_ERRCAUSE_CODE = 9 ∧ t.blk.get HOST_ERRADDR_ADDR = addr.toNat ∧
    t.blk.get HOST_ERRCAUSE_CNT = sat 255 (s.blk.get HOST_ERRCAUSE_CNT + 1) ∧
    Frame [HOST_ERRCAUSE_CODE, HOST_ERRCAUSE_CNT, HOST_ERRADDR_ADDR, EVT_PEND_PEND, EVT_OVR_OVR] [.host, .out] s t) ∧
  (∀ (s : State) (off : BitVec 24), s.blk.hostFree = true → ∃ t, exec (.unsupportedSize off) s = .next t ∧
    t.blk.get HOST_ERRCAUSE_CODE = 2 ∧ t.blk.get HOST_ERRADDR_ADDR = off.toNat ∧
    Out.unsupported off.toNat ∈ t.blk.out ∧
    Frame [HOST_ERRCAUSE_CODE, HOST_ERRCAUSE_CNT, HOST_ERRADDR_ADDR, EVT_PEND_PEND, EVT_OVR_OVR] [.host, .out] s t) ∧
  (∀ (s : State) (r : BarReq), s.blk.hostFree = true → r.bar = .none →
    ∃ t, exec (.unmappedAccess r) s = .next t ∧
      t.blk.out = .unsupported r.off.toNat :: s.blk.out ∧ Frame [] [.host, .pw, .out] s t) ∧
  (∀ (s : State) (r : BarReq), s.blk.hostFree = true → r.bar = .bar0 → sizeOk r = false →
    ∃ t, exec (.unmappedAccess r) s = .next t ∧
      t.blk.get HOST_ERRCAUSE_CODE = 2 ∧ t.blk.get HOST_ERRADDR_ADDR = r.off.toNat ∧
      Out.unsupported r.off.toNat ∈ t.blk.out ∧
      Frame [HOST_ERRCAUSE_CODE, HOST_ERRCAUSE_CNT, HOST_ERRADDR_ADDR, EVT_PEND_PEND, EVT_OVR_OVR] [.host, .pw, .out] s t) ∧
  (∀ (s : State) (r : BarReq), s.blk.hostFree = true → r.bar = .bar0 → sizeOk r = true →
    regAt (slotOf r.off.toNat) = none → ∃ t, exec (.unmappedAccess r) s = .next t ∧
    t.blk.get HOST_ERRCAUSE_CODE = 1 ∧ t.blk.get HOST_ERRADDR_ADDR = r.off.toNat ∧
    (r.wr = false → Out.readData r.off.toNat (List.replicate (if r.eight then 8 else 4) 0) false ∈ t.blk.out) ∧
    Frame [HOST_ERRCAUSE_CODE, HOST_ERRCAUSE_CNT, HOST_ERRADDR_ADDR, EVT_PEND_PEND, EVT_OVR_OVR] [.host, .pw, .out] s t)

/-- R96: while power domain PD3 is on, an occurrence of an event sets its PEND bit, or its OVR bit where PEND is
set; when PEND and EN rise together an unmasked vector's message leaves; clearing PEND, enabling, EVT_SET and
unmasking act as R95 to R97 say.
Choices and readings of the model: log entries 9, 57 and 71. -/
def Obligations.Events : Prop :=
  (∀ (s : State) (n : Fin 64), s.blk.domOn 3 = true → bitAt (s.blk.get EVT_PEND_PEND) n = false →
    ∃ t, exec (.eventOccurrence n) s = .next t ∧
      t.blk.get EVT_PEND_PEND = s.blk.get EVT_PEND_PEND + 2 ^ n.val ∧ t.blk.get EVT_OVR_OVR = s.blk.get EVT_OVR_OVR ∧
      (bitAt (s.blk.get EVT_EN_EN) n = true → s.blk.host.mask.getLsbD n = false → t.blk.out = .msix n :: s.blk.out) ∧
      (bitAt (s.blk.get EVT_EN_EN) n = true → s.blk.host.mask.getLsbD n = true →
        t.blk.host.pba.getLsbD n = true ∧ t.blk.out = s.blk.out) ∧
      (bitAt (s.blk.get EVT_EN_EN) n = false → t.blk.out = s.blk.out) ∧
      Frame [EVT_PEND_PEND] [.host, .out] s t) ∧
  (∀ (s : State) (n : Fin 64), s.blk.domOn 3 = true → bitAt (s.blk.get EVT_PEND_PEND) n = true →
    ∃ t, exec (.eventOccurrence n) s = .next t ∧
      t.blk.get EVT_OVR_OVR = setBitN (s.blk.get EVT_OVR_OVR) n ∧ Frame [EVT_OVR_OVR] [] s t) ∧
  (∀ (s : State) (n : Fin 64), s.blk.domOn 3 = false → ∃ t, exec (.eventOccurrence n) s = .next t ∧
      n.val ∈ t.blk.host.held ∧ Frame [] [.host] s t) ∧
  (∀ (s : State) (mask : Half), s.blk.hostFree = true → ∃ t, exec (.evtPendClear mask) s = .next t ∧
    (∀ i < 64, bitAt (t.blk.get EVT_PEND_PEND) i = (bitAt (s.blk.get EVT_PEND_PEND) i && !mask.getLsbD i)) ∧
    t.blk.host.pba = s.blk.host.pba &&& ~~~(mask &&& s.blk.host.mask) ∧
    Frame [EVT_PEND_PEND] [.host] s t) ∧
  (∀ (s : State) (data : Half), s.blk.hostFree = true → ∃ t, exec (.evtEnWrite data) s = .next t ∧
    t.blk.get EVT_EN_EN = data.toNat ∧
    (∀ i < 64, data.getLsbD i = true → bitAt (s.blk.get EVT_EN_EN) i = false → bitAt (s.blk.get EVT_PEND_PEND) i = true →
      s.blk.host.mask.getLsbD i = false → Out.msix i ∈ t.blk.out) ∧
    Frame [EVT_EN_EN] [.host, .out] s t) ∧
  (∀ (s : State) (mask : Half), s.blk.hostFree = true → ∃ t, exec (.evtSet mask) s = .next t ∧
    (∀ i < 64, bitAt (t.blk.get EVT_PEND_PEND) i = (bitAt (s.blk.get EVT_PEND_PEND) i || mask.getLsbD i)) ∧
    Frame [EVT_PEND_PEND, EVT_OVR_OVR] [.host, .out] s t) ∧
  (∀ (s : State) (v : Fin 64), ∃ t, exec (.msixUnmask v) s = .next t ∧
    t.blk.host.mask.getLsbD v = false ∧ t.blk.host.pba.getLsbD v = false ∧
    (s.blk.host.pba.getLsbD v = true → t.blk.out = .msix v :: s.blk.out) ∧
    (s.blk.host.pba.getLsbD v = false → t.blk.out = s.blk.out) ∧ Frame [] [.host, .out] s t)

/-- R55, R592: a host reset returns HOST_WIN, EVT_EN, EVT_PIN, EVT_CTL and the DMA registers to their reset values and
puts the PCIe core into reset; every other register and every part of the block outside the host interface stands.
PERST release leads to retry status, and 20 ms later the endpoint is ready. -/
def Obligations.HostResets : Prop :=
  (∀ s : State, ∃ t, exec .hostReset s = .next t ∧
    (∀ a ∈ [HOST_WIN, EVT_EN, EVT_PIN, EVT_CTL], t.blk.reg a = regReset a) ∧
    (∀ n < 4, t.blk.reg (DMA_CTL n) = 0 ∧ t.blk.reg (DMA_BASE n) = 0 ∧ t.blk.reg (DMA_TAIL n) = 0 ∧ t.blk.reg (DMA_HEAD n) = 0) ∧
    t.blk.host.pcie = .reset ∧
    (∀ a, hostResetReg a = false → t.blk.reg a = s.blk.reg a) ∧ s.blk.only [.host] t.blk ∧ t.pending = s.pending) ∧
  (∀ s : State, s.blk.domOn 3 = true → ∃ t, exec .perstRelease s = .next t ∧
    t.blk.host.pcie = .retry ∧ t.blk.host.perst = false ∧ Frame [] [.host] s t) ∧
  (∀ s : State, s.blk.host.pcie = .retry → ∃ t, exec .configReady s = .next t ∧
    t.blk.host.pcie = .ready ∧ t.blk.tm.phys = s.blk.tm.phys + 20000000 * nsUnit ∧ Frame [] [.host, .tm] s t)

/-- R17 to R19, R54, R56, R60, R62, R97: a host write to a register without a row of its own stores the fields it carries, a
reserved value leaves its field, and a read returns the 64 bits of the location. The registers here are EVT_PIN (R98) and
HOST_CTO (Table 2-8). A write of a vector's control word in BAR4 masks the vector, and a read of the first double word of
configuration space gives the identification of Table 2-1, or retry status while the endpoint is not yet ready.
Choices and readings of the model: log entries 9, 20 and 22. -/
def Obligations.RegisterAccess : Prop :=
  (∀ (s : State) (d : Half), s.blk.domOn 3 = true → s.blk.hostFree = true → s.blk.synced = false →
    ∃ t, exec (.registerWrite ⟨BitVec.ofNat 24 EVT_PIN, true, true, d, .bar0⟩) s = .next t ∧
      t.blk.get EVT_PIN_PIN = d.toNat ∧ Frame [EVT_PIN_PIN] [.pw] s t) ∧
  (∀ (s : State) (d : Half), s.blk.domOn 3 = true → s.blk.hostFree = true → s.blk.synced = false →
    ∃ t, exec (.registerWrite ⟨BitVec.ofNat 24 (EVT_PIN + 4), false, true, d, .bar0⟩) s = .next t ∧
      t.blk.get EVT_PIN_PIN = s.blk.get EVT_PIN_PIN % 2 ^ 32 + d.toNat % 2 ^ 32 * 2 ^ 32 ∧ Frame [EVT_PIN_PIN] [.pw] s t) ∧
  (∀ (s : State) (d : Half), s.blk.domOn 3 = true → s.blk.hostFree = true → s.blk.synced = false →
    ∃ t, exec (.registerWrite ⟨BitVec.ofNat 24 HOST_CTO, true, true, d, .bar0⟩) s = .next t ∧
      t.blk.get HOST_CTO_MS = (if d.toNat % 16 = 0 then s.blk.get HOST_CTO_MS else d.toNat % 16) ∧
      Frame [HOST_CTO_MS] [.pw] s t) ∧
  (∀ (s : State) (d : Half), s.blk.domOn 3 = true → s.blk.hostFree = true → s.blk.host.journal = [] →
    ∃ t, exec (.registerWrite ⟨BitVec.ofNat 24 EVT_PIN, true, false, d, .bar0⟩) s = .next t ∧
      t.blk.out = .readData EVT_PIN (bytesOf (s.blk.get EVT_PIN_PIN) 0 8) false :: s.blk.out ∧ Frame [] [.pw, .out] s t) ∧
  (∀ (s : State) (v : Fin 64) (d : Half), s.blk.hostFree = true → d.getLsbD 0 = true →
    ∃ t, exec (.registerWrite ⟨BitVec.ofNat 24 (16 * v.val + 12), false, true, d, .bar4⟩) s = .next t ∧
      t.blk.host.mask.getLsbD v = true ∧ t.blk.host.pba = s.blk.host.pba ∧ t.blk.out = s.blk.out ∧
      Frame [] [.host, .pw] s t) ∧
  (∀ (s : State) (d : Half), s.blk.hostFree = true → s.blk.host.pcie = .ready →
    ∃ t, exec (.registerWrite ⟨0, false, false, d, .config⟩) s = .next t ∧
      t.blk.out = .readData 0 [0xD4, 0x1F, 0x20, 0x07] false :: s.blk.out ∧ Frame [] [.pw, .out] s t) ∧
  (∀ (s : State) (r : BarReq), s.blk.hostFree = true → r.bar = .config → s.blk.host.pcie = .retry →
    ∃ t, exec (.registerWrite r) s = .next t ∧ t.blk.out = .configRetry :: s.blk.out ∧ Frame [] [.pw, .out] s t)

/-- R57, R67, R69, R71, R72, R73, R440: an access held off reads zero or is discarded with cause PROFILE_OFF, one to a LOST bank is
a Completer Abort, one to a sleeping domain stalls and starts its wake; a stalled access completes when its domain is
ready, and after 202 µs of a full relock it fails with cause CLK_RELOCK. A request behind one that waits joins the queue, and
one for which the queue has no room waits for credits.
Choices and readings of the model: log entries 2, 23 and 24. -/
def Obligations.HeldOffAccesses : Prop :=
  (∀ (s : State) (r : BarReq), s.blk.hostFree = true → s.blk.meets r = .off →
    ∃ t, exec (.profileOffAccess r) s = .next t ∧
    t.blk.get HOST_ERRCAUSE_CODE = 3 ∧ t.blk.get HOST_ERRADDR_ADDR = r.off.toNat ∧
    (r.wr = false → Out.readData r.off.toNat (List.replicate (if r.eight then 8 else 4) 0) false ∈ t.blk.out) ∧
    Frame [HOST_ERRCAUSE_CODE, HOST_ERRCAUSE_CNT, HOST_ERRADDR_ADDR, EVT_PEND_PEND, EVT_OVR_OVR] [.host, .out, .pw] s t) ∧
  (∀ (s : State) (r : BarReq), s.blk.hostFree = true → s.blk.meets r = .lost →
    ∃ t, exec (.lostBankAccess r) s = .next t ∧
    t.blk.get HOST_ERRCAUSE_CODE = 4 ∧ Out.completerAbort r.off.toNat ∈ t.blk.out ∧
    Frame [HOST_ERRCAUSE_CODE, HOST_ERRCAUSE_CNT, HOST_ERRADDR_ADDR, EVT_PEND_PEND, EVT_OVR_OVR] [.host, .out, .pw] s t) ∧
  (∀ (s : State) (r : BarReq), s.blk.meets r = .wakes → s.blk.host.backlog = [] →
    (r.wr = true → s.blk.queueFull = false) → ∃ t, exec (.domainWakeAccess r) s = .next t ∧
    t.blk.host.stalls = s.blk.host.stalls ++ [⟨.registerWrite r, domainOf (slotOf r.off.toNat), s.blk.tm.phys⟩] ∧
    t.blk.host.waking.getLsbD (domainOf (slotOf r.off.toNat)) = true ∧
    FrameOn (fun a => galTouch a || a == PWR_RETN) [.host, .pw, .trc, .out] s t) ∧
  (∀ (s : State) (d : Fin 12) (r : BarReq) (since : Nat), s.blk.host.stalls = [⟨.registerWrite r, d.val, since⟩] →
    s.blk.host.backlog = [] → s.blk.journalWrites < 256 → s.blk.meets r = .ready →
    ∃ t, exec (.domainReady d) s = .next t ∧ t.blk.host.stalls = [] ∧
      (∃ b : Block, s.blk.only [.tm, .free, .host, .trc, .out] b ∧ (∀ a, galTouch a = false → b.reg a = s.blk.reg a) ∧
        b.host.waking.getLsbD d = false ∧ s.blk.tm.phys ≤ b.tm.phys ∧
        b.tm.phys ≤ max s.blk.tm.phys (since + 220000 * nsUnit) ∧
        t.blk.regs = (b.stallAnswer ⟨.registerWrite r, d.val, since⟩).regs ∧
        t.blk.out = (b.stallAnswer ⟨.registerWrite r, d.val, since⟩).out) ∧
      t.pending = s.pending) ∧
  (∀ (s : State) (r : BarReq) (d since : Nat), s.blk.host.stalls = [⟨.registerWrite r, d, since⟩] →
    s.blk.host.backlog = [] → s.blk.relockStops (slotOf r.off.toNat) = true →
    ∃ t, exec .accessStallTimeout s = .next t ∧ t.blk.host.stalls = [] ∧
      t.blk.get HOST_ERRCAUSE_CODE = 10 ∧ t.blk.get HOST_ERRADDR_ADDR = r.off.toNat ∧
      since + 202000 * nsUnit ≤ t.blk.tm.phys ∧
      (r.wr = false → Out.readData r.off.toNat (List.replicate (if r.eight then 8 else 4) 0) false ∈ t.blk.out) ∧
      FrameF [HOST_STALL_MAX, HOST_ERRCAUSE_CODE, HOST_ERRCAUSE_CNT, HOST_ERRADDR_ADDR] [.tm] s t) ∧
  (∀ (s : State) (off : BitVec 28) (len : BitVec 13) (ups : List (Nat × Bool)) (d since : Nat),
    s.blk.host.stalls = [⟨.bar2Read off len ups, d, since⟩] → s.blk.host.backlog = [] → s.blk.relockStops 0x200000 = true →
    ∃ t, exec .accessStallTimeout s = .next t ∧ t.blk.host.stalls = [] ∧
      t.blk.get HOST_ERRCAUSE_CODE = 10 ∧ Out.readData off.toNat (List.replicate len.toNat 0) false ∈ t.blk.out ∧
      FrameF [HOST_STALL_MAX, HOST_ERRCAUSE_CODE, HOST_ERRCAUSE_CNT, HOST_ERRADDR_ADDR] [.tm] s t) ∧
  (∀ (s : State) (c : Instr), hostNamed c = true → s.blk.hostMay c = false → s.blk.host.backlog = [] →
    (posted c = true → s.blk.queueFull = false) → ∃ t, exec c s = .next t ∧
      t.blk.host.stalls = s.blk.host.stalls ++ [⟨c, 3, s.blk.tm.phys⟩] ∧ t.blk.host.waking = s.blk.host.waking ∧
      FrameOn galTouch [.host, .trc, .out] s t) ∧
  (∀ (s : State) (c : Instr), hostNamed c = true →
    (s.blk.host.backlog ≠ [] ∨ (posted c = true ∧ s.blk.queueFull = true)) → ∃ t, exec c s = .next t ∧
      t.blk.host.backlog = s.blk.host.backlog ++ [c] ∧ t.blk.host.stalls = s.blk.host.stalls ∧ Frame [] [.host] s t)

/-! ### Cavern -/

/-- R83, R85, R94: a BAR2 write of a whole word replaces it with a fresh check code and leaves every other byte of Cavern; a
write of part of a word that reads uncorrectable is discarded with cause BAR2_UE; a read of a good word returns its nine
bytes, and of a bad one poisoned data. With Cavern's domains held off a read gives zeros and a write is discarded, with cause
PROFILE_OFF.
Choices and readings of the model: log entries 14, 15 and 73. -/
def Obligations.CavernWindow : Prop :=
  (∀ (s : State) (i : Nat) (v : List Byte) (ups : List (Nat × Bool)), s.blk.hostFree = true → s.blk.cavernOn = true →
    s.blk.relockStops 0x200000 = false → v.length = 9 → 16 * i + 9 ≤ 2 ^ 28 → s.blk.winBase + i ≤ lastWord →
    ∃ t, exec (.bar2Write (BitVec.ofNat 28 (16 * i)) (v.map some) ups) s = .next t ∧
      cavBytes t.blk.cav.mem (s.blk.physWord (s.blk.winBase + i)) = v ∧
      t.blk.cavBad (s.blk.winBase + i) = false ∧
      (∀ key, key / 16 ≠ s.blk.physWord (s.blk.winBase + i) → cavByte t.blk.cav.mem key = cavByte s.blk.cav.mem key) ∧
      (Memory.wf s.blk.cav.mem = true → Memory.wf t.blk.cav.mem = true) ∧ FrameOn galTouch [.cav, .trc, .host, .out] s t) ∧
  (∀ (s : State) (i : Nat) (v : Byte), s.blk.hostFree = true → s.blk.cavernOn = true → s.blk.relockStops 0x200000 = false →
    16 * i + 9 ≤ 2 ^ 28 → s.blk.winBase + i ≤ lastWord →
    s.blk.cavBad (s.blk.winBase + i) = true → s.blk.cav.corr.contains (s.blk.physWord (s.blk.winBase + i)) = false →
    ∃ t, exec (.bar2Write (BitVec.ofNat 28 (16 * i)) [some v] []) s = .next t ∧
      t.blk.cav.mem = s.blk.cav.mem ∧ t.blk.get HOST_ERRCAUSE_CODE = 6 ∧ t.blk.get HOST_ERRADDR_ADDR = 16 * i ∧
      t.pending = s.pending) ∧
  (∀ (s : State) (i : Nat), s.blk.hostFree = true → s.blk.cavernOn = true → s.blk.relockStops 0x200000 = false →
    16 * i + 9 ≤ 2 ^ 28 → s.blk.winBase + i ≤ lastWord → s.blk.cav.corr = [] → s.blk.cav.uncorr = [] →
    ∃ t, exec (.bar2Read (BitVec.ofNat 28 (16 * i)) 9 []) s = .next t ∧
      Out.readData (16 * i) (cavBytes s.blk.cav.mem (s.blk.physWord (s.blk.winBase + i))) false ∈ t.blk.out ∧
      FrameOn galTouch [.trc, .host, .out] s t) ∧
  (∀ (s : State) (i : Nat), s.blk.hostFree = true → s.blk.cavernOn = true → s.blk.relockStops 0x200000 = false →
    16 * i + 9 ≤ 2 ^ 28 → s.blk.winBase + i ≤ lastWord → s.blk.cavBad (s.blk.winBase + i) = true →
    ∃ t, exec (.bar2Read (BitVec.ofNat 28 (16 * i)) 9 []) s = .next t ∧ t.blk.cav.mem = s.blk.cav.mem ∧
      ∃ l, Out.readData (16 * i) l true ∈ t.blk.out) ∧
  (∀ (s : State) (off : BitVec 28) (len : BitVec 13) (ups : List (Nat × Bool)), s.blk.hostFree = true →
    s.blk.cavernOn = false → ∃ t, exec (.bar2Read off len ups) s = .next t ∧
      t.blk.get HOST_ERRCAUSE_CODE = 3 ∧ Out.readData off.toNat (List.replicate len.toNat 0) false ∈ t.blk.out ∧
      Frame [HOST_ERRCAUSE_CODE, HOST_ERRCAUSE_CNT, HOST_ERRADDR_ADDR, EVT_PEND_PEND, EVT_OVR_OVR] [.host, .out] s t) ∧
  (∀ (s : State) (off : BitVec 28) (bytes : List (Option Byte)) (ups : List (Nat × Bool)), s.blk.hostFree = true →
    s.blk.cavernOn = false → ∃ t, exec (.bar2Write off bytes ups) s = .next t ∧ t.blk.get HOST_ERRCAUSE_CODE = 3 ∧
      Frame [HOST_ERRCAUSE_CODE, HOST_ERRCAUSE_CNT, HOST_ERRADDR_ADDR, EVT_PEND_PEND, EVT_OVR_OVR] [.host, .out] s t)

/-- R87 to R93: DMA0 moves words into Cavern and touches no other byte of it, DMA1 moves words out, DMA2 puts a frame
into the switch core; a completed descriptor writes STATUS and advances HEAD, an invalid one moves nothing; a completion
error or timeout halts the engine, RESUME frees it, a disable clears EN, and a descriptor that EN cleared meets in progress ends
with ABORT.
Choices and readings of the model: log entries 26, 27 and 73. -/
def Obligations.DmaEngines : Prop :=
  (∀ (s : State) (d : Desc) (data : List Byte), s.blk.dmaReady 0 = true → descCode 0 d = 0 → s.blk.cav.remap = [] →
    ∃ t, exec (.dmaDescriptor 0 d data []) s = .next t ∧
      (∀ i < d.len.toNat, cavWord t.blk.cav.mem (d.caddr.toNat + i) =
        BitVec.ofNat 72 (natOfBytes ((data.drop (i * dmaUnit d)).take 9))) ∧
      (∀ key, (key / 16 < d.caddr.toNat ∨ d.caddr.toNat + d.len.toNat ≤ key / 16) →
        cavByte t.blk.cav.mem key = cavByte s.blk.cav.mem key) ∧
      t.blk.get (DMA_HEAD_HEAD 0) = (s.blk.get (DMA_HEAD_HEAD 0) + 1) % 2 ^ s.blk.get (DMA_SIZE_LOG2 0) % 2 ^ 16 ∧
      Out.hostWrite (s.blk.dmaAt 0 + 24) (bytesOf 1 0 8) false ∈ t.blk.out ∧
      FrameF [DMA_HEAD_HEAD 0, HOST_DBCAUSE_DMA] [.cav] s t) ∧
  (∀ (s : State) (d : Desc), s.blk.dmaReady 1 = true → descCode 1 d = 0 → s.blk.cav.corr = [] → s.blk.cav.uncorr = [] →
    ∃ t, exec (.dmaDescriptor 1 d [] []) s = .next t ∧
      (∀ i < d.len.toNat, Out.hostWrite (d.haddr.toNat + i * dmaUnit d)
        (bytesOf (s.blk.cavGet (d.caddr.toNat + i)).toNat 0 (dmaUnit d)) false ∈ t.blk.out) ∧
      Out.hostWrite (s.blk.dmaAt 1 + 24) (bytesOf 1 0 8) false ∈ t.blk.out ∧
      FrameF [DMA_HEAD_HEAD 1, HOST_DBCAUSE_DMA] [] s t) ∧
  (∀ (s : State) (d : Desc) (data : List Byte), s.blk.dmaReady 2 = true → descCode 2 d = 0 →
    s.blk.flag (SWC_IG_STAT_XOFF 32) = false →
    ∃ t, exec (.dmaDescriptor 2 d data []) s = .next t ∧
      (∃ f : InFrame, t.blk.sw.ingress = s.blk.sw.ingress ++ [f] ∧ f.src = 32 ∧ f.bytes = data.take d.len.toNat ∧
        f.cls = d.cls.toNat ∧ f.bad = 0) ∧
      Out.hostWrite (s.blk.dmaAt 2 + 24) (bytesOf 1 0 8) false ∈ t.blk.out ∧
      Frame [DMA_HEAD_HEAD 2, HOST_DBCAUSE_DMA, EVT_PEND_PEND, EVT_OVR_OVR] [.sw, .host, .out] s t) ∧
  (∀ (s : State) (n : Fin 4) (d : Desc) (data : List Byte), s.blk.dmaReady n = true → descCode n d ≠ 0 →
    ∃ t, exec (.dmaDescriptor n d data []) s = .next t ∧
      Out.hostWrite (s.blk.dmaAt n + 24) (bytesOf (1 + descCode n d * 16) 0 8) false ∈ t.blk.out ∧
      Frame [DMA_HEAD_HEAD n, HOST_DBCAUSE_DMA, EVT_PEND_PEND, EVT_OVR_OVR] [.host, .out] s t) ∧
  (∀ (s : State) (d : Desc) (ups : List CellUpset) (b b1 : Block) (x : Copy) (sf : SFrame), s.blk.dmaReady 3 = true →
    descCode 3 d = 0 → s.blk.flag (SWC_PORT_CTL_EN 32) = true →
    b = (s.blk.reachPhys (s.blk.leaveAt 32)).fetchAhead 32 ups 0 (s.blk.sw.copies.filter (fun y => y.port == 32)) →
    b.nextCopy 32 40 = (b1, some x) → b1.frameOf x.fid = some sf → sf.errs.any (·.ue) = false →
    ∃ t, exec (.dma3FrameDeliver d ups) s = .next t ∧
      Out.hostWrite d.haddr.toNat (b1.hostBytes sf.f ++ fcsOf (b1.hostBytes sf.f)) false ∈ t.blk.out ∧
      t.blk.cav = b1.cav ∧ t.pending = s.pending) ∧
  (∀ (s : State) (n : Fin 4) (addr : Half), s.blk.dmaReady n = true → ∃ t, exec (.dmaCplTimeout n addr) s = .next t ∧
    t.blk.flag (DMA_CTL_HALT n) = true ∧ t.blk.get (DMA_CTL_ERR n) = 1 ∧ t.blk.get HOST_ERRCAUSE_CODE = 7 ∧
    t.blk.tm.phys = s.blk.tm.phys + s.blk.get HOST_CTO_MS * 1000000 * nsUnit ∧
    Frame [DMA_CTL_HALT n, DMA_CTL_ERR n, HOST_ERRCAUSE_CODE, HOST_ERRCAUSE_CNT, HOST_ERRADDR_ADDR, EVT_PEND_PEND,
      EVT_OVR_OVR] [.tm, .host, .out] s t) ∧
  (∀ (s : State) (n : Fin 4) (err : Fin 3) (addr : Half), s.blk.dmaReady n = true →
    ∃ t, exec (.dmaCplError n err addr) s = .next t ∧
      t.blk.flag (DMA_CTL_HALT n) = true ∧ t.blk.get (DMA_CTL_ERR n) = 2 + err.val ∧ t.blk.get HOST_ERRCAUSE_CODE = 8 ∧
      Frame [DMA_CTL_HALT n, DMA_CTL_ERR n, HOST_ERRCAUSE_CODE, HOST_ERRCAUSE_CNT, HOST_ERRADDR_ADDR, EVT_PEND_PEND,
        EVT_OVR_OVR] [.host, .out] s t) ∧
  (∀ (s : State) (n : Fin 4), s.blk.hostFree = true → ∃ t, exec (.dmaDisable n none 0) s = .next t ∧
    t.blk.flag (DMA_CTL_EN n) = false ∧ Frame [DMA_CTL_EN n] [] s t) ∧
  (∀ (s : State) (n : Fin 4) (d : Desc) (data : List Byte) (moved : Nat), s.blk.hostFree = true → s.blk.dmaReady n = true →
    ∃ t, exec (.dmaDisable n (some (d, data)) moved) s = .next t ∧ t.blk.flag (DMA_CTL_EN n) = false ∧
      t.blk.get (DMA_HEAD_HEAD n) = (s.blk.get (DMA_HEAD_HEAD n) + 1) % 2 ^ s.blk.get (DMA_SIZE_LOG2 n) % 2 ^ 16 ∧
      Out.hostWrite (s.blk.dmaAt n + 24) (bytesOf 17 0 8) false ∈ t.blk.out ∧ t.pending = s.pending) ∧
  (∀ (s : State) (n : Fin 4) (data : Half), s.blk.hostFree = true → (s.blk.dmaReady n = true → data.getLsbD 0 = true) →
    ∃ t, exec (.dmaResume n data) s = .next t ∧
    t.blk.flag (DMA_CTL_EN n) = data.getLsbD 0 ∧ t.blk.flag (DMA_CTL_HALT n) = false ∧ t.blk.get (DMA_CTL_ERR n) = 0 ∧
    Frame [DMA_CTL_EN n, DMA_CTL_HALT n, DMA_CTL_ERR n] [] s t) ∧
  (∀ (s : State) (n : Fin 4) (data : Half), s.blk.hostFree = true → s.blk.dmaReady n = true → data.getLsbD 0 = false →
    ∃ t, exec (.dmaResume n data) s = .next t ∧ t.blk.flag (DMA_CTL_EN n) = false ∧
      t.blk.get (DMA_HEAD_HEAD n) = (s.blk.get (DMA_HEAD_HEAD n) + 1) % 2 ^ s.blk.get (DMA_SIZE_LOG2 n) % 2 ^ 16 ∧
      t.blk.out = .hostWrite (s.blk.dmaAt n + 24) (bytesOf 17 0 8) false :: s.blk.out ∧
      Frame [DMA_CTL_EN n, DMA_CTL_HALT n, DMA_CTL_ERR n, DMA_HEAD_HEAD n] [.out] s t)

/-! ### Cycles, the maintenance slot and profiles -/

/-- R18, R24 to R27, R174, Table 1-2: a write of SYS_CYCLE stores PERIOD and PHASE, a reserved value leaving its field. With ARM
they wait for the next boundary while cycles run, and come into force at once otherwise. RUN with cycles stopped puts them in
force and makes the first boundary the earliest grid instant at least 2 µs ahead; RUN 0 stops cycles after the one in progress,
and RUN 1 before its end withdraws the stop. At the boundary due the next cycle starts at that instant if RUN is set, its
trigger is due 10 ns later and its own end is a later instant of the grid; with RUN clear cycles have stopped.
Choices and readings of the model: log entries 6 and 70. -/
def Obligations.Cycles : Prop :=
  (∀ (s : State) (i : Instr) (data : Half) (arm : Bool),
    (i = .cycleArm data ∧ arm = true ∨ i = .cycleRunWrite data ∧ arm = data.getLsbD 24) →
    s.blk.hostFree = true → s.blk.synced = false → s.blk.cycling = true → data.getLsbD 25 = true →
    ∃ t, exec i s = .next t ∧ s.blk.storedFrom t.blk data ∧ t.blk.flag SYS_CYCLE_RUN = true ∧
      t.blk.cyc = { s.blk.cyc with armPend := s.blk.cyc.armPend || arm } ∧
      Frame [SYS_CYCLE_PERIOD, SYS_CYCLE_PHASE, SYS_CYCLE_RUN] [.cyc] s t) ∧
  (∀ (s : State) (i : Instr) (data : Half) (arm : Bool),
    (i = .cycleArm data ∧ arm = true ∨ i = .cycleRunWrite data ∧ arm = data.getLsbD 24) →
    s.blk.hostFree = true → s.blk.synced = false → s.blk.cyc.inProg = true → data.getLsbD 25 = false →
    ∃ t, exec i s = .next t ∧ s.blk.storedFrom t.blk data ∧ t.blk.flag SYS_CYCLE_RUN = false ∧
      t.blk.cyc = { s.blk.cyc with armPend := s.blk.cyc.armPend || arm } ∧
      Frame [SYS_CYCLE_PERIOD, SYS_CYCLE_PHASE, SYS_CYCLE_RUN] [.cyc] s t) ∧
  (∀ (s : State) (data : Half), s.blk.hostFree = true → s.blk.synced = false → s.blk.cycling = false →
    data.getLsbD 25 = false → data.getLsbD 24 = false →
    ∃ t, exec (.cycleRunWrite data) s = .next t ∧ s.blk.storedFrom t.blk data ∧
      Frame [SYS_CYCLE_PERIOD, SYS_CYCLE_PHASE] [] s t) ∧
  (∀ (s : State) (i : Instr) (data : Half), (i = .cycleArm data ∨ i = .cycleRunWrite data ∧ data.getLsbD 24 = true) →
    s.blk.hostFree = true → s.blk.synced = false → s.blk.cycling = false → data.getLsbD 25 = false →
    ∃ t, exec i s = .next t ∧ s.blk.storedFrom t.blk data ∧ s.blk.forceFrom t.blk data ∧
      t.blk.flag SYS_CYCLE_RUN = false ∧ t.blk.get SYS_CYCLE_TRANS = s.blk.get SYS_CYCLE_TRANS ∧
      t.blk.cyc = s.blk.cyc ∧ FrameOn periodTouch [.host, .out] s t) ∧
  (∀ (s : State) (i : Instr) (data : Half) (arm : Bool),
    (i = .cycleArm data ∧ arm = true ∨ i = .cycleRunWrite data ∧ arm = data.getLsbD 24) →
    s.blk.hostFree = true → s.blk.synced = false → s.blk.cycling = false → data.getLsbD 25 = true →
    ∃ t, exec i s = .next t ∧ s.blk.storedFrom t.blk data ∧ s.blk.forceFrom t.blk data ∧
      t.blk.flag SYS_CYCLE_RUN = true ∧ t.blk.get SYS_CYCLE_TRANS = s.blk.get SYS_CYCLE_TRANS ∧ t.blk.cyc.armPend = false ∧
      (0 < t.blk.get SYS_CYCLE_PERIN → ∃ F : Nat, t.blk.cyc.firstAt = some F ∧ s.blk.nowNs + 2000 ≤ F ∧
        F < s.blk.nowNs + 2001 + t.blk.get SYS_CYCLE_PERIN * 1000 ∧
        ((F : Int) - t.blk.get SYS_CYCLE_PHIN * 1000) % (t.blk.get SYS_CYCLE_PERIN * 1000) = 0) ∧
      FrameOn periodTouch [.cyc, .host, .out] s t) ∧
  (∀ (s : State) (i : Instr) (data : Half) (arm : Bool),
    (i = .cycleArm data ∧ arm = true ∨ i = .cycleRunWrite data ∧ arm = data.getLsbD 24) →
    s.blk.hostFree = true → s.blk.synced = false → s.blk.flag SYS_CYCLE_RUN = true → s.blk.cyc.inProg = false →
    data.getLsbD 25 = false →
    ∃ t, exec i s = .next t ∧ s.blk.storedFrom t.blk data ∧ t.blk.flag SYS_CYCLE_RUN = false ∧
      t.blk.cyc = { s.blk.cyc with armPend := false, firstAt := none } ∧
      ((arm || s.blk.cyc.armPend) = true → s.blk.forceFrom t.blk data) ∧ FrameOn periodTouch [.cyc, .host, .out] s t) ∧
  (∀ (s : State) (T : Nat), (if s.blk.cyc.inProg then some s.blk.cyc.next else s.blk.cyc.firstAt) = some T →
    ∃ t, exec .cycleBoundary s = .next t ∧ t.blk.cyc.inProg = t.blk.flag SYS_CYCLE_RUN ∧ t.blk.cyc.firstAt = none ∧
      t.blk.cyc.slotUsed = 0 ∧ t.blk.cyc.triggerAt = (if t.blk.flag SYS_CYCLE_RUN then some (T + 10) else none) ∧
      (t.blk.cyc.inProg = true → t.blk.cyc.start = T ∧ t.blk.cyc.slotDone = false ∧
        (0 < t.blk.get SYS_CYCLE_PERIN → T < t.blk.cyc.next ∧
          ((t.blk.cyc.next : Int) - t.blk.get SYS_CYCLE_PHIN * 1000) % (t.blk.get SYS_CYCLE_PERIN * 1000) = 0)) ∧
      t.pending = s.pending)

/-- R31 to R33, R35, R183, R461: the slot register is stored and fitted, the slot opens at LATEST and on the idle grid for its
length in force and closes, and LWM_CLR returns every low-water register to its reset value.
Choices and readings of the model: log entries 2 and 28. -/
def Obligations.SlotAndLowWater : Prop :=
  (∀ (s : State) (data : Half), s.blk.hostFree = true → s.blk.synced = false → s.blk.slotLenOk (data.toNat % 2 ^ 8) = true →
    data.toNat / 2 ^ 12 % 2 ^ 12 ≤ s.blk.get SYS_CYCLE_PERIN - data.toNat % 2 ^ 8 →
    ∃ t, exec (.mslotWrite data) s = .next t ∧
      t.blk.get SYS_MSLOT_LEN = data.toNat % 2 ^ 8 ∧ t.blk.get SYS_MSLOT_LENF = data.toNat % 2 ^ 8 ∧
      t.blk.get SYS_MSLOT_ENG = data.toNat / 2 ^ 8 % 16 ∧
      t.blk.get SYS_MSLOT_LATEST = data.toNat / 2 ^ 12 % 2 ^ 12 ∧ t.blk.get SYS_MSLOT_LATF = data.toNat / 2 ^ 12 % 2 ^ 12 ∧
      t.blk.flag SYS_MSLOT_CLAMP = false ∧
      Frame [SYS_MSLOT_LEN, SYS_MSLOT_ENG, SYS_MSLOT_LATEST, SYS_MSLOT_CLAMP, SYS_MSLOT_LENF, SYS_MSLOT_LATF] [] s t) ∧
  (∀ (s : State) (scrub : List (Fin 16 × BitVec 16 × Bool)), s.blk.cyc.inProg = true → s.blk.cyc.slotDone = false →
    ∃ t, exec (.slotOpenLatest scrub) s = .next t ∧ t.blk.cyc.slotDone = true ∧
      t.blk.cyc.slotClose = some (t.blk.nowNs + s.blk.get SYS_MSLOT_LENF * 1000) ∧ t.pending = s.pending) ∧
  (∀ s : State, s.blk.cyc.inProg = true → s.blk.cyc.slotDone = false → nothingServed s.blk →
    ∃ t, exec (.slotOpenLatest []) s = .next t ∧ s.blk.cyc.start + s.blk.slotOffset * 1000 ≤ t.blk.nowNs ∧
      (∀ e : Fin 16, t.blk.eng[e] = scrubbed s.blk e (s.blk.get SYS_MSLOT_LENF)) ∧
      Frame [CAL_STAT_QDEPTH, CAL_STAT_BUSY] [.cyc, .tm, .eng] s t) ∧
  (∀ (s : State) (scrub : List (Fin 16 × BitVec 16 × Bool)), s.blk.cyc.inProg = false →
    ∃ t, exec (.idleSlotOpen scrub) s = .next t ∧
      t.blk.cyc.slotClose = some (t.blk.nowNs + min 31 (s.blk.get SYS_MSLOT_LENF) * 1000) ∧ t.pending = s.pending) ∧
  (∀ s : State, s.blk.cyc.inProg = false → nothingServed s.blk →
    ∃ t, exec (.idleSlotOpen []) s = .next t ∧ t.blk.nowNs % 125000 = 0 ∧ s.blk.nowNs < t.blk.nowNs ∧
      (∀ e : Fin 16, t.blk.eng[e] = scrubbed s.blk e (min 31 (s.blk.get SYS_MSLOT_LENF))) ∧
      Frame [CAL_STAT_QDEPTH, CAL_STAT_BUSY] [.cyc, .tm, .eng] s t) ∧
  (∀ (s : State) (c : Nat), s.blk.cyc.slotClose = some c → ∃ t, exec .maintSlotClose s = .next t ∧
    t.blk.cyc.slotClose = none ∧ c ≤ t.blk.nowNs ∧ Frame [] [.cyc, .tm] s t) ∧
  (∀ s : State, s.blk.hostFree = true → ∃ t, exec .lwmClr s = .next t ∧
    (∀ n < 16, t.blk.get (SYS_LWM_GAL_MIN n) = 0x3FFFFF ∧ t.blk.flag (SYS_LWM_GAL_OVR n) = false ∧
      t.blk.get (GAL_SLACK_MIN n) = 0x3FFFFF) ∧
    t.blk.get SYS_LWM_FLW_MIN = 0x3FFFFF ∧ t.blk.get SYS_LWM_RING_MIN = 0xFFFFFF ∧ t.blk.get SYS_LWM_CELL_MIN = 0xFFFF ∧
    t.blk.get SYS_LWM_SLOT_MIN = 0xFFFF ∧
    (∀ a, (∀ n < 16, a ≠ SYS_LWM_GAL n ∧ a ≠ GAL_SLACK n) → a ≠ SYS_LWM_FLW → a ≠ SYS_LWM_RING → a ≠ SYS_LWM_CELL →
      a ≠ SYS_LWM_SLOT → t.blk.reg a = s.blk.reg a) ∧ s.blk.only [] t.blk ∧ t.pending = s.pending)

/-- R37, R38, R40, R41, R603: GO opens a request, SEL is sampled 1 µs before the boundary and checked, with no cycle in
progress the change follows 1 µs after GO; a drain into LEAN ends, or is refused after 100 ms; the way out of LEAN waits
for PD6.
Choices and readings of the model: log entry 41. -/
def Obligations.Profiles : Prop :=
  (∀ (s : State) (data : Half), s.blk.hostFree = true → s.blk.synced = false → s.blk.get SYS_PROFILE_STAT ≠ 1 →
    (s.blk.get SYS_PROFILE_STAT = 2 → data.toNat % 4 ≠ 3) →
    ∃ t, exec (.profileGo data) s = .next t ∧ t.blk.get SYS_PROFILE_SEL = data.toNat % 4 ∧
      t.blk.get SYS_PROFILE_STAT = 1 ∧ t.blk.cyc.goAt = some s.blk.tm.phys ∧ t.blk.cyc.drainTo = none ∧
      Frame [SYS_PROFILE_SEL, SYS_PROFILE_STAT] [.cyc] s t) ∧
  (∀ (s : State) (data : Half), s.blk.hostFree = true → s.blk.synced = false →
    (s.blk.get SYS_PROFILE_STAT = 1 ∨ (s.blk.get SYS_PROFILE_STAT = 2 ∧ data.toNat % 4 = 3)) →
    ∃ t, exec (.profileGo data) s = .next t ∧ t.blk.get SYS_PROFILE_SEL = data.toNat % 4 ∧ Frame [SYS_PROFILE_SEL] [] s t) ∧
  (∀ (s : State) (g : Nat), s.blk.cyc.goAt = some g → s.blk.cyc.inProg = true →
    s.blk.nowNs ≤ s.blk.cyc.next - 1000 → s.blk.profCode (s.blk.get SYS_PROFILE_SEL) = 0 →
    s.blk.get SYS_PROFILE_SEL ≠ 3 → s.blk.profile ≠ 3 → s.blk.paired = false →
    ∃ t, exec .profileSample s = .next t ∧ t.blk.cyc.sampled = some (s.blk.get SYS_PROFILE_SEL) ∧
      t.blk.cyc.goAt = none ∧ s.blk.cyc.next - 1000 ≤ t.blk.nowNs ∧ Frame [] [.cyc, .tm] s t) ∧
  (∀ (s : State) (g : Nat), s.blk.cyc.goAt = some g → s.blk.cyc.inProg = true → s.blk.cyc.leanExit = none →
    s.blk.nowNs ≤ s.blk.cyc.next - 1000 → s.blk.profCode (s.blk.get SYS_PROFILE_SEL) ≠ 0 → s.blk.paired = false →
    ∃ t, exec .profileSample s = .next t ∧
      t.blk.get SYS_PROFILE_STAT = s.blk.profCode (s.blk.get SYS_PROFILE_SEL) ∧ t.blk.cyc.goAt = none ∧
      t.blk.profile = s.blk.profile ∧ Frame [SYS_PROFILE_STAT] [.cyc, .tm] s t) ∧
  (∀ (s : State) (g : Nat), s.blk.cyc.goAt = some g → s.blk.cyc.inProg = true → s.blk.nowNs ≤ s.blk.cyc.next - 1000 →
    s.blk.profCode 3 = 0 → s.blk.get SYS_PROFILE_SEL = 3 → s.blk.profile ≠ 3 →
    ∃ t, exec .profileSample s = .next t ∧ t.blk.cyc.drainTo = some (t.blk.tm.phys + 100000000 * nsUnit) ∧
      t.blk.get SYS_PROFILE_STAT = 2 ∧ t.blk.cyc.goAt = none ∧ Frame [SYS_PROFILE_STAT] [.cyc, .tm] s t) ∧
  (∀ (s : State) (g : Nat), s.blk.cyc.goAt = some g → s.blk.cyc.inProg = true → s.blk.nowNs ≤ s.blk.cyc.next - 1000 →
    s.blk.profCode (s.blk.get SYS_PROFILE_SEL) = 0 → s.blk.get SYS_PROFILE_SEL ≠ 3 → s.blk.profile = 3 →
    ∃ t, exec .profileSample s = .next t ∧ t.blk.cyc.leanExit = some (s.blk.get SYS_PROFILE_SEL) ∧
      bitAt (t.blk.get PWR_STAT_DOMON) 6 = true ∧ t.blk.cyc.goAt = none ∧ Frame [PWR_STAT_DOMON] [.cyc, .tm] s t) ∧
  (∀ (s : State) (g : Nat), s.blk.noCycle = true → s.blk.cyc.goAt = some g →
    s.blk.profCode (s.blk.get SYS_PROFILE_SEL) = 0 → s.blk.get SYS_PROFILE_SEL ≠ 3 → s.blk.profile ≠ 3 →
    s.blk.paired = false → s.blk.enginesRest →
    ∃ t, exec .profileSampleIdle s = .next t ∧ t.blk.profile = s.blk.get SYS_PROFILE_SEL ∧
      t.blk.get SYS_PROFILE_STAT = 0 ∧ g + 1000 * nsUnit ≤ t.blk.tm.phys ∧
      t.blk.cav = s.blk.cav ∧ t.blk.eng = s.blk.eng ∧ t.pending = s.pending) ∧
  (∀ (s : State) (d : Nat), s.blk.cyc.drainTo = some d → s.blk.cyc.sampled = none → s.blk.drained = true →
    s.blk.paired = false → s.blk.noCycle = false →
    ∃ t, exec .leanDrainDone s = .next t ∧ t.blk.cyc.sampled = some 3 ∧ Frame [] [.cyc] s t) ∧
  (∀ (s : State) (d : Nat), s.blk.cyc.drainTo = some d → s.blk.cyc.sampled = none → s.blk.drained = true →
    s.blk.paired = false → s.blk.noCycle = true →
    ∃ t, exec .leanDrainDone s = .next t ∧ t.blk.profile = 3 ∧ t.blk.get SYS_PROFILE_STAT = 0 ∧ t.blk.cav = s.blk.cav ∧
      t.pending = s.pending) ∧
  (∀ (s : State) (d : Nat), s.blk.cyc.drainTo = some d → s.blk.drainMakesIt d = false → s.blk.cyc.leanExit = none →
    s.blk.paired = false →
    ∃ t, exec .refusedDrain s = .next t ∧ t.blk.get SYS_PROFILE_STAT = 7 ∧ t.blk.cyc.drainTo = none ∧
      d ≤ t.blk.tm.phys ∧ Frame [SYS_PROFILE_STAT] [.cyc, .tm] s t) ∧
  (∀ (s : State) (p : Nat), s.blk.cyc.leanExit = some p → s.blk.cyc.sampled = none → s.blk.paired = false →
    s.blk.noCycle = false →
    ∃ t, exec .leanExitReady s = .next t ∧ t.blk.cyc.sampled = some p ∧ Frame [] [.cyc] s t) ∧
  (∀ (s : State) (p : Nat), p < 4 → s.blk.cyc.leanExit = some p → s.blk.cyc.sampled = none → s.blk.paired = false →
    s.blk.noCycle = true →
    ∃ t, exec .leanExitReady s = .next t ∧ t.blk.profile = p ∧ t.blk.get SYS_PROFILE_STAT = 0 ∧ t.blk.cav = s.blk.cav ∧
      t.pending = s.pending)

/-! ### Time -/

/-- R10, R103, R106, R107, R131: a capture takes the time scale; ADJ steps, slews or sets it, turns a step into a slew while
cycles run, and is refused while a slew is in progress; a slew ends with BUSY clear; a trim window stores TRIM.
Choices and readings of the model: log entries 63, 64 and 72. -/
def Obligations.TimeScale : Prop :=
  (∀ s : State, s.blk.hostFree = true → s.blk.synced = false → ∃ t, exec .ltCapture s = .next t ∧
    t.blk.get LAN_CAPLT_SEC = s.blk.tm.lt / (10 ^ 9 * nsUnit) % 2 ^ 64 ∧ t.blk.get LAN_CAPLT_QUAL = s.blk.get LAN_STAT_QUAL ∧
    t.blk.get LAN_CAPLTL_NS = s.blk.tm.lt / nsUnit % 10 ^ 9 ∧ t.blk.get LAN_CAPLTL_FRAC = s.blk.tm.lt / 2 ^ 24 % 2 ^ 16 ∧
    t.blk.reg LAN_CAPSTW = BitVec.ofNat 72 (s.blk.tm.lt / 2 ^ 24) ∧
    t.blk.get LAN_CAP_SEQ = (s.blk.get LAN_CAP_SEQ + 1) % 2 ^ LAN_CAP_SEQ.w ∧
    Frame [⟨LAN_CAPLT, 0, 72⟩, ⟨LAN_CAPLTL, 0, 72⟩, ⟨LAN_CAPSTW, 0, 72⟩, LAN_CAP_SEQ] [] s t) ∧
  (∀ s : State, s.blk.hostFree = true → s.blk.synced = false → s.blk.flag LAN_ADJ_BUSY = false → s.blk.flag SYS_CYCLE_RUN = false →
    ∃ t, exec .timeStep s = .next t ∧
      t.blk.tm.lt = ((s.blk.tm.lt : Int) + s.blk.geti LAN_ADJ_OFFSET * 2 ^ 24).toNat ∧ t.blk.tm.phys = s.blk.tm.phys ∧
      t.blk.flag LAN_ADJ_REFUSED = false ∧ Frame [LAN_ADJ_MODE, LAN_ADJ_REFUSED] [.tm] s t) ∧
  (∀ s : State, s.blk.hostFree = true → s.blk.synced = false → s.blk.flag LAN_ADJ_BUSY = false → s.blk.geti LAN_ADJ_OFFSET ≠ 0 →
    s.blk.flag SYS_CYCLE_RUN = true →
    ∃ t, exec .timeStep s = .next t ∧ t.blk.tm.lt = s.blk.tm.lt ∧
      t.blk.tm.slewRem = s.blk.geti LAN_ADJ_OFFSET * 2 ^ 24 ∧ t.blk.flag LAN_ADJ_BUSY = true ∧
      t.blk.flag LAN_STAT_SLEW = true ∧
      Frame [LAN_ADJ_MODE, LAN_ADJ_REFUSED, LAN_ADJ_BUSY, LAN_STAT_SLEW] [.tm] s t) ∧
  (∀ s : State, s.blk.hostFree = true → s.blk.synced = false → s.blk.flag LAN_ADJ_BUSY = false → s.blk.geti LAN_ADJ_OFFSET ≠ 0 →
    ∃ t, exec .timeSlew s = .next t ∧ t.blk.tm.lt = s.blk.tm.lt ∧
      t.blk.tm.slewRem = s.blk.geti LAN_ADJ_OFFSET * 2 ^ 24 ∧ t.blk.tm.slewRate = s.blk.get LAN_SLEW_MAX ∧
      t.blk.flag LAN_ADJ_BUSY = true ∧ t.blk.flag LAN_STAT_SLEW = true ∧
      Frame [LAN_ADJ_MODE, LAN_ADJ_REFUSED, LAN_ADJ_BUSY, LAN_STAT_SLEW] [.tm] s t) ∧
  (∀ s : State, s.blk.hostFree = true → s.blk.synced = false → s.blk.flag LAN_ADJ_BUSY = false → s.blk.flag SYS_CYCLE_RUN = false →
    s.blk.get LAN_SETLTL_NS < 10 ^ 9 →
    ∃ t, exec .timeSet s = .next t ∧ t.blk.tm.everSet = true ∧ t.blk.flag LAN_ADJ_REFUSED = false ∧
      t.blk.tm.lt = (s.blk.get LAN_SETLT_SEC * 10 ^ 9 + s.blk.get LAN_SETLTL_NS) * nsUnit + s.blk.get LAN_SETLTL_FRAC * 2 ^ 24 ∧
      Frame [LAN_ADJ_MODE, LAN_ADJ_REFUSED, LAN_STAT_QUAL, LAN_QCAUSE_OLDQ, LAN_QCAUSE_NEWQ, LAN_QCAUSE_QCHG,
        LAN_EST_UNC_VALID, EVT_PEND_PEND, EVT_OVR_OVR] [.tm, .host, .out] s t) ∧
  (∀ s : State, s.blk.hostFree = true → s.blk.synced = false →
    (s.blk.flag LAN_ADJ_BUSY = true ∨ s.blk.flag SYS_CYCLE_RUN = true ∨ 10 ^ 9 ≤ s.blk.get LAN_SETLTL_NS) →
    ∃ t, exec .timeSet s = .next t ∧ t.blk.flag LAN_ADJ_REFUSED = true ∧ Frame [LAN_ADJ_MODE, LAN_ADJ_REFUSED] [] s t) ∧
  (∀ s : State, (s.blk.tm.slewKind = .host ∨ s.blk.tm.slewKind = .servo) → 0 < s.blk.tm.slewRate → ∃ t, exec .slewEnd s = .next t ∧
    t.blk.tm.slewRem = 0 ∧ t.blk.flag LAN_ADJ_BUSY = false ∧ t.blk.flag LAN_STAT_SLEW = false ∧
    s.blk.tm.phys ≤ t.blk.tm.phys ∧ Frame [LAN_ADJ_BUSY, LAN_STAT_SLEW] [.tm] s t) ∧
  (∀ (s : State) (n : Nat), bitAt (s.blk.get PWR_STAT_DOMON) 2 = false → ∃ t, exec (.aontrimWindow n) s = .next t ∧
    Frame [] [] s t) ∧
  (∀ (s : State) (n : Nat), bitAt (s.blk.get PWR_STAT_DOMON) 2 = true → 0 < n → ∃ t, exec (.aontrimWindow n) s = .next t ∧
    t.blk.get LAN_AONTRIM_TRIM = ofSigned 32 ((524288 * 2 ^ 40 : Int) / n - 2 ^ 40) ∧
    (s.blk.get LAN_STAT_QUAL ≤ 1 → t.blk.flag LAN_AONTRIM_VALID = true) ∧
    t.blk.tm.aonWin = s.blk.tm.aonWin + 16000000000 * nsUnit ∧
    t.blk.tm.phys = max s.blk.tm.phys (s.blk.tm.aonWin + 16000000000 * nsUnit) ∧
    Frame [LAN_AONTRIM_TRIM, LAN_AONTRIM_VALID] [.tm] s t)

/-! ### Line axes and encoders -/

/-- R110 to R112, R116, R117, R119, R606: a write of SRC restarts the axis from OFF; RESTART takes the base out of the
estimator; a sample instant applies the latest edge, an SSI frame its value or an error, a mains zero crossing one unit.
Choices and readings of the model: log entries 2, 6 and 72. -/
def Obligations.AxisSamples : Prop :=
  (∀ (s : State) (n : Fin 16) (data : Half), s.blk.hostFree = true → s.blk.synced = false → data.toNat % 8 ≤ 4 →
    data.toNat % 8 ≠ s.blk.get (LAN_AXCFG_SRC n) →
    ∃ t, exec (.axisSrcWrite n data) s = .next t ∧ t.blk.get (LAN_AXCFG_SRC n) = data.toNat % 8 ∧
      t.blk.axState n = (if data.toNat % 8 = 0 then 0 else 1) ∧ t.blk.get (LAN_AXSTAT_NSAMP n) = 0 ∧
      t.blk.get (LAN_AXKCTL_FREE n) = 4 ∧ (t.blk.axes[n]).base = 0 ∧ (t.blk.axes[n]).queue = [] ∧
      (∀ m : Fin 16, m ≠ n → t.blk.axes[m] = s.blk.axes[m]) ∧ FrameOn (axisRegs n) [.axes, .eng, .host, .out] s t) ∧
  (∀ (s : State) (n : Fin 16) (data : Half), s.blk.hostFree = true → s.blk.synced = false → data.toNat % 8 = s.blk.get (LAN_AXCFG_SRC n) →
    s.blk.axState n ≠ 4 →
    ∃ t, exec (.axisRestart n data) s = .next t ∧ (t.blk.axes[n]).base = 0 ∧
      (t.blk.axes[n]).p = (s.blk.axes[n]).p - (s.blk.axes[n]).base * 2 ^ 24 ∧ (t.blk.axes[n]).zArmed = true ∧
      t.blk.axState n = s.blk.axState n ∧
      (∀ m : Fin 16, m ≠ n → t.blk.axes[m] = s.blk.axes[m]) ∧ FrameOn (axisRegs n) [.axes] s t) ∧
  (∀ (s : State) (n : Fin 16), s.blk.synced = false → s.blk.get (LAN_AXCFG_SRC n) = 1 → s.blk.axState n = 2 →
    s.blk.get (ENC_CFG_MODE (s.blk.get (LAN_AXCFG_ENC n))) ≠ 3 → s.blk.lineFault n = false →
    (s.blk.encOf n).faults = (s.blk.axes[n]).faultsSeen → (s.blk.encOf n).idxNew = (s.blk.axes[n]).idxSeen →
    (s.blk.encOf n).edgeNew ≠ (s.blk.axes[n]).edgeSeen → sampleCounts (s.blk.axes[n]) (s.blk.encOf n).edge = true →
    ∃ t, exec (.axisSample n) s = .next t ∧
      (let y := applySample (s.blk.axes[n]) (s.blk.samplePos n (s.blk.encOf n).count * 2 ^ 24) (s.blk.encOf n).edge
          (s.blk.gainSet n)
       (t.blk.axes[n]).p = y.p ∧ (t.blk.axes[n]).v = y.v ∧ (t.blk.axes[n]).a = y.a ∧ (t.blk.axes[n]).s0 = y.s0) ∧
      t.blk.get (LAN_AXSTAT_NSAMP n) = sat (2 ^ (LAN_AXSTAT_NSAMP n).w - 1) (s.blk.get (LAN_AXSTAT_NSAMP n) + 1) ∧
      (t.blk.axes[n]).faultRun = 0 ∧ (∀ m : Fin 16, m ≠ n → t.blk.axes[m] = s.blk.axes[m]) ∧
      FrameOn (axisRegs n) [.axes, .eng, .tm, .free] s t) ∧
  (∀ (s : State) (n : Fin 16) (e : Nat) (bits : BitVec 40) (par err high : Bool), s.blk.synced = false →
    (s.blk.axes[n]).ssiBusy = true → s.blk.get (LAN_AXCFG_ENC n) = e →
    (high = false ∨ (s.blk.flag (ENC_SSI_ERRB e) = true ∧ err = true) ∨
      (s.blk.flag (ENC_SSI_PAR e) = true ∧ (popcount (bits.toNat % 2 ^ s.blk.get (ENC_SSI_BITS e)) 40 + b2n par) % 2 = 1)) →
    ∃ t, exec (.ssiFrameDone n bits par err high) s = .next t ∧
      t.blk.get (ENC_STAT_SSIERR e) = sat (2 ^ (ENC_STAT_SSIERR 0).w - 1) (s.blk.get (ENC_STAT_SSIERR e) + 1) ∧
      (∀ m : Fin 16, s.blk.get (LAN_AXCFG_ENC m) = e → (t.blk.axes[m]).ssiBusy = false) ∧
      (∀ m : Fin 16, (s.blk.axes[m]).ssiBusy = false ∨ s.blk.get (LAN_AXCFG_ENC m) ≠ e → t.blk.axes[m] = s.blk.axes[m]) ∧
      t.blk.cav = s.blk.cav ∧ t.pending = s.pending) ∧
  (∀ (s : State) (n : Fin 16) (bits : BitVec 40), s.blk.synced = false → (s.blk.axes[n]).ssiBusy = true →
    s.blk.flag (ENC_SSI_PAR (s.blk.get (LAN_AXCFG_ENC n))) = false →
    s.blk.flag (ENC_SSI_ERRB (s.blk.get (LAN_AXCFG_ENC n))) = false →
    s.blk.flag (ENC_SSI_GRAY (s.blk.get (LAN_AXCFG_ENC n))) = false → (s.blk.axes[n]).ssiPrev = none →
    ∃ t, exec (.ssiFrameDone n bits false false true) s = .next t ∧ (t.blk.axes[n]).ssiBusy = false ∧
      (t.blk.axes[n]).raw = bits.toNat % 2 ^ s.blk.get (ENC_SSI_BITS (s.blk.get (LAN_AXCFG_ENC n))) ∧
      t.blk.get (ENC_STAT_SSIERR (s.blk.get (LAN_AXCFG_ENC n))) = s.blk.get (ENC_STAT_SSIERR (s.blk.get (LAN_AXCFG_ENC n))) ∧
      (∀ m : Fin 16, (s.blk.axes[m]).ssiBusy = false ∨ s.blk.get (LAN_AXCFG_ENC m) ≠ s.blk.get (LAN_AXCFG_ENC n) →
        t.blk.axes[m] = s.blk.axes[m]) ∧ t.blk.cav = s.blk.cav ∧ t.pending = s.pending) ∧
  (∀ (s : State) (dt : Nat), s.blk.synced = false → ∃ t, exec (.mainsZeroCrossing dt) s = .next t ∧
    t.blk.mainsLast = t.blk.physNs ∧ t.blk.tm.phys = s.blk.tm.phys + dt * nsUnit ∧
    (∀ n : Fin 16, (t.blk.axes[n]).raw =
      (s.blk.axes[n]).raw + (if s.blk.get (LAN_AXCFG_SRC n) = 2 then 1 else 0)) ∧
    t.blk.cav = s.blk.cav ∧ t.blk.encs = s.blk.encs ∧ t.pending = s.pending)

/-- R23, R114, R115, R118, log entry 12: with MODE 1 or 2 an edge of one channel counts by one and is stamped back by the
glitch filter, a change of both is an illegal transition, an accepted index is stamped, and CLR clears the error counts.
Which channel leads upwards is the model's choice of log entry 12. -/
def Obligations.Encoders : Prop :=
  (∀ (s : State) (e : Fin 4) (a b : Bool) (dt : Nat), s.blk.get (ENC_CFG_MODE e) ≠ 0 → s.blk.get (ENC_CFG_MODE e) ≠ 3 →
    ((s.blk.encs[e]).a ≠ a ↔ (s.blk.encs[e]).b = b) →
    ∃ t, exec (.encoderEdge e a b dt) s = .next t ∧
      (t.blk.encs[e]).count = (s.blk.encs[e]).count + quadStep (s.blk.encs[e]).a (s.blk.encs[e]).b a b ∧
      ((t.blk.encs[e]).count = (s.blk.encs[e]).count + 1 ∨ (t.blk.encs[e]).count = (s.blk.encs[e]).count - 1) ∧
      (t.blk.encs[e]).a = a ∧ (t.blk.encs[e]).b = b ∧ (t.blk.encs[e]).edgeNew = (s.blk.encs[e]).edgeNew + 1 ∧
      (t.blk.encs[e]).edge = t.blk.clockStamp 5 - BitVec.ofNat 72 (s.blk.get (ENC_CFG_GLITCH e) * 5 * 2 ^ 16) ∧
      (∀ m : Fin 4, m ≠ e → t.blk.encs[m] = s.blk.encs[m]) ∧ Frame [] [.encs, .tm] s t) ∧
  (∀ (s : State) (e : Fin 4) (a b : Bool) (dt : Nat), s.blk.get (ENC_CFG_MODE e) ≠ 0 → s.blk.get (ENC_CFG_MODE e) ≠ 3 →
    (s.blk.encs[e]).a ≠ a → (s.blk.encs[e]).b ≠ b →
    ∃ t, exec (.encoderEdge e a b dt) s = .next t ∧ (t.blk.encs[e]).count = (s.blk.encs[e]).count ∧
      (t.blk.encs[e]).faults = (s.blk.encs[e]).faults + 1 ∧
      t.blk.get (ENC_STAT_ILLEGAL e) = sat (2 ^ (ENC_STAT_ILLEGAL 0).w - 1) (s.blk.get (ENC_STAT_ILLEGAL e) + 1) ∧
      Frame [ENC_STAT_ILLEGAL e] [.encs, .tm] s t) ∧
  (∀ (s : State) (e : Fin 4) (dt : Nat), s.blk.get (ENC_CFG_MODE e) = 2 → ∃ t, exec (.indexPulse e dt) s = .next t ∧
    (t.blk.encs[e]).idxNew = (s.blk.encs[e]).idxNew + 1 ∧
    (t.blk.encs[e]).idx = t.blk.clockStamp 5 - BitVec.ofNat 72 (s.blk.get (ENC_CFG_GLITCH e) * 5 * 2 ^ 16) ∧
    (t.blk.encs[e]).count = (s.blk.encs[e]).count ∧
    (∀ m : Fin 4, m ≠ e → t.blk.encs[m] = s.blk.encs[m]) ∧ Frame [] [.encs, .tm] s t) ∧
  (∀ (s : State) (e : Fin 4), s.blk.hostFree = true → s.blk.synced = false → ∃ t, exec (.encStatClr e) s = .next t ∧
    t.blk.get (ENC_STAT_ILLEGAL e) = 0 ∧ t.blk.get (ENC_STAT_SSIERR e) = 0 ∧
    Frame [ENC_STAT_ILLEGAL e, ENC_STAT_SSIERR e] [] s t)

/-- R113, R124, R125, R127 to R129: knots are queued, come into force at KT, and overflow or come late; a capture and a
position-to-time request fill their registers; FAULTS clears; a recompute at the next microsecond keeps every engine's
registers.
Choices and readings of the model: log entries 6 and 72. -/
def Obligations.KnotsAndQueries : Prop :=
  (∀ (s : State) (n : Fin 16), s.blk.hostFree = true → s.blk.synced = false → 3 ≤ s.blk.get (LAN_AXCFG_SRC n) → (s.blk.axes[n]).queue.length < 4 →
    (s.blk.axes[n]).lastKT = none → before (s.blk.reg (LAN_AXKT n)) s.blk.stw = false →
    ∃ t, exec (.knotArm n) s = .next t ∧
      (t.blk.axes[n]).queue = (s.blk.axes[n]).queue ++
        [knotOf s.blk n] ∧
      t.blk.get (LAN_AXKCTL_FREE n) = 3 - (s.blk.axes[n]).queue.length ∧
      (∀ m : Fin 16, m ≠ n → t.blk.axes[m] = s.blk.axes[m]) ∧ Frame [LAN_AXKCTL_FREE n] [.axes] s t) ∧
  (∀ (s : State) (n : Fin 16), s.blk.hostFree = true → s.blk.synced = false → 3 ≤ s.blk.get (LAN_AXCFG_SRC n) → 4 ≤ (s.blk.axes[n]).queue.length →
    ∃ t, exec (.knotArm n) s = .next t ∧ t.blk.flag (LAN_AXKCTL_OVF n) = true ∧ Frame [LAN_AXKCTL_OVF n] [] s t) ∧
  (∀ (s : State) (n : Fin 16), s.blk.hostFree = true → s.blk.synced = false → 3 ≤ s.blk.get (LAN_AXCFG_SRC n) →
    (s.blk.axes[n]).queue.length < 4 → (s.blk.axes[n]).lastKT = none → before (s.blk.reg (LAN_AXKT n)) s.blk.stw = true →
    ∃ t, exec (.knotArm n) s = .next t ∧ (t.blk.axes[n]).knot = some (knotOf s.blk n) ∧
      (t.blk.axes[n]).queue = (s.blk.axes[n]).queue ∧ t.blk.flag (LAN_AXKCTL_LATE n) = true ∧
      (∀ m : Fin 16, m ≠ n → t.blk.axes[m] = s.blk.axes[m]) ∧ FrameOn (axisRegs n) [.axes, .host, .out] s t) ∧
  (∀ (s : State) (n : Fin 16) (k : Knot) (r : List Knot), (s.blk.axes[n]).queue = k :: r →
    ∃ t, exec (.knotEffect n) s = .next t ∧ (t.blk.axes[n]).knot = some k ∧ (t.blk.axes[n]).queue = r ∧
      before t.blk.stw k.t = false ∧ t.blk.get (LAN_AXEB_EB n) = 5000 ∧
      (s.blk.axState n = 1 → t.blk.axState n = 2) ∧
      (∀ m : Fin 16, m ≠ n → t.blk.axes[m] = s.blk.axes[m]) ∧
      FrameOn (axisRegs n) [.axes, .tm, .host, .out] s t) ∧
  (∀ (s : State) (n : Fin 16), s.blk.hostFree = true → s.blk.synced = false → ∃ t, exec (.axisFaultsClr n) s = .next t ∧
    t.blk.get (LAN_AXSTAT_FAULTS n) = 0 ∧ Frame [LAN_AXSTAT_FAULTS n] [] s t) ∧
  (∀ (s : State) (n : Fin 16), s.blk.hostFree = true → s.blk.synced = false → 1 ≤ s.blk.get (LAN_AXCFG_SRC n) → s.blk.get (LAN_AXCFG_SRC n) ≤ 2 →
    0 < (s.blk.axes[n]).applied →
    ∃ t, exec (.axisCapture n) s = .next t ∧ t.blk.reg (LAN_AXCAPT n) = (s.blk.axes[n]).s0 ∧
      t.blk.reg (LAN_AXCAPV n) = posWord ((s.blk.axes[n]).v / 2 ^ 16) ∧
      t.blk.reg (LAN_AXCAPA n) = posWord ((s.blk.axes[n]).a / 2 ^ 16) ∧
      t.blk.reg (LAN_AXCAPP n) = posWord (modPos (s.blk.get (LAN_AXMOD_MOD n)) ((s.blk.axes[n]).p / 2 ^ 24)) ∧
      t.blk.get (LAN_AXCAP_SEQ n) = (s.blk.get (LAN_AXCAP_SEQ n) + 1) % 2 ^ (LAN_AXCAP_SEQ 0).w ∧
      Frame [⟨LAN_AXCAPT n, 0, 72⟩, ⟨LAN_AXCAPP n, 0, 72⟩, ⟨LAN_AXCAPV n, 0, 72⟩, ⟨LAN_AXCAPA n, 0, 72⟩,
        LAN_AXCAP_SEQ n] [] s t) ∧
  (∀ (s : State) (n : Fin 16) (data : Half), s.blk.hostFree = true → s.blk.synced = false → data.toNat / 2 % 4 ≤ 2 →
    ∃ t, exec (.hostP2tGo n data) s = .next t ∧ t.blk.get (LAN_AXQCTL_DIR n) = data.toNat / 2 % 4 ∧
      t.blk.flag (LAN_AXQCTL_DONE n) = false ∧ (t.blk.axes[n]).p2t = true ∧
      Frame [LAN_AXQCTL_DIR n, LAN_AXQCTL_DONE n] [.axes] s t) ∧
  (∀ (s : State) (n : Fin 16), (s.blk.axes[n]).p2t = true → ∃ t, exec (.hostP2tDone n) s = .next t ∧
    t.blk.flag (LAN_AXQCTL_DONE n) = true ∧ (t.blk.axes[n]).p2t = false ∧
    t.blk.reg (LAN_AXQRES n) = (s.blk.p2tOf n (s.blk.reg (LAN_AXQPOS n)) (s.blk.get (LAN_AXQCTL_DIR n))).1 ∧
    t.blk.get (LAN_AXQCTL_STATUS n) =
      (s.blk.p2tOf n (s.blk.reg (LAN_AXQPOS n)) (s.blk.get (LAN_AXQCTL_DIR n))).2 % 2 ^ (LAN_AXQCTL_STATUS 0).w ∧
    Frame [⟨LAN_AXQRES n, 0, 72⟩, LAN_AXQCTL_STATUS n, LAN_AXQCTL_DONE n] [.axes] s t) ∧
  (∀ s : State, ∃ t, exec .waitRecompute s = .next t ∧ s.blk.nowNs < t.blk.nowNs ∧ t.blk.nowNs % 1000 = 0 ∧
    (∀ e : Fin 16, (t.blk.eng[e]).g = (s.blk.eng[e]).g ∧ (t.blk.eng[e]).pc = (s.blk.eng[e]).pc) ∧
    (∀ (e : Fin 16) (w : WaitSlot) (gs tf : Nat) (dl : Option Nat) (d : Int),
      (s.blk.eng[e]).wait = .line w none gs tf dl → s.blk.axState w.axis ≠ 1 → d ≤ 0 →
      waitCross (s.blk.get (LAN_AXCFG_SRC w.axis)) (s.blk.axes[w.axis % 16]?.getD Axis.reset) t.blk.stw w = some d →
      (t.blk.eng[e]).wait = .line w (some 0) gs tf dl) ∧
    Frame [] [.eng, .tm] s t)

/-! ### The Gallery: arithmetic and logic -/

/-- R145 to R147: ADD, SUB, ADDS, SUBS, MUL, MULS, MULU, ABS, MIN, MAX, MINU, MAXU, SAT, SHL, SHR, SAR, ADDI and SHLI write Gd,
and the condition of Table 4-7 to the flag of MOD[9:7] or OFL; nothing else of the engine changes. A product shift above 71
is a reserved value and traps RESV. -/
def Obligations.GalleryArithmetic : Prop :=
  (∀ (s : State) (e : Fin 16) (f : FormA), s.blk.stands e (encodeA Op.add.code f) (checkA .add f) f.psel →
    ∃ t, exec (.addG e f .none) s = .next t ∧ Computes e (fun x =>
      (x.wr f.d (x.rd f.a + x.rd f.b)).wf (flA f) (overflows ((x.rd f.a).toInt + (x.rd f.b).toInt))) 1 s t) ∧
  (∀ (s : State) (e : Fin 16) (f : FormA), s.blk.stands e (encodeA Op.sub.code f) (checkA .sub f) f.psel →
    ∃ t, exec (.subG e f .none) s = .next t ∧ Computes e (fun x =>
      (x.wr f.d (x.rd f.a - x.rd f.b)).wf (flA f) (overflows ((x.rd f.a).toInt - (x.rd f.b).toInt))) 1 s t) ∧
  (∀ (s : State) (e : Fin 16) (f : FormA), s.blk.stands e (encodeA Op.adds.code f) (checkA .adds f) f.psel →
    ∃ t, exec (.adds e f .none) s = .next t ∧ Computes e (fun x =>
      (x.wr f.d (BitVec.ofInt 72 (nearest 72 ((x.rd f.a).toInt + (x.rd f.b).toInt)))).wf (flA f)
        (overflows ((x.rd f.a).toInt + (x.rd f.b).toInt))) 2 s t) ∧
  (∀ (s : State) (e : Fin 16) (f : FormA), s.blk.stands e (encodeA Op.subs.code f) (checkA .subs f) f.psel →
    ∃ t, exec (.subs e f .none) s = .next t ∧ Computes e (fun x =>
      (x.wr f.d (BitVec.ofInt 72 (nearest 72 ((x.rd f.a).toInt - (x.rd f.b).toInt)))).wf (flA f)
        (overflows ((x.rd f.a).toInt - (x.rd f.b).toInt))) 2 s t) ∧
  (∀ (s : State) (e : Fin 16) (f : FormA), s.blk.stands e (encodeA Op.mul.code f) (checkA .mul f) f.psel →
    ∃ t, exec (.mulG e f .none) s = .next t ∧ Computes e (fun x =>
      (x.wr f.d (BitVec.ofInt 72 ((x.rd f.a).toInt * (x.rd f.b).toInt / 2 ^ modLow f))).wf (flA f)
        (overflows ((x.rd f.a).toInt * (x.rd f.b).toInt / 2 ^ modLow f))) 4 s t) ∧
  (∀ (s : State) (e : Fin 16) (f : FormA), s.blk.stands e (encodeA Op.muls.code f) (checkA .muls f) f.psel →
    ∃ t, exec (.muls e f .none) s = .next t ∧ Computes e (fun x =>
      (x.wr f.d (BitVec.ofInt 72 (nearest 72 ((x.rd f.a).toInt * (x.rd f.b).toInt / 2 ^ modLow f)))).wf (flA f)
        (overflows ((x.rd f.a).toInt * (x.rd f.b).toInt / 2 ^ modLow f))) 4 s t) ∧
  (∀ (s : State) (e : Fin 16) (f : FormA), s.blk.stands e (encodeA Op.mulu.code f) (checkA .mulu f) f.psel →
    ∃ t, exec (.mulu e f .none) s = .next t ∧ Computes e (fun x =>
      (x.wr f.d (BitVec.ofNat 72 ((x.rd f.a).toNat * (x.rd f.b).toNat / 2 ^ modLow f))).wf (flA f)
        (decide (2 ^ 72 ≤ (x.rd f.a).toNat * (x.rd f.b).toNat / 2 ^ modLow f))) 4 s t) ∧
  (∀ (s : State) (e : Fin 16) (f : FormA), s.blk.stands e (encodeA Op.abs.code f) (checkA .abs f) f.psel →
    ∃ t, exec (.absG e f .none) s = .next t ∧ Computes e (fun x =>
      (x.wr f.d (if (x.rd f.a).toInt < 0 then -x.rd f.a else x.rd f.a)).wf (flA f)
        (overflows |(x.rd f.a).toInt|)) 1 s t) ∧
  (∀ (s : State) (e : Fin 16) (f : FormA), s.blk.stands e (encodeA Op.min.code f) (checkA .min f) f.psel →
    ∃ t, exec (.minG e f .none) s = .next t ∧ Computes e (fun x =>
      x.wr f.d (if (x.rd f.a).toInt ≤ (x.rd f.b).toInt then x.rd f.a else x.rd f.b)) 1 s t) ∧
  (∀ (s : State) (e : Fin 16) (f : FormA), s.blk.stands e (encodeA Op.max.code f) (checkA .max f) f.psel →
    ∃ t, exec (.maxG e f .none) s = .next t ∧ Computes e (fun x =>
      x.wr f.d (if (x.rd f.a).toInt ≤ (x.rd f.b).toInt then x.rd f.b else x.rd f.a)) 1 s t) ∧
  (∀ (s : State) (e : Fin 16) (f : FormA), s.blk.stands e (encodeA Op.minu.code f) (checkA .minu f) f.psel →
    ∃ t, exec (.minu e f .none) s = .next t ∧ Computes e (fun x =>
      x.wr f.d (if x.rd f.a ≤ x.rd f.b then x.rd f.a else x.rd f.b)) 1 s t) ∧
  (∀ (s : State) (e : Fin 16) (f : FormA), s.blk.stands e (encodeA Op.maxu.code f) (checkA .maxu f) f.psel →
    ∃ t, exec (.maxu e f .none) s = .next t ∧ Computes e (fun x =>
      x.wr f.d (if x.rd f.a ≤ x.rd f.b then x.rd f.b else x.rd f.a)) 1 s t) ∧
  (∀ (s : State) (e : Fin 16) (f : FormA), s.blk.stands e (encodeA Op.sat.code f) (checkA .sat f) f.psel →
    ∃ t, exec (.sat e f .none) s = .next t ∧ Computes e (fun x =>
      (x.wr f.d (BitVec.ofInt 72 (nearest (modLow f) (x.rd f.a).toInt))).wf (flA f)
        (decide (nearest (modLow f) (x.rd f.a).toInt ≠ (x.rd f.a).toInt))) 2 s t) ∧
  (∀ (s : State) (e : Fin 16) (f : FormA), s.blk.stands e (encodeA Op.shl.code f) (checkA .shl f) f.psel →
    ∃ t, exec (.shl e f .none) s = .next t ∧ Computes e (fun x =>
      (x.wr f.d (x.rd f.a <<< min (x.rd f.b).toNat 72)).wf (flA f)
        (if 72 ≤ (x.rd f.b).toNat then x.rd f.a != 0 else overflows ((x.rd f.a).toInt * 2 ^ (x.rd f.b).toNat))) 1 s t) ∧
  (∀ (s : State) (e : Fin 16) (f : FormA), s.blk.stands e (encodeA Op.shr.code f) (checkA .shr f) f.psel →
    ∃ t, exec (.shr e f .none) s = .next t ∧ Computes e (fun x =>
      x.wr f.d (x.rd f.a >>> min (x.rd f.b).toNat 72)) 1 s t) ∧
  (∀ (s : State) (e : Fin 16) (f : FormA), s.blk.stands e (encodeA Op.sar.code f) (checkA .sar f) f.psel →
    ∃ t, exec (.sar e f .none) s = .next t ∧ Computes e (fun x =>
      x.wr f.d ((x.rd f.a).sshiftRight (min (x.rd f.b).toNat 72))) 1 s t) ∧
  (∀ (s : State) (e : Fin 16) (f : FormB), s.blk.stands e (encodeB Op.addi.code f) (checkB .addi f) f.psel →
    ∃ t, exec (.addi e f .none) s = .next t ∧ Computes e (fun x =>
      (x.wr f.d (x.rd f.a + f.imm.signExtend 72)).wf f.ofl (overflows ((x.rd f.a).toInt + f.imm.toInt))) 1 s t) ∧
  (∀ (s : State) (e : Fin 16) (f : FormB), s.blk.stands e (encodeB Op.shli.code f) (checkB .shli f) f.psel →
    ∃ t, exec (.shli e f .none) s = .next t ∧ Computes e (fun x =>
      (x.wr f.d (x.rd f.a <<< (f.imm.toNat % 128))).wf f.ofl (overflows ((x.rd f.a).toInt * 2 ^ (f.imm.toNat % 128)))) 1 s t) ∧
  (∀ (s : State) (e : Fin 16) (f : FormA), s.blk.ready e = true →
    (s.blk.eng[e]).word (s.blk.eng[e]).pc = encodeA Op.mul.code f → 71 < f.mod.toNat % 128 →
    ∃ t, exec (.mulG e f .none) s = .next t ∧ Trapped e 1 s t) ∧
  (∀ (s : State) (e : Fin 16) (f : FormA), s.blk.ready e = true →
    (s.blk.eng[e]).word (s.blk.eng[e]).pc = encodeA Op.muls.code f → 71 < f.mod.toNat % 128 →
    ∃ t, exec (.muls e f .none) s = .next t ∧ Trapped e 1 s t) ∧
  (∀ (s : State) (e : Fin 16) (f : FormA), s.blk.ready e = true →
    (s.blk.eng[e]).word (s.blk.eng[e]).pc = encodeA Op.mulu.code f → 71 < f.mod.toNat % 128 →
    ∃ t, exec (.mulu e f .none) s = .next t ∧ Trapped e 1 s t)

/-- R143, R147: AND, OR, XOR and ANDN write Gd; CMP, CMPI and FOP combine their result into the flag that D[2:0] names by
the rule of D[4:3] and into no other; D[5] = 1 and COMB 3 trap RESV. -/
def Obligations.GalleryLogic : Prop :=
  (∀ (s : State) (e : Fin 16) (f : FormA), s.blk.stands e (encodeA Op.and_.code f) (checkA .and_ f) f.psel →
    ∃ t, exec (.andG e f .none) s = .next t ∧ Computes e (fun x =>
      x.wr f.d (x.rd f.a &&& x.rd f.b)) 1 s t) ∧
  (∀ (s : State) (e : Fin 16) (f : FormA), s.blk.stands e (encodeA Op.or_.code f) (checkA .or_ f) f.psel →
    ∃ t, exec (.orG e f .none) s = .next t ∧ Computes e (fun x =>
      x.wr f.d (x.rd f.a ||| x.rd f.b)) 1 s t) ∧
  (∀ (s : State) (e : Fin 16) (f : FormA), s.blk.stands e (encodeA Op.xor_.code f) (checkA .xor_ f) f.psel →
    ∃ t, exec (.xorG e f .none) s = .next t ∧ Computes e (fun x =>
      x.wr f.d (x.rd f.a ^^^ x.rd f.b)) 1 s t) ∧
  (∀ (s : State) (e : Fin 16) (f : FormA), s.blk.stands e (encodeA Op.andn.code f) (checkA .andn f) f.psel →
    ∃ t, exec (.andn e f .none) s = .next t ∧ Computes e (fun x =>
      x.wr f.d (x.rd f.a &&& ~~~x.rd f.b)) 1 s t) ∧
  (∀ (s : State) (e : Fin 16) (f : FormA), s.blk.stands e (encodeA Op.cmp.code f) (checkA .cmp f) f.psel →
    ∃ t, exec (.cmp e f .none) s = .next t ∧ Computes e (fun x =>
      x.comb f.d (relation (f.mod.toNat % 8) (x.rd f.a) (x.rd f.b))) 1 s t) ∧
  (∀ (s : State) (e : Fin 16) (f : FormA), s.blk.stands e (encodeA Op.fop.code f) (checkA .fop f) f.psel →
    ∃ t, exec (.fop e f .none) s = .next t ∧ Computes e (fun x =>
      x.comb f.d (fopResult x f)) 1 s t) ∧
  (∀ (s : State) (e : Fin 16) (f : FormB), s.blk.stands e (encodeB Op.cmpi.code f) (checkB .cmpi f) f.psel →
    ∃ t, exec (.cmpi e f .none) s = .next t ∧ Computes e (fun x =>
      x.comb f.d (relation f.ofl.toNat (x.rd f.a) (f.imm.signExtend 72))) 1 s t) ∧
  (∀ (x : Engine) (d : BitVec 6) (c : Bool) (m : BitVec 3), d.toNat / 8 ≤ 2 → d.extractLsb' 0 3 ≠ 0 →
    (x.comb d c).fl m = (if m = d.extractLsb' 0 3 then
        (if d.toNat / 8 = 0 then c else if d.toNat / 8 = 1 then x.fl m && c else x.fl m || c)
      else x.fl m)) ∧
  (∀ (x : Engine) (d : BitVec 6) (c : Bool), d.extractLsb' 0 3 = 0 → x.comb d c = x) ∧
  (∀ (s : State) (e : Fin 16) (f : FormA), s.blk.ready e = true →
    (s.blk.eng[e]).word (s.blk.eng[e]).pc = encodeA Op.cmp.code f → (f.d.getLsbD 5 = true ∨ f.d.toNat / 8 % 4 = 3) →
    ∃ t, exec (.cmp e f .none) s = .next t ∧ Trapped e 1 s t) ∧
  (∀ (s : State) (e : Fin 16) (f : FormA), s.blk.ready e = true →
    (s.blk.eng[e]).word (s.blk.eng[e]).pc = encodeA Op.fop.code f → (f.d.getLsbD 5 = true ∨ f.d.toNat / 8 % 4 = 3) →
    ∃ t, exec (.fop e f .none) s = .next t ∧ Trapped e 1 s t) ∧
  (∀ (s : State) (e : Fin 16) (f : FormB), s.blk.ready e = true →
    (s.blk.eng[e]).word (s.blk.eng[e]).pc = encodeB Op.cmpi.code f → (f.d.getLsbD 5 = true ∨ f.d.toNat / 8 % 4 = 3) →
    ∃ t, exec (.cmpi e f .none) s = .next t ∧ Trapped e 1 s t)

/-- R147: MOVI, LDIH, SHRI, SARI, EXT, INS, ANDI, ORI and XORI with a 44-bit immediate.
Choices and readings of the model: log entry 18. -/
def Obligations.GalleryImmediate : Prop :=
  (∀ (s : State) (e : Fin 16) (f : FormB), s.blk.stands e (encodeB Op.movi.code f) (checkB .movi f) f.psel →
    ∃ t, exec (.movi e f .none) s = .next t ∧ Computes e (fun x =>
      x.wr f.d (f.imm.signExtend 72)) 1 s t) ∧
  (∀ (s : State) (e : Fin 16) (f : FormB), s.blk.stands e (encodeB Op.ldih.code f) (checkB .ldih f) f.psel →
    ∃ t, exec (.ldih e f .none) s = .next t ∧ Computes e (fun x =>
      x.wr f.d (f.imm.extractLsb' 0 28 ++ (x.rd f.d).extractLsb' 0 44 : BitVec 72)) 1 s t) ∧
  (∀ (s : State) (e : Fin 16) (f : FormB), s.blk.stands e (encodeB Op.shri.code f) (checkB .shri f) f.psel →
    ∃ t, exec (.shri e f .none) s = .next t ∧ Computes e (fun x =>
      x.wr f.d (x.rd f.a >>> (f.imm.toNat % 128))) 1 s t) ∧
  (∀ (s : State) (e : Fin 16) (f : FormB), s.blk.stands e (encodeB Op.sari.code f) (checkB .sari f) f.psel →
    ∃ t, exec (.sari e f .none) s = .next t ∧ Computes e (fun x =>
      x.wr f.d ((x.rd f.a).sshiftRight (f.imm.toNat % 128))) 1 s t) ∧
  (∀ (s : State) (e : Fin 16) (f : FormB), s.blk.stands e (encodeB Op.ext.code f) (checkB .ext f) f.psel →
    ∃ t, exec (.ext e f .none) s = .next t ∧ Computes e (fun x =>
      x.wr f.d (if f.imm.getLsbD 14 then BitVec.ofInt 72 (toSigned (immW f) (fieldOf (x.rd f.a) (immP f) (immW f)))
        else BitVec.ofNat 72 (fieldOf (x.rd f.a) (immP f) (immW f)))) 1 s t) ∧
  (∀ (s : State) (e : Fin 16) (f : FormB), s.blk.stands e (encodeB Op.ins.code f) (checkB .ins f) f.psel →
    ∃ t, exec (.ins e f .none) s = .next t ∧ Computes e (fun x =>
      x.wr f.d (withField (x.rd f.d) (immP f) (immW f) (x.rd f.a).toNat)) 1 s t) ∧
  (∀ (s : State) (e : Fin 16) (f : FormB), s.blk.stands e (encodeB Op.andi.code f) (checkB .andi f) f.psel →
    ∃ t, exec (.andi e f .none) s = .next t ∧ Computes e (fun x =>
      x.wr f.d (x.rd f.a &&& f.imm.zeroExtend 72)) 1 s t) ∧
  (∀ (s : State) (e : Fin 16) (f : FormB), s.blk.stands e (encodeB Op.ori.code f) (checkB .ori f) f.psel →
    ∃ t, exec (.ori e f .none) s = .next t ∧ Computes e (fun x =>
      x.wr f.d (x.rd f.a ||| f.imm.zeroExtend 72)) 1 s t) ∧
  (∀ (s : State) (e : Fin 16) (f : FormB), s.blk.stands e (encodeB Op.xori.code f) (checkB .xori f) f.psel →
    ∃ t, exec (.xori e f .none) s = .next t ∧ Computes e (fun x =>
      x.wr f.d (x.rd f.a ^^^ f.imm.zeroExtend 72)) 1 s t)

/-- R147, R166, Table 4-10: LD reads and ST writes the data-store word at Ga + sext(IMM); an address beyond 16,383 traps DADDR,
and nothing of the instruction takes effect.
Choices and readings of the model: log entry 16. -/
def Obligations.GalleryStores : Prop :=
  (∀ (s : State) (e : Fin 16) (f : FormB), s.blk.stands e (encodeB Op.ld.code f) (checkB .ld f) f.psel → dataAddr s.blk e f < 16384 →
    ∃ t, exec (.ld e f .none) s = .next t ∧ Computes e (fun x => x.wr f.d (x.load (dataAddr s.blk e f))) 2 s t) ∧
  (∀ (s : State) (e : Fin 16) (f : FormB), s.blk.stands e (encodeB Op.ld.code f) (checkB .ld f) f.psel → 16384 ≤ dataAddr s.blk e f →
    ∃ t, exec (.ld e f .none) s = .next t ∧ Trapped e 4 s t) ∧
  (∀ (s : State) (e : Fin 16) (f : FormB), s.blk.stands e (encodeB Op.st.code f) (checkB .st f) f.psel → dataAddr s.blk e f < 16384 →
    ∃ t, exec (.st e f .none) s = .next t ∧ Computes e (fun x => x.stWord (s.blk.firstTick e + 2 * tick) (dataAddr s.blk e f) (x.rd f.d)) 2 s t ∧
      (t.blk.eng[e]).load (dataAddr s.blk e f) = (s.blk.eng[e]).rd f.d ∧
      (∀ k, k ≠ dataAddr s.blk e f → (t.blk.eng[e]).load k = (s.blk.eng[e]).load k)) ∧
  (∀ (s : State) (e : Fin 16) (f : FormB), s.blk.stands e (encodeB Op.st.code f) (checkB .st f) f.psel → 16384 ≤ dataAddr s.blk e f →
    ∃ t, exec (.st e f .none) s = .next t ∧ Trapped e 4 s t)

/-- R148: NOP goes on, BR, CALL, RET and LOOP set PC, CALL writes its link and LOOP counts down; a target outside the program store
traps PADDR and leaves the registers as they were.
Choices and readings of the model: log entry 16. -/
def Obligations.GalleryBranches : Prop :=
  (∀ (s : State) (e : Fin 16) (f : FormA), s.blk.stands e (encodeA Op.nop.code f) (checkA .nop f) f.psel →
    ∃ t, exec (.nop e f .none) s = .next t ∧ Computes e id 1 s t) ∧
  (∀ (s : State) (e : Fin 16) (f : FormC), s.blk.stands e (encodeC Op.br.code f) (checkC .br e f) f.psel → branchTarget (s.blk.eng[e]).pc f ≤ 32767 →
    ∃ t, exec (.br e f .none) s = .next t ∧ Executed e id 2 (branchTarget (s.blk.eng[e]).pc f) (fun _ => false) [] s t) ∧
  (∀ (s : State) (e : Fin 16) (f : FormC), s.blk.stands e (encodeC Op.br.code f) (checkC .br e f) f.psel → 32767 < branchTarget (s.blk.eng[e]).pc f →
    ∃ t, exec (.br e f .none) s = .next t ∧ Trapped e 3 s t) ∧
  (∀ (s : State) (e : Fin 16) (f : FormC), s.blk.stands e (encodeC Op.call.code f) (checkC .call e f) f.psel → branchTarget (s.blk.eng[e]).pc f ≤ 32767 →
    ∃ t, exec (.callG e f .none) s = .next t ∧ Executed e
      (fun x => x.wr (mReg f.m 0) (BitVec.ofNat 72 (x.pc + 1))) 2 (branchTarget (s.blk.eng[e]).pc f) (fun _ => false) [] s t) ∧
  (∀ (s : State) (e : Fin 16) (f : FormC), s.blk.stands e (encodeC Op.call.code f) (checkC .call e f) f.psel → 32767 < branchTarget (s.blk.eng[e]).pc f →
    ∃ t, exec (.callG e f .none) s = .next t ∧ Trapped e 3 s t) ∧
  (∀ (s : State) (e : Fin 16) (f : FormC), s.blk.stands e (encodeC Op.ret.code f) (checkC .ret e f) f.psel → ((s.blk.eng[e]).rd (mReg f.m 0)).toNat ≤ 32767 →
    ∃ t, exec (.ret e f .none) s = .next t ∧ Executed e id 2
      ((s.blk.eng[e]).rd (mReg f.m 0)).toNat (fun _ => false) [] s t) ∧
  (∀ (s : State) (e : Fin 16) (f : FormC), s.blk.stands e (encodeC Op.ret.code f) (checkC .ret e f) f.psel → 32767 < ((s.blk.eng[e]).rd (mReg f.m 0)).toNat →
    ∃ t, exec (.ret e f .none) s = .next t ∧ Trapped e 3 s t) ∧
  (∀ (s : State) (e : Fin 16) (f : FormC), s.blk.stands e (encodeC Op.loop.code f) (checkC .loop e f) f.psel → (s.blk.eng[e]).rd (mReg f.m 0) - 1 = 0 →
    ∃ t, exec (.loopG e f .none) s = .next t ∧ Computes e
      (fun x => x.wr (mReg f.m 0) 0) 1 s t) ∧
  (∀ (s : State) (e : Fin 16) (f : FormC), s.blk.stands e (encodeC Op.loop.code f) (checkC .loop e f) f.psel → (s.blk.eng[e]).rd (mReg f.m 0) - 1 ≠ 0 → branchTarget (s.blk.eng[e]).pc f ≤ 32767 →
    ∃ t, exec (.loopG e f .none) s = .next t ∧ Executed e
      (fun x => x.wr (mReg f.m 0) (x.rd (mReg f.m 0) - 1)) 2 (branchTarget (s.blk.eng[e]).pc f) (fun _ => false) [] s t) ∧
  (∀ (s : State) (e : Fin 16) (f : FormC), s.blk.stands e (encodeC Op.loop.code f) (checkC .loop e f) f.psel → (s.blk.eng[e]).rd (mReg f.m 0) - 1 ≠ 0 → 32767 < branchTarget (s.blk.eng[e]).pc f →
    ∃ t, exec (.loopG e f .none) s = .next t ∧ Trapped e 3 s t)

/-- R32, R156, R163 to R165, R181: HALT ends the program, RAISE records its code, SIG sends signals, RDPRF reads a counter, CALSLOT
opens the slot, CFGR and CFGW reach a register in a supervisor image and trap in a user image.
Choices and readings of the model: log entries 19 and 72. -/
def Obligations.GallerySystem : Prop :=
  (∀ (s : State) (e : Fin 16) (f : FormA), s.blk.stands e (encodeA Op.halt.code f) (checkA .halt f) f.psel →
    ∃ t, exec (.halt e f .none) s = .next t ∧ t.blk.get (GAL_STAT_STATE e) = 4 ∧ t.blk.flag (GAL_CAUSE_HALT e) = true ∧
      (t.blk.eng[e]).g = (s.blk.eng[e]).g ∧ (t.blk.eng[e]).f = (s.blk.eng[e]).f ∧ (t.blk.eng[e]).pc = (s.blk.eng[e]).pc ∧
      (t.blk.eng[e]).data = (s.blk.eng[e]).data ∧ (t.blk.eng[e]).emis = (s.blk.eng[e]).emis.filter (fun x => x.hold.isNone) ∧
      (∀ m : Fin 16, m ≠ e → t.blk.eng[m] = s.blk.eng[m]) ∧
      (s.blk.coreOk = true → FrameOn (leaveTouch e) [.eng, .tm, .trc, .host, .out, .sw, .macs] s t)) ∧
  (∀ (s : State) (e : Fin 16) (f : FormB), s.blk.stands e (encodeB Op.raise_.code f) (checkB .raise_ f) f.psel →
    ∃ t, exec (.raise e f .none) s = .next t ∧ Executed e id 2 ((s.blk.eng[e]).pc + 1) (fun a => a == GAL_CAUSE e) [] s t ∧
      t.blk.get (GAL_CAUSE_RCODE e) = f.imm.toNat % 2 ^ 16 ∧ t.blk.flag (GAL_CAUSE_RAISE e) = true ∧
      t.blk.get (GAL_CAUSE_RCNT e) = sat (2 ^ (GAL_CAUSE_RCNT e).w - 1) (s.blk.get (GAL_CAUSE_RCNT e) + 1)) ∧
  (∀ (s : State) (e : Fin 16) (f : FormB), s.blk.stands e (encodeB Op.sig.code f) (checkB .sig f) f.psel →
    ∃ t, exec (.sig e f .none) s = .next t ∧ (∀ m : Fin 16, (t.blk.eng[m]).sigPend = (s.blk.eng[m]).sigPend ++
        (if f.imm.getLsbD m then [(s.blk.firstTick e + 3 * tick, f.imm.extractLsb' 16 8)] else []) ∧
      (t.blk.eng[m]).g = (s.blk.eng[m]).g ∧ (t.blk.eng[m]).f = (s.blk.eng[m]).f ∧ (t.blk.eng[m]).data = (s.blk.eng[m]).data) ∧
      (t.blk.eng[e]).pc = (s.blk.eng[e]).pc + 1 ∧ (t.blk.eng[e]).readyAt = s.blk.firstTick e + 2 * tick ∧
      FrameOn galTouch [.eng, .tm, .trc, .host, .out] s t) ∧
  (∀ (s : State) (e : Fin 16) (f : FormA), s.blk.stands e (encodeA Op.rdprf.code f) (checkA .rdprf f) f.psel → (s.blk.priv e = true ∨ s.blk.flag PRF_CTL_UREAD = true) →
    ∃ t, exec (.rdprf e f .none) s = .next t ∧ Computes e
      (fun x => x.wr f.d ((s.blk.atFirst e).prfValue e (f.mod.toNat % 32))) 8 s t) ∧
  (∀ (s : State) (e : Fin 16) (f : FormA), s.blk.stands e (encodeA Op.rdprf.code f) (checkA .rdprf f) f.psel → s.blk.priv e = false → s.blk.flag PRF_CTL_UREAD = false →
    ∃ t, exec (.rdprf e f .none) s = .next t ∧ Trapped e 2 s t) ∧
  (∀ (s : State) (e : Fin 16) (f : FormA), s.blk.stands e (encodeA Op.calslot.code f) (checkA .calslot f) f.psel →
    s.blk.get SYS_MSLOT_ENG = e.val → s.blk.cyc.inProg = true → s.blk.cyc.slotDone = false → nothingServed s.blk →
    ∃ t, exec (.calslot e f .none []) s = .next t ∧
      (∃ r : Option TraceRec, t.blk.eng[e] = { scrubbed s.blk e (s.blk.get SYS_MSLOT_LENF) with
        pc := (s.blk.eng[e]).pc + 1, readyAt := s.blk.firstTick e + 2 * tick, use := (s.blk.eng[e]).use + 2
        overrun := false, lastRec := r, seen := 0, seenWait := 0 }) ∧
      (∀ m : Fin 16, m ≠ e → t.blk.eng[m] = scrubbed s.blk m (s.blk.get SYS_MSLOT_LENF)) ∧
      FrameOn (fun a => galTouch a || a == CAL_STAT) [.eng, .tm, .trc, .host, .out, .cyc] s t ∧ t.blk.cyc.slotDone = true ∧
      t.blk.cyc.slotClose = some ((s.blk.atFirst e).nowNs + s.blk.get SYS_MSLOT_LENF * 1000)) ∧
  (∀ (s : State) (e : Fin 16) (f : FormA) (scrub : List (Fin 16 × BitVec 16 × Bool)),
    s.blk.stands e (encodeA Op.calslot.code f) (checkA .calslot f) f.psel →
    s.blk.get SYS_MSLOT_ENG = e.val → s.blk.cyc.inProg = true → s.blk.cyc.slotDone = false →
    ∃ t, exec (.calslot e f .none scrub) s = .next t ∧ t.blk.cyc.slotDone = true ∧
      (t.blk.eng[e]).pc = (s.blk.eng[e]).pc + 1 ∧ (t.blk.eng[e]).readyAt = s.blk.firstTick e + 2 * tick) ∧
  (∀ (s : State) (e : Fin 16) (f : FormA) (scrub : List (Fin 16 × BitVec 16 × Bool)),
    s.blk.stands e (encodeA Op.calslot.code f) (checkA .calslot f) f.psel →
    (s.blk.get SYS_MSLOT_ENG ≠ e.val ∨ s.blk.cyc.inProg = false ∨ s.blk.cyc.slotDone = true) →
    ∃ t, exec (.calslot e f .none scrub) s = .next t ∧ Computes e id 2 s t) ∧
  (∀ (s : State) (e : Fin 16) (f : FormB), s.blk.stands e (encodeB Op.cfgr.code f) (checkB .cfgr f) f.psel → cfgTrap s.blk e (cfgAddr s.blk e f) = 0 → 
    s.blk.cfgReaches (cfgAddr s.blk e f) = true → plainReg (cfgAddr s.blk e f) = true →
    ∃ t, exec (.cfgr e f .none) s = .next t ∧ Computes e
      (fun x => (x.wr f.d (s.blk.reg (cfgAddr s.blk e f))).wf f.ofl false) 30 s t) ∧
  (∀ (s : State) (e : Fin 16) (f : FormB), s.blk.stands e (encodeB Op.cfgr.code f) (checkB .cfgr f) f.psel →
    cfgTrap s.blk e (cfgAddr s.blk e f) = 0 → s.blk.cfgReaches (cfgAddr s.blk e f) = true →
    ∃ t, exec (.cfgr e f .none) s = .next t ∧
      (let b := ((s.blk.atFirst e).engEvent e 14 1).freshen (cfgAddr s.blk e f)
       (t.blk.eng[e]).rd f.d = ((s.blk.eng[e]).wr f.d (b.cfgValue (cfgAddr s.blk e f))).rd f.d) ∧
      (t.blk.eng[e]).pc = (s.blk.eng[e]).pc + 1 ∧ (t.blk.eng[e]).readyAt = s.blk.firstTick e + 30 * tick) ∧
  (∀ (s : State) (e : Fin 16) (f : FormB), s.blk.stands e (encodeB Op.cfgr.code f) (checkB .cfgr f) f.psel → cfgTrap s.blk e (cfgAddr s.blk e f) = 0 → 
    s.blk.cfgReaches (cfgAddr s.blk e f) = false →
    ∃ t, exec (.cfgr e f .none) s = .next t ∧ Computes e (fun x => (x.wr f.d 0).wf f.ofl true) 30 s t) ∧
  (∀ (s : State) (e : Fin 16) (f : FormB), s.blk.stands e (encodeB Op.cfgr.code f) (checkB .cfgr f) f.psel → s.blk.priv e = false →
    ∃ t, exec (.cfgr e f .none) s = .next t ∧ Trapped e 2 s t) ∧
  (∀ (s : State) (e : Fin 16) (f : FormB), s.blk.stands e (encodeB Op.cfgw.code f) (checkB .cfgw f) f.psel → s.blk.priv e = true → cfgAddr s.blk e f = EVT_PIN → 
    s.blk.domOn 3 = true →
    ∃ t, exec (.cfgw e f .none) s = .next t ∧ Executed e (fun x => x.wf f.ofl false) 30 ((s.blk.eng[e]).pc + 1)
        (fun a => a == EVT_PIN) [.pw] s t ∧
      t.blk.get EVT_PIN_PIN = ((s.blk.eng[e]).rd f.d).toNat % 2 ^ 64) ∧
  (∀ (s : State) (e : Fin 16) (f : FormB), s.blk.stands e (encodeB Op.cfgw.code f) (checkB .cfgw f) f.psel → cfgTrap s.blk e (cfgAddr s.blk e f) = 0 → 
    s.blk.cfgReaches (cfgAddr s.blk e f) = false →
    ∃ t, exec (.cfgw e f .none) s = .next t ∧ Computes e (fun x => x.wf f.ofl true) 30 s t) ∧
  (∀ (s : State) (e : Fin 16) (f : FormB), s.blk.stands e (encodeB Op.cfgw.code f) (checkB .cfgw f) f.psel → cfgTrap s.blk e (cfgAddr s.blk e f) ≠ 0 →
    ∃ t, exec (.cfgw e f .none) s = .next t ∧ Trapped e (cfgTrap s.blk e (cfgAddr s.blk e f)) s t)

/-- R124, R125, R153: RDLT writes the two LT words or the STW of its first tick, RDPOS the position query and its status, P2T the
stamp and its status.
Choices and readings of the model: log entries 64 and 72. -/
def Obligations.GalleryTimes : Prop :=
  (∀ (s : State) (e : Fin 16) (f : FormA), s.blk.stands e (encodeA Op.rdlt.code f) (checkA .rdlt f) f.psel → f.mod.toNat % 2 = 0 →
    ∃ t, exec (.rdlt e f .none) s = .next t ∧ Computes e
      (fun x => (x.wr f.d (s.blk.atFirst e).ltHighNow).wr (f.d + 1) (ltLow (s.blk.atFirst e).tm.lt)) 6 s t) ∧
  (∀ (s : State) (e : Fin 16) (f : FormA), s.blk.stands e (encodeA Op.rdlt.code f) (checkA .rdlt f) f.psel → f.mod.toNat % 2 = 1 →
    ∃ t, exec (.rdlt e f .none) s = .next t ∧ Computes e (fun x => x.wr f.d (stwOf (s.blk.atFirst e).tm.lt)) 6 s t) ∧
  (∀ (s : State) (e : Fin 16) (f : FormA), s.blk.stands e (encodeA Op.rdpos.code f) (checkA .rdpos f) f.psel →
    ∃ t, exec (.rdpos e f .none) s = .next t ∧
      (let q := (s.blk.atFirst e).query (axisA f)
          (if f.mod.getLsbD 4 then stwOf (s.blk.atFirst e).tm.lt else (s.blk.eng[e]).rd f.a)
       Computes e (fun x => (x.wr f.d (posWord q.1)).wr (f.d + 1) (BitVec.ofNat 72 q.2)) 6 s t)) ∧
  (∀ (s : State) (e : Fin 16) (f : FormA), s.blk.stands e (encodeA Op.p2t.code f) (checkA .p2t f) f.psel →
    ∃ t, exec (.p2t e f .none) s = .next t ∧
      (let q := (s.blk.atFirst e).p2tOf (axisA f) ((s.blk.eng[e]).rd f.a) (f.mod.toNat / 16 % 4)
       Computes e (fun x => (x.wr f.d q.1).wr (f.d + 1) (BitVec.ofNat 72 q.2)) 40 s t))

/-- R149, R151, R152, R155 to R157: WAITT, WAITL, CAMW, WAITS and BAR enter the wait they name after their fixed ticks, with the
timeout counted from the first tick.
Choices and readings of the model: log entry 30. -/
def Obligations.GalleryWaits : Prop :=
  (∀ (s : State) (e : Fin 16) (f : FormC), s.blk.stands e (encodeC Op.waitt.code f) (checkC .waitt e f) f.psel → f.cond = 0 →
    ∃ t, exec (.waitt e f .none) s = .next t ∧ Enters e (.time ((s.blk.eng[e]).rd (mReg f.m 0) + BitVec.ofNat 72 (f.t.toNat * 2 ^ 16))
      (mBits f.m 6 6) (mTf f.m)) 3 s t) ∧
  (∀ (s : State) (e : Fin 16) (f : FormC), s.blk.stands e (encodeC Op.waitt.code f) (checkC .waitt e f) f.psel → f.cond ≠ 0 →
    ∃ t, exec (.waitt e f .none) s = .next t ∧ Enters e (.boundary (mBits f.m 6 6) (mTf f.m)) 3 s t) ∧
  (∀ (s : State) (e : Fin 16) (f : FormC), s.blk.stands e (encodeC Op.waitl.code f) (checkC .waitl e f) f.psel →
    ∃ t, exec (.waitl e f .none) s = .next t ∧
      (let q := (s.blk.atFirst e).beginLine ⟨mBits f.m 0 4, Nat.mod_lt _ (by decide)⟩ ((s.blk.eng[e]).rd (mReg f.m 4)) f.cond.toNat
       Enters e (.line q.1 q.2 (mBits f.m 10 6) (mTf f.m) (deadlineOf (s.blk.firstTick e) f.t.toNat)) 3 s t)) ∧
  (∀ (s : State) (e : Fin 16) (f : FormC), s.blk.stands e (encodeC Op.camw.code f) (checkC .camw e f) f.psel →
    ∃ t, exec (.camw e f .none) s = .next t ∧ Enters e (.camw (mBits f.m 0 2) (mBits f.m 8 6) (mTf f.m)
      (deadlineOf (s.blk.firstTick e) f.t.toNat)) 2 s t) ∧
  (∀ (s : State) (e : Fin 16) (f : FormC), s.blk.stands e (encodeC Op.waits.code f) (checkC .waits e f) f.psel →
    ∃ t, exec (.waits e f .none) s = .next t ∧ Enters e (.sigs (f.cond == 1) (f.m.extractLsb' 0 8) (mBits f.m 8 6) (mTf f.m)
      (deadlineOf (s.blk.firstTick e) f.t.toNat)) 3 s t) ∧
  (∀ (s : State) (e : Fin 16) (f : FormC), s.blk.stands e (encodeC Op.bar.code f) (checkC .bar e f) f.psel →
    ∃ t, exec (.bar e f .none) s = .next t ∧ Enters e (.bar (f.m.extractLsb' 0 16) (mTf f.m)
      (deadlineOf (s.blk.firstTick e) f.t.toNat)) 3 s t)

/-- R149, R151, R152, R155 to R157: a wait ends by its condition with TF 0 and its result in its register, or by its timeout with TF 1;
BAR releases every engine of its mask in one tick.
Choices and readings of the model: log entries 6, 30 and 71. -/
def Obligations.GalleryReleases : Prop :=
  (∀ (s : State) (e : Fin 16) (w : Word) (gr tf : Nat), (s.blk.eng[e]).wait = .time w gr tf →
    ∃ t, exec (.waittRelease e) s = .next t ∧ Resumes e (fun x => (x.wr (BitVec.ofNat 6 gr) w).wf (BitVec.ofNat 3 tf) false)
      (max (s.blk.eng[e]).waitFrom (tickUp (s.blk.instantOf w))) s t) ∧
  (∀ (s : State) (e : Fin 16) (w : Word) (gr tf : Nat), (s.blk.eng[e]).wait = .boundary gr tf → (s.blk.eng[e]).trig = some w →
    ∃ t, exec (.waittRelease e) s = .next t ∧
      Resumes e (fun x => ({ x with trig := none }.wr (BitVec.ofNat 6 gr) w).wf (BitVec.ofNat 3 tf) false)
        (s.blk.eng[e]).waitFrom s t) ∧
  (∀ (s : State) (e : Fin 16) (k : WaitSlot) (st gs tf : Nat) (dl : Option Nat), (s.blk.eng[e]).wait = .line k (some st) gs tf dl →
    ∃ t, exec (.waitlRelease e) s = .next t ∧
      Resumes e (fun x => (x.wr (BitVec.ofNat 6 gs) (BitVec.ofNat 72 st)).wf (BitVec.ofNat 3 tf) false)
        (tickUp (max (s.blk.eng[e]).waitFrom s.blk.tm.phys)) s t) ∧
  (∀ (s : State) (e : Fin 16) (k : WaitSlot) (gs tf : Nat) (dl : Option Nat) (c : Word), (s.blk.eng[e]).wait = .line k none gs tf dl →
    (s.blk.reachPhys (s.blk.eng[e]).waitFrom).lineCross k = some c →
    pastDeadline dl ((s.blk.reachPhys (s.blk.eng[e]).waitFrom).reachStw c).tm.phys = false →
    ∃ t, exec (.waitlRelease e) s = .next t ∧ Resumes e (fun x => (x.wr (BitVec.ofNat 6 gs) 0).wf (BitVec.ofNat 3 tf) false)
      (tickUp ((s.blk.reachPhys (s.blk.eng[e]).waitFrom).reachStw c).tm.phys) s t) ∧
  (∀ (s : State) (e : Fin 16) (k : Fin 4) (gs tf : Nat) (dl : Option Nat), (s.blk.eng[e]).wait = .camw k gs tf dl →
    (s.blk.eng[e]).tags[k] = .free →
    ∃ t, exec (.camwRelease e) s = .next t ∧ Resumes e (fun x => (x.wr (BitVec.ofNat 6 gs) 14).wf (BitVec.ofNat 3 tf) false)
      (s.blk.eng[e]).waitFrom s t) ∧
  (∀ (s : State) (e : Fin 16) (k : Fin 4) (gs tf : Nat) (dl : Option Nat) (st : Word),
    (s.blk.eng[e]).wait = .camw k gs tf dl → (s.blk.eng[e]).tags[k] = .done st →
    pastDeadline dl (max (s.blk.eng[e]).waitFrom ((s.blk.eng[e]).doneAt[k] + tick)) = false →
    ∃ t, exec (.camwRelease e) s = .next t ∧
      Resumes e (fun x => ({ x with tags := x.tags.set k .free }.wr (BitVec.ofNat 6 gs) st).wf (BitVec.ofNat 3 tf) false)
        (max (s.blk.eng[e]).waitFrom ((s.blk.eng[e]).doneAt[k] + tick)) s t) ∧
  (∀ (s : State) (e : Fin 16) (all : Bool) (m : BitVec 8) (gs tf n : Nat) (dl : Option Nat),
    (s.blk.eng[e]).wait = .sigs all m gs tf dl →
    (s.blk.eng[e]).sigWhen all m (s.blk.eng[e]).waitFrom = some n → pastDeadline dl n = false →
    ∃ t, exec (.waitsRelease e) s = .next t ∧
      Resumes e (fun x => ((x.sigTake all m n).2.wr (BitVec.ofNat 6 gs) ((x.sigTake all m n).1.zeroExtend 72)).wf
        (BitVec.ofNat 3 tf) false) n s t) ∧
  (∀ (s : State) (e : Fin 16) (m : BitVec 16) (tf : Nat) (dl : Option Nat), (s.blk.eng[e]).wait = .bar m tf dl →
    (∀ k : Fin 16, m.getLsbD k = true → s.blk.inBar m k = true) → pastDeadline dl (s.blk.barTick m) = false →
    ∃ t, exec (.barRelease e) s = .next t ∧
      (∀ k : Fin 16, m.getLsbD k = true → (t.blk.eng[k]).wait = .none ∧ (t.blk.eng[k]).pc = (s.blk.eng[k]).pc + 1 ∧
        (t.blk.eng[k]).readyAt = s.blk.barTick m ∧ t.blk.flag (GAL_STAT_WAIT k) = false ∧
        (t.blk.eng[k]).g = (s.blk.eng[k]).g) ∧
      (∀ k : Fin 16, m.getLsbD k = false → t.blk.eng[k] = s.blk.eng[k]) ∧
      FrameOn (fun a => galTouch a || (List.range 16).any (fun k => a == GAL_STAT k)) [.eng, .tm, .trc, .host, .out] s t) ∧
  (∀ (s : State) (e : Fin 16) (d gs v : Nat), waitDeadline (s.blk.eng[e]).wait = some (d, some (gs, v)) →
    s.blk.releasesBy s.blk.eng[e] d = false →
    ∃ t, exec (.waitTimeout e) s = .next t ∧
      Resumes e (fun x => (x.wr (BitVec.ofNat 6 gs) (BitVec.ofNat 72 v)).wf (BitVec.ofNat 3 (waitTf x.wait)) true)
        (max d (s.blk.eng[e]).waitFrom) s t) ∧
  (∀ (s : State) (e : Fin 16) (d : Nat), waitDeadline (s.blk.eng[e]).wait = some (d, none) →
    s.blk.releasesBy s.blk.eng[e] d = false →
    ∃ t, exec (.waitTimeout e) s = .next t ∧ Resumes e (fun x => x.wf (BitVec.ofNat 3 (waitTf x.wait)) true)
      (max d (s.blk.eng[e]).waitFrom) s t)

/-- R158, R159, R161, R162: EMIT copies a template into the emission buffer or is refused, PATCH overwrites bytes of a held frame and
releases it, GATE sets the gates of its mask, SNAP arms a snapshot, the emission path moves one cell.
Choices and readings of the model: log entries 19 and 40. -/
def Obligations.GalleryFrames : Prop :=
  (∀ (s : State) (e : Fin 16) (f : FormD) (w : Word), s.blk.stands e (encodeD Op.emit.code f) (checkD .emit f) f.psel →
    (s.blk.eng[e]).dir[f.sel.toNat]? = some w → emitRoom s.blk e f w = true →
    ∃ t, exec (.emit e f .none) s = .next t ∧
      Executed e (fun x => { x with emis := x.emis ++ [emitFrame s.blk e f w] }.wf f.sf true) (8 + ceilDiv (dirLen w) 16)
        ((s.blk.eng[e]).pc + 1) (fun _ => false) [.pair] s t) ∧
  (∀ (s : State) (e : Fin 16) (f : FormD) (w : Word), s.blk.stands e (encodeD Op.emit.code f) (checkD .emit f) f.psel →
    (s.blk.eng[e]).dir[f.sel.toNat]? = some w → emitRoom s.blk e f w = false →
    ∃ t, exec (.emit e f .none) s = .next t ∧ Computes e (fun x => x.wf f.sf false) (8 + ceilDiv (dirLen w) 16) s t) ∧
  (∀ (s : State) (e : Fin 16) (f : FormD), s.blk.stands e (encodeD Op.emit.code f) (checkD .emit f) f.psel → (s.blk.eng[e]).dir[f.sel.toNat]? = none →
    ∃ t, exec (.emit e f .none) s = .next t ∧ Trapped e 7 s t) ∧
  (∀ (s : State) (e : Fin 16) (f : FormD) (g : EFrame), s.blk.stands e (encodeD Op.patch.code f) (checkD .patch f) f.psel →
    (s.blk.eng[e]).emis.find? (fun y => y.hold == some (f.imm.toNat / 2 ^ 21 % 4)) = some g →
    (f.imm.toNat / 2 ^ 14 % 16 = 0 ∨ f.imm.toNat % 2 ^ 14 + f.imm.toNat / 2 ^ 14 % 16 ≤ g.bytes.length) →
    (s.blk.atFirst e).boundaryWithin 3 = false →
    ∃ t, exec (.patch e f .none) s = .next t ∧ ∃ l : List EFrame,
      Executed e (fun x => { x with emis := l }.wf f.sf true) 3 ((s.blk.eng[e]).pc + 1) (fun _ => false) [.pair] s t ∧
      (∃ y ∈ l, y.bytes = overwrite g.bytes (f.imm.toNat % 2 ^ 14)
          (patchBytes (f.imm.toNat / 2 ^ 18 % 4) (f.imm.toNat / 2 ^ 14 % 16) ((s.blk.eng[e]).rd f.ra)) ∧
        y.hold = (if f.imm.getLsbD 20 then none else g.hold) ∧ y.port = g.port ∧ y.cls = g.cls ∧ y.cycle = g.cycle) ∧
      (∀ z ∈ (s.blk.eng[e]).emis, z.hold ≠ some (f.imm.toNat / 2 ^ 21 % 4) → z ∈ l)) ∧
  (∀ (s : State) (e : Fin 16) (f : FormD), s.blk.stands e (encodeD Op.patch.code f) (checkD .patch f) f.psel → 
    (s.blk.eng[e]).emis.find? (fun y => y.hold == some (f.imm.toNat / 2 ^ 21 % 4)) = none →
    ∃ t, exec (.patch e f .none) s = .next t ∧ Computes e (fun x => x.wf f.sf false) 3 s t) ∧
  (∀ (s : State) (e : Fin 16) (f : FormD) (g : EFrame), s.blk.stands e (encodeD Op.patch.code f) (checkD .patch f) f.psel →
    (s.blk.eng[e]).emis.find? (fun y => y.hold == some (f.imm.toNat / 2 ^ 21 % 4)) = some g →
    f.imm.toNat / 2 ^ 14 % 16 ≠ 0 → g.bytes.length < f.imm.toNat % 2 ^ 14 + f.imm.toNat / 2 ^ 14 % 16 →
    ∃ t, exec (.patch e f .none) s = .next t ∧ Trapped e 7 s t) ∧
  (∀ (s : State) (e : Fin 16) (f : FormD) (m : Nat), s.blk.stands e (encodeD Op.gate.code f) (checkD .gate f) f.psel →
    m = (if f.sel.getLsbD 1 then ((s.blk.eng[e]).rd f.ra).toNat % 2 ^ 32 else f.imm.toNat) →
    s.blk.coreOk = true → (s.blk.priv e = true ∨ ∀ p < 32, bitAt m p = true → bitAt (s.blk.get (GAL_PMASK_MASK e)) p = true) →
    ∃ t, exec (.gate e f .none) s = .next t ∧
      Executed e id 2 ((s.blk.eng[e]).pc + 1) coreTouch [.sw, .macs, .pair] s t ∧
      (∀ p < 32, t.blk.flag (SWC_PORT_STAT_GATE p) =
        (if bitAt m p then f.sel.getLsbD 0 else s.blk.flag (SWC_PORT_STAT_GATE p)))) ∧
  (∀ (s : State) (e : Fin 16) (f : FormD) (m p : Nat), s.blk.stands e (encodeD Op.gate.code f) (checkD .gate f) f.psel →
    m = (if f.sel.getLsbD 1 then ((s.blk.eng[e]).rd f.ra).toNat % 2 ^ 32 else f.imm.toNat) →
    s.blk.priv e = false → p < 32 → bitAt m p = true → bitAt (s.blk.get (GAL_PMASK_MASK e)) p = false →
    ∃ t, exec (.gate e f .none) s = .next t ∧ Trapped e 2 s t) ∧
  (∀ (s : State) (e : Fin 16) (f : FormD), s.blk.stands e (encodeD Op.snap.code f) (checkD .snap f) f.psel → s.blk.flag STS_SNAPSTAT_ARMED = false →
    ∃ t, exec (.snap e f .none) s = .next t ∧ t.blk.flag STS_SNAPSTAT_ARMED = true ∧
      t.blk.get STS_SNAPSTAT_OWNER = e.val ∧
      Executed e (fun x => x.wf f.sf true) 4 ((s.blk.eng[e]).pc + 1) (fun a => a == STS_SNAPSTAT || a == STS_CAUSE) [.snap] s t) ∧
  (∀ (s : State) (e : Fin 16) (f : FormD), s.blk.stands e (encodeD Op.snap.code f) (checkD .snap f) f.psel → s.blk.flag STS_SNAPSTAT_ARMED = true →
    ∃ t, exec (.snap e f .none) s = .next t ∧ Computes e (fun x => x.wf f.sf false) 4 s t) ∧
  (∀ (s : State) (e : Fin 16) (i : Nat) (fr : EFrame), s.blk.movesNext e = true → s.blk.nextFrame e = some i →
    (s.blk.eng[e]).emis[i]? = some fr →
    fr.moved + 1 < cellsFor (fr.bytes.length + 4) →
    ∃ t, exec (.emissionPathMove e) s = .next t ∧
      t.blk.eng[e] = { s.blk.eng[e] with emis := (s.blk.eng[e]).emis.set i { fr with moved := fr.moved + 1 } } ∧
      fr.rel ≤ t.blk.tm.phys ∧ s.blk.sw.emAt + 4 * nsUnit ≤ t.blk.tm.phys ∧
      t.blk.sw = { s.blk.sw with emAt := t.blk.tm.phys, emLast := e } ∧
      (∀ m : Fin 16, m ≠ e → t.blk.eng[m] = s.blk.eng[m]) ∧ FrameOn galTouch [.eng, .tm, .sw, .trc, .host, .out] s t) ∧
  (∀ (s : State) (e : Fin 16), s.blk.movesNext e = false → ∃ t, exec (.emissionPathMove e) s = .next t ∧ Frame [] [] s t) ∧
  (∀ (s : State) (e : Fin 16) (i : Nat) (fr : EFrame), s.blk.movesNext e = true → s.blk.nextFrame e = some i →
    (s.blk.eng[e]).emis[i]? = some fr →
    cellsFor (fr.bytes.length + 4) ≤ fr.moved + 1 →
    ∃ t, exec (.emissionPathMove e) s = .next t ∧
      t.blk.eng[e] = { s.blk.eng[e] with emis := (s.blk.eng[e]).emis.eraseIdx i } ∧
      (∀ m : Fin 16, m ≠ e → t.blk.eng[m] = s.blk.eng[m]) ∧ t.pending = s.pending)

/-- R137, R138, R148, R166, R167: a reserved opcode or field traps RESV; an instruction whose predicate is false only goes on; a PC that
steps past 32,767 traps PADDR; a corrected store error costs nothing, a register parity error 4 ticks, a second one or a two-bit
store error traps PARITY; each detection strikes the core. Said for every opcode through NOP, for the forms through ADD, ADDI, BR
and SNAP.
Choices and readings of the model: log entries 16, 17 and 71. -/
def Obligations.GalleryTraps : Prop :=
  (∀ (s : State) (e : Fin 16) (f : FormA) (w : Word), s.blk.ready e = true → w = (s.blk.eng[e]).word (s.blk.eng[e]).pc →
    Op.ofCode (opBits w) = none → ∃ t, exec (.nop e f .none) s = .next t ∧ Trapped e 1 s t) ∧
  (∀ (s : State) (e : Fin 16) (f : FormA), s.blk.ready e = true →
    (s.blk.eng[e]).word (s.blk.eng[e]).pc = encodeA Op.rdlt.code f → checkA .rdlt f ≠ 0 →
    ∃ t, exec (.rdlt e f .none) s = .next t ∧ Trapped e (checkA .rdlt f) s t) ∧
  (∀ (s : State) (e : Fin 16) (f : FormB), s.blk.ready e = true →
    (s.blk.eng[e]).word (s.blk.eng[e]).pc = encodeB Op.addi.code f → checkB .addi f ≠ 0 →
    ∃ t, exec (.addi e f .none) s = .next t ∧ Trapped e 1 s t) ∧
  (∀ (s : State) (e : Fin 16) (f : FormC), s.blk.ready e = true →
    (s.blk.eng[e]).word (s.blk.eng[e]).pc = encodeC Op.bar.code f → f.m.getLsbD e = false →
    ∃ t, exec (.bar e f .none) s = .next t ∧ Trapped e 1 s t) ∧
  (∀ (s : State) (e : Fin 16) (f : FormD), s.blk.ready e = true →
    (s.blk.eng[e]).word (s.blk.eng[e]).pc = encodeD Op.snap.code f → checkD .snap f ≠ 0 →
    ∃ t, exec (.snap e f .none) s = .next t ∧ Trapped e 1 s t) ∧
  (∀ (s : State) (e : Fin 16) (f : FormA), s.blk.ready e = true →
    (s.blk.eng[e]).word (s.blk.eng[e]).pc = encodeA Op.add.code f → checkA .add f = 0 → (s.blk.eng[e]).pred f.psel = false →
    (s.blk.eng[e]).pc < 32767 → ∃ t, exec (.addG e f .none) s = .next t ∧ Computes e id 1 s t) ∧
  (∀ (s : State) (e : Fin 16) (f : FormA), s.blk.ready e = true →
    (s.blk.eng[e]).word (s.blk.eng[e]).pc = encodeA Op.add.code f → checkA .add f = 0 → (s.blk.eng[e]).pc = 32767 →
    ∃ t, exec (.addG e f .none) s = .next t ∧ Trapped e 3 s t) ∧
  (∀ (s : State) (e : Fin 16) (f : FormA), s.blk.stands e (encodeA Op.and_.code f) (checkA .and_ f) f.psel →
    (s.blk.atFirst e).retires ⟨4, s.blk.coreOf e⟩ = false →
    ∃ t, exec (.andG e f .storeOne) s = .next t ∧ Executed e (fun x => x.wr f.d (x.rd f.a &&& x.rd f.b)) 1
      ((s.blk.eng[e]).pc + 1) (fun _ => false) [.strikes] s t ∧
      t.blk.strikes = ((s.blk.atFirst e).strike ⟨4, s.blk.coreOf e⟩).strikes) ∧
  (∀ (s : State) (e : Fin 16) (f : FormA), s.blk.stands e (encodeA Op.and_.code f) (checkA .and_ f) f.psel →
    (s.blk.atFirst e).retires ⟨4, s.blk.coreOf e⟩ = false →
    ∃ t, exec (.andG e f .regOnce) s = .next t ∧ Executed e (fun x => x.wr f.d (x.rd f.a &&& x.rd f.b)) 5
      ((s.blk.eng[e]).pc + 1) (fun _ => false) [.strikes] s t) ∧
  (∀ (s : State) (e : Fin 16) (f : FormA), s.blk.stands e (encodeA Op.and_.code f) (checkA .and_ f) f.psel →
    (s.blk.atFirst e).retires ⟨4, s.blk.coreOf e⟩ = false →
    ∃ t, exec (.andG e f .storeTwo) s = .next t ∧ Trapped e 8 s t) ∧
  (∀ (s : State) (e : Fin 16) (f : FormA), s.blk.stands e (encodeA Op.and_.code f) (checkA .and_ f) f.psel →
    (s.blk.atFirst e).retires ⟨4, s.blk.coreOf e⟩ = false →
    ∃ t, exec (.andG e f .regTwice) s = .next t ∧ TrappedIn e 8 5 s t)

/-! ### Control of the engines -/

/-- R34, R174 to R176: the trigger reaches the engines at its instant: a boundary wait ends and its Gr takes the STW of the
boundary, an engine that has not entered its wait loses the trigger with slack 0, and a pending START is taken
up with the trigger pending.
Choices and readings of the model: log entries 29 and 71. -/
def Obligations.CycleTriggers : Prop :=
  (∀ (s : State) (e : Fin 16) (n gr tf : Nat), s.blk.cyc.triggerAt = some n → s.blk.running e = true →
    (s.blk.eng[e]).reloc = false → (s.blk.eng[e]).wait = .boundary gr tf → (s.blk.eng[e]).waitFrom ≤ s.blk.tm.phys →
    aloneRuns s.blk e →
    ∃ t, exec .cycleTrigger s = .next t ∧ (t.blk.eng[e]).wait = .none ∧ (t.blk.eng[e]).pc = (s.blk.eng[e]).pc + 1 ∧
      (t.blk.eng[e]).g = ((s.blk.eng[e]).wr (BitVec.ofNat 6 gr) (stwOf (s.blk.cyc.start * nsUnit))).g ∧
      (t.blk.eng[e]).f = ((s.blk.eng[e]).wf (BitVec.ofNat 3 tf) false).f ∧ (t.blk.eng[e]).use = 0 ∧
      (t.blk.eng[e]).readyAt = t.blk.tm.phys ∧ t.blk.running e = true ∧ t.blk.flag (GAL_STAT_WAIT e) = false ∧
      t.blk.cyc.triggerAt = none ∧ n ≤ t.blk.nowNs ∧ (∀ m : Fin 16, m ≠ e → t.blk.eng[m] = s.blk.eng[m]) ∧
      FrameOn (triggerTouch e) [.eng, .tm, .trc, .host, .out, .cyc, .pair] s t) ∧
  (∀ (s : State) (e : Fin 16) (n : Nat), s.blk.cyc.triggerAt = some n → s.blk.running e = true →
    (s.blk.eng[e]).reloc = false → (s.blk.eng[e]).inBoundary (s.blk.reachNs n).tm.phys = false → aloneRuns s.blk e →
    ∃ t, exec .cycleTrigger s = .next t ∧ t.blk.flag (SYS_LWM_GAL_OVR e) = true ∧
      t.blk.get (SYS_LWM_GAL_MIN e) = s.blk.get (SYS_LWM_GAL_MIN e) ∧
      t.blk.get (GAL_SLACK_MIN e) = 0 ∧ (t.blk.eng[e]).trig = none ∧ (t.blk.eng[e]).g = (s.blk.eng[e]).g ∧
      (t.blk.eng[e]).pc = (s.blk.eng[e]).pc ∧ (t.blk.eng[e]).wait = (s.blk.eng[e]).wait ∧ t.blk.running e = true ∧ t.blk.cyc.triggerAt = none ∧
      (∀ m : Fin 16, m ≠ e → t.blk.eng[m] = s.blk.eng[m]) ∧
      FrameOn (triggerTouch e) [.eng, .tm, .trc, .host, .out, .cyc, .pair] s t) ∧
  (∀ (s : State) (e : Fin 16) (n : Nat), s.blk.cyc.triggerAt = some n → s.blk.running e = false →
    (s.blk.eng[e]).reloc = false → (s.blk.eng[e]).startPend = true → s.blk.banksPending e = false → aloneRuns s.blk e →
    ∃ t, exec .cycleTrigger s = .next t ∧
      t.blk.eng[e] = { s.blk.eng[e] with
        startPend := false, startAt := some t.blk.tm.phys
        trig := some (stwOf (s.blk.cyc.start * nsUnit)) } ∧
      (∀ m : Fin 16, m ≠ e → t.blk.eng[m] = s.blk.eng[m]) ∧ Frame [] [.eng, .tm, .cyc, .pair] s t) ∧
  (∀ s : State, s.blk.cyc.triggerAt = none → ∃ t, exec .cycleTrigger s = .next t ∧ Frame [] [] s t)

/-- R170, R187, R563: LOAD with EN takes an engine that may load to LOADING, and is refused with its LCODE otherwise; a load
whose image reads well and verifies fills the stores and shows the claim and LOADED; one that fails leaves EMPTY and empty
stores.
Choices and readings of the model: log entries 31 and 32. -/
def Obligations.EngineLoads : Prop :=
  (∀ (s : State) (n : Fin 16), s.blk.hostFree = true → s.blk.synced = false → loadable (s.blk.get (GAL_STAT_STATE n)) = true →
    ∃ t, exec (.engineLoad n true) s = .next t ∧ t.blk.get (GAL_STAT_STATE n) = 1 ∧ t.blk.flag (GAL_CTL_EN n) = true ∧
      (t.blk.eng[n]).laddr = s.blk.get (GAL_LADDR_ADDR n) ∧ (∀ m : Fin 16, m ≠ n → t.blk.eng[m] = s.blk.eng[m]) ∧
      t.blk.flag (GAL_STAT_CORE15 n) = false ∧
      Frame [GAL_STAT_STATE n, GAL_CTL_EN n, GAL_STAT_CORE15 n, GAL_SPARE_BUSY, GAL_SPARE_AVAIL, PWR_RETN_PEND] [.eng, .pw] s t) ∧
  (∀ (s : State) (n : Fin 16), s.blk.hostFree = true → s.blk.synced = false → loadable (s.blk.get (GAL_STAT_STATE n)) = false →
    ∃ t, exec (.engineLoad n true) s = .next t ∧
      t.blk.get (GAL_STAT_LCODE n) = (if s.blk.get (GAL_STAT_STATE n) = 7 then 9 else 1) ∧
      Frame [GAL_STAT_LCODE n, GAL_CTL_EN n] [] s t) ∧
  (∀ (s : State) (n : Fin 16), s.blk.hostFree = true → s.blk.synced = false → s.blk.get (GAL_STAT_STATE n) ∉ [1, 3, 7] →
    ∃ t, exec (.engineLoad n false) s = .next t ∧ t.blk.get (GAL_STAT_LCODE n) = 1 ∧ t.blk.flag (GAL_CTL_EN n) = false ∧
      Frame [GAL_STAT_LCODE n, GAL_CTL_EN n] [] s t) ∧
  (∀ (s : State) (n : Fin 16) (dt : Nat) (b : Block) (h : Header) (hw l : List Word), s.blk.synced = false →
    s.blk.get (GAL_STAT_STATE n) = 1 → s.blk.reportWaits n = false → s.blk.cav.corr = [] → s.blk.cav.uncorr = [] →
    (s.blk.advanceNs dt).readImage (s.blk.eng[n]).laddr 0x5947 = (b, h, hw, l, 0) → b.imageAuth h hw l = 0 →
    ∃ t, exec (.loadComplete n [] dt) s = .next t ∧ t.blk.get (GAL_STAT_STATE n) = 2 ∧ t.blk.get (GAL_STAT_LCODE n) = 0 ∧
      t.blk.flag (GAL_CAUSE_LOADED n) = true ∧ t.blk.flag (GAL_STAT_LOST n) = false ∧
      t.blk.flag (GAL_STAT_PRIV n) = h.priv ∧ t.blk.get (GAL_IMGID_ID n) = h.id ∧
      t.blk.get (GAL_CLAIM_TICKS n) = h.ticks ∧ t.blk.get (GAL_CLAIM_FINISH n) = h.finish ∧
      t.blk.get (GAL_CLAIM2_EVAL n) = h.eval ∧ t.blk.get (GAL_CLAIM2_CELLS n) = h.cells ∧
      (t.blk.eng[n]).entry = h.entry ∧ (t.blk.eng[n]).dir = l.take h.tcnt ∧
      (t.blk.eng[n]).prog = storeOf ((l.drop (h.tcnt + h.rcnt)).take h.plen) 0 ∧
      (t.blk.eng[n]).data = storeOf ((l.drop (h.tcnt + h.rcnt + h.plen)).take h.dlen) h.dbase ∧
      (∀ m : Fin 16, m ≠ n → t.blk.eng[m] = s.blk.eng[m]) ∧ t.blk.cav = s.blk.cav ∧ t.pending = s.pending) ∧
  (∀ (s : State) (n : Fin 16) (dt : Nat), s.blk.synced = false → s.blk.get (GAL_STAT_STATE n) = 1 →
    s.blk.reportWaits n = false → lastWord < (s.blk.eng[n]).laddr + 7 →
    ∃ t, exec (.loadComplete n [] dt) s = .next t ∧ t.blk.get (GAL_STAT_STATE n) = 0 ∧ t.blk.get (GAL_STAT_LCODE n) = 5 ∧
      t.blk.flag (GAL_CAUSE_LOADERR n) = true ∧ (t.blk.eng[n]).prog = [] ∧ (t.blk.eng[n]).data = [] ∧
      (∀ m : Fin 16, m ≠ n → t.blk.eng[m] = s.blk.eng[m]) ∧
      Frame [GAL_STAT_STATE n, GAL_STAT_LCODE n, GAL_CAUSE_LOADERR n, EVT_PEND_PEND, EVT_OVR_OVR] [.eng, .tm, .host, .out] s t)

/-- R134, R170 to R173, R175, R179, R190, R194: START waits for the trigger or for 1 µs, takes effect at ENTRY with the state of
R134 where the admission passes, and is refused with its LCODE otherwise; EN 0 halts or aborts; the spare is designated and
released; a cleared retirement returns the core; the data-store port and the clears.
Choices and readings of the model: log entries 29 and 71. -/
def Obligations.EngineControl : Prop :=
  (∀ (s : State) (n : Fin 16), s.blk.hostFree = true → s.blk.synced = false → startable (s.blk.get (GAL_STAT_STATE n)) = true →
    (s.blk.eng[n]).startPend = false → (s.blk.eng[n]).startAt = none →
    ∃ t, exec (.engineStart n true) s = .next t ∧ t.blk.flag (GAL_CTL_EN n) = true ∧
      (s.blk.flag SYS_CYCLE_RUN = true → t.blk.eng[n] = { s.blk.eng[n] with startPend := true }) ∧
      (s.blk.flag SYS_CYCLE_RUN = false → t.blk.eng[n] = { s.blk.eng[n] with startAt := some (s.blk.tm.phys + 1000 * nsUnit) }) ∧
      (∀ m : Fin 16, m ≠ n → t.blk.eng[m] = s.blk.eng[m]) ∧ Frame [GAL_CTL_EN n] [.eng] s t) ∧
  (∀ (s : State) (n : Fin 16), s.blk.hostFree = true → s.blk.synced = false → startable (s.blk.get (GAL_STAT_STATE n)) = false →
    ∃ t, exec (.engineStart n true) s = .next t ∧ t.blk.get (GAL_STAT_LCODE n) =
        (if s.blk.get (GAL_STAT_STATE n) = 7 then 9 else if s.blk.flag (GAL_STAT_LOST n) then 8 else 1) ∧
      Frame [GAL_STAT_LCODE n, GAL_CTL_EN n] [] s t) ∧
  (∀ (s : State) (n : Fin 16), s.blk.hostFree = true → s.blk.synced = false → s.blk.get (GAL_STAT_STATE n) ∉ [1, 3, 7] →
    ∃ t, exec (.engineStart n false) s = .next t ∧
      t.blk.get (GAL_STAT_LCODE n) = (if s.blk.flag (GAL_STAT_LOST n) then 8 else 1) ∧ t.blk.flag (GAL_CTL_EN n) = false ∧
      Frame [GAL_STAT_LCODE n, GAL_CTL_EN n] [] s t) ∧
  (∀ (s : State) (n : Fin 16) (at_ : Nat), s.blk.banksPending n = false → (s.blk.eng[n]).startAt = some at_ →
    startable (s.blk.get (GAL_STAT_STATE n)) = true → s.blk.flag (GAL_CTL_EN n) = true →
    s.blk.admission n (s.blk.runningEngines ++ [n.val]) = 0 →
    ∃ t, exec (.engineStartEffect n) s = .next t ∧ t.blk.running n = true ∧ t.blk.get (GAL_STAT_LCODE n) = 0 ∧
      (t.blk.eng[n]).pc = (s.blk.eng[n]).entry ∧ (t.blk.eng[n]).g = Vector.replicate 64 0 ∧ (t.blk.eng[n]).f = 0 ∧
      (t.blk.eng[n]).sig = 0 ∧ (t.blk.eng[n]).tags = Vector.replicate 4 .free ∧
      (t.blk.eng[n]).trig = (s.blk.eng[n]).trig ∧ (t.blk.eng[n]).prog = (s.blk.eng[n]).prog ∧
      (t.blk.eng[n]).data = (s.blk.eng[n]).data ∧ at_ ≤ t.blk.tm.phys ∧ (t.blk.eng[n]).readyAt = t.blk.tm.phys ∧
      (∀ m : Fin 16, m ≠ n → t.blk.eng[m] = s.blk.eng[m]) ∧
      Frame [GAL_STAT_STATE n, GAL_STAT_LCODE n, GAL_STAT_CORE15 n, GAL_SPARE_BUSY, GAL_SPARE_AVAIL] [.eng, .tm] s t) ∧
  (∀ (s : State) (n : Fin 16) (at_ : Nat), s.blk.banksPending n = false → (s.blk.eng[n]).startAt = some at_ →
    startable (s.blk.get (GAL_STAT_STATE n)) = true → s.blk.flag (GAL_CTL_EN n) = true →
    s.blk.admission n (s.blk.runningEngines ++ [n.val]) ≠ 0 →
    ∃ t, exec (.engineStartEffect n) s = .next t ∧
      t.blk.get (GAL_STAT_LCODE n) = s.blk.admission n (s.blk.runningEngines ++ [n.val]) ∧
      (t.blk.eng[n]).pc = (s.blk.eng[n]).pc ∧ Frame [GAL_STAT_LCODE n] [.eng, .tm] s t) ∧
  (∀ (s : State) (n : Fin 16), s.blk.hostFree = true → s.blk.synced = false → s.blk.get (GAL_STAT_STATE n) = 3 →
    ∃ t, exec (.engineDisable n) s = .next t ∧ t.blk.get (GAL_STAT_STATE n) = 4 ∧ t.blk.flag (GAL_CTL_EN n) = false ∧
      (t.blk.eng[n]).g = (s.blk.eng[n]).g ∧ (t.blk.eng[n]).wait = .none ∧
      (∀ m : Fin 16, m ≠ n → t.blk.eng[m] = s.blk.eng[m]) ∧
      (s.blk.coreOk = true → FrameOn (leaveTouch n) [.eng, .trc, .host, .out, .sw, .macs] s t)) ∧
  (∀ (s : State) (n : Fin 16), s.blk.hostFree = true → s.blk.synced = false → s.blk.get (GAL_STAT_STATE n) = 1 →
    ∃ t, exec (.engineDisable n) s = .next t ∧ t.blk.get (GAL_STAT_STATE n) = 0 ∧ t.blk.get (GAL_STAT_LCODE n) = 6 ∧
      t.blk.flag (GAL_CTL_EN n) = false ∧ (t.blk.eng[n]).prog = [] ∧
      Frame [GAL_CTL_EN n, GAL_STAT_STATE n, GAL_STAT_LCODE n, GAL_CAUSE_LOADERR n, EVT_PEND_PEND, EVT_OVR_OVR]
        [.eng, .host, .out] s t) ∧
  (∀ (s : State) (n : Fin 16), s.blk.hostFree = true → s.blk.synced = false → s.blk.get (GAL_STAT_STATE n) ∉ [1, 3] →
    ∃ t, exec (.engineDisable n) s = .next t ∧ t.blk.flag (GAL_CTL_EN n) = false ∧ Frame [GAL_CTL_EN n] [] s t) ∧
  (∀ s : State, s.blk.hostFree = true → s.blk.synced = false → loadable (s.blk.get (GAL_STAT_STATE 15)) = true →
    ∃ t, exec (.spareDesignate true) s = .next t ∧ t.blk.flag GAL_SPARE_EN = true ∧ t.blk.get (GAL_STAT_STATE 15) = 7 ∧
      t.blk.flag GAL_SPARE_AVAIL = (!s.blk.isRetired ⟨4, 15⟩ && !s.blk.flag GAL_SPARE_BUSY) ∧
      Frame [GAL_SPARE_EN, GAL_SPARE_AVAIL, GAL_STAT_STATE 15] [.eng] s t) ∧
  (∀ s : State, s.blk.hostFree = true → s.blk.synced = false → loadable (s.blk.get (GAL_STAT_STATE 15)) = false →
    s.blk.get (GAL_STAT_STATE 15) ≠ 7 →
    ∃ t, exec (.spareDesignate true) s = .next t ∧ t.blk.get (GAL_STAT_LCODE 15) = 1 ∧ Frame [GAL_STAT_LCODE 15] [] s t) ∧
  (∀ s : State, s.blk.hostFree = true → s.blk.synced = false → s.blk.get (GAL_STAT_STATE 15) = 7 → s.blk.flag GAL_SPARE_BUSY = false →
    ∃ t, exec (.spareDesignate false) s = .next t ∧ t.blk.flag GAL_SPARE_EN = false ∧ t.blk.flag GAL_SPARE_AVAIL = false ∧
      t.blk.get (GAL_STAT_STATE 15) = 0 ∧ Frame [GAL_SPARE_EN, GAL_SPARE_AVAIL, GAL_STAT_STATE 15] [] s t) ∧
  (∀ (s : State) (n : Fin 16), s.blk.hostFree = true →
    ∃ t, exec (.engineRetireClear n) s = .next t ∧ t.blk.flag (GAL_STAT_RETIRED n) = false ∧
      t.blk.isRetired ⟨4, n⟩ = false ∧
      (s.blk.get (GAL_STAT_STATE n) = 6 → t.blk.get (GAL_STAT_STATE n) = 4) ∧
      (s.blk.get (GAL_STAT_STATE n) ≠ 6 → t.blk.get (GAL_STAT_STATE n) = s.blk.get (GAL_STAT_STATE n)) ∧
      Frame [GAL_STAT_RETIRED n, GAL_STAT_STATE n, GAL_SPARE_AVAIL, SYS_RETIRED_KIND] [.eng, .retired, .retRec, .strikes] s t) ∧
  (∀ (s : State) (n : Fin 16) (d : Half), s.blk.hostFree = true → s.blk.synced = false →
    bankGood s.blk (96 * n + 64 + d.toNat % 2 ^ 14 / 512) = true → ∃ t, exec (.ddataCapture n d) s = .next t ∧
    t.blk.get (GAL_DADDR_ADDR n) = d.toNat % 2 ^ 14 ∧
    t.blk.reg (GAL_DDATA n) = (s.blk.eng[n]).hwLoad s.blk.tm.phys (d.toNat % 2 ^ 14) ∧
    Frame [GAL_DADDR_ADDR n, GAL_DDATA_DATA n] [] s t) ∧
  (∀ (s : State) (n : Fin 16) (d : Half), s.blk.hostFree = true →
    s.blk.pw.lost.getLsbD (96 * n + 64 + d.toNat % 2 ^ 14 / 512) = true → s.blk.domOn 7 = true →
    ∃ t, exec (.ddataCapture n d) s = .next t ∧
      t.blk.get HOST_ERRCAUSE_CODE = 4 ∧ Out.completerAbort (GAL_DADDR n) ∈ t.blk.out ∧
      Frame [HOST_ERRCAUSE_CODE, HOST_ERRCAUSE_CNT, HOST_ERRADDR_ADDR, EVT_PEND_PEND, EVT_OVR_OVR] [.host, .out] s t) ∧
  (∀ (s : State) (n : Fin 16) (hi : Bool) (d : Half), s.blk.hostFree = true → s.blk.synced = false →
    bankGood s.blk (96 * n + 64 + s.blk.get (GAL_DADDR_ADDR n) / 512) = true → ∃ t, exec (.ddataWrite n hi d) s = .next t ∧
    (t.blk.eng[n]).hwLoad s.blk.tm.phys (s.blk.get (GAL_DADDR_ADDR n)) =
      putHalf ((s.blk.eng[n]).hwLoad s.blk.tm.phys (s.blk.get (GAL_DADDR_ADDR n))) hi d ∧
    (∀ k, k ≠ s.blk.get (GAL_DADDR_ADDR n) →
      (t.blk.eng[n]).hwLoad s.blk.tm.phys k = (s.blk.eng[n]).hwLoad s.blk.tm.phys k) ∧
    t.blk.reg (GAL_DDATA n) = putHalf (s.blk.reg (GAL_DDATA n)) hi d ∧
    (∀ m : Fin 16, m ≠ n → t.blk.eng[m] = s.blk.eng[m]) ∧ Frame [GAL_DDATA_DATA n] [.eng, .pair] s t) ∧
  (∀ (s : State) (n : Fin 16), s.blk.hostFree = true → ∃ t, exec (.galHdiscClr n) s = .next t ∧ t.blk.get (GAL_STAT_HDISC n) = 0 ∧
    Frame [GAL_STAT_HDISC n] [] s t) ∧
  (∀ (s : State) (n : Fin 16), s.blk.hostFree = true → s.blk.synced = false → ∃ t, exec (.galRcodeClr n) s = .next t ∧
    t.blk.get (GAL_CAUSE_RCODE n) = 0 ∧ t.blk.get (GAL_CAUSE_RCNT n) = 0 ∧
    Frame [GAL_CAUSE_RCODE n, GAL_CAUSE_RCNT n] [] s t) ∧
  (∀ (s : State) (n : Fin 16), s.blk.hostFree = true → ∃ t, exec (.galSlackClr n) s = .next t ∧ t.blk.get (GAL_SLACK_MIN n) = 0x3FFFFF ∧
    Frame [GAL_SLACK_MIN n] [] s t)

/-! ### Flowstone -/

/-- R155, R208, R209, R211, R212, R221: CAMQ queues its batch in order, is refused on a tag in use or a full queue, traps beyond the
last record and completes with NAK_OFF while EN is 0; a batch is dispatched in turn and keeps its queue entry until its dispatch
ends, a disabled record is held, a cached one evaluated, a missed one when its segment arrives; completion writes the results and
the tag.
Choices and readings of the model: log entry 34. -/
def Obligations.FlowstoneBatches : Prop :=
  (∀ (s : State) (e : Fin 16) (f : FormD) (k : Fin 4), s.blk.stands e (encodeD Op.camq.code f) (checkD .camq f) f.psel →
    k.val = f.sel.toNat % 4 → f.imm.toNat / 2 ^ 14 % 2 ^ 18 + (f.imm.toNat / 4 % 2 ^ 12 + 1) ≤ 262144 →
    (s.blk.eng[e]).tags[k] = .free → s.blk.flwStopped = false → s.blk.flw.flight.any Flight.busy = false →
    s.blk.flw.queue.length < 16 →
    ∃ t, exec (.camq e f .none) s = .next t ∧
      Executed e (fun x => { x with tags := x.tags.set k .outstanding }.wf f.sf true) 12 ((s.blk.eng[e]).pc + 1)
        (within 0x300000 0x380000) [.flw] s t ∧
      t.blk.flw.queue = enqueueBatch (camqBatch s.blk e f) s.blk.flw.queue ∧
      t.blk.flw.recs = s.blk.flw.recs ∧ t.blk.flw.flight = s.blk.flw.flight) ∧
  (∀ (s : State) (e : Fin 16) (f : FormD) (k : Fin 4) (b0 : Block),
    s.blk.stands e (encodeD Op.camq.code f) (checkD .camq f) f.psel → k.val = f.sel.toNat % 4 →
    f.imm.toNat / 2 ^ 14 % 2 ^ 18 + (f.imm.toNat / 4 % 2 ^ 12 + 1) ≤ 262144 →
    (s.blk.eng[e]).tags[k] = .free → s.blk.flwStopped = false →
    b0 = (s.blk.atFirst e).dispatchTo (some (camqBatch s.blk e f).at_) → b0.flw.queue.length < 16 →
    ∃ t, exec (.camq e f .none) s = .next t ∧ t.blk.flw.queue = (b0.enqueueIn (camqBatch s.blk e f)).flw.queue ∧
      (t.blk.eng[e]).tags = (s.blk.eng[e]).tags.set k .outstanding ∧ (t.blk.eng[e]).pc = (s.blk.eng[e]).pc + 1 ∧
      (t.blk.eng[e]).g = (s.blk.eng[e]).g ∧ (t.blk.eng[e]).data = (s.blk.eng[e]).data ∧
      (t.blk.eng[e]).readyAt = s.blk.firstTick e + 12 * tick ∧
      (∀ m : Fin 16, m ≠ e → t.blk.eng[m] = s.blk.eng[m]) ∧ t.pending = s.pending) ∧
  (∀ (s : State) (e : Fin 16) (f : FormD) (k : Fin 4), s.blk.stands e (encodeD Op.camq.code f) (checkD .camq f) f.psel →
    k.val = f.sel.toNat % 4 → f.imm.toNat / 2 ^ 14 % 2 ^ 18 + (f.imm.toNat / 4 % 2 ^ 12 + 1) ≤ 262144 →
    ((s.blk.eng[e]).tags[k] ≠ .free ∨
      s.blk.flwStopped = false ∧ s.blk.flw.flight.any Flight.busy = false ∧ 16 ≤ s.blk.flw.queue.length) →
    ∃ t, exec (.camq e f .none) s = .next t ∧ Computes e (fun x => x.wf f.sf false) 12 s t) ∧
  (∀ (s : State) (e : Fin 16) (f : FormD) (k : Fin 4), s.blk.stands e (encodeD Op.camq.code f) (checkD .camq f) f.psel →
    k.val = f.sel.toNat % 4 → f.imm.toNat / 2 ^ 14 % 2 ^ 18 + (f.imm.toNat / 4 % 2 ^ 12 + 1) ≤ 262144 →
    (s.blk.eng[e]).tags[k] = .free → s.blk.flwStopped = true →
    ∃ t, exec (.camq e f .none) s = .next t ∧ (∃ w, (t.blk.eng[e]).tags[k] = .done w ∧ w.toNat % 16 = 1) ∧
      (∀ i, (camqBatch s.blk e f).first ≤ i → i < (camqBatch s.blk e f).first + (camqBatch s.blk e f).count →
        t.blk.rec_ i = { s.blk.rec_ i with r1 := heldRes 7 }) ∧
      (∀ i, (i < (camqBatch s.blk e f).first ∨ (camqBatch s.blk e f).first + (camqBatch s.blk e f).count ≤ i) →
        t.blk.rec_ i = s.blk.rec_ i) ∧
      t.blk.flw.queue = s.blk.flw.queue ∧ (t.blk.eng[e]).pc = (s.blk.eng[e]).pc + 1 ∧
      (∀ m : Fin 16, m ≠ e → t.blk.eng[m] = s.blk.eng[m]) ∧
      FrameOn (fun a => flwTouch a) [.flw, .eng, .tm, .trc, .host, .out] s t) ∧
  (∀ (s : State) (e : Fin 16) (f : FormD), s.blk.stands e (encodeD Op.camq.code f) (checkD .camq f) f.psel →
    262144 < f.imm.toNat / 2 ^ 14 % 2 ^ 18 + (f.imm.toNat / 4 % 2 ^ 12 + 1) →
    ∃ t, exec (.camq e f .none) s = .next t ∧ Trapped e 7 s t) ∧
  (∀ (s : State) (x : Batch) (l : List Batch), s.blk.flw.queue = x :: l → s.blk.flw.flight = [] →
    s.blk.flag FLW_CTL_EN = true → x.count = 1 → (s.blk.rec_ x.first).w2f FLW_WIN_W2_EN = 0 →
    ∃ t, exec (.batchDispatch [] []) s = .next t ∧ t.blk.flw.queue = l ∧ max x.at_ s.blk.flw.freeAt ≤ t.blk.tm.phys ∧
      t.blk.rec_ x.first = { s.blk.rec_ x.first with r1 := heldRes 1 } ∧
      (∀ i, i ≠ x.first → t.blk.rec_ i = s.blk.rec_ i) ∧
      (∃ fl : Flight, t.blk.flw.flight = [fl] ∧ fl.b = x ∧ fl.held = 1 ∧ fl.evald = 0 ∧ fl.todo = [] ∧ fl.waiting = [] ∧
        fl.results = [] ∧ fl.start = t.blk.tm.phys) ∧
      FrameOn flwTouch [.flw, .tm, .host, .out] s t) ∧
  (∀ (s : State) (x : Batch) (l : List Batch) (o : EvalOut), s.blk.flw.queue = x :: l → s.blk.flw.flight = [] →
    s.blk.flag FLW_CTL_EN = true → x.count = 1 →
    s.blk.holdReason (s.blk.rec_ x.first) (s.blk.get FLW_SHED_LEVEL) = none →
    (∀ c, s.blk.retiring c = false) → s.blk.get FLW_STAT_ACTIVE = s.blk.cellMask →
    s.blk.evaluate x.first { s.blk.rec_ x.first with u := some (sval (x.pm + (s.blk.rec_ x.first).w3)) } x.pm x.vm = .inl o →
    ∃ t, exec (.batchDispatch [] []) s = .next t ∧ t.blk.flw.queue = l ∧ max x.at_ s.blk.flw.freeAt ≤ t.blk.tm.phys ∧
      (∃ (fl : Flight) (c : Nat), t.blk.flw.flight = [fl] ∧ fl.b = x ∧ fl.evald = 1 ∧ fl.todo = [] ∧ fl.waiting = [] ∧
        s.blk.cellList.head? = some c ∧ fl.start = t.blk.tm.phys ∧
        fl.results = [⟨o.res, c, t.blk.tm.phys + 8 * (1 + o.extra) * tick⟩] ∧ fl.extra = o.extra) ∧
      t.blk.flw.count = s.blk.flw.count + 1 + o.extra ∧ (t.blk.rec_ x.first).r0 = (s.blk.rec_ x.first).r0 ∧
      t.blk.eng = s.blk.eng ∧ t.pending = s.pending) ∧
  (∀ (s : State) (fl : Flight) (m : Miss) (o : EvalOut), s.blk.flw.flight = [fl] → s.blk.flwQuiet → fl.waiting = [m] →
    s.blk.cav.corr = [] → s.blk.cav.uncorr = [] →
    (s.blk.fetchKey m.key).1.evaluate m.rec_ m.r fl.b.pm fl.b.vm = .inl o →
    ∃ t, exec (.segmentFetchDone []) s = .next t ∧
      (∃ y : Flight, t.blk.flw.flight = [y] ∧ y.waiting = [] ∧ y.b = fl.b ∧ y.extra = fl.extra + o.extra ∧
        y.results = fl.results ++ [⟨o.res, m.cell, s.blk.tm.phys + 8 * (1 + o.extra) * tick⟩]) ∧
      t.blk.cav = s.blk.cav ∧ t.blk.flw.recs = s.blk.flw.recs ∧ FrameOn flwTouch [.flw, .trc, .host, .out] s t) ∧
  (∀ (s : State) (fl : Flight) (y : Slot) (x : SlotResult) (e : Fin 16) (k : Fin 4), s.blk.flw.flight = [fl] → fl.todo = [] →
    fl.off = false → fl.waiting = [] → fl.results = [y] → y.res = x → fl.b.eng = e.val → fl.b.tag = k.val →
    (s.blk.eng[e]).tagRun = fl.b.run →
    ∃ t, exec .batchComplete s = .next t ∧ t.blk.flw.flight = [] ∧
      (t.blk.eng[e]).tags[k] = .done (s.blk.batchStatus fl false) ∧ s.blk.doneTime fl ≤ t.blk.tm.phys ∧
      (t.blk.eng[e]).doneAt[k] = t.blk.tm.phys ∧
      (t.blk.rec_ x.rec_).r1 = x.r1 ∧ (∀ p, x.pos = some p → (t.blk.rec_ x.rec_).r0 = p) ∧
      (x.pos = none → (t.blk.rec_ x.rec_).r0 = (s.blk.rec_ x.rec_).r0) ∧
      (∀ i, i ≠ x.rec_ → t.blk.rec_ i = s.blk.rec_ i) ∧
      (∀ a p, x.copy = some a → x.pos = some p → (t.blk.eng[e]).hwLoad (min y.due t.blk.tm.phys) a = p) ∧
      (x.copy = none → (t.blk.eng[e]).data = (s.blk.eng[e]).data) ∧
      (∀ m : Fin 16, m ≠ e → t.blk.eng[m] = s.blk.eng[m]) ∧
      FrameOn (within 0x300000 0x380000) [.flw, .eng, .tm, .pair] s t)

/-- R205, R216, R218, R221, R224, R225: the seek at the head of the queue places its record, EN 0 empties the queue and ends a
batch that is being dispatched with NAK_OFF, SWITCH sets SWP in the enabled records of a range, a window takes writes of IDX, W2
and W3 and no others, and a cleared cell reads as not retired and returns at the next boundary.
Choices and readings of the model: log entry 34. -/
def Obligations.FlowstoneControl : Prop :=
  (∀ (s : State) (i : Nat) (l ks : List Nat) (sg : Nat) (x y : Int), s.blk.flw.seekQ = i :: l → s.blk.flwQuiet → s.blk.flag FLW_CTL_EN = true →
    (s.blk.rec_ i).w2f FLW_WIN_W2_STATE = 1 → (s.blk.rec_ i).w2f FLW_WIN_W2_EN = 1 →
    s.blk.tabUsable ((s.blk.rec_ i).w2f FLW_WIN_W2_TAB) = true → s.blk.cav.corr = [] → s.blk.cav.uncorr = [] →
    s.blk.seekTab (s.blk.camTab ((s.blk.rec_ i).w2f FLW_WIN_W2_TAB)) ((s.blk.rec_ i).u.getD (sval (s.blk.rec_ i).w3)) =
      (ks, .found sg x y) →
    ∃ t, exec (.seekDone []) s = .next t ∧ t.blk.flw.seekQ = l ∧ (t.blk.rec_ i).w2f FLW_WIN_W2_STATE = 2 ∧
      (t.blk.rec_ i).w2f FLW_WIN_W2_SIDX = sg % 2 ^ 20 ∧ (t.blk.rec_ i).w0 = BitVec.ofInt 72 y ∧
      (t.blk.rec_ i).w1 = BitVec.ofInt 72 x ∧ (t.blk.rec_ i).w3 = (s.blk.rec_ i).w3 ∧
      (∀ j, j ≠ i → t.blk.rec_ j = s.blk.rec_ j) ∧ FrameOn flwTouch [.flw, .trc, .host, .out] s t) ∧
  (∀ s : State, s.blk.hostFree = true → s.blk.synced = false → s.blk.flwQuiet → s.blk.flag FLW_CTL_EN = true →
    ∃ t, exec .flowstoneDisable s = .next t ∧ t.blk.flag FLW_CTL_EN = false ∧ t.blk.flw.queue = [] ∧
      t.blk.flw.flight = s.blk.flw.flight ∧ t.blk.flw.seekQ = s.blk.flw.seekQ ∧
      FrameOn flwTouch [.flw, .eng, .host, .out] s t) ∧
  (∀ (s : State) (fl : Flight) (x : Batch) (e : Fin 16) (k : Fin 4), s.blk.hostFree = true → s.blk.synced = false →
    s.blk.flag FLW_CTL_EN = true → s.blk.flw.flight = [fl] → fl.todo ≠ [] → fl.b = x → s.blk.flw.queue = [x] →
    s.blk.tm.phys < s.blk.slotAt fl → (∀ y ∈ fl.results, s.blk.tm.phys < y.due) → x.eng = e.val → x.tag = k.val →
    (s.blk.eng[e]).tagRun = x.run →
    ∃ t, exec .flowstoneDisable s = .next t ∧ t.blk.flag FLW_CTL_EN = false ∧ t.blk.flw.queue = [] ∧
      (∃ w, (t.blk.eng[e]).tags[k] = .done w ∧ w.toNat % 16 = 1) ∧
      (∃ y : Flight, t.blk.flw.flight = [y] ∧ y.off = true ∧ y.todo = [] ∧ y.results = fl.results ∧ y.waiting = fl.waiting) ∧
      (∀ i ∈ fl.todo, (t.blk.rec_ i).r1 = heldRes 7) ∧ (∀ i, i ∉ fl.todo → t.blk.rec_ i = s.blk.rec_ i) ∧
      FrameOn flwTouch [.flw, .eng, .host, .out] s t) ∧
  (∀ (s : State) (d : Half), s.blk.hostFree = true → s.blk.synced = false → s.blk.flwQuiet → ∃ t, exec (.switchGo d) s = .next t ∧
    t.blk.get FLW_SWCTL_FIRST = d.toNat % 2 ^ 18 ∧ t.blk.get FLW_SWCTL_LAST = d.toNat / 2 ^ 18 % 2 ^ 18 ∧
    (∀ i, d.toNat % 2 ^ 18 ≤ i → i ≤ d.toNat / 2 ^ 18 % 2 ^ 18 → (s.blk.rec_ i).w2f FLW_WIN_W2_EN = 1 →
      (t.blk.rec_ i).w2f FLW_WIN_W2_SWP = 1) ∧
    (∀ i, (i < d.toNat % 2 ^ 18 ∨ d.toNat / 2 ^ 18 % 2 ^ 18 < i ∨ (s.blk.rec_ i).w2f FLW_WIN_W2_EN = 0) →
      t.blk.rec_ i = s.blk.rec_ i) ∧
    FrameOn (within 0x300000 0x380000) [.flw] s t) ∧
  (∀ (s : State) (w : Fin 17) (hi : Bool) (d : Half), s.blk.hostFree = true → s.blk.synced = false → s.blk.flwQuiet → ∃ t, exec (.recordWrite w 4 hi d) s = .next t ∧
    (t.blk.rec_ (fieldOf (s.blk.reg (recWin w)) 0 18)).w3 = putHalf (s.blk.reg (recWin w + 0x40)) hi d ∧
    (∀ j, j ≠ fieldOf (s.blk.reg (recWin w)) 0 18 → t.blk.rec_ j = s.blk.rec_ j) ∧
    FrameOn (within 0x300000 0x380000) [.flw] s t) ∧
  (∀ (s : State) (w : Fin 17) (hi : Bool) (d : Half) (v : Word), s.blk.hostFree = true → s.blk.synced = false → s.blk.flwQuiet →
    v = putHalf (s.blk.reg (recWin w + 0x30)) hi d → v.getLsbD 40 = true →
    (s.blk.rec_ (fieldOf (s.blk.reg (recWin w)) 0 18)).w2f FLW_WIN_W2_EN = 0 →
    ∃ t, exec (.recordWrite w 3 hi d) s = .next t ∧
      (t.blk.rec_ (fieldOf (s.blk.reg (recWin w)) 0 18)).w2f FLW_WIN_W2_EN = 1 ∧
      (t.blk.rec_ (fieldOf (s.blk.reg (recWin w)) 0 18)).w2f FLW_WIN_W2_STATE = 1 ∧
      (t.blk.rec_ (fieldOf (s.blk.reg (recWin w)) 0 18)).w2f FLW_WIN_W2_TAB = v.toNat % 2 ^ 10 ∧
      (∀ j, j ≠ fieldOf (s.blk.reg (recWin w)) 0 18 → t.blk.rec_ j = s.blk.rec_ j) ∧
      FrameOn (within 0x300000 0x380000) [.flw] s t) ∧
  (∀ (s : State) (w : Fin 17) (r : Fin 5) (hi : Bool) (d : Half), s.blk.hostFree = true → s.blk.synced = false → s.blk.flwQuiet → r = 1 ∨ r = 2 →
    ∃ t, exec (.recordWrite w r hi d) s = .next t ∧ t.blk.flw = s.blk.flw ∧ FrameOn (within 0x300000 0x380000) [] s t) ∧
  (∀ (s : State) (w : Fin 17) (hi : Bool) (d : Half), s.blk.hostFree = true → s.blk.synced = false → s.blk.flwQuiet → ∃ t, exec (.recordWrite w 0 hi d) s = .next t ∧
    fieldOf (t.blk.reg (recWin w)) 0 18 = fieldOf (putHalf (s.blk.reg (recWin w)) hi d) 0 18 ∧
    t.blk.flw = s.blk.flw ∧ FrameOn (within 0x300000 0x380000) [] s t) ∧
  (∀ (s : State) (m : BitVec 8), s.blk.hostFree = true → s.blk.synced = false → ∃ t, exec (.cellRetireClear m) s = .next t ∧
    t.blk.flw.restore = s.blk.flw.restore ||| (m &&& BitVec.ofNat 8 (s.blk.get FLW_STAT_RETIRED)) ∧
    t.blk.get FLW_STAT_RETIRED = (BitVec.ofNat 8 (s.blk.get FLW_STAT_RETIRED) &&& ~~~m).toNat ∧
    Frame [FLW_STAT_RETIRED] [.flw] s t)

/-! ### The Zalnus rings -/

/-- R229 to R232, R254, R257 to R259, R261, R263: a frame of the train leaves on the primary port and its ring runs; a bad return
makes the cycle invalid, a good one completes its frame; mailbox frames go up and down and their echo is taken; scan and
keep-alive frames leave at their instants.
Choices and readings of the model: log entries 35, 50 and 74. -/
def Obligations.RingTraffic : Prop :=
  (∀ (s : State) (n : Fin 32) (x : TrainFrame) (l : List TrainFrame), (s.blk.ringState n = 2 ∨ s.blk.ringState n = 3) →
    s.blk.flwQuiet → (s.blk.ring n).train = x :: l → x.sent = [] → s.blk.isRing n = false →
    s.blk.flag (MAC_STAT_LINK (s.blk.ringPort n false)) = true →
    (∀ sf, s.blk.frameOf x.fid = some sf → sf.errs = []) →
    ∃ t, exec (.ringFrameSend n []) s = .next t ∧ t.blk.ringState n = 3 ∧ (s.blk.ring n).sendEnd ≤ t.blk.tm.phys ∧
      (∃ y ∈ (t.blk.ring n).train, y.fid = x.fid ∧ y.sent.map (·.1) = [s.blk.ringPort n false]) ∧
      (∃ w, Out.ringFrame (s.blk.ringPort n false) (w ++ fcsOf w) ∈ t.blk.out) ∧
      FrameOn zrgTouch [.rings, .sw, .flw, .trc, .tm, .host, .out] s t) ∧
  (∀ (s : State) (n : Fin 32) (f : WireFrame) (dt : Nat), s.blk.flag (MAC_STAT_LINK (s.blk.ringPort n false)) = true →
    s.blk.ringMute = false → (s.blk.ringState n = 3 ∨ s.blk.ringState n = 5) → (s.blk.ring n).bad = false → f.fcsOk = false →
    60 ≤ f.bytes.length →
    ((s.blk.trainOf n f.bytes = none ∧ s.blk.get (ZRG_CFG_TOPO n) ≠ 2) ∨
      ∃ x out txs, s.blk.trainOf n f.bytes = some (x, out, txs) ∧ x ∈ (s.blk.ring n).train) →
    ∃ t, exec (.ringFrameReturn n false f dt) s = .next t ∧ t.blk.flag (ZRG_CAUSE_INVALID n) = true ∧
      t.blk.get (ZRG_CAUSE_ICODE n) = 1 ∧ (t.blk.ring n).bad = true ∧ (t.blk.ring n).train = (s.blk.ring n).train ∧
      t.blk.count (ZRG_CNT n 1) = sat (2 ^ 40 - 1) (s.blk.count (ZRG_CNT n 1) + 1) ∧
      FrameOn zrgTouch [.rings, .tm, .host, .out] s t) ∧
  (∀ (s : State) (n : Fin 32) (f : WireFrame) (dt out txs : Nat) (x : TrainFrame),
    s.blk.flag (MAC_STAT_LINK (s.blk.ringPort n false)) = true → s.blk.ringMute = false →
    (s.blk.ringState n = 3 ∨ s.blk.ringState n = 4 ∨ s.blk.ringState n = 5) →
    f.fcsOk = true → s.blk.rxCode (s.blk.ringPort n false) f = false → 60 ≤ f.bytes.length →
    s.blk.isCycleFrame f.bytes = true → s.blk.trainOf n f.bytes = some (x, out, txs) →
    ∃ t, exec (.ringFrameReturn n false f dt) s = .next t ∧
      (∃ y ∈ (t.blk.ring n).train ++ (t.blk.ring n).old, y.fid = x.fid ∧ y.got = x.got ++ [txs] ∧
        (s.blk.isRing n = false → y.sent = x.sent)) ∧
      t.blk.cav = s.blk.cav ∧ t.pending = s.pending) ∧
  (∀ (s : State) (n : Fin 32) (l : List Byte) (dt : Nat), s.blk.coreOk = true → s.blk.ringState n ≠ 0 →
    s.blk.flag (MAC_STAT_LINK (s.blk.ringPort n false)) = true →
    s.blk.rxKind (s.blk.ringPort n false) ⟨l, true, false, 0, 0⟩ = 0 → s.blk.isMail n true l = true →
    ∃ t, exec (.mailboxUp n false l dt) s = .next t ∧ t.blk.flag (ZRG_CAUSE_MBXUP n) = true ∧
      t.blk.count (ZRG_CNT n 5) = sat (2 ^ 40 - 1) (s.blk.count (ZRG_CNT n 5) + 1) ∧
      FrameOn zrgTouch [.sw, .macs, .trc, .tm, .host, .out] s t) ∧
  (∀ (s : State) (n : Fin 32) (l : List Byte) (dt : Nat), s.blk.ringState n ≠ 0 →
    s.blk.flag (MAC_STAT_LINK (s.blk.ringPort n false)) = true →
    s.blk.rxKind (s.blk.ringPort n false) ⟨l, true, false, 0, 0⟩ = 0 → s.blk.isMail n true l = false →
    ∃ t, exec (.mailboxUp n false l dt) s = .next t ∧ t.blk.flag (ZRG_CAUSE_DISC n) = true ∧
      t.blk.sw = s.blk.sw ∧ FrameOn zrgTouch [.tm, .host, .out] s t) ∧
  (∀ (s : State) (n : Fin 32) (x : Copy) (sf : SFrame), s.blk.coreOk = true → s.blk.ringState n = 3 → s.blk.isRing n = false →
    s.blk.lastSent n = true → (s.blk.ring n).dn = false → s.blk.flag (MAC_STAT_LINK (s.blk.ringPort n false)) = true →
    ((List.range 8).map (7 - ·)).findSome? (s.blk.headOf (s.blk.ringPort n false)) = some x → s.blk.frameOf x.fid = some sf →
    sf.errs = [] →
    ∃ t, exec (.mailboxDownSend n []) s = .next t ∧
      Out.ringFrame (s.blk.ringPort n false) (sf.f.bytes ++ fcsOf sf.f.bytes) ∈ t.blk.out ∧
      (t.blk.ring n).dn = true ∧ (t.blk.ring n).dnSeq = some (beAt sf.f.bytes 22 2, beAt sf.f.bytes 18 4) ∧
      (∀ y ∈ t.blk.sw.copies, sameCopy x y = false) ∧ FrameOn zrgTouch [.rings, .sw, .macs, .trc, .host, .out] s t) ∧
  (∀ (s : State) (n : Fin 32) (l : List Byte) (dt : Nat), s.blk.flag (MAC_STAT_LINK (s.blk.ringPort n false)) = true →
    s.blk.isMail n true l = true → (s.blk.ring n).dnSeq = some (beAt l 22 2, beAt l 18 4) →
    ∃ t, exec (.mailboxEcho n false l dt) s = .next t ∧ t.blk.flag (ZRG_CAUSE_MBXDN n) = true ∧
      (t.blk.ring n).dnSeq = none ∧
      t.blk.count (ZRG_CNT n 6) = sat (2 ^ 40 - 1) (s.blk.count (ZRG_CNT n 6) + 1) ∧
      FrameOn zrgTouch [.rings, .tm, .host, .out] s t) ∧
  (∀ (s : State) (n : Fin 32) (x : ScanSt) (r : ScanRet), (s.blk.ring n).scan = some x →
    s.blk.flag (MAC_STAT_LINK (s.blk.ringPort n false)) = true →
    ∃ t, exec (.scanFrame n (some r)) s = .next t ∧
      (t.blk.ring n).scan = some { x with
        frames := x.frames + 1, any := true, run := (if 0 < x.run ∧ x.nodes = r.nodes.toNat then x.run + 1 else 1)
        nodes := r.nodes.toNat, rtt := r.rtt.toNat, stamps := r.stamps } ∧
      (∃ w, Out.ringFrame (s.blk.ringPort n false) (w ++ fcsOf w) ∈ t.blk.out ∧ beAt w 14 1 = 4) ∧
      x.startAt + x.frames * 100000 * nsUnit ≤ t.blk.tm.phys ∧ FrameOn zrgTouch [.rings, .tm, .host, .out] s t) ∧
  (∀ (s : State) (n : Fin 32), s.blk.ringState n = 4 → s.blk.isRing n = false →
    s.blk.flag (MAC_STAT_LINK (s.blk.ringPort n false)) = true →
    ∃ t, exec (.keepaliveFrame n) s = .next t ∧
      (∃ w, Out.ringFrame (s.blk.ringPort n false) (w ++ fcsOf w) ∈ t.blk.out ∧ beAt w 14 1 = 1) ∧
      (s.blk.ring n).kaAt ≤ t.blk.tm.phys ∧ (t.blk.ring n).kaAt = t.blk.tm.phys + 1000000 * nsUnit ∧
      FrameOn zrgTouch [.rings, .tm, .host, .out] s t)

/-- R235, R248, R249, R255, R260 to R262, R266: SCAN begins a scan of a ring in OFF, four consistent scans end it in READY, one that finds
nothing in OFF with SCANERR; EN 0 stops a ring; retired nodes return; the watchdog is stored; the banks of the endpoint table
are exchanged, copied, written and read.
Choices and readings of the model: log entry 50. -/
def Obligations.RingControl : Prop :=
  (∀ (s : State) (n : Fin 32) (d : Half), s.blk.hostFree = true → s.blk.synced = false → s.blk.ringState n = 0 → d.getLsbD 0 = true →
    d.toNat / 2 % 4 ≤ 2 →
    ∃ t, exec (.ringScan n d) s = .next t ∧ t.blk.ringState n = 1 ∧ t.blk.flag (ZRG_CFG_EN n) = true ∧
      t.blk.get (ZRG_CFG_TOPO n) = d.toNat / 2 % 4 ∧ t.blk.get (ZRG_CFG_PORT n) = d.toNat / 2 ^ 3 % 2 ^ 5 ∧
      t.blk.get (ZRG_CFG_PEER n) = d.toNat / 2 ^ 8 % 2 ^ 5 ∧
      (t.blk.ring n).scan = some ⟨s.blk.tm.phys, 0, false, 0, 0, 0, []⟩ ∧ FrameOn zrgTouch [.rings, .host, .out] s t) ∧
  (∀ (s : State) (n : Fin 32) (x : ScanSt), (s.blk.ring n).scan = some x → 4 ≤ x.run →
    ∃ t, exec (.scanComplete n) s = .next t ∧ t.blk.ringState n = 2 ∧ t.blk.get (ZRG_STAT_NODES n) = min x.nodes 256 ∧
      t.blk.get (ZRG_TIMING_RTT n) = x.rtt % 2 ^ 20 ∧ t.blk.flag (ZRG_CAUSE_SCANDONE n) = true ∧
      t.blk.flag (ZRG_STAT_FULLNEXT n) = true ∧ (t.blk.ring n).scan = none ∧
      FrameOn zrgTouch [.rings, .host, .out] s t) ∧
  (∀ (s : State) (n : Fin 32) (x : ScanSt), s.blk.coreOk = true → (s.blk.ring n).scan = some x →
    ∃ t, exec (.scanTimeout n) s = .next t ∧ t.blk.ringState n = 0 ∧ t.blk.flag (ZRG_CAUSE_SCANERR n) = true ∧
      (t.blk.ring n).scan = none ∧ x.startAt + (if x.any then 10000000 else 1000000) * nsUnit ≤ t.blk.tm.phys ∧
      FrameOn zrgTouch [.rings, .sw, .macs, .trc, .tm, .host, .out] s t) ∧
  (∀ (s : State) (n : Fin 32) (d : Half), s.blk.hostFree = true → s.blk.coreOk = true → s.blk.synced = false → s.blk.flag (ZRG_CFG_EN n) = true →
    ∃ t, exec (.ringDisable n d) s = .next t ∧ t.blk.flag (ZRG_CFG_EN n) = false ∧
      (s.blk.ringState n = 3 ∨ s.blk.ringState n = 5 → t.blk.ringState n = 5) ∧
      (s.blk.ringState n ≠ 3 → s.blk.ringState n ≠ 5 → t.blk.ringState n = 0 ∧ (t.blk.ring n).train = []) ∧
      FrameOn zrgTouch [.rings, .sw, .macs, .trc, .host, .out] s t) ∧
  (∀ (s : State) (n : Fin 32), s.blk.coreOk = true → s.blk.ringState n = 5 →
    ((s.blk.ring n).train.all (·.back) = true ∨ s.blk.cyc.inProg = false) →
    ∃ t, exec (.ringStopDone n) s = .next t ∧ t.blk.ringState n = 0 ∧ (t.blk.ring n).train = [] ∧
      FrameOn zrgTouch [.rings, .sw, .macs, .trc, .host, .out] s t) ∧
  (∀ (s : State) (n : Fin 32) (j : Fin 4) (m : Half), s.blk.hostFree = true → ∃ t, exec (.nodeRetireClear n j m) s = .next t ∧
    sget (fun _ => 0) (t.blk.ring n).lost (4 * s.blk.get (ZRG_LSEL_SUBR n) + j) =
      clrMaskN (sget (fun _ => 0) (s.blk.ring n).lost (4 * s.blk.get (ZRG_LSEL_SUBR n) + j)) m.toNat ∧
    (∀ i < 64, bitAt (sget (fun _ => 0) (s.blk.ring n).lost (4 * s.blk.get (ZRG_LSEL_SUBR n) + j)) i = true →
      m.getLsbD i = true → t.blk.isRetired (nodeChan n (s.blk.get (ZRG_LSEL_SUBR n)) (64 * j + i)) = false) ∧
    FrameOn (fun a => within 0x1C0000 0x200000 a || a == SYS_RETIRED) [.rings, .retired, .retRec, .strikes] s t) ∧
  (∀ (s : State) (n : Fin 32) (d : Half), s.blk.hostFree = true → s.blk.synced = false → s.blk.ringState n = 0 ∨ d.toNat % 256 = 0 →
    ∃ t, exec (.wdogWrite n d) s = .next t ∧
      t.blk.get (ZRG_WDOG_CYC n) = (if d.toNat % 256 = 0 then s.blk.get (ZRG_WDOG_CYC n) else d.toNat % 256) ∧
      Frame [ZRG_WDOG_CYC n] [] s t) ∧
  (∀ (s : State) (n : Fin 32) (d : Half), s.blk.hostFree = true → s.blk.synced = false → d.toNat % 256 ≠ 0 →
    (s.blk.ringState n = 2 ∨ s.blk.ringState n = 4 ∨ s.blk.ringState n = 3 ∧ s.blk.cyc.inProg = false) →
    ∃ t, exec (.wdogWrite n d) s = .next t ∧ t.blk.get (ZRG_WDOG_CYC n) = d.toNat % 256 ∧
      (s.blk.isRing n = false → s.blk.flag (MAC_STAT_LINK (s.blk.ringPort n false)) = true →
        ∀ k < s.blk.get (ZRG_STAT_NODES n), ∃ w, Out.ringFrame (s.blk.ringPort n false) (w ++ fcsOf w) ∈ t.blk.out ∧
          w = s.blk.mailFrame n k 4 (bytesBE (d.toNat % 256) 1)) ∧
      FrameOn zrgTouch [.host, .out] s t) ∧
  (∀ (s : State) (n : Fin 32) (d : Half), s.blk.hostFree = true → s.blk.synced = false → d.toNat % 256 ≠ 0 →
    s.blk.ringState n = 3 → s.blk.cyc.inProg = true → s.blk.lastSent n = false →
    ∃ t, exec (.wdogWrite n d) s = .next t ∧ t.blk.get (ZRG_WDOG_CYC n) = d.toNat % 256 ∧
      (t.blk.ring n).mail = (s.blk.ring n).mail ++
        (List.range (s.blk.get (ZRG_STAT_NODES n))).map (fun k => s.blk.mailFrame n k 4 (bytesBE (d.toNat % 256) 1)) ∧
      Frame [ZRG_WDOG_CYC n] [.rings] s t) ∧
  (∀ s : State, s.blk.hostFree = true → s.blk.synced = false → s.blk.flag ZRG_EPT_BANKED = true → s.blk.cycling = false →
    s.blk.flag ZRG_EPT_COPY = false →
    ∃ t, exec .eptSwap s = .next t ∧ t.blk.rings.ept = s.blk.rings.edit ∧ t.blk.rings.edit = s.blk.rings.ept ∧
      t.blk.get ZRG_EPT_ACT = 1 - s.blk.get ZRG_EPT_ACT ∧ t.blk.flag ZRG_EPT_COPY = true ∧
      t.blk.flag ZRG_EPT_SWPEND = false ∧ t.blk.flag ZRG_EPCAUSE_SWAPPED = true ∧
      (∀ n : Fin 32, (t.blk.ring n).fullC = true) ∧
      Frame [ZRG_EPT_ACT, ZRG_EPT_COPY, ZRG_EPT_SWPEND, ZRG_EPCAUSE_SWAPPED, EVT_PEND_PEND, EVT_OVR_OVR] [.rings, .host, .out] s t) ∧
  (∀ s : State, s.blk.hostFree = true → s.blk.synced = false → s.blk.flag ZRG_EPT_BANKED = true → s.blk.cycling = true →
    ∃ t, exec .eptSwap s = .next t ∧ t.blk.flag ZRG_EPT_SWPEND = true ∧ Frame [ZRG_EPT_SWPEND] [] s t) ∧
  (∀ s : State, s.blk.hostFree = true → s.blk.synced = false → s.blk.flag ZRG_EPT_BANKED = false →
    ∃ t, exec .eptSwap s = .next t ∧ Frame [] [] s t) ∧
  (∀ s : State, s.blk.flag ZRG_EPT_COPY = true → s.blk.flag ZRG_EPT_SWPEND = false →
    ∃ t, exec .eptCopyDone s = .next t ∧ t.blk.rings.edit = s.blk.rings.ept ∧ t.blk.rings.ept = s.blk.rings.ept ∧
      t.blk.flag ZRG_EPT_COPY = false ∧ s.blk.rings.copyEnd ≤ t.blk.tm.phys ∧ Frame [ZRG_EPT_COPY] [.rings, .tm] s t) ∧
  (∀ (s : State) (d : Half), s.blk.hostFree = true → s.blk.synced = false → s.blk.flag ZRG_EPT_COPY = false → s.blk.get ZRG_EWIDX_IDX ≤ 131071 →
    ∃ t, exec (.eptWrite d) s = .next t ∧
      (s.blk.flag ZRG_EPT_BANKED = true → t.blk.rings.ept = s.blk.rings.ept ∧
        sget (fun _ => epOff) t.blk.rings.edit (s.blk.get ZRG_EWIDX_IDX) = (s.blk.reg ZRG_EWE0, s.blk.reg ZRG_EWE1)) ∧
      (s.blk.flag ZRG_EPT_BANKED = false → t.blk.epEntry (s.blk.get ZRG_EWIDX_IDX) = (s.blk.reg ZRG_EWE0, s.blk.reg ZRG_EWE1)) ∧
      Frame [ZRG_EWCTL_ACTB] [.rings] s t) ∧
  (∀ (s : State) (d : Half), s.blk.hostFree = true → s.blk.synced = false → s.blk.flag ZRG_EPT_COPY = false → s.blk.get ZRG_EWIDX_IDX ≤ 131071 →
    (s.blk.flag ZRG_EPT_BANKED = true → d.getLsbD 2 = true) →
    ∃ t, exec (.eptRead d) s = .next t ∧
      (t.blk.reg ZRG_EWE0, t.blk.reg ZRG_EWE1) = s.blk.epEntry (s.blk.get ZRG_EWIDX_IDX) ∧
      Frame [ZRG_EWCTL_ACTB, ⟨ZRG_EWE0, 0, 72⟩, ⟨ZRG_EWE1, 0, 72⟩] [] s t)

/-! ### The switch core -/

/-- R274 to R282, R288, R289, R291: a frame at the head of the ingress queue is stored and copied to its egress, its source address
is learned, or it is refused over its share; an egress takes its next frame; held copies enter their queue or expire; a flow
passes over a missing frame; a disabled egress flushes.
Choices and readings of the model: log entries 38, 39 and 74. -/
def Obligations.SwitchFrames : Prop :=
  (∀ (s : State) (f : InFrame) (l : List InFrame), s.blk.coreOk = true → s.blk.sw.ingress = f :: l → f.src = 34 →
    f.port < 34 → f.bad = 0 → s.blk.forwards f.port = true → s.blk.egressUp f.port = true → s.blk.fenced f.port = false →
    s.blk.mustHold f.port (queueOf f f.port) = false →
    (f.port = 32 → s.blk.overShare f = false) →
    ∃ t, exec (.frameIngress false 0) s = .next t ∧ t.blk.sw.ingress = l ∧
      (∃ x ∈ t.blk.sw.copies, x.port = f.port ∧ x.cls = queueOf f f.port ∧ ∃ y ∈ t.blk.sw.frames, y.id = x.fid ∧ y.f = f) ∧
      t.blk.count (SWC_EC_CNT f.port (queueOf f f.port) 0) =
        sat (2 ^ 40 - 1) (s.blk.count (SWC_EC_CNT f.port (queueOf f f.port) 0) + 1) ∧
      FrameOn coreTouch [.sw, .macs, .trc, .host, .out] s t) ∧
  (∀ (s : State) (f : InFrame) (l : List InFrame), s.blk.coreOk = true → s.blk.sw.ingress = f :: l → f.src < 32 → f.bad = 0 →
    f.port ≠ 32 →
    s.blk.flag (SWC_PORT_CTL_ELIM f.src) = false → s.blk.overShare f = false → s.blk.flag (SWC_PORT_CTL_EN f.src) = true →
    s.blk.get (SWC_PORT_CTL_STP f.src) = 2 → bitAt (beAt f.bytes 6 6) 40 = false →
    s.blk.fdbFind (beAt f.bytes 6 6) f.vid = none → s.blk.fdbFull (beAt f.bytes 6 6) f.vid = false →
    ∃ t, exec (.frameIngress false 0) s = .next t ∧ t.blk.sw.ingress = l ∧
      t.blk.fdbFind (beAt f.bytes 6 6) f.vid =
        some { mac := beAt f.bytes 6 6, vid := f.vid, mask := 2 ^ f.src, stat := false, seen := s.blk.tm.phys } ∧
      FrameOn coreTouch [.sw, .macs, .trc, .host, .out] s t) ∧
  (∀ (s : State) (f : InFrame) (l : List InFrame), s.blk.sw.ingress = f :: l → f.src < 32 → f.bad = 0 →
    s.blk.flag (SWC_PORT_CTL_ELIM f.src) = false → s.blk.overShare f = true →
    ∃ t, exec (.frameIngress false 0) s = .next t ∧ t.blk.sw.ingress = l ∧ t.blk.sw.frames = s.blk.sw.frames ∧
      t.blk.sw.copies = s.blk.sw.copies ∧ t.blk.flag SWC_CAUSE_PIGN = true ∧ t.blk.get SWC_CAUSE_SRC = f.src ∧
      FrameOn coreTouch [.sw, .host, .out] s t) ∧
  (∀ (s : State) (p : Fin 34) (ups : List CellUpset) (n : Nat) (b : Block) (x : Copy) (sf : SFrame), s.blk.coreOk = true →
    macOf p = some n → s.blk.txOf p = none → s.blk.egressUp p = true → (n < 32 → s.blk.flag (MAC_CFG_RING n) = false) →
    s.blk.fenced p = false → (s.blk.fetchedFor p ups).nextCopy p n = (b, some x) → b.frameOf x.fid = some sf →
    ∃ t, exec (.frameTransmit p ups) s = .next t ∧ (∃ y ∈ t.blk.sw.tx, y.x = x) ∧
      (∃ w, Out.frame x.port x.cls w (sf.errs.any (·.ue) || sf.f.bad != 0) ∈ t.blk.out) ∧
      (∀ y ∈ t.blk.sw.copies, sameCopy x y = false) ∧
      (ups = [] → (∀ y ∈ s.blk.sw.frames, y.errs = []) → FrameOn coreTouch [.sw, .macs, .trc, .tm, .host, .out] s t)) ∧
  (∀ (s : State) (x : Copy) (sf : SFrame), s.blk.coreOk = true → s.blk.heldReady = some x → s.blk.frameOf x.fid = some sf →
    s.blk.fenced x.port = false →
    ∃ t, exec .heldCopyEnqueue s = .next t ∧ (∃ y ∈ t.blk.sw.copies, sameCopy x y = true) ∧
      (∀ y ∈ t.blk.sw.held, sameCopy x y = false) ∧ FrameOn coreTouch [.sw, .host, .out] s t) ∧
  (∀ (s : State) (x : Copy), s.blk.coreOk = true → s.blk.sw.held.find? (·.multi) = some x →
    ∃ t, exec .mcHoldExpire s = .next t ∧ t.blk.flag SWC_CAUSE_MCP = true ∧ t.blk.get SWC_CAUSE_PORT = x.port ∧
      (∀ y ∈ t.blk.sw.held, sameCopy x y = false) ∧ x.since + s.blk.get SWC_MC_HOLD * 1000 * nsUnit ≤ t.blk.tm.phys ∧
      FrameOn coreTouch [.sw, .macs, .trc, .tm, .host, .out] s t) ∧
  (∀ (s : State) (p : Fin 34) (c : Fin 9) (x : Copy) (n : Nat) (b : Block), s.blk.coreOk = true → b = s.blk.passedSettle p →
    b.missing p c = some (x, n) →
    ∃ t, exec (.reseqTimeout p c) s = .next t ∧ t.blk.flag SWC_CAUSE_RESEQ = true ∧ t.blk.get SWC_CAUSE_PORT = p.val ∧
      (∀ y ∈ t.blk.sw.copies, sameCopy x y = true → y.passed = true) ∧ t.blk.sw.frames = b.sw.frames ∧
      t.blk.count (SWC_E_CNT p 1) = sat (2 ^ 40 - 1) (b.count (SWC_E_CNT p 1) + 1) ∧
      n + s.blk.get SWC_RESEQ_TMO * 1000 * nsUnit ≤ t.blk.tm.phys ∧
      FrameOn coreTouch [.sw, .macs, .trc, .tm, .host, .out] s t) ∧
  (∀ (s : State) (p : Fin 34), s.blk.coreOk = true → s.blk.flag (SWC_PORT_STAT_UP p) = true →
    (p.val < 32 → s.blk.flag (MAC_CFG_RING p) = false) →
    ∃ t, exec (.portDisable p) s = .next t ∧ t.blk.flag (SWC_PORT_CTL_EN p) = false ∧
      t.blk.flag (SWC_PORT_STAT_UP p) = false ∧ t.blk.flag SWC_CAUSE_FLUSH = true ∧
      (∀ y ∈ t.blk.sw.copies, y.port ≠ p.val) ∧ (∀ e ∈ t.blk.sw.fdb, e.stat = false → bitAt e.mask p = false) ∧
      ((∀ y, s.blk.txOf p = some y → s.blk.tm.phys < y.ends) → FrameOn coreTouch [.sw, .macs, .trc, .host, .out] s t))

/-- R276, R281, R292, R293, R296: the FDB ages and its window writes, deletes and looks up, the VLAN and stream windows write and
read, retired slices and rows return.
Choices and readings of the model: log entries 3 and 38. -/
def Obligations.SwitchTables : Prop :=
  (∀ (s : State) (e : Fdb), s.blk.sw.fdb = [e] → e.stat = false → s.blk.get SWC_AGE_AGE ≠ 0 →
    ∃ t, exec .fdbAge s = .next t ∧ t.blk.sw.fdb = [] ∧
      e.seen + s.blk.get SWC_AGE_AGE * 10 ^ 9 * nsUnit ≤ t.blk.tm.phys ∧ Frame [] [.sw, .tm] s t) ∧
  (∀ s : State, s.blk.hostFree = true → s.blk.flag SWC_FDBDAT_VALID = true → s.blk.fdbFull (s.blk.get SWC_FDBKEY_MAC) (s.blk.get SWC_FDBKEY_VID) = false →
    ∃ t, exec .fdbWrite s = .next t ∧ t.blk.flag SWC_FDBCTL_DONE = true ∧ t.blk.flag SWC_FDBCTL_FULL = false ∧
      t.blk.fdbFind (s.blk.get SWC_FDBKEY_MAC) (s.blk.get SWC_FDBKEY_VID) = some
        { mac := s.blk.get SWC_FDBKEY_MAC, vid := s.blk.get SWC_FDBKEY_VID, mask := s.blk.get SWC_FDBDAT_MASK,
          stat := s.blk.flag SWC_FDBDAT_STATIC, seen := s.blk.tm.phys } ∧
      Frame [SWC_FDBCTL_DONE, SWC_FDBCTL_FULL] [.sw] s t) ∧
  (∀ s : State, s.blk.hostFree = true → s.blk.flag SWC_FDBDAT_VALID = true → s.blk.fdbFull (s.blk.get SWC_FDBKEY_MAC) (s.blk.get SWC_FDBKEY_VID) = true →
    s.blk.fdbFind (s.blk.get SWC_FDBKEY_MAC) (s.blk.get SWC_FDBKEY_VID) = none →
    ∃ t, exec .fdbWrite s = .next t ∧ t.blk.flag SWC_FDBCTL_FULL = true ∧ Frame [SWC_FDBCTL_DONE, SWC_FDBCTL_FULL] [] s t) ∧
  (∀ s : State, s.blk.hostFree = true → ∃ t, exec .fdbDelete s = .next t ∧ t.blk.flag SWC_FDBCTL_DONE = true ∧
    t.blk.fdbFind (s.blk.get SWC_FDBKEY_MAC) (s.blk.get SWC_FDBKEY_VID) = none ∧
    (∀ m v, (m ≠ s.blk.get SWC_FDBKEY_MAC ∨ v ≠ s.blk.get SWC_FDBKEY_VID) → t.blk.fdbFind m v = s.blk.fdbFind m v) ∧
    Frame [SWC_FDBCTL_DONE] [.sw] s t) ∧
  (∀ s : State, s.blk.hostFree = true → ∃ t, exec .fdbLookup s = .next t ∧ t.blk.flag SWC_FDBCTL_DONE = true ∧
    t.blk.flag SWC_FDBDAT_VALID = (s.blk.fdbFind (s.blk.get SWC_FDBKEY_MAC) (s.blk.get SWC_FDBKEY_VID)).isSome ∧
    (∀ e, s.blk.fdbFind (s.blk.get SWC_FDBKEY_MAC) (s.blk.get SWC_FDBKEY_VID) = some e →
      t.blk.get SWC_FDBDAT_MASK = e.mask % 2 ^ 34 ∧ t.blk.flag SWC_FDBDAT_STATIC = e.stat) ∧
    Frame [SWC_FDBCTL_DONE, SWC_FDBDAT_VALID, SWC_FDBDAT_MASK, SWC_FDBDAT_STATIC] [] s t) ∧
  (∀ s : State, s.blk.hostFree = true → ∃ t, exec .vlanWrite s = .next t ∧ t.blk.vlanMask (s.blk.get SWC_VIDX_VID) = s.blk.get SWC_VMEM_MASK ∧
    (∀ v, v ≠ s.blk.get SWC_VIDX_VID → t.blk.vlanMask v = s.blk.vlanMask v) ∧ Frame [] [.sw] s t) ∧
  (∀ s : State, s.blk.hostFree = true → ∃ t, exec .vlanRead s = .next t ∧
    t.blk.get SWC_VMEM_MASK = s.blk.vlanMask (s.blk.get SWC_VIDX_VID) % 2 ^ 34 ∧ Frame [SWC_VMEM_MASK] [] s t) ∧
  (∀ s : State, s.blk.hostFree = true → ∃ t, exec .streamWrite s = .next t ∧
    (let y := sget (fun _ => Stream.empty) t.blk.sw.streams (s.blk.get SWC_ESIDX_IDX)
     y.da = s.blk.get SWC_ESKEY_DA ∧ y.vid = s.blk.get SWC_ESKEY_VID ∧ y.valid = s.blk.flag SWC_ESKEY_VALID ∧
     y.hist = s.blk.get SWC_ESCFG_HIST ∧ y.strip = s.blk.flag SWC_ESCFG_STRIP ∧ y.last = none) ∧ Frame [] [.sw] s t) ∧
  (∀ s : State, s.blk.hostFree = true → ∃ t, exec .streamRead s = .next t ∧
    (let y := sget (fun _ => Stream.empty) s.blk.sw.streams (s.blk.get SWC_ESIDX_IDX)
     t.blk.get SWC_ESKEY_DA = y.da % 2 ^ 48 ∧ t.blk.get SWC_ESKEY_VID = y.vid % 2 ^ 12 ∧
     t.blk.flag SWC_ESKEY_VALID = y.valid ∧ t.blk.flag SWC_ESCFG_STRIP = y.strip) ∧
    Frame [SWC_ESKEY_DA, SWC_ESKEY_VID, SWC_ESKEY_VALID, SWC_ESCFG_HIST, SWC_ESCFG_RESET, SWC_ESCFG_STRIP] [] s t) ∧
  (∀ (s : State) (m : BitVec 4), s.blk.hostFree = true → s.blk.cycling = true → ∃ t, exec (.sliceReturn m) s = .next t ∧
    t.blk.get SWC_STAT_RETS = clrMaskN (s.blk.get SWC_STAT_RETS) m.toNat ∧
    t.blk.sw.sliceBack = s.blk.sw.sliceBack ||| (m &&& BitVec.ofNat 4 (s.blk.get SWC_STAT_RETS)) ∧
    Frame [SWC_STAT_RETS] [.sw, .strikes] s t) ∧
  (∀ (s : State) (m : BitVec 4), s.blk.hostFree = true → s.blk.cycling = true → ∃ t, exec (.spareRowClear m) s = .next t ∧
    t.blk.sw.spareBack = s.blk.sw.spareBack ||| m ∧ Frame [] [.sw] s t) ∧
  (∀ (s : State) (m : BitVec 4) (k : Fin 4), s.blk.hostFree = true → s.blk.cycling = false → m.getLsbD k = true →
    ∃ t, exec (.spareRowClear m) s = .next t ∧ t.blk.get (spareLeft k) = 16 ∧ (∀ p ∈ t.blk.sw.rows, p.1 ≠ k.val) ∧
      Frame [SWC_SPARE_LEFT0, SWC_SPARE_LEFT1, SWC_SPARE_LEFT2, SWC_SPARE_LEFT3, SYS_RETIRED_KIND]
        [.sw, .strikes, .retired, .retRec] s t)

/-! ### Counters, snapshots, trace, journal -/

/-- R20, R476 to R478, R488, R489, R484: a counter's acknowledge; a snapshot armed, refused, cancelled, struck and moved into
the idle bank; the trace cleared and loaded; a performance counter sampled by its read.
Choices and readings of the model: log entry 49. -/
def Obligations.CountersAndSnapshots : Prop :=
  (∀ (s : State) (a : BitVec 24), s.blk.hostFree = true → isCounter a.toNat = true → 2 ^ 39 ≤ s.blk.count a.toNat →
    within 0x3C0000 0x3E0000 a.toNat = false →
    ∃ t, exec (.counterAck a) s = .next t ∧ t.blk.count a.toNat = s.blk.count a.toNat - 2 ^ 39 ∧
      sget (fun _ => 0) t.blk.snap.acks a.toNat = (sget (fun _ => 0) s.blk.snap.acks a.toNat + 1) % 256 ∧
      FrameOn (fun r => r == a.toNat || r == STS_HALFSUM || (List.range 33).any (fun n => r == (MAC_HALF_BIT39 n).addr)) [.snap] s t) ∧
  (∀ (s : State) (a : BitVec 24), s.blk.hostFree = true → s.blk.count a.toNat < 2 ^ 39 →
    within 0x3C0000 0x3E0000 a.toNat = false →
    ∃ t, exec (.counterAck a) s = .next t ∧ Frame [] [] s t) ∧
  (∀ (s : State) (a : BitVec 24) (b : Block), s.blk.hostFree = true → isCounter a.toNat = true → b = s.blk.prfTouch →
    within 0x3C0000 0x3E0000 a.toNat = true →
    ∃ t, exec (.counterAck a) s = .next t ∧
      t.blk.count a.toNat = (if 2 ^ 39 ≤ b.count a.toNat then b.count a.toNat - 2 ^ 39 else b.count a.toNat) ∧
      (∀ e : Fin 16, t.blk.eng[e] = { s.blk.eng[e] with seen := (t.blk.eng[e]).seen, seenWait := (t.blk.eng[e]).seenWait }) ∧
      FrameOn (fun r => galTouch r || r == STS_HALFSUM) [.snap, .eng, .trc, .host, .out] s t) ∧
  (∀ s : State, s.blk.hostFree = true → s.blk.flag STS_SNAPSTAT_ARMED = false → before s.blk.stw (s.blk.reg STS_SNAP_AT) = true →
    ∃ t, exec .snapArm s = .next t ∧ t.blk.flag STS_SNAPSTAT_ARMED = true ∧ t.blk.get STS_SNAPSTAT_OWNER = 16 ∧
      t.blk.flag STS_SNAPSTAT_REFUSED = false ∧ t.blk.snap.strobe = some (s.blk.reg STS_SNAP_AT) ∧ t.blk.snap.late = false ∧
      Frame [STS_SNAPSTAT_ARMED, STS_SNAPSTAT_OWNER, STS_SNAPSTAT_REFUSED] [.snap] s t) ∧
  (∀ s : State, s.blk.hostFree = true → s.blk.flag STS_SNAPSTAT_ARMED = false → before s.blk.stw (s.blk.reg STS_SNAP_AT) = false →
    ∃ t, exec .snapArm s = .next t ∧ t.blk.flag STS_SNAPSTAT_ARMED = true ∧ t.blk.snap.strobe = some s.blk.stw ∧
      t.blk.snap.late = true ∧ t.blk.flag STS_CAUSE_LATE = true ∧
      Frame [STS_SNAPSTAT_ARMED, STS_SNAPSTAT_OWNER, STS_SNAPSTAT_REFUSED, STS_CAUSE_LATE] [.snap] s t) ∧
  (∀ s : State, s.blk.hostFree = true → s.blk.flag STS_SNAPSTAT_ARMED = true → ∃ t, exec .snapArm s = .next t ∧
    t.blk.flag STS_SNAPSTAT_REFUSED = true ∧ Frame [STS_SNAPSTAT_REFUSED] [] s t) ∧
  (∀ s : State, s.blk.hostFree = true → s.blk.flag STS_SNAPSTAT_ARMED = false → ∃ t, exec .snapNow s = .next t ∧
    t.blk.flag STS_SNAPSTAT_ARMED = true ∧ t.blk.snap.strobe = some s.blk.stw ∧ t.blk.snap.late = false ∧
    Frame [STS_SNAPSTAT_ARMED, STS_SNAPSTAT_OWNER, STS_SNAPSTAT_REFUSED] [.snap] s t) ∧
  (∀ s : State, s.blk.hostFree = true → s.blk.flag STS_SNAPSTAT_ARMED = true → s.blk.snap.struck = false → ∃ t, exec .snapCancel s = .next t ∧
    t.blk.flag STS_SNAPSTAT_ARMED = false ∧ t.blk.snap.strobe = none ∧ Frame [STS_SNAPSTAT_ARMED] [.snap] s t) ∧
  (∀ s : State, s.blk.hostFree = true → s.blk.snap.struck = true → ∃ t, exec .snapCancel s = .next t ∧ Frame [] [] s t) ∧
  (∀ (s : State) (w : Word), s.blk.flag STS_SNAPSTAT_ARMED = true → s.blk.snap.struck = false → s.blk.snap.strobe = some w →
    ∃ t, exec .snapStrobe s = .next t ∧ before t.blk.stw w = false ∧ t.blk.snap.struck = true ∧
      t.blk.snap.ltL = ltLow t.blk.tm.lt ∧
      (∀ p ∈ snapMap, s.blk.regOn p.1 = true →
        (p.2, BitVec.ofNat 72 (s.blk.count p.1 + sget (fun _ => 0) s.blk.snap.acks p.1 * 2 ^ 40)) ∈ t.blk.snap.latched) ∧
      (∀ p ∈ snapMap, s.blk.regOn p.1 = false → (p.2, 0) ∈ t.blk.snap.latched) ∧
      Frame [] [.snap, .tm] s t) ∧
  (∀ (s : State) (k : Nat), s.blk.flag STS_SNAPSTAT_ARMED = true → s.blk.snap.struck = true →
    (s.blk.snap.latched.map (·.1)).Nodup → (∀ p ∈ s.blk.snap.latched, 0x1000 ≤ p.1 ∧ p.1 < 0x20000 ∧ p.1 % 16 = 0) →
    k = 1 - s.blk.get STS_SNAPSTAT_CUR →
    ∃ t, exec .snapTransferDone s = .next t ∧ t.blk.get STS_SNAPSTAT_CUR = k ∧
      t.blk.get STS_SNAPSTAT_SEQ = (s.blk.get STS_SNAPSTAT_SEQ + 1) % 2 ^ 32 ∧
      t.blk.get (STS_BANK_HDR_SEQ k) = (s.blk.get STS_SNAPSTAT_SEQ + 1) % 2 ^ 32 ∧
      t.blk.flag (STS_BANK_HDR_VALID k) = true ∧ t.blk.flag (STS_BANK_HDR_LATE k) = s.blk.snap.late ∧
      t.blk.reg (STS_BANK_LT k) = s.blk.snap.ltH ∧ t.blk.reg (STS_BANK_LTL k) = s.blk.snap.ltL ∧
      (∀ p ∈ s.blk.snap.latched, t.blk.reg (0x380000 + 0x20000 * k + p.1) = p.2) ∧
      t.blk.flag STS_SNAPSTAT_ARMED = false ∧ t.blk.flag STS_CAUSE_DONE = true ∧
      FrameOn (fun a => within (0x381000 + 0x20000 * k) (0x3A0000 + 0x20000 * k) a || a == STS_BANK_HDR k || a == STS_BANK_LT k ||
        a == STS_BANK_LTL k || a == STS_SNAPSTAT || a == STS_CAUSE || evTouch a)
        [.snap, .tm, .host, .out] s t) ∧
  (∀ (s : State) (d : Half), s.blk.hostFree = true → ∃ t, exec (.traceClr d) s = .next t ∧ t.blk.reg PRF_TRSTAT = 0 ∧ t.blk.trc.buf = [] ∧
    t.blk.flag PRF_TRCTL_EN = d.getLsbD 0 ∧ FrameOn (fun a => a == PRF_TRCTL || a == PRF_TRSTAT) [.trc] s t) ∧
  (∀ (s : State) (d : Half) (r : TraceRec), s.blk.hostFree = true → r = sget (fun _ => TraceRec.zero) s.blk.trc.buf (d.toNat % 4096) →
    ∃ t, exec (.traceLoad d) s = .next t ∧ t.blk.get PRF_TRIDX_IDX = d.toNat % 4096 ∧
      t.blk.reg (PRF_TRW 0) = r.w0 ∧ t.blk.reg (PRF_TRW 1) = r.w1 ∧ t.blk.reg (PRF_TRW 2) = r.w2 ∧ t.blk.reg (PRF_TRW 3) = r.w3 ∧
      FrameOn (fun a => a == PRF_TRIDX || (List.range 4).any (fun i => a == PRF_TRW i)) [] s t) ∧
  (∀ (s : State) (a : BitVec 24), s.blk.hostFree = true → isCounter a.toNat = true → within 0x3C0000 0x3E0000 a.toNat = true → s.blk.regOn a.toNat = true →
    ∃ t, exec (.perfCounterRead a) s = .next t ∧
      t.blk.out = .readData a.toNat (s.blk.prfTouch.lowHalf a.toNat) false :: s.blk.prfTouch.out ∧
      (∀ e : Fin 16, t.blk.eng[e] = { s.blk.eng[e] with seen := (t.blk.eng[e]).seen, seenWait := (t.blk.eng[e]).seenWait }) ∧
      FrameOn (fun r => galTouch r || r == STS_HALFSUM) [.eng, .trc, .host, .out] s t)

/-- R502, R77, R509: the journal entry that is due first is reached and acts at its journal time; what this unit wrote leaves
HOST_JSTAT, what the partner wrote moves PAIR_JSEQ.
Choices and readings of the model: log entries 54 and 66. -/
def Obligations.JournalEntries : Prop :=
  (∀ (s : State) (e : JEntry) (l : List JEntry) (n : Fin 16), nextEntry s.blk.host.journal = some (e, l) →
    s.blk.host.stalls = [] → s.blk.host.backlog = [] →
    e.item = .cmd (.axisFaultsClr n) → e.own = true →
    ∃ t, exec .journalApply s = .next t ∧ t.blk.get (LAN_AXSTAT_FAULTS n) = 0 ∧
      t.blk.get HOST_JSTAT_PEND = s.blk.get HOST_JSTAT_PEND - 1 ∧ t.blk.host.journal = l ∧ e.at_ * nsUnit ≤ t.blk.tm.lt ∧
      FrameF [LAN_AXSTAT_FAULTS n, HOST_JSTAT_PEND] [.tm, .pair] s t) ∧
  (∀ (s : State) (e : JEntry) (l : List JEntry) (f : Int), nextEntry s.blk.host.journal = some (e, l) →
    s.blk.host.stalls = [] → s.blk.host.backlog = [] →
    e.item = .steer f → e.own = false → -2 ^ 31 ≤ f → f < 2 ^ 31 →
    ∃ t, exec .journalApply s = .next t ∧ t.blk.geti CMP_OUTFREQ_FREQ = f ∧
      t.blk.get PAIR_JSEQ_SEQ = e.seq % 2 ^ 48 ∧ t.blk.host.journal = l ∧ e.at_ * nsUnit ≤ t.blk.tm.lt ∧
      FrameF [CMP_OUTFREQ_FREQ, PAIR_JSEQ_SEQ] [.tm, .pair] s t) ∧
  (∀ (s : State) (e : JEntry) (l : List JEntry) (n : Fin 16), nextEntry s.blk.host.journal = some (e, l) →
    s.blk.host.stalls = [] → s.blk.host.backlog = [] →
    e.item = .engRetire n → e.own = true →
    ∃ t, exec .journalApply s = .next t ∧ (t.blk.eng[n]).coreRet = true ∧ t.blk.host.journal = l ∧
      FrameF [] [.tm, .pair, .eng] s t)

/-! ### The ports -/

/-- R305, R306, R309, R313, R315: a good frame goes to the switch core, a damaged one is marked, one of no VLAN of the port is
dropped; PAUSE and PFC stop the MAC for their times and end.
Choices and readings of the model: log entries 36 and 74. -/
def Obligations.MacReception : Prop :=
  (∀ (s : State) (n : Fin 33) (f : WireFrame) (dt : Nat), s.blk.flag (MAC_STAT_LINK n) = true → s.blk.absent n = false →
    (n.val < 32 → s.blk.flag (MAC_CFG_RING n) = false) → f.fcsOk = true → s.blk.rxCode n f = false → 60 ≤ f.bytes.length →
    f.bytes.length + 4 ≤ s.blk.get (MAC_CFG_MAXLEN n) → beAt f.bytes 12 2 ≠ 0x8808 → isEsmc s.blk.etype f.bytes = false →
    s.blk.vlanDrop n f.bytes = false →
    (n.val = 32 ∨ ptpOf s.blk.etype f.bytes = none) →
    ∃ t, exec (.rxFrame n f dt) s = .next t ∧
      (∃ x : InFrame, t.blk.sw.ingress = s.blk.sw.ingress ++ [x] ∧ x.src = srcOfMac n ∧ x.bytes = f.bytes ∧ x.bad = 0 ∧
        x.port = 63 ∧ x.vid = (s.blk.rxTag n f.bytes).1 ∧ x.sch = false) ∧
      t.blk.count (MAC_STAT_CNT n 1) = sat (2 ^ 40 - 1) (s.blk.count (MAC_STAT_CNT n 1) + 1) ∧
      t.blk.count (MAC_STAT_CNT n 0) = sat (2 ^ 40 - 1) (s.blk.count (MAC_STAT_CNT n 0) + (f.bytes.length + 4)) ∧
      FrameOn (macTouch n) [.tm, .sw, .host, .out] s t) ∧
  (∀ (s : State) (n : Fin 33) (f : WireFrame) (dt : Nat), s.blk.flag (MAC_STAT_LINK n) = true → s.blk.absent n = false →
    (n.val < 32 → s.blk.flag (MAC_CFG_RING n) = false) → (f.fcsOk = false ∨ s.blk.rxCode n f = true) → 60 ≤ f.bytes.length →
    f.bytes.length + 4 ≤ s.blk.get (MAC_CFG_MAXLEN n) → beAt f.bytes 12 2 ≠ 0x8808 →
    ∃ t, exec (.rxFrame n f dt) s = .next t ∧
      (isEsmc s.blk.etype f.bytes = true ∨ s.blk.vlanDrop n f.bytes = false →
        ∃ x : InFrame, t.blk.sw.ingress = s.blk.sw.ingress ++ [x] ∧ x.src = srcOfMac n ∧ x.bad = 1) ∧
      (isEsmc s.blk.etype f.bytes = false → s.blk.vlanDrop n f.bytes = true → t.blk.sw = s.blk.sw) ∧
      t.blk.count (MAC_STAT_CNT n 14) = sat (2 ^ 40 - 1) (s.blk.count (MAC_STAT_CNT n 14) + 1) ∧
      FrameOn (macTouch n) [.tm, .sw, .host, .out] s t) ∧
  (∀ (s : State) (n : Fin 33) (f : WireFrame) (dt : Nat), s.blk.flag (MAC_STAT_LINK n) = true → s.blk.absent n = false →
    (n.val < 32 → s.blk.flag (MAC_CFG_RING n) = false) → f.fcsOk = true → s.blk.rxCode n f = false → 60 ≤ f.bytes.length →
    f.bytes.length + 4 ≤ s.blk.get (MAC_CFG_MAXLEN n) → beAt f.bytes 12 2 ≠ 0x8808 → isEsmc s.blk.etype f.bytes = true →
    ∃ t, exec (.rxFrame n f dt) s = .next t ∧
      (∃ x : InFrame, t.blk.sw.ingress = s.blk.sw.ingress ++ [x] ∧ x.src = srcOfMac n ∧ x.bytes = f.bytes ∧ x.bad = 0 ∧
        x.port = 32 ∧ x.cls = 7) ∧
      t.blk.count (MAC_STAT_CNT n 1) = sat (2 ^ 40 - 1) (s.blk.count (MAC_STAT_CNT n 1) + 1) ∧
      FrameOn (macTouch n) [.tm, .sw, .host, .out] s t) ∧
  (∀ (s : State) (n : Fin 33) (f : WireFrame) (dt : Nat), s.blk.flag (MAC_STAT_LINK n) = true → s.blk.absent n = false →
    (n.val < 32 → s.blk.flag (MAC_CFG_RING n) = false) → f.fcsOk = true → s.blk.rxCode n f = false → 60 ≤ f.bytes.length →
    f.bytes.length + 4 ≤ s.blk.get (MAC_CFG_MAXLEN n) → beAt f.bytes 12 2 ≠ 0x8808 → isEsmc s.blk.etype f.bytes = false →
    s.blk.vlanDrop n f.bytes = true →
    ∃ t, exec (.rxFrame n f dt) s = .next t ∧
      t.blk.count (MAC_STAT_CNT n 20) = sat (2 ^ 40 - 1) (s.blk.count (MAC_STAT_CNT n 20) + 1) ∧
      FrameOn (macTouch n) [.tm, .host, .out] s t) ∧
  (∀ (s : State) (n : Fin 33) (q : BitVec 16) (dt : Nat), s.blk.flag (MAC_STAT_LINK n) = true → 64 ≤ s.blk.get (MAC_CFG_MAXLEN n) →
    (n.val < 32 → s.blk.flag (MAC_CFG_RING n) = false) → s.blk.flag (MAC_FC_RXIGN n) = false → s.blk.get (MAC_FC_MODE n) = 1 →
    ∃ t, exec (.pauseReceived n q dt) s = .next t ∧ t.blk.tm.phys = s.blk.tm.phys + dt * nsUnit ∧
      (t.blk.mac n).allUntil =
        (if q = 0 then t.blk.tm.phys else t.blk.tm.phys + 64 * 8 * nsUnit / s.blk.gbps n + q.toNat * s.blk.quantum n) ∧
      t.blk.flag (MAC_PAUSED_ALL n) = decide (q ≠ 0) ∧ FrameOn (macTouch n) [.tm, .macs, .host, .out] s t) ∧
  (∀ (s : State) (n : Fin 33) (en : BitVec 8) (times : List (BitVec 16)) (dt : Nat), s.blk.flag (MAC_STAT_LINK n) = true →
    64 ≤ s.blk.get (MAC_CFG_MAXLEN n) → (n.val < 32 → s.blk.flag (MAC_CFG_RING n) = false) →
    s.blk.flag (MAC_FC_RXIGN n) = false → s.blk.get (MAC_FC_MODE n) = 2 →
    ∃ t, exec (.pfcReceived n en times dt) s = .next t ∧ t.blk.tm.phys = s.blk.tm.phys + dt * nsUnit ∧
      (∀ p : Fin 8, en.getLsbD p = true →
        (∀ q : Fin 8, q ≠ p → en.getLsbD q = true → s.blk.classOfPcp (srcOfMac n) q ≠ s.blk.classOfPcp (srcOfMac n) p) →
        (t.blk.mac n).clsUntil[s.blk.classOfPcp (srcOfMac n) p]?.getD 0 =
          (if (times[p.val]?).getD 0 = 0 then t.blk.tm.phys
            else t.blk.tm.phys + 64 * 8 * nsUnit / s.blk.gbps n + ((times[p.val]?).getD 0).toNat * s.blk.quantum n)) ∧
      (t.blk.mac n).allUntil = (s.blk.mac n).allUntil ∧ FrameOn (macTouch n) [.tm, .macs, .host, .out] s t) ∧
  (∀ (s : State) (n : Fin 33), s.blk.tm.phys < (s.blk.mac n).allUntil →
    (∀ c : Fin 8, (s.blk.mac n).clsUntil[c] ≤ s.blk.tm.phys ∨ (s.blk.mac n).allUntil ≤ (s.blk.mac n).clsUntil[c]) →
    ∃ t, exec (.pauseExpire n) s = .next t ∧ t.blk.tm.phys = (s.blk.mac n).allUntil ∧
      t.blk.flag (MAC_PAUSED_ALL n) = false ∧ Frame [MAC_PAUSED_ALL n, MAC_PAUSED_CLS n] [.tm] s t) ∧
  (∀ (s : State) (n : Fin 33) (c : Fin 8), s.blk.tm.phys < (s.blk.mac n).clsUntil[c] →
    (∀ d : Fin 8, (s.blk.mac n).clsUntil[d] ≤ s.blk.tm.phys ∨ (s.blk.mac n).clsUntil[c] ≤ (s.blk.mac n).clsUntil[d]) →
    (s.blk.mac n).allUntil ≤ s.blk.tm.phys →
    ∃ t, exec (.pauseExpire n) s = .next t ∧ t.blk.tm.phys = (s.blk.mac n).clsUntil[c] ∧
      bitAt (t.blk.get (MAC_PAUSED_CLS n)) c = false ∧ Frame [MAC_PAUSED_ALL n, MAC_PAUSED_CLS n] [.tm] s t)

/-- R314, R317, R319 to R321, R301: flow control renewed; the link of a port comes up and falls; a port is enabled, refused or
disabled; the head of the stamp queue is removed.
Choices and readings of the model: log entry 43. -/
def Obligations.MacLinks : Prop :=
  (∀ (s : State) (n : Fin 33), s.blk.flag (SWC_IG_STAT_XOFF (srcOfMac n)) = true → (s.blk.mac n).sent ≠ 0 →
    s.blk.get (MAC_FC_MODE n) = 1 → s.blk.flag (MAC_CFG_RING n) = false →
    ∃ t, exec (.pauseRenew n) s = .next t ∧ (s.blk.mac n).renewAt ≤ t.blk.tm.phys ∧
      Out.control n.val (controlFrame (s.blk.get (MAC_ADDR_ADDR n)) (bytesBE 1 2 ++ bytesBE (s.blk.get (MAC_FC_QUANTA n)) 2)) ∈ t.blk.out ∧
      (t.blk.mac n).renewAt = t.blk.tm.phys + s.blk.get (MAC_FC_QUANTA n) * s.blk.quantum n / 2 ∧
      FrameOn (macTouch n) [.tm, .macs, .host, .out] s t) ∧
  (∀ (s : State) (n : Fin 33) (dt : Nat), s.blk.coreOk = true → s.blk.flag (MAC_CTL_EN n) = true → s.blk.absent n = false →
    s.blk.flag (MAC_STAT_LINK n) = false →
    (n.val < 32 → s.blk.portLanes n ≠ [] ∧ (∀ l ∈ s.blk.portLanes n, s.blk.laneState l = 6) ∧
      bitAt (s.blk.get SYS_HWSTAT_QLOW) (n / 4) = false) →
    ∃ t, exec (.linkUp n dt) s = .next t ∧ t.blk.flag (MAC_STAT_LINK n) = true ∧ t.blk.flag (MAC_CAUSE_UP n) = true ∧
      t.blk.flag (MAC_STAT_LF n) = false ∧ t.blk.flag (MAC_STAT_RF n) = false ∧
      (n.val < 32 → ∀ l ∈ s.blk.portLanes n, (s.blk.lane l).since + 1000000 * nsUnit ≤ t.blk.tm.phys) ∧
      FrameOn coreTouch [.tm, .sw, .macs, .trc, .host, .out] s t) ∧
  (∀ (s : State) (n : Fin 33) (why : LinkFault) (dt : Nat), s.blk.coreOk = true → s.blk.flag (MAC_CTL_EN n) = true →
    s.blk.absent n = false → s.blk.flag (MAC_STAT_LINK n) = true → (n.val < 32 → (s.blk.pt n).lbk = false) →
    (why = .remoteFault → n.val ≠ 32 ∧ s.blk.slowLane n = false) → (why = .phy → n.val = 32) →
    ∃ t, exec (.linkDown n why dt) s = .next t ∧ t.blk.flag (MAC_STAT_LINK n) = false ∧ t.blk.flag (MAC_CAUSE_DOWN n) = true ∧
      t.blk.get (MAC_CAUSE_DCODE n) = (match why with | .localFault => 3 | .remoteFault => 4 | .phy => 5) ∧
      (why = .localFault → t.blk.flag (MAC_STAT_LF n) = true) ∧ (why = .remoteFault → t.blk.flag (MAC_STAT_RF n) = true) ∧
      (s.blk.flag (SWC_PORT_STAT_UP (egressOf n)) = true → (n.val < 32 → s.blk.flag (MAC_CFG_RING n) = false) →
        ∀ y ∈ t.blk.sw.copies, y.port ≠ egressOf n) ∧
      FrameOn coreTouch [.tm, .sw, .macs, .trc, .host, .out] s t) ∧
  (∀ (s : State) (n : Fin 32) (dt : Nat), s.blk.coreOk = true → s.blk.flag (MAC_CTL_EN n) = true →
    s.blk.absent n = false → s.blk.flag (MAC_STAT_LINK n) = true → (s.blk.pt n).lbk = true →
    ∃ t, exec (.linkDown (Fin.ofNat 33 n) .localFault dt) s = .next t ∧ t.blk.get (MAC_LBK_STATUS n) = 5 ∧
      (t.blk.pt n).lbk = false ∧ FrameOn laneTouch laneParts s t) ∧
  (∀ (s : State) (n : Fin 32), s.blk.hostFree = true → s.blk.absent n = false → s.blk.isR4 n = false → s.blk.flag (MAC_CTL_EN n) = false →
    s.blk.flag (MAC_STAT_LINK n) = false → s.blk.laneOut n = false → s.blk.laneState n = 0 → (s.blk.lane n).test = none →
    (s.blk.profile = 3 → s.blk.lanesEnabled + 1 ≤ 16) →
    ∃ t, exec (.macEnable (Fin.ofNat 33 n)) s = .next t ∧ t.blk.flag (MAC_CTL_EN n) = true ∧
      (s.blk.quadOn (n / 4) = true → t.blk.laneState n = 1 ∧ (t.blk.lane n).since = s.blk.tm.phys) ∧
      (s.blk.quadOn (n / 4) = false → t.blk.laneState n = 0 ∧
        ∃ u, (t.blk.lane n).wakeAt = some u ∧ s.blk.tm.phys < u ∧ u ≤ s.blk.tm.phys + 220000 * nsUnit) ∧
      FrameOn (fun a => macTouch n a || a == SDS_STAT n || a == PWR_STAT || a == SWC_CAUSE) [.lanes, .free, .host, .out] s t) ∧
  (∀ (s : State) (n : Fin 32), s.blk.hostFree = true → s.blk.absent n = false → s.blk.profile = 3 → s.blk.flag (MAC_CTL_EN n) = false →
    16 < s.blk.lanesEnabled + (if s.blk.isR4 n then 4 else 1) →
    ∃ t, exec (.macEnable (Fin.ofNat 33 n)) s = .next t ∧ t.blk.get (MAC_CAUSE_DCODE n) = 7 ∧ Frame [MAC_CAUSE_DCODE n] [] s t) ∧
  (∀ s : State, s.blk.hostFree = true → ∃ t, exec (.macEnable 32) s = .next t ∧ t.blk.flag (MAC_CTL_EN 32) = true ∧ Frame [MAC_CTL_EN 32] [] s t) ∧
  (∀ (s : State) (n : Fin 33) (rx : Bool), s.blk.hostFree = true → s.blk.coreOk = true → s.blk.absent n = false →
    ∃ t, exec (.macDisable n rx) s = .next t ∧ t.blk.flag (MAC_CTL_EN n) = false ∧ t.blk.flag (MAC_STAT_LINK n) = false ∧
      t.blk.get (MAC_CAUSE_DCODE n) = 1 ∧ (n.val < 32 → s.blk.isR4 n = false → s.blk.laneState n ≠ 7 → t.blk.laneState n = 0) ∧
      (s.blk.txOf (egressOf n) = none → (t.blk.mac n).ts = (s.blk.mac n).ts) ∧ FrameOn (fun a => laneTouch a || a == PWR_STAT) laneParts s t) ∧
  (∀ (s : State) (n : Fin 32), s.blk.hostFree = true → ∃ t, exec (.tsPop n) s = .next t ∧ (t.blk.mac n).ts = (s.blk.mac n).ts.drop 1 ∧
    (∀ a r l, (s.blk.mac n).ts = a :: r :: l → t.blk.reg (MAC_TSREC0 n) = r.stw) ∧
    Frame [MAC_TSCNT_CNT n, ⟨MAC_TSREC0 n, 0, 72⟩, ⟨MAC_TSREC1 n, 0, 72⟩] [.macs] s t)

/-! ### The serial lanes -/

/-- R333 to R340: a lane finds signal, trains its equaliser, locks, is aligned with its group, exchanges capabilities and becomes
ACTIVE; a stage that passes its time starts the lane again.
Choices and readings of the model: log entries 43, 44 and 76. -/
def Obligations.LaneTraining : Prop :=
  (∀ (s : State) (l : Fin 36) (dt : Nat), s.blk.coreOk = true → s.blk.laneState l = 1 →
    (s.blk.lane l).wakeAt = none →
    ∃ t, exec (.signalDetect l dt) s = .next t ∧ t.blk.flag (SDS_STAT_SD l) = true ∧ t.blk.laneState l = 2 ∧
      (s.blk.lane l).since + 100000 * nsUnit ≤ t.blk.tm.phys ∧ FrameOn laneTouch laneParts s t) ∧
  (∀ (s : State) (l : Fin 36) (dt u : Nat), s.blk.coreOk = true → (s.blk.lane l).wakeAt = some u → u ≤ s.blk.tm.phys + dt * nsUnit →
    ∃ t, exec (.signalDetect l dt) s = .next t ∧ t.blk.flag (SDS_STAT_SD l) = true ∧ t.blk.laneState l = 2 ∧
      u + 100000 * nsUnit ≤ t.blk.tm.phys ∧ (t.blk.lane l).wakeAt = none ∧
      FrameOn laneTouch laneParts s t) ∧
  (∀ (s : State) (l : Fin 36) (foms : List (BitVec 12)) (dt : Nat), (s.blk.lane l).wakeAt = none → s.blk.coreOk = true → s.blk.laneState l = 2 →
    s.blk.slowLane l = false → s.blk.flag (SDS_CFG_PEAKMODE l) = false → (s.blk.lane l).keep = false → foms.length = 16 →
    (∃ v ∈ foms, s.blk.get (SDS_CFG_FOMMIN l) ≤ v.toNat) →
    ∃ t, exec (.trainDone l foms dt) s = .next t ∧ t.blk.laneState l = 3 ∧
      t.blk.get (SDS_STAT_FOM l) = ((foms[t.blk.get (SDS_STAT_PEAK l)]?).getD 0).toNat ∧
      (∀ v ∈ foms, v.toNat ≤ t.blk.get (SDS_STAT_FOM l)) ∧
      (∀ i < t.blk.get (SDS_STAT_PEAK l), ((foms[i]?).getD 0).toNat < t.blk.get (SDS_STAT_FOM l)) ∧
      FrameOn laneTouch laneParts s t) ∧
  (∀ (s : State) (l : Fin 36) (foms : List (BitVec 12)) (dt : Nat), (s.blk.lane l).wakeAt = none → s.blk.coreOk = true → s.blk.laneState l = 2 →
    (s.blk.slowLane l = true ∨ s.blk.flag (SDS_CFG_PEAKMODE l) = true) →
    ∃ t, exec (.trainDone l foms dt) s = .next t ∧ t.blk.laneState l = 3 ∧
      t.blk.get (SDS_STAT_PEAK l) = s.blk.get (SDS_CFG_PEAKFIX l) ∧ FrameOn laneTouch laneParts s t) ∧
  (∀ (s : State) (l : Fin 36) (foms : List (BitVec 12)) (dt : Nat), (s.blk.lane l).wakeAt = none → s.blk.laneState l = 2 → s.blk.slowLane l = false →
    s.blk.flag (SDS_CFG_PEAKMODE l) = false → (∀ v ∈ foms, v.toNat < s.blk.get (SDS_CFG_FOMMIN l)) → foms.length = 16 →
    ∃ t, exec (.trainDone l foms dt) s = .next t ∧ Frame [] [.tm] s t) ∧
  (∀ (s : State) (l : Fin 36) (dt : Nat), (s.blk.lane l).wakeAt = none → s.blk.coreOk = true → s.blk.laneState l = 3 →
    ∃ t, exec (.lockDone l dt) s = .next t ∧
      t.blk.laneState l = (if s.blk.grouped l then 4 else if s.blk.ringLane l then 5 else 6) ∧
      FrameOn laneTouch laneParts s t) ∧
  (∀ (s : State) (l : Fin 36) (skews : List (BitVec 20)) (dt : Nat), (s.blk.lane l).wakeAt = none → s.blk.coreOk = true → l.val ∈ s.blk.groupOf l →
    (∀ m ∈ s.blk.groupOf l, s.blk.laneState m = 4) → skews.length = (s.blk.groupOf l).length →
    (∀ v ∈ skews, v.toNat ≤ (if l.val < 32 then 180000 else 600000)) →
    ∃ t, exec (.deskewDone l skews dt) s = .next t ∧
      (∀ m ∈ s.blk.groupOf l, t.blk.laneState m = (if l.val < 32 then 6 else 5)) ∧
      (∀ p ∈ (s.blk.groupOf l).zip skews, t.blk.get (SDS_SKEW_SKEW p.1) = p.2.toNat) ∧
      FrameOn laneTouch laneParts s t) ∧
  (∀ (s : State) (l : Fin 32) (m : CapMsg) (dt : Nat), (s.blk.lane l).wakeAt = none → s.blk.coreOk = true → s.blk.laneState l = 5 →
    ∃ t, exec (.capxDone (Fin.ofNat 36 l) m dt) s = .next t ∧
      (m.role = 3 → t.blk.get (SDS_STAT_PEER l) = 2 ∧ t.blk.laneState l = 6) ∧
      (m.role ≠ 3 → t.blk.flag (SDS_CAUSE_CAPERR l) = true ∧ t.blk.get (SDS_CAUSE_CAPCODE l) = 2 ∧ t.blk.laneState l = 1) ∧
      FrameOn laneTouch laneParts s t) ∧
  (∀ (s : State) (i : Fin 4) (m : CapMsg) (dt : Nat), (s.blk.lane (32 + i)).wakeAt = none → s.blk.laneState (32 + i) = 5 →
    s.blk.capCode (32 + i) m = 0 → m.map = 15 → (∀ k < 4, s.blk.laneOut (32 + k) = false) →
    ∃ t, exec (.capxDone (Fin.ofNat 36 (32 + i)) m dt) s = .next t ∧ t.blk.get (SDS_STAT_PEER (32 + i)) = 1 ∧
      t.blk.get (SDS_STAT_RLANE (32 + i)) = m.lane.toNat ∧ t.blk.laneState (32 + i) = 6 ∧
      FrameOn laneTouch [.tm, .lanes, .host, .out] s t) ∧
  (∀ (s : State) (i : Fin 4) (m : CapMsg) (dt : Nat), (s.blk.lane (32 + i)).wakeAt = none → s.blk.laneState (32 + i) = 5 → s.blk.capCode (32 + i) m ≠ 0 →
    ∃ t, exec (.capxDone (Fin.ofNat 36 (32 + i)) m dt) s = .next t ∧ t.blk.flag (SDS_CAUSE_CAPERR (32 + i)) = true ∧
      t.blk.get (SDS_CAUSE_CAPCODE (32 + i)) = s.blk.capCode (32 + i) m ∧ t.blk.laneState (32 + i) = 1 ∧
      FrameOn laneTouch [.tm, .lanes, .host, .out] s t) ∧
  (∀ (s : State) (l : Fin 36), (s.blk.lane l).wakeAt = none → s.blk.coreOk = true → (s.blk.laneState l = 2 ∨ s.blk.laneState l = 3) →
    ∃ t, exec (.stageTimeout l) s = .next t ∧ t.blk.laneState l = 1 ∧ t.blk.flag (SDS_CAUSE_TMO l) = true ∧
      t.blk.get (SDS_CAUSE_STAGE l) = s.blk.laneState l ∧
      (s.blk.lane l).since + (if s.blk.laneState l = 2 ∧ s.blk.slowLane l = false then 5000 else 1000) * 1000 * nsUnit ≤ t.blk.tm.phys ∧
      t.blk.count (SDS_CNT l 4) = sat (2 ^ 40 - 1) (s.blk.count (SDS_CNT l 4) + 1) ∧ FrameOn laneTouch laneParts s t) ∧
  (∀ (s : State) (l : Fin 36), (s.blk.lane l).wakeAt = none → s.blk.coreOk = true → l.val ∈ s.blk.groupOf l → (∀ m ∈ s.blk.groupOf l, s.blk.laneState m = 4) →
    ∃ t, exec (.stageTimeout l) s = .next t ∧ (∀ m ∈ s.blk.groupOf l, t.blk.laneState m = 1 ∧ t.blk.flag (SDS_CAUSE_TMO m) = true) ∧
      (s.blk.lane l).since + (if l.val < 32 then 1000 else 200) * 1000 * nsUnit ≤ t.blk.tm.phys ∧
      FrameOn laneTouch laneParts s t) ∧
  (∀ (s : State) (l : Fin 36), (s.blk.lane l).wakeAt = none → s.blk.coreOk = true → s.blk.laneState l = 5 →
    ∃ t, exec (.stageTimeout l) s = .next t ∧ t.blk.flag (SDS_CAUSE_TMO l) = true ∧ t.blk.get (SDS_CAUSE_STAGE l) = 5 ∧
      (l.val < 32 → t.blk.laneState l = 6 ∧ t.blk.get (SDS_STAT_PEER l) = 0) ∧
      (32 ≤ l.val → t.blk.laneState l = 1 ∧ t.blk.get (SDS_CAUSE_CAPCODE l) = 1) ∧
      (s.blk.lane l).since + 1000000 * nsUnit ≤ t.blk.tm.phys ∧ FrameOn laneTouch laneParts s t)

/-- R339, R342 to R348, R350: lock loss and the retirement it may make, loss of signal and the strike it may withdraw, retraining,
adaptation, a retirement cleared, capability messages, self-tests and spreading.
Choices and readings of the model: log entries 42, 43 and 76. -/
def Obligations.LaneFaults : Prop :=
  (∀ (s : State) (l : Fin 36) (errs dt : Nat), (s.blk.lane l).wakeAt = none → s.blk.coreOk = true → 3 ≤ s.blk.laneState l → s.blk.laneState l ≤ 6 →
    s.blk.flag (SDS_STAT_SD l) = true → (s.blk.advanceNs dt).retires (laneChan l) = false →
    ∃ t, exec (.laneLockLoss l errs dt) s = .next t ∧ t.blk.laneState l = 2 ∧ t.blk.flag (SDS_CAUSE_TRANS l) = true ∧
      t.blk.count (SDS_CNT l 1) = sat (2 ^ 40 - 1) (s.blk.count (SDS_CNT l 1) + 1) ∧
      t.blk.isRetired (laneChan l) = s.blk.isRetired (laneChan l) ∧ FrameOn laneTouch laneParts s t) ∧
  (∀ (s : State) (l : Fin 36) (errs dt : Nat), (s.blk.lane l).wakeAt = none → s.blk.coreOk = true → 3 ≤ s.blk.laneState l → s.blk.laneState l ≤ 6 →
    s.blk.flag (SDS_STAT_SD l) = true → (s.blk.advanceNs dt).retires (laneChan l) = true →
    ∃ t, exec (.laneLockLoss l errs dt) s = .next t ∧ t.blk.laneState l = 7 ∧ t.blk.flag (SDS_STAT_RETIRED l) = true ∧
      t.blk.flag (SDS_CAUSE_RETIRE l) = true ∧ t.blk.isRetired (laneChan l) = true ∧ FrameOn laneTouch laneParts s t) ∧
  (∀ (s : State) (l : Fin 36) (dt : Nat), (s.blk.lane l).wakeAt = none → s.blk.coreOk = true → 3 ≤ s.blk.laneState l → s.blk.laneState l ≤ 6 →
    (s.blk.lane l).lossAt = none →
    ∃ t, exec (.lossOfSignal l dt) s = .next t ∧ t.blk.laneState l = 1 ∧ t.blk.flag (SDS_STAT_SD l) = false ∧
      t.blk.strikes = s.blk.strikes ∧ FrameOn laneTouch laneParts s t) ∧
  (∀ (s : State) (l : Fin 36) (dt u : Nat), (s.blk.lane l).wakeAt = none → s.blk.coreOk = true → s.blk.laneState l = 2 → (s.blk.lane l).lossAt = some u →
    s.blk.tm.phys + dt * nsUnit ≤ u + 1000 * nsUnit → s.blk.laneWanted l = true → (s.blk.lane l).lossOut = false →
    ∃ t, exec (.lossOfSignal l dt) s = .next t ∧ t.blk.laneState l = 1 ∧ t.blk.flag (SDS_STAT_SD l) = false ∧
      strikesOf (laneChan l) t.blk.strikes = (strikesOf (laneChan l) s.blk.strikes).drop 1 ∧ FrameOn laneTouch laneParts s t) ∧
  (∀ (s : State) (l : Fin 36), s.blk.hostFree = true → s.blk.coreOk = true → s.blk.laneState l = 6 →
    ∃ t, exec (.retrain l) s = .next t ∧ t.blk.laneState l = 2 ∧
      t.blk.count (SDS_CNT l 2) = sat (2 ^ 40 - 1) (s.blk.count (SDS_CNT l 2) + 1) ∧ (t.blk.lane l).keep = false ∧
      FrameOn laneTouch laneParts s t) ∧
  (∀ (s : State) (l : Fin 36), s.blk.hostFree = true → s.blk.laneState l ≠ 6 → (s.blk.lane l).test = none →
    ∃ t, exec (.retrain l) s = .next t ∧ Frame [] [] s t) ∧
  (∀ (s : State) (l : Fin 36), s.blk.hostFree = true → s.blk.coreOk = true → s.blk.laneOut l = true →
    ∃ t, exec (.laneRetireClear l) s = .next t ∧ t.blk.laneState l = 0 ∧ t.blk.laneOut l = false ∧
      t.blk.isRetired (laneChan l) = false ∧ strikesOf (laneChan l) t.blk.strikes = [] ∧ FrameOn laneTouch laneParts s t) ∧
  (∀ (s : State) (l : Fin 36), s.blk.hostFree = true → s.blk.laneOut l = false → ∃ t, exec (.laneRetireClear l) s = .next t ∧ Frame [] [] s t) ∧
  (∀ (s : State) (l : Fin 36) (below at_ above : BitVec 12), (s.blk.lane l).wakeAt = none → s.blk.laneState l = 6 → s.blk.flag (SDS_CFG_ADAPT l) = true →
    (s.blk.lane l).test = none → s.blk.get (SDS_STAT_PEAK l) < 15 →
    at_.toNat + s.blk.get (SDS_CFG_HYST l) ≤ above.toNat → below.toNat < at_.toNat + s.blk.get (SDS_CFG_HYST l) →
    ∃ t, exec (.adaptMeasure l below at_ above) s = .next t ∧ t.blk.get (SDS_STAT_FOM l) = at_.toNat ∧
      ((s.blk.lane l).up < 2 → t.blk.get (SDS_STAT_PEAK l) = s.blk.get (SDS_STAT_PEAK l) ∧ (t.blk.lane l).up = (s.blk.lane l).up + 1) ∧
      (2 ≤ (s.blk.lane l).up → t.blk.get (SDS_STAT_PEAK l) = s.blk.get (SDS_STAT_PEAK l) + 1 ∧
        t.blk.flag (SDS_CAUSE_ADAPT l) = true ∧ (t.blk.lane l).up = 0) ∧
      FrameOn (fun a => a == SDS_STAT l || a == SDS_CAUSE l || a == SDS_CNT l 3 || a == STS_HALFSUM || evTouch a)
        [.tm, .lanes, .host, .out] s t) ∧
  (∀ (s : State) (l : Fin 36) (below at_ above : BitVec 12), (s.blk.lane l).wakeAt = none → s.blk.laneState l = 6 → s.blk.flag (SDS_CFG_ADAPT l) = true →
    (s.blk.lane l).test = none → above.toNat < at_.toNat + s.blk.get (SDS_CFG_HYST l) →
    below.toNat < at_.toNat + s.blk.get (SDS_CFG_HYST l) →
    ∃ t, exec (.adaptMeasure l below at_ above) s = .next t ∧ t.blk.get (SDS_STAT_FOM l) = at_.toNat ∧
      (t.blk.lane l).up = 0 ∧ (t.blk.lane l).down = 0 ∧ Frame [SDS_STAT_FOM l] [.tm, .lanes] s t) ∧
  (∀ (s : State) (i : Fin 4) (m : CapMsg) (dt : Nat), s.blk.laneState (32 + i) = 6 →
    ∃ t, exec (.capMessageRx i m dt) s = .next t ∧ t.blk.lanes.farSsc = m.ssc ∧
      (∀ k < 4, t.blk.flag (SDS_STAT_PEERRET (32 + k)) = !m.map.getLsbD (s.blk.logical (32 + k))) ∧
      FrameOn laneTouch laneParts s t) ∧
  (∀ (s : State) (l : Fin 36) (d : Half), s.blk.hostFree = true → d.toNat % 4 < 3 → (s.blk.lane l).test = none →
    s.blk.testAllowed l (d.toNat % 4) (s.blk.laneState l) = true →
    ∃ t, exec (.laneTestGo l d) s = .next t ∧ t.blk.get (SDS_TEST_KIND l) = d.toNat % 4 ∧ t.blk.get (SDS_TEST_STATUS l) = 1 ∧
      (t.blk.lane l).test = some (d.toNat % 4) ∧ Frame [SDS_TEST_KIND l, SDS_TEST_STATUS l] [.lanes] s t) ∧
  (∀ (s : State) (l : Fin 36) (d : Half), s.blk.hostFree = true → d.toNat % 4 < 3 →
    ((s.blk.lane l).test ≠ none ∨ s.blk.testAllowed l (d.toNat % 4) (s.blk.laneState l) = false) →
    ∃ t, exec (.laneTestGo l d) s = .next t ∧ t.blk.get (SDS_TEST_STATUS l) = 4 ∧
      Frame [SDS_TEST_KIND l, SDS_TEST_STATUS l] [] s t) ∧
  (∀ (s : State) (l : Fin 36) (h v : BitVec 6) (errs : BitVec 40) (dt k : Nat), (s.blk.lane l).test = some k →
    (k = 0 → (s.blk.advanceNs dt).slotRuns = true) →
    ∃ t, exec (.laneTestDone l h v errs dt) s = .next t ∧ (t.blk.lane l).test = none ∧
      (k = 0 → t.blk.get (SDS_TRES_H l) = h.toNat ∧ t.blk.get (SDS_TRES_V l) = v.toNat ∧
        t.blk.get (SDS_TEST_STATUS l) = (if 19 ≤ h.toNat ∧ 10 ≤ v.toNat then 2 else 3)) ∧
      (k ≠ 0 → t.blk.get (SDS_TRES_ERRS l) = errs.toNat ∧ t.blk.get (SDS_TEST_STATUS l) = (if errs = 0 then 2 else 3)) ∧
      t.blk.get CAL_CAUSE_KIND = 9 ∧ t.blk.get CAL_CAUSE_UNIT = l.val ∧
      FrameOn (fun a => a == SDS_TEST l || a == SDS_TRES l || a == CAL_CAUSE || evTouch a) [.tm, .lanes, .host, .out] s t) ∧
  (∀ (s : State) (d : Half), s.blk.hostFree = true → ∃ t, exec (.sscWrite d) s = .next t ∧ t.blk.flag SDS_SSC_EN = d.getLsbD 0 ∧
    t.blk.flag SDS_SSC_ACTIVE = d.getLsbD 0 ∧
    (1 ≤ d.toNat / 2 % 16 → d.toNat / 2 % 16 ≤ 10 → t.blk.get SDS_SSC_DEPTH = d.toNat / 2 % 16) ∧
    t.blk.tm.phys % (32000 * nsUnit) = 0 ∧ Frame [SDS_SSC_EN, SDS_SSC_ACTIVE, SDS_SSC_DEPTH] [.tm, .lanes, .out] s t)

/-! ### Network time -/

/-- R358 to R363, R369 to R374, R384, R387: the network time unit sends Sync, Delay_Req and Pdelay_Req when they are due; it
takes a master's Sync and answers a Pdelay_Req, and counts what has no master or fails its authentication; a loopback run is
refused, begins and ends.
Choices and readings of the model: log entries 36, 37 and 76. -/
def Obligations.NetworkTime : Prop :=
  (∀ (s : State) (f : InFrame) (l : List InFrame) (p : PtpAt) (d k : Fin 2), s.blk.ptp.rx = f :: l →
    ptpOf s.blk.etype f.bytes = some p → s.blk.ptpDomain f.src f.bytes p = some (d.val + 1) → s.blk.get (MAC_PTP_ROLE f.src) = 1 →
    s.blk.flag (MAC_PTP_AUTHRX f.src) = false → s.blk.masterOf f.src d f.bytes p = some k.val → ptpType f.bytes p = 0 →
    ptpTwo f.bytes p = true →
    ∃ t, exec .ptpMessageRx s = .next t ∧ t.blk.ptp.rx = l ∧
      (∃ v, ((t.blk.dom d).master k).sync =
        some { seq := ptpSeq f.bytes p, two := true, t2 := t.blk.domTime (d.val + 1) f.stamp, t1 := ptpTime f.bytes p,
               corr := ptpCorr f.bytes p, at_ := v }) ∧
      Frame [LAN_D_DOFF_DOFF 0, LAN_D_DOFF_DOFF 1] [.ptp] s t) ∧
  (∀ (s : State) (f : InFrame) (l : List InFrame) (p : PtpAt) (d k : Fin 2) (x : SyncIn) (mpd : Int), s.blk.ptp.rx = f :: l →
    ptpOf s.blk.etype f.bytes = some p → s.blk.ptpDomain f.src f.bytes p = some (d.val + 1) → s.blk.get (MAC_PTP_ROLE f.src) = 1 →
    s.blk.flag (MAC_PTP_AUTHRX f.src) = false → s.blk.masterOf f.src d f.bytes p = some k.val → ptpType f.bytes p = 8 →
    ((s.blk.dom d).master k).sync = some x → x.two = true → x.seq = ptpSeq f.bytes p →
    s.blk.tm.phys ≤ x.at_ + 100000000 * nsUnit → s.blk.mpdOf d k = some mpd → s.blk.synced = false →
    s.blk.get (LAN_D_SEL_SEL d) ≠ k.val + 1 →
    ∃ t, exec .ptpMessageRx s = .next t ∧ t.blk.ptp.rx = l ∧
      t.blk.get (LAN_D_OFF_OFS d k) = ofSigned 48 (x.t2 - ptpTime f.bytes p - (x.corr + ptpCorr f.bytes p) - mpd -
        s.blk.asymOf (s.blk.get (LAN_D_M1_INPORT d k)) mpd) ∧
      t.blk.flag (useField d k) = true ∧ ((t.blk.dom d).master k).lastValid = some s.blk.tm.phys ∧
      FrameOn (fun a => within 0x50000 0x60000 a || evTouch a) [.ptp, .host, .out] s t) ∧
  (∀ (s : State) (f : InFrame) (l : List InFrame) (p : PtpAt) (d : Fin 2), s.blk.ptp.rx = f :: l → f.src < 32 →
    ptpOf s.blk.etype f.bytes = some p → s.blk.ptpDomain f.src f.bytes p = some (d.val + 1) → s.blk.get (MAC_PTP_ROLE f.src) = 2 →
    s.blk.flag (MAC_PTP_AUTHRX f.src) = false → ptpType f.bytes p = 2 → s.blk.get (LAN_D_CFG_TRANS d) = 0 →
    ∃ t, exec .ptpMessageRx s = .next t ∧ t.blk.ptp.rx = l ∧
      (∃ m, Out.ptp f.src m ∈ t.blk.out ∧ beAt m 0 6 = 0x0180C200000E ∧ beAt m 12 2 = 0x88F7 ∧ ptpType m ⟨14, 0, none⟩ = 3 ∧
        ptpSeq m ⟨14, 0, none⟩ = ptpSeq f.bytes p ∧ ptpTwo m ⟨14, 0, none⟩ = !s.blk.flag (MAC_PTP_ONESTEP f.src)) ∧
      FrameOn (fun a => macTouch f.src a || within 0x50000 0x60000 a) [.ptp, .host, .out] s t) ∧
  (∀ (s : State) (f : InFrame) (l : List InFrame) (p : PtpAt) (d : Fin 2), s.blk.ptp.rx = f :: l → f.src < 32 →
    s.blk.absent f.src = false →
    ptpOf s.blk.etype f.bytes = some p → s.blk.ptpDomain f.src f.bytes p = some (d.val + 1) → s.blk.get (MAC_PTP_ROLE f.src) = 1 →
    s.blk.flag (MAC_PTP_AUTHRX f.src) = false → s.blk.masterOf f.src d f.bytes p = none → ptpType f.bytes p = 0 →
    ∃ t, exec .ptpMessageRx s = .next t ∧
      t.blk.count (MAC_PTP_CNT f.src 3) = sat (2 ^ 40 - 1) (s.blk.count (MAC_PTP_CNT f.src 3) + 1) ∧
      FrameOn (fun a => macTouch f.src a || within 0x50000 0x60000 a) [.ptp, .host, .out] s t) ∧
  (∀ (s : State) (f : InFrame) (l : List InFrame) (p : PtpAt) (d : Fin 2), s.blk.ptp.rx = f :: l → f.src < 32 →
    s.blk.absent f.src = false →
    ptpOf s.blk.etype f.bytes = some p → s.blk.ptpDomain f.src f.bytes p = some (d.val + 1) → s.blk.get (MAC_PTP_ROLE f.src) = 1 →
    s.blk.flag (MAC_PTP_AUTHRX f.src) = true → s.blk.authOk f.bytes p = false →
    ∃ t, exec .ptpMessageRx s = .next t ∧ t.blk.flag (LAN_D_CAUSE_AUTHF d) = true ∧
      t.blk.count (MAC_PTP_CNT f.src 2) = sat (2 ^ 40 - 1) (s.blk.count (MAC_PTP_CNT f.src 2) + 1) ∧
      FrameOn (fun a => macTouch f.src a || within 0x50000 0x60000 a) [.ptp, .host, .out] s t) ∧
  (∀ (s : State) (n : Fin 32) (d : Fin 2), s.blk.get (MAC_PTP_ROLE n) = 2 → s.blk.serves n d = true →
    s.blk.flag (MAC_STAT_LINK n) = true → s.blk.flag (MAC_CFG_RING n) = false → s.blk.get (LAN_D_CFG_TRANS d) = 0 →
    ∃ t, exec (.syncSend n d) s = .next t ∧ s.blk.dueAt n d ≤ t.blk.tm.phys ∧
      (∃ m, Out.ptp n.val m ∈ t.blk.out ∧ beAt m 0 6 = 0x011B19000000 ∧ beAt m 12 2 = 0x88F7 ∧ ptpType m ⟨14, 0, none⟩ = 0 ∧
        ptpDom m ⟨14, 0, none⟩ = s.blk.dnum d ∧ ptpSeq m ⟨14, 0, none⟩ = s.blk.nextSeq n d % 2 ^ 16 ∧
        ptpSrc m ⟨14, 0, none⟩ = (s.blk.get LAN_CLKID_ID, n.val + 1) ∧ ptpTwo m ⟨14, 0, none⟩ = !s.blk.flag (MAC_PTP_ONESTEP n)) ∧
      (s.blk.flag (MAC_PTP_ONESTEP n) = false → ∃ m, Out.ptp n.val m ∈ t.blk.out ∧ ptpType m ⟨14, 0, none⟩ = 8 ∧
        ptpSeq m ⟨14, 0, none⟩ = s.blk.nextSeq n d % 2 ^ 16) ∧
      t.blk.nextSeq n d = (s.blk.nextSeq n d + 1) % 2 ^ 16 ∧
      FrameOn (fun a => macTouch n a || within 0x50000 0x60000 a) [.tm, .ptp, .host, .out] s t) ∧
  (∀ (s : State) (d k : Fin 2) (n : Nat), n = s.blk.get (LAN_D_M1_INPORT d k) → s.blk.flag (LAN_D_M1_VALID d k) = true →
    s.blk.get (LAN_D_CFG_DMECH d) = 0 → s.blk.get (MAC_PTP_ROLE n) = 1 → s.blk.serves n d = true →
    s.blk.flag (MAC_STAT_LINK n) = true → s.blk.flag (MAC_CFG_RING n) = false → s.blk.get (LAN_D_CFG_TRANS d) = 0 →
    ∃ t, exec (.delayReqSend d k) s = .next t ∧ s.blk.dueAt n (4 + 2 * d + k) ≤ t.blk.tm.phys ∧
      (∃ m, Out.ptp n m ∈ t.blk.out ∧ beAt m 0 6 = 0x011B19000000 ∧ ptpType m ⟨14, 0, none⟩ = 1 ∧
        ptpSeq m ⟨14, 0, none⟩ = s.blk.nextSeq n (4 + 2 * d) % 2 ^ 16) ∧
      (∃ t3, ((t.blk.dom d).master k).dreq = some (s.blk.nextSeq n (4 + 2 * d), t3)) ∧
      FrameOn (fun a => macTouch n a || within 0x50000 0x60000 a) [.tm, .ptp, .host, .out] s t) ∧
  (∀ (s : State) (n : Fin 32) (d : Fin 2), s.blk.pdDomain n = some d.val →
    (s.blk.get (MAC_PTP_ROLE n) = 1 ∨ s.blk.get (MAC_PTP_ROLE n) = 2 ∨ s.blk.get (MAC_PTP_ROLE n) = 4) →
    s.blk.flag (MAC_STAT_LINK n) = true → s.blk.flag (MAC_CFG_RING n) = false → s.blk.get (LAN_D_CFG_TRANS d) = 0 →
    ∃ t, exec (.pdelayReqSend n) s = .next t ∧ s.blk.dueAt n 8 ≤ t.blk.tm.phys ∧
      (∃ m, Out.ptp n.val m ∈ t.blk.out ∧ beAt m 0 6 = 0x0180C200000E ∧ ptpType m ⟨14, 0, none⟩ = 2 ∧
        ptpSeq m ⟨14, 0, none⟩ = s.blk.nextSeq n (8 + d) % 2 ^ 16) ∧
      (∃ t1, (t.blk.pt n).pdT1 = some (s.blk.nextSeq n (8 + d), t1)) ∧
      FrameOn (fun a => macTouch n a || within 0x50000 0x60000 a) [.tm, .ptp, .host, .out] s t) ∧
  (∀ (s : State) (n : Fin 32) (d : Half), s.blk.hostFree = true →
    ∃ t, exec (.loopbackGo n d) s = .next t ∧ t.blk.get (MAC_LBK_LOOPD n) = d.toNat % 2 ^ 24 ∧
      ((s.blk.pt n).lbk = false → s.blk.flag (MAC_CTL_EN n) = true → s.blk.flag (MAC_STAT_LINK n) = true →
        s.blk.flag (SWC_PORT_CTL_EN n) = false → t.blk.get (MAC_LBK_STATUS n) = 1 ∧ (t.blk.pt n).lbk = true) ∧
      (((s.blk.pt n).lbk = true ∨ s.blk.flag (MAC_CTL_EN n) = false ∨ s.blk.flag (MAC_STAT_LINK n) = false ∨
        s.blk.flag (SWC_PORT_CTL_EN n) = true) → t.blk.get (MAC_LBK_STATUS n) = 4 ∧ t.blk.ptp = s.blk.ptp) ∧
      Frame [MAC_LBK_LOOPD n, MAC_LBK_STATUS n] [.ptp] s t) ∧
  (∀ (s : State) (n : Fin 32) (mean : BitVec 32) (rms lost dt : Nat) (r sum : Int), (s.blk.pt n).lbk = true →
    1024 ≤ (s.blk.pt n).probes → r = (mean.toNat : Int) - s.blk.get (MAC_LBK_LOOPD n) → sum = (((factoryCal n).1 + (factoryCal n).2 : Nat) : Int) →
    ∃ t, exec (.loopbackDone n mean rms lost dt) s = .next t ∧ (t.blk.pt n).lbk = false ∧
      t.blk.get (MAC_LBK_RESULT n) = ofSigned 20 r ∧
      ((r - sum).natAbs ≤ 500 → rms ≤ 25 → lost ≤ 16 → t.blk.get (MAC_LBK_STATUS n) = 2 ∧
        t.blk.get (MAC_PTPCAL_TXCAL n) = ofSigned 20 ((factoryCal n).1 + (r - sum) / 2) ∧
        t.blk.get (MAC_PTPCAL_RXCAL n) = ofSigned 20 ((factoryCal n).2 + (r - sum) / 2) ∧ t.blk.flag CAL_CAUSE_DONE = true) ∧
      ((500 < (r - sum).natAbs ∨ 25 < rms ∨ 16 < lost) → t.blk.get (MAC_LBK_STATUS n) = 3 ∧
        t.blk.reg (MAC_PTPCAL n) = s.blk.reg (MAC_PTPCAL n) ∧ t.blk.flag CAL_CAUSE_FAIL = true) ∧
      FrameOn (fun a => a == MAC_LBK n || a == MAC_PTPCAL n || a == CAL_CAUSE || a == CAL_REC (28 + n) || a == CAL_LAST (28 + n) ||
        evTouch a) [.tm, .ptp, .host, .out] s t)

/-- R372 to R377, R381 to R383: a master times out, with and without a fallback; a master is selected; a servo is enabled and
disabled; the steering of the time scale is switched, refused and its move ends.
Choices and readings of the model: log entries 3, 37 and 76. -/
def Obligations.SteeringDomains : Prop :=
  (∀ (s : State) (d k : Fin 2) (u : Nat), ((s.blk.dom d).master k).lastValid = some u → s.blk.flag (useField d k) = true →
    s.blk.get (LAN_D_SEL_SEL d) = k.val + 1 → s.blk.flag (LAN_D_SEL_FB d) = true → s.blk.flag (useField d (1 - k.val)) = true →
    ∃ t, exec (.masterTimeout d k) s = .next t ∧ t.blk.flag (useField d k) = false ∧ t.blk.get (LAN_D_SEL_SEL d) = 2 - k.val ∧
      t.blk.flag (LAN_D_CAUSE_FBSW d) = true ∧ t.blk.flag (LAN_D_CAUSE_USECHG d) = true ∧
      u + s.blk.get (LAN_D_LIM_TMO d) * 1000000 * nsUnit ≤ t.blk.tm.phys ∧
      FrameOn (fun a => a == LAN_D_STAT d || a == LAN_D_SEL d || a == LAN_D_CAUSE d || a == LAN_D_DOFF 0 || a == LAN_D_DOFF 1 ||
        evTouch a) [.tm, .ptp, .host, .out] s t) ∧
  (∀ (s : State) (d k : Fin 2) (u : Nat), ((s.blk.dom d).master k).lastValid = some u → s.blk.flag (useField d k) = true →
    s.blk.get (LAN_D_SEL_SEL d) = k.val + 1 → s.blk.flag (LAN_D_SEL_FB d) = false → 2 ≤ s.blk.get (LAN_D_STAT_STATE d) →
    s.blk.flag LAN_TSW_AUTO = false →
    ∃ t, exec (.masterTimeout d k) s = .next t ∧ t.blk.flag (useField d k) = false ∧ t.blk.get (LAN_D_STAT_STATE d) = 1 ∧
      t.blk.flag (LAN_D_CAUSE_STATE d) = true ∧ (t.blk.dom d).rate = clampRate (meanInt (s.blk.dom d).outs) ∧
      u + s.blk.get (LAN_D_LIM_TMO d) * 1000000 * nsUnit ≤ t.blk.tm.phys ∧
      FrameOn (fun a => within 0x50000 0x60000 a || evTouch a) [.tm, .ptp, .host, .out] s t) ∧
  (∀ (s : State) (d : Fin 2) (x : Half) (w : Nat), s.blk.hostFree = true → s.blk.synced = false →
    w = (if x.toNat % 4 < 3 then x.toNat % 4 else s.blk.get (LAN_D_SEL_SEL d)) → w < 3 →
    s.blk.flag LAN_TSW_AUTO = false →
    ∃ t, exec (.masterSelect d x) s = .next t ∧ t.blk.flag (LAN_D_SEL_FB d) = x.getLsbD 2 ∧
      (w ≠ 0 → s.blk.flag (useField d (w - 1)) = true → t.blk.get (LAN_D_SEL_SEL d) = w ∧
        t.blk.get (LAN_D_STAT_STATE d) = s.blk.get (LAN_D_STAT_STATE d)) ∧
      (w ≠ 0 → s.blk.flag (useField d (w - 1)) = false → x.getLsbD 2 = true → s.blk.flag (useField d (2 - w)) = true →
        t.blk.get (LAN_D_SEL_SEL d) = 3 - w ∧ t.blk.flag (LAN_D_CAUSE_FBSW d) = true) ∧
      ((w = 0 ∨ s.blk.flag (useField d (w - 1)) = false ∧ (x.getLsbD 2 = false ∨ s.blk.flag (useField d (2 - w)) = false)) →
        t.blk.get (LAN_D_SEL_SEL d) = w ∧
        t.blk.get (LAN_D_STAT_STATE d) = (if s.blk.get (LAN_D_STAT_STATE d) ≤ 1 then s.blk.get (LAN_D_STAT_STATE d) else 1)) ∧
      FrameOn (fun a => within 0x50000 0x60000 a || evTouch a) [.tm, .ptp, .host, .out] s t) ∧
  (∀ (s : State) (d : Fin 2) (x : Half), s.blk.hostFree = true → s.blk.synced = false → s.blk.flag (LAN_D_CFG_EN d) = false → x.getLsbD 0 = true →
    ∃ t, exec (.servoEnable d x) s = .next t ∧ t.blk.flag (LAN_D_CFG_EN d) = true ∧ t.blk.get (LAN_D_STAT_STATE d) = 1 ∧
      t.blk.get (LAN_D_CFG_DNUM d) = x.toNat / 2 % 2 ^ 8 ∧ t.blk.get (LAN_D_CFG_BW d) = x.toNat / 2 ^ 13 % 2 ^ 3 ∧
      FrameOn (fun a => within 0x50000 0x60000 a || evTouch a) [.tm, .ptp, .host, .out] s t) ∧
  (∀ (s : State) (d : Fin 2) (x : Half), s.blk.hostFree = true → s.blk.synced = false → s.blk.flag (LAN_D_CFG_EN d) = true → x.getLsbD 0 = false →
    ∃ t, exec (.servoEnable d x) s = .next t ∧ t.blk.flag (LAN_D_CFG_EN d) = false ∧ t.blk.get (LAN_D_STAT_STATE d) = 0 ∧
      (t.blk.dom d).rate = 0 ∧ FrameOn (fun a => within 0x50000 0x60000 a || evTouch a) [.tm, .ptp, .host, .out] s t) ∧
  (∀ (s : State) (x : Half), s.blk.hostFree = true → s.blk.synced = false → x.toNat % 16 = s.blk.get LAN_TCTL_DOM →
    ∃ t, exec (.domainSwitchWrite x) s = .next t ∧ Frame [LAN_D_DOFF_DOFF 0, LAN_D_DOFF_DOFF 1] [.ptp] s t) ∧
  (∀ (s : State) (x : Half) (d : Fin 2), s.blk.hostFree = true → s.blk.synced = false → x.toNat % 16 = d.val + 1 → s.blk.get LAN_TCTL_DOM ≠ d.val + 1 →
    s.blk.get (LAN_D_STAT_STATE d) < 3 →
    ∃ t, exec (.domainSwitchWrite x) s = .next t ∧ t.blk.flag LAN_TSW_REFUSED = true ∧ t.blk.get LAN_TSW_RCODE = 1 ∧
      t.blk.flag LAN_NTCAUSE_SWREF = true ∧ t.blk.get LAN_TCTL_DOM = s.blk.get LAN_TCTL_DOM ∧
      FrameOn (fun a => a == LAN_TSW || a == LAN_NTCAUSE || a == LAN_D_DOFF 0 || a == LAN_D_DOFF 1 || evTouch a)
        [.ptp, .host, .out] s t) ∧
  (∀ (s : State) (x : Half) (d : Fin 2), s.blk.hostFree = true → s.blk.synced = false → x.toNat % 16 = d.val + 1 → s.blk.get LAN_TCTL_DOM ≠ d.val + 1 →
    (s.blk.get (LAN_D_STAT_STATE d) = 3 ∨ s.blk.get (LAN_D_STAT_STATE d) = 4) → s.blk.flag LAN_ADJ_BUSY = true →
    ∃ t, exec (.domainSwitchWrite x) s = .next t ∧ t.blk.flag LAN_TSW_REFUSED = true ∧ t.blk.get LAN_TSW_RCODE = 3 ∧
      t.blk.get LAN_TCTL_DOM = s.blk.get LAN_TCTL_DOM ∧
      FrameOn (fun a => a == LAN_TSW || a == LAN_NTCAUSE || a == LAN_D_DOFF 0 || a == LAN_D_DOFF 1 || evTouch a)
        [.ptp, .host, .out] s t) ∧
  (∀ (s : State) (x : Half) (d : Fin 2), s.blk.hostFree = true → s.blk.synced = false → x.toNat % 16 = d.val + 1 → s.blk.get LAN_TCTL_DOM ≠ d.val + 1 →
    (s.blk.get (LAN_D_STAT_STATE d) = 3 ∨ s.blk.get (LAN_D_STAT_STATE d) = 4) → s.blk.flag LAN_ADJ_BUSY = false →
    s.blk.flag SYS_CYCLE_RUN = false → 0 ≤ (s.blk.tm.lt : Int) + (s.blk.domSync.dom d).doff →
    ∃ t, exec (.domainSwitchWrite x) s = .next t ∧ t.blk.get LAN_TCTL_DOM = d.val + 1 ∧
      t.blk.get LAN_TSW_FROM = s.blk.get LAN_TCTL_DOM ∧ t.blk.flag LAN_TSW_REFUSED = false ∧ t.blk.flag LAN_TSW_BUSY = true ∧
      t.blk.get (LAN_D_STAT_STATE d) = 2 ∧ (t.blk.tm.lt : Int) = s.blk.tm.lt + (s.blk.domSync.dom d).doff ∧
      (t.blk.dom d).doff = 0 ∧ FrameOn (fun a => within 0x50000 0x60000 a || evTouch a) [.tm, .ptp, .host, .out] s t) ∧
  (∀ s : State, s.blk.tm.slewKind = .steer → (s.blk.ptp.swTo = 1 ∨ s.blk.ptp.swTo = 2) →
    ∃ t, exec .steeringSwitchEnd s = .next t ∧ t.blk.flag LAN_TSW_BUSY = false ∧ t.blk.flag LAN_ADJ_BUSY = false ∧
      t.blk.get (LAN_D_STAT_STATE (s.blk.ptp.swTo - 1)) = 3 ∧ (t.blk.dom (s.blk.ptp.swTo - 1)).doff = 0 ∧
      t.blk.flag LAN_NTCAUSE_SWDONE = true ∧ t.blk.tm.slewRem = 0 ∧
      FrameOn (fun a => within 0x50000 0x60000 a || evTouch a) [.tm, .ptp, .host, .out] s t)

/-! ### The Compass -/

/-- R398, R400, R401, R406: the frequency of an input is measured and held to its limit; edges are stamped and phase hits counted;
a signal is absent, returns or is lost; an input qualifies, is enabled, disabled and returned from retirement.
Choices and readings of the model: log entry 45. -/
def Obligations.CompassInputs : Prop :=
  (∀ (s : State) (pps : Bool) (k : Fin 8) (f : Int), s.blk.synced = false → s.blk.cps.haltAt = none →
    s.blk.flag (CMP_IN_CFG_EN k) = true → (s.blk.get (CMP_IN_CFG_SRC k) == 1) = pps →
    freqOf (s.blk.get (CMP_IN_CFG_SRC k)) (s.blk.inp k).stamps = some f → -2 ^ 31 ≤ f → f < 2 ^ 31 →
    ∃ t, exec (.freqUpdate pps) s = .next t ∧ t.blk.inFreq k = f ∧ t.blk.flag (CMP_IN_FREQ_VALID k) = true ∧
      (pps = false → t.blk.tm.phys % (1000000 * nsUnit) = 0) ∧
      ((s.blk.inState k = 3 ∨ s.blk.inState k = 4) → s.blk.get (CMP_IN_LIM_LIM k) < f.natAbs →
        t.blk.inState k = 1 ∧ t.blk.get (CMP_IN_STAT_DCAUSE k) = 3) ∧
      (s.blk.inState k = 1 → f.natAbs ≤ s.blk.get (CMP_IN_LIM_LIM k) → (s.blk.inp k).absent = false → t.blk.inState k = 3) ∧
      FrameOn cmpTouch cmpParts s t) ∧
  (∀ (s : State) (k : Fin 8) (stamp phase : Int) (dt : Nat), s.blk.flag (CMP_IN_CFG_EN k) = true → s.blk.pllState 1 ≠ 5 →
    s.blk.cps.haltAt = none → s.blk.inState k ≠ 2 → s.blk.inState k ≠ 3 → s.blk.inState k ≠ 4 → s.blk.selected ≠ some k.val →
    ∃ t, exec (.comparisonEdge k stamp phase dt) s = .next t ∧ (t.blk.inp k).absent = false ∧ (t.blk.inp k).phase = phase ∧
      (t.blk.inp k).stamps = trimStamps (s.blk.get (CMP_IN_CFG_SRC k)) (stamp :: (s.blk.inp k).stamps) ∧
      Frame [] [.tm, .cps] s t) ∧
  (∀ (s : State) (k : Fin 8) (stamp phase : Int) (dt : Nat) (p : Int) (l : List Int), s.blk.synced = false →
    s.blk.flag (CMP_IN_CFG_EN k) = true → s.blk.pllState 1 ≠ 5 → s.blk.cps.haltAt = none → s.blk.inState k = 4 →
    (s.blk.inp k).stamps = p :: l →
    s.blk.isHit k (hitStep (s.blk.get (CMP_IN_CFG_SRC k)) (s.blk.inFreq k) p stamp) = true →
    (s.blk.advanceNs dt).strikeCounts (inChan k) = true → (s.blk.advanceNs dt).retires (inChan k) = false →
    ∃ t, exec (.comparisonEdge k stamp phase dt) s = .next t ∧ t.blk.inState k = 3 ∧ t.blk.get (CMP_IN_STAT_DCAUSE k) = 2 ∧
      t.blk.flag CMP_CAUSE_STRIKE = true ∧ t.blk.count (CMP_IN_CNT k 2) = sat (2 ^ 40 - 1) (s.blk.count (CMP_IN_CNT k 2) + 1) ∧
      (strikesOf (inChan k) t.blk.strikes).length = (strikesOf (inChan k) s.blk.strikes).length + 1 ∧
      FrameOn cmpTouch cmpParts s t) ∧
  (∀ (s : State) (k : Fin 8) (stamp phase : Int) (dt : Nat), s.blk.synced = false → s.blk.flag (CMP_IN_CFG_EN k) = true →
    s.blk.pllState 1 ≠ 5 → s.blk.cps.haltAt = none → s.blk.inState k = 4 → (s.blk.inp k).stamps = [] →
    s.blk.selected = some k.val → s.blk.cps.bridge = false → s.blk.get CMP_STAT_STATE = 2 →
    ∃ t, exec (.comparisonEdge k stamp phase dt) s = .next t ∧ t.blk.get CMP_PHERR_PHERR = ofSigned 32 (satSigned 32 (phase / 1000)) ∧
      t.blk.get CMP_OUTFREQ_FREQ = ofSigned 32 (Config.loopStep (s.blk.bandwidth (s.blk.get (CMP_IN_CFG_SRC k))) phase s.blk.cps.integ).1 ∧
      (phase.natAbs ≤ 1000000000 → t.blk.get CMP_STAT_STATE = 2 ∧ t.blk.get CMP_STAT_STAGE = s.blk.get CMP_STAT_STAGE) ∧
      (1000000000 < phase.natAbs → t.blk.get CMP_STAT_STATE = 1 ∧ t.blk.get CMP_STAT_STAGE = 0) ∧
      FrameOn cmpTouch cmpParts s t) ∧
  (∀ (s : State) (k : Fin 8) (dt : Nat), s.blk.synced = false → s.blk.flag (CMP_IN_CFG_EN k) = true → (s.blk.inp k).absent = false →
    s.blk.inState k = 4 →
    ∃ t, exec (.inputAbsence k dt) s = .next t ∧ t.blk.inState k = 2 ∧ (t.blk.inp k).absent = true ∧
      (t.blk.inp k).absentAt = s.blk.tm.phys + dt * nsUnit ∧
      t.blk.count (CMP_IN_CNT k 0) = sat (2 ^ 40 - 1) (s.blk.count (CMP_IN_CNT k 0) + 1) ∧ FrameOn cmpTouch cmpParts s t) ∧
  (∀ (s : State) (k : Fin 8) (dt : Nat), s.blk.flag (CMP_IN_CFG_EN k) = true → (s.blk.inp k).absent = false →
    s.blk.inState k = 3 →
    ∃ t, exec (.inputAbsence k dt) s = .next t ∧ t.blk.inState k = 3 ∧ (t.blk.inp k).absent = true ∧
      (t.blk.inp k).qualAt = s.blk.tm.phys + dt * nsUnit ∧ Frame [] [.tm, .cps] s t) ∧
  (∀ (s : State) (k : Fin 8) (stamp phase : Int) (dt : Nat), s.blk.synced = false → s.blk.cps.haltAt = none →
    (s.blk.inp k).absent = true → s.blk.tm.phys + dt * nsUnit < (s.blk.inp k).absentAt + 1000000 * nsUnit → s.blk.inState k = 2 →
    (s.blk.inp k).stamps = [] → s.blk.flag CMP_STAT_SWPEND = true → s.blk.cps.decideAt ≠ none → s.blk.cps.kindA = true →
    s.blk.selected = some k.val → s.blk.flag CMP_CFG_REVERT = false →
    ∃ t, exec (.inputReturn k stamp phase dt) s = .next t ∧ t.blk.inState k = 4 ∧ (t.blk.inp k).absent = false ∧
      t.blk.flag CMP_STAT_SWPEND = false ∧ t.blk.get CMP_STAT_TARGET = 0xF ∧ t.blk.flag CMP_CAUSE_ABORT = true ∧
      t.blk.get CMP_STAT_SEL = k.val ∧ t.blk.cps.bridge = false ∧ FrameOn cmpTouch cmpParts s t) ∧
  (∀ (s : State) (k : Fin 8) (stamp phase : Int) (dt : Nat) (p : Int) (l : List Int), s.blk.synced = false →
    (s.blk.inp k).absent = true → s.blk.tm.phys + dt * nsUnit < (s.blk.inp k).absentAt + 1000000 * nsUnit → s.blk.inState k = 2 →
    (s.blk.inp k).stamps = p :: l →
    s.blk.isHit k (hitReturn (s.blk.get (CMP_IN_CFG_SRC k)) (s.blk.inFreq k) p stamp) = true →
    (s.blk.advanceNs dt).retires (inChan k) = false →
    ∃ t, exec (.inputReturn k stamp phase dt) s = .next t ∧ t.blk.inState k = 3 ∧ t.blk.get (CMP_IN_STAT_DCAUSE k) = 2 ∧
      FrameOn cmpTouch cmpParts s t) ∧
  (∀ (s : State) (k : Fin 8) (b : Block), b = s.blk.reachPhys ((s.blk.inp k).absentAt + 1000000 * nsUnit) → s.blk.synced = false →
    (s.blk.inp k).absent = true → (s.blk.inState k = 2 ∨ s.blk.inState k = 3) →
    ∃ t, exec (.dropoutExpire k) s = .next t ∧ t.blk.inState k = (if b.retires (inChan k) then 6 else 1) ∧
      t.blk.get (CMP_IN_STAT_DCAUSE k) = 1 ∧ (b.retires (inChan k) = true → t.blk.isRetired (inChan k) = true) ∧
      (s.blk.inp k).absentAt + 1000000 * nsUnit ≤ t.blk.tm.phys ∧
      t.blk.count (CMP_IN_CNT k 1) = sat (2 ^ 40 - 1) (s.blk.count (CMP_IN_CNT k 1) + 1) ∧ FrameOn cmpTouch cmpParts s t) ∧
  (∀ (s : State) (k : Fin 8), s.blk.synced = false → s.blk.inState k = 3 → (s.blk.inp k).absent = false →
    (s.blk.inFreq k).natAbs ≤ s.blk.get (CMP_IN_LIM_LIM k) →
    ∃ t, exec (.inputQualify k) s = .next t ∧
      (t.blk.inState k = 4 ∨ t.blk.inState k = 5 ∧ t.blk.get (CMP_IN_STAT_DCAUSE k) = 4) ∧
      (s.blk.inp k).qualAt + s.blk.get CMP_CFG_QTIME * 10 ^ 9 * nsUnit ≤ t.blk.tm.phys ∧ FrameOn cmpTouch cmpParts s t) ∧
  (∀ (s : State) (k : Fin 8) (d : Half), s.blk.hostFree = true → s.blk.synced = false → s.blk.flag (CMP_IN_CFG_EN k) = false → d.getLsbD 0 = true →
    s.blk.inState k = 0 →
    ∃ t, exec (.inputEnable k d) s = .next t ∧ t.blk.flag (CMP_IN_CFG_EN k) = true ∧
      t.blk.inState k = (if s.blk.flag (CMP_IN_STAT_RETIRED k) then 6 else 1) ∧
      t.blk.get (CMP_IN_CFG_SRC k) = (if d.toNat / 2 % 4 = 3 then s.blk.get (CMP_IN_CFG_SRC k) else d.toNat / 2 % 4) ∧
      t.blk.get (CMP_IN_CFG_RANK k) = d.toNat / 2 ^ 8 % 2 ^ 4 ∧ FrameOn cmpTouch cmpParts s t) ∧
  (∀ (s : State) (k : Fin 8) (d : Half), s.blk.hostFree = true → s.blk.synced = false → s.blk.flag (CMP_IN_CFG_EN k) = true → d.getLsbD 0 = false →
    ∃ t, exec (.inputEnable k d) s = .next t ∧ t.blk.flag (CMP_IN_CFG_EN k) = false ∧ t.blk.inState k = 0 ∧
      t.blk.get (CMP_IN_CFG_SRC k) = s.blk.get (CMP_IN_CFG_SRC k) ∧ FrameOn cmpTouch cmpParts s t) ∧
  (∀ (s : State) (k : Fin 8), s.blk.hostFree = true → s.blk.synced = false → s.blk.flag (CMP_IN_STAT_RETIRED k) = true →
    ∃ t, exec (.inputRetireClear k) s = .next t ∧ t.blk.flag (CMP_IN_STAT_RETIRED k) = false ∧
      t.blk.isRetired (inChan k) = false ∧ strikesOf (inChan k) t.blk.strikes = [] ∧
      (s.blk.inState k = 6 → t.blk.inState k = 1) ∧ FrameOn cmpTouch cmpParts s t)

/-- R402 to R405, R409, R410: selection decides a switch or none, the switch commits 1 ms later, the loop advances its stages or
fails to acquire, holdover follows its prediction and ends, and each hour trims the free-run frequency.
Choices and readings of the model: log entries 3, 45 and 76. -/
def Obligations.CompassSteering : Prop :=
  (∀ s : State, s.blk.synced = false → s.blk.cps.haltAt = none → s.blk.flag CMP_STAT_SWPEND = false → s.blk.selected = none →
    s.blk.candidates ≠ [] → s.blk.concerned (s.blk.topRank s.blk.candidates) = [] →
    ∃ t, exec .selectionEval s = .next t ∧ t.blk.flag CMP_STAT_SWPEND = true ∧ t.blk.get CMP_STAT_TARGET ∈ s.blk.candidates ∧
      (∀ m ∈ s.blk.candidates, s.blk.get (CMP_IN_CFG_RANK (t.blk.get CMP_STAT_TARGET)) < s.blk.get (CMP_IN_CFG_RANK m) ∨
        s.blk.get (CMP_IN_CFG_RANK (t.blk.get CMP_STAT_TARGET)) = s.blk.get (CMP_IN_CFG_RANK m) ∧ t.blk.get CMP_STAT_TARGET ≤ m) ∧
      t.blk.cps.decideAt = some t.blk.tm.phys ∧ t.blk.tm.phys % (1000000 * nsUnit) = 0 ∧ FrameOn cmpTouch cmpParts s t) ∧
  (∀ (s : State) (k : Fin 8), s.blk.synced = false → s.blk.cps.haltAt = none → s.blk.flag CMP_STAT_SWPEND = false →
    s.blk.selected = some k.val → s.blk.inState k = 4 → s.blk.flag CMP_CFG_REVERT = false →
    s.blk.concerned (s.blk.topRank s.blk.candidates) = [] →
    ∃ t, exec .selectionEval s = .next t ∧ t.blk.flag CMP_STAT_SWPEND = false ∧ t.blk.get CMP_STAT_SEL = k.val ∧
      FrameOn cmpTouch cmpParts s t) ∧
  (∀ (s : State) (k : Fin 8), s.blk.synced = false → s.blk.cps.haltAt = none → s.blk.flag CMP_STAT_SWPEND = false →
    s.blk.selected = some k.val → s.blk.inState k ≠ 4 → s.blk.candidates = [] →
    ∃ t, exec .selectionEval s = .next t ∧ t.blk.flag CMP_STAT_SWPEND = true ∧ t.blk.get CMP_STAT_TARGET = 0xE ∧
      t.blk.cps.bridge = true ∧ t.blk.get CMP_OUTFREQ_FREQ = t.blk.get CMP_PRED_YPRED ∧ FrameOn cmpTouch cmpParts s t) ∧
  (∀ (s : State) (u : Nat) (k : Fin 8), s.blk.synced = false → s.blk.cps.haltAt = none → s.blk.cps.decideAt = some u →
    s.blk.flag CMP_STAT_SWPEND = true → s.blk.get CMP_STAT_TARGET = k.val →
    ∃ t, exec .switchCommit s = .next t ∧ t.blk.get CMP_STAT_SEL = k.val ∧ t.blk.flag CMP_STAT_SWPEND = false ∧
      t.blk.get CMP_STAT_TARGET = 0xF ∧ t.blk.flag CMP_CAUSE_COMMIT = true ∧ u + 1000000 * nsUnit ≤ t.blk.tm.phys ∧
      t.blk.count (CMP_IN_CNT k 3) = sat (2 ^ 40 - 1) (s.blk.count (CMP_IN_CNT k 3) + 1) ∧
      ((s.blk.get CMP_STAT_STATE = 0 ∨ s.blk.get CMP_STAT_STATE = 4) → t.blk.get CMP_STAT_STATE = 1 ∧ t.blk.get CMP_STAT_STAGE = 0) ∧
      t.blk.get LAN_STEPM_CNT = (s.blk.get LAN_STEPM_CNT + 1) % 2 ^ LAN_STEPM_CNT.w ∧
      FrameOn (fun a => cmpTouch a || a == LAN_STEPM || a == CLK_MAINSTAT || within 0x90000 0x91000 a) ([.clk, .outs] ++ cmpParts) s t) ∧
  (∀ (s : State) (u : Nat), s.blk.synced = false → s.blk.cps.haltAt = none → s.blk.cps.decideAt = some u →
    s.blk.flag CMP_STAT_SWPEND = true → s.blk.get CMP_STAT_TARGET = 0xE →
    ∃ t, exec .switchCommit s = .next t ∧ t.blk.get CMP_STAT_SEL = 0xF ∧ t.blk.flag CMP_STAT_SWPEND = false ∧
      t.blk.get CMP_STAT_STATE = (if s.blk.flag CMP_STAT_HVALID then 3 else 4) ∧ t.blk.flag CMP_CAUSE_COMMIT = true ∧
      u + 1000000 * nsUnit ≤ t.blk.tm.phys ∧ FrameOn cmpTouch cmpParts s t) ∧
  (∀ (s : State) (k : Fin 8), s.blk.synced = false → s.blk.cps.haltAt = none → s.blk.get CMP_STAT_STATE = 1 →
    s.blk.selected = some k.val → s.blk.inState k = 4 →
    ∃ t, exec .acquireTimeout s = .next t ∧ t.blk.inState k = 3 ∧ t.blk.get (CMP_IN_STAT_DCAUSE k) = 5 ∧
      s.blk.cps.acqAt + 60 * 10 ^ 9 * nsUnit ≤ t.blk.tm.phys ∧ FrameOn cmpTouch cmpParts s t) ∧
  (∀ (s : State) (u : Nat), s.blk.synced = false → s.blk.cps.haltAt = none → s.blk.cps.dwellAt = some u → s.blk.cps.bridge = false →
    (s.blk.get CMP_STAT_STATE = 1 ∧ s.blk.get CMP_STAT_STAGE = 0 ∨ s.blk.get CMP_STAT_STATE = 2 ∧ s.blk.get CMP_STAT_STAGE = 1 ∨
      s.blk.get CMP_STAT_STATE = 2 ∧ s.blk.get CMP_STAT_STAGE = 2 ∧ s.blk.flag TIC_STAT_WARM = true) →
    ∃ t, exec .stageAdvance s = .next t ∧ t.blk.get CMP_STAT_STATE = 2 ∧
      t.blk.get CMP_STAT_STAGE = s.blk.get CMP_STAT_STAGE + 1 ∧
      u + (if s.blk.get CMP_STAT_STAGE = 0 then 500000000 else if s.blk.get CMP_STAT_STAGE = 1 then 2000000000 else 20000000000) *
        nsUnit ≤ t.blk.tm.phys ∧ FrameOn cmpTouch cmpParts s t) ∧
  (∀ s : State, s.blk.synced = false → s.blk.cps.haltAt = none → s.blk.get CMP_STAT_STATE = 3 → s.blk.get CMP_HCFG_MAXT ≠ 0 →
    ∃ t, exec .holdoverTimeout s = .next t ∧ t.blk.get CMP_STAT_STATE = 4 ∧ t.blk.flag CMP_CAUSE_HOLDOUT = true ∧
      s.blk.cps.holdAt + s.blk.get CMP_HCFG_MAXT * 10 ^ 9 * nsUnit ≤ t.blk.tm.phys ∧ FrameOn cmpTouch cmpParts s t) ∧
  (∀ (s : State) (y : Int), s.blk.cps.stage3At ≠ none → s.blk.get CMP_STAT_STATE = 2 →
    meanOf ((s.blk.cps.hist.filter (fun p =>
      (s.blk.reachPhys (s.blk.cps.hourAt + 3600 * 10 ^ 9 * nsUnit)).nowSec ≤ p.1 + 3600)).map (·.2)) = some y →
    ∃ t, exec .frtrimUpdate s = .next t ∧ t.blk.get CMP_FRTRIM_TRIM = ofSigned 32 y ∧
      s.blk.cps.hourAt + 3600 * 10 ^ 9 * nsUnit ≤ t.blk.tm.phys ∧ Frame [CMP_FRTRIM_TRIM] [.tm, .cps] s t) ∧
  (∀ s : State, s.blk.synced = false → s.blk.cps.haltAt = none → s.blk.get CMP_STAT_STATE = 3 →
    ∃ t, exec .holdoverPredictionUpdate s = .next t ∧ t.blk.get CMP_OUTFREQ_FREQ = t.blk.get CMP_PRED_YPRED ∧
      t.blk.get CMP_HTIME_SEC = sat (2 ^ 32 - 1) (s.blk.get CMP_HTIME_SEC + 1) ∧ t.blk.tm.phys % (10 ^ 9 * nsUnit) = 0 ∧
      Frame [CMP_OUTFREQ_FREQ, CMP_PRED_YPRED, CMP_PRED_DRIFT, CMP_HTIME_SEC, CMP_STAT_HVALID, CMP_STAT_DVALID] [.tm, .cps] s t) ∧
  (∀ s : State, s.blk.synced = false → s.blk.cps.haltAt = none → s.blk.get CMP_STAT_STATE = 0 →
    ∃ t, exec .holdoverPredictionUpdate s = .next t ∧ t.blk.get CMP_OUTFREQ_FREQ = s.blk.get CMP_FRTRIM_TRIM ∧
      t.blk.get CMP_HTIME_SEC = s.blk.get CMP_HTIME_SEC ∧
      Frame [CMP_OUTFREQ_FREQ, CMP_PRED_YPRED, CMP_PRED_DRIFT, CMP_STAT_HVALID, CMP_STAT_DVALID] [.tm, .cps] s t)

/-! ### Pulse outputs and clocks -/

/-- R412 to R415: an output is enabled at its anchor, stopped after its pulse, aligned to the edges of its source and no longer, moved
by a written step, and makes its edges.
Choices and readings of the model: log entry 46. -/
def Obligations.PulseOutputs : Prop :=
  (∀ (s : State) (j : Fin 6) (d : Half), s.blk.hostFree = true → s.blk.synced = false → s.blk.flag (PIO_OUT_CTL_EN j) = false → d.getLsbD 0 = true →
    0 < s.blk.outPer j →
    ∃ t, exec (.outputEnable j d) s = .next t ∧ t.blk.flag (PIO_OUT_CTL_EN j) = true ∧ t.blk.flag (PIO_OUT_CTL_MODE j) = d.getLsbD 1 ∧
      (j.val ≠ 5 → t.blk.flag (PIO_OUT_CTL_TRACK j) = d.getLsbD 5) ∧ t.blk.flag (PIO_OUT_CTL_POL j) = d.getLsbD 6 ∧
      (∃ n, (t.blk.outp j).next = some n ∧
        (n - t.blk.outNow j + t.blk.tm.lt - unitsOf5ps (s.blk.geti (PIO_OUT_OFS_OFS j))) % s.blk.outPer j = 0 ∧
        t.blk.outNow j + 1000 * nsUnit ≤ n ∧ n < t.blk.outNow j + 1000 * nsUnit + s.blk.outPer j) ∧
      FrameOn (fun a => a == PIO_OUT_CTL j || a == PIO_OUT_STAT j || a == CLK_MAINSTAT) [.clk, .outs] s t) ∧
  (∀ (s : State) (j : Fin 6) (d : Half), s.blk.hostFree = true → s.blk.synced = false → s.blk.flag (PIO_OUT_CTL_EN j) = true → d.getLsbD 0 = false →
    ∃ t, exec (.outputEnable j d) s = .next t ∧ t.blk.flag (PIO_OUT_CTL_EN j) = false ∧
      t.blk.flag (PIO_OUT_CTL_MODE j) = s.blk.flag (PIO_OUT_CTL_MODE j) ∧ (t.blk.outp j).next = none ∧
      t.blk.flag (PIO_OUT_STAT_ALIGNED j) = false ∧
      (s.blk.pulseEnd j = none → t.blk.flag (PIO_OUT_STAT_RUN j) = false) ∧
      (s.blk.pulseEnd j ≠ none → t.blk.flag (PIO_OUT_STAT_RUN j) = s.blk.flag (PIO_OUT_STAT_RUN j)) ∧
      FrameOn (fun a => a == PIO_OUT_CTL j || a == PIO_OUT_STAT j || a == CLK_MAINSTAT) [.clk, .outs] s t) ∧
  (∀ (s : State) (src j : Fin 6) (dt : Nat),
    (1 ≤ src.val → src.val ≤ 4 → s.blk.get (ENC_CFG_MODE (src.val - 1)) = 2) → s.blk.flag (PIO_OUT_CTL_EN j) = true →
    s.blk.flag (PIO_OUT_CTL_MODE j) = true → s.blk.get (PIO_OUT_CTL_ASRC j) = src.val → 0 < s.blk.outPer j →
    ∃ t, exec (.alignAnchor src dt) s = .next t ∧ t.blk.flag (PIO_OUT_STAT_ALIGNED j) = true ∧
      (t.blk.outp j).anchorAt = some t.blk.tm.phys ∧
      (∃ n, (t.blk.outp j).next = some n ∧
        (n - t.blk.outNow j - unitsOf5ps (s.blk.geti (PIO_OUT_OFS_OFS j))) % s.blk.outPer j = 0) ∧
      FrameOn (fun a => within 0x90000 0x91000 a || a == CLK_MAINSTAT) [.tm, .clk, .outs] s t) ∧
  (∀ (s : State) (j : Fin 6) (u : Nat), (s.blk.outp j).anchorAt = some u → s.blk.flag (PIO_OUT_STAT_ALIGNED j) = true →
    ∃ t, exec (.alignLoss j) s = .next t ∧ t.blk.flag (PIO_OUT_STAT_ALIGNED j) = false ∧
      u + 2000000000 * nsUnit ≤ t.blk.tm.phys ∧
      FrameOn (fun a => a == PIO_OUT_STAT j || a == CLK_MAINSTAT) [.tm, .clk, .outs] s t) ∧
  (∀ (s : State) (j : Fin 6) (d : Half), s.blk.hostFree = true → s.blk.synced = false → d.getLsbD 41 = true → d.getLsbD 40 = false →
    s.blk.flag (PIO_OUT_STEP_PEND j) = false →
    ∃ t, exec (.outputStep j d) s = .next t ∧ t.blk.flag (PIO_OUT_STEP_PEND j) = false ∧
      t.blk.get (PIO_OUT_STEP_AMT j) = d.toNat % 2 ^ 40 ∧
      (s.blk.flag (PIO_OUT_CTL_MODE j) = true →
        t.blk.get (PIO_OUT_OFS_OFS j) = (s.blk.get (PIO_OUT_OFS_OFS j) + d.toNat) % 2 ^ 40) ∧
      (s.blk.flag (PIO_OUT_CTL_MODE j) = false → t.blk.get (PIO_OUT_OFS_OFS j) = s.blk.get (PIO_OUT_OFS_OFS j)) ∧
      FrameOn (fun a => within 0x90000 0x91000 a || a == CLK_MAINSTAT) [.clk, .outs] s t) ∧
  (∀ (s : State) (j : Fin 6) (d : Half), s.blk.hostFree = true → s.blk.synced = false → d.getLsbD 41 = true →
    (d.getLsbD 40 = true ∨ s.blk.flag (PIO_OUT_STEP_PEND j) = true) →
    ∃ t, exec (.outputStep j d) s = .next t ∧ t.blk.flag (PIO_OUT_STEP_PEND j) = true ∧
      t.blk.get (PIO_OUT_OFS_OFS j) = s.blk.get (PIO_OUT_OFS_OFS j) ∧
      FrameOn (fun a => within 0x90000 0x91000 a || a == CLK_MAINSTAT) [.clk, .outs] s t) ∧
  (∀ (s : State) (j : Fin 6), s.blk.hostFree = true → s.blk.synced = false → ∃ t, exec (.outputDropClr j) s = .next t ∧
    t.blk.get (PIO_OUT_STAT_DROP j) = 0 ∧ Frame [PIO_OUT_STAT_DROP j] [] s t) ∧
  (∀ (s : State) (j : Fin 6) (n : Int), (s.blk.outp j).next = some n → (s.blk.outp j).ending = false → s.blk.clk.res = 0 →
    s.blk.flag (PIO_OUT_CTL_TRACK j) = false → 0 < s.blk.outPer j → (∀ i : Fin 6, s.blk.flag (PIO_OUT_STEP_PEND i) = false) →
    ∃ t, exec (.pulseOutputEdge j) s = .next t ∧ t.blk.flag (PIO_OUT_STAT_RUN j) = true ∧ n ≤ t.blk.tm.phys ∧
      (t.blk.outp j).next = some (n + s.blk.outPer j) ∧ (t.blk.outp j).last = some (t.blk.outNow j) ∧
      t.blk.out = Out.pulse j (!(s.blk.flag (PIO_OUT_CTL_POL j))) (s.blk.get (PIO_OUT_WID_WID j)) :: s.blk.out ∧
      FrameOn (fun a => a == PIO_OUT_STAT j || a == CLK_MAINSTAT) [.tm, .clk, .outs, .out] s t) ∧
  (∀ (s : State) (n : Int), (s.blk.outp 4).next = some n → (s.blk.outp 4).ending = false →
    ∃ t, exec (.pulseOutputEdge 4) s = .next t ∧ (∀ i : Fin 6, t.blk.flag (PIO_OUT_STEP_PEND i) = false) ∧
      t.blk.out = Out.pulse 4 (!(s.blk.flag (PIO_OUT_CTL_POL 4))) (s.blk.get (PIO_OUT_WID_WID 4)) :: s.blk.out ∧
      FrameOn (fun a => within 0x90000 0x91000 a || a == CLK_MAINSTAT) [.tm, .clk, .outs, .out] s t)

/-- R427, R430 to R440: a PLL selects its band, locks, releases its outputs, holds and recovers; the main PLL relocks and ends its
slew; outputs are monitored, started and stopped.
Choices and readings of the model: log entries 11 and 45. -/
def Obligations.ClockTree : Prop :=
  (∀ (s : State) (p : Fin 3) (temp : Int) (dt : Nat) (k : Fin 16), s.blk.pllState p = 1 → (s.blk.pll p).noband = false →
    s.blk.bandOk p temp k = true → (∀ i < k.val, s.blk.bandOk p temp i = false) →
    ∃ t, exec (.bandSelect p temp dt) s = .next t ∧ t.blk.pllState p = 2 ∧ t.blk.get (pllField p 3 4) = k.val ∧
      t.blk.get (pllField p 7 6) = s.blk.get (CLK_BAND_CODE p k) ∧
      Frame [pllField p 0 3, pllField p 3 4, pllField p 7 6] [.tm, .clk] s t) ∧
  (∀ (s : State) (p : Fin 3) (temp : Int) (dt : Nat), s.blk.pllState p = 1 → (s.blk.pll p).noband = false →
    (∀ i < 16, s.blk.bandOk p temp i = false) →
    ∃ t, exec (.bandSelect p temp dt) s = .next t ∧ t.blk.pllState p = 1 ∧ t.blk.flag CLK_CAUSE_NOBAND = true ∧
      t.blk.get CLK_CAUSE_PLL = p.val ∧ (t.blk.pll p).noband = true ∧
      Frame [CLK_CAUSE_NOBAND, CLK_CAUSE_PLL, EVT_PEND_PEND, EVT_OVR_OVR] [.tm, .clk, .host, .out] s t) ∧
  (∀ (s : State) (p : Fin 3), (s.blk.pll p).noband = true → s.blk.pllState p = 1 →
    ∃ t, exec (.nobandRetry p) s = .next t ∧ t.blk.pllState p = 1 ∧ (t.blk.pll p).noband = false ∧ (t.blk.pll p).failed = 0 ∧
      (s.blk.pll p).since + 1000000 * nsUnit ≤ t.blk.tm.phys ∧ Frame [pllField p 0 3] [.tm, .clk] s t) ∧
  (∀ (s : State) (p : Fin 3) (dt : Nat), s.blk.pllState p = 2 →
    ∃ t, exec (.pllLockAchieved p dt) s = .next t ∧ t.blk.pllState p = 3 ∧ Frame [pllField p 0 3] [.tm, .clk] s t) ∧
  (∀ (s : State) (p : Fin 3), s.blk.pllState p = 2 →
    ∃ t, exec (.pllLockTimeout p) s = .next t ∧ t.blk.pllState p = 1 ∧
      (t.blk.pll p).failed = (s.blk.pll p).failed ||| BitVec.ofNat 16 (2 ^ s.blk.get (pllField p 3 4)) ∧
      (s.blk.pll p).since + 180000 * nsUnit ≤ t.blk.tm.phys ∧ Frame [pllField p 0 3] [.tm, .clk] s t) ∧
  (∀ (s : State) (p : Fin 3) (trim : BitVec 8) (dt : Nat), s.blk.pllState p = 3 →
    ∃ t, exec (.alignRelease p trim dt) s = .next t ∧ t.blk.pllState p = 4 ∧ t.blk.flag CLK_CAUSE_RELOCKED = true ∧
      t.blk.get CLK_CAUSE_PLL = p.val ∧ (∀ i ∈ pllOuts p, bitAt (s.blk.get CLK_OUTEN_EN) i = true → bitAt (t.blk.get CLK_OUTSTAT_RUN) i = true) ∧
      (∀ i < 11, i ∉ pllOuts p → bitAt (t.blk.get CLK_OUTSTAT_RUN) i = bitAt (s.blk.get CLK_OUTSTAT_RUN) i) ∧
      (p.val = 0 → t.blk.get CLK_MAINSTAT_TRIM = trim.toNat) ∧
      FrameF [pllField p 0 3, CLK_MAINSTAT_TRIM, CLK_OUTSTAT_RUN, CLK_CAUSE_RELOCKED, CLK_CAUSE_PLL, ENC_STAT_LINE 0, ENC_STAT_LINE 1,
        ENC_STAT_LINE 2, ENC_STAT_LINE 3] [.tm, .clk, .encs] s t) ∧
  (∀ (s : State) (p : Fin 3) (dt : Nat), s.blk.pllState p = 4 →
    ∃ t, exec (.pllRefloss p dt) s = .next t ∧ t.blk.pllState p = 5 ∧ t.blk.flag CLK_CAUSE_REFLOSS = true ∧
      (p.val ≠ 0 ∨ s.blk.pllState 1 ≠ 4 → t.blk.get CLK_CAUSE_PLL = p.val) ∧
      t.blk.get (pllField p 23 8) = sat 255 (s.blk.get (pllField p 23 8) + 1) ∧
      (p.val = 0 → t.blk.cps.haltAt = some t.blk.tm.phys) ∧
      (p.val = 0 → s.blk.pllState 1 = 4 → t.blk.get CLK_CAUSE_PLL = 1 ∧
        t.blk.get (pllField 1 23 8) = sat 255 (s.blk.get (pllField 1 23 8) + 1)) ∧
      (p.val = 1 ∨ p.val = 0 ∧ s.blk.pllState 1 = 4 → t.blk.pllState 1 = 5 ∧ t.blk.flag TIC_CAUSE_REF = true ∧
        (s.blk.cal.queue = [] → ∀ q, s.blk.cal.run = some q → q.kind ≤ 1 →
          t.blk.cal.run = none ∧ t.blk.flag CAL_CAUSE_FAIL = true ∧ t.blk.get CAL_CAUSE_CODE = 5)) ∧
      (s.blk.cal.run = none →
        Frame [pllField p 0 3, pllField p 23 8, pllField 1 0 3, pllField 1 23 8, CLK_MAINSTAT_SLEWING, CLK_MAINSTAT_SRES,
          CLK_CAUSE_REFLOSS, CLK_CAUSE_PLL, TIC_CAUSE_REF, EVT_PEND_PEND, EVT_OVR_OVR] [.tm, .clk, .cps, .outs, .host, .out] s t) ∧
      (p.val = 2 → Frame [pllField 2 0 3, pllField 2 23 8, CLK_CAUSE_REFLOSS, CLK_CAUSE_PLL, EVT_PEND_PEND, EVT_OVR_OVR]
        [.tm, .clk, .host, .out] s t) ∧
      FrameOn (fun a => a == (pllField p 0 3).addr || a == (pllField 1 0 3).addr || a == CLK_CAUSE || a == TIC_CAUSE || a == PWR_STAT ||
          within 0x70000 0x80000 a || evTouch a) [.tm, .clk, .cal, .cps, .outs, .host, .out] s t) ∧
  (∀ (s : State) (p : Fin 3) (dt : Nat), s.blk.pllState p = 4 →
    ∃ t, exec (.pllUnlock p dt) s = .next t ∧ t.blk.pllState p = 5 ∧ t.blk.flag CLK_CAUSE_UNLOCK = true ∧
      t.blk.get CLK_CAUSE_PLL = p.val ∧ t.blk.get (pllField p 23 8) = sat 255 (s.blk.get (pllField p 23 8) + 1) ∧
      (p.val = 1 → s.blk.cal.queue = [] → ∀ q, s.blk.cal.run = some q → q.kind ≤ 1 →
        t.blk.cal.run = none ∧ t.blk.flag CAL_CAUSE_FAIL = true ∧ t.blk.get CAL_CAUSE_CODE = 5) ∧
      (s.blk.cal.run = none ∨ p.val ≠ 1 →
        Frame [pllField p 0 3, pllField p 23 8, CLK_MAINSTAT_SLEWING, CLK_MAINSTAT_SRES, CLK_CAUSE_UNLOCK, CLK_CAUSE_PLL, TIC_CAUSE_REF,
          EVT_PEND_PEND, EVT_OVR_OVR] [.tm, .clk, .outs, .host, .out] s t) ∧
      FrameOn (fun a => a == (pllField p 0 3).addr || a == CLK_CAUSE || a == TIC_CAUSE || a == PWR_STAT || within 0x70000 0x80000 a ||
          evTouch a) [.tm, .clk, .cal, .outs, .host, .out] s t) ∧
  (∀ s : State, s.blk.hostFree = true → s.blk.pllState 0 = 4 → ∃ t, exec .pllRelock s = .next t ∧ t.blk.pllState 0 = 5 ∧ (t.blk.pll 0).why = 2 ∧
    Frame [CLK_MAINSTAT_STATE, CLK_MAINSTAT_ULCNT, CLK_MAINSTAT_SLEWING, CLK_MAINSTAT_SRES] [.clk, .outs] s t) ∧
  (∀ s : State, s.blk.hostFree = true → s.blk.pllState 0 ≠ 4 → ∃ t, exec .pllRelock s = .next t ∧ Frame [] [] s t) ∧
  (∀ s : State, s.blk.hostFree = true → s.blk.fullAllowed = true → ∃ t, exec .fullRelock s = .next t ∧ t.blk.pllState 0 = 1 ∧
    t.blk.flag CLK_MAINSTAT_REFUSED = false ∧ (∀ i < 8, bitAt (t.blk.get CLK_OUTSTAT_RUN) i = false) ∧ (t.blk.pll 0).failed = 0 ∧
    (bitAt (s.blk.get CLK_OUTSTAT_RUN) 5 = true → ∀ j : Fin 6, (t.blk.outp j).next = none ∧ t.blk.flag (PIO_OUT_STAT_RUN j) = false) ∧
    FrameOn (fun a => a == CLK_MAINSTAT || a == CLK_OUTSTAT || within 0x90000 0x91000 a || (List.range 4).any (fun e => a == ENC_STAT e) ||
        galTouch a) [.clk, .outs, .encs, .trc, .host, .out] s t) ∧
  (∀ s : State, s.blk.hostFree = true → s.blk.fullAllowed = false → ∃ t, exec .fullRelock s = .next t ∧ t.blk.flag CLK_MAINSTAT_REFUSED = true ∧
    Frame [CLK_MAINSTAT_REFUSED] [] s t) ∧
  (∀ (s : State) (p : Fin 3) (g : Int) (dt : Nat), s.blk.pllState p = 5 →
    ∃ t, exec (.holdRecover p g dt) s = .next t ∧ t.blk.pllState p = 4 ∧ (p.val = 0 → t.blk.cps.haltAt = none) ∧
      (p.val = 0 → t.blk.clk.res = s.blk.clk.res + g) ∧ (p.val ≠ 0 → t.blk.outs = s.blk.outs) ∧
      Frame [pllField p 0 3, CLK_MAINSTAT_SLEWING, CLK_MAINSTAT_SRES] [.tm, .clk, .cps, .outs] s t) ∧
  (∀ s : State, s.blk.clk.res = 0 ∨ s.blk.mainHeld = true → ∃ t, exec .pllSlewEnd s = .next t ∧ Frame [] [] s t) ∧
  (∀ s : State, s.blk.clk.res ≠ 0 → s.blk.mainHeld = false → ∃ t, exec .pllSlewEnd s = .next t ∧ t.blk.clk.res = 0 ∧ t.blk.flag CLK_MAINSTAT_SLEWING = false ∧
    t.blk.get CLK_MAINSTAT_SRES = 0 ∧ Frame [CLK_MAINSTAT_SLEWING, CLK_MAINSTAT_SRES] [.tm, .clk, .outs] s t) ∧
  (∀ (s : State) (bad : BitVec 11), ∃ t, exec (.clockMonitor bad) s = .next t ∧
    (∀ i < 11, bitAt (t.blk.get CLK_MON_FAIL) i =
      (bitAt (s.blk.get CLK_MON_FAIL) i || bad.getLsbD i && bitAt (s.blk.get CLK_OUTSTAT_RUN) i)) ∧
    (∀ i < 11, bad.getLsbD i = true → bitAt (s.blk.get CLK_OUTSTAT_RUN) i = true → t.blk.flag CLK_CAUSE_DOMFREQ = true) ∧
    t.blk.tm.phys % (10240 * nsUnit) = 0 ∧
    Frame [CLK_MON_FAIL, CLK_CAUSE_DOMFREQ, CLK_CAUSE_DOM, CLK_CAUSE_PLL, EVT_PEND_PEND, EVT_OVR_OVR] [.tm, .host, .out] s t) ∧
  (∀ (s : State) (d : Half), s.blk.hostFree = true → s.blk.coreOk = true →
    ∃ t, exec (.clkOutenWrite d) s = .next t ∧
      (∀ i < 11, bitAt (t.blk.get CLK_OUTEN_EN) i =
        (d.getLsbD i || !s.blk.mayStop i && s.blk.domOn (outDomain i) && bitAt (s.blk.get CLK_OUTEN_EN) i)) ∧
      (d.getLsbD 5 = false → bitAt (s.blk.get CLK_OUTEN_EN) 5 = true → bitAt (s.blk.get CLK_OUTSTAT_RUN) 5 = true →
        bitAt (t.blk.get CLK_OUTSTAT_RUN) 5 = false ∧ ∀ j : Fin 6, (t.blk.outp j).next = none) ∧
      (d.getLsbD 10 = false → bitAt (s.blk.get CLK_OUTEN_EN) 10 = true → bitAt (s.blk.get CLK_OUTSTAT_RUN) 10 = true →
        s.blk.flag (MAC_STAT_LINK 32) = true → t.blk.flag (MAC_STAT_LINK 32) = false) ∧
      (∀ i < 11, d.getLsbD i = true → 4 ≤ s.blk.pllState (pllOf i) → s.blk.pllState (pllOf i) ≤ 5 →
        bitAt (t.blk.get CLK_OUTSTAT_RUN) i = true) ∧
      FrameOn (fun a => coreTouch a || a == CLK_OUTEN || a == CLK_OUTSTAT || within 0x90000 0x91000 a ||
        (List.range 4).any (fun e => a == ENC_STAT e)) [.outs, .encs, .sw, .macs, .trc, .host, .out] s t) ∧
  (∀ (s : State) (p : Fin 3) (tune : BitVec 10) (dt : Nat), s.blk.pllState p = 4 → (tune.toNat ≤ 32 ∨ 991 ≤ tune.toNat) →
    ∃ t, exec (.pllTuneRail p tune dt) s = .next t ∧ t.blk.pllState p = 4 ∧ t.blk.flag CLK_CAUSE_RAIL = true ∧
      t.blk.get (pllField p 13 10) = tune.toNat ∧ t.blk.get CLK_CAUSE_PLL = p.val ∧
      Frame [pllField p 13 10, CLK_CAUSE_RAIL, CLK_CAUSE_PLL, EVT_PEND_PEND, EVT_OVR_OVR] [.tm, .host, .out] s t)

/-! ### Time measurement -/

/-- R449 to R453, R458: the measurement unit is armed, starts, takes stops, ends by count, by timeout, by a write of EN = 0 or by
loss of its reference, and its records queue up and are removed.
Choices and readings of the model: log entries 47 and 72. -/
def Obligations.TimeMeasurement : Prop :=
  (∀ (s : State) (d : Half), s.blk.hostFree = true → d.getLsbD 0 = true → d.getLsbD 1 = true →
    s.blk.flag TIC_STAT_BUSY = false → d.toNat / 8 % 16 < 11 → 1 ≤ d.toNat / 2 ^ 20 % 16 → d.toNat / 2 ^ 20 % 16 ≤ 8 →
    1 ≤ d.toNat / 2 ^ 24 % 2 ^ 14 → d.toNat / 2 ^ 24 % 2 ^ 14 ≤ 10000 →
    ∃ t, exec (.ticArm d) s = .next t ∧ t.blk.flag TIC_STAT_BUSY = true ∧ t.blk.flag TIC_STAT_RUNNING = false ∧
      t.blk.flag TIC_CTL_EN = true ∧ t.blk.flag TIC_CTL_REPEAT = d.getLsbD 2 ∧ t.blk.get TIC_CTL_SSRC = d.toNat / 8 % 16 ∧
      t.blk.flag TIC_CTL_SFALL = d.getLsbD 7 ∧ t.blk.get TIC_CTL_STOPS = d.toNat / 2 ^ 8 % 2 ^ 11 ∧
      t.blk.flag TIC_CTL_PFALL = d.getLsbD 19 ∧ t.blk.get TIC_CTL_NSTOP = d.toNat / 2 ^ 20 % 16 ∧
      t.blk.get TIC_CTL_TMO = d.toNat / 2 ^ 24 % 2 ^ 14 ∧ t.blk.tic.start = none ∧ t.blk.tic.queue = s.blk.tic.queue ∧
      Frame [TIC_CTL_EN, TIC_CTL_REPEAT, TIC_CTL_SSRC, TIC_CTL_SFALL, TIC_CTL_STOPS, TIC_CTL_PFALL, TIC_CTL_NSTOP, TIC_CTL_TMO,
        TIC_STAT_BUSY, TIC_STAT_RUNNING] [.tic] s t) ∧
  (∀ (s : State) (d : Half), s.blk.hostFree = true → d.getLsbD 0 = true → s.blk.flag TIC_STAT_BUSY = true →
    ∃ t, exec (.ticArm d) s = .next t ∧ t.blk.flag TIC_CTL_EN = true ∧ Frame [TIC_CTL_EN] [] s t) ∧
  (∀ (s : State) (d : Half), s.blk.hostFree = true → d.getLsbD 0 = true → d.getLsbD 1 = true → d.getLsbD 2 = false →
    s.blk.flag TIC_STAT_BUSY = false → d.toNat / 8 % 16 = 11 → before s.blk.stw (s.blk.reg TIC_ARMAT) = false → s.blk.pllState 1 ≠ 5 →
    ∃ t, exec (.ticArm d) s = .next t ∧ t.blk.flag TIC_STAT_BUSY = true ∧ t.blk.flag TIC_STAT_RUNNING = true ∧
      t.blk.tic.start = some (s.blk.ocxoOfStw s.blk.stw) ∧ t.blk.tic.startW = s.blk.stw ∧ t.blk.tic.startAt = s.blk.tm.phys ∧
      FrameOn (fun a => a == TIC_CTL || a == TIC_STAT) [.tic] s t) ∧
  (∀ (s : State) (d : Half), s.blk.hostFree = true → d.getLsbD 0 = true → d.getLsbD 2 = true → d.toNat / 8 % 16 = 11 →
    ∃ t, exec (.ticArm d) s = .next t ∧ t.blk.flag TIC_CTL_EN = true ∧ t.blk.get TIC_CTL_SSRC = s.blk.get TIC_CTL_SSRC ∧
      t.blk.flag TIC_CTL_REPEAT = s.blk.flag TIC_CTL_REPEAT ∧
      FrameOn (fun a => a == TIC_CTL || within 0x60020 0x60100 a || evTouch a) [.tic, .host, .out] s t) ∧
  (∀ (s : State) (src : Fin 11) (f : Bool) (n : BitVec 48) (c : BitVec 12) (dt : Nat), s.blk.get TIC_CTL_SSRC = src.val →
    s.blk.flag TIC_CTL_SFALL = f → s.blk.flag TIC_STAT_BUSY = true → s.blk.tic.start = none → s.blk.tic.held = none →
    s.blk.tic.rearm = false → s.blk.pllState 1 ≠ 5 →
    ∃ t, exec (.ticStartEdge (src.castSucc) f n c dt) s = .next t ∧ t.blk.flag TIC_STAT_RUNNING = true ∧
      t.blk.tic.start = some (s.blk.edgeTime n c - s.blk.geti (TIC_CHOFS_OFS src) * 2 ^ 20) ∧
      t.blk.tic.startW = (s.blk.advanceNs dt).stwOfOcxo (s.blk.edgeTime n c - s.blk.geti (TIC_CHOFS_OFS src) * 2 ^ 20) ∧
      t.blk.tic.cold = !(s.blk.flag TIC_STAT_WARM) ∧ t.blk.tic.stops = [] ∧ Frame [TIC_STAT_RUNNING] [.tm, .tic] s t) ∧
  (∀ (s : State) (f : Bool) (n : BitVec 48) (c : BitVec 12) (dt : Nat), s.blk.get TIC_CTL_SSRC = 11 →
    s.blk.flag TIC_STAT_BUSY = true → s.blk.tic.start = none → s.blk.tic.held = none → s.blk.tic.rearm = false → s.blk.pllState 1 ≠ 5 →
    ∃ t, exec (.ticStartEdge 11 f n c dt) s = .next t ∧ t.blk.flag TIC_STAT_RUNNING = true ∧
      t.blk.tic.start = some (t.blk.ocxoOfStw (s.blk.reg TIC_ARMAT)) ∧ t.blk.tic.startW = s.blk.reg TIC_ARMAT ∧ t.blk.tic.stops = [] ∧
      Frame [TIC_STAT_RUNNING] [.tm, .tic] s t) ∧
  (∀ (s : State) (src : Fin 12) (f : Bool) (n : BitVec 48) (c : BitVec 12) (dt : Nat), s.blk.get TIC_CTL_SSRC = src.val →
    (src.val = 11 ∨ s.blk.flag TIC_CTL_SFALL = f) → s.blk.tic.rearm = true →
    ∃ t, exec (.ticStartEdge src f n c dt) s = .next t ∧
      t.blk.get TIC_STAT_MISSED = min 255 (s.blk.get TIC_STAT_MISSED + 1) ∧ Frame [TIC_STAT_MISSED] [.tm] s t) ∧
  (∀ (s : State) (src : Fin 11) (f : Bool) (n : BitVec 48) (c : BitVec 12) (dt : Nat) (t0 : Int), s.blk.tic.start = some t0 →
    bitAt (s.blk.get TIC_CTL_STOPS) src = true → s.blk.flag TIC_CTL_PFALL = f →
    ocxoDiff (s.blk.edgeTime n c - s.blk.geti (TIC_CHOFS_OFS src) * 2 ^ 20) s.blk.tic.prev < 5000 * 2 ^ 20 →
    ∃ t, exec (.ticStopEdge src f n c dt) s = .next t ∧ t.blk.get TIC_STAT_CLOSE = min 255 (s.blk.get TIC_STAT_CLOSE + 1) ∧
      Frame [TIC_STAT_CLOSE] [.tm] s t) ∧
  (∀ (s : State) (src : Fin 11) (f : Bool) (n : BitVec 48) (c : BitVec 12) (dt : Nat) (t0 : Int), s.blk.tic.start = some t0 →
    bitAt (s.blk.get TIC_CTL_STOPS) src = true → s.blk.flag TIC_CTL_PFALL = f → s.blk.pllState 1 ≠ 5 →
    5000 * 2 ^ 20 ≤ ocxoDiff (s.blk.edgeTime n c - s.blk.geti (TIC_CHOFS_OFS src) * 2 ^ 20) s.blk.tic.prev →
    s.blk.tic.stops.length + 1 < s.blk.get TIC_CTL_NSTOP →
    ∃ t, exec (.ticStopEdge src f n c dt) s = .next t ∧ t.blk.tic.start = some t0 ∧
      t.blk.tic.stops = s.blk.tic.stops ++
        [(src.val, ocxoDiff (s.blk.edgeTime n c - s.blk.geti (TIC_CHOFS_OFS src) * 2 ^ 20) t0)] ∧
      Frame [] [.tm, .tic] s t) ∧
  (∀ (s : State) (src : Fin 11) (f : Bool) (n : BitVec 48) (c : BitVec 12) (dt : Nat) (t0 : Int), s.blk.tic.start = some t0 →
    bitAt (s.blk.get TIC_CTL_STOPS) src = true → s.blk.flag TIC_CTL_PFALL = f → s.blk.pllState 1 ≠ 5 →
    5000 * 2 ^ 20 ≤ ocxoDiff (s.blk.edgeTime n c - s.blk.geti (TIC_CHOFS_OFS src) * 2 ^ 20) s.blk.tic.prev →
    s.blk.tic.stops.length + 1 = s.blk.get TIC_CTL_NSTOP → s.blk.tic.queue.length < 4 →
    ∃ t, exec (.ticStopEdge src f n c dt) s = .next t ∧
      t.blk.tic.queue = s.blk.tic.queue ++ [{
        status := 0, cold := s.blk.tic.cold, seq := s.blk.tic.seq, start := s.blk.tic.startW
        srcs := s.blk.tic.stops.map (·.1) ++ [src.val]
        ints := (s.blk.tic.stops.map (·.2) ++
          [ocxoDiff (s.blk.edgeTime n c - s.blk.geti (TIC_CHOFS_OFS src) * 2 ^ 20) t0]).map intervalOut }] ∧
      t.blk.tic.start = none ∧ t.blk.flag TIC_CAUSE_DONE = true ∧ t.blk.get TIC_STAT_RCNT = s.blk.tic.queue.length + 1 ∧
      (s.blk.flag TIC_CTL_REPEAT && s.blk.flag TIC_CTL_EN && decide (s.blk.tic.queue.length < 3)) = t.blk.flag TIC_STAT_BUSY ∧
      t.blk.tic.rearm = ((s.blk.flag TIC_CTL_REPEAT && s.blk.flag TIC_CTL_EN &&
        decide (s.blk.tic.queue.length = 3)) || (s.blk.tic.rearm && !t.blk.flag TIC_STAT_BUSY)) ∧
      FrameOn (fun a => within 0x60020 0x60100 a || evTouch a) [.tm, .tic, .host, .out] s t) ∧
  (∀ (s : State) (t0 : Int), s.blk.tic.start = some t0 →
    ∃ t, exec .ticTimeout s = .next t ∧ s.blk.tic.startAt + s.blk.get TIC_CTL_TMO * 1000000 * nsUnit ≤ t.blk.tm.phys ∧
      t.blk.tic.start = none ∧
      (s.blk.tic.queue.length < 4 → t.blk.flag TIC_CAUSE_DONE = true ∧
        t.blk.tic.queue = s.blk.tic.queue ++ [{
          status := 1, cold := s.blk.tic.cold, seq := s.blk.tic.seq, start := s.blk.tic.startW, srcs := s.blk.tic.stops.map (·.1)
          ints := s.blk.tic.stops.map (fun x => intervalOut x.2) }]) ∧
      (4 ≤ s.blk.tic.queue.length → t.blk.tic.queue = s.blk.tic.queue ∧ Frame [] [.tm, .tic] s t) ∧
      FrameOn (fun a => within 0x60020 0x60100 a || evTouch a) [.tm, .tic, .host, .out] s t) ∧
  (∀ (s : State) (src : Fin 11) (f : Bool) (n : BitVec 48) (c : BitVec 12) (dt : Nat) (t0 : Int), s.blk.tic.start = some t0 →
    bitAt (s.blk.get TIC_CTL_STOPS) src = true → s.blk.flag TIC_CTL_PFALL = f → s.blk.pllState 1 = 5 →
    5000 * 2 ^ 20 ≤ ocxoDiff (s.blk.edgeTime n c - s.blk.geti (TIC_CHOFS_OFS src) * 2 ^ 20) s.blk.tic.prev →
    s.blk.tic.queue.length < 4 →
    ∃ t, exec (.ticStopEdge src f n c dt) s = .next t ∧ t.blk.tic.start = none ∧ t.blk.flag TIC_CAUSE_DONE = true ∧
      t.blk.tic.queue = s.blk.tic.queue ++ [{
        status := 3, cold := s.blk.tic.cold, seq := s.blk.tic.seq, start := s.blk.tic.startW, srcs := [], ints := [] }] ∧
      FrameOn (fun a => within 0x60020 0x60100 a || evTouch a) [.tm, .tic, .host, .out] s t) ∧
  (∀ (s : State), s.blk.hostFree = true → s.blk.flag TIC_CTL_EN = true → s.blk.tic.start = none → s.blk.tic.held = none →
    ∃ t, exec .ticDisable s = .next t ∧ t.blk.flag TIC_CTL_EN = false ∧ t.blk.flag TIC_STAT_BUSY = false ∧
      t.blk.tic.queue = s.blk.tic.queue ∧ t.blk.tic.rearm = false ∧
      Frame [TIC_CTL_EN, TIC_STAT_BUSY, TIC_STAT_RUNNING] [.tic] s t) ∧
  (∀ (s : State) (t0 : Int), s.blk.hostFree = true → s.blk.flag TIC_CTL_EN = true → s.blk.tic.start = some t0 → s.blk.tic.queue.length < 4 →
    ∃ t, exec .ticDisable s = .next t ∧ t.blk.flag TIC_CTL_EN = false ∧ t.blk.flag TIC_STAT_BUSY = false ∧
      t.blk.flag TIC_CAUSE_DONE = true ∧ t.blk.tic.start = none ∧
      t.blk.tic.queue = s.blk.tic.queue ++ [{
        status := 2, cold := s.blk.tic.cold, seq := s.blk.tic.seq, start := s.blk.tic.startW, srcs := [], ints := [] }] ∧
      FrameOn (fun a => a == TIC_CTL || within 0x60020 0x60100 a || evTouch a) [.tic, .host, .out] s t) ∧
  (∀ (s : State) (r0 r : TicRec) (l : List TicRec), s.blk.hostFree = true → s.blk.tic.queue = r0 :: r :: l → l.length ≤ 2 → s.blk.tic.held = none →
    s.blk.tic.rearm = false → r.status < 8 → r.srcs.length ≤ 8 → r.ints.length ≤ 8 → (∀ x ∈ r.srcs, x < 16) → (∀ x ∈ r.ints, x < 2 ^ 50) →
    ∃ t, exec .ticPop s = .next t ∧ t.blk.tic.queue = r :: l ∧ t.blk.get TIC_STAT_RCNT = l.length + 1 ∧
      t.blk.flag TIC_RHDR_PRESENT = true ∧ t.blk.flag TIC_RHDR_VALID = decide (r.status ≤ 1) ∧ t.blk.get TIC_RHDR_STATUS = r.status ∧
      t.blk.get TIC_RHDR_NGOT = r.srcs.length ∧ t.blk.flag TIC_RHDR_COLD = r.cold ∧ t.blk.reg TIC_RSTART = r.start ∧
      (∀ k < 8, t.blk.get (TIC_RSTOP_INT k) = r.ints[k]?.getD 0) ∧
      (∀ k < 8, t.blk.get ⟨TIC_RHDR, 32 + 4 * k, 4⟩ = r.srcs[k]?.getD 0) ∧
      FrameOn (fun a => within 0x60020 0x60100 a) [.tic] s t) ∧
  (∀ (s : State) (r0 : TicRec), s.blk.hostFree = true → s.blk.tic.queue = [r0] → s.blk.tic.held = none → s.blk.tic.rearm = false →
    ∃ t, exec .ticPop s = .next t ∧ t.blk.tic.queue = [] ∧ t.blk.get TIC_STAT_RCNT = 0 ∧ t.blk.flag TIC_RHDR_PRESENT = false ∧
      (∀ k < 8, t.blk.get (TIC_RSTOP_INT k) = 0) ∧ FrameOn (fun a => within 0x60020 0x60100 a) [.tic] s t) ∧
  (∀ (s : State) (r0 r1 r2 r3 r : TicRec), s.blk.hostFree = true → s.blk.tic.queue = [r0, r1, r2, r3] → s.blk.tic.held = some r → s.blk.tic.rearm = false →
    ∃ t, exec .ticPop s = .next t ∧ t.blk.tic.queue = [r1, r2, r3, { r with seq := s.blk.tic.seq }] ∧ t.blk.tic.held = none ∧
      t.blk.flag TIC_CAUSE_DONE = true ∧ t.blk.flag TIC_STAT_BUSY = false ∧ t.blk.get TIC_STAT_RCNT = 4 ∧
      FrameOn (fun a => within 0x60020 0x60100 a || evTouch a) [.tic, .host, .out] s t) ∧
  (∀ (s : State), s.blk.hostFree = true → ∃ t, exec .ticStatClr s = .next t ∧ t.blk.get TIC_STAT_MISSED = 0 ∧ t.blk.get TIC_STAT_CLOSE = 0 ∧
      Frame [TIC_STAT_MISSED, TIC_STAT_CLOSE] [] s t) ∧
  (∀ (s : State) (w : Bool) (dt : Nat), s.blk.flag TIC_STAT_WARM ≠ w →
    ∃ t, exec (.ocxoWarmChange w dt) s = .next t ∧ t.blk.flag TIC_STAT_WARM = w ∧ t.blk.flag TIC_CAUSE_WARMCHG = true ∧
      (w = true → t.blk.get TIC_OCXO_WSEC = (s.blk.tm.phys + dt * nsUnit - s.blk.tic.ovenAt) / (10 ^ 9 * nsUnit) % 2 ^ 16) ∧
      (w = false → t.blk.reg TIC_OCXO = s.blk.reg TIC_OCXO) ∧
      FrameOn (fun a => within 0x60020 0x60050 a || evTouch a) [.tm, .cps, .host, .out] s t)

/-! ### Calibration and self-test -/

/-- R459 to R470: jobs are queued, refused and run one at a time; a spare that passes is swapped in, one that fails twice is BAD;
EN = 0 aborts; a slice that does not empty times out; and BIST runs in MAINT alone.
Choices and readings of the model: log entries 48 and 77. -/
def Obligations.Calibration : Prop :=
  (∀ (s : State) (d : Half) (j : CalJob) (e : Nat), s.blk.hostFree = true → d.getLsbD 10 = true → d.toNat % 16 = j.kind → d.toNat / 16 % 64 = j.unit →
    unitOk j = true → s.blk.testOk j = true → s.blk.flag CAL_CTL_EN = true → s.blk.cal.run = none → s.blk.cal.queue = [] →
    s.blk.spareOf j = some e → s.blk.swapWaits j = false → s.blk.sliceWaits j = false →
    ∃ t, exec (.calRequest d) s = .next t ∧ t.blk.cal.run = some j ∧ t.blk.cal.elem = e ∧ t.blk.cal.queue = [] ∧
      t.blk.flag CAL_STAT_BUSY = true ∧ t.blk.get CAL_STAT_KIND = j.kind ∧ t.blk.get CAL_STAT_UNIT = j.unit ∧
      t.blk.get CAL_STAT_SLOTS = 0 ∧ t.blk.get CAL_REQ_KIND = j.kind ∧ t.blk.get CAL_REQ_UNIT = j.unit ∧
      (j.kind = 3 → s.blk.profile = 3 → 2 ≤ j.unit → bitAt (t.blk.get PWR_STAT_DOMON) 6 = true) ∧
      Frame [CAL_REQ_KIND, CAL_REQ_UNIT, CAL_STAT_BUSY, CAL_STAT_KIND, CAL_STAT_UNIT, CAL_STAT_QDEPTH, CAL_STAT_SLOTS, PWR_STAT_DOMON]
        [.cal] s t) ∧
  (∀ (s : State) (d : Half) (j : CalJob), s.blk.hostFree = true → d.getLsbD 10 = true → d.toNat % 16 = j.kind → d.toNat / 16 % 64 = j.unit →
    unitOk j = true → s.blk.testOk j = true → s.blk.flag CAL_CTL_EN = true → s.blk.cal.run = none → s.blk.cal.queue = [] →
    s.blk.swapWaits j = true ∨ s.blk.sliceWaits j = true →
    ∃ t, exec (.calRequest d) s = .next t ∧ t.blk.cal.run = none ∧ t.blk.cal.queue = [j] ∧ t.blk.get CAL_STAT_QDEPTH = 1 ∧
      (s.blk.sliceWaits j = true → s.blk.swapWaits j = false → s.blk.cal.waitAt = none → t.blk.cal.waitAt = some t.blk.tm.phys) ∧
      Frame [CAL_REQ_KIND, CAL_REQ_UNIT, CAL_STAT_BUSY, CAL_STAT_QDEPTH] [.cal] s t) ∧
  (∀ (s : State) (d : Half) (j q : CalJob), s.blk.hostFree = true → d.getLsbD 10 = true → d.toNat % 16 = j.kind → d.toNat / 16 % 64 = j.unit →
    unitOk j = true → s.blk.testOk j = true → s.blk.flag CAL_CTL_EN = true → s.blk.cal.run = some q → q ≠ j → j ∉ s.blk.cal.queue →
    s.blk.cal.queue.length < 4 →
    ∃ t, exec (.calRequest d) s = .next t ∧ t.blk.cal.run = some q ∧ t.blk.cal.queue = s.blk.cal.queue ++ [j] ∧
      t.blk.get CAL_STAT_QDEPTH = s.blk.cal.queue.length + 1 ∧
      Frame [CAL_REQ_KIND, CAL_REQ_UNIT, CAL_STAT_BUSY, CAL_STAT_KIND, CAL_STAT_UNIT, CAL_STAT_QDEPTH] [.cal] s t) ∧
  (∀ (s : State) (d : Half) (j : CalJob), s.blk.hostFree = true → d.getLsbD 10 = true → d.toNat % 16 = j.kind → j.kind ≤ 5 → d.toNat / 16 % 64 = j.unit →
    (s.blk.flag CAL_CTL_EN = false ∨ 4 ≤ s.blk.cal.queue.length ∨ j ∈ s.blk.cal.queue ∨ s.blk.cal.run = some j ∨
      s.blk.testOk j = false) →
    ∃ t, exec (.calRequest d) s = .next t ∧ t.blk.flag CAL_CAUSE_FAIL = true ∧ t.blk.get CAL_CAUSE_KIND = j.kind ∧
      t.blk.get CAL_CAUSE_UNIT = j.unit ∧ t.blk.get CAL_CAUSE_CODE = 4 ∧
      Frame [CAL_REQ_KIND, CAL_REQ_UNIT, CAL_CAUSE_FAIL, CAL_CAUSE_KIND, CAL_CAUSE_UNIT, CAL_CAUSE_CODE, EVT_PEND_PEND, EVT_OVR_OVR]
        [.host, .out] s t) ∧
  (∀ (s : State) (d : Half) (j : CalJob), s.blk.hostFree = true → d.getLsbD 10 = true → d.toNat % 16 = j.kind → d.toNat / 16 % 64 = j.unit →
    unitOk j = true → s.blk.flag CAL_CTL_EN = true → s.blk.cal.run = none → s.blk.cal.queue = [] → s.blk.spareOf j = none →
    s.blk.swapWaits j = false →
    ∃ t, exec (.calRequest d) s = .next t ∧ t.blk.cal.run = none ∧ t.blk.cal.queue = [] ∧ t.blk.flag CAL_CAUSE_FAIL = true ∧
      t.blk.get CAL_CAUSE_CODE = 7 ∧
      Frame [CAL_REQ_KIND, CAL_REQ_UNIT, CAL_CAUSE_FAIL, CAL_CAUSE_KIND, CAL_CAUSE_UNIT, CAL_CAUSE_CODE, CAL_STAT_BUSY, CAL_STAT_QDEPTH,
        EVT_PEND_PEND, EVT_OVR_OVR] [.cal, .host, .out] s t) ∧
  (∀ (s : State) (u e old : Fin 16) (cmin cmax : BitVec 12) (dt lsb : Nat) (ofs : Int), s.blk.cal.run = some ⟨0, u⟩ → s.blk.cal.elem = e →
    s.blk.cal.queue = [] → s.blk.pllState 1 ≠ 5 → u.val < 14 → s.blk.flag SYS_CYCLE_RUN = false → s.blk.cal.dly = none → s.blk.cal.swap = [] →
    cmin ≤ cmax → lsb = 2500 * 2 ^ 20 / (cmax.toNat + 1 - cmin.toNat) → 11 * 2 ^ 20 ≤ 10 * lsb → 10 * lsb ≤ 13 * 2 ^ 20 →
    ofs = (1250 * 2 ^ 10 * ((cmax.toNat + 1 - cmin.toNat : Nat) : Int) - 2500 * 2 ^ 10 * cmin.toNat) /
      (cmax.toNat + 1 - cmin.toNat : Nat) → 150 * 2 ^ 10 ≤ ofs → ofs ≤ 300 * 2 ^ 10 →
    s.blk.get (CAL_TAC_ROLE old) = u.val → (∀ i < 16, i < old.val → s.blk.get (CAL_TAC_ROLE i) ≠ u.val) → e ≠ old →
    ∃ t, exec (.calJobEnd (.tac cmin cmax false) dt) s = .next t ∧ t.blk.cal.run = none ∧ t.blk.flag CAL_STAT_BUSY = false ∧
      t.blk.get (CAL_TAC_ROLE e) = u.val ∧ t.blk.get (CAL_TAC_ROLE old) = 31 ∧
      t.blk.get (CAL_TAC_LSB e) = lsb ∧ t.blk.geti (CAL_TAC_OFS e) = ofs ∧
      bitAt (t.blk.get CAL_SPARE_TACSP) old = true ∧ bitAt (t.blk.get CAL_SPARE_TACSP) e = false ∧
      t.blk.flag CAL_CAUSE_DONE = true ∧ t.blk.get CAL_CAUSE_CODE = 0 ∧
      t.blk.get (CAL_REC_COUNT e) = min 65535 (s.blk.get (CAL_REC_COUNT e) + 1) ∧ t.blk.reg (CAL_LAST e) = t.blk.stw ∧
      FrameOn (fun a => within 0x70020 0x80000 a || evTouch a) [.tm, .cal, .host, .out] s t) ∧
  (∀ (s : State) (u e : Fin 16) (cmin cmax : BitVec 12) (dt lsb : Nat) (ofs : Int), s.blk.cal.run = some ⟨0, u⟩ → s.blk.cal.elem = e →
    s.blk.cal.queue = [] → s.blk.pllState 1 ≠ 5 → u.val < 14 → s.blk.flag SYS_CYCLE_RUN = true →
    cmin ≤ cmax → lsb = 2500 * 2 ^ 20 / (cmax.toNat + 1 - cmin.toNat) → 11 * 2 ^ 20 ≤ 10 * lsb → 10 * lsb ≤ 13 * 2 ^ 20 →
    ofs = (1250 * 2 ^ 10 * ((cmax.toNat + 1 - cmin.toNat : Nat) : Int) - 2500 * 2 ^ 10 * cmin.toNat) /
      (cmax.toNat + 1 - cmin.toNat : Nat) → 150 * 2 ^ 10 ≤ ofs → ofs ≤ 300 * 2 ^ 10 →
    ∃ t, exec (.calJobEnd (.tac cmin cmax false) dt) s = .next t ∧ t.blk.cal.run = none ∧ t.blk.flag CAL_STAT_BUSY = false ∧
      t.blk.cal.swap = s.blk.cal.swap ++ [((⟨0, u.val⟩ : CalJob), e.val, lsb, ofs.toNat)] ∧ Frame [CAL_STAT_BUSY, CAL_STAT_QDEPTH] [.tm, .cal] s t) ∧
  (∀ (s : State) (j : CalJob) (e : Nat) (cmin cmax : BitVec 12) (missing : Bool) (dt lsb : Nat), s.blk.cal.run = some j →
    s.blk.cal.elem = e → e < 16 → j.kind = 0 → j.unit < 14 → s.blk.cal.queue = [] → s.blk.pllState 1 ≠ 5 →
    s.blk.cal.swap = [] → s.blk.cal.dly = none → lsb = 2500 * 2 ^ 20 / (cmax.toNat + 1 - cmin.toNat) →
    (10 * lsb < 11 * 2 ^ 20 ∨ 13 * 2 ^ 20 < 10 * lsb ∨ cmax < cmin ∨ missing = true) →
    ∃ t, exec (.calJobEnd (.tac cmin cmax missing) dt) s = .next t ∧ t.blk.cal.run = none ∧ t.blk.cal.swap = [] ∧
      t.blk.flag CAL_CAUSE_FAIL = true ∧ t.blk.get CAL_CAUSE_KIND = 0 ∧ t.blk.get CAL_CAUSE_UNIT = j.unit ∧
      (10 * lsb < 11 * 2 ^ 20 ∨ 13 * 2 ^ 20 < 10 * lsb ∨ cmax < cmin → t.blk.get CAL_CAUSE_CODE = 1) ∧
      (t.blk.get CAL_CAUSE_CODE = 1 ∨ t.blk.get CAL_CAUSE_CODE = 2) ∧
      t.blk.get (CAL_REC_FAILS e) = min 65535 (s.blk.get (CAL_REC_FAILS e) + 1) ∧
      (bitAt (t.blk.get CAL_SPARE_TACBAD) e =
        (bitAt (s.blk.get CAL_SPARE_TACBAD) e || decide (1 ≤ (s.blk.cal.fails[e]?.getD 0)))) ∧
      (∀ i < 16, t.blk.reg (CAL_TAC i) = s.blk.reg (CAL_TAC i)) ∧ t.blk.get CAL_SPARE_TACSP = s.blk.get CAL_SPARE_TACSP ∧
      FrameOn (fun a => within 0x70020 0x80000 a || evTouch a) [.tm, .cal, .host, .out] s t) ∧
  (∀ (s : State) (u : Fin 6) (l : Fin 12) (step : BitVec 16) (ofs : Int) (resid dt : Nat), s.blk.cal.run = some ⟨1, u⟩ →
    s.blk.cal.elem = 16 + l.val → l.val / 2 = u.val → s.blk.cal.queue = [] → s.blk.pllState 1 ≠ 5 → s.blk.flag SYS_CYCLE_RUN = false →
    s.blk.cal.dly = none → s.blk.cal.swap = [] → s.blk.calCheck (.dline step ofs resid) = 0 → -2 ^ 19 ≤ ofs → ofs < 2 ^ 19 →
    ∃ t, exec (.calJobEnd (.dline step ofs resid) dt) s = .next t ∧ t.blk.cal.run = none ∧
      bitAt (t.blk.get CAL_SPARE_DLACT) u = decide (l.val % 2 = 1) ∧ t.blk.get (CAL_DL_STEP l) = step.toNat ∧
      t.blk.geti (CAL_DL_OFS l) = ofs ∧ t.blk.flag CAL_CAUSE_DONE = true ∧ t.blk.get CAL_CAUSE_CODE = 0 ∧
      t.blk.get (CAL_REC_COUNT (16 + l.val)) = min 65535 (s.blk.get (CAL_REC_COUNT (16 + l.val)) + 1) ∧
      FrameOn (fun a => within 0x70020 0x80000 a || evTouch a) [.tm, .cal, .host, .out] s t) ∧
  (∀ (s : State) (u : Fin 4) (dt : Nat), s.blk.cal.run = some ⟨2, u⟩ → s.blk.cal.queue = [] →
    s.blk.flag SYS_CYCLE_RUN = false → s.blk.synced = false → s.blk.cal.swap = [] → 4096 ≤ s.blk.cal.dlyN → 0 ≤ s.blk.dlyMean →
    s.blk.dlyMean ≤ 65535 →
    (s.blk.cal.dlyN : Int) * s.blk.cal.dlySq - s.blk.cal.dlySum * s.blk.cal.dlySum ≤ (200 * 2 ^ 16 * (s.blk.cal.dlyN : Int)) ^ 2 →
    ∃ t, exec (.calJobEnd .encdly dt) s = .next t ∧ t.blk.cal.run = none ∧ (t.blk.get (ENC_SDLY_DLY u) : Int) = s.blk.dlyMean ∧
      t.blk.flag CAL_CAUSE_DONE = true ∧ t.blk.get (CAL_REC_COUNT (60 + u.val)) = min 65535 (s.blk.get (CAL_REC_COUNT (60 + u.val)) + 1) ∧
      FrameOn (fun a => within 0x70020 0x80000 a || evTouch a || a == ENC_SDLY u) [.tm, .cal, .host, .out] s t) ∧
  (∀ (s : State) (u : Fin 4) (dt : Nat), s.blk.cal.run = some ⟨2, u⟩ → s.blk.cal.queue = [] → s.blk.cal.swap = [] → s.blk.cal.dly = none →
    s.blk.cal.dlyN < 4096 →
    ∃ t, exec (.calJobEnd .encdly dt) s = .next t ∧ t.blk.cal.run = none ∧ s.blk.cal.began + 10 ^ 10 * nsUnit ≤ t.blk.tm.phys ∧
      t.blk.flag CAL_CAUSE_FAIL = true ∧ t.blk.get CAL_CAUSE_CODE = 6 ∧
      t.blk.get (CAL_REC_FAILS (60 + u.val)) = min 65535 (s.blk.get (CAL_REC_FAILS (60 + u.val)) + 1) ∧
      FrameOn (fun a => within 0x70020 0x80000 a || evTouch a) [.tm, .cal, .host, .out] s t) ∧
  (∀ (s : State) (j : CalJob) (pass : Bool) (dt : Nat), s.blk.cal.run = some j → 3 ≤ j.kind → unitOk j = true → s.blk.cal.queue = [] →
    s.blk.cal.swap = [] → s.blk.cal.dly = none →
    ∃ t, exec (.calJobEnd (.test pass) dt) s = .next t ∧ t.blk.cal.run = none ∧ t.blk.get CAL_CAUSE_KIND = j.kind ∧
      t.blk.get CAL_CAUSE_UNIT = j.unit ∧ t.blk.get CAL_CAUSE_CODE = (if pass then 0 else 1) ∧ t.blk.retired = s.blk.retired ∧
      (∀ m : Fin 16, j.kind ≠ 5 ∨ m.val ≠ j.unit → t.blk.eng[m] = s.blk.eng[m]) ∧
      FrameOn (fun a => within 0x70020 0x70040 a || evTouch a || a == PWR_STAT) [.tm, .cal, .eng, .free, .host, .out] s t) ∧
  (∀ (s : State) (u : Fin 8) (pass : Bool) (dt : Nat), s.blk.cal.run = some ⟨4, u⟩ → s.blk.cal.queue = [] → s.blk.cal.swap = [] →
    s.blk.cal.dly = none →
    ∃ t, exec (.calJobEnd (.test pass) dt) s = .next t ∧ t.blk.cal.run = none ∧ t.blk.get CAL_CAUSE_KIND = 4 ∧
      t.blk.get CAL_CAUSE_UNIT = u.val ∧ t.blk.get CAL_CAUSE_CODE = (if pass then 0 else 1) ∧ t.blk.retired = s.blk.retired ∧
      FrameOn (fun a => within 0x70020 0x70040 a || evTouch a) [.tm, .cal, .host, .out] s t) ∧
  (∀ (s : State) (e : Nat), s.blk.flag CAL_CTL_AUTO = true → s.blk.flag CAL_CTL_EN = true → s.blk.cal.run = none → s.blk.cal.queue = [] →
    s.blk.cal.auto < 20 → s.blk.spareOf (autoJob s.blk.cal.auto) = some e →
    s.blk.swapWaits (autoJob s.blk.cal.auto) = false →
    ∃ t, exec .calAuto s = .next t ∧ t.blk.cal.run = some (autoJob s.blk.cal.auto) ∧ t.blk.cal.auto = (s.blk.cal.auto + 1) % 20 ∧
      s.blk.cal.lastEnd + s.blk.get CAL_CTL_AINT * 10 ^ 9 * nsUnit ≤ t.blk.tm.phys ∧ t.blk.flag CAL_STAT_BUSY = true ∧
      Frame [CAL_STAT_BUSY, CAL_STAT_KIND, CAL_STAT_UNIT, CAL_STAT_QDEPTH, CAL_STAT_SLOTS] [.tm, .cal] s t) ∧
  (∀ (s : State), s.blk.hostFree = true → ∃ t, exec .calDisable s = .next t ∧ t.blk.flag CAL_CTL_EN = false ∧ t.blk.cal.run = none ∧ t.blk.cal.queue = [] ∧
      t.blk.flag CAL_STAT_BUSY = false ∧ t.blk.get CAL_STAT_QDEPTH = 0 ∧
      (s.blk.cal.run ≠ none ∨ s.blk.cal.queue ≠ [] → t.blk.flag CAL_CAUSE_FAIL = true ∧ t.blk.get CAL_CAUSE_CODE = 3) ∧
      (∀ i < 16, t.blk.reg (CAL_TAC i) = s.blk.reg (CAL_TAC i)) ∧ (∀ i < 12, t.blk.reg (CAL_DL i) = s.blk.reg (CAL_DL i)) ∧
      FrameOn (fun a => within 0x70000 0x80000 a || evTouch a || a == PWR_STAT) [.cal, .host, .out] s t) ∧
  (∀ (s : State) (u : Fin 4) (t0 : Nat), s.blk.cal.queue = [⟨3, u⟩] → s.blk.cal.waitAt = some t0 → 0 < s.blk.sliceCells u →
    ∃ t, exec .sliceTestTimeout s = .next t ∧ t.blk.cal.queue = [] ∧ t.blk.cal.waitAt = none ∧ t.blk.cal.run = s.blk.cal.run ∧ t.blk.flag CAL_CAUSE_FAIL = true ∧ t.blk.get CAL_CAUSE_KIND = 3 ∧
      t.blk.get CAL_CAUSE_UNIT = u.val ∧ t.blk.get CAL_CAUSE_CODE = 6 ∧ t0 + 100000000 * nsUnit ≤ t.blk.tm.phys ∧
      FrameOn (fun a => within 0x70020 0x70040 a || evTouch a) [.tm, .cal, .host, .out] s t) ∧
  (∀ (s : State), s.blk.hostFree = true → s.blk.inMaint = true → ∃ t, exec .bistGo s = .next t ∧ t.blk.flag CAL_BIST_RUN = true ∧ Frame [CAL_BIST_RUN] [] s t) ∧
  (∀ (s : State), s.blk.hostFree = true → s.blk.inMaint = false → ∃ t, exec .bistGo s = .next t ∧ t.blk.flag CAL_CAUSE_FAIL = true ∧
      t.blk.get CAL_CAUSE_KIND = 6 ∧ t.blk.get CAL_CAUSE_CODE = 4 ∧
      Frame [CAL_CAUSE_FAIL, CAL_CAUSE_KIND, CAL_CAUSE_UNIT, CAL_CAUSE_CODE, EVT_PEND_PEND, EVT_OVR_OVR] [.host, .out] s t) ∧
  (∀ (s : State) (areas : BitVec 8) (dt : Nat), s.blk.flag CAL_BIST_RUN = true →
    ∃ t, exec (.bistDone areas [] dt) s = .next t ∧ t.blk.flag CAL_BIST_RUN = false ∧ t.blk.get CAL_BIST_FAILAREA = areas.toNat ∧
      t.blk.get CAL_CAUSE_KIND = 6 ∧ t.blk.get CAL_CAUSE_CODE = (if areas = 0 then 0 else 1) ∧
      (areas = 0 → t.blk.flag CAL_CAUSE_DONE = true) ∧ (areas ≠ 0 → t.blk.flag CAL_CAUSE_FAIL = true) ∧
      t.blk.cav.mem = [] ∧ t.blk.sw.frames = [] ∧ (∀ n : Fin 16, t.blk.get (GAL_STAT_STATE n) = 0 ∧ t.blk.eng[n] = Engine.reset) ∧
      FrameOn (fun a => within 0x70030 0x70040 a || a == CAL_BIST || evTouch a || within 0x200000 0x300000 a)
        [.tm, .eng, .sw, .flw, .cav, .host, .out] s t)

/-! ### The Rope and the pair -/

/-- R498 to R503, R508, R511, R515, R516, R518: the Rope links or shows why not, its blocks act by their kind, digests are compared, and
silence, loss and the supervisor's causes do what they do.
Choices and readings of the model: log entries 3, 51, 54, 75 and 77. -/
def Obligations.RopeTraffic : Prop :=
  (∀ (s : State) (c : RopePeer) (dt : Nat), s.blk.pairState = 1 → s.blk.pair.linked = false → s.blk.ropeLanes.length = 4 →
    (∀ l ∈ s.blk.ropeLanes, s.blk.laneState l = 6) → c.unit ≠ s.blk.flag PAIR_CFG_UNIT → c.auth = true →
    (s.blk.keyFor (s.blk.get PAIR_CFG_KSLOT) 0 true).isSome = true → c.cfg.toNat / 4 = (s.blk.reg PAIR_CFG).toNat / 4 % 2 ^ 9 →
    c.delay.toNat = s.blk.get PAIR_DELAY_DELAY → c.axsrc.toNat = s.blk.get PAIR_AXSRC_SRC →
    c.dly.toNat + 2000 ≤ s.blk.get PAIR_DELAY_DELAY * 1000 → s.blk.get SYS_CYCLE_PERIOD ≤ 500 → c.period.toNat ≤ 500 →
    ∃ t, exec (.ropeLinkUp c dt) s = .next t ∧ t.blk.pair.linked = true ∧ t.blk.flag PAIR_CAUSE_ROPEUP = true ∧
      t.blk.get PAIR_STAT_LANES = 2 ∧ t.blk.get PAIR_CAUSE_CODE = 0 ∧ t.blk.get PAIR_ROPE_ROPEDLY = c.dly.toNat ∧
      t.blk.get PAIR_STAT_PCLAIM = c.claim.toNat ∧ t.blk.pair.pState = c.state.val ∧
      (c.state.val = 1 → s.blk.isPref = true → t.blk.pairState = 2 ∧ t.blk.pair.gen = 1 ∧
        t.blk.get PAIR_STAT_CLAIM = claimOf true 1 (s.blk.get PAIR_CFG_UNIT)) ∧
      (c.state.val = 1 → s.blk.isPref = false → t.blk.pairState = 1) ∧
      (c.state.val = 2 ∨ c.state.val = 5 → t.blk.pairState = 3 ∧ t.blk.get PAIR_RSTAT_PHASE = 1) ∧
      t.blk.pair.peerSession = c.session.toNat ∧ t.blk.sec.ropeKey = s.blk.keyFor (s.blk.get PAIR_CFG_KSLOT) 0 true ∧
      FrameOn pairTouch (.sec :: .lanes :: pairParts) s t) ∧
  (∀ (s : State) (c : RopePeer) (dt : Nat), s.blk.pairState = 1 → s.blk.pair.linked = false → s.blk.ropeLanes ≠ [] →
    (∀ l ∈ s.blk.ropeLanes, s.blk.laneState l = 6) →
    (c.unit = s.blk.flag PAIR_CFG_UNIT ∨ c.auth = false ∨ c.delay.toNat ≠ s.blk.get PAIR_DELAY_DELAY ∨
      s.blk.get PAIR_DELAY_DELAY * 1000 < c.dly.toNat + 2000 ∨ 500 < s.blk.get SYS_CYCLE_PERIOD ∨ 500 < c.period.toNat) →
    ∃ t, exec (.ropeLinkUp c dt) s = .next t ∧ t.blk.pair.linked = false ∧ t.blk.pairState = 1 ∧
      (c.unit = s.blk.flag PAIR_CFG_UNIT → t.blk.get PAIR_CAUSE_CODE = 1) ∧
      (c.unit ≠ s.blk.flag PAIR_CFG_UNIT → c.auth = false → t.blk.get PAIR_CAUSE_CODE = 2) ∧
      1 ≤ t.blk.get PAIR_CAUSE_CODE ∧ t.blk.get PAIR_CAUSE_CODE ≤ 5 ∧
      Frame [PAIR_CAUSE_CODE, PAIR_ROPE_ROPEDLY] [.tm] s t) ∧
  (∀ (s : State) (m : RopeBlock) (dt : Nat), s.blk.pair.linked = true → s.blk.ropeGood m = true → m.msg = .idle →
    ∃ t, exec (.ropeBlockRx m dt) s = .next t ∧ t.blk.get (PAIR_CNT_COUNT 1) = min (2 ^ 40 - 1) (s.blk.get (PAIR_CNT_COUNT 1) + 1) ∧
      t.blk.pair = { s.blk.pair with lastRx := t.blk.tm.phys, rxSeq := m.seq.toNat + 1 } ∧
      Frame [PAIR_CNT_COUNT 1, ⟨STS_HALFSUM, 0, 72⟩, EVT_PEND_PEND, EVT_OVR_OVR] [.tm, .pair, .host, .out] s t) ∧
  (∀ (s : State) (m : RopeBlock) (dt : Nat), s.blk.pair.linked = true → s.blk.ropeGood m = false →
    (∀ i at_, m.msg ≠ .journal i at_) →
    ∃ t, exec (.ropeBlockRx m dt) s = .next t ∧ t.blk.get (PAIR_CNT_COUNT 1) = min (2 ^ 40 - 1) (s.blk.get (PAIR_CNT_COUNT 1) + 1) ∧
      t.blk.get (PAIR_CNT_COUNT 2) = min (2 ^ 40 - 1) (s.blk.get (PAIR_CNT_COUNT 2) + 1) ∧
      Frame [PAIR_CNT_COUNT 1, PAIR_CNT_COUNT 2, ⟨STS_HALFSUM, 0, 72⟩, EVT_PEND_PEND, EVT_OVR_OVR] [.tm, .pair, .host, .out] s t) ∧
  (∀ (s : State) (m : RopeBlock) (dt : Nat) (i : WireItem) (at_ : Nat), s.blk.pair.linked = true → s.blk.ropeGood m = true → m.msg = .journal i at_ → (s.blk.synced = true ∨ s.blk.pairState = 3) → (s.blk.advanceNs dt).nowNs ≤ at_ →
    ∃ t, exec (.ropeBlockRx m dt) s = .next t ∧
      t.blk.host.journal = s.blk.host.journal ++ [⟨wireItem i, at_, false, !(s.blk.flag PAIR_CFG_UNIT), m.seq.toNat⟩] ∧
      t.blk.pairState = s.blk.pairState ∧
      t.blk.get (PAIR_CNT_COUNT 3) = min (2 ^ 40 - 1) (s.blk.get (PAIR_CNT_COUNT 3) + 1) ∧
      Frame [PAIR_CNT_COUNT 1, PAIR_CNT_COUNT 3, ⟨STS_HALFSUM, 0, 72⟩, EVT_PEND_PEND, EVT_OVR_OVR] [.tm, .pair, .host, .out] s t) ∧
  (∀ (s : State) (m : RopeBlock) (dt : Nat) (i : WireItem) (at_ : Nat), s.blk.pair.linked = true → m.msg = .journal i at_ →
    s.blk.pairState = 4 → (s.blk.ropeGood m = false ∨ at_ < (s.blk.advanceNs dt).nowNs) →
    ∃ t, exec (.ropeBlockRx m dt) s = .next t ∧ t.blk.flag PAIR_CAUSE_JGAP = true ∧ t.blk.pairState = 6 ∧
      t.blk.flag PAIR_CAUSE_STATE = true ∧ Out.rope s.blk.pair.txSeq (.control .gap) (s.blk.ropeWire (.control .gap)) ∈ t.blk.out ∧
      t.blk.host.journal = s.blk.host.journal ∧ FrameOn pairTouch pairParts s t) ∧
  (∀ (s : State) (m : RopeBlock) (dt : Nat) (bound dig : Word) (sc : BitVec 8) (o : DigRec), s.blk.pair.linked = true → s.blk.ropeGood m = true → m.msg = .digest bound dig sc → s.blk.pairState = 4 → s.blk.pair.peer = [] → s.blk.pair.own = [o] →
    o.bound = bound → o.dig = dig →
    ∃ t, exec (.ropeBlockRx m dt) s = .next t ∧ t.blk.pair.own = [] ∧ t.blk.pair.peer = [] ∧ t.blk.get PAIR_STAT_PHEALTH = sc.toNat ∧
      t.blk.get (PAIR_CNT_COUNT 5) = min (2 ^ 40 - 1) (s.blk.get (PAIR_CNT_COUNT 5) + 1) ∧
      t.blk.flag PAIR_CAUSE_DIVERGE = s.blk.flag PAIR_CAUSE_DIVERGE ∧
      Frame [PAIR_CNT_COUNT 1, PAIR_CNT_COUNT 5, PAIR_STAT_PHEALTH, ⟨STS_HALFSUM, 0, 72⟩, EVT_PEND_PEND, EVT_OVR_OVR]
        [.tm, .pair, .host, .out] s t) ∧
  (∀ (s : State) (m : RopeBlock) (dt : Nat) (bound dig : Word) (sc : BitVec 8) (o : DigRec), s.blk.pair.linked = true → s.blk.ropeGood m = true → m.msg = .digest bound dig sc → s.blk.pairState = 4 → s.blk.pair.peer = [] → s.blk.pair.own = [o] →
    o.bound = bound → o.dig ≠ dig → s.blk.cycling = true →
    ∃ t, exec (.ropeBlockRx m dt) s = .next t ∧ t.blk.flag PAIR_CAUSE_DIVERGE = true ∧ t.blk.reg PAIR_DIG = o.dig ∧
      t.blk.reg PAIR_PDIG = dig ∧ t.blk.reg PAIR_DSTW = bound ∧
      t.blk.get (PAIR_CNT_COUNT 6) = min (2 ^ 40 - 1) (s.blk.get (PAIR_CNT_COUNT 6) + 1) ∧
      t.blk.pair.acts = s.blk.pair.acts ++
        [(if o.score ≤ sc.toNat then .withdraw else .handover, o.close + s.blk.get PAIR_DELAY_DELAY * 1000)] ∧
      FrameOn (fun a => within 0x400000 0x410000 a || a == STS_HALFSUM || evTouch a) [.tm, .pair, .host, .out] s t) ∧
  (∀ (s : State) (m : RopeBlock) (dt : Nat) (off : BitVec 24) (v tag : Word), s.blk.pair.linked = true → s.blk.ropeGood m = true → m.msg = .transfer (.reg off v) tag → s.blk.pairState = 3 →
    sget (fun _ => (0 : Word)) s.blk.pair.tags off.toNat = 0 → before tag 0 = false → (regAt off.toNat).isSome = true →
    (off.toNat < 0x400000 ∨ 0x410000 ≤ off.toNat) →
    ∃ t, exec (.ropeBlockRx m dt) s = .next t ∧ t.blk.reg off.toNat = v ∧
      t.blk.get PAIR_RSTAT_WORDS = (s.blk.get PAIR_RSTAT_WORDS + 1) % 2 ^ 22 ∧
      sget (fun _ => (0 : Word)) t.blk.pair.tags off.toNat = tag ∧
      FrameOn (fun a => a == off.toNat || a == PAIR_RSTAT || a == PAIR_CNT 1 || a == STS_HALFSUM || evTouch a) [.tm, .pair, .host, .out] s t) ∧
  (∀ (s : State) (m : RopeBlock) (dt : Nat) (cl : BitVec 16), s.blk.pair.linked = true → s.blk.ropeGood m = true →
    m.msg = .control (.state 6 cl) → s.blk.pairState = 4 → s.blk.cycling = false →
    ∃ t, exec (.ropeBlockRx m dt) s = .next t ∧ t.blk.pairState = 2 ∧ t.blk.flag PAIR_CAUSE_TAKEOVER = true ∧
      t.blk.get PAIR_STAT_PCLAIM = cl.toNat ∧ t.blk.pair.gen = min 0x3FFF (s.blk.pair.gen + 1) ∧
      (s.blk.pw.failAt = none → t.blk.pair.fence = false) ∧ t.blk.flag PAIR_STAT_HOLDER = true ∧
      t.blk.get PAIR_STAT_CLAIM = claimOf true t.blk.pair.gen (s.blk.get PAIR_CFG_UNIT) ∧ FrameOn pairTouch pairParts s t) ∧
  (∀ (s : State) (m : RopeBlock) (dt : Nat) (d : Int), s.blk.pair.linked = true → s.blk.ropeGood m = true → m.msg = .phase d →
    s.blk.tm.phys + dt * nsUnit < s.blk.lanes.phase.start + s.blk.phaseSpan →
    ∃ t, exec (.ropeBlockRx m dt) s = .next t ∧
      t.blk.lanes.phase = { s.blk.lanes.phase with sum := s.blk.lanes.phase.sum + d, num := s.blk.lanes.phase.num + 1 } ∧
      Frame [PAIR_CNT_COUNT 1, ⟨STS_HALFSUM, 0, 72⟩, EVT_PEND_PEND, EVT_OVR_OVR] [.tm, .pair, .lanes, .host, .out] s t) ∧
  (∀ (s : State) (m : RopeBlock) (dt : Nat) (d : Int), s.blk.pair.linked = true → s.blk.ropeGood m = true → m.msg = .phase d →
    s.blk.lanes.phase.start + s.blk.phaseSpan ≤ s.blk.tm.phys + dt * nsUnit → s.blk.lanes.phase.num ≠ 0 →
    ∃ t, exec (.ropeBlockRx m dt) s = .next t ∧
      t.blk.lanes.phase.last = some (s.blk.lanes.phase.sum / s.blk.lanes.phase.num) ∧ t.blk.lanes.phase.sum = d ∧
      t.blk.lanes.phase.num = 1 ∧
      Frame [PAIR_CNT_COUNT 1, ⟨STS_HALFSUM, 0, 72⟩, EVT_PEND_PEND, EVT_OVR_OVR] [.tm, .pair, .lanes, .host, .out] s t) ∧
  (∀ (s : State), s.blk.pair.linked = true →
    ∃ t, exec .idleBlockSend s = .next t ∧ t.blk.out = Out.rope s.blk.pair.txSeq .idle (s.blk.ropeWire .idle) :: s.blk.out ∧
      s.blk.pair.lastTx + 1000 * nsUnit ≤ t.blk.tm.phys ∧ t.blk.pair.txSeq = s.blk.pair.txSeq + 1 ∧
      t.blk.get (PAIR_CNT_COUNT 0) = min (2 ^ 40 - 1) (s.blk.get (PAIR_CNT_COUNT 0) + 1) ∧
      FrameOn (fun a => a == PAIR_CNT 0 || a == STS_HALFSUM || evTouch a) [.tm, .pair, .host, .out] s t) ∧
  (∀ (s : State) (bound : Word) (l : List Byte), s.blk.pair.shut = some (bound, l) → s.blk.synced = true → s.blk.pair.linked = true →
    s.blk.pair.peer = [] → s.blk.pair.own = [] →
    ∃ t, exec .digestClose s = .next t ∧
      t.blk.pair.own = [⟨bound, BitVec.ofNat 72 (natOfBytesBE ((sha256 l).take 9)), s.blk.health, s.blk.cyc.start⟩] ∧
      t.blk.get PAIR_STAT_HEALTH = s.blk.health % 2 ^ 8 ∧ (∃ d, Out.rope s.blk.pair.txSeq (.digest d) (s.blk.ropeWire (.digest d)) ∈ t.blk.out ∧ d ∈ t.blk.pair.own) ∧
      t.blk.pair.shut = none ∧
      FrameOn (fun a => a == PAIR_STAT || a == PAIR_CNT 0 || a == STS_HALFSUM || evTouch a) [.pair, .host, .out, .free] s t) ∧
  (∀ (s : State), s.blk.pairState = 4 →
    ∃ t, exec .partnerSilence s = .next t ∧ t.blk.pairState = 2 ∧ t.blk.flag PAIR_CAUSE_TAKEOVER = true ∧
      t.blk.flag PAIR_STAT_ALIVEIN = false ∧ t.blk.flag PAIR_STAT_HOLDER = true ∧
      max s.blk.pair.lastRx s.blk.pair.aliveAt + 4000 * nsUnit ≤ t.blk.tm.phys ∧
      (s.blk.cycling = true → t.blk.pair.raise_ = true ∧ t.blk.get PAIR_STAT_CLAIM = s.blk.get PAIR_STAT_CLAIM) ∧
      (s.blk.cycling = false → t.blk.pair.gen = min 0x3FFF (s.blk.pair.gen + 1) ∧
        t.blk.get PAIR_STAT_CLAIM = claimOf true t.blk.pair.gen (s.blk.get PAIR_CFG_UNIT)) ∧
      FrameOn pairTouch pairParts s t) ∧
  (∀ (s : State) (dt : Nat), s.blk.pairState = 4 ∨ s.blk.pairState = 5 →
    ∃ t, exec (.ropeLoss dt) s = .next t ∧ t.blk.pair.linked = false ∧ t.blk.pairState = (if s.blk.pairState = 4 then 6 else 2) ∧
      t.blk.flag PAIR_CAUSE_STATE = true ∧
      (s.blk.pair.linked = true → s.blk.get PAIR_STAT_LANES ≠ 0 → t.blk.flag PAIR_CAUSE_ROPEDOWN = true ∧ t.blk.get PAIR_STAT_LANES = 0) ∧
      FrameOn pairTouch pairParts s t) ∧
  (∀ (s : State), s.blk.pairState = 1 →
    ∃ t, exec .aliveSilenceSolo s = .next t ∧ t.blk.pairState = 2 ∧ t.blk.pair.gen = 1 ∧
      t.blk.get PAIR_STAT_CLAIM = claimOf true 1 (s.blk.get PAIR_CFG_UNIT) ∧
      max s.blk.pair.since s.blk.pair.aliveAt + 10 ^ 9 * nsUnit ≤ t.blk.tm.phys ∧ FrameOn pairTouch pairParts s t) ∧
  (∀ (s : State), s.blk.synced = true → s.blk.pair.linked = true →
    ∃ t, exec .aliveSilenceSolo s = .next t ∧ t.blk.flag PAIR_CAUSE_SBFAULT = true ∧ t.blk.flag PAIR_STAT_ALIVEIN = false ∧
      t.blk.pairState = s.blk.pairState ∧ Frame [PAIR_CAUSE_SBFAULT, PAIR_STAT_ALIVEIN] [] s t) ∧
  (∀ (s : State) (silent : Bool) (dt : Nat), (silent = true ∨ s.blk.pairState = 1 ∨ s.blk.pairState = 3 ∨ s.blk.pairState = 4 ∨
      s.blk.pairState = 6 ∨ s.blk.pw.failAt ≠ none) →
    ∃ t, exec (.supervisorFence silent dt) s = .next t ∧ t.blk.pair.fence = true ∧ t.blk.pair.alive = false ∧
      (∀ p < 32, bitAt (s.blk.get PAIR_UPMASK_MASK) p = true → t.blk.fenced p = true) ∧ Frame [] [.tm, .pair] s t) ∧
  (∀ (s : State) (dt : Nat), (s.blk.pairState = 0 ∨ s.blk.pairState = 2 ∨ s.blk.pairState = 5) → s.blk.pw.failAt = none →
    s.blk.pair.failSeen = false →
    ∃ t, exec (.supervisorFence false dt) s = .next t ∧ t.blk.pair.fence = false ∧ t.blk.pair.alive = true ∧
      Frame [] [.tm, .pair] s t)

/-- R493 to R497, R503, R518 to R521: a unit enters and leaves its pair, its states follow what it is asked, and a joiner and
its source meet at the quiet point.
Choices and readings of the model: log entries 52, 53 and 75. -/
def Obligations.PairStates : Prop :=
  (∀ (s : State) (d : Half), s.blk.hostFree = true → s.blk.pairState = 0 → d.getLsbD 0 = true → d.toNat / 16 % 4 < 3 →
    ∃ t, exec (.pairEnable d) s = .next t ∧ t.blk.pairState = 1 ∧ t.blk.flag PAIR_CFG_EN = true ∧ t.blk.flag PAIR_CFG_UNIT = d.getLsbD 1 ∧
      t.blk.flag PAIR_CFG_PREF = d.getLsbD 2 ∧ t.blk.flag PAIR_CFG_REVERT = d.getLsbD 3 ∧ t.blk.get PAIR_CFG_CHOLD = d.toNat / 16 % 4 ∧
      t.blk.get PAIR_CFG_KSLOT = d.toNat / 64 % 16 ∧ t.blk.flag PAIR_CFG_ARS = d.getLsbD 10 ∧ t.blk.flag PAIR_CAUSE_STATE = true ∧
      t.blk.pair.linked = false ∧ t.blk.pair.session = (s.blk.pair.session + 1) % 2 ^ 31 ∧
      FrameOn (fun a => pairTouch a || laneTouch a || a == PWR_STAT) (.lanes :: .sec :: .free :: pairParts) s t) ∧
  (∀ (s : State) (d : Half), s.blk.hostFree = true → s.blk.pairState ≠ 0 → d.getLsbD 0 = true →
    ∃ t, exec (.pairEnable d) s = .next t ∧ Frame [] [] s t) ∧
  (∀ (s : State) (d : Half), s.blk.hostFree = true → s.blk.pairState ≠ 0 → d.getLsbD 0 = false →
    ∃ t, exec (.pairEnable d) s = .next t ∧ t.blk.pairState = 0 ∧ t.blk.flag PAIR_CFG_EN = false ∧ t.blk.get PAIR_STAT_LANES = 0 ∧
      t.blk.sec.ropeKey = none ∧ t.blk.pair.linked = false ∧ t.blk.flag PAIR_CAUSE_STATE = true ∧
      (∀ l : Fin 36, 32 ≤ l.val → s.blk.laneState l ≠ 7 → t.blk.laneState l = 0) ∧
      FrameOn (fun a => pairTouch a || laneTouch a || a == PWR_STAT) (.lanes :: .sec :: pairParts) s t) ∧
  (∀ (s : State) (d : Half), s.blk.hostFree = true → s.blk.pairState = 0 → d.getLsbD 0 = false → d.toNat / 16 % 4 < 3 →
    ∃ t, exec (.pairEnable d) s = .next t ∧ t.blk.pairState = 0 ∧ t.blk.flag PAIR_CFG_UNIT = d.getLsbD 1 ∧
      t.blk.flag PAIR_CFG_PREF = d.getLsbD 2 ∧ t.blk.get PAIR_CFG_KSLOT = d.toNat / 64 % 16 ∧
      t.blk.get PAIR_STAT_CLAIM = claimOf false s.blk.pair.gen (t.blk.get PAIR_CFG_UNIT) ∧
      FrameOn (fun a => a == PAIR_CFG || a == PAIR_STAT || a == PAIR_CAUSE || evTouch a) [.host, .out] s t) ∧
  (∀ (s : State), s.blk.hostFree = true → s.blk.pairState = 1 →
    ∃ t, exec .pairSolo s = .next t ∧ t.blk.pairState = 2 ∧ t.blk.pair.gen = 1 ∧
      t.blk.get PAIR_STAT_CLAIM = claimOf true 1 (s.blk.get PAIR_CFG_UNIT) ∧ t.blk.flag PAIR_CAUSE_STATE = true ∧
      FrameOn pairTouch pairParts s t) ∧
  (∀ (s : State), s.blk.hostFree = true → s.blk.pairState ≠ 1 → ∃ t, exec .pairSolo s = .next t ∧ Frame [] [] s t) ∧
  (∀ (s : State), s.blk.hostFree = true → s.blk.pairState = 6 →
    ∃ t, exec .pairResync s = .next t ∧ t.blk.pairState = 3 ∧ t.blk.get PAIR_RSTAT_PHASE = 1 ∧ t.blk.flag PAIR_CAUSE_STATE = true ∧
      FrameOn pairTouch pairParts s t) ∧
  (∀ (s : State), s.blk.pairState = 6 → s.blk.flag PAIR_CFG_ARS = true →
    ∃ t, exec .autoResync s = .next t ∧ t.blk.pairState = 3 ∧ s.blk.pair.since + 10 ^ 9 * nsUnit ≤ t.blk.tm.phys ∧
      FrameOn pairTouch pairParts s t) ∧
  (∀ (s : State), s.blk.hostFree = true → s.blk.pairState = 4 →
    ∃ t, exec .pairWithdraw s = .next t ∧ t.blk.pairState = 6 ∧ t.blk.flag PAIR_CAUSE_STATE = true ∧
      (s.blk.pair.linked = true → Out.rope s.blk.pair.txSeq (.control .withdrawn) (s.blk.ropeWire (.control .withdrawn)) ∈ t.blk.out) ∧ FrameOn pairTouch pairParts s t) ∧
  (∀ (s : State), s.blk.hostFree = true → s.blk.pairState = 5 →
    ∃ t, exec .pairWithdraw s = .next t ∧ t.blk.pairState = 5 ∧
      t.blk.host.journal = s.blk.host.journal ++
        [⟨.withdraw, s.blk.nowNs + s.blk.get PAIR_DELAY_DELAY * 1000, true, s.blk.flag PAIR_CFG_UNIT, 0⟩] ∧
      FrameOn (fun a => a == PAIR_CNT 0 || a == STS_HALFSUM || galTouch a) [.pair, .trc, .host, .out] s t) ∧
  (∀ (s : State), s.blk.hostFree = true → s.blk.pairState = 4 ∨ s.blk.pairState = 5 →
    ∃ t, exec .pairHandover s = .next t ∧ t.blk.pairState = s.blk.pairState ∧
      t.blk.host.journal = s.blk.host.journal ++
        [⟨.handover, s.blk.nowNs + s.blk.get PAIR_DELAY_DELAY * 1000, true, s.blk.flag PAIR_CFG_UNIT, 0⟩] ∧
      (s.blk.pair.linked = true →
        ∃ w, Out.rope s.blk.pair.txSeq (.journal .handover (s.blk.nowNs + s.blk.get PAIR_DELAY_DELAY * 1000)) w ∈ t.blk.out) ∧
      FrameOn (fun a => a == PAIR_CNT 0 || a == STS_HALFSUM || galTouch a) [.pair, .trc, .host, .out] s t) ∧
  (∀ (s : State), s.blk.hostFree = true → (∀ n < 32, s.blk.ringState n ≠ 3) →
    ∃ t, exec .pairGenrst s = .next t ∧ t.blk.pair.gen = 1 ∧ (s.blk.pair.linked = true → Out.rope s.blk.pair.txSeq (.control .genrst) (s.blk.ropeWire (.control .genrst)) ∈ t.blk.out) ∧
      t.blk.get PAIR_STAT_CLAIM = claimOf (s.blk.pairState == 2 || s.blk.pairState == 5) 1 (s.blk.get PAIR_CFG_UNIT) ∧
      FrameOn (fun a => within 0x400000 0x410000 a || a == STS_HALFSUM || evTouch a) [.pair, .host, .out] s t) ∧
  (∀ (s : State) (n : Nat), s.blk.hostFree = true → n < 32 → s.blk.ringState n = 3 → ∃ t, exec .pairGenrst s = .next t ∧ Frame [] [] s t) ∧
  (∀ (s : State), s.blk.pairState = 4 → s.blk.isPref = true → s.blk.flag PAIR_CFG_REVERT = true →
    s.blk.get PAIR_STAT_PHEALTH ≤ s.blk.get PAIR_STAT_HEALTH →
    ∃ t, exec .revertRequest s = .next t ∧ s.blk.pair.since + s.blk.get PAIR_WTR_WTR * 10 ^ 9 * nsUnit ≤ t.blk.tm.phys ∧
      t.blk.host.journal = s.blk.host.journal ++
        [⟨.handover, t.blk.nowNs + s.blk.get PAIR_DELAY_DELAY * 1000, true, s.blk.flag PAIR_CFG_UNIT, 0⟩] ∧
      FrameOn (fun a => a == PAIR_CNT 0 || a == STS_HALFSUM || galTouch a) [.tm, .pair, .trc, .host, .out] s t) ∧
  (∀ (s : State) (dt : Nat), s.blk.get PAIR_RSTAT_PHASE = 1 → (s.blk.pairState = 2 ∨ s.blk.pairState = 3) →
    ∃ t, exec (.bulkPassDone dt) s = .next t ∧ t.blk.get PAIR_RSTAT_PHASE = 2 ∧
      (s.blk.pairState = 2 → t.blk.get PAIR_RSTAT_WORDS = 3080192) ∧
      (s.blk.pairState = 3 → t.blk.get PAIR_RSTAT_WORDS = s.blk.get PAIR_RSTAT_WORDS) ∧
      Frame [PAIR_RSTAT_PHASE, PAIR_RSTAT_WORDS] [.tm] s t) ∧
  (∀ (s : State), s.blk.pairState = 2 → s.blk.get PAIR_RSTAT_PHASE = 2 → s.blk.pair.linked = true → s.blk.cyc.inProg = true →
    s.blk.enginesRest → s.blk.flw.queue = [] → s.blk.flw.flight = [] → s.blk.pair.mirror ≤ 256 →
    ∃ t, exec .quietTest s = .next t ∧ t.blk.pair.joinAt = some s.blk.cyc.next ∧ t.blk.pair.quietSeen = true ∧
      t.blk.pair.txSeq = s.blk.pair.txSeq + 17 ∧ t.blk.pairState = 2 ∧
      (∀ q ∈ t.blk.out.head?, ∃ tag w, q = Out.rope (s.blk.pair.txSeq + 16) (.transfer .quiet tag) w) ∧
      FrameOn (fun a => a == PAIR_CNT 0 || a == STS_HALFSUM || evTouch a) [.tm, .pair, .host, .out] s t) ∧
  (∀ (s : State), s.blk.pairState = 2 → s.blk.get PAIR_RSTAT_PHASE = 2 → s.blk.pair.linked = true → s.blk.cyc.inProg = true →
    s.blk.flw.queue ≠ [] →
    ∃ t, exec .quietTest s = .next t ∧ Frame [] [.tm] s t) ∧
  (∀ (s : State), s.blk.pairState = 3 →
    ∃ t, exec .resyncTimeout s = .next t ∧ t.blk.pairState = 6 ∧ t.blk.flag PAIR_CAUSE_RFAIL = true ∧
      (s.blk.pair.quietSeen = false → t.blk.get PAIR_CAUSE_CODE = 6) ∧
      (s.blk.pair.quietSeen = true → s.blk.pair.overflow = true → t.blk.get PAIR_CAUSE_CODE = 7) ∧
      (s.blk.pair.quietSeen = true → s.blk.pair.overflow = false → t.blk.get PAIR_CAUSE_CODE = 8) ∧
      s.blk.pair.resyncAt + 10 ^ 9 * nsUnit ≤ t.blk.tm.phys ∧ FrameOn pairTouch pairParts s t)

/-! ### Power -/

/-- R525 to R532, R539 to R541: a requested state is entered at once, at a boundary or not at all; LINE-HOLD and STANDBY do what
they do to engines, rings and domains; banks are checked and quads turned off.
Choices and readings of the model: log entries 55 and 56. -/
def Obligations.PowerStates : Prop :=
  (∀ (s : State) (d : Half), s.blk.hostFree = true → s.blk.pw.pend = none → s.blk.pwrState = 0 → s.blk.flag SYS_CYCLE_RUN = false →
    ∃ t, exec (.reqDoze d) s = .next t ∧ t.blk.pwrState = 1 ∧ t.blk.get PWR_STAT_RES = 0 ∧ t.blk.flag PWR_CAUSE_STATE = true ∧
      t.blk.get PWR_CTL_REQ = 1 ∧ t.blk.get PWR_CTL_HOLDENG = d.toNat / 16 % 16 ∧ t.blk.flag PWR_CTL_RETAIN = d.getLsbD 8 ∧
      t.blk.flag PWR_CTL_TIMEON = d.getLsbD 9 ∧ t.blk.flag PWR_CTL_QGATE = d.getLsbD 10 ∧ t.blk.pw.pend = none ∧
      t.blk.get PWR_STAT_DOMON = s.blk.get PWR_STAT_DOMON ∧ FrameOn pwrTouch [.pw, .tm, .host, .out] s t) ∧
  (∀ (s : State) (d : Half), s.blk.hostFree = true → s.blk.pw.pend = none → s.blk.pwrState = 1 → s.blk.flag SYS_CYCLE_RUN = false →
    ∃ t, exec (.reqRun d) s = .next t ∧ t.blk.pwrState = 0 ∧ t.blk.get PWR_STAT_RES = 0 ∧ t.blk.flag PWR_CAUSE_STATE = true ∧
      t.blk.get PWR_STAT_DOMON = s.blk.get PWR_STAT_DOMON ∧ FrameOn pwrTouch [.pw, .tm, .host, .out] s t) ∧
  (∀ (s : State) (d : Half), s.blk.hostFree = true → s.blk.pw.pend = none → s.blk.pwrState = 0 → s.blk.flag SYS_CYCLE_RUN = true →
    ∃ t, exec (.reqDoze d) s = .next t ∧ t.blk.pwrState = 0 ∧ t.blk.get PWR_STAT_RES = 1 ∧ t.blk.pw.pend = some (1, s.blk.nowNs) ∧
      FrameOn (fun a => a == PWR_CTL || a == PWR_STAT) [.pw] s t) ∧
  (∀ (s : State) (d : Half) (i : Instr), s.blk.hostFree = true →
    (i = .reqRun d ∨ i = .reqDoze d ∨ i = .reqLineHold d ∨ i = .reqStandby d ∨ i = .reqMaint d) → s.blk.pw.pend ≠ none →
    ∃ t, exec i s = .next t ∧ t.blk.get PWR_STAT_RES = 5 ∧ t.blk.pwrState = s.blk.pwrState ∧ t.blk.pw = s.blk.pw ∧
      FrameOn (fun a => a == PWR_CTL || a == PWR_STAT) [] s t) ∧
  (∀ (s : State) (d : Half) (i : Instr), s.blk.hostFree = true →
    ((i = .reqRun d ∧ s.blk.pwrState = 0) ∨ (i = .reqDoze d ∧ s.blk.pwrState = 1) ∨ (i = .reqLineHold d ∧ s.blk.pwrState = 2) ∨
      (i = .reqStandby d ∧ s.blk.pwrState = 3) ∨ (i = .reqMaint d ∧ s.blk.pwrState = 4)) → s.blk.pw.pend = none →
    ∃ t, exec i s = .next t ∧ t.blk.get PWR_STAT_RES = 0 ∧ t.blk.pwrState = s.blk.pwrState ∧ t.blk.pw = s.blk.pw ∧
      FrameOn (fun a => a == PWR_CTL || a == PWR_STAT) [] s t) ∧
  (∀ (s : State) (d : Half) (i : Instr), s.blk.hostFree = true → (i = .reqLineHold d ∨ i = .reqStandby d ∨ i = .reqMaint d) →
    s.blk.pw.pend = none → s.blk.flag PAIR_CFG_EN = true → s.blk.pwrState ≤ 1 →
    ∃ t, exec i s = .next t ∧ t.blk.get PWR_STAT_RES = 4 ∧ t.blk.pwrState = s.blk.pwrState ∧
      FrameOn (fun a => a == PWR_CTL || a == PWR_STAT) [] s t) ∧
  (∀ (s : State) (d : Half) (i : Instr), s.blk.hostFree = true → (i = .reqStandby d ∨ i = .reqMaint d) → s.blk.pw.pend = none →
    s.blk.flag PAIR_CFG_EN = false → s.blk.pwrState ≤ 1 → s.blk.flag SYS_CYCLE_RUN = true →
    ∃ t, exec i s = .next t ∧ t.blk.get PWR_STAT_RES = 2 ∧ t.blk.pwrState = s.blk.pwrState ∧
      FrameOn (fun a => a == PWR_CTL || a == PWR_STAT) [] s t) ∧
  (∀ (s : State) (d : Half) (i : Instr) (n : Nat), s.blk.hostFree = true → (i = .reqStandby d ∨ i = .reqMaint d) → s.blk.pw.pend = none →
    s.blk.flag PAIR_CFG_EN = false → s.blk.pwrState ≤ 1 → s.blk.flag SYS_CYCLE_RUN = false → n < 16 → s.blk.get (GAL_STAT_STATE n) = 3 →
    ∃ t, exec i s = .next t ∧ t.blk.get PWR_STAT_RES = 3 ∧ t.blk.pwrState = s.blk.pwrState ∧
      FrameOn (fun a => a == PWR_CTL || a == PWR_STAT) [] s t) ∧
  (∀ (s : State) (d : Half), s.blk.hostFree = true → s.blk.pw.pend = none → s.blk.flag PAIR_CFG_EN = false → s.blk.pwrState ≤ 1 →
    s.blk.flag SYS_CYCLE_RUN = false → s.blk.enginesRest →
    ∃ t, exec (.reqMaint d) s = .next t ∧ t.blk.pwrState = 4 ∧ t.blk.get PWR_STAT_RES = 0 ∧ t.blk.get PWR_STAT_DOMON = 0xFFF ∧
      t.blk.get PWR_STAT_QON = 0x1FF ∧ t.blk.flag PWR_CAUSE_STATE = true ∧ FrameOn pwrTouch [.pw, .host, .out] s t) ∧
  (∀ (s : State) (d : Half), s.blk.hostFree = true → s.blk.pw.pend = none → s.blk.pwrState = 4 → s.blk.flag CAL_BIST_RUN = true →
    ∃ t, exec (.reqRun d) s = .next t ∧ t.blk.get PWR_STAT_RES = 5 ∧ t.blk.pwrState = 4 ∧
      FrameOn (fun a => a == PWR_CTL || a == PWR_STAT) [] s t) ∧
  (∀ (s : State) (d : Half), s.blk.hostFree = true → s.blk.pw.pend = none → s.blk.flag PAIR_CFG_EN = false → s.blk.pwrState ≤ 1 →
    s.blk.flag SYS_CYCLE_RUN = false → (∀ n < 16, n ≠ d.toNat / 16 % 16 → s.blk.get (GAL_STAT_STATE n) ≠ 3) → s.blk.flw.queue = [] →
    ∃ t, exec (.reqLineHold d) s = .next t ∧ t.blk.pwrState = 2 ∧ t.blk.get PWR_STAT_RES = 0 ∧ t.blk.flag PWR_CAUSE_STATE = true ∧
      (∀ n < 32, s.blk.ringState n = 3 → t.blk.ringState n = 4) ∧ (∀ n < 32, s.blk.ringState n ≠ 3 → t.blk.ringState n = s.blk.ringState n) ∧
      (∀ k < 1536, k / 96 ≠ d.toNat / 16 % 16 → t.blk.pw.sealed.getLsbD k = true ∧ t.blk.pw.unchecked.getLsbD k = false) ∧
      (∀ k < 1538, (k / 96 = d.toNat / 16 % 16 ∨ 1536 ≤ k) → t.blk.pw.sealed.getLsbD k = s.blk.pw.sealed.getLsbD k) ∧
      s.blk.tm.phys + 1000 * nsUnit ≤ t.blk.tm.phys ∧
      (s.blk.coreOk = true → s.blk.flw.flight = [] →
        FrameOn (fun a => pwrTouch a || zrgTouch a || flwTouch a) [.pw, .tm, .rings, .flw, .sw, .macs, .trc, .host, .out] s t)) ∧
  (∀ (s : State) (d : Half) (n : Nat), s.blk.hostFree = true → s.blk.pw.pend = none → s.blk.flag PAIR_CFG_EN = false → s.blk.pwrState ≤ 1 → n < 16 →
    n ≠ d.toNat / 16 % 16 → s.blk.get (GAL_STAT_STATE n) = 3 →
    ∃ t, exec (.reqLineHold d) s = .next t ∧ t.blk.get PWR_STAT_RES = 3 ∧ t.blk.pwrState = s.blk.pwrState ∧
      FrameOn (fun a => a == PWR_CTL || a == PWR_STAT) [] s t) ∧
  (∀ (s : State) (d : Half), s.blk.hostFree = true → s.blk.pw.pend = none → s.blk.pwrState = 2 → s.blk.flag SYS_CYCLE_RUN = false →
    ∃ t, exec (.reqRun d) s = .next t ∧ t.blk.pwrState = 0 ∧ s.blk.tm.phys + 40000 * nsUnit ≤ t.blk.tm.phys ∧
      (∀ n < 32, s.blk.ringState n = 4 → t.blk.ringState n = 3 ∧ Out.control (t.blk.ringPort n false) wakePattern ∈ t.blk.out) ∧
      (∀ k < 1536, k / 96 ≠ d.toNat / 16 % 16 → s.blk.pw.sealed.getLsbD k = true →
        t.blk.pw.sealed.getLsbD k = false ∧ t.blk.pw.unchecked.getLsbD k = true) ∧
      FrameOn (fun a => pwrTouch a || within 0x1C0000 0x200000 a) [.pw, .tm, .rings, .host, .out] s t) ∧
  (∀ (s : State) (d : Half), s.blk.hostFree = true → s.blk.pw.pend = none → s.blk.flag PAIR_CFG_EN = false → s.blk.pwrState ≤ 1 →
    s.blk.flag SYS_CYCLE_RUN = false → s.blk.enginesRest → d.getLsbD 8 = false →
    ∃ t, exec (.reqStandby d) s = .next t ∧ t.blk.pwrState = 3 ∧ t.blk.get PWR_STAT_RES = 0 ∧ t.blk.flag PWR_CAUSE_STATE = true ∧
      (∀ x < 12, bitAt (t.blk.get PWR_STAT_DOMON) x = (x ≤ 1 ∨ (x = 2 ∧ d.getLsbD 9 = true) ∨
        (x = 9 ∧ s.blk.get PWR_WRING_PORTS % 2 ^ 16 ≠ 0) ∨ (x = 10 ∧ s.blk.get PWR_WRING_PORTS / 2 ^ 16 ≠ 0))) ∧
      (∀ q < 8, bitAt (t.blk.get PWR_STAT_QON) q = decide (s.blk.get PWR_WRING_PORTS / 16 ^ q % 16 ≠ 0)) ∧
      (∀ a, (domainOf a = 4 ∨ domainOf a = 5 ∨ domainOf a = 6 ∨ domainOf a = 7 ∨ domainOf a = 8 ∨ domainOf a = 11) →
        outlasts a = false → t.blk.reg a = regReset a) ∧
      t.blk.eng = Vector.replicate 16 .reset ∧ t.blk.flw = .reset ∧ t.blk.cav = s.blk.cav ∧
      (d.getLsbD 9 = true → t.blk.tm = s.blk.tm) ∧
      (d.getLsbD 9 = false → s.blk.get LAN_STAT_QUAL ≠ 15 → s.blk.domOn 2 = true →
        ∃ r, t.blk.tm.record = some r ∧ r.lt = s.blk.tm.lt ∧ r.aon = s.blk.aon) ∧
      t.pending = s.pending) ∧
  (∀ (s : State) (d : Half), s.blk.hostFree = true → s.blk.pw.pend = none → s.blk.flag PAIR_CFG_EN = false → s.blk.pwrState ≤ 1 →
    s.blk.flag SYS_CYCLE_RUN = false → s.blk.enginesRest → d.getLsbD 8 = true →
    ∃ t, exec (.reqStandby d) s = .next t ∧ t.blk.pwrState = 3 ∧ (∀ k < 1536, t.blk.pw.sealed.getLsbD k = true) ∧
      (∀ n : Fin 16, t.blk.eng[n].prog = s.blk.eng[n].prog ∧ t.blk.eng[n].data = s.blk.eng[n].data) ∧ t.pending = s.pending) ∧
  (∀ (s : State) (k : Fin 1538) (dt : Nat), s.blk.pw.unchecked.getLsbD k = true → s.blk.host.stalls = [] → s.blk.host.backlog = [] →
    ∃ t, exec (.bankCheck k true dt) s = .next t ∧ t.blk.pw.unchecked.getLsbD k = false ∧
      t.blk.get PWR_RETN_PEND = popcount t.blk.pw.unchecked.toNat 1538 ∧ t.blk.pw.lost = s.blk.pw.lost ∧
      FrameF [PWR_RETN_PEND] [.tm, .pw] s t) ∧
  (∀ (s : State) (k : Fin 1538) (dt : Nat) (n : Fin 16), s.blk.pw.unchecked.getLsbD k = true → k.val / 96 = n.val →
    s.blk.host.stalls = [] → s.blk.host.backlog = [] →
    ∃ t, exec (.bankCheck k false dt) s = .next t ∧ t.blk.pw.lost.getLsbD k = true ∧ t.blk.flag (GAL_STAT_LOST n) = true ∧
      t.blk.get PWR_RETN_BANK = k.val ∧ t.blk.get PWR_RETN_NLOST = min 2047 (s.blk.get PWR_RETN_NLOST + 1) ∧
      t.blk.flag PWR_CAUSE_RETN = true ∧
      (k.val % 96 < 64 → (∀ i < 512, t.blk.eng[n].word (512 * (k.val % 96) + i) = 0) ∧ t.blk.eng[n].data = s.blk.eng[n].data) ∧
      (64 ≤ k.val % 96 → t.blk.eng[n].prog = s.blk.eng[n].prog ∧
        ∀ i < 512, sget (fun _ => (0 : Word)) t.blk.eng[n].data (512 * (k.val % 96 - 64) + i) = 0) ∧
      (∀ m : Fin 16, m ≠ n → t.blk.eng[m] = s.blk.eng[m]) ∧
      FrameF [PWR_RETN_PEND, PWR_RETN_BANK, PWR_RETN_NLOST, PWR_CAUSE_RETN, GAL_STAT_LOST n, EVT_PEND_PEND, EVT_OVR_OVR]
        [.tm, .pw, .eng] s t) ∧
  (∀ (s : State) (q : Fin 9), s.blk.pw.quadAcc.getLsbD q = true →
    ∃ t, exec (.quadIdleOff q) s = .next t ∧ t.blk.pw.quadAcc.getLsbD q = false ∧
      s.blk.pw.quadAt[q] + 10000000 * nsUnit ≤ t.blk.tm.phys ∧
      (s.blk.pwrState = 0 → s.blk.flag PWR_CTL_QGATE = true → q.val < 8 → (∀ i < 4, s.blk.flag (MAC_CTL_EN (4 * q.val + i)) = false) →
        bitAt (t.blk.get PWR_STAT_QON) q = false) ∧
      Frame [PWR_STAT_QON] [.tm, .pw] s t) ∧
  (∀ (s : State), s.blk.hostFree = true → ∃ t, exec .retnClr s = .next t ∧ t.blk.get PWR_RETN_BANK = 0 ∧ t.blk.get PWR_RETN_NLOST = 0 ∧
      Frame [PWR_RETN_BANK, PWR_RETN_NLOST] [] s t)

/-- R130, R264, R508, R534 to R536, R542 to R546: the module wakes, mains fail, recover or are shed, PD0 passes to the cell, and THERM is
raised.
Choices and readings of the model: log entries 56 and 58. -/
def Obligations.PowerEvents : Prop :=
  (∀ (s : State) (w : WakeSrc) (dt : Nat), s.blk.pwrState = 3 → (s.blk.advanceNs dt).wakes w = true → s.blk.host.held = [] →
    s.blk.profile ≠ 3 →
    ∃ t, exec (.wake [w] dt) s = .next t ∧ t.blk.get PWR_CAUSE_WSRC = w.code.val ∧ t.blk.flag PWR_CAUSE_WAKE = true ∧
      t.blk.pwrState = s.blk.get PWR_WEN_TARGET ∧ t.blk.get PWR_STAT_DOMON = 0xFFF ∧ t.blk.pw.intLow = true ∧
      t.blk.flag PWR_CAUSE_STATE = true ∧
      (s.blk.domOn 2 = false → t.blk.pllState 0 = 4 ∧ t.blk.pllState 1 = 4 ∧ (∀ r, s.blk.tm.record = some r → t.blk.tm.restored = true)) ∧
      (s.blk.get PWR_WEN_TARGET = 0 → ∀ k < 1536, s.blk.pw.sealed.getLsbD k = true → t.blk.pw.unchecked.getLsbD k = true) ∧
      t.pending = s.pending) ∧
  (∀ (s : State) (w v : WakeSrc) (dt : Nat), s.blk.pwrState = 3 → (s.blk.advanceNs dt).wakes w = true → (s.blk.advanceNs dt).wakes v = true →
    w.code.val < v.code.val → s.blk.host.held = [] →
    ∃ t, exec (.wake [v, w] dt) s = .next t ∧ t.blk.get PWR_CAUSE_WSRC = w.code.val) ∧
  (∀ (s : State) (ws : List WakeSrc) (dt : Nat), s.blk.pwrState = 3 → (∀ w ∈ ws, w.code.val = 0 ∨ bitAt (s.blk.get PWR_WEN_SRC) (w.code.val - 1) = false) →
    ∃ t, exec (.wake ws dt) s = .next t ∧ t.blk.pwrState = 3 ∧ Frame [] [.tm] s t) ∧
  (∀ (s : State) (p : Fin 32) (dt : Nat), s.blk.pwrState = 3 → bitAt (s.blk.get PWR_WEN_SRC) 2 = true →
    bitAt (s.blk.get PWR_WRING_PORTS) p = true → s.blk.host.held = [] →
    ∃ t, exec (.wakePattern p dt) s = .next t ∧ t.blk.get PWR_CAUSE_WSRC = 3 ∧ t.blk.flag PWR_CAUSE_WAKE = true ∧
      t.blk.pwrState = s.blk.get PWR_WEN_TARGET ∧ t.blk.pw.intLow = true) ∧
  (∀ (s : State) (dt : Nat), s.blk.pw.failAt = none → s.blk.pw.shed = false → s.blk.pwrState ≠ 5 →
    ∃ t, exec (.pwrFail dt) s = .next t ∧ t.blk.flag PWR_STAT_MAINS = false ∧ t.blk.flag PWR_CAUSE_FAIL = true ∧
      t.blk.pw.failAt = some t.blk.tm.phys ∧ t.blk.pair.fence = true ∧ t.blk.pair.alive = false ∧ t.blk.pair.failSeen = true ∧
      (s.blk.pair.linked = true → Out.rope s.blk.pair.txSeq (.control .pwrFail) (s.blk.ropeWire (.control .pwrFail)) ∈ t.blk.out) ∧
      FrameOn (fun a => pwrTouch a || a == SYS_RST || a == PAIR_CNT 0 || a == STS_HALFSUM) [.tm, .pw, .pair, .host, .out] s t) ∧
  (∀ (s : State) (dt u : Nat), s.blk.pw.failAt = some u → s.blk.pw.shed = false →
    s.blk.tm.phys + dt * nsUnit < u + s.blk.get PWR_HOLD_SHED * 1000000 * nsUnit →
    ∃ t, exec (.mainsRecover dt) s = .next t ∧ t.blk.flag PWR_STAT_MAINS = true ∧ t.blk.flag PWR_CAUSE_RECOVER = true ∧
      t.blk.pw.failAt = none ∧ (s.blk.flag PAIR_CFG_EN = false → t.blk.pair.fence = false) ∧
      (s.blk.flag PAIR_CFG_EN = true → t.blk.pair = s.blk.pair) ∧ t.blk.get PWR_STAT_DOMON = s.blk.get PWR_STAT_DOMON ∧
      t.blk.pwrState = s.blk.pwrState ∧
      Frame [PWR_STAT_MAINS, PWR_CAUSE_RECOVER, EVT_PEND_PEND, EVT_OVR_OVR] [.tm, .pw, .pair, .host, .out] s t) ∧
  (∀ (s : State) (u : Nat), s.blk.pw.failAt = some u → s.blk.pw.shed = false →
    ∃ t, exec .shed s = .next t ∧ t.blk.pw.shed = true ∧ t.blk.get PWR_STAT_DOMON = 3 ∧ t.blk.get PWR_STAT_QON = 0 ∧
      t.blk.get PWR_LAST_STATE = s.blk.pwrState ∧ t.blk.get PWR_LAST_FAILS = min 65535 (s.blk.get PWR_LAST_FAILS + 1) ∧
      u + s.blk.get PWR_HOLD_SHED * 1000000 * nsUnit ≤ t.blk.tm.phys ∧ t.blk.pw.pend = none ∧ t.blk.cav.mem = [] ∧
      t.blk.eng = Vector.replicate 16 .reset ∧
      (s.blk.domOn 2 = true → s.blk.get LAN_STAT_QUAL ≠ 15 → t.blk.tm.record ≠ none) ∧ t.pending = s.pending) ∧
  (∀ (s : State) (dt : Nat), s.blk.pw.shed = true → s.blk.pwrState ≠ 5 →
    ∃ t, exec (.cellSwitchover dt) s = .next t ∧ t.blk.pwrState = 5 ∧ t.blk.get PWR_STAT_DOMON = 1 ∧ t.blk.flag PWR_LAST_BKUP = true ∧
      t.blk.pw.cell = true ∧ t.blk.pw.sealed.getLsbD 1536 = true ∧ t.blk.pw.sealed.getLsbD 1537 = true ∧
      Frame [PWR_LAST_BKUP, PWR_STAT_STATE, PWR_STAT_DOMON, PWR_RETN_PEND] [.tm, .pw] s t) ∧
  (∀ (s : State) (die base : BitVec 8) (dt : Nat), s.blk.pw.dieLevel = none → s.blk.pw.baseLevel = none →
    ∃ t, exec (.therm die base dt) s = .next t ∧ t.blk.get PWR_THERM_DIE = die.toNat ∧ t.blk.get PWR_THERM_BASE = base.toNat ∧
      t.blk.flag PWR_CAUSE_THERM = (s.blk.flag PWR_CAUSE_THERM || decide (s.blk.geti PWR_THERM_LIMIT < die.toInt) || decide (70 < base.toInt)) ∧
      t.blk.pwrState = s.blk.pwrState ∧
      Frame [PWR_THERM_DIE, PWR_THERM_BASE, PWR_CAUSE_THERM, EVT_PEND_PEND, EVT_OVR_OVR] [.tm, .pw, .host, .out] s t) ∧
  (∀ (s : State) (die base : BitVec 8) (dt : Nat) (l : Int), s.blk.pw.dieLevel = some l → s.blk.pw.baseLevel = none → base.toInt ≤ 70 →
    ∃ t, exec (.therm die base dt) s = .next t ∧ (t.blk.pw.dieLevel = if die.toInt ≤ l - 5 then none else some l) ∧
      t.blk.flag PWR_CAUSE_THERM = s.blk.flag PWR_CAUSE_THERM ∧ Frame [PWR_THERM_DIE, PWR_THERM_BASE] [.tm, .pw] s t)

/-! ### Security -/

/-- R551 to R564: keys are written, cleared and erased, a challenge is answered, tamper sources log, lock and erase, and fuse slots
are programmed and revoked.
Choices and readings of the model: log entries 59 and 77. -/
def Obligations.Security : Prop :=
  (∀ (s : State) (k : Nat), s.blk.hostFree = true → s.blk.flag SEC_STAT_LOCKED = false → s.blk.flag SEC_STAT_ERASING = false →
    s.blk.get SEC_KSEL_SLOT = k →
    ∃ t, exec .keyWrite s = .next t ∧ t.blk.get (SEC_KSTAT_STATE k) = 1 ∧ t.blk.get (SEC_KSTAT_USE k) = s.blk.get SEC_KSEL_USE ∧
      t.blk.get (SEC_KSTAT_KCV k) = natOfBytesBE ((sha256 (keyBytes s.blk.keyData)).take 2) % 2 ^ 16 ∧
      t.blk.get (SEC_KSTAT_WCNT k) = min 65535 (s.blk.get (SEC_KSTAT_WCNT k) + 1) ∧
      (t.blk.sec.keys[k]? = some s.blk.keyData) ∧ (∀ m, m ≠ k → t.blk.sec.keys[m]? = s.blk.sec.keys[m]?) ∧
      t.blk.flag SEC_KCTL_REFUSED = false ∧ (∀ j < 4, t.blk.reg (SEC_KDATA j) = 0) ∧
      Frame [SEC_KSTAT_STATE k, SEC_KSTAT_USE k, SEC_KSTAT_KCV k, SEC_KSTAT_WCNT k, SEC_KCTL_REFUSED, ⟨SEC_KDATA 0, 0, 72⟩,
        ⟨SEC_KDATA 1, 0, 72⟩, ⟨SEC_KDATA 2, 0, 72⟩, ⟨SEC_KDATA 3, 0, 72⟩] [.sec] s t) ∧
  (∀ (s : State), s.blk.hostFree = true → s.blk.flag SEC_STAT_LOCKED = true ∨ s.blk.flag SEC_STAT_ERASING = true →
    ∃ t, exec .keyWrite s = .next t ∧ t.blk.flag SEC_KCTL_REFUSED = true ∧ Frame [SEC_KCTL_REFUSED] [] s t) ∧
  (∀ (s : State) (k : Nat), s.blk.hostFree = true → s.blk.flag SEC_STAT_LOCKED = false → s.blk.flag SEC_STAT_ERASING = false →
    s.blk.get SEC_KSEL_SLOT = k →
    ∃ t, exec .keyClear s = .next t ∧ t.blk.get (SEC_KSTAT_STATE k) = 0 ∧ t.blk.sec.keys[k]? = some 0 ∧
      (∀ m, m ≠ k → t.blk.sec.keys[m]? = s.blk.sec.keys[m]?) ∧ t.blk.flag SEC_KCTL_REFUSED = false ∧
      Frame [SEC_KSTAT_STATE k, SEC_KCTL_REFUSED] [.sec] s t) ∧
  (∀ (s : State), s.blk.hostFree = true → s.blk.flag SEC_STAT_LOCKED = true →
    ∃ t, exec .keyClear s = .next t ∧ t.blk.flag SEC_KCTL_REFUSED = true ∧ Frame [SEC_KCTL_REFUSED] [] s t) ∧
  (∀ (s : State) (d : Half) (m : List Byte), s.blk.hostFree = true → s.blk.get (SEC_KSTAT_STATE (d.toNat % 16)) = 1 → s.blk.get (SEC_KSTAT_USE (d.toNat % 16)) = 2 →
    s.blk.flag SEC_STAT_LOCKED = false → s.blk.sec.mirrorBad = false →
    m = hmac256 (keyBytes (s.blk.sec.keys[d.toNat % 16]?.getD 0)) ((List.range 4).flatMap (fun j => bytesBE (s.blk.get (SEC_CHAL_DATA j)) 8)) →
    ∃ t, exec (.challengeGo d) s = .next t ∧ t.blk.get SEC_CHCTL_SLOT = d.toNat % 16 ∧ t.blk.flag SEC_CHCTL_DONE = true ∧
      t.blk.flag SEC_CHCTL_FAIL = false ∧ t.blk.get (SEC_RESP_RESP 0) = natOfBytesBE (m.take 8) % 2 ^ 64 ∧
      t.blk.get (SEC_RESP_RESP 1) = natOfBytesBE ((m.drop 8).take 8) % 2 ^ 64 ∧
      Frame [SEC_CHCTL_SLOT, SEC_CHCTL_DONE, SEC_CHCTL_FAIL, SEC_RESP_RESP 0, SEC_RESP_RESP 1] [] s t) ∧
  (∀ (s : State) (d : Half), s.blk.hostFree = true → (s.blk.get (SEC_KSTAT_STATE (d.toNat % 16)) ≠ 1 ∨ s.blk.get (SEC_KSTAT_USE (d.toNat % 16)) ≠ 2 ∨
      s.blk.flag SEC_STAT_LOCKED = true ∨ s.blk.sec.mirrorBad = true) →
    ∃ t, exec (.challengeGo d) s = .next t ∧ t.blk.flag SEC_CHCTL_FAIL = true ∧ t.blk.get (SEC_RESP_RESP 0) = 0 ∧
      t.blk.get (SEC_RESP_RESP 1) = 0 ∧
      Frame [SEC_CHCTL_SLOT, SEC_CHCTL_DONE, SEC_CHCTL_FAIL, SEC_RESP_RESP 0, SEC_RESP_RESP 1] [] s t) ∧
  (∀ (s : State) (dt : Nat), ∃ t, exec (.mirrorRebuild dt) s = .next t ∧ t.blk.sec.mirrorBad = false ∧
      t.blk.sec.keys = s.blk.sec.keys ∧ Frame [] [.tm, .sec] s t) ∧
  (∀ (s : State) (x : Fin 7) (lv : BitVec 7) (dt : Nat), s.blk.pwrState ≠ 5 → lv = s.blk.sec.acted ||| BitVec.ofNat 7 (2 ^ x.val) →
    s.blk.sec.acted.getLsbD x = false →
    ∃ t, exec (.tamper lv dt) s = .next t ∧ t.blk.flag SEC_CAUSE_TAMPER = true ∧ t.blk.get SEC_CAUSE_SRC = x.val ∧
      t.blk.get SEC_STAT_LEVEL = lv.toNat ∧ t.blk.sec.acted = lv ∧
      sget (fun _ => LogEnt.blank) t.blk.sec.log (s.blk.get SEC_LOGCTL_NEXT) = (s.blk.advanceNs dt).logEntry x (s.blk.tamperAct x) ∧
      t.blk.get SEC_LOGCTL_NEXT = (s.blk.get SEC_LOGCTL_NEXT + 1) % 16 ∧
      (s.blk.get SEC_LOGCTL_COUNT < 16 → t.blk.get SEC_LOGCTL_COUNT = s.blk.get SEC_LOGCTL_COUNT + 1 ∧
        t.blk.get SEC_LOGCTL_LOST = s.blk.get SEC_LOGCTL_LOST) ∧
      (s.blk.get SEC_LOGCTL_COUNT = 16 → t.blk.get SEC_LOGCTL_LOST = min 65535 (s.blk.get SEC_LOGCTL_LOST + 1)) ∧
      (s.blk.tamperAct x = 0 → t.blk.flag SEC_STAT_LOCKED = s.blk.flag SEC_STAT_LOCKED ∧ t.blk.sec.keys = s.blk.sec.keys) ∧
      (s.blk.tamperAct x = 1 → t.blk.flag SEC_STAT_LOCKED = true ∧ t.blk.sec.keys = s.blk.sec.keys) ∧
      (s.blk.tamperAct x = 2 → t.blk.flag SEC_STAT_LOCKED = s.blk.flag SEC_STAT_LOCKED ∧ t.blk.flag SEC_CAUSE_ERASED = true ∧
        t.blk.sec.keys = Vector.replicate 16 0 ∧ t.blk.sec.ropeKey = none ∧ ∀ k < 16, t.blk.get (SEC_KSTAT_STATE k) = 2) ∧
      FrameOn (fun a => within 0x410000 0x410200 a || logTouch a || evTouch a) [.tm, .sec, .host, .out] s t) ∧
  (∀ (s : State) (lv : BitVec 7) (dt : Nat), s.blk.watched lv &&& ~~~s.blk.sec.acted = 0 →
    ∃ t, exec (.tamper lv dt) s = .next t ∧ t.blk.get SEC_STAT_LEVEL = (s.blk.watched lv).toNat ∧ t.blk.sec.acted = s.blk.watched lv ∧
      t.blk.sec.keys = s.blk.sec.keys ∧ Frame [SEC_STAT_LEVEL] [.tm, .sec] s t) ∧
  (∀ (s : State), s.blk.hostFree = true → (∀ x < 7, bitAt (s.blk.get SEC_STAT_LEVEL) x = true → s.blk.tamperAct x = 0) →
    ∃ t, exec .secUnlock s = .next t ∧ t.blk.flag SEC_STAT_LOCKED = false ∧ Frame [SEC_STAT_LOCKED] [] s t) ∧
  (∀ (s : State) (x : Nat), s.blk.hostFree = true → x < 7 → bitAt (s.blk.get SEC_STAT_LEVEL) x = true → s.blk.tamperAct x ≠ 0 →
    ∃ t, exec .secUnlock s = .next t ∧ Frame [] [] s t) ∧
  (∀ (s : State), s.blk.hostFree = true → ∃ t, exec .softErase s = .next t ∧ t.blk.sec.keys = Vector.replicate 16 0 ∧ t.blk.sec.ropeKey = none ∧
      (∀ k < 16, t.blk.get (SEC_KSTAT_STATE k) = 2) ∧ t.blk.flag SEC_CAUSE_ERASED = true ∧ t.blk.flag SEC_CAUSE_TAMPER = true ∧
      t.blk.get SEC_CAUSE_SRC = 7 ∧
      sget (fun _ => LogEnt.blank) t.blk.sec.log (s.blk.get SEC_LOGCTL_NEXT) = s.blk.logEntry 7 2 ∧
      t.blk.flag SEC_STAT_LOCKED = s.blk.flag SEC_STAT_LOCKED ∧
      FrameOn (fun a => a == SEC_CAUSE || within 0x410100 0x410200 a || logTouch a || evTouch a) [.sec, .host, .out] s t) ∧
  (∀ (s : State) (dt : Nat), s.blk.pwrState = 5 →
    ∃ t, exec (.brownout dt) s = .next t ∧ t.blk.sec.keys = SecSt.reset.keys ∧ (∀ k < 16, t.blk.get (SEC_KSTAT_STATE k) = 2) ∧
      t.blk.get SEC_LOGCTL_COUNT = 1 ∧ t.blk.get SEC_LOGCTL_NEXT = 1 ∧ (sget (fun _ => LogEnt.blank) t.blk.sec.log 0).src = 8 ∧
      t.blk.pw.brown = true ∧ (∀ a, fuseReg a = true → t.blk.reg a = s.blk.reg a) ∧
      FrameOn (fun a => secReg a) [.tm, .sec, .pw] s t) ∧
  (∀ (s : State), s.blk.hostFree = true → ∃ t, exec .logClr s = .next t ∧ t.blk.sec.log = [] ∧ t.blk.get SEC_LOGCTL_COUNT = 0 ∧ t.blk.get SEC_LOGCTL_NEXT = 0 ∧
      t.blk.get SEC_LOGCTL_LOST = 0 ∧ FrameOn logTouch [.sec] s t) ∧
  (∀ (s : State) (d : Half), s.blk.hostFree = true → s.blk.get SEC_FCTL_FSTAT ≠ 1 → d.toNat / 16 % 256 = 0xA5 → d.getLsbD 3 = false →
    s.blk.flag SYS_CYCLE_RUN = false → s.blk.get (SEC_FUSE_STATE (d.toNat % 4)) = 0 →
    ∃ t, exec (.fuseProg d) s = .next t ∧ t.blk.get SEC_FCTL_FSTAT = 1 ∧ t.blk.sec.fuse = some (d.toNat % 4, true) ∧
      t.blk.get SEC_FCTL_SLOT = d.toNat % 4 ∧ t.blk.get SEC_FCTL_CONFIRM = 0xA5 ∧
      Frame [SEC_FCTL_SLOT, SEC_FCTL_CONFIRM, SEC_FCTL_FSTAT] [.sec] s t) ∧
  (∀ (s : State) (d : Half), s.blk.hostFree = true → s.blk.get SEC_FCTL_FSTAT ≠ 1 →
    (d.toNat / 16 % 256 ≠ 0xA5 ∨ s.blk.flag SYS_CYCLE_RUN = true ∨ s.blk.get (SEC_FUSE_STATE (d.toNat % 4)) ≠ 0 ∨ d.getLsbD 3 = true) →
    ∃ t, exec (.fuseProg d) s = .next t ∧ t.blk.get SEC_FCTL_FSTAT = 3 ∧ t.blk.sec = s.blk.sec ∧
      Frame [SEC_FCTL_SLOT, SEC_FCTL_CONFIRM, SEC_FCTL_FSTAT] [] s t) ∧
  (∀ (s : State) (d : Half) (j : Nat), s.blk.hostFree = true → s.blk.get SEC_FCTL_FSTAT ≠ 1 → d.toNat / 16 % 256 = 0xA5 → d.getLsbD 2 = false →
    s.blk.flag SYS_CYCLE_RUN = false → s.blk.get (SEC_FUSE_STATE (d.toNat % 4)) = 1 → j < 4 → j ≠ d.toNat % 4 →
    s.blk.get (SEC_FUSE_STATE j) = 1 →
    ∃ t, exec (.fuseRevoke d) s = .next t ∧ t.blk.get SEC_FCTL_FSTAT = 1 ∧ t.blk.sec.fuse = some (d.toNat % 4, false) ∧
      Frame [SEC_FCTL_SLOT, SEC_FCTL_CONFIRM, SEC_FCTL_FSTAT] [.sec] s t) ∧
  (∀ (s : State) (d : Half), s.blk.hostFree = true → s.blk.get SEC_FCTL_FSTAT ≠ 1 → (∀ j < 4, j ≠ d.toNat % 4 → s.blk.get (SEC_FUSE_STATE j) ≠ 1) →
    ∃ t, exec (.fuseRevoke d) s = .next t ∧ t.blk.get SEC_FCTL_FSTAT = 3 ∧ t.blk.sec = s.blk.sec ∧
      Frame [SEC_FCTL_SLOT, SEC_FCTL_CONFIRM, SEC_FCTL_FSTAT] [] s t) ∧
  (∀ (s : State) (k : Fin 4) (dt : Nat), s.blk.sec.fuse = some (k.val, true) →
    ∃ t, exec (.fuseDone dt) s = .next t ∧ t.blk.get SEC_FCTL_FSTAT = 2 ∧ t.blk.get (SEC_FUSE_STATE k) = 1 ∧
      (∀ j < 4, t.blk.get (SEC_FP_FP k j) = s.blk.get (SEC_FPW_FP j)) ∧ t.blk.sec.fuse = none ∧
      Frame [SEC_FCTL_FSTAT, SEC_FUSE_STATE k, SEC_FP_FP k 0, SEC_FP_FP k 1, SEC_FP_FP k 2, SEC_FP_FP k 3] [.tm, .sec] s t) ∧
  (∀ (s : State) (k : Fin 4) (dt : Nat), s.blk.sec.fuse = some (k.val, false) →
    ∃ t, exec (.fuseDone dt) s = .next t ∧ t.blk.get SEC_FCTL_FSTAT = 2 ∧ t.blk.get (SEC_FUSE_STATE k) = 2 ∧ t.blk.sec.fuse = none ∧
      Frame [SEC_FCTL_FSTAT, SEC_FUSE_STATE k] [.tm, .sec] s t)

/-! ### Module hardware, start-up and resets -/

/-- R574, R576, R579, R580, R585, R586: the identity memory, the cages, the encoder supply, the cell, and the thermal shutdown with its
restart.
Choices and readings of the model: log entries 44, 58 and 61. -/
def Obligations.ModuleHardware : Prop :=
  (∀ (s : State) (off : BitVec 8) (len : BitVec 9), s.blk.domOn 1 = true → off.toNat + len.toNat ≤ 256 →
    ∃ t, exec (.smbusRead 0x50 off len) s = .next t ∧
      t.blk.out = Out.smbus ((List.range len.toNat).map (fun i => identByte (off.toNat + i))) :: s.blk.out ∧ Frame [] [.out] s t) ∧
  (∀ (s : State), s.blk.domOn 1 = true →
    ∃ t, exec (.smbusRead 0x50 0 16) s = .next t ∧
      t.blk.out = Out.smbus ([0x07, 0x20, BitVec.ofNat 8 Config.variant.toNat, Config.buildLevel, 0, 0, 0, 0] ++
        bytesBE Config.serial.toNat 8) :: s.blk.out ∧ Frame [] [.out] s t) ∧
  (∀ (s : State) (dev : BitVec 7) (off : BitVec 8) (len : BitVec 9), (dev ≠ 0x50 ∨ s.blk.domOn 1 = false) →
    ∃ t, exec (.smbusRead dev off len) s = .next t ∧ Frame [] [] s t) ∧
  (∀ (s : State) (q : Fin 9) (c : Fin 8) (dt : Nat), bitAt (s.blk.get SYS_HWSTAT_QPRES) q = false →
    ∃ t, exec (.moduleInsert q c dt) s = .next t ∧ bitAt (t.blk.get SYS_HWSTAT_QPRES) q = true ∧
      bitAt (t.blk.get SYS_HWSTAT_QLOW) q = decide (5 ≤ c.val) ∧ t.blk.pw.cls[q] = c.val ∧
      (∀ r < 9, r ≠ q.val → bitAt (t.blk.get SYS_HWSTAT_QPRES) r = bitAt (s.blk.get SYS_HWSTAT_QPRES) r ∧
        bitAt (t.blk.get SYS_HWSTAT_QLOW) r = bitAt (s.blk.get SYS_HWSTAT_QLOW) r) ∧
      Frame [SYS_HWSTAT_QPRES, SYS_HWSTAT_QLOW] [.tm, .pw] s t) ∧
  (∀ (s : State) (q : Fin 9) (dt : Nat), s.blk.coreOk = true →
    ∃ t, exec (.moduleRemove q dt) s = .next t ∧ bitAt (t.blk.get SYS_HWSTAT_QPRES) q = false ∧
      bitAt (t.blk.get SYS_HWSTAT_QLOW) q = false ∧ bitAt (t.blk.get SYS_HWSTAT_QOC) q = false ∧ t.blk.pw.cls[q] = 0 ∧
      (q.val < 8 → ∀ i < 4, s.blk.flag (MAC_CTL_EN (4 * q.val + i)) = true → s.blk.absent (4 * q.val + i) = false →
        t.blk.flag (MAC_STAT_LINK (4 * q.val + i)) = false ∧ t.blk.get (MAC_CAUSE_DCODE (4 * q.val + i)) = 2) ∧
      (∀ n < 33, n / 4 ≠ q.val → t.blk.flag (MAC_STAT_LINK n) = s.blk.flag (MAC_STAT_LINK n)) ∧
      FrameOn (fun a => a == SYS_HWSTAT || laneTouch a) (.pw :: laneParts) s t) ∧
  (∀ (s : State) (q : Fin 9) (dt : Nat), s.blk.coreOk = true →
    ∃ t, exec (.cageOvercurrent q dt) s = .next t ∧ bitAt (t.blk.get SYS_HWSTAT_QOC) q = true ∧ t.blk.reg SEC_CAUSE = s.blk.reg SEC_CAUSE ∧
      bitAt (t.blk.get EVT_PEND_PEND) evAlarm = true ∧
      (∀ r < 9, r ≠ q.val → bitAt (t.blk.get SYS_HWSTAT_QOC) r = bitAt (s.blk.get SYS_HWSTAT_QOC) r) ∧
      (q.val < 8 → ∀ i < 4, s.blk.flag (MAC_CTL_EN (4 * q.val + i)) = true → s.blk.absent (4 * q.val + i) = false →
        t.blk.flag (MAC_STAT_LINK (4 * q.val + i)) = false ∧ t.blk.get (MAC_CAUSE_DCODE (4 * q.val + i)) = 5) ∧
      (∀ n < 33, n / 4 ≠ q.val → t.blk.flag (MAC_STAT_LINK n) = s.blk.flag (MAC_STAT_LINK n)) ∧
      FrameOn (fun a => a == SYS_HWSTAT || laneTouch a) laneParts s t) ∧
  (∀ (s : State) (m : BitVec 9), s.blk.hostFree = true → ∃ t, exec (.cageOcClear m) s = .next t ∧
      (∀ q < 9, bitAt (t.blk.get SYS_HWSTAT_QOC) q = (bitAt (s.blk.get SYS_HWSTAT_QOC) q && !m.getLsbD q)) ∧
      Frame [SYS_HWSTAT_QOC] [] s t) ∧
  (∀ (s : State) (short : Bool), ∃ t, exec (.encSupplyRetry short) s = .next t ∧
      t.blk.pw.enc5v = (s.blk.flag SYS_IOCFG_ESUP && !short) ∧ s.blk.tm.phys + 100000000 * nsUnit ≤ t.blk.tm.phys ∧
      Frame [] [.tm, .pw] s t) ∧
  (∀ (s : State) (mv : BitVec 12), ∃ t, exec (.cellMeasure mv) s = .next t ∧ t.blk.get SYS_HWSTAT_VCELL = mv.toNat ∧
      s.blk.tm.phys < t.blk.tm.phys ∧ t.blk.tm.phys ≤ s.blk.tm.phys + 10 ^ 10 * nsUnit ∧ Frame [SYS_HWSTAT_VCELL] [.tm] s t) ∧
  (∀ (s : State) (die base : BitVec 8) (dt : Nat), (80 ≤ base.toInt ∨ 120 ≤ die.toInt) → s.blk.pw.shed = false → s.blk.pwrState ≠ 5 →
    ∃ t, exec (.thermalShutdown die base dt) s = .next t ∧ t.blk.get SYS_HWSTAT_TSHUT = min 255 (s.blk.get SYS_HWSTAT_TSHUT + 1) ∧
      t.blk.pw.shed = true ∧ t.blk.pw.heat = s.blk.pw.failAt.isNone ∧ t.blk.get PWR_STAT_DOMON = 3 ∧
      t.blk.get PWR_LAST_STATE = s.blk.pwrState ∧ t.blk.get PWR_LAST_FAILS = min 65535 (s.blk.get PWR_LAST_FAILS + 1) ∧
      t.blk.cav.mem = [] ∧ t.blk.eng = Vector.replicate 16 .reset ∧ t.pending = s.pending) ∧
  (∀ (s : State) (die base : BitVec 8) (dt : Nat), base.toInt < 80 → die.toInt < 120 →
    ∃ t, exec (.thermalShutdown die base dt) s = .next t ∧ t.blk.get PWR_STAT_DOMON = s.blk.get PWR_STAT_DOMON ∧
      Frame [PWR_THERM_DIE, PWR_THERM_BASE, PWR_CAUSE_THERM, EVT_PEND_PEND, EVT_OVR_OVR] [.tm, .pw, .host, .out] s t) ∧
  (∀ (s : State) (die base : BitVec 8) (r : Bool) (dt : Nat), s.blk.pw.shed = true → s.blk.pw.heat = true → base.toInt ≤ 65 →
    die.toInt ≤ 105 → s.blk.profile ≠ 3 → s.blk.host.held = [] →
    ∃ t, exec (.thermalRestart die base 0 0 r dt) s = .next t ∧ t.blk.pwrState = 0 ∧ t.blk.get SYS_RSTCAUSE_KIND = 2 ∧
      t.blk.get SYS_RSTCAUSE_WHY = 3 ∧ t.blk.get PWR_STAT_DOMON = 0xFFF ∧ t.blk.pw.shed = false ∧ t.pending = s.pending) ∧
  (∀ (s : State) (die base : BitVec 8) (x y : Fin 5) (r : Bool) (dt : Nat), (65 < base.toInt ∨ 105 < die.toInt ∨ s.blk.pw.heat = false) →
    ∃ t, exec (.thermalRestart die base x y r dt) s = .next t ∧ t.blk.pw.shed = s.blk.pw.shed ∧
      Frame [PWR_THERM_DIE, PWR_THERM_BASE, PWR_CAUSE_THERM, EVT_PEND_PEND, EVT_OVR_OVR] [.tm, .pw, .host, .out] s t)

/-- R590 to R599: the module starts from mains, is reset by its host in whole or but for its lines, and its supervisor image is updated.
Choices and readings of the model: log entries 8, 11, 33 and 60. -/
def Obligations.StartAndResets : Prop :=
  (∀ (s : State) (sealed : BitVec 2) (dt : Nat), s.blk.pwrState = 5 → s.blk.profile ≠ 3 → s.blk.host.held = [] →
    ∃ t, exec (.mainsOn 0 0 sealed true dt) s = .next t ∧ t.blk.pwrState = 0 ∧
      t.blk.get SYS_RSTCAUSE_KIND = (if s.blk.pw.brown then 0 else 1) ∧ t.blk.get SYS_RSTCAUSE_WHY = (if s.blk.pw.brown then 4 else 0) ∧
      t.blk.flag SYS_RSTCAUSE_RREC = !(s.blk.retRec.isEmpty) ∧ t.blk.retired = s.blk.retRec ∧ t.blk.get PWR_STAT_DOMON = 0xFFF ∧
      (∀ p : Fin 3, t.blk.pllState p = 4) ∧ t.blk.flag SYS_BOOT_RUNSRC = false ∧ t.blk.flag SYS_BOOT_SAFE = false ∧
      t.blk.get SYS_BOOT_BCODE = 0 ∧ t.blk.flag PWR_STAT_MAINS = true ∧ t.blk.flag PWR_CAUSE_STATE = true ∧ t.blk.cav.mem = [] ∧
      (∀ r, s.blk.tm.record = some r → t.blk.tm.lt = recordLt r t.blk.aon ∧ t.blk.tm.restored = true) ∧
      (sealed.getLsbD 0 = false → s.blk.pw.sealed.getLsbD 1536 = true → t.blk.sec.mirrorBad = true) ∧
      (sealed.getLsbD 1 = false → s.blk.pw.sealed.getLsbD 1537 = true → t.blk.sec.log = [] ∧ t.blk.get SEC_LOGCTL_COUNT = 0) ∧
      (s.blk.pw.brown = false → t.blk.reg PWR_LAST = s.blk.reg PWR_LAST) ∧ (s.blk.pw.brown = true → t.blk.reg PWR_LAST = regReset PWR_LAST) ∧
      t.pending = s.pending) ∧
  (∀ (s : State) (dfl fac : Fin 5) (dt : Nat), s.blk.pwrState = 5 → s.blk.profile ≠ 3 → s.blk.host.held = [] → dfl ≠ 0 →
    ∃ t, exec (.mainsOn dfl fac 3 true dt) s = .next t ∧ t.blk.pwrState = 0 ∧ t.blk.flag SYS_BOOT_RUNSRC = true ∧
      t.blk.get SYS_BOOT_BCODE = dfl.val ∧ t.blk.flag SYS_BOOT_SAFE = decide (fac ≠ 0) ∧
      t.blk.get PWR_STAT_DOMON = (if fac = 0 then 0xFFF else 0x88F) ∧
      t.blk.get SEC_AUTH_CODE = (if fac = 0 then dfl.val else fac.val)) ∧
  (∀ (s : State) (sealed : BitVec 2) (dt u : Nat), s.blk.pwrState ≠ 5 → s.blk.pw.shed = true → s.blk.pw.failAt = some u → s.blk.profile ≠ 3 →
    s.blk.host.held = [] →
    ∃ t, exec (.mainsOn 0 0 sealed true dt) s = .next t ∧ t.blk.pwrState = 0 ∧ t.blk.get SYS_RSTCAUSE_KIND = 2 ∧
      t.blk.get SYS_RSTCAUSE_WHY = 1 ∧ t.blk.get SYS_RSTCAUSE_NMOD = min 65535 (s.blk.get SYS_RSTCAUSE_NMOD + 1) ∧
      t.blk.pw.shed = false ∧ t.blk.pw.failAt = none ∧ t.blk.get PWR_STAT_DOMON = 0xFFF) ∧
  (∀ (s : State) (d : Half), s.blk.hostFree = true → d.toNat / 2 ^ 8 % 2 ^ 16 = 0xA5C3 → s.blk.flag SYS_RST_BUSY = false → s.blk.get SEC_FCTL_FSTAT ≠ 1 →
    s.blk.get SYS_BOOT_STAT ≠ 1 →
    ∃ t, exec (.moduleReset d) s = .next t ∧ t.blk.flag SYS_RST_BUSY = true ∧ t.blk.pw.kind = some 2 ∧ t.blk.get PWR_STAT_DOMON = 3 ∧
      (∀ a, 2 ≤ domainOf a → outlasts a = false → a ≠ SYS_RST → a ≠ SYS_RETIRED → a ≠ SYS_HWSTAT → t.blk.reg a = regReset a) ∧
      (∀ a, within 0x410000 0x420000 a = true → t.blk.reg a = s.blk.reg a) ∧ t.blk.sec = s.blk.sec ∧
      t.blk.eng = Vector.replicate 16 .reset ∧ t.blk.cav.mem = [] ∧ t.blk.retRec = s.blk.retRec ∧ t.blk.pair.alive = false ∧
      (s.blk.domOn 2 = true → s.blk.get LAN_STAT_QUAL ≠ 15 → ∃ r, t.blk.tm.record = some r ∧ r.lt = s.blk.tm.lt ∧ r.aon = s.blk.aon) ∧
      t.pending = s.pending) ∧
  (∀ (s : State) (d : Half), s.blk.hostFree = true → d.toNat / 2 ^ 8 % 2 ^ 16 = 0xA5C3 → s.blk.flag SYS_RST_BUSY = false → s.blk.get SEC_FCTL_FSTAT ≠ 1 →
    s.blk.get SYS_BOOT_STAT ≠ 1 →
    ∃ t, exec (.lineReset d) s = .next t ∧ t.blk.flag SYS_RST_BUSY = true ∧ t.blk.pw.kind = some 3 ∧ t.blk.flag SYS_CYCLE_RUN = false ∧
      (∀ x < 12, bitAt (t.blk.get PWR_STAT_DOMON) x = (bitAt (s.blk.get PWR_STAT_DOMON) x && (decide (x < 4) || x == 11))) ∧
      (∀ a, 4 ≤ domainOf a → domainOf a ≤ 10 → t.blk.reg a = regReset a) ∧
      (∀ a, (domainOf a = 0 ∨ domainOf a = 2 ∨ domainOf a = 11) → t.blk.reg a = s.blk.reg a) ∧
      t.blk.tm = s.blk.tm ∧ t.blk.cav = s.blk.cav ∧ t.blk.cps = s.blk.cps ∧ t.blk.sec = s.blk.sec ∧ t.blk.encs = s.blk.encs ∧
      t.blk.outs = s.blk.outs ∧ t.blk.host = s.blk.host ∧ t.blk.eng = Vector.replicate 16 .reset ∧ t.blk.pair.alive = false ∧
      t.pending = s.pending) ∧
  (∀ (s : State) (d : Half) (i : Instr), s.blk.hostFree = true → (i = .lineReset d ∨ i = .moduleReset d) → d.toNat / 2 ^ 8 % 2 ^ 16 ≠ 0xA5C3 →
    ∃ t, exec i s = .next t ∧ t.blk.flag SYS_RST_REFUSED = true ∧ Frame [SYS_RST_REFUSED] [] s t) ∧
  (∀ (s : State) (d : Half) (i : Instr), s.blk.hostFree = true → (i = .lineReset d ∨ i = .moduleReset d) →
    (s.blk.flag SYS_RST_BUSY = true ∨ s.blk.get SEC_FCTL_FSTAT = 1 ∨ s.blk.get SYS_BOOT_STAT = 1) →
    ∃ t, exec i s = .next t ∧ t.blk.flag SYS_RST_REFUSED = true ∧ Frame [SYS_RST_KEY, SYS_RST_REFUSED] [] s t) ∧
  (∀ (s : State) (dfl fac : Fin 5) (r : Bool) (dt : Nat), s.blk.pw.kind = some 3 → s.blk.pwrState ≤ 1 → s.blk.profile ≠ 3 →
    ∃ t, exec (.resetDone dfl fac r dt) s = .next t ∧ t.blk.flag SYS_RST_BUSY = false ∧ t.blk.get SYS_RSTCAUSE_KIND = 3 ∧
      t.blk.get SYS_RSTCAUSE_WHY = 2 ∧ t.blk.get SYS_RSTCAUSE_NLINE = min 65535 (s.blk.get SYS_RSTCAUSE_NLINE + 1) ∧
      t.blk.get PWR_STAT_DOMON = 0xFFF ∧ t.blk.retired = s.blk.retRec ∧ t.blk.pw.kind = none ∧ t.blk.pwrState = s.blk.pwrState ∧
      t.pending = s.pending) ∧
  (∀ (s : State) (r : Bool) (dt : Nat), s.blk.pw.kind = some 2 → s.blk.profile ≠ 3 → s.blk.host.held = [] →
    ∃ t, exec (.resetDone 0 0 r dt) s = .next t ∧ t.blk.flag SYS_RST_BUSY = false ∧ t.blk.get SYS_RSTCAUSE_KIND = 2 ∧
      t.blk.get SYS_RSTCAUSE_WHY = 2 ∧ t.blk.get SYS_RSTCAUSE_NMOD = min 65535 (s.blk.get SYS_RSTCAUSE_NMOD + 1) ∧
      t.blk.pwrState = 0 ∧ t.blk.get PWR_STAT_DOMON = 0xFFF ∧ t.blk.pllState 0 = 4 ∧ t.blk.pllState 1 = 4 ∧
      (r = true → t.blk.pllState 2 = 4) ∧ (r = false → t.blk.pllState 2 = 1) ∧ t.pending = s.pending) ∧
  (∀ (s : State) (d : Half) (b : Block) (h : Header) (hw l : List Word), s.blk.hostFree = true → s.blk.get SYS_BOOT_STAT ≠ 1 → s.blk.flag SYS_CYCLE_RUN = false →
    (s.blk.put SYS_BOOT_ADDR d.toNat).readImage (d.toNat % 2 ^ 29) 0x5953 = (b, h, hw, l, 0) → h.bare = true → b.imageAuth h hw l = 0 →
    ∃ t, exec (.bootUpdate d) s = .next t ∧ t.blk.get SYS_BOOT_STAT = 1 ∧ t.blk.get SYS_BOOT_ADDR = d.toNat % 2 ^ 29 ∧
      t.blk.cav.mem = s.blk.cav.mem ∧ t.pending = s.pending) ∧
  (∀ (s : State) (d : Half), s.blk.hostFree = true → s.blk.get SYS_BOOT_STAT ≠ 1 → s.blk.flag SYS_CYCLE_RUN = true →
    ∃ t, exec (.bootUpdate d) s = .next t ∧ t.blk.get SYS_BOOT_STAT = 4 ∧ t.blk.get SYS_BOOT_ADDR = d.toNat % 2 ^ 29 ∧
      Frame [SYS_BOOT_ADDR, SYS_BOOT_STAT] [] s t) ∧
  (∀ (s : State) (d : Half), s.blk.hostFree = true → s.blk.get SYS_BOOT_STAT ≠ 1 → s.blk.flag SYS_CYCLE_RUN = false → lastWord < d.toNat % 2 ^ 29 + 7 →
    ∃ t, exec (.bootUpdate d) s = .next t ∧ t.blk.get SYS_BOOT_STAT = 3 ∧
      Frame [SYS_BOOT_ADDR, SYS_BOOT_STAT, SYS_BOOT_BCODE, EVT_PEND_PEND, EVT_OVR_OVR] [.host, .out, .free] s t) ∧
  (∀ (s : State) (dt : Nat), s.blk.get SYS_BOOT_STAT = 1 →
    ∃ t, exec (.bootUpdateDone dt) s = .next t ∧ t.blk.get SYS_BOOT_STAT = 2 ∧ Frame [SYS_BOOT_STAT] [.tm] s t)

/-! ### Steps, update tags, invariants and encodings -/

/-- A step takes the command at the front of the queue and is that command's `exec` with the queue's rest; with no command waiting
one tick of the LANT clock passes (the model's choice, log entry 5). -/
def Obligations.StepRunsFront : Prop :=
  (∀ (s : State) (c : Instr) (rest : List Instr), s.pending = c :: rest → step s = exec c { s with pending := rest }) ∧
  (∀ (s : State), s.pending = [] → ∃ t, step s = .next t ∧ t.blk.tm.phys = s.blk.tm.phys + 2 * nsUnit ∧
    FrameOn (fun a => within 0x90000 0x91000 a || a == CLK_MAINSTAT) [.tm, .clk, .outs, .out] s t)

/-- The machine after reset: no command waits, every register reads its reset value, memories and queues are empty, no engine is
loaded, and the invariants of the model hold. The fields named carry the reset values of their register tables.
Choices and readings of the model: log entries 8, 9 and 10. -/
def Obligations.ResetState : Prop :=
  State.reset.pending = [] ∧ State.reset.cavernWf ∧ State.reset.tagsWf ∧ State.reset.blk.coreOk = true ∧
  (∀ a, State.reset.blk.reg a = regReset a) ∧ State.reset.blk.cav.mem = [] ∧ State.reset.blk.sw.frames = [] ∧
  State.reset.blk.flw.queue = [] ∧ State.reset.blk.host.journal = [] ∧ State.reset.blk.tic.queue = [] ∧ State.reset.blk.cal.queue = [] ∧
  (∀ n < 16, State.reset.blk.get (GAL_STAT_STATE n) = 0) ∧ (∀ n < 32, State.reset.blk.ringState n = 0) ∧
  (∀ l < 36, State.reset.blk.laneState l = 0) ∧ State.reset.blk.pairState = 0 ∧
  State.reset.blk.get SYS_CYCLE_PERIOD = 125 ∧ State.reset.blk.flag SYS_CYCLE_RUN = false ∧ State.reset.blk.get SYS_MSLOT_LEN = 2 ∧
  State.reset.blk.get SYS_PROFILE_ACT = 1 ∧ State.reset.blk.get EVT_EN_EN = 0 ∧ State.reset.blk.get LAN_STAT_QUAL = 15 ∧
  State.reset.blk.get CMP_STAT_STATE = 0 ∧ State.reset.blk.get CMP_STAT_SEL = 15 ∧ State.reset.blk.get TIC_CTL_TMO = 10000 ∧
  State.reset.blk.get TIC_CTL_NSTOP = 1 ∧ State.reset.blk.get CAL_CTL_AINT = 60 ∧ State.reset.blk.get CAL_SPARE_TACSP = 0xC000 ∧
  State.reset.blk.get SYS_IOCFG_TERM = 15 ∧ State.reset.blk.get PWR_HOLD_SHED = 6 ∧ State.reset.blk.get PAIR_WTR_WTR = 60 ∧
  State.reset.blk.get CLK_OUTEN_EN = 0x7FF ∧ State.reset.blk.get FLW_SHED_LEVEL = 8

/-- R61: every command answers a next state and leaves the queue as it was, and it counts each update tag by one, modulo 256, where its
register changed, or the low word of the LT value whose high word it is; where a power domain restarts, its tags read 0. Of requests
that wait and go on in one command, each counts its own changes.
Choices and readings of the model: log entry 13. -/
def Obligations.UpdateTags : Prop :=
  (∀ (c : Instr) (s : State), ∃ t, exec c s = .next t ∧ t.pending = s.pending ∧
    (drains c = false ∨ (s.blk.host.stalls = [] ∧ s.blk.host.backlog = []) → ∀ a, sget (fun _ => (0 : BitVec 8)) t.blk.utags a =
      if (powers c && restarted c s.blk t.blk a) = true then 0
      else if s.blk.tagCounts t.blk a = true then sget (fun _ => (0 : BitVec 8)) s.blk.utags a + 1
      else sget (fun _ => (0 : BitVec 8)) s.blk.utags a) ∧
    ∀ a, (powers c && restarted c s.blk t.blk a) = true → sget (fun _ => (0 : BitVec 8)) t.blk.utags a = 0) ∧
  (∀ (f g : Block → Block) (b : Block) (a : Nat),
    sget (fun _ => (0 : BitVec 8)) (Block.inTurn f g b).utags a + BitVec.ofNat 8 (b2n (b.tagCounts (g (f b)) a)) =
      sget (fun _ => (0 : BitVec 8)) (g (f b)).utags a + BitVec.ofNat 8 (b2n (b.tagCounts (f b) a)) +
        BitVec.ofNat 8 (b2n ((f b).tagCounts (g (f b)) a)))

/-- Every step keeps Cavern and the update tags in canonical form, and the switch core and the emission buffers naming only sources,
egresses and classes that exist.
Choices and readings of the model: log entry 14. -/
def Obligations.StepKeepsInvariants : Prop :=
  ∀ (s t : State), step s = .next t →
    (s.cavernWf → t.cavernWf) ∧ (s.tagsWf → t.tagsWf) ∧ (s.blk.coreOk = true → t.blk.coreOk = true)

/-- R137: the word of every instruction of the Gallery decodes to that instruction, with every field at every value, and a word whose opcode
no instruction has decodes to none. -/
def Obligations.GalleryEncoding : Prop :=
  (∀ (i : Insn), i.wf = true → decodeInsn (encodeInsn i) = some i) ∧
  (∀ (w : Word) (i : Insn), decodeInsn w = some i → i.wf = true ∧ Op.ofCode (opBits w) = some i.op) ∧
  (∀ (w : Word), Op.ofCode (opBits w) = none → decodeInsn w = none)

end Statements
end

