-- ==== Sys2Proof/Laws/Sparse.lean ====
section
/-! SUPPORT. The laws of sparse tables: what a table reads after a write, and that every write keeps
the canonical form. -/

namespace Sys2Proof.Machine

variable {α : Type}

theorem sget_sins_same (d : Nat → α) (m : SMap α) (k : Nat) (v : α) : sget d (sins m k v) k = v := by
  induction m with
  | nil => simp [sins, sget]
  | cons e r ih =>
    obtain ⟨j, w⟩ := e
    simp only [sins]
    split
    · simp [sget]
    · split
      · simp [sget]
      · rename_i h1 h2
        have : j ≠ k := fun h => h2 h.symm
        simp [sget, this, ih]

theorem sget_sins_ne (d : Nat → α) (m : SMap α) {k j : Nat} (v : α) (h : j ≠ k) :
    sget d (sins m k v) j = sget d m j := by
  induction m with
  | nil => simp [sins, sget, h.symm]
  | cons e r ih =>
    obtain ⟨i, w⟩ := e
    simp only [sins]
    split
    · simp [sget, h.symm]
    · split
      · rename_i _ hk
        subst hk
        simp [sget, h.symm]
      · simp [sget, ih]

theorem sget_filter_same (d : Nat → α) (m : SMap α) (k : Nat) :
    sget d (m.filter (fun p => p.1 ≠ k)) k = d k := by
  induction m with
  | nil => rfl
  | cons e r ih =>
    obtain ⟨j, w⟩ := e
    by_cases h : j = k
    · simpa [List.filter_cons, h] using ih
    · simpa [List.filter_cons, h, sget] using ih

theorem sget_filter_ne (d : Nat → α) (m : SMap α) {k j : Nat} (h : j ≠ k) :
    sget d (m.filter (fun p => p.1 ≠ k)) j = sget d m j := by
  induction m with
  | nil => rfl
  | cons e r ih =>
    obtain ⟨i, w⟩ := e
    by_cases hi : i = k
    · subst hi
      simpa [List.filter_cons, sget, h.symm] using ih
    · by_cases hj : i = j
      · simp [hj, h, sget]
      · simpa [List.filter_cons, hi, hj, sget] using ih

/-- A table reads back what was written at a key. -/
@[simp] theorem sget_sput_same [DecidableEq α] (d : Nat → α) (m : SMap α) (k : Nat) (v : α) :
    sget d (sput d m k v) k = v := by
  unfold sput
  split
  · rename_i h
    rw [sget_filter_same, h]
  · exact sget_sins_same d m k v

/-- A write leaves every other entry alone. -/
theorem sget_sput_ne [DecidableEq α] (d : Nat → α) (m : SMap α) {k j : Nat} (v : α) (h : j ≠ k) :
    sget d (sput d m k v) j = sget d m j := by
  unfold sput
  split
  · exact sget_filter_ne d m h
  · exact sget_sins_ne d m v h

/-- What a table reads after a write, at any key. -/
theorem sget_sput [DecidableEq α] (d : Nat → α) (m : SMap α) (k j : Nat) (v : α) :
    sget d (sput d m k v) j = if j = k then v else sget d m j := by
  by_cases h : j = k
  · subst h; simp
  · simp [h, sget_sput_ne]

/-- Entries dropped from a table read as the default. -/
theorem sget_filter (d : Nat → α) (m : SMap α) (p : Nat → Bool) (j : Nat) :
    sget d (m.filter (fun e => p e.1)) j = if p j then sget d m j else d j := by
  induction m with
  | nil => simp [sget]
  | cons e r ih =>
    obtain ⟨i, w⟩ := e
    by_cases hi : p i = true
    · by_cases hj : i = j
      · subst hj; simp [hi, sget]
      · simpa [List.filter_cons, hi, hj, sget] using ih
    · by_cases hj : i = j
      · subst hj; simpa [List.filter_cons, hi, sget] using ih
      · simpa [List.filter_cons, hi, hj, sget] using ih

theorem srising_iff (m : SMap α) : srising m = true ↔ (m.map Prod.fst).Pairwise (· < ·) := by
  induction m with
  | nil => simp [srising]
  | cons e r ih =>
    cases r with
    | nil => simp [srising]
    | cons e' r' =>
      obtain ⟨i, v⟩ := e
      obtain ⟨j, w⟩ := e'
      simp only [srising, Bool.and_eq_true, decide_eq_true_eq, ih, List.map_cons, List.pairwise_cons]
      constructor
      · rintro ⟨h, h1, h2⟩
        refine ⟨?_, h1, h2⟩
        intro a ha
        rcases List.mem_cons.mp ha with rfl | ha
        · exact h
        · exact lt_trans h (h1 a ha)
      · rintro ⟨h, h1, h2⟩
        exact ⟨h j (by simp), h1, h2⟩

theorem mem_sins (m : SMap α) (k : Nat) (v : α) (e : Nat × α) :
    e ∈ sins m k v → e = (k, v) ∨ e ∈ m := by
  induction m with
  | nil => simp [sins]
  | cons f r ih =>
    obtain ⟨j, w⟩ := f
    simp only [sins]
    split
    · simp
    · split
      · rintro h
        rcases List.mem_cons.mp h with h | h
        · exact .inl h
        · exact .inr (List.mem_cons_of_mem _ h)
      · rintro h
        rcases List.mem_cons.mp h with h | h
        · exact .inr (h ▸ List.mem_cons_self)
        · rcases ih h with h | h
          · exact .inl h
          · exact .inr (List.mem_cons_of_mem _ h)

theorem srising_sins (m : SMap α) (k : Nat) (v : α) (h : srising m = true) : srising (sins m k v) = true := by
  rw [srising_iff] at h ⊢
  induction m with
  | nil => simp [sins]
  | cons e r ih =>
    obtain ⟨j, w⟩ := e
    simp only [List.map_cons, List.pairwise_cons] at h
    simp only [sins]
    split
    · rename_i hk
      simp only [List.map_cons, List.pairwise_cons]
      refine ⟨?_, h.1, h.2⟩
      intro a ha
      rcases List.mem_cons.mp ha with rfl | ha
      · exact hk
      · exact lt_trans hk (h.1 a ha)
    · split
      · rename_i _ hk
        subst hk
        simpa using h
      · rename_i h1 h2
        simp only [List.map_cons, List.pairwise_cons]
        refine ⟨?_, ih h.2⟩
        intro a ha
        obtain ⟨e, he, rfl⟩ := List.mem_map.mp ha
        rcases mem_sins r k v e he with rfl | he
        · simp only; omega
        · exact h.1 _ (List.mem_map_of_mem he)

theorem srising_filter (m : SMap α) (p : Nat × α → Bool) (h : srising m = true) :
    srising (m.filter p) = true := by
  rw [srising_iff] at h ⊢
  exact h.sublist (List.Sublist.map _ List.filter_sublist)

/-- Every write keeps the canonical form. -/
theorem swf_sput [DecidableEq α] (d : Nat → α) (m : SMap α) (k : Nat) (v : α) (h : swf d m = true) :
    swf d (sput d m k v) = true := by
  simp only [swf, Bool.and_eq_true, List.all_eq_true, decide_eq_true_eq] at h ⊢
  unfold sput
  split
  · refine ⟨srising_filter _ _ h.1, fun e he => h.2 e (List.mem_of_mem_filter he)⟩
  · rename_i hv
    refine ⟨srising_sins _ _ _ h.1, fun e he => ?_⟩
    rcases mem_sins m k v e he with rfl | he
    · exact hv
    · exact h.2 e he

/-- Dropping entries keeps the canonical form. -/
theorem swf_filter [DecidableEq α] (d : Nat → α) (m : SMap α) (p : Nat × α → Bool) (h : swf d m = true) :
    swf d (m.filter p) = true := by
  simp only [swf, Bool.and_eq_true, List.all_eq_true, decide_eq_true_eq] at h ⊢
  exact ⟨srising_filter _ _ h.1, fun e he => h.2 e (List.mem_of_mem_filter he)⟩

/-- An empty table is canonical. -/
@[simp] theorem swf_nil [DecidableEq α] (d : Nat → α) : swf d ([] : SMap α) = true := rfl

/-- A list of writes keeps the canonical form. -/
theorem swf_sputs [DecidableEq α] (d : Nat → α) (l : List (Nat × α)) :
    ∀ m : SMap α, swf d m = true → swf d (sputs d m l) = true := by
  induction l with
  | nil => exact fun _ h => h
  | cons e r ih => exact fun m h => ih _ (swf_sput d m e.1 e.2 h)

/-- In canonical form, two tables that read alike are the same table. -/
theorem swf_tail [DecidableEq α] (d : Nat → α) (e : Nat × α) (m : SMap α) (h : swf d (e :: m) = true) :
    swf d m = true := by
  simp only [swf, Bool.and_eq_true, List.all_eq_true, decide_eq_true_eq] at h ⊢
  refine ⟨?_, fun x hx => h.2 x (List.mem_cons_of_mem _ hx)⟩
  have h1 := h.1
  rw [srising_iff] at h1 ⊢
  simp only [List.map_cons, List.pairwise_cons] at h1
  exact h1.2

end Sys2Proof.Machine
end

