-- ==== Sys2Proof/Laws/Cavern.lean ====
section
/-! SUPPORT. The laws of Cavern: what a word reads after a store, that a store leaves every other word alone, and that every
operation on its memory keeps the canonical form. -/

namespace Sys2Proof.Machine

/-! ### The canonical form -/

/-- Memory in which nothing is listed is canonical. -/
@[simp] theorem Memory.wf_nil : Memory.wf [] = true := rfl

/-- A byte write keeps the canonical form. -/
theorem Memory.wf_cavPut (m : List Host.Cell) (key : Nat) (v : Byte) (h : Memory.wf m = true) :
    Memory.wf (cavPut m key v) = true :=
  swf_sput _ m key v h

/-- A store of some bytes of a word keeps the canonical form. -/
theorem Memory.wf_cavStore (w : Nat) (l : List (Option Byte)) :
    ∀ (m : List Host.Cell) (k : Nat), Memory.wf m = true → Memory.wf (cavStore m w k l) = true := by
  induction l with
  | nil => exact fun m k h => h
  | cons o r ih =>
    intro m k h
    cases o with
    | none => exact ih m (k + 1) h
    | some v => exact ih _ (k + 1) (wf_cavPut m _ v h)

/-- A store of a whole word keeps the canonical form. -/
theorem Memory.wf_cavStoreWord (m : List Host.Cell) (w : Nat) (x : Word) (h : Memory.wf m = true) :
    Memory.wf (cavStoreWord m w x) = true :=
  wf_cavStore w _ m 0 h

/-- A copy of words keeps the canonical form. -/
theorem Memory.wf_cavCopy (n : Nat) : ∀ (m : List Host.Cell) (src dst : Nat), Memory.wf m = true →
    Memory.wf (cavCopy m src dst n) = true := by
  induction n with
  | zero => exact fun m _ _ h => h
  | succ n ih => exact fun m src dst h => ih _ _ _ (wf_cavStoreWord m dst _ h)

/-- A word write keeps the canonical form. -/
theorem Memory.wf_cavSet (b : Block) (w : Nat) (x : Word) (h : Memory.wf b.cav.mem = true) :
    Memory.wf (b.cavSet w x).cav.mem = true :=
  wf_cavStoreWord _ _ _ h

/-- A start that loses Cavern, and BIST, leave it canonical. -/
theorem Memory.wf_cleared (c : CavSt) : Memory.wf c.cleared.mem = true := rfl

/-! ### What a byte and a word read after a store -/

/-- A byte reads back what was written. -/
@[simp] theorem cavByte_cavPut_same (m : List Host.Cell) (key : Nat) (v : Byte) : cavByte (cavPut m key v) key = v :=
  sget_sput_same _ m key v

/-- A byte write leaves every other byte alone. -/
theorem cavByte_cavPut_ne (m : List Host.Cell) {key j : Nat} (v : Byte) (h : j ≠ key) :
    cavByte (cavPut m key v) j = cavByte m j :=
  sget_sput_ne _ m v h

/-- A store from byte `k` on leaves every byte outside its own alone. -/
theorem cavByte_cavStore_apart (w : Nat) (l : List (Option Byte)) :
    ∀ (m : List Host.Cell) (k key : Nat), (key < 16 * w + k ∨ 16 * w + k + l.length ≤ key) →
      cavByte (cavStore m w k l) key = cavByte m key := by
  induction l with
  | nil => exact fun m k key _ => rfl
  | cons o r ih =>
    intro m k key h
    simp only [List.length_cons] at h
    have h1 : key < 16 * w + (k + 1) ∨ 16 * w + (k + 1) + r.length ≤ key := by omega
    cases o with
    | none => exact ih m (k + 1) key h1
    | some v =>
      show cavByte (cavStore _ w (k + 1) r) key = _
      rw [ih _ (k + 1) key h1, cavByte_cavPut_ne _ _ (by omega)]

/-- What a byte reads after a store from byte `k` on. -/
theorem cavByte_cavStore (w : Nat) (l : List (Option Byte)) :
    ∀ (m : List Host.Cell) (k i : Nat), i < l.length →
      cavByte (cavStore m w k l) (16 * w + k + i) = ((l[i]?).getD none).getD (cavByte m (16 * w + k + i)) := by
  induction l with
  | nil => intro m k i h; simp at h
  | cons o r ih =>
    intro m k i h
    cases i with
    | zero =>
      cases o with
      | none => simpa [cavStore] using cavByte_cavStore_apart w r m (k + 1) (16 * w + k) (by omega)
      | some v =>
        have := cavByte_cavStore_apart w r (cavPut m (16 * w + k) v) (k + 1) (16 * w + k) (by omega)
        simpa [cavStore] using this
    | succ i =>
      have hi : i < r.length := by simpa using h
      have e : 16 * w + k + (i + 1) = 16 * w + (k + 1) + i := by omega
      cases o with
      | none => simpa [cavStore, e] using ih m (k + 1) i hi
      | some v =>
        have := ih (cavPut m (16 * w + k) v) (k + 1) i hi
        rw [e]
        show cavByte (cavStore _ w (k + 1) r) _ = _
        rw [this, cavByte_cavPut_ne _ _ (by omega)]
        simp

theorem length_bytesOf (x : Nat) (n : Nat) : ∀ k : Nat, (bytesOf x k n).length = n := by
  induction n with
  | zero => exact fun _ => rfl
  | succ n ih => exact fun k => by simp [bytesOf, ih]

theorem getElem?_bytesOf (x : Nat) (n : Nat) : ∀ k i : Nat, i < n →
    (bytesOf x k n)[i]? = some (BitVec.ofNat 8 (x / 2 ^ (8 * (k + i)))) := by
  induction n with
  | zero => intro k i h; omega
  | succ n ih =>
    intro k i h
    cases i with
    | zero => simp [bytesOf]
    | succ i =>
      have := ih (k + 1) i (by omega)
      simp only [bytesOf, List.getElem?_cons_succ, this]
      congr 4
      omega

/-- The bytes of a number spell it, up to their count. -/
theorem natOfBytes_bytesOf (x : Nat) (n : Nat) : ∀ k : Nat,
    natOfBytes (bytesOf x k n) = x / 2 ^ (8 * k) % 2 ^ (8 * n) := by
  induction n with
  | zero => intro k; simp [bytesOf, natOfBytes, Nat.mod_one]
  | succ n ih =>
    intro k
    simp only [bytesOf, natOfBytes, ih, BitVec.toNat_ofNat]
    have h1 : 2 ^ (8 * (k + 1)) = 2 ^ (8 * k) * 2 ^ 8 := by rw [← pow_add]; congr 1
    have h2 : 2 ^ (8 * (n + 1)) = 2 ^ 8 * 2 ^ (8 * n) := by rw [← pow_add]; congr 1; omega
    rw [h1, h2, ← Nat.div_div_eq_div_mul, Nat.mod_mul]
    rfl

/-- A whole word reads back byte by byte as it was stored. -/
theorem cavBytes_cavStoreWord (m : List Host.Cell) (w : Nat) (x : Word) :
    cavBytes (cavStoreWord m w x) w = bytesOf x.toNat 0 9 := by
  apply List.ext_getElem?
  intro i
  by_cases h : i < 9
  · have := cavByte_cavStore w ((bytesOf x.toNat 0 9).map some) m 0 i (by simpa [length_bytesOf] using h)
    rw [getElem?_bytesOf _ _ _ _ h]
    simp only [List.getElem?_map, getElem?_bytesOf _ _ _ _ h, Nat.add_zero] at this
    simp [cavBytes, cavStoreWord, h, this]
  · rw [List.getElem?_eq_none (by simp [cavBytes]; omega), List.getElem?_eq_none (by rw [length_bytesOf]; omega)]

/-- A word reads back what was stored. -/
@[simp] theorem cavWord_cavStoreWord_same (m : List Host.Cell) (w : Nat) (x : Word) : cavWord (cavStoreWord m w x) w = x := by
  apply BitVec.eq_of_toNat_eq
  rw [cavWord, cavBytes_cavStoreWord, natOfBytes_bytesOf]
  have := x.isLt
  simp
  omega

/-- A store of a word leaves every other word alone. -/
theorem cavWord_cavStoreWord_ne (m : List Host.Cell) {w v : Nat} (x : Word) (h : v ≠ w) :
    cavWord (cavStoreWord m w x) v = cavWord m v := by
  have e : cavBytes (cavStoreWord m w x) v = cavBytes m v := by
    apply List.map_congr_left
    intro k hk
    have hk := List.mem_range.mp hk
    apply cavByte_cavStore_apart
    simp only [List.length_map, length_bytesOf]
    omega
  rw [cavWord, e, cavWord]

/-- A word read after a word write at the same address gives the value written. -/
@[simp] theorem Block.cavGet_cavSet_same (b : Block) (w : Nat) (x : Word) : (b.cavSet w x).cavGet w = x :=
  cavWord_cavStoreWord_same _ _ _

/-- A word write leaves every word with another physical place alone. -/
theorem Block.cavGet_cavSet_ne (b : Block) {w v : Nat} (x : Word) (h : b.physWord v ≠ b.physWord w) :
    (b.cavSet w x).cavGet v = b.cavGet v :=
  cavWord_cavStoreWord_ne _ _ h

end Sys2Proof.Machine
end

