-- ==== Sys2Proof/Laws/Dispatch.lean ====
section
/-! SUPPORT. Which meaning each command has, one lemma per command. -/

namespace Sys2Proof.Machine

@[simp] theorem exec_registerWrite {r} (s : State) : exec (.registerWrite r) s = execRegisterWrite r s := rfl
@[simp] theorem exec_counterAck {a} (s : State) : exec (.counterAck a) s = execCounterAck a s := rfl
@[simp] theorem exec_cycleBoundary (s : State) : exec .cycleBoundary s = execCycleBoundary s := rfl
@[simp] theorem exec_cycleArm {data} (s : State) : exec (.cycleArm data) s = execCycleArm data s := rfl
@[simp] theorem exec_cycleRunWrite {data} (s : State) : exec (.cycleRunWrite data) s = execCycleRunWrite data s := rfl
@[simp] theorem exec_cycleTrigger (s : State) : exec .cycleTrigger s = execCycleTrigger s := rfl
@[simp] theorem exec_lwmClr (s : State) : exec .lwmClr s = execLwmClr s := rfl
@[simp] theorem exec_mslotWrite {data} (s : State) : exec (.mslotWrite data) s = execMslotWrite data s := rfl
@[simp] theorem exec_slotOpenLatest {scrub} (s : State) : exec (.slotOpenLatest scrub) s = execSlotOpenLatest scrub s := rfl
@[simp] theorem exec_idleSlotOpen {scrub} (s : State) : exec (.idleSlotOpen scrub) s = execIdleSlotOpen scrub s := rfl
@[simp] theorem exec_maintSlotClose (s : State) : exec .maintSlotClose s = execMaintSlotClose s := rfl
@[simp] theorem exec_profileGo {data} (s : State) : exec (.profileGo data) s = execProfileGo data s := rfl
@[simp] theorem exec_profileSample (s : State) : exec .profileSample s = execProfileSample s := rfl
@[simp] theorem exec_profileSampleIdle (s : State) : exec .profileSampleIdle s = execProfileSampleIdle s := rfl
@[simp] theorem exec_leanDrainDone (s : State) : exec .leanDrainDone s = execLeanDrainDone s := rfl
@[simp] theorem exec_refusedDrain (s : State) : exec .refusedDrain s = execRefusedDrain s := rfl
@[simp] theorem exec_leanExitReady (s : State) : exec .leanExitReady s = execLeanExitReady s := rfl
@[simp] theorem exec_hostReset (s : State) : exec .hostReset s = execHostReset s := rfl
@[simp] theorem exec_perstRelease (s : State) : exec .perstRelease s = execPerstRelease s := rfl
@[simp] theorem exec_configReady (s : State) : exec .configReady s = execConfigReady s := rfl
@[simp] theorem exec_unsupportedSize {off} (s : State) : exec (.unsupportedSize off) s = execUnsupportedSize off s := rfl
@[simp] theorem exec_unmappedAccess {r} (s : State) : exec (.unmappedAccess r) s = execUnmappedAccess r s := rfl
@[simp] theorem exec_poisonedRequest {addr} (s : State) : exec (.poisonedRequest addr) s = execPoisonedRequest addr s := rfl
@[simp] theorem exec_domainWakeAccess {r} (s : State) : exec (.domainWakeAccess r) s = execDomainWakeAccess r s := rfl
@[simp] theorem exec_domainReady {d} (s : State) : exec (.domainReady d) s = execDomainReady d s := rfl
@[simp] theorem exec_profileOffAccess {r} (s : State) : exec (.profileOffAccess r) s = execProfileOffAccess r s := rfl
@[simp] theorem exec_lostBankAccess {r} (s : State) : exec (.lostBankAccess r) s = execLostBankAccess r s := rfl
@[simp] theorem exec_accessStallTimeout (s : State) : exec .accessStallTimeout s = execAccessStallTimeout s := rfl
@[simp] theorem exec_journalApply (s : State) : exec .journalApply s = execJournalApply s := rfl
@[simp] theorem exec_bar2Read {off len ups} (s : State) : exec (.bar2Read off len ups) s = execBar2Read off len ups s := rfl
@[simp] theorem exec_bar2Write {off bytes ups} (s : State) : exec (.bar2Write off bytes ups) s = execBar2Write off bytes ups s := rfl
@[simp] theorem exec_dmaDescriptor {n d data ups} (s : State) : exec (.dmaDescriptor n d data ups) s = execDmaDescriptor n d data ups s := rfl
@[simp] theorem exec_dma3FrameDeliver {d ups} (s : State) : exec (.dma3FrameDeliver d ups) s = execDma3FrameDeliver d ups s := rfl
@[simp] theorem exec_dmaCplTimeout {n addr} (s : State) : exec (.dmaCplTimeout n addr) s = execDmaCplTimeout n addr s := rfl
@[simp] theorem exec_dmaCplError {n err addr} (s : State) : exec (.dmaCplError n err addr) s = execDmaCplError n err addr s := rfl
@[simp] theorem exec_dmaDisable {n prog moved} (s : State) : exec (.dmaDisable n prog moved) s = execDmaDisable n prog moved s := rfl
@[simp] theorem exec_dmaResume {n data} (s : State) : exec (.dmaResume n data) s = execDmaResume n data s := rfl
@[simp] theorem exec_hostErrClr (s : State) : exec .hostErrClr s = execHostErrClr s := rfl
@[simp] theorem exec_hostStallClr (s : State) : exec .hostStallClr s = execHostStallClr s := rfl
@[simp] theorem exec_eventOccurrence {n} (s : State) : exec (.eventOccurrence n) s = execEventOccurrence n s := rfl
@[simp] theorem exec_evtPendClear {mask} (s : State) : exec (.evtPendClear mask) s = execEvtPendClear mask s := rfl
@[simp] theorem exec_evtEnWrite {data} (s : State) : exec (.evtEnWrite data) s = execEvtEnWrite data s := rfl
@[simp] theorem exec_evtSet {mask} (s : State) : exec (.evtSet mask) s = execEvtSet mask s := rfl
@[simp] theorem exec_msixUnmask {v} (s : State) : exec (.msixUnmask v) s = execMsixUnmask v s := rfl
@[simp] theorem exec_ltCapture (s : State) : exec .ltCapture s = execLtCapture s := rfl
@[simp] theorem exec_timeStep (s : State) : exec .timeStep s = execTimeStep s := rfl
@[simp] theorem exec_timeSlew (s : State) : exec .timeSlew s = execTimeSlew s := rfl
@[simp] theorem exec_timeSet (s : State) : exec .timeSet s = execTimeSet s := rfl
@[simp] theorem exec_slewEnd (s : State) : exec .slewEnd s = execSlewEnd s := rfl
@[simp] theorem exec_axisSrcWrite {n data} (s : State) : exec (.axisSrcWrite n data) s = execAxisSrcWrite n data s := rfl
@[simp] theorem exec_axisRestart {n data} (s : State) : exec (.axisRestart n data) s = execAxisRestart n data s := rfl
@[simp] theorem exec_axisSample {n} (s : State) : exec (.axisSample n) s = execAxisSample n s := rfl
@[simp] theorem exec_encoderEdge {e a b dt} (s : State) : exec (.encoderEdge e a b dt) s = execEncoderEdge e a b dt s := rfl
@[simp] theorem exec_indexPulse {e dt} (s : State) : exec (.indexPulse e dt) s = execIndexPulse e dt s := rfl
@[simp] theorem exec_ssiFrameDone {n bits par err high} (s : State) : exec (.ssiFrameDone n bits par err high) s = execSsiFrameDone n bits par err high s := rfl
@[simp] theorem exec_mainsZeroCrossing {dt} (s : State) : exec (.mainsZeroCrossing dt) s = execMainsZeroCrossing dt s := rfl
@[simp] theorem exec_encStatClr {e} (s : State) : exec (.encStatClr e) s = execEncStatClr e s := rfl
@[simp] theorem exec_axisFaultsClr {n} (s : State) : exec (.axisFaultsClr n) s = execAxisFaultsClr n s := rfl
@[simp] theorem exec_knotArm {n} (s : State) : exec (.knotArm n) s = execKnotArm n s := rfl
@[simp] theorem exec_knotEffect {n} (s : State) : exec (.knotEffect n) s = execKnotEffect n s := rfl
@[simp] theorem exec_axisCapture {n} (s : State) : exec (.axisCapture n) s = execAxisCapture n s := rfl
@[simp] theorem exec_hostP2tGo {n data} (s : State) : exec (.hostP2tGo n data) s = execHostP2tGo n data s := rfl
@[simp] theorem exec_hostP2tDone {n} (s : State) : exec (.hostP2tDone n) s = execHostP2tDone n s := rfl
@[simp] theorem exec_waitRecompute (s : State) : exec .waitRecompute s = execWaitRecompute s := rfl
@[simp] theorem exec_aontrimWindow {ticks} (s : State) : exec (.aontrimWindow ticks) s = execAontrimWindow ticks s := rfl
@[simp] theorem exec_nop {e f u} (s : State) : exec (.nop e f u) s = execNop e f u s := rfl
@[simp] theorem exec_halt {e f u} (s : State) : exec (.halt e f u) s = execHalt e f u s := rfl
@[simp] theorem exec_calslot {e f u scrub} (s : State) : exec (.calslot e f u scrub) s = execCalslot e f u scrub s := rfl
@[simp] theorem exec_raise {e f u} (s : State) : exec (.raise e f u) s = execRaise e f u s := rfl
@[simp] theorem exec_sig {e f u} (s : State) : exec (.sig e f u) s = execSig e f u s := rfl
@[simp] theorem exec_rdprf {e f u} (s : State) : exec (.rdprf e f u) s = execRdprf e f u s := rfl
@[simp] theorem exec_addG {e f u} (s : State) : exec (.addG e f u) s = execAddG e f u s := rfl
@[simp] theorem exec_subG {e f u} (s : State) : exec (.subG e f u) s = execSubG e f u s := rfl
@[simp] theorem exec_adds {e f u} (s : State) : exec (.adds e f u) s = execAdds e f u s := rfl
@[simp] theorem exec_subs {e f u} (s : State) : exec (.subs e f u) s = execSubs e f u s := rfl
@[simp] theorem exec_mulG {e f u} (s : State) : exec (.mulG e f u) s = execMulG e f u s := rfl
@[simp] theorem exec_muls {e f u} (s : State) : exec (.muls e f u) s = execMuls e f u s := rfl
@[simp] theorem exec_mulu {e f u} (s : State) : exec (.mulu e f u) s = execMulu e f u s := rfl
@[simp] theorem exec_absG {e f u} (s : State) : exec (.absG e f u) s = execAbsG e f u s := rfl
@[simp] theorem exec_minG {e f u} (s : State) : exec (.minG e f u) s = execMinG e f u s := rfl
@[simp] theorem exec_maxG {e f u} (s : State) : exec (.maxG e f u) s = execMaxG e f u s := rfl
@[simp] theorem exec_minu {e f u} (s : State) : exec (.minu e f u) s = execMinu e f u s := rfl
@[simp] theorem exec_maxu {e f u} (s : State) : exec (.maxu e f u) s = execMaxu e f u s := rfl
@[simp] theorem exec_sat {e f u} (s : State) : exec (.sat e f u) s = execSat e f u s := rfl
@[simp] theorem exec_shl {e f u} (s : State) : exec (.shl e f u) s = execShl e f u s := rfl
@[simp] theorem exec_shr {e f u} (s : State) : exec (.shr e f u) s = execShr e f u s := rfl
@[simp] theorem exec_sar {e f u} (s : State) : exec (.sar e f u) s = execSar e f u s := rfl
@[simp] theorem exec_addi {e f u} (s : State) : exec (.addi e f u) s = execAddi e f u s := rfl
@[simp] theorem exec_movi {e f u} (s : State) : exec (.movi e f u) s = execMovi e f u s := rfl
@[simp] theorem exec_ldih {e f u} (s : State) : exec (.ldih e f u) s = execLdih e f u s := rfl
@[simp] theorem exec_shli {e f u} (s : State) : exec (.shli e f u) s = execShli e f u s := rfl
@[simp] theorem exec_shri {e f u} (s : State) : exec (.shri e f u) s = execShri e f u s := rfl
@[simp] theorem exec_sari {e f u} (s : State) : exec (.sari e f u) s = execSari e f u s := rfl
@[simp] theorem exec_ext {e f u} (s : State) : exec (.ext e f u) s = execExt e f u s := rfl
@[simp] theorem exec_ins {e f u} (s : State) : exec (.ins e f u) s = execIns e f u s := rfl
@[simp] theorem exec_andG {e f u} (s : State) : exec (.andG e f u) s = execAndG e f u s := rfl
@[simp] theorem exec_orG {e f u} (s : State) : exec (.orG e f u) s = execOrG e f u s := rfl
@[simp] theorem exec_xorG {e f u} (s : State) : exec (.xorG e f u) s = execXorG e f u s := rfl
@[simp] theorem exec_andn {e f u} (s : State) : exec (.andn e f u) s = execAndn e f u s := rfl
@[simp] theorem exec_cmp {e f u} (s : State) : exec (.cmp e f u) s = execCmp e f u s := rfl
@[simp] theorem exec_fop {e f u} (s : State) : exec (.fop e f u) s = execFop e f u s := rfl
@[simp] theorem exec_andi {e f u} (s : State) : exec (.andi e f u) s = execAndi e f u s := rfl
@[simp] theorem exec_ori {e f u} (s : State) : exec (.ori e f u) s = execOri e f u s := rfl
@[simp] theorem exec_xori {e f u} (s : State) : exec (.xori e f u) s = execXori e f u s := rfl
@[simp] theorem exec_cmpi {e f u} (s : State) : exec (.cmpi e f u) s = execCmpi e f u s := rfl
@[simp] theorem exec_ld {e f u} (s : State) : exec (.ld e f u) s = execLd e f u s := rfl
@[simp] theorem exec_st {e f u} (s : State) : exec (.st e f u) s = execSt e f u s := rfl
@[simp] theorem exec_br {e f u} (s : State) : exec (.br e f u) s = execBr e f u s := rfl
@[simp] theorem exec_callG {e f u} (s : State) : exec (.callG e f u) s = execCallG e f u s := rfl
@[simp] theorem exec_ret {e f u} (s : State) : exec (.ret e f u) s = execRet e f u s := rfl
@[simp] theorem exec_loopG {e f u} (s : State) : exec (.loopG e f u) s = execLoopG e f u s := rfl
@[simp] theorem exec_rdlt {e f u} (s : State) : exec (.rdlt e f u) s = execRdlt e f u s := rfl
@[simp] theorem exec_rdpos {e f u} (s : State) : exec (.rdpos e f u) s = execRdpos e f u s := rfl
@[simp] theorem exec_p2t {e f u} (s : State) : exec (.p2t e f u) s = execP2t e f u s := rfl
@[simp] theorem exec_waitt {e f u} (s : State) : exec (.waitt e f u) s = execWaitt e f u s := rfl
@[simp] theorem exec_waittRelease {e} (s : State) : exec (.waittRelease e) s = execWaittRelease e s := rfl
@[simp] theorem exec_waitl {e f u} (s : State) : exec (.waitl e f u) s = execWaitl e f u s := rfl
@[simp] theorem exec_waitlRelease {e} (s : State) : exec (.waitlRelease e) s = execWaitlRelease e s := rfl
@[simp] theorem exec_camq {e f u} (s : State) : exec (.camq e f u) s = execCamq e f u s := rfl
@[simp] theorem exec_camw {e f u} (s : State) : exec (.camw e f u) s = execCamw e f u s := rfl
@[simp] theorem exec_camwRelease {e} (s : State) : exec (.camwRelease e) s = execCamwRelease e s := rfl
@[simp] theorem exec_waits {e f u} (s : State) : exec (.waits e f u) s = execWaits e f u s := rfl
@[simp] theorem exec_waitsRelease {e} (s : State) : exec (.waitsRelease e) s = execWaitsRelease e s := rfl
@[simp] theorem exec_bar {e f u} (s : State) : exec (.bar e f u) s = execBar e f u s := rfl
@[simp] theorem exec_barRelease {e} (s : State) : exec (.barRelease e) s = execBarRelease e s := rfl
@[simp] theorem exec_waitTimeout {e} (s : State) : exec (.waitTimeout e) s = execWaitTimeout e s := rfl
@[simp] theorem exec_emit {e f u} (s : State) : exec (.emit e f u) s = execEmit e f u s := rfl
@[simp] theorem exec_patch {e f u} (s : State) : exec (.patch e f u) s = execPatch e f u s := rfl
@[simp] theorem exec_gate {e f u} (s : State) : exec (.gate e f u) s = execGate e f u s := rfl
@[simp] theorem exec_snap {e f u} (s : State) : exec (.snap e f u) s = execSnap e f u s := rfl
@[simp] theorem exec_cfgr {e f u} (s : State) : exec (.cfgr e f u) s = execCfgr e f u s := rfl
@[simp] theorem exec_cfgw {e f u} (s : State) : exec (.cfgw e f u) s = execCfgw e f u s := rfl
@[simp] theorem exec_emissionPathMove {e} (s : State) : exec (.emissionPathMove e) s = execEmissionPathMove e s := rfl
@[simp] theorem exec_engineLoad {n en} (s : State) : exec (.engineLoad n en) s = execEngineLoad n en s := rfl
@[simp] theorem exec_loadComplete {n ups dt} (s : State) : exec (.loadComplete n ups dt) s = execLoadComplete n ups dt s := rfl
@[simp] theorem exec_engineStart {n en} (s : State) : exec (.engineStart n en) s = execEngineStart n en s := rfl
@[simp] theorem exec_engineStartEffect {n} (s : State) : exec (.engineStartEffect n) s = execEngineStartEffect n s := rfl
@[simp] theorem exec_engineDisable {n} (s : State) : exec (.engineDisable n) s = execEngineDisable n s := rfl
@[simp] theorem exec_spareDesignate {en} (s : State) : exec (.spareDesignate en) s = execSpareDesignate en s := rfl
@[simp] theorem exec_engineRetireClear {n} (s : State) : exec (.engineRetireClear n) s = execEngineRetireClear n s := rfl
@[simp] theorem exec_ddataCapture {n data} (s : State) : exec (.ddataCapture n data) s = execDdataCapture n data s := rfl
@[simp] theorem exec_ddataWrite {n hi data} (s : State) : exec (.ddataWrite n hi data) s = execDdataWrite n hi data s := rfl
@[simp] theorem exec_galHdiscClr {n} (s : State) : exec (.galHdiscClr n) s = execGalHdiscClr n s := rfl
@[simp] theorem exec_galRcodeClr {n} (s : State) : exec (.galRcodeClr n) s = execGalRcodeClr n s := rfl
@[simp] theorem exec_galSlackClr {n} (s : State) : exec (.galSlackClr n) s = execGalSlackClr n s := rfl
@[simp] theorem exec_batchDispatch {chk ups} (s : State) : exec (.batchDispatch chk ups) s = execBatchDispatch chk ups s := rfl
@[simp] theorem exec_segmentFetchDone {ups} (s : State) : exec (.segmentFetchDone ups) s = execSegmentFetchDone ups s := rfl
@[simp] theorem exec_batchComplete (s : State) : exec .batchComplete s = execBatchComplete s := rfl
@[simp] theorem exec_seekDone {ups} (s : State) : exec (.seekDone ups) s = execSeekDone ups s := rfl
@[simp] theorem exec_flowstoneDisable (s : State) : exec .flowstoneDisable s = execFlowstoneDisable s := rfl
@[simp] theorem exec_switchGo {data} (s : State) : exec (.switchGo data) s = execSwitchGo data s := rfl
@[simp] theorem exec_recordWrite {win reg hi data} (s : State) : exec (.recordWrite win reg hi data) s = execRecordWrite win reg hi data s := rfl
@[simp] theorem exec_cellRetireClear {mask} (s : State) : exec (.cellRetireClear mask) s = execCellRetireClear mask s := rfl
@[simp] theorem exec_ringFrameSend {n ups} (s : State) : exec (.ringFrameSend n ups) s = execRingFrameSend n ups s := rfl
@[simp] theorem exec_ringFrameReturn {n peer f dt} (s : State) : exec (.ringFrameReturn n peer f dt) s = execRingFrameReturn n peer f dt s := rfl
@[simp] theorem exec_mailboxUp {n peer bytes dt} (s : State) : exec (.mailboxUp n peer bytes dt) s = execMailboxUp n peer bytes dt s := rfl
@[simp] theorem exec_mailboxDownSend {n ups} (s : State) : exec (.mailboxDownSend n ups) s = execMailboxDownSend n ups s := rfl
@[simp] theorem exec_mailboxEcho {n peer bytes dt} (s : State) : exec (.mailboxEcho n peer bytes dt) s = execMailboxEcho n peer bytes dt s := rfl
@[simp] theorem exec_eptSwap (s : State) : exec .eptSwap s = execEptSwap s := rfl
@[simp] theorem exec_eptCopyDone (s : State) : exec .eptCopyDone s = execEptCopyDone s := rfl
@[simp] theorem exec_eptWrite {data} (s : State) : exec (.eptWrite data) s = execEptWrite data s := rfl
@[simp] theorem exec_eptRead {data} (s : State) : exec (.eptRead data) s = execEptRead data s := rfl
@[simp] theorem exec_ringScan {n data} (s : State) : exec (.ringScan n data) s = execRingScan n data s := rfl
@[simp] theorem exec_scanFrame {n ret} (s : State) : exec (.scanFrame n ret) s = execScanFrame n ret s := rfl
@[simp] theorem exec_scanComplete {n} (s : State) : exec (.scanComplete n) s = execScanComplete n s := rfl
@[simp] theorem exec_scanTimeout {n} (s : State) : exec (.scanTimeout n) s = execScanTimeout n s := rfl
@[simp] theorem exec_ringDisable {n data} (s : State) : exec (.ringDisable n data) s = execRingDisable n data s := rfl
@[simp] theorem exec_ringStopDone {n} (s : State) : exec (.ringStopDone n) s = execRingStopDone n s := rfl
@[simp] theorem exec_keepaliveFrame {n} (s : State) : exec (.keepaliveFrame n) s = execKeepaliveFrame n s := rfl
@[simp] theorem exec_wakePattern {p dt} (s : State) : exec (.wakePattern p dt) s = execWakePattern p dt s := rfl
@[simp] theorem exec_nodeRetireClear {n j mask} (s : State) : exec (.nodeRetireClear n j mask) s = execNodeRetireClear n j mask s := rfl
@[simp] theorem exec_wdogWrite {n data} (s : State) : exec (.wdogWrite n data) s = execWdogWrite n data s := rfl
@[simp] theorem exec_frameIngress {unwritable late} (s : State) : exec (.frameIngress unwritable late) s = execFrameIngress unwritable late s := rfl
@[simp] theorem exec_frameTransmit {p ups} (s : State) : exec (.frameTransmit p ups) s = execFrameTransmit p ups s := rfl
@[simp] theorem exec_heldCopyEnqueue (s : State) : exec .heldCopyEnqueue s = execHeldCopyEnqueue s := rfl
@[simp] theorem exec_mcHoldExpire (s : State) : exec .mcHoldExpire s = execMcHoldExpire s := rfl
@[simp] theorem exec_reseqTimeout {p c} (s : State) : exec (.reseqTimeout p c) s = execReseqTimeout p c s := rfl
@[simp] theorem exec_portDisable {p} (s : State) : exec (.portDisable p) s = execPortDisable p s := rfl
@[simp] theorem exec_fdbAge (s : State) : exec .fdbAge s = execFdbAge s := rfl
@[simp] theorem exec_fdbWrite (s : State) : exec .fdbWrite s = execFdbWrite s := rfl
@[simp] theorem exec_fdbDelete (s : State) : exec .fdbDelete s = execFdbDelete s := rfl
@[simp] theorem exec_fdbLookup (s : State) : exec .fdbLookup s = execFdbLookup s := rfl
@[simp] theorem exec_vlanWrite (s : State) : exec .vlanWrite s = execVlanWrite s := rfl
@[simp] theorem exec_vlanRead (s : State) : exec .vlanRead s = execVlanRead s := rfl
@[simp] theorem exec_streamWrite (s : State) : exec .streamWrite s = execStreamWrite s := rfl
@[simp] theorem exec_streamRead (s : State) : exec .streamRead s = execStreamRead s := rfl
@[simp] theorem exec_sliceReturn {mask} (s : State) : exec (.sliceReturn mask) s = execSliceReturn mask s := rfl
@[simp] theorem exec_spareRowClear {mask} (s : State) : exec (.spareRowClear mask) s = execSpareRowClear mask s := rfl
@[simp] theorem exec_rxFrame {n f dt} (s : State) : exec (.rxFrame n f dt) s = execRxFrame n f dt s := rfl
@[simp] theorem exec_pauseReceived {n quanta dt} (s : State) : exec (.pauseReceived n quanta dt) s = execPauseReceived n quanta dt s := rfl
@[simp] theorem exec_pfcReceived {n en times dt} (s : State) : exec (.pfcReceived n en times dt) s = execPfcReceived n en times dt s := rfl
@[simp] theorem exec_pauseExpire {n} (s : State) : exec (.pauseExpire n) s = execPauseExpire n s := rfl
@[simp] theorem exec_pauseRenew {n} (s : State) : exec (.pauseRenew n) s = execPauseRenew n s := rfl
@[simp] theorem exec_linkUp {n dt} (s : State) : exec (.linkUp n dt) s = execLinkUp n dt s := rfl
@[simp] theorem exec_linkDown {n why dt} (s : State) : exec (.linkDown n why dt) s = execLinkDown n why dt s := rfl
@[simp] theorem exec_macEnable {n} (s : State) : exec (.macEnable n) s = execMacEnable n s := rfl
@[simp] theorem exec_macDisable {n receiving} (s : State) : exec (.macDisable n receiving) s = execMacDisable n receiving s := rfl
@[simp] theorem exec_tsPop {n} (s : State) : exec (.tsPop n) s = execTsPop n s := rfl
@[simp] theorem exec_signalDetect {l dt} (s : State) : exec (.signalDetect l dt) s = execSignalDetect l dt s := rfl
@[simp] theorem exec_trainDone {l foms dt} (s : State) : exec (.trainDone l foms dt) s = execTrainDone l foms dt s := rfl
@[simp] theorem exec_lockDone {l dt} (s : State) : exec (.lockDone l dt) s = execLockDone l dt s := rfl
@[simp] theorem exec_deskewDone {l skews dt} (s : State) : exec (.deskewDone l skews dt) s = execDeskewDone l skews dt s := rfl
@[simp] theorem exec_capxDone {l m dt} (s : State) : exec (.capxDone l m dt) s = execCapxDone l m dt s := rfl
@[simp] theorem exec_stageTimeout {l} (s : State) : exec (.stageTimeout l) s = execStageTimeout l s := rfl
@[simp] theorem exec_laneLockLoss {l errs dt} (s : State) : exec (.laneLockLoss l errs dt) s = execLaneLockLoss l errs dt s := rfl
@[simp] theorem exec_lossOfSignal {l dt} (s : State) : exec (.lossOfSignal l dt) s = execLossOfSignal l dt s := rfl
@[simp] theorem exec_retrain {l} (s : State) : exec (.retrain l) s = execRetrain l s := rfl
@[simp] theorem exec_adaptMeasure {l below at_ above} (s : State) : exec (.adaptMeasure l below at_ above) s = execAdaptMeasure l below at_ above s := rfl
@[simp] theorem exec_capMessageRx {l m dt} (s : State) : exec (.capMessageRx l m dt) s = execCapMessageRx l m dt s := rfl
@[simp] theorem exec_laneRetireClear {l} (s : State) : exec (.laneRetireClear l) s = execLaneRetireClear l s := rfl
@[simp] theorem exec_laneTestGo {l data} (s : State) : exec (.laneTestGo l data) s = execLaneTestGo l data s := rfl
@[simp] theorem exec_laneTestDone {l h v errs dt} (s : State) : exec (.laneTestDone l h v errs dt) s = execLaneTestDone l h v errs dt s := rfl
@[simp] theorem exec_sscWrite {data} (s : State) : exec (.sscWrite data) s = execSscWrite data s := rfl
@[simp] theorem exec_ptpMessageRx (s : State) : exec .ptpMessageRx s = execPtpMessageRx s := rfl
@[simp] theorem exec_syncSend {n d} (s : State) : exec (.syncSend n d) s = execSyncSend n d s := rfl
@[simp] theorem exec_delayReqSend {d k} (s : State) : exec (.delayReqSend d k) s = execDelayReqSend d k s := rfl
@[simp] theorem exec_pdelayReqSend {n} (s : State) : exec (.pdelayReqSend n) s = execPdelayReqSend n s := rfl
@[simp] theorem exec_masterTimeout {d k} (s : State) : exec (.masterTimeout d k) s = execMasterTimeout d k s := rfl
@[simp] theorem exec_masterSelect {d data} (s : State) : exec (.masterSelect d data) s = execMasterSelect d data s := rfl
@[simp] theorem exec_servoEnable {d data} (s : State) : exec (.servoEnable d data) s = execServoEnable d data s := rfl
@[simp] theorem exec_domainSwitchWrite {data} (s : State) : exec (.domainSwitchWrite data) s = execDomainSwitchWrite data s := rfl
@[simp] theorem exec_steeringSwitchEnd (s : State) : exec .steeringSwitchEnd s = execSteeringSwitchEnd s := rfl
@[simp] theorem exec_loopbackGo {n data} (s : State) : exec (.loopbackGo n data) s = execLoopbackGo n data s := rfl
@[simp] theorem exec_loopbackDone {n mean rms lost dt} (s : State) : exec (.loopbackDone n mean rms lost dt) s = execLoopbackDone n mean rms lost dt s := rfl
@[simp] theorem exec_freqUpdate {pps} (s : State) : exec (.freqUpdate pps) s = execFreqUpdate pps s := rfl
@[simp] theorem exec_comparisonEdge {k stamp phase dt} (s : State) : exec (.comparisonEdge k stamp phase dt) s = execComparisonEdge k stamp phase dt s := rfl
@[simp] theorem exec_inputAbsence {k dt} (s : State) : exec (.inputAbsence k dt) s = execInputAbsence k dt s := rfl
@[simp] theorem exec_inputReturn {k stamp phase dt} (s : State) : exec (.inputReturn k stamp phase dt) s = execInputReturn k stamp phase dt s := rfl
@[simp] theorem exec_dropoutExpire {k} (s : State) : exec (.dropoutExpire k) s = execDropoutExpire k s := rfl
@[simp] theorem exec_inputQualify {k} (s : State) : exec (.inputQualify k) s = execInputQualify k s := rfl
@[simp] theorem exec_inputEnable {k data} (s : State) : exec (.inputEnable k data) s = execInputEnable k data s := rfl
@[simp] theorem exec_inputRetireClear {k} (s : State) : exec (.inputRetireClear k) s = execInputRetireClear k s := rfl
@[simp] theorem exec_selectionEval (s : State) : exec .selectionEval s = execSelectionEval s := rfl
@[simp] theorem exec_switchCommit (s : State) : exec .switchCommit s = execSwitchCommit s := rfl
@[simp] theorem exec_acquireTimeout (s : State) : exec .acquireTimeout s = execAcquireTimeout s := rfl
@[simp] theorem exec_stageAdvance (s : State) : exec .stageAdvance s = execStageAdvance s := rfl
@[simp] theorem exec_holdoverTimeout (s : State) : exec .holdoverTimeout s = execHoldoverTimeout s := rfl
@[simp] theorem exec_frtrimUpdate (s : State) : exec .frtrimUpdate s = execFrtrimUpdate s := rfl
@[simp] theorem exec_outputEnable {j data} (s : State) : exec (.outputEnable j data) s = execOutputEnable j data s := rfl
@[simp] theorem exec_alignAnchor {src dt} (s : State) : exec (.alignAnchor src dt) s = execAlignAnchor src dt s := rfl
@[simp] theorem exec_alignLoss {j} (s : State) : exec (.alignLoss j) s = execAlignLoss j s := rfl
@[simp] theorem exec_outputStep {j data} (s : State) : exec (.outputStep j data) s = execOutputStep j data s := rfl
@[simp] theorem exec_outputDropClr {j} (s : State) : exec (.outputDropClr j) s = execOutputDropClr j s := rfl
@[simp] theorem exec_bandSelect {p temp dt} (s : State) : exec (.bandSelect p temp dt) s = execBandSelect p temp dt s := rfl
@[simp] theorem exec_nobandRetry {p} (s : State) : exec (.nobandRetry p) s = execNobandRetry p s := rfl
@[simp] theorem exec_pllLockAchieved {p dt} (s : State) : exec (.pllLockAchieved p dt) s = execPllLockAchieved p dt s := rfl
@[simp] theorem exec_pllLockTimeout {p} (s : State) : exec (.pllLockTimeout p) s = execPllLockTimeout p s := rfl
@[simp] theorem exec_alignRelease {p trim dt} (s : State) : exec (.alignRelease p trim dt) s = execAlignRelease p trim dt s := rfl
@[simp] theorem exec_pllRefloss {p dt} (s : State) : exec (.pllRefloss p dt) s = execPllRefloss p dt s := rfl
@[simp] theorem exec_pllUnlock {p dt} (s : State) : exec (.pllUnlock p dt) s = execPllUnlock p dt s := rfl
@[simp] theorem exec_pllRelock (s : State) : exec .pllRelock s = execPllRelock s := rfl
@[simp] theorem exec_fullRelock (s : State) : exec .fullRelock s = execFullRelock s := rfl
@[simp] theorem exec_holdRecover {p gathered dt} (s : State) : exec (.holdRecover p gathered dt) s = execHoldRecover p gathered dt s := rfl
@[simp] theorem exec_pllSlewEnd (s : State) : exec .pllSlewEnd s = execPllSlewEnd s := rfl
@[simp] theorem exec_clockMonitor {bad} (s : State) : exec (.clockMonitor bad) s = execClockMonitor bad s := rfl
@[simp] theorem exec_clkOutenWrite {data} (s : State) : exec (.clkOutenWrite data) s = execClkOutenWrite data s := rfl
@[simp] theorem exec_ticArm {data} (s : State) : exec (.ticArm data) s = execTicArm data s := rfl
@[simp] theorem exec_ticStartEdge {src fall n c dt} (s : State) : exec (.ticStartEdge src fall n c dt) s = execTicStartEdge src fall n c dt s := rfl
@[simp] theorem exec_ticStopEdge {src fall n c dt} (s : State) : exec (.ticStopEdge src fall n c dt) s = execTicStopEdge src fall n c dt s := rfl
@[simp] theorem exec_ticTimeout (s : State) : exec .ticTimeout s = execTicTimeout s := rfl
@[simp] theorem exec_ticDisable (s : State) : exec .ticDisable s = execTicDisable s := rfl
@[simp] theorem exec_ticPop (s : State) : exec .ticPop s = execTicPop s := rfl
@[simp] theorem exec_ticStatClr (s : State) : exec .ticStatClr s = execTicStatClr s := rfl
@[simp] theorem exec_ocxoWarmChange {warm dt} (s : State) : exec (.ocxoWarmChange warm dt) s = execOcxoWarmChange warm dt s := rfl
@[simp] theorem exec_calRequest {data} (s : State) : exec (.calRequest data) s = execCalRequest data s := rfl
@[simp] theorem exec_calJobEnd {r dt} (s : State) : exec (.calJobEnd r dt) s = execCalJobEnd r dt s := rfl
@[simp] theorem exec_calAuto (s : State) : exec .calAuto s = execCalAuto s := rfl
@[simp] theorem exec_calDisable (s : State) : exec .calDisable s = execCalDisable s := rfl
@[simp] theorem exec_sliceTestTimeout (s : State) : exec .sliceTestTimeout s = execSliceTestTimeout s := rfl
@[simp] theorem exec_bistGo (s : State) : exec .bistGo s = execBistGo s := rfl
@[simp] theorem exec_bistDone {areas chans dt} (s : State) : exec (.bistDone areas chans dt) s = execBistDone areas chans dt s := rfl
@[simp] theorem exec_snapArm (s : State) : exec .snapArm s = execSnapArm s := rfl
@[simp] theorem exec_snapNow (s : State) : exec .snapNow s = execSnapNow s := rfl
@[simp] theorem exec_snapCancel (s : State) : exec .snapCancel s = execSnapCancel s := rfl
@[simp] theorem exec_snapStrobe (s : State) : exec .snapStrobe s = execSnapStrobe s := rfl
@[simp] theorem exec_snapTransferDone (s : State) : exec .snapTransferDone s = execSnapTransferDone s := rfl
@[simp] theorem exec_traceClr {data} (s : State) : exec (.traceClr data) s = execTraceClr data s := rfl
@[simp] theorem exec_traceLoad {data} (s : State) : exec (.traceLoad data) s = execTraceLoad data s := rfl
@[simp] theorem exec_perfCounterRead {a} (s : State) : exec (.perfCounterRead a) s = execPerfCounterRead a s := rfl
@[simp] theorem exec_pairEnable {data} (s : State) : exec (.pairEnable data) s = execPairEnable data s := rfl
@[simp] theorem exec_ropeLinkUp {c dt} (s : State) : exec (.ropeLinkUp c dt) s = execRopeLinkUp c dt s := rfl
@[simp] theorem exec_ropeBlockRx {m dt} (s : State) : exec (.ropeBlockRx m dt) s = execRopeBlockRx m dt s := rfl
@[simp] theorem exec_idleBlockSend (s : State) : exec .idleBlockSend s = execIdleBlockSend s := rfl
@[simp] theorem exec_digestClose (s : State) : exec .digestClose s = execDigestClose s := rfl
@[simp] theorem exec_partnerSilence (s : State) : exec .partnerSilence s = execPartnerSilence s := rfl
@[simp] theorem exec_ropeLoss {dt} (s : State) : exec (.ropeLoss dt) s = execRopeLoss dt s := rfl
@[simp] theorem exec_aliveSilenceSolo (s : State) : exec .aliveSilenceSolo s = execAliveSilenceSolo s := rfl
@[simp] theorem exec_supervisorFence {silent dt} (s : State) : exec (.supervisorFence silent dt) s = execSupervisorFence silent dt s := rfl
@[simp] theorem exec_pairSolo (s : State) : exec .pairSolo s = execPairSolo s := rfl
@[simp] theorem exec_pairResync (s : State) : exec .pairResync s = execPairResync s := rfl
@[simp] theorem exec_autoResync (s : State) : exec .autoResync s = execAutoResync s := rfl
@[simp] theorem exec_pairWithdraw (s : State) : exec .pairWithdraw s = execPairWithdraw s := rfl
@[simp] theorem exec_pairHandover (s : State) : exec .pairHandover s = execPairHandover s := rfl
@[simp] theorem exec_pairGenrst (s : State) : exec .pairGenrst s = execPairGenrst s := rfl
@[simp] theorem exec_revertRequest (s : State) : exec .revertRequest s = execRevertRequest s := rfl
@[simp] theorem exec_bulkPassDone {dt} (s : State) : exec (.bulkPassDone dt) s = execBulkPassDone dt s := rfl
@[simp] theorem exec_quietTest (s : State) : exec .quietTest s = execQuietTest s := rfl
@[simp] theorem exec_resyncTimeout (s : State) : exec .resyncTimeout s = execResyncTimeout s := rfl
@[simp] theorem exec_reqRun {data} (s : State) : exec (.reqRun data) s = execReqRun data s := rfl
@[simp] theorem exec_reqDoze {data} (s : State) : exec (.reqDoze data) s = execReqDoze data s := rfl
@[simp] theorem exec_reqLineHold {data} (s : State) : exec (.reqLineHold data) s = execReqLineHold data s := rfl
@[simp] theorem exec_reqStandby {data} (s : State) : exec (.reqStandby data) s = execReqStandby data s := rfl
@[simp] theorem exec_reqMaint {data} (s : State) : exec (.reqMaint data) s = execReqMaint data s := rfl
@[simp] theorem exec_bankCheck {k ok dt} (s : State) : exec (.bankCheck k ok dt) s = execBankCheck k ok dt s := rfl
@[simp] theorem exec_wake {ws dt} (s : State) : exec (.wake ws dt) s = execWake ws dt s := rfl
@[simp] theorem exec_quadIdleOff {q} (s : State) : exec (.quadIdleOff q) s = execQuadIdleOff q s := rfl
@[simp] theorem exec_pwrFail {dt} (s : State) : exec (.pwrFail dt) s = execPwrFail dt s := rfl
@[simp] theorem exec_mainsRecover {dt} (s : State) : exec (.mainsRecover dt) s = execMainsRecover dt s := rfl
@[simp] theorem exec_shed (s : State) : exec .shed s = execShed s := rfl
@[simp] theorem exec_cellSwitchover {dt} (s : State) : exec (.cellSwitchover dt) s = execCellSwitchover dt s := rfl
@[simp] theorem exec_therm {die base dt} (s : State) : exec (.therm die base dt) s = execTherm die base dt s := rfl
@[simp] theorem exec_retnClr (s : State) : exec .retnClr s = execRetnClr s := rfl
@[simp] theorem exec_keyWrite (s : State) : exec .keyWrite s = execKeyWrite s := rfl
@[simp] theorem exec_keyClear (s : State) : exec .keyClear s = execKeyClear s := rfl
@[simp] theorem exec_challengeGo {data} (s : State) : exec (.challengeGo data) s = execChallengeGo data s := rfl
@[simp] theorem exec_mirrorRebuild {dt} (s : State) : exec (.mirrorRebuild dt) s = execMirrorRebuild dt s := rfl
@[simp] theorem exec_tamper {level dt} (s : State) : exec (.tamper level dt) s = execTamper level dt s := rfl
@[simp] theorem exec_secUnlock (s : State) : exec .secUnlock s = execSecUnlock s := rfl
@[simp] theorem exec_softErase (s : State) : exec .softErase s = execSoftErase s := rfl
@[simp] theorem exec_brownout {dt} (s : State) : exec (.brownout dt) s = execBrownout dt s := rfl
@[simp] theorem exec_logClr (s : State) : exec .logClr s = execLogClr s := rfl
@[simp] theorem exec_fuseProg {data} (s : State) : exec (.fuseProg data) s = execFuseProg data s := rfl
@[simp] theorem exec_fuseRevoke {data} (s : State) : exec (.fuseRevoke data) s = execFuseRevoke data s := rfl
@[simp] theorem exec_fuseDone {dt} (s : State) : exec (.fuseDone dt) s = execFuseDone dt s := rfl
@[simp] theorem exec_smbusRead {dev off len} (s : State) : exec (.smbusRead dev off len) s = execSmbusRead dev off len s := rfl
@[simp] theorem exec_moduleInsert {q cls dt} (s : State) : exec (.moduleInsert q cls dt) s = execModuleInsert q cls dt s := rfl
@[simp] theorem exec_moduleRemove {q dt} (s : State) : exec (.moduleRemove q dt) s = execModuleRemove q dt s := rfl
@[simp] theorem exec_cageOvercurrent {q dt} (s : State) : exec (.cageOvercurrent q dt) s = execCageOvercurrent q dt s := rfl
@[simp] theorem exec_cageOcClear {mask} (s : State) : exec (.cageOcClear mask) s = execCageOcClear mask s := rfl
@[simp] theorem exec_encSupplyRetry {short} (s : State) : exec (.encSupplyRetry short) s = execEncSupplyRetry short s := rfl
@[simp] theorem exec_cellMeasure {mv} (s : State) : exec (.cellMeasure mv) s = execCellMeasure mv s := rfl
@[simp] theorem exec_thermalShutdown {die base dt} (s : State) : exec (.thermalShutdown die base dt) s = execThermalShutdown die base dt s := rfl
@[simp] theorem exec_thermalRestart {die base dfl fac refclk dt} (s : State) : exec (.thermalRestart die base dfl fac refclk dt) s = execThermalRestart die base dfl fac refclk dt s := rfl
@[simp] theorem exec_mainsOn {dfl fac sealed refclk dt} (s : State) : exec (.mainsOn dfl fac sealed refclk dt) s = execMainsOn dfl fac sealed refclk dt s := rfl
@[simp] theorem exec_lineReset {data} (s : State) : exec (.lineReset data) s = execLineReset data s := rfl
@[simp] theorem exec_moduleReset {data} (s : State) : exec (.moduleReset data) s = execModuleReset data s := rfl
@[simp] theorem exec_resetDone {dfl fac refclk dt} (s : State) : exec (.resetDone dfl fac refclk dt) s = execResetDone dfl fac refclk dt s := rfl
@[simp] theorem exec_bootUpdate {data} (s : State) : exec (.bootUpdate data) s = execBootUpdate data s := rfl
@[simp] theorem exec_bootUpdateDone {dt} (s : State) : exec (.bootUpdateDone dt) s = execBootUpdateDone dt s := rfl
@[simp] theorem exec_holdoverPredictionUpdate (s : State) : exec .holdoverPredictionUpdate s = execHoldoverPredictionUpdate s := rfl
@[simp] theorem exec_pllTuneRail {p tune dt} (s : State) : exec (.pllTuneRail p tune dt) s = execPllTuneRail p tune dt s := rfl
@[simp] theorem exec_pulseOutputEdge {j} (s : State) : exec (.pulseOutputEdge j) s = execPulseOutputEdge j s := rfl

end Sys2Proof.Machine
end

