-- ==== Sys2Proof/Laws/Registers.lean ====
section
/-! SUPPORT. The laws of registers and fields: what a register and a field read after a write. -/

namespace Sys2Proof.Machine

theorem fieldOf_withField_same (x : Word) (lo w v : Nat) (h : lo + w ≤ 72) :
    fieldOf (withField x lo w v) lo w = v % 2 ^ w := by
  apply Nat.eq_of_testBit_eq
  intro i
  simp only [fieldOf, Nat.testBit_mod_two_pow, Nat.testBit_div_two_pow]
  by_cases hi : i < w
  · simp only [hi, decide_true, Bool.true_and]
    have h1 : i + lo < 72 := by omega
    have h2 : (withField x lo w v).getLsbD (i + lo) = (v % 2 ^ w).testBit i := by
      simp only [withField, lowMask, BitVec.getLsbD_or, BitVec.getLsbD_and, BitVec.getLsbD_not, BitVec.getLsbD_shiftLeft,
        BitVec.getLsbD_ofNat, h1, decide_true, Bool.true_and, Nat.add_sub_cancel, Nat.testBit_two_pow_sub_one,
        show ¬ (i + lo < lo) by omega, show i < 72 by omega, hi, decide_false, Bool.not_false, Bool.not_true, Bool.and_false,
        Bool.false_or]
    rw [BitVec.getLsbD] at h2
    rw [h2, Nat.testBit_mod_two_pow]
    simp [hi]
  · simp [hi]

theorem getLsbD_withField_out (x : Word) (lo w v i : Nat) (h : i < lo ∨ lo + w ≤ i) :
    (withField x lo w v).getLsbD i = x.getLsbD i := by
  simp only [withField, lowMask, BitVec.getLsbD_or, BitVec.getLsbD_and, BitVec.getLsbD_not, BitVec.getLsbD_shiftLeft,
    BitVec.getLsbD_ofNat, Nat.testBit_two_pow_sub_one, Nat.testBit_mod_two_pow]
  by_cases h72 : i < 72
  · rcases h with h | h
    · simp [h72, h]
    · simp [show ¬ (i - lo < w) by omega, h72]
  · simp [h72, BitVec.getLsbD_of_ge x i (by omega)]

theorem fieldOf_withField_disjoint (x : Word) (lo w v lo' w' : Nat) (h : lo + w ≤ lo' ∨ lo' + w' ≤ lo) :
    fieldOf (withField x lo w v) lo' w' = fieldOf x lo' w' := by
  apply Nat.eq_of_testBit_eq
  intro i
  simp only [fieldOf, Nat.testBit_mod_two_pow, Nat.testBit_div_two_pow]
  by_cases hi : i < w'
  · simp only [hi, decide_true, Bool.true_and]
    exact getLsbD_withField_out x lo w v (i + lo') (by omega)
  · simp [hi]

theorem fieldOf_lt (x : Word) (lo w : Nat) : fieldOf x lo w < 2 ^ w := Nat.mod_lt _ (Nat.two_pow_pos w)

theorem Block.get_lt (b : Block) (f : Field) : b.get f < 2 ^ f.w := fieldOf_lt _ _ _

@[simp] theorem Block.reg_setReg_same (b : Block) (a : Nat) (v : Word) : (b.setReg a v).reg a = v := by
  simp [Block.reg, Block.setReg]

theorem Block.reg_setReg_ne (b : Block) {a c : Nat} (v : Word) (h : c ≠ a) : (b.setReg a v).reg c = b.reg c := by
  simp [Block.reg, Block.setReg, sget_sput_ne _ _ _ h]

theorem Block.reg_setReg (b : Block) (a c : Nat) (v : Word) :
    (b.setReg a v).reg c = if c = a then v else b.reg c := by
  simp [Block.reg, Block.setReg, sget_sput]

theorem Block.reg_put (b : Block) (f : Field) (v c : Nat) :
    (b.put f v).reg c = if c = f.addr then withField (b.reg f.addr) f.lo f.w v else b.reg c := by
  simp [Block.put, Block.reg_setReg]

/-- A field write leaves every other register alone. -/
theorem Block.reg_put_ne (b : Block) (f : Field) (v : Nat) {c : Nat} (h : c ≠ f.addr) :
    (b.put f v).reg c = b.reg c := by simp [Block.reg_put, h]

/-- A field reads back what was written, modulo its width. -/
@[simp] theorem Block.get_put_same (b : Block) (f : Field) (v : Nat) (h : f.lo + f.w ≤ 72) :
    (b.put f v).get f = v % 2 ^ f.w := by
  simp [Block.get, Block.reg_put, fieldOf_withField_same _ _ _ _ h]

/-- A field write leaves every field that shares no bit with it alone. -/
@[simp] theorem Block.get_put_apart (b : Block) (f g : Field) (v : Nat)
    (h : f.addr ≠ g.addr ∨ f.lo + f.w ≤ g.lo ∨ g.lo + g.w ≤ f.lo) : (b.put f v).get g = b.get g := by
  by_cases ha : g.addr = f.addr
  · rcases h with h | h
    · exact absurd ha.symm h
    · simp [Block.get, Block.reg_put, ha, fieldOf_withField_disjoint _ _ _ _ _ _ h]
  · simp [Block.get, Block.reg_put, ha]

/-- The same for a whole register. -/
@[simp] theorem Block.get_setReg_ne (b : Block) (a : Nat) (v : Word) (g : Field) (h : a ≠ g.addr) :
    (b.setReg a v).get g = b.get g := by
  simp [Block.get, Block.reg_setReg_ne b v (Ne.symm h)]

theorem b2n_mod (c : Bool) : b2n c % 2 = b2n c := by cases c <;> rfl

/-- A one-bit field reads back the Bool written. -/
@[simp] theorem Block.flag_putB_same (b : Block) (f : Field) (c : Bool) (h : f.lo + f.w ≤ 72) (hw : f.w = 1) :
    (b.putB f c).flag f = c := by
  simp [Block.flag, Block.putB, Block.get_put_same b f _ h, hw, b2n_mod]
  cases c <;> rfl

@[simp] theorem Block.flag_put_apart (b : Block) (f g : Field) (v : Nat)
    (h : f.addr ≠ g.addr ∨ f.lo + f.w ≤ g.lo ∨ g.lo + g.w ≤ f.lo) : (b.put f v).flag g = b.flag g := by
  simp [Block.flag, Block.get_put_apart b f g v h]

@[simp] theorem Block.get_putB_apart (b : Block) (f g : Field) (c : Bool)
    (h : f.addr ≠ g.addr ∨ f.lo + f.w ≤ g.lo ∨ g.lo + g.w ≤ f.lo) : (b.putB f c).get g = b.get g :=
  Block.get_put_apart b f g _ h

@[simp] theorem Block.flag_putB_apart (b : Block) (f g : Field) (c : Bool)
    (h : f.addr ≠ g.addr ∨ f.lo + f.w ≤ g.lo ∨ g.lo + g.w ≤ f.lo) : (b.putB f c).flag g = b.flag g :=
  Block.flag_put_apart b f g _ h

@[simp] theorem Block.flag_setReg_ne (b : Block) (a : Nat) (v : Word) (g : Field) (h : a ≠ g.addr) :
    (b.setReg a v).flag g = b.flag g := by
  simp [Block.flag, Block.get_setReg_ne b a v g h]

/-- A one-bit field reads as the number of the Bool written. -/
@[simp] theorem Block.get_putB_same (b : Block) (f : Field) (c : Bool) (h : f.lo + f.w ≤ 72) (hw : f.w = 1) :
    (b.putB f c).get f = b2n c := by
  simp [Block.putB, Block.get_put_same b f _ h, hw, b2n_mod]

end Sys2Proof.Machine
end

