-- ==== Sys2Proof/Laws/State.lean ====
section
/-! SUPPORT. One lemma per part of the block per update: what each update leaves alone. All hold by
definition. -/

namespace Sys2Proof.Machine


/-! ### setReg -/

@[simp] theorem Block.setReg_utags (b : Block) (a : Nat) (v : Word) : (b.setReg a v).utags = b.utags := rfl
@[simp] theorem Block.setReg_tm (b : Block) (a : Nat) (v : Word) : (b.setReg a v).tm = b.tm := rfl
@[simp] theorem Block.setReg_cyc (b : Block) (a : Nat) (v : Word) : (b.setReg a v).cyc = b.cyc := rfl
@[simp] theorem Block.setReg_host (b : Block) (a : Nat) (v : Word) : (b.setReg a v).host = b.host := rfl
@[simp] theorem Block.setReg_cav (b : Block) (a : Nat) (v : Word) : (b.setReg a v).cav = b.cav := rfl
@[simp] theorem Block.setReg_axes (b : Block) (a : Nat) (v : Word) : (b.setReg a v).axes = b.axes := rfl
@[simp] theorem Block.setReg_encs (b : Block) (a : Nat) (v : Word) : (b.setReg a v).encs = b.encs := rfl
@[simp] theorem Block.setReg_mainsLast (b : Block) (a : Nat) (v : Word) : (b.setReg a v).mainsLast = b.mainsLast := rfl
@[simp] theorem Block.setReg_mainsGap (b : Block) (a : Nat) (v : Word) : (b.setReg a v).mainsGap = b.mainsGap := rfl
@[simp] theorem Block.setReg_eng (b : Block) (a : Nat) (v : Word) : (b.setReg a v).eng = b.eng := rfl
@[simp] theorem Block.setReg_trc (b : Block) (a : Nat) (v : Word) : (b.setReg a v).trc = b.trc := rfl
@[simp] theorem Block.setReg_snap (b : Block) (a : Nat) (v : Word) : (b.setReg a v).snap = b.snap := rfl
@[simp] theorem Block.setReg_flw (b : Block) (a : Nat) (v : Word) : (b.setReg a v).flw = b.flw := rfl
@[simp] theorem Block.setReg_sw (b : Block) (a : Nat) (v : Word) : (b.setReg a v).sw = b.sw := rfl
@[simp] theorem Block.setReg_macs (b : Block) (a : Nat) (v : Word) : (b.setReg a v).macs = b.macs := rfl
@[simp] theorem Block.setReg_lanes (b : Block) (a : Nat) (v : Word) : (b.setReg a v).lanes = b.lanes := rfl
@[simp] theorem Block.setReg_rings (b : Block) (a : Nat) (v : Word) : (b.setReg a v).rings = b.rings := rfl
@[simp] theorem Block.setReg_ptp (b : Block) (a : Nat) (v : Word) : (b.setReg a v).ptp = b.ptp := rfl
@[simp] theorem Block.setReg_sec (b : Block) (a : Nat) (v : Word) : (b.setReg a v).sec = b.sec := rfl
@[simp] theorem Block.setReg_cps (b : Block) (a : Nat) (v : Word) : (b.setReg a v).cps = b.cps := rfl
@[simp] theorem Block.setReg_outs (b : Block) (a : Nat) (v : Word) : (b.setReg a v).outs = b.outs := rfl
@[simp] theorem Block.setReg_clk (b : Block) (a : Nat) (v : Word) : (b.setReg a v).clk = b.clk := rfl
@[simp] theorem Block.setReg_tic (b : Block) (a : Nat) (v : Word) : (b.setReg a v).tic = b.tic := rfl
@[simp] theorem Block.setReg_cal (b : Block) (a : Nat) (v : Word) : (b.setReg a v).cal = b.cal := rfl
@[simp] theorem Block.setReg_pair (b : Block) (a : Nat) (v : Word) : (b.setReg a v).pair = b.pair := rfl
@[simp] theorem Block.setReg_pw (b : Block) (a : Nat) (v : Word) : (b.setReg a v).pw = b.pw := rfl
@[simp] theorem Block.setReg_strikes (b : Block) (a : Nat) (v : Word) : (b.setReg a v).strikes = b.strikes := rfl
@[simp] theorem Block.setReg_retired (b : Block) (a : Nat) (v : Word) : (b.setReg a v).retired = b.retired := rfl
@[simp] theorem Block.setReg_retRec (b : Block) (a : Nat) (v : Word) : (b.setReg a v).retRec = b.retRec := rfl
@[simp] theorem Block.setReg_free (b : Block) (a : Nat) (v : Word) : (b.setReg a v).free = b.free := rfl
@[simp] theorem Block.setReg_out (b : Block) (a : Nat) (v : Word) : (b.setReg a v).out = b.out := rfl

/-! ### put -/

@[simp] theorem Block.put_utags (b : Block) (f : Field) (v : Nat) : (b.put f v).utags = b.utags := rfl
@[simp] theorem Block.put_tm (b : Block) (f : Field) (v : Nat) : (b.put f v).tm = b.tm := rfl
@[simp] theorem Block.put_cyc (b : Block) (f : Field) (v : Nat) : (b.put f v).cyc = b.cyc := rfl
@[simp] theorem Block.put_host (b : Block) (f : Field) (v : Nat) : (b.put f v).host = b.host := rfl
@[simp] theorem Block.put_cav (b : Block) (f : Field) (v : Nat) : (b.put f v).cav = b.cav := rfl
@[simp] theorem Block.put_axes (b : Block) (f : Field) (v : Nat) : (b.put f v).axes = b.axes := rfl
@[simp] theorem Block.put_encs (b : Block) (f : Field) (v : Nat) : (b.put f v).encs = b.encs := rfl
@[simp] theorem Block.put_mainsLast (b : Block) (f : Field) (v : Nat) : (b.put f v).mainsLast = b.mainsLast := rfl
@[simp] theorem Block.put_mainsGap (b : Block) (f : Field) (v : Nat) : (b.put f v).mainsGap = b.mainsGap := rfl
@[simp] theorem Block.put_eng (b : Block) (f : Field) (v : Nat) : (b.put f v).eng = b.eng := rfl
@[simp] theorem Block.put_trc (b : Block) (f : Field) (v : Nat) : (b.put f v).trc = b.trc := rfl
@[simp] theorem Block.put_snap (b : Block) (f : Field) (v : Nat) : (b.put f v).snap = b.snap := rfl
@[simp] theorem Block.put_flw (b : Block) (f : Field) (v : Nat) : (b.put f v).flw = b.flw := rfl
@[simp] theorem Block.put_sw (b : Block) (f : Field) (v : Nat) : (b.put f v).sw = b.sw := rfl
@[simp] theorem Block.put_macs (b : Block) (f : Field) (v : Nat) : (b.put f v).macs = b.macs := rfl
@[simp] theorem Block.put_lanes (b : Block) (f : Field) (v : Nat) : (b.put f v).lanes = b.lanes := rfl
@[simp] theorem Block.put_rings (b : Block) (f : Field) (v : Nat) : (b.put f v).rings = b.rings := rfl
@[simp] theorem Block.put_ptp (b : Block) (f : Field) (v : Nat) : (b.put f v).ptp = b.ptp := rfl
@[simp] theorem Block.put_sec (b : Block) (f : Field) (v : Nat) : (b.put f v).sec = b.sec := rfl
@[simp] theorem Block.put_cps (b : Block) (f : Field) (v : Nat) : (b.put f v).cps = b.cps := rfl
@[simp] theorem Block.put_outs (b : Block) (f : Field) (v : Nat) : (b.put f v).outs = b.outs := rfl
@[simp] theorem Block.put_clk (b : Block) (f : Field) (v : Nat) : (b.put f v).clk = b.clk := rfl
@[simp] theorem Block.put_tic (b : Block) (f : Field) (v : Nat) : (b.put f v).tic = b.tic := rfl
@[simp] theorem Block.put_cal (b : Block) (f : Field) (v : Nat) : (b.put f v).cal = b.cal := rfl
@[simp] theorem Block.put_pair (b : Block) (f : Field) (v : Nat) : (b.put f v).pair = b.pair := rfl
@[simp] theorem Block.put_pw (b : Block) (f : Field) (v : Nat) : (b.put f v).pw = b.pw := rfl
@[simp] theorem Block.put_strikes (b : Block) (f : Field) (v : Nat) : (b.put f v).strikes = b.strikes := rfl
@[simp] theorem Block.put_retired (b : Block) (f : Field) (v : Nat) : (b.put f v).retired = b.retired := rfl
@[simp] theorem Block.put_retRec (b : Block) (f : Field) (v : Nat) : (b.put f v).retRec = b.retRec := rfl
@[simp] theorem Block.put_free (b : Block) (f : Field) (v : Nat) : (b.put f v).free = b.free := rfl
@[simp] theorem Block.put_out (b : Block) (f : Field) (v : Nat) : (b.put f v).out = b.out := rfl

/-! ### putB -/

@[simp] theorem Block.putB_utags (b : Block) (f : Field) (v : Bool) : (b.putB f v).utags = b.utags := rfl
@[simp] theorem Block.putB_tm (b : Block) (f : Field) (v : Bool) : (b.putB f v).tm = b.tm := rfl
@[simp] theorem Block.putB_cyc (b : Block) (f : Field) (v : Bool) : (b.putB f v).cyc = b.cyc := rfl
@[simp] theorem Block.putB_host (b : Block) (f : Field) (v : Bool) : (b.putB f v).host = b.host := rfl
@[simp] theorem Block.putB_cav (b : Block) (f : Field) (v : Bool) : (b.putB f v).cav = b.cav := rfl
@[simp] theorem Block.putB_axes (b : Block) (f : Field) (v : Bool) : (b.putB f v).axes = b.axes := rfl
@[simp] theorem Block.putB_encs (b : Block) (f : Field) (v : Bool) : (b.putB f v).encs = b.encs := rfl
@[simp] theorem Block.putB_mainsLast (b : Block) (f : Field) (v : Bool) : (b.putB f v).mainsLast = b.mainsLast := rfl
@[simp] theorem Block.putB_mainsGap (b : Block) (f : Field) (v : Bool) : (b.putB f v).mainsGap = b.mainsGap := rfl
@[simp] theorem Block.putB_eng (b : Block) (f : Field) (v : Bool) : (b.putB f v).eng = b.eng := rfl
@[simp] theorem Block.putB_trc (b : Block) (f : Field) (v : Bool) : (b.putB f v).trc = b.trc := rfl
@[simp] theorem Block.putB_snap (b : Block) (f : Field) (v : Bool) : (b.putB f v).snap = b.snap := rfl
@[simp] theorem Block.putB_flw (b : Block) (f : Field) (v : Bool) : (b.putB f v).flw = b.flw := rfl
@[simp] theorem Block.putB_sw (b : Block) (f : Field) (v : Bool) : (b.putB f v).sw = b.sw := rfl
@[simp] theorem Block.putB_macs (b : Block) (f : Field) (v : Bool) : (b.putB f v).macs = b.macs := rfl
@[simp] theorem Block.putB_lanes (b : Block) (f : Field) (v : Bool) : (b.putB f v).lanes = b.lanes := rfl
@[simp] theorem Block.putB_rings (b : Block) (f : Field) (v : Bool) : (b.putB f v).rings = b.rings := rfl
@[simp] theorem Block.putB_ptp (b : Block) (f : Field) (v : Bool) : (b.putB f v).ptp = b.ptp := rfl
@[simp] theorem Block.putB_sec (b : Block) (f : Field) (v : Bool) : (b.putB f v).sec = b.sec := rfl
@[simp] theorem Block.putB_cps (b : Block) (f : Field) (v : Bool) : (b.putB f v).cps = b.cps := rfl
@[simp] theorem Block.putB_outs (b : Block) (f : Field) (v : Bool) : (b.putB f v).outs = b.outs := rfl
@[simp] theorem Block.putB_clk (b : Block) (f : Field) (v : Bool) : (b.putB f v).clk = b.clk := rfl
@[simp] theorem Block.putB_tic (b : Block) (f : Field) (v : Bool) : (b.putB f v).tic = b.tic := rfl
@[simp] theorem Block.putB_cal (b : Block) (f : Field) (v : Bool) : (b.putB f v).cal = b.cal := rfl
@[simp] theorem Block.putB_pair (b : Block) (f : Field) (v : Bool) : (b.putB f v).pair = b.pair := rfl
@[simp] theorem Block.putB_pw (b : Block) (f : Field) (v : Bool) : (b.putB f v).pw = b.pw := rfl
@[simp] theorem Block.putB_strikes (b : Block) (f : Field) (v : Bool) : (b.putB f v).strikes = b.strikes := rfl
@[simp] theorem Block.putB_retired (b : Block) (f : Field) (v : Bool) : (b.putB f v).retired = b.retired := rfl
@[simp] theorem Block.putB_retRec (b : Block) (f : Field) (v : Bool) : (b.putB f v).retRec = b.retRec := rfl
@[simp] theorem Block.putB_free (b : Block) (f : Field) (v : Bool) : (b.putB f v).free = b.free := rfl
@[simp] theorem Block.putB_out (b : Block) (f : Field) (v : Bool) : (b.putB f v).out = b.out := rfl

/-! ### puti -/

@[simp] theorem Block.puti_utags (b : Block) (f : Field) (v : Int) : (b.puti f v).utags = b.utags := rfl
@[simp] theorem Block.puti_tm (b : Block) (f : Field) (v : Int) : (b.puti f v).tm = b.tm := rfl
@[simp] theorem Block.puti_cyc (b : Block) (f : Field) (v : Int) : (b.puti f v).cyc = b.cyc := rfl
@[simp] theorem Block.puti_host (b : Block) (f : Field) (v : Int) : (b.puti f v).host = b.host := rfl
@[simp] theorem Block.puti_cav (b : Block) (f : Field) (v : Int) : (b.puti f v).cav = b.cav := rfl
@[simp] theorem Block.puti_axes (b : Block) (f : Field) (v : Int) : (b.puti f v).axes = b.axes := rfl
@[simp] theorem Block.puti_encs (b : Block) (f : Field) (v : Int) : (b.puti f v).encs = b.encs := rfl
@[simp] theorem Block.puti_mainsLast (b : Block) (f : Field) (v : Int) : (b.puti f v).mainsLast = b.mainsLast := rfl
@[simp] theorem Block.puti_mainsGap (b : Block) (f : Field) (v : Int) : (b.puti f v).mainsGap = b.mainsGap := rfl
@[simp] theorem Block.puti_eng (b : Block) (f : Field) (v : Int) : (b.puti f v).eng = b.eng := rfl
@[simp] theorem Block.puti_trc (b : Block) (f : Field) (v : Int) : (b.puti f v).trc = b.trc := rfl
@[simp] theorem Block.puti_snap (b : Block) (f : Field) (v : Int) : (b.puti f v).snap = b.snap := rfl
@[simp] theorem Block.puti_flw (b : Block) (f : Field) (v : Int) : (b.puti f v).flw = b.flw := rfl
@[simp] theorem Block.puti_sw (b : Block) (f : Field) (v : Int) : (b.puti f v).sw = b.sw := rfl
@[simp] theorem Block.puti_macs (b : Block) (f : Field) (v : Int) : (b.puti f v).macs = b.macs := rfl
@[simp] theorem Block.puti_lanes (b : Block) (f : Field) (v : Int) : (b.puti f v).lanes = b.lanes := rfl
@[simp] theorem Block.puti_rings (b : Block) (f : Field) (v : Int) : (b.puti f v).rings = b.rings := rfl
@[simp] theorem Block.puti_ptp (b : Block) (f : Field) (v : Int) : (b.puti f v).ptp = b.ptp := rfl
@[simp] theorem Block.puti_sec (b : Block) (f : Field) (v : Int) : (b.puti f v).sec = b.sec := rfl
@[simp] theorem Block.puti_cps (b : Block) (f : Field) (v : Int) : (b.puti f v).cps = b.cps := rfl
@[simp] theorem Block.puti_outs (b : Block) (f : Field) (v : Int) : (b.puti f v).outs = b.outs := rfl
@[simp] theorem Block.puti_clk (b : Block) (f : Field) (v : Int) : (b.puti f v).clk = b.clk := rfl
@[simp] theorem Block.puti_tic (b : Block) (f : Field) (v : Int) : (b.puti f v).tic = b.tic := rfl
@[simp] theorem Block.puti_cal (b : Block) (f : Field) (v : Int) : (b.puti f v).cal = b.cal := rfl
@[simp] theorem Block.puti_pair (b : Block) (f : Field) (v : Int) : (b.puti f v).pair = b.pair := rfl
@[simp] theorem Block.puti_pw (b : Block) (f : Field) (v : Int) : (b.puti f v).pw = b.pw := rfl
@[simp] theorem Block.puti_strikes (b : Block) (f : Field) (v : Int) : (b.puti f v).strikes = b.strikes := rfl
@[simp] theorem Block.puti_retired (b : Block) (f : Field) (v : Int) : (b.puti f v).retired = b.retired := rfl
@[simp] theorem Block.puti_retRec (b : Block) (f : Field) (v : Int) : (b.puti f v).retRec = b.retRec := rfl
@[simp] theorem Block.puti_free (b : Block) (f : Field) (v : Int) : (b.puti f v).free = b.free := rfl
@[simp] theorem Block.puti_out (b : Block) (f : Field) (v : Int) : (b.puti f v).out = b.out := rfl

/-! ### incSat -/

@[simp] theorem Block.incSat_utags (b : Block) (f : Field) (n : Nat) : (b.incSat f n).utags = b.utags := rfl
@[simp] theorem Block.incSat_tm (b : Block) (f : Field) (n : Nat) : (b.incSat f n).tm = b.tm := rfl
@[simp] theorem Block.incSat_cyc (b : Block) (f : Field) (n : Nat) : (b.incSat f n).cyc = b.cyc := rfl
@[simp] theorem Block.incSat_host (b : Block) (f : Field) (n : Nat) : (b.incSat f n).host = b.host := rfl
@[simp] theorem Block.incSat_cav (b : Block) (f : Field) (n : Nat) : (b.incSat f n).cav = b.cav := rfl
@[simp] theorem Block.incSat_axes (b : Block) (f : Field) (n : Nat) : (b.incSat f n).axes = b.axes := rfl
@[simp] theorem Block.incSat_encs (b : Block) (f : Field) (n : Nat) : (b.incSat f n).encs = b.encs := rfl
@[simp] theorem Block.incSat_mainsLast (b : Block) (f : Field) (n : Nat) : (b.incSat f n).mainsLast = b.mainsLast := rfl
@[simp] theorem Block.incSat_mainsGap (b : Block) (f : Field) (n : Nat) : (b.incSat f n).mainsGap = b.mainsGap := rfl
@[simp] theorem Block.incSat_eng (b : Block) (f : Field) (n : Nat) : (b.incSat f n).eng = b.eng := rfl
@[simp] theorem Block.incSat_trc (b : Block) (f : Field) (n : Nat) : (b.incSat f n).trc = b.trc := rfl
@[simp] theorem Block.incSat_snap (b : Block) (f : Field) (n : Nat) : (b.incSat f n).snap = b.snap := rfl
@[simp] theorem Block.incSat_flw (b : Block) (f : Field) (n : Nat) : (b.incSat f n).flw = b.flw := rfl
@[simp] theorem Block.incSat_sw (b : Block) (f : Field) (n : Nat) : (b.incSat f n).sw = b.sw := rfl
@[simp] theorem Block.incSat_macs (b : Block) (f : Field) (n : Nat) : (b.incSat f n).macs = b.macs := rfl
@[simp] theorem Block.incSat_lanes (b : Block) (f : Field) (n : Nat) : (b.incSat f n).lanes = b.lanes := rfl
@[simp] theorem Block.incSat_rings (b : Block) (f : Field) (n : Nat) : (b.incSat f n).rings = b.rings := rfl
@[simp] theorem Block.incSat_ptp (b : Block) (f : Field) (n : Nat) : (b.incSat f n).ptp = b.ptp := rfl
@[simp] theorem Block.incSat_sec (b : Block) (f : Field) (n : Nat) : (b.incSat f n).sec = b.sec := rfl
@[simp] theorem Block.incSat_cps (b : Block) (f : Field) (n : Nat) : (b.incSat f n).cps = b.cps := rfl
@[simp] theorem Block.incSat_outs (b : Block) (f : Field) (n : Nat) : (b.incSat f n).outs = b.outs := rfl
@[simp] theorem Block.incSat_clk (b : Block) (f : Field) (n : Nat) : (b.incSat f n).clk = b.clk := rfl
@[simp] theorem Block.incSat_tic (b : Block) (f : Field) (n : Nat) : (b.incSat f n).tic = b.tic := rfl
@[simp] theorem Block.incSat_cal (b : Block) (f : Field) (n : Nat) : (b.incSat f n).cal = b.cal := rfl
@[simp] theorem Block.incSat_pair (b : Block) (f : Field) (n : Nat) : (b.incSat f n).pair = b.pair := rfl
@[simp] theorem Block.incSat_pw (b : Block) (f : Field) (n : Nat) : (b.incSat f n).pw = b.pw := rfl
@[simp] theorem Block.incSat_strikes (b : Block) (f : Field) (n : Nat) : (b.incSat f n).strikes = b.strikes := rfl
@[simp] theorem Block.incSat_retired (b : Block) (f : Field) (n : Nat) : (b.incSat f n).retired = b.retired := rfl
@[simp] theorem Block.incSat_retRec (b : Block) (f : Field) (n : Nat) : (b.incSat f n).retRec = b.retRec := rfl
@[simp] theorem Block.incSat_free (b : Block) (f : Field) (n : Nat) : (b.incSat f n).free = b.free := rfl
@[simp] theorem Block.incSat_out (b : Block) (f : Field) (n : Nat) : (b.incSat f n).out = b.out := rfl

/-! ### incMod -/

@[simp] theorem Block.incMod_utags (b : Block) (f : Field) (n : Nat) : (b.incMod f n).utags = b.utags := rfl
@[simp] theorem Block.incMod_tm (b : Block) (f : Field) (n : Nat) : (b.incMod f n).tm = b.tm := rfl
@[simp] theorem Block.incMod_cyc (b : Block) (f : Field) (n : Nat) : (b.incMod f n).cyc = b.cyc := rfl
@[simp] theorem Block.incMod_host (b : Block) (f : Field) (n : Nat) : (b.incMod f n).host = b.host := rfl
@[simp] theorem Block.incMod_cav (b : Block) (f : Field) (n : Nat) : (b.incMod f n).cav = b.cav := rfl
@[simp] theorem Block.incMod_axes (b : Block) (f : Field) (n : Nat) : (b.incMod f n).axes = b.axes := rfl
@[simp] theorem Block.incMod_encs (b : Block) (f : Field) (n : Nat) : (b.incMod f n).encs = b.encs := rfl
@[simp] theorem Block.incMod_mainsLast (b : Block) (f : Field) (n : Nat) : (b.incMod f n).mainsLast = b.mainsLast := rfl
@[simp] theorem Block.incMod_mainsGap (b : Block) (f : Field) (n : Nat) : (b.incMod f n).mainsGap = b.mainsGap := rfl
@[simp] theorem Block.incMod_eng (b : Block) (f : Field) (n : Nat) : (b.incMod f n).eng = b.eng := rfl
@[simp] theorem Block.incMod_trc (b : Block) (f : Field) (n : Nat) : (b.incMod f n).trc = b.trc := rfl
@[simp] theorem Block.incMod_snap (b : Block) (f : Field) (n : Nat) : (b.incMod f n).snap = b.snap := rfl
@[simp] theorem Block.incMod_flw (b : Block) (f : Field) (n : Nat) : (b.incMod f n).flw = b.flw := rfl
@[simp] theorem Block.incMod_sw (b : Block) (f : Field) (n : Nat) : (b.incMod f n).sw = b.sw := rfl
@[simp] theorem Block.incMod_macs (b : Block) (f : Field) (n : Nat) : (b.incMod f n).macs = b.macs := rfl
@[simp] theorem Block.incMod_lanes (b : Block) (f : Field) (n : Nat) : (b.incMod f n).lanes = b.lanes := rfl
@[simp] theorem Block.incMod_rings (b : Block) (f : Field) (n : Nat) : (b.incMod f n).rings = b.rings := rfl
@[simp] theorem Block.incMod_ptp (b : Block) (f : Field) (n : Nat) : (b.incMod f n).ptp = b.ptp := rfl
@[simp] theorem Block.incMod_sec (b : Block) (f : Field) (n : Nat) : (b.incMod f n).sec = b.sec := rfl
@[simp] theorem Block.incMod_cps (b : Block) (f : Field) (n : Nat) : (b.incMod f n).cps = b.cps := rfl
@[simp] theorem Block.incMod_outs (b : Block) (f : Field) (n : Nat) : (b.incMod f n).outs = b.outs := rfl
@[simp] theorem Block.incMod_clk (b : Block) (f : Field) (n : Nat) : (b.incMod f n).clk = b.clk := rfl
@[simp] theorem Block.incMod_tic (b : Block) (f : Field) (n : Nat) : (b.incMod f n).tic = b.tic := rfl
@[simp] theorem Block.incMod_cal (b : Block) (f : Field) (n : Nat) : (b.incMod f n).cal = b.cal := rfl
@[simp] theorem Block.incMod_pair (b : Block) (f : Field) (n : Nat) : (b.incMod f n).pair = b.pair := rfl
@[simp] theorem Block.incMod_pw (b : Block) (f : Field) (n : Nat) : (b.incMod f n).pw = b.pw := rfl
@[simp] theorem Block.incMod_strikes (b : Block) (f : Field) (n : Nat) : (b.incMod f n).strikes = b.strikes := rfl
@[simp] theorem Block.incMod_retired (b : Block) (f : Field) (n : Nat) : (b.incMod f n).retired = b.retired := rfl
@[simp] theorem Block.incMod_retRec (b : Block) (f : Field) (n : Nat) : (b.incMod f n).retRec = b.retRec := rfl
@[simp] theorem Block.incMod_free (b : Block) (f : Field) (n : Nat) : (b.incMod f n).free = b.free := rfl
@[simp] theorem Block.incMod_out (b : Block) (f : Field) (n : Nat) : (b.incMod f n).out = b.out := rfl

/-! ### setBit -/

@[simp] theorem Block.setBit_utags (b : Block) (f : Field) (i : Nat) : (b.setBit f i).utags = b.utags := rfl
@[simp] theorem Block.setBit_tm (b : Block) (f : Field) (i : Nat) : (b.setBit f i).tm = b.tm := rfl
@[simp] theorem Block.setBit_cyc (b : Block) (f : Field) (i : Nat) : (b.setBit f i).cyc = b.cyc := rfl
@[simp] theorem Block.setBit_host (b : Block) (f : Field) (i : Nat) : (b.setBit f i).host = b.host := rfl
@[simp] theorem Block.setBit_cav (b : Block) (f : Field) (i : Nat) : (b.setBit f i).cav = b.cav := rfl
@[simp] theorem Block.setBit_axes (b : Block) (f : Field) (i : Nat) : (b.setBit f i).axes = b.axes := rfl
@[simp] theorem Block.setBit_encs (b : Block) (f : Field) (i : Nat) : (b.setBit f i).encs = b.encs := rfl
@[simp] theorem Block.setBit_mainsLast (b : Block) (f : Field) (i : Nat) : (b.setBit f i).mainsLast = b.mainsLast := rfl
@[simp] theorem Block.setBit_mainsGap (b : Block) (f : Field) (i : Nat) : (b.setBit f i).mainsGap = b.mainsGap := rfl
@[simp] theorem Block.setBit_eng (b : Block) (f : Field) (i : Nat) : (b.setBit f i).eng = b.eng := rfl
@[simp] theorem Block.setBit_trc (b : Block) (f : Field) (i : Nat) : (b.setBit f i).trc = b.trc := rfl
@[simp] theorem Block.setBit_snap (b : Block) (f : Field) (i : Nat) : (b.setBit f i).snap = b.snap := rfl
@[simp] theorem Block.setBit_flw (b : Block) (f : Field) (i : Nat) : (b.setBit f i).flw = b.flw := rfl
@[simp] theorem Block.setBit_sw (b : Block) (f : Field) (i : Nat) : (b.setBit f i).sw = b.sw := rfl
@[simp] theorem Block.setBit_macs (b : Block) (f : Field) (i : Nat) : (b.setBit f i).macs = b.macs := rfl
@[simp] theorem Block.setBit_lanes (b : Block) (f : Field) (i : Nat) : (b.setBit f i).lanes = b.lanes := rfl
@[simp] theorem Block.setBit_rings (b : Block) (f : Field) (i : Nat) : (b.setBit f i).rings = b.rings := rfl
@[simp] theorem Block.setBit_ptp (b : Block) (f : Field) (i : Nat) : (b.setBit f i).ptp = b.ptp := rfl
@[simp] theorem Block.setBit_sec (b : Block) (f : Field) (i : Nat) : (b.setBit f i).sec = b.sec := rfl
@[simp] theorem Block.setBit_cps (b : Block) (f : Field) (i : Nat) : (b.setBit f i).cps = b.cps := rfl
@[simp] theorem Block.setBit_outs (b : Block) (f : Field) (i : Nat) : (b.setBit f i).outs = b.outs := rfl
@[simp] theorem Block.setBit_clk (b : Block) (f : Field) (i : Nat) : (b.setBit f i).clk = b.clk := rfl
@[simp] theorem Block.setBit_tic (b : Block) (f : Field) (i : Nat) : (b.setBit f i).tic = b.tic := rfl
@[simp] theorem Block.setBit_cal (b : Block) (f : Field) (i : Nat) : (b.setBit f i).cal = b.cal := rfl
@[simp] theorem Block.setBit_pair (b : Block) (f : Field) (i : Nat) : (b.setBit f i).pair = b.pair := rfl
@[simp] theorem Block.setBit_pw (b : Block) (f : Field) (i : Nat) : (b.setBit f i).pw = b.pw := rfl
@[simp] theorem Block.setBit_strikes (b : Block) (f : Field) (i : Nat) : (b.setBit f i).strikes = b.strikes := rfl
@[simp] theorem Block.setBit_retired (b : Block) (f : Field) (i : Nat) : (b.setBit f i).retired = b.retired := rfl
@[simp] theorem Block.setBit_retRec (b : Block) (f : Field) (i : Nat) : (b.setBit f i).retRec = b.retRec := rfl
@[simp] theorem Block.setBit_free (b : Block) (f : Field) (i : Nat) : (b.setBit f i).free = b.free := rfl
@[simp] theorem Block.setBit_out (b : Block) (f : Field) (i : Nat) : (b.setBit f i).out = b.out := rfl

/-! ### clrBit -/

@[simp] theorem Block.clrBit_utags (b : Block) (f : Field) (i : Nat) : (b.clrBit f i).utags = b.utags := rfl
@[simp] theorem Block.clrBit_tm (b : Block) (f : Field) (i : Nat) : (b.clrBit f i).tm = b.tm := rfl
@[simp] theorem Block.clrBit_cyc (b : Block) (f : Field) (i : Nat) : (b.clrBit f i).cyc = b.cyc := rfl
@[simp] theorem Block.clrBit_host (b : Block) (f : Field) (i : Nat) : (b.clrBit f i).host = b.host := rfl
@[simp] theorem Block.clrBit_cav (b : Block) (f : Field) (i : Nat) : (b.clrBit f i).cav = b.cav := rfl
@[simp] theorem Block.clrBit_axes (b : Block) (f : Field) (i : Nat) : (b.clrBit f i).axes = b.axes := rfl
@[simp] theorem Block.clrBit_encs (b : Block) (f : Field) (i : Nat) : (b.clrBit f i).encs = b.encs := rfl
@[simp] theorem Block.clrBit_mainsLast (b : Block) (f : Field) (i : Nat) : (b.clrBit f i).mainsLast = b.mainsLast := rfl
@[simp] theorem Block.clrBit_mainsGap (b : Block) (f : Field) (i : Nat) : (b.clrBit f i).mainsGap = b.mainsGap := rfl
@[simp] theorem Block.clrBit_eng (b : Block) (f : Field) (i : Nat) : (b.clrBit f i).eng = b.eng := rfl
@[simp] theorem Block.clrBit_trc (b : Block) (f : Field) (i : Nat) : (b.clrBit f i).trc = b.trc := rfl
@[simp] theorem Block.clrBit_snap (b : Block) (f : Field) (i : Nat) : (b.clrBit f i).snap = b.snap := rfl
@[simp] theorem Block.clrBit_flw (b : Block) (f : Field) (i : Nat) : (b.clrBit f i).flw = b.flw := rfl
@[simp] theorem Block.clrBit_sw (b : Block) (f : Field) (i : Nat) : (b.clrBit f i).sw = b.sw := rfl
@[simp] theorem Block.clrBit_macs (b : Block) (f : Field) (i : Nat) : (b.clrBit f i).macs = b.macs := rfl
@[simp] theorem Block.clrBit_lanes (b : Block) (f : Field) (i : Nat) : (b.clrBit f i).lanes = b.lanes := rfl
@[simp] theorem Block.clrBit_rings (b : Block) (f : Field) (i : Nat) : (b.clrBit f i).rings = b.rings := rfl
@[simp] theorem Block.clrBit_ptp (b : Block) (f : Field) (i : Nat) : (b.clrBit f i).ptp = b.ptp := rfl
@[simp] theorem Block.clrBit_sec (b : Block) (f : Field) (i : Nat) : (b.clrBit f i).sec = b.sec := rfl
@[simp] theorem Block.clrBit_cps (b : Block) (f : Field) (i : Nat) : (b.clrBit f i).cps = b.cps := rfl
@[simp] theorem Block.clrBit_outs (b : Block) (f : Field) (i : Nat) : (b.clrBit f i).outs = b.outs := rfl
@[simp] theorem Block.clrBit_clk (b : Block) (f : Field) (i : Nat) : (b.clrBit f i).clk = b.clk := rfl
@[simp] theorem Block.clrBit_tic (b : Block) (f : Field) (i : Nat) : (b.clrBit f i).tic = b.tic := rfl
@[simp] theorem Block.clrBit_cal (b : Block) (f : Field) (i : Nat) : (b.clrBit f i).cal = b.cal := rfl
@[simp] theorem Block.clrBit_pair (b : Block) (f : Field) (i : Nat) : (b.clrBit f i).pair = b.pair := rfl
@[simp] theorem Block.clrBit_pw (b : Block) (f : Field) (i : Nat) : (b.clrBit f i).pw = b.pw := rfl
@[simp] theorem Block.clrBit_strikes (b : Block) (f : Field) (i : Nat) : (b.clrBit f i).strikes = b.strikes := rfl
@[simp] theorem Block.clrBit_retired (b : Block) (f : Field) (i : Nat) : (b.clrBit f i).retired = b.retired := rfl
@[simp] theorem Block.clrBit_retRec (b : Block) (f : Field) (i : Nat) : (b.clrBit f i).retRec = b.retRec := rfl
@[simp] theorem Block.clrBit_free (b : Block) (f : Field) (i : Nat) : (b.clrBit f i).free = b.free := rfl
@[simp] theorem Block.clrBit_out (b : Block) (f : Field) (i : Nat) : (b.clrBit f i).out = b.out := rfl

/-! ### resetRegs -/

@[simp] theorem Block.resetRegs_utags (b : Block) (p : Nat → Bool) : (b.resetRegs p).utags = b.utags := rfl
@[simp] theorem Block.resetRegs_tm (b : Block) (p : Nat → Bool) : (b.resetRegs p).tm = b.tm := rfl
@[simp] theorem Block.resetRegs_cyc (b : Block) (p : Nat → Bool) : (b.resetRegs p).cyc = b.cyc := rfl
@[simp] theorem Block.resetRegs_host (b : Block) (p : Nat → Bool) : (b.resetRegs p).host = b.host := rfl
@[simp] theorem Block.resetRegs_cav (b : Block) (p : Nat → Bool) : (b.resetRegs p).cav = b.cav := rfl
@[simp] theorem Block.resetRegs_axes (b : Block) (p : Nat → Bool) : (b.resetRegs p).axes = b.axes := rfl
@[simp] theorem Block.resetRegs_encs (b : Block) (p : Nat → Bool) : (b.resetRegs p).encs = b.encs := rfl
@[simp] theorem Block.resetRegs_mainsLast (b : Block) (p : Nat → Bool) : (b.resetRegs p).mainsLast = b.mainsLast := rfl
@[simp] theorem Block.resetRegs_mainsGap (b : Block) (p : Nat → Bool) : (b.resetRegs p).mainsGap = b.mainsGap := rfl
@[simp] theorem Block.resetRegs_eng (b : Block) (p : Nat → Bool) : (b.resetRegs p).eng = b.eng := rfl
@[simp] theorem Block.resetRegs_trc (b : Block) (p : Nat → Bool) : (b.resetRegs p).trc = b.trc := rfl
@[simp] theorem Block.resetRegs_snap (b : Block) (p : Nat → Bool) : (b.resetRegs p).snap = b.snap := rfl
@[simp] theorem Block.resetRegs_flw (b : Block) (p : Nat → Bool) : (b.resetRegs p).flw = b.flw := rfl
@[simp] theorem Block.resetRegs_sw (b : Block) (p : Nat → Bool) : (b.resetRegs p).sw = b.sw := rfl
@[simp] theorem Block.resetRegs_macs (b : Block) (p : Nat → Bool) : (b.resetRegs p).macs = b.macs := rfl
@[simp] theorem Block.resetRegs_lanes (b : Block) (p : Nat → Bool) : (b.resetRegs p).lanes = b.lanes := rfl
@[simp] theorem Block.resetRegs_rings (b : Block) (p : Nat → Bool) : (b.resetRegs p).rings = b.rings := rfl
@[simp] theorem Block.resetRegs_ptp (b : Block) (p : Nat → Bool) : (b.resetRegs p).ptp = b.ptp := rfl
@[simp] theorem Block.resetRegs_sec (b : Block) (p : Nat → Bool) : (b.resetRegs p).sec = b.sec := rfl
@[simp] theorem Block.resetRegs_cps (b : Block) (p : Nat → Bool) : (b.resetRegs p).cps = b.cps := rfl
@[simp] theorem Block.resetRegs_outs (b : Block) (p : Nat → Bool) : (b.resetRegs p).outs = b.outs := rfl
@[simp] theorem Block.resetRegs_clk (b : Block) (p : Nat → Bool) : (b.resetRegs p).clk = b.clk := rfl
@[simp] theorem Block.resetRegs_tic (b : Block) (p : Nat → Bool) : (b.resetRegs p).tic = b.tic := rfl
@[simp] theorem Block.resetRegs_cal (b : Block) (p : Nat → Bool) : (b.resetRegs p).cal = b.cal := rfl
@[simp] theorem Block.resetRegs_pair (b : Block) (p : Nat → Bool) : (b.resetRegs p).pair = b.pair := rfl
@[simp] theorem Block.resetRegs_pw (b : Block) (p : Nat → Bool) : (b.resetRegs p).pw = b.pw := rfl
@[simp] theorem Block.resetRegs_strikes (b : Block) (p : Nat → Bool) : (b.resetRegs p).strikes = b.strikes := rfl
@[simp] theorem Block.resetRegs_retired (b : Block) (p : Nat → Bool) : (b.resetRegs p).retired = b.retired := rfl
@[simp] theorem Block.resetRegs_retRec (b : Block) (p : Nat → Bool) : (b.resetRegs p).retRec = b.retRec := rfl
@[simp] theorem Block.resetRegs_free (b : Block) (p : Nat → Bool) : (b.resetRegs p).free = b.free := rfl
@[simp] theorem Block.resetRegs_out (b : Block) (p : Nat → Bool) : (b.resetRegs p).out = b.out := rfl

/-! ### mapCal -/

@[simp] theorem Block.mapCal_regs (b : Block) (h : CalSt → CalSt) : (b.mapCal h).regs = b.regs := rfl
@[simp] theorem Block.mapCal_utags (b : Block) (h : CalSt → CalSt) : (b.mapCal h).utags = b.utags := rfl
@[simp] theorem Block.mapCal_tm (b : Block) (h : CalSt → CalSt) : (b.mapCal h).tm = b.tm := rfl
@[simp] theorem Block.mapCal_cyc (b : Block) (h : CalSt → CalSt) : (b.mapCal h).cyc = b.cyc := rfl
@[simp] theorem Block.mapCal_host (b : Block) (h : CalSt → CalSt) : (b.mapCal h).host = b.host := rfl
@[simp] theorem Block.mapCal_cav (b : Block) (h : CalSt → CalSt) : (b.mapCal h).cav = b.cav := rfl
@[simp] theorem Block.mapCal_axes (b : Block) (h : CalSt → CalSt) : (b.mapCal h).axes = b.axes := rfl
@[simp] theorem Block.mapCal_encs (b : Block) (h : CalSt → CalSt) : (b.mapCal h).encs = b.encs := rfl
@[simp] theorem Block.mapCal_mainsLast (b : Block) (h : CalSt → CalSt) : (b.mapCal h).mainsLast = b.mainsLast := rfl
@[simp] theorem Block.mapCal_mainsGap (b : Block) (h : CalSt → CalSt) : (b.mapCal h).mainsGap = b.mainsGap := rfl
@[simp] theorem Block.mapCal_eng (b : Block) (h : CalSt → CalSt) : (b.mapCal h).eng = b.eng := rfl
@[simp] theorem Block.mapCal_trc (b : Block) (h : CalSt → CalSt) : (b.mapCal h).trc = b.trc := rfl
@[simp] theorem Block.mapCal_snap (b : Block) (h : CalSt → CalSt) : (b.mapCal h).snap = b.snap := rfl
@[simp] theorem Block.mapCal_flw (b : Block) (h : CalSt → CalSt) : (b.mapCal h).flw = b.flw := rfl
@[simp] theorem Block.mapCal_sw (b : Block) (h : CalSt → CalSt) : (b.mapCal h).sw = b.sw := rfl
@[simp] theorem Block.mapCal_macs (b : Block) (h : CalSt → CalSt) : (b.mapCal h).macs = b.macs := rfl
@[simp] theorem Block.mapCal_lanes (b : Block) (h : CalSt → CalSt) : (b.mapCal h).lanes = b.lanes := rfl
@[simp] theorem Block.mapCal_rings (b : Block) (h : CalSt → CalSt) : (b.mapCal h).rings = b.rings := rfl
@[simp] theorem Block.mapCal_ptp (b : Block) (h : CalSt → CalSt) : (b.mapCal h).ptp = b.ptp := rfl
@[simp] theorem Block.mapCal_sec (b : Block) (h : CalSt → CalSt) : (b.mapCal h).sec = b.sec := rfl
@[simp] theorem Block.mapCal_cps (b : Block) (h : CalSt → CalSt) : (b.mapCal h).cps = b.cps := rfl
@[simp] theorem Block.mapCal_outs (b : Block) (h : CalSt → CalSt) : (b.mapCal h).outs = b.outs := rfl
@[simp] theorem Block.mapCal_clk (b : Block) (h : CalSt → CalSt) : (b.mapCal h).clk = b.clk := rfl
@[simp] theorem Block.mapCal_tic (b : Block) (h : CalSt → CalSt) : (b.mapCal h).tic = b.tic := rfl
@[simp] theorem Block.mapCal_pair (b : Block) (h : CalSt → CalSt) : (b.mapCal h).pair = b.pair := rfl
@[simp] theorem Block.mapCal_pw (b : Block) (h : CalSt → CalSt) : (b.mapCal h).pw = b.pw := rfl
@[simp] theorem Block.mapCal_strikes (b : Block) (h : CalSt → CalSt) : (b.mapCal h).strikes = b.strikes := rfl
@[simp] theorem Block.mapCal_retired (b : Block) (h : CalSt → CalSt) : (b.mapCal h).retired = b.retired := rfl
@[simp] theorem Block.mapCal_retRec (b : Block) (h : CalSt → CalSt) : (b.mapCal h).retRec = b.retRec := rfl
@[simp] theorem Block.mapCal_free (b : Block) (h : CalSt → CalSt) : (b.mapCal h).free = b.free := rfl
@[simp] theorem Block.mapCal_out (b : Block) (h : CalSt → CalSt) : (b.mapCal h).out = b.out := rfl

/-! ### mapCmp -/

@[simp] theorem Block.mapCmp_regs (b : Block) (h : CmpSt → CmpSt) : (b.mapCmp h).regs = b.regs := rfl
@[simp] theorem Block.mapCmp_utags (b : Block) (h : CmpSt → CmpSt) : (b.mapCmp h).utags = b.utags := rfl
@[simp] theorem Block.mapCmp_tm (b : Block) (h : CmpSt → CmpSt) : (b.mapCmp h).tm = b.tm := rfl
@[simp] theorem Block.mapCmp_cyc (b : Block) (h : CmpSt → CmpSt) : (b.mapCmp h).cyc = b.cyc := rfl
@[simp] theorem Block.mapCmp_host (b : Block) (h : CmpSt → CmpSt) : (b.mapCmp h).host = b.host := rfl
@[simp] theorem Block.mapCmp_cav (b : Block) (h : CmpSt → CmpSt) : (b.mapCmp h).cav = b.cav := rfl
@[simp] theorem Block.mapCmp_axes (b : Block) (h : CmpSt → CmpSt) : (b.mapCmp h).axes = b.axes := rfl
@[simp] theorem Block.mapCmp_encs (b : Block) (h : CmpSt → CmpSt) : (b.mapCmp h).encs = b.encs := rfl
@[simp] theorem Block.mapCmp_mainsLast (b : Block) (h : CmpSt → CmpSt) : (b.mapCmp h).mainsLast = b.mainsLast := rfl
@[simp] theorem Block.mapCmp_mainsGap (b : Block) (h : CmpSt → CmpSt) : (b.mapCmp h).mainsGap = b.mainsGap := rfl
@[simp] theorem Block.mapCmp_eng (b : Block) (h : CmpSt → CmpSt) : (b.mapCmp h).eng = b.eng := rfl
@[simp] theorem Block.mapCmp_trc (b : Block) (h : CmpSt → CmpSt) : (b.mapCmp h).trc = b.trc := rfl
@[simp] theorem Block.mapCmp_snap (b : Block) (h : CmpSt → CmpSt) : (b.mapCmp h).snap = b.snap := rfl
@[simp] theorem Block.mapCmp_flw (b : Block) (h : CmpSt → CmpSt) : (b.mapCmp h).flw = b.flw := rfl
@[simp] theorem Block.mapCmp_sw (b : Block) (h : CmpSt → CmpSt) : (b.mapCmp h).sw = b.sw := rfl
@[simp] theorem Block.mapCmp_macs (b : Block) (h : CmpSt → CmpSt) : (b.mapCmp h).macs = b.macs := rfl
@[simp] theorem Block.mapCmp_lanes (b : Block) (h : CmpSt → CmpSt) : (b.mapCmp h).lanes = b.lanes := rfl
@[simp] theorem Block.mapCmp_rings (b : Block) (h : CmpSt → CmpSt) : (b.mapCmp h).rings = b.rings := rfl
@[simp] theorem Block.mapCmp_ptp (b : Block) (h : CmpSt → CmpSt) : (b.mapCmp h).ptp = b.ptp := rfl
@[simp] theorem Block.mapCmp_sec (b : Block) (h : CmpSt → CmpSt) : (b.mapCmp h).sec = b.sec := rfl
@[simp] theorem Block.mapCmp_outs (b : Block) (h : CmpSt → CmpSt) : (b.mapCmp h).outs = b.outs := rfl
@[simp] theorem Block.mapCmp_clk (b : Block) (h : CmpSt → CmpSt) : (b.mapCmp h).clk = b.clk := rfl
@[simp] theorem Block.mapCmp_tic (b : Block) (h : CmpSt → CmpSt) : (b.mapCmp h).tic = b.tic := rfl
@[simp] theorem Block.mapCmp_cal (b : Block) (h : CmpSt → CmpSt) : (b.mapCmp h).cal = b.cal := rfl
@[simp] theorem Block.mapCmp_pair (b : Block) (h : CmpSt → CmpSt) : (b.mapCmp h).pair = b.pair := rfl
@[simp] theorem Block.mapCmp_pw (b : Block) (h : CmpSt → CmpSt) : (b.mapCmp h).pw = b.pw := rfl
@[simp] theorem Block.mapCmp_strikes (b : Block) (h : CmpSt → CmpSt) : (b.mapCmp h).strikes = b.strikes := rfl
@[simp] theorem Block.mapCmp_retired (b : Block) (h : CmpSt → CmpSt) : (b.mapCmp h).retired = b.retired := rfl
@[simp] theorem Block.mapCmp_retRec (b : Block) (h : CmpSt → CmpSt) : (b.mapCmp h).retRec = b.retRec := rfl
@[simp] theorem Block.mapCmp_free (b : Block) (h : CmpSt → CmpSt) : (b.mapCmp h).free = b.free := rfl
@[simp] theorem Block.mapCmp_out (b : Block) (h : CmpSt → CmpSt) : (b.mapCmp h).out = b.out := rfl

/-! ### mapPw -/

@[simp] theorem Block.mapPw_regs (b : Block) (h : PwSt → PwSt) : (b.mapPw h).regs = b.regs := rfl
@[simp] theorem Block.mapPw_utags (b : Block) (h : PwSt → PwSt) : (b.mapPw h).utags = b.utags := rfl
@[simp] theorem Block.mapPw_tm (b : Block) (h : PwSt → PwSt) : (b.mapPw h).tm = b.tm := rfl
@[simp] theorem Block.mapPw_cyc (b : Block) (h : PwSt → PwSt) : (b.mapPw h).cyc = b.cyc := rfl
@[simp] theorem Block.mapPw_host (b : Block) (h : PwSt → PwSt) : (b.mapPw h).host = b.host := rfl
@[simp] theorem Block.mapPw_cav (b : Block) (h : PwSt → PwSt) : (b.mapPw h).cav = b.cav := rfl
@[simp] theorem Block.mapPw_axes (b : Block) (h : PwSt → PwSt) : (b.mapPw h).axes = b.axes := rfl
@[simp] theorem Block.mapPw_encs (b : Block) (h : PwSt → PwSt) : (b.mapPw h).encs = b.encs := rfl
@[simp] theorem Block.mapPw_mainsLast (b : Block) (h : PwSt → PwSt) : (b.mapPw h).mainsLast = b.mainsLast := rfl
@[simp] theorem Block.mapPw_mainsGap (b : Block) (h : PwSt → PwSt) : (b.mapPw h).mainsGap = b.mainsGap := rfl
@[simp] theorem Block.mapPw_eng (b : Block) (h : PwSt → PwSt) : (b.mapPw h).eng = b.eng := rfl
@[simp] theorem Block.mapPw_trc (b : Block) (h : PwSt → PwSt) : (b.mapPw h).trc = b.trc := rfl
@[simp] theorem Block.mapPw_snap (b : Block) (h : PwSt → PwSt) : (b.mapPw h).snap = b.snap := rfl
@[simp] theorem Block.mapPw_flw (b : Block) (h : PwSt → PwSt) : (b.mapPw h).flw = b.flw := rfl
@[simp] theorem Block.mapPw_sw (b : Block) (h : PwSt → PwSt) : (b.mapPw h).sw = b.sw := rfl
@[simp] theorem Block.mapPw_macs (b : Block) (h : PwSt → PwSt) : (b.mapPw h).macs = b.macs := rfl
@[simp] theorem Block.mapPw_lanes (b : Block) (h : PwSt → PwSt) : (b.mapPw h).lanes = b.lanes := rfl
@[simp] theorem Block.mapPw_rings (b : Block) (h : PwSt → PwSt) : (b.mapPw h).rings = b.rings := rfl
@[simp] theorem Block.mapPw_ptp (b : Block) (h : PwSt → PwSt) : (b.mapPw h).ptp = b.ptp := rfl
@[simp] theorem Block.mapPw_sec (b : Block) (h : PwSt → PwSt) : (b.mapPw h).sec = b.sec := rfl
@[simp] theorem Block.mapPw_cps (b : Block) (h : PwSt → PwSt) : (b.mapPw h).cps = b.cps := rfl
@[simp] theorem Block.mapPw_outs (b : Block) (h : PwSt → PwSt) : (b.mapPw h).outs = b.outs := rfl
@[simp] theorem Block.mapPw_clk (b : Block) (h : PwSt → PwSt) : (b.mapPw h).clk = b.clk := rfl
@[simp] theorem Block.mapPw_tic (b : Block) (h : PwSt → PwSt) : (b.mapPw h).tic = b.tic := rfl
@[simp] theorem Block.mapPw_cal (b : Block) (h : PwSt → PwSt) : (b.mapPw h).cal = b.cal := rfl
@[simp] theorem Block.mapPw_pair (b : Block) (h : PwSt → PwSt) : (b.mapPw h).pair = b.pair := rfl
@[simp] theorem Block.mapPw_strikes (b : Block) (h : PwSt → PwSt) : (b.mapPw h).strikes = b.strikes := rfl
@[simp] theorem Block.mapPw_retired (b : Block) (h : PwSt → PwSt) : (b.mapPw h).retired = b.retired := rfl
@[simp] theorem Block.mapPw_retRec (b : Block) (h : PwSt → PwSt) : (b.mapPw h).retRec = b.retRec := rfl
@[simp] theorem Block.mapPw_free (b : Block) (h : PwSt → PwSt) : (b.mapPw h).free = b.free := rfl
@[simp] theorem Block.mapPw_out (b : Block) (h : PwSt → PwSt) : (b.mapPw h).out = b.out := rfl

/-! ### mapFlw -/

@[simp] theorem Block.mapFlw_regs (b : Block) (h : FlwSt → FlwSt) : (b.mapFlw h).regs = b.regs := rfl
@[simp] theorem Block.mapFlw_utags (b : Block) (h : FlwSt → FlwSt) : (b.mapFlw h).utags = b.utags := rfl
@[simp] theorem Block.mapFlw_tm (b : Block) (h : FlwSt → FlwSt) : (b.mapFlw h).tm = b.tm := rfl
@[simp] theorem Block.mapFlw_cyc (b : Block) (h : FlwSt → FlwSt) : (b.mapFlw h).cyc = b.cyc := rfl
@[simp] theorem Block.mapFlw_host (b : Block) (h : FlwSt → FlwSt) : (b.mapFlw h).host = b.host := rfl
@[simp] theorem Block.mapFlw_cav (b : Block) (h : FlwSt → FlwSt) : (b.mapFlw h).cav = b.cav := rfl
@[simp] theorem Block.mapFlw_axes (b : Block) (h : FlwSt → FlwSt) : (b.mapFlw h).axes = b.axes := rfl
@[simp] theorem Block.mapFlw_encs (b : Block) (h : FlwSt → FlwSt) : (b.mapFlw h).encs = b.encs := rfl
@[simp] theorem Block.mapFlw_mainsLast (b : Block) (h : FlwSt → FlwSt) : (b.mapFlw h).mainsLast = b.mainsLast := rfl
@[simp] theorem Block.mapFlw_mainsGap (b : Block) (h : FlwSt → FlwSt) : (b.mapFlw h).mainsGap = b.mainsGap := rfl
@[simp] theorem Block.mapFlw_eng (b : Block) (h : FlwSt → FlwSt) : (b.mapFlw h).eng = b.eng := rfl
@[simp] theorem Block.mapFlw_trc (b : Block) (h : FlwSt → FlwSt) : (b.mapFlw h).trc = b.trc := rfl
@[simp] theorem Block.mapFlw_snap (b : Block) (h : FlwSt → FlwSt) : (b.mapFlw h).snap = b.snap := rfl
@[simp] theorem Block.mapFlw_sw (b : Block) (h : FlwSt → FlwSt) : (b.mapFlw h).sw = b.sw := rfl
@[simp] theorem Block.mapFlw_macs (b : Block) (h : FlwSt → FlwSt) : (b.mapFlw h).macs = b.macs := rfl
@[simp] theorem Block.mapFlw_lanes (b : Block) (h : FlwSt → FlwSt) : (b.mapFlw h).lanes = b.lanes := rfl
@[simp] theorem Block.mapFlw_rings (b : Block) (h : FlwSt → FlwSt) : (b.mapFlw h).rings = b.rings := rfl
@[simp] theorem Block.mapFlw_ptp (b : Block) (h : FlwSt → FlwSt) : (b.mapFlw h).ptp = b.ptp := rfl
@[simp] theorem Block.mapFlw_sec (b : Block) (h : FlwSt → FlwSt) : (b.mapFlw h).sec = b.sec := rfl
@[simp] theorem Block.mapFlw_cps (b : Block) (h : FlwSt → FlwSt) : (b.mapFlw h).cps = b.cps := rfl
@[simp] theorem Block.mapFlw_outs (b : Block) (h : FlwSt → FlwSt) : (b.mapFlw h).outs = b.outs := rfl
@[simp] theorem Block.mapFlw_clk (b : Block) (h : FlwSt → FlwSt) : (b.mapFlw h).clk = b.clk := rfl
@[simp] theorem Block.mapFlw_tic (b : Block) (h : FlwSt → FlwSt) : (b.mapFlw h).tic = b.tic := rfl
@[simp] theorem Block.mapFlw_cal (b : Block) (h : FlwSt → FlwSt) : (b.mapFlw h).cal = b.cal := rfl
@[simp] theorem Block.mapFlw_pair (b : Block) (h : FlwSt → FlwSt) : (b.mapFlw h).pair = b.pair := rfl
@[simp] theorem Block.mapFlw_pw (b : Block) (h : FlwSt → FlwSt) : (b.mapFlw h).pw = b.pw := rfl
@[simp] theorem Block.mapFlw_strikes (b : Block) (h : FlwSt → FlwSt) : (b.mapFlw h).strikes = b.strikes := rfl
@[simp] theorem Block.mapFlw_retired (b : Block) (h : FlwSt → FlwSt) : (b.mapFlw h).retired = b.retired := rfl
@[simp] theorem Block.mapFlw_retRec (b : Block) (h : FlwSt → FlwSt) : (b.mapFlw h).retRec = b.retRec := rfl
@[simp] theorem Block.mapFlw_free (b : Block) (h : FlwSt → FlwSt) : (b.mapFlw h).free = b.free := rfl
@[simp] theorem Block.mapFlw_out (b : Block) (h : FlwSt → FlwSt) : (b.mapFlw h).out = b.out := rfl

/-! ### mapEng -/

@[simp] theorem Block.mapEng_regs (b : Block) (n : Nat) (h : Engine → Engine) : (b.mapEng n h).regs = b.regs := rfl
@[simp] theorem Block.mapEng_utags (b : Block) (n : Nat) (h : Engine → Engine) : (b.mapEng n h).utags = b.utags := rfl
@[simp] theorem Block.mapEng_tm (b : Block) (n : Nat) (h : Engine → Engine) : (b.mapEng n h).tm = b.tm := rfl
@[simp] theorem Block.mapEng_cyc (b : Block) (n : Nat) (h : Engine → Engine) : (b.mapEng n h).cyc = b.cyc := rfl
@[simp] theorem Block.mapEng_host (b : Block) (n : Nat) (h : Engine → Engine) : (b.mapEng n h).host = b.host := rfl
@[simp] theorem Block.mapEng_cav (b : Block) (n : Nat) (h : Engine → Engine) : (b.mapEng n h).cav = b.cav := rfl
@[simp] theorem Block.mapEng_axes (b : Block) (n : Nat) (h : Engine → Engine) : (b.mapEng n h).axes = b.axes := rfl
@[simp] theorem Block.mapEng_encs (b : Block) (n : Nat) (h : Engine → Engine) : (b.mapEng n h).encs = b.encs := rfl
@[simp] theorem Block.mapEng_mainsLast (b : Block) (n : Nat) (h : Engine → Engine) : (b.mapEng n h).mainsLast = b.mainsLast := rfl
@[simp] theorem Block.mapEng_mainsGap (b : Block) (n : Nat) (h : Engine → Engine) : (b.mapEng n h).mainsGap = b.mainsGap := rfl
@[simp] theorem Block.mapEng_trc (b : Block) (n : Nat) (h : Engine → Engine) : (b.mapEng n h).trc = b.trc := rfl
@[simp] theorem Block.mapEng_snap (b : Block) (n : Nat) (h : Engine → Engine) : (b.mapEng n h).snap = b.snap := rfl
@[simp] theorem Block.mapEng_flw (b : Block) (n : Nat) (h : Engine → Engine) : (b.mapEng n h).flw = b.flw := rfl
@[simp] theorem Block.mapEng_sw (b : Block) (n : Nat) (h : Engine → Engine) : (b.mapEng n h).sw = b.sw := rfl
@[simp] theorem Block.mapEng_macs (b : Block) (n : Nat) (h : Engine → Engine) : (b.mapEng n h).macs = b.macs := rfl
@[simp] theorem Block.mapEng_lanes (b : Block) (n : Nat) (h : Engine → Engine) : (b.mapEng n h).lanes = b.lanes := rfl
@[simp] theorem Block.mapEng_rings (b : Block) (n : Nat) (h : Engine → Engine) : (b.mapEng n h).rings = b.rings := rfl
@[simp] theorem Block.mapEng_ptp (b : Block) (n : Nat) (h : Engine → Engine) : (b.mapEng n h).ptp = b.ptp := rfl
@[simp] theorem Block.mapEng_sec (b : Block) (n : Nat) (h : Engine → Engine) : (b.mapEng n h).sec = b.sec := rfl
@[simp] theorem Block.mapEng_cps (b : Block) (n : Nat) (h : Engine → Engine) : (b.mapEng n h).cps = b.cps := rfl
@[simp] theorem Block.mapEng_outs (b : Block) (n : Nat) (h : Engine → Engine) : (b.mapEng n h).outs = b.outs := rfl
@[simp] theorem Block.mapEng_clk (b : Block) (n : Nat) (h : Engine → Engine) : (b.mapEng n h).clk = b.clk := rfl
@[simp] theorem Block.mapEng_tic (b : Block) (n : Nat) (h : Engine → Engine) : (b.mapEng n h).tic = b.tic := rfl
@[simp] theorem Block.mapEng_cal (b : Block) (n : Nat) (h : Engine → Engine) : (b.mapEng n h).cal = b.cal := rfl
@[simp] theorem Block.mapEng_pair (b : Block) (n : Nat) (h : Engine → Engine) : (b.mapEng n h).pair = b.pair := rfl
@[simp] theorem Block.mapEng_pw (b : Block) (n : Nat) (h : Engine → Engine) : (b.mapEng n h).pw = b.pw := rfl
@[simp] theorem Block.mapEng_strikes (b : Block) (n : Nat) (h : Engine → Engine) : (b.mapEng n h).strikes = b.strikes := rfl
@[simp] theorem Block.mapEng_retired (b : Block) (n : Nat) (h : Engine → Engine) : (b.mapEng n h).retired = b.retired := rfl
@[simp] theorem Block.mapEng_retRec (b : Block) (n : Nat) (h : Engine → Engine) : (b.mapEng n h).retRec = b.retRec := rfl
@[simp] theorem Block.mapEng_free (b : Block) (n : Nat) (h : Engine → Engine) : (b.mapEng n h).free = b.free := rfl
@[simp] theorem Block.mapEng_out (b : Block) (n : Nat) (h : Engine → Engine) : (b.mapEng n h).out = b.out := rfl

/-! ### mapE -/

@[simp] theorem Block.mapE_regs (b : Block) (e : Fin 16) (h : Engine → Engine) : (b.mapE e h).regs = b.regs := rfl
@[simp] theorem Block.mapE_utags (b : Block) (e : Fin 16) (h : Engine → Engine) : (b.mapE e h).utags = b.utags := rfl
@[simp] theorem Block.mapE_tm (b : Block) (e : Fin 16) (h : Engine → Engine) : (b.mapE e h).tm = b.tm := rfl
@[simp] theorem Block.mapE_cyc (b : Block) (e : Fin 16) (h : Engine → Engine) : (b.mapE e h).cyc = b.cyc := rfl
@[simp] theorem Block.mapE_host (b : Block) (e : Fin 16) (h : Engine → Engine) : (b.mapE e h).host = b.host := rfl
@[simp] theorem Block.mapE_cav (b : Block) (e : Fin 16) (h : Engine → Engine) : (b.mapE e h).cav = b.cav := rfl
@[simp] theorem Block.mapE_axes (b : Block) (e : Fin 16) (h : Engine → Engine) : (b.mapE e h).axes = b.axes := rfl
@[simp] theorem Block.mapE_encs (b : Block) (e : Fin 16) (h : Engine → Engine) : (b.mapE e h).encs = b.encs := rfl
@[simp] theorem Block.mapE_mainsLast (b : Block) (e : Fin 16) (h : Engine → Engine) : (b.mapE e h).mainsLast = b.mainsLast := rfl
@[simp] theorem Block.mapE_mainsGap (b : Block) (e : Fin 16) (h : Engine → Engine) : (b.mapE e h).mainsGap = b.mainsGap := rfl
@[simp] theorem Block.mapE_trc (b : Block) (e : Fin 16) (h : Engine → Engine) : (b.mapE e h).trc = b.trc := rfl
@[simp] theorem Block.mapE_snap (b : Block) (e : Fin 16) (h : Engine → Engine) : (b.mapE e h).snap = b.snap := rfl
@[simp] theorem Block.mapE_flw (b : Block) (e : Fin 16) (h : Engine → Engine) : (b.mapE e h).flw = b.flw := rfl
@[simp] theorem Block.mapE_sw (b : Block) (e : Fin 16) (h : Engine → Engine) : (b.mapE e h).sw = b.sw := rfl
@[simp] theorem Block.mapE_macs (b : Block) (e : Fin 16) (h : Engine → Engine) : (b.mapE e h).macs = b.macs := rfl
@[simp] theorem Block.mapE_lanes (b : Block) (e : Fin 16) (h : Engine → Engine) : (b.mapE e h).lanes = b.lanes := rfl
@[simp] theorem Block.mapE_rings (b : Block) (e : Fin 16) (h : Engine → Engine) : (b.mapE e h).rings = b.rings := rfl
@[simp] theorem Block.mapE_ptp (b : Block) (e : Fin 16) (h : Engine → Engine) : (b.mapE e h).ptp = b.ptp := rfl
@[simp] theorem Block.mapE_sec (b : Block) (e : Fin 16) (h : Engine → Engine) : (b.mapE e h).sec = b.sec := rfl
@[simp] theorem Block.mapE_cps (b : Block) (e : Fin 16) (h : Engine → Engine) : (b.mapE e h).cps = b.cps := rfl
@[simp] theorem Block.mapE_outs (b : Block) (e : Fin 16) (h : Engine → Engine) : (b.mapE e h).outs = b.outs := rfl
@[simp] theorem Block.mapE_clk (b : Block) (e : Fin 16) (h : Engine → Engine) : (b.mapE e h).clk = b.clk := rfl
@[simp] theorem Block.mapE_tic (b : Block) (e : Fin 16) (h : Engine → Engine) : (b.mapE e h).tic = b.tic := rfl
@[simp] theorem Block.mapE_cal (b : Block) (e : Fin 16) (h : Engine → Engine) : (b.mapE e h).cal = b.cal := rfl
@[simp] theorem Block.mapE_pair (b : Block) (e : Fin 16) (h : Engine → Engine) : (b.mapE e h).pair = b.pair := rfl
@[simp] theorem Block.mapE_pw (b : Block) (e : Fin 16) (h : Engine → Engine) : (b.mapE e h).pw = b.pw := rfl
@[simp] theorem Block.mapE_strikes (b : Block) (e : Fin 16) (h : Engine → Engine) : (b.mapE e h).strikes = b.strikes := rfl
@[simp] theorem Block.mapE_retired (b : Block) (e : Fin 16) (h : Engine → Engine) : (b.mapE e h).retired = b.retired := rfl
@[simp] theorem Block.mapE_retRec (b : Block) (e : Fin 16) (h : Engine → Engine) : (b.mapE e h).retRec = b.retRec := rfl
@[simp] theorem Block.mapE_free (b : Block) (e : Fin 16) (h : Engine → Engine) : (b.mapE e h).free = b.free := rfl
@[simp] theorem Block.mapE_out (b : Block) (e : Fin 16) (h : Engine → Engine) : (b.mapE e h).out = b.out := rfl

/-! ### mapSec -/

@[simp] theorem Block.mapSec_regs (b : Block) (h : SecSt → SecSt) : (b.mapSec h).regs = b.regs := rfl
@[simp] theorem Block.mapSec_utags (b : Block) (h : SecSt → SecSt) : (b.mapSec h).utags = b.utags := rfl
@[simp] theorem Block.mapSec_tm (b : Block) (h : SecSt → SecSt) : (b.mapSec h).tm = b.tm := rfl
@[simp] theorem Block.mapSec_cyc (b : Block) (h : SecSt → SecSt) : (b.mapSec h).cyc = b.cyc := rfl
@[simp] theorem Block.mapSec_host (b : Block) (h : SecSt → SecSt) : (b.mapSec h).host = b.host := rfl
@[simp] theorem Block.mapSec_cav (b : Block) (h : SecSt → SecSt) : (b.mapSec h).cav = b.cav := rfl
@[simp] theorem Block.mapSec_axes (b : Block) (h : SecSt → SecSt) : (b.mapSec h).axes = b.axes := rfl
@[simp] theorem Block.mapSec_encs (b : Block) (h : SecSt → SecSt) : (b.mapSec h).encs = b.encs := rfl
@[simp] theorem Block.mapSec_mainsLast (b : Block) (h : SecSt → SecSt) : (b.mapSec h).mainsLast = b.mainsLast := rfl
@[simp] theorem Block.mapSec_mainsGap (b : Block) (h : SecSt → SecSt) : (b.mapSec h).mainsGap = b.mainsGap := rfl
@[simp] theorem Block.mapSec_eng (b : Block) (h : SecSt → SecSt) : (b.mapSec h).eng = b.eng := rfl
@[simp] theorem Block.mapSec_trc (b : Block) (h : SecSt → SecSt) : (b.mapSec h).trc = b.trc := rfl
@[simp] theorem Block.mapSec_snap (b : Block) (h : SecSt → SecSt) : (b.mapSec h).snap = b.snap := rfl
@[simp] theorem Block.mapSec_flw (b : Block) (h : SecSt → SecSt) : (b.mapSec h).flw = b.flw := rfl
@[simp] theorem Block.mapSec_sw (b : Block) (h : SecSt → SecSt) : (b.mapSec h).sw = b.sw := rfl
@[simp] theorem Block.mapSec_macs (b : Block) (h : SecSt → SecSt) : (b.mapSec h).macs = b.macs := rfl
@[simp] theorem Block.mapSec_lanes (b : Block) (h : SecSt → SecSt) : (b.mapSec h).lanes = b.lanes := rfl
@[simp] theorem Block.mapSec_rings (b : Block) (h : SecSt → SecSt) : (b.mapSec h).rings = b.rings := rfl
@[simp] theorem Block.mapSec_ptp (b : Block) (h : SecSt → SecSt) : (b.mapSec h).ptp = b.ptp := rfl
@[simp] theorem Block.mapSec_cps (b : Block) (h : SecSt → SecSt) : (b.mapSec h).cps = b.cps := rfl
@[simp] theorem Block.mapSec_outs (b : Block) (h : SecSt → SecSt) : (b.mapSec h).outs = b.outs := rfl
@[simp] theorem Block.mapSec_clk (b : Block) (h : SecSt → SecSt) : (b.mapSec h).clk = b.clk := rfl
@[simp] theorem Block.mapSec_tic (b : Block) (h : SecSt → SecSt) : (b.mapSec h).tic = b.tic := rfl
@[simp] theorem Block.mapSec_cal (b : Block) (h : SecSt → SecSt) : (b.mapSec h).cal = b.cal := rfl
@[simp] theorem Block.mapSec_pair (b : Block) (h : SecSt → SecSt) : (b.mapSec h).pair = b.pair := rfl
@[simp] theorem Block.mapSec_pw (b : Block) (h : SecSt → SecSt) : (b.mapSec h).pw = b.pw := rfl
@[simp] theorem Block.mapSec_strikes (b : Block) (h : SecSt → SecSt) : (b.mapSec h).strikes = b.strikes := rfl
@[simp] theorem Block.mapSec_retired (b : Block) (h : SecSt → SecSt) : (b.mapSec h).retired = b.retired := rfl
@[simp] theorem Block.mapSec_retRec (b : Block) (h : SecSt → SecSt) : (b.mapSec h).retRec = b.retRec := rfl
@[simp] theorem Block.mapSec_free (b : Block) (h : SecSt → SecSt) : (b.mapSec h).free = b.free := rfl
@[simp] theorem Block.mapSec_out (b : Block) (h : SecSt → SecSt) : (b.mapSec h).out = b.out := rfl

/-! ### setAxis -/

@[simp] theorem Block.setAxis_regs (b : Block) (n : Fin 16) (x : Axis) : (b.setAxis n x).regs = b.regs := rfl
@[simp] theorem Block.setAxis_utags (b : Block) (n : Fin 16) (x : Axis) : (b.setAxis n x).utags = b.utags := rfl
@[simp] theorem Block.setAxis_tm (b : Block) (n : Fin 16) (x : Axis) : (b.setAxis n x).tm = b.tm := rfl
@[simp] theorem Block.setAxis_cyc (b : Block) (n : Fin 16) (x : Axis) : (b.setAxis n x).cyc = b.cyc := rfl
@[simp] theorem Block.setAxis_host (b : Block) (n : Fin 16) (x : Axis) : (b.setAxis n x).host = b.host := rfl
@[simp] theorem Block.setAxis_cav (b : Block) (n : Fin 16) (x : Axis) : (b.setAxis n x).cav = b.cav := rfl
@[simp] theorem Block.setAxis_encs (b : Block) (n : Fin 16) (x : Axis) : (b.setAxis n x).encs = b.encs := rfl
@[simp] theorem Block.setAxis_mainsLast (b : Block) (n : Fin 16) (x : Axis) : (b.setAxis n x).mainsLast = b.mainsLast := rfl
@[simp] theorem Block.setAxis_mainsGap (b : Block) (n : Fin 16) (x : Axis) : (b.setAxis n x).mainsGap = b.mainsGap := rfl
@[simp] theorem Block.setAxis_eng (b : Block) (n : Fin 16) (x : Axis) : (b.setAxis n x).eng = b.eng := rfl
@[simp] theorem Block.setAxis_trc (b : Block) (n : Fin 16) (x : Axis) : (b.setAxis n x).trc = b.trc := rfl
@[simp] theorem Block.setAxis_snap (b : Block) (n : Fin 16) (x : Axis) : (b.setAxis n x).snap = b.snap := rfl
@[simp] theorem Block.setAxis_flw (b : Block) (n : Fin 16) (x : Axis) : (b.setAxis n x).flw = b.flw := rfl
@[simp] theorem Block.setAxis_sw (b : Block) (n : Fin 16) (x : Axis) : (b.setAxis n x).sw = b.sw := rfl
@[simp] theorem Block.setAxis_macs (b : Block) (n : Fin 16) (x : Axis) : (b.setAxis n x).macs = b.macs := rfl
@[simp] theorem Block.setAxis_lanes (b : Block) (n : Fin 16) (x : Axis) : (b.setAxis n x).lanes = b.lanes := rfl
@[simp] theorem Block.setAxis_rings (b : Block) (n : Fin 16) (x : Axis) : (b.setAxis n x).rings = b.rings := rfl
@[simp] theorem Block.setAxis_ptp (b : Block) (n : Fin 16) (x : Axis) : (b.setAxis n x).ptp = b.ptp := rfl
@[simp] theorem Block.setAxis_sec (b : Block) (n : Fin 16) (x : Axis) : (b.setAxis n x).sec = b.sec := rfl
@[simp] theorem Block.setAxis_cps (b : Block) (n : Fin 16) (x : Axis) : (b.setAxis n x).cps = b.cps := rfl
@[simp] theorem Block.setAxis_outs (b : Block) (n : Fin 16) (x : Axis) : (b.setAxis n x).outs = b.outs := rfl
@[simp] theorem Block.setAxis_clk (b : Block) (n : Fin 16) (x : Axis) : (b.setAxis n x).clk = b.clk := rfl
@[simp] theorem Block.setAxis_tic (b : Block) (n : Fin 16) (x : Axis) : (b.setAxis n x).tic = b.tic := rfl
@[simp] theorem Block.setAxis_cal (b : Block) (n : Fin 16) (x : Axis) : (b.setAxis n x).cal = b.cal := rfl
@[simp] theorem Block.setAxis_pair (b : Block) (n : Fin 16) (x : Axis) : (b.setAxis n x).pair = b.pair := rfl
@[simp] theorem Block.setAxis_pw (b : Block) (n : Fin 16) (x : Axis) : (b.setAxis n x).pw = b.pw := rfl
@[simp] theorem Block.setAxis_strikes (b : Block) (n : Fin 16) (x : Axis) : (b.setAxis n x).strikes = b.strikes := rfl
@[simp] theorem Block.setAxis_retired (b : Block) (n : Fin 16) (x : Axis) : (b.setAxis n x).retired = b.retired := rfl
@[simp] theorem Block.setAxis_retRec (b : Block) (n : Fin 16) (x : Axis) : (b.setAxis n x).retRec = b.retRec := rfl
@[simp] theorem Block.setAxis_free (b : Block) (n : Fin 16) (x : Axis) : (b.setAxis n x).free = b.free := rfl
@[simp] theorem Block.setAxis_out (b : Block) (n : Fin 16) (x : Axis) : (b.setAxis n x).out = b.out := rfl

/-! ### emit -/

@[simp] theorem Block.emit_regs (b : Block) (o : Out) : (b.emit o).regs = b.regs := rfl
@[simp] theorem Block.emit_utags (b : Block) (o : Out) : (b.emit o).utags = b.utags := rfl
@[simp] theorem Block.emit_tm (b : Block) (o : Out) : (b.emit o).tm = b.tm := rfl
@[simp] theorem Block.emit_cyc (b : Block) (o : Out) : (b.emit o).cyc = b.cyc := rfl
@[simp] theorem Block.emit_host (b : Block) (o : Out) : (b.emit o).host = b.host := rfl
@[simp] theorem Block.emit_cav (b : Block) (o : Out) : (b.emit o).cav = b.cav := rfl
@[simp] theorem Block.emit_axes (b : Block) (o : Out) : (b.emit o).axes = b.axes := rfl
@[simp] theorem Block.emit_encs (b : Block) (o : Out) : (b.emit o).encs = b.encs := rfl
@[simp] theorem Block.emit_mainsLast (b : Block) (o : Out) : (b.emit o).mainsLast = b.mainsLast := rfl
@[simp] theorem Block.emit_mainsGap (b : Block) (o : Out) : (b.emit o).mainsGap = b.mainsGap := rfl
@[simp] theorem Block.emit_eng (b : Block) (o : Out) : (b.emit o).eng = b.eng := rfl
@[simp] theorem Block.emit_trc (b : Block) (o : Out) : (b.emit o).trc = b.trc := rfl
@[simp] theorem Block.emit_snap (b : Block) (o : Out) : (b.emit o).snap = b.snap := rfl
@[simp] theorem Block.emit_flw (b : Block) (o : Out) : (b.emit o).flw = b.flw := rfl
@[simp] theorem Block.emit_sw (b : Block) (o : Out) : (b.emit o).sw = b.sw := rfl
@[simp] theorem Block.emit_macs (b : Block) (o : Out) : (b.emit o).macs = b.macs := rfl
@[simp] theorem Block.emit_lanes (b : Block) (o : Out) : (b.emit o).lanes = b.lanes := rfl
@[simp] theorem Block.emit_rings (b : Block) (o : Out) : (b.emit o).rings = b.rings := rfl
@[simp] theorem Block.emit_ptp (b : Block) (o : Out) : (b.emit o).ptp = b.ptp := rfl
@[simp] theorem Block.emit_sec (b : Block) (o : Out) : (b.emit o).sec = b.sec := rfl
@[simp] theorem Block.emit_cps (b : Block) (o : Out) : (b.emit o).cps = b.cps := rfl
@[simp] theorem Block.emit_outs (b : Block) (o : Out) : (b.emit o).outs = b.outs := rfl
@[simp] theorem Block.emit_clk (b : Block) (o : Out) : (b.emit o).clk = b.clk := rfl
@[simp] theorem Block.emit_tic (b : Block) (o : Out) : (b.emit o).tic = b.tic := rfl
@[simp] theorem Block.emit_cal (b : Block) (o : Out) : (b.emit o).cal = b.cal := rfl
@[simp] theorem Block.emit_pair (b : Block) (o : Out) : (b.emit o).pair = b.pair := rfl
@[simp] theorem Block.emit_pw (b : Block) (o : Out) : (b.emit o).pw = b.pw := rfl
@[simp] theorem Block.emit_strikes (b : Block) (o : Out) : (b.emit o).strikes = b.strikes := rfl
@[simp] theorem Block.emit_retired (b : Block) (o : Out) : (b.emit o).retired = b.retired := rfl
@[simp] theorem Block.emit_retRec (b : Block) (o : Out) : (b.emit o).retRec = b.retRec := rfl
@[simp] theorem Block.emit_free (b : Block) (o : Out) : (b.emit o).free = b.free := rfl

/-! ### freeStep -/

@[simp] theorem Block.freeStep_regs (b : Block)  : (b.freeStep ).regs = b.regs := rfl
@[simp] theorem Block.freeStep_utags (b : Block)  : (b.freeStep ).utags = b.utags := rfl
@[simp] theorem Block.freeStep_tm (b : Block)  : (b.freeStep ).tm = b.tm := rfl
@[simp] theorem Block.freeStep_cyc (b : Block)  : (b.freeStep ).cyc = b.cyc := rfl
@[simp] theorem Block.freeStep_host (b : Block)  : (b.freeStep ).host = b.host := rfl
@[simp] theorem Block.freeStep_cav (b : Block)  : (b.freeStep ).cav = b.cav := rfl
@[simp] theorem Block.freeStep_axes (b : Block)  : (b.freeStep ).axes = b.axes := rfl
@[simp] theorem Block.freeStep_encs (b : Block)  : (b.freeStep ).encs = b.encs := rfl
@[simp] theorem Block.freeStep_mainsLast (b : Block)  : (b.freeStep ).mainsLast = b.mainsLast := rfl
@[simp] theorem Block.freeStep_mainsGap (b : Block)  : (b.freeStep ).mainsGap = b.mainsGap := rfl
@[simp] theorem Block.freeStep_eng (b : Block)  : (b.freeStep ).eng = b.eng := rfl
@[simp] theorem Block.freeStep_trc (b : Block)  : (b.freeStep ).trc = b.trc := rfl
@[simp] theorem Block.freeStep_snap (b : Block)  : (b.freeStep ).snap = b.snap := rfl
@[simp] theorem Block.freeStep_flw (b : Block)  : (b.freeStep ).flw = b.flw := rfl
@[simp] theorem Block.freeStep_sw (b : Block)  : (b.freeStep ).sw = b.sw := rfl
@[simp] theorem Block.freeStep_macs (b : Block)  : (b.freeStep ).macs = b.macs := rfl
@[simp] theorem Block.freeStep_lanes (b : Block)  : (b.freeStep ).lanes = b.lanes := rfl
@[simp] theorem Block.freeStep_rings (b : Block)  : (b.freeStep ).rings = b.rings := rfl
@[simp] theorem Block.freeStep_ptp (b : Block)  : (b.freeStep ).ptp = b.ptp := rfl
@[simp] theorem Block.freeStep_sec (b : Block)  : (b.freeStep ).sec = b.sec := rfl
@[simp] theorem Block.freeStep_cps (b : Block)  : (b.freeStep ).cps = b.cps := rfl
@[simp] theorem Block.freeStep_outs (b : Block)  : (b.freeStep ).outs = b.outs := rfl
@[simp] theorem Block.freeStep_clk (b : Block)  : (b.freeStep ).clk = b.clk := rfl
@[simp] theorem Block.freeStep_tic (b : Block)  : (b.freeStep ).tic = b.tic := rfl
@[simp] theorem Block.freeStep_cal (b : Block)  : (b.freeStep ).cal = b.cal := rfl
@[simp] theorem Block.freeStep_pair (b : Block)  : (b.freeStep ).pair = b.pair := rfl
@[simp] theorem Block.freeStep_pw (b : Block)  : (b.freeStep ).pw = b.pw := rfl
@[simp] theorem Block.freeStep_strikes (b : Block)  : (b.freeStep ).strikes = b.strikes := rfl
@[simp] theorem Block.freeStep_retired (b : Block)  : (b.freeStep ).retired = b.retired := rfl
@[simp] theorem Block.freeStep_retRec (b : Block)  : (b.freeStep ).retRec = b.retRec := rfl
@[simp] theorem Block.freeStep_out (b : Block)  : (b.freeStep ).out = b.out := rfl

/-! ### mapPair -/

@[simp] theorem Block.mapPair_regs (b : Block) (h : PairSt → PairSt) : (b.mapPair h).regs = b.regs := rfl
@[simp] theorem Block.mapPair_utags (b : Block) (h : PairSt → PairSt) : (b.mapPair h).utags = b.utags := rfl
@[simp] theorem Block.mapPair_tm (b : Block) (h : PairSt → PairSt) : (b.mapPair h).tm = b.tm := rfl
@[simp] theorem Block.mapPair_cyc (b : Block) (h : PairSt → PairSt) : (b.mapPair h).cyc = b.cyc := rfl
@[simp] theorem Block.mapPair_host (b : Block) (h : PairSt → PairSt) : (b.mapPair h).host = b.host := rfl
@[simp] theorem Block.mapPair_cav (b : Block) (h : PairSt → PairSt) : (b.mapPair h).cav = b.cav := rfl
@[simp] theorem Block.mapPair_axes (b : Block) (h : PairSt → PairSt) : (b.mapPair h).axes = b.axes := rfl
@[simp] theorem Block.mapPair_encs (b : Block) (h : PairSt → PairSt) : (b.mapPair h).encs = b.encs := rfl
@[simp] theorem Block.mapPair_mainsLast (b : Block) (h : PairSt → PairSt) : (b.mapPair h).mainsLast = b.mainsLast := rfl
@[simp] theorem Block.mapPair_mainsGap (b : Block) (h : PairSt → PairSt) : (b.mapPair h).mainsGap = b.mainsGap := rfl
@[simp] theorem Block.mapPair_eng (b : Block) (h : PairSt → PairSt) : (b.mapPair h).eng = b.eng := rfl
@[simp] theorem Block.mapPair_trc (b : Block) (h : PairSt → PairSt) : (b.mapPair h).trc = b.trc := rfl
@[simp] theorem Block.mapPair_snap (b : Block) (h : PairSt → PairSt) : (b.mapPair h).snap = b.snap := rfl
@[simp] theorem Block.mapPair_flw (b : Block) (h : PairSt → PairSt) : (b.mapPair h).flw = b.flw := rfl
@[simp] theorem Block.mapPair_sw (b : Block) (h : PairSt → PairSt) : (b.mapPair h).sw = b.sw := rfl
@[simp] theorem Block.mapPair_macs (b : Block) (h : PairSt → PairSt) : (b.mapPair h).macs = b.macs := rfl
@[simp] theorem Block.mapPair_lanes (b : Block) (h : PairSt → PairSt) : (b.mapPair h).lanes = b.lanes := rfl
@[simp] theorem Block.mapPair_rings (b : Block) (h : PairSt → PairSt) : (b.mapPair h).rings = b.rings := rfl
@[simp] theorem Block.mapPair_ptp (b : Block) (h : PairSt → PairSt) : (b.mapPair h).ptp = b.ptp := rfl
@[simp] theorem Block.mapPair_sec (b : Block) (h : PairSt → PairSt) : (b.mapPair h).sec = b.sec := rfl
@[simp] theorem Block.mapPair_cps (b : Block) (h : PairSt → PairSt) : (b.mapPair h).cps = b.cps := rfl
@[simp] theorem Block.mapPair_outs (b : Block) (h : PairSt → PairSt) : (b.mapPair h).outs = b.outs := rfl
@[simp] theorem Block.mapPair_clk (b : Block) (h : PairSt → PairSt) : (b.mapPair h).clk = b.clk := rfl
@[simp] theorem Block.mapPair_tic (b : Block) (h : PairSt → PairSt) : (b.mapPair h).tic = b.tic := rfl
@[simp] theorem Block.mapPair_cal (b : Block) (h : PairSt → PairSt) : (b.mapPair h).cal = b.cal := rfl
@[simp] theorem Block.mapPair_pw (b : Block) (h : PairSt → PairSt) : (b.mapPair h).pw = b.pw := rfl
@[simp] theorem Block.mapPair_strikes (b : Block) (h : PairSt → PairSt) : (b.mapPair h).strikes = b.strikes := rfl
@[simp] theorem Block.mapPair_retired (b : Block) (h : PairSt → PairSt) : (b.mapPair h).retired = b.retired := rfl
@[simp] theorem Block.mapPair_retRec (b : Block) (h : PairSt → PairSt) : (b.mapPair h).retRec = b.retRec := rfl
@[simp] theorem Block.mapPair_free (b : Block) (h : PairSt → PairSt) : (b.mapPair h).free = b.free := rfl
@[simp] theorem Block.mapPair_out (b : Block) (h : PairSt → PairSt) : (b.mapPair h).out = b.out := rfl

/-! ### mapCyc -/

@[simp] theorem Block.mapCyc_regs (b : Block) (h : CycleSt → CycleSt) : (b.mapCyc h).regs = b.regs := rfl
@[simp] theorem Block.mapCyc_utags (b : Block) (h : CycleSt → CycleSt) : (b.mapCyc h).utags = b.utags := rfl
@[simp] theorem Block.mapCyc_tm (b : Block) (h : CycleSt → CycleSt) : (b.mapCyc h).tm = b.tm := rfl
@[simp] theorem Block.mapCyc_host (b : Block) (h : CycleSt → CycleSt) : (b.mapCyc h).host = b.host := rfl
@[simp] theorem Block.mapCyc_cav (b : Block) (h : CycleSt → CycleSt) : (b.mapCyc h).cav = b.cav := rfl
@[simp] theorem Block.mapCyc_axes (b : Block) (h : CycleSt → CycleSt) : (b.mapCyc h).axes = b.axes := rfl
@[simp] theorem Block.mapCyc_encs (b : Block) (h : CycleSt → CycleSt) : (b.mapCyc h).encs = b.encs := rfl
@[simp] theorem Block.mapCyc_mainsLast (b : Block) (h : CycleSt → CycleSt) : (b.mapCyc h).mainsLast = b.mainsLast := rfl
@[simp] theorem Block.mapCyc_mainsGap (b : Block) (h : CycleSt → CycleSt) : (b.mapCyc h).mainsGap = b.mainsGap := rfl
@[simp] theorem Block.mapCyc_eng (b : Block) (h : CycleSt → CycleSt) : (b.mapCyc h).eng = b.eng := rfl
@[simp] theorem Block.mapCyc_trc (b : Block) (h : CycleSt → CycleSt) : (b.mapCyc h).trc = b.trc := rfl
@[simp] theorem Block.mapCyc_snap (b : Block) (h : CycleSt → CycleSt) : (b.mapCyc h).snap = b.snap := rfl
@[simp] theorem Block.mapCyc_flw (b : Block) (h : CycleSt → CycleSt) : (b.mapCyc h).flw = b.flw := rfl
@[simp] theorem Block.mapCyc_sw (b : Block) (h : CycleSt → CycleSt) : (b.mapCyc h).sw = b.sw := rfl
@[simp] theorem Block.mapCyc_macs (b : Block) (h : CycleSt → CycleSt) : (b.mapCyc h).macs = b.macs := rfl
@[simp] theorem Block.mapCyc_lanes (b : Block) (h : CycleSt → CycleSt) : (b.mapCyc h).lanes = b.lanes := rfl
@[simp] theorem Block.mapCyc_rings (b : Block) (h : CycleSt → CycleSt) : (b.mapCyc h).rings = b.rings := rfl
@[simp] theorem Block.mapCyc_ptp (b : Block) (h : CycleSt → CycleSt) : (b.mapCyc h).ptp = b.ptp := rfl
@[simp] theorem Block.mapCyc_sec (b : Block) (h : CycleSt → CycleSt) : (b.mapCyc h).sec = b.sec := rfl
@[simp] theorem Block.mapCyc_cps (b : Block) (h : CycleSt → CycleSt) : (b.mapCyc h).cps = b.cps := rfl
@[simp] theorem Block.mapCyc_outs (b : Block) (h : CycleSt → CycleSt) : (b.mapCyc h).outs = b.outs := rfl
@[simp] theorem Block.mapCyc_clk (b : Block) (h : CycleSt → CycleSt) : (b.mapCyc h).clk = b.clk := rfl
@[simp] theorem Block.mapCyc_tic (b : Block) (h : CycleSt → CycleSt) : (b.mapCyc h).tic = b.tic := rfl
@[simp] theorem Block.mapCyc_cal (b : Block) (h : CycleSt → CycleSt) : (b.mapCyc h).cal = b.cal := rfl
@[simp] theorem Block.mapCyc_pair (b : Block) (h : CycleSt → CycleSt) : (b.mapCyc h).pair = b.pair := rfl
@[simp] theorem Block.mapCyc_pw (b : Block) (h : CycleSt → CycleSt) : (b.mapCyc h).pw = b.pw := rfl
@[simp] theorem Block.mapCyc_strikes (b : Block) (h : CycleSt → CycleSt) : (b.mapCyc h).strikes = b.strikes := rfl
@[simp] theorem Block.mapCyc_retired (b : Block) (h : CycleSt → CycleSt) : (b.mapCyc h).retired = b.retired := rfl
@[simp] theorem Block.mapCyc_retRec (b : Block) (h : CycleSt → CycleSt) : (b.mapCyc h).retRec = b.retRec := rfl
@[simp] theorem Block.mapCyc_free (b : Block) (h : CycleSt → CycleSt) : (b.mapCyc h).free = b.free := rfl
@[simp] theorem Block.mapCyc_out (b : Block) (h : CycleSt → CycleSt) : (b.mapCyc h).out = b.out := rfl

/-! ### mapOut -/

@[simp] theorem Block.mapOut_regs (b : Block) (j : Nat) (h : OutSt → OutSt) : (b.mapOut j h).regs = b.regs := rfl
@[simp] theorem Block.mapOut_utags (b : Block) (j : Nat) (h : OutSt → OutSt) : (b.mapOut j h).utags = b.utags := rfl
@[simp] theorem Block.mapOut_tm (b : Block) (j : Nat) (h : OutSt → OutSt) : (b.mapOut j h).tm = b.tm := rfl
@[simp] theorem Block.mapOut_cyc (b : Block) (j : Nat) (h : OutSt → OutSt) : (b.mapOut j h).cyc = b.cyc := rfl
@[simp] theorem Block.mapOut_host (b : Block) (j : Nat) (h : OutSt → OutSt) : (b.mapOut j h).host = b.host := rfl
@[simp] theorem Block.mapOut_cav (b : Block) (j : Nat) (h : OutSt → OutSt) : (b.mapOut j h).cav = b.cav := rfl
@[simp] theorem Block.mapOut_axes (b : Block) (j : Nat) (h : OutSt → OutSt) : (b.mapOut j h).axes = b.axes := rfl
@[simp] theorem Block.mapOut_encs (b : Block) (j : Nat) (h : OutSt → OutSt) : (b.mapOut j h).encs = b.encs := rfl
@[simp] theorem Block.mapOut_mainsLast (b : Block) (j : Nat) (h : OutSt → OutSt) : (b.mapOut j h).mainsLast = b.mainsLast := rfl
@[simp] theorem Block.mapOut_mainsGap (b : Block) (j : Nat) (h : OutSt → OutSt) : (b.mapOut j h).mainsGap = b.mainsGap := rfl
@[simp] theorem Block.mapOut_eng (b : Block) (j : Nat) (h : OutSt → OutSt) : (b.mapOut j h).eng = b.eng := rfl
@[simp] theorem Block.mapOut_trc (b : Block) (j : Nat) (h : OutSt → OutSt) : (b.mapOut j h).trc = b.trc := rfl
@[simp] theorem Block.mapOut_snap (b : Block) (j : Nat) (h : OutSt → OutSt) : (b.mapOut j h).snap = b.snap := rfl
@[simp] theorem Block.mapOut_flw (b : Block) (j : Nat) (h : OutSt → OutSt) : (b.mapOut j h).flw = b.flw := rfl
@[simp] theorem Block.mapOut_sw (b : Block) (j : Nat) (h : OutSt → OutSt) : (b.mapOut j h).sw = b.sw := rfl
@[simp] theorem Block.mapOut_macs (b : Block) (j : Nat) (h : OutSt → OutSt) : (b.mapOut j h).macs = b.macs := rfl
@[simp] theorem Block.mapOut_lanes (b : Block) (j : Nat) (h : OutSt → OutSt) : (b.mapOut j h).lanes = b.lanes := rfl
@[simp] theorem Block.mapOut_rings (b : Block) (j : Nat) (h : OutSt → OutSt) : (b.mapOut j h).rings = b.rings := rfl
@[simp] theorem Block.mapOut_ptp (b : Block) (j : Nat) (h : OutSt → OutSt) : (b.mapOut j h).ptp = b.ptp := rfl
@[simp] theorem Block.mapOut_sec (b : Block) (j : Nat) (h : OutSt → OutSt) : (b.mapOut j h).sec = b.sec := rfl
@[simp] theorem Block.mapOut_cps (b : Block) (j : Nat) (h : OutSt → OutSt) : (b.mapOut j h).cps = b.cps := rfl
@[simp] theorem Block.mapOut_clk (b : Block) (j : Nat) (h : OutSt → OutSt) : (b.mapOut j h).clk = b.clk := rfl
@[simp] theorem Block.mapOut_tic (b : Block) (j : Nat) (h : OutSt → OutSt) : (b.mapOut j h).tic = b.tic := rfl
@[simp] theorem Block.mapOut_cal (b : Block) (j : Nat) (h : OutSt → OutSt) : (b.mapOut j h).cal = b.cal := rfl
@[simp] theorem Block.mapOut_pair (b : Block) (j : Nat) (h : OutSt → OutSt) : (b.mapOut j h).pair = b.pair := rfl
@[simp] theorem Block.mapOut_pw (b : Block) (j : Nat) (h : OutSt → OutSt) : (b.mapOut j h).pw = b.pw := rfl
@[simp] theorem Block.mapOut_strikes (b : Block) (j : Nat) (h : OutSt → OutSt) : (b.mapOut j h).strikes = b.strikes := rfl
@[simp] theorem Block.mapOut_retired (b : Block) (j : Nat) (h : OutSt → OutSt) : (b.mapOut j h).retired = b.retired := rfl
@[simp] theorem Block.mapOut_retRec (b : Block) (j : Nat) (h : OutSt → OutSt) : (b.mapOut j h).retRec = b.retRec := rfl
@[simp] theorem Block.mapOut_free (b : Block) (j : Nat) (h : OutSt → OutSt) : (b.mapOut j h).free = b.free := rfl
@[simp] theorem Block.mapOut_out (b : Block) (j : Nat) (h : OutSt → OutSt) : (b.mapOut j h).out = b.out := rfl

/-! ### mapRings -/

@[simp] theorem Block.mapRings_regs (b : Block) (h : RingsSt → RingsSt) : (b.mapRings h).regs = b.regs := rfl
@[simp] theorem Block.mapRings_utags (b : Block) (h : RingsSt → RingsSt) : (b.mapRings h).utags = b.utags := rfl
@[simp] theorem Block.mapRings_tm (b : Block) (h : RingsSt → RingsSt) : (b.mapRings h).tm = b.tm := rfl
@[simp] theorem Block.mapRings_cyc (b : Block) (h : RingsSt → RingsSt) : (b.mapRings h).cyc = b.cyc := rfl
@[simp] theorem Block.mapRings_host (b : Block) (h : RingsSt → RingsSt) : (b.mapRings h).host = b.host := rfl
@[simp] theorem Block.mapRings_cav (b : Block) (h : RingsSt → RingsSt) : (b.mapRings h).cav = b.cav := rfl
@[simp] theorem Block.mapRings_axes (b : Block) (h : RingsSt → RingsSt) : (b.mapRings h).axes = b.axes := rfl
@[simp] theorem Block.mapRings_encs (b : Block) (h : RingsSt → RingsSt) : (b.mapRings h).encs = b.encs := rfl
@[simp] theorem Block.mapRings_mainsLast (b : Block) (h : RingsSt → RingsSt) : (b.mapRings h).mainsLast = b.mainsLast := rfl
@[simp] theorem Block.mapRings_mainsGap (b : Block) (h : RingsSt → RingsSt) : (b.mapRings h).mainsGap = b.mainsGap := rfl
@[simp] theorem Block.mapRings_eng (b : Block) (h : RingsSt → RingsSt) : (b.mapRings h).eng = b.eng := rfl
@[simp] theorem Block.mapRings_trc (b : Block) (h : RingsSt → RingsSt) : (b.mapRings h).trc = b.trc := rfl
@[simp] theorem Block.mapRings_snap (b : Block) (h : RingsSt → RingsSt) : (b.mapRings h).snap = b.snap := rfl
@[simp] theorem Block.mapRings_flw (b : Block) (h : RingsSt → RingsSt) : (b.mapRings h).flw = b.flw := rfl
@[simp] theorem Block.mapRings_sw (b : Block) (h : RingsSt → RingsSt) : (b.mapRings h).sw = b.sw := rfl
@[simp] theorem Block.mapRings_macs (b : Block) (h : RingsSt → RingsSt) : (b.mapRings h).macs = b.macs := rfl
@[simp] theorem Block.mapRings_lanes (b : Block) (h : RingsSt → RingsSt) : (b.mapRings h).lanes = b.lanes := rfl
@[simp] theorem Block.mapRings_ptp (b : Block) (h : RingsSt → RingsSt) : (b.mapRings h).ptp = b.ptp := rfl
@[simp] theorem Block.mapRings_sec (b : Block) (h : RingsSt → RingsSt) : (b.mapRings h).sec = b.sec := rfl
@[simp] theorem Block.mapRings_cps (b : Block) (h : RingsSt → RingsSt) : (b.mapRings h).cps = b.cps := rfl
@[simp] theorem Block.mapRings_outs (b : Block) (h : RingsSt → RingsSt) : (b.mapRings h).outs = b.outs := rfl
@[simp] theorem Block.mapRings_clk (b : Block) (h : RingsSt → RingsSt) : (b.mapRings h).clk = b.clk := rfl
@[simp] theorem Block.mapRings_tic (b : Block) (h : RingsSt → RingsSt) : (b.mapRings h).tic = b.tic := rfl
@[simp] theorem Block.mapRings_cal (b : Block) (h : RingsSt → RingsSt) : (b.mapRings h).cal = b.cal := rfl
@[simp] theorem Block.mapRings_pair (b : Block) (h : RingsSt → RingsSt) : (b.mapRings h).pair = b.pair := rfl
@[simp] theorem Block.mapRings_pw (b : Block) (h : RingsSt → RingsSt) : (b.mapRings h).pw = b.pw := rfl
@[simp] theorem Block.mapRings_strikes (b : Block) (h : RingsSt → RingsSt) : (b.mapRings h).strikes = b.strikes := rfl
@[simp] theorem Block.mapRings_retired (b : Block) (h : RingsSt → RingsSt) : (b.mapRings h).retired = b.retired := rfl
@[simp] theorem Block.mapRings_retRec (b : Block) (h : RingsSt → RingsSt) : (b.mapRings h).retRec = b.retRec := rfl
@[simp] theorem Block.mapRings_free (b : Block) (h : RingsSt → RingsSt) : (b.mapRings h).free = b.free := rfl
@[simp] theorem Block.mapRings_out (b : Block) (h : RingsSt → RingsSt) : (b.mapRings h).out = b.out := rfl

/-! ### mapSw -/

@[simp] theorem Block.mapSw_regs (b : Block) (h : SwSt → SwSt) : (b.mapSw h).regs = b.regs := rfl
@[simp] theorem Block.mapSw_utags (b : Block) (h : SwSt → SwSt) : (b.mapSw h).utags = b.utags := rfl
@[simp] theorem Block.mapSw_tm (b : Block) (h : SwSt → SwSt) : (b.mapSw h).tm = b.tm := rfl
@[simp] theorem Block.mapSw_cyc (b : Block) (h : SwSt → SwSt) : (b.mapSw h).cyc = b.cyc := rfl
@[simp] theorem Block.mapSw_host (b : Block) (h : SwSt → SwSt) : (b.mapSw h).host = b.host := rfl
@[simp] theorem Block.mapSw_cav (b : Block) (h : SwSt → SwSt) : (b.mapSw h).cav = b.cav := rfl
@[simp] theorem Block.mapSw_axes (b : Block) (h : SwSt → SwSt) : (b.mapSw h).axes = b.axes := rfl
@[simp] theorem Block.mapSw_encs (b : Block) (h : SwSt → SwSt) : (b.mapSw h).encs = b.encs := rfl
@[simp] theorem Block.mapSw_mainsLast (b : Block) (h : SwSt → SwSt) : (b.mapSw h).mainsLast = b.mainsLast := rfl
@[simp] theorem Block.mapSw_mainsGap (b : Block) (h : SwSt → SwSt) : (b.mapSw h).mainsGap = b.mainsGap := rfl
@[simp] theorem Block.mapSw_eng (b : Block) (h : SwSt → SwSt) : (b.mapSw h).eng = b.eng := rfl
@[simp] theorem Block.mapSw_trc (b : Block) (h : SwSt → SwSt) : (b.mapSw h).trc = b.trc := rfl
@[simp] theorem Block.mapSw_snap (b : Block) (h : SwSt → SwSt) : (b.mapSw h).snap = b.snap := rfl
@[simp] theorem Block.mapSw_flw (b : Block) (h : SwSt → SwSt) : (b.mapSw h).flw = b.flw := rfl
@[simp] theorem Block.mapSw_macs (b : Block) (h : SwSt → SwSt) : (b.mapSw h).macs = b.macs := rfl
@[simp] theorem Block.mapSw_lanes (b : Block) (h : SwSt → SwSt) : (b.mapSw h).lanes = b.lanes := rfl
@[simp] theorem Block.mapSw_rings (b : Block) (h : SwSt → SwSt) : (b.mapSw h).rings = b.rings := rfl
@[simp] theorem Block.mapSw_ptp (b : Block) (h : SwSt → SwSt) : (b.mapSw h).ptp = b.ptp := rfl
@[simp] theorem Block.mapSw_sec (b : Block) (h : SwSt → SwSt) : (b.mapSw h).sec = b.sec := rfl
@[simp] theorem Block.mapSw_cps (b : Block) (h : SwSt → SwSt) : (b.mapSw h).cps = b.cps := rfl
@[simp] theorem Block.mapSw_outs (b : Block) (h : SwSt → SwSt) : (b.mapSw h).outs = b.outs := rfl
@[simp] theorem Block.mapSw_clk (b : Block) (h : SwSt → SwSt) : (b.mapSw h).clk = b.clk := rfl
@[simp] theorem Block.mapSw_tic (b : Block) (h : SwSt → SwSt) : (b.mapSw h).tic = b.tic := rfl
@[simp] theorem Block.mapSw_cal (b : Block) (h : SwSt → SwSt) : (b.mapSw h).cal = b.cal := rfl
@[simp] theorem Block.mapSw_pair (b : Block) (h : SwSt → SwSt) : (b.mapSw h).pair = b.pair := rfl
@[simp] theorem Block.mapSw_pw (b : Block) (h : SwSt → SwSt) : (b.mapSw h).pw = b.pw := rfl
@[simp] theorem Block.mapSw_strikes (b : Block) (h : SwSt → SwSt) : (b.mapSw h).strikes = b.strikes := rfl
@[simp] theorem Block.mapSw_retired (b : Block) (h : SwSt → SwSt) : (b.mapSw h).retired = b.retired := rfl
@[simp] theorem Block.mapSw_retRec (b : Block) (h : SwSt → SwSt) : (b.mapSw h).retRec = b.retRec := rfl
@[simp] theorem Block.mapSw_free (b : Block) (h : SwSt → SwSt) : (b.mapSw h).free = b.free := rfl
@[simp] theorem Block.mapSw_out (b : Block) (h : SwSt → SwSt) : (b.mapSw h).out = b.out := rfl

/-! ### mapTic -/

@[simp] theorem Block.mapTic_regs (b : Block) (h : TicSt → TicSt) : (b.mapTic h).regs = b.regs := rfl
@[simp] theorem Block.mapTic_utags (b : Block) (h : TicSt → TicSt) : (b.mapTic h).utags = b.utags := rfl
@[simp] theorem Block.mapTic_tm (b : Block) (h : TicSt → TicSt) : (b.mapTic h).tm = b.tm := rfl
@[simp] theorem Block.mapTic_cyc (b : Block) (h : TicSt → TicSt) : (b.mapTic h).cyc = b.cyc := rfl
@[simp] theorem Block.mapTic_host (b : Block) (h : TicSt → TicSt) : (b.mapTic h).host = b.host := rfl
@[simp] theorem Block.mapTic_cav (b : Block) (h : TicSt → TicSt) : (b.mapTic h).cav = b.cav := rfl
@[simp] theorem Block.mapTic_axes (b : Block) (h : TicSt → TicSt) : (b.mapTic h).axes = b.axes := rfl
@[simp] theorem Block.mapTic_encs (b : Block) (h : TicSt → TicSt) : (b.mapTic h).encs = b.encs := rfl
@[simp] theorem Block.mapTic_mainsLast (b : Block) (h : TicSt → TicSt) : (b.mapTic h).mainsLast = b.mainsLast := rfl
@[simp] theorem Block.mapTic_mainsGap (b : Block) (h : TicSt → TicSt) : (b.mapTic h).mainsGap = b.mainsGap := rfl
@[simp] theorem Block.mapTic_eng (b : Block) (h : TicSt → TicSt) : (b.mapTic h).eng = b.eng := rfl
@[simp] theorem Block.mapTic_trc (b : Block) (h : TicSt → TicSt) : (b.mapTic h).trc = b.trc := rfl
@[simp] theorem Block.mapTic_snap (b : Block) (h : TicSt → TicSt) : (b.mapTic h).snap = b.snap := rfl
@[simp] theorem Block.mapTic_flw (b : Block) (h : TicSt → TicSt) : (b.mapTic h).flw = b.flw := rfl
@[simp] theorem Block.mapTic_sw (b : Block) (h : TicSt → TicSt) : (b.mapTic h).sw = b.sw := rfl
@[simp] theorem Block.mapTic_macs (b : Block) (h : TicSt → TicSt) : (b.mapTic h).macs = b.macs := rfl
@[simp] theorem Block.mapTic_lanes (b : Block) (h : TicSt → TicSt) : (b.mapTic h).lanes = b.lanes := rfl
@[simp] theorem Block.mapTic_rings (b : Block) (h : TicSt → TicSt) : (b.mapTic h).rings = b.rings := rfl
@[simp] theorem Block.mapTic_ptp (b : Block) (h : TicSt → TicSt) : (b.mapTic h).ptp = b.ptp := rfl
@[simp] theorem Block.mapTic_sec (b : Block) (h : TicSt → TicSt) : (b.mapTic h).sec = b.sec := rfl
@[simp] theorem Block.mapTic_cps (b : Block) (h : TicSt → TicSt) : (b.mapTic h).cps = b.cps := rfl
@[simp] theorem Block.mapTic_outs (b : Block) (h : TicSt → TicSt) : (b.mapTic h).outs = b.outs := rfl
@[simp] theorem Block.mapTic_clk (b : Block) (h : TicSt → TicSt) : (b.mapTic h).clk = b.clk := rfl
@[simp] theorem Block.mapTic_cal (b : Block) (h : TicSt → TicSt) : (b.mapTic h).cal = b.cal := rfl
@[simp] theorem Block.mapTic_pair (b : Block) (h : TicSt → TicSt) : (b.mapTic h).pair = b.pair := rfl
@[simp] theorem Block.mapTic_pw (b : Block) (h : TicSt → TicSt) : (b.mapTic h).pw = b.pw := rfl
@[simp] theorem Block.mapTic_strikes (b : Block) (h : TicSt → TicSt) : (b.mapTic h).strikes = b.strikes := rfl
@[simp] theorem Block.mapTic_retired (b : Block) (h : TicSt → TicSt) : (b.mapTic h).retired = b.retired := rfl
@[simp] theorem Block.mapTic_retRec (b : Block) (h : TicSt → TicSt) : (b.mapTic h).retRec = b.retRec := rfl
@[simp] theorem Block.mapTic_free (b : Block) (h : TicSt → TicSt) : (b.mapTic h).free = b.free := rfl
@[simp] theorem Block.mapTic_out (b : Block) (h : TicSt → TicSt) : (b.mapTic h).out = b.out := rfl

/-! ### advance -/

@[simp] theorem Block.advance_regs (b : Block) (d : Nat) : (b.advance d).regs = b.regs := rfl
@[simp] theorem Block.advance_utags (b : Block) (d : Nat) : (b.advance d).utags = b.utags := rfl
@[simp] theorem Block.advance_cyc (b : Block) (d : Nat) : (b.advance d).cyc = b.cyc := rfl
@[simp] theorem Block.advance_host (b : Block) (d : Nat) : (b.advance d).host = b.host := rfl
@[simp] theorem Block.advance_cav (b : Block) (d : Nat) : (b.advance d).cav = b.cav := rfl
@[simp] theorem Block.advance_axes (b : Block) (d : Nat) : (b.advance d).axes = b.axes := rfl
@[simp] theorem Block.advance_encs (b : Block) (d : Nat) : (b.advance d).encs = b.encs := rfl
@[simp] theorem Block.advance_mainsLast (b : Block) (d : Nat) : (b.advance d).mainsLast = b.mainsLast := rfl
@[simp] theorem Block.advance_mainsGap (b : Block) (d : Nat) : (b.advance d).mainsGap = b.mainsGap := rfl
@[simp] theorem Block.advance_eng (b : Block) (d : Nat) : (b.advance d).eng = b.eng := rfl
@[simp] theorem Block.advance_trc (b : Block) (d : Nat) : (b.advance d).trc = b.trc := rfl
@[simp] theorem Block.advance_snap (b : Block) (d : Nat) : (b.advance d).snap = b.snap := rfl
@[simp] theorem Block.advance_flw (b : Block) (d : Nat) : (b.advance d).flw = b.flw := rfl
@[simp] theorem Block.advance_sw (b : Block) (d : Nat) : (b.advance d).sw = b.sw := rfl
@[simp] theorem Block.advance_macs (b : Block) (d : Nat) : (b.advance d).macs = b.macs := rfl
@[simp] theorem Block.advance_lanes (b : Block) (d : Nat) : (b.advance d).lanes = b.lanes := rfl
@[simp] theorem Block.advance_rings (b : Block) (d : Nat) : (b.advance d).rings = b.rings := rfl
@[simp] theorem Block.advance_ptp (b : Block) (d : Nat) : (b.advance d).ptp = b.ptp := rfl
@[simp] theorem Block.advance_sec (b : Block) (d : Nat) : (b.advance d).sec = b.sec := rfl
@[simp] theorem Block.advance_cps (b : Block) (d : Nat) : (b.advance d).cps = b.cps := rfl
@[simp] theorem Block.advance_outs (b : Block) (d : Nat) : (b.advance d).outs = b.outs := rfl
@[simp] theorem Block.advance_clk (b : Block) (d : Nat) : (b.advance d).clk = b.clk := rfl
@[simp] theorem Block.advance_tic (b : Block) (d : Nat) : (b.advance d).tic = b.tic := rfl
@[simp] theorem Block.advance_cal (b : Block) (d : Nat) : (b.advance d).cal = b.cal := rfl
@[simp] theorem Block.advance_pair (b : Block) (d : Nat) : (b.advance d).pair = b.pair := rfl
@[simp] theorem Block.advance_pw (b : Block) (d : Nat) : (b.advance d).pw = b.pw := rfl
@[simp] theorem Block.advance_strikes (b : Block) (d : Nat) : (b.advance d).strikes = b.strikes := rfl
@[simp] theorem Block.advance_retired (b : Block) (d : Nat) : (b.advance d).retired = b.retired := rfl
@[simp] theorem Block.advance_retRec (b : Block) (d : Nat) : (b.advance d).retRec = b.retRec := rfl
@[simp] theorem Block.advance_free (b : Block) (d : Nat) : (b.advance d).free = b.free := rfl
@[simp] theorem Block.advance_out (b : Block) (d : Nat) : (b.advance d).out = b.out := rfl

/-! ### advanceNs -/

@[simp] theorem Block.advanceNs_regs (b : Block) (n : Nat) : (b.advanceNs n).regs = b.regs := rfl
@[simp] theorem Block.advanceNs_utags (b : Block) (n : Nat) : (b.advanceNs n).utags = b.utags := rfl
@[simp] theorem Block.advanceNs_cyc (b : Block) (n : Nat) : (b.advanceNs n).cyc = b.cyc := rfl
@[simp] theorem Block.advanceNs_host (b : Block) (n : Nat) : (b.advanceNs n).host = b.host := rfl
@[simp] theorem Block.advanceNs_cav (b : Block) (n : Nat) : (b.advanceNs n).cav = b.cav := rfl
@[simp] theorem Block.advanceNs_axes (b : Block) (n : Nat) : (b.advanceNs n).axes = b.axes := rfl
@[simp] theorem Block.advanceNs_encs (b : Block) (n : Nat) : (b.advanceNs n).encs = b.encs := rfl
@[simp] theorem Block.advanceNs_mainsLast (b : Block) (n : Nat) : (b.advanceNs n).mainsLast = b.mainsLast := rfl
@[simp] theorem Block.advanceNs_mainsGap (b : Block) (n : Nat) : (b.advanceNs n).mainsGap = b.mainsGap := rfl
@[simp] theorem Block.advanceNs_eng (b : Block) (n : Nat) : (b.advanceNs n).eng = b.eng := rfl
@[simp] theorem Block.advanceNs_trc (b : Block) (n : Nat) : (b.advanceNs n).trc = b.trc := rfl
@[simp] theorem Block.advanceNs_snap (b : Block) (n : Nat) : (b.advanceNs n).snap = b.snap := rfl
@[simp] theorem Block.advanceNs_flw (b : Block) (n : Nat) : (b.advanceNs n).flw = b.flw := rfl
@[simp] theorem Block.advanceNs_sw (b : Block) (n : Nat) : (b.advanceNs n).sw = b.sw := rfl
@[simp] theorem Block.advanceNs_macs (b : Block) (n : Nat) : (b.advanceNs n).macs = b.macs := rfl
@[simp] theorem Block.advanceNs_lanes (b : Block) (n : Nat) : (b.advanceNs n).lanes = b.lanes := rfl
@[simp] theorem Block.advanceNs_rings (b : Block) (n : Nat) : (b.advanceNs n).rings = b.rings := rfl
@[simp] theorem Block.advanceNs_ptp (b : Block) (n : Nat) : (b.advanceNs n).ptp = b.ptp := rfl
@[simp] theorem Block.advanceNs_sec (b : Block) (n : Nat) : (b.advanceNs n).sec = b.sec := rfl
@[simp] theorem Block.advanceNs_cps (b : Block) (n : Nat) : (b.advanceNs n).cps = b.cps := rfl
@[simp] theorem Block.advanceNs_outs (b : Block) (n : Nat) : (b.advanceNs n).outs = b.outs := rfl
@[simp] theorem Block.advanceNs_clk (b : Block) (n : Nat) : (b.advanceNs n).clk = b.clk := rfl
@[simp] theorem Block.advanceNs_tic (b : Block) (n : Nat) : (b.advanceNs n).tic = b.tic := rfl
@[simp] theorem Block.advanceNs_cal (b : Block) (n : Nat) : (b.advanceNs n).cal = b.cal := rfl
@[simp] theorem Block.advanceNs_pair (b : Block) (n : Nat) : (b.advanceNs n).pair = b.pair := rfl
@[simp] theorem Block.advanceNs_pw (b : Block) (n : Nat) : (b.advanceNs n).pw = b.pw := rfl
@[simp] theorem Block.advanceNs_strikes (b : Block) (n : Nat) : (b.advanceNs n).strikes = b.strikes := rfl
@[simp] theorem Block.advanceNs_retired (b : Block) (n : Nat) : (b.advanceNs n).retired = b.retired := rfl
@[simp] theorem Block.advanceNs_retRec (b : Block) (n : Nat) : (b.advanceNs n).retRec = b.retRec := rfl
@[simp] theorem Block.advanceNs_free (b : Block) (n : Nat) : (b.advanceNs n).free = b.free := rfl
@[simp] theorem Block.advanceNs_out (b : Block) (n : Nat) : (b.advanceNs n).out = b.out := rfl

end Sys2Proof.Machine
end

