-- ==== Sys2Proof/Laws/Frames.lean ====
section
/-! SUPPORT. What the shared operations can change: for each, the register fields and the parts of the
block that it may touch, once. -/

namespace Sys2Proof.Machine

/-! ### Frames compose -/

theorem keeps_refl (l : List Field) (b : Block) : b.keeps l b := ⟨fun _ _ => rfl, fun _ _ => rfl⟩

theorem keeps_trans {l : List Field} {b c d : Block} (h1 : b.keeps l c) (h2 : c.keeps l d) : b.keeps l d :=
  ⟨fun g hg => (h2.1 g hg).trans (h1.1 g hg), fun a ha => (h2.2 a ha).trans (h1.2 a ha)⟩

theorem keeps_mono {l m : List Field} {b c : Block} (h : b.keeps l c) (hl : l ⊆ m) : b.keeps m c :=
  ⟨fun g hg => h.1 g (fun f hf => hg f (hl hf)), fun a ha => h.2 a (fun f hf => ha f (hl hf))⟩

theorem only_refl (l : List Part) (b : Block) : b.only l b := by simp [Block.only]

theorem only_trans {l : List Part} {b c d : Block} (h1 : b.only l c) (h2 : c.only l d) : b.only l d := by
  simp only [Block.only] at *
  simp_all

theorem only_mono {l m : List Part} {b c : Block} (h : b.only l c) (hl : l ⊆ m) : b.only m c := by
  simp only [Block.only] at *
  have : ∀ p, p ∉ m → p ∉ l := fun p hp hq => hp (hl hq)
  simp_all

/-- Equal registers keep every field. -/
theorem keeps_of_regs {l : List Field} {b c : Block} (h : c.regs = b.regs) : b.keeps l c :=
  ⟨fun g _ => by simp [Block.get, Block.reg, h], fun a _ => by simp [Block.reg, h]⟩

/-! ### Updates -/

theorem put_keeps (b : Block) (f : Field) (v : Nat) : b.keeps [f] (b.put f v) :=
  ⟨fun g hg => Block.get_put_apart b f g v (hg f (by simp)), fun a ha => Block.reg_put_ne b f v (ha f (by simp))⟩

theorem put_only (l : List Part) (b : Block) (f : Field) (v : Nat) : b.only l (b.put f v) := by simp [Block.only]

theorem setReg_keeps (b : Block) (a : Nat) (v : Word) : b.keeps [⟨a, 0, 72⟩] (b.setReg a v) := by
  refine ⟨fun g hg => ?_, fun c hc => Block.reg_setReg_ne b v (hc ⟨a, 0, 72⟩ (by simp))⟩
  rcases hg _ (List.mem_singleton.mpr rfl) with h | h
  · exact Block.get_setReg_ne b a v g h
  · by_cases ha : a = g.addr
    · subst ha
      rcases h with h | h
      · simp only [Nat.zero_add] at h
        simp only [Block.get, Block.reg_setReg_same, fieldOf]
        rw [Nat.div_eq_of_lt (lt_of_lt_of_le v.isLt (Nat.pow_le_pow_right (by decide) h)),
          Nat.div_eq_of_lt (lt_of_lt_of_le (b.reg g.addr).isLt (Nat.pow_le_pow_right (by decide) h))]
      · have : g.w = 0 := by simp only at h; omega
        simp [Block.get, fieldOf, this, Nat.mod_one]
    · exact Block.get_setReg_ne b a v g ha

theorem setReg_only (l : List Part) (b : Block) (a : Nat) (v : Word) : b.only l (b.setReg a v) := by simp [Block.only]

theorem emit_keeps (b : Block) (o : Out) : b.keeps [] (b.emit o) := keeps_of_regs rfl

theorem emit_only (b : Block) (o : Out) : b.only [.out] (b.emit o) := by simp [Block.only]

/-! The same after a frame that is already there. -/

theorem keeps_put {l : List Field} {b c : Block} {f : Field} {v : Nat} (h : b.keeps l c) (hf : f ∈ l) :
    b.keeps l (c.put f v) :=
  keeps_trans h (keeps_mono (put_keeps c f v) (by simpa using hf))

theorem keeps_putB {l : List Field} {b c : Block} {f : Field} {v : Bool} (h : b.keeps l c) (hf : f ∈ l) :
    b.keeps l (c.putB f v) := keeps_put h hf

theorem keeps_setReg {l : List Field} {b c : Block} {a : Nat} {v : Word} (h : b.keeps l c) (hf : ⟨a, 0, 72⟩ ∈ l) :
    b.keeps l (c.setReg a v) :=
  keeps_trans h (keeps_mono (setReg_keeps c a v) (by simpa using hf))

/-- A change of another part keeps every register. -/
theorem keeps_part {l : List Field} {b c d : Block} (h : b.keeps l c) (hr : d.regs = c.regs) : b.keeps l d :=
  keeps_trans h (keeps_of_regs hr)

/-! ### Events -/

theorem message_keeps (b : Block) (n : Nat) : b.keeps [] (b.message n) := by
  unfold Block.message
  split
  · exact keeps_of_regs rfl
  · exact emit_keeps b _

theorem message_only (b : Block) (n : Nat) : b.only [.host, .out] (b.message n) := by
  unfold Block.message
  split
  · simp [Block.only]
  · exact only_mono (emit_only b _) (by simp)

theorem occur_keeps (b : Block) (n : Nat) : b.keeps [EVT_PEND_PEND, EVT_OVR_OVR] (b.occur n) := by
  unfold Block.occur
  split
  · exact keeps_mono (put_keeps _ _ _) (by simp)
  · have h : b.keeps [EVT_PEND_PEND, EVT_OVR_OVR] (b.setBit EVT_PEND_PEND n) :=
      keeps_mono (put_keeps _ _ _) (by simp)
    simp only
    split
    · exact keeps_trans h (keeps_mono (message_keeps _ _) (by simp))
    · exact h

theorem occur_only (b : Block) (n : Nat) : b.only [.host, .out] (b.occur n) := by
  unfold Block.occur
  split
  · exact put_only _ _ _ _
  · simp only
    split
    · exact only_trans (put_only _ _ _ _) (message_only _ _)
    · exact put_only _ _ _ _

/-- Raising an event touches EVT_PEND, EVT_OVR, and what the host interface holds and sends (R96). -/
theorem raise_keeps (b : Block) (n : Nat) : b.keeps [EVT_PEND_PEND, EVT_OVR_OVR] (b.raise n) := by
  unfold Block.raise
  split
  · exact occur_keeps b n
  · split
    · exact keeps_refl _ _
    · exact keeps_of_regs rfl

theorem keeps_raise {l : List Field} {b c : Block} {n : Nat} (h : b.keeps l c) (h1 : EVT_PEND_PEND ∈ l)
    (h2 : EVT_OVR_OVR ∈ l) : b.keeps l (c.raise n) :=
  keeps_trans h (keeps_mono (raise_keeps c n) (by simp [h1, h2]))

theorem raise_only (b : Block) (n : Nat) : b.only [.host, .out] (b.raise n) := by
  unfold Block.raise
  split
  · exact occur_only b n
  · split
    · exact only_refl _ _
    · simp [Block.only]

/-- A host error touches HOST_ERRCAUSE and HOST_ERRADDR and raises HOST_ERR (R93, R94). -/
theorem hostErr_keeps (b : Block) (code addr : Nat) :
    b.keeps [HOST_ERRCAUSE_CODE, HOST_ERRCAUSE_CNT, HOST_ERRADDR_ADDR, EVT_PEND_PEND, EVT_OVR_OVR] (b.hostErr code addr) :=
  keeps_raise (keeps_put (keeps_put (keeps_put (keeps_refl _ _) (by simp)) (by simp)) (by simp)) (by simp) (by simp)

theorem hostErr_only (b : Block) (code addr : Nat) : b.only [.host, .out] (b.hostErr code addr) := by
  unfold Block.hostErr
  exact only_trans (only_trans (only_trans (put_only _ _ _ _) (put_only _ _ _ _)) (put_only _ _ _ _)) (raise_only _ _)

/-! ### The clocks -/

/-- The clocks move on: the registers stay. -/
theorem advance_keeps (b : Block) (d : Nat) : b.keeps [] (b.advance d) := keeps_of_regs rfl

theorem advance_only (b : Block) (d : Nat) : b.only [.tm] (b.advance d) := by simp [Block.only]

theorem reachPhys_keeps (b : Block) (p : Nat) : b.keeps [] (b.reachPhys p) := by
  unfold Block.reachPhys
  split
  · exact keeps_refl _ _
  · exact advance_keeps _ _

theorem reachPhys_only (b : Block) (p : Nat) : b.only [.tm] (b.reachPhys p) := by
  unfold Block.reachPhys
  split
  · exact only_refl _ _
  · exact advance_only _ _

theorem reach_keeps (b : Block) (t : Nat) : b.keeps [] (b.reach t) := by
  unfold Block.reach
  split
  · exact keeps_refl _ _
  · exact keeps_of_regs rfl

theorem reach_only (b : Block) (t : Nat) : b.only [.tm] (b.reach t) := by
  unfold Block.reach
  split
  · exact only_refl _ _
  · simp [Block.only]

/-! ### Strikes and retirement -/

theorem strike_keeps (b : Block) (c : Channel) : b.keeps [] (b.strike c) := by
  unfold Block.strike
  split
  · exact keeps_of_regs rfl
  · exact keeps_refl _ _

theorem strike_only (b : Block) (c : Channel) : b.only [.strikes] (b.strike c) := by
  unfold Block.strike
  split
  · simp [Block.only]
  · exact only_refl _ _

theorem retire_keeps (b : Block) (c : Channel) : b.keeps [SYS_RETIRED_KIND] (b.retire c) := by
  unfold Block.retire
  split
  · exact keeps_refl _ _
  · exact keeps_trans (keeps_of_regs rfl) (put_keeps _ _ _)

theorem retire_only (b : Block) (c : Channel) : b.only [.retired, .retRec] (b.retire c) := by
  unfold Block.retire
  split
  · exact only_refl _ _
  · simp [Block.only]

theorem unretire_keeps (b : Block) (c : Channel) : b.keeps [SYS_RETIRED_KIND] (b.unretire c) := by
  unfold Block.unretire
  exact keeps_trans (keeps_of_regs rfl) (put_keeps _ _ _)

theorem unretire_only (b : Block) (c : Channel) : b.only [.retired, .retRec, .strikes] (b.unretire c) := by
  simp [Block.unretire, Block.only]

/-! ### Time quality -/

theorem requal_keeps (b : Block) :
    b.keeps [LAN_STAT_QUAL, LAN_QCAUSE_OLDQ, LAN_QCAUSE_NEWQ, LAN_QCAUSE_QCHG, LAN_EST_UNC_VALID, EVT_PEND_PEND, EVT_OVR_OVR]
      b.requal := by
  unfold Block.requal
  simp only
  have h0 : ∀ l : List Field, b.keeps l (if b.qualRow6 then { b with tm := { b.tm with restored := false } } else b) := by
    intro l
    split
    · exact keeps_of_regs rfl
    · exact keeps_refl _ _
  split
  · exact h0 _
  · refine keeps_raise ?_ (by simp) (by simp)
    have h1 := fun l hl1 hl2 hl3 hl4 => keeps_putB (v := true) (f := LAN_QCAUSE_QCHG) (keeps_put (v := b.qualNow)
      (f := LAN_QCAUSE_NEWQ) (keeps_put (v := b.get LAN_STAT_QUAL) (f := LAN_QCAUSE_OLDQ) (keeps_put (v := b.qualNow)
      (f := LAN_STAT_QUAL) (h0 l) hl1) hl2) hl3) hl4
    split
    · exact keeps_putB (h1 _ (by simp) (by simp) (by simp) (by simp)) (by simp)
    · exact h1 _ (by simp) (by simp) (by simp) (by simp)

theorem requal_only (b : Block) : b.only [.tm, .host, .out] b.requal := by
  unfold Block.requal
  simp only
  split
  · split <;> simp [Block.only]
  · refine only_trans ?_ (only_mono (raise_only _ _) (by simp))
    split <;> split <;> simp [Block.only]


/-! ### The same after a frame that is already there -/

theorem keeps_emit {l : List Field} {b c : Block} {o : Out} (h : b.keeps l c) : b.keeps l (c.emit o) := keeps_part h rfl

theorem keeps_incSat {l : List Field} {b c : Block} {f : Field} {v : Nat} (h : b.keeps l c) (hf : f ∈ l) :
    b.keeps l (c.incSat f v) := keeps_put h hf

theorem keeps_setBit {l : List Field} {b c : Block} {f : Field} {v : Nat} (h : b.keeps l c) (hf : f ∈ l) :
    b.keeps l (c.setBit f v) := keeps_put h hf

theorem keeps_hostErr {l : List Field} {b c : Block} {v w : Nat} (h : b.keeps l c) (hf : [HOST_ERRCAUSE_CODE, HOST_ERRCAUSE_CNT, HOST_ERRADDR_ADDR, EVT_PEND_PEND, EVT_OVR_OVR] ⊆ l) :
    b.keeps l (c.hostErr v w) := keeps_trans h (keeps_mono (hostErr_keeps _ _ _) hf)

theorem only_raise {l : List Part} {b c : Block} {n : Nat} (h : b.only l c) (hf : [.host,.out] ⊆ l) : b.only l (c.raise n) := only_trans h (only_mono (raise_only _ _) hf)

theorem only_put {l : List Part} {b c : Block} {f : Field} {v : Nat} (h : b.only l c) : b.only l (c.put f v) := h

theorem only_putB {l : List Part} {b c : Block} {f : Field} {v : Bool} (h : b.only l c) : b.only l (c.putB f v) := h

theorem only_incSat {l : List Part} {b c : Block} {f : Field} {v : Nat} (h : b.only l c) : b.only l (c.incSat f v) := h

theorem only_setBit {l : List Part} {b c : Block} {f : Field} {v : Nat} (h : b.only l c) : b.only l (c.setBit f v) := h

theorem only_emit {l : List Part} {b c : Block} {v : Out} (h : b.only l c) (hf : [.out] ⊆ l) : b.only l (c.emit v) := only_trans h (only_mono (emit_only _ _) hf)

theorem only_hostErr {l : List Part} {b c : Block} {v w : Nat} (h : b.only l c) (hf : [.host,.out] ⊆ l) : b.only l (c.hostErr v w) := only_trans h (only_mono (hostErr_only _ _ _) hf)

/-! ### What they leave in a field -/

@[simp] theorem raise_get (b : Block) (n : Nat) (g : Field) (h1 : EVT_PEND ≠ g.addr) (h2 : EVT_OVR ≠ g.addr) : (b.raise n).get g = b.get g := (raise_keeps b n).1 g (by simp [apart, h1, h2])
@[simp] theorem emit_get (b : Block) (n : Out) (g : Field) : (b.emit n).get g = b.get g := rfl
theorem message_out (b : Block) (n : Nat) (o : Out) (h : o ∈ b.out) : o ∈ (b.message n).out := by
  unfold Block.message; split <;> simp [Block.emit, h]
theorem raise_out (b : Block) (n : Nat) (o : Out) (h : o ∈ b.out) : o ∈ (b.raise n).out := by
  unfold Block.raise Block.occur; split <;> split <;> try split
  all_goals first | exact h | exact message_out _ _ _ h

end Sys2Proof.Machine
end

