-- ==== Sys2Proof/Laws/Fabric.lean ====
section
/-! SUPPORT. What the performance counters of the fabric can change, and when a request of the host acts as it arrives. -/

namespace Sys2Proof.Machine

/-! ### The fabric counters (R164, R485) -/

/-- Only the performance registers, the event registers, the trace state and what the host interface holds and sends differ. -/
def Block.counted (b c : Block) : Prop := (∀ a, galTouch a = false → c.reg a = b.reg a) ∧ b.only [.trc, .host, .out] c

theorem counted_refl (b : Block) : b.counted b := ⟨fun _ _ => rfl, only_refl _ _⟩

theorem counted_trans {b c d : Block} (h1 : b.counted c) (h2 : c.counted d) : b.counted d :=
  ⟨fun a h => (h2.1 a h).trans (h1.1 a h), only_trans h1.2 h2.2⟩

theorem counted_setReg (b : Block) {a : Nat} (v : Word) (h : galTouch a = true) : b.counted (b.setReg a v) :=
  ⟨fun c hc => Block.reg_setReg_ne b v (fun e => by simp [e, h] at hc), setReg_only _ _ _ _⟩

theorem counted_trc (b : Block) (t : TraceSt) : b.counted { b with trc := t } := ⟨fun _ _ => rfl, by simp [Block.only]⟩

theorem counted_raise (b : Block) (n : Nat) : b.counted (b.raise n) :=
  ⟨fun a h => (raise_keeps b n).2 a (by
    have h1 : a ≠ EVT_PEND := by rintro rfl; simp [galTouch] at h
    have h2 : a ≠ EVT_OVR := by rintro rfl; simp [galTouch] at h
    simp [h1, h2]), only_mono (raise_only b n) (by simp)⟩

theorem countUp_counted (b : Block) (a n : Nat) (h1 : 0x3C0000 ≤ a) (h2 : a < 0x3D0000) : b.counted (b.countUp a n) := by
  have ha : galTouch a = true := by simp [galTouch, within]; omega
  unfold Block.countUp
  simp only
  split
  · have h3 : ∀ c : Block, c.halfEvent a = (c.putB PRF_CAUSE_FAB true).raise evPerfHalf := fun c => by
      have h4 : a < 3997696 := h2
      have h5 : 3932160 ≤ a := h1
      simp [Block.halfEvent, h4, h5]
    rw [h3]
    exact counted_trans (counted_setReg b (withField (b.reg a) 0 40 _) ha)
      (counted_trans (counted_setReg _ (withField _ 16 1 1) (by decide)) (counted_raise _ _))
  · exact counted_setReg b _ ha

theorem fabEventFrom_counted (evt n : Nat) (ok : Nat → Bool) :
    ∀ (k : Nat) (b : Block), k ≤ 16 → b.counted (b.fabEventFrom evt n ok k)
  | 0, b, _ => counted_refl b
  | k + 1, b, h => by
    refine counted_trans ?_ (fabEventFrom_counted evt n ok k _ (by omega))
    split
    · exact countUp_counted _ _ _ (by show 3932160 ≤ 0x3c0200 + 0x10 * k; omega) (by show 0x3c0200 + 0x10 * k < 3997696; omega)
    · exact counted_refl b

theorem fabAdd_counted (b : Block) (evt n : Nat) (ok : Nat → Bool) : b.counted (b.fabAdd evt n ok) := by
  unfold Block.fabAdd
  split
  · exact counted_refl b
  · exact fabEventFrom_counted _ _ _ 16 b (Nat.le_refl _)

theorem fabTo_counted (b : Block) (t : Nat) : b.counted (b.fabTo t) := by
  unfold Block.fabTo
  split
  · exact counted_refl b
  · exact counted_trans (counted_trans (counted_trans (fabAdd_counted _ _ _ _) (fabAdd_counted _ _ _ _))
      (fabAdd_counted _ _ _ _)) (counted_trc _ _)

theorem fabKeep_counted (b : Block) : b.counted b.fabKeep := by
  unfold Block.fabKeep
  split
  · exact counted_refl b
  · exact counted_trans (fabTo_counted _ _) (counted_trc _ _)

/-- Bringing the clock counts up touches the performance counters and what their half event touches, and nothing else. -/
theorem fabTouch_counted (b : Block) : b.counted b.fabTouch := counted_trans (fabKeep_counted b) (fabTo_counted _ _)

/-- A fabric event touches the performance counters and what their half event touches, and nothing else. -/
theorem fabEvent_counted (b : Block) (evt n : Nat) (ok : Nat → Bool) : b.counted (b.fabEvent evt n ok) := by
  unfold Block.fabEvent
  split
  · exact counted_refl b
  · exact counted_trans (fabKeep_counted b) (fabAdd_counted _ _ _ _)

theorem fabCount_counted (b : Block) (evt n : Nat) : b.counted (b.fabCount evt n) := fabEvent_counted _ _ _ _

/-! ### A request of the host that finds nothing in its way (R67, R73) -/

theorem hostMay_of_free {b : Block} (h : b.hostFree = true) (i : Instr) : b.hostMay i = true := by
  simp only [Block.hostFree, Block.hostMay, Bool.and_eq_true, Bool.not_eq_true'] at *
  simp [h.1, h.2]

theorem byHost_free {b : Block} (h : b.hostFree = true) (cmd : Instr) (act : Block → Block) : byHost cmd act b = act b := by
  simp [byHost, hostMay_of_free h]

theorem journaled_free {b : Block} (h : b.hostFree = true) (hs : b.synced = false) (cmd : Instr) (act : Block → Block) :
    journaled cmd act b = act b := by
  simp [journaled, byHost_free h, journalWrite, hs]

/-- A request that has to wait joins the queue or the backlog, and counts; it does nothing else. -/
theorem enqueueReq_counted (b : Block) (i : Instr) (dom : Nat) (wakes : Bool) : b.counted (b.enqueueReq i dom wakes) := by
  unfold Block.enqueueReq
  split
  · exact ⟨fun _ _ => rfl, by simp [Block.only]⟩
  · exact counted_trans (fabTouch_counted b) ⟨fun _ _ => rfl, by simp [Block.only]⟩

end Sys2Proof.Machine
end

