-- ==== Sys2Proof/Laws/Outcome.lean ====
section
/-! SUPPORT. How a meaning becomes an outcome: every meaning answers a next state in which the block is the
effect of the command with its update tags counted, and the queue is as it was. -/

namespace Sys2Proof.Machine

/-- A block with other update tags. -/
def Block.withTags (b : Block) (u : SMap (BitVec 8)) : Block := { b with utags := u }

@[simp] theorem Block.withTags_regs (b : Block) (u : SMap (BitVec 8)) : (b.withTags u).regs = b.regs := rfl
@[simp] theorem Block.withTags_tm (b : Block) (u : SMap (BitVec 8)) : (b.withTags u).tm = b.tm := rfl
@[simp] theorem Block.withTags_cyc (b : Block) (u : SMap (BitVec 8)) : (b.withTags u).cyc = b.cyc := rfl
@[simp] theorem Block.withTags_host (b : Block) (u : SMap (BitVec 8)) : (b.withTags u).host = b.host := rfl
@[simp] theorem Block.withTags_cav (b : Block) (u : SMap (BitVec 8)) : (b.withTags u).cav = b.cav := rfl
@[simp] theorem Block.withTags_axes (b : Block) (u : SMap (BitVec 8)) : (b.withTags u).axes = b.axes := rfl
@[simp] theorem Block.withTags_encs (b : Block) (u : SMap (BitVec 8)) : (b.withTags u).encs = b.encs := rfl
@[simp] theorem Block.withTags_mainsLast (b : Block) (u : SMap (BitVec 8)) : (b.withTags u).mainsLast = b.mainsLast := rfl
@[simp] theorem Block.withTags_mainsGap (b : Block) (u : SMap (BitVec 8)) : (b.withTags u).mainsGap = b.mainsGap := rfl
@[simp] theorem Block.withTags_eng (b : Block) (u : SMap (BitVec 8)) : (b.withTags u).eng = b.eng := rfl
@[simp] theorem Block.withTags_trc (b : Block) (u : SMap (BitVec 8)) : (b.withTags u).trc = b.trc := rfl
@[simp] theorem Block.withTags_snap (b : Block) (u : SMap (BitVec 8)) : (b.withTags u).snap = b.snap := rfl
@[simp] theorem Block.withTags_flw (b : Block) (u : SMap (BitVec 8)) : (b.withTags u).flw = b.flw := rfl
@[simp] theorem Block.withTags_sw (b : Block) (u : SMap (BitVec 8)) : (b.withTags u).sw = b.sw := rfl
@[simp] theorem Block.withTags_macs (b : Block) (u : SMap (BitVec 8)) : (b.withTags u).macs = b.macs := rfl
@[simp] theorem Block.withTags_lanes (b : Block) (u : SMap (BitVec 8)) : (b.withTags u).lanes = b.lanes := rfl
@[simp] theorem Block.withTags_rings (b : Block) (u : SMap (BitVec 8)) : (b.withTags u).rings = b.rings := rfl
@[simp] theorem Block.withTags_ptp (b : Block) (u : SMap (BitVec 8)) : (b.withTags u).ptp = b.ptp := rfl
@[simp] theorem Block.withTags_sec (b : Block) (u : SMap (BitVec 8)) : (b.withTags u).sec = b.sec := rfl
@[simp] theorem Block.withTags_cps (b : Block) (u : SMap (BitVec 8)) : (b.withTags u).cps = b.cps := rfl
@[simp] theorem Block.withTags_outs (b : Block) (u : SMap (BitVec 8)) : (b.withTags u).outs = b.outs := rfl
@[simp] theorem Block.withTags_clk (b : Block) (u : SMap (BitVec 8)) : (b.withTags u).clk = b.clk := rfl
@[simp] theorem Block.withTags_tic (b : Block) (u : SMap (BitVec 8)) : (b.withTags u).tic = b.tic := rfl
@[simp] theorem Block.withTags_cal (b : Block) (u : SMap (BitVec 8)) : (b.withTags u).cal = b.cal := rfl
@[simp] theorem Block.withTags_pair (b : Block) (u : SMap (BitVec 8)) : (b.withTags u).pair = b.pair := rfl
@[simp] theorem Block.withTags_pw (b : Block) (u : SMap (BitVec 8)) : (b.withTags u).pw = b.pw := rfl
@[simp] theorem Block.withTags_strikes (b : Block) (u : SMap (BitVec 8)) : (b.withTags u).strikes = b.strikes := rfl
@[simp] theorem Block.withTags_retired (b : Block) (u : SMap (BitVec 8)) : (b.withTags u).retired = b.retired := rfl
@[simp] theorem Block.withTags_retRec (b : Block) (u : SMap (BitVec 8)) : (b.withTags u).retRec = b.retRec := rfl
@[simp] theorem Block.withTags_free (b : Block) (u : SMap (BitVec 8)) : (b.withTags u).free = b.free := rfl
@[simp] theorem Block.withTags_out (b : Block) (u : SMap (BitVec 8)) : (b.withTags u).out = b.out := rfl
@[simp] theorem Block.withTags_utags (b : Block) (u : SMap (BitVec 8)) : (b.withTags u).utags = u := rfl
@[simp] theorem Block.withTags_reg (b : Block) (u : SMap (BitVec 8)) (a : Nat) : (b.withTags u).reg a = b.reg a := rfl
@[simp] theorem Block.withTags_get (b : Block) (u : SMap (BitVec 8)) (f : Field) : (b.withTags u).get f = b.get f := rfl
@[simp] theorem Block.withTags_flag (b : Block) (u : SMap (BitVec 8)) (f : Field) : (b.withTags u).flag f = b.flag f := rfl
@[simp] theorem Block.withTags_geti (b : Block) (u : SMap (BitVec 8)) (f : Field) : (b.withTags u).geti f = b.geti f := rfl
@[simp] theorem Block.withTags_engine (b : Block) (u : SMap (BitVec 8)) (n : Nat) : (b.withTags u).engine n = b.engine n := rfl

/-- What `done` answers. -/
theorem done_eq (s : State) (f : Block → Block) :
    done s f = .next ⟨(f s.blk).withTags (tagsAfter s.blk (f s.blk)), s.pending⟩ := rfl

theorem doneRestart_eq (s : State) (p : Nat → Bool) (f : Block → Block) :
    doneRestart s p f = .next ⟨(f s.blk).withTags ((tagsAfter s.blk (f s.blk)).filter (fun e => ! p e.1)), s.pending⟩ := rfl

/-- To show what a command leads to, show it of its effect on the block, whatever the tags are. The first argument is
`rfl` for a command whose meaning is that effect. -/
theorem done_intro {o : Host.Outcome State Fault Refusal} {s : State} {f : Block → Block} {P : State → Prop}
    (ho : o = done s f) (h : ∀ u, P ⟨(f s.blk).withTags u, s.pending⟩) : ∃ t, o = .next t ∧ P t := by
  subst ho; exact ⟨_, rfl, h _⟩

theorem doneRestart_intro {o : Host.Outcome State Fault Refusal} {s : State} {p : Nat → Bool} {f : Block → Block}
    {P : State → Prop} (ho : o = doneRestart s p f) (h : ∀ u, P ⟨(f s.blk).withTags u, s.pending⟩) :
    ∃ t, o = .next t ∧ P t := by
  subst ho; exact ⟨_, rfl, h _⟩

theorem donePower_intro {o : Host.Outcome State Fault Refusal} {s : State} {f : Block → Block} {P : State → Prop}
    (ho : o = donePower s f) (h : ∀ u, P ⟨(f s.blk).withTags u, s.pending⟩) : ∃ t, o = .next t ∧ P t :=
  doneRestart_intro ho h

theorem only_withTags {l : List Part} {b c : Block} {u : SMap (BitVec 8)} : b.only l (c.withTags u) ↔ b.only l c := Iff.rfl

theorem keeps_withTags {l : List Field} {b c : Block} {u : SMap (BitVec 8)} : b.keeps l (c.withTags u) ↔ b.keeps l c :=
  Iff.rfl

/-- The frame of a command is the frame of its effect. -/
theorem frame_intro {fs : List Field} {ps : List Part} {s : State} {c : Block} {u : SMap (BitVec 8)}
    (h1 : s.blk.keeps fs c) (h2 : s.blk.only ps c) : Frame fs ps s ⟨c.withTags u, s.pending⟩ := ⟨h1, h2, rfl⟩

end Sys2Proof.Machine
end

