-- ==== Sys2Proof/Laws/Tags.lean ====
section
/-! SUPPORT. The laws of the update tags (R61): which registers a change of register file names, that counting them adds one to
each, and that the tags stay in canonical form. -/

namespace Sys2Proof.Machine

/-- Counting changes keeps the canonical form. -/
theorem swf_bumpTags (l : List Nat) : ∀ t : SMap (BitVec 8), swf (fun _ => (0 : BitVec 8)) t = true →
    swf (fun _ => (0 : BitVec 8)) (bumpTags l t) = true := by
  induction l with
  | nil => exact fun _ h => h
  | cons a r ih => exact fun t h => ih _ (swf_sput _ t a _ h)

/-- The tags after a command are canonical where those that its effect bears are. -/
theorem swf_tagsAfter (b c : Block) (h : swf (fun _ => (0 : BitVec 8)) c.utags = true) :
    swf (fun _ => (0 : BitVec 8)) (tagsAfter b c) = true :=
  swf_bumpTags _ _ h

/-- Two changes in turn leave the tags canonical where the second does. -/
theorem swf_inTurn (f g : Block → Block) (b : Block) (h : swf (fun _ => (0 : BitVec 8)) (g (f b)).utags = true) :
    swf (fun _ => (0 : BitVec 8)) (Block.inTurn f g b).utags = true :=
  swf_bumpTags _ _ h

/-- Counting adds one to the tag of each register named, once, and leaves the others. -/
theorem sget_bumpTags (l : List Nat) (hl : l.Nodup) : ∀ (t : SMap (BitVec 8)) (a : Nat),
    sget (fun _ => (0 : BitVec 8)) (bumpTags l t) a =
      if a ∈ l then sget (fun _ => (0 : BitVec 8)) t a + 1 else sget (fun _ => (0 : BitVec 8)) t a := by
  induction l with
  | nil => intro t a; simp [bumpTags]
  | cons k r ih =>
    intro t a
    obtain ⟨hk, hr⟩ := List.nodup_cons.mp hl
    simp only [bumpTags, ih hr, sget_sput, List.mem_cons]
    by_cases h : a = k
    · subst h; simp [hk]
    · simp [h]

/-- The registers counted are each named once. -/
theorem nodup_tagged (old new : SMap Word) : (tagged old new).Nodup := List.nodup_dedup _

/-- A list of changed registers names those of its entries that read otherwise. -/
theorem mem_changedRegs (old new : SMap Word) (a : Nat) (l : List (Nat × Word)) :
    a ∈ changedRegs old new l ↔ (∃ v, (a, v) ∈ l) ∧ sget regReset old a ≠ sget regReset new a := by
  induction l with
  | nil => simp [changedRegs]
  | cons e r ih =>
    obtain ⟨k, w⟩ := e
    simp only [changedRegs]
    split
    · rename_i h
      rw [ih]
      constructor
      · rintro ⟨⟨v, hv⟩, hne⟩; exact ⟨⟨v, List.mem_cons_of_mem _ hv⟩, hne⟩
      · rintro ⟨⟨v, hv⟩, hne⟩
        rcases List.mem_cons.mp hv with hv | hv
        · exact absurd ((Prod.mk.inj hv).1 ▸ h) hne
        · exact ⟨⟨v, hv⟩, hne⟩
    · rename_i h
      simp only [List.mem_cons, ih]
      constructor
      · rintro (rfl | ⟨⟨v, hv⟩, hne⟩)
        · exact ⟨⟨w, .inl rfl⟩, h⟩
        · exact ⟨⟨v, .inr hv⟩, hne⟩
      · rintro ⟨⟨v, hv | hv⟩, hne⟩
        · exact .inl (Prod.mk.inj hv).1
        · exact .inr ⟨⟨v, hv⟩, hne⟩

/-- A register that a table does not list reads its reset value. -/
theorem sget_of_not_mem (m : SMap Word) (a : Nat) (h : ∀ v, (a, v) ∉ m) : sget regReset m a = regReset a := by
  induction m with
  | nil => rfl
  | cons e r ih =>
    obtain ⟨k, w⟩ := e
    have hk : k ≠ a := fun hk => h w (hk ▸ List.mem_cons_self)
    simpa [sget, hk] using ih fun v hv => h v (List.mem_cons_of_mem _ hv)

/-- The registers compared are those that read otherwise after a change. -/
theorem mem_touchedRegs (old new : SMap Word) (a : Nat) :
    a ∈ touchedRegs old new ↔ sget regReset old a ≠ sget regReset new a := by
  simp only [touchedRegs, List.mem_append, List.mem_filter, mem_changedRegs]
  constructor
  · rintro (⟨_, h⟩ | ⟨⟨_, h⟩, _⟩) <;> exact h
  · intro h
    by_cases hn : ∃ v, (a, v) ∈ new
    · exact .inl ⟨hn, h⟩
    · by_cases ho : ∃ v, (a, v) ∈ old
      · refine .inr ⟨⟨ho, h⟩, ?_⟩
        simp only [Bool.not_eq_true', List.contains_eq_mem, decide_eq_false_iff_not, mem_changedRegs]
        exact fun hc => hn hc.1
      · push Not at hn ho
        exact absurd ((sget_of_not_mem old a ho).trans (sget_of_not_mem new a hn).symm) h

end Sys2Proof.Machine
end

