-- ==== Sys2Proof/Tests/Slice0.lean ====
section
/-! SUPPORT. Tests: ill-formed commands that `wf` refuses, worked examples of the spec, and for every
statement states and operands that meet its hypotheses. -/

namespace Sys2Proof.Tests

set_option Elab.async false

open Machine

/-! ### States built for the tests -/

/-- A value put into a list of registers sorted by address. -/
def rawIns : List (Nat × Word) → Nat → Word → List (Nat × Word)
  | [], a, v => [(a, v)]
  | (k, u) :: r, a, v => if a < k then (a, v) :: (k, u) :: r else if a = k then (a, v) :: r else (k, u) :: rawIns r a v

/-- A field of a register set, by the list alone: no comparison with a reset value of `Config`. -/
def putRaw (b : Block) (f : Field) (v : Nat) : Block :=
  { b with regs := rawIns b.regs f.addr (withField (b.reg f.addr) f.lo f.w v) }

/-- Values for registers whose reset value `Config` leaves open: serial number, PLL states, bands 15, interpolators, fuses,
fingerprints. -/
def factoryRegs : List (Nat × Word) :=
  [(SYS_SERIAL, 7), (0x30010, 0), (0x30020, 0), (0x30030, 0), (CLK_BAND 0 15, 0), (CLK_BAND 1 15, 0), (CLK_BAND 2 15, 0)] ++
    ((List.range 16).map fun i => (CAL_TAC i, BitVec.ofNat 72 (231060 + 1251881 * 2 ^ 24 + (if i < 14 then i else 31) * 2 ^ 48))) ++
    (List.range 20).map fun i => (SEC_FUSE 0 + 16 * i, 0)

/-- The state after reset with a change. -/
def st (f : Block → Block) : State := { State.reset with blk := f State.reset.blk }

/-- The state after reset with fields of registers set. -/
def sr (l : List (Field × Nat)) (f : Block → Block := id) : State :=
  st fun b => f (l.foldl (fun x p => putRaw x p.1 p.2) { b with regs := factoryRegs })

/-- Engine `e` RUNNING at PC 10 on the word `w`, 5 µs after reset. -/
def gs (e : Fin 16) (w : Word) (x : Engine → Engine := id) (l : List (Field × Nat) := []) (fb : Block → Block := id) : State :=
  sr ([(GAL_STAT_STATE e,3)] ++ l) fun b => fb { b.advanceNs 5000 with eng := b.eng.set e (x { b.eng[e] with pc := 10, readyAt := 5040*nsUnit, prog := sput (fun _ => (0:Word)) b.eng[e].prog 10 w }) }

/-- An engine with four registers and flags set. -/
def x0 (x : Engine) : Engine := {((((x.wr 5 40).wr 6 0x800000000000000001).wr 7 3).wr 10 77) with f := 0xA5}

/-- Engine 3 at a Form A word. -/
def gsA (o : Op) (f : FormA) (l : List (Field × Nat) := []) (fb : Block → Block := id) (fe : Engine → Engine := id) := gs 3 (encodeA o.code f) (fun x => fe (x0 x)) l fb

/-- Engine 3 at a Form B word. -/
def gsB (o : Op) (f : FormB) (l : List (Field × Nat) := []) (fb : Block → Block := id) (fe : Engine → Engine := id) := gs 3 (encodeB o.code f) (fun x => fe (x0 x)) l fb

/-- Engine 3 at a Form C word. -/
def gsC (o : Op) (f : FormC) (l : List (Field × Nat) := []) (fb : Block → Block := id) (fe : Engine → Engine := id) := gs 3 (encodeC o.code f) (fun x => fe (x0 x)) l fb

/-- Engine 3 at a Form D word. -/
def gsD (o : Op) (f : FormD) (l : List (Field × Nat) := []) (fb : Block → Block := id) (fe : Engine → Engine := id) := gs 3 (encodeD o.code f) (fun x => fe (x0 x)) l fb

/-- Words put into Cavern from a word number on. -/
def putWords (m : List Host.Cell) : Nat → List Word → List Host.Cell
  | _, [] => m
  | k, w :: r => putWords (cavStoreWord m k w) (k + 1) r

/-- A signed engine image in Cavern, with the key, its fingerprint and the fuse that it is checked by. -/
def imgS : State := sr ([(SEC_PK_PK 0 0,17627433388654248598),(SEC_PK_PK 0 1,8575836109218198432),(SEC_PK_PK 0 2,17923454489921339634),(SEC_PK_PK 0 3,7716867327612699207),(SEC_PK_PK 0 4,14678990851816772085),(SEC_PK_PK 0 5,3156516839386865358),(SEC_PK_PK 0 6,10297457778147434006),(SEC_PK_PK 0 7,5756518291402817435),(SEC_FP_FP 0 0,18363127270101814687),(SEC_FP_FP 0 1,1454483527309778724),(SEC_FP_FP 0 2,12594097308984622720),(SEC_FP_FP 0 3,15597614218397033014),(SEC_FUSE_STATE 0,1)] ++ [(GAL_STAT_STATE 3,1),(GAL_CTL_EN 3,1),(GAL_STAT_LOST 3,1)]) fun b => {b.mapE 3 (fun x => {x with laddr := 1000}) with cav := {b.cav with mem := putWords [] 1000 [1646876733950381785088,35190814605314,77,8388609,16777219,0,0,0,983049,5,6,7,11964737083406719352,13873736548487404341,9967090510939364035,9003393950442278782,366450416703578238,13326156178120822557,1576869743169431327,8361785518720412639]}}

/-- A load from the last words of Cavern. -/
def lim : State := sr [(GAL_STAT_STATE 3,1),(GAL_CTL_EN 3,1)] fun b => b.mapE 3 (fun x => {x with laddr := 0x1FF7FFFC})

/-- Engine 3 in a cycle at its trigger. -/
def cyS (x : Engine → Engine) (l : List (Field × Nat)) : State := sr l fun b => {((b.advanceNs 5000).mapE 3 (fun y => x (x0 y))) with cyc := {b.cyc with inProg := true, start := 4995, next := 104995, triggerAt := some 5005, budgetUs := 100}}

/-- A record of the Flowstone. -/
def rc : Rec := { w0 := 10, w1 := 0, w2 := BitVec.ofNat 72 (2^40 + 2*2^42), w3 := 5, r0 := 9, r1 := 8, u := none, cyc := none }

/-- A batch of one record. -/
def bt : Batch := { eng := 3, run := 0, tag := 2, first := 40, count := 1, pm := 1000, vm := 3, at_ := 6000000000000000 }

/-- The Flowstone enabled, with a record at 40 and a table. -/
def fS (r : Rec) (f : FlwSt → FlwSt := id) (l : List (Field × Nat) := []) (fb : Block → Block := id) : State := sr ([(FLW_CTL_EN,1),(FLW_STAT_ACTIVE,255),(FLW_USE_ALLOW,1000),(SYS_CYCLE_PERIN,125),(FLW_TABA_VALID 0,1),(FLW_TABA_NSEG 0,1),(FLW_TABA_ADDR 0,1280),(FLW_SHED_LEVEL,8)] ++ l) fun b => fb {b with flw := f {b.flw with recs := sput (fun _ => Rec.reset) b.flw.recs 40 r}}

/-- A segment. -/
def seg0 : Word × Word := (BitVec.ofNat 72 (30*2^66 + 5 * 2^24), 0)

/-- A batch in flight. -/
def flt (ws : List Miss) (rs : List Slot) : Flight := {(Batch.flight bt 77 8 [] false) with todo := [], waiting := ws, results := rs, evald := 1}

/-- A slot result with a crossing. -/
def o0 : SlotResult := { rec_ := 40, place := some (1,2,3), sw := none, state := some 2, pos := some 99, r1 := 1234, copy := some 70 }

/-- A slot result without one. -/
def o1 : SlotResult := { rec_ := 40, place := none, sw := none, state := some 1, pos := none, r1 := 1234, copy := none }

/-- A cam table in Cavern. -/
def cavT : List Host.Cell := putWords [] 1280 [0, 500, seg0.1, seg0.2]

/-- A frame from a source. -/
def fIn (src : Nat) : InFrame := { src := src, bytes := (List.range 100).map (fun k => BitVec.ofNat 8 (2*k+2)), vid := 1, pcp := none, cls := 3, port := 63, sch := false, cycle := 0, bad := 0, stamp := 0, rxEnd := 0 }

/-- A frame in the Sump. -/
def sfr (id : Nat) (src : Nat) : SFrame := { id := id, f := fIn src, cells := [(0,0)], resv := 0, refs := 1, whole := 0, errs := [] }

/-- A copy that waits at an egress. -/
def cpy (fid port cls : Nat) (multi : Bool := false) : Copy := { fid := fid, port := port, cls := cls, seq := 0, cut := false, opened := false, multi := multi, since := 70, fetched := false, passed := false, behind := 0 }

/-- Registers of ring 2 on port 5. -/
def ringL : List (Field × Nat) := [(ZRG_CFG_EN 2,1),(ZRG_CFG_PORT 2,5),(ZRG_ETYPE_ETYPE,0x88B5),(MAC_STAT_LINK 5,1),(MAC_CTL_EN 5,1),(MAC_CFG_MAXLEN 5,1518),(MAC_CFG_RING 5,1),(PWR_STAT_DOMON,0xFFF),(SWC_STAT_INSVC,15)]

/-- Ring 2 in a state. -/
def rS (st : Nat) (r : RingSt → RingSt) (l : List (Field × Nat) := []) (fb : Block → Block := id) : State := sr (ringL ++ [(ZRG_STAT_STATE 2,st)] ++ l) fun b => fb ((b.advanceNs 5000).mapRing 2 r)

/-- The bytes of a train frame. -/
def tfB : List Byte := bytesBE 0x015A4C000002 6 ++ bytesBE 0x1234 6 ++ bytesBE 0x88B5 2 ++ [1, 0x60, 2, 0] ++ bytesBE 0 4 ++ bytesBE 0 2 ++ bytesBE 777 8 ++ [1, 0x80] ++ bytesBE 0x1FF 3 ++ [0] ++ bytesBE 0 2 ++ List.replicate 28 0

/-- A train frame of the cycle. -/
def tfr (sent : List (Nat × Nat)) : TrainFrame := { fid := 9, bytes := tfB, cycle := 0, sent := sent, got := [], ret := none }

/-- The bytes of a mailbox frame. -/
def mbx (dir : Nat) : List Byte := bytesBE 0x015A4C000002 6 ++ bytesBE 0x1234 6 ++ bytesBE 0x88B5 2 ++ [3, BitVec.ofNat 8 (0x40 + dir * 32), 2, 0] ++ bytesBE 0 4 ++ bytesBE 0x77 2 ++ List.replicate 40 0

/-- A scan in progress. -/
def scn (run : Nat) : ScanSt := ⟨50, 3, true, run, 7, 500, List.replicate 7 (5, 77)⟩

/-- The switch core with ports 3 and 7 in use. -/
def swS (f : SwSt → SwSt) (l : List (Field × Nat) := []) (fb : Block → Block := id) : State := sr ([(SWC_PORT_CTL_EN 7,1),(SWC_PORT_CTL_STP 7,2),(MAC_STAT_LINK 7,1),(SWC_PORT_STAT_UP 7,1),(SWC_PORT_EQLIM_LIM 7,100),(SWC_STAT_INSVC,15),(SWC_IG_CFG_SHARE 3,60000),(SWC_PORT_CTL_EN 3,1),(SWC_PORT_CTL_STP 3,2),(MAC_CFG_RATE 7,2),(MAC_CTL_EN 7,1)] ++ l) fun b => fb {(b.advanceNs 5000) with sw := f b.sw}

/-- Port `n` with its link up. -/
def mS (n : Nat) (l : List (Field × Nat) := []) (fb : Block → Block := id) : State := sr ([(MAC_STAT_LINK n,1),(MAC_CTL_EN n,1),(MAC_CFG_MAXLEN n,1518),(PWR_STAT_DOMON,0xFFF),(SWC_PORT_CTL_EN (egressOf n),1),(SWC_PORT_STAT_UP (egressOf n),1),(MAC_CFG_RATE n,2),(MAC_VLAN_PVID n,1),(MAC_FC_RXIGN n,0)] ++ l) fun b => fb (b.advanceNs 5000)

/-- A good frame on the wire. -/
def wf0 : WireFrame := ⟨(List.range 100).map (fun k => BitVec.ofNat 8 (2*k+2)), true, false, 0, 0⟩

/-- A frame with a VLAN tag. -/
def wfT : WireFrame := ⟨((List.range 100).map (fun k => BitVec.ofNat 8 (2*k+2))).take 12 ++ [0x81,0,0x0F,0xFF] ++ List.replicate 80 7, true, false, 0, 0⟩

/-- A time stamp record. -/
def rt (i : Nat) : TsRec := { stw := BitVec.ofNat 72 (100+i), ovf := false, seqid := i, msgt := 0, domn := 3, lostn := 0, lastid := 0 }

/-- Lane `l` in a state. -/
def lS (l st : Nat) (r : List (Field × Nat) := []) (f : LaneSt → LaneSt := id) (fb : Block → Block := id) : State := sr ([(PWR_STAT_DOMON,0xFFF),(SDS_STAT_STATE l,st),(SDS_CFG_FOMMIN l,100),(MAC_CFG_RATE l,2),(MAC_CTL_EN l,1),(MAC_CFG_MAXLEN l,1518)] ++ r) fun b => fb ((b.advanceNs 5000).mapLane l f)

/-- Figures of merit with two maxima. -/
def foms1 : List (BitVec 12) := (List.range 16).map (fun i => BitVec.ofNat 12 (if i = 5 ∨ i = 9 then 600 else 100 + 3*i))

/-- The four lanes of cage 4. -/
def r4 (st : Nat) : List (Field × Nat) := [(MAC_CAGE_MODE 4,1),(SDS_STAT_STATE 4,st),(SDS_STAT_STATE 5,st),(SDS_STAT_STATE 6,st),(SDS_STAT_STATE 7,st)]

/-- The four Rope lanes. -/
def rp (st : Nat) : List (Field × Nat) := [(PAIR_CFG_EN,1),(SDS_STAT_STATE 32,st),(SDS_STAT_STATE 33,st),(SDS_STAT_STATE 34,st),(SDS_STAT_STATE 35,st),(SDS_STAT_RLANE 33,1),(SDS_STAT_RLANE 34,2),(SDS_STAT_RLANE 35,3),(PAIR_STAT_LANES,2)]

/-- All Rope lanes in use. -/
def use4 (b : Block) : Block := {b with lanes := {b.lanes with use := 15}}

/-- A capability message. -/
def cm (lane : BitVec 2) (role : BitVec 4 := 1) (map : BitVec 4 := 15) : CapMsg := ⟨role, lane, map, true, 77⟩

/-- Strikes on a lane. -/
def stk (l : Nat) (n : Nat) (b : Block) : Block := {b with strikes := [(laneChan l, (List.range n).map (fun i => ⟨3000 - 10*i, 0⟩))]}

/-- A journal entry. -/
def jE (i : JItem) (at_ : Nat) (own : Bool) (seq : Nat := 0) : JEntry := ⟨i, at_, own, !own, seq⟩

/-- The bytes of a PTP message. -/
def ptpB (ty : Nat) (two : Bool) (seq : Nat) (corr : Nat) (body : List Byte) : List Byte := bytesBE 0x011B19000000 6 ++ bytesBE 0x1234 6 ++ bytesBE 0x88F7 2 ++ bytesBE ty 1 ++ [2] ++ bytesBE (34 + body.length) 2 ++ [9, 0] ++ bytesBE (if two then 0x200 else 0) 2 ++ bytesBE corr 8 ++ [0,0,0,0] ++ bytesBE 0xABCDEF 8 ++ bytesBE 3 2 ++ bytesBE seq 2 ++ [0, 0] ++ body

/-- A PTP message as a frame. -/
def ptpF (l : List Byte) : InFrame := { fIn 5 with bytes := l, stamp := 5 * 2^20 }

/-- A time stamp in a message. -/
def tB : List Byte := bytesBE 1 6 ++ bytesBE 500 4

/-- Port 5 in a PTP domain. -/
def pS (role : Nat) (l : List (Field × Nat)) (rx : List InFrame) (fb : Block → Block := id) : State := mS 5 ([(LAN_D_CFG_EN 0,1),(LAN_D_CFG_DNUM 0,9),(MAC_PTP_DOMA 5,1),(MAC_PTP_ROLE 5,role),(LAN_D_M1_VALID 0 1,1),(LAN_D_M1_INPORT 0 1,5),(LAN_D_M1_PORTNUM 0 1,3),(LAN_D_M0_CLKID 0 1,0xABCDEF),(ZRG_ETYPE_ETYPE,0x88B5),(LAN_D_STAT_STATE 0,3),(LAN_D_SEL_SEL 0,1),(LAN_CLKID_ID,0x77),(LAN_D_LIM_TMO 0,5)] ++ l) fun b => fb {b with ptp := {b.ptp with rx := rx}}

/-- A Sync in progress. -/
def sy : SyncIn := { seq := 77, two := true, t2 := 10^9*65536, t1 := 0, corr := 3, at_ := 4000*nsUnit }

/-- Compass input 2 configured. -/
def cS (l : List (Field × Nat)) (f : CmpSt → CmpSt := id) (x : InputSt → InputSt := id) (fb : Block → Block := id) : State := sr ([(CMP_IN_CFG_EN 2,1),(CMP_IN_CFG_PHIT 2,100),(CMP_IN_LIM_LIM 2,5000000),(CMP_CFG_AGREE,21990),(CMP_CFG_QTIME,3),(CMP_CFG_REVERT,0),(SYS_STRIKES_THRESH 6,3),(SYS_STRIKES_WINDOW 6,1000)] ++ l) fun b0 => let b := b0.advanceNs 5000000000; fb ({b with cps := f b.cps}.mapIn 2 x)

/-- Stamps of an input. -/
def stm (n : Nat) (e : Int) : List Int := (List.range n).map (fun (i:Nat) => (n - i : Int) * (12800000000 + e))

/-- Registers of a qualified input. -/
def q (k : Nat) (r : Nat) (f : Nat := 0) : List (Field × Nat) := [(CMP_IN_CFG_EN k,1),(CMP_IN_STAT_STATE k,4),(CMP_IN_CFG_RANK k,r),(CMP_IN_FREQ_FREQ k,f)]

/-- Strikes on input 2. -/
def stk6 (n : Nat) (b : Block) : Block := {b with strikes := [(inChan 2, (List.range n).map (fun i => ⟨4900000000 - 10000*i, 0⟩))]}

/-- Pulse output `j` configured. -/
def oS (j : Nat) (l : List (Field × Nat)) (f : OutSt → OutSt := id) (fb : Block → Block := id) : State := sr ([(PIO_OUT_PER_PER j,1000),(PIO_OUT_WID_WID j,100),(PIO_OUT_OFS_OFS j,2^40-77),(LAN_RATE_RATE,5000)] ++ l) fun b => fb ((b.advanceNs 500000).mapOut j f)

/-- PLL `p` in a state. -/
def kS (p st : Nat) (l : List (Field × Nat) := []) (f : PllSt → PllSt := id) (fb : Block → Block := id) : State := sr ([(pllField p 0 3,st)] ++ l) fun b => fb ((b.advanceNs 500000).mapPll p f)

/-- Band entries of PLL 1. -/
def kb : List (Field × Nat) := [(CLK_BAND_VALID 1 3,1),(CLK_BAND_TMIN 1 3,0xF6),(CLK_BAND_TMAX 1 3,60),(CLK_BAND_CODE 1 3,33),(CLK_BAND_VALID 1 2,1),(CLK_BAND_TMIN 1 2,0xF6),(CLK_BAND_TMAX 1 2,60),(CLK_BAND_VALID 1 15,0)]

/-- The TIC half a millisecond after reset. -/
def tS (l : List (Field × Nat)) (f : TicSt → TicSt := id) (fb : Block → Block := id) : State := sr (l++[(LAN_RATE_RATE,5000)]) fun b => fb ((b.advanceNs 500000).mapTic f)

/-- A TIC record. -/
def rec (i : Nat) : TicRec := ⟨i % 4, i % 2 == 0, i, BitVec.ofNat 72 (i * 77), [i % 11, 3], [i*5+1, 2^49+i]⟩

/-- Calibration enabled. -/
def calS (l : List (Field × Nat)) (f : CalSt → CalSt := id) (fb : Block → Block := id) : State := sr (l++[(LAN_RATE_RATE,5000),(CAL_CTL_EN,1),(CAL_REC_COUNT 14,65535),(CAL_REC_FAILS 15,65535)]) fun b => fb ((b.advanceNs 500000).mapCal f)

/-- The pair in a state. -/
def prS (st : Nat) (l : List (Field × Nat) := []) (f : PairSt → PairSt := id) (fb : Block → Block := id) : State := sr ([(LAN_RATE_RATE,5000),(PAIR_STAT_STATE,st),(PAIR_CFG_EN,if st = 0 then 0 else 1),(PAIR_UPMASK_MASK,5),(PAIR_DELAY_DELAY,40)]++l) fun b => fb ((b.advanceNs 500000).mapPair (fun p => f {p with linked := true, txSeq := 9, lastTx := 5, lastRx := 499*nsUnit, aliveAt := 600000*nsUnit, since := 77}))

/-- All Rope lanes in use, with a key. -/
def ropeB (b : Block) : Block := { b with lanes := { b.lanes with use := 15 }, sec := { b.sec with ropeKey := some 77 } }

/-- The configuration of a partner. -/
def peerC (st : Fin 7) : RopePeer := ⟨true, 0, 40, 0, 125, st, 0x1234, true, 30000, 9⟩

/-- A block of the Rope whose tag is the right one plus a number. -/
def rb (b : Block) (m : RopeMsg) (x : BitVec 128) : RopeBlock := { seq := 77, payload := [1, 2, 3], tag := b.ropeTag 77 { seq := 77, payload := [1, 2, 3], tag := 0, msg := m } + x, msg := m }

/-- Rope lanes up. -/
def lnk : List (Field × Nat) := [(SDS_STAT_STATE 32,6),(SDS_STAT_STATE 33,6),(SDS_STAT_STATE 34,6),(SDS_STAT_STATE 35,6),(SEC_KSTAT_STATE 0,1),(SYS_CYCLE_PERIOD,125)]

/-- A digest record. -/
def dg (n sc : Nat) : DigRec := ⟨5, BitVec.ofNat 72 n, sc, 700000⟩

/-- Power state and its context. -/
def wS (st : Nat) (l : List (Field × Nat) := []) (f : PwSt → PwSt := id) (fb : Block → Block := id) : State := sr ([(LAN_RATE_RATE,5000),(PWR_STAT_STATE,st),(PWR_STAT_QON,0x1FF),(PWR_STAT_MAINS,1),(LAN_STAT_QUAL,3),(SYS_CYCLE_RUN,0)]++l) fun b => fb ((b.advanceNs 500000).mapPw f)

/-- Security state and its context. -/
def seS (l : List (Field × Nat) := []) (f : SecSt → SecSt := id) (fb : Block → Block := id) : State := sr ([(LAN_RATE_RATE,5000),(LAN_STAT_QUAL,3)]++l) fun b => fb ((b.advanceNs 500000).mapSec f)

/-- Key data registers. -/
def kd : List (Field × Nat) := [(SEC_KDATA_KEY 0,5),(SEC_KDATA_KEY 1,77),(SEC_KDATA_KEY 3,2^64-1)]

/-- Module hardware and its context. -/
def hwS (l : List (Field × Nat) := []) (f : PwSt → PwSt := id) (fb : Block → Block := id) : State := sr ([(LAN_RATE_RATE,5000),(LAN_STAT_QUAL,3),(PWR_STAT_DOMON,0xFFF),(SYS_PROFILE_ACT,1)]++l) fun b => fb ((b.advanceNs 500000).mapPw f)

/-- Ports with and without a link. -/
def lk : List (Field × Nat) := (List.range 12).flatMap (fun n => [(MAC_CTL_EN n, if n % 3 = 2 then 0 else 1),(MAC_STAT_LINK n,1),(SWC_PORT_CTL_EN n,1),(SWC_PORT_STAT_UP n,1)])

/-- A signed supervisor image in Cavern. -/
def bootS : State := sr ([(SEC_PK_PK 0 0,17627433388654248598),(SEC_PK_PK 0 1,8575836109218198432),(SEC_PK_PK 0 2,17923454489921339634),(SEC_PK_PK 0 3,7716867327612699207),(SEC_PK_PK 0 4,14678990851816772085),(SEC_PK_PK 0 5,3156516839386865358),(SEC_PK_PK 0 6,10297457778147434006),(SEC_PK_PK 0 7,5756518291402817435),(SEC_FP_FP 0 0,18363127270101814687),(SEC_FP_FP 0 1,1454483527309778724),(SEC_FP_FP 0 2,12594097308984622720),(SEC_FP_FP 0 3,15597614218397033014),(SEC_FUSE_STATE 0,1)]) fun b => {b with cav := {b.cav with mem := putWords [] 1000 [1647741425077763178496,6442516482,77,0,0,0,0,0,5,6,7,11964737083406719352,13873736548487404341,9967090510939364035,9003393950442278782,6853574645313101016,11740226625655064449,11356945792647857004,14012357459372566999] }}

/-- A frame without copies. -/
def swh (b : Block) : Block := {b with sw := {b.sw with frames := [sfr 44 3], copies := []}}

/-- A cycle in progress. -/
def oncyc (l : List (Field × Nat) := []) (f : CycleSt → CycleSt := id) (fb : Block → Block := id) : State := sr ([(SYS_CYCLE_RUN,1)]++l) fun b => fb (b.mapCyc fun c => f {c with inProg := true, start := 1000, next := 250000})

/-- No cycle in progress. -/
def cyc0 (l : List (Field × Nat) := []) (f : CycleSt → CycleSt := id) : State := sr l fun b => b.mapCyc f

/-- A descriptor. -/
def ddB : Desc := ⟨0,2,true,true,0,0,false,100⟩

/-- Axis 3 on encoder 2. -/
def saB (fa : Axis → Axis := id) (l : List (Field × Nat) := []) : State := sr ([(LAN_AXCFG_SRC 3,1),(LAN_AXCFG_ENC 3,2),(LAN_AXSTAT_STATE 3,2),(ENC_CFG_MODE 2,1),(ENC_STAT_LINE 2,1),(LAN_AXSCALE_SCALE 3,2^32)]++l) fun b => {(b.advanceNs 5000).setAxis 3 (fa {Axis.reset with applied := 100, v:= 77777, raw := 5}) with encs := b.encs.set 2 {Enc.reset with count := 9, edgeNew := 4, edge := 400*65536}}

/-- DMA engine `n` with a descriptor waiting. -/
def dmaS (n : Nat) (l : List (Field × Nat) := []) (fb : Block → Block := id) : State := sr ([(DMA_CTL_EN n,1),(DMA_TAIL_TAIL n,2),(DMA_SIZE_LOG2 n,4)]++l) fb

/-- A frame for the host. -/
def d3S : State := sr [(SWC_PORT_CTL_EN 32,1),(DMA_CTL_EN 3,1),(DMA_TAIL_TAIL 3,2),(DMA_SIZE_LOG2 3,4)] (fun b => {b with sw := {b.sw with frames := [sfr 44 32], copies := [{ fid := 44, port := 32, cls := 3, seq := 40, cut := false, opened := false, multi := false, since := 2, fetched := false, passed := false, behind := 0 }]}})

/-- The block as the HOST egress finds it when it takes its next frame. -/
def d3b : Block := (d3S.blk.reachPhys (d3S.blk.leaveAt 32)).fetchAhead 32 [] 0 (d3S.blk.sw.copies.filter (fun y => y.port == 32))

/-- A frame with one cell at a place. -/
def sfr2 (p : Nat × Nat) : SFrame := { sfr 44 3 with cells := [p] }

/-- A two's complement number of 20 bits is in range. -/
theorem toSigned20_range (v : Nat) : -2 ^ 19 ≤ toSigned 20 v ∧ toSigned 20 v < 2 ^ 19 := by
  unfold toSigned; split <;> omega

/-- A delay line at its factory offset passes the checks of Table 15-2. -/
theorem dline_met (b : Block) (h : b.cal.elem = 26) :
    b.calCheck (.dline (5 * 4096) (toSigned 20 (fieldOf (regReset (CAL_DL 10)) 16 20)) 6) = 0 := by
  simp [Block.calCheck, h]

/-- Some bucket holds four entries of a key and not another key that falls into it: of 16,385 keys two share a bucket. -/
theorem fdb_full_met : ∃ s : State, s.blk.flag SWC_FDBDAT_VALID = true ∧
    s.blk.fdbFull (s.blk.get SWC_FDBKEY_MAC) (s.blk.get SWC_FDBKEY_VID) = true ∧
    s.blk.fdbFind (s.blk.get SWC_FDBKEY_MAC) (s.blk.get SWC_FDBKEY_VID) = none := by
  obtain ⟨x, -, y, hy, hn, he⟩ := Finset.exists_ne_map_eq_of_card_lt_of_maps_to (s := Finset.range 16385) (t := Finset.range 16384)
    (f := fun m => bucketOf m 0) (by simp) (by intro m _; simp [bucketOf, Nat.mod_lt])
  let b := ((State.reset.blk.put SWC_FDBKEY_VID 0).put SWC_FDBKEY_MAC y).put SWC_FDBDAT_VALID 1
  have hm : (b.mapSw fun w => { w with fdb := List.replicate 4 ⟨x, 0, 1, false, 0⟩ }).get SWC_FDBKEY_MAC = y := by
    show b.get SWC_FDBKEY_MAC = y
    simp only [b]
    rw [Block.get_put_apart _ _ _ _ (by decide), Block.get_put_same _ _ _ (by decide)]
    have := Finset.mem_range.mp hy
    exact Nat.mod_eq_of_lt (lt_of_lt_of_le this (by decide))
  have hv : (b.mapSw fun w => { w with fdb := List.replicate 4 ⟨x, 0, 1, false, 0⟩ }).get SWC_FDBKEY_VID = 0 := by
    show b.get SWC_FDBKEY_VID = 0
    simp only [b]
    rw [Block.get_put_apart _ _ _ _ (by decide), Block.get_put_apart _ _ _ _ (by decide), Block.get_put_same _ _ _ (by decide)]
    rfl
  have hf : (b.mapSw fun w => { w with fdb := List.replicate 4 ⟨x, 0, 1, false, 0⟩ }).flag SWC_FDBDAT_VALID = true := by
    show b.flag SWC_FDBDAT_VALID = true
    simp only [b, Block.flag]
    rw [Block.get_put_same _ _ _ (by decide)]
    rfl
  refine ⟨⟨b.mapSw fun w => { w with fdb := List.replicate 4 ⟨x, 0, 1, false, 0⟩ }, []⟩, hf, ?_, ?_⟩
  · simp only [hm, hv, Block.fdbFull]
    simp [Block.mapSw, List.replicate, he]
  · simp only [hm, hv, Block.fdbFind]
    simp [Block.mapSw, List.replicate, hn]

/-- Every figure of merit of `foms1` is below a threshold of 700. -/
theorem foms1_low (n : Nat) (h : n = 700) : ∀ v ∈ foms1, v.toNat < n := by
  have e : foms1.all (fun v => decide (v.toNat < 700)) = true := by decide +kernel
  intro v hv
  rw [h]
  exact of_decide_eq_true (List.all_eq_true.mp e v hv)

/-! ### Ill-formed commands are refused -/

theorem test_wf_register_write :
    Instr.wf (.registerWrite { off := BitVec.ofNat 24 EVT_PIN, eight := true, wr := true, data := 0 }) = true ∧
    Instr.wf (.registerWrite { off := BitVec.ofNat 24 (EVT_PIN + 4), eight := true, wr := true, data := 0 }) = false ∧
    Instr.wf (.registerWrite { off := BitVec.ofNat 24 EVT_PIN, eight := false, wr := true, data := 2 ^ 32 }) = false ∧
    Instr.wf (.registerWrite { off := 0xFFFFF8, eight := true, wr := true, data := 0 }) = false ∧
    Instr.wf (.registerWrite { off := 0xFFFFF8, eight := true, wr := true, data := 0, bar := .none }) = false ∧
    Instr.wf (.registerWrite { off := 0x10, eight := true, wr := true, data := 0, bar := .bar4 }) = true ∧
    Instr.wf (.registerWrite { off := 0x12, eight := true, wr := true, data := 0, bar := .config }) = false := by decide +kernel

theorem test_wf_mapped :
    Instr.wf (.unmappedAccess { off := 0xFFFFF8, eight := true, wr := false, data := 0 }) = true ∧
    Instr.wf (.unmappedAccess { off := BitVec.ofNat 24 (EVT_PIN + 2), eight := false, wr := false, data := 0 }) = true ∧
    Instr.wf (.unmappedAccess { off := 0, eight := true, wr := false, data := 0, bar := .none }) = true ∧
    Instr.wf (.unmappedAccess { off := BitVec.ofNat 24 EVT_PIN, eight := true, wr := false, data := 0 }) = false ∧
    Instr.wf (.domainWakeAccess { off := 0xFFFFF8, eight := true, wr := false, data := 0 }) = false ∧
    Instr.wf (.profileOffAccess { off := 0xFFFFF8, eight := true, wr := false, data := 0 }) = false ∧
    Instr.wf (.lostBankAccess { off := 0xFFFFF8, eight := true, wr := false, data := 0 }) = false := by decide +kernel

theorem test_wf_counters :
    Instr.wf (.counterAck (BitVec.ofNat 24 EVT_PIN)) = false ∧ Instr.wf (.perfCounterRead (BitVec.ofNat 24 EVT_PIN)) = false ∧
    Instr.wf (.perfCounterRead (BitVec.ofNat 24 (PRF_ENG_CNT 3 3))) = true := by decide +kernel

theorem test_wf_window :
    Instr.wf (.bar2Read 0 0 []) = false ∧ Instr.wf (.bar2Read 0xFFFFFF8 9 []) = false ∧
    Instr.wf (.bar2Read 0xFFFFFF0 9 []) = true ∧ Instr.wf (.bar2Read 0 9 [(0x20000000, true)]) = false ∧
    Instr.wf (.bar2Write 0 [] []) = false ∧ Instr.wf (.bar2Write 0 [none] [(0x20000000, true)]) = false := by decide +kernel

theorem test_wf_dma :
    Instr.wf (.dmaDescriptor 0 ⟨0, 2, true, true, 0, 0, false, 100⟩ [1, 2, 3] []) = false ∧
    Instr.wf (.dmaDescriptor 0 ⟨0, 2, true, true, 0, 0, false, 100⟩ [1, 2] [(0x20000000, true)]) = false ∧
    Instr.wf (.dmaDisable 0 (some (⟨0, 2, true, true, 0, 0, false, 100⟩, [1, 2, 3])) 0) = false ∧
    Instr.wf (.dmaDescriptor 0 ⟨0, 2, true, true, 0, 0, false, 100⟩ [1, 2] []) = true := by decide +kernel

theorem test_wf_upsets :
    Instr.wf (.loadComplete 3 [(0x20000000, false)] 5) = false ∧ Instr.wf (.batchDispatch [4096] []) = false ∧
    Instr.wf (.batchDispatch [] [(0x20000000, false)]) = false ∧ Instr.wf (.segmentFetchDone [(0x20000000, false)]) = false ∧
    Instr.wf (.seekDone [(0x20000000, false)]) = false := by decide +kernel

theorem test_wf_frames :
    Instr.wf (.rxFrame 3 ⟨List.replicate 13 0, true, false, 0, 0⟩ 5) = false ∧
    Instr.wf (.rxFrame 3 ⟨List.replicate 14 0, true, true, 0, 0⟩ 5) = false ∧
    Instr.wf (.rxFrame 3 ⟨List.replicate 14 0, true, false, 0, 0⟩ 5) = true := by decide +kernel

/-! ### Worked examples of the spec -/

/-- 00, Worked conversion: the LT words and the STW of an instant. -/
theorem test_conversion :
    ltHigh ((1800000000 * 10 ^ 9 + 250000000) * nsUnit + 0x8000 * 2 ^ 24) 0 1 = 0x6B49D20001 ∧
    ltLow ((1800000000 * 10 ^ 9 + 250000000) * nsUnit + 0x8000 * 2 ^ 24) = BitVec.ofNat 72 (0xEE6B280 * 2 ^ 42 + 0x8000 * 2 ^ 26) ∧
    stwOf ((1800000000 * 10 ^ 9 + 250000000) * nsUnit + 0x8000 * 2 ^ 24) =
      BitVec.ofNat 72 (70617743339729536 * 2 ^ 16 + 0x8000) := by decide +kernel

/-- 04, Encoding examples. -/
theorem test_encoding :
    encodeB Op.addi.code ⟨8, 2, 0, 0, 0, 0x3D0900000⟩ = 0x2020200003D0900000 ∧
    encodeD Op.patch.code ⟨0, 0, 0, 6, 0, 0, 0x124028⟩ = 0x810018000000124028 ∧
    (decodeInsn 0x2020200003D0900000).map Insn.op = some .addi ∧
    (decodeInsn 0x810018000000124028).map Insn.op = some .patch := by decide +kernel

/-- R130, the example after R131: time and UNC restored after 943,718,400 ticks. -/
theorem test_restore :
    (recordLt ⟨0, 0, -13194140⟩ 943718400 + 50000 * nsUnit) / (10 ^ 5 * nsUnit) = 287996544 ∧
    (st fun b => { b with tm := { b.tm with record := some ⟨0, 0, -13194140⟩, phys := 28800 * 10 ^ 9 * nsUnit } }.timeRestore).blk.get
      LAN_EST_UNC_UNC = 1440013720 := by decide +kernel

/-- Table 14-2: the conversion of one record. -/
theorem test_interval :
    (let b := (sr [(CAL_TAC_OFS 0, 217498), (CAL_TAC_LSB 0, 1259654), (CAL_TAC_OFS 1, 213914), (CAL_TAC_LSB 1, 1256928)]).blk
     let b1 := { b with tic := { b.tic with turn := true } }
     intervalOut (ocxoDiff (b1.edgeTime 401017 2300) (b.edgeTime 1000 1500))) = 65538722918 := by decide +kernel

/-- 15, Rotating an interpolator: OFS and LSB from the extreme codes. -/
theorem test_tac_values : (tacValues 858 2951).1 = 1251881 ∧ (tacValues 858 2951).2 = 231060 := by decide +kernel

/-- AES-256-GCM (R499): the 13th and 14th test cases of the specification of the mode, for the key of zeros. -/
theorem test_tag :
    gcmTag (List.replicate 32 0) 0 [] [] = 0x530F8AFBC74536B9A963B4F1C4CB738B ∧
    gcmTag (List.replicate 32 0) 0 [] (gcmCrypt (List.replicate 32 0) 0 (List.replicate 16 0)) =
      0xD0D1C8A799996BF0265B98B5D48AB919 := by decide +kernel

/-! ### The hypotheses of the statements can be met -/

/-- The hypotheses of `HostErrors` can be met. -/
theorem witness_HostErrors :
  (∃ (s : State), s.blk.hostFree = true) ∧
  (∃ (s : State), s.blk.hostFree = true) ∧
  (∃ (s : State), s.blk.hostFree = true) ∧
  (∃ (s : State) (r : BarReq), s.blk.hostFree = true ∧ r.bar = .none) ∧
  (∃ (s : State) (r : BarReq), s.blk.hostFree = true ∧ r.bar = .bar0 ∧ sizeOk r = false) ∧
  (∃ (s : State) (r : BarReq), s.blk.hostFree = true ∧ r.bar = .bar0 ∧ sizeOk r = true ∧ regAt (slotOf r.off.toNat) = none) :=
  ⟨⟨(sr [(HOST_ERRCAUSE_CODE,3),(HOST_ERRCAUSE_CNT,3)]), by decide +kernel⟩,
   ⟨(sr [(HOST_STALL_MAX,9)]), by decide +kernel⟩,
   ⟨(sr []), by decide +kernel⟩,
   ⟨(sr []), ⟨BitVec.ofNat 24 (0x123456),true,false,5,.none⟩, by decide +kernel⟩,
   ⟨(sr []), ⟨BitVec.ofNat 24 (EVT_PIN+4),true,true,5,.bar0⟩, by decide +kernel⟩,
   ⟨(sr []), ⟨0xFFFFF8,false,false,5,.bar0⟩, by decide +kernel⟩⟩

/-- The hypotheses of `Events` can be met. -/
theorem witness_Events :
  (∃ (s : State) (n : Fin 64), s.blk.domOn 3 = true ∧ bitAt (s.blk.get EVT_PEND_PEND) n = false) ∧
  (∃ (s : State) (n : Fin 64), s.blk.domOn 3 = true ∧ bitAt (s.blk.get EVT_PEND_PEND) n = true) ∧
  (∃ (s : State), s.blk.domOn 3 = false) ∧
  (∃ (s : State), s.blk.hostFree = true) ∧
  (∃ (s : State), s.blk.hostFree = true) ∧
  (∃ (s : State), s.blk.hostFree = true) :=
  ⟨⟨(sr [(EVT_EN_EN,2^63)] (fun b => {b with host := {b.host with mask := BitVec.allOnes 64}})), 0, by decide +kernel⟩,
   ⟨(sr [(EVT_PEND_PEND,2^63)]), 63, by decide +kernel⟩,
   ⟨(sr [(PWR_STAT_DOMON,1)]), by decide +kernel⟩,
   ⟨(sr [(EVT_PEND_PEND,2^63+5)]), by decide +kernel⟩,
   ⟨(sr [(EVT_PEND_PEND,2^63+5)] (fun b => {b with host := {b.host with mask := 1}})), by decide +kernel⟩,
   ⟨(sr [(EVT_PEND_PEND,2^63+5)]), by decide +kernel⟩⟩

/-- The hypotheses of `HostResets` can be met. -/
theorem witness_HostResets :
  (∃ (s : State), s.blk.domOn 3 = true) ∧
  (∃ (s : State), s.blk.host.pcie = .retry) :=
  ⟨⟨(sr []), by decide +kernel⟩,
   ⟨(sr [] (fun b => {b with host := {b.host with pcie := .retry}})), by decide +kernel⟩⟩

/-- The hypotheses of `RegisterAccess` can be met. -/
theorem witness_RegisterAccess :
  (∃ (s : State), s.blk.domOn 3 = true ∧ s.blk.hostFree = true ∧ s.blk.synced = false) ∧
  (∃ (s : State), s.blk.domOn 3 = true ∧ s.blk.hostFree = true ∧ s.blk.synced = false) ∧
  (∃ (s : State), s.blk.domOn 3 = true ∧ s.blk.hostFree = true ∧ s.blk.synced = false) ∧
  (∃ (s : State), s.blk.domOn 3 = true ∧ s.blk.hostFree = true ∧ s.blk.host.journal = []) ∧
  (∃ (s : State) (d : Half), s.blk.hostFree = true ∧ d.getLsbD 0 = true) ∧
  (∃ (s : State), s.blk.hostFree = true ∧ s.blk.host.pcie = .ready) ∧
  (∃ (s : State) (r : BarReq), s.blk.hostFree = true ∧ r.bar = .config ∧ s.blk.host.pcie = .retry) :=
  ⟨⟨(sr [(EVT_PIN_PIN,0x123456789ABCDEF0),(HOST_CTO_MS,7)]), by decide +kernel⟩,
   ⟨(sr [(EVT_PIN_PIN,0x123456789ABCDEF0),(HOST_CTO_MS,7)]), by decide +kernel⟩,
   ⟨(sr [(EVT_PIN_PIN,0x123456789ABCDEF0),(HOST_CTO_MS,7)]), by decide +kernel⟩,
   ⟨(sr [(EVT_PIN_PIN,0x123456789ABCDEF0),(HOST_CTO_MS,7)]), by decide +kernel⟩,
   ⟨(sr [] (fun b => {b with host := {b.host with pba := 2^63}})), 1, by decide +kernel⟩,
   ⟨(sr [] (fun b => {b with host := {b.host with pcie := .ready}})), by decide +kernel⟩,
   ⟨(sr [] (fun b => {b with host := {b.host with pcie := .retry}})), ⟨BitVec.ofNat 24 (0),false,false,5,.config⟩, by decide +kernel⟩⟩

/-- The hypotheses of `HeldOffAccesses` can be met. -/
theorem witness_HeldOffAccesses :
  (∃ (s : State) (r : BarReq), s.blk.hostFree = true ∧ s.blk.meets r = .off) ∧
  (∃ (s : State) (r : BarReq), s.blk.hostFree = true ∧ s.blk.meets r = .lost) ∧
  (∃ (s : State) (r : BarReq), s.blk.meets r = .wakes ∧ s.blk.host.backlog = [] ∧ (r.wr = true → s.blk.queueFull = false)) ∧
  (∃ (s : State) (d : Fin 12) (r : BarReq) (since : Nat), s.blk.host.stalls = [⟨.registerWrite r, d.val, since⟩] ∧ s.blk.host.backlog = [] ∧ s.blk.journalWrites < 256 ∧ s.blk.meets r = .ready) ∧
  (∃ (s : State) (r : BarReq) (d : Nat) (since : Nat), s.blk.host.stalls = [⟨.registerWrite r, d, since⟩] ∧ s.blk.host.backlog = [] ∧ s.blk.relockStops (slotOf r.off.toNat) = true) ∧
  (∃ (s : State) (off : BitVec 28) (len : BitVec 13) (ups : List (Nat × Bool)) (d : Nat) (since : Nat), s.blk.host.stalls = [⟨.bar2Read off len ups, d, since⟩] ∧ s.blk.host.backlog = [] ∧ s.blk.relockStops 0x200000 = true) ∧
  (∃ (s : State) (c : Instr), hostNamed c = true ∧ s.blk.hostMay c = false ∧ s.blk.host.backlog = [] ∧ (posted c = true → s.blk.queueFull = false)) ∧
  (∃ (s : State) (c : Instr), hostNamed c = true ∧ (s.blk.host.backlog ≠ [] ∨ (posted c = true ∧ s.blk.queueFull = true))) :=
  ⟨⟨(sr [(PWR_STAT_DOMON,0xEFF)]), ⟨BitVec.ofNat 24 (FLW_CTL),true,false,0,.bar0⟩, by decide +kernel⟩,
   ⟨(sr [] (fun b => b.mapPw fun p => {p with lost := 2^64})), ⟨BitVec.ofNat 24 (GAL_DADDR 0),true,true,0,.bar0⟩, by decide +kernel⟩,
   ⟨(sr [] (fun b => b.mapPw fun p => {p with unchecked := 2^64})), ⟨BitVec.ofNat 24 (GAL_DADDR 0),true,true,0,.bar0⟩, by decide +kernel⟩,
   ⟨(sr [] (fun b => {b with host := {b.host with stalls := [⟨.registerWrite ⟨BitVec.ofNat 24 (EVT_PIN),true,true,0,.bar0⟩,4,0⟩], waking := 16}})), 4, ⟨BitVec.ofNat 24 (EVT_PIN),true,true,0,.bar0⟩, 0, by decide +kernel⟩,
   ⟨(sr [(pllField 0 0 3,1)] (fun b => {b with host := {b.host with stalls := [⟨.registerWrite ⟨BitVec.ofNat 24 (FLW_CTL),true,false,0,.bar0⟩,8,0⟩]}})), ⟨BitVec.ofNat 24 (FLW_CTL),true,false,0,.bar0⟩, 8, 0, by decide +kernel⟩,
   ⟨(sr [(pllField 0 0 3,1)] (fun b => {b with host := {b.host with stalls := [⟨.bar2Read 64 16 [],7,5⟩]}})), 64, 16, [], 7, 5, by decide +kernel⟩,
   ⟨(sr [] (fun b => {b with host := {b.host with stalls := [⟨.registerWrite ⟨BitVec.ofNat 24 (FLW_CTL),true,true,5,.bar0⟩,8,0⟩]}})), (.engineLoad 3 true), by decide +kernel⟩,
   ⟨(sr [] (fun b => {b with host := {b.host with backlog := [.hostErrClr]}})), (.snapArm), by decide +kernel⟩⟩

/-- The hypotheses of `CavernWindow` can be met. -/
theorem witness_CavernWindow :
  (∃ (s : State) (i : Nat) (v : List Byte), s.blk.hostFree = true ∧ s.blk.cavernOn = true ∧ s.blk.relockStops 0x200000 = false ∧ v.length = 9 ∧ 16 * i + 9 ≤ 2 ^ 28 ∧ s.blk.winBase + i ≤ lastWord) ∧
  (∃ (s : State) (i : Nat), s.blk.hostFree = true ∧ s.blk.cavernOn = true ∧ s.blk.relockStops 0x200000 = false ∧ 16 * i + 9 ≤ 2 ^ 28 ∧ s.blk.winBase + i ≤ lastWord ∧ s.blk.cavBad (s.blk.winBase + i) = true ∧ s.blk.cav.corr.contains (s.blk.physWord (s.blk.winBase + i)) = false) ∧
  (∃ (s : State) (i : Nat), s.blk.hostFree = true ∧ s.blk.cavernOn = true ∧ s.blk.relockStops 0x200000 = false ∧ 16 * i + 9 ≤ 2 ^ 28 ∧ s.blk.winBase + i ≤ lastWord ∧ s.blk.cav.corr = [] ∧ s.blk.cav.uncorr = []) ∧
  (∃ (s : State) (i : Nat), s.blk.hostFree = true ∧ s.blk.cavernOn = true ∧ s.blk.relockStops 0x200000 = false ∧ 16 * i + 9 ≤ 2 ^ 28 ∧ s.blk.winBase + i ≤ lastWord ∧ s.blk.cavBad (s.blk.winBase + i) = true) ∧
  (∃ (s : State), s.blk.hostFree = true ∧ s.blk.cavernOn = false) ∧
  (∃ (s : State), s.blk.hostFree = true ∧ s.blk.cavernOn = false) :=
  ⟨⟨(sr []), 16777215, [1,2,3,4,5,6,7,8,9], by decide +kernel⟩,
   ⟨(sr [] fun b => {b with cav := {b.cav with uncorr := [5]}}), 5, by decide +kernel⟩,
   ⟨(sr [] fun b => {b with cav := {b.cav with mem := [(80,77)]}}), 5, by decide +kernel⟩,
   ⟨(sr [] fun b => {b with cav := {b.cav with uncorr := [5]}}), 5, by decide +kernel⟩,
   ⟨(sr [(PWR_STAT_DOMON,0x7FF)]), by decide +kernel⟩,
   ⟨(sr [(PWR_STAT_DOMON,0x77F)]), by decide +kernel⟩⟩

/-- The hypotheses of `DmaEngines` can be met. -/
theorem witness_DmaEngines :
  (∃ (s : State) (d : Desc), s.blk.dmaReady 0 = true ∧ descCode 0 d = 0 ∧ s.blk.cav.remap = []) ∧
  (∃ (s : State) (d : Desc), s.blk.dmaReady 1 = true ∧ descCode 1 d = 0 ∧ s.blk.cav.corr = [] ∧ s.blk.cav.uncorr = []) ∧
  (∃ (s : State) (d : Desc), s.blk.dmaReady 2 = true ∧ descCode 2 d = 0 ∧ s.blk.flag (SWC_IG_STAT_XOFF 32) = false) ∧
  (∃ (s : State) (n : Fin 4) (d : Desc), s.blk.dmaReady n = true ∧ descCode n d ≠ 0) ∧
  (∃ (s : State) (d : Desc) (ups : List CellUpset) (b : Block) (b1 : Block) (x : Copy) (sf : SFrame), s.blk.dmaReady 3 = true ∧ descCode 3 d = 0 ∧ s.blk.flag (SWC_PORT_CTL_EN 32) = true ∧ b = (s.blk.reachPhys (s.blk.leaveAt 32)).fetchAhead 32 ups 0 (s.blk.sw.copies.filter (fun y => y.port == 32)) ∧ b.nextCopy 32 40 = (b1, some x) ∧ b1.frameOf x.fid = some sf ∧ sf.errs.any (·.ue) = false) ∧
  (∃ (s : State) (n : Fin 4), s.blk.dmaReady n = true) ∧
  (∃ (s : State) (n : Fin 4), s.blk.dmaReady n = true) ∧
  (∃ (s : State), s.blk.hostFree = true) ∧
  (∃ (s : State) (n : Fin 4), s.blk.hostFree = true ∧ s.blk.dmaReady n = true) ∧
  (∃ (s : State) (n : Fin 4) (data : Half), s.blk.hostFree = true ∧ (s.blk.dmaReady n = true → data.getLsbD 0 = true)) ∧
  (∃ (s : State) (n : Fin 4) (data : Half), s.blk.hostFree = true ∧ s.blk.dmaReady n = true ∧ data.getLsbD 0 = false) :=
  ⟨⟨(dmaS 0), ⟨64,1,true,false,0,0,false,536346623⟩, by decide +kernel⟩,
   ⟨(dmaS 1 [(DMA_HEAD_HEAD 1,1)]), ({ddB with caddr := 536346622}), by decide +kernel⟩,
   ⟨(dmaS 2), ({ddB with caddr := 0, len := 64}), by decide +kernel⟩,
   ⟨(dmaS 3), 3, ({ddB with rsv := true}), by decide +kernel⟩,
   ⟨(d3S), ({ddB with caddr := 0, len := 9216}), [], d3b, ((d3b.nextCopy 32 40).1), (((d3b.nextCopy 32 40).2).getD (cpy 44 32 3)), ((((d3b.nextCopy 32 40).1).frameOf 44).getD (sfr 44 32)), by decide +kernel⟩,
   ⟨(dmaS 3), 3, by decide +kernel⟩,
   ⟨(dmaS 3), 3, by decide +kernel⟩,
   ⟨(dmaS 3), by decide +kernel⟩,
   ⟨(dmaS 3), 3, by decide +kernel⟩,
   ⟨(dmaS 3 [(DMA_CTL_HALT 3,1)]), 3, 1, by decide +kernel⟩,
   ⟨(dmaS 3), 3, 0xE, by decide +kernel⟩⟩

/-- The hypotheses of `Cycles` can be met. -/
theorem witness_Cycles :
  (∃ (s : State) (i : Instr) (data : Half) (arm : Bool), (i = .cycleArm data ∧ arm = true ∨ i = .cycleRunWrite data ∧ arm = data.getLsbD 24) ∧ s.blk.hostFree = true ∧ s.blk.synced = false ∧ s.blk.cycling = true ∧ data.getLsbD 25 = true) ∧
  (∃ (s : State) (i : Instr) (data : Half) (arm : Bool), (i = .cycleArm data ∧ arm = true ∨ i = .cycleRunWrite data ∧ arm = data.getLsbD 24) ∧ s.blk.hostFree = true ∧ s.blk.synced = false ∧ s.blk.cyc.inProg = true ∧ data.getLsbD 25 = false) ∧
  (∃ (s : State) (data : Half), s.blk.hostFree = true ∧ s.blk.synced = false ∧ s.blk.cycling = false ∧ data.getLsbD 25 = false ∧ data.getLsbD 24 = false) ∧
  (∃ (s : State) (i : Instr) (data : Half), (i = .cycleArm data ∨ i = .cycleRunWrite data ∧ data.getLsbD 24 = true) ∧ s.blk.hostFree = true ∧ s.blk.synced = false ∧ s.blk.cycling = false ∧ data.getLsbD 25 = false) ∧
  (∃ (s : State) (i : Instr) (data : Half) (arm : Bool), (i = .cycleArm data ∧ arm = true ∨ i = .cycleRunWrite data ∧ arm = data.getLsbD 24) ∧ s.blk.hostFree = true ∧ s.blk.synced = false ∧ s.blk.cycling = false ∧ data.getLsbD 25 = true) ∧
  (∃ (s : State) (i : Instr) (data : Half) (arm : Bool), (i = .cycleArm data ∧ arm = true ∨ i = .cycleRunWrite data ∧ arm = data.getLsbD 24) ∧ s.blk.hostFree = true ∧ s.blk.synced = false ∧ s.blk.flag SYS_CYCLE_RUN = true ∧ s.blk.cyc.inProg = false ∧ data.getLsbD 25 = false) ∧
  (∃ (s : State) (T : Nat), (if s.blk.cyc.inProg then some s.blk.cyc.next else s.blk.cyc.firstAt) = some T) :=
  ⟨⟨(oncyc), (.cycleRunWrite (54424552)), (54424552), true, ⟨Or.inr ⟨rfl, by decide +kernel⟩, by decide +kernel, by decide +kernel, by decide +kernel, by decide +kernel⟩⟩,
   ⟨(oncyc), (.cycleRunWrite (20870120)), (20870120), true, ⟨Or.inr ⟨rfl, by decide +kernel⟩, by decide +kernel, by decide +kernel, by decide +kernel, by decide +kernel⟩⟩,
   ⟨(sr []), (3999*4096+4000), by decide +kernel⟩,
   ⟨(sr []), (.cycleRunWrite (20870120)), (20870120), ⟨Or.inr ⟨rfl, by decide +kernel⟩, by decide +kernel, by decide +kernel, by decide +kernel, by decide +kernel⟩⟩,
   ⟨(st fun b => b.advanceNs 123456), (.cycleRunWrite (54424552)), (54424552), true, ⟨Or.inr ⟨rfl, by decide +kernel⟩, by decide +kernel, by decide +kernel, by decide +kernel, by decide +kernel⟩⟩,
   ⟨(sr [(SYS_CYCLE_RUN,1)] (fun b => b.mapCyc fun c => {c with firstAt := some 125000, armPend := true})), (.cycleRunWrite (20870120)), (20870120), true, ⟨Or.inr ⟨rfl, by decide +kernel⟩, by decide +kernel, by decide +kernel, by decide +kernel, by decide +kernel, by decide +kernel⟩⟩,
   ⟨(sr [(SYS_CYCLE_RUN,1)] (fun b => b.mapCyc fun c => {c with firstAt := some 125000})), 125000, by decide +kernel⟩⟩

/-- The hypotheses of `SlotAndLowWater` can be met. -/
theorem witness_SlotAndLowWater :
  (∃ (s : State) (data : Half), s.blk.hostFree = true ∧ s.blk.synced = false ∧ s.blk.slotLenOk (data.toNat % 2 ^ 8) = true ∧ data.toNat / 2 ^ 12 % 2 ^ 12 ≤ s.blk.get SYS_CYCLE_PERIN - data.toNat % 2 ^ 8) ∧
  (∃ (s : State), s.blk.cyc.inProg = true ∧ s.blk.cyc.slotDone = false) ∧
  (∃ (s : State), s.blk.cyc.inProg = true ∧ s.blk.cyc.slotDone = false ∧ nothingServed s.blk) ∧
  (∃ (s : State), s.blk.cyc.inProg = false) ∧
  (∃ (s : State), s.blk.cyc.inProg = false ∧ nothingServed s.blk) ∧
  (∃ (s : State) (c : Nat), s.blk.cyc.slotClose = some c) ∧
  (∃ (s : State), s.blk.hostFree = true) :=
  ⟨⟨(oncyc), 513, by decide +kernel⟩,
   ⟨(oncyc [(SYS_MSLOT_LENF,7)]), by decide +kernel⟩,
   ⟨(oncyc), by unfold nothingServed; decide +kernel⟩,
   ⟨(sr [(SYS_MSLOT_LENF,70)]), by decide +kernel⟩,
   ⟨(sr []), by unfold nothingServed; decide +kernel⟩,
   ⟨(oncyc [] (fun c => {c with slotClose := some 77777})), 77777, by decide +kernel⟩,
   ⟨(sr [(SYS_LWM_SLOT_MIN,4),(SYS_LWM_GAL_MIN 3,4),(GAL_SLACK_MIN 15,4)]), by decide +kernel⟩⟩

/-- The hypotheses of `Profiles` can be met. -/
theorem witness_Profiles :
  (∃ (s : State) (data : Half), s.blk.hostFree = true ∧ s.blk.synced = false ∧ s.blk.get SYS_PROFILE_STAT ≠ 1 ∧ (s.blk.get SYS_PROFILE_STAT = 2 → data.toNat % 4 ≠ 3)) ∧
  (∃ (s : State) (data : Half), s.blk.hostFree = true ∧ s.blk.synced = false ∧ (s.blk.get SYS_PROFILE_STAT = 1 ∨ (s.blk.get SYS_PROFILE_STAT = 2 ∧ data.toNat % 4 = 3))) ∧
  (∃ (s : State) (g : Nat), s.blk.cyc.goAt = some g ∧ s.blk.cyc.inProg = true ∧ s.blk.nowNs ≤ s.blk.cyc.next - 1000 ∧ s.blk.profCode (s.blk.get SYS_PROFILE_SEL) = 0 ∧ s.blk.get SYS_PROFILE_SEL ≠ 3 ∧ s.blk.profile ≠ 3 ∧ s.blk.paired = false) ∧
  (∃ (s : State) (g : Nat), s.blk.cyc.goAt = some g ∧ s.blk.cyc.inProg = true ∧ s.blk.cyc.leanExit = none ∧ s.blk.nowNs ≤ s.blk.cyc.next - 1000 ∧ s.blk.profCode (s.blk.get SYS_PROFILE_SEL) ≠ 0 ∧ s.blk.paired = false) ∧
  (∃ (s : State) (g : Nat), s.blk.cyc.goAt = some g ∧ s.blk.cyc.inProg = true ∧ s.blk.nowNs ≤ s.blk.cyc.next - 1000 ∧ s.blk.profCode 3 = 0 ∧ s.blk.get SYS_PROFILE_SEL = 3 ∧ s.blk.profile ≠ 3) ∧
  (∃ (s : State) (g : Nat), s.blk.cyc.goAt = some g ∧ s.blk.cyc.inProg = true ∧ s.blk.nowNs ≤ s.blk.cyc.next - 1000 ∧ s.blk.profCode (s.blk.get SYS_PROFILE_SEL) = 0 ∧ s.blk.get SYS_PROFILE_SEL ≠ 3 ∧ s.blk.profile = 3) ∧
  (∃ (s : State) (g : Nat), s.blk.noCycle = true ∧ s.blk.cyc.goAt = some g ∧ s.blk.profCode (s.blk.get SYS_PROFILE_SEL) = 0 ∧ s.blk.get SYS_PROFILE_SEL ≠ 3 ∧ s.blk.profile ≠ 3 ∧ s.blk.paired = false ∧ s.blk.enginesRest) ∧
  (∃ (s : State) (d : Nat), s.blk.cyc.drainTo = some d ∧ s.blk.cyc.sampled = none ∧ s.blk.drained = true ∧ s.blk.paired = false ∧ s.blk.noCycle = false) ∧
  (∃ (s : State) (d : Nat), s.blk.cyc.drainTo = some d ∧ s.blk.cyc.sampled = none ∧ s.blk.drained = true ∧ s.blk.paired = false ∧ s.blk.noCycle = true) ∧
  (∃ (s : State) (d : Nat), s.blk.cyc.drainTo = some d ∧ s.blk.drainMakesIt d = false ∧ s.blk.cyc.leanExit = none ∧ s.blk.paired = false) ∧
  (∃ (s : State) (p : Nat), s.blk.cyc.leanExit = some p ∧ s.blk.cyc.sampled = none ∧ s.blk.paired = false ∧ s.blk.noCycle = false) ∧
  (∃ (s : State) (p : Nat), p < 4 ∧ s.blk.cyc.leanExit = some p ∧ s.blk.cyc.sampled = none ∧ s.blk.paired = false ∧ s.blk.noCycle = true) :=
  ⟨⟨(sr []), 1, by decide +kernel⟩,
   ⟨(oncyc [(SYS_PROFILE_STAT,2)]), 3, by decide +kernel⟩,
   ⟨(oncyc [(SYS_PROFILE_SEL,0)] (fun c => {c with goAt := some 0})), 0, by decide +kernel⟩,
   ⟨(oncyc [(SYS_PROFILE_SEL,1),(SYS_CYCLE_PERIN,9)] (fun c => {c with goAt := some 0})), 0, by decide +kernel⟩,
   ⟨(oncyc [(SYS_PROFILE_SEL,3),(SYS_PROFILE_ACT,1)] (fun c => {c with goAt := some 0})), 0, by decide +kernel⟩,
   ⟨(oncyc [(SYS_PROFILE_SEL,1),(SYS_PROFILE_ACT,3)] (fun c => {c with goAt := some 0})), 0, by decide +kernel⟩,
   ⟨(cyc0 [(SYS_PROFILE_SEL,2)] (fun c => {c with goAt := some 0})), 0, by unfold Block.enginesRest; decide +kernel⟩,
   ⟨(oncyc [(SYS_PROFILE_SEL,3),(SYS_PROFILE_STAT,2)] (fun c => {c with drainTo := some 777})), 777, by decide +kernel⟩,
   ⟨(cyc0 [(SYS_PROFILE_SEL,3),(SYS_PROFILE_STAT,2)] (fun c => {c with drainTo := some 777})), 777, by decide +kernel⟩,
   ⟨(oncyc [(SYS_PROFILE_SEL,3),(SYS_PROFILE_STAT,2)] (fun c => {c with drainTo := some 777})), 777, by decide +kernel⟩,
   ⟨(oncyc [(SYS_PROFILE_ACT,3)] (fun c => {c with leanExit := some 2})), 2, by decide +kernel⟩,
   ⟨(cyc0 [(SYS_PROFILE_ACT,3),(SYS_PROFILE_SEL,1)] (fun c => {c with leanExit := some 1})), 1, by decide +kernel⟩⟩

/-- The hypotheses of `TimeScale` can be met. -/
theorem witness_TimeScale :
  (∃ (s : State), s.blk.hostFree = true ∧ s.blk.synced = false) ∧
  (∃ (s : State), s.blk.hostFree = true ∧ s.blk.synced = false ∧ s.blk.flag LAN_ADJ_BUSY = false ∧ s.blk.flag SYS_CYCLE_RUN = false) ∧
  (∃ (s : State), s.blk.hostFree = true ∧ s.blk.synced = false ∧ s.blk.flag LAN_ADJ_BUSY = false ∧ s.blk.geti LAN_ADJ_OFFSET ≠ 0 ∧ s.blk.flag SYS_CYCLE_RUN = true) ∧
  (∃ (s : State), s.blk.hostFree = true ∧ s.blk.synced = false ∧ s.blk.flag LAN_ADJ_BUSY = false ∧ s.blk.geti LAN_ADJ_OFFSET ≠ 0) ∧
  (∃ (s : State), s.blk.hostFree = true ∧ s.blk.synced = false ∧ s.blk.flag LAN_ADJ_BUSY = false ∧ s.blk.flag SYS_CYCLE_RUN = false ∧ s.blk.get LAN_SETLTL_NS < 10 ^ 9) ∧
  (∃ (s : State), s.blk.hostFree = true ∧ s.blk.synced = false ∧ (s.blk.flag LAN_ADJ_BUSY = true ∨ s.blk.flag SYS_CYCLE_RUN = true ∨ 10 ^ 9 ≤ s.blk.get LAN_SETLTL_NS)) ∧
  (∃ (s : State), (s.blk.tm.slewKind = .host ∨ s.blk.tm.slewKind = .servo) ∧ 0 < s.blk.tm.slewRate) ∧
  (∃ (s : State), bitAt (s.blk.get PWR_STAT_DOMON) 2 = false) ∧
  (∃ (s : State) (n : Nat), bitAt (s.blk.get PWR_STAT_DOMON) 2 = true ∧ 0 < n) :=
  ⟨⟨(st fun b => b.advanceNs 3000000123), by decide +kernel⟩,
   ⟨(sr [(LAN_ADJ_OFFSET,2^72-65536*7)] (fun b => b.advanceNs 500)), by decide +kernel⟩,
   ⟨(sr [(LAN_ADJ_OFFSET,65536*7),(SYS_CYCLE_RUN,1)]), by decide +kernel⟩,
   ⟨(sr [(LAN_ADJ_OFFSET,2^72-1),(LAN_SLEW_MAX,1)]), by decide +kernel⟩,
   ⟨(sr [(LAN_SETLT_SEC,7),(LAN_SETLTL_NS,999999999),(LAN_SETLTL_FRAC,3)]), by decide +kernel⟩,
   ⟨(sr [(LAN_SETLTL_NS,10^9)]), by decide +kernel⟩,
   ⟨(sr [(LAN_ADJ_BUSY,1)] fun b => {b with tm := {b.tm with slewKind := .host, slewRate := 1000, slewRem := 77*2^40}}), by decide +kernel⟩,
   ⟨(sr [(PWR_STAT_DOMON,3)]), by decide +kernel⟩,
   ⟨(sr [(LAN_STAT_QUAL,2)]), 524288, by decide +kernel⟩⟩

/-- The hypotheses of `AxisSamples` can be met. -/
theorem witness_AxisSamples :
  (∃ (s : State) (n : Fin 16) (data : Half), s.blk.hostFree = true ∧ s.blk.synced = false ∧ data.toNat % 8 ≤ 4 ∧ data.toNat % 8 ≠ s.blk.get (LAN_AXCFG_SRC n)) ∧
  (∃ (s : State) (n : Fin 16) (data : Half), s.blk.hostFree = true ∧ s.blk.synced = false ∧ data.toNat % 8 = s.blk.get (LAN_AXCFG_SRC n) ∧ s.blk.axState n ≠ 4) ∧
  (∃ (s : State) (n : Fin 16), s.blk.synced = false ∧ s.blk.get (LAN_AXCFG_SRC n) = 1 ∧ s.blk.axState n = 2 ∧ s.blk.get (ENC_CFG_MODE (s.blk.get (LAN_AXCFG_ENC n))) ≠ 3 ∧ s.blk.lineFault n = false ∧ (s.blk.encOf n).faults = (s.blk.axes[n]).faultsSeen ∧ (s.blk.encOf n).idxNew = (s.blk.axes[n]).idxSeen ∧ (s.blk.encOf n).edgeNew ≠ (s.blk.axes[n]).edgeSeen ∧ sampleCounts (s.blk.axes[n]) (s.blk.encOf n).edge = true) ∧
  (∃ (s : State) (n : Fin 16) (e : Nat) (bits : BitVec 40) (par : Bool) (err : Bool) (high : Bool), s.blk.synced = false ∧ (s.blk.axes[n]).ssiBusy = true ∧ s.blk.get (LAN_AXCFG_ENC n) = e ∧ (high = false ∨ (s.blk.flag (ENC_SSI_ERRB e) = true ∧ err = true) ∨
      (s.blk.flag (ENC_SSI_PAR e) = true ∧ (popcount (bits.toNat % 2 ^ s.blk.get (ENC_SSI_BITS e)) 40 + b2n par) % 2 = 1))) ∧
  (∃ (s : State) (n : Fin 16), s.blk.synced = false ∧ (s.blk.axes[n]).ssiBusy = true ∧ s.blk.flag (ENC_SSI_PAR (s.blk.get (LAN_AXCFG_ENC n))) = false ∧ s.blk.flag (ENC_SSI_ERRB (s.blk.get (LAN_AXCFG_ENC n))) = false ∧ s.blk.flag (ENC_SSI_GRAY (s.blk.get (LAN_AXCFG_ENC n))) = false ∧ (s.blk.axes[n]).ssiPrev = none) ∧
  (∃ (s : State), s.blk.synced = false) :=
  ⟨⟨(sr [(LAN_AXCFG_SRC 3,2)]), 3, 3, by decide +kernel⟩,
   ⟨(sr [(LAN_AXCFG_SRC 3,1),(LAN_AXSTAT_STATE 3,2)] fun b => b.setAxis 3 {Axis.reset with base := 5, p := 1000}), 3, 9, by decide +kernel⟩,
   ⟨(saB (fun x => {x with applied := 1}) [(LAN_AXSTAT_NSAMP 3,7)]), 3, by decide +kernel⟩,
   ⟨(saB (fun x => {x with ssiBusy := true}) [(ENC_CFG_MODE 2,3),(ENC_SSI_BITS 2,12)]), 3, 2, 0x5123, true, true, false, by decide +kernel⟩,
   ⟨(saB (fun x => {x with ssiBusy := true}) [(ENC_CFG_MODE 2,3),(ENC_SSI_BITS 2,12)]), 3, by decide +kernel⟩,
   ⟨(sr [(LAN_AXCFG_SRC 3,2),(LAN_AXCFG_SRC 5,2),(LAN_AXSTAT_STATE 3,1)]), by decide +kernel⟩⟩

/-- The hypotheses of `Encoders` can be met. -/
theorem witness_Encoders :
  (∃ (s : State) (e : Fin 4) (a : Bool) (b : Bool), s.blk.get (ENC_CFG_MODE e) ≠ 0 ∧ s.blk.get (ENC_CFG_MODE e) ≠ 3 ∧ ((s.blk.encs[e]).a ≠ a ↔ (s.blk.encs[e]).b = b)) ∧
  (∃ (s : State) (e : Fin 4) (a : Bool) (b : Bool), s.blk.get (ENC_CFG_MODE e) ≠ 0 ∧ s.blk.get (ENC_CFG_MODE e) ≠ 3 ∧ (s.blk.encs[e]).a ≠ a ∧ (s.blk.encs[e]).b ≠ b) ∧
  (∃ (s : State) (e : Fin 4), s.blk.get (ENC_CFG_MODE e) = 2) ∧
  (∃ (s : State), s.blk.hostFree = true ∧ s.blk.synced = false) :=
  ⟨⟨(sr [(ENC_CFG_MODE 1,2),(ENC_CFG_GLITCH 1,2),(ENC_STAT_ILLEGAL 1,0)] (fun b => {b with encs := b.encs.set 1 {Enc.reset with a := false, b := false}})), 1, false, true, by decide +kernel⟩,
   ⟨(sr [(ENC_CFG_MODE 1,1),(ENC_CFG_GLITCH 1,2),(ENC_STAT_ILLEGAL 1,65535)] (fun b => {b with encs := b.encs.set 1 {Enc.reset with a := false, b := false}})), 1, true, true, by decide +kernel⟩,
   ⟨(sr [(ENC_CFG_MODE 1,2),(ENC_CFG_GLITCH 1,2)]), 1, by decide +kernel⟩,
   ⟨(sr [(ENC_STAT_ILLEGAL 1,2),(ENC_STAT_SSIERR 1,2)]), by decide +kernel⟩⟩

/-- The hypotheses of `KnotsAndQueries` can be met. -/
theorem witness_KnotsAndQueries :
  (∃ (s : State) (n : Fin 16), s.blk.hostFree = true ∧ s.blk.synced = false ∧ 3 ≤ s.blk.get (LAN_AXCFG_SRC n) ∧ (s.blk.axes[n]).queue.length < 4 ∧ (s.blk.axes[n]).lastKT = none ∧ before (s.blk.reg (LAN_AXKT n)) s.blk.stw = false) ∧
  (∃ (s : State) (n : Fin 16), s.blk.hostFree = true ∧ s.blk.synced = false ∧ 3 ≤ s.blk.get (LAN_AXCFG_SRC n) ∧ 4 ≤ (s.blk.axes[n]).queue.length) ∧
  (∃ (s : State) (n : Fin 16), s.blk.hostFree = true ∧ s.blk.synced = false ∧ 3 ≤ s.blk.get (LAN_AXCFG_SRC n) ∧ (s.blk.axes[n]).queue.length < 4 ∧ (s.blk.axes[n]).lastKT = none ∧ before (s.blk.reg (LAN_AXKT n)) s.blk.stw = true) ∧
  (∃ (s : State) (n : Fin 16) (k : Knot) (r : List Knot), (s.blk.axes[n]).queue = k :: r) ∧
  (∃ (s : State), s.blk.hostFree = true ∧ s.blk.synced = false) ∧
  (∃ (s : State) (n : Fin 16), s.blk.hostFree = true ∧ s.blk.synced = false ∧ 1 ≤ s.blk.get (LAN_AXCFG_SRC n) ∧ s.blk.get (LAN_AXCFG_SRC n) ≤ 2 ∧ 0 < (s.blk.axes[n]).applied) ∧
  (∃ (s : State) (data : Half), s.blk.hostFree = true ∧ s.blk.synced = false ∧ data.toNat / 2 % 4 ≤ 2) ∧
  (∃ (s : State) (n : Fin 16), (s.blk.axes[n]).p2t = true) :=
  ⟨⟨(sr [(LAN_AXCFG_SRC 3,4)] fun b => (b.setReg (LAN_AXKT 3) 70000).setAxis 3 {Axis.reset with queue := List.replicate 3 ⟨1,2,3,70000⟩}), 3, by decide +kernel⟩,
   ⟨(sr [(LAN_AXCFG_SRC 3,4)] fun b => (b.setReg (LAN_AXKT 3) 70000).setAxis 3 {Axis.reset with queue := List.replicate 4 ⟨1,2,3,70000⟩}), 3, by decide +kernel⟩,
   ⟨(sr [(LAN_AXCFG_SRC 3,4)] fun b => ((b.advanceNs 5000).setReg (LAN_AXKT 3) 7).setAxis 3 {Axis.reset with queue := [⟨1,2,3,70000⟩]}), 3, by decide +kernel⟩,
   ⟨(sr [(LAN_AXCFG_SRC 3,4),(LAN_AXSTAT_STATE 3,4)] fun b => (b.setReg (LAN_AXKT 3) 70000).setAxis 3 {Axis.reset with queue := List.replicate 2 ⟨1,2,3,70000⟩}), 3, ⟨1,2,3,70000⟩, [⟨1,2,3,70000⟩], by decide +kernel⟩,
   ⟨(sr [(LAN_AXSTAT_FAULTS 3,5)]), by decide +kernel⟩,
   ⟨(saB), 3, by decide +kernel⟩,
   ⟨(saB), 0, by decide +kernel⟩,
   ⟨(saB (fun x => {x with p2t := true})), 3, by decide +kernel⟩⟩

/-- The hypotheses of `GalleryArithmetic` can be met. -/
theorem witness_GalleryArithmetic :
  (∃ (s : State) (e : Fin 16) (f : FormA), s.blk.stands e (encodeA Op.add.code f) (checkA .add f) f.psel) ∧
  (∃ (s : State) (e : Fin 16) (f : FormA), s.blk.stands e (encodeA Op.sub.code f) (checkA .sub f) f.psel) ∧
  (∃ (s : State) (e : Fin 16) (f : FormA), s.blk.stands e (encodeA Op.adds.code f) (checkA .adds f) f.psel) ∧
  (∃ (s : State) (e : Fin 16) (f : FormA), s.blk.stands e (encodeA Op.subs.code f) (checkA .subs f) f.psel) ∧
  (∃ (s : State) (e : Fin 16) (f : FormA), s.blk.stands e (encodeA Op.mul.code f) (checkA .mul f) f.psel) ∧
  (∃ (s : State) (e : Fin 16) (f : FormA), s.blk.stands e (encodeA Op.muls.code f) (checkA .muls f) f.psel) ∧
  (∃ (s : State) (e : Fin 16) (f : FormA), s.blk.stands e (encodeA Op.mulu.code f) (checkA .mulu f) f.psel) ∧
  (∃ (s : State) (e : Fin 16) (f : FormA), s.blk.stands e (encodeA Op.abs.code f) (checkA .abs f) f.psel) ∧
  (∃ (s : State) (e : Fin 16) (f : FormA), s.blk.stands e (encodeA Op.min.code f) (checkA .min f) f.psel) ∧
  (∃ (s : State) (e : Fin 16) (f : FormA), s.blk.stands e (encodeA Op.max.code f) (checkA .max f) f.psel) ∧
  (∃ (s : State) (e : Fin 16) (f : FormA), s.blk.stands e (encodeA Op.minu.code f) (checkA .minu f) f.psel) ∧
  (∃ (s : State) (e : Fin 16) (f : FormA), s.blk.stands e (encodeA Op.maxu.code f) (checkA .maxu f) f.psel) ∧
  (∃ (s : State) (e : Fin 16) (f : FormA), s.blk.stands e (encodeA Op.sat.code f) (checkA .sat f) f.psel) ∧
  (∃ (s : State) (e : Fin 16) (f : FormA), s.blk.stands e (encodeA Op.shl.code f) (checkA .shl f) f.psel) ∧
  (∃ (s : State) (e : Fin 16) (f : FormA), s.blk.stands e (encodeA Op.shr.code f) (checkA .shr f) f.psel) ∧
  (∃ (s : State) (e : Fin 16) (f : FormA), s.blk.stands e (encodeA Op.sar.code f) (checkA .sar f) f.psel) ∧
  (∃ (s : State) (e : Fin 16) (f : FormB), s.blk.stands e (encodeB Op.addi.code f) (checkB .addi f) f.psel) ∧
  (∃ (s : State) (e : Fin 16) (f : FormB), s.blk.stands e (encodeB Op.shli.code f) (checkB .shli f) f.psel) ∧
  (∃ (s : State) (e : Fin 16) (f : FormA), s.blk.ready e = true ∧ (s.blk.eng[e]).word (s.blk.eng[e]).pc = encodeA Op.mul.code f ∧ 71 < f.mod.toNat % 128) ∧
  (∃ (s : State) (e : Fin 16) (f : FormA), s.blk.ready e = true ∧ (s.blk.eng[e]).word (s.blk.eng[e]).pc = encodeA Op.muls.code f ∧ 71 < f.mod.toNat % 128) ∧
  (∃ (s : State) (e : Fin 16) (f : FormA), s.blk.ready e = true ∧ (s.blk.eng[e]).word (s.blk.eng[e]).pc = encodeA Op.mulu.code f ∧ 71 < f.mod.toNat % 128) :=
  ⟨⟨(gsA .add ⟨63,6,7,7,0x380,0⟩ ), 3, ⟨63,6,7,7,0x380,0⟩, by unfold Block.stands; decide +kernel⟩,
   ⟨(gsA .sub ⟨63,6,7,7,0,0⟩ ), 3, ⟨63,6,7,7,0,0⟩, by unfold Block.stands; decide +kernel⟩,
   ⟨(gsA .adds ⟨63,6,7,7,0,0⟩ ), 3, ⟨63,6,7,7,0,0⟩, by unfold Block.stands; decide +kernel⟩,
   ⟨(gsA .subs ⟨63,6,7,7,0,0⟩ ), 3, ⟨63,6,7,7,0,0⟩, by unfold Block.stands; decide +kernel⟩,
   ⟨(gsA .mul ⟨63,6,7,7,0x3C7,0⟩ ), 3, ⟨63,6,7,7,0x3C7,0⟩, by unfold Block.stands; decide +kernel⟩,
   ⟨(gsA .muls ⟨63,6,7,7,0x47,0⟩ ), 3, ⟨63,6,7,7,0x47,0⟩, by unfold Block.stands; decide +kernel⟩,
   ⟨(gsA .mulu ⟨63,6,7,7,0x347,0⟩ ), 3, ⟨63,6,7,7,0x347,0⟩, by unfold Block.stands; decide +kernel⟩,
   ⟨(gsA .abs ⟨63,6,0,7,0,0⟩ ), 3, ⟨63,6,0,7,0,0⟩, by unfold Block.stands; decide +kernel⟩,
   ⟨(gsA .min ⟨63,6,7,7,0,0⟩ ), 3, ⟨63,6,7,7,0,0⟩, by unfold Block.stands; decide +kernel⟩,
   ⟨(gsA .max ⟨63,6,7,7,0,0⟩ ), 3, ⟨63,6,7,7,0,0⟩, by unfold Block.stands; decide +kernel⟩,
   ⟨(gsA .minu ⟨63,6,7,7,0,0⟩ ), 3, ⟨63,6,7,7,0,0⟩, by unfold Block.stands; decide +kernel⟩,
   ⟨(gsA .maxu ⟨63,6,7,7,0,0⟩ ), 3, ⟨63,6,7,7,0,0⟩, by unfold Block.stands; decide +kernel⟩,
   ⟨(gsA .sat ⟨63,6,0,7,0x3C7,0⟩ ), 3, ⟨63,6,0,7,0x3C7,0⟩, by unfold Block.stands; decide +kernel⟩,
   ⟨(gsA .shl ⟨63,5,7,7,0,0⟩ ), 3, ⟨63,5,7,7,0,0⟩, by unfold Block.stands; decide +kernel⟩,
   ⟨(gsA .shr ⟨63,6,7,7,0,0⟩ ), 3, ⟨63,6,7,7,0,0⟩, by unfold Block.stands; decide +kernel⟩,
   ⟨(gsA .sar ⟨63,6,7,7,0,0⟩ ), 3, ⟨63,6,7,7,0,0⟩, by unfold Block.stands; decide +kernel⟩,
   ⟨(gsB .addi ⟨63,6,7,0,7,0x80000000000⟩ ), 3, ⟨63,6,7,0,7,0x80000000000⟩, by unfold Block.stands; decide +kernel⟩,
   ⟨(gsB .shli ⟨63,6,7,0,7,71⟩ ), 3, ⟨63,6,7,0,7,71⟩, by unfold Block.stands; decide +kernel⟩,
   ⟨(gsA .mul ⟨9,5,7,10,72,0⟩ ), 3, ⟨9,5,7,10,72,0⟩, by decide +kernel⟩,
   ⟨(gsA .muls ⟨9,5,7,0,0xFF,0⟩ ), 3, ⟨9,5,7,0,0xFF,0⟩, by decide +kernel⟩,
   ⟨(gsA .mulu ⟨9,5,7,0,0x4F,0⟩ ), 3, ⟨9,5,7,0,0x4F,0⟩, by decide +kernel⟩⟩

/-- The hypotheses of `GalleryLogic` can be met. -/
theorem witness_GalleryLogic :
  (∃ (s : State) (e : Fin 16) (f : FormA), s.blk.stands e (encodeA Op.and_.code f) (checkA .and_ f) f.psel) ∧
  (∃ (s : State) (e : Fin 16) (f : FormA), s.blk.stands e (encodeA Op.or_.code f) (checkA .or_ f) f.psel) ∧
  (∃ (s : State) (e : Fin 16) (f : FormA), s.blk.stands e (encodeA Op.xor_.code f) (checkA .xor_ f) f.psel) ∧
  (∃ (s : State) (e : Fin 16) (f : FormA), s.blk.stands e (encodeA Op.andn.code f) (checkA .andn f) f.psel) ∧
  (∃ (s : State) (e : Fin 16) (f : FormA), s.blk.stands e (encodeA Op.cmp.code f) (checkA .cmp f) f.psel) ∧
  (∃ (s : State) (e : Fin 16) (f : FormA), s.blk.stands e (encodeA Op.fop.code f) (checkA .fop f) f.psel) ∧
  (∃ (s : State) (e : Fin 16) (f : FormB), s.blk.stands e (encodeB Op.cmpi.code f) (checkB .cmpi f) f.psel) ∧
  (∃ d : BitVec 6, d.toNat / 8 ≤ 2 ∧ d.extractLsb' 0 3 ≠ 0) ∧
  (∃ d : BitVec 6, d.extractLsb' 0 3 = 0) ∧
  (∃ (s : State) (e : Fin 16) (f : FormA), s.blk.ready e = true ∧ (s.blk.eng[e]).word (s.blk.eng[e]).pc = encodeA Op.cmp.code f ∧ (f.d.getLsbD 5 = true ∨ f.d.toNat / 8 % 4 = 3)) ∧
  (∃ (s : State) (e : Fin 16) (f : FormA), s.blk.ready e = true ∧ (s.blk.eng[e]).word (s.blk.eng[e]).pc = encodeA Op.fop.code f ∧ (f.d.getLsbD 5 = true ∨ f.d.toNat / 8 % 4 = 3)) ∧
  (∃ (s : State) (e : Fin 16) (f : FormB), s.blk.ready e = true ∧ (s.blk.eng[e]).word (s.blk.eng[e]).pc = encodeB Op.cmpi.code f ∧ (f.d.getLsbD 5 = true ∨ f.d.toNat / 8 % 4 = 3)) :=
  ⟨⟨(gsA .and_ ⟨63,6,7,7,0,0⟩ ), 3, ⟨63,6,7,7,0,0⟩, by unfold Block.stands; decide +kernel⟩,
   ⟨(gsA .or_ ⟨63,6,7,7,0,0⟩ ), 3, ⟨63,6,7,7,0,0⟩, by unfold Block.stands; decide +kernel⟩,
   ⟨(gsA .xor_ ⟨63,6,7,7,0,0⟩ ), 3, ⟨63,6,7,7,0,0⟩, by unfold Block.stands; decide +kernel⟩,
   ⟨(gsA .andn ⟨63,6,7,7,0,0⟩ ), 3, ⟨63,6,7,7,0,0⟩, by unfold Block.stands; decide +kernel⟩,
   ⟨(gsA .cmp ⟨2,6,7,7,5,0⟩ ), 3, ⟨2,6,7,7,5,0⟩, by unfold Block.stands; decide +kernel⟩,
   ⟨(gsA .fop ⟨2,0,0,7,0x1F,0⟩ ), 3, ⟨2,0,0,7,0x1F,0⟩, by unfold Block.stands; decide +kernel⟩,
   ⟨(gsB .cmpi ⟨2,6,7,0,5,0xFFFFFFFFFFF⟩ ), 3, ⟨2,6,7,0,5,0xFFFFFFFFFFF⟩, by unfold Block.stands; decide +kernel⟩,
   ⟨18, by decide⟩,
   ⟨16, by decide⟩,
   ⟨(gsA .cmp ⟨26,6,7,7,5,0⟩ ), 3, ⟨26,6,7,7,5,0⟩, by decide +kernel⟩,
   ⟨(gsA .fop ⟨34,0,0,7,0x1F,0⟩ ), 3, ⟨34,0,0,7,0x1F,0⟩, by decide +kernel⟩,
   ⟨(gsB .cmpi ⟨0x38,6,7,0,5,0xFFFFFFFFFFF⟩ ), 3, ⟨0x38,6,7,0,5,0xFFFFFFFFFFF⟩, by decide +kernel⟩⟩

/-- The hypotheses of `GalleryImmediate` can be met. -/
theorem witness_GalleryImmediate :
  (∃ (s : State) (e : Fin 16) (f : FormB), s.blk.stands e (encodeB Op.movi.code f) (checkB .movi f) f.psel) ∧
  (∃ (s : State) (e : Fin 16) (f : FormB), s.blk.stands e (encodeB Op.ldih.code f) (checkB .ldih f) f.psel) ∧
  (∃ (s : State) (e : Fin 16) (f : FormB), s.blk.stands e (encodeB Op.shri.code f) (checkB .shri f) f.psel) ∧
  (∃ (s : State) (e : Fin 16) (f : FormB), s.blk.stands e (encodeB Op.sari.code f) (checkB .sari f) f.psel) ∧
  (∃ (s : State) (e : Fin 16) (f : FormB), s.blk.stands e (encodeB Op.ext.code f) (checkB .ext f) f.psel) ∧
  (∃ (s : State) (e : Fin 16) (f : FormB), s.blk.stands e (encodeB Op.ins.code f) (checkB .ins f) f.psel) ∧
  (∃ (s : State) (e : Fin 16) (f : FormB), s.blk.stands e (encodeB Op.andi.code f) (checkB .andi f) f.psel) ∧
  (∃ (s : State) (e : Fin 16) (f : FormB), s.blk.stands e (encodeB Op.ori.code f) (checkB .ori f) f.psel) ∧
  (∃ (s : State) (e : Fin 16) (f : FormB), s.blk.stands e (encodeB Op.xori.code f) (checkB .xori f) f.psel) :=
  ⟨⟨(gsB .movi ⟨63,0,7,0,0,0xFFFFFFFFFFF⟩ ), 3, ⟨63,0,7,0,0,0xFFFFFFFFFFF⟩, by unfold Block.stands; decide +kernel⟩,
   ⟨(gsB .ldih ⟨63,0,7,0,0,0xFFFFFFF⟩ ), 3, ⟨63,0,7,0,0,0xFFFFFFF⟩, by unfold Block.stands; decide +kernel⟩,
   ⟨(gsB .shri ⟨63,6,7,0,0,71⟩ ), 3, ⟨63,6,7,0,0,71⟩, by unfold Block.stands; decide +kernel⟩,
   ⟨(gsB .sari ⟨63,6,7,0,0,71⟩ ), 3, ⟨63,6,7,0,0,71⟩, by unfold Block.stands; decide +kernel⟩,
   ⟨(gsB .ext ⟨63,6,7,0,0,0x4405⟩ ), 3, ⟨63,6,7,0,0,0x4405⟩, by unfold Block.stands; decide +kernel⟩,
   ⟨(gsB .ins ⟨63,6,7,0,0,0x0505⟩ ), 3, ⟨63,6,7,0,0,0x0505⟩, by unfold Block.stands; decide +kernel⟩,
   ⟨(gsB .andi ⟨63,6,7,0,0,0xFFFFFFFFFFF⟩ ), 3, ⟨63,6,7,0,0,0xFFFFFFFFFFF⟩, by unfold Block.stands; decide +kernel⟩,
   ⟨(gsB .ori ⟨63,6,7,0,0,0xFFFFFFFFFFF⟩ ), 3, ⟨63,6,7,0,0,0xFFFFFFFFFFF⟩, by unfold Block.stands; decide +kernel⟩,
   ⟨(gsB .xori ⟨63,6,7,0,0,0xFFFFFFFFFFF⟩ ), 3, ⟨63,6,7,0,0,0xFFFFFFFFFFF⟩, by unfold Block.stands; decide +kernel⟩⟩

/-- The hypotheses of `GalleryStores` can be met. -/
theorem witness_GalleryStores :
  (∃ (s : State) (e : Fin 16) (f : FormB), s.blk.stands e (encodeB Op.ld.code f) (checkB .ld f) f.psel ∧ dataAddr s.blk e f < 16384) ∧
  (∃ (s : State) (e : Fin 16) (f : FormB), s.blk.stands e (encodeB Op.ld.code f) (checkB .ld f) f.psel ∧ 16384 ≤ dataAddr s.blk e f) ∧
  (∃ (s : State) (e : Fin 16) (f : FormB), s.blk.stands e (encodeB Op.st.code f) (checkB .st f) f.psel ∧ dataAddr s.blk e f < 16384) ∧
  (∃ (s : State) (e : Fin 16) (f : FormB), s.blk.stands e (encodeB Op.st.code f) (checkB .st f) f.psel ∧ 16384 ≤ dataAddr s.blk e f) :=
  ⟨⟨(gsB .ld ⟨7,5,0,0,0,100⟩ [] id (fun x => x.store 140 99)), 3, ⟨7,5,0,0,0,100⟩, by unfold Block.stands; decide +kernel⟩,
   ⟨(gsB .ld ⟨7,5,0,0,0,16344⟩ ), 3, ⟨7,5,0,0,0,16344⟩, by unfold Block.stands; decide +kernel⟩,
   ⟨(gsB .st ⟨7,5,0,0,0,100⟩ ), 3, ⟨7,5,0,0,0,100⟩, by unfold Block.stands; decide +kernel⟩,
   ⟨(gsB .st ⟨7,5,0,0,0,16344⟩ ), 3, ⟨7,5,0,0,0,16344⟩, by unfold Block.stands; decide +kernel⟩⟩

/-- The hypotheses of `GalleryBranches` can be met. -/
theorem witness_GalleryBranches :
  (∃ (s : State) (e : Fin 16) (f : FormA), s.blk.stands e (encodeA Op.nop.code f) (checkA .nop f) f.psel) ∧
  (∃ (s : State) (e : Fin 16) (f : FormC), s.blk.stands e (encodeC Op.br.code f) (checkC .br e f) f.psel ∧ branchTarget (s.blk.eng[e]).pc f ≤ 32767) ∧
  (∃ (s : State) (e : Fin 16) (f : FormC), s.blk.stands e (encodeC Op.br.code f) (checkC .br e f) f.psel ∧ 32767 < branchTarget (s.blk.eng[e]).pc f) ∧
  (∃ (s : State) (e : Fin 16) (f : FormC), s.blk.stands e (encodeC Op.call.code f) (checkC .call e f) f.psel ∧ branchTarget (s.blk.eng[e]).pc f ≤ 32767) ∧
  (∃ (s : State) (e : Fin 16) (f : FormC), s.blk.stands e (encodeC Op.call.code f) (checkC .call e f) f.psel ∧ 32767 < branchTarget (s.blk.eng[e]).pc f) ∧
  (∃ (s : State) (e : Fin 16) (f : FormC), s.blk.stands e (encodeC Op.ret.code f) (checkC .ret e f) f.psel ∧ ((s.blk.eng[e]).rd (mReg f.m 0)).toNat ≤ 32767) ∧
  (∃ (s : State) (e : Fin 16) (f : FormC), s.blk.stands e (encodeC Op.ret.code f) (checkC .ret e f) f.psel ∧ 32767 < ((s.blk.eng[e]).rd (mReg f.m 0)).toNat) ∧
  (∃ (s : State) (e : Fin 16) (f : FormC), s.blk.stands e (encodeC Op.loop.code f) (checkC .loop e f) f.psel ∧ (s.blk.eng[e]).rd (mReg f.m 0) - 1 = 0) ∧
  (∃ (s : State) (e : Fin 16) (f : FormC), s.blk.stands e (encodeC Op.loop.code f) (checkC .loop e f) f.psel ∧ (s.blk.eng[e]).rd (mReg f.m 0) - 1 ≠ 0 ∧ branchTarget (s.blk.eng[e]).pc f ≤ 32767) ∧
  (∃ (s : State) (e : Fin 16) (f : FormC), s.blk.stands e (encodeC Op.loop.code f) (checkC .loop e f) f.psel ∧ (s.blk.eng[e]).rd (mReg f.m 0) - 1 ≠ 0 ∧ 32767 < branchTarget (s.blk.eng[e]).pc f) :=
  ⟨⟨(gsA .nop ⟨0,0,0,0,0,0⟩ ), 3, ⟨0,0,0,0,0,0⟩, by unfold Block.stands; decide +kernel⟩,
   ⟨(gsC .br ⟨0,1,0,0xFFFFFFFF⟩ ), 3, ⟨0,1,0,0xFFFFFFFF⟩, by unfold Block.stands; decide +kernel⟩,
   ⟨(gsC .br ⟨0,1,0,0xFFFFFF00⟩ ), 3, ⟨0,1,0,0xFFFFFF00⟩, by unfold Block.stands; decide +kernel⟩,
   ⟨(gsC .call ⟨0,0,0,5⟩ ), 3, ⟨0,0,0,5⟩, by unfold Block.stands; decide +kernel⟩,
   ⟨(gsC .call ⟨0,1,9,0xF0000000⟩ ), 3, ⟨0,1,9,0xF0000000⟩, by unfold Block.stands; decide +kernel⟩,
   ⟨(gsC .ret ⟨0,0,5,0⟩ ), 3, ⟨0,0,5,0⟩, by unfold Block.stands; decide +kernel⟩,
   ⟨(gsC .ret ⟨0,0,6,0⟩ ), 3, ⟨0,0,6,0⟩, by unfold Block.stands; decide +kernel⟩,
   ⟨(gsC .loop ⟨0,0,9,4⟩ [] id (fun x => x.wr 9 1)), 3, ⟨0,0,9,4⟩, by unfold Block.stands; decide +kernel⟩,
   ⟨(gsC .loop ⟨0,0,0,4⟩ ), 3, ⟨0,0,0,4⟩, by unfold Block.stands; decide +kernel⟩,
   ⟨(gsC .loop ⟨0,1,7,0xF0000000⟩ ), 3, ⟨0,1,7,0xF0000000⟩, by unfold Block.stands; decide +kernel⟩⟩

/-- The hypotheses of `GallerySystem` can be met. -/
theorem witness_GallerySystem :
  (∃ (s : State) (e : Fin 16) (f : FormA), s.blk.stands e (encodeA Op.halt.code f) (checkA .halt f) f.psel) ∧
  (∃ (s : State) (e : Fin 16) (f : FormB), s.blk.stands e (encodeB Op.raise_.code f) (checkB .raise_ f) f.psel) ∧
  (∃ (s : State) (e : Fin 16) (f : FormB), s.blk.stands e (encodeB Op.sig.code f) (checkB .sig f) f.psel) ∧
  (∃ (s : State) (e : Fin 16) (f : FormA), s.blk.stands e (encodeA Op.rdprf.code f) (checkA .rdprf f) f.psel ∧ (s.blk.priv e = true ∨ s.blk.flag PRF_CTL_UREAD = true)) ∧
  (∃ (s : State) (e : Fin 16) (f : FormA), s.blk.stands e (encodeA Op.rdprf.code f) (checkA .rdprf f) f.psel ∧ s.blk.priv e = false ∧ s.blk.flag PRF_CTL_UREAD = false) ∧
  (∃ (s : State) (e : Fin 16) (f : FormA), s.blk.stands e (encodeA Op.calslot.code f) (checkA .calslot f) f.psel ∧ s.blk.get SYS_MSLOT_ENG = e.val ∧ s.blk.cyc.inProg = true ∧ s.blk.cyc.slotDone = false ∧ nothingServed s.blk) ∧
  (∃ (s : State) (e : Fin 16) (f : FormA), s.blk.stands e (encodeA Op.calslot.code f) (checkA .calslot f) f.psel ∧ s.blk.get SYS_MSLOT_ENG = e.val ∧ s.blk.cyc.inProg = true ∧ s.blk.cyc.slotDone = false) ∧
  (∃ (s : State) (e : Fin 16) (f : FormA), s.blk.stands e (encodeA Op.calslot.code f) (checkA .calslot f) f.psel ∧ (s.blk.get SYS_MSLOT_ENG ≠ e.val ∨ s.blk.cyc.inProg = false ∨ s.blk.cyc.slotDone = true)) ∧
  (∃ (s : State) (e : Fin 16) (f : FormB), s.blk.stands e (encodeB Op.cfgr.code f) (checkB .cfgr f) f.psel ∧ cfgTrap s.blk e (cfgAddr s.blk e f) = 0 ∧ s.blk.cfgReaches (cfgAddr s.blk e f) = true ∧ plainReg (cfgAddr s.blk e f) = true) ∧
  (∃ (s : State) (e : Fin 16) (f : FormB), s.blk.stands e (encodeB Op.cfgr.code f) (checkB .cfgr f) f.psel ∧ cfgTrap s.blk e (cfgAddr s.blk e f) = 0 ∧ s.blk.cfgReaches (cfgAddr s.blk e f) = true) ∧
  (∃ (s : State) (e : Fin 16) (f : FormB), s.blk.stands e (encodeB Op.cfgr.code f) (checkB .cfgr f) f.psel ∧ cfgTrap s.blk e (cfgAddr s.blk e f) = 0 ∧ s.blk.cfgReaches (cfgAddr s.blk e f) = false) ∧
  (∃ (s : State) (e : Fin 16) (f : FormB), s.blk.stands e (encodeB Op.cfgr.code f) (checkB .cfgr f) f.psel ∧ s.blk.priv e = false) ∧
  (∃ (s : State) (e : Fin 16) (f : FormB), s.blk.stands e (encodeB Op.cfgw.code f) (checkB .cfgw f) f.psel ∧ s.blk.priv e = true ∧ cfgAddr s.blk e f = EVT_PIN ∧ s.blk.domOn 3 = true) ∧
  (∃ (s : State) (e : Fin 16) (f : FormB), s.blk.stands e (encodeB Op.cfgw.code f) (checkB .cfgw f) f.psel ∧ cfgTrap s.blk e (cfgAddr s.blk e f) = 0 ∧ s.blk.cfgReaches (cfgAddr s.blk e f) = false) ∧
  (∃ (s : State) (e : Fin 16) (f : FormB), s.blk.stands e (encodeB Op.cfgw.code f) (checkB .cfgw f) f.psel ∧ cfgTrap s.blk e (cfgAddr s.blk e f) ≠ 0) :=
  ⟨⟨(gsA .halt ⟨0,0,0,0,0,0⟩ [] id (fun x => {x with emis := [{ bytes := List.replicate 100 7, port := 2, cls := 1, sch := true, hold := some 1, cycle := 0, moved := 0, rel := 0, src := 0, copyAt := 0, old := false }, { bytes := List.replicate 100 7, port := 2, cls := 1, sch := true, hold := some 3, cycle := 0, moved := 0, rel := 0, src := 0, copyAt := 0, old := false }]})), 3, ⟨0,0,0,0,0,0⟩, by unfold Block.stands; decide +kernel⟩,
   ⟨(gsB .raise_ ⟨0,0,0,0,0,0xABCD⟩ [(GAL_CAUSE_RCNT 3,200)]), 3, ⟨0,0,0,0,0,0xABCD⟩, by unfold Block.stands; decide +kernel⟩,
   ⟨(gsB .sig ⟨0,0,0,0,0,0xA50009⟩ ), 3, ⟨0,0,0,0,0,0xA50009⟩, by unfold Block.stands; decide +kernel⟩,
   ⟨(gsA .rdprf ⟨7,0,0,0,9,0⟩ [(GAL_STAT_PRIV 3,1)] (fun b => b.setReg (PRF_FAB 1) 0xFFFFFFFFFFFFFFFFFF)), 3, ⟨7,0,0,0,9,0⟩, by unfold Block.stands; decide +kernel⟩,
   ⟨(gsA .rdprf ⟨7,0,0,0,9,0⟩ ), 3, ⟨7,0,0,0,9,0⟩, by unfold Block.stands; decide +kernel⟩,
   ⟨(gsA .calslot ⟨0,0,0,0,0,0⟩ [(SYS_MSLOT_ENG,3),(SYS_MSLOT_LENF,10)] (fun b => {b with cyc := {b.cyc with inProg := true, next := 10000000}})), 3, ⟨0,0,0,0,0,0⟩, by unfold Block.stands nothingServed; decide +kernel⟩,
   ⟨(gsA .calslot ⟨0,0,0,0,0,0⟩ [(SYS_MSLOT_ENG,3),(SYS_MSLOT_LENF,10)] (fun b => {b with cyc := {b.cyc with inProg := true, next := 10000000}})), 3, ⟨0,0,0,0,0,0⟩, by unfold Block.stands; decide +kernel⟩,
   ⟨(gsA .calslot ⟨0,0,0,0,0,0⟩ [(SYS_MSLOT_ENG,4)]), 3, ⟨0,0,0,0,0,0⟩, by unfold Block.stands; decide +kernel⟩,
   ⟨(gsB .cfgr ⟨7,0,0,0,2,EVT_PIN⟩ [(GAL_STAT_PRIV 3,1),(PWR_STAT_DOMON,0xFFF)] (fun b => b.setReg (EVT_PIN) 0x123456789ABCDEF012)), 3, ⟨7,0,0,0,2,EVT_PIN⟩, by unfold Block.stands; decide +kernel⟩,
   ⟨(gsB .cfgr ⟨7,0,0,0,2,SYS_PROFILE⟩ [(GAL_STAT_PRIV 3,1),(PWR_STAT_DOMON,0xFFF)]), 3, ⟨7,0,0,0,2,SYS_PROFILE⟩, by unfold Block.stands; decide +kernel⟩,
   ⟨(gsB .cfgr ⟨7,0,0,0,2,0x410050⟩ [(GAL_STAT_PRIV 3,1),(PWR_STAT_DOMON,0xFFF)]), 3, ⟨7,0,0,0,2,0x410050⟩, by unfold Block.stands; decide +kernel⟩,
   ⟨(gsB .cfgr ⟨7,0,0,0,2,0x10000⟩ ), 3, ⟨7,0,0,0,2,0x10000⟩, by unfold Block.stands; decide +kernel⟩,
   ⟨(gsB .cfgw ⟨6,0,0,0,2,EVT_PIN⟩ [(GAL_STAT_PRIV 3,1),(PWR_STAT_DOMON,0xFFF)]), 3, ⟨6,0,0,0,2,EVT_PIN⟩, by unfold Block.stands; decide +kernel⟩,
   ⟨(gsB .cfgw ⟨6,0,0,0,2,0x900000⟩ [(GAL_STAT_PRIV 3,1),(PWR_STAT_DOMON,0xFFF)]), 3, ⟨6,0,0,0,2,0x900000⟩, by unfold Block.stands; decide +kernel⟩,
   ⟨(gsB .cfgw ⟨6,0,0,0,2,0x900001⟩ ), 3, ⟨6,0,0,0,2,0x900001⟩, by unfold Block.stands; decide +kernel⟩⟩

/-- The hypotheses of `GalleryTimes` can be met. -/
theorem witness_GalleryTimes :
  (∃ (s : State) (e : Fin 16) (f : FormA), s.blk.stands e (encodeA Op.rdlt.code f) (checkA .rdlt f) f.psel ∧ f.mod.toNat % 2 = 0) ∧
  (∃ (s : State) (e : Fin 16) (f : FormA), s.blk.stands e (encodeA Op.rdlt.code f) (checkA .rdlt f) f.psel ∧ f.mod.toNat % 2 = 1) ∧
  (∃ (s : State) (e : Fin 16) (f : FormA), s.blk.stands e (encodeA Op.rdpos.code f) (checkA .rdpos f) f.psel) ∧
  (∃ (s : State) (e : Fin 16) (f : FormA), s.blk.stands e (encodeA Op.p2t.code f) (checkA .p2t f) f.psel) :=
  ⟨⟨(gsA .rdlt ⟨8,0,0,0,0,0⟩ ), 3, ⟨8,0,0,0,0,0⟩, by unfold Block.stands; decide +kernel⟩,
   ⟨(gsA .rdlt ⟨9,0,0,0,1,0⟩ ), 3, ⟨9,0,0,0,1,0⟩, by unfold Block.stands; decide +kernel⟩,
   ⟨(gsA .rdpos ⟨8,0,0,0,0x12,0⟩ ), 3, ⟨8,0,0,0,0x12,0⟩, by unfold Block.stands; decide +kernel⟩,
   ⟨(gsA .p2t ⟨8,5,0,0,2,0⟩ ), 3, ⟨8,5,0,0,2,0⟩, by unfold Block.stands; decide +kernel⟩⟩

/-- The hypotheses of `GalleryWaits` can be met. -/
theorem witness_GalleryWaits :
  (∃ (s : State) (e : Fin 16) (f : FormC), s.blk.stands e (encodeC Op.waitt.code f) (checkC .waitt e f) f.psel ∧ f.cond = 0) ∧
  (∃ (s : State) (e : Fin 16) (f : FormC), s.blk.stands e (encodeC Op.waitt.code f) (checkC .waitt e f) f.psel ∧ f.cond ≠ 0) ∧
  (∃ (s : State) (e : Fin 16) (f : FormC), s.blk.stands e (encodeC Op.waitl.code f) (checkC .waitl e f) f.psel) ∧
  (∃ (s : State) (e : Fin 16) (f : FormC), s.blk.stands e (encodeC Op.camw.code f) (checkC .camw e f) f.psel) ∧
  (∃ (s : State) (e : Fin 16) (f : FormC), s.blk.stands e (encodeC Op.waits.code f) (checkC .waits e f) f.psel) ∧
  (∃ (s : State) (e : Fin 16) (f : FormC), s.blk.stands e (encodeC Op.bar.code f) (checkC .bar e f) f.psel) :=
  ⟨⟨(gsC .waitt ⟨0,0,0x200145,99⟩ ), 3, ⟨0,0,0x200145,99⟩, by unfold Block.stands; decide +kernel⟩,
   ⟨(gsC .waitt ⟨0,1,0x200140,0⟩ ), 3, ⟨0,1,0x200140,0⟩, by unfold Block.stands; decide +kernel⟩,
   ⟨(gsC .waitl ⟨0,1,0x200453,99⟩ ), 3, ⟨0,1,0x200453,99⟩, by unfold Block.stands; decide +kernel⟩,
   ⟨(gsC .camw ⟨0,0,0x200902,99⟩ ), 3, ⟨0,0,0x200902,99⟩, by unfold Block.stands; decide +kernel⟩,
   ⟨(gsC .waits ⟨0,1,0x200905,99⟩ ), 3, ⟨0,1,0x200905,99⟩, by unfold Block.stands; decide +kernel⟩,
   ⟨(gsC .bar ⟨0,0,0x20000A,99⟩ ), 3, ⟨0,0,0x20000A,99⟩, by unfold Block.stands; decide +kernel⟩⟩

/-- The hypotheses of `GalleryReleases` can be met. -/
theorem witness_GalleryReleases :
  (∃ (s : State) (e : Fin 16) (w : Word) (gr : Nat) (tf : Nat), (s.blk.eng[e]).wait = .time w gr tf) ∧
  (∃ (s : State) (e : Fin 16) (w : Word) (gr : Nat) (tf : Nat), (s.blk.eng[e]).wait = .boundary gr tf ∧ (s.blk.eng[e]).trig = some w) ∧
  (∃ (s : State) (e : Fin 16) (k : WaitSlot) (st : Nat) (gs : Nat) (tf : Nat) (dl : Option Nat), (s.blk.eng[e]).wait = .line k (some st) gs tf dl) ∧
  (∃ (s : State) (e : Fin 16) (k : WaitSlot) (gs : Nat) (tf : Nat) (dl : Option Nat) (c : Word), (s.blk.eng[e]).wait = .line k none gs tf dl ∧ (s.blk.reachPhys (s.blk.eng[e]).waitFrom).lineCross k = some c ∧ pastDeadline dl ((s.blk.reachPhys (s.blk.eng[e]).waitFrom).reachStw c).tm.phys = false) ∧
  (∃ (s : State) (e : Fin 16) (k : Fin 4) (gs : Nat) (tf : Nat) (dl : Option Nat), (s.blk.eng[e]).wait = .camw k gs tf dl ∧ (s.blk.eng[e]).tags[k] = .free) ∧
  (∃ (s : State) (e : Fin 16) (k : Fin 4) (gs : Nat) (tf : Nat) (dl : Option Nat) (st : Word), (s.blk.eng[e]).wait = .camw k gs tf dl ∧ (s.blk.eng[e]).tags[k] = .done st ∧ pastDeadline dl (max (s.blk.eng[e]).waitFrom ((s.blk.eng[e]).doneAt[k] + tick)) = false) ∧
  (∃ (s : State) (e : Fin 16) (all : Bool) (m : BitVec 8) (gs : Nat) (tf : Nat) (n : Nat) (dl : Option Nat), (s.blk.eng[e]).wait = .sigs all m gs tf dl ∧ (s.blk.eng[e]).sigWhen all m (s.blk.eng[e]).waitFrom = some n ∧ pastDeadline dl n = false) ∧
  (∃ (s : State) (e : Fin 16) (m : BitVec 16) (tf : Nat) (dl : Option Nat), (s.blk.eng[e]).wait = .bar m tf dl ∧ (∀ k : Fin 16, m.getLsbD k = true → s.blk.inBar m k = true) ∧ pastDeadline dl (s.blk.barTick m) = false) ∧
  (∃ (s : State) (e : Fin 16) (d : Nat) (gs : Nat) (v : Nat), waitDeadline (s.blk.eng[e]).wait = some (d, some (gs, v)) ∧ s.blk.releasesBy s.blk.eng[e] d = false) ∧
  (∃ (s : State) (e : Fin 16) (d : Nat), waitDeadline (s.blk.eng[e]).wait = some (d, none) ∧ s.blk.releasesBy s.blk.eng[e] d = false) :=
  ⟨⟨(gs 3 0 (fun x => (id) {x0 x with wait := .time 700000000 9 2, waitSince := some 5000000000000000, pc := 12}) ([] ++ [(GAL_STAT_WAIT 3,1),(GAL_STAT_HDISC 3,7)]) (id)), 3, 700000000, 9, 2, by decide +kernel⟩,
   ⟨(gs 3 0 (fun x => (fun (x : Engine) => {x with trig := some 77}) {x0 x with wait := .boundary 9 2, waitSince := some 5000000000000000, pc := 12}) ([] ++ [(GAL_STAT_WAIT 3,1),(GAL_STAT_HDISC 3,7)]) (id)), 3, 77, 9, 2, by decide +kernel⟩,
   ⟨(gs 3 0 (fun x => (id) {x0 x with wait := .line ⟨2, 5, 0, 0⟩ (some 5) 9 2 none, waitSince := some 5000000000000000, pc := 12}) ([] ++ [(GAL_STAT_WAIT 3,1),(GAL_STAT_HDISC 3,7)]) (id)), 3, ⟨2, 5, 0, 0⟩, 5, 9, 2, none, by decide +kernel⟩,
   ⟨(gs 3 0 (fun x => (id) {x0 x with wait := .line ⟨2,77*2^24,0,0⟩ none 9 2 none, waitSince := some 5000000000000000, pc := 12}) ([(LAN_AXCFG_SRC 2,3),(LAN_AXSTAT_STATE 2,2)] ++ [(GAL_STAT_WAIT 3,1),(GAL_STAT_HDISC 3,7)]) (fun b => b.setAxis 2 {Axis.reset with knot := some ⟨0,0x10000000000,0,0⟩})), 3, ⟨2,77*2^24,0,0⟩, 9, 2, none, (((gs 3 0 (fun x => (id) {x0 x with wait := .line ⟨2,77*2^24,0,0⟩ none 9 2 none, waitSince := some 5000000000000000, pc := 12}) ([(LAN_AXCFG_SRC 2,3),(LAN_AXSTAT_STATE 2,2)] ++ [(GAL_STAT_WAIT 3,1),(GAL_STAT_HDISC 3,7)]) (fun b => b.setAxis 2 {Axis.reset with knot := some ⟨0,0x10000000000,0,0⟩})).blk.lineCross ⟨2,77*2^24,0,0⟩).getD 1), by decide +kernel⟩,
   ⟨(gs 3 0 (fun x => (id) {x0 x with wait := .camw 2 9 3 none, waitSince := some 5000000000000000, pc := 12}) ([] ++ [(GAL_STAT_WAIT 3,1),(GAL_STAT_HDISC 3,7)]) (id)), 3, 2, 9, 3, none, by decide +kernel⟩,
   ⟨(gs 3 0 (fun x => (fun (x : Engine) => {x with tags := x.tags.set 2 (.done 66), doneAt := x.doneAt.set 2 6000000000000000}) {x0 x with wait := .camw 2 9 3 none, waitSince := some 5000000000000000, pc := 12}) ([] ++ [(GAL_STAT_WAIT 3,1),(GAL_STAT_HDISC 3,7)]) (id)), 3, 2, 9, 3, none, 66, by decide +kernel⟩,
   ⟨(gs 3 0 (fun x => (fun (x : Engine) => {x with sig := 6}) {x0 x with wait := .sigs false 5 9 2 none, waitSince := some 5000000000000000, pc := 12}) ([] ++ [(GAL_STAT_WAIT 3,1),(GAL_STAT_HDISC 3,7)]) (id)), 3, false, 5, 9, 2, (((gs 3 0 (fun x => (fun (x : Engine) => {x with sig := 6}) {x0 x with wait := .sigs false 5 9 2 none, waitSince := some 5000000000000000, pc := 12}) ([] ++ [(GAL_STAT_WAIT 3,1),(GAL_STAT_HDISC 3,7)]) (id)).blk.eng[3]).waitFrom), none, by decide +kernel⟩,
   ⟨(gs 3 0 (fun x => {x0 x with wait := .bar 24 2 none, waitSince := some 5000000000000000}) [(GAL_STAT_WAIT 3,1),(GAL_STAT_WAIT 4,1),(GAL_STAT_STATE 4,3)] (fun b => b.mapE 4 (fun x => {x0 x with wait := .bar 24 2 none, waitSince := some 4000000000000000}))), 3, 24, 2, none, by decide +kernel⟩,
   ⟨(gs 3 0 (fun x => (id) {x0 x with wait := .line ⟨2, 5, 0, 0⟩ none 9 2 (some 9000000000000000), waitSince := some 5000000000000000, pc := 12}) ([] ++ [(GAL_STAT_WAIT 3,1),(GAL_STAT_HDISC 3,7)]) (id)), 3, 9000000000000000, 9, 7, by decide +kernel⟩,
   ⟨(gs 3 0 (fun x => (id) {x0 x with wait := .sigs false 5 9 2 (some 9000000000000000), waitSince := some 5000000000000000, pc := 12}) ([] ++ [(GAL_STAT_WAIT 3,1),(GAL_STAT_HDISC 3,7)]) (id)), 3, 9000000000000000, by decide +kernel⟩⟩

/-- The hypotheses of `GalleryFrames` can be met. -/
theorem witness_GalleryFrames :
  (∃ (s : State) (e : Fin 16) (f : FormD) (w : Word), s.blk.stands e (encodeD Op.emit.code f) (checkD .emit f) f.psel ∧ (s.blk.eng[e]).dir[f.sel.toNat]? = some w ∧ emitRoom s.blk e f w = true) ∧
  (∃ (s : State) (e : Fin 16) (f : FormD) (w : Word), s.blk.stands e (encodeD Op.emit.code f) (checkD .emit f) f.psel ∧ (s.blk.eng[e]).dir[f.sel.toNat]? = some w ∧ emitRoom s.blk e f w = false) ∧
  (∃ (s : State) (e : Fin 16) (f : FormD), s.blk.stands e (encodeD Op.emit.code f) (checkD .emit f) f.psel ∧ (s.blk.eng[e]).dir[f.sel.toNat]? = none) ∧
  (∃ (s : State) (e : Fin 16) (f : FormD) (g : EFrame), s.blk.stands e (encodeD Op.patch.code f) (checkD .patch f) f.psel ∧ (s.blk.eng[e]).emis.find? (fun y => y.hold == some (f.imm.toNat / 2 ^ 21 % 4)) = some g ∧ (f.imm.toNat / 2 ^ 14 % 16 = 0 ∨ f.imm.toNat % 2 ^ 14 + f.imm.toNat / 2 ^ 14 % 16 ≤ g.bytes.length) ∧ (s.blk.atFirst e).boundaryWithin 3 = false) ∧
  (∃ (s : State) (e : Fin 16) (f : FormD), s.blk.stands e (encodeD Op.patch.code f) (checkD .patch f) f.psel ∧ (s.blk.eng[e]).emis.find? (fun y => y.hold == some (f.imm.toNat / 2 ^ 21 % 4)) = none) ∧
  (∃ (s : State) (e : Fin 16) (f : FormD) (g : EFrame), s.blk.stands e (encodeD Op.patch.code f) (checkD .patch f) f.psel ∧ (s.blk.eng[e]).emis.find? (fun y => y.hold == some (f.imm.toNat / 2 ^ 21 % 4)) = some g ∧ f.imm.toNat / 2 ^ 14 % 16 ≠ 0 ∧ g.bytes.length < f.imm.toNat % 2 ^ 14 + f.imm.toNat / 2 ^ 14 % 16) ∧
  (∃ (s : State) (e : Fin 16) (f : FormD) (m : Nat), s.blk.stands e (encodeD Op.gate.code f) (checkD .gate f) f.psel ∧ (m = (if f.sel.getLsbD 1 then ((s.blk.eng[e]).rd f.ra).toNat % 2 ^ 32 else f.imm.toNat)) ∧ s.blk.coreOk = true ∧ (s.blk.priv e = true ∨ ∀ p < 32, bitAt m p = true → bitAt (s.blk.get (GAL_PMASK_MASK e)) p = true)) ∧
  (∃ (s : State) (e : Fin 16) (f : FormD) (m : Nat) (p : Nat), s.blk.stands e (encodeD Op.gate.code f) (checkD .gate f) f.psel ∧ (m = (if f.sel.getLsbD 1 then ((s.blk.eng[e]).rd f.ra).toNat % 2 ^ 32 else f.imm.toNat)) ∧ s.blk.priv e = false ∧ p < 32 ∧ bitAt m p = true ∧ bitAt (s.blk.get (GAL_PMASK_MASK e)) p = false) ∧
  (∃ (s : State) (e : Fin 16) (f : FormD), s.blk.stands e (encodeD Op.snap.code f) (checkD .snap f) f.psel ∧ s.blk.flag STS_SNAPSTAT_ARMED = false) ∧
  (∃ (s : State) (e : Fin 16) (f : FormD), s.blk.stands e (encodeD Op.snap.code f) (checkD .snap f) f.psel ∧ s.blk.flag STS_SNAPSTAT_ARMED = true) ∧
  (∃ (s : State) (e : Fin 16) (i : Nat) (fr : EFrame), s.blk.movesNext e = true ∧ s.blk.nextFrame e = some i ∧ (s.blk.eng[e]).emis[i]? = some fr ∧ fr.moved + 1 < cellsFor (fr.bytes.length + 4)) ∧
  (∃ (s : State) (e : Fin 16), s.blk.movesNext e = false) ∧
  (∃ (s : State) (e : Fin 16) (i : Nat) (fr : EFrame), s.blk.movesNext e = true ∧ s.blk.nextFrame e = some i ∧ (s.blk.eng[e]).emis[i]? = some fr ∧ cellsFor (fr.bytes.length + 4) ≤ fr.moved + 1) :=
  ⟨⟨(gsD .emit ⟨0,2,0,0,0,0,0x202⟩ [] id (fun x => {x with dir := [0x190064]})), 3, ⟨0,2,0,0,0,0,0x202⟩, 0x190064, by unfold Block.stands; decide +kernel⟩,
   ⟨(gsD .emit ⟨0,2,0,0,0,0,0xE02⟩ [] id (fun x => {x with dir := [0x190064], emis := [{ bytes := List.replicate 100 7, port := 2, cls := 1, sch := true, hold := some 1, cycle := 0, moved := 0, rel := 0, src := 0, copyAt := 0, old := false }]})), 3, ⟨0,2,0,0,0,0,0xE02⟩, 0x190064, by unfold Block.stands; decide +kernel⟩,
   ⟨(gsD .emit ⟨0,2,0,0,0,1,0xC02⟩ ), 3, ⟨0,2,0,0,0,1,0xC02⟩, by unfold Block.stands; decide +kernel⟩,
   ⟨(gsD .patch ⟨0,2,0,5,0,0,0x30C004⟩ [] id (fun x => {x with emis := [{ bytes := List.replicate 100 7, port := 2, cls := 1, sch := true, hold := some 1, cycle := 0, moved := 0, rel := 0, src := 0, copyAt := 0, old := false }, { bytes := List.replicate 100 7, port := 2, cls := 1, sch := true, hold := some 3, cycle := 0, moved := 0, rel := 0, src := 0, copyAt := 0, old := false }]})), 3, ⟨0,2,0,5,0,0,0x30C004⟩, ({ bytes := List.replicate 100 7, port := 2, cls := 1, sch := true, hold := some 1, cycle := 0, moved := 0, rel := 0, src := 0, copyAt := 0, old := false }), by unfold Block.stands; decide +kernel⟩,
   ⟨(gsD .patch ⟨0,2,0,5,0,0,0x40C004⟩ [] id (fun x => {x with emis := [{ bytes := List.replicate 100 7, port := 2, cls := 1, sch := true, hold := some 1, cycle := 0, moved := 0, rel := 0, src := 0, copyAt := 0, old := false }, { bytes := List.replicate 100 7, port := 2, cls := 1, sch := true, hold := some 3, cycle := 0, moved := 0, rel := 0, src := 0, copyAt := 0, old := false }]})), 3, ⟨0,2,0,5,0,0,0x40C004⟩, by unfold Block.stands; decide +kernel⟩,
   ⟨(gsD .patch ⟨0,2,0,5,0,0,0x20C063⟩ [] id (fun x => {x with emis := [{ bytes := List.replicate 100 7, port := 2, cls := 1, sch := true, hold := some 1, cycle := 0, moved := 0, rel := 0, src := 0, copyAt := 0, old := false }, { bytes := List.replicate 100 7, port := 2, cls := 1, sch := true, hold := some 3, cycle := 0, moved := 0, rel := 0, src := 0, copyAt := 0, old := false }]})), 3, ⟨0,2,0,5,0,0,0x20C063⟩, ({ bytes := List.replicate 100 7, port := 2, cls := 1, sch := true, hold := some 1, cycle := 0, moved := 0, rel := 0, src := 0, copyAt := 0, old := false }), by unfold Block.stands; decide +kernel⟩,
   ⟨(gsD .gate ⟨0,0,0,5,0,2,0⟩ [(GAL_STAT_PRIV 3,1),(SWC_PORT_STAT_GATE 3,1),(SWC_PORT_STAT_GATE 4,1)]), 3, ⟨0,0,0,5,0,2,0⟩, 40, by unfold Block.stands; decide +kernel⟩,
   ⟨(gsD .gate ⟨0,0,0,0,0,1,0x31⟩ [(GAL_PMASK_MASK 3,0xF0)]), 3, ⟨0,0,0,0,0,1,0x31⟩, 0x31, 0, by unfold Block.stands; decide +kernel⟩,
   ⟨(gsD .snap ⟨0,2,0,0,0,1,0⟩ ), 3, ⟨0,2,0,0,0,1,0⟩, by unfold Block.stands; decide +kernel⟩,
   ⟨(gsD .snap ⟨0,2,0,5,0,0,0⟩ [(STS_SNAPSTAT_ARMED,1)]), 3, ⟨0,2,0,5,0,0,0⟩, by unfold Block.stands; decide +kernel⟩,
   ⟨(gs 3 0 (fun x => {x0 x with emis := [{ bytes := List.replicate 100 7, port := 2, cls := 1, sch := true, hold := some 1, cycle := 0, moved := 0, rel := 0, src := 0, copyAt := 0, old := false }, { bytes := List.replicate 300 7, port := 2, cls := 1, sch := true, hold := none, cycle := 0, moved := 1, rel := 7000000000000000, src := 0, copyAt := 0, old := false }]})), 3, 1, ({ bytes := List.replicate 300 7, port := 2, cls := 1, sch := true, hold := none, cycle := 0, moved := 1, rel := 7000000000000000, src := 0, copyAt := 0, old := false }), by decide +kernel⟩,
   ⟨(gs 3 0 (fun x => {x0 x with emis := [{ bytes := List.replicate 100 7, port := 2, cls := 1, sch := true, hold := some 1, cycle := 0, moved := 0, rel := 0, src := 0, copyAt := 0, old := false }]})), 3, by decide +kernel⟩,
   ⟨(gs 3 0 (fun x => {x0 x with emis := [{ bytes := List.replicate 100 7, port := 2, cls := 1, sch := true, hold := some 1, cycle := 0, moved := 0, rel := 0, src := 0, copyAt := 0, old := false }, { bytes := List.replicate 300 7, port := 2, cls := 1, sch := true, hold := none, cycle := 0, moved := 2, rel := 0, src := 0, copyAt := 0, old := false }]})), 3, 1, ({ bytes := List.replicate 300 7, port := 2, cls := 1, sch := true, hold := none, cycle := 0, moved := 2, rel := 0, src := 0, copyAt := 0, old := false }), by decide +kernel⟩⟩

/-- The hypotheses of `GalleryTraps` can be met. -/
theorem witness_GalleryTraps :
  (∃ (s : State) (e : Fin 16) (w : Word), s.blk.ready e = true ∧ w = (s.blk.eng[e]).word (s.blk.eng[e]).pc ∧ Op.ofCode (opBits w) = none) ∧
  (∃ (s : State) (e : Fin 16) (f : FormA), s.blk.ready e = true ∧ (s.blk.eng[e]).word (s.blk.eng[e]).pc = encodeA Op.rdlt.code f ∧ checkA .rdlt f ≠ 0) ∧
  (∃ (s : State) (e : Fin 16) (f : FormB), s.blk.ready e = true ∧ (s.blk.eng[e]).word (s.blk.eng[e]).pc = encodeB Op.addi.code f ∧ checkB .addi f ≠ 0) ∧
  (∃ (s : State) (e : Fin 16) (f : FormC), s.blk.ready e = true ∧ (s.blk.eng[e]).word (s.blk.eng[e]).pc = encodeC Op.bar.code f ∧ f.m.getLsbD e = false) ∧
  (∃ (s : State) (e : Fin 16) (f : FormD), s.blk.ready e = true ∧ (s.blk.eng[e]).word (s.blk.eng[e]).pc = encodeD Op.snap.code f ∧ checkD .snap f ≠ 0) ∧
  (∃ (s : State) (e : Fin 16) (f : FormA), s.blk.ready e = true ∧ (s.blk.eng[e]).word (s.blk.eng[e]).pc = encodeA Op.add.code f ∧ checkA .add f = 0 ∧ (s.blk.eng[e]).pred f.psel = false ∧ (s.blk.eng[e]).pc < 32767) ∧
  (∃ (s : State) (e : Fin 16) (f : FormA), s.blk.ready e = true ∧ (s.blk.eng[e]).word (s.blk.eng[e]).pc = encodeA Op.add.code f ∧ checkA .add f = 0 ∧ (s.blk.eng[e]).pc = 32767) ∧
  (∃ (s : State) (e : Fin 16) (f : FormA), s.blk.stands e (encodeA Op.and_.code f) (checkA .and_ f) f.psel ∧ (s.blk.atFirst e).retires ⟨4, s.blk.coreOf e⟩ = false) ∧
  (∃ (s : State) (e : Fin 16) (f : FormA), s.blk.stands e (encodeA Op.and_.code f) (checkA .and_ f) f.psel ∧ (s.blk.atFirst e).retires ⟨4, s.blk.coreOf e⟩ = false) ∧
  (∃ (s : State) (e : Fin 16) (f : FormA), s.blk.stands e (encodeA Op.and_.code f) (checkA .and_ f) f.psel ∧ (s.blk.atFirst e).retires ⟨4, s.blk.coreOf e⟩ = false) ∧
  (∃ (s : State) (e : Fin 16) (f : FormA), s.blk.stands e (encodeA Op.and_.code f) (checkA .and_ f) f.psel ∧ (s.blk.atFirst e).retires ⟨4, s.blk.coreOf e⟩ = false) :=
  ⟨⟨(gs 3 0xEE0000000000000000 x0), 3, 0xEE0000000000000000, by decide +kernel⟩,
   ⟨(gsA .rdlt ⟨8,1,0,0,0,0⟩ ), 3, ⟨8,1,0,0,0,0⟩, by decide +kernel⟩,
   ⟨(gsB .addi ⟨9,0,0,1,0,0⟩ ), 3, ⟨9,0,0,1,0,0⟩, by decide +kernel⟩,
   ⟨(gsC .bar ⟨0,0,4,0⟩ ), 3, ⟨0,0,4,0⟩, by decide +kernel⟩,
   ⟨(gsD .snap ⟨0,1,1,1,0,0,0⟩ ), 3, ⟨0,1,1,1,0,0,0⟩, by decide +kernel⟩,
   ⟨(gsA .add ⟨9,5,7,10,0,0⟩ ), 3, ⟨9,5,7,10,0,0⟩, by decide +kernel⟩,
   ⟨(gsA .add ⟨9,5,7,0,0,0⟩ [] id (fun x => {x with pc := 32767, prog := sput (fun _ => (0:Word)) x.prog 32767 (encodeA Op.add.code ⟨9,5,7,0,0,0⟩)})), 3, ⟨9,5,7,0,0,0⟩, by decide +kernel⟩,
   ⟨(gsA .and_ ⟨9,5,7,0,0,0⟩ ), 3, ⟨9,5,7,0,0,0⟩, by unfold Block.stands; decide +kernel⟩,
   ⟨(gsA .and_ ⟨9,5,7,0,0,0⟩ ), 3, ⟨9,5,7,0,0,0⟩, by unfold Block.stands; decide +kernel⟩,
   ⟨(gsA .and_ ⟨9,5,7,0,0,0⟩ ), 3, ⟨9,5,7,0,0,0⟩, by unfold Block.stands; decide +kernel⟩,
   ⟨(gsA .and_ ⟨9,5,7,0,0,0⟩ ), 3, ⟨9,5,7,0,0,0⟩, by unfold Block.stands; decide +kernel⟩⟩

/-- The hypotheses of `CycleTriggers` can be met. -/
theorem witness_CycleTriggers :
  (∃ (s : State) (e : Fin 16) (n : Nat) (gr : Nat) (tf : Nat), s.blk.cyc.triggerAt = some n ∧ s.blk.running e = true ∧ (s.blk.eng[e]).reloc = false ∧ (s.blk.eng[e]).wait = .boundary gr tf ∧ (s.blk.eng[e]).waitFrom ≤ s.blk.tm.phys ∧ aloneRuns s.blk e) ∧
  (∃ (s : State) (e : Fin 16) (n : Nat), s.blk.cyc.triggerAt = some n ∧ s.blk.running e = true ∧ (s.blk.eng[e]).reloc = false ∧ (s.blk.eng[e]).inBoundary (s.blk.reachNs n).tm.phys = false ∧ aloneRuns s.blk e) ∧
  (∃ (s : State) (e : Fin 16) (n : Nat), s.blk.cyc.triggerAt = some n ∧ s.blk.running e = false ∧ (s.blk.eng[e]).reloc = false ∧ (s.blk.eng[e]).startPend = true ∧ s.blk.banksPending e = false ∧ aloneRuns s.blk e) ∧
  (∃ (s : State), s.blk.cyc.triggerAt = none) :=
  ⟨⟨(cyS (fun x => {x with wait := .boundary 9 2, waitSince := some 100, opened := true, use := 700}) [(GAL_STAT_STATE 3,3),(GAL_STAT_WAIT 3,1)]), 3, 5005, 9, 2, by unfold aloneRuns; decide +kernel⟩,
   ⟨(cyS id [(GAL_STAT_STATE 3,3)]), 3, 5005, by unfold aloneRuns; decide +kernel⟩,
   ⟨(cyS (fun x => {x with startPend := true}) [(GAL_STAT_STATE 3,2)]), 3, 5005, by unfold aloneRuns; decide +kernel⟩,
   ⟨(State.reset), by decide +kernel⟩⟩

/-- The hypotheses of `EngineLoads` can be met. -/
theorem witness_EngineLoads :
  (∃ (s : State) (n : Fin 16), s.blk.hostFree = true ∧ s.blk.synced = false ∧ loadable (s.blk.get (GAL_STAT_STATE n)) = true) ∧
  (∃ (s : State) (n : Fin 16), s.blk.hostFree = true ∧ s.blk.synced = false ∧ loadable (s.blk.get (GAL_STAT_STATE n)) = false) ∧
  (∃ (s : State) (n : Fin 16), s.blk.hostFree = true ∧ s.blk.synced = false ∧ s.blk.get (GAL_STAT_STATE n) ∉ [1, 3, 7]) ∧
  (∃ (s : State) (n : Fin 16) (dt : Nat) (b : Block) (h : Header) (hw : List Word) (l : List Word), s.blk.synced = false ∧ s.blk.get (GAL_STAT_STATE n) = 1 ∧ s.blk.reportWaits n = false ∧ s.blk.cav.corr = [] ∧ s.blk.cav.uncorr = [] ∧ (s.blk.advanceNs dt).readImage (s.blk.eng[n]).laddr 0x5947 = (b, h, hw, l, 0) ∧ b.imageAuth h hw l = 0) ∧
  (∃ (s : State) (n : Fin 16), s.blk.synced = false ∧ s.blk.get (GAL_STAT_STATE n) = 1 ∧ s.blk.reportWaits n = false ∧ lastWord < (s.blk.eng[n]).laddr + 7) :=
  ⟨⟨(sr [(GAL_STAT_STATE 3,4),(GAL_LADDR_ADDR 3,77)]), 3, by decide +kernel⟩,
   ⟨(sr [(GAL_STAT_STATE 15,7)]), 15, by decide +kernel⟩,
   ⟨(sr [(GAL_STAT_STATE 3,4)]), 3, by decide +kernel⟩,
   ⟨(imgS), 3, 5, (((imgS.blk.advanceNs 5).readImage 1000 0x5947).1), (((imgS.blk.advanceNs 5).readImage 1000 0x5947).2.1), (((imgS.blk.advanceNs 5).readImage 1000 0x5947).2.2.1), (((imgS.blk.advanceNs 5).readImage 1000 0x5947).2.2.2.1), by decide +kernel⟩,
   ⟨(lim), 3, by decide +kernel⟩⟩

/-- The hypotheses of `EngineControl` can be met. -/
theorem witness_EngineControl :
  (∃ (s : State) (n : Fin 16), s.blk.hostFree = true ∧ s.blk.synced = false ∧ startable (s.blk.get (GAL_STAT_STATE n)) = true ∧ (s.blk.eng[n]).startPend = false ∧ (s.blk.eng[n]).startAt = none) ∧
  (∃ (s : State) (n : Fin 16), s.blk.hostFree = true ∧ s.blk.synced = false ∧ startable (s.blk.get (GAL_STAT_STATE n)) = false) ∧
  (∃ (s : State) (n : Fin 16), s.blk.hostFree = true ∧ s.blk.synced = false ∧ s.blk.get (GAL_STAT_STATE n) ∉ [1, 3, 7]) ∧
  (∃ (s : State) (n : Fin 16) (at_ : Nat), s.blk.banksPending n = false ∧ (s.blk.eng[n]).startAt = some at_ ∧ startable (s.blk.get (GAL_STAT_STATE n)) = true ∧ s.blk.flag (GAL_CTL_EN n) = true ∧ s.blk.admission n (s.blk.runningEngines ++ [n.val]) = 0) ∧
  (∃ (s : State) (n : Fin 16) (at_ : Nat), s.blk.banksPending n = false ∧ (s.blk.eng[n]).startAt = some at_ ∧ startable (s.blk.get (GAL_STAT_STATE n)) = true ∧ s.blk.flag (GAL_CTL_EN n) = true ∧ s.blk.admission n (s.blk.runningEngines ++ [n.val]) ≠ 0) ∧
  (∃ (s : State) (n : Fin 16), s.blk.hostFree = true ∧ s.blk.synced = false ∧ s.blk.get (GAL_STAT_STATE n) = 3) ∧
  (∃ (s : State) (n : Fin 16), s.blk.hostFree = true ∧ s.blk.synced = false ∧ s.blk.get (GAL_STAT_STATE n) = 1) ∧
  (∃ (s : State) (n : Fin 16), s.blk.hostFree = true ∧ s.blk.synced = false ∧ s.blk.get (GAL_STAT_STATE n) ∉ [1, 3]) ∧
  (∃ (s : State), s.blk.hostFree = true ∧ s.blk.synced = false ∧ loadable (s.blk.get (GAL_STAT_STATE 15)) = true) ∧
  (∃ (s : State), s.blk.hostFree = true ∧ s.blk.synced = false ∧ loadable (s.blk.get (GAL_STAT_STATE 15)) = false ∧ s.blk.get (GAL_STAT_STATE 15) ≠ 7) ∧
  (∃ (s : State), s.blk.hostFree = true ∧ s.blk.synced = false ∧ s.blk.get (GAL_STAT_STATE 15) = 7 ∧ s.blk.flag GAL_SPARE_BUSY = false) ∧
  (∃ (s : State), s.blk.hostFree = true) ∧
  (∃ (s : State) (n : Fin 16) (d : Half), s.blk.hostFree = true ∧ s.blk.synced = false ∧ bankGood s.blk (96 * n + 64 + d.toNat % 2 ^ 14 / 512) = true) ∧
  (∃ (s : State) (n : Fin 16) (d : Half), s.blk.hostFree = true ∧ s.blk.pw.lost.getLsbD (96 * n + 64 + d.toNat % 2 ^ 14 / 512) = true ∧ s.blk.domOn 7 = true) ∧
  (∃ (s : State) (n : Fin 16), s.blk.hostFree = true ∧ s.blk.synced = false ∧ bankGood s.blk (96 * n + 64 + s.blk.get (GAL_DADDR_ADDR n) / 512) = true) ∧
  (∃ (s : State), s.blk.hostFree = true) ∧
  (∃ (s : State), s.blk.hostFree = true ∧ s.blk.synced = false) ∧
  (∃ (s : State), s.blk.hostFree = true) :=
  ⟨⟨(sr [(GAL_STAT_STATE 3,4),(SYS_CYCLE_RUN,1)]), 3, by decide +kernel⟩,
   ⟨(sr [(GAL_STAT_STATE 3,7)]), 3, by decide +kernel⟩,
   ⟨(sr [(GAL_STAT_STATE 3,4)]), 3, by decide +kernel⟩,
   ⟨(sr [(GAL_STAT_STATE 3,4),(GAL_CTL_EN 3,1),(SYS_CYCLE_PERIN,100),(FLW_STAT_ACTIVE,255)] (fun b => b.mapE 3 (fun x => {x0 x with startAt := some 70000, entry := 9}))), 3, 70000, by decide +kernel⟩,
   ⟨(sr [(GAL_STAT_STATE 3,4),(GAL_CTL_EN 3,1),(SYS_CYCLE_PERIN,100),(GAL_CLAIM_FINISH 3,100000)] (fun b => b.mapE 3 (fun x => {x0 x with startAt := some 70000, entry := 9}))), 3, 70000, by decide +kernel⟩,
   ⟨(sr [(GAL_STAT_STATE 3,3),(GAL_CTL_EN 3,1)] (fun b => b.mapE 3 (fun x => {x0 x with wait := .boundary 9 2}))), 3, by decide +kernel⟩,
   ⟨(lim), 3, by decide +kernel⟩,
   ⟨(sr [(GAL_STAT_STATE 3,4)]), 3, by decide +kernel⟩,
   ⟨(sr [(GAL_STAT_STATE 15,4)]), by decide +kernel⟩,
   ⟨(sr [(GAL_STAT_STATE 15,3)]), by decide +kernel⟩,
   ⟨(sr [(GAL_STAT_STATE 15,7),(GAL_SPARE_EN,1),(GAL_SPARE_AVAIL,1)]), by decide +kernel⟩,
   ⟨(sr [(GAL_STAT_STATE 3,4),(GAL_STAT_RETIRED 3,1)] (fun b => {b with retired := [⟨4,3⟩]})), by decide +kernel⟩,
   ⟨(st fun b => b.mapE 3 (fun x => x.store 70 0xABC)), 3, 70, by decide +kernel⟩,
   ⟨(sr [(PWR_STAT_DOMON,0xFFF)] (fun b => {b with pw := {b.pw with lost := BitVec.ofNat _ (2^(96*3+64+9))}})), 3, 0x1234, by decide +kernel⟩,
   ⟨(sr [(GAL_DADDR_ADDR 3,70)] fun b => b.mapE 3 (fun x => x.store 70 0xABC)), 3, by decide +kernel⟩,
   ⟨(sr [(GAL_STAT_HDISC 3,70)]), by decide +kernel⟩,
   ⟨(sr [(GAL_CAUSE_RCNT 3,70),(GAL_CAUSE_RCODE 3,3)]), by decide +kernel⟩,
   ⟨(sr [(GAL_SLACK_MIN 3,70)]), by decide +kernel⟩⟩

/-- The hypotheses of `FlowstoneBatches` can be met. -/
theorem witness_FlowstoneBatches :
  (∃ (s : State) (e : Fin 16) (f : FormD) (k : Fin 4), s.blk.stands e (encodeD Op.camq.code f) (checkD .camq f) f.psel ∧ k.val = f.sel.toNat % 4 ∧ f.imm.toNat / 2 ^ 14 % 2 ^ 18 + (f.imm.toNat / 4 % 2 ^ 12 + 1) ≤ 262144 ∧ (s.blk.eng[e]).tags[k] = .free ∧ s.blk.flwStopped = false ∧ s.blk.flw.flight.any Flight.busy = false ∧ s.blk.flw.queue.length < 16) ∧
  (∃ (s : State) (e : Fin 16) (f : FormD) (k : Fin 4) (b0 : Block), s.blk.stands e (encodeD Op.camq.code f) (checkD .camq f) f.psel ∧ k.val = f.sel.toNat % 4 ∧ f.imm.toNat / 2 ^ 14 % 2 ^ 18 + (f.imm.toNat / 4 % 2 ^ 12 + 1) ≤ 262144 ∧ (s.blk.eng[e]).tags[k] = .free ∧ s.blk.flwStopped = false ∧ b0 = (s.blk.atFirst e).dispatchTo (some (camqBatch s.blk e f).at_) ∧ b0.flw.queue.length < 16) ∧
  (∃ (s : State) (e : Fin 16) (f : FormD) (k : Fin 4), s.blk.stands e (encodeD Op.camq.code f) (checkD .camq f) f.psel ∧ k.val = f.sel.toNat % 4 ∧ f.imm.toNat / 2 ^ 14 % 2 ^ 18 + (f.imm.toNat / 4 % 2 ^ 12 + 1) ≤ 262144 ∧ ((s.blk.eng[e]).tags[k] ≠ .free ∨
      s.blk.flwStopped = false ∧ s.blk.flw.flight.any Flight.busy = false ∧ 16 ≤ s.blk.flw.queue.length)) ∧
  (∃ (s : State) (e : Fin 16) (f : FormD) (k : Fin 4), s.blk.stands e (encodeD Op.camq.code f) (checkD .camq f) f.psel ∧ k.val = f.sel.toNat % 4 ∧ f.imm.toNat / 2 ^ 14 % 2 ^ 18 + (f.imm.toNat / 4 % 2 ^ 12 + 1) ≤ 262144 ∧ (s.blk.eng[e]).tags[k] = .free ∧ s.blk.flwStopped = true) ∧
  (∃ (s : State) (e : Fin 16) (f : FormD), s.blk.stands e (encodeD Op.camq.code f) (checkD .camq f) f.psel ∧ 262144 < f.imm.toNat / 2 ^ 14 % 2 ^ 18 + (f.imm.toNat / 4 % 2 ^ 12 + 1)) ∧
  (∃ (s : State) (x : Batch) (l : List Batch), s.blk.flw.queue = x :: l ∧ s.blk.flw.flight = [] ∧ s.blk.flag FLW_CTL_EN = true ∧ x.count = 1 ∧ (s.blk.rec_ x.first).w2f FLW_WIN_W2_EN = 0) ∧
  (∃ (s : State) (x : Batch) (l : List Batch) (o : EvalOut), s.blk.flw.queue = x :: l ∧ s.blk.flw.flight = [] ∧ s.blk.flag FLW_CTL_EN = true ∧ x.count = 1 ∧ s.blk.holdReason (s.blk.rec_ x.first) (s.blk.get FLW_SHED_LEVEL) = none ∧ (∀ c, s.blk.retiring c = false) ∧ s.blk.get FLW_STAT_ACTIVE = s.blk.cellMask ∧ s.blk.evaluate x.first { s.blk.rec_ x.first with u := some (sval (x.pm + (s.blk.rec_ x.first).w3)) } x.pm x.vm = .inl o) ∧
  (∃ (s : State) (fl : Flight) (m : Miss) (o : EvalOut), s.blk.flw.flight = [fl] ∧ s.blk.flwQuiet ∧ fl.waiting = [m] ∧ s.blk.cav.corr = [] ∧ s.blk.cav.uncorr = [] ∧ (s.blk.fetchKey m.key).1.evaluate m.rec_ m.r fl.b.pm fl.b.vm = .inl o) ∧
  (∃ (s : State) (fl : Flight) (y : Slot) (x : SlotResult) (e : Fin 16) (k : Fin 4), s.blk.flw.flight = [fl] ∧ fl.todo = [] ∧ fl.off = false ∧ fl.waiting = [] ∧ fl.results = [y] ∧ y.res = x ∧ fl.b.eng = e.val ∧ fl.b.tag = k.val ∧ (s.blk.eng[e]).tagRun = fl.b.run) :=
  ⟨⟨(gsD .camq ⟨0,3,0,5,6,2,0xA0000⟩ [(FLW_CTL_EN,1)]), 3, ⟨0,3,0,5,6,2,0xA0000⟩, 2, by unfold Block.stands; decide +kernel⟩,
   ⟨(gsD .camq ⟨0,3,0,5,6,2,0xA0000⟩ [(FLW_CTL_EN,1)]), 3, ⟨0,3,0,5,6,2,0xA0000⟩, 2, (((gsD .camq ⟨0,3,0,5,6,2,0xA0000⟩ [(FLW_CTL_EN,1)]).blk.atFirst 3).dispatchTo (some (camqBatch (gsD .camq ⟨0,3,0,5,6,2,0xA0000⟩ [(FLW_CTL_EN,1)]).blk 3 ⟨0,3,0,5,6,2,0xA0000⟩).at_)), by unfold Block.stands; decide +kernel⟩,
   ⟨(gsD .camq ⟨0,3,0,5,6,2,0xA0000⟩ [(FLW_CTL_EN,1)] (fun b => {b with flw := {b.flw with queue := List.replicate 16 bt}})), 3, ⟨0,3,0,5,6,2,0xA0000⟩, 2, by unfold Block.stands; decide +kernel⟩,
   ⟨(gsD .camq ⟨0,3,0,5,6,2,0xA0000⟩ [(FLW_CTL_EN,0)]), 3, ⟨0,3,0,5,6,2,0xA0000⟩, 2, by unfold Block.stands; decide +kernel⟩,
   ⟨(gsD .camq ⟨0,3,0,5,6,2,0xFFFFFFFC⟩), 3, ⟨0,3,0,5,6,2,0xFFFFFFFC⟩, by unfold Block.stands; decide +kernel⟩,
   ⟨(fS {rc with w2 := 0} (fun w => {w with queue := [bt,bt]})), bt, [bt], by decide +kernel⟩,
   ⟨(fS rc (fun w => {w with queue := [bt,bt], cache := [1282]}) [] (fun b => {b with cav := {b.cav with mem := cavT}})), bt, [bt], _, ⟨by decide +kernel, by decide +kernel, by decide +kernel, by decide +kernel, by decide +kernel, fun _ => rfl, by decide +kernel, (Sum.inl_getLeft _ (by decide +kernel)).symm⟩⟩,
   ⟨(fS rc (fun w => {w with flight := [flt [⟨40,rc,1282,0⟩] []]}) [] (fun b => {b with cav := {b.cav with mem := cavT}})), (flt [⟨40,rc,1282,0⟩] []), ⟨40,rc,1282,0⟩, _, ⟨by decide +kernel, by unfold Block.flwQuiet; decide +kernel, by decide +kernel, by decide +kernel, by decide +kernel, (Sum.inl_getLeft _ (by decide +kernel)).symm⟩⟩,
   ⟨(fS rc (fun w => {w with flight := [flt [] [⟨o1,0,7000000000000000⟩]]})), (flt [] [⟨o1,0,7000000000000000⟩]), ⟨o1,0,7000000000000000⟩, o1, 3, 2, by decide +kernel⟩⟩

/-- The hypotheses of `FlowstoneControl` can be met. -/
theorem witness_FlowstoneControl :
  (∃ (s : State) (i : Nat) (l : List Nat) (ks : List Nat) (sg : Nat) (x : Int) (y : Int), s.blk.flw.seekQ = i :: l ∧ s.blk.flwQuiet ∧ s.blk.flag FLW_CTL_EN = true ∧ (s.blk.rec_ i).w2f FLW_WIN_W2_STATE = 1 ∧ (s.blk.rec_ i).w2f FLW_WIN_W2_EN = 1 ∧ s.blk.tabUsable ((s.blk.rec_ i).w2f FLW_WIN_W2_TAB) = true ∧ s.blk.cav.corr = [] ∧ s.blk.cav.uncorr = [] ∧ s.blk.seekTab (s.blk.camTab ((s.blk.rec_ i).w2f FLW_WIN_W2_TAB)) ((s.blk.rec_ i).u.getD (sval (s.blk.rec_ i).w3)) =
      (ks, .found sg x y)) ∧
  (∃ (s : State), s.blk.hostFree = true ∧ s.blk.synced = false ∧ s.blk.flwQuiet ∧ s.blk.flag FLW_CTL_EN = true) ∧
  (∃ (s : State) (fl : Flight) (x : Batch) (e : Fin 16) (k : Fin 4), s.blk.hostFree = true ∧ s.blk.synced = false ∧ s.blk.flag FLW_CTL_EN = true ∧ s.blk.flw.flight = [fl] ∧ fl.todo ≠ [] ∧ fl.b = x ∧ s.blk.flw.queue = [x] ∧ s.blk.tm.phys < s.blk.slotAt fl ∧ (∀ y ∈ fl.results, s.blk.tm.phys < y.due) ∧ x.eng = e.val ∧ x.tag = k.val ∧ (s.blk.eng[e]).tagRun = x.run) ∧
  (∃ (s : State), s.blk.hostFree = true ∧ s.blk.synced = false ∧ s.blk.flwQuiet) ∧
  (∃ (s : State), s.blk.hostFree = true ∧ s.blk.synced = false ∧ s.blk.flwQuiet) ∧
  (∃ (s : State) (w : Fin 17) (hi : Bool) (d : Half) (v : Word), s.blk.hostFree = true ∧ s.blk.synced = false ∧ s.blk.flwQuiet ∧ v = putHalf (s.blk.reg (recWin w + 0x30)) hi d ∧ v.getLsbD 40 = true ∧ (s.blk.rec_ (fieldOf (s.blk.reg (recWin w)) 0 18)).w2f FLW_WIN_W2_EN = 0) ∧
  (∃ (s : State) (r : Fin 5), s.blk.hostFree = true ∧ s.blk.synced = false ∧ s.blk.flwQuiet ∧ (r = 1 ∨ r = 2)) ∧
  (∃ (s : State), s.blk.hostFree = true ∧ s.blk.synced = false ∧ s.blk.flwQuiet) ∧
  (∃ (s : State), s.blk.hostFree = true ∧ s.blk.synced = false) :=
  ⟨⟨(fS {rc with w2 := BitVec.ofNat 72 (2^40 + 1*2^42)} (fun w => {w with seekQ := [40,41]}) [] (fun b => {b with cav := {b.cav with mem := cavT}})), 40, [41], (((fS {rc with w2 := BitVec.ofNat 72 (2^40 + 1*2^42)} (fun w => {w with seekQ := [40,41]}) [] (fun b => {b with cav := {b.cav with mem := cavT}})).blk.seekTab ((fS {rc with w2 := BitVec.ofNat 72 (2^40 + 1*2^42)} (fun w => {w with seekQ := [40,41]}) [] (fun b => {b with cav := {b.cav with mem := cavT}})).blk.camTab 0) 5).1), 0, 0, 500, ⟨by decide +kernel, by unfold Block.flwQuiet; decide +kernel, by decide +kernel, by decide +kernel, by decide +kernel, by decide +kernel, by decide +kernel, by decide +kernel, rfl⟩⟩,
   ⟨(fS rc (fun w => {w with queue := [bt,bt], seekQ := [3]}) ), by unfold Block.flwQuiet; decide +kernel⟩,
   ⟨(fS rc (fun w => {w with flight := [{Batch.flight bt 77 8 [] false with todo := [40], start := 9000000000000000}], queue := [bt], freeAt := 9000000000000000})), ({Batch.flight bt 77 8 [] false with todo := [40], start := 9000000000000000}), bt, 3, 2, by decide +kernel⟩,
   ⟨(fS rc), by unfold Block.flwQuiet; decide +kernel⟩,
   ⟨(fS rc id [(FLW_WIN_IDX_REC,40)] (fun b => b.setReg (recWin 2) 40)), by unfold Block.flwQuiet; decide +kernel⟩,
   ⟨(fS {rc with w2 := 0} id [] (fun b => b.setReg (recWin 2) 40)), 2, false, 0x1C234567890, (putHalf ((fS {rc with w2 := 0} id [] (fun b => b.setReg (recWin 2) 40)).blk.reg (recWin 2 + 0x30)) false 0x1C234567890), by unfold Block.flwQuiet; decide +kernel⟩,
   ⟨(fS rc id [(FLW_WIN_IDX_REC,40)]), 1, by unfold Block.flwQuiet; decide +kernel⟩,
   ⟨(fS rc id [(FLW_WIN_IDX_REC,40)]), by unfold Block.flwQuiet; decide +kernel⟩,
   ⟨(sr [(FLW_STAT_RETIRED,7)]), by decide +kernel⟩⟩

/-- The hypotheses of `RingTraffic` can be met. -/
theorem witness_RingTraffic :
  (∃ (s : State) (n : Fin 32) (x : TrainFrame) (l : List TrainFrame), (s.blk.ringState n = 2 ∨ s.blk.ringState n = 3) ∧ s.blk.flwQuiet ∧ (s.blk.ring n).train = x :: l ∧ x.sent = [] ∧ s.blk.isRing n = false ∧ s.blk.flag (MAC_STAT_LINK (s.blk.ringPort n false)) = true ∧ (∀ sf, s.blk.frameOf x.fid = some sf → sf.errs = [])) ∧
  (∃ (s : State) (n : Fin 32) (f : WireFrame), s.blk.flag (MAC_STAT_LINK (s.blk.ringPort n false)) = true ∧ s.blk.ringMute = false ∧ (s.blk.ringState n = 3 ∨ s.blk.ringState n = 5) ∧ (s.blk.ring n).bad = false ∧ f.fcsOk = false ∧ 60 ≤ f.bytes.length ∧ ((s.blk.trainOf n f.bytes = none ∧ s.blk.get (ZRG_CFG_TOPO n) ≠ 2) ∨
      ∃ x out txs, s.blk.trainOf n f.bytes = some (x, out, txs) ∧ x ∈ (s.blk.ring n).train)) ∧
  (∃ (s : State) (n : Fin 32) (f : WireFrame) (out : Nat) (txs : Nat) (x : TrainFrame), s.blk.flag (MAC_STAT_LINK (s.blk.ringPort n false)) = true ∧ s.blk.ringMute = false ∧ (s.blk.ringState n = 3 ∨ s.blk.ringState n = 4 ∨ s.blk.ringState n = 5) ∧ f.fcsOk = true ∧ s.blk.rxCode (s.blk.ringPort n false) f = false ∧ 60 ≤ f.bytes.length ∧ s.blk.isCycleFrame f.bytes = true ∧ s.blk.trainOf n f.bytes = some (x, out, txs)) ∧
  (∃ (s : State) (n : Fin 32) (l : List Byte), s.blk.coreOk = true ∧ s.blk.ringState n ≠ 0 ∧ s.blk.flag (MAC_STAT_LINK (s.blk.ringPort n false)) = true ∧ s.blk.rxKind (s.blk.ringPort n false) ⟨l, true, false, 0, 0⟩ = 0 ∧ s.blk.isMail n true l = true) ∧
  (∃ (s : State) (n : Fin 32) (l : List Byte), s.blk.ringState n ≠ 0 ∧ s.blk.flag (MAC_STAT_LINK (s.blk.ringPort n false)) = true ∧ s.blk.rxKind (s.blk.ringPort n false) ⟨l, true, false, 0, 0⟩ = 0 ∧ s.blk.isMail n true l = false) ∧
  (∃ (s : State) (n : Fin 32) (x : Copy) (sf : SFrame), s.blk.coreOk = true ∧ s.blk.ringState n = 3 ∧ s.blk.isRing n = false ∧ s.blk.lastSent n = true ∧ (s.blk.ring n).dn = false ∧ s.blk.flag (MAC_STAT_LINK (s.blk.ringPort n false)) = true ∧ ((List.range 8).map (7 - ·)).findSome? (s.blk.headOf (s.blk.ringPort n false)) = some x ∧ s.blk.frameOf x.fid = some sf ∧ sf.errs = []) ∧
  (∃ (s : State) (n : Fin 32) (l : List Byte), s.blk.flag (MAC_STAT_LINK (s.blk.ringPort n false)) = true ∧ s.blk.isMail n true l = true ∧ (s.blk.ring n).dnSeq = some (beAt l 22 2, beAt l 18 4)) ∧
  (∃ (s : State) (n : Fin 32) (x : ScanSt), (s.blk.ring n).scan = some x ∧ s.blk.flag (MAC_STAT_LINK (s.blk.ringPort n false)) = true) ∧
  (∃ (s : State) (n : Fin 32), s.blk.ringState n = 4 ∧ s.blk.isRing n = false ∧ s.blk.flag (MAC_STAT_LINK (s.blk.ringPort n false)) = true) :=
  ⟨⟨(rS 3 (fun r => {r with train := [tfr []], sendEnd := 6000*nsUnit})), 2, (tfr []), [], by unfold Block.flwQuiet; decide +kernel⟩,
   ⟨(rS 3 (fun r => {r with train := [tfr [(5,777)]]})), 2, ⟨tfB, false, false, 0, 0⟩, ⟨by decide +kernel, by decide +kernel, by decide +kernel, by decide +kernel, by decide +kernel, by decide +kernel, Or.inr ⟨tfr [(5, 777)], 5, 777, by decide +kernel, by decide +kernel⟩⟩⟩,
   ⟨(rS 3 (fun r => {r with train := [tfr [(5,777)]]})), 2, ⟨tfB, true, false, 0, 0⟩, 5, 777, (tfr [(5,777)]), by decide +kernel⟩,
   ⟨(rS 3 id [(ZRG_MBX_CLASS 2,3),(ZRG_MBX_MAX 2,200),(SWC_PORT_CTL_EN 32,1)]), 2, (mbx 1), by decide +kernel⟩,
   ⟨(rS 3 id [(ZRG_MBX_MAX 2,70)]), 2, (mbx 0), by decide +kernel⟩,
   ⟨(rS 3 (fun r => {r with train := [{tfr [(5,777)] with bytes := tfB.set 15 0x20}]}) [(ZRG_MBX_MAX 2,200)] (fun b => {b with sw := {b.sw with frames := [{sfr 44 32 with f := {fIn 32 with bytes := mbx 0}}], copies := [cpy 44 5 3]}})), 2, (cpy 44 5 3), ({sfr 44 32 with f := {fIn 32 with bytes := mbx 0}}), by decide +kernel⟩,
   ⟨(rS 3 (fun r => {r with dnSeq := some (0x77,0)}) [(ZRG_MBX_MAX 2,200)]), 2, (mbx 1), by decide +kernel⟩,
   ⟨(rS 1 (fun r => {r with scan := some (scn 2)})), 2, (scn 2), by decide +kernel⟩,
   ⟨(rS 4 (fun r => {r with kaAt := 9000*nsUnit})), 2, by decide +kernel⟩⟩

/-- The hypotheses of `RingControl` can be met. -/
theorem witness_RingControl :
  (∃ (s : State) (n : Fin 32) (d : Half), s.blk.hostFree = true ∧ s.blk.synced = false ∧ s.blk.ringState n = 0 ∧ d.getLsbD 0 = true ∧ d.toNat / 2 % 4 ≤ 2) ∧
  (∃ (s : State) (n : Fin 32) (x : ScanSt), (s.blk.ring n).scan = some x ∧ 4 ≤ x.run) ∧
  (∃ (s : State) (n : Fin 32) (x : ScanSt), s.blk.coreOk = true ∧ (s.blk.ring n).scan = some x) ∧
  (∃ (s : State) (n : Fin 32), s.blk.hostFree = true ∧ s.blk.coreOk = true ∧ s.blk.synced = false ∧ s.blk.flag (ZRG_CFG_EN n) = true) ∧
  (∃ (s : State) (n : Fin 32), s.blk.coreOk = true ∧ s.blk.ringState n = 5 ∧ ((s.blk.ring n).train.all (·.back) = true ∨ s.blk.cyc.inProg = false)) ∧
  (∃ (s : State), s.blk.hostFree = true) ∧
  (∃ (s : State) (n : Fin 32) (d : Half), s.blk.hostFree = true ∧ s.blk.synced = false ∧ (s.blk.ringState n = 0 ∨ d.toNat % 256 = 0)) ∧
  (∃ (s : State) (n : Fin 32) (d : Half), s.blk.hostFree = true ∧ s.blk.synced = false ∧ d.toNat % 256 ≠ 0 ∧ (s.blk.ringState n = 2 ∨ s.blk.ringState n = 4 ∨ s.blk.ringState n = 3 ∧ s.blk.cyc.inProg = false)) ∧
  (∃ (s : State) (n : Fin 32) (d : Half), s.blk.hostFree = true ∧ s.blk.synced = false ∧ d.toNat % 256 ≠ 0 ∧ s.blk.ringState n = 3 ∧ s.blk.cyc.inProg = true ∧ s.blk.lastSent n = false) ∧
  (∃ (s : State), s.blk.hostFree = true ∧ s.blk.synced = false ∧ s.blk.flag ZRG_EPT_BANKED = true ∧ s.blk.cycling = false ∧ s.blk.flag ZRG_EPT_COPY = false) ∧
  (∃ (s : State), s.blk.hostFree = true ∧ s.blk.synced = false ∧ s.blk.flag ZRG_EPT_BANKED = true ∧ s.blk.cycling = true) ∧
  (∃ (s : State), s.blk.hostFree = true ∧ s.blk.synced = false ∧ s.blk.flag ZRG_EPT_BANKED = false) ∧
  (∃ (s : State), s.blk.flag ZRG_EPT_COPY = true ∧ s.blk.flag ZRG_EPT_SWPEND = false) ∧
  (∃ (s : State), s.blk.hostFree = true ∧ s.blk.synced = false ∧ s.blk.flag ZRG_EPT_COPY = false ∧ s.blk.get ZRG_EWIDX_IDX ≤ 131071) ∧
  (∃ (s : State) (d : Half), s.blk.hostFree = true ∧ s.blk.synced = false ∧ s.blk.flag ZRG_EPT_COPY = false ∧ s.blk.get ZRG_EWIDX_IDX ≤ 131071 ∧ (s.blk.flag ZRG_EPT_BANKED = true → d.getLsbD 2 = true)) :=
  ⟨⟨(rS 0 id), 2, 0x2029, by decide +kernel⟩,
   ⟨(rS 1 (fun r => {r with scan := some (scn 4)}) [(ZRG_CFG_TOPO 2,1)]), 2, (scn 4), by decide +kernel⟩,
   ⟨(rS 1 (fun r => {r with scan := some (scn 4)})), 2, (scn 4), by decide +kernel⟩,
   ⟨(rS 5 (fun r => {r with train := [tfr []]})), 2, by decide +kernel⟩,
   ⟨(rS 5 (fun r => {r with train := [{tfr [(5,777)] with got := [777]}]}) [] (fun b => {b with cyc := {b.cyc with inProg := true}})), 2, by decide +kernel⟩,
   ⟨(rS 3 (fun r => {r with lost := [(13,0x1F)]}) [(ZRG_LSEL_SUBR 2,3)] (fun b => {b with retired := [nodeChan 2 3 66], retRec := [nodeChan 2 3 66]})), by decide +kernel⟩,
   ⟨(rS 3 id), 2, 0x100, by decide +kernel⟩,
   ⟨(rS 3 id), 2, 0x1234, by decide +kernel⟩,
   ⟨(rS 3 id [(ZRG_STAT_NODES 2,2)] (fun b => {b with cyc := {b.cyc with inProg := true, next := 90000}})), 2, 0x1234, by decide +kernel⟩,
   ⟨(rS 0 id [(ZRG_EPT_BANKED,1)] (fun b => b.mapRings (fun w => {w with ept := [(5,(1,2))], edit := [(6,(3,4))]}))), by decide +kernel⟩,
   ⟨(rS 0 id [(ZRG_EPT_BANKED,1),(SYS_CYCLE_RUN,1)]), by decide +kernel⟩,
   ⟨(rS 0 id [(ZRG_EPT_BANKED,0)]), by decide +kernel⟩,
   ⟨(rS 0 id [(ZRG_EPT_BANKED,1),(ZRG_EPT_COPY,1)] (fun b => b.mapRings (fun w => {w with ept := [(5,(1,2))], edit := [(6,(3,4))], copyEnd := 6000 * nsUnit}))), by decide +kernel⟩,
   ⟨(rS 0 id [(ZRG_EPT_BANKED,1),(ZRG_EWIDX_IDX,77)] (fun b => (b.setReg ZRG_EWE0 5).setReg ZRG_EWE1 6)), by decide +kernel⟩,
   ⟨(rS 0 id [(ZRG_EPT_BANKED,1),(ZRG_EWIDX_IDX,5)] (fun b => b.mapRings (fun w => {w with ept := [(5,(1,2))], edit := [(6,(3,4))]}))), 6, by decide +kernel⟩⟩

/-- The hypotheses of `SwitchFrames` can be met. -/
theorem witness_SwitchFrames :
  (∃ (s : State) (f : InFrame) (l : List InFrame), s.blk.coreOk = true ∧ s.blk.sw.ingress = f :: l ∧ f.src = 34 ∧ f.port < 34 ∧ f.bad = 0 ∧ s.blk.forwards f.port = true ∧ s.blk.egressUp f.port = true ∧ s.blk.fenced f.port = false ∧ s.blk.mustHold f.port (queueOf f f.port) = false ∧ (f.port = 32 → s.blk.overShare f = false)) ∧
  (∃ (s : State) (f : InFrame) (l : List InFrame), s.blk.coreOk = true ∧ s.blk.sw.ingress = f :: l ∧ f.src < 32 ∧ f.bad = 0 ∧ f.port ≠ 32 ∧ s.blk.flag (SWC_PORT_CTL_ELIM f.src) = false ∧ s.blk.overShare f = false ∧ s.blk.flag (SWC_PORT_CTL_EN f.src) = true ∧ s.blk.get (SWC_PORT_CTL_STP f.src) = 2 ∧ bitAt (beAt f.bytes 6 6) 40 = false ∧ s.blk.fdbFind (beAt f.bytes 6 6) f.vid = none ∧ s.blk.fdbFull (beAt f.bytes 6 6) f.vid = false) ∧
  (∃ (s : State) (f : InFrame) (l : List InFrame), s.blk.sw.ingress = f :: l ∧ f.src < 32 ∧ f.bad = 0 ∧ s.blk.flag (SWC_PORT_CTL_ELIM f.src) = false ∧ s.blk.overShare f = true) ∧
  (∃ (s : State) (p : Fin 34) (ups : List CellUpset) (n : Nat) (b : Block) (x : Copy) (sf : SFrame), s.blk.coreOk = true ∧ macOf p = some n ∧ s.blk.txOf p = none ∧ s.blk.egressUp p = true ∧ (n < 32 → s.blk.flag (MAC_CFG_RING n) = false) ∧ s.blk.fenced p = false ∧ (s.blk.fetchedFor p ups).nextCopy p n = (b, some x) ∧ b.frameOf x.fid = some sf) ∧
  (∃ (s : State) (x : Copy) (sf : SFrame), s.blk.coreOk = true ∧ s.blk.heldReady = some x ∧ s.blk.frameOf x.fid = some sf ∧ s.blk.fenced x.port = false) ∧
  (∃ (s : State) (x : Copy), s.blk.coreOk = true ∧ s.blk.sw.held.find? (·.multi) = some x) ∧
  (∃ (s : State) (p : Fin 34) (c : Fin 9) (x : Copy) (n : Nat) (b : Block), s.blk.coreOk = true ∧ b = s.blk.passedSettle p ∧ b.missing p c = some (x, n)) ∧
  (∃ (s : State) (p : Fin 34), s.blk.coreOk = true ∧ s.blk.flag (SWC_PORT_STAT_UP p) = true ∧ (p.val < 32 → s.blk.flag (MAC_CFG_RING p) = false)) :=
  ⟨⟨(swS (fun w => {w with ingress := [{fIn 34 with port := 7, sch := false}, fIn 3]})), ({fIn 34 with port := 7, sch := false}), [fIn 3], by decide +kernel⟩,
   ⟨(swS (fun w => {w with ingress := [fIn 3]})), (fIn 3), [], by decide +kernel⟩,
   ⟨(swS (fun w => {w with ingress := [fIn 3]}) [(SWC_IG_CFG_SHARE 3,0)]), (fIn 3), [], by decide +kernel⟩,
   ⟨(swS (fun w => {w with frames := [sfr 44 3], copies := [cpy 44 7 3]})), 7, [], 7, ((((swS (fun w => {w with frames := [sfr 44 3], copies := [cpy 44 7 3]})).blk.fetchedFor 7 []).nextCopy 7 7).1), (((((swS (fun w => {w with frames := [sfr 44 3], copies := [cpy 44 7 3]})).blk.fetchedFor 7 []).nextCopy 7 7).2.getD (cpy 44 7 3))), ((((((swS (fun w => {w with frames := [sfr 44 3], copies := [cpy 44 7 3]})).blk.fetchedFor 7 []).nextCopy 7 7).1.frameOf 44).getD (sfr 44 3))), by decide +kernel⟩,
   ⟨(swS (fun w => {w with frames := [sfr 44 3], held := [cpy 44 7 3 true]})), (cpy 44 7 3 true), (sfr 44 3), by decide +kernel⟩,
   ⟨(swS (fun w => {w with frames := [sfr 44 3], held := [cpy 44 7 3 true]}) [(SWC_MC_HOLD,7)]), (cpy 44 7 3 true), by decide +kernel⟩,
   ⟨(swS (fun w => {w with frames := [{sfr 44 3 with whole := 90000000000000000}, sfr 45 3], copies := [cpy 44 7 3, {cpy 45 7 3 with seq := 1}]}) [(SWC_RESEQ_TMO,7)]), 7, 3, ((((swS (fun w => {w with frames := [{sfr 44 3 with whole := 90000000000000000}, sfr 45 3], copies := [cpy 44 7 3, {cpy 45 7 3 with seq := 1}]}) [(SWC_RESEQ_TMO,7)]).blk.passedSettle 7).missing 7 3).elim (cpy 44 7 3) (·.1)), ((((swS (fun w => {w with frames := [{sfr 44 3 with whole := 90000000000000000}, sfr 45 3], copies := [cpy 44 7 3, {cpy 45 7 3 with seq := 1}]}) [(SWC_RESEQ_TMO,7)]).blk.passedSettle 7).missing 7 3).elim 0 (·.2)), ((swS (fun w => {w with frames := [{sfr 44 3 with whole := 90000000000000000}, sfr 45 3], copies := [cpy 44 7 3, {cpy 45 7 3 with seq := 1}]}) [(SWC_RESEQ_TMO,7)]).blk.passedSettle 7), by decide +kernel⟩,
   ⟨(swS (fun w => {w with frames := [sfr 44 3], copies := [cpy 44 7 3], fdb := [⟨5,1,128,false,7⟩,⟨6,1,64,false,7⟩]})), 7, by decide +kernel⟩⟩

/-- The hypotheses of `SwitchTables` can be met. -/
theorem witness_SwitchTables :
  (∃ (s : State) (e : Fdb), s.blk.sw.fdb = [e] ∧ e.stat = false ∧ s.blk.get SWC_AGE_AGE ≠ 0) ∧
  (∃ (s : State), s.blk.hostFree = true ∧ s.blk.flag SWC_FDBDAT_VALID = true ∧ s.blk.fdbFull (s.blk.get SWC_FDBKEY_MAC) (s.blk.get SWC_FDBKEY_VID) = false) ∧
  (∃ s : State, s.blk.flag SWC_FDBDAT_VALID = true ∧
    s.blk.fdbFull (s.blk.get SWC_FDBKEY_MAC) (s.blk.get SWC_FDBKEY_VID) = true ∧
    s.blk.fdbFind (s.blk.get SWC_FDBKEY_MAC) (s.blk.get SWC_FDBKEY_VID) = none) ∧
  (∃ (s : State), s.blk.hostFree = true) ∧
  (∃ (s : State), s.blk.hostFree = true) ∧
  (∃ (s : State), s.blk.hostFree = true) ∧
  (∃ (s : State), s.blk.hostFree = true) ∧
  (∃ (s : State), s.blk.hostFree = true) ∧
  (∃ (s : State), s.blk.hostFree = true) ∧
  (∃ (s : State), s.blk.hostFree = true ∧ s.blk.cycling = true) ∧
  (∃ (s : State), s.blk.hostFree = true ∧ s.blk.cycling = true) ∧
  (∃ (s : State) (m : BitVec 4) (k : Fin 4), s.blk.hostFree = true ∧ s.blk.cycling = false ∧ m.getLsbD k = true) :=
  ⟨⟨(swS (fun w => {w with fdb := [⟨5,1,128,false,7⟩]}) [(SWC_AGE_AGE,9)]), ⟨5,1,128,false,7⟩, by decide +kernel⟩,
   ⟨(swS id [(SWC_FDBKEY_MAC,5),(SWC_FDBKEY_VID,1),(SWC_FDBDAT_MASK,0x83),(SWC_FDBDAT_VALID,1)]), by decide +kernel⟩,
   fdb_full_met,
   ⟨(swS (fun w => {w with fdb := [⟨5,1,128,false,7⟩,⟨6,1,64,false,7⟩]}) [(SWC_FDBKEY_MAC,5),(SWC_FDBKEY_VID,1),(SWC_FDBDAT_MASK,0x83),(SWC_FDBDAT_VALID,1)]), by decide +kernel⟩,
   ⟨(swS (fun w => {w with fdb := [⟨5,1,128,false,7⟩,⟨6,1,64,false,7⟩]}) [(SWC_FDBKEY_MAC,5),(SWC_FDBKEY_VID,1),(SWC_FDBDAT_MASK,0x83),(SWC_FDBDAT_VALID,1)]), by decide +kernel⟩,
   ⟨(sr [(SWC_VIDX_VID,7),(SWC_VMEM_MASK,0x55)]), by decide +kernel⟩,
   ⟨(sr [(SWC_VIDX_VID,1),(SWC_VMEM_MASK,0x55)]), by decide +kernel⟩,
   ⟨(sr [(SWC_ESIDX_IDX,7),(SWC_ESKEY_DA,0x55),(SWC_ESKEY_VALID,1),(SWC_ESCFG_HIST,9)]), by decide +kernel⟩,
   ⟨(swS (fun w => {w with streams := [(7,{Stream.empty with da := 77, vid := 5, valid := true, hist := 3})]}) [(SWC_ESIDX_IDX,7)]), by decide +kernel⟩,
   ⟨(sr [(SYS_CYCLE_RUN,1),(SWC_STAT_RETS,6)]), by decide +kernel⟩,
   ⟨(sr [(SYS_CYCLE_RUN,1)]), by decide +kernel⟩,
   ⟨(sr [(SWC_SPARE_LEFT1,3)] fun b => {b with retired := [rowChan 1 7, rowChan 2 6], sw := {b.sw with rows := [(1,7),(2,6)]}}), 2, 1, by decide +kernel⟩⟩

/-- The hypotheses of `CountersAndSnapshots` can be met. -/
theorem witness_CountersAndSnapshots :
  (∃ (s : State) (a : BitVec 24), s.blk.hostFree = true ∧ isCounter a.toNat = true ∧ 2 ^ 39 ≤ s.blk.count a.toNat ∧ within 0x3C0000 0x3E0000 a.toNat = false) ∧
  (∃ (s : State) (a : BitVec 24), s.blk.hostFree = true ∧ s.blk.count a.toNat < 2 ^ 39 ∧ within 0x3C0000 0x3E0000 a.toNat = false) ∧
  (∃ (s : State) (a : BitVec 24) (b : Block), s.blk.hostFree = true ∧ isCounter a.toNat = true ∧ b = s.blk.prfTouch ∧ within 0x3C0000 0x3E0000 a.toNat = true) ∧
  (∃ (s : State), s.blk.hostFree = true ∧ s.blk.flag STS_SNAPSTAT_ARMED = false ∧ before s.blk.stw (s.blk.reg STS_SNAP_AT) = true) ∧
  (∃ (s : State), s.blk.hostFree = true ∧ s.blk.flag STS_SNAPSTAT_ARMED = false ∧ before s.blk.stw (s.blk.reg STS_SNAP_AT) = false) ∧
  (∃ (s : State), s.blk.hostFree = true ∧ s.blk.flag STS_SNAPSTAT_ARMED = true) ∧
  (∃ (s : State), s.blk.hostFree = true ∧ s.blk.flag STS_SNAPSTAT_ARMED = false) ∧
  (∃ (s : State), s.blk.hostFree = true ∧ s.blk.flag STS_SNAPSTAT_ARMED = true ∧ s.blk.snap.struck = false) ∧
  (∃ (s : State), s.blk.hostFree = true ∧ s.blk.snap.struck = true) ∧
  (∃ (s : State) (w : Word), s.blk.flag STS_SNAPSTAT_ARMED = true ∧ s.blk.snap.struck = false ∧ s.blk.snap.strobe = some w) ∧
  (∃ (s : State) (k : Nat), s.blk.flag STS_SNAPSTAT_ARMED = true ∧ s.blk.snap.struck = true ∧ (s.blk.snap.latched.map (·.1)).Nodup ∧ (∀ p ∈ s.blk.snap.latched, 0x1000 ≤ p.1 ∧ p.1 < 0x20000 ∧ p.1 % 16 = 0) ∧ k = 1 - s.blk.get STS_SNAPSTAT_CUR) ∧
  (∃ (s : State), s.blk.hostFree = true) ∧
  (∃ (s : State) (d : Half) (r : TraceRec), s.blk.hostFree = true ∧ r = sget (fun _ => TraceRec.zero) s.blk.trc.buf (d.toNat % 4096)) ∧
  (∃ (s : State) (a : BitVec 24), s.blk.hostFree = true ∧ isCounter a.toNat = true ∧ within 0x3C0000 0x3E0000 a.toNat = true ∧ s.blk.regOn a.toNat = true) :=
  ⟨⟨(sr [(⟨MAC_PTP_CNT 3 1, 0, 40⟩, 2^39+5),(MAC_HALF_BIT39 3,2),(STS_HALFSUM_GROUP,63)]), (BitVec.ofNat 24 (MAC_PTP_CNT 3 1)), by decide +kernel⟩,
   ⟨(sr []), 5, by decide +kernel⟩,
   ⟨(sr [(⟨PRF_ENG_CNT 3 2, 0, 40⟩, 2^39+5),(STS_HALFSUM_GROUP,63)]), (BitVec.ofNat 24 (PRF_ENG_CNT 3 2)), ((sr [(⟨PRF_ENG_CNT 3 2, 0, 40⟩, 2^39+5),(STS_HALFSUM_GROUP,63)]).blk.prfTouch), by decide +kernel⟩,
   ⟨(sr [(⟨STS_SNAP_AT,0,72⟩,2^40)] (fun b => b.advanceNs 50)), by decide +kernel⟩,
   ⟨(sr [(⟨STS_SNAP_AT,0,72⟩,20*2^16)] (fun b => b.advanceNs 50)), by decide +kernel⟩,
   ⟨(sr [(STS_SNAPSTAT_ARMED,1)]), by decide +kernel⟩,
   ⟨(sr [(STS_SNAPSTAT_REFUSED,1)] (fun b => b.advanceNs 50)), by decide +kernel⟩,
   ⟨(sr [(STS_SNAPSTAT_ARMED,1)] (fun b => {b with snap := {b.snap with strobe := some 5}})), by decide +kernel⟩,
   ⟨(sr [(STS_SNAPSTAT_ARMED,1)] (fun b => {b with snap := {b.snap with strobe := some 5, struck := true}})), by decide +kernel⟩,
   ⟨(sr [(STS_SNAPSTAT_ARMED,1),(⟨ZRG_CNT 2 3,0,40⟩,77),(PWR_STAT_DOMON,0xFEF)] (fun b => {b with snap := {b.snap with strobe := some (500*2^16+3)}})), 500*2^16+3, by decide +kernel⟩,
   ⟨(sr [(STS_SNAPSTAT_ARMED,1),(STS_SNAPSTAT_CUR,1),(STS_SNAPSTAT_SEQ,2^32-1)] (fun b => {b with snap := {b.snap with strobe := some 5, struck := true, late := true, ltH := 5, ltL := 6, latched := [(0x1000,7),(0x1010,8),(0xA000,9)]}})), 1-1, by decide +kernel⟩,
   ⟨(sr [(PRF_TRSTAT_COUNT,5),(PRF_TRCTL_N,9)] (fun b => {b with trc := {b.trc with buf := [(3,⟨1,2,3,4⟩)], qLen := 4}})), by decide +kernel⟩,
   ⟨(sr [] (fun b => {b with trc := {b.trc with buf := [(3,⟨1,2,3,4⟩)], qLen := 4}})), 0x3003, ⟨1,2,3,4⟩, by decide +kernel⟩,
   ⟨(sr [(PWR_STAT_DOMON,0xFFF),(⟨PRF_FAB 3,0,40⟩,77)]), (BitVec.ofNat 24 (PRF_FAB 3)), by decide +kernel⟩⟩

/-- The hypotheses of `JournalEntries` can be met. -/
theorem witness_JournalEntries :
  (∃ (s : State) (e : JEntry) (l : List JEntry) (n : Fin 16), nextEntry s.blk.host.journal = some (e, l) ∧ s.blk.host.stalls = [] ∧ s.blk.host.backlog = [] ∧ e.item = .cmd (.axisFaultsClr n) ∧ e.own = true) ∧
  (∃ (s : State) (e : JEntry) (l : List JEntry) (f : Int), nextEntry s.blk.host.journal = some (e, l) ∧ s.blk.host.stalls = [] ∧ s.blk.host.backlog = [] ∧ e.item = .steer f ∧ e.own = false ∧ -2 ^ 31 ≤ f ∧ f < 2 ^ 31) ∧
  (∃ (s : State) (e : JEntry) (l : List JEntry) (n : Fin 16), nextEntry s.blk.host.journal = some (e, l) ∧ s.blk.host.stalls = [] ∧ s.blk.host.backlog = [] ∧ e.item = .engRetire n ∧ e.own = true) :=
  ⟨⟨(sr [(LAN_AXSTAT_FAULTS 3,9),(HOST_JSTAT_PEND,2)] (fun b => {b with host := {b.host with journal := [jE (.steer 5) 9000 false 4, jE (.cmd (.axisFaultsClr 3)) 8000 true]}})), (jE (.cmd (.axisFaultsClr 3)) 8000 true), [jE (.steer 5) 9000 false 4], 3, by decide +kernel⟩,
   ⟨(sr [(PAIR_STAT_STATE,4)] (fun b => {b with host := {b.host with journal := [jE (.steer (-5)) 7000 false 4, jE (.cmd (.axisFaultsClr 3)) 8000 true]}})), (jE (.steer (-5)) 7000 false 4), [jE (.cmd (.axisFaultsClr 3)) 8000 true], -5, by decide +kernel⟩,
   ⟨(sr [(PAIR_STAT_STATE,3)] (fun b => {b with host := {b.host with journal := [jE (.engRetire 3) 7000 true 4]}})), (jE (.engRetire 3) 7000 true 4), [], 3, by decide +kernel⟩⟩

/-- The hypotheses of `MacReception` can be met. -/
theorem witness_MacReception :
  (∃ (s : State) (n : Fin 33) (f : WireFrame), s.blk.flag (MAC_STAT_LINK n) = true ∧ s.blk.absent n = false ∧ (n.val < 32 → s.blk.flag (MAC_CFG_RING n) = false) ∧ f.fcsOk = true ∧ s.blk.rxCode n f = false ∧ 60 ≤ f.bytes.length ∧ f.bytes.length + 4 ≤ s.blk.get (MAC_CFG_MAXLEN n) ∧ beAt f.bytes 12 2 ≠ 0x8808 ∧ isEsmc s.blk.etype f.bytes = false ∧ s.blk.vlanDrop n f.bytes = false ∧ (n.val = 32 ∨ ptpOf s.blk.etype f.bytes = none)) ∧
  (∃ (s : State) (n : Fin 33) (f : WireFrame), s.blk.flag (MAC_STAT_LINK n) = true ∧ s.blk.absent n = false ∧ (n.val < 32 → s.blk.flag (MAC_CFG_RING n) = false) ∧ (f.fcsOk = false ∨ s.blk.rxCode n f = true) ∧ 60 ≤ f.bytes.length ∧ f.bytes.length + 4 ≤ s.blk.get (MAC_CFG_MAXLEN n) ∧ beAt f.bytes 12 2 ≠ 0x8808) ∧
  (∃ (s : State) (n : Fin 33) (f : WireFrame), s.blk.flag (MAC_STAT_LINK n) = true ∧ s.blk.absent n = false ∧ (n.val < 32 → s.blk.flag (MAC_CFG_RING n) = false) ∧ f.fcsOk = true ∧ s.blk.rxCode n f = false ∧ 60 ≤ f.bytes.length ∧ f.bytes.length + 4 ≤ s.blk.get (MAC_CFG_MAXLEN n) ∧ beAt f.bytes 12 2 ≠ 0x8808 ∧ isEsmc s.blk.etype f.bytes = true) ∧
  (∃ (s : State) (n : Fin 33) (f : WireFrame), s.blk.flag (MAC_STAT_LINK n) = true ∧ s.blk.absent n = false ∧ (n.val < 32 → s.blk.flag (MAC_CFG_RING n) = false) ∧ f.fcsOk = true ∧ s.blk.rxCode n f = false ∧ 60 ≤ f.bytes.length ∧ f.bytes.length + 4 ≤ s.blk.get (MAC_CFG_MAXLEN n) ∧ beAt f.bytes 12 2 ≠ 0x8808 ∧ isEsmc s.blk.etype f.bytes = false ∧ s.blk.vlanDrop n f.bytes = true) ∧
  (∃ (s : State) (n : Fin 33), s.blk.flag (MAC_STAT_LINK n) = true ∧ 64 ≤ s.blk.get (MAC_CFG_MAXLEN n) ∧ (n.val < 32 → s.blk.flag (MAC_CFG_RING n) = false) ∧ s.blk.flag (MAC_FC_RXIGN n) = false ∧ s.blk.get (MAC_FC_MODE n) = 1) ∧
  (∃ (s : State) (n : Fin 33), s.blk.flag (MAC_STAT_LINK n) = true ∧ 64 ≤ s.blk.get (MAC_CFG_MAXLEN n) ∧ (n.val < 32 → s.blk.flag (MAC_CFG_RING n) = false) ∧ s.blk.flag (MAC_FC_RXIGN n) = false ∧ s.blk.get (MAC_FC_MODE n) = 2) ∧
  (∃ (s : State) (n : Fin 33), s.blk.tm.phys < (s.blk.mac n).allUntil ∧ (∀ c : Fin 8, (s.blk.mac n).clsUntil[c] ≤ s.blk.tm.phys ∨ (s.blk.mac n).allUntil ≤ (s.blk.mac n).clsUntil[c])) ∧
  (∃ (s : State) (n : Fin 33) (c : Fin 8), s.blk.tm.phys < (s.blk.mac n).clsUntil[c] ∧ (∀ d : Fin 8, (s.blk.mac n).clsUntil[d] ≤ s.blk.tm.phys ∨ (s.blk.mac n).clsUntil[c] ≤ (s.blk.mac n).clsUntil[d]) ∧ (s.blk.mac n).allUntil ≤ s.blk.tm.phys) :=
  ⟨⟨(mS 5 [(MAC_CFG_FEC 5,1)]), 5, ({wf0 with fecCorr := 4}), by decide +kernel⟩,
   ⟨(mS 32), 32, ({wf0 with code := true}), by decide +kernel⟩,
   ⟨(mS 32), 32, ({wf0 with bytes := wf0.bytes.take 12 ++ bytesBE 0x8809 2 ++ [10] ++ wf0.bytes.drop 15}), by decide +kernel⟩,
   ⟨(mS 32), 32, wfT, by decide +kernel⟩,
   ⟨(mS 32 [(MAC_FC_MODE 32,1)]), 32, by decide +kernel⟩,
   ⟨(mS 32 [(MAC_FC_MODE 32,2)]), 32, by decide +kernel⟩,
   ⟨(mS 5 [(MAC_PAUSED_ALL 5,1)] (fun b => b.mapMac 5 (fun m => {m with allUntil := 9000*nsUnit, clsUntil := m.clsUntil.set 3 (9500*nsUnit)}))), 5, by decide +kernel⟩,
   ⟨(mS 5 [(MAC_PAUSED_CLS 5,24)] (fun b => b.mapMac 5 (fun m => {m with clsUntil := (m.clsUntil.set 3 (9500*nsUnit)).set 4 (9200*nsUnit)}))), 5, 4, by decide +kernel⟩⟩

/-- The hypotheses of `MacLinks` can be met. -/
theorem witness_MacLinks :
  (∃ (s : State) (n : Fin 33), s.blk.flag (SWC_IG_STAT_XOFF (srcOfMac n)) = true ∧ (s.blk.mac n).sent ≠ 0 ∧ s.blk.get (MAC_FC_MODE n) = 1 ∧ s.blk.flag (MAC_CFG_RING n) = false) ∧
  (∃ (s : State) (n : Fin 33), s.blk.coreOk = true ∧ s.blk.flag (MAC_CTL_EN n) = true ∧ s.blk.absent n = false ∧ s.blk.flag (MAC_STAT_LINK n) = false ∧ (n.val < 32 → s.blk.portLanes n ≠ [] ∧ (∀ l ∈ s.blk.portLanes n, s.blk.laneState l = 6) ∧
      bitAt (s.blk.get SYS_HWSTAT_QLOW) (n / 4) = false)) ∧
  (∃ (s : State) (n : Fin 33) (why : LinkFault), s.blk.coreOk = true ∧ s.blk.flag (MAC_CTL_EN n) = true ∧ s.blk.absent n = false ∧ s.blk.flag (MAC_STAT_LINK n) = true ∧ (n.val < 32 → (s.blk.pt n).lbk = false) ∧ (why = .remoteFault → n.val ≠ 32 ∧ s.blk.slowLane n = false) ∧ (why = .phy → n.val = 32)) ∧
  (∃ (s : State) (n : Fin 32), s.blk.coreOk = true ∧ s.blk.flag (MAC_CTL_EN n) = true ∧ s.blk.absent n = false ∧ s.blk.flag (MAC_STAT_LINK n) = true ∧ (s.blk.pt n).lbk = true) ∧
  (∃ (s : State) (n : Fin 32), s.blk.hostFree = true ∧ s.blk.absent n = false ∧ s.blk.isR4 n = false ∧ s.blk.flag (MAC_CTL_EN n) = false ∧ s.blk.flag (MAC_STAT_LINK n) = false ∧ s.blk.laneOut n = false ∧ s.blk.laneState n = 0 ∧ (s.blk.lane n).test = none ∧ (s.blk.profile = 3 → s.blk.lanesEnabled + 1 ≤ 16)) ∧
  (∃ (s : State) (n : Fin 32), s.blk.hostFree = true ∧ s.blk.absent n = false ∧ s.blk.profile = 3 ∧ s.blk.flag (MAC_CTL_EN n) = false ∧ (16 < s.blk.lanesEnabled + (if s.blk.isR4 n then 4 else 1))) ∧
  (∃ (s : State), s.blk.hostFree = true) ∧
  (∃ (s : State) (n : Fin 33), s.blk.hostFree = true ∧ s.blk.coreOk = true ∧ s.blk.absent n = false) ∧
  (∃ (s : State), s.blk.hostFree = true) :=
  ⟨⟨(mS 32 [(MAC_FC_MODE 32,1),(SWC_IG_STAT_XOFF (srcOfMac 32),1),(MAC_FC_QUANTA 32,100)] (fun b => b.mapMac 32 (fun m => {m with sent := 256, renewAt := 9000*nsUnit}))), 32, by decide +kernel⟩,
   ⟨(mS 4 (r4 6 ++ [(MAC_STAT_LINK 4,0)])), 4, by decide +kernel⟩,
   ⟨(mS 32 [] (fun b => {b with sw := {b.sw with frames := [sfr 44 3], copies := [cpy 44 (egressOf 32) 3]}})), 32, .phy, by decide +kernel⟩,
   ⟨(mS 5 [] (fun b => b.mapPt 5 (fun x => {x with lbk := true}))), 5, by decide +kernel⟩,
   ⟨(mS 5 [(MAC_STAT_LINK 5,0),(MAC_CTL_EN 5,0),(SYS_PROFILE_ACT,3),(SWC_STAT_INSVC,1)]), 5, by decide +kernel⟩,
   ⟨(mS 4 ((List.range 16).map (fun n => (MAC_CTL_EN (8+n),1)) ++ [(MAC_STAT_LINK 5,0),(MAC_CTL_EN 4,0),(SYS_PROFILE_ACT,3)])), 4, by decide +kernel⟩,
   ⟨(State.reset), by decide +kernel⟩,
   ⟨(mS 4 (r4 6)), 4, by decide +kernel⟩,
   ⟨(mS 5 [] (fun b => b.mapMac 5 (fun m => {m with ts := [rt 3, rt 4, rt 5]}))), by decide +kernel⟩⟩

/-- The hypotheses of `LaneTraining` can be met. -/
theorem witness_LaneTraining :
  (∃ (s : State) (l : Fin 36), s.blk.coreOk = true ∧ s.blk.laneState l = 1 ∧ (s.blk.lane l).wakeAt = none) ∧
  (∃ (s : State) (l : Fin 36) (dt : Nat) (u : Nat), s.blk.coreOk = true ∧ (s.blk.lane l).wakeAt = some u ∧ u ≤ s.blk.tm.phys + dt * nsUnit) ∧
  (∃ (s : State) (l : Fin 36) (foms : List (BitVec 12)), (s.blk.lane l).wakeAt = none ∧ s.blk.coreOk = true ∧ s.blk.laneState l = 2 ∧ s.blk.slowLane l = false ∧ s.blk.flag (SDS_CFG_PEAKMODE l) = false ∧ (s.blk.lane l).keep = false ∧ foms.length = 16 ∧ (∃ v ∈ foms, s.blk.get (SDS_CFG_FOMMIN l) ≤ v.toNat)) ∧
  (∃ (s : State) (l : Fin 36), (s.blk.lane l).wakeAt = none ∧ s.blk.coreOk = true ∧ s.blk.laneState l = 2 ∧ (s.blk.slowLane l = true ∨ s.blk.flag (SDS_CFG_PEAKMODE l) = true)) ∧
  (∃ (s : State) (l : Fin 36) (foms : List (BitVec 12)), (s.blk.lane l).wakeAt = none ∧ s.blk.laneState l = 2 ∧ s.blk.slowLane l = false ∧ s.blk.flag (SDS_CFG_PEAKMODE l) = false ∧ (∀ v ∈ foms, v.toNat < s.blk.get (SDS_CFG_FOMMIN l)) ∧ foms.length = 16) ∧
  (∃ (s : State) (l : Fin 36), (s.blk.lane l).wakeAt = none ∧ s.blk.coreOk = true ∧ s.blk.laneState l = 3) ∧
  (∃ (s : State) (l : Fin 36) (skews : List (BitVec 20)), (s.blk.lane l).wakeAt = none ∧ s.blk.coreOk = true ∧ l.val ∈ s.blk.groupOf l ∧ (∀ m ∈ s.blk.groupOf l, s.blk.laneState m = 4) ∧ skews.length = (s.blk.groupOf l).length ∧ (∀ v ∈ skews, v.toNat ≤ (if l.val < 32 then 180000 else 600000))) ∧
  (∃ (s : State) (l : Fin 32), (s.blk.lane l).wakeAt = none ∧ s.blk.coreOk = true ∧ s.blk.laneState l = 5) ∧
  (∃ (s : State) (i : Fin 4) (m : CapMsg), (s.blk.lane (32 + i)).wakeAt = none ∧ s.blk.laneState (32 + i) = 5 ∧ s.blk.capCode (32 + i) m = 0 ∧ m.map = 15 ∧ (∀ k < 4, s.blk.laneOut (32 + k) = false)) ∧
  (∃ (s : State) (i : Fin 4) (m : CapMsg), (s.blk.lane (32 + i)).wakeAt = none ∧ s.blk.laneState (32 + i) = 5 ∧ s.blk.capCode (32 + i) m ≠ 0) ∧
  (∃ (s : State) (l : Fin 36), (s.blk.lane l).wakeAt = none ∧ s.blk.coreOk = true ∧ (s.blk.laneState l = 2 ∨ s.blk.laneState l = 3)) ∧
  (∃ (s : State) (l : Fin 36), (s.blk.lane l).wakeAt = none ∧ s.blk.coreOk = true ∧ l.val ∈ s.blk.groupOf l ∧ (∀ m ∈ s.blk.groupOf l, s.blk.laneState m = 4)) ∧
  (∃ (s : State) (l : Fin 36), (s.blk.lane l).wakeAt = none ∧ s.blk.coreOk = true ∧ s.blk.laneState l = 5) :=
  ⟨⟨(lS 33 1), 33, by decide +kernel⟩,
   ⟨(lS 5 1 [] (fun x => {x with wakeAt := some 5040000000000000})), 5, 50, 5040000000000000, by decide +kernel⟩,
   ⟨(lS 33 2), 33, foms1, ⟨by decide +kernel, by decide +kernel, by decide +kernel, by decide +kernel, by decide +kernel, by decide +kernel, by decide +kernel, ⟨600, by decide +kernel, by decide +kernel⟩⟩⟩,
   ⟨(lS 5 2 [(SDS_CFG_PEAKMODE 5,1),(SDS_CFG_PEAKFIX 5,7)]), 5, by decide +kernel⟩,
   ⟨(lS 5 2 [(SDS_CFG_FOMMIN 5,700)]), 5, foms1, ⟨by decide +kernel, by decide +kernel, by decide +kernel, by decide +kernel, foms1_low _ (by decide +kernel), by decide +kernel⟩⟩,
   ⟨(lS 33 3 (rp 4 ++ [(SDS_STAT_STATE 33,3)]) id use4), 33, by decide +kernel⟩,
   ⟨(lS 33 4 (rp 4) id use4), 33, [5,6,7,600000], ⟨by decide +kernel, by decide +kernel, by decide +kernel, by decide +kernel, by decide +kernel, by simp⟩⟩,
   ⟨(lS 5 5 [(MAC_CFG_RING 5,1)]), 5, by decide +kernel⟩,
   ⟨(lS 33 5 (rp 5) id use4), 1, (cm 1), by decide +kernel⟩,
   ⟨(lS 33 5 (rp 5 ++ [(SDS_STAT_STATE 32,6)]) id use4), 1, (cm 1), by decide +kernel⟩,
   ⟨(lS 5 2 [(MAC_CFG_RATE 5,0)]), 5, by decide +kernel⟩,
   ⟨(lS 33 4 (rp 4) id use4), 33, by decide +kernel⟩,
   ⟨(lS 33 5 (rp 5) id use4), 33, by decide +kernel⟩⟩

/-- The hypotheses of `LaneFaults` can be met. -/
theorem witness_LaneFaults :
  (∃ (s : State) (l : Fin 36) (dt : Nat), (s.blk.lane l).wakeAt = none ∧ s.blk.coreOk = true ∧ 3 ≤ s.blk.laneState l ∧ s.blk.laneState l ≤ 6 ∧ s.blk.flag (SDS_STAT_SD l) = true ∧ (s.blk.advanceNs dt).retires (laneChan l) = false) ∧
  (∃ (s : State) (l : Fin 36) (dt : Nat), (s.blk.lane l).wakeAt = none ∧ s.blk.coreOk = true ∧ 3 ≤ s.blk.laneState l ∧ s.blk.laneState l ≤ 6 ∧ s.blk.flag (SDS_STAT_SD l) = true ∧ (s.blk.advanceNs dt).retires (laneChan l) = true) ∧
  (∃ (s : State) (l : Fin 36), (s.blk.lane l).wakeAt = none ∧ s.blk.coreOk = true ∧ 3 ≤ s.blk.laneState l ∧ s.blk.laneState l ≤ 6 ∧ (s.blk.lane l).lossAt = none) ∧
  (∃ (s : State) (l : Fin 36) (dt : Nat) (u : Nat), (s.blk.lane l).wakeAt = none ∧ s.blk.coreOk = true ∧ s.blk.laneState l = 2 ∧ (s.blk.lane l).lossAt = some u ∧ s.blk.tm.phys + dt * nsUnit ≤ u + 1000 * nsUnit ∧ s.blk.laneWanted l = true ∧ (s.blk.lane l).lossOut = false) ∧
  (∃ (s : State) (l : Fin 36), s.blk.hostFree = true ∧ s.blk.coreOk = true ∧ s.blk.laneState l = 6) ∧
  (∃ (s : State) (l : Fin 36), s.blk.hostFree = true ∧ s.blk.laneState l ≠ 6 ∧ (s.blk.lane l).test = none) ∧
  (∃ (s : State) (l : Fin 36), s.blk.hostFree = true ∧ s.blk.coreOk = true ∧ s.blk.laneOut l = true) ∧
  (∃ (s : State) (l : Fin 36), s.blk.hostFree = true ∧ s.blk.laneOut l = false) ∧
  (∃ (s : State) (l : Fin 36) (below : BitVec 12) (at_ : BitVec 12) (above : BitVec 12), (s.blk.lane l).wakeAt = none ∧ s.blk.laneState l = 6 ∧ s.blk.flag (SDS_CFG_ADAPT l) = true ∧ (s.blk.lane l).test = none ∧ s.blk.get (SDS_STAT_PEAK l) < 15 ∧ at_.toNat + s.blk.get (SDS_CFG_HYST l) ≤ above.toNat ∧ below.toNat < at_.toNat + s.blk.get (SDS_CFG_HYST l)) ∧
  (∃ (s : State) (l : Fin 36) (below : BitVec 12) (at_ : BitVec 12) (above : BitVec 12), (s.blk.lane l).wakeAt = none ∧ s.blk.laneState l = 6 ∧ s.blk.flag (SDS_CFG_ADAPT l) = true ∧ (s.blk.lane l).test = none ∧ above.toNat < at_.toNat + s.blk.get (SDS_CFG_HYST l) ∧ below.toNat < at_.toNat + s.blk.get (SDS_CFG_HYST l)) ∧
  (∃ (s : State) (i : Fin 4), s.blk.laneState (32 + i) = 6) ∧
  (∃ (s : State) (l : Fin 36) (d : Half), s.blk.hostFree = true ∧ d.toNat % 4 < 3 ∧ (s.blk.lane l).test = none ∧ s.blk.testAllowed l (d.toNat % 4) (s.blk.laneState l) = true) ∧
  (∃ (s : State) (l : Fin 36) (d : Half), s.blk.hostFree = true ∧ d.toNat % 4 < 3 ∧ ((s.blk.lane l).test ≠ none ∨ s.blk.testAllowed l (d.toNat % 4) (s.blk.laneState l) = false)) ∧
  (∃ (s : State) (l : Fin 36) (dt : Nat) (k : Nat), (s.blk.lane l).test = some k ∧ (k = 0 → (s.blk.advanceNs dt).slotRuns = true)) ∧
  (∃ (s : State), s.blk.hostFree = true) :=
  ⟨⟨(lS 33 6 (rp 6 ++ [(SDS_STAT_SD 33,1)]) id use4), 33, 50, by decide +kernel⟩,
   ⟨(lS 4 6 (r4 6 ++ [(SDS_STAT_SD 4,1),(MAC_CFG_DEGR 4,1),(MAC_STAT_LINK 4,1),(SYS_STRIKES_THRESH 0,1),(SYS_STRIKES_WINDOW 0,1000)])), 4, 50, by decide +kernel⟩,
   ⟨(lS 33 6 (rp 6 ++ [(SDS_STAT_SD 33,1)]) id use4), 33, by decide +kernel⟩,
   ⟨(lS 5 2 [(SDS_STAT_SD 5,1)] (fun x => {x with lossAt := some (4800*nsUnit)}) (stk 5 2)), 5, 50, 4800*nsUnit, by decide +kernel⟩,
   ⟨(lS 33 6 (rp 6) id use4), 33, by decide +kernel⟩,
   ⟨(lS 5 3), 5, by decide +kernel⟩,
   ⟨(lS 5 7 [(SDS_STAT_RETIRED 5,1)] id (fun b => {stk 5 2 b with retired := [laneChan 5], retRec := [laneChan 5]})), 5, by decide +kernel⟩,
   ⟨(lS 5 7), 5, by decide +kernel⟩,
   ⟨(lS 5 6 [(SDS_CFG_ADAPT 5,1),(SDS_STAT_PEAK 5,4),(SDS_CFG_HYST 5,8)] (fun x => {x with up := 2})), 5, 500, 500, 508, by decide +kernel⟩,
   ⟨(lS 5 6 [(SDS_CFG_ADAPT 5,1),(SDS_STAT_PEAK 5,4),(SDS_CFG_HYST 5,8)] (fun x => {x with up := 1})), 5, 500, 500, 507, by decide +kernel⟩,
   ⟨(lS 33 6 (rp 6) id use4), 1, by decide +kernel⟩,
   ⟨(lS 5 0 [(MAC_CTL_EN 5,0)]), 5, 2, by decide +kernel⟩,
   ⟨(lS 5 6 [] (fun x => {x with test := some 0})), 5, 0, by decide +kernel⟩,
   ⟨(lS 5 6 [] (fun x => {x with test := some 1}) (fun b => {b with cyc := {b.cyc with slotClose := some 900000}})), 5, 50, 1, by decide +kernel⟩,
   ⟨(sr [] (fun b => b.advanceNs 5000)), by decide +kernel⟩⟩

/-- The hypotheses of `NetworkTime` can be met. -/
theorem witness_NetworkTime :
  (∃ (s : State) (f : InFrame) (l : List InFrame) (p : PtpAt) (d : Fin 2) (k : Fin 2), s.blk.ptp.rx = f :: l ∧ ptpOf s.blk.etype f.bytes = some p ∧ s.blk.ptpDomain f.src f.bytes p = some (d.val + 1) ∧ s.blk.get (MAC_PTP_ROLE f.src) = 1 ∧ s.blk.flag (MAC_PTP_AUTHRX f.src) = false ∧ s.blk.masterOf f.src d f.bytes p = some k.val ∧ ptpType f.bytes p = 0 ∧ ptpTwo f.bytes p = true) ∧
  (∃ (s : State) (f : InFrame) (l : List InFrame) (p : PtpAt) (d : Fin 2) (k : Fin 2) (x : SyncIn) (mpd : Int), s.blk.ptp.rx = f :: l ∧ ptpOf s.blk.etype f.bytes = some p ∧ s.blk.ptpDomain f.src f.bytes p = some (d.val + 1) ∧ s.blk.get (MAC_PTP_ROLE f.src) = 1 ∧ s.blk.flag (MAC_PTP_AUTHRX f.src) = false ∧ s.blk.masterOf f.src d f.bytes p = some k.val ∧ ptpType f.bytes p = 8 ∧ ((s.blk.dom d).master k).sync = some x ∧ x.two = true ∧ x.seq = ptpSeq f.bytes p ∧ s.blk.tm.phys ≤ x.at_ + 100000000 * nsUnit ∧ s.blk.mpdOf d k = some mpd ∧ s.blk.synced = false ∧ s.blk.get (LAN_D_SEL_SEL d) ≠ k.val + 1) ∧
  (∃ (s : State) (f : InFrame) (l : List InFrame) (p : PtpAt) (d : Fin 2), s.blk.ptp.rx = f :: l ∧ f.src < 32 ∧ ptpOf s.blk.etype f.bytes = some p ∧ s.blk.ptpDomain f.src f.bytes p = some (d.val + 1) ∧ s.blk.get (MAC_PTP_ROLE f.src) = 2 ∧ s.blk.flag (MAC_PTP_AUTHRX f.src) = false ∧ ptpType f.bytes p = 2 ∧ s.blk.get (LAN_D_CFG_TRANS d) = 0) ∧
  (∃ (s : State) (f : InFrame) (l : List InFrame) (p : PtpAt) (d : Fin 2), s.blk.ptp.rx = f :: l ∧ f.src < 32 ∧ s.blk.absent f.src = false ∧ ptpOf s.blk.etype f.bytes = some p ∧ s.blk.ptpDomain f.src f.bytes p = some (d.val + 1) ∧ s.blk.get (MAC_PTP_ROLE f.src) = 1 ∧ s.blk.flag (MAC_PTP_AUTHRX f.src) = false ∧ s.blk.masterOf f.src d f.bytes p = none ∧ ptpType f.bytes p = 0) ∧
  (∃ (s : State) (f : InFrame) (l : List InFrame) (p : PtpAt) (d : Fin 2), s.blk.ptp.rx = f :: l ∧ f.src < 32 ∧ s.blk.absent f.src = false ∧ ptpOf s.blk.etype f.bytes = some p ∧ s.blk.ptpDomain f.src f.bytes p = some (d.val + 1) ∧ s.blk.get (MAC_PTP_ROLE f.src) = 1 ∧ s.blk.flag (MAC_PTP_AUTHRX f.src) = true ∧ s.blk.authOk f.bytes p = false) ∧
  (∃ (s : State) (n : Fin 32) (d : Fin 2), s.blk.get (MAC_PTP_ROLE n) = 2 ∧ s.blk.serves n d = true ∧ s.blk.flag (MAC_STAT_LINK n) = true ∧ s.blk.flag (MAC_CFG_RING n) = false ∧ s.blk.get (LAN_D_CFG_TRANS d) = 0) ∧
  (∃ (s : State) (d : Fin 2) (k : Fin 2) (n : Nat), n = s.blk.get (LAN_D_M1_INPORT d k) ∧ s.blk.flag (LAN_D_M1_VALID d k) = true ∧ s.blk.get (LAN_D_CFG_DMECH d) = 0 ∧ s.blk.get (MAC_PTP_ROLE n) = 1 ∧ s.blk.serves n d = true ∧ s.blk.flag (MAC_STAT_LINK n) = true ∧ s.blk.flag (MAC_CFG_RING n) = false ∧ s.blk.get (LAN_D_CFG_TRANS d) = 0) ∧
  (∃ (s : State) (n : Fin 32) (d : Fin 2), s.blk.pdDomain n = some d.val ∧ (s.blk.get (MAC_PTP_ROLE n) = 1 ∨ s.blk.get (MAC_PTP_ROLE n) = 2 ∨ s.blk.get (MAC_PTP_ROLE n) = 4) ∧ s.blk.flag (MAC_STAT_LINK n) = true ∧ s.blk.flag (MAC_CFG_RING n) = false ∧ s.blk.get (LAN_D_CFG_TRANS d) = 0) ∧
  (∃ (s : State), s.blk.hostFree = true) ∧
  (∃ (s : State) (n : Fin 32) (mean : BitVec 32) (r : Int) (sum : Int), (s.blk.pt n).lbk = true ∧ 1024 ≤ (s.blk.pt n).probes ∧ r = (mean.toNat : Int) - s.blk.get (MAC_LBK_LOOPD n) ∧ sum = (((factoryCal n).1 + (factoryCal n).2 : Nat) : Int)) :=
  ⟨⟨(pS 1 [(LAN_D_DOFF_DOFF 0,5)] [ptpF (ptpB 0 true 77 3 tB), fIn 3]), (ptpF (ptpB 0 true 77 3 tB)), [fIn 3], ⟨14,0,none⟩, 0, 1, by decide +kernel⟩,
   ⟨(pS 1 [] [ptpF (ptpB 8 true 77 3 tB), fIn 3] (fun b => (b.mapMaster 0 1 (fun m => {m with sync := some sy, mpds := [100,200]})))), (ptpF (ptpB 8 true 77 3 tB)), [fIn 3], ⟨14,0,none⟩, 0, 1, sy, 150, by decide +kernel⟩,
   ⟨(pS 2 [(MAC_PTP_ONESTEP 5,1)] [ptpF (ptpB 2 false 77 3 tB), fIn 3]), (ptpF (ptpB 2 false 77 3 tB)), [fIn 3], ⟨14,0,none⟩, 0, by decide +kernel⟩,
   ⟨(pS 1 [(LAN_D_M1_PORTNUM 0 1,4)] [ptpF (ptpB 0 true 77 3 tB), fIn 3]), (ptpF (ptpB 0 true 77 3 tB)), [fIn 3], ⟨14,0,none⟩, 0, by decide +kernel⟩,
   ⟨(pS 1 [(MAC_PTP_AUTHRX 5,1)] [ptpF (ptpB 0 true 77 3 tB), fIn 3]), (ptpF (ptpB 0 true 77 3 tB)), [fIn 3], ⟨14,0,none⟩, 0, by decide +kernel⟩,
   ⟨(pS 2 [(MAC_PTP_ONESTEP 5,1)] []), 5, 0, by decide +kernel⟩,
   ⟨(pS 1 [] []), 0, 1, 5, by decide +kernel⟩,
   ⟨(pS 2 [(LAN_D_CFG_DMECH 0,1)] []), 5, 0, by decide +kernel⟩,
   ⟨(mS 5 [(SWC_PORT_CTL_EN 5,0)] (fun b => b.mapPt 5 (fun x => {x with lbk := true}))), by decide +kernel⟩,
   ⟨(mS 5 [(MAC_LBK_LOOPD 5,1000)] (fun b => b.mapPt 5 (fun x => {x with lbk := true, probes := 1024}))), 5, 1000, ((1000:Int) - 1000), _, ⟨by decide +kernel, by decide +kernel, by decide +kernel, rfl⟩⟩⟩

/-- The hypotheses of `SteeringDomains` can be met. -/
theorem witness_SteeringDomains :
  (∃ (s : State) (d : Fin 2) (k : Fin 2) (u : Nat), ((s.blk.dom d).master k).lastValid = some u ∧ s.blk.flag (useField d k) = true ∧ s.blk.get (LAN_D_SEL_SEL d) = k.val + 1 ∧ s.blk.flag (LAN_D_SEL_FB d) = true ∧ s.blk.flag (useField d (1 - k.val)) = true) ∧
  (∃ (s : State) (d : Fin 2) (k : Fin 2) (u : Nat), ((s.blk.dom d).master k).lastValid = some u ∧ s.blk.flag (useField d k) = true ∧ s.blk.get (LAN_D_SEL_SEL d) = k.val + 1 ∧ s.blk.flag (LAN_D_SEL_FB d) = false ∧ 2 ≤ s.blk.get (LAN_D_STAT_STATE d) ∧ s.blk.flag LAN_TSW_AUTO = false) ∧
  (∃ (s : State) (d : Fin 2) (x : Half) (w : Nat), s.blk.hostFree = true ∧ s.blk.synced = false ∧ (w = (if x.toNat % 4 < 3 then x.toNat % 4 else s.blk.get (LAN_D_SEL_SEL d))) ∧ w < 3 ∧ s.blk.flag LAN_TSW_AUTO = false) ∧
  (∃ (s : State) (d : Fin 2) (x : Half), s.blk.hostFree = true ∧ s.blk.synced = false ∧ s.blk.flag (LAN_D_CFG_EN d) = false ∧ x.getLsbD 0 = true) ∧
  (∃ (s : State) (d : Fin 2) (x : Half), s.blk.hostFree = true ∧ s.blk.synced = false ∧ s.blk.flag (LAN_D_CFG_EN d) = true ∧ x.getLsbD 0 = false) ∧
  (∃ (s : State) (x : Half), s.blk.hostFree = true ∧ s.blk.synced = false ∧ x.toNat % 16 = s.blk.get LAN_TCTL_DOM) ∧
  (∃ (s : State) (x : Half) (d : Fin 2), s.blk.hostFree = true ∧ s.blk.synced = false ∧ x.toNat % 16 = d.val + 1 ∧ s.blk.get LAN_TCTL_DOM ≠ d.val + 1 ∧ s.blk.get (LAN_D_STAT_STATE d) < 3) ∧
  (∃ (s : State) (x : Half) (d : Fin 2), s.blk.hostFree = true ∧ s.blk.synced = false ∧ x.toNat % 16 = d.val + 1 ∧ s.blk.get LAN_TCTL_DOM ≠ d.val + 1 ∧ (s.blk.get (LAN_D_STAT_STATE d) = 3 ∨ s.blk.get (LAN_D_STAT_STATE d) = 4) ∧ s.blk.flag LAN_ADJ_BUSY = true) ∧
  (∃ (s : State) (x : Half) (d : Fin 2), s.blk.hostFree = true ∧ s.blk.synced = false ∧ x.toNat % 16 = d.val + 1 ∧ s.blk.get LAN_TCTL_DOM ≠ d.val + 1 ∧ (s.blk.get (LAN_D_STAT_STATE d) = 3 ∨ s.blk.get (LAN_D_STAT_STATE d) = 4) ∧ s.blk.flag LAN_ADJ_BUSY = false ∧ s.blk.flag SYS_CYCLE_RUN = false ∧ 0 ≤ (s.blk.tm.lt : Int) + (s.blk.domSync.dom d).doff) ∧
  (∃ (s : State), s.blk.tm.slewKind = .steer ∧ (s.blk.ptp.swTo = 1 ∨ s.blk.ptp.swTo = 2)) :=
  ⟨⟨(pS 1 [(LAN_D_SEL_SEL 0,2),(LAN_D_SEL_FB 0,1),(LAN_D_STAT_USEA 0,1),(LAN_D_STAT_USEB 0,1)] [] (fun b => b.mapDom 0 (fun x => {x with mB := {x.mB with lastValid := some (4000*nsUnit)}, outs := [5,7], rate := 3}))), 0, 1, 4000*nsUnit, by decide +kernel⟩,
   ⟨(pS 1 [(LAN_D_SEL_SEL 0,2),(LAN_D_STAT_USEB 0,1),(LAN_TCTL_DOM,1)] [] (fun b => b.mapDom 0 (fun x => {x with mB := {x.mB with lastValid := some (4000*nsUnit)}, outs := [5,7], rate := 3}))), 0, 1, 4000*nsUnit, by decide +kernel⟩,
   ⟨(State.reset), 1, 0, 0, by decide +kernel⟩,
   ⟨(sr []), 1, 0x30005, by decide +kernel⟩,
   ⟨(sr [(LAN_D_CFG_EN 1,1),(LAN_D_STAT_STATE 1,4),(LAN_TCTL_DOM,2)] (fun b => (b.advanceNs 500).mapDom 1 (fun x => {x with rate := 3}))), 1, 0x30004, by decide +kernel⟩,
   ⟨(sr []), 0, by decide +kernel⟩,
   ⟨(sr [(LAN_D_STAT_STATE 1,2)]), 2, 1, by decide +kernel⟩,
   ⟨(sr [(LAN_D_STAT_STATE 1,4),(LAN_ADJ_BUSY,1)]), 2, 1, by decide +kernel⟩,
   ⟨(sr [(LAN_D_STAT_STATE 1,4),(LAN_TCTL_DOM,1)] (fun b => (b.advanceNs 5000).mapDom 1 (fun x => {x with doff := 1098412116148224, rate := 1000000}))), 2, 1, by decide +kernel⟩,
   ⟨(sr [(LAN_D_STAT_STATE 1,2),(LAN_TCTL_DOM,2),(LAN_ADJ_BUSY,1),(LAN_TSW_BUSY,1)] (fun b0 => let b := b0.advanceNs 5000; {b with tm := {b.tm with slewKind := .steer, slewRem := -7516192768000}, ptp := {b.ptp with swTo := 2, slewSeen := -15032385536000}})), by decide +kernel⟩⟩

/-- The hypotheses of `CompassInputs` can be met. -/
theorem witness_CompassInputs :
  (∃ (s : State) (pps : Bool) (k : Fin 8) (f : Int), s.blk.synced = false ∧ s.blk.cps.haltAt = none ∧ s.blk.flag (CMP_IN_CFG_EN k) = true ∧ (s.blk.get (CMP_IN_CFG_SRC k) == 1) = pps ∧ freqOf (s.blk.get (CMP_IN_CFG_SRC k)) (s.blk.inp k).stamps = some f ∧ -2 ^ 31 ≤ f ∧ f < 2 ^ 31) ∧
  (∃ (s : State) (k : Fin 8), s.blk.flag (CMP_IN_CFG_EN k) = true ∧ s.blk.pllState 1 ≠ 5 ∧ s.blk.cps.haltAt = none ∧ s.blk.inState k ≠ 2 ∧ s.blk.inState k ≠ 3 ∧ s.blk.inState k ≠ 4 ∧ s.blk.selected ≠ some k.val) ∧
  (∃ (s : State) (k : Fin 8) (stamp : Int) (dt : Nat) (p : Int) (l : List Int), s.blk.synced = false ∧ s.blk.flag (CMP_IN_CFG_EN k) = true ∧ s.blk.pllState 1 ≠ 5 ∧ s.blk.cps.haltAt = none ∧ s.blk.inState k = 4 ∧ (s.blk.inp k).stamps = p :: l ∧ s.blk.isHit k (hitStep (s.blk.get (CMP_IN_CFG_SRC k)) (s.blk.inFreq k) p stamp) = true ∧ (s.blk.advanceNs dt).strikeCounts (inChan k) = true ∧ (s.blk.advanceNs dt).retires (inChan k) = false) ∧
  (∃ (s : State) (k : Fin 8), s.blk.synced = false ∧ s.blk.flag (CMP_IN_CFG_EN k) = true ∧ s.blk.pllState 1 ≠ 5 ∧ s.blk.cps.haltAt = none ∧ s.blk.inState k = 4 ∧ (s.blk.inp k).stamps = [] ∧ s.blk.selected = some k.val ∧ s.blk.cps.bridge = false ∧ s.blk.get CMP_STAT_STATE = 2) ∧
  (∃ (s : State) (k : Fin 8), s.blk.synced = false ∧ s.blk.flag (CMP_IN_CFG_EN k) = true ∧ (s.blk.inp k).absent = false ∧ s.blk.inState k = 4) ∧
  (∃ (s : State) (k : Fin 8), s.blk.flag (CMP_IN_CFG_EN k) = true ∧ (s.blk.inp k).absent = false ∧ s.blk.inState k = 3) ∧
  (∃ (s : State) (k : Fin 8) (dt : Nat), s.blk.synced = false ∧ s.blk.cps.haltAt = none ∧ (s.blk.inp k).absent = true ∧ s.blk.tm.phys + dt * nsUnit < (s.blk.inp k).absentAt + 1000000 * nsUnit ∧ s.blk.inState k = 2 ∧ (s.blk.inp k).stamps = [] ∧ s.blk.flag CMP_STAT_SWPEND = true ∧ s.blk.cps.decideAt ≠ none ∧ s.blk.cps.kindA = true ∧ s.blk.selected = some k.val ∧ s.blk.flag CMP_CFG_REVERT = false) ∧
  (∃ (s : State) (k : Fin 8) (stamp : Int) (dt : Nat) (p : Int) (l : List Int), s.blk.synced = false ∧ (s.blk.inp k).absent = true ∧ s.blk.tm.phys + dt * nsUnit < (s.blk.inp k).absentAt + 1000000 * nsUnit ∧ s.blk.inState k = 2 ∧ (s.blk.inp k).stamps = p :: l ∧ s.blk.isHit k (hitReturn (s.blk.get (CMP_IN_CFG_SRC k)) (s.blk.inFreq k) p stamp) = true ∧ (s.blk.advanceNs dt).retires (inChan k) = false) ∧
  (∃ (s : State) (k : Fin 8) (b : Block), b = s.blk.reachPhys ((s.blk.inp k).absentAt + 1000000 * nsUnit) ∧ s.blk.synced = false ∧ (s.blk.inp k).absent = true ∧ (s.blk.inState k = 2 ∨ s.blk.inState k = 3)) ∧
  (∃ (s : State) (k : Fin 8), s.blk.synced = false ∧ s.blk.inState k = 3 ∧ (s.blk.inp k).absent = false ∧ (s.blk.inFreq k).natAbs ≤ s.blk.get (CMP_IN_LIM_LIM k)) ∧
  (∃ (s : State) (k : Fin 8) (d : Half), s.blk.hostFree = true ∧ s.blk.synced = false ∧ s.blk.flag (CMP_IN_CFG_EN k) = false ∧ d.getLsbD 0 = true ∧ s.blk.inState k = 0) ∧
  (∃ (s : State) (k : Fin 8) (d : Half), s.blk.hostFree = true ∧ s.blk.synced = false ∧ s.blk.flag (CMP_IN_CFG_EN k) = true ∧ d.getLsbD 0 = false) ∧
  (∃ (s : State) (k : Fin 8), s.blk.hostFree = true ∧ s.blk.synced = false ∧ s.blk.flag (CMP_IN_STAT_RETIRED k) = true) :=
  ⟨⟨(cS [(CMP_IN_STAT_STATE 2,1),(CMP_IN_CFG_SRC 2,1)] id (fun x => {x with stamps := (List.range 16).map (fun (i:Nat) => (16-i:Int)*(10^15+10^9)), absent := false})), true, 2, ((freqOf 1 ((List.range 16).map (fun (i:Nat) => (16-i:Int)*(10^15+10^9)))).get!), by decide +kernel⟩,
   ⟨(cS [(CMP_IN_STAT_STATE 2,1),(CMP_IN_CFG_SRC 2,2),(CMP_STAT_SEL,15)]), 2, by decide +kernel⟩,
   ⟨(cS ([(CMP_IN_STAT_STATE 2,4),(CMP_IN_CFG_SRC 2,2),(CMP_STAT_SEL,15),(CMP_STAT_STATE,2)]) id (fun x => {x with stamps := [0], absent := false}) (stk6 1)), 2, 13000000000, 50, 0, [], by decide +kernel⟩,
   ⟨(cS ([(CMP_IN_STAT_STATE 2,4),(CMP_IN_CFG_SRC 2,2),(CMP_STAT_SEL,2),(CMP_STAT_STATE,2),(CMP_STAT_STAGE,2)])), 2, by decide +kernel⟩,
   ⟨(cS ([(CMP_IN_STAT_STATE 2,4),(CMP_IN_CFG_SRC 2,2),(CMP_STAT_SEL,15),(CMP_STAT_STATE,2)]) id (fun x => {x with absent := false})), 2, by decide +kernel⟩,
   ⟨(cS ([(CMP_IN_STAT_STATE 2,3)]) id (fun x => {x with absent := false})), 2, by decide +kernel⟩,
   ⟨(cS ([(CMP_IN_STAT_STATE 2,2),(CMP_STAT_SEL,2),(CMP_STAT_STATE,2),(CMP_STAT_SWPEND,1),(CMP_STAT_TARGET,14)] ++ q 3 0 9000000) (fun c => {c with decideAt := some (4999900000*nsUnit), kindA := true, bridge := true}) (fun x => {x with absentAt := 4999900000*nsUnit})), 2, 50, by decide +kernel⟩,
   ⟨(cS ([(CMP_IN_STAT_STATE 2,2),(CMP_IN_CFG_SRC 2,2),(CMP_STAT_SEL,2),(CMP_STAT_STATE,2),(CMP_IN_CFG_PHIT 2,1)] ++ q 3 0 9000000) id (fun x => {x with absentAt := 4999900000*nsUnit, stamps := [0]})), 2, 3000000, 50, 0, [], by decide +kernel⟩,
   ⟨(cS ([(CMP_IN_STAT_STATE 2,3),(CMP_STAT_SEL,15),(CMP_STAT_STATE,2),(SYS_STRIKES_THRESH 6,9)] ++ q 3 0) id (fun x => {x with absentAt := 4999900000*nsUnit}) (stk6 1)), 2, ((cS ([(CMP_IN_STAT_STATE 2,3),(CMP_STAT_SEL,15),(CMP_STAT_STATE,2),(SYS_STRIKES_THRESH 6,9)] ++ q 3 0) id (fun x => {x with absentAt := 4999900000*nsUnit}) (stk6 1)).blk.reachPhys ((4999900000+1000000)*nsUnit)), by decide +kernel⟩,
   ⟨(cS ([(CMP_IN_STAT_STATE 2,3)] ++ (q 3 0 9000000 ++ q 4 0 5000000)) id (fun x => {x with absent := false, qualAt := 4000000000*nsUnit})), 2, by decide +kernel⟩,
   ⟨(cS ([(CMP_IN_CFG_EN 2,0),(CMP_IN_STAT_RETIRED 2,1)])), 2, 0x177707, by decide +kernel⟩,
   ⟨(cS ([(CMP_IN_STAT_STATE 2,4),(CMP_STAT_SEL,15),(CMP_STAT_STATE,2)] ++ q 3 0)), 2, 0x102, by decide +kernel⟩,
   ⟨(cS ([(CMP_IN_STAT_STATE 2,6),(CMP_IN_STAT_RETIRED 2,1)]) id id (fun b => {stk6 2 b with retired := [inChan 2], retRec := [inChan 2]})), 2, by decide +kernel⟩⟩

/-- The hypotheses of `CompassSteering` can be met. -/
theorem witness_CompassSteering :
  (∃ (s : State), s.blk.synced = false ∧ s.blk.cps.haltAt = none ∧ s.blk.flag CMP_STAT_SWPEND = false ∧ s.blk.selected = none ∧ s.blk.candidates ≠ [] ∧ s.blk.concerned (s.blk.topRank s.blk.candidates) = []) ∧
  (∃ (s : State) (k : Fin 8), s.blk.synced = false ∧ s.blk.cps.haltAt = none ∧ s.blk.flag CMP_STAT_SWPEND = false ∧ s.blk.selected = some k.val ∧ s.blk.inState k = 4 ∧ s.blk.flag CMP_CFG_REVERT = false ∧ s.blk.concerned (s.blk.topRank s.blk.candidates) = []) ∧
  (∃ (s : State) (k : Fin 8), s.blk.synced = false ∧ s.blk.cps.haltAt = none ∧ s.blk.flag CMP_STAT_SWPEND = false ∧ s.blk.selected = some k.val ∧ s.blk.inState k ≠ 4 ∧ s.blk.candidates = []) ∧
  (∃ (s : State) (u : Nat) (k : Fin 8), s.blk.synced = false ∧ s.blk.cps.haltAt = none ∧ s.blk.cps.decideAt = some u ∧ s.blk.flag CMP_STAT_SWPEND = true ∧ s.blk.get CMP_STAT_TARGET = k.val) ∧
  (∃ (s : State) (u : Nat), s.blk.synced = false ∧ s.blk.cps.haltAt = none ∧ s.blk.cps.decideAt = some u ∧ s.blk.flag CMP_STAT_SWPEND = true ∧ s.blk.get CMP_STAT_TARGET = 0xE) ∧
  (∃ (s : State) (k : Fin 8), s.blk.synced = false ∧ s.blk.cps.haltAt = none ∧ s.blk.get CMP_STAT_STATE = 1 ∧ s.blk.selected = some k.val ∧ s.blk.inState k = 4) ∧
  (∃ (s : State) (u : Nat), s.blk.synced = false ∧ s.blk.cps.haltAt = none ∧ s.blk.cps.dwellAt = some u ∧ s.blk.cps.bridge = false ∧ (s.blk.get CMP_STAT_STATE = 1 ∧ s.blk.get CMP_STAT_STAGE = 0 ∨ s.blk.get CMP_STAT_STATE = 2 ∧ s.blk.get CMP_STAT_STAGE = 1 ∨
      s.blk.get CMP_STAT_STATE = 2 ∧ s.blk.get CMP_STAT_STAGE = 2 ∧ s.blk.flag TIC_STAT_WARM = true)) ∧
  (∃ (s : State), s.blk.synced = false ∧ s.blk.cps.haltAt = none ∧ s.blk.get CMP_STAT_STATE = 3 ∧ s.blk.get CMP_HCFG_MAXT ≠ 0) ∧
  (∃ (s : State) (y : Int), s.blk.cps.stage3At ≠ none ∧ s.blk.get CMP_STAT_STATE = 2 ∧ meanOf ((s.blk.cps.hist.filter (fun p =>
      (s.blk.reachPhys (s.blk.cps.hourAt + 3600 * 10 ^ 9 * nsUnit)).nowSec ≤ p.1 + 3600)).map (·.2)) = some y) ∧
  (∃ (s : State), s.blk.synced = false ∧ s.blk.cps.haltAt = none ∧ s.blk.get CMP_STAT_STATE = 3) ∧
  (∃ (s : State), s.blk.synced = false ∧ s.blk.cps.haltAt = none ∧ s.blk.get CMP_STAT_STATE = 0) :=
  ⟨⟨(cS (q 3 1 ++ q 5 1 50 ++ q 6 9 ++ [(CMP_STAT_SEL,15)])), by decide +kernel⟩,
   ⟨(cS (q 3 1 ++ q 5 1 50 ++ q 6 0 ++ [(CMP_STAT_SEL,3),(CMP_STAT_STATE,2)])), 3, by decide +kernel⟩,
   ⟨(cS ([(CMP_STAT_SEL,2),(CMP_IN_STAT_STATE 2,2),(CMP_STAT_STATE,2)])), 2, by decide +kernel⟩,
   ⟨(cS (q 3 1 ++ q 5 1 50 ++ q 6 0 ++ [(CMP_STAT_SEL,15),(CMP_STAT_STATE,4),(CMP_STAT_STAGE,2),(CMP_STAT_SWPEND,1),(CMP_STAT_TARGET,3)]) (fun c => {c with decideAt := some (4999900000*nsUnit)}) id (fun b => b.mapIn 3 (fun x => {x with phase := 47000000}))), 4999900000*nsUnit, 3, by decide +kernel⟩,
   ⟨(cS ([(CMP_STAT_SEL,2),(CMP_STAT_STATE,2),(CMP_STAT_HVALID,1),(CMP_STAT_SWPEND,1),(CMP_STAT_TARGET,14)]) (fun c => {c with decideAt := some (4999900000*nsUnit)})), 4999900000*nsUnit, by decide +kernel⟩,
   ⟨(cS (q 3 1 ++ [(CMP_STAT_SEL,3),(CMP_STAT_STATE,1)])), 3, by decide +kernel⟩,
   ⟨(cS (q 3 1 ++ [(CMP_STAT_SEL,3),(CMP_STAT_STATE,2),(CMP_STAT_STAGE,2),(TIC_STAT_WARM,1)]) (fun c => {c with dwellAt := some (4999900000*nsUnit)})), 4999900000*nsUnit, by decide +kernel⟩,
   ⟨(cS [(CMP_STAT_STATE,3),(CMP_HCFG_MAXT,7)]), by decide +kernel⟩,
   ⟨(cS [(CMP_STAT_STATE,2)] (fun c => {c with stage3At := some 5, hourAt := 7*nsUnit, hist := [(5,7),(6,8)]})), 7, by decide +kernel⟩,
   ⟨(cS [(CMP_STAT_STATE,3),(CMP_STAT_HVALID,1)] (fun c => {c with hist := [(5,7),(6,8)], lastSec := 9})), by decide +kernel⟩,
   ⟨(cS [(CMP_FRTRIM_TRIM,99)]), by decide +kernel⟩⟩

/-- The hypotheses of `PulseOutputs` can be met. -/
theorem witness_PulseOutputs :
  (∃ (s : State) (j : Fin 6) (d : Half), s.blk.hostFree = true ∧ s.blk.synced = false ∧ s.blk.flag (PIO_OUT_CTL_EN j) = false ∧ d.getLsbD 0 = true ∧ 0 < s.blk.outPer j) ∧
  (∃ (s : State) (j : Fin 6) (d : Half), s.blk.hostFree = true ∧ s.blk.synced = false ∧ s.blk.flag (PIO_OUT_CTL_EN j) = true ∧ d.getLsbD 0 = false) ∧
  (∃ (s : State) (src : Fin 6) (j : Fin 6), (1 ≤ src.val → src.val ≤ 4 → s.blk.get (ENC_CFG_MODE (src.val - 1)) = 2) ∧ s.blk.flag (PIO_OUT_CTL_EN j) = true ∧ s.blk.flag (PIO_OUT_CTL_MODE j) = true ∧ s.blk.get (PIO_OUT_CTL_ASRC j) = src.val ∧ 0 < s.blk.outPer j) ∧
  (∃ (s : State) (j : Fin 6) (u : Nat), (s.blk.outp j).anchorAt = some u ∧ s.blk.flag (PIO_OUT_STAT_ALIGNED j) = true) ∧
  (∃ (s : State) (j : Fin 6) (d : Half), s.blk.hostFree = true ∧ s.blk.synced = false ∧ d.getLsbD 41 = true ∧ d.getLsbD 40 = false ∧ s.blk.flag (PIO_OUT_STEP_PEND j) = false) ∧
  (∃ (s : State) (j : Fin 6) (d : Half), s.blk.hostFree = true ∧ s.blk.synced = false ∧ d.getLsbD 41 = true ∧ (d.getLsbD 40 = true ∨ s.blk.flag (PIO_OUT_STEP_PEND j) = true)) ∧
  (∃ (s : State), s.blk.hostFree = true ∧ s.blk.synced = false) ∧
  (∃ (s : State) (j : Fin 6) (n : Int), (s.blk.outp j).next = some n ∧ (s.blk.outp j).ending = false ∧ s.blk.clk.res = 0 ∧ s.blk.flag (PIO_OUT_CTL_TRACK j) = false ∧ 0 < s.blk.outPer j ∧ (∀ i : Fin 6, s.blk.flag (PIO_OUT_STEP_PEND i) = false)) ∧
  (∃ (s : State) (n : Int), (s.blk.outp 4).next = some n ∧ (s.blk.outp 4).ending = false) :=
  ⟨⟨(oS 5 [(PIO_OUT_CTL_TRACK 5,1)] id (fun b => {b with clk := {b.clk with res := 5000}})), 5, 0x63, by decide +kernel⟩,
   ⟨(oS 2 [(PIO_OUT_CTL_EN 2,1),(PIO_OUT_STAT_RUN 2,1),(PIO_OUT_CTL_MODE 2,1)] (fun x => {x with next := some (500100*nsUnit), last := some (3*nsUnit)})), 2, 2, by decide +kernel⟩,
   ⟨(oS 2 [(PIO_OUT_CTL_EN 2,1),(PIO_OUT_CTL_MODE 2,1),(PIO_OUT_CTL_ASRC 2,3),(ENC_CFG_MODE 2,2)] (fun x => {x with next := some (500049*nsUnit), last := some (499950*nsUnit)})), 3, 2, by decide +kernel⟩,
   ⟨(oS 2 [(PIO_OUT_STAT_ALIGNED 2,1)] (fun x => {x with anchorAt := some 77})), 2, 77, by decide +kernel⟩,
   ⟨(oS 2 [(PIO_OUT_CTL_MODE 2,1)] (fun x => {x with next := some (500100*nsUnit)})), 2, 0x20000000055, by decide +kernel⟩,
   ⟨(oS 2 [(PIO_OUT_CTL_MODE 2,1),(PIO_OUT_STEP_PEND 2,1)]), 2, 0x20000000055, by decide +kernel⟩,
   ⟨(oS 2 [(PIO_OUT_STAT_DROP 2,9)]), by decide +kernel⟩,
   ⟨(oS 4 [(PIO_OUT_CTL_TRACK 4,0)] (fun x => {x with next := some (500100*nsUnit)})), 4, 500100*nsUnit, by decide +kernel⟩,
   ⟨(oS 4 [(PIO_OUT_STEP_PEND 4,1),(PIO_OUT_STEP_PEND 1,1)] (fun x => {x with next := some (500100*nsUnit)})), 500100*nsUnit, by decide +kernel⟩⟩

/-- The hypotheses of `ClockTree` can be met. -/
theorem witness_ClockTree :
  (∃ (s : State) (p : Fin 3) (temp : Int) (k : Fin 16), s.blk.pllState p = 1 ∧ (s.blk.pll p).noband = false ∧ s.blk.bandOk p temp k = true ∧ (∀ i < k.val, s.blk.bandOk p temp i = false)) ∧
  (∃ (s : State) (p : Fin 3) (temp : Int), s.blk.pllState p = 1 ∧ (s.blk.pll p).noband = false ∧ (∀ i < 16, s.blk.bandOk p temp i = false)) ∧
  (∃ (s : State) (p : Fin 3), (s.blk.pll p).noband = true ∧ s.blk.pllState p = 1) ∧
  (∃ (s : State) (p : Fin 3), s.blk.pllState p = 2) ∧
  (∃ (s : State) (p : Fin 3), s.blk.pllState p = 2) ∧
  (∃ (s : State) (p : Fin 3), s.blk.pllState p = 3) ∧
  (∃ (s : State) (p : Fin 3), s.blk.pllState p = 4) ∧
  (∃ (s : State) (p : Fin 3), s.blk.pllState p = 4) ∧
  (∃ (s : State), s.blk.hostFree = true ∧ s.blk.pllState 0 = 4) ∧
  (∃ (s : State), s.blk.hostFree = true ∧ s.blk.pllState 0 ≠ 4) ∧
  (∃ (s : State), s.blk.hostFree = true ∧ s.blk.fullAllowed = true) ∧
  (∃ (s : State), s.blk.hostFree = true ∧ s.blk.fullAllowed = false) ∧
  (∃ (s : State) (p : Fin 3), s.blk.pllState p = 5) ∧
  (∃ (s : State), (s.blk.clk.res = 0 ∨ s.blk.mainHeld = true)) ∧
  (∃ (s : State), s.blk.clk.res ≠ 0 ∧ s.blk.mainHeld = false) ∧
  (∃ (s : State), s.blk.hostFree = true ∧ s.blk.coreOk = true) ∧
  (∃ (s : State) (p : Fin 3) (tune : BitVec 10), s.blk.pllState p = 4 ∧ (tune.toNat ≤ 32 ∨ 991 ≤ tune.toNat)) :=
  ⟨⟨(kS 1 1 kb (fun x => {x with failed := 4})), 1, -3, 3, by decide +kernel⟩,
   ⟨(kS 1 1 kb), 1, 100, by decide +kernel⟩,
   ⟨(kS 1 1 [] (fun x => {x with noband := true, since := 77, failed := 9})), 1, by decide +kernel⟩,
   ⟨(kS 1 2), 1, by decide +kernel⟩,
   ⟨(kS 1 2 [(pllField 1 3 4,3)]), 1, by decide +kernel⟩,
   ⟨(kS 2 3 [(CLK_OUTEN_EN,0x7FF)]), 2, by decide +kernel⟩,
   ⟨(kS 2 4 [] id (fun b => {b with cal := {b.cal with run := some ⟨1,2⟩, queue := [⟨3,2⟩,⟨0,1⟩]}})), 2, by decide +kernel⟩,
   ⟨(kS 2 4 [] id (fun b => {b with cal := {b.cal with run := some ⟨1,2⟩, queue := [⟨3,2⟩,⟨0,1⟩]}})), 2, by decide +kernel⟩,
   ⟨(kS 0 4), by decide +kernel⟩,
   ⟨(kS 0 3), by decide +kernel⟩,
   ⟨(kS 0 4 [(CLK_OUTSTAT_RUN,0x7FF),(ENC_CFG_MODE 1,1),(ENC_STAT_LINE 1,1),(PIO_OUT_STAT_RUN 3,1)] id (fun b => b.mapOut 3 (fun x => {x with next := some 5}))), by decide +kernel⟩,
   ⟨(kS 0 4 [(SYS_CYCLE_RUN,1)]), by decide +kernel⟩,
   ⟨(kS 2 5 [] id (fun b => {b with cps := {b.cps with haltAt := some 5}})), 2, by decide +kernel⟩,
   ⟨(sr [(CLK_MAINSTAT_STATE,5)] (fun b => {b with clk := {b.clk with res := 77}})), by decide +kernel⟩,
   ⟨(kS 0 4 [] id (fun b => {b with clk := {b.clk with res := -70000001, resAt := 77*nsUnit}})), by decide +kernel⟩,
   ⟨(kS 2 4 [(CLK_OUTSTAT_RUN,0x5FF),(CLK_OUTEN_EN,0x5FF),(PWR_STAT_DOMON,0),(MAC_STAT_LINK 32,1),(MAC_CTL_EN 32,1),(SWC_PORT_STAT_UP 33,1),(SWC_PORT_CTL_EN 33,1)] id (fun b => (b.mapOut 3 (fun x => {x with next := some 5})))), by decide +kernel⟩,
   ⟨(kS 1 4), 1, 1023, by decide +kernel⟩⟩

/-- The hypotheses of `TimeMeasurement` can be met. -/
theorem witness_TimeMeasurement :
  (∃ (s : State) (d : Half), s.blk.hostFree = true ∧ d.getLsbD 0 = true ∧ d.getLsbD 1 = true ∧ s.blk.flag TIC_STAT_BUSY = false ∧ d.toNat / 8 % 16 < 11 ∧ 1 ≤ d.toNat / 2 ^ 20 % 16 ∧ d.toNat / 2 ^ 20 % 16 ≤ 8 ∧ 1 ≤ d.toNat / 2 ^ 24 % 2 ^ 14 ∧ d.toNat / 2 ^ 24 % 2 ^ 14 ≤ 10000) ∧
  (∃ (s : State) (d : Half), s.blk.hostFree = true ∧ d.getLsbD 0 = true ∧ s.blk.flag TIC_STAT_BUSY = true) ∧
  (∃ (s : State) (d : Half), s.blk.hostFree = true ∧ d.getLsbD 0 = true ∧ d.getLsbD 1 = true ∧ d.getLsbD 2 = false ∧ s.blk.flag TIC_STAT_BUSY = false ∧ d.toNat / 8 % 16 = 11 ∧ before s.blk.stw (s.blk.reg TIC_ARMAT) = false ∧ s.blk.pllState 1 ≠ 5) ∧
  (∃ (s : State) (d : Half), s.blk.hostFree = true ∧ d.getLsbD 0 = true ∧ d.getLsbD 2 = true ∧ d.toNat / 8 % 16 = 11) ∧
  (∃ (s : State) (src : Fin 11) (f : Bool), s.blk.get TIC_CTL_SSRC = src.val ∧ s.blk.flag TIC_CTL_SFALL = f ∧ s.blk.flag TIC_STAT_BUSY = true ∧ s.blk.tic.start = none ∧ s.blk.tic.held = none ∧ s.blk.tic.rearm = false ∧ s.blk.pllState 1 ≠ 5) ∧
  (∃ (s : State), s.blk.get TIC_CTL_SSRC = 11 ∧ s.blk.flag TIC_STAT_BUSY = true ∧ s.blk.tic.start = none ∧ s.blk.tic.held = none ∧ s.blk.tic.rearm = false ∧ s.blk.pllState 1 ≠ 5) ∧
  (∃ (s : State) (src : Fin 12) (f : Bool), s.blk.get TIC_CTL_SSRC = src.val ∧ (src.val = 11 ∨ s.blk.flag TIC_CTL_SFALL = f) ∧ s.blk.tic.rearm = true) ∧
  (∃ (s : State) (src : Fin 11) (f : Bool) (n : BitVec 48) (c : BitVec 12) (t0 : Int), s.blk.tic.start = some t0 ∧ bitAt (s.blk.get TIC_CTL_STOPS) src = true ∧ s.blk.flag TIC_CTL_PFALL = f ∧ ocxoDiff (s.blk.edgeTime n c - s.blk.geti (TIC_CHOFS_OFS src) * 2 ^ 20) s.blk.tic.prev < 5000 * 2 ^ 20) ∧
  (∃ (s : State) (src : Fin 11) (f : Bool) (n : BitVec 48) (c : BitVec 12) (t0 : Int), s.blk.tic.start = some t0 ∧ bitAt (s.blk.get TIC_CTL_STOPS) src = true ∧ s.blk.flag TIC_CTL_PFALL = f ∧ s.blk.pllState 1 ≠ 5 ∧ 5000 * 2 ^ 20 ≤ ocxoDiff (s.blk.edgeTime n c - s.blk.geti (TIC_CHOFS_OFS src) * 2 ^ 20) s.blk.tic.prev ∧ s.blk.tic.stops.length + 1 < s.blk.get TIC_CTL_NSTOP) ∧
  (∃ (s : State) (src : Fin 11) (f : Bool) (n : BitVec 48) (c : BitVec 12) (t0 : Int), s.blk.tic.start = some t0 ∧ bitAt (s.blk.get TIC_CTL_STOPS) src = true ∧ s.blk.flag TIC_CTL_PFALL = f ∧ s.blk.pllState 1 ≠ 5 ∧ 5000 * 2 ^ 20 ≤ ocxoDiff (s.blk.edgeTime n c - s.blk.geti (TIC_CHOFS_OFS src) * 2 ^ 20) s.blk.tic.prev ∧ s.blk.tic.stops.length + 1 = s.blk.get TIC_CTL_NSTOP ∧ s.blk.tic.queue.length < 4) ∧
  (∃ (s : State) (t0 : Int), s.blk.tic.start = some t0) ∧
  (∃ (s : State) (src : Fin 11) (f : Bool) (n : BitVec 48) (c : BitVec 12) (t0 : Int), s.blk.tic.start = some t0 ∧ bitAt (s.blk.get TIC_CTL_STOPS) src = true ∧ s.blk.flag TIC_CTL_PFALL = f ∧ s.blk.pllState 1 = 5 ∧ 5000 * 2 ^ 20 ≤ ocxoDiff (s.blk.edgeTime n c - s.blk.geti (TIC_CHOFS_OFS src) * 2 ^ 20) s.blk.tic.prev ∧ s.blk.tic.queue.length < 4) ∧
  (∃ (s : State), s.blk.hostFree = true ∧ s.blk.flag TIC_CTL_EN = true ∧ s.blk.tic.start = none ∧ s.blk.tic.held = none) ∧
  (∃ (s : State) (t0 : Int), s.blk.hostFree = true ∧ s.blk.flag TIC_CTL_EN = true ∧ s.blk.tic.start = some t0 ∧ s.blk.tic.queue.length < 4) ∧
  (∃ (s : State) (r0 : TicRec) (r : TicRec) (l : List TicRec), s.blk.hostFree = true ∧ s.blk.tic.queue = r0 :: r :: l ∧ l.length ≤ 2 ∧ s.blk.tic.held = none ∧ s.blk.tic.rearm = false ∧ r.status < 8 ∧ r.srcs.length ≤ 8 ∧ r.ints.length ≤ 8 ∧ (∀ x ∈ r.srcs, x < 16) ∧ (∀ x ∈ r.ints, x < 2 ^ 50)) ∧
  (∃ (s : State) (r0 : TicRec), s.blk.hostFree = true ∧ s.blk.tic.queue = [r0] ∧ s.blk.tic.held = none ∧ s.blk.tic.rearm = false) ∧
  (∃ (s : State) (r0 : TicRec) (r1 : TicRec) (r2 : TicRec) (r3 : TicRec) (r : TicRec), s.blk.hostFree = true ∧ s.blk.tic.queue = [r0, r1, r2, r3] ∧ s.blk.tic.held = some r ∧ s.blk.tic.rearm = false) ∧
  (∃ (s : State), s.blk.hostFree = true) ∧
  (∃ (s : State) (w : Bool), s.blk.flag TIC_STAT_WARM ≠ w) :=
  ⟨⟨(tS [(TIC_STAT_RUNNING,1)] (fun x => {x with startW := 555, prev := 5000, cold := true, startAt := 700000, seq := 65535, queue := [rec 0,rec 1,rec 2,rec 3], rearm := false})), (0x3+8*5+2^7+2^8*0x7A5+2^19+2^20*8+2^24*10000+4), by decide +kernel⟩,
   ⟨(tS [(TIC_STAT_BUSY,1),(TIC_CTL_EN,1)] (fun x => {x with start := some 1000, startW := 555, prev := 5000, cold := true, startAt := 700000, seq := 65535})), (0x3+8*5+2^7+2^8*0x7A5+2^19+2^20*8+2^24*10000+4), by decide +kernel⟩,
   ⟨(tS [] (fun x => {x with queue := [rec 0,rec 1]})), (3+8*11+2^20*9), by decide +kernel⟩,
   ⟨(sr [(TIC_CTL_SSRC,11)]), (7+8*11+2^24), by decide +kernel⟩,
   ⟨(tS [(TIC_STAT_BUSY,1),(TIC_CTL_SSRC,10),(TIC_CTL_SFALL,1),(TIC_CHOFS_OFS 10,555),(TIC_STAT_WARM,1)] (fun x => {x with turn := true})), 10, true, by decide +kernel⟩,
   ⟨(tS [(TIC_STAT_BUSY,1),(TIC_CTL_SSRC,11),(TIC_ARMAT_STW,(510000*2^16))]), by decide +kernel⟩,
   ⟨(tS [(TIC_CTL_SSRC,3),(TIC_CTL_SFALL,1),(TIC_STAT_MISSED,255)] (fun x => {x with rearm := true})), 3, true, by decide +kernel⟩,
   ⟨(tS [(TIC_CTL_STOPS,0x408),(TIC_CTL_PFALL,1),(TIC_STAT_CLOSE,255),(TIC_CHOFS_OFS 10,7)] (fun x => { {x with start := some 1000, startW := 555, prev := 5000, cold := true, startAt := 700000, seq := 65535} with prev := 1000000*coarse})), 10, true, 1000003, 3000, 1000, by decide +kernel⟩,
   ⟨(tS [(TIC_CTL_STOPS,0x408),(TIC_CTL_PFALL,1),(TIC_CTL_NSTOP,3),(TIC_CHOFS_OFS 10,7)] (fun x => {x with start := some 1000, startW := 555, prev := 5000, cold := true, startAt := 700000, seq := 65535, stops := [(3,99)], turn := true})), 10, true, 7, 3000, 1000, by decide +kernel⟩,
   ⟨(tS [(TIC_CTL_EN,1),(TIC_CTL_REPEAT,1),(TIC_CTL_STOPS,0x408),(TIC_CTL_PFALL,1),(TIC_CTL_NSTOP,2),(TIC_CHOFS_OFS 10,7),(TIC_STAT_BUSY,1)] (fun x => {x with start := some 1000, startW := 555, prev := 5000, cold := true, startAt := 700000, seq := 65535, stops := [(3,99)], turn := true, rearm := false, queue := [rec 0,rec 1,rec 2]})), 10, true, 1000003, 3000, 1000, by decide +kernel⟩,
   ⟨(tS [(TIC_CTL_EN,1),(TIC_CTL_REPEAT,1),(TIC_STAT_BUSY,1)] (fun x => {x with start := some 1000, startW := 555, prev := 5000, cold := true, startAt := 700000, seq := 65535, stops := [(3,99)], turn := true, queue := [rec 0,rec 1,rec 2,rec 3]})), 1000, by decide +kernel⟩,
   ⟨(tS [(TIC_CTL_STOPS,0x408),(TIC_CTL_PFALL,1),(TIC_CTL_NSTOP,2),(TIC_CHOFS_OFS 10,7),(TIC_STAT_BUSY,1),(pllField 1 0 3,5)] (fun x => {x with start := some 1000, startW := 555, prev := 5000, cold := true, startAt := 700000, seq := 65535, stops := [(3,99)]})), 10, true, 1000003, 3000, 1000, by decide +kernel⟩,
   ⟨(tS [(TIC_CTL_EN,1),(TIC_STAT_BUSY,1)] (fun x => {x with rearm := false, queue := [rec 0]})), by decide +kernel⟩,
   ⟨(tS [(TIC_CTL_EN,1),(TIC_STAT_BUSY,1),(TIC_CTL_REPEAT,1)] (fun x => {x with start := some 1000, startW := 555, prev := 5000, cold := true, startAt := 700000, seq := 65535, stops := [(3,99)], rearm := false, queue := [rec 0]})), 1000, by decide +kernel⟩,
   ⟨(tS [] (fun x => {x with queue := [rec 2,⟨7,false,65535,2^72-1,[10,15,1,2,3,4,5,15],[2^50-1,3,4,5,6,7,8,2^50-1]⟩]})), (rec 2), ⟨7,false,65535,2^72-1,[10,15,1,2,3,4,5,15],[2^50-1,3,4,5,6,7,8,2^50-1]⟩, [], by decide +kernel⟩,
   ⟨(tS [(TIC_STAT_RCNT,1)] (fun x => {x with queue := [rec 1]})), (rec 1), by decide +kernel⟩,
   ⟨(tS [(TIC_STAT_BUSY,1),(TIC_CTL_REPEAT,1),(TIC_CTL_EN,1)] (fun x => { {x with start := some 1000, startW := 555, prev := 5000, cold := true, startAt := 700000, seq := 65535} with start := none, queue := [rec 0,rec 1,rec 2,rec 3], held := some (rec 9)})), (rec 0), (rec 1), (rec 2), (rec 3), (rec 9), by decide +kernel⟩,
   ⟨(tS [(TIC_STAT_MISSED,9),(TIC_STAT_CLOSE,8)]), by decide +kernel⟩,
   ⟨(tS [(TIC_STAT_WARM,0)] id (fun b => {b with cps := {b.cps with stage3At := some 5}})), true, by decide +kernel⟩⟩

/-- The hypotheses of `Calibration` can be met. -/
theorem witness_Calibration :
  (∃ (s : State) (d : Half) (j : CalJob) (e : Nat), s.blk.hostFree = true ∧ d.getLsbD 10 = true ∧ d.toNat % 16 = j.kind ∧ d.toNat / 16 % 64 = j.unit ∧ unitOk j = true ∧ s.blk.testOk j = true ∧ s.blk.flag CAL_CTL_EN = true ∧ s.blk.cal.run = none ∧ s.blk.cal.queue = [] ∧ s.blk.spareOf j = some e ∧ s.blk.swapWaits j = false ∧ s.blk.sliceWaits j = false) ∧
  (∃ (s : State) (d : Half) (j : CalJob), s.blk.hostFree = true ∧ d.getLsbD 10 = true ∧ d.toNat % 16 = j.kind ∧ d.toNat / 16 % 64 = j.unit ∧ unitOk j = true ∧ s.blk.testOk j = true ∧ s.blk.flag CAL_CTL_EN = true ∧ s.blk.cal.run = none ∧ s.blk.cal.queue = [] ∧ (s.blk.swapWaits j = true ∨ s.blk.sliceWaits j = true)) ∧
  (∃ (s : State) (d : Half) (j : CalJob) (q : CalJob), s.blk.hostFree = true ∧ d.getLsbD 10 = true ∧ d.toNat % 16 = j.kind ∧ d.toNat / 16 % 64 = j.unit ∧ unitOk j = true ∧ s.blk.testOk j = true ∧ s.blk.flag CAL_CTL_EN = true ∧ s.blk.cal.run = some q ∧ q ≠ j ∧ j ∉ s.blk.cal.queue ∧ s.blk.cal.queue.length < 4) ∧
  (∃ (s : State) (d : Half) (j : CalJob), s.blk.hostFree = true ∧ d.getLsbD 10 = true ∧ d.toNat % 16 = j.kind ∧ j.kind ≤ 5 ∧ d.toNat / 16 % 64 = j.unit ∧ (s.blk.flag CAL_CTL_EN = false ∨ 4 ≤ s.blk.cal.queue.length ∨ j ∈ s.blk.cal.queue ∨ s.blk.cal.run = some j ∨
      s.blk.testOk j = false)) ∧
  (∃ (s : State) (d : Half) (j : CalJob), s.blk.hostFree = true ∧ d.getLsbD 10 = true ∧ d.toNat % 16 = j.kind ∧ d.toNat / 16 % 64 = j.unit ∧ unitOk j = true ∧ s.blk.flag CAL_CTL_EN = true ∧ s.blk.cal.run = none ∧ s.blk.cal.queue = [] ∧ s.blk.spareOf j = none ∧ s.blk.swapWaits j = false) ∧
  (∃ (s : State) (u : Fin 16) (e : Fin 16) (old : Fin 16) (cmin : BitVec 12) (cmax : BitVec 12) (lsb : Nat) (ofs : Int), s.blk.cal.run = some ⟨0, u⟩ ∧ s.blk.cal.elem = e ∧ s.blk.cal.queue = [] ∧ s.blk.pllState 1 ≠ 5 ∧ u.val < 14 ∧ s.blk.flag SYS_CYCLE_RUN = false ∧ s.blk.cal.dly = none ∧ s.blk.cal.swap = [] ∧ cmin ≤ cmax ∧ lsb = 2500 * 2 ^ 20 / (cmax.toNat + 1 - cmin.toNat) ∧ 11 * 2 ^ 20 ≤ 10 * lsb ∧ 10 * lsb ≤ 13 * 2 ^ 20 ∧ ofs = (1250 * 2 ^ 10 * ((cmax.toNat + 1 - cmin.toNat : Nat) : Int) - 2500 * 2 ^ 10 * cmin.toNat) /
      (cmax.toNat + 1 - cmin.toNat : Nat) ∧ 150 * 2 ^ 10 ≤ ofs ∧ ofs ≤ 300 * 2 ^ 10 ∧ s.blk.get (CAL_TAC_ROLE old) = u.val ∧ (∀ i < 16, i < old.val → s.blk.get (CAL_TAC_ROLE i) ≠ u.val) ∧ e ≠ old) ∧
  (∃ (s : State) (u : Fin 16) (e : Fin 16) (cmin : BitVec 12) (cmax : BitVec 12) (lsb : Nat) (ofs : Int), s.blk.cal.run = some ⟨0, u⟩ ∧ s.blk.cal.elem = e ∧ s.blk.cal.queue = [] ∧ s.blk.pllState 1 ≠ 5 ∧ u.val < 14 ∧ s.blk.flag SYS_CYCLE_RUN = true ∧ cmin ≤ cmax ∧ lsb = 2500 * 2 ^ 20 / (cmax.toNat + 1 - cmin.toNat) ∧ 11 * 2 ^ 20 ≤ 10 * lsb ∧ 10 * lsb ≤ 13 * 2 ^ 20 ∧ ofs = (1250 * 2 ^ 10 * ((cmax.toNat + 1 - cmin.toNat : Nat) : Int) - 2500 * 2 ^ 10 * cmin.toNat) /
      (cmax.toNat + 1 - cmin.toNat : Nat) ∧ 150 * 2 ^ 10 ≤ ofs ∧ ofs ≤ 300 * 2 ^ 10) ∧
  (∃ (s : State) (j : CalJob) (e : Nat) (cmin : BitVec 12) (cmax : BitVec 12) (missing : Bool) (lsb : Nat), s.blk.cal.run = some j ∧ s.blk.cal.elem = e ∧ e < 16 ∧ j.kind = 0 ∧ j.unit < 14 ∧ s.blk.cal.queue = [] ∧ s.blk.pllState 1 ≠ 5 ∧ s.blk.cal.swap = [] ∧ s.blk.cal.dly = none ∧ lsb = 2500 * 2 ^ 20 / (cmax.toNat + 1 - cmin.toNat) ∧ (10 * lsb < 11 * 2 ^ 20 ∨ 13 * 2 ^ 20 < 10 * lsb ∨ cmax < cmin ∨ missing = true)) ∧
  (∃ (s : State) (u : Fin 6) (l : Fin 12) (step : BitVec 16) (ofs : Int) (resid : Nat), s.blk.cal.run = some ⟨1, u⟩ ∧ s.blk.cal.elem = 16 + l.val ∧ l.val / 2 = u.val ∧ s.blk.cal.queue = [] ∧ s.blk.pllState 1 ≠ 5 ∧ s.blk.flag SYS_CYCLE_RUN = false ∧ s.blk.cal.dly = none ∧ s.blk.cal.swap = [] ∧ s.blk.calCheck (.dline step ofs resid) = 0 ∧ -2 ^ 19 ≤ ofs ∧ ofs < 2 ^ 19) ∧
  (∃ (s : State) (u : Fin 4), s.blk.cal.run = some ⟨2, u⟩ ∧ s.blk.cal.queue = [] ∧ s.blk.flag SYS_CYCLE_RUN = false ∧ s.blk.synced = false ∧ s.blk.cal.swap = [] ∧ 4096 ≤ s.blk.cal.dlyN ∧ 0 ≤ s.blk.dlyMean ∧ s.blk.dlyMean ≤ 65535 ∧ (s.blk.cal.dlyN : Int) * s.blk.cal.dlySq - s.blk.cal.dlySum * s.blk.cal.dlySum ≤ (200 * 2 ^ 16 * (s.blk.cal.dlyN : Int)) ^ 2) ∧
  (∃ (s : State) (u : Fin 4), s.blk.cal.run = some ⟨2, u⟩ ∧ s.blk.cal.queue = [] ∧ s.blk.cal.swap = [] ∧ s.blk.cal.dly = none ∧ s.blk.cal.dlyN < 4096) ∧
  (∃ (s : State) (j : CalJob), s.blk.cal.run = some j ∧ 3 ≤ j.kind ∧ unitOk j = true ∧ s.blk.cal.queue = [] ∧ s.blk.cal.swap = [] ∧ s.blk.cal.dly = none) ∧
  (∃ (s : State) (u : Fin 8), s.blk.cal.run = some ⟨4, u⟩ ∧ s.blk.cal.queue = [] ∧ s.blk.cal.swap = [] ∧ s.blk.cal.dly = none) ∧
  (∃ (s : State) (e : Nat), s.blk.flag CAL_CTL_AUTO = true ∧ s.blk.flag CAL_CTL_EN = true ∧ s.blk.cal.run = none ∧ s.blk.cal.queue = [] ∧ s.blk.cal.auto < 20 ∧ s.blk.spareOf (autoJob s.blk.cal.auto) = some e ∧ s.blk.swapWaits (autoJob s.blk.cal.auto) = false) ∧
  (∃ (s : State), s.blk.hostFree = true) ∧
  (∃ (s : State) (u : Fin 4) (t0 : Nat), s.blk.cal.queue = [⟨3, u⟩] ∧ s.blk.cal.waitAt = some t0 ∧ 0 < s.blk.sliceCells u) ∧
  (∃ (s : State), s.blk.hostFree = true ∧ s.blk.inMaint = true) ∧
  (∃ (s : State), s.blk.hostFree = true ∧ s.blk.inMaint = false) ∧
  (∃ (s : State), s.blk.flag CAL_BIST_RUN = true) :=
  ⟨⟨(calS [(GAL_STAT_STATE 15,4)]), (5+16*15+2^10), ⟨5,15⟩, 0, by decide +kernel⟩,
   ⟨(calS [(SYS_PROFILE_ACT,3)] id (fun b => {b with sw := {b.sw with frames := [sfr2 (2,5)]}})), (3+16*2+2^10), ⟨3,2⟩, by decide +kernel⟩,
   ⟨(calS [(GAL_STAT_STATE 15,4)] (fun c => {c with run := some ⟨0,3⟩, queue := [⟨0,1⟩,⟨2,0⟩,⟨1,1⟩]})), (5+16*15+2^10), ⟨5,15⟩, ⟨0,3⟩, by decide +kernel⟩,
   ⟨(sr [(CAL_CTL_EN,0)]), (0+16*1+2^10), ⟨0,1⟩, by decide +kernel⟩,
   ⟨(calS [(CAL_SPARE_DLBAD,0x8)]), (1+16*1+2^10), ⟨1,1⟩, by decide +kernel⟩,
   ⟨(calS [(SYS_CYCLE_RUN,0),(CAL_SPARE_TACSP,0xC000)] (fun c => {c with run := some ⟨0,13⟩, elem := 15, fails := vmod c.fails 15 (· + 1)})), 13, 15, 13, 900, 3050, (2500 * 2 ^ 20 / 2151), ((1250 * 2 ^ 10 * 2151 - 2500 * 2 ^ 10 * 900) / 2151), by decide +kernel⟩,
   ⟨(calS [(SYS_CYCLE_RUN,1)] (fun c => {c with run := some ⟨0,13⟩, elem := 14, swap := [(⟨1,3⟩,17,5,6)]})), 13, 14, 900, 3050, (2500 * 2 ^ 20 / 2151), ((1250 * 2 ^ 10 * 2151 - 2500 * 2 ^ 10 * 900) / 2151), by decide +kernel⟩,
   ⟨(calS [(SYS_CYCLE_RUN,1)] (fun c => {c with run := some ⟨0,13⟩, elem := 15, fails := vmod c.fails 15 (fun _ => 5)})), ⟨0,13⟩, 15, 1000, 1900, true, (2500 * 2 ^ 20 / (1900 + 1 - 1000)), by decide +kernel⟩,
   ⟨(calS [(CAL_SPARE_DLACT,63),(CAL_REC_COUNT 26,65535)] (fun c => {c with run := some ⟨1,5⟩, elem := 26})), 5, 10, (5*4096), ((toSigned 20 (fieldOf (regReset (CAL_DL 10)) 16 20))), 6, ⟨by decide +kernel, by decide +kernel, by decide +kernel, by decide +kernel, by decide +kernel, by decide +kernel, by decide +kernel, by decide +kernel, dline_met _ (by decide +kernel), (toSigned20_range _).1, (toSigned20_range _).2⟩⟩,
   ⟨(calS [] (fun c => {c with run := some ⟨2,3⟩, dlyN := 4096, dlySum := 65535*4096*65536, dlySq := 65535*65535*4096*2^32})), 3, by decide +kernel⟩,
   ⟨(calS [] (fun c => {c with run := some ⟨2,3⟩, dlyN := 4095})), 3, by decide +kernel⟩,
   ⟨(calS [(SYS_PROFILE_ACT,3)] (fun c => {c with run := some ⟨3,2⟩})), ⟨3,2⟩, by decide +kernel⟩,
   ⟨(calS [(SYS_CYCLE_RUN,1)] (fun c => {c with run := some ⟨4,5⟩})), 5, by decide +kernel⟩,
   ⟨(calS [(CAL_CTL_AUTO,1),(CAL_CTL_AINT,60)] (fun c => {c with auto := 19})), 27, by decide +kernel⟩,
   ⟨(calS [(SYS_PROFILE_ACT,3)] (fun c => {c with run := some ⟨5,2⟩, elem := 14, queue := [⟨0,1⟩,⟨2,0⟩,⟨1,1⟩]})), by decide +kernel⟩,
   ⟨(calS [(SYS_PROFILE_ACT,3)] (fun c => {c with queue := [⟨3,2⟩], waitAt := some 7000000}) (fun b => {b with sw := {b.sw with frames := [{sfr 44 3 with cells := [(0,0),(1,0),(2,0)]}]}})), 2, 7000000, by decide +kernel⟩,
   ⟨(calS [(PWR_STAT_STATE,4),(CAL_BIST_RUN,1)]), by decide +kernel⟩,
   ⟨(calS []), by decide +kernel⟩,
   ⟨(calS [(CAL_BIST_RUN,1),(GAL_STAT_STATE 3,3)] id (fun b => {b with sw := {b.sw with frames := [{sfr 44 3 with cells := [(0,0),(1,0),(2,0)]}]}, cav := {b.cav with mem := [(5,7)]}})), by decide +kernel⟩⟩

/-- The hypotheses of `RopeTraffic` can be met. -/
theorem witness_RopeTraffic :
  (∃ (s : State) (c : RopePeer), s.blk.pairState = 1 ∧ s.blk.pair.linked = false ∧ s.blk.ropeLanes.length = 4 ∧ (∀ l ∈ s.blk.ropeLanes, s.blk.laneState l = 6) ∧ c.unit ≠ s.blk.flag PAIR_CFG_UNIT ∧ c.auth = true ∧ (s.blk.keyFor (s.blk.get PAIR_CFG_KSLOT) 0 true).isSome = true ∧ c.cfg.toNat / 4 = (s.blk.reg PAIR_CFG).toNat / 4 % 2 ^ 9 ∧ c.delay.toNat = s.blk.get PAIR_DELAY_DELAY ∧ c.axsrc.toNat = s.blk.get PAIR_AXSRC_SRC ∧ c.dly.toNat + 2000 ≤ s.blk.get PAIR_DELAY_DELAY * 1000 ∧ s.blk.get SYS_CYCLE_PERIOD ≤ 500 ∧ c.period.toNat ≤ 500) ∧
  (∃ (s : State) (c : RopePeer), s.blk.pairState = 1 ∧ s.blk.pair.linked = false ∧ s.blk.ropeLanes ≠ [] ∧ (∀ l ∈ s.blk.ropeLanes, s.blk.laneState l = 6) ∧ (c.unit = s.blk.flag PAIR_CFG_UNIT ∨ c.auth = false ∨ c.delay.toNat ≠ s.blk.get PAIR_DELAY_DELAY ∨
      s.blk.get PAIR_DELAY_DELAY * 1000 < c.dly.toNat + 2000 ∨ 500 < s.blk.get SYS_CYCLE_PERIOD ∨ 500 < c.period.toNat)) ∧
  (∃ (s : State) (m : RopeBlock), s.blk.pair.linked = true ∧ s.blk.ropeGood m = true ∧ m.msg = .idle) ∧
  (∃ (s : State) (m : RopeBlock), s.blk.pair.linked = true ∧ s.blk.ropeGood m = false ∧ (∀ i at_, m.msg ≠ .journal i at_)) ∧
  (∃ (s : State) (m : RopeBlock) (dt : Nat) (i : WireItem) (at_ : Nat), s.blk.pair.linked = true ∧ s.blk.ropeGood m = true ∧ m.msg = .journal i at_ ∧ (s.blk.synced = true ∨ s.blk.pairState = 3) ∧ (s.blk.advanceNs dt).nowNs ≤ at_) ∧
  (∃ (s : State) (m : RopeBlock) (dt : Nat) (i : WireItem) (at_ : Nat), s.blk.pair.linked = true ∧ m.msg = .journal i at_ ∧ s.blk.pairState = 4 ∧ (s.blk.ropeGood m = false ∨ at_ < (s.blk.advanceNs dt).nowNs)) ∧
  (∃ (s : State) (m : RopeBlock) (bound : Word) (dig : Word) (sc : BitVec 8) (o : DigRec), s.blk.pair.linked = true ∧ s.blk.ropeGood m = true ∧ m.msg = .digest bound dig sc ∧ s.blk.pairState = 4 ∧ s.blk.pair.peer = [] ∧ s.blk.pair.own = [o] ∧ o.bound = bound ∧ o.dig = dig) ∧
  (∃ (s : State) (m : RopeBlock) (bound : Word) (dig : Word) (sc : BitVec 8) (o : DigRec), s.blk.pair.linked = true ∧ s.blk.ropeGood m = true ∧ m.msg = .digest bound dig sc ∧ s.blk.pairState = 4 ∧ s.blk.pair.peer = [] ∧ s.blk.pair.own = [o] ∧ o.bound = bound ∧ o.dig ≠ dig ∧ s.blk.cycling = true) ∧
  (∃ (s : State) (m : RopeBlock) (off : BitVec 24) (v : Word) (tag : Word), s.blk.pair.linked = true ∧ s.blk.ropeGood m = true ∧ m.msg = .transfer (.reg off v) tag ∧ s.blk.pairState = 3 ∧ sget (fun _ => (0 : Word)) s.blk.pair.tags off.toNat = 0 ∧ before tag 0 = false ∧ (regAt off.toNat).isSome = true ∧ (off.toNat < 0x400000 ∨ 0x410000 ≤ off.toNat)) ∧
  (∃ (s : State) (m : RopeBlock) (cl : BitVec 16), s.blk.pair.linked = true ∧ s.blk.ropeGood m = true ∧ m.msg = .control (.state 6 cl) ∧ s.blk.pairState = 4 ∧ s.blk.cycling = false) ∧
  (∃ (s : State) (m : RopeBlock) (dt : Nat) (d : Int), s.blk.pair.linked = true ∧ s.blk.ropeGood m = true ∧ m.msg = .phase d ∧ s.blk.tm.phys + dt * nsUnit < s.blk.lanes.phase.start + s.blk.phaseSpan) ∧
  (∃ (s : State) (m : RopeBlock) (dt : Nat) (d : Int), s.blk.pair.linked = true ∧ s.blk.ropeGood m = true ∧ m.msg = .phase d ∧ s.blk.lanes.phase.start + s.blk.phaseSpan ≤ s.blk.tm.phys + dt * nsUnit ∧ s.blk.lanes.phase.num ≠ 0) ∧
  (∃ (s : State), s.blk.pair.linked = true) ∧
  (∃ (s : State) (bound : Word) (l : List Byte), s.blk.pair.shut = some (bound, l) ∧ s.blk.synced = true ∧ s.blk.pair.linked = true ∧ s.blk.pair.peer = [] ∧ s.blk.pair.own = []) ∧
  (∃ (s : State), s.blk.pairState = 4) ∧
  (∃ (s : State), (s.blk.pairState = 4 ∨ s.blk.pairState = 5)) ∧
  (∃ (s : State), s.blk.pairState = 1) ∧
  (∃ (s : State), s.blk.synced = true ∧ s.blk.pair.linked = true) ∧
  (∃ (s : State) (silent : Bool), (silent = true ∨ s.blk.pairState = 1 ∨ s.blk.pairState = 3 ∨ s.blk.pairState = 4 ∨
      s.blk.pairState = 6 ∨ s.blk.pw.failAt ≠ none)) ∧
  (∃ (s : State), (s.blk.pairState = 0 ∨ s.blk.pairState = 2 ∨ s.blk.pairState = 5) ∧ s.blk.pw.failAt = none ∧ s.blk.pair.failSeen = false) :=
  ⟨⟨(prS 1 (lnk++[(PAIR_CFG_PREF,1),(PAIR_CFG_CHOLD,0)]) (fun p => {p with linked := false}) ropeB), ({peerC 5 with cfg := 1036}), by decide +kernel⟩,
   ⟨(prS 1 (lnk++[]) (fun p => {p with linked := false}) ropeB), ({peerC 1 with unit := false, auth := false}), by decide +kernel⟩,
   ⟨(prS 4 [] id ropeB), (rb (prS 4 [] id ropeB).blk (.idle) 0), by decide +kernel⟩,
   ⟨(prS 4 [] id id), (rb (prS 4 [] id id).blk (.transfer .quiet 5) 0), ⟨by decide +kernel, by decide +kernel, by simp [rb]⟩⟩,
   ⟨(prS 5 [(PAIR_CFG_UNIT,1)] id ropeB), (rb (prS 5 [(PAIR_CFG_UNIT,1)] id ropeB).blk (.journal .handover 600000) 0), 50, .handover, 600000, by decide +kernel⟩,
   ⟨(prS 4 [] id ropeB), (rb (prS 4 [] id ropeB).blk (.journal .handover 5) 0), 50, .handover, 5, by decide +kernel⟩,
   ⟨(prS 4 [] (fun p => {p with own := [dg 99 200]}) ropeB), (rb (prS 4 [] (fun p => {p with own := [dg 99 200]}) ropeB).blk (.digest 5 99 100) 0), 5, 99, 100, (dg 99 200), by decide +kernel⟩,
   ⟨(prS 4 [(SYS_CYCLE_RUN,1)] (fun p => {p with own := [dg 98 101]}) ropeB), (rb (prS 4 [(SYS_CYCLE_RUN,1)] (fun p => {p with own := [dg 98 101]}) ropeB).blk (.digest 5 99 100) 0), 5, 99, 100, (dg 98 101), by decide +kernel⟩,
   ⟨(prS 3 [] id ropeB), (rb (prS 3 [] id ropeB).blk (.transfer (.reg 0x10020 0x33) 0x77000000) 0), 0x10020, 0x33, 0x77000000, by decide +kernel⟩,
   ⟨(prS 4 [(PAIR_CFG_CHOLD,2),(PAIR_STAT_HOLDER,0)] (fun p => {p with gen := 16383, fence := true}) ropeB), (rb (prS 4 [(PAIR_CFG_CHOLD,2),(PAIR_STAT_HOLDER,0)] (fun p => {p with gen := 16383, fence := true}) ropeB).blk (.control (.state 6 0x55)) 0), 0x55, by decide +kernel⟩,
   ⟨(prS 4 [] id (fun b => ropeB {b with lanes := {b.lanes with phase := {b.lanes.phase with start := b.tm.phys}}})), (rb (prS 4 [] id (fun b => ropeB {b with lanes := {b.lanes with phase := {b.lanes.phase with start := b.tm.phys}}})).blk (.phase (-5)) 0), 50, -5, by decide +kernel⟩,
   ⟨(prS 4 [] id (fun b => ropeB {b with lanes := {b.lanes with phase := {b.lanes.phase with num := 3, sum := 77}}})), (rb (prS 4 [] id (fun b => ropeB {b with lanes := {b.lanes with phase := {b.lanes.phase with num := 3, sum := 77}}})).blk (.phase (-5)) 0), 50, -5, by decide +kernel⟩,
   ⟨(prS 4 [] id ropeB), by decide +kernel⟩,
   ⟨(prS 5 [] (fun p => {p with shut := some (5,[1,2,3])}) ropeB), 5, [1,2,3], by decide +kernel⟩,
   ⟨(prS 4 [(SYS_CYCLE_RUN,1),(PAIR_STAT_CLAIM,4),(PAIR_CFG_CHOLD,2),(PAIR_STAT_HOLDER,0)] (fun p => {p with gen := 7}) ropeB), by decide +kernel⟩,
   ⟨(prS 5 [(PAIR_STAT_LANES,2),(PAIR_STAT_HOLDER,1)] id ropeB), by decide +kernel⟩,
   ⟨(prS 1), by decide +kernel⟩,
   ⟨(prS 5), by decide +kernel⟩,
   ⟨(prS 2 [] id (fun b => {b with pw := {b.pw with failAt := some 4}})), false, by decide +kernel⟩,
   ⟨(prS 5 [] (fun p => {p with fence := true})), by decide +kernel⟩⟩

/-- The hypotheses of `PairStates` can be met. -/
theorem witness_PairStates :
  (∃ (s : State) (d : Half), s.blk.hostFree = true ∧ s.blk.pairState = 0 ∧ d.getLsbD 0 = true ∧ d.toNat / 16 % 4 < 3) ∧
  (∃ (s : State) (d : Half), s.blk.hostFree = true ∧ s.blk.pairState ≠ 0 ∧ d.getLsbD 0 = true) ∧
  (∃ (s : State) (d : Half), s.blk.hostFree = true ∧ s.blk.pairState ≠ 0 ∧ d.getLsbD 0 = false) ∧
  (∃ (s : State) (d : Half), s.blk.hostFree = true ∧ s.blk.pairState = 0 ∧ d.getLsbD 0 = false ∧ d.toNat / 16 % 4 < 3) ∧
  (∃ (s : State), s.blk.hostFree = true ∧ s.blk.pairState = 1) ∧
  (∃ (s : State), s.blk.hostFree = true ∧ s.blk.pairState ≠ 1) ∧
  (∃ (s : State), s.blk.hostFree = true ∧ s.blk.pairState = 6) ∧
  (∃ (s : State), s.blk.pairState = 6 ∧ s.blk.flag PAIR_CFG_ARS = true) ∧
  (∃ (s : State), s.blk.hostFree = true ∧ s.blk.pairState = 4) ∧
  (∃ (s : State), s.blk.hostFree = true ∧ s.blk.pairState = 5) ∧
  (∃ (s : State), s.blk.hostFree = true ∧ (s.blk.pairState = 4 ∨ s.blk.pairState = 5)) ∧
  (∃ (s : State), s.blk.hostFree = true ∧ (∀ n < 32, s.blk.ringState n ≠ 3)) ∧
  (∃ (s : State) (n : Nat), s.blk.hostFree = true ∧ n < 32 ∧ s.blk.ringState n = 3) ∧
  (∃ (s : State), s.blk.pairState = 4 ∧ s.blk.isPref = true ∧ s.blk.flag PAIR_CFG_REVERT = true ∧ s.blk.get PAIR_STAT_PHEALTH ≤ s.blk.get PAIR_STAT_HEALTH) ∧
  (∃ (s : State), s.blk.get PAIR_RSTAT_PHASE = 1 ∧ (s.blk.pairState = 2 ∨ s.blk.pairState = 3)) ∧
  (∃ (s : State), s.blk.pairState = 2 ∧ s.blk.get PAIR_RSTAT_PHASE = 2 ∧ s.blk.pair.linked = true ∧ s.blk.cyc.inProg = true ∧ s.blk.enginesRest ∧ s.blk.flw.queue = [] ∧ s.blk.flw.flight = [] ∧ s.blk.pair.mirror ≤ 256) ∧
  (∃ (s : State), s.blk.pairState = 2 ∧ s.blk.get PAIR_RSTAT_PHASE = 2 ∧ s.blk.pair.linked = true ∧ s.blk.cyc.inProg = true ∧ s.blk.flw.queue ≠ []) ∧
  (∃ (s : State), s.blk.pairState = 3) :=
  ⟨⟨(prS 0 [] (fun p => {p with session := 3}) ropeB), 0x5EB, by decide +kernel⟩,
   ⟨(prS 6 [] id ropeB), 0x7FF, by decide +kernel⟩,
   ⟨(prS 6 (lnk++[(PAIR_STAT_LANES,2),(PAIR_STAT_HOLDER,1),(SDS_STAT_STATE 33,7)]) id ropeB), 0, by decide +kernel⟩,
   ⟨(prS 0 [] (fun p => {p with session := 3}) ropeB), 0x5EA, by decide +kernel⟩,
   ⟨(prS 1 [] id ropeB), by decide +kernel⟩,
   ⟨(prS 6), by decide +kernel⟩,
   ⟨(prS 6), by decide +kernel⟩,
   ⟨(prS 6 [(PAIR_CFG_ARS,1)]), by decide +kernel⟩,
   ⟨(prS 4), by decide +kernel⟩,
   ⟨(prS 5), by decide +kernel⟩,
   ⟨(prS 5), by decide +kernel⟩,
   ⟨(prS 5 [] (fun p => {p with gen := 9})), by decide +kernel⟩,
   ⟨(prS 4 [(ZRG_STAT_STATE 3,3)]), 3, by decide +kernel⟩,
   ⟨(prS 4 [(PAIR_CFG_REVERT,1),(PAIR_WTR_WTR,300),(PAIR_STAT_HEALTH,9),(PAIR_STAT_PHEALTH,9)]), by decide +kernel⟩,
   ⟨(prS 3 [(PAIR_RSTAT_PHASE,1),(PAIR_RSTAT_WORDS,77)]), by decide +kernel⟩,
   ⟨(prS 2 [(PAIR_RSTAT_PHASE,2),(PAIR_STAT_LANES,2)] id (fun b => {b with cyc := {b.cyc with inProg := true, next := 600000}})), by unfold Block.enginesRest; decide +kernel⟩,
   ⟨(prS 2 [(PAIR_RSTAT_PHASE,2)] id (fun b => {b with cyc := {b.cyc with inProg := true, next := 600000}, flw := {b.flw with queue := [bt]}})), by decide +kernel⟩,
   ⟨(prS 3 [] (fun p => {p with quietSeen := false, overflow := false})), by decide +kernel⟩⟩

/-- The hypotheses of `PowerStates` can be met. -/
theorem witness_PowerStates :
  (∃ (s : State), s.blk.hostFree = true ∧ s.blk.pw.pend = none ∧ s.blk.pwrState = 0 ∧ s.blk.flag SYS_CYCLE_RUN = false) ∧
  (∃ (s : State), s.blk.hostFree = true ∧ s.blk.pw.pend = none ∧ s.blk.pwrState = 1 ∧ s.blk.flag SYS_CYCLE_RUN = false) ∧
  (∃ (s : State), s.blk.hostFree = true ∧ s.blk.pw.pend = none ∧ s.blk.pwrState = 0 ∧ s.blk.flag SYS_CYCLE_RUN = true) ∧
  (∃ (s : State) (d : Half) (i : Instr), s.blk.hostFree = true ∧ (i = .reqRun d ∨ i = .reqDoze d ∨ i = .reqLineHold d ∨ i = .reqStandby d ∨ i = .reqMaint d) ∧ s.blk.pw.pend ≠ none) ∧
  (∃ (s : State) (d : Half) (i : Instr), s.blk.hostFree = true ∧ ((i = .reqRun d ∧ s.blk.pwrState = 0) ∨ (i = .reqDoze d ∧ s.blk.pwrState = 1) ∨ (i = .reqLineHold d ∧ s.blk.pwrState = 2) ∨
      (i = .reqStandby d ∧ s.blk.pwrState = 3) ∨ (i = .reqMaint d ∧ s.blk.pwrState = 4)) ∧ s.blk.pw.pend = none) ∧
  (∃ (s : State) (d : Half) (i : Instr), s.blk.hostFree = true ∧ (i = .reqLineHold d ∨ i = .reqStandby d ∨ i = .reqMaint d) ∧ s.blk.pw.pend = none ∧ s.blk.flag PAIR_CFG_EN = true ∧ s.blk.pwrState ≤ 1) ∧
  (∃ (s : State) (d : Half) (i : Instr), s.blk.hostFree = true ∧ (i = .reqStandby d ∨ i = .reqMaint d) ∧ s.blk.pw.pend = none ∧ s.blk.flag PAIR_CFG_EN = false ∧ s.blk.pwrState ≤ 1 ∧ s.blk.flag SYS_CYCLE_RUN = true) ∧
  (∃ (s : State) (d : Half) (i : Instr) (n : Nat), s.blk.hostFree = true ∧ (i = .reqStandby d ∨ i = .reqMaint d) ∧ s.blk.pw.pend = none ∧ s.blk.flag PAIR_CFG_EN = false ∧ s.blk.pwrState ≤ 1 ∧ s.blk.flag SYS_CYCLE_RUN = false ∧ n < 16 ∧ s.blk.get (GAL_STAT_STATE n) = 3) ∧
  (∃ (s : State), s.blk.hostFree = true ∧ s.blk.pw.pend = none ∧ s.blk.flag PAIR_CFG_EN = false ∧ s.blk.pwrState ≤ 1 ∧ s.blk.flag SYS_CYCLE_RUN = false ∧ s.blk.enginesRest) ∧
  (∃ (s : State), s.blk.hostFree = true ∧ s.blk.pw.pend = none ∧ s.blk.pwrState = 4 ∧ s.blk.flag CAL_BIST_RUN = true) ∧
  (∃ (s : State) (d : Half), s.blk.hostFree = true ∧ s.blk.pw.pend = none ∧ s.blk.flag PAIR_CFG_EN = false ∧ s.blk.pwrState ≤ 1 ∧ s.blk.flag SYS_CYCLE_RUN = false ∧ (∀ n < 16, n ≠ d.toNat / 16 % 16 → s.blk.get (GAL_STAT_STATE n) ≠ 3) ∧ s.blk.flw.queue = []) ∧
  (∃ (s : State) (d : Half) (n : Nat), s.blk.hostFree = true ∧ s.blk.pw.pend = none ∧ s.blk.flag PAIR_CFG_EN = false ∧ s.blk.pwrState ≤ 1 ∧ n < 16 ∧ n ≠ d.toNat / 16 % 16 ∧ s.blk.get (GAL_STAT_STATE n) = 3) ∧
  (∃ (s : State), s.blk.hostFree = true ∧ s.blk.pw.pend = none ∧ s.blk.pwrState = 2 ∧ s.blk.flag SYS_CYCLE_RUN = false) ∧
  (∃ (s : State) (d : Half), s.blk.hostFree = true ∧ s.blk.pw.pend = none ∧ s.blk.flag PAIR_CFG_EN = false ∧ s.blk.pwrState ≤ 1 ∧ s.blk.flag SYS_CYCLE_RUN = false ∧ s.blk.enginesRest ∧ d.getLsbD 8 = false) ∧
  (∃ (s : State) (d : Half), s.blk.hostFree = true ∧ s.blk.pw.pend = none ∧ s.blk.flag PAIR_CFG_EN = false ∧ s.blk.pwrState ≤ 1 ∧ s.blk.flag SYS_CYCLE_RUN = false ∧ s.blk.enginesRest ∧ d.getLsbD 8 = true) ∧
  (∃ (s : State) (k : Fin 1538), s.blk.pw.unchecked.getLsbD k = true ∧ s.blk.host.stalls = [] ∧ s.blk.host.backlog = []) ∧
  (∃ (s : State) (k : Fin 1538) (n : Fin 16), s.blk.pw.unchecked.getLsbD k = true ∧ k.val / 96 = n.val ∧ s.blk.host.stalls = [] ∧ s.blk.host.backlog = []) ∧
  (∃ (s : State) (q : Fin 9), s.blk.pw.quadAcc.getLsbD q = true) ∧
  (∃ (s : State), s.blk.hostFree = true) :=
  ⟨⟨(wS 0 [(PWR_STAT_RES,2)]), by decide +kernel⟩,
   ⟨(wS 1 [(PWR_STAT_RES,2)]), by decide +kernel⟩,
   ⟨(wS 0 [(SYS_CYCLE_RUN,1)]), by decide +kernel⟩,
   ⟨(wS 3 [(PWR_STAT_RES,1)] (fun p => {p with pend := some (1,5)})), 0x720, (.reqMaint 0x720), ⟨by decide +kernel, Or.inr (Or.inr (Or.inr (Or.inr (rfl)))), by decide +kernel⟩⟩,
   ⟨(wS 4 [(PWR_STAT_RES,3)]), 0x720, (.reqMaint 0x720), by decide +kernel⟩,
   ⟨(wS 1 [(PAIR_CFG_EN,1),(SYS_CYCLE_RUN,1)]), 0x720, (.reqMaint 0x720), ⟨by decide +kernel, Or.inr (Or.inr (rfl)), by decide +kernel, by decide +kernel, by decide +kernel⟩⟩,
   ⟨(wS 1 [(SYS_CYCLE_RUN,1)]), 0x720, (.reqMaint 0x720), ⟨by decide +kernel, Or.inr (rfl), by decide +kernel, by decide +kernel, by decide +kernel, by decide +kernel⟩⟩,
   ⟨(wS 1 [(GAL_STAT_STATE 15,3)]), 0x720, (.reqMaint 0x720), 15, ⟨by decide +kernel, Or.inr (rfl), by decide +kernel, by decide +kernel, by decide +kernel, by decide +kernel, by decide +kernel, by decide +kernel⟩⟩,
   ⟨(wS 1 [(PWR_STAT_DOMON,0xFBF)]), by unfold Block.enginesRest; decide +kernel⟩,
   ⟨(wS 4 [(CAL_BIST_RUN,1)]), by decide +kernel⟩,
   ⟨(wS 0 [(GAL_STAT_STATE 2,3),(ZRG_STAT_STATE 31,3)] ), 0x720, by decide +kernel⟩,
   ⟨(wS 1 [(GAL_STAT_STATE 3,3)]), 0x720, 3, by decide +kernel⟩,
   ⟨(wS 2 [(ZRG_STAT_STATE 31,4),(ZRG_STAT_STATE 5,2),(PWR_CTL_HOLDENG,2)] (fun p => {p with sealed := BitVec.ofNat 1538 (2^1538-1)})), by decide +kernel⟩,
   ⟨(wS 0 [(PWR_WRING_PORTS,5),(PWR_CTL_RETAIN,1),(GAL_STAT_STATE 3,4),(FLW_CTL_EN,1),(SYS_CYCLE_PERIOD,200)] id (fun b => {b with cav := {b.cav with mem := [(5,7)]}, pw := {b.pw with sealed := 7}})), 0x20, by unfold Block.enginesRest; decide +kernel⟩,
   ⟨(wS 0 [(GAL_STAT_STATE 3,4)] id (fun b => b.mapEng 3 (fun x => {x with prog := [(5,7)], data := [(6,6)]}))), 0x120, by unfold Block.enginesRest; decide +kernel⟩,
   ⟨(wS 0 [] (fun p => {p with unchecked := BitVec.ofNat 1538 (2^1538-1)})), 1537, by decide +kernel⟩,
   ⟨(wS 0 [(PWR_RETN_NLOST,2047)] (fun p => {p with unchecked := BitVec.ofNat 1538 (2^1538-1)}) (fun b => b.mapEng 3 (fun x => {x with prog := [(5,7),(600,5)], data := [(6,6),(513,4)]}))), 383, 3, by decide +kernel⟩,
   ⟨(wS 4 [(PWR_CTL_QGATE,1)] (fun p => {p with quadAcc := 0x1FF})), 8, by decide +kernel⟩,
   ⟨(wS 0 [(PWR_RETN_NLOST,7),(PWR_RETN_BANK,9)]), by decide +kernel⟩⟩

/-- The hypotheses of `PowerEvents` can be met. -/
theorem witness_PowerEvents :
  (∃ (s : State) (w : WakeSrc) (dt : Nat), s.blk.pwrState = 3 ∧ (s.blk.advanceNs dt).wakes w = true ∧ s.blk.host.held = [] ∧ s.blk.profile ≠ 3) ∧
  (∃ (s : State) (w : WakeSrc) (v : WakeSrc) (dt : Nat), s.blk.pwrState = 3 ∧ (s.blk.advanceNs dt).wakes w = true ∧ (s.blk.advanceNs dt).wakes v = true ∧ w.code.val < v.code.val ∧ s.blk.host.held = []) ∧
  (∃ (s : State) (ws : List WakeSrc), s.blk.pwrState = 3 ∧ (∀ w ∈ ws, w.code.val = 0 ∨ bitAt (s.blk.get PWR_WEN_SRC) (w.code.val - 1) = false)) ∧
  (∃ (s : State) (p : Fin 32), s.blk.pwrState = 3 ∧ bitAt (s.blk.get PWR_WEN_SRC) 2 = true ∧ bitAt (s.blk.get PWR_WRING_PORTS) p = true ∧ s.blk.host.held = []) ∧
  (∃ (s : State), s.blk.pw.failAt = none ∧ s.blk.pw.shed = false ∧ s.blk.pwrState ≠ 5) ∧
  (∃ (s : State) (dt : Nat) (u : Nat), s.blk.pw.failAt = some u ∧ s.blk.pw.shed = false ∧ s.blk.tm.phys + dt * nsUnit < u + s.blk.get PWR_HOLD_SHED * 1000000 * nsUnit) ∧
  (∃ (s : State) (u : Nat), s.blk.pw.failAt = some u ∧ s.blk.pw.shed = false) ∧
  (∃ (s : State), s.blk.pw.shed = true ∧ s.blk.pwrState ≠ 5) ∧
  (∃ (s : State), s.blk.pw.dieLevel = none ∧ s.blk.pw.baseLevel = none) ∧
  (∃ (s : State) (base : BitVec 8) (l : Int), s.blk.pw.dieLevel = some l ∧ s.blk.pw.baseLevel = none ∧ base.toInt ≤ 70) :=
  ⟨⟨(wS 3 [(PWR_WEN_SRC,63),(PWR_WEN_TARGET,2),(PWR_WLANE_MASK,8),(PWR_WRING_PORTS,0x10),(PWR_WGPIO_MASK,2),(PWR_WGPIO_POL,0),(PWR_AONWK_EN,1),(PWR_STAT_DOMON,7)] (fun p => {p with sealed := BitVec.ofNat 1538 (2^1536-1)}) (fun b => {b with tm := {b.tm with record := some ⟨9,3,5⟩}})), ⟨5,1,true⟩, 9, by decide +kernel⟩,
   ⟨(wS 3 [(PWR_WEN_SRC,63),(PWR_WEN_TARGET,0),(PWR_WLANE_MASK,8),(PWR_WRING_PORTS,0x10),(PWR_WGPIO_MASK,2),(PWR_WGPIO_POL,0),(PWR_AONWK_EN,1),(PWR_STAT_DOMON,3)] (fun p => {p with sealed := BitVec.ofNat 1538 (2^1536-1)}) (fun b => {b with tm := {b.tm with record := some ⟨9,3,5⟩}})), ⟨1,3,true⟩, ⟨2,0,false⟩, 9, by decide +kernel⟩,
   ⟨(wS 3 [(PWR_WEN_SRC,2),(PWR_WEN_TARGET,0),(PWR_WLANE_MASK,8),(PWR_WRING_PORTS,0x10),(PWR_WGPIO_MASK,2),(PWR_WGPIO_POL,0),(PWR_AONWK_EN,1),(PWR_STAT_DOMON,3)] (fun p => {p with sealed := BitVec.ofNat 1538 (2^1536-1)}) (fun b => {b with tm := {b.tm with record := some ⟨9,3,5⟩}})), [⟨1,3,true⟩,⟨0,0,true⟩,⟨3,4,true⟩], by decide +kernel⟩,
   ⟨(wS 3 [(PWR_WEN_SRC,4),(PWR_WEN_TARGET,2),(PWR_WLANE_MASK,8),(PWR_WRING_PORTS,0x10),(PWR_WGPIO_MASK,2),(PWR_WGPIO_POL,0),(PWR_AONWK_EN,1),(PWR_STAT_DOMON,3)] (fun p => {p with sealed := BitVec.ofNat 1538 (2^1536-1)}) (fun b => {b with tm := {b.tm with record := some ⟨9,3,5⟩}})), 4, by decide +kernel⟩,
   ⟨(wS 3 [] id (fun b => {b with pair := {b.pair with linked := false}})), by decide +kernel⟩,
   ⟨(wS 2 [(PAIR_CFG_EN,1),(PWR_HOLD_SHED,6),(PWR_STAT_MAINS,0)] (fun p => {p with failAt := some (499000*nsUnit)}) (fun b => {b with pair := {b.pair with fence := true}})), 9, 499000*nsUnit, by decide +kernel⟩,
   ⟨(wS 3 [(PWR_LAST_FAILS,65535),(PWR_HOLD_SHED,6)] (fun p => {p with failAt := some (499000*nsUnit), pend := some (1,2)}) (fun b => {b with cav := {b.cav with mem := [(5,7)]}})), 499000*nsUnit, by decide +kernel⟩,
   ⟨(wS 0 [(PWR_STAT_DOMON,3),(PWR_STAT_QON,0)] (fun p => {p with shed := true, failAt := some 5})), by decide +kernel⟩,
   ⟨(wS 0 [(PWR_THERM_LIMIT,105),(PWR_CAUSE_THERM,1)]), by decide +kernel⟩,
   ⟨(wS 0 [(PWR_THERM_LIMIT,105)] (fun p => {p with dieLevel := some 105})), 40, 105, by decide +kernel⟩⟩

/-- The hypotheses of `Security` can be met. -/
theorem witness_Security :
  (∃ (s : State) (k : Nat), s.blk.hostFree = true ∧ s.blk.flag SEC_STAT_LOCKED = false ∧ s.blk.flag SEC_STAT_ERASING = false ∧ s.blk.get SEC_KSEL_SLOT = k) ∧
  (∃ (s : State), s.blk.hostFree = true ∧ (s.blk.flag SEC_STAT_LOCKED = true ∨ s.blk.flag SEC_STAT_ERASING = true)) ∧
  (∃ (s : State) (k : Nat), s.blk.hostFree = true ∧ s.blk.flag SEC_STAT_LOCKED = false ∧ s.blk.flag SEC_STAT_ERASING = false ∧ s.blk.get SEC_KSEL_SLOT = k) ∧
  (∃ (s : State), s.blk.hostFree = true ∧ s.blk.flag SEC_STAT_LOCKED = true) ∧
  (∃ (s : State) (d : Half) (m : List Byte), s.blk.hostFree = true ∧ s.blk.get (SEC_KSTAT_STATE (d.toNat % 16)) = 1 ∧ s.blk.get (SEC_KSTAT_USE (d.toNat % 16)) = 2 ∧ s.blk.flag SEC_STAT_LOCKED = false ∧ s.blk.sec.mirrorBad = false ∧ m = hmac256 (keyBytes (s.blk.sec.keys[d.toNat % 16]?.getD 0)) ((List.range 4).flatMap (fun j => bytesBE (s.blk.get (SEC_CHAL_DATA j)) 8))) ∧
  (∃ (s : State) (d : Half), s.blk.hostFree = true ∧ (s.blk.get (SEC_KSTAT_STATE (d.toNat % 16)) ≠ 1 ∨ s.blk.get (SEC_KSTAT_USE (d.toNat % 16)) ≠ 2 ∨
      s.blk.flag SEC_STAT_LOCKED = true ∨ s.blk.sec.mirrorBad = true)) ∧
  (∃ (s : State) (x : Fin 7) (lv : BitVec 7), s.blk.pwrState ≠ 5 ∧ lv = s.blk.sec.acted ||| BitVec.ofNat 7 (2 ^ x.val) ∧ s.blk.sec.acted.getLsbD x = false) ∧
  (∃ (s : State) (lv : BitVec 7), s.blk.watched lv &&& ~~~s.blk.sec.acted = 0) ∧
  (∃ (s : State), s.blk.hostFree = true ∧ (∀ x < 7, bitAt (s.blk.get SEC_STAT_LEVEL) x = true → s.blk.tamperAct x = 0)) ∧
  (∃ (s : State) (x : Nat), s.blk.hostFree = true ∧ x < 7 ∧ bitAt (s.blk.get SEC_STAT_LEVEL) x = true ∧ s.blk.tamperAct x ≠ 0) ∧
  (∃ (s : State), s.blk.hostFree = true) ∧
  (∃ (s : State), s.blk.pwrState = 5) ∧
  (∃ (s : State), s.blk.hostFree = true) ∧
  (∃ (s : State) (d : Half), s.blk.hostFree = true ∧ s.blk.get SEC_FCTL_FSTAT ≠ 1 ∧ d.toNat / 16 % 256 = 0xA5 ∧ d.getLsbD 3 = false ∧ s.blk.flag SYS_CYCLE_RUN = false ∧ s.blk.get (SEC_FUSE_STATE (d.toNat % 4)) = 0) ∧
  (∃ (s : State) (d : Half), s.blk.hostFree = true ∧ s.blk.get SEC_FCTL_FSTAT ≠ 1 ∧ (d.toNat / 16 % 256 ≠ 0xA5 ∨ s.blk.flag SYS_CYCLE_RUN = true ∨ s.blk.get (SEC_FUSE_STATE (d.toNat % 4)) ≠ 0 ∨ d.getLsbD 3 = true)) ∧
  (∃ (s : State) (d : Half) (j : Nat), s.blk.hostFree = true ∧ s.blk.get SEC_FCTL_FSTAT ≠ 1 ∧ d.toNat / 16 % 256 = 0xA5 ∧ d.getLsbD 2 = false ∧ s.blk.flag SYS_CYCLE_RUN = false ∧ s.blk.get (SEC_FUSE_STATE (d.toNat % 4)) = 1 ∧ j < 4 ∧ j ≠ d.toNat % 4 ∧ s.blk.get (SEC_FUSE_STATE j) = 1) ∧
  (∃ (s : State) (d : Half), s.blk.hostFree = true ∧ s.blk.get SEC_FCTL_FSTAT ≠ 1 ∧ (∀ j < 4, j ≠ d.toNat % 4 → s.blk.get (SEC_FUSE_STATE j) ≠ 1)) ∧
  (∃ (s : State) (k : Fin 4), s.blk.sec.fuse = some (k.val, true)) ∧
  (∃ (s : State) (k : Fin 4), s.blk.sec.fuse = some (k.val, false)) :=
  ⟨⟨(seS (kd++[(SEC_KSEL_SLOT,15),(SEC_KSEL_USE,2),(SEC_KSTAT_WCNT 15,65535),(SEC_KSTAT_STATE 15,2),(SEC_KCTL_REFUSED,1)])), 15, by decide +kernel⟩,
   ⟨(seS (kd++[(SEC_STAT_ERASING,1)])), by decide +kernel⟩,
   ⟨(seS [(SEC_KSEL_SLOT,15),(SEC_KSTAT_STATE 15,1),(SEC_KCTL_REFUSED,1)] (fun x => {x with keys := Vector.replicate 16 9})), 15, by decide +kernel⟩,
   ⟨(seS [(SEC_STAT_LOCKED,1)]), by decide +kernel⟩,
   ⟨(seS [(SEC_KSTAT_STATE 5,1),(SEC_KSTAT_USE 5,2),(SEC_CHAL_DATA 2,7)] (fun x => {x with keys := Vector.replicate 16 9})), 0x15, (hmac256 (keyBytes 9) (bytesBE 0 8 ++ bytesBE 0 8 ++ bytesBE 7 8 ++ bytesBE 0 8)), by decide +kernel⟩,
   ⟨(seS [(SEC_KSTAT_STATE 5,1),(SEC_KSTAT_USE 5,2),(SEC_STAT_LOCKED,0),(SEC_RESP_RESP 0,6)] (fun x => {x with keys := Vector.replicate 16 9, mirrorBad := true})), 0x15, by decide +kernel⟩,
   ⟨(seS [(SEC_TACT_ACT,0x2061),(SEC_LOGCTL_NEXT,3),(SEC_LOGCTL_COUNT,16),(SEC_LOGCTL_IDX,15),(SEC_KSTAT_STATE 4,1)] (fun q => {q with acted := 16, keys := Vector.replicate 16 9, ropeKey := some 5})), 6, ((16 ||| 64)), by decide +kernel⟩,
   ⟨(sr [(PWR_STAT_STATE,5)] (fun b => b.mapSec (fun q => {q with acted := 5}))), 0x71, by decide +kernel⟩,
   ⟨(seS [(SEC_TACT_ACT,0x2061),(SEC_STAT_LEVEL,0x12),(SEC_STAT_LOCKED,1)]), by decide +kernel⟩,
   ⟨(seS [(SEC_TACT_ACT,0x2061),(SEC_STAT_LEVEL,0x48),(SEC_STAT_LOCKED,1)]), 6, by decide +kernel⟩,
   ⟨(seS [(SEC_LOGCTL_NEXT,15),(SEC_LOGCTL_COUNT,16),(SEC_STAT_LOCKED,1)] (fun q => {q with keys := Vector.replicate 16 9})), by decide +kernel⟩,
   ⟨(seS [(PWR_STAT_STATE,5),(SEC_LOGCTL_NEXT,15),(SEC_LOGCTL_COUNT,16),(SEC_FUSE_STATE 1,1),(SEC_STAT_LOCKED,1)] (fun q => {q with keys := Vector.replicate 16 9})), by decide +kernel⟩,
   ⟨(seS [(SEC_LOGCTL_NEXT,15),(SEC_LOGCTL_COUNT,16),(SEC_LOGCTL_LOST,5)] (fun q => {q with log := [(3,LogEnt.blank)]})), by decide +kernel⟩,
   ⟨(seS [(SEC_FUSE_STATE 1,0),(SEC_FCTL_FSTAT,3)]), 0xA51, by decide +kernel⟩,
   ⟨(seS [(SEC_FUSE_STATE 1,0),(SYS_CYCLE_RUN,0)]), 0, by decide +kernel⟩,
   ⟨(seS [(SEC_FUSE_STATE 1,1),(SEC_FUSE_STATE 3,1)]), 0xA53, 1, by decide +kernel⟩,
   ⟨(seS [(SEC_FUSE_STATE 0,0),(SEC_FUSE_STATE 1,1),(SEC_FUSE_STATE 3,2)]), 0xA5D, by decide +kernel⟩,
   ⟨(seS [(SEC_FPW_FP 0,5),(SEC_FPW_FP 3,7)] (fun q => {q with fuse := some (3,true)})), 3, by decide +kernel⟩,
   ⟨(seS [(SEC_FUSE_STATE 3,1)] (fun q => {q with fuse := some (3,false)})), 3, by decide +kernel⟩⟩

/-- The hypotheses of `ModuleHardware` can be met. -/
theorem witness_ModuleHardware :
  (∃ (s : State) (off : BitVec 8) (len : BitVec 9), s.blk.domOn 1 = true ∧ off.toNat + len.toNat ≤ 256) ∧
  (∃ (s : State), s.blk.domOn 1 = true) ∧
  (∃ (s : State) (dev : BitVec 7), (dev ≠ 0x50 ∨ s.blk.domOn 1 = false)) ∧
  (∃ (s : State) (q : Fin 9), bitAt (s.blk.get SYS_HWSTAT_QPRES) q = false) ∧
  (∃ (s : State), s.blk.coreOk = true) ∧
  (∃ (s : State), s.blk.coreOk = true) ∧
  (∃ (s : State), s.blk.hostFree = true) ∧
  (∃ (s : State) (die : BitVec 8) (base : BitVec 8), (80 ≤ base.toInt ∨ 120 ≤ die.toInt) ∧ s.blk.pw.shed = false ∧ s.blk.pwrState ≠ 5) ∧
  (∃ (die : BitVec 8) (base : BitVec 8), base.toInt < 80 ∧ die.toInt < 120) ∧
  (∃ (s : State) (die : BitVec 8) (base : BitVec 8), s.blk.pw.shed = true ∧ s.blk.pw.heat = true ∧ base.toInt ≤ 65 ∧ die.toInt ≤ 105 ∧ s.blk.profile ≠ 3 ∧ s.blk.host.held = []) ∧
  (∃ (s : State) (die : BitVec 8) (base : BitVec 8), (65 < base.toInt ∨ 105 < die.toInt ∨ s.blk.pw.heat = false)) :=
  ⟨⟨(hwS), 9, 3, by decide +kernel⟩,
   ⟨(hwS), by decide +kernel⟩,
   ⟨(hwS [(PWR_STAT_DOMON,1)]), 0x50, by decide +kernel⟩,
   ⟨(hwS [(SYS_HWSTAT_QLOW,511)]), 8, by decide +kernel⟩,
   ⟨(hwS (lk++[(SYS_HWSTAT_QPRES,511),(SYS_HWSTAT_QLOW,511),(SYS_HWSTAT_QOC,511),(MAC_CAGE_MODE 4,1)]) id swh), by decide +kernel⟩,
   ⟨(hwS (lk++[(SYS_HWSTAT_QOC,0),(MAC_CAGE_MODE 4,1)]) id swh), by decide +kernel⟩,
   ⟨(hwS [(SYS_HWSTAT_QOC,0x1F1)]), by decide +kernel⟩,
   ⟨(hwS [(PWR_STAT_STATE,3),(SYS_HWSTAT_TSHUT,255)] (fun p => {p with failAt := some 5}) (fun b => {b with cav := {b.cav with mem := [(5,7)]}})), 20, 80, by decide +kernel⟩,
   ⟨119, 79, by decide +kernel⟩,
   ⟨(hwS [(PWR_STAT_DOMON,3)] (fun p => {p with shed := true, heat := true}) (fun b => {b with tm := {b.tm with record := some ⟨9*2^60,3,5⟩}, retRec := [⟨0,7⟩,⟨4,3⟩]})), 105, 65, by decide +kernel⟩,
   ⟨(hwS [(PWR_STAT_DOMON,3)] (fun p => {p with shed := true, heat := false})), 105, 65, by decide +kernel⟩⟩

/-- The hypotheses of `StartAndResets` can be met. -/
theorem witness_StartAndResets :
  (∃ (s : State), s.blk.pwrState = 5 ∧ s.blk.profile ≠ 3 ∧ s.blk.host.held = []) ∧
  (∃ (s : State) (dfl : Fin 5), s.blk.pwrState = 5 ∧ s.blk.profile ≠ 3 ∧ s.blk.host.held = [] ∧ dfl ≠ 0) ∧
  (∃ (s : State) (u : Nat), s.blk.pwrState ≠ 5 ∧ s.blk.pw.shed = true ∧ s.blk.pw.failAt = some u ∧ s.blk.profile ≠ 3 ∧ s.blk.host.held = []) ∧
  (∃ (s : State) (d : Half), s.blk.hostFree = true ∧ d.toNat / 2 ^ 8 % 2 ^ 16 = 0xA5C3 ∧ s.blk.flag SYS_RST_BUSY = false ∧ s.blk.get SEC_FCTL_FSTAT ≠ 1 ∧ s.blk.get SYS_BOOT_STAT ≠ 1) ∧
  (∃ (s : State) (d : Half), s.blk.hostFree = true ∧ d.toNat / 2 ^ 8 % 2 ^ 16 = 0xA5C3 ∧ s.blk.flag SYS_RST_BUSY = false ∧ s.blk.get SEC_FCTL_FSTAT ≠ 1 ∧ s.blk.get SYS_BOOT_STAT ≠ 1) ∧
  (∃ (s : State) (d : Half) (i : Instr), s.blk.hostFree = true ∧ (i = .lineReset d ∨ i = .moduleReset d) ∧ d.toNat / 2 ^ 8 % 2 ^ 16 ≠ 0xA5C3) ∧
  (∃ (s : State) (d : Half) (i : Instr), s.blk.hostFree = true ∧ (i = .lineReset d ∨ i = .moduleReset d) ∧ (s.blk.flag SYS_RST_BUSY = true ∨ s.blk.get SEC_FCTL_FSTAT = 1 ∨ s.blk.get SYS_BOOT_STAT = 1)) ∧
  (∃ (s : State), s.blk.pw.kind = some 3 ∧ s.blk.pwrState ≤ 1 ∧ s.blk.profile ≠ 3) ∧
  (∃ (s : State), s.blk.pw.kind = some 2 ∧ s.blk.profile ≠ 3 ∧ s.blk.host.held = []) ∧
  (∃ (s : State) (d : Half) (b : Block) (h : Header) (hw : List Word) (l : List Word), s.blk.hostFree = true ∧ s.blk.get SYS_BOOT_STAT ≠ 1 ∧ s.blk.flag SYS_CYCLE_RUN = false ∧ (s.blk.put SYS_BOOT_ADDR d.toNat).readImage (d.toNat % 2 ^ 29) 0x5953 = (b, h, hw, l, 0) ∧ h.bare = true ∧ b.imageAuth h hw l = 0) ∧
  (∃ (s : State), s.blk.hostFree = true ∧ s.blk.get SYS_BOOT_STAT ≠ 1 ∧ s.blk.flag SYS_CYCLE_RUN = true) ∧
  (∃ (s : State) (d : Half), s.blk.hostFree = true ∧ s.blk.get SYS_BOOT_STAT ≠ 1 ∧ s.blk.flag SYS_CYCLE_RUN = false ∧ lastWord < d.toNat % 2 ^ 29 + 7) ∧
  (∃ (s : State), s.blk.get SYS_BOOT_STAT = 1) :=
  ⟨⟨(hwS [(PWR_STAT_STATE,5),(PWR_STAT_DOMON,1),(PWR_STAT_MAINS,0),(PWR_LAST_BKUP,1),(PWR_LAST_FAILS,7),(SEC_LOGCTL_COUNT,3),(SYS_RSTCAUSE_NMOD,65535)] (fun p => {p with shed := true, cell := true, brown := false, sealed := BitVec.ofNat 1538 (3*2^1536)}) (fun b => {b with tm := {b.tm with record := some ⟨9*2^60,3,5⟩}, retRec := [⟨0,7⟩,⟨4,3⟩]})), by decide +kernel⟩,
   ⟨(hwS [(PWR_STAT_STATE,5),(PWR_STAT_DOMON,1),(PWR_STAT_MAINS,0),(PWR_LAST_BKUP,1),(PWR_LAST_FAILS,7),(SEC_LOGCTL_COUNT,3),(SYS_RSTCAUSE_NMOD,65535)] (fun p => {p with shed := true, cell := true, brown := false, sealed := BitVec.ofNat 1538 (3*2^1536)}) (fun b => {b with tm := {b.tm with record := some ⟨9*2^60,3,5⟩}, retRec := [⟨0,7⟩,⟨4,3⟩]})), 4, by decide +kernel⟩,
   ⟨(hwS [(PWR_STAT_STATE,3),(PWR_STAT_DOMON,3),(SYS_RSTCAUSE_NMOD,65535)] (fun p => {p with shed := true, failAt := some 5}) (fun b => {b with tm := {b.tm with record := some ⟨9*2^60,3,5⟩}, retRec := [⟨0,7⟩,⟨4,3⟩]})), 5, by decide +kernel⟩,
   ⟨(hwS (lk++[(SYS_CYCLE_PERIOD,300),(GAL_STAT_STATE 3,3),(FLW_CTL_EN,1),(PAIR_CFG_EN,1),(SEC_FUSE_STATE 2,1)]) id (fun b => {b with cav := {b.cav with mem := [(5,7)]}, retRec := [⟨0,7⟩]})), 0xFA5C303, by decide +kernel⟩,
   ⟨(hwS (lk++[(SYS_CYCLE_PERIOD,300),(SYS_CYCLE_RUN,1),(GAL_STAT_STATE 3,3),(FLW_CTL_EN,1),(PAIR_CFG_EN,1),(SEC_FUSE_STATE 2,1),(PIO_OUT_CTL_EN 2,1)]) id (fun b => {b with cav := {b.cav with mem := [(5,7)]}, retRec := [⟨0,7⟩]})), 0xA5C302, by decide +kernel⟩,
   ⟨(hwS), 0, (.moduleReset 0), ⟨by decide +kernel, Or.inr (rfl), by decide +kernel⟩⟩,
   ⟨(hwS [(SYS_BOOT_STAT,1)]), 0xA5C303, (.moduleReset 0xA5C303), ⟨by decide +kernel, Or.inr (rfl), by decide +kernel⟩⟩,
   ⟨(hwS [(PWR_STAT_STATE,1),(SYS_RSTCAUSE_NLINE,65535),(PWR_STAT_DOMON,0x80F),(SYS_RST_BUSY,1)] (fun p => {p with kind := some 3}) (fun b => {b with tm := {b.tm with record := some ⟨9*2^60,3,5⟩}, retRec := [⟨0,7⟩,⟨4,3⟩]})), by decide +kernel⟩,
   ⟨(hwS [(PWR_STAT_STATE,4),(SYS_RSTCAUSE_NMOD,65535),(PWR_STAT_DOMON,3),(SYS_RST_BUSY,1)] (fun p => {p with kind := some 2}) (fun b => {b with tm := {b.tm with record := some ⟨9*2^60,3,5⟩}, retRec := [⟨0,7⟩,⟨4,3⟩]})), by decide +kernel⟩,
   ⟨(bootS), 1000, ((bootS.blk.put SYS_BOOT_ADDR 1000).readImage 1000 0x5953 |>.1), ((bootS.blk.put SYS_BOOT_ADDR 1000).readImage 1000 0x5953 |>.2.1), ((bootS.blk.put SYS_BOOT_ADDR 1000).readImage 1000 0x5953 |>.2.2.1), ((bootS.blk.put SYS_BOOT_ADDR 1000).readImage 1000 0x5953 |>.2.2.2.1), by decide +kernel⟩,
   ⟨(hwS [(SYS_CYCLE_RUN,1)]), by decide +kernel⟩,
   ⟨(hwS [(SYS_BOOT_STAT,3)]), 0x1FFFFFFF, by decide +kernel⟩,
   ⟨(hwS [(SYS_BOOT_STAT,1)]), by decide +kernel⟩⟩

/-- The hypotheses of `StepRunsFront` can be met. -/
theorem witness_StepRunsFront :
    (∃ (s : State) (c : Instr) (rest : List Instr), s.pending = c :: rest) ∧ (∃ s : State, s.pending = []) :=
  ⟨⟨{ State.reset with pending := [.hostErrClr] }, .hostErrClr, [], rfl⟩, ⟨State.reset, rfl⟩⟩

/-- The hypotheses of `StepKeepsInvariants` can be met. -/
theorem witness_StepKeepsInvariants :
    ∃ s t : State, step s = .next t ∧ s.cavernWf ∧ s.tagsWf ∧ s.blk.coreOk = true :=
  ⟨{ State.reset with pending := [.hostErrClr] }, _, rfl, by unfold State.cavernWf; decide +kernel, by unfold State.tagsWf; decide +kernel, by decide +kernel⟩

/-- The hypotheses of `GalleryEncoding` can be met. -/
theorem witness_GalleryEncoding :
    (∃ i : Insn, i.wf = true) ∧ (∃ (w : Word) (i : Insn), decodeInsn w = some i) ∧ (∃ w : Word, Op.ofCode (opBits w) = none) :=
  ⟨⟨⟨.add, .a ⟨8, 2, 3, 0, 0, 0⟩⟩, by decide +kernel⟩,
   ⟨0x2020200003D0900000, (decodeInsn 0x2020200003D0900000).get (by decide +kernel), by decide +kernel⟩,
   ⟨0xEE0000000000000000, by decide +kernel⟩⟩

end Sys2Proof.Tests
end

section
/-! SUPPORT. Changes of the block by register offset: which registers and parts an operation may change, and how such changes
compose into the frame of a command. -/

namespace Sys2Proof.Machine

/-- `c` is `b` but for the registers whose offset `touch` names and the parts listed. -/
def Block.changes (touch : Nat → Bool) (ps : List Part) (b c : Block) : Prop :=
  (∀ a, touch a = false → c.reg a = b.reg a) ∧ b.only ps c

theorem changes_refl (touch : Nat → Bool) (ps : List Part) (b : Block) : b.changes touch ps b :=
  ⟨fun _ _ => rfl, only_refl ps b⟩

theorem changes_trans {touch : Nat → Bool} {ps : List Part} {b c d : Block} (h1 : b.changes touch ps c)
    (h2 : c.changes touch ps d) : b.changes touch ps d :=
  ⟨fun a h => (h2.1 a h).trans (h1.1 a h), only_trans h1.2 h2.2⟩

theorem changes_mono {touch touch' : Nat → Bool} {ps ps' : List Part} {b c : Block} (h : b.changes touch ps c)
    (ht : ∀ a, touch a = true → touch' a = true) (hp : ps ⊆ ps') : b.changes touch' ps' c :=
  ⟨fun a ha => h.1 a (Bool.eq_false_iff.mpr fun hx => Bool.eq_false_iff.mp ha (ht a hx)), only_mono h.2 hp⟩

theorem setReg_changes {touch : Nat → Bool} (ps : List Part) (b : Block) {a : Nat} (v : Word) (h : touch a = true) :
    b.changes touch ps (b.setReg a v) :=
  ⟨fun c hc => Block.reg_setReg_ne b v (fun e => by simp [e, h] at hc), setReg_only _ _ _ _⟩

/-- An event changes EVT_PEND, EVT_OVR, and what the host interface holds and sends (R96). -/
theorem raise_changes {touch : Nat → Bool} {ps : List Part} (b : Block) (n : Nat) (h : ∀ a, evTouch a = true → touch a = true)
    (hp : [.host, .out] ⊆ ps) : b.changes touch ps (b.raise n) := by
  refine ⟨fun a ha => (raise_keeps b n).2 a ?_, only_mono (raise_only b n) hp⟩
  have he : evTouch a = false := Bool.eq_false_iff.mpr fun hx => Bool.eq_false_iff.mp ha (h a hx)
  simpa [evTouch] using he

/-! The same after a change that is already there. -/

section
variable {touch : Nat → Bool} {ps : List Part} {b c : Block}

theorem changes_setReg {a : Nat} {v : Word} (h : b.changes touch ps c) (ha : touch a = true) :
    b.changes touch ps (c.setReg a v) := changes_trans h (setReg_changes ps c v ha)

theorem changes_put {f : Field} {v : Nat} (h : b.changes touch ps c) (hf : touch f.addr = true) :
    b.changes touch ps (c.put f v) := changes_setReg h hf

theorem changes_putB {f : Field} {v : Bool} (h : b.changes touch ps c) (hf : touch f.addr = true) :
    b.changes touch ps (c.putB f v) := changes_put h hf

theorem changes_raise {n : Nat} (h : b.changes touch ps c) (he : ∀ a, evTouch a = true → touch a = true)
    (hp : [.host, .out] ⊆ ps) : b.changes touch ps (c.raise n) := changes_trans h (raise_changes c n he hp)

theorem changes_part {d : Block} (h : b.changes touch ps c) (hr : d.regs = c.regs) (ho : c.only ps d) :
    b.changes touch ps d := ⟨fun a ha => by simpa only [Block.reg, hr] using h.1 a ha, only_trans h.2 ho⟩

theorem changes_emit {o : Out} (h : b.changes touch ps c) (hp : [.out] ⊆ ps) : b.changes touch ps (c.emit o) :=
  changes_part h rfl (only_mono (emit_only c o) hp)

end

@[simp] theorem emit_out (b : Block) (o : Out) : (b.emit o).out = o :: b.out := rfl

/-- Equal registers: the parts alone differ. -/
theorem changes_of_only {touch : Nat → Bool} {ps : List Part} {b c : Block} (hr : c.regs = b.regs) (h : b.only ps c) :
    b.changes touch ps c := changes_part (changes_refl _ _ b) hr h

theorem changes_of_counted {b c : Block} (h : b.counted c) : b.changes galTouch [.trc, .host, .out] c := h

/-- A field of a register outside the change reads as before. -/
theorem changes_get {touch : Nat → Bool} {ps : List Part} {b c : Block} (h : b.changes touch ps c) {f : Field}
    (hf : touch f.addr = false) : c.get f = b.get f := by simp only [Block.get, h.1 _ hf]

theorem changes_flag {touch : Nat → Bool} {ps : List Part} {b c : Block} (h : b.changes touch ps c) {f : Field}
    (hf : touch f.addr = false) : c.flag f = b.flag f := by simp only [Block.flag, changes_get h hf]

/-- The frame of a command by register offsets is what its effect changes. -/
theorem frameOn_intro {touch : Nat → Bool} {ps : List Part} {s : State} {c : Block} {u : SMap (BitVec 8)}
    (h : s.blk.changes touch ps c) : FrameOn touch ps s ⟨c.withTags u, s.pending⟩ := ⟨h.1, h.2, rfl⟩

/-- Another value in one part keeps the registers. -/
theorem keeps_of_reg {l : List Field} {b c : Block} (h : ∀ a, c.reg a = b.reg a) : b.keeps l c :=
  ⟨fun g _ => by simp only [Block.get, h], fun a _ => h a⟩

/-! ### Parts that a change does not list -/

theorem only_tm {l : List Part} {b c : Block} (h : b.only l c) (hp : .tm ∉ l) : c.tm = b.tm := h.1 hp

theorem only_cyc {l : List Part} {b c : Block} (h : b.only l c) (hp : .cyc ∉ l) : c.cyc = b.cyc := h.2.1 hp

theorem only_eng {l : List Part} {b c : Block} (h : b.only l c) (hp : .eng ∉ l) : c.eng = b.eng := by
  obtain ⟨-, -, -, -, -, -, -, -, heng, -⟩ := h
  exact heng hp

theorem only_snap {l : List Part} {b c : Block} (h : b.only l c) (hp : .snap ∉ l) : c.snap = b.snap := by
  obtain ⟨-, -, -, -, -, -, -, -, -, -, hsnap, -⟩ := h
  exact hsnap hp

/-! ### Commands of the host that find nothing in their way -/

theorem done_congr {s : State} {f g : Block → Block} (h : f s.blk = g s.blk) : done s f = done s g := by
  simp only [done, h]

/-- While no request waits a write of the host acts as it arrives (R67). -/
theorem done_byHost {s : State} (hf : s.blk.hostFree = true) (cmd : Instr) (act : Block → Block) :
    done s (byHost cmd act) = done s act := done_congr (byHost_free hf cmd act)

/-- Outside a synchronised pair a journaled write acts at once (R78). -/
theorem done_journaled {s : State} (hf : s.blk.hostFree = true) (hs : s.blk.synced = false) (cmd : Instr)
    (act : Block → Block) : done s (journaled cmd act) = done s act := done_congr (journaled_free hf hs cmd act)

end Sys2Proof.Machine
end

section
/-! The machine after reset (R16). -/

namespace Sys2Proof.Machine

/-- After reset the register file lists nothing, so that every register reads its reset value. -/
theorem reset_reg (a : Nat) : State.reset.blk.reg a = regReset a := rfl

/-- No engine is loaded, and no ring, lane or pair has left its first state. -/
theorem reset_rests : (∀ n < 16, State.reset.blk.get (GAL_STAT_STATE n) = 0) ∧ (∀ n < 32, State.reset.blk.ringState n = 0) ∧
    (∀ l < 36, State.reset.blk.laneState l = 0) ∧ State.reset.blk.pairState = 0 := by
  refine ⟨?_, ?_, ?_, ?_⟩ <;> decide +kernel

/-- Settles O57: each part is evaluated on the reset state; the registers are the reset values by definition. -/
theorem resetState : Obligations.ResetState := by
  unfold Obligations.ResetState
  obtain ⟨hEngines, hRings, hLanes, hPair⟩ := reset_rests
  have hCore : State.reset.blk.coreOk = true := by decide +kernel
  refine ⟨rfl, Memory.wf_nil, swf_nil _, hCore, reset_reg, rfl, rfl, rfl, rfl, rfl, rfl, hEngines, hRings, hLanes, hPair, ?_⟩
  decide +kernel

end Sys2Proof.Machine
end

section
/-! SUPPORT. The cycle sequencer: the grid, the stored and the present PERIOD and PHASE, and what a write of SYS_CYCLE and a
boundary leave. -/

namespace Sys2Proof.Machine

/-! ### The grid (R24) -/

theorem le_gridAt (p ph from_ : Nat) : from_ ≤ gridAt p ph from_ := Nat.le_add_right _ _

/-- The distance to the next grid instant is the remainder that `gridAt` takes. -/
theorem gridAt_cast {p : Nat} (hp : 0 < p) (ph from_ : Nat) :
    (gridAt p ph from_ : Int) = from_ + (ph * 1000 - from_ : Int) % (p * 1000) := by
  have h0 : 0 ≤ (ph * 1000 - from_ : Int) % (p * 1000) := Int.emod_nonneg _ (by omega)
  simp only [gridAt, Nat.cast_add, Int.toNat_of_nonneg h0]

theorem gridAt_lt {p : Nat} (hp : 0 < p) (ph from_ : Nat) : gridAt p ph from_ < from_ + p * 1000 := by
  have h := gridAt_cast hp ph from_
  have hlt : (ph * 1000 - from_ : Int) % (p * 1000) < p * 1000 := Int.emod_lt_of_pos _ (by omega)
  omega

/-- `gridAt` is an instant of the grid of `p` and `ph`. -/
theorem gridAt_on_grid {p : Nat} (hp : 0 < p) (ph from_ : Nat) :
    ((gridAt p ph from_ : Int) - ph * 1000) % (p * 1000) = 0 := by
  have h : (gridAt p ph from_ : Int) - ph * 1000 = p * 1000 * (-((ph * 1000 - from_ : Int) / (p * 1000))) := by
    rw [gridAt_cast hp, Int.emod_def]
    ring
  rw [h, Int.mul_emod_right]

/-! ### Claims rechecked (R180) -/

/-- What a recheck of claims may touch: the causes of the engines, and the event registers. -/
def claimTouch (a : Nat) : Bool := (List.range 16).any (fun n => a == (GAL_CAUSE_CLAIM n).addr) || evTouch a

theorem galCause_changes {n : Nat} (b : Block) (hn : n < 16) :
    b.changes claimTouch [.host, .out] (b.galCause (GAL_CAUSE_CLAIM n) n) := by
  have hc : claimTouch (GAL_CAUSE_CLAIM n).addr = true := by
    simp only [claimTouch, Bool.or_eq_true, List.any_eq_true, List.mem_range]
    exact .inl ⟨n, hn, beq_self_eq_true _⟩
  exact changes_raise (changes_putB (changes_refl _ _ b) hc) (fun a ha => by simp [claimTouch, ha]) (List.Subset.refl _)

theorem claimChecks_changes (set : List Nat) : ∀ (l : List Nat) (b : Block), (∀ n ∈ l, n < 16) →
    b.changes claimTouch [.host, .out] (b.claimChecks set l)
  | [], b, _ => changes_refl _ _ b
  | _ :: r, b, h => by
    refine changes_trans ?_ (claimChecks_changes set r _ fun m hm => h m (List.mem_cons_of_mem _ hm))
    split
    · exact changes_refl _ _ b
    · exact galCause_changes b (h _ List.mem_cons_self)

theorem claimCheck_changes (b : Block) : b.changes claimTouch [.host, .out] b.claimCheck :=
  claimChecks_changes _ _ b fun _ hn => List.mem_range.mp (List.mem_of_mem_filter hn)

/-! ### A PERIOD put in force (R27, R33, R210) -/

/-- What follows a new PERIOD in force beside SYS_CYCLE itself. -/
def fitTouch (a : Nat) : Bool := a == SYS_MSLOT || a == FLW_USE || claimTouch a

theorem fitSlot_changes (b : Block) : b.changes fitTouch [.host, .out] b.fitSlot :=
  changes_put (changes_put (changes_putB (changes_refl _ _ b) rfl) rfl) rfl

/-- PERIN and PHIN show PERIOD and PHASE. -/
def Block.showForce (b : Block) : Block :=
  (b.put SYS_CYCLE_PERIN (b.get SYS_CYCLE_PERIOD)).put SYS_CYCLE_PHIN (b.get SYS_CYCLE_PHASE)

theorem putInForceNow_fits (b : Block) : b.showForce.changes fitTouch [.host, .out] b.putInForceNow :=
  changes_trans (changes_put (fitSlot_changes b.showForce) rfl)
    (changes_mono (claimCheck_changes _) (fun a ha => by simp [fitTouch, ha]) (List.Subset.refl _))

theorem putInForceNow_changes (b : Block) : b.changes periodTouch [.host, .out] b.putInForceNow := by
  have h : ∀ a, fitTouch a = true → periodTouch a = true := fun a ha => by
    simp only [fitTouch, claimTouch, periodTouch, Bool.or_eq_true] at ha ⊢
    tauto
  exact changes_trans (changes_put (changes_put (changes_refl _ _ b) rfl) rfl)
    (changes_mono (putInForceNow_fits b) h (List.Subset.refl _))

theorem putInForceNow_cyc (b : Block) : b.putInForceNow.cyc = b.cyc := only_cyc (putInForceNow_changes b).2 (by simp)

theorem putInForceNow_tm (b : Block) : b.putInForceNow.tm = b.tm := only_tm (putInForceNow_changes b).2 (by simp)

/-- A field of SYS_CYCLE after a PERIOD is put in force. -/
theorem putInForceNow_get (b : Block) {f : Field} (hf : f.addr = SYS_CYCLE) : b.putInForceNow.get f = b.showForce.get f :=
  changes_get (putInForceNow_fits b) (by rw [hf]; decide)

theorem putInForceNow_flag (b : Block) {f : Field} (hf : f.addr = SYS_CYCLE) : b.putInForceNow.flag f = b.showForce.flag f := by
  simp only [Block.flag, putInForceNow_get b hf]

@[simp] theorem showForce_perin (b : Block) : b.showForce.get SYS_CYCLE_PERIN = b.get SYS_CYCLE_PERIOD := by
  simpa [Block.showForce] using Nat.mod_eq_of_lt (b.get_lt SYS_CYCLE_PERIOD)

@[simp] theorem showForce_phin (b : Block) : b.showForce.get SYS_CYCLE_PHIN = b.get SYS_CYCLE_PHASE := by
  simpa [Block.showForce] using Nat.mod_eq_of_lt (b.get_lt SYS_CYCLE_PHASE)

/-- The fields of SYS_CYCLE below PERIN stay. -/
theorem showForce_get (b : Block) {f : Field} (h : f.lo + f.w ≤ 27) : b.showForce.get f = b.get f := by
  rw [Block.showForce, Block.get_put_apart _ _ _ _ (.inr (.inr (by simp only; omega))),
    Block.get_put_apart _ _ _ _ (.inr (.inr h))]

/-! ### A write of SYS_CYCLE (R18, R25 to R27) -/

/-- PERIOD takes the value that a write carries, if it is no reserved one. -/
def Block.periodStored (b : Block) (data : Half) : Block :=
  if b.periodOk (data.toNat % 2 ^ 12) then b.put SYS_CYCLE_PERIOD (data.toNat % 2 ^ 12) else b

/-- PHASE is held against the PERIOD then stored. -/
theorem storePeriod_eq (b : Block) (data : Half) : b.storePeriod data =
    if data.toNat / 2 ^ 12 % 2 ^ 12 < (b.periodStored data).get SYS_CYCLE_PERIOD then
      (b.periodStored data).put SYS_CYCLE_PHASE (data.toNat / 2 ^ 12 % 2 ^ 12)
    else b.periodStored data := rfl

theorem periodStored_period (b : Block) (data : Half) :
    (b.periodStored data).get SYS_CYCLE_PERIOD = b.periodAfter data := by
  unfold Block.periodStored Block.periodAfter
  split
  · simp
  · rfl

theorem periodStored_phase (b : Block) (data : Half) :
    (b.periodStored data).get SYS_CYCLE_PHASE = b.get SYS_CYCLE_PHASE := by
  unfold Block.periodStored
  split
  · simp
  · rfl

theorem periodStored_keeps (b : Block) (data : Half) : b.keeps [SYS_CYCLE_PERIOD, SYS_CYCLE_PHASE] (b.periodStored data) := by
  unfold Block.periodStored
  split
  · exact keeps_put (keeps_refl _ b) List.mem_cons_self
  · exact keeps_refl _ b

theorem periodStored_only (b : Block) (data : Half) : b.only [] (b.periodStored data) := by
  unfold Block.periodStored
  split
  · exact put_only _ b _ _
  · exact only_refl _ b

theorem storePeriod_keeps (b : Block) (data : Half) : b.keeps [SYS_CYCLE_PERIOD, SYS_CYCLE_PHASE] (b.storePeriod data) := by
  rw [storePeriod_eq]
  split
  · exact keeps_put (periodStored_keeps b data) (by simp)
  · exact periodStored_keeps b data

theorem storePeriod_only (b : Block) (data : Half) : b.only [] (b.storePeriod data) := by
  rw [storePeriod_eq]
  split <;> exact periodStored_only b data

theorem storePeriod_stored (b : Block) (data : Half) : b.storedFrom (b.storePeriod data) data := by
  rw [storePeriod_eq, Block.storedFrom, Block.phaseAfter, periodStored_period]
  split
  · exact ⟨by simp [periodStored_period], by simp⟩
  · exact ⟨periodStored_period b data, periodStored_phase b data⟩

theorem storePeriod_changes (b : Block) (data : Half) : b.changes periodTouch [] (b.storePeriod data) :=
  ⟨fun a ha => (storePeriod_keeps b data).2 a (by
    have h : a ≠ SYS_CYCLE := fun e => by simp [e, periodTouch] at ha
    simp [h]), storePeriod_only b data⟩

theorem storePeriod_cyc (b : Block) (data : Half) : (b.storePeriod data).cyc = b.cyc := only_cyc (storePeriod_only b data) (by simp)

/-- What the state shows of PERIOD and PHASE rests on those two fields alone. -/
theorem storedFrom_congr {b c d : Block} {data : Half} (h : b.storedFrom c data)
    (hp : d.get SYS_CYCLE_PERIOD = c.get SYS_CYCLE_PERIOD) (hq : d.get SYS_CYCLE_PHASE = c.get SYS_CYCLE_PHASE) :
    b.storedFrom d data := ⟨hp.trans h.1, hq.trans h.2⟩

/-- The values of a write are stored, RUN takes the value `run`, and an ARM waits for the next boundary. -/
def Block.storeRun (b : Block) (data : Half) (arm run : Bool) : Block :=
  ((b.storePeriod data).putB SYS_CYCLE_RUN run).mapCyc (fun c => { c with armPend := c.armPend || arm })

theorem cycleWrite_run {b : Block} {data : Half} {arm : Bool} (hc : b.cycling = true) (hr : data.getLsbD 25 = true) :
    b.cycleWrite data arm = b.storeRun data arm true := by
  simp only [Block.cycleWrite, Block.storeRun, Block.mapCyc, hc, hr, Bool.not_true, Bool.false_eq_true, if_false, if_true]
  cases arm
  · simp only [Bool.or_false]; rfl
  · simp only [Bool.or_true]; rfl

theorem cycleWrite_stop {b : Block} {data : Half} {arm : Bool} (hc : b.cyc.inProg = true) (hr : data.getLsbD 25 = false) :
    b.cycleWrite data arm = b.storeRun data arm false := by
  simp only [Block.cycleWrite, Block.storeRun, Block.mapCyc, Block.cycling, hc, hr, Bool.or_true, Bool.not_true,
    Bool.false_eq_true, if_false, if_true]
  cases arm
  · simp only [Bool.or_false]; rfl
  · simp only [Bool.or_true]; rfl

/-- RUN 0 before the first boundary: no cycle begins, and no ARM waits. -/
def Block.stopEarly (b : Block) (data : Half) : Block :=
  ((b.storePeriod data).putB SYS_CYCLE_RUN false).mapCyc (fun c => { c with firstAt := none, armPend := false })

theorem cycleWrite_stop_early {b : Block} {data : Half} {arm : Bool} (hf : b.flag SYS_CYCLE_RUN = true)
    (hc : b.cyc.inProg = false) (hr : data.getLsbD 25 = false) :
    b.cycleWrite data arm =
      if arm || b.cyc.armPend then (b.stopEarly data).putInForceNow else b.stopEarly data := by
  simp only [Block.cycleWrite, Block.stopEarly, Block.mapCyc, Block.cycling, hc, hr, hf, Bool.or_false, Bool.not_true,
    Bool.false_eq_true, if_false]

theorem cycleWrite_store {b : Block} {data : Half} (hc : b.cycling = false) (hr : data.getLsbD 25 = false) :
    b.cycleWrite data false = b.storePeriod data := by
  simp only [Block.cycleWrite, hc, hr, Bool.not_false, Bool.false_eq_true, if_false, if_true]

theorem cycleWrite_force {b : Block} {data : Half} (hc : b.cycling = false) (hr : data.getLsbD 25 = false) :
    b.cycleWrite data true = (b.storePeriod data).putInForceNow := by
  simp only [Block.cycleWrite, hc, hr, Bool.not_false, Bool.false_eq_true, if_false, if_true]

theorem cycleWrite_start {b : Block} {data : Half} {arm : Bool} (hc : b.cycling = false) (hr : data.getLsbD 25 = true) :
    b.cycleWrite data arm = (b.storePeriod data).startCycles := by
  simp only [Block.cycleWrite, hc, hr, Bool.not_false, if_true]

/-! ### The effects of a write, field by field -/

section
variable (b : Block) (data : Half) (arm run : Bool)

theorem storeRun_stored : b.storedFrom (b.storeRun data arm run) data :=
  storedFrom_congr (storePeriod_stored b data) (Block.get_putB_apart _ _ _ _ (by decide)) (Block.get_putB_apart _ _ _ _ (by decide))

theorem storeRun_flag : (b.storeRun data arm run).flag SYS_CYCLE_RUN = run :=
  Block.flag_putB_same _ _ _ (by decide) rfl

theorem storeRun_cyc : (b.storeRun data arm run).cyc = { b.cyc with armPend := b.cyc.armPend || arm } := by
  simp only [Block.storeRun, Block.mapCyc, Block.putB_cyc, storePeriod_cyc]

theorem storeRun_keeps : b.keeps [SYS_CYCLE_PERIOD, SYS_CYCLE_PHASE, SYS_CYCLE_RUN] (b.storeRun data arm run) :=
  keeps_part (keeps_putB (keeps_mono (storePeriod_keeps b data) (by simp)) (by simp)) rfl

theorem storeRun_only : b.only [.cyc] (b.storeRun data arm run) :=
  only_trans (only_mono (storePeriod_only b data) (by simp)) (by simp [Block.only, Block.storeRun, Block.mapCyc])

theorem stopEarly_cyc : (b.stopEarly data).cyc = { b.cyc with armPend := false, firstAt := none } := by
  simp only [Block.stopEarly, Block.mapCyc, Block.putB_cyc, storePeriod_cyc]

theorem stopEarly_stored : b.storedFrom (b.stopEarly data) data :=
  storedFrom_congr (storePeriod_stored b data) (Block.get_putB_apart _ _ _ _ (by decide)) (Block.get_putB_apart _ _ _ _ (by decide))

theorem stopEarly_flag : (b.stopEarly data).flag SYS_CYCLE_RUN = false := Block.flag_putB_same _ _ _ (by decide) rfl

theorem stopEarly_changes : b.changes periodTouch [.cyc, .host, .out] (b.stopEarly data) :=
  changes_part (changes_putB (changes_mono (storePeriod_changes b data) (fun _ h => h) (by simp)) rfl) rfl
    (by simp [Block.only, Block.stopEarly, Block.mapCyc])

end

/-- Putting in force what is stored leaves PERIOD and PHASE, and PERIN and PHIN show them. -/
theorem putInForceNow_stored {b c : Block} {data : Half} (h : b.storedFrom c data) :
    b.storedFrom c.putInForceNow data ∧ b.forceFrom c.putInForceNow data := by
  obtain ⟨hper, hph⟩ := h
  refine ⟨⟨?_, ?_⟩, ?_, ?_⟩
  · rw [putInForceNow_get c rfl, showForce_get c (by decide), hper]
  · rw [putInForceNow_get c rfl, showForce_get c (by decide), hph]
  · rw [putInForceNow_get c rfl, showForce_perin, hper]
  · rw [putInForceNow_get c rfl, showForce_phin, hph]

theorem putInForceNow_run (b : Block) : b.putInForceNow.flag SYS_CYCLE_RUN = b.flag SYS_CYCLE_RUN := by
  simp only [Block.flag, putInForceNow_get b (f := SYS_CYCLE_RUN) rfl, showForce_get b (f := SYS_CYCLE_RUN) (by decide)]

theorem putInForceNow_trans (b : Block) : b.putInForceNow.get SYS_CYCLE_TRANS = b.get SYS_CYCLE_TRANS := by
  rw [putInForceNow_get b rfl, showForce_get b (by decide)]

/-- Neither RUN nor TRANS is among what a write stores. -/
theorem storePeriod_get {b : Block} {data : Half} {f : Field} (h : 24 ≤ f.lo) : (b.storePeriod data).get f = b.get f :=
  (storePeriod_keeps b data).1 f (by simp [apart]; omega)

end Sys2Proof.Machine
end

section
/-! How cycles start and how a boundary begins the next one, and the statement on cycles. -/

namespace Sys2Proof.Machine

/-! ### Cycles start (R25) -/

/-- The block in which cycles have been started, but for the instant of the first boundary. -/
def Block.startForce (b : Block) : Block := (b.putB SYS_CYCLE_RUN true).putInForceNow

theorem startCycles_eq (b : Block) : b.startCycles = b.startForce.mapCyc (fun c => { c with
    armPend := false, firstAt := some (gridAt (b.startForce.get SYS_CYCLE_PERIN) (b.startForce.get SYS_CYCLE_PHIN)
      (ceilDiv b.startForce.tm.lt nsUnit + 2000)) }) := rfl

theorem startForce_tm (b : Block) : b.startForce.tm = b.tm := putInForceNow_tm _

theorem startCycles_first (b : Block) : b.startCycles.cyc.firstAt = some (gridAt (b.startForce.get SYS_CYCLE_PERIN)
    (b.startForce.get SYS_CYCLE_PHIN) (ceilDiv b.tm.lt nsUnit + 2000)) := by
  rw [← startForce_tm b, startCycles_eq]
  rfl

theorem startCycles_get (b : Block) (f : Field) : b.startCycles.get f = b.startForce.get f := rfl

/-- A whole nanosecond begun counts: 2 µs ahead of the present is reckoned from the next one. -/
theorem ceilDiv_ns (b : Block) : b.nowNs ≤ ceilDiv b.tm.lt nsUnit ∧ ceilDiv b.tm.lt nsUnit ≤ b.nowNs + 1 := by
  simp only [Block.nowNs, ceilDiv, nsUnit]
  omega

/-- The first boundary is the earliest instant of the grid in force at least 2 µs ahead (R25). -/
theorem startCycles_firstAt (b : Block) (hp : 0 < b.startCycles.get SYS_CYCLE_PERIN) :
    ∃ F : Nat, b.startCycles.cyc.firstAt = some F ∧ b.nowNs + 2000 ≤ F ∧
      F < b.nowNs + 2001 + b.startCycles.get SYS_CYCLE_PERIN * 1000 ∧
      ((F : Int) - b.startCycles.get SYS_CYCLE_PHIN * 1000) % (b.startCycles.get SYS_CYCLE_PERIN * 1000) = 0 := by
  simp only [startCycles_get] at hp ⊢
  obtain ⟨hlo, hhi⟩ := ceilDiv_ns b
  have hlt := gridAt_lt hp (b.startForce.get SYS_CYCLE_PHIN) (ceilDiv b.tm.lt nsUnit + 2000)
  exact ⟨_, startCycles_first b, (Nat.add_le_add_right hlo 2000).trans (le_gridAt _ _ _), by omega, gridAt_on_grid hp _ _⟩

theorem startCycles_changes (b : Block) : b.changes periodTouch [.cyc, .host, .out] b.startCycles := by
  have h : b.changes periodTouch [.host, .out] b.startForce :=
    changes_trans (changes_putB (changes_refl _ _ b) rfl) (putInForceNow_changes _)
  exact changes_part (changes_mono h (fun _ ht => ht) (by simp)) rfl (by simp [Block.only, startCycles_eq, Block.mapCyc])

theorem startCycles_stored {b c : Block} {data : Half} (h : b.storedFrom c data) :
    b.storedFrom c.startCycles data ∧ b.forceFrom c.startCycles data :=
  putInForceNow_stored (c := c.putB SYS_CYCLE_RUN true)
    (storedFrom_congr h (Block.get_putB_apart _ _ _ _ (by decide)) (Block.get_putB_apart _ _ _ _ (by decide)))

theorem startCycles_run (b : Block) : b.startCycles.flag SYS_CYCLE_RUN = true :=
  (putInForceNow_run (b.putB SYS_CYCLE_RUN true)).trans (Block.flag_putB_same _ _ _ (by decide) rfl)

theorem startCycles_trans (b : Block) : b.startCycles.get SYS_CYCLE_TRANS = b.get SYS_CYCLE_TRANS :=
  (putInForceNow_trans (b.putB SYS_CYCLE_RUN true)).trans (Block.get_putB_apart _ _ _ _ (by decide))

/-! ### The boundary (R25 to R27) -/

/-- The boundary that is due: of the cycle in progress, or the first. -/
def Block.boundaryDue (b : Block) : Option Nat := if b.cyc.inProg then some b.cyc.next else b.cyc.firstAt

/-- A boundary ends with the begin of a cycle at its instant. -/
theorem boundary_eq {b : Block} {T : Nat} (h : b.boundaryDue = some T) :
    ∃ (c : Block) (armed : Bool), b.boundary = c.cycleBegin T armed := by
  unfold Block.boundaryDue at h
  unfold Block.boundary
  simp only [h]
  exact ⟨_, _, rfl⟩

section
variable (b : Block) (T : Nat) (armed : Bool)

theorem cycleBegin_get (f : Field) : (b.cycleBegin T armed).get f = b.get f := by
  unfold Block.cycleBegin
  split <;> rfl

theorem cycleBegin_flag (f : Field) : (b.cycleBegin T armed).flag f = b.flag f := by
  simp only [Block.flag, cycleBegin_get]

theorem cycleBegin_inProg : (b.cycleBegin T armed).cyc.inProg = b.flag SYS_CYCLE_RUN := by
  unfold Block.cycleBegin
  split
  · rename_i h; exact h.symm
  · rename_i h; exact (Bool.eq_false_iff.mpr h).symm

theorem cycleBegin_firstAt : (b.cycleBegin T armed).cyc.firstAt = none := by
  unfold Block.cycleBegin
  split <;> rfl

theorem cycleBegin_slotUsed : (b.cycleBegin T armed).cyc.slotUsed = 0 := by
  unfold Block.cycleBegin
  split <;> rfl

theorem cycleBegin_triggerAt :
    (b.cycleBegin T armed).cyc.triggerAt = if b.flag SYS_CYCLE_RUN then some (T + 10) else none := by
  unfold Block.cycleBegin
  split <;> rfl

/-- A cycle that begins starts at the boundary and ends at a later instant of the grid; after an ARM no sooner than one PERIOD
later. -/
theorem cycleBegin_cycle (hr : b.flag SYS_CYCLE_RUN = true) :
    (b.cycleBegin T armed).cyc.start = T ∧ (b.cycleBegin T armed).cyc.slotDone = false ∧
      (b.cycleBegin T armed).cyc.next = gridAt (b.get SYS_CYCLE_PERIN) (b.get SYS_CYCLE_PHIN)
        (if armed then T + b.get SYS_CYCLE_PERIN * 1000 else T + 1) := by
  simp only [Block.cycleBegin, hr, if_true]
  exact ⟨rfl, rfl, rfl⟩

theorem cycleBegin_next (hr : b.flag SYS_CYCLE_RUN = true) (hp : 0 < b.get SYS_CYCLE_PERIN) :
    T < (b.cycleBegin T armed).cyc.next ∧
      (((b.cycleBegin T armed).cyc.next : Int) - b.get SYS_CYCLE_PHIN * 1000) % (b.get SYS_CYCLE_PERIN * 1000) = 0 := by
  obtain ⟨-, -, hn⟩ := cycleBegin_cycle b T armed hr
  rw [hn]
  refine ⟨lt_of_lt_of_le ?_ (le_gridAt _ _ _), gridAt_on_grid hp _ _⟩
  split <;> omega

end

/-! ### The statement -/

/-- The two commands that write SYS_CYCLE do what the write does, outside a pair and with no request waiting. -/
theorem exec_cycleWrite {s : State} {i : Instr} {data : Half} {arm : Bool}
    (hi : i = .cycleArm data ∧ arm = true ∨ i = .cycleRunWrite data ∧ arm = data.getLsbD 24)
    (hf : s.blk.hostFree = true) (hs : s.blk.synced = false) : exec i s = done s (Block.cycleWrite data arm) := by
  rcases hi with ⟨rfl, rfl⟩ | ⟨rfl, rfl⟩
  · exact done_journaled hf hs _ _
  · exact done_journaled hf hs _ _

/-- A write while cycles run, or while the last one is in progress, whose effect is `storeRun`. -/
theorem cycleWrite_storeRun {s : State} {o : Host.Outcome State Fault Refusal} {data : Half} {arm run : Bool}
    (ho : o = done s (Block.cycleWrite data arm)) (he : s.blk.cycleWrite data arm = s.blk.storeRun data arm run) :
    ∃ t, o = .next t ∧ s.blk.storedFrom t.blk data ∧ t.blk.flag SYS_CYCLE_RUN = run ∧
      t.blk.cyc = { s.blk.cyc with armPend := s.blk.cyc.armPend || arm } ∧
      Frame [SYS_CYCLE_PERIOD, SYS_CYCLE_PHASE, SYS_CYCLE_RUN] [.cyc] s t := by
  refine done_intro (ho.trans (done_congr (g := fun b => b.storeRun data arm run) he)) fun u => ⟨?_, ?_, ?_, ?_⟩
  · exact storeRun_stored _ _ arm run
  · exact storeRun_flag _ _ arm run
  · exact storeRun_cyc _ _ arm run
  · exact frame_intro (storeRun_keeps _ _ arm run) (storeRun_only _ _ arm run)

theorem cycleWrite_noncycling_force {s : State} {o : Host.Outcome State Fault Refusal} {data : Half}
    (ho : o = done s (Block.cycleWrite data true)) (hc : s.blk.cycling = false) (hr : data.getLsbD 25 = false) :
    ∃ t, o = .next t ∧ s.blk.storedFrom t.blk data ∧ s.blk.forceFrom t.blk data ∧
      t.blk.flag SYS_CYCLE_RUN = false ∧ t.blk.get SYS_CYCLE_TRANS = s.blk.get SYS_CYCLE_TRANS ∧
      t.blk.cyc = s.blk.cyc ∧ FrameOn periodTouch [.host, .out] s t := by
  obtain ⟨hrun, -⟩ := Bool.or_eq_false_iff.mp hc
  obtain ⟨hst, hfo⟩ := putInForceNow_stored (storePeriod_stored s.blk data)
  refine done_intro (ho.trans (done_congr (g := fun b => (b.storePeriod data).putInForceNow) (cycleWrite_force hc hr)))
    fun u => ⟨hst, hfo, ?_, ?_, ?_, ?_⟩
  · have h : (s.blk.storePeriod data).flag SYS_CYCLE_RUN = s.blk.flag SYS_CYCLE_RUN := by
      simp only [Block.flag, storePeriod_get (f := SYS_CYCLE_RUN) (by decide)]
    exact (putInForceNow_run _).trans (h.trans hrun)
  · exact (putInForceNow_trans _).trans (storePeriod_get (by decide))
  · exact (putInForceNow_cyc _).trans (storePeriod_cyc _ _)
  · exact frameOn_intro (changes_trans (changes_mono (storePeriod_changes _ _) (fun _ h => h) (by simp))
      (putInForceNow_changes _))

theorem cycleWrite_starts {s : State} {o : Host.Outcome State Fault Refusal} {data : Half} {arm : Bool}
    (ho : o = done s (Block.cycleWrite data arm)) (hc : s.blk.cycling = false) (hr : data.getLsbD 25 = true) :
    ∃ t, o = .next t ∧ s.blk.storedFrom t.blk data ∧ s.blk.forceFrom t.blk data ∧
      t.blk.flag SYS_CYCLE_RUN = true ∧ t.blk.get SYS_CYCLE_TRANS = s.blk.get SYS_CYCLE_TRANS ∧ t.blk.cyc.armPend = false ∧
      (0 < t.blk.get SYS_CYCLE_PERIN → ∃ F : Nat, t.blk.cyc.firstAt = some F ∧ s.blk.nowNs + 2000 ≤ F ∧
        F < s.blk.nowNs + 2001 + t.blk.get SYS_CYCLE_PERIN * 1000 ∧
        ((F : Int) - t.blk.get SYS_CYCLE_PHIN * 1000) % (t.blk.get SYS_CYCLE_PERIN * 1000) = 0) ∧
      FrameOn periodTouch [.cyc, .host, .out] s t := by
  obtain ⟨hst, hfo⟩ := startCycles_stored (storePeriod_stored s.blk data)
  have hnow : (s.blk.storePeriod data).nowNs = s.blk.nowNs := by
    simp only [Block.nowNs, only_tm (storePeriod_only s.blk data) (by simp)]
  refine done_intro (ho.trans (done_congr (g := fun b => (b.storePeriod data).startCycles) (cycleWrite_start hc hr)))
    fun u => ⟨hst, hfo, startCycles_run _, (startCycles_trans _).trans (storePeriod_get (by decide)), rfl, ?_, ?_⟩
  · rw [← hnow]
    exact startCycles_firstAt _
  · exact frameOn_intro (changes_trans (changes_mono (storePeriod_changes _ _) (fun _ h => h) (by simp))
      (startCycles_changes _))

theorem cycleWrite_stops_early {s : State} {o : Host.Outcome State Fault Refusal} {data : Half} {arm : Bool}
    (ho : o = done s (Block.cycleWrite data arm)) (hf : s.blk.flag SYS_CYCLE_RUN = true) (hc : s.blk.cyc.inProg = false)
    (hr : data.getLsbD 25 = false) :
    ∃ t, o = .next t ∧ s.blk.storedFrom t.blk data ∧ t.blk.flag SYS_CYCLE_RUN = false ∧
      t.blk.cyc = { s.blk.cyc with armPend := false, firstAt := none } ∧
      ((arm || s.blk.cyc.armPend) = true → s.blk.forceFrom t.blk data) ∧ FrameOn periodTouch [.cyc, .host, .out] s t := by
  have he := cycleWrite_stop_early (data := data) (arm := arm) hf hc hr
  have hch := stopEarly_changes s.blk data
  have hst := stopEarly_stored s.blk data
  by_cases ha : (arm || s.blk.cyc.armPend) = true
  · rw [if_pos ha] at he
    obtain ⟨hst', hfo⟩ := putInForceNow_stored hst
    refine done_intro (ho.trans (done_congr (g := fun b => (b.stopEarly data).putInForceNow) he))
      fun u => ⟨hst', ?_, ?_, fun _ => hfo, ?_⟩
    · exact (putInForceNow_run _).trans (stopEarly_flag _ _)
    · exact (putInForceNow_cyc _).trans (stopEarly_cyc _ _)
    · exact frameOn_intro (changes_trans hch (changes_mono (putInForceNow_changes _) (fun _ h => h) (by simp)))
  · rw [if_neg ha] at he
    exact done_intro (ho.trans (done_congr (g := fun b => b.stopEarly data) he))
      fun u => ⟨hst, stopEarly_flag _ _, stopEarly_cyc _ _, fun h => absurd h ha, frameOn_intro hch⟩

theorem cycleBoundary_begins {s : State} {T : Nat} (h : s.blk.boundaryDue = some T) :
    ∃ t, exec .cycleBoundary s = .next t ∧ t.blk.cyc.inProg = t.blk.flag SYS_CYCLE_RUN ∧ t.blk.cyc.firstAt = none ∧
      t.blk.cyc.slotUsed = 0 ∧ t.blk.cyc.triggerAt = (if t.blk.flag SYS_CYCLE_RUN then some (T + 10) else none) ∧
      (t.blk.cyc.inProg = true → t.blk.cyc.start = T ∧ t.blk.cyc.slotDone = false ∧
        (0 < t.blk.get SYS_CYCLE_PERIN → T < t.blk.cyc.next ∧
          ((t.blk.cyc.next : Int) - t.blk.get SYS_CYCLE_PHIN * 1000) % (t.blk.get SYS_CYCLE_PERIN * 1000) = 0)) ∧
      t.pending = s.pending := by
  obtain ⟨c, armed, hb⟩ := boundary_eq h
  refine donePower_intro (exec_cycleBoundary s) fun u => ?_
  simp only [hb, Block.withTags_cyc, Block.withTags_get, Block.withTags_flag, cycleBegin_get, cycleBegin_flag,
    cycleBegin_inProg, cycleBegin_firstAt, cycleBegin_slotUsed, cycleBegin_triggerAt,
    true_and, and_true]
  intro hr
  obtain ⟨hs, hd, -⟩ := cycleBegin_cycle c T armed hr
  exact ⟨hs, hd, cycleBegin_next c T armed hr⟩

/-- Settles O8: a write of SYS_CYCLE is stored, and by RUN and by what is in progress it waits, stops, starts or comes into force;
a boundary ends with the begin of a cycle at its instant. -/
theorem cycles : Obligations.Cycles := by
  unfold Obligations.Cycles
  refine ⟨?_, ?_, ?_, ?_, ?_, ?_, ?_⟩
  · intro s i data arm hi hf hs hc hr
    exact cycleWrite_storeRun (exec_cycleWrite hi hf hs) (cycleWrite_run hc hr)
  · intro s i data arm hi hf hs hc hr
    exact cycleWrite_storeRun (exec_cycleWrite hi hf hs) (cycleWrite_stop hc hr)
  · intro s data hf hs hc hr ha
    have ho : exec (.cycleRunWrite data) s = done s (Block.cycleWrite data false) :=
      exec_cycleWrite (.inr ⟨rfl, ha.symm⟩) hf hs
    exact done_intro (ho.trans (done_congr (g := fun b => b.storePeriod data) (cycleWrite_store hc hr)))
      fun u => ⟨storePeriod_stored _ _, frame_intro (storePeriod_keeps _ _) (storePeriod_only _ _)⟩
  · intro s i data hi hf hs hc hr
    refine cycleWrite_noncycling_force (exec_cycleWrite ?_ hf hs) hc hr
    rcases hi with hi | ⟨hi, ha⟩
    · exact .inl ⟨hi, rfl⟩
    · exact .inr ⟨hi, ha.symm⟩
  · intro s i data arm hi hf hs hc hr
    exact cycleWrite_starts (exec_cycleWrite hi hf hs) hc hr
  · intro s i data arm hi hf hs hrun hc hr
    exact cycleWrite_stops_early (exec_cycleWrite hi hf hs) hrun hc hr
  · intro s T hT
    exact cycleBoundary_begins hT

end Sys2Proof.Machine
end

section
/-! SUPPORT. Counters: what an acknowledge and a sample of a performance counter change (R20, R475, R484). -/

namespace Sys2Proof.Machine

/-! ### The counter registers (R20) -/

theorem count_setCount (b : Block) (a n : Nat) (h : n < 2 ^ 40) :
    (b.setReg a (withField (b.reg a) 0 40 n)).count a = n := by
  rw [Block.count, Block.reg_setReg_same, fieldOf_withField_same _ _ _ _ (by decide), Nat.mod_eq_of_lt h]

theorem count_lt (b : Block) (a : Nat) : b.count a < 2 ^ 40 := fieldOf_lt _ _ _

theorem count_congr {b c : Block} {a : Nat} (h : c.reg a = b.reg a) : c.count a = b.count a := by
  simp only [Block.count, h]

/-- The registers that show bit 39 of the counters are none themselves. -/
theorem not_isCounter_halfsum : isCounter STS_HALFSUM = false := by decide +kernel

theorem not_isCounter_machalf : ∀ n < 33, isCounter (MAC_HALF n) = false := by decide +kernel

/-- The registers in which an acknowledge shows that bit 39 is clear. -/
def halfTouch (r : Nat) : Bool := r == STS_HALFSUM || (List.range 33).any (fun n => r == (MAC_HALF_BIT39 n).addr)

theorem halfTouch_of_isCounter {a : Nat} (h : isCounter a = true) : halfTouch a = false := by
  simp only [halfTouch, Bool.or_eq_false_iff, beq_eq_false_iff_ne, List.any_eq_false, List.mem_range, beq_iff_eq]
  refine ⟨?_, fun n hn => ?_⟩
  · rintro rfl
    simp [not_isCounter_halfsum] at h
  · rintro rfl
    simp [not_isCounter_machalf n hn] at h

/-! ### An acknowledge -/

/-- The counter goes down by 2^39 and its acknowledges up by one (R20, R475). -/
def Block.ackTaken (b : Block) (a : Nat) : Block :=
  { b.setReg a (withField (b.reg a) 0 40 (b.count a - 2 ^ 39)) with snap := { b.snap with
      acks := sput (fun _ => 0) b.snap.acks a ((sget (fun _ => 0) b.snap.acks a + 1) % 256) } }

/-- A MAC's counter clears its bit in MACn_HALF. -/
def Block.ackMac (b : Block) (a : Nat) : Block :=
  if 0x140000 ≤ a && a < 0x161000 && (a - 0x140000) % 0x1000 < 0x800 then
    b.clrBit (MAC_HALF_BIT39 ((a - 0x140000) / 0x1000)) (((a - 0x140000) % 0x1000 - 0x400) / 16)
  else b

/-- STS_HALFSUM is computed again for the group of the counter. -/
def Block.ackSum (b : Block) (a : Nat) : Block :=
  match statGroup a with
  | some g => b.halfSum g
  | none => b

/-- A performance counter is sampled before it is acknowledged (R484). -/
theorem ackCounter_eq (b : Block) (a : Nat) : b.ackCounter a =
    let c := if 0x3C0000 ≤ a ∧ a < 0x3E0000 then b.prfTouch else b
    if isCounter a && decide (2 ^ 39 ≤ c.count a) then ((c.ackTaken a).ackMac a).ackSum a else c := rfl

theorem ackTaken_count (b : Block) (a : Nat) : (b.ackTaken a).count a = b.count a - 2 ^ 39 :=
  count_setCount b a _ (by have := count_lt b a; omega)

theorem ackTaken_acks (b : Block) (a : Nat) :
    sget (fun _ => 0) (b.ackTaken a).snap.acks a = (sget (fun _ => 0) b.snap.acks a + 1) % 256 := by
  simp only [Block.ackTaken, sget_sput_same]

theorem ackTaken_eng (b : Block) (a : Nat) : (b.ackTaken a).eng = b.eng := rfl

theorem ackTaken_changes (b : Block) (a : Nat) : b.changes (fun r => r == a) [.snap] (b.ackTaken a) :=
  ⟨fun r hr => Block.reg_setReg_ne b _ (by simpa using hr), by simp [Block.only, Block.ackTaken]⟩

theorem ackMac_changes (b : Block) (a : Nat) : b.changes halfTouch [] (b.ackMac a) := by
  unfold Block.ackMac
  split
  · rename_i h
    simp only [Bool.and_eq_true, decide_eq_true_eq] at h
    refine changes_put (changes_refl _ _ b) ?_
    simp only [halfTouch, Bool.or_eq_true, List.any_eq_true, List.mem_range, beq_iff_eq]
    exact .inr ⟨(a - 0x140000) / 0x1000, by omega, rfl⟩
  · exact changes_refl _ _ b

theorem ackSum_changes (b : Block) (a : Nat) : b.changes halfTouch [] (b.ackSum a) := by
  unfold Block.ackSum Block.halfSum
  split
  · split
    · exact changes_put (changes_refl _ _ b) rfl
    · exact changes_put (changes_refl _ _ b) rfl
  · exact changes_refl _ _ b

theorem ackShown_changes (b : Block) (a : Nat) : b.changes halfTouch [] ((b.ackMac a).ackSum a) :=
  changes_trans (ackMac_changes b a) (ackSum_changes _ a)

/-- The counter acknowledged is none of the registers that show its bit 39. -/
theorem ackShown_count {b : Block} {a : Nat} (h : isCounter a = true) :
    (((b.ackTaken a).ackMac a).ackSum a).count a = b.count a - 2 ^ 39 :=
  (count_congr ((ackShown_changes _ a).1 a (halfTouch_of_isCounter h))).trans (ackTaken_count b a)

theorem ackShown_acks (b : Block) (a : Nat) :
    sget (fun _ => 0) (((b.ackTaken a).ackMac a).ackSum a).snap.acks a = (sget (fun _ => 0) b.snap.acks a + 1) % 256 := by
  have h : (((b.ackTaken a).ackMac a).ackSum a).snap = (b.ackTaken a).snap :=
    only_snap (ackShown_changes (b.ackTaken a) a).2 (by simp)
  rw [h, ackTaken_acks]

/-- What an acknowledge of the counter at `a` may touch. -/
def ackTouch (a r : Nat) : Bool := r == a || r == STS_HALFSUM || (List.range 33).any (fun n => r == (MAC_HALF_BIT39 n).addr)

theorem ackTouch_eq (a r : Nat) : ackTouch a r = (r == a || halfTouch r) := Bool.or_assoc _ _ _

theorem ackAll_changes (b : Block) (a : Nat) : b.changes (ackTouch a) [.snap] (((b.ackTaken a).ackMac a).ackSum a) :=
  changes_trans (changes_mono (ackTaken_changes b a) (fun r hr => by rw [ackTouch_eq, hr, Bool.true_or]) (List.Subset.refl _))
    (changes_mono (ackShown_changes _ a) (fun r hr => by rw [ackTouch_eq, hr, Bool.or_true]) (by simp))

/-- A performance counter has no register beside it: it belongs to no statistics group. -/
theorem ackShown_perf {b : Block} {a : Nat} (h : within 0x3C0000 0x3E0000 a = true) : (b.ackMac a).ackSum a = b := by
  simp only [within, Bool.and_eq_true, decide_eq_true_eq] at h
  obtain ⟨hlo, hhi⟩ := h
  have hm : b.ackMac a = b := by
    have : ¬ a < 0x161000 := by omega
    simp [Block.ackMac, this]
  have hg : statGroup a = none := by
    have h1 : ¬ a < 0x161000 := by omega
    have h2 : ¬ a < 0x124000 := by omega
    have h3 : ¬ a < 0x1E0000 := by omega
    have h4 : ¬ a < 0x1C0000 := by omega
    have h5 : ¬ a < 0x50000 := by omega
    have h6 : ¬ a < 0x310000 := by omega
    simp [statGroup, h1, h2, h3, h4, h5, h6]
  simp [Block.ackSum, hm, hg]

/-! ### A sample of the performance counters (R484) -/

/-- The engines are as they were, but for how far their ticks have been counted. -/
def Block.seenOnly (b c : Block) : Prop :=
  ∀ e : Fin 16, c.eng[e] = { b.eng[e] with seen := (c.eng[e]).seen, seenWait := (c.eng[e]).seenWait }

theorem seenOnly_of_eng {b c : Block} (h : c.eng = b.eng) : b.seenOnly c := fun e => by rw [h]

theorem seenOnly_trans {b c d : Block} (h1 : b.seenOnly c) (h2 : c.seenOnly d) : b.seenOnly d := fun e =>
  (h2 e).trans (by rw [h1 e])

/-- What a sample may change: the performance counters with their events, and how far the engines' ticks are counted. -/
def Block.sampled (b c : Block) : Prop := b.changes galTouch [.eng, .trc, .host, .out] c ∧ b.seenOnly c

theorem sampled_refl (b : Block) : b.sampled b := ⟨changes_refl _ _ b, seenOnly_of_eng rfl⟩

theorem sampled_trans {b c d : Block} (h1 : b.sampled c) (h2 : c.sampled d) : b.sampled d :=
  ⟨changes_trans h1.1 h2.1, seenOnly_trans h1.2 h2.2⟩

theorem sampled_of_counted {b c : Block} (h : b.counted c) : b.sampled c :=
  ⟨changes_mono (changes_of_counted h) (fun _ ht => ht) (by simp), seenOnly_of_eng (only_eng h.2 (by simp))⟩

/-- A counter of an engine's events raises PERF_HALF as bit 39 becomes set. -/
theorem engCountUp_counted (b : Block) (a n : Nat) (hlo : 0x3D0000 ≤ a) (hhi : a < 0x3E0000) : b.counted (b.countUp a n) := by
  have ha : galTouch a = true := by simp [galTouch, within]; omega
  have hhalf : ∀ c : Block, c.halfEvent a = (c.setBit PRF_CAUSE_ENG ((a - 0x3D0000) / 0x1000)).raise evPerfHalf := fun c => by
    have h1 : ¬ a < 0x3D0000 := by omega
    simp [Block.halfEvent, h1, hlo, hhi]
  unfold Block.countUp
  simp only
  split
  · rw [hhalf]
    exact counted_trans (counted_setReg b _ ha) (counted_trans (counted_setReg _ _ (by decide)) (counted_raise _ _))
  · exact counted_setReg b _ ha

theorem engEventFrom_counted {e : Nat} (he : e < 16) (evt n : Nat) :
    ∀ (k : Nat) (b : Block), k ≤ 8 → b.counted (b.engEventFrom e evt n k)
  | 0, b, _ => counted_refl b
  | k + 1, b, hk => by
    refine counted_trans ?_ (engEventFrom_counted he evt n k _ (by omega))
    split
    · exact engCountUp_counted b _ n (by show 0x3D0000 ≤ 0x3d0100 + 0x1000 * e + 0x10 * k; omega)
        (by show 0x3d0100 + 0x1000 * e + 0x10 * k < 0x3E0000; omega)
    · exact counted_refl b

theorem engEvent_counted {e : Nat} (he : e < 16) (b : Block) (evt n : Nat) : b.counted (b.engEvent e evt n) := by
  unfold Block.engEvent
  split
  · exact counted_refl b
  · exact engEventFrom_counted he evt n 8 b (Nat.le_refl _)

theorem mapEng_seen_sampled (b : Block) (n c w : Nat) :
    b.sampled (b.mapEng n (fun y => { y with seen := c, seenWait := w })) := by
  refine ⟨changes_part (changes_refl _ _ b) rfl (by simp [Block.only, Block.mapEng]), fun e => ?_⟩
  unfold Block.mapEng vmod
  simp only
  split
  · rename_i hn
    by_cases he : n = e.val
    · subst he; simp
    · simp [he]
  · rfl

theorem waitTouch_sampled {n : Nat} (hn : n < 16) (b : Block) : b.sampled (b.waitTouch n) := by
  unfold Block.waitTouch
  simp only
  split
  · exact sampled_refl b
  · split
    · exact sampled_refl b
    · exact sampled_trans (sampled_of_counted (counted_trans (engEvent_counted hn _ _ _) (engEvent_counted hn _ _ _)))
        (mapEng_seen_sampled _ _ _ _)

theorem waitTouches_sampled : ∀ (l : List Nat) (b : Block), (∀ n ∈ l, n < 16) → b.sampled (l.foldl Block.waitTouch b)
  | [], b, _ => sampled_refl b
  | _ :: r, b, h => sampled_trans (waitTouch_sampled (h _ List.mem_cons_self) b)
      (waitTouches_sampled r _ fun m hm => h m (List.mem_cons_of_mem _ hm))

theorem prfTouch_sampled (b : Block) : b.sampled b.prfTouch :=
  sampled_trans (sampled_of_counted (fabTouch_counted b)) (waitTouches_sampled _ _ fun _ hn => List.mem_range.mp hn)

end Sys2Proof.Machine
end

section
/-! SUPPORT. Snapshots: arming, the strobe and the transfer into the idle bank (R476 to R478); the trace (R488, R489). -/

namespace Sys2Proof.Machine

/-! ### Arming (R476, R477) -/

/-- Another snapshot state. -/
def Block.mapSnap (b : Block) (f : SnapSt → SnapSt) : Block := { b with snap := f b.snap }

@[simp] theorem mapSnap_reg (b : Block) (f : SnapSt → SnapSt) (a : Nat) : (b.mapSnap f).reg a = b.reg a := rfl

@[simp] theorem mapSnap_get (b : Block) (f : SnapSt → SnapSt) (g : Field) : (b.mapSnap f).get g = b.get g := rfl

@[simp] theorem mapSnap_flag (b : Block) (f : SnapSt → SnapSt) (g : Field) : (b.mapSnap f).flag g = b.flag g := rfl

theorem mapSnap_only (b : Block) (f : SnapSt → SnapSt) : b.only [.snap] (b.mapSnap f) := by simp [Block.only, Block.mapSnap]

theorem changes_mapSnap {touch : Nat → Bool} {ps : List Part} {b c : Block} {f : SnapSt → SnapSt} (h : b.changes touch ps c)
    (hp : [.snap] ⊆ ps) : b.changes touch ps (c.mapSnap f) := changes_part h rfl (only_mono (mapSnap_only c f) hp)

/-- A snapshot stands armed by the host for the strobe `w`; a late one shows in STS_CAUSE. -/
def Block.snapArmed (b : Block) (w : Word) (late : Bool) : Block :=
  let b1 := (b.putB STS_SNAPSTAT_ARMED true).put STS_SNAPSTAT_OWNER 16
  let b2 := if late then b1.putB STS_CAUSE_LATE true else b1
  (b2.mapSnap (fun x => { x with strobe := some w, late := late, struck := false })).putB STS_SNAPSTAT_REFUSED false

theorem hostSnap_refused {b : Block} (h : b.flag STS_SNAPSTAT_ARMED = true) (at_ : Option Word) :
    b.hostSnap at_ = b.putB STS_SNAPSTAT_REFUSED true := by
  simp only [Block.hostSnap, Block.armSnap, h, if_true, Bool.not_false]

theorem hostSnap_ahead {b : Block} (h : b.flag STS_SNAPSTAT_ARMED = false) {w : Word} (hw : before b.stw w = true) :
    b.hostSnap (some w) = b.snapArmed w false := by
  simp only [Block.hostSnap, Block.armSnap, Block.snapArmed, Block.mapSnap, h, hw, Bool.not_true, Bool.false_eq_true, if_false]

theorem hostSnap_late {b : Block} (h : b.flag STS_SNAPSTAT_ARMED = false) {w : Word} (hw : before b.stw w = false) :
    b.hostSnap (some w) = b.snapArmed b.stw true := by
  simp only [Block.hostSnap, Block.armSnap, Block.snapArmed, Block.mapSnap, h, hw, Bool.not_false, Bool.not_true, Bool.false_eq_true, if_false,
    if_true]

theorem hostSnap_now {b : Block} (h : b.flag STS_SNAPSTAT_ARMED = false) : b.hostSnap none = b.snapArmed b.stw false := by
  simp only [Block.hostSnap, Block.armSnap, Block.snapArmed, Block.mapSnap, h, Bool.not_true, Bool.false_eq_true, if_false]

section
variable (b : Block) (w : Word)

theorem snapArmed_snap (late : Bool) :
    (b.snapArmed w late).snap = { b.snap with strobe := some w, late := late, struck := false } := by
  cases late <;> rfl

theorem snapArmed_armed (late : Bool) : (b.snapArmed w late).flag STS_SNAPSTAT_ARMED = true := by
  cases late <;> simp [Block.snapArmed]

theorem snapArmed_owner (late : Bool) : (b.snapArmed w late).get STS_SNAPSTAT_OWNER = 16 := by
  cases late <;> simp [Block.snapArmed]

theorem snapArmed_refused (late : Bool) : (b.snapArmed w late).flag STS_SNAPSTAT_REFUSED = false :=
  Block.flag_putB_same _ _ _ (by decide) rfl

theorem snapArmed_late : (b.snapArmed w true).flag STS_CAUSE_LATE = true := by
  simp [Block.snapArmed]

theorem snapArmed_keeps : b.keeps [STS_SNAPSTAT_ARMED, STS_SNAPSTAT_OWNER, STS_SNAPSTAT_REFUSED] (b.snapArmed w false) :=
  keeps_putB (keeps_part (keeps_put (keeps_putB (keeps_refl _ b) (by simp)) (by simp)) rfl) (by simp)

theorem snapArmed_keeps_late :
    b.keeps [STS_SNAPSTAT_ARMED, STS_SNAPSTAT_OWNER, STS_SNAPSTAT_REFUSED, STS_CAUSE_LATE] (b.snapArmed w true) :=
  keeps_putB (keeps_part (keeps_putB (keeps_put (keeps_putB (keeps_refl _ b) (by simp)) (by simp)) (by simp)) rfl) (by simp)

theorem snapArmed_only (late : Bool) : b.only [.snap] (b.snapArmed w late) := by
  cases late <;> simp [Block.only, Block.snapArmed, Block.mapSnap]

end

/-- CANCEL before the strobe. -/
theorem snapCancel_armed {b : Block} (h : b.flag STS_SNAPSTAT_ARMED = true) (hs : b.snap.struck = false) :
    b.snapCancel = (b.putB STS_SNAPSTAT_ARMED false).mapSnap (fun x => { x with strobe := none }) := by
  rw [Block.snapCancel, if_pos (by simp [h, hs])]
  rfl

theorem snapCancel_struck {b : Block} (hs : b.snap.struck = true) : b.snapCancel = b := by
  simp only [Block.snapCancel, hs, Bool.not_true, Bool.and_false, Bool.false_eq_true, if_false]

/-! ### The strobe (R477) -/

theorem not_before_self (w : Word) : before w w = false := by simp [before]

theorem reach_regs (b : Block) (lt : Nat) : (b.reach lt).regs = b.regs := by
  unfold Block.reach
  split <;> rfl

theorem reach_lt {b : Block} {lt : Nat} (h : b.tm.lt < lt) : (b.reach lt).tm.lt = lt := by
  simp only [Block.reach, if_neg (Nat.not_le.mpr h)]

theorem reachStw_regs (b : Block) (w : Word) : (b.reachStw w).regs = b.regs := by
  unfold Block.reachStw
  split
  · exact reach_regs _ _
  · rfl

theorem reachStw_only (b : Block) (w : Word) : b.only [.tm] (b.reachStw w) := by
  unfold Block.reachStw
  split
  · exact reach_only _ _
  · exact only_refl _ b

/-- The STW of the instant that `reachStw` goes to is the one asked for. -/
theorem stwOf_ahead (lt : Nat) (w : Word) : stwOf (lt / 2 ^ 24 * 2 ^ 24 + (w - stwOf lt).toNat * 2 ^ 24) = w := by
  have h : (lt / 2 ^ 24 * 2 ^ 24 + (w - stwOf lt).toNat * 2 ^ 24) / 2 ^ 24 = (w - stwOf lt).toNat + lt / 2 ^ 24 := by omega
  rw [stwOf, h, BitVec.ofNat_add, BitVec.ofNat_toNat, BitVec.setWidth_eq]
  exact BitVec.sub_add_cancel _ _

/-- Once it is reached, an STW lies ahead no more. -/
theorem reachStw_not_before (b : Block) (w : Word) : before (b.reachStw w).stw w = false := by
  by_cases hw : before b.stw w = true
  · have hd : 1 ≤ (w - b.stw).toNat := by
      simp only [before, Bool.and_eq_true, decide_eq_true_eq] at hw
      exact hw.1
    have hlt : b.tm.lt < b.tm.lt / 2 ^ 24 * 2 ^ 24 + (w - b.stw).toNat * 2 ^ 24 := by omega
    have hstw : (b.reachStw w).stw = w := by
      rw [Block.reachStw, if_pos hw, Block.stw, reach_lt hlt]
      exact stwOf_ahead _ _
    rw [hstw, not_before_self]
  · rw [Block.reachStw, if_neg hw]
    exact Bool.eq_false_iff.mpr hw

/-- What the strobe latches, the clocks having reached it. -/
def Block.struckNow (b : Block) : Block :=
  b.mapSnap (fun x => { x with
    struck := true, ltH := b.ltHighNow, ltL := ltLow b.tm.lt, offMask := b.offMask, latched := snapMap.map b.snapEntry })

theorem execSnapStrobe_eq {s : State} {w : Word} (ha : s.blk.flag STS_SNAPSTAT_ARMED = true) (hs : s.blk.snap.struck = false)
    (hw : s.blk.snap.strobe = some w) : execSnapStrobe s = done s (fun b => (b.reachStw w).struckNow) :=
  done_congr (by simp only [hw, ha, hs, Bool.not_false, Bool.and_self, if_true]; rfl)

/-- An entry rests on the registers and on the acknowledges alone. -/
theorem snapEntry_congr {b c : Block} (hr : c.regs = b.regs) (hs : c.snap = b.snap) (p : Nat × Nat) :
    c.snapEntry p = b.snapEntry p := by
  simp only [Block.snapEntry, Block.regOn, Block.domOn, Block.quadOn, Block.count, Block.get, Block.reg, hr, hs]
  rfl

/-- A list of registers written one after another: one named once holds its value. -/
theorem reg_setRegs_of_not_mem (l : List (Nat × Word)) {a : Nat} (h : a ∉ l.map Prod.fst) (b : Block) :
    (b.setRegs l).reg a = b.reg a := by
  induction l generalizing b with
  | nil => rfl
  | cons p r ih =>
    simp only [List.map_cons, List.mem_cons, not_or] at h
    exact (ih h.2 _).trans (Block.reg_setReg_ne b p.2 h.1)

theorem reg_setRegs_of_mem (l : List (Nat × Word)) (hn : (l.map Prod.fst).Nodup) {p : Nat × Word} (hp : p ∈ l) (b : Block) :
    (b.setRegs l).reg p.1 = p.2 := by
  induction l generalizing b with
  | nil => exact absurd hp List.not_mem_nil
  | cons q r ih =>
    simp only [List.map_cons, List.nodup_cons] at hn
    rcases List.mem_cons.mp hp with rfl | hp
    · exact (reg_setRegs_of_not_mem r hn.1 _).trans (Block.reg_setReg_same b p.1 p.2)
    · exact ih hn.2 hp _

theorem setRegs_only (ps : List Part) (l : List (Nat × Word)) (b : Block) : b.only ps (b.setRegs l) := by
  induction l generalizing b with
  | nil => exact only_refl ps b
  | cons p r ih => exact only_trans (setReg_only ps b p.1 p.2) (ih _)

/-! ### The transfer (R478) -/

/-- The instant by which the copies stand in the idle bank. -/
def Block.transferReach (b : Block) : Block :=
  match b.snap.strobe with
  | some w => b.reachStw (w + BitVec.ofNat 72 (2000 * 2 ^ 16))
  | none => b

/-- The copies in bank `k`. -/
def Block.bankWords (b : Block) (k : Nat) : Block :=
  b.setRegs (b.snap.latched.map (fun p => (0x380000 + 0x20000 * k + p.1, p.2)))

/-- The header of bank `k` and its LT value, from the snapshot of `b`. -/
def Block.bankHead (c b : Block) (k : Nat) : Block :=
  (((((((c.put (STS_BANK_HDR_SEQ k) ((b.get STS_SNAPSTAT_SEQ + 1) % 2 ^ 32)).put (STS_BANK_HDR_OWNER k)
    (b.get STS_SNAPSTAT_OWNER)).putB (STS_BANK_HDR_LATE k) b.snap.late).put (STS_BANK_HDR_OFFMASK k)
    b.snap.offMask.toNat).putB (STS_BANK_HDR_VALID k) true).setReg (STS_BANK_LT k) b.snap.ltH).setReg (STS_BANK_LTL k) b.snap.ltL)

/-- The snapshot is over: bank `k` is the current one, and nothing is armed. -/
def Block.snapEnds (c b : Block) (k : Nat) : Block :=
  ((((c.put STS_SNAPSTAT_SEQ ((b.get STS_SNAPSTAT_SEQ + 1) % 2 ^ 32)).put STS_SNAPSTAT_CUR k).putB STS_SNAPSTAT_ARMED
    false).putB STS_CAUSE_DONE true).mapSnap (fun x => { x with strobe := none, struck := false, latched := [] })

/-- The transfer of a block that has reached its instant. -/
def Block.transferred (b : Block) (k : Nat) : Block := (((b.bankWords k).bankHead b k).snapEnds b k).raise evSnapDone

theorem execSnapTransferDone_eq {s : State} (ha : s.blk.flag STS_SNAPSTAT_ARMED = true) (hs : s.blk.snap.struck = true) :
    execSnapTransferDone s =
      done s (fun b => b.transferReach.transferred (1 - b.transferReach.get STS_SNAPSTAT_CUR)) :=
  done_congr (by simp only [ha, hs, Bool.and_self, if_true]; rfl)

theorem transferReach_regs (b : Block) : b.transferReach.regs = b.regs := by
  unfold Block.transferReach
  split
  · exact reachStw_regs _ _
  · rfl

theorem transferReach_only (b : Block) : b.only [.tm] b.transferReach := by
  unfold Block.transferReach
  split
  · exact reachStw_only _ _
  · exact only_refl _ b

theorem transferReach_get (b : Block) (f : Field) : b.transferReach.get f = b.get f := by
  simp only [Block.get, Block.reg, transferReach_regs]

/-- The offset lies among the shadow registers of bank `k`. -/
def bankTouch (k a : Nat) : Bool := within (0x381000 + 0x20000 * k) (0x3A0000 + 0x20000 * k) a

/-- The registers beside the shadow registers that a transfer writes. -/
def headTouch (k a : Nat) : Bool :=
  a == STS_BANK_HDR k || a == STS_BANK_LT k || a == STS_BANK_LTL k || a == STS_SNAPSTAT || a == STS_CAUSE || evTouch a

theorem bankHead_changes (c b : Block) (k : Nat) : c.changes (headTouch k) [.snap, .host, .out] (c.bankHead b k) := by
  have hh : headTouch k (STS_BANK_HDR k) = true := by simp [headTouch]
  have hl : headTouch k (STS_BANK_LT k) = true := by simp [headTouch]
  have hll : headTouch k (STS_BANK_LTL k) = true := by simp [headTouch]
  exact changes_setReg (changes_setReg (changes_putB (changes_put (changes_putB (changes_put (changes_put
    (changes_refl _ _ c) hh) hh) hh) hh) hh) hl) hll

theorem snapEnds_changes (c b : Block) (k : Nat) : c.changes (headTouch k) [.snap, .host, .out] (c.snapEnds b k) := by
  have hs : headTouch k STS_SNAPSTAT = true := by simp [headTouch]
  have hc : headTouch k STS_CAUSE = true := by simp [headTouch]
  exact changes_mapSnap (changes_putB (changes_putB (changes_put (changes_put (changes_refl _ _ c) hs) hs) hs) hc) (by simp)

theorem transferred_heads (b : Block) (k : Nat) :
    (b.bankWords k).changes (headTouch k) [.snap, .host, .out] (b.transferred k) :=
  changes_raise (changes_trans (bankHead_changes _ b k) (snapEnds_changes _ b k)) (fun a ha => by simp [headTouch, ha]) (by simp)

/-- The offsets at which a snapshot's words lie in a bank (Table 16-1). -/
def bankOffs (l : List (Nat × Word)) : Prop := ∀ p ∈ l, 0x1000 ≤ p.1 ∧ p.1 < 0x20000

theorem bankWords_changes {b : Block} (h : bankOffs b.snap.latched) (k : Nat) :
    b.changes (bankTouch k) [] (b.bankWords k) := by
  refine ⟨fun a ha => reg_setRegs_of_not_mem _ ?_ b, setRegs_only _ _ b⟩
  simp only [List.map_map, List.mem_map, Function.comp]
  rintro ⟨p, hp, rfl⟩
  obtain ⟨hlo, hhi⟩ := h p hp
  simp [bankTouch, within] at ha
  omega

/-- What a transfer into bank `k` may touch. -/
def transferTouch (k a : Nat) : Bool :=
  within (0x381000 + 0x20000 * k) (0x3A0000 + 0x20000 * k) a || a == STS_BANK_HDR k || a == STS_BANK_LT k ||
    a == STS_BANK_LTL k || a == STS_SNAPSTAT || a == STS_CAUSE || evTouch a

theorem transferTouch_eq (k a : Nat) : transferTouch k a = (bankTouch k a || headTouch k a) := by
  simp only [transferTouch, bankTouch, headTouch, Bool.or_assoc]

theorem transferred_changes {b : Block} (h : bankOffs b.snap.latched) (k : Nat) :
    b.changes (transferTouch k) [.snap, .tm, .host, .out] (b.transferred k) :=
  changes_trans
    (changes_mono (bankWords_changes h k) (fun a ha => by rw [transferTouch_eq, ha, Bool.true_or]) (by simp))
    (changes_mono (transferred_heads b k) (fun a ha => by rw [transferTouch_eq, ha, Bool.or_true]) (by simp))

/-- Each word of the snapshot stands at its place in the bank. -/
theorem transferred_word {b : Block} (hn : (b.snap.latched.map (·.1)).Nodup) (ho : bankOffs b.snap.latched) {k : Nat} (hk : k < 2)
    {p : Nat × Word} (hp : p ∈ b.snap.latched) : (b.transferred k).reg (0x380000 + 0x20000 * k + p.1) = p.2 := by
  obtain ⟨hlo, hhi⟩ := ho p hp
  have hh : headTouch k (0x380000 + 0x20000 * k + p.1) = false := by
    simp only [headTouch, evTouch, Bool.or_eq_false_iff, beq_eq_false_iff_ne, ne_eq, STS_BANK_HDR, STS_BANK_LT, STS_BANK_LTL,
      STS_SNAPSTAT, STS_CAUSE, EVT_PEND, EVT_OVR]
    omega
  rw [(transferred_heads b k).1 _ hh]
  refine reg_setRegs_of_mem _ ?_ (p := (0x380000 + 0x20000 * k + p.1, p.2)) (List.mem_map.mpr ⟨p, hp, rfl⟩) b
  rw [List.map_map]
  have hmap : (Prod.fst ∘ fun p : Nat × Word => (0x380000 + 0x20000 * k + p.1, p.2)) = (fun n => 0x380000 + 0x20000 * k + n) ∘ Prod.fst := rfl
  rw [hmap, ← List.map_map]
  exact hn.map fun x y hxy => Nat.add_left_cancel hxy

/-! What the transfer leaves in the header of the bank and in STS_SNAPSTAT. -/

section
variable (c b : Block) (k : Nat)

theorem bankHead_seq : (c.bankHead b k).get (STS_BANK_HDR_SEQ k) = (b.get STS_SNAPSTAT_SEQ + 1) % 2 ^ 32 := by
  simp [Block.bankHead, STS_BANK_HDR_SEQ, STS_BANK_HDR_OWNER, STS_BANK_HDR_LATE, STS_BANK_HDR_OFFMASK, STS_BANK_HDR_VALID]

theorem bankHead_valid : (c.bankHead b k).flag (STS_BANK_HDR_VALID k) = true := by
  simp [Block.bankHead, STS_BANK_HDR_VALID]

theorem bankHead_late : (c.bankHead b k).flag (STS_BANK_HDR_LATE k) = b.snap.late := by
  simp [Block.bankHead, STS_BANK_HDR_LATE, STS_BANK_HDR_OFFMASK, STS_BANK_HDR_VALID]

theorem bankHead_ltl : (c.bankHead b k).reg (STS_BANK_LTL k) = b.snap.ltL := Block.reg_setReg_same _ _ _

theorem bankHead_lt : (c.bankHead b k).reg (STS_BANK_LT k) = b.snap.ltH := by
  rw [Block.bankHead, Block.reg_setReg_ne _ _ (by simp), Block.reg_setReg_same]

theorem snapEnds_reg {a : Nat} (h1 : a ≠ STS_SNAPSTAT) (h2 : a ≠ STS_CAUSE) : (c.snapEnds b k).reg a = c.reg a := by
  rw [Block.snapEnds, mapSnap_reg, Block.putB, Block.reg_put_ne _ _ _ h2, Block.putB, Block.reg_put_ne _ _ _ h1,
    Block.reg_put_ne _ _ _ h1, Block.reg_put_ne _ _ _ h1]

theorem snapEnds_cur (hk : k < 2) : (c.snapEnds b k).get STS_SNAPSTAT_CUR = k := by
  simpa [Block.snapEnds] using Nat.mod_eq_of_lt hk

theorem snapEnds_seq : (c.snapEnds b k).get STS_SNAPSTAT_SEQ = (b.get STS_SNAPSTAT_SEQ + 1) % 2 ^ 32 := by
  simp [Block.snapEnds]

theorem snapEnds_armed : (c.snapEnds b k).flag STS_SNAPSTAT_ARMED = false := by simp [Block.snapEnds]

theorem snapEnds_cause : (c.snapEnds b k).flag STS_CAUSE_DONE = true := by simp [Block.snapEnds]

/-- No event register lies in the bank or in STS. -/
theorem transferred_reg {a : Nat} (h : 0x380000 ≤ a) : (b.transferred k).reg a =
    (((b.bankWords k).bankHead b k).snapEnds b k).reg a :=
  (raise_keeps (((b.bankWords k).bankHead b k).snapEnds b k) evSnapDone).2 a (by simp [EVT_PEND, EVT_OVR]; omega)

theorem transferred_get {f : Field} (h : 0x380000 ≤ f.addr) : (b.transferred k).get f =
    (((b.bankWords k).bankHead b k).snapEnds b k).get f := by
  simp only [Block.get, transferred_reg b k h]

theorem transferred_flag {f : Field} (h : 0x380000 ≤ f.addr) : (b.transferred k).flag f =
    (((b.bankWords k).bankHead b k).snapEnds b k).flag f := by
  simp only [Block.flag, transferred_get b k h]

/-- Of a bank, the end of the snapshot changes nothing. -/
theorem transferred_bank {a : Nat} (h : 0x380080 ≤ a) : (b.transferred k).reg a = ((b.bankWords k).bankHead b k).reg a := by
  rw [transferred_reg b k (by omega), snapEnds_reg _ _ _ (by rintro rfl; exact absurd h (by decide)) (by rintro rfl; exact absurd h (by decide))]

end

end Sys2Proof.Machine
end

section
/-! SUPPORT. The trace as the host clears and reads it (R488, R489), and the statement on counters and snapshots. -/

namespace Sys2Proof.Machine

/-! ### The trace -/

/-- The value that a write of PRF_TRCTL stores. -/
def Block.trctlValue (b : Block) (data : Half) : Nat :=
  data.toNat % 2 ^ 19 + (if data.toNat / 2 ^ 19 % 2 ^ 20 = 0 then b.get PRF_TRCTL_N else data.toNat / 2 ^ 19 % 2 ^ 20) * 2 ^ 19 +
    (if 6 < data.toNat / 2 ^ 39 % 2 ^ 4 then b.get PRF_TRCTL_EVSEL else data.toNat / 2 ^ 39 % 2 ^ 4) * 2 ^ 39 +
    data.toNat / 2 ^ 43 % 2 ^ 16 * 2 ^ 43

/-- The counts of MODE 0 start (R486). -/
def Block.countsStart (b : Block) (start : Bool) : Block :=
  if start then { b with trc := { b.trc with counts := Vector.replicate 16 0, fullRaised := false } } else b

theorem countsStart_reg (b : Block) (start : Bool) (a : Nat) : (b.countsStart start).reg a = b.reg a := by
  cases start <;> rfl

theorem countsStart_only (b : Block) (start : Bool) : b.only [.trc] (b.countsStart start) := by
  cases start <;> simp [Block.only, Block.countsStart]

/-- An EN that becomes 1 starts the counts. -/
theorem trctlStore_eq (b : Block) (data : Half) : b.trctlStore data =
    (b.setReg PRF_TRCTL (BitVec.ofNat 72 (b.trctlValue data))).countsStart
      (!b.flag PRF_TRCTL_EN && data.toNat % 2 == 1) := rfl

theorem trctlStore_changes (b : Block) (data : Half) : b.changes (fun a => a == PRF_TRCTL) [.trc] (b.trctlStore data) := by
  rw [trctlStore_eq]
  exact changes_trans (setReg_changes _ b _ rfl) ⟨fun a _ => countsStart_reg _ _ a, countsStart_only _ _⟩

theorem trctlStore_reg (b : Block) (data : Half) :
    (b.trctlStore data).reg PRF_TRCTL = BitVec.ofNat 72 (b.trctlValue data) := by
  rw [trctlStore_eq, countsStart_reg, Block.reg_setReg_same]

/-- EN is bit 0 of the value. -/
theorem trctlStore_en (b : Block) (data : Half) : (b.trctlStore data).flag PRF_TRCTL_EN = data.getLsbD 0 := by
  have hv : b.trctlValue data % 2 = data.toNat % 2 := by
    simp only [Block.trctlValue]
    omega
  have hg : (b.trctlStore data).get PRF_TRCTL_EN = data.toNat % 2 := by
    rw [Block.get, trctlStore_reg, ← hv]
    simp only [fieldOf, BitVec.toNat_ofNat]
    omega
  rw [Block.flag, hg, BitVec.getLsbD, Nat.testBit_zero]
  rfl

/-- What a write of CLR touches. -/
def trcTouch (a : Nat) : Bool := a == PRF_TRCTL || a == PRF_TRSTAT

theorem traceClr_changes (b : Block) (data : Half) : b.changes trcTouch [.trc] (b.traceClr data) := by
  have h : b.changes trcTouch [.trc] (b.trctlStore data) :=
    changes_mono (trctlStore_changes b data) (fun a ha => by simp_all [trcTouch]) (List.Subset.refl _)
  exact changes_part (changes_setReg h (a := PRF_TRSTAT) (v := 0) rfl) rfl (by simp [Block.only, Block.traceClr])

theorem traceClr_en (b : Block) (data : Half) : (b.traceClr data).flag PRF_TRCTL_EN = data.getLsbD 0 :=
  (Block.flag_setReg_ne (b.trctlStore data) PRF_TRSTAT 0 PRF_TRCTL_EN (by decide)).trans (trctlStore_en b data)

/-- What a write of PRF_TRIDX touches. -/
def loadTouch (a : Nat) : Bool := a == PRF_TRIDX || (List.range 4).any (fun i => a == PRF_TRW i)

theorem traceLoad_changes (b : Block) (data : Half) : b.changes loadTouch [] (b.traceLoad data) :=
  changes_setReg (changes_setReg (changes_setReg (changes_setReg (changes_put (changes_refl _ _ b) rfl) rfl) rfl) rfl) rfl

theorem traceLoad_eq (b : Block) (data : Half) : b.traceLoad data =
    let r := sget (fun _ => TraceRec.zero) b.trc.buf (data.toNat % 4096)
    ((((b.put PRF_TRIDX_IDX data.toNat).setReg (PRF_TRW 0) r.w0).setReg (PRF_TRW 1) r.w1).setReg (PRF_TRW 2) r.w2).setReg
      (PRF_TRW 3) r.w3 := by
  simp only [Block.traceLoad, Block.get_put_same b PRF_TRIDX_IDX _ (by decide)]
  rfl

theorem traceLoad_idx (b : Block) (data : Half) : (b.traceLoad data).get PRF_TRIDX_IDX = data.toNat % 4096 := by
  simp [traceLoad_eq, PRF_TRW]

theorem traceLoad_words (b : Block) (data : Half) {r : TraceRec}
    (hr : r = sget (fun _ => TraceRec.zero) b.trc.buf (data.toNat % 4096)) :
    (b.traceLoad data).reg (PRF_TRW 0) = r.w0 ∧ (b.traceLoad data).reg (PRF_TRW 1) = r.w1 ∧
      (b.traceLoad data).reg (PRF_TRW 2) = r.w2 ∧ (b.traceLoad data).reg (PRF_TRW 3) = r.w3 := by
  subst hr
  simp [traceLoad_eq, Block.reg_setReg]

/-! ### The statement -/

@[simp] theorem withTags_count (b : Block) (u : SMap (BitVec 8)) (a : Nat) : (b.withTags u).count a = b.count a := rfl

@[simp] theorem withTags_stw (b : Block) (u : SMap (BitVec 8)) : (b.withTags u).stw = b.stw := rfl

theorem seenOnly_withTags {b c : Block} {u : SMap (BitVec 8)} : b.seenOnly (c.withTags u) ↔ b.seenOnly c := Iff.rfl

/-- A write of the host that finds nothing in its way, by its effect. -/
theorem byHost_intro {o : Host.Outcome State Fault Refusal} {s : State} {cmd : Instr} {act : Block → Block} {P : State → Prop}
    (ho : o = done s (byHost cmd act)) (hf : s.blk.hostFree = true) (h : ∀ u, P ⟨(act s.blk).withTags u, s.pending⟩) :
    ∃ t, o = .next t ∧ P t := done_intro (ho.trans (done_byHost hf cmd act)) h

/-- A statistics counter whose bit 39 is set. -/
theorem ackCounter_high {b : Block} {a : Nat} (hp : within 0x3C0000 0x3E0000 a = false) (hc : isCounter a = true)
    (h39 : 2 ^ 39 ≤ b.count a) : b.ackCounter a = ((b.ackTaken a).ackMac a).ackSum a := by
  have hnp : ¬ (0x3C0000 ≤ a ∧ a < 0x3E0000) := by simpa [within] using hp
  rw [ackCounter_eq]
  simp only [hnp, if_false, hc, decide_eq_true h39, Bool.and_self, if_true]

theorem ackCounter_low {b : Block} {a : Nat} (hp : within 0x3C0000 0x3E0000 a = false) (h39 : b.count a < 2 ^ 39) :
    b.ackCounter a = b := by
  have hnp : ¬ (0x3C0000 ≤ a ∧ a < 0x3E0000) := by simpa [within] using hp
  rw [ackCounter_eq]
  simp only [hnp, if_false, decide_eq_false (Nat.not_le.mpr h39), Bool.and_false, Bool.false_eq_true]

/-- A performance counter: sampled, then lowered where its bit 39 is set. -/
theorem ackCounter_perf {b : Block} {a : Nat} (hp : within 0x3C0000 0x3E0000 a = true) (hc : isCounter a = true) :
    b.ackCounter a = if 2 ^ 39 ≤ b.prfTouch.count a then b.prfTouch.ackTaken a else b.prfTouch := by
  have hpr : 0x3C0000 ≤ a ∧ a < 0x3E0000 := by simpa [within] using hp
  rw [ackCounter_eq]
  simp only [if_pos hpr, hc, Bool.true_and, decide_eq_true_eq, ackShown_perf hp]

theorem counterAck_high {s : State} {a : BitVec 24} (hf : s.blk.hostFree = true) (hc : isCounter a.toNat = true)
    (h39 : 2 ^ 39 ≤ s.blk.count a.toNat) (hp : within 0x3C0000 0x3E0000 a.toNat = false) :
    ∃ t, exec (.counterAck a) s = .next t ∧ t.blk.count a.toNat = s.blk.count a.toNat - 2 ^ 39 ∧
      sget (fun _ => 0) t.blk.snap.acks a.toNat = (sget (fun _ => 0) s.blk.snap.acks a.toNat + 1) % 256 ∧
      FrameOn (ackTouch a.toNat) [.snap] s t := by
  refine byHost_intro (exec_counterAck s) hf fun u => ?_
  simp only [Block.counterAckAct, ackCounter_high hp hc h39, withTags_count, Block.withTags_snap]
  refine ⟨ackShown_count hc, ackShown_acks _ _, frameOn_intro (ackAll_changes _ _)⟩

theorem counterAck_perf {s : State} {a : BitVec 24} (hf : s.blk.hostFree = true) (hc : isCounter a.toNat = true)
    (hp : within 0x3C0000 0x3E0000 a.toNat = true) :
    ∃ t, exec (.counterAck a) s = .next t ∧
      t.blk.count a.toNat = (if 2 ^ 39 ≤ s.blk.prfTouch.count a.toNat then s.blk.prfTouch.count a.toNat - 2 ^ 39
        else s.blk.prfTouch.count a.toNat) ∧
      s.blk.seenOnly t.blk ∧ FrameOn (fun r => galTouch r || r == STS_HALFSUM) [.snap, .eng, .trc, .host, .out] s t := by
  have ha : galTouch a.toNat = true := by
    simp only [within, Bool.and_eq_true, decide_eq_true_eq] at hp
    simp [galTouch, within]
    omega
  obtain ⟨hch, hseen⟩ := prfTouch_sampled s.blk
  have hsample : s.blk.changes (fun r => galTouch r || r == STS_HALFSUM) [.snap, .eng, .trc, .host, .out] s.blk.prfTouch :=
    changes_mono hch (fun r hr => by simp [hr]) (by simp)
  refine byHost_intro (exec_counterAck s) hf fun u => ?_
  simp only [Block.counterAckAct, ackCounter_perf hp hc, withTags_count, seenOnly_withTags]
  split
  · refine ⟨ackTaken_count _ _, seenOnly_trans hseen (seenOnly_of_eng (ackTaken_eng _ _)), frameOn_intro (changes_trans hsample ?_)⟩
    exact changes_mono (ackTaken_changes _ _) (fun r hr => by simp_all) (by simp)
  · exact ⟨rfl, hseen, frameOn_intro hsample⟩

theorem perfCounterRead_samples {s : State} {a : BitVec 24} (hf : s.blk.hostFree = true) (hc : isCounter a.toNat = true)
    (hp : within 0x3C0000 0x3E0000 a.toNat = true) (hon : s.blk.regOn a.toNat = true) :
    ∃ t, exec (.perfCounterRead a) s = .next t ∧
      t.blk.out = .readData a.toNat (s.blk.prfTouch.lowHalf a.toNat) false :: s.blk.prfTouch.out ∧
      s.blk.seenOnly t.blk ∧ FrameOn (fun r => galTouch r || r == STS_HALFSUM) [.eng, .trc, .host, .out] s t := by
  obtain ⟨hlo, hhi⟩ : 0x3C0000 ≤ a.toNat ∧ a.toNat < 0x3E0000 := by simpa [within] using hp
  obtain ⟨hch, hseen⟩ := prfTouch_sampled s.blk
  refine byHost_intro (exec_perfCounterRead s) hf fun u => ?_
  have hact : s.blk.perfCounterReadAct a =
      s.blk.prfTouch.emit (.readData a.toNat (s.blk.prfTouch.lowHalf a.toNat) false) := by
    rw [Block.perfCounterReadAct, if_pos (by simp [hc, hlo, hhi, hon])]
  simp only [hact, seenOnly_withTags, Block.withTags_out, emit_out, true_and]
  refine ⟨seenOnly_trans hseen (seenOnly_of_eng (Block.emit_eng _ _)), frameOn_intro (changes_emit ?_ (by simp))⟩
  exact changes_mono hch (fun r hr => by simp [hr]) (List.Subset.refl _)

theorem snapStrobe_latches {s : State} {w : Word} (ha : s.blk.flag STS_SNAPSTAT_ARMED = true) (hs : s.blk.snap.struck = false)
    (hw : s.blk.snap.strobe = some w) :
    ∃ t, exec .snapStrobe s = .next t ∧ before t.blk.stw w = false ∧ t.blk.snap.struck = true ∧
      t.blk.snap.ltL = ltLow t.blk.tm.lt ∧
      (∀ p ∈ snapMap, s.blk.regOn p.1 = true →
        (p.2, BitVec.ofNat 72 (s.blk.count p.1 + sget (fun _ => 0) s.blk.snap.acks p.1 * 2 ^ 40)) ∈ t.blk.snap.latched) ∧
      (∀ p ∈ snapMap, s.blk.regOn p.1 = false → (p.2, 0) ∈ t.blk.snap.latched) ∧
      Frame [] [.snap, .tm] s t := by
  have hentry : ∀ p ∈ snapMap, s.blk.snapEntry p ∈ (s.blk.reachStw w).struckNow.snap.latched := fun p hp => by
    rw [← snapEntry_congr (reachStw_regs s.blk w) (only_snap (reachStw_only s.blk w) (by simp))]
    exact List.mem_map_of_mem hp
  refine done_intro ((exec_snapStrobe s).trans (execSnapStrobe_eq ha hs hw)) fun u => ?_
  simp only [withTags_stw, Block.withTags_snap, Block.withTags_tm]
  refine ⟨reachStw_not_before s.blk w, rfl, rfl, fun p hp hon => ?_, fun p hp hoff => ?_, frame_intro ?_ ?_⟩
  · simpa only [Block.snapEntry, hon, if_true] using hentry p hp
  · simpa only [Block.snapEntry, hoff, Bool.false_eq_true, if_false] using hentry p hp
  · exact keeps_of_regs (reachStw_regs s.blk w)
  · exact only_trans (only_mono (reachStw_only s.blk w) (by simp)) (only_mono (mapSnap_only _ _) (by simp))

/-- What a transfer of bank `k` leaves. -/
theorem transferred_done {s : State} {k : Nat} (ha : s.blk.flag STS_SNAPSTAT_ARMED = true) (hs : s.blk.snap.struck = true)
    (hn : (s.blk.snap.latched.map (·.1)).Nodup) (ho : bankOffs s.blk.snap.latched) (hk : k = 1 - s.blk.get STS_SNAPSTAT_CUR) :
    ∃ t, exec .snapTransferDone s = .next t ∧ t.blk.get STS_SNAPSTAT_CUR = k ∧
      t.blk.get STS_SNAPSTAT_SEQ = (s.blk.get STS_SNAPSTAT_SEQ + 1) % 2 ^ 32 ∧
      t.blk.get (STS_BANK_HDR_SEQ k) = (s.blk.get STS_SNAPSTAT_SEQ + 1) % 2 ^ 32 ∧
      t.blk.flag (STS_BANK_HDR_VALID k) = true ∧ t.blk.flag (STS_BANK_HDR_LATE k) = s.blk.snap.late ∧
      t.blk.reg (STS_BANK_LT k) = s.blk.snap.ltH ∧ t.blk.reg (STS_BANK_LTL k) = s.blk.snap.ltL ∧
      (∀ p ∈ s.blk.snap.latched, t.blk.reg (0x380000 + 0x20000 * k + p.1) = p.2) ∧
      t.blk.flag STS_SNAPSTAT_ARMED = false ∧ t.blk.flag STS_CAUSE_DONE = true ∧
      FrameOn (transferTouch k) [.snap, .tm, .host, .out] s t := by
  have hk2 : k < 2 := by omega
  have hsnap : s.blk.transferReach.snap = s.blk.snap := only_snap (transferReach_only s.blk) (by simp)
  have hget := transferReach_get s.blk
  have he : s.blk.transferReach.transferred (1 - s.blk.transferReach.get STS_SNAPSTAT_CUR) =
      s.blk.transferReach.transferred k := by rw [hget, hk]
  rw [← hsnap] at hn ho ⊢
  rw [← hget]
  refine done_intro ((exec_snapTransferDone s).trans ((execSnapTransferDone_eq ha hs).trans
    (done_congr (g := fun b => b.transferReach.transferred k) he))) fun u => ?_
  simp only [Block.withTags_get, Block.withTags_flag, Block.withTags_reg]
  generalize hb : s.blk.transferReach = b at *
  have hbank : ∀ f : Field, f.addr = STS_BANK_HDR k → (b.transferred k).get f = ((b.bankWords k).bankHead b k).get f :=
    fun f hf => by rw [Block.get, hf, transferred_bank b k (by simp), ← hf, Block.get]
  refine ⟨?_, ?_, ?_, ?_, ?_, ?_, ?_, ?_, ?_, ?_, ?_⟩
  · rw [transferred_get b k (by decide), snapEnds_cur _ _ _ hk2]
  · rw [transferred_get b k (by decide), snapEnds_seq]
  · rw [hbank _ rfl, bankHead_seq]
  · rw [Block.flag, hbank _ rfl, ← Block.flag, bankHead_valid]
  · rw [Block.flag, hbank _ rfl, ← Block.flag, bankHead_late]
  · rw [transferred_bank b k (by simp only [STS_BANK_LT]; omega), bankHead_lt]
  · rw [transferred_bank b k (by simp only [STS_BANK_LTL]; omega), bankHead_ltl]
  · exact fun p hp => transferred_word hn ho hk2 hp
  · rw [transferred_flag b k (by decide), snapEnds_armed]
  · rw [transferred_flag b k (by decide), snapEnds_cause]
  · subst hb
    exact frameOn_intro (changes_trans (changes_of_only (transferReach_regs _) (only_mono (transferReach_only _) (by simp))) (transferred_changes ho k))

/-- Settles O35: an acknowledge lowers a counter whose bit 39 is set; the host arms, is refused, or cancels; the strobe latches
and the transfer fills the idle bank; the trace and the performance counters follow R484, R488 and R489. -/
theorem countersAndSnapshots : Obligations.CountersAndSnapshots := by
  unfold Obligations.CountersAndSnapshots
  refine ⟨?_, ?_, ?_, ?_, ?_, ?_, ?_, ?_, ?_, ?_, ?_, ?_, ?_, ?_⟩
  · intro s a hf hc h39 hp
    exact counterAck_high hf hc h39 hp
  · intro s a hf h39 hp
    refine byHost_intro (exec_counterAck s) hf fun u => ?_
    rw [Block.counterAckAct, ackCounter_low hp h39]
    exact frame_intro (keeps_refl _ _) (only_refl _ _)
  · intro s a b hf hc hb hp
    rw [hb]
    exact counterAck_perf hf hc hp
  · intro s hf ha hw
    refine byHost_intro (exec_snapArm s) hf fun u => ?_
    rw [Block.snapArmAct, hostSnap_ahead ha hw]
    refine ⟨snapArmed_armed _ _ _, snapArmed_owner _ _ _, snapArmed_refused _ _ _, ?_, ?_,
      frame_intro (snapArmed_keeps _ _) (snapArmed_only _ _ _)⟩ <;> simp only [Block.withTags_snap, snapArmed_snap]
  · intro s hf ha hw
    refine byHost_intro (exec_snapArm s) hf fun u => ?_
    rw [Block.snapArmAct, hostSnap_late ha hw]
    refine ⟨snapArmed_armed _ _ _, ?_, ?_, snapArmed_late _ _,
      frame_intro (snapArmed_keeps_late _ _) (snapArmed_only _ _ _)⟩ <;> simp only [Block.withTags_snap, snapArmed_snap]
  · intro s hf ha
    refine byHost_intro (exec_snapArm s) hf fun u => ?_
    rw [Block.snapArmAct, hostSnap_refused ha]
    exact ⟨Block.flag_putB_same _ _ _ (by decide) rfl, frame_intro (put_keeps _ _ _) (put_only _ _ _ _)⟩
  · intro s hf ha
    refine byHost_intro (exec_snapNow s) hf fun u => ?_
    rw [Block.snapNowAct, hostSnap_now ha]
    refine ⟨snapArmed_armed _ _ _, ?_, ?_,
      frame_intro (snapArmed_keeps _ _) (snapArmed_only _ _ _)⟩ <;> simp only [Block.withTags_snap, snapArmed_snap]
  · intro s hf ha hs
    refine byHost_intro (exec_snapCancel s) hf fun u => ?_
    rw [snapCancel_armed ha hs]
    refine ⟨?_, rfl, frame_intro (keeps_part (put_keeps _ _ _) rfl) (mapSnap_only _ _)⟩
    rw [Block.withTags_flag, mapSnap_flag]
    exact Block.flag_putB_same _ _ _ (by decide) rfl
  · intro s hf hs
    refine byHost_intro (exec_snapCancel s) hf fun u => ?_
    rw [snapCancel_struck hs]
    exact frame_intro (keeps_refl _ _) (only_refl _ _)
  · intro s w ha hs hw
    exact snapStrobe_latches ha hs hw
  · intro s k ha hs hn ho hk
    exact transferred_done ha hs hn (fun p hp => ⟨(ho p hp).1, (ho p hp).2.1⟩) hk
  · intro s d hf
    refine byHost_intro (exec_traceClr s) hf fun u => ⟨?_, rfl, ?_, ?_⟩
    · exact Block.reg_setReg_same (s.blk.trctlStore d) PRF_TRSTAT 0
    · exact traceClr_en s.blk d
    · exact frameOn_intro (traceClr_changes s.blk d)
  · intro s d r hf hr
    obtain ⟨h0, h1, h2, h3⟩ := traceLoad_words s.blk d hr
    exact byHost_intro (exec_traceLoad s) hf fun u =>
      ⟨traceLoad_idx s.blk d, h0, h1, h2, h3, frameOn_intro (traceLoad_changes s.blk d)⟩
  · intro s a hf hc hp hon
    exact perfCounterRead_samples hf hc hp hon

end Sys2Proof.Machine
end

section
/-! SUPPORT. A request of the host that is answered at once (R57, R67): what it meets, and the write of a register with one stored
field. -/

namespace Sys2Proof.Machine

/-! ### A request that is answered as it arrives (R67, R69) -/

/-- The first access ends the hold of INT_N (R536). -/
def Block.intEnds (b : Block) : Block := b.mapPw (fun p => { p with intLow := false })

theorem intEnds_only (b : Block) : b.only [.pw] b.intEnds := by simp [Block.only, Block.intEnds, Block.mapPw]

theorem intEnds_meets (b : Block) (r : BarReq) : b.intEnds.meets r = b.meets r := rfl

theorem request_answered {b : Block} {r : BarReq} (hf : b.hostFree = true) (hm : b.meets r ≠ .wakes) :
    b.request_ r = b.intEnds.answerReq r := by
  have hw : b.intEnds.mustWait (.registerWrite r) = false := by
    rw [Block.mustWait, intEnds_meets]
    exact beq_eq_false_iff_ne.mpr hm
  have hmay : b.intEnds.hostMay (.registerWrite r) = true := hostMay_of_free (b := b.intEnds) hf _
  show b.intEnds.arrive (.registerWrite r) = _
  simp only [Block.arrive, hw, hmay, Bool.not_false, Bool.and_self, if_true]
  rfl

/-! ### Registers of PD3 with no lane and no retained bank behind them -/

/-- The register at `a` answers whenever PD3 is on. -/
def pd3Reg (a : Nat) : Bool :=
  (regAt a).isSome && domainOf a == 3 && quadOf a == none && (decide (a < 0x200000) || decide (0x300000 ≤ a))

theorem pd3Reg_evtPin : pd3Reg EVT_PIN = true := by decide +kernel

theorem pd3Reg_hostCto : pd3Reg HOST_CTO = true := by decide +kernel

theorem meets_plain {b : Block} {r : BarReq} {a : Nat} (ha : slotOf r.off.toNat = a) (hp : pd3Reg a = true)
    (hbar : r.bar = .bar0) (hs : sizeOk r = true) (hon : b.domOn 3 = true) : b.meets r = .ready := by
  simp only [pd3Reg, Bool.and_eq_true, beq_iff_eq, Bool.or_eq_true, decide_eq_true_eq] at hp
  obtain ⟨⟨⟨hreg, hdom⟩, hq⟩, hrange⟩ := hp
  have hbank : b.bankOf r = none := by
    rw [Block.bankOf]
    simp only [ha]
    rw [if_pos (by simp; omega)]
  have hregOn : b.regOn a = true := by simp [Block.regOn, hdom, hq, hon]
  have hrelock : b.relockStops a = false := by simp [Block.relockStops, hdom]
  have hnone : (regAt a).isNone = false := by simpa using hreg
  simp [Block.meets, ha, hbar, hs, hnone, hdom, hon, Block.bankLostAt, Block.bankWaits, hbank, hregOn, hrelock]

theorem quadTouch_plain {b : Block} {a : Nat} (hp : pd3Reg a = true) : b.quadTouch a = b := by
  simp only [pd3Reg, Bool.and_eq_true, beq_iff_eq] at hp
  simp only [Block.quadTouch, hp.1.2]

/-- A request at such a register is a write or a read of it. -/
theorem request_plain {b : Block} {r : BarReq} {a : Nat} (ha : slotOf r.off.toNat = a) (hp : pd3Reg a = true)
    (hbar : r.bar = .bar0) (hs : sizeOk r = true) (hf : b.hostFree = true) (hon : b.domOn 3 = true) :
    b.request_ r = if r.wr then b.intEnds.hostWrite r else b.intEnds.hostRead r := by
  have hm : b.meets r = .ready := meets_plain ha hp hbar hs hon
  rw [request_answered hf (by rw [hm]; decide), Block.answerReq]
  simp only [intEnds_meets, hm, ha, quadTouch_plain hp]

/-! ### A register with one stored field (R17, R18) -/

/-- The field takes the value that the write leaves in it, if it is no reserved one, and nothing else of the register changes. -/
theorem storeW_field {b : Block} {a lo n rst : Nat} {chk : List Chk} {w : RegW} (h : regFields a = [⟨lo, n, .rw, rst, chk⟩])
    (hit : w.hits lo n = true) (hn : lo + n ≤ 72) :
    (b.storeW a w).get ⟨a, lo, n⟩ = (if chk.all (b.chkOk a (fieldOf (w.over_ (b.reg a)) lo n)) then
      fieldOf (w.over_ (b.reg a)) lo n else b.get ⟨a, lo, n⟩) ∧
    b.keeps [⟨a, lo, n⟩] (b.storeW a w) := by
  have hst : b.storeW a w = if chk.all (b.chkOk a (fieldOf (w.over_ (b.reg a)) lo n)) then
      b.put ⟨a, lo, n⟩ (fieldOf (w.over_ (b.reg a)) lo n) else b.setReg a (b.reg a) := by
    simp only [Block.storeW, h, List.foldl_cons, List.foldl_nil, Block.fieldStore, hit, Bool.not_true, Bool.false_eq_true,
      if_false, Block.put]
    split <;> rfl
  rw [hst]
  split
  · refine ⟨?_, put_keeps _ _ _⟩
    rw [Block.get_put_same _ _ _ hn]
    exact Nat.mod_eq_of_lt (fieldOf_lt _ _ _)
  · have hself : ∀ c, (b.setReg a (b.reg a)).reg c = b.reg c := fun c => by
      rw [Block.reg_setReg]
      split
      · rename_i hc; rw [hc]
      · rfl
    exact ⟨by simp only [Block.get, hself], keeps_of_reg hself⟩

theorem storeW_only (ps : List Part) (b : Block) (a : Nat) (w : RegW) : b.only ps (b.storeW a w) := setReg_only _ _ _ _

theorem regFields_evtPin : regFields EVT_PIN = [⟨0, 64, .rw, 0, []⟩] := by decide +kernel

theorem regFields_hostCto : regFields HOST_CTO = [⟨0, 4, .rw, 10, [.range 1 15]⟩] := by decide +kernel

/-- A write of EVT_PIN has no effect but to store. -/
theorem regWrite_evtPin (b : Block) {w : RegW} (hw : w.mask ≠ 0) : b.regWrite EVT_PIN w = b.storeW EVT_PIN w := by
  have hreg : (regAt EVT_PIN).isNone = false := by decide +kernel
  have hc : isCounter EVT_PIN = false := by decide +kernel
  simp only [Block.regWrite, decide_eq_false hw, hreg, hc, Bool.or_self, Bool.false_eq_true, if_false]
  rfl

theorem regWrite_hostCto (b : Block) {w : RegW} (hw : w.mask ≠ 0) : b.regWrite HOST_CTO w = b.storeW HOST_CTO w := by
  have hreg : (regAt HOST_CTO).isNone = false := by decide +kernel
  have hc : isCounter HOST_CTO = false := by decide +kernel
  simp only [Block.regWrite, decide_eq_false hw, hreg, hc, Bool.or_self, Bool.false_eq_true, if_false]
  rfl

theorem hostWrite_now {b : Block} {r : BarReq} {a : Nat} (ha : slotOf r.off.toNat = a) (hs : b.synced = false)
    (hw : ((regW r).within (fieldBits a)).mask ≠ 0) : b.hostWrite r = b.regWrite a ((regW r).within (fieldBits a)) := by
  simp only [Block.hostWrite, ha, if_neg hw, hs, Bool.false_and, Bool.false_eq_true, if_false]

end Sys2Proof.Machine
end

section
/-! SUPPORT. The values that a write leaves, the two registers of the statement, the requests of BAR4 and of configuration space,
and the statement on register accesses. -/

namespace Sys2Proof.Machine

/-! ### The value that a write leaves in a field at bit 0 -/

theorem fieldBits_evtPin : fieldBits EVT_PIN = lowMask 64 := by decide +kernel

theorem fieldBits_hostCto : fieldBits HOST_CTO = lowMask 4 := by decide +kernel

theorem testBit_fieldOf (x : Word) (lo w i : Nat) : (fieldOf x lo w).testBit i = (decide (i < w) && x.getLsbD (i + lo)) := by
  rw [fieldOf, Nat.testBit_mod_two_pow, Nat.testBit_div_two_pow, BitVec.getLsbD]

/-- A bit of a field that a write may reach, after the write. -/
theorem getLsbD_over_within {n i : Nat} (hi : i < n) (hn : n ≤ 72) (w : RegW) (x : Word) :
    ((w.within (lowMask n)).over_ x).getLsbD i = (x.getLsbD i && !w.mask.getLsbD i || w.bits.getLsbD i) := by
  have h72 : i < 72 := by omega
  simp only [RegW.within, RegW.over_, lowMask, BitVec.getLsbD_or, BitVec.getLsbD_and, BitVec.getLsbD_not, BitVec.getLsbD_ofNat,
    Nat.testBit_two_pow_sub_one, h72, hi, decide_true, Bool.and_true, Bool.true_and]

/-- A write that carries one bit of a field reaches it. -/
theorem hits_within {w : RegW} {n i : Nat} (hi : i < n) (hn : n ≤ 72) (h : w.mask.getLsbD i = true) :
    (w.within (lowMask n)).hits 0 n = true := by
  have hbit : (fieldOf (w.within (lowMask n)).mask 0 n).testBit i = true := by
    rw [testBit_fieldOf]
    simp only [RegW.within, lowMask, BitVec.getLsbD_and, BitVec.getLsbD_ofNat, Nat.testBit_two_pow_sub_one, Nat.add_zero, h, hi,
      show i < 72 by omega, decide_true, Bool.and_self]
  rw [RegW.hits, bne_iff_ne]
  intro h0
  simp [h0] at hbit

/-- A write of eight bytes at the register's place carries its low half. -/
theorem regW_whole {r : BarReq} (h8 : r.eight = true) (ho : r.off.toNat % 16 < 8) :
    regW r = ⟨BitVec.ofNat 72 (2 ^ 64 - 1), BitVec.ofNat 72 r.data.toNat⟩ := by
  simp only [regW, h8, if_true, if_pos ho]

/-- A write of four bytes, four after the register's place, carries bits [63:32]. -/
theorem regW_upper {r : BarReq} (h4 : r.eight = false) (ho : r.off.toNat % 16 < 8) (ho8 : ¬ r.off.toNat % 8 < 4) :
    regW r = ⟨BitVec.ofNat 72 ((2 ^ 32 - 1) * 2 ^ 32), BitVec.ofNat 72 (r.data.toNat % 2 ^ 32 * 2 ^ 32)⟩ := by
  simp only [regW, h4, Bool.false_eq_true, if_false, if_neg ho8, if_pos ho]

/-- A field that a write carries whole takes its bits. -/
theorem fieldOf_over_whole {n : Nat} (hn : n ≤ 64) (d : Nat) (x : Word) :
    fieldOf ((RegW.within ⟨BitVec.ofNat 72 (2 ^ 64 - 1), BitVec.ofNat 72 d⟩ (lowMask n)).over_ x) 0 n = d % 2 ^ n := by
  apply Nat.eq_of_testBit_eq
  intro i
  rw [testBit_fieldOf, Nat.testBit_mod_two_pow]
  by_cases hi : i < n
  · rw [Nat.add_zero, getLsbD_over_within hi (by omega)]
    simp only [BitVec.getLsbD_ofNat, Nat.testBit_two_pow_sub_one, show i < 72 by omega, show i < 64 by omega, decide_true,
      Bool.and_true, Bool.not_true, Bool.and_false, Bool.false_or, Bool.true_and]
  · simp only [hi, decide_false, Bool.false_and]

/-- A write of the upper four bytes keeps the lower. -/
theorem fieldOf_over_upper (d : Nat) (x : Word) :
    fieldOf ((RegW.within ⟨BitVec.ofNat 72 ((2 ^ 32 - 1) * 2 ^ 32), BitVec.ofNat 72 (d % 2 ^ 32 * 2 ^ 32)⟩ (lowMask 64)).over_ x) 0 64 =
      fieldOf x 0 64 % 2 ^ 32 + d % 2 ^ 32 * 2 ^ 32 := by
  apply Nat.eq_of_testBit_eq
  intro i
  have hx : fieldOf x 0 64 % 2 ^ 32 < 2 ^ 32 := Nat.mod_lt _ (by decide)
  have hr : (fieldOf x 0 64 % 2 ^ 32 + d % 2 ^ 32 * 2 ^ 32).testBit i =
      if i < 32 then (fieldOf x 0 64 % 2 ^ 32).testBit i else (d % 2 ^ 32).testBit (i - 32) := by
    rw [Nat.add_comm, Nat.mul_comm, Nat.testBit_two_pow_mul_add _ hx]
  rw [hr, testBit_fieldOf, Nat.testBit_mod_two_pow, Nat.testBit_mod_two_pow, testBit_fieldOf]
  by_cases hi : i < 64
  · rw [Nat.add_zero, getLsbD_over_within hi (by omega)]
    simp only [BitVec.getLsbD_ofNat, Nat.testBit_mul_two_pow, Nat.testBit_two_pow_sub_one, Nat.testBit_mod_two_pow]
    by_cases h32 : i < 32
    · simp [h32, hi, show ¬ 32 ≤ i by omega]
    · simp [h32, hi, show i - 32 < 32 by omega, show i < 72 by omega, show 32 ≤ i by omega]
  · simp [hi, show ¬ i < 32 by omega, show ¬ i - 32 < 32 by omega]

/-! ### Writes of the two registers -/

theorem intEnds_keeps (b : Block) : b.keeps [] b.intEnds := keeps_of_regs rfl

/-- The register at `a` has one stored field of `n` bits from bit 0, a plain place in PD3, and no effect of a write but to store. -/
structure OneField (a n rst : Nat) (chk : List Chk) : Prop where
  plain : pd3Reg a = true
  fields : regFields a = [⟨0, n, .rw, rst, chk⟩]
  bits : fieldBits a = lowMask n
  width : n ≤ 64
  stores : ∀ (b : Block) (w : RegW), w.mask ≠ 0 → b.regWrite a w = b.storeW a w

theorem oneField_evtPin : OneField EVT_PIN 64 0 [] :=
  ⟨pd3Reg_evtPin, regFields_evtPin, fieldBits_evtPin, by decide, fun b _ h => regWrite_evtPin b h⟩

theorem oneField_hostCto : OneField HOST_CTO 4 10 [.range 1 15] :=
  ⟨pd3Reg_hostCto, regFields_hostCto, fieldBits_hostCto, by decide, fun b _ h => regWrite_hostCto b h⟩

/-- A write of such a register that finds nothing in its way: the field takes the value that the write leaves in it, if it is no
reserved one. -/
theorem write_field {b : Block} {r : BarReq} {a n rst : Nat} {chk : List Chk} (h : OneField a n rst chk)
    (ha : slotOf r.off.toNat = a) (hbar : r.bar = .bar0) (hs : sizeOk r = true) (hwr : r.wr = true) (hf : b.hostFree = true)
    (hon : b.domOn 3 = true) (hsync : b.synced = false) (hhit : ((regW r).within (lowMask n)).hits 0 n = true) :
    (b.request_ r).get ⟨a, 0, n⟩ =
      (if chk.all (b.intEnds.chkOk a (fieldOf (((regW r).within (lowMask n)).over_ (b.reg a)) 0 n)) then
        fieldOf (((regW r).within (lowMask n)).over_ (b.reg a)) 0 n else b.get ⟨a, 0, n⟩) ∧
    b.keeps [⟨a, 0, n⟩] (b.request_ r) ∧ b.only [.pw] (b.request_ r) := by
  have hmask : ((regW r).within (fieldBits a)).mask ≠ 0 := fun h0 => by
    rw [← h.bits] at hhit
    simp [RegW.hits, h0, fieldOf] at hhit
  have hreq : b.request_ r = b.intEnds.storeW a ((regW r).within (lowMask n)) := by
    rw [request_plain ha h.plain hbar hs hf hon, hwr, if_pos rfl, hostWrite_now (b := b.intEnds) ha hsync hmask,
      h.stores _ _ hmask, h.bits]
  obtain ⟨hget, hkeeps⟩ := storeW_field (b := b.intEnds) h.fields hhit (by have := h.width; omega)
  rw [hreq]
  exact ⟨hget, keeps_trans (keeps_mono (intEnds_keeps b) (by simp)) hkeeps,
    only_trans (intEnds_only b) (storeW_only _ _ _ _)⟩

/-- The same for a write of eight bytes. -/
theorem write_field_whole {b : Block} {d : Half} {a n rst : Nat} {chk : List Chk} (h : OneField a n rst chk) (hn : 0 < n)
    (ha : (BitVec.ofNat 24 a).toNat = a) (hs : a % 16 = 0) (hf : b.hostFree = true) (hon : b.domOn 3 = true)
    (hsync : b.synced = false) :
    (b.request_ ⟨BitVec.ofNat 24 a, true, true, d, .bar0⟩).get ⟨a, 0, n⟩ =
      (if chk.all (b.intEnds.chkOk a (d.toNat % 2 ^ n)) then d.toNat % 2 ^ n else b.get ⟨a, 0, n⟩) ∧
    b.keeps [⟨a, 0, n⟩] (b.request_ ⟨BitVec.ofNat 24 a, true, true, d, .bar0⟩) ∧
    b.only [.pw] (b.request_ ⟨BitVec.ofNat 24 a, true, true, d, .bar0⟩) := by
  have hw : regW ⟨BitVec.ofNat 24 a, true, true, d, .bar0⟩ = ⟨BitVec.ofNat 72 (2 ^ 64 - 1), BitVec.ofNat 72 d.toNat⟩ :=
    regW_whole rfl (by simp only [ha]; omega)
  have hhit : ((regW ⟨BitVec.ofNat 24 a, true, true, d, .bar0⟩).within (lowMask n)).hits 0 n = true := by
    rw [hw]
    exact hits_within hn (by have := h.width; omega)
      (show (BitVec.ofNat 72 (2 ^ 64 - 1)).getLsbD 0 = true by decide)
  have := write_field h (r := ⟨BitVec.ofNat 24 a, true, true, d, .bar0⟩) (by simp only [slotOf, ha]; omega) rfl
    (by simp only [sizeOk, ha, if_true, beq_iff_eq]; omega) rfl hf hon hsync hhit
  simpa only [hw, fieldOf_over_whole h.width] using this

/-! ### A read (R60) -/

theorem readBytes_evtPin (b : Block) : b.readBytes EVT_PIN true = bytesOf (b.get EVT_PIN_PIN) 0 8 := by
  have hloc : b.location EVT_PIN = b.get EVT_PIN_PIN := by
    rw [Block.get, fieldOf, Nat.pow_zero, Nat.div_one]
    rfl
  simp only [Block.readBytes, show EVT_PIN / 8 * 8 = EVT_PIN from rfl, hloc]
  rfl

theorem hostValue_no_journal {b : Block} (h : b.host.journal = []) (a : Nat) : b.hostValue a = b.reg a := by
  simp [Block.hostValue, h]

theorem hostRead_evtPin {b : Block} {r : BarReq} (ho : r.off.toNat = EVT_PIN) (h8 : r.eight = true) (hj : b.host.journal = []) :
    b.hostRead r = b.emit (.readData EVT_PIN (bytesOf (b.get EVT_PIN_PIN) 0 8) false) := by
  have hfresh : b.freshen EVT_PIN = b := rfl
  have hslot : slotOf EVT_PIN = EVT_PIN := rfl
  have hget : (b.setReg EVT_PIN (b.reg EVT_PIN)).get EVT_PIN_PIN = b.get EVT_PIN_PIN := by
    simp only [Block.get, Block.reg_setReg_same]
  simp only [Block.hostRead, ho, hslot, hfresh, h8, hostValue_no_journal hj, readBytes_evtPin, hget]
  rfl

/-! ### Requests that the endpoint answers itself (R54, R56, R592) -/

theorem meets_core {b : Block} {r : BarReq} (h1 : r.bar ≠ .none) (h2 : r.bar ≠ .bar0) : b.meets r = .core := by
  simp only [Block.meets, if_neg h1, if_pos h2]

theorem request_core {b : Block} {r : BarReq} (h1 : r.bar ≠ .none) (h2 : r.bar ≠ .bar0) (hf : b.hostFree = true) :
    b.request_ r = if r.bar = .bar4 then b.intEnds.bar4 r else b.intEnds.configReq r := by
  have hm : b.meets r = .core := meets_core h1 h2
  rw [request_answered hf (by rw [hm]; decide), Block.answerReq]
  simp only [intEnds_meets, hm]

/-- A vector's entry whose control word has bit 0 set is masked. -/
def Block.vectorMasked (b : Block) (v x : Nat) : Block :=
  { b with host := { b.host with
    pci := { b.host.pci with vectors := sput (fun _ => 0) b.host.pci.vectors v (BitVec.ofNat 96 x) }
    mask := b.host.mask ||| BitVec.ofNat 64 (2 ^ v) } }

theorem setVector_masked {b : Block} {v x : Nat} (h : bitAt x 96 = true) : b.setVector v x = b.vectorMasked v x := by
  simp only [Block.setVector, h, if_true]
  rfl

/-- Writing the control word of a vector replaces the 32 bits from bit 96 of its entry. -/
theorem bitAt_control (b : Block) (v : Nat) {d : Half} (hd : d.getLsbD 0 = true) :
    bitAt (b.vector v - b.vector v / 2 ^ 96 % 2 ^ 32 * 2 ^ 96 + d.toNat % 2 ^ 32 * 2 ^ 96) 96 = true := by
  have hx : ∃ p, p < 2 ^ 96 ∧ b.vector v = p + b2n (b.host.mask.getLsbD v) * 2 ^ 96 := ⟨_, BitVec.isLt _, rfl⟩
  obtain ⟨p, hp, hv⟩ := hx
  have hm : b2n (b.host.mask.getLsbD v) < 2 := by cases b.host.mask.getLsbD v <;> decide
  have hd2 : d.toNat % 2 = 1 := by simpa [BitVec.getLsbD, Nat.testBit_zero] using hd
  rw [hv, bitAt, beq_iff_eq]
  omega

theorem bar4_control (b : Block) (v : Fin 64) {d : Half} (hd : d.getLsbD 0 = true) :
    ∃ x, b.bar4 ⟨BitVec.ofNat 24 (16 * v.val + 12), false, true, d, .bar4⟩ = b.vectorMasked v x := by
  have hoff : (BitVec.ofNat 24 (16 * v.val + 12)).toNat = 16 * v.val + 12 := by
    rw [BitVec.toNat_ofNat]
    omega
  have h1 : (16 * v.val + 12) % 0x1000 = 16 * v.val + 12 := by omega
  have h2 : (16 * v.val + 12) / 16 = v.val := by omega
  have h3 : (16 * v.val + 12) % 16 = 12 := by omega
  have h4 : ¬ 64 ≤ v.val := by omega
  simp only [Block.bar4, hoff, h1, h2, h3, h4, Block.bar4Place, v.isLt, if_true, if_false, Bool.not_true, Bool.false_eq_true]
  exact ⟨_, setVector_masked (bitAt_control b v hd)⟩

theorem vectorMasked_mask (b : Block) (v : Fin 64) (x : Nat) : (b.vectorMasked v x).host.mask.getLsbD v = true := by
  rw [Block.vectorMasked, BitVec.getLsbD_or, BitVec.getLsbD_ofNat, Nat.testBit_two_pow_self, Bool.and_true,
    decide_eq_true v.isLt, Bool.or_true]

/-- The first double word of configuration space: vendor and device (Table 2-1). -/
theorem configReq_identity {b : Block} {d : Half} (h : b.host.pcie = .ready) :
    b.configReq ⟨0, false, false, d, .config⟩ = b.emit (.readData 0 [0xD4, 0x1F, 0x20, 0x07] false) := by
  have hword : b.pciWord 0 = 0x07201FD4 := if_pos rfl
  have hbytes : List.ofFn (fun k : Fin 4 => BitVec.ofNat 8 (b.pciWord 0 / 2 ^ (8 * k.val))) = [0xD4, 0x1F, 0x20, 0x07] := by
    rw [hword]
    decide
  simp only [Block.configReq, h]
  exact congrArg (fun l => b.emit (.readData 0 l false)) hbytes

theorem configReq_retry {b : Block} {r : BarReq} (h : b.host.pcie = .retry) : b.configReq r = b.emit .configRetry := by
  simp only [Block.configReq, h]
  rfl

/-! ### The statement -/

section
variable {s : State} (d : Half) (hon : s.blk.domOn 3 = true) (hf : s.blk.hostFree = true) (hsync : s.blk.synced = false)
include hon hf hsync

/-- EVT_PIN written whole (R98). -/
theorem write_evtPin :
    ∃ t, exec (.registerWrite ⟨BitVec.ofNat 24 EVT_PIN, true, true, d, .bar0⟩) s = .next t ∧
      t.blk.get EVT_PIN_PIN = d.toNat ∧ Frame [EVT_PIN_PIN] [.pw] s t := by
  obtain ⟨hget, hkeeps, honly⟩ := write_field_whole (d := d) oneField_evtPin (by decide) (by decide) (by decide) hf hon hsync
  refine donePower_intro (exec_registerWrite s) fun u => ⟨hget.trans ?_, frame_intro hkeeps honly⟩
  exact Nat.mod_eq_of_lt d.isLt

/-- The upper four bytes of EVT_PIN. -/
theorem write_evtPin_upper :
    ∃ t, exec (.registerWrite ⟨BitVec.ofNat 24 (EVT_PIN + 4), false, true, d, .bar0⟩) s = .next t ∧
      t.blk.get EVT_PIN_PIN = s.blk.get EVT_PIN_PIN % 2 ^ 32 + d.toNat % 2 ^ 32 * 2 ^ 32 ∧ Frame [EVT_PIN_PIN] [.pw] s t := by
  have hoff : (BitVec.ofNat 24 (EVT_PIN + 4)).toNat = EVT_PIN + 4 := by decide
  have hw : regW ⟨BitVec.ofNat 24 (EVT_PIN + 4), false, true, d, .bar0⟩ =
      ⟨BitVec.ofNat 72 ((2 ^ 32 - 1) * 2 ^ 32), BitVec.ofNat 72 (d.toNat % 2 ^ 32 * 2 ^ 32)⟩ :=
    regW_upper rfl (by simp only [hoff]; decide) (by simp only [hoff]; decide)
  have hhit : ((regW ⟨BitVec.ofNat 24 (EVT_PIN + 4), false, true, d, .bar0⟩).within (lowMask 64)).hits 0 64 = true := by
    rw [hw]
    exact hits_within (i := 32) (by decide) (by decide)
      (show (BitVec.ofNat 72 ((2 ^ 32 - 1) * 2 ^ 32)).getLsbD 32 = true by decide)
  have h := write_field (b := s.blk) oneField_evtPin (r := ⟨BitVec.ofNat 24 (EVT_PIN + 4), false, true, d, .bar0⟩)
    (by simp only [hoff]; decide) rfl (by simp only [sizeOk, hoff]; decide) rfl hf hon hsync hhit
  simp only [hw, fieldOf_over_upper] at h
  obtain ⟨hget, hkeeps, honly⟩ := h
  exact donePower_intro (exec_registerWrite s) fun u => ⟨hget, frame_intro hkeeps honly⟩

/-- HOST_CTO, of which 0 is a reserved value (R18). -/
theorem write_hostCto :
    ∃ t, exec (.registerWrite ⟨BitVec.ofNat 24 HOST_CTO, true, true, d, .bar0⟩) s = .next t ∧
      t.blk.get HOST_CTO_MS = (if d.toNat % 16 = 0 then s.blk.get HOST_CTO_MS else d.toNat % 16) ∧
      Frame [HOST_CTO_MS] [.pw] s t := by
  obtain ⟨hget, hkeeps, honly⟩ := write_field_whole (d := d) oneField_hostCto (by decide) (by decide) (by decide) hf hon hsync
  refine donePower_intro (exec_registerWrite s) fun u => ⟨hget.trans ?_, frame_intro hkeeps honly⟩
  by_cases h0 : d.toNat % 16 = 0
  · simp [Block.chkOk, h0]
  · simp [Block.chkOk, h0, show 1 ≤ d.toNat % 16 by omega, show d.toNat % 16 ≤ 15 by omega]

end

theorem read_evtPin {s : State} (d : Half) (hon : s.blk.domOn 3 = true) (hf : s.blk.hostFree = true)
    (hj : s.blk.host.journal = []) :
    ∃ t, exec (.registerWrite ⟨BitVec.ofNat 24 EVT_PIN, true, false, d, .bar0⟩) s = .next t ∧
      t.blk.out = .readData EVT_PIN (bytesOf (s.blk.get EVT_PIN_PIN) 0 8) false :: s.blk.out ∧ Frame [] [.pw, .out] s t := by
  have hoff : (BitVec.ofNat 24 EVT_PIN).toNat = EVT_PIN := by decide
  have hreq : s.blk.request_ ⟨BitVec.ofNat 24 EVT_PIN, true, false, d, .bar0⟩ =
      s.blk.intEnds.emit (.readData EVT_PIN (bytesOf (s.blk.get EVT_PIN_PIN) 0 8) false) := by
    rw [request_plain (a := EVT_PIN) (by simp only [hoff]; decide) pd3Reg_evtPin rfl (by simp only [sizeOk, hoff]; decide) hf hon, if_neg (by simp),
      hostRead_evtPin (b := s.blk.intEnds) rfl rfl hj]
    rfl
  refine donePower_intro (exec_registerWrite s) fun u => ?_
  rw [hreq]
  exact ⟨rfl, frame_intro (keeps_emit (intEnds_keeps s.blk)) (only_emit (only_mono (intEnds_only s.blk) (by simp)) (by simp))⟩

theorem mask_vector {s : State} (v : Fin 64) {d : Half} (hf : s.blk.hostFree = true) (hd : d.getLsbD 0 = true) :
    ∃ t, exec (.registerWrite ⟨BitVec.ofNat 24 (16 * v.val + 12), false, true, d, .bar4⟩) s = .next t ∧
      t.blk.host.mask.getLsbD v = true ∧ t.blk.host.pba = s.blk.host.pba ∧ t.blk.out = s.blk.out ∧
      Frame [] [.host, .pw] s t := by
  obtain ⟨x, hx⟩ := bar4_control s.blk.intEnds v hd
  have hreq : s.blk.request_ ⟨BitVec.ofNat 24 (16 * v.val + 12), false, true, d, .bar4⟩ = s.blk.intEnds.vectorMasked v x := by
    rw [request_core (by simp) (by simp) hf, if_pos rfl, hx]
  refine donePower_intro (exec_registerWrite s) fun u => ?_
  rw [hreq]
  refine ⟨vectorMasked_mask _ v x, rfl, rfl, frame_intro (keeps_part (intEnds_keeps s.blk) rfl) ?_⟩
  exact only_trans (only_mono (intEnds_only s.blk) (by simp)) (by simp [Block.only, Block.vectorMasked])

/-- A configuration request whose answer is one completion. -/
theorem config_emits {s : State} {r : BarReq} {o : Out} (hf : s.blk.hostFree = true) (hbar : r.bar = .config)
    (ho : s.blk.intEnds.configReq r = s.blk.intEnds.emit o) :
    ∃ t, exec (.registerWrite r) s = .next t ∧ t.blk.out = o :: s.blk.out ∧ Frame [] [.pw, .out] s t := by
  have hreq : s.blk.request_ r = s.blk.intEnds.emit o := by
    rw [request_core (by simp [hbar]) (by simp [hbar]) hf, if_neg (by simp [hbar]), ho]
  refine donePower_intro (exec_registerWrite s) fun u => ?_
  rw [hreq]
  exact ⟨rfl, frame_intro (keeps_emit (intEnds_keeps s.blk)) (only_emit (only_mono (intEnds_only s.blk) (by simp)) (by simp))⟩

/-- Settles O4: a write stores the one field of EVT_PIN or HOST_CTO, a read returns it, and the endpoint answers for its MSI-X table
and its configuration space. -/
theorem registerAccess : Obligations.RegisterAccess := by
  unfold Obligations.RegisterAccess
  refine ⟨?_, ?_, ?_, ?_, ?_, ?_, ?_⟩
  · intro s d hon hf hs
    exact write_evtPin d hon hf hs
  · intro s d hon hf hs
    exact write_evtPin_upper d hon hf hs
  · intro s d hon hf hs
    exact write_hostCto d hon hf hs
  · intro s d hon hf hj
    exact read_evtPin d hon hf hj
  · intro s v d hf hd
    exact mask_vector v hf hd
  · intro s d hf h
    exact config_emits hf rfl (configReq_identity (b := s.blk.intEnds) h)
  · intro s r hf hbar h
    exact config_emits hf hbar (configReq_retry (b := s.blk.intEnds) h)

end Sys2Proof.Machine
end

section
/-! SUPPORT. The maintenance slot: what reaching an instant leaves, the slot register, and a slot that serves nothing but the check
of the stores (R31 to R33, R183, R461). -/

namespace Sys2Proof.Machine

/-! ### The block that a command leads to -/

/-- The outcome of a command that leads to the block `c`. -/
def leadsTo (s : State) (c : Block) : Host.Outcome State Fault Refusal := done s fun _ => c

theorem done_leadsTo {s : State} {f : Block → Block} {c : Block} (h : f s.blk = c) : done s f = leadsTo s c :=
  done_congr (g := fun _ => c) h

theorem leadsTo_intro {o : Host.Outcome State Fault Refusal} {s : State} {c : Block} {P : State → Prop} (ho : o = leadsTo s c)
    (h : ∀ u, P ⟨c.withTags u, s.pending⟩) : ∃ t, o = .next t ∧ P t := done_intro ho h

/-! ### Reaching an instant of the time scale -/

theorem reach_lt_max (b : Block) (lt : Nat) : (b.reach lt).tm.lt = max b.tm.lt lt := by
  rcases Nat.lt_or_ge b.tm.lt lt with h | h
  · rw [reach_lt h, max_eq_right (Nat.le_of_lt h)]
  · rw [Block.reach, if_pos h, max_eq_left h]

theorem reachNs_reg (b : Block) (ns a : Nat) : (b.reachNs ns).reg a = b.reg a := by
  simp only [Block.reg, Block.reachNs, reach_regs]

theorem reachNs_get (b : Block) (ns : Nat) (f : Field) : (b.reachNs ns).get f = b.get f := by
  simp only [Block.get, reachNs_reg]

theorem reachNs_keeps (b : Block) (ns : Nat) : b.keeps [] (b.reachNs ns) := reach_keeps b _

theorem reachNs_only (b : Block) (ns : Nat) : b.only [.tm] (b.reachNs ns) := reach_only b _

theorem reachNs_le (b : Block) (ns : Nat) : ns ≤ (b.reachNs ns).nowNs := by
  rw [Block.nowNs, Nat.le_div_iff_mul_le (by decide), Block.reachNs, reach_lt_max]
  exact Nat.le_max_right _ _

/-- An instant ahead is reached exactly. -/
theorem reachNs_ahead {b : Block} {ns : Nat} (h : b.nowNs < ns) : (b.reachNs ns).nowNs = ns := by
  have hlt : b.tm.lt ≤ ns * nsUnit := Nat.le_of_lt ((Nat.div_lt_iff_lt_mul (by decide)).mp h)
  rw [Block.nowNs, Block.reachNs, reach_lt_max, max_eq_right hlt, Nat.mul_div_cancel _ (by decide)]

/-! ### The slot register (R31, R33) -/

/-- The fields that a write of SYS_MSLOT stores, all of them accepted. -/
def Block.slotStored (b : Block) (len lat eng : Nat) : Block :=
  ((b.put SYS_MSLOT_LEN len).put SYS_MSLOT_ENG eng).put SYS_MSLOT_LATEST lat

/-- The slot in force is the stored one. -/
def Block.slotForce (b : Block) (len lat : Nat) : Block :=
  ((b.putB SYS_MSLOT_CLAMP false).put SYS_MSLOT_LENF len).put SYS_MSLOT_LATF lat

theorem fitSlot_fits {b : Block} (hlen : b.get SYS_MSLOT_LEN ≤ b.get SYS_CYCLE_PERIN / 4)
    (hlat : b.get SYS_MSLOT_LATEST ≤ b.get SYS_CYCLE_PERIN - b.get SYS_MSLOT_LEN) :
    b.fitSlot = b.slotForce (b.get SYS_MSLOT_LEN) (b.get SYS_MSLOT_LATEST) := by
  simp only [Block.fitSlot, Block.slotForce, Nat.not_lt.mpr hlen, Nat.not_lt.mpr hlat, if_false, decide_false, Bool.or_false]

section
variable (b : Block) {len lat : Nat} (eng : Nat) (hl : len < 2 ^ 8) (ht : lat < 2 ^ 12)
include hl ht

theorem slotStored_get : (b.slotStored len lat eng).get SYS_MSLOT_LEN = len ∧
    (b.slotStored len lat eng).get SYS_MSLOT_ENG = eng % 16 ∧ (b.slotStored len lat eng).get SYS_MSLOT_LATEST = lat := by
  refine ⟨?_, ?_, ?_⟩
  · simpa [Block.slotStored] using hl
  · simp [Block.slotStored]
  · simpa [Block.slotStored] using ht

theorem mslotWrite_fits {data : Half} (hd : len = data.toNat % 2 ^ 8) (hd' : lat = data.toNat / 2 ^ 12 % 2 ^ 12)
    (hok : b.slotLenOk len = true) (hlat : lat ≤ b.get SYS_CYCLE_PERIN - len) :
    b.mslotWrite data = (b.slotStored len lat (data.toNat / 2 ^ 8)).slotForce len lat := by
  obtain ⟨hgl, -, hgt⟩ := slotStored_get b (data.toNat / 2 ^ 8) hl ht
  have hper : (b.slotStored len lat (data.toNat / 2 ^ 8)).get SYS_CYCLE_PERIN = b.get SYS_CYCLE_PERIN := by
    simp [Block.slotStored]
  have hw : b.mslotWrite data = (b.slotStored len lat (data.toNat / 2 ^ 8)).fitSlot := by
    have hstored : ((b.put SYS_MSLOT_LEN len).put SYS_MSLOT_ENG (data.toNat / 2 ^ 8)).get SYS_MSLOT_LEN = len := by
      simpa using hl
    have hp2 : ((b.put SYS_MSLOT_LEN len).put SYS_MSLOT_ENG (data.toNat / 2 ^ 8)).get SYS_CYCLE_PERIN =
        b.get SYS_CYCLE_PERIN := by simp
    simp only [Block.mslotWrite, ← hd, ← hd', hok, if_true, hstored, hp2, if_pos hlat, Block.slotStored]
  have hfit : len ≤ b.get SYS_CYCLE_PERIN / 4 := by
    simp only [Block.slotLenOk, Bool.and_eq_true, decide_eq_true_eq] at hok
    exact hok.2
  rw [hw, fitSlot_fits (by rwa [hgl, hper]) (by rwa [hgl, hgt, hper]), hgl, hgt]

theorem slotForce_get (c : Block) : (c.slotForce len lat).get SYS_MSLOT_LENF = len ∧
    (c.slotForce len lat).get SYS_MSLOT_LATF = lat ∧ (c.slotForce len lat).flag SYS_MSLOT_CLAMP = false := by
  refine ⟨?_, ?_, ?_⟩
  · simpa [Block.slotForce] using hl
  · simpa [Block.slotForce] using ht
  · simp [Block.slotForce]

end

theorem slotForce_apart (b : Block) (len lat : Nat) {f : Field} (h : f.lo + f.w ≤ 24) :
    (b.slotForce len lat).get f = b.get f := by
  rw [Block.slotForce, Block.get_put_apart _ _ _ _ (.inr (.inr (by simp only; omega))),
    Block.get_put_apart _ _ _ _ (.inr (.inr (by simp only; omega))), Block.get_putB_apart _ _ _ _ (.inr (.inr h))]

theorem slotWrite_keeps (b : Block) (len lat eng len' lat' : Nat) :
    b.keeps [SYS_MSLOT_LEN, SYS_MSLOT_ENG, SYS_MSLOT_LATEST, SYS_MSLOT_CLAMP, SYS_MSLOT_LENF, SYS_MSLOT_LATF]
      ((b.slotStored len lat eng).slotForce len' lat') := by
  have h := keeps_put (v := lat) (f := SYS_MSLOT_LATEST) (keeps_put (v := eng) (f := SYS_MSLOT_ENG) (keeps_put (v := len)
    (f := SYS_MSLOT_LEN) (keeps_refl [SYS_MSLOT_LEN, SYS_MSLOT_ENG, SYS_MSLOT_LATEST, SYS_MSLOT_CLAMP, SYS_MSLOT_LENF,
      SYS_MSLOT_LATF] b) (by simp)) (by simp)) (by simp)
  exact keeps_put (keeps_put (keeps_putB h (by simp)) (by simp)) (by simp)

theorem slotWrite_only (b : Block) (len lat eng len' lat' : Nat) :
    b.only [] ((b.slotStored len lat eng).slotForce len' lat') :=
  only_put (only_put (only_putB (only_put (only_put (put_only [] b _ _)))))

/-! ### A slot that serves nothing but the check of the stores (R183, R461) -/

theorem remapStep_idle {b : Block} (h : b.cav.copying = []) : b.remapStep = b := by
  simp only [Block.remapStep, h]

theorem probes_idle {b : Block} (h : ∀ n < 32, (b.pt n).lbk = false) : b.probes = b := by
  refine List.foldlRecOn (motive := fun c => c = b) _ _ rfl fun c hc n hn => ?_
  subst hc
  simp only [h n (List.mem_range.mp hn), Bool.false_and, Bool.false_eq_true, if_false]

theorem calBoundary_idle {b : Block} (hs : b.cal.swap = []) (hd : b.cal.dly = none) : b.calBoundary = b := by
  have hswap : b.calSwap = b := by simp only [Block.calSwap, hs, List.isEmpty_nil, if_true]
  simp only [Block.calBoundary, hswap, Block.calDly, hd]

/-- With no job CAL_STAT shows an empty queue. -/
theorem calShow_idle {b : Block} (hr : b.cal.run = none) (hq : b.cal.queue = []) :
    b.calShow = (b.put CAL_STAT_QDEPTH 0).putB CAL_STAT_BUSY false := by
  simp only [Block.calShow, hr, hq, List.length_nil, Option.isSome_none]

theorem calNext_idle {b : Block} (hq : b.cal.queue = []) (n : Nat) : b.calNext n = b.calShow := by
  cases n with
  | zero => rfl
  | succ n => unfold Block.calNext; rw [hq]; split <;> simp_all

theorem calSlot_idle {b : Block} (hr : b.cal.run = none) (hq : b.cal.queue = []) (hs : b.cal.swap = [])
    (hd : b.cal.dly = none) : b.calSlot = (b.put CAL_STAT_QDEPTH 0).putB CAL_STAT_BUSY false := by
  have hb : (if b.flag SYS_CYCLE_RUN then b else b.calBoundary) = b := by
    rw [calBoundary_idle hs hd, ite_self]
  simp only [Block.calSlot, hb, calNext_idle hq, calShow_idle hr hq, Block.putB_cal, Block.put_cal, hr, Option.isSome_none,
    Bool.false_eq_true, if_false]

/-- No error struck: the check moves on through the stores. -/
theorem scrub_nil_eng (b : Block) (us : Nat) (e : Fin 16) : (b.scrub us []).eng[e] = scrubbed b e us := by
  simp only [Block.scrub, Block.scrubErrors, scrubbed, Fin.getElem_fin, Vector.getElem_mapIdx]
  split <;> rfl

/-- The work of a slot that serves nothing and meets no error. -/
def Block.idleWork (b : Block) (us : Nat) : Block :=
  (((b.scrub us []).put CAL_STAT_QDEPTH 0).putB CAL_STAT_BUSY false).mapCyc (fun c => { c with slotUsed := 0 })

theorem slotWork_idle {b : Block} (h : nothingServed b) (us : Nat) : b.slotWork [] (us * 1000) = b.idleWork us := by
  obtain ⟨hcopy, hrun, hqueue, hswap, hdly, hlbk⟩ := h
  have hremap : (b.scrub us []).remapStep = b.scrub us [] := remapStep_idle hcopy
  have hprobes : (b.scrub us []).probes = b.scrub us [] := probes_idle hlbk
  have hcal : (b.scrub us []).calSlot = ((b.scrub us []).put CAL_STAT_QDEPTH 0).putB CAL_STAT_BUSY false :=
    calSlot_idle hrun hqueue hswap hdly
  have hnone : (((b.scrub us []).put CAL_STAT_QDEPTH 0).putB CAL_STAT_BUSY false).cal.run.isSome = false := by
    rw [Block.putB_cal, Block.put_cal]
    exact Option.isSome_eq_false_iff.mpr (Option.isNone_iff_eq_none.mpr hrun)
  simp only [Block.slotWork, Nat.mul_div_cancel _ (show 0 < 1000 by decide), hremap, hprobes, hcal, hnone, Bool.false_eq_true,
    if_false]
  rfl

theorem idleWork_eng (b : Block) (us : Nat) (e : Fin 16) : (b.idleWork us).eng[e] = scrubbed b e us := scrub_nil_eng b us e

theorem idleWork_tm (b : Block) (us : Nat) : (b.idleWork us).tm = b.tm := rfl

theorem idleWork_nowNs (b : Block) (us : Nat) : (b.idleWork us).nowNs = b.nowNs := by
  simp only [Block.nowNs, idleWork_tm]

theorem idleWork_keeps (b : Block) (us : Nat) : b.keeps [CAL_STAT_QDEPTH, CAL_STAT_BUSY] (b.idleWork us) :=
  keeps_part (keeps_putB (keeps_put (keeps_of_regs (c := b.scrub us []) rfl) (by simp)) (by simp)) rfl

theorem idleWork_only (b : Block) (us : Nat) : b.only [.cyc, .eng] (b.idleWork us) := by
  simp [Block.only, Block.idleWork, Block.scrub, Block.scrubErrors, Block.mapCyc]

/-- Reaching an instant leaves nothing to serve. -/
theorem nothingServed_reachNs {b : Block} (h : nothingServed b) (ns : Nat) : nothingServed (b.reachNs ns) := by
  unfold Block.reachNs Block.reach
  split
  · exact h
  · exact h

theorem scrubbed_reachNs (b : Block) (ns : Nat) (e : Fin 16) (us : Nat) : scrubbed (b.reachNs ns) e us = scrubbed b e us := by
  unfold Block.reachNs Block.reach
  split <;> rfl

/-- The frame of a slot that serves nothing and opens at an instant. -/
theorem idleSlot_frame {s : State} {ns us : Nat} {c : Block} {u : SMap (BitVec 8)}
    (hr : c.regs = ((s.blk.reachNs ns).idleWork us).regs) (ho : ((s.blk.reachNs ns).idleWork us).only [.cyc] c) :
    Frame [CAL_STAT_QDEPTH, CAL_STAT_BUSY] [.cyc, .tm, .eng] s ⟨c.withTags u, s.pending⟩ := by
  refine frame_intro (keeps_part (keeps_trans (keeps_mono (reachNs_keeps s.blk ns) (by simp)) (idleWork_keeps _ us)) hr) ?_
  exact only_trans (only_mono (reachNs_only s.blk ns) (by simp))
    (only_trans (only_mono (idleWork_only _ us) (by simp)) (only_mono ho (by simp)))

/-! ### The slot opens (R32, R461) -/

/-- The slot of the cycle in progress is open, for `us` µs from now. -/
def Block.opened (b : Block) (us : Nat) : Block :=
  b.mapCyc (fun c => { c with slotDone := true, slotClose := some (b.nowNs + us * 1000) })

theorem nowNs_of_tm {b c : Block} (h : c.tm = b.tm) : c.nowNs = b.nowNs := by simp only [Block.nowNs, h]

theorem mapCyc_nowNs (b : Block) (f : CycleSt → CycleSt) : (b.mapCyc f).nowNs = b.nowNs := nowNs_of_tm rfl

/-- An outcome shows the present of the block that it holds. -/
@[simp] theorem withTags_nowNs (b : Block) (u : SMap (BitVec 8)) : (b.withTags u).nowNs = b.nowNs := nowNs_of_tm rfl

section
variable (b : Block) (us : Nat)

@[simp] theorem opened_regs : (b.opened us).regs = b.regs := rfl

@[simp] theorem opened_eng : (b.opened us).eng = b.eng := rfl

@[simp] theorem opened_nowNs : (b.opened us).nowNs = b.nowNs := nowNs_of_tm rfl

@[simp] theorem opened_slotDone : (b.opened us).cyc.slotDone = true := rfl

@[simp] theorem opened_slotClose : (b.opened us).cyc.slotClose = some (b.nowNs + us * 1000) := rfl

theorem opened_only : b.only [.cyc] (b.opened us) := by simp [Block.only, Block.opened, Block.mapCyc]

end

theorem slotOpen_eq (b : Block) (scrub : List (Fin 16 × BitVec 16 × Bool)) :
    b.slotOpen scrub = (b.slotWork scrub (b.get SYS_MSLOT_LENF * 1000)).opened (b.get SYS_MSLOT_LENF) := rfl

theorem slotOpen_idle {b : Block} (h : nothingServed b) :
    b.slotOpen [] = (b.idleWork (b.get SYS_MSLOT_LENF)).opened (b.get SYS_MSLOT_LENF) := by
  rw [slotOpen_eq, slotWork_idle h]

/-- An idle slot is open, for `us` µs from now. -/
def Block.idleOpened (b : Block) (us : Nat) : Block :=
  b.mapCyc (fun c => { c with slotUsed := 0, slotClose := some (b.nowNs + us * 1000) })

section
variable (b : Block) (us : Nat)

@[simp] theorem idleOpened_regs : (b.idleOpened us).regs = b.regs := rfl

@[simp] theorem idleOpened_eng : (b.idleOpened us).eng = b.eng := rfl

@[simp] theorem idleOpened_nowNs : (b.idleOpened us).nowNs = b.nowNs := nowNs_of_tm rfl

@[simp] theorem idleOpened_slotClose : (b.idleOpened us).cyc.slotClose = some (b.nowNs + us * 1000) := rfl

theorem idleOpened_only : b.only [.cyc] (b.idleOpened us) := by simp [Block.only, Block.idleOpened, Block.mapCyc]

end

/-- The instant of the idle grid that follows (R461). -/
def Block.idleGrid (b : Block) : Nat := (b.nowNs / 125000 + 1) * 125000

theorem idleGrid_ahead (b : Block) : b.nowNs < b.idleGrid := by
  unfold Block.idleGrid
  omega

theorem exec_slotOpenLatest_due {s : State} (scrub : List (Fin 16 × BitVec 16 × Bool)) (hp : s.blk.cyc.inProg = true)
    (hd : s.blk.cyc.slotDone = false) : exec (.slotOpenLatest scrub) s =
      leadsTo s ((s.blk.reachNs (s.blk.cyc.start + s.blk.slotOffset * 1000)).slotOpen scrub) :=
  (exec_slotOpenLatest s).trans (done_leadsTo (by simp only [hp, hd, Bool.not_false, Bool.and_true, if_true]))

theorem exec_idleSlotOpen_due {s : State} (scrub : List (Fin 16 × BitVec 16 × Bool)) (hp : s.blk.cyc.inProg = false) :
    exec (.idleSlotOpen scrub) s = leadsTo s
      (((s.blk.reachNs s.blk.idleGrid).slotWork scrub (min 31 (s.blk.get SYS_MSLOT_LENF) * 1000)).idleOpened
        (min 31 (s.blk.get SYS_MSLOT_LENF))) := by
  refine (exec_idleSlotOpen s).trans (done_leadsTo ?_)
  simp only [hp, Bool.false_eq_true, if_false, reachNs_get]
  rfl

end Sys2Proof.Machine
end
section
/-! The low-water registers as the host clears them, and the statement on the maintenance slot (R31 to R35). -/

namespace Sys2Proof.Machine

/-- The low-water registers of one engine at their reset values (R35, R176). -/
def Block.lwmReset (b : Block) (n : Nat) : Block :=
  ((b.put (SYS_LWM_GAL_MIN n) 0x3FFFFF).putB (SYS_LWM_GAL_OVR n) false).put (GAL_SLACK_MIN n) 0x3FFFFF

/-- What a low-water register of engine `n` holds after the clear. -/
def Block.lwmCleared (b : Block) (n : Nat) : Prop :=
  b.get (SYS_LWM_GAL_MIN n) = 0x3FFFFF ∧ b.flag (SYS_LWM_GAL_OVR n) = false ∧ b.get (GAL_SLACK_MIN n) = 0x3FFFFF

theorem lwmClrEngines_cons (b : Block) (n : Nat) (r : List Nat) :
    b.lwmClrEngines (n :: r) = (b.lwmReset n).lwmClrEngines r := rfl

theorem lwmReset_cleared (b : Block) {n : Nat} (hn : n < 16) : (b.lwmReset n).lwmCleared n := by
  have hne : SYS_LWM_GAL n ≠ GAL_SLACK n := by simp only [SYS_LWM_GAL, GAL_SLACK]; omega
  refine ⟨?_, ?_, ?_⟩
  · simp [Block.lwmReset, Ne.symm hne]
  · simp [Block.lwmReset, Ne.symm hne]
  · simp [Block.lwmReset]

theorem lwmReset_reg (b : Block) {n a : Nat} (h1 : a ≠ SYS_LWM_GAL n) (h2 : a ≠ GAL_SLACK n) :
    (b.lwmReset n).reg a = b.reg a := by
  rw [Block.lwmReset, Block.reg_put_ne _ _ _ h2, Block.putB, Block.reg_put_ne _ _ _ h1, Block.reg_put_ne _ _ _ h1]

theorem lwmClrEngines_reg : ∀ (l : List Nat) (b : Block) {a : Nat}, (∀ n ∈ l, a ≠ SYS_LWM_GAL n ∧ a ≠ GAL_SLACK n) →
    (b.lwmClrEngines l).reg a = b.reg a
  | [], _, _, _ => rfl
  | n :: r, b, a, h => by
    obtain ⟨h1, h2⟩ := h n List.mem_cons_self
    rw [lwmClrEngines_cons, lwmClrEngines_reg r _ fun m hm => h m (List.mem_cons_of_mem _ hm), lwmReset_reg b h1 h2]

theorem lwmClrEngines_only : ∀ (l : List Nat) (b : Block), b.only [] (b.lwmClrEngines l)
  | [], b => only_refl _ b
  | n :: r, b => only_trans (only_put (only_putB (put_only [] b _ _))) (lwmClrEngines_only r (b.lwmReset n))

/-- Two blocks with the same registers of engine `n` are cleared alike. -/
theorem lwmCleared_congr {b c : Block} {n : Nat} (h1 : c.reg (SYS_LWM_GAL n) = b.reg (SYS_LWM_GAL n))
    (h2 : c.reg (GAL_SLACK n) = b.reg (GAL_SLACK n)) (h : b.lwmCleared n) : c.lwmCleared n := by
  obtain ⟨hmin, hovr, hslack⟩ := h
  exact ⟨by simpa only [Block.get, h1] using hmin, by simpa only [Block.flag, Block.get, h1] using hovr,
    by simpa only [Block.get, h2] using hslack⟩

theorem lwmReset_keeps_cleared {b : Block} {m n : Nat} (hm : m < 16) (hn : n < 16) (h : b.lwmCleared m) :
    (b.lwmReset n).lwmCleared m := by
  by_cases hmn : m = n
  · subst hmn
    exact lwmReset_cleared b hm
  · have h1 : SYS_LWM_GAL m ≠ SYS_LWM_GAL n := by simp only [SYS_LWM_GAL]; omega
    have h2 : SYS_LWM_GAL m ≠ GAL_SLACK n := by simp only [SYS_LWM_GAL, GAL_SLACK]; omega
    have h3 : GAL_SLACK m ≠ SYS_LWM_GAL n := by simp only [SYS_LWM_GAL, GAL_SLACK]; omega
    have h4 : GAL_SLACK m ≠ GAL_SLACK n := by simp only [GAL_SLACK]; omega
    exact lwmCleared_congr (lwmReset_reg b h1 h2) (lwmReset_reg b h3 h4) h

theorem lwmClrEngines_cleared {m : Nat} (hm : m < 16) : ∀ (l : List Nat) (b : Block), (∀ n ∈ l, n < 16) →
    (m ∈ l ∨ b.lwmCleared m) → (b.lwmClrEngines l).lwmCleared m
  | [], _, _, h => h.resolve_left List.not_mem_nil
  | n :: r, b, hl, h => by
    have hn : n < 16 := hl n List.mem_cons_self
    refine lwmClrEngines_cleared hm r (b.lwmReset n) (fun k hk => hl k (List.mem_cons_of_mem _ hk)) ?_
    rcases h with h | h
    · rcases List.mem_cons.mp h with rfl | h
      · exact .inr (lwmReset_cleared b hm)
      · exact .inl h
    · exact .inr (lwmReset_keeps_cleared hm hn h)

/-- The low-water registers of the shared resources. -/
def sharedLwm (a : Nat) : Prop := a = SYS_LWM_FLW ∨ a = SYS_LWM_RING ∨ a = SYS_LWM_CELL ∨ a = SYS_LWM_SLOT

theorem lwmClr_reg (b : Block) {a : Nat} (h : ¬ sharedLwm a) : b.lwmClr.reg a = (b.lwmClrEngines (List.range 16)).reg a := by
  simp only [sharedLwm, not_or] at h
  obtain ⟨hf, hr, hc, hs⟩ := h
  rw [Block.lwmClr, Block.reg_put_ne _ _ _ hs, Block.reg_put_ne _ _ _ hc, Block.reg_put_ne _ _ _ hr, Block.reg_put_ne _ _ _ hf]

theorem lwmClr_cleared (b : Block) {n : Nat} (hn : n < 16) : b.lwmClr.lwmCleared n := by
  have h1 : ¬ sharedLwm (SYS_LWM_GAL n) := by
    simp only [sharedLwm, SYS_LWM_GAL, SYS_LWM_FLW, SYS_LWM_RING, SYS_LWM_CELL, SYS_LWM_SLOT]; omega
  have h2 : ¬ sharedLwm (GAL_SLACK n) := by
    simp only [sharedLwm, GAL_SLACK, SYS_LWM_FLW, SYS_LWM_RING, SYS_LWM_CELL, SYS_LWM_SLOT]; omega
  exact lwmCleared_congr (lwmClr_reg b h1) (lwmClr_reg b h2) (lwmClrEngines_cleared hn _ b (fun k hk => List.mem_range.mp hk)
    (.inl (List.mem_range.mpr hn)))

theorem lwmClr_shared (b : Block) : b.lwmClr.get SYS_LWM_FLW_MIN = 0x3FFFFF ∧ b.lwmClr.get SYS_LWM_RING_MIN = 0xFFFFFF ∧
    b.lwmClr.get SYS_LWM_CELL_MIN = 0xFFFF ∧ b.lwmClr.get SYS_LWM_SLOT_MIN = 0xFFFF := by
  refine ⟨?_, ?_, ?_, ?_⟩ <;> simp [Block.lwmClr]

theorem lwmClr_only (b : Block) : b.only [] b.lwmClr :=
  only_put (only_put (only_put (only_put (lwmClrEngines_only (List.range 16) b))))

/-! ### The statement -/

theorem mslotWrite_stores {s : State} {data : Half} (hf : s.blk.hostFree = true) (hs : s.blk.synced = false)
    (hok : s.blk.slotLenOk (data.toNat % 2 ^ 8) = true)
    (hlat : data.toNat / 2 ^ 12 % 2 ^ 12 ≤ s.blk.get SYS_CYCLE_PERIN - data.toNat % 2 ^ 8) :
    ∃ t, exec (.mslotWrite data) s = .next t ∧
      t.blk.get SYS_MSLOT_LEN = data.toNat % 2 ^ 8 ∧ t.blk.get SYS_MSLOT_LENF = data.toNat % 2 ^ 8 ∧
      t.blk.get SYS_MSLOT_ENG = data.toNat / 2 ^ 8 % 16 ∧
      t.blk.get SYS_MSLOT_LATEST = data.toNat / 2 ^ 12 % 2 ^ 12 ∧ t.blk.get SYS_MSLOT_LATF = data.toNat / 2 ^ 12 % 2 ^ 12 ∧
      t.blk.flag SYS_MSLOT_CLAMP = false ∧
      Frame [SYS_MSLOT_LEN, SYS_MSLOT_ENG, SYS_MSLOT_LATEST, SYS_MSLOT_CLAMP, SYS_MSLOT_LENF, SYS_MSLOT_LATF] [] s t := by
  have hl : data.toNat % 2 ^ 8 < 2 ^ 8 := Nat.mod_lt _ (by decide)
  have ht : data.toNat / 2 ^ 12 % 2 ^ 12 < 2 ^ 12 := Nat.mod_lt _ (by decide)
  have hw := mslotWrite_fits s.blk hl ht rfl rfl hok hlat
  generalize data.toNat % 2 ^ 8 = len at *
  generalize data.toNat / 2 ^ 12 % 2 ^ 12 = lat at *
  generalize data.toNat / 2 ^ 8 = eng at *
  have ho : exec (.mslotWrite data) s = leadsTo s ((s.blk.slotStored len lat eng).slotForce len lat) :=
    (exec_mslotWrite s).trans ((done_journaled hf hs _ _).trans (done_leadsTo hw))
  obtain ⟨hlen, heng, hlatest⟩ := slotStored_get s.blk eng hl ht
  obtain ⟨hlenf, hlatf, hclamp⟩ := slotForce_get hl ht (s.blk.slotStored len lat eng)
  refine leadsTo_intro ho fun u => ⟨?_, hlenf, ?_, ?_, hlatf, hclamp, ?_⟩
  · exact (slotForce_apart _ _ _ (by decide)).trans hlen
  · exact (slotForce_apart _ _ _ (by decide)).trans heng
  · exact (slotForce_apart _ _ _ (by decide)).trans hlatest
  · exact frame_intro (slotWrite_keeps s.blk len lat eng len lat) (slotWrite_only s.blk len lat eng len lat)

theorem slotOpenLatest_opens {s : State} (scrub : List (Fin 16 × BitVec 16 × Bool)) (hp : s.blk.cyc.inProg = true)
    (hd : s.blk.cyc.slotDone = false) :
    ∃ t, exec (.slotOpenLatest scrub) s = .next t ∧ t.blk.cyc.slotDone = true ∧
      t.blk.cyc.slotClose = some (t.blk.nowNs + s.blk.get SYS_MSLOT_LENF * 1000) ∧ t.pending = s.pending := by
  refine leadsTo_intro (exec_slotOpenLatest_due scrub hp hd) fun u => ?_
  simp only [slotOpen_eq, reachNs_get, Block.withTags_cyc, withTags_nowNs, opened_slotDone, opened_slotClose, opened_nowNs,
    and_self]

theorem slotOpenLatest_checks {s : State} (hp : s.blk.cyc.inProg = true) (hd : s.blk.cyc.slotDone = false)
    (hn : nothingServed s.blk) :
    ∃ t, exec (.slotOpenLatest []) s = .next t ∧ s.blk.cyc.start + s.blk.slotOffset * 1000 ≤ t.blk.nowNs ∧
      (∀ e : Fin 16, t.blk.eng[e] = scrubbed s.blk e (s.blk.get SYS_MSLOT_LENF)) ∧
      Frame [CAL_STAT_QDEPTH, CAL_STAT_BUSY] [.cyc, .tm, .eng] s t := by
  refine leadsTo_intro (exec_slotOpenLatest_due [] hp hd) fun u => ?_
  rw [slotOpen_idle (nothingServed_reachNs hn _), reachNs_get]
  refine ⟨?_, fun e => ?_, idleSlot_frame (opened_regs _ _) (opened_only _ _)⟩
  · simp only [withTags_nowNs, opened_nowNs, idleWork_nowNs]
    exact reachNs_le s.blk _
  · simp only [Block.withTags_eng, opened_eng, idleWork_eng, scrubbed_reachNs]

theorem idleSlotOpen_opens {s : State} (scrub : List (Fin 16 × BitVec 16 × Bool)) (hp : s.blk.cyc.inProg = false) :
    ∃ t, exec (.idleSlotOpen scrub) s = .next t ∧
      t.blk.cyc.slotClose = some (t.blk.nowNs + min 31 (s.blk.get SYS_MSLOT_LENF) * 1000) ∧ t.pending = s.pending := by
  refine leadsTo_intro (exec_idleSlotOpen_due scrub hp) fun u => ?_
  simp only [Block.withTags_cyc, withTags_nowNs, idleOpened_slotClose, idleOpened_nowNs, and_self]

theorem idleSlotOpen_checks {s : State} (hp : s.blk.cyc.inProg = false) (hn : nothingServed s.blk) :
    ∃ t, exec (.idleSlotOpen []) s = .next t ∧ t.blk.nowNs % 125000 = 0 ∧ s.blk.nowNs < t.blk.nowNs ∧
      (∀ e : Fin 16, t.blk.eng[e] = scrubbed s.blk e (min 31 (s.blk.get SYS_MSLOT_LENF))) ∧
      Frame [CAL_STAT_QDEPTH, CAL_STAT_BUSY] [.cyc, .tm, .eng] s t := by
  refine leadsTo_intro (exec_idleSlotOpen_due [] hp) fun u => ?_
  rw [slotWork_idle (nothingServed_reachNs hn _)]
  have hnow : (s.blk.reachNs s.blk.idleGrid).nowNs = s.blk.idleGrid := reachNs_ahead (idleGrid_ahead s.blk)
  simp only [withTags_nowNs, idleOpened_nowNs, idleWork_nowNs, hnow, Block.withTags_eng, idleOpened_eng, idleWork_eng,
    scrubbed_reachNs]
  exact ⟨Nat.mul_mod_left _ _, idleGrid_ahead s.blk, fun _ => trivial,
    idleSlot_frame (idleOpened_regs _ _) (idleOpened_only _ _)⟩

/-- The slot is closed. -/
def Block.slotClosed (b : Block) : Block := b.mapCyc (fun c => { c with slotClose := none })

theorem slotClosed_regs (b : Block) : b.slotClosed.regs = b.regs := rfl

theorem slotClosed_only (b : Block) : b.only [.cyc] b.slotClosed := by simp [Block.only, Block.slotClosed, Block.mapCyc]

theorem exec_maintSlotClose_due {s : State} {c : Nat} (hc : s.blk.cyc.slotClose = some c) :
    exec .maintSlotClose s = leadsTo s (s.blk.reachNs c).slotClosed := by
  refine (exec_maintSlotClose s).trans (done_leadsTo ?_)
  simp only [hc, Block.slotClosed, Block.mapCyc]

theorem maintSlotClose_closes {s : State} {c : Nat} (hc : s.blk.cyc.slotClose = some c) :
    ∃ t, exec .maintSlotClose s = .next t ∧ t.blk.cyc.slotClose = none ∧ c ≤ t.blk.nowNs ∧ Frame [] [.cyc, .tm] s t := by
  refine leadsTo_intro (exec_maintSlotClose_due hc) fun u => ⟨rfl, ?_, ?_⟩
  · rw [withTags_nowNs, Block.slotClosed, mapCyc_nowNs]
    exact reachNs_le s.blk c
  · exact frame_intro (keeps_part (reachNs_keeps s.blk c) (slotClosed_regs _))
      (only_trans (only_mono (reachNs_only s.blk c) (by simp)) (only_mono (slotClosed_only _) (by simp)))

theorem lwmClr_resets {s : State} (hf : s.blk.hostFree = true) : ∃ t, exec .lwmClr s = .next t ∧
    (∀ n < 16, t.blk.get (SYS_LWM_GAL_MIN n) = 0x3FFFFF ∧ t.blk.flag (SYS_LWM_GAL_OVR n) = false ∧
      t.blk.get (GAL_SLACK_MIN n) = 0x3FFFFF) ∧
    t.blk.get SYS_LWM_FLW_MIN = 0x3FFFFF ∧ t.blk.get SYS_LWM_RING_MIN = 0xFFFFFF ∧ t.blk.get SYS_LWM_CELL_MIN = 0xFFFF ∧
    t.blk.get SYS_LWM_SLOT_MIN = 0xFFFF ∧
    (∀ a, (∀ n < 16, a ≠ SYS_LWM_GAL n ∧ a ≠ GAL_SLACK n) → a ≠ SYS_LWM_FLW → a ≠ SYS_LWM_RING → a ≠ SYS_LWM_CELL →
      a ≠ SYS_LWM_SLOT → t.blk.reg a = s.blk.reg a) ∧ s.blk.only [] t.blk ∧ t.pending = s.pending := by
  refine leadsTo_intro ((exec_lwmClr s).trans ((done_byHost hf _ _).trans (done_leadsTo rfl))) fun u => ?_
  simp only [Block.withTags_get, Block.withTags_flag, Block.withTags_reg, only_withTags]
  obtain ⟨hflw, hring, hcell, hslot⟩ := lwmClr_shared s.blk
  refine ⟨fun n hn => lwmClr_cleared s.blk hn, hflw, hring, hcell, hslot, fun a hg hf hr hc hs => ?_,
    lwmClr_only s.blk, trivial⟩
  have ha : ¬ sharedLwm a := by simp only [sharedLwm, hf, hr, hc, hs, or_self, not_false_eq_true]
  rw [lwmClr_reg s.blk ha]
  exact lwmClrEngines_reg _ _ fun n hn => hg n (List.mem_range.mp hn)

/-- Settles O9: the slot register is stored as it fits, the slot opens at LATEST and on the idle grid and closes, and the
low-water registers return to their reset values. -/
theorem slotAndLowWater : Obligations.SlotAndLowWater := by
  unfold Obligations.SlotAndLowWater
  refine ⟨?_, ?_, ?_, ?_, ?_, ?_, ?_⟩
  · intro s data hf hs hok hlat
    exact mslotWrite_stores hf hs hok hlat
  · intro s scrub hp hd
    exact slotOpenLatest_opens scrub hp hd
  · intro s hp hd hn
    exact slotOpenLatest_checks hp hd hn
  · intro s scrub hp
    exact idleSlotOpen_opens scrub hp
  · intro s hp hn
    exact idleSlotOpen_checks hp hn
  · intro s c hc
    exact maintSlotClose_closes hc
  · intro s hf
    exact lwmClr_resets hf

end Sys2Proof.Machine
end

section
/-! The encoders: edges, index pulses and the clear of the error counts (R114, R115, R118). -/

namespace Sys2Proof.Machine

/-- The clocks have moved on and encoder `e` is `x`. -/
def Block.encNow (b : Block) (e : Fin 4) (dt : Nat) (x : Enc) : Block :=
  { b.advanceNs dt with encs := b.encs.set e x }

section
variable (b : Block) (e : Fin 4) (dt : Nat) (x : Enc)

theorem encNow_same : (b.encNow e dt x).encs[e] = x := by simp [Block.encNow]

theorem encNow_ne {m : Fin 4} (h : m ≠ e) : (b.encNow e dt x).encs[m] = b.encs[m] := by
  have hv : e.val ≠ m.val := fun hv => h (Fin.ext hv.symm)
  simp [Block.encNow, Vector.getElem_set_ne, hv]

theorem encNow_keeps : b.keeps [] (b.encNow e dt x) := keeps_of_regs rfl

theorem encNow_only : b.only [.encs, .tm] (b.encNow e dt x) := by simp [Block.only, Block.encNow]

end

/-- The stamp of an encoder edge that is accepted after `dt`: the present one of a 5 ns clock, less the span of the glitch filter
(R23, R114). -/
def Block.encStamp (b : Block) (e : Fin 4) (dt : Nat) : Word :=
  (b.advanceNs dt).clockStamp 5 - BitVec.ofNat 72 (b.get (ENC_CFG_GLITCH e) * 5 * 2 ^ 16)

/-- Encoder `e` after an edge of one channel. -/
def Block.encEdge (b : Block) (e : Fin 4) (a c : Bool) (dt : Nat) : Enc :=
  let x := b.encs[e]
  { x with a := a, b := c, count := x.count + quadStep x.a x.b a c, edgeNew := x.edgeNew + 1, edge := b.encStamp e dt }

theorem sat_lt (w v : Nat) : sat (2 ^ w - 1) v < 2 ^ w := by
  have h := Nat.two_pow_pos w
  unfold sat
  split <;> omega

/-- One channel changed: the step is by one. -/
theorem quadStep_one {a c a' c' : Bool} (h : a ≠ a' ↔ c = c') : quadStep a c a' c' = 1 ∨ quadStep a c a' c' = -1 := by
  revert a c a' c'
  decide

theorem exec_encoderEdge_one {s : State} {e : Fin 4} {a c : Bool} (dt : Nat) (h0 : s.blk.get (ENC_CFG_MODE e) ≠ 0)
    (h3 : s.blk.get (ENC_CFG_MODE e) ≠ 3) (h : (s.blk.encs[e]).a ≠ a ↔ (s.blk.encs[e]).b = c) :
    exec (.encoderEdge e a c dt) s = done s (fun b => b.encNow e dt (b.encEdge e a c dt)) := by
  refine (exec_encoderEdge s).trans (done_congr ?_)
  have hmode : ((s.blk.advanceNs dt).get (ENC_CFG_MODE e) == 0 || (s.blk.advanceNs dt).get (ENC_CFG_MODE e) == 3) = false := by
    simp only [Bool.or_eq_false_iff, beq_eq_false_iff_ne]
    exact ⟨h0, h3⟩
  have hboth : ((s.blk.encs[e]).a != a && (s.blk.encs[e]).b != c) = false := by
    rw [Bool.and_eq_false_iff, bne_eq_false_iff_eq, bne_eq_false_iff_eq]
    tauto
  have hnone : ((s.blk.encs[e]).a == a && (s.blk.encs[e]).b == c) = false := by
    rw [Bool.and_eq_false_iff, beq_eq_false_iff_ne, beq_eq_false_iff_ne]
    tauto
  simp only [Block.advanceNs_encs, hmode, hboth, hnone, Bool.false_eq_true, if_false]
  rfl

theorem exec_encoderEdge_both {s : State} {e : Fin 4} {a c : Bool} (dt : Nat) (h0 : s.blk.get (ENC_CFG_MODE e) ≠ 0)
    (h3 : s.blk.get (ENC_CFG_MODE e) ≠ 3) (ha : (s.blk.encs[e]).a ≠ a) (hc : (s.blk.encs[e]).b ≠ c) :
    exec (.encoderEdge e a c dt) s = done s (fun b =>
      (b.encNow e dt { b.encs[e] with a := a, b := c, faults := (b.encs[e]).faults + 1 }).incSat (ENC_STAT_ILLEGAL e) 1) := by
  refine (exec_encoderEdge s).trans (done_congr ?_)
  have hmode : ((s.blk.advanceNs dt).get (ENC_CFG_MODE e) == 0 || (s.blk.advanceNs dt).get (ENC_CFG_MODE e) == 3) = false := by
    simp only [Bool.or_eq_false_iff, beq_eq_false_iff_ne]
    exact ⟨h0, h3⟩
  have hboth : ((s.blk.encs[e]).a != a && (s.blk.encs[e]).b != c) = true := by
    rw [Bool.and_eq_true, bne_iff_ne, bne_iff_ne]
    exact ⟨ha, hc⟩
  simp only [Block.advanceNs_encs, hmode, hboth, Bool.false_eq_true, if_false, if_true]
  rfl

theorem exec_indexPulse_accepted {s : State} {e : Fin 4} (dt : Nat) (h : s.blk.get (ENC_CFG_MODE e) = 2) :
    exec (.indexPulse e dt) s = done s (fun b =>
      b.encNow e dt { b.encs[e] with idxNew := (b.encs[e]).idxNew + 1, idx := b.encStamp e dt }) := by
  refine (exec_indexPulse s).trans (done_congr ?_)
  have hmode : ((s.blk.advanceNs dt).get (ENC_CFG_MODE e) == 2) = true := beq_iff_eq.mpr h
  simp only [Block.advanceNs_encs, hmode, if_true]
  rfl

theorem encClr_get (b : Block) (e : Nat) :
    (b.encClr e).get (ENC_STAT_ILLEGAL e) = 0 ∧ (b.encClr e).get (ENC_STAT_SSIERR e) = 0 := by
  constructor
  · simp [Block.encClr]
  · simp [Block.encClr]

theorem incSat_illegal (b : Block) (e : Nat) : (b.incSat (ENC_STAT_ILLEGAL e) 1).get (ENC_STAT_ILLEGAL e) =
    sat (2 ^ (ENC_STAT_ILLEGAL 0).w - 1) (b.get (ENC_STAT_ILLEGAL e) + 1) := by
  have hw : (ENC_STAT_ILLEGAL e).lo + (ENC_STAT_ILLEGAL e).w ≤ 72 := by simp
  rw [Block.incSat, Block.get_put_same _ _ _ hw]
  exact Nat.mod_eq_of_lt (sat_lt _ _)

theorem encClr_keeps (b : Block) (e : Nat) : b.keeps [ENC_STAT_ILLEGAL e, ENC_STAT_SSIERR e] (b.encClr e) :=
  keeps_put (keeps_put (keeps_refl _ b) (by simp)) (by simp)

theorem encClr_only (b : Block) (e : Nat) : b.only [] (b.encClr e) := only_put (put_only [] b _ _)

/-- Settles O13: an edge of one channel counts and is stamped, a change of both is illegal, an index is stamped, and CLR clears. -/
theorem encoders : Obligations.Encoders := by
  unfold Obligations.Encoders
  refine ⟨?_, ?_, ?_, ?_⟩
  · intro s e a c dt h0 h3 h
    refine done_intro (exec_encoderEdge_one dt h0 h3 h) fun u => ?_
    have hx : (s.blk.encNow e dt (s.blk.encEdge e a c dt)).encs[e] = s.blk.encEdge e a c dt := encNow_same _ _ _ _
    simp only [Block.withTags_encs, hx]
    refine ⟨rfl, ?_, rfl, rfl, rfl, rfl, fun m hm => encNow_ne _ _ _ _ hm,
      frame_intro (encNow_keeps _ _ _ _) (encNow_only _ _ _ _)⟩
    rcases quadStep_one h with hq | hq
    · exact .inl (by rw [Block.encEdge, hq])
    · exact .inr (by rw [Block.encEdge, hq]; rfl)
  · intro s e a c dt h0 h3 ha hc
    refine done_intro (exec_encoderEdge_both dt h0 h3 ha hc) fun u => ?_
    simp only [Block.withTags_encs, Block.incSat_encs, encNow_same]
    exact ⟨trivial, trivial, incSat_illegal _ e,
      frame_intro (keeps_incSat (keeps_mono (encNow_keeps _ _ _ _) (by simp)) (by simp)) (only_incSat (encNow_only _ _ _ _))⟩
  · intro s e dt h
    refine done_intro (exec_indexPulse_accepted dt h) fun u => ?_
    simp only [Block.withTags_encs, encNow_same]
    exact ⟨trivial, rfl, trivial, fun m hm => encNow_ne _ _ _ _ hm, frame_intro (encNow_keeps _ _ _ _) (encNow_only _ _ _ _)⟩
  · intro s e hf hs
    refine done_intro ((exec_encStatClr s).trans (done_journaled hf hs _ _)) fun u => ?_
    obtain ⟨hillegal, hssi⟩ := encClr_get s.blk e
    exact ⟨hillegal, hssi, frame_intro (encClr_keeps s.blk e) (encClr_only s.blk e)⟩

end Sys2Proof.Machine
end

section
/-! SUPPORT. The switch core: what a counter, an update of a source's share and the end of a scheduled window may change (R283, R286,
R287, R314). -/

namespace Sys2Proof.Machine

/-! ### Changes that a wider set of registers holds -/

section
variable {touch : Nat → Bool} {ps : List Part} {b c d : Block}

theorem changes_counted (h : b.changes touch ps c) (hd : c.counted d) (ht : ∀ a, galTouch a = true → touch a = true)
    (hp : [.trc, .host, .out] ⊆ ps) : b.changes touch ps d :=
  changes_trans h (changes_mono (changes_of_counted hd) ht hp)

end

theorem coreTouch_of_galTouch {a : Nat} (h : galTouch a = true) : coreTouch a = true := by
  simp only [coreTouch, h, Bool.or_true]

theorem galTouch_of_evTouch {a : Nat} (h : evTouch a = true) : galTouch a = true := by
  simp only [evTouch, Bool.or_eq_true, beq_iff_eq] at h
  rcases h with rfl | rfl <;> decide

theorem coreTouch_of_evTouch {a : Nat} (h : evTouch a = true) : coreTouch a = true :=
  coreTouch_of_galTouch (galTouch_of_evTouch h)

/-- The registers of the MACs and of the switch core. -/
theorem coreTouch_of_range {a : Nat} (hlo : 0x140000 ≤ a) (hhi : a < 0x1C0000) : coreTouch a = true := by
  simp only [coreTouch, within, hlo, hhi, decide_true, Bool.and_self, Bool.true_or]

/-! ### Counters (R20, R475) -/

/-- The registers in which a MAC shows the half events of its counters. -/
theorem macHalf_core {n : Nat} (hn : n < 0x21) :
    coreTouch (MAC_HALF n) = true ∧ coreTouch (MAC_CAUSE n) = true ∧ coreTouch (MAC_TSCAUSE n) = true := by
  refine ⟨coreTouch_of_range ?_ ?_, coreTouch_of_range ?_ ?_, coreTouch_of_range ?_ ?_⟩ <;>
    simp only [MAC_HALF, MAC_CAUSE, MAC_TSCAUSE] <;> omega

/-- The half event of a counter (R475), whichever counter it is. -/
theorem halfEvent_changes (b : Block) (a : Nat) : b.changes coreTouch [.host, .out] (b.halfEvent a) := by
  have hev : ∀ x, evTouch x = true → coreTouch x = true := fun _ => coreTouch_of_evTouch
  unfold Block.halfEvent
  split
  · exact changes_raise (changes_putB (changes_refl _ _ b) (by decide)) hev (List.Subset.refl _)
  · split
    · exact changes_raise (changes_put (changes_refl _ _ b) (by decide)) hev (List.Subset.refl _)
    · have hgroup : b.changes coreTouch [.host, .out]
          (match statGroup a with | some g => b.setBit STS_HALFSUM_GROUP g | none => b) := by
        split
        · exact changes_put (changes_refl _ _ b) (by decide)
        · exact changes_refl _ _ b
      simp only
      refine changes_raise ?_ hev (List.Subset.refl _)
      split
      · rename_i hmac
        simp only [Bool.and_eq_true, decide_eq_true_eq] at hmac
        obtain ⟨-, hhi⟩ := hmac
        have hn : (a - 0x140000) / 0x1000 < 0x21 := by omega
        obtain ⟨hhalf, hcause, hts⟩ := macHalf_core hn
        split
        · exact changes_putB (changes_put hgroup hhalf) hcause
        · exact changes_putB hgroup hts
      · exact hgroup

section
variable {touch : Nat → Bool} (hcore : ∀ a, coreTouch a = true → touch a = true)
include hcore

theorem countUp_changes (b : Block) {a : Nat} (n : Nat) (ha : touch a = true) : b.changes touch [.host, .out] (b.countUp a n) := by
  unfold Block.countUp
  simp only
  split
  · exact changes_trans (setReg_changes _ b _ ha) (changes_mono (halfEvent_changes _ a) hcore (List.Subset.refl _))
  · exact setReg_changes _ b _ ha

/-! ### Flow control (R314) -/

/-- The parts that flow control towards the sources changes. -/
def flowParts : List Part := [.macs, .trc, .host, .out]

theorem macCount_touch {n : Nat} (hn : n ≤ 32) (i : Nat) (hi : i < 64) : touch (MAC_STAT_CNT n i) = true :=
  hcore _ (coreTouch_of_range (by simp only [MAC_STAT_CNT]; omega) (by simp only [MAC_STAT_CNT]; omega))

theorem sendPause_changes {n : Nat} (hn : n ≤ 32) (b : Block) (q : Nat) : b.changes touch [.host, .out] (b.sendPause n q) :=
  changes_emit (countUp_changes hcore b 1 (macCount_touch hcore hn 40 (by decide))) (by simp)

theorem sendPfc_changes {n : Nat} (hn : n ≤ 32) (b : Block) (m q : Nat) : b.changes touch [.host, .out] (b.sendPfc n m q) :=
  changes_emit (countUp_changes hcore b 1 (macCount_touch hcore hn 41 (by decide))) (by simp)

omit hcore in
theorem changes_mapMac {b c : Block} (h : b.changes touch [.host, .out] c) (n : Nat) (f : MacSt → MacSt) :
    b.changes touch flowParts (c.mapMac n f) :=
  changes_part (changes_mono h (fun _ ht => ht) (by simp [flowParts])) rfl (by simp [Block.only, Block.mapMac, flowParts])

theorem pauseSource_changes {n : Nat} (hn : n ≤ 32) (b : Block) (s : Nat) : b.changes touch flowParts (b.pauseSource s n) := by
  unfold Block.pauseSource
  simp only
  split
  · exact changes_refl _ _ b
  · split
    · exact changes_mapMac (sendPause_changes hcore hn b _) n _
    · split
      · split
        · exact changes_refl _ _ b
        · exact changes_mapMac (sendPfc_changes hcore hn b _ _) n _
      · exact changes_refl _ _ b

theorem unpauseSource_changes {n : Nat} (hn : n ≤ 32) (b : Block) : b.changes touch flowParts (b.unpauseSource n) := by
  unfold Block.unpauseSource
  simp only
  split
  · exact changes_refl _ _ b
  · split
    · exact changes_mapMac (sendPause_changes hcore hn b 0) n _
    · exact changes_mapMac (sendPfc_changes hcore hn b _ 0) n _

/-! ### Shares (R286, R287) -/

omit hcore in
theorem macOf_le {s n : Nat} (h : macOf s = some n) : n ≤ 32 := by
  unfold macOf at h
  split at h
  · rename_i hs; simp only [Option.some.injEq] at h; omega
  · split at h
    · simp only [Option.some.injEq] at h; omega
    · exact absurd h (by simp)

/-- The registers that an update of source `s` shows it in. -/
def srcTouches (touch : Nat → Bool) (s : Nat) : Prop := touch (SWC_IG_STAT s) = true ∧ touch (SWC_S_CNT s 3) = true

/-- A source enters XOFF. -/
def Block.xoffEnter (b : Block) (s : Nat) : Block :=
  ((((b.fabTouch.putB (SWC_IG_STAT_XOFF s) true).putB SWC_CAUSE_XIG true).put SWC_CAUSE_SRC s).countUp (SWC_S_CNT s 3) 1).raise evXoff

theorem fabTouch_changes (b : Block) : b.changes touch flowParts b.fabTouch :=
  changes_mono (changes_of_counted (fabTouch_counted b)) (fun a h => hcore a (coreTouch_of_galTouch h)) (by simp [flowParts])

theorem xoffEnter_changes {s : Nat} (hs : srcTouches touch s) (b : Block) : b.changes touch flowParts (b.xoffEnter s) := by
  obtain ⟨hstat, hcnt⟩ := hs
  have hput : b.changes touch flowParts (((b.fabTouch.putB (SWC_IG_STAT_XOFF s) true).putB SWC_CAUSE_XIG true).put SWC_CAUSE_SRC s) :=
    changes_put (changes_putB (changes_putB (fabTouch_changes hcore b) hstat) (hcore _ (by decide))) (hcore _ (by decide))
  exact changes_raise (changes_trans hput (changes_mono (countUp_changes hcore _ 1 hcnt) (fun _ h => h) (by simp [flowParts])))
    (fun a h => hcore a (coreTouch_of_evTouch h)) (by simp [flowParts])

theorem sourceUpdate_changes {s : Nat} (hs : srcTouches touch s) (b : Block) : b.changes touch flowParts (b.sourceUpdate s) := by
  have hshow : b.changes touch flowParts ((b.put (SWC_IG_STAT_OCC s) (b.occOf s)).put (SWC_IG_STAT_EFF s) (b.effOf s)) :=
    changes_put (changes_put (changes_refl _ _ b) hs.1) hs.1
  unfold Block.sourceUpdate
  simp only
  generalize (b.put (SWC_IG_STAT_OCC s) (b.occOf s)).put (SWC_IG_STAT_EFF s) (b.effOf s) = b1 at hshow
  split
  · split
    · have hleave : b.changes touch flowParts (b1.fabTouch.putB (SWC_IG_STAT_XOFF s) false) :=
        changes_putB (changes_trans hshow (fabTouch_changes hcore b1)) hs.1
      split
      · rename_i hn
        exact changes_trans hleave (unpauseSource_changes hcore (macOf_le hn) _)
      · exact hleave
    · split
      · rename_i hn
        split
        · exact changes_trans hshow (pauseSource_changes hcore (macOf_le hn) _ s)
        · exact hshow
      · exact hshow
  · split
    · have henter : b.changes touch flowParts (b1.xoffEnter s) := changes_trans hshow (xoffEnter_changes hcore hs b1)
      split
      · rename_i hn
        exact changes_trans henter (pauseSource_changes hcore (macOf_le hn) _ s)
      · exact henter
    · exact hshow

theorem cellUpdate_changes (b : Block) : b.changes touch flowParts b.cellUpdate :=
  changes_put (changes_put (changes_put (changes_refl _ _ b) (hcore _ (by decide))) (hcore _ (by decide))) (hcore _ (by decide))

theorem sourceUpdates_changes : ∀ (l : List Nat) (b : Block), (∀ s ∈ l, srcTouches touch s) →
    b.changes touch flowParts (b.sourceUpdates l)
  | [], b, _ => changes_refl _ _ b
  | s :: r, b, h => changes_trans (sourceUpdate_changes hcore (h s List.mem_cons_self) b)
      (sourceUpdates_changes r _ fun k hk => h k (List.mem_cons_of_mem _ hk))

end

/-- The sources that exist are shown in the registers of the switch core. -/
theorem srcTouches_core {s : Nat} (h : s < 35) : srcTouches coreTouch s :=
  ⟨coreTouch_of_range (by simp only [SWC_IG_STAT]; omega) (by simp only [SWC_IG_STAT]; omega),
    coreTouch_of_range (by simp only [SWC_S_CNT]; omega) (by simp only [SWC_S_CNT]; omega)⟩

/-- A new S touches the switch core's registers, the flow control of the MACs, and counters. -/
theorem shareUpdate_changes (b : Block) : b.changes coreTouch flowParts b.shareUpdate :=
  changes_trans (cellUpdate_changes (fun _ h => h) b)
    (sourceUpdates_changes (fun _ h => h) _ _ fun _ hs => srcTouches_core (List.mem_range.mp hs))

end Sys2Proof.Machine
end

section
/-! SUPPORT. The clocks alone move on, and what a change of profile leaves (R36 to R42). -/

namespace Sys2Proof.Machine

theorem only_cav {l : List Part} {b c : Block} (h : b.only l c) (hp : .cav ∉ l) : c.cav = b.cav := by
  obtain ⟨-, -, -, hcav, -⟩ := h
  exact hcav hp

/-! ### The clocks alone move on -/

/-- The block with other clocks. -/
def Block.withTm (b : Block) (t : TimeSt) : Block := { b with tm := t }

theorem reachNs_withTm (b : Block) (ns : Nat) : b.reachNs ns = b.withTm (b.reachNs ns).tm := by
  unfold Block.reachNs Block.reach
  split <;> rfl

theorem reachPhys_withTm (b : Block) (p : Nat) : b.reachPhys p = b.withTm (b.reachPhys p).tm := by
  unfold Block.reachPhys
  split <;> rfl

theorem reachPhys_phys (b : Block) (p : Nat) : (b.reachPhys p).tm.phys = max b.tm.phys p := by
  unfold Block.reachPhys
  split
  · rename_i h; exact (Nat.max_eq_left h).symm
  · rename_i h
    rw [Nat.max_eq_right (Nat.le_of_not_le h)]
    exact Nat.add_sub_cancel' (Nat.le_of_not_le h)

section
variable (b : Block) (t : TimeSt)

theorem withTm_regs : (b.withTm t).regs = b.regs := rfl

theorem withTm_reg (a : Nat) : (b.withTm t).reg a = b.reg a := rfl

theorem withTm_get (f : Field) : (b.withTm t).get f = b.get f := rfl

theorem withTm_flag (f : Field) : (b.withTm t).flag f = b.flag f := rfl

theorem withTm_cyc : (b.withTm t).cyc = b.cyc := rfl

theorem withTm_eng : (b.withTm t).eng = b.eng := rfl

theorem withTm_profile : (b.withTm t).profile = b.profile := rfl

theorem withTm_paired : (b.withTm t).paired = b.paired := rfl

theorem withTm_noCycle : (b.withTm t).noCycle = b.noCycle := rfl

theorem withTm_profCode (p : Nat) : (b.withTm t).profCode p = b.profCode p := rfl

theorem withTm_only : b.only [.tm] (b.withTm t) := by simp [Block.only, Block.withTm]

end

/-! ### The cycle state and the fields of SYS_PROFILE -/

section
variable (b : Block) (f : CycleSt → CycleSt)

theorem mapCyc_get (g : Field) : (b.mapCyc f).get g = b.get g := rfl

theorem mapCyc_only : b.only [.cyc] (b.mapCyc f) := by simp [Block.only, Block.mapCyc]

theorem keeps_mapCyc {l : List Field} {b c : Block} (h : b.keeps l c) (f : CycleSt → CycleSt) : b.keeps l (c.mapCyc f) :=
  keeps_part h (Block.mapCyc_regs c f)

theorem only_mapCyc {l : List Part} {b c : Block} (h : b.only l c) (f : CycleSt → CycleSt) (hl : .cyc ∈ l) :
    b.only l (c.mapCyc f) := only_trans h (only_mono (mapCyc_only c f) (by simp [hl]))

end

/-- STAT shows a code of R38. -/
theorem stat_put (b : Block) {code : Nat} (h : code < 8) : (b.put SYS_PROFILE_STAT code).get SYS_PROFILE_STAT = code := by
  simpa using h

theorem profCode_lt (b : Block) (p : Nat) : b.profCode p < 8 := by
  unfold Block.profCode
  repeat' split
  all_goals decide

/-! ### A change of profile (R38, R40, R248) -/

/-- The request is closed, and SYS_PROFILE shows the new profile. -/
def Block.profShown (b : Block) (p : Nat) : Block := ((b.mapCyc CycleSt.closed).put SYS_PROFILE_ACT p).put SYS_PROFILE_STAT 0

theorem profShown_profile (b : Block) {p : Nat} (hp : p < 4) : (b.profShown p).profile = p := by
  simpa [Block.profShown, Block.profile] using hp

theorem profShown_stat (b : Block) (p : Nat) : (b.profShown p).get SYS_PROFILE_STAT = 0 := by simp [Block.profShown]

theorem profShown_only (b : Block) (p : Nat) : b.only [.cyc] (b.profShown p) := only_put (only_put (mapCyc_only b _))

/-- What follows a new profile: every register but SYS_PROFILE itself may change. -/
def profTouch (a : Nat) : Bool := a != SYS_PROFILE

theorem profTouch_of_ge {a : Nat} (h : SYS_PROFILE < a) : profTouch a = true := by
  simp only [profTouch, bne_iff_ne]
  exact Nat.ne_of_gt h

theorem profTouch_of_coreTouch {a : Nat} (h : coreTouch a = true) : profTouch a = true := by
  simp only [profTouch, bne_iff_ne]
  rintro rfl
  exact absurd h (by decide)

theorem profTouch_of_evTouch {a : Nat} (h : evTouch a = true) : profTouch a = true :=
  profTouch_of_coreTouch (coreTouch_of_evTouch h)

/-- The parts that follow a new profile. -/
def profParts : List Part := [.rings, .macs, .trc, .host, .out]

section
variable {ps : List Part} {b c : Block}

theorem eptProfile_changes (b : Block) (banked : Bool) : b.changes profTouch profParts (b.eptProfile banked) := by
  refine changes_putB (changes_putB (changes_putB ?_ rfl) rfl) rfl
  exact changes_of_only rfl (by simp [Block.only, Block.mapRings, profParts])

theorem recWin_gt (k : Nat) : SYS_PROFILE < recWin k := by
  unfold recWin
  split
  · decide
  · exact Nat.lt_of_lt_of_le (by decide : SYS_PROFILE < 0x311000) (Nat.le_add_right _ _)

theorem winShow_changes (b : Block) (k : Nat) : b.changes profTouch ps (b.winShow k) := by
  have h : ∀ n, profTouch (recWin k + n) = true := fun n => profTouch_of_ge (Nat.lt_add_right n (recWin_gt k))
  exact changes_setReg (changes_setReg (changes_setReg (changes_setReg (changes_setReg (changes_setReg (changes_refl _ _ b)
    (h _)) (h _)) (h _)) (h _)) (h _)) (h _)

theorem winShows_changes : ∀ (l : List Nat) (b : Block), b.changes profTouch ps (b.winShows l)
  | [], b => changes_refl _ _ b
  | k :: r, b => changes_trans (winShow_changes b k) (winShows_changes r _)

theorem flwShow_changes (b : Block) : b.changes profTouch ps b.flwShow := by
  refine changes_trans (changes_put ?_ rfl) (winShows_changes _ _)
  exact changes_put (changes_putB (changes_put (changes_put (changes_put (changes_refl _ _ b) rfl) rfl) rfl) rfl) rfl

/-- The endpoint table that goes with a new profile (R248). -/
def Block.profEpt (b : Block) (p : Nat) : Block :=
  if b.profile ≤ 1 ∧ 2 ≤ p then (b.profShown p).eptProfile false
  else if 2 ≤ b.profile ∧ p ≤ 1 then (b.profShown p).eptProfile true else b.profShown p

/-- The slices, shares and cells that go with a new profile. -/
def Block.profShares (b : Block) (p : Nat) : Block :=
  (((b.profEpt p).put SWC_STAT_INSVC ((b.profEpt p).profSlices p)).shareUpdate).flwShow

theorem profApply_eq (b : Block) (p : Nat) : b.profApply p =
    if p = 3 ∧ b.profile ≠ 3 then ((b.profShares p).clrBit PWR_STAT_DOMON 6).raise evPwrState else b.profShares p := rfl

theorem profEpt_changes (b : Block) (p : Nat) : (b.profShown p).changes profTouch profParts (b.profEpt p) := by
  unfold Block.profEpt
  split
  · exact eptProfile_changes _ _
  · split
    · exact eptProfile_changes _ _
    · exact changes_refl _ _ _

theorem profShares_changes (b : Block) (p : Nat) : (b.profShown p).changes profTouch profParts (b.profShares p) := by
  have hput := changes_put (f := SWC_STAT_INSVC) (v := (b.profEpt p).profSlices p) (profEpt_changes b p) rfl
  exact changes_trans (changes_trans hput (changes_mono (shareUpdate_changes _) (fun _ => profTouch_of_coreTouch)
    (by simp [flowParts, profParts]))) (flwShow_changes _)

theorem profApply_changes (b : Block) (p : Nat) : (b.profShown p).changes profTouch profParts (b.profApply p) := by
  rw [profApply_eq]
  split
  · exact changes_raise (changes_put (profShares_changes b p) rfl) (fun _ => profTouch_of_evTouch) (by simp [profParts])
  · exact profShares_changes b p

theorem profApplyNow_changes (b : Block) (p : Nat) : (b.profShown p).changes profTouch profParts (b.profApplyNow p) := by
  refine changes_trans (profApply_changes b p) (changes_mono (claimCheck_changes _) (fun a h => ?_) (by simp [profParts]))
  simp only [profTouch, bne_iff_ne]
  rintro rfl
  exact absurd h (by decide)

end

/-- What a change of profile shows and leaves alone. -/
theorem profApplyNow_shows (b : Block) {p : Nat} (hp : p < 4) : (b.profApplyNow p).profile = p ∧
    (b.profApplyNow p).get SYS_PROFILE_STAT = 0 ∧ b.only [.cyc, .rings, .macs, .trc, .host, .out] (b.profApplyNow p) := by
  have h := profApplyNow_changes b p
  refine ⟨?_, ?_, ?_⟩
  · exact (changes_get h rfl).trans (profShown_profile b hp)
  · exact (changes_get h rfl).trans (profShown_stat b p)
  · exact only_trans (only_mono (profShown_only b p) (by simp)) (only_mono h.2 (by simp [profParts]))

/-! ### Sampling (R38, R40, R42) -/

section
variable {b : Block} {p : Nat}

/-- Outside a pair, while a cycle is in progress, a change that is ready waits for the boundary. -/
theorem profReadyNow_waits (hp : b.paired = false) (hn : b.noCycle = false) :
    b.profReadyNow p = b.mapCyc (fun c => { c with sampled := some p }) := by
  simp only [Block.profReadyNow, hp, hn, Bool.false_eq_true, if_false]

/-- Outside a pair, with no cycle in progress, it takes effect at once. -/
theorem profReadyNow_now (hp : b.paired = false) (hn : b.noCycle = true) :
    b.profReadyNow p = (b.mapCyc (fun c => { c with sampled := some p })).profApplyNow p := by
  simp only [Block.profReadyNow, hp, hn, Bool.false_eq_true, if_false, if_true]

/-- A refusal outside a pair, with no way out of LEAN under way. -/
theorem profRefused_alone {code : Nat} (hp : b.paired = false) (hl : b.cyc.leanExit = none) :
    b.profRefused code = (b.mapCyc CycleSt.closed).put SYS_PROFILE_STAT code := by
  simp only [Block.profRefused, Block.profRefuse, hp, hl, Option.isSome_none, Bool.false_eq_true, if_false]

/-- The request has been taken up. -/
def Block.goTaken (b : Block) : Block := b.mapCyc (fun c => { c with goAt := none })

theorem profSample_refuses (h : b.profCode (b.get SYS_PROFILE_SEL) ≠ 0) :
    b.profSample = b.profRefused (b.profCode (b.get SYS_PROFILE_SEL)) := by
  simp only [Block.profSample, ne_eq, h, not_false_eq_true, if_true]

theorem profSample_drains (h : b.profCode 3 = 0) (hs : b.get SYS_PROFILE_SEL = 3) (hp : b.profile ≠ 3) :
    b.profSample = (b.mapCyc (fun c => { c with goAt := none, drainTo := some (b.tm.phys + 100000000 * nsUnit) })).put
      SYS_PROFILE_STAT 2 := by
  simp only [Block.profSample, hs, h, ne_eq, not_true_eq_false, if_false, hp, not_false_eq_true, and_self, if_true]

theorem profSample_leaves (h : b.profCode (b.get SYS_PROFILE_SEL) = 0) (hs : b.get SYS_PROFILE_SEL ≠ 3) (hp : b.profile = 3) :
    b.profSample = (b.mapCyc (fun c => { c with goAt := none, leanExit := some (b.get SYS_PROFILE_SEL) })).setBit
      PWR_STAT_DOMON 6 := by
  simp only [Block.profSample, h, ne_eq, not_true_eq_false, if_false, hs, hp, not_false_eq_true, and_self, if_true]

theorem profSample_ready (h : b.profCode (b.get SYS_PROFILE_SEL) = 0) (hs : b.get SYS_PROFILE_SEL ≠ 3) (hp : b.profile ≠ 3) :
    b.profSample = b.goTaken.profReadyNow (b.get SYS_PROFILE_SEL) := by
  simp only [Block.profSample, h, ne_eq, not_true_eq_false, if_false, hs, hp, false_and, and_false, Block.goTaken]

end

end Sys2Proof.Machine
end

section
/-! The statement on profiles (R37, R38, R40, R41, R603). -/

namespace Sys2Proof.Machine

/-! ### The request (R37) -/

theorem go_sel (data : Half) : (data ||| 4).toNat % 4 = data.toNat % 4 := by
  have h : (data ||| 4).toNat = data.toNat ||| 4 := by simp
  rw [h, show (4 : Nat) = 2 ^ 2 from rfl, Nat.or_mod_two_pow]
  simp

theorem go_set (data : Half) : (data ||| 4).getLsbD 2 = true := by simp

/-- SEL takes the profile of a write. -/
def Block.selStored (b : Block) (data : Half) : Block := b.put SYS_PROFILE_SEL (data.toNat % 4)

theorem selStored_sel (b : Block) (data : Half) : (b.selStored data).get SYS_PROFILE_SEL = data.toNat % 4 := by
  simp [Block.selStored]

/-- A request is open since now. -/
def Block.goOpened (b : Block) (data : Half) : Block :=
  ((b.selStored data).mapCyc (fun c => { c.closed with goAt := some b.tm.phys })).put SYS_PROFILE_STAT 1

section
variable {b : Block} {data : Half}

theorem profWrite_opens (h1 : b.get SYS_PROFILE_STAT ≠ 1) (h2 : b.get SYS_PROFILE_STAT = 2 → data.toNat % 4 ≠ 3) :
    b.profWrite (data ||| 4) = b.goOpened data := by
  have hbusy : (b.get SYS_PROFILE_STAT == 1 || (b.get SYS_PROFILE_STAT == 2 && data.toNat % 4 == 3)) = false := by
    simp only [Bool.or_eq_false_iff, Bool.and_eq_false_iff, beq_eq_false_iff_ne]
    tauto
  simp only [Block.profWrite, go_sel, go_set, Bool.not_true, Bool.false_or, hbusy, Bool.false_eq_true, if_false]
  rfl

theorem profWrite_ignored (h : b.get SYS_PROFILE_STAT = 1 ∨ (b.get SYS_PROFILE_STAT = 2 ∧ data.toNat % 4 = 3)) :
    b.profWrite (data ||| 4) = b.selStored data := by
  have hbusy : (b.get SYS_PROFILE_STAT == 1 || (b.get SYS_PROFILE_STAT == 2 && data.toNat % 4 == 3)) = true := by
    simpa only [Bool.or_eq_true, Bool.and_eq_true, beq_iff_eq] using h
  simp only [Block.profWrite, go_sel, go_set, Bool.not_true, Bool.false_or, hbusy, if_true]
  rfl

end

theorem exec_profileGo_now {s : State} {data : Half} {c : Block} (hf : s.blk.hostFree = true) (hs : s.blk.synced = false)
    (hc : s.blk.profWrite (data ||| 4) = c) : exec (.profileGo data) s = leadsTo s c :=
  (exec_profileGo s).trans ((done_journaled hf hs _ _).trans (done_leadsTo hc))

theorem profileGo_opens {s : State} {data : Half} (hf : s.blk.hostFree = true) (hs : s.blk.synced = false)
    (h1 : s.blk.get SYS_PROFILE_STAT ≠ 1) (h2 : s.blk.get SYS_PROFILE_STAT = 2 → data.toNat % 4 ≠ 3) :
    ∃ t, exec (.profileGo data) s = .next t ∧ t.blk.get SYS_PROFILE_SEL = data.toNat % 4 ∧
      t.blk.get SYS_PROFILE_STAT = 1 ∧ t.blk.cyc.goAt = some s.blk.tm.phys ∧ t.blk.cyc.drainTo = none ∧
      Frame [SYS_PROFILE_SEL, SYS_PROFILE_STAT] [.cyc] s t := by
  refine leadsTo_intro (exec_profileGo_now hf hs (profWrite_opens h1 h2)) fun u => ⟨?_, ?_, rfl, rfl, frame_intro ?_ ?_⟩
  · rw [Block.withTags_get, Block.goOpened, Block.get_put_apart _ _ _ _ (by decide), mapCyc_get, selStored_sel]
  · rw [Block.withTags_get, Block.goOpened, stat_put _ (by decide)]
  · exact keeps_put (keeps_mapCyc (keeps_put (keeps_refl _ s.blk) (by simp)) _) (by simp)
  · exact only_put (only_mapCyc (put_only _ s.blk _ _) _ (by simp))

theorem profileGo_stores {s : State} {data : Half} (hf : s.blk.hostFree = true) (hs : s.blk.synced = false)
    (h : s.blk.get SYS_PROFILE_STAT = 1 ∨ (s.blk.get SYS_PROFILE_STAT = 2 ∧ data.toNat % 4 = 3)) :
    ∃ t, exec (.profileGo data) s = .next t ∧ t.blk.get SYS_PROFILE_SEL = data.toNat % 4 ∧ Frame [SYS_PROFILE_SEL] [] s t := by
  refine leadsTo_intro (exec_profileGo_now hf hs (profWrite_ignored h)) fun u => ⟨?_, frame_intro ?_ ?_⟩
  · rw [Block.withTags_get, selStored_sel]
  · exact keeps_put (keeps_refl _ s.blk) (by simp)
  · exact put_only _ s.blk _ _

/-! ### The sample before a boundary (R38) -/

/-- The block as SEL is sampled: the clocks have reached 1 µs before the boundary. -/
def Block.atSample (b : Block) : Block := b.reachNs (b.cyc.next - 1000)

section
variable (b : Block)

theorem atSample_withTm : b.atSample = b.withTm b.atSample.tm := reachNs_withTm b _

theorem atSample_get (f : Field) : b.atSample.get f = b.get f := reachNs_get b _ f

theorem atSample_cyc : b.atSample.cyc = b.cyc := by rw [atSample_withTm, withTm_cyc]

theorem atSample_profile : b.atSample.profile = b.profile := by rw [atSample_withTm, withTm_profile]

theorem atSample_paired : b.atSample.paired = b.paired := by rw [atSample_withTm, withTm_paired]

theorem atSample_profCode (p : Nat) : b.atSample.profCode p = b.profCode p := by rw [atSample_withTm, withTm_profCode]

theorem atSample_now : b.cyc.next - 1000 ≤ b.atSample.nowNs := reachNs_le b _

theorem atSample_keeps : b.keeps [] b.atSample := reachNs_keeps b _

theorem atSample_only : b.only [.tm] b.atSample := reachNs_only b _

end

/-- Taking the request up leaves everything but the cycle state. -/
theorem goTaken_noCycle (b : Block) : b.goTaken.noCycle = b.noCycle := rfl

theorem goTaken_paired (b : Block) : b.goTaken.paired = b.paired := rfl

/-! What each outcome of the sample leaves, from the block that was sampled. -/

/-- A change that is ready waits for the boundary. -/
def Block.readyMarked (b : Block) (p : Nat) : Block := b.mapCyc (fun c => { c with goAt := none, sampled := some p })

/-- A request has been refused. -/
def Block.refusedWith (b : Block) (code : Nat) : Block := (b.mapCyc CycleSt.closed).put SYS_PROFILE_STAT code

/-- The drain into LEAN has begun. -/
def Block.drainOpened (b : Block) : Block :=
  (b.mapCyc (fun c => { c with goAt := none, drainTo := some (b.tm.phys + 100000000 * nsUnit) })).put SYS_PROFILE_STAT 2

/-- The way out of LEAN has begun: PD6 is switched on. -/
def Block.leanLeft (b : Block) (p : Nat) : Block :=
  (b.mapCyc (fun c => { c with goAt := none, leanExit := some p })).setBit PWR_STAT_DOMON 6

section
variable (b : Block)

theorem readyMarked_cyc (p : Nat) : (b.readyMarked p).cyc = { b.cyc with goAt := none, sampled := some p } := rfl

theorem readyMarked_tm (p : Nat) : (b.readyMarked p).tm = b.tm := rfl

theorem readyMarked_nowNs (p : Nat) : (b.readyMarked p).nowNs = b.nowNs := mapCyc_nowNs b _

theorem readyMarked_keeps (p : Nat) : b.keeps [] (b.readyMarked p) := keeps_mapCyc (keeps_refl _ b) _

theorem readyMarked_only (p : Nat) : b.only [.cyc] (b.readyMarked p) := mapCyc_only b _

theorem refusedWith_cyc (code : Nat) : (b.refusedWith code).cyc = b.cyc.closed := rfl

theorem refusedWith_tm (code : Nat) : (b.refusedWith code).tm = b.tm := rfl

theorem refusedWith_stat {code : Nat} (h : code < 8) : (b.refusedWith code).get SYS_PROFILE_STAT = code := stat_put _ h

theorem refusedWith_profile (code : Nat) : (b.refusedWith code).profile = b.profile :=
  Block.get_put_apart _ SYS_PROFILE_STAT SYS_PROFILE_ACT _ (by decide)

theorem refusedWith_keeps (code : Nat) : b.keeps [SYS_PROFILE_STAT] (b.refusedWith code) :=
  keeps_put (keeps_mapCyc (keeps_refl _ b) _) (by simp)

theorem refusedWith_only (code : Nat) : b.only [.cyc] (b.refusedWith code) := only_put (mapCyc_only b _)

theorem drainOpened_cyc :
    b.drainOpened.cyc = { b.cyc with goAt := none, drainTo := some (b.tm.phys + 100000000 * nsUnit) } := rfl

theorem drainOpened_tm : b.drainOpened.tm = b.tm := rfl

theorem drainOpened_stat : b.drainOpened.get SYS_PROFILE_STAT = 2 := stat_put _ (by decide)

theorem drainOpened_keeps : b.keeps [SYS_PROFILE_STAT] b.drainOpened :=
  keeps_put (keeps_mapCyc (keeps_refl _ b) _) (by simp)

theorem drainOpened_only : b.only [.cyc] b.drainOpened := only_put (mapCyc_only b _)

theorem leanLeft_cyc (p : Nat) : (b.leanLeft p).cyc = { b.cyc with goAt := none, leanExit := some p } := rfl

/-- Bit 6 of DOMON reads as it is set. -/
theorem leanLeft_domon (p : Nat) : bitAt ((b.leanLeft p).get PWR_STAT_DOMON) 6 = true := by
  rw [Block.leanLeft, Block.setBit, Block.get_put_same _ _ _ (by decide)]
  simp only [bitAt, setBitN, beq_iff_eq]
  split <;> omega

theorem leanLeft_keeps (p : Nat) : b.keeps [PWR_STAT_DOMON] (b.leanLeft p) :=
  keeps_setBit (keeps_mapCyc (keeps_refl _ b) _) (by simp)

theorem leanLeft_only (p : Nat) : b.only [.cyc] (b.leanLeft p) := only_setBit (mapCyc_only b _)

end

theorem goTaken_sampled (b : Block) (p : Nat) : b.goTaken.mapCyc (fun c => { c with sampled := some p }) = b.readyMarked p := rfl

theorem withTags_profile (b : Block) (u : SMap (BitVec 8)) : (b.withTags u).profile = b.profile := rfl

/-- What a sample leaves alone, beside the clocks. -/
theorem sample_only {b c : Block} (h : b.atSample.only [.cyc] c) : b.only [.cyc, .tm] c :=
  only_trans (only_mono (atSample_only b) (by simp)) (only_mono h (by simp))

section
variable {s : State} {g : Nat} (hg : s.blk.cyc.goAt = some g) (hi : s.blk.cyc.inProg = true)
  (ht : s.blk.nowNs ≤ s.blk.cyc.next - 1000)
include hg hi ht

theorem exec_profileSample_due {c : Block} (hc : s.blk.atSample.profSample = c) : exec .profileSample s = leadsTo s c := by
  refine (exec_profileSample s).trans (done_leadsTo ?_)
  simp only [hg, hi, if_true, ht]
  exact hc

omit hg ht in
theorem atSample_noCycle : s.blk.atSample.noCycle = false := by
  rw [atSample_withTm, withTm_noCycle, Block.noCycle, hi, Bool.not_true, Bool.false_and]

theorem profileSample_ready (hcode : s.blk.profCode (s.blk.get SYS_PROFILE_SEL) = 0) (hsel : s.blk.get SYS_PROFILE_SEL ≠ 3)
    (hact : s.blk.profile ≠ 3) (hp : s.blk.paired = false) :
    ∃ t, exec .profileSample s = .next t ∧ t.blk.cyc.sampled = some (s.blk.get SYS_PROFILE_SEL) ∧
      t.blk.cyc.goAt = none ∧ s.blk.cyc.next - 1000 ≤ t.blk.nowNs ∧ Frame [] [.cyc, .tm] s t := by
  have hc : s.blk.atSample.profSample = s.blk.atSample.readyMarked (s.blk.get SYS_PROFILE_SEL) := by
    rw [profSample_ready (by rwa [atSample_get, atSample_profCode]) (by rwa [atSample_get]) (by rwa [atSample_profile]),
      atSample_get, profReadyNow_waits (by rwa [goTaken_paired, atSample_paired]) (by rw [goTaken_noCycle, atSample_noCycle hi]),
      goTaken_sampled]
  refine leadsTo_intro (exec_profileSample_due hg hi ht hc) fun u => ?_
  simp only [Block.withTags_cyc, withTags_nowNs, readyMarked_cyc, readyMarked_nowNs, true_and]
  exact ⟨atSample_now s.blk, frame_intro (keeps_trans (atSample_keeps s.blk) (readyMarked_keeps _ _))
    (sample_only (readyMarked_only _ _))⟩

theorem profileSample_refuses (hl : s.blk.cyc.leanExit = none) (hcode : s.blk.profCode (s.blk.get SYS_PROFILE_SEL) ≠ 0)
    (hp : s.blk.paired = false) :
    ∃ t, exec .profileSample s = .next t ∧
      t.blk.get SYS_PROFILE_STAT = s.blk.profCode (s.blk.get SYS_PROFILE_SEL) ∧ t.blk.cyc.goAt = none ∧
      t.blk.profile = s.blk.profile ∧ Frame [SYS_PROFILE_STAT] [.cyc, .tm] s t := by
  have hc : s.blk.atSample.profSample = s.blk.atSample.refusedWith (s.blk.profCode (s.blk.get SYS_PROFILE_SEL)) := by
    rw [profSample_refuses (by rwa [atSample_get, atSample_profCode]), atSample_get, atSample_profCode,
      profRefused_alone (by rwa [atSample_paired]) (by rwa [atSample_cyc]), Block.refusedWith]
  refine leadsTo_intro (exec_profileSample_due hg hi ht hc) fun u => ⟨?_, ?_, ?_, frame_intro ?_ ?_⟩
  · rw [Block.withTags_get, refusedWith_stat _ (profCode_lt _ _)]
  · rw [Block.withTags_cyc, refusedWith_cyc, CycleSt.closed]
  · rw [withTags_profile, refusedWith_profile, atSample_profile]
  · exact keeps_trans (keeps_mono (atSample_keeps s.blk) (by simp)) (refusedWith_keeps _ _)
  · exact sample_only (refusedWith_only _ _)

theorem profileSample_drains (hcode : s.blk.profCode 3 = 0) (hsel : s.blk.get SYS_PROFILE_SEL = 3) (hact : s.blk.profile ≠ 3) :
    ∃ t, exec .profileSample s = .next t ∧ t.blk.cyc.drainTo = some (t.blk.tm.phys + 100000000 * nsUnit) ∧
      t.blk.get SYS_PROFILE_STAT = 2 ∧ t.blk.cyc.goAt = none ∧ Frame [SYS_PROFILE_STAT] [.cyc, .tm] s t := by
  have hc : s.blk.atSample.profSample = s.blk.atSample.drainOpened :=
    profSample_drains (by rwa [atSample_profCode]) (by rwa [atSample_get]) (by rwa [atSample_profile])
  refine leadsTo_intro (exec_profileSample_due hg hi ht hc) fun u => ⟨?_, ?_, ?_, frame_intro ?_ ?_⟩
  · rw [Block.withTags_cyc, Block.withTags_tm, drainOpened_cyc, drainOpened_tm]
  · rw [Block.withTags_get, drainOpened_stat]
  · rw [Block.withTags_cyc, drainOpened_cyc]
  · exact keeps_trans (keeps_mono (atSample_keeps s.blk) (by simp)) (drainOpened_keeps _)
  · exact sample_only (drainOpened_only _)

theorem profileSample_leaves (hcode : s.blk.profCode (s.blk.get SYS_PROFILE_SEL) = 0) (hsel : s.blk.get SYS_PROFILE_SEL ≠ 3)
    (hact : s.blk.profile = 3) :
    ∃ t, exec .profileSample s = .next t ∧ t.blk.cyc.leanExit = some (s.blk.get SYS_PROFILE_SEL) ∧
      bitAt (t.blk.get PWR_STAT_DOMON) 6 = true ∧ t.blk.cyc.goAt = none ∧ Frame [PWR_STAT_DOMON] [.cyc, .tm] s t := by
  have hc : s.blk.atSample.profSample = s.blk.atSample.leanLeft (s.blk.get SYS_PROFILE_SEL) := by
    rw [profSample_leaves (by rwa [atSample_get, atSample_profCode]) (by rwa [atSample_get]) (by rwa [atSample_profile]),
      atSample_get, Block.leanLeft]
  refine leadsTo_intro (exec_profileSample_due hg hi ht hc) fun u => ⟨?_, ?_, ?_, frame_intro ?_ ?_⟩
  · rw [Block.withTags_cyc, leanLeft_cyc]
  · rw [Block.withTags_get, leanLeft_domon]
  · rw [Block.withTags_cyc, leanLeft_cyc]
  · exact keeps_trans (keeps_mono (atSample_keeps s.blk) (by simp)) (leanLeft_keeps _ _)
  · exact sample_only (leanLeft_only _ _)

end

/-! ### With no cycle in progress (R603) -/

/-- The block as SEL is sampled with no cycle in progress: 1 µs after GO. -/
def Block.atIdleSample (b : Block) (g : Nat) : Block := b.reachPhys (g + 1000 * nsUnit)

section
variable (b : Block) (g : Nat)

theorem atIdleSample_withTm : b.atIdleSample g = b.withTm (b.atIdleSample g).tm := reachPhys_withTm b _

theorem atIdleSample_phys : g + 1000 * nsUnit ≤ (b.atIdleSample g).tm.phys := by
  rw [Block.atIdleSample, reachPhys_phys]
  exact Nat.le_max_right _ _

theorem atIdleSample_get (f : Field) : (b.atIdleSample g).get f = b.get f := by rw [atIdleSample_withTm, withTm_get]

theorem atIdleSample_profile : (b.atIdleSample g).profile = b.profile := by rw [atIdleSample_withTm, withTm_profile]

theorem atIdleSample_paired : (b.atIdleSample g).paired = b.paired := by rw [atIdleSample_withTm, withTm_paired]

theorem atIdleSample_noCycle : (b.atIdleSample g).noCycle = b.noCycle := by rw [atIdleSample_withTm, withTm_noCycle]

theorem atIdleSample_profCode (p : Nat) : (b.atIdleSample g).profCode p = b.profCode p := by
  rw [atIdleSample_withTm, withTm_profCode]

theorem atIdleSample_only : b.only [.tm] (b.atIdleSample g) := reachPhys_only b _

end

/-- A change that takes effect at once, where the cycle state and the clocks alone have changed. -/
theorem readyNow_shows {b c : Block} {p : Nat} (hb : b.only [.tm, .cyc] c) (hp : p < 4) :
    (c.profApplyNow p).profile = p ∧ (c.profApplyNow p).get SYS_PROFILE_STAT = 0 ∧ (c.profApplyNow p).tm = c.tm ∧
      (c.profApplyNow p).cav = b.cav ∧ (c.profApplyNow p).eng = b.eng := by
  obtain ⟨hact, hstat, honly⟩ := profApplyNow_shows c hp
  have hall : b.only [.tm, .cyc, .rings, .macs, .trc, .host, .out] (c.profApplyNow p) :=
    only_trans (only_mono hb (by simp)) (only_mono honly (by simp))
  exact ⟨hact, hstat, only_tm honly (by simp), only_cav hall (by simp), only_eng hall (by simp)⟩

theorem exec_profileSampleIdle_due {s : State} {g : Nat} {c : Block} (hn : s.blk.noCycle = true)
    (hg : s.blk.cyc.goAt = some g) (hc : (s.blk.atIdleSample g).profSample = c) : exec .profileSampleIdle s = leadsTo s c := by
  refine (exec_profileSampleIdle s).trans (done_leadsTo ?_)
  simp only [hn, hg, Bool.not_true, Bool.false_eq_true, if_false]
  exact hc

theorem profileSampleIdle_applies {s : State} {g : Nat} (hn : s.blk.noCycle = true) (hg : s.blk.cyc.goAt = some g)
    (hcode : s.blk.profCode (s.blk.get SYS_PROFILE_SEL) = 0) (hsel : s.blk.get SYS_PROFILE_SEL ≠ 3) (hact : s.blk.profile ≠ 3)
    (hp : s.blk.paired = false) :
    ∃ t, exec .profileSampleIdle s = .next t ∧ t.blk.profile = s.blk.get SYS_PROFILE_SEL ∧
      t.blk.get SYS_PROFILE_STAT = 0 ∧ g + 1000 * nsUnit ≤ t.blk.tm.phys ∧
      t.blk.cav = s.blk.cav ∧ t.blk.eng = s.blk.eng ∧ t.pending = s.pending := by
  have hc : (s.blk.atIdleSample g).profSample =
      ((s.blk.atIdleSample g).readyMarked (s.blk.get SYS_PROFILE_SEL)).profApplyNow (s.blk.get SYS_PROFILE_SEL) := by
    rw [profSample_ready (by rwa [atIdleSample_get, atIdleSample_profCode]) (by rwa [atIdleSample_get])
      (by rwa [atIdleSample_profile]), atIdleSample_get,
      profReadyNow_now (by rwa [goTaken_paired, atIdleSample_paired]) (by rwa [goTaken_noCycle, atIdleSample_noCycle]),
      goTaken_sampled]
  have honly : s.blk.only [.tm, .cyc] ((s.blk.atIdleSample g).readyMarked (s.blk.get SYS_PROFILE_SEL)) :=
    only_trans (only_mono (atIdleSample_only s.blk g) (by simp)) (only_mono (readyMarked_only _ _) (by simp))
  obtain ⟨hprof, hstat, htm, hcav, heng⟩ := readyNow_shows honly (s.blk.get_lt SYS_PROFILE_SEL)
  refine leadsTo_intro (exec_profileSampleIdle_due hn hg hc) fun u => ⟨hprof, hstat, ?_, hcav, heng, rfl⟩
  rw [Block.withTags_tm, htm, readyMarked_tm]
  exact atIdleSample_phys s.blk g

/-! ### Into LEAN and out of it (R40) -/

theorem profReadyNow_frame {s : State} {o : Host.Outcome State Fault Refusal} {p : Nat}
    (ho : o = leadsTo s (s.blk.profReadyNow p)) (hp : s.blk.paired = false) (hn : s.blk.noCycle = false) :
    ∃ t, o = .next t ∧ t.blk.cyc.sampled = some p ∧ Frame [] [.cyc] s t := by
  rw [profReadyNow_waits hp hn] at ho
  exact leadsTo_intro ho fun u => ⟨rfl, frame_intro (keeps_mapCyc (keeps_refl _ s.blk) _) (mapCyc_only s.blk _)⟩

theorem profReadyNow_applies {s : State} {o : Host.Outcome State Fault Refusal} {p : Nat} (hp4 : p < 4)
    (ho : o = leadsTo s (s.blk.profReadyNow p)) (hp : s.blk.paired = false) (hn : s.blk.noCycle = true) :
    ∃ t, o = .next t ∧ t.blk.profile = p ∧ t.blk.get SYS_PROFILE_STAT = 0 ∧ t.blk.cav = s.blk.cav ∧
      t.pending = s.pending := by
  rw [profReadyNow_now hp hn] at ho
  obtain ⟨hprof, hstat, -, hcav, -⟩ := readyNow_shows (only_mono (mapCyc_only s.blk (fun c => { c with sampled := some p }))
    (by simp : [Part.cyc] ⊆ [.tm, .cyc])) hp4
  exact leadsTo_intro ho fun u => ⟨hprof, hstat, hcav, rfl⟩

theorem exec_leanDrainDone_ready {s : State} {d : Nat} (hd : s.blk.cyc.drainTo = some d) (hs : s.blk.cyc.sampled = none)
    (he : s.blk.drained = true) : exec .leanDrainDone s = leadsTo s (s.blk.profReadyNow 3) := by
  refine (exec_leanDrainDone s).trans (done_leadsTo ?_)
  simp only [hd, hs, he, Option.isSome_some, Option.isNone_none, Bool.and_self, if_true]

theorem exec_leanExitReady_ready {s : State} {p : Nat} (hl : s.blk.cyc.leanExit = some p) (hs : s.blk.cyc.sampled = none) :
    exec .leanExitReady s = leadsTo s (s.blk.profReadyNow p) := by
  refine (exec_leanExitReady s).trans (done_leadsTo ?_)
  simp only [hl, hs, Option.isSome_none, Bool.false_eq_true, if_false]

theorem refusedDrain_refuses {s : State} {d : Nat} (hd : s.blk.cyc.drainTo = some d) (hm : s.blk.drainMakesIt d = false)
    (hl : s.blk.cyc.leanExit = none) (hp : s.blk.paired = false) :
    ∃ t, exec .refusedDrain s = .next t ∧ t.blk.get SYS_PROFILE_STAT = 7 ∧ t.blk.cyc.drainTo = none ∧
      d ≤ t.blk.tm.phys ∧ Frame [SYS_PROFILE_STAT] [.cyc, .tm] s t := by
  have hpd : (s.blk.reachPhys d).paired = false := by rw [reachPhys_withTm, withTm_paired, hp]
  have hld : (s.blk.reachPhys d).cyc.leanExit = none := by rw [reachPhys_withTm, withTm_cyc, hl]
  have ho : exec .refusedDrain s = leadsTo s ((s.blk.reachPhys d).refusedWith 7) := by
    refine (exec_refusedDrain s).trans (done_leadsTo ?_)
    simp only [hd, hm, Bool.false_eq_true, if_false]
    exact profRefused_alone hpd hld
  refine leadsTo_intro ho fun u => ⟨?_, ?_, ?_, frame_intro ?_ ?_⟩
  · rw [Block.withTags_get, refusedWith_stat _ (by decide)]
  · rw [Block.withTags_cyc, refusedWith_cyc, CycleSt.closed]
  · rw [Block.withTags_tm, refusedWith_tm, reachPhys_phys]
    exact Nat.le_max_right _ _
  · exact keeps_trans (keeps_mono (reachPhys_keeps s.blk d) (by simp)) (refusedWith_keeps _ 7)
  · exact only_trans (only_mono (reachPhys_only s.blk d) (by simp)) (only_mono (refusedWith_only _ 7) (by simp))

/-- Settles O10: GO opens a request, the sample before the boundary refuses it or sets it on its way, and a change that is ready
waits for the boundary or takes effect at once. -/
theorem profiles : Obligations.Profiles := by
  unfold Obligations.Profiles
  refine ⟨?_, ?_, ?_, ?_, ?_, ?_, ?_, ?_, ?_, ?_, ?_, ?_⟩
  · intro s data hf hs h1 h2
    exact profileGo_opens hf hs h1 h2
  · intro s data hf hs h
    exact profileGo_stores hf hs h
  · intro s g hg hi ht hcode hsel hact hp
    exact profileSample_ready hg hi ht hcode hsel hact hp
  · intro s g hg hi hl ht hcode hp
    exact profileSample_refuses hg hi ht hl hcode hp
  · intro s g hg hi ht hcode hsel hact
    exact profileSample_drains hg hi ht hcode hsel hact
  · intro s g hg hi ht hcode hsel hact
    exact profileSample_leaves hg hi ht hcode hsel hact
  · intro s g hn hg hcode hsel hact hp _
    exact profileSampleIdle_applies hn hg hcode hsel hact hp
  · intro s d hd hs he hp hn
    exact profReadyNow_frame (exec_leanDrainDone_ready hd hs he) hp hn
  · intro s d hd hs he hp hn
    exact profReadyNow_applies (by decide) (exec_leanDrainDone_ready hd hs he) hp hn
  · intro s d hd hm hl hp
    exact refusedDrain_refuses hd hm hl hp
  · intro s p hl hs hp hn
    exact profReadyNow_frame (exec_leanExitReady_ready hl hs) hp hn
  · intro s p hp4 hl hs hp hn
    exact profReadyNow_applies hp4 (exec_leanExitReady_ready hl hs) hp hn

end Sys2Proof.Machine
end

section
/-! SUPPORT. The engines: one engine replaced, the trace and the counters as an instruction completes, and the end of a wait
(R35, R149, R176, R486). -/

namespace Sys2Proof.Machine

/-! ### One engine replaced -/

section
variable (b : Block) (e : Fin 16) (f : Engine → Engine)

@[simp] theorem mapE_same : (b.mapE e f).eng[e] = f b.eng[e] := by simp [Block.mapE]

theorem mapE_ne {m : Fin 16} (h : m ≠ e) : (b.mapE e f).eng[m] = b.eng[m] := by
  have hv : e.val ≠ m.val := fun hv => h (Fin.ext hv.symm)
  simp [Block.mapE, Vector.getElem_set_ne, hv]

theorem mapE_only : b.only [.eng] (b.mapE e f) := by simp [Block.only, Block.mapE]

theorem mapEng_eq : b.mapEng e f = b.mapE e f := by simp [Block.mapEng, Block.mapE, vmod]

theorem engine_eq : b.engine e = b.eng[e] := by simp [Block.engine]

end

theorem changes_mapE {touch : Nat → Bool} {ps : List Part} {b c : Block} (h : b.changes touch ps c) (e : Fin 16)
    (f : Engine → Engine) (hp : .eng ∈ ps) : b.changes touch ps (c.mapE e f) :=
  changes_part h (Block.mapE_regs c e f) (only_mono (mapE_only c e f) (by simp [hp]))

/-- Engine `e` becomes `x`, and the others stay. -/
def Block.becomes (b : Block) (e : Fin 16) (x : Engine) (c : Block) : Prop :=
  c.eng[e] = x ∧ ∀ m : Fin 16, m ≠ e → c.eng[m] = b.eng[m]

theorem becomes_mapE (b : Block) (e : Fin 16) (f : Engine → Engine) : b.becomes e (f b.eng[e]) (b.mapE e f) :=
  ⟨mapE_same b e f, fun _ hm => mapE_ne b e f hm⟩

theorem becomes_refl (b : Block) (e : Fin 16) : b.becomes e b.eng[e] b := ⟨rfl, fun _ _ => rfl⟩

section
variable {b c d : Block} {e : Fin 16} {x : Engine}

theorem becomes_of_eng (h : b.becomes e x c) (hd : d.eng = c.eng) : b.becomes e x d := by
  obtain ⟨hx, ho⟩ := h
  exact ⟨hd ▸ hx, fun m hm => hd ▸ ho m hm⟩

theorem becomes_from (h : c.becomes e x d) (hc : c.eng = b.eng) : b.becomes e x d := by
  obtain ⟨hx, ho⟩ := h
  exact ⟨hx, fun m hm => (ho m hm).trans (by rw [hc])⟩

theorem becomes_trans {y : Engine} (h1 : b.becomes e x c) (h2 : c.becomes e y d) : b.becomes e y d :=
  ⟨h2.1, fun m hm => (h2.2 m hm).trans (h1.2 m hm)⟩

theorem becomes_step (h : b.becomes e x c) (f : Engine → Engine) : b.becomes e (f x) (c.mapE e f) := by
  have h2 := becomes_mapE c e f
  rw [h.1] at h2
  exact becomes_trans h h2

end

/-! ### The trace (R486, R488) -/

theorem counted_put {b c : Block} {f : Field} {v : Nat} (h : b.counted c) (hf : galTouch f.addr = true) :
    b.counted (c.put f v) := counted_trans h (counted_setReg c _ hf)

theorem traceFull_counted (b : Block) : b.counted b.traceFull := by
  unfold Block.traceFull
  split
  · exact counted_refl b
  · exact counted_trans (counted_trc b _) (counted_raise _ _)

theorem tracePut_counted {e : Nat} (he : e < 16) (b : Block) (at_ : Nat) (r : TraceRec) : b.counted (b.tracePut e at_ r) := by
  unfold Block.tracePut
  simp only
  split
  · exact counted_put (counted_refl b) rfl
  · have hput : ∀ t, b.counted (({ b with trc := t }.put PRF_TRSTAT_WPTR ((b.get PRF_TRSTAT_WPTR + 1) % 4096)).engEvent e 13 1) :=
      fun t => counted_trans (counted_put (counted_trc b t) rfl) (engEvent_counted he _ _ _)
    split
    · exact counted_trans (hput _) (traceFull_counted _)
    · split
      · split
        · exact counted_put (counted_put (hput _) rfl) rfl
        · exact counted_trans (counted_put (counted_put (hput _) rfl) rfl) (traceFull_counted _)
      · exact counted_put (hput _) rfl

theorem trace_counted {e : Nat} (he : e < 16) (b : Block) (pc at_ : Nat) (i : TraceInfo) : b.counted (b.trace e pc at_ i) := by
  unfold Block.trace
  simp only
  split
  · exact counted_refl b
  · split
    · split
      · exact tracePut_counted he b _ _
      · exact counted_refl b
    · split
      · exact counted_trans (counted_trc b _) (tracePut_counted he _ _ _)
      · exact counted_trc b _

/-! ### An instruction completes (R483, R486) -/

/-- An engine whose latest instruction the counters and the trace have seen. -/
def Engine.seenDone (r : TraceRec) (x : Engine) : Engine := { x with overrun := false, lastRec := some r, seen := 0, seenWait := 0 }

section
variable (b : Block) (e : Fin 16) (first : Nat) (stw insn : Word) (pc lat : Nat) (skip refused timeout retry : Bool) (trap : Nat)
  (res : Word)

theorem completed_counted : ∃ r, (b.mapE e (Engine.seenDone r)).counted
    (b.completed e first stw insn pc lat skip refused timeout retry trap res) := by
  refine ⟨traceRec stw insn pc e.val lat skip (b.flag (GAL_STAT_CORE15 e)) false trap res, ?_⟩
  unfold Block.completed
  simp only
  refine counted_trans (counted_trans (counted_trans ?_ (engEvent_counted e.isLt _ _ _)) (engEvent_counted e.isLt _ _ _))
    (trace_counted e.isLt _ _ _ _)
  split
  · exact counted_trans (counted_trans (engEvent_counted e.isLt _ _ _) (engEvent_counted e.isLt _ _ _))
      (engEvent_counted e.isLt _ _ _)
  · exact counted_refl _

/-- What the parts of the block see of a completed instruction. -/
theorem completed_changes : b.changes galTouch [.eng, .trc, .host, .out]
    (b.completed e first stw insn pc lat skip refused timeout retry trap res) := by
  obtain ⟨r, hr⟩ := completed_counted b e first stw insn pc lat skip refused timeout retry trap res
  exact changes_counted (changes_mapE (changes_refl _ _ b) e _ (by simp)) hr (fun _ h => h) (by simp)

theorem completed_becomes : ∃ r, b.becomes e (b.eng[e].seenDone r)
    (b.completed e first stw insn pc lat skip refused timeout retry trap res) := by
  obtain ⟨r, hr⟩ := completed_counted b e first stw insn pc lat skip refused timeout retry trap res
  exact ⟨r, becomes_of_eng (becomes_mapE b e _) (only_eng hr.2 (by simp))⟩

end

/-! ### The registers of an engine -/

/-- A GAL register of engine `e`, by its offset in the registers of one engine. -/
theorem galRegs_offset (e : Fin 16) {o : Nat} (h : o < 0x10000) : galRegs e (0x200000 + o + 0x10000 * e) = true := by
  simp only [galRegs, within, Bool.and_eq_true, decide_eq_true_eq]
  omega

/-- No register of an engine is one that every instruction touches. -/
theorem galTouch_galReg (e : Fin 16) {o : Nat} (h : o < 0x10000) : galTouch (0x200000 + o + 0x10000 * e) = false := by
  have he := e.isLt
  simp only [galTouch, within, Bool.or_eq_false_iff, Bool.and_eq_false_iff, decide_eq_false_iff_not, beq_eq_false_iff_ne, EVT_PEND,
    EVT_OVR]
  omega

theorem galTouch_stat (e : Fin 16) : galTouch (GAL_STAT e) = false := galTouch_galReg e (o := 0x20) (by decide)

theorem galTouch_slack (e : Fin 16) : galTouch (GAL_SLACK e) = false := galTouch_galReg e (o := 0xa0) (by decide)

/-- The low-water register of an engine is none that every instruction touches. -/
theorem galTouch_lwm (e : Fin 16) : galTouch (SYS_LWM_GAL e) = false := by
  have he := e.isLt
  simp only [galTouch, within, Bool.or_eq_false_iff, Bool.and_eq_false_iff, decide_eq_false_iff_not, beq_eq_false_iff_ne, EVT_PEND,
    EVT_OVR, SYS_LWM_GAL]
  omega

/-! ### The end of a wait (R149, R150) -/

/-- The engine after its wait: `upd` has written its registers, TF is written, and the next instruction is due at `t`. -/
def Engine.waitEnded (upd : Engine → Engine) (t : Nat) (timeout : Bool) (x : Engine) : Engine :=
  { (upd x).wf (BitVec.ofNat 3 (waitTf x.wait)) timeout with wait := .none, waitSince := none, pc := x.pc + 1, readyAt := t }

/-- The engine has left its wait: WAIT is clear, and the ticks of the wait part are counted. -/
def Block.waitLeft (b : Block) (e : Fin 16) (t : Nat) (timeout : Bool) (upd : Engine → Engine) : Block :=
  ((b.mapE e (Engine.waitEnded upd t timeout)).putB (GAL_STAT_WAIT e) false).engEvent e (waitEvent b.eng[e].wait)
    ((t - b.eng[e].waitFrom) / tick - b.eng[e].seenWait)

section
variable (b : Block) (e : Fin 16) (t : Nat) (timeout : Bool) (upd : Engine → Engine)

theorem waitLeft_becomes : b.becomes e (b.eng[e].waitEnded upd t timeout) (b.waitLeft e t timeout upd) := by
  have heng : (b.waitLeft e t timeout upd).eng = ((b.mapE e (Engine.waitEnded upd t timeout)).putB (GAL_STAT_WAIT e) false).eng :=
    only_eng (engEvent_counted e.isLt _ _ _).2 (by simp)
  exact becomes_of_eng (becomes_mapE b e _) (heng.trans (Block.putB_eng _ _ _))

theorem waitLeft_changes : (b.putB (GAL_STAT_WAIT e) false).changes galTouch [.eng, .trc, .host, .out]
    (b.waitLeft e t timeout upd) := by
  have h : (b.putB (GAL_STAT_WAIT e) false).changes galTouch [.eng, .trc, .host, .out]
      ((b.mapE e (Engine.waitEnded upd t timeout)).putB (GAL_STAT_WAIT e) false) :=
    changes_of_only rfl (by simp [Block.only, Block.mapE])
  exact changes_counted h (engEvent_counted e.isLt _ _ _) (fun _ h => h) (by simp)

/-- A wait that ends no later than now. -/
theorem endWait_eq (ht : t ≤ b.tm.phys) (res : Word) : b.endWait e t timeout res upd =
    (b.waitLeft e t timeout upd).completed e b.eng[e].insnAt b.eng[e].insnStw (b.eng[e].word b.eng[e].pc) b.eng[e].pc
      ((t - b.eng[e].insnAt) / tick) false false timeout b.eng[e].insnRetry 0 res := by
  have hnow : b.reachPhys t = b := by rw [Block.reachPhys, if_pos ht]
  unfold Block.endWait
  simp only [hnow, engine_eq, e.isLt, dif_pos]
  rfl

theorem endWait_becomes (ht : t ≤ b.tm.phys) (res : Word) :
    ∃ r, b.becomes e ((b.eng[e].waitEnded upd t timeout).seenDone r) (b.endWait e t timeout res upd) := by
  have hleft := waitLeft_becomes b e t timeout upd
  rw [endWait_eq b e t timeout upd ht]
  obtain ⟨r, hr⟩ := completed_becomes (b.waitLeft e t timeout upd) e b.eng[e].insnAt b.eng[e].insnStw
    (b.eng[e].word b.eng[e].pc) b.eng[e].pc ((t - b.eng[e].insnAt) / tick) false false timeout b.eng[e].insnRetry 0 res
  rw [hleft.1] at hr
  exact ⟨r, becomes_trans hleft hr⟩

theorem endWait_changes (ht : t ≤ b.tm.phys) (res : Word) : (b.putB (GAL_STAT_WAIT e) false).changes galTouch
    [.eng, .trc, .host, .out] (b.endWait e t timeout res upd) := by
  rw [endWait_eq b e t timeout upd ht]
  exact changes_trans (waitLeft_changes b e t timeout upd) (completed_changes _ _ _ _ _ _ _ _ _ _ _ _ _)

end

end Sys2Proof.Machine
end

section
/-! The trigger of a cycle at the engines, and its statement (R34, R174 to R176). -/

namespace Sys2Proof.Machine

/-! ### Low-water registers (R35) -/

theorem changes_lowWater {touch : Nat → Bool} {ps : List Part} {b c : Block} {f : Field} (m : Nat) (h : b.changes touch ps c)
    (hf : touch f.addr = true) : b.changes touch ps (c.lowWater f m) := by
  unfold Block.lowWater
  split
  · exact changes_put h hf
  · exact h

/-- A margin of 0 leaves 0. -/
theorem lowWater_zero (b : Block) {f : Field} (hf : f.lo + f.w ≤ 72) : (b.lowWater f 0).get f = 0 := by
  unfold Block.lowWater
  split
  · simp [Block.get_put_same _ _ _ hf]
  · rename_i h; exact Nat.eq_zero_of_not_pos h

theorem lowWater_get_ne (b : Block) {f g : Field} (m : Nat) (h : f.addr ≠ g.addr) : (b.lowWater f m).get g = b.get g := by
  unfold Block.lowWater
  split
  · exact Block.get_put_apart b f g m (.inl h)
  · rfl

/-! ### What a trigger may touch -/

theorem trigger_of_galTouch (e : Fin 16) {a : Nat} (h : galTouch a = true) : triggerTouch e a = true := by
  simp only [triggerTouch, h, Bool.true_or]

theorem trigger_of_galRegs (e : Fin 16) {a : Nat} (h : galRegs e a = true) : triggerTouch e a = true := by
  simp only [triggerTouch, h, Bool.or_true, Bool.true_or]

theorem trigger_stat (e : Fin 16) : triggerTouch e (GAL_STAT e) = true :=
  trigger_of_galRegs e (galRegs_offset e (o := 0x20) (by decide))

theorem trigger_slack (e : Fin 16) : triggerTouch e (GAL_SLACK e) = true :=
  trigger_of_galRegs e (galRegs_offset e (o := 0xa0) (by decide))

theorem trigger_lwm (e : Fin 16) : triggerTouch e (SYS_LWM_GAL e) = true := by
  simp only [triggerTouch, beq_self_eq_true, Bool.or_true]

/-! ### A boundary wait ends (R151, R174) -/

/-- The figures of the cycle: the low-water registers of the engine alone change, and WAIT and STATE not among them. -/
theorem recordCycle_eng (b : Block) (e : Fin 16) : (b.recordCycle e).eng = b.eng ∧ (b.recordCycle e).tm = b.tm := by
  have hlow : ∀ (c : Block) (f : Field) (m : Nat), (c.lowWater f m).eng = c.eng ∧ (c.lowWater f m).tm = c.tm := fun c f m => by
    unfold Block.lowWater
    split <;> exact ⟨rfl, rfl⟩
  have hrec : (b.recordMargin e).eng = b.eng ∧ (b.recordMargin e).tm = b.tm := by
    unfold Block.recordMargin
    simp only
    split
    · exact hlow _ _ _
    · exact ⟨rfl, rfl⟩
  unfold Block.recordCycle
  simp only
  split
  · exact ⟨(hlow _ _ _).1.trans hrec.1, (hlow _ _ _).2.trans hrec.2⟩
  · exact ⟨rfl, rfl⟩

theorem recordMargin_changes (b : Block) (e : Fin 16) : b.changes (triggerTouch e) [] (b.recordMargin e) := by
  unfold Block.recordMargin
  simp only
  split
  · exact changes_lowWater _ (changes_refl _ _ b) (trigger_lwm e)
  · exact changes_refl _ _ b

theorem recordCycle_changes (b : Block) (e : Fin 16) : b.changes (triggerTouch e) [] (b.recordCycle e) := by
  unfold Block.recordCycle
  simp only
  split
  · exact changes_lowWater _ (recordMargin_changes b e) (trigger_slack e)
  · exact changes_refl _ _ b

theorem recordCycle_stat (b : Block) (e : Fin 16) : (b.recordCycle e).reg (GAL_STAT e) = b.reg (GAL_STAT e) := by
  have he := e.isLt
  have hlow : ∀ (c : Block) (f : Field) (m : Nat), GAL_STAT e ≠ f.addr → (c.lowWater f m).reg (GAL_STAT e) = c.reg (GAL_STAT e) :=
    fun c f m h => by
      unfold Block.lowWater
      split
      · exact Block.reg_put_ne c f m h
      · rfl
  have hmin : GAL_STAT e ≠ (SYS_LWM_GAL_MIN e).addr := by simp only [GAL_STAT, SYS_LWM_GAL]; omega
  have hslack : GAL_STAT e ≠ (GAL_SLACK_MIN e).addr := by simp only [GAL_STAT, GAL_SLACK]; omega
  have hrec : (b.recordMargin e).reg (GAL_STAT e) = b.reg (GAL_STAT e) := by
    unfold Block.recordMargin
    simp only
    split
    · exact hlow _ _ _ hmin
    · rfl
  unfold Block.recordCycle
  simp only
  split
  · exact (hlow _ _ _ hslack).trans hrec
  · rfl

/-- The engine that the trigger has released. -/
def Engine.triggered (gr : Nat) (w : Word) (now : Nat) (r : TraceRec) (x : Engine) : Engine :=
  { (x.waitEnded (fun y => y.wr (BitVec.ofNat 6 gr) w) now false).seenDone r with use := 0, opened := true }

/-- What the trigger leaves of the registers and parts of the block: engine `e` is released. -/
def Block.releasedTo (b : Block) (e : Fin 16) (gr : Nat) (w : Word) (c : Block) : Prop :=
  (∃ r, b.becomes e (b.eng[e].triggered gr w b.tm.phys r) c) ∧
    c.running e = b.running e ∧ c.flag (GAL_STAT_WAIT e) = false ∧ b.changes (triggerTouch e) [.eng, .trc, .host, .out] c

theorem releaseReg_releases (b : Block) (e : Fin 16) (gr : Nat) (w : Word) :
    b.releasedTo e gr w (((b.recordCycle e).releaseReg e b.tm.phys gr w).mapE e (fun y => { y with use := 0, opened := true })) := by
  obtain ⟨heng, htm⟩ := recordCycle_eng b e
  have hstat := recordCycle_stat b e
  have hrec := recordCycle_changes b e
  generalize b.recordCycle e = c at heng htm hstat hrec
  have hnow : b.tm.phys ≤ c.tm.phys := by rw [htm]
  obtain ⟨r, hr⟩ := endWait_becomes c e b.tm.phys false (fun x => x.wr (BitVec.ofNat 6 gr) w) hnow w
  have hch := endWait_changes c e b.tm.phys false (fun x => x.wr (BitVec.ofNat 6 gr) w) hnow w
  change c.becomes e _ (c.releaseReg e b.tm.phys gr w) at hr
  change Block.changes galTouch _ _ (c.releaseReg e b.tm.phys gr w) at hch
  generalize c.releaseReg e b.tm.phys gr w = d at hr hch
  have hget : ∀ f : Field, f.addr = GAL_STAT e →
      (d.mapE e (fun y => { y with use := 0, opened := true })).get f = (c.putB (GAL_STAT_WAIT e) false).get f := fun f hf =>
    changes_get hch (by rw [hf]; exact galTouch_stat e)
  refine ⟨⟨r, ?_⟩, ?_, ?_, ?_⟩
  · have h := becomes_from hr heng
    rw [heng] at h
    exact becomes_step h (fun y => { y with use := 0, opened := true })
  · simp only [Block.running, hget (GAL_STAT_STATE e) rfl, Block.get_putB_apart _ (GAL_STAT_WAIT e) (GAL_STAT_STATE e) false
      (.inr (.inr (Nat.le_refl 3)))]
    simp only [Block.get, hstat]
  · rw [Block.flag, hget (GAL_STAT_WAIT e) rfl]
    exact Block.flag_putB_same c (GAL_STAT_WAIT e) false (by simp) rfl
  · have h1 : b.changes (triggerTouch e) [.eng, .trc, .host, .out] (c.putB (GAL_STAT_WAIT e) false) :=
      changes_putB (changes_mono hrec (fun _ h => h) (by simp)) (trigger_stat e)
    exact changes_mapE (changes_trans h1 (changes_mono hch (fun _ => trigger_of_galTouch e) (List.Subset.refl _))) e _ (by simp)

theorem triggerOne_releases {b : Block} {e : Fin 16} {gr tf : Nat} (w : Word) (hrun : b.running e = true)
    (hrel : b.eng[e].reloc = false) (hw : b.eng[e].wait = .boundary gr tf) (hfrom : b.eng[e].waitFrom ≤ b.tm.phys) :
    b.releasedTo e gr w (b.triggerOne e w) := by
  have hin : b.eng[e].inBoundary b.tm.phys = true := by simp only [Engine.inBoundary, hw, hfrom, decide_true]
  have heq : b.triggerOne e w =
      ((b.recordCycle e).releaseReg e b.tm.phys gr w).mapE e (fun y => { y with use := 0, opened := true }) := by
    simp only [Block.triggerOne, Block.triggerRunning, engine_eq, hrel, hrun, hin, Bool.false_eq_true, if_false, if_true, mapEng_eq,
      hw, boundaryReg]
  rw [heq]
  exact releaseReg_releases b e gr w

/-! ### A trigger that comes too early is lost (R34) -/

/-- What a lost trigger leaves: slack 0 is recorded, and the engine is as it was but for the trigger and the trace. -/
def Block.lostTo (b : Block) (e : Fin 16) (c : Block) : Prop :=
  (∃ v, b.becomes e { b.eng[e] with trig := none, overrun := v } c) ∧ c.running e = b.running e ∧
    c.flag (SYS_LWM_GAL_OVR e) = true ∧ c.get (SYS_LWM_GAL_MIN e) = b.get (SYS_LWM_GAL_MIN e) ∧ c.get (GAL_SLACK_MIN e) = 0 ∧
    b.changes (triggerTouch e) [.eng, .trc, .host, .out] c

/-- The registers of a lost trigger. -/
def Block.slackLost (b : Block) (e : Fin 16) : Block := (b.putB (SYS_LWM_GAL_OVR e) true).lowWater (GAL_SLACK_MIN e) 0

theorem slackLost_get (b : Block) (e : Fin 16) : (b.slackLost e).flag (SYS_LWM_GAL_OVR e) = true ∧
    (b.slackLost e).get (SYS_LWM_GAL_MIN e) = b.get (SYS_LWM_GAL_MIN e) ∧ (b.slackLost e).get (GAL_SLACK_MIN e) = 0 ∧
    (b.slackLost e).get (GAL_STAT_STATE e) = b.get (GAL_STAT_STATE e) := by
  have he := e.isLt
  have h1 : (GAL_SLACK_MIN e).addr ≠ SYS_LWM_GAL e := by simp only [GAL_SLACK, SYS_LWM_GAL]; omega
  have h2 : (GAL_SLACK_MIN e).addr ≠ GAL_STAT e := by simp only [GAL_SLACK, GAL_STAT]; omega
  have h3 : (SYS_LWM_GAL_OVR e).addr ≠ GAL_STAT e := by simp only [SYS_LWM_GAL, GAL_STAT]; omega
  refine ⟨?_, ?_, lowWater_zero _ (by simp), ?_⟩
  · rw [Block.flag, Block.slackLost, lowWater_get_ne _ _ h1]
    exact Block.flag_putB_same b _ true (by simp) rfl
  · rw [Block.slackLost, lowWater_get_ne _ _ h1,
      Block.get_putB_apart b (SYS_LWM_GAL_OVR e) (SYS_LWM_GAL_MIN e) true (.inr (.inr (Nat.le_refl 22)))]
  · rw [Block.slackLost, lowWater_get_ne _ _ h2, Block.get_putB_apart _ _ _ _ (.inl h3)]

theorem slackLost_changes (b : Block) (e : Fin 16) : b.changes (triggerTouch e) [] (b.slackLost e) :=
  changes_lowWater 0 (changes_putB (changes_refl _ _ b) (trigger_lwm e)) (trigger_slack e)

/-- What is left of the trigger once slack 0 is recorded: the engine and what an event and the trace change. -/
theorem discardTrigger_after (b : Block) (e : Fin 16) : (∃ v, b.becomes e { b.eng[e] with trig := none, overrun := v }
      (b.discardTrigger e)) ∧ (b.slackLost e).changes galTouch [.eng, .trc, .host, .out] (b.discardTrigger e) := by
  have heng : (b.slackLost e).eng = b.eng := only_eng (slackLost_changes b e).2 (by simp)
  have hbec : b.becomes e { b.eng[e] with trig := none } (((b.slackLost e).mapE e (fun y => { y with trig := none })).raise evBudgetOvr) := by
    have h := becomes_from (becomes_mapE (b.slackLost e) e (fun y => { y with trig := none })) heng
    rw [heng] at h
    exact becomes_of_eng h (only_eng (raise_only _ _) (by simp))
  have hch : (b.slackLost e).changes galTouch [.eng, .trc, .host, .out]
      (((b.slackLost e).mapE e (fun y => { y with trig := none })).raise evBudgetOvr) :=
    changes_raise (changes_mapE (changes_refl _ _ _) e _ (by simp)) (fun _ => galTouch_of_evTouch) (by simp)
  unfold Block.discardTrigger
  simp only [engine_eq, mapEng_eq]
  rw [← Block.slackLost]
  generalize ((b.slackLost e).mapE e (fun y => { y with trig := none })).raise evBudgetOvr = c at hbec hch
  split
  · split
    · have ht := trace_counted e.isLt c
      exact ⟨⟨_, becomes_of_eng hbec (only_eng (ht _ _ _).2 (by simp))⟩, changes_counted hch (ht _ _ _) (fun _ h => h) (by simp)⟩
    · exact ⟨⟨_, hbec⟩, hch⟩
  · exact ⟨⟨_, becomes_step hbec _⟩, changes_mapE hch e _ (by simp)⟩

theorem discardTrigger_loses (b : Block) (e : Fin 16) : b.lostTo e (b.discardTrigger e) := by
  obtain ⟨hovr, hmin, hslack, hstate⟩ := slackLost_get b e
  obtain ⟨hbec, hch⟩ := discardTrigger_after b e
  refine ⟨hbec, ?_, ?_, ?_, ?_, ?_⟩
  · simp only [Block.running, changes_get hch (f := GAL_STAT_STATE e) (galTouch_stat e), hstate]
  · rw [changes_flag hch (galTouch_lwm e), hovr]
  · rw [changes_get hch (galTouch_lwm e), hmin]
  · rw [changes_get hch (galTouch_slack e), hslack]
  · exact changes_trans (changes_mono (slackLost_changes b e) (fun _ h => h) (by simp))
      (changes_mono hch (fun _ => trigger_of_galTouch e) (List.Subset.refl _))

theorem triggerOne_loses {b : Block} {e : Fin 16} (w : Word) (hrun : b.running e = true) (hrel : b.eng[e].reloc = false)
    (hin : b.eng[e].inBoundary b.tm.phys = false) : b.lostTo e (b.triggerOne e w) := by
  have heq : b.triggerOne e w = b.discardTrigger e := by
    simp only [Block.triggerOne, Block.triggerRunning, engine_eq, hrel, hrun, hin, Bool.false_eq_true, if_false, if_true]
  rw [heq]
  exact discardTrigger_loses b e

/-! ### A pending START is taken up (R175) -/

theorem triggerOne_starts {b : Block} {e : Fin 16} (w : Word) (hrun : b.running e = false) (hrel : b.eng[e].reloc = false)
    (hst : b.eng[e].startPend = true) (hbank : b.banksPending e = false) : b.triggerOne e w =
      b.mapE e (fun y => { y with startPend := false, startAt := some b.tm.phys, trig := some w }) := by
  simp only [Block.triggerOne, engine_eq, hrel, hrun, hst, hbank, Bool.false_eq_true, if_false, Bool.not_false, Bool.and_self, if_true,
    mapEng_eq]

/-! ### The trigger reaches the engines in turn -/

/-- An engine at which the trigger does nothing. -/
def Block.ignores (b : Block) (m : Nat) : Prop := b.running m = false ∧ (b.engine m).startPend = false ∧ (b.engine m).reloc = false

theorem triggerOne_ignored {b : Block} {m : Nat} (w : Word) (h : b.ignores m) : b.triggerOne m w = b := by
  obtain ⟨hrun, hst, hrel⟩ := h
  simp only [Block.triggerOne, hrun, hst, hrel, Bool.false_eq_true, if_false, Bool.false_and]

theorem triggerAll_ignored {b : Block} (w : Word) : ∀ l : List Nat, (∀ m ∈ l, b.ignores m) → b.triggerAll w l = b
  | [], _ => rfl
  | m :: r, h => by
    rw [Block.triggerAll, triggerOne_ignored w (h m List.mem_cons_self)]
    exact triggerAll_ignored w r fun k hk => h k (List.mem_cons_of_mem _ hk)

theorem triggerAll_append (w : Word) : ∀ (l r : List Nat) (b : Block), b.triggerAll w (l ++ r) = (b.triggerAll w l).triggerAll w r
  | [], _, _ => rfl
  | m :: l, r, b => triggerAll_append w l r (b.triggerOne m w)

theorem range_split (e : Fin 16) : List.range 16 = List.range e ++ e.val :: List.range' (e + 1) (15 - e) := by
  revert e
  decide

/-- No other engine runs, waits for a start or moves: the trigger acts on `e` alone. -/
theorem triggerAll_alone {b : Block} {e : Fin 16} (w : Word) (h : ∀ m : Fin 16, m ≠ e → b.ignores m)
    (hc : ∀ m : Fin 16, m ≠ e → (b.triggerOne e w).ignores m) : b.triggerAll w (List.range 16) = b.triggerOne e w := by
  rw [range_split e, triggerAll_append, triggerAll_ignored w (List.range e), Block.triggerAll,
    triggerAll_ignored w (List.range' (e + 1) (15 - e))]
  · intro m hm
    have hm2 := List.mem_range'_1.mp hm
    have hlt : m < 16 := by omega
    exact hc ⟨m, hlt⟩ (fun he => by simp only [← he] at hm2; omega)
  · intro m hm
    have hm2 := List.mem_range.mp hm
    exact h ⟨m, by omega⟩ (fun he => by simp only [← he] at hm2; omega)

theorem ignores_of_alone {b : Block} {e : Fin 16} (h : aloneRuns b e) (m : Fin 16) (hm : m ≠ e) : b.ignores m := by
  obtain ⟨hrun, hst, hrel⟩ := h m hm
  exact ⟨hrun, by rwa [engine_eq], by rwa [engine_eq]⟩

/-- An engine that ignores the trigger does so still where its STATE and its own state are as they were. -/
theorem ignores_congr {b c : Block} {m : Fin 16} (h : b.ignores m) (hr : c.reg (GAL_STAT m) = b.reg (GAL_STAT m))
    (he : c.eng[m] = b.eng[m]) : c.ignores m := by
  obtain ⟨hrun, hst, hrel⟩ := h
  refine ⟨?_, ?_, ?_⟩
  · simpa only [Block.running, Block.get, hr] using hrun
  · rwa [engine_eq, he, ← engine_eq]
  · rwa [engine_eq, he, ← engine_eq]

/-- The GAL registers of another engine are none that the trigger touches. -/
theorem triggerTouch_stat_ne {e m : Fin 16} (h : m ≠ e) : triggerTouch e (GAL_STAT m) = false := by
  have hv : m.val ≠ e.val := fun hv => h (Fin.ext hv)
  have hm := m.isLt
  have hr : galRegs e (GAL_STAT m) = false := by
    simp only [galRegs, within, GAL_STAT, Bool.and_eq_false_iff, decide_eq_false_iff_not]
    omega
  have hl : (GAL_STAT m == SYS_LWM_GAL e) = false := by
    simp only [beq_eq_false_iff_ne, GAL_STAT, SYS_LWM_GAL]
    omega
  simp only [triggerTouch, galTouch_stat m, hr, hl, Bool.or_self]

theorem ignores_after {b c : Block} {e m : Fin 16} {ps : List Part} {x : Engine} (hm : m ≠ e) (h : b.ignores m)
    (hc : b.changes (triggerTouch e) ps c) (hb : b.becomes e x c) : c.ignores m :=
  ignores_congr h (hc.1 _ (triggerTouch_stat_ne hm)) (hb.2 m hm)

end Sys2Proof.Machine
end

section
/-! The statement on the triggers (R34, R174 to R176). -/

namespace Sys2Proof.Machine

/-- The block at trigger delivery: the clocks have reached it, and the digest has turned (R174, R511). -/
def Block.atTrigger (b : Block) (n : Nat) : Block := (b.reachNs n).digTurn (stwOf (b.cyc.start * nsUnit))

/-- The trigger has been delivered. -/
def Block.triggerDone (b : Block) : Block := b.mapCyc (fun c => { c with triggerAt := none, budgetUs := b.get SYS_CYCLE_PERIN })

theorem only_pw {l : List Part} {b c : Block} (h : b.only l c) (hp : .pw ∉ l) : c.pw = b.pw := by
  simp only [Block.only] at h
  simp_all

@[simp] theorem withTags_running (b : Block) (u : SMap (BitVec 8)) (e : Nat) : (b.withTags u).running e = b.running e := rfl

theorem digTurn_regs (b : Block) (w : Word) : (b.digTurn w).regs = b.regs := rfl

theorem digTurn_only (b : Block) (w : Word) : b.only [.pair] (b.digTurn w) := by simp [Block.only, Block.digTurn]

theorem reach_phys_le (b : Block) (lt : Nat) : b.tm.phys ≤ (b.reach lt).tm.phys := by
  unfold Block.reach
  split
  · exact Nat.le_refl _
  · exact Nat.le_add_right _ _

section
variable (b : Block) (n : Nat)

theorem atTrigger_regs : (b.atTrigger n).regs = b.regs := (digTurn_regs _ _).trans (reach_regs b _)

theorem atTrigger_only : b.only [.tm, .pair] (b.atTrigger n) :=
  only_trans (only_mono (reachNs_only b n) (by simp)) (only_mono (digTurn_only _ _) (by simp))

theorem atTrigger_eng : (b.atTrigger n).eng = b.eng := only_eng (atTrigger_only b n) (by simp)

theorem atTrigger_pw : (b.atTrigger n).pw = b.pw := only_pw (atTrigger_only b n) (by simp)

theorem atTrigger_tm : (b.atTrigger n).tm = (b.reachNs n).tm := only_tm (digTurn_only _ _) (by simp)

theorem atTrigger_phys : b.tm.phys ≤ (b.atTrigger n).tm.phys := by
  rw [atTrigger_tm]
  exact reach_phys_le b _

theorem atTrigger_now : n ≤ (b.atTrigger n).nowNs := by
  rw [nowNs_of_tm (atTrigger_tm b n)]
  exact reachNs_le b n

theorem atTrigger_get (f : Field) : (b.atTrigger n).get f = b.get f := by
  simp only [Block.get, Block.reg, atTrigger_regs]

theorem atTrigger_running (e : Nat) : (b.atTrigger n).running e = b.running e := by
  simp only [Block.running, atTrigger_get]

theorem atTrigger_banks (e : Nat) : (b.atTrigger n).banksPending e = b.banksPending e := by
  simp only [Block.banksPending, atTrigger_pw]

theorem atTrigger_changes (touch : Nat → Bool) : b.changes touch [.tm, .pair] (b.atTrigger n) :=
  changes_of_only (atTrigger_regs b n) (atTrigger_only b n)

end

theorem atTrigger_ignores {b : Block} {e : Fin 16} (n : Nat) (h : aloneRuns b e) (m : Fin 16) (hm : m ≠ e) :
    (b.atTrigger n).ignores m :=
  ignores_congr (ignores_of_alone h m hm) (by simp only [Block.reg, atTrigger_regs]) (by rw [atTrigger_eng])

section
variable (b : Block)

theorem triggerDone_cyc : b.triggerDone.cyc.triggerAt = none := rfl

theorem triggerDone_eng : b.triggerDone.eng = b.eng := rfl

theorem triggerDone_tm : b.triggerDone.tm = b.tm := rfl

theorem triggerDone_regs : b.triggerDone.regs = b.regs := rfl

theorem triggerDone_only : b.only [.cyc] b.triggerDone := mapCyc_only b _

end

theorem exec_cycleTrigger_none {s : State} (h : s.blk.cyc.triggerAt = none) : exec .cycleTrigger s = leadsTo s s.blk :=
  (exec_cycleTrigger s).trans (done_leadsTo (by simp only [h]))

theorem exec_cycleTrigger_some {s : State} {n : Nat} (h : s.blk.cyc.triggerAt = some n) : exec .cycleTrigger s =
    leadsTo s ((s.blk.atTrigger n).triggerAll (stwOf (s.blk.cyc.start * nsUnit)) (List.range 16)).triggerDone :=
  (exec_cycleTrigger s).trans (done_leadsTo (by simp only [h, Block.triggerDone, Block.atTrigger, Block.mapCyc]))

/-- A trigger at which engine `e` alone has anything to do. -/
theorem exec_cycleTrigger_alone {s : State} {n : Nat} {e : Fin 16} {c : Block} {x : Engine} {ps : List Part}
    (h : s.blk.cyc.triggerAt = some n) (ha : aloneRuns s.blk e)
    (hc : (s.blk.atTrigger n).triggerOne e (stwOf (s.blk.cyc.start * nsUnit)) = c) (hb : (s.blk.atTrigger n).becomes e x c)
    (hch : (s.blk.atTrigger n).changes (triggerTouch e) ps c) : exec .cycleTrigger s = leadsTo s c.triggerDone := by
  have hall := triggerAll_alone (e := e) (stwOf (s.blk.cyc.start * nsUnit)) (atTrigger_ignores n ha)
    (fun m hm => by rw [hc]; exact ignores_after hm (atTrigger_ignores n ha m hm) hch hb)
  rw [hc] at hall
  rw [exec_cycleTrigger_some h, hall]

/-- The frame of a trigger at which engine `e` alone has anything to do. -/
theorem trigger_frame {s : State} {n : Nat} {e : Fin 16} {c : Block} {u : SMap (BitVec 8)}
    (hch : (s.blk.atTrigger n).changes (triggerTouch e) [.eng, .trc, .host, .out] c) :
    FrameOn (triggerTouch e) [.eng, .tm, .trc, .host, .out, .cyc, .pair] s ⟨c.triggerDone.withTags u, s.pending⟩ := by
  refine frameOn_intro (changes_part ?_ (triggerDone_regs c) (only_mono (triggerDone_only c) (by simp)))
  exact changes_trans (changes_mono (atTrigger_changes s.blk n _) (fun _ h => h) (by simp))
    (changes_mono hch (fun _ h => h) (by simp))

/-- A write of a flag leaves the registers of an engine. -/
theorem wf_g (x : Engine) (i : BitVec 3) (v : Bool) : (x.wf i v).g = x.g := by
  unfold Engine.wf
  split <;> rfl

/-- The flags after a write of a register and of a flag are those of the write of the flag. -/
theorem wr_wf_f (x : Engine) (d : BitVec 6) (w : Word) (i : BitVec 3) (v : Bool) : ((x.wr d w).wf i v).f = (x.wf i v).f := by
  unfold Engine.wr
  split
  · rfl
  · unfold Engine.wf
    split <;> rfl

/-- What the trigger leaves of the engine it releases. -/
theorem triggered_state (x : Engine) {gr tf : Nat} (w : Word) (now : Nat) (r : TraceRec) (hw : x.wait = .boundary gr tf) :
    (x.triggered gr w now r).wait = .none ∧ (x.triggered gr w now r).pc = x.pc + 1 ∧
      (x.triggered gr w now r).g = (x.wr (BitVec.ofNat 6 gr) w).g ∧
      (x.triggered gr w now r).f = (x.wf (BitVec.ofNat 3 tf) false).f ∧ (x.triggered gr w now r).use = 0 ∧
      (x.triggered gr w now r).readyAt = now := by
  refine ⟨rfl, rfl, wf_g _ _ _, ?_, rfl, rfl⟩
  simp only [Engine.triggered, Engine.seenDone, Engine.waitEnded, hw, waitTf]
  exact wr_wf_f _ _ _ _ _

theorem cycleTrigger_releases {s : State} {e : Fin 16} {n gr tf : Nat} (h : s.blk.cyc.triggerAt = some n)
    (hrun : s.blk.running e = true) (hrel : (s.blk.eng[e]).reloc = false) (hw : (s.blk.eng[e]).wait = .boundary gr tf)
    (hfrom : (s.blk.eng[e]).waitFrom ≤ s.blk.tm.phys) (ha : aloneRuns s.blk e) :
    ∃ t, exec .cycleTrigger s = .next t ∧ (t.blk.eng[e]).wait = .none ∧ (t.blk.eng[e]).pc = (s.blk.eng[e]).pc + 1 ∧
      (t.blk.eng[e]).g = ((s.blk.eng[e]).wr (BitVec.ofNat 6 gr) (stwOf (s.blk.cyc.start * nsUnit))).g ∧
      (t.blk.eng[e]).f = ((s.blk.eng[e]).wf (BitVec.ofNat 3 tf) false).f ∧ (t.blk.eng[e]).use = 0 ∧
      (t.blk.eng[e]).readyAt = t.blk.tm.phys ∧ t.blk.running e = true ∧ t.blk.flag (GAL_STAT_WAIT e) = false ∧
      t.blk.cyc.triggerAt = none ∧ n ≤ t.blk.nowNs ∧ (∀ m : Fin 16, m ≠ e → t.blk.eng[m] = s.blk.eng[m]) ∧
      FrameOn (triggerTouch e) [.eng, .tm, .trc, .host, .out, .cyc, .pair] s t := by
  have heng := atTrigger_eng s.blk n
  obtain ⟨⟨r, hbec⟩, hcrun, hwait, hch⟩ := triggerOne_releases (b := s.blk.atTrigger n) (e := e) (gr := gr) (tf := tf)
    (stwOf (s.blk.cyc.start * nsUnit)) (by rw [atTrigger_running, hrun]) (by rw [heng, hrel]) (by rw [heng, hw])
    (by rw [heng]; exact hfrom.trans (atTrigger_phys s.blk n))
  have ho := exec_cycleTrigger_alone h ha rfl hbec hch
  have hctm := only_tm hch.2 (by simp)
  have hnow : n ≤ ((s.blk.atTrigger n).triggerOne e (stwOf (s.blk.cyc.start * nsUnit))).triggerDone.nowNs := by
    rw [nowNs_of_tm (triggerDone_tm _), nowNs_of_tm hctm]
    exact atTrigger_now s.blk n
  have hframe := fun u => trigger_frame (s := s) (n := n) (e := e) (u := u) hch
  rw [atTrigger_running, hrun] at hcrun
  obtain ⟨hx, hothers⟩ := hbec
  rw [heng] at hx hothers
  have hst := triggered_state (s.blk.eng[e]) (stwOf (s.blk.cyc.start * nsUnit)) (s.blk.atTrigger n).tm.phys r hw
  rw [← hx, ← hctm] at hst
  generalize (s.blk.atTrigger n).triggerOne e (stwOf (s.blk.cyc.start * nsUnit)) = c at *
  obtain ⟨hnone, hpc, hg, hf, huse, hready⟩ := hst
  refine leadsTo_intro ho fun u => ?_
  simp only [withTags_nowNs, Block.withTags_flag, withTags_running, Block.withTags_eng, Block.withTags_cyc, Block.withTags_tm]
  exact ⟨hnone, hpc, hg, hf, huse, hready, hcrun, hwait, triggerDone_cyc c, hnow, hothers, hframe u⟩

/-- A lost trigger: MIN stays and slack 0 is recorded, and the engine goes on as it was. -/
theorem cycleTrigger_loses {s : State} {e : Fin 16} {n : Nat} (h : s.blk.cyc.triggerAt = some n) (hrun : s.blk.running e = true)
    (hrel : (s.blk.eng[e]).reloc = false) (hin : (s.blk.eng[e]).inBoundary (s.blk.reachNs n).tm.phys = false)
    (ha : aloneRuns s.blk e) :
    ∃ t, exec .cycleTrigger s = .next t ∧ t.blk.flag (SYS_LWM_GAL_OVR e) = true ∧
      t.blk.get (SYS_LWM_GAL_MIN e) = s.blk.get (SYS_LWM_GAL_MIN e) ∧
      t.blk.get (GAL_SLACK_MIN e) = 0 ∧ (t.blk.eng[e]).trig = none ∧ (t.blk.eng[e]).g = (s.blk.eng[e]).g ∧
      (t.blk.eng[e]).pc = (s.blk.eng[e]).pc ∧ (t.blk.eng[e]).wait = (s.blk.eng[e]).wait ∧ t.blk.running e = true ∧
      t.blk.cyc.triggerAt = none ∧ (∀ m : Fin 16, m ≠ e → t.blk.eng[m] = s.blk.eng[m]) ∧
      FrameOn (triggerTouch e) [.eng, .tm, .trc, .host, .out, .cyc, .pair] s t := by
  have heng := atTrigger_eng s.blk n
  obtain ⟨⟨v, hbec⟩, hcrun, hovr, hmin, hslack, hch⟩ := triggerOne_loses (b := s.blk.atTrigger n) (e := e)
    (stwOf (s.blk.cyc.start * nsUnit)) (by rw [atTrigger_running, hrun]) (by rw [heng, hrel]) (by rw [heng, atTrigger_tm, hin])
  have ho := exec_cycleTrigger_alone h ha rfl hbec hch
  have hframe := fun u => trigger_frame (s := s) (n := n) (e := e) (u := u) hch
  rw [atTrigger_running, hrun] at hcrun
  rw [atTrigger_get] at hmin
  obtain ⟨hx, hothers⟩ := hbec
  rw [heng] at hx hothers
  generalize (s.blk.atTrigger n).triggerOne e (stwOf (s.blk.cyc.start * nsUnit)) = c at *
  refine leadsTo_intro ho fun u => ?_
  simp only [Block.withTags_get, Block.withTags_flag, withTags_running, Block.withTags_eng, Block.withTags_cyc, triggerDone_eng, hx]
  simp only [true_and]
  exact ⟨hovr, hmin, hslack, hcrun, triggerDone_cyc c, hothers, hframe u⟩

/-- The engine whose pending START has been taken up, and the block besides. -/
theorem triggerOne_takes {b : Block} {e : Fin 16} (w : Word) (hrun : b.running e = false) (hrel : b.eng[e].reloc = false)
    (hst : b.eng[e].startPend = true) (hbank : b.banksPending e = false) :
    b.becomes e { b.eng[e] with startPend := false, startAt := some b.tm.phys, trig := some w } (b.triggerOne e w) ∧
      (b.triggerOne e w).regs = b.regs ∧ b.only [.eng] (b.triggerOne e w) := by
  rw [triggerOne_starts w hrun hrel hst hbank]
  exact ⟨becomes_mapE b e _, Block.mapE_regs b e _, mapE_only b e _⟩

/-- A pending START is taken up with the trigger pending. -/
theorem cycleTrigger_starts {s : State} {e : Fin 16} {n : Nat} (h : s.blk.cyc.triggerAt = some n) (hrun : s.blk.running e = false)
    (hrel : (s.blk.eng[e]).reloc = false) (hst : (s.blk.eng[e]).startPend = true) (hbank : s.blk.banksPending e = false)
    (ha : aloneRuns s.blk e) :
    ∃ t, exec .cycleTrigger s = .next t ∧
      t.blk.eng[e] = { s.blk.eng[e] with
        startPend := false, startAt := some t.blk.tm.phys
        trig := some (stwOf (s.blk.cyc.start * nsUnit)) } ∧
      (∀ m : Fin 16, m ≠ e → t.blk.eng[m] = s.blk.eng[m]) ∧ Frame [] [.eng, .tm, .cyc, .pair] s t := by
  have heng := atTrigger_eng s.blk n
  obtain ⟨hbec, hcregs, hconly⟩ := triggerOne_takes (b := s.blk.atTrigger n) (e := e) (stwOf (s.blk.cyc.start * nsUnit))
    (by rw [atTrigger_running, hrun]) (by rw [heng, hrel]) (by rw [heng, hst]) (by rw [atTrigger_banks, hbank])
  have ho := exec_cycleTrigger_alone h ha rfl hbec (changes_of_only hcregs hconly)
  have hregs := hcregs.trans (atTrigger_regs s.blk n)
  have honly := only_trans (l := [.eng, .tm, .cyc, .pair]) (only_mono (atTrigger_only s.blk n) (by simp))
    (only_mono hconly (by simp))
  obtain ⟨hx, hothers⟩ := hbec
  rw [heng, ← only_tm hconly (by simp)] at hx
  rw [heng] at hothers
  generalize (s.blk.atTrigger n).triggerOne e (stwOf (s.blk.cyc.start * nsUnit)) = c at *
  refine leadsTo_intro ho fun u => ?_
  rw [Block.withTags_eng, triggerDone_eng]
  exact ⟨hx, hothers, frame_intro (keeps_of_regs hregs) (only_trans honly (only_mono (triggerDone_only c) (by simp)))⟩

/-- Settles O26: a trigger does nothing at the engines that ignore it, and at the engine that is left it ends the boundary wait, is
lost, or takes up the pending START (R34, R174 to R176). -/
theorem cycleTriggers : Obligations.CycleTriggers := by
  unfold Obligations.CycleTriggers
  refine ⟨?_, ?_, ?_, ?_⟩
  · intro s e n gr tf h hrun hrel hw hfrom ha
    exact cycleTrigger_releases h hrun hrel hw hfrom ha
  · intro s e n h hrun hrel hin ha
    exact cycleTrigger_loses h hrun hrel hin ha
  · intro s e n h hrun hrel hst hbank ha
    exact cycleTrigger_starts h hrun hrel hst hbank ha
  · intro s h
    exact leadsTo_intro (exec_cycleTrigger_none h) fun u => frame_intro (keeps_refl _ _) (only_refl _ _)

end Sys2Proof.Machine
end

section
/-! SUPPORT. An instruction that executes: the clocks at its first tick, and what a completed instruction leaves (R135 to R138). -/

namespace Sys2Proof.Machine

/-! ### The clocks at the first tick of an instruction (R135) -/

theorem clockAt_withTm (b : Block) (p : Nat) : b.clockAt p = b.withTm (b.clockAt p).tm := by
  unfold Block.clockAt
  split
  · exact reachPhys_withTm b p
  · rfl

theorem toPresent_withTm (b : Block) (d : Nat) : b.toPresent d = b.withTm (b.toPresent d).tm := rfl

theorem clockAt_phys (b : Block) (p : Nat) : (b.clockAt p).tm.phys = p := by
  unfold Block.clockAt
  split
  · rename_i h
    exact (reachPhys_phys b p).trans (Nat.max_eq_right h)
  · rfl

section
variable (b : Block) (e : Fin 16)

theorem atFirst_withTm : b.atFirst e = b.withTm (b.atFirst e).tm := clockAt_withTm b _

theorem atFirst_phys : (b.atFirst e).tm.phys = b.firstTick e := clockAt_phys b _

theorem atFirst_regs : (b.atFirst e).regs = b.regs := by rw [atFirst_withTm, withTm_regs]

theorem atFirst_eng : (b.atFirst e).eng = b.eng := by rw [atFirst_withTm, withTm_eng]

theorem atFirst_cyc : (b.atFirst e).cyc = b.cyc := by rw [atFirst_withTm, withTm_cyc]

theorem atFirst_reg (a : Nat) : (b.atFirst e).reg a = b.reg a := by rw [atFirst_withTm, withTm_reg]

theorem atFirst_get (f : Field) : (b.atFirst e).get f = b.get f := by rw [atFirst_withTm, withTm_get]

theorem atFirst_flag (f : Field) : (b.atFirst e).flag f = b.flag f := by rw [atFirst_withTm, withTm_flag]

theorem atFirst_only : b.only [.tm] (b.atFirst e) := by
  rw [atFirst_withTm]
  exact withTm_only b _

theorem atFirst_changes (touch : Nat → Bool) : b.changes touch [.tm] (b.atFirst e) :=
  changes_of_only (atFirst_regs b e) (atFirst_only b e)

end

/-! ### An instruction whose predicate holds -/

/-- The block once `a` has been carried out: the clocks return to the present. -/
def Block.carried (b : Block) (e : Fin 16) (insn : Word) (a : Act) : Block :=
  (b.atFirst e).carry e (b.firstTick e) (b.atFirst e).stw insn 0 a

/-- The clocks of a block return to the present of `b`. -/
def Block.backTo (b r : Block) : Block := r.toPresent (b.tm.phys - r.tm.phys)

theorem runIf_stands {b : Block} {e : Fin 16} {insn : Word} {chk : Nat} {psel : BitVec 4} (act : Block → Act)
    (h : b.stands e insn chk psel) : b.runIf e insn chk psel .none act = b.backTo (b.carried e insn (act (b.atFirst e))) := by
  obtain ⟨hready, hword, hchk, hpred, -⟩ := h
  have hp : (b.atFirst e).eng[e].pred psel = true := by rw [atFirst_eng, hpred]
  have hw : (b.eng[e].word b.eng[e].pc == insn) = true := by rw [hword]; exact beq_self_eq_true insn
  have hn1 : (Upset.none == Upset.storeTwo) = false := rfl
  have hn2 : (Upset.none == Upset.regTwice) = false := rfl
  have hn3 : (Upset.none == Upset.regOnce) = false := rfl
  simp only [Block.atFirst, Block.firstTick] at hp
  simp only [Block.runIf, hready, hw, Bool.and_self, if_true, Block.runWord, hchk, hp, hn1, hn2, hn3, Bool.false_eq_true, if_false,
    ne_eq, not_true_eq_false, Block.backTo, Block.carried, Block.atFirst, Block.firstTick]

section
variable (b r : Block)

theorem backTo_withTm : b.backTo r = r.withTm (b.backTo r).tm := toPresent_withTm r _

theorem backTo_reg (a : Nat) : (b.backTo r).reg a = r.reg a := by rw [backTo_withTm, withTm_reg]

theorem backTo_get (f : Field) : (b.backTo r).get f = r.get f := by rw [backTo_withTm, withTm_get]

theorem backTo_flag (f : Field) : (b.backTo r).flag f = r.flag f := by rw [backTo_withTm, withTm_flag]

theorem backTo_eng : (b.backTo r).eng = r.eng := by rw [backTo_withTm, withTm_eng]

theorem backTo_cyc : (b.backTo r).cyc = r.cyc := by rw [backTo_withTm, withTm_cyc]

theorem backTo_changes {touch : Nat → Bool} {ps : List Part} {a : Block} (h : a.changes touch ps r) (hp : .tm ∈ ps) :
    a.changes touch ps (b.backTo r) := by
  rw [backTo_withTm]
  exact changes_part h (withTm_regs _ _) (only_mono (withTm_only r _) (by simp [hp]))

end

/-! ### An instruction that goes on to PC + 1 -/

/-- The block `c` that an instruction leads to, once it has completed after `cost` ticks. -/
def Block.goesOn (b : Block) (e : Fin 16) (insn : Word) (c : Block) (cost : Nat) (res : Word) (refused : Bool) : Block :=
  (c.mapE e (fun x => x.after (b.firstTick e) cost (b.eng[e].pc + 1))).completed e (b.firstTick e) (b.atFirst e).stw insn b.eng[e].pc
    cost false refused false false 0 res

theorem carried_go {b : Block} {e : Fin 16} {insn : Word} {c : Block} {cost : Nat} {res : Word} {refused : Bool}
    (hpc : b.eng[e].pc < 32767) : b.carried e insn (.go c cost res refused) = b.goesOn e insn c cost res refused := by
  have hne : b.eng[e].pc ≠ 32767 := Nat.ne_of_lt hpc
  have hp : ((0 : Nat) != 0) = false := rfl
  simp only [Block.carried, Block.carry, atFirst_eng, if_neg hne, Nat.zero_add, hp, Block.goesOn]

section
variable {b c : Block} {e : Fin 16} (insn : Word) (cost : Nat) (res : Word) (refused : Bool)

theorem goesOn_becomes {a : Block} {x : Engine} (h : a.becomes e x c) : ∃ r,
    a.becomes e ((x.after (b.firstTick e) cost (b.eng[e].pc + 1)).seenDone r) (b.goesOn e insn c cost res refused) := by
  have hafter := becomes_step h (fun x => x.after (b.firstTick e) cost (b.eng[e].pc + 1))
  obtain ⟨r, hr⟩ := completed_becomes (c.mapE e (fun x => x.after (b.firstTick e) cost (b.eng[e].pc + 1))) e (b.firstTick e)
    (b.atFirst e).stw insn b.eng[e].pc cost false refused false false 0 res
  rw [hafter.1] at hr
  exact ⟨r, becomes_trans hafter hr⟩

theorem goesOn_changes {touch : Nat → Bool} {ps : List Part} {a : Block} (h : a.changes touch ps c)
    (ht : ∀ x, galTouch x = true → touch x = true) (hp : [.eng, .trc, .host, .out] ⊆ ps) :
    a.changes touch ps (b.goesOn e insn c cost res refused) :=
  changes_trans (changes_mapE h e _ (hp (by simp))) (changes_mono (completed_changes _ _ _ _ _ _ _ _ _ _ _ _ _) ht hp)

/-- A field that no counter holds reads after the instruction as its effect left it. -/
theorem goesOn_get {f : Field} (hf : galTouch f.addr = false) : (b.goesOn e insn c cost res refused).get f = c.get f :=
  changes_get (goesOn_changes insn cost res refused (changes_refl _ _ c) (fun _ h => h) (List.Subset.refl _)) hf

theorem goesOn_cyc : (b.goesOn e insn c cost res refused).cyc = c.cyc :=
  only_cyc (goesOn_changes insn cost res refused (changes_refl galTouch [.eng, .trc, .host, .out] c) (fun _ h => h)
    (List.Subset.refl _)).2 (by simp)

end

/-! ### The command of an instruction -/

section
variable {s : State} {e : Fin 16} {insn : Word} {chk : Nat} {psel : BitVec 4} (act : Block → Act)
variable (h : s.blk.stands e insn chk psel)
include h

/-- The command of an instruction that executes. -/
theorem done_stands : (done s fun b => b.runIf e insn chk psel .none act) =
    leadsTo s (s.blk.backTo (s.blk.carried e insn (act (s.blk.atFirst e)))) := done_leadsTo (runIf_stands act h)

/-- The command of an instruction that goes on. -/
theorem done_go {c : Block} {cost : Nat} {res : Word} {refused : Bool} (ha : act (s.blk.atFirst e) = .go c cost res refused) :
    (done s fun b => b.runIf e insn chk psel .none act) = leadsTo s (s.blk.backTo (s.blk.goesOn e insn c cost res refused)) := by
  rw [done_stands act h, ha]
  obtain ⟨-, -, -, -, hpc⟩ := h
  rw [carried_go hpc]

end

section
variable {s : State} {e : Fin 16} {c : Block} {f : Engine → Engine} {insn : Word} {cost : Nat} {res : Word} {refused : Bool}
  {regs : Nat → Bool} {ps : List Part} {u : SMap (BitVec 8)}

/-- An instruction whose effect is `f` on its engine, and further registers and parts, executed. -/
theorem executed_goesOn (hbec : s.blk.becomes e (f (s.blk.eng[e])) c) (huse : (f (s.blk.eng[e])).use = (s.blk.eng[e]).use)
    (hch : s.blk.changes (fun a => galTouch a || regs a) ([.eng, .tm, .trc, .host, .out] ++ ps) c) :
    Executed e f cost ((s.blk.eng[e]).pc + 1) regs ps s
      ⟨(s.blk.backTo (s.blk.goesOn e insn c cost res refused)).withTags u, s.pending⟩ := by
  obtain ⟨r, hx, hothers⟩ := goesOn_becomes (b := s.blk) insn cost res refused hbec
  have hgo := goesOn_changes (b := s.blk) (e := e) insn cost res refused hch (fun a ha => by simp only [ha, Bool.true_or]) (by simp)
  refine ⟨⟨some r, ?_⟩, fun m hm => ?_, frameOn_intro (backTo_changes s.blk _ hgo (by simp))⟩
  · rw [Block.withTags_eng, backTo_eng, hx]
    simp only [Engine.seenDone, Engine.after, huse]
  · rw [Block.withTags_eng, backTo_eng, hothers m hm]

/-- An instruction whose effect is `f` on its engine, and what the counters see. -/
theorem computes_mapE {d : Block} (hd : (s.blk.atFirst e).counted d) (huse : (f (s.blk.eng[e])).use = (s.blk.eng[e]).use) :
    Computes e f cost s ⟨(s.blk.backTo (s.blk.goesOn e insn (d.mapE e f) cost res refused)).withTags u, s.pending⟩ := by
  have heng : d.eng = s.blk.eng := (only_eng hd.2 (by simp)).trans (atFirst_eng s.blk e)
  have hbec := becomes_from (becomes_mapE d e f) heng
  rw [heng] at hbec
  have hd2 : s.blk.changes (fun a => galTouch a || false) ([.eng, .tm, .trc, .host, .out] ++ []) d :=
    changes_counted (changes_mono (atFirst_changes s.blk e _) (fun _ h => h) (by simp)) hd
      (fun a ha => by simp only [ha, Bool.true_or]) (by simp)
  exact executed_goesOn hbec huse (changes_mapE hd2 e f (by simp))

end

@[simp] theorem wr_use (x : Engine) (d : BitVec 6) (v : Word) : (x.wr d v).use = x.use := by
  unfold Engine.wr
  split <;> rfl

@[simp] theorem wf_use (x : Engine) (i : BitVec 3) (v : Bool) : (x.wf i v).use = x.use := by
  unfold Engine.wf
  split <;> rfl

/-- What a register reads after a write of it rests on the value alone. -/
theorem rd_wr_same (x y : Engine) (d : BitVec 6) (v : Word) : (x.wr d v).rd d = (y.wr d v).rd d := by
  unfold Engine.rd Engine.wr
  split
  · rfl
  · simp

end Sys2Proof.Machine
end

section
/-! RAISE, SIG, RDPRF and CALSLOT as they execute (R32, R156, R163, R164). -/

namespace Sys2Proof.Machine

/-! ### RAISE (R163) -/

theorem galTouch_cause (e : Fin 16) : galTouch (GAL_CAUSE e) = false := galTouch_galReg e (o := 0x30) (by decide)

/-- A field that no counter holds reads after a cause as the cause alone leaves it. -/
theorem galCause_get (b : Block) (f : Field) (n : Nat) {g : Field} (hg : galTouch g.addr = false) :
    (b.galCause f n).get g = (b.putB f true).get g :=
  changes_get (raise_changes (touch := galTouch) (ps := [.host, .out]) (b.putB f true) (evGalEng n) (fun _ => galTouch_of_evTouch)
    (List.Subset.refl _)) hg

section
variable (b : Block) (e : Fin 16) (code : Nat)

/-- RAISE records its code, counts, and sets its cause. -/
theorem raiseCode_get : (b.raiseCode e code).get (GAL_CAUSE_RCODE e) = code % 2 ^ 16 ∧
    (b.raiseCode e code).flag (GAL_CAUSE_RAISE e) = true ∧
    (b.raiseCode e code).get (GAL_CAUSE_RCNT e) = sat (2 ^ (GAL_CAUSE_RCNT e).w - 1) (b.get (GAL_CAUSE_RCNT e) + 1) := by
  have hg := galTouch_cause e
  refine ⟨?_, ?_, ?_⟩
  · rw [Block.raiseCode, galCause_get _ _ _ hg, Block.incSat]
    simp
  · rw [Block.flag, Block.raiseCode, galCause_get _ _ _ hg]
    exact Block.flag_putB_same _ _ _ (by simp) rfl
  · rw [Block.raiseCode, galCause_get _ _ _ hg, Block.get_putB_apart _ _ _ _ (by simp), Block.incSat,
      Block.get_put_same _ _ _ (by simp), Block.get_put_apart _ _ _ _ (by simp)]
    exact Nat.mod_eq_of_lt (sat_lt _ _)

theorem raiseCode_eng : (b.raiseCode e code).eng = b.eng := only_eng (raise_only _ _) (by simp)

theorem raiseCode_changes : b.changes (fun a => galTouch a || a == GAL_CAUSE e) [.host, .out] (b.raiseCode e code) :=
  changes_raise (changes_putB (changes_put (changes_put (changes_refl _ _ b) (by simp)) (by simp)) (by simp))
    (fun a ha => by simp only [galTouch_of_evTouch ha, Bool.true_or]) (List.Subset.refl _)

end

theorem raise_executes {s : State} {e : Fin 16} {f : FormB}
    (h : s.blk.stands e (encodeB Op.raise_.code f) (checkB .raise_ f) f.psel) :
    ∃ t, exec (.raise e f .none) s = .next t ∧ Executed e id 2 ((s.blk.eng[e]).pc + 1) (fun a => a == GAL_CAUSE e) [] s t ∧
      t.blk.get (GAL_CAUSE_RCODE e) = f.imm.toNat % 2 ^ 16 ∧ t.blk.flag (GAL_CAUSE_RAISE e) = true ∧
      t.blk.get (GAL_CAUSE_RCNT e) = sat (2 ^ (GAL_CAUSE_RCNT e).w - 1) (s.blk.get (GAL_CAUSE_RCNT e) + 1) := by
  obtain ⟨hcode, hflag, hcnt⟩ := raiseCode_get (s.blk.atFirst e) e (f.imm.toNat % 2 ^ 16)
  have hbec := becomes_of_eng (becomes_from (becomes_refl (s.blk.atFirst e) e) (atFirst_eng s.blk e))
    (raiseCode_eng (s.blk.atFirst e) e (f.imm.toNat % 2 ^ 16))
  rw [atFirst_eng] at hbec
  have hch := changes_trans (ps := [.eng, .tm, .trc, .host, .out] ++ [])
    (changes_mono (atFirst_changes s.blk e _) (fun _ h => h) (by simp))
    (changes_mono (raiseCode_changes (s.blk.atFirst e) e (f.imm.toNat % 2 ^ 16)) (fun _ h => h) (by simp))
  refine leadsTo_intro ((exec_raise s).trans (done_go _ h rfl)) fun u => ⟨executed_goesOn hbec rfl hch, ?_⟩
  have hget : ∀ g : Field, galTouch g.addr = false → ((s.blk.backTo (s.blk.goesOn e (encodeB Op.raise_.code f)
      ((s.blk.atFirst e).raiseCode e (f.imm.toNat % 2 ^ 16)) 2 0 false)).withTags u).get g =
      ((s.blk.atFirst e).raiseCode e (f.imm.toNat % 2 ^ 16)).get g := fun g hg => by
    rw [Block.withTags_get, backTo_get, goesOn_get _ _ _ _ hg]
  rw [Nat.mod_mod] at hcode
  rw [atFirst_get] at hcnt
  refine ⟨(hget _ (galTouch_cause e)).trans hcode, ?_, (hget _ (galTouch_cause e)).trans hcnt⟩
  rw [Block.flag, hget _ (galTouch_cause e), ← Block.flag, hflag]

end Sys2Proof.Machine
end

section
/-! SIG, RDPRF and CALSLOT as they execute (R32, R156, R164). -/

namespace Sys2Proof.Machine

/-! ### SIG (R156) -/

theorem bitAt_imm (v : BitVec 44) (m : Fin 16) : bitAt (v.toNat % 2 ^ 16) m = v.getLsbD m := by
  have h : v.getLsbD m = (v.toNat % 2 ^ 16).testBit m := by
    rw [Nat.testBit_mod_two_pow, BitVec.testBit_toNat, decide_eq_true m.isLt, Bool.true_and]
  rw [h, Nat.testBit_eq_decide_div_mod_eq]
  rfl

section
variable (b : Block) (mask : Nat) (bits : BitVec 8) (p : Nat)

/-- An engine after a SIG: a signal on its way, if the mask names it. -/
theorem sendSig_eng (m : Fin 16) : (b.sendSig mask bits p).eng[m] =
    { b.eng[m] with sigPend := b.eng[m].sigPend ++ if bitAt mask m then [(p, bits)] else [] } := by
  simp only [Block.sendSig, Fin.getElem_fin, Vector.getElem_mapIdx]
  split
  · rfl
  · rw [List.append_nil]

theorem sendSig_only : b.only [.eng] (b.sendSig mask bits p) := by simp [Block.only, Block.sendSig]

theorem sendSig_regs : (b.sendSig mask bits p).regs = b.regs := rfl

end

/-- What the other instructions of an engine see of it stays as the effect of this one left it. -/
theorem goesOn_stores (b c : Block) (e : Fin 16) (insn : Word) (cost : Nat) (res : Word) (refused : Bool) (m : Fin 16) :
    ((b.goesOn e insn c cost res refused).eng[m]).sigPend = (c.eng[m]).sigPend ∧
      ((b.goesOn e insn c cost res refused).eng[m]).g = (c.eng[m]).g ∧
      ((b.goesOn e insn c cost res refused).eng[m]).f = (c.eng[m]).f ∧
      ((b.goesOn e insn c cost res refused).eng[m]).data = (c.eng[m]).data := by
  obtain ⟨r, hx, hothers⟩ := goesOn_becomes (b := b) insn cost res refused (becomes_refl c e)
  by_cases hm : m = e
  · subst hm
    rw [hx]
    exact ⟨rfl, rfl, rfl, rfl⟩
  · rw [hothers m hm]
    exact ⟨rfl, rfl, rfl, rfl⟩

/-- The engine that executed stands at the next word, due `cost` ticks after its first. -/
theorem goesOn_next (b c : Block) (e : Fin 16) (insn : Word) (cost : Nat) (res : Word) (refused : Bool) :
    ((b.goesOn e insn c cost res refused).eng[e]).pc = (b.eng[e]).pc + 1 ∧
      ((b.goesOn e insn c cost res refused).eng[e]).readyAt = b.firstTick e + cost * tick := by
  obtain ⟨r, hx, -⟩ := goesOn_becomes (b := b) insn cost res refused (becomes_refl c e)
  rw [hx]
  exact ⟨rfl, rfl⟩

theorem sig_sends {s : State} {e : Fin 16} {f : FormB} (h : s.blk.stands e (encodeB Op.sig.code f) (checkB .sig f) f.psel) :
    ∃ t, exec (.sig e f .none) s = .next t ∧ (∀ m : Fin 16, (t.blk.eng[m]).sigPend = (s.blk.eng[m]).sigPend ++
        (if f.imm.getLsbD m then [(s.blk.firstTick e + 3 * tick, f.imm.extractLsb' 16 8)] else []) ∧
      (t.blk.eng[m]).g = (s.blk.eng[m]).g ∧ (t.blk.eng[m]).f = (s.blk.eng[m]).f ∧ (t.blk.eng[m]).data = (s.blk.eng[m]).data) ∧
      (t.blk.eng[e]).pc = (s.blk.eng[e]).pc + 1 ∧ (t.blk.eng[e]).readyAt = s.blk.firstTick e + 2 * tick ∧
      FrameOn galTouch [.eng, .tm, .trc, .host, .out] s t := by
  have hsend := sendSig_eng (s.blk.atFirst e) (f.imm.toNat % 2 ^ 16) (f.imm.extractLsb' 16 8) ((s.blk.atFirst e).tm.phys + 3 * tick)
  have honly := sendSig_only (s.blk.atFirst e) (f.imm.toNat % 2 ^ 16) (f.imm.extractLsb' 16 8) ((s.blk.atFirst e).tm.phys + 3 * tick)
  have hregs := sendSig_regs (s.blk.atFirst e) (f.imm.toNat % 2 ^ 16) (f.imm.extractLsb' 16 8) ((s.blk.atFirst e).tm.phys + 3 * tick)
  refine leadsTo_intro ((exec_sig s).trans (done_go _ h rfl)) fun u => ?_
  generalize (s.blk.atFirst e).sendSig (f.imm.toNat % 2 ^ 16) (f.imm.extractLsb' 16 8) ((s.blk.atFirst e).tm.phys + 3 * tick) = c
    at hsend honly hregs
  have hch : s.blk.changes galTouch [.eng, .tm, .trc, .host, .out] c :=
    changes_part (changes_mono (atFirst_changes s.blk e galTouch) (fun _ h => h) (by simp)) hregs (only_mono honly (by simp))
  obtain ⟨hpc, hready⟩ := goesOn_next s.blk c e (encodeB Op.sig.code f) 2 0 false
  rw [Block.withTags_eng, backTo_eng]
  refine ⟨fun m => ?_, hpc, hready, frameOn_intro (backTo_changes s.blk _ (goesOn_changes _ _ _ _ hch (fun _ h => h) (by simp))
    (by simp))⟩
  obtain ⟨hsig, hg, hf, hdata⟩ := goesOn_stores s.blk c e (encodeB Op.sig.code f) 2 0 false m
  rw [hsig, hg, hf, hdata, hsend m, atFirst_eng, atFirst_phys, bitAt_imm]
  exact ⟨rfl, rfl, rfl, rfl⟩

/-! ### RDPRF (R164) -/

theorem priv_atFirst (b : Block) (e : Fin 16) : (b.atFirst e).priv e = b.priv e := atFirst_flag b e _

theorem rdprf_computes {s : State} {e : Fin 16} {f : FormA} (h : s.blk.stands e (encodeA Op.rdprf.code f) (checkA .rdprf f) f.psel)
    (hp : s.blk.priv e = true ∨ s.blk.flag PRF_CTL_UREAD = true) :
    ∃ t, exec (.rdprf e f .none) s = .next t ∧ Computes e
      (fun x => x.wr f.d ((s.blk.atFirst e).prfValue e (f.mod.toNat % 32))) 8 s t := by
  have hif : (!(s.blk.atFirst e).priv e && !(s.blk.atFirst e).flag PRF_CTL_UREAD) = false := by
    rw [priv_atFirst, atFirst_flag]
    rcases hp with hp | hp
    · rw [hp, Bool.not_true, Bool.false_and]
    · rw [hp, Bool.not_true, Bool.and_false]
  refine leadsTo_intro ((exec_rdprf s).trans (done_go _ h (by
    simp only [hif, Bool.false_eq_true, if_false, putReg]
    rfl))) fun u => ?_
  exact computes_mapE (counted_refl _) (wr_use _ _ _)

/-! ### CALSLOT (R32) -/

theorem slotOpen_done (b : Block) (scrub : List (Fin 16 × BitVec 16 × Bool)) : (b.slotOpen scrub).cyc.slotDone = true := by
  rw [slotOpen_eq, opened_slotDone]

/-- The condition of a CALSLOT at the first tick of the instruction. -/
def Block.slotMine (b : Block) (e : Fin 16) : Bool := b.get SYS_MSLOT_ENG = e.val && b.cyc.inProg && !b.cyc.slotDone

theorem slotMine_atFirst (b : Block) (e : Fin 16) : (b.atFirst e).slotMine e = b.slotMine e := by
  simp only [Block.slotMine, atFirst_get, atFirst_cyc]

section
variable {s : State} {e : Fin 16} {f : FormA} (scrub : List (Fin 16 × BitVec 16 × Bool))
  (h : s.blk.stands e (encodeA Op.calslot.code f) (checkA .calslot f) f.psel)
include h

theorem exec_calslot_opens (hmine : s.blk.slotMine e = true) : exec (.calslot e f .none scrub) s = leadsTo s
    (s.blk.backTo (s.blk.goesOn e (encodeA Op.calslot.code f) ((s.blk.atFirst e).slotOpen scrub) 2 0 false)) := by
  rw [← slotMine_atFirst] at hmine
  refine (exec_calslot s).trans (done_go _ h ?_)
  simp only [Block.slotMine] at hmine
  simp only [hmine, if_true]

theorem calslot_opens (hmine : s.blk.slotMine e = true) :
    ∃ t, exec (.calslot e f .none scrub) s = .next t ∧ t.blk.cyc.slotDone = true ∧
      (t.blk.eng[e]).pc = (s.blk.eng[e]).pc + 1 ∧ (t.blk.eng[e]).readyAt = s.blk.firstTick e + 2 * tick := by
  refine leadsTo_intro (exec_calslot_opens scrub h hmine) fun u => ?_
  obtain ⟨hpc, hready⟩ := goesOn_next s.blk ((s.blk.atFirst e).slotOpen scrub) e (encodeA Op.calslot.code f) 2 0 false
  rw [Block.withTags_eng, Block.withTags_cyc, backTo_eng, backTo_cyc, goesOn_cyc, slotOpen_done]
  exact ⟨rfl, hpc, hready⟩

theorem calslot_passes (hmine : s.blk.slotMine e = false) :
    ∃ t, exec (.calslot e f .none scrub) s = .next t ∧ Computes e id 2 s t := by
  rw [← slotMine_atFirst] at hmine
  simp only [Block.slotMine] at hmine
  refine leadsTo_intro ((exec_calslot s).trans (done_go _ h (c := s.blk.atFirst e) (cost := 2) (res := 0) (refused := false) (by
    simp only [hmine, Bool.false_eq_true, if_false]))) fun u => ?_
  have hbec := becomes_from (becomes_refl (s.blk.atFirst e) e) (atFirst_eng s.blk e)
  rw [atFirst_eng] at hbec
  exact executed_goesOn hbec rfl (changes_mono (atFirst_changes s.blk e _) (fun _ h => h) (by simp))

end

end Sys2Proof.Machine
end

section
/-! CALSLOT where the slot serves nothing, and CFGR and CFGW as they execute (R32, R165, R183, R552). -/

namespace Sys2Proof.Machine

/-! ### A CALSLOT that opens a slot with nothing to serve (R32, R183) -/

theorem nothingServed_atFirst {b : Block} (h : nothingServed b) (e : Fin 16) : nothingServed (b.atFirst e) := by
  rw [atFirst_withTm]
  exact h

theorem scrubbed_withTm (b : Block) (t : TimeSt) (m : Fin 16) (us : Nat) : scrubbed (b.withTm t) m us = scrubbed b m us := rfl

theorem scrubbed_atFirst (b : Block) (e m : Fin 16) (us : Nat) : scrubbed (b.atFirst e) m us = scrubbed b m us := by
  rw [atFirst_withTm, scrubbed_withTm]

/-- What a slot that serves nothing may touch. -/
def idleTouch (a : Nat) : Bool := galTouch a || a == CAL_STAT

theorem idleOpen_changes (b : Block) (us : Nat) : b.changes idleTouch [.cyc, .eng] ((b.idleWork us).opened us) := by
  have hwork : b.changes idleTouch [.cyc, .eng] (b.idleWork us) := by
    refine ⟨fun a ha => (idleWork_keeps b us).2 a ?_, idleWork_only b us⟩
    have hne : a ≠ CAL_STAT := fun h => by simp [idleTouch, h] at ha
    simpa using hne
  exact changes_part hwork (opened_regs _ _) (only_mono (opened_only _ _) (by simp))

theorem calslot_checks {s : State} {e : Fin 16} {f : FormA}
    (h : s.blk.stands e (encodeA Op.calslot.code f) (checkA .calslot f) f.psel) (hmine : s.blk.slotMine e = true)
    (hn : nothingServed s.blk) :
    ∃ t, exec (.calslot e f .none []) s = .next t ∧
      (∃ r : Option TraceRec, t.blk.eng[e] = { scrubbed s.blk e (s.blk.get SYS_MSLOT_LENF) with
        pc := (s.blk.eng[e]).pc + 1, readyAt := s.blk.firstTick e + 2 * tick, use := (s.blk.eng[e]).use + 2
        overrun := false, lastRec := r, seen := 0, seenWait := 0 }) ∧
      (∀ m : Fin 16, m ≠ e → t.blk.eng[m] = scrubbed s.blk m (s.blk.get SYS_MSLOT_LENF)) ∧
      FrameOn (fun a => galTouch a || a == CAL_STAT) [.eng, .tm, .trc, .host, .out, .cyc] s t ∧ t.blk.cyc.slotDone = true ∧
      t.blk.cyc.slotClose = some ((s.blk.atFirst e).nowNs + s.blk.get SYS_MSLOT_LENF * 1000) := by
  have hopen := slotOpen_idle (nothingServed_atFirst hn e)
  rw [atFirst_get] at hopen
  have heng : ∀ m : Fin 16, ((s.blk.atFirst e).slotOpen []).eng[m] = scrubbed s.blk m (s.blk.get SYS_MSLOT_LENF) := fun m => by
    rw [hopen, opened_eng, idleWork_eng, scrubbed_atFirst]
  have hclose : ((s.blk.atFirst e).slotOpen []).cyc.slotClose =
      some ((s.blk.atFirst e).nowNs + s.blk.get SYS_MSLOT_LENF * 1000) := by
    rw [hopen, opened_slotClose, idleWork_nowNs]
  have hdone := slotOpen_done (s.blk.atFirst e) []
  have hch : s.blk.changes idleTouch [.eng, .tm, .trc, .host, .out, .cyc] ((s.blk.atFirst e).slotOpen []) := by
    rw [hopen]
    exact changes_trans (changes_mono (atFirst_changes s.blk e _) (fun _ h => h) (by simp))
      (changes_mono (idleOpen_changes _ _) (fun _ h => h) (by simp))
  refine leadsTo_intro (exec_calslot_opens [] h hmine) fun u => ?_
  generalize (s.blk.atFirst e).slotOpen [] = c at heng hclose hdone hch
  obtain ⟨r, hx, hothers⟩ := goesOn_becomes (b := s.blk) (encodeA Op.calslot.code f) 2 0 false (becomes_refl c e)
  rw [heng e] at hx
  rw [Block.withTags_eng, Block.withTags_cyc, backTo_eng, backTo_cyc, goesOn_cyc]
  refine ⟨⟨some r, hx⟩, fun m hm => (hothers m hm).trans (heng m), ?_, hdone, hclose⟩
  exact frameOn_intro (backTo_changes s.blk _ (goesOn_changes _ _ _ _ hch (fun a ha => by simp only [ha, Bool.true_or])
    (by simp)) (by simp))

/-! ### CFGR (R165) -/

section
variable (b : Block) (t : TimeSt) (e : Fin 16) (f : FormB) (a : Nat)

theorem cfgAddr_withTm : cfgAddr (b.withTm t) e f = cfgAddr b e f := rfl

theorem cfgTrap_withTm : cfgTrap (b.withTm t) e a = cfgTrap b e a := rfl

theorem cfgReaches_withTm : (b.withTm t).cfgReaches a = b.cfgReaches a := rfl

theorem cfgAddr_atFirst : cfgAddr (b.atFirst e) e f = cfgAddr b e f := by rw [atFirst_withTm, cfgAddr_withTm]

theorem cfgTrap_atFirst : cfgTrap (b.atFirst e) e a = cfgTrap b e a := by rw [atFirst_withTm, cfgTrap_withTm]

theorem cfgReaches_atFirst : (b.atFirst e).cfgReaches a = b.cfgReaches a := by rw [atFirst_withTm, cfgReaches_withTm]

end

/-- The block once a configuration access is counted. -/
def Block.cfgCounted (b : Block) (e : Fin 16) : Block := (b.atFirst e).engEvent e 14 1

theorem cfgCounted_counted (b : Block) (e : Fin 16) : (b.atFirst e).counted (b.cfgCounted e) := engEvent_counted e.isLt _ _ _

/-- A plain register reads without an effect. -/
theorem plain_freshen {a : Nat} (h : plainReg a = true) (b : Block) :
    b.freshen a = b ∧ b.afterRead a = b ∧ b.cfgValue a = b.reg a ∧ galTouch a = false := by
  simp only [plainReg, within, Bool.not_eq_true', Bool.or_eq_false_iff, beq_eq_false_iff_ne, Bool.and_eq_false_iff,
    decide_eq_false_iff_not] at h
  obtain ⟨⟨⟨⟨⟨⟨⟨⟨hgal, hset⟩, haon⟩, hlast⟩, hgpio⟩, houts⟩, hlane⟩, hsw⟩, hflw⟩ := h
  have hprf : ¬ (0x3C0000 ≤ a ∧ a < 0x3E0000) := fun hr => by
    have hw : within 0x3C0000 0x400000 a = true := by
      simp only [within, Bool.and_eq_true, decide_eq_true_eq]
      omega
    simp only [galTouch, hw, Bool.true_or, Bool.true_eq_false] at hgal
  refine ⟨?_, ?_, ?_, hgal⟩
  · have h1 : ¬ (0x100000 ≤ a ∧ a < 0x124000) := by omega
    have h2 : ¬ (0x90000 ≤ a ∧ a < 0x91000) := by omega
    have h3 : ¬ (0x180000 ≤ a ∧ a < 0x1C0000) := by omega
    have h4 : ¬ (0x300000 ≤ a ∧ a < 0x380000) := by omega
    simp only [Block.freshen, Bool.and_eq_true, decide_eq_true_eq, h1, h2, h3, h4, hprf, haon, hgpio, false_and, if_false]
  · rw [Block.afterRead, if_neg hlast]
  · rw [Block.cfgValue, if_neg hset]

section
variable {s : State} {e : Fin 16} {f : FormB} (h : s.blk.stands e (encodeB Op.cfgr.code f) (checkB .cfgr f) f.psel)
include h

theorem exec_cfgr_reaches (ht : cfgTrap s.blk e (cfgAddr s.blk e f) = 0) (hr : s.blk.cfgReaches (cfgAddr s.blk e f) = true) :
    ∃ res, exec (.cfgr e f .none) s = leadsTo s (s.blk.backTo (s.blk.goesOn e (encodeB Op.cfgr.code f)
      ((((s.blk.cfgCounted e).freshen (cfgAddr s.blk e f)).afterRead (cfgAddr s.blk e f)).mapE e (fun x =>
        (x.wr f.d (((s.blk.cfgCounted e).freshen (cfgAddr s.blk e f)).cfgValue (cfgAddr s.blk e f))).wf f.ofl false))
      30 res false)) := by
  refine ⟨((s.blk.cfgCounted e).freshen (cfgAddr s.blk e f)).cfgValue (cfgAddr s.blk e f), (exec_cfgr s).trans (done_go _ h ?_)⟩
  simp only [cfgAddr_atFirst, cfgTrap_atFirst, cfgReaches_atFirst, ht, hr, ne_eq, not_true_eq_false, if_false, if_true, putFlag,
    Block.cfgCounted]

theorem cfgr_reads (ht : cfgTrap s.blk e (cfgAddr s.blk e f) = 0) (hr : s.blk.cfgReaches (cfgAddr s.blk e f) = true)
    (hp : plainReg (cfgAddr s.blk e f) = true) :
    ∃ t, exec (.cfgr e f .none) s = .next t ∧ Computes e
      (fun x => (x.wr f.d (s.blk.reg (cfgAddr s.blk e f))).wf f.ofl false) 30 s t := by
  obtain ⟨hfresh, hafter, hvalue, hgal⟩ := plain_freshen hp (s.blk.cfgCounted e)
  have hreg : (s.blk.cfgCounted e).reg (cfgAddr s.blk e f) = s.blk.reg (cfgAddr s.blk e f) :=
    ((cfgCounted_counted s.blk e).1 _ hgal).trans (atFirst_reg s.blk e _)
  obtain ⟨res, ho⟩ := exec_cfgr_reaches h ht hr
  rw [hfresh, hafter, hvalue, hreg] at ho
  exact leadsTo_intro ho fun u => computes_mapE (cfgCounted_counted s.blk e) (by rw [wf_use, wr_use])

theorem cfgr_shows (ht : cfgTrap s.blk e (cfgAddr s.blk e f) = 0) (hr : s.blk.cfgReaches (cfgAddr s.blk e f) = true) :
    ∃ t, exec (.cfgr e f .none) s = .next t ∧
      (let b := ((s.blk.atFirst e).engEvent e 14 1).freshen (cfgAddr s.blk e f)
       (t.blk.eng[e]).rd f.d = ((s.blk.eng[e]).wr f.d (b.cfgValue (cfgAddr s.blk e f))).rd f.d) ∧
      (t.blk.eng[e]).pc = (s.blk.eng[e]).pc + 1 ∧ (t.blk.eng[e]).readyAt = s.blk.firstTick e + 30 * tick := by
  obtain ⟨res, ho⟩ := exec_cfgr_reaches h ht hr
  refine leadsTo_intro ho fun u => ?_
  change _ = ((s.blk.eng[e]).wr f.d (((s.blk.cfgCounted e).freshen (cfgAddr s.blk e f)).cfgValue (cfgAddr s.blk e f))).rd f.d ∧ _
  rw [Block.withTags_eng, backTo_eng]
  generalize ((s.blk.cfgCounted e).freshen (cfgAddr s.blk e f)).cfgValue (cfgAddr s.blk e f) = v
  generalize ((s.blk.cfgCounted e).freshen (cfgAddr s.blk e f)).afterRead (cfgAddr s.blk e f) = c
  refine ⟨?_, goesOn_next s.blk _ e (encodeB Op.cfgr.code f) 30 res false⟩
  obtain ⟨-, hg, -, -⟩ := goesOn_stores s.blk (c.mapE e (fun x => (x.wr f.d v).wf f.ofl false)) e (encodeB Op.cfgr.code f) 30 res
    false e
  rw [rd_wr_same _ (c.eng[e])]
  unfold Engine.rd
  rw [hg, mapE_same, wf_g]

theorem cfgr_misses (ht : cfgTrap s.blk e (cfgAddr s.blk e f) = 0) (hr : s.blk.cfgReaches (cfgAddr s.blk e f) = false) :
    ∃ t, exec (.cfgr e f .none) s = .next t ∧ Computes e (fun x => (x.wr f.d 0).wf f.ofl true) 30 s t := by
  refine leadsTo_intro ((exec_cfgr s).trans (done_go _ h (by
    simp only [cfgAddr_atFirst, cfgTrap_atFirst, cfgReaches_atFirst, ht, hr, ne_eq, not_true_eq_false, Bool.false_eq_true, if_false,
      putFlag]
    rfl))) fun u => ?_
  exact computes_mapE (cfgCounted_counted s.blk e) (by rw [wf_use, wr_use])

end

end Sys2Proof.Machine
end

section
/-! CFGW as it executes: EVT_PIN, and a register that does not answer (R80, R165, R533). -/

namespace Sys2Proof.Machine

/-! ### The command of a CFGW -/

section
variable {s : State} {e : Fin 16} {f : FormB} (h : s.blk.stands e (encodeB Op.cfgw.code f) (checkB .cfgw f) f.psel)
include h

/-- A CFGW that executes: the outcome holds the block that its act leads to. -/
theorem cfgw_intro {P : State → Prop} (hP : ∀ u, P ⟨(s.blk.backTo (s.blk.carried e (encodeB Op.cfgw.code f)
      (cfgwAct e f (s.blk.atFirst e)))).withTags u, s.pending⟩) : ∃ t, exec (.cfgw e f .none) s = .next t ∧ P t := by
  refine donePower_intro (exec_cfgw s) fun u => ?_
  rw [runIf_stands (cfgwAct e f) h]
  exact hP u

theorem cfgw_go {P : State → Prop} {c : Block} {cost : Nat} {res : Word} {refused : Bool}
    (ha : cfgwAct e f (s.blk.atFirst e) = .go c cost res refused)
    (hP : ∀ u, P ⟨(s.blk.backTo (s.blk.goesOn e (encodeB Op.cfgw.code f) c cost res refused)).withTags u, s.pending⟩) :
    ∃ t, exec (.cfgw e f .none) s = .next t ∧ P t := by
  refine cfgw_intro h fun u => ?_
  obtain ⟨-, -, -, -, hpc⟩ := h
  rw [ha, carried_go hpc]
  exact hP u

theorem cfgw_misses (ht : cfgTrap s.blk e (cfgAddr s.blk e f) = 0) (hr : s.blk.cfgReaches (cfgAddr s.blk e f) = false) :
    ∃ t, exec (.cfgw e f .none) s = .next t ∧ Computes e (fun x => x.wf f.ofl true) 30 s t := by
  refine cfgw_go h (c := (s.blk.cfgCounted e).mapE e (fun x => x.wf f.ofl true)) (cost := 30) (res := 0) (refused := false) ?_
    fun u => computes_mapE (cfgCounted_counted s.blk e) (wf_use _ _ _)
  simp only [cfgwAct, cfgAddr_atFirst, cfgTrap_atFirst, cfgReaches_atFirst, ht, hr, ne_eq, not_true_eq_false, Bool.false_and,
    Bool.false_eq_true, if_false, Block.cfgCounted]

end

/-! ### CFGW of EVT_PIN (R98) -/

/-- EVT_PIN answers whenever PD3 is on, and no bank lies behind it. -/
theorem cfgReaches_evtPin {b : Block} (h : b.domOn 3 = true) : b.cfgReaches EVT_PIN = true := by
  have hp := pd3Reg_evtPin
  simp only [pd3Reg, Bool.and_eq_true, beq_iff_eq] at hp
  obtain ⟨⟨⟨hreg, hdom⟩, hq⟩, -⟩ := hp
  have hkey : keyReg EVT_PIN = false := by decide
  simp [Block.cfgReaches, hreg, hkey, Block.regOn, Block.relockStops, hdom, hq, h]

theorem cfgBank_evtPin (b : Block) (x : Word) : b.cfgBank EVT_PIN x = false := rfl

theorem cfgTrap_evtPin {b : Block} {e : Fin 16} (h : b.priv e = true) : cfgTrap b e EVT_PIN = 0 := by
  simp only [cfgTrap, h]
  rfl

theorem fieldOf_whole (x y : Word) (lo n : Nat) : fieldOf ((wholeW x).over_ y) lo n = fieldOf x lo n := by
  have hx : (wholeW x).over_ y = x := by
    ext i hi
    simp [wholeW, RegW.over_]
  rw [hx]

/-- A whole write of EVT_PIN stores its 64 bits. -/
theorem regWrite_evtPin_whole (b : Block) (x : Word) : (b.regWrite EVT_PIN (wholeW x)).get EVT_PIN_PIN = x.toNat % 2 ^ 64 ∧
    b.changes (fun a => galTouch a || a == EVT_PIN) [] (b.regWrite EVT_PIN (wholeW x)) := by
  have hmask : (wholeW x).mask ≠ 0 := show BitVec.allOnes 72 ≠ 0 by decide
  have hit : (wholeW x).hits 0 64 = true := show (fieldOf (BitVec.allOnes 72) 0 64 != 0) = true by decide
  obtain ⟨hget, hkeeps⟩ := storeW_field (b := b) (w := wholeW x) regFields_evtPin hit (by decide)
  rw [regWrite_evtPin b hmask]
  refine ⟨?_, fun a ha => hkeeps.2 a ?_, storeW_only [] b _ _⟩
  · rw [hget, List.all_nil, if_pos rfl, fieldOf_whole, fieldOf, Nat.pow_zero, Nat.div_one]
  · have hne : a ≠ EVT_PIN := fun h => by simp [h] at ha
    simpa using hne

theorem cfgw_evtPin {s : State} {e : Fin 16} {f : FormB} (h : s.blk.stands e (encodeB Op.cfgw.code f) (checkB .cfgw f) f.psel)
    (hp : s.blk.priv e = true) (ha : cfgAddr s.blk e f = EVT_PIN) (hon : s.blk.domOn 3 = true) :
    ∃ t, exec (.cfgw e f .none) s = .next t ∧ Executed e (fun x => x.wf f.ofl false) 30 ((s.blk.eng[e]).pc + 1)
        (fun a => a == EVT_PIN) [.pw] s t ∧
      t.blk.get EVT_PIN_PIN = ((s.blk.eng[e]).rd f.d).toNat % 2 ^ 64 := by
  obtain ⟨hget, hch⟩ := regWrite_evtPin_whole (s.blk.cfgCounted e) ((s.blk.eng[e]).rd f.d)
  have hact : cfgwAct e f (s.blk.atFirst e) = .go (((s.blk.cfgCounted e).regWrite EVT_PIN (wholeW ((s.blk.eng[e]).rd f.d))).mapE e
      (fun x => x.wf f.ofl false)) 30 0 false := by
    simp only [cfgwAct, cfgAddr_atFirst, cfgTrap_atFirst, cfgReaches_atFirst, ha, cfgTrap_evtPin hp, cfgReaches_evtPin hon,
      cfgBank_evtPin, gdB, atFirst_eng, ne_eq, not_true_eq_false, Bool.not_false, Bool.and_self, if_false, if_true, Block.cfgCounted]
  have hcnt := cfgCounted_counted s.blk e
  have hfirst := atFirst_changes s.blk e (fun a => galTouch a || a == EVT_PIN)
  have heng : (s.blk.cfgCounted e).eng = s.blk.eng := (only_eng hcnt.2 (by simp)).trans (atFirst_eng s.blk e)
  have hd : s.blk.changes (fun a => galTouch a || a == EVT_PIN) ([.eng, .tm, .trc, .host, .out] ++ [.pw])
      ((s.blk.cfgCounted e).regWrite EVT_PIN (wholeW ((s.blk.eng[e]).rd f.d))) :=
    changes_trans (changes_counted (changes_mono hfirst (fun _ h => h) (by simp)) hcnt
      (fun a ha => by simp only [ha, Bool.true_or]) (by simp)) (changes_mono hch (fun _ h => h) (by simp))
  have hdeng := (only_eng hch.2 (by simp)).trans heng
  refine cfgw_go h hact fun u => ?_
  generalize (s.blk.cfgCounted e).regWrite EVT_PIN (wholeW ((s.blk.eng[e]).rd f.d)) = d at hget hd hdeng
  have hbec := becomes_from (becomes_mapE d e (fun x => x.wf f.ofl false)) hdeng
  rw [hdeng] at hbec
  refine ⟨executed_goesOn hbec (wf_use _ _ _) (changes_mapE hd e _ (by simp)), ?_⟩
  rw [Block.withTags_get, backTo_get, goesOn_get _ _ _ _ (by decide)]
  exact hget

end Sys2Proof.Machine
end

section
/-! SUPPORT. An engine leaves RUNNING: its gates close, and scheduled copies whose window ends are dropped (R181, R182, R283). -/

namespace Sys2Proof.Machine

theorem only_sw {l : List Part} {b c : Block} (h : b.only l c) (hp : .sw ∉ l) : c.sw = b.sw := by
  simp only [Block.only] at h
  simp_all

theorem mapSw_only (b : Block) (f : SwSt → SwSt) : b.only [.sw] (b.mapSw f) := by simp [Block.only, Block.mapSw]

/-! ### What a closing gate changes -/

/-- The parts that a closing gate changes. -/
def gateParts : List Part := .sw :: flowParts

/-- Every stored frame comes from a source whose registers `touch` names. -/
def Block.srcsIn (touch : Nat → Bool) (b : Block) : Prop := ∀ sf ∈ b.sw.frames, srcTouches touch sf.f.src

/-- `c` is `b` but for what a closing gate changes, and its frames come from sources that `touch` names. -/
def Block.gated (touch : Nat → Bool) (b c : Block) : Prop := b.changes touch gateParts c ∧ c.srcsIn touch

section
variable {touch : Nat → Bool} {b c d : Block}

theorem gated_refl (h : b.srcsIn touch) : b.gated touch b := ⟨changes_refl _ _ b, h⟩

theorem gated_trans (h1 : b.gated touch c) (h2 : c.srcsIn touch → c.gated touch d) : b.gated touch d :=
  ⟨changes_trans h1.1 (h2 h1.2).1, (h2 h1.2).2⟩

/-- A change that leaves the switch core's state. -/
theorem gated_flow (h : b.srcsIn touch) (hc : b.changes touch flowParts c) : b.gated touch c := by
  have hsw : c.sw = b.sw := only_sw hc.2 (by simp [flowParts])
  exact ⟨changes_mono hc (fun _ h => h) (List.subset_cons_self _ _), by simpa only [Block.srcsIn, hsw] using h⟩

/-- A change of the switch core's state that brings no frame of another source. -/
theorem gated_mapSw (h : b.srcsIn touch) {f : SwSt → SwSt}
    (hf : ∀ x ∈ (f b.sw).frames, ∃ y ∈ b.sw.frames, x.f = y.f) : b.gated touch (b.mapSw f) := by
  refine ⟨changes_of_only rfl (only_mono (mapSw_only b f) (by simp [gateParts])), fun x hx => ?_⟩
  obtain ⟨y, hy, hxy⟩ := hf x hx
  rw [hxy]
  exact h y hy

end

section
variable {touch : Nat → Bool} (hcore : ∀ a, coreTouch a = true → touch a = true)
include hcore

/-! ### The end of a scheduled copy (R277, R283) -/

theorem freeFrame_gated {b : Block} (h : b.srcsIn touch) (id : Nat) : b.gated touch (b.freeFrame id) := by
  unfold Block.freeFrame
  split
  · exact gated_refl h
  · rename_i sf hsf
    have hsrc : srcTouches touch sf.f.src := h sf (List.mem_of_find?_eq_some hsf)
    refine gated_trans (gated_mapSw h ?_) fun h1 =>
      gated_flow h1 (changes_trans (cellUpdate_changes hcore _) (sourceUpdate_changes hcore hsrc _))
    exact fun x hx => ⟨x, List.mem_of_mem_filter hx, rfl⟩

omit hcore in
theorem setRefs_gated {b : Block} (h : b.srcsIn touch) (id : Nat) (g : Nat → Nat) : b.gated touch (b.setRefs id g) := by
  refine gated_mapSw h fun x hx => ?_
  obtain ⟨y, hy, hyx⟩ := List.mem_map.mp hx
  refine ⟨y, hy, ?_⟩
  rw [← hyx]
  split <;> rfl

theorem release_gated {b : Block} (h : b.srcsIn touch) (id : Nat) : b.gated touch (b.release id) := by
  unfold Block.release
  split
  · exact gated_refl h
  · split
    · exact freeFrame_gated hcore h id
    · exact setRefs_gated h id _

/-- A scheduled copy has no limit on its queue. -/
theorem dropCopy_gated {b : Block} (h : b.srcsIn touch) {x : Copy} (hx : x.cls = 8) : b.gated touch (b.dropCopy x) := by
  have hq : ∀ c : Block, c.queueUpdate x.port x.cls = c := fun c => by rw [Block.queueUpdate, if_pos (Nat.le_of_eq hx.symm)]
  rw [Block.dropCopy, hq]
  exact gated_trans (gated_mapSw h fun y hy => ⟨y, hy, rfl⟩) fun h1 => release_gated hcore h1 _

theorem lateCount_touch {p : Nat} (hp : p < 32) : touch (SWC_EC_CNT p 8 3) = true :=
  hcore _ (coreTouch_of_range (by simp only [SWC_EC_CNT]; omega) (by simp only [SWC_EC_CNT]; omega))

theorem dropCounted_gated : ∀ (l : List Copy) (b : Block), b.srcsIn touch → (∀ x ∈ l, x.port < 32 ∧ x.cls = 8) →
    b.gated touch (b.dropCounted 3 l)
  | [], _, h, _ => gated_refl h
  | x :: r, b, h, hl => by
    obtain ⟨hp, hc⟩ := hl x List.mem_cons_self
    have hcnt : touch (SWC_EC_CNT x.port x.cls 3) = true := by rw [hc]; exact lateCount_touch hcore hp
    have hdrop := gated_trans (dropCopy_gated hcore h hc) fun h1 => gated_flow h1
      (changes_mono (countUp_changes hcore (b.dropCopy x) 1 hcnt) (fun _ h => h) (by simp [flowParts]))
    exact gated_trans hdrop fun h2 => dropCounted_gated r _ h2 fun y hy => hl y (List.mem_cons_of_mem _ hy)

/-! ### Gates close (R161, R181) -/

theorem closeGate_gated {b : Block} (h : b.srcsIn touch) {p : Nat} (hp : p < 32) : b.gated touch (b.closeGate p) := by
  unfold Block.closeGate
  split
  · have hstat : touch (SWC_PORT_STAT p) = true :=
      hcore _ (coreTouch_of_range (by simp only [SWC_PORT_STAT]; omega) (by simp only [SWC_PORT_STAT]; omega))
    refine gated_trans (gated_flow h (changes_putB (f := SWC_PORT_STAT_GATE p) (v := false) (changes_refl _ _ b) hstat)) fun h1 => ?_
    refine dropCounted_gated hcore _ _ h1 fun x hx => ?_
    have hx2 := (List.mem_filter.mp hx).2
    simp only [Bool.and_eq_true, beq_iff_eq] at hx2
    obtain ⟨⟨hport, hcls⟩, -⟩ := hx2
    exact ⟨by omega, hcls⟩
  · exact gated_refl h

theorem setGates_gated (mask : Nat) : ∀ (l : List Nat) (b : Block), b.srcsIn touch → (∀ p ∈ l, p < 32) →
    b.gated touch (b.setGates false mask l)
  | [], _, h, _ => gated_refl h
  | p :: r, b, h, hl => by
    have hone : b.gated touch (if bitAt mask p then b.closeGate p else b) := by
      split
      · exact closeGate_gated hcore h (hl p List.mem_cons_self)
      · exact gated_refl h
    exact gated_trans hone fun h1 => setGates_gated mask r _ h1 fun q hq => hl q (List.mem_cons_of_mem _ hq)

theorem gates_gated {b : Block} (h : b.srcsIn touch) (mask : Nat) : b.gated touch (b.gates false mask) :=
  setGates_gated hcore mask _ b h fun _ hp => List.mem_range.mp hp

end

/-! ### The two readings of what a gate may touch -/

/-- In a core that names only sources that exist, every frame comes from one of them. -/
theorem srcsIn_core {b : Block} (h : b.coreOk = true) : b.srcsIn coreTouch := by
  simp only [Block.coreOk, Bool.and_eq_true, List.all_eq_true, InFrame.ok, decide_eq_true_eq] at h
  obtain ⟨⟨⟨⟨⟨-, hframes⟩, -⟩, -⟩, -⟩, -⟩ := h
  exact fun sf hsf => srcTouches_core (hframes sf hsf).1

/-- What a frame may touch whatever number its source has: STAT and the counter of XOFF at the place that the number gives. -/
def strayTouch (a : Nat) : Bool := coreTouch a || a % 0x80 == 0x10 || a % 0x80 == 0x30

theorem stray_of_core {a : Nat} (h : coreTouch a = true) : strayTouch a = true := by
  simp only [strayTouch, h, Bool.true_or]

theorem srcsIn_stray (b : Block) : b.srcsIn strayTouch := fun sf _ => by
  have h1 : SWC_IG_STAT sf.f.src % 0x80 = 0x10 := by simp only [SWC_IG_STAT]; omega
  have h2 : SWC_S_CNT sf.f.src 3 % 0x80 = 0x30 := by simp only [SWC_S_CNT]; omega
  exact ⟨by simp [strayTouch, h1], by simp [strayTouch, h2]⟩

/-- The registers of an engine at the offsets where no source shows itself. -/
theorem stray_galReg (e : Fin 16) {o : Nat} (h : o < 0x10000) (h1 : o % 0x80 ≠ 0x10) (h3 : o % 0x80 ≠ 0x30) :
    strayTouch (0x200000 + o + 0x10000 * e) = false := by
  have he := e.isLt
  have hg := galTouch_galReg e h
  have hm1 : ((0x200000 + o + 0x10000 * e) % 0x80 == 0x10) = false := by simp only [beq_eq_false_iff_ne]; omega
  have hm3 : ((0x200000 + o + 0x10000 * e) % 0x80 == 0x30) = false := by simp only [beq_eq_false_iff_ne]; omega
  have hr : within 0x140000 0x1C0000 (0x200000 + o + 0x10000 * e) = false := by
    simp only [within, Bool.and_eq_false_iff, decide_eq_false_iff_not]
    omega
  have hs : (0x200000 + o + 0x10000 * e == STS_HALFSUM) = false := by simp only [beq_eq_false_iff_ne, STS_HALFSUM]; omega
  simp only [strayTouch, coreTouch, hr, hs, hg, hm1, hm3, Bool.or_self]

theorem stray_stat (e : Fin 16) : strayTouch (GAL_STAT e) = false := stray_galReg e (o := 0x20) (by decide) (by decide) (by decide)

/-! ### The engine leaves RUNNING (R150, R181, R182) -/

/-- An engine that has left RUNNING. -/
def Engine.left (x : Engine) : Engine := { x with wait := .none, emis := dropHeld x.emis, waitSince := none, opened := false }

/-- The block as an engine leaves RUNNING, before its gates close. -/
def Block.leaving (b : Block) (e : Fin 16) (st : Nat) : Block :=
  (((b.put (GAL_STAT_STATE e) st).putB (GAL_STAT_WAIT e) false).incSat (GAL_STAT_HDISC e) (heldCount b.eng[e].emis)).mapE e Engine.left

section
variable (b : Block) (e : Fin 16) (st : Nat)

theorem leave_eq : b.leave e st = (b.leaving e st).gates false (b.get (GAL_PMASK_MASK e)) := by
  simp only [Block.leave, Block.leaving, mapEng_eq, engine_eq]
  rfl

theorem leaving_becomes : b.becomes e (b.eng[e].left) (b.leaving e st) := by
  have h := becomes_mapE (((b.put (GAL_STAT_STATE e) st).putB (GAL_STAT_WAIT e) false).incSat (GAL_STAT_HDISC e)
    (heldCount b.eng[e].emis)) e Engine.left
  have heng : (((b.put (GAL_STAT_STATE e) st).putB (GAL_STAT_WAIT e) false).incSat (GAL_STAT_HDISC e)
    (heldCount b.eng[e].emis)).eng = b.eng := by rw [Block.incSat_eng, Block.putB_eng, Block.put_eng]
  rw [heng] at h
  exact becomes_from h heng

theorem mapE_get (f : Engine → Engine) (g : Field) : (b.mapE e f).get g = b.get g := rfl

theorem leaving_state (hst : st < 8) : (b.leaving e st).get (GAL_STAT_STATE e) = st := by
  rw [Block.leaving, mapE_get, Block.incSat, Block.get_put_apart _ _ _ _ (.inr (.inr (by simp))),
    Block.get_putB_apart _ _ _ _ (.inr (.inr (by simp))), Block.get_put_same _ _ _ (by simp)]
  exact Nat.mod_eq_of_lt hst

theorem leaving_changes : b.changes (fun a => a == GAL_STAT e) [.eng] (b.leaving e st) :=
  changes_mapE (changes_put (changes_putB (changes_put (changes_refl _ _ b) (by simp)) (by simp)) (by simp)) e _ (by simp)

theorem leaving_srcs {touch : Nat → Bool} (h : b.srcsIn touch) : (b.leaving e st).srcsIn touch := h

theorem leave_becomes : b.becomes e (b.eng[e].left) (b.leave e st) := by
  have hgate := (gates_gated (fun _ => stray_of_core) (srcsIn_stray (b.leaving e st)) (b.get (GAL_PMASK_MASK e))).1
  rw [leave_eq]
  exact becomes_of_eng (leaving_becomes b e st) (only_eng hgate.2 (by simp [gateParts, flowParts]))

/-- A register that no source shows itself in: the leaving engine alone changes it. -/
theorem leave_reg {a : Nat} (ha : strayTouch a = false) : (b.leave e st).reg a = (b.leaving e st).reg a := by
  rw [leave_eq]
  exact (gates_gated (fun _ => stray_of_core) (srcsIn_stray (b.leaving e st)) (b.get (GAL_PMASK_MASK e))).1.1 a ha

theorem leave_state (hst : st < 8) : (b.leave e st).get (GAL_STAT_STATE e) = st := by
  have h : (b.leave e st).get (GAL_STAT_STATE e) = (b.leaving e st).get (GAL_STAT_STATE e) := by
    simp only [Block.get, leave_reg b e st (stray_stat e)]
  rw [h, leaving_state b e st hst]

theorem leave_reg_ne {a : Nat} (ha : strayTouch a = false) (hne : a ≠ GAL_STAT e) : (b.leave e st).reg a = b.reg a :=
  (leave_reg b e st ha).trans ((leaving_changes b e st).1 a (by simpa using hne))

/-- The registers of the engine are among those that it touches as it leaves. -/
theorem leaveTouch_galReg {a : Nat} (ha : galRegs e a = true) : leaveTouch e a = true := by
  rw [leaveTouch, ha, Bool.true_or]

theorem leaveTouch_stat : leaveTouch e (GAL_STAT e) = true := leaveTouch_galReg e (galRegs_offset e (o := 0x20) (by decide))

theorem leaveTouch_cause : leaveTouch e (GAL_CAUSE e) = true := leaveTouch_galReg e (galRegs_offset e (o := 0x30) (by decide))

theorem leaveTouch_core {a : Nat} (ha : coreTouch a = true) : leaveTouch e a = true := by
  rw [leaveTouch, ha, Bool.or_true]

theorem leave_changes (h : b.srcsIn coreTouch) : b.changes (leaveTouch e) (.eng :: gateParts) (b.leave e st) := by
  have hstat : ∀ a, (a == GAL_STAT e) = true → leaveTouch e a = true := fun a ha => by
    rw [beq_iff_eq] at ha
    rw [ha]
    exact leaveTouch_stat e
  have hgate := (gates_gated (fun _ h => h) (leaving_srcs b e st h) (b.get (GAL_PMASK_MASK e))).1
  rw [leave_eq]
  exact changes_trans (changes_mono (leaving_changes b e st) hstat (by simp))
    (changes_mono hgate (fun _ => leaveTouch_core e) (by simp))

end

end Sys2Proof.Machine
end

section
/-! An instruction that ends the program or traps (R166, R181), and the statement on the system instructions. -/

namespace Sys2Proof.Machine

/-! ### The causes of an engine -/

section
variable {touch : Nat → Bool} {ps : List Part} {b c : Block}

theorem changes_galCause {f : Field} (h : b.changes touch ps c) (n : Nat) (hf : touch f.addr = true)
    (ht : ∀ a, galTouch a = true → touch a = true) (hp : [.host, .out] ⊆ ps) : b.changes touch ps (c.galCause f n) :=
  changes_raise (changes_putB h hf) (fun _ ha => ht _ (galTouch_of_evTouch ha)) hp

end

theorem galCause_eng (b : Block) (f : Field) (n : Nat) : (b.galCause f n).eng = b.eng := only_eng (raise_only _ _) (by simp)

/-- A cause that is set shows, if it is no register of the counters. -/
theorem galCause_flag (b : Block) {f : Field} (n : Nat) (hf : galTouch f.addr = false) (hlo : f.lo + f.w ≤ 72) (hw : f.w = 1) :
    (b.galCause f n).flag f = true := by
  rw [Block.flag, galCause_get b f n hf]
  exact Block.flag_putB_same b f true hlo hw

/-- The cause of an engine changes no other register that the counters leave. -/
theorem galCause_reg (b : Block) {f : Field} (n : Nat) {a : Nat} (ha : galTouch a = false) (hne : a ≠ f.addr) :
    (b.galCause f n).reg a = b.reg a :=
  (changes_galCause (touch := fun x => galTouch x || x == f.addr) (ps := [.host, .out]) (changes_refl _ _ b) n (by simp)
    (fun x hx => by simp only [hx, Bool.true_or]) (List.Subset.refl _)).1 a (by simp [ha, hne])

/-! ### The end of a program -/

/-- The engine leaves RUNNING for state `st` and shows cause `f`. -/
def Block.endsIn (b : Block) (e : Fin 16) (st : Nat) (f : Field) : Block := (b.leave e st).galCause f e

section
variable (b : Block) (e : Fin 16) {st : Nat} {f : Field} (hf : f.addr = GAL_CAUSE e)
include hf

theorem endsIn_state (hst : st < 8) : (b.endsIn e st f).get (GAL_STAT_STATE e) = st := by
  have hne : GAL_STAT e ≠ f.addr := by rw [hf]; simp only [GAL_STAT, GAL_CAUSE]; omega
  have h : (b.endsIn e st f).get (GAL_STAT_STATE e) = (b.leave e st).get (GAL_STAT_STATE e) := by
    simp only [Block.get, Block.endsIn, galCause_reg (b.leave e st) e (galTouch_stat e) hne]
  rw [h, leave_state b e st hst]

theorem endsIn_cause (hlo : f.lo + f.w ≤ 72) (hw : f.w = 1) : (b.endsIn e st f).flag f = true :=
  galCause_flag _ e (by rw [hf]; exact galTouch_cause e) hlo hw

/-- A register of the engine but STAT and CAUSE, at an offset where no source shows itself, keeps its value. -/
theorem endsIn_reg {o : Nat} (h : o < 0x10000) (h1 : o % 0x80 ≠ 0x10) (h3 : o % 0x80 ≠ 0x30) (hs : o ≠ 0x20) :
    (b.endsIn e st f).reg (0x200000 + o + 0x10000 * e) = b.reg (0x200000 + o + 0x10000 * e) := by
  have hcause : 0x200000 + o + 0x10000 * e ≠ f.addr := by rw [hf]; simp only [GAL_CAUSE]; omega
  have hstat : 0x200000 + o + 0x10000 * e ≠ GAL_STAT e := by simp only [GAL_STAT]; omega
  rw [Block.endsIn, galCause_reg _ e (galTouch_galReg e h) hcause, leave_reg_ne b e st (stray_galReg e h h1 h3) hstat]

theorem endsIn_changes (h : b.srcsIn coreTouch) : b.changes (leaveTouch e) [.eng, .trc, .host, .out, .sw, .macs] (b.endsIn e st f) := by
  have hcause : leaveTouch e f.addr = true := by
    rw [hf]
    exact leaveTouch_cause e
  exact changes_galCause (changes_mono (leave_changes b e st h) (fun _ h => h) (by simp [gateParts, flowParts])) e hcause
    (fun _ ha => leaveTouch_core e (coreTouch_of_galTouch ha)) (by simp)

omit hf in
theorem endsIn_becomes : b.becomes e (b.eng[e].left) (b.endsIn e st f) :=
  becomes_of_eng (leave_becomes b e st) (galCause_eng _ _ _)

end

/-! ### HALT (R181) -/

/-- The block as an instruction of one tick completes, seen before the program ends. -/
def Block.tickDone (b : Block) (e : Fin 16) (first : Nat) (stw insn : Word) (code : Nat) : Block :=
  b.completed e first stw insn b.eng[e].pc 1 false false false false code 0

theorem tickDone_becomes (b : Block) (e : Fin 16) (first : Nat) (stw insn : Word) (code : Nat) :
    ∃ r, b.becomes e (b.eng[e].seenDone r) (b.tickDone e first stw insn code) := completed_becomes b e first stw insn _ 1 _ _ _ _ code 0

theorem tickDone_changes (b : Block) (e : Fin 16) (first : Nat) (stw insn : Word) (code : Nat) :
    b.changes galTouch [.eng, .trc, .host, .out] (b.tickDone e first stw insn code) :=
  completed_changes b e first stw insn _ 1 _ _ _ _ code 0

/-- An engine whose next instruction is due at `first + tick`. -/
def Engine.ticked (first : Nat) (x : Engine) : Engine := { x with use := x.use + 1, readyAt := first + 1 * tick }

theorem carry_halt (b : Block) (e : Fin 16) (first : Nat) (stw insn : Word) : b.carry e first stw insn 0 .halt =
    ((b.tickDone e first stw insn 0).mapE e (fun x => x.after first 1 b.eng[e].pc)).endsIn e 4 (GAL_CAUSE_HALT e) := rfl

/-- The block as a trap is recorded, before the engine leaves RUNNING. -/
def Block.trapShown (b : Block) (e : Fin 16) (first : Nat) (stw insn : Word) (code : Nat) : Block :=
  ((((b.tickDone e first stw insn code).put (GAL_TRAP_PC e) b.eng[e].pc).put (GAL_TRAP_CODE e) code).setReg (GAL_TINSN e) insn).mapE e
    (Engine.ticked first)

theorem carry_trap (b : Block) (e : Fin 16) (first : Nat) (stw insn : Word) (code : Nat) : b.carry e first stw insn 0 (.trap code) =
    (b.trapShown e first stw insn code).endsIn e 5 (GAL_CAUSE_TRAP e) := rfl

section
variable (b : Block) (e : Fin 16) (first : Nat) (stw insn : Word) (code : Nat)

theorem trapShown_becomes : ∃ r, b.becomes e ((b.eng[e].seenDone r).ticked first) (b.trapShown e first stw insn code) := by
  obtain ⟨r, hr⟩ := tickDone_becomes b e first stw insn code
  rw [Block.trapShown]
  generalize b.tickDone e first stw insn code = c at hr
  have heng : (((c.put (GAL_TRAP_PC e) b.eng[e].pc).put (GAL_TRAP_CODE e) code).setReg (GAL_TINSN e) insn).eng = c.eng := rfl
  exact ⟨r, becomes_step (becomes_of_eng hr heng) (Engine.ticked first)⟩

/-- TRAP and TINSN show the trap (Table 5-3). -/
theorem trapShown_get (hpc : b.eng[e].pc < 2 ^ 15) (hcode : code < 16) :
    (b.trapShown e first stw insn code).get (GAL_TRAP_CODE e) = code ∧
      (b.trapShown e first stw insn code).get (GAL_TRAP_PC e) = b.eng[e].pc ∧
      (b.trapShown e first stw insn code).reg (GAL_TINSN e) = insn := by
  have hne : GAL_TRAP e ≠ GAL_TINSN e := by simp only [GAL_TRAP, GAL_TINSN]; omega
  rw [Block.trapShown]
  generalize b.tickDone e first stw insn code = c
  have hget : ∀ (d : Block) (g : Field), g.addr = GAL_TRAP e →
      ((d.setReg (GAL_TINSN e) insn).mapE e (Engine.ticked first)).get g = d.get g := fun d g hg => by
    rw [mapE_get, Block.get, Block.reg_setReg_ne d insn (by rw [hg]; exact hne), Block.get]
  refine ⟨?_, ?_, ?_⟩
  · rw [hget _ _ rfl, Block.get_put_same _ _ _ (by simp)]
    exact Nat.mod_eq_of_lt hcode
  · rw [hget _ _ rfl, Block.get_put_apart _ _ _ _ (.inr (.inr (by simp))), Block.get_put_same _ _ _ (by simp)]
    exact Nat.mod_eq_of_lt hpc
  · have hmap : ∀ d : Block, (d.mapE e (Engine.ticked first)).reg (GAL_TINSN e) = d.reg (GAL_TINSN e) := fun _ => rfl
    rw [hmap, Block.reg_setReg, if_pos rfl]

theorem trapShown_changes : b.changes (leaveTouch e) [.eng, .trc, .host, .out] (b.trapShown e first stw insn code) := by
  have htrap : leaveTouch e (GAL_TRAP e) = true := leaveTouch_galReg e (galRegs_offset e (o := 0x40) (by decide))
  have htinsn : leaveTouch e (GAL_TINSN e) = true := leaveTouch_galReg e (galRegs_offset e (o := 0x50) (by decide))
  have htick := changes_mono (tickDone_changes b e first stw insn code)
    (fun _ ha => leaveTouch_core e (coreTouch_of_galTouch ha)) (List.Subset.refl _)
  rw [Block.trapShown]
  generalize b.tickDone e first stw insn code = c at htick
  exact changes_mapE (changes_setReg (changes_put (changes_put (f := GAL_TRAP_PC e) htick htrap) htrap) htinsn) e _ (by simp)

/-- Nothing of a stopped instruction reaches the switch core, so its frames come from the sources they came from. -/
theorem srcsIn_congr {touch : Nat → Bool} {c : Block} (h : b.srcsIn touch) (hsw : c.sw = b.sw) : c.srcsIn touch := by
  simpa only [Block.srcsIn, hsw] using h

/-- The engine after a trap. -/
def Engine.trapped (first : Nat) (r : TraceRec) (x : Engine) : Engine := ((x.seenDone r).ticked first).left

/-- What a trap leaves (R166). -/
structure Block.trappedTo (c : Block) : Prop where
  state : c.get (GAL_STAT_STATE e) = 5
  code : c.get (GAL_TRAP_CODE e) = code
  pc : c.get (GAL_TRAP_PC e) = b.eng[e].pc
  insn : c.reg (GAL_TINSN e) = insn
  cause : c.flag (GAL_CAUSE_TRAP e) = true
  engine : ∃ r, b.becomes e (b.eng[e].trapped first r) c
  frame : b.srcsIn coreTouch → b.changes (leaveTouch e) [.eng, .trc, .host, .out, .sw, .macs] c

theorem carry_trap_leaves (hpc : b.eng[e].pc < 2 ^ 15) (hcode : code < 16) :
    b.trappedTo e first insn code (b.carry e first stw insn 0 (.trap code)) := by
  rw [carry_trap]
  obtain ⟨hgcode, hgpc, hgint⟩ := trapShown_get b e first stw insn code hpc hcode
  obtain ⟨r, hbec⟩ := trapShown_becomes b e first stw insn code
  have hch := trapShown_changes b e first stw insn code
  generalize b.trapShown e first stw insn code = c at hgcode hgpc hgint hbec hch
  have hf : (GAL_CAUSE_TRAP e).addr = GAL_CAUSE e := rfl
  have htrap : (c.endsIn e 5 (GAL_CAUSE_TRAP e)).reg (GAL_TRAP e) = c.reg (GAL_TRAP e) :=
    endsIn_reg c e hf (o := 0x40) (by decide) (by decide) (by decide) (by decide)
  have htinsn : (c.endsIn e 5 (GAL_CAUSE_TRAP e)).reg (GAL_TINSN e) = c.reg (GAL_TINSN e) :=
    endsIn_reg c e hf (o := 0x50) (by decide) (by decide) (by decide) (by decide)
  refine ⟨endsIn_state c e hf (by decide), ?_, ?_, htinsn.trans hgint, endsIn_cause c e hf (by simp) rfl, ⟨r, ?_⟩, fun hs => ?_⟩
  · rw [← hgcode]
    simp only [Block.get, htrap]
  · rw [← hgpc]
    simp only [Block.get, htrap]
  · have hend := endsIn_becomes c e (st := 5) (f := GAL_CAUSE_TRAP e)
    rw [hbec.1] at hend
    exact becomes_trans hbec hend
  · have hsrc : c.srcsIn coreTouch := srcsIn_congr b hs (only_sw hch.2 (by simp))
    exact changes_trans (changes_mono hch (fun _ h => h) (by simp)) (endsIn_changes c e hf hsrc)

end

end Sys2Proof.Machine
end

section
/-! The statement on the system instructions (R32, R156, R163 to R166, R181). -/

namespace Sys2Proof.Machine

/-! ### The traps of the system instructions (R164 to R166) -/

section
variable {s : State} {e : Fin 16} {insn : Word}

theorem srcsIn_atFirst (h : s.blk.coreOk = true) : (s.blk.atFirst e).srcsIn coreTouch :=
  srcsIn_congr s.blk (srcsIn_core h) (only_sw (atFirst_only s.blk e) (by simp))

theorem trapped_engine (x : Engine) (first : Nat) (r : TraceRec) : (x.trapped first r).g = x.g ∧ (x.trapped first r).f = x.f ∧
    (x.trapped first r).pc = x.pc ∧ (x.trapped first r).data = x.data ∧ (x.trapped first r).prog = x.prog ∧
    (x.trapped first r).readyAt = first + 1 * tick := ⟨rfl, rfl, rfl, rfl, rfl, rfl⟩

/-- A trap at the first tick of an instruction stops the engine there. -/
theorem trapped_carried {chk code : Nat} {psel : BitVec 4} (h : s.blk.stands e insn chk psel) (hcode : code < 16)
    (u : SMap (BitVec 8)) :
    Trapped e code s ⟨(s.blk.backTo (s.blk.carried e insn (.trap code))).withTags u, s.pending⟩ := by
  obtain ⟨-, hword, -, -, hpc⟩ := h
  have hpc2 : (s.blk.atFirst e).eng[e].pc < 2 ^ 15 := by
    rw [atFirst_eng]
    omega
  have htrap := carry_trap_leaves (s.blk.atFirst e) e (s.blk.firstTick e) (s.blk.atFirst e).stw insn code hpc2 hcode
  change Block.trappedTo _ e _ insn code (s.blk.carried e insn (.trap code)) at htrap
  generalize s.blk.carried e insn (.trap code) = c at htrap
  obtain ⟨hstate, hgcode, hgpc, hgint, hcause, ⟨r, hx, hothers⟩, hframe⟩ := htrap
  rw [atFirst_eng] at hgpc hx hothers
  rw [Trapped, TrappedIn, Block.withTags_get, Block.withTags_get, Block.withTags_get, Block.withTags_reg, Block.withTags_flag,
    Block.withTags_eng, backTo_get, backTo_get, backTo_get, backTo_reg, backTo_flag, backTo_eng, hx, hword]
  obtain ⟨hg, hf, hpcx, hdata, hprog, hready⟩ := trapped_engine s.blk.eng[e] (s.blk.firstTick e) r
  refine ⟨hstate, hgcode, hgpc, hgint, hcause, hg, hf, hpcx, hdata, hprog, hready, hothers, fun hok => frameOn_intro ?_⟩
  exact backTo_changes s.blk _ (changes_trans (changes_mono (atFirst_changes s.blk e _) (fun _ h => h) (by simp))
    (changes_mono (hframe (srcsIn_atFirst hok)) (fun _ h => h) (by simp))) (by simp)

theorem rdprf_traps {f : FormA} (h : s.blk.stands e (encodeA Op.rdprf.code f) (checkA .rdprf f) f.psel)
    (hp : s.blk.priv e = false) (hu : s.blk.flag PRF_CTL_UREAD = false) :
    ∃ t, exec (.rdprf e f .none) s = .next t ∧ Trapped e 2 s t := by
  refine leadsTo_intro ((exec_rdprf s).trans (done_stands _ h)) fun u => ?_
  rw [priv_atFirst, atFirst_flag, hp, hu]
  exact trapped_carried h (by decide) u

theorem cfgr_traps {f : FormB} (h : s.blk.stands e (encodeB Op.cfgr.code f) (checkB .cfgr f) f.psel) (hp : s.blk.priv e = false) :
    ∃ t, exec (.cfgr e f .none) s = .next t ∧ Trapped e 2 s t := by
  have ht : cfgTrap s.blk e (cfgAddr s.blk e f) = 2 := by
    simp only [cfgTrap, hp, Bool.not_false, if_true]
  refine leadsTo_intro ((exec_cfgr s).trans (done_stands _ h)) fun u => ?_
  simp only [cfgAddr_atFirst, cfgTrap_atFirst, ht, ne_eq, OfNat.ofNat_ne_zero, not_false_eq_true, if_true]
  exact trapped_carried h (by decide) u

theorem cfgTrap_lt (b : Block) (e : Fin 16) (a : Nat) : cfgTrap b e a < 16 := by
  unfold cfgTrap
  split
  · decide
  · split <;> decide

theorem cfgw_traps {f : FormB} (h : s.blk.stands e (encodeB Op.cfgw.code f) (checkB .cfgw f) f.psel)
    (ht : cfgTrap s.blk e (cfgAddr s.blk e f) ≠ 0) :
    ∃ t, exec (.cfgw e f .none) s = .next t ∧ Trapped e (cfgTrap s.blk e (cfgAddr s.blk e f)) s t := by
  have hact : cfgwAct e f (s.blk.atFirst e) = .trap (cfgTrap s.blk e (cfgAddr s.blk e f)) := by
    simp only [cfgwAct, cfgAddr_atFirst, cfgTrap_atFirst, ne_eq, ht, not_false_eq_true, if_true]
  refine cfgw_intro h fun u => ?_
  rw [hact]
  exact trapped_carried h (cfgTrap_lt _ _ _) u

end

/-! ### HALT (R181) -/

/-- The engine after a HALT. -/
def Engine.halted (first : Nat) (r : TraceRec) (x : Engine) : Engine := ((x.seenDone r).after first 1 x.pc).left

theorem halted_engine (x : Engine) (first : Nat) (r : TraceRec) : (x.halted first r).g = x.g ∧ (x.halted first r).f = x.f ∧
    (x.halted first r).pc = x.pc ∧ (x.halted first r).data = x.data ∧
    (x.halted first r).emis = x.emis.filter (fun y => y.hold.isNone) := ⟨rfl, rfl, rfl, rfl, rfl⟩

/-- What a HALT leaves. -/
structure Block.haltedTo (b : Block) (e : Fin 16) (first : Nat) (c : Block) : Prop where
  state : c.get (GAL_STAT_STATE e) = 4
  cause : c.flag (GAL_CAUSE_HALT e) = true
  engine : ∃ r, b.becomes e (b.eng[e].halted first r) c
  frame : b.srcsIn coreTouch → b.changes (leaveTouch e) [.eng, .trc, .host, .out, .sw, .macs] c

theorem carry_halt_leaves (b : Block) (e : Fin 16) (first : Nat) (stw insn : Word) :
    b.haltedTo e first (b.carry e first stw insn 0 .halt) := by
  obtain ⟨r, hr⟩ := tickDone_becomes b e first stw insn 0
  have htick := tickDone_changes b e first stw insn 0
  rw [carry_halt]
  generalize b.tickDone e first stw insn 0 = d at hr htick
  have hbec := becomes_step hr (fun x => x.after first 1 b.eng[e].pc)
  have hch : b.changes (leaveTouch e) [.eng, .trc, .host, .out] (d.mapE e (fun x => x.after first 1 b.eng[e].pc)) :=
    changes_mapE (changes_mono htick (fun _ ha => leaveTouch_core e (coreTouch_of_galTouch ha)) (List.Subset.refl _)) e _ (by simp)
  generalize d.mapE e (fun x => x.after first 1 b.eng[e].pc) = c at hbec hch
  have hf : (GAL_CAUSE_HALT e).addr = GAL_CAUSE e := rfl
  refine ⟨endsIn_state c e hf (by decide), endsIn_cause c e hf (by simp) rfl, ⟨r, ?_⟩, fun hs => ?_⟩
  · have hend := endsIn_becomes c e (st := 4) (f := GAL_CAUSE_HALT e)
    rw [hbec.1] at hend
    exact becomes_trans hbec hend
  · have hsrc : c.srcsIn coreTouch := srcsIn_congr b hs (only_sw hch.2 (by simp))
    exact changes_trans (changes_mono hch (fun _ h => h) (by simp)) (endsIn_changes c e hf hsrc)

theorem halt_ends {s : State} {e : Fin 16} {f : FormA} (h : s.blk.stands e (encodeA Op.halt.code f) (checkA .halt f) f.psel) :
    ∃ t, exec (.halt e f .none) s = .next t ∧ t.blk.get (GAL_STAT_STATE e) = 4 ∧ t.blk.flag (GAL_CAUSE_HALT e) = true ∧
      (t.blk.eng[e]).g = (s.blk.eng[e]).g ∧ (t.blk.eng[e]).f = (s.blk.eng[e]).f ∧ (t.blk.eng[e]).pc = (s.blk.eng[e]).pc ∧
      (t.blk.eng[e]).data = (s.blk.eng[e]).data ∧ (t.blk.eng[e]).emis = (s.blk.eng[e]).emis.filter (fun x => x.hold.isNone) ∧
      (∀ m : Fin 16, m ≠ e → t.blk.eng[m] = s.blk.eng[m]) ∧
      (s.blk.coreOk = true → FrameOn (leaveTouch e) [.eng, .tm, .trc, .host, .out, .sw, .macs] s t) := by
  have hhalt := carry_halt_leaves (s.blk.atFirst e) e (s.blk.firstTick e) (s.blk.atFirst e).stw (encodeA Op.halt.code f)
  refine leadsTo_intro ((exec_halt s).trans (done_stands _ h)) fun u => ?_
  change Block.haltedTo _ e _ (s.blk.carried e (encodeA Op.halt.code f) .halt) at hhalt
  generalize s.blk.carried e (encodeA Op.halt.code f) .halt = c at hhalt
  obtain ⟨hstate, hcause, ⟨r, hx, hothers⟩, hframe⟩ := hhalt
  rw [atFirst_eng] at hx hothers
  rw [Block.withTags_get, Block.withTags_flag, Block.withTags_eng, backTo_get, backTo_flag, backTo_eng, hx]
  obtain ⟨hg, hf, hpcx, hdata, hemis⟩ := halted_engine s.blk.eng[e] (s.blk.firstTick e) r
  refine ⟨hstate, hcause, hg, hf, hpcx, hdata, hemis, hothers, fun hok => frameOn_intro ?_⟩
  exact backTo_changes s.blk _ (changes_trans (changes_mono (atFirst_changes s.blk e _) (fun _ h => h) (by simp))
    (changes_mono (hframe (srcsIn_atFirst hok)) (fun _ h => h) (by simp))) (by simp)

/-! ### The statement -/

theorem slotMine_true {b : Block} {e : Fin 16} (he : b.get SYS_MSLOT_ENG = e.val) (hp : b.cyc.inProg = true)
    (hd : b.cyc.slotDone = false) : b.slotMine e = true := by
  simp only [Block.slotMine, he, hp, hd, decide_true, Bool.not_false, Bool.and_self]

theorem slotMine_false {b : Block} {e : Fin 16} (h : b.get SYS_MSLOT_ENG ≠ e.val ∨ b.cyc.inProg = false ∨ b.cyc.slotDone = true) :
    b.slotMine e = false := by
  rcases h with h | h | h
  · simp only [Block.slotMine, h, decide_false, Bool.false_and]
  · simp only [Block.slotMine, h, Bool.and_false, Bool.false_and]
  · simp only [Block.slotMine, h, Bool.not_true, Bool.and_false]

/-- Settles O20: each instruction executes by the rule for what it does: it goes on, ends the program, or traps. -/
theorem gallerySystem : Obligations.GallerySystem := by
  unfold Obligations.GallerySystem
  refine ⟨?_, ?_, ?_, ?_, ?_, ?_, ?_, ?_, ?_, ?_, ?_, ?_, ?_, ?_, ?_⟩
  · intro s e f h
    exact halt_ends h
  · intro s e f h
    exact raise_executes h
  · intro s e f h
    exact sig_sends h
  · intro s e f h hp
    exact rdprf_computes h hp
  · intro s e f h hp hu
    exact rdprf_traps h hp hu
  · intro s e f h he hp hd hn
    exact calslot_checks h (slotMine_true he hp hd) hn
  · intro s e f scrub h he hp hd
    exact calslot_opens scrub h (slotMine_true he hp hd)
  · intro s e f scrub h hno
    exact calslot_passes scrub h (slotMine_false hno)
  · intro s e f h ht hr hp
    exact cfgr_reads h ht hr hp
  · intro s e f h ht hr
    exact cfgr_shows h ht hr
  · intro s e f h ht hr
    exact cfgr_misses h ht hr
  · intro s e f h hp
    exact cfgr_traps h hp
  · intro s e f h hp ha hon
    exact cfgw_evtPin h hp ha hon
  · intro s e f h ht hr
    exact cfgw_misses h ht hr
  · intro s e f h ht
    exact cfgw_traps h ht

end Sys2Proof.Machine
end

section
/-! The invariants of the model, and why a step does not keep them: `Block.coreOk` says nothing of the messages that wait in the
network time unit, and one that is no PTP message goes from there into the switch core. -/

namespace Sys2Proof.Machine

/-- A frame without PTP content, of a source and a class that do not exist. -/
def strayFrame : InFrame :=
  { src := 35, bytes := [], vid := 0, pcp := none, cls := 9, port := 63, sch := false, cycle := 0, bad := 0, stamp := 0, rxEnd := 0 }

theorem strayFrame_bad : strayFrame.ok = false := rfl

/-- The machine after reset, but for a stray frame in the queue of the network time unit, whose turn comes next. -/
def strayState : State := { blk := { Block.reset with ptp := { PtpSt.reset with rx := [strayFrame] } }, pending := [.ptpMessageRx] }

theorem strayState_coreOk : strayState.blk.coreOk = true := by decide +kernel

/-- What is no PTP message goes to the switch core (Table 11-2). -/
theorem ptpRx_of_none {b : Block} {f : InFrame} (h : ptpOf b.etype f.bytes = none) : b.ptpRx f = b.toCore f := by
  simp only [Block.ptpRx, h]

theorem beAt_nil (o n : Nat) : beAt [] o n = 0 := by
  simp [beAt, natOfBytesBE]

theorem ptpOf_nil (etype : Nat) : ptpOf etype [] = none := by
  simp [ptpOf, beAt_nil]

/-- A frame that enters the queue before the Sump and names no source or class breaks what the core may hold. -/
theorem coreOk_toCore {b : Block} {f : InFrame} (h : f.ok = false) : (b.toCore f).coreOk = false := by
  simp [Block.coreOk, Block.toCore, Block.mapSw, h]

theorem withTags_coreOk (b : Block) (u : SMap (BitVec 8)) : (b.withTags u).coreOk = b.coreOk := rfl

/-- The network time unit with the message at the head of its queue taken. -/
def Block.rxTaken (b : Block) (r : List InFrame) : Block := Block.domSync { b with ptp := { b.ptp with rx := r } }

theorem exec_ptpMessageRx_head {s : State} {f : InFrame} {r : List InFrame} (h : s.blk.ptp.rx = f :: r) :
    exec .ptpMessageRx s = done s (fun b => (b.rxTaken r).ptpRx f) := by
  refine (exec_ptpMessageRx s).trans (done_congr ?_)
  simp only [h]
  rfl

/-- Refutes O59: the stray frame of `strayState` enters the switch core. -/
theorem not_stepKeepsInvariants : ¬ Obligations.StepKeepsInvariants := by
  unfold Obligations.StepKeepsInvariants
  intro h
  have hstep : step strayState = done ⟨strayState.blk, []⟩ (fun b => (b.rxTaken []).ptpRx strayFrame) :=
    exec_ptpMessageRx_head (s := ⟨strayState.blk, []⟩) rfl
  obtain ⟨-, -, hcore⟩ := h _ _ (hstep.trans (done_eq _ _))
  have hok := hcore strayState_coreOk
  rw [withTags_coreOk, ptpRx_of_none (f := strayFrame) (ptpOf_nil _), coreOk_toCore strayFrame_bad] at hok
  exact Bool.false_ne_true hok

end Sys2Proof.Machine
end

section
/-! The ledger: no operation of the model writes the update tags, which the end of a command counts (R61), and those named here leave
the host's requests that wait as they are. One law for each operation, in the order of the model. -/

namespace Sys2Proof.Machine

/-- What a command's effect leaves as it is: the update tags, which the end of the command counts, and the host's requests that wait. -/
def Block.ledger (b : Block) : SMap (BitVec 8) × List Stall × List Instr := (b.utags, b.host.stalls, b.host.backlog)

/-- A block that keeps the tags and the host interface keeps the ledger. -/
@[simp] theorem Block.ledger_mk (b : Block) (regs : SMap Word) (tm cyc cav axes encs ml mg eng trc snap flw sw macs lanes rings ptp sec cps
    outs clk tic cal pair pw strikes retired retRec free out) :
    (Block.mk regs b.utags tm cyc b.host cav axes encs ml mg eng trc snap flw sw macs lanes rings ptp sec cps outs clk tic cal pair pw
      strikes retired retRec free out).ledger = b.ledger :=
  Prod.ext rfl rfl

/-- So does one that changes the host interface beside the requests that wait. -/
@[simp] theorem Block.ledger_mk_host (b : Block) (pci : PciSt) (pcie perst journal mask pba held waking) (regs : SMap Word)
    (tm cyc cav axes encs ml mg eng trc snap flw sw macs lanes rings ptp sec cps outs clk tic cal pair pw strikes retired retRec free out) :
    (Block.mk regs b.utags tm cyc ⟨pci, b.host.backlog, pcie, perst, journal, b.host.stalls, mask, pba, held, waking⟩ cav axes encs ml mg
      eng trc snap flw sw macs lanes rings ptp sec cps outs clk tic cal pair pw strikes retired retRec free out).ledger = b.ledger :=
  Prod.ext rfl rfl

@[simp] theorem Block.ledger_ite (c : Prop) [Decidable c] (x y : Block) :
    (if c then x else y).ledger = if c then x.ledger else y.ledger :=
  apply_ite _ _ _ _

theorem foldl_ledger {α : Type} {f : Block → α → Block} (h : ∀ b x, (f b x).ledger = b.ledger) (l : List α) (b : Block) :
    (l.foldl f b).ledger = b.ledger := by
  induction l generalizing b with
  | nil => rfl
  | cons x xs ih => rw [List.foldl_cons, ih, h]

/-! #### Machine/Ops -/

@[simp] theorem Block.setReg_ledger (b : Block) (a : Nat) (v : Word) : (b.setReg a v).ledger = b.ledger := by simp [Block.setReg]
@[simp] theorem Block.put_ledger (b : Block) (f : Field) (v : Nat) : (b.put f v).ledger = b.ledger := by simp [Block.put]
@[simp] theorem Block.putB_ledger (b : Block) (f : Field) (v : Bool) : (b.putB f v).ledger = b.ledger := by simp [Block.putB]
@[simp] theorem Block.puti_ledger (b : Block) (f : Field) (v : Int) : (b.puti f v).ledger = b.ledger := by simp [Block.puti]
@[simp] theorem Block.incSat_ledger (b : Block) (f : Field) (n : Nat) : (b.incSat f n).ledger = b.ledger := by simp [Block.incSat]
@[simp] theorem Block.incMod_ledger (b : Block) (f : Field) (n : Nat) : (b.incMod f n).ledger = b.ledger := by simp [Block.incMod]
@[simp] theorem Block.setBit_ledger (b : Block) (f : Field) (i : Nat) : (b.setBit f i).ledger = b.ledger := by simp [Block.setBit]
@[simp] theorem Block.clrBit_ledger (b : Block) (f : Field) (i : Nat) : (b.clrBit f i).ledger = b.ledger := by simp [Block.clrBit]
@[simp] theorem Block.resetRegs_ledger (b : Block) (p : Nat → Bool) : (b.resetRegs p).ledger = b.ledger := by simp [Block.resetRegs]
@[simp] theorem Block.emit_ledger (b : Block) (o : Out) : (b.emit o).ledger = b.ledger := by simp [Block.emit]
@[simp] theorem Block.freeStep_ledger (b : Block) : b.freeStep.ledger = b.ledger := by simp [Block.freeStep]
@[simp] theorem Block.pendShow_ledger (b : Block) : b.pendShow.ledger = b.ledger := by simp [Block.pendShow]
@[simp] theorem Block.banksTaken_ledger (b : Block) (n : Nat) : (b.banksTaken n).ledger = b.ledger := by simp [Block.banksTaken]
@[simp] theorem Block.message_ledger (b : Block) (n : Nat) : (b.message n).ledger = b.ledger := by simp [Block.message]
@[simp] theorem Block.occur_ledger (b : Block) (n : Nat) : (b.occur n).ledger = b.ledger := by simp [Block.occur]
@[simp] theorem Block.raise_ledger (b : Block) (n : Nat) : (b.raise n).ledger = b.ledger := by simp [Block.raise]

@[simp] theorem Block.occurAll_ledger (b : Block) (l : List Nat) : (b.occurAll l).ledger = b.ledger := by
  induction l generalizing b with
  | nil => rfl
  | cons x r ih => simp [Block.occurAll, ih]

@[simp] theorem Block.pciError_ledger (b : Block) (bit : Nat) : (b.pciError bit).ledger = b.ledger := by simp [Block.pciError]
@[simp] theorem Block.hostErr_ledger (b : Block) (code addr : Nat) : (b.hostErr code addr).ledger = b.ledger := by simp [Block.hostErr]

@[simp] theorem Block.halfEvent_ledger (b : Block) (a : Nat) : (b.halfEvent a).ledger = b.ledger := by
  unfold Block.halfEvent
  (repeat' split) <;> simp

@[simp] theorem Block.countUp_ledger (b : Block) (a n : Nat) : (b.countUp a n).ledger = b.ledger := by simp [Block.countUp]
@[simp] theorem Block.advance_ledger (b : Block) (d : Nat) : (b.advance d).ledger = b.ledger := by simp [Block.advance]
@[simp] theorem Block.advanceNs_ledger (b : Block) (n : Nat) : (b.advanceNs n).ledger = b.ledger := by simp [Block.advanceNs]
@[simp] theorem Block.reach_ledger (b : Block) (lt : Nat) : (b.reach lt).ledger = b.ledger := by simp [Block.reach]
@[simp] theorem Block.reachNs_ledger (b : Block) (ns : Nat) : (b.reachNs ns).ledger = b.ledger := by simp [Block.reachNs]
@[simp] theorem Block.reachPhys_ledger (b : Block) (p : Nat) : (b.reachPhys p).ledger = b.ledger := by simp [Block.reachPhys]
@[simp] theorem Block.clockAt_ledger (b : Block) (p : Nat) : (b.clockAt p).ledger = b.ledger := by simp [Block.clockAt]
@[simp] theorem Block.toPresent_ledger (b : Block) (d : Nat) : (b.toPresent d).ledger = b.ledger := by simp [Block.toPresent]
@[simp] theorem Block.reachStw_ledger (b : Block) (w : Word) : (b.reachStw w).ledger = b.ledger := by simp [Block.reachStw]
@[simp] theorem Block.requal_ledger (b : Block) : b.requal.ledger = b.ledger := by simp [Block.requal]
@[simp] theorem Block.retire_ledger (b : Block) (c : Channel) : (b.retire c).ledger = b.ledger := by simp [Block.retire]
@[simp] theorem Block.unretire_ledger (b : Block) (c : Channel) : (b.unretire c).ledger = b.ledger := by simp [Block.unretire]
@[simp] theorem Block.strike_ledger (b : Block) (c : Channel) : (b.strike c).ledger = b.ledger := by simp [Block.strike]

@[simp] theorem Block.fabEventFrom_ledger (b : Block) (evt n : Nat) (ok : Nat → Bool) (k : Nat) :
    (b.fabEventFrom evt n ok k).ledger = b.ledger := by
  induction k generalizing b with
  | zero => simp [Block.fabEventFrom]
  | succ k ih => simp [Block.fabEventFrom, ih]

@[simp] theorem Block.fabAdd_ledger (b : Block) (evt n : Nat) (ok : Nat → Bool) : (b.fabAdd evt n ok).ledger = b.ledger := by
  simp [Block.fabAdd]

@[simp] theorem Block.fabTo_ledger (b : Block) (t : Nat) : (b.fabTo t).ledger = b.ledger := by simp [Block.fabTo]
@[simp] theorem Block.fabKeep_ledger (b : Block) : b.fabKeep.ledger = b.ledger := by simp [Block.fabKeep]
@[simp] theorem Block.fabTouch_ledger (b : Block) : b.fabTouch.ledger = b.ledger := by simp [Block.fabTouch]

@[simp] theorem Block.fabEvent_ledger (b : Block) (evt n : Nat) (ok : Nat → Bool) : (b.fabEvent evt n ok).ledger = b.ledger := by
  simp [Block.fabEvent]

@[simp] theorem Block.fabCount_ledger (b : Block) (evt n : Nat) : (b.fabCount evt n).ledger = b.ledger := by simp [Block.fabCount]

@[simp] theorem Block.digEngine_ledger (b : Block) (n : Nat) (l : List Byte) : (b.digEngine n l).ledger = b.ledger := by
  simp [Block.digEngine]

@[simp] theorem Block.digFlow_ledger (b : Block) (l : List Byte) : (b.digFlow l).ledger = b.ledger := by simp [Block.digFlow]
@[simp] theorem Block.sendRope_ledger (b : Block) (m : RopeOut) : (b.sendRope m).ledger = b.ledger := by simp [Block.sendRope]
@[simp] theorem Block.journalItem_ledger (b : Block) (i : JItem) : (b.journalItem i).ledger = b.ledger := by simp [Block.journalItem]

/-! #### Machine/Cavern -/

@[simp] theorem Block.upsets_ledger (b : Block) (l : List (Nat × Bool)) : (b.upsets l).ledger = b.ledger := by
  induction l generalizing b with
  | nil => rfl
  | cons x r ih => simp [Block.upsets, ih]

@[simp] theorem Block.pageOut_ledger (b : Block) (page : Nat) : (b.pageOut page).ledger = b.ledger := by simp [Block.pageOut]
@[simp] theorem Block.pageStrike_ledger (b : Block) (w : Nat) : (b.pageStrike w).ledger = b.ledger := by simp [Block.pageStrike]
@[simp] theorem Block.cavTouch_ledger (b : Block) (w : Nat) : (b.cavTouch w).ledger = b.ledger := by simp [Block.cavTouch]
@[simp] theorem Block.cavSet_ledger (b : Block) (w : Nat) (x : Word) : (b.cavSet w x).ledger = b.ledger := by simp [Block.cavSet]
@[simp] theorem Block.remapPage_ledger (b : Block) (page : Nat) : (b.remapPage page).ledger = b.ledger := by simp [Block.remapPage]

@[simp] theorem Block.remapStep_ledger (b : Block) : b.remapStep.ledger = b.ledger := by
  unfold Block.remapStep
  split <;> simp

@[simp] theorem Block.bar2Touch_ledger (b : Block) (off w : Nat) : (b.bar2Touch off w).ledger = b.ledger := by simp [Block.bar2Touch]

@[simp] theorem Block.bar2Touches_ledger (b : Block) (off : Nat) (l : List Nat) : (b.bar2Touches off l).ledger = b.ledger := by
  induction l generalizing b with
  | nil => rfl
  | cons x r ih => simp [Block.bar2Touches, ih]

@[simp] theorem Block.bar2Read_ledger (b : Block) (off len : Nat) : (b.bar2Read off len).ledger = b.ledger := by simp [Block.bar2Read]

@[simp] theorem Block.bar2WriteWord_ledger (b : Block) (off w : Nat) (en : List (Option Byte)) :
    (b.bar2WriteWord off w en).ledger = b.ledger := by
  simp [Block.bar2WriteWord]

@[simp] theorem Block.bar2Writes_ledger (b : Block) (off : Nat) (bytes : List (Option Byte)) (l : List Nat) :
    (b.bar2Writes off bytes l).ledger = b.ledger := by
  induction l generalizing b with
  | nil => rfl
  | cons x r ih => simp [Block.bar2Writes, ih]

@[simp] theorem Block.bar2Write_ledger (b : Block) (off : Nat) (bytes : List (Option Byte)) :
    (b.bar2Write off bytes).ledger = b.ledger := by
  simp [Block.bar2Write]

/-! #### Machine/Lantern -/

@[simp] theorem Block.ltCapture_ledger (b : Block) : b.ltCapture.ledger = b.ledger := by simp [Block.ltCapture]

@[simp] theorem Block.startSlew_ledger (b : Block) (rem : Int) (kind : SlewKind) : (b.startSlew rem kind).ledger = b.ledger := by
  simp [Block.startSlew]

@[simp] theorem Block.stepLt_ledger (b : Block) (d : Int) : (b.stepLt d).ledger = b.ledger := by simp [Block.stepLt]

@[simp] theorem Block.scaleStep_ledger (b : Block) (d : Int) (kind : SlewKind) : (b.scaleStep d kind).ledger = b.ledger := by
  simp [Block.scaleStep]

@[simp] theorem Block.timeStep_ledger (b : Block) : b.timeStep.ledger = b.ledger := by simp [Block.timeStep]
@[simp] theorem Block.timeSlew_ledger (b : Block) : b.timeSlew.ledger = b.ledger := by simp [Block.timeSlew]
@[simp] theorem Block.timeSet_ledger (b : Block) : b.timeSet.ledger = b.ledger := by simp [Block.timeSet]
@[simp] theorem Block.endSlew_ledger (b : Block) : b.endSlew.ledger = b.ledger := by simp [Block.endSlew]

@[simp] theorem Block.markWaits_ledger (b : Block) (n status : Nat) (p : WaitSlot → Bool) :
    (b.markWaits n status p).ledger = b.ledger := by
  simp [Block.markWaits]

@[simp] theorem Block.setAxState_ledger (b : Block) (n st : Nat) : (b.setAxState n st).ledger = b.ledger := by simp [Block.setAxState]
@[simp] theorem Block.setAxis_ledger (b : Block) (n : Fin 16) (x : Axis) : (b.setAxis n x).ledger = b.ledger := by simp [Block.setAxis]
@[simp] theorem Block.axisOff_ledger (b : Block) (n : Fin 16) : (b.axisOff n).ledger = b.ledger := by simp [Block.axisOff]

@[simp] theorem Block.axisAcquire_ledger (b : Block) (n : Fin 16) (src : Nat) : (b.axisAcquire n src).ledger = b.ledger := by
  simp [Block.axisAcquire]

@[simp] theorem Block.storeAxCfg_ledger (b : Block) (n d : Nat) : (b.storeAxCfg n d).ledger = b.ledger := by simp [Block.storeAxCfg]

@[simp] theorem Block.axisSrc_ledger (b : Block) (n : Fin 16) (src : Nat) : (b.axisSrc n src).ledger = b.ledger := by
  simp [Block.axisSrc]

@[simp] theorem Block.axisSrcWrite_ledger (n : Fin 16) (data : Half) (b : Block) : (Block.axisSrcWrite n data b).ledger = b.ledger := by
  simp [Block.axisSrcWrite]

@[simp] theorem Block.axisRestart_ledger (n : Fin 16) (data : Half) (b : Block) : (Block.axisRestart n data b).ledger = b.ledger := by
  simp [Block.axisRestart]

@[simp] theorem Block.updateEb_ledger (b : Block) (n : Fin 16) : (b.updateEb n).ledger = b.ledger := by simp [Block.updateEb]

@[simp] theorem Block.faultyInterval_ledger (b : Block) (n : Fin 16) : (b.faultyInterval n).ledger = b.ledger := by
  simp [Block.faultyInterval]

@[simp] theorem Block.afterSample_ledger (b : Block) (n : Fin 16) : (b.afterSample n).ledger = b.ledger := by simp [Block.afterSample]
@[simp] theorem Block.recompute_ledger (b : Block) (n : Nat) : (b.recompute n).ledger = b.ledger := by simp [Block.recompute]

@[simp] theorem Block.applyRaw_ledger (b : Block) (n : Fin 16) (raw : Int) (s : Word) : (b.applyRaw n raw s).ledger = b.ledger := by
  simp [Block.applyRaw]

@[simp] theorem Block.indexRebase_ledger (b : Block) (n : Fin 16) (stamp : Word) : (b.indexRebase n stamp).ledger = b.ledger := by
  simp [Block.indexRebase]

@[simp] theorem Block.edgeless_ledger (b : Block) (n : Fin 16) (inst : Word) (last : Int) :
    (b.edgeless n inst last).ledger = b.ledger := by
  simp [Block.edgeless]

@[simp] theorem Block.applyInput_ledger (b : Block) (n : Fin 16) (x : SampleIn) : (b.applyInput n x).ledger = b.ledger := by
  unfold Block.applyInput
  (repeat' split) <;> simp

@[simp] theorem Block.sampleIn_ledger (b : Block) (n : Fin 16) (x : SampleIn) : (b.sampleIn n x).ledger = b.ledger := by
  simp [Block.sampleIn]

@[simp] theorem Block.dlyTake_ledger (b : Block) (e : Nat) (m : Fin 16) (raw : Int) (stamp : Word) :
    (b.dlyTake e m raw stamp).ledger = b.ledger := by
  unfold Block.dlyTake
  (repeat' split) <;> simp

@[simp] theorem Block.ssiTake_ledger (b : Block) (e : Nat) (v : Option Nat) (stamp : Word) (m : Fin 16) :
    (b.ssiTake e v stamp m).ledger = b.ledger := by
  unfold Block.ssiTake
  split <;> simp

@[simp] theorem Block.mainsSample_ledger (b : Block) (faulty : Bool) (n : Fin 16) : (b.mainsSample faulty n).ledger = b.ledger := by
  simp [Block.mainsSample]

@[simp] theorem Block.encClr_ledger (e : Nat) (b : Block) : (Block.encClr e b).ledger = b.ledger := by simp [Block.encClr]

@[simp] theorem Block.knotForce_ledger (b : Block) (n : Fin 16) (k : Knot) : (b.knotForce n k).ledger = b.ledger := by
  simp [Block.knotForce]

@[simp] theorem Block.knotArm_ledger (n : Fin 16) (b : Block) : (Block.knotArm n b).ledger = b.ledger := by simp [Block.knotArm]

@[simp] theorem Block.axisCapture_ledger (n : Fin 16) (b : Block) : (Block.axisCapture n b).ledger = b.ledger := by
  simp [Block.axisCapture]

@[simp] theorem Block.hostP2tGo_ledger (n : Fin 16) (data : Half) (b : Block) : (Block.hostP2tGo n data b).ledger = b.ledger := by
  simp [Block.hostP2tGo]

/-! #### Machine/KeyStore -/

@[simp] theorem Block.mapSec_ledger (b : Block) (f : SecSt → SecSt) : (b.mapSec f).ledger = b.ledger := by simp [Block.mapSec]

/-! #### Machine/Perf -/

@[simp] theorem Block.mapEng_ledger (b : Block) (n : Nat) (f : Engine → Engine) : (b.mapEng n f).ledger = b.ledger := by
  simp [Block.mapEng]

@[simp] theorem Block.engEventFrom_ledger (b : Block) (e evt n k : Nat) :
    (b.engEventFrom e evt n k).ledger = b.ledger := by
  induction k generalizing b with
  | zero => simp [Block.engEventFrom]
  | succ k ih => simp [Block.engEventFrom, ih]

@[simp] theorem Block.engEvent_ledger (b : Block) (e evt n : Nat) : (b.engEvent e evt n).ledger = b.ledger := by simp [Block.engEvent]

@[simp] theorem Block.waitTouch_ledger (b : Block) (n : Nat) : (b.waitTouch n).ledger = b.ledger := by
  unfold Block.waitTouch
  dsimp only
  (repeat' split) <;> simp

@[simp] theorem Block.prfTouch_ledger (b : Block) : b.prfTouch.ledger = b.ledger := by simp [Block.prfTouch, foldl_ledger]
@[simp] theorem Block.traceFull_ledger (b : Block) : b.traceFull.ledger = b.ledger := by simp [Block.traceFull]

@[simp] theorem Block.tracePut_ledger (b : Block) (e at_ : Nat) (r : TraceRec) : (b.tracePut e at_ r).ledger = b.ledger := by
  simp [Block.tracePut]

@[simp] theorem Block.trace_ledger (b : Block) (e pc at_ : Nat) (i : TraceInfo) : (b.trace e pc at_ i).ledger = b.ledger := by
  simp [Block.trace]

/-! #### Machine/Cycle -/

@[simp] theorem Block.galCause_ledger (b : Block) (f : Field) (n : Nat) : (b.galCause f n).ledger = b.ledger := by simp [Block.galCause]

@[simp] theorem Block.claimChecks_ledger (b : Block) (set l : List Nat) : (b.claimChecks set l).ledger = b.ledger := by
  induction l generalizing b with
  | nil => rfl
  | cons x r ih => simp [Block.claimChecks, ih]

@[simp] theorem Block.claimCheck_ledger (b : Block) : b.claimCheck.ledger = b.ledger := by simp [Block.claimCheck]
@[simp] theorem Block.fitSlot_ledger (b : Block) : b.fitSlot.ledger = b.ledger := by simp [Block.fitSlot]
@[simp] theorem Block.allowShow_ledger (b : Block) : b.allowShow.ledger = b.ledger := by simp [Block.allowShow]
@[simp] theorem Block.putInForce_ledger (b : Block) : b.putInForce.ledger = b.ledger := by simp [Block.putInForce]
@[simp] theorem Block.putInForceNow_ledger (b : Block) : b.putInForceNow.ledger = b.ledger := by simp [Block.putInForceNow]

@[simp] theorem Block.storePeriod_ledger (b : Block) (data : Half) : (b.storePeriod data).ledger = b.ledger := by
  simp [Block.storePeriod]

@[simp] theorem Block.startCycles_ledger (b : Block) : b.startCycles.ledger = b.ledger := by simp [Block.startCycles]

@[simp] theorem Block.cycleWrite_ledger (data : Half) (arm : Bool) (b : Block) : (Block.cycleWrite data arm b).ledger = b.ledger := by
  simp [Block.cycleWrite]

@[simp] theorem Block.mslotWrite_ledger (data : Half) (b : Block) : (Block.mslotWrite data b).ledger = b.ledger := by
  simp [Block.mslotWrite]

@[simp] theorem Block.lwmClrEngines_ledger (b : Block) (l : List Nat) : (b.lwmClrEngines l).ledger = b.ledger := by
  induction l generalizing b with
  | nil => rfl
  | cons x r ih => simp [Block.lwmClrEngines, ih]

@[simp] theorem Block.lwmClr_ledger (b : Block) : b.lwmClr.ledger = b.ledger := by simp [Block.lwmClr]

@[simp] theorem Block.lowWater_ledger (b : Block) (f : Field) (margin : Nat) : (b.lowWater f margin).ledger = b.ledger := by
  simp [Block.lowWater]

/-! #### Machine/Sump -/

@[simp] theorem Block.mapSw_ledger (b : Block) (f : SwSt → SwSt) : (b.mapSw f).ledger = b.ledger := by simp [Block.mapSw]

@[simp] theorem Block.cellEvents_ledger (b : Block) (evt : Nat) (f : SFrame) : (b.cellEvents evt f).ledger = b.ledger := by
  simp [Block.cellEvents]

@[simp] theorem Block.mapMac_ledger (b : Block) (n : Nat) (f : MacSt → MacSt) : (b.mapMac n f).ledger = b.ledger := by
  simp [Block.mapMac]

@[simp] theorem Block.sendPause_ledger (b : Block) (n q : Nat) : (b.sendPause n q).ledger = b.ledger := by simp [Block.sendPause]
@[simp] theorem Block.sendPfc_ledger (b : Block) (n mask q : Nat) : (b.sendPfc n mask q).ledger = b.ledger := by simp [Block.sendPfc]
@[simp] theorem Block.pauseSource_ledger (b : Block) (s n : Nat) : (b.pauseSource s n).ledger = b.ledger := by simp [Block.pauseSource]

@[simp] theorem Block.unpauseSource_ledger (b : Block) (n : Nat) : (b.unpauseSource n).ledger = b.ledger := by
  simp [Block.unpauseSource]

@[simp] theorem Block.sourceUpdate_ledger (b : Block) (s : Nat) : (b.sourceUpdate s).ledger = b.ledger := by
  unfold Block.sourceUpdate
  (repeat' split) <;> simp

@[simp] theorem Block.cellUpdate_ledger (b : Block) : b.cellUpdate.ledger = b.ledger := by simp [Block.cellUpdate]

@[simp] theorem Block.sourceUpdates_ledger (b : Block) (l : List Nat) : (b.sourceUpdates l).ledger = b.ledger := by
  induction l generalizing b with
  | nil => rfl
  | cons x r ih => simp [Block.sourceUpdates, ih]

@[simp] theorem Block.shareUpdate_ledger (b : Block) : b.shareUpdate.ledger = b.ledger := by simp [Block.shareUpdate]

@[simp] theorem Block.store_ledger (b : Block) (f : InFrame) (resv : Bool) : (b.store f resv).1.ledger = b.ledger := by
  simp [Block.store]

@[simp] theorem Block.freeFrame_ledger (b : Block) (id : Nat) : (b.freeFrame id).ledger = b.ledger := by
  unfold Block.freeFrame
  split <;> simp

@[simp] theorem Block.setRefs_ledger (b : Block) (id : Nat) (g : Nat → Nat) : (b.setRefs id g).ledger = b.ledger := by
  simp [Block.setRefs]

@[simp] theorem Block.release_ledger (b : Block) (id : Nat) : (b.release id).ledger = b.ledger := by
  unfold Block.release
  split <;> simp

@[simp] theorem Block.queueUpdate_ledger (b : Block) (p c : Nat) : (b.queueUpdate p c).ledger = b.ledger := by simp [Block.queueUpdate]

@[simp] theorem Block.queueUpdates_ledger (b : Block) (p : Nat) : (b.queueUpdates p).ledger = b.ledger := by
  unfold Block.queueUpdates
  exact foldl_ledger (fun _ _ => by simp) _ _

@[simp] theorem Block.enqueue_ledger (b : Block) (x : Copy) (src : Nat) : (b.enqueue x src).ledger = b.ledger := by simp [Block.enqueue]
@[simp] theorem Block.dropCopy_ledger (b : Block) (x : Copy) : (b.dropCopy x).ledger = b.ledger := by simp [Block.dropCopy]

@[simp] theorem Block.dropCounted_ledger (b : Block) (i : Nat) (l : List Copy) : (b.dropCounted i l).ledger = b.ledger := by
  induction l generalizing b with
  | nil => rfl
  | cons x r ih => simp [Block.dropCounted, ih]

@[simp] theorem Block.openGate_ledger (b : Block) (p : Nat) : (b.openGate p).ledger = b.ledger := by simp [Block.openGate]
@[simp] theorem Block.closeGate_ledger (b : Block) (p : Nat) : (b.closeGate p).ledger = b.ledger := by simp [Block.closeGate]

@[simp] theorem Block.setGates_ledger (b : Block) (opn : Bool) (mask : Nat) (l : List Nat) : (b.setGates opn mask l).ledger = b.ledger := by
  induction l generalizing b with
  | nil => rfl
  | cons x r ih => simp [Block.setGates, ih]

@[simp] theorem Block.gates_ledger (b : Block) (opn : Bool) (mask : Nat) : (b.gates opn mask).ledger = b.ledger := by simp [Block.gates]

@[simp] theorem Block.lateAtBoundary_ledger (b : Block) (cycle : Nat) : (b.lateAtBoundary cycle).ledger = b.ledger := by
  simp [Block.lateAtBoundary]

/-! #### Machine/Mac -/

@[simp] theorem Block.macCount_ledger (b : Block) (n i k : Nat) : (b.macCount n i k).ledger = b.ledger := by simp [Block.macCount]
@[simp] theorem Block.ptpCount_ledger (b : Block) (n i : Nat) : (b.ptpCount n i).ledger = b.ledger := by simp [Block.ptpCount]

@[simp] theorem Block.countRx_ledger (b : Block) (n : Nat) (l : List Byte) : (b.countRx n l).ledger = b.ledger := by
  simp [Block.countRx]

@[simp] theorem Block.countTx_ledger (b : Block) (n : Nat) (l : List Byte) : (b.countTx n l).ledger = b.ledger := by
  simp [Block.countTx]

@[simp] theorem Block.pausedShow_ledger (b : Block) (n : Nat) : (b.pausedShow n).ledger = b.ledger := by simp [Block.pausedShow]
@[simp] theorem Block.pauseRx_ledger (b : Block) (n q : Nat) : (b.pauseRx n q).ledger = b.ledger := by simp [Block.pauseRx]

@[simp] theorem Block.pfcRx_ledger (b : Block) (n en : Nat) (times : List Nat) : (b.pfcRx n en times).ledger = b.ledger := by
  simp [Block.pfcRx]

@[simp] theorem Block.controlRx_ledger (b : Block) (n : Nat) (l : List Byte) : (b.controlRx n l).ledger = b.ledger := by
  simp [Block.controlRx]

@[simp] theorem Block.toCore_ledger (b : Block) (f : InFrame) : (b.toCore f).ledger = b.ledger := by simp [Block.toCore]

@[simp] theorem Block.rxGood_ledger (b : Block) (n : Nat) (l : List Byte) : (b.rxGood n l).ledger = b.ledger := by
  unfold Block.rxGood
  (repeat' split) <;> simp

@[simp] theorem Block.ringDisc_ledger (b : Block) (r : Nat) : (b.ringDisc r).ledger = b.ledger := by simp [Block.ringDisc]

@[simp] theorem Block.ringRx_ledger (b : Block) (p : Nat) (l : List Byte) : (b.ringRx p l).ledger = b.ledger := by
  unfold Block.ringRx
  split <;> simp

@[simp] theorem Block.rxCounts_ledger (b : Block) (n : Nat) (f : WireFrame) : (b.rxCounts n f).ledger = b.ledger := by
  simp [Block.rxCounts]

@[simp] theorem Block.rxFrame_ledger (b : Block) (n : Nat) (f : WireFrame) : (b.rxFrame n f).ledger = b.ledger := by
  simp [Block.rxFrame]

@[simp] theorem Block.tsSumShow_ledger (b : Block) (n : Nat) : (b.tsSumShow n).ledger = b.ledger := by simp [Block.tsSumShow]

@[simp] theorem Block.tsShow_ledger (b : Block) (n : Nat) : (b.tsShow n).ledger = b.ledger := by
  unfold Block.tsShow
  dsimp only
  (repeat' split) <;> simp

@[simp] theorem Block.tsPush_ledger (b : Block) (n : Nat) (r : TsRec) : (b.tsPush n r).ledger = b.ledger := by simp [Block.tsPush]
@[simp] theorem Block.tsPop_ledger (n : Nat) (b : Block) : (Block.tsPop n b).ledger = b.ledger := by simp [Block.tsPop]

@[simp] theorem Block.tsRecord_ledger (b : Block) (n : Nat) (w : Word) (l : List Byte) : (b.tsRecord n w l).ledger = b.ledger := by
  unfold Block.tsRecord
  split <;> simp

/-! #### Machine/SwitchCore -/

@[simp] theorem Block.stompShow_ledger (b : Block) (p code : Nat) : (b.stompShow p code).ledger = b.ledger := by simp [Block.stompShow]
@[simp] theorem Block.lastSlice_ledger (b : Block) : b.lastSlice.ledger = b.ledger := by simp [Block.lastSlice]
@[simp] theorem Block.sliceRetire_ledger (b : Block) (k : Nat) : (b.sliceRetire k).ledger = b.ledger := by simp [Block.sliceRetire]

@[simp] theorem Block.rowJoin_ledger (b : Block) (p : Nat × Nat × Option Nat) : (b.rowJoin p).ledger = b.ledger := by
  simp [Block.rowJoin]

@[simp] theorem Block.rowJoins_ledger (b : Block) (l : List (Nat × Nat × Option Nat)) : (b.rowJoins l).ledger = b.ledger := by
  induction l generalizing b with
  | nil => rfl
  | cons x r ih => simp [Block.rowJoins, ih]

@[simp] theorem Block.rowSettle_ledger (b : Block) : b.rowSettle.ledger = b.ledger := by simp [Block.rowSettle]
@[simp] theorem Block.rowOut_ledger (b : Block) (k row : Nat) : (b.rowOut k row).ledger = b.ledger := by simp [Block.rowOut]
@[simp] theorem Block.rowStrike_ledger (b : Block) (k row : Nat) : (b.rowStrike k row).ledger = b.ledger := by simp [Block.rowStrike]
@[simp] theorem Block.cellUpset_ledger (b : Block) (u : CellUpset) : (b.cellUpset u).ledger = b.ledger := by simp [Block.cellUpset]

@[simp] theorem Block.cellUpsets_ledger (b : Block) (l : List CellUpset) : (b.cellUpsets l).ledger = b.ledger := by
  induction l generalizing b with
  | nil => rfl
  | cons x r ih => simp [Block.cellUpsets, ih]

@[simp] theorem Block.readCells_ledger (b : Block) (id : Nat) (ups : List CellUpset) : (b.readCells id ups).1.ledger = b.ledger := by
  unfold Block.readCells
  split <;> simp

@[simp] theorem Block.clearRowHistory_ledger (b : Block) (k : Nat) : (b.clearRowHistory k).ledger = b.ledger := by
  simp [Block.clearRowHistory]

@[simp] theorem Block.slicesIn_ledger (b : Block) (mask : BitVec 4) : (b.slicesIn mask).ledger = b.ledger := by simp [Block.slicesIn]
@[simp] theorem Block.rowsBack_ledger (b : Block) (k : Nat) : (b.rowsBack k).ledger = b.ledger := by simp [Block.rowsBack]

@[simp] theorem Block.rowsBackAll_ledger (b : Block) (mask : BitVec 4) (l : List Nat) : (b.rowsBackAll mask l).ledger = b.ledger := by
  induction l generalizing b with
  | nil => rfl
  | cons x r ih => simp [Block.rowsBackAll, ih]

@[simp] theorem Block.sliceReturn_ledger (mask : BitVec 4) (b : Block) : (Block.sliceReturn mask b).ledger = b.ledger := by
  unfold Block.sliceReturn
  simp
  exact foldl_ledger (fun _ _ => by simp) _ _

@[simp] theorem Block.spareClear_ledger (mask : BitVec 4) (b : Block) : (Block.spareClear mask b).ledger = b.ledger := by
  simp [Block.spareClear]

@[simp] theorem Block.swTurn_ledger (b1 : Block) : b1.swTurn.ledger = b1.ledger := by simp [Block.swTurn]

@[simp] theorem Block.eliminate_ledger (b : Block) (f : InFrame) : (b.eliminate f).1.ledger = b.ledger := by
  unfold Block.eliminate
  (repeat' split) <;> simp

@[simp] theorem Block.fdbDrop_ledger (b : Block) (mac vid : Nat) : (b.fdbDrop mac vid).ledger = b.ledger := by simp [Block.fdbDrop]
@[simp] theorem Block.fdbPut_ledger (b : Block) (e : Fdb) : (b.fdbPut e).ledger = b.ledger := by simp [Block.fdbPut]

@[simp] theorem Block.learn_ledger (b : Block) (s : Nat) (f : InFrame) : (b.learn s f).ledger = b.ledger := by
  unfold Block.learn
  dsimp only
  (repeat' split) <;> simp

@[simp] theorem Block.placeCopies_ledger (b : Block) (f : InFrame) (id : Nat) (multi : Bool) (l : List Nat) :
    (b.placeCopies f id multi l).ledger = b.ledger := by
  induction l generalizing b with
  | nil => rfl
  | cons x r ih => simp [Block.placeCopies, ih]

@[simp] theorem Block.countExcl_ledger (b : Block) (f : InFrame) (l : List Nat) : (b.countExcl f l).ledger = b.ledger := by
  induction l generalizing b with
  | nil => rfl
  | cons x r ih => simp [Block.countExcl, ih]

@[simp] theorem Block.countFenced_ledger (b : Block) (f : InFrame) (l : List Nat) : (b.countFenced f l).ledger = b.ledger := by
  induction l generalizing b with
  | nil => rfl
  | cons x r ih => simp [Block.countFenced, ih]

@[simp] theorem Block.place_ledger (b : Block) (f : InFrame) (ts : List Nat) : (b.place f ts).ledger = b.ledger := by simp [Block.place]
@[simp] theorem Block.forward_ledger (b : Block) (f : InFrame) : (b.forward f).ledger = b.ledger := by simp [Block.forward]
@[simp] theorem Block.refuse_ledger (b : Block) (s : Nat) : (b.refuse s).ledger = b.ledger := by simp [Block.refuse]
@[simp] theorem Block.deliverHost_ledger (b : Block) (f : InFrame) : (b.deliverHost f).ledger = b.ledger := by simp [Block.deliverHost]
@[simp] theorem Block.mailIn_ledger (b : Block) (f : InFrame) (r : Nat) : (b.mailIn f r).ledger = b.ledger := by simp [Block.mailIn]

@[simp] theorem Block.takeIn_ledger (b : Block) (f0 : InFrame) (unwritable : Bool) : (b.takeIn f0 unwritable).ledger = b.ledger := by
  have h := Block.eliminate_ledger b f0
  unfold Block.takeIn
  split
  · rfl
  split
  · split <;> simp
  generalize b.eliminate f0 = p at h ⊢
  obtain ⟨b1, _ | f⟩ := p
  · exact h
  · dsimp only at h ⊢
    simp [h]

@[simp] theorem Block.wrr_ledger (b : Block) (p n k m : Nat) : (b.wrr p n k m).1.ledger = b.ledger := by
  induction m generalizing b with
  | zero => rfl
  | succ m ih =>
    unfold Block.wrr
    extract_lets t order
    split
    · split <;> simp
    · rw [ih, Block.mapSw_ledger]

@[simp] theorem Block.wrrHead_ledger (b : Block) (p n : Nat) : (b.wrrHead p n).1.ledger = b.ledger := by
  unfold Block.wrrHead
  extract_lets k
  split <;> simp

@[simp] theorem Block.nextCopy_ledger (b : Block) (p n : Nat) : (b.nextCopy p n).1.ledger = b.ledger := by
  unfold Block.nextCopy
  dsimp only
  (repeat' split) <;> simp

@[simp] theorem Block.txFinish_ledger (b : Block) (n : Nat) (t : TxNow) : (b.txFinish n t).ledger = b.ledger := by simp [Block.txFinish]

@[simp] theorem Block.txBegin_ledger (b : Block) (n : Nat) (x : Copy) (sf : SFrame) (ue : Bool) :
    (b.txBegin n x sf ue).ledger = b.ledger := by
  simp [Block.txBegin]

@[simp] theorem Block.unqueue_ledger (b : Block) (x : Copy) : (b.unqueue x).ledger = b.ledger := by simp [Block.unqueue]
@[simp] theorem Block.ueDrop_ledger (b : Block) (p c : Nat) : (b.ueDrop p c).ledger = b.ledger := by simp [Block.ueDrop]

@[simp] theorem Block.fetchAhead_ledger (b : Block) (p : Nat) (ups : List CellUpset) (k : Nat) (l : List Copy) :
    (b.fetchAhead p ups k l).ledger = b.ledger := by
  induction l generalizing b k with
  | nil => rfl
  | cons x r ih => simp [Block.fetchAhead, ih]

@[simp] theorem Block.resequenced_ledger (b : Block) (x : Copy) : (b.resequenced x).ledger = b.ledger := by simp [Block.resequenced]

@[simp] theorem Block.transmit_ledger (b0 : Block) (p n : Nat) (ups : List CellUpset) :
    (b0.transmit p n ups).ledger = b0.ledger := by
  have h := Block.nextCopy_ledger (b0.fetchAhead p ups 0 (b0.sw.copies.filter (fun x => x.port == p))) p n
  unfold Block.transmit
  dsimp only
  generalize Block.nextCopy _ p n = q at h ⊢
  obtain ⟨b1, _ | x⟩ := q
  · simpa using h
  · dsimp only at h ⊢
    split <;> simpa using h

@[simp] theorem Block.passedDone_ledger (b : Block) (l : List Copy) : (b.passedDone l).ledger = b.ledger := by
  induction l generalizing b with
  | nil => rfl
  | cons x r ih => simp [Block.passedDone, ih]

@[simp] theorem Block.passedSettle_ledger (b : Block) (p : Nat) : (b.passedSettle p).ledger = b.ledger := by simp [Block.passedSettle]
@[simp] theorem Block.flushCopies_ledger (b : Block) (p : Nat) : (b.flushCopies p).ledger = b.ledger := by simp [Block.flushCopies]
@[simp] theorem Block.rxAbort_ledger (b : Block) (s : Nat) : (b.rxAbort s).ledger = b.ledger := by simp [Block.rxAbort, foldl_ledger]

@[simp] theorem Block.portFlush_ledger (b : Block) (p : Nat) (linkUp : Bool) : (b.portFlush p linkUp).ledger = b.ledger := by
  unfold Block.portFlush
  dsimp only
  (repeat' split) <;> simp

@[simp] theorem Block.upShow_ledger (b : Block) (p : Nat) (linkUp : Bool) : (b.upShow p linkUp).ledger = b.ledger := by
  simp [Block.upShow]

@[simp] theorem Block.portEn_ledger (p : Nat) (en : Bool) (b : Block) : (Block.portEn p en b).ledger = b.ledger := by
  simp [Block.portEn]

@[simp] theorem Block.fdbWrite_ledger (b : Block) : b.fdbWrite.ledger = b.ledger := by simp [Block.fdbWrite]
@[simp] theorem Block.fdbDelete_ledger (b : Block) : b.fdbDelete.ledger = b.ledger := by simp [Block.fdbDelete]
@[simp] theorem Block.fdbLookup_ledger (b : Block) : b.fdbLookup.ledger = b.ledger := by simp [Block.fdbLookup]
@[simp] theorem Block.vlanWrite_ledger (b : Block) : b.vlanWrite.ledger = b.ledger := by simp [Block.vlanWrite]
@[simp] theorem Block.vlanRead_ledger (b : Block) : b.vlanRead.ledger = b.ledger := by simp [Block.vlanRead]
@[simp] theorem Block.streamWrite_ledger (b : Block) : b.streamWrite.ledger = b.ledger := by simp [Block.streamWrite]
@[simp] theorem Block.streamRead_ledger (b : Block) : b.streamRead.ledger = b.ledger := by simp [Block.streamRead]

/-! #### Machine/Dma -/

@[simp] theorem Block.dmaEnd_ledger (b : Block) (n : Nat) (notify : Bool) (status : Nat) :
    (b.dmaEnd n notify status).ledger = b.ledger := by
  simp [Block.dmaEnd]

@[simp] theorem Block.dmaIn_ledger (b : Block) (w unit : Nat) (data : List Byte) (k : Nat) :
    (b.dmaIn w unit data k).ledger = b.ledger := by
  induction k generalizing b w data with
  | zero => rfl
  | succ k ih => simp [Block.dmaIn, ih]

@[simp] theorem Block.dmaOut_ledger (b : Block) (w unit addr : Nat) (bad : Bool) (k : Nat) :
    (b.dmaOut w unit addr bad k).1.ledger = b.ledger := by
  induction k generalizing b w addr bad with
  | zero => rfl
  | succ k ih => simp [Block.dmaOut, ih]

@[simp] theorem Block.dmaFrame_ledger (b : Block) (d : Desc) (bad : Nat) (l : List Byte) : (b.dmaFrame d bad l).ledger = b.ledger := by
  simp [Block.dmaFrame]

@[simp] theorem Block.dmaRun_ledger (b : Block) (n : Nat) (d : Desc) (data : List Byte) : (b.dmaRun n d data).ledger = b.ledger := by
  simp [Block.dmaRun]

@[simp] theorem Block.dmaDeliver_ledger (b0 : Block) (d : Desc) (ups : List CellUpset) : (b0.dmaDeliver d ups).ledger = b0.ledger := by
  have h := Block.nextCopy_ledger
    ((b0.reachPhys (b0.leaveAt 32)).fetchAhead 32 ups 0 (b0.sw.copies.filter (fun x => x.port == 32))) 32 40
  unfold Block.dmaDeliver
  dsimp only
  generalize Block.nextCopy _ 32 40 = q at h ⊢
  obtain ⟨b1, _ | x⟩ := q
  · simp
  · dsimp only at h ⊢
    split <;> simpa using h

@[simp] theorem Block.dmaHalt_ledger (b : Block) (n err cause addr : Nat) :
    (b.dmaHalt n err cause addr).ledger = b.ledger := by
  simp [Block.dmaHalt]

@[simp] theorem Block.dmaInPart_ledger (b : Block) (w : Nat) (data : List Byte) (k : Nat) : (b.dmaInPart w data k).ledger = b.ledger := by
  simp [Block.dmaInPart]

@[simp] theorem Block.dmaOutPart_ledger (b : Block) (d : Desc) (moved : Nat) : (b.dmaOutPart d moved).ledger = b.ledger := by
  unfold Block.dmaOutPart
  split <;> simp

@[simp] theorem Block.dmaAbort_ledger (b : Block) (n : Nat) (d : Desc) (data : List Byte) (moved : Nat) :
    (b.dmaAbort n d data moved).ledger = b.ledger := by
  simp [Block.dmaAbort]

@[simp] theorem Block.dmaCtl_ledger (n : Nat) (data : Half) (b : Block) : (Block.dmaCtl n data b).ledger = b.ledger := by
  simp [Block.dmaCtl]

@[simp] theorem Block.dmaDisableAct_ledger (n : Fin 4) (prog : Option (Desc × List Byte)) (moved : Nat) (b : Block) :
    (Block.dmaDisableAct n prog moved b).ledger = b.ledger := by
  unfold Block.dmaDisableAct
  split <;> simp

/-! #### Machine/Gallery -/

@[simp] theorem Block.mapE_ledger (b : Block) (e : Fin 16) (f : Engine → Engine) : (b.mapE e f).ledger = b.ledger := by
  simp [Block.mapE]

@[simp] theorem Block.leave_ledger (b : Block) (n st : Nat) : (b.leave n st).ledger = b.ledger := by simp [Block.leave]
@[simp] theorem Block.spareUpdate_ledger (b : Block) : b.spareUpdate.ledger = b.ledger := by simp [Block.spareUpdate]
@[simp] theorem Block.coreRetired_ledger (b : Block) (n : Nat) : (b.coreRetired n).ledger = b.ledger := by simp [Block.coreRetired]
@[simp] theorem Block.coreStrike_ledger (b : Block) (n : Nat) : (b.coreStrike n).ledger = b.ledger := by simp [Block.coreStrike]

@[simp] theorem Block.begin_ledger (b : Block) (n : Nat) (trig : Option Word) : (b.begin_ n trig).ledger = b.ledger := by
  simp [Block.begin_]

@[simp] theorem Block.homeCore_ledger (b : Block) (n : Nat) : (b.homeCore n).ledger = b.ledger := by simp [Block.homeCore]

@[simp] theorem Block.completed_ledger (b : Block) (e : Fin 16) (first : Nat) (stw insn : Word) (pc lat : Nat)
    (skip refused timeout retry : Bool) (trap : Nat) (res : Word) :
    (b.completed e first stw insn pc lat skip refused timeout retry trap res).ledger = b.ledger := by
  simp [Block.completed]

@[simp] theorem Block.trapAt_ledger (b : Block) (e : Fin 16) (first : Nat) (stw insn : Word) (pc pen code : Nat) :
    (b.trapAt e first stw insn pc pen code).ledger = b.ledger := by
  simp [Block.trapAt]

/-- The block that an instruction leaves, where it leaves one of its own. -/
def Act.after (b : Block) : Act → Block
  | .trap _ | .halt => b
  | .go c _ _ _ | .jump c _ _ | .wait c _ _ => c

/-- A property of the block that its ledger decides. -/
def OfLedger (P : Block → Prop) : Prop := ∀ b c : Block, c.ledger = b.ledger → P b → P c

theorem OfLedger.carry {P : Block → Prop} (hP : OfLedger P) {b : Block} {a : Act} (hb : P b) (ha : P (a.after b)) (e : Fin 16) (first : Nat)
    (stw insn : Word) (pen : Nat) : P (b.carry e first stw insn pen a) := by
  cases a with
  | trap c => exact hP b _ (by simp [Block.carry]) hb
  | halt => exact hP b _ (by simp [Block.carry]) hb
  | go c cost res refused =>
    simp only [Block.carry]
    split
    · exact hP b _ (by simp) hb
    · exact hP c _ (by simp) ha
  | jump c cost t =>
    simp only [Block.carry]
    split
    · exact hP b _ (by simp) hb
    · exact hP c _ (by simp) ha
  | wait c cost w =>
    simp only [Block.carry]
    split
    · exact hP b _ (by simp) hb
    · exact hP c _ (by simp) ha

theorem OfLedger.runWord {P : Block → Prop} (hP : OfLedger P) {act : Block → Act} (hact : ∀ c, P c → P ((act c).after c)) {b0 : Block}
    (hb0 : P b0) (e : Fin 16) (insn : Word) (chk : Nat) (psel : BitVec 4) (u : Upset) : P (b0.runWord e insn chk psel u act) := by
  unfold Block.runWord
  extract_lets first b1 stw pc b b2 r
  have hb : P b := hP b0 b (by cases u <;> simp [b, b1]) hb0
  refine hP r _ (by simp) ?_
  simp only [r]
  split
  · exact hP b _ (by simp) hb
  split
  · exact hP b _ (by simp) hb
  split
  · split
    · exact hP b _ (by simp) hb
    split
    · have h2 : P b2 := hP b _ (by simp [b2]) hb
      exact hP.carry h2 (hact _ h2) ..
    · exact hP.carry hb (hact _ hb) ..
  split
  · exact hP b _ (by simp) hb
  · exact hP b _ (by simp) hb

theorem OfLedger.runIf {P : Block → Prop} (hP : OfLedger P) {act : Block → Act} (hact : ∀ c, P c → P ((act c).after c)) {b : Block}
    (hb : P b) (e : Fin 16) (insn : Word) (chk : Nat) (psel : BitVec 4) (u : Upset) : P (b.runIf e insn chk psel u act) := by
  unfold Block.runIf
  split
  · exact hP.runWord hact hb ..
  · exact hb

theorem ofLedger_ledger (b : Block) : OfLedger (fun c => c.ledger = b.ledger) := fun _ _ h hb => h.trans hb

theorem Block.runIf_ledger {act : Block → Act} (hact : ∀ c, ((act c).after c).ledger = c.ledger) (b : Block) (e : Fin 16)
    (insn : Word) (chk : Nat) (psel : BitVec 4) (u : Upset) : (b.runIf e insn chk psel u act).ledger = b.ledger :=
  (ofLedger_ledger b).runIf (fun c hc => (hact c).trans hc) rfl e insn chk psel u

@[simp] theorem Block.hwStore_ledger (b : Block) (n k : Nat) (v : Word) : (b.hwStore n k v).ledger = b.ledger := by
  unfold Block.hwStore
  dsimp only
  (repeat' split) <;> simp

/-! #### Machine/GalleryFlow -/

@[simp] theorem Block.raiseCode_ledger (b : Block) (n code : Nat) : (b.raiseCode n code).ledger = b.ledger := by simp [Block.raiseCode]

@[simp] theorem Block.sendSig_ledger (b : Block) (mask : Nat) (bits : BitVec 8) (at_ : Nat) :
    (b.sendSig mask bits at_).ledger = b.ledger := by
  simp [Block.sendSig]

/-! #### Machine/GalleryWait -/

@[simp] theorem Block.endWait_ledger (b0 : Block) (n t : Nat) (timeout : Bool) (res : Word) (upd : Engine → Engine) :
    (b0.endWait n t timeout res upd).ledger = b0.ledger := by
  unfold Block.endWait
  split <;> simp

@[simp] theorem Block.releaseReg_ledger (b : Block) (n t reg : Nat) (v : Word) :
    (b.releaseReg n t reg v).ledger = b.ledger := by
  simp [Block.releaseReg]

@[simp] theorem Block.releaseAll_ledger (b : Block) (t : Nat) (l : List Nat) : (b.releaseAll t l).ledger = b.ledger := by
  induction l generalizing b with
  | nil => rfl
  | cons x r ih => simp [Block.releaseAll, ih]

/-! #### Machine/Snapshot -/

@[simp] theorem Block.halfSum_ledger (b : Block) (g : Nat) : (b.halfSum g).ledger = b.ledger := by simp [Block.halfSum]

@[simp] theorem Block.ackCounter_ledger (b0 : Block) (a : Nat) : (b0.ackCounter a).ledger = b0.ledger := by
  unfold Block.ackCounter
  (repeat' split) <;> simp

@[simp] theorem Block.counterAckAct_ledger (a : BitVec 24) (b : Block) : (Block.counterAckAct a b).ledger = b.ledger := by
  simp [Block.counterAckAct]

@[simp] theorem Block.armSnap_ledger (b : Block) (at_ : Option Word) (owner : Nat) : (b.armSnap at_ owner).1.ledger = b.ledger := by
  unfold Block.armSnap
  split <;> simp

@[simp] theorem Block.hostSnap_ledger (b : Block) (at_ : Option Word) : (b.hostSnap at_).ledger = b.ledger := by simp [Block.hostSnap]
@[simp] theorem Block.snapArmAct_ledger (b : Block) : b.snapArmAct.ledger = b.ledger := by simp [Block.snapArmAct]
@[simp] theorem Block.snapNowAct_ledger (b : Block) : b.snapNowAct.ledger = b.ledger := by simp [Block.snapNowAct]
@[simp] theorem Block.snapCancel_ledger (b : Block) : b.snapCancel.ledger = b.ledger := by simp [Block.snapCancel]

@[simp] theorem Block.setRegs_ledger (b : Block) (l : List (Nat × Word)) : (b.setRegs l).ledger = b.ledger := by
  induction l generalizing b with
  | nil => rfl
  | cons x r ih => simp [Block.setRegs, ih]

@[simp] theorem Block.trctlStore_ledger (b : Block) (data : Half) : (b.trctlStore data).ledger = b.ledger := by
  unfold Block.trctlStore
  extract_lets
  split
  · exact (Block.ledger_mk _ ..).trans (Block.setReg_ledger ..)
  · exact Block.setReg_ledger ..

@[simp] theorem Block.traceClr_ledger (b : Block) (data : Half) : (b.traceClr data).ledger = b.ledger := by simp [Block.traceClr]

@[simp] theorem Block.traceClrAct_ledger (data : Half) (b : Block) : (Block.traceClrAct data b).ledger = b.ledger := by
  simp [Block.traceClrAct]

@[simp] theorem Block.traceLoad_ledger (b : Block) (data : Half) : (b.traceLoad data).ledger = b.ledger := by simp [Block.traceLoad]

@[simp] theorem Block.traceLoadAct_ledger (data : Half) (b : Block) : (Block.traceLoadAct data b).ledger = b.ledger := by
  simp [Block.traceLoadAct]

@[simp] theorem Block.perfCounterReadAct_ledger (a : BitVec 24) (b : Block) : (Block.perfCounterReadAct a b).ledger = b.ledger := by
  simp [Block.perfCounterReadAct]

/-! #### Machine/GalleryFrames -/

@[simp] theorem Block.digFrame_ledger (b : Block) (n : Nat) (fr : EFrame) : (b.digFrame n fr).ledger = b.ledger := by
  simp [Block.digFrame]

/-! #### Machine/GalleryControl -/

@[simp] theorem Block.recordMargin_ledger (b : Block) (n : Nat) : (b.recordMargin n).ledger = b.ledger := by simp [Block.recordMargin]

@[simp] theorem Block.galMargins_ledger (b : Block) (l : List Nat) : (b.galMargins l).ledger = b.ledger := by
  induction l generalizing b with
  | nil => rfl
  | cons x r ih => simp [Block.galMargins, ih]

@[simp] theorem Block.recordCycle_ledger (b : Block) (n : Nat) : (b.recordCycle n).ledger = b.ledger := by simp [Block.recordCycle]

@[simp] theorem Block.discardTrigger_ledger (b : Block) (n : Nat) : (b.discardTrigger n).ledger = b.ledger := by
  unfold Block.discardTrigger
  dsimp only
  (repeat' split) <;> simp

@[simp] theorem Block.triggerRunning_ledger (b : Block) (n : Nat) (w : Word) : (b.triggerRunning n w).ledger = b.ledger := by
  simp [Block.triggerRunning]

@[simp] theorem Block.restartMoved_ledger (b : Block) (n : Nat) (trig : Option Word) : (b.restartMoved n trig).ledger = b.ledger := by
  simp [Block.restartMoved]

@[simp] theorem Block.triggerOne_ledger (b : Block) (n : Nat) (w : Word) : (b.triggerOne n w).ledger = b.ledger := by
  simp [Block.triggerOne]

@[simp] theorem Block.triggerAll_ledger (b : Block) (w : Word) (l : List Nat) : (b.triggerAll w l).ledger = b.ledger := by
  induction l generalizing b with
  | nil => rfl
  | cons x r ih => simp [Block.triggerAll, ih]

@[simp] theorem Block.digTurn_ledger (b : Block) (bound : Word) : (b.digTurn bound).ledger = b.ledger := by simp [Block.digTurn]
@[simp] theorem Block.lcode_ledger (b : Block) (n code : Nat) : (b.lcode n code).ledger = b.ledger := by simp [Block.lcode]
@[simp] theorem Block.loadFail_ledger (b : Block) (n code : Nat) : (b.loadFail n code).ledger = b.ledger := by simp [Block.loadFail]
@[simp] theorem Block.loadReq_ledger (b : Block) (n : Nat) : (b.loadReq n).ledger = b.ledger := by simp [Block.loadReq]
@[simp] theorem Block.startReq_ledger (b : Block) (n : Nat) : (b.startReq n).ledger = b.ledger := by simp [Block.startReq]
@[simp] theorem Block.disable_ledger (b : Block) (n : Nat) : (b.disable n).ledger = b.ledger := by simp [Block.disable]

@[simp] theorem Block.galCtl_ledger (n : Nat) (en start load : Bool) (b : Block) :
    (Block.galCtl n en start load b).ledger = b.ledger := by
  simp [Block.galCtl]

@[simp] theorem Block.startEffect_ledger (b : Block) (n : Nat) : (b.startEffect n).ledger = b.ledger := by simp [Block.startEffect]

@[simp] theorem Block.spareWrite_ledger (en : Bool) (b : Block) : (Block.spareWrite en b).ledger = b.ledger := by
  simp [Block.spareWrite]

@[simp] theorem Block.engRetireClear_ledger (n : Nat) (b : Block) : (Block.engRetireClear n b).ledger = b.ledger := by
  simp [Block.engRetireClear]

@[simp] theorem Block.ddataCapture_ledger (n : Nat) (data : Half) (b : Block) : (Block.ddataCapture n data b).ledger = b.ledger := by
  simp [Block.ddataCapture]

@[simp] theorem Block.ddataWrite_ledger (n : Nat) (hi : Bool) (data : Half) (b : Block) :
    (Block.ddataWrite n hi data b).ledger = b.ledger := by
  simp [Block.ddataWrite]

@[simp] theorem Block.hdiscClr_ledger (n : Nat) (b : Block) : (Block.hdiscClr n b).ledger = b.ledger := by simp [Block.hdiscClr]
@[simp] theorem Block.rcodeClr_ledger (n : Nat) (b : Block) : (Block.rcodeClr n b).ledger = b.ledger := by simp [Block.rcodeClr]
@[simp] theorem Block.slackClr_ledger (n : Nat) (b : Block) : (Block.slackClr n b).ledger = b.ledger := by simp [Block.slackClr]

/-! #### Machine/Flowstone -/

@[simp] theorem Block.mapFlw_ledger (b : Block) (f : FlwSt → FlwSt) : (b.mapFlw f).ledger = b.ledger := by simp [Block.mapFlw]
@[simp] theorem Block.flwCount_ledger (b : Block) (i n : Nat) : (b.flwCount i n).ledger = b.ledger := by simp [Block.flwCount]
@[simp] theorem Block.setRec_ledger (b : Block) (i : Nat) (r : Rec) : (b.setRec i r).ledger = b.ledger := by simp [Block.setRec]
@[simp] theorem Block.winShow_ledger (b : Block) (k : Nat) : (b.winShow k).ledger = b.ledger := by simp [Block.winShow]

@[simp] theorem Block.winShows_ledger (b : Block) (l : List Nat) : (b.winShows l).ledger = b.ledger := by
  induction l generalizing b with
  | nil => rfl
  | cons x r ih => simp [Block.winShows, ih]

@[simp] theorem Block.flwShow_ledger (b : Block) : b.flwShow.ledger = b.ledger := by simp [Block.flwShow]
@[simp] theorem Block.levelDrop_ledger (b : Block) (was : Nat) : (b.levelDrop was).ledger = b.ledger := by simp [Block.levelDrop]
@[simp] theorem Block.relevel_ledger (b : Block) : b.relevel.ledger = b.ledger := by simp [Block.relevel]
@[simp] theorem Block.touchKeys_ledger (b : Block) (ks : List Nat) : (b.touchKeys ks).ledger = b.ledger := by simp [Block.touchKeys]

@[simp] theorem Block.cavTouches_ledger (b : Block) (l : List Nat) : (b.cavTouches l).ledger = b.ledger := by
  induction l generalizing b with
  | nil => rfl
  | cons x r ih => simp [Block.cavTouches, ih]

@[simp] theorem Block.fetchKey_ledger (b : Block) (k : Nat) : (b.fetchKey k).1.ledger = b.ledger := by
  unfold Block.fetchKey
  dsimp only
  (repeat' split) <;> simp

@[simp] theorem Block.camFault_ledger (b : Block) (f : Field) (addr i : Nat) : (b.camFault f addr i).ledger = b.ledger := by
  simp [Block.camFault]

@[simp] theorem Block.queueSeek_ledger (b : Block) (i : Nat) : (b.queueSeek i).ledger = b.ledger := by simp [Block.queueSeek]
@[simp] theorem Block.enterSeek_ledger (b : Block) (i : Nat) : (b.enterSeek i).ledger = b.ledger := by simp [Block.enterSeek]
@[simp] theorem Block.noteOver_ledger (b : Block) : b.noteOver.ledger = b.ledger := by simp [Block.noteOver]

@[simp] theorem Block.hold_ledger (b : Block) (fl : Flight) (i why : Nat) : (b.hold fl i why).1.ledger = b.ledger := by
  simp [Block.hold]

@[simp] theorem Block.evalCount_ledger (b : Block) (n : Nat) : (b.evalCount n).ledger = b.ledger := by simp [Block.evalCount]

@[simp] theorem Block.retryIn_ledger (b : Block) (c : Nat) (fl : Flight) (l : List Slot) : (b.retryIn c fl l).1.ledger = b.ledger := by
  induction l generalizing b fl with
  | nil => rfl
  | cons x r ih =>
    unfold Block.retryIn
    split
    · split <;> simp [ih]
    · simp [ih]

@[simp] theorem Block.retryMiss_ledger (b : Block) (c : Nat) (fl : Flight) (l : List Miss) :
    (b.retryMiss c fl l).1.ledger = b.ledger := by
  induction l generalizing b fl with
  | nil => rfl
  | cons x r ih =>
    unfold Block.retryMiss
    split
    · split <;> simp [ih]
    · simp [ih]

@[simp] theorem Block.retryFlights_ledger (b : Block) (c : Nat) (l ls : List Flight) :
    (b.retryFlights c l ls).ledger = b.ledger := by
  induction ls generalizing b l with
  | nil => simp [Block.retryFlights]
  | cons fl r ih => simp [Block.retryFlights, ih]

@[simp] theorem Block.cellRetire_ledger (b : Block) (c : Nat) : (b.cellRetire c).ledger = b.ledger := by simp [Block.cellRetire]
@[simp] theorem Block.cellError_ledger (b : Block) (c : Nat) : (b.cellError c).ledger = b.ledger := by simp [Block.cellError]

@[simp] theorem Block.cellClear_ledger (mask : BitVec 8) (b : Block) : (Block.cellClear mask b).ledger = b.ledger := by
  simp [Block.cellClear]

@[simp] theorem Block.prefetch_ledger (b : Block) (o : EvalOut) (r : Rec) (vm : Word) : (b.prefetch o r vm).ledger = b.ledger := by
  unfold Block.prefetch
  split
  · rfl
  split
  case h_2 => rfl
  next k _ =>
  split
  · simp
  have h := Block.fetchKey_ledger b k
  generalize b.fetchKey k = p at h ⊢
  obtain ⟨b1, _ | a⟩ := p
  · exact h
  · simpa using h

@[simp] theorem Block.evalDone_ledger (b : Block) (fl : Flight) (r : Rec) (cell at_ : Nat) (o : EvalOut) :
    (b.evalDone fl r cell at_ o).1.ledger = b.ledger := by
  simp [Block.evalDone]

@[simp] theorem Block.request_ledger (b : Block) (i : Nat) (pm : Word) (why : Option Nat) : (b.request i pm why).ledger = b.ledger := by
  simp [Block.request]

@[simp] theorem Block.retries_ledger (b : Block) (k m i : Nat) : (b.retries k m i).1.ledger = b.ledger := by
  induction k generalizing b m i with
  | zero => rfl
  | succ fuel ih =>
    unfold Block.retries
    split
    · rfl
    · dsimp only
      split <;> simp [ih]

@[simp] theorem Block.dispatchRec_ledger (b : Block) (fl : Flight) (i : Nat) : (b.dispatchRec fl i).1.ledger = b.ledger := by
  unfold Block.dispatchRec
  dsimp only
  split
  · simp
  · simp
  generalize hq : Block.retries _ _ _ _ = q
  have h : q.1.ledger = b.ledger := by simp [← hq]
  obtain ⟨b2, _ | d⟩ := q
  · simpa using h
  · dsimp only at h ⊢
    split <;> simpa using h

@[simp] theorem Block.dispatchRecs_ledger (b : Block) (fl : Flight) (limit : Option Nat) (l : List Nat) :
    (b.dispatchRecs fl limit l).1.ledger = b.ledger := by
  induction l generalizing b fl with
  | nil => rfl
  | cons i r ih =>
    unfold Block.dispatchRecs
    split <;> simp [ih]

theorem Block.mapBusy_ledger {f : Block → Flight → Block × Flight} (h : ∀ c fl, (f c fl).1.ledger = c.ledger) (b : Block) :
    (b.mapBusy f).ledger = b.ledger := by
  unfold Block.mapBusy
  split
  · simp [h]
  · rfl

@[simp] theorem Block.dispatchTo_ledger (b : Block) (limit : Option Nat) : (b.dispatchTo limit).ledger = b.ledger := by
  unfold Block.dispatchTo
  refine Block.mapBusy_ledger (fun c fl => ?_) b
  dsimp only
  split <;> simp

@[simp] theorem Block.writeResult_ledger (b : Block) (eng at_ : Nat) (x : SlotResult) :
    (b.writeResult eng at_ x).ledger = b.ledger := by
  unfold Block.writeResult
  (repeat' split) <;> simp

@[simp] theorem Block.writeSlots_ledger (b : Block) (eng : Nat) (l : List Slot) : (b.writeSlots eng l).ledger = b.ledger := by
  induction l generalizing b with
  | nil => rfl
  | cons x r ih => simp [Block.writeSlots, ih]

@[simp] theorem Block.writeDue_ledger (b : Block) (l ls : List Flight) : (b.writeDue l ls).ledger = b.ledger := by
  induction ls generalizing b l with
  | nil => simp [Block.writeDue]
  | cons fl r ih => simp [Block.writeDue, ih]

@[simp] theorem Block.flwRun_ledger (b0 : Block) : b0.flwRun.ledger = b0.ledger := by simp [Block.flwRun]

@[simp] theorem Block.tagDone_ledger (b : Block) (x : Batch) (st : Word) (t : Nat) : (b.tagDone x st t).ledger = b.ledger := by
  simp [Block.tagDone]

@[simp] theorem Block.enqueueIn_ledger (b : Block) (x : Batch) : (b.enqueueIn x).ledger = b.ledger := by simp [Block.enqueueIn]

@[simp] theorem Block.holdOff_ledger (b : Block) (fl : Flight) (l : List Nat) : (b.holdOff fl l).1.ledger = b.ledger := by
  induction l generalizing b fl with
  | nil => rfl
  | cons i r ih => simp [Block.holdOff, ih]

@[simp] theorem Block.nakFlight_ledger (b : Block) (fl : Flight) (t : Nat) : (b.nakFlight fl t).1.ledger = b.ledger := by
  simp [Block.nakFlight]

@[simp] theorem Block.nakOff_ledger (b : Block) (x : Batch) (t : Nat) : (b.nakOff x t).ledger = b.ledger := by simp [Block.nakOff]

@[simp] theorem Block.nakAll_ledger (b : Block) (l : List Batch) : (b.nakAll l).ledger = b.ledger := by
  induction l generalizing b with
  | nil => rfl
  | cons x r ih => simp [Block.nakAll, ih]

@[simp] theorem Block.flwStop_ledger (b0 : Block) : b0.flwStop.ledger = b0.ledger := by
  simp [Block.flwStop, Block.mapBusy_ledger]

@[simp] theorem Block.flwDisable_ledger (b : Block) : b.flwDisable.ledger = b.ledger := by simp [Block.flwDisable]

@[simp] theorem Block.seekOne_ledger (b : Block) (i : Nat) : (b.seekOne i).ledger = b.ledger := by
  unfold Block.seekOne
  dsimp only
  (repeat' split) <;> simp

@[simp] theorem Block.w2Write_ledger (b : Block) (i : Nat) (v : Word) : (b.w2Write i v).ledger = b.ledger := by simp [Block.w2Write]

@[simp] theorem Block.windowWrite_ledger (b0 : Block) (win reg : Nat) (v : Word) :
    (b0.windowWrite win reg v).ledger = b0.ledger := by
  simp [Block.windowWrite]

@[simp] theorem Block.recordWrite_ledger (win reg : Nat) (hi : Bool) (data : Half) (b : Block) :
    (Block.recordWrite win reg hi data b).ledger = b.ledger := by
  simp [Block.recordWrite]

@[simp] theorem Block.switchCtl_ledger (data : Half) (go : Bool) (b : Block) : (Block.switchCtl data go b).ledger = b.ledger := by
  simp [Block.switchCtl]

@[simp] theorem Block.cellReturns_ledger (b : Block) (m : BitVec 8) (l : List Nat) : (b.cellReturns m l).ledger = b.ledger := by
  induction l generalizing b with
  | nil => rfl
  | cons x r ih => simp [Block.cellReturns, ih]

@[simp] theorem Block.cellLeaves_ledger (b : Block) (m : BitVec 8) (l : List Nat) : (b.cellLeaves m l).ledger = b.ledger := by
  induction l generalizing b with
  | nil => rfl
  | cons x r ih => simp [Block.cellLeaves, ih]

@[simp] theorem Block.priShow_ledger (b : Block) (l : List Nat) : (b.priShow l).ledger = b.ledger := by
  induction l generalizing b with
  | nil => rfl
  | cons x r ih => simp [Block.priShow, ih]

@[simp] theorem Block.flwCycleEnd_ledger (b0 : Block) (completed : Bool) : (b0.flwCycleEnd completed).ledger = b0.ledger := by
  simp [Block.flwCycleEnd]

@[simp] theorem Block.flwBoundary_ledger (b : Block) : b.flwBoundary.ledger = b.ledger := by simp [Block.flwBoundary]

/-! #### Machine/CalReport -/

@[simp] theorem Block.calReport_ledger (b : Block) (kind unit code : Nat) :
    (b.calReport kind unit code).ledger = b.ledger := by
  simp [Block.calReport]

/-! #### Machine/Lanes -/

@[simp] theorem Block.mapLane_ledger (b : Block) (l : Nat) (f : LaneSt → LaneSt) : (b.mapLane l f).ledger = b.ledger := by
  simp [Block.mapLane]

@[simp] theorem Block.lostCheck_ledger (b : Block) (n : Nat) : (b.lostCheck n).ledger = b.ledger := by simp [Block.lostCheck]

@[simp] theorem Block.lostChecks_ledger (b : Block) : b.lostChecks.ledger = b.ledger := by
  unfold Block.lostChecks
  exact foldl_ledger (fun _ _ => by simp) _ _

@[simp] theorem Block.mapPt_ledger (b : Block) (n : Nat) (f : PortTime → PortTime) : (b.mapPt n f).ledger = b.ledger := by
  simp [Block.mapPt]

@[simp] theorem Block.loopEnd_ledger (b : Block) (n status code : Nat) : (b.loopEnd n status code).ledger = b.ledger := by
  simp [Block.loopEnd]

@[simp] theorem Block.linkLost_ledger (b : Block) (n code : Nat) : (b.linkLost n code).ledger = b.ledger := by simp [Block.linkLost]
@[simp] theorem Block.portShow_ledger (b : Block) (n : Nat) : (b.portShow n).ledger = b.ledger := by simp [Block.portShow]
@[simp] theorem Block.testEnd_ledger (b : Block) (l status : Nat) : (b.testEnd l status).ledger = b.ledger := by simp [Block.testEnd]

@[simp] theorem Block.testCheck_ledger (b : Block) (l : Nat) : (b.testCheck l).ledger = b.ledger := by
  unfold Block.testCheck
  split <;> simp

@[simp] theorem Block.capSend_ledger (b : Block) (l : Nat) (ack : Bool) : (b.capSend l ack).ledger = b.ledger := by simp [Block.capSend]

@[simp] theorem Block.capTell_ledger (b : Block) : b.capTell.ledger = b.ledger := by
  unfold Block.capTell
  exact foldl_ledger (fun _ _ => by simp) _ _

@[simp] theorem Block.laneGo_ledger (b : Block) (l st : Nat) : (b.laneGo l st).ledger = b.ledger := by simp [Block.laneGo]

@[simp] theorem Block.laneStart_ledger (b : Block) (l : Nat) (awake : Bool) : (b.laneStart l awake).ledger = b.ledger := by
  simp [Block.laneStart]

@[simp] theorem Block.lanesStart_ledger (b : Block) (awake : Bool) (l : List Nat) : (b.lanesStart awake l).ledger = b.ledger := by
  induction l generalizing b with
  | nil => rfl
  | cons x r ih => simp [Block.lanesStart, ih]

@[simp] theorem Block.laneWoken_ledger (b : Block) (l : Nat) : (b.laneWoken l).ledger = b.ledger := by
  unfold Block.laneWoken
  split <;> simp

@[simp] theorem Block.lanesOff_ledger (b : Block) (l : List Nat) : (b.lanesOff l).ledger = b.ledger := by
  induction l generalizing b with
  | nil => rfl
  | cons x r ih => simp [Block.lanesOff, ih]

@[simp] theorem Block.groupWait_ledger (b : Block) (l : Nat) (ls : List Nat) : (b.groupWait l ls).ledger = b.ledger := by
  induction ls generalizing b with
  | nil => rfl
  | cons x r ih => simp [Block.groupWait, ih]

@[simp] theorem Block.laneTo_ledger (b : Block) (l st : Nat) : (b.laneTo l st).ledger = b.ledger := by
  simp [Block.laneTo]

@[simp] theorem Block.lanesGo_ledger (b : Block) (st : Nat) (l : List Nat) : (b.lanesGo st l).ledger = b.ledger := by
  induction l generalizing b with
  | nil => rfl
  | cons x r ih => simp [Block.lanesGo, ih]

@[simp] theorem Block.ropeReform_ledger (b : Block) : b.ropeReform.ledger = b.ledger := by
  unfold Block.ropeReform
  split <;> simp

@[simp] theorem Block.ropeCheck_ledger (b : Block) : b.ropeCheck.ledger = b.ledger := by simp [Block.ropeCheck]

@[simp] theorem Block.mapPhase_ledger (b : Block) (f : RopePhase → RopePhase) : (b.mapPhase f).ledger = b.ledger := by
  simp [Block.mapPhase]

@[simp] theorem Block.phaseRestart_ledger (b : Block) : b.phaseRestart.ledger = b.ledger := by simp [Block.phaseRestart]
@[simp] theorem Block.phaseResult_ledger (b : Block) (m : Int) : (b.phaseResult m).ledger = b.ledger := by simp [Block.phaseResult]
@[simp] theorem Block.phaseIn_ledger (b : Block) (d : Int) : (b.phaseIn d).ledger = b.ledger := by simp [Block.phaseIn]

@[simp] theorem Block.farMap_ledger (b : Block) (m : CapMsg) : (b.farMap m).ledger = b.ledger := by
  unfold Block.farMap
  simp
  exact foldl_ledger (fun _ _ => by simp) _ _

@[simp] theorem Block.ropeStart_ledger (b : Block) (awake : Bool) : (b.ropeStart awake).ledger = b.ledger := by
  unfold Block.ropeStart
  simp
  exact foldl_ledger (fun _ _ => by simp) _ _

@[simp] theorem Block.ropeStop_ledger (b : Block) : b.ropeStop.ledger = b.ledger := by simp [Block.ropeStop]

@[simp] theorem Block.putSkews_ledger (b : Block) (l : List (Nat × BitVec 20)) : (b.putSkews l).ledger = b.ledger := by
  induction l generalizing b with
  | nil => rfl
  | cons x r ih => simp [Block.putSkews, ih]

@[simp] theorem Block.capFail_ledger (b : Block) (l code : Nat) : (b.capFail l code).ledger = b.ledger := by simp [Block.capFail]
@[simp] theorem Block.timedOut_ledger (b : Block) (l : Nat) : (b.timedOut l).ledger = b.ledger := by simp [Block.timedOut]

@[simp] theorem Block.deskewOut_ledger (b : Block) (l : List Nat) : (b.deskewOut l).ledger = b.ledger := by
  induction l generalizing b with
  | nil => rfl
  | cons x r ih => simp [Block.deskewOut, ih]

@[simp] theorem Block.degrade_ledger (b : Block) (n : Nat) : (b.degrade n).ledger = b.ledger := by
  unfold Block.degrade
  dsimp only
  (repeat' split) <;> simp

@[simp] theorem Block.laneRetire_ledger (b : Block) (l : Nat) : (b.laneRetire l).ledger = b.ledger := by simp [Block.laneRetire]
@[simp] theorem Block.lockLoss_ledger (b : Block) (l : Nat) : (b.lockLoss l).ledger = b.ledger := by simp [Block.lockLoss]
@[simp] theorem Block.strikeBack_ledger (b : Block) (l : Nat) : (b.strikeBack l).ledger = b.ledger := by simp [Block.strikeBack]
@[simp] theorem Block.retrain_ledger (l : Nat) (b : Block) : (Block.retrain l b).ledger = b.ledger := by simp [Block.retrain]

@[simp] theorem Block.laneUnretire_ledger (l : Nat) (b : Block) : (Block.laneUnretire l b).ledger = b.ledger := by
  simp [Block.laneUnretire]

@[simp] theorem Block.adaptTo_ledger (b : Block) (l p : Nat) : (b.adaptTo l p).ledger = b.ledger := by simp [Block.adaptTo]

@[simp] theorem Block.laneTestGo_ledger (l : Nat) (data : Half) (b : Block) : (Block.laneTestGo l data b).ledger = b.ledger := by
  simp [Block.laneTestGo]

@[simp] theorem Block.sscStore_ledger (data : Half) (b : Block) : (Block.sscStore data b).ledger = b.ledger := by simp [Block.sscStore]

@[simp] theorem Block.sscWriteAct_ledger (data : Half) (b : Block) : (Block.sscWriteAct data b).ledger = b.ledger := by
  simp [Block.sscWriteAct]

@[simp] theorem Block.quadShow_ledger (b : Block) (q : Nat) : (b.quadShow q).ledger = b.ledger := by simp [Block.quadShow]

@[simp] theorem Block.quadShows_ledger (b : Block) : b.quadShows.ledger = b.ledger := by
  unfold Block.quadShows
  exact foldl_ledger (fun _ _ => by simp) _ _

@[simp] theorem Block.portStart_ledger (b : Block) (n : Nat) (awake : Bool) : (b.portStart n awake).ledger = b.ledger := by
  unfold Block.portStart
  dsimp only
  (repeat' split) <;> simp

@[simp] theorem Block.macEnable_ledger (n : Nat) (b : Block) : (Block.macEnable n b).ledger = b.ledger := by simp [Block.macEnable]

@[simp] theorem Block.macDisable_ledger (n : Nat) (receiving : Bool) (b : Block) :
    (Block.macDisable n receiving b).ledger = b.ledger := by
  simp [Block.macDisable]

/-! #### Machine/Ring -/

@[simp] theorem Block.mapRing_ledger (b : Block) (n : Nat) (f : RingSt → RingSt) : (b.mapRing n f).ledger = b.ledger := by
  simp [Block.mapRing]

@[simp] theorem Block.mapRings_ledger (b : Block) (f : RingsSt → RingsSt) : (b.mapRings f).ledger = b.ledger := by simp [Block.mapRings]
@[simp] theorem Block.fullNext_ledger (b : Block) (n : Nat) : (b.fullNext n).ledger = b.ledger := by simp [Block.fullNext]

@[simp] theorem Block.ringInvalid_ledger (b : Block) (n code : Nat) : (b.ringInvalid n code).ledger = b.ledger := by
  simp [Block.ringInvalid]

@[simp] theorem Block.wrapEnter_ledger (b : Block) (n : Nat) : (b.wrapEnter n).ledger = b.ledger := by simp [Block.wrapEnter]

@[simp] theorem Block.ringView_ledger (b : Block) (n : Nat) : (b.ringView n).ledger = b.ledger := by
  unfold Block.ringView
  simp
  exact foldl_ledger (fun _ _ => by simp) _ _

@[simp] theorem Block.ringOut_ledger (b : Block) (p : Nat) (l : List Byte) : (b.ringOut p l).ledger = b.ledger := by
  simp [Block.ringOut]

@[simp] theorem Block.ringStomp_ledger (b : Block) (p : Nat) (l : List Byte) : (b.ringStomp p l).ledger = b.ledger := by
  simp [Block.ringStomp]

@[simp] theorem Block.ringOuts_ledger (b : Block) (l : List Byte) (stomp : Bool) (ls : List Nat) :
    (b.ringOuts l stomp ls).ledger = b.ledger := by
  induction ls generalizing b with
  | nil => rfl
  | cons p r ih => simp [Block.ringOuts, ih]

@[simp] theorem Block.sendPorts_ledger (b : Block) (n : Nat) : (b.sendPorts n).1.ledger = b.ledger := by
  unfold Block.sendPorts
  split <;> simp

@[simp] theorem Block.nodeMail_ledger (b : Block) (n pos svc : Nat) (payload : List Byte) :
    (b.nodeMail n pos svc payload).ledger = b.ledger := by
  unfold Block.nodeMail
  extract_lets l
  split <;> simp

@[simp] theorem Block.nodeMails_ledger (b : Block) (n svc : Nat) (pay : Nat → List Byte) (l : List Nat) :
    (b.nodeMails n svc pay l).ledger = b.ledger := by
  induction l generalizing b with
  | nil => rfl
  | cons x r ih => simp [Block.nodeMails, ih]

@[simp] theorem Block.badRef_ledger (b : Block) (n ep : Nat) : (b.badRef n ep).ledger = b.ledger := by simp [Block.badRef]

@[simp] theorem Block.storeWord_ledger (b : Block) (e a : Nat) (v : Word) : (b.storeWord e a v).ledger = b.ledger := by
  simp [Block.storeWord]

@[simp] theorem Block.slotsSent_ledger (b : Block) (n : Nat) (l : List SlotOut) : (b.slotsSent n l).ledger = b.ledger := by
  induction l generalizing b with
  | nil => rfl
  | cons x r ih => simp [Block.slotsSent, ih]

@[simp] theorem Block.dataRefs_ledger (b : Block) (n : Nat) (l : List Nat) : (b.dataRefs n l).ledger = b.ledger := by
  induction l generalizing b with
  | nil => rfl
  | cons x r ih => simp [Block.dataRefs, ih]

@[simp] theorem Block.fillData_ledger (b : Block) (n grant k : Nat) (l : List Byte) :
    (b.fillData n grant k l).1.ledger = b.ledger := by
  induction k generalizing b l with
  | zero => rfl
  | succ fuel ih =>
    unfold Block.fillData
    dsimp only
    (repeat' split) <;> simp [ih]

@[simp] theorem Block.fillFrame_ledger (b' : Block) (n : Nat) (first : Bool) (l : List Byte) :
    (b'.fillFrame n first l).1.ledger = b'.ledger := by
  simp [Block.fillFrame]

@[simp] theorem Block.ringEmit_ledger (b : Block) (n : Nat) (f : InFrame) : (b.ringEmit n f).ledger = b.ledger := by
  simp [Block.ringEmit]

@[simp] theorem Block.sendOn_ledger (b : Block) (n : Nat) (stomp : Bool) (l : List Byte) (used : List (Nat × Nat)) (ls : List Nat) :
    (b.sendOn n stomp l used ls).1.ledger = b.ledger := by
  induction ls generalizing b used with
  | nil => rfl
  | cons p r ih => simp [Block.sendOn, ih]

@[simp] theorem Block.trainDrop_ledger (b : Block) (n fid : Nat) : (b.trainDrop n fid).ledger = b.ledger := by simp [Block.trainDrop]

@[simp] theorem Block.mailFlush_ledger (b : Block) (n : Nat) : (b.mailFlush n).ledger = b.ledger := by
  unfold Block.mailFlush
  (repeat' split) <;> simp

@[simp] theorem Block.wakeSend_ledger (b : Block) (n : Nat) : (b.wakeSend n).ledger = b.ledger := by
  unfold Block.wakeSend
  split <;> simp

@[simp] theorem Block.ringRun_ledger (b : Block) (n : Nat) : (b.ringRun n).ledger = b.ledger := by simp [Block.ringRun]

@[simp] theorem Block.sendFirst_ledger (b0 : Block) (n : Nat) (t : TrainFrame) (ups : List CellUpset) :
    (b0.sendFirst n t ups).ledger = b0.ledger := by
  unfold Block.sendFirst
  dsimp only
  (repeat' split) <;> simp

@[simp] theorem Block.nodeRetire_ledger (b : Block) (n subr pos : Nat) : (b.nodeRetire n subr pos).ledger = b.ledger := by
  simp [Block.nodeRetire]

@[simp] theorem Block.nodePresence_ledger (b : Block) (n subr pos : Nat) (here : Bool) :
    (b.nodePresence n subr pos here).ledger = b.ledger := by
  simp [Block.nodePresence]

@[simp] theorem Block.presNodes_ledger (b : Block) (n subr : Nat) (l : List Byte) (k m : Nat) :
    (b.presNodes n subr l k m).ledger = b.ledger := by
  induction m generalizing b k with
  | zero => rfl
  | succ m ih => simp [Block.presNodes, ih]

@[simp] theorem Block.returnWord_ledger (b : Block) (e a : Nat) (v : Word) (cycle claim : Nat) :
    (b.returnWord e a v cycle claim).ledger = b.ledger := by
  simp [Block.returnWord]

@[simp] theorem Block.returnApply_ledger (b : Block) (e a : Nat) (v : Word) (cycle claim : Nat) :
    (b.returnApply e a v cycle claim).ledger = b.ledger := by
  simp [Block.returnApply]

@[simp] theorem Block.inputWords_ledger (b : Block) (e cycle claim k m : Nat) (l : List Byte) :
    (b.inputWords e cycle claim k m l).ledger = b.ledger := by
  induction k generalizing b m l with
  | zero => rfl
  | succ k ih => simp [Block.inputWords, ih]

@[simp] theorem Block.slotReturn_ledger (b : Block) (n ep cycle claim : Nat) (slot : List Byte) :
    (b.slotReturn n ep cycle claim slot).ledger = b.ledger := by
  simp [Block.slotReturn]

@[simp] theorem Block.slotReturns_ledger (b : Block) (n cycle claim slot k m : Nat) (l : List Byte) :
    (b.slotReturns n cycle claim slot k m l).ledger = b.ledger := by
  induction m generalizing b k l with
  | zero => rfl
  | succ m ih => simp [Block.slotReturns, ih]

@[simp] theorem Block.returnSlots_ledger (b : Block) (n cycle claim : Nat) (l : List Dgram) :
    (b.returnSlots n cycle claim l).ledger = b.ledger := by
  induction l generalizing b with
  | nil => rfl
  | cons x r ih => simp [Block.returnSlots, ih]

@[simp] theorem Block.returnPres_ledger (b : Block) (n : Nat) (l : List Dgram) : (b.returnPres n l).ledger = b.ledger := by
  induction l generalizing b with
  | nil => rfl
  | cons x r ih => simp [Block.returnPres, ih]

@[simp] theorem Block.mapTrain_ledger (b : Block) (n fid : Nat) (f : TrainFrame → TrainFrame) :
    (b.mapTrain n fid f).ledger = b.ledger := by
  simp [Block.mapTrain]

@[simp] theorem Block.resend_ledger (b : Block) (n p : Nat) (t : TrainFrame) : (b.resend n p t).ledger = b.ledger := by
  unfold Block.resend
  dsimp only
  split <;> simp

@[simp] theorem Block.passedRing_ledger (b : Block) (n out txs : Nat) : (b.passedRing n out txs).ledger = b.ledger := by
  simp [Block.passedRing]

@[simp] theorem Block.trainBack_ledger (b : Block) (n p out txs : Nat) (t : TrainFrame) (l : List Byte) :
    (b.trainBack n p out txs t l).ledger = b.ledger := by
  simp [Block.trainBack]

@[simp] theorem Block.ringBack_ledger (b : Block) (n p : Nat) (f : WireFrame) : (b.ringBack n p f).ledger = b.ledger := by
  unfold Block.ringBack
  dsimp only
  (repeat' split) <;> simp

@[simp] theorem Block.ringBackShow_ledger (b : Block) (n p : Nat) (f : WireFrame) : (b.ringBackShow n p f).ledger = b.ledger := by
  simp [Block.ringBackShow]

@[simp] theorem Block.ringEcho_ledger (b : Block) (p : Nat) (f : WireFrame) : (b.ringEcho p f).ledger = b.ledger := by
  simp [Block.ringEcho]

@[simp] theorem Block.eptSwapNow_ledger (b : Block) : b.eptSwapNow.ledger = b.ledger := by simp [Block.eptSwapNow]
@[simp] theorem Block.eptSwap_ledger (b : Block) : b.eptSwap.ledger = b.ledger := by simp [Block.eptSwap]
@[simp] theorem Block.eptCopied_ledger (b : Block) : b.eptCopied.ledger = b.ledger := by simp [Block.eptCopied]
@[simp] theorem Block.eptBoundary_ledger (b : Block) : b.eptBoundary.ledger = b.ledger := by simp [Block.eptBoundary]

@[simp] theorem Block.eptWrite_ledger (data : Half) (b0 : Block) : (Block.eptWrite data b0).ledger = b0.ledger := by
  simp [Block.eptWrite]

@[simp] theorem Block.eptRead_ledger (data : Half) (b0 : Block) : (Block.eptRead data b0).ledger = b0.ledger := by simp [Block.eptRead]

@[simp] theorem Block.eptProfile_ledger (b : Block) (banked : Bool) : (b.eptProfile banked).ledger = b.ledger := by
  simp [Block.eptProfile]

@[simp] theorem Block.ringAllowShow_ledger (b : Block) (n : Nat) : (b.ringAllowShow n).ledger = b.ledger := by
  simp [Block.ringAllowShow]

@[simp] theorem Block.zrgStore_ledger (n : Nat) (data : Half) (b : Block) : (Block.zrgStore n data b).ledger = b.ledger := by
  simp [Block.zrgStore]

@[simp] theorem Block.trainFree_ledger (b : Block) (n : Nat) : (b.trainFree n).ledger = b.ledger := by
  simp [Block.trainFree, foldl_ledger]

@[simp] theorem Block.ringOff_ledger (b : Block) (n : Nat) : (b.ringOff n).ledger = b.ledger := by simp [Block.ringOff]
@[simp] theorem Block.ringStop_ledger (b : Block) (n : Nat) : (b.ringStop n).ledger = b.ledger := by simp [Block.ringStop, foldl_ledger]
@[simp] theorem Block.scanStart_ledger (b : Block) (n : Nat) : (b.scanStart n).ledger = b.ledger := by simp [Block.scanStart]

@[simp] theorem Block.zrgCfg_ledger (n : Nat) (data : Half) (b : Block) : (Block.zrgCfg n data b).ledger = b.ledger := by
  simp [Block.zrgCfg]

@[simp] theorem Block.nodesBack_ledger (n subr : Nat) (l : List Nat) (b : Block) :
    (Block.nodesBack n subr l b).ledger = b.ledger := by
  induction l generalizing b with
  | nil => rfl
  | cons pos r ih => simp [Block.nodesBack, ih]

@[simp] theorem Block.lostClear_ledger (n j : Nat) (mask : Half) (b : Block) : (Block.lostClear n j mask b).ledger = b.ledger := by
  simp [Block.lostClear]

@[simp] theorem Block.wdogWrite_ledger (n : Nat) (data : Half) (b : Block) : (Block.wdogWrite n data b).ledger = b.ledger := by
  simp [Block.wdogWrite]

@[simp] theorem Block.lselWrite_ledger (n v : Nat) (b : Block) : (Block.lselWrite n v b).ledger = b.ledger := by simp [Block.lselWrite]

@[simp] theorem Block.trainLate_ledger (b : Block) (n : Nat) (l : List TrainFrame) : (b.trainLate n l).ledger = b.ledger := by
  induction l generalizing b with
  | nil => rfl
  | cons x r ih => simp [Block.trainLate, ih]

@[simp] theorem Block.ringJudge_ledger (b : Block) (n : Nat) : (b.ringJudge n).ledger = b.ledger := by simp [Block.ringJudge]
@[simp] theorem Block.ringMargin_ledger (b : Block) (n : Nat) : (b.ringMargin n).ledger = b.ledger := by simp [Block.ringMargin]
@[simp] theorem Block.ringUnwrap_ledger (b : Block) (n : Nat) : (b.ringUnwrap n).ledger = b.ledger := by simp [Block.ringUnwrap]
@[simp] theorem Block.ringNext_ledger (b : Block) (n : Nat) : (b.ringNext n).ledger = b.ledger := by simp [Block.ringNext]
@[simp] theorem Block.ringEnd_ledger (b : Block) (n : Nat) : (b.ringEnd n).ledger = b.ledger := by simp [Block.ringEnd]

@[simp] theorem Block.ringEnds_ledger (b : Block) (l : List Nat) : (b.ringEnds l).ledger = b.ledger := by
  induction l generalizing b with
  | nil => rfl
  | cons x r ih => simp [Block.ringEnds, ih]

@[simp] theorem Block.ringBoundary_ledger (b : Block) : b.ringBoundary.ledger = b.ledger := by simp [Block.ringBoundary]

/-! #### Machine/Emission -/

@[simp] theorem Block.lateFrame_ledger (b : Block) (f : InFrame) (ts : List Nat) : (b.lateFrame f ts).ledger = b.ledger := by
  unfold Block.lateFrame
  exact foldl_ledger (fun _ _ => by simp) _ _

@[simp] theorem Block.emitted_ledger (b : Block) (fr : EFrame) : (b.emitted fr).ledger = b.ledger := by
  unfold Block.emitted
  (repeat' split) <;> simp

@[simp] theorem Block.moveCell_ledger (b0 : Block) (e : Fin 16) (i : Nat) (fr : EFrame) : (b0.moveCell e i fr).ledger = b0.ledger := by
  simp [Block.moveCell]

/-! #### Machine/Pulse -/

@[simp] theorem Block.mapOut_ledger (b : Block) (j : Nat) (f : OutSt → OutSt) : (b.mapOut j f).ledger = b.ledger := by
  simp [Block.mapOut]

@[simp] theorem Block.outSettle_ledger (b : Block) (j : Nat) : (b.outSettle j).ledger = b.ledger := by simp [Block.outSettle]

@[simp] theorem Block.outSettles_ledger (b : Block) : b.outSettles.ledger = b.ledger := by
  unfold Block.outSettles
  exact foldl_ledger (fun _ _ => by simp) _ _

@[simp] theorem Block.outDrop_ledger (b : Block) (j : Nat) : (b.outDrop j).ledger = b.ledger := by simp [Block.outDrop]

@[simp] theorem Block.outShift_ledger (b : Block) (j : Nat) (d : Int) : (b.outShift j d).ledger = b.ledger := by
  unfold Block.outShift
  split <;> simp

@[simp] theorem Block.outsStep_ledger (b : Block) (d : Int) : (b.outsStep d).ledger = b.ledger := by
  unfold Block.outsStep
  exact foldl_ledger (fun _ _ => by simp) _ _

@[simp] theorem Block.slewShow_ledger (b : Block) : b.slewShow.ledger = b.ledger := by simp [Block.slewShow]
@[simp] theorem Block.slewTouch_ledger (b : Block) : b.slewTouch.ledger = b.ledger := by simp [Block.slewTouch]
@[simp] theorem Block.slewAdd_ledger (b : Block) (r : Int) : (b.slewAdd r).ledger = b.ledger := by simp [Block.slewAdd]

@[simp] theorem Block.outsStop_ledger (b : Block) : b.outsStop.ledger = b.ledger := by
  unfold Block.outsStop
  exact foldl_ledger (fun _ _ => by simp) _ _

@[simp] theorem Block.outStart_ledger (b : Block) (j : Nat) : (b.outStart j).ledger = b.ledger := by simp [Block.outStart]
@[simp] theorem Block.outStop_ledger (b : Block) (j : Nat) : (b.outStop j).ledger = b.ledger := by simp [Block.outStop]

@[simp] theorem Block.outCtl_ledger (j : Nat) (data : Half) (b0 : Block) : (Block.outCtl j data b0).ledger = b0.ledger := by
  simp [Block.outCtl]

@[simp] theorem Block.outAnchor_ledger (b : Block) (j : Nat) : (b.outAnchor j).ledger = b.ledger := by simp [Block.outAnchor]

@[simp] theorem Block.outsAnchor_ledger (b : Block) (src : Nat) : (b.outsAnchor src).ledger = b.ledger := by
  unfold Block.outsAnchor
  simp
  exact foldl_ledger (fun _ _ => by simp) _ _

@[simp] theorem Block.outAmt_ledger (b : Block) (j : Nat) : (b.outAmt j).ledger = b.ledger := by simp [Block.outAmt]

@[simp] theorem Block.outStep_ledger (j : Nat) (data : Half) (b0 : Block) : (Block.outStep j data b0).ledger = b0.ledger := by
  simp [Block.outStep]

@[simp] theorem Block.outClr_ledger (j : Nat) (b : Block) : (Block.outClr j b).ledger = b.ledger := by simp [Block.outClr]
@[simp] theorem Block.reachOut_ledger (b : Block) (j : Nat) (t : Int) : (b.reachOut j t).ledger = b.ledger := by simp [Block.reachOut]

@[simp] theorem Block.outPends_ledger (b : Block) : b.outPends.ledger = b.ledger := by
  unfold Block.outPends
  exact foldl_ledger (fun _ _ => by simp) _ _

@[simp] theorem Block.outEdge_ledger (b : Block) (j : Nat) : (b.outEdge j).ledger = b.ledger := by simp [Block.outEdge]

/-! #### Machine/Clock -/

@[simp] theorem Block.mapPll_ledger (b : Block) (p : Nat) (f : PllSt → PllSt) : (b.mapPll p f).ledger = b.ledger := by
  simp [Block.mapPll]

@[simp] theorem Block.clkCause_ledger (b : Block) (f : Field) (p : Nat) : (b.clkCause f p).ledger = b.ledger := by simp [Block.clkCause]
@[simp] theorem Block.pllGo_ledger (b : Block) (p st : Nat) : (b.pllGo p st).ledger = b.ledger := by simp [Block.pllGo]
@[simp] theorem Block.encLine_ledger (b : Block) (e : Nat) : (b.encLine e).ledger = b.ledger := by simp [Block.encLine]

@[simp] theorem Block.encLines_ledger (b : Block) : b.encLines.ledger = b.ledger := by
  unfold Block.encLines
  exact foldl_ledger (fun _ _ => by simp) _ _

@[simp] theorem Block.outsOn_ledger (b : Block) (l : List Nat) : (b.outsOn l).ledger = b.ledger := by
  induction l generalizing b with
  | nil => rfl
  | cons x r ih => simp [Block.outsOn, ih]

@[simp] theorem Block.outsOff_ledger (b : Block) (l : List Nat) : (b.outsOff l).ledger = b.ledger := by
  induction l generalizing b with
  | nil => rfl
  | cons x r ih => simp [Block.outsOff, ih]

@[simp] theorem Block.outsFall_ledger (b : Block) (ls : List Nat) : (b.outsFall ls).ledger = b.ledger := by simp [Block.outsFall]
@[simp] theorem Block.pllStart_ledger (b : Block) (p : Nat) : (b.pllStart p).ledger = b.ledger := by simp [Block.pllStart]
@[simp] theorem Block.pllHold_ledger (b : Block) (p why : Nat) : (b.pllHold p why).ledger = b.ledger := by simp [Block.pllHold]

@[simp] theorem Block.pllRelease_ledger (b : Block) (p : Nat) (trim : BitVec 8) : (b.pllRelease p trim).ledger = b.ledger := by
  simp [Block.pllRelease]

@[simp] theorem Block.cmpHalt_ledger (b : Block) : b.cmpHalt.ledger = b.ledger := by simp [Block.cmpHalt]

@[simp] theorem Block.cmpResume_ledger (b : Block) : b.cmpResume.ledger = b.ledger := by
  unfold Block.cmpResume
  split <;> simp

@[simp] theorem Block.pllRelock_ledger (b : Block) : b.pllRelock.ledger = b.ledger := by simp [Block.pllRelock]
@[simp] theorem Block.fullRelock_ledger (b : Block) : b.fullRelock.ledger = b.ledger := by simp [Block.fullRelock]

@[simp] theorem Block.monFails_ledger (b : Block) (l : List Nat) : (b.monFails l).ledger = b.ledger := by
  induction l generalizing b with
  | nil => rfl
  | cons x r ih => simp [Block.monFails, ih]

@[simp] theorem Block.outEnWrite_ledger (data : Half) (b : Block) : (Block.outEnWrite data b).ledger = b.ledger := by
  simp [Block.outEnWrite]

/-! #### Machine/Tic -/

@[simp] theorem Block.mapTic_ledger (b : Block) (f : TicSt → TicSt) : (b.mapTic f).ledger = b.ledger := by simp [Block.mapTic]

@[simp] theorem Block.recShow_ledger (b : Block) : b.recShow.ledger = b.ledger := by
  unfold Block.recShow
  dsimp only
  split <;> rw [foldl_ledger (fun _ _ => by simp)] <;> simp

@[simp] theorem Block.ticArmed_ledger (b : Block) : b.ticArmed.ledger = b.ledger := by simp [Block.ticArmed]
@[simp] theorem Block.ticRepeat_ledger (b : Block) : b.ticRepeat.ledger = b.ledger := by simp [Block.ticRepeat]
@[simp] theorem Block.recWrite_ledger (b : Block) (r : TicRec) : (b.recWrite r).ledger = b.ledger := by simp [Block.recWrite]
@[simp] theorem Block.ticEnd_ledger (b : Block) (status : Nat) : (b.ticEnd status).ledger = b.ledger := by simp [Block.ticEnd]
@[simp] theorem Block.ticStart_ledger (b : Block) (t : Int) (w : Word) : (b.ticStart t w).ledger = b.ledger := by simp [Block.ticStart]
@[simp] theorem Block.ticDisable_ledger (b0 : Block) : b0.ticDisable.ledger = b0.ledger := by simp [Block.ticDisable]
@[simp] theorem Block.ticCtl_ledger (data : Half) (b : Block) : (Block.ticCtl data b).ledger = b.ledger := by simp [Block.ticCtl]
@[simp] theorem Block.ticDisableAct_ledger (b : Block) : b.ticDisableAct.ledger = b.ledger := by simp [Block.ticDisableAct]

@[simp] theorem Block.ticPop_ledger (b : Block) : b.ticPop.ledger = b.ledger := by
  unfold Block.ticPop
  dsimp only
  (repeat' split) <;> simp

@[simp] theorem Block.ticClr_ledger (b : Block) : b.ticClr.ledger = b.ledger := by simp [Block.ticClr]

/-! #### Machine/Calib -/

@[simp] theorem Block.mapCal_ledger (b : Block) (f : CalSt → CalSt) : (b.mapCal f).ledger = b.ledger := by simp [Block.mapCal]

@[simp] theorem Block.calShow_ledger (b : Block) : b.calShow.ledger = b.ledger := by
  unfold Block.calShow
  split <;> simp

@[simp] theorem Block.slicePower_ledger (b : Block) (j : CalJob) (on_ : Bool) : (b.slicePower j on_).ledger = b.ledger := by
  simp [Block.slicePower]

@[simp] theorem Block.calNext_ledger (b : Block) (k : Nat) : (b.calNext k).ledger = b.ledger := by
  induction k generalizing b with
  | zero => simp [Block.calNext]
  | succ k ih => simp only [Block.calNext]; (repeat' split) <;> simp [ih]

@[simp] theorem Block.calQueue_ledger (b : Block) (j : CalJob) : (b.calQueue j).ledger = b.ledger := by simp [Block.calQueue]
@[simp] theorem Block.calReq_ledger (data : Half) (b : Block) : (Block.calReq data b).ledger = b.ledger := by simp [Block.calReq]

@[simp] theorem Block.calFailed_ledger (b : Block) (j : CalJob) (code : Nat) : (b.calFailed j code).ledger = b.ledger := by
  simp [Block.calFailed]

@[simp] theorem Block.calDone_ledger (b : Block) (j : CalJob) (elem : Nat) : (b.calDone j elem).ledger = b.ledger := by
  simp [Block.calDone]

@[simp] theorem Block.swapIn_ledger (b : Block) (j : CalJob) (e v w : Nat) : (b.swapIn j e v w).ledger = b.ledger := by
  simp [Block.swapIn]

@[simp] theorem Block.swapsIn_ledger (b : Block) (l : List (CalJob × Nat × Nat × Nat)) : (b.swapsIn l).ledger = b.ledger := by
  induction l generalizing b with
  | nil => rfl
  | cons x r ih => simp [Block.swapsIn, ih]

@[simp] theorem Block.calSwap_ledger (b : Block) : b.calSwap.ledger = b.ledger := by simp [Block.calSwap]
@[simp] theorem Block.dlyStore_ledger (b : Block) (e d : Nat) : (b.dlyStore e d).ledger = b.ledger := by simp [Block.dlyStore]

@[simp] theorem Block.calDly_ledger (b : Block) : b.calDly.ledger = b.ledger := by
  unfold Block.calDly
  split <;> simp

@[simp] theorem Block.calBoundary_ledger (b : Block) : b.calBoundary.ledger = b.ledger := by simp [Block.calBoundary]
@[simp] theorem Block.coreTested_ledger (b : Block) (n : Nat) : (b.coreTested n).ledger = b.ledger := by simp [Block.coreTested]

@[simp] theorem Block.calResult_ledger (b : Block) (j : CalJob) (r : CalResult) : (b.calResult j r).ledger = b.ledger := by
  unfold Block.calResult
  (repeat' split) <;> simp

@[simp] theorem Block.jobEnds_ledger (b : Block) (r : CalResult) (dt : Nat) : (b.jobEnds r dt).ledger = b.ledger := by
  simp [Block.jobEnds]

@[simp] theorem Block.swapLevel_ledger (b : Block) (j : CalJob) : (b.swapLevel j).ledger = b.ledger := by
  unfold Block.swapLevel
  (repeat' split) <;> simp

@[simp] theorem Block.calAborts_ledger (b : Block) (l : List CalJob) : (b.calAborts l).ledger = b.ledger := by
  induction l generalizing b with
  | nil => rfl
  | cons x r ih => simp [Block.calAborts, ih]

@[simp] theorem Block.calDisable_ledger (b : Block) : b.calDisable.ledger = b.ledger := by
  unfold Block.calDisable
  dsimp only
  (repeat' split) <;> simp

@[simp] theorem Block.calOverwritten_ledger (b : Block) (j : CalJob) : (b.calOverwritten j).ledger = b.ledger := by
  simp [Block.calOverwritten]

@[simp] theorem Block.ticRefLoss_ledger (b0 : Block) : b0.ticRefLoss.ledger = b0.ledger := by
  unfold Block.ticRefLoss
  dsimp only
  (repeat' split) <;> simp

@[simp] theorem Block.ticHold_ledger (b : Block) : b.ticHold.ledger = b.ledger := by simp [Block.ticHold]
@[simp] theorem Block.calSlot_ledger (b : Block) : b.calSlot.ledger = b.ledger := by simp [Block.calSlot]
@[simp] theorem Block.bistGo_ledger (b : Block) : b.bistGo.ledger = b.ledger := by simp [Block.bistGo]

@[simp] theorem Block.bistRetire_ledger (b : Block) (kind idx : Nat) : (b.bistRetire kind idx).ledger = b.ledger := by
  simp [Block.bistRetire]

@[simp] theorem Block.bistRetires_ledger (b : Block) (l : List (Fin 8 × Nat)) : (b.bistRetires l).ledger = b.ledger := by
  induction l generalizing b with
  | nil => rfl
  | cons x r ih => simp [Block.bistRetires, ih]

@[simp] theorem Block.enginesEmpty_ledger (b : Block) : b.enginesEmpty.ledger = b.ledger := by
  unfold Block.enginesEmpty
  simp
  exact foldl_ledger (fun _ _ => by simp) _ _

@[simp] theorem Block.bistWipe_ledger (b : Block) : b.bistWipe.ledger = b.ledger := by simp [Block.bistWipe]

/-! #### Machine/Ptp -/

@[simp] theorem Block.mapDom_ledger (b : Block) (d : Nat) (f : DomSt → DomSt) : (b.mapDom d f).ledger = b.ledger := by
  simp [Block.mapDom]

@[simp] theorem Block.mapMaster_ledger (b : Block) (d k : Nat) (f : MasterSt → MasterSt) :
    (b.mapMaster d k f).ledger = b.ledger := by
  simp [Block.mapMaster]

@[simp] theorem Block.domCause_ledger (b : Block) (f : Field) : (b.domCause f).ledger = b.ledger := by simp [Block.domCause]

@[simp] theorem Block.doffSync_ledger (b : Block) (d : Nat) (moved : Int) : (b.doffSync d moved).ledger = b.ledger := by
  simp [Block.doffSync]

@[simp] theorem Block.domSync_ledger (b : Block) : b.domSync.ledger = b.ledger := by simp [Block.domSync]

@[simp] theorem Block.sendPtp_ledger (b : Block) (n d : Nat) (pdelay event : Bool) (m : List Byte) :
    (b.sendPtp n d pdelay event m).ledger = b.ledger := by
  simp [Block.sendPtp]

@[simp] theorem Block.sent_ledger (b : Block) (n key timer ns : Nat) : (b.sent n key timer ns).ledger = b.ledger := by simp [Block.sent]
@[simp] theorem Block.syncSend_ledger (b0 : Block) (n d : Nat) : (b0.syncSend n d).ledger = b0.ledger := by simp [Block.syncSend]

@[simp] theorem Block.delayReqSend_ledger (b0 : Block) (n d k : Nat) : (b0.delayReqSend n d k).ledger = b0.ledger := by
  simp [Block.delayReqSend]

@[simp] theorem Block.pdelayReqSend_ledger (b0 : Block) (n d : Nat) : (b0.pdelayReqSend n d).ledger = b0.ledger := by
  simp [Block.pdelayReqSend]

@[simp] theorem Block.servoTo_ledger (b : Block) (d st : Nat) : (b.servoTo d st).ledger = b.ledger := by simp [Block.servoTo]
@[simp] theorem Block.l1Show_ledger (b : Block) (d : Nat) : (b.l1Show d).ledger = b.ledger := by simp [Block.l1Show]
@[simp] theorem Block.l1Shows_ledger (b : Block) : b.l1Shows.ledger = b.ledger := by simp [Block.l1Shows]

@[simp] theorem Block.servoRate_ledger (b : Block) (d : Nat) (r : Int) : (b.servoRate d r).ledger = b.ledger := by
  simp [Block.servoRate]

@[simp] theorem Block.corrected_ledger (b : Block) : b.corrected.ledger = b.ledger := by simp [Block.corrected]
@[simp] theorem Block.phaseBy_ledger (b : Block) (d : Nat) (v : Int) : (b.phaseBy d v).ledger = b.ledger := by simp [Block.phaseBy]

@[simp] theorem Block.servoLoop_ledger (b : Block) (d k : Nat) (ofs : Int) : (b.servoLoop d k ofs).ledger = b.ledger := by
  simp [Block.servoLoop]

@[simp] theorem Block.servoStepBy_ledger (b : Block) (d : Nat) (ofs : Int) : (b.servoStepBy d ofs).ledger = b.ledger := by
  simp [Block.servoStepBy]

@[simp] theorem Block.tally_ledger (b : Block) (d : Nat) (ok : Bool) : (b.tally d ok).ledger = b.ledger := by simp [Block.tally]
@[simp] theorem Block.servo_ledger (b : Block) (d k : Nat) (ofs : Int) : (b.servo d k ofs).ledger = b.ledger := by simp [Block.servo]

@[simp] theorem Block.measured_ledger (b : Block) (d k : Nat) (ofs mpd : Int) : (b.measured d k ofs mpd).ledger = b.ledger := by
  simp [Block.measured]

@[simp] theorem Block.measure_ledger (b : Block) (d k : Nat) (ofs mpd : Int) : (b.measure d k ofs mpd).ledger = b.ledger := by
  simp [Block.measure]

@[simp] theorem Block.syncMeasured_ledger (b : Block) (d k : Nat) (ms : Int) : (b.syncMeasured d k ms).ledger = b.ledger := by
  unfold Block.syncMeasured
  dsimp only
  (repeat' split) <;> simp

@[simp] theorem Block.syncRx_ledger (b : Block) (d k : Nat) (f : InFrame) (p : PtpAt) : (b.syncRx d k f p).ledger = b.ledger := by
  simp [Block.syncRx]

@[simp] theorem Block.followRx_ledger (b : Block) (d k : Nat) (f : InFrame) (p : PtpAt) :
    (b.followRx d k f p).ledger = b.ledger := by
  unfold Block.followRx
  split <;> simp

@[simp] theorem Block.delayRespRx_ledger (b : Block) (n d k : Nat) (f : InFrame) (p : PtpAt) :
    (b.delayRespRx n d k f p).ledger = b.ledger := by
  unfold Block.delayRespRx
  split <;> simp

@[simp] theorem Block.pdDone_ledger (b : Block) (n : Nat) (v : Int) : (b.pdDone n v).ledger = b.ledger := by simp [Block.pdDone]

@[simp] theorem Block.pdelayRx_ledger (b : Block) (n : Nat) (f : InFrame) (p : PtpAt) : (b.pdelayRx n f p).ledger = b.ledger := by
  unfold Block.pdelayRx
  (repeat' split) <;> simp

@[simp] theorem Block.pdelayAnswer_ledger (b : Block) (n d : Nat) (f : InFrame) (p : PtpAt) :
    (b.pdelayAnswer n d f p).ledger = b.ledger := by
  simp [Block.pdelayAnswer]

@[simp] theorem Block.delayAnswer_ledger (b : Block) (n d : Nat) (f : InFrame) (p : PtpAt) :
    (b.delayAnswer n d f p).ledger = b.ledger := by
  simp [Block.delayAnswer]

@[simp] theorem Block.slaveRx_ledger (b : Block) (n d : Nat) (f : InFrame) (p : PtpAt) : (b.slaveRx n d f p).ledger = b.ledger := by
  unfold Block.slaveRx
  split <;> simp

@[simp] theorem Block.roleRx_ledger (b : Block) (n d role : Nat) (f : InFrame) (p : PtpAt) :
    (b.roleRx n d role f p).ledger = b.ledger := by
  simp [Block.roleRx]

@[simp] theorem Block.ptpRx_ledger (b : Block) (f : InFrame) : (b.ptpRx f).ledger = b.ledger := by
  unfold Block.ptpRx
  dsimp only
  (repeat' split) <;> simp

@[simp] theorem Block.steerBy_ledger (b : Block) (D : Nat) : (b.steerBy D).ledger = b.ledger := by simp [Block.steerBy]
@[simp] theorem Block.steerTo_ledger (b : Block) (D : Nat) : (b.steerTo D).ledger = b.ledger := by simp [Block.steerTo]

@[simp] theorem Block.steerRefuse_ledger (b : Block) (code : Nat) : (b.steerRefuse code).ledger = b.ledger := by
  simp [Block.steerRefuse]

@[simp] theorem Block.steerSwitch_ledger (b0 : Block) (D : Nat) : (b0.steerSwitch D).ledger = b0.ledger := by simp [Block.steerSwitch]
@[simp] theorem Block.domWrite_ledger (data : Half) (b : Block) : (Block.domWrite data b).ledger = b.ledger := by simp [Block.domWrite]
@[simp] theorem Block.autoSwitch_ledger (b : Block) (d : Nat) : (b.autoSwitch d).ledger = b.ledger := by simp [Block.autoSwitch]
@[simp] theorem Block.noMaster_ledger (b : Block) (d : Nat) : (b.noMaster d).ledger = b.ledger := by simp [Block.noMaster]
@[simp] theorem Block.masterGone_ledger (b : Block) (d : Nat) : (b.masterGone d).ledger = b.ledger := by simp [Block.masterGone]

@[simp] theorem Block.selWrite_ledger (d : Nat) (data : Half) (b : Block) : (Block.selWrite d data b).ledger = b.ledger := by
  simp [Block.selWrite]

@[simp] theorem Block.servoWrite_ledger (d : Nat) (data : Half) (b0 : Block) : (Block.servoWrite d data b0).ledger = b0.ledger := by
  simp [Block.servoWrite]

@[simp] theorem Block.loopGo_ledger (n : Nat) (data : Half) (b : Block) : (Block.loopGo n data b).ledger = b.ledger := by
  simp [Block.loopGo]

/-! #### Machine/Compass -/

@[simp] theorem Block.mapCmp_ledger (b : Block) (f : CmpSt → CmpSt) : (b.mapCmp f).ledger = b.ledger := by simp [Block.mapCmp]

@[simp] theorem Block.mapIn_ledger (b : Block) (k : Nat) (f : InputSt → InputSt) : (b.mapIn k f).ledger = b.ledger := by
  simp [Block.mapIn]

@[simp] theorem Block.predShow_ledger (b : Block) : b.predShow.ledger = b.ledger := by simp [Block.predShow]
@[simp] theorem Block.cmpGo_ledger (b : Block) (st : Nat) : (b.cmpGo st).ledger = b.ledger := by simp [Block.cmpGo]

@[simp] theorem Block.stageGo_ledger (b : Block) (n : Nat) : (b.stageGo n).ledger = b.ledger := by
  unfold Block.stageGo
  dsimp only
  (repeat' split) <;> simp

@[simp] theorem Block.cmpTo_ledger (b : Block) (st n : Nat) : (b.cmpTo st n).ledger = b.ledger := by simp [Block.cmpTo]
@[simp] theorem Block.steer_ledger (b : Block) (f : Int) : (b.steer f).ledger = b.ledger := by simp [Block.steer]
@[simp] theorem Block.inGo_ledger (b : Block) (k st : Nat) : (b.inGo k st).ledger = b.ledger := by simp [Block.inGo]
@[simp] theorem Block.inStrike_ledger (b : Block) (k st : Nat) : (b.inStrike k st).ledger = b.ledger := by simp [Block.inStrike]
@[simp] theorem Block.requalify_ledger (b : Block) (k : Nat) : (b.requalify k).ledger = b.ledger := by simp [Block.requalify]

@[simp] theorem Block.disagShow_ledger (b : Block) (conc : List Nat) : (b.disagShow conc).ledger = b.ledger := by
  unfold Block.disagShow
  dsimp only
  split
  · rw [foldl_ledger (fun _ _ => by simp)]; simp
  · simp [foldl_ledger]

@[simp] theorem Block.eligible_ledger (b : Block) (sel : Option Nat) (k : Nat) : (b.eligible sel k).1.ledger = b.ledger := by
  induction k generalizing b with
  | zero => rfl
  | succ fuel ih =>
    unfold Block.eligible
    dsimp only
    (repeat' split) <;> simp [ih, foldl_ledger]

@[simp] theorem Block.decideTo_ledger (b : Block) (target : Option Nat) (kindA : Bool) : (b.decideTo target kindA).ledger = b.ledger := by
  simp [Block.decideTo]

@[simp] theorem Block.timerShow_ledger (b : Block) (k : Nat) : (b.timerShow k).ledger = b.ledger := by simp [Block.timerShow]

@[simp] theorem Block.cmpEval_ledger (b : Block) : b.cmpEval.ledger = b.ledger := by
  unfold Block.cmpEval
  dsimp only
  (repeat' split) <;> simp [foldl_ledger]

@[simp] theorem Block.freqUpdate_ledger (b : Block) (k : Nat) : (b.freqUpdate k).ledger = b.ledger := by
  unfold Block.freqUpdate
  split <;> simp

@[simp] theorem Block.phaseHit_ledger (b : Block) (k : Nat) : (b.phaseHit k).ledger = b.ledger := by simp [Block.phaseHit]

@[simp] theorem Block.loopTake_ledger (b : Block) (k : Nat) (phase : Int) : (b.loopTake k phase).ledger = b.ledger := by
  simp [Block.loopTake]

@[simp] theorem Block.switchAbort_ledger (b : Block) : b.switchAbort.ledger = b.ledger := by simp [Block.switchAbort]

@[simp] theorem Block.inCfg_ledger (k : Nat) (data : Half) (b : Block) : (Block.inCfg k data b).ledger = b.ledger := by
  simp [Block.inCfg]

@[simp] theorem Block.inUnretire_ledger (k : Nat) (b : Block) : (Block.inUnretire k b).ledger = b.ledger := by simp [Block.inUnretire]
@[simp] theorem Block.phaseStep_ledger (b : Block) (phi : Int) : (b.phaseStep phi).ledger = b.ledger := by simp [Block.phaseStep]

@[simp] theorem Block.commitNow_ledger (b : Block) (target : Nat) (phi : Int) (st stage : Nat) :
    (b.commitNow target phi st stage).ledger = b.ledger := by
  simp [Block.commitNow]

@[simp] theorem Block.validShow_ledger (b : Block) : b.validShow.ledger = b.ledger := by
  unfold Block.validShow
  split <;> simp

@[simp] theorem Block.cmpHolder_ledger (b : Block) : b.cmpHolder.ledger = b.ledger := by simp [Block.cmpHolder]
@[simp] theorem Block.cmpFollow_ledger (b : Block) : b.cmpFollow.ledger = b.ledger := by simp [Block.cmpFollow]

/-! #### Machine/Pair -/

@[simp] theorem Block.mapPair_ledger (b : Block) (f : PairSt → PairSt) : (b.mapPair f).ledger = b.ledger := by simp [Block.mapPair]
@[simp] theorem Block.claimShow_ledger (b : Block) : b.claimShow.ledger = b.ledger := by simp [Block.claimShow]
@[simp] theorem Block.genUp_ledger (b : Block) : b.genUp.ledger = b.ledger := by simp [Block.genUp]
@[simp] theorem Block.holderShow_ledger (b : Block) (old : Nat) : (b.holderShow old).ledger = b.ledger := by simp [Block.holderShow]
@[simp] theorem Block.fenceShow_ledger (b : Block) : b.fenceShow.ledger = b.ledger := by simp [Block.fenceShow]
@[simp] theorem Block.pairGo_ledger (b : Block) (st : Nat) : (b.pairGo st).ledger = b.ledger := by simp [Block.pairGo]
@[simp] theorem Block.tellState_ledger (b : Block) : b.tellState.ledger = b.ledger := by simp [Block.tellState]
@[simp] theorem Block.pairTo_ledger (b : Block) (st : Nat) : (b.pairTo st).ledger = b.ledger := by simp [Block.pairTo]
@[simp] theorem Block.toLinking_ledger (b : Block) : b.toLinking.ledger = b.ledger := by simp [Block.toLinking]
@[simp] theorem Block.toSolo_ledger (b : Block) : b.toSolo.ledger = b.ledger := by simp [Block.toSolo]
@[simp] theorem Block.toResync_ledger (b : Block) : b.toResync.ledger = b.ledger := by simp [Block.toResync]
@[simp] theorem Block.toWithdrawn_ledger (b : Block) : b.toWithdrawn.ledger = b.ledger := by simp [Block.toWithdrawn]
@[simp] theorem Block.raiseClaim_ledger (b : Block) : b.raiseClaim.ledger = b.ledger := by simp [Block.raiseClaim]
@[simp] theorem Block.takeover_ledger (b : Block) : b.takeover.ledger = b.ledger := by simp [Block.takeover]
@[simp] theorem Block.handoverNow_ledger (b : Block) : b.handoverNow.ledger = b.ledger := by simp [Block.handoverNow]
@[simp] theorem Block.withdrawNow_ledger (b : Block) : b.withdrawNow.ledger = b.ledger := by simp [Block.withdrawNow]

@[simp] theorem Block.pairAct_ledger (b : Block) (k : PairAct) : (b.pairAct k).ledger = b.ledger := by
  unfold Block.pairAct
  split <;> simp

@[simp] theorem Block.actAt_ledger (b : Block) (a : PairAct) (at_ : Nat) : (b.actAt a at_).ledger = b.ledger := by simp [Block.actAt]

@[simp] theorem Block.pairActs_ledger (b : Block) (l : List PairAct) : (b.pairActs l).ledger = b.ledger := by
  induction l generalizing b with
  | nil => rfl
  | cons x r ih => simp [Block.pairActs, ih]

@[simp] theorem Block.withdraw_ledger (b : Block) : b.withdraw.ledger = b.ledger := by simp [Block.withdraw]
@[simp] theorem Block.journalGap_ledger (b : Block) : b.journalGap.ledger = b.ledger := by simp [Block.journalGap]
@[simp] theorem Block.pairStore_ledger (b : Block) (d : Nat) : (b.pairStore d).ledger = b.ledger := by simp [Block.pairStore]
@[simp] theorem Block.pairOff_ledger (b : Block) : b.pairOff.ledger = b.ledger := by simp [Block.pairOff]

@[simp] theorem Block.pairEnable_ledger (data : Half) (b : Block) : (Block.pairEnable data b).ledger = b.ledger := by
  simp [Block.pairEnable]

@[simp] theorem Block.pairDecide_ledger (b : Block) : b.pairDecide.ledger = b.ledger := by simp [Block.pairDecide]

@[simp] theorem Block.partnerState_ledger (b : Block) (st claim : Nat) : (b.partnerState st claim).ledger = b.ledger := by
  simp [Block.partnerState]

@[simp] theorem Block.ropeLinked_ledger (b0 : Block) (c : RopePeer) : (b0.ropeLinked c).ledger = b0.ledger := by simp [Block.ropeLinked]

@[simp] theorem Block.compareDigests_ledger (b : Block) (o p : DigRec) : (b.compareDigests o p).ledger = b.ledger := by
  simp [Block.compareDigests]

@[simp] theorem Block.meetDigests_ledger (b : Block) (bound : Word) : (b.meetDigests bound).ledger = b.ledger := by
  unfold Block.meetDigests
  split <;> simp

@[simp] theorem Block.xferStore_ledger (b : Block) (k : Xfer) : (b.xferStore k).ledger = b.ledger := by
  unfold Block.xferStore
  split <;> simp

@[simp] theorem Block.xferIn_ledger (b : Block) (x : Xfer) (tag : Word) : (b.xferIn x tag).ledger = b.ledger := by simp [Block.xferIn]

@[simp] theorem Block.joinNow_ledger (b : Block) : b.joinNow.ledger = b.ledger := by
  unfold Block.joinNow
  split <;> simp

@[simp] theorem Block.pairBoundary_ledger (b : Block) : b.pairBoundary.ledger = b.ledger := by simp [Block.pairBoundary]

@[simp] theorem Block.journalIn_ledger (b : Block) (i : WireItem) (at_ seq : Nat) : (b.journalIn i at_ seq).ledger = b.ledger := by
  simp [Block.journalIn]

@[simp] theorem Block.digestIn_ledger (b : Block) (d : DigRec) : (b.digestIn d).ledger = b.ledger := by simp [Block.digestIn]

@[simp] theorem Block.controlIn_ledger (b : Block) (k : RopeCtl) : (b.controlIn k).ledger = b.ledger := by
  unfold Block.controlIn
  split <;> simp

@[simp] theorem Block.ropeIn_ledger (b : Block) (seq : Nat) (k : RopeMsg) : (b.ropeIn seq k).ledger = b.ledger := by
  unfold Block.ropeIn
  split <;> simp

@[simp] theorem Block.ropeBad_ledger (b : Block) (m : RopeMsg) : (b.ropeBad m).ledger = b.ledger := by
  unfold Block.ropeBad
  split <;> simp

@[simp] theorem Block.ropeDown_ledger (b : Block) : b.ropeDown.ledger = b.ledger := by simp [Block.ropeDown]
@[simp] theorem Block.pairSoloAct_ledger (b : Block) : b.pairSoloAct.ledger = b.ledger := by simp [Block.pairSoloAct]
@[simp] theorem Block.pairResyncAct_ledger (b : Block) : b.pairResyncAct.ledger = b.ledger := by simp [Block.pairResyncAct]
@[simp] theorem Block.pairWithdrawAct_ledger (b : Block) : b.pairWithdrawAct.ledger = b.ledger := by simp [Block.pairWithdrawAct]
@[simp] theorem Block.pairHandoverAct_ledger (b : Block) : b.pairHandoverAct.ledger = b.ledger := by simp [Block.pairHandoverAct]
@[simp] theorem Block.pairGenrstAct_ledger (b : Block) : b.pairGenrstAct.ledger = b.ledger := by simp [Block.pairGenrstAct]

/-! #### Machine/Domains -/

@[simp] theorem Block.mapPw_ledger (b : Block) (f : PwSt → PwSt) : (b.mapPw f).ledger = b.ledger := by simp [Block.mapPw]
@[simp] theorem Block.timeRecord_ledger (b : Block) : b.timeRecord.ledger = b.ledger := by simp [Block.timeRecord]

@[simp] theorem Block.timeRestore_ledger (b : Block) : b.timeRestore.ledger = b.ledger := by
  unfold Block.timeRestore
  split <;> simp

@[simp] theorem Block.seal_ledger (b : Block) (m : BitVec 1538) : (b.seal m).ledger = b.ledger := by simp [Block.seal]
@[simp] theorem Block.unseal_ledger (b : Block) (m : BitVec 1538) : (b.unseal m).ledger = b.ledger := by simp [Block.unseal]
@[simp] theorem Block.bankLost_ledger (b : Block) (k : Nat) : (b.bankLost k).ledger = b.ledger := by simp [Block.bankLost]

@[simp] theorem Block.bankCheck_ledger (b : Block) (k : Nat) (ok : Bool) : (b.bankCheck k ok).ledger = b.ledger := by
  simp [Block.bankCheck]

@[simp] theorem Block.pllUp_ledger (b : Block) (p : Nat) : (b.pllUp p).ledger = b.ledger := by simp [Block.pllUp]
@[simp] theorem Block.timeUp_ledger (b : Block) : b.timeUp.ledger = b.ledger := by simp [Block.timeUp]
@[simp] theorem Block.hostUp_ledger (b : Block) (refclk : Bool) : (b.hostUp refclk).ledger = b.ledger := by simp [Block.hostUp]
@[simp] theorem Block.rowsShow_ledger (b : Block) (k : Nat) : (b.rowsShow k).ledger = b.ledger := by simp [Block.rowsShow]
@[simp] theorem Block.reapply_ledger (b : Block) (c : Channel) : (b.reapply c).ledger = b.ledger := by simp [Block.reapply]

@[simp] theorem Block.reapplyAll_ledger (b : Block) : b.reapplyAll.ledger = b.ledger := by
  simp [Block.reapplyAll, foldl_ledger]

/-! #### Machine/Power -/

@[simp] theorem Block.pwrTo_ledger (b : Block) (st : Nat) : (b.pwrTo st).ledger = b.ledger := by simp [Block.pwrTo]
@[simp] theorem Block.setDomains_ledger (b : Block) (m : Nat) : (b.setDomains m).ledger = b.ledger := by simp [Block.setDomains]

@[simp] theorem Block.ringsKeep_ledger (b : Block) : b.ringsKeep.ledger = b.ledger := by
  unfold Block.ringsKeep
  exact foldl_ledger (fun _ _ => by simp) _ _

@[simp] theorem Block.ringsWake_ledger (b : Block) : b.ringsWake.ledger = b.ledger := by
  unfold Block.ringsWake
  exact foldl_ledger (fun _ _ => by simp) _ _

@[simp] theorem Block.enterHold_ledger (b : Block) : b.enterHold.ledger = b.ledger := by simp [Block.enterHold]
@[simp] theorem Block.leaveHold_ledger (b : Block) (st : Nat) : (b.leaveHold st).ledger = b.ledger := by simp [Block.leaveHold]
@[simp] theorem Block.pwrRefuse_ledger (b : Block) (code : Nat) : (b.pwrRefuse code).ledger = b.ledger := by simp [Block.pwrRefuse]
@[simp] theorem Block.pwrPend_ledger (b : Block) (st after : Nat) : (b.pwrPend st after).ledger = b.ledger := by simp [Block.pwrPend]
@[simp] theorem Block.pwrEffect_ledger (b : Block) (st : Nat) : (b.pwrEffect st).ledger = b.ledger := by simp [Block.pwrEffect]

@[simp] theorem Block.pwrBoundaryOr_ledger (b : Block) (st after : Nat) : (b.pwrBoundaryOr st after).ledger = b.ledger := by
  simp [Block.pwrBoundaryOr]

@[simp] theorem Block.pwrBoundary_ledger (b : Block) : b.pwrBoundary.ledger = b.ledger := by
  unfold Block.pwrBoundary
  split <;> simp

@[simp] theorem Block.wakeUp_ledger (b : Block) (code : Nat) : (b.wakeUp code).ledger = b.ledger := by simp [Block.wakeUp]

@[simp] theorem Block.thermNow_ledger (b : Block) (die base : BitVec 8) : (b.thermNow die base).ledger = b.ledger := by
  simp [Block.thermNow]

@[simp] theorem Block.retnClrAct_ledger (b : Block) : b.retnClrAct.ledger = b.ledger := by simp [Block.retnClrAct]

/-! #### Machine/Hardware -/

@[simp] theorem Block.cageDown_ledger (b : Block) (q code : Nat) : (b.cageDown q code).ledger = b.ledger := by
  unfold Block.cageDown
  simp
  exact foldl_ledger (fun _ _ => by simp) _ _

@[simp] theorem Block.ocClear_ledger (mask : Nat) (b : Block) : (Block.ocClear mask b).ledger = b.ledger := by simp [Block.ocClear]

/-! #### Machine/Host -/

@[simp] theorem Block.zeroCompletion_ledger (b : Block) (r : BarReq) : (b.zeroCompletion r).ledger = b.ledger := by
  simp [Block.zeroCompletion]

@[simp] theorem Block.unclaimed_ledger (b : Block) (off : Nat) : (b.unclaimed off).ledger = b.ledger := by simp [Block.unclaimed]
@[simp] theorem Block.badSize_ledger (b : Block) (off : Nat) : (b.badSize off).ledger = b.ledger := by simp [Block.badSize]
@[simp] theorem Block.unmapped_ledger (b : Block) (r : BarReq) : (b.unmapped r).ledger = b.ledger := by simp [Block.unmapped]
@[simp] theorem Block.errClr_ledger (b : Block) : b.errClr.ledger = b.ledger := by simp [Block.errClr]
@[simp] theorem Block.stallClr_ledger (b : Block) : b.stallClr.ledger = b.ledger := by simp [Block.stallClr]
@[simp] theorem Block.pendClear_ledger (b : Block) (mask : Half) : (b.pendClear mask).ledger = b.ledger := by simp [Block.pendClear]

@[simp] theorem Block.messages_ledger (b : Block) (l : List Nat) : (b.messages l).ledger = b.ledger := by
  induction l generalizing b with
  | nil => rfl
  | cons x r ih => simp [Block.messages, ih]

@[simp] theorem Block.enWrite_ledger (b : Block) (data : Half) : (b.enWrite data).ledger = b.ledger := by simp [Block.enWrite]
@[simp] theorem Block.unmask_ledger (b : Block) (v : Nat) : (b.unmask v).ledger = b.ledger := by simp [Block.unmask]
@[simp] theorem Block.setVector_ledger (b : Block) (v x : Nat) : (b.setVector v x).ledger = b.ledger := by simp [Block.setVector]
@[simp] theorem Block.bar4_ledger (b : Block) (r : BarReq) : (b.bar4 r).ledger = b.ledger := by simp [Block.bar4]
@[simp] theorem Block.configReq_ledger (b : Block) (r : BarReq) : (b.configReq r).ledger = b.ledger := by simp [Block.configReq]
@[simp] theorem Block.releaseHeld_ledger (b : Block) : b.releaseHeld.ledger = b.ledger := by simp [Block.releaseHeld]

/-! #### Machine/Security -/

@[simp] theorem Block.logShow_ledger (b : Block) : b.logShow.ledger = b.ledger := by simp [Block.logShow]
@[simp] theorem Block.logWrite_ledger (b : Block) (src act : Nat) : (b.logWrite src act).ledger = b.ledger := by simp [Block.logWrite]
@[simp] theorem Block.logSelect_ledger (k : Nat) (b : Block) : (Block.logSelect k b).ledger = b.ledger := by simp [Block.logSelect]
@[simp] theorem Block.logClear_ledger (b : Block) : b.logClear.ledger = b.ledger := by simp [Block.logClear]

@[simp] theorem Block.keyDataZero_ledger (b : Block) : b.keyDataZero.ledger = b.ledger := by
  unfold Block.keyDataZero
  simp
  exact foldl_ledger (fun _ _ => by simp) _ _

@[simp] theorem Block.keyWrite_ledger (b : Block) : b.keyWrite.ledger = b.ledger := by simp [Block.keyWrite]
@[simp] theorem Block.keyClear_ledger (b : Block) : b.keyClear.ledger = b.ledger := by simp [Block.keyClear]

@[simp] theorem Block.challenge_ledger (data : Half) (b0 : Block) : (Block.challenge data b0).ledger = b0.ledger := by
  unfold Block.challenge
  dsimp only
  (repeat' split) <;> simp

@[simp] theorem Block.eraseKeys_ledger (b : Block) : b.eraseKeys.ledger = b.ledger := by
  unfold Block.eraseKeys
  simp
  exact foldl_ledger (fun _ _ => by simp) _ _

@[simp] theorem Block.tamperLog_ledger (b : Block) (l : List Nat) : (b.tamperLog l).ledger = b.ledger := by
  induction l generalizing b with
  | nil => rfl
  | cons x r ih => simp [Block.tamperLog, ih]

@[simp] theorem Block.tamperNow_ledger (b : Block) (level : BitVec 7) : (b.tamperNow level).ledger = b.ledger := by
  simp [Block.tamperNow]

@[simp] theorem Block.secUnlockAct_ledger (b : Block) : b.secUnlockAct.ledger = b.ledger := by simp [Block.secUnlockAct]
@[simp] theorem Block.softEraseAct_ledger (b : Block) : b.softEraseAct.ledger = b.ledger := by simp [Block.softEraseAct]
@[simp] theorem Block.pd0Lost_ledger (b : Block) : b.pd0Lost.ledger = b.ledger := by simp [Block.pd0Lost]
@[simp] theorem Block.fuseCtl_ledger (data : Half) (b : Block) : (Block.fuseCtl data b).ledger = b.ledger := by simp [Block.fuseCtl]

/-! #### Machine/Startup -/

@[simp] theorem Block.bootFail_ledger (b : Block) (code : Nat) : (b.bootFail code).ledger = b.ledger := by simp [Block.bootFail]

@[simp] theorem Block.bootImage_ledger (b : Block) (dfl fac : Nat) : (b.bootImage dfl fac).ledger = b.ledger := by
  simp [Block.bootImage]

@[simp] theorem Block.rstCause_ledger (b : Block) (kind why : Nat) : (b.rstCause kind why).ledger = b.ledger := by simp [Block.rstCause]

@[simp] theorem Block.startSteps_ledger (b : Block) (kind why dfl fac : Nat) (refclk : Bool) :
    (b.startSteps kind why dfl fac refclk).ledger = b.ledger := by
  simp [Block.startSteps]

@[simp] theorem Block.startBanks_ledger (b : Block) (sealed : BitVec 2) : (b.startBanks sealed).ledger = b.ledger := by
  simp [Block.startBanks]

@[simp] theorem Block.powerOn_ledger (b : Block) (dfl fac : Nat) (sealed : BitVec 2) (refclk : Bool) :
    (b.powerOn dfl fac sealed refclk).ledger = b.ledger := by
  simp [Block.powerOn]

@[simp] theorem Block.lineDone_ledger (b : Block) : b.lineDone.ledger = b.ledger := by simp [Block.lineDone]

/-! #### Machine/Load -/

@[simp] theorem Block.readWords_ledger (b : Block) (w k : Nat) : (b.readWords w k).1.ledger = b.ledger := by
  induction k generalizing b w with
  | zero => rfl
  | succ n ih => simp [Block.readWords, ih]

@[simp] theorem Block.readImage_ledger (b : Block) (addr magic : Nat) : (b.readImage addr magic).1.ledger = b.ledger := by
  unfold Block.readImage
  dsimp only
  (repeat' split) <;> simp

@[simp] theorem Block.authRecord_ledger (b : Block) (n code slot : Nat) : (b.authRecord n code slot).ledger = b.ledger := by
  simp [Block.authRecord]

@[simp] theorem Block.loadWrite_ledger (b : Block) (n : Nat) (h : Header) (l : List Word) (digest : Nat) :
    (b.loadWrite n h l digest).ledger = b.ledger := by
  simp [Block.loadWrite]

@[simp] theorem Block.loaded_ledger (b : Block) (n : Nat) : (b.loaded n).ledger = b.ledger := by simp [Block.loaded]

@[simp] theorem Block.loadDecide_ledger (b : Block) (n : Nat) : (b.loadDecide n).ledger = b.ledger := by
  unfold Block.loadDecide
  dsimp only
  (repeat' split) <;> simp

@[simp] theorem Block.loadReport_ledger (b : Block) (own : Bool) (n : Nat) (ok : Bool) (digest : Nat) :
    (b.loadReport own n ok digest).ledger = b.ledger := by
  simp [Block.loadReport]

@[simp] theorem Block.loadFailed_ledger (b : Block) (n code : Nat) : (b.loadFailed n code).ledger = b.ledger := by
  simp [Block.loadFailed]

@[simp] theorem Block.loadEnd_ledger (b : Block) (n : Nat) : (b.loadEnd n).ledger = b.ledger := by simp [Block.loadEnd]

@[simp] theorem Block.bootWrite_ledger (data : Half) (b : Block) : (Block.bootWrite data b).ledger = b.ledger := by
  simp [Block.bootWrite]

/-! #### Machine/Profile -/

@[simp] theorem Block.mapCyc_ledger (b : Block) (f : CycleSt → CycleSt) : (b.mapCyc f).ledger = b.ledger := by simp [Block.mapCyc]
@[simp] theorem Block.profRefuse_ledger (b : Block) (code : Nat) : (b.profRefuse code).ledger = b.ledger := by simp [Block.profRefuse]
@[simp] theorem Block.profApply_ledger (b : Block) (p : Nat) : (b.profApply p).ledger = b.ledger := by simp [Block.profApply]
@[simp] theorem Block.profApplyNow_ledger (b : Block) (p : Nat) : (b.profApplyNow p).ledger = b.ledger := by simp [Block.profApplyNow]
@[simp] theorem Block.profReadyNow_ledger (b : Block) (p : Nat) : (b.profReadyNow p).ledger = b.ledger := by simp [Block.profReadyNow]

@[simp] theorem Block.profRefused_ledger (b : Block) (code : Nat) : (b.profRefused code).ledger = b.ledger := by
  simp [Block.profRefused]

@[simp] theorem Block.profDue_ledger (p : Nat) (b : Block) : (Block.profDue p b).ledger = b.ledger := by simp [Block.profDue]
@[simp] theorem Block.profDueNow_ledger (p : Nat) (b : Block) : (Block.profDueNow p b).ledger = b.ledger := by simp [Block.profDueNow]

@[simp] theorem Block.profWrite_ledger (data : Half) (b : Block) : (Block.profWrite data b).ledger = b.ledger := by
  simp [Block.profWrite]

@[simp] theorem Block.profSample_ledger (b : Block) : b.profSample.ledger = b.ledger := by simp [Block.profSample]

@[simp] theorem Block.profReport_ledger (b : Block) (own : Bool) (code : Nat) : (b.profReport own code).ledger = b.ledger := by
  unfold Block.profReport
  dsimp only
  (repeat' split) <;> simp

@[simp] theorem Block.profBoundary_ledger (b : Block) : b.profBoundary.ledger = b.ledger := by
  unfold Block.profBoundary
  split <;> simp

/-! #### Machine/Boundary -/

@[simp] theorem Block.heldOut_ledger (b : Block) (n : Nat) : (b.heldOut n).ledger = b.ledger := by
  unfold Block.heldOut
  exact foldl_ledger (fun _ _ => by simp) _ _

@[simp] theorem Block.heldOuts_ledger (b : Block) (l : List Nat) : (b.heldOuts l).ledger = b.ledger := by
  induction l generalizing b with
  | nil => rfl
  | cons x r ih => simp [Block.heldOuts, ih]

@[simp] theorem Block.cycleEnd_ledger (b0 : Block) : b0.cycleEnd.ledger = b0.ledger := by simp [Block.cycleEnd]
@[simp] theorem Block.cycleFirst_ledger (b : Block) : b.cycleFirst.ledger = b.ledger := by simp [Block.cycleFirst]
@[simp] theorem Block.noSpare_ledger (b : Block) (n : Nat) : (b.noSpare n).ledger = b.ledger := by simp [Block.noSpare]
@[simp] theorem Block.moveCore_ledger (b : Block) (n : Nat) : (b.moveCore n).ledger = b.ledger := by simp [Block.moveCore]

@[simp] theorem Block.restartAtTrigger_ledger (b : Block) (n : Nat) : (b.restartAtTrigger n).ledger = b.ledger := by
  simp [Block.restartAtTrigger]

@[simp] theorem Block.relocate_ledger (b : Block) (n : Nat) : (b.relocate n).ledger = b.ledger := by simp [Block.relocate]

@[simp] theorem Block.relocations_ledger (b : Block) (l : List Nat) : (b.relocations l).ledger = b.ledger := by
  induction l generalizing b with
  | nil => rfl
  | cons x r ih => simp [Block.relocations, ih]

@[simp] theorem Block.ringRefresh_ledger (b : Block) : b.ringRefresh.ledger = b.ledger := by
  unfold Block.ringRefresh
  simp
  exact foldl_ledger (fun _ _ => by simp) _ _

@[simp] theorem Block.boundaryChanges_ledger (b : Block) : b.boundaryChanges.ledger = b.ledger := by simp [Block.boundaryChanges]

@[simp] theorem Block.cycleBegin_ledger (b : Block) (t : Nat) (armed : Bool) : (b.cycleBegin t armed).ledger = b.ledger := by
  simp [Block.cycleBegin]

@[simp] theorem Block.boundary_ledger (b0 : Block) : b0.boundary.ledger = b0.ledger := by
  unfold Block.boundary
  split <;> simp

/-! #### Machine/Slot -/

@[simp] theorem Block.scrubErrors_ledger (b : Block) (us : Nat) (l : List (Fin 16 × BitVec 16 × Bool)) :
    (b.scrubErrors us l).ledger = b.ledger := by
  induction l generalizing b with
  | nil => rfl
  | cons x r ih => simp [Block.scrubErrors, ih]

@[simp] theorem Block.scrub_ledger (b : Block) (us : Nat) (l : List (Fin 16 × BitVec 16 × Bool)) : (b.scrub us l).ledger = b.ledger := by
  simp [Block.scrub]

@[simp] theorem Block.probes_ledger (b : Block) : b.probes.ledger = b.ledger := by
  unfold Block.probes
  simp
  exact foldl_ledger (fun _ _ => by simp) _ _

@[simp] theorem Block.slotWork_ledger (b : Block) (scrub : List (Fin 16 × BitVec 16 × Bool)) (ns : Nat) :
    (b.slotWork scrub ns).ledger = b.ledger := by
  simp [Block.slotWork]

@[simp] theorem Block.slotOpen_ledger (b : Block) (scrub : List (Fin 16 × BitVec 16 × Bool)) :
    (b.slotOpen scrub).ledger = b.ledger := by
  simp [Block.slotOpen]

/-! #### Machine/RegWrite -/

@[simp] theorem Block.storeW_ledger (a : Nat) (w : RegW) (b : Block) : (Block.storeW a w b).ledger = b.ledger := by simp [Block.storeW]
@[simp] theorem Block.wrEvt_ledger (a : Nat) (w : RegW) (b : Block) : (Block.wrEvt a w b).ledger = b.ledger := by simp [Block.wrEvt]
@[simp] theorem Block.wrClk_ledger (a : Nat) (w : RegW) (b : Block) : (Block.wrClk a w b).ledger = b.ledger := by simp [Block.wrClk]
@[simp] theorem Block.wrCmp_ledger (a : Nat) (w : RegW) (b : Block) : (Block.wrCmp a w b).ledger = b.ledger := by simp [Block.wrCmp]
@[simp] theorem Block.wrAdj_ledger (w : RegW) (b : Block) : (Block.wrAdj w b).ledger = b.ledger := by simp [Block.wrAdj]
@[simp] theorem Block.wrAxis_ledger (a : Nat) (w : RegW) (b : Block) : (Block.wrAxis a w b).ledger = b.ledger := by simp [Block.wrAxis]
@[simp] theorem Block.wrLan_ledger (a : Nat) (w : RegW) (b : Block) : (Block.wrLan a w b).ledger = b.ledger := by simp [Block.wrLan]
@[simp] theorem Block.wrTic_ledger (a : Nat) (w : RegW) (b : Block) : (Block.wrTic a w b).ledger = b.ledger := by simp [Block.wrTic]
@[simp] theorem Block.wrCal_ledger (a : Nat) (w : RegW) (b : Block) : (Block.wrCal a w b).ledger = b.ledger := by simp [Block.wrCal]
@[simp] theorem Block.wrEnc_ledger (a : Nat) (w : RegW) (b : Block) : (Block.wrEnc a w b).ledger = b.ledger := by simp [Block.wrEnc]
@[simp] theorem Block.wrOut_ledger (a : Nat) (w : RegW) (b : Block) : (Block.wrOut a w b).ledger = b.ledger := by simp [Block.wrOut]
@[simp] theorem Block.wrSds_ledger (a : Nat) (w : RegW) (b : Block) : (Block.wrSds a w b).ledger = b.ledger := by simp [Block.wrSds]
@[simp] theorem Block.macCfg_ledger (n : Nat) (w : RegW) (b : Block) : (Block.macCfg n w b).ledger = b.ledger := by simp [Block.macCfg]

@[simp] theorem Block.cageWrite_ledger (n : Nat) (w : RegW) (b : Block) : (Block.cageWrite n w b).ledger = b.ledger := by
  simp [Block.cageWrite]

@[simp] theorem Block.wrMac_ledger (a : Nat) (w : RegW) (b : Block) : (Block.wrMac a w b).ledger = b.ledger := by simp [Block.wrMac]

@[simp] theorem Block.wrSwcWin_ledger (a : Nat) (w : RegW) (b : Block) : (Block.wrSwcWin a w b).ledger = b.ledger := by
  simp [Block.wrSwcWin]

@[simp] theorem Block.wrSwc_ledger (a : Nat) (w : RegW) (b : Block) : (Block.wrSwc a w b).ledger = b.ledger := by simp [Block.wrSwc]
@[simp] theorem Block.wrZrg_ledger (a : Nat) (w : RegW) (b : Block) : (Block.wrZrg a w b).ledger = b.ledger := by simp [Block.wrZrg]
@[simp] theorem Block.wrGal_ledger (a : Nat) (w : RegW) (b : Block) : (Block.wrGal a w b).ledger = b.ledger := by simp [Block.wrGal]
@[simp] theorem Block.wrFlw_ledger (a : Nat) (w : RegW) (b : Block) : (Block.wrFlw a w b).ledger = b.ledger := by simp [Block.wrFlw]
@[simp] theorem Block.wrSts_ledger (a : Nat) (w : RegW) (b : Block) : (Block.wrSts a w b).ledger = b.ledger := by simp [Block.wrSts]
@[simp] theorem Block.wrPrf_ledger (a : Nat) (w : RegW) (b : Block) : (Block.wrPrf a w b).ledger = b.ledger := by simp [Block.wrPrf]
@[simp] theorem Block.pairCtl_ledger (w : RegW) (b : Block) : (Block.pairCtl w b).ledger = b.ledger := by simp [Block.pairCtl]
@[simp] theorem Block.wrPair_ledger (a : Nat) (w : RegW) (b : Block) : (Block.wrPair a w b).ledger = b.ledger := by simp [Block.wrPair]
@[simp] theorem Block.secCtl_ledger (w : RegW) (b : Block) : (Block.secCtl w b).ledger = b.ledger := by simp [Block.secCtl]
@[simp] theorem Block.tactStore_ledger (w : RegW) (b : Block) : (Block.tactStore w b).ledger = b.ledger := by simp [Block.tactStore]
@[simp] theorem Block.wrSec_ledger (a : Nat) (w : RegW) (b : Block) : (Block.wrSec a w b).ledger = b.ledger := by simp [Block.wrSec]
@[simp] theorem Block.wrHost_ledger (a : Nat) (w : RegW) (b : Block) : (Block.wrHost a w b).ledger = b.ledger := by simp [Block.wrHost]

/-! #### Machine/Journal -/

@[simp] theorem Block.axisResource_ledger (b : Block) (n : Fin 16) (x : SampleIn) : (b.axisResource n x).ledger = b.ledger := by
  unfold Block.axisResource
  split <;> simp

@[simp] theorem Block.sampleApply_ledger (b : Block) (e : JEntry) (n : Fin 16) (x : SampleIn) :
    (b.sampleApply e n x).ledger = b.ledger := by
  simp [Block.sampleApply]

@[simp] theorem Block.commitFollow_ledger (b : Block) (phi : Int) (st stage : Nat) :
    (b.commitFollow phi st stage).ledger = b.ledger := by
  simp [Block.commitFollow]

/-! #### Machine/Access -/

@[simp] theorem Block.freshen_ledger (a : Nat) (b : Block) : (Block.freshen a b).ledger = b.ledger := by simp [Block.freshen]
@[simp] theorem Block.afterRead_ledger (a : Nat) (b : Block) : (Block.afterRead a b).ledger = b.ledger := by simp [Block.afterRead]
@[simp] theorem Block.hostRead_ledger (r : BarReq) (b0 : Block) : (Block.hostRead r b0).ledger = b0.ledger := by simp [Block.hostRead]

@[simp] theorem Block.quadTouch_ledger (b : Block) (a : Nat) : (b.quadTouch a).ledger = b.ledger := by
  unfold Block.quadTouch
  split <;> simp

@[simp] theorem Block.answerBar2Read_ledger (off : BitVec 28) (len : BitVec 13) (ups : List (Nat × Bool)) (b : Block) :
    (Block.answerBar2Read off len ups b).ledger = b.ledger := by
  simp [Block.answerBar2Read]

@[simp] theorem Block.answerBar2Write_ledger (off : BitVec 28) (bytes : List (Option Byte)) (ups : List (Nat × Bool)) (b : Block) :
    (Block.answerBar2Write off bytes ups b).ledger = b.ledger := by
  simp [Block.answerBar2Write]

@[simp] theorem Block.bankBegins_ledger (b : Block) (i : Instr) : (b.bankBegins i).ledger = b.ledger := by
  unfold Block.bankBegins
  split <;> simp

@[simp] theorem Block.stallEnds_ledger (b : Block) (x : Stall) : (b.stallEnds x).ledger = b.ledger := by simp [Block.stallEnds]

@[simp] theorem Block.quadWake_ledger (b : Block) (a : Nat) : (b.quadWake a).ledger = b.ledger := by
  unfold Block.quadWake
  split <;> simp

@[simp] theorem Block.relockFails_ledger (b : Block) (k : Instr) : (b.relockFails k).ledger = b.ledger := by
  unfold Block.relockFails
  split <;> simp

end Sys2Proof.Machine
end

section
/-! Operations that a lost power domain or the journal reaches: they leave the tags too, and no request waits after them where none did. -/

namespace Sys2Proof.Machine

theorem utags_of_ledger {b c : Block} (h : c.ledger = b.ledger) : c.utags = b.utags := congrArg Prod.fst h

/-- No request of the host waits. -/
def Block.idle (b : Block) : Prop := b.host.stalls = [] ∧ b.host.backlog = []

theorem idle_iff_of_ledger {b c : Block} (h : c.ledger = b.ledger) : c.idle ↔ b.idle := by
  obtain ⟨-, hs, hl⟩ := Prod.mk.inj h |>.imp_right Prod.mk.inj
  rw [Block.idle, Block.idle, hs, hl]

/-- The tags are left as they were, and no request waits where none did: what a power domain that is lost does to the ledger. -/
structure Calm (b c : Block) : Prop where
  utags : c.utags = b.utags
  idle : b.idle → c.idle

theorem Calm.of_ledger {b c : Block} (h : c.ledger = b.ledger) : Calm b c := ⟨utags_of_ledger h, (idle_iff_of_ledger h).2⟩

theorem Calm.refl (b : Block) : Calm b b := ⟨rfl, id⟩

theorem Calm.trans {b c d : Block} (h : Calm b c) (k : Calm c d) : Calm b d := ⟨k.utags.trans h.utags, k.idle ∘ h.idle⟩

/-- Operations that keep the ledger may follow. -/
theorem Calm.then {b c d : Block} (h : Calm b c) (k : d.ledger = c.ledger) : Calm b d := h.trans (.of_ledger k)

theorem Calm.foldl {α : Type} {f : Block → α → Block} (h : ∀ b x, Calm b (f b x)) (l : List α) (b : Block) : Calm b (l.foldl f b) := by
  induction l generalizing b with
  | nil => exact .refl b
  | cons x r ih => exact (h b x).trans (ih _)

theorem Calm.ite {c : Prop} [Decidable c] {b x y : Block} (hx : Calm b x) (hy : Calm b y) : Calm b (if c then x else y) := by
  split
  · exact hx
  · exact hy

theorem Block.loseCore_calm (b : Block) (retain : Bool) (d : Nat) : Calm b (b.loseCore retain d) := by
  by_cases h : d = 3
  · subst h
    exact ⟨rfl, fun _ => ⟨rfl, rfl⟩⟩
  · exact .of_ledger (by simp [Block.loseCore, h])

theorem Block.lose_calm (b : Block) (ds : List Nat) (retain : Bool) : Calm b (b.lose ds retain) := by
  unfold Block.lose
  extract_lets b1 b2 b3
  have h1 : Calm b b1 := (Calm.of_ledger (b.resetRegs_ledger _)).trans (Calm.foldl (fun c d => c.loseCore_calm retain d) ds _)
  have h2 : Calm b b2 := h1.then (Block.ledger_mk b1 ..)
  have h3 : Calm b b3 := .ite (h2.then (by simp)) h2
  exact .ite (h3.then (foldl_ledger (fun _ _ => by simp) _ _)) h3

theorem Block.lineStart_calm (b : Block) : Calm b b.lineStart :=
  (b.lose_calm [4, 5, 6, 7, 8, 9, 10] false).then (by simp [Block.lineStart])

theorem Block.moduleStart_calm (b : Block) : Calm b b.moduleStart :=
  (Calm.of_ledger b.timeRecord_ledger).trans
    ((b.timeRecord.lose_calm [2, 3, 4, 5, 6, 7, 8, 9, 10, 11] false).then (by simp [Block.moduleStart]))

theorem Block.rstWrite_calm (data : Half) (b : Block) : Calm b (Block.rstWrite data b) := by
  have stored : Calm b ((b.put SYS_RST_KEY 0xA5C3).putB SYS_RST_REFUSED false) := .of_ledger (by simp)
  exact .ite (.of_ledger (by simp)) <| .ite (.of_ledger (by simp)) <| .ite (.of_ledger (by simp))
    (.ite (stored.trans (Block.moduleStart_calm _)) (stored.trans (Block.lineStart_calm _)))

theorem Block.shedNow_calm (b : Block) (heat : Bool) : Calm b (b.shedNow heat) := by
  unfold Block.shedNow
  extract_lets b1 b2 b3 cav b4
  have h3 : Calm b b3 := .trans (.of_ledger (by simp [b2, b1])) (b2.lose_calm _ _)
  exact h3.then (by simp [b4])

theorem Block.enterStandby_calm (b : Block) : Calm b b.enterStandby := by
  unfold Block.enterStandby
  extract_lets m keep b1 b2
  have h2 : b2.ledger = b.ledger := by simp [b2, b1]
  exact ((Calm.of_ledger h2).trans (b2.lose_calm (offDomains m) keep)).then (by simp)

theorem Block.pwrRequest_calm (b : Block) (r : Nat) : Calm b (b.pwrRequest r) := by
  have refused (n : Nat) : Calm b (b.pwrRefuse n) := .of_ledger (by simp)
  have later (t n : Nat) : Calm b (b.pwrBoundaryOr t n) := .of_ledger (by simp)
  exact .ite (refused _) <| .ite (.of_ledger (by simp)) <| .ite (refused _) <| .ite (later _ _) <|
    .ite (.ite (refused _) (later _ _)) <| .ite (later _ _) <| .ite (.ite b.enterStandby_calm (refused _)) <|
    .ite (.ite (.of_ledger (by simp)) (refused _)) <| .ite (.ite (refused _) (.of_ledger (by simp))) (refused _)

theorem Block.pwrCtl_calm (data : Half) (b : Block) : Calm b (Block.pwrCtl data b) := by
  unfold Block.pwrCtl
  extract_lets d b1 b2
  have h2 : Calm b b2 := .of_ledger (by simp [b2, b1])
  exact .ite (h2.trans (b2.pwrRequest_calm _)) h2

theorem Block.wrPwr_calm (a : Nat) (w : RegW) (b : Block) : Calm b (Block.wrPwr a w b) := by
  unfold Block.wrPwr
  split
  · exact Block.pwrCtl_calm ..
  · exact .of_ledger (by simp)

theorem Block.wrSys_calm (a : Nat) (w : RegW) (b : Block) : Calm b (Block.wrSys a w b) := by
  unfold Block.wrSys
  extract_lets d b1
  refine .ite (.of_ledger (by simp)) <| .ite (.of_ledger (by simp)) <| .ite (.of_ledger (by simp)) <| .ite (.of_ledger (by simp)) <|
    .ite (Block.rstWrite_calm _ b) <| .ite (.of_ledger (by simp)) <| .ite (.of_ledger ?_) (.of_ledger (by simp))
  simp [b1]

theorem Block.regWrite_calm (a : Nat) (w : RegW) (b : Block) : Calm b (Block.regWrite a w b) :=
  .ite (.refl b) <| .ite (.of_ledger (by simp)) <| .ite (Block.wrSys_calm a w b) <| .ite (.of_ledger (by simp)) <|
    .ite (Block.wrPwr_calm a w b) (.of_ledger (by simp))

theorem applyCmd_calm (i : Instr) (b : Block) : Calm b (applyCmd i b) := by
  cases i with
  | registerWrite r => exact Block.regWrite_calm (slotOf r.off.toNat) (journalPart r) b
  | cycleArm d => exact .of_ledger (Block.cycleWrite_ledger d true b)
  | cycleRunWrite d => exact .of_ledger (Block.cycleWrite_ledger d (d.getLsbD 24) b)
  | mslotWrite d => exact .of_ledger (Block.mslotWrite_ledger d b)
  | profileGo d => exact .of_ledger (Block.profWrite_ledger d b)
  | cellRetireClear m => exact .of_ledger (Block.cellClear_ledger m b)
  | flowstoneDisable => exact .of_ledger (Block.flwDisable_ledger b)
  | recordWrite win reg hi d => exact .of_ledger (Block.recordWrite_ledger win reg hi d b)
  | switchGo d => exact .of_ledger (Block.switchCtl_ledger d true b)
  | engineLoad n en => exact .of_ledger (Block.galCtl_ledger n en false true b)
  | engineStart n en => exact .of_ledger (Block.galCtl_ledger n en true false b)
  | engineDisable n => exact .of_ledger (Block.galCtl_ledger n false false false b)
  | spareDesignate en => exact .of_ledger (Block.spareWrite_ledger en b)
  | ddataCapture n d => exact .of_ledger (Block.ddataCapture_ledger n d b)
  | ddataWrite n hi d => exact .of_ledger (Block.ddataWrite_ledger n hi d b)
  | galRcodeClr n => exact .of_ledger (Block.rcodeClr_ledger n b)
  | ltCapture => exact .of_ledger (Block.ltCapture_ledger b)
  | timeStep => exact .of_ledger (Block.timeStep_ledger b)
  | timeSlew => exact .of_ledger (Block.timeSlew_ledger b)
  | timeSet => exact .of_ledger (Block.timeSet_ledger b)
  | axisSrcWrite n d => exact .of_ledger (Block.axisSrcWrite_ledger n d b)
  | axisRestart n d => exact .of_ledger (Block.axisRestart_ledger n d b)
  | encStatClr e => exact .of_ledger (Block.encClr_ledger e b)
  | axisFaultsClr n => exact .of_ledger (Block.put_ledger b (LAN_AXSTAT_FAULTS n) 0)
  | knotArm n => exact .of_ledger (Block.knotArm_ledger n b)
  | axisCapture n => exact .of_ledger (Block.axisCapture_ledger n b)
  | hostP2tGo n d => exact .of_ledger (Block.hostP2tGo_ledger n d b)
  | domainSwitchWrite d => exact .of_ledger (Block.domWrite_ledger d b)
  | masterSelect d x => exact .of_ledger (Block.selWrite_ledger d x b)
  | servoEnable d x => exact .of_ledger (Block.servoWrite_ledger d x b)
  | outputEnable j d => exact .of_ledger (Block.outCtl_ledger j d b)
  | outputStep j d => exact .of_ledger (Block.outStep_ledger j d b)
  | outputDropClr j => exact .of_ledger (Block.outClr_ledger j b)
  | eptSwap => exact .of_ledger (Block.eptSwap_ledger b)
  | eptWrite d => exact .of_ledger (Block.eptWrite_ledger d b)
  | eptRead d => exact .of_ledger (Block.eptRead_ledger d b)
  | ringScan n d => exact .of_ledger (Block.zrgCfg_ledger n d b)
  | ringDisable n d => exact .of_ledger (Block.zrgCfg_ledger n d b)
  | wdogWrite n d => exact .of_ledger (Block.wdogWrite_ledger n d b)
  | _ => exact .refl b

theorem journalWrite_calm {cmd : Instr} {act : Block → Block} {b : Block} (h : Calm b (act b)) : Calm b (journalWrite cmd act b) :=
  .ite (.of_ledger (by simp)) h

theorem Block.hostWrite_calm (b : Block) (r : BarReq) : Calm b (b.hostWrite r) := by
  unfold Block.hostWrite
  extract_lets a w b1
  have h1 : Calm b b1 := Block.regWrite_calm ..
  exact .ite (.refl b) (.ite (.ite h1 (h1.then (by simp))) (Block.regWrite_calm ..))

theorem namedWrite_calm (i : Instr) (b : Block) : Calm b (namedWrite i b) := by
  cases i with
  | calRequest data => exact .of_ledger (Block.calReq_ledger data b)
  | calDisable => exact .of_ledger (Block.calDisable_ledger b)
  | bistGo => exact .of_ledger (Block.bistGo_ledger b)
  | pllRelock => exact .of_ledger (Block.pllRelock_ledger b)
  | fullRelock => exact .of_ledger (Block.fullRelock_ledger b)
  | clkOutenWrite data => exact .of_ledger (Block.outEnWrite_ledger data b)
  | inputEnable k data => exact .of_ledger (Block.inCfg_ledger k data b)
  | inputRetireClear k => exact .of_ledger (Block.inUnretire_ledger k b)
  | lwmClr => exact .of_ledger (Block.lwmClr_ledger b)
  | dmaDisable n prog moved => exact .of_ledger (Block.dmaDisableAct_ledger n prog moved b)
  | dmaResume n data => exact .of_ledger (Block.dmaCtl_ledger n (data ||| 256) b)
  | engineRetireClear n => exact .of_ledger (Block.engRetireClear_ledger n b)
  | galHdiscClr n => exact .of_ledger (Block.hdiscClr_ledger n b)
  | galSlackClr n => exact .of_ledger (Block.slackClr_ledger n b)
  | cageOcClear mask => exact .of_ledger (Block.ocClear_ledger mask.toNat b)
  | macEnable n => exact .of_ledger (Block.macEnable_ledger n b)
  | macDisable n receiving => exact .of_ledger (Block.macDisable_ledger n receiving b)
  | retrain l => exact .of_ledger (Block.retrain_ledger l b)
  | laneRetireClear l => exact .of_ledger (Block.laneUnretire_ledger l b)
  | laneTestGo l data => exact .of_ledger (Block.laneTestGo_ledger l data b)
  | sscWrite data => exact .of_ledger (Block.sscWriteAct_ledger data b)
  | bootUpdate data => exact .of_ledger (Block.bootWrite_ledger (data ||| BitVec.ofNat 64 (2 ^ 29)) b)
  | tsPop n => exact .of_ledger (Block.tsPop_ledger n b)
  | pairEnable data => exact .of_ledger (Block.pairEnable_ledger data b)
  | pairSolo => exact .of_ledger (Block.pairSoloAct_ledger b)
  | pairResync => exact .of_ledger (Block.pairResyncAct_ledger b)
  | pairWithdraw => exact .of_ledger (Block.pairWithdrawAct_ledger b)
  | pairHandover => exact .of_ledger (Block.pairHandoverAct_ledger b)
  | pairGenrst => exact .of_ledger (Block.pairGenrstAct_ledger b)
  | reqRun data => exact Block.pwrCtl_calm (reqWrite 0 data) b
  | reqDoze data => exact Block.pwrCtl_calm (reqWrite 1 data) b
  | reqLineHold data => exact Block.pwrCtl_calm (reqWrite 2 data) b
  | reqStandby data => exact Block.pwrCtl_calm (reqWrite 3 data) b
  | reqMaint data => exact Block.pwrCtl_calm (reqWrite 4 data) b
  | retnClr => exact .of_ledger (Block.retnClrAct_ledger b)
  | loopbackGo n data => exact .of_ledger (Block.loopGo_ledger n data b)
  | nodeRetireClear n j mask => exact .of_ledger (Block.lostClear_ledger n j mask b)
  | keyWrite => exact .of_ledger (Block.keyWrite_ledger b)
  | keyClear => exact .of_ledger (Block.keyClear_ledger b)
  | challengeGo data => exact .of_ledger (Block.challenge_ledger data b)
  | secUnlock => exact .of_ledger (Block.secUnlockAct_ledger b)
  | softErase => exact .of_ledger (Block.softEraseAct_ledger b)
  | logClr => exact .of_ledger (Block.logClear_ledger b)
  | fuseProg data => exact .of_ledger (Block.fuseCtl_ledger (data ||| 4) b)
  | fuseRevoke data => exact .of_ledger (Block.fuseCtl_ledger (data ||| 8) b)
  | counterAck a => exact .of_ledger (Block.counterAckAct_ledger a b)
  | snapArm => exact .of_ledger (Block.snapArmAct_ledger b)
  | snapNow => exact .of_ledger (Block.snapNowAct_ledger b)
  | snapCancel => exact .of_ledger (Block.snapCancel_ledger b)
  | traceClr data => exact .of_ledger (Block.traceClrAct_ledger data b)
  | traceLoad data => exact .of_ledger (Block.traceLoadAct_ledger data b)
  | perfCounterRead a => exact .of_ledger (Block.perfCounterReadAct_ledger a b)
  | lineReset data => exact Block.rstWrite_calm (rstData 1 data) b
  | moduleReset data => exact Block.rstWrite_calm (rstData 2 data) b
  | fdbWrite => exact .of_ledger (Block.fdbWrite_ledger b)
  | fdbDelete => exact .of_ledger (Block.fdbDelete_ledger b)
  | fdbLookup => exact .of_ledger (Block.fdbLookup_ledger b)
  | vlanWrite => exact .of_ledger (Block.vlanWrite_ledger b)
  | vlanRead => exact .of_ledger (Block.vlanRead_ledger b)
  | streamWrite => exact .of_ledger (Block.streamWrite_ledger b)
  | streamRead => exact .of_ledger (Block.streamRead_ledger b)
  | sliceReturn mask => exact .of_ledger (Block.sliceReturn_ledger mask b)
  | spareRowClear mask => exact .of_ledger (Block.spareClear_ledger mask b)
  | ticArm data => exact .of_ledger (Block.ticCtl_ledger data b)
  | ticDisable => exact .of_ledger (Block.ticDisableAct_ledger b)
  | ticPop => exact .of_ledger (Block.ticPop_ledger b)
  | ticStatClr => exact .of_ledger (Block.ticClr_ledger b)
  | hostErrClr => exact .of_ledger (Block.errClr_ledger b)
  | hostStallClr => exact .of_ledger (Block.stallClr_ledger b)
  | evtPendClear mask => exact .of_ledger (Block.pendClear_ledger b mask)
  | evtEnWrite data => exact .of_ledger (Block.enWrite_ledger b data)
  | evtSet mask => exact .of_ledger (Block.occurAll_ledger b (maskBits mask.toNat))
  | unsupportedSize off => exact .of_ledger (Block.badSize_ledger b off.toNat)
  | _ => exact journalWrite_calm (applyCmd_calm _ b)

theorem Block.answerReq_calm (r : BarReq) (b : Block) : Calm b (Block.answerReq r b) := by
  have hread : Calm b (b.hostRead r) := .of_ledger (by simp)
  have ready : Calm b ((if r.wr then b.hostWrite r else b.hostRead r).quadTouch (slotOf r.off.toNat)) :=
    (Calm.ite (b.hostWrite_calm r) hread).then (Block.quadTouch_ledger ..)
  unfold Block.answerReq
  extract_lets o
  split
  case h_7 => exact ready
  case h_8 => exact ready
  all_goals exact .of_ledger (by simp)

theorem Block.answer_calm (i : Instr) (b : Block) : Calm b (Block.answer i b) := by
  unfold Block.answer
  split
  · exact Block.answerReq_calm ..
  · exact .of_ledger (by simp)
  · exact .of_ledger (by simp)
  · split
    · exact .ite (Block.answerReq_calm ..) (namedWrite_calm ..)
    · exact namedWrite_calm ..

theorem Block.entryApply_calm (b : Block) (e : JEntry) : Calm b (b.entryApply e) := by
  unfold Block.entryApply
  split
  · next i _ =>
    have h : Calm b (applyCmd i b) := applyCmd_calm i b
    exact .ite (h.then (by simp)) h
  all_goals exact .of_ledger (by simp)

@[simp] theorem Block.tagEntry_ledger (b new : Block) : (b.tagEntry new).ledger = new.ledger := by
  simp [Block.tagEntry]

/-- The block with the entries that the journal keeps. -/
def Block.keepJournal (b : Block) (rest : List JEntry) : Block := { b with host := { b.host with journal := rest } }

theorem Block.keepJournal_ledger (b : Block) (rest : List JEntry) : (b.keepJournal rest).ledger = b.ledger := Prod.ext rfl rfl

theorem Block.journalApply_calm (b : Block) : Calm b b.journalApply := by
  unfold Block.journalApply
  split
  · exact .refl b
  · next e rest _ =>
    have h1 : Calm b ((b.reachNs e.at_).keepJournal rest) := .of_ledger ((Block.keepJournal_ledger ..).trans (b.reachNs_ledger _))
    have h2 : Calm b (Block.tagEntry ((b.reachNs e.at_).keepJournal rest) (((b.reachNs e.at_).keepJournal rest).entryApply e)) :=
      (h1.trans (Block.entryApply_calm _ _)).then (Block.tagEntry_ledger _ _)
    exact .ite h2 (h2.then (Block.put_ledger ..))
/-! ### Requests that the host's queue takes or lets go -/

@[simp] theorem Block.enqueueReq_utags (b : Block) (i : Instr) (dom : Nat) (wakes : Bool) : (b.enqueueReq i dom wakes).utags = b.utags := by
  have h : b.fabTouch.utags = b.utags := utags_of_ledger b.fabTouch_ledger
  unfold Block.enqueueReq
  split
  · rfl
  · exact h

theorem byHost_utags {act : Block → Block} {b : Block} (h : (act b).utags = b.utags) (cmd : Instr) :
    (byHost cmd act b).utags = b.utags := by
  unfold byHost
  split
  · exact h
  · simp

theorem Block.arrive_utags (i : Instr) (b : Block) : (Block.arrive i b).utags = b.utags := by
  unfold Block.arrive
  split
  · exact (Block.answer_calm i b).utags
  split
  · exact (Block.enqueueReq_utags ..).trans (utags_of_ledger (by simp))
  · simp

theorem Block.request_utags (b : Block) (r : BarReq) : (b.request_ r).utags = b.utags :=
  (Block.arrive_utags ..).trans (utags_of_ledger (by simp))

/-- Where no request waits, none goes on. -/
theorem Block.hostGoesOn_utags {b : Block} (h : b.idle) : b.hostGoesOn.utags = b.utags := by
  obtain ⟨hs, hl⟩ := h
  have ht : b.fabTouch.ledger = b.ledger := b.fabTouch_ledger
  obtain ⟨hu, -, hl'⟩ := Prod.mk.inj ht |>.imp_right Prod.mk.inj
  unfold Block.hostGoesOn
  simp only [hs, Block.stallDrain, hl', hl, Block.creditDrain, hu]

theorem Calm.hostGoesOn {b c : Block} (h : Calm b c) (hb : b.idle) : c.hostGoesOn.utags = b.utags :=
  (Block.hostGoesOn_utags (h.idle hb)).trans h.utags

theorem Block.domainReady_utags (d : Nat) {b : Block} (h : b.idle) : (Block.domainReady d b).utags = b.utags := by
  simp [Block.domainReady, h.1]

theorem Block.stallTimeout_utags {b : Block} (h : b.idle) : b.stallTimeout.utags = b.utags := by
  simp [Block.stallTimeout, h.1]

end Sys2Proof.Machine
end

section
/-! One law for each command: its effect leaves the tags to the end of the command, `done`, `donePower` or `doneRestart`. -/

namespace Sys2Proof.Machine

/-! ### What the commands do to the tags before they end -/

/-- A command without a change of power whose effect leaves the tags to its end. -/
def Tallied (s : State) (o : Host.Outcome State Fault Refusal) : Prop := ∃ f, o = done s f ∧ (f s.blk).utags = s.blk.utags

/-- A command that may restart domains and whose effect leaves the tags to its end. -/
def TalliedPower (s : State) (o : Host.Outcome State Fault Refusal) : Prop := ∃ f, o = donePower s f ∧ (f s.blk).utags = s.blk.utags

/-- A command after which requests that wait go on, each of which counts its own changes: it leaves the tags to its end where none waits. -/
def TalliedIdle (s : State) (o : Host.Outcome State Fault Refusal) : Prop :=
  ∃ f, o = donePower s f ∧ (s.blk.idle → (f s.blk).utags = s.blk.utags)

theorem tallied_done {f : Block → Block} (h : ∀ b, (f b).ledger = b.ledger) (s : State) : Tallied s (done s f) :=
  ⟨f, rfl, utags_of_ledger (h s.blk)⟩

theorem talliedPower_of_ledger {f : Block → Block} (h : ∀ b, (f b).ledger = b.ledger) (s : State) : TalliedPower s (donePower s f) :=
  ⟨f, rfl, utags_of_ledger (h s.blk)⟩

theorem talliedPower_of_utags {f : Block → Block} (h : ∀ b, (f b).utags = b.utags) (s : State) : TalliedPower s (donePower s f) :=
  ⟨f, rfl, h s.blk⟩

theorem tallied_byHost {act : Block → Block} (h : ∀ b, (act b).ledger = b.ledger) (cmd : Instr) (s : State) :
    Tallied s (done s (byHost cmd act)) :=
  ⟨_, rfl, byHost_utags (utags_of_ledger (h s.blk)) cmd⟩

theorem tallied_journaled {act : Block → Block} (h : ∀ b, (act b).ledger = b.ledger) (cmd : Instr) (s : State) :
    Tallied s (done s (journaled cmd act)) :=
  ⟨_, rfl, byHost_utags (journalWrite_calm (.of_ledger (h s.blk))).utags cmd⟩

theorem tallied_arrive (i : Instr) (s : State) : Tallied s (done s (Block.arrive i)) := ⟨_, rfl, Block.arrive_utags i s.blk⟩

theorem talliedPower_of_calm {f : Block → Block} (h : ∀ b, Calm b (f b)) (s : State) : TalliedPower s (donePower s f) :=
  ⟨f, rfl, (h s.blk).utags⟩

theorem talliedPower_byHost {act : Block → Block} (h : ∀ b, Calm b (act b)) (cmd : Instr) (s : State) :
    TalliedPower s (donePower s (byHost cmd act)) :=
  ⟨_, rfl, byHost_utags (h s.blk).utags cmd⟩

theorem tallied_laneEvent {l : Fin 36} {dt : Nat} {st : Nat → Bool} {f : Block → Block} (h : ∀ b, (f b).ledger = b.ledger) (s : State) :
    Tallied s (laneEvent l dt st f s) := by
  refine tallied_done (fun b => ?_) s
  simp [h]

section
variable {act : Block → Act} (h : ∀ b, ((act b).after b).ledger = b.ledger) (o : Op) (e : Fin 16) (u : Upset) (s : State)
include h

theorem tallied_runA (f : FormA) : Tallied s (runA o e f u act s) := tallied_done (fun b => b.runIf_ledger h ..) s
theorem tallied_runB (f : FormB) : Tallied s (runB o e f u act s) := tallied_done (fun b => b.runIf_ledger h ..) s
theorem tallied_runC (f : FormC) : Tallied s (runC o e f u act s) := tallied_done (fun b => b.runIf_ledger h ..) s
theorem tallied_runD (f : FormD) : Tallied s (runD o e f u act s) := tallied_done (fun b => b.runIf_ledger h ..) s

end

@[simp] theorem Act.after_ite (c : Prop) [Decidable c] (b : Block) (x y : Act) :
    (if c then x else y).after b = if c then x.after b else y.after b := apply_ite _ _ _ _

@[simp] theorem Act.after_trap (b : Block) (code : Nat) : (Act.trap code).after b = b := rfl
@[simp] theorem Act.after_halt (b : Block) : Act.halt.after b = b := rfl
@[simp] theorem Act.after_go (b c : Block) (cost : Nat) (res : Word) (refused : Bool) : (Act.go c cost res refused).after b = c := rfl
@[simp] theorem Act.after_jump (b c : Block) (cost pc : Nat) : (Act.jump c cost pc).after b = c := rfl
@[simp] theorem Act.after_wait (b c : Block) (cost : Nat) (w : Wait) : (Act.wait c cost w).after b = c := rfl

theorem cfgwAct_calm (e : Fin 16) (f : FormB) (b : Block) : Calm b ((cfgwAct e f b).after b) := by
  unfold cfgwAct
  extract_lets a t b0 x
  have h0 : Calm b b0 := .of_ledger (by simp [b0])
  simp only [Act.after_ite, Act.after_trap, Act.after_go]
  exact .ite (.refl b) (.ite ((h0.trans (Block.regWrite_calm ..)).then (Block.mapE_ledger ..)) (h0.then (Block.mapE_ledger ..)))

/-! #### The commands of Machine/Lantern -/

@[simp] theorem execLtCapture_tallied (s : State) : Tallied s (execLtCapture s) := tallied_journaled (fun b => by simp) _ s
@[simp] theorem execTimeStep_tallied (s : State) : Tallied s (execTimeStep s) := tallied_journaled (fun b => by simp) _ s
@[simp] theorem execTimeSlew_tallied (s : State) : Tallied s (execTimeSlew s) := tallied_journaled (fun b => by simp) _ s
@[simp] theorem execTimeSet_tallied (s : State) : Tallied s (execTimeSet s) := tallied_journaled (fun b => by simp) _ s
@[simp] theorem execSlewEnd_tallied (s : State) : Tallied s (execSlewEnd s) := tallied_done (fun b => by split <;> simp) s

@[simp] theorem execAxisSrcWrite_tallied (n : Fin 16) (data : Half) (s : State) : Tallied s (execAxisSrcWrite n data s) :=
  tallied_journaled (fun b => by simp) _ s

@[simp] theorem execAxisRestart_tallied (n : Fin 16) (data : Half) (s : State) : Tallied s (execAxisRestart n data s) :=
  tallied_journaled (fun b => by simp) _ s

@[simp] theorem execAxisSample_tallied (n : Fin 16) (s : State) : Tallied s (execAxisSample n s) := by
  refine tallied_done (fun b => ?_) s
  dsimp only
  (repeat' split) <;> simp

@[simp] theorem execSsiFrameDone_tallied (n : Fin 16) (bits : BitVec 40) (par err high : Bool) (s : State) :
    Tallied s (execSsiFrameDone n bits par err high s) :=
  tallied_done (fun b => by simp [foldl_ledger]) s

@[simp] theorem execMainsZeroCrossing_tallied (dt : Nat) (s : State) : Tallied s (execMainsZeroCrossing dt s) :=
  tallied_done (fun b => by exact foldl_ledger (fun _ _ => by simp) _ _) s

@[simp] theorem execEncoderEdge_tallied (e : Fin 4) (a b : Bool) (dt : Nat) (s : State) : Tallied s (execEncoderEdge e a b dt s) :=
  tallied_done (fun b => by simp) s

@[simp] theorem execIndexPulse_tallied (e : Fin 4) (dt : Nat) (s : State) : Tallied s (execIndexPulse e dt s) :=
  tallied_done (fun b => by simp) s

@[simp] theorem execEncStatClr_tallied (e : Fin 4) (s : State) : Tallied s (execEncStatClr e s) :=
  tallied_journaled (fun b => by simp) _ s

@[simp] theorem execAxisFaultsClr_tallied (n : Fin 16) (s : State) : Tallied s (execAxisFaultsClr n s) :=
  tallied_journaled (fun b => by simp) _ s

@[simp] theorem execKnotArm_tallied (n : Fin 16) (s : State) : Tallied s (execKnotArm n s) := tallied_journaled (fun b => by simp) _ s

@[simp] theorem execKnotEffect_tallied (n : Fin 16) (s : State) : Tallied s (execKnotEffect n s) :=
  tallied_done (fun b => by split <;> simp) s

@[simp] theorem execAxisCapture_tallied (n : Fin 16) (s : State) : Tallied s (execAxisCapture n s) :=
  tallied_journaled (fun b => by simp) _ s

@[simp] theorem execHostP2tGo_tallied (n : Fin 16) (data : Half) (s : State) : Tallied s (execHostP2tGo n data s) :=
  tallied_journaled (fun b => by simp) _ s

@[simp] theorem execHostP2tDone_tallied (n : Fin 16) (s : State) : Tallied s (execHostP2tDone n s) := tallied_done (fun b => by simp) s
@[simp] theorem execWaitRecompute_tallied (s : State) : Tallied s (execWaitRecompute s) := tallied_done (fun b => by simp) s

@[simp] theorem execAontrimWindow_tallied (ticks : Nat) (s : State) : Tallied s (execAontrimWindow ticks s) :=
  tallied_done (fun b => by simp) s

/-! #### The commands of Machine/Cycle -/

@[simp] theorem execCycleArm_tallied (data : Half) (s : State) : Tallied s (execCycleArm data s) :=
  tallied_journaled (fun b => by simp) _ s

@[simp] theorem execCycleRunWrite_tallied (data : Half) (s : State) : Tallied s (execCycleRunWrite data s) :=
  tallied_journaled (fun b => by simp) _ s

@[simp] theorem execMslotWrite_tallied (data : Half) (s : State) : Tallied s (execMslotWrite data s) :=
  tallied_journaled (fun b => by simp) _ s

@[simp] theorem execLwmClr_tallied (s : State) : Tallied s (execLwmClr s) := tallied_byHost (fun b => by simp) _ s
@[simp] theorem execMaintSlotClose_tallied (s : State) : Tallied s (execMaintSlotClose s) := tallied_done (fun b => by split <;> simp) s

/-! #### The commands of Machine/Mac -/

@[simp] theorem execRxFrame_tallied (n : Fin 33) (f : WireFrame) (dt : Nat) (s : State) : Tallied s (execRxFrame n f dt s) :=
  tallied_done (fun b => by simp) s

@[simp] theorem execPauseReceived_tallied (n : Fin 33) (quanta : BitVec 16) (dt : Nat) (s : State) :
    Tallied s (execPauseReceived n quanta dt s) :=
  tallied_done (fun b => by simp) s

@[simp] theorem execPfcReceived_tallied (n : Fin 33) (en : BitVec 8) (times : List (BitVec 16)) (dt : Nat) (s : State) :
    Tallied s (execPfcReceived n en times dt s) :=
  tallied_done (fun b => by simp) s

@[simp] theorem execPauseExpire_tallied (n : Fin 33) (s : State) : Tallied s (execPauseExpire n s) := by
  refine tallied_done (fun b => ?_) s
  dsimp only
  (repeat' split) <;> simp

@[simp] theorem execPauseRenew_tallied (n : Fin 33) (s : State) : Tallied s (execPauseRenew n s) := tallied_done (fun b => by simp) s
@[simp] theorem execTsPop_tallied (n : Fin 32) (s : State) : Tallied s (execTsPop n s) := tallied_byHost (fun b => by simp) _ s

/-! #### The commands of Machine/SwitchCore -/

@[simp] theorem execSliceReturn_tallied (mask : BitVec 4) (s : State) : Tallied s (execSliceReturn mask s) :=
  tallied_byHost (fun b => by simp) _ s

@[simp] theorem execSpareRowClear_tallied (mask : BitVec 4) (s : State) : Tallied s (execSpareRowClear mask s) :=
  tallied_byHost (fun b => by simp) _ s

@[simp] theorem execFrameIngress_tallied (unwritable : Bool) (late : Nat) (s : State) : Tallied s (execFrameIngress unwritable late s) := by
  refine tallied_done (fun b => ?_) s
  dsimp only
  (repeat' split) <;> simp

@[simp] theorem execHeldCopyEnqueue_tallied (s : State) : Tallied s (execHeldCopyEnqueue s) := by
  refine tallied_done (fun b => ?_) s
  (repeat' split) <;> simp

@[simp] theorem execMcHoldExpire_tallied (s : State) : Tallied s (execMcHoldExpire s) := tallied_done (fun b => by split <;> simp) s

@[simp] theorem execFrameTransmit_tallied (p : Fin 34) (ups : List CellUpset) (s : State) : Tallied s (execFrameTransmit p ups s) := by
  refine tallied_done (fun b => ?_) s
  (repeat' split) <;> simp

@[simp] theorem execReseqTimeout_tallied (p : Fin 34) (c : Fin 9) (s : State) : Tallied s (execReseqTimeout p c s) := by
  refine tallied_done (fun b => ?_) s
  dsimp only
  (repeat' split) <;> simp

@[simp] theorem execPortDisable_tallied (p : Fin 34) (s : State) : Tallied s (execPortDisable p s) := tallied_done (fun b => by simp) s
@[simp] theorem execFdbAge_tallied (s : State) : Tallied s (execFdbAge s) := tallied_done (fun b => by split <;> simp) s
@[simp] theorem execFdbWrite_tallied (s : State) : Tallied s (execFdbWrite s) := tallied_byHost (fun b => by simp) _ s
@[simp] theorem execFdbDelete_tallied (s : State) : Tallied s (execFdbDelete s) := tallied_byHost (fun b => by simp) _ s
@[simp] theorem execFdbLookup_tallied (s : State) : Tallied s (execFdbLookup s) := tallied_byHost (fun b => by simp) _ s
@[simp] theorem execVlanWrite_tallied (s : State) : Tallied s (execVlanWrite s) := tallied_byHost (fun b => by simp) _ s
@[simp] theorem execVlanRead_tallied (s : State) : Tallied s (execVlanRead s) := tallied_byHost (fun b => by simp) _ s
@[simp] theorem execStreamWrite_tallied (s : State) : Tallied s (execStreamWrite s) := tallied_byHost (fun b => by simp) _ s
@[simp] theorem execStreamRead_tallied (s : State) : Tallied s (execStreamRead s) := tallied_byHost (fun b => by simp) _ s

/-! #### The commands of Machine/Dma -/

@[simp] theorem execDmaDescriptor_tallied (n : Fin 4) (d : Desc) (data : List Byte) (ups : List (Nat × Bool)) (s : State) :
    Tallied s (execDmaDescriptor n d data ups s) :=
  tallied_done (fun b => by simp) s

@[simp] theorem execDma3FrameDeliver_tallied (d : Desc) (ups : List CellUpset) (s : State) : Tallied s (execDma3FrameDeliver d ups s) :=
  tallied_done (fun b => by simp) s

@[simp] theorem execDmaCplTimeout_tallied (n : Fin 4) (addr : Half) (s : State) : Tallied s (execDmaCplTimeout n addr s) :=
  tallied_done (fun b => by simp) s

@[simp] theorem execDmaCplError_tallied (n : Fin 4) (err : Fin 3) (addr : Half) (s : State) : Tallied s (execDmaCplError n err addr s) :=
  tallied_done (fun b => by simp) s

@[simp] theorem execDmaDisable_tallied (n : Fin 4) (prog : Option (Desc × List Byte)) (moved : Nat) (s : State) :
    Tallied s (execDmaDisable n prog moved s) :=
  tallied_byHost (fun b => by simp) _ s

@[simp] theorem execDmaResume_tallied (n : Fin 4) (data : Half) (s : State) : Tallied s (execDmaResume n data s) :=
  tallied_byHost (fun b => by simp) _ s

/-! #### The commands of Machine/Gallery -/

@[simp] theorem putReg_after (e : Fin 16) (d : BitVec 6) (v : Word) (cost : Nat) (b : Block) (c' : Block) :
    ((putReg e d v cost b).after c').ledger = b.ledger := by simp [putReg]

@[simp] theorem putFlag_after (e : Fin 16) (d : BitVec 6) (v : Word) (fl : BitVec 3) (c : Bool) (cost : Nat) (b : Block) (c' : Block) :
    ((putFlag e d v fl c cost b).after c').ledger = b.ledger := by simp [putFlag]

@[simp] theorem putPair_after (e : Fin 16) (d : BitVec 6) (v1 v2 : Word) (cost : Nat) (b : Block) (c' : Block) :
    ((putPair e d v1 v2 cost b).after c').ledger = b.ledger := by simp [putPair]

/-! #### The commands of Machine/GalleryAlu -/

@[simp] theorem wrapA_after (e : Fin 16) (f : FormA) (v : Int) (cost : Nat) (b : Block) (c' : Block) :
    ((wrapA e f v cost b).after c').ledger = b.ledger := by simp [wrapA]

@[simp] theorem satA_after (e : Fin 16) (f : FormA) (v : Int) (cost : Nat) (b : Block) (c' : Block) :
    ((satA e f v cost b).after c').ledger = b.ledger := by simp [satA]

@[simp] theorem execAddG_tallied (e : Fin 16) (f : FormA) (u : Upset) (s : State) : Tallied s (execAddG e f u s) :=
  tallied_runA (fun b => by simp) ..

@[simp] theorem execSubG_tallied (e : Fin 16) (f : FormA) (u : Upset) (s : State) : Tallied s (execSubG e f u s) :=
  tallied_runA (fun b => by simp) ..

@[simp] theorem execAdds_tallied (e : Fin 16) (f : FormA) (u : Upset) (s : State) : Tallied s (execAdds e f u s) :=
  tallied_runA (fun b => by simp) ..

@[simp] theorem execSubs_tallied (e : Fin 16) (f : FormA) (u : Upset) (s : State) : Tallied s (execSubs e f u s) :=
  tallied_runA (fun b => by simp) ..

@[simp] theorem execMulG_tallied (e : Fin 16) (f : FormA) (u : Upset) (s : State) : Tallied s (execMulG e f u s) :=
  tallied_runA (fun b => by simp) ..

@[simp] theorem execMuls_tallied (e : Fin 16) (f : FormA) (u : Upset) (s : State) : Tallied s (execMuls e f u s) :=
  tallied_runA (fun b => by simp) ..

@[simp] theorem execMulu_tallied (e : Fin 16) (f : FormA) (u : Upset) (s : State) : Tallied s (execMulu e f u s) :=
  tallied_runA (fun b => by simp) ..

@[simp] theorem execAbsG_tallied (e : Fin 16) (f : FormA) (u : Upset) (s : State) : Tallied s (execAbsG e f u s) :=
  tallied_runA (fun b => by simp) ..

@[simp] theorem execMinG_tallied (e : Fin 16) (f : FormA) (u : Upset) (s : State) : Tallied s (execMinG e f u s) :=
  tallied_runA (fun b => by simp) ..

@[simp] theorem execMaxG_tallied (e : Fin 16) (f : FormA) (u : Upset) (s : State) : Tallied s (execMaxG e f u s) :=
  tallied_runA (fun b => by simp) ..

@[simp] theorem execMinu_tallied (e : Fin 16) (f : FormA) (u : Upset) (s : State) : Tallied s (execMinu e f u s) :=
  tallied_runA (fun b => by simp) ..

@[simp] theorem execMaxu_tallied (e : Fin 16) (f : FormA) (u : Upset) (s : State) : Tallied s (execMaxu e f u s) :=
  tallied_runA (fun b => by simp) ..

@[simp] theorem execSat_tallied (e : Fin 16) (f : FormA) (u : Upset) (s : State) : Tallied s (execSat e f u s) :=
  tallied_runA (fun b => by simp) ..

@[simp] theorem shlTo_after (e : Fin 16) (d : BitVec 6) (fl : BitVec 3) (x : Word) (n : Nat) (b : Block) (c' : Block) :
    ((shlTo e d fl x n b).after c').ledger = b.ledger := by simp [shlTo]

@[simp] theorem execShl_tallied (e : Fin 16) (f : FormA) (u : Upset) (s : State) : Tallied s (execShl e f u s) :=
  tallied_runA (fun b => by simp) ..

@[simp] theorem execShr_tallied (e : Fin 16) (f : FormA) (u : Upset) (s : State) : Tallied s (execShr e f u s) :=
  tallied_runA (fun b => by simp) ..

@[simp] theorem execSar_tallied (e : Fin 16) (f : FormA) (u : Upset) (s : State) : Tallied s (execSar e f u s) :=
  tallied_runA (fun b => by simp) ..

@[simp] theorem execAddi_tallied (e : Fin 16) (f : FormB) (u : Upset) (s : State) : Tallied s (execAddi e f u s) :=
  tallied_runB (fun b => by simp) ..

@[simp] theorem execMovi_tallied (e : Fin 16) (f : FormB) (u : Upset) (s : State) : Tallied s (execMovi e f u s) :=
  tallied_runB (fun b => by simp) ..

@[simp] theorem execLdih_tallied (e : Fin 16) (f : FormB) (u : Upset) (s : State) : Tallied s (execLdih e f u s) :=
  tallied_runB (fun b => by simp) ..

@[simp] theorem execShli_tallied (e : Fin 16) (f : FormB) (u : Upset) (s : State) : Tallied s (execShli e f u s) :=
  tallied_runB (fun b => by simp) ..

@[simp] theorem execShri_tallied (e : Fin 16) (f : FormB) (u : Upset) (s : State) : Tallied s (execShri e f u s) :=
  tallied_runB (fun b => by simp) ..

@[simp] theorem execSari_tallied (e : Fin 16) (f : FormB) (u : Upset) (s : State) : Tallied s (execSari e f u s) :=
  tallied_runB (fun b => by simp) ..

@[simp] theorem execExt_tallied (e : Fin 16) (f : FormB) (u : Upset) (s : State) : Tallied s (execExt e f u s) :=
  tallied_runB (fun b => by simp) ..

@[simp] theorem execIns_tallied (e : Fin 16) (f : FormB) (u : Upset) (s : State) : Tallied s (execIns e f u s) :=
  tallied_runB (fun b => by simp) ..

@[simp] theorem execAndG_tallied (e : Fin 16) (f : FormA) (u : Upset) (s : State) : Tallied s (execAndG e f u s) :=
  tallied_runA (fun b => by simp) ..

@[simp] theorem execOrG_tallied (e : Fin 16) (f : FormA) (u : Upset) (s : State) : Tallied s (execOrG e f u s) :=
  tallied_runA (fun b => by simp) ..

@[simp] theorem execXorG_tallied (e : Fin 16) (f : FormA) (u : Upset) (s : State) : Tallied s (execXorG e f u s) :=
  tallied_runA (fun b => by simp) ..

@[simp] theorem execAndn_tallied (e : Fin 16) (f : FormA) (u : Upset) (s : State) : Tallied s (execAndn e f u s) :=
  tallied_runA (fun b => by simp) ..

@[simp] theorem putComb_after (e : Fin 16) (d : BitVec 6) (c : Bool) (b : Block) (c' : Block) :
    ((putComb e d c b).after c').ledger = b.ledger := by simp [putComb]

@[simp] theorem execCmp_tallied (e : Fin 16) (f : FormA) (u : Upset) (s : State) : Tallied s (execCmp e f u s) :=
  tallied_runA (fun b => by simp) ..

@[simp] theorem execFop_tallied (e : Fin 16) (f : FormA) (u : Upset) (s : State) : Tallied s (execFop e f u s) :=
  tallied_runA (fun b => by simp) ..

@[simp] theorem execAndi_tallied (e : Fin 16) (f : FormB) (u : Upset) (s : State) : Tallied s (execAndi e f u s) :=
  tallied_runB (fun b => by simp) ..

@[simp] theorem execOri_tallied (e : Fin 16) (f : FormB) (u : Upset) (s : State) : Tallied s (execOri e f u s) :=
  tallied_runB (fun b => by simp) ..

@[simp] theorem execXori_tallied (e : Fin 16) (f : FormB) (u : Upset) (s : State) : Tallied s (execXori e f u s) :=
  tallied_runB (fun b => by simp) ..

@[simp] theorem execCmpi_tallied (e : Fin 16) (f : FormB) (u : Upset) (s : State) : Tallied s (execCmpi e f u s) :=
  tallied_runB (fun b => by simp) ..

/-! #### The commands of Machine/GalleryFlow -/

@[simp] theorem execNop_tallied (e : Fin 16) (f : FormA) (u : Upset) (s : State) : Tallied s (execNop e f u s) := by
  refine tallied_done (fun b => ?_) s
  dsimp only
  split
  · exact (ofLedger_ledger b).runWord (act := fun _ => .trap 1) (fun c hc => hc) rfl ..
  · exact b.runIf_ledger (fun c => rfl) ..

@[simp] theorem execHalt_tallied (e : Fin 16) (f : FormA) (u : Upset) (s : State) : Tallied s (execHalt e f u s) :=
  tallied_runA (fun b => by simp) ..

@[simp] theorem execRaise_tallied (e : Fin 16) (f : FormB) (u : Upset) (s : State) : Tallied s (execRaise e f u s) :=
  tallied_runB (fun b => by simp) ..

@[simp] theorem execSig_tallied (e : Fin 16) (f : FormB) (u : Upset) (s : State) : Tallied s (execSig e f u s) :=
  tallied_runB (fun b => by simp) ..

@[simp] theorem execRdprf_tallied (e : Fin 16) (f : FormA) (u : Upset) (s : State) : Tallied s (execRdprf e f u s) :=
  tallied_runA (fun b => by simp) ..

@[simp] theorem execLd_tallied (e : Fin 16) (f : FormB) (u : Upset) (s : State) : Tallied s (execLd e f u s) :=
  tallied_runB (fun b => by simp) ..

@[simp] theorem execSt_tallied (e : Fin 16) (f : FormB) (u : Upset) (s : State) : Tallied s (execSt e f u s) :=
  tallied_runB (fun b => by simp) ..

@[simp] theorem execBr_tallied (e : Fin 16) (f : FormC) (u : Upset) (s : State) : Tallied s (execBr e f u s) :=
  tallied_runC (fun b => by simp) ..

@[simp] theorem execCallG_tallied (e : Fin 16) (f : FormC) (u : Upset) (s : State) : Tallied s (execCallG e f u s) :=
  tallied_runC (fun b => by simp) ..

@[simp] theorem execRet_tallied (e : Fin 16) (f : FormC) (u : Upset) (s : State) : Tallied s (execRet e f u s) :=
  tallied_runC (fun b => by simp) ..

@[simp] theorem execLoopG_tallied (e : Fin 16) (f : FormC) (u : Upset) (s : State) : Tallied s (execLoopG e f u s) :=
  tallied_runC (fun b => by simp) ..

@[simp] theorem execRdlt_tallied (e : Fin 16) (f : FormA) (u : Upset) (s : State) : Tallied s (execRdlt e f u s) :=
  tallied_runA (fun b => by simp) ..

@[simp] theorem execRdpos_tallied (e : Fin 16) (f : FormA) (u : Upset) (s : State) : Tallied s (execRdpos e f u s) :=
  tallied_runA (fun b => by simp) ..

@[simp] theorem execP2t_tallied (e : Fin 16) (f : FormA) (u : Upset) (s : State) : Tallied s (execP2t e f u s) :=
  tallied_runA (fun b => by simp) ..

/-! #### The commands of Machine/GalleryWait -/

@[simp] theorem execWaitt_tallied (e : Fin 16) (f : FormC) (u : Upset) (s : State) : Tallied s (execWaitt e f u s) :=
  tallied_runC (fun b => by simp) ..

@[simp] theorem execWaitl_tallied (e : Fin 16) (f : FormC) (u : Upset) (s : State) : Tallied s (execWaitl e f u s) :=
  tallied_runC (fun b => by simp) ..

@[simp] theorem execCamw_tallied (e : Fin 16) (f : FormC) (u : Upset) (s : State) : Tallied s (execCamw e f u s) :=
  tallied_runC (fun b => by simp) ..

@[simp] theorem execWaits_tallied (e : Fin 16) (f : FormC) (u : Upset) (s : State) : Tallied s (execWaits e f u s) :=
  tallied_runC (fun b => by simp) ..

@[simp] theorem execBar_tallied (e : Fin 16) (f : FormC) (u : Upset) (s : State) : Tallied s (execBar e f u s) :=
  tallied_runC (fun b => by simp) ..

@[simp] theorem execWaittRelease_tallied (e : Fin 16) (s : State) : Tallied s (execWaittRelease e s) := by
  refine tallied_done (fun b => ?_) s
  dsimp only
  (repeat' split) <;> simp

@[simp] theorem execWaitlRelease_tallied (e : Fin 16) (s : State) : Tallied s (execWaitlRelease e s) := by
  refine tallied_done (fun b => ?_) s
  dsimp only
  (repeat' split) <;> simp

@[simp] theorem execCamwRelease_tallied (e : Fin 16) (s : State) : Tallied s (execCamwRelease e s) := by
  refine tallied_done (fun b => ?_) s
  dsimp only
  (repeat' split) <;> simp

@[simp] theorem execWaitsRelease_tallied (e : Fin 16) (s : State) : Tallied s (execWaitsRelease e s) := by
  refine tallied_done (fun b => ?_) s
  dsimp only
  (repeat' split) <;> simp

@[simp] theorem execBarRelease_tallied (e : Fin 16) (s : State) : Tallied s (execBarRelease e s) :=
  tallied_done (fun b => by split <;> simp) s

@[simp] theorem execWaitTimeout_tallied (e : Fin 16) (s : State) : Tallied s (execWaitTimeout e s) := by
  refine tallied_done (fun b => ?_) s
  dsimp only
  (repeat' split) <;> simp

/-! #### The commands of Machine/Snapshot -/

@[simp] theorem execCounterAck_tallied (a : BitVec 24) (s : State) : Tallied s (execCounterAck a s) :=
  tallied_byHost (fun b => by simp) _ s

@[simp] theorem execSnapArm_tallied (s : State) : Tallied s (execSnapArm s) := tallied_byHost (fun b => by simp) _ s
@[simp] theorem execSnapNow_tallied (s : State) : Tallied s (execSnapNow s) := tallied_byHost (fun b => by simp) _ s
@[simp] theorem execSnapCancel_tallied (s : State) : Tallied s (execSnapCancel s) := tallied_byHost (fun b => by simp) _ s
@[simp] theorem execSnapStrobe_tallied (s : State) : Tallied s (execSnapStrobe s) := tallied_done (fun b => by split <;> simp) s

@[simp] theorem execSnapTransferDone_tallied (s : State) : Tallied s (execSnapTransferDone s) := by
  refine tallied_done (fun b0 => ?_) s
  split
  · extract_lets b k seq b1 b2 b3 b4 snap
    have h : b.ledger = b0.ledger := by
      simp only [b]
      split <;> simp
    have h4 : b4.ledger = b.ledger := by simp [b4, b3, b2, b1]
    exact (Block.raise_ledger ..).trans ((Block.ledger_mk b4 ..).trans (h4.trans h))
  · rfl

@[simp] theorem execTraceClr_tallied (data : Half) (s : State) : Tallied s (execTraceClr data s) :=
  tallied_byHost (fun b => by simp) _ s

@[simp] theorem execTraceLoad_tallied (data : Half) (s : State) : Tallied s (execTraceLoad data s) :=
  tallied_byHost (fun b => by simp) _ s

@[simp] theorem execPerfCounterRead_tallied (a : BitVec 24) (s : State) : Tallied s (execPerfCounterRead a s) :=
  tallied_byHost (fun b => by simp) _ s

/-! #### The commands of Machine/GalleryFrames -/

@[simp] theorem putSf_after (e : Fin 16) (sf : BitVec 3) (ok : Bool) (cost : Nat) (b : Block) (c' : Block) :
    ((putSf e sf ok cost b).after c').ledger = b.ledger := by simp [putSf]

@[simp] theorem execEmit_tallied (e : Fin 16) (f : FormD) (u : Upset) (s : State) : Tallied s (execEmit e f u s) := by
  refine tallied_runD (fun b => ?_) ..
  dsimp only
  split <;> simp

@[simp] theorem execPatch_tallied (e : Fin 16) (f : FormD) (u : Upset) (s : State) : Tallied s (execPatch e f u s) := by
  refine tallied_runD (fun b => ?_) ..
  dsimp only
  split <;> simp

@[simp] theorem execGate_tallied (e : Fin 16) (f : FormD) (u : Upset) (s : State) : Tallied s (execGate e f u s) :=
  tallied_runD (fun b => by simp) ..

@[simp] theorem execSnap_tallied (e : Fin 16) (f : FormD) (u : Upset) (s : State) : Tallied s (execSnap e f u s) :=
  tallied_runD (fun b => by simp) ..

/-! #### The commands of Machine/GalleryControl -/

@[simp] theorem execCycleTrigger_tallied (s : State) : Tallied s (execCycleTrigger s) := tallied_done (fun b => by split <;> simp) s

@[simp] theorem execEngineLoad_tallied (n : Fin 16) (en : Bool) (s : State) : Tallied s (execEngineLoad n en s) :=
  tallied_journaled (fun b => by simp) _ s

@[simp] theorem execEngineStart_tallied (n : Fin 16) (en : Bool) (s : State) : Tallied s (execEngineStart n en s) :=
  tallied_journaled (fun b => by simp) _ s

@[simp] theorem execEngineDisable_tallied (n : Fin 16) (s : State) : Tallied s (execEngineDisable n s) :=
  tallied_journaled (fun b => by simp) _ s

@[simp] theorem execEngineStartEffect_tallied (n : Fin 16) (s : State) : Tallied s (execEngineStartEffect n s) := by
  refine tallied_done (fun b => ?_) s
  dsimp only
  (repeat' split) <;> simp

@[simp] theorem execSpareDesignate_tallied (en : Bool) (s : State) : Tallied s (execSpareDesignate en s) :=
  tallied_journaled (fun b => by simp) _ s

@[simp] theorem execEngineRetireClear_tallied (n : Fin 16) (s : State) : Tallied s (execEngineRetireClear n s) :=
  tallied_byHost (fun b => by simp) _ s

@[simp] theorem execGalHdiscClr_tallied (n : Fin 16) (s : State) : Tallied s (execGalHdiscClr n s) :=
  tallied_byHost (fun b => by simp) _ s

@[simp] theorem execGalRcodeClr_tallied (n : Fin 16) (s : State) : Tallied s (execGalRcodeClr n s) :=
  tallied_journaled (fun b => by simp) _ s

@[simp] theorem execGalSlackClr_tallied (n : Fin 16) (s : State) : Tallied s (execGalSlackClr n s) :=
  tallied_byHost (fun b => by simp) _ s

/-! #### The commands of Machine/Flowstone -/

@[simp] theorem execCellRetireClear_tallied (mask : BitVec 8) (s : State) : Tallied s (execCellRetireClear mask s) :=
  tallied_journaled (fun b => by simp) _ s

@[simp] theorem execBatchDispatch_tallied (chk : List Nat) (ups : List (Nat × Bool)) (s : State) :
    Tallied s (execBatchDispatch chk ups s) := by
  refine tallied_done (fun b => ?_) s
  dsimp only
  (repeat' split) <;> simp

@[simp] theorem execSegmentFetchDone_tallied (ups : List (Nat × Bool)) (s : State) : Tallied s (execSegmentFetchDone ups s) := by
  refine tallied_done (fun b => ?_) s
  dsimp only
  (repeat' split) <;> simp

@[simp] theorem execBatchComplete_tallied (s : State) : Tallied s (execBatchComplete s) := by
  refine tallied_done (fun b => ?_) s
  dsimp only
  (repeat' split) <;> simp

@[simp] theorem execCamq_tallied (e : Fin 16) (f : FormD) (u : Upset) (s : State) : Tallied s (execCamq e f u s) :=
  tallied_runD (fun b => by simp) ..

@[simp] theorem execFlowstoneDisable_tallied (s : State) : Tallied s (execFlowstoneDisable s) :=
  tallied_journaled (fun b => by simp) _ s

@[simp] theorem execSeekDone_tallied (ups : List (Nat × Bool)) (s : State) : Tallied s (execSeekDone ups s) := by
  refine tallied_done (fun b => ?_) s
  dsimp only
  (repeat' split) <;> simp

@[simp] theorem execRecordWrite_tallied (win : Fin 17) (reg : Fin 5) (hi : Bool) (data : Half) (s : State) :
    Tallied s (execRecordWrite win reg hi data s) :=
  tallied_journaled (fun b => by simp) _ s

@[simp] theorem execSwitchGo_tallied (data : Half) (s : State) : Tallied s (execSwitchGo data s) :=
  tallied_journaled (fun b => by simp) _ s

/-! #### The commands of Machine/Lanes -/

@[simp] theorem execSignalDetect_tallied (l : Fin 36) (dt : Nat) (s : State) : Tallied s (execSignalDetect l dt s) :=
  tallied_laneEvent (fun b => by simp) s

@[simp] theorem execTrainDone_tallied (l : Fin 36) (foms : List (BitVec 12)) (dt : Nat) (s : State) :
    Tallied s (execTrainDone l foms dt s) := by
  refine tallied_laneEvent (fun b => ?_) s
  split
  · rfl
  · dsimp only
    split <;> simp

@[simp] theorem execLockDone_tallied (l : Fin 36) (dt : Nat) (s : State) : Tallied s (execLockDone l dt s) :=
  tallied_laneEvent (fun b => by simp) s

@[simp] theorem execDeskewDone_tallied (l : Fin 36) (skews : List (BitVec 20)) (dt : Nat) (s : State) :
    Tallied s (execDeskewDone l skews dt s) :=
  tallied_laneEvent (fun b => by simp) s

@[simp] theorem execCapxDone_tallied (l : Fin 36) (m : CapMsg) (dt : Nat) (s : State) : Tallied s (execCapxDone l m dt s) :=
  tallied_laneEvent (fun b => by simp) s

@[simp] theorem execStageTimeout_tallied (l : Fin 36) (s : State) : Tallied s (execStageTimeout l s) :=
  tallied_laneEvent (fun b => by simp) s

@[simp] theorem execLaneLockLoss_tallied (l : Fin 36) (errs dt : Nat) (s : State) : Tallied s (execLaneLockLoss l errs dt s) :=
  tallied_laneEvent (fun b => by simp) s

@[simp] theorem execLossOfSignal_tallied (l : Fin 36) (dt : Nat) (s : State) : Tallied s (execLossOfSignal l dt s) :=
  tallied_laneEvent (fun b => by simp) s

@[simp] theorem execRetrain_tallied (l : Fin 36) (s : State) : Tallied s (execRetrain l s) := tallied_byHost (fun b => by simp) _ s

@[simp] theorem execLaneRetireClear_tallied (l : Fin 36) (s : State) : Tallied s (execLaneRetireClear l s) :=
  tallied_byHost (fun b => by simp) _ s

@[simp] theorem execAdaptMeasure_tallied (l : Fin 36) (below at_ above : BitVec 12) (s : State) :
    Tallied s (execAdaptMeasure l below at_ above s) :=
  tallied_laneEvent (fun b => by simp) s

@[simp] theorem execCapMessageRx_tallied (l : Fin 4) (m : CapMsg) (dt : Nat) (s : State) : Tallied s (execCapMessageRx l m dt s) :=
  tallied_done (fun b => by simp) s

@[simp] theorem execLaneTestGo_tallied (l : Fin 36) (data : Half) (s : State) : Tallied s (execLaneTestGo l data s) :=
  tallied_byHost (fun b => by simp) _ s

@[simp] theorem execLaneTestDone_tallied (l : Fin 36) (h v : BitVec 6) (errs : BitVec 40) (dt : Nat) (s : State) :
    Tallied s (execLaneTestDone l h v errs dt s) := by
  refine tallied_done (fun b => ?_) s
  dsimp only
  (repeat' split) <;> simp

@[simp] theorem execSscWrite_tallied (data : Half) (s : State) : Tallied s (execSscWrite data s) :=
  tallied_byHost (fun b => by simp) _ s

@[simp] theorem execLinkUp_tallied (n : Fin 33) (dt : Nat) (s : State) : Tallied s (execLinkUp n dt s) :=
  tallied_done (fun b => by simp) s

@[simp] theorem execLinkDown_tallied (n : Fin 33) (why : LinkFault) (dt : Nat) (s : State) : Tallied s (execLinkDown n why dt s) :=
  tallied_done (fun b => by split <;> simp) s

@[simp] theorem execMacEnable_tallied (n : Fin 33) (s : State) : Tallied s (execMacEnable n s) := tallied_byHost (fun b => by simp) _ s

@[simp] theorem execMacDisable_tallied (n : Fin 33) (receiving : Bool) (s : State) : Tallied s (execMacDisable n receiving s) :=
  tallied_byHost (fun b => by simp) _ s

/-! #### The commands of Machine/Ring -/

@[simp] theorem execRingFrameSend_tallied (n : Fin 32) (ups : List CellUpset) (s : State) : Tallied s (execRingFrameSend n ups s) := by
  refine tallied_done (fun b => ?_) s
  (repeat' split) <;> simp

@[simp] theorem execRingFrameReturn_tallied (n : Fin 32) (peer : Bool) (f : WireFrame) (dt : Nat) (s : State) :
    Tallied s (execRingFrameReturn n peer f dt s) :=
  tallied_done (fun b => by simp) s

@[simp] theorem execMailboxUp_tallied (n : Fin 32) (peer : Bool) (bytes : List Byte) (dt : Nat) (s : State) :
    Tallied s (execMailboxUp n peer bytes dt s) :=
  tallied_done (fun b => by simp) s

@[simp] theorem execMailboxDownSend_tallied (n : Fin 32) (ups : List CellUpset) (s : State) : Tallied s (execMailboxDownSend n ups s) := by
  refine tallied_done (fun b => ?_) s
  dsimp only
  (repeat' split) <;> simp

@[simp] theorem execMailboxEcho_tallied (n : Fin 32) (peer : Bool) (bytes : List Byte) (dt : Nat) (s : State) :
    Tallied s (execMailboxEcho n peer bytes dt s) :=
  tallied_done (fun b => by simp) s

@[simp] theorem execEptSwap_tallied (s : State) : Tallied s (execEptSwap s) := tallied_journaled (fun b => by simp) _ s
@[simp] theorem execEptCopyDone_tallied (s : State) : Tallied s (execEptCopyDone s) := tallied_done (fun b => by simp) s

@[simp] theorem execEptWrite_tallied (data : Half) (s : State) : Tallied s (execEptWrite data s) :=
  tallied_journaled (fun b => by simp) _ s

@[simp] theorem execEptRead_tallied (data : Half) (s : State) : Tallied s (execEptRead data s) :=
  tallied_journaled (fun b => by simp) _ s

@[simp] theorem execRingScan_tallied (n : Fin 32) (data : Half) (s : State) : Tallied s (execRingScan n data s) :=
  tallied_journaled (fun b => by simp) _ s

@[simp] theorem execScanFrame_tallied (n : Fin 32) (ret : Option ScanRet) (s : State) : Tallied s (execScanFrame n ret s) :=
  tallied_done (fun b => by split <;> simp) s

@[simp] theorem execScanComplete_tallied (n : Fin 32) (s : State) : Tallied s (execScanComplete n s) :=
  tallied_done (fun b => by split <;> simp) s

@[simp] theorem execScanTimeout_tallied (n : Fin 32) (s : State) : Tallied s (execScanTimeout n s) :=
  tallied_done (fun b => by split <;> simp) s

@[simp] theorem execRingDisable_tallied (n : Fin 32) (data : Half) (s : State) : Tallied s (execRingDisable n data s) :=
  tallied_journaled (fun b => by simp) _ s

@[simp] theorem execRingStopDone_tallied (n : Fin 32) (s : State) : Tallied s (execRingStopDone n s) :=
  tallied_done (fun b => by simp) s

@[simp] theorem execKeepaliveFrame_tallied (n : Fin 32) (s : State) : Tallied s (execKeepaliveFrame n s) :=
  tallied_done (fun b => by simp) s

@[simp] theorem execNodeRetireClear_tallied (n : Fin 32) (j : Fin 4) (mask : Half) (s : State) :
    Tallied s (execNodeRetireClear n j mask s) :=
  tallied_byHost (fun b => by simp) _ s

@[simp] theorem execWdogWrite_tallied (n : Fin 32) (data : Half) (s : State) : Tallied s (execWdogWrite n data s) :=
  tallied_journaled (fun b => by simp) _ s

/-! #### The commands of Machine/Emission -/

@[simp] theorem execEmissionPathMove_tallied (e : Fin 16) (s : State) : Tallied s (execEmissionPathMove e s) := by
  refine tallied_done (fun b => ?_) s
  (repeat' split) <;> simp

/-! #### The commands of Machine/Pulse -/

@[simp] theorem execOutputEnable_tallied (j : Fin 6) (data : Half) (s : State) : Tallied s (execOutputEnable j data s) :=
  tallied_journaled (fun b => by simp) _ s

@[simp] theorem execAlignAnchor_tallied (src : Fin 6) (dt : Nat) (s : State) : Tallied s (execAlignAnchor src dt s) :=
  tallied_done (fun b => by simp) s

@[simp] theorem execAlignLoss_tallied (j : Fin 6) (s : State) : Tallied s (execAlignLoss j s) := by
  refine tallied_done (fun b => ?_) s
  dsimp only
  (repeat' split) <;> simp

@[simp] theorem execOutputStep_tallied (j : Fin 6) (data : Half) (s : State) : Tallied s (execOutputStep j data s) :=
  tallied_journaled (fun b => by simp) _ s

@[simp] theorem execOutputDropClr_tallied (j : Fin 6) (s : State) : Tallied s (execOutputDropClr j s) :=
  tallied_journaled (fun b => by simp) _ s

@[simp] theorem execPulseOutputEdge_tallied (j : Fin 6) (s : State) : Tallied s (execPulseOutputEdge j s) := by
  refine tallied_done (fun b => ?_) s
  dsimp only
  (repeat' split) <;> simp

/-! #### The commands of Machine/Clock -/

@[simp] theorem execBandSelect_tallied (p : Fin 3) (temp : Int) (dt : Nat) (s : State) : Tallied s (execBandSelect p temp dt s) := by
  refine tallied_done (fun b => ?_) s
  dsimp only
  (repeat' split) <;> simp

@[simp] theorem execNobandRetry_tallied (p : Fin 3) (s : State) : Tallied s (execNobandRetry p s) := tallied_done (fun b => by simp) s

@[simp] theorem execPllLockAchieved_tallied (p : Fin 3) (dt : Nat) (s : State) : Tallied s (execPllLockAchieved p dt s) :=
  tallied_done (fun b => by simp) s

@[simp] theorem execPllLockTimeout_tallied (p : Fin 3) (s : State) : Tallied s (execPllLockTimeout p s) :=
  tallied_done (fun b => by simp) s

@[simp] theorem execAlignRelease_tallied (p : Fin 3) (trim : BitVec 8) (dt : Nat) (s : State) : Tallied s (execAlignRelease p trim dt s) :=
  tallied_done (fun b => by simp) s

@[simp] theorem execPllRelock_tallied (s : State) : Tallied s (execPllRelock s) := tallied_byHost (fun b => by simp) _ s
@[simp] theorem execFullRelock_tallied (s : State) : Tallied s (execFullRelock s) := tallied_byHost (fun b => by simp) _ s

@[simp] theorem execHoldRecover_tallied (p : Fin 3) (gathered : Int) (dt : Nat) (s : State) : Tallied s (execHoldRecover p gathered dt s) :=
  tallied_done (fun b => by simp) s

@[simp] theorem execPllSlewEnd_tallied (s : State) : Tallied s (execPllSlewEnd s) := tallied_done (fun b => by simp) s

@[simp] theorem execClockMonitor_tallied (bad : BitVec 11) (s : State) : Tallied s (execClockMonitor bad s) :=
  tallied_done (fun b => by simp) s

@[simp] theorem execClkOutenWrite_tallied (data : Half) (s : State) : Tallied s (execClkOutenWrite data s) :=
  tallied_byHost (fun b => by simp) _ s

@[simp] theorem execPllTuneRail_tallied (p : Fin 3) (tune : BitVec 10) (dt : Nat) (s : State) : Tallied s (execPllTuneRail p tune dt s) :=
  tallied_done (fun b => by simp) s

/-! #### The commands of Machine/Tic -/

@[simp] theorem execTicArm_tallied (data : Half) (s : State) : Tallied s (execTicArm data s) := tallied_byHost (fun b => by simp) _ s
@[simp] theorem execTicDisable_tallied (s : State) : Tallied s (execTicDisable s) := tallied_byHost (fun b => by simp) _ s

@[simp] theorem execTicStartEdge_tallied (src : Fin 12) (fall : Bool) (n : BitVec 48) (c : BitVec 12) (dt : Nat) (s : State) :
    Tallied s (execTicStartEdge src fall n c dt s) :=
  tallied_done (fun b => by simp) s

@[simp] theorem execTicStopEdge_tallied (src : Fin 11) (fall : Bool) (n : BitVec 48) (c : BitVec 12) (dt : Nat) (s : State) :
    Tallied s (execTicStopEdge src fall n c dt s) := by
  refine tallied_done (fun b => ?_) s
  dsimp only
  (repeat' split) <;> simp

@[simp] theorem execTicTimeout_tallied (s : State) : Tallied s (execTicTimeout s) := tallied_done (fun b => by simp) s
@[simp] theorem execTicPop_tallied (s : State) : Tallied s (execTicPop s) := tallied_byHost (fun b => by simp) _ s
@[simp] theorem execTicStatClr_tallied (s : State) : Tallied s (execTicStatClr s) := tallied_byHost (fun b => by simp) _ s

@[simp] theorem execOcxoWarmChange_tallied (warm : Bool) (dt : Nat) (s : State) : Tallied s (execOcxoWarmChange warm dt s) :=
  tallied_done (fun b => by simp) s

/-! #### The commands of Machine/Calib -/

@[simp] theorem execCalRequest_tallied (data : Half) (s : State) : Tallied s (execCalRequest data s) :=
  tallied_byHost (fun b => by simp) _ s

@[simp] theorem execCalJobEnd_tallied (r : CalResult) (dt : Nat) (s : State) : Tallied s (execCalJobEnd r dt s) :=
  tallied_done (fun b => by split <;> simp) s

@[simp] theorem execCalAuto_tallied (s : State) : Tallied s (execCalAuto s) := tallied_done (fun b => by simp) s
@[simp] theorem execCalDisable_tallied (s : State) : Tallied s (execCalDisable s) := tallied_byHost (fun b => by simp) _ s

@[simp] theorem execSliceTestTimeout_tallied (s : State) : Tallied s (execSliceTestTimeout s) :=
  tallied_done (fun b => by split <;> simp) s

@[simp] theorem execPllRefloss_tallied (p : Fin 3) (dt : Nat) (s : State) : Tallied s (execPllRefloss p dt s) :=
  tallied_done (fun b => by simp) s

@[simp] theorem execPllUnlock_tallied (p : Fin 3) (dt : Nat) (s : State) : Tallied s (execPllUnlock p dt s) :=
  tallied_done (fun b => by simp) s

@[simp] theorem execBistGo_tallied (s : State) : Tallied s (execBistGo s) := tallied_byHost (fun b => by simp) _ s

@[simp] theorem execBistDone_tallied (areas : BitVec 8) (chans : List (Fin 8 × Nat)) (dt : Nat) (s : State) :
    Tallied s (execBistDone areas chans dt s) :=
  tallied_done (fun b => by simp) s

/-! #### The commands of Machine/Ptp -/

@[simp] theorem execSyncSend_tallied (n : Fin 32) (d : Fin 2) (s : State) : Tallied s (execSyncSend n d s) :=
  tallied_done (fun b => by simp) s

@[simp] theorem execDelayReqSend_tallied (d k : Fin 2) (s : State) : Tallied s (execDelayReqSend d k s) :=
  tallied_done (fun b => by simp) s

@[simp] theorem execPdelayReqSend_tallied (n : Fin 32) (s : State) : Tallied s (execPdelayReqSend n s) :=
  tallied_done (fun b => by split <;> simp) s

@[simp] theorem execPtpMessageRx_tallied (s : State) : Tallied s (execPtpMessageRx s) := tallied_done (fun b => by split <;> simp) s

@[simp] theorem execDomainSwitchWrite_tallied (data : Half) (s : State) : Tallied s (execDomainSwitchWrite data s) :=
  tallied_journaled (fun b => by simp) _ s

@[simp] theorem execSteeringSwitchEnd_tallied (s : State) : Tallied s (execSteeringSwitchEnd s) := tallied_done (fun b => by simp) s

@[simp] theorem execMasterTimeout_tallied (d k : Fin 2) (s : State) : Tallied s (execMasterTimeout d k s) :=
  tallied_done (fun b => by split <;> simp) s

@[simp] theorem execMasterSelect_tallied (d : Fin 2) (data : Half) (s : State) : Tallied s (execMasterSelect d data s) :=
  tallied_journaled (fun b => by simp) _ s

@[simp] theorem execServoEnable_tallied (d : Fin 2) (data : Half) (s : State) : Tallied s (execServoEnable d data s) :=
  tallied_journaled (fun b => by simp) _ s

@[simp] theorem execLoopbackGo_tallied (n : Fin 32) (data : Half) (s : State) : Tallied s (execLoopbackGo n data s) :=
  tallied_byHost (fun b => by simp) _ s

@[simp] theorem execLoopbackDone_tallied (n : Fin 32) (mean : BitVec 32) (rms lost dt : Nat) (s : State) :
    Tallied s (execLoopbackDone n mean rms lost dt s) :=
  tallied_done (fun b => by simp) s

/-! #### The commands of Machine/Compass -/

@[simp] theorem execSelectionEval_tallied (s : State) : Tallied s (execSelectionEval s) := tallied_done (fun b => by simp) s

@[simp] theorem execFreqUpdate_tallied (pps : Bool) (s : State) : Tallied s (execFreqUpdate pps s) :=
  tallied_done (fun b => by simp [foldl_ledger]) s

@[simp] theorem execComparisonEdge_tallied (k : Fin 8) (stamp phase : Int) (dt : Nat) (s : State) :
    Tallied s (execComparisonEdge k stamp phase dt s) :=
  tallied_done (fun b => by simp) s

@[simp] theorem execInputAbsence_tallied (k : Fin 8) (dt : Nat) (s : State) : Tallied s (execInputAbsence k dt s) :=
  tallied_done (fun b => by simp) s

@[simp] theorem execInputReturn_tallied (k : Fin 8) (stamp phase : Int) (dt : Nat) (s : State) :
    Tallied s (execInputReturn k stamp phase dt s) :=
  tallied_done (fun b => by simp) s

@[simp] theorem execDropoutExpire_tallied (k : Fin 8) (s : State) : Tallied s (execDropoutExpire k s) :=
  tallied_done (fun b => by simp) s

@[simp] theorem execInputQualify_tallied (k : Fin 8) (s : State) : Tallied s (execInputQualify k s) := tallied_done (fun b => by simp) s

@[simp] theorem execInputEnable_tallied (k : Fin 8) (data : Half) (s : State) : Tallied s (execInputEnable k data s) :=
  tallied_byHost (fun b => by simp) _ s

@[simp] theorem execInputRetireClear_tallied (k : Fin 8) (s : State) : Tallied s (execInputRetireClear k s) :=
  tallied_byHost (fun b => by simp) _ s

@[simp] theorem execSwitchCommit_tallied (s : State) : Tallied s (execSwitchCommit s) := by
  refine tallied_done (fun b0 => ?_) s
  split
  · rfl
  next t _ =>
  split
  · rfl
  extract_lets b k phi
  have h : b.ledger = b0.ledger := b0.reachPhys_ledger (t + 1000000 * nsUnit)
  generalize b.commitState k = p
  obtain ⟨st, n⟩ := p
  dsimp only
  split
  · exact (Block.journalItem_ledger ..).trans ((Block.mapCmp_ledger ..).trans h)
  · exact (Block.commitNow_ledger ..).trans h

@[simp] theorem execAcquireTimeout_tallied (s : State) : Tallied s (execAcquireTimeout s) := by
  refine tallied_done (fun b => ?_) s
  dsimp only
  (repeat' split) <;> simp

@[simp] theorem execStageAdvance_tallied (s : State) : Tallied s (execStageAdvance s) := tallied_done (fun b => by split <;> simp) s
@[simp] theorem execHoldoverTimeout_tallied (s : State) : Tallied s (execHoldoverTimeout s) := tallied_done (fun b => by simp) s
@[simp] theorem execFrtrimUpdate_tallied (s : State) : Tallied s (execFrtrimUpdate s) := tallied_done (fun b => by simp) s

@[simp] theorem execHoldoverPredictionUpdate_tallied (s : State) : Tallied s (execHoldoverPredictionUpdate s) :=
  tallied_done (fun b => by simp) s

/-! #### The commands of Machine/Pair -/

@[simp] theorem execPairEnable_tallied (data : Half) (s : State) : Tallied s (execPairEnable data s) :=
  tallied_byHost (fun b => by simp) _ s

@[simp] theorem execRopeLinkUp_tallied (c : RopePeer) (dt : Nat) (s : State) : Tallied s (execRopeLinkUp c dt s) :=
  tallied_done (fun b => by simp) s

@[simp] theorem execDigestClose_tallied (s : State) : Tallied s (execDigestClose s) := tallied_done (fun b => by split <;> simp) s
@[simp] theorem execBulkPassDone_tallied (dt : Nat) (s : State) : Tallied s (execBulkPassDone dt s) := tallied_done (fun b => by simp) s
@[simp] theorem execQuietTest_tallied (s : State) : Tallied s (execQuietTest s) := tallied_done (fun b => by simp [foldl_ledger]) s
@[simp] theorem execResyncTimeout_tallied (s : State) : Tallied s (execResyncTimeout s) := tallied_done (fun b => by simp) s

@[simp] theorem execRopeBlockRx_tallied (m : RopeBlock) (dt : Nat) (s : State) : Tallied s (execRopeBlockRx m dt s) :=
  tallied_done (fun b => by simp) s

@[simp] theorem execIdleBlockSend_tallied (s : State) : Tallied s (execIdleBlockSend s) := tallied_done (fun b => by simp) s
@[simp] theorem execPartnerSilence_tallied (s : State) : Tallied s (execPartnerSilence s) := tallied_done (fun b => by simp) s
@[simp] theorem execRopeLoss_tallied (dt : Nat) (s : State) : Tallied s (execRopeLoss dt s) := tallied_done (fun b => by simp) s
@[simp] theorem execAliveSilenceSolo_tallied (s : State) : Tallied s (execAliveSilenceSolo s) := tallied_done (fun b => by simp) s

@[simp] theorem execSupervisorFence_tallied (silent : Bool) (dt : Nat) (s : State) : Tallied s (execSupervisorFence silent dt s) :=
  tallied_done (fun b => by simp) s

@[simp] theorem execPairSolo_tallied (s : State) : Tallied s (execPairSolo s) := tallied_byHost (fun b => by simp) _ s
@[simp] theorem execPairResync_tallied (s : State) : Tallied s (execPairResync s) := tallied_byHost (fun b => by simp) _ s
@[simp] theorem execAutoResync_tallied (s : State) : Tallied s (execAutoResync s) := tallied_done (fun b => by simp) s
@[simp] theorem execPairWithdraw_tallied (s : State) : Tallied s (execPairWithdraw s) := tallied_byHost (fun b => by simp) _ s
@[simp] theorem execPairHandover_tallied (s : State) : Tallied s (execPairHandover s) := tallied_byHost (fun b => by simp) _ s
@[simp] theorem execPairGenrst_tallied (s : State) : Tallied s (execPairGenrst s) := tallied_byHost (fun b => by simp) _ s
@[simp] theorem execRevertRequest_tallied (s : State) : Tallied s (execRevertRequest s) := tallied_done (fun b => by simp) s

/-! #### The commands of Machine/Power -/

@[simp] theorem execReqRun_tallied (data : Half) (s : State) :
    TalliedPower s (execReqRun data s) := talliedPower_byHost (Block.pwrCtl_calm _) _ s

@[simp] theorem execReqDoze_tallied (data : Half) (s : State) :
    TalliedPower s (execReqDoze data s) := talliedPower_byHost (Block.pwrCtl_calm _) _ s

@[simp] theorem execReqLineHold_tallied (data : Half) (s : State) :
    TalliedPower s (execReqLineHold data s) := talliedPower_byHost (Block.pwrCtl_calm _) _ s

@[simp] theorem execReqStandby_tallied (data : Half) (s : State) :
    TalliedPower s (execReqStandby data s) := talliedPower_byHost (Block.pwrCtl_calm _) _ s

@[simp] theorem execReqMaint_tallied (data : Half) (s : State) :
    TalliedPower s (execReqMaint data s) := talliedPower_byHost (Block.pwrCtl_calm _) _ s

@[simp] theorem execQuadIdleOff_tallied (q : Fin 9) (s : State) : Tallied s (execQuadIdleOff q s) := tallied_done (fun b => by simp) s

@[simp] theorem execWake_tallied (ws : List WakeSrc) (dt : Nat) (s : State) : TalliedPower s (execWake ws dt s) := by
  refine talliedPower_of_ledger (fun b => ?_) s
  dsimp only
  (repeat' split) <;> simp

@[simp] theorem execWakePattern_tallied (p : Fin 32) (dt : Nat) (s : State) : TalliedPower s (execWakePattern p dt s) :=
  talliedPower_of_ledger (fun b => by simp) s

@[simp] theorem execPwrFail_tallied (dt : Nat) (s : State) : Tallied s (execPwrFail dt s) := tallied_done (fun b => by simp) s

@[simp] theorem execMainsRecover_tallied (dt : Nat) (s : State) : Tallied s (execMainsRecover dt s) := by
  refine tallied_done (fun b => ?_) s
  dsimp only
  (repeat' split) <;> simp

@[simp] theorem execShed_tallied (s : State) : TalliedPower s (execShed s) := by
  refine talliedPower_of_calm (fun b => ?_) s
  split
  · exact .refl b
  · next t _ => exact .ite (.refl b) (.trans (.of_ledger (b.reachPhys_ledger _)) (Block.shedNow_calm ..))

@[simp] theorem execCellSwitchover_tallied (dt : Nat) (s : State) : TalliedPower s (execCellSwitchover dt s) := by
  refine talliedPower_of_calm (fun b0 => ?_) s
  extract_lets b b1 b2
  have h0 : Calm b0 b := .of_ledger (by simp [b])
  have h1 : Calm b0 b1 := .ite h0 (h0.trans (b.shedNow_calm false))
  exact .ite h0 (h1.then (by simp [b2]))

@[simp] theorem execTherm_tallied (die base : BitVec 8) (dt : Nat) (s : State) : Tallied s (execTherm die base dt s) :=
  tallied_done (fun b => by simp) s

@[simp] theorem execRetnClr_tallied (s : State) : Tallied s (execRetnClr s) := tallied_byHost (fun b => by simp) _ s

/-! #### The commands of Machine/Hardware -/

@[simp] theorem execSmbusRead_tallied (dev : BitVec 7) (off : BitVec 8) (len : BitVec 9) (s : State) :
    Tallied s (execSmbusRead dev off len s) :=
  tallied_done (fun b => by simp) s

@[simp] theorem execModuleInsert_tallied (q : Fin 9) (cls : Fin 8) (dt : Nat) (s : State) : Tallied s (execModuleInsert q cls dt s) :=
  tallied_done (fun b => by simp) s

@[simp] theorem execModuleRemove_tallied (q : Fin 9) (dt : Nat) (s : State) : Tallied s (execModuleRemove q dt s) :=
  tallied_done (fun b => by simp) s

@[simp] theorem execCageOvercurrent_tallied (q : Fin 9) (dt : Nat) (s : State) : Tallied s (execCageOvercurrent q dt s) :=
  tallied_done (fun b => by simp) s

@[simp] theorem execCageOcClear_tallied (mask : BitVec 9) (s : State) : Tallied s (execCageOcClear mask s) :=
  tallied_byHost (fun b => by simp) _ s

@[simp] theorem execEncSupplyRetry_tallied (short : Bool) (s : State) : Tallied s (execEncSupplyRetry short s) :=
  tallied_done (fun b => by simp) s

@[simp] theorem execCellMeasure_tallied (mv : BitVec 12) (s : State) : Tallied s (execCellMeasure mv s) :=
  tallied_done (fun b => by simp) s

@[simp] theorem execThermalShutdown_tallied (die base : BitVec 8) (dt : Nat) (s : State) :
    TalliedPower s (execThermalShutdown die base dt s) := by
  refine talliedPower_of_calm (fun b0 => ?_) s
  extract_lets b
  have h0 : Calm b0 b := .of_ledger (by simp [b])
  exact .ite (h0.trans (.trans (.of_ledger (by simp)) (Block.shedNow_calm _ b.pw.failAt.isNone))) h0

/-! #### The commands of Machine/Host -/

@[simp] theorem execUnsupportedSize_tallied (off : BitVec 24) (s : State) : Tallied s (execUnsupportedSize off s) :=
  tallied_byHost (fun b => by simp) _ s

@[simp] theorem execPoisonedRequest_tallied (addr : Half) (s : State) : Tallied s (execPoisonedRequest addr s) :=
  tallied_done (fun b => by simp) s

@[simp] theorem execHostErrClr_tallied (s : State) : Tallied s (execHostErrClr s) := tallied_byHost (fun b => by simp) _ s
@[simp] theorem execHostStallClr_tallied (s : State) : Tallied s (execHostStallClr s) := tallied_byHost (fun b => by simp) _ s

@[simp] theorem execEventOccurrence_tallied (n : Fin 64) (s : State) : Tallied s (execEventOccurrence n s) :=
  tallied_done (fun b => by simp) s

@[simp] theorem execEvtPendClear_tallied (mask : Half) (s : State) : Tallied s (execEvtPendClear mask s) :=
  tallied_byHost (fun b => by simp) _ s

@[simp] theorem execEvtEnWrite_tallied (data : Half) (s : State) : Tallied s (execEvtEnWrite data s) :=
  tallied_byHost (fun b => by simp) _ s

@[simp] theorem execEvtSet_tallied (mask : Half) (s : State) : Tallied s (execEvtSet mask s) := tallied_byHost (fun b => by simp) _ s
@[simp] theorem execMsixUnmask_tallied (v : Fin 64) (s : State) : Tallied s (execMsixUnmask v s) := tallied_done (fun b => by simp) s
@[simp] theorem execHostReset_tallied (s : State) : Tallied s (execHostReset s) := ⟨Block.hostReset, rfl, rfl⟩
@[simp] theorem execPerstRelease_tallied (s : State) : Tallied s (execPerstRelease s) := tallied_done (fun b => by simp) s
@[simp] theorem execConfigReady_tallied (s : State) : Tallied s (execConfigReady s) := tallied_done (fun b => by simp) s

/-! #### The commands of Machine/Security -/

@[simp] theorem execLogClr_tallied (s : State) : Tallied s (execLogClr s) := tallied_byHost (fun b => by simp) _ s
@[simp] theorem execKeyWrite_tallied (s : State) : Tallied s (execKeyWrite s) := tallied_byHost (fun b => by simp) _ s
@[simp] theorem execKeyClear_tallied (s : State) : Tallied s (execKeyClear s) := tallied_byHost (fun b => by simp) _ s

@[simp] theorem execMirrorRebuild_tallied (dt : Nat) (s : State) : Tallied s (execMirrorRebuild dt s) :=
  tallied_done (fun b => by simp) s

@[simp] theorem execChallengeGo_tallied (data : Half) (s : State) : Tallied s (execChallengeGo data s) :=
  tallied_byHost (fun b => by simp) _ s

@[simp] theorem execTamper_tallied (level : BitVec 7) (dt : Nat) (s : State) : Tallied s (execTamper level dt s) :=
  tallied_done (fun b => by simp) s

@[simp] theorem execSecUnlock_tallied (s : State) : Tallied s (execSecUnlock s) := tallied_byHost (fun b => by simp) _ s
@[simp] theorem execSoftErase_tallied (s : State) : Tallied s (execSoftErase s) := tallied_byHost (fun b => by simp) _ s

@[simp] theorem execFuseProg_tallied (data : Half) (s : State) : Tallied s (execFuseProg data s) :=
  tallied_byHost (fun b => by simp) _ s

@[simp] theorem execFuseRevoke_tallied (data : Half) (s : State) : Tallied s (execFuseRevoke data s) :=
  tallied_byHost (fun b => by simp) _ s

@[simp] theorem execFuseDone_tallied (dt : Nat) (s : State) : Tallied s (execFuseDone dt s) := by
  refine tallied_done (fun b => ?_) s
  dsimp only
  (repeat' split) <;> simp [foldl_ledger]

/-! #### The commands of Machine/Startup -/

@[simp] theorem execMainsOn_tallied (dfl fac : Fin 5) (sealed : BitVec 2) (refclk : Bool) (dt : Nat) (s : State) :
    TalliedPower s (execMainsOn dfl fac sealed refclk dt s) :=
  talliedPower_of_ledger (fun b => by simp) s

@[simp] theorem execThermalRestart_tallied (die base : BitVec 8) (dfl fac : Fin 5) (refclk : Bool) (dt : Nat) (s : State) :
    TalliedPower s (execThermalRestart die base dfl fac refclk dt s) :=
  talliedPower_of_ledger (fun b => by simp) s

@[simp] theorem execLineReset_tallied (data : Half) (s : State) :
    TalliedPower s (execLineReset data s) := talliedPower_byHost (Block.rstWrite_calm _) _ s

@[simp] theorem execModuleReset_tallied (data : Half) (s : State) :
    TalliedPower s (execModuleReset data s) := talliedPower_byHost (Block.rstWrite_calm _) _ s

@[simp] theorem execResetDone_tallied (dfl fac : Fin 5) (refclk : Bool) (dt : Nat) (s : State) :
    TalliedPower s (execResetDone dfl fac refclk dt s) := by
  refine talliedPower_of_ledger (fun b => ?_) s
  dsimp only
  (repeat' split) <;> simp

/-! #### The commands of Machine/Load -/

@[simp] theorem execLoadComplete_tallied (n : Fin 16) (ups : List (Nat × Bool)) (dt : Nat) (s : State) :
    Tallied s (execLoadComplete n ups dt s) :=
  tallied_done (fun b => by simp) s

@[simp] theorem execBootUpdate_tallied (data : Half) (s : State) : Tallied s (execBootUpdate data s) :=
  tallied_byHost (fun b => by simp) _ s

@[simp] theorem execBootUpdateDone_tallied (dt : Nat) (s : State) : Tallied s (execBootUpdateDone dt s) :=
  tallied_done (fun b => by simp) s

/-! #### The commands of Machine/Profile -/

@[simp] theorem execProfileGo_tallied (data : Half) (s : State) : Tallied s (execProfileGo data s) :=
  tallied_journaled (fun b => by simp) _ s

@[simp] theorem execProfileSample_tallied (s : State) : Tallied s (execProfileSample s) := tallied_done (fun b => by split <;> simp) s

@[simp] theorem execProfileSampleIdle_tallied (s : State) : Tallied s (execProfileSampleIdle s) := by
  refine tallied_done (fun b => ?_) s
  (repeat' split) <;> simp

@[simp] theorem execLeanDrainDone_tallied (s : State) : Tallied s (execLeanDrainDone s) := tallied_done (fun b => by simp) s
@[simp] theorem execRefusedDrain_tallied (s : State) : Tallied s (execRefusedDrain s) := tallied_done (fun b => by split <;> simp) s
@[simp] theorem execLeanExitReady_tallied (s : State) : Tallied s (execLeanExitReady s) := tallied_done (fun b => by split <;> simp) s

/-! #### The commands of Machine/Boundary -/

@[simp] theorem execCycleBoundary_tallied (s : State) : TalliedPower s (execCycleBoundary s) :=
  talliedPower_of_ledger (fun b => by simp) s

/-! #### The commands of Machine/Slot -/

@[simp] theorem execSlotOpenLatest_tallied (scrub : List (Fin 16 × BitVec 16 × Bool)) (s : State) :
    Tallied s (execSlotOpenLatest scrub s) :=
  tallied_done (fun b => by simp) s

@[simp] theorem execIdleSlotOpen_tallied (scrub : List (Fin 16 × BitVec 16 × Bool)) (s : State) : Tallied s (execIdleSlotOpen scrub s) :=
  tallied_done (fun b => by simp) s

@[simp] theorem execCalslot_tallied (e : Fin 16) (f : FormA) (u : Upset) (scrub : List (Fin 16 × BitVec 16 × Bool)) (s : State) :
    Tallied s (execCalslot e f u scrub s) :=
  tallied_runA (fun b => by simp) ..

/-! #### The commands of Machine/Access -/

@[simp] theorem execRegisterWrite_tallied (r : BarReq) (s : State) :
    TalliedPower s (execRegisterWrite r s) := talliedPower_of_utags (fun b => b.request_utags r) s

@[simp] theorem execUnmappedAccess_tallied (r : BarReq) (s : State) : TalliedPower s (execUnmappedAccess r s) := by
  refine talliedPower_of_utags (fun b => ?_) s
  split
  · exact b.request_utags r
  · rfl

@[simp] theorem execDomainWakeAccess_tallied (r : BarReq) (s : State) : TalliedPower s (execDomainWakeAccess r s) := by
  refine talliedPower_of_utags (fun b => ?_) s
  split
  · exact b.request_utags r
  · rfl

@[simp] theorem execProfileOffAccess_tallied (r : BarReq) (s : State) : TalliedPower s (execProfileOffAccess r s) := by
  refine talliedPower_of_utags (fun b => ?_) s
  split
  · exact b.request_utags r
  · rfl

@[simp] theorem execLostBankAccess_tallied (r : BarReq) (s : State) : TalliedPower s (execLostBankAccess r s) := by
  refine talliedPower_of_utags (fun b => ?_) s
  split
  · exact b.request_utags r
  · rfl

@[simp] theorem execBar2Read_tallied (off : BitVec 28) (len : BitVec 13) (ups : List (Nat × Bool)) (s : State) :
    Tallied s (execBar2Read off len ups s) := tallied_arrive _ s

@[simp] theorem execBar2Write_tallied (off : BitVec 28) (bytes : List (Option Byte)) (ups : List (Nat × Bool)) (s : State) :
    Tallied s (execBar2Write off bytes ups s) := tallied_arrive _ s

@[simp] theorem execDdataCapture_tallied (n : Fin 16) (data : Half) (s : State) :
    Tallied s (execDdataCapture n data s) := tallied_arrive _ s

@[simp] theorem execDdataWrite_tallied (n : Fin 16) (hi : Bool) (data : Half) (s : State) :
    Tallied s (execDdataWrite n hi data s) := tallied_arrive _ s

@[simp] theorem execDomainReady_tallied (d : Fin 12) (s : State) :
    TalliedIdle s (execDomainReady d s) := ⟨_, rfl, Block.domainReady_utags d⟩

@[simp] theorem execAccessStallTimeout_tallied (s : State) : TalliedIdle s (execAccessStallTimeout s) := ⟨_, rfl, Block.stallTimeout_utags⟩

@[simp] theorem execBankCheck_tallied (k : Fin 1538) (ok : Bool) (dt : Nat) (s : State) :
    TalliedIdle s (execBankCheck k ok dt s) := ⟨_, rfl, (Calm.of_ledger (by simp)).hostGoesOn⟩

@[simp] theorem execJournalApply_tallied (s : State) :
    TalliedIdle s (execJournalApply s) := ⟨_, rfl, (Block.journalApply_calm s.blk).hostGoesOn⟩

/-! #### The commands of Machine/CfgAccess -/

@[simp] theorem execCfgr_tallied (e : Fin 16) (f : FormB) (u : Upset) (s : State) : Tallied s (execCfgr e f u s) :=
  tallied_runB (fun b => by simp) ..

@[simp] theorem execCfgw_tallied (e : Fin 16) (f : FormB) (u : Upset) (s : State) : TalliedPower s (execCfgw e f u s) := by
  have hP : OfLedger (fun c => c.utags = s.blk.utags) := fun _ _ h hb => (utags_of_ledger h).trans hb
  exact ⟨_, rfl, hP.runIf (fun c hc => (cfgwAct_calm e f c).utags.trans hc) rfl ..⟩

end Sys2Proof.Machine
end

section
/-! How every command ends. -/

namespace Sys2Proof.Machine

theorem done_eq_doneRestart (s : State) (f : Block → Block) : done s f = doneRestart s (fun _ => false) f := by
  simp [done, doneRestart, tagsAfter]

/-- How a command ends: the tags of what restarts read 0, and its effect left them to the end of the command. -/
def Counts (c : Instr) (s : State) : Prop :=
  ∃ f, exec c s = doneRestart s (fun a => powers c && restarted c s.blk (f s.blk) a) f ∧
    (drains c = false ∨ s.blk.idle → (f s.blk).utags = s.blk.utags)

theorem counts_of_tallied {c : Instr} {s : State} (hp : powers c = false) (h : Tallied s (exec c s)) : Counts c s := by
  obtain ⟨f, he, hf⟩ := h
  exact ⟨f, by simpa [hp] using he.trans (done_eq_doneRestart s f), fun _ => hf⟩

theorem counts_of_talliedPower {c : Instr} {s : State} (hp : powers c = true) (hr : ∀ b b' a, restarted c b b' a = powered b b' a)
    (h : TalliedPower s (exec c s)) : Counts c s := by
  obtain ⟨f, he, hf⟩ := h
  refine ⟨f, he.trans ?_, fun _ => hf⟩
  simp only [hp, hr, Bool.true_and]
  rfl

theorem counts_of_talliedIdle {c : Instr} {s : State} (hp : powers c = true) (hd : drains c = true)
    (hr : ∀ b b' a, restarted c b b' a = powered b b' a) (h : TalliedIdle s (exec c s)) : Counts c s := by
  obtain ⟨f, he, hf⟩ := h
  refine ⟨f, he.trans ?_, fun hi => hf (hi.resolve_left (by simp [hd]))⟩
  simp only [hp, hr, Bool.true_and]
  rfl

theorem counts_brownout (dt : Nat) (s : State) : Counts (.brownout dt) s := by
  unfold Counts
  rw [exec_brownout, execBrownout]
  refine ⟨_, rfl, fun _ => utags_of_ledger ?_⟩
  simp [foldl_ledger]

theorem exec_counts (c : Instr) (s : State) : Counts c s := by
  cases c
  case brownout dt => exact counts_brownout dt s
  case domainReady | accessStallTimeout | bankCheck | journalApply => exact counts_of_talliedIdle rfl rfl (fun _ _ _ => rfl) (by simp)
  case registerWrite | unmappedAccess | cycleBoundary | domainWakeAccess | profileOffAccess | lostBankAccess | cfgw | wakePattern | reqRun |
      reqDoze | reqLineHold | reqStandby | reqMaint | wake | shed | cellSwitchover | thermalShutdown | thermalRestart | mainsOn |
      lineReset | moduleReset | resetDone =>
    exact counts_of_talliedPower rfl (fun _ _ _ => rfl) (by simp)
  all_goals exact counts_of_tallied rfl (by simp)

end Sys2Proof.Machine
end

section
/-! The update tags (R61). -/

namespace Sys2Proof.Machine

/-! ### The algebra of the tags -/

theorem mem_tagged (b c : Block) (a : Nat) : a ∈ tagged b.regs c.regs ↔ b.tagCounts c a = true := by
  simp only [tagged, List.mem_dedup, List.mem_append, List.mem_map, List.mem_filter, mem_touchedRegs, Block.tagCounts, Block.reg,
    Bool.or_eq_true, Bool.and_eq_true, bne_iff_ne, ne_comm (a := sget regReset c.regs _), decide_eq_true_eq]
  refine or_congr_right ⟨?_, fun ⟨hl, hn⟩ => ⟨a + 16, ⟨hn, by omega, by simpa using hl⟩, by omega⟩⟩
  rintro ⟨x, ⟨hn, hx, hl⟩, rfl⟩
  rw [Nat.sub_add_cancel hx]
  exact ⟨hl, hn⟩

theorem count_tagged (b c : Block) (a : Nat) : (tagged b.regs c.regs).count a = b2n (b.tagCounts c a) := by
  rw [List.Nodup.count (nodup_tagged _ _)]
  simp only [mem_tagged, b2n]

/-- Counting adds to each tag as often as its register is listed. -/
theorem sget_bumpTags_count (l : List Nat) (t : SMap (BitVec 8)) (a : Nat) :
    sget (fun _ => (0 : BitVec 8)) (bumpTags l t) a = sget (fun _ => (0 : BitVec 8)) t a + BitVec.ofNat 8 (l.count a) := by
  induction l generalizing t with
  | nil => simp [bumpTags]
  | cons x r ih =>
    rw [bumpTags, ih, sget_sput, List.count_cons]
    by_cases h : x = a
    · subst h
      simp [BitVec.ofNat_add, BitVec.add_assoc, BitVec.add_comm]
    · simp [h, Ne.symm h]

/-- A register that changes over two changes changes in one of them. -/
theorem tagCounts_or (b c d : Block) (a : Nat) (h : b.tagCounts d a = true) : b.tagCounts c a = true ∨ c.tagCounts d a = true := by
  simp only [Block.tagCounts, Bool.or_eq_true, Bool.and_eq_true, bne_iff_ne] at h ⊢
  by_contra hn
  simp only [not_or, not_and, not_not] at hn
  obtain ⟨⟨h1, h2⟩, h3, h4⟩ := hn
  rcases h with h | ⟨hl, h⟩
  · exact h (h3.trans h1)
  · exact h ((h4 hl).trans (h2 hl))

theorem inTurn_tags (f g : Block → Block) (b : Block) (a : Nat) :
    sget (fun _ => (0 : BitVec 8)) (Block.inTurn f g b).utags a + BitVec.ofNat 8 (b2n (b.tagCounts (g (f b)) a)) =
      sget (fun _ => (0 : BitVec 8)) (g (f b)).utags a + BitVec.ofNat 8 (b2n (b.tagCounts (f b) a)) +
        BitVec.ofNat 8 (b2n ((f b).tagCounts (g (f b)) a)) := by
  have hle : b2n (b.tagCounts (g (f b)) a) ≤ b2n (b.tagCounts (f b) a) + b2n ((f b).tagCounts (g (f b)) a) := by
    have h := tagCounts_or b (f b) (g (f b)) a
    revert h
    cases b.tagCounts (g (f b)) a <;> cases b.tagCounts (f b) a <;> cases (f b).tagCounts (g (f b)) a <;> decide
  simp only [Block.inTurn, sget_bumpTags_count, List.count_diff, List.count_append, count_tagged]
  rw [BitVec.add_assoc, ← BitVec.ofNat_add, Nat.sub_add_cancel hle, BitVec.ofNat_add, BitVec.add_assoc]

theorem sget_tagsAfter {b c : Block} (h : c.utags = b.utags) (a : Nat) : sget (fun _ => (0 : BitVec 8)) (tagsAfter b c) a =
    if b.tagCounts c a = true then sget (fun _ => (0 : BitVec 8)) b.utags a + 1 else sget (fun _ => (0 : BitVec 8)) b.utags a := by
  rw [tagsAfter, sget_bumpTags _ (nodup_tagged _ _), h]
  simp only [mem_tagged]

theorem restarted_withTags (c : Instr) (b b' : Block) (u : SMap (BitVec 8)) (a : Nat) :
    restarted c b (b'.withTags u) a = restarted c b b' a := by
  unfold restarted
  split <;> rfl

/-- The tags of the registers dropped read 0. -/
theorem sget_dropped (p : Nat → Bool) (m : SMap (BitVec 8)) (a : Nat) :
    sget (fun _ => (0 : BitVec 8)) (m.filter (fun e => !p e.1)) a = if p a = true then 0 else sget (fun _ => (0 : BitVec 8)) m a := by
  rw [sget_filter _ m (fun k => !p k)]
  cases p a <;> rfl

/-- Settles O58: every command is `doneRestart` of an effect that leaves the tags to its end (`exec_counts`). -/
theorem updateTags : Obligations.UpdateTags := by
  unfold Obligations.UpdateTags
  refine ⟨fun c s => ?_, inTurn_tags⟩
  obtain ⟨f, he, hf⟩ := exec_counts c s
  have hr (u : SMap (BitVec 8)) (a : Nat) := restarted_withTags c s.blk (f s.blk) u a
  have dropped := sget_dropped (fun a => powers c && restarted c s.blk (f s.blk) a) (tagsAfter s.blk (f s.blk))
  refine ⟨_, he.trans (doneRestart_eq _ _ _), rfl, fun hd a => ?_, fun a ha => ?_⟩
  · have counted := dropped a
    rw [sget_tagsAfter (hf hd)] at counted
    rw [hr]
    exact counted
  · rw [hr] at ha
    exact (dropped a).trans (if_pos ha)

end Sys2Proof.Machine
end
section
/-! Numbers as sets of bits. -/

namespace Sys2Proof.Machine

theorem bitAt_eq_testBit (v i : Nat) : bitAt v i = v.testBit i := by
  rw [Nat.testBit_eq_decide_div_mod_eq, bitAt, Bool.beq_eq_decide_eq]

/-- A number splits into the bits inside a mask and the bits outside it. -/
theorem land_add_ldiff (v m : Nat) : (v &&& m) + Nat.ldiff v m = v := by
  induction v using Nat.binaryRec generalizing m with
  | zero => simp [Nat.ldiff]
  | bit b n ih =>
    rw [← Nat.bit_bodd_div2 m, Nat.land_bit, Nat.ldiff_bit]
    have h := ih m.div2
    cases b <;> cases m.bodd <;> simp only [Nat.bit_val, Bool.and_true, Bool.and_false, Bool.not_true, Bool.not_false, Bool.toNat_true,
      Bool.toNat_false] <;> omega

theorem clrMaskN_eq_ldiff (v m : Nat) : clrMaskN v m = Nat.ldiff v m := by
  have h := land_add_ldiff v m
  show v - (v &&& m) = Nat.ldiff v m
  omega

theorem clrMaskN_testBit (v m i : Nat) : (clrMaskN v m).testBit i = (v.testBit i && !m.testBit i) := by
  rw [clrMaskN_eq_ldiff, Nat.testBit_ldiff]

theorem setBitN_eq_or (v i : Nat) : setBitN v i = v ||| 2 ^ i := by
  rw [setBitN, bitAt_eq_testBit]
  split
  case isTrue h =>
    refine Nat.eq_of_testBit_eq fun j => ?_
    rw [Nat.testBit_or, Nat.testBit_two_pow]
    by_cases hj : i = j
    · simp [← hj, h]
    · simp [hj]
  case isFalse h =>
    have hi : (v ||| 2 ^ i) &&& 2 ^ i = 2 ^ i := by
      refine Nat.eq_of_testBit_eq fun j => ?_
      by_cases hj : i = j <;> simp [hj]
    have ho : Nat.ldiff (v ||| 2 ^ i) (2 ^ i) = v := by
      refine Nat.eq_of_testBit_eq fun j => ?_
      rw [Nat.testBit_ldiff, Nat.testBit_or, Nat.testBit_two_pow]
      by_cases hj : i = j
      · simp [← hj, h]
      · simp [hj]
    have hs := land_add_ldiff (v ||| 2 ^ i) (2 ^ i)
    rw [hi, ho] at hs
    omega

theorem setBitN_testBit (v n i : Nat) : (setBitN v n).testBit i = (v.testBit i || decide (n = i)) := by
  rw [setBitN_eq_or, Nat.testBit_or, Nat.testBit_two_pow]

theorem setBitN_lt {v n w : Nat} (hv : v < 2 ^ w) (hn : n < w) : setBitN v n < 2 ^ w := by
  rw [setBitN_eq_or]
  exact Nat.or_lt_two_pow hv (Nat.pow_lt_pow_right (by decide) hn)

end Sys2Proof.Machine
end

section
/-! Events (R95 to R97): what an occurrence does to EVT_PEND, and which messages leave. -/

namespace Sys2Proof.Machine

/-- The bits of EVT_PEND after an occurrence: the bit is set, where it was not set already. -/
theorem occur_pend (b : Block) {n : Nat} (hn : n < 64) : (b.occur n).get EVT_PEND_PEND = setBitN (b.get EVT_PEND_PEND) n := by
  have hset : (b.setBit EVT_PEND_PEND n).get EVT_PEND_PEND = setBitN (b.get EVT_PEND_PEND) n :=
    (Block.get_put_same b EVT_PEND_PEND _ (by decide)).trans (Nat.mod_eq_of_lt (setBitN_lt (b.get_lt EVT_PEND_PEND) hn))
  unfold Block.occur
  split
  case isTrue h =>
    rw [setBitN, if_pos h]
    exact Block.get_put_apart b EVT_OVR_OVR EVT_PEND_PEND _ (by decide)
  case isFalse h =>
    dsimp only
    split
    · exact ((message_keeps _ n).1 _ (by simp)).trans hset
    · exact hset

theorem message_masked {b : Block} {n : Nat} (h : b.host.mask.getLsbD n = true) : b.message n =
    { b with host := { b.host with pba := b.host.pba ||| BitVec.ofNat 64 (2 ^ n) } } := if_pos h

theorem message_unmasked {b : Block} {n : Nat} (h : b.host.mask.getLsbD n = false) : b.message n = b.emit (.msix n) :=
  if_neg (by simp [h])

@[simp] theorem message_mask (b : Block) (n : Nat) : (b.message n).host.mask = b.host.mask := by
  unfold Block.message
  split <;> rfl

/-- An occurrence of an event that is not pending (R96). -/
theorem occur_fresh {b : Block} {n : Nat} (h : bitAt (b.get EVT_PEND_PEND) n = false) :
    b.occur n = if bitAt (b.get EVT_EN_EN) n then (b.setBit EVT_PEND_PEND n).message n else b.setBit EVT_PEND_PEND n :=
  if_neg (by simp [h])

/-- An occurrence of an event that is pending (R96). -/
theorem occur_again {b : Block} {n : Nat} (h : bitAt (b.get EVT_PEND_PEND) n = true) : b.occur n = b.setBit EVT_OVR_OVR n := if_pos h

theorem occurAll_pend (l : List Nat) (hl : ∀ n ∈ l, n < 64) (b : Block) (i : Nat) :
    bitAt ((b.occurAll l).get EVT_PEND_PEND) i = (bitAt (b.get EVT_PEND_PEND) i || decide (i ∈ l)) := by
  induction l generalizing b with
  | nil => simp [Block.occurAll]
  | cons n r ih =>
    rw [Block.occurAll, ih (fun m hm => hl m (List.mem_cons_of_mem n hm)), occur_pend b (hl n List.mem_cons_self)]
    simp only [bitAt_eq_testBit, setBitN_testBit, List.mem_cons, Bool.decide_or, Bool.or_assoc, eq_comm]

theorem occurAll_keeps (l : List Nat) (b : Block) : b.keeps [EVT_PEND_PEND, EVT_OVR_OVR] (b.occurAll l) := by
  induction l generalizing b with
  | nil => exact keeps_refl _ b
  | cons n r ih => exact keeps_trans (occur_keeps b n) (ih _)

theorem occurAll_only (l : List Nat) (b : Block) : b.only [.host, .out] (b.occurAll l) := by
  induction l generalizing b with
  | nil => exact only_refl _ b
  | cons n r ih => exact only_trans (occur_only b n) (ih _)

theorem messages_keeps (l : List Nat) (b : Block) : b.keeps [] (b.messages l) := by
  induction l generalizing b with
  | nil => exact keeps_refl _ b
  | cons n r ih => exact keeps_trans (message_keeps b n) (ih _)

theorem messages_only (l : List Nat) (b : Block) : b.only [.host, .out] (b.messages l) := by
  induction l generalizing b with
  | nil => exact only_refl _ b
  | cons n r ih => exact only_trans (message_only b n) (ih _)

theorem mem_messages_out {l : List Nat} {b : Block} {o : Out} (h : o ∈ b.out) : o ∈ (b.messages l).out := by
  induction l generalizing b with
  | nil => exact h
  | cons n r ih => exact ih (message_out b n o h)

/-- The message of each unmasked vector named leaves. -/
theorem msix_mem_messages {l : List Nat} {b : Block} {i : Nat} (hi : i ∈ l) (hm : b.host.mask.getLsbD i = false) :
    Out.msix i ∈ (b.messages l).out := by
  induction l generalizing b with
  | nil => cases hi
  | cons n r ih =>
    rcases List.mem_cons.1 hi with rfl | hr
    · have hout : Out.msix i ∈ (b.message i).out := by
        rw [message_unmasked hm]
        exact List.mem_cons_self
      exact mem_messages_out (l := r) hout
    · exact ih hr (by rw [message_mask, hm])

theorem mem_maskBits {m i : Nat} : i ∈ maskBits m ↔ i < 64 ∧ bitAt m i = true := by
  simp [maskBits]

theorem mem_maskBits_toNat {m : Half} {i : Nat} (hi : i < 64) : i ∈ maskBits m.toNat ↔ m.getLsbD i = true := by
  rw [mem_maskBits, bitAt_eq_testBit, BitVec.testBit_toNat]
  exact and_iff_right hi

/-! ### The commands -/

theorem get_setBit_fresh {b : Block} {n : Nat} (hn : n < 64) (h : bitAt (b.get EVT_PEND_PEND) n = false) :
    (b.setBit EVT_PEND_PEND n).get EVT_PEND_PEND = b.get EVT_PEND_PEND + 2 ^ n := by
  have hs : setBitN (b.get EVT_PEND_PEND) n = b.get EVT_PEND_PEND + 2 ^ n := if_neg (by simp [h])
  have hlt : b.get EVT_PEND_PEND + 2 ^ n < 2 ^ 64 := hs ▸ setBitN_lt (b.get_lt EVT_PEND_PEND) hn
  rw [Block.setBit, hs, Block.get_put_same _ _ _ (by decide)]
  exact Nat.mod_eq_of_lt hlt

theorem raise_on {b : Block} (h : b.domOn 3 = true) (n : Nat) : b.raise n = b.occur n := if_pos h

theorem mem_held_raise {b : Block} (h : b.domOn 3 = false) (n : Nat) : n ∈ (b.raise n).host.held := by
  rw [Block.raise, if_neg (by simp [h])]
  split
  case isTrue hc => simpa using hc
  case isFalse => simp

theorem raise_off_reg {b : Block} (h : b.domOn 3 = false) (n a : Nat) : (b.raise n).reg a = b.reg a := by
  rw [Block.raise, if_neg (by simp [h])]
  split <;> rfl

theorem raise_off_only {b : Block} (h : b.domOn 3 = false) (n : Nat) : b.only [.host] (b.raise n) := by
  rw [Block.raise, if_neg (by simp [h])]
  split
  · exact only_refl _ b
  · simp [Block.only]

theorem occur_fresh_keeps {b : Block} {n : Nat} (h : bitAt (b.get EVT_PEND_PEND) n = false) : b.keeps [EVT_PEND_PEND] (b.occur n) := by
  have hset : b.keeps [EVT_PEND_PEND] (b.setBit EVT_PEND_PEND n) := put_keeps ..
  rw [occur_fresh h]
  split
  · exact keeps_trans hset (keeps_mono (message_keeps _ n) (by simp))
  · exact hset

theorem getLsbD_pending (x : BitVec 64) (v : Fin 64) : (x ||| BitVec.ofNat 64 (2 ^ v.val)).getLsbD v = true := by
  rw [BitVec.getLsbD_or, BitVec.getLsbD_ofNat, Nat.testBit_two_pow_self]
  simp

theorem getLsbD_clear (x : BitVec 64) (v : Fin 64) : (x &&& ~~~BitVec.ofNat 64 (2 ^ v.val)).getLsbD v = false := by
  rw [BitVec.getLsbD_and, BitVec.getLsbD_not, BitVec.getLsbD_ofNat, Nat.testBit_two_pow_self]
  simp

/-- A first occurrence sets PEND, and sends the message of an enabled event where its vector is not masked (R96, R97). -/
theorem event_sets (s : State) (n : Fin 64) (hd : s.blk.domOn 3 = true) (hp : bitAt (s.blk.get EVT_PEND_PEND) n = false) :
    ∃ t, exec (.eventOccurrence n) s = .next t ∧
      t.blk.get EVT_PEND_PEND = s.blk.get EVT_PEND_PEND + 2 ^ n.val ∧ t.blk.get EVT_OVR_OVR = s.blk.get EVT_OVR_OVR ∧
      (bitAt (s.blk.get EVT_EN_EN) n = true → s.blk.host.mask.getLsbD n = false → t.blk.out = .msix n :: s.blk.out) ∧
      (bitAt (s.blk.get EVT_EN_EN) n = true → s.blk.host.mask.getLsbD n = true →
        t.blk.host.pba.getLsbD n = true ∧ t.blk.out = s.blk.out) ∧
      (bitAt (s.blk.get EVT_EN_EN) n = false → t.blk.out = s.blk.out) ∧
      Frame [EVT_PEND_PEND] [.host, .out] s t := by
  refine leadsTo_intro (done_leadsTo (f := fun b => b.raise n.val) (raise_on hd n)) fun u => ?_
  have hocc := occur_fresh hp
  have hsame : setBitN (s.blk.get EVT_PEND_PEND) n = s.blk.get EVT_PEND_PEND + 2 ^ n.val := if_neg (by simp [hp])
  refine ⟨(occur_pend s.blk n.isLt).trans hsame, (occur_fresh_keeps hp).1 EVT_OVR_OVR (by simp [apart]), fun he hm => ?_, fun he hm => ?_,
    fun he => ?_, frame_intro (occur_fresh_keeps hp) (occur_only s.blk n)⟩
  · rw [if_pos he, message_unmasked (by exact hm)] at hocc
    rw [Block.withTags_out, hocc]
    rfl
  · rw [if_pos he, message_masked (by exact hm)] at hocc
    rw [Block.withTags_out, Block.withTags_host, hocc]
    exact ⟨getLsbD_pending _ n, rfl⟩
  · rw [if_neg (by simp [he])] at hocc
    rw [Block.withTags_out, hocc]
    rfl

/-- An occurrence of an event that is pending sets OVR (R96). -/
theorem event_overruns (s : State) (n : Fin 64) (hd : s.blk.domOn 3 = true) (hp : bitAt (s.blk.get EVT_PEND_PEND) n = true) :
    ∃ t, exec (.eventOccurrence n) s = .next t ∧
      t.blk.get EVT_OVR_OVR = setBitN (s.blk.get EVT_OVR_OVR) n ∧ Frame [EVT_OVR_OVR] [] s t := by
  refine leadsTo_intro (done_leadsTo (f := fun b => b.raise n.val) ((raise_on hd n).trans (occur_again hp))) fun u => ?_
  refine ⟨?_, frame_intro (put_keeps ..) (put_only ..)⟩
  exact (Block.get_put_same s.blk EVT_OVR_OVR _ (by decide)).trans (Nat.mod_eq_of_lt (setBitN_lt (s.blk.get_lt EVT_OVR_OVR) n.isLt))

/-- While PD3 is off an event is held (R100). -/
theorem event_held (s : State) (n : Fin 64) (hd : s.blk.domOn 3 = false) :
    ∃ t, exec (.eventOccurrence n) s = .next t ∧ n.val ∈ t.blk.host.held ∧ Frame [] [.host] s t :=
  done_intro (f := fun b => b.raise n.val) rfl fun _ =>
    ⟨mem_held_raise hd n, frame_intro (keeps_of_reg (raise_off_reg hd n)) (raise_off_only hd n)⟩

theorem pendClear_clears (s : State) (mask : Half) (hf : s.blk.hostFree = true) : ∃ t, exec (.evtPendClear mask) s = .next t ∧
    (∀ i < 64, bitAt (t.blk.get EVT_PEND_PEND) i = (bitAt (s.blk.get EVT_PEND_PEND) i && !mask.getLsbD i)) ∧
    t.blk.host.pba = s.blk.host.pba &&& ~~~(mask &&& s.blk.host.mask) ∧
    Frame [EVT_PEND_PEND] [.host] s t := by
  refine done_intro (done_byHost hf _ _) fun u =>
    ⟨fun i hi => ?_, rfl, frame_intro (keeps_part (put_keeps ..) rfl) (by simp [Block.pendClear, Block.only])⟩
  have hpend : (s.blk.pendClear mask).get EVT_PEND_PEND = clrMaskN (s.blk.get EVT_PEND_PEND) mask.toNat :=
    (Block.get_put_same s.blk EVT_PEND_PEND _ (by decide)).trans
      (Nat.mod_eq_of_lt (Nat.lt_of_le_of_lt (Nat.sub_le ..) (s.blk.get_lt EVT_PEND_PEND)))
  rw [Block.withTags_get, hpend, bitAt_eq_testBit, bitAt_eq_testBit, clrMaskN_testBit, BitVec.testBit_toNat]

theorem enWrite_enables (s : State) (data : Half) (hf : s.blk.hostFree = true) : ∃ t, exec (.evtEnWrite data) s = .next t ∧
    t.blk.get EVT_EN_EN = data.toNat ∧
    (∀ i < 64, data.getLsbD i = true → bitAt (s.blk.get EVT_EN_EN) i = false → bitAt (s.blk.get EVT_PEND_PEND) i = true →
      s.blk.host.mask.getLsbD i = false → Out.msix i ∈ t.blk.out) ∧
    Frame [EVT_EN_EN] [.host, .out] s t := by
  refine done_intro (done_byHost hf _ _) fun u => ⟨?_, fun i hi hd he hp hm => ?_, frame_intro ?_ ?_⟩
  · refine ((messages_keeps _ _).1 EVT_EN_EN (by simp)).trans ((Block.get_put_same s.blk EVT_EN_EN _ (by decide)).trans ?_)
    exact Nat.mod_eq_of_lt data.isLt
  · exact msix_mem_messages (List.mem_filter.2 ⟨(mem_maskBits_toNat hi).2 hd, by simp [he, hp]⟩) hm
  · exact keeps_trans (put_keeps ..) (keeps_mono (messages_keeps _ _) (by simp))
  · exact only_trans (put_only ..) (messages_only _ _)

theorem evtSet_occurs (s : State) (mask : Half) (hf : s.blk.hostFree = true) : ∃ t, exec (.evtSet mask) s = .next t ∧
    (∀ i < 64, bitAt (t.blk.get EVT_PEND_PEND) i = (bitAt (s.blk.get EVT_PEND_PEND) i || mask.getLsbD i)) ∧
    Frame [EVT_PEND_PEND, EVT_OVR_OVR] [.host, .out] s t := by
  refine done_intro (done_byHost hf _ _) fun u => ⟨fun i hi => ?_, frame_intro (occurAll_keeps _ _) (occurAll_only _ _)⟩
  rw [Block.withTags_get, occurAll_pend _ (fun n hn => (mem_maskBits.1 hn).1)]
  simp only [mem_maskBits_toNat hi, Bool.decide_eq_true]

/-- The block with vector `v` neither masked nor pending. -/
def Block.vectorClear (b : Block) (v : Nat) : Block :=
  { b with host := { b.host with
    mask := b.host.mask &&& ~~~BitVec.ofNat 64 (2 ^ v), pba := b.host.pba &&& ~~~BitVec.ofNat 64 (2 ^ v) } }

theorem unmask_eq (b : Block) (v : Nat) :
    b.unmask v = if b.host.pba.getLsbD v then (b.vectorClear v).emit (.msix v) else b.vectorClear v := rfl

theorem vectorClear_only (b : Block) (v : Nat) : b.only [.host, .out] (b.vectorClear v) := by simp [Block.vectorClear, Block.only]

/-- Unmasking a vector sends the message that is pending (R97). -/
theorem unmask_sends (s : State) (v : Fin 64) : ∃ t, exec (.msixUnmask v) s = .next t ∧
    t.blk.host.mask.getLsbD v = false ∧ t.blk.host.pba.getLsbD v = false ∧
    (s.blk.host.pba.getLsbD v = true → t.blk.out = .msix v :: s.blk.out) ∧
    (s.blk.host.pba.getLsbD v = false → t.blk.out = s.blk.out) ∧ Frame [] [.host, .out] s t := by
  have hkeeps : s.blk.keeps [] (s.blk.vectorClear v) := keeps_of_regs rfl
  cases h : s.blk.host.pba.getLsbD v
  case false =>
    have hu : s.blk.unmask v = s.blk.vectorClear v := (unmask_eq _ _).trans (if_neg (by rw [h]; decide))
    refine leadsTo_intro (done_leadsTo (f := fun b => b.unmask v.val) hu) fun u => ?_
    exact ⟨getLsbD_clear _ v, getLsbD_clear _ v, nofun, fun _ => rfl, frame_intro hkeeps (vectorClear_only _ _)⟩
  case true =>
    have hu : s.blk.unmask v = (s.blk.vectorClear v).emit (.msix v) := (unmask_eq _ _).trans (if_pos h)
    refine leadsTo_intro (done_leadsTo (f := fun b => b.unmask v.val) hu) fun u => ?_
    exact ⟨getLsbD_clear _ v, getLsbD_clear _ v, fun _ => rfl, nofun,
      frame_intro (keeps_emit hkeeps) (only_emit (vectorClear_only _ _) (by simp))⟩

/-- Settles O2: a clause for an occurrence with PEND clear, with PEND set and with PD3 off, and one for each command. -/
theorem events : Obligations.Events := by
  unfold Obligations.Events
  exact ⟨event_sets, event_overruns, event_held, pendClear_clears, enWrite_enables, evtSet_occurs, unmask_sends⟩

end Sys2Proof.Machine
end

section
/-! A host error (R94): what HOST_ERRCAUSE and HOST_ERRADDR read after it, and what it changes. -/

namespace Sys2Proof.Machine

/-- The registers of a host error. -/
def errTouch (a : Nat) : Bool := a == HOST_ERRCAUSE || a == HOST_ERRADDR || evTouch a

theorem hostErr_code (b : Block) (code addr : Nat) : (b.hostErr code addr).get HOST_ERRCAUSE_CODE = code % 16 := by
  simp [Block.hostErr, Block.incSat]

theorem hostErr_addr (b : Block) (code addr : Nat) : (b.hostErr code addr).get HOST_ERRADDR_ADDR = addr % 2 ^ 64 := by
  simp [Block.hostErr]

theorem hostErr_addr_of_lt (b : Block) (code : Nat) {addr : Nat} (h : addr < 2 ^ 64) :
    (b.hostErr code addr).get HOST_ERRADDR_ADDR = addr := (hostErr_addr b code addr).trans (Nat.mod_eq_of_lt h)

theorem hostErr_changes (b : Block) (code addr : Nat) : b.changes errTouch [.host, .out] (b.hostErr code addr) := by
  refine changes_raise (changes_put (changes_put (changes_put (changes_refl _ _ b) ?_) ?_) ?_) (fun a ha => ?_) (by simp)
  · rfl
  · rfl
  · rfl
  · simp [errTouch, ha]

theorem mem_hostErr_out {b : Block} {o : Out} (h : o ∈ b.out) (code addr : Nat) : o ∈ (b.hostErr code addr).out := raise_out _ _ _ h

/-- A request that need not wait is answered as it arrives (R67). -/
theorem arrive_answered {b : Block} {i : Instr} (hf : b.hostFree = true) (hw : b.mustWait i = false) : Block.arrive i b = b.answer i := by
  rw [Block.arrive, hw, hostMay_of_free hf]
  rfl

end Sys2Proof.Machine
end

section
/-! The host's window on Cavern (R83, R85): requests that touch one word. -/

namespace Sys2Proof.Machine

/-! ### Upsets before an access -/

theorem addUpset_mem (c : CavSt) (w : Nat) (two : Bool) : (addUpset c w two).mem = c.mem := by
  unfold addUpset
  split
  · rfl
  · split <;> rfl

theorem addUpset_remap (c : CavSt) (w : Nat) (two : Bool) : (addUpset c w two).remap = c.remap := by
  unfold addUpset
  split
  · rfl
  · split <;> rfl

/-- Upsets strike stored words, and neither what they hold nor where they lie. -/
theorem upsets_eq (ups : List (Nat × Bool)) (b : Block) :
    ∃ c : CavSt, b.upsets ups = { b with cav := c } ∧ c.mem = b.cav.mem ∧ c.remap = b.cav.remap := by
  induction ups generalizing b with
  | nil => exact ⟨b.cav, rfl, rfl, rfl⟩
  | cons u r ih =>
    obtain ⟨c, hc, hm, hr⟩ := ih { b with cav := addUpset b.cav (b.physWord u.1) u.2 }
    exact ⟨c, hc, hm.trans (addUpset_mem ..), hr.trans (addUpset_remap ..)⟩

theorem upsets_mem (b : Block) (ups : List (Nat × Bool)) : (b.upsets ups).cav.mem = b.cav.mem := by
  obtain ⟨c, hc, hm, -⟩ := upsets_eq ups b
  rw [hc, hm]

theorem upsets_physWord (b : Block) (ups : List (Nat × Bool)) (w : Nat) : (b.upsets ups).physWord w = b.physWord w := by
  obtain ⟨c, hc, -, hr⟩ := upsets_eq ups b
  simp only [Block.physWord, hc, hr]

theorem upsets_regs (b : Block) (ups : List (Nat × Bool)) : (b.upsets ups).regs = b.regs := by
  obtain ⟨c, hc, -⟩ := upsets_eq ups b
  rw [hc]

theorem upsets_only (b : Block) (ups : List (Nat × Bool)) : b.only [.cav] (b.upsets ups) := by
  obtain ⟨c, hc, -⟩ := upsets_eq ups b
  rw [hc]
  simp [Block.only]

theorem upsets_winBase (b : Block) (ups : List (Nat × Bool)) : (b.upsets ups).winBase = b.winBase := by
  simp only [Block.winBase, Block.get, Block.reg, upsets_regs]

/-! ### A request of the nine bytes of one word -/

theorem touchedWords_word (i : Nat) {n : Nat} (h0 : 0 < n) (h : n ≤ 16) : touchedWords (16 * i) n = [i] := by
  have hone : (16 * i + n - 1) / 16 - 16 * i / 16 + 1 = 1 := by omega
  have hi : 16 * i / 16 = i := by omega
  rw [touchedWords, if_neg (by omega), hone, hi]
  simp

theorem toNat_word_off {i : Nat} (h : 16 * i + 9 ≤ 2 ^ 28) : (BitVec.ofNat 28 (16 * i)).toNat = 16 * i := by
  rw [BitVec.toNat_ofNat]
  exact Nat.mod_eq_of_lt (by omega)

theorem bar2Enables_word (i : Nat) {l : List (Option Byte)} (h : l.length = 9) : bar2Enables (16 * i) l i = l := by
  refine List.ext_getElem (by simp [bar2Enables, h]) fun k hk hl => ?_
  simp [bar2Enables, hl]

/-- The first byte of a word alone. -/
theorem bar2Enables_first (i : Nat) (v : Byte) : bar2Enables (16 * i) [some v] i = some v :: List.replicate 8 none := by
  simp [bar2Enables, List.range_succ]

/-- The block with word `w` replaced by bytes, its check code fresh (R83). -/
def Block.wordStored (b : Block) (w : Nat) (l : List (Option Byte)) : Block :=
  { b with cav := { b.cav with
    mem := cavStore b.cav.mem (b.physWord w) 0 l
    corr := b.cav.corr.filter (· ≠ b.physWord w)
    uncorr := b.cav.uncorr.filter (· ≠ b.physWord w) } }

theorem wordStored_cavBad (b : Block) (w : Nat) (l : List (Option Byte)) : (b.wordStored w l).cavBad w = false := by
  have hp : (b.wordStored w l).physWord w = b.physWord w := rfl
  have hu : (b.wordStored w l).cav.uncorr = b.cav.uncorr.filter (· ≠ b.physWord w) := rfl
  simp [Block.cavBad, hp, hu]

theorem wordStored_only (b : Block) (w : Nat) (l : List (Option Byte)) : b.only [.cav] (b.wordStored w l) := by
  simp [Block.only, Block.wordStored]

theorem wordStored_changes (b : Block) (ups : List (Nat × Bool)) (w : Nat) (l : List (Option Byte)) :
    b.changes galTouch [.cav, .trc, .host, .out] ((b.upsets ups).wordStored w l) := by
  have honly : b.only [.cav] ((b.upsets ups).wordStored w l) := only_trans (upsets_only ..) (wordStored_only ..)
  exact changes_of_only (upsets_regs b ups) (only_mono honly (by simp))

theorem bar2WriteWord_whole {b : Block} {w : Nat} {v : List Byte} (hv : v.length = 9) (hw : w ≤ lastWord) (off : Nat) :
    b.bar2WriteWord off w (v.map some) = b.wordStored w (v.map some) := by
  have hne : (v.map some).all (·.isNone) = false := by
    obtain ⟨x, r, rfl⟩ := List.exists_cons_of_length_pos (l := v) (by omega)
    simp
  have hall : (v.map some).all (·.isSome) = true := by simp
  rw [Block.bar2WriteWord, hne, decide_eq_false (Nat.not_lt.2 hw)]
  simp only [hall]
  rfl

/-- A write that touches one word of Cavern is that word's write, counted (R83). -/
theorem bar2Write_word (b : Block) {i : Nat} {l : List (Option Byte)} (h0 : 0 < l.length) (h : l.length ≤ 16)
    (hw : b.winBase + i ≤ lastWord) :
    ∃ n, b.bar2Write (16 * i) l = (b.bar2WriteWord (16 * i) (b.winBase + i) (bar2Enables (16 * i) l i)).fabCount 13 n := by
  have hin : [i].any (fun i => decide (lastWord < b.winBase + i)) = false := by simpa using hw
  simp only [Block.bar2Write, touchedWords_word i h0 h, hin, Block.bar2Writes, Bool.false_eq_true, if_false]
  exact ⟨_, rfl⟩

theorem cavBytes_cavStore_whole (m : List Host.Cell) (p : Nat) {v : List Byte} (hv : v.length = 9) :
    cavBytes (cavStore m p 0 (v.map some)) p = v := by
  refine List.ext_getElem (by simp [cavBytes, hv]) fun k hk hl => ?_
  have h := cavByte_cavStore p (v.map some) m 0 k (by simpa using hl)
  simp only [List.getElem?_map, List.getElem?_eq_getElem hl, Nat.add_zero] at h
  simpa [cavBytes] using h

theorem cavByte_cavStore_word (m : List Host.Cell) {p key : Nat} {l : List (Option Byte)} (hl : l.length ≤ 16) (h : key / 16 ≠ p) :
    cavByte (cavStore m p 0 l) key = cavByte m key :=
  cavByte_cavStore_apart p l m 0 key (by omega)

theorem fabCount_cav (b : Block) (e n : Nat) : (b.fabCount e n).cav = b.cav := only_cav (fabCount_counted b e n).2 (by simp)

theorem Block.cavBad_fabCount (b : Block) (e n w : Nat) : (b.fabCount e n).cavBad w = b.cavBad w := by
  simp only [Block.cavBad, Block.physWord, fabCount_cav]

theorem Block.withTags_cavBad (b : Block) (u : SMap (BitVec 8)) (w : Nat) : (b.withTags u).cavBad w = b.cavBad w := rfl

/-! ### The requests -/

theorem bar2Write_answered {s : State} {off : BitVec 28} {bytes : List (Option Byte)} {ups : List (Nat × Bool)} {c : Block}
    (hf : s.blk.hostFree = true) (hr : s.blk.cavernOn = true → s.blk.relockStops 0x200000 = false)
    (h : s.blk.answerBar2Write off bytes ups = c) : exec (.bar2Write off bytes ups) s = leadsTo s c := by
  have hw : s.blk.mustWait (.bar2Write off bytes ups) = false := by
    cases hc : s.blk.cavernOn
    · simp [Block.mustWait, hc]
    · simp [Block.mustWait, hr hc]
  exact done_leadsTo ((arrive_answered hf hw).trans h)

theorem bar2Read_answered {s : State} {off : BitVec 28} {len : BitVec 13} {ups : List (Nat × Bool)} {c : Block}
    (hf : s.blk.hostFree = true) (hr : s.blk.cavernOn = true → s.blk.relockStops 0x200000 = false)
    (h : s.blk.answerBar2Read off len ups = c) : exec (.bar2Read off len ups) s = leadsTo s c := by
  have hw : s.blk.mustWait (.bar2Read off len ups) = false := by
    cases hc : s.blk.cavernOn
    · simp [Block.mustWait, hc]
    · simp [Block.mustWait, hr hc]
  exact done_leadsTo ((arrive_answered hf hw).trans h)

/-- A write of a whole word (R83). -/
theorem bar2Write_whole (s : State) (i : Nat) (v : List Byte) (ups : List (Nat × Bool)) (hf : s.blk.hostFree = true)
    (hc : s.blk.cavernOn = true) (hr : s.blk.relockStops 0x200000 = false) (hv : v.length = 9) (hi : 16 * i + 9 ≤ 2 ^ 28)
    (hw : s.blk.winBase + i ≤ lastWord) :
    ∃ t, exec (.bar2Write (BitVec.ofNat 28 (16 * i)) (v.map some) ups) s = .next t ∧
      cavBytes t.blk.cav.mem (s.blk.physWord (s.blk.winBase + i)) = v ∧
      t.blk.cavBad (s.blk.winBase + i) = false ∧
      (∀ key, key / 16 ≠ s.blk.physWord (s.blk.winBase + i) → cavByte t.blk.cav.mem key = cavByte s.blk.cav.mem key) ∧
      (Memory.wf s.blk.cav.mem = true → Memory.wf t.blk.cav.mem = true) ∧ FrameOn galTouch [.cav, .trc, .host, .out] s t := by
  have hlen : (v.map some).length = 9 := by simpa using hv
  have hwb := upsets_winBase s.blk ups
  obtain ⟨n, hn⟩ := bar2Write_word (s.blk.upsets ups) (i := i) (l := v.map some) (by omega) (by omega) (hwb.symm ▸ hw)
  rw [bar2Enables_word i hlen, hwb, bar2WriteWord_whole hv hw] at hn
  have hans : s.blk.answerBar2Write (BitVec.ofNat 28 (16 * i)) (v.map some) ups =
      ((s.blk.upsets ups).wordStored (s.blk.winBase + i) (v.map some)).fabCount 13 n := by
    rw [Block.answerBar2Write, if_pos hc, toNat_word_off hi]
    exact hn
  refine leadsTo_intro (bar2Write_answered hf (fun _ => hr) hans) fun u => ?_
  simp only [Block.withTags_cav, Block.withTags_cavBad, fabCount_cav, Block.cavBad_fabCount]
  refine ⟨?_, wordStored_cavBad .., fun key hk => ?_, fun h => ?_, frameOn_intro ?_⟩
  · rw [← upsets_physWord s.blk ups]
    exact cavBytes_cavStore_whole _ _ hv
  · rw [← upsets_mem s.blk ups]
    exact cavByte_cavStore_word _ (by omega) (by rwa [upsets_physWord])
  · exact Memory.wf_cavStore _ _ _ _ ((upsets_mem s.blk ups).symm ▸ h)
  · exact changes_counted (wordStored_changes ..) (fabCount_counted ..) (fun _ h => h) (by simp)

/-! ### What an access to a word that reads badly does -/

theorem strike_cav (b : Block) (c : Channel) : (b.strike c).cav = b.cav := by
  unfold Block.strike
  split <;> rfl

theorem retire_cav (b : Block) (c : Channel) : (b.retire c).cav = b.cav := by
  unfold Block.retire
  split <;> rfl

theorem raise_cav (b : Block) (n : Nat) : (b.raise n).cav = b.cav := only_cav (raise_only b n) (by simp)

theorem hostErr_cav (b : Block) (code addr : Nat) : (b.hostErr code addr).cav = b.cav := only_cav (hostErr_only b code addr) (by simp)

theorem pageOut_mem (b : Block) (page : Nat) : (b.pageOut page).cav.mem = b.cav.mem := by
  unfold Block.pageOut
  simp only
  split
  · simp only [retire_cav]
  · rw [raise_cav, retire_cav]

theorem pageStrike_mem (b : Block) (w : Nat) : (b.pageStrike w).cav.mem = b.cav.mem := by
  unfold Block.pageStrike
  split
  · rw [pageOut_mem, strike_cav]
  · rw [strike_cav]

theorem cavTouch_mem (b : Block) (w : Nat) : (b.cavTouch w).cav.mem = b.cav.mem := by
  unfold Block.cavTouch
  simp only
  split
  · exact pageStrike_mem ..
  · split
    · exact pageStrike_mem ..
    · rfl

/-- A word without a check error is read without more ado. -/
theorem cavTouch_good {b : Block} {w : Nat} (hc : b.cav.corr = []) (hu : b.cav.uncorr = []) : b.cavTouch w = b := by
  simp [Block.cavTouch, hc, hu]

/-- A part of a word that reads uncorrectable is not written (R85). -/
theorem bar2WriteWord_bad {b : Block} {w : Nat} (hw : w ≤ lastWord) (hb : b.cavBad w = true) (off : Nat) (v : Byte) :
    b.bar2WriteWord off w (some v :: List.replicate 8 none) = (b.cavTouch w).hostErr 6 off := by
  have hb' : b.cav.uncorr.contains (b.physWord w) = true := hb
  rw [Block.bar2WriteWord, decide_eq_false (Nat.not_lt.2 hw), if_neg (by simp)]
  simp only [hb']
  rfl

theorem galTouch_errCause : galTouch HOST_ERRCAUSE_CODE.addr = false := by decide

theorem galTouch_errAddr : galTouch HOST_ERRADDR_ADDR.addr = false := by decide

/-- A write of part of a word that reads uncorrectable is discarded (R85). -/
theorem bar2Write_bad (s : State) (i : Nat) (v : Byte) (hf : s.blk.hostFree = true)
    (hc : s.blk.cavernOn = true) (hr : s.blk.relockStops 0x200000 = false) (hi : 16 * i + 9 ≤ 2 ^ 28)
    (hw : s.blk.winBase + i ≤ lastWord) (hb : s.blk.cavBad (s.blk.winBase + i) = true)
    (_ : s.blk.cav.corr.contains (s.blk.physWord (s.blk.winBase + i)) = false) :
    ∃ t, exec (.bar2Write (BitVec.ofNat 28 (16 * i)) [some v] []) s = .next t ∧
      t.blk.cav.mem = s.blk.cav.mem ∧ t.blk.get HOST_ERRCAUSE_CODE = 6 ∧ t.blk.get HOST_ERRADDR_ADDR = 16 * i ∧
      t.pending = s.pending := by
  obtain ⟨n, hn⟩ := bar2Write_word s.blk (l := [some v]) (by simp) (by simp) hw
  rw [bar2Enables_first, bar2WriteWord_bad hw hb] at hn
  have hans : s.blk.answerBar2Write (BitVec.ofNat 28 (16 * i)) [some v] [] =
      ((s.blk.cavTouch (s.blk.winBase + i)).hostErr 6 (16 * i)).fabCount 13 n := by
    rw [Block.answerBar2Write, if_pos hc, toNat_word_off hi]
    exact hn
  refine leadsTo_intro (bar2Write_answered hf (fun _ => hr) hans) fun u => ⟨?_, ?_, ?_, rfl⟩
  · rw [Block.withTags_cav, fabCount_cav, hostErr_cav, cavTouch_mem]
  · rw [Block.withTags_get, changes_get (changes_of_counted (fabCount_counted ..)) galTouch_errCause, hostErr_code]
  · rw [Block.withTags_get, changes_get (changes_of_counted (fabCount_counted ..)) galTouch_errAddr,
      hostErr_addr_of_lt _ _ (by omega)]

/-! ### A read of one word -/

/-- A read of the nine bytes of one word: the word is met, the read counted, and the data leaves with its poison (R83). -/
theorem bar2Read_word (b : Block) {i : Nat} (hw : b.winBase + i ≤ lastWord) :
    b.bar2Read (16 * i) 9 = ((b.bar2Touch (16 * i) (b.winBase + i)).fabCount 13 1).emit
      (.readData (16 * i) (cavBytes b.cav.mem (b.physWord (b.winBase + i))) (b.cavBad (b.winBase + i))) := by
  have hdata : (List.range 9).map (fun k => b.bar2Byte (16 * i + k)) = cavBytes b.cav.mem (b.physWord (b.winBase + i)) := by
    refine List.map_congr_left fun k hk => ?_
    have hk9 : k < 9 := List.mem_range.1 hk
    have hdiv : (16 * i + k) / 16 = i := by omega
    have hmod : (16 * i + k) % 16 = k := by omega
    simp [Block.bar2Byte, hdiv, hmod, Nat.not_lt.2 hw, hk9]
  rw [Block.bar2Read, touchedWords_word i (by omega) (by omega)]
  simp only [hdata, List.map_cons, List.map_nil, Nat.add_comm i]
  simp [hw, Block.bar2Touches]

theorem answerBar2Read_on {b : Block} (hc : b.cavernOn = true) {i : Nat} (hi : 16 * i + 9 ≤ 2 ^ 28) :
    b.answerBar2Read (BitVec.ofNat 28 (16 * i)) 9 [] = b.bar2Read (16 * i) 9 := by
  rw [Block.answerBar2Read, if_pos hc, toNat_word_off hi]
  rfl

/-- A read of a good word returns its nine bytes (R83). -/
theorem bar2Read_good (s : State) (i : Nat) (hf : s.blk.hostFree = true) (hc : s.blk.cavernOn = true)
    (hr : s.blk.relockStops 0x200000 = false) (hi : 16 * i + 9 ≤ 2 ^ 28) (hw : s.blk.winBase + i ≤ lastWord)
    (hcorr : s.blk.cav.corr = []) (hun : s.blk.cav.uncorr = []) :
    ∃ t, exec (.bar2Read (BitVec.ofNat 28 (16 * i)) 9 []) s = .next t ∧
      Out.readData (16 * i) (cavBytes s.blk.cav.mem (s.blk.physWord (s.blk.winBase + i))) false ∈ t.blk.out ∧
      FrameOn galTouch [.trc, .host, .out] s t := by
  have hbad : s.blk.cavBad (s.blk.winBase + i) = false := by simp [Block.cavBad, hun]
  have htouch : s.blk.bar2Touch (16 * i) (s.blk.winBase + i) = s.blk := by
    simp [Block.bar2Touch, hbad, cavTouch_good hcorr hun]
  have hans := bar2Read_word s.blk hw
  rw [htouch, hbad] at hans
  refine leadsTo_intro (bar2Read_answered hf (fun _ => hr)
    ((answerBar2Read_on hc hi).trans hans)) fun u => ⟨?_, frameOn_intro ?_⟩
  · exact List.mem_cons_self
  · exact changes_emit (changes_of_counted (fabCount_counted ..)) (by simp)

/-- A read of a word with an uncorrectable error returns poisoned data (R85). -/
theorem bar2Read_bad (s : State) (i : Nat) (hf : s.blk.hostFree = true) (hc : s.blk.cavernOn = true)
    (hr : s.blk.relockStops 0x200000 = false) (hi : 16 * i + 9 ≤ 2 ^ 28) (hw : s.blk.winBase + i ≤ lastWord)
    (hb : s.blk.cavBad (s.blk.winBase + i) = true) :
    ∃ t, exec (.bar2Read (BitVec.ofNat 28 (16 * i)) 9 []) s = .next t ∧ t.blk.cav.mem = s.blk.cav.mem ∧
      ∃ l, Out.readData (16 * i) l true ∈ t.blk.out := by
  have htouch : s.blk.bar2Touch (16 * i) (s.blk.winBase + i) = (s.blk.cavTouch (s.blk.winBase + i)).hostErr 6 (16 * i) := by
    simp [Block.bar2Touch, hb, Nat.not_lt.2 hw]
  have hans := bar2Read_word s.blk hw
  rw [htouch, hb] at hans
  refine leadsTo_intro (bar2Read_answered hf (fun _ => hr)
    ((answerBar2Read_on hc hi).trans hans)) fun u => ⟨?_, cavBytes s.blk.cav.mem (s.blk.physWord (s.blk.winBase + i)), ?_⟩
  · rw [Block.withTags_cav, Block.emit_cav, fabCount_cav, hostErr_cav, cavTouch_mem]
  · exact List.mem_cons_self

/-! ### Requests that Cavern's domains hold off -/

/-- A read while Cavern is held off gives zeros (R57). -/
theorem bar2Read_heldOff (s : State) (off : BitVec 28) (len : BitVec 13) (ups : List (Nat × Bool)) (hf : s.blk.hostFree = true)
    (hc : s.blk.cavernOn = false) : ∃ t, exec (.bar2Read off len ups) s = .next t ∧
      t.blk.get HOST_ERRCAUSE_CODE = 3 ∧ Out.readData off.toNat (List.replicate len.toNat 0) false ∈ t.blk.out ∧
      Frame [HOST_ERRCAUSE_CODE, HOST_ERRCAUSE_CNT, HOST_ERRADDR_ADDR, EVT_PEND_PEND, EVT_OVR_OVR] [.host, .out] s t := by
  have hoff : ¬ s.blk.cavernOn = true := by simp [hc]
  refine leadsTo_intro (bar2Read_answered hf (fun h => absurd h hoff) (if_neg hoff))
    fun u => ⟨(Block.withTags_get ..).trans (hostErr_code ..), mem_hostErr_out ?_ _ _, frame_intro ?_ ?_⟩
  · exact List.mem_cons_self
  · exact keeps_trans (keeps_emit (keeps_refl _ _)) (hostErr_keeps ..)
  · exact only_hostErr (only_emit (only_refl _ _) (by simp)) (by simp)

/-- A write while Cavern is held off is discarded (R57). -/
theorem bar2Write_heldOff (s : State) (off : BitVec 28) (bytes : List (Option Byte)) (ups : List (Nat × Bool))
    (hf : s.blk.hostFree = true) (hc : s.blk.cavernOn = false) : ∃ t, exec (.bar2Write off bytes ups) s = .next t ∧
      t.blk.get HOST_ERRCAUSE_CODE = 3 ∧
      Frame [HOST_ERRCAUSE_CODE, HOST_ERRCAUSE_CNT, HOST_ERRADDR_ADDR, EVT_PEND_PEND, EVT_OVR_OVR] [.host, .out] s t :=
  have hoff : ¬ s.blk.cavernOn = true := by simp [hc]
  leadsTo_intro (bar2Write_answered hf (fun h => absurd h hoff) (if_neg hoff))
    fun _ => ⟨(Block.withTags_get ..).trans (hostErr_code ..), frame_intro (hostErr_keeps ..) (hostErr_only ..)⟩

/-- Settles O6: a clause for each kind of request, by what one word's access does. -/
theorem cavernWindow : Obligations.CavernWindow := by
  unfold Obligations.CavernWindow
  exact ⟨bar2Write_whole, bar2Write_bad, bar2Read_good, bar2Read_bad, bar2Read_heldOff, bar2Write_heldOff⟩

end Sys2Proof.Machine
end

section
/-! What has left the block stays in the row of what left, whatever follows. -/

namespace Sys2Proof.Machine

theorem raise_outs (b : Block) (n : Nat) : b.out ⊆ (b.raise n).out := fun _ => raise_out b n _

theorem emit_outs (b : Block) (o : Out) : b.out ⊆ (b.emit o).out := List.subset_cons_self _ _

theorem hostErr_outs (b : Block) (code addr : Nat) : b.out ⊆ (b.hostErr code addr).out := fun _ h => mem_hostErr_out h _ _

theorem halfEvent_outs (b : Block) (a : Nat) : b.out ⊆ (b.halfEvent a).out := by
  unfold Block.halfEvent
  split
  · exact raise_outs (b.putB PRF_CAUSE_FAB true) _
  · split
    · exact raise_outs (b.setBit _ _) _
    · refine List.Subset.trans ?_ (raise_outs _ _)
      have hgroup : b.out ⊆ (match statGroup a with | some g => b.setBit STS_HALFSUM_GROUP g | none => b).out := by
        split
        · rw [Block.setBit_out]; exact List.Subset.refl _
        · exact List.Subset.refl _
      simp only
      split
      · split
        · rw [Block.putB_out, Block.setBit_out]; exact hgroup
        · rw [Block.putB_out]; exact hgroup
      · exact hgroup

theorem countUp_outs (b : Block) (a n : Nat) : b.out ⊆ (b.countUp a n).out := by
  unfold Block.countUp
  simp only
  split
  · exact halfEvent_outs (b.setReg a _) a
  · exact List.Subset.refl _

theorem fabEventFrom_outs (evt n : Nat) (ok : Nat → Bool) : ∀ (k : Nat) (b : Block), b.out ⊆ (b.fabEventFrom evt n ok k).out
  | 0, b => List.Subset.refl _
  | k + 1, b => by
    refine List.Subset.trans ?_ (fabEventFrom_outs evt n ok k _)
    split
    · exact countUp_outs ..
    · exact List.Subset.refl _

theorem fabAdd_outs (b : Block) (evt n : Nat) (ok : Nat → Bool) : b.out ⊆ (b.fabAdd evt n ok).out := by
  unfold Block.fabAdd
  split
  · exact List.Subset.refl _
  · exact fabEventFrom_outs ..

theorem fabTo_outs (b : Block) (t : Nat) : b.out ⊆ (b.fabTo t).out := by
  unfold Block.fabTo
  split
  · exact List.Subset.refl _
  · exact List.Subset.trans (List.Subset.trans (fabAdd_outs ..) (fabAdd_outs ..)) (fabAdd_outs ..)

theorem trc_outs (b : Block) (t : TraceSt) : b.out ⊆ Block.out { b with trc := t } := List.Subset.refl _

theorem fabKeep_outs (b : Block) : b.out ⊆ b.fabKeep.out := by
  unfold Block.fabKeep
  split
  · exact List.Subset.refl _
  · exact List.Subset.trans (fabTo_outs _ _) (trc_outs _ _)

theorem fabTouch_outs (b : Block) : b.out ⊆ b.fabTouch.out := List.Subset.trans (fabKeep_outs b) (fabTo_outs ..)

theorem fabCount_outs (b : Block) (evt n : Nat) : b.out ⊆ (b.fabCount evt n).out := by
  unfold Block.fabCount Block.fabEvent
  split
  · exact List.Subset.refl _
  · exact List.Subset.trans (fabKeep_outs b) (fabAdd_outs ..)

/-! ### Flow control and the cells of a frame (R286, R314) -/

theorem sendPause_outs (b : Block) (n q : Nat) : b.out ⊆ (b.sendPause n q).out :=
  List.Subset.trans (countUp_outs ..) (emit_outs ..)

theorem sendPfc_outs (b : Block) (n m q : Nat) : b.out ⊆ (b.sendPfc n m q).out :=
  List.Subset.trans (countUp_outs ..) (emit_outs ..)

theorem pauseSource_outs (b : Block) (s n : Nat) : b.out ⊆ (b.pauseSource s n).out := by
  unfold Block.pauseSource
  simp only
  split
  · exact List.Subset.refl _
  · split
    · exact sendPause_outs ..
    · split
      · split
        · exact List.Subset.refl _
        · exact sendPfc_outs ..
      · exact List.Subset.refl _

theorem unpauseSource_outs (b : Block) (n : Nat) : b.out ⊆ (b.unpauseSource n).out := by
  unfold Block.unpauseSource
  simp only
  split
  · exact List.Subset.refl _
  · split
    · exact sendPause_outs ..
    · exact sendPfc_outs ..

theorem xoffEnter_outs (b : Block) (s : Nat) : b.out ⊆ (b.xoffEnter s).out :=
  List.Subset.trans (List.Subset.trans (fabTouch_outs b) (countUp_outs (((b.fabTouch.putB _ _).putB _ _).put _ _) _ _))
    (raise_outs _ _)

theorem sourceUpdate_outs (b : Block) (s : Nat) : b.out ⊆ (b.sourceUpdate s).out := by
  have hshow : b.out ⊆ ((b.put (SWC_IG_STAT_OCC s) (b.occOf s)).put (SWC_IG_STAT_EFF s) (b.effOf s)).out := List.Subset.refl _
  unfold Block.sourceUpdate
  simp only
  generalize (b.put (SWC_IG_STAT_OCC s) (b.occOf s)).put (SWC_IG_STAT_EFF s) (b.effOf s) = b1 at hshow
  split
  · split
    · have hleave : b.out ⊆ (b1.fabTouch.putB (SWC_IG_STAT_XOFF s) false).out := List.Subset.trans hshow (fabTouch_outs b1)
      split
      · exact List.Subset.trans hleave (unpauseSource_outs ..)
      · exact hleave
    · split
      · split
        · exact List.Subset.trans hshow (pauseSource_outs ..)
        · exact hshow
      · exact hshow
  · split
    · have henter : b.out ⊆ (b1.xoffEnter s).out := List.Subset.trans hshow (xoffEnter_outs b1 s)
      split
      · exact List.Subset.trans henter (pauseSource_outs ..)
      · exact henter
    · exact hshow

theorem freeFrame_outs (b : Block) (id : Nat) : b.out ⊆ (b.freeFrame id).out := by
  unfold Block.freeFrame
  split
  · exact List.Subset.refl _
  · exact sourceUpdate_outs (b.mapSw _).cellUpdate _

theorem release_outs (b : Block) (id : Nat) : b.out ⊆ (b.release id).out := by
  unfold Block.release
  split
  · exact List.Subset.refl _
  · split
    · exact freeFrame_outs b id
    · exact List.Subset.refl _

end Sys2Proof.Machine
end

section
/-! The end of a descriptor (R89, R100), and the frame of a command that also counts. -/

namespace Sys2Proof.Machine

theorem dmaEnd_keeps (b : Block) (n : Nat) (notify : Bool) (st : Nat) :
    b.keeps [DMA_HEAD_HEAD n, HOST_DBCAUSE_DMA, EVT_PEND_PEND, EVT_OVR_OVR] (b.dmaEnd n notify st) := by
  have hput (v : Nat) : b.keeps [DMA_HEAD_HEAD n, HOST_DBCAUSE_DMA, EVT_PEND_PEND, EVT_OVR_OVR]
      ((b.emit (.hostWrite (b.dmaAt n + 24) (bytesOf st 0 8) false)).put (DMA_HEAD_HEAD n) v) :=
    keeps_put (keeps_emit (keeps_refl _ b)) (by simp)
  unfold Block.dmaEnd
  simp only
  split
  · exact keeps_raise (keeps_setBit (hput _) (by simp)) (by simp) (by simp)
  · exact hput _

theorem dmaEnd_only (b : Block) (n : Nat) (notify : Bool) (st : Nat) : b.only [.host, .out] (b.dmaEnd n notify st) := by
  have hput (v : Nat) : b.only [.host, .out] ((b.emit (.hostWrite (b.dmaAt n + 24) (bytesOf st 0 8) false)).put (DMA_HEAD_HEAD n) v) :=
    only_put (only_emit (only_refl _ b) (by simp))
  unfold Block.dmaEnd
  simp only
  split
  · exact only_raise (only_setBit (hput _)) (by simp)
  · exact hput _

/-- HEAD advances round the ring (R88). -/
theorem dmaEnd_head (b : Block) {n : Nat} (hn : n < 4) (notify : Bool) (st : Nat) :
    (b.dmaEnd n notify st).get (DMA_HEAD_HEAD n) = (b.get (DMA_HEAD_HEAD n) + 1) % 2 ^ b.get (DMA_SIZE_LOG2 n) % 2 ^ 16 := by
  unfold Block.dmaEnd
  simp only
  split
  · rw [raise_get _ _ _ (by simp only [DMA_HEAD, EVT_PEND]; omega) (by simp only [DMA_HEAD, EVT_OVR]; omega),
      Block.setBit, Block.get_put_apart _ _ _ _ (.inl (by simp only [DMA_HEAD, HOST_DBCAUSE]; omega)),
      Block.get_put_same _ _ _ (by decide : 0 + 16 ≤ 72)]
  · exact Block.get_put_same _ _ _ (by decide : 0 + 16 ≤ 72)

/-- STATUS leaves, and whatever left before. -/
theorem dmaEnd_outs (b : Block) (n : Nat) (notify : Bool) (st : Nat) :
    .hostWrite (b.dmaAt n + 24) (bytesOf st 0 8) false :: b.out ⊆ (b.dmaEnd n notify st).out := by
  unfold Block.dmaEnd
  simp only
  split
  · exact raise_outs (((b.emit _).put _ _).setBit _ _) _
  · exact List.Subset.refl _

theorem mem_dmaEnd_status (b : Block) (n : Nat) (notify : Bool) (st : Nat) :
    .hostWrite (b.dmaAt n + 24) (bytesOf st 0 8) false ∈ (b.dmaEnd n notify st).out := dmaEnd_outs _ _ _ _ List.mem_cons_self

theorem dmaEnd_outs_before (b : Block) (n : Nat) (notify : Bool) (st : Nat) : b.out ⊆ (b.dmaEnd n notify st).out :=
  fun _ h => dmaEnd_outs _ _ _ _ (List.mem_cons_of_mem _ h)

theorem dmaEnd_cav (b : Block) (n : Nat) (notify : Bool) (st : Nat) : (b.dmaEnd n notify st).cav = b.cav :=
  only_cav (dmaEnd_only ..) (by simp)

/-- The frame of a command that counts, and then changes the fields listed. -/
theorem frameF_intro {fs : List Field} {ps : List Part} {s : State} {b c : Block} {u : SMap (BitVec 8)}
    (h1 : s.blk.changes galTouch ([.trc, .host, .out] ++ ps) b) (h2 : b.keeps (fs ++ [EVT_PEND_PEND, EVT_OVR_OVR]) c)
    (h3 : b.only [.host, .out] c) : FrameF fs ps s ⟨c.withTags u, s.pending⟩ := by
  have hev : ∀ {f : Field} {a : Nat}, galTouch a = false → f ∈ [EVT_PEND_PEND, EVT_OVR_OVR] → a ≠ f.addr := by
    rintro f a ha hf rfl
    simp only [List.mem_cons, List.not_mem_nil, or_false] at hf
    rcases hf with rfl | rfl <;> exact absurd ha (by decide)
  refine ⟨fun g hg hap => ?_, fun a ha hne => ?_, only_trans h1.2 (only_mono h3 (by simp)), rfl⟩
  · refine (h2.1 g fun f hf => ?_).trans (changes_get h1 hg)
    rcases List.mem_append.1 hf with hf | hf
    · exact hap f hf
    · exact .inl (hev hg hf).symm
  · refine (h2.2 a fun f hf => ?_).trans (h1.1 a ha)
    rcases List.mem_append.1 hf with hf | hf
    · exact hne f hf
    · exact hev ha hf

/-! ### A descriptor that ends after its data has moved -/

/-- The registers that the transfer of a descriptor's data changes: those of the counters, of a page's retirement and of a host
error. -/
def dmaTouch (a : Nat) : Bool := galTouch a || errTouch a || a == SYS_RETIRED

theorem dmaTouch_dma {a : Nat} (hlo : 0x421000 ≤ a) (hhi : a < 0x422000) : dmaTouch a = false := by
  have hgal : within 0x3C0000 0x400000 a = false := by simp [within]; omega
  have hne {c : Nat} (hc : c < 0x421000) : (a == c) = false := beq_false_of_ne (by omega)
  simp only [dmaTouch, galTouch, errTouch, evTouch, hgal, hne (by decide : EVT_PEND < 0x421000), hne (by decide : EVT_OVR < 0x421000),
    hne (by decide : HOST_ERRCAUSE < 0x421000), hne (by decide : HOST_ERRADDR < 0x421000), hne (by decide : SYS_RETIRED < 0x421000),
    Bool.or_self]

theorem dmaTouch_of_galTouch {a : Nat} (h : galTouch a = true) : dmaTouch a = true := by simp [dmaTouch, h]

theorem dmaTouch_of_errTouch {a : Nat} (h : errTouch a = true) : dmaTouch a = true := by simp [dmaTouch, h]

theorem dmaTouch_head {n : Nat} (hn : n < 4) : dmaTouch (DMA_HEAD n) = false :=
  dmaTouch_dma (by simp only [DMA_HEAD]; omega) (by simp only [DMA_HEAD]; omega)

theorem dmaTouch_base {n : Nat} (hn : n < 4) : dmaTouch (DMA_BASE n) = false :=
  dmaTouch_dma (by simp only [DMA_BASE]; omega) (by simp only [DMA_BASE]; omega)

theorem dmaTouch_size {n : Nat} (hn : n < 4) : dmaTouch (DMA_SIZE n) = false :=
  dmaTouch_dma (by simp only [DMA_SIZE]; omega) (by simp only [DMA_SIZE]; omega)

section
variable {ps : List Part} {b c : Block} {n : Nat} (h : b.changes dmaTouch ps c) (hn : n < 4)
include h hn

theorem dmaHead_of_changes : c.get (DMA_HEAD_HEAD n) = b.get (DMA_HEAD_HEAD n) :=
  changes_get h (dmaTouch_head hn)

theorem dmaAt_of_changes : c.dmaAt n = b.dmaAt n := by
  have hbase : c.get (DMA_BASE_ADDR n) = b.get (DMA_BASE_ADDR n) :=
    changes_get h (dmaTouch_base hn)
  rw [Block.dmaAt, hbase, dmaHead_of_changes h hn, Block.dmaAt]

/-- HEAD and STATUS of a descriptor whose data has moved. -/
theorem dmaEnd_after (notify : Bool) (st : Nat) :
    (c.dmaEnd n notify st).get (DMA_HEAD_HEAD n) = (b.get (DMA_HEAD_HEAD n) + 1) % 2 ^ b.get (DMA_SIZE_LOG2 n) % 2 ^ 16 ∧
    .hostWrite (b.dmaAt n + 24) (bytesOf st 0 8) false ∈ (c.dmaEnd n notify st).out := by
  have hsize : c.get (DMA_SIZE_LOG2 n) = b.get (DMA_SIZE_LOG2 n) :=
    changes_get h (dmaTouch_size hn)
  refine ⟨?_, ?_⟩
  · rw [dmaEnd_head c hn, hsize, dmaHead_of_changes h hn]
  · rw [← dmaAt_of_changes h hn]
    exact mem_dmaEnd_status ..

end

end Sys2Proof.Machine
end

section
/-! What the DMA engines move (R83, R85, R87). -/

namespace Sys2Proof.Machine

/-! ### DMA0: words into Cavern -/

theorem physWord_plain {b : Block} (h : b.cav.remap = []) (w : Nat) : b.physWord w = w := by
  simp [Block.physWord, h, sget]

theorem cavWord_congr {m m' : List Host.Cell} {w : Nat} (h : ∀ k < 9, cavByte m' (16 * w + k) = cavByte m (16 * w + k)) :
    cavWord m' w = cavWord m w := by
  rw [cavWord, cavWord, cavBytes, cavBytes, List.map_congr_left fun k hk => h k (List.mem_range.1 hk)]

theorem cavSet_changes (b : Block) (w : Nat) (x : Word) : b.changes galTouch [.cav, .trc, .host, .out] (b.cavSet w x) :=
  changes_of_only rfl (by simp [Block.only, Block.cavSet])

theorem cavSet_mem {b : Block} (h : b.cav.remap = []) (w : Nat) (x : Word) : (b.cavSet w x).cav.mem = cavStoreWord b.cav.mem w x := by
  rw [Block.cavSet, physWord_plain h]

/-- One word of DMA0. -/
def Block.dmaWord (b : Block) (w : Nat) (x : Word) : Block := (b.cavSet w x).fabCount 13 1

theorem dmaWord_mem {b : Block} (h : b.cav.remap = []) (w : Nat) (x : Word) : (b.dmaWord w x).cav.mem = cavStoreWord b.cav.mem w x := by
  rw [Block.dmaWord, fabCount_cav, cavSet_mem h]

theorem dmaWord_remap (b : Block) (w : Nat) (x : Word) : (b.dmaWord w x).cav.remap = b.cav.remap := by
  rw [Block.dmaWord, fabCount_cav, Block.cavSet]

theorem dmaWord_changes (b : Block) (w : Nat) (x : Word) : b.changes galTouch [.cav, .trc, .host, .out] (b.dmaWord w x) :=
  changes_counted (cavSet_changes ..) (fabCount_counted ..) (fun _ h => h) (by simp)

theorem dmaIn_succ (b : Block) (w unit : Nat) (data : List Byte) (k : Nat) :
    b.dmaIn w unit data (k + 1) =
      (b.dmaWord w (BitVec.ofNat 72 (natOfBytes (data.take 9)))).dmaIn (w + 1) unit (data.drop unit) k := rfl

theorem dmaIn_changes (unit : Nat) : ∀ (k w : Nat) (data : List Byte) (b : Block),
    b.changes galTouch [.cav, .trc, .host, .out] (b.dmaIn w unit data k)
  | 0, _, _, b => changes_refl _ _ b
  | k + 1, w, data, b => by
    rw [dmaIn_succ]
    exact changes_trans (dmaWord_changes b w _) (dmaIn_changes unit k (w + 1) _ _)

/-- DMA0 touches no byte outside its words. -/
theorem dmaIn_byte (unit : Nat) : ∀ (k w : Nat) (data : List Byte) (b : Block) (key : Nat), b.cav.remap = [] →
    (key / 16 < w ∨ w + k ≤ key / 16) → cavByte (b.dmaIn w unit data k).cav.mem key = cavByte b.cav.mem key
  | 0, _, _, _, _, _, _ => rfl
  | k + 1, w, data, b, key, hr, hk => by
    have hlen : ((bytesOf (BitVec.ofNat 72 (natOfBytes (data.take 9))).toNat 0 9).map some).length = 9 := rfl
    rw [dmaIn_succ, dmaIn_byte unit k (w + 1) _ _ key ((dmaWord_remap ..).trans hr) (by omega), dmaWord_mem hr]
    exact cavByte_cavStore_apart w _ _ 0 key (by rw [hlen]; omega)

/-- DMA0's words hold the first nine bytes of their units. -/
theorem dmaIn_word (unit : Nat) : ∀ (k w : Nat) (data : List Byte) (b : Block), b.cav.remap = [] → ∀ i < k,
    cavWord (b.dmaIn w unit data k).cav.mem (w + i) = BitVec.ofNat 72 (natOfBytes ((data.drop (i * unit)).take 9))
  | 0, _, _, _, _, _, hi => absurd hi (Nat.not_lt_zero _)
  | k + 1, w, data, b, hr, i, hi => by
    have hr' : (b.dmaWord w (BitVec.ofNat 72 (natOfBytes (data.take 9)))).cav.remap = [] := (dmaWord_remap ..).trans hr
    rw [dmaIn_succ]
    cases i with
    | zero =>
      have hkept := cavWord_congr (w := w) fun j _ => dmaIn_byte unit k (w + 1) (data.drop unit) _ (16 * w + j) hr' (by omega)
      rw [Nat.zero_mul, List.drop_zero]
      exact hkept.trans (by rw [dmaWord_mem hr, cavWord_cavStoreWord_same])
    | succ j =>
      have h := dmaIn_word unit k (w + 1) (data.drop unit) _ hr' j (by omega)
      rw [show w + (j + 1) = w + 1 + j by omega, h, List.drop_drop, show unit + j * unit = (j + 1) * unit by
        rw [Nat.succ_mul, Nat.add_comm]]

/-! ### DMA1: words out of Cavern -/

/-- One word of DMA1 that reads without an error. -/
def Block.dmaSends (b : Block) (w unit addr : Nat) : Block :=
  (b.fabCount 13 1).emit (.hostWrite addr (bytesOf (b.cavGet w).toNat 0 unit) false)

theorem dmaOut_succ_good {b : Block} (hc : b.cav.corr = []) (hu : b.cav.uncorr = []) (w unit addr : Nat) (bad : Bool) (k : Nat) :
    b.dmaOut w unit addr bad (k + 1) = (b.dmaSends w unit addr).dmaOut (w + 1) unit (addr + unit) bad k := by
  have hbad : b.cavBad w = false := by simp [Block.cavBad, hu]
  rw [Block.dmaOut, cavTouch_good hc hu, hbad, Bool.or_false]
  rfl

theorem dmaSends_cav (b : Block) (w unit addr : Nat) : (b.dmaSends w unit addr).cav = b.cav := by
  rw [Block.dmaSends, Block.emit_cav, fabCount_cav]

theorem dmaSends_changes (b : Block) (w unit addr : Nat) : b.changes galTouch [.trc, .host, .out] (b.dmaSends w unit addr) :=
  changes_emit (changes_of_counted (fabCount_counted ..)) (by simp)

theorem dmaSends_outs (b : Block) (w unit addr : Nat) :
    .hostWrite addr (bytesOf (b.cavGet w).toNat 0 unit) false :: b.out ⊆ (b.dmaSends w unit addr).out :=
  List.cons_subset_cons _ (fabCount_outs ..)

/-- DMA1 moves the words of Cavern in order; no error is met, and Cavern stays. -/
theorem dmaOut_good (unit : Nat) (bad : Bool) : ∀ (k w addr : Nat) (b : Block), b.cav.corr = [] → b.cav.uncorr = [] →
    (b.dmaOut w unit addr bad k).2 = bad ∧ b.changes galTouch [.trc, .host, .out] (b.dmaOut w unit addr bad k).1 ∧
      b.out ⊆ (b.dmaOut w unit addr bad k).1.out ∧
      ∀ i < k, .hostWrite (addr + i * unit) (bytesOf (b.cavGet (w + i)).toNat 0 unit) false ∈ (b.dmaOut w unit addr bad k).1.out
  | 0, _, _, b, _, _ => ⟨rfl, changes_refl _ _ b, List.Subset.refl _, fun _ h => absurd h (Nat.not_lt_zero _)⟩
  | k + 1, w, addr, b, hc, hu => by
    have hcav := dmaSends_cav b w unit addr
    obtain ⟨h2, hchg, hout, hsent⟩ := dmaOut_good unit bad k (w + 1) (addr + unit) (b.dmaSends w unit addr) (hcav ▸ hc) (hcav ▸ hu)
    rw [dmaOut_succ_good hc hu]
    have hall := List.Subset.trans (dmaSends_outs b w unit addr) hout
    refine ⟨h2, changes_trans (dmaSends_changes ..) hchg, fun _ h => hall (List.mem_cons_of_mem _ h), fun i hi => ?_⟩
    cases i with
    | zero => rw [Nat.zero_mul]; exact hall List.mem_cons_self
    | succ j =>
      have h := hsent j (by omega)
      have hget : (b.dmaSends w unit addr).cavGet (w + 1 + j) = b.cavGet (w + 1 + j) := by
        simp only [Block.cavGet, Block.physWord, hcav]
      rw [hget] at h
      rw [show w + (j + 1) = w + 1 + j by omega, Nat.succ_mul, Nat.add_comm (j * unit), ← Nat.add_assoc]
      exact h

end Sys2Proof.Machine
end

section
/-! The engines as they carry out a descriptor (R87 to R91). -/

namespace Sys2Proof.Machine

/-- An engine with work at HEAD carries its descriptor out. -/
theorem dmaDescriptor_runs {s : State} {n : Fin 4} {d : Desc} {data : List Byte} (h : s.blk.dmaReady n = true) :
    exec (.dmaDescriptor n d data []) s = done s fun b => b.dmaRun n d data := by
  have hb : (if s.blk.dmaReady n then (s.blk.upsets []).dmaRun n d data else s.blk) = s.blk.dmaRun n d data := if_pos h
  exact done_congr hb

theorem dmaRun_in {b : Block} {d : Desc} (h : descCode 0 d = 0) (data : List Byte) :
    b.dmaRun 0 d data = (b.dmaIn d.caddr.toNat (dmaUnit d) data d.len.toNat).dmaEnd 0 d.notify 1 := by
  simp [Block.dmaRun, h, dmaStatus]

theorem dmaRun_out {b : Block} {d : Desc} (h : descCode 1 d = 0) (data : List Byte)
    (hg : (b.dmaOut d.caddr.toNat (dmaUnit d) d.haddr.toNat false d.len.toNat).2 = false) :
    b.dmaRun 1 d data = (b.dmaOut d.caddr.toNat (dmaUnit d) d.haddr.toNat false d.len.toNat).1.dmaEnd 1 d.notify 1 := by
  simp [Block.dmaRun, h, dmaStatus, hg]

theorem dmaRun_frame {b : Block} {d : Desc} (h : descCode 2 d = 0) (hx : b.flag (SWC_IG_STAT_XOFF 32) = false) (data : List Byte) :
    b.dmaRun 2 d data = (b.dmaFrame d 0 (data.take d.len.toNat)).dmaEnd 2 d.notify 1 := by
  simp [Block.dmaRun, h, dmaStatus, hx]

theorem dmaRun_invalid {b : Block} {n : Nat} {d : Desc} (h : descCode n d ≠ 0) (data : List Byte) :
    b.dmaRun n d data = b.dmaEnd n d.notify (1 + descCode n d * 16) := by
  simp [Block.dmaRun, h, dmaStatus]

/-- DMA0 (R87, R89). -/
theorem dma0_moves (s : State) (d : Desc) (data : List Byte) (hrdy : s.blk.dmaReady 0 = true) (hcode : descCode 0 d = 0)
    (hremap : s.blk.cav.remap = []) :
    ∃ t, exec (.dmaDescriptor 0 d data []) s = .next t ∧
      (∀ i < d.len.toNat, cavWord t.blk.cav.mem (d.caddr.toNat + i) =
        BitVec.ofNat 72 (natOfBytes ((data.drop (i * dmaUnit d)).take 9))) ∧
      (∀ key, (key / 16 < d.caddr.toNat ∨ d.caddr.toNat + d.len.toNat ≤ key / 16) →
        cavByte t.blk.cav.mem key = cavByte s.blk.cav.mem key) ∧
      t.blk.get (DMA_HEAD_HEAD 0) = (s.blk.get (DMA_HEAD_HEAD 0) + 1) % 2 ^ s.blk.get (DMA_SIZE_LOG2 0) % 2 ^ 16 ∧
      Out.hostWrite (s.blk.dmaAt 0 + 24) (bytesOf 1 0 8) false ∈ t.blk.out ∧
      FrameF [DMA_HEAD_HEAD 0, HOST_DBCAUSE_DMA] [.cav] s t := by
  have hchg := dmaIn_changes (dmaUnit d) d.len.toNat d.caddr.toNat data s.blk
  obtain ⟨hhead, hstat⟩ := dmaEnd_after (n := 0) (changes_mono hchg (fun _ => dmaTouch_of_galTouch) (List.Subset.refl _))
    (by decide) d.notify 1
  refine done_intro ((dmaDescriptor_runs (n := 0) hrdy).trans (done_congr (g := fun _ => _) (dmaRun_in hcode data))) fun u =>
    ⟨fun i hi => ?_, fun key hk => ?_, hhead, hstat, frameF_intro (changes_mono hchg (fun _ h => h) (by simp)) (dmaEnd_keeps ..)
      (dmaEnd_only ..)⟩
  · rw [Block.withTags_cav, dmaEnd_cav]
    exact dmaIn_word _ _ _ _ _ hremap i hi
  · rw [Block.withTags_cav, dmaEnd_cav]
    exact dmaIn_byte _ _ _ _ _ key hremap hk

end Sys2Proof.Machine
end

section
/-! The engines as they carry out a descriptor: DMA1, DMA2, an invalid descriptor and DMA3 (R87 to R91). -/

namespace Sys2Proof.Machine

/-- DMA1 (R87, R89). -/
theorem dma1_moves (s : State) (d : Desc) (hrdy : s.blk.dmaReady 1 = true) (hcode : descCode 1 d = 0) (hc : s.blk.cav.corr = [])
    (hu : s.blk.cav.uncorr = []) :
    ∃ t, exec (.dmaDescriptor 1 d [] []) s = .next t ∧
      (∀ i < d.len.toNat, Out.hostWrite (d.haddr.toNat + i * dmaUnit d)
        (bytesOf (s.blk.cavGet (d.caddr.toNat + i)).toNat 0 (dmaUnit d)) false ∈ t.blk.out) ∧
      Out.hostWrite (s.blk.dmaAt 1 + 24) (bytesOf 1 0 8) false ∈ t.blk.out ∧
      FrameF [DMA_HEAD_HEAD 1, HOST_DBCAUSE_DMA] [] s t := by
  obtain ⟨hgood, hchg, -, hsent⟩ := dmaOut_good (dmaUnit d) false d.len.toNat d.caddr.toNat d.haddr.toNat s.blk hc hu
  obtain ⟨-, hstat⟩ := dmaEnd_after (n := 1) (changes_mono hchg (fun _ => dmaTouch_of_galTouch) (List.Subset.refl _))
    (by decide) d.notify 1
  exact done_intro ((dmaDescriptor_runs (n := 1) hrdy).trans (done_congr (g := fun _ => _) (dmaRun_out hcode [] hgood))) fun u =>
    ⟨fun i hi => dmaEnd_outs_before _ _ _ _ (hsent i hi), hstat,
      frameF_intro (changes_mono hchg (fun _ h => h) (by simp)) (dmaEnd_keeps ..) (dmaEnd_only ..)⟩

theorem dmaFrame_changes (touch : Nat → Bool) (b : Block) (d : Desc) (bad : Nat) (l : List Byte) :
    b.changes touch [.sw] (b.dmaFrame d bad l) :=
  changes_of_only rfl (by simp [Block.only, Block.dmaFrame, Block.toCore, Block.mapSw])

/-- DMA2 (R90). -/
theorem dma2_moves (s : State) (d : Desc) (data : List Byte) (hrdy : s.blk.dmaReady 2 = true) (hcode : descCode 2 d = 0)
    (hx : s.blk.flag (SWC_IG_STAT_XOFF 32) = false) :
    ∃ t, exec (.dmaDescriptor 2 d data []) s = .next t ∧
      (∃ f : InFrame, t.blk.sw.ingress = s.blk.sw.ingress ++ [f] ∧ f.src = 32 ∧ f.bytes = data.take d.len.toNat ∧
        f.cls = d.cls.toNat ∧ f.bad = 0) ∧
      Out.hostWrite (s.blk.dmaAt 2 + 24) (bytesOf 1 0 8) false ∈ t.blk.out ∧
      Frame [DMA_HEAD_HEAD 2, HOST_DBCAUSE_DMA, EVT_PEND_PEND, EVT_OVR_OVR] [.sw, .host, .out] s t := by
  have hchg := dmaFrame_changes dmaTouch s.blk d 0 (data.take d.len.toNat)
  obtain ⟨-, hstat⟩ := dmaEnd_after (n := 2) hchg (by decide) d.notify 1
  refine done_intro ((dmaDescriptor_runs (n := 2) hrdy).trans (done_congr (g := fun _ => _) (dmaRun_frame hcode hx data))) fun u =>
    ⟨⟨s.blk.ownFrame 32 d.port.toNat d.cls.toNat false s.blk.cyc.count 0 (data.take d.len.toNat), ?_, rfl, rfl, rfl, rfl⟩, hstat,
      frame_intro (keeps_trans (keeps_of_regs (c := s.blk.dmaFrame d 0 (data.take d.len.toNat)) rfl) (dmaEnd_keeps ..))
        (only_trans (only_mono hchg.2 (by simp)) (only_mono (dmaEnd_only ..) (by simp)))⟩
  rw [Block.withTags_sw, only_sw (dmaEnd_only ..) (by simp)]
  rfl

/-- An invalid descriptor moves nothing (R91). -/
theorem dma_invalid (s : State) (n : Fin 4) (d : Desc) (data : List Byte) (hrdy : s.blk.dmaReady n = true)
    (hcode : descCode n d ≠ 0) :
    ∃ t, exec (.dmaDescriptor n d data []) s = .next t ∧
      Out.hostWrite (s.blk.dmaAt n + 24) (bytesOf (1 + descCode n d * 16) 0 8) false ∈ t.blk.out ∧
      Frame [DMA_HEAD_HEAD n, HOST_DBCAUSE_DMA, EVT_PEND_PEND, EVT_OVR_OVR] [.host, .out] s t :=
  done_intro ((dmaDescriptor_runs hrdy).trans (done_congr (g := fun _ => _) (dmaRun_invalid hcode data))) fun _ =>
    ⟨mem_dmaEnd_status .., frame_intro (dmaEnd_keeps ..) (dmaEnd_only ..)⟩

/-! ### DMA3 -/

theorem queueUpdate_only (b : Block) (p c : Nat) : b.only [.host, .out] (b.queueUpdate p c) := by
  unfold Block.queueUpdate
  simp only
  split
  · exact only_refl _ _
  · split
    · exact only_raise (only_put (only_put (only_putB (only_setBit (only_refl _ _))))) (by simp)
    · split
      · exact put_only _ _ _ _
      · exact only_refl _ _

theorem sourceUpdate_cav (b : Block) (s : Nat) : (b.sourceUpdate s).cav = b.cav :=
  only_cav (sourceUpdate_changes (touch := fun _ => true) (fun _ _ => rfl) ⟨rfl, rfl⟩ b).2 (by simp [flowParts])

theorem freeFrame_cav (b : Block) (id : Nat) : (b.freeFrame id).cav = b.cav := by
  unfold Block.freeFrame
  split
  · rfl
  · rw [sourceUpdate_cav]
    rfl

theorem release_cav (b : Block) (id : Nat) : (b.release id).cav = b.cav := by
  unfold Block.release
  split
  · rfl
  · split
    · exact freeFrame_cav b id
    · rfl

theorem countUp_cav (b : Block) (a n : Nat) : (b.countUp a n).cav = b.cav :=
  only_cav (countUp_changes (touch := fun _ => true) (fun _ _ => rfl) b n rfl).2 (by simp)

theorem unqueue_cav (b : Block) (x : Copy) : (b.unqueue x).cav = b.cav := by
  rw [Block.unqueue, only_cav (queueUpdate_only ..) (by simp)]
  rfl

theorem resequenced_cav (b : Block) (x : Copy) : (b.resequenced x).cav = b.cav := only_cav (fabEvent_counted ..).2 (by simp)

/-- The frame leaves as it stands, and the descriptor completes. -/
theorem dmaDeliver_good {b0 b b1 : Block} {d : Desc} {ups : List CellUpset} {x : Copy} {sf : SFrame}
    (hb : b = (b0.reachPhys (b0.leaveAt 32)).fetchAhead 32 ups 0 (b0.sw.copies.filter (fun y => y.port == 32)))
    (hx : b.nextCopy 32 40 = (b1, some x)) (hf : b1.frameOf x.fid = some sf) (hue : sf.errs.any (·.ue) = false) :
    b0.dmaDeliver d ups =
      ((((((if sf.f.src < 32 then b1 else b1.freeStep).unqueue x).resequenced x).emit
        (.hostWrite d.haddr.toNat (b1.hostBytes sf.f ++ fcsOf (b1.hostBytes sf.f)) false)).release x.fid).countUp
          (SWC_EC_CNT 32 x.cls 1) 1).dmaEnd 3 d.notify (dmaStatus 0 + ((b1.hostBytes sf.f).length + 4) % 2 ^ 14 * 2 ^ 16 +
            (if sf.f.src < 32 then sf.f.src else b1.freeNext 31) * 2 ^ 32 + sf.f.cls % 8 * 2 ^ 38) := by
  rw [Block.dmaDeliver]
  simp only [← hb, hx, hf, hue, Bool.false_eq_true, if_false]

/-- DMA3 with a frame that no uncorrectable error has met (R87, R89). -/
theorem dma3_moves (s : State) (d : Desc) (ups : List CellUpset) (b b1 : Block) (x : Copy) (sf : SFrame)
    (hrdy : s.blk.dmaReady 3 = true) (hcode : descCode 3 d = 0) (hen : s.blk.flag (SWC_PORT_CTL_EN 32) = true)
    (hb : b = (s.blk.reachPhys (s.blk.leaveAt 32)).fetchAhead 32 ups 0 (s.blk.sw.copies.filter (fun y => y.port == 32)))
    (hx : b.nextCopy 32 40 = (b1, some x)) (hf : b1.frameOf x.fid = some sf) (hue : sf.errs.any (·.ue) = false) :
    ∃ t, exec (.dma3FrameDeliver d ups) s = .next t ∧
      Out.hostWrite d.haddr.toNat (b1.hostBytes sf.f ++ fcsOf (b1.hostBytes sf.f)) false ∈ t.blk.out ∧
      t.blk.cav = b1.cav ∧ t.pending = s.pending := by
  have hrun : (s.blk.dmaReady 3 && descCode 3 d == 0 && s.blk.flag (SWC_PORT_CTL_EN 32)) = true := by simp [hrdy, hcode, hen]
  have hstep : exec (.dma3FrameDeliver d ups) s = done s (Block.dmaDeliver · d ups) := done_congr (if_pos hrun)
  have hdel := dmaDeliver_good (d := d) hb hx hf hue
  refine done_intro hstep fun u => ?_
  rw [hdel]
  refine ⟨?_, ?_, rfl⟩
  · refine dmaEnd_outs_before _ _ _ _ (countUp_outs _ _ _ (release_outs _ _ ?_))
    exact List.mem_cons_self
  · rw [Block.withTags_cav, dmaEnd_cav, countUp_cav, release_cav, Block.emit_cav, resequenced_cav, unqueue_cav]
    split <;> rfl

end Sys2Proof.Machine
end

section
/-! How an engine stops and starts again (R91 to R93). -/

namespace Sys2Proof.Machine

theorem errTouch_of_dmaTouch {a : Nat} (h : dmaTouch a = false) : errTouch a = false := by
  simp only [dmaTouch, Bool.or_eq_false_iff] at h
  obtain ⟨⟨-, herr⟩, -⟩ := h
  exact herr

theorem dmaTouch_ctl {n : Nat} (hn : n < 4) : dmaTouch (DMA_CTL n) = false :=
  dmaTouch_dma (by simp only [DMA_CTL]; omega) (by simp only [DMA_CTL]; omega)

/-- HALT, ERR and the host error of an engine that stops (R91). -/
theorem dmaHalt_shows (b : Block) {n err : Nat} (hn : n < 4) (herr : err < 16) (cause addr : Nat) :
    (b.dmaHalt n err cause addr).flag (DMA_CTL_HALT n) = true ∧ (b.dmaHalt n err cause addr).get (DMA_CTL_ERR n) = err ∧
      (b.dmaHalt n err cause addr).get HOST_ERRCAUSE_CODE = cause % 16 := by
  have hchg := hostErr_changes ((b.putB (DMA_CTL_HALT n) true).put (DMA_CTL_ERR n) err) cause addr
  have hctl := errTouch_of_dmaTouch (dmaTouch_ctl hn)
  refine ⟨?_, ?_, hostErr_code ..⟩
  · rw [Block.dmaHalt, changes_flag hchg hctl, Block.flag_put_apart _ _ _ _ (.inr (.inr (by decide : 1 + 1 ≤ 4))),
      Block.flag_putB_same _ _ _ (by decide : 1 + 1 ≤ 72) rfl]
  · rw [Block.dmaHalt, changes_get hchg hctl, Block.get_put_same _ _ _ (by decide : 4 + 4 ≤ 72)]
    exact Nat.mod_eq_of_lt herr

theorem dmaHalt_keeps (b : Block) (n err cause addr : Nat) :
    b.keeps [DMA_CTL_HALT n, DMA_CTL_ERR n, HOST_ERRCAUSE_CODE, HOST_ERRCAUSE_CNT, HOST_ERRADDR_ADDR, EVT_PEND_PEND, EVT_OVR_OVR]
      (b.dmaHalt n err cause addr) :=
  keeps_hostErr (keeps_put (keeps_putB (keeps_refl _ b) (by simp)) (by simp)) (by simp)

theorem dmaHalt_only (b : Block) (n err cause addr : Nat) : b.only [.host, .out] (b.dmaHalt n err cause addr) :=
  only_hostErr (only_put (only_putB (only_refl _ b))) (by simp)

/-- A read that is not answered (R91). -/
theorem dmaTimeout_halts (s : State) (n : Fin 4) (addr : Half) (hrdy : s.blk.dmaReady n = true) :
    ∃ t, exec (.dmaCplTimeout n addr) s = .next t ∧
    t.blk.flag (DMA_CTL_HALT n) = true ∧ t.blk.get (DMA_CTL_ERR n) = 1 ∧ t.blk.get HOST_ERRCAUSE_CODE = 7 ∧
    t.blk.tm.phys = s.blk.tm.phys + s.blk.get HOST_CTO_MS * 1000000 * nsUnit ∧
    Frame [DMA_CTL_HALT n, DMA_CTL_ERR n, HOST_ERRCAUSE_CODE, HOST_ERRCAUSE_CNT, HOST_ERRADDR_ADDR, EVT_PEND_PEND,
      EVT_OVR_OVR] [.tm, .host, .out] s t := by
  have hstep : exec (.dmaCplTimeout n addr) s =
      done s fun _ => ((s.blk.advanceNs (s.blk.get HOST_CTO_MS * 1000000)).pciError 14).dmaHalt n 1 7 addr.toNat :=
    done_congr (if_pos hrdy)
  obtain ⟨hhalt, herr, hcode⟩ := dmaHalt_shows ((s.blk.advanceNs (s.blk.get HOST_CTO_MS * 1000000)).pciError 14) n.isLt
    (by decide : 1 < 16) 7 addr.toNat
  have hwait : s.blk.only [.tm, .host, .out] ((s.blk.advanceNs (s.blk.get HOST_CTO_MS * 1000000)).pciError 14) := by
    simp [Block.only, Block.pciError]
  have hregs : ((s.blk.advanceNs (s.blk.get HOST_CTO_MS * 1000000)).pciError 14).regs = s.blk.regs := rfl
  have htm : ((s.blk.advanceNs (s.blk.get HOST_CTO_MS * 1000000)).pciError 14).tm.phys =
      s.blk.tm.phys + s.blk.get HOST_CTO_MS * 1000000 * nsUnit := rfl
  generalize (s.blk.advanceNs (s.blk.get HOST_CTO_MS * 1000000)).pciError 14 = c at *
  refine done_intro hstep fun u => ⟨hhalt, herr, hcode, ?_, frame_intro ?_ ?_⟩
  · rw [Block.withTags_tm, only_tm (dmaHalt_only ..) (by simp), htm]
  · exact keeps_trans (keeps_of_regs hregs) (dmaHalt_keeps ..)
  · exact only_trans hwait (only_mono (dmaHalt_only ..) (by simp))

/-- A read that is answered with an error (R91). -/
theorem dmaError_halts (s : State) (n : Fin 4) (err : Fin 3) (addr : Half) (hrdy : s.blk.dmaReady n = true) :
    ∃ t, exec (.dmaCplError n err addr) s = .next t ∧
      t.blk.flag (DMA_CTL_HALT n) = true ∧ t.blk.get (DMA_CTL_ERR n) = 2 + err.val ∧ t.blk.get HOST_ERRCAUSE_CODE = 8 ∧
      Frame [DMA_CTL_HALT n, DMA_CTL_ERR n, HOST_ERRCAUSE_CODE, HOST_ERRCAUSE_CNT, HOST_ERRADDR_ADDR, EVT_PEND_PEND,
        EVT_OVR_OVR] [.host, .out] s t := by
  have hstep : exec (.dmaCplError n err addr) s = done s fun b => b.dmaHalt n (2 + err.val) 8 addr.toNat := done_congr (if_pos hrdy)
  obtain ⟨hhalt, herr, hcode⟩ := dmaHalt_shows s.blk n.isLt (show 2 + err.val < 16 by omega) 8 addr.toNat
  exact done_intro hstep fun u => ⟨hhalt, herr, hcode, frame_intro (dmaHalt_keeps ..) (dmaHalt_only ..)⟩

/-! ### A disable (R92) -/

theorem dmaDisable_acts {s : State} (hf : s.blk.hostFree = true) (n : Fin 4) (prog : Option (Desc × List Byte)) (moved : Nat) :
    exec (.dmaDisable n prog moved) s = done s (Block.dmaDisableAct n prog moved) := done_byHost hf _ _

theorem dmaDisable_idle (s : State) (n : Fin 4) (hf : s.blk.hostFree = true) :
    ∃ t, exec (.dmaDisable n none 0) s = .next t ∧ t.blk.flag (DMA_CTL_EN n) = false ∧ Frame [DMA_CTL_EN n] [] s t :=
  done_intro (dmaDisable_acts hf n none 0) fun _ =>
    ⟨Block.flag_putB_same s.blk (DMA_CTL_EN n) false (by decide : 0 + 1 ≤ 72) rfl, frame_intro (put_keeps ..) (put_only ..)⟩

/-- The parts that the transfer of a descriptor's data changes. -/
def dmaParts : List Part := [.cav, .trc, .host, .out, .strikes, .retired, .retRec, .sw]

section
variable {b c : Block}

theorem changes_dmaCount (h : b.changes dmaTouch dmaParts c) (e n : Nat) : b.changes dmaTouch dmaParts (c.fabCount e n) :=
  changes_counted h (fabCount_counted ..) (fun _ => dmaTouch_of_galTouch) (by simp [dmaParts])

theorem changes_dmaEmit (h : b.changes dmaTouch dmaParts c) (o : Out) : b.changes dmaTouch dmaParts (c.emit o) :=
  changes_emit h (by simp [dmaParts])

theorem changes_dmaErr (h : b.changes dmaTouch dmaParts c) (code addr : Nat) : b.changes dmaTouch dmaParts (c.hostErr code addr) :=
  changes_trans h (changes_mono (hostErr_changes ..) (fun _ => dmaTouch_of_errTouch) (by simp [dmaParts]))

end

theorem pageOut_changes (b : Block) (page : Nat) : b.changes dmaTouch dmaParts (b.pageOut page) := by
  have hret : b.changes dmaTouch dmaParts (b.retire ⟨7, page⟩) := by
    refine ⟨fun a ha => (retire_keeps b _).2 a fun f hf => ?_, only_mono (retire_only b _) (by simp [dmaParts])⟩
    rintro rfl
    rw [List.mem_singleton.1 hf] at ha
    exact absurd ha (by decide)
  unfold Block.pageOut
  simp only
  split
  · exact changes_part hret rfl (by simp [Block.only, dmaParts])
  · exact changes_raise hret (fun _ h => dmaTouch_of_galTouch (galTouch_of_evTouch h)) (by simp [dmaParts])

theorem pageStrike_changes (b : Block) (w : Nat) : b.changes dmaTouch dmaParts (b.pageStrike w) := by
  have hstrike (c : Channel) : b.changes dmaTouch dmaParts (b.strike c) :=
    ⟨fun a _ => (strike_keeps b c).2 a (by simp), only_mono (strike_only b c) (by simp [dmaParts])⟩
  unfold Block.pageStrike
  split
  · exact changes_trans (hstrike _) (pageOut_changes _ _)
  · exact hstrike _

theorem cavTouch_changes (b : Block) (w : Nat) : b.changes dmaTouch dmaParts (b.cavTouch w) := by
  unfold Block.cavTouch
  simp only
  split
  · refine changes_trans (c := { b with cav := { b.cav with corr := b.cav.corr.filter (· ≠ b.physWord w) } }) ?_
      (pageStrike_changes _ _)
    exact changes_of_only rfl (by simp [Block.only, dmaParts])
  · split
    · exact pageStrike_changes _ _
    · exact changes_refl _ _ b

theorem dmaOut_changes (unit : Nat) : ∀ (k w addr : Nat) (bad : Bool) (b : Block),
    b.changes dmaTouch dmaParts (b.dmaOut w unit addr bad k).1
  | 0, _, _, _, b => changes_refl _ _ b
  | k + 1, w, addr, bad, b => by
    rw [Block.dmaOut]
    refine changes_trans ?_ (dmaOut_changes unit k (w + 1) (addr + unit) _ _)
    have hsend := changes_dmaEmit (changes_dmaCount (cavTouch_changes b w) 13 1)
      (.hostWrite addr (bytesOf (b.cavGet w).toNat 0 unit) (b.cavBad w))
    split
    · exact changes_dmaErr hsend _ _
    · exact hsend

theorem dmaInPart_changes (b : Block) (w : Nat) (data : List Byte) (k : Nat) : b.changes dmaTouch dmaParts (b.dmaInPart w data k) := by
  unfold Block.dmaInPart
  split
  · exact changes_refl _ _ b
  · exact changes_dmaCount (changes_mono (cavSet_changes ..) (fun _ => dmaTouch_of_galTouch) (by simp [dmaParts])) _ _

theorem dmaOutPart_changes (b : Block) (d : Desc) (moved : Nat) : b.changes dmaTouch dmaParts (b.dmaOutPart d moved) := by
  unfold Block.dmaOutPart
  split
  · simp only
    split
    · exact changes_refl _ _ b
    · exact changes_dmaEmit (changes_refl _ _ b) _
  · exact changes_refl _ _ b

/-- What lies moved of a descriptor's data when it is aborted (R92). -/
def Block.dmaMoved (b : Block) (n : Nat) (d : Desc) (data : List Byte) (moved : Nat) : Block :=
  let u := dmaUnit d
  let bytes := min (d.len.toNat * u) (64 * moved)
  let words := bytes / u
  let part := bytes % u
  if descCode n d ≠ 0 then b
  else if n = 0 then
    (b.dmaIn d.caddr.toNat u data words).dmaInPart (d.caddr.toNat + words) (data.drop (words * u)) (min 9 part)
  else if n = 1 then
    let b2 := (b.dmaOut d.caddr.toNat u d.haddr.toNat false words).1
    if part = 0 then b2 else (b2.dmaOut (d.caddr.toNat + words) part (d.haddr.toNat + words * u) false 1).1
  else if n = 2 then (if moved = 0 then b else b.dmaFrame d 2 (data.take (min d.len.toNat (64 * moved))))
  else b.dmaOutPart d moved

theorem dmaAbort_eq (b : Block) (n : Nat) (d : Desc) (data : List Byte) (moved : Nat) :
    b.dmaAbort n d data moved = (b.dmaMoved n d data moved).dmaEnd n false 17 := rfl

theorem dmaMoved_changes (b : Block) (n : Nat) (d : Desc) (data : List Byte) (moved : Nat) :
    b.changes dmaTouch dmaParts (b.dmaMoved n d data moved) := by
  unfold Block.dmaMoved
  simp only
  split
  · exact changes_refl _ _ b
  · split
    · exact changes_trans (changes_mono (dmaIn_changes ..) (fun _ => dmaTouch_of_galTouch) (by simp [dmaParts]))
        (dmaInPart_changes ..)
    · split
      · split
        · exact dmaOut_changes ..
        · exact changes_trans (dmaOut_changes ..) (dmaOut_changes ..)
      · split
        · split
          · exact changes_refl _ _ b
          · exact changes_mono (dmaFrame_changes dmaTouch ..) (fun _ h => h) (by simp [dmaParts])
        · exact dmaOutPart_changes ..

theorem dmaDisable_aborts (s : State) (n : Fin 4) (d : Desc) (data : List Byte) (moved : Nat) (hf : s.blk.hostFree = true)
    (hrdy : s.blk.dmaReady n = true) :
    ∃ t, exec (.dmaDisable n (some (d, data)) moved) s = .next t ∧ t.blk.flag (DMA_CTL_EN n) = false ∧
      t.blk.get (DMA_HEAD_HEAD n) = (s.blk.get (DMA_HEAD_HEAD n) + 1) % 2 ^ s.blk.get (DMA_SIZE_LOG2 n) % 2 ^ 16 ∧
      Out.hostWrite (s.blk.dmaAt n + 24) (bytesOf 17 0 8) false ∈ t.blk.out ∧ t.pending = s.pending := by
  obtain ⟨hhead, hstat⟩ := dmaEnd_after (dmaMoved_changes s.blk n d data moved) n.isLt false 17
  have hact : Block.dmaDisableAct n (some (d, data)) moved s.blk =
      ((s.blk.dmaMoved n d data moved).dmaEnd n false 17).putB (DMA_CTL_EN n) false := by
    rw [Block.dmaDisableAct, ← dmaAbort_eq]
    simp only [hrdy, if_true]
  refine done_intro ((dmaDisable_acts hf n _ moved).trans (done_congr (g := fun _ => _) hact)) fun u =>
    ⟨Block.flag_putB_same _ (DMA_CTL_EN n) false (by decide : 0 + 1 ≤ 72) rfl, ?_, hstat, rfl⟩
  rw [Block.withTags_get, Block.get_putB_apart _ _ _ _ (.inl (by simp only [DMA_CTL, DMA_HEAD]; omega))]
  exact hhead

/-! ### RESUME (R93) -/

theorem getLsbD_resume (data : Half) (i : Nat) : (data ||| 256).getLsbD i = (data.getLsbD i || decide (i = 8)) := by
  rw [BitVec.getLsbD_or]
  congr 1
  by_cases hi : i < 64
  · have hall : ∀ i < 64, BitVec.getLsbD (256 : Half) i = decide (i = 8) := by decide
    exact hall i hi
  · rw [BitVec.getLsbD_of_ge _ _ (by omega)]
    exact (decide_eq_false (by omega)).symm

/-- EN as written, HALT and ERR cleared. -/
def Block.dmaFree (b : Block) (n : Nat) (en : Bool) : Block :=
  ((b.putB (DMA_CTL_EN n) en).putB (DMA_CTL_HALT n) false).put (DMA_CTL_ERR n) 0

theorem dmaResume_acts {s : State} (hf : s.blk.hostFree = true) (n : Fin 4) (data : Half) :
    exec (.dmaResume n data) s = done s fun b =>
      (if b.dmaReady n && !data.getLsbD 0 then b.dmaEnd n false 17 else b).dmaFree n (data.getLsbD 0) := by
  refine (done_byHost hf _ _).trans (done_congr ?_)
  simp only [Block.dmaCtl, getLsbD_resume]
  simp [Block.dmaFree, dmaStatus]

theorem dmaFree_shows (b : Block) (n : Nat) (en : Bool) : (b.dmaFree n en).flag (DMA_CTL_EN n) = en ∧
    (b.dmaFree n en).flag (DMA_CTL_HALT n) = false ∧ (b.dmaFree n en).get (DMA_CTL_ERR n) = 0 := by
  simp [Block.dmaFree]

theorem dmaFree_keeps (b : Block) (n : Nat) (en : Bool) :
    b.keeps [DMA_CTL_EN n, DMA_CTL_HALT n, DMA_CTL_ERR n] (b.dmaFree n en) :=
  keeps_put (keeps_putB (keeps_putB (keeps_refl _ b) (by simp)) (by simp)) (by simp)

theorem dmaFree_only (ps : List Part) (b : Block) (n : Nat) (en : Bool) : b.only ps (b.dmaFree n en) :=
  only_put (only_putB (only_putB (only_refl _ b)))

theorem dmaResume_frees (s : State) (n : Fin 4) (data : Half) (hf : s.blk.hostFree = true)
    (hen : s.blk.dmaReady n = true → data.getLsbD 0 = true) :
    ∃ t, exec (.dmaResume n data) s = .next t ∧
    t.blk.flag (DMA_CTL_EN n) = data.getLsbD 0 ∧ t.blk.flag (DMA_CTL_HALT n) = false ∧ t.blk.get (DMA_CTL_ERR n) = 0 ∧
    Frame [DMA_CTL_EN n, DMA_CTL_HALT n, DMA_CTL_ERR n] [] s t := by
  have hno : ¬ (s.blk.dmaReady n && !data.getLsbD 0) = true := by
    simp only [Bool.and_eq_true, Bool.not_eq_true', not_and, Bool.not_eq_false]
    exact hen
  obtain ⟨hE, hH, hR⟩ := dmaFree_shows s.blk n (data.getLsbD 0)
  refine done_intro ((dmaResume_acts hf n data).trans (done_congr (g := fun b => b.dmaFree n (data.getLsbD 0)) ?_)) fun _ =>
    ⟨hE, hH, hR, frame_intro (dmaFree_keeps ..) (dmaFree_only ..)⟩
  rw [if_neg hno]

theorem dmaResume_aborts (s : State) (n : Fin 4) (data : Half) (hf : s.blk.hostFree = true) (hrdy : s.blk.dmaReady n = true)
    (hen : data.getLsbD 0 = false) :
    ∃ t, exec (.dmaResume n data) s = .next t ∧ t.blk.flag (DMA_CTL_EN n) = false ∧
      t.blk.get (DMA_HEAD_HEAD n) = (s.blk.get (DMA_HEAD_HEAD n) + 1) % 2 ^ s.blk.get (DMA_SIZE_LOG2 n) % 2 ^ 16 ∧
      t.blk.out = .hostWrite (s.blk.dmaAt n + 24) (bytesOf 17 0 8) false :: s.blk.out ∧
      Frame [DMA_CTL_EN n, DMA_CTL_HALT n, DMA_CTL_ERR n, DMA_HEAD_HEAD n] [.out] s t := by
  have hact : (if s.blk.dmaReady n && !data.getLsbD 0 then s.blk.dmaEnd n false 17 else s.blk).dmaFree n (data.getLsbD 0) =
      (s.blk.dmaEnd n false 17).dmaFree n false := by rw [hrdy, hen]; rfl
  have hapart : ∀ f ∈ [DMA_CTL_EN n.val, DMA_CTL_HALT n.val, DMA_CTL_ERR n.val], apart f (DMA_HEAD_HEAD n) := by
    simp [apart]
  obtain ⟨hE, -, -⟩ := dmaFree_shows (s.blk.dmaEnd n false 17) n false
  refine done_intro ((dmaResume_acts hf n data).trans (done_congr (g := fun _ => _) hact)) fun _ =>
    ⟨hE, ((dmaFree_keeps (s.blk.dmaEnd n false 17) n false).1 _ hapart).trans (dmaEnd_head _ n.isLt ..), rfl,
      frame_intro ?_ ?_⟩
  · exact keeps_trans (keeps_put (keeps_emit (keeps_refl _ s.blk)) (by simp)) (keeps_mono (dmaFree_keeps ..) (by simp))
  · exact only_trans (only_put (only_emit (only_refl _ s.blk) (by simp))) (dmaFree_only ..)

/-- Settles O7: the four engines with a valid descriptor, an invalid one, and the ways an engine stops and starts again. -/
theorem dmaEngines : Obligations.DmaEngines := by
  unfold Obligations.DmaEngines
  exact ⟨dma0_moves, dma1_moves, dma2_moves, dma_invalid, dma3_moves, dmaTimeout_halts, dmaError_halts, dmaDisable_idle,
    dmaDisable_aborts, dmaResume_frees, dmaResume_aborts⟩

end Sys2Proof.Machine
end

section
/-! Requests that wait for credits, and why the statement on them fails: PROFILE_GO joins the queue as the write with GO set that it
stands for, so a command whose data lacks GO is not itself what waits. -/

namespace Sys2Proof.Machine

/-- The state after reset with one request, EVT_SET, waiting for credits. -/
def creditState : State := { blk := { Block.reset with host := { Block.reset.host with backlog := [.evtSet 0] } }, pending := [] }

/-- Behind a request that waits for credits a write waits too (R73). -/
theorem byHost_backlog {b : Block} (h : b.host.backlog ≠ []) (cmd : Instr) (act : Block → Block) :
    (byHost cmd act b).host.backlog = b.host.backlog ++ [cmd] := by
  have hfull : b.host.backlog.isEmpty = false := by simpa using h
  have hmay : b.hostMay cmd = false := by simp [Block.hostMay, hfull]
  simp [byHost, hmay, Block.enqueueReq, hfull]

/-- PROFILE_GO waits as the write with GO set. -/
theorem profileGo_waits {s : State} (h : s.blk.host.backlog ≠ []) (data : Half) :
    ∃ t, exec (.profileGo data) s = .next t ∧ t.blk.host.backlog = s.blk.host.backlog ++ [.profileGo (data ||| 4)] :=
  done_intro (exec_profileGo s) fun _ => byHost_backlog h _ _

/-- Refutes O5: in `creditState` PROFILE_GO with data 0 comes to wait, and what then waits is PROFILE_GO with data 4. -/
theorem not_heldOffAccesses : ¬ Obligations.HeldOffAccesses := by
  unfold Obligations.HeldOffAccesses
  rintro ⟨-, -, -, -, -, -, -, hwaits⟩
  have hne : creditState.blk.host.backlog ≠ [] := List.cons_ne_nil _ _
  obtain ⟨t, ht, hback, -⟩ := hwaits creditState (.profileGo 0) rfl (.inl hne)
  obtain ⟨t', ht', hback'⟩ := profileGo_waits hne 0
  have heq : t = t' := Host.Outcome.next.inj (ht.symm.trans ht')
  have hlast := List.append_cancel_left ((heq ▸ hback).symm.trans hback')
  simp at hlast

end Sys2Proof.Machine
end

section
/-! RDLT, RDPOS and P2T as they execute (R124, R125, R153), and their statement. -/

namespace Sys2Proof.Machine

/-- An operand register reads at the first tick as it stands. -/
theorem gaA_atFirst (b : Block) (e : Fin 16) (f : FormA) : gaA (b.atFirst e) e f = (b.eng[e]).rd f.a := by
  simp only [gaA, atFirst_eng]

section
variable {s : State} {e : Fin 16} {f : FormA} {o : Op} {act : Block → Act} {cost : Nat}
  (h : s.blk.stands e (encodeA o.code f) (checkA o f) f.psel)
include h

/-- An instruction that writes a register executes. -/
theorem runA_putReg {d : BitVec 6} {v : Word} (ha : act (s.blk.atFirst e) = putReg e d v cost (s.blk.atFirst e)) :
    ∃ t, runA o e f .none act s = .next t ∧ Computes e (fun x => x.wr d v) cost s t :=
  leadsTo_intro (done_go act h ha) fun _ => computes_mapE (counted_refl _) (wr_use _ _ _)

/-- An instruction that writes a register pair executes (R144). -/
theorem runA_putPair {d : BitVec 6} {v w : Word} (ha : act (s.blk.atFirst e) = putPair e d v w cost (s.blk.atFirst e)) :
    ∃ t, runA o e f .none act s = .next t ∧ Computes e (fun x => (x.wr d v).wr (d + 1) w) cost s t :=
  leadsTo_intro (done_go act h ha) fun _ => computes_mapE (counted_refl _) (by simp only [wr_use])

end

/-- Settles O21: each instruction writes what its query gives at its first tick, where the operands stand as before it. -/
theorem galleryTimes : Obligations.GalleryTimes := by
  unfold Obligations.GalleryTimes
  refine ⟨fun s e f h heven => ?_, fun s e f h hodd => ?_, fun s e f h => ?_, fun s e f h => ?_⟩
  · exact runA_putPair h (by rw [if_pos heven])
  · exact runA_putReg h (by rw [if_neg (by omega)]; rfl)
  · exact runA_putPair h (by simp only [gaA_atFirst]; rfl)
  · exact runA_putPair h (by simp only [gaA_atFirst])

end Sys2Proof.Machine
end

section
/-! SUPPORT. Line axes: what the operations on one axis may change, and what they leave in its state (R105, R112, R119, R123, R127). -/

namespace Sys2Proof.Machine

/-! ### One axis replaced -/

section
variable (b : Block) (n : Fin 16) (x : Axis)

@[simp] theorem setAxis_regs : (b.setAxis n x).regs = b.regs := rfl

@[simp] theorem setAxis_reg (a : Nat) : (b.setAxis n x).reg a = b.reg a := rfl

@[simp] theorem setAxis_get (f : Field) : (b.setAxis n x).get f = b.get f := rfl

theorem setAxis_same : (b.setAxis n x).axes[n] = x := by simp [Block.setAxis]

@[simp] theorem setAxis_val : (b.setAxis n x).axes[n.val] = x := setAxis_same b n x

theorem setAxis_ne {m : Fin 16} (h : m ≠ n) : (b.setAxis n x).axes[m] = b.axes[m] := by
  have hv : n.val ≠ m.val := fun hv => h (Fin.ext hv.symm)
  simp [Block.setAxis, Vector.getElem_set_ne, hv]

theorem setAxis_only : b.only [.axes] (b.setAxis n x) := by simp [Block.only, Block.setAxis]

end

theorem axisRegs_own {n k : Nat} (hlo : 0x51000 ≤ k) (hhi : k < 0x51200) : axisRegs n (k + 0x200 * n) = true := by
  simp only [axisRegs, within, LAN_AXCFG, Bool.or_eq_true, Bool.and_eq_true, decide_eq_true_eq]
  omega

theorem axisRegs_shared (n : Nat) : axisRegs n LAN_QCAUSE = true ∧ axisRegs n EVT_PEND = true ∧ axisRegs n EVT_OVR = true := by
  simp [axisRegs]

/-- `c` is `b` but for axis `n`, the fields and the parts listed. -/
structure Block.axisStep (n : Fin 16) (fs : List Field) (ps : List Part) (b c : Block) : Prop where
  keeps : b.keeps fs c
  only : b.only (.axes :: ps) c
  others : ∀ m : Fin 16, m ≠ n → c.axes[m] = b.axes[m]

section
variable {n : Fin 16} {fs : List Field} {ps : List Part} {b c d : Block}

theorem axisStep_refl (n : Fin 16) (fs : List Field) (ps : List Part) (b : Block) : b.axisStep n fs ps b :=
  ⟨keeps_refl _ b, only_refl _ b, fun _ _ => rfl⟩

theorem axisStep_trans (h1 : b.axisStep n fs ps c) (h2 : c.axisStep n fs ps d) : b.axisStep n fs ps d :=
  ⟨keeps_trans h1.keeps h2.keeps, only_trans h1.only h2.only, fun m hm => (h2.others m hm).trans (h1.others m hm)⟩

theorem axisStep_mono {gs : List Field} {qs : List Part} (h : b.axisStep n fs ps c) (hf : fs ⊆ gs) (hp : ps ⊆ qs) :
    b.axisStep n gs qs c :=
  ⟨keeps_mono h.keeps hf, only_mono h.only (List.cons_subset_cons _ hp), h.others⟩

/-- What leaves the axes alone. -/
theorem axisStep_frame (h : b.axisStep n fs ps c) (hk : c.keeps fs d) (ho : c.only ps d) (ha : d.axes = c.axes) :
    b.axisStep n fs ps d :=
  axisStep_trans h ⟨hk, only_mono ho (List.subset_cons_self _ _), fun m _ => by rw [ha]⟩

theorem axisStep_setAxis (h : b.axisStep n fs ps c) (x : Axis) : b.axisStep n fs ps (c.setAxis n x) :=
  axisStep_trans h ⟨keeps_of_regs rfl, only_mono (setAxis_only c n x) (by simp), fun _ hm => setAxis_ne c n x hm⟩

theorem axisStep_put {f : Field} {v : Nat} (h : b.axisStep n fs ps c) (hf : f ∈ fs) : b.axisStep n fs ps (c.put f v) :=
  axisStep_frame h (keeps_mono (put_keeps c f v) (by simpa using hf)) (put_only _ _ _ _) rfl

theorem axisStep_putB {f : Field} {v : Bool} (h : b.axisStep n fs ps c) (hf : f ∈ fs) : b.axisStep n fs ps (c.putB f v) :=
  axisStep_put h hf

theorem axisStep_setReg {a : Nat} {v : Word} (h : b.axisStep n fs ps c) (hf : ⟨a, 0, 72⟩ ∈ fs) :
    b.axisStep n fs ps (c.setReg a v) :=
  axisStep_frame h (keeps_mono (setReg_keeps c a v) (by simpa using hf)) (setReg_only _ _ _ _) rfl

theorem axisStep_frameOn {s : State} {u : SMap (BitVec 8)} (h : s.blk.axisStep n fs ps c)
    (hf : ∀ f ∈ fs, axisRegs n f.addr = true) : FrameOn (axisRegs n) (.axes :: ps) s ⟨c.withTags u, s.pending⟩ := by
  refine ⟨fun a ha => h.keeps.2 a fun f hm e => ?_, h.only, rfl⟩
  rw [e, hf f hm] at ha
  exact Bool.noConfusion ha

end

/-! ### The state of an axis (Table 3-4) -/

/-- The fields that a change of an axis's state touches. -/
def stateFields (n : Nat) : List Field := [LAN_AXSTAT_STATE n, LAN_QCAUSE_AXCHG, EVT_PEND_PEND, EVT_OVR_OVR]

theorem stateFields_regs {n : Nat} : ∀ f ∈ stateFields n, axisRegs n f.addr = true := by
  obtain ⟨hcause, hpend, hovr⟩ := axisRegs_shared n
  simp only [stateFields, List.forall_mem_cons, List.not_mem_nil, false_implies, implies_true, and_true]
  exact ⟨axisRegs_own (k := 0x51040) (by decide) (by decide), hcause, hpend, hovr⟩

/-- A field of an axis that is not the state itself. -/
theorem stateFields_apart {n m k lo w : Nat} (hlo : 0x51000 ≤ k) (hhi : k < 0x51200) (h : k ≠ 0x51040 ∨ 3 ≤ lo) :
    ∀ f ∈ stateFields n, apart f ⟨k + 0x200 * m, lo, w⟩ := by
  simp only [stateFields, List.forall_mem_cons, List.not_mem_nil, false_implies, implies_true, and_true, apart, LAN_AXSTAT,
    LAN_QCAUSE, EVT_PEND, EVT_OVR]
  omega

@[simp] theorem raise_axes (b : Block) (k : Nat) : (b.raise k).axes = b.axes := by
  obtain ⟨-, -, -, -, h, -⟩ := raise_only b k
  exact h (by simp)

section
variable (b : Block) (n k st : Nat) (p : WaitSlot → Bool)

@[simp] theorem markWaits_regs : (b.markWaits n st p).regs = b.regs := rfl

@[simp] theorem markWaits_axes : (b.markWaits n st p).axes = b.axes := rfl

theorem markWaits_only : b.only [.eng] (b.markWaits n st p) := by simp [Block.only, Block.markWaits]

@[simp] theorem recompute_regs : (b.recompute n).regs = b.regs := rfl

@[simp] theorem recompute_axes : (b.recompute n).axes = b.axes := rfl

theorem recompute_only : b.only [.eng] (b.recompute n) := by simp [Block.only, Block.recompute]

/-- The block as a changed state is shown and raised, before the waits of the axis end. -/
def Block.stateShown : Block := ((b.put (LAN_AXSTAT_STATE n) st).setBit LAN_QCAUSE_AXCHG n).raise evLanternQual

theorem setAxState_eq : b.setAxState n st =
    if b.axState n = st then b else if st = 0 ∨ st = 4 then (b.stateShown n st).markWaits n 5 (fun _ => true) else b.stateShown n st := by
  simp [Block.setAxState, Block.stateShown]

theorem stateShown_keeps : b.keeps (stateFields n) (b.stateShown n st) :=
  keeps_raise (keeps_setBit (keeps_put (keeps_refl _ b) (by simp [stateFields])) (by simp [stateFields])) (by simp [stateFields])
    (by simp [stateFields])

theorem stateShown_only : b.only [.host, .out] (b.stateShown n st) :=
  only_raise (only_put (only_put (only_refl _ b))) (List.Subset.refl _)

@[simp] theorem stateShown_axes : (b.stateShown n st).axes = b.axes := by simp [Block.stateShown, Block.setBit]

theorem stateShown_state {st : Nat} (h : st < 8) : (b.stateShown n st).axState n = st := by
  have hr : (b.stateShown n st).get (LAN_AXSTAT_STATE n) = (b.put (LAN_AXSTAT_STATE n) st).get (LAN_AXSTAT_STATE n) := by
    rw [Block.stateShown, raise_get _ _ _ (by simp only [EVT_PEND, LAN_AXSTAT]; omega) (by simp only [EVT_OVR, LAN_AXSTAT]; omega)]
    exact Block.get_put_apart _ _ _ _ (.inl (by simp only [LAN_QCAUSE, LAN_AXSTAT]; omega))
  rw [Block.axState, hr, Block.get_put_same _ _ _ (by simp)]
  exact Nat.mod_eq_of_lt h

@[simp] theorem setAxState_axes : (b.setAxState n st).axes = b.axes := by
  rw [setAxState_eq]
  split
  · rfl
  · split
    · exact stateShown_axes b n st
    · exact stateShown_axes b n st

theorem setAxState_keeps : b.keeps (stateFields n) (b.setAxState n st) := by
  rw [setAxState_eq]
  split
  · exact keeps_refl _ b
  · split
    · exact keeps_part (stateShown_keeps b n st) rfl
    · exact stateShown_keeps b n st

theorem setAxState_only : b.only [.eng, .host, .out] (b.setAxState n st) := by
  rw [setAxState_eq]
  split
  · exact only_refl _ b
  · split
    · exact only_trans (only_mono (stateShown_only b n st) (by simp)) (only_mono (markWaits_only _ n 5 _) (by simp))
    · exact only_mono (stateShown_only b n st) (by simp)

/-- A state that ends no wait leaves the engines alone. -/
theorem setAxState_only_runs {st : Nat} (h0 : st ≠ 0) (h4 : st ≠ 4) : b.only [.host, .out] (b.setAxState n st) := by
  rw [setAxState_eq]
  split
  · exact only_refl _ b
  · rw [if_neg (by omega)]
    exact stateShown_only b n st

theorem setAxState_state {st : Nat} (h : st < 8) : (b.setAxState n st).axState n = st := by
  rw [setAxState_eq]
  split
  · assumption
  · split
    · exact stateShown_state b n h
    · exact stateShown_state b n h

end

theorem axisStep_setAxState {n : Fin 16} {fs : List Field} {ps : List Part} {b c : Block} (h : b.axisStep n fs ps c) (st : Nat)
    (hf : stateFields n ⊆ fs) (hp : [.eng, .host, .out] ⊆ ps) : b.axisStep n fs ps (c.setAxState n st) :=
  axisStep_frame h (keeps_mono (setAxState_keeps c n st) hf) (only_mono (setAxState_only c n st) hp) (setAxState_axes c n st)

end Sys2Proof.Machine
end

section
/-! SUPPORT. An axis takes an input: a sample, or a faulty interval (R112, R115, R119, R121, R123). -/

namespace Sys2Proof.Machine

/-- The fields that an input of axis `n` may touch. -/
def inputFields (n : Nat) : List Field :=
  [LAN_AXEB_EB n, LAN_AXSTAT_NSAMP n, LAN_AXSTAT_FAULTS n, ⟨LAN_AXZCAP n, 0, 72⟩] ++ stateFields n

/-- The parts that an input of an axis may touch beside the axes. -/
def inputParts : List Part := [.eng, .free, .host, .out]

theorem stateFields_sub (n : Nat) : stateFields n ⊆ inputFields n := List.subset_append_right _ _

/-! ### The error bound (R123) -/

section
variable {n : Fin 16} {fs : List Field} {ps : List Part} {b c : Block}

theorem updateEb_cases (b : Block) (n : Fin 16) : ∃ v, b.updateEb n = b.put (LAN_AXEB_EB n) v ∨
    b.updateEb n = (b.put (LAN_AXEB_EB n) v).freeStep := by
  unfold Block.updateEb
  simp only
  split
  · exact ⟨_, .inl rfl⟩
  · split
    · split
      · exact ⟨_, .inr rfl⟩
      · exact ⟨_, .inl rfl⟩
    · exact ⟨_, .inl rfl⟩

@[simp] theorem updateEb_axes (b : Block) (n : Fin 16) : (b.updateEb n).axes = b.axes := by
  obtain ⟨v, h | h⟩ := updateEb_cases b n <;> rw [h] <;> rfl

theorem axisStep_updateEb (h : b.axisStep n fs ps c) (hf : LAN_AXEB_EB n ∈ fs) (hp : .free ∈ ps) :
    b.axisStep n fs ps (c.updateEb n) := by
  obtain ⟨v, h' | h'⟩ := updateEb_cases c n
  · rw [h']
    exact axisStep_put h hf
  · rw [h']
    exact axisStep_frame (axisStep_put h hf) (keeps_of_regs rfl) (by simp [Block.only, Block.freeStep, hp]) rfl

theorem axisStep_markWaits (h : b.axisStep n fs ps c) (hp : .eng ∈ ps) (k st : Nat) (p : WaitSlot → Bool) :
    b.axisStep n fs ps (c.markWaits k st p) :=
  axisStep_frame h (keeps_of_regs rfl) (only_mono (markWaits_only c k st p) (by simp [hp])) rfl

theorem axisStep_recompute (h : b.axisStep n fs ps c) (hp : .eng ∈ ps) (k : Nat) : b.axisStep n fs ps (c.recompute k) :=
  axisStep_frame h (keeps_of_regs rfl) (only_mono (recompute_only c k) (by simp [hp])) rfl

end

/-! ### A faulty interval (R112) -/

section
variable (b : Block) (n : Fin 16)

/-- The axis once a faulty interval has been counted. -/
def Block.faultedAxis : Axis :=
  { b.axes[n] with faultRun := (b.axes[n]).faultRun + 1,
                   applied := if b.axState n = 1 then 0 else (b.axes[n]).applied }

theorem faultyInterval_axis : (b.faultyInterval n).axes[n] = b.faultedAxis n := by
  unfold Block.faultyInterval
  simp only [updateEb_axes, beq_iff_eq, apply_ite Block.axes, setAxState_axes, ite_self, Block.faultedAxis, Block.put_axes]
  split
  · rw [setAxis_same]
  · rw [setAxis_same]

theorem faultyInterval_step : b.axisStep n (inputFields n) inputParts (b.faultyInterval n) := by
  unfold Block.faultyInterval
  simp only
  have hcount : ∀ x, b.axisStep n (inputFields n) inputParts ((b.incSat (LAN_AXSTAT_FAULTS n) 1).setAxis n x) := fun x =>
    axisStep_setAxis (axisStep_put (axisStep_refl n _ _ b) (by simp [inputFields])) x
  refine axisStep_updateEb ?_ (by simp [inputFields]) (by simp [inputParts])
  have hfail : ∀ {c}, b.axisStep n (inputFields n) inputParts c → ∀ st, b.axisStep n (inputFields n) inputParts (c.setAxState n st) :=
    fun h st => axisStep_setAxState h st (stateFields_sub n) (by simp [inputParts])
  have hrun : b.axisStep n (inputFields n) inputParts (if b.axState n == 1 then
      ((b.incSat (LAN_AXSTAT_FAULTS n) 1).setAxis n { b.axes[n] with faultRun := (b.axes[n]).faultRun + 1, applied := 0 }).put
        (LAN_AXSTAT_NSAMP n) 0
      else (b.incSat (LAN_AXSTAT_FAULTS n) 1).setAxis n { b.axes[n] with faultRun := (b.axes[n]).faultRun + 1 }) := by
    split
    · exact axisStep_put (hcount _) (by simp [inputFields])
    · exact hcount _
  split
  · split
    · exact hfail (hfail hrun _) _
    · exact hfail hrun _
  · split
    · exact hfail hrun _
    · exact hrun

end

end Sys2Proof.Machine
end

section
/-! SUPPORT. An axis takes a sample, with or without an edge, and what it holds of its source (R115, R119, R121, R122). -/

namespace Sys2Proof.Machine

/-- What an axis holds of its source: the raw value, and whether it awaits a frame. -/
def Axis.held (x : Axis) : Int × Bool := (x.raw, x.ssiBusy)

theorem applySample_held (x : Axis) (z : Int) (s : Word) (k : Nat) : (applySample x z s k).held = x.held := by
  unfold applySample
  split
  · rfl
  · simp only
    split
    · rfl
    · rfl

section
variable (b : Block) (n : Fin 16)

theorem faultyInterval_held : ((b.faultyInterval n).axes[n]).held = (b.axes[n]).held := by
  rw [faultyInterval_axis]
  rfl

/-! ### A sample -/

/-- The axis once a sample has been applied. -/
def Block.sampledAxis (raw : Int) (s : Word) : Axis :=
  { applySample (b.axes[n]) (b.samplePos n raw * 2 ^ 24) s (b.gainSet n) with faultRun := 0 }

theorem afterSample_axis : (b.afterSample n).axes[n] = { b.axes[n] with faultRun := 0 } := by
  unfold Block.afterSample
  simp only [updateEb_axes, apply_ite Block.axes, setAxState_axes, ite_self, Block.incSat_axes]
  rw [setAxis_same]

theorem afterSample_step : b.axisStep n (inputFields n) inputParts (b.afterSample n) := by
  unfold Block.afterSample
  simp only
  have hcount : b.axisStep n (inputFields n) inputParts
      ((b.setAxis n { b.axes[n] with faultRun := 0 }).incSat (LAN_AXSTAT_NSAMP n) 1) :=
    axisStep_put (axisStep_setAxis (axisStep_refl n _ _ b) _) (by simp [inputFields])
  refine axisStep_updateEb ?_ (by simp [inputFields]) (by simp [inputParts])
  split
  · exact axisStep_setAxState hcount 2 (stateFields_sub n) (by simp [inputParts])
  · exact hcount

theorem applyRaw_counts {raw : Int} {s : Word} (h : sampleCounts (b.axes[n]) s = true) :
    (b.applyRaw n raw s).axes[n] = b.sampledAxis n raw s := by
  simp only [Block.applyRaw, if_pos h, recompute_axes, markWaits_axes]
  rw [afterSample_axis, setAxis_same]
  rfl

theorem applyRaw_held (raw : Int) (s : Word) : ((b.applyRaw n raw s).axes[n]).held = (b.axes[n]).held := by
  by_cases h : sampleCounts (b.axes[n]) s = true
  · rw [applyRaw_counts b n h]
    exact applySample_held _ _ _ _
  · rw [Block.applyRaw, if_neg h]

theorem applyRaw_step (raw : Int) (s : Word) : b.axisStep n (inputFields n) inputParts (b.applyRaw n raw s) := by
  unfold Block.applyRaw
  simp only
  split
  · refine axisStep_recompute (axisStep_markWaits ?_ (by simp [inputParts]) _ _ _) (by simp [inputParts]) _
    exact axisStep_trans (axisStep_setAxis (axisStep_refl n _ _ b) _) (afterSample_step _ n)
  · exact axisStep_refl n _ _ b

/-! ### An interval without an edge (R121), and an index (R115) -/

theorem edgeless_cases (inst : Word) (last : Int) :
    b.edgeless n inst last = b ∨ ∃ raw, b.edgeless n inst last = b.applyRaw n raw inst := by
  unfold Block.edgeless
  simp only
  split
  · exact .inl rfl
  · exact (ite_eq_or_eq _ _ _).elim (fun h => .inr ⟨_, h⟩) .inl

theorem edgeless_held (inst : Word) (last : Int) : ((b.edgeless n inst last).axes[n]).held = (b.axes[n]).held := by
  obtain h | ⟨raw, h⟩ := edgeless_cases b n inst last
  · rw [h]
  · rw [h, applyRaw_held]

theorem edgeless_step (inst : Word) (last : Int) : b.axisStep n (inputFields n) inputParts (b.edgeless n inst last) := by
  obtain h | ⟨raw, h⟩ := edgeless_cases b n inst last
  · rw [h]
    exact axisStep_refl n _ _ b
  · rw [h]
    exact applyRaw_step b n raw inst

theorem indexRebase_held (stamp : Word) : ((b.indexRebase n stamp).axes[n]).held = (b.axes[n]).held := by
  unfold Block.indexRebase
  simp only
  split
  · rw [setAxis_same]
    rfl
  · rfl

theorem indexRebase_step (stamp : Word) : b.axisStep n (inputFields n) inputParts (b.indexRebase n stamp) := by
  unfold Block.indexRebase
  simp only
  have hcap : ∀ v, b.axisStep n (inputFields n) inputParts (b.setReg (LAN_AXZCAP n) v) := fun v =>
    axisStep_setReg (axisStep_refl n _ _ b) (by simp [inputFields])
  split
  · exact axisStep_setAxis (hcap _) _
  · exact hcap _

/-! ### What a sample instant brings -/

/-- The block once a faultless interval has ended and its index has been acted on. -/
def Block.indexed (x : SampleIn) : Block :=
  match x.idx with
  | some st => ((b.setAxis n { b.axes[n] with faultRun := 0 }).indexRebase n st).recompute n
  | none => b.setAxis n { b.axes[n] with faultRun := 0 }

theorem indexed_held (x : SampleIn) : ((b.indexed n x).axes[n]).held = (b.axes[n]).held := by
  unfold Block.indexed
  split
  · rw [recompute_axes, indexRebase_held, setAxis_same]
    rfl
  · rw [setAxis_same]
    rfl

theorem indexed_step (x : SampleIn) : b.axisStep n (inputFields n) inputParts (b.indexed n x) := by
  have hrun : b.axisStep n (inputFields n) inputParts (b.setAxis n { b.axes[n] with faultRun := 0 }) :=
    axisStep_setAxis (axisStep_refl n _ _ b) _
  unfold Block.indexed
  split
  · exact axisStep_recompute (axisStep_trans hrun (indexRebase_step _ n _)) (by simp [inputParts]) _
  · exact hrun

/-- What an input leads to: nothing in OFF and FAULT, a faulty interval, a sample, or an interval without one. -/
theorem applyInput_eq (x : SampleIn) : b.applyInput n x =
    if b.axState n = 0 ∨ b.axState n = 4 then b else if x.faulty = true then b.faultyInterval n
    else match x.sample, x.last with
      | some (st, raw), _ => ((b.indexed n x).setAxis n { (b.indexed n x).axes[n] with raw := raw }).applyRaw n raw st
      | none, some c => (b.indexed n x).edgeless n x.inst c
      | none, none => b.indexed n x := by
  simp only [Block.applyInput, Bool.or_eq_true, beq_iff_eq]
  rfl

theorem applyInput_step (x : SampleIn) : b.axisStep n (inputFields n) inputParts (b.applyInput n x) := by
  rw [applyInput_eq]
  split
  · exact axisStep_refl n _ _ b
  · split
    · exact faultyInterval_step b n
    · split
      · exact axisStep_trans (axisStep_setAxis (indexed_step b n x) _) (applyRaw_step _ n _ _)
      · exact axisStep_trans (indexed_step b n x) (edgeless_step _ n _ _)
      · exact indexed_step b n x

/-- An input whose sample the axis already holds as its raw value leaves what the axis holds of its source. -/
theorem applyInput_held (x : SampleIn) (h : ∀ st raw, x.sample = some (st, raw) → raw = (b.axes[n]).raw) :
    ((b.applyInput n x).axes[n]).held = (b.axes[n]).held := by
  rw [applyInput_eq]
  split
  · rfl
  · split
    · exact faultyInterval_held b n
    · have hind := indexed_held b n x
      have hbusy : ((b.indexed n x).axes[n]).ssiBusy = (b.axes[n]).ssiBusy := congrArg Prod.snd hind
      split
      · rename_i st raw hs
        rw [applyRaw_held, setAxis_same, h st raw hs]
        exact Prod.ext rfl hbusy
      · rw [edgeless_held, hind]
      · exact hind

end

end Sys2Proof.Machine
end

section
/-! A write of LAN_AXCFG: the fields it stores, a new source (R606), and RESTART (R111). -/

namespace Sys2Proof.Machine

/-- The fields that a write of LAN_AXCFG stores beside SRC. -/
def cfgFields (n : Nat) : List Field :=
  [LAN_AXCFG_ENC n, LAN_AXCFG_TS n, LAN_AXCFG_GAIN n, LAN_AXCFG_COAST n, LAN_AXCFG_DIR n, LAN_AXCFG_ZREF n]

/-- The fields that a new source of axis `n` touches. -/
def sourceFields (n : Nat) : List Field :=
  [LAN_AXCFG_SRC n, LAN_AXSTAT_NSAMP n, LAN_AXKCTL_FREE n, LAN_AXEB_EB n] ++ stateFields n

theorem sourceFields_regs {n : Nat} : ∀ f ∈ cfgFields n ++ sourceFields n, axisRegs n f.addr = true := by
  have hown : ∀ k ∈ [0x51000, 0x51040, 0x510c0, 0x51070], axisRegs n (k + 0x200 * n) = true := fun k hk =>
    axisRegs_own (by revert k; decide) (by revert k; decide)
  simp only [List.forall_mem_cons, List.not_mem_nil, false_implies, implies_true, and_true] at hown
  obtain ⟨hcfg, hstat, hkctl, heb⟩ := hown
  simp only [cfgFields, sourceFields, List.cons_append, List.nil_append, List.forall_mem_cons]
  exact ⟨hcfg, hcfg, hcfg, hcfg, hcfg, hcfg, hcfg, hstat, hkctl, heb, stateFields_regs⟩

/-- The block once the fields beside SRC are stored; an axis on another encoder awaits no frame. -/
def Block.cfgStored (b : Block) (n : Fin 16) (data : Half) : Block :=
  if (b.storeAxCfg n data.toNat).get (LAN_AXCFG_ENC n) = b.get (LAN_AXCFG_ENC n) then b.storeAxCfg n data.toNat
  else (b.storeAxCfg n data.toNat).setAxis n { (b.storeAxCfg n data.toNat).axes[n] with ssiBusy := false }

theorem axisSrcWrite_eq (b : Block) (n : Fin 16) (data : Half) :
    Block.axisSrcWrite n data b = (b.cfgStored n data).axisSrc n (data.toNat % 8) := rfl

section
variable (b : Block) (n : Fin 16) (data : Half)

/-- What every write of a field beside SRC keeps, the store of LAN_AXCFG keeps. -/
theorem storeAxCfg_induct {P : Block → Prop} (n d : Nat) (hput : ∀ c f v, f ∈ cfgFields n → P c → P (c.put f v)) (hb : P b) :
    P (b.storeAxCfg n d) := by
  unfold Block.storeAxCfg
  simp only
  have hif : ∀ {c c' : Block} {p : Prop} [Decidable p], P c → P c' → P (if p then c' else c) := fun hc hc' => by
    split <;> assumption
  have henc : P (b.put (LAN_AXCFG_ENC n) (d / 2 ^ 3)) := hput _ _ _ (by simp [cfgFields]) hb
  have hts := hif (p := d / 2 ^ 5 % 16 ≤ 10) henc (hput _ (LAN_AXCFG_TS n) (d / 2 ^ 5) (by simp [cfgFields]) henc)
  have hgain := hput _ (LAN_AXCFG_GAIN n) (d / 2 ^ 9) (by simp [cfgFields]) hts
  have hcoast := hif (p := 1 ≤ d / 2 ^ 11 % 16) hgain (hput _ (LAN_AXCFG_COAST n) (d / 2 ^ 11) (by simp [cfgFields]) hgain)
  have hdir := hput _ (LAN_AXCFG_DIR n) (d / 2 ^ 15) (by simp [cfgFields]) hcoast
  exact hif hdir (hput _ _ _ (by simp [cfgFields]) hdir)

theorem storeAxCfg_keeps (n d : Nat) : b.keeps (cfgFields n) (b.storeAxCfg n d) :=
  storeAxCfg_induct b n d (fun _ _ _ hf h => keeps_put h hf) (keeps_refl _ b)

theorem storeAxCfg_only (n d : Nat) : b.only [] (b.storeAxCfg n d) :=
  storeAxCfg_induct b n d (fun _ _ _ _ h => only_put h) (only_refl _ b)

theorem storeAxCfg_axes (n d : Nat) : (b.storeAxCfg n d).axes = b.axes :=
  storeAxCfg_induct (P := fun c => c.axes = b.axes) b n d (fun _ _ _ _ h => h) rfl

theorem cfgStored_step : b.axisStep n (cfgFields n) [] (b.cfgStored n data) := by
  have hstore : b.axisStep n (cfgFields n) [] (b.storeAxCfg n data.toNat) :=
    axisStep_frame (axisStep_refl n _ _ b) (storeAxCfg_keeps b n _) (storeAxCfg_only b n _) (storeAxCfg_axes b n _)
  unfold Block.cfgStored
  split
  · exact hstore
  · exact axisStep_setAxis hstore _

/-- A write of LAN_AXCFG leaves axis `n` but for the frame that it awaits. -/
theorem cfgStored_axis : ∃ busy, (b.cfgStored n data).axes[n] = { b.axes[n] with ssiBusy := busy } := by
  unfold Block.cfgStored
  split
  · exact ⟨(b.axes[n]).ssiBusy, by simp only [storeAxCfg_axes]⟩
  · exact ⟨false, by rw [setAxis_same]; simp only [storeAxCfg_axes]⟩

theorem cfgStored_src : (b.cfgStored n data).get (LAN_AXCFG_SRC n) = b.get (LAN_AXCFG_SRC n) :=
  (cfgStored_step b n data).keeps.1 _ (by simp [cfgFields, apart])

theorem cfgStored_state : (b.cfgStored n data).axState n = b.axState n :=
  (cfgStored_step b n data).keeps.1 _ (by simp [cfgFields, apart])

/-! ### A new source (R606) -/

theorem axisOff_step : b.axisStep n (sourceFields n) [.eng, .host, .out] (b.axisOff n) := by
  refine axisStep_setAxState (axisStep_put (axisStep_put (axisStep_put (axisStep_setAxis (axisStep_refl n _ _ b) _) ?_) ?_) ?_) 0
    (List.subset_append_right _ _) (List.Subset.refl _) <;> simp [sourceFields]

theorem axisOff_axis : ((b.axisOff n).axes[n]).base = 0 ∧ ((b.axisOff n).axes[n]).queue = [] := by
  simp [Block.axisOff, Axis.reset]

theorem axisOff_shows : (b.axisOff n).axState n = 0 ∧ (b.axisOff n).get (LAN_AXSTAT_NSAMP n) = 0 ∧
    (b.axisOff n).get (LAN_AXKCTL_FREE n) = 4 := by
  refine ⟨setAxState_state _ n (by decide), ?_, ?_⟩
  · refine ((setAxState_keeps _ n 0).1 _ (stateFields_apart (by decide) (by decide) (.inr (by decide)))).trans ?_
    simp
  · refine ((setAxState_keeps _ n 0).1 _ (stateFields_apart (by decide) (by decide) (.inl (by decide)))).trans ?_
    simp

theorem axisAcquire_step (src : Nat) : b.axisStep n (LAN_AXEB_EB n :: stateFields n) [.eng, .host, .out] (b.axisAcquire n src) :=
  axisStep_setAxState (axisStep_put (axisStep_setAxis (axisStep_refl n _ _ b) _) (by simp)) 1 (List.subset_cons_self _ _)
    (List.Subset.refl _)

theorem axisAcquire_axis (src : Nat) : ((b.axisAcquire n src).axes[n]).base = (b.axes[n]).base ∧
    ((b.axisAcquire n src).axes[n]).queue = (b.axes[n]).queue := by
  simp [Block.axisAcquire]

/-- A field of the axis that acquiring leaves as it was: of another register than the state and the error bound. -/
theorem axisAcquire_get (src : Nat) {k lo w : Nat} (hlo : 0x51000 ≤ k) (hhi : k < 0x51200) (h : k ≠ 0x51040 ∨ 3 ≤ lo)
    (heb : k ≠ 0x51070) : (b.axisAcquire n src).get ⟨k + 0x200 * n, lo, w⟩ = b.get ⟨k + 0x200 * n, lo, w⟩ := by
  refine (axisAcquire_step b n src).keeps.1 _ (List.forall_mem_cons.mpr ⟨.inl ?_, stateFields_apart hlo hhi h⟩)
  simp only [LAN_AXEB]
  omega

/-- The block once a new source is stored and, unless it is none, the axis acquires from it. -/
def Block.sourced (b : Block) (n : Fin 16) (src : Nat) : Block :=
  if src = 0 then (b.axisOff n).put (LAN_AXCFG_SRC n) src else ((b.axisOff n).put (LAN_AXCFG_SRC n) src).axisAcquire n src

theorem axisSrc_new {src : Nat} (h4 : src ≤ 4) (hne : src ≠ b.get (LAN_AXCFG_SRC n)) : b.axisSrc n src = b.sourced n src := by
  simp [Block.axisSrc, Block.sourced, hne, Nat.not_lt.mpr h4]

theorem axisSrc_same {src : Nat} (h : src = b.get (LAN_AXCFG_SRC n)) : b.axisSrc n src = b := by
  simp [Block.axisSrc, h]

theorem sourced_step (src : Nat) : b.axisStep n (sourceFields n) [.eng, .host, .out] (b.sourced n src) := by
  have hoff : b.axisStep n (sourceFields n) [.eng, .host, .out] ((b.axisOff n).put (LAN_AXCFG_SRC n) src) :=
    axisStep_put (axisOff_step b n) (by simp [sourceFields])
  unfold Block.sourced
  split
  · exact hoff
  · exact axisStep_trans hoff (axisStep_mono (axisAcquire_step _ n src)
      (List.subset_append_right [LAN_AXCFG_SRC n, LAN_AXSTAT_NSAMP n, LAN_AXKCTL_FREE n] _) (List.Subset.refl _))

theorem sourced_axis (src : Nat) : ((b.sourced n src).axes[n]).base = 0 ∧ ((b.sourced n src).axes[n]).queue = [] := by
  obtain ⟨hbase, hqueue⟩ := axisOff_axis b n
  unfold Block.sourced
  split
  · exact ⟨hbase, hqueue⟩
  · obtain ⟨hb, hq⟩ := axisAcquire_axis ((b.axisOff n).put (LAN_AXCFG_SRC n) src) n src
    exact ⟨hb.trans hbase, hq.trans hqueue⟩

theorem sourced_shows {src : Nat} (h4 : src ≤ 4) : (b.sourced n src).get (LAN_AXCFG_SRC n) = src ∧
    (b.sourced n src).axState n = (if src = 0 then 0 else 1) ∧ (b.sourced n src).get (LAN_AXSTAT_NSAMP n) = 0 ∧
    (b.sourced n src).get (LAN_AXKCTL_FREE n) = 4 := by
  obtain ⟨hstate, hsamp, hfree⟩ := axisOff_shows b n
  have hsrc : ((b.axisOff n).put (LAN_AXCFG_SRC n) src).get (LAN_AXCFG_SRC n) = src :=
    (Block.get_put_same _ _ _ (by simp)).trans (Nat.mod_eq_of_lt (Nat.lt_of_le_of_lt h4 (by decide : 4 < 2 ^ 3)))
  have hput : ∀ {g : Field}, LAN_AXCFG n ≠ g.addr → ((b.axisOff n).put (LAN_AXCFG_SRC n) src).get g = (b.axisOff n).get g :=
    fun hg => Block.get_put_apart _ _ _ _ (.inl hg)
  unfold Block.sourced
  split
  · exact ⟨hsrc, (hput (by simp)).trans hstate, (hput (by simp)).trans hsamp, (hput (by simp)).trans hfree⟩
  · refine ⟨?_, setAxState_state _ n (by decide), ?_, ?_⟩
    · exact (axisAcquire_get _ n src (by decide) (by decide) (.inl (by decide)) (by decide)).trans hsrc
    · exact (axisAcquire_get _ n src (by decide) (by decide) (.inr (by decide)) (by decide)).trans ((hput (by simp)).trans hsamp)
    · exact (axisAcquire_get _ n src (by decide) (by decide) (.inl (by decide)) (by decide)).trans ((hput (by simp)).trans hfree)

/-- Another source: the axis starts again from OFF (R606). -/
theorem axisSrcWrite_sources (s : State) (n : Fin 16) (data : Half) (hf : s.blk.hostFree = true) (hs : s.blk.synced = false)
    (h4 : data.toNat % 8 ≤ 4) (hne : data.toNat % 8 ≠ s.blk.get (LAN_AXCFG_SRC n)) :
    ∃ t, exec (.axisSrcWrite n data) s = .next t ∧ t.blk.get (LAN_AXCFG_SRC n) = data.toNat % 8 ∧
      t.blk.axState n = (if data.toNat % 8 = 0 then 0 else 1) ∧ t.blk.get (LAN_AXSTAT_NSAMP n) = 0 ∧
      t.blk.get (LAN_AXKCTL_FREE n) = 4 ∧ (t.blk.axes[n]).base = 0 ∧ (t.blk.axes[n]).queue = [] ∧
      (∀ m : Fin 16, m ≠ n → t.blk.axes[m] = s.blk.axes[m]) ∧ FrameOn (axisRegs n) [.axes, .eng, .host, .out] s t := by
  have hact : Block.axisSrcWrite n data s.blk = (s.blk.cfgStored n data).sourced n (data.toNat % 8) := by
    rw [axisSrcWrite_eq]
    exact axisSrc_new _ n h4 (by rwa [cfgStored_src])
  obtain ⟨hsrc, hstate, hsamp, hfree⟩ := sourced_shows (s.blk.cfgStored n data) n h4
  obtain ⟨hbase, hqueue⟩ := sourced_axis (s.blk.cfgStored n data) n (data.toNat % 8)
  have hstep : s.blk.axisStep n (cfgFields n ++ sourceFields n) [.eng, .host, .out]
      ((s.blk.cfgStored n data).sourced n (data.toNat % 8)) :=
    axisStep_trans (axisStep_mono (cfgStored_step s.blk n data) (by simp) (by simp))
      (axisStep_mono (sourced_step _ n _) (by simp) (List.Subset.refl _))
  refine leadsTo_intro ((exec_axisSrcWrite s).trans ((done_journaled hf hs _ _).trans (done_leadsTo hact))) fun u =>
    ⟨hsrc, hstate, hsamp, hfree, hbase, hqueue, hstep.others, axisStep_frameOn hstep sourceFields_regs⟩

/-! ### RESTART (R111) -/

/-- The axis without its base: the estimator shifts with it, and ZREF 1 is armed again. -/
def Axis.rebased (x : Axis) : Axis := { x with p := x.p - x.base * 2 ^ 24, base := 0, zArmed := true }

theorem axisRestart_eq (h4 : (Block.axisSrcWrite n data b).axState n ≠ 4) : Block.axisRestart n data b =
    (Block.axisSrcWrite n data b).setAxis n ((Block.axisSrcWrite n data b).axes[n]).rebased := by
  have hno : ((Block.axisSrcWrite n data b).axState n == 4) = false := by simpa using h4
  simp only [Block.axisRestart, Block.axState, setAxis_get] at hno ⊢
  simp only [hno, Bool.false_and, Bool.false_eq_true, if_false]
  rfl

/-- RESTART with the source in force: the base goes to 0 and the estimator shifts with it. -/
theorem axisRestart_rebases (s : State) (n : Fin 16) (data : Half) (hf : s.blk.hostFree = true) (hs : s.blk.synced = false)
    (hsrc : data.toNat % 8 = s.blk.get (LAN_AXCFG_SRC n)) (h4 : s.blk.axState n ≠ 4) :
    ∃ t, exec (.axisRestart n data) s = .next t ∧ (t.blk.axes[n]).base = 0 ∧
      (t.blk.axes[n]).p = (s.blk.axes[n]).p - (s.blk.axes[n]).base * 2 ^ 24 ∧ (t.blk.axes[n]).zArmed = true ∧
      t.blk.axState n = s.blk.axState n ∧
      (∀ m : Fin 16, m ≠ n → t.blk.axes[m] = s.blk.axes[m]) ∧ FrameOn (axisRegs n) [.axes] s t := by
  have hwrite : Block.axisSrcWrite n data s.blk = s.blk.cfgStored n data := by
    rw [axisSrcWrite_eq]
    exact axisSrc_same _ n (hsrc.trans (cfgStored_src s.blk n data).symm)
  have hact := axisRestart_eq s.blk n data (by rwa [hwrite, cfgStored_state])
  rw [hwrite] at hact
  obtain ⟨busy, hax⟩ := cfgStored_axis s.blk n data
  have hown : ((s.blk.cfgStored n data).setAxis n ((s.blk.cfgStored n data).axes[n]).rebased).axes[n] =
      ({ s.blk.axes[n] with ssiBusy := busy } : Axis).rebased := by rw [setAxis_same, hax]
  have hstep : s.blk.axisStep n (cfgFields n) [] ((s.blk.cfgStored n data).setAxis n ((s.blk.cfgStored n data).axes[n]).rebased) :=
    axisStep_setAxis (cfgStored_step s.blk n data) _
  refine leadsTo_intro ((exec_axisRestart s).trans ((done_journaled hf hs _ _).trans (done_leadsTo hact))) fun u => ?_
  rw [Block.withTags_axes, hown]
  exact ⟨rfl, rfl, rfl, cfgStored_state s.blk n data, hstep.others,
    axisStep_frameOn hstep fun f hfm => sourceFields_regs f (List.mem_append_left _ hfm)⟩

end

end Sys2Proof.Machine
end

section
/-! AXIS_SAMPLE with an edge (R110, R114, R119). -/

namespace Sys2Proof.Machine

theorem reachStw_withTm (b : Block) (w : Word) : b.reachStw w = b.withTm (b.reachStw w).tm := by
  unfold Block.reachStw Block.reach
  split
  · split <;> rfl
  · rfl

section
variable (b : Block) (n : Fin 16)

theorem setAxis_setAxis (x y : Axis) : (b.setAxis n x).setAxis n y = b.setAxis n y := by
  simp [Block.setAxis]

/-- What a sample makes of the estimator rests on the motion and the count of samples alone. -/
theorem applySample_poly {x y : Axis} (hp : x.poly = y.poly) (ha : x.applied = y.applied) (z : Int) (s : Word) (k : Nat) :
    (applySample x z s k).poly = (applySample y z s k).poly := by
  obtain ⟨hpos, hvel, hacc, hs0⟩ := Poly.mk.inj hp
  unfold applySample predictP predictV
  rw [hpos, hvel, hacc, hs0, ha]
  split
  · rfl
  · simp only
    split
    · exact hp
    · rfl

variable {b n} {c : Block} (hr : c.regs = b.regs)
include hr

theorem samplePos_congr (hb : (c.axes[n]).base = (b.axes[n]).base) (raw : Int) : c.samplePos n raw = b.samplePos n raw := by
  have hget : ∀ f, c.get f = b.get f := fun f => by simp only [Block.get, Block.reg, hr]
  have hdir : c.flag (LAN_AXCFG_DIR n) = b.flag (LAN_AXCFG_DIR n) := by rw [Block.flag, hget, ← Block.flag]
  rw [Block.samplePos, Block.samplePos, Block.axScale, Block.axScale, Block.geti, Block.geti, hget, hb, hdir]

theorem gainSet_congr (ha : (c.axes[n]).applied = (b.axes[n]).applied) : c.gainSet n = b.gainSet n := by
  simp only [Block.gainSet, Block.get, Block.reg, hr, ha]

/-- A sample makes the same of two axes that differ in nothing the estimator sees. -/
theorem sampledAxis_congr (hp : (c.axes[n]).poly = (b.axes[n]).poly) (ha : (c.axes[n]).applied = (b.axes[n]).applied)
    (hb : (c.axes[n]).base = (b.axes[n]).base) (raw : Int) (s : Word) :
    (c.sampledAxis n raw s).poly = (b.sampledAxis n raw s).poly := by
  have h := applySample_poly hp ha (b.samplePos n raw * 2 ^ 24) s (b.gainSet n)
  unfold Block.sampledAxis
  rw [samplePos_congr hr hb, gainSet_congr hr ha]
  exact h

end

section
variable (b : Block) (n : Fin 16)

/-- A sample on a tracking axis: the estimator, NSAMP and the error bound, and the waits on the axis. -/
theorem afterSample_tracks (h : b.axState n = 2) :
    b.afterSample n = ((b.setAxis n { b.axes[n] with faultRun := 0 }).incSat (LAN_AXSTAT_NSAMP n) 1).updateEb n := by
  simp [Block.afterSample, h]

theorem updateEb_get {g : Field} (h : apart (LAN_AXEB_EB n) g) : (b.updateEb n).get g = b.get g := by
  have hstep := axisStep_updateEb (axisStep_refl n [LAN_AXEB_EB n.val] [.free] b) (List.mem_cons_self) (List.mem_cons_self)
  exact hstep.keeps.1 g (by simpa using h)

theorem applyRaw_tracks {raw : Int} {s : Word} (hc : sampleCounts (b.axes[n]) s = true) (h : b.axState n = 2) :
    (b.applyRaw n raw s).get (LAN_AXSTAT_NSAMP n) = sat (2 ^ (LAN_AXSTAT_NSAMP n).w - 1) (b.get (LAN_AXSTAT_NSAMP n) + 1) ∧
    b.axisStep n [LAN_AXSTAT_NSAMP n, LAN_AXEB_EB n] [.eng, .free] (b.applyRaw n raw s) := by
  have hafter := afterSample_tracks (b.setAxis n (applySample (b.axes[n]) (b.samplePos n raw * 2 ^ 24) s (b.gainSet n))) n h
  rw [setAxis_setAxis] at hafter
  simp only [Block.applyRaw, if_pos hc, hafter]
  constructor
  · refine (updateEb_get _ n (.inl (by simp))).trans ?_
    exact (Block.get_put_same _ _ _ (by simp)).trans (Nat.mod_eq_of_lt (sat_lt _ _))
  · refine axisStep_recompute (axisStep_markWaits (axisStep_updateEb (axisStep_put (axisStep_setAxis ?_ _) ?_) ?_ ?_) ?_ _ _ _) ?_ _
    · exact axisStep_refl n _ _ b
    all_goals simp

/-- The clocks at the next sample instant of axis `n` (R110). -/
def Block.atInstant : Block :=
  b.reachStw ((b.axes[n]).lastInst + BitVec.ofNat 72 (1000 * 2 ^ b.get (LAN_AXCFG_TS n) * 2 ^ 16))

/-- Axis `n` once it has seen what its encoder received in an interval. -/
def Block.seenAxis : Axis :=
  { b.axes[n] with
    lastInst := b.stw, faultsSeen := (b.encOf n).faults, edgeSeen := (b.encOf n).edgeNew, idxSeen := (b.encOf n).idxNew }

/-- Axis `n` as an edge reaches its estimator. -/
def Block.edgeAxis : Axis := { b.seenAxis n with faultRun := 0, raw := (b.encOf n).count }

theorem applyInput_sample {i : Word} {raw : Int} {st : Word} {l : Option Int} (h0 : b.axState n ≠ 0) (h4 : b.axState n ≠ 4) :
    b.applyInput n ⟨i, false, some (st, raw), none, l⟩ =
      (b.setAxis n { b.axes[n] with faultRun := 0, raw := raw }).applyRaw n raw st := by
  rw [applyInput_eq, if_neg (by omega), if_neg Bool.false_ne_true]
  simp only [Block.indexed, setAxis_setAxis]
  rw [setAxis_same]

theorem sampleIn_alone (hs : b.synced = false) (x : SampleIn) : b.sampleIn n x = b.applyInput n x := by
  rw [Block.sampleIn, hs, if_neg Bool.false_ne_true]

end

theorem exec_axisSample_incr {s : State} {n : Fin 16} (hsrc : s.blk.get (LAN_AXCFG_SRC n) = 1)
    (hmode : (s.blk.atInstant n).get (ENC_CFG_MODE ((s.blk.atInstant n).get (LAN_AXCFG_ENC n))) ≠ 3) :
    exec (.axisSample n) s = leadsTo s (((s.blk.atInstant n).setAxis n ((s.blk.atInstant n).seenAxis n)).sampleIn n
      ((s.blk.atInstant n).incrSample n)) := by
  refine (exec_axisSample s).trans (done_leadsTo ?_)
  have hsrc1 : (s.blk.get (LAN_AXCFG_SRC n) != 1) = false := by rw [hsrc]; rfl
  rw [hsrc1, if_neg Bool.false_ne_true]
  exact if_neg fun h => hmode (beq_iff_eq.mp h)

/-- What an incremental encoder gives in a faultless interval with an edge and no index. -/
theorem incrSample_edge {b : Block} {n : Fin 16} (hline : b.lineFault n = false)
    (hfault : (b.encOf n).faults = (b.axes[n]).faultsSeen) (hidx : (b.encOf n).idxNew = (b.axes[n]).idxSeen)
    (hedge : (b.encOf n).edgeNew ≠ (b.axes[n]).edgeSeen) :
    b.incrSample n = ⟨b.stw, false, some ((b.encOf n).edge, (b.encOf n).count), none, some (b.encOf n).count⟩ := by
  simp only [Block.incrSample, hline, hfault, hidx, bne_self_eq_false, Bool.or_self, Bool.false_eq_true, if_false, bne_iff_ne, ne_eq,
    hedge, not_false_eq_true, if_true]

section
variable {b : Block} {n : Fin 16}

theorem sampleIn_edge (hs : b.synced = false) (hst : b.axState n = 2) (hline : b.lineFault n = false)
    (hfault : (b.encOf n).faults = (b.axes[n]).faultsSeen) (hidx : (b.encOf n).idxNew = (b.axes[n]).idxSeen)
    (hedge : (b.encOf n).edgeNew ≠ (b.axes[n]).edgeSeen) :
    (b.setAxis n (b.seenAxis n)).sampleIn n (b.incrSample n) =
      (b.setAxis n (b.edgeAxis n)).applyRaw n (b.encOf n).count (b.encOf n).edge := by
  have hst' : (b.setAxis n (b.seenAxis n)).axState n = 2 := hst
  rw [incrSample_edge hline hfault hidx hedge, sampleIn_alone _ _ (show (b.setAxis n (b.seenAxis n)).synced = false from hs),
    applyInput_sample _ _ (by omega) (by omega), setAxis_setAxis, setAxis_same]
  rfl

/-- An edge on a tracking axis: the estimator takes its sample, NSAMP counts, and the error bound follows (R119, R123). -/
theorem edgeAxis_tracks (hst : b.axState n = 2) (hcount : sampleCounts (b.axes[n]) (b.encOf n).edge = true) {c : Block}
    (hc : c = (b.setAxis n (b.edgeAxis n)).applyRaw n (b.encOf n).count (b.encOf n).edge) :
    (c.axes[n]).poly = (b.sampledAxis n (b.encOf n).count (b.encOf n).edge).poly ∧ (c.axes[n]).faultRun = 0 ∧
      c.get (LAN_AXSTAT_NSAMP n) = sat (2 ^ (LAN_AXSTAT_NSAMP n).w - 1) (b.get (LAN_AXSTAT_NSAMP n) + 1) ∧
      b.axisStep n [LAN_AXSTAT_NSAMP n, LAN_AXEB_EB n] [.eng, .free] c := by
  subst hc
  have hx : (b.setAxis n (b.edgeAxis n)).axes[n] = b.edgeAxis n := setAxis_same b n _
  have hcounts : sampleCounts ((b.setAxis n (b.edgeAxis n)).axes[n]) (b.encOf n).edge = true := by rw [hx]; exact hcount
  obtain ⟨hsamp, hstep⟩ := applyRaw_tracks (b.setAxis n (b.edgeAxis n)) n (raw := (b.encOf n).count) hcounts hst
  rw [applyRaw_counts _ n hcounts]
  refine ⟨sampledAxis_congr (b := b) (c := b.setAxis n (b.edgeAxis n)) rfl ?_ ?_ ?_ _ _, rfl, hsamp,
    axisStep_trans (axisStep_setAxis (axisStep_refl n _ _ b) _) hstep⟩
  all_goals rw [hx]; rfl

end

/-- A faultless interval of an incremental encoder with an edge and no index, on a tracking axis (R114, R119). -/
theorem axisSample_tracks (s : State) (n : Fin 16) (hs : s.blk.synced = false) (hsrc : s.blk.get (LAN_AXCFG_SRC n) = 1)
    (hst : s.blk.axState n = 2) (hmode : s.blk.get (ENC_CFG_MODE (s.blk.get (LAN_AXCFG_ENC n))) ≠ 3)
    (hline : s.blk.lineFault n = false) (hfault : (s.blk.encOf n).faults = (s.blk.axes[n]).faultsSeen)
    (hidx : (s.blk.encOf n).idxNew = (s.blk.axes[n]).idxSeen) (hedge : (s.blk.encOf n).edgeNew ≠ (s.blk.axes[n]).edgeSeen)
    (hcount : sampleCounts (s.blk.axes[n]) (s.blk.encOf n).edge = true) :
    ∃ t, exec (.axisSample n) s = .next t ∧
      (let y := applySample (s.blk.axes[n]) (s.blk.samplePos n (s.blk.encOf n).count * 2 ^ 24) (s.blk.encOf n).edge
          (s.blk.gainSet n)
       (t.blk.axes[n]).p = y.p ∧ (t.blk.axes[n]).v = y.v ∧ (t.blk.axes[n]).a = y.a ∧ (t.blk.axes[n]).s0 = y.s0) ∧
      t.blk.get (LAN_AXSTAT_NSAMP n) = sat (2 ^ (LAN_AXSTAT_NSAMP n).w - 1) (s.blk.get (LAN_AXSTAT_NSAMP n) + 1) ∧
      (t.blk.axes[n]).faultRun = 0 ∧ (∀ m : Fin 16, m ≠ n → t.blk.axes[m] = s.blk.axes[m]) ∧
      FrameOn (axisRegs n) [.axes, .eng, .tm, .free] s t := by
  have htm : s.blk.atInstant n = s.blk.withTm (s.blk.atInstant n).tm := reachStw_withTm _ _
  have hexec := exec_axisSample_incr (n := n) hsrc (by rwa [htm, withTm_get, withTm_get])
  rw [htm] at hexec
  generalize (s.blk.atInstant n).tm = now at hexec
  have hedged := sampleIn_edge (b := s.blk.withTm now) hs hst hline hfault hidx hedge
  rw [hedged] at hexec
  obtain ⟨hpoly, hrun, hsamp, hstep⟩ := edgeAxis_tracks (b := s.blk.withTm now) (n := n) hst hcount rfl
  have henc : (s.blk.withTm now).encOf n = s.blk.encOf n := rfl
  rw [henc] at hexec hpoly hrun hsamp hstep
  generalize ((s.blk.withTm now).setAxis n _).applyRaw n _ _ = c at hexec hpoly hrun hsamp hstep
  obtain ⟨hp, hv, ha, hs0⟩ := Poly.mk.inj (hpoly.trans (sampledAxis_congr (b := s.blk) (withTm_regs s.blk now) rfl rfl rfl _ _))
  rw [withTm_get] at hsamp
  have hnow : s.blk.axisStep n [LAN_AXSTAT_NSAMP n, LAN_AXEB_EB n] [.eng, .tm, .free] (s.blk.withTm now) :=
    axisStep_frame (axisStep_refl n _ _ s.blk) (keeps_of_regs rfl) (only_mono (withTm_only _ _) (by simp)) rfl
  have hall := axisStep_trans hnow (axisStep_mono hstep (List.Subset.refl _) (by simp))
  refine leadsTo_intro hexec fun u => ⟨⟨hp, hv, ha, hs0⟩, hsamp, hrun, hall.others, axisStep_frameOn hall ?_⟩
  simp only [List.forall_mem_cons, List.not_mem_nil, false_implies, implies_true, and_true]
  exact ⟨axisRegs_own (k := 0x51040) (by decide) (by decide), axisRegs_own (k := 0x51070) (by decide) (by decide)⟩

end Sys2Proof.Machine
end

section
/-! Inputs that several axes take at one instant: the end of an SSI frame and a mains zero crossing (R112, R116, R117). -/

namespace Sys2Proof.Machine

/-! ### Every axis in turn -/

/-- Where each step of a fold changes its own axis alone, each axis ends as its own step leaves it. -/
theorem foldl_axes {b : Block} {step : Block → Fin 16 → Block} {P : Block → Prop} {Q : Fin 16 → Axis → Prop}
    (hP : ∀ c m, P c → P (step c m)) (hothers : ∀ c m k, P c → k ≠ m → (step c m).axes[k] = c.axes[k])
    (hown : ∀ c m, P c → c.axes[m] = b.axes[m] → Q m (step c m).axes[m]) :
    ∀ l : List (Fin 16), l.Nodup → ∀ c, P c → (∀ m ∈ l, c.axes[m] = b.axes[m]) →
      P (l.foldl step c) ∧ (∀ m ∈ l, Q m (l.foldl step c).axes[m]) ∧ ∀ m ∉ l, (l.foldl step c).axes[m] = c.axes[m]
  | [], _, c, hc, _ => ⟨hc, fun _ h => absurd h List.not_mem_nil, fun _ _ => rfl⟩
  | m :: l, hl, c, hc, hb => by
    obtain ⟨hml, hl⟩ := List.nodup_cons.mp hl
    have hrest : ∀ k ∈ l, (step c m).axes[k] = b.axes[k] := fun k hk =>
      (hothers c m k hc fun h => hml (h ▸ hk)).trans (hb k (List.mem_cons_of_mem _ hk))
    obtain ⟨hend, hin, hout⟩ := foldl_axes hP hothers hown l hl (step c m) (hP c m hc) hrest
    refine ⟨hend, fun k hk => ?_, fun k hk => ?_⟩
    · rcases List.mem_cons.mp hk with rfl | hk
      · rw [List.foldl_cons, hout k hml]
        exact hown c k hc (hb k List.mem_cons_self)
      · exact hin k hk
    · rw [List.mem_cons, not_or] at hk
      obtain ⟨hkm, hkl⟩ := hk
      exact (hout k hkl).trans (hothers c m k hc hkm)

/-- The fields that inputs of the axes may touch. -/
def allInputs : List Field := (List.range 16).flatMap inputFields

/-- `c` is `b` but for what inputs of axes touch. -/
def Block.inputs (b c : Block) : Prop := b.keeps allInputs c ∧ b.only (.axes :: .cal :: inputParts) c

theorem inputFields_all (m : Fin 16) : inputFields m ⊆ allInputs := fun _ hf =>
  List.mem_flatMap.mpr ⟨m, List.mem_range.mpr m.isLt, hf⟩

/-- An input touches no field above the page of the axes. -/
theorem inputFields_apart_above {m : Nat} (hm : m < 16) {g : Field} (h : 0x53000 ≤ g.addr) : ∀ f ∈ inputFields m, apart f g := by
  simp only [inputFields, stateFields, List.cons_append, List.nil_append, List.forall_mem_cons, List.not_mem_nil, false_implies,
    implies_true, and_true, apart, LAN_AXEB, LAN_AXSTAT, LAN_AXZCAP, LAN_QCAUSE, EVT_PEND, EVT_OVR]
  omega

/-- An input touches no field of LAN_AXCFG. -/
theorem inputFields_apart_cfg (m k lo w : Nat) : ∀ f ∈ inputFields m, apart f ⟨LAN_AXCFG k, lo, w⟩ := by
  simp only [inputFields, stateFields, List.cons_append, List.nil_append, List.forall_mem_cons, List.not_mem_nil, false_implies,
    implies_true, and_true, apart, LAN_AXEB, LAN_AXSTAT, LAN_AXZCAP, LAN_QCAUSE, EVT_PEND, EVT_OVR, LAN_AXCFG]
  omega

section
variable {b c d : Block}

theorem inputs_refl (b : Block) : b.inputs b := ⟨keeps_refl _ b, only_refl _ b⟩

theorem inputs_step {m : Fin 16} (h : b.inputs c) (hs : c.axisStep m (inputFields m) inputParts d) : b.inputs d :=
  ⟨keeps_trans h.1 (keeps_mono hs.keeps (inputFields_all m)), only_trans h.2 (only_mono hs.only (by simp [inputParts]))⟩

theorem inputs_cal (h : b.inputs c) (hr : d.regs = c.regs) (ho : c.only [.cal] d) : b.inputs d :=
  ⟨keeps_part h.1 hr, only_trans h.2 (only_mono ho (by simp))⟩

theorem inputs_get (h : b.inputs c) {g : Field} (hg : 0x53000 ≤ g.addr) : c.get g = b.get g := by
  refine h.1.1 g fun f hf => ?_
  obtain ⟨m, hm, hfm⟩ := List.mem_flatMap.mp hf
  exact inputFields_apart_above (List.mem_range.mp hm) hg f hfm

theorem inputs_cfg (h : b.inputs c) (m lo w : Nat) : c.get ⟨LAN_AXCFG m, lo, w⟩ = b.get ⟨LAN_AXCFG m, lo, w⟩ := by
  refine h.1.1 _ fun f hf => ?_
  obtain ⟨k, -, hfk⟩ := List.mem_flatMap.mp hf
  exact inputFields_apart_cfg k m lo w f hfk

theorem inputs_synced (h : b.inputs c) : c.synced = b.synced := by
  simp only [Block.synced, inputs_get h (g := PAIR_STAT_STATE) (by decide)]

end

/-- An input of axis `m` that stands alone changes that axis; a sample that the axis holds as its raw value is held on. -/
theorem sampleIn_takes {c : Block} (hs : c.synced = false) (m : Fin 16) (x : SampleIn)
    (h : ∀ st raw, x.sample = some (st, raw) → raw = (c.axes[m]).raw) :
    c.axisStep m (inputFields m) inputParts (c.sampleIn m x) ∧ ((c.sampleIn m x).axes[m]).held = (c.axes[m]).held := by
  rw [sampleIn_alone c m hs]
  exact ⟨applyInput_step c m x, applyInput_held c m x h⟩

/-! ### The end of an SSI frame (R116) -/

theorem dlyTake_eq (b : Block) (e : Nat) (m : Fin 16) (raw : Int) (stamp : Word) :
    ∃ k, b.dlyTake e m raw stamp = { b with cal := k } := by
  unfold Block.dlyTake
  split
  · exact ⟨b.cal, rfl⟩
  · split
    · exact ⟨b.cal, rfl⟩
    · exact ⟨_, rfl⟩

section
variable (b : Block) (e : Nat) (v : Option Nat) (stamp : Word) (m : Fin 16)

/-- The raw value of axis `m` as it takes value `v` of a frame: unwrapped where it has taken one before. -/
def Block.ssiRaw (v : Nat) : Int :=
  match (b.axes[m]).ssiPrev with
  | none => v
  | some p => (b.axes[m]).raw + leastDiff (b.get (ENC_SSI_BITS e)) v p

/-- Axis `m` as the frame's value, or none, reaches it. -/
def Block.ssiAxis : Option Nat → Axis
  | none => { b.axes[m] with ssiBusy := false }
  | some v => { b.axes[m] with ssiBusy := false, ssiPrev := some v, raw := b.ssiRaw e m v }

theorem ssiTake_idle (h : (b.axes[m]).ssiBusy = false ∨ b.get (LAN_AXCFG_ENC m) ≠ e) : b.ssiTake e v stamp m = b := by
  have hc : (!(b.axes[m]).ssiBusy || b.get (LAN_AXCFG_ENC m) != e) = true := by
    simpa only [Bool.or_eq_true, Bool.not_eq_true', bne_iff_ne] using h
  simp only [Block.ssiTake, hc, if_true]

section
variable (hb : (b.axes[m]).ssiBusy = true) (he : b.get (LAN_AXCFG_ENC m) = e)
include hb he

theorem ssiTake_fails : b.ssiTake e none stamp m =
    (b.setAxis m (b.ssiAxis e m none)).sampleIn m ⟨b.stw, true, none, none, none⟩ := by
  have hc : (!(b.axes[m]).ssiBusy || b.get (LAN_AXCFG_ENC m) != e) = false := by rw [hb, he, bne_self_eq_false]; rfl
  simp only [Block.ssiTake, hc, Bool.false_eq_true, if_false]
  rfl

theorem ssiTake_value (w : Nat) : b.ssiTake e (some w) stamp m =
    ((b.setAxis m (b.ssiAxis e m (some w))).sampleIn m ⟨b.stw, false, some (stamp, b.ssiRaw e m w), none, none⟩).dlyTake
      e m (b.ssiRaw e m w) stamp := by
  have hc : (!(b.axes[m]).ssiBusy || b.get (LAN_AXCFG_ENC m) != e) = false := by rw [hb, he, bne_self_eq_false]; rfl
  simp only [Block.ssiTake, hc, Bool.false_eq_true, if_false]
  rfl

/-- An axis that awaits the frame takes its value, or a faulty interval (R112, R116). -/
theorem ssiTake_takes (hs : b.synced = false) : ∃ k d, b.ssiTake e v stamp m = { d with cal := k } ∧
    b.axisStep m (inputFields m) inputParts d ∧ (d.axes[m]).held = (b.ssiAxis e m v).held := by
  have hset : b.axisStep m (inputFields m) inputParts (b.setAxis m (b.ssiAxis e m v)) := axisStep_setAxis (axisStep_refl m _ _ b) _
  have hax : (b.setAxis m (b.ssiAxis e m v)).axes[m] = b.ssiAxis e m v := setAxis_same b m _
  have hraw : ∀ w, v = some w → b.ssiRaw e m w = ((b.setAxis m (b.ssiAxis e m v)).axes[m]).raw := fun w hw => by
    rw [hax, hw]
    rfl
  cases v with
  | none =>
    obtain ⟨hstep, hheld⟩ := sampleIn_takes (c := b.setAxis m (b.ssiAxis e m none)) hs m ⟨b.stw, true, none, none, none⟩ (by simp)
    rw [ssiTake_fails b e stamp m hb he]
    exact ⟨_, _, rfl, axisStep_trans hset hstep, hheld.trans (congrArg Axis.held hax)⟩
  | some w =>
    obtain ⟨hstep, hheld⟩ := sampleIn_takes (c := b.setAxis m (b.ssiAxis e m (some w))) hs m
      ⟨b.stw, false, some (stamp, b.ssiRaw e m w), none, none⟩ (by
        rintro st raw h
        obtain ⟨-, rfl⟩ := Prod.mk.inj (Option.some.inj h)
        exact hraw w rfl)
    rw [ssiTake_value b e stamp m hb he]
    obtain ⟨k, hk⟩ := dlyTake_eq ((b.setAxis m (b.ssiAxis e m (some w))).sampleIn m
      ⟨b.stw, false, some (stamp, b.ssiRaw e m w), none, none⟩) e m (b.ssiRaw e m w) stamp
    exact ⟨k, _, hk, axisStep_trans hset hstep, hheld.trans (congrArg Axis.held hax)⟩

end

/-- What the end of a frame leaves of axis `m`: one that awaits it takes it, and the others stay. -/
def ssiLeaves (y : Axis) : Prop :=
  ((b.axes[m]).ssiBusy = false ∨ b.get (LAN_AXCFG_ENC m) ≠ e → y = b.axes[m]) ∧
  ((b.axes[m]).ssiBusy = true → b.get (LAN_AXCFG_ENC m) = e → y.held = (b.ssiAxis e m v).held)

variable {b}

theorem ssiAxis_congr {c : Block} (h : b.inputs c) (hax : c.axes[m] = b.axes[m]) : c.ssiAxis e m v = b.ssiAxis e m v := by
  have hbits : c.get (ENC_SSI_BITS e) = b.get (ENC_SSI_BITS e) := inputs_get h (Nat.le_add_right_of_le (by decide))
  cases v with
  | none => simp only [Block.ssiAxis, hax]
  | some w => simp only [Block.ssiAxis, Block.ssiRaw, hax, hbits]

theorem ssiTake_inputs {c : Block} (hs : b.synced = false) (h : b.inputs c) :
    b.inputs (c.ssiTake e v stamp m) ∧ (∀ k : Fin 16, k ≠ m → (c.ssiTake e v stamp m).axes[k] = c.axes[k]) ∧
      (c.axes[m] = b.axes[m] → ssiLeaves b e v m (c.ssiTake e v stamp m).axes[m]) := by
  have henc : c.get (LAN_AXCFG_ENC m) = b.get (LAN_AXCFG_ENC m) := inputs_cfg h m _ _
  by_cases hidle : (c.axes[m]).ssiBusy = false ∨ c.get (LAN_AXCFG_ENC m) ≠ e
  · rw [ssiTake_idle c e v stamp m hidle]
    refine ⟨h, fun _ _ => rfl, fun hax => ⟨fun _ => hax, fun hb he => ?_⟩⟩
    rw [hax, henc, hb, he] at hidle
    simp at hidle
  · obtain ⟨hbusy, he⟩ := not_or.mp hidle
    obtain ⟨k, d, hd, hstep, hheld⟩ := ssiTake_takes c e v stamp m (Bool.eq_true_of_not_eq_false hbusy) (not_not.mp he)
      ((inputs_synced h).trans hs)
    rw [hd]
    refine ⟨inputs_cal (inputs_step h hstep) rfl (by simp [Block.only]), hstep.others, fun hax => ⟨fun hno => ?_, fun _ _ => ?_⟩⟩
    · rw [← hax, ← henc] at hno
      exact absurd hno hidle
    · rw [← ssiAxis_congr e v m h hax]
      exact hheld

end

end Sys2Proof.Machine
end

section
/-! SSI_FRAME_DONE and MAINS_ZERO_CROSSING, and the statement on samples (R110 to R119, R606). -/

namespace Sys2Proof.Machine

/-! ### The end of an SSI frame (R116) -/

section
variable (b : Block) (n : Fin 16) (e : Nat) (bits : BitVec 40) (par err high : Bool)

/-- A frame of encoder `e` fails a check. -/
def Block.frameBad : Bool :=
  (b.flag (ENC_SSI_PAR e) && (popcount (bits.toNat % 2 ^ b.get (ENC_SSI_BITS e)) 40 + b2n par) % 2 == 1) ||
    (b.flag (ENC_SSI_ERRB e) && err) || !high

/-- The value of a frame of encoder `e`, or none where it fails. -/
def Block.frameValue : Option Nat :=
  if b.frameBad e bits par err high then none
  else some (if b.flag (ENC_SSI_GRAY e) then grayDecode (bits.toNat % 2 ^ b.get (ENC_SSI_BITS e)) (b.get (ENC_SSI_BITS e))
    else bits.toNat % 2 ^ b.get (ENC_SSI_BITS e))

/-- The instant at which the frame that axis `n` awaits from encoder `e` ends, with the monoflop time after it. -/
def Block.frameAt : Nat :=
  (b.encOf n).ssiAt.getD b.tm.phys + b.ssiPeriods e * (10 ^ 9 * nsUnit / b.ssiHz e) + b.get (ENC_SSI_MONO e) * 1000 * nsUnit

/-- Encoder `e` sends no frame. -/
def Block.encFree : Block := { b with encs := vmod b.encs e (fun y => { y with ssiAt := none }) }

/-- The block as that frame ends. -/
def Block.frameEnd : Block := (b.reachPhys (b.frameAt n e)).encFree e

/-- The same with a failed frame counted. -/
def Block.frameCounted : Block :=
  if b.frameBad e bits par err high then (b.frameEnd n e).incSat (ENC_STAT_SSIERR e) 1 else b.frameEnd n e

end

theorem exec_ssiFrameDone_busy {s : State} {n : Fin 16} {e : Nat} (bits : BitVec 40) (par err high : Bool)
    (hb : (s.blk.axes[n]).ssiBusy = true) (he : s.blk.get (LAN_AXCFG_ENC n) = e) :
    exec (.ssiFrameDone n bits par err high) s = leadsTo s ((List.finRange 16).foldl
      (fun c m => c.ssiTake e (s.blk.frameValue e bits par err high) (s.blk.encOf n).ssiStamp m)
      (s.blk.frameCounted n e bits par err high)) := by
  subst he
  refine (exec_ssiFrameDone s).trans (done_leadsTo ?_)
  have hno : ¬ (!(s.blk.axes[n]).ssiBusy) = true := by rw [hb]; exact Bool.false_ne_true
  exact if_neg hno

section
variable (b : Block) (n : Fin 16) (e : Nat)

theorem encFree_only (e : Nat) : b.only [.encs] (b.encFree e) := by simp [Block.only, Block.encFree]

theorem frameEnd_reg (a : Nat) : (b.frameEnd n e).reg a = b.reg a := by
  have hfree : ∀ c : Block, (c.encFree e).reg a = c.reg a := fun _ => rfl
  rw [Block.frameEnd, hfree, reachPhys_withTm, withTm_reg]

theorem frameEnd_only : b.only [.tm, .encs] (b.frameEnd n e) :=
  only_trans (only_mono (reachPhys_only b _) (by simp)) (only_mono (encFree_only _ e) (by simp))

theorem frameEnd_axes : (b.frameEnd n e).axes = b.axes := by
  obtain ⟨-, -, -, -, h, -⟩ := frameEnd_only b n e
  exact h (by simp)

variable (bits : BitVec 40) (par err high : Bool)

theorem frameCounted_axes : (b.frameCounted n e bits par err high).axes = b.axes := by
  unfold Block.frameCounted
  split
  · rw [Block.incSat_axes, frameEnd_axes]
  · exact frameEnd_axes b n e

theorem frameCounted_cav : (b.frameCounted n e bits par err high).cav = b.cav := by
  have hend := only_cav (frameEnd_only b n e) (by simp)
  unfold Block.frameCounted
  split
  · rw [Block.incSat_cav, hend]
  · exact hend

/-- A field of another register than ENCn_STAT reads as before. -/
theorem frameCounted_get {g : Field} (hg : ENC_STAT e ≠ g.addr) : (b.frameCounted n e bits par err high).get g = b.get g := by
  have hend : (b.frameEnd n e).get g = b.get g := by rw [Block.get, frameEnd_reg, ← Block.get]
  unfold Block.frameCounted
  split
  · rw [Block.incSat, Block.get_put_apart _ _ _ _ (.inl hg), hend]
  · exact hend

theorem frameCounted_ssiErr : (b.frameCounted n e bits par err high).get (ENC_STAT_SSIERR e) =
    if b.frameBad e bits par err high then sat (2 ^ (ENC_STAT_SSIERR 0).w - 1) (b.get (ENC_STAT_SSIERR e) + 1)
    else b.get (ENC_STAT_SSIERR e) := by
  have hend : (b.frameEnd n e).get (ENC_STAT_SSIERR e) = b.get (ENC_STAT_SSIERR e) := by rw [Block.get, frameEnd_reg, ← Block.get]
  unfold Block.frameCounted
  split
  · rw [Block.incSat, Block.get_put_same _ _ _ (by simp), hend]
    exact Nat.mod_eq_of_lt (sat_lt _ _)
  · exact hend

theorem frameCounted_synced : (b.frameCounted n e bits par err high).synced = b.synced := by
  have h := frameCounted_get b n e bits par err high (g := PAIR_STAT_STATE) (by simp only [ENC_STAT, PAIR_STAT]; omega)
  simp only [Block.synced, h]

end

/-- An axis whose encoder's frame has ended awaits none. -/
theorem ssiLeaves_idle {b : Block} {e : Nat} {v : Option Nat} {m : Fin 16} {y : Axis} (h : ssiLeaves b e v m y)
    (he : b.get (LAN_AXCFG_ENC m) = e) : y.ssiBusy = false := by
  obtain ⟨hidle, hbusy⟩ := h
  cases hb : (b.axes[m]).ssiBusy with
  | false => rw [hidle (.inl hb), hb]
  | true =>
    have hheld : y.ssiBusy = (b.ssiAxis e m v).ssiBusy := congrArg Prod.snd (hbusy hb he)
    rw [hheld]
    cases v <;> rfl

section
variable {s : State} {n : Fin 16} {e : Nat} (bits : BitVec 40) (par err high : Bool) (hs : s.blk.synced = false)
  (hb : (s.blk.axes[n]).ssiBusy = true) (he : s.blk.get (LAN_AXCFG_ENC n) = e)
include hs hb he

/-- The end of a frame: SSIERR counts it where it fails, each axis that awaits it takes it, and the others stay. -/
theorem ssiFrameDone_leaves : ∃ t, exec (.ssiFrameDone n bits par err high) s = .next t ∧
    t.blk.get (ENC_STAT_SSIERR e) = (if s.blk.frameBad e bits par err high then
      sat (2 ^ (ENC_STAT_SSIERR 0).w - 1) (s.blk.get (ENC_STAT_SSIERR e) + 1) else s.blk.get (ENC_STAT_SSIERR e)) ∧
    (∀ m : Fin 16, ssiLeaves (s.blk.frameCounted n e bits par err high) e (s.blk.frameValue e bits par err high) m t.blk.axes[m]) ∧
    t.blk.cav = s.blk.cav ∧ t.pending = s.pending := by
  have hs' := (frameCounted_synced s.blk n e bits par err high).trans hs
  obtain ⟨hin, hown, -⟩ := foldl_axes (b := s.blk.frameCounted n e bits par err high)
    (P := (s.blk.frameCounted n e bits par err high).inputs) (Q := fun m => ssiLeaves (s.blk.frameCounted n e bits par err high) e
      (s.blk.frameValue e bits par err high) m)
    (step := fun c m => c.ssiTake e (s.blk.frameValue e bits par err high) (s.blk.encOf n).ssiStamp m)
    (fun c m h => (ssiTake_inputs e _ _ m hs' h).1) (fun c m k h => (ssiTake_inputs e _ _ m hs' h).2.1 k)
    (fun c m h => (ssiTake_inputs e _ _ m hs' h).2.2) _ (List.nodup_finRange 16) _ (inputs_refl _) (fun _ _ => rfl)
  have herr := inputs_get hin (g := ENC_STAT_SSIERR e) (Nat.le_add_right_of_le (by decide))
  have hcav := only_cav hin.2 (by simp [inputParts])
  rw [frameCounted_ssiErr] at herr
  rw [frameCounted_cav] at hcav
  have hexec := exec_ssiFrameDone_busy bits par err high hb he
  generalize (List.finRange 16).foldl _ _ = c at hexec herr hcav hown
  exact leadsTo_intro hexec fun u => ⟨herr, fun m => hown m (List.mem_finRange m), hcav, rfl⟩

end

/-- Axes that await no frame of encoder `e` stay. -/
theorem frameCounted_others {s : State} {n : Fin 16} {e : Nat} {bits : BitVec 40} {par err high : Bool} {m : Fin 16} {y : Axis} {v : Option Nat}
    (h : ssiLeaves (s.blk.frameCounted n e bits par err high) e v m y)
    (hm : (s.blk.axes[m]).ssiBusy = false ∨ s.blk.get (LAN_AXCFG_ENC m) ≠ e) : y = s.blk.axes[m] := by
  obtain ⟨hidle, -⟩ := h
  rw [frameCounted_get _ _ _ _ _ _ _ (by simp only [ENC_STAT, LAN_AXCFG]; omega)] at hidle
  simp only [frameCounted_axes] at hidle
  exact hidle hm

/-- A frame that fails a check (R112, R116). -/
theorem ssiFrameDone_fails (s : State) (n : Fin 16) (e : Nat) (bits : BitVec 40) (par err high : Bool) (hs : s.blk.synced = false)
    (hb : (s.blk.axes[n]).ssiBusy = true) (he : s.blk.get (LAN_AXCFG_ENC n) = e)
    (hbad : high = false ∨ (s.blk.flag (ENC_SSI_ERRB e) = true ∧ err = true) ∨ (s.blk.flag (ENC_SSI_PAR e) = true ∧
      (popcount (bits.toNat % 2 ^ s.blk.get (ENC_SSI_BITS e)) 40 + b2n par) % 2 = 1)) :
    ∃ t, exec (.ssiFrameDone n bits par err high) s = .next t ∧
      t.blk.get (ENC_STAT_SSIERR e) = sat (2 ^ (ENC_STAT_SSIERR 0).w - 1) (s.blk.get (ENC_STAT_SSIERR e) + 1) ∧
      (∀ m : Fin 16, s.blk.get (LAN_AXCFG_ENC m) = e → (t.blk.axes[m]).ssiBusy = false) ∧
      (∀ m : Fin 16, (s.blk.axes[m]).ssiBusy = false ∨ s.blk.get (LAN_AXCFG_ENC m) ≠ e → t.blk.axes[m] = s.blk.axes[m]) ∧
      t.blk.cav = s.blk.cav ∧ t.pending = s.pending := by
  have hfail : s.blk.frameBad e bits par err high = true := by
    simp only [Block.frameBad, Bool.or_eq_true, Bool.and_eq_true, Bool.not_eq_true', beq_iff_eq]
    tauto
  obtain ⟨t, ht, herr, hax, hcav, hpend⟩ := ssiFrameDone_leaves bits par err high hs hb he
  rw [if_pos hfail] at herr
  refine ⟨t, ht, herr, fun m hm => ssiLeaves_idle (hax m) ?_, fun m hm => frameCounted_others (hax m) hm,
    hcav, hpend⟩
  rwa [frameCounted_get _ _ _ _ _ _ _ (by simp only [ENC_STAT, LAN_AXCFG]; omega)]

/-- The first good frame of an axis, in binary and without parity or error bit (R116). -/
theorem ssiFrameDone_takes (s : State) (n : Fin 16) (bits : BitVec 40) (hs : s.blk.synced = false)
    (hb : (s.blk.axes[n]).ssiBusy = true) (hpar : s.blk.flag (ENC_SSI_PAR (s.blk.get (LAN_AXCFG_ENC n))) = false)
    (_ : s.blk.flag (ENC_SSI_ERRB (s.blk.get (LAN_AXCFG_ENC n))) = false)
    (hgray : s.blk.flag (ENC_SSI_GRAY (s.blk.get (LAN_AXCFG_ENC n))) = false) (hprev : (s.blk.axes[n]).ssiPrev = none) :
    ∃ t, exec (.ssiFrameDone n bits false false true) s = .next t ∧ (t.blk.axes[n]).ssiBusy = false ∧
      (t.blk.axes[n]).raw = bits.toNat % 2 ^ s.blk.get (ENC_SSI_BITS (s.blk.get (LAN_AXCFG_ENC n))) ∧
      t.blk.get (ENC_STAT_SSIERR (s.blk.get (LAN_AXCFG_ENC n))) = s.blk.get (ENC_STAT_SSIERR (s.blk.get (LAN_AXCFG_ENC n))) ∧
      (∀ m : Fin 16, (s.blk.axes[m]).ssiBusy = false ∨ s.blk.get (LAN_AXCFG_ENC m) ≠ s.blk.get (LAN_AXCFG_ENC n) →
        t.blk.axes[m] = s.blk.axes[m]) ∧ t.blk.cav = s.blk.cav ∧ t.pending = s.pending := by
  generalize he : s.blk.get (LAN_AXCFG_ENC n) = e at hpar hgray ⊢
  have hgood : s.blk.frameBad e bits false false true = false := by simp [Block.frameBad, hpar]
  have hvalue : s.blk.frameValue e bits false false true = some (bits.toNat % 2 ^ s.blk.get (ENC_SSI_BITS e)) := by
    simp only [Block.frameValue, hgood, hgray, Bool.false_eq_true, if_false]
  obtain ⟨t, ht, herr, hax, hcav, hpend⟩ := ssiFrameDone_leaves bits false false true hs hb he
  rw [hgood, if_neg Bool.false_ne_true] at herr
  have henc : (s.blk.frameCounted n e bits false false true).get (LAN_AXCFG_ENC n) = e := by
    rwa [frameCounted_get _ _ _ _ _ _ _ (by simp only [ENC_STAT, LAN_AXCFG]; omega)]
  have hraw : (t.blk.axes[n]).raw = (bits.toNat % 2 ^ s.blk.get (ENC_SSI_BITS e) : Nat) := by
    obtain ⟨-, hbusy⟩ := hax n
    simp only [frameCounted_axes] at hbusy
    have hheld := congrArg Prod.fst (hbusy hb henc)
    rw [hvalue] at hheld
    refine hheld.trans ?_
    simp only [Axis.held, Block.ssiAxis, Block.ssiRaw, frameCounted_axes, hprev]
  refine ⟨t, ht, ssiLeaves_idle (hax n) henc, hraw.trans (by simp), herr,
    fun m hm => frameCounted_others (hax m) hm, hcav, hpend⟩

/-! ### A mains zero crossing (R117) -/

section
variable (b : Block) (faulty : Bool) (m : Fin 16)

/-- A crossing adds one to the raw value of an axis on SRC 2. -/
theorem mainsSample_takes (hs : b.synced = false) : b.axisStep m (inputFields m) inputParts (b.mainsSample faulty m) ∧
    ((b.mainsSample faulty m).axes[m]).raw = (b.axes[m]).raw + (if b.get (LAN_AXCFG_SRC m) = 2 then 1 else 0) := by
  by_cases h : b.get (LAN_AXCFG_SRC m) = 2
  · have hact : b.mainsSample faulty m = (b.setAxis m { b.axes[m] with raw := (b.axes[m]).raw + 1 }).sampleIn m
        ⟨b.stw, faulty, if faulty then none else some (b.clockStamp 20, (b.axes[m]).raw + 1), none, none⟩ :=
      if_neg (by simp [h])
    have hax : (b.setAxis m { b.axes[m] with raw := (b.axes[m]).raw + 1 }).axes[m] =
      { b.axes[m] with raw := (b.axes[m]).raw + 1 } := setAxis_same b m _
    obtain ⟨hstep, hheld⟩ := sampleIn_takes (c := b.setAxis m { b.axes[m] with raw := (b.axes[m]).raw + 1 }) hs m
      ⟨b.stw, faulty, if faulty then none else some (b.clockStamp 20, (b.axes[m]).raw + 1), none, none⟩ (by
        intro st raw hx
        rw [hax]
        cases faulty with
        | true => simp at hx
        | false => exact (Prod.mk.inj (Option.some.inj hx)).2.symm)
    have hraw := congrArg Prod.fst hheld
    rw [hax] at hraw
    rw [hact, if_pos h]
    exact ⟨axisStep_trans (axisStep_setAxis (axisStep_refl m _ _ b) _) hstep, hraw⟩
  · have hact : b.mainsSample faulty m = b := if_pos (by simp [h])
    rw [hact, if_neg h, add_zero]
    exact ⟨axisStep_refl m _ _ b, rfl⟩

end

/-- The block at a zero crossing, before the axes take it: the clocks, and the interval since the last one (R117). -/
def Block.crossed (b : Block) (faulty : Bool) : Block :=
  { b with mainsLast := b.physNs, mainsGap := if b.mainsLast = 0 || faulty then b.mainsGap else b.physNs - b.mainsLast }

/-- The interval since the last zero crossing is outside its bounds (R112). -/
def Block.mainsBad (b : Block) : Bool :=
  decide (b.mainsLast ≠ 0) && (decide (b.physNs - b.mainsLast < 15870000) || decide (21280000 < b.physNs - b.mainsLast))

theorem exec_mainsZeroCrossing_eq (s : State) (dt : Nat) : exec (.mainsZeroCrossing dt) s = leadsTo s
    ((List.finRange 16).foldl (fun c n => c.mainsSample (s.blk.advanceNs dt).mainsBad n)
      ((s.blk.advanceNs dt).crossed (s.blk.advanceNs dt).mainsBad)) := by
  refine (exec_mainsZeroCrossing s).trans (done_leadsTo ?_)
  dsimp only [Block.crossed, Block.mainsBad]

section
variable (b : Block) (faulty : Bool)

theorem inputs_mainsLast {b c : Block} (h : b.inputs c) : c.mainsLast = b.mainsLast := by
  obtain ⟨-, -, -, -, -, -, hlast, -⟩ := h.2
  exact hlast (by simp [inputParts])

theorem inputs_encs {b c : Block} (h : b.inputs c) : c.encs = b.encs := by
  obtain ⟨-, -, -, -, -, hencs, -⟩ := h.2
  exact hencs (by simp [inputParts])

/-- Every axis takes a zero crossing. -/
theorem mainsSamples_take (hs : b.synced = false) : b.inputs ((List.finRange 16).foldl (fun c n => c.mainsSample faulty n) b) ∧
    ∀ m : Fin 16, (((List.finRange 16).foldl (fun c n => c.mainsSample faulty n) b).axes[m]).raw =
      (b.axes[m]).raw + (if b.get (LAN_AXCFG_SRC m) = 2 then 1 else 0) := by
  have htakes : ∀ c m, b.inputs c → _ := fun c m h => mainsSample_takes c faulty m ((inputs_synced h).trans hs)
  obtain ⟨hin, hown, -⟩ := foldl_axes (b := b) (P := b.inputs)
    (Q := fun m y => y.raw = (b.axes[m]).raw + (if b.get (LAN_AXCFG_SRC m) = 2 then 1 else 0))
    (step := fun c m => c.mainsSample faulty m) (fun c m h => inputs_step h (htakes c m h).1)
    (fun c m k h => (htakes c m h).1.others k)
    (fun c m h hax => by rw [← hax, ← inputs_cfg h m]; exact (htakes c m h).2)
    _ (List.nodup_finRange 16) _ (inputs_refl b) (fun _ _ => rfl)
  exact ⟨hin, fun m => hown m (List.mem_finRange m)⟩

end

/-- A zero crossing: one unit for every axis on SRC 2 (R117). -/
theorem mainsZeroCrossing_takes (s : State) (dt : Nat) (hs : s.blk.synced = false) :
    ∃ t, exec (.mainsZeroCrossing dt) s = .next t ∧
      t.blk.mainsLast = t.blk.physNs ∧ t.blk.tm.phys = s.blk.tm.phys + dt * nsUnit ∧
      (∀ n : Fin 16, (t.blk.axes[n]).raw = (s.blk.axes[n]).raw + (if s.blk.get (LAN_AXCFG_SRC n) = 2 then 1 else 0)) ∧
      t.blk.cav = s.blk.cav ∧ t.blk.encs = s.blk.encs ∧ t.pending = s.pending := by
  have hexec := exec_mainsZeroCrossing_eq s dt
  generalize (s.blk.advanceNs dt).mainsBad = faulty at hexec
  obtain ⟨hin, hraw⟩ := mainsSamples_take ((s.blk.advanceNs dt).crossed faulty) faulty hs
  have htm := only_tm hin.2 (by simp [inputParts])
  have hcav := only_cav hin.2 (by simp [inputParts])
  have hlast := inputs_mainsLast hin
  have hencs := inputs_encs hin
  generalize (List.finRange 16).foldl _ _ = c at hexec htm hcav hlast hencs hraw
  refine leadsTo_intro hexec fun u => ⟨?_, ?_, hraw, hcav, hencs, rfl⟩
  · exact hlast.trans (by rw [Block.physNs, Block.withTags_tm, htm]; rfl)
  · rw [Block.withTags_tm, htm]
    rfl

/-- Settles O12: a clause for each command that gives an axis a source or an input. -/
theorem axisSamples : Obligations.AxisSamples := by
  unfold Obligations.AxisSamples
  exact ⟨axisSrcWrite_sources, axisRestart_rebases, axisSample_tracks, ssiFrameDone_fails, ssiFrameDone_takes,
    mainsZeroCrossing_takes⟩

end Sys2Proof.Machine
end

section
/-! Knots, captures, position-to-time requests and the recompute of waits (R113, R124 to R129). -/

namespace Sys2Proof.Machine

theorem only_axes {l : List Part} {b c : Block} (h : b.only l c) (hp : .axes ∉ l) : c.axes = b.axes := by
  obtain ⟨-, -, -, -, haxes, -⟩ := h
  exact haxes hp

/-! ### Knots (R113) -/

/-- The fields that a knot in force on axis `n` may touch. -/
def knotFields (n : Nat) : List Field :=
  [LAN_AXEB_EB n, LAN_AXKCTL_FREE n, LAN_AXKCTL_LATE n] ++ stateFields n

theorem knotFields_regs {n : Nat} : ∀ f ∈ knotFields n, axisRegs n f.addr = true := by
  have hkctl : axisRegs n (LAN_AXKCTL n) = true := axisRegs_own (k := 0x510c0) (by decide) (by decide)
  simp only [knotFields, List.cons_append, List.nil_append, List.forall_mem_cons]
  exact ⟨axisRegs_own (k := 0x51070) (by decide) (by decide), hkctl, hkctl, stateFields_regs⟩

section
variable (b : Block) (n : Fin 16)

/-- The axis with knot `k` in force; those before it that a query can reach are kept. -/
def Axis.onKnot (x : Axis) (k : Knot) : Axis :=
  { x with knot := some k, past := keptKnots (k.t - BitVec.ofNat 72 (2 ^ 42)) (x.past ++ x.knot.toList) }

/-- The first knot makes ACQUIRING TRACKING. -/
def Block.knotRuns : Block := if b.axState n == 1 then b.setAxState n 2 else b

theorem knotForce_eq (k : Knot) :
    b.knotForce n k = ((b.setAxis n ((b.axes[n]).onKnot k)).knotRuns n).put (LAN_AXEB_EB n) 5000 := rfl

theorem knotRuns_axes : (b.knotRuns n).axes = b.axes := by
  unfold Block.knotRuns
  split
  · exact setAxState_axes b n 2
  · rfl

theorem knotRuns_step : b.axisStep n (knotFields n) [.host, .out] (b.knotRuns n) := by
  refine axisStep_frame (axisStep_refl n _ _ b) ?_ ?_ (knotRuns_axes b n)
  · unfold Block.knotRuns
    split
    · exact keeps_mono (setAxState_keeps b n 2) (List.subset_append_right _ _)
    · exact keeps_refl _ b
  · unfold Block.knotRuns
    split
    · exact setAxState_only_runs b n (by decide) (by decide)
    · exact only_refl _ b

theorem knotForce_step (k : Knot) : b.axisStep n (knotFields n) [.host, .out] (b.knotForce n k) := by
  rw [knotForce_eq]
  exact axisStep_put (axisStep_trans (axisStep_setAxis (axisStep_refl n _ _ b) _) (knotRuns_step _ n)) (by simp [knotFields])

theorem knotForce_axis (k : Knot) : (b.knotForce n k).axes[n] = (b.axes[n]).onKnot k := by
  simp only [knotForce_eq, Block.put_axes, knotRuns_axes, setAxis_same]

theorem knotForce_eb (k : Knot) : (b.knotForce n k).get (LAN_AXEB_EB n) = 5000 := by
  rw [knotForce_eq, Block.get_put_same _ _ _ (by simp)]
  rfl

theorem knotForce_tracks (k : Knot) (h : b.axState n = 1) : (b.knotForce n k).axState n = 2 := by
  have hruns : (b.setAxis n ((b.axes[n]).onKnot k)).knotRuns n = (b.setAxis n ((b.axes[n]).onKnot k)).setAxState n 2 :=
    if_pos (by simp only [beq_iff_eq]; exact h)
  rw [knotForce_eq, hruns, Block.axState, Block.get_put_apart _ _ _ _ (.inl (by simp only [LAN_AXEB, LAN_AXSTAT]; omega))]
  exact setAxState_state _ n (by decide)

/-! ### An armed knot -/

section
variable (hsrc : 3 ≤ b.get (LAN_AXCFG_SRC n))
include hsrc

/-- A full queue: OVF. -/
theorem knotArm_full (hfull : 4 ≤ (b.axes[n]).queue.length) : Block.knotArm n b = b.putB (LAN_AXKCTL_OVF n) true := by
  have hno : ¬ b.get (LAN_AXCFG_SRC n) < 3 := by omega
  simp only [Block.knotArm, if_neg hno, decide_eq_true hfull, Bool.true_or, if_true]

variable (hroom : (b.axes[n]).queue.length < 4) (hlast : (b.axes[n]).lastKT = none)
include hroom hlast

/-- A knot whose KT has gone by comes into force at once, late. -/
theorem knotArm_late (hkt : before (b.reg (LAN_AXKT n)) b.stw = true) : Block.knotArm n b =
    ((b.setAxis n { b.axes[n] with lastKT := some (knotOf b n).t }).knotForce n (knotOf b n)).putB (LAN_AXKCTL_LATE n) true := by
  have hno : ¬ b.get (LAN_AXCFG_SRC n) < 3 := by omega
  have hroom' : ¬ 4 ≤ (b.axes[n]).queue.length := by omega
  simp only [Block.knotArm, if_neg hno, decide_eq_false hroom', hlast, Bool.or_self, Bool.false_eq_true, if_false, hkt, if_true]
  rfl

/-- A knot to come is queued. -/
theorem knotArm_queues (hkt : before (b.reg (LAN_AXKT n)) b.stw = false) : Block.knotArm n b =
    (b.setAxis n { b.axes[n] with lastKT := some (knotOf b n).t, queue := (b.axes[n]).queue ++ [knotOf b n] }).put
      (LAN_AXKCTL_FREE n) (3 - (b.axes[n]).queue.length) := by
  have hno : ¬ b.get (LAN_AXCFG_SRC n) < 3 := by omega
  have hroom' : ¬ 4 ≤ (b.axes[n]).queue.length := by omega
  simp only [Block.knotArm, if_neg hno, decide_eq_false hroom', hlast, Bool.or_self, Bool.false_eq_true, if_false, hkt]
  rfl

end

end

section
variable (s : State) (n : Fin 16)

theorem exec_knotArm_free {s : State} {n : Fin 16} (hf : s.blk.hostFree = true) (hs : s.blk.synced = false) :
    exec (.knotArm n) s = leadsTo s (Block.knotArm n s.blk) :=
  (exec_knotArm s).trans ((done_journaled hf hs _ _).trans (done_leadsTo rfl))

theorem knotArm_joins_queue (hf : s.blk.hostFree = true) (hs : s.blk.synced = false) (hsrc : 3 ≤ s.blk.get (LAN_AXCFG_SRC n))
    (hroom : (s.blk.axes[n]).queue.length < 4) (hlast : (s.blk.axes[n]).lastKT = none)
    (hkt : before (s.blk.reg (LAN_AXKT n)) s.blk.stw = false) :
    ∃ t, exec (.knotArm n) s = .next t ∧ (t.blk.axes[n]).queue = (s.blk.axes[n]).queue ++ [knotOf s.blk n] ∧
      t.blk.get (LAN_AXKCTL_FREE n) = 3 - (s.blk.axes[n]).queue.length ∧
      (∀ m : Fin 16, m ≠ n → t.blk.axes[m] = s.blk.axes[m]) ∧ Frame [LAN_AXKCTL_FREE n] [.axes] s t := by
  have hact := knotArm_queues s.blk n hsrc hroom hlast hkt
  have hstep : s.blk.axisStep n [LAN_AXKCTL_FREE n] [] (Block.knotArm n s.blk) := by
    rw [hact]
    exact axisStep_put (axisStep_setAxis (axisStep_refl n _ _ s.blk) _) (by simp)
  have hqueue : ((Block.knotArm n s.blk).axes[n]).queue = (s.blk.axes[n]).queue ++ [knotOf s.blk n] := by
    simp only [hact, Block.put_axes, setAxis_same]
  have hfree : (Block.knotArm n s.blk).get (LAN_AXKCTL_FREE n) = 3 - (s.blk.axes[n]).queue.length := by
    rw [hact, Block.get_put_same _ _ _ (by simp)]
    exact Nat.mod_eq_of_lt (Nat.lt_of_le_of_lt (Nat.sub_le _ _) (by decide : 3 < 2 ^ 3))
  have hexec := exec_knotArm_free (n := n) hf hs
  generalize Block.knotArm n s.blk = c at hexec hstep hqueue hfree
  exact leadsTo_intro hexec fun u =>
    ⟨hqueue, hfree, hstep.others, frame_intro hstep.keeps hstep.only⟩

theorem knotArm_overflows (hf : s.blk.hostFree = true) (hs : s.blk.synced = false) (hsrc : 3 ≤ s.blk.get (LAN_AXCFG_SRC n))
    (hfull : 4 ≤ (s.blk.axes[n]).queue.length) :
    ∃ t, exec (.knotArm n) s = .next t ∧ t.blk.flag (LAN_AXKCTL_OVF n) = true ∧ Frame [LAN_AXKCTL_OVF n] [] s t :=
  leadsTo_intro ((exec_knotArm s).trans ((done_journaled hf hs _ _).trans (done_leadsTo (knotArm_full s.blk n hsrc hfull))))
    fun _ => ⟨Block.flag_putB_same _ _ _ (by simp) rfl, frame_intro (put_keeps _ _ _) (put_only _ _ _ _)⟩

theorem knotArm_takes_late (hf : s.blk.hostFree = true) (hs : s.blk.synced = false) (hsrc : 3 ≤ s.blk.get (LAN_AXCFG_SRC n))
    (hroom : (s.blk.axes[n]).queue.length < 4) (hlast : (s.blk.axes[n]).lastKT = none)
    (hkt : before (s.blk.reg (LAN_AXKT n)) s.blk.stw = true) :
    ∃ t, exec (.knotArm n) s = .next t ∧ (t.blk.axes[n]).knot = some (knotOf s.blk n) ∧
      (t.blk.axes[n]).queue = (s.blk.axes[n]).queue ∧ t.blk.flag (LAN_AXKCTL_LATE n) = true ∧
      (∀ m : Fin 16, m ≠ n → t.blk.axes[m] = s.blk.axes[m]) ∧ FrameOn (axisRegs n) [.axes, .host, .out] s t := by
  have hact := knotArm_late s.blk n hsrc hroom hlast hkt
  have hstep : s.blk.axisStep n (knotFields n) [.host, .out] (Block.knotArm n s.blk) := by
    rw [hact]
    exact axisStep_putB (axisStep_trans (axisStep_setAxis (axisStep_refl n _ _ s.blk) _) (knotForce_step _ n _))
      (by simp [knotFields])
  have hax : (Block.knotArm n s.blk).axes[n] =
      ({ s.blk.axes[n] with lastKT := some (knotOf s.blk n).t } : Axis).onKnot (knotOf s.blk n) := by
    rw [hact, Block.putB_axes, knotForce_axis, setAxis_same]
  have hlate : (Block.knotArm n s.blk).flag (LAN_AXKCTL_LATE n) = true := by
    rw [hact]
    exact Block.flag_putB_same _ _ _ (by simp) rfl
  have hexec := exec_knotArm_free (n := n) hf hs
  generalize Block.knotArm n s.blk = c at hexec hstep hax hlate
  refine leadsTo_intro hexec fun u => ?_
  rw [Block.withTags_axes, hax]
  exact ⟨rfl, rfl, hlate, hstep.others, axisStep_frameOn hstep knotFields_regs⟩

/-- The clocks reach KT of the first queued knot. -/
theorem knotEffect_forces (k : Knot) (r : List Knot) (hq : (s.blk.axes[n]).queue = k :: r) :
    ∃ t, exec (.knotEffect n) s = .next t ∧ (t.blk.axes[n]).knot = some k ∧ (t.blk.axes[n]).queue = r ∧
      before t.blk.stw k.t = false ∧ t.blk.get (LAN_AXEB_EB n) = 5000 ∧ (s.blk.axState n = 1 → t.blk.axState n = 2) ∧
      (∀ m : Fin 16, m ≠ n → t.blk.axes[m] = s.blk.axes[m]) ∧ FrameOn (axisRegs n) [.axes, .tm, .host, .out] s t := by
  have hexec : exec (.knotEffect n) s = leadsTo s ((((s.blk.reachStw k.t).setAxis n
      { (s.blk.reachStw k.t).axes[n] with queue := r }).put (LAN_AXKCTL_FREE n) (4 - r.length)).knotForce n k) := by
    refine (exec_knotEffect s).trans (done_leadsTo ?_)
    simp only [hq]
  have hreach : s.blk.axisStep n (knotFields n) [.tm, .host, .out] (s.blk.reachStw k.t) :=
    ⟨keeps_of_regs (reachStw_regs _ _), only_mono (reachStw_only _ _) (by simp),
      fun m _ => by rw [only_axes (reachStw_only s.blk k.t) (by simp)]⟩
  have hstate : (s.blk.reachStw k.t).axState n = s.blk.axState n := by simp only [Block.axState, Block.get, Block.reg, reachStw_regs]
  have hnow := reachStw_not_before s.blk k.t
  generalize s.blk.reachStw k.t = c at hexec hreach hstate hnow
  have hqueued : c.axisStep n (knotFields n) [.host, .out]
      ((c.setAxis n { c.axes[n] with queue := r }).put (LAN_AXKCTL_FREE n) (4 - r.length)) :=
    axisStep_put (axisStep_setAxis (axisStep_refl n _ _ c) _) (by simp [knotFields])
  have hqax : ((c.setAxis n { c.axes[n] with queue := r }).put (LAN_AXKCTL_FREE n) (4 - r.length)).axes[n] =
      { c.axes[n] with queue := r } := by simp only [Block.put_axes, setAxis_same]
  have hqstate : ((c.setAxis n { c.axes[n] with queue := r }).put (LAN_AXKCTL_FREE n) (4 - r.length)).axState n = c.axState n :=
    Block.get_put_apart _ _ _ _ (.inl (by simp only [LAN_AXKCTL, LAN_AXSTAT]; omega))
  generalize (c.setAxis n { c.axes[n] with queue := r }).put (LAN_AXKCTL_FREE n) (4 - r.length) = d at hexec hqueued hqax hqstate
  have hforced := axisStep_trans hqueued (knotForce_step d n k)
  have hstep := axisStep_trans hreach (axisStep_mono hforced (List.Subset.refl _) (by simp))
  have hax := knotForce_axis d n k
  rw [hqax] at hax
  have htm := only_tm hforced.only (by simp)
  refine leadsTo_intro hexec fun u => ?_
  rw [Block.withTags_axes, hax]
  refine ⟨rfl, rfl, ?_, knotForce_eb d n k, fun h1 => knotForce_tracks d n k (hqstate.trans (hstate.trans h1)), hstep.others,
    axisStep_frameOn hstep knotFields_regs⟩
  have hstw : ((d.knotForce n k).withTags u).stw = c.stw := by simp only [Block.stw, Block.withTags_tm, htm]
  rw [hstw, hnow]

theorem axisFaultsClr_clears (hf : s.blk.hostFree = true) (hs : s.blk.synced = false) :
    ∃ t, exec (.axisFaultsClr n) s = .next t ∧ t.blk.get (LAN_AXSTAT_FAULTS n) = 0 ∧ Frame [LAN_AXSTAT_FAULTS n] [] s t :=
  leadsTo_intro ((exec_axisFaultsClr s).trans ((done_journaled hf hs _ _).trans (done_leadsTo rfl))) fun _ =>
    ⟨(Block.get_put_same _ _ _ (by simp)).trans (Nat.zero_mod _), frame_intro (put_keeps _ _ _) (put_only _ _ _ _)⟩

end

/-! ### Captures and requests (R125, R128, R129) -/

/-- The fields of a capture of axis `n`. -/
def captureFields (n : Nat) : List Field :=
  [⟨LAN_AXCAPT n, 0, 72⟩, ⟨LAN_AXCAPP n, 0, 72⟩, ⟨LAN_AXCAPV n, 0, 72⟩, ⟨LAN_AXCAPA n, 0, 72⟩, LAN_AXCAP_SEQ n]

/-- The block with the four words of a capture of axis `n`. -/
def Block.captured (b : Block) (n : Nat) (s0 p v a : Word) : Block :=
  ((((b.setReg (LAN_AXCAPT n) s0).setReg (LAN_AXCAPP n) p).setReg (LAN_AXCAPV n) v).setReg (LAN_AXCAPA n) a).incMod
    (LAN_AXCAP_SEQ n) 1

section
variable (b : Block) (k : Nat) (s0 p v a : Word)

theorem captured_reg {c : Nat} (h : c ≠ LAN_AXCAP k) : (b.captured k s0 p v a).reg c =
    ((((b.setReg (LAN_AXCAPT k) s0).setReg (LAN_AXCAPP k) p).setReg (LAN_AXCAPV k) v).setReg (LAN_AXCAPA k) a).reg c :=
  Block.reg_setReg_ne _ _ h

theorem captured_shows : (b.captured k s0 p v a).reg (LAN_AXCAPT k) = s0 ∧ (b.captured k s0 p v a).reg (LAN_AXCAPV k) = v ∧
    (b.captured k s0 p v a).reg (LAN_AXCAPA k) = a ∧ (b.captured k s0 p v a).reg (LAN_AXCAPP k) = p ∧
    (b.captured k s0 p v a).get (LAN_AXCAP_SEQ k) = (b.get (LAN_AXCAP_SEQ k) + 1) % 2 ^ (LAN_AXCAP_SEQ 0).w := by
  refine ⟨?_, ?_, ?_, ?_, ?_⟩
  · rw [captured_reg _ _ _ _ _ _ (by simp), Block.reg_setReg_ne _ _ (by simp), Block.reg_setReg_ne _ _ (by simp),
      Block.reg_setReg_ne _ _ (by simp), Block.reg_setReg_same]
  · rw [captured_reg _ _ _ _ _ _ (by simp), Block.reg_setReg_ne _ _ (by simp), Block.reg_setReg_same]
  · rw [captured_reg _ _ _ _ _ _ (by simp), Block.reg_setReg_same]
  · rw [captured_reg _ _ _ _ _ _ (by simp), Block.reg_setReg_ne _ _ (by simp), Block.reg_setReg_ne _ _ (by simp),
      Block.reg_setReg_same]
  · rw [Block.captured, Block.incMod, Block.get_put_same _ _ _ (by simp), Block.get_setReg_ne _ _ _ _ (by simp),
      Block.get_setReg_ne _ _ _ _ (by simp), Block.get_setReg_ne _ _ _ _ (by simp), Block.get_setReg_ne _ _ _ _ (by simp)]

theorem captured_keeps : b.keeps (captureFields k) (b.captured k s0 p v a) :=
  keeps_put (keeps_setReg (keeps_setReg (keeps_setReg (keeps_setReg (keeps_refl _ b) (by simp [captureFields]))
    (by simp [captureFields])) (by simp [captureFields])) (by simp [captureFields])) (by simp [captureFields])

theorem captured_only : b.only [] (b.captured k s0 p v a) := by simp [Block.only, Block.captured]

end

/-- On SRC 1 and 2 a capture takes the estimator. -/
theorem axisCapture_estimator (b : Block) (n : Fin 16) (h : b.get (LAN_AXCFG_SRC n) ≤ 2) : Block.axisCapture n b =
    b.captured n (b.axes[n]).s0 (posWord (modPos (b.get (LAN_AXMOD_MOD n)) ((b.axes[n]).p / 2 ^ 24)))
      (posWord ((b.axes[n]).v / 2 ^ 16)) (posWord ((b.axes[n]).a / 2 ^ 16)) := by
  have hno : ¬ b.get (LAN_AXCFG_SRC n) ≥ 3 := by omega
  simp only [Block.axisCapture, axisS0, if_neg hno, Axis.poly, Block.captured]

section
variable (s : State) (n : Fin 16)

theorem axisCapture_shows (hf : s.blk.hostFree = true) (hs : s.blk.synced = false) (_ : 1 ≤ s.blk.get (LAN_AXCFG_SRC n))
    (hsrc : s.blk.get (LAN_AXCFG_SRC n) ≤ 2) (_ : 0 < (s.blk.axes[n]).applied) :
    ∃ t, exec (.axisCapture n) s = .next t ∧ t.blk.reg (LAN_AXCAPT n) = (s.blk.axes[n]).s0 ∧
      t.blk.reg (LAN_AXCAPV n) = posWord ((s.blk.axes[n]).v / 2 ^ 16) ∧
      t.blk.reg (LAN_AXCAPA n) = posWord ((s.blk.axes[n]).a / 2 ^ 16) ∧
      t.blk.reg (LAN_AXCAPP n) = posWord (modPos (s.blk.get (LAN_AXMOD_MOD n)) ((s.blk.axes[n]).p / 2 ^ 24)) ∧
      t.blk.get (LAN_AXCAP_SEQ n) = (s.blk.get (LAN_AXCAP_SEQ n) + 1) % 2 ^ (LAN_AXCAP_SEQ 0).w ∧
      Frame [⟨LAN_AXCAPT n, 0, 72⟩, ⟨LAN_AXCAPP n, 0, 72⟩, ⟨LAN_AXCAPV n, 0, 72⟩, ⟨LAN_AXCAPA n, 0, 72⟩,
        LAN_AXCAP_SEQ n] [] s t := by
  refine leadsTo_intro ((exec_axisCapture s).trans ((done_journaled hf hs _ _).trans
    (done_leadsTo (axisCapture_estimator s.blk n hsrc)))) fun u => ?_
  obtain ⟨ht, hv, ha, hp, hseq⟩ := captured_shows s.blk n (s.blk.axes[n]).s0
    (posWord (modPos (s.blk.get (LAN_AXMOD_MOD n)) ((s.blk.axes[n]).p / 2 ^ 24))) (posWord ((s.blk.axes[n]).v / 2 ^ 16))
    (posWord ((s.blk.axes[n]).a / 2 ^ 16))
  exact ⟨ht, hv, ha, hp, hseq, frame_intro (captured_keeps ..) (captured_only ..)⟩

/-- A request starts (R128). -/
theorem hostP2tGo_starts (data : Half) (hf : s.blk.hostFree = true) (hs : s.blk.synced = false) (hdir : data.toNat / 2 % 4 ≤ 2) :
    ∃ t, exec (.hostP2tGo n data) s = .next t ∧ t.blk.get (LAN_AXQCTL_DIR n) = data.toNat / 2 % 4 ∧
      t.blk.flag (LAN_AXQCTL_DONE n) = false ∧ (t.blk.axes[n]).p2t = true ∧
      Frame [LAN_AXQCTL_DIR n, LAN_AXQCTL_DONE n] [.axes] s t := by
  have hact : Block.hostP2tGo n data s.blk = ((s.blk.put (LAN_AXQCTL_DIR n) (data.toNat / 2 % 4)).putB (LAN_AXQCTL_DONE n)
      false).setAxis n { s.blk.axes[n] with p2t := true } := by simp only [Block.hostP2tGo, if_pos hdir]
  refine leadsTo_intro ((exec_hostP2tGo s).trans ((done_journaled hf hs _ _).trans (done_leadsTo hact))) fun u =>
    ⟨?_, Block.flag_putB_same _ _ _ (by simp) rfl, ?_, ?_⟩
  · have hput := Block.get_put_same s.blk (LAN_AXQCTL_DIR n) (data.toNat / 2 % 4) (by simp)
    refine (Block.get_putB_apart _ _ _ _ (.inr (by simp))).trans (hput.trans (Nat.mod_eq_of_lt ?_))
    exact Nat.lt_of_le_of_lt hdir (by decide : 2 < 2 ^ 2)
  · rw [Block.withTags_axes, setAxis_same]
  · exact frame_intro (keeps_part (keeps_putB (keeps_put (keeps_refl _ _) (by simp)) (by simp)) rfl) (setAxis_only _ n _)

/-- The block as the request of axis `n` completes with result `r`. -/
def Block.p2tDone (b : Block) (n : Fin 16) (r : Word × Nat) : Block :=
  (((b.setAxis n { b.axes[n] with p2t := false }).setReg (LAN_AXQRES n) r.1).put (LAN_AXQCTL_STATUS n) r.2).putB
    (LAN_AXQCTL_DONE n) true

theorem p2tDone_shows (b : Block) (r : Word × Nat) : (b.p2tDone n r).flag (LAN_AXQCTL_DONE n) = true ∧
    ((b.p2tDone n r).axes[n]).p2t = false ∧ (b.p2tDone n r).reg (LAN_AXQRES n) = r.1 ∧
    (b.p2tDone n r).get (LAN_AXQCTL_STATUS n) = r.2 % 2 ^ (LAN_AXQCTL_STATUS 0).w := by
  refine ⟨Block.flag_putB_same _ _ _ (by simp) rfl, ?_, ?_, ?_⟩
  · rw [Block.p2tDone, Block.putB_axes, Block.put_axes, Block.setReg_axes, setAxis_same]
  · rw [Block.p2tDone, Block.putB, Block.put, Block.put, Block.reg_setReg_ne _ _ (by simp), Block.reg_setReg_ne _ _ (by simp),
      Block.reg_setReg_same]
  · rw [Block.p2tDone, Block.get_putB_apart _ _ _ _ (.inr (by simp)), Block.get_put_same _ _ _ (by simp)]

theorem p2tDone_keeps (b : Block) (r : Word × Nat) :
    b.keeps [⟨LAN_AXQRES n, 0, 72⟩, LAN_AXQCTL_STATUS n, LAN_AXQCTL_DONE n] (b.p2tDone n r) :=
  keeps_putB (keeps_put (keeps_setReg (keeps_of_regs rfl) (by simp)) (by simp)) (by simp)

/-- A request completes with the result and the status of its query (R128). -/
theorem hostP2tDone_completes (hreq : (s.blk.axes[n]).p2t = true) : ∃ t, exec (.hostP2tDone n) s = .next t ∧
    t.blk.flag (LAN_AXQCTL_DONE n) = true ∧ (t.blk.axes[n]).p2t = false ∧
    t.blk.reg (LAN_AXQRES n) = (s.blk.p2tOf n (s.blk.reg (LAN_AXQPOS n)) (s.blk.get (LAN_AXQCTL_DIR n))).1 ∧
    t.blk.get (LAN_AXQCTL_STATUS n) =
      (s.blk.p2tOf n (s.blk.reg (LAN_AXQPOS n)) (s.blk.get (LAN_AXQCTL_DIR n))).2 % 2 ^ (LAN_AXQCTL_STATUS 0).w ∧
    Frame [⟨LAN_AXQRES n, 0, 72⟩, LAN_AXQCTL_STATUS n, LAN_AXQCTL_DONE n] [.axes] s t := by
  have hexec : exec (.hostP2tDone n) s =
      leadsTo s (s.blk.p2tDone n (s.blk.p2tOf n (s.blk.reg (LAN_AXQPOS n)) (s.blk.get (LAN_AXQCTL_DIR n)))) :=
    (exec_hostP2tDone s).trans (done_leadsTo (if_pos hreq))
  generalize s.blk.p2tOf n (s.blk.reg (LAN_AXQPOS n)) (s.blk.get (LAN_AXQCTL_DIR n)) = r at hexec ⊢
  have hshows := p2tDone_shows n s.blk r
  have hkeeps := p2tDone_keeps n s.blk r
  have honly : s.blk.only [.axes] (s.blk.p2tDone n r) := setAxis_only s.blk n _
  generalize s.blk.p2tDone n r = c at hexec hshows hkeeps honly
  obtain ⟨hdone, hclear, hres, hstat⟩ := hshows
  exact leadsTo_intro hexec fun u => ⟨hdone, hclear, hres, hstat, frame_intro hkeeps honly⟩

end

/-! ### The recompute of waits (R127) -/

/-- A recompute ends a wait at most: it keeps an engine's registers and counter. -/
theorem recomputeOne_keeps (b : Block) (e : Engine) : (b.recomputeOne e).g = e.g ∧ (b.recomputeOne e).pc = e.pc := by
  unfold Block.recomputeOne
  split
  · simp only
    split
    · exact ⟨rfl, rfl⟩
    · split
      · split
        · exact ⟨rfl, rfl⟩
        · exact ⟨rfl, rfl⟩
      · exact ⟨rfl, rfl⟩
  · exact ⟨rfl, rfl⟩

/-- A wait whose crossing has gone by ends. -/
theorem recomputeOne_ends {b : Block} {e : Engine} {w : WaitSlot} {gs tf : Nat} {dl : Option Nat} {d : Int}
    (hwait : e.wait = .line w none gs tf dl) (hst : b.axState w.axis ≠ 1) (hd : d ≤ 0)
    (hcross : waitCross (b.get (LAN_AXCFG_SRC w.axis)) (b.axes[w.axis % 16]?.getD Axis.reset) b.stw w = some d) :
    (b.recomputeOne e).wait = .line w (some 0) gs tf dl := by
  simp only [Block.recomputeOne, hwait, beq_eq_false_iff_ne.mpr hst, Bool.false_eq_true, if_false, hcross, if_pos hd]

/-- The block with every wait recomputed. -/
def Block.recomputed (b : Block) : Block := { b with eng := b.eng.map b.recomputeOne }

section
variable (b : Block)

theorem recomputed_eng (e : Fin 16) : b.recomputed.eng[e] = b.recomputeOne b.eng[e] := by simp [Block.recomputed]

theorem recomputed_tm : b.recomputed.tm = b.tm := rfl

theorem recomputed_regs : b.recomputed.regs = b.regs := rfl

theorem recomputed_only : b.only [.eng] b.recomputed := by simp [Block.only, Block.recomputed]

end

theorem exec_waitRecompute_eq (s : State) :
    exec .waitRecompute s = leadsTo s (s.blk.reachNs ((s.blk.nowNs / 1000 + 1) * 1000)).recomputed := by
  refine (exec_waitRecompute s).trans (done_leadsTo ?_)
  dsimp only [Block.recomputed]

/-- The waits of all engines are recomputed at the next microsecond (R127, R128). -/
theorem waitRecompute_ends (s : State) : ∃ t, exec .waitRecompute s = .next t ∧ s.blk.nowNs < t.blk.nowNs ∧
    t.blk.nowNs % 1000 = 0 ∧ (∀ e : Fin 16, (t.blk.eng[e]).g = (s.blk.eng[e]).g ∧ (t.blk.eng[e]).pc = (s.blk.eng[e]).pc) ∧
    (∀ (e : Fin 16) (w : WaitSlot) (gs tf : Nat) (dl : Option Nat) (d : Int),
      (s.blk.eng[e]).wait = .line w none gs tf dl → s.blk.axState w.axis ≠ 1 → d ≤ 0 →
      waitCross (s.blk.get (LAN_AXCFG_SRC w.axis)) (s.blk.axes[w.axis % 16]?.getD Axis.reset) t.blk.stw w = some d →
      (t.blk.eng[e]).wait = .line w (some 0) gs tf dl) ∧
    Frame [] [.eng, .tm] s t := by
  have hexec := exec_waitRecompute_eq s
  have hahead : s.blk.nowNs < (s.blk.nowNs / 1000 + 1) * 1000 := by omega
  have hnow := reachNs_ahead hahead
  have honly := reachNs_only s.blk ((s.blk.nowNs / 1000 + 1) * 1000)
  have hkeeps := reachNs_keeps s.blk ((s.blk.nowNs / 1000 + 1) * 1000)
  have hget := reachNs_get s.blk ((s.blk.nowNs / 1000 + 1) * 1000)
  generalize s.blk.reachNs ((s.blk.nowNs / 1000 + 1) * 1000) = c at hexec hnow honly hkeeps hget
  have heng := only_eng honly (by simp)
  have hax := only_axes honly (by simp)
  have htm := recomputed_tm c
  have heng' := recomputed_eng c
  have hkeeps' := keeps_part hkeeps (recomputed_regs c)
  have honly' : s.blk.only [.eng, .tm] c.recomputed :=
    only_trans (only_mono honly (by simp)) (only_mono (recomputed_only c) (by simp))
  generalize c.recomputed = d at hexec htm heng' hkeeps' honly'
  have hnow' : ∀ u, (d.withTags u).nowNs = (s.blk.nowNs / 1000 + 1) * 1000 := by
    intro u
    rw [← hnow, Block.nowNs, Block.withTags_tm, htm, Block.nowNs]
  refine leadsTo_intro hexec fun u => ⟨?_, ?_, fun e => ?_, fun e w gs tf dl d hwait hst hd hcross => ?_, frame_intro hkeeps' honly'⟩
  · rw [hnow']
    exact hahead
  · rw [hnow', Nat.mul_mod_left]
  · rw [Block.withTags_eng, heng', heng]
    exact recomputeOne_keeps c _
  · rw [Block.withTags_eng, heng', heng]
    rw [Block.stw, Block.withTags_tm, htm, ← Block.stw] at hcross
    refine recomputeOne_ends hwait (by rwa [Block.axState, hget]) hd ?_
    rw [hget, hax]
    exact hcross

/-- Settles O14: a clause for each command on knots, captures, requests and the recompute of waits. -/
theorem knotsAndQueries : Obligations.KnotsAndQueries := by
  unfold Obligations.KnotsAndQueries
  exact ⟨knotArm_joins_queue, knotArm_overflows, knotArm_takes_late, knotEffect_forces, axisFaultsClr_clears, axisCapture_shows,
    hostP2tGo_starts, hostP2tDone_completes, waitRecompute_ends⟩

end Sys2Proof.Machine
end

section
/-! A wake that meets COMPASS already in its last stage, and why the statement on power events fails: the time scale that it restores
is qualified at once by row 6 of Table 3-1, which ends ESTIMATED (R104, R131). -/

namespace Sys2Proof.Machine

/-! ### Until the time scale is restored, nothing touches what row 6 reads -/

/-- Every register but the two that row 6 of Table 3-1 reads on the LANT clock. -/
def qualTouch (a : Nat) : Bool := a != CMP_STAT && a != LAN_TCTL

/-- The parts that a PLL's lock touches. -/
def lockParts : List Part := [.clk, .encs, .trc, .host, .out]

section
variable {b c : Block}

theorem changes_foldl {α : Type} {touch : Nat → Bool} {ps : List Part} {step : Block → α → Block} {l : List α}
    (h : ∀ (c : Block) (a : α), a ∈ l → c.changes touch ps (step c a)) (b : Block) : b.changes touch ps (l.foldl step b) := by
  induction l generalizing b with
  | nil => exact changes_refl _ _ b
  | cons x l ih =>
    exact changes_trans (h b x (List.mem_cons_self ..)) (ih (fun c a ha => h c a (List.mem_cons_of_mem x ha)) _)

theorem qualTouch_of_lt {a : Nat} (h : a < 0x40000) : qualTouch a = true := by
  simp only [qualTouch, bne_iff_ne, Bool.and_eq_true]
  exact ⟨by simp only [CMP_STAT]; omega, by simp only [LAN_TCTL]; omega⟩

theorem outsOn_changes : ∀ (l : List Nat) (b : Block), b.changes qualTouch lockParts (b.outsOn l)
  | [], b => changes_refl _ _ b
  | i :: l, b => by
    refine changes_trans ?_ (outsOn_changes l _)
    split
    · exact changes_put (changes_refl _ _ b) rfl
    · exact changes_refl _ _ b

theorem encLine_changes (b : Block) {e : Nat} (h : e < 4) : b.changes qualTouch lockParts (b.encLine e) := by
  have hreg : qualTouch (ENC_STAT e) = true := by
    simp only [qualTouch, ENC_STAT, CMP_STAT, LAN_TCTL, bne_iff_ne, Bool.and_eq_true]
    omega
  unfold Block.encLine
  simp only
  split
  · exact changes_putB (changes_of_only rfl (by simp [Block.only, lockParts])) hreg
  · exact changes_putB (changes_refl _ _ b) hreg

theorem encLines_changes (b : Block) : b.changes qualTouch lockParts b.encLines :=
  changes_foldl (fun c _ he => encLine_changes c (List.mem_range.mp he)) b

theorem mapPll_changes (h : b.changes qualTouch lockParts c) (p : Nat) (f : PllSt → PllSt) :
    b.changes qualTouch lockParts (c.mapPll p f) := changes_part h rfl (by simp [Block.only, Block.mapPll, lockParts])

variable {p : Nat} (hp : p < 3)
include hp

theorem pllField_touched (lo w : Nat) : qualTouch (pllField p lo w).addr = true :=
  qualTouch_of_lt (by simp only [pllField, CLK_MAINSTAT]; omega)

theorem pllGo_changes (h : b.changes qualTouch lockParts c) (st : Nat) : b.changes qualTouch lockParts (c.pllGo p st) :=
  mapPll_changes (changes_put h (pllField_touched hp 0 3)) p _

theorem pllRelease_changes (b : Block) (trim : BitVec 8) : b.changes qualTouch lockParts (b.pllRelease p trim) := by
  have hfab : b.changes qualTouch lockParts b.fabTouch :=
    changes_mono (changes_of_counted (fabTouch_counted b)) (fun a ha => by
      simp only [galTouch, within, EVT_PEND, EVT_OVR, Bool.or_eq_true, Bool.and_eq_true, decide_eq_true_eq, beq_iff_eq] at ha
      simp only [qualTouch, CMP_STAT, LAN_TCTL, bne_iff_ne, Bool.and_eq_true]
      omega) (by simp [lockParts])
  have hlock : ∀ {c : Block}, b.changes qualTouch lockParts c → b.changes qualTouch lockParts
      ((((c.pllGo p 4).outsOn (pllOuts p)).putB CLK_CAUSE_RELOCKED true).put CLK_CAUSE_PLL p) := fun hc =>
    changes_put (changes_putB (changes_trans (pllGo_changes hp hc 4) (outsOn_changes (pllOuts p) _)) rfl) rfl
  unfold Block.pllRelease
  simp only
  split
  · exact changes_trans (hlock (changes_put hfab rfl)) (encLines_changes _)
  · exact hlock (changes_refl _ _ b)

theorem pllUp_changes (b : Block) : b.changes qualTouch lockParts (b.pllUp p) := by
  refine changes_trans ?_ (pllRelease_changes hp _ _)
  exact changes_put (changes_put (mapPll_changes (pllGo_changes hp (changes_refl _ _ b) 1) p _) (pllField_touched hp 3 4))
    (pllField_touched hp 7 6)

end

/-! ### The restored time scale is qualified -/

/-- The registers say that COMPASS is in stage 3 of its state 2, with no domain in control. -/
structure Block.compassLocked (b : Block) : Prop where
  state : b.get CMP_STAT_STATE = 2
  stage : b.get CMP_STAT_STAGE = 3
  dom : b.get LAN_TCTL_DOM = 0

theorem compassLocked_changes {ps : List Part} {b c : Block} (h : b.compassLocked) (hc : b.changes qualTouch ps c) : c.compassLocked :=
  ⟨(changes_get hc rfl).trans h.state, (changes_get hc rfl).trans h.stage, (changes_get hc rfl).trans h.dom⟩

theorem qualRow6_of_locked {b : Block} (h : b.compassLocked) : b.qualRow6 = true := by
  simp only [Block.qualRow6, h.state, h.stage, h.dom, beq_self_eq_true, Bool.true_or, Bool.and_self]

/-- Row 6 ends ESTIMATED. -/
theorem requal_ends_estimated {b : Block} (h : b.qualRow6 = true) : b.requal.tm.restored = false := by
  unfold Block.requal
  simp only [h, if_true]
  split
  · rfl
  · rw [only_tm (raise_only _ _) (by simp)]
    split <;> rfl

theorem timeRestore_qualified {b : Block} {r : TimeRecord} (h : b.compassLocked) (hr : b.tm.record = some r) :
    b.timeRestore.tm.restored = false := by
  simp only [Block.timeRestore, hr]
  refine requal_ends_estimated (qualRow6_of_locked (compassLocked_changes (b := b) (ps := [.tm, .sec]) h ?_))
  exact changes_putB (changes_put (changes_of_only rfl (by simp [Block.only])) rfl) rfl

theorem timeUp_qualified {b : Block} {r : TimeRecord} (h : b.compassLocked) (hr : b.tm.record = some r) :
    b.timeUp.tm.restored = false := by
  have hovens : ∀ t f, b.changes qualTouch [.tm, .tic] ((b.withTm t).mapTic f) := fun t f =>
    changes_of_only rfl (by simp [Block.only, Block.mapTic, Block.withTm])
  have hlocks : ∀ c : Block, c.changes qualTouch lockParts ((c.pllUp 0).pllUp 1) := fun c =>
    changes_trans (pllUp_changes (by decide) c) (pllUp_changes (by decide) _)
  refine timeRestore_qualified (r := r) (compassLocked_changes (compassLocked_changes h (hovens _ _)) (hlocks _)) ?_
  rw [only_tm (hlocks _).2 (by simp [lockParts])]
  exact hr

/-! ### What follows leaves the time scale -/

section
variable (b : Block)

theorem foldl_tm {α : Type} {step : Block → α → Block} (h : ∀ c a, (step c a).tm = c.tm) (l : List α) (b : Block) :
    (l.foldl step b).tm = b.tm := by
  induction l generalizing b with
  | nil => rfl
  | cons x l ih => exact (ih _).trans (h b x)

theorem pllUp_tm {p : Nat} (hp : p < 3) : (b.pllUp p).tm = b.tm := only_tm (pllUp_changes hp b).2 (by simp [lockParts])

theorem hostUp_tm : (b.hostUp true).tm = b.tm := by
  have hlock := pllUp_tm b (p := 2) (by decide)
  unfold Block.hostUp
  simp only [if_true]
  split
  · exact hlock
  · exact hlock

theorem ringView_tm (n : Nat) : (b.ringView n).tm = b.tm := by
  unfold Block.ringView
  exact foldl_tm (fun c j => by rw [Block.put_tm, Block.put_tm]) _ b

theorem reapply_tm (c : Channel) : (b.reapply c).tm = b.tm := by
  unfold Block.reapply
  split
  · rfl
  split
  · rfl
  split
  · rfl
  split
  · exact ringView_tm _ _
  split
  · rfl
  · rfl

theorem rowsShow_tm (k : Nat) : (b.rowsShow k).tm = b.tm := by
  unfold Block.rowsShow
  simp only
  split
  · rfl
  · rfl

theorem reapplyAll_tm : b.reapplyAll.tm = b.tm := by
  unfold Block.reapplyAll
  simp only
  rw [only_tm (flwShow_changes (ps := []) _).2 (by simp), only_tm (shareUpdate_changes _).2 (by simp [flowParts]), Block.spareUpdate,
    Block.putB_tm, Block.put_tm, foldl_tm rowsShow_tm, foldl_tm reapply_tm]

theorem quadShow_tm (q : Nat) : (b.quadShow q).tm = b.tm := by
  unfold Block.quadShow
  split
  · rfl
  · rfl

theorem pwrTo_tm (st : Nat) : (b.pwrTo st).tm = b.tm := by
  unfold Block.pwrTo
  simp only
  rw [only_tm (raise_only _ _) (by simp), Block.quadShows, foldl_tm quadShow_tm, Block.mapPw_tm, Block.putB_tm, Block.put_tm, Block.put_tm]

theorem unseal_tm (m : BitVec 1538) : (b.unseal m).tm = b.tm := by rw [Block.unseal, Block.pendShow, Block.put_tm, Block.mapPw_tm]

end

theorem mapRings_only (b : Block) (f : RingsSt → RingsSt) : b.only [.rings] (b.mapRings f) := by simp [Block.only, Block.mapRings]

/-- A wake that switches PD2 on restores the time scale, and no later step of it touches that. -/
theorem wakeUp_qualified {b : Block} {r : TimeRecord} (h : b.compassLocked) (hr : b.tm.record = some r) (hoff : b.domOn 2 = false)
    (code : Nat) : (b.wakeUp code).tm.restored = false := by
  have hdomains : ∀ m f, b.changes qualTouch [.rings]
      ((((b.put PWR_CAUSE_WSRC code).putB PWR_CAUSE_WAKE true).setDomains m).mapRings f) := fun m f =>
    changes_part (changes_put (changes_putB (changes_put (changes_refl _ _ b) rfl) rfl) rfl) rfl (mapRings_only _ f)
  have htime := fun m f => timeUp_qualified (compassLocked_changes h (hdomains m f)) ((congrArg TimeSt.record
    (only_tm (hdomains m f).2 (by simp))).trans hr)
  unfold Block.wakeUp
  simp only [hoff, Bool.not_false, if_true]
  rw [only_tm (occurAll_only _ _) (by simp)]
  simp only [pwrTo_tm, Block.mapPw_tm, apply_ite Block.tm, unseal_tm, ite_self, reapplyAll_tm, hostUp_tm]
  exact htime _ _

theorem advanceNs_get (b : Block) (dt : Nat) (f : Field) : (b.advanceNs dt).get f = b.get f := by
  rw [Block.get, Block.reg, Block.advanceNs_regs, ← Block.reg, ← Block.get]

/-- The command does so. -/
theorem wake_qualified {s : State} {w : WakeSrc} {dt : Nat} {r : TimeRecord} (hstate : s.blk.pwrState = 3)
    (hw : (s.blk.advanceNs dt).wakes w = true) (h : s.blk.compassLocked) (hr : s.blk.tm.record = some r) (hoff : s.blk.domOn 2 = false) :
    ∃ t, exec (.wake [w] dt) s = .next t ∧ t.blk.tm.restored = false := by
  have hsame : s.blk.changes qualTouch [.tm] (s.blk.advanceNs dt) := changes_of_only rfl (by simp [Block.only])
  have hstate' : (s.blk.advanceNs dt).pwrState = 3 := (advanceNs_get ..).trans hstate
  have hoff' : (s.blk.advanceNs dt).domOn 2 = false := by rwa [Block.domOn, advanceNs_get]
  have hr' : (s.blk.advanceNs dt).tm.record = some r := hr
  have hqual := wakeUp_qualified (compassLocked_changes h hsame) hr' hoff' w.code.val
  refine donePower_intro (exec_wake s) fun u => ?_
  rw [Block.withTags_tm]
  generalize s.blk.advanceNs dt = c at hw hstate' hqual
  simpa only [hstate', if_true, List.filter_cons_of_pos hw, List.filter_nil, List.map_cons, List.map_nil, List.min?_singleton] using hqual

/-! ### A state in which that happens -/

/-- The registers of a module in STANDBY with PD0 and PD1 on that wakes by source 2, with COMPASS in its last stage. -/
def standbyBlock : Block :=
  ((((((Block.reset.put PWR_STAT_STATE 3).put PWR_STAT_DOMON 3).put PWR_WEN_SRC 2).put CMP_STAT_STATE 2).put CMP_STAT_STAGE 3).put
    LAN_TCTL_DOM 0).put SYS_PROFILE_ACT 1

/-- The same with a time record. -/
def standbyState : State :=
  { blk := { standbyBlock with tm := { standbyBlock.tm with record := some ⟨0, 0, 0⟩ } }, pending := [] }

theorem standby_get (f : Field) : standbyState.blk.get f = standbyBlock.get f := rfl

theorem standby_locked : standbyState.blk.compassLocked := by
  refine ⟨?_, ?_, ?_⟩
  · simp [standby_get, standbyBlock]
  · simp [standby_get, standbyBlock]
  · simp [standby_get, standbyBlock]

theorem standby_state : standbyState.blk.pwrState = 3 := by simp [Block.pwrState, standby_get, standbyBlock]

theorem standby_domains : standbyState.blk.get PWR_STAT_DOMON = 3 := by simp [standby_get, standbyBlock]

theorem standby_profile : standbyState.blk.profile = 1 := by simp [Block.profile, standby_get, standbyBlock]

theorem standby_sources : standbyState.blk.get PWR_WEN_SRC = 2 := by simp [standby_get, standbyBlock]

theorem standby_wakes : (standbyState.blk.advanceNs 0).wakes ⟨2, 0, true⟩ = true := by
  simp [Block.wakes, advanceNs_get, standby_sources, bitAt]

/-- Refutes O52: the module in `standbyState` wakes by source 2, restores the time scale from its record, and is QUALIFIED at once, so
that ESTIMATED has ended when the wake is over. -/
theorem not_powerEvents : ¬ Obligations.PowerEvents := by
  unfold Obligations.PowerEvents
  rintro ⟨hwake, -⟩
  have hoff : standbyState.blk.domOn 2 = false := by simp [Block.domOn, standby_domains, bitAt]
  have hrec : standbyState.blk.tm.record = some ⟨0, 0, 0⟩ := rfl
  obtain ⟨t, ht, -, -, -, -, -, -, htime, -⟩ := hwake standbyState ⟨2, 0, true⟩ 0 standby_state standby_wakes rfl
    (by rw [standby_profile]; decide)
  obtain ⟨t', ht', hended⟩ := wake_qualified standby_state standby_wakes standby_locked hrec hoff
  obtain ⟨-, -, hrestored⟩ := htime hoff
  have heq : t = t' := Host.Outcome.next.inj (ht.symm.trans ht')
  rw [← heq, hrestored _ hrec] at hended
  exact Bool.noConfusion hended

end Sys2Proof.Machine
end

section
/-! The encoding of the Gallery's instruction words (R137 to R142), and its statement. -/

namespace Sys2Proof.Machine

/-! ### Opcodes (Table 4-7) -/

theorem ofCode_code (o : Op) : Op.ofCode o.code = some o := by cases o <;> rfl

/-! ### The four forms: a word shows the fields that it is made of -/

section
variable (o : BitVec 8)

theorem opBits_encodeA (f : FormA) : opBits (encodeA o f) = o := by
  simp only [opBits, encodeA, BitVec.extractLsb'_append_eq_of_le, Nat.reduceLeDiff, Nat.reduceSub, BitVec.extractLsb'_eq_self]

theorem opBits_encodeB (f : FormB) : opBits (encodeB o f) = o := by
  simp only [opBits, encodeB, BitVec.extractLsb'_append_eq_of_le, Nat.reduceLeDiff, Nat.reduceSub, BitVec.extractLsb'_eq_self]

theorem opBits_encodeC (f : FormC) : opBits (encodeC o f) = o := by
  simp only [opBits, encodeC, BitVec.extractLsb'_append_eq_of_le, Nat.reduceLeDiff, Nat.reduceSub, BitVec.extractLsb'_eq_self]

theorem opBits_encodeD (f : FormD) : opBits (encodeD o f) = o := by
  simp only [opBits, encodeD, BitVec.extractLsb'_append_eq_of_le, Nat.reduceLeDiff, Nat.reduceSub, BitVec.extractLsb'_eq_self]

theorem decodeA_encodeA (f : FormA) : decodeA (encodeA o f) = f := by
  simp only [decodeA, encodeA, BitVec.extractLsb'_append_eq_of_le, BitVec.extractLsb'_append_eq_right, Nat.reduceLeDiff,
    Nat.reduceSub]

theorem decodeB_encodeB (f : FormB) : decodeB (encodeB o f) = f := by
  simp only [decodeB, encodeB, BitVec.extractLsb'_append_eq_of_le, BitVec.extractLsb'_append_eq_right, Nat.reduceLeDiff,
    Nat.reduceSub]

theorem decodeC_encodeC (f : FormC) : decodeC (encodeC o f) = f := by
  simp only [decodeC, encodeC, BitVec.extractLsb'_append_eq_of_le, BitVec.extractLsb'_append_eq_right, Nat.reduceLeDiff,
    Nat.reduceSub]

theorem decodeD_encodeD (f : FormD) : decodeD (encodeD o f) = f := by
  simp only [decodeD, encodeD, BitVec.extractLsb'_append_eq_of_le, BitVec.extractLsb'_append_eq_right, Nat.reduceLeDiff,
    Nat.reduceSub]

end

/-! ### Words and instructions -/

/-- The fields of a word read in a form. -/
def Form.fieldsOf (w : Word) : Form → Fields
  | .a => .a (decodeA w)
  | .b => .b (decodeB w)
  | .c => .c (decodeC w)
  | .d => .d (decodeD w)

theorem fieldsOf_form (w : Word) (m : Form) : (m.fieldsOf w).form = m := by cases m <;> rfl

theorem decodeInsn_of_op {w : Word} {o : Op} (h : Op.ofCode (opBits w) = some o) :
    decodeInsn w = some ⟨o, o.form.fieldsOf w⟩ := by
  rw [decodeInsn, h]
  cases hm : o.form <;> simp only [hm, Form.fieldsOf]

theorem decodeInsn_reserved {w : Word} (h : Op.ofCode (opBits w) = none) : decodeInsn w = none := by
  rw [decodeInsn, h]

theorem opBits_encodeInsn (i : Insn) : opBits (encodeInsn i) = i.op.code := by
  obtain ⟨o, fs⟩ := i
  cases fs with
  | a f => exact opBits_encodeA o.code f
  | b f => exact opBits_encodeB o.code f
  | c f => exact opBits_encodeC o.code f
  | d f => exact opBits_encodeD o.code f

theorem fieldsOf_encodeInsn (i : Insn) : i.fields.form.fieldsOf (encodeInsn i) = i.fields := by
  obtain ⟨o, fs⟩ := i
  cases fs with
  | a f => exact congrArg Fields.a (decodeA_encodeA o.code f)
  | b f => exact congrArg Fields.b (decodeB_encodeB o.code f)
  | c f => exact congrArg Fields.c (decodeC_encodeC o.code f)
  | d f => exact congrArg Fields.d (decodeD_encodeD o.code f)

theorem decodeInsn_encodeInsn {i : Insn} (h : i.wf = true) : decodeInsn (encodeInsn i) = some i := by
  have hop : Op.ofCode (opBits (encodeInsn i)) = some i.op := by rw [opBits_encodeInsn, ofCode_code]
  have hform : i.op.form = i.fields.form := of_decide_eq_true h
  rw [decodeInsn_of_op hop, hform, fieldsOf_encodeInsn]

/-- What a word decodes to has the fields of its opcode's form. -/
theorem wf_of_decodeInsn {w : Word} {i : Insn} (h : decodeInsn w = some i) : i.wf = true ∧ Op.ofCode (opBits w) = some i.op := by
  cases ho : Op.ofCode (opBits w) with
  | none => simp only [decodeInsn_reserved ho, reduceCtorEq] at h
  | some o =>
    rw [decodeInsn_of_op ho, Option.some_inj] at h
    rw [← h]
    exact ⟨decide_eq_true (fieldsOf_form w o.form).symm, rfl⟩

/-- Settles O60: a word shows the opcode and the fields it is made of, and the opcode fixes the form to read them in. -/
theorem galleryEncoding : Obligations.GalleryEncoding := by
  unfold Obligations.GalleryEncoding
  exact ⟨fun _ h => decodeInsn_encodeInsn h, fun _ _ h => wf_of_decodeInsn h, fun _ h => decodeInsn_reserved h⟩

end Sys2Proof.Machine
end

section
/-! A PC beyond the program store. The statements on the arithmetic and logic instructions ask of every trap that TRAP.PC shows the PC
of the engine, and say nothing of that PC where the word fails its check: it may be one that the 15 bits of TRAP.PC cannot show. -/

namespace Sys2Proof.Machine

/-- TRAP.PC shows a PC of the program store, so that a trap as the statements ask for it stops an engine whose PC lies there. -/
theorem pc_lt_of_trapped {e : Fin 16} {code : Nat} {s t : State} (h : Trapped e code s t) : (s.blk.eng[e]).pc < 2 ^ 15 := by
  obtain ⟨-, -, hpc, -⟩ := h
  rw [← hpc]
  exact t.blk.get_lt (GAL_TRAP_PC e)

/-- The machine after reset, but for GE0: it is RUNNING, and its PC is the first that lies beyond the program store, at the word `w`. -/
def strayPcState (w : Word) : State :=
  { blk := (Block.reset.put (GAL_STAT_STATE (0 : Fin 16)) 3).mapE 0 (fun x => { x with pc := 32768, prog := [(32768, w)] }), pending := [] }

section
variable (w : Word)

theorem strayPc_pc : ((strayPcState w).blk.eng[(0 : Fin 16)]).pc = 32768 := by
  rw [strayPcState, mapE_same]

theorem strayPc_word : ((strayPcState w).blk.eng[(0 : Fin 16)]).word ((strayPcState w).blk.eng[(0 : Fin 16)]).pc = w := by
  rw [strayPc_pc, strayPcState, mapE_same]
  rfl

theorem strayPc_ready : (strayPcState w).blk.ready 0 = true := by
  have hrun : (strayPcState w).blk.running (0 : Fin 16) = true := by
    rw [Block.running, strayPcState, mapE_get, Block.get_put_same _ _ _ (by simp)]
    rfl
  rw [Block.ready, hrun, strayPcState, mapE_same]
  rfl

theorem strayPc_no_trap {code : Nat} {t : State} : ¬ Trapped 0 code (strayPcState w) t := fun h => by
  have hlt := pc_lt_of_trapped h
  rw [strayPc_pc] at hlt
  exact Nat.lt_irrefl _ hlt

end

/-- Refutes O15: a MUL whose shift is 72 stands at PC 32,768, where no trap can show its PC. -/
theorem not_galleryArithmetic : ¬ Obligations.GalleryArithmetic := by
  unfold Obligations.GalleryArithmetic
  rintro ⟨-, -, -, -, -, -, -, -, -, -, -, -, -, -, -, -, -, -, hmul, -⟩
  obtain ⟨t, -, ht⟩ := hmul (strayPcState (encodeA Op.mul.code ⟨0, 0, 0, 0, 72, 0⟩)) 0 ⟨0, 0, 0, 0, 72, 0⟩
    (strayPc_ready _) (strayPc_word _) (by decide)
  exact strayPc_no_trap _ ht

/-- Refutes O16: a CMP whose D has bit 5 set stands at PC 32,768, where no trap can show its PC. -/
theorem not_galleryLogic : ¬ Obligations.GalleryLogic := by
  unfold Obligations.GalleryLogic
  rintro ⟨-, -, -, -, -, -, -, -, -, hcmp, -⟩
  obtain ⟨t, -, ht⟩ := hcmp (strayPcState (encodeA Op.cmp.code ⟨32, 0, 0, 0, 0, 0⟩)) 0 ⟨32, 0, 0, 0, 0, 0⟩
    (strayPc_ready _) (strayPc_word _) (.inl rfl)
  exact strayPc_no_trap _ ht

end Sys2Proof.Machine
end

section
/-! The instructions of Form B that write one register (R147), and their statement. -/

namespace Sys2Proof.Machine

/-! ### Words and integers -/

/-- The word of a signed number is that number modulo 2^72. -/
theorem ofInt_eq (v : Int) : ofInt v = BitVec.ofInt 72 v := by
  apply BitVec.eq_of_toNat_eq
  have h0 : 0 ≤ v % 2 ^ 72 := Int.emod_nonneg v (by decide)
  have h1 : v % 2 ^ 72 < 2 ^ 72 := Int.emod_lt_of_pos v (by decide)
  simp only [ofInt, ofSigned, BitVec.toNat_ofNat, BitVec.toNat_ofInt]
  omega

/-! ### Shifts of 72 and more (log entry 18) -/

theorem shrWord_eq (x : Word) (n : Nat) : shrWord x n = x >>> n := by
  unfold shrWord
  split
  · rename_i h
    exact (BitVec.ushiftRight_eq_zero h).symm
  · rfl

theorem sarWord_eq (x : Word) (n : Nat) : sarWord x n = x.sshiftRight n := by
  unfold sarWord
  rcases Nat.le_total n 71 with h | h
  · rw [Nat.min_eq_left h]
  · have hmsb : ∀ m, 71 ≤ m → ∀ i (hi : i < 72), (x.sshiftRight m)[i] = x.msb := fun m hm i hi => by
      rw [BitVec.getElem_sshiftRight]
      split
      · rename_i hlt
        have h71 : m + i = 71 := by omega
        simp only [h71, BitVec.msb_eq_getLsbD_last, BitVec.getLsbD_eq_getElem (show 72 - 1 < 72 by decide)]
      · rfl
    rw [Nat.min_eq_right h]
    ext i hi
    rw [hmsb n h i hi, hmsb 71 (Nat.le_refl _) i hi]

/-! ### Form B at its first tick -/

section
variable (b : Block) (e : Fin 16) (f : FormB)

theorem gaB_atFirst : gaB (b.atFirst e) e f = (b.eng[e]).rd f.a := by simp only [gaB, atFirst_eng]

theorem gdB_atFirst : gdB (b.atFirst e) e f = (b.eng[e]).rd f.d := by simp only [gdB, atFirst_eng]

end

/-- What an instruction makes of its engine counts only at that engine. -/
theorem executed_congr {f g : Engine → Engine} {e : Fin 16} {cost pc : Nat} {regs : Nat → Bool} {ps : List Part} {s t : State}
    (h : Executed e f cost pc regs ps s t) (hfg : f (s.blk.eng[e]) = g (s.blk.eng[e])) : Executed e g cost pc regs ps s t := by
  obtain ⟨⟨r, hx⟩, hrest⟩ := h
  exact ⟨⟨r, hfg ▸ hx⟩, hrest⟩

/-- An instruction of Form B that writes a register by its engine's operands executes. -/
theorem runB_putReg {s : State} {e : Fin 16} {f : FormB} {o : Op} {act : Block → Act} {cost : Nat} {d : BitVec 6} {v : Engine → Word}
    (h : s.blk.stands e (encodeB o.code f) (checkB o f) f.psel)
    (ha : act (s.blk.atFirst e) = putReg e d (v (s.blk.eng[e])) cost (s.blk.atFirst e)) :
    ∃ t, runB o e f .none act s = .next t ∧ Computes e (fun x => x.wr d (v x)) cost s t :=
  leadsTo_intro (done_go act h ha) fun _ =>
    executed_congr (computes_mapE (f := fun x => x.wr d (v (s.blk.eng[e]))) (counted_refl _) (wr_use _ _ _)) rfl

/-- Settles O17: each instruction writes one register, with operands that stand at the first tick as before it. -/
theorem galleryImmediate : Obligations.GalleryImmediate := by
  unfold Obligations.GalleryImmediate
  refine ⟨?_, ?_, ?_, ?_, ?_, ?_, ?_, ?_, ?_⟩
  · intro s e f h
    exact runB_putReg h rfl
  · intro s e f h
    exact runB_putReg h (by simp only [gdB_atFirst])
  · intro s e f h
    exact runB_putReg h (by simp only [gaB_atFirst, shrWord_eq])
  · intro s e f h
    exact runB_putReg h (by simp only [gaB_atFirst, sarWord_eq])
  · intro s e f h
    exact runB_putReg h (by simp only [gaB_atFirst, ofInt_eq])
  · intro s e f h
    exact runB_putReg h (by simp only [gaB_atFirst, gdB_atFirst])
  · intro s e f h
    exact runB_putReg h (by simp only [gaB_atFirst, zext44])
  · intro s e f h
    exact runB_putReg h (by simp only [gaB_atFirst, zext44])
  · intro s e f h
    exact runB_putReg h (by simp only [gaB_atFirst, zext44])

end Sys2Proof.Machine
end

section
/-! LD and ST as they execute and as they trap (R147, R166), and their statement. -/

namespace Sys2Proof.Machine

theorem dataAddr_atFirst (b : Block) (e : Fin 16) (f : FormB) : dataAddr (b.atFirst e) e f = dataAddr b e f := by
  rw [dataAddr, gaB_atFirst, dataAddr, gaB]

/-! ### The data store after ST (R135) -/

section
variable (x : Engine) (p k : Nat) (v : Word)

theorem stWord_use : (x.stWord p k v).use = x.use := rfl

theorem stWord_load_same : (x.stWord p k v).load k = v := sget_sput_same _ _ _ _

theorem stWord_load_ne {j : Nat} (h : j ≠ k) : (x.stWord p k v).load j = x.load j := sget_sput_ne _ _ _ h

end

/-- The data store of an engine that executed is that which its instruction left. -/
theorem load_of_executed {e : Fin 16} {f : Engine → Engine} {cost pc : Nat} {regs : Nat → Bool} {ps : List Part} {s t : State}
    (h : Executed e f cost pc regs ps s t) (k : Nat) : (t.blk.eng[e]).load k = (f (s.blk.eng[e])).load k := by
  obtain ⟨⟨r, hx⟩, -⟩ := h
  rw [hx]
  rfl

section
variable {s : State} {e : Fin 16} {f : FormB}

theorem ld_computes (h : s.blk.stands e (encodeB Op.ld.code f) (checkB .ld f) f.psel) (ha : dataAddr s.blk e f < 16384) :
    ∃ t, exec (.ld e f .none) s = .next t ∧ Computes e (fun x => x.wr f.d (x.load (dataAddr s.blk e f))) 2 s t :=
  runB_putReg h (by simp only [dataAddr_atFirst, if_neg (Nat.not_le.mpr ha), atFirst_eng])

theorem ld_traps (h : s.blk.stands e (encodeB Op.ld.code f) (checkB .ld f) f.psel) (ha : 16384 ≤ dataAddr s.blk e f) :
    ∃ t, exec (.ld e f .none) s = .next t ∧ Trapped e 4 s t := by
  refine leadsTo_intro ((exec_ld s).trans (done_stands _ h)) fun u => ?_
  simp only [dataAddr_atFirst, if_pos ha]
  exact trapped_carried h (by decide) u

theorem st_computes (h : s.blk.stands e (encodeB Op.st.code f) (checkB .st f) f.psel) (ha : dataAddr s.blk e f < 16384) :
    ∃ t, exec (.st e f .none) s = .next t ∧
      Computes e (fun x => x.stWord (s.blk.firstTick e + 2 * tick) (dataAddr s.blk e f) (x.rd f.d)) 2 s t ∧
      (t.blk.eng[e]).load (dataAddr s.blk e f) = (s.blk.eng[e]).rd f.d ∧
      (∀ k, k ≠ dataAddr s.blk e f → (t.blk.eng[e]).load k = (s.blk.eng[e]).load k) := by
  have hact : ∃ t, exec (.st e f .none) s = .next t ∧
      Computes e (fun x => x.stWord (s.blk.firstTick e + 2 * tick) (dataAddr s.blk e f) (x.rd f.d)) 2 s t := by
    refine leadsTo_intro ((exec_st s).trans (done_go _ h (by
      simp only [dataAddr_atFirst, if_neg (Nat.not_le.mpr ha), atFirst_phys]
      rfl))) fun u => ?_
    exact computes_mapE (counted_refl _) (stWord_use _ _ _ _)
  obtain ⟨t, ht, hst⟩ := hact
  exact ⟨t, ht, hst, (load_of_executed hst _).trans (stWord_load_same _ _ _ _),
    fun k hk => (load_of_executed hst k).trans (stWord_load_ne _ _ _ _ hk)⟩

theorem st_traps (h : s.blk.stands e (encodeB Op.st.code f) (checkB .st f) f.psel) (ha : 16384 ≤ dataAddr s.blk e f) :
    ∃ t, exec (.st e f .none) s = .next t ∧ Trapped e 4 s t := by
  refine leadsTo_intro ((exec_st s).trans (done_stands _ h)) fun u => ?_
  simp only [dataAddr_atFirst, if_pos ha]
  exact trapped_carried h (by decide) u

end

/-- Settles O18: an address in the data store is read or written at the first tick's operands, and another traps before anything takes
effect. -/
theorem galleryStores : Obligations.GalleryStores := by
  unfold Obligations.GalleryStores
  exact ⟨fun _ _ _ h ha => ld_computes h ha, fun _ _ _ h ha => ld_traps h ha, fun _ _ _ h ha => st_computes h ha,
    fun _ _ _ h ha => st_traps h ha⟩

end Sys2Proof.Machine
end

section
/-! NOP and the branches as they execute and as they trap (R148), and their statement. -/

namespace Sys2Proof.Machine

theorem mapE_id (b : Block) (e : Fin 16) : b.mapE e id = b := by
  simp [Block.mapE]

/-! ### An instruction that sets PC -/

/-- The block `c` that an instruction leads to, once it has completed after `cost` ticks and set PC to `pc`. -/
def Block.goesTo (b : Block) (e : Fin 16) (insn : Word) (c : Block) (cost pc : Nat) : Block :=
  (c.mapE e (fun x => x.after (b.firstTick e) cost pc)).completed e (b.firstTick e) (b.atFirst e).stw insn b.eng[e].pc cost
    false false false false 0 0

theorem carried_jump {b c : Block} {e : Fin 16} {insn : Word} {cost pc : Nat} (h : pc ≤ 32767) :
    b.carried e insn (.jump c cost pc) = b.goesTo e insn c cost pc := by
  have hp : ((0 : Nat) != 0) = false := rfl
  simp only [Block.carried, Block.carry, if_neg (Nat.not_lt.mpr h), atFirst_eng, Nat.zero_add, hp, Block.goesTo]

/-- A target beyond the program store traps PADDR. -/
theorem carried_jump_beyond {b c : Block} {e : Fin 16} {insn : Word} {cost pc : Nat} (h : 32767 < pc) :
    b.carried e insn (.jump c cost pc) = b.carried e insn (.trap 3) := by
  simp only [Block.carried, Block.carry, if_pos h]

section
variable {b c a : Block} {e : Fin 16} (insn : Word) (cost pc : Nat)

theorem goesTo_becomes {x : Engine} (h : a.becomes e x c) :
    ∃ r, a.becomes e ((x.after (b.firstTick e) cost pc).seenDone r) (b.goesTo e insn c cost pc) := by
  have hafter := becomes_step h (fun x => x.after (b.firstTick e) cost pc)
  obtain ⟨r, hr⟩ := completed_becomes (c.mapE e (fun x => x.after (b.firstTick e) cost pc)) e (b.firstTick e) (b.atFirst e).stw insn
    b.eng[e].pc cost false false false false 0 0
  rw [hafter.1] at hr
  exact ⟨r, becomes_trans hafter hr⟩

theorem goesTo_changes {touch : Nat → Bool} {ps : List Part} (h : a.changes touch ps c)
    (ht : ∀ x, galTouch x = true → touch x = true) (hp : [.eng, .trc, .host, .out] ⊆ ps) :
    a.changes touch ps (b.goesTo e insn c cost pc) :=
  changes_trans (changes_mapE h e _ (hp (by simp))) (changes_mono (completed_changes _ _ _ _ _ _ _ _ _ _ _ _ _) ht hp)

end

section
variable {s : State} {e : Fin 16} {f : FormC} {o : Op} {act : Block → Act} {cost pc : Nat}
  (h : s.blk.stands e (encodeC o.code f) (checkC o e f) f.psel)
include h

/-- A branch in the program store whose effect on its engine is `g` executes. -/
theorem runC_jump {g : Engine → Engine} (ha : act (s.blk.atFirst e) = .jump ((s.blk.atFirst e).mapE e g) cost pc)
    (hpc : pc ≤ 32767) (hg : (g (s.blk.eng[e])).use = (s.blk.eng[e]).use) :
    ∃ t, runC o e f .none act s = .next t ∧ Executed e g cost pc (fun _ => false) [] s t := by
  have hbec := becomes_from (becomes_mapE (s.blk.atFirst e) e g) (atFirst_eng s.blk e)
  rw [atFirst_eng] at hbec
  have hch : s.blk.changes (fun a => galTouch a || false) ([.eng, .tm, .trc, .host, .out] ++ []) ((s.blk.atFirst e).mapE e g) :=
    changes_mapE (changes_mono (atFirst_changes s.blk e _) (fun _ h => h) (by simp)) e g (by simp)
  obtain ⟨r, hx, hothers⟩ := goesTo_becomes (b := s.blk) (encodeC o.code f) cost pc hbec
  have hgo := goesTo_changes (b := s.blk) (e := e) (encodeC o.code f) cost pc hch (fun a ha => by simp only [ha, Bool.true_or]) (by simp)
  refine leadsTo_intro (done_stands act h) fun u => ?_
  rw [ha, carried_jump hpc]
  refine ⟨⟨some r, ?_⟩, fun m hm => ?_, frameOn_intro (backTo_changes s.blk _ hgo (by simp))⟩
  · rw [Block.withTags_eng, backTo_eng, hx]
    simp only [Engine.seenDone, Engine.after, hg]
  · rw [Block.withTags_eng, backTo_eng, hothers m hm]

/-- A branch beyond the program store traps PADDR. -/
theorem runC_jump_beyond {c : Block} (ha : act (s.blk.atFirst e) = .jump c cost pc) (hpc : 32767 < pc) :
    ∃ t, runC o e f .none act s = .next t ∧ Trapped e 3 s t := by
  refine leadsTo_intro (done_stands act h) fun u => ?_
  rw [ha, carried_jump_beyond hpc]
  exact trapped_carried h (by decide) u

end

/-! ### The branches -/

section
variable {s : State} {e : Fin 16}

/-- The word of a NOP is that of an opcode, so that NOP is the command for it and not for a reserved word. -/
theorem nop_computes {f : FormA} (h : s.blk.stands e (encodeA Op.nop.code f) (checkA .nop f) f.psel) :
    ∃ t, exec (.nop e f .none) s = .next t ∧ Computes e id 1 s t := by
  have hop : (Op.ofCode (opBits ((s.blk.eng[e]).word (s.blk.eng[e]).pc))).isNone = false := by
    obtain ⟨-, hword, -⟩ := h
    rw [hword, opBits_encodeA, ofCode_code]
    rfl
  refine leadsTo_intro ((exec_nop s).trans ((done_congr ?_).trans (done_go (fun c => .go (c.mapE e id) 1 0 false) h rfl))) fun u => ?_
  · simp only [hop, Bool.and_false, Bool.false_eq_true, if_false, mapE_id]
  · exact computes_mapE (counted_refl _) rfl

section
variable {f : FormC}

theorem br_jumps (h : s.blk.stands e (encodeC Op.br.code f) (checkC .br e f) f.psel) (hpc : branchTarget (s.blk.eng[e]).pc f ≤ 32767) :
    ∃ t, exec (.br e f .none) s = .next t ∧ Executed e id 2 (branchTarget (s.blk.eng[e]).pc f) (fun _ => false) [] s t :=
  runC_jump h (by rw [mapE_id, atFirst_eng]) hpc rfl

theorem br_traps (h : s.blk.stands e (encodeC Op.br.code f) (checkC .br e f) f.psel) (hpc : 32767 < branchTarget (s.blk.eng[e]).pc f) :
    ∃ t, exec (.br e f .none) s = .next t ∧ Trapped e 3 s t :=
  runC_jump_beyond h rfl (by rwa [atFirst_eng])

theorem call_jumps (h : s.blk.stands e (encodeC Op.call.code f) (checkC .call e f) f.psel)
    (hpc : branchTarget (s.blk.eng[e]).pc f ≤ 32767) :
    ∃ t, exec (.callG e f .none) s = .next t ∧ Executed e (fun x => x.wr (mReg f.m 0) (BitVec.ofNat 72 (x.pc + 1))) 2
      (branchTarget (s.blk.eng[e]).pc f) (fun _ => false) [] s t := by
  have hjump : ∃ t, exec (.callG e f .none) s = .next t ∧ Executed e
      (fun x => x.wr (mReg f.m 0) (BitVec.ofNat 72 ((s.blk.eng[e]).pc + 1))) 2 (branchTarget (s.blk.eng[e]).pc f) (fun _ => false) [] s t :=
    runC_jump h (by rw [atFirst_eng]) hpc (wr_use _ _ _)
  obtain ⟨t, ht, hex⟩ := hjump
  exact ⟨t, ht, executed_congr hex rfl⟩

theorem call_traps (h : s.blk.stands e (encodeC Op.call.code f) (checkC .call e f) f.psel)
    (hpc : 32767 < branchTarget (s.blk.eng[e]).pc f) : ∃ t, exec (.callG e f .none) s = .next t ∧ Trapped e 3 s t :=
  runC_jump_beyond h rfl (by rwa [atFirst_eng])

theorem ret_jumps (h : s.blk.stands e (encodeC Op.ret.code f) (checkC .ret e f) f.psel)
    (hpc : ((s.blk.eng[e]).rd (mReg f.m 0)).toNat ≤ 32767) :
    ∃ t, exec (.ret e f .none) s = .next t ∧ Executed e id 2 ((s.blk.eng[e]).rd (mReg f.m 0)).toNat (fun _ => false) [] s t :=
  runC_jump h (by rw [mapE_id, atFirst_eng]) hpc rfl

theorem ret_traps (h : s.blk.stands e (encodeC Op.ret.code f) (checkC .ret e f) f.psel)
    (hpc : 32767 < ((s.blk.eng[e]).rd (mReg f.m 0)).toNat) : ∃ t, exec (.ret e f .none) s = .next t ∧ Trapped e 3 s t :=
  runC_jump_beyond h rfl (by rwa [atFirst_eng])

/-- LOOP whose counter reaches zero goes on. -/
theorem loop_ends (h : s.blk.stands e (encodeC Op.loop.code f) (checkC .loop e f) f.psel)
    (hv : (s.blk.eng[e]).rd (mReg f.m 0) - 1 = 0) :
    ∃ t, exec (.loopG e f .none) s = .next t ∧ Computes e (fun x => x.wr (mReg f.m 0) 0) 1 s t := by
  obtain ⟨-, -, -, -, hpc⟩ := id h
  exact runC_jump h (by simp only [atFirst_eng, hv, if_true]) hpc (wr_use _ _ _)

theorem loop_jumps (h : s.blk.stands e (encodeC Op.loop.code f) (checkC .loop e f) f.psel)
    (hv : (s.blk.eng[e]).rd (mReg f.m 0) - 1 ≠ 0) (hpc : branchTarget (s.blk.eng[e]).pc f ≤ 32767) :
    ∃ t, exec (.loopG e f .none) s = .next t ∧ Executed e (fun x => x.wr (mReg f.m 0) (x.rd (mReg f.m 0) - 1)) 2
      (branchTarget (s.blk.eng[e]).pc f) (fun _ => false) [] s t := by
  have hjump : ∃ t, exec (.loopG e f .none) s = .next t ∧ Executed e (fun x => x.wr (mReg f.m 0) ((s.blk.eng[e]).rd (mReg f.m 0) - 1))
      2 (branchTarget (s.blk.eng[e]).pc f) (fun _ => false) [] s t :=
    runC_jump h (by simp only [atFirst_eng, hv, if_false]) hpc (wr_use _ _ _)
  obtain ⟨t, ht, hex⟩ := hjump
  exact ⟨t, ht, executed_congr hex rfl⟩

theorem loop_traps (h : s.blk.stands e (encodeC Op.loop.code f) (checkC .loop e f) f.psel)
    (hv : (s.blk.eng[e]).rd (mReg f.m 0) - 1 ≠ 0) (hpc : 32767 < branchTarget (s.blk.eng[e]).pc f) :
    ∃ t, exec (.loopG e f .none) s = .next t ∧ Trapped e 3 s t :=
  runC_jump_beyond h (by simp only [atFirst_eng, hv, if_false]; rfl) hpc

end
end

/-- Settles O19: each instruction sets PC inside the program store, or traps before anything takes effect. -/
theorem galleryBranches : Obligations.GalleryBranches := by
  unfold Obligations.GalleryBranches
  refine ⟨?_, ?_, ?_, ?_, ?_, ?_, ?_, ?_, ?_, ?_⟩
  · intro s e f h
    exact nop_computes h
  · intro s e f h hpc
    exact br_jumps h hpc
  · intro s e f h hpc
    exact br_traps h hpc
  · intro s e f h hpc
    exact call_jumps h hpc
  · intro s e f h hpc
    exact call_traps h hpc
  · intro s e f h hpc
    exact ret_jumps h hpc
  · intro s e f h hpc
    exact ret_traps h hpc
  · intro s e f h hv
    exact loop_ends h hv
  · intro s e f h hv hpc
    exact loop_jumps h hv hpc
  · intro s e f h hv hpc
    exact loop_traps h hv hpc

end Sys2Proof.Machine
end

section
/-! How the waits begin (R149 to R152, R155 to R157), and their statement. -/

namespace Sys2Proof.Machine

/-- An engine that enters the wait part of a wait once its fixed ticks are over (R149). -/
def Engine.waiting (first cost : Nat) (stw : Word) (w : Wait) (x : Engine) : Engine :=
  { x with
    wait := w, readyAt := first + cost * tick, waitSince := some (first + cost * tick), use := x.use + cost
    insnAt := first, insnStw := stw, insnRetry := false }

/-- The block as engine `e` enters the wait `w`. -/
def Block.waitsIn (b : Block) (e : Fin 16) (cost : Nat) (w : Wait) : Block :=
  ((b.atFirst e).mapE e (Engine.waiting (b.firstTick e) cost (b.atFirst e).stw w)).putB (GAL_STAT_WAIT e) true

/-- An engine that is replaced may be looked up before it is. -/
theorem mapE_congr (b : Block) (e : Fin 16) {f g : Engine → Engine} (h : f b.eng[e] = g b.eng[e]) : b.mapE e f = b.mapE e g := by
  simp only [Block.mapE, h]

theorem after_eq (x : Engine) (first cost pc : Nat) :
    x.after first cost pc = { x with pc := pc, readyAt := first + cost * tick, use := x.use + cost } := rfl

theorem after_waiting (x : Engine) (first cost : Nat) (stw : Word) (w : Wait) :
    { x.after first cost x.pc with
      wait := w, waitSince := some (first + cost * tick), insnAt := first, insnStw := stw, insnRetry := false } =
      x.waiting first cost stw w := by
  unfold Engine.waiting
  rw [after_eq]

theorem carried_wait {b : Block} {e : Fin 16} {insn : Word} {cost : Nat} {w : Wait} (hpc : b.eng[e].pc < 32767) :
    b.carried e insn (.wait (b.atFirst e) cost w) = b.waitsIn e cost w := by
  have hne : (b.atFirst e).eng[e].pc ≠ 32767 := by
    rw [atFirst_eng]
    exact Nat.ne_of_lt hpc
  have hp : ((0 : Nat) != 0) = false := rfl
  simp only [Block.carried, Block.carry, if_neg hne, Nat.zero_add, hp, Block.waitsIn]
  generalize b.atFirst e = c
  exact congrArg (fun d : Block => d.putB (GAL_STAT_WAIT e) true)
    (mapE_congr c e (after_waiting c.eng[e] (b.firstTick e) cost c.stw w))

section
variable (b : Block) (e : Fin 16) (cost : Nat) (w : Wait)

theorem waitsIn_becomes : b.becomes e (b.eng[e].waiting (b.firstTick e) cost (b.atFirst e).stw w) (b.waitsIn e cost w) := by
  have hmap := becomes_from (becomes_mapE (b.atFirst e) e (Engine.waiting (b.firstTick e) cost (b.atFirst e).stw w)) (atFirst_eng b e)
  rw [atFirst_eng] at hmap
  exact becomes_of_eng hmap (Block.putB_eng _ _ _)

theorem waitsIn_flag : (b.waitsIn e cost w).flag (GAL_STAT_WAIT e) = true := Block.flag_putB_same _ _ _ (by simp) rfl

theorem waitsIn_keeps : b.keeps [GAL_STAT_WAIT e] (b.waitsIn e cost w) :=
  keeps_putB (keeps_of_reg (atFirst_reg b e)) List.mem_cons_self

theorem waitsIn_only : b.only [.eng, .tm] (b.waitsIn e cost w) :=
  only_trans (only_mono (atFirst_only b e) (by simp)) (only_trans (only_mono (mapE_only _ e _) (by simp)) (put_only _ _ _ _))

end

/-- A wait instruction enters its wait. -/
theorem runC_wait {s : State} {e : Fin 16} {f : FormC} {o : Op} {act : Block → Act} {cost : Nat} {w : Wait}
    (h : s.blk.stands e (encodeC o.code f) (checkC o e f) f.psel)
    (ha : act (s.blk.atFirst e) = .wait (s.blk.atFirst e) cost w) :
    ∃ t, runC o e f .none act s = .next t ∧ Enters e w cost s t := by
  obtain ⟨hx, hothers⟩ := waitsIn_becomes s.blk e cost w
  refine leadsTo_intro (done_stands act h) fun u => ?_
  obtain ⟨-, -, -, -, hpc⟩ := h
  rw [ha, carried_wait hpc, Enters, Block.withTags_eng, Block.withTags_flag, backTo_eng, backTo_flag]
  refine ⟨hx, hothers, waitsIn_flag s.blk e cost w, frame_intro ?_ ?_⟩
  · exact keeps_trans (waitsIn_keeps s.blk e cost w) (keeps_of_reg (backTo_reg s.blk _))
  · rw [backTo_withTm]
    exact only_trans (waitsIn_only s.blk e cost w) (only_mono (withTm_only _ _) (by simp))

/-- Settles O22: each wait begins at the operands of its first tick, with the timeout counted from there. -/
theorem galleryWaits : Obligations.GalleryWaits := by
  unfold Obligations.GalleryWaits
  refine ⟨?_, ?_, ?_, ?_, ?_, ?_⟩
  · intro s e f h hc
    exact runC_wait h (by rw [if_pos hc, atFirst_eng])
  · intro s e f h hc
    exact runC_wait h (by rw [if_neg hc])
  · intro s e f h
    exact runC_wait h (by simp only [atFirst_eng, atFirst_phys])
  · intro s e f h
    exact runC_wait h (by simp only [atFirst_phys])
  · intro s e f h
    exact runC_wait h (by simp only [atFirst_phys])
  · intro s e f h
    exact runC_wait h (by simp only [atFirst_phys])

end Sys2Proof.Machine
end

section
/-! How the waits end (R127, R149 to R152, R155 to R157), and their statement. -/

namespace Sys2Proof.Machine

/-! ### The end of a wait at any instant (R149) -/

theorem reachPhys_idem (b : Block) (t : Nat) : (b.reachPhys t).reachPhys t = b.reachPhys t := by
  have ht : t ≤ (b.reachPhys t).tm.phys := by
    rw [reachPhys_phys]
    exact Nat.le_max_right _ _
  rw [Block.reachPhys, if_pos ht]

theorem endWait_reach (b : Block) (n t : Nat) (timeout : Bool) (res : Word) (upd : Engine → Engine) :
    b.endWait n t timeout res upd = (b.reachPhys t).endWait n t timeout res upd := by
  unfold Block.endWait
  simp only [reachPhys_idem]

theorem reachPhys_le (b : Block) (t : Nat) : t ≤ (b.reachPhys t).tm.phys := by
  rw [reachPhys_phys]
  exact Nat.le_max_right _ _

/-- What a write of a flag makes of the registers rests on the registers alone. -/
theorem putB_reg_congr {b c : Block} (h : c.regs = b.regs) (f : Field) (v : Bool) (a : Nat) :
    (c.putB f v).reg a = (b.putB f v).reg a := by
  simp only [Block.putB, Block.put, Block.setReg, Block.reg, h]

section
variable (b : Block) (e : Fin 16) (t : Nat) (timeout : Bool) (res : Word) (upd : Engine → Engine)

theorem endWait_engine : ∃ r, b.becomes e ((b.eng[e].waitEnded upd t timeout).seenDone r) (b.endWait e t timeout res upd) := by
  have heng : (b.reachPhys t).eng = b.eng := by rw [reachPhys_withTm, withTm_eng]
  obtain ⟨r, hr⟩ := endWait_becomes (b.reachPhys t) e t timeout upd (reachPhys_le b t) res
  rw [← endWait_reach, heng] at hr
  exact ⟨r, becomes_from hr heng⟩

/-- WAIT is cleared, and beside it a wait that ends touches what every instruction does. -/
theorem endWait_stat : (b.endWait e t timeout res upd).reg (GAL_STAT e) = (b.putB (GAL_STAT_WAIT e) false).reg (GAL_STAT e) := by
  have hregs : (b.reachPhys t).regs = b.regs := by rw [reachPhys_withTm, withTm_regs]
  have hch := endWait_changes (b.reachPhys t) e t timeout upd (reachPhys_le b t) res
  rw [endWait_reach, hch.1 _ (galTouch_stat e), putB_reg_congr hregs]

theorem endWait_frame : b.changes (fun a => galTouch a || a == GAL_STAT e) [.eng, .tm, .trc, .host, .out]
    (b.endWait e t timeout res upd) := by
  have hput : b.changes (fun a => galTouch a || a == GAL_STAT e) [.eng, .tm, .trc, .host, .out]
      ((b.reachPhys t).putB (GAL_STAT_WAIT e) false) := by
    rw [reachPhys_withTm]
    exact changes_putB (changes_of_only (withTm_regs _ _) (only_mono (withTm_only _ _) (by simp))) (by simp)
  rw [endWait_reach]
  exact changes_trans hput (changes_mono (endWait_changes _ e t timeout upd (reachPhys_le b t) res)
    (fun a ha => by simp only [ha, Bool.true_or]) (by simp))

end

/-- A wait that ends in a block `c` whose engine has become `y` resumes that engine. -/
theorem resumes_endWait {s : State} {c : Block} {e : Fin 16} {y : Engine} {t : Nat} {timeout : Bool} {res : Word}
    {upd f : Engine → Engine} {u : SMap (BitVec 8)} (hbec : s.blk.becomes e y c) (hregs : c.regs = s.blk.regs)
    (honly : s.blk.only [.eng, .tm] c) (hf : f (s.blk.eng[e]) = (upd y).wf (BitVec.ofNat 3 (waitTf y.wait)) timeout)
    (hpc : y.pc = (s.blk.eng[e]).pc) : Resumes e f t s ⟨(c.endWait e t timeout res upd).withTags u, s.pending⟩ := by
  obtain ⟨r, hend⟩ := endWait_engine c e t timeout res upd
  have hstat := endWait_stat c e t timeout res upd
  have hframe := endWait_frame c e t timeout res upd
  rw [hbec.1] at hend
  obtain ⟨hx, hothers⟩ := becomes_trans hbec hend
  refine ⟨⟨some r, ?_⟩, hothers, hstat.trans (putB_reg_congr hregs _ _ _), frameOn_intro (changes_trans ?_ hframe)⟩
  · rw [Block.withTags_eng, hx, Engine.seenDone, Engine.waitEnded, hf, hpc]
  · exact changes_of_only hregs (only_mono honly (by simp))

/-- The same where at most the clocks have moved. -/
theorem resumes_clock {s : State} {c : Block} {e : Fin 16} {t : Nat} {timeout : Bool} {res : Word} {upd f : Engine → Engine}
    {u : SMap (BitVec 8)} (hregs : c.regs = s.blk.regs) (honly : s.blk.only [.tm] c)
    (hf : f (s.blk.eng[e]) = (upd (s.blk.eng[e])).wf (BitVec.ofNat 3 (waitTf (s.blk.eng[e]).wait)) timeout) :
    Resumes e f t s ⟨(c.endWait e t timeout res upd).withTags u, s.pending⟩ :=
  resumes_endWait (becomes_of_eng (becomes_refl _ e) (only_eng honly (by simp))) hregs (only_mono honly (by simp)) hf rfl

/-- The same once `g` has changed the engine. -/
theorem resumes_mapE {s : State} {e : Fin 16} {t : Nat} {timeout : Bool} {res : Word} {g upd f : Engine → Engine}
    {u : SMap (BitVec 8)} (hf : f (s.blk.eng[e]) = (upd (g (s.blk.eng[e]))).wf (BitVec.ofNat 3 (waitTf (g (s.blk.eng[e])).wait)) timeout)
    (hpc : (g (s.blk.eng[e])).pc = (s.blk.eng[e]).pc) :
    Resumes e f t s ⟨((s.blk.mapE e g).endWait e t timeout res upd).withTags u, s.pending⟩ :=
  resumes_endWait (becomes_mapE _ e g) (Block.mapE_regs _ _ _) (only_mono (mapE_only _ e g) (by simp)) hf hpc

/-! ### Releases by a condition -/

section
variable {s : State} {e : Fin 16}

theorem waitt_releases {w : Word} {gr tf : Nat} (hw : (s.blk.eng[e]).wait = .time w gr tf) :
    ∃ t, exec (.waittRelease e) s = .next t ∧ Resumes e (fun x => (x.wr (BitVec.ofNat 6 gr) w).wf (BitVec.ofNat 3 tf) false)
      (max (s.blk.eng[e]).waitFrom (tickUp (s.blk.instantOf w))) s t := by
  refine done_intro (exec_waittRelease s) fun u => ?_
  simp only [hw]
  exact resumes_clock rfl (only_refl _ _) (by rw [hw]; rfl)

theorem boundary_releases {w : Word} {gr tf : Nat} (hw : (s.blk.eng[e]).wait = .boundary gr tf) (htrig : (s.blk.eng[e]).trig = some w) :
    ∃ t, exec (.waittRelease e) s = .next t ∧
      Resumes e (fun x => ({ x with trig := none }.wr (BitVec.ofNat 6 gr) w).wf (BitVec.ofNat 3 tf) false)
        (s.blk.eng[e]).waitFrom s t := by
  refine done_intro (exec_waittRelease s) fun u => ?_
  simp only [hw, htrig]
  exact resumes_mapE (by rw [hw]; rfl) rfl

theorem waitl_releases_at_once {k : WaitSlot} {st gs tf : Nat} {dl : Option Nat} (hw : (s.blk.eng[e]).wait = .line k (some st) gs tf dl) :
    ∃ t, exec (.waitlRelease e) s = .next t ∧
      Resumes e (fun x => (x.wr (BitVec.ofNat 6 gs) (BitVec.ofNat 72 st)).wf (BitVec.ofNat 3 tf) false)
        (tickUp (max (s.blk.eng[e]).waitFrom s.blk.tm.phys)) s t := by
  refine done_intro (exec_waitlRelease s) fun u => ?_
  simp only [hw]
  exact resumes_clock rfl (only_refl _ _) (by rw [hw]; rfl)

theorem waitl_crosses {k : WaitSlot} {gs tf : Nat} {dl : Option Nat} {c : Word} (hw : (s.blk.eng[e]).wait = .line k none gs tf dl)
    (hc : (s.blk.reachPhys (s.blk.eng[e]).waitFrom).lineCross k = some c)
    (hdl : pastDeadline dl ((s.blk.reachPhys (s.blk.eng[e]).waitFrom).reachStw c).tm.phys = false) :
    ∃ t, exec (.waitlRelease e) s = .next t ∧ Resumes e (fun x => (x.wr (BitVec.ofNat 6 gs) 0).wf (BitVec.ofNat 3 tf) false)
      (tickUp ((s.blk.reachPhys (s.blk.eng[e]).waitFrom).reachStw c).tm.phys) s t := by
  have hregs : ((s.blk.reachPhys (s.blk.eng[e]).waitFrom).reachStw c).regs = s.blk.regs := by
    rw [reachStw_regs, reachPhys_withTm, withTm_regs]
  have honly := only_trans (reachPhys_only s.blk (s.blk.eng[e]).waitFrom) (reachStw_only _ c)
  refine done_intro (exec_waitlRelease s) fun u => ?_
  simp only [hw, hc, hdl, Bool.false_eq_true, if_false]
  exact resumes_clock hregs honly (by rw [hw]; rfl)

/-- The tag of an engine that its number names. -/
theorem tag_getD (x : Engine) (k : Fin 4) : x.tags[k.val]?.getD .free = x.tags[k] := by simp

theorem camw_releases_free {k : Fin 4} {gs tf : Nat} {dl : Option Nat} (hw : (s.blk.eng[e]).wait = .camw k gs tf dl)
    (htag : (s.blk.eng[e]).tags[k] = .free) :
    ∃ t, exec (.camwRelease e) s = .next t ∧ Resumes e (fun x => (x.wr (BitVec.ofNat 6 gs) 14).wf (BitVec.ofNat 3 tf) false)
      (s.blk.eng[e]).waitFrom s t := by
  refine done_intro (exec_camwRelease s) fun u => ?_
  simp only [hw, tag_getD, htag]
  exact resumes_clock rfl (only_refl _ _) (by rw [hw]; rfl)

theorem camw_releases_done {k : Fin 4} {gs tf : Nat} {dl : Option Nat} {st : Word} (hw : (s.blk.eng[e]).wait = .camw k gs tf dl)
    (htag : (s.blk.eng[e]).tags[k] = .done st)
    (hdl : pastDeadline dl (max (s.blk.eng[e]).waitFrom ((s.blk.eng[e]).doneAt[k] + tick)) = false) :
    ∃ t, exec (.camwRelease e) s = .next t ∧
      Resumes e (fun x => ({ x with tags := x.tags.set k .free }.wr (BitVec.ofNat 6 gs) st).wf (BitVec.ofNat 3 tf) false)
        (max (s.blk.eng[e]).waitFrom ((s.blk.eng[e]).doneAt[k] + tick)) s t := by
  have hdone : (s.blk.eng[e]).doneAt[k.val]?.getD 0 = (s.blk.eng[e]).doneAt[k] := by simp
  refine done_intro (exec_camwRelease s) fun u => ?_
  simp only [hw, tag_getD, htag, hdone, hdl, Bool.false_eq_true, if_false, vmod, k.isLt, dif_pos]
  exact resumes_mapE (by rw [hw]; rfl) rfl

/-! ### Signals (R156) -/

/-- WAITS takes signals and leaves the rest of its engine. -/
theorem sigTake_keeps (x : Engine) (all : Bool) (m : BitVec 8) (n : Nat) :
    (x.sigTake all m n).2.wait = x.wait ∧ (x.sigTake all m n).2.pc = x.pc := by
  unfold Engine.sigTake
  split <;> exact ⟨rfl, rfl⟩

theorem waits_releases {all : Bool} {m : BitVec 8} {gs tf n : Nat} {dl : Option Nat} (hw : (s.blk.eng[e]).wait = .sigs all m gs tf dl)
    (hn : (s.blk.eng[e]).sigWhen all m (s.blk.eng[e]).waitFrom = some n) (hdl : pastDeadline dl n = false) :
    ∃ t, exec (.waitsRelease e) s = .next t ∧
      Resumes e (fun x => ((x.sigTake all m n).2.wr (BitVec.ofNat 6 gs) ((x.sigTake all m n).1.zeroExtend 72)).wf
        (BitVec.ofNat 3 tf) false) n s t := by
  obtain ⟨hwait, hpc⟩ := sigTake_keeps (s.blk.eng[e]) all m n
  refine done_intro (exec_waitsRelease s) fun u => ?_
  simp only [hw, hn, hdl, Bool.false_eq_true, if_false]
  exact resumes_mapE (by rw [hwait, hw]; rfl) hpc

/-! ### Timeouts (R149, R152, R155) -/

theorem timeout_writes {d gs v : Nat} (hd : waitDeadline (s.blk.eng[e]).wait = some (d, some (gs, v)))
    (hr : s.blk.releasesBy s.blk.eng[e] d = false) :
    ∃ t, exec (.waitTimeout e) s = .next t ∧
      Resumes e (fun x => (x.wr (BitVec.ofNat 6 gs) (BitVec.ofNat 72 v)).wf (BitVec.ofNat 3 (waitTf x.wait)) true)
        (max d (s.blk.eng[e]).waitFrom) s t := by
  refine done_intro (exec_waitTimeout s) fun u => ?_
  simp only [hd, hr, Bool.false_eq_true, if_false]
  exact resumes_clock rfl (only_refl _ _) rfl

theorem timeout_ends {d : Nat} (hd : waitDeadline (s.blk.eng[e]).wait = some (d, none))
    (hr : s.blk.releasesBy s.blk.eng[e] d = false) :
    ∃ t, exec (.waitTimeout e) s = .next t ∧ Resumes e (fun x => x.wf (BitVec.ofNat 3 (waitTf x.wait)) true)
      (max d (s.blk.eng[e]).waitFrom) s t := by
  refine done_intro (exec_waitTimeout s) fun u => ?_
  simp only [hd, hr, Bool.false_eq_true, if_false]
  exact resumes_clock rfl (only_refl _ _) rfl

end

/-! ### BAR (R157) -/

/-- What the release of a BAR may touch. -/
def barTouch (a : Nat) : Bool := galTouch a || (List.range 16).any (fun k => a == GAL_STAT k)

theorem barTouch_of_one (e : Fin 16) {a : Nat} (h : (galTouch a || a == GAL_STAT e) = true) : barTouch a = true := by
  rcases Bool.or_eq_true_iff.mp h with h | h
  · simp only [barTouch, h, Bool.true_or]
  · have hany : (List.range 16).any (fun k => a == GAL_STAT k) = true :=
      List.any_eq_true.mpr ⟨e, List.mem_range.mpr e.isLt, h⟩
    simp only [barTouch, hany, Bool.or_true]

/-- What a list of engines released at instant `t` leaves. -/
structure Block.released (b : Block) (t : Nat) (l : List Nat) (c : Block) : Prop where
  engines : ∀ k : Fin 16, k.val ∈ l → ∃ r, c.eng[k] = (b.eng[k].waitEnded id t false).seenDone r
  flags : ∀ k : Fin 16, k.val ∈ l → c.flag (GAL_STAT_WAIT k) = false
  others : ∀ k : Fin 16, k.val ∉ l → c.eng[k] = b.eng[k]
  otherStats : ∀ k : Fin 16, k.val ∉ l → c.reg (GAL_STAT k) = b.reg (GAL_STAT k)
  frame : b.changes barTouch [.eng, .tm, .trc, .host, .out] c

theorem endWait_stat_ne (b : Block) {e k : Fin 16} (h : k ≠ e) (t : Nat) (timeout : Bool) (res : Word) (upd : Engine → Engine) :
    (b.endWait e t timeout res upd).reg (GAL_STAT k) = b.reg (GAL_STAT k) := by
  have hne : GAL_STAT k ≠ GAL_STAT e := fun ha => h (Fin.ext (by simp only [GAL_STAT] at ha; omega))
  exact (endWait_frame b e t timeout res upd).1 _ (by simp only [galTouch_stat k, beq_eq_false_iff_ne.mpr hne, Bool.or_self])

/-- The engines of a list, each named once, are released one after the other in the same tick. -/
theorem releaseAll_released (t : Nat) : ∀ (l : List Nat) (b : Block), (∀ m ∈ l, m < 16) → l.Nodup → b.released t l (b.releaseAll t l)
  | [], b, _, _ => ⟨fun _ h => absurd h (List.not_mem_nil), fun _ h => absurd h (List.not_mem_nil), fun _ _ => rfl, fun _ _ => rfl,
      changes_refl _ _ b⟩
  | m :: l, b, hl, hnd => by
    obtain ⟨e, he⟩ : ∃ e : Fin 16, e.val = m := ⟨⟨m, hl m List.mem_cons_self⟩, rfl⟩
    obtain ⟨hm, hnd⟩ := List.nodup_cons.mp hnd
    obtain ⟨r, hx, hothers⟩ := endWait_engine b e t false 0 id
    have hstat := endWait_stat b e t false 0 id
    have hstats := fun k (hk : k ≠ e) => endWait_stat_ne b hk t false 0 id
    have hframe := endWait_frame b e t false 0 id
    obtain ⟨hengs, hflags, hrest, hrestStats, hch⟩ :=
      releaseAll_released t l (b.endWait e t false 0 id) (fun k hk => hl k (List.mem_cons_of_mem m hk)) hnd
    subst he
    rw [Block.releaseAll]
    generalize b.endWait e t false 0 id = c at *
    have hne : ∀ k : Fin 16, k.val ∈ l → k ≠ e := fun k hk hke => hm (hke ▸ hk)
    refine ⟨fun k hk => ?_, fun k hk => ?_, fun k hk => ?_, fun k hk => ?_, ?_⟩
    · rcases List.mem_cons.mp hk with hk | hk
      · rw [Fin.ext hk, hrest e hm]
        exact ⟨r, hx⟩
      · rw [← hothers k (hne k hk)]
        exact hengs k hk
    · rcases List.mem_cons.mp hk with hk | hk
      · have hput := Block.flag_putB_same b (GAL_STAT_WAIT e) false (by simp) rfl
        simp only [Block.flag, Block.get] at hput ⊢
        rw [Fin.ext hk, hrestStats e hm, hstat, hput]
      · exact hflags k hk
    · obtain ⟨hke, hkl⟩ := not_or.mp (fun h => hk (List.mem_cons.mpr h))
      exact (hrest k hkl).trans (hothers k (fun h => hke (congrArg Fin.val h)))
    · obtain ⟨hke, hkl⟩ := not_or.mp (fun h => hk (List.mem_cons.mpr h))
      exact (hrestStats k hkl).trans (hstats k (fun h => hke (congrArg Fin.val h)))
    · exact changes_trans (changes_mono hframe (fun _ => barTouch_of_one e) (List.Subset.refl _)) hch

theorem mem_members {m : BitVec 16} {k : Nat} : k ∈ members m ↔ k < 16 ∧ m.getLsbD k = true := by
  simp [members]

theorem members_nodup (m : BitVec 16) : (members m).Nodup := List.nodup_range.filter _

theorem bar_releases {s : State} {e : Fin 16} {m : BitVec 16} {tf : Nat} {dl : Option Nat} (hw : (s.blk.eng[e]).wait = .bar m tf dl)
    (hin : ∀ k : Fin 16, m.getLsbD k = true → s.blk.inBar m k = true) (hdl : pastDeadline dl (s.blk.barTick m) = false) :
    ∃ t, exec (.barRelease e) s = .next t ∧
      (∀ k : Fin 16, m.getLsbD k = true → (t.blk.eng[k]).wait = .none ∧ (t.blk.eng[k]).pc = (s.blk.eng[k]).pc + 1 ∧
        (t.blk.eng[k]).readyAt = s.blk.barTick m ∧ t.blk.flag (GAL_STAT_WAIT k) = false ∧
        (t.blk.eng[k]).g = (s.blk.eng[k]).g) ∧
      (∀ k : Fin 16, m.getLsbD k = false → t.blk.eng[k] = s.blk.eng[k]) ∧
      FrameOn barTouch [.eng, .tm, .trc, .host, .out] s t := by
  have hall : (members m).all (s.blk.inBar m) = true := List.all_eq_true.mpr fun k hk => by
    obtain ⟨hlt, hbit⟩ := mem_members.mp hk
    exact hin ⟨k, hlt⟩ hbit
  obtain ⟨hengs, hflags, hothers, -, hch⟩ := releaseAll_released (s.blk.barTick m) (members m) s.blk
    (fun k hk => (mem_members.mp hk).1) (members_nodup m)
  refine leadsTo_intro (c := s.blk.releaseAll (s.blk.barTick m) (members m)) ((exec_barRelease s).trans
    (done_leadsTo (by simp only [hw, hall, hdl, Bool.not_false, Bool.and_self, if_true]))) fun u => ?_
  refine ⟨fun k hk => ?_, fun k hk => ?_, frameOn_intro hch⟩
  · have hmem : k.val ∈ members m := mem_members.mpr ⟨k.isLt, hk⟩
    obtain ⟨r, hx⟩ := hengs k hmem
    rw [Block.withTags_eng, Block.withTags_flag, hx]
    exact ⟨rfl, rfl, rfl, hflags k hmem, wf_g _ _ _⟩
  · refine hothers k fun hmem => ?_
    rw [(mem_members.mp hmem).2] at hk
    exact Bool.noConfusion hk

/-- Settles O23: a wait ends at the instant of its condition or of its timeout, whatever the clocks show as the command comes, and the end
of a wait is the same for every kind of wait but for what it writes. -/
theorem galleryReleases : Obligations.GalleryReleases := by
  unfold Obligations.GalleryReleases
  refine ⟨?_, ?_, ?_, ?_, ?_, ?_, ?_, ?_, ?_, ?_⟩
  · intro s e w gr tf hw
    exact waitt_releases hw
  · intro s e w gr tf hw htrig
    exact boundary_releases hw htrig
  · intro s e k st gs tf dl hw
    exact waitl_releases_at_once hw
  · intro s e k gs tf dl c hw hc hdl
    exact waitl_crosses hw hc hdl
  · intro s e k gs tf dl hw htag
    exact camw_releases_free hw htag
  · intro s e k gs tf dl st hw htag hdl
    exact camw_releases_done hw htag hdl
  · intro s e all m gs tf n dl hw hn hdl
    exact waits_releases hw hn hdl
  · intro s e m tf dl hw hin hdl
    exact bar_releases hw hin hdl
  · intro s e d gs v hd hr
    exact timeout_writes hd hr
  · intro s e d hd hr
    exact timeout_ends hd hr

end Sys2Proof.Machine
end

section
/-! The gates of the ports as a mask opens or closes them (R161, R283). -/

namespace Sys2Proof.Machine

/-! ### The registers of the egress ports -/

/-- The registers of the egress ports, with the gates among them. -/
def portReg (a : Nat) : Bool := within 0x181000 0x184000 a

/-- What the registers of the egress ports hold. -/
def Block.ports (b : Block) (a : Nat) : Word := if portReg a then b.reg a else 0

theorem portReg_false {a : Nat} (h : a < 0x181000 ∨ 0x184000 ≤ a) : portReg a = false := by
  simp only [portReg, within, Bool.and_eq_false_iff, decide_eq_false_iff_not]
  omega

theorem portReg_stat {p : Nat} (hp : p < 32) : portReg (SWC_PORT_STAT p) = true := by
  simp only [portReg, within, SWC_PORT_STAT, Bool.and_eq_true, decide_eq_true_eq]
  omega

section
variable {b c : Block}

theorem ports_of_regs (h : c.regs = b.regs) : c.ports = b.ports := by
  funext a
  simp only [Block.ports, Block.reg, h]

theorem ports_of_changes {touch : Nat → Bool} {ps : List Part} (h : b.changes touch ps c) (ht : ∀ a, portReg a = true → touch a = false) :
    c.ports = b.ports := by
  funext a
  unfold Block.ports
  split
  · rename_i ha
    exact h.1 a (ht a ha)
  · rfl

/-- The gate of a port, as its register holds it. -/
theorem gate_of_ports (h : c.ports = b.ports) {p : Nat} (hp : p < 32) : c.flag (SWC_PORT_STAT_GATE p) = b.flag (SWC_PORT_STAT_GATE p) := by
  have hstat := congrFun h (SWC_PORT_STAT p)
  simp only [Block.ports, portReg_stat hp, if_true] at hstat
  simp only [Block.flag, Block.get, hstat]

theorem galTouch_portReg {a : Nat} (h : portReg a = true) : galTouch a = false := by
  simp only [portReg, within, Bool.and_eq_true, decide_eq_true_eq] at h
  have h1 : EVT_PEND < 0x181000 := by decide
  have h2 : EVT_OVR < 0x181000 := by decide
  simp only [galTouch, within, Bool.or_eq_false_iff, Bool.and_eq_false_iff, decide_eq_false_iff_not, beq_eq_false_iff_ne]
  omega

theorem ports_of_counted (h : b.counted c) : c.ports = b.ports := ports_of_changes (changes_of_counted h) fun _ => galTouch_portReg

end

section
variable (b : Block)

theorem setReg_ports {a : Nat} (h : portReg a = false) (v : Word) : (b.setReg a v).ports = b.ports := by
  refine ports_of_changes (touch := fun x => x == a) (setReg_changes [] b v (by simp)) fun x hx => ?_
  rw [beq_eq_false_iff_ne]
  rintro rfl
  rw [h] at hx
  exact Bool.noConfusion hx

theorem put_ports {f : Field} (h : portReg f.addr = false) (v : Nat) : (b.put f v).ports = b.ports := setReg_ports b h _

theorem putB_ports {f : Field} (h : portReg f.addr = false) (v : Bool) : (b.putB f v).ports = b.ports := put_ports b h _

theorem setBit_ports {f : Field} (h : portReg f.addr = false) (i : Nat) : (b.setBit f i).ports = b.ports := put_ports b h _

theorem raise_ports (n : Nat) : (b.raise n).ports = b.ports :=
  ports_of_changes (raise_changes b n (touch := galTouch) (fun _ => galTouch_of_evTouch) (List.Subset.refl _)) fun _ => galTouch_portReg

/-! ### What the switch core leaves as scheduled copies end -/

theorem halfEvent_ports (a : Nat) : (b.halfEvent a).ports = b.ports := by
  have hgroup : (match statGroup a with | some g => b.setBit STS_HALFSUM_GROUP g | none => b).ports = b.ports := by
    split
    · exact setBit_ports b (by decide) _
    · rfl
  unfold Block.halfEvent
  simp only
  split
  · rw [raise_ports, putB_ports _ (by decide)]
  · split
    · rw [raise_ports, setBit_ports _ (by decide)]
    · rw [raise_ports]
      split
      · rename_i hmac
        simp only [Bool.and_eq_true, decide_eq_true_eq] at hmac
        have hn : (a - 0x140000) / 0x1000 < 0x21 := by omega
        split
        · rw [putB_ports _ (portReg_false (.inl (by simp only [MAC_CAUSE]; omega))),
            setBit_ports _ (portReg_false (.inl (by simp only [MAC_HALF]; omega)))]
          exact hgroup
        · rw [putB_ports _ (portReg_false (.inl (by simp only [MAC_TSCAUSE]; omega)))]
          exact hgroup
      · exact hgroup

theorem countUp_ports {a : Nat} (h : portReg a = false) (n : Nat) : (b.countUp a n).ports = b.ports := by
  unfold Block.countUp
  simp only
  split
  · rw [halfEvent_ports, setReg_ports _ h]
  · exact setReg_ports _ h _

theorem macCount_port {n i : Nat} (hn : n ≤ 32) (hi : i < 64) : portReg (MAC_STAT_CNT n i) = false :=
  portReg_false (.inl (by simp only [MAC_STAT_CNT]; omega))

theorem sendPause_ports {n : Nat} (hn : n ≤ 32) (q : Nat) : (b.sendPause n q).ports = b.ports :=
  (ports_of_regs rfl).trans (countUp_ports b (macCount_port hn (by decide)) 1)

theorem sendPfc_ports {n : Nat} (hn : n ≤ 32) (m q : Nat) : (b.sendPfc n m q).ports = b.ports :=
  (ports_of_regs rfl).trans (countUp_ports b (macCount_port hn (by decide)) 1)

theorem mapMac_ports (n : Nat) (f : MacSt → MacSt) : (b.mapMac n f).ports = b.ports := ports_of_regs rfl

theorem mapSw_ports (f : SwSt → SwSt) : (b.mapSw f).ports = b.ports := ports_of_regs rfl

theorem pauseSource_ports {n : Nat} (hn : n ≤ 32) (s : Nat) : (b.pauseSource s n).ports = b.ports := by
  unfold Block.pauseSource
  simp only
  split
  · rfl
  · split
    · rw [mapMac_ports, sendPause_ports b hn]
    · split
      · split
        · rfl
        · rw [mapMac_ports, sendPfc_ports b hn]
      · rfl

theorem unpauseSource_ports {n : Nat} (hn : n ≤ 32) : (b.unpauseSource n).ports = b.ports := by
  unfold Block.unpauseSource
  simp only
  split
  · rfl
  · split
    · rw [mapMac_ports, sendPause_ports b hn]
    · rw [mapMac_ports, sendPfc_ports b hn]

theorem sourceStat_port (s : Nat) : portReg (SWC_IG_STAT s) = false := portReg_false (.inr (by simp only [SWC_IG_STAT]; omega))

theorem xoffEnter_ports (s : Nat) : (b.xoffEnter s).ports = b.ports := by
  rw [Block.xoffEnter, raise_ports, countUp_ports _ (portReg_false (.inr (by simp only [SWC_S_CNT]; omega))),
    put_ports _ (by decide), putB_ports _ (by decide), putB_ports _ (sourceStat_port s)]
  exact ports_of_counted (fabTouch_counted b)

theorem sourceUpdate_ports (s : Nat) : (b.sourceUpdate s).ports = b.ports := by
  have hstat := sourceStat_port s
  have hshow : ((b.put (SWC_IG_STAT_OCC s) (b.occOf s)).put (SWC_IG_STAT_EFF s) (b.effOf s)).ports = b.ports := by
    rw [put_ports _ hstat, put_ports _ hstat]
  unfold Block.sourceUpdate
  simp only
  generalize (b.put (SWC_IG_STAT_OCC s) (b.occOf s)).put (SWC_IG_STAT_EFF s) (b.effOf s) = b1 at hshow
  have hleave : (b1.fabTouch.putB (SWC_IG_STAT_XOFF s) false).ports = b.ports := by
    rw [putB_ports _ hstat, ports_of_counted (fabTouch_counted b1), hshow]
  have henter := (xoffEnter_ports b1 s).trans hshow
  split
  · split
    · split
      · rename_i hn
        exact (unpauseSource_ports _ (macOf_le hn)).trans hleave
      · exact hleave
    · split
      · rename_i hn
        split
        · exact (pauseSource_ports _ (macOf_le hn) s).trans hshow
        · exact hshow
      · exact hshow
  · split
    · split
      · rename_i hn
        exact (pauseSource_ports _ (macOf_le hn) s).trans henter
      · exact henter
    · exact hshow

theorem cellUpdate_ports : b.cellUpdate.ports = b.ports := by
  rw [Block.cellUpdate, put_ports _ (by decide), put_ports _ (by decide), put_ports _ (by decide)]

theorem freeFrame_ports (id : Nat) : (b.freeFrame id).ports = b.ports := by
  unfold Block.freeFrame
  split
  · rfl
  · rw [sourceUpdate_ports, cellUpdate_ports, mapSw_ports]

theorem release_ports (id : Nat) : (b.release id).ports = b.ports := by
  unfold Block.release
  split
  · rfl
  · split
    · exact freeFrame_ports b id
    · exact mapSw_ports b _

/-- A scheduled copy has no limit on its queue. -/
theorem dropCopy_ports {x : Copy} (hx : x.cls = 8) : (b.dropCopy x).ports = b.ports := by
  have hq : ∀ c : Block, c.queueUpdate x.port x.cls = c := fun c => by rw [Block.queueUpdate, if_pos (Nat.le_of_eq hx.symm)]
  rw [Block.dropCopy, hq, release_ports, mapSw_ports]

end

theorem dropCounted_ports : ∀ (l : List Copy) (b : Block), (∀ x ∈ l, x.cls = 8) → (b.dropCounted 3 l).ports = b.ports
  | [], _, _ => rfl
  | x :: r, b, hl => by
    have hcnt : portReg (SWC_EC_CNT x.port x.cls 3) = false := portReg_false (.inr (by simp only [SWC_EC_CNT]; omega))
    rw [Block.dropCounted, dropCounted_ports r _ fun y hy => hl y (List.mem_cons_of_mem _ hy), countUp_ports _ hcnt,
      dropCopy_ports b (hl x List.mem_cons_self)]

/-! ### The gates of a mask -/

section
variable (b : Block) (p : Nat)

theorem gate_put_same (v : Bool) : (b.putB (SWC_PORT_STAT_GATE p) v).flag (SWC_PORT_STAT_GATE p) = v :=
  Block.flag_putB_same b _ v (by simp) rfl

theorem gate_put_ne (v : Bool) {q : Nat} (hq : q ≠ p) :
    (b.putB (SWC_PORT_STAT_GATE p) v).flag (SWC_PORT_STAT_GATE q) = b.flag (SWC_PORT_STAT_GATE q) := by
  simp only [Block.flag]
  rw [Block.get_putB_apart _ _ _ _ (.inl (by simp only [SWC_PORT_STAT]; omega))]

/-- A gate that closes shows itself, and its copies end without a trace in the registers of the ports. -/
theorem closeGate_ports (hg : b.flag (SWC_PORT_STAT_GATE p) = true) :
    (b.closeGate p).ports = (b.putB (SWC_PORT_STAT_GATE p) false).ports := by
  rw [Block.closeGate, if_pos hg, dropCounted_ports _ _ fun x hx => ?_]
  have hx2 := (List.mem_filter.mp hx).2
  simp only [Bool.and_eq_true, beq_iff_eq] at hx2
  obtain ⟨⟨-, hcls⟩, -⟩ := hx2
  exact hcls

/-- One gate of a mask. -/
def Block.oneGate (opn : Bool) : Block := if opn then b.openGate p else b.closeGate p

theorem oneGate_same (opn : Bool) (hp : p < 32) : (b.oneGate p opn).flag (SWC_PORT_STAT_GATE p) = opn := by
  cases opn with
  | true => exact gate_put_same b p true
  | false =>
    cases hg : b.flag (SWC_PORT_STAT_GATE p) with
    | true => exact (gate_of_ports (closeGate_ports b p hg) hp).trans (gate_put_same b p false)
    | false =>
      have hc : b.closeGate p = b := by rw [Block.closeGate, hg, if_neg Bool.false_ne_true]
      rw [Block.oneGate, if_neg Bool.false_ne_true, hc, hg]

theorem oneGate_ne (opn : Bool) {q : Nat} (hq : q < 32) (hne : q ≠ p) :
    (b.oneGate p opn).flag (SWC_PORT_STAT_GATE q) = b.flag (SWC_PORT_STAT_GATE q) := by
  cases opn with
  | true => exact gate_put_ne b p true hne
  | false =>
    cases hg : b.flag (SWC_PORT_STAT_GATE p) with
    | true => exact (gate_of_ports (closeGate_ports b p hg) hq).trans (gate_put_ne b p false hne)
    | false =>
      have hc : b.closeGate p = b := by rw [Block.closeGate, hg, if_neg Bool.false_ne_true]
      rw [Block.oneGate, if_neg Bool.false_ne_true, hc]

end

section
variable (opn : Bool) (mask : Nat)

theorem setGates_cons (b : Block) (p : Nat) (r : List Nat) :
    b.setGates opn mask (p :: r) = (if bitAt mask p then b.oneGate p opn else b).setGates opn mask r := rfl

/-- The gates of the mask that a list names stand as they were set, and the others as before. -/
theorem setGates_gate {q : Nat} (hq : q < 32) : ∀ (l : List Nat) (b : Block), (∀ p ∈ l, p < 32) →
    (b.setGates opn mask l).flag (SWC_PORT_STAT_GATE q) =
      (if q ∈ l ∧ bitAt mask q = true then opn else b.flag (SWC_PORT_STAT_GATE q))
  | [], b, _ => by simp [Block.setGates]
  | p :: r, b, hl => by
    rw [setGates_cons, setGates_gate hq r _ fun k hk => hl k (List.mem_cons_of_mem _ hk)]
    rcases eq_or_ne q p with rfl | hne
    · cases hm : bitAt mask q <;> simp [oneGate_same, hq]
    · cases hm : bitAt mask p <;> simp [oneGate_ne, hq, hne]

theorem gates_gate (b : Block) {q : Nat} (hq : q < 32) :
    (b.gates opn mask).flag (SWC_PORT_STAT_GATE q) = (if bitAt mask q then opn else b.flag (SWC_PORT_STAT_GATE q)) := by
  rw [Block.gates, setGates_gate opn mask hq _ b fun _ hp => List.mem_range.mp hp]
  simp [hq]

end

/-! ### What else the gates of a mask change -/

section
variable {touch : Nat → Bool} (hcore : ∀ a, coreTouch a = true → touch a = true)
include hcore

theorem openGate_gated {b : Block} (h : b.srcsIn touch) {p : Nat} (hp : p < 32) : b.gated touch (b.openGate p) := by
  have hstat : touch (SWC_PORT_STAT p) = true :=
    hcore _ (coreTouch_of_range (by simp only [SWC_PORT_STAT]; omega) (by simp only [SWC_PORT_STAT]; omega))
  exact gated_trans (gated_flow h (changes_putB (f := SWC_PORT_STAT_GATE p) (v := true) (changes_refl _ _ b) hstat)) fun h1 =>
    gated_mapSw h1 fun x hx => ⟨x, hx, rfl⟩

theorem oneGate_gated {b : Block} (h : b.srcsIn touch) {p : Nat} (hp : p < 32) (opn : Bool) : b.gated touch (b.oneGate p opn) := by
  unfold Block.oneGate
  split
  · exact openGate_gated hcore h hp
  · exact closeGate_gated hcore h hp

theorem setGates_all_gated (opn : Bool) (mask : Nat) : ∀ (l : List Nat) (b : Block), b.srcsIn touch → (∀ p ∈ l, p < 32) →
    b.gated touch (b.setGates opn mask l)
  | [], _, h, _ => gated_refl h
  | p :: r, b, h, hl => by
    have hone : b.gated touch (if bitAt mask p then b.oneGate p opn else b) := by
      split
      · exact oneGate_gated hcore h (hl p List.mem_cons_self) opn
      · exact gated_refl h
    rw [setGates_cons]
    exact gated_trans hone fun h1 => setGates_all_gated opn mask r _ h1 fun q hq => hl q (List.mem_cons_of_mem _ hq)

theorem gates_all_gated {b : Block} (h : b.srcsIn touch) (opn : Bool) (mask : Nat) : b.gated touch (b.gates opn mask) :=
  setGates_all_gated hcore opn mask _ b h fun _ hp => List.mem_range.mp hp

end

end Sys2Proof.Machine
end

section
/-! EMIT, PATCH, GATE and SNAP as they execute, and the emission path (R158 to R162, R283), with their statement. -/

namespace Sys2Proof.Machine

/-! ### An instruction of Form D that writes its flag SF (R142) -/

section
variable {s : State} {e : Fin 16} {f : FormD} {o : Op} {act : Block → Act} {cost : Nat} {c : Block} {regs : Nat → Bool} {ps : List Part}
  (h : s.blk.stands e (encodeD o.code f) (checkD o f) f.psel)
include h

/-- An instruction that goes on leaves the fields outside its engine as its effect did. -/
theorem runD_go {g : Engine → Engine} {res : Word} {refused : Bool} {P : State → Prop}
    (ha : act (s.blk.atFirst e) = .go c cost res refused)
    (hbec : s.blk.becomes e (g (s.blk.eng[e])) c) (huse : (g (s.blk.eng[e])).use = (s.blk.eng[e]).use)
    (hch : s.blk.changes (fun a => galTouch a || regs a) ([.eng, .tm, .trc, .host, .out] ++ ps) c)
    (hP : ∀ t : State, (∀ k : Field, galTouch k.addr = false → t.blk.get k = c.get k) → P t) :
    ∃ t, runD o e f .none act s = .next t ∧ Executed e g cost ((s.blk.eng[e]).pc + 1) regs ps s t ∧ P t := by
  refine leadsTo_intro (done_go act h ha) fun u => ⟨executed_goesOn hbec huse hch, hP _ fun k hk => ?_⟩
  rw [Block.withTags_get, backTo_get, goesOn_get _ _ _ _ hk]

/-- An instruction that changes its engine by `g` and then writes SF. -/
theorem runD_putSf {g : Engine → Engine} {ok : Bool} (ha : act (s.blk.atFirst e) = putSf e f.sf ok cost c)
    (hbec : s.blk.becomes e (g (s.blk.eng[e])) c) (huse : (g (s.blk.eng[e])).use = (s.blk.eng[e]).use)
    (hch : s.blk.changes (fun a => galTouch a || regs a) ([.eng, .tm, .trc, .host, .out] ++ ps) c) :
    ∃ t, runD o e f .none act s = .next t ∧
      Executed e (fun x => (g x).wf f.sf ok) cost ((s.blk.eng[e]).pc + 1) regs ps s t :=
  leadsTo_intro (done_go act h ha) fun _ => executed_goesOn (f := fun x => (g x).wf f.sf ok) (becomes_step hbec _)
    ((wf_use _ _ _).trans huse) (changes_mapE hch e _ (by simp))

/-- An instruction that writes SF and does nothing more. -/
theorem runD_sf {ok : Bool} (ha : act (s.blk.atFirst e) = putSf e f.sf ok cost (s.blk.atFirst e)) :
    ∃ t, runD o e f .none act s = .next t ∧ Computes e (fun x => x.wf f.sf ok) cost s t :=
  leadsTo_intro (done_go act h ha) fun _ => computes_mapE (counted_refl _) (wf_use _ _ _)

theorem runD_trap {code : Nat} (hcode : code < 16) (ha : act (s.blk.atFirst e) = .trap code) :
    ∃ t, runD o e f .none act s = .next t ∧ Trapped e code s t := by
  refine leadsTo_intro (done_stands act h) fun u => ?_
  rw [ha]
  exact trapped_carried h hcode u

end

/-- A bit of an immediate, read as a number. -/
theorem immBit {n : Nat} (v : BitVec n) (k : Nat) : (v.toNat / 2 ^ k % 2 == 1) = v.getLsbD k := bitAt_eq_testBit v.toNat k

/-! ### The digest of an engine (R511) -/

section
variable (b : Block) (n : Nat) (l : List Byte)

theorem digEngine_regs : (b.digEngine n l).regs = b.regs := by
  unfold Block.digEngine
  split <;> rfl

theorem digEngine_only : b.only [.pair] (b.digEngine n l) := by
  unfold Block.digEngine
  split
  · simp [Block.only]
  · exact only_refl _ _

theorem changes_digEngine {touch : Nat → Bool} {ps : List Part} {a : Block} (h : a.changes touch ps b) (hp : .pair ∈ ps) :
    a.changes touch ps (b.digEngine n l) :=
  changes_part h (digEngine_regs b n l) (only_mono (digEngine_only b n l) (by simp [hp]))

theorem becomes_digEngine {e : Fin 16} {x : Engine} {a : Block} (h : a.becomes e x b) : a.becomes e x (b.digEngine n l) :=
  becomes_of_eng h (only_eng (digEngine_only b n l) (by simp))

end

/-! ### EMIT (R158) -/

/-- An engine with a further frame in its emission buffer. -/
def Engine.holds (fr : EFrame) (x : Engine) : Engine := { x with emis := x.emis ++ [fr] }

/-- The block with a further frame in the emission buffer of `e`, counted. -/
def Block.emitsIn (b : Block) (e : Fin 16) (fr : EFrame) (len : Nat) : Block := (b.mapE e (Engine.holds fr)).engEvent e 8 len

/-- A frame that is released joins the digest. -/
def Block.digIf (b : Block) (e : Fin 16) (rel : Bool) (fr : EFrame) : Block := if rel then b.digFrame e fr else b

section
variable {a b : Block} {e : Fin 16} (rel : Bool) (fr : EFrame)

theorem becomes_digIf {x : Engine} (h : a.becomes e x b) : a.becomes e x (b.digIf e rel fr) := by
  unfold Block.digIf
  split
  · exact becomes_digEngine _ _ _ h
  · exact h

theorem changes_digIf {touch : Nat → Bool} {ps : List Part} (h : a.changes touch ps b) (hp : .pair ∈ ps) :
    a.changes touch ps (b.digIf e rel fr) := by
  unfold Block.digIf
  split
  · exact changes_digEngine _ _ _ h hp
  · exact h

end

/-- The block in which EMIT leaves its frame. -/
def Block.emits (b : Block) (e : Fin 16) (f : FormD) (w : Word) : Block :=
  ((b.atFirst e).emitsIn e (emitFrame b e f w) (dirLen w)).digIf e (!f.imm.getLsbD 10) (emitFrame b e f w)

section
variable {s : State} {e : Fin 16} {f : FormD}

theorem emits_becomes (b : Block) (w : Word) : b.becomes e (b.eng[e].holds (emitFrame b e f w)) (b.emits e f w) := by
  have hmap := becomes_from (becomes_mapE (b.atFirst e) e (Engine.holds (emitFrame b e f w))) (atFirst_eng b e)
  rw [atFirst_eng] at hmap
  have hcnt := becomes_of_eng hmap (only_eng (engEvent_counted e.isLt ((b.atFirst e).mapE e (Engine.holds (emitFrame b e f w))) 8 (dirLen w)).2 (by simp))
  exact becomes_digIf _ _ hcnt

theorem emits_changes (b : Block) (w : Word) :
    b.changes (fun a => galTouch a || false) ([.eng, .tm, .trc, .host, .out] ++ [.pair]) (b.emits e f w) := by
  have hmap : b.changes (fun a => galTouch a || false) ([.eng, .tm, .trc, .host, .out] ++ [.pair])
      ((b.atFirst e).mapE e (Engine.holds (emitFrame b e f w))) :=
    changes_mapE (changes_mono (atFirst_changes b e _) (fun _ h => h) (by simp)) e _ (by simp)
  have hcnt := changes_counted hmap (engEvent_counted e.isLt _ 8 (dirLen w)) (fun a ha => by simp only [ha, Bool.true_or]) (by simp)
  exact changes_digIf _ _ hcnt (by simp)

variable (h : s.blk.stands e (encodeD Op.emit.code f) (checkD .emit f) f.psel)
include h

theorem emit_copies {w : Word} (hw : (s.blk.eng[e]).dir[f.sel.toNat]? = some w) (hr : emitRoom s.blk e f w = true) :
    ∃ t, exec (.emit e f .none) s = .next t ∧
      Executed e (fun x => { x with emis := x.emis ++ [emitFrame s.blk e f w] }.wf f.sf true) (8 + ceilDiv (dirLen w) 16)
        ((s.blk.eng[e]).pc + 1) (fun _ => false) [.pair] s t := by
  refine runD_putSf h (c := s.blk.emits e f w) (g := Engine.holds (emitFrame s.blk e f w)) ?_ (emits_becomes s.blk w) rfl
    (emits_changes s.blk w)
  rw [emitRoom] at hr
  simp only [atFirst_eng, hw, immBit, emissionSize, hr, atFirst_phys, atFirst_cyc, Bool.true_and, if_true]
  rfl

theorem emit_refuses {w : Word} (hw : (s.blk.eng[e]).dir[f.sel.toNat]? = some w) (hr : emitRoom s.blk e f w = false) :
    ∃ t, exec (.emit e f .none) s = .next t ∧ Computes e (fun x => x.wf f.sf false) (8 + ceilDiv (dirLen w) 16) s t := by
  refine runD_sf h ?_
  rw [emitRoom] at hr
  simp only [atFirst_eng, hw, immBit, emissionSize, hr, Bool.false_and, Bool.false_eq_true, if_false]

theorem emit_traps (hw : (s.blk.eng[e]).dir[f.sel.toNat]? = none) :
    ∃ t, exec (.emit e f .none) s = .next t ∧ Trapped e 7 s t :=
  runD_trap h (by decide) (by simp only [atFirst_eng, hw])

end

/-! ### PATCH (R159) -/

/-- A frame of hold slot `slot` with bytes overwritten from `off` on, and perhaps released. -/
def EFrame.patched (slot off : Nat) (v : List Byte) (rel : Bool) (at_ : Nat) (y : EFrame) : EFrame :=
  if y.hold == some slot then { y with bytes := overwrite y.bytes off v, hold := if rel then none else y.hold, rel := at_ } else y

/-- An emission buffer once `upd` has patched the frame `g` of slot `slot`: a released frame goes to the end. -/
def patchedIn (slot : Nat) (rel : Bool) (upd : EFrame → EFrame) (g : EFrame) (l : List EFrame) : List EFrame :=
  if rel then l.filter (fun z => z.hold != some slot) ++ [upd g] else l.map upd

section
variable {slot : Nat} {rel : Bool} {upd : EFrame → EFrame} {g : EFrame} {l : List EFrame}

theorem mem_patchedIn (hg : g ∈ l) : upd g ∈ patchedIn slot rel upd g l := by
  unfold patchedIn
  split
  · exact List.mem_append_right _ List.mem_cons_self
  · exact List.mem_map_of_mem hg

theorem mem_patchedIn_of_ne {z : EFrame} (hz : z ∈ l) (hne : z.hold ≠ some slot) (hupd : upd z = z) :
    z ∈ patchedIn slot rel upd g l := by
  unfold patchedIn
  split
  · exact List.mem_append_left _ (List.mem_filter.mpr ⟨hz, by simpa using hne⟩)
  · exact List.mem_map.mpr ⟨z, hz, hupd⟩

end

theorem patched_of_ne {slot off : Nat} {v : List Byte} {rel : Bool} {at_ : Nat} {z : EFrame} (h : z.hold ≠ some slot) :
    z.patched slot off v rel at_ = z := by
  rw [EFrame.patched, if_neg (by simpa using h)]

/-- An engine with another emission buffer. -/
def Engine.withEmis (l : List EFrame) (x : Engine) : Engine := { x with emis := l }

section
variable {s : State} {e : Fin 16} {f : FormD} (h : s.blk.stands e (encodeD Op.patch.code f) (checkD .patch f) f.psel)
include h

theorem patch_writes {g : EFrame}
    (hg : (s.blk.eng[e]).emis.find? (fun y => y.hold == some (f.imm.toNat / 2 ^ 21 % 4)) = some g)
    (hfit : f.imm.toNat / 2 ^ 14 % 16 = 0 ∨ f.imm.toNat % 2 ^ 14 + f.imm.toNat / 2 ^ 14 % 16 ≤ g.bytes.length)
    (hb : (s.blk.atFirst e).boundaryWithin 3 = false) :
    ∃ t, exec (.patch e f .none) s = .next t ∧ ∃ l : List EFrame,
      Executed e (fun x => { x with emis := l }.wf f.sf true) 3 ((s.blk.eng[e]).pc + 1) (fun _ => false) [.pair] s t ∧
      (∃ y ∈ l, y.bytes = overwrite g.bytes (f.imm.toNat % 2 ^ 14)
          (patchBytes (f.imm.toNat / 2 ^ 18 % 4) (f.imm.toNat / 2 ^ 14 % 16) ((s.blk.eng[e]).rd f.ra)) ∧
        y.hold = (if f.imm.getLsbD 20 then none else g.hold) ∧ y.port = g.port ∧ y.cls = g.cls ∧ y.cycle = g.cycle) ∧
      (∀ z ∈ (s.blk.eng[e]).emis, z.hold ≠ some (f.imm.toNat / 2 ^ 21 % 4) → z ∈ l) := by
  have hslot := List.find?_some hg
  have hwide : ¬ (f.imm.toNat / 2 ^ 14 % 16 ≠ 0 ∧ g.bytes.length < f.imm.toNat % 2 ^ 14 + f.imm.toNat / 2 ^ 14 % 16) := by omega
  obtain ⟨upd, hupd⟩ : ∃ upd : EFrame → EFrame, upd = EFrame.patched (f.imm.toNat / 2 ^ 21 % 4) (f.imm.toNat % 2 ^ 14)
    (patchBytes (f.imm.toNat / 2 ^ 18 % 4) (f.imm.toNat / 2 ^ 14 % 16) ((s.blk.eng[e]).rd f.ra)) (f.imm.getLsbD 20)
    (s.blk.firstTick e + 3 * tick) := ⟨_, rfl⟩
  obtain ⟨l, hl⟩ : ∃ l : List EFrame, l = patchedIn (f.imm.toNat / 2 ^ 21 % 4) (f.imm.getLsbD 20) upd g (s.blk.eng[e]).emis := ⟨_, rfl⟩
  have hmap := becomes_from (becomes_mapE (s.blk.atFirst e) e (Engine.withEmis l)) (atFirst_eng s.blk e)
  rw [atFirst_eng] at hmap
  have hch : s.blk.changes (fun a => galTouch a || false) ([.eng, .tm, .trc, .host, .out] ++ [.pair])
      ((s.blk.atFirst e).mapE e (Engine.withEmis l)) :=
    changes_mapE (changes_mono (atFirst_changes s.blk e _) (fun _ h => h) (by simp)) e _ (by simp)
  have hrun : ∃ t, exec (.patch e f .none) s = .next t ∧
      Executed e (fun x => (x.withEmis l).wf f.sf true) 3 ((s.blk.eng[e]).pc + 1) (fun _ => false) [.pair] s t := by
    refine runD_putSf h (c := ((s.blk.atFirst e).mapE e (Engine.withEmis l)).digIf e (f.imm.getLsbD 20) (upd g)) ?_
      (becomes_digIf _ _ hmap) rfl (changes_digIf _ _ hch (by simp))
    simp only [atFirst_eng, hg, hwide, hb, immBit, atFirst_phys, if_false, Bool.false_eq_true]
    rw [hl, hupd]
    rfl
  obtain ⟨t, ht, hex⟩ := hrun
  refine ⟨t, ht, l, hex, ⟨upd g, ?_, ?_⟩, fun z hz hne => ?_⟩
  · rw [hl]
    exact mem_patchedIn (List.mem_of_find?_eq_some hg)
  · rw [hupd, EFrame.patched, if_pos hslot]
    exact ⟨rfl, rfl, rfl, rfl, rfl⟩
  · rw [hl]
    exact mem_patchedIn_of_ne hz hne (hupd ▸ patched_of_ne hne)

theorem patch_refuses (hg : (s.blk.eng[e]).emis.find? (fun y => y.hold == some (f.imm.toNat / 2 ^ 21 % 4)) = none) :
    ∃ t, exec (.patch e f .none) s = .next t ∧ Computes e (fun x => x.wf f.sf false) 3 s t :=
  runD_sf h (by simp only [atFirst_eng, hg])

theorem patch_traps {g : EFrame} (hg : (s.blk.eng[e]).emis.find? (fun y => y.hold == some (f.imm.toNat / 2 ^ 21 % 4)) = some g)
    (hw : f.imm.toNat / 2 ^ 14 % 16 ≠ 0) (hfit : g.bytes.length < f.imm.toNat % 2 ^ 14 + f.imm.toNat / 2 ^ 14 % 16) :
    ∃ t, exec (.patch e f .none) s = .next t ∧ Trapped e 7 s t :=
  runD_trap h (by decide) (by simp only [atFirst_eng, hg, if_pos (show _ ∧ _ from ⟨hw, hfit⟩)])

end

/-! ### GATE (R161) -/

/-- A mask meets no port outside a port mask: a bit of the one that is not in the other shows. -/
theorem land_outside_eq_zero {m k : Nat} (hk : k < 2 ^ 32) :
    Nat.land m (2 ^ 32 - 1 - k) = 0 ↔ ∀ p < 32, bitAt m p = true → bitAt k p = true := by
  have hbit : ∀ p, (Nat.land m (2 ^ 32 - 1 - k)).testBit p = (m.testBit p && (decide (p < 32) && !k.testBit p)) := fun p => by
    have hsub : 2 ^ 32 - 1 - k = 2 ^ 32 - (k + 1) := by omega
    rw [hsub, ← Nat.testBit_two_pow_sub_succ hk p]
    exact Nat.testBit_and _ _ _
  simp only [bitAt_eq_testBit]
  refine ⟨fun h p hp hm => ?_, fun h => Nat.eq_of_testBit_eq fun p => ?_⟩
  · have hz := hbit p
    rw [h, Nat.zero_testBit, hm] at hz
    simpa [hp] using hz
  · rw [hbit, Nat.zero_testBit]
    cases hm : m.testBit p with
    | false => rfl
    | true =>
      by_cases hp : p < 32
      · simp [h p hp hm]
      · simp [hp]

section
variable {s : State} {e : Fin 16} {f : FormD} {m : Nat} (h : s.blk.stands e (encodeD Op.gate.code f) (checkD .gate f) f.psel)
  (hm : m = (if f.sel.getLsbD 1 then ((s.blk.eng[e]).rd f.ra).toNat % 2 ^ 32 else f.imm.toNat))
include h hm

theorem gate_sets (hok : s.blk.coreOk = true)
    (hp : s.blk.priv e = true ∨ ∀ p < 32, bitAt m p = true → bitAt (s.blk.get (GAL_PMASK_MASK e)) p = true) :
    ∃ t, exec (.gate e f .none) s = .next t ∧
      Executed e id 2 ((s.blk.eng[e]).pc + 1) coreTouch [.sw, .macs, .pair] s t ∧
      (∀ p < 32, t.blk.flag (SWC_PORT_STAT_GATE p) =
        (if bitAt m p then f.sel.getLsbD 0 else s.blk.flag (SWC_PORT_STAT_GATE p))) := by
  have hin : (!s.blk.priv e && Nat.land m (2 ^ 32 - 1 - s.blk.get (GAL_PMASK_MASK e)) != 0) = false := by
    rcases hp with hp | hp
    · rw [hp]
      rfl
    · rw [(land_outside_eq_zero (Block.get_lt s.blk (GAL_PMASK_MASK e))).mpr hp]
      simp
  obtain ⟨hgate, -⟩ := gates_all_gated (fun _ h => h) (srcsIn_atFirst (e := e) hok) (f.sel.getLsbD 0) m
  have hfirst := atFirst_changes s.blk e (fun a => galTouch a || coreTouch a)
  have hch : s.blk.changes (fun a => galTouch a || coreTouch a) ([.eng, .tm, .trc, .host, .out] ++ [.sw, .macs, .pair])
      ((s.blk.atFirst e).gates (f.sel.getLsbD 0) m) :=
    changes_trans (changes_mono hfirst (fun _ h => h) (by simp))
      (changes_mono hgate (fun a ha => by simp only [ha, Bool.or_true]) (by simp [gateParts, flowParts]))
  have hbec : s.blk.becomes e (id (s.blk.eng[e])) ((s.blk.atFirst e).gates (f.sel.getLsbD 0) m) :=
    becomes_of_eng (becomes_refl s.blk e) ((only_eng hgate.2 (by simp [gateParts, flowParts])).trans (atFirst_eng s.blk e))
  refine runD_go h (c := ((s.blk.atFirst e).gates (f.sel.getLsbD 0) m).digEngine e (Config.digestGate m (f.sel.getLsbD 0)
    (((s.blk.atFirst e).tm.phys - (s.blk.atFirst e).pair.trigAt) / nsUnit))) (res := 0) (refused := false) ?_ (becomes_digEngine _ _ _ hbec) rfl
    (changes_digEngine _ _ _ hch (by simp)) fun t ht p hp => ?_
  · simp only [atFirst_eng, atFirst_get, priv_atFirst, ← hm, hin, Bool.false_eq_true, if_false]
  · rw [Block.flag, ht _ (galTouch_portReg (portReg_stat hp))]
    exact (gate_of_ports (ports_of_regs (digEngine_regs _ _ _)) hp).trans ((gates_gate _ m _ hp).trans (by rw [atFirst_flag]))

theorem gate_traps {p : Nat} (hpriv : s.blk.priv e = false) (hp : p < 32) (hb : bitAt m p = true)
    (hk : bitAt (s.blk.get (GAL_PMASK_MASK e)) p = false) : ∃ t, exec (.gate e f .none) s = .next t ∧ Trapped e 2 s t := by
  have hout : (Nat.land m (2 ^ 32 - 1 - s.blk.get (GAL_PMASK_MASK e)) != 0) = true := by
    rw [bne_iff_ne, ne_eq, land_outside_eq_zero (Block.get_lt s.blk (GAL_PMASK_MASK e))]
    exact fun hall => by simp [hall p hp hb] at hk
  refine runD_trap h (by decide) ?_
  simp only [atFirst_eng, atFirst_get, priv_atFirst, ← hm, hpriv, hout]
  rfl

end

/-! ### SNAP (R162, R476) -/

/-- The registers once a snapshot is armed for engine `e`, whose STW may have passed. -/
def Block.armShown (b : Block) (e : Fin 16) (late : Bool) : Block :=
  if late then ((b.putB STS_SNAPSTAT_ARMED true).put STS_SNAPSTAT_OWNER e).putB STS_CAUSE_LATE true
  else (b.putB STS_SNAPSTAT_ARMED true).put STS_SNAPSTAT_OWNER e

section
variable {b : Block} {e : Fin 16}

theorem armShown_shows (late : Bool) : (b.armShown e late).flag STS_SNAPSTAT_ARMED = true ∧
    (b.armShown e late).get STS_SNAPSTAT_OWNER = e := by
  have howner : ((b.putB STS_SNAPSTAT_ARMED true).put STS_SNAPSTAT_OWNER e).get STS_SNAPSTAT_OWNER = e := by
    have he : e.val < 2 ^ 5 := Nat.lt_trans e.isLt (by decide)
    rw [Block.get_put_same _ _ _ (by decide)]
    exact Nat.mod_eq_of_lt he
  have harmed : ((b.putB STS_SNAPSTAT_ARMED true).put STS_SNAPSTAT_OWNER e).flag STS_SNAPSTAT_ARMED = true := by
    rw [Block.flag, Block.get_put_apart _ _ _ _ (by decide)]
    exact Block.flag_putB_same b STS_SNAPSTAT_ARMED true (by decide) rfl
  unfold Block.armShown
  split
  · rw [Block.flag, Block.get_putB_apart _ _ _ _ (by decide), Block.get_putB_apart _ _ _ _ (by decide)]
    exact ⟨harmed, howner⟩
  · exact ⟨harmed, howner⟩

theorem armShown_changes {touch : Nat → Bool} {ps : List Part} (h : touch STS_SNAPSTAT = true) (hc : touch STS_CAUSE = true)
    (late : Bool) : b.changes touch ps (b.armShown e late) := by
  have hown : b.changes touch ps ((b.putB STS_SNAPSTAT_ARMED true).put STS_SNAPSTAT_OWNER e) :=
    changes_put (changes_putB (changes_refl _ _ b) h) h
  unfold Block.armShown
  split
  · exact changes_putB hown hc
  · exact hown

theorem armSnap_armed (at_ : Option Word) (h : b.flag STS_SNAPSTAT_ARMED = true) : b.armSnap at_ e = (b, false) := by
  rw [Block.armSnap, if_pos h]

/-- An arming that is not refused. -/
theorem armSnap_free (at_ : Option Word) (h : b.flag STS_SNAPSTAT_ARMED = false) :
    ∃ late n, b.armSnap at_ e = ({ b.armShown e late with snap := n }, true) := by
  rw [Block.armSnap, if_neg (by rw [h]; exact Bool.false_ne_true)]
  cases at_ with
  | none => exact ⟨false, _, rfl⟩
  | some w => exact ⟨!before b.stw w, _, rfl⟩

end

section
variable {s : State} {e : Fin 16} {f : FormD} (h : s.blk.stands e (encodeD Op.snap.code f) (checkD .snap f) f.psel)
include h

theorem snap_arms (ha : s.blk.flag STS_SNAPSTAT_ARMED = false) :
    ∃ t, exec (.snap e f .none) s = .next t ∧ t.blk.flag STS_SNAPSTAT_ARMED = true ∧ t.blk.get STS_SNAPSTAT_OWNER = e.val ∧
      Executed e (fun x => x.wf f.sf true) 4 ((s.blk.eng[e]).pc + 1) (fun a => a == STS_SNAPSTAT || a == STS_CAUSE) [.snap] s t := by
  obtain ⟨late, n, harm⟩ := armSnap_free (b := s.blk.atFirst e) (e := e)
    (if f.sel.getLsbD 0 then none else some ((s.blk.eng[e]).rd f.ra)) ((atFirst_flag s.blk e _).trans ha)
  obtain ⟨harmed, howner⟩ := armShown_shows (b := s.blk.atFirst e) (e := e) late
  have hfirst := atFirst_changes s.blk e (fun a => galTouch a || (a == STS_SNAPSTAT || a == STS_CAUSE))
  have hch : s.blk.changes (fun a => galTouch a || (a == STS_SNAPSTAT || a == STS_CAUSE)) ([.eng, .tm, .trc, .host, .out] ++ [.snap])
      ({ (s.blk.atFirst e).armShown e late with snap := n } : Block) :=
    changes_part (changes_trans (changes_mono hfirst (fun _ h => h) (by simp)) (armShown_changes (by simp) (by simp) late)) rfl
      (by simp [Block.only])
  have heng : ((s.blk.atFirst e).armShown e late).eng = s.blk.eng := 
    (only_eng (armShown_changes (touch := fun _ => true) (ps := []) rfl rfl late).2 (by simp)).trans (atFirst_eng s.blk e)
  have hbec := becomes_of_eng (d := ({ (s.blk.atFirst e).armShown e late with snap := n } : Block)) (becomes_refl s.blk e) heng
  have hrun : ∃ t, exec (.snap e f .none) s = .next t ∧
      Executed e (fun x => x.wf f.sf true) 4 ((s.blk.eng[e]).pc + 1) (fun a => a == STS_SNAPSTAT || a == STS_CAUSE) [.snap] s t ∧
      t.blk.flag STS_SNAPSTAT_ARMED = true ∧ t.blk.get STS_SNAPSTAT_OWNER = e.val := by
    refine runD_go h (c := ({ (s.blk.atFirst e).armShown e late with snap := n } : Block).mapE e (fun x => x.wf f.sf true)) (res := 0)
      (refused := false) ?_ (becomes_step hbec _) (wf_use _ _ _) (changes_mapE hch e _ (by simp)) fun t ht => ⟨?_, ?_⟩
    · simp only [atFirst_eng, harm]
      rfl
    · rw [Block.flag, ht _ (by decide)]
      exact harmed
    · rw [ht _ (by decide)]
      exact howner
  obtain ⟨t, ht, hex, hflag, hget⟩ := hrun
  exact ⟨t, ht, hflag, hget, hex⟩

theorem snap_refuses (ha : s.blk.flag STS_SNAPSTAT_ARMED = true) :
    ∃ t, exec (.snap e f .none) s = .next t ∧ Computes e (fun x => x.wf f.sf false) 4 s t :=
  runD_sf h (by simp only [armSnap_armed _ ((atFirst_flag s.blk e _).trans ha)])

end

end Sys2Proof.Machine
end

section
/-! The emission path (R158, R229, R283): the engines keep what they hold as a frame leaves its buffer. -/

namespace Sys2Proof.Machine

/-! ### A frame that has left its buffer leaves the engines alone -/

section
variable (b : Block)

@[simp] theorem mapSw_eng (f : SwSt → SwSt) : (b.mapSw f).eng = b.eng := rfl

@[simp] theorem mapRing_eng (n : Nat) (f : RingSt → RingSt) : (b.mapRing n f).eng = b.eng := rfl

/-- What touches any register but no engine. -/
theorem eng_of_flow {c : Block} (h : b.changes (fun _ => true) flowParts c) : c.eng = b.eng := only_eng h.2 (by simp [flowParts])

omit b in
theorem eng_of_ite {p : Prop} [Decidable p] {b x y : Block} (hx : x.eng = b.eng) (hy : y.eng = b.eng) :
    (if p then x else y).eng = b.eng := by
  split
  · exact hx
  · exact hy

@[simp] theorem countUp_eng (a n : Nat) : (b.countUp a n).eng = b.eng :=
  only_eng (countUp_changes (touch := fun _ => true) (fun _ _ => rfl) b n rfl).2 (by simp)

@[simp] theorem raise_eng (n : Nat) : (b.raise n).eng = b.eng := only_eng (raise_only b n) (by simp)

@[simp] theorem cellUpdate_eng : b.cellUpdate.eng = b.eng := eng_of_flow b (cellUpdate_changes (fun _ _ => rfl) b)

@[simp] theorem sourceUpdate_eng (s : Nat) : (b.sourceUpdate s).eng = b.eng :=
  eng_of_flow b (sourceUpdate_changes (fun _ _ => rfl) ⟨rfl, rfl⟩ b)

@[simp] theorem fabEvent_eng (evt n : Nat) (ok : Nat → Bool) : (b.fabEvent evt n ok).eng = b.eng :=
  only_eng (fabEvent_counted b evt n ok).2 (by simp)

@[simp] theorem queueUpdate_eng (p c : Nat) : (b.queueUpdate p c).eng = b.eng := by
  unfold Block.queueUpdate
  dsimp only
  (repeat' split) <;> simp [Block.setBit, Block.clrBit]

@[simp] theorem store_eng (f : InFrame) (resv : Bool) : (b.store f resv).1.eng = b.eng := by
  simp only [Block.store, Block.cellEvents, sourceUpdate_eng, mapSw_eng, cellUpdate_eng, fabEvent_eng]
  exact eng_of_ite (mapSw_eng b _) (by rw [countUp_eng, Block.putB_eng, mapSw_eng])

@[simp] theorem setRefs_eng (id : Nat) (g : Nat → Nat) : (b.setRefs id g).eng = b.eng := rfl

@[simp] theorem enqueue_eng (x : Copy) (src : Nat) : (b.enqueue x src).eng = b.eng := by simp [Block.enqueue]

@[simp] theorem ringDisc_eng (r : Nat) : (b.ringDisc r).eng = b.eng := by simp [Block.ringDisc]

@[simp] theorem ringEmit_eng (n : Nat) (f : InFrame) : (b.ringEmit n f).eng = b.eng := by
  unfold Block.ringEmit
  dsimp only
  split <;> simp

end

section
variable (f : InFrame)

@[simp] theorem lateFrame_eng : ∀ (ts : List Nat) (b : Block), (b.lateFrame f ts).eng = b.eng
  | [], _ => rfl
  | p :: r, b => (lateFrame_eng r (b.countUp (SWC_EC_CNT p (queueOf f p) 3) 1)).trans (countUp_eng b _ _)

@[simp] theorem countExcl_eng : ∀ (l : List Nat) (b : Block), (b.countExcl f l).eng = b.eng
  | [], _ => rfl
  | _ :: r, b => (countExcl_eng r _).trans (countUp_eng b _ _)

@[simp] theorem countFenced_eng : ∀ (l : List Nat) (b : Block), (b.countFenced f l).eng = b.eng
  | [], _ => rfl
  | _ :: r, b => (countFenced_eng r _).trans (countUp_eng b _ _)

@[simp] theorem placeCopies_eng (id : Nat) (multi : Bool) : ∀ (l : List Nat) (b : Block), (b.placeCopies f id multi l).eng = b.eng
  | [], _ => rfl
  | p :: r, b => by
    rw [Block.placeCopies, placeCopies_eng id multi r]
    split <;> simp

@[simp] theorem forward_eng (b : Block) : (b.forward f).eng = b.eng := by
  unfold Block.forward Block.place
  dsimp only
  (repeat' split) <;> simp

end

theorem emitted_eng (b : Block) (fr : EFrame) : (b.emitted fr).eng = b.eng := by
  unfold Block.emitted
  dsimp only
  (repeat' split) <;> simp [Block.toCore]

/-! ### One cell moves (R158) -/

/-- The block as a cell of a frame moves: the clocks reach its instant, and the path stands at engine `e`. -/
def Block.pathAt (b : Block) (e : Fin 16) (fr : EFrame) : Block :=
  ((b.reachPhys (max fr.rel (b.sw.emAt + 4 * nsUnit))).fabCount 14 1).mapSw (fun w => { w with
    emAt := ((b.reachPhys (max fr.rel (b.sw.emAt + 4 * nsUnit))).fabCount 14 1).tm.phys, emLast := e })

theorem moveCell_more {b : Block} {e : Fin 16} {i : Nat} {fr : EFrame} (h : fr.moved + 1 < cellsFor (fr.bytes.length + 4)) :
    b.moveCell e i fr =
      (b.pathAt e fr).mapE e (fun x => { x with emis := x.emis.set i { fr with moved := fr.moved + 1 } }) := by
  simp only [Block.moveCell, if_pos h]
  rfl

theorem moveCell_last {b : Block} {e : Fin 16} {i : Nat} {fr : EFrame} (h : cellsFor (fr.bytes.length + 4) ≤ fr.moved + 1) :
    b.moveCell e i fr = ((b.pathAt e fr).mapE e (fun x => { x with emis := x.emis.eraseIdx i })).emitted fr := by
  simp only [Block.moveCell, if_neg (Nat.not_lt.mpr h)]
  rfl

section
variable (b : Block) (e : Fin 16) (fr : EFrame)

theorem pathAt_eng : (b.pathAt e fr).eng = b.eng := by
  have hcnt := only_eng (fabCount_counted (b.reachPhys (max fr.rel (b.sw.emAt + 4 * nsUnit))) 14 1).2 (by simp)
  rw [Block.pathAt, mapSw_eng, hcnt, reachPhys_withTm, withTm_eng]

theorem pathAt_tm : (b.pathAt e fr).tm = (b.reachPhys (max fr.rel (b.sw.emAt + 4 * nsUnit))).tm :=
  only_tm (c := (b.reachPhys (max fr.rel (b.sw.emAt + 4 * nsUnit))).fabCount 14 1) (fabCount_counted _ 14 1).2 (by simp)

theorem pathAt_phys : fr.rel ≤ (b.pathAt e fr).tm.phys ∧ b.sw.emAt + 4 * nsUnit ≤ (b.pathAt e fr).tm.phys := by
  rw [pathAt_tm, reachPhys_phys]
  omega

theorem pathAt_sw : (b.pathAt e fr).sw = { b.sw with emAt := (b.pathAt e fr).tm.phys, emLast := e } := by
  have hcnt := only_sw (fabCount_counted (b.reachPhys (max fr.rel (b.sw.emAt + 4 * nsUnit))) 14 1).2 (by simp)
  have hreach : (b.reachPhys (max fr.rel (b.sw.emAt + 4 * nsUnit))).sw = b.sw := only_sw (reachPhys_only b _) (by simp)
  unfold Block.pathAt Block.mapSw
  simp only [hcnt, hreach]

theorem pathAt_changes : b.changes galTouch [.tm, .sw, .trc, .host, .out] (b.pathAt e fr) := by
  have hreach : b.changes galTouch [.tm, .sw, .trc, .host, .out] (b.reachPhys (max fr.rel (b.sw.emAt + 4 * nsUnit))) := by
    rw [reachPhys_withTm]
    exact changes_of_only (withTm_regs _ _) (only_mono (withTm_only _ _) (by simp))
  have hcnt := changes_counted hreach (fabCount_counted _ 14 1) (fun _ h => h) (by simp)
  exact changes_part hcnt rfl (only_mono (mapSw_only _ _) (by simp))

end

section
variable {s : State} {e : Fin 16} {i : Nat} {fr : EFrame}

/-- The turn of an engine with a cell to move. -/
theorem exec_emissionPathMove_turn (ht : s.blk.movesNext e = true) (hn : s.blk.nextFrame e = some i)
    (hi : (s.blk.eng[e]).emis[i]? = some fr) : exec (.emissionPathMove e) s = leadsTo s (s.blk.moveCell e i fr) :=
  (exec_emissionPathMove s).trans (done_leadsTo (by simp only [ht, hn, hi, Bool.not_true, Bool.false_eq_true, if_false]))

theorem move_more (ht : s.blk.movesNext e = true) (hn : s.blk.nextFrame e = some i) (hi : (s.blk.eng[e]).emis[i]? = some fr)
    (hm : fr.moved + 1 < cellsFor (fr.bytes.length + 4)) :
    ∃ t, exec (.emissionPathMove e) s = .next t ∧
      t.blk.eng[e] = { s.blk.eng[e] with emis := (s.blk.eng[e]).emis.set i { fr with moved := fr.moved + 1 } } ∧
      fr.rel ≤ t.blk.tm.phys ∧ s.blk.sw.emAt + 4 * nsUnit ≤ t.blk.tm.phys ∧
      t.blk.sw = { s.blk.sw with emAt := t.blk.tm.phys, emLast := e } ∧
      (∀ m : Fin 16, m ≠ e → t.blk.eng[m] = s.blk.eng[m]) ∧ FrameOn galTouch [.eng, .tm, .sw, .trc, .host, .out] s t := by
  obtain ⟨hrel, hgap⟩ := pathAt_phys s.blk e fr
  have heng := pathAt_eng s.blk e fr
  have hsw := pathAt_sw s.blk e fr
  have hch := pathAt_changes s.blk e fr
  refine leadsTo_intro ((exec_emissionPathMove_turn ht hn hi).trans (congrArg (leadsTo s) (moveCell_more hm))) fun u => ?_
  generalize s.blk.pathAt e fr = c at *
  obtain ⟨hx, hothers⟩ := becomes_mapE c e (fun x => { x with emis := x.emis.set i { fr with moved := fr.moved + 1 } })
  rw [heng] at hx hothers
  exact ⟨hx, hrel, hgap, hsw, hothers, frameOn_intro (changes_mapE (changes_mono hch (fun _ h => h) (by simp)) e _ (by simp))⟩

theorem move_last (ht : s.blk.movesNext e = true) (hn : s.blk.nextFrame e = some i) (hi : (s.blk.eng[e]).emis[i]? = some fr)
    (hm : cellsFor (fr.bytes.length + 4) ≤ fr.moved + 1) :
    ∃ t, exec (.emissionPathMove e) s = .next t ∧
      t.blk.eng[e] = { s.blk.eng[e] with emis := (s.blk.eng[e]).emis.eraseIdx i } ∧
      (∀ m : Fin 16, m ≠ e → t.blk.eng[m] = s.blk.eng[m]) ∧ t.pending = s.pending := by
  have heng := pathAt_eng s.blk e fr
  refine leadsTo_intro ((exec_emissionPathMove_turn ht hn hi).trans (congrArg (leadsTo s) (moveCell_last hm))) fun u => ?_
  generalize s.blk.pathAt e fr = c at *
  obtain ⟨hx, hothers⟩ := becomes_of_eng (becomes_mapE c e (fun x => { x with emis := x.emis.eraseIdx i })) (emitted_eng _ fr)
  rw [heng] at hx hothers
  exact ⟨hx, hothers, rfl⟩

theorem move_waits (ht : s.blk.movesNext e = false) : ∃ t, exec (.emissionPathMove e) s = .next t ∧ Frame [] [] s t :=
  leadsTo_intro ((exec_emissionPathMove s).trans (done_leadsTo (c := s.blk) (by simp [ht]))) fun _ =>
    frame_intro (keeps_refl _ _) (only_refl _ _)

end

/-- Settles O24: EMIT, PATCH, GATE and SNAP at the operands of their first tick, and the emission path cell by cell. The gates of a mask
are followed in the registers of the ports, which the scheduled copies that end with a gate leave alone. -/
theorem galleryFrames : Obligations.GalleryFrames := by
  unfold Obligations.GalleryFrames
  refine ⟨?_, ?_, ?_, ?_, ?_, ?_, ?_, ?_, ?_, ?_, ?_, ?_, ?_⟩
  · intro s e f w h hw hr
    exact emit_copies h hw hr
  · intro s e f w h hw hr
    exact emit_refuses h hw hr
  · intro s e f h hw
    exact emit_traps h hw
  · intro s e f g h hg hfit hb
    exact patch_writes h hg hfit hb
  · intro s e f h hg
    exact patch_refuses h hg
  · intro s e f g h hg hw hfit
    exact patch_traps h hg hw hfit
  · intro s e f m h hm hok hp
    exact gate_sets h hm hok hp
  · intro s e f m p h hm hpriv hp hb hk
    exact gate_traps h hm hpriv hp hb hk
  · intro s e f h ha
    exact snap_arms h ha
  · intro s e f h ha
    exact snap_refuses h ha
  · intro s e i fr ht hn hi hm
    exact move_more ht hn hi hm
  · intro s e ht
    exact move_waits ht
  · intro s e i fr ht hn hi hm
    exact move_last ht hn hi hm

end Sys2Proof.Machine
end

section
/-! START and EN of an engine, and the start that takes effect (R134, R170, R175, R179, R187, R190). -/

namespace Sys2Proof.Machine

/-! ### START (R170, R175) -/

theorem lcode_get (b : Block) (n : Nat) {code : Nat} (h : code < 16) : (b.lcode n code).get (GAL_STAT_LCODE n) = code := by
  rw [Block.lcode, Block.get_put_same _ _ _ (by simp)]
  exact Nat.mod_eq_of_lt h

/-- An engine whose START waits: for the trigger while cycles run, and for an instant otherwise. -/
def Engine.startSet (run : Bool) (at_ : Nat) (x : Engine) : Engine :=
  if run then { x with startPend := true } else { x with startAt := some at_ }

/-- The LCODE of a START that the state of the engine does not allow (R170, Table 5-2). -/
def Block.startCode (b : Block) (n : Nat) : Nat :=
  if b.get (GAL_STAT_STATE n) = 7 then 9 else if b.flag (GAL_STAT_LOST n) then 8 else 1

theorem startCode_lt (b : Block) (n : Nat) : b.startCode n < 16 := by
  unfold Block.startCode
  (repeat' split) <;> decide

section
variable (b : Block) (n : Fin 16)

theorem startReq_refused (h : (startable (b.get (GAL_STAT_STATE n)) && b.flag (GAL_CTL_EN n)) = false) :
    b.startReq n = b.lcode n (b.startCode n) := by
  unfold Block.startReq Block.startCode
  by_cases h7 : b.get (GAL_STAT_STATE n) = 7
  · simp only [h7, beq_self_eq_true, if_true]
  · simp only [beq_eq_false_iff_ne.mpr h7, h, h7, Bool.not_false, Bool.false_eq_true, if_false, if_true]

theorem startReq_waits (hst : startable (b.get (GAL_STAT_STATE n)) = true) (hen : b.flag (GAL_CTL_EN n) = true)
    (hp : (b.eng[n]).startPend = false) (ha : (b.eng[n]).startAt = none) :
    b.startReq n = b.mapE n (Engine.startSet (b.flag SYS_CYCLE_RUN) (b.tm.phys + 1000 * nsUnit)) := by
  have hst7 : (b.get (GAL_STAT_STATE n) == 7) = false := beq_eq_false_iff_ne.mpr fun h => by simp [h, startable] at hst
  simp only [Block.startReq, hst7, hst, hen, engine_eq, hp, ha, Bool.and_self, Bool.not_true, Option.isSome_none, Bool.or_self,
    Bool.false_eq_true, if_false, mapEng_eq]
  cases b.flag SYS_CYCLE_RUN <;> rfl

/-! ### EN (R170, R190) -/

theorem enPut_flag (v : Bool) : (b.putB (GAL_CTL_EN n) v).flag (GAL_CTL_EN n) = v := Block.flag_putB_same b _ v (by simp) rfl

theorem enPut_get (v : Bool) {g : Field} (h : GAL_CTL n ≠ g.addr) : (b.putB (GAL_CTL_EN n) v).get g = b.get g :=
  Block.get_putB_apart b _ g v (.inl h)

theorem enPut_flag_ne (v : Bool) {g : Field} (h : GAL_CTL n ≠ g.addr) : (b.putB (GAL_CTL_EN n) v).flag g = b.flag g := by
  rw [Block.flag, enPut_get b n v h, Block.flag]

theorem enPut_keeps (v : Bool) : b.keeps [GAL_CTL_EN n] (b.putB (GAL_CTL_EN n) v) := keeps_putB (keeps_refl _ b) (by simp)

theorem ctl_ne_stat : GAL_CTL n ≠ GAL_STAT n := by simp only [GAL_CTL, GAL_STAT]; omega

theorem enPut_startCode (v : Bool) : (b.putB (GAL_CTL_EN n) v).startCode n = b.startCode n := by
  simp only [Block.startCode, enPut_get b n v (g := GAL_STAT_STATE n) (ctl_ne_stat n),
    enPut_flag_ne b n v (g := GAL_STAT_LOST n) (ctl_ne_stat n)]

/-- EN 0 changes nothing more while no load and no program runs. -/
theorem disable_idle (h : b.get (GAL_STAT_STATE n) ∉ [1, 3]) : b.disable n = b.putB (GAL_CTL_EN n) false := by
  simp only [List.mem_cons, List.not_mem_nil, or_false, not_or] at h
  obtain ⟨h1, h3⟩ := h
  simp only [Block.disable, beq_eq_false_iff_ne.mpr h1, beq_eq_false_iff_ne.mpr h3, Bool.false_eq_true, if_false]

end

section
variable {s : State} (n : Fin 16) (hf : s.blk.hostFree = true) (hs : s.blk.synced = false)
include hf hs

/-- A write of GALn_CTL acts as it arrives. -/
theorem exec_engineStart_now (en : Bool) {c : Block} (hc : Block.galCtl n en true false s.blk = c) :
    exec (.engineStart n en) s = leadsTo s c :=
  (exec_engineStart s).trans ((done_journaled hf hs _ _).trans (done_leadsTo hc))

theorem exec_engineDisable_now {c : Block} (hc : s.blk.disable n = c) : exec (.engineDisable n) s = leadsTo s c :=
  (exec_engineDisable s).trans ((done_journaled hf hs _ _).trans (done_leadsTo hc))

theorem start_waits (hst : startable (s.blk.get (GAL_STAT_STATE n)) = true) (hp : (s.blk.eng[n]).startPend = false)
    (ha : (s.blk.eng[n]).startAt = none) :
    ∃ t, exec (.engineStart n true) s = .next t ∧ t.blk.flag (GAL_CTL_EN n) = true ∧
      (s.blk.flag SYS_CYCLE_RUN = true → t.blk.eng[n] = { s.blk.eng[n] with startPend := true }) ∧
      (s.blk.flag SYS_CYCLE_RUN = false → t.blk.eng[n] = { s.blk.eng[n] with startAt := some (s.blk.tm.phys + 1000 * nsUnit) }) ∧
      (∀ m : Fin 16, m ≠ n → t.blk.eng[m] = s.blk.eng[m]) ∧ Frame [GAL_CTL_EN n] [.eng] s t := by
  obtain ⟨g, hg⟩ : ∃ g, g = Engine.startSet (s.blk.flag SYS_CYCLE_RUN) (s.blk.tm.phys + 1000 * nsUnit) := ⟨_, rfl⟩
  have hact : Block.galCtl n true true false s.blk = (s.blk.putB (GAL_CTL_EN n) true).mapE n g := by
    have hw := startReq_waits (s.blk.putB (GAL_CTL_EN n) true) n ((congrArg startable (enPut_get s.blk n true (g := GAL_STAT_STATE n) (ctl_ne_stat n))).trans hst)
      (enPut_flag s.blk n true) hp ha
    rw [enPut_flag_ne s.blk n true (g := SYS_CYCLE_RUN) (by simp only [GAL_CTL, SYS_CYCLE]; omega)] at hw
    rw [hg]
    exact hw
  obtain ⟨hx, hothers⟩ := becomes_mapE (s.blk.putB (GAL_CTL_EN n) true) n g
  refine leadsTo_intro (exec_engineStart_now n hf hs true hact) fun u => ⟨enPut_flag s.blk n true, fun hr => ?_, fun hr => ?_, hothers,
    frame_intro (keeps_part (enPut_keeps s.blk n true) rfl) (mapE_only _ n g)⟩
  · rw [Block.withTags_eng, hx, hg, hr]
    rfl
  · rw [Block.withTags_eng, hx, hg, hr]
    rfl

/-- A START that the state or EN does not allow. -/
theorem start_refused (en : Bool) {c : Block} (hc : (if en then s.blk.putB (GAL_CTL_EN n) true else s.blk.disable n) = c)
    (hput : c = s.blk.putB (GAL_CTL_EN n) en) (hst : (startable (s.blk.get (GAL_STAT_STATE n)) && en) = false) :
    ∃ t, exec (.engineStart n en) s = .next t ∧ t.blk.get (GAL_STAT_LCODE n) = s.blk.startCode n ∧ t.blk.flag (GAL_CTL_EN n) = en ∧
      Frame [GAL_STAT_LCODE n, GAL_CTL_EN n] [] s t := by
  have hact : Block.galCtl n en true false s.blk = (s.blk.putB (GAL_CTL_EN n) en).lcode n (s.blk.startCode n) := by
    have href := startReq_refused (s.blk.putB (GAL_CTL_EN n) en) n (by
      rw [enPut_flag, enPut_get s.blk n en (g := GAL_STAT_STATE n) (ctl_ne_stat n), hst])
    rw [enPut_startCode] at href
    rw [← href, ← hput, ← hc]
    rfl
  refine leadsTo_intro (exec_engineStart_now n hf hs en hact) fun u => ⟨?_, ?_, frame_intro ?_ (only_put (put_only [] s.blk (GAL_CTL_EN n) _))⟩
  · rw [Block.withTags_get, lcode_get _ _ (startCode_lt _ _)]
  · rw [Block.withTags_flag, Block.lcode, Block.flag, Block.get_put_apart _ _ _ _ (.inl (ctl_ne_stat n).symm)]
    exact enPut_flag s.blk n en
  · exact keeps_put (keeps_mono (enPut_keeps s.blk n en) (by simp)) (by simp)

/-! ### EN 0 (R190) -/

theorem disable_stays (hst : s.blk.get (GAL_STAT_STATE n) ∉ [1, 3]) :
    ∃ t, exec (.engineDisable n) s = .next t ∧ t.blk.flag (GAL_CTL_EN n) = false ∧ Frame [GAL_CTL_EN n] [] s t :=
  leadsTo_intro (exec_engineDisable_now n hf hs (disable_idle s.blk n hst)) fun _ =>
    ⟨enPut_flag s.blk n false, frame_intro (enPut_keeps s.blk n false) (put_only _ _ _ _)⟩

/-- An engine that has halted is not moved to another core. -/
def Engine.stays (x : Engine) : Engine := { x with reloc := false, coreRet := false }

theorem disable_halts (hst : s.blk.get (GAL_STAT_STATE n) = 3) :
    ∃ t, exec (.engineDisable n) s = .next t ∧ t.blk.get (GAL_STAT_STATE n) = 4 ∧ t.blk.flag (GAL_CTL_EN n) = false ∧
      (t.blk.eng[n]).g = (s.blk.eng[n]).g ∧ (t.blk.eng[n]).wait = .none ∧
      (∀ m : Fin 16, m ≠ n → t.blk.eng[m] = s.blk.eng[m]) ∧
      (s.blk.coreOk = true → FrameOn (leaveTouch n) [.eng, .trc, .host, .out, .sw, .macs] s t) := by
  have hact : s.blk.disable n = ((s.blk.putB (GAL_CTL_EN n) false).leave n 4).mapE n Engine.stays := by
    simp only [Block.disable, hst, mapEng_eq]
    rfl
  have hctl : leaveTouch n (GAL_CTL n) = true := leaveTouch_galReg n (galRegs_offset n (o := 0) (by decide))
  have hstate := leave_state (s.blk.putB (GAL_CTL_EN n) false) n 4 (by decide)
  have hen : ((s.blk.putB (GAL_CTL_EN n) false).leave n 4).flag (GAL_CTL_EN n) = false := by
    have hreg := leave_reg_ne (s.blk.putB (GAL_CTL_EN n) false) n 4 (a := GAL_CTL n)
      (stray_galReg n (o := 0) (by decide) (by decide) (by decide)) (ctl_ne_stat n)
    have hput := enPut_flag s.blk n false
    simp only [Block.flag, Block.get] at hput ⊢
    rw [hreg, hput]
  have hbec := becomes_step (leave_becomes (s.blk.putB (GAL_CTL_EN n) false) n 4) Engine.stays
  have hch := fun hok : s.blk.coreOk = true => leave_changes (s.blk.putB (GAL_CTL_EN n) false) n 4 (srcsIn_core (b := s.blk.putB (GAL_CTL_EN n) false) hok)
  refine leadsTo_intro (exec_engineDisable_now n hf hs hact) fun u => ?_
  generalize (s.blk.putB (GAL_CTL_EN n) false).leave n 4 = c at *
  obtain ⟨hx, hothers⟩ := hbec
  refine ⟨hstate, hen, ?_, ?_, hothers, fun hok => frameOn_intro ?_⟩
  · rw [Block.withTags_eng, hx]
    rfl
  · rw [Block.withTags_eng, hx]
    rfl
  · exact changes_mapE (changes_trans (changes_putB (changes_refl _ _ s.blk) hctl)
      (changes_mono (hch hok) (fun _ h => h) (by simp [gateParts, flowParts]))) n _ (by simp)

/-- An engine whose load has failed: its stores are zero and no start waits (R187). -/
def Engine.emptied (x : Engine) : Engine :=
  { x with prog := [], data := [], dir := [], rings := [], plen := 0, entry := 0, ownReport := none, peerReport := none
           startPend := false, startAt := none }

omit hf hs in
theorem loadFail_aborts (b : Block) :
    b.loadFail n 6 = (((b.put (GAL_STAT_STATE n) 0).lcode n 6).mapE n Engine.emptied).galCause (GAL_CAUSE_LOADERR n) n := by
  simp only [Block.loadFail, mapEng_eq]
  rfl

theorem disable_aborts (hst : s.blk.get (GAL_STAT_STATE n) = 1) :
    ∃ t, exec (.engineDisable n) s = .next t ∧ t.blk.get (GAL_STAT_STATE n) = 0 ∧ t.blk.get (GAL_STAT_LCODE n) = 6 ∧
      t.blk.flag (GAL_CTL_EN n) = false ∧ (t.blk.eng[n]).prog = [] ∧
      Frame [GAL_CTL_EN n, GAL_STAT_STATE n, GAL_STAT_LCODE n, GAL_CAUSE_LOADERR n, EVT_PEND_PEND, EVT_OVR_OVR]
        [.eng, .host, .out] s t := by
  have hact : s.blk.disable n = (s.blk.putB (GAL_CTL_EN n) false).loadFail n 6 := by
    simp only [Block.disable, hst]
    rfl
  have hgal : galTouch (GAL_STAT n) = false := galTouch_stat n
  have hctl : galTouch (GAL_CTL n) = false := galTouch_galReg n (o := 0) (by decide)
  have hne : GAL_CAUSE n ≠ GAL_STAT n := by simp only [GAL_CAUSE, GAL_STAT]; omega
  have hnec : GAL_CAUSE n ≠ GAL_CTL n := by simp only [GAL_CAUSE, GAL_CTL]; omega
  have hns := ctl_ne_stat n
  refine leadsTo_intro (exec_engineDisable_now n hf hs (hact.trans (loadFail_aborts n _))) fun u => ⟨?_, ?_, ?_, ?_, frame_intro ?_ ?_⟩
  · rw [Block.withTags_get, galCause_get _ _ _ hgal, Block.get_putB_apart _ _ _ _ (.inl hne), mapE_get, Block.lcode,
      Block.get_put_apart _ _ _ _ (.inr (.inr (by simp))), Block.get_put_same _ _ _ (by simp)]
    rfl
  · rw [Block.withTags_get, galCause_get _ _ _ hgal, Block.get_putB_apart _ _ _ _ (.inl hne), mapE_get, lcode_get _ _ (by decide)]
  · rw [Block.withTags_flag, Block.flag, galCause_get _ _ _ hctl, Block.get_putB_apart _ _ _ _ (.inl hnec), mapE_get, Block.lcode,
      Block.get_put_apart _ _ _ _ (.inl hns.symm), Block.get_put_apart _ _ _ _ (.inl hns.symm)]
    exact enPut_flag s.blk n false
  · rw [Block.withTags_eng, galCause_eng, mapE_same]
    rfl
  · refine keeps_raise (keeps_putB (keeps_part (keeps_put (keeps_put (keeps_putB (keeps_refl _ _) ?_) ?_) ?_) rfl) ?_) ?_ ?_ <;> simp
  · have hmap : s.blk.only [.eng] ((((s.blk.putB (GAL_CTL_EN n) false).put (GAL_STAT_STATE n) 0).lcode n 6).mapE n Engine.emptied) := by
      simp [Block.only, Block.mapE, Block.lcode]
    exact only_raise (only_putB (only_mono hmap (by simp))) (by simp)

end

/-! ### The start takes effect (R134, R175, R179) -/

/-- The admission rests on the registers and on the ring bytes that the engines claim. -/
theorem admission_congr {b c : Block} (hr : c.regs = b.regs) (hc : ∀ m port, c.ringClaim m port = b.ringClaim m port)
    (n : Nat) (set : List Nat) : c.admission n set = b.admission n set := by
  have hget : ∀ f, c.get f = b.get f := fun f => by simp only [Block.get, Block.reg, hr]
  have hover : c.ringOver set = b.ringOver set := by
    simp only [Block.ringOver, Block.ringAllow, Block.ringRate, Block.periodNs, Block.flag, hget, hc]
    rfl
  simp only [Block.admission, hover, Block.evalAllow, Block.activeCells, Block.periodNs, Block.profile, Block.flag, hget]
  rfl

theorem runningEngines_congr {b c : Block} (hr : c.regs = b.regs) : c.runningEngines = b.runningEngines := by
  have hrun : c.running = b.running := by
    funext m
    simp only [Block.running, Block.get, Block.reg, hr]
  rw [Block.runningEngines, hrun, Block.runningEngines]

theorem admission_lt (b : Block) (n : Nat) (set : List Nat) : b.admission n set < 16 := by
  unfold Block.admission
  (repeat' split) <;> decide

/-- An engine whose START no longer waits. -/
def Engine.startTaken (x : Engine) : Engine := { x with startPend := false, startAt := none, trig := none }

/-- The block at the instant of a start, which no longer waits. -/
def Block.startAtNow (b : Block) (n : Fin 16) (at_ : Nat) : Block := (b.reachPhys at_).mapE n Engine.startTaken

section
variable (b : Block) (n : Fin 16) (at_ : Nat)

theorem startAtNow_regs : (b.startAtNow n at_).regs = b.regs := by
  rw [Block.startAtNow, Block.mapE_regs, reachPhys_withTm, withTm_regs]

theorem startAtNow_becomes : b.becomes n b.eng[n].startTaken (b.startAtNow n at_) := by
  have heng : (b.reachPhys at_).eng = b.eng := by rw [reachPhys_withTm, withTm_eng]
  have hmap := becomes_from (becomes_mapE (b.reachPhys at_) n Engine.startTaken) heng
  rw [heng] at hmap
  exact hmap

theorem startAtNow_only : b.only [.eng, .tm] (b.startAtNow n at_) :=
  only_trans (only_mono (reachPhys_only b at_) (by simp)) (only_mono (mapE_only _ n _) (by simp))

theorem startAtNow_ringClaim (m port : Nat) : (b.startAtNow n at_).ringClaim m port = b.ringClaim m port := by
  obtain ⟨hx, hothers⟩ := startAtNow_becomes b n at_
  unfold Block.ringClaim
  split
  · rename_i hm
    by_cases hmn : (⟨m, hm⟩ : Fin 16) = n
    · subst hmn
      have hrings : ((b.startAtNow ⟨m, hm⟩ at_).eng[(⟨m, hm⟩ : Fin 16)]).rings = (b.eng[(⟨m, hm⟩ : Fin 16)]).rings := by
        rw [hx]
        rfl
      exact congrArg (fun r : List (Nat × Nat) => ((r.filter (fun r => r.1 == port)).map (·.2)).sum) hrings
    · have hsame := hothers ⟨m, hm⟩ hmn
      exact congrArg (fun x : Engine => ((x.rings.filter (fun r => r.1 == port)).map (·.2)).sum) hsame
  · rfl

theorem startAtNow_admission :
    (b.startAtNow n at_).admission n ((b.startAtNow n at_).runningEngines ++ [n.val]) = b.admission n (b.runningEngines ++ [n.val]) := by
  rw [runningEngines_congr (startAtNow_regs b n at_)]
  exact admission_congr (startAtNow_regs b n at_) (startAtNow_ringClaim b n at_) _ _

theorem startAtNow_keeps (l : List Field) : b.keeps l (b.startAtNow n at_) := keeps_of_regs (startAtNow_regs b n at_)

theorem reachPhys_startEffect (hst : startable (b.get (GAL_STAT_STATE n)) = true) (hen : b.flag (GAL_CTL_EN n) = true) :
    (b.reachPhys at_).startEffect n =
      if b.admission n (b.runningEngines ++ [n.val]) ≠ 0 then
        (b.startAtNow n at_).lcode n (b.admission n (b.runningEngines ++ [n.val]))
      else (((b.startAtNow n at_).homeCore n).begin_ n (b.eng[n]).trig).lcode n 0 := by
  have hget : ∀ f, (b.reachPhys at_).get f = b.get f := fun f => by rw [reachPhys_withTm, withTm_get]
  have heng : (b.reachPhys at_).engine n = b.eng[n] := by rw [reachPhys_withTm, engine_eq, withTm_eng]
  have hadm := startAtNow_admission b n at_
  simp only [Block.startEffect, mapEng_eq, hget, hst, Block.flag, heng] at hen ⊢
  rw [← hadm]
  simp only [hen]
  rfl

end

/-- An engine that returns to its own core changes registers alone (R194). -/
theorem homeCore_changes (b : Block) (n : Fin 16) :
    b.keeps [GAL_STAT_CORE15 n, GAL_SPARE_BUSY, GAL_SPARE_AVAIL] (b.homeCore n) ∧ b.only [] (b.homeCore n) := by
  unfold Block.homeCore
  split
  · exact ⟨keeps_putB (keeps_putB (keeps_putB (keeps_refl _ b) (by simp)) (by simp)) (by simp),
      only_putB (only_putB (only_putB (only_refl _ b)))⟩
  · exact ⟨keeps_refl _ b, only_refl _ b⟩

/-- The block once engine `n` has begun at ENTRY. -/
def Block.begun (b : Block) (n : Fin 16) (trig : Option Word) : Block := ((b.homeCore n).begin_ n trig).lcode n 0

section
variable (b : Block) (n : Fin 16) (trig : Option Word)

theorem begun_becomes : b.becomes n (b.eng[n].begin_ trig b.tm.phys) (b.begun n trig) := by
  obtain ⟨-, honly⟩ := homeCore_changes b n
  have heng := only_eng honly (by simp)
  have hmap := becomes_from (becomes_mapE (b.homeCore n) n (fun x => x.begin_ trig (b.homeCore n).tm.phys)) heng
  rw [heng, only_tm honly (by simp)] at hmap
  rw [Block.begun, Block.begin_, mapEng_eq, only_tm honly (by simp)]
  exact becomes_of_eng hmap rfl

theorem begun_tm : (b.begun n trig).tm = b.tm := by
  obtain ⟨-, honly⟩ := homeCore_changes b n
  exact only_tm (c := b.homeCore n) honly (by simp)

theorem begun_running : (b.begun n trig).running n = true := by
  rw [Block.running, Block.begun, Block.lcode, Block.get_put_apart _ _ _ _ (.inr (.inr (by simp))), Block.begin_,
    Block.get_put_same _ _ _ (by simp)]
  rfl

theorem begun_lcode : (b.begun n trig).get (GAL_STAT_LCODE n) = 0 := lcode_get _ _ (by decide)

theorem begun_keeps : b.keeps [GAL_STAT_STATE n, GAL_STAT_LCODE n, GAL_STAT_CORE15 n, GAL_SPARE_BUSY, GAL_SPARE_AVAIL] (b.begun n trig) := by
  obtain ⟨hkeeps, -⟩ := homeCore_changes b n
  rw [Block.begun, Block.begin_, mapEng_eq]
  exact keeps_put (keeps_put (keeps_part (keeps_mono hkeeps (by simp)) rfl) (by simp)) (by simp)

theorem begun_only : b.only [.eng] (b.begun n trig) := by
  obtain ⟨-, honly⟩ := homeCore_changes b n
  rw [Block.begun, Block.begin_, mapEng_eq]
  exact only_put (only_put (only_trans (only_mono honly (by simp)) (mapE_only _ n _)))

end

section
variable {s : State} {n : Fin 16} {at_ : Nat} (hb : s.blk.banksPending n = false) (ha : (s.blk.eng[n]).startAt = some at_)
  (hst : startable (s.blk.get (GAL_STAT_STATE n)) = true) (hen : s.blk.flag (GAL_CTL_EN n) = true)
include hb ha hst hen

omit hst hen in
theorem exec_engineStartEffect_now {c : Block} (hc : (s.blk.reachPhys at_).startEffect n = c) :
    exec (.engineStartEffect n) s = leadsTo s c :=
  (exec_engineStartEffect s).trans (done_leadsTo (by simp only [hb, ha, hc, Bool.false_eq_true, if_false]))

theorem start_begins (hadm : s.blk.admission n (s.blk.runningEngines ++ [n.val]) = 0) :
    ∃ t, exec (.engineStartEffect n) s = .next t ∧ t.blk.running n = true ∧ t.blk.get (GAL_STAT_LCODE n) = 0 ∧
      (t.blk.eng[n]).pc = (s.blk.eng[n]).entry ∧ (t.blk.eng[n]).g = Vector.replicate 64 0 ∧ (t.blk.eng[n]).f = 0 ∧
      (t.blk.eng[n]).sig = 0 ∧ (t.blk.eng[n]).tags = Vector.replicate 4 .free ∧
      (t.blk.eng[n]).trig = (s.blk.eng[n]).trig ∧ (t.blk.eng[n]).prog = (s.blk.eng[n]).prog ∧
      (t.blk.eng[n]).data = (s.blk.eng[n]).data ∧ at_ ≤ t.blk.tm.phys ∧ (t.blk.eng[n]).readyAt = t.blk.tm.phys ∧
      (∀ m : Fin 16, m ≠ n → t.blk.eng[m] = s.blk.eng[m]) ∧
      Frame [GAL_STAT_STATE n, GAL_STAT_LCODE n, GAL_STAT_CORE15 n, GAL_SPARE_BUSY, GAL_SPARE_AVAIL] [.eng, .tm] s t := by
  obtain ⟨hx, hothers⟩ := startAtNow_becomes s.blk n at_
  have hbegun := begun_becomes (s.blk.startAtNow n at_) n (s.blk.eng[n]).trig
  rw [hx] at hbegun
  obtain ⟨hbx, hbothers⟩ := hbegun
  have hrun := begun_running (s.blk.startAtNow n at_) n (s.blk.eng[n]).trig
  have hcode := begun_lcode (s.blk.startAtNow n at_) n (s.blk.eng[n]).trig
  have htm := begun_tm (s.blk.startAtNow n at_) n (s.blk.eng[n]).trig
  have hphys : at_ ≤ (s.blk.startAtNow n at_).tm.phys := reachPhys_le s.blk at_
  have hkeeps := keeps_trans (startAtNow_keeps s.blk n at_ _) (begun_keeps (s.blk.startAtNow n at_) n (s.blk.eng[n]).trig)
  have honly := only_trans (startAtNow_only s.blk n at_) (only_mono (begun_only (s.blk.startAtNow n at_) n (s.blk.eng[n]).trig) (by simp))
  have hact : (s.blk.reachPhys at_).startEffect n = (s.blk.startAtNow n at_).begun n (s.blk.eng[n]).trig := by
    rw [reachPhys_startEffect s.blk n at_ hst hen, hadm]
    rfl
  refine leadsTo_intro (exec_engineStartEffect_now hb ha hact) fun u => ?_
  rw [Block.withTags_eng, Block.withTags_tm, Block.withTags_get]
  generalize (s.blk.startAtNow n at_).begun n (s.blk.eng[n]).trig = c at *
  rw [hbx, htm]
  exact ⟨hrun, hcode, rfl, rfl, rfl, rfl, rfl, rfl, rfl, rfl, hphys, rfl, fun m hm => (hbothers m hm).trans (hothers m hm),
    frame_intro hkeeps honly⟩

theorem start_fails (hadm : s.blk.admission n (s.blk.runningEngines ++ [n.val]) ≠ 0) :
    ∃ t, exec (.engineStartEffect n) s = .next t ∧
      t.blk.get (GAL_STAT_LCODE n) = s.blk.admission n (s.blk.runningEngines ++ [n.val]) ∧
      (t.blk.eng[n]).pc = (s.blk.eng[n]).pc ∧ Frame [GAL_STAT_LCODE n] [.eng, .tm] s t := by
  obtain ⟨hx, -⟩ := startAtNow_becomes s.blk n at_
  have hact := (reachPhys_startEffect s.blk n at_ hst hen).trans (if_pos hadm)
  refine leadsTo_intro (exec_engineStartEffect_now hb ha hact) fun u => ⟨?_, ?_, frame_intro ?_ ?_⟩
  · rw [Block.withTags_get, lcode_get _ _ (admission_lt _ _ _)]
  · rw [Block.withTags_eng, Block.lcode, Block.put_eng, hx]
    rfl
  · exact keeps_put (startAtNow_keeps s.blk n at_ _) (by simp)
  · exact only_put (startAtNow_only s.blk n at_)

end

end Sys2Proof.Machine
end

section
/-! The spare, cleared retirements, the data-store port and the clears (R171 to R173, R194), and their statement. -/

namespace Sys2Proof.Machine

/-! ### The spare (R172) -/

section
variable (b : Block)

theorem spareUpdate_avail : b.spareUpdate.flag GAL_SPARE_AVAIL =
    (b.flag GAL_SPARE_EN && !b.isRetired ⟨4, 15⟩ && !b.flag GAL_SPARE_BUSY) :=
  Block.flag_putB_same b GAL_SPARE_AVAIL _ (by decide) rfl

theorem spareUpdate_get {g : Field} (h : GAL_SPARE ≠ g.addr ∨ g.lo + g.w ≤ 1 ∨ 2 ≤ g.lo) : b.spareUpdate.get g = b.get g := by
  refine Block.get_putB_apart b GAL_SPARE_AVAIL g _ ?_
  rcases h with h | h | h
  · exact .inl h
  · exact .inr (.inr h)
  · exact .inr (.inl h)

theorem spareUpdate_keeps {l : List Field} {a : Block} (h : a.keeps l b) (hl : GAL_SPARE_AVAIL ∈ l) : a.keeps l b.spareUpdate :=
  keeps_putB h hl

/-- The block as EN of the spare and the state of engine 15 are written. -/
def Block.spareSet (en : Bool) (st : Nat) : Block := ((b.putB GAL_SPARE_EN en).put (GAL_STAT_STATE 15) st).spareUpdate

theorem spareSet_shows (en : Bool) {st : Nat} (hst : st < 8) : (b.spareSet en st).flag GAL_SPARE_EN = en ∧
    (b.spareSet en st).get (GAL_STAT_STATE 15) = st ∧
    (b.spareSet en st).flag GAL_SPARE_AVAIL = (en && !b.isRetired ⟨4, 15⟩ && !b.flag GAL_SPARE_BUSY) := by
  have hen : ((b.putB GAL_SPARE_EN en).put (GAL_STAT_STATE 15) st).flag GAL_SPARE_EN = en := by
    rw [Block.flag, Block.get_put_apart _ _ _ _ (.inl (by decide))]
    exact Block.flag_putB_same b GAL_SPARE_EN en (by decide) rfl
  have hbusy : ((b.putB GAL_SPARE_EN en).put (GAL_STAT_STATE 15) st).flag GAL_SPARE_BUSY = b.flag GAL_SPARE_BUSY := by
    rw [Block.flag, Block.get_put_apart _ _ _ _ (.inl (by decide)), Block.get_putB_apart _ _ _ _ (by decide), Block.flag]
  refine ⟨?_, ?_, ?_⟩
  · rw [Block.flag, Block.spareSet, spareUpdate_get _ (by decide)]
    exact hen
  · rw [Block.spareSet, spareUpdate_get _ (by decide), Block.get_put_same _ _ _ (by decide)]
    exact Nat.mod_eq_of_lt hst
  · rw [Block.spareSet, spareUpdate_avail, hen, hbusy]
    rfl

theorem spareSet_keeps (en : Bool) (st : Nat) : b.keeps [GAL_SPARE_EN, GAL_SPARE_AVAIL, GAL_STAT_STATE 15] (b.spareSet en st) :=
  spareUpdate_keeps _ (keeps_put (keeps_putB (keeps_refl _ b) (by simp)) (by simp)) (by simp)

theorem spareSet_only (en : Bool) (st : Nat) : b.only [] (b.spareSet en st) := only_putB (only_put (only_putB (only_refl _ b)))

end

section
variable {s : State} (hf : s.blk.hostFree = true) (hs : s.blk.synced = false)
include hf hs

theorem exec_spareDesignate_now (en : Bool) {c : Block} (hc : Block.spareWrite en s.blk = c) :
    exec (.spareDesignate en) s = leadsTo s c :=
  (exec_spareDesignate s).trans ((done_journaled hf hs _ _).trans (done_leadsTo hc))

theorem spare_designates (hst : loadable (s.blk.get (GAL_STAT_STATE 15)) = true) :
    ∃ t, exec (.spareDesignate true) s = .next t ∧ t.blk.flag GAL_SPARE_EN = true ∧ t.blk.get (GAL_STAT_STATE 15) = 7 ∧
      t.blk.flag GAL_SPARE_AVAIL = (!s.blk.isRetired ⟨4, 15⟩ && !s.blk.flag GAL_SPARE_BUSY) ∧
      Frame [GAL_SPARE_EN, GAL_SPARE_AVAIL, GAL_STAT_STATE 15] [.eng] s t := by
  have hst7 : (s.blk.get (GAL_STAT_STATE 15) == 7) = false := beq_eq_false_iff_ne.mpr fun h => by simp [h, loadable] at hst
  have hact : Block.spareWrite true s.blk = (s.blk.spareSet true 7).mapE 15 Engine.startTaken := by
    simp only [Block.spareWrite, hst7, hst, Bool.false_eq_true, if_false, if_true]
    exact mapEng_eq _ 15 _
  obtain ⟨hen, hstate, havail⟩ := spareSet_shows s.blk true (st := 7) (by decide)
  have hkeeps := spareSet_keeps s.blk true 7
  have honly := spareSet_only s.blk true 7
  refine leadsTo_intro (exec_spareDesignate_now hf hs true hact) fun u => ?_
  generalize s.blk.spareSet true 7 = c at *
  exact ⟨hen, hstate, havail, frame_intro (keeps_part hkeeps rfl) (only_trans (only_mono honly (by simp)) (mapE_only _ 15 _))⟩

theorem spare_refused (hst : loadable (s.blk.get (GAL_STAT_STATE 15)) = false) (h7 : s.blk.get (GAL_STAT_STATE 15) ≠ 7) :
    ∃ t, exec (.spareDesignate true) s = .next t ∧ t.blk.get (GAL_STAT_LCODE 15) = 1 ∧ Frame [GAL_STAT_LCODE 15] [] s t := by
  have hact : Block.spareWrite true s.blk = s.blk.lcode 15 1 := by
    simp only [Block.spareWrite, beq_eq_false_iff_ne.mpr h7, hst, Bool.false_eq_true, if_false, if_true]
  refine leadsTo_intro (exec_spareDesignate_now hf hs true hact) fun u =>
    ⟨?_, frame_intro (keeps_put (keeps_refl _ _) (by simp)) (only_put (only_refl _ _))⟩
  rw [Block.withTags_get, lcode_get _ _ (by decide)]

theorem spare_released (h7 : s.blk.get (GAL_STAT_STATE 15) = 7) (hb : s.blk.flag GAL_SPARE_BUSY = false) :
    ∃ t, exec (.spareDesignate false) s = .next t ∧ t.blk.flag GAL_SPARE_EN = false ∧ t.blk.flag GAL_SPARE_AVAIL = false ∧
      t.blk.get (GAL_STAT_STATE 15) = 0 ∧ Frame [GAL_SPARE_EN, GAL_SPARE_AVAIL, GAL_STAT_STATE 15] [] s t := by
  have hact : Block.spareWrite false s.blk = s.blk.spareSet false 0 := by
    simp only [Block.spareWrite, hb, h7, Bool.false_eq_true, if_false, beq_self_eq_true, if_true, Block.spareSet]
  obtain ⟨hen, hstate, havail⟩ := spareSet_shows s.blk false (st := 0) (by decide)
  exact leadsTo_intro (exec_spareDesignate_now hf hs false hact) fun u =>
    ⟨hen, havail, hstate, frame_intro (spareSet_keeps s.blk false 0) (spareSet_only s.blk false 0)⟩

end

/-! ### Cleared retirements (R194) -/

/-- An engine on its own core waits for no relocation once the core is back. -/
def Engine.coreCleared (own : Bool) (x : Engine) : Engine := if own then { x with coreRet := false } else x

/-- The block without the retirement of core `n` and its history. -/
def Block.coreBack (b : Block) (n : Fin 16) : Block :=
  ((b.unretire ⟨4, n⟩).putB (GAL_STAT_RETIRED n) false).spareUpdate.mapE n (Engine.coreCleared (b.coreOf n == n.val))

section
variable (b : Block) (n : Fin 16)

omit n in
theorem isRetired_congr {c : Block} (h : c.retired = b.retired) (d : Channel) : c.isRetired d = b.isRetired d := by
  rw [Block.isRetired, h, Block.isRetired]

omit n in
theorem withTags_isRetired (u : SMap (BitVec 8)) (d : Channel) : (b.withTags u).isRetired d = b.isRetired d :=
  isRetired_congr b rfl d

omit n in
theorem put_isRetired (f : Field) (v : Nat) (d : Channel) : (b.put f v).isRetired d = b.isRetired d := isRetired_congr b rfl d

theorem unretire_cleared (c : Channel) : (b.unretire c).isRetired c = false := by
  simp [Block.isRetired, Block.unretire, Block.put, Block.setReg]

theorem coreBack_state : (b.coreBack n).get (GAL_STAT_STATE n) = b.get (GAL_STAT_STATE n) := by
  have hne : GAL_SPARE ≠ GAL_STAT n := by simp only [GAL_SPARE, GAL_STAT]; omega
  have hkind : SYS_RETIRED ≠ GAL_STAT n := by simp only [SYS_RETIRED, GAL_STAT]; omega
  rw [Block.coreBack, mapE_get, spareUpdate_get _ (.inl hne), Block.get_putB_apart _ _ _ _ (.inr (.inr (by simp)))]
  exact (unretire_keeps b ⟨4, n⟩).1 _ (fun f hf => by rw [List.mem_singleton.mp hf]; exact .inl hkind)

theorem coreBack_retired : (b.coreBack n).flag (GAL_STAT_RETIRED n) = false := by
  have hne : GAL_SPARE ≠ GAL_STAT n := by simp only [GAL_SPARE, GAL_STAT]; omega
  rw [Block.flag, Block.coreBack, mapE_get, spareUpdate_get _ (.inl hne)]
  exact Block.flag_putB_same _ (GAL_STAT_RETIRED n) false (by simp) rfl

theorem coreBack_isRetired : (b.coreBack n).isRetired ⟨4, n⟩ = false :=
  (isRetired_congr (b.unretire ⟨4, n⟩) (c := b.coreBack n) rfl _).trans (unretire_cleared b ⟨4, n⟩)

theorem coreBack_keeps : b.keeps [GAL_STAT_RETIRED n, GAL_STAT_STATE n, GAL_SPARE_AVAIL, SYS_RETIRED_KIND] (b.coreBack n) :=
  keeps_part (spareUpdate_keeps _ (keeps_putB (keeps_mono (unretire_keeps b _) (by simp)) (by simp)) (by simp)) rfl

theorem coreBack_only : b.only [.eng, .retired, .retRec, .strikes] (b.coreBack n) :=
  only_trans (only_putB (only_putB (only_mono (unretire_only b ⟨4, n⟩) (by simp)))) (only_mono (mapE_only _ n _) (by simp))

theorem engRetireClear_eq : Block.engRetireClear n b =
    if b.get (GAL_STAT_STATE n) = 6 then (b.coreBack n).put (GAL_STAT_STATE n) 4 else b.coreBack n := by
  have hcore : (((b.unretire ⟨4, n⟩).putB (GAL_STAT_RETIRED n) false).spareUpdate.mapEng n
      (fun x => if b.coreOf n = n then { x with coreRet := false } else x)) = b.coreBack n := by
    rw [mapEng_eq, Block.coreBack]
    congr 1
    funext x
    simp only [Engine.coreCleared, beq_iff_eq]
  simp only [Block.engRetireClear, hcore, coreBack_state, beq_iff_eq]

end

theorem retirement_clears {s : State} (n : Fin 16) (hf : s.blk.hostFree = true) :
    ∃ t, exec (.engineRetireClear n) s = .next t ∧ t.blk.flag (GAL_STAT_RETIRED n) = false ∧
      t.blk.isRetired ⟨4, n⟩ = false ∧
      (s.blk.get (GAL_STAT_STATE n) = 6 → t.blk.get (GAL_STAT_STATE n) = 4) ∧
      (s.blk.get (GAL_STAT_STATE n) ≠ 6 → t.blk.get (GAL_STAT_STATE n) = s.blk.get (GAL_STAT_STATE n)) ∧
      Frame [GAL_STAT_RETIRED n, GAL_STAT_STATE n, GAL_SPARE_AVAIL, SYS_RETIRED_KIND] [.eng, .retired, .retRec, .strikes] s t := by
  have hstate := coreBack_state s.blk n
  have hret := coreBack_retired s.blk n
  have hchan := coreBack_isRetired s.blk n
  have hkeeps := coreBack_keeps s.blk n
  have honly := coreBack_only s.blk n
  have hact := engRetireClear_eq s.blk n
  refine leadsTo_intro ((exec_engineRetireClear s).trans ((done_byHost hf _ _).trans (done_leadsTo hact))) fun u => ?_
  generalize s.blk.coreBack n = c at *
  by_cases h6 : s.blk.get (GAL_STAT_STATE n) = 6
  · rw [if_pos h6]
    refine ⟨?_, ?_, fun _ => ?_, fun h => absurd h6 h, frame_intro (keeps_put hkeeps (by simp)) (only_put honly)⟩
    · rw [Block.withTags_flag, Block.flag, Block.get_put_apart _ _ _ _ (.inr (.inl (by simp)))]
      exact hret
    · rw [withTags_isRetired, put_isRetired, hchan]
    · rw [Block.withTags_get, Block.get_put_same _ _ _ (by simp)]
      rfl
  · rw [if_neg h6]
    refine ⟨hret, ?_, fun h => absurd h h6, fun _ => hstate, frame_intro hkeeps honly⟩
    rw [withTags_isRetired, hchan]

/-! ### The clears (R171) -/

section
variable {s : State} (n : Fin 16) (hf : s.blk.hostFree = true)
include hf

theorem hdisc_clears : ∃ t, exec (.galHdiscClr n) s = .next t ∧ t.blk.get (GAL_STAT_HDISC n) = 0 ∧ Frame [GAL_STAT_HDISC n] [] s t :=
  leadsTo_intro ((exec_galHdiscClr s).trans ((done_byHost hf _ _).trans (done_leadsTo rfl))) fun _ =>
    ⟨Block.get_put_same s.blk (GAL_STAT_HDISC n) 0 (by simp),
      frame_intro (keeps_put (keeps_refl _ _) (by simp)) (only_put (only_refl _ _))⟩

theorem rcode_clears (hs : s.blk.synced = false) : ∃ t, exec (.galRcodeClr n) s = .next t ∧ t.blk.get (GAL_CAUSE_RCODE n) = 0 ∧
    t.blk.get (GAL_CAUSE_RCNT n) = 0 ∧ Frame [GAL_CAUSE_RCODE n, GAL_CAUSE_RCNT n] [] s t := by
  refine leadsTo_intro ((exec_galRcodeClr s).trans ((done_journaled hf hs _ _).trans (done_leadsTo rfl))) fun _ =>
    ⟨?_, Block.get_put_same _ (GAL_CAUSE_RCNT n) 0 (by simp),
      frame_intro (keeps_put (keeps_put (keeps_refl _ _) (by simp)) (by simp)) (only_put (only_put (only_refl _ _)))⟩
  rw [Block.withTags_get, Block.rcodeClr, Block.get_put_apart _ _ _ _ (.inr (.inr (by simp)))]
  exact Block.get_put_same s.blk (GAL_CAUSE_RCODE n) 0 (by simp)

theorem slack_clears : ∃ t, exec (.galSlackClr n) s = .next t ∧ t.blk.get (GAL_SLACK_MIN n) = 0x3FFFFF ∧
    Frame [GAL_SLACK_MIN n] [] s t :=
  leadsTo_intro ((exec_galSlackClr s).trans ((done_byHost hf _ _).trans (done_leadsTo rfl))) fun _ =>
    ⟨Block.get_put_same s.blk (GAL_SLACK_MIN n) 0x3FFFFF (by simp),
      frame_intro (keeps_put (keeps_refl _ _) (by simp)) (only_put (only_refl _ _))⟩

end

/-! ### The data-store port (R72, R173) -/

/-- A field in the low 64 bits takes its bits from a write of the low half. -/
theorem fieldOf_over_low {n : Nat} (hn : n ≤ 64) (d : Nat) (x : Word) :
    fieldOf (RegW.over_ ⟨BitVec.ofNat 72 (2 ^ 64 - 1), BitVec.ofNat 72 d⟩ x) 0 n = d % 2 ^ n := by
  apply Nat.eq_of_testBit_eq
  intro i
  rw [testBit_fieldOf, Nat.testBit_mod_two_pow]
  by_cases hi : i < n
  · have h64 : i < 64 := by omega
    have h72 : i < 72 := by omega
    simp only [RegW.over_, Nat.add_zero, BitVec.getLsbD_or, BitVec.getLsbD_and, BitVec.getLsbD_not, BitVec.getLsbD_ofNat,
      Nat.testBit_two_pow_sub_one, h72, h64, decide_true, Bool.and_true, Bool.not_true, Bool.and_false, Bool.false_or, Bool.true_and]
  · simp only [hi, decide_false, Bool.false_and]

/-- The request of a write of GALn_DADDR. -/
def daddrReq (n : Fin 16) (d : Half) : BarReq := { off := BitVec.ofNat 24 (GAL_DADDR n), eight := true, wr := true, data := d }

/-- The request of a write of one half of GALn_DDATA. -/
def ddataHalfReq (n : Fin 16) (hi : Bool) (d : Half) : BarReq :=
  { off := BitVec.ofNat 24 (GAL_DDATA n + if hi then 8 else 0), eight := true, wr := true, data := d }

section
variable (n : Fin 16) (hi : Bool) (d : Half) (b : Block)

theorem daddrReq_off : (daddrReq n d).off.toNat = GAL_DADDR n := by
  have hn := n.isLt
  simp only [daddrReq, BitVec.toNat_ofNat, GAL_DADDR]
  omega

theorem daddrReq_slot : slotOf (daddrReq n d).off.toNat = GAL_DADDR n := by
  rw [daddrReq_off]
  simp only [slotOf, GAL_DADDR]
  omega

theorem ddataHalfReq_slot : slotOf (ddataHalfReq n hi d).off.toNat = GAL_DDATA n := by
  have hn := n.isLt
  simp only [ddataHalfReq, BitVec.toNat_ofNat, GAL_DDATA, slotOf]
  split <;> omega

/-- The engine whose register a Gallery offset names. -/
theorem galOffset_engine {o : Nat} (h : o < 0x10000) : (0x200000 + o + 0x10000 * n.val - 0x200000) / 0x10000 = n.val := by omega

theorem daddrReq_bank : b.bankOf (daddrReq n d) = some (96 * n + 64 + d.toNat % 2 ^ 14 / 512) := by
  have hlow : (daddrReq n d).off.toNat % 16 < 8 := by
    rw [daddrReq_off]
    simp only [GAL_DADDR]
    omega
  have hin : (!(daddrReq n d).wr || decide (GAL_DADDR n < 0x200000) || decide (0x300000 ≤ GAL_DADDR n)) = false := by
    have hn := n.isLt
    simp only [daddrReq, GAL_DADDR, Bool.not_true, Bool.false_or, Bool.or_eq_false_iff, decide_eq_false_iff_not]
    omega
  have heng : (GAL_DADDR n - 0x200000) / 0x10000 = n := galOffset_engine n (o := 0xb0) (by decide)
  simp only [Block.bankOf, daddrReq_slot, hin, heng, if_true, regW_whole (r := daddrReq n d) rfl hlow,
    fieldOf_over_low (n := 14) (by decide)]
  rfl

theorem ddataHalfReq_bank : b.bankOf (ddataHalfReq n hi d) = some (96 * n + 64 + b.get (GAL_DADDR_ADDR n) / 512) := by
  have hin : (!(ddataHalfReq n hi d).wr || decide (GAL_DDATA n < 0x200000) || decide (0x300000 ≤ GAL_DDATA n)) = false := by
    have hn := n.isLt
    simp only [ddataHalfReq, GAL_DDATA, Bool.not_true, Bool.false_or, Bool.or_eq_false_iff, decide_eq_false_iff_not]
    omega
  have heng : (GAL_DDATA n - 0x200000) / 0x10000 = n := galOffset_engine n (o := 0xc0) (by decide)
  have hne : GAL_DDATA n ≠ GAL_DADDR n := by simp only [GAL_DDATA, GAL_DADDR]; omega
  simp only [Block.bankOf, ddataHalfReq_slot, hin, heng, if_neg hne, if_true]
  rfl

end

/-- A write at the data-store port whose bank holds its words takes effect as it arrives. -/
theorem arrive_good {b : Block} {i : Instr} {r : BarReq} {k : Nat} (hf : b.hostFree = true) (hs : b.synced = false)
    (hw : b.mustWait i = (!b.bankLostAt r && b.bankWaits r)) (ha : b.answer i = if b.bankLostAt r then b.answerReq r else journalWrite i (applyCmd i) b)
    (hk : b.bankOf r = some k) (hg : bankGood b k = true) : Block.arrive i b = applyCmd i b := by
  simp only [bankGood, Bool.not_eq_true', Bool.or_eq_false_iff] at hg
  obtain ⟨⟨hlost, hunc⟩, hseal⟩ := hg
  have hl : b.bankLostAt r = false := by simp only [Block.bankLostAt, hk, hlost]
  have hwait : b.bankWaits r = false := by simp only [Block.bankWaits, hk, hunc, hseal, Bool.or_self]
  rw [arrive_answered hf (by rw [hw, hl, hwait]; rfl), ha, hl, if_neg Bool.false_ne_true, journalWrite, if_neg (by rw [hs]; exact Bool.false_ne_true)]

section
variable {s : State} (n : Fin 16) (d : Half) (hf : s.blk.hostFree = true)
include hf

theorem ddata_captures (hs : s.blk.synced = false) (hg : bankGood s.blk (96 * n + 64 + d.toNat % 2 ^ 14 / 512) = true) :
    ∃ t, exec (.ddataCapture n d) s = .next t ∧ t.blk.get (GAL_DADDR_ADDR n) = d.toNat % 2 ^ 14 ∧
    t.blk.reg (GAL_DDATA n) = (s.blk.eng[n]).hwLoad s.blk.tm.phys (d.toNat % 2 ^ 14) ∧
    Frame [GAL_DADDR_ADDR n, GAL_DDATA_DATA n] [] s t := by
  have hact : Block.arrive (.ddataCapture n d) s.blk = Block.ddataCapture n d s.blk :=
    arrive_good (r := daddrReq n d) hf hs rfl rfl (daddrReq_bank n d s.blk) hg
  have haddr : (s.blk.put (GAL_DADDR_ADDR n) d.toNat).get (GAL_DADDR_ADDR n) = d.toNat % 2 ^ 14 := Block.get_put_same _ _ _ (by simp)
  have hne : GAL_DDATA n ≠ GAL_DADDR n := by simp only [GAL_DDATA, GAL_DADDR]; omega
  refine leadsTo_intro ((exec_ddataCapture s).trans (done_leadsTo hact)) fun u => ⟨?_, ?_, frame_intro ?_ ?_⟩
  · rw [Block.withTags_get, Block.ddataCapture, Block.get_setReg_ne _ _ _ _ hne, haddr]
  · rw [Block.withTags_reg, Block.ddataCapture, Block.reg_setReg_same, haddr, engine_eq]
    rfl
  · exact keeps_setReg (keeps_put (keeps_refl _ _) (by simp)) (by simp)
  · exact only_trans (put_only _ _ _ _) (setReg_only _ _ _ _)

omit hf in
/-- The data-store port of an engine answers in PD7. -/
theorem daddr_place : ∀ m : Fin 16, (regAt (GAL_DADDR m)).isNone = false ∧ domainOf (GAL_DADDR m) = 7 := by decide +kernel

omit hf in
theorem daddrReq_meets_lost {b : Block} (hlost : b.pw.lost.getLsbD (96 * n + 64 + d.toNat % 2 ^ 14 / 512) = true)
    (hon : b.domOn 7 = true) : b.bankLostAt (daddrReq n d) = true ∧ b.meets (daddrReq n d) = .lost := by
  obtain ⟨hreg, hdom⟩ := daddr_place n
  have hl : b.bankLostAt (daddrReq n d) = true := by simp only [Block.bankLostAt, daddrReq_bank, hlost]
  have hsize : sizeOk (daddrReq n d) = true := by
    have hoff := daddrReq_off n d
    have h8 : GAL_DADDR n % 8 = 0 := by simp only [GAL_DADDR]; omega
    simp only [sizeOk, hoff, h8, beq_self_eq_true]
    rfl
  have hbar : (daddrReq n d).bar = .bar0 := rfl
  refine ⟨hl, ?_⟩
  simp [Block.meets, daddrReq_slot, hbar, hsize, hreg, hdom, hon, hl]

theorem ddata_lost (hlost : s.blk.pw.lost.getLsbD (96 * n + 64 + d.toNat % 2 ^ 14 / 512) = true) (hon : s.blk.domOn 7 = true) :
    ∃ t, exec (.ddataCapture n d) s = .next t ∧
      t.blk.get HOST_ERRCAUSE_CODE = 4 ∧ Out.completerAbort (GAL_DADDR n) ∈ t.blk.out ∧
      Frame [HOST_ERRCAUSE_CODE, HOST_ERRCAUSE_CNT, HOST_ERRADDR_ADDR, EVT_PEND_PEND, EVT_OVR_OVR] [.host, .out] s t := by
  obtain ⟨hl, hm⟩ := daddrReq_meets_lost n d hlost hon
  have hw : s.blk.mustWait (.ddataCapture n d) = false := by
    have hwait : s.blk.mustWait (.ddataCapture n d) = (!s.blk.bankLostAt (daddrReq n d) && s.blk.bankWaits (daddrReq n d)) := rfl
    rw [hwait, hl]
    rfl
  have hans : s.blk.answer (.ddataCapture n d) = if s.blk.bankLostAt (daddrReq n d) then s.blk.answerReq (daddrReq n d)
    else namedWrite (.ddataCapture n d) s.blk := rfl
  have hact : Block.arrive (.ddataCapture n d) s.blk =
      ((s.blk.pciError 15).emit (.completerAbort (GAL_DADDR n))).hostErr 4 (GAL_DADDR n) := by
    rw [arrive_answered hf hw, hans, if_pos hl]
    simp only [Block.answerReq, hm, daddrReq_off]
  refine leadsTo_intro ((exec_ddataCapture s).trans (done_leadsTo hact)) fun u => ⟨?_, ?_, frame_intro ?_ ?_⟩
  · rw [Block.withTags_get, hostErr_code]
  · exact mem_hostErr_out (by simp) _ _
  · exact keeps_hostErr (keeps_emit (keeps_of_regs rfl)) (List.Subset.refl _)
  · exact only_hostErr (only_emit (by simp [Block.only, Block.pciError]) (by simp)) (by simp)

end

/-! ### Hardware writes a word of the data store (R135, R136) -/

section
variable (x : Engine) (t k : Nat) (v : Word)

theorem store_load_same : (x.store k v).load k = v := sget_sput_same _ _ _ _

theorem store_load_ne {j : Nat} (h : j ≠ k) : (x.store k v).load j = x.load j := sget_sput_ne _ _ _ h

theorem hwStore_load_same : (x.hwStore t k v).hwLoad t k = v := by
  unfold Engine.hwStore
  simp only
  split
  · rename_i at_ j w hold
    by_cases hjt : j = k ∧ t < at_
    · simp only [if_pos hjt, Engine.hwLoad]
    · simp only [if_neg hjt, Engine.hwLoad, Engine.store, hold]
      exact store_load_same _ _ _
  · rename_i hold
    simp only [Engine.hwLoad, Engine.store, hold]
    exact store_load_same _ _ _

theorem hwStore_load_ne {i : Nat} (h : i ≠ k) : (x.hwStore t k v).hwLoad t i = x.hwLoad t i := by
  unfold Engine.hwStore
  simp only
  split
  · rename_i at_ j w hold
    by_cases hjt : j = k ∧ t < at_
    · have hne : ¬ (j = i ∧ t < at_) := by
        rintro ⟨hji, -⟩
        exact h (hji.symm.trans hjt.1)
      simp only [if_pos hjt, Engine.hwLoad, hold, if_neg hne]
      rfl
    · simp only [if_neg hjt, Engine.hwLoad, Engine.store, hold]
      split
      · rfl
      · exact store_load_ne x k v h
  · rename_i hold
    simp only [Engine.hwLoad, Engine.store, hold]
    exact store_load_ne x k v h

end

section
variable (b : Block) (n : Fin 16) (k : Nat) (v : Word)

theorem blockHwStore_becomes : b.becomes n (b.eng[n].hwStore b.tm.phys k v) (b.hwStore n k v) := by
  have hmap := becomes_mapE b n (fun _ => b.eng[n].hwStore b.tm.phys k v)
  unfold Block.hwStore
  simp only [engine_eq, mapEng_eq]
  split
  · split
    · exact hmap
    · exact becomes_of_eng hmap rfl
  · exact hmap

theorem blockHwStore_regs : (b.hwStore n k v).regs = b.regs := by
  unfold Block.hwStore
  simp only
  split
  · split <;> rfl
  · rfl

theorem blockHwStore_only : b.only [.eng, .pair] (b.hwStore n k v) := by
  unfold Block.hwStore
  simp only [mapEng_eq]
  split
  · split
    · exact only_mono (mapE_only _ _ _) (by simp)
    · simp [Block.only, Block.mapE]
  · exact only_mono (mapE_only _ _ _) (by simp)

end

theorem ddata_writes {s : State} (n : Fin 16) (hi : Bool) (d : Half) (hf : s.blk.hostFree = true) (hs : s.blk.synced = false)
    (hg : bankGood s.blk (96 * n + 64 + s.blk.get (GAL_DADDR_ADDR n) / 512) = true) :
    ∃ t, exec (.ddataWrite n hi d) s = .next t ∧
    (t.blk.eng[n]).hwLoad s.blk.tm.phys (s.blk.get (GAL_DADDR_ADDR n)) =
      putHalf ((s.blk.eng[n]).hwLoad s.blk.tm.phys (s.blk.get (GAL_DADDR_ADDR n))) hi d ∧
    (∀ k, k ≠ s.blk.get (GAL_DADDR_ADDR n) →
      (t.blk.eng[n]).hwLoad s.blk.tm.phys k = (s.blk.eng[n]).hwLoad s.blk.tm.phys k) ∧
    t.blk.reg (GAL_DDATA n) = putHalf (s.blk.reg (GAL_DDATA n)) hi d ∧
    (∀ m : Fin 16, m ≠ n → t.blk.eng[m] = s.blk.eng[m]) ∧ Frame [GAL_DDATA_DATA n] [.eng, .pair] s t := by
  have hact : Block.arrive (.ddataWrite n hi d) s.blk = Block.ddataWrite n hi d s.blk :=
    arrive_good (r := ddataHalfReq n hi d) hf hs rfl rfl (ddataHalfReq_bank n hi d s.blk) hg
  obtain ⟨v, hv⟩ : ∃ v, v = putHalf ((s.blk.eng[n]).hwLoad s.blk.tm.phys (s.blk.get (GAL_DADDR_ADDR n))) hi d := ⟨_, rfl⟩
  have hstore : Block.ddataWrite n hi d s.blk = (s.blk.hwStore n (s.blk.get (GAL_DADDR_ADDR n)) v).setReg (GAL_DDATA n)
      (putHalf (s.blk.reg (GAL_DDATA n)) hi d) := by
    rw [hv, ← engine_eq]
    rfl
  obtain ⟨hx, hothers⟩ := blockHwStore_becomes s.blk n (s.blk.get (GAL_DADDR_ADDR n)) v
  have hregs := blockHwStore_regs s.blk n (s.blk.get (GAL_DADDR_ADDR n)) v
  have honly := blockHwStore_only s.blk n (s.blk.get (GAL_DADDR_ADDR n)) v
  refine leadsTo_intro ((exec_ddataWrite s).trans (done_leadsTo (hact.trans hstore))) fun u => ?_
  rw [← hv, Block.withTags_eng, Block.setReg_eng, hx, Block.withTags_reg, Block.reg_setReg_same]
  exact ⟨hwStore_load_same _ _ _ _, fun j hj => hwStore_load_ne _ _ _ _ hj, rfl, hothers,
    frame_intro (keeps_setReg (keeps_of_regs hregs) (by simp)) (only_trans honly (setReg_only _ _ _ _))⟩

/-- Settles O28: a write of GALn_CTL acts at once and a start at its instant, where the admission reads what stood before it; the spare,
the retirements, the data-store port and the clears each change the fields that they name. -/
theorem engineControl : Obligations.EngineControl := by
  unfold Obligations.EngineControl
  refine ⟨?_, ?_, ?_, ?_, ?_, ?_, ?_, ?_, ?_, ?_, ?_, ?_, ?_, ?_, ?_, ?_, ?_, ?_⟩
  · intro s n hf hs hst hp ha
    exact start_waits n hf hs hst hp ha
  · intro s n hf hs hst
    obtain ⟨t, ht, hcode, -, hframe⟩ := start_refused n hf hs true rfl rfl (by rw [hst]; rfl)
    exact ⟨t, ht, hcode, hframe⟩
  · intro s n hf hs hst
    simp only [List.mem_cons, List.not_mem_nil, or_false, not_or] at hst
    obtain ⟨h1, h3, h7⟩ := hst
    obtain ⟨t, ht, hcode, hen, hframe⟩ := start_refused n hf hs false rfl (disable_idle s.blk n (by simp [h1, h3])) (Bool.and_false _)
    rw [Block.startCode, if_neg h7] at hcode
    exact ⟨t, ht, hcode, hen, hframe⟩
  · intro s n at_ hb ha hst hen hadm
    exact start_begins hb ha hst hen hadm
  · intro s n at_ hb ha hst hen hadm
    exact start_fails hb ha hst hen hadm
  · intro s n hf hs hst
    exact disable_halts n hf hs hst
  · intro s n hf hs hst
    exact disable_aborts n hf hs hst
  · intro s n hf hs hst
    exact disable_stays n hf hs hst
  · intro s hf hs hst
    exact spare_designates hf hs hst
  · intro s hf hs hst h7
    exact spare_refused hf hs hst h7
  · intro s hf hs h7 hb
    exact spare_released hf hs h7 hb
  · intro s n hf
    exact retirement_clears n hf
  · intro s n d hf hs hg
    exact ddata_captures n d hf hs hg
  · intro s n d hf hlost hon
    exact ddata_lost n d hf hlost hon
  · intro s n hi d hf hs hg
    exact ddata_writes n hi d hf hs hg
  · intro s n hf
    exact hdisc_clears n hf
  · intro s n hf hs
    exact rcode_clears n hf hs
  · intro s n hf
    exact slack_clears n hf

end Sys2Proof.Machine
end

section
/-! What Flowstone's operations change: its own registers, counters and state, and nothing of the engines or clocks (R208 to R225). -/

namespace Sys2Proof.Machine

/-! ### Registers and counters of Flowstone -/

/-- The registers of Flowstone, by offset. -/
abbrev flwRegs (a : Nat) : Bool := within 0x300000 0x380000 a

theorem flwRegs_of_range {a : Nat} (hlo : 0x300000 ≤ a) (hhi : a < 0x380000) : flwRegs a = true := by simp [flwRegs, within, hlo, hhi]

theorem flwTouch_of_flwRegs {a : Nat} (h : flwRegs a = true) : flwTouch a = true := by simp only [flwTouch, h, Bool.true_or]

theorem flwTouch_of_galTouch {a : Nat} (h : galTouch a = true) : flwTouch a = true := by simp only [flwTouch, h, Bool.or_true]

theorem flwTouch_of_evTouch {a : Nat} (h : evTouch a = true) : flwTouch a = true := flwTouch_of_galTouch (galTouch_of_evTouch h)

/-- The counters of Flowstone, and what any counter touches. -/
def cntTouch (a : Nat) : Bool := within 0x300800 0x300900 a || a == STS_HALFSUM || galTouch a

theorem cntTouch_of_galTouch {a : Nat} (h : galTouch a = true) : cntTouch a = true := by simp only [cntTouch, h, Bool.or_true]

theorem cntTouch_of_evTouch {a : Nat} (h : evTouch a = true) : cntTouch a = true := cntTouch_of_galTouch (galTouch_of_evTouch h)

theorem flwTouch_of_cntTouch {a : Nat} (h : cntTouch a = true) : flwTouch a = true := by
  simp only [cntTouch, within, Bool.or_eq_true, Bool.and_eq_true, decide_eq_true_eq] at h
  rcases h with (⟨hlo, hhi⟩ | h) | h
  · exact flwTouch_of_flwRegs (flwRegs_of_range (by omega) (by omega))
  · simp only [flwTouch, h, Bool.or_true, Bool.true_or]
  · exact flwTouch_of_galTouch h

theorem recWin_range {k : Nat} (hk : k < 17) : 0x310000 ≤ recWin k ∧ recWin k < 0x312000 := by
  unfold recWin
  split
  · decide
  · omega

/-- The parts that an evaluation without a Cavern error changes. -/
def camParts : List Part := [.flw, .trc, .host, .out]

section
variable (b : Block)

theorem winShow_flwRegs (ps : List Part) {k : Nat} (hk : k < 17) : b.changes flwRegs ps (b.winShow k) := by
  obtain ⟨hlo, hhi⟩ := recWin_range hk
  have hwin : ∀ o ≤ 0x60, flwRegs (recWin k + o) = true := fun o ho => flwRegs_of_range (by omega) (by omega)
  exact changes_setReg (changes_setReg (changes_setReg (changes_setReg (changes_setReg (changes_setReg (changes_refl _ _ b)
    (hwin _ (by decide))) (hwin _ (by decide))) (hwin _ (by decide))) (hwin _ (by decide))) (hwin _ (by decide))) (hwin _ (by decide))

theorem winShows_flwRegs (ps : List Part) : ∀ (l : List Nat) (b : Block), (∀ k ∈ l, k < 17) → b.changes flwRegs ps (b.winShows l)
  | [], b, _ => changes_refl _ _ b
  | k :: r, b, h => changes_trans (winShow_flwRegs b ps (h k List.mem_cons_self))
      (winShows_flwRegs ps r _ fun i hi => h i (List.mem_cons_of_mem _ hi))

/-- Showing Flowstone's state changes its registers alone. -/
theorem flwShow_flwRegs (ps : List Part) : b.changes flwRegs ps b.flwShow := by
  refine changes_trans (changes_put ?_ (by decide)) (winShows_flwRegs ps _ _ fun k hk => List.mem_range.mp hk)
  exact changes_put (changes_putB (changes_put (changes_put (changes_put (changes_refl _ _ b) (by decide)) (by decide)) (by decide))
    (by decide)) (by decide)

theorem flwShow_only : b.only [] b.flwShow := (flwShow_flwRegs b []).2

end

/-! ### Counters (R20, R210) -/

theorem flwCnt_half {i : Nat} (hi : i < 16) (b : Block) : b.halfEvent (FLW_CNT i) = (b.setBit STS_HALFSUM_GROUP 5).raise evStatHalf := by
  have hlo : 0x300800 ≤ FLW_CNT i := by simp only [FLW_CNT]; omega
  have hhi : FLW_CNT i < 0x310000 := by simp only [FLW_CNT]; omega
  generalize FLW_CNT i = a at hlo hhi
  have hgroup : statGroup a = some 5 := by
    unfold statGroup
    repeat rw [if_neg (by simp; omega)]
    rw [if_pos (by simp; omega)]
  unfold Block.halfEvent
  rw [if_neg (by simp; omega), if_neg (by simp; omega), hgroup]
  simp only
  rw [if_neg (by simp; omega)]

section
variable {b c : Block}

theorem flwCount_counts (b : Block) {i : Nat} (hi : i < 16) (n : Nat) : b.changes cntTouch [.host, .out] (b.flwCount i n) := by
  have hcnt : cntTouch (FLW_CNT i) = true := by
    have hrange : within 0x300800 0x300900 (FLW_CNT i) = true := by
      simp only [within, FLW_CNT, Bool.and_eq_true, decide_eq_true_eq]
      omega
    simp only [cntTouch, hrange, Bool.true_or]
  unfold Block.flwCount Block.countUp
  split
  · exact changes_refl _ _ b
  simp only
  rw [flwCnt_half hi]
  split
  · exact changes_raise (changes_put (setReg_changes _ b _ hcnt) (by decide)) (fun _ => cntTouch_of_evTouch) (by simp)
  · exact setReg_changes _ b _ hcnt

theorem flwCount_changes (b : Block) {i : Nat} (hi : i < 16) (n : Nat) : b.changes flwTouch [.host, .out] (b.flwCount i n) :=
  changes_mono (flwCount_counts b hi n) (fun _ => flwTouch_of_cntTouch) (List.Subset.refl _)

theorem changes_flwCount {ps : List Part} (h : b.changes flwTouch ps c) (hp : [.host, .out] ⊆ ps) {i : Nat} (hi : i < 16) (n : Nat) :
    b.changes flwTouch ps (c.flwCount i n) := changes_trans h (changes_mono (flwCount_changes c hi n) (fun _ h => h) hp)

theorem changes_mapFlw {touch : Nat → Bool} {ps : List Part} (h : b.changes touch ps c) (hp : .flw ∈ ps) (f : FlwSt → FlwSt) :
    b.changes touch ps (c.mapFlw f) := changes_part h rfl (by simp [Block.only, Block.mapFlw, hp])

theorem changes_fabFlw (h : b.changes flwTouch camParts c) (evt n : Nat) : b.changes flwTouch camParts (c.fabCount evt n) :=
  changes_counted h (fabCount_counted c evt n) (fun _ => flwTouch_of_galTouch) (by simp [camParts])

theorem only_flw {l : List Part} (h : b.only l c) (hp : .flw ∉ l) : c.flw = b.flw := by
  simp only [Block.only] at h
  simp_all

end

section
variable (b : Block)

@[simp] theorem flwShow_flw : b.flwShow.flw = b.flw := only_flw (flwShow_only b) (by simp)

@[simp] theorem mapFlw_flw (f : FlwSt → FlwSt) : (b.mapFlw f).flw = f b.flw := rfl

@[simp] theorem raise_flw (n : Nat) : (b.raise n).flw = b.flw := only_flw (raise_only b n) (by simp)

@[simp] theorem countUp_flw (a n : Nat) : (b.countUp a n).flw = b.flw :=
  only_flw (countUp_changes (touch := fun _ => true) (fun _ _ => rfl) b n rfl).2 (by simp)

@[simp] theorem flwCount_flw (i n : Nat) : (b.flwCount i n).flw = b.flw := by
  unfold Block.flwCount
  split
  · rfl
  · exact countUp_flw b _ n

@[simp] theorem fabCount_flw (evt n : Nat) : (b.fabCount evt n).flw = b.flw := only_flw (fabCount_counted b evt n).2 (by simp)

/-! ### Records (R216) -/

@[simp] theorem setRec_rec (i : Nat) (r : Rec) : (b.setRec i r).rec_ i = r := sget_sput_same _ _ _ _

theorem setRec_rec_ne {i j : Nat} (h : j ≠ i) (r : Rec) : (b.setRec i r).rec_ j = b.rec_ j := sget_sput_ne _ _ _ h

theorem rec_congr {c : Block} (h : c.flw.recs = b.flw.recs) (i : Nat) : c.rec_ i = b.rec_ i := by rw [Block.rec_, h]; rfl

end

/-! ### Holds (R209, R221) -/

/-- What a hold may change of Flowstone's state: a record, the seek queue, and the note of the first OVER. -/
structure Block.heldTo (b c : Block) : Prop where
  changes : b.changes flwTouch [.flw, .host, .out] c
  queue : c.flw.queue = b.flw.queue
  flight : c.flw.flight = b.flw.flight
  freeAt : c.flw.freeAt = b.flw.freeAt

theorem heldTo_trans {b c d : Block} (h1 : b.heldTo c) (h2 : c.heldTo d) : b.heldTo d :=
  ⟨changes_trans h1.changes h2.changes, h2.queue.trans h1.queue, h2.flight.trans h1.flight, h2.freeAt.trans h1.freeAt⟩

theorem heldTo_refl (b : Block) : b.heldTo b := ⟨changes_refl _ _ b, rfl, rfl, rfl⟩

section
variable (b : Block) (fl : Flight) (i why : Nat)

/-- What the reason of a hold adds to the record's mark and its count: the counts of shedding and the entry for the seek engine. -/
def Block.holdWhy (b : Block) (i why : Nat) : Block :=
  let shed := why == 3 || why == 4
  let b2 := if shed then b.flwCount 2 1 else b
  let b3 := if why = 4 then b2.noteOver else b2
  if why = 2 then b3.queueSeek i else b3

/-- The flight of a held record. -/
def Flight.withHeld (fl : Flight) (why : Nat) : Flight :=
  let shed := why == 3 || why == 4
  { fl with held := fl.held + 1, shed := fl.shed + b2n shed, overN := fl.overN + b2n (why == 4), seek := fl.seek + b2n (why == 2) }

theorem hold_eq : b.hold fl i why =
    (((b.setRec i { b.rec_ i with r1 := heldRes why }).flwCount 1 1).holdWhy i why, fl.withHeld why) := rfl

theorem noteOver_heldTo : b.heldTo b.noteOver ∧ b.noteOver.flw.recs = b.flw.recs := by
  unfold Block.noteOver
  split
  · exact ⟨heldTo_refl b, rfl⟩
  · exact ⟨⟨changes_raise (changes_putB (changes_mapFlw (changes_refl _ _ b) (by simp) _) (by decide)) (fun _ => flwTouch_of_evTouch)
      (by simp), by simp, by simp, by simp⟩, by simp⟩

theorem queueSeek_heldTo : b.heldTo (b.queueSeek i) ∧ (b.queueSeek i).flw.recs = b.flw.recs := by
  unfold Block.queueSeek
  split
  · exact ⟨heldTo_refl b, rfl⟩
  · exact ⟨⟨changes_mapFlw (changes_refl _ _ b) (by simp) _, rfl, rfl, rfl⟩, rfl⟩

theorem flwCount_heldTo {k : Nat} (hk : k < 16) (n : Nat) : b.heldTo (b.flwCount k n) :=
  ⟨changes_mono (flwCount_changes b hk n) (fun _ h => h) (by simp), by simp, by simp, by simp⟩

theorem holdWhy_heldTo : b.heldTo (b.holdWhy i why) ∧ (b.holdWhy i why).flw.recs = b.flw.recs := by
  have hshed (p : Bool) : b.heldTo (if p then b.flwCount 2 1 else b) ∧ (if p then b.flwCount 2 1 else b).flw.recs = b.flw.recs := by
    split
    · exact ⟨flwCount_heldTo b (by decide) 1, by simp⟩
    · exact ⟨heldTo_refl b, rfl⟩
  have hover (c : Block) : c.heldTo (if why = 4 then c.noteOver else c) ∧ (if why = 4 then c.noteOver else c).flw.recs = c.flw.recs := by
    split
    · exact noteOver_heldTo c
    · exact ⟨heldTo_refl c, rfl⟩
  have hseek (c : Block) : c.heldTo (if why = 2 then c.queueSeek i else c) ∧ (if why = 2 then c.queueSeek i else c).flw.recs = c.flw.recs := by
    split
    · exact queueSeek_heldTo c i
    · exact ⟨heldTo_refl c, rfl⟩
  obtain ⟨h1, r1⟩ := hshed (why == 3 || why == 4)
  obtain ⟨h2, r2⟩ := hover (if why == 3 || why == 4 then b.flwCount 2 1 else b)
  obtain ⟨h3, r3⟩ := hseek (if why = 4 then (if why == 3 || why == 4 then b.flwCount 2 1 else b).noteOver
    else if why == 3 || why == 4 then b.flwCount 2 1 else b)
  exact ⟨heldTo_trans (heldTo_trans h1 h2) h3, r3.trans (r2.trans r1)⟩

theorem hold_heldTo : b.heldTo (b.hold fl i why).1 := by
  have hset : b.heldTo (b.setRec i { b.rec_ i with r1 := heldRes why }) :=
    ⟨changes_mapFlw (changes_refl _ _ b) (by simp) _, rfl, rfl, rfl⟩
  rw [hold_eq]
  exact heldTo_trans (heldTo_trans hset (flwCount_heldTo _ (by decide) 1)) (holdWhy_heldTo _ i why).1

theorem hold_recs : (b.hold fl i why).1.flw.recs = (b.setRec i { b.rec_ i with r1 := heldRes why }).flw.recs := by
  rw [hold_eq]
  exact (holdWhy_heldTo _ i why).2.trans (congrArg FlwSt.recs (flwCount_flw _ 1 1))

/-- A hold marks its record, and no other. -/
theorem hold_rec (j : Nat) : (b.hold fl i why).1.rec_ j = if j = i then { b.rec_ j with r1 := heldRes why } else b.rec_ j := by
  rw [rec_congr _ (hold_recs b fl i why)]
  split
  case isTrue h => rw [h, setRec_rec]
  case isFalse h => exact setRec_rec_ne b h _

end

end Sys2Proof.Machine
end

section
/-! The dispatch of a batch (R208 to R217): what it changes, and when it changes nothing. -/

namespace Sys2Proof.Machine

/-! ### No batch is being dispatched -/

section
variable {b : Block}

theorem mapBusy_idle (h : b.flw.flight.any Flight.busy = false) (f : Block → Flight → Block × Flight) : b.mapBusy f = b := by
  unfold Block.mapBusy
  split
  case h_1 fl r hr =>
    have hmem : fl ∈ b.flw.flight := by
      rw [← List.mem_reverse, hr]
      exact List.mem_cons_self
    rw [if_neg (by simpa using List.any_eq_false.mp h fl hmem)]
  case h_2 => rfl

theorem dispatchTo_idle (h : b.flw.flight.any Flight.busy = false) (limit : Option Nat) : b.dispatchTo limit = b := mapBusy_idle h _

theorem flwRun_empty (h : b.flw.flight = []) : b.flwRun = b := by simp [Block.flwRun, h]

/-- Results whose slots have not ended are not written. -/
theorem writeDue_waits : ∀ (l done : List Flight), (∀ fl ∈ l, ∀ x ∈ fl.results, b.tm.phys < x.due) →
    b.writeDue done l = b.mapFlw (fun w => { w with flight := done ++ l })
  | [], done, _ => by rw [Block.writeDue, List.append_nil]
  | fl :: r, done, h => by
    have hres := h fl List.mem_cons_self
    have hdue : fl.results.filter (fun x => x.due ≤ b.tm.phys) = [] :=
      List.filter_eq_nil_iff.mpr fun x hx => by simpa using hres x hx
    have hwait : fl.results.filter (fun x => b.tm.phys < x.due) = fl.results :=
      List.filter_eq_self.mpr fun x hx => by simpa using hres x hx
    rw [Block.writeDue, hdue, hwait]
    refine (writeDue_waits r _ fun y hy => h y (List.mem_cons_of_mem _ hy)).trans ?_
    rw [List.append_assoc]
    rfl

theorem quiet_idle (h : b.flwQuiet) : b.flw.flight.any Flight.busy = false :=
  List.any_eq_false.mpr fun fl hfl => by simp [Flight.busy, (h fl hfl).1]

/-- Once the records whose slots have begun are dispatched and no result is due, Flowstone is up to the present. -/
theorem flwRun_settled (hne : b.flw.flight ≠ []) (h : (b.dispatchTo (some b.tm.phys)).flwQuiet) :
    b.flwRun = b.dispatchTo (some b.tm.phys) := by
  have hsome : ¬ b.flw.flight.isEmpty = true := by rwa [List.isEmpty_iff]
  unfold Block.flwRun
  rw [if_neg hsome]
  generalize b.dispatchTo (some b.tm.phys) = c at h
  have hdue : (if c.synced then c else c.writeDue [] c.flw.flight) = c := by
    split
    · rfl
    · rw [writeDue_waits _ _ fun fl hfl => (h fl hfl).2.2]
      rfl
  have hstay : c.flw.flight.filter (fun fl => !fl.over_) = c.flw.flight :=
    List.filter_eq_self.mpr fun fl hfl => by simp [Flight.over_, (h fl hfl).2.1]
  simp only [hdue]
  unfold Block.mapFlw
  simp only [hstay]

/-- Where nothing is due, bringing Flowstone up to the present changes nothing. -/
theorem flwRun_quiet (h : b.flwQuiet) : b.flwRun = b := by
  have hid := dispatchTo_idle (quiet_idle h) (some b.tm.phys)
  by_cases hne : b.flw.flight = []
  · exact flwRun_empty hne
  · exact (flwRun_settled hne (by rwa [hid])).trans hid

end

/-! ### Any dispatch leaves the engines and the clocks alone -/

/-- The parts that a dispatch may change: Flowstone's, those of a Cavern read, and those of a cell's retirement. -/
def dispParts : List Part := [.flw, .trc, .host, .out, .cav, .strikes, .retired, .retRec, .sw, .pair]

/-- Any register, and the parts of a dispatch. -/
def Block.dispatches (b c : Block) : Prop := b.changes (fun _ => true) dispParts c

section
variable {b c : Block}

theorem dispatches_of {touch : Nat → Bool} {ps : List Part} (h : b.changes touch ps c) (hp : ps ⊆ dispParts) : b.dispatches c :=
  changes_mono h (fun _ _ => rfl) hp

theorem dispatches_of_only {ps : List Part} (h : b.only ps c) (hp : ps ⊆ dispParts) : b.dispatches c :=
  ⟨fun _ ht => absurd ht Bool.noConfusion, only_mono h hp⟩

theorem dispatches_refl (b : Block) : b.dispatches b := changes_refl _ _ b

theorem dispatches_trans {d : Block} (h1 : b.dispatches c) (h2 : c.dispatches d) : b.dispatches d := changes_trans h1 h2

theorem dispatches_eng (h : b.dispatches c) : c.eng = b.eng := only_eng h.2 (by simp [dispParts])

theorem dispatches_tm (h : b.dispatches c) : c.tm = b.tm := only_tm h.2 (by simp [dispParts])

theorem dispatches_put (h : b.dispatches c) (f : Field) (v : Nat) : b.dispatches (c.put f v) := changes_put h rfl

theorem dispatches_raise (h : b.dispatches c) (n : Nat) : b.dispatches (c.raise n) := changes_raise h (fun _ _ => rfl) (by simp [dispParts])

theorem dispatches_mapFlw (h : b.dispatches c) (f : FlwSt → FlwSt) : b.dispatches (c.mapFlw f) := changes_mapFlw h (by simp [dispParts]) f

theorem dispatches_fabCount (h : b.dispatches c) (evt n : Nat) : b.dispatches (c.fabCount evt n) :=
  changes_counted h (fabCount_counted c evt n) (fun _ _ => rfl) (by simp [dispParts])

theorem dispatches_flwCount (h : b.dispatches c) (i n : Nat) : b.dispatches (c.flwCount i n) := by
  unfold Block.flwCount
  split
  · exact h
  · exact dispatches_trans h (dispatches_of (countUp_changes (touch := fun _ => true) (fun _ _ => rfl) c n rfl) (by simp [dispParts]))

end

section
variable (b : Block)

theorem hold_dispatches (fl : Flight) (i why : Nat) : b.dispatches (b.hold fl i why).1 :=
  dispatches_of (hold_heldTo b fl i why).changes (by simp [dispParts])

theorem evalCount_dispatches (n : Nat) : b.dispatches (b.evalCount n) :=
  dispatches_fabCount (dispatches_flwCount (dispatches_mapFlw (dispatches_refl b) _) 0 n) 8 n

/-! #### A cell leaves the active set (R217, R218) -/

theorem retryIn_dispatches (c : Nat) : ∀ (l : List Slot) (fl : Flight) (b : Block), b.dispatches (b.retryIn c fl l).1
  | [], _, b => dispatches_refl b
  | x :: r, fl, b => by
    unfold Block.retryIn
    split
    · split
      · exact dispatches_trans (evalCount_dispatches b 1) (retryIn_dispatches c r _ _)
      · exact dispatches_trans (hold_dispatches b fl _ 4) (retryIn_dispatches c r _ _)
    · exact retryIn_dispatches c r _ b

theorem retryMiss_dispatches (c : Nat) : ∀ (l : List Miss) (fl : Flight) (b : Block), b.dispatches (b.retryMiss c fl l).1
  | [], _, b => dispatches_refl b
  | m :: r, fl, b => by
    unfold Block.retryMiss
    split
    · split
      · exact dispatches_trans (evalCount_dispatches b 1) (retryMiss_dispatches c r _ _)
      · exact dispatches_trans (hold_dispatches b fl _ 4) (retryMiss_dispatches c r _ _)
    · exact retryMiss_dispatches c r _ b

theorem retryFlights_dispatches (c : Nat) : ∀ (l done : List Flight) (b : Block), b.dispatches (b.retryFlights c done l)
  | [], _, b => dispatches_mapFlw (dispatches_refl b) _
  | fl :: r, _, b => dispatches_trans (dispatches_trans (retryIn_dispatches c fl.results _ b) (retryMiss_dispatches c _ _ _))
      (retryFlights_dispatches c r _ _)

theorem relevel_dispatches : b.dispatches b.relevel := by
  unfold Block.relevel Block.levelDrop
  split
  · split
    · exact dispatches_raise (dispatches_put (dispatches_put (dispatches_refl b) _ _) _ _) _
    · exact dispatches_put (dispatches_refl b) _ _
  · exact dispatches_refl b

theorem cellRetire_dispatches (c : Nat) : b.dispatches (b.cellRetire c) := by
  unfold Block.cellRetire
  refine dispatches_trans (dispatches_trans ?_ (retryFlights_dispatches c _ [] _)) (relevel_dispatches _)
  exact dispatches_raise (dispatches_put (dispatches_put (dispatches_put (dispatches_put (dispatches_refl b) _ _) _ _) _ _) _ _) _

theorem sendRope_dispatches (m : RopeOut) : b.dispatches (b.sendRope m) := by
  unfold Block.sendRope
  split
  · have hsent : b.dispatches ((b.emit (.rope b.pair.txSeq m (b.ropeWire m))).countUp (PAIR_CNT 0) 1) :=
      dispatches_trans (dispatches_of_only (emit_only b _) (by simp [dispParts]))
        (dispatches_of (countUp_changes (touch := fun _ => true) (fun _ _ => rfl) _ 1 rfl) (by simp [dispParts]))
    exact changes_part hsent rfl (by simp [Block.only, dispParts])
  · exact dispatches_refl b

theorem journalItem_dispatches (i : JItem) : b.dispatches (b.journalItem i) := by
  unfold Block.journalItem
  simp only
  refine dispatches_fabCount (dispatches_trans ?_ (sendRope_dispatches _ _)) 15 1
  exact dispatches_of_only (ps := [.host]) (by simp [Block.only]) (by simp [dispParts])

theorem cellError_dispatches (c : Nat) : b.dispatches (b.cellError c) := by
  have hshow : b.dispatches ((((b.putB FLW_CAUSE_CHK true).put FLW_CAUSE_CELL c).flwCount 6 1).raise evCamFault) :=
    dispatches_raise (dispatches_flwCount (dispatches_put (dispatches_put (dispatches_refl b) _ _) _ _) 6 1) _
  have hstrike (d : Block) : d.dispatches (d.strike ⟨3, c⟩) := dispatches_of_only (strike_only d _) (by simp [dispParts])
  have hretire (d : Block) : d.dispatches (d.retire ⟨3, c⟩) := dispatches_of_only (retire_only d _) (by simp [dispParts])
  unfold Block.cellError
  simp only
  refine dispatches_trans hshow ?_
  split
  · refine dispatches_trans (dispatches_trans (hstrike _) (hretire _)) ?_
    split
    · exact journalItem_dispatches _ _
    · exact cellRetire_dispatches _ c
  · exact hstrike _

theorem retries_dispatches : ∀ (fuel c n : Nat) (b : Block), b.dispatches (b.retries fuel c n).1
  | 0, _, _, b => dispatches_refl b
  | fuel + 1, c, n, b => by
    have herr : b.dispatches (if n = 0 then b else b.cellError c) := by
      split
      · exact dispatches_refl b
      · exact cellError_dispatches b c
    unfold Block.retries
    split
    · exact dispatches_refl b
    · simp only
      split
      · exact herr
      · exact dispatches_trans herr (dispatches_trans (evalCount_dispatches _ 1) (retries_dispatches fuel _ _ _))

/-! #### An evaluation (R211 to R214, R220) -/

theorem cavTouches_dispatches : ∀ (l : List Nat) (b : Block), b.dispatches (b.cavTouches l)
  | [], b => dispatches_refl b
  | w :: r, b => dispatches_trans (dispatches_of (cavTouch_changes b w) (by simp [dmaParts, dispParts])) (cavTouches_dispatches r _)

theorem fetchKey_dispatches (k : Nat) : b.dispatches (b.fetchKey k).1 := by
  have hread := dispatches_fabCount (cavTouches_dispatches (keyWords k) b) 11 (keyWords k).length
  unfold Block.fetchKey
  simp only
  split
  · exact hread
  · exact dispatches_mapFlw hread _

theorem camFault_dispatches (f : Field) (addr i : Nat) : b.dispatches (b.camFault f addr i) :=
  dispatches_raise (dispatches_put (dispatches_put (dispatches_put (dispatches_refl b) _ _) _ _) _ _) _

theorem prefetch_dispatches (o : EvalOut) (r : Rec) (vm : Word) : b.dispatches (b.prefetch o r vm) := by
  unfold Block.prefetch
  split
  · exact dispatches_refl b
  split
  case h_2 => exact dispatches_refl b
  case h_1 k _ =>
    split
    · exact dispatches_mapFlw (dispatches_refl b) _
    have hfetch := fetchKey_dispatches b k
    split
    case h_1 b1 a heq =>
      rw [heq] at hfetch
      exact dispatches_trans (dispatches_flwCount hfetch 7 1) (camFault_dispatches _ _ _ _)
    case h_2 b1 heq =>
      rw [heq] at hfetch
      exact hfetch

/-- An evaluation once it is counted and its fault is shown. -/
def Block.evalShown (b : Block) (o : EvalOut) : Block :=
  let b2 := (((b.touchKeys o.keys).evalCount o.extra).flwCount 3 o.extra).fabCount 9 o.keys.length
  if o.fault = 0 then b2 else if o.fault = 1 then (b2.flwCount 7 1).camFault FLW_CAUSE_UE o.addr o.res.rec_
  else b2.camFault FLW_CAUSE_FMT o.addr o.res.rec_

/-- The flight of an evaluation that is complete. -/
def Flight.withResult (fl : Flight) (cell at_ : Nat) (o : EvalOut) : Flight :=
  { fl with results := fl.results ++ [⟨o.res, cell, at_ + 8 * (1 + o.extra) * tick⟩], extra := fl.extra + o.extra
            held := fl.held + b2n (o.why != 0), seek := fl.seek + b2n (o.why == 2) }

theorem evalDone_eq (fl : Flight) (r : Rec) (cell at_ : Nat) (o : EvalOut) : b.evalDone fl r cell at_ o =
    (if o.why = 0 then (b.evalShown o).prefetch o r fl.b.vm else (b.evalShown o).flwCount 1 1, fl.withResult cell at_ o) := rfl

theorem evalShown_dispatches (o : EvalOut) : b.dispatches (b.evalShown o) := by
  have hcnt : b.dispatches ((((b.touchKeys o.keys).evalCount o.extra).flwCount 3 o.extra).fabCount 9 o.keys.length) :=
    dispatches_fabCount (dispatches_flwCount (dispatches_trans (dispatches_mapFlw (dispatches_refl b) _) (evalCount_dispatches _ _)) 3 _) 9 _
  unfold Block.evalShown
  simp only
  split
  · exact hcnt
  split
  · exact dispatches_trans (dispatches_flwCount hcnt 7 1) (camFault_dispatches _ _ _ _)
  · exact dispatches_trans hcnt (camFault_dispatches _ _ _ _)

theorem evalDone_dispatches (fl : Flight) (r : Rec) (cell at_ : Nat) (o : EvalOut) : b.dispatches (b.evalDone fl r cell at_ o).1 := by
  rw [evalDone_eq]
  simp only
  split
  · exact dispatches_trans (evalShown_dispatches b o) (prefetch_dispatches _ _ _ _)
  · exact dispatches_flwCount (evalShown_dispatches b o) 1 1

/-! #### The records of a batch (R208, R209) -/

theorem request_dispatches (i : Nat) (pm : Word) (why : Option Nat) : b.dispatches (b.request i pm why) := by
  unfold Block.request
  simp only
  split
  · exact dispatches_refl b
  split
  · exact dispatches_mapFlw (dispatches_refl b) _
  · exact dispatches_mapFlw (dispatches_mapFlw (dispatches_refl b) _) _

theorem dispatchRec_dispatches (fl : Flight) (i : Nat) : b.dispatches (b.dispatchRec fl i).1 := by
  have hreq := request_dispatches b i fl.b.pm (b.holdReason (b.rec_ i) fl.level)
  unfold Block.dispatchRec
  simp only
  generalize b.holdReason (b.rec_ i) fl.level = why at hreq ⊢
  generalize b.request i fl.b.pm why = b1 at hreq ⊢
  split
  · exact hreq
  · exact dispatches_trans hreq (hold_dispatches b1 fl i _)
  have hret := retries_dispatches (fl.chk.count fl.place + 8)
    ((b1.cellList[fl.evald % b1.cellList.length]?).getD 0) (fl.chk.count fl.place)
    ((b1.setRec i { b1.rec_ i with cyc := some b1.flw.cyc }).evalCount 1)
  have hbegin : b.dispatches ((b1.setRec i { b1.rec_ i with cyc := some b1.flw.cyc }).evalCount 1) :=
    dispatches_trans (dispatches_mapFlw hreq _) (evalCount_dispatches _ 1)
  have hb2 := dispatches_trans hbegin hret
  generalize Block.retries _ _ _ _ = q at hb2 ⊢
  obtain ⟨b2, _ | d⟩ := q
  · exact dispatches_trans hb2 (hold_dispatches b2 fl i 4)
  · simp only
    split
    · exact dispatches_trans hb2 (evalDone_dispatches b2 _ _ _ _ _)
    · exact dispatches_fabCount (dispatches_flwCount hb2 4 1) 10 1

theorem dispatchRecs_dispatches (limit : Option Nat) : ∀ (l : List Nat) (fl : Flight) (b : Block),
    b.dispatches (b.dispatchRecs fl limit l).1
  | [], _, b => dispatches_refl b
  | i :: r, fl, b => by
    unfold Block.dispatchRecs
    split
    · exact dispatches_refl b
    · exact dispatches_trans (dispatchRec_dispatches b fl i) (dispatchRecs_dispatches limit r _ _)

theorem dispatchTo_dispatches (limit : Option Nat) : b.dispatches (b.dispatchTo limit) := by
  unfold Block.dispatchTo Block.mapBusy
  split
  case h_2 => exact dispatches_refl b
  case h_1 fl r _ =>
    split
    case isFalse => exact dispatches_refl b
    have hrecs := dispatchRecs_dispatches limit fl.todo fl b
    refine dispatches_mapFlw ?_ _
    generalize b.dispatchRecs fl limit fl.todo = q at hrecs
    obtain ⟨b1, f1⟩ := q
    dsimp only at hrecs ⊢
    cases f1.busy
    · exact dispatches_mapFlw hrecs _
    · exact hrecs

end

end Sys2Proof.Machine
end

section
/-! CAMQ (R155, R208, R221): a batch enters the queue, is refused, traps, or completes with NAK_OFF. -/

namespace Sys2Proof.Machine

/-! ### Flowstone as an instruction leaves it -/

section
variable {s : State} {e : Fin 16} {f : FormD} {o : Op} {act : Block → Act} {cost : Nat} {c : Block} {regs : Nat → Bool} {ps : List Part}

theorem goesOn_flw (b c : Block) (e : Fin 16) (insn : Word) (cost : Nat) (res : Word) (refused : Bool) :
    (b.backTo (b.goesOn e insn c cost res refused)).flw = c.flw := by
  have hgo := goesOn_changes (b := b) (e := e) insn cost res refused (changes_refl galTouch [.eng, .tm, .trc, .host, .out] c)
    (fun _ h => h) (by simp)
  exact only_flw (backTo_changes b _ hgo (by simp)).2 (by simp)

/-- An instruction of Form D that writes SF leaves Flowstone as its effect did. -/
theorem runD_putSf_flw (h : s.blk.stands e (encodeD o.code f) (checkD o f) f.psel) {g : Engine → Engine} {ok : Bool}
    (ha : act (s.blk.atFirst e) = putSf e f.sf ok cost c)
    (hbec : s.blk.becomes e (g (s.blk.eng[e])) c) (huse : (g (s.blk.eng[e])).use = (s.blk.eng[e]).use)
    (hch : s.blk.changes (fun a => galTouch a || regs a) ([.eng, .tm, .trc, .host, .out] ++ ps) c) :
    ∃ t, runD o e f .none act s = .next t ∧
      Executed e (fun x => (g x).wf f.sf ok) cost ((s.blk.eng[e]).pc + 1) regs ps s t ∧ t.blk.flw = c.flw :=
  leadsTo_intro (done_go act h ha) fun _ => ⟨executed_goesOn (f := fun x => (g x).wf f.sf ok) (becomes_step hbec _)
    ((wf_use _ _ _).trans huse) (changes_mapE hch e _ (by simp)), goesOn_flw _ _ _ _ _ _ _⟩

end

/-! ### The batch of a CAMQ -/

theorem wf_tags (x : Engine) (i : BitVec 3) (v : Bool) : (x.wf i v).tags = x.tags := by
  unfold Engine.wf
  split <;> rfl

theorem wf_data (x : Engine) (i : BitVec 3) (v : Bool) : (x.wf i v).data = x.data := by
  unfold Engine.wf
  split <;> rfl

/-- An engine with a tag outstanding. -/
def Engine.awaits (k : Fin 4) (x : Engine) : Engine := { x with tags := x.tags.set k .outstanding }

/-- An engine with a tag that is done since an instant. -/
def Engine.tagged (k : Fin 4) (w : Word) (t : Nat) (x : Engine) : Engine :=
  { x with tags := x.tags.set k (.done w), doneAt := x.doneAt.set k t }

theorem outstanding_eq (k : Fin 4) (y : Engine) : { y with tags := vmod y.tags k (fun _ => .outstanding) } = y.awaits k := by
  simp [Engine.awaits, vmod]

section
variable (b : Block) (e : Fin 16)

@[simp] theorem atFirst_flw : (b.atFirst e).flw = b.flw := only_flw (atFirst_only b e) (by simp)

theorem atFirst_flwStopped : (b.atFirst e).flwStopped = b.flwStopped := by
  unfold Block.flwStopped
  rw [atFirst_flag, atFirst_get]

end

/-! ### A batch completes with NAK_OFF (R221) -/

section
variable (b : Block)

theorem holdOff_cons (fl : Flight) (i : Nat) (r : List Nat) :
    b.holdOff fl (i :: r) = (b.hold fl i 7).1.holdOff (b.hold fl i 7).2 r := rfl

theorem holdOff_heldTo : ∀ (l : List Nat) (fl : Flight) (b : Block), b.heldTo (b.holdOff fl l).1
  | [], _, b => heldTo_refl b
  | i :: r, fl, b => heldTo_trans (hold_heldTo b fl i 7) (holdOff_heldTo r _ _)

/-- The records held are those of the list. -/
theorem holdOff_rec (j : Nat) : ∀ (l : List Nat) (fl : Flight) (b : Block),
    (b.holdOff fl l).1.rec_ j = if j ∈ l then { b.rec_ j with r1 := heldRes 7 } else b.rec_ j
  | [], _, _ => by simp [Block.holdOff]
  | i :: r, fl, b => by
    rw [holdOff_cons, holdOff_rec j r, hold_rec]
    by_cases hj : j = i
    · simp [hj]
    · simp [hj]

theorem batchStatus_off (fl : Flight) : (b.batchStatus fl true).toNat % 16 = 1 := by
  simp only [Block.batchStatus, if_true, BitVec.toNat_ofNat]
  omega

theorem tagDone_eq {e : Fin 16} {k : Fin 4} {x : Batch} (he : x.eng = e.val) (hk : x.tag = k.val) (hr : (b.eng[e]).tagRun = x.run)
    (st : Word) (t : Nat) : b.becomes e ((b.eng[e]).tagged k st t) (b.tagDone x st t) := by
  have hmap := becomes_mapE b e (fun y => if y.tagRun = x.run then
    { y with tags := vmod y.tags x.tag (fun _ => .done st), doneAt := vmod y.doneAt x.tag (fun _ => t) } else y)
  unfold Block.tagDone
  rw [he, mapEng_eq]
  rw [if_pos hr, hk] at hmap
  simpa [Engine.tagged, vmod, hk] using hmap

theorem tagDone_only (x : Batch) (st : Word) (t : Nat) : b.only [.eng] (b.tagDone x st t) := by simp [Block.only, Block.tagDone, Block.mapEng]

end

/-- What CAMQ does at the first tick of its instruction, with its tag `k` and its batch named. -/
def camqAct (e : Fin 16) (f : FormD) (k : Fin 4) (q : Batch) (b : Block) : Act :=
  if 262144 < q.first + q.count then .trap 7
  else if b.eng[e].tags[k] ≠ .free then putSf e f.sf false 12 b
  else if b.flwStopped then putSf e f.sf true 12 (((b.mapE e (Engine.awaits k)).nakOff q (b.tm.phys + 12 * tick)).flwShow)
  else if 16 ≤ (b.dispatchTo (some q.at_)).flw.queue.length then putSf e f.sf false 12 (b.dispatchTo (some q.at_))
  else putSf e f.sf true 12 ((((b.dispatchTo (some q.at_)).mapE e (Engine.awaits k)).enqueueIn q).flwShow)

/-- The block with the batch of a CAMQ in its queue. -/
def Block.camqIn (b b0 : Block) (e : Fin 16) (f : FormD) (k : Fin 4) : Block :=
  ((b0.mapE e (Engine.awaits k)).enqueueIn (camqBatch b e f)).flwShow

section
variable (b b0 : Block) (e : Fin 16) (f : FormD) (k : Fin 4)

theorem enqueueIn_eng (x : Batch) : (b.enqueueIn x).eng = b.eng := rfl

theorem camqIn_becomes (heng : b0.eng = b.eng) : b.becomes e (b.eng[e].awaits k) (b.camqIn b0 e f k) := by
  have hmap := becomes_from (becomes_mapE b0 e (Engine.awaits k)) heng
  rw [heng] at hmap
  exact becomes_of_eng hmap ((only_eng (flwShow_only _) (by simp)).trans (enqueueIn_eng _ _))

variable {b b0} in
theorem camqIn_changes {touch : Nat → Bool} {ps : List Part} (h0 : b.changes touch ps b0)
    (ht : ∀ a, flwRegs a = true → touch a = true) (hp : [.flw, .eng] ⊆ ps) : b.changes touch ps (b.camqIn b0 e f k) := by
  have hmap := changes_mapE h0 e (Engine.awaits k) (hp (by simp))
  exact changes_trans (changes_mapFlw hmap (hp (by simp)) _) (changes_mono (flwShow_flwRegs _ ps) ht (List.Subset.refl _))

theorem camqIn_flw : (b.camqIn b0 e f k).flw = (b0.enqueueIn (camqBatch b e f)).flw := flwShow_flw _

end

/-- The flight of a batch of which nothing has been dispatched, once its records are held. -/
def Block.heldFlight (b : Block) (q : Batch) (t : Nat) : Block × Flight :=
  b.holdOff (q.flight t 0 [] false) ((List.range q.count).map (· + q.first))

/-- The block in which CAMQ completes its batch with NAK_OFF. -/
def Block.camqOff (b : Block) (q : Batch) (e : Fin 16) (k : Fin 4) (t : Nat) : Block :=
  ((b.mapE e (Engine.awaits k)).nakOff q t).flwShow

section
variable (b : Block) (q : Batch) (e : Fin 16) (k : Fin 4) (t : Nat)

theorem nakOff_eq : b.nakOff q t =
    (b.heldFlight q t).1.tagDone q ((b.heldFlight q t).1.batchStatus (b.heldFlight q t).2 true) t := rfl

theorem heldFlight_heldTo : b.heldTo (b.heldFlight q t).1 := holdOff_heldTo _ _ b

theorem nakOff_flw : (b.nakOff q t).flw = (b.heldFlight q t).1.flw := by
  rw [nakOff_eq]
  exact only_flw (tagDone_only _ _ _ _) (by simp)

theorem nakOff_queue : (b.nakOff q t).flw.queue = b.flw.queue := by
  rw [nakOff_flw]
  exact (heldFlight_heldTo b q t).queue

/-- The records of the batch are held with reason OFF, and no other. -/
theorem nakOff_rec (j : Nat) : (b.nakOff q t).rec_ j =
    if q.first ≤ j ∧ j < q.first + q.count then { b.rec_ j with r1 := heldRes 7 } else b.rec_ j := by
  have hmem : j ∈ (List.range q.count).map (· + q.first) ↔ q.first ≤ j ∧ j < q.first + q.count := by
    simp only [List.mem_map, List.mem_range]
    exact ⟨fun ⟨i, hi, hj⟩ => by omega, fun hj => ⟨j - q.first, by omega, by omega⟩⟩
  rw [rec_congr (b.heldFlight q t).1 (congrArg FlwSt.recs (nakOff_flw b q t)), Block.heldFlight, holdOff_rec]
  simp only [hmem]

theorem nakOff_changes : b.changes flwTouch [.flw, .eng, .host, .out] (b.nakOff q t) := by
  rw [nakOff_eq]
  exact changes_part (changes_mono (heldFlight_heldTo b q t).changes (fun _ h => h) (by simp)) rfl
    (only_mono (tagDone_only _ _ _ _) (by simp))

variable {q e k} in
theorem nakOff_becomes (he : q.eng = e.val) (hk : q.tag = k.val) (hr : (b.eng[e]).tagRun = q.run) :
    ∃ w : Word, w.toNat % 16 = 1 ∧ b.becomes e ((b.eng[e]).tagged k w t) (b.nakOff q t) := by
  have heng : (b.heldFlight q t).1.eng = b.eng := only_eng (heldFlight_heldTo b q t).changes.2 (by simp)
  refine ⟨(b.heldFlight q t).1.batchStatus (b.heldFlight q t).2 true, batchStatus_off _ _, ?_⟩
  rw [nakOff_eq]
  have hdone := tagDone_eq (b.heldFlight q t).1 he hk (by rw [heng]; exact hr)
    ((b.heldFlight q t).1.batchStatus (b.heldFlight q t).2 true) t
  rw [heng] at hdone
  exact becomes_from hdone heng

variable {q e k} in
theorem camqOff_becomes (he : q.eng = e.val) (hk : q.tag = k.val) (hr : (b.eng[e]).tagRun = q.run) :
    ∃ w : Word, w.toNat % 16 = 1 ∧ b.becomes e (((b.eng[e]).awaits k).tagged k w t) (b.camqOff q e k t) := by
  have hmap := becomes_mapE b e (Engine.awaits k)
  obtain ⟨w, hw, hoff⟩ := nakOff_becomes (b.mapE e (Engine.awaits k)) t he hk (by rw [hmap.1]; exact hr)
  rw [hmap.1] at hoff
  exact ⟨w, hw, becomes_of_eng (becomes_trans hmap hoff) (only_eng (flwShow_only _) (by simp))⟩

theorem camqOff_changes : b.changes flwTouch [.flw, .eng, .host, .out] (b.camqOff q e k t) := by
  have hmap := changes_mapE (changes_refl flwTouch [.flw, .eng, .host, .out] b) e (Engine.awaits k) (by simp)
  exact changes_trans (changes_trans hmap (nakOff_changes _ q t))
    (changes_mono (flwShow_flwRegs _ _) (fun _ => flwTouch_of_flwRegs) (List.Subset.refl _))

theorem camqOff_flw : (b.camqOff q e k t).flw = ((b.mapE e (Engine.awaits k)).nakOff q t).flw := flwShow_flw _

theorem camqOff_rec (j : Nat) : (b.camqOff q e k t).rec_ j =
    if q.first ≤ j ∧ j < q.first + q.count then { b.rec_ j with r1 := heldRes 7 } else b.rec_ j := by
  rw [rec_congr ((b.mapE e (Engine.awaits k)).nakOff q t) (congrArg FlwSt.recs (camqOff_flw b q e k t)), nakOff_rec]
  rfl

theorem camqOff_queue : (b.camqOff q e k t).flw.queue = b.flw.queue := by
  rw [camqOff_flw, nakOff_queue, Block.mapE_flw]

end

section
variable {s : State} {e : Fin 16} {f : FormD} {k : Fin 4} (h : s.blk.stands e (encodeD Op.camq.code f) (checkD .camq f) f.psel)
  (hk : k.val = f.sel.toNat % 4)

include hk

/-- The command of CAMQ is what `camqAct` says of it. -/
theorem camq_acts : ∃ act, exec (.camq e f .none) s = runD .camq e f .none act s ∧
    act (s.blk.atFirst e) = camqAct e f k (camqBatch s.blk e f) (s.blk.atFirst e) := by
  refine ⟨_, rfl, ?_⟩
  simp only [← hk, tag_getD, outstanding_eq, atFirst_phys]
  unfold camqAct camqBatch
  simp only [atFirst_phys, atFirst_eng, hk]

include h

theorem camq_traps (hlast : 262144 < f.imm.toNat / 2 ^ 14 % 2 ^ 18 + (f.imm.toNat / 4 % 2 ^ 12 + 1)) :
    ∃ t, exec (.camq e f .none) s = .next t ∧ Trapped e 7 s t := by
  obtain ⟨act, hexec, hact⟩ := camq_acts (s := s) (e := e) (f := f) hk
  rw [hexec]
  exact runD_trap h (by decide) (hact.trans (if_pos hlast))

variable (hlast : f.imm.toNat / 2 ^ 14 % 2 ^ 18 + (f.imm.toNat / 4 % 2 ^ 12 + 1) ≤ 262144)
include hlast

omit h in
/-- Within the records, CAMQ looks at its tag. -/
theorem camqAct_within : ∃ act, exec (.camq e f .none) s = runD .camq e f .none act s ∧ act (s.blk.atFirst e) =
    if (s.blk.eng[e]).tags[k] ≠ .free then putSf e f.sf false 12 (s.blk.atFirst e)
    else if s.blk.flwStopped then putSf e f.sf true 12
      ((((s.blk.atFirst e).mapE e (Engine.awaits k)).nakOff (camqBatch s.blk e f) (s.blk.firstTick e + 12 * tick)).flwShow)
    else if 16 ≤ ((s.blk.atFirst e).dispatchTo (some (camqBatch s.blk e f).at_)).flw.queue.length then
      putSf e f.sf false 12 ((s.blk.atFirst e).dispatchTo (some (camqBatch s.blk e f).at_))
    else putSf e f.sf true 12 (((((s.blk.atFirst e).dispatchTo (some (camqBatch s.blk e f).at_)).mapE e (Engine.awaits k)).enqueueIn
      (camqBatch s.blk e f)).flwShow) := by
  obtain ⟨act, hexec, hact⟩ := camq_acts (s := s) (e := e) (f := f) hk
  refine ⟨act, hexec, hact.trans ?_⟩
  have hin : ¬ 262144 < (camqBatch s.blk e f).first + (camqBatch s.blk e f).count := Nat.not_lt.mpr hlast
  rw [camqAct, if_neg hin, atFirst_eng, atFirst_flwStopped, atFirst_phys]

theorem camq_refuses (hno : (s.blk.eng[e]).tags[k] ≠ .free ∨
      s.blk.flwStopped = false ∧ s.blk.flw.flight.any Flight.busy = false ∧ 16 ≤ s.blk.flw.queue.length) :
    ∃ t, exec (.camq e f .none) s = .next t ∧ Computes e (fun x => x.wf f.sf false) 12 s t := by
  obtain ⟨act, hexec, hact⟩ := camqAct_within hk hlast
  rw [hexec]
  by_cases htag : (s.blk.eng[e]).tags[k] = .free
  case neg => exact runD_sf h (hact.trans (if_pos htag))
  obtain ⟨hrun, hbusy, hfull⟩ := hno.resolve_left (not_not_intro htag)
  rw [dispatchTo_idle (by rwa [atFirst_flw]), atFirst_flw, if_neg (not_not_intro htag), hrun, if_neg Bool.false_ne_true,
    if_pos hfull] at hact
  exact runD_sf h hact

variable (htag : (s.blk.eng[e]).tags[k] = .free)
include htag

theorem camq_stopped (hstop : s.blk.flwStopped = true) :
    ∃ t, exec (.camq e f .none) s = .next t ∧ (∃ w, (t.blk.eng[e]).tags[k] = .done w ∧ w.toNat % 16 = 1) ∧
      (∀ i, (camqBatch s.blk e f).first ≤ i → i < (camqBatch s.blk e f).first + (camqBatch s.blk e f).count →
        t.blk.rec_ i = { s.blk.rec_ i with r1 := heldRes 7 }) ∧
      (∀ i, (i < (camqBatch s.blk e f).first ∨ (camqBatch s.blk e f).first + (camqBatch s.blk e f).count ≤ i) →
        t.blk.rec_ i = s.blk.rec_ i) ∧
      t.blk.flw.queue = s.blk.flw.queue ∧ (t.blk.eng[e]).pc = (s.blk.eng[e]).pc + 1 ∧
      (∀ m : Fin 16, m ≠ e → t.blk.eng[m] = s.blk.eng[m]) ∧
      FrameOn (fun a => flwTouch a) [.flw, .eng, .tm, .trc, .host, .out] s t := by
  obtain ⟨act, hexec, hact⟩ := camqAct_within hk hlast
  rw [if_neg (not_not_intro htag), hstop, if_pos rfl] at hact
  have hrun : ((s.blk.atFirst e).eng[e]).tagRun = (camqBatch s.blk e f).run := by
    rw [atFirst_eng]
    rfl
  obtain ⟨w, hw, hbec⟩ := camqOff_becomes (s.blk.atFirst e) (s.blk.firstTick e + 12 * tick) rfl hk.symm hrun
  rw [atFirst_eng] at hbec
  have hch : s.blk.changes (fun a => galTouch a || flwTouch a) ([.eng, .tm, .trc, .host, .out] ++ [.flw])
      ((s.blk.atFirst e).camqOff (camqBatch s.blk e f) e k (s.blk.firstTick e + 12 * tick)) :=
    changes_trans (changes_mono (atFirst_changes s.blk e _) (fun _ h => h) (by simp))
      (changes_mono (camqOff_changes _ _ e k _) (fun a ha => by simp only [ha, Bool.or_true]) (by simp))
  obtain ⟨t, ht, ⟨⟨r, hx⟩, hothers, hregs, honly, hpend⟩, hflw⟩ := runD_putSf_flw
    (g := fun x => (x.awaits k).tagged k w (s.blk.firstTick e + 12 * tick)) h hact (becomes_from hbec (atFirst_eng s.blk e)) rfl hch
  have hrec (i : Nat) := (rec_congr _ (congrArg FlwSt.recs hflw) i).trans (camqOff_rec (s.blk.atFirst e) _ e k _ i)
  have hold (i : Nat) : (s.blk.atFirst e).rec_ i = s.blk.rec_ i := rec_congr _ (congrArg FlwSt.recs (atFirst_flw s.blk e)) i
  simp only [hold] at hrec
  rw [hexec]
  refine ⟨t, ht, ⟨w, ?_, hw⟩, fun i hlo hhi => (hrec i).trans (if_pos ⟨hlo, hhi⟩), fun i hi => (hrec i).trans (if_neg (by omega)), ?_, ?_,
    hothers, fun a ha => hregs a ?_, only_mono honly (by simp), hpend⟩
  · rw [hx, wf_tags]
    simp [Engine.tagged]
  · rw [hflw]
    exact (camqOff_queue _ _ e k _).trans (congrArg FlwSt.queue (atFirst_flw s.blk e))
  · rw [hx]
  · simp only [flwTouch, Bool.or_eq_false_iff] at ha
    simp only [flwTouch, ha, Bool.or_self]

/-- A batch that finds room is queued, and its tag is outstanding. -/
theorem camq_queues {regs : Nat → Bool} {ps : List Part} {b0 : Block} (hrun : s.blk.flwStopped = false)
    (h0 : b0 = (s.blk.atFirst e).dispatchTo (some (camqBatch s.blk e f).at_)) (hroom : b0.flw.queue.length < 16)
    (hch : s.blk.changes (fun a => galTouch a || regs a) ([.eng, .tm, .trc, .host, .out] ++ ps) b0)
    (hr : ∀ a, flwRegs a = true → regs a = true) (hp : .flw ∈ ps) :
    ∃ t, exec (.camq e f .none) s = .next t ∧
      Executed e (fun x => (x.awaits k).wf f.sf true) 12 ((s.blk.eng[e]).pc + 1) regs ps s t ∧
      t.blk.flw = (b0.enqueueIn (camqBatch s.blk e f)).flw := by
  obtain ⟨act, hexec, hact⟩ := camqAct_within hk hlast
  rw [← h0, if_neg (not_not_intro htag), hrun, if_neg Bool.false_ne_true, if_neg (Nat.not_le.mpr hroom)] at hact
  have heng : b0.eng = s.blk.eng := by rw [h0, dispatches_eng (dispatchTo_dispatches _ _), atFirst_eng]
  rw [hexec]
  obtain ⟨t, ht, hex, hflw⟩ := runD_putSf_flw (c := s.blk.camqIn b0 e f k) h hact (camqIn_becomes s.blk b0 e f k heng) rfl
    (camqIn_changes e f k hch (fun a ha => by simp only [hr a ha, Bool.or_true]) (by simp [hp]))
  exact ⟨t, ht, hex, hflw.trans (camqIn_flw _ _ _ _ _)⟩

theorem camq_enters (hrun : s.blk.flwStopped = false) (hbusy : s.blk.flw.flight.any Flight.busy = false)
    (hroom : s.blk.flw.queue.length < 16) :
    ∃ t, exec (.camq e f .none) s = .next t ∧
      Executed e (fun x => { x with tags := x.tags.set k .outstanding }.wf f.sf true) 12 ((s.blk.eng[e]).pc + 1)
        (within 0x300000 0x380000) [.flw] s t ∧
      t.blk.flw.queue = enqueueBatch (camqBatch s.blk e f) s.blk.flw.queue ∧
      t.blk.flw.recs = s.blk.flw.recs ∧ t.blk.flw.flight = s.blk.flw.flight := by
  have h0 := dispatchTo_idle (b := s.blk.atFirst e) (by rwa [atFirst_flw]) (some (camqBatch s.blk e f).at_)
  obtain ⟨t, ht, hex, hflw⟩ := camq_queues h hk hlast htag (regs := within 0x300000 0x380000) (ps := [.flw]) hrun h0.symm
    (by rwa [atFirst_flw]) (changes_mono (atFirst_changes s.blk e _) (fun _ h => h) (by simp)) (fun _ h => h) (by simp)
  refine ⟨t, ht, hex, ?_, ?_, ?_⟩
  · rw [hflw, Block.enqueueIn, atFirst_flw, hbusy]
    simp
  · rw [hflw, Block.enqueueIn, mapFlw_flw, atFirst_flw]
  · rw [hflw, Block.enqueueIn, mapFlw_flw, atFirst_flw]

theorem camq_enters_busy {b0 : Block} (hrun : s.blk.flwStopped = false)
    (h0 : b0 = (s.blk.atFirst e).dispatchTo (some (camqBatch s.blk e f).at_)) (hroom : b0.flw.queue.length < 16) :
    ∃ t, exec (.camq e f .none) s = .next t ∧ t.blk.flw.queue = (b0.enqueueIn (camqBatch s.blk e f)).flw.queue ∧
      (t.blk.eng[e]).tags = (s.blk.eng[e]).tags.set k .outstanding ∧ (t.blk.eng[e]).pc = (s.blk.eng[e]).pc + 1 ∧
      (t.blk.eng[e]).g = (s.blk.eng[e]).g ∧ (t.blk.eng[e]).data = (s.blk.eng[e]).data ∧
      (t.blk.eng[e]).readyAt = s.blk.firstTick e + 12 * tick ∧
      (∀ m : Fin 16, m ≠ e → t.blk.eng[m] = s.blk.eng[m]) ∧ t.pending = s.pending := by
  have hch : s.blk.changes (fun _ => true) ([.eng, .tm, .trc, .host, .out] ++ dispParts) b0 := by
    rw [h0]
    exact changes_trans (changes_mono (atFirst_changes s.blk e _) (fun _ h => h) (by simp))
      (changes_mono (dispatchTo_dispatches (s.blk.atFirst e) _) (fun _ h => h) (List.subset_append_right _ _))
  obtain ⟨t, ht, ⟨⟨r, hx⟩, hothers, -, -, hpend⟩, hflw⟩ := camq_queues h hk hlast htag (regs := fun _ => true) (ps := dispParts)
    hrun h0 hroom (changes_mono hch (fun _ _ => by simp) (List.Subset.refl _)) (fun _ _ => rfl) (by simp [dispParts])
  refine ⟨t, ht, congrArg FlwSt.queue hflw, ?_, ?_, ?_, ?_, ?_, hothers, hpend⟩
  · rw [hx]
    exact wf_tags _ _ _
  · rw [hx]
  · rw [hx]
    exact wf_g _ _ _
  · rw [hx]
    exact wf_data _ _ _
  · rw [hx]

end

end Sys2Proof.Machine
end

section
/-! BATCH_DISPATCH with one record and no flight before it (R208, R209). -/

namespace Sys2Proof.Machine

/-! ### A batch of one record begins dispatch -/

/-- The block at the instant from which the batch at the front is dispatched. -/
def Block.atDispatch (b : Block) (x : Batch) : Block := b.reachPhys (max x.at_ b.flw.freeAt)

/-- The flight of that batch. -/
def Block.flightOf (b : Block) (x : Batch) : Flight :=
  x.flight (b.atDispatch x).tm.phys ((b.atDispatch x).get FLW_SHED_LEVEL) []
    (decide ((b.atDispatch x).evalAllow ≤ (b.atDispatch x).flw.count))

/-- The block with the batch alone in flight. -/
def Block.inDispatch (b : Block) (x : Batch) : Block := (b.atDispatch x).mapFlw (fun w => { w with flight := [b.flightOf x] })

/-- A flight with its last record dispatched. -/
def Flight.placed (fl : Flight) : Flight := { fl with place := fl.place + 1, todo := [] }

/-- The block once a flight has dispatched its only record. -/
def Block.dispatchOne (b : Block) (fl : Flight) (i : Nat) : Block :=
  ((b.dispatchRec fl i).1.mapFlw (fun w => { w with
    queue := w.queue.drop 1, freeAt := (b.dispatchRec fl i).1.slotEnd (b.dispatchRec fl i).2.placed })).mapFlw
      (fun w => { w with flight := [(b.dispatchRec fl i).2.placed] })

theorem limit_reached {limit n : Nat} (h : n ≤ limit) : ((some limit).map (fun t => decide (t < n))).getD false = false := by
  simpa using h

section
variable {b : Block} {fl : Flight} {i limit : Nat}

theorem dispatchRecs_one (hslot : b.slotAt fl ≤ limit) :
    b.dispatchRecs fl (some limit) [i] = ((b.dispatchRec fl i).1, (b.dispatchRec fl i).2.placed) := by
  unfold Block.dispatchRecs
  rw [limit_reached hslot]
  generalize b.dispatchRec fl i = q
  obtain ⟨c, f1⟩ := q
  simp only [Bool.false_eq_true, if_false, Block.dispatchRecs, Flight.placed]

theorem dispatchTo_one (hfl : b.flw.flight = [fl]) (htodo : fl.todo = [i]) (hslot : b.slotAt fl ≤ limit) :
    b.dispatchTo (some limit) = b.dispatchOne fl i := by
  have hbusy : fl.busy = true := by simp [Flight.busy, htodo]
  have hlast : (b.dispatchRec fl i).2.placed.busy = false := rfl
  unfold Block.dispatchTo Block.mapBusy Block.dispatchOne
  simp only [hfl, List.reverse_singleton, hbusy, if_true, htodo, dispatchRecs_one hslot, hlast, Bool.false_eq_true, if_false,
    List.reverse_nil, List.nil_append]

end

section
variable {s : State} {x : Batch} {l : List Batch} (hq : s.blk.flw.queue = x :: l) (hf : s.blk.flw.flight = [])
  (hen : s.blk.flag FLW_CTL_EN = true)
include hq hf hen

theorem batchDispatch_first : exec (.batchDispatch [] []) s = leadsTo s ((s.blk.inDispatch x).flwRun.flwShow) := by
  have hidle : s.blk.dispatchTo none = s.blk := dispatchTo_idle (by rw [hf]; rfl) none
  have hflight : (s.blk.atDispatch x).flw.flight = [] := by
    rw [Block.atDispatch, only_flw (reachPhys_only _ _) (by simp), hf]
  have hrun : (s.blk.atDispatch x).flwRun = s.blk.atDispatch x := flwRun_empty hflight
  refine (exec_batchDispatch s).trans (done_leadsTo ?_)
  simp only [hidle, hq, hen, Bool.not_true, Bool.false_eq_true, if_false, Block.upsets]
  unfold Block.inDispatch Block.flightOf
  rw [Block.atDispatch] at hrun hflight ⊢
  simp only [hrun]
  unfold Block.mapFlw
  simp only [hflight, List.nil_append]

end

section
variable (b : Block) (x : Batch)

theorem mapFlw_regs (f : FlwSt → FlwSt) : (b.mapFlw f).regs = b.regs := rfl

theorem inDispatch_regs : (b.inDispatch x).regs = b.regs := by
  unfold Block.inDispatch Block.atDispatch
  exact (mapFlw_regs _ _).trans (by rw [reachPhys_withTm b, withTm_regs])

theorem inDispatch_flw : (b.inDispatch x).flw = { b.flw with flight := [b.flightOf x] } := by
  unfold Block.inDispatch
  rw [mapFlw_flw, Block.atDispatch, only_flw (reachPhys_only _ _) (by simp)]

theorem inDispatch_only : b.only [.flw, .tm] (b.inDispatch x) :=
  only_trans (c := b.atDispatch x) (only_mono (reachPhys_only b _) (by simp)) (by simp [Block.only, Block.inDispatch, Block.mapFlw])

theorem inDispatch_rec (i : Nat) : (b.inDispatch x).rec_ i = b.rec_ i := rec_congr _ (by rw [inDispatch_flw]) i

theorem inDispatch_start : (b.flightOf x).start = (b.inDispatch x).tm.phys := rfl

theorem inDispatch_phys : max x.at_ b.flw.freeAt ≤ (b.inDispatch x).tm.phys := reachPhys_le b _

theorem inDispatch_level : (b.flightOf x).level = b.get FLW_SHED_LEVEL := by
  show (b.atDispatch x).get FLW_SHED_LEVEL = _
  rw [Block.atDispatch, reachPhys_withTm, withTm_get]

theorem inDispatch_slotAt : (b.inDispatch x).slotAt (b.flightOf x) = (b.inDispatch x).tm.phys := by
  unfold Block.slotAt
  rw [inDispatch_start]
  show (b.inDispatch x).tm.phys + 8 * (0 / (b.inDispatch x).activeCells + 0) * tick = _
  rw [Nat.zero_div, Nat.add_zero, Nat.mul_zero, Nat.zero_mul, Nat.add_zero]

end

/-! ### A record that is held (R209) -/

section
variable {s : State} {x : Batch} {l : List Batch}

/-- The batch of one record is dispatched, and no result is due at once. -/
theorem batchDispatch_one (hq : s.blk.flw.queue = x :: l) (hf : s.blk.flw.flight = []) (hen : s.blk.flag FLW_CTL_EN = true)
    (hc : x.count = 1) {c : Block} {f1 : Flight} (hrec : (s.blk.inDispatch x).dispatchRec (s.blk.flightOf x) x.first = (c, f1))
    (hoff : f1.off = false) (hdue : ∀ y ∈ f1.results, c.tm.phys < y.due) :
    exec (.batchDispatch [] []) s = leadsTo s (((s.blk.inDispatch x).dispatchOne (s.blk.flightOf x) x.first).flwShow) ∧
      ((s.blk.inDispatch x).dispatchOne (s.blk.flightOf x) x.first).flw.flight = [f1.placed] := by
  have hflight : (s.blk.inDispatch x).flw.flight = [s.blk.flightOf x] := by rw [inDispatch_flw]
  have htodo : (s.blk.flightOf x).todo = [x.first] := by
    show (List.range x.count).map (· + x.first) = _
    rw [hc]
    simp
  have hone := dispatchTo_one hflight htodo (inDispatch_slotAt s.blk x).le
  have hshape : ((s.blk.inDispatch x).dispatchOne (s.blk.flightOf x) x.first).flw.flight = [f1.placed] := by
    rw [Block.dispatchOne, hrec]
    rfl
  have hquiet : ((s.blk.inDispatch x).dispatchOne (s.blk.flightOf x) x.first).flwQuiet := by
    intro y hy
    rw [hshape, List.mem_singleton] at hy
    rw [hy]
    refine ⟨rfl, hoff, ?_⟩
    rw [Block.dispatchOne, hrec]
    exact hdue
  refine ⟨(batchDispatch_first hq hf hen).trans (congrArg (fun d : Block => leadsTo s d.flwShow) ?_), hshape⟩
  exact (flwRun_settled (by rw [hflight]; simp) (by rwa [hone])).trans hone

/-- What the dispatch of the only record and the show leave of a frame. -/
theorem dispatchOne_changes {touch : Nat → Bool} {ps : List Part} {b c : Block} {fl : Flight} {i : Nat}
    (h : b.changes touch ps (c.dispatchRec fl i).1) (ht : ∀ a, flwRegs a = true → touch a = true) (hp : .flw ∈ ps) :
    b.changes touch ps (c.dispatchOne fl i).flwShow :=
  changes_trans (changes_mapFlw (changes_mapFlw h hp _) hp _) (changes_mono (flwShow_flwRegs _ ps) ht (List.Subset.refl _))

section
variable (b : Block) (fl : Flight) (i : Nat)

theorem dispatchOne_queue : (b.dispatchOne fl i).flwShow.flw.queue = (b.dispatchRec fl i).1.flw.queue.drop 1 :=
  (congrArg FlwSt.queue (flwShow_flw (b.dispatchOne fl i))).trans rfl

theorem dispatchOne_recs : (b.dispatchOne fl i).flwShow.flw.recs = (b.dispatchRec fl i).1.flw.recs :=
  (congrArg FlwSt.recs (flwShow_flw (b.dispatchOne fl i))).trans rfl

theorem dispatchOne_count : (b.dispatchOne fl i).flwShow.flw.count = (b.dispatchRec fl i).1.flw.count :=
  (congrArg FlwSt.count (flwShow_flw (b.dispatchOne fl i))).trans rfl

theorem dispatchOne_tm : (b.dispatchOne fl i).flwShow.tm = (b.dispatchRec fl i).1.tm :=
  (only_tm (flwShow_only (b.dispatchOne fl i)) (by simp)).trans rfl

theorem dispatchOne_eng : (b.dispatchOne fl i).flwShow.eng = (b.dispatchRec fl i).1.eng :=
  (only_eng (flwShow_only (b.dispatchOne fl i)) (by simp)).trans rfl

end

/-- A disabled record is held with reason DISABLED. -/
theorem dispatchRec_disabled {b : Block} {fl : Flight} {i : Nat} (h : (b.rec_ i).w2f FLW_WIN_W2_EN = 0) :
    b.dispatchRec fl i = b.hold fl i 1 := by
  have hwhy : b.holdReason (b.rec_ i) fl.level = some 1 := if_pos (.inl h)
  unfold Block.dispatchRec
  rw [hwhy]
  simp only [Block.request, if_true]

theorem dispatch_holds (hq : s.blk.flw.queue = x :: l) (hf : s.blk.flw.flight = []) (hen : s.blk.flag FLW_CTL_EN = true)
    (hc : x.count = 1) (hoff : (s.blk.rec_ x.first).w2f FLW_WIN_W2_EN = 0) :
    ∃ t, exec (.batchDispatch [] []) s = .next t ∧ t.blk.flw.queue = l ∧ max x.at_ s.blk.flw.freeAt ≤ t.blk.tm.phys ∧
      t.blk.rec_ x.first = { s.blk.rec_ x.first with r1 := heldRes 1 } ∧
      (∀ i, i ≠ x.first → t.blk.rec_ i = s.blk.rec_ i) ∧
      (∃ fl : Flight, t.blk.flw.flight = [fl] ∧ fl.b = x ∧ fl.held = 1 ∧ fl.evald = 0 ∧ fl.todo = [] ∧ fl.waiting = [] ∧
        fl.results = [] ∧ fl.start = t.blk.tm.phys) ∧
      FrameOn flwTouch [.flw, .tm, .host, .out] s t := by
  have hphys := inDispatch_phys s.blk x
  have hrec := dispatchRec_disabled (fl := s.blk.flightOf x) (b := s.blk.inDispatch x) (i := x.first) (by rwa [inDispatch_rec])
  have hheld := hold_heldTo (s.blk.inDispatch x) (s.blk.flightOf x) x.first 1
  have hmark (i : Nat) := hold_rec (s.blk.inDispatch x) (s.blk.flightOf x) x.first 1 i
  have htm : ((s.blk.inDispatch x).hold (s.blk.flightOf x) x.first 1).1.tm = (s.blk.inDispatch x).tm := only_tm hheld.changes.2 (by simp)
  obtain ⟨hexec, hflight⟩ := batchDispatch_one hq hf hen hc (hrec.trans rfl) rfl (fun y hy => absurd hy (List.not_mem_nil))
  have hch : s.blk.changes flwTouch [.flw, .tm, .host, .out] ((s.blk.inDispatch x).dispatchRec (s.blk.flightOf x) x.first).1 := by
    rw [hrec]
    exact changes_trans (changes_of_only (inDispatch_regs _ _) (only_mono (inDispatch_only _ _) (by simp)))
      (changes_mono hheld.changes (fun _ h => h) (by simp))
  have hshow := dispatchOne_changes hch (fun _ => flwTouch_of_flwRegs) (by simp)
  have hqueue := dispatchOne_queue (s.blk.inDispatch x) (s.blk.flightOf x) x.first
  have hrecs := rec_congr _ (dispatchOne_recs (s.blk.inDispatch x) (s.blk.flightOf x) x.first)
  have htime := dispatchOne_tm (s.blk.inDispatch x) (s.blk.flightOf x) x.first
  have hshown := flwShow_flw ((s.blk.inDispatch x).dispatchOne (s.blk.flightOf x) x.first)
  simp only [hrec, hheld.queue, hmark, htm, inDispatch_flw, inDispatch_rec, hq, List.drop_one, List.tail_cons] at hqueue hrecs htime
  refine leadsTo_intro hexec fun u => ?_
  generalize ((s.blk.inDispatch x).dispatchOne (s.blk.flightOf x) x.first).flwShow = d at *
  refine ⟨hqueue, ?_, (hrecs x.first).trans (if_pos rfl), fun i hi => (hrecs i).trans (if_neg hi),
    ⟨_, (congrArg FlwSt.flight hshown).trans hflight, rfl, rfl, rfl, rfl, rfl, rfl, ?_⟩, frameOn_intro hshow⟩
  · rw [Block.withTags_tm, htime]
    exact hphys
  · rw [Block.withTags_tm, htime]
    rfl

end

end Sys2Proof.Machine
end

section
/-! A record that is evaluated as it is dispatched (R201, R209, R210). -/

namespace Sys2Proof.Machine

/-! ### What an evaluation reads -/

section
variable {b c : Block}

theorem get_of_reg {f : Field} (h : c.reg f.addr = b.reg f.addr) : c.get f = b.get f := by rw [Block.get, h]; rfl

theorem flag_of_reg {f : Field} (h : c.reg f.addr = b.reg f.addr) : c.flag f = b.flag f := by rw [Block.flag, get_of_reg h]; rfl

/-- The registers of a table are read by its descriptor alone. -/
theorem camTab_congr {t : Nat} (ht : t < 1024) (h : ∀ a, 0x320000 ≤ a → a < 0x380000 → c.reg a = b.reg a) : c.camTab t = b.camTab t := by
  have ha : c.reg (FLW_TABA t) = b.reg (FLW_TABA t) := h _ (by simp only [FLW_TABA]; omega) (by simp only [FLW_TABA]; omega)
  have hb : c.reg (FLW_TABB t) = b.reg (FLW_TABB t) := h _ (by simp only [FLW_TABB]; omega) (by simp only [FLW_TABB]; omega)
  have hc : c.reg (FLW_TABC t) = b.reg (FLW_TABC t) := h _ (by simp only [FLW_TABC]; omega) (by simp only [FLW_TABC]; omega)
  simp only [Block.camTab, Block.geti, flag_of_reg (f := FLW_TABA_CYC t) ha, get_of_reg (f := FLW_TABA_ADDR t) ha,
    get_of_reg (f := FLW_TABA_NSEG t) ha, get_of_reg (f := FLW_TABB_XS t) hb, get_of_reg (f := FLW_TABC_YMOD t) hc]

theorem tabValid_congr {t : Nat} (ht : t < 1024) (h : ∀ a, 0x320000 ≤ a → a < 0x380000 → c.reg a = b.reg a) :
    c.flag (FLW_TABA_VALID t) = b.flag (FLW_TABA_VALID t) :=
  flag_of_reg (h _ (by simp only [FLW_TABA]; omega) (by simp only [FLW_TABA]; omega))

/-- An evaluation depends on the tables, the segment cache and Cavern. -/
theorem evaluate_congr (h : ∀ a, 0x320000 ≤ a → a < 0x380000 → c.reg a = b.reg a) (hcav : c.cav = b.cav)
    (hcache : c.flw.cache = b.flw.cache) (i : Nat) (r : Rec) (pm vm : Word) : c.evaluate i r pm vm = b.evaluate i r pm vm := by
  have htab : r.w2f FLW_WIN_W2_TAB < 1024 := fieldOf_lt _ _ _
  have hnext : r.w2f FLW_WIN_W2_NTAB < 1024 := fieldOf_lt _ _ _
  have hcached : c.cached = b.cached := by
    funext k
    simp only [Block.cached, Block.cavGet, Block.physWord, hcav, hcache]
  simp only [Block.evaluate, Block.tabUsable, camTab_congr htab h, camTab_congr hnext h, tabValid_congr htab h, tabValid_congr hnext h,
    hcached]
  rfl

/-- Why a record is held depends on the registers, the cycle and the count of evaluations. -/
theorem holdReason_congr (hregs : c.regs = b.regs) (hcyc : c.flw.cyc = b.flw.cyc) (hcount : c.flw.count = b.flw.count) (r : Rec)
    (level : Nat) : c.holdReason r level = b.holdReason r level := by
  have hget (f : Field) : c.get f = b.get f := by rw [Block.get, Block.reg, hregs]; rfl
  simp only [Block.holdReason, hcyc, hcount, Block.evalAllow, Block.activeCells, Block.periodNs, hget]
  rfl

theorem activeCells_of_holdReason {r : Rec} {level : Nat} (h : b.holdReason r level = none) : popcount (b.get FLW_STAT_ACTIVE) 8 ≠ 0 := by
  intro hno
  simp only [Block.holdReason, Block.activeCells, hno, or_true, if_true] at h
  (repeat' split at h) <;> exact Option.some_ne_none _ h

theorem retiring_congr (hret : c.retired = b.retired) (hstat : c.reg FLW_STAT = b.reg FLW_STAT) (k : Nat) :
    c.retiring k = b.retiring k := by
  simp only [Block.retiring, Block.isRetired, hret, get_of_reg (f := FLW_STAT_RETIRED) hstat]

theorem cellList_congr (hstat : c.reg FLW_STAT = b.reg FLW_STAT) (hprof : c.profile = b.profile)
    (hrest : c.flw.restore = b.flw.restore) : c.cellList = b.cellList := by
  simp only [Block.cellList, Block.cellMask, get_of_reg (f := FLW_STAT_RETIRED) hstat, hprof, hrest]

end

/-- A mask with a bit set has a lowest one. -/
theorem head_of_popcount {v : Nat} : ∀ {n : Nat}, popcount v n ≠ 0 → ∃ c, ((List.range n).filter (bitAt v)).head? = some c
  | 0, h => absurd rfl h
  | n + 1, h => by
    rw [List.range_succ, List.filter_append, List.head?_append]
    by_cases hlow : popcount v n = 0
    case neg =>
      obtain ⟨c, hc⟩ := head_of_popcount hlow
      exact ⟨c, by rw [hc]; rfl⟩
    case pos =>
      have hbit : bitAt v n = true := by
        rw [popcount, hlow, Nat.add_zero] at h
        by_contra hb
        simp [b2n, Bool.not_eq_true _ ▸ hb] at h
      cases ((List.range n).filter (bitAt v)).head? with
      | some c => exact ⟨c, rfl⟩
      | none => exact ⟨n, by simp [hbit]⟩

/-! ### The steps of an evaluation -/

section
variable (b : Block)

theorem evalCount_flw (n : Nat) : (b.evalCount n).flw = { b.flw with count := b.flw.count + n } := by simp [Block.evalCount]

theorem evalCount_changes (n : Nat) : b.changes cntTouch camParts (b.evalCount n) := by
  have hcnt : b.changes cntTouch camParts ((b.mapFlw (fun w => { w with count := w.count + n })).flwCount 0 n) :=
    changes_trans (changes_mapFlw (changes_refl _ _ b) (by simp [camParts]) _)
      (changes_mono (flwCount_counts _ (by decide) n) (fun _ h => h) (by simp [camParts]))
  exact changes_counted hcnt (fabCount_counted _ 8 n) (fun _ => cntTouch_of_galTouch) (by simp [camParts])

/-- Another cache, and nothing else of Flowstone's state. -/
def Block.cachesAs (b c : Block) : Prop := ∃ l, c.flw = { b.flw with cache := l }

theorem fetchKey_caches (k : Nat) : b.cachesAs (b.fetchKey k).1 := by
  have hread : ∀ (l : List Nat) (b : Block), (b.cavTouches l).flw = b.flw := by
    intro l
    induction l with
    | nil => exact fun _ => rfl
    | cons w r ih => exact fun b => (ih _).trans (only_flw (cavTouch_changes b w).2 (by simp [dmaParts]))
  unfold Block.fetchKey
  simp only
  split
  · exact ⟨b.flw.cache, by rw [fabCount_flw, hread]⟩
  · have hflw := (fabCount_flw (b.cavTouches (keyWords k)) 11 (keyWords k).length).trans (hread _ b)
    generalize (b.cavTouches (keyWords k)).fabCount 11 (keyWords k).length = c at hflw
    exact ⟨c.replace (k :: c.flw.cache.filter (· ≠ k)), by rw [mapFlw_flw, hflw]⟩

theorem prefetch_caches (o : EvalOut) (r : Rec) (vm : Word) : b.cachesAs (b.prefetch o r vm) := by
  unfold Block.prefetch
  split
  · exact ⟨b.flw.cache, rfl⟩
  split
  case h_2 => exact ⟨b.flw.cache, rfl⟩
  case h_1 k _ =>
    split
    · exact ⟨_, rfl⟩
    have hfetch := fetchKey_caches b k
    split
    case h_1 b1 a heq =>
      rw [heq] at hfetch
      obtain ⟨l, hl⟩ := hfetch
      exact ⟨l, by simpa [Block.camFault] using hl⟩
    case h_2 b1 heq =>
      rw [heq] at hfetch
      exact hfetch

theorem evalShown_flw (o : EvalOut) : ∃ l, (b.evalShown o).flw = { b.flw with count := b.flw.count + o.extra, cache := l } := by
  refine ⟨o.keys.foldl (fun c k => if c.contains k then k :: c.filter (· ≠ k) else c) b.flw.cache, ?_⟩
  unfold Block.evalShown
  (repeat' split) <;> simp [Block.camFault, evalCount_flw, Block.touchKeys]

/-- An evaluation that is complete has counted its further crossings; the records stand. -/
theorem evalDone_flw (fl : Flight) (r : Rec) (cell at_ : Nat) (o : EvalOut) :
    ∃ l, (b.evalDone fl r cell at_ o).1.flw = { b.flw with count := b.flw.count + o.extra, cache := l } := by
  obtain ⟨l, hl⟩ := evalShown_flw b o
  rw [evalDone_eq]
  simp only
  split
  · obtain ⟨m, hm⟩ := prefetch_caches (b.evalShown o) o r fl.b.vm
    exact ⟨m, by rw [hm, hl]⟩
  · exact ⟨l, by rw [flwCount_flw, hl]⟩

end

/-! ### A record goes into evaluation -/

/-- The block with a record requested, marked with the cycle, and counted. -/
def Block.evaluating (b : Block) (i : Nat) (pm : Word) : Block :=
  ((b.request i pm none).setRec i { (b.request i pm none).rec_ i with cyc := some (b.request i pm none).flw.cyc }).evalCount 1

section
variable (b : Block) (i : Nat) (pm : Word)

theorem request_none : b.request i pm none = (b.setRec i { b.rec_ i with u := some (sval (pm + (b.rec_ i).w3)) }).mapFlw
    (fun w => { w with demand := vmod w.demand ((b.rec_ i).w2f FLW_WIN_W2_PRI) (· + 1) }) := rfl

theorem request_rec : (b.request i pm none).rec_ i = { b.rec_ i with u := some (sval (pm + (b.rec_ i).w3)) } := by
  rw [request_none]
  exact setRec_rec b i _

theorem request_slotAt (fl : Flight) : (b.request i pm none).slotAt fl = b.slotAt fl := by
  have hcells : (b.request i pm none).activeCells = b.activeCells := rfl
  rw [Block.slotAt, hcells, Block.slotAt]

theorem evaluating_rec (j : Nat) : ((b.evaluating i pm).rec_ j).r0 = (b.rec_ j).r0 := by
  have hcnt : (b.evaluating i pm).rec_ j = ((b.request i pm none).setRec i
      { (b.request i pm none).rec_ i with cyc := some (b.request i pm none).flw.cyc }).rec_ j :=
    rec_congr _ (by rw [Block.evaluating, evalCount_flw]) j
  rw [hcnt]
  by_cases hj : j = i
  · rw [hj, setRec_rec, request_rec]
  · rw [setRec_rec_ne _ hj, request_none]
    exact congrArg Rec.r0 (setRec_rec_ne b hj _)

theorem evaluating_changes : b.changes cntTouch camParts (b.evaluating i pm) := by
  have hreq : b.changes cntTouch camParts (b.request i pm none) := by
    rw [request_none]
    exact changes_mapFlw (changes_mapFlw (changes_refl _ _ b) (by simp [camParts]) _) (by simp [camParts]) _
  exact changes_trans (changes_mapFlw hreq (by simp [camParts]) _) (evalCount_changes _ 1)

theorem evaluating_count : (b.evaluating i pm).flw.count = b.flw.count + 1 := by
  rw [Block.evaluating, evalCount_flw]
  rfl

theorem evaluating_cache : (b.evaluating i pm).flw.cache = b.flw.cache := by
  rw [Block.evaluating, evalCount_flw]
  rfl

theorem evaluating_queue : (b.evaluating i pm).flw.queue = b.flw.queue := by
  rw [Block.evaluating, evalCount_flw]
  rfl

end

/-- Without check errors the first cell keeps a record. -/
theorem retries_none {b : Block} {c : Nat} (h : b.retiring c = false) (n : Nat) : b.retries (n + 1) c 0 = (b, some c) := by
  unfold Block.retries
  rw [if_pos (by simp [h])]

/-- A record that nothing holds and whose segments are cached is evaluated on the first active cell. -/
theorem dispatchRec_evaluates {b : Block} {fl : Flight} {i c : Nat} {o : EvalOut} (hwhy : b.holdReason (b.rec_ i) fl.level = none)
    (hchk : fl.chk = []) (hfirst : fl.evald = 0) (hret : ∀ k, b.retiring k = false) (hcell : b.cellList.head? = some c)
    (heval : b.evaluate i { b.rec_ i with u := some (sval (fl.b.pm + (b.rec_ i).w3)) } fl.b.pm fl.b.vm = .inl o) :
    b.dispatchRec fl i = (b.evaluating i fl.b.pm).evalDone { fl with evald := fl.evald + 1 }
      { b.rec_ i with u := some (sval (fl.b.pm + (b.rec_ i).w3)) } c (b.slotAt fl) o := by
  have hch := evaluating_changes b i fl.b.pm
  have hstat : (b.evaluating i fl.b.pm).reg FLW_STAT = b.reg FLW_STAT := hch.1 _ (by decide)
  have hretired : (b.evaluating i fl.b.pm).retired = b.retired := by
    have honly := hch.2
    simp only [Block.only, camParts] at honly
    simp_all
  have hcav : (b.evaluating i fl.b.pm).cav = b.cav := only_cav hch.2 (by simp [camParts])
  have hkeep := retries_none ((retiring_congr hretired hstat c).trans (hret c)) 7
  have hcells : (b.request i fl.b.pm none).cellList = b.cellList := rfl
  have hhead : ((b.cellList)[fl.evald % b.cellList.length]?).getD 0 = c := by
    rw [hfirst, Nat.zero_mod, ← List.head?_eq_getElem?, hcell]
    rfl
  have hinl := (evaluate_congr (fun a hlo hhi => hch.1 a ?_) hcav (evaluating_cache b i fl.b.pm) i
    { b.rec_ i with u := some (sval (fl.b.pm + (b.rec_ i).w3)) } fl.b.pm fl.b.vm).trans heval
  · unfold Block.dispatchRec
    rw [hwhy]
    rw [← request_slotAt b i fl.b.pm fl]
    unfold Block.evaluating at hkeep hinl ⊢
    simp only [hcells, hhead, hchk, List.count_nil, Nat.zero_add]
    simp only [request_rec] at hkeep hinl ⊢
    rw [hkeep]
    simp only [hinl]
  · simp only [cntTouch, within, galTouch, STS_HALFSUM, EVT_PEND, EVT_OVR]
    simp
    omega

theorem tick_pos : 0 < tick := by decide

/-- The end of a slot lies after its beginning. -/
theorem slot_ends (at_ n : Nat) : at_ < at_ + 8 * (1 + n) * tick :=
  Nat.lt_add_of_pos_right (Nat.mul_pos (by omega) tick_pos)

/-- The first result of a flight. -/
theorem withResult_first {fl : Flight} (hr : fl.results = []) (hx : fl.extra = 0) (c at_ : Nat) (o : EvalOut) :
    (fl.withResult c at_ o).placed.results = [⟨o.res, c, at_ + 8 * (1 + o.extra) * tick⟩] ∧
      (fl.withResult c at_ o).placed.extra = o.extra := by
  simp only [Flight.placed, Flight.withResult, hr, hx, List.nil_append, Nat.zero_add, and_self]

section
variable {s : State} {x : Batch} {l : List Batch} {o : EvalOut}

/-- A batch that has just begun dispatch finds its record as the block before it did. -/
theorem inDispatch_evaluates {c : Nat} (b : Block) (x : Batch)
    (hwhy : b.holdReason (b.rec_ x.first) (b.get FLW_SHED_LEVEL) = none) (hret : ∀ k, b.retiring k = false)
    (hcell : b.cellList.head? = some c)
    (heval : b.evaluate x.first { b.rec_ x.first with u := some (sval (x.pm + (b.rec_ x.first).w3)) } x.pm x.vm = .inl o) :
    (b.inDispatch x).dispatchRec (b.flightOf x) x.first =
      ((b.inDispatch x).evaluating x.first x.pm).evalDone { b.flightOf x with evald := (b.flightOf x).evald + 1 }
        { b.rec_ x.first with u := some (sval (x.pm + (b.rec_ x.first).w3)) } c (b.inDispatch x).tm.phys o := by
  have hreg (a : Nat) : (b.inDispatch x).reg a = b.reg a := by rw [Block.reg, inDispatch_regs]; rfl
  have honly := inDispatch_only b x
  have hretired : (b.inDispatch x).retired = b.retired := by
    simp only [Block.only] at honly
    simp_all
  have hcav : (b.inDispatch x).cav = b.cav := only_cav honly (by simp)
  have hflw := inDispatch_flw b x
  have hprof : (b.inDispatch x).profile = b.profile := get_of_reg (hreg _)
  have hbatch : (b.flightOf x).b = x := rfl
  have hrec := dispatchRec_evaluates (b := b.inDispatch x) (fl := b.flightOf x) (i := x.first) (c := c) (o := o)
    (by rw [inDispatch_rec, inDispatch_level, holdReason_congr (inDispatch_regs b x) (by rw [hflw]) (by rw [hflw]), hwhy])
    rfl rfl (fun k => (retiring_congr hretired (hreg _) k).trans (hret k))
    ((congrArg List.head? (cellList_congr (hreg _) hprof (by rw [hflw]))).trans hcell)
    (by rw [inDispatch_rec, hbatch]; exact (evaluate_congr (fun a _ _ => hreg a) hcav (by rw [hflw]) _ _ _ _).trans heval)
  rwa [inDispatch_rec, inDispatch_slotAt, hbatch] at hrec

theorem dispatch_evaluates (hq : s.blk.flw.queue = x :: l) (hf : s.blk.flw.flight = []) (hen : s.blk.flag FLW_CTL_EN = true)
    (hc : x.count = 1) (hwhy : s.blk.holdReason (s.blk.rec_ x.first) (s.blk.get FLW_SHED_LEVEL) = none)
    (hret : ∀ c, s.blk.retiring c = false) (hact : s.blk.get FLW_STAT_ACTIVE = s.blk.cellMask)
    (heval : s.blk.evaluate x.first { s.blk.rec_ x.first with u := some (sval (x.pm + (s.blk.rec_ x.first).w3)) } x.pm x.vm = .inl o) :
    ∃ t, exec (.batchDispatch [] []) s = .next t ∧ t.blk.flw.queue = l ∧ max x.at_ s.blk.flw.freeAt ≤ t.blk.tm.phys ∧
      (∃ (fl : Flight) (c : Nat), t.blk.flw.flight = [fl] ∧ fl.b = x ∧ fl.evald = 1 ∧ fl.todo = [] ∧ fl.waiting = [] ∧
        s.blk.cellList.head? = some c ∧ fl.start = t.blk.tm.phys ∧
        fl.results = [⟨o.res, c, t.blk.tm.phys + 8 * (1 + o.extra) * tick⟩] ∧ fl.extra = o.extra) ∧
      t.blk.flw.count = s.blk.flw.count + 1 + o.extra ∧ (t.blk.rec_ x.first).r0 = (s.blk.rec_ x.first).r0 ∧
      t.blk.eng = s.blk.eng ∧ t.pending = s.pending := by
  have hcells : popcount s.blk.cellMask 8 ≠ 0 := by
    rw [← hact]
    exact activeCells_of_holdReason hwhy
  obtain ⟨c, hcell⟩ := head_of_popcount hcells
  have hphys := inDispatch_phys s.blk x
  have hrec := inDispatch_evaluates s.blk x hwhy hret hcell heval
  have hdone := evalDone_flw ((s.blk.inDispatch x).evaluating x.first x.pm) { s.blk.flightOf x with evald := (s.blk.flightOf x).evald + 1 }
    { s.blk.rec_ x.first with u := some (sval (x.pm + (s.blk.rec_ x.first).w3)) } c (s.blk.inDispatch x).tm.phys o
  have hdisp : (s.blk.inDispatch x).dispatches ((s.blk.inDispatch x).dispatchRec (s.blk.flightOf x) x.first).1 :=
    dispatchRec_dispatches _ _ _
  have hqueue := dispatchOne_queue (s.blk.inDispatch x) (s.blk.flightOf x) x.first
  have hr0 := rec_congr _ (dispatchOne_recs (s.blk.inDispatch x) (s.blk.flightOf x) x.first) x.first
  have hcount := dispatchOne_count (s.blk.inDispatch x) (s.blk.flightOf x) x.first
  have htime := dispatchOne_tm (s.blk.inDispatch x) (s.blk.flightOf x) x.first
  have hengs := dispatchOne_eng (s.blk.inDispatch x) (s.blk.flightOf x) x.first
  have hshown := flwShow_flw ((s.blk.inDispatch x).dispatchOne (s.blk.flightOf x) x.first)
  rw [evalDone_eq] at hrec hdone
  generalize (if o.why = 0 then _ else _ : Block) = d at hrec hdone
  obtain ⟨m, hdone⟩ := hdone
  simp only [hrec] at hqueue hr0 hcount htime hengs hdisp
  have htm := dispatches_tm hdisp
  obtain ⟨hresults, hextra⟩ := withResult_first (fl := { s.blk.flightOf x with evald := (s.blk.flightOf x).evald + 1 }) rfl rfl c
    (s.blk.inDispatch x).tm.phys o
  have hengd := (dispatches_eng hdisp).trans (only_eng (inDispatch_only s.blk x) (by simp))
  obtain ⟨hexec, hflight⟩ := batchDispatch_one hq hf hen hc hrec rfl fun y hy => by
    have hone : y ∈ [(⟨o.res, c, (s.blk.inDispatch x).tm.phys + 8 * (1 + o.extra) * tick⟩ : Slot)] := hresults ▸ hy
    rw [List.mem_singleton.mp hone, htm]
    exact slot_ends _ _
  refine leadsTo_intro hexec fun u => ?_
  generalize ((s.blk.inDispatch x).dispatchOne (s.blk.flightOf x) x.first).flwShow = t at *
  refine ⟨?_, ?_, ⟨_, c, (congrArg FlwSt.flight hshown).trans hflight, rfl, rfl, rfl, rfl, hcell, ?_, ?_, hextra⟩, ?_, ?_, ?_,
    rfl⟩
  · exact hqueue.trans (by rw [hdone, evaluating_queue, inDispatch_flw, hq]; rfl)
  · rw [Block.withTags_tm, htime, htm]
    exact hphys
  · rw [Block.withTags_tm, htime, htm]
    rfl
  · rw [Block.withTags_tm, htime, htm]
    exact hresults
  · exact hcount.trans (by rw [hdone, evaluating_count, inDispatch_flw])
  · refine (congrArg Rec.r0 hr0).trans ?_
    rw [rec_congr ((s.blk.inDispatch x).evaluating x.first x.pm) (by rw [hdone]), evaluating_rec, inDispatch_rec]
  · rw [Block.withTags_eng, hengs, hengd]

end

end Sys2Proof.Machine
end

section
/-! SEGMENT_FETCH_DONE with Cavern free of errors (R211, R214). -/

namespace Sys2Proof.Machine

/-! ### Reads of a Cavern that holds no error -/

/-- No word of Cavern holds a check error. -/
def Block.cavClean (b : Block) : Prop := b.cav.corr = [] ∧ b.cav.uncorr = []

section
variable {b c : Block} (h : b.cavClean)
include h

theorem cavClean_of_cav (hc : c.cav = b.cav) : c.cavClean := by rwa [Block.cavClean, hc]

theorem cavTouches_clean : ∀ l : List Nat, b.cavTouches l = b
  | [] => rfl
  | w :: r => by rw [Block.cavTouches, cavTouch_good h.1 h.2, cavTouches_clean r]

theorem fetchKey_clean (k : Nat) : (b.fetchKey k).2 = none ∧ b.changes flwTouch camParts (b.fetchKey k).1 := by
  have hgood : (keyWords k).find? b.cavBad = none := List.find?_eq_none.mpr fun w _ => by simp [Block.cavBad, h.2]
  have hread := changes_fabFlw (changes_refl flwTouch camParts b) 11 (keyWords k).length
  unfold Block.fetchKey
  simp only [cavTouches_clean h, hgood]
  exact ⟨trivial, changes_mapFlw hread (by simp [camParts]) _⟩

theorem prefetch_clean (o : EvalOut) (r : Rec) (vm : Word) : b.changes flwTouch camParts (b.prefetch o r vm) := by
  unfold Block.prefetch
  split
  · exact changes_refl _ _ b
  split
  case h_2 => exact changes_refl _ _ b
  case h_1 k _ =>
    split
    · exact changes_mapFlw (changes_refl _ _ b) (by simp [camParts]) _
    obtain ⟨hgood, hfetch⟩ := fetchKey_clean h k
    split
    case h_1 b1 a heq =>
      rw [heq] at hgood
      exact absurd hgood (Option.some_ne_none a)
    case h_2 b1 heq =>
      rw [heq] at hfetch
      exact hfetch

end

theorem camFault_changes {b : Block} {f : Field} (hf : flwRegs f.addr = true) (addr i : Nat) :
    b.changes flwTouch [.host, .out] (b.camFault f addr i) :=
  changes_raise (changes_put (changes_put (changes_putB (changes_refl _ _ b) (flwTouch_of_flwRegs hf)) (by decide)) (by decide))
    (fun _ => flwTouch_of_evTouch) (by simp)

theorem evalShown_changes (b : Block) (o : EvalOut) : b.changes flwTouch camParts (b.evalShown o) := by
  have hcount (c : Block) (i : Nat) (hi : i < 16) (n : Nat) : c.changes flwTouch camParts (c.flwCount i n) :=
    changes_mono (flwCount_changes c hi n) (fun _ h => h) (by simp [camParts])
  have hfault (c : Block) {f : Field} (hf : flwRegs f.addr = true) : c.changes flwTouch camParts (c.camFault f o.addr o.res.rec_) :=
    changes_mono (camFault_changes hf _ _) (fun _ h => h) (by simp [camParts])
  have heval : b.changes flwTouch camParts ((b.touchKeys o.keys).evalCount o.extra) :=
    changes_trans (changes_mapFlw (changes_refl _ _ b) (by simp [camParts]) _)
      (changes_mono (evalCount_changes _ _) (fun _ => flwTouch_of_cntTouch) (List.Subset.refl _))
  have hcnt := changes_fabFlw (changes_trans heval (hcount _ 3 (by decide) o.extra)) 9 o.keys.length
  unfold Block.evalShown
  simp only
  split
  · exact hcnt
  split
  · exact changes_trans (changes_trans hcnt (hcount _ 7 (by decide) 1)) (hfault _ (by decide))
  · exact changes_trans hcnt (hfault _ (by decide))

theorem evalDone_clean {b : Block} (h : b.cavClean) (fl : Flight) (r : Rec) (cell at_ : Nat) (o : EvalOut) :
    b.changes flwTouch camParts (b.evalDone fl r cell at_ o).1 := by
  have hshown := evalShown_changes b o
  rw [evalDone_eq]
  simp only
  split
  · exact changes_trans hshown (prefetch_clean (cavClean_of_cav h (only_cav hshown.2 (by simp [camParts]))) _ _ _)
  · exact changes_flwCount hshown (by simp [camParts]) (by decide) 1

/-! ### The segment arrives -/

/-- A flight whose only waiting record has its segment. -/
def Flight.served (fl : Flight) : Flight := { fl with waiting := [] }

section
variable {s : State} {fl : Flight} {m : Miss} {o : EvalOut} (hf : s.blk.flw.flight = [fl]) (hq : s.blk.flwQuiet)
  (hw : fl.waiting = [m]) (hclean : s.blk.cavClean)
  (heval : (s.blk.fetchKey m.key).1.evaluate m.rec_ m.r fl.b.pm fl.b.vm = .inl o)
include hf hw

theorem mapWaiting_only (y : Flight) : mapWaiting (fun _ => y) s.blk.flw.flight = [y] := by
  simp only [hf, mapWaiting, hw]
  rfl

include hq hclean heval

theorem segmentFetch_now : exec (.segmentFetchDone []) s =
    leadsTo s ((((s.blk.fetchKey m.key).1.evalDone fl.served m.r m.cell (s.blk.fetchKey m.key).1.tm.phys o).1.mapFlw
      (fun w => { w with flight := [fl.served.withResult m.cell (s.blk.fetchKey m.key).1.tm.phys o] })).flwShow) := by
  obtain ⟨hgood, -⟩ := fetchKey_clean hclean m.key
  obtain ⟨k, hcache⟩ := fetchKey_caches s.blk m.key
  have hfind : [fl].find? (fun x => !x.waiting.isEmpty) = some fl := by simp [hw]
  have hdone := evalDone_flw (s.blk.fetchKey m.key).1 fl.served m.r m.cell (s.blk.fetchKey m.key).1.tm.phys o
  refine (exec_segmentFetchDone s).trans (done_leadsTo ?_)
  simp only [flwRun_quiet hq, hf, hfind, hw, Block.upsets]
  generalize s.blk.fetchKey m.key = p at *
  obtain ⟨b1, bad⟩ := p
  dsimp only at hgood hcache heval hdone ⊢
  obtain ⟨n, hdone⟩ := hdone
  simp only [hgood, heval]
  unfold Flight.served at hdone ⊢
  rw [evalDone_eq] at hdone ⊢
  dsimp only at hdone ⊢
  generalize (if o.why = 0 then _ else _ : Block) = c at hdone ⊢
  have hflight : c.flw.flight = s.blk.flw.flight := by rw [hdone, hcache]
  unfold Block.mapFlw
  simp only [hflight, mapWaiting_only hf hw]

theorem segmentFetch_evaluates : ∃ t, exec (.segmentFetchDone []) s = .next t ∧
    (∃ y : Flight, t.blk.flw.flight = [y] ∧ y.waiting = [] ∧ y.b = fl.b ∧ y.extra = fl.extra + o.extra ∧
      y.results = fl.results ++ [⟨o.res, m.cell, s.blk.tm.phys + 8 * (1 + o.extra) * tick⟩]) ∧
    t.blk.cav = s.blk.cav ∧ t.blk.flw.recs = s.blk.flw.recs ∧ FrameOn flwTouch [.flw, .trc, .host, .out] s t := by
  have hnow := segmentFetch_now hf hq hw hclean heval
  obtain ⟨-, hfetch⟩ := fetchKey_clean hclean m.key
  obtain ⟨k, hcache⟩ := fetchKey_caches s.blk m.key
  generalize (s.blk.fetchKey m.key).1 = b1 at hnow hfetch hcache
  have htm : b1.tm = s.blk.tm := only_tm hfetch.2 (by simp [camParts])
  have hdone := evalDone_clean (cavClean_of_cav hclean (only_cav hfetch.2 (by simp [camParts]))) fl.served m.r m.cell
    b1.tm.phys o
  obtain ⟨n, hflw⟩ := evalDone_flw b1 fl.served m.r m.cell b1.tm.phys o
  generalize (b1.evalDone fl.served m.r m.cell b1.tm.phys o).1 = b2 at hnow hdone hflw
  have hch : s.blk.changes flwTouch camParts ((b2.mapFlw (fun w => { w with flight := [fl.served.withResult m.cell b1.tm.phys o] })).flwShow) :=
    changes_trans (changes_mapFlw (changes_trans hfetch hdone) (by simp [camParts]) _)
      (changes_mono (flwShow_flwRegs _ camParts) (fun _ => flwTouch_of_flwRegs) (List.Subset.refl _))
  have hrecs : b2.flw.recs = s.blk.flw.recs := by rw [hflw, hcache]
  have hshown := flwShow_flw (b2.mapFlw (fun w => { w with flight := [fl.served.withResult m.cell b1.tm.phys o] }))
  refine leadsTo_intro hnow fun u => ?_
  generalize ((b2.mapFlw (fun w => { w with flight := [fl.served.withResult m.cell b1.tm.phys o] })).flwShow) = d at *
  refine ⟨⟨fl.served.withResult m.cell b1.tm.phys o, ?_, rfl, rfl, rfl, ?_⟩, ?_, ?_, frameOn_intro hch⟩
  · rw [Block.withTags_flw, hshown]
    rfl
  · rw [htm]
    rfl
  · rw [Block.withTags_cav, only_cav hch.2 (by simp [camParts])]
  · rw [Block.withTags_flw, hshown]
    exact hrecs

end

end Sys2Proof.Machine
end

section
/-! BATCH_COMPLETE (R211, R212): the results of a batch are written and its tag is done. -/

namespace Sys2Proof.Machine

/-! ### The result of one record (R212, R216) -/

/-- A record with a result of its evaluation. -/
def SlotResult.newRec (x : SlotResult) (r : Rec) : Rec :=
  let r1 := match x.place with
    | some (s, x0, y0) => { r.setW2 FLW_WIN_W2_SIDX s with w0 := ofInt y0, w1 := ofInt x0 }
    | none => r
  let r2 := match x.sw with
    | some t => (r1.setW2 FLW_WIN_W2_TAB t).setW2 FLW_WIN_W2_SWP 0
    | none => r1
  let r3 := match x.state with
    | some st => if decide (r.w2f FLW_WIN_W2_EN = 1) then r2.setW2 FLW_WIN_W2_STATE st else r2
    | none => r2
  { r3 with r0 := x.pos.getD r3.r0, r1 := x.r1 }

/-- A result without a position leaves the position of its record. -/
theorem newRec_r0 (x : SlotResult) (r : Rec) : (x.newRec r).r0 = x.pos.getD r.r0 := by
  unfold SlotResult.newRec
  simp only
  congr 1
  (repeat' split) <;> rfl

/-- The block with the record of a result written, before its position is copied. -/
def Block.recordWritten (b : Block) (x : SlotResult) : Block :=
  let b1 := (b.setRec x.rec_ (x.newRec (b.rec_ x.rec_))).digFlow (Config.digestResult x.rec_ (x.newRec (b.rec_ x.rec_)).r0 x.r1)
  if x.state = some 1 ∧ decide ((b.rec_ x.rec_).w2f FLW_WIN_W2_EN = 1) then b1.queueSeek x.rec_ else b1

/-- The copy of a position into the data store of its engine, at an instant. -/
def Block.posCopied (b : Block) (eng at_ : Nat) (x : SlotResult) : Block :=
  match x.copy, x.pos with
  | some k, some p => ((b.clockAt at_).hwStore eng k p).toPresent (b.tm.phys - ((b.clockAt at_).hwStore eng k p).tm.phys)
  | _, _ => b

theorem writeResult_eq (b : Block) (eng at_ : Nat) (x : SlotResult) :
    b.writeResult eng at_ x = (b.recordWritten x).posCopied eng at_ x := rfl

section
variable (b : Block) (x : SlotResult)

theorem digFlow_only (l : List Byte) : b.only [.pair] (b.digFlow l) := by
  unfold Block.digFlow
  split
  · simp [Block.only]
  · exact only_refl _ _

theorem digFlow_regs (l : List Byte) : (b.digFlow l).regs = b.regs := by
  unfold Block.digFlow
  split <;> rfl

theorem digFlow_flw (l : List Byte) : (b.digFlow l).flw = b.flw := only_flw (digFlow_only b l) (by simp)

theorem queueSeek_regs (i : Nat) : (b.queueSeek i).regs = b.regs := by
  unfold Block.queueSeek
  split <;> rfl

theorem queueSeek_only (i : Nat) : b.only [.flw] (b.queueSeek i) := by
  unfold Block.queueSeek
  split
  · exact only_refl _ _
  · simp [Block.only, Block.mapFlw]

theorem recordWritten_regs : (b.recordWritten x).regs = b.regs := by
  unfold Block.recordWritten
  simp only
  split
  · rw [queueSeek_regs, digFlow_regs]
    rfl
  · rw [digFlow_regs]
    rfl

theorem recordWritten_only : b.only [.flw, .pair] (b.recordWritten x) := by
  have hset (r : Rec) : b.only [.flw, .pair] (b.setRec x.rec_ r) := by simp [Block.only, Block.setRec, Block.mapFlw]
  have hdig (r : Rec) (l : List Byte) := only_trans (hset r) (only_mono (digFlow_only _ l) (by simp))
  unfold Block.recordWritten
  simp only
  split
  · exact only_trans (hdig _ _) (only_mono (queueSeek_only _ _) (by simp))
  · exact hdig _ _

theorem recordWritten_flight : (b.recordWritten x).flw.flight = b.flw.flight := by
  unfold Block.recordWritten
  simp only
  split
  · rw [(queueSeek_heldTo _ _).1.flight, digFlow_flw]
    rfl
  · rw [digFlow_flw]
    rfl

theorem recordWritten_rec (i : Nat) :
    (b.recordWritten x).rec_ i = if i = x.rec_ then x.newRec (b.rec_ x.rec_) else b.rec_ i := by
  have hrecs : (b.recordWritten x).flw.recs = (b.setRec x.rec_ (x.newRec (b.rec_ x.rec_))).flw.recs := by
    unfold Block.recordWritten
    simp only
    split
    · rw [(queueSeek_heldTo _ _).2, digFlow_flw]
    · rw [digFlow_flw]
  rw [rec_congr _ hrecs]
  split
  case isTrue h => rw [h, setRec_rec]
  case isFalse h => exact setRec_rec_ne b h _

end

/-! ### The copy of the position (R212) -/

/-- What the copy of a position makes of its engine. -/
def SlotResult.copyTo (x : SlotResult) (at_ : Nat) (y : Engine) : Engine :=
  match x.copy, x.pos with
  | some k, some p => y.hwStore at_ k p
  | _, _ => y

section
variable (b : Block) (e : Fin 16) (at_ : Nat) (x : SlotResult)

theorem posCopied_becomes : b.becomes e (x.copyTo at_ b.eng[e]) (b.posCopied e at_ x) := by
  unfold Block.posCopied SlotResult.copyTo
  split
  case h_1 k p _ _ =>
    have heng : (b.clockAt at_).eng = b.eng := by rw [clockAt_withTm, withTm_eng]
    have hstore := blockHwStore_becomes (b.clockAt at_) e k p
    rw [clockAt_phys, heng] at hstore
    exact becomes_of_eng (becomes_from hstore heng) rfl
  case h_2 => exact becomes_refl b e

theorem posCopied_changes (touch : Nat → Bool) : b.changes touch [.eng, .pair, .tm] (b.posCopied e at_ x) := by
  unfold Block.posCopied
  split
  case h_2 => exact changes_refl _ _ b
  case h_1 k p _ _ =>
    have hclock : b.changes touch [.eng, .pair, .tm] (b.clockAt at_) := by
      rw [clockAt_withTm]
      exact changes_of_only (withTm_regs _ _) (only_mono (withTm_only _ _) (by simp))
    have hstore := changes_part hclock (blockHwStore_regs _ e k p) (only_mono (blockHwStore_only _ e k p) (by simp))
    rw [toPresent_withTm]
    exact changes_part hstore (withTm_regs _ _) (only_mono (withTm_only _ _) (by simp))

/-- A copy at an instant that is past leaves the present. -/
theorem posCopied_phys (h : at_ ≤ b.tm.phys) : (b.posCopied e at_ x).tm.phys = b.tm.phys := by
  unfold Block.posCopied
  split
  case h_2 => rfl
  case h_1 k p _ _ =>
    have htm : ((b.clockAt at_).hwStore e k p).tm.phys = at_ := by
      rw [only_tm (blockHwStore_only _ e k p) (by simp), clockAt_phys]
    show ((b.clockAt at_).hwStore e k p).tm.phys + (b.tm.phys - ((b.clockAt at_).hwStore e k p).tm.phys) = _
    rw [htm]
    omega

variable (y : Engine)

theorem copyTo_load {a : Nat} {p : Word} (hc : x.copy = some a) (hp : x.pos = some p) : (x.copyTo at_ y).hwLoad at_ a = p := by
  rw [SlotResult.copyTo, hc, hp]
  exact hwStore_load_same _ _ _ _

theorem copyTo_none (hc : x.copy = none) : x.copyTo at_ y = y := by rw [SlotResult.copyTo, hc]

theorem hwStore_tagRun (t k : Nat) (v : Word) : (y.hwStore t k v).tagRun = y.tagRun := by
  unfold Engine.hwStore
  simp only
  (repeat' split) <;> rfl

theorem copyTo_tagRun : (x.copyTo at_ y).tagRun = y.tagRun := by
  unfold SlotResult.copyTo
  split
  · exact hwStore_tagRun _ _ _ _
  · rfl

end

/-! ### A batch completes -/

/-- The block at the instant at which its only batch completes, which is in flight no more. -/
def Block.completing (b : Block) (t : Nat) : Block := (b.reachPhys t).mapFlw (fun w => { w with flight := [] })

section
variable (b : Block) (t : Nat)

theorem completing_regs : (b.completing t).regs = b.regs :=
  (mapFlw_regs _ _).trans (by rw [reachPhys_withTm b, withTm_regs])

theorem completing_only : b.only [.flw, .tm] (b.completing t) :=
  only_trans (c := b.reachPhys t) (only_mono (reachPhys_only b _) (by simp)) (by simp [Block.only, Block.completing, Block.mapFlw])

theorem completing_recs : (b.completing t).flw.recs = b.flw.recs := by
  rw [Block.completing, mapFlw_flw, only_flw (reachPhys_only _ _) (by simp)]

theorem completing_phys : t ≤ (b.completing t).tm.phys := reachPhys_le b t

end

section
variable (b : Block) (e : Fin 16) (at_ : Nat) (x : SlotResult)

/-- The result of a record touches no register. -/
theorem writeResult_changes (touch : Nat → Bool) : b.changes touch [.flw, .eng, .tm, .pair] (b.writeResult e at_ x) := by
  have hrec : b.changes touch [.flw, .eng, .tm, .pair] (b.recordWritten x) :=
    changes_of_only (recordWritten_regs b x) (only_mono (recordWritten_only b x) (by simp))
  rw [writeResult_eq]
  exact changes_trans hrec (changes_mono (posCopied_changes _ e at_ x touch) (fun _ h => h) (by simp))

theorem writeResult_becomes : b.becomes e (x.copyTo at_ b.eng[e]) (b.writeResult e at_ x) := by
  have heng : (b.recordWritten x).eng = b.eng := only_eng (recordWritten_only b x) (by simp)
  have hcopy := posCopied_becomes (b.recordWritten x) e at_ x
  rw [heng] at hcopy
  rw [writeResult_eq]
  exact becomes_from hcopy heng

theorem writeResult_phys (h : at_ ≤ b.tm.phys) : (b.writeResult e at_ x).tm.phys = b.tm.phys := by
  have htm : (b.recordWritten x).tm = b.tm := only_tm (recordWritten_only b x) (by simp)
  rw [writeResult_eq, posCopied_phys _ _ _ _ (by rwa [htm]), htm]

theorem writeResult_flw : (b.writeResult e at_ x).flw = (b.recordWritten x).flw := by
  rw [writeResult_eq]
  exact only_flw (posCopied_changes _ e at_ x flwRegs).2 (by simp)

theorem writeResult_flight : (b.writeResult e at_ x).flw.flight = b.flw.flight := by rw [writeResult_flw, recordWritten_flight]

theorem writeResult_rec (i : Nat) : (b.writeResult e at_ x).rec_ i = if i = x.rec_ then x.newRec (b.rec_ x.rec_) else b.rec_ i := by
  rw [rec_congr _ (congrArg FlwSt.recs (writeResult_flw b e at_ x)), recordWritten_rec]

variable {b} in
theorem batchStatus_congr {c : Block} (h : c.reg FLW_STAT = b.reg FLW_STAT) (fl : Flight) (off : Bool) :
    c.batchStatus fl off = b.batchStatus fl off := by
  simp only [Block.batchStatus, Block.activeCells, get_of_reg (f := FLW_STAT_ACTIVE) h]

end

/-- The block with the one result of a batch written and its tag done. -/
def Block.batchDone (c : Block) (e : Fin 16) (fl : Flight) (y : Slot) : Block :=
  (c.writeResult e (min y.due c.tm.phys) y.res).tagDone fl.b ((c.writeResult e (min y.due c.tm.phys) y.res).batchStatus fl false)
    (c.writeResult e (min y.due c.tm.phys) y.res).tm.phys

section
variable (c : Block) (e : Fin 16) (fl : Flight) (y : Slot)

theorem batchDone_flw : (c.batchDone e fl y).flw = (c.writeResult e (min y.due c.tm.phys) y.res).flw :=
  only_flw (tagDone_only _ _ _ _) (by simp)

theorem batchDone_rec (i : Nat) : (c.batchDone e fl y).rec_ i = if i = y.res.rec_ then y.res.newRec (c.rec_ y.res.rec_) else c.rec_ i := by
  rw [rec_congr _ (congrArg FlwSt.recs (batchDone_flw c e fl y)), writeResult_rec]

theorem batchDone_tm : (c.batchDone e fl y).tm.phys = c.tm.phys := by
  rw [Block.batchDone, only_tm (tagDone_only _ _ _ _) (by simp), writeResult_phys _ _ _ _ (Nat.min_le_right _ _)]

theorem batchDone_changes : c.changes flwRegs [.flw, .eng, .tm, .pair] (c.batchDone e fl y) :=
  changes_part (writeResult_changes c e _ y.res flwRegs) rfl (only_mono (tagDone_only _ _ _ _) (by simp))

theorem batchDone_becomes {k : Fin 4} (he : fl.b.eng = e.val) (hk : fl.b.tag = k.val) (hr : (c.eng[e]).tagRun = fl.b.run) :
    c.becomes e ((y.res.copyTo (min y.due c.tm.phys) c.eng[e]).tagged k (c.batchStatus fl false) c.tm.phys) (c.batchDone e fl y) := by
  have hwritten := writeResult_becomes c e (min y.due c.tm.phys) y.res
  have hstat := (writeResult_changes c e (min y.due c.tm.phys) y.res (fun _ => false)).1 FLW_STAT rfl
  have hrun : ((c.writeResult e (min y.due c.tm.phys) y.res).eng[e]).tagRun = fl.b.run := by rw [hwritten.1, copyTo_tagRun, hr]
  have hphys := writeResult_phys c e _ y.res (Nat.min_le_right y.due c.tm.phys)
  unfold Block.batchDone
  rw [batchStatus_congr hstat, hphys]
  generalize c.writeResult e (min y.due c.tm.phys) y.res = d at *
  have hdone := tagDone_eq d he hk hrun (c.batchStatus fl false) c.tm.phys
  rw [hwritten.1] at hdone
  exact becomes_trans hwritten hdone

end

section
variable {s : State} {fl : Flight} {y : Slot} {e : Fin 16} {k : Fin 4} (hf : s.blk.flw.flight = [fl]) (htodo : fl.todo = [])
  (hoff : fl.off = false) (hwait : fl.waiting = []) (hres : fl.results = [y]) (he : fl.b.eng = e.val)
include hf htodo hoff hwait hres he

theorem batchComplete_now {c : Block} (hc : s.blk.completing (s.blk.doneTime fl) = c) :
    exec .batchComplete s = leadsTo s ((c.batchDone e fl y).flwShow) := by
  have hidle : s.blk.dispatchTo none = s.blk := dispatchTo_idle (by rw [hf]; simp [Flight.busy, htodo]) none
  have hfind : [fl].find? (fun x => x.waiting.isEmpty) = some fl := by simp [hwait]
  have hflight : (c.batchDone e fl y).flw.flight = [] := by
    rw [batchDone_flw, writeResult_flight, ← hc]
    rfl
  have hdrop : (s.blk.reachPhys (s.blk.doneTime fl)).mapFlw (fun w => { w with flight := dropDone w.flight }) = c := by
    have hreach : (s.blk.reachPhys (s.blk.doneTime fl)).flw.flight = [fl] := by rw [only_flw (reachPhys_only _ _) (by simp), hf]
    rw [← hc]
    unfold Block.completing Block.mapFlw
    simp only [hreach, dropDone, hwait, List.isEmpty_nil, if_true]
  refine (exec_batchComplete s).trans (done_leadsTo ?_)
  simp only [hidle, hf, hfind, hoff, hres, he, Bool.false_eq_true, if_false, hdrop, Block.writeSlots]
  exact congrArg Block.flwShow (flwRun_empty hflight)

theorem batchComplete_writes {x : SlotResult} (hx : y.res = x) (hk : fl.b.tag = k.val) (hr : (s.blk.eng[e]).tagRun = fl.b.run) :
    ∃ t, exec .batchComplete s = .next t ∧ t.blk.flw.flight = [] ∧
      (t.blk.eng[e]).tags[k] = .done (s.blk.batchStatus fl false) ∧ s.blk.doneTime fl ≤ t.blk.tm.phys ∧
      (t.blk.eng[e]).doneAt[k] = t.blk.tm.phys ∧
      (t.blk.rec_ x.rec_).r1 = x.r1 ∧ (∀ p, x.pos = some p → (t.blk.rec_ x.rec_).r0 = p) ∧
      (x.pos = none → (t.blk.rec_ x.rec_).r0 = (s.blk.rec_ x.rec_).r0) ∧
      (∀ i, i ≠ x.rec_ → t.blk.rec_ i = s.blk.rec_ i) ∧
      (∀ a p, x.copy = some a → x.pos = some p → (t.blk.eng[e]).hwLoad (min y.due t.blk.tm.phys) a = p) ∧
      (x.copy = none → (t.blk.eng[e]).data = (s.blk.eng[e]).data) ∧
      (∀ m : Fin 16, m ≠ e → t.blk.eng[m] = s.blk.eng[m]) ∧
      FrameOn (within 0x300000 0x380000) [.flw, .eng, .tm, .pair] s t := by
  have hphys := completing_phys s.blk (s.blk.doneTime fl)
  have hregs := completing_regs s.blk (s.blk.doneTime fl)
  have honly := completing_only s.blk (s.blk.doneTime fl)
  have hrecs := completing_recs s.blk (s.blk.doneTime fl)
  have hflight : (s.blk.completing (s.blk.doneTime fl)).flw.flight = [] := rfl
  obtain ⟨c, hc⟩ : ∃ c, s.blk.completing (s.blk.doneTime fl) = c := ⟨_, rfl⟩
  have hexec := batchComplete_now hf htodo hoff hwait hres he hc
  rw [hc] at hphys hregs honly hrecs hflight
  generalize s.blk.doneTime fl = n at hphys ⊢
  have heng : c.eng = s.blk.eng := only_eng honly (by simp)
  obtain ⟨hx1, hothers⟩ := becomes_from (batchDone_becomes c e fl y he hk (by rw [heng]; exact hr)) heng
  have hch : s.blk.changes flwRegs [.flw, .eng, .tm, .pair] ((c.batchDone e fl y).flwShow) :=
    changes_trans (changes_trans (changes_of_only hregs (only_mono honly (by simp))) (batchDone_changes c e fl y)) (flwShow_flwRegs _ _)
  have hrec (i : Nat) := batchDone_rec c e fl y i
  have hnone : (c.batchDone e fl y).flw.flight = [] := by rw [batchDone_flw, writeResult_flight, hflight]
  have hshown := flwShow_flw (c.batchDone e fl y)
  have htm : (c.batchDone e fl y).flwShow.tm.phys = c.tm.phys := by rw [only_tm (flwShow_only _) (by simp), batchDone_tm]
  have hsame : (c.batchDone e fl y).flwShow.eng = (c.batchDone e fl y).eng := only_eng (flwShow_only _) (by simp)
  simp only [rec_congr _ hrecs, hx, heng] at hrec hx1
  rw [batchStatus_congr (b := s.blk) (by rw [Block.reg, hregs]; rfl)] at hx1
  have hrecord (i : Nat) := (rec_congr (c.batchDone e fl y) (congrArg FlwSt.recs hshown) i).trans (hrec i)
  generalize (c.batchDone e fl y).flwShow = d at *
  refine leadsTo_intro hexec fun u => ?_
  rw [← hsame] at hx1 hothers
  have hown : (d.rec_ x.rec_) = x.newRec (s.blk.rec_ x.rec_) := (hrecord x.rec_).trans (if_pos rfl)
  refine ⟨?_, ?_, ?_, ?_, ?_, ?_, ?_, ?_, ?_, ?_, ?_, frameOn_intro hch⟩
  · rw [Block.withTags_flw, hshown, hnone]
  · rw [Block.withTags_eng, hx1]
    simp [Engine.tagged]
  · rw [Block.withTags_tm, htm]
    exact hphys
  · rw [Block.withTags_eng, Block.withTags_tm, hx1, htm]
    simp [Engine.tagged]
  · exact congrArg Rec.r1 hown
  · intro p hp
    exact (congrArg Rec.r0 hown).trans (by rw [newRec_r0, hp]; rfl)
  · intro hp
    exact (congrArg Rec.r0 hown).trans (by rw [newRec_r0, hp]; rfl)
  · intro i hi
    exact (hrecord i).trans (if_neg hi)
  · intro a p ha hp
    rw [Block.withTags_eng, Block.withTags_tm, hx1, htm]
    exact copyTo_load _ x _ ha hp
  · intro ha
    rw [Block.withTags_eng, hx1, copyTo_none _ x _ ha]
    rfl
  · intro m hm
    rw [Block.withTags_eng]
    exact hothers m hm

end

/-- Settles O29: CAMQ by the state of its tag, of Flowstone and of the queue, and the way of a batch of one record from its dispatch to its
completion. Where a dispatch is in progress CAMQ brings it up to its instant first, and no dispatch touches an engine. -/
theorem flowstoneBatches : Obligations.FlowstoneBatches := by
  unfold Obligations.FlowstoneBatches
  refine ⟨?_, ?_, ?_, ?_, ?_, ?_, ?_, ?_, ?_⟩
  · intro s e f k h hk hlast htag hrun hbusy hroom
    exact camq_enters h hk hlast htag hrun hbusy hroom
  · intro s e f k b0 h hk hlast htag hrun h0 hroom
    exact camq_enters_busy h hk hlast htag hrun h0 hroom
  · intro s e f k h hk hlast hno
    exact camq_refuses h hk hlast hno
  · intro s e f k h hk hlast htag hstop
    exact camq_stopped h hk hlast htag hstop
  · intro s e f h hlast
    exact camq_traps (k := ⟨f.sel.toNat % 4, Nat.mod_lt _ (by decide)⟩) h rfl hlast
  · intro s x l hq hf hen hc hoff
    exact dispatch_holds hq hf hen hc hoff
  · intro s x l o hq hf hen hc hwhy hret hact heval
    exact dispatch_evaluates hq hf hen hc hwhy hret hact heval
  · intro s fl m o hf hq hw hcorr huncorr heval
    exact segmentFetch_evaluates hf hq hw ⟨hcorr, huncorr⟩ heval
  · intro s fl y x e k hf htodo hoff hwait hres hx he hk hr
    exact batchComplete_writes hf htodo hoff hwait hres he hx hk hr

end Sys2Proof.Machine
end
